-- ==== Sys2Proof/Word.lean ====
section
/-! DEFINITION. The word types of the model: a byte, a 64-bit register word, and a table keyed by a number. -/

namespace Sys2Proof

/-- One byte of a datagram, a BLOB or a buffer. -/
abbrev Byte := BitVec 8

/-- One register of the parameter file: every type of R77 but the BLOB fits 64 bits. -/
abbrev Word := BitVec 64

/-- Data kept per instance (a port, a lane, a context, a session, …): pairs in strictly rising order of
the key, no pair holding the value an absent key stands for, so that equal tables are equal data. -/
abbrev Table (α : Type) := List (Nat × α)

end Sys2Proof
end

