-- ==== Sys2Proof/Syntax.lean ====
section
/-! DEFINITION. The commands of the block: one constructor for every row of spec/opcode_table.json, with the row's
operands. The row gives a command no bits; its operands are what the rule it cites makes the step depend on. -/

namespace Sys2Proof

/-! ### NMP (spec/03) -/

/-- The far end of an NMP datagram: its address, IPv4 or IPv6, and its UDP port (R63). -/
structure Peer where
  v6 : Bool := false
  addr : Nat := 0
  udp : Nat := 0
  deriving DecidableEq, Repr

/-- Where a request came from: the Ethernet port, the session named in its header, its SEQUENCE (Table 03-1), and its source (R63). -/
structure Req where
  port : Nat
  sess : Nat
  seq : Nat
  peer : Peer := {}
  deriving DecidableEq, Repr

/-- A parameter entry of Table 03-5: header fields and value bytes; LENGTH is the number of value bytes. -/
structure Entry where
  id : Nat
  type : Nat
  flags : Nat
  value : List Byte
  deriving DecidableEq, Repr

/-- What names a counter group in OBS_READ and COUNTER_RESET (R489). -/
structure GroupRef where
  group : Nat
  inst : Nat
  deriving DecidableEq, Repr

/-! ### Sensor ports (spec/04) -/

/-- The measurements of the line-health test on one lane: both legs in mV, their difference in mV, both rises in mV/µs. -/
structure LineMeas where
  lane : Fin 4
  pMv : Int
  nMv : Int
  diffMv : Int
  riseP : Int
  riseN : Int
  deriving DecidableEq, Repr

/-! ### Media (spec/13) -/

/-- What the recorder finds on a root port: link generation and width, identity and capacity of NSID 1 in 4,096-byte LBAs,
whether every required property is there (R344), and the content of the blocks that are not zero, by LBA. -/
structure SsdInfo where
  gen : Nat
  width : Nat
  id : Nat
  capacity : Nat
  supported : Bool
  content : List (Nat × List Byte)
  deriving DecidableEq, Repr

/-! ### DRAM (spec/16) -/

/-- A request that waits at a subchannel: its requester (Table 16-4), whether it writes, its physical address, and how long it has
waited, in ns. -/
structure DramReq where
  requester : Nat
  write : Bool
  addr : Nat
  age : Nat
  deriving DecidableEq, Repr

/-- The commands. Each docstring names the rule of the row. -/
inductive Instr where
  -- Power, reset and boot (spec/01, 19, 20).
  /-- R497: a core-side rail stays below its minimum for `ns` nanoseconds. -/
  | powerLoss (ns : Nat)
  /-- R26, R501: all supplies valid with RST_N high; the four bank supplies (I2CA, I2CB, AUD, SYNC) in mV. -/
  | powerOnSuppliesValid (bankMv : List Nat)
  /-- R501: bank supply `bank` stays outside the range of its sensed voltage for `ns` nanoseconds. -/
  | bankSupplyFault (bank : Fin 4) (ns : Nat)
  /-- R476: a low pulse of `ns` nanoseconds on RST_N. -/
  | rstNLow (ns : Nat)
  /-- R476, R479, R482: internal reset ends; the boot ROM reads the board configuration block, the headers of slots 1 to 3
  and finds `absent` Ledger records with a failed CRC. -/
  | internalResetEnd (bcb : List Byte) (headers : List (List Byte)) (crcErrors : List Nat)
  /-- R480: reading and verification of the selected image completes. -/
  | bootImageVerified (header body : List Byte)
  /-- R483, R481: Negor confirms its start. -/
  | negorStartConfirm
  /-- R483: 500 ms pass without confirmation. -/
  | bootConfirmTimeout
  /-- R483: the 1 s BOOT record of a device without a bootable image. -/
  | goldenInvalidBootRecord
  /-- R478: the control-cluster watchdog expires. -/
  | watchdogExpiry
  /-- R478: a restarted Negor does not confirm within 300 ms. -/
  | restartConfirmTimeout

  -- The Frame Tick, plans and profiles (spec/02).
  /-- R34: the Tick Generator places a tick edge; `drained` where the Scene section has finished with the running job, and only the Rendition section has not
  (R47, R192); `built` where the ST 2110 packet builders have finished theirs (R46, R47). -/
  | tickEdge (drained built : Bool)
  /-- R38: 8 consecutive ticks within ±100 ns. -/
  | tickLockAchieved
  /-- R39: holdover has lasted HOLDOVER_LIMIT. -/
  | holdoverLimitExpiry
  /-- R46: the tick budget ends; whether the ST 2110 packet builders still run their job of the tick (R40). -/
  | tickBudgetEnd (building : Bool)
  /-- R190: the running job of context `ctx` finishes through both sections after `sceneCycles` Scene cycles, `endNs` after
  the tick edge; `sceneLate`, `rendLate` and `statsLate` say whether the Scene section, the Rendition section and the statistics
  renderers ended after the tick budget (R46). -/
  | jobComplete (ctx : Fin 32) (sceneCycles endNs : Nat) (sceneLate rendLate statsLate : Bool)
  /-- R50: maintenance activity `act` (0 to 3, Table 02-6) falls due, for DRAM channel `ch` where it names one. -/
  | maintRequest (act : Fin 4) (ch : Fin 8)
  /-- R50: the running stall-class activity finishes; `failed` lists monitors whose recalibration self-test failed (R461). -/
  | maintActivityDone (failed : List Nat)
  /-- R196: the early-start context becomes eligible. -/
  | earlyStartEligible
  /-- R194: a stripe of the running stripe-mode job ends. -/
  | stripeComplete
  /-- R58: Negor completes re-admission for a changed cap. -/
  | readmissionDone
  /-- R54: the memory controller is back in service; `failed` lists channels that do not work at the new speed. -/
  | dramSpeedChangeDone (failed : List Nat)
  /-- R55: a write of CUSTOM_BASE. -/
  | customBaseWrite (r : Req) (value : Nat)
  /-- R36: a commit of TICK_SOURCE, TICK_OFFSET and TICK_FALLBACK. -/
  | tickSourceWrite (r : Req) (source : Nat) (offset : Int) (fallback : Nat)
  /-- R37: a commit of TICK_RATE_N and TICK_RATE_D. -/
  | tickRateWrite (r : Req) (n d : Nat)
  /-- R54: a commit of PROFILE. -/
  | profileWrite (r : Req) (value : Nat)

  -- The Negor Mailbox Protocol and ownership (spec/03).
  /-- R65: a UDP datagram on port 47110: Ethernet port, VLAN (0 untagged), source, destination address (4 or 16 bytes), UDP payload length, whether it
  arrived as IP fragments, its bytes. -/
  | nmpDatagramRx (port : Fin 2) (vlan : Nat) (peer : Peer) (dst : List Byte) (udpLen : Nat) (fragmented : Bool) (bytes : List Byte)
  /-- R66: a segmented request is not complete 500 ms after its first segment. -/
  | nmpReassemblyTimeout (sess seq : Nat)
  /-- R67: an accepted SESSION_OPEN request with its source and its payload. -/
  | sessionOpen (port : Fin 2) (peer : Peer) (seq : Nat) (payload : List Byte)
  /-- R72. -/
  | sessionClose (r : Req)
  /-- R72: the payload is the acknowledgement, optionally followed by a class mask. -/
  | heartbeat (r : Req) (payload : List Byte)
  /-- R72: SESSION_IDLE_LIMIT passes without an authenticated request. -/
  | sessionIdleClose (sess : Nat)
  /-- R477. -/
  | deviceRestart (r : Req)
  /-- R477: 10 ms after the DEVICE_RESTART reply. -/
  | deviceRestartDelayEnd
  /-- R76. -/
  | paramGet (r : Req) (entries : List Entry)
  /-- R78. -/
  | paramSet (r : Req) (entries : List Entry)
  /-- R79: `target` is the target ticket of the Ticket rule, 0 for as soon as possible (Table 03-6). -/
  | paramCommit (r : Req) (target : Nat)
  /-- R73: discards the session's staged values. -/
  | paramDiscard (r : Req)
  /-- R81. -/
  | paramDescribe (r : Req) (ids : List Nat)
  /-- R80: a commit of one parameter that has no behaviour of its own. -/
  | paramWritePlain (r : Req) (id : Nat) (value : List Byte)
  /-- R83. -/
  | ownAcquire (r : Req) (cells : List Nat) (leaseMs : Nat)
  /-- R82. -/
  | ownRelease (r : Req) (cells : List Nat)
  /-- R86. -/
  | ownQuery (r : Req) (cells : List Nat)
  /-- R86: cells with their expected GEN. -/
  | ownReclaim (r : Req) (cells : List (Nat × Nat))
  /-- R85: a cell's EXPIRY passes. -/
  | leaseExpiry (cell : Fin 64)
  /-- R44. -/
  | planQuery (r : Req)
  /-- R87. -/
  | bufAlloc (r : Req) (cell size : Nat)
  /-- R89. -/
  | bufFree (r : Req) (handle : Nat)
  /-- R73: state of a buffer. -/
  | bufInfo (r : Req) (handle : Nat)
  /-- R89: the first packet of an RDMA WRITE or READ on `key` by a queue pair, its RETH range, and the data of a WRITE. -/
  | bufRdmaAccess (qp key : Nat) (write : Bool) (offset length : Nat) (data : List Byte)
  /-- R73: a request whose opcode is outside Table 03-2. -/
  | unsupportedOpcode (r : Req) (opcode : Nat)
  /-- R92: an unacknowledged NOTIFY is sent again or given up. -/
  | notifyRetransmit (sess seq : Nat)
  /-- R69: a commit of OWNER_KEY. -/
  | ownerKeyWrite (r : Req) (key : List Byte)
  /-- R89: an RDMA WRITE or READ message on a buffer key completes on a queue pair. -/
  | rdmaMessageComplete (qp key : Nat) (write : Bool)

  -- Sensor ports (spec/04).
  /-- R117: a commit of PORT_ENABLE. -/
  | sensorPortEnableWrite (r : Req) (port : Fin 16) (value : Nat)
  /-- R128: a commit of XTRIG_ENABLE. -/
  | xtrigEnableWrite (r : Req) (n : Fin 16) (value : Nat)
  /-- R101: a 66-bit block: header with the first bit in bit 1 (01 data, 10 control), payload as received. -/
  | crlBlockRx (port : Fin 16) (lane : Fin 4) (hdr : Fin 4) (payload : BitVec 64)
  /-- R114: 65,536 block times in POLARITY. -/
  | polarityTimeout (port : Fin 16) (lane : Fin 4)
  /-- R111: 64 consecutive valid headers in BLOCK_LOCK. -/
  | blockLockAchieved (port : Fin 16) (lane : Fin 4)
  /-- R115: lanes (4 × port + lane) that lose block lock in one block time. -/
  | blockLockLoss (lanes : List (Fin 64))
  /-- R519, R121: lanes (4 × port + lane) whose CDR loses lock in one block time. -/
  | cdrLockLoss (lanes : List (Fin 64))
  /-- R98. -/
  | lineHealthTestDone (port : Fin 16) (m : List LineMeas)
  /-- R99. -/
  | healthRetestTimer (port : Fin 16) (lane : Fin 4)
  /-- R112: whether the attempt found block lock, invalid headers in its verification, the eye margin in 1/64 UI. -/
  | acquireAttemptEnd (port : Fin 16) (lane : Fin 4) (lock : Bool) (bad eye : Nat)
  /-- R113: no signal for 100 ms. -/
  | noSignalTimeout (port : Fin 16) (lane : Fin 4)
  /-- R113: the amplitude falls below 50 mVppd (`below`) or rises again. -/
  | noSignalChange (port : Fin 16) (lane : Fin 4) (below : Bool)
  /-- R116: the descrambled payload at an ALIGN position, none where no control block stands there, and its arrival in UI. -/
  | crlAlignRx (port : Fin 16) (lane : Fin 4) (align : Option (BitVec 64)) (ui : Nat)
  /-- R111: 49,152 block times without a valid ALIGN in IDENTIFY. -/
  | identifyTimeout (port : Fin 16) (lane : Fin 4)
  /-- R103. -/
  | crlUnknownControl (port : Fin 16)
  /-- R110. -/
  | crlDataOutsideLine (port : Fin 16)
  /-- R138: FRAME_START with its FRAME_COUNT. -/
  | crlFrameStartRx (port : Fin 16) (frameCount : Nat)
  /-- R138: FRAME_END with its FRAME_COUNT and LINES_SENT. -/
  | crlFrameEndRx (port : Fin 16) (frameCount linesSent : Nat)
  /-- R142: an active line: LINE_NUMBER of LINE_START and LINE_END, WIDTH_CODE, LENGTH, line payload, LINE_CRC. -/
  | crlLineRx (port : Fin 16) (number endNumber width len : Nat) (payload : List Byte) (crc : Nat)
  /-- R147: an embedded line; `type` 0 is LINE_TYPE 1, 1 is LINE_TYPE 2. -/
  | embeddedLineRx (port : Fin 16) (type : Fin 2) (number endNumber : Nat) (payload : List Byte) (crc : Nat)
  /-- R127: the pattern generator starts a frame. -/
  | patgenFrameStart (port : Fin 16)
  /-- R128. -/
  | xtrigPulseStart (n : Fin 16)
  /-- R129. -/
  | xtrigPulseEnd (n : Fin 16)

  -- Ingest and TRF (spec/05, 06).
  /-- R134: a commit of CONTEXT. -/
  | contextBindWrite (r : Req) (port : Fin 16) (value : Nat)
  /-- R149: a commit of DEFECT_MAP. -/
  | defectMapWrite (r : Req) (port : Fin 16) (flags : Nat) (value : List Byte)
  /-- R138. -/
  | ingestDeadline (port : Fin 16)
  /-- R180. -/
  | trfTileRowWritten (port : Fin 16)
  /-- R153. -/
  | frameTicketWrite (port : Fin 16)


  -- Chamois (spec/07, 08).
  /-- R188: a commit of CTX_ENABLE. -/
  | ctxEnableWrite (r : Req) (ctx : Fin 32) (value : Nat)
  /-- R218: a commit of LSC_TABLE. -/
  | lscTableWrite (r : Req) (ctx : Fin 32) (flags : Nat) (value : List Byte)
  /-- R227: a commit of SHAPER_TABLE (`tone` false) or TONE_TABLE. -/
  | table1dWrite (r : Req) (ctx : Fin 32) (rend : Fin 4) (tone : Bool) (flags : Nat) (value : List Byte)
  /-- R230: a commit of SCALER_TABLE. -/
  | scalerTableWrite (r : Req) (ctx : Fin 32) (rend : Fin 4) (flags : Nat) (value : List Byte)
  /-- R229: a commit of LUT3D. -/
  | lut3dWrite (r : Req) (ctx : Fin 32) (rend : Fin 4) (flags : Nat) (value : List Byte)
  /-- R229: the load of a 3D LUT into its pending slot is complete. -/
  | lutPendingLoadDone (ctx : Fin 32) (rend : Fin 4)

  -- Sensor control and exposure (spec/09).
  /-- R245: a commit of SENSOR_DESC; `flags` 2 passes the BLOB by buffer handle and byte count (R77). -/
  | sensorDescWrite (r : Req) (port : Fin 16) (flags : Nat) (value : List Byte)
  /-- R249: a commit of SENSOR_MODE. -/
  | sensorModeWrite (r : Req) (port : Fin 16) (value : Nat)
  /-- R249: the last write of a mode sequence and its defaults completes. -/
  | modeSequenceDone (port : Fin 16)
  /-- R249: 10 ms after a failed pass. -/
  | modeSequenceRetry (port : Fin 16)
  /-- R254: the request payload: header of Table 09-7 and control entries. -/
  | exposeRequest (r : Req) (payload : List Byte)
  /-- R251: the write window of the latest frame of a port opens. -/
  | writeWindowOpen (port : Fin 16)
  /-- R255: the last transaction of a write set has completed. -/
  | writeSetComplete (port : Fin 16)
  /-- R248: a WAIT of a mode sequence ends. -/
  | sequenceWaitEnd (port : Fin 16)

  -- I2C (spec/10).
  /-- R272: a commit of I2C_ENABLE. -/
  | i2cEnableWrite (r : Req) (bus : Fin 12) (value : Nat)
  /-- R279: a commit of XFER_DESC. -/
  | xferDescWrite (r : Req) (bus : Fin 12) (flags : Nat) (value : List Byte)
  /-- R273, R275: the line test ends: SCL low for SCL_LOW_TIMEOUT, a driven line high, lines shorted, SDA low with SCL high. -/
  | i2cLineTestDone (bus : Fin 12) (sclLow drivenHigh shorted sdaLow : Bool)
  /-- R274: CLEARING ends; `released` where SDA read high within nine pulses. -/
  | i2cClearingDone (bus : Fin 12) (released : Bool)
  /-- R275: BUS_RETRY_INTERVAL has elapsed in FAULT. -/
  | i2cFaultRetry (bus : Fin 12)
  /-- R272: a STOP was seen, or both lines have been high for 50 µs. -/
  | i2cBusFree (bus : Fin 12)
  /-- R276: the STOP of the own transaction; which byte was not acknowledged, data bytes acknowledged, data read. -/
  | i2cTransactionDone (bus : Fin 12) (nackAddr nackData : Bool) (acked : Nat) (data : List Byte)
  /-- R282, R283: arbitration lost in an address or data bit (0), during STOP (1), during a repeated START (2). -/
  | i2cArbLost (bus : Fin 12) (place : Fin 3) (acked : Nat) (data : List Byte)
  /-- R284. -/
  | i2cBusError (bus : Fin 12) (acked : Nat)
  /-- R272: START by another controller. -/
  | i2cOtherStart (bus : Fin 12)
  /-- R285. -/
  | i2cSclTimeout (bus : Fin 12) (acked : Nat)
  /-- R272: SDA low with SCL high for SDA_LOW_TIMEOUT in OTHER. -/
  | i2cSdaLowTimeout (bus : Fin 12)
  /-- R271. -/
  | i2cDriveFail (bus : Fin 12) (acked : Nat)
  /-- R278: one acknowledge poll. -/
  | i2cPoll (bus : Fin 12)
  /-- R278. -/
  | i2cPollTimeout (bus : Fin 12)


  -- Display heads (spec/11).
  /-- R291: a commit of HEAD_ENABLE. -/
  | headEnableWrite (r : Req) (head : Fin 4) (value : Nat)
  /-- R291: HPD rises; `caps` is what the DPCD of the sink reports, as SINK_CAPS. -/
  | hpdRise (head : Fin 4) (caps : Nat)
  /-- R291: HPD has been low for 2 ms. -/
  | hpdLowTimeout (head : Fin 4)
  /-- R291: an HPD IRQ; whether it reports a link-status failure. -/
  | hpdIrq (head : Fin 4) (linkFailure : Bool)
  /-- R291: training ends; the (rate code, lanes) combinations at which it succeeds on this link. -/
  | linkTrainingDone (head : Fin 4) (works : List (Nat × Nat))
  /-- R292: the first active line of a frame starts; the phase error in ns against the tick, used at an alignment point. -/
  | displayFrameStart (head : Fin 4) (phaseErr : Int)
  /-- R297: the end of the last active line. -/
  | displayLatchPoint (head : Fin 4)
  /-- R300: a line starts. -/
  | displayLineStart (head : Fin 4) (line : Nat)
  /-- R306: data of a layer is late from pixel `x` of a line. -/
  | layerUnderflow (head layer : Fin 4) (line x : Nat)


  -- Ethernet, streams, time and the ring (spec/12).
  /-- R311: a commit of ETH_ENABLE, or of ETH_MODE where `mode` is true. -/
  | ethEnableWrite (r : Req) (port : Fin 2) (mode : Bool) (value : Nat)
  /-- R311: alignment and FEC lock on all lanes. -/
  | ethLockAchieved (port : Fin 2)
  /-- R311: 500 ms in TRAINING without lock. -/
  | ethTrainingTimeout (port : Fin 2)
  /-- R311: lock lost, or uncorrectable codewords in 8 consecutive intervals, `uncorrected` of them in all. -/
  | ethLinkLoss (port : Fin 2) (uncorrected : Nat)
  /-- R313: a PFC frame: the priority it names and its pause time in quanta of 512 bit times, 0 a release. -/
  | pfcPauseRx (port : Fin 2) (priority : Fin 8) (quanta : Nat)
  /-- R313: a pause has lasted PFC_STORM_LIMIT. -/
  | pfcStorm (port : Fin 2)
  /-- R313: the RoCEv2 receive buffer passes 75 % (`above`) or falls below 50 %. -/
  | pfcRxBufferThreshold (port : Fin 2) (above : Bool)
  /-- R313: a CNP for queue pair `qp`. -/
  | cnpRx (qp : Nat)
  /-- R313: 50 µs after the rate of a queue pair last changed. -/
  | cnpRateRecovery (qp : Nat)
  /-- R313: an ECN-marked packet of a queue pair. -/
  | ecnMarkedRx (qp : Nat)
  /-- R315: a connect request of the buffer service: VLAN, the requester's queue pair number, path MTU in bytes (R314) and the private
  data. -/
  | bufferServiceConnect (port : Fin 2) (vlan : Nat) (qpn : BitVec 24) (mtu : Nat) (data : List Byte)
  /-- R317: SENDER_OFFSET after a tick on which the source of stream `n` runs. -/
  | senderAlignmentPoint (n : Fin 80)
  /-- R320: a packet for audio receiver `n`: path, VLAN, RTP sequence number and timestamp, payload. -/
  | st2110AudioRxPacket (n : Fin 16) (path : Fin 2) (vlan : Nat) (seq : BitVec 16) (stamp : BitVec 32) (payload : List Byte)
  /-- R322: a PTP message: port, VLAN, its bytes from the PTP header on. -/
  | ptpMessageRx (port : Fin 2) (vlan : Nat) (bytes : List Byte)
  /-- R323: PTP_ANNOUNCE_TIMEOUT announce intervals without the selected master. -/
  | ptpAnnounceTimeout
  /-- R321: a commit of TIME_SET. -/
  | timeSetWrite (r : Req) (value : Nat)
  /-- R327, R328: an edge on FSYNC_IN `n`. -/
  | fsyncEdge (n : Fin 2) (rising : Bool)
  /-- R328: no accepted edge for 1.5 periods. -/
  | fsyncStop (n : Fin 2)
  /-- R342: a commit of RING_ENABLE. -/
  | ringEnableWrite (r : Req) (value : Nat)
  /-- R335: block lock with polarity corrected. -/
  | ringBlockLock (port : Fin 4)
  /-- R332: a TICK block with its TIME_LO and TIME_HI blocks: their payloads, and the arrival of the first bit in ps after the
  device clock. -/
  | ringTickRx (port : Fin 4) (tick lo hi : BitVec 64) (ps : Fin 1000)
  /-- R334: an EVENT block. -/
  | ringEventRx (port : Fin 4) (block : BitVec 64)
  /-- R332: a DELAY_REQ and the time from its arrival to the response, in 1/64 ns. -/
  | ringDelayReqRx (port : Fin 4) (block : BitVec 64) (turnaround : Nat)
  /-- R332: a DELAY_RESP and the round trip in 1/64 UI. -/
  | ringDelayRespRx (port : Fin 4) (block : BitVec 64) (roundTrip : Nat)
  /-- R331: a STATUS block; `child`: the port is the neighbour's parent port (R330). -/
  | ringStatusRx (port : Fin 4) (block : BitVec 64) (child : Bool)
  /-- R331: the 1 ms interval of STATUS and DELAY_REQ. -/
  | ringPeriodicSend
  /-- R335: 16 invalid headers in 64 blocks, loss of block lock, or no STATUS for 3 ms; the invalid headers met. -/
  | ringLinkLoss (port : Fin 4) (headerErrors : Nat)
  /-- R334: channel `c` is fired through the Event Fabric. -/
  | ringEventSend (c : Fin 64)
  /-- R317: the next packet of stream `n` leaves. -/
  | st2110PacketSend (n : Fin 80)
  /-- R322: an interval expires: 0 announce, 1 sync, 2 delay request. -/
  | ptpIntervalSend (port : Fin 2) (kind : Fin 3)
  /-- R314: the local ACK timeout of a queue pair; `progress` where an acknowledgement has come since the timeout before. -/
  | localAckTimeout (qp : Nat) (progress : Bool)
  /-- R310: 0 an ARP request, 1 a neighbour solicitation, 2 an ICMP echo request, 3 an ICMPv6 echo request, 4 an IGMPv3 query,
  5 an MLDv2 query; the address asked for or sent to (4 or 16 bytes) and the data. -/
  | arpNdpIcmpRx (port : Fin 2) (vlan : Nat) (kind : Fin 6) (address data : List Byte)


  -- Recording and media (spec/13).
  /-- R356: the recorder mounts. -/
  | mediaMount
  /-- R348: a commit of MEDIA_FORMAT. -/
  | mediaFormatWrite (r : Req) (flags : Nat) (value : List Byte)
  /-- R348: the writes of MEDIA_FORMAT are complete. -/
  | mediaFormatDone
  /-- R364: a commit of MEDIA_REBUILD. -/
  | mediaRebuildWrite (r : Req) (value : Nat)
  /-- R364: the rebuild has copied everything. -/
  | mediaRebuildDone
  /-- R358: the request payload of Table 13-13. -/
  | clipStart (r : Req) (payload : List Byte)
  /-- R360: the request payload of Table 13-13. -/
  | clipStop (r : Req) (payload : List Byte)
  /-- R368: a commit of CLIP_DELETE. -/
  | clipDeleteWrite (r : Req) (value : Nat)
  /-- R368: a commit of CLIP_META. -/
  | clipMetaWrite (r : Req) (slot : Fin 4) (flags : Nat) (value : List Byte)
  /-- R361: the recorder starts the VIDEO chunk of the oldest frame of a port with a written ticket and no chunk. -/
  | videoChunkStart (port : Fin 16)
  /-- R361: the oldest VIDEO chunk of a port in progress is fully written. -/
  | videoChunkWritten (port : Fin 16)
  /-- R354: a commit point. -/
  | recorderCommitPoint
  /-- R354: the last journal write of the running commit completes. -/
  | recorderCommitDone
  /-- R363: a command does not complete within MEMBER_TIMEOUT. -/
  | memberTimeout (port : Fin 4)
  /-- R363: CSTS.CFS is set (0), the PCIe link goes down (1), a Write or Flush fails twice (2). -/
  | memberFail (port : Fin 4) (cause : Fin 3)
  /-- R344: an SSD appears on a root port, or none is there any more. -/
  | ssdPresenceChange (port : Fin 4) (info : Option SsdInfo)


  -- The storage target (spec/14).
  /-- R372: the RDMA connection and Connect of an admin queue: VLAN, path MTU in bytes, command identifier, whether it names the discovery NQN, SQSIZE, KATO
  in ms, HOSTNQN and the 16 bytes of HOSTID. -/
  | nvmfAdminConnect (port : Fin 2) (vlan mtu cid : Nat) (discovery : Bool) (sqsize kato : Nat) (hostNqn hostId : List Byte)
  /-- R371: the RDMA connection and Connect of an I/O queue; VLAN and path MTU as above. -/
  | nvmfIoConnect (port : Fin 2) (vlan mtu cid cntlid qid sqsize : Nat)
  /-- R384: the offset of the property. -/
  | nvmfPropertyGet (cntlid cid offset : Nat)
  /-- R384. -/
  | nvmfPropertySet (cntlid cid offset value : Nat)
  /-- R395: on the admin queue (`qid` 0) or an I/O queue. -/
  | nvmfDisconnect (cntlid qid cid : Nat)
  /-- R385: offset and count in dwords. -/
  | nvmeGetLogPage (cntlid cid lid offset count : Nat)
  /-- R382. -/
  | nvmeIdentify (cntlid cid cns nsid : Nat)
  /-- R389: the SQID and CID that the Abort names. -/
  | nvmeAbort (cntlid cid sqid target : Nat)
  /-- R373, R380, R393, R396: the feature and Dword 11. -/
  | nvmeSetFeatures (cntlid cid fid value : Nat)
  /-- R380. -/
  | nvmeGetFeatures (cntlid cid fid sel : Nat)
  /-- R396. -/
  | nvmeAsyncEventRequest (cntlid cid : Nat)
  /-- R388: commit action and slot. -/
  | nvmeFirmwareCommit (cntlid cid ca slot : Nat)
  /-- R387: the offset in bytes and the data, whose length is the length of the command. -/
  | nvmeFirmwareImageDownload (cntlid cid offset : Nat) (data : List Byte)
  /-- R394. -/
  | nvmeKeepAlive (cntlid cid : Nat)
  /-- R382, R383: an opcode that the queue does not support. -/
  | nvmeInvalidOpcode (cntlid qid cid opcode : Nat)
  /-- R376: namespace, first LBA and number of blocks. -/
  | nvmeRead (cntlid qid cid nsid slba blocks : Nat) (fua : Bool)
  /-- R378: `data` is what an RDMA READ finds in the host's memory. -/
  | nvmeWrite (cntlid qid cid nsid slba blocks : Nat) (fua : Bool) (data : List Byte)
  /-- R383. -/
  | nvmeWriteZeroes (cntlid qid cid nsid slba blocks : Nat) (fua : Bool)
  /-- R379. -/
  | nvmeFlush (cntlid qid cid nsid : Nat)
  /-- R390: the SSD and RDMA work of a started command is complete; whether its data met a transport error (R383). -/
  | nvmeCommandComplete (cntlid qid cid : Nat) (dataError : Bool)
  /-- R381: the data of the next command that waits at a pacer fits. -/
  | pacerRelease (port : Fin 2)
  /-- R394. -/
  | katoExpiry (cntlid : Nat)
  /-- R395: the admin queue pair (`qid` 0) or an I/O queue pair is lost. -/
  | nvmfQueuePairLoss (cntlid qid : Nat)
  /-- R398: a commit of TARGET_ENABLE. -/
  | targetEnableWrite (r : Req) (value : Nat)


  -- Audio ports and sample clocks (spec/15).
  /-- R408: a commit of PORT_ENABLE of an audio port. -/
  | audioPortEnableWrite (r : Req) (port : Fin 8) (value : Nat)
  /-- R407: a commit of AUD_RING. -/
  | audRingWrite (r : Req) (port : Fin 8) (flags : Nat) (value : List Byte)
  /-- R412: a commit of SLOT_MASK. -/
  | slotMaskWrite (r : Req) (port : Fin 8) (value : Nat)
  /-- R413: a commit of MUTE. -/
  | muteWrite (r : Req) (port : Fin 8) (value : Nat)
  /-- R410: a commit of APPL_POSITION. -/
  | applPositionWrite (r : Req) (port : Fin 8) (value : Nat)
  /-- R403: a commit of FAMILY_SOURCE. -/
  | familySourceWrite (r : Req) (family : Fin 2) (value : Nat)
  /-- R410: one sample frame; on an input the slots as received, each a number of SLOT_WIDTH bits. -/
  | audioSampleFrame (port : Fin 8) (slots : List Nat)
  /-- R413: MUTE_TIMEOUT passes without a crossing. -/
  | audioMuteTimeout (port : Fin 8)
  /-- R409: a period boundary. -/
  | audioPeriodBoundary (port : Fin 8)
  /-- R410: an FS edge of a follower `offset` bit clocks after the frame boundary; `drift` is the whole frames by which FS has
  drifted from the family clock at it: positive where FS is late. -/
  | audioFsEdge (port : Fin 8) (offset : Nat) (drift : Int)
  /-- R410: no FS edge for 1.5 frames. -/
  | audioFsLost (port : Fin 8)
  /-- R404: an edge of the word clock and the phase error in ns it leaves. -/
  | wordclockEdge (family : Fin 2) (phaseErr : Int)
  /-- R404: the word clock stops. -/
  | wordclockStop (family : Fin 2)
  /-- R404: a phase error below 20 ns for 16 consecutive frames. -/
  | familyLockAchieved (family : Fin 2)
  /-- R405: the phase error has reached whole frames; positive where frames are inserted, negative where they are dropped. -/
  | familySlip (family : Fin 2) (frames : Int)


  -- DRAM (spec/16).
  /-- R432: initial training ends; the smallest read eye and write eye of channels 0 to 7, in 1/64 UI. -/
  | dramTrainingDone (eyes : List (Nat × Nat))
  /-- R433, R434: an interval retraining ends; the read and write eye of the setting found, none where none works. -/
  | dramRetrainDone (ch : Fin 8) (eye : Option (Nat × Nat))
  /-- R435: a channel fails: 0 in training, 1 in retraining, 2 by write CRC. -/
  | dramChannelFail (ch : Fin 8) (cause : Fin 3)
  /-- R423, R424: a read returns a codeword with errors that the decoder corrects: its physical address, its
  requester and the 80 symbols. -/
  | dramCorrectedRead (addr : Nat) (requester : Fin 9) (symbols : List Byte)
  /-- R436: an uncorrectable codeword: its physical address, requester, CAUSE − 1 (Table 16-6) and the 80 symbols. -/
  | dramUncorrectable (addr : Nat) (requester : Fin 9) (cause : Fin 3) (symbols : List Byte)
  /-- R428, R429: a refresh of a bank index, or with ALL_BANK of a rank, falls due; whether its banks hold pending real-time row
  hits. -/
  | dramRefreshDue (ch : Fin 8) (sub : Fin 2) (rank : Fin 2) (index : Fin 4) (hits : Bool)
  /-- R428: MR4 of the ranks of a channel: whether one reports the doubled rate, and the DRAM temperature in °C. -/
  | dramMr4Poll (ch : Fin 8) (doubled : Bool) (temp : Int)
  /-- R431. -/
  | dramAlertN (ch : Fin 8)
  /-- R438: a commit of DIAG_ADDRESS. -/
  | diagAddressWrite (r : Req) (address : Nat)
  /-- R426: a subchannel chooses its next command among the requests that wait, oldest first. -/
  | dramCommandSelect (ch : Fin 8) (sub : Fin 2) (reqs : List DramReq)


  -- The Event Fabric (spec/17).
  /-- R447, R449: sources that have fired reach the task inputs in one cycle. -/
  | eventSourceFire (sources : List (Fin 256))
  /-- R450. -/
  | timerExpiry (t : Fin 16)
  /-- R443: an edge on an EVIO pin. -/
  | evioInputEdge (e : Fin 6) (rising : Bool)
  /-- R451. -/
  | evioPulseEnd (e : Fin 6)
  /-- R443: a commit of SW_FIRE. -/
  | swFireWrite (r : Req) (value : Nat)
  /-- R334: a commit of EVENT_FIRE. -/
  | eventFireWrite (r : Req) (value : Nat)
  /-- R455: a commit of a flag word: 0 SRC_FIRED, 1 SRC_LOOP_SUSPECT, 2 TI_TRIGGERED, 3 TI_OVERRUN, 4 TI_COINCIDENT_FLAG. -/
  | eventFlagClearWrite (r : Req) (flag : Fin 5) (word : Fin 8) (value : Nat)
  /-- R454: a commit of SRC_ENABLE. -/
  | srcEnableWrite (r : Req) (src : Fin 256) (value : Nat)
  /-- R452. -/
  | wakeNotifyAction
  /-- R453. -/
  | wakeProfileAction

  -- Temperature, power and life (spec/18).
  /-- R460: the means of 64 samples of the diode and of each monitor, in 1/16 °C. -/
  | thermalCalibration (diode : Int) (monitors : List Int)
  /-- R459: one 100 µs sample: the diode, whether it shows an open or a short, the sixteen raw monitor readings (1/16 °C),
  and POWER_NOW in mW. -/
  | thermalSample (diode : Int) (diodeFault : Bool) (monitors : List Int) (powerMw : Nat)
  /-- R470: 1 s within limits has passed. -/
  | capStepUp
  /-- R472: the 100 ms sample of the Life Meter. -/
  | lifeMeterSample

  -- Observation (spec/19).
  /-- R490. -/
  | counterReset (r : Req) (g : GroupRef)
  /-- R489. -/
  | obsRead (r : Req) (groups : List GroupRef)
  /-- R493. -/
  | obsSubscribe (r : Req) (types rate : Nat)
  /-- R493. -/
  | obsUnsubscribe (r : Req)
  /-- R491: a trace record is produced: its TYPE, SOURCE and 24-byte payload (Table 19-8). -/
  | traceRecordProduced (type source : Nat) (payload : List Byte)
  /-- R491: TRACE_SYNC_INTERVAL expires. -/
  | traceSyncInterval
  /-- R491: room returns in the trace buffer of a destination. -/
  | traceLostRecord (dest : Fin 5)
  /-- R493: Negor sends queued records of a subscription, at most 44 in a datagram. -/
  | traceSubscriptionSend (dest : Fin 4) (count : Nat)
  /-- R501: a bank supply returns to the range of its sensed voltage. -/
  | bankSupplyReturn (bank : Fin 4)
  deriving DecidableEq, Repr

end Sys2Proof
end

