-- ==== Sys2Proof/WellFormed.lean ====
section
/-! DEFINITION. Well-formed commands: every operand that a message, a packet or a pin carries fits the field that carries it. An operand
of a finite type needs no check. -/

namespace Sys2Proof

/-- A number of at most `n` bits. -/
def fits (n v : Nat) : Bool := decide (v < 2 ^ n)

/-- The far end of a datagram: an address of its family, a UDP port. -/
def Peer.ok (p : Peer) : Bool := fits (if p.v6 then 128 else 32) p.addr && fits 16 p.udp

/-- A request: one of the two Ethernet ports, an 8-bit session, a 32-bit SEQUENCE (Table 03-1). -/
def Req.ok (r : Req) : Bool := fits 1 r.port && fits 8 r.sess && fits 32 r.seq && r.peer.ok

/-- An entry: the fields of Table 03-5. -/
def Entry.ok (e : Entry) : Bool := fits 32 e.id && fits 8 e.type && fits 8 e.flags && fits 16 e.value.length

/-- A counter group: a group and an instance of R13. -/
def GroupRef.ok (g : GroupRef) : Bool := fits 8 g.group && fits 8 g.inst

/-- A pair of 32-bit numbers. -/
def pairOk (p : Nat × Nat) : Bool := fits 32 p.1 && fits 32 p.2

/-- What an SSD reports (R344): block addresses and block lengths. -/
def SsdInfo.ok (x : SsdInfo) : Bool := fits 64 x.capacity && x.content.all fun b => fits 64 b.1 && decide (b.2.length = 4096)

/-- A request at a subchannel: one of the requesters of Table 16-4. -/
def DramReq.ok (q : DramReq) : Bool := decide (q.requester < 9) && fits 40 q.addr && fits 32 q.age

/-- A well-formed command. -/
def Instr.wf : Instr → Bool
  | .powerLoss ns => fits 64 ns
  | .powerOnSuppliesValid bankMv => bankMv.all (fits 32)
  | .bankSupplyFault _ ns => fits 64 ns
  | .rstNLow ns => fits 64 ns
  | .internalResetEnd bcb headers crcErrors => fits 32 bcb.length && (headers.all fun b => fits 32 b.length) && crcErrors.all (fits 32)
  | .bootImageVerified header body => fits 32 header.length && fits 32 body.length
  | .negorStartConfirm => true
  | .bootConfirmTimeout => true
  | .goldenInvalidBootRecord => true
  | .watchdogExpiry => true
  | .restartConfirmTimeout => true
  | .tickEdge _ _ => true
  | .tickLockAchieved => true
  | .holdoverLimitExpiry => true
  | .tickBudgetEnd _ => true
  | .jobComplete _ sceneCycles endNs _ _ _ => fits 64 sceneCycles && fits 64 endNs
  | .maintRequest _ _ => true
  | .maintActivityDone failed => failed.all (fits 32)
  | .earlyStartEligible => true
  | .stripeComplete => true
  | .readmissionDone => true
  | .dramSpeedChangeDone failed => failed.all (fits 32)
  | .customBaseWrite r value => r.ok && fits 64 value
  | .tickSourceWrite r source _ fallback => r.ok && fits 64 source && fits 64 fallback
  | .tickRateWrite r n d => r.ok && fits 32 n && fits 32 d
  | .profileWrite r value => r.ok && fits 64 value
  | .nmpDatagramRx _ vlan peer dst udpLen _ bytes => fits 12 vlan && peer.ok && decide (dst.length = 4 ∨ dst.length = 16) && fits 16 udpLen && fits 32 bytes.length
  | .nmpReassemblyTimeout sess seq => fits 8 sess && fits 32 seq
  | .sessionOpen _ peer seq payload => peer.ok && fits 32 seq && fits 32 payload.length
  | .sessionClose r => r.ok
  | .heartbeat r payload => r.ok && fits 32 payload.length
  | .sessionIdleClose sess => fits 8 sess
  | .deviceRestart r => r.ok
  | .deviceRestartDelayEnd => true
  | .paramGet r entries => r.ok && entries.all Entry.ok
  | .paramSet r entries => r.ok && entries.all Entry.ok
  | .paramCommit r target => r.ok && fits 64 target
  | .paramDiscard r => r.ok
  | .paramDescribe r ids => r.ok && ids.all (fits 32)
  | .paramWritePlain r id value => r.ok && fits 32 id && fits 32 value.length
  | .ownAcquire r cells leaseMs => r.ok && cells.all (fits 32) && fits 32 leaseMs
  | .ownRelease r cells => r.ok && cells.all (fits 32)
  | .ownQuery r cells => r.ok && cells.all (fits 32)
  | .ownReclaim r cells => r.ok && cells.all pairOk
  | .leaseExpiry _ => true
  | .planQuery r => r.ok
  | .bufAlloc r cell size => r.ok && fits 32 cell && fits 32 size
  | .bufFree r handle => r.ok && fits 64 handle
  | .bufInfo r handle => r.ok && fits 64 handle
  | .bufRdmaAccess qp key _ offset length data => fits 64 qp && fits 64 key && fits 64 offset && fits 64 length && fits 32 data.length
  | .unsupportedOpcode r opcode => r.ok && fits 16 opcode
  | .notifyRetransmit sess seq => fits 8 sess && fits 32 seq
  | .ownerKeyWrite r key => r.ok && fits 32 key.length
  | .rdmaMessageComplete qp key _ => fits 64 qp && fits 64 key
  | .sensorPortEnableWrite r _ value => r.ok && fits 64 value
  | .xtrigEnableWrite r _ value => r.ok && fits 64 value
  | .crlBlockRx _ _ _ _ => true
  | .polarityTimeout _ _ => true
  | .blockLockAchieved _ _ => true
  | .blockLockLoss _ => true
  | .cdrLockLoss _ => true
  | .lineHealthTestDone _ _ => true
  | .healthRetestTimer _ _ => true
  | .acquireAttemptEnd _ _ _ bad eye => fits 16 bad && fits 64 eye
  | .noSignalTimeout _ _ => true
  | .noSignalChange _ _ _ => true
  | .crlAlignRx _ _ _ ui => fits 64 ui
  | .identifyTimeout _ _ => true
  | .crlUnknownControl _ => true
  | .crlDataOutsideLine _ => true
  | .crlFrameStartRx _ frameCount => fits 32 frameCount
  | .crlFrameEndRx _ frameCount linesSent => fits 32 frameCount && fits 32 linesSent
  | .crlLineRx _ number endNumber width len payload crc => fits 32 number && fits 32 endNumber && fits 8 width && fits 32 len && fits 32 payload.length && fits 32 crc
  | .embeddedLineRx _ _ number endNumber payload crc => fits 32 number && fits 32 endNumber && fits 32 payload.length && fits 32 crc
  | .patgenFrameStart _ => true
  | .xtrigPulseStart _ => true
  | .xtrigPulseEnd _ => true
  | .contextBindWrite r _ value => r.ok && fits 64 value
  | .defectMapWrite r _ flags value => r.ok && fits 8 flags && fits 32 value.length
  | .ingestDeadline _ => true
  | .trfTileRowWritten _ => true
  | .frameTicketWrite _ => true
  | .ctxEnableWrite r _ value => r.ok && fits 64 value
  | .lscTableWrite r _ flags value => r.ok && fits 8 flags && fits 32 value.length
  | .table1dWrite r _ _ _ flags value => r.ok && fits 8 flags && fits 32 value.length
  | .scalerTableWrite r _ _ flags value => r.ok && fits 8 flags && fits 32 value.length
  | .lut3dWrite r _ _ flags value => r.ok && fits 8 flags && fits 32 value.length
  | .lutPendingLoadDone _ _ => true
  | .sensorDescWrite r _ flags value => r.ok && fits 8 flags && fits 32 value.length
  | .sensorModeWrite r _ value => r.ok && fits 64 value
  | .modeSequenceDone _ => true
  | .modeSequenceRetry _ => true
  | .exposeRequest r payload => r.ok && fits 32 payload.length
  | .writeWindowOpen _ => true
  | .writeSetComplete _ => true
  | .sequenceWaitEnd _ => true
  | .i2cEnableWrite r _ value => r.ok && fits 64 value
  | .xferDescWrite r _ flags value => r.ok && fits 8 flags && fits 32 value.length
  | .i2cLineTestDone _ _ _ _ _ => true
  | .i2cClearingDone _ _ => true
  | .i2cFaultRetry _ => true
  | .i2cBusFree _ => true
  | .i2cTransactionDone _ _ _ acked data => fits 16 acked && fits 32 data.length
  | .i2cArbLost _ _ acked data => fits 16 acked && fits 32 data.length
  | .i2cBusError _ acked => fits 16 acked
  | .i2cOtherStart _ => true
  | .i2cSclTimeout _ acked => fits 16 acked
  | .i2cSdaLowTimeout _ => true
  | .i2cDriveFail _ acked => fits 16 acked
  | .i2cPoll _ => true
  | .i2cPollTimeout _ => true
  | .headEnableWrite r _ value => r.ok && fits 64 value
  | .hpdRise _ caps => fits 32 caps
  | .hpdLowTimeout _ => true
  | .hpdIrq _ _ => true
  | .linkTrainingDone _ works => works.all pairOk
  | .displayFrameStart _ _ => true
  | .displayLatchPoint _ => true
  | .displayLineStart _ line => fits 16 line
  | .layerUnderflow _ _ line x => fits 16 line && fits 16 x
  | .ethEnableWrite r _ _ value => r.ok && fits 64 value
  | .ethLockAchieved _ => true
  | .ethTrainingTimeout _ => true
  | .ethLinkLoss _ uncorrected => fits 16 uncorrected
  | .pfcPauseRx _ _ quanta => fits 16 quanta
  | .pfcStorm _ => true
  | .pfcRxBufferThreshold _ _ => true
  | .cnpRx qp => fits 64 qp
  | .cnpRateRecovery qp => fits 64 qp
  | .ecnMarkedRx qp => fits 64 qp
  | .bufferServiceConnect _ vlan _ mtu data => fits 12 vlan && fits 16 mtu && fits 32 data.length
  | .senderAlignmentPoint _ => true
  | .st2110AudioRxPacket _ _ vlan _ _ payload => fits 12 vlan && fits 32 payload.length
  | .ptpMessageRx _ vlan bytes => fits 12 vlan && fits 32 bytes.length
  | .ptpAnnounceTimeout => true
  | .timeSetWrite r value => r.ok && fits 64 value
  | .fsyncEdge _ _ => true
  | .fsyncStop _ => true
  | .ringEnableWrite r value => r.ok && fits 64 value
  | .ringBlockLock _ => true
  | .ringTickRx _ _ _ _ _ => true
  | .ringEventRx _ _ => true
  | .ringDelayReqRx _ _ turnaround => fits 64 turnaround
  | .ringDelayRespRx _ _ roundTrip => fits 64 roundTrip
  | .ringStatusRx _ _ _ => true
  | .ringPeriodicSend => true
  | .ringLinkLoss _ headerErrors => fits 64 headerErrors
  | .ringEventSend _ => true
  | .st2110PacketSend _ => true
  | .ptpIntervalSend _ _ => true
  | .localAckTimeout qp _ => fits 64 qp
  | .arpNdpIcmpRx _ vlan _ address data => fits 12 vlan && fits 32 address.length && fits 32 data.length
  | .mediaMount => true
  | .mediaFormatWrite r flags value => r.ok && fits 8 flags && fits 32 value.length
  | .mediaFormatDone => true
  | .mediaRebuildWrite r value => r.ok && fits 64 value
  | .mediaRebuildDone => true
  | .clipStart r payload => r.ok && fits 32 payload.length
  | .clipStop r payload => r.ok && fits 32 payload.length
  | .clipDeleteWrite r value => r.ok && fits 64 value
  | .clipMetaWrite r _ flags value => r.ok && fits 8 flags && fits 32 value.length
  | .videoChunkStart _ => true
  | .videoChunkWritten _ => true
  | .recorderCommitPoint => true
  | .recorderCommitDone => true
  | .memberTimeout _ => true
  | .memberFail _ _ => true
  | .ssdPresenceChange _ info => info.all SsdInfo.ok
  | .nvmfAdminConnect _ vlan mtu cid _ sqsize kato hostNqn hostId => fits 12 vlan && fits 16 mtu && fits 16 cid && fits 16 sqsize && fits 32 kato && fits 32 hostNqn.length && fits 32 hostId.length
  | .nvmfIoConnect _ vlan mtu cid cntlid qid sqsize => fits 12 vlan && fits 16 mtu && fits 16 cid && fits 16 cntlid && fits 16 qid && fits 16 sqsize
  | .nvmfPropertyGet cntlid cid offset => fits 16 cntlid && fits 16 cid && fits 64 offset
  | .nvmfPropertySet cntlid cid offset value => fits 16 cntlid && fits 16 cid && fits 64 offset && fits 64 value
  | .nvmfDisconnect cntlid qid cid => fits 16 cntlid && fits 16 qid && fits 16 cid
  | .nvmeGetLogPage cntlid cid lid offset count => fits 16 cntlid && fits 16 cid && fits 8 lid && fits 64 offset && fits 32 count
  | .nvmeIdentify cntlid cid cns nsid => fits 16 cntlid && fits 16 cid && fits 8 cns && fits 32 nsid
  | .nvmeAbort cntlid cid sqid target => fits 16 cntlid && fits 16 cid && fits 16 sqid && fits 64 target
  | .nvmeSetFeatures cntlid cid fid value => fits 16 cntlid && fits 16 cid && fits 8 fid && fits 64 value
  | .nvmeGetFeatures cntlid cid fid sel => fits 16 cntlid && fits 16 cid && fits 8 fid && fits 64 sel
  | .nvmeAsyncEventRequest cntlid cid => fits 16 cntlid && fits 16 cid
  | .nvmeFirmwareCommit cntlid cid ca slot => fits 16 cntlid && fits 16 cid && fits 64 ca && fits 16 slot
  | .nvmeFirmwareImageDownload cntlid cid offset data => fits 16 cntlid && fits 16 cid && fits 64 offset && fits 32 data.length
  | .nvmeKeepAlive cntlid cid => fits 16 cntlid && fits 16 cid
  | .nvmeInvalidOpcode cntlid qid cid opcode => fits 16 cntlid && fits 16 qid && fits 16 cid && fits 16 opcode
  | .nvmeRead cntlid qid cid nsid slba blocks _ => fits 16 cntlid && fits 16 qid && fits 16 cid && fits 32 nsid && fits 64 slba && fits 32 blocks
  | .nvmeWrite cntlid qid cid nsid slba blocks _ data => fits 16 cntlid && fits 16 qid && fits 16 cid && fits 32 nsid && fits 64 slba && fits 32 blocks && fits 32 data.length
  | .nvmeWriteZeroes cntlid qid cid nsid slba blocks _ => fits 16 cntlid && fits 16 qid && fits 16 cid && fits 32 nsid && fits 64 slba && fits 32 blocks
  | .nvmeFlush cntlid qid cid nsid => fits 16 cntlid && fits 16 qid && fits 16 cid && fits 32 nsid
  | .nvmeCommandComplete cntlid qid cid _ => fits 16 cntlid && fits 16 qid && fits 16 cid
  | .pacerRelease _ => true
  | .katoExpiry cntlid => fits 16 cntlid
  | .nvmfQueuePairLoss cntlid qid => fits 16 cntlid && fits 16 qid
  | .targetEnableWrite r value => r.ok && fits 64 value
  | .audioPortEnableWrite r _ value => r.ok && fits 64 value
  | .audRingWrite r _ flags value => r.ok && fits 8 flags && fits 32 value.length
  | .slotMaskWrite r _ value => r.ok && fits 64 value
  | .muteWrite r _ value => r.ok && fits 64 value
  | .applPositionWrite r _ value => r.ok && fits 64 value
  | .familySourceWrite r _ value => r.ok && fits 64 value
  | .audioSampleFrame _ slots => slots.all (fits 32)
  | .audioMuteTimeout _ => true
  | .audioPeriodBoundary _ => true
  | .audioFsEdge _ offset _ => fits 64 offset
  | .audioFsLost _ => true
  | .wordclockEdge _ _ => true
  | .wordclockStop _ => true
  | .familyLockAchieved _ => true
  | .familySlip _ _ => true
  | .dramTrainingDone eyes => eyes.all pairOk
  | .dramRetrainDone _ eye => eye.all pairOk
  | .dramChannelFail _ _ => true
  | .dramCorrectedRead addr _ symbols => fits 40 addr && fits 32 symbols.length
  | .dramUncorrectable addr _ _ symbols => fits 40 addr && fits 32 symbols.length
  | .dramRefreshDue _ _ _ _ _ => true
  | .dramMr4Poll _ _ _ => true
  | .dramAlertN _ => true
  | .diagAddressWrite r address => r.ok && fits 64 address
  | .dramCommandSelect _ _ reqs => reqs.all DramReq.ok
  | .eventSourceFire _ => true
  | .timerExpiry _ => true
  | .evioInputEdge _ _ => true
  | .evioPulseEnd _ => true
  | .swFireWrite r value => r.ok && fits 64 value
  | .eventFireWrite r value => r.ok && fits 64 value
  | .eventFlagClearWrite r _ _ value => r.ok && fits 64 value
  | .srcEnableWrite r _ value => r.ok && fits 64 value
  | .wakeNotifyAction => true
  | .wakeProfileAction => true
  | .thermalCalibration _ _ => true
  | .thermalSample _ _ _ powerMw => fits 32 powerMw
  | .capStepUp => true
  | .lifeMeterSample => true
  | .counterReset r g => r.ok && g.ok
  | .obsRead r groups => r.ok && groups.all GroupRef.ok
  | .obsSubscribe r types rate => r.ok && fits 32 types && fits 32 rate
  | .obsUnsubscribe r => r.ok
  | .traceRecordProduced type source payload => fits 8 type && fits 64 source && fits 32 payload.length
  | .traceSyncInterval => true
  | .traceLostRecord _ => true
  | .traceSubscriptionSend _ count => fits 32 count
  | .bankSupplyReturn _ => true

end Sys2Proof
end

