-- ==== Sys2Proof/Machine/Bits.lean ====
section
/-! DEFINITION. Bit fields, signed readings, byte order (R8), serial-number arithmetic (R11), exact rounding, and the
operations on tables. Everything here is a total function of plain data. -/

namespace Sys2Proof.Machine

/-! ## Bits and numbers -/

/-- Bits [hi:lo] of a number (R6). -/
def bits (v hi lo : Nat) : Nat := (v / 2 ^ lo) % 2 ^ (hi + 1 - lo)

/-- Bit `i` of a number. -/
def bit (v i : Nat) : Bool := (v / 2 ^ i) % 2 == 1

/-- `v` with bits [hi:lo] replaced by the low bits of `x`. -/
def withBits (v hi lo x : Nat) : Nat := v - bits v hi lo * 2 ^ lo + (x % 2 ^ (hi + 1 - lo)) * 2 ^ lo

/-- `v` with bit `i` set to `b`. -/
def withBit (v i : Nat) (b : Bool) : Nat := withBits v i i (if b then 1 else 0)

/-- The signed reading of the low `w` bits. -/
def toSigned (w v : Nat) : Int :=
  if v % 2 ^ w < 2 ^ (w - 1) then (v % 2 ^ w : Nat) else (v % 2 ^ w : Nat) - (2 ^ w : Nat)

/-- The low `w` bits of a signed number, in two's complement. -/
def ofSigned (w : Nat) (i : Int) : Nat := (i % (2 ^ w : Nat)).toNat

/-- The number of bits set among the low `w`. -/
def popcount (w v : Nat) : Nat := ((List.range w).filter (bit v)).length

/-- The bits set among the low `w`, lowest first. -/
def setBits (w v : Nat) : List Nat := (List.range w).filter (bit v)

/-- A mask with the listed bits set. -/
def maskOf : List Nat → Nat
  | [] => 0
  | i :: r => 2 ^ i ||| maskOf r

/-- R11: `a` is later than `b` as wrapping values of `n` bits. -/
def later (n a b : Nat) : Bool :=
  let d := (a % 2 ^ n + 2 ^ n - b % 2 ^ n) % 2 ^ n
  decide (1 ≤ d ∧ d < 2 ^ (n - 1))

/-- R11: equal or later. -/
def laterEq (n a b : Nat) : Bool := later n a b || a % 2 ^ n == b % 2 ^ n

/-- The quotient rounded up; 0 for a zero divisor. -/
def ceilDiv (a b : Nat) : Nat := if b = 0 then 0 else (a + b - 1) / b

/-- `a` rounded up to a multiple of `m`. -/
def alignUp (a m : Nat) : Nat := ceilDiv a m * m

/-- `n / d` rounded to the nearest whole number, ties to even. -/
def roundDiv (n d : Nat) : Nat :=
  if d = 0 then 0
  else
    let q := n / d
    let r := n % d
    if 2 * r < d then q else if d < 2 * r then q + 1 else if q % 2 = 0 then q else q + 1

/-- `n / d` rounded to the nearest whole number, ties to even, for a signed numerator. -/
def roundDivInt (n : Int) (d : Nat) : Int :=
  if n < 0 then -((roundDiv n.natAbs d : Nat) : Int) else (roundDiv n.natAbs d : Nat)

/-- A number limited to a closed range. -/
def clamp (lo hi v : Int) : Int := if v < lo then lo else if hi < v then hi else v

/-! ## Byte order -/

/-- The low `n` bytes of `v`, least significant first (R8). -/
def leBytes : Nat → Nat → List Byte
  | 0, _ => []
  | n + 1, v => BitVec.ofNat 8 v :: leBytes n (v / 256)

/-- The number little-endian bytes stand for (R8). -/
def leNat : List Byte → Nat
  | [] => 0
  | b :: r => b.toNat + 256 * leNat r

/-- The low `n` bytes of `v`, most significant first. -/
def beBytes (n v : Nat) : List Byte := (leBytes n v).reverse

/-- The number big-endian bytes stand for. -/
def beNat (bs : List Byte) : Nat := leNat bs.reverse

/-- `n` bytes of `bs` from offset `o`. -/
def slice (bs : List Byte) (o n : Nat) : List Byte := (bs.drop o).take n

/-- The little-endian number in `n` bytes of `bs` at offset `o`. -/
def leAt (bs : List Byte) (o n : Nat) : Nat := leNat (slice bs o n)

/-- `n` zero bytes. -/
def zeroBytes (n : Nat) : List Byte := List.replicate n 0

/-- `bs` padded with zero bytes to a multiple of `m` bytes. -/
def padTo (m : Nat) (bs : List Byte) : List Byte := bs ++ zeroBytes (alignUp bs.length m - bs.length)

/-- The ASCII bytes of a string of codes below 256. -/
def ascii (t : String) : List Byte := t.toList.map fun c => BitVec.ofNat 8 c.toNat

/-- The `n` upper-case hexadecimal digits of `v`, most significant first, as ASCII bytes. -/
def hexDigits : Nat → Nat → List Byte
  | 0, _ => []
  | n + 1, v =>
    let d := (v / 16 ^ n) % 16
    BitVec.ofNat 8 (if d < 10 then 48 + d else 55 + d) :: hexDigits n v

/-- The decimal digits of `v` as ASCII bytes, with `fuel` digits at most. -/
def decDigits : Nat → Nat → List Byte
  | 0, _ => []
  | fuel + 1, v =>
    if v < 10 then [BitVec.ofNat 8 (48 + v)]
    else decDigits fuel (v / 10) ++ [BitVec.ofNat 8 (48 + v % 10)]

/-! ## Tables -/

/-- The entry at key `k`, if one is listed. -/
def tfind {α : Type} : Table α → Nat → Option α
  | [], _ => none
  | (j, a) :: r, k => if j = k then some a else tfind r k

/-- The entry at key `k`; `d` where none is listed. -/
def tget {α : Type} (t : Table α) (k : Nat) (d : α) : α := (tfind t k).getD d

/-- `t` without an entry at `k`. -/
def tdel {α : Type} (t : Table α) (k : Nat) : Table α := t.filter fun p => decide (p.1 ≠ k)

/-- `t` with `a` listed at `k`, in key order. -/
def tins {α : Type} (t : Table α) (k : Nat) (a : α) : Table α :=
  t.filter (fun p => decide (p.1 < k)) ++ (k, a) :: t.filter (fun p => decide (k < p.1))

/-- `t` with `a` at `k`, where `d` is what an unlisted key stands for: writing `d` removes the entry. -/
def tset {α : Type} [DecidableEq α] (t : Table α) (k : Nat) (d a : α) : Table α :=
  if a = d then tdel t k else tins t k a

/-- `t` with the value at `k` changed by `f`. -/
def tmod {α : Type} [DecidableEq α] (t : Table α) (k : Nat) (d : α) (f : α → α) : Table α :=
  tset t k d (f (tget t k d))

/-- The keys of a table. -/
def tkeys {α : Type} (t : Table α) : List Nat := t.map Prod.fst

/-- The canonical form of a table whose unlisted keys stand for `d`: keys strictly rising, no entry equal to `d`. -/
abbrev twf {α : Type} (t : Table α) (d : α) : Prop :=
  (tkeys t).Pairwise (· < ·) ∧ ∀ p ∈ t, p.2 ≠ d

end Sys2Proof.Machine
end

