-- ==== Sys2Proof/Machine/Flags.lean ====
section
/-! DEFINITION. Counters and status flags: event counters with SAT (R487), byte counters, maxima, and flags that a write
of 1 clears (R455). -/

namespace Sys2Proof.Machine

/-- The largest count of an event counter (R487). -/
def countMax : Nat := 0xFFFFFFFFFFFF

/-- An event counter after `n` more events: bits [47:0] count, and at the largest count bit 63 (SAT) is set and later
events are not counted (R487). -/
def countUp (v n : Nat) : Nat :=
  if bit v 63 then v
  else if bits v 47 0 + n < countMax then bits v 47 0 + n
  else countMax + 2 ^ 63

/-- A byte counter after `n` more bytes: 64 bits, wrapping (R487). -/
def bytesUp (v n : Nat) : Nat := (v + n) % 2 ^ 64

/-- A flag word after a write of `w`: each bit written as 1 is cleared (R455). -/
def writeOneClears (v w : Nat) : Nat := v - (v &&& w)

/-- A flag word with bit `i` set. -/
def setFlag (v i : Nat) : Nat := v ||| 2 ^ i

/-- A flag word with bit `i` clear. -/
def clearFlag (v i : Nat) : Nat := writeOneClears v (2 ^ i)

end Sys2Proof.Machine
end

