-- ==== Sys2Proof/Config.lean ====
section
/-! DEFINITION. What an implementation fixes and the values the spec leaves open. Every constant here is opaque: no
proof can see a value of it. A function of a counter is a free value drawn afresh at each use (State.freeCtr). -/

namespace Sys2Proof.Config

/-! Values set at manufacture or by the board (Tables 03-10, 12-9, 16-7, 18-9, 19-9). -/

/-- VARIANT: false is CX9144-AQ2, true is CX9144-SL (R3). -/
opaque variant : BitVec 1
/-- DIE_REVISION. -/
opaque dieRevision : BitVec 16
/-- SERIAL_NUMBER. -/
opaque serialNumber : BitVec 64
/-- NEGOR_BUILD, with no bearing on behaviour. -/
opaque negorBuild : BitVec 32
/-- ORGANISATION of the DRAM, fixed by the board. -/
opaque dramOrganisation : BitVec 32
/-- MAC_ADDRESS of an Ethernet port. -/
opaque macAddress : Nat → BitVec 48
/-- KEY_HASH: the 48 bytes of the boot key hash held in fuses (R480). -/
opaque keyHash : List Byte

/-! Free values: the spec states that a value results and not which. -/

/-- The 16-byte device nonce of a SESSION_OPEN reply (R67). -/
opaque deviceNonce : Nat → BitVec 128
/-- A 64-bit buffer handle (R87). -/
opaque bufferHandle : Nat → BitVec 64
/-- A 32-bit RDMA key (R87). -/
opaque rdmaKey : Nat → BitVec 32
/-- The remote virtual address of a buffer (R87). -/
opaque remoteAddress : Nat → BitVec 64
/-- A bit that chooses between the two grid points nearest to an ideal rational position (R34). -/
opaque roundUp : Nat → Bool
/-- The power-model estimate, in mW, of a plan (R43, resource 0x07): of the parameters that are not at their reset values,
the shed items applied and the CORE clock in MHz. -/
opaque powerEstimate : List (Nat × Nat) → List Nat → Nat → BitVec 32
/-- Control traffic of a plan in bytes per tick beyond the audio rings (R43, resource 0x06). -/
opaque controlTraffic : List (Nat × Nat) → BitVec 32
/-- A 64-bit handle of a frame defect list, an embedded record, a statistics record set or a rendition buffer. -/
opaque recordHandle : Nat → BitVec 64
/-- The weight of R202 where the noise model gives σ² = 0, of the squared difference of the codes. -/
opaque zeroNoiseWeight : Nat → BitVec 5
/-- The quotient term of R206, in 1/65,536, where the noise model gives σ² = 0, of the difference of the codes. -/
opaque zeroNoiseBlend : Nat → BitVec 17
/-- The CF24 word of a zone mean or focus of a zone that holds no pixel (R238), by field. -/
opaque emptyZoneMean : Nat → BitVec 24
/-- Whether device DRAM outside the buffer pool has room for a request (R204, R229, R234): the spec gives no sizes. -/
opaque memoryAvailable : Nat → Nat → Bool
/-- The exposure ratio of R207 in 1/65,536 where the exposure of the reference is 0. -/
opaque zeroExposureRatio : Nat → BitVec 32
/-- The bytes by which RX_BYTES and TX_BYTES rise for one message: the spec does not say which bytes of a frame count. -/
opaque frameBytes : Nat → BitVec 32
/-- The rate correction, in parts per 10^9 of its bound, with which the servo answers an offset (R323). -/
opaque servoRate : Nat → BitVec 32
/-- The SSRC that SSRC 0 derives from SERIAL_NUMBER and the stream (Table 12-10): the spec does not say how. -/
opaque derivedSsrc : Nat → BitVec 32
/-- The text of a sender's SDP (R316): the spec does not give it. -/
opaque sdpText : Nat → List Byte
/-- A byte, by its place, of an NVMe data page that the spec does not state (R382, R385); the first argument is drawn. -/
opaque pageByte : Nat → Nat → Byte
/-- RAAIMT and RAAMMT of the components' mode registers (R430). -/
opaque raaimt : BitVec 8
opaque raammt : BitVec 16
/-- The ALERT_N window of a write, in ns (R431). -/
opaque alertWindow : BitVec 16
/-- The bytes of headers on the wire for so many bytes of RDMA data (R381). -/
opaque wireHeaders : Nat → BitVec 32
/-- The adaptive level of VDD_CORE for a CORE clock in MHz, as a CORE_VID code before its bounds (R468, R498). -/
opaque vidLevel : Nat → BitVec 4
/-- Any other byte the spec leaves open. -/
opaque openByte : Nat → Byte
/-- Any other 32-bit number the spec leaves open. -/
opaque openWord : Nat → BitVec 32
/-- Any other choice the spec leaves open. -/
opaque openBool : Nat → Bool

end Sys2Proof.Config
end

