-- ==== Sys2Proof/Machine/Catalogue.lean ====
section
/-! DEFINITION. The parameter catalogue: one row for every row of the parameter tables of spec/ (group, number,
instances, type, access, reset value, range, commit rule), and the number of each parameter as a function of its instance. -/

namespace Sys2Proof.Machine

/-- Types of R76, Table 03-5, in the order of their codes. -/
inductive PType where
  | u32 | s32 | u64 | q16 | cf24 | enum | flags | blob
  deriving DecidableEq, Repr

/-- Access codes of Table 03-7. -/
inductive Access where
  | rw | ro | wo
  deriving DecidableEq, Repr

/-- Commit rules of Table 03-6. -/
inductive CommitRule where
  | immediate | admitted | ticket | boundary | restart
  deriving DecidableEq, Repr

/-- One row of a parameter table. `num` is the number with every index digit at 0; `subs` gives the index digits inside
the number as (shift, width in bits, count); `insts` the instances as closed ranges. `range` is the least and the
largest value in the parameter's type; none where the table states none. -/
structure Param where
  group : Nat
  num : Nat
  subs : List (Nat × Nat × Nat)
  insts : List (Nat × Nat)
  type : PType
  access : Access
  reset : Nat
  range : Option (Int × Int)
  commit : CommitRule
  deriving DecidableEq, Repr

/-- LIFE_RATED in seconds, by variant (Table 18-8): 40 × 0.5 years of 365.25 days for the CX9144-SL, 35,500 h for the CX9144-AQ2. -/
def ratedLife : Nat := if Config.variant = 1#1 then 631152000 else 127800000

/-- Table 02-11 (R62, spec/02_frame_tick_and_profiles.md), part 0. -/
def catalogue02_0 : List Param := [
  ⟨0x02, 0x0001, [], [(0, 0)], .enum, .rw, 0, some (0, 4), .immediate⟩, -- TICK_SOURCE
  ⟨0x02, 0x0002, [], [(0, 0)], .u32, .rw, 25, some (1, 1000000), .admitted⟩, -- TICK_RATE_N
  ⟨0x02, 0x0003, [], [(0, 0)], .u32, .rw, 1, some (1, 65535), .admitted⟩, -- TICK_RATE_D
  ⟨0x02, 0x0004, [], [(0, 0)], .u32, .rw, 65520, some (0, 65535), .immediate⟩, -- TICK_FALLBACK
  ⟨0x02, 0x0005, [], [(0, 0)], .u32, .rw, 10000, some (0, 3600000), .immediate⟩, -- HOLDOVER_LIMIT
  ⟨0x02, 0x0006, [], [(0, 0)], .s32, .rw, 0, some (-500000000, 500000000), .immediate⟩, -- TICK_OFFSET
  ⟨0x02, 0x0007, [], [(0, 0)], .u32, .ro, 0, none, .immediate⟩, -- TICK_SEQUENCE
  ⟨0x02, 0x0008, [], [(0, 0)], .u32, .ro, 800000, none, .immediate⟩, -- TICK_GUARD
  ⟨0x02, 0x0009, [], [(0, 0)], .u32, .ro, 39200000, none, .immediate⟩, -- TICK_BUDGET
  ⟨0x02, 0x000A, [], [(0, 0)], .enum, .ro, 0, some (0, 3), .immediate⟩, -- TICK_STATE
  ⟨0x02, 0x000B, [], [(0, 0)], .u64, .ro, 0, none, .immediate⟩, -- TICK_STATE_CHANGES
  ⟨0x02, 0x0010, [], [(0, 0)], .enum, .rw, 1, some (0, 4), .admitted⟩, -- PROFILE
  ⟨0x02, 0x0011, [], [(0, 0)], .enum, .rw, 1, some (0, 3), .immediate⟩, -- CUSTOM_BASE
  ⟨0x02, 0x0012, [], [(0, 0)], .u32, .rw, 95000, some (8000, 135000), .admitted⟩, -- CUSTOM_POWER_CAP
  ⟨0x02, 0x0013, [], [(0, 0)], .u32, .rw, 60000, some (8000, 135000), .admitted⟩, -- CUSTOM_FLOOR
  ⟨0x02, 0x0014, [], [(0, 0)], .q16, .rw, 65536, some (32768, 65536), .admitted⟩] -- CUSTOM_CLOCK_SCALE

/-- Table 02-11 (R62, spec/02_frame_tick_and_profiles.md), part 1. -/
def catalogue02_1 : List Param := [
  ⟨0x02, 0x0015, [], [(0, 0)], .u32, .rw, 1000, some (750, 1500), .admitted⟩, -- CUSTOM_FLOOR_CLOCK
  ⟨0x02, 0x0016, [], [(0, 0)], .enum, .rw, 2, some (0, 3), .admitted⟩, -- CUSTOM_DRAM_SPEED
  ⟨0x02, 0x0017, [], [(0, 4)], .u32, .rw, 360, some (0, 600), .admitted⟩, -- CUSTOM_SHARE
  ⟨0x02, 0x0018, [], [(0, 0)], .enum, .rw, 2, some (0, 4), .admitted⟩, -- CUSTOM_TRF_BUDGET
  ⟨0x02, 0x0019, [], [(0, 0)], .u32, .rw, 1, some (0, 2), .admitted⟩, -- CUSTOM_TNR_REFS
  ⟨0x02, 0x001A, [], [(0, 0)], .u32, .rw, 16, some (0, 16), .admitted⟩, -- CUSTOM_MAX_CONTEXTS
  ⟨0x02, 0x001B, [], [(0, 0)], .u64, .rw, 41463152946, none, .admitted⟩, -- CUSTOM_SHED_ORDER
  ⟨0x02, 0x0020, [], [(0, 0)], .u32, .ro, 95000, none, .immediate⟩, -- ACTIVE_CAP
  ⟨0x02, 0x0021, [], [(0, 0)], .u32, .ro, 0, some (0, 10), .immediate⟩, -- SHED_LEVEL
  ⟨0x02, 0x0022, [], [(0, 0)], .q16, .ro, 65536, none, .immediate⟩, -- LIFE_WEIGHT
  ⟨0x02, 0x0023, [], [(0, 0)], .u32, .ro, 0, none, .immediate⟩, -- PLAN_GENERATION
  ⟨0x02, 0x0024, [], [(0, 0)], .u64, .ro, 0, none, .immediate⟩, -- ADMIT_REFUSED
  ⟨0x02, 0x0030, [], [(0, 3)], .u64, .ro, 0, none, .immediate⟩, -- OVERRUN_COUNT
  ⟨0x02, 0x0031, [], [(0, 3)], .u64, .ro, 0, none, .immediate⟩, -- LATE_COUNT
  ⟨0x02, 0x0032, [], [(0, 31)], .u64, .ro, 0, none, .immediate⟩, -- REPEATED_COUNT
  ⟨0x02, 0x0040, [], [(0, 3)], .u64, .ro, 0, none, .immediate⟩] -- MAINT_WAIT_COUNT

/-- Table 02-11 (R62, spec/02_frame_tick_and_profiles.md), part 2. -/
def catalogue02_2 : List Param := [
  ⟨0x02, 0x0041, [], [(0, 3)], .u32, .ro, 0, none, .immediate⟩, -- MAINT_MAX_WAIT
  ⟨0x02, 0x0042, [], [(0, 3)], .u64, .ro, 0, none, .immediate⟩] -- MAINT_RUN_COUNT

/-- Every parameter of group 0x02. -/
def catalogue02 : List Param := catalogue02_0 ++ catalogue02_1 ++ catalogue02_2

/-- Table 03-10 (R94, spec/03_control_and_ownership.md), part 0. -/
def catalogue01_0 : List Param := [
  ⟨0x01, 0x0001, [], [(0, 0)], .enum, .ro, Config.variant.toNat, some (0, 1), .immediate⟩, -- VARIANT
  ⟨0x01, 0x0002, [], [(0, 0)], .u32, .ro, Config.dieRevision.toNat, none, .immediate⟩, -- DIE_REVISION
  ⟨0x01, 0x0003, [], [(0, 0)], .u64, .ro, Config.serialNumber.toNat, none, .immediate⟩, -- SERIAL_NUMBER
  ⟨0x01, 0x0004, [], [(0, 0)], .u32, .ro, 4, none, .immediate⟩, -- INTERFACE_LEVEL
  ⟨0x01, 0x0005, [], [(0, 0)], .u32, .ro, Config.negorBuild.toNat, none, .immediate⟩, -- NEGOR_BUILD
  ⟨0x01, 0x0006, [], [(0, 0)], .enum, .ro, 0, some (0, 6), .immediate⟩, -- GLOBAL_STATE
  ⟨0x01, 0x0010, [], [(0, 0)], .blob, .wo, 0, none, .immediate⟩, -- OWNER_KEY
  ⟨0x01, 0x0011, [], [(0, 0)], .enum, .ro, 0, some (0, 1), .immediate⟩, -- OWNER_KEY_STATE
  ⟨0x01, 0x0012, [], [(0, 0)], .u32, .rw, 10000, some (1000, 600000), .immediate⟩, -- SESSION_IDLE_LIMIT
  ⟨0x01, 0x0013, [], [(0, 0)], .u32, .rw, 1024, some (64, 16384), .immediate⟩, -- BUF_POOL_SIZE
  ⟨0x01, 0x0014, [], [(0, 0)], .u32, .ro, 1024, none, .immediate⟩, -- BUF_POOL_FREE
  ⟨0x01, 0x0020, [], [(0, 0)], .u32, .ro, 0, some (0, 16), .immediate⟩, -- SESSIONS_OPEN
  ⟨0x01, 0x0021, [], [(0, 0)], .u64, .ro, 0, none, .immediate⟩, -- CONTROL_RESTARTS
  ⟨0x01, 0x0022, [], [(0, 0)], .enum, .ro, 0, some (0, 5), .immediate⟩, -- LAST_RESTART_CAUSE
  ⟨0x01, 0x0030, [], [(0, 1)], .u64, .ro, 0, none, .immediate⟩, -- NMP_RX_COUNT
  ⟨0x01, 0x0031, [], [(0, 7)], .u64, .ro, 0, none, .immediate⟩] -- NMP_DROP_COUNT

/-- Table 03-10 (R94, spec/03_control_and_ownership.md), part 1. -/
def catalogue01_1 : List Param := [
  ⟨0x01, 0x0032, [], [(0, 0)], .u64, .ro, 0, none, .immediate⟩, -- DUP_REPLAYED
  ⟨0x01, 0x0033, [], [(0, 0)], .u64, .ro, 0, none, .immediate⟩, -- BUSY_REPLIES
  ⟨0x01, 0x0034, [], [(0, 0)], .u64, .ro, 0, none, .immediate⟩, -- NOTIFY_DROPPED
  ⟨0x01, 0x0035, [], [(0, 0)], .u64, .ro, 0, none, .immediate⟩, -- OWN_CONTENDED
  ⟨0x01, 0x0036, [], [(0, 0)], .u64, .ro, 0, none, .immediate⟩, -- OWN_EXPIRED
  ⟨0x01, 0x0037, [], [(0, 0)], .u64, .ro, 0, none, .immediate⟩, -- BUF_EARLY_FREE
  ⟨0x01, 0x0038, [], [(0, 0)], .u64, .ro, 0, none, .immediate⟩] -- BUF_WRITE_REFUSED

/-- Every parameter of group 0x01. -/
def catalogue01 : List Param := catalogue01_0 ++ catalogue01_1

/-- Table 04-12 (R132, spec/04_sensor_links.md), part 0. -/
def catalogue10_0 : List Param := [
  ⟨0x10, 0x0001, [], [(0, 15)], .enum, .rw, 0, some (0, 1), .immediate⟩, -- PORT_ENABLE
  ⟨0x10, 0x0002, [], [(0, 15)], .enum, .rw, 3, some (0, 3), .immediate⟩, -- LANE_RATE
  ⟨0x10, 0x0003, [], [(0, 15)], .enum, .rw, 0, some (0, 2), .immediate⟩, -- BOND_WIDTH
  ⟨0x10, 0x0004, [], [(0, 15)], .flags, .rw, 15, some (1, 15), .immediate⟩, -- LANE_MASK
  ⟨0x10, 0x0005, [], [(0, 15)], .u32, .rw, 256, some (0, 511), .immediate⟩, -- SENSOR_TAG_EXPECT
  ⟨0x10, 0x0006, [], [(0, 15)], .u32, .rw, 8, some (1, 255), .immediate⟩, -- RETRY_LIMIT
  ⟨0x10, 0x0007, [], [(0, 15)], .u32, .rw, 1000, some (100, 60000), .immediate⟩, -- HEALTH_INTERVAL
  ⟨0x10, 0x0008, [], [(0, 15)], .u32, .ro, 0, some (0, 4), .immediate⟩, -- DEGRADE_LIMIT
  ⟨0x10, 0x0009, [], [(0, 15)], .enum, .ro, 0, some (0, 5), .immediate⟩, -- PORT_STATE
  ⟨0x10, 0x000A, [], [(0, 15)], .u32, .ro, 0, some (0, 15), .immediate⟩, -- BOND_LEADER
  ⟨0x10, 0x000B, [], [(0, 15)], .u64, .ro, 0, none, .immediate⟩, -- LANE_MAP
  ⟨0x10, 0x000C, [], [(0, 15)], .flags, .ro, 0, some (0, 65535), .immediate⟩, -- LOGICAL_VALID
  ⟨0x10, 0x000D, [], [(0, 15)], .u32, .ro, 0, some (0, 264), .immediate⟩, -- DESKEW_SPREAD
  ⟨0x10, 0x0010, [], [(0, 15)], .enum, .rw, 0, some (0, 2), .immediate⟩, -- LOOPBACK
  ⟨0x10, 0x0011, [], [(0, 15)], .enum, .rw, 3, some (0, 3), .immediate⟩, -- PATTERN
  ⟨0x10, 0x0012, [], [(0, 15)], .u32, .rw, 70780800, none, .immediate⟩] -- PATGEN_GEOMETRY

/-- Table 04-12 (R132, spec/04_sensor_links.md), part 1. -/
def catalogue10_1 : List Param := [
  ⟨0x10, 0x0013, [], [(0, 15)], .enum, .rw, 3, some (1, 4), .immediate⟩, -- PATGEN_WIDTH
  ⟨0x10, 0x0014, [], [(0, 15)], .flags, .rw, 0, some (0, 63), .immediate⟩, -- PATGEN_FAULTS
  ⟨0x10, 0x0100, [(0, 4, 4)], [(0, 15)], .enum, .ro, 0, some (0, 9), .immediate⟩, -- LANE_STATE
  ⟨0x10, 0x0110, [(0, 4, 4)], [(0, 15)], .enum, .ro, 0, some (0, 5), .immediate⟩, -- LINE_HEALTH
  ⟨0x10, 0x0120, [(0, 4, 4)], [(0, 15)], .enum, .ro, 0, some (0, 1), .immediate⟩, -- LANE_POLARITY
  ⟨0x10, 0x0130, [(0, 4, 4)], [(0, 15)], .enum, .rw, 0, some (0, 2), .immediate⟩, -- POLARITY_FORCE
  ⟨0x10, 0x0140, [(0, 4, 4)], [(0, 15)], .u32, .ro, 255, some (0, 255), .immediate⟩, -- LOGICAL_ID
  ⟨0x10, 0x0150, [(0, 4, 4)], [(0, 15)], .u32, .ro, 0, none, .immediate⟩, -- EYE_MARGIN
  ⟨0x10, 0x0160, [(0, 4, 4)], [(0, 15)], .u64, .ro, 0, none, .immediate⟩, -- HEADER_ERR
  ⟨0x10, 0x0170, [(0, 4, 4)], [(0, 15)], .u64, .ro, 0, none, .immediate⟩, -- BLOCK_LOCK_LOSS
  ⟨0x10, 0x0180, [(0, 4, 4)], [(0, 15)], .u64, .ro, 0, none, .immediate⟩, -- FAILED_ATTEMPTS
  ⟨0x10, 0x0190, [(0, 4, 4)], [(0, 15)], .u64, .ro, 0, none, .immediate⟩, -- LINE_FAULTS
  ⟨0x10, 0x01A0, [(0, 4, 4)], [(0, 15)], .u64, .ro, 0, none, .immediate⟩, -- PRBS_ERR
  ⟨0x10, 0x01B0, [(0, 4, 4)], [(0, 15)], .u64, .ro, 0, none, .immediate⟩, -- ALIGN_ERR
  ⟨0x10, 0x0040, [], [(0, 15)], .enum, .rw, 0, some (0, 1), .immediate⟩, -- XTRIG_ENABLE
  ⟨0x10, 0x0041, [], [(0, 15)], .u32, .rw, 0, some (0, 1000000000), .immediate⟩] -- XTRIG_OFFSET

/-- Table 04-12 (R132, spec/04_sensor_links.md), part 2. -/
def catalogue10_2 : List Param := [
  ⟨0x10, 0x0042, [], [(0, 15)], .u32, .rw, 1000, some (10, 10000000), .immediate⟩, -- XTRIG_WIDTH
  ⟨0x10, 0x0043, [], [(0, 15)], .enum, .rw, 0, some (0, 1), .immediate⟩, -- XTRIG_POLARITY
  ⟨0x10, 0x0044, [], [(0, 15)], .u32, .rw, 1, some (1, 16), .immediate⟩, -- XTRIG_DIVISOR
  ⟨0x10, 0x0045, [], [(0, 15)], .u32, .rw, 0, some (0, 15), .immediate⟩, -- XTRIG_PHASE
  ⟨0x10, 0x0046, [], [(0, 15)], .u64, .ro, 0, none, .immediate⟩, -- XTRIG_COUNT
  ⟨0x10, 0x0047, [], [(0, 15)], .u64, .ro, 0, none, .immediate⟩, -- XTRIG_SKIPPED
  ⟨0x10, 0x0050, [], [(0, 15)], .u64, .ro, 0, none, .immediate⟩, -- FRAMES_RX
  ⟨0x10, 0x0051, [], [(0, 15)], .u64, .ro, 0, none, .immediate⟩, -- FRAMES_LANE_LOST
  ⟨0x10, 0x0052, [], [(0, 15)], .u64, .ro, 0, none, .immediate⟩, -- FRAMES_DEGRADED
  ⟨0x10, 0x0053, [], [(0, 15)], .u64, .ro, 0, none, .immediate⟩, -- FRAMES_DROPPED_LINK
  ⟨0x10, 0x0054, [], [(0, 15)], .u64, .ro, 0, none, .immediate⟩, -- LINE_CRC_ERR
  ⟨0x10, 0x0055, [], [(0, 15)], .u64, .ro, 0, none, .immediate⟩, -- LINE_SEQ_ERR
  ⟨0x10, 0x0056, [], [(0, 15)], .u64, .ro, 0, none, .immediate⟩, -- PROTO_ERR
  ⟨0x10, 0x0057, [], [(0, 15)], .u64, .ro, 0, none, .immediate⟩, -- CTRL_MISMATCH
  ⟨0x10, 0x0058, [], [(0, 15)], .u64, .ro, 0, none, .immediate⟩, -- ID_ERR
  ⟨0x10, 0x0059, [], [(0, 15)], .u64, .ro, 0, none, .immediate⟩] -- DESKEW_FAIL

/-- Table 04-12 (R132, spec/04_sensor_links.md), part 3. -/
def catalogue10_3 : List Param := [
  ⟨0x10, 0x005A, [], [(0, 15)], .u64, .ro, 0, none, .immediate⟩] -- BYTES_RX

/-- Every parameter of group 0x10. -/
def catalogue10 : List Param := catalogue10_0 ++ catalogue10_1 ++ catalogue10_2 ++ catalogue10_3

/-- Table 05-8 (R158, spec/05_ingest.md), part 0. -/
def catalogue11_0 : List Param := [
  ⟨0x11, 0x0001, [], [(0, 15)], .u32, .rw, 255, some (0, 255), .admitted⟩, -- CONTEXT
  ⟨0x11, 0x0002, [], [(0, 15)], .u32, .rw, 70780800, none, .admitted⟩, -- ING_GEOMETRY
  ⟨0x11, 0x0003, [], [(0, 15)], .enum, .rw, 3, some (1, 4), .admitted⟩, -- ING_WIDTH
  ⟨0x11, 0x0004, [], [(0, 15)], .enum, .rw, 0, some (0, 4), .immediate⟩, -- CFA_PHASE
  ⟨0x11, 0x0005, [], [(0, 15)], .u32, .rw, 0, none, .immediate⟩, -- ING_DEADLINE
  ⟨0x11, 0x0006, [], [(0, 15)], .u32, .rw, 64, some (0, 65535), .ticket⟩, -- PEDESTAL
  ⟨0x11, 0x0010, [(0, 4, 4)], [(0, 15)], .u32, .rw, 64, some (0, 65535), .ticket⟩, -- BLACK_LEVEL
  ⟨0x11, 0x0020, [], [(0, 15)], .blob, .wo, 0, none, .immediate⟩, -- DEFECT_MAP
  ⟨0x11, 0x0021, [], [(0, 15)], .u32, .ro, 0, none, .immediate⟩, -- DEFECT_MAP_GENERATION
  ⟨0x11, 0x0022, [], [(0, 15)], .u32, .ro, 0, some (0, 65536), .immediate⟩, -- DEFECT_MAP_ENTRIES
  ⟨0x11, 0x0023, [], [(0, 15)], .enum, .rw, 1, some (0, 1), .immediate⟩, -- EMBED_ENABLE
  ⟨0x11, 0x0024, [], [(0, 15)], .blob, .ro, 0, none, .immediate⟩, -- LAST_TICKET
  ⟨0x11, 0x0025, [], [(0, 15)], .enum, .ro, 0, some (0, 1), .immediate⟩, -- FRAME_STATE
  ⟨0x11, 0x0030, [], [(0, 15)], .u64, .ro, 0, none, .immediate⟩, -- FRAMES_CLOSED
  ⟨0x11, 0x0031, [], [(0, 15)], .u64, .ro, 0, none, .immediate⟩, -- FRAMES_SHORT
  ⟨0x11, 0x0032, [], [(0, 15)], .u64, .ro, 0, none, .immediate⟩] -- FRAMES_LONG

/-- Table 05-8 (R158, spec/05_ingest.md), part 1. -/
def catalogue11_1 : List Param := [
  ⟨0x11, 0x0033, [], [(0, 15)], .u64, .ro, 0, none, .immediate⟩, -- FRAMES_TRUNCATED
  ⟨0x11, 0x0034, [], [(0, 15)], .u64, .ro, 0, none, .immediate⟩, -- FRAMES_CRC_ERR
  ⟨0x11, 0x0035, [], [(0, 15)], .u64, .ro, 0, none, .immediate⟩, -- LINES_FILLED
  ⟨0x11, 0x0036, [], [(0, 15)], .u64, .ro, 0, none, .immediate⟩, -- LINES_DISCARDED
  ⟨0x11, 0x0037, [], [(0, 15)], .u64, .ro, 0, none, .immediate⟩, -- LINES_PADDED
  ⟨0x11, 0x0038, [], [(0, 15)], .u64, .ro, 0, none, .immediate⟩, -- LINES_CUT
  ⟨0x11, 0x0039, [], [(0, 15)], .u64, .ro, 0, none, .immediate⟩, -- ORPHAN_LINES
  ⟨0x11, 0x003A, [], [(0, 15)], .u64, .ro, 0, none, .immediate⟩, -- FRAMES_UNBOUND
  ⟨0x11, 0x003B, [], [(0, 15)], .u64, .ro, 0, none, .immediate⟩, -- DEFECT_OVERFLOW
  ⟨0x11, 0x003C, [], [(0, 15)], .u64, .ro, 0, none, .immediate⟩, -- SAMPLES_CLAMPED
  ⟨0x11, 0x003D, [], [(0, 15)], .u64, .ro, 0, none, .immediate⟩] -- EPOCH_CHANGES

/-- Every parameter of group 0x11. -/
def catalogue11 : List Param := catalogue11_0 ++ catalogue11_1

/-- Table 06-8 (R184, spec/06_raw_tile_format.md), part 0. -/
def catalogue12_0 : List Param := [
  ⟨0x12, 0x0001, [], [(0, 15)], .enum, .rw, 0, some (0, 1), .admitted⟩, -- TRF_MODE
  ⟨0x12, 0x0002, [], [(0, 15)], .enum, .rw, 5, some (0, 5), .admitted⟩, -- TRF_BUDGET
  ⟨0x12, 0x0003, [], [(0, 15)], .u32, .rw, 16, some (0, 16), .immediate⟩, -- TRF_MAX_STEP
  ⟨0x12, 0x0004, [], [(0, 15)], .u32, .rw, 4, some (3, 8), .admitted⟩, -- TRF_SLOTS
  ⟨0x12, 0x0005, [], [(0, 15)], .enum, .ro, 2, some (0, 7), .immediate⟩, -- BUDGET_IN_FORCE
  ⟨0x12, 0x0006, [], [(0, 15)], .u32, .ro, 320, none, .immediate⟩, -- TILE_BYTES
  ⟨0x12, 0x0007, [], [(0, 15)], .u32, .ro, 30, some (1, 1024), .immediate⟩, -- TILE_COLUMNS
  ⟨0x12, 0x0008, [], [(0, 15)], .u32, .ro, 135, some (1, 8192), .immediate⟩, -- TILE_ROWS
  ⟨0x12, 0x0009, [], [(0, 15)], .u64, .ro, 1298432, none, .immediate⟩, -- SLOT_BYTES
  ⟨0x12, 0x0010, [], [(0, 15)], .u32, .ro, 0, none, .immediate⟩, -- LAST_FRAME_BYTES
  ⟨0x12, 0x0011, [], [(0, 15)], .u32, .ro, 0, none, .immediate⟩, -- LAST_FRAME_FLAT
  ⟨0x12, 0x0012, [], [(0, 15)], .u32, .ro, 0, some (0, 16), .immediate⟩, -- LAST_FRAME_MAX_STEP
  ⟨0x12, 0x0013, [], [(0, 15)], .u32, .ro, 0, none, .immediate⟩, -- LAST_FRAME_ERROR_BOUND
  ⟨0x12, 0x0020, [], [(0, 15)], .u64, .ro, 0, none, .immediate⟩, -- TILES_ENCODED
  ⟨0x12, 0x0021, [], [(0, 15)], .u64, .ro, 0, none, .immediate⟩, -- TILES_FLAT
  ⟨0x12, 0x0022, [], [(0, 15)], .u64, .ro, 0, none, .immediate⟩] -- TILES_RAW

/-- Table 06-8 (R184, spec/06_raw_tile_format.md), part 1. -/
def catalogue12_1 : List Param := [
  ⟨0x12, 0x0023, [], [(0, 15)], .u64, .ro, 0, none, .immediate⟩, -- TRF_DECODE_ERR
  ⟨0x12, 0x0024, [], [(0, 15)], .u64, .ro, 0, none, .immediate⟩, -- BYTES_OUT
  ⟨0x12, 0x0100, [(0, 8, 17)], [(0, 15)], .u64, .ro, 0, none, .immediate⟩] -- STEP_COUNT

/-- Every parameter of group 0x12. -/
def catalogue12 : List Param := catalogue12_0 ++ catalogue12_1

/-- Table 07-8 (R212, spec/07_chamois_engine.md), part 0. -/
def catalogue20_0 : List Param := [
  ⟨0x20, 0x0001, [], [(0, 31)], .enum, .rw, 0, some (0, 1), .admitted⟩, -- CTX_ENABLE
  ⟨0x20, 0x0002, [], [(0, 31)], .enum, .rw, 0, some (0, 1), .admitted⟩, -- CTX_MODE
  ⟨0x20, 0x0003, [], [(0, 31)], .u32, .rw, 2048, some (512, 4096), .admitted⟩, -- STRIPE_WIDTH
  ⟨0x20, 0x0004, [], [(0, 31)], .u32, .rw, 1, some (1, 16), .admitted⟩, -- TICK_DIVISOR
  ⟨0x20, 0x0005, [], [(0, 31)], .u32, .rw, 0, some (0, 15), .admitted⟩, -- TICK_PHASE
  ⟨0x20, 0x0006, [], [(0, 31)], .u32, .rw, 8, some (0, 15), .admitted⟩, -- CTX_PRIORITY
  ⟨0x20, 0x0007, [], [(0, 31)], .enum, .rw, 0, some (0, 1), .admitted⟩, -- SHEDDABLE
  ⟨0x20, 0x0008, [], [(0, 31)], .u32, .rw, 0, some (0, 980000000), .admitted⟩, -- EARLY_START
  ⟨0x20, 0x0009, [], [(0, 31)], .enum, .ro, 0, some (0, 1), .immediate⟩, -- CTX_STATE
  ⟨0x20, 0x000A, [], [(0, 31)], .u32, .ro, 255, some (0, 255), .immediate⟩, -- SOURCE_PORT
  ⟨0x20, 0x000B, [], [(0, 31)], .u32, .ro, 1, some (1, 128), .immediate⟩, -- STRIPE_COUNT
  ⟨0x20, 0x000C, [], [(0, 31)], .u32, .ro, 255, some (0, 255), .immediate⟩, -- JOB_ORDER
  ⟨0x20, 0x000D, [], [(0, 31)], .s32, .ro, 0, none, .immediate⟩, -- EARLY_SLACK
  ⟨0x20, 0x000E, [], [(0, 31)], .q16, .rw, 65536, some (0, 524288), .boundary⟩, -- SNR_STRENGTH
  ⟨0x20, 0x0010, [(0, 4, 4)], [(0, 31)], .u32, .rw, 256, some (0, 16777215), .boundary⟩, -- NOISE_A
  ⟨0x20, 0x0020, [(0, 4, 4)], [(0, 31)], .q16, .rw, 65536, some (0, 4194304), .boundary⟩] -- NOISE_B

/-- Table 07-8 (R212, spec/07_chamois_engine.md), part 1. -/
def catalogue20_1 : List Param := [
  ⟨0x20, 0x0030, [], [(0, 31)], .flags, .rw, 3, some (0, 3), .boundary⟩, -- DEFECT_REPAIR
  ⟨0x20, 0x0031, [], [(0, 31)], .u32, .rw, 255, some (0, 255), .admitted⟩, -- TNR_REFS
  ⟨0x20, 0x0032, [], [(0, 31)], .q16, .rw, 65536, some (0, 262144), .boundary⟩, -- TNR_STRENGTH
  ⟨0x20, 0x0033, [], [(0, 31)], .enum, .rw, 1, some (0, 2), .admitted⟩, -- TNR_SEARCH
  ⟨0x20, 0x0034, [], [(0, 31)], .u32, .rw, 2, some (1, 8), .boundary⟩, -- TNR_MAX_GAP
  ⟨0x20, 0x0035, [], [(0, 31)], .u32, .ro, 0, some (0, 2), .immediate⟩, -- REFS_VALID
  ⟨0x20, 0x0040, [], [(0, 31)], .u32, .ro, 0, none, .immediate⟩, -- LAST_TICKET_NUMBER
  ⟨0x20, 0x0041, [], [(0, 31)], .u32, .ro, 0, none, .immediate⟩, -- LAST_JOB_CYCLES
  ⟨0x20, 0x0042, [], [(0, 31)], .u32, .ro, 0, none, .immediate⟩, -- LAST_JOB_END
  ⟨0x20, 0x0043, [], [(0, 31)], .u32, .ro, 0, none, .immediate⟩, -- WORST_JOB_END
  ⟨0x20, 0x0044, [], [(0, 31)], .u32, .ro, 0, none, .immediate⟩, -- LAST_LATENCY
  ⟨0x20, 0x0050, [], [(0, 31)], .u64, .ro, 0, none, .immediate⟩, -- JOBS_RUN
  ⟨0x20, 0x0051, [], [(0, 31)], .u64, .ro, 0, none, .immediate⟩, -- FRAMES_SKIPPED
  ⟨0x20, 0x0052, [], [(0, 31)], .u64, .ro, 0, none, .immediate⟩, -- NO_FRAME_COUNT
  ⟨0x20, 0x0053, [], [(0, 31)], .u64, .ro, 0, none, .immediate⟩, -- EARLY_MISSED
  ⟨0x20, 0x0054, [], [(0, 31)], .u64, .ro, 0, none, .immediate⟩] -- PREEMPTIONS

/-- Table 07-8 (R212, spec/07_chamois_engine.md), part 2. -/
def catalogue20_2 : List Param := [
  ⟨0x20, 0x0055, [], [(0, 31)], .u64, .ro, 0, none, .immediate⟩, -- TNR_RESETS
  ⟨0x20, 0x0056, [], [(0, 31)], .u64, .ro, 0, none, .immediate⟩, -- REF_DISCARDED
  ⟨0x20, 0x0057, [], [(0, 31)], .u64, .ro, 0, none, .immediate⟩, -- SAMPLES_REPAIRED
  ⟨0x20, 0x0058, [], [(0, 31)], .u64, .ro, 0, none, .immediate⟩] -- SAMPLES_UNREPAIRED

/-- Every parameter of group 0x20. -/
def catalogue20 : List Param := catalogue20_0 ++ catalogue20_1 ++ catalogue20_2

/-- Table 08-13 (R243, spec/08_colour_pipeline.md), part 0. -/
def catalogue21_0 : List Param := [
  ⟨0x21, 0x0001, [], [(0, 31)], .u32, .rw, 0, some (0, 65535), .boundary⟩, -- WHITE_CODE
  ⟨0x21, 0x0002, [], [(0, 31)], .enum, .rw, 1, some (0, 3), .boundary⟩, -- WORKING_SPACE
  ⟨0x21, 0x0003, [], [(0, 31)], .enum, .rw, 0, some (0, 1), .boundary⟩, -- LSC_ENABLE
  ⟨0x21, 0x0004, [], [(0, 31)], .blob, .wo, 0, none, .boundary⟩, -- LSC_TABLE
  ⟨0x21, 0x0005, [], [(0, 31)], .u32, .ro, 0, none, .immediate⟩, -- LSC_GRID
  ⟨0x21, 0x0010, [(0, 4, 3)], [(0, 31)], .q16, .rw, 65536, some (16384, 1048576), .ticket⟩, -- WB_GAIN
  ⟨0x21, 0x0020, [(0, 4, 9)], [(0, 31)], .cf24, .rw, 0, some (0xC50000, 0x450000), .ticket⟩, -- CAM_MATRIX
  ⟨0x21, 0x0030, [], [(0, 31)], .u64, .ro, 0, none, .immediate⟩, -- CF24_SATURATED
  ⟨0x21, 0x1001, [(8, 4, 4)], [(0, 31)], .enum, .rw, 0, some (0, 1), .admitted⟩, -- REND_ENABLE
  ⟨0x21, 0x1002, [(8, 4, 4)], [(0, 31)], .u32, .rw, 70780800, none, .admitted⟩, -- SCALE_SIZE
  ⟨0x21, 0x1003, [(8, 4, 4)], [(0, 31)], .u32, .rw, 0, none, .admitted⟩, -- CROP_ORIGIN
  ⟨0x21, 0x1004, [(8, 4, 4)], [(0, 31)], .u32, .rw, 0, none, .admitted⟩, -- CROP_SIZE
  ⟨0x21, 0x1005, [(8, 4, 4)], [(0, 31)], .u32, .rw, 17, none, .admitted⟩, -- OUT_FORMAT
  ⟨0x21, 0x1006, [(8, 4, 4)], [(0, 31)], .enum, .rw, 0, some (0, 1), .boundary⟩, -- YCC_MATRIX
  ⟨0x21, 0x1007, [(8, 4, 4)], [(0, 31)], .enum, .rw, 0, some (0, 1), .boundary⟩, -- YCC_RANGE
  ⟨0x21, 0x1008, [(8, 4, 4)], [(0, 31)], .u32, .rw, 255, some (0, 255), .boundary⟩] -- REND_ALPHA

/-- Table 08-13 (R243, spec/08_colour_pipeline.md), part 1. -/
def catalogue21_1 : List Param := [
  ⟨0x21, 0x1009, [(8, 4, 4)], [(0, 31)], .u32, .rw, 3, some (3, 4), .admitted⟩, -- REND_BUFFERS
  ⟨0x21, 0x100A, [(8, 4, 4)], [(0, 31)], .enum, .rw, 0, some (0, 2), .boundary⟩, -- SCALER_FILTER
  ⟨0x21, 0x100B, [(8, 4, 4)], [(0, 31)], .blob, .wo, 0, none, .boundary⟩, -- SCALER_TABLE
  ⟨0x21, 0x1010, [(8, 4, 4)], [(0, 31)], .q16, .rw, 0, some (-524288, 524288), .ticket⟩, -- TRIM_EV
  ⟨0x21, 0x1011, [(8, 4, 4)], [(0, 31)], .enum, .rw, 1, some (0, 3), .boundary⟩, -- SHAPER
  ⟨0x21, 0x1012, [(8, 4, 4)], [(0, 31)], .blob, .wo, 0, none, .boundary⟩, -- SHAPER_TABLE
  ⟨0x21, 0x1013, [(8, 4, 4)], [(0, 31)], .enum, .rw, 0, some (0, 1), .boundary⟩, -- LUT_ENABLE
  ⟨0x21, 0x1014, [(8, 4, 4)], [(0, 31)], .blob, .wo, 0, none, .boundary⟩, -- LUT3D
  ⟨0x21, 0x1015, [(8, 4, 4)], [(0, 31)], .enum, .rw, 1, some (0, 7), .boundary⟩, -- TRANSFER
  ⟨0x21, 0x1016, [(8, 4, 4)], [(0, 31)], .blob, .wo, 0, none, .boundary⟩, -- TONE_TABLE
  ⟨0x21, 0x1017, [(8, 4, 4)], [(0, 31)], .cf24, .rw, 4128768, some (0x370000, 0x470000), .boundary⟩, -- TF_GAIN
  ⟨0x21, 0x1018, [(8, 4, 4)], [(0, 31)], .u32, .ro, 0, none, .immediate⟩, -- LUT_GENERATION
  ⟨0x21, 0x1020, [(8, 4, 4), (0, 4, 9)], [(0, 31)], .cf24, .rw, 0, some (0xC50000, 0x450000), .boundary⟩, -- REND_MATRIX
  ⟨0x21, 0x1030, [(8, 4, 4)], [(0, 31)], .u32, .ro, 0, none, .immediate⟩, -- OUT_BYTES
  ⟨0x21, 0x1031, [(8, 4, 4)], [(0, 31)], .u32, .ro, 0, none, .immediate⟩, -- OUT_PITCH
  ⟨0x21, 0x1040, [(8, 4, 4)], [(0, 31)], .u64, .ro, 0, none, .immediate⟩] -- FRAMES_OUT

/-- Table 08-13 (R243, spec/08_colour_pipeline.md), part 2. -/
def catalogue21_2 : List Param := [
  ⟨0x21, 0x1041, [(8, 4, 4)], [(0, 31)], .u64, .ro, 0, none, .immediate⟩, -- SAT_COUNT
  ⟨0x21, 0x1042, [(8, 4, 4)], [(0, 31)], .u64, .ro, 0, none, .immediate⟩] -- REND_NO_BUFFER

/-- Every parameter of group 0x21. -/
def catalogue21 : List Param := catalogue21_0 ++ catalogue21_1 ++ catalogue21_2

/-- Table 08-14 (R244, spec/08_colour_pipeline.md), part 0. -/
def catalogue22_0 : List Param := [
  ⟨0x22, 0x0001, [], [(0, 31)], .flags, .rw, 7, some (0, 15), .admitted⟩, -- STATS_ENABLE
  ⟨0x22, 0x0002, [], [(0, 31)], .enum, .rw, 0, some (0, 1), .boundary⟩, -- HIST_DOMAIN
  ⟨0x22, 0x0003, [], [(0, 31)], .enum, .rw, 0, some (0, 2), .boundary⟩, -- SCOPE_KIND
  ⟨0x22, 0x0004, [], [(0, 31)], .u32, .rw, 0, some (0, 3), .boundary⟩, -- SCOPE_SOURCE
  ⟨0x22, 0x0005, [], [(0, 31)], .u32, .rw, 16777728, none, .admitted⟩, -- SCOPE_SIZE
  ⟨0x22, 0x0006, [], [(0, 31)], .u64, .rw, 0, none, .boundary⟩, -- SCOPE_BUFFER
  ⟨0x22, 0x0007, [], [(0, 31)], .u32, .rw, 16777215, some (0, 16777215), .boundary⟩, -- SCOPE_COLOUR
  ⟨0x22, 0x0008, [], [(0, 31)], .enum, .ro, 0, some (0, 1), .immediate⟩, -- SCOPE_FRONT
  ⟨0x22, 0x0009, [], [(0, 31)], .u64, .ro, 0, none, .immediate⟩, -- STATS_SEQ
  ⟨0x22, 0x0010, [], [(0, 31)], .u64, .ro, 0, none, .immediate⟩, -- STATS_WRITTEN
  ⟨0x22, 0x0011, [], [(0, 31)], .u64, .ro, 0, none, .immediate⟩, -- STATS_OMITTED
  ⟨0x22, 0x0012, [], [(0, 31)], .u64, .ro, 0, none, .immediate⟩, -- SCOPE_PLANES
  ⟨0x22, 0x1000, [(0, 4, 16)], [(0, 31)], .blob, .ro, 0, none, .immediate⟩] -- STATS_SLOT

/-- Every parameter of group 0x22. -/
def catalogue22 : List Param := catalogue22_0

/-- Table 09-10 (R267, spec/09_exposure_and_frame_binding.md), part 0. -/
def catalogue28_0 : List Param := [
  ⟨0x28, 0x0001, [], [(0, 15)], .blob, .wo, 0, none, .immediate⟩, -- SENSOR_DESC
  ⟨0x28, 0x0002, [], [(0, 15)], .u32, .ro, 0, none, .immediate⟩, -- DESC_GENERATION
  ⟨0x28, 0x0003, [], [(0, 15)], .u32, .rw, 255, some (0, 254), .immediate⟩, -- SENSOR_MODE
  ⟨0x28, 0x0004, [], [(0, 15)], .u32, .ro, 0, some (0, 3), .immediate⟩, -- PIPELINE_DELAY
  ⟨0x28, 0x0005, [], [(0, 15)], .enum, .ro, 1, some (0, 1), .immediate⟩, -- CONTROL_STATE
  ⟨0x28, 0x0006, [], [(0, 15)], .u32, .ro, 0, some (0, 16), .immediate⟩, -- PENDING_CHANGES
  ⟨0x28, 0x0007, [], [(0, 15)], .u32, .ro, 0, none, .immediate⟩, -- LAST_EXPOSURE_ID
  ⟨0x28, 0x0008, [], [(0, 15)], .u32, .ro, 0, none, .immediate⟩, -- LAST_EXPOSURE_TICKET
  ⟨0x28, 0x0009, [], [(0, 15)], .u32, .ro, 0, none, .immediate⟩, -- ISP_GENERATION
  ⟨0x28, 0x000A, [], [(0, 15)], .s32, .ro, 0, none, .immediate⟩, -- LAST_WRITE_MARGIN
  ⟨0x28, 0x0010, [(0, 4, 16)], [(0, 15)], .u32, .ro, 0, none, .immediate⟩, -- CONTROL_VALUE
  ⟨0x28, 0x0030, [], [(0, 15)], .u64, .ro, 0, none, .immediate⟩, -- EXPOSE_APPLIED
  ⟨0x28, 0x0031, [], [(0, 15)], .u64, .ro, 0, none, .immediate⟩, -- EXPOSE_SHIFTED
  ⟨0x28, 0x0032, [], [(0, 15)], .u64, .ro, 0, none, .immediate⟩, -- EXPOSE_PAST
  ⟨0x28, 0x0033, [], [(0, 15)], .u64, .ro, 0, none, .immediate⟩, -- EXPOSE_I2C_FAIL
  ⟨0x28, 0x0034, [], [(0, 15)], .u64, .ro, 0, none, .immediate⟩] -- FRAMES_LATE_BIND

/-- Table 09-10 (R267, spec/09_exposure_and_frame_binding.md), part 1. -/
def catalogue28_1 : List Param := [
  ⟨0x28, 0x0035, [], [(0, 15)], .u64, .ro, 0, none, .immediate⟩, -- VERIFY_FAIL
  ⟨0x28, 0x0036, [], [(0, 15)], .u64, .ro, 0, none, .immediate⟩] -- ISP_SETS_APPLIED

/-- Every parameter of group 0x28. -/
def catalogue28 : List Param := catalogue28_0 ++ catalogue28_1

/-- Table 10-6 (R288, spec/10_i2c_controllers.md), part 0. -/
def catalogue70_0 : List Param := [
  ⟨0x70, 0x0001, [], [(0, 11)], .enum, .rw, 0, some (0, 1), .immediate⟩, -- I2C_ENABLE
  ⟨0x70, 0x0002, [], [(0, 11)], .enum, .rw, 0, some (0, 1), .immediate⟩, -- DRIVE
  ⟨0x70, 0x0003, [], [(0, 11)], .u32, .rw, 25, some (1, 1000), .immediate⟩, -- SCL_LOW_TIMEOUT
  ⟨0x70, 0x0004, [], [(0, 11)], .u32, .rw, 1000, some (100, 100000), .immediate⟩, -- SDA_LOW_TIMEOUT
  ⟨0x70, 0x0005, [], [(0, 11)], .u32, .rw, 2, some (0, 7), .immediate⟩, -- RETRY_LIMIT
  ⟨0x70, 0x0006, [], [(0, 11)], .u32, .rw, 1000, some (100, 60000), .immediate⟩, -- BUS_RETRY_INTERVAL
  ⟨0x70, 0x0007, [], [(0, 11)], .enum, .rw, 0, some (0, 6), .immediate⟩, -- SENSOR_PAGE_SIZE
  ⟨0x70, 0x0010, [], [(0, 11)], .blob, .wo, 0, none, .immediate⟩, -- XFER_DESC
  ⟨0x70, 0x0011, [], [(0, 11)], .blob, .ro, 0, none, .immediate⟩, -- XFER_RESULT
  ⟨0x70, 0x0012, [], [(0, 11)], .enum, .ro, 0, some (0, 6), .immediate⟩, -- BUS_STATE
  ⟨0x70, 0x0013, [], [(0, 11)], .enum, .ro, 0, some (0, 1), .immediate⟩, -- BANK_VOLTAGE
  ⟨0x70, 0x0014, [], [(0, 11)], .enum, .ro, 0, some (0, 13), .immediate⟩, -- LAST_ERROR
  ⟨0x70, 0x0020, [], [(0, 11)], .u64, .ro, 0, none, .immediate⟩, -- TRANSACTIONS
  ⟨0x70, 0x0021, [], [(0, 11)], .u64, .ro, 0, none, .immediate⟩, -- ADDR_NACK_COUNT
  ⟨0x70, 0x0022, [], [(0, 11)], .u64, .ro, 0, none, .immediate⟩, -- DATA_NACK_COUNT
  ⟨0x70, 0x0023, [], [(0, 11)], .u64, .ro, 0, none, .immediate⟩] -- ARB_LOST_COUNT

/-- Table 10-6 (R288, spec/10_i2c_controllers.md), part 1. -/
def catalogue70_1 : List Param := [
  ⟨0x70, 0x0024, [], [(0, 11)], .u64, .ro, 0, none, .immediate⟩, -- ARB_LOST_STOP_COUNT
  ⟨0x70, 0x0025, [], [(0, 11)], .u64, .ro, 0, none, .immediate⟩, -- ARB_LOST_RSTART_COUNT
  ⟨0x70, 0x0026, [], [(0, 11)], .u64, .ro, 0, none, .immediate⟩, -- BUS_ERROR_COUNT
  ⟨0x70, 0x0027, [], [(0, 11)], .u64, .ro, 0, none, .immediate⟩, -- SCL_TIMEOUT_COUNT
  ⟨0x70, 0x0028, [], [(0, 11)], .u64, .ro, 0, none, .immediate⟩, -- BUS_CLEARS
  ⟨0x70, 0x0029, [], [(0, 11)], .u64, .ro, 0, none, .immediate⟩, -- BUS_CLEAR_FAIL
  ⟨0x70, 0x002A, [], [(0, 11)], .u64, .ro, 0, none, .immediate⟩, -- LINE_FAULTS
  ⟨0x70, 0x002B, [], [(0, 11)], .u64, .ro, 0, none, .immediate⟩, -- POLL_TIMEOUTS
  ⟨0x70, 0x002C, [], [(0, 11)], .u64, .ro, 0, none, .immediate⟩, -- RETRIES
  ⟨0x70, 0x002D, [], [(0, 11)], .u64, .ro, 0, none, .immediate⟩, -- HOST_DEFERRED
  ⟨0x70, 0x002E, [], [(0, 11)], .u64, .ro, 0, none, .immediate⟩, -- BYTES_XFER
  ⟨0x70, 0x002F, [], [(0, 11)], .u64, .ro, 0, none, .immediate⟩] -- HOST_OVERRAN

/-- Every parameter of group 0x70. -/
def catalogue70 : List Param := catalogue70_0 ++ catalogue70_1

/-- Table 11-7 (R309, spec/11_display_heads.md), part 0. -/
def catalogue30_0 : List Param := [
  ⟨0x30, 0x0001, [], [(0, 3)], .enum, .rw, 0, some (0, 1), .admitted⟩, -- HEAD_ENABLE
  ⟨0x30, 0x0002, [], [(0, 3)], .enum, .rw, 0, some (0, 9), .admitted⟩, -- LINK_RATE_MAX
  ⟨0x30, 0x0003, [], [(0, 3)], .u32, .rw, 4, some (1, 4), .admitted⟩, -- LANES_MAX
  ⟨0x30, 0x0004, [], [(0, 3)], .u32, .rw, 148500, some (25000, 2400000), .admitted⟩, -- PIXEL_CLOCK
  ⟨0x30, 0x0005, [], [(0, 3)], .u32, .rw, 144181120, none, .admitted⟩, -- H_TIMING_A
  ⟨0x30, 0x0006, [], [(0, 3)], .u32, .rw, 2883672, none, .admitted⟩, -- H_TIMING_B
  ⟨0x30, 0x0007, [], [(0, 3)], .u32, .rw, 73729080, none, .admitted⟩, -- V_TIMING_A
  ⟨0x30, 0x0008, [], [(0, 3)], .u32, .rw, 327684, none, .admitted⟩, -- V_TIMING_B
  ⟨0x30, 0x0009, [], [(0, 3)], .flags, .rw, 3, some (0, 3), .admitted⟩, -- SYNC_POLARITY
  ⟨0x30, 0x000A, [], [(0, 3)], .enum, .rw, 0, some (0, 2), .admitted⟩, -- OUT_COLOUR
  ⟨0x30, 0x000B, [], [(0, 3)], .enum, .rw, 0, some (0, 2), .admitted⟩, -- OUT_BPC
  ⟨0x30, 0x000C, [], [(0, 3)], .enum, .rw, 0, some (0, 1), .immediate⟩, -- OUT_YCC_MATRIX
  ⟨0x30, 0x000D, [], [(0, 3)], .enum, .rw, 0, some (0, 1), .immediate⟩, -- OUT_RANGE
  ⟨0x30, 0x000E, [], [(0, 3)], .blob, .wo, 0, none, .immediate⟩, -- HDR_METADATA
  ⟨0x30, 0x000F, [], [(0, 3)], .u32, .rw, 0, some (0, 1073741823), .immediate⟩, -- BACKGROUND
  ⟨0x30, 0x0010, [], [(0, 3)], .enum, .rw, 1, some (0, 1), .immediate⟩] -- COMMIT_MODE

/-- Table 11-7 (R309, spec/11_display_heads.md), part 1. -/
def catalogue30_1 : List Param := [
  ⟨0x30, 0x0011, [], [(0, 3)], .u32, .rw, 500, some (0, 10000), .immediate⟩, -- COMMIT_MARGIN
  ⟨0x30, 0x0012, [], [(0, 3)], .enum, .rw, 0, some (0, 1), .admitted⟩, -- LOCK_MODE
  ⟨0x30, 0x0013, [], [(0, 3)], .u32, .rw, 257, some (257, 4112), .admitted⟩, -- LOCK_RATIO
  ⟨0x30, 0x0014, [], [(0, 3)], .s32, .rw, 0, some (-500000000, 500000000), .immediate⟩, -- LOCK_OFFSET
  ⟨0x30, 0x0015, [], [(0, 3)], .u32, .rw, 0, some (0, 4096), .immediate⟩, -- LOCK_JUMP
  ⟨0x30, 0x0016, [], [(0, 3)], .enum, .rw, 0, some (0, 1), .immediate⟩, -- PSR_POLICY
  ⟨0x30, 0x0017, [], [(0, 3)], .u32, .rw, 4, some (2, 255), .immediate⟩, -- PSR_IDLE_FRAMES
  ⟨0x30, 0x0018, [], [(0, 3)], .u32, .rw, 1072693248, some (0, 1073741823), .immediate⟩, -- UNDERFLOW_COLOUR
  ⟨0x30, 0x0020, [], [(0, 3)], .enum, .ro, 0, some (0, 5), .immediate⟩, -- LINK_STATE
  ⟨0x30, 0x0021, [], [(0, 3)], .u32, .ro, 0, none, .immediate⟩, -- LINK_TRAINED
  ⟨0x30, 0x0022, [], [(0, 3)], .u32, .ro, 0, none, .immediate⟩, -- SINK_CAPS
  ⟨0x30, 0x0023, [], [(0, 3)], .enum, .ro, 0, some (0, 2), .immediate⟩, -- LOCK_STATE
  ⟨0x30, 0x0024, [], [(0, 3)], .s32, .ro, 0, none, .immediate⟩, -- LOCK_ERROR
  ⟨0x30, 0x0025, [], [(0, 3)], .u32, .ro, 0, none, .immediate⟩, -- DISP_FRAME
  ⟨0x30, 0x0026, [], [(0, 3)], .u64, .ro, 0, none, .immediate⟩, -- LAST_COMMIT
  ⟨0x30, 0x0030, [], [(0, 3)], .u64, .ro, 0, none, .immediate⟩] -- FRAMES_SCANNED

/-- Table 11-7 (R309, spec/11_display_heads.md), part 2. -/
def catalogue30_2 : List Param := [
  ⟨0x30, 0x0031, [], [(0, 3)], .u64, .ro, 0, none, .immediate⟩, -- COMMITS
  ⟨0x30, 0x0032, [], [(0, 3)], .u64, .ro, 0, none, .immediate⟩, -- COMMITS_LATE
  ⟨0x30, 0x0033, [], [(0, 3)], .u64, .ro, 0, none, .immediate⟩, -- UNDERFLOW_FRAMES
  ⟨0x30, 0x0034, [], [(0, 3)], .u64, .ro, 0, none, .immediate⟩, -- LOCK_TRIMS
  ⟨0x30, 0x0035, [], [(0, 3)], .u64, .ro, 0, none, .immediate⟩, -- LOCK_JUMPS
  ⟨0x30, 0x0036, [], [(0, 3)], .u64, .ro, 0, none, .immediate⟩, -- PSR_ENTRIES
  ⟨0x30, 0x0037, [], [(0, 3)], .u64, .ro, 0, none, .immediate⟩, -- PSR_EXITS
  ⟨0x30, 0x0038, [], [(0, 3)], .u64, .ro, 0, none, .immediate⟩, -- LINK_TRAIN_FAIL
  ⟨0x30, 0x0039, [], [(0, 3)], .u64, .ro, 0, none, .immediate⟩, -- STALE_FRAMES
  ⟨0x30, 0x003A, [], [(0, 3)], .u64, .ro, 0, none, .immediate⟩, -- SOURCE_LOST
  ⟨0x30, 0x003B, [], [(0, 3)], .u64, .ro, 0, none, .immediate⟩, -- SCOPE_HOLDS
  ⟨0x30, 0x003C, [], [(0, 3)], .u64, .ro, 0, none, .immediate⟩, -- BYTES_READ
  ⟨0x30, 0x1001, [(8, 4, 4)], [(0, 3)], .enum, .rw, 0, some (0, 1), .admitted⟩, -- LAYER_ENABLE
  ⟨0x30, 0x1002, [(8, 4, 4)], [(0, 3)], .enum, .rw, 0, some (0, 3), .admitted⟩, -- LAYER_SOURCE
  ⟨0x30, 0x1003, [(8, 4, 4)], [(0, 3)], .u32, .rw, 0, some (0, 7939), .admitted⟩, -- LAYER_RENDITION
  ⟨0x30, 0x1004, [(8, 4, 4)], [(0, 3)], .u64, .rw, 0, none, .immediate⟩] -- LAYER_BUFFER

/-- Table 11-7 (R309, spec/11_display_heads.md), part 3. -/
def catalogue30_3 : List Param := [
  ⟨0x30, 0x1005, [(8, 4, 4)], [(0, 3)], .u32, .rw, 3, none, .admitted⟩, -- LAYER_FORMAT
  ⟨0x30, 0x1006, [(8, 4, 4)], [(0, 3)], .u32, .rw, 0, none, .immediate⟩, -- LAYER_PITCH
  ⟨0x30, 0x1007, [(8, 4, 4)], [(0, 3)], .u32, .rw, 0, none, .immediate⟩, -- LAYER_SRC_ORIGIN
  ⟨0x30, 0x1008, [(8, 4, 4)], [(0, 3)], .u32, .rw, 0, none, .admitted⟩, -- LAYER_SIZE
  ⟨0x30, 0x1009, [(8, 4, 4)], [(0, 3)], .u32, .rw, 0, none, .immediate⟩, -- LAYER_DST
  ⟨0x30, 0x100A, [(8, 4, 4)], [(0, 3)], .u32, .rw, 255, some (0, 255), .immediate⟩, -- LAYER_ALPHA
  ⟨0x30, 0x100B, [(8, 4, 4)], [(0, 3)], .u32, .rw, 0, some (0, 257), .immediate⟩, -- LAYER_YCC
  ⟨0x30, 0x1010, [(8, 4, 4)], [(0, 3)], .flags, .ro, 0, some (0, 3), .immediate⟩, -- LAYER_STATUS
  ⟨0x30, 0x1011, [(8, 4, 4)], [(0, 3)], .u64, .ro, 0, none, .immediate⟩, -- LAYER_CURRENT
  ⟨0x30, 0x2001, [(8, 4, 8)], [(0, 3)], .u64, .rw, 0, none, .immediate⟩, -- CRC_RECT
  ⟨0x30, 0x2002, [(8, 4, 8)], [(0, 3)], .u32, .rw, 0, none, .immediate⟩, -- CRC_EXPECT
  ⟨0x30, 0x2003, [(8, 4, 8)], [(0, 3)], .enum, .rw, 0, some (0, 2), .immediate⟩, -- CRC_ENABLE
  ⟨0x30, 0x2004, [(8, 4, 8)], [(0, 3)], .u32, .ro, 0, none, .immediate⟩, -- CRC_LAST
  ⟨0x30, 0x2005, [(8, 4, 8)], [(0, 3)], .enum, .ro, 0, some (0, 4), .immediate⟩, -- CRC_RESULT
  ⟨0x30, 0x2006, [(8, 4, 8)], [(0, 3)], .u64, .ro, 0, none, .immediate⟩] -- CRC_MISMATCHES

/-- Every parameter of group 0x30. -/
def catalogue30 : List Param := catalogue30_0 ++ catalogue30_1 ++ catalogue30_2 ++ catalogue30_3

/-- Table 12-9 (R339, spec/12_network_time_and_ring.md), part 0. -/
def catalogue40_0 : List Param := [
  ⟨0x40, 0x0001, [], [(0, 1)], .enum, .rw, 1, some (0, 1), .immediate⟩, -- ETH_ENABLE
  ⟨0x40, 0x0002, [], [(0, 1)], .enum, .rw, 0, some (0, 1), .admitted⟩, -- ETH_MODE
  ⟨0x40, 0x0003, [], [(0, 1)], .u64, .ro, 0, none, .immediate⟩, -- MAC_ADDRESS
  ⟨0x40, 0x0004, [], [(0, 1)], .u32, .rw, 0, none, .immediate⟩, -- IPV4_ADDRESS
  ⟨0x40, 0x0005, [], [(0, 1)], .u32, .rw, 24, some (0, 32), .immediate⟩, -- IPV4_PREFIX
  ⟨0x40, 0x0006, [], [(0, 1)], .u32, .rw, 0, none, .immediate⟩, -- IPV4_GATEWAY
  ⟨0x40, 0x0007, [], [(0, 1)], .blob, .rw, 0, none, .immediate⟩, -- IPV6_ADDRESS
  ⟨0x40, 0x0008, [], [(0, 1)], .u32, .rw, 64, some (0, 128), .immediate⟩, -- IPV6_PREFIX
  ⟨0x40, 0x0009, [], [(0, 1)], .blob, .rw, 0, none, .immediate⟩, -- IPV6_GATEWAY
  ⟨0x40, 0x000A, [], [(0, 1)], .u32, .rw, 0, some (0, 4094), .immediate⟩, -- VLAN_ID
  ⟨0x40, 0x000B, [], [(0, 1)], .u32, .rw, 1500, some (1500, 9000), .immediate⟩, -- MTU
  ⟨0x40, 0x000C, [], [(0, 1)], .u32, .rw, 3, some (0, 7), .immediate⟩, -- ROCE_PRIORITY
  ⟨0x40, 0x000D, [], [(0, 1)], .enum, .rw, 1, some (0, 1), .immediate⟩, -- PFC_ENABLE
  ⟨0x40, 0x000E, [], [(0, 1)], .u32, .rw, 100, some (10, 10000), .immediate⟩, -- PFC_STORM_LIMIT
  ⟨0x40, 0x000F, [], [(0, 1)], .u32, .rw, 3021312, none, .immediate⟩, -- DSCP_CONTROL
  ⟨0x40, 0x0010, [], [(0, 1)], .u32, .rw, 14, some (8, 20), .immediate⟩] -- ROCE_ACK_TIMEOUT

/-- Table 12-9 (R339, spec/12_network_time_and_ring.md), part 1. -/
def catalogue40_1 : List Param := [
  ⟨0x40, 0x0011, [], [(0, 1)], .u32, .rw, 7, some (0, 7), .immediate⟩, -- ROCE_RETRY
  ⟨0x40, 0x0020, [], [(0, 1)], .enum, .ro, 0, some (0, 3), .immediate⟩, -- LINK_STATE
  ⟨0x40, 0x0021, [], [(0, 1)], .u32, .ro, 0, some (0, 1024), .immediate⟩, -- QP_COUNT
  ⟨0x40, 0x0030, [], [(0, 1)], .u64, .ro, 0, none, .immediate⟩, -- FEC_CORRECTED
  ⟨0x40, 0x0031, [], [(0, 1)], .u64, .ro, 0, none, .immediate⟩, -- FEC_UNCORRECTED
  ⟨0x40, 0x0032, [], [(0, 1)], .u64, .ro, 0, none, .immediate⟩, -- RX_FRAMES
  ⟨0x40, 0x0033, [], [(0, 1)], .u64, .ro, 0, none, .immediate⟩, -- TX_FRAMES
  ⟨0x40, 0x0034, [], [(0, 1)], .u64, .ro, 0, none, .immediate⟩, -- RX_DROPPED
  ⟨0x40, 0x0035, [], [(0, 1)], .u64, .ro, 0, none, .immediate⟩, -- PFC_RX
  ⟨0x40, 0x0036, [], [(0, 1)], .u64, .ro, 0, none, .immediate⟩, -- PFC_TX
  ⟨0x40, 0x0037, [], [(0, 1)], .u64, .ro, 0, none, .immediate⟩, -- PFC_STORMS
  ⟨0x40, 0x0038, [], [(0, 1)], .u64, .ro, 0, none, .immediate⟩, -- LINK_FAILS
  ⟨0x40, 0x0039, [], [(0, 1)], .u64, .ro, 0, none, .immediate⟩, -- CNP_RX
  ⟨0x40, 0x003A, [], [(0, 1)], .u64, .ro, 0, none, .immediate⟩, -- CNP_TX
  ⟨0x40, 0x003B, [], [(0, 1)], .u64, .ro, 0, none, .immediate⟩, -- RX_BYTES
  ⟨0x40, 0x003C, [], [(0, 1)], .u64, .ro, 0, none, .immediate⟩] -- TX_BYTES

/-- Every parameter of group 0x40. -/
def catalogue40 : List Param := catalogue40_0 ++ catalogue40_1

/-- Table 12-10 (R340, spec/12_network_time_and_ring.md), part 0. -/
def catalogue41_0 : List Param := [
  ⟨0x41, 0x0001, [], [(0, 95)], .enum, .rw, 0, some (0, 1), .admitted⟩, -- STREAM_ENABLE
  ⟨0x41, 0x0002, [], [(0, 95)], .flags, .rw, 1, some (1, 3), .admitted⟩, -- STREAM_PORTS
  ⟨0x41, 0x0003, [], [(0, 95)], .u32, .rw, 0, some (0, 4094), .admitted⟩, -- STREAM_VLAN
  ⟨0x41, 0x0004, [], [(0, 95)], .u32, .rw, 34, some (0, 63), .immediate⟩, -- STREAM_DSCP
  ⟨0x41, 0x0005, [], [(0, 95)], .u32, .rw, 96, some (96, 127), .admitted⟩, -- PAYLOAD_TYPE
  ⟨0x41, 0x0006, [], [(0, 95)], .u32, .rw, 0, none, .admitted⟩, -- SSRC
  ⟨0x41, 0x0007, [], [(0, 95)], .u32, .rw, 0, none, .admitted⟩, -- STREAM_SOURCE
  ⟨0x41, 0x0008, [], [(0, 95)], .u32, .rw, 0, some (0, 1000000000), .admitted⟩, -- SENDER_OFFSET
  ⟨0x41, 0x0009, [], [(0, 95)], .enum, .rw, 0, some (0, 1), .admitted⟩, -- TR_MODE
  ⟨0x41, 0x000A, [], [(0, 95)], .u32, .rw, 0, none, .admitted⟩, -- TR_OFFSET
  ⟨0x41, 0x000B, [], [(0, 95)], .enum, .rw, 0, some (0, 1), .admitted⟩, -- VIDEO_PACKING
  ⟨0x41, 0x000C, [], [(0, 95)], .enum, .rw, 0, some (0, 2), .immediate⟩, -- COLORIMETRY
  ⟨0x41, 0x000D, [], [(0, 95)], .enum, .rw, 0, some (0, 3), .immediate⟩, -- TCS
  ⟨0x41, 0x000E, [], [(0, 95)], .enum, .rw, 0, some (0, 1), .admitted⟩, -- PACKET_TIME
  ⟨0x41, 0x000F, [], [(0, 95)], .enum, .rw, 1, some (0, 1), .admitted⟩, -- AUDIO_ENCODING
  ⟨0x41, 0x0010, [], [(0, 95)], .u32, .rw, 2, some (1, 64), .admitted⟩] -- AUDIO_CHANNELS

/-- Table 12-10 (R340, spec/12_network_time_and_ring.md), part 1. -/
def catalogue41_1 : List Param := [
  ⟨0x41, 0x0011, [], [(0, 95)], .u32, .rw, 2000, some (250, 100000), .immediate⟩, -- RX_DELAY
  ⟨0x41, 0x0012, [], [(0, 95)], .enum, .rw, 1, some (0, 1), .immediate⟩, -- ANC_TICKET
  ⟨0x41, 0x0020, [(0, 4, 2)], [(0, 95)], .blob, .rw, 0, none, .admitted⟩, -- DEST_ADDRESS
  ⟨0x41, 0x0030, [(0, 4, 2)], [(0, 95)], .u32, .rw, 5004, some (1024, 65535), .admitted⟩, -- DEST_UDP
  ⟨0x41, 0x0040, [], [(0, 95)], .blob, .ro, 0, none, .immediate⟩, -- SDP
  ⟨0x41, 0x0050, [], [(0, 95)], .u64, .ro, 0, none, .immediate⟩, -- PACKETS_SENT
  ⟨0x41, 0x0051, [], [(0, 95)], .u64, .ro, 0, none, .immediate⟩, -- FRAMES_SENT
  ⟨0x41, 0x0052, [], [(0, 95)], .u64, .ro, 0, none, .immediate⟩, -- FRAMES_REPEATED_SENT
  ⟨0x41, 0x0053, [], [(0, 95)], .u64, .ro, 0, none, .immediate⟩, -- SOURCE_LOST
  ⟨0x41, 0x0054, [], [(0, 95)], .u64, .ro, 0, none, .immediate⟩, -- RX_PACKETS
  ⟨0x41, 0x0055, [], [(0, 95)], .u64, .ro, 0, none, .immediate⟩, -- RX_LOST
  ⟨0x41, 0x0056, [], [(0, 95)], .u64, .ro, 0, none, .immediate⟩, -- RX_LATE
  ⟨0x41, 0x0057, [], [(0, 95)], .u64, .ro, 0, none, .immediate⟩, -- RX_PATH_RECOVERED
  ⟨0x41, 0x0058, [], [(0, 95)], .u64, .ro, 0, none, .immediate⟩] -- STREAM_BYTES

/-- Every parameter of group 0x41. -/
def catalogue41 : List Param := catalogue41_0 ++ catalogue41_1

/-- Table 12-11 (R341, spec/12_network_time_and_ring.md), part 0. -/
def catalogue42_0 : List Param := [
  ⟨0x42, 0x0001, [], [(0, 0)], .enum, .rw, 0, some (0, 3), .immediate⟩, -- TIME_SOURCE
  ⟨0x42, 0x0002, [], [(0, 0)], .u64, .wo, 0, none, .immediate⟩, -- TIME_SET
  ⟨0x42, 0x0003, [], [(0, 0)], .u32, .rw, 100000, some (1000, 1000000000), .immediate⟩, -- TIME_STEP_THRESHOLD
  ⟨0x42, 0x0004, [], [(0, 0)], .enum, .rw, 0, some (0, 1), .immediate⟩, -- TICK_REPHASE
  ⟨0x42, 0x0005, [], [(0, 0)], .u32, .rw, 127, some (0, 127), .immediate⟩, -- PTP_DOMAIN
  ⟨0x42, 0x0006, [], [(0, 0)], .enum, .rw, 1, some (0, 2), .immediate⟩, -- PTP_ROLE
  ⟨0x42, 0x0007, [], [(0, 0)], .u32, .rw, 32896, some (0, 65535), .immediate⟩, -- PTP_PRIORITY
  ⟨0x42, 0x0008, [], [(0, 0)], .u32, .rw, 16711165, none, .immediate⟩, -- PTP_INTERVALS
  ⟨0x42, 0x0009, [], [(0, 0)], .u32, .rw, 3, some (2, 10), .immediate⟩, -- PTP_ANNOUNCE_TIMEOUT
  ⟨0x42, 0x000A, [], [(0, 1)], .s32, .rw, 0, some (-1000000, 1000000), .immediate⟩, -- PTP_ASYMMETRY
  ⟨0x42, 0x000B, [], [(0, 1)], .u32, .rw, 65537, none, .immediate⟩, -- FSYNC_RATIO
  ⟨0x42, 0x000C, [], [(0, 1)], .u32, .rw, 200, some (10, 1000), .immediate⟩, -- FSYNC_PULL
  ⟨0x42, 0x000D, [], [(0, 1)], .enum, .rw, 0, some (0, 1), .immediate⟩, -- FSYNC_EDGE
  ⟨0x42, 0x0010, [], [(0, 0)], .u64, .ro, 0, none, .immediate⟩, -- DEVICE_TIME
  ⟨0x42, 0x0011, [], [(0, 0)], .u32, .ro, 0, some (0, 65535), .immediate⟩, -- TIME_EPOCH
  ⟨0x42, 0x0012, [], [(0, 0)], .enum, .ro, 0, some (0, 3), .immediate⟩] -- TIME_STATE

/-- Table 12-11 (R341, spec/12_network_time_and_ring.md), part 1. -/
def catalogue42_1 : List Param := [
  ⟨0x42, 0x0013, [], [(0, 0)], .blob, .ro, 0, none, .immediate⟩, -- TIME_STEP_LOG
  ⟨0x42, 0x0014, [], [(0, 1)], .enum, .ro, 0, none, .immediate⟩, -- PTP_PORT_STATE
  ⟨0x42, 0x0015, [], [(0, 0)], .u64, .ro, 0, none, .immediate⟩, -- PTP_OFFSET
  ⟨0x42, 0x0016, [], [(0, 0)], .u32, .ro, 0, none, .immediate⟩, -- PTP_PATH_DELAY
  ⟨0x42, 0x0017, [], [(0, 0)], .u64, .ro, 0, none, .immediate⟩, -- PTP_GRANDMASTER
  ⟨0x42, 0x0020, [], [(0, 1)], .u64, .ro, 0, none, .immediate⟩, -- FSYNC_LAST_EDGE
  ⟨0x42, 0x0021, [], [(0, 1)], .u32, .ro, 0, none, .immediate⟩, -- FSYNC_PERIOD
  ⟨0x42, 0x0030, [], [(0, 0)], .u64, .ro, 0, none, .immediate⟩, -- TIME_STEPS
  ⟨0x42, 0x0031, [], [(0, 0)], .u64, .ro, 0, none, .immediate⟩, -- STEPPED_TICKS
  ⟨0x42, 0x0032, [], [(0, 1)], .u64, .ro, 0, none, .immediate⟩, -- FSYNC_GLITCHES
  ⟨0x42, 0x0033, [], [(0, 1)], .u64, .ro, 0, none, .immediate⟩, -- FSYNC_STOPS
  ⟨0x42, 0x0034, [], [(0, 1)], .u64, .ro, 0, none, .immediate⟩, -- FRAME_SLIPS
  ⟨0x42, 0x0035, [], [(0, 1)], .u64, .ro, 0, none, .immediate⟩, -- RATE_MISMATCH
  ⟨0x42, 0x0036, [], [(0, 0)], .u64, .ro, 0, none, .immediate⟩] -- PTP_BAD_TIME

/-- Every parameter of group 0x42. -/
def catalogue42 : List Param := catalogue42_0 ++ catalogue42_1

/-- Table 12-12 (R342, spec/12_network_time_and_ring.md), part 0. -/
def catalogue43_0 : List Param := [
  ⟨0x43, 0x0001, [], [(0, 0)], .flags, .rw, 0, some (0, 15), .immediate⟩, -- RING_ENABLE
  ⟨0x43, 0x0002, [], [(0, 0)], .u32, .rw, Config.serialNumber.toNat % 65536, some (1, 65535), .immediate⟩, -- RING_ID
  ⟨0x43, 0x0003, [], [(0, 0)], .u64, .wo, 0, none, .immediate⟩, -- EVENT_FIRE
  ⟨0x43, 0x0004, [], [(0, 0)], .u64, .rw, 0xFFFFFFFFFFFFFFFF, none, .immediate⟩, -- EVENT_RX_MASK
  ⟨0x43, 0x0010, [], [(0, 3)], .enum, .ro, 0, some (0, 3), .immediate⟩, -- RING_PORT_STATE
  ⟨0x43, 0x0011, [], [(0, 3)], .enum, .ro, 0, some (0, 3), .immediate⟩, -- RING_PORT_ROLE
  ⟨0x43, 0x0012, [], [(0, 3)], .u32, .ro, 0, none, .immediate⟩, -- HOP_DELAY
  ⟨0x43, 0x0013, [], [(0, 3)], .u64, .ro, 0, none, .immediate⟩, -- NEIGHBOUR_STATUS
  ⟨0x43, 0x0014, [], [(0, 0)], .u32, .ro, 65535, some (0, 65535), .immediate⟩, -- RING_HOPS
  ⟨0x43, 0x0015, [], [(0, 0)], .u32, .ro, 0, some (0, 65535), .immediate⟩, -- ROOT_ID
  ⟨0x43, 0x0016, [], [(0, 0)], .s32, .ro, 0, none, .immediate⟩, -- TICK_ALIGN_ERROR
  ⟨0x43, 0x0020, [], [(0, 0)], .u64, .ro, 0, none, .immediate⟩, -- EVENTS_TX
  ⟨0x43, 0x0021, [], [(0, 0)], .u64, .ro, 0, none, .immediate⟩, -- EVENTS_RX
  ⟨0x43, 0x0022, [], [(0, 0)], .u64, .ro, 0, none, .immediate⟩, -- RING_RETURN
  ⟨0x43, 0x0023, [], [(0, 0)], .u64, .ro, 0, none, .immediate⟩, -- RING_DUP
  ⟨0x43, 0x0024, [], [(0, 0)], .u64, .ro, 0, none, .immediate⟩] -- HOP_EXHAUSTED

/-- Table 12-12 (R342, spec/12_network_time_and_ring.md), part 1. -/
def catalogue43_1 : List Param := [
  ⟨0x43, 0x0025, [], [(0, 0)], .u64, .ro, 0, none, .immediate⟩, -- RING_BREAKS
  ⟨0x43, 0x0026, [], [(0, 0)], .u64, .ro, 0, none, .immediate⟩, -- REPARENTS
  ⟨0x43, 0x0027, [], [(0, 0)], .u64, .ro, 0, none, .immediate⟩, -- TICK_SEQ_JUMPS
  ⟨0x43, 0x0028, [], [(0, 3)], .u64, .ro, 0, none, .immediate⟩, -- RING_LINK_LOSS
  ⟨0x43, 0x0029, [], [(0, 3)], .u64, .ro, 0, none, .immediate⟩] -- RING_HEADER_ERR

/-- Every parameter of group 0x43. -/
def catalogue43 : List Param := catalogue43_0 ++ catalogue43_1

/-- Table 13-14 (R368, spec/13_recording_and_media.md), part 0. -/
def catalogue50_0 : List Param := [
  ⟨0x50, 0x0001, [], [(0, 0)], .enum, .rw, 2, some (0, 2), .restart⟩, -- PCIE_BIFURCATION
  ⟨0x50, 0x0002, [], [(0, 0)], .enum, .rw, 5, some (1, 5), .restart⟩, -- PCIE_SPEED_MAX
  ⟨0x50, 0x0003, [], [(0, 0)], .u64, .rw, 0, some (0, 63000000000), .admitted⟩, -- DECLARED_RATE
  ⟨0x50, 0x0004, [], [(0, 0)], .u32, .rw, 1000, some (100, 10000), .immediate⟩, -- COMMIT_INTERVAL
  ⟨0x50, 0x0005, [], [(0, 0)], .u32, .rw, 64, some (8, 1024), .immediate⟩, -- CHECKPOINT_INTERVAL
  ⟨0x50, 0x0006, [], [(0, 0)], .u32, .rw, 2000, some (100, 30000), .immediate⟩, -- MEMBER_TIMEOUT
  ⟨0x50, 0x0007, [], [(0, 0)], .u32, .rw, 60, some (0, 3600), .immediate⟩, -- FULL_WARNING
  ⟨0x50, 0x0008, [], [(0, 0)], .u32, .rw, 2000, some (100, 14000), .immediate⟩, -- REBUILD_RATE
  ⟨0x50, 0x0010, [], [(0, 0)], .blob, .wo, 0, none, .immediate⟩, -- MEDIA_FORMAT
  ⟨0x50, 0x0011, [], [(0, 0)], .u32, .wo, 0, some (0, 3), .immediate⟩, -- MEDIA_REBUILD
  ⟨0x50, 0x0012, [], [(0, 0)], .u32, .wo, 0, none, .immediate⟩, -- CLIP_DELETE
  ⟨0x50, 0x0020, [], [(0, 0)], .enum, .ro, 0, some (0, 5), .immediate⟩, -- MEDIA_STATE
  ⟨0x50, 0x0021, [], [(0, 0)], .u64, .ro, 0, none, .immediate⟩, -- SET_ID
  ⟨0x50, 0x0022, [], [(0, 0)], .u32, .ro, 0, none, .immediate⟩, -- SET_GENERATION
  ⟨0x50, 0x0023, [], [(0, 0)], .enum, .ro, 0, some (0, 2), .immediate⟩, -- SET_LAYOUT
  ⟨0x50, 0x0024, [], [(0, 0)], .u32, .ro, 0, none, .immediate⟩] -- TOTAL_EXTENTS

/-- Table 13-14 (R368, spec/13_recording_and_media.md), part 1. -/
def catalogue50_1 : List Param := [
  ⟨0x50, 0x0025, [], [(0, 0)], .u32, .ro, 0, none, .immediate⟩, -- FREE_EXTENTS
  ⟨0x50, 0x0026, [], [(0, 0)], .u32, .ro, 0, none, .immediate⟩, -- RECORD_SECONDS_LEFT
  ⟨0x50, 0x0027, [], [(0, 0)], .u32, .ro, 0, some (0, 4), .immediate⟩, -- OPEN_CLIPS
  ⟨0x50, 0x0028, [], [(0, 0)], .u64, .ro, 0, none, .immediate⟩, -- LAST_COMMIT_SEQ
  ⟨0x50, 0x0029, [], [(0, 0)], .u64, .ro, 0, none, .immediate⟩, -- LAST_COMMIT_TIME
  ⟨0x50, 0x002A, [], [(0, 0)], .u32, .ro, 0, some (0, 1000), .immediate⟩, -- REBUILD_PROGRESS
  ⟨0x50, 0x0030, [], [(0, 3)], .enum, .ro, 0, some (0, 7), .immediate⟩, -- MEMBER_STATE
  ⟨0x50, 0x0031, [], [(0, 3)], .u32, .ro, 0, none, .immediate⟩, -- MEMBER_LINK
  ⟨0x50, 0x0032, [], [(0, 3)], .u64, .ro, 0, none, .immediate⟩, -- MEMBER_CAPACITY
  ⟨0x50, 0x0033, [], [(0, 3)], .u64, .ro, 0, none, .immediate⟩, -- MEMBER_ID
  ⟨0x50, 0x0040, [], [(0, 3)], .u32, .ro, 0, none, .immediate⟩, -- CLIP_SLOT_ID
  ⟨0x50, 0x0041, [], [(0, 3)], .enum, .ro, 0, some (0, 2), .immediate⟩, -- CLIP_SLOT_STATE
  ⟨0x50, 0x0042, [], [(0, 3)], .u64, .ro, 0, none, .immediate⟩, -- CLIP_LENGTH
  ⟨0x50, 0x0043, [], [(0, 3)], .u32, .ro, 0, none, .immediate⟩, -- CLIP_FRAMES
  ⟨0x50, 0x0044, [], [(0, 3)], .blob, .wo, 0, none, .immediate⟩, -- CLIP_META
  ⟨0x50, 0x0050, [], [(0, 0)], .u64, .ro, 0, none, .immediate⟩] -- COMMITS

/-- Table 13-14 (R368, spec/13_recording_and_media.md), part 2. -/
def catalogue50_2 : List Param := [
  ⟨0x50, 0x0051, [], [(0, 0)], .u64, .ro, 0, none, .immediate⟩, -- COMMITS_LATE
  ⟨0x50, 0x0052, [], [(0, 0)], .u64, .ro, 0, none, .immediate⟩, -- CHECKPOINTS
  ⟨0x50, 0x0053, [], [(0, 0)], .u64, .ro, 0, none, .immediate⟩, -- FRAMES_RECORDED
  ⟨0x50, 0x0054, [], [(0, 0)], .u64, .ro, 0, none, .immediate⟩, -- FRAMES_LOST
  ⟨0x50, 0x0055, [], [(0, 0)], .u64, .ro, 0, none, .immediate⟩, -- CLIPS_RECOVERED
  ⟨0x50, 0x0056, [], [(0, 3)], .u64, .ro, 0, none, .immediate⟩, -- MEMBER_FAILURES
  ⟨0x50, 0x0057, [], [(0, 3)], .u64, .ro, 0, none, .immediate⟩, -- NVME_ERRORS
  ⟨0x50, 0x0058, [], [(0, 3)], .u64, .ro, 0, none, .immediate⟩, -- NVME_TIMEOUTS
  ⟨0x50, 0x0059, [], [(0, 3)], .u64, .ro, 0, none, .immediate⟩] -- BYTES_WRITTEN

/-- Every parameter of group 0x50. -/
def catalogue50 : List Param := catalogue50_0 ++ catalogue50_1 ++ catalogue50_2

/-- Table 14-10 (R399, spec/14_storage_target.md), part 0. -/
def catalogue51_0 : List Param := [
  ⟨0x51, 0x0001, [], [(0, 0)], .enum, .rw, 0, some (0, 1), .admitted⟩, -- TARGET_ENABLE
  ⟨0x51, 0x0002, [], [(0, 1)], .u64, .rw, 10000000000, some (0, 400000000000), .admitted⟩, -- TARGET_RATE
  ⟨0x51, 0x0003, [], [(0, 0)], .u32, .rw, 3, some (0, 6), .immediate⟩, -- ARB_BURST
  ⟨0x51, 0x0004, [], [(0, 0)], .u32, .rw, 16, some (1, 256), .immediate⟩, -- WEIGHT_HIGH
  ⟨0x51, 0x0005, [], [(0, 0)], .u32, .rw, 8, some (1, 256), .immediate⟩, -- WEIGHT_MEDIUM
  ⟨0x51, 0x0006, [], [(0, 0)], .u32, .rw, 4, some (1, 256), .immediate⟩, -- WEIGHT_LOW
  ⟨0x51, 0x0007, [], [(0, 0)], .enum, .rw, 0, some (0, 1), .immediate⟩, -- ALLOW_ANY
  ⟨0x51, 0x0008, [], [(0, 0)], .blob, .ro, 0, none, .immediate⟩, -- SUBSYS_NQN
  ⟨0x51, 0x0010, [], [(0, 31)], .blob, .rw, 0, none, .immediate⟩, -- ALLOW_NQN
  ⟨0x51, 0x0011, [], [(0, 31)], .blob, .rw, 0, none, .immediate⟩, -- ALLOW_HOSTID
  ⟨0x51, 0x0012, [], [(0, 31)], .flags, .rw, 3, some (0, 15), .immediate⟩, -- ALLOW_RIGHTS
  ⟨0x51, 0x0013, [], [(0, 31)], .u32, .rw, 2, none, .immediate⟩, -- ALLOW_CLASS
  ⟨0x51, 0x0014, [], [(0, 31)], .u32, .rw, 8, some (1, 32), .immediate⟩, -- ALLOW_QUEUES
  ⟨0x51, 0x0020, [], [(0, 0)], .u32, .ro, 0, some (0, 16), .immediate⟩, -- ASSOCIATIONS
  ⟨0x51, 0x0021, [], [(0, 15)], .blob, .ro, 0, none, .immediate⟩, -- ASSOC_HOST
  ⟨0x51, 0x0022, [], [(0, 15)], .u64, .ro, 0, none, .immediate⟩] -- ASSOC_INFO

/-- Table 14-10 (R399, spec/14_storage_target.md), part 1. -/
def catalogue51_1 : List Param := [
  ⟨0x51, 0x0030, [], [(0, 0)], .u64, .ro, 0, none, .immediate⟩, -- CONNECTS
  ⟨0x51, 0x0031, [], [(0, 0)], .u64, .ro, 0, none, .immediate⟩, -- CONNECT_REJECTED
  ⟨0x51, 0x0032, [], [(0, 0)], .u64, .ro, 0, none, .immediate⟩, -- KATO_EXPIRED
  ⟨0x51, 0x0033, [], [(0, 0)], .u64, .ro, 0, none, .immediate⟩, -- CONN_LOST
  ⟨0x51, 0x0034, [], [(0, 0)], .u64, .ro, 0, none, .immediate⟩, -- READ_CMDS
  ⟨0x51, 0x0035, [], [(0, 0)], .u64, .ro, 0, none, .immediate⟩, -- WRITE_CMDS
  ⟨0x51, 0x0036, [], [(0, 0)], .u64, .ro, 0, none, .immediate⟩, -- FLUSH_CMDS
  ⟨0x51, 0x0037, [], [(0, 0)], .u64, .ro, 0, none, .immediate⟩, -- URGENT_CMDS
  ⟨0x51, 0x0038, [], [(0, 0)], .u64, .ro, 0, none, .immediate⟩, -- PACER_WAITS
  ⟨0x51, 0x0039, [], [(0, 0)], .u64, .ro, 0, none, .immediate⟩, -- ABORTED
  ⟨0x51, 0x003A, [], [(0, 0)], .u64, .ro, 0, none, .immediate⟩, -- ABORT_NOT_ABORTED
  ⟨0x51, 0x003B, [], [(0, 0)], .u64, .ro, 0, none, .immediate⟩, -- NS_NOT_READY
  ⟨0x51, 0x003C, [], [(0, 0)], .u64, .ro, 0, none, .immediate⟩, -- MEDIA_READ_ERRORS
  ⟨0x51, 0x003D, [], [(0, 0)], .u64, .ro, 0, none, .immediate⟩, -- ACCESS_DENIED
  ⟨0x51, 0x003E, [], [(0, 0)], .u64, .ro, 0, none, .immediate⟩, -- FW_COMMITS
  ⟨0x51, 0x003F, [], [(0, 0)], .u64, .ro, 0, none, .immediate⟩] -- FW_REJECTED

/-- Table 14-10 (R399, spec/14_storage_target.md), part 2. -/
def catalogue51_2 : List Param := [
  ⟨0x51, 0x0040, [], [(0, 0)], .u64, .ro, 0, none, .immediate⟩, -- FW_STAGING_RESETS
  ⟨0x51, 0x0041, [], [(0, 1)], .u64, .ro, 0, none, .immediate⟩, -- READ_BYTES
  ⟨0x51, 0x0042, [], [(0, 1)], .u64, .ro, 0, none, .immediate⟩] -- WRITE_BYTES

/-- Every parameter of group 0x51. -/
def catalogue51 : List Param := catalogue51_0 ++ catalogue51_1 ++ catalogue51_2

/-- Table 15-8 (R418, spec/15_audio_ports.md), part 0. -/
def catalogue60_0 : List Param := [
  ⟨0x60, 0x0001, [], [(0, 7)], .enum, .rw, 0, some (0, 1), .immediate⟩, -- PORT_ENABLE
  ⟨0x60, 0x0002, [], [(0, 7)], .enum, .rw, 0, some (0, 1), .immediate⟩, -- DIRECTION
  ⟨0x60, 0x0003, [], [(0, 7)], .enum, .rw, 0, some (0, 1), .immediate⟩, -- CLOCK_ROLE
  ⟨0x60, 0x0004, [], [(0, 7)], .enum, .rw, 0, some (0, 1), .immediate⟩, -- FAMILY
  ⟨0x60, 0x0005, [], [(0, 7)], .u32, .rw, 0, some (0, 2), .immediate⟩, -- RATE_MULT
  ⟨0x60, 0x0006, [], [(0, 7)], .u32, .rw, 17891681, none, .immediate⟩, -- TDM_FORMAT
  ⟨0x60, 0x0007, [], [(0, 7)], .u32, .rw, 10, some (0, 15), .immediate⟩, -- SAMPLE_FORMAT
  ⟨0x60, 0x0008, [], [(0, 7)], .flags, .rw, 3, none, .immediate⟩, -- SLOT_MASK
  ⟨0x60, 0x0009, [], [(0, 7)], .flags, .rw, 0, none, .immediate⟩, -- MUTE
  ⟨0x60, 0x000A, [], [(0, 7)], .u32, .rw, 10, some (1, 1000), .immediate⟩, -- MUTE_TIMEOUT
  ⟨0x60, 0x000B, [], [(0, 7)], .blob, .rw, 0, none, .immediate⟩, -- AUD_RING
  ⟨0x60, 0x000C, [], [(0, 7)], .enum, .rw, 0, some (0, 1), .immediate⟩, -- HOST_FLOW
  ⟨0x60, 0x000D, [], [(0, 7)], .u64, .rw, 0, none, .immediate⟩, -- APPL_POSITION
  ⟨0x60, 0x000E, [], [(0, 7)], .u32, .rw, 0, none, .immediate⟩, -- AUD_SOURCE
  ⟨0x60, 0x0010, [], [(0, 7)], .enum, .ro, 0, some (0, 3), .immediate⟩, -- PORT_STATE
  ⟨0x60, 0x0011, [], [(0, 7)], .u64, .ro, 0, none, .immediate⟩] -- HW_POSITION

/-- Table 15-8 (R418, spec/15_audio_ports.md), part 1. -/
def catalogue60_1 : List Param := [
  ⟨0x60, 0x0012, [], [(0, 7)], .flags, .ro, 0, none, .immediate⟩, -- MASK_IN_FORCE
  ⟨0x60, 0x0013, [], [(0, 7)], .flags, .ro, 0, none, .immediate⟩, -- MUTE_STATE
  ⟨0x60, 0x0014, [], [(0, 7)], .u32, .ro, 0, none, .immediate⟩, -- BCLK_RATE
  ⟨0x60, 0x0020, [], [(0, 7)], .u64, .ro, 0, none, .immediate⟩, -- UNDERRUN_FRAMES
  ⟨0x60, 0x0021, [], [(0, 7)], .u64, .ro, 0, none, .immediate⟩, -- OVERRUN_FRAMES
  ⟨0x60, 0x0022, [], [(0, 7)], .u64, .ro, 0, none, .immediate⟩, -- XRUN_EVENTS
  ⟨0x60, 0x0023, [], [(0, 7)], .u64, .ro, 0, none, .immediate⟩, -- FS_LOST_FRAMES
  ⟨0x60, 0x0024, [], [(0, 7)], .u64, .ro, 0, none, .immediate⟩, -- FS_GLITCHES
  ⟨0x60, 0x0025, [], [(0, 7)], .u64, .ro, 0, none, .immediate⟩, -- SLIPS
  ⟨0x60, 0x0026, [], [(0, 7)], .u64, .ro, 0, none, .immediate⟩, -- MASK_CHANGES
  ⟨0x60, 0x0027, [], [(0, 7)], .u64, .ro, 0, none, .immediate⟩, -- MUTE_TIMEOUTS
  ⟨0x60, 0x0028, [], [(0, 7)], .u64, .ro, 0, none, .immediate⟩, -- BYTES_MOVED
  ⟨0x60, 0x0100, [], [(0, 1)], .enum, .rw, 0, some (0, 2), .immediate⟩, -- FAMILY_SOURCE
  ⟨0x60, 0x0101, [], [(0, 1)], .u32, .rw, 0, some (0, 23), .immediate⟩, -- FAMILY_WCLK
  ⟨0x60, 0x0102, [], [(0, 1)], .u32, .rw, 200, some (10, 1000), .immediate⟩, -- FAMILY_PULL
  ⟨0x60, 0x0103, [], [(0, 1)], .enum, .ro, 0, some (0, 3), .immediate⟩] -- FAMILY_STATE

/-- Table 15-8 (R418, spec/15_audio_ports.md), part 2. -/
def catalogue60_2 : List Param := [
  ⟨0x60, 0x0104, [], [(0, 1)], .s32, .ro, 0, none, .immediate⟩, -- FAMILY_PHASE_ERROR
  ⟨0x60, 0x0110, [], [(0, 1)], .u64, .ro, 0, none, .immediate⟩, -- FAMILY_SLIPS
  ⟨0x60, 0x0111, [], [(0, 1)], .u64, .ro, 0, none, .immediate⟩, -- FAMILY_GLITCHES
  ⟨0x60, 0x0112, [], [(0, 1)], .u64, .ro, 0, none, .immediate⟩, -- FAMILY_STOPS
  ⟨0x60, 0x0200, [], [(0, 0)], .enum, .ro, 0, some (0, 1), .immediate⟩] -- AUD_BANK_VOLTAGE

/-- Every parameter of group 0x60. -/
def catalogue60 : List Param := catalogue60_0 ++ catalogue60_1 ++ catalogue60_2

/-- Table 16-7 (R441, spec/16_dram.md), part 0. -/
def catalogue80_0 : List Param := [
  ⟨0x80, 0x0001, [], [(0, 0)], .enum, .rw, 0, some (0, 2), .restart⟩, -- MAP_ORDER
  ⟨0x80, 0x0002, [], [(0, 0)], .enum, .rw, 1, some (0, 1), .immediate⟩, -- REFRESH_MODE
  ⟨0x80, 0x0003, [], [(0, 0)], .u32, .rw, 4, some (1, 4), .immediate⟩, -- POSTPONE_LIMIT
  ⟨0x80, 0x0004, [], [(0, 0)], .u32, .rw, 4096, some (0, 65536), .immediate⟩, -- PNR_PERIOD
  ⟨0x80, 0x0005, [], [(0, 0)], .u32, .rw, 1, some (1, 2), .immediate⟩, -- PNR_DISTANCE
  ⟨0x80, 0x0006, [], [(0, 0)], .enum, .rw, 1, some (0, 1), .immediate⟩, -- RFM_ENABLE
  ⟨0x80, 0x0007, [], [(0, 0)], .enum, .rw, 1, some (0, 1), .restart⟩, -- WRITE_CRC_ENABLE
  ⟨0x80, 0x0008, [], [(0, 0)], .u32, .rw, 16000, some (4000, 480000), .immediate⟩, -- RETRAIN_INTERVAL
  ⟨0x80, 0x0009, [], [(0, 0)], .u32, .rw, 10, some (2, 40), .immediate⟩, -- DRIFT_TEMP
  ⟨0x80, 0x000A, [], [(0, 0)], .enum, .rw, 1, some (0, 1), .immediate⟩, -- SCRUB_ENABLE
  ⟨0x80, 0x000B, [], [(0, 0)], .u32, .rw, 64, some (0, 65535), .immediate⟩, -- MARK_THRESHOLD
  ⟨0x80, 0x000C, [], [(0, 0)], .u32, .wo, 0, some (0, 15), .restart⟩, -- MARK_CLEAR
  ⟨0x80, 0x000D, [], [(0, 0)], .flags, .wo, 0, some (0, 255), .restart⟩, -- CHANNEL_REENABLE
  ⟨0x80, 0x0010, [], [(0, 3)], .u32, .rw, 0, some (500, 1000000), .immediate⟩, -- AGE_LIMIT
  ⟨0x80, 0x0020, [], [(0, 0)], .enum, .ro, 0, some (0, 4), .immediate⟩, -- DRAM_STATE
  ⟨0x80, 0x0021, [], [(0, 0)], .u32, .ro, 0, none, .immediate⟩] -- DRAM_SPEED

/-- Table 16-7 (R441, spec/16_dram.md), part 1. -/
def catalogue80_1 : List Param := [
  ⟨0x80, 0x0022, [], [(0, 0)], .u32, .ro, Config.dramOrganisation.toNat, none, .immediate⟩, -- ORGANISATION
  ⟨0x80, 0x0023, [], [(0, 0)], .u32, .ro, 0, none, .immediate⟩, -- CAPACITY
  ⟨0x80, 0x0024, [], [(0, 0)], .flags, .ro, 255, some (0, 255), .immediate⟩, -- CHANNELS_IN_SERVICE
  ⟨0x80, 0x0025, [], [(0, 0)], .flags, .ro, 0, some (0, 255), .immediate⟩, -- FAILED_CHANNELS
  ⟨0x80, 0x0026, [], [(0, 0)], .u64, .ro, 0, none, .immediate⟩, -- PEAK_BANDWIDTH
  ⟨0x80, 0x0027, [], [(0, 0)], .u32, .ro, 0, none, .immediate⟩, -- SCRUB_PASS_TIME
  ⟨0x80, 0x0028, [], [(0, 0)], .blob, .ro, 0, none, .immediate⟩, -- FAULT_RECORD
  ⟨0x80, 0x0029, [], [(0, 0)], .u64, .wo, 0, none, .immediate⟩, -- DIAG_ADDRESS
  ⟨0x80, 0x002A, [], [(0, 0)], .blob, .ro, 0, none, .immediate⟩, -- DIAG_DATA
  ⟨0x80, 0x0030, [], [(0, 3)], .u32, .ro, 0, none, .immediate⟩, -- RT_LATENCY_MAX
  ⟨0x80, 0x0031, [], [(0, 7)], .enum, .ro, 0, some (0, 3), .immediate⟩, -- CHANNEL_STATE
  ⟨0x80, 0x0032, [], [(0, 7)], .enum, .ro, 0, some (0, 1), .immediate⟩, -- REFRESH_RATE
  ⟨0x80, 0x0033, [], [(0, 7)], .u32, .ro, 65535, none, .immediate⟩, -- DEVICE_MARK
  ⟨0x80, 0x0034, [], [(0, 7)], .u32, .ro, 0, none, .immediate⟩, -- EYE_MARGIN
  ⟨0x80, 0x0040, [], [(0, 7)], .u64, .ro, 0, none, .immediate⟩, -- CE_COUNT
  ⟨0x80, 0x0041, [], [(0, 7)], .u64, .ro, 0, none, .immediate⟩] -- UE_COUNT

/-- Table 16-7 (R441, spec/16_dram.md), part 2. -/
def catalogue80_2 : List Param := [
  ⟨0x80, 0x0042, [], [(0, 7)], .u64, .ro, 0, none, .immediate⟩, -- REFRESH_POSTPONED
  ⟨0x80, 0x0043, [], [(0, 7)], .u64, .ro, 0, none, .immediate⟩, -- BURST_SPLITS
  ⟨0x80, 0x0044, [], [(0, 7)], .u64, .ro, 0, none, .immediate⟩, -- PNR_ACTIVATES
  ⟨0x80, 0x0045, [], [(0, 7)], .u64, .ro, 0, none, .immediate⟩, -- RFM_COMMANDS
  ⟨0x80, 0x0046, [], [(0, 7)], .u64, .ro, 0, none, .immediate⟩, -- WRITE_CRC_RETRIES
  ⟨0x80, 0x0047, [], [(0, 7)], .u64, .ro, 0, none, .immediate⟩, -- RETRAINS
  ⟨0x80, 0x0048, [], [(0, 7)], .u64, .ro, 0, none, .immediate⟩, -- RETRAIN_FAIL
  ⟨0x80, 0x0049, [], [(0, 7)], .u64, .ro, 0, none, .immediate⟩, -- BYTES_READ
  ⟨0x80, 0x004A, [], [(0, 7)], .u64, .ro, 0, none, .immediate⟩, -- BYTES_WRITTEN
  ⟨0x80, 0x0050, [], [(0, 3)], .u64, .ro, 0, none, .immediate⟩, -- PROMOTIONS
  ⟨0x80, 0x0051, [], [(0, 0)], .u64, .ro, 0, none, .immediate⟩] -- SCRUB_PASSES

/-- Every parameter of group 0x80. -/
def catalogue80 : List Param := catalogue80_0 ++ catalogue80_1 ++ catalogue80_2

/-- Table 17-5 (R458, spec/17_event_fabric.md), part 0. -/
def catalogue90_0 : List Param := [
  ⟨0x90, 0x0001, [], [(0, 255)], .enum, .rw, 1, some (0, 1), .immediate⟩, -- SRC_ENABLE
  ⟨0x90, 0x0002, [], [(0, 255)], .u32, .rw, 64, some (0, 65535), .immediate⟩, -- LOOP_LIMIT
  ⟨0x90, 0x0003, [], [(0, 255)], .u64, .ro, 0, none, .immediate⟩, -- SRC_FIRINGS
  ⟨0x90, 0x0004, [], [(0, 255)], .u64, .ro, 0, none, .immediate⟩, -- SRC_LOOP_TRIPS
  ⟨0x90, 0x0101, [], [(0, 191)], .flags, .rw, 0, some (0, 255), .immediate⟩, -- WIRE_ENABLE
  ⟨0x90, 0x0102, [], [(0, 191)], .u64, .ro, 0, none, .immediate⟩, -- TI_TRIGGERS
  ⟨0x90, 0x0103, [], [(0, 191)], .u64, .ro, 0, none, .immediate⟩, -- TI_OVERRUNS
  ⟨0x90, 0x0104, [], [(0, 191)], .u64, .ro, 0, none, .immediate⟩, -- TI_COINCIDENT
  ⟨0x90, 0x0201, [], [(0, 7)], .flags, .rw, 0, none, .immediate⟩, -- SRC_FIRED
  ⟨0x90, 0x0202, [], [(0, 7)], .flags, .rw, 0, none, .immediate⟩, -- SRC_LOOP_SUSPECT
  ⟨0x90, 0x0203, [], [(0, 5)], .flags, .rw, 0, none, .immediate⟩, -- TI_TRIGGERED
  ⟨0x90, 0x0204, [], [(0, 5)], .flags, .rw, 0, none, .immediate⟩, -- TI_OVERRUN
  ⟨0x90, 0x0205, [], [(0, 5)], .flags, .rw, 0, none, .immediate⟩, -- TI_COINCIDENT_FLAG
  ⟨0x90, 0x0010, [], [(0, 0)], .flags, .wo, 0, some (0, 65535), .immediate⟩, -- SW_FIRE
  ⟨0x90, 0x0020, [], [(0, 15)], .u32, .rw, 1000000, some (16, 1000000000), .immediate⟩, -- TIMER_DELAY
  ⟨0x90, 0x0021, [], [(0, 15)], .enum, .ro, 0, some (0, 1), .immediate⟩] -- TIMER_STATE

/-- Table 17-5 (R458, spec/17_event_fabric.md), part 1. -/
def catalogue90_1 : List Param := [
  ⟨0x90, 0x0030, [], [(0, 5)], .enum, .rw, 0, some (0, 1), .immediate⟩, -- EVIO_DIR
  ⟨0x90, 0x0031, [], [(0, 5)], .enum, .rw, 0, some (0, 2), .immediate⟩, -- EVIO_EDGE
  ⟨0x90, 0x0032, [], [(0, 5)], .u32, .rw, 1000, some (10, 10000000), .immediate⟩, -- EVIO_WIDTH
  ⟨0x90, 0x0033, [], [(0, 5)], .enum, .rw, 0, some (0, 1), .immediate⟩, -- EVIO_POLARITY
  ⟨0x90, 0x0040, [], [(0, 0)], .enum, .rw, 1, some (0, 4), .immediate⟩, -- WAKE_PROFILE
  ⟨0x90, 0x0041, [], [(0, 0)], .u64, .ro, 0, none, .immediate⟩] -- WAKE_REFUSED

/-- Every parameter of group 0x90. -/
def catalogue90 : List Param := catalogue90_0 ++ catalogue90_1

/-- Table 18-9 (R475, spec/18_thermal_power_and_life.md), part 0. -/
def catalogueA0_0 : List Param := [
  ⟨0xA0, 0x0001, [], [(0, 0)], .s32, .rw, 1680, some (960, 1920), .immediate⟩, -- WARN_THRESHOLD
  ⟨0xA0, 0x0002, [], [(0, 0)], .s32, .rw, 1840, some (1120, 2000), .immediate⟩, -- THROTTLE_THRESHOLD
  ⟨0xA0, 0x0003, [], [(0, 0)], .s32, .ro, 2080, none, .immediate⟩, -- SHUTDOWN_THRESHOLD
  ⟨0xA0, 0x0004, [], [(0, 0)], .s32, .rw, 80, some (16, 160), .immediate⟩, -- HOT_HYSTERESIS
  ⟨0xA0, 0x0005, [], [(0, 0)], .s32, .rw, 4294966736, some (-720, 0), .immediate⟩, -- COLD_WARNING
  ⟨0xA0, 0x0006, [], [(0, 0)], .s32, .ro, 4294966576, none, .immediate⟩, -- COLD_LIMIT
  ⟨0xA0, 0x0007, [], [(0, 0)], .s32, .ro, 80, none, .immediate⟩, -- COLD_HYSTERESIS
  ⟨0xA0, 0x0008, [], [(0, 0)], .u32, .rw, 30000, some (10000, 60000), .restart⟩, -- HEAT_POWER
  ⟨0xA0, 0x0009, [], [(0, 0)], .enum, .rw, 1, some (0, 1), .immediate⟩, -- POWER_ENABLE
  ⟨0xA0, 0x000A, [], [(0, 0)], .u32, .rw, 900, some (1, 1000), .immediate⟩, -- LIFE_WARN
  ⟨0xA0, 0x0010, [], [(0, 0)], .s32, .ro, 0, none, .immediate⟩, -- JUNCTION
  ⟨0xA0, 0x0011, [], [(0, 0)], .s32, .ro, 0, none, .immediate⟩, -- DIODE
  ⟨0xA0, 0x0012, [], [(0, 15)], .s32, .ro, 0, none, .immediate⟩, -- MONITOR
  ⟨0xA0, 0x0013, [], [(0, 15)], .s32, .ro, 0, none, .immediate⟩, -- MONITOR_OFFSET
  ⟨0xA0, 0x0014, [], [(0, 0)], .flags, .ro, 131071, some (0, 131071), .immediate⟩, -- MONITOR_VALID
  ⟨0xA0, 0x0015, [], [(0, 0)], .enum, .ro, 3, some (0, 5), .immediate⟩] -- THERMAL_STATE

/-- Table 18-9 (R475, spec/18_thermal_power_and_life.md), part 1. -/
def catalogueA0_1 : List Param := [
  ⟨0xA0, 0x0016, [], [(0, 0)], .u32, .ro, 0, none, .immediate⟩, -- POWER_NOW
  ⟨0xA0, 0x0017, [], [(0, 0)], .enum, .ro, 0, some (0, 2), .immediate⟩, -- THROTTLE_CAUSE
  ⟨0xA0, 0x0018, [], [(0, 0)], .u32, .ro, 0, none, .immediate⟩, -- WARMUP_HEAT_TIME
  ⟨0xA0, 0x0019, [], [(0, 0)], .blob, .ro, 0, none, .immediate⟩, -- SHUTDOWN_RECORD
  ⟨0xA0, 0x0020, [], [(0, 0)], .u64, .ro, 0, none, .immediate⟩, -- LIFE_WEIGHTED
  ⟨0xA0, 0x0021, [], [(0, 0)], .u64, .ro, 0, none, .immediate⟩, -- LIFE_POWERED
  ⟨0xA0, 0x0022, [], [(0, 0)], .u64, .ro, ratedLife, none, .immediate⟩, -- LIFE_RATED
  ⟨0xA0, 0x0023, [], [(0, 0)], .u32, .ro, 0, some (0, 65535), .immediate⟩, -- LIFE_USED
  ⟨0xA0, 0x0024, [], [(0, 4)], .u64, .ro, 0, none, .immediate⟩, -- PROFILE_SECONDS
  ⟨0xA0, 0x0025, [], [(0, 0)], .q16, .ro, 0, none, .immediate⟩, -- LIFE_RATE
  ⟨0xA0, 0x0030, [], [(0, 0)], .u64, .ro, 0, none, .immediate⟩, -- THROTTLE_STEPS
  ⟨0xA0, 0x0031, [], [(0, 0)], .u64, .ro, 0, none, .immediate⟩, -- RESTORE_STEPS
  ⟨0xA0, 0x0032, [], [(0, 0)], .u64, .ro, 0, none, .immediate⟩, -- FLOOR_HOLDS
  ⟨0xA0, 0x0033, [], [(0, 0)], .u64, .ro, 0, none, .immediate⟩, -- WARNINGS
  ⟨0xA0, 0x0034, [], [(0, 0)], .u64, .ro, 0, none, .immediate⟩, -- COLD_EXCURSIONS
  ⟨0xA0, 0x0035, [], [(0, 0)], .u64, .ro, 0, none, .immediate⟩] -- MONITOR_FAULTS

/-- Table 18-9 (R475, spec/18_thermal_power_and_life.md), part 2. -/
def catalogueA0_2 : List Param := [
  ⟨0xA0, 0x0036, [], [(0, 0)], .u64, .ro, 0, none, .immediate⟩] -- SHUTDOWN_COUNT

/-- Every parameter of group 0xA0. -/
def catalogueA0 : List Param := catalogueA0_0 ++ catalogueA0_1 ++ catalogueA0_2

/-- Table 19-9 (R495, spec/19_boot_security_and_observation.md), part 0. -/
def catalogueB0_0 : List Param := [
  ⟨0xB0, 0x0001, [], [(0, 0)], .enum, .rw, 1, some (0, 1), .immediate⟩, -- TRACE_PORT_ENABLE
  ⟨0xB0, 0x0002, [], [(0, 0)], .flags, .rw, 483, some (0, 511), .immediate⟩, -- TRACE_PORT_TYPES
  ⟨0xB0, 0x0003, [], [(0, 0)], .u32, .rw, 1000, some (100, 16000), .immediate⟩, -- TRACE_SYNC_INTERVAL
  ⟨0xB0, 0x0004, [], [(0, 0)], .flags, .rw, 4294967295, none, .immediate⟩, -- TRACE_CONTEXTS
  ⟨0xB0, 0x0010, [], [(0, 0)], .enum, .ro, 0, some (1, 3), .immediate⟩, -- BOOT_SLOT
  ⟨0xB0, 0x0011, [], [(1, 3)], .u32, .ro, 0, some (0, 256), .immediate⟩, -- SLOT_GENERATION
  ⟨0xB0, 0x0012, [], [(1, 3)], .u32, .ro, 0, none, .immediate⟩, -- SLOT_SEC_VERSION
  ⟨0xB0, 0x0013, [], [(1, 3)], .enum, .ro, 0, some (0, 7), .immediate⟩, -- SLOT_STATUS
  ⟨0xB0, 0x0014, [], [(1, 3)], .u32, .ro, 0, some (0, 3), .immediate⟩, -- BOOT_FAILS
  ⟨0xB0, 0x0015, [], [(0, 0)], .u32, .ro, 0, none, .immediate⟩, -- SEC_VERSION_FLOOR
  ⟨0xB0, 0x0016, [], [(0, 0)], .blob, .ro, 0, none, .immediate⟩, -- KEY_HASH
  ⟨0xB0, 0x0017, [], [(0, 0)], .u32, .ro, 0, none, .immediate⟩, -- BOOT_TIME_NMP
  ⟨0xB0, 0x0018, [], [(0, 0)], .u32, .ro, 0, none, .immediate⟩, -- BOOT_TIME_TICK
  ⟨0xB0, 0x0019, [], [(0, 0)], .u32, .ro, 100, none, .immediate⟩, -- WDT_TIMEOUT
  ⟨0xB0, 0x0020, [], [(0, 0)], .blob, .ro, 0, none, .immediate⟩, -- LEDGER_FAULT_RECORD
  ⟨0xB0, 0x0030, [], [(0, 0)], .u64, .ro, 0, none, .immediate⟩] -- COUNTER_RESETS

/-- Table 19-9 (R495, spec/19_boot_security_and_observation.md), part 1. -/
def catalogueB0_1 : List Param := [
  ⟨0xB0, 0x0031, [], [(0, 0)], .u64, .ro, 0, none, .immediate⟩, -- SNAPSHOTS
  ⟨0xB0, 0x0032, [], [(0, 0)], .u64, .ro, 0, none, .immediate⟩, -- TRACE_RECORDS
  ⟨0xB0, 0x0033, [], [(0, 4)], .u64, .ro, 0, none, .immediate⟩, -- TRACE_DROPPED
  ⟨0xB0, 0x0034, [], [(0, 0)], .u32, .ro, 0, some (0, 4), .immediate⟩, -- SUBSCRIPTIONS
  ⟨0xB0, 0x0035, [], [(0, 0)], .u64, .ro, 0, none, .immediate⟩, -- LEDGER_WRITES
  ⟨0xB0, 0x0036, [], [(0, 0)], .u64, .ro, 0, none, .immediate⟩] -- LEDGER_CRC_ERRORS

/-- Every parameter of group 0xB0. -/
def catalogueB0 : List Param := catalogueB0_0 ++ catalogueB0_1

/-- The parameters of one group (Table 03-4). -/
def catalogueOf (group : Nat) : List Param :=
  match group with
  | 0x02 => catalogue02
  | 0x01 => catalogue01
  | 0x10 => catalogue10
  | 0x11 => catalogue11
  | 0x12 => catalogue12
  | 0x20 => catalogue20
  | 0x21 => catalogue21
  | 0x22 => catalogue22
  | 0x28 => catalogue28
  | 0x70 => catalogue70
  | 0x30 => catalogue30
  | 0x40 => catalogue40
  | 0x41 => catalogue41
  | 0x42 => catalogue42
  | 0x43 => catalogue43
  | 0x50 => catalogue50
  | 0x51 => catalogue51
  | 0x60 => catalogue60
  | 0x80 => catalogue80
  | 0x90 => catalogue90
  | 0xA0 => catalogueA0
  | 0xB0 => catalogueB0
  | _ => []

/-! Parameter IDs of group 0x02 (R13). -/
namespace Tick

/-- TICK_SOURCE: ENUM RW, R62. -/
def TICK_SOURCE : Nat := 0x02000001
/-- TICK_RATE_N: U32 RW, R62. -/
def TICK_RATE_N : Nat := 0x02000002
/-- TICK_RATE_D: U32 RW, R62. -/
def TICK_RATE_D : Nat := 0x02000003
/-- TICK_FALLBACK: U32 RW, R62. -/
def TICK_FALLBACK : Nat := 0x02000004
/-- HOLDOVER_LIMIT: U32 RW, R62. -/
def HOLDOVER_LIMIT : Nat := 0x02000005
/-- TICK_OFFSET: S32 RW, R62. -/
def TICK_OFFSET : Nat := 0x02000006
/-- TICK_SEQUENCE: U32 RO, R62. -/
def TICK_SEQUENCE : Nat := 0x02000007
/-- TICK_GUARD: U32 RO, R62. -/
def TICK_GUARD : Nat := 0x02000008
/-- TICK_BUDGET: U32 RO, R62. -/
def TICK_BUDGET : Nat := 0x02000009
/-- TICK_STATE: ENUM RO, R62. -/
def TICK_STATE : Nat := 0x0200000A
/-- TICK_STATE_CHANGES: U64 RO, R62. -/
def TICK_STATE_CHANGES : Nat := 0x0200000B
/-- PROFILE: ENUM RW, R62. -/
def PROFILE : Nat := 0x02000010
/-- CUSTOM_BASE: ENUM RW, R62. -/
def CUSTOM_BASE : Nat := 0x02000011
/-- CUSTOM_POWER_CAP: U32 RW, R62. -/
def CUSTOM_POWER_CAP : Nat := 0x02000012
/-- CUSTOM_FLOOR: U32 RW, R62. -/
def CUSTOM_FLOOR : Nat := 0x02000013
/-- CUSTOM_CLOCK_SCALE: Q16.16 RW, R62. -/
def CUSTOM_CLOCK_SCALE : Nat := 0x02000014
/-- CUSTOM_FLOOR_CLOCK: U32 RW, R62. -/
def CUSTOM_FLOOR_CLOCK : Nat := 0x02000015
/-- CUSTOM_DRAM_SPEED: ENUM RW, R62. -/
def CUSTOM_DRAM_SPEED : Nat := 0x02000016
/-- CUSTOM_SHARE: U32 RW, R62. -/
def CUSTOM_SHARE (i : Nat) : Nat := 0x02000017 + i * 0x10000
/-- CUSTOM_TRF_BUDGET: ENUM RW, R62. -/
def CUSTOM_TRF_BUDGET : Nat := 0x02000018
/-- CUSTOM_TNR_REFS: U32 RW, R62. -/
def CUSTOM_TNR_REFS : Nat := 0x02000019
/-- CUSTOM_MAX_CONTEXTS: U32 RW, R62. -/
def CUSTOM_MAX_CONTEXTS : Nat := 0x0200001A
/-- CUSTOM_SHED_ORDER: U64 RW, R62. -/
def CUSTOM_SHED_ORDER : Nat := 0x0200001B
/-- ACTIVE_CAP: U32 RO, R62. -/
def ACTIVE_CAP : Nat := 0x02000020
/-- SHED_LEVEL: U32 RO, R62. -/
def SHED_LEVEL : Nat := 0x02000021
/-- LIFE_WEIGHT: Q16.16 RO, R62. -/
def LIFE_WEIGHT : Nat := 0x02000022
/-- PLAN_GENERATION: U32 RO, R62. -/
def PLAN_GENERATION : Nat := 0x02000023
/-- ADMIT_REFUSED: U64 RO, R62. -/
def ADMIT_REFUSED : Nat := 0x02000024
/-- OVERRUN_COUNT: U64 RO, R62. -/
def OVERRUN_COUNT (i : Nat) : Nat := 0x02000030 + i * 0x10000
/-- LATE_COUNT: U64 RO, R62. -/
def LATE_COUNT (i : Nat) : Nat := 0x02000031 + i * 0x10000
/-- REPEATED_COUNT: U64 RO, R62. -/
def REPEATED_COUNT (i : Nat) : Nat := 0x02000032 + i * 0x10000
/-- MAINT_WAIT_COUNT: U64 RO, R62. -/
def MAINT_WAIT_COUNT (i : Nat) : Nat := 0x02000040 + i * 0x10000
/-- MAINT_MAX_WAIT: U32 RO, R62. -/
def MAINT_MAX_WAIT (i : Nat) : Nat := 0x02000041 + i * 0x10000
/-- MAINT_RUN_COUNT: U64 RO, R62. -/
def MAINT_RUN_COUNT (i : Nat) : Nat := 0x02000042 + i * 0x10000

end Tick

/-! Parameter IDs of group 0x01 (R13). -/
namespace Sys

/-- VARIANT: ENUM RO, R94. -/
def VARIANT : Nat := 0x01000001
/-- DIE_REVISION: U32 RO, R94. -/
def DIE_REVISION : Nat := 0x01000002
/-- SERIAL_NUMBER: U64 RO, R94. -/
def SERIAL_NUMBER : Nat := 0x01000003
/-- INTERFACE_LEVEL: U32 RO, R94. -/
def INTERFACE_LEVEL : Nat := 0x01000004
/-- NEGOR_BUILD: U32 RO, R94. -/
def NEGOR_BUILD : Nat := 0x01000005
/-- GLOBAL_STATE: ENUM RO, R94. -/
def GLOBAL_STATE : Nat := 0x01000006
/-- OWNER_KEY: BLOB WO, R94. -/
def OWNER_KEY : Nat := 0x01000010
/-- OWNER_KEY_STATE: ENUM RO, R94. -/
def OWNER_KEY_STATE : Nat := 0x01000011
/-- SESSION_IDLE_LIMIT: U32 RW, R94. -/
def SESSION_IDLE_LIMIT : Nat := 0x01000012
/-- BUF_POOL_SIZE: U32 RW, R94. -/
def BUF_POOL_SIZE : Nat := 0x01000013
/-- BUF_POOL_FREE: U32 RO, R94. -/
def BUF_POOL_FREE : Nat := 0x01000014
/-- SESSIONS_OPEN: U32 RO, R94. -/
def SESSIONS_OPEN : Nat := 0x01000020
/-- CONTROL_RESTARTS: U64 RO, R94. -/
def CONTROL_RESTARTS : Nat := 0x01000021
/-- LAST_RESTART_CAUSE: ENUM RO, R94. -/
def LAST_RESTART_CAUSE : Nat := 0x01000022
/-- NMP_RX_COUNT: U64 RO, R94. -/
def NMP_RX_COUNT (i : Nat) : Nat := 0x01000030 + i * 0x10000
/-- NMP_DROP_COUNT: U64 RO, R94. -/
def NMP_DROP_COUNT (i : Nat) : Nat := 0x01000031 + i * 0x10000
/-- DUP_REPLAYED: U64 RO, R94. -/
def DUP_REPLAYED : Nat := 0x01000032
/-- BUSY_REPLIES: U64 RO, R94. -/
def BUSY_REPLIES : Nat := 0x01000033
/-- NOTIFY_DROPPED: U64 RO, R94. -/
def NOTIFY_DROPPED : Nat := 0x01000034
/-- OWN_CONTENDED: U64 RO, R94. -/
def OWN_CONTENDED : Nat := 0x01000035
/-- OWN_EXPIRED: U64 RO, R94. -/
def OWN_EXPIRED : Nat := 0x01000036
/-- BUF_EARLY_FREE: U64 RO, R94. -/
def BUF_EARLY_FREE : Nat := 0x01000037
/-- BUF_WRITE_REFUSED: U64 RO, R94. -/
def BUF_WRITE_REFUSED : Nat := 0x01000038

end Sys

/-! Parameter IDs of group 0x10 (R13). -/
namespace Port

/-- PORT_ENABLE: ENUM RW, R132. -/
def PORT_ENABLE (i : Nat) : Nat := 0x10000001 + i * 0x10000
/-- LANE_RATE: ENUM RW, R132. -/
def LANE_RATE (i : Nat) : Nat := 0x10000002 + i * 0x10000
/-- BOND_WIDTH: ENUM RW, R132. -/
def BOND_WIDTH (i : Nat) : Nat := 0x10000003 + i * 0x10000
/-- LANE_MASK: FLAGS RW, R132. -/
def LANE_MASK (i : Nat) : Nat := 0x10000004 + i * 0x10000
/-- SENSOR_TAG_EXPECT: U32 RW, R132. -/
def SENSOR_TAG_EXPECT (i : Nat) : Nat := 0x10000005 + i * 0x10000
/-- RETRY_LIMIT: U32 RW, R132. -/
def RETRY_LIMIT (i : Nat) : Nat := 0x10000006 + i * 0x10000
/-- HEALTH_INTERVAL: U32 RW, R132. -/
def HEALTH_INTERVAL (i : Nat) : Nat := 0x10000007 + i * 0x10000
/-- DEGRADE_LIMIT: U32 RO, R132. -/
def DEGRADE_LIMIT (i : Nat) : Nat := 0x10000008 + i * 0x10000
/-- PORT_STATE: ENUM RO, R132. -/
def PORT_STATE (i : Nat) : Nat := 0x10000009 + i * 0x10000
/-- BOND_LEADER: U32 RO, R132. -/
def BOND_LEADER (i : Nat) : Nat := 0x1000000A + i * 0x10000
/-- LANE_MAP: U64 RO, R132. -/
def LANE_MAP (i : Nat) : Nat := 0x1000000B + i * 0x10000
/-- LOGICAL_VALID: FLAGS RO, R132. -/
def LOGICAL_VALID (i : Nat) : Nat := 0x1000000C + i * 0x10000
/-- DESKEW_SPREAD: U32 RO, R132. -/
def DESKEW_SPREAD (i : Nat) : Nat := 0x1000000D + i * 0x10000
/-- LOOPBACK: ENUM RW, R132. -/
def LOOPBACK (i : Nat) : Nat := 0x10000010 + i * 0x10000
/-- PATTERN: ENUM RW, R132. -/
def PATTERN (i : Nat) : Nat := 0x10000011 + i * 0x10000
/-- PATGEN_GEOMETRY: U32 RW, R132. -/
def PATGEN_GEOMETRY (i : Nat) : Nat := 0x10000012 + i * 0x10000
/-- PATGEN_WIDTH: ENUM RW, R132. -/
def PATGEN_WIDTH (i : Nat) : Nat := 0x10000013 + i * 0x10000
/-- PATGEN_FAULTS: FLAGS RW, R132. -/
def PATGEN_FAULTS (i : Nat) : Nat := 0x10000014 + i * 0x10000
/-- LANE_STATE: ENUM RO, R132. -/
def LANE_STATE (i l : Nat) : Nat := 0x10000100 + i * 0x10000 + l
/-- LINE_HEALTH: ENUM RO, R132. -/
def LINE_HEALTH (i l : Nat) : Nat := 0x10000110 + i * 0x10000 + l
/-- LANE_POLARITY: ENUM RO, R132. -/
def LANE_POLARITY (i l : Nat) : Nat := 0x10000120 + i * 0x10000 + l
/-- POLARITY_FORCE: ENUM RW, R132. -/
def POLARITY_FORCE (i l : Nat) : Nat := 0x10000130 + i * 0x10000 + l
/-- LOGICAL_ID: U32 RO, R132. -/
def LOGICAL_ID (i l : Nat) : Nat := 0x10000140 + i * 0x10000 + l
/-- EYE_MARGIN: U32 RO, R132. -/
def EYE_MARGIN (i l : Nat) : Nat := 0x10000150 + i * 0x10000 + l
/-- HEADER_ERR: U64 RO, R132. -/
def HEADER_ERR (i l : Nat) : Nat := 0x10000160 + i * 0x10000 + l
/-- BLOCK_LOCK_LOSS: U64 RO, R132. -/
def BLOCK_LOCK_LOSS (i l : Nat) : Nat := 0x10000170 + i * 0x10000 + l
/-- FAILED_ATTEMPTS: U64 RO, R132. -/
def FAILED_ATTEMPTS (i l : Nat) : Nat := 0x10000180 + i * 0x10000 + l
/-- LINE_FAULTS: U64 RO, R132. -/
def LINE_FAULTS (i l : Nat) : Nat := 0x10000190 + i * 0x10000 + l
/-- PRBS_ERR: U64 RO, R132. -/
def PRBS_ERR (i l : Nat) : Nat := 0x100001A0 + i * 0x10000 + l
/-- ALIGN_ERR: U64 RO, R132. -/
def ALIGN_ERR (i l : Nat) : Nat := 0x100001B0 + i * 0x10000 + l
/-- XTRIG_ENABLE: ENUM RW, R132. -/
def XTRIG_ENABLE (i : Nat) : Nat := 0x10000040 + i * 0x10000
/-- XTRIG_OFFSET: U32 RW, R132. -/
def XTRIG_OFFSET (i : Nat) : Nat := 0x10000041 + i * 0x10000
/-- XTRIG_WIDTH: U32 RW, R132. -/
def XTRIG_WIDTH (i : Nat) : Nat := 0x10000042 + i * 0x10000
/-- XTRIG_POLARITY: ENUM RW, R132. -/
def XTRIG_POLARITY (i : Nat) : Nat := 0x10000043 + i * 0x10000
/-- XTRIG_DIVISOR: U32 RW, R132. -/
def XTRIG_DIVISOR (i : Nat) : Nat := 0x10000044 + i * 0x10000
/-- XTRIG_PHASE: U32 RW, R132. -/
def XTRIG_PHASE (i : Nat) : Nat := 0x10000045 + i * 0x10000
/-- XTRIG_COUNT: U64 RO, R132. -/
def XTRIG_COUNT (i : Nat) : Nat := 0x10000046 + i * 0x10000
/-- XTRIG_SKIPPED: U64 RO, R132. -/
def XTRIG_SKIPPED (i : Nat) : Nat := 0x10000047 + i * 0x10000
/-- FRAMES_RX: U64 RO, R132. -/
def FRAMES_RX (i : Nat) : Nat := 0x10000050 + i * 0x10000
/-- FRAMES_LANE_LOST: U64 RO, R132. -/
def FRAMES_LANE_LOST (i : Nat) : Nat := 0x10000051 + i * 0x10000
/-- FRAMES_DEGRADED: U64 RO, R132. -/
def FRAMES_DEGRADED (i : Nat) : Nat := 0x10000052 + i * 0x10000
/-- FRAMES_DROPPED_LINK: U64 RO, R132. -/
def FRAMES_DROPPED_LINK (i : Nat) : Nat := 0x10000053 + i * 0x10000
/-- LINE_CRC_ERR: U64 RO, R132. -/
def LINE_CRC_ERR (i : Nat) : Nat := 0x10000054 + i * 0x10000
/-- LINE_SEQ_ERR: U64 RO, R132. -/
def LINE_SEQ_ERR (i : Nat) : Nat := 0x10000055 + i * 0x10000
/-- PROTO_ERR: U64 RO, R132. -/
def PROTO_ERR (i : Nat) : Nat := 0x10000056 + i * 0x10000
/-- CTRL_MISMATCH: U64 RO, R132. -/
def CTRL_MISMATCH (i : Nat) : Nat := 0x10000057 + i * 0x10000
/-- ID_ERR: U64 RO, R132. -/
def ID_ERR (i : Nat) : Nat := 0x10000058 + i * 0x10000
/-- DESKEW_FAIL: U64 RO, R132. -/
def DESKEW_FAIL (i : Nat) : Nat := 0x10000059 + i * 0x10000
/-- BYTES_RX: U64 RO, R132. -/
def BYTES_RX (i : Nat) : Nat := 0x1000005A + i * 0x10000

end Port

/-! Parameter IDs of group 0x11 (R13). -/
namespace Ing

/-- CONTEXT: U32 RW, R158. -/
def CONTEXT (i : Nat) : Nat := 0x11000001 + i * 0x10000
/-- ING_GEOMETRY: U32 RW, R158. -/
def ING_GEOMETRY (i : Nat) : Nat := 0x11000002 + i * 0x10000
/-- ING_WIDTH: ENUM RW, R158. -/
def ING_WIDTH (i : Nat) : Nat := 0x11000003 + i * 0x10000
/-- CFA_PHASE: ENUM RW, R158. -/
def CFA_PHASE (i : Nat) : Nat := 0x11000004 + i * 0x10000
/-- ING_DEADLINE: U32 RW, R158. -/
def ING_DEADLINE (i : Nat) : Nat := 0x11000005 + i * 0x10000
/-- PEDESTAL: U32 RW, R158. -/
def PEDESTAL (i : Nat) : Nat := 0x11000006 + i * 0x10000
/-- BLACK_LEVEL: U32 RW, R158. -/
def BLACK_LEVEL (i k : Nat) : Nat := 0x11000010 + i * 0x10000 + k
/-- DEFECT_MAP: BLOB WO, R158. -/
def DEFECT_MAP (i : Nat) : Nat := 0x11000020 + i * 0x10000
/-- DEFECT_MAP_GENERATION: U32 RO, R158. -/
def DEFECT_MAP_GENERATION (i : Nat) : Nat := 0x11000021 + i * 0x10000
/-- DEFECT_MAP_ENTRIES: U32 RO, R158. -/
def DEFECT_MAP_ENTRIES (i : Nat) : Nat := 0x11000022 + i * 0x10000
/-- EMBED_ENABLE: ENUM RW, R158. -/
def EMBED_ENABLE (i : Nat) : Nat := 0x11000023 + i * 0x10000
/-- LAST_TICKET: BLOB RO, R158. -/
def LAST_TICKET (i : Nat) : Nat := 0x11000024 + i * 0x10000
/-- FRAME_STATE: ENUM RO, R158. -/
def FRAME_STATE (i : Nat) : Nat := 0x11000025 + i * 0x10000
/-- FRAMES_CLOSED: U64 RO, R158. -/
def FRAMES_CLOSED (i : Nat) : Nat := 0x11000030 + i * 0x10000
/-- FRAMES_SHORT: U64 RO, R158. -/
def FRAMES_SHORT (i : Nat) : Nat := 0x11000031 + i * 0x10000
/-- FRAMES_LONG: U64 RO, R158. -/
def FRAMES_LONG (i : Nat) : Nat := 0x11000032 + i * 0x10000
/-- FRAMES_TRUNCATED: U64 RO, R158. -/
def FRAMES_TRUNCATED (i : Nat) : Nat := 0x11000033 + i * 0x10000
/-- FRAMES_CRC_ERR: U64 RO, R158. -/
def FRAMES_CRC_ERR (i : Nat) : Nat := 0x11000034 + i * 0x10000
/-- LINES_FILLED: U64 RO, R158. -/
def LINES_FILLED (i : Nat) : Nat := 0x11000035 + i * 0x10000
/-- LINES_DISCARDED: U64 RO, R158. -/
def LINES_DISCARDED (i : Nat) : Nat := 0x11000036 + i * 0x10000
/-- LINES_PADDED: U64 RO, R158. -/
def LINES_PADDED (i : Nat) : Nat := 0x11000037 + i * 0x10000
/-- LINES_CUT: U64 RO, R158. -/
def LINES_CUT (i : Nat) : Nat := 0x11000038 + i * 0x10000
/-- ORPHAN_LINES: U64 RO, R158. -/
def ORPHAN_LINES (i : Nat) : Nat := 0x11000039 + i * 0x10000
/-- FRAMES_UNBOUND: U64 RO, R158. -/
def FRAMES_UNBOUND (i : Nat) : Nat := 0x1100003A + i * 0x10000
/-- DEFECT_OVERFLOW: U64 RO, R158. -/
def DEFECT_OVERFLOW (i : Nat) : Nat := 0x1100003B + i * 0x10000
/-- SAMPLES_CLAMPED: U64 RO, R158. -/
def SAMPLES_CLAMPED (i : Nat) : Nat := 0x1100003C + i * 0x10000
/-- EPOCH_CHANGES: U64 RO, R158. -/
def EPOCH_CHANGES (i : Nat) : Nat := 0x1100003D + i * 0x10000

end Ing

/-! Parameter IDs of group 0x12 (R13). -/
namespace Trf

/-- TRF_MODE: ENUM RW, R184. -/
def TRF_MODE (i : Nat) : Nat := 0x12000001 + i * 0x10000
/-- TRF_BUDGET: ENUM RW, R184. -/
def TRF_BUDGET (i : Nat) : Nat := 0x12000002 + i * 0x10000
/-- TRF_MAX_STEP: U32 RW, R184. -/
def TRF_MAX_STEP (i : Nat) : Nat := 0x12000003 + i * 0x10000
/-- TRF_SLOTS: U32 RW, R184. -/
def TRF_SLOTS (i : Nat) : Nat := 0x12000004 + i * 0x10000
/-- BUDGET_IN_FORCE: ENUM RO, R184. -/
def BUDGET_IN_FORCE (i : Nat) : Nat := 0x12000005 + i * 0x10000
/-- TILE_BYTES: U32 RO, R184. -/
def TILE_BYTES (i : Nat) : Nat := 0x12000006 + i * 0x10000
/-- TILE_COLUMNS: U32 RO, R184. -/
def TILE_COLUMNS (i : Nat) : Nat := 0x12000007 + i * 0x10000
/-- TILE_ROWS: U32 RO, R184. -/
def TILE_ROWS (i : Nat) : Nat := 0x12000008 + i * 0x10000
/-- SLOT_BYTES: U64 RO, R184. -/
def SLOT_BYTES (i : Nat) : Nat := 0x12000009 + i * 0x10000
/-- LAST_FRAME_BYTES: U32 RO, R184. -/
def LAST_FRAME_BYTES (i : Nat) : Nat := 0x12000010 + i * 0x10000
/-- LAST_FRAME_FLAT: U32 RO, R184. -/
def LAST_FRAME_FLAT (i : Nat) : Nat := 0x12000011 + i * 0x10000
/-- LAST_FRAME_MAX_STEP: U32 RO, R184. -/
def LAST_FRAME_MAX_STEP (i : Nat) : Nat := 0x12000012 + i * 0x10000
/-- LAST_FRAME_ERROR_BOUND: U32 RO, R184. -/
def LAST_FRAME_ERROR_BOUND (i : Nat) : Nat := 0x12000013 + i * 0x10000
/-- TILES_ENCODED: U64 RO, R184. -/
def TILES_ENCODED (i : Nat) : Nat := 0x12000020 + i * 0x10000
/-- TILES_FLAT: U64 RO, R184. -/
def TILES_FLAT (i : Nat) : Nat := 0x12000021 + i * 0x10000
/-- TILES_RAW: U64 RO, R184. -/
def TILES_RAW (i : Nat) : Nat := 0x12000022 + i * 0x10000
/-- TRF_DECODE_ERR: U64 RO, R184. -/
def TRF_DECODE_ERR (i : Nat) : Nat := 0x12000023 + i * 0x10000
/-- BYTES_OUT: U64 RO, R184. -/
def BYTES_OUT (i : Nat) : Nat := 0x12000024 + i * 0x10000
/-- STEP_COUNT: U64 RO, R184. -/
def STEP_COUNT (i k : Nat) : Nat := 0x12000100 + i * 0x10000 + k

end Trf

/-! Parameter IDs of group 0x20 (R13). -/
namespace Ctx

/-- CTX_ENABLE: ENUM RW, R212. -/
def CTX_ENABLE (i : Nat) : Nat := 0x20000001 + i * 0x10000
/-- CTX_MODE: ENUM RW, R212. -/
def CTX_MODE (i : Nat) : Nat := 0x20000002 + i * 0x10000
/-- STRIPE_WIDTH: U32 RW, R212. -/
def STRIPE_WIDTH (i : Nat) : Nat := 0x20000003 + i * 0x10000
/-- TICK_DIVISOR: U32 RW, R212. -/
def TICK_DIVISOR (i : Nat) : Nat := 0x20000004 + i * 0x10000
/-- TICK_PHASE: U32 RW, R212. -/
def TICK_PHASE (i : Nat) : Nat := 0x20000005 + i * 0x10000
/-- CTX_PRIORITY: U32 RW, R212. -/
def CTX_PRIORITY (i : Nat) : Nat := 0x20000006 + i * 0x10000
/-- SHEDDABLE: ENUM RW, R212. -/
def SHEDDABLE (i : Nat) : Nat := 0x20000007 + i * 0x10000
/-- EARLY_START: U32 RW, R212. -/
def EARLY_START (i : Nat) : Nat := 0x20000008 + i * 0x10000
/-- CTX_STATE: ENUM RO, R212. -/
def CTX_STATE (i : Nat) : Nat := 0x20000009 + i * 0x10000
/-- SOURCE_PORT: U32 RO, R212. -/
def SOURCE_PORT (i : Nat) : Nat := 0x2000000A + i * 0x10000
/-- STRIPE_COUNT: U32 RO, R212. -/
def STRIPE_COUNT (i : Nat) : Nat := 0x2000000B + i * 0x10000
/-- JOB_ORDER: U32 RO, R212. -/
def JOB_ORDER (i : Nat) : Nat := 0x2000000C + i * 0x10000
/-- EARLY_SLACK: S32 RO, R212. -/
def EARLY_SLACK (i : Nat) : Nat := 0x2000000D + i * 0x10000
/-- SNR_STRENGTH: Q16.16 RW, R212. -/
def SNR_STRENGTH (i : Nat) : Nat := 0x2000000E + i * 0x10000
/-- NOISE_A: U32 RW, R212. -/
def NOISE_A (i k : Nat) : Nat := 0x20000010 + i * 0x10000 + k
/-- NOISE_B: Q16.16 RW, R212. -/
def NOISE_B (i k : Nat) : Nat := 0x20000020 + i * 0x10000 + k
/-- DEFECT_REPAIR: FLAGS RW, R212. -/
def DEFECT_REPAIR (i : Nat) : Nat := 0x20000030 + i * 0x10000
/-- TNR_REFS: U32 RW, R212. -/
def TNR_REFS (i : Nat) : Nat := 0x20000031 + i * 0x10000
/-- TNR_STRENGTH: Q16.16 RW, R212. -/
def TNR_STRENGTH (i : Nat) : Nat := 0x20000032 + i * 0x10000
/-- TNR_SEARCH: ENUM RW, R212. -/
def TNR_SEARCH (i : Nat) : Nat := 0x20000033 + i * 0x10000
/-- TNR_MAX_GAP: U32 RW, R212. -/
def TNR_MAX_GAP (i : Nat) : Nat := 0x20000034 + i * 0x10000
/-- REFS_VALID: U32 RO, R212. -/
def REFS_VALID (i : Nat) : Nat := 0x20000035 + i * 0x10000
/-- LAST_TICKET_NUMBER: U32 RO, R212. -/
def LAST_TICKET_NUMBER (i : Nat) : Nat := 0x20000040 + i * 0x10000
/-- LAST_JOB_CYCLES: U32 RO, R212. -/
def LAST_JOB_CYCLES (i : Nat) : Nat := 0x20000041 + i * 0x10000
/-- LAST_JOB_END: U32 RO, R212. -/
def LAST_JOB_END (i : Nat) : Nat := 0x20000042 + i * 0x10000
/-- WORST_JOB_END: U32 RO, R212. -/
def WORST_JOB_END (i : Nat) : Nat := 0x20000043 + i * 0x10000
/-- LAST_LATENCY: U32 RO, R212. -/
def LAST_LATENCY (i : Nat) : Nat := 0x20000044 + i * 0x10000
/-- JOBS_RUN: U64 RO, R212. -/
def JOBS_RUN (i : Nat) : Nat := 0x20000050 + i * 0x10000
/-- FRAMES_SKIPPED: U64 RO, R212. -/
def FRAMES_SKIPPED (i : Nat) : Nat := 0x20000051 + i * 0x10000
/-- NO_FRAME_COUNT: U64 RO, R212. -/
def NO_FRAME_COUNT (i : Nat) : Nat := 0x20000052 + i * 0x10000
/-- EARLY_MISSED: U64 RO, R212. -/
def EARLY_MISSED (i : Nat) : Nat := 0x20000053 + i * 0x10000
/-- PREEMPTIONS: U64 RO, R212. -/
def PREEMPTIONS (i : Nat) : Nat := 0x20000054 + i * 0x10000
/-- TNR_RESETS: U64 RO, R212. -/
def TNR_RESETS (i : Nat) : Nat := 0x20000055 + i * 0x10000
/-- REF_DISCARDED: U64 RO, R212. -/
def REF_DISCARDED (i : Nat) : Nat := 0x20000056 + i * 0x10000
/-- SAMPLES_REPAIRED: U64 RO, R212. -/
def SAMPLES_REPAIRED (i : Nat) : Nat := 0x20000057 + i * 0x10000
/-- SAMPLES_UNREPAIRED: U64 RO, R212. -/
def SAMPLES_UNREPAIRED (i : Nat) : Nat := 0x20000058 + i * 0x10000

end Ctx

/-! Parameter IDs of group 0x21 (R13). -/
namespace Rend

/-- WHITE_CODE: U32 RW, R243. -/
def WHITE_CODE (i : Nat) : Nat := 0x21000001 + i * 0x10000
/-- WORKING_SPACE: ENUM RW, R243. -/
def WORKING_SPACE (i : Nat) : Nat := 0x21000002 + i * 0x10000
/-- LSC_ENABLE: ENUM RW, R243. -/
def LSC_ENABLE (i : Nat) : Nat := 0x21000003 + i * 0x10000
/-- LSC_TABLE: BLOB WO, R243. -/
def LSC_TABLE (i : Nat) : Nat := 0x21000004 + i * 0x10000
/-- LSC_GRID: U32 RO, R243. -/
def LSC_GRID (i : Nat) : Nat := 0x21000005 + i * 0x10000
/-- WB_GAIN: Q16.16 RW, R243. -/
def WB_GAIN (i c : Nat) : Nat := 0x21000010 + i * 0x10000 + c
/-- CAM_MATRIX: CF24 RW, R243. -/
def CAM_MATRIX (i m : Nat) : Nat := 0x21000020 + i * 0x10000 + m
/-- CF24_SATURATED: U64 RO, R243. -/
def CF24_SATURATED (i : Nat) : Nat := 0x21000030 + i * 0x10000
/-- REND_ENABLE: ENUM RW, R243. -/
def REND_ENABLE (i v : Nat) : Nat := 0x21001001 + i * 0x10000 + v * 0x100
/-- SCALE_SIZE: U32 RW, R243. -/
def SCALE_SIZE (i v : Nat) : Nat := 0x21001002 + i * 0x10000 + v * 0x100
/-- CROP_ORIGIN: U32 RW, R243. -/
def CROP_ORIGIN (i v : Nat) : Nat := 0x21001003 + i * 0x10000 + v * 0x100
/-- CROP_SIZE: U32 RW, R243. -/
def CROP_SIZE (i v : Nat) : Nat := 0x21001004 + i * 0x10000 + v * 0x100
/-- OUT_FORMAT: U32 RW, R243. -/
def OUT_FORMAT (i v : Nat) : Nat := 0x21001005 + i * 0x10000 + v * 0x100
/-- YCC_MATRIX: ENUM RW, R243. -/
def YCC_MATRIX (i v : Nat) : Nat := 0x21001006 + i * 0x10000 + v * 0x100
/-- YCC_RANGE: ENUM RW, R243. -/
def YCC_RANGE (i v : Nat) : Nat := 0x21001007 + i * 0x10000 + v * 0x100
/-- REND_ALPHA: U32 RW, R243. -/
def REND_ALPHA (i v : Nat) : Nat := 0x21001008 + i * 0x10000 + v * 0x100
/-- REND_BUFFERS: U32 RW, R243. -/
def REND_BUFFERS (i v : Nat) : Nat := 0x21001009 + i * 0x10000 + v * 0x100
/-- SCALER_FILTER: ENUM RW, R243. -/
def SCALER_FILTER (i v : Nat) : Nat := 0x2100100A + i * 0x10000 + v * 0x100
/-- SCALER_TABLE: BLOB WO, R243. -/
def SCALER_TABLE (i v : Nat) : Nat := 0x2100100B + i * 0x10000 + v * 0x100
/-- TRIM_EV: Q16.16 RW, R243. -/
def TRIM_EV (i v : Nat) : Nat := 0x21001010 + i * 0x10000 + v * 0x100
/-- SHAPER: ENUM RW, R243. -/
def SHAPER (i v : Nat) : Nat := 0x21001011 + i * 0x10000 + v * 0x100
/-- SHAPER_TABLE: BLOB WO, R243. -/
def SHAPER_TABLE (i v : Nat) : Nat := 0x21001012 + i * 0x10000 + v * 0x100
/-- LUT_ENABLE: ENUM RW, R243. -/
def LUT_ENABLE (i v : Nat) : Nat := 0x21001013 + i * 0x10000 + v * 0x100
/-- LUT3D: BLOB WO, R243. -/
def LUT3D (i v : Nat) : Nat := 0x21001014 + i * 0x10000 + v * 0x100
/-- TRANSFER: ENUM RW, R243. -/
def TRANSFER (i v : Nat) : Nat := 0x21001015 + i * 0x10000 + v * 0x100
/-- TONE_TABLE: BLOB WO, R243. -/
def TONE_TABLE (i v : Nat) : Nat := 0x21001016 + i * 0x10000 + v * 0x100
/-- TF_GAIN: CF24 RW, R243. -/
def TF_GAIN (i v : Nat) : Nat := 0x21001017 + i * 0x10000 + v * 0x100
/-- LUT_GENERATION: U32 RO, R243. -/
def LUT_GENERATION (i v : Nat) : Nat := 0x21001018 + i * 0x10000 + v * 0x100
/-- REND_MATRIX: CF24 RW, R243. -/
def REND_MATRIX (i v m : Nat) : Nat := 0x21001020 + i * 0x10000 + v * 0x100 + m
/-- OUT_BYTES: U32 RO, R243. -/
def OUT_BYTES (i v : Nat) : Nat := 0x21001030 + i * 0x10000 + v * 0x100
/-- OUT_PITCH: U32 RO, R243. -/
def OUT_PITCH (i v : Nat) : Nat := 0x21001031 + i * 0x10000 + v * 0x100
/-- FRAMES_OUT: U64 RO, R243. -/
def FRAMES_OUT (i v : Nat) : Nat := 0x21001040 + i * 0x10000 + v * 0x100
/-- SAT_COUNT: U64 RO, R243. -/
def SAT_COUNT (i v : Nat) : Nat := 0x21001041 + i * 0x10000 + v * 0x100
/-- REND_NO_BUFFER: U64 RO, R243. -/
def REND_NO_BUFFER (i v : Nat) : Nat := 0x21001042 + i * 0x10000 + v * 0x100

end Rend

/-! Parameter IDs of group 0x22 (R13). -/
namespace Stat

/-- STATS_ENABLE: FLAGS RW, R244. -/
def STATS_ENABLE (i : Nat) : Nat := 0x22000001 + i * 0x10000
/-- HIST_DOMAIN: ENUM RW, R244. -/
def HIST_DOMAIN (i : Nat) : Nat := 0x22000002 + i * 0x10000
/-- SCOPE_KIND: ENUM RW, R244. -/
def SCOPE_KIND (i : Nat) : Nat := 0x22000003 + i * 0x10000
/-- SCOPE_SOURCE: U32 RW, R244. -/
def SCOPE_SOURCE (i : Nat) : Nat := 0x22000004 + i * 0x10000
/-- SCOPE_SIZE: U32 RW, R244. -/
def SCOPE_SIZE (i : Nat) : Nat := 0x22000005 + i * 0x10000
/-- SCOPE_BUFFER: U64 RW, R244. -/
def SCOPE_BUFFER (i : Nat) : Nat := 0x22000006 + i * 0x10000
/-- SCOPE_COLOUR: U32 RW, R244. -/
def SCOPE_COLOUR (i : Nat) : Nat := 0x22000007 + i * 0x10000
/-- SCOPE_FRONT: ENUM RO, R244. -/
def SCOPE_FRONT (i : Nat) : Nat := 0x22000008 + i * 0x10000
/-- STATS_SEQ: U64 RO, R244. -/
def STATS_SEQ (i : Nat) : Nat := 0x22000009 + i * 0x10000
/-- STATS_WRITTEN: U64 RO, R244. -/
def STATS_WRITTEN (i : Nat) : Nat := 0x22000010 + i * 0x10000
/-- STATS_OMITTED: U64 RO, R244. -/
def STATS_OMITTED (i : Nat) : Nat := 0x22000011 + i * 0x10000
/-- SCOPE_PLANES: U64 RO, R244. -/
def SCOPE_PLANES (i : Nat) : Nat := 0x22000012 + i * 0x10000
/-- STATS_SLOT: BLOB RO, R244. -/
def STATS_SLOT (i s : Nat) : Nat := 0x22001000 + i * 0x10000 + s

end Stat

/-! Parameter IDs of group 0x28 (R13). -/
namespace Sens

/-- SENSOR_DESC: BLOB WO, R267. -/
def SENSOR_DESC (i : Nat) : Nat := 0x28000001 + i * 0x10000
/-- DESC_GENERATION: U32 RO, R267. -/
def DESC_GENERATION (i : Nat) : Nat := 0x28000002 + i * 0x10000
/-- SENSOR_MODE: U32 RW, R267. -/
def SENSOR_MODE (i : Nat) : Nat := 0x28000003 + i * 0x10000
/-- PIPELINE_DELAY: U32 RO, R267. -/
def PIPELINE_DELAY (i : Nat) : Nat := 0x28000004 + i * 0x10000
/-- CONTROL_STATE: ENUM RO, R267. -/
def CONTROL_STATE (i : Nat) : Nat := 0x28000005 + i * 0x10000
/-- PENDING_CHANGES: U32 RO, R267. -/
def PENDING_CHANGES (i : Nat) : Nat := 0x28000006 + i * 0x10000
/-- LAST_EXPOSURE_ID: U32 RO, R267. -/
def LAST_EXPOSURE_ID (i : Nat) : Nat := 0x28000007 + i * 0x10000
/-- LAST_EXPOSURE_TICKET: U32 RO, R267. -/
def LAST_EXPOSURE_TICKET (i : Nat) : Nat := 0x28000008 + i * 0x10000
/-- ISP_GENERATION: U32 RO, R267. -/
def ISP_GENERATION (i : Nat) : Nat := 0x28000009 + i * 0x10000
/-- LAST_WRITE_MARGIN: S32 RO, R267. -/
def LAST_WRITE_MARGIN (i : Nat) : Nat := 0x2800000A + i * 0x10000
/-- CONTROL_VALUE: U32 RO, R267. -/
def CONTROL_VALUE (i c : Nat) : Nat := 0x28000010 + i * 0x10000 + c
/-- EXPOSE_APPLIED: U64 RO, R267. -/
def EXPOSE_APPLIED (i : Nat) : Nat := 0x28000030 + i * 0x10000
/-- EXPOSE_SHIFTED: U64 RO, R267. -/
def EXPOSE_SHIFTED (i : Nat) : Nat := 0x28000031 + i * 0x10000
/-- EXPOSE_PAST: U64 RO, R267. -/
def EXPOSE_PAST (i : Nat) : Nat := 0x28000032 + i * 0x10000
/-- EXPOSE_I2C_FAIL: U64 RO, R267. -/
def EXPOSE_I2C_FAIL (i : Nat) : Nat := 0x28000033 + i * 0x10000
/-- FRAMES_LATE_BIND: U64 RO, R267. -/
def FRAMES_LATE_BIND (i : Nat) : Nat := 0x28000034 + i * 0x10000
/-- VERIFY_FAIL: U64 RO, R267. -/
def VERIFY_FAIL (i : Nat) : Nat := 0x28000035 + i * 0x10000
/-- ISP_SETS_APPLIED: U64 RO, R267. -/
def ISP_SETS_APPLIED (i : Nat) : Nat := 0x28000036 + i * 0x10000

end Sens

/-! Parameter IDs of group 0x70 (R13). -/
namespace I2c

/-- I2C_ENABLE: ENUM RW, R288. -/
def I2C_ENABLE (i : Nat) : Nat := 0x70000001 + i * 0x10000
/-- DRIVE: ENUM RW, R288. -/
def DRIVE (i : Nat) : Nat := 0x70000002 + i * 0x10000
/-- SCL_LOW_TIMEOUT: U32 RW, R288. -/
def SCL_LOW_TIMEOUT (i : Nat) : Nat := 0x70000003 + i * 0x10000
/-- SDA_LOW_TIMEOUT: U32 RW, R288. -/
def SDA_LOW_TIMEOUT (i : Nat) : Nat := 0x70000004 + i * 0x10000
/-- RETRY_LIMIT: U32 RW, R288. -/
def RETRY_LIMIT (i : Nat) : Nat := 0x70000005 + i * 0x10000
/-- BUS_RETRY_INTERVAL: U32 RW, R288. -/
def BUS_RETRY_INTERVAL (i : Nat) : Nat := 0x70000006 + i * 0x10000
/-- SENSOR_PAGE_SIZE: ENUM RW, R288. -/
def SENSOR_PAGE_SIZE (i : Nat) : Nat := 0x70000007 + i * 0x10000
/-- XFER_DESC: BLOB WO, R288. -/
def XFER_DESC (i : Nat) : Nat := 0x70000010 + i * 0x10000
/-- XFER_RESULT: BLOB RO, R288. -/
def XFER_RESULT (i : Nat) : Nat := 0x70000011 + i * 0x10000
/-- BUS_STATE: ENUM RO, R288. -/
def BUS_STATE (i : Nat) : Nat := 0x70000012 + i * 0x10000
/-- BANK_VOLTAGE: ENUM RO, R288. -/
def BANK_VOLTAGE (i : Nat) : Nat := 0x70000013 + i * 0x10000
/-- LAST_ERROR: ENUM RO, R288. -/
def LAST_ERROR (i : Nat) : Nat := 0x70000014 + i * 0x10000
/-- TRANSACTIONS: U64 RO, R288. -/
def TRANSACTIONS (i : Nat) : Nat := 0x70000020 + i * 0x10000
/-- ADDR_NACK_COUNT: U64 RO, R288. -/
def ADDR_NACK_COUNT (i : Nat) : Nat := 0x70000021 + i * 0x10000
/-- DATA_NACK_COUNT: U64 RO, R288. -/
def DATA_NACK_COUNT (i : Nat) : Nat := 0x70000022 + i * 0x10000
/-- ARB_LOST_COUNT: U64 RO, R288. -/
def ARB_LOST_COUNT (i : Nat) : Nat := 0x70000023 + i * 0x10000
/-- ARB_LOST_STOP_COUNT: U64 RO, R288. -/
def ARB_LOST_STOP_COUNT (i : Nat) : Nat := 0x70000024 + i * 0x10000
/-- ARB_LOST_RSTART_COUNT: U64 RO, R288. -/
def ARB_LOST_RSTART_COUNT (i : Nat) : Nat := 0x70000025 + i * 0x10000
/-- BUS_ERROR_COUNT: U64 RO, R288. -/
def BUS_ERROR_COUNT (i : Nat) : Nat := 0x70000026 + i * 0x10000
/-- SCL_TIMEOUT_COUNT: U64 RO, R288. -/
def SCL_TIMEOUT_COUNT (i : Nat) : Nat := 0x70000027 + i * 0x10000
/-- BUS_CLEARS: U64 RO, R288. -/
def BUS_CLEARS (i : Nat) : Nat := 0x70000028 + i * 0x10000
/-- BUS_CLEAR_FAIL: U64 RO, R288. -/
def BUS_CLEAR_FAIL (i : Nat) : Nat := 0x70000029 + i * 0x10000
/-- LINE_FAULTS: U64 RO, R288. -/
def LINE_FAULTS (i : Nat) : Nat := 0x7000002A + i * 0x10000
/-- POLL_TIMEOUTS: U64 RO, R288. -/
def POLL_TIMEOUTS (i : Nat) : Nat := 0x7000002B + i * 0x10000
/-- RETRIES: U64 RO, R288. -/
def RETRIES (i : Nat) : Nat := 0x7000002C + i * 0x10000
/-- HOST_DEFERRED: U64 RO, R288. -/
def HOST_DEFERRED (i : Nat) : Nat := 0x7000002D + i * 0x10000
/-- BYTES_XFER: U64 RO, R288. -/
def BYTES_XFER (i : Nat) : Nat := 0x7000002E + i * 0x10000
/-- HOST_OVERRAN: U64 RO, R288. -/
def HOST_OVERRAN (i : Nat) : Nat := 0x7000002F + i * 0x10000

end I2c

/-! Parameter IDs of group 0x30 (R13). -/
namespace Head

/-- HEAD_ENABLE: ENUM RW, R309. -/
def HEAD_ENABLE (i : Nat) : Nat := 0x30000001 + i * 0x10000
/-- LINK_RATE_MAX: ENUM RW, R309. -/
def LINK_RATE_MAX (i : Nat) : Nat := 0x30000002 + i * 0x10000
/-- LANES_MAX: U32 RW, R309. -/
def LANES_MAX (i : Nat) : Nat := 0x30000003 + i * 0x10000
/-- PIXEL_CLOCK: U32 RW, R309. -/
def PIXEL_CLOCK (i : Nat) : Nat := 0x30000004 + i * 0x10000
/-- H_TIMING_A: U32 RW, R309. -/
def H_TIMING_A (i : Nat) : Nat := 0x30000005 + i * 0x10000
/-- H_TIMING_B: U32 RW, R309. -/
def H_TIMING_B (i : Nat) : Nat := 0x30000006 + i * 0x10000
/-- V_TIMING_A: U32 RW, R309. -/
def V_TIMING_A (i : Nat) : Nat := 0x30000007 + i * 0x10000
/-- V_TIMING_B: U32 RW, R309. -/
def V_TIMING_B (i : Nat) : Nat := 0x30000008 + i * 0x10000
/-- SYNC_POLARITY: FLAGS RW, R309. -/
def SYNC_POLARITY (i : Nat) : Nat := 0x30000009 + i * 0x10000
/-- OUT_COLOUR: ENUM RW, R309. -/
def OUT_COLOUR (i : Nat) : Nat := 0x3000000A + i * 0x10000
/-- OUT_BPC: ENUM RW, R309. -/
def OUT_BPC (i : Nat) : Nat := 0x3000000B + i * 0x10000
/-- OUT_YCC_MATRIX: ENUM RW, R309. -/
def OUT_YCC_MATRIX (i : Nat) : Nat := 0x3000000C + i * 0x10000
/-- OUT_RANGE: ENUM RW, R309. -/
def OUT_RANGE (i : Nat) : Nat := 0x3000000D + i * 0x10000
/-- HDR_METADATA: BLOB WO, R309. -/
def HDR_METADATA (i : Nat) : Nat := 0x3000000E + i * 0x10000
/-- BACKGROUND: U32 RW, R309. -/
def BACKGROUND (i : Nat) : Nat := 0x3000000F + i * 0x10000
/-- COMMIT_MODE: ENUM RW, R309. -/
def COMMIT_MODE (i : Nat) : Nat := 0x30000010 + i * 0x10000
/-- COMMIT_MARGIN: U32 RW, R309. -/
def COMMIT_MARGIN (i : Nat) : Nat := 0x30000011 + i * 0x10000
/-- LOCK_MODE: ENUM RW, R309. -/
def LOCK_MODE (i : Nat) : Nat := 0x30000012 + i * 0x10000
/-- LOCK_RATIO: U32 RW, R309. -/
def LOCK_RATIO (i : Nat) : Nat := 0x30000013 + i * 0x10000
/-- LOCK_OFFSET: S32 RW, R309. -/
def LOCK_OFFSET (i : Nat) : Nat := 0x30000014 + i * 0x10000
/-- LOCK_JUMP: U32 RW, R309. -/
def LOCK_JUMP (i : Nat) : Nat := 0x30000015 + i * 0x10000
/-- PSR_POLICY: ENUM RW, R309. -/
def PSR_POLICY (i : Nat) : Nat := 0x30000016 + i * 0x10000
/-- PSR_IDLE_FRAMES: U32 RW, R309. -/
def PSR_IDLE_FRAMES (i : Nat) : Nat := 0x30000017 + i * 0x10000
/-- UNDERFLOW_COLOUR: U32 RW, R309. -/
def UNDERFLOW_COLOUR (i : Nat) : Nat := 0x30000018 + i * 0x10000
/-- LINK_STATE: ENUM RO, R309. -/
def LINK_STATE (i : Nat) : Nat := 0x30000020 + i * 0x10000
/-- LINK_TRAINED: U32 RO, R309. -/
def LINK_TRAINED (i : Nat) : Nat := 0x30000021 + i * 0x10000
/-- SINK_CAPS: U32 RO, R309. -/
def SINK_CAPS (i : Nat) : Nat := 0x30000022 + i * 0x10000
/-- LOCK_STATE: ENUM RO, R309. -/
def LOCK_STATE (i : Nat) : Nat := 0x30000023 + i * 0x10000
/-- LOCK_ERROR: S32 RO, R309. -/
def LOCK_ERROR (i : Nat) : Nat := 0x30000024 + i * 0x10000
/-- DISP_FRAME: U32 RO, R309. -/
def DISP_FRAME (i : Nat) : Nat := 0x30000025 + i * 0x10000
/-- LAST_COMMIT: U64 RO, R309. -/
def LAST_COMMIT (i : Nat) : Nat := 0x30000026 + i * 0x10000
/-- FRAMES_SCANNED: U64 RO, R309. -/
def FRAMES_SCANNED (i : Nat) : Nat := 0x30000030 + i * 0x10000
/-- COMMITS: U64 RO, R309. -/
def COMMITS (i : Nat) : Nat := 0x30000031 + i * 0x10000
/-- COMMITS_LATE: U64 RO, R309. -/
def COMMITS_LATE (i : Nat) : Nat := 0x30000032 + i * 0x10000
/-- UNDERFLOW_FRAMES: U64 RO, R309. -/
def UNDERFLOW_FRAMES (i : Nat) : Nat := 0x30000033 + i * 0x10000
/-- LOCK_TRIMS: U64 RO, R309. -/
def LOCK_TRIMS (i : Nat) : Nat := 0x30000034 + i * 0x10000
/-- LOCK_JUMPS: U64 RO, R309. -/
def LOCK_JUMPS (i : Nat) : Nat := 0x30000035 + i * 0x10000
/-- PSR_ENTRIES: U64 RO, R309. -/
def PSR_ENTRIES (i : Nat) : Nat := 0x30000036 + i * 0x10000
/-- PSR_EXITS: U64 RO, R309. -/
def PSR_EXITS (i : Nat) : Nat := 0x30000037 + i * 0x10000
/-- LINK_TRAIN_FAIL: U64 RO, R309. -/
def LINK_TRAIN_FAIL (i : Nat) : Nat := 0x30000038 + i * 0x10000
/-- STALE_FRAMES: U64 RO, R309. -/
def STALE_FRAMES (i : Nat) : Nat := 0x30000039 + i * 0x10000
/-- SOURCE_LOST: U64 RO, R309. -/
def SOURCE_LOST (i : Nat) : Nat := 0x3000003A + i * 0x10000
/-- SCOPE_HOLDS: U64 RO, R309. -/
def SCOPE_HOLDS (i : Nat) : Nat := 0x3000003B + i * 0x10000
/-- BYTES_READ: U64 RO, R309. -/
def BYTES_READ (i : Nat) : Nat := 0x3000003C + i * 0x10000
/-- LAYER_ENABLE: ENUM RW, R309. -/
def LAYER_ENABLE (i l : Nat) : Nat := 0x30001001 + i * 0x10000 + l * 0x100
/-- LAYER_SOURCE: ENUM RW, R309. -/
def LAYER_SOURCE (i l : Nat) : Nat := 0x30001002 + i * 0x10000 + l * 0x100
/-- LAYER_RENDITION: U32 RW, R309. -/
def LAYER_RENDITION (i l : Nat) : Nat := 0x30001003 + i * 0x10000 + l * 0x100
/-- LAYER_BUFFER: U64 RW, R309. -/
def LAYER_BUFFER (i l : Nat) : Nat := 0x30001004 + i * 0x10000 + l * 0x100
/-- LAYER_FORMAT: U32 RW, R309. -/
def LAYER_FORMAT (i l : Nat) : Nat := 0x30001005 + i * 0x10000 + l * 0x100
/-- LAYER_PITCH: U32 RW, R309. -/
def LAYER_PITCH (i l : Nat) : Nat := 0x30001006 + i * 0x10000 + l * 0x100
/-- LAYER_SRC_ORIGIN: U32 RW, R309. -/
def LAYER_SRC_ORIGIN (i l : Nat) : Nat := 0x30001007 + i * 0x10000 + l * 0x100
/-- LAYER_SIZE: U32 RW, R309. -/
def LAYER_SIZE (i l : Nat) : Nat := 0x30001008 + i * 0x10000 + l * 0x100
/-- LAYER_DST: U32 RW, R309. -/
def LAYER_DST (i l : Nat) : Nat := 0x30001009 + i * 0x10000 + l * 0x100
/-- LAYER_ALPHA: U32 RW, R309. -/
def LAYER_ALPHA (i l : Nat) : Nat := 0x3000100A + i * 0x10000 + l * 0x100
/-- LAYER_YCC: U32 RW, R309. -/
def LAYER_YCC (i l : Nat) : Nat := 0x3000100B + i * 0x10000 + l * 0x100
/-- LAYER_STATUS: FLAGS RO, R309. -/
def LAYER_STATUS (i l : Nat) : Nat := 0x30001010 + i * 0x10000 + l * 0x100
/-- LAYER_CURRENT: U64 RO, R309. -/
def LAYER_CURRENT (i l : Nat) : Nat := 0x30001011 + i * 0x10000 + l * 0x100
/-- CRC_RECT: U64 RW, R309. -/
def CRC_RECT (i k : Nat) : Nat := 0x30002001 + i * 0x10000 + k * 0x100
/-- CRC_EXPECT: U32 RW, R309. -/
def CRC_EXPECT (i k : Nat) : Nat := 0x30002002 + i * 0x10000 + k * 0x100
/-- CRC_ENABLE: ENUM RW, R309. -/
def CRC_ENABLE (i k : Nat) : Nat := 0x30002003 + i * 0x10000 + k * 0x100
/-- CRC_LAST: U32 RO, R309. -/
def CRC_LAST (i k : Nat) : Nat := 0x30002004 + i * 0x10000 + k * 0x100
/-- CRC_RESULT: ENUM RO, R309. -/
def CRC_RESULT (i k : Nat) : Nat := 0x30002005 + i * 0x10000 + k * 0x100
/-- CRC_MISMATCHES: U64 RO, R309. -/
def CRC_MISMATCHES (i k : Nat) : Nat := 0x30002006 + i * 0x10000 + k * 0x100

end Head

/-! Parameter IDs of group 0x40 (R13). -/
namespace Eth

/-- ETH_ENABLE: ENUM RW, R339. -/
def ETH_ENABLE (i : Nat) : Nat := 0x40000001 + i * 0x10000
/-- ETH_MODE: ENUM RW, R339. -/
def ETH_MODE (i : Nat) : Nat := 0x40000002 + i * 0x10000
/-- MAC_ADDRESS: U64 RO, R339. -/
def MAC_ADDRESS (i : Nat) : Nat := 0x40000003 + i * 0x10000
/-- IPV4_ADDRESS: U32 RW, R339. -/
def IPV4_ADDRESS (i : Nat) : Nat := 0x40000004 + i * 0x10000
/-- IPV4_PREFIX: U32 RW, R339. -/
def IPV4_PREFIX (i : Nat) : Nat := 0x40000005 + i * 0x10000
/-- IPV4_GATEWAY: U32 RW, R339. -/
def IPV4_GATEWAY (i : Nat) : Nat := 0x40000006 + i * 0x10000
/-- IPV6_ADDRESS: BLOB RW, R339. -/
def IPV6_ADDRESS (i : Nat) : Nat := 0x40000007 + i * 0x10000
/-- IPV6_PREFIX: U32 RW, R339. -/
def IPV6_PREFIX (i : Nat) : Nat := 0x40000008 + i * 0x10000
/-- IPV6_GATEWAY: BLOB RW, R339. -/
def IPV6_GATEWAY (i : Nat) : Nat := 0x40000009 + i * 0x10000
/-- VLAN_ID: U32 RW, R339. -/
def VLAN_ID (i : Nat) : Nat := 0x4000000A + i * 0x10000
/-- MTU: U32 RW, R339. -/
def MTU (i : Nat) : Nat := 0x4000000B + i * 0x10000
/-- ROCE_PRIORITY: U32 RW, R339. -/
def ROCE_PRIORITY (i : Nat) : Nat := 0x4000000C + i * 0x10000
/-- PFC_ENABLE: ENUM RW, R339. -/
def PFC_ENABLE (i : Nat) : Nat := 0x4000000D + i * 0x10000
/-- PFC_STORM_LIMIT: U32 RW, R339. -/
def PFC_STORM_LIMIT (i : Nat) : Nat := 0x4000000E + i * 0x10000
/-- DSCP_CONTROL: U32 RW, R339. -/
def DSCP_CONTROL (i : Nat) : Nat := 0x4000000F + i * 0x10000
/-- ROCE_ACK_TIMEOUT: U32 RW, R339. -/
def ROCE_ACK_TIMEOUT (i : Nat) : Nat := 0x40000010 + i * 0x10000
/-- ROCE_RETRY: U32 RW, R339. -/
def ROCE_RETRY (i : Nat) : Nat := 0x40000011 + i * 0x10000
/-- LINK_STATE: ENUM RO, R339. -/
def LINK_STATE (i : Nat) : Nat := 0x40000020 + i * 0x10000
/-- QP_COUNT: U32 RO, R339. -/
def QP_COUNT (i : Nat) : Nat := 0x40000021 + i * 0x10000
/-- FEC_CORRECTED: U64 RO, R339. -/
def FEC_CORRECTED (i : Nat) : Nat := 0x40000030 + i * 0x10000
/-- FEC_UNCORRECTED: U64 RO, R339. -/
def FEC_UNCORRECTED (i : Nat) : Nat := 0x40000031 + i * 0x10000
/-- RX_FRAMES: U64 RO, R339. -/
def RX_FRAMES (i : Nat) : Nat := 0x40000032 + i * 0x10000
/-- TX_FRAMES: U64 RO, R339. -/
def TX_FRAMES (i : Nat) : Nat := 0x40000033 + i * 0x10000
/-- RX_DROPPED: U64 RO, R339. -/
def RX_DROPPED (i : Nat) : Nat := 0x40000034 + i * 0x10000
/-- PFC_RX: U64 RO, R339. -/
def PFC_RX (i : Nat) : Nat := 0x40000035 + i * 0x10000
/-- PFC_TX: U64 RO, R339. -/
def PFC_TX (i : Nat) : Nat := 0x40000036 + i * 0x10000
/-- PFC_STORMS: U64 RO, R339. -/
def PFC_STORMS (i : Nat) : Nat := 0x40000037 + i * 0x10000
/-- LINK_FAILS: U64 RO, R339. -/
def LINK_FAILS (i : Nat) : Nat := 0x40000038 + i * 0x10000
/-- CNP_RX: U64 RO, R339. -/
def CNP_RX (i : Nat) : Nat := 0x40000039 + i * 0x10000
/-- CNP_TX: U64 RO, R339. -/
def CNP_TX (i : Nat) : Nat := 0x4000003A + i * 0x10000
/-- RX_BYTES: U64 RO, R339. -/
def RX_BYTES (i : Nat) : Nat := 0x4000003B + i * 0x10000
/-- TX_BYTES: U64 RO, R339. -/
def TX_BYTES (i : Nat) : Nat := 0x4000003C + i * 0x10000

end Eth

/-! Parameter IDs of group 0x41 (R13). -/
namespace St

/-- STREAM_ENABLE: ENUM RW, R340. -/
def STREAM_ENABLE (i : Nat) : Nat := 0x41000001 + i * 0x10000
/-- STREAM_PORTS: FLAGS RW, R340. -/
def STREAM_PORTS (i : Nat) : Nat := 0x41000002 + i * 0x10000
/-- STREAM_VLAN: U32 RW, R340. -/
def STREAM_VLAN (i : Nat) : Nat := 0x41000003 + i * 0x10000
/-- STREAM_DSCP: U32 RW, R340. -/
def STREAM_DSCP (i : Nat) : Nat := 0x41000004 + i * 0x10000
/-- PAYLOAD_TYPE: U32 RW, R340. -/
def PAYLOAD_TYPE (i : Nat) : Nat := 0x41000005 + i * 0x10000
/-- SSRC: U32 RW, R340. -/
def SSRC (i : Nat) : Nat := 0x41000006 + i * 0x10000
/-- STREAM_SOURCE: U32 RW, R340. -/
def STREAM_SOURCE (i : Nat) : Nat := 0x41000007 + i * 0x10000
/-- SENDER_OFFSET: U32 RW, R340. -/
def SENDER_OFFSET (i : Nat) : Nat := 0x41000008 + i * 0x10000
/-- TR_MODE: ENUM RW, R340. -/
def TR_MODE (i : Nat) : Nat := 0x41000009 + i * 0x10000
/-- TR_OFFSET: U32 RW, R340. -/
def TR_OFFSET (i : Nat) : Nat := 0x4100000A + i * 0x10000
/-- VIDEO_PACKING: ENUM RW, R340. -/
def VIDEO_PACKING (i : Nat) : Nat := 0x4100000B + i * 0x10000
/-- COLORIMETRY: ENUM RW, R340. -/
def COLORIMETRY (i : Nat) : Nat := 0x4100000C + i * 0x10000
/-- TCS: ENUM RW, R340. -/
def TCS (i : Nat) : Nat := 0x4100000D + i * 0x10000
/-- PACKET_TIME: ENUM RW, R340. -/
def PACKET_TIME (i : Nat) : Nat := 0x4100000E + i * 0x10000
/-- AUDIO_ENCODING: ENUM RW, R340. -/
def AUDIO_ENCODING (i : Nat) : Nat := 0x4100000F + i * 0x10000
/-- AUDIO_CHANNELS: U32 RW, R340. -/
def AUDIO_CHANNELS (i : Nat) : Nat := 0x41000010 + i * 0x10000
/-- RX_DELAY: U32 RW, R340. -/
def RX_DELAY (i : Nat) : Nat := 0x41000011 + i * 0x10000
/-- ANC_TICKET: ENUM RW, R340. -/
def ANC_TICKET (i : Nat) : Nat := 0x41000012 + i * 0x10000
/-- DEST_ADDRESS: BLOB RW, R340. -/
def DEST_ADDRESS (i p : Nat) : Nat := 0x41000020 + i * 0x10000 + p
/-- DEST_UDP: U32 RW, R340. -/
def DEST_UDP (i p : Nat) : Nat := 0x41000030 + i * 0x10000 + p
/-- SDP: BLOB RO, R340. -/
def SDP (i : Nat) : Nat := 0x41000040 + i * 0x10000
/-- PACKETS_SENT: U64 RO, R340. -/
def PACKETS_SENT (i : Nat) : Nat := 0x41000050 + i * 0x10000
/-- FRAMES_SENT: U64 RO, R340. -/
def FRAMES_SENT (i : Nat) : Nat := 0x41000051 + i * 0x10000
/-- FRAMES_REPEATED_SENT: U64 RO, R340. -/
def FRAMES_REPEATED_SENT (i : Nat) : Nat := 0x41000052 + i * 0x10000
/-- SOURCE_LOST: U64 RO, R340. -/
def SOURCE_LOST (i : Nat) : Nat := 0x41000053 + i * 0x10000
/-- RX_PACKETS: U64 RO, R340. -/
def RX_PACKETS (i : Nat) : Nat := 0x41000054 + i * 0x10000
/-- RX_LOST: U64 RO, R340. -/
def RX_LOST (i : Nat) : Nat := 0x41000055 + i * 0x10000
/-- RX_LATE: U64 RO, R340. -/
def RX_LATE (i : Nat) : Nat := 0x41000056 + i * 0x10000
/-- RX_PATH_RECOVERED: U64 RO, R340. -/
def RX_PATH_RECOVERED (i : Nat) : Nat := 0x41000057 + i * 0x10000
/-- STREAM_BYTES: U64 RO, R340. -/
def STREAM_BYTES (i : Nat) : Nat := 0x41000058 + i * 0x10000

end St

/-! Parameter IDs of group 0x42 (R13). -/
namespace Time

/-- TIME_SOURCE: ENUM RW, R341. -/
def TIME_SOURCE : Nat := 0x42000001
/-- TIME_SET: U64 WO, R341. -/
def TIME_SET : Nat := 0x42000002
/-- TIME_STEP_THRESHOLD: U32 RW, R341. -/
def TIME_STEP_THRESHOLD : Nat := 0x42000003
/-- TICK_REPHASE: ENUM RW, R341. -/
def TICK_REPHASE : Nat := 0x42000004
/-- PTP_DOMAIN: U32 RW, R341. -/
def PTP_DOMAIN : Nat := 0x42000005
/-- PTP_ROLE: ENUM RW, R341. -/
def PTP_ROLE : Nat := 0x42000006
/-- PTP_PRIORITY: U32 RW, R341. -/
def PTP_PRIORITY : Nat := 0x42000007
/-- PTP_INTERVALS: U32 RW, R341. -/
def PTP_INTERVALS : Nat := 0x42000008
/-- PTP_ANNOUNCE_TIMEOUT: U32 RW, R341. -/
def PTP_ANNOUNCE_TIMEOUT : Nat := 0x42000009
/-- PTP_ASYMMETRY: S32 RW, R341. -/
def PTP_ASYMMETRY (i : Nat) : Nat := 0x4200000A + i * 0x10000
/-- FSYNC_RATIO: U32 RW, R341. -/
def FSYNC_RATIO (i : Nat) : Nat := 0x4200000B + i * 0x10000
/-- FSYNC_PULL: U32 RW, R341. -/
def FSYNC_PULL (i : Nat) : Nat := 0x4200000C + i * 0x10000
/-- FSYNC_EDGE: ENUM RW, R341. -/
def FSYNC_EDGE (i : Nat) : Nat := 0x4200000D + i * 0x10000
/-- DEVICE_TIME: U64 RO, R341. -/
def DEVICE_TIME : Nat := 0x42000010
/-- TIME_EPOCH: U32 RO, R341. -/
def TIME_EPOCH : Nat := 0x42000011
/-- TIME_STATE: ENUM RO, R341. -/
def TIME_STATE : Nat := 0x42000012
/-- TIME_STEP_LOG: BLOB RO, R341. -/
def TIME_STEP_LOG : Nat := 0x42000013
/-- PTP_PORT_STATE: ENUM RO, R341. -/
def PTP_PORT_STATE (i : Nat) : Nat := 0x42000014 + i * 0x10000
/-- PTP_OFFSET: U64 RO, R341. -/
def PTP_OFFSET : Nat := 0x42000015
/-- PTP_PATH_DELAY: U32 RO, R341. -/
def PTP_PATH_DELAY : Nat := 0x42000016
/-- PTP_GRANDMASTER: U64 RO, R341. -/
def PTP_GRANDMASTER : Nat := 0x42000017
/-- FSYNC_LAST_EDGE: U64 RO, R341. -/
def FSYNC_LAST_EDGE (i : Nat) : Nat := 0x42000020 + i * 0x10000
/-- FSYNC_PERIOD: U32 RO, R341. -/
def FSYNC_PERIOD (i : Nat) : Nat := 0x42000021 + i * 0x10000
/-- TIME_STEPS: U64 RO, R341. -/
def TIME_STEPS : Nat := 0x42000030
/-- STEPPED_TICKS: U64 RO, R341. -/
def STEPPED_TICKS : Nat := 0x42000031
/-- FSYNC_GLITCHES: U64 RO, R341. -/
def FSYNC_GLITCHES (i : Nat) : Nat := 0x42000032 + i * 0x10000
/-- FSYNC_STOPS: U64 RO, R341. -/
def FSYNC_STOPS (i : Nat) : Nat := 0x42000033 + i * 0x10000
/-- FRAME_SLIPS: U64 RO, R341. -/
def FRAME_SLIPS (i : Nat) : Nat := 0x42000034 + i * 0x10000
/-- RATE_MISMATCH: U64 RO, R341. -/
def RATE_MISMATCH (i : Nat) : Nat := 0x42000035 + i * 0x10000
/-- PTP_BAD_TIME: U64 RO, R341. -/
def PTP_BAD_TIME : Nat := 0x42000036

end Time

/-! Parameter IDs of group 0x43 (R13). -/
namespace Ring

/-- RING_ENABLE: FLAGS RW, R342. -/
def RING_ENABLE : Nat := 0x43000001
/-- RING_ID: U32 RW, R342. -/
def RING_ID : Nat := 0x43000002
/-- EVENT_FIRE: U64 WO, R342. -/
def EVENT_FIRE : Nat := 0x43000003
/-- EVENT_RX_MASK: U64 RW, R342. -/
def EVENT_RX_MASK : Nat := 0x43000004
/-- RING_PORT_STATE: ENUM RO, R342. -/
def RING_PORT_STATE (i : Nat) : Nat := 0x43000010 + i * 0x10000
/-- RING_PORT_ROLE: ENUM RO, R342. -/
def RING_PORT_ROLE (i : Nat) : Nat := 0x43000011 + i * 0x10000
/-- HOP_DELAY: U32 RO, R342. -/
def HOP_DELAY (i : Nat) : Nat := 0x43000012 + i * 0x10000
/-- NEIGHBOUR_STATUS: U64 RO, R342. -/
def NEIGHBOUR_STATUS (i : Nat) : Nat := 0x43000013 + i * 0x10000
/-- RING_HOPS: U32 RO, R342. -/
def RING_HOPS : Nat := 0x43000014
/-- ROOT_ID: U32 RO, R342. -/
def ROOT_ID : Nat := 0x43000015
/-- TICK_ALIGN_ERROR: S32 RO, R342. -/
def TICK_ALIGN_ERROR : Nat := 0x43000016
/-- EVENTS_TX: U64 RO, R342. -/
def EVENTS_TX : Nat := 0x43000020
/-- EVENTS_RX: U64 RO, R342. -/
def EVENTS_RX : Nat := 0x43000021
/-- RING_RETURN: U64 RO, R342. -/
def RING_RETURN : Nat := 0x43000022
/-- RING_DUP: U64 RO, R342. -/
def RING_DUP : Nat := 0x43000023
/-- HOP_EXHAUSTED: U64 RO, R342. -/
def HOP_EXHAUSTED : Nat := 0x43000024
/-- RING_BREAKS: U64 RO, R342. -/
def RING_BREAKS : Nat := 0x43000025
/-- REPARENTS: U64 RO, R342. -/
def REPARENTS : Nat := 0x43000026
/-- TICK_SEQ_JUMPS: U64 RO, R342. -/
def TICK_SEQ_JUMPS : Nat := 0x43000027
/-- RING_LINK_LOSS: U64 RO, R342. -/
def RING_LINK_LOSS (i : Nat) : Nat := 0x43000028 + i * 0x10000
/-- RING_HEADER_ERR: U64 RO, R342. -/
def RING_HEADER_ERR (i : Nat) : Nat := 0x43000029 + i * 0x10000

end Ring

/-! Parameter IDs of group 0x50 (R13). -/
namespace Rec

/-- PCIE_BIFURCATION: ENUM RW, R368. -/
def PCIE_BIFURCATION : Nat := 0x50000001
/-- PCIE_SPEED_MAX: ENUM RW, R368. -/
def PCIE_SPEED_MAX : Nat := 0x50000002
/-- DECLARED_RATE: U64 RW, R368. -/
def DECLARED_RATE : Nat := 0x50000003
/-- COMMIT_INTERVAL: U32 RW, R368. -/
def COMMIT_INTERVAL : Nat := 0x50000004
/-- CHECKPOINT_INTERVAL: U32 RW, R368. -/
def CHECKPOINT_INTERVAL : Nat := 0x50000005
/-- MEMBER_TIMEOUT: U32 RW, R368. -/
def MEMBER_TIMEOUT : Nat := 0x50000006
/-- FULL_WARNING: U32 RW, R368. -/
def FULL_WARNING : Nat := 0x50000007
/-- REBUILD_RATE: U32 RW, R368. -/
def REBUILD_RATE : Nat := 0x50000008
/-- MEDIA_FORMAT: BLOB WO, R368. -/
def MEDIA_FORMAT : Nat := 0x50000010
/-- MEDIA_REBUILD: U32 WO, R368. -/
def MEDIA_REBUILD : Nat := 0x50000011
/-- CLIP_DELETE: U32 WO, R368. -/
def CLIP_DELETE : Nat := 0x50000012
/-- MEDIA_STATE: ENUM RO, R368. -/
def MEDIA_STATE : Nat := 0x50000020
/-- SET_ID: U64 RO, R368. -/
def SET_ID : Nat := 0x50000021
/-- SET_GENERATION: U32 RO, R368. -/
def SET_GENERATION : Nat := 0x50000022
/-- SET_LAYOUT: ENUM RO, R368. -/
def SET_LAYOUT : Nat := 0x50000023
/-- TOTAL_EXTENTS: U32 RO, R368. -/
def TOTAL_EXTENTS : Nat := 0x50000024
/-- FREE_EXTENTS: U32 RO, R368. -/
def FREE_EXTENTS : Nat := 0x50000025
/-- RECORD_SECONDS_LEFT: U32 RO, R368. -/
def RECORD_SECONDS_LEFT : Nat := 0x50000026
/-- OPEN_CLIPS: U32 RO, R368. -/
def OPEN_CLIPS : Nat := 0x50000027
/-- LAST_COMMIT_SEQ: U64 RO, R368. -/
def LAST_COMMIT_SEQ : Nat := 0x50000028
/-- LAST_COMMIT_TIME: U64 RO, R368. -/
def LAST_COMMIT_TIME : Nat := 0x50000029
/-- REBUILD_PROGRESS: U32 RO, R368. -/
def REBUILD_PROGRESS : Nat := 0x5000002A
/-- MEMBER_STATE: ENUM RO, R368. -/
def MEMBER_STATE (i : Nat) : Nat := 0x50000030 + i * 0x10000
/-- MEMBER_LINK: U32 RO, R368. -/
def MEMBER_LINK (i : Nat) : Nat := 0x50000031 + i * 0x10000
/-- MEMBER_CAPACITY: U64 RO, R368. -/
def MEMBER_CAPACITY (i : Nat) : Nat := 0x50000032 + i * 0x10000
/-- MEMBER_ID: U64 RO, R368. -/
def MEMBER_ID (i : Nat) : Nat := 0x50000033 + i * 0x10000
/-- CLIP_SLOT_ID: U32 RO, R368. -/
def CLIP_SLOT_ID (i : Nat) : Nat := 0x50000040 + i * 0x10000
/-- CLIP_SLOT_STATE: ENUM RO, R368. -/
def CLIP_SLOT_STATE (i : Nat) : Nat := 0x50000041 + i * 0x10000
/-- CLIP_LENGTH: U64 RO, R368. -/
def CLIP_LENGTH (i : Nat) : Nat := 0x50000042 + i * 0x10000
/-- CLIP_FRAMES: U32 RO, R368. -/
def CLIP_FRAMES (i : Nat) : Nat := 0x50000043 + i * 0x10000
/-- CLIP_META: BLOB WO, R368. -/
def CLIP_META (i : Nat) : Nat := 0x50000044 + i * 0x10000
/-- COMMITS: U64 RO, R368. -/
def COMMITS : Nat := 0x50000050
/-- COMMITS_LATE: U64 RO, R368. -/
def COMMITS_LATE : Nat := 0x50000051
/-- CHECKPOINTS: U64 RO, R368. -/
def CHECKPOINTS : Nat := 0x50000052
/-- FRAMES_RECORDED: U64 RO, R368. -/
def FRAMES_RECORDED : Nat := 0x50000053
/-- FRAMES_LOST: U64 RO, R368. -/
def FRAMES_LOST : Nat := 0x50000054
/-- CLIPS_RECOVERED: U64 RO, R368. -/
def CLIPS_RECOVERED : Nat := 0x50000055
/-- MEMBER_FAILURES: U64 RO, R368. -/
def MEMBER_FAILURES (i : Nat) : Nat := 0x50000056 + i * 0x10000
/-- NVME_ERRORS: U64 RO, R368. -/
def NVME_ERRORS (i : Nat) : Nat := 0x50000057 + i * 0x10000
/-- NVME_TIMEOUTS: U64 RO, R368. -/
def NVME_TIMEOUTS (i : Nat) : Nat := 0x50000058 + i * 0x10000
/-- BYTES_WRITTEN: U64 RO, R368. -/
def BYTES_WRITTEN (i : Nat) : Nat := 0x50000059 + i * 0x10000

end Rec

/-! Parameter IDs of group 0x51 (R13). -/
namespace Tgt

/-- TARGET_ENABLE: ENUM RW, R399. -/
def TARGET_ENABLE : Nat := 0x51000001
/-- TARGET_RATE: U64 RW, R399. -/
def TARGET_RATE (i : Nat) : Nat := 0x51000002 + i * 0x10000
/-- ARB_BURST: U32 RW, R399. -/
def ARB_BURST : Nat := 0x51000003
/-- WEIGHT_HIGH: U32 RW, R399. -/
def WEIGHT_HIGH : Nat := 0x51000004
/-- WEIGHT_MEDIUM: U32 RW, R399. -/
def WEIGHT_MEDIUM : Nat := 0x51000005
/-- WEIGHT_LOW: U32 RW, R399. -/
def WEIGHT_LOW : Nat := 0x51000006
/-- ALLOW_ANY: ENUM RW, R399. -/
def ALLOW_ANY : Nat := 0x51000007
/-- SUBSYS_NQN: BLOB RO, R399. -/
def SUBSYS_NQN : Nat := 0x51000008
/-- ALLOW_NQN: BLOB RW, R399. -/
def ALLOW_NQN (i : Nat) : Nat := 0x51000010 + i * 0x10000
/-- ALLOW_HOSTID: BLOB RW, R399. -/
def ALLOW_HOSTID (i : Nat) : Nat := 0x51000011 + i * 0x10000
/-- ALLOW_RIGHTS: FLAGS RW, R399. -/
def ALLOW_RIGHTS (i : Nat) : Nat := 0x51000012 + i * 0x10000
/-- ALLOW_CLASS: U32 RW, R399. -/
def ALLOW_CLASS (i : Nat) : Nat := 0x51000013 + i * 0x10000
/-- ALLOW_QUEUES: U32 RW, R399. -/
def ALLOW_QUEUES (i : Nat) : Nat := 0x51000014 + i * 0x10000
/-- ASSOCIATIONS: U32 RO, R399. -/
def ASSOCIATIONS : Nat := 0x51000020
/-- ASSOC_HOST: BLOB RO, R399. -/
def ASSOC_HOST (i : Nat) : Nat := 0x51000021 + i * 0x10000
/-- ASSOC_INFO: U64 RO, R399. -/
def ASSOC_INFO (i : Nat) : Nat := 0x51000022 + i * 0x10000
/-- CONNECTS: U64 RO, R399. -/
def CONNECTS : Nat := 0x51000030
/-- CONNECT_REJECTED: U64 RO, R399. -/
def CONNECT_REJECTED : Nat := 0x51000031
/-- KATO_EXPIRED: U64 RO, R399. -/
def KATO_EXPIRED : Nat := 0x51000032
/-- CONN_LOST: U64 RO, R399. -/
def CONN_LOST : Nat := 0x51000033
/-- READ_CMDS: U64 RO, R399. -/
def READ_CMDS : Nat := 0x51000034
/-- WRITE_CMDS: U64 RO, R399. -/
def WRITE_CMDS : Nat := 0x51000035
/-- FLUSH_CMDS: U64 RO, R399. -/
def FLUSH_CMDS : Nat := 0x51000036
/-- URGENT_CMDS: U64 RO, R399. -/
def URGENT_CMDS : Nat := 0x51000037
/-- PACER_WAITS: U64 RO, R399. -/
def PACER_WAITS : Nat := 0x51000038
/-- ABORTED: U64 RO, R399. -/
def ABORTED : Nat := 0x51000039
/-- ABORT_NOT_ABORTED: U64 RO, R399. -/
def ABORT_NOT_ABORTED : Nat := 0x5100003A
/-- NS_NOT_READY: U64 RO, R399. -/
def NS_NOT_READY : Nat := 0x5100003B
/-- MEDIA_READ_ERRORS: U64 RO, R399. -/
def MEDIA_READ_ERRORS : Nat := 0x5100003C
/-- ACCESS_DENIED: U64 RO, R399. -/
def ACCESS_DENIED : Nat := 0x5100003D
/-- FW_COMMITS: U64 RO, R399. -/
def FW_COMMITS : Nat := 0x5100003E
/-- FW_REJECTED: U64 RO, R399. -/
def FW_REJECTED : Nat := 0x5100003F
/-- FW_STAGING_RESETS: U64 RO, R399. -/
def FW_STAGING_RESETS : Nat := 0x51000040
/-- READ_BYTES: U64 RO, R399. -/
def READ_BYTES (i : Nat) : Nat := 0x51000041 + i * 0x10000
/-- WRITE_BYTES: U64 RO, R399. -/
def WRITE_BYTES (i : Nat) : Nat := 0x51000042 + i * 0x10000

end Tgt

/-! Parameter IDs of group 0x60 (R13). -/
namespace Aud

/-- PORT_ENABLE: ENUM RW, R418. -/
def PORT_ENABLE (i : Nat) : Nat := 0x60000001 + i * 0x10000
/-- DIRECTION: ENUM RW, R418. -/
def DIRECTION (i : Nat) : Nat := 0x60000002 + i * 0x10000
/-- CLOCK_ROLE: ENUM RW, R418. -/
def CLOCK_ROLE (i : Nat) : Nat := 0x60000003 + i * 0x10000
/-- FAMILY: ENUM RW, R418. -/
def FAMILY (i : Nat) : Nat := 0x60000004 + i * 0x10000
/-- RATE_MULT: U32 RW, R418. -/
def RATE_MULT (i : Nat) : Nat := 0x60000005 + i * 0x10000
/-- TDM_FORMAT: U32 RW, R418. -/
def TDM_FORMAT (i : Nat) : Nat := 0x60000006 + i * 0x10000
/-- SAMPLE_FORMAT: U32 RW, R418. -/
def SAMPLE_FORMAT (i : Nat) : Nat := 0x60000007 + i * 0x10000
/-- SLOT_MASK: FLAGS RW, R418. -/
def SLOT_MASK (i : Nat) : Nat := 0x60000008 + i * 0x10000
/-- MUTE: FLAGS RW, R418. -/
def MUTE (i : Nat) : Nat := 0x60000009 + i * 0x10000
/-- MUTE_TIMEOUT: U32 RW, R418. -/
def MUTE_TIMEOUT (i : Nat) : Nat := 0x6000000A + i * 0x10000
/-- AUD_RING: BLOB RW, R418. -/
def AUD_RING (i : Nat) : Nat := 0x6000000B + i * 0x10000
/-- HOST_FLOW: ENUM RW, R418. -/
def HOST_FLOW (i : Nat) : Nat := 0x6000000C + i * 0x10000
/-- APPL_POSITION: U64 RW, R418. -/
def APPL_POSITION (i : Nat) : Nat := 0x6000000D + i * 0x10000
/-- AUD_SOURCE: U32 RW, R418. -/
def AUD_SOURCE (i : Nat) : Nat := 0x6000000E + i * 0x10000
/-- PORT_STATE: ENUM RO, R418. -/
def PORT_STATE (i : Nat) : Nat := 0x60000010 + i * 0x10000
/-- HW_POSITION: U64 RO, R418. -/
def HW_POSITION (i : Nat) : Nat := 0x60000011 + i * 0x10000
/-- MASK_IN_FORCE: FLAGS RO, R418. -/
def MASK_IN_FORCE (i : Nat) : Nat := 0x60000012 + i * 0x10000
/-- MUTE_STATE: FLAGS RO, R418. -/
def MUTE_STATE (i : Nat) : Nat := 0x60000013 + i * 0x10000
/-- BCLK_RATE: U32 RO, R418. -/
def BCLK_RATE (i : Nat) : Nat := 0x60000014 + i * 0x10000
/-- UNDERRUN_FRAMES: U64 RO, R418. -/
def UNDERRUN_FRAMES (i : Nat) : Nat := 0x60000020 + i * 0x10000
/-- OVERRUN_FRAMES: U64 RO, R418. -/
def OVERRUN_FRAMES (i : Nat) : Nat := 0x60000021 + i * 0x10000
/-- XRUN_EVENTS: U64 RO, R418. -/
def XRUN_EVENTS (i : Nat) : Nat := 0x60000022 + i * 0x10000
/-- FS_LOST_FRAMES: U64 RO, R418. -/
def FS_LOST_FRAMES (i : Nat) : Nat := 0x60000023 + i * 0x10000
/-- FS_GLITCHES: U64 RO, R418. -/
def FS_GLITCHES (i : Nat) : Nat := 0x60000024 + i * 0x10000
/-- SLIPS: U64 RO, R418. -/
def SLIPS (i : Nat) : Nat := 0x60000025 + i * 0x10000
/-- MASK_CHANGES: U64 RO, R418. -/
def MASK_CHANGES (i : Nat) : Nat := 0x60000026 + i * 0x10000
/-- MUTE_TIMEOUTS: U64 RO, R418. -/
def MUTE_TIMEOUTS (i : Nat) : Nat := 0x60000027 + i * 0x10000
/-- BYTES_MOVED: U64 RO, R418. -/
def BYTES_MOVED (i : Nat) : Nat := 0x60000028 + i * 0x10000
/-- FAMILY_SOURCE: ENUM RW, R418. -/
def FAMILY_SOURCE (i : Nat) : Nat := 0x60000100 + i * 0x10000
/-- FAMILY_WCLK: U32 RW, R418. -/
def FAMILY_WCLK (i : Nat) : Nat := 0x60000101 + i * 0x10000
/-- FAMILY_PULL: U32 RW, R418. -/
def FAMILY_PULL (i : Nat) : Nat := 0x60000102 + i * 0x10000
/-- FAMILY_STATE: ENUM RO, R418. -/
def FAMILY_STATE (i : Nat) : Nat := 0x60000103 + i * 0x10000
/-- FAMILY_PHASE_ERROR: S32 RO, R418. -/
def FAMILY_PHASE_ERROR (i : Nat) : Nat := 0x60000104 + i * 0x10000
/-- FAMILY_SLIPS: U64 RO, R418. -/
def FAMILY_SLIPS (i : Nat) : Nat := 0x60000110 + i * 0x10000
/-- FAMILY_GLITCHES: U64 RO, R418. -/
def FAMILY_GLITCHES (i : Nat) : Nat := 0x60000111 + i * 0x10000
/-- FAMILY_STOPS: U64 RO, R418. -/
def FAMILY_STOPS (i : Nat) : Nat := 0x60000112 + i * 0x10000
/-- AUD_BANK_VOLTAGE: ENUM RO, R418. -/
def AUD_BANK_VOLTAGE : Nat := 0x60000200

end Aud

/-! Parameter IDs of group 0x80 (R13). -/
namespace Dram

/-- MAP_ORDER: ENUM RW, R441. -/
def MAP_ORDER : Nat := 0x80000001
/-- REFRESH_MODE: ENUM RW, R441. -/
def REFRESH_MODE : Nat := 0x80000002
/-- POSTPONE_LIMIT: U32 RW, R441. -/
def POSTPONE_LIMIT : Nat := 0x80000003
/-- PNR_PERIOD: U32 RW, R441. -/
def PNR_PERIOD : Nat := 0x80000004
/-- PNR_DISTANCE: U32 RW, R441. -/
def PNR_DISTANCE : Nat := 0x80000005
/-- RFM_ENABLE: ENUM RW, R441. -/
def RFM_ENABLE : Nat := 0x80000006
/-- WRITE_CRC_ENABLE: ENUM RW, R441. -/
def WRITE_CRC_ENABLE : Nat := 0x80000007
/-- RETRAIN_INTERVAL: U32 RW, R441. -/
def RETRAIN_INTERVAL : Nat := 0x80000008
/-- DRIFT_TEMP: U32 RW, R441. -/
def DRIFT_TEMP : Nat := 0x80000009
/-- SCRUB_ENABLE: ENUM RW, R441. -/
def SCRUB_ENABLE : Nat := 0x8000000A
/-- MARK_THRESHOLD: U32 RW, R441. -/
def MARK_THRESHOLD : Nat := 0x8000000B
/-- MARK_CLEAR: U32 WO, R441. -/
def MARK_CLEAR : Nat := 0x8000000C
/-- CHANNEL_REENABLE: FLAGS WO, R441. -/
def CHANNEL_REENABLE : Nat := 0x8000000D
/-- AGE_LIMIT: U32 RW, R441. -/
def AGE_LIMIT (i : Nat) : Nat := 0x80000010 + i * 0x10000
/-- DRAM_STATE: ENUM RO, R441. -/
def DRAM_STATE : Nat := 0x80000020
/-- DRAM_SPEED: U32 RO, R441. -/
def DRAM_SPEED : Nat := 0x80000021
/-- ORGANISATION: U32 RO, R441. -/
def ORGANISATION : Nat := 0x80000022
/-- CAPACITY: U32 RO, R441. -/
def CAPACITY : Nat := 0x80000023
/-- CHANNELS_IN_SERVICE: FLAGS RO, R441. -/
def CHANNELS_IN_SERVICE : Nat := 0x80000024
/-- FAILED_CHANNELS: FLAGS RO, R441. -/
def FAILED_CHANNELS : Nat := 0x80000025
/-- PEAK_BANDWIDTH: U64 RO, R441. -/
def PEAK_BANDWIDTH : Nat := 0x80000026
/-- SCRUB_PASS_TIME: U32 RO, R441. -/
def SCRUB_PASS_TIME : Nat := 0x80000027
/-- FAULT_RECORD: BLOB RO, R441. -/
def FAULT_RECORD : Nat := 0x80000028
/-- DIAG_ADDRESS: U64 WO, R441. -/
def DIAG_ADDRESS : Nat := 0x80000029
/-- DIAG_DATA: BLOB RO, R441. -/
def DIAG_DATA : Nat := 0x8000002A
/-- RT_LATENCY_MAX: U32 RO, R441. -/
def RT_LATENCY_MAX (i : Nat) : Nat := 0x80000030 + i * 0x10000
/-- CHANNEL_STATE: ENUM RO, R441. -/
def CHANNEL_STATE (i : Nat) : Nat := 0x80000031 + i * 0x10000
/-- REFRESH_RATE: ENUM RO, R441. -/
def REFRESH_RATE (i : Nat) : Nat := 0x80000032 + i * 0x10000
/-- DEVICE_MARK: U32 RO, R441. -/
def DEVICE_MARK (i : Nat) : Nat := 0x80000033 + i * 0x10000
/-- EYE_MARGIN: U32 RO, R441. -/
def EYE_MARGIN (i : Nat) : Nat := 0x80000034 + i * 0x10000
/-- CE_COUNT: U64 RO, R441. -/
def CE_COUNT (i : Nat) : Nat := 0x80000040 + i * 0x10000
/-- UE_COUNT: U64 RO, R441. -/
def UE_COUNT (i : Nat) : Nat := 0x80000041 + i * 0x10000
/-- REFRESH_POSTPONED: U64 RO, R441. -/
def REFRESH_POSTPONED (i : Nat) : Nat := 0x80000042 + i * 0x10000
/-- BURST_SPLITS: U64 RO, R441. -/
def BURST_SPLITS (i : Nat) : Nat := 0x80000043 + i * 0x10000
/-- PNR_ACTIVATES: U64 RO, R441. -/
def PNR_ACTIVATES (i : Nat) : Nat := 0x80000044 + i * 0x10000
/-- RFM_COMMANDS: U64 RO, R441. -/
def RFM_COMMANDS (i : Nat) : Nat := 0x80000045 + i * 0x10000
/-- WRITE_CRC_RETRIES: U64 RO, R441. -/
def WRITE_CRC_RETRIES (i : Nat) : Nat := 0x80000046 + i * 0x10000
/-- RETRAINS: U64 RO, R441. -/
def RETRAINS (i : Nat) : Nat := 0x80000047 + i * 0x10000
/-- RETRAIN_FAIL: U64 RO, R441. -/
def RETRAIN_FAIL (i : Nat) : Nat := 0x80000048 + i * 0x10000
/-- BYTES_READ: U64 RO, R441. -/
def BYTES_READ (i : Nat) : Nat := 0x80000049 + i * 0x10000
/-- BYTES_WRITTEN: U64 RO, R441. -/
def BYTES_WRITTEN (i : Nat) : Nat := 0x8000004A + i * 0x10000
/-- PROMOTIONS: U64 RO, R441. -/
def PROMOTIONS (i : Nat) : Nat := 0x80000050 + i * 0x10000
/-- SCRUB_PASSES: U64 RO, R441. -/
def SCRUB_PASSES : Nat := 0x80000051

end Dram

/-! Parameter IDs of group 0x90 (R13). -/
namespace Ev

/-- SRC_ENABLE: ENUM RW, R458. -/
def SRC_ENABLE (i : Nat) : Nat := 0x90000001 + i * 0x10000
/-- LOOP_LIMIT: U32 RW, R458. -/
def LOOP_LIMIT (i : Nat) : Nat := 0x90000002 + i * 0x10000
/-- SRC_FIRINGS: U64 RO, R458. -/
def SRC_FIRINGS (i : Nat) : Nat := 0x90000003 + i * 0x10000
/-- SRC_LOOP_TRIPS: U64 RO, R458. -/
def SRC_LOOP_TRIPS (i : Nat) : Nat := 0x90000004 + i * 0x10000
/-- WIRE_ENABLE: FLAGS RW, R458. -/
def WIRE_ENABLE (i : Nat) : Nat := 0x90000101 + i * 0x10000
/-- TI_TRIGGERS: U64 RO, R458. -/
def TI_TRIGGERS (i : Nat) : Nat := 0x90000102 + i * 0x10000
/-- TI_OVERRUNS: U64 RO, R458. -/
def TI_OVERRUNS (i : Nat) : Nat := 0x90000103 + i * 0x10000
/-- TI_COINCIDENT: U64 RO, R458. -/
def TI_COINCIDENT (i : Nat) : Nat := 0x90000104 + i * 0x10000
/-- SRC_FIRED: FLAGS RW, R458. -/
def SRC_FIRED (i : Nat) : Nat := 0x90000201 + i * 0x10000
/-- SRC_LOOP_SUSPECT: FLAGS RW, R458. -/
def SRC_LOOP_SUSPECT (i : Nat) : Nat := 0x90000202 + i * 0x10000
/-- TI_TRIGGERED: FLAGS RW, R458. -/
def TI_TRIGGERED (i : Nat) : Nat := 0x90000203 + i * 0x10000
/-- TI_OVERRUN: FLAGS RW, R458. -/
def TI_OVERRUN (i : Nat) : Nat := 0x90000204 + i * 0x10000
/-- TI_COINCIDENT_FLAG: FLAGS RW, R458. -/
def TI_COINCIDENT_FLAG (i : Nat) : Nat := 0x90000205 + i * 0x10000
/-- SW_FIRE: FLAGS WO, R458. -/
def SW_FIRE : Nat := 0x90000010
/-- TIMER_DELAY: U32 RW, R458. -/
def TIMER_DELAY (i : Nat) : Nat := 0x90000020 + i * 0x10000
/-- TIMER_STATE: ENUM RO, R458. -/
def TIMER_STATE (i : Nat) : Nat := 0x90000021 + i * 0x10000
/-- EVIO_DIR: ENUM RW, R458. -/
def EVIO_DIR (i : Nat) : Nat := 0x90000030 + i * 0x10000
/-- EVIO_EDGE: ENUM RW, R458. -/
def EVIO_EDGE (i : Nat) : Nat := 0x90000031 + i * 0x10000
/-- EVIO_WIDTH: U32 RW, R458. -/
def EVIO_WIDTH (i : Nat) : Nat := 0x90000032 + i * 0x10000
/-- EVIO_POLARITY: ENUM RW, R458. -/
def EVIO_POLARITY (i : Nat) : Nat := 0x90000033 + i * 0x10000
/-- WAKE_PROFILE: ENUM RW, R458. -/
def WAKE_PROFILE : Nat := 0x90000040
/-- WAKE_REFUSED: U64 RO, R458. -/
def WAKE_REFUSED : Nat := 0x90000041

end Ev

/-! Parameter IDs of group 0xA0 (R13). -/
namespace Th

/-- WARN_THRESHOLD: S32 RW, R475. -/
def WARN_THRESHOLD : Nat := 0xA0000001
/-- THROTTLE_THRESHOLD: S32 RW, R475. -/
def THROTTLE_THRESHOLD : Nat := 0xA0000002
/-- SHUTDOWN_THRESHOLD: S32 RO, R475. -/
def SHUTDOWN_THRESHOLD : Nat := 0xA0000003
/-- HOT_HYSTERESIS: S32 RW, R475. -/
def HOT_HYSTERESIS : Nat := 0xA0000004
/-- COLD_WARNING: S32 RW, R475. -/
def COLD_WARNING : Nat := 0xA0000005
/-- COLD_LIMIT: S32 RO, R475. -/
def COLD_LIMIT : Nat := 0xA0000006
/-- COLD_HYSTERESIS: S32 RO, R475. -/
def COLD_HYSTERESIS : Nat := 0xA0000007
/-- HEAT_POWER: U32 RW, R475. -/
def HEAT_POWER : Nat := 0xA0000008
/-- POWER_ENABLE: ENUM RW, R475. -/
def POWER_ENABLE : Nat := 0xA0000009
/-- LIFE_WARN: U32 RW, R475. -/
def LIFE_WARN : Nat := 0xA000000A
/-- JUNCTION: S32 RO, R475. -/
def JUNCTION : Nat := 0xA0000010
/-- DIODE: S32 RO, R475. -/
def DIODE : Nat := 0xA0000011
/-- MONITOR: S32 RO, R475. -/
def MONITOR (i : Nat) : Nat := 0xA0000012 + i * 0x10000
/-- MONITOR_OFFSET: S32 RO, R475. -/
def MONITOR_OFFSET (i : Nat) : Nat := 0xA0000013 + i * 0x10000
/-- MONITOR_VALID: FLAGS RO, R475. -/
def MONITOR_VALID : Nat := 0xA0000014
/-- THERMAL_STATE: ENUM RO, R475. -/
def THERMAL_STATE : Nat := 0xA0000015
/-- POWER_NOW: U32 RO, R475. -/
def POWER_NOW : Nat := 0xA0000016
/-- THROTTLE_CAUSE: ENUM RO, R475. -/
def THROTTLE_CAUSE : Nat := 0xA0000017
/-- WARMUP_HEAT_TIME: U32 RO, R475. -/
def WARMUP_HEAT_TIME : Nat := 0xA0000018
/-- SHUTDOWN_RECORD: BLOB RO, R475. -/
def SHUTDOWN_RECORD : Nat := 0xA0000019
/-- LIFE_WEIGHTED: U64 RO, R475. -/
def LIFE_WEIGHTED : Nat := 0xA0000020
/-- LIFE_POWERED: U64 RO, R475. -/
def LIFE_POWERED : Nat := 0xA0000021
/-- LIFE_RATED: U64 RO, R475. -/
def LIFE_RATED : Nat := 0xA0000022
/-- LIFE_USED: U32 RO, R475. -/
def LIFE_USED : Nat := 0xA0000023
/-- PROFILE_SECONDS: U64 RO, R475. -/
def PROFILE_SECONDS (i : Nat) : Nat := 0xA0000024 + i * 0x10000
/-- LIFE_RATE: Q16.16 RO, R475. -/
def LIFE_RATE : Nat := 0xA0000025
/-- THROTTLE_STEPS: U64 RO, R475. -/
def THROTTLE_STEPS : Nat := 0xA0000030
/-- RESTORE_STEPS: U64 RO, R475. -/
def RESTORE_STEPS : Nat := 0xA0000031
/-- FLOOR_HOLDS: U64 RO, R475. -/
def FLOOR_HOLDS : Nat := 0xA0000032
/-- WARNINGS: U64 RO, R475. -/
def WARNINGS : Nat := 0xA0000033
/-- COLD_EXCURSIONS: U64 RO, R475. -/
def COLD_EXCURSIONS : Nat := 0xA0000034
/-- MONITOR_FAULTS: U64 RO, R475. -/
def MONITOR_FAULTS : Nat := 0xA0000035
/-- SHUTDOWN_COUNT: U64 RO, R475. -/
def SHUTDOWN_COUNT : Nat := 0xA0000036

end Th

/-! Parameter IDs of group 0xB0 (R13). -/
namespace Obs

/-- TRACE_PORT_ENABLE: ENUM RW, R495. -/
def TRACE_PORT_ENABLE : Nat := 0xB0000001
/-- TRACE_PORT_TYPES: FLAGS RW, R495. -/
def TRACE_PORT_TYPES : Nat := 0xB0000002
/-- TRACE_SYNC_INTERVAL: U32 RW, R495. -/
def TRACE_SYNC_INTERVAL : Nat := 0xB0000003
/-- TRACE_CONTEXTS: FLAGS RW, R495. -/
def TRACE_CONTEXTS : Nat := 0xB0000004
/-- BOOT_SLOT: ENUM RO, R495. -/
def BOOT_SLOT : Nat := 0xB0000010
/-- SLOT_GENERATION: U32 RO, R495. -/
def SLOT_GENERATION (i : Nat) : Nat := 0xB0000011 + i * 0x10000
/-- SLOT_SEC_VERSION: U32 RO, R495. -/
def SLOT_SEC_VERSION (i : Nat) : Nat := 0xB0000012 + i * 0x10000
/-- SLOT_STATUS: ENUM RO, R495. -/
def SLOT_STATUS (i : Nat) : Nat := 0xB0000013 + i * 0x10000
/-- BOOT_FAILS: U32 RO, R495. -/
def BOOT_FAILS (i : Nat) : Nat := 0xB0000014 + i * 0x10000
/-- SEC_VERSION_FLOOR: U32 RO, R495. -/
def SEC_VERSION_FLOOR : Nat := 0xB0000015
/-- KEY_HASH: BLOB RO, R495. -/
def KEY_HASH : Nat := 0xB0000016
/-- BOOT_TIME_NMP: U32 RO, R495. -/
def BOOT_TIME_NMP : Nat := 0xB0000017
/-- BOOT_TIME_TICK: U32 RO, R495. -/
def BOOT_TIME_TICK : Nat := 0xB0000018
/-- WDT_TIMEOUT: U32 RO, R495. -/
def WDT_TIMEOUT : Nat := 0xB0000019
/-- LEDGER_FAULT_RECORD: BLOB RO, R495. -/
def LEDGER_FAULT_RECORD : Nat := 0xB0000020
/-- COUNTER_RESETS: U64 RO, R495. -/
def COUNTER_RESETS : Nat := 0xB0000030
/-- SNAPSHOTS: U64 RO, R495. -/
def SNAPSHOTS : Nat := 0xB0000031
/-- TRACE_RECORDS: U64 RO, R495. -/
def TRACE_RECORDS : Nat := 0xB0000032
/-- TRACE_DROPPED: U64 RO, R495. -/
def TRACE_DROPPED (i : Nat) : Nat := 0xB0000033 + i * 0x10000
/-- SUBSCRIPTIONS: U32 RO, R495. -/
def SUBSCRIPTIONS : Nat := 0xB0000034
/-- LEDGER_WRITES: U64 RO, R495. -/
def LEDGER_WRITES : Nat := 0xB0000035
/-- LEDGER_CRC_ERRORS: U64 RO, R495. -/
def LEDGER_CRC_ERRORS : Nat := 0xB0000036

end Obs

end Sys2Proof.Machine
end

