-- ==== Sys2Proof/Machine/State.lean ====
section
/-! DEFINITION. The state of the block as plain data: every register, table, queue, counter, mode and pin the spec gives
it, the queue of commands that wait, and the state after reset. -/

namespace Sys2Proof.Machine

/-- Why a command stops the machine. -/
inductive Fault where
  /-- Raised by POWER_ON_SUPPLIES_VALID for a bank supply beyond the absolute maximum of Table 20-1 (R496): the spec says
  the device can be damaged and gives no behaviour. Safe: the machine stops where hardware may go on. -/
  | absoluteMaximum
  deriving DecidableEq, Repr

/-- Why a command has no meaning. -/
inductive Refusal where
  /-- Answered by exec's arm of a command that has no meaning yet. Safe: nothing can be proved of it. -/
  | notModelled (mnemonic : String)
  deriving DecidableEq, Repr

/-! ## What the machine sends out (the model's own record, newest first) -/

/-- An NMP message from the device: session, SEQUENCE, OPCODE, STATUS and payload (Table 03-1). -/
structure Msg where
  sess : Nat
  seq : Nat
  op : Nat
  status : Nat
  payload : List Byte
  deriving DecidableEq, Repr

/-- How a frame is marked: the VLAN of its 802.1Q tag, 0 untagged, the tag's PCP, and the DSCP (R310, Table 12-9). -/
structure Marking where
  vlan : Nat := 0
  pcp : Nat := 0
  dscp : Nat := 0
  deriving DecidableEq, Repr

/-- What leaves the device: NMP messages, trace records, packets, bus and pin activity. -/
inductive Output where
  /-- An NMP message on an Ethernet port to an address and UDP port; `keyed` is false for the unauthenticated replies of R68. -/
  | nmp (port : Nat) (dest : Peer) (mark : Marking) (keyed : Bool) (m : Msg)
  /-- A trace record sent to a destination: 0 is the trace port, 1 to 4 the subscriptions (R491). -/
  | trace (dest : Nat) (record : List Byte)
  /-- An output pin or pin group driven to a level; level 2 is high impedance. -/
  | pin (name : String) (level : Nat)
  /-- Bytes written to the QSPI flash at an address (Table 19-1). -/
  | flash (addr : Nat) (bytes : List Byte)
  /-- A packet on an Ethernet port: what it is, and its content from the layer the spec defines upward. -/
  | packet (port : Nat) (kind : String) (mark : Marking) (bytes : List Byte)
  /-- A block on a Tick Ring port (R330). -/
  | ringBlock (port : Nat) (type : Nat) (payload : Nat)
  /-- An I2C transaction started on a bus: address byte first. -/
  | i2c (bus : Nat) (bytes : List Byte)
  /-- A command to an SSD on a root port: what it is, first set block, block count. -/
  | ssd (port : Nat) (kind : String) (lba count : Nat)
  /-- An NVMe-oF capsule to a host: port, controller, queue, command identifier, status field, result dwords and data. -/
  | nvme (port : Nat) (mark : Marking) (cntlid qid cid status result : Nat) (data : List Byte)
  /-- A connect reply of the storage target or the buffer service: accepted, and the reason where it is not. -/
  | connect (port : Nat) (mark : Marking) (accepted : Bool) (reason : Nat)
  /-- One sample frame on an audio port, slot by slot. -/
  | audio (port : Nat) (slots : List Nat)
  /-- What a display head does to its link or raster. -/
  | display (head : Nat) (what : String) (value : Nat)
  /-- The pixels of an active line on a head's link, each with the codes of its components; with 4:2:2 an odd pixel carries Y′ alone. -/
  | pixels (head line : Nat) (codes : List (List Nat))
  /-- A DRAM command on a channel and subchannel. -/
  | dram (ch sub : Nat) (cmd : String) (arg : Nat)
  deriving DecidableEq, Repr

/-- A staged or committed value (R77): a number, BLOB bytes, or a BLOB passed by buffer handle with its byte count. -/
inductive PVal where
  | num (v : Nat)
  | blob (b : List Byte)
  | handle (h n : Nat)
  deriving DecidableEq, Repr

/-! ## Power, reset, boot and the Ledger (spec/01, 18, 19, 20) -/

/-- The global device states of Table 01-5. -/
inductive GState where
  | off | boot | warmup | ready | run | faultHold | thermalOff
  deriving DecidableEq, Repr

/-- Where BOOT stands. -/
inductive BootPhase where
  /-- RST_N low, or internal reset not yet ended (R476). -/
  | inReset
  /-- The boot ROM has no valid board configuration block (R479). -/
  | badConfig
  /-- Waiting for the junction estimate to fall after THERMAL_OFF (R466). -/
  | cooling
  /-- Reading and verifying the image of a slot (R482). -/
  | verifying (slot : Nat)
  /-- No bootable image (R483). -/
  | noImage
  /-- Negor executes. -/
  | started
  deriving DecidableEq, Repr

/-- One Ledger location: the internal sequence of its record and the record. An absent record is no entry (R485). -/
structure LedgerRec where
  seq : Nat := 0
  bytes : List Byte := []
  deriving DecidableEq, Repr

/-- The fields of the board configuration block that the device uses (Table 19-2). -/
structure BoardCfg where
  density : Nat := 0
  dataWidth : Nat := 0
  checkWidth : Nat := 0
  ranks : Nat := 0
  tRp : Nat := 0
  tRfc1 : Nat := 0
  tRfcSb : Nat := 0
  tRfm : Nat := 0
  deriving DecidableEq, Repr

/-- Power, reset, boot and restart state. -/
structure PowerSt where
  global : GState := .boot
  phase : BootPhase := .inReset
  /-- Device clock at which internal reset may end. -/
  resetEnd : Nat := 0
  /-- Device clock of the RST_N rise, the origin of the boot times. -/
  bootStart : Nat := 0
  /-- Set after THERMAL_OFF until the boot ROM's wait is over (R466). -/
  afterThermalOff : Bool := false
  /-- A watchdog restart is under way: Negor does not answer (R24). -/
  restarting : Bool := false
  /-- Consecutive restarts without confirmation (R478). -/
  unconfirmed : Nat := 0
  /-- Device clock at which a start that is not confirmed counts as failed (R478, R483). -/
  confirmDue : Nat := 0
  /-- Negor has confirmed this start. -/
  confirmed : Bool := false
  /-- Device clock at which a DEVICE_RESTART takes effect (R477). -/
  restartDue : Option Nat := none
  board : BoardCfg := {}
  /-- Image headers read at the latest BOOT, slots 1 to 3, as 4,096 bytes each; empty where not read. -/
  headers : Table (List Byte) := []
  /-- Banks whose balls are released (R501): bit 0 I2CA, 1 I2CB, 2 AUD, 3 SYNC. -/
  banksReleased : Nat := 0
  /-- Sensed bank voltages: bit b set for 3.3 V (R501). -/
  banksHigh : Nat := 0
  thermShdn : Bool := false
  /-- CORE_VID code (R498). -/
  coreVid : Nat := 5
  /-- Output pins are in their reset state (R476). -/
  pinsReset : Bool := true
  /-- Every clock but AON is stopped (R476, R465). -/
  clocksStopped : Bool := true
  /-- The clock set in force (R468, Table 02-7): CORE in MHz, 0 where it is gated (R20), NOC and CPU in kHz, rounded down. -/
  coreMHz : Nat := 1500
  nocKHz : Nat := 1200000
  cpuKHz : Nat := 1600000
  ledger : Table LedgerRec := []
  /-- Ledger writes waiting for a tick gap: first location, last location, record (R485, Table 02-6). -/
  ledgerQueue : List (Nat × Nat × List Byte) := []
  /-- Restart-rule values stored in the Ledger, by parameter ID (R80). -/
  restartValues : Table Nat := []
  deriving DecidableEq, Repr

/-! ## The Frame Tick and the plan (spec/02) -/

/-- A plan change that waits for a tick edge (R41, R58): the entries of an admitted commit. -/
structure Admitted where
  r : Req
  op : Nat
  /-- All entries of the commit, and those that apply at the edge. -/
  ids : List Nat
  vals : List (Nat × PVal)
  target : Nat
  /-- It changes the DRAM speed, or waits for such a change, and is not in force at the next tick edge (R54). -/
  slow : Bool := false
  deriving DecidableEq, Repr

/-- Tick state beyond the parameters. -/
structure TickSt where
  /-- Device clock of the latest tick edge. -/
  edgeAt : Nat := 0
  /-- The ideal position of the latest edge in ns × TICK_RATE_N, on the device clock (R34). -/
  pos : Nat := 0
  /-- A tick has been placed since BOOT, and the ticks run. -/
  running : Bool := false
  first : Bool := true
  /-- The tick source in force: TICK_SOURCE or an entry of TICK_FALLBACK, and the next entry (R38). -/
  src : Nat := 0
  fallback : Nat := 0
  /-- Consecutive ticks with a phase error within ±100 ns. -/
  lockRun : Nat := 0
  holdAt : Nat := 0
  /-- A re-phase is due: 1 under TICK_REPHASE, 2 with a frame slip (R329). -/
  rephase : Nat := 0
  /-- Shift of the FREE phase still to be made, in ns (R36). -/
  owed : Int := 0
  /-- The sync input whose rate change is being accepted. -/
  slipInput : Nat := 0
  /-- The tick budget of this tick has ended; the gap has begun (R49). -/
  budgetOver : Bool := false
  gap : Bool := false
  /-- The ST 2110 packet builders still run their job of this tick after its budget (R40, R46). -/
  building : Bool := false
  /-- Maintenance (Table 02-6): activities waiting, as a mask; tick gaps each has waited; DRAM channels their requests name, as
  (activity, channel); the running one; one has run in this gap. -/
  waiting : Nat := 0
  waits : Table Nat := []
  chans : List (Nat × Nat) := []
  active : Option Nat := none
  ran : Bool := false
  /-- Plan changes to apply at the next edge, in order of admission. -/
  admitted : List Admitted := []
  /-- A re-admission is under way, and one is complete and applies at the next edge (R58). -/
  readmitting : Bool := false
  readmitted : Bool := false
  /-- The shed level by 5 W step below the profile cap, as Negor hands it to the thermal unit (R57). -/
  shedTable : List Nat := []
  /-- The thermal and power unit has stepped the cap down since the latest edge: its shed level is to be announced (R58, R60). -/
  shedDue : Bool := false
  /-- The memory controller is out of service for a change of the DRAM speed (R54), for this profile. -/
  dramChange : Bool := false
  dramTarget : List (Nat × Nat) := []
  /-- The commit that asked for it. -/
  dramFor : Option Req := none
  deriving DecidableEq, Repr

/-! ## NMP (spec/03) -/

/-- An ownership cell (R82): OWNER 0 is free; the lease in ms; EXPIRY in AON cycles of 40 ns. -/
structure Cell where
  owner : Nat := 0
  gen : Nat := 0
  lease : Nat := 0
  expiry : Nat := 0
  orphan : Bool := false
  deriving DecidableEq, Repr

/-- A host buffer (R87 to R90). -/
structure Buffer where
  handle : Nat := 0
  cell : Nat := 0
  size : Nat := 0
  key : Nat := 0
  keyValid : Bool := false
  va : Nat := 0
  /-- BUF_FREE has executed. -/
  freed : Bool := false
  /-- The session that sent BUF_FREE. -/
  freedBy : Nat := 0
  /-- RDMA messages in progress. -/
  inProgress : Nat := 0
  /-- The BUF_FREE request that waits for them. -/
  waiting : Option Req := none
  deriving DecidableEq, Repr

/-- A staged entry (R78): its value and the generation of its cell at staging. -/
structure Staged where
  id : Nat
  val : PVal
  gen : Nat
  deriving DecidableEq, Repr

/-- A request accepted and not yet answered (R71). -/
structure Inflight where
  seq : Nat
  op : Nat
  port : Nat
  payload : List Byte
  deriving DecidableEq, Repr

/-- A NOTIFY not yet acknowledged (R92): times it has been sent and the clock of the latest sending. -/
structure Unacked where
  seq : Nat
  payload : List Byte
  sends : Nat
  sentAt : Nat
  deriving DecidableEq, Repr

/-- An NMP session (R67 to R72, R91, R92). -/
structure Session where
  key : List Byte := []
  /-- Ethernet port and address to which NOTIFY messages go: those of the SESSION_OPEN request. DESIGN CHOICE: R91 names none. -/
  port : Nat := 0
  peer : Peer := {}
  mask : Nat := 0
  /-- H, the highest SEQUENCE accepted; none before the first request. -/
  high : Option Nat := none
  /-- Bit k set: H − k has been accepted. -/
  window : Nat := 0
  /-- Cached replies by SEQUENCE. -/
  cache : Table Msg := []
  inflight : List Inflight := []
  staged : List Staged := []
  notifySeq : Nat := 0
  unacked : List Unacked := []
  /-- A NOTIFY was dropped since the latest one sent: the next carries CODE bit 15. -/
  dropped : Bool := false
  lastRequest : Nat := 0
  deriving DecidableEq, Repr

/-- A segmented request being assembled (R66). -/
structure Partial where
  firstAt : Nat := 0
  op : Nat := 0
  count : Nat := 0
  segs : Table (List Byte) := []
  deriving DecidableEq, Repr

/-- What a reply that is held back waits for. -/
inductive WaitFor where
  /-- The DRAM speed change (R54). -/
  | dramSpeed
  /-- The latch of a display head (R299). -/
  | headLatch (h : Nat)
  /-- The load of a pending LUT slot (R229). -/
  | lutLoad (ctx rend : Nat)
  /-- The end of a host descriptor list (R279). -/
  | xferList (bus : Nat)
  /-- The end of MEDIA_FORMAT (R348). -/
  | mediaFormat
  /-- The end of the commit itself (0), or the tick edge at which its head values reach their heads (1). -/
  | event (n : Nat)
  deriving DecidableEq, Repr

/-- A reply held back until what it waits for has come: the request, its opcode, the tick edge it reports, its status. -/
structure Wait where
  r : Req
  op : Nat
  edge : Nat
  status : Nat
  why : WaitFor
  /-- The PLAN_GENERATION that the reply carries; none for the one in force when it is sent. -/
  gen : Option Nat := none
  /-- What the reply carries after the fields of R79: by head, and 4 for the Ticket rule. -/
  tails : Table (List Byte) := []
  deriving DecidableEq, Repr

/-- NMP state beyond the parameters. -/
structure NmpSt where
  sessions : Table Session := []
  /-- The session ID assigned last (R68). -/
  lastId : Nat := 0
  cells : Table Cell := []
  /-- Buffers by the order of their allocation. -/
  buffers : Table Buffer := []
  bufSerial : Nat := 0
  /-- Content of buffers: address is serial × 2^28 + offset. -/
  mem : List Host.Cell := []
  /-- Segments of requests, keyed by session × 2^32 + SEQUENCE. -/
  partials : Table Partial := []
  /-- Device clock of the unauthenticated replies of the latest second (R68). -/
  authReplies : List Nat := []
  /-- Replies held back. -/
  waits : List Wait := []
  /-- The owner key in force (R69). -/
  ownerKey : List Byte := List.replicate 32 0
  deriving DecidableEq, Repr

/-! ## Sensor ports (spec/04) -/

/-- A sensor lane beyond its parameters (R101 to R124). -/
structure LaneSt where
  /-- The last 58 received payload bits, the latest in bit 57 (R102). -/
  scram : Nat := 0
  /-- Kind (1 normal, 2 inverted) and number of consecutive pieces of polarity evidence (R114). -/
  evKind : Nat := 0
  evCount : Nat := 0
  /-- Consecutive valid headers in BLOCK_LOCK, and the invalid headers of the last 64 blocks as bits (R115). -/
  validRun : Nat := 0
  badHist : Nat := 0
  /-- Failed attempts in a row (R112). -/
  attempts : Nat := 0
  /-- The lane shows no signal (R113), and the device clock since which it does. -/
  noSignal : Bool := false
  lowAt : Nat := 0
  /-- Device clock at which the present state, or the present wait in it, began. -/
  since : Nat := 0
  /-- A line-health retest runs in LINE_FAULT (R99). -/
  testing : Bool := false
  /-- The last valid ALIGN payload in IDENTIFY and its position in UI. -/
  lastAlign : Option (Nat × Nat) := none
  /-- Why the lane is held in IDENTIFY (Table 04-11); 0 not held. -/
  held : Nat := 0
  /-- The LANE_ID it claims (R116). -/
  claim : Option Nat := none
  /-- Consecutive ALIGN CHECK failures in UP (R121). -/
  checkFails : Nat := 0
  /-- MARKER_COUNT and arrival in UI of the last ALIGN, and whether it broke its own sequence. -/
  marker : Option (Nat × Nat) := none
  jumped : Bool := false
  /-- Rejoined, and waiting for the next FRAME_START (R124). -/
  rejoin : Bool := false
  /-- Blocks since the last ALIGN, and the latest control blocks, newest first: MARKER_COUNT, blocks since that ALIGN, payload (R105). -/
  pos : Nat := 0
  ctl : List (Nat × Nat × Nat) := []
  /-- Pattern generator: ALIGN blocks it has sent on the lane (R127). -/
  patAligns : Nat := 0
  /-- PRBS checker: the last 31 predicted bits, none before it is seeded (R126). -/
  prbs : Option Nat := none
  deriving DecidableEq, Repr

/-- A sensor port or bond beyond its parameters, kept at the leader. -/
structure PortSt where
  /-- A DESKEW_FAIL series runs (R118). -/
  deskewSeries : Bool := false
  /-- The positions of the latest CTRL_MISMATCH, so that a position counts once: MARKER_COUNT and blocks since that ALIGN (R105). -/
  mismatchAt : List (Nat × Nat) := []
  /-- Deskew is done and no FRAME_START has come yet: what comes before it is a partial frame (R118). -/
  fresh : Bool := false
  /-- FRAME_COUNT of the FRAME_START of the frame on the link; none between frames. -/
  linkFrame : Option Nat := none
  /-- The frame on the link has carried a lane loss (R122). -/
  frameLost : Bool := false
  /-- The frame on the link was discarded under R134. -/
  discarding : Bool := false
  /-- Last LINE_NUMBER per LINE_TYPE of the frame on the link (R110). -/
  lastLine : Table Nat := []
  /-- A frame has opened since BOOT or since PORT_ENABLE 1 (R184). -/
  framed : Bool := false
  /-- Pattern generator: FRAME_COUNT of the next frame, and the next line of the running one (R127). -/
  patFrame : Nat := 0
  patLine : Nat := 0
  patRunning : Bool := false
  /-- Device clock of its block position 0; the position of the running frame's FRAME_START; the first position after the latest frame; it has
  stopped physical lane 0. -/
  patEpoch : Nat := 0
  patStart : Nat := 0
  patNext : Nat := 0
  patStopped : Bool := false
  deriving DecidableEq, Repr

/-- A trigger output (R128, R129). -/
structure TrigSt where
  /-- The divisor counter, and whether it is to be loaded with XTRIG_PHASE at the next tick edge. -/
  count : Nat := 0
  load : Bool := false
  /-- Device clock at which the next pulse starts, and at which the present one ends. -/
  startAt : Option Nat := none
  endAt : Option Nat := none
  /-- XTRIG_POLARITY has been committed since RST_N low. -/
  polarised : Bool := false
  deriving DecidableEq, Repr

/-! ## Sensor Descriptions (spec/09) -/

/-- A control entry (Table 09-2). -/
structure Ctl where
  control : Nat
  order : Nat
  bytes : Nat
  reg : Nat
  verify : Nat
  num : Nat
  den : Nat
  offset : Int
  minCode : Nat
  maxCode : Nat
  dflt : Nat
  deriving DecidableEq, Repr

/-- A sequence entry (Table 09-4). -/
inductive SeqOp where
  | write (reg bytes order value : Nat)
  | wait (us : Nat)
  deriving DecidableEq, Repr

/-- A mode entry with its sequence (Table 09-4). -/
structure SMode where
  id : Nat
  bondWidth : Nat
  laneRate : Nat
  width : Nat
  samples : Nat
  lines : Nat
  seq : List SeqOp
  deriving DecidableEq, Repr

/-- A Sensor Description (R246). -/
structure Desc where
  windowOpen : Nat
  windowClose : Nat
  verifyType : Nat
  degrade : Nat
  delay : Nat
  speed : Nat
  ptrBytes : Nat
  addr : Nat
  bus : Nat
  controls : List Ctl
  modes : List SMode
  deriving DecidableEq, Repr

/-! ## Ingest and frames (spec/05, 06) -/

/-- A region record (Table 05-4). -/
structure Region where
  kind : Nat
  lane : Nat := 0
  laneCount : Nat := 0
  count : Nat := 0
  y : Nat := 0
  x : Nat := 0
  /-- Lines a PAD record covers. -/
  padLines : Nat := 0
  deriving DecidableEq, Repr

/-- The configuration a frame opens with (R135, R181). -/
structure FrameCfg where
  ctx : Nat := 0
  lines : Nat := 0
  samples : Nat := 0
  width : Nat := 0
  cfa : Nat := 0
  deadline : Nat := 0
  pedestal : Nat := 0
  black : List Nat := []
  embed : Bool := false
  mapGen : Nat := 0
  /-- The static defect map in force. -/
  map : List Byte := []
  lossless : Bool := false
  budget : Nat := 0
  maxStep : Nat := 0
  slots : Nat := 4
  /-- ISP parameters of the context that the frame carries (R259), by parameter ID. -/
  isp : List (Nat × Nat) := []
  /-- Codes of the sensor controls that the frame carries, by control entry (R256). -/
  controls : List (Nat × Nat) := []
  /-- The Sensor Description in force, whose control entries the codes belong to. -/
  desc : Option Desc := none
  deriving DecidableEq, Repr

/-- A frame from its FRAME_START until its slot is used again: what ingest counts, its samples until they are encoded, its
tiles, and the fields of its ticket (Table 05-5). -/
structure Frame where
  cfg : FrameCfg := {}
  port : Nat := 0
  /-- The number of the frame on its port, and its ticket number in its context. -/
  number : Nat := 0
  ticket : Nat := 0
  tickSeq : Nat := 0
  time : Nat := 0
  startClock : Nat := 0
  epoch : Nat := 0
  frameCount : Nat := 0
  exposureId : Nat := 0
  ispGen : Nat := 0
  flags : Nat := 0
  cause : Nat := 0
  /-- Lines placed or filled so far: P + 1 (R142). -/
  next : Nat := 0
  received : Nat := 0
  lenMin : Nat := 0
  lenMax : Nat := 0
  linesSent : Nat := 0
  filled : Nat := 0
  discarded : Nat := 0
  padded : Nat := 0
  cut : Nat := 0
  crcLines : Nat := 0
  /-- An active line has arrived (R147); embedded lines accepted before and after it, and by LINE_TYPE 1 and 2. -/
  activeSeen : Bool := false
  embBefore : Nat := 0
  embAfter : Nat := 0
  emb1 : Nat := 0
  emb2 : Nat := 0
  embed : List Byte := []
  /-- Bytes of embedded lines 0 of LINE_TYPE 1 and 2, for verification (R263). -/
  verify : Table (List Byte) := []
  lanesMissing : Nat := 0
  regions : List Region := []
  overflow : Bool := false
  endTime : Nat := 0
  endEpoch : Nat := 0
  closed : Bool := false
  /-- Lines placed or filled, in order, with samples after R148; lines already encoded are dropped. -/
  rows : List (List Nat) := []
  /-- Tile rows written to the slot (R180), as tiles. -/
  tiles : List (List (List Byte)) := []
  flat : Nat := 0
  maxStep : Nat := 0
  bound : Nat := 0
  trfBytes : Nat := 0
  ticketWritten : Bool := false
  statsHandle : Nat := 0
  /-- A job has taken the frame, or its context was activated anew since (R189); jobs that still run on it; the ticket is final
  (R155). -/
  taken : Bool := false
  jobs : Nat := 0
  final : Bool := false
  /-- Handles of the frame defect list and of the embedded record. -/
  defectHandle : Nat := 0
  embedHandle : Nat := 0
  deriving DecidableEq, Repr

/-- Ingest of one port. -/
structure IngSt where
  /-- The frame that is OPEN (R138). -/
  frame : Option Frame := none
  /-- Closed frames whose ticket is not written yet, oldest first. -/
  closing : List Frame := []
  /-- Frame slots, keyed by frame number mod TRF_SLOTS: frames with a written ticket (R178). -/
  slots : Table Frame := []
  /-- The number of the next frame (R178). -/
  count : Nat := 0
  deriving DecidableEq, Repr

/-- Ticket numbering of a context (R153). -/
structure TicketSt where
  next : Nat := 0
  ispGen : Nat := 0
  /-- TIME_EPOCH of the previous ticket since activation. -/
  lastEpoch : Option Nat := none
  deriving DecidableEq, Repr

/-! ## Chamois (spec/07, 08) -/

/-- A TNR reference (R204): the job frame it came from, its exposure as an exact ratio (R260), the configuration that a change
of invalidates it (Table 07-5), and its tile array. -/
structure TnrRef where
  ticket : Nat
  exposureId : Nat
  expoNum : Nat
  expoDen : Nat
  port : Nat
  lines : Nat
  samples : Nat
  width : Nat
  cfa : Nat
  lossless : Bool
  tiles : List (List (List Byte))
  deriving DecidableEq, Repr

/-- A job of a context (R190): its frame by port and slot, what it makes, and how far it is. -/
structure Job where
  port : Nat
  slot : Nat
  ticket : Nat
  /-- Device clock of the tick edge that the job belongs to. -/
  edgeAt : Nat
  early : Bool
  /-- Renditions produced, with the buffer each writes. -/
  bufs : List (Nat × Nat)
  /-- The job computes statistics, and renders a scope plane. -/
  stats : Bool
  scope : Bool
  /-- References in use and valid, and whether the output is written. -/
  ref1 : Bool
  ref2 : Bool
  writes : Bool
  /-- Stripes, and the stripe being processed. -/
  stripes : Nat
  stripe : Nat := 0
  started : Bool := false
  deriving DecidableEq, Repr

/-- A rendition beyond its parameters: its buffers, the latest completed one, and which consumer holds which (R234). -/
structure RendSt where
  bufs : Table (List Byte) := []
  latest : Option Nat := none
  /-- Ticket of the latest completed frame. -/
  ticket : Nat := 0
  /-- The frame ticket record of that frame, final (R155, R319). -/
  record : List Byte := []
  /-- Consumers that hold a buffer: 4h + l for layer l of head h, 16 + n for ST 2110 sender n. -/
  held : List (Nat × Nat) := []
  /-- The output repeats its previous frame. -/
  repeats : Bool := false
  /-- The pending LUT image, and whether its load is complete (R229). -/
  lutPend : Option (List Byte) := none
  lutLoaded : Bool := false
  /-- Buffers exist: the rendition is enabled in the plan in force. -/
  on : Bool := false
  deriving DecidableEq, Repr

/-- A context slot beyond its parameters. -/
structure CtxSt where
  /-- The divisor counter (R45), and whether it is loaded with the phase at the next tick edge. -/
  counter : Nat := 0
  load : Bool := false
  /-- Boundary-rule values waiting for the next job boundary (R201), in order of commit. -/
  waiting : List (Nat × PVal) := []
  ref1 : Option TnrRef := none
  ref2 : Option TnrRef := none
  job : Option Job := none
  rends : Table RendSt := []
  /-- The newest frame a job of the context has considered, by port and frame number. -/
  seen : Option (Nat × Nat) := none
  /-- Frames that qualified for the next job when their slot was used again (R191). -/
  missed : Nat := 0
  /-- The binding has changed since the latest job (Table 07-5). -/
  rebound : Bool := false
  /-- SEQ of the latest record set (R239). -/
  seq : Nat := 0
  /-- Halves of the scope buffer that heads hold: (head, half) (R297). -/
  scopeHeld : List (Nat × Nat) := []
  /-- SCOPE_BUFFER and SCOPE_SIZE of the latest completed scope plane (R298). -/
  scopeIn : Option (Nat × Nat) := none
  /-- Jobs since S8 was applied. -/
  s8 : Nat := 0
  deriving DecidableEq, Repr

/-- The Scene section: the job that runs, those that wait in order, the early-start job that waits, the stripe-mode job that
yielded to it (R192, R196). -/
structure SceneSt where
  running : Option Nat := none
  queue : List Nat := []
  early : Option Nat := none
  yielded : Option Nat := none
  /-- Tick edges since S10 was applied: 0 at the edge that applies it. -/
  s10 : Nat := 0
  deriving DecidableEq, Repr

/-! ## Sensor control and exposure (spec/09) -/

/-- An ISP set: the ticket on which it takes effect and its values by parameter ID (R257). -/
structure IspSet where
  first : Nat
  vals : List (Nat × Nat)
  deriving DecidableEq, Repr

/-- An exposure change (R255): from acceptance until it has taken effect. -/
structure Change where
  id : Nat
  /-- The request to answer; none for the defaults of a mode. -/
  r : Option Req := none
  /-- Codes by control entry, in ascending order of control code. -/
  codes : List (Nat × Nat) := []
  /-- The original target ticket T. -/
  target : Nat := 0
  /-- The window ticket W in use and the first frame. -/
  win : Nat := 0
  first : Nat := 0
  shifted : Bool := false
  /-- Its transactions have all completed; the outcome is decided. -/
  written : Bool := false
  /-- The values bound to it (R258). -/
  isp : List (Nat × Nat) := []
  /-- The ticket numbering it was armed under has ended while it was being written (R518). -/
  ended : Bool := false
  deriving DecidableEq, Repr

/-- Exposure state of a port. -/
structure ExpSt where
  desc : Option Desc := none
  nextId : Nat := 1
  /-- Pending changes, in order of acceptance. -/
  pend : List Change := []
  /-- Written changes whose first frame has not opened. -/
  waiting : List Change := []
  /-- The defaults of the mode being selected, waiting for their first frame to be known (R249). -/
  defaults : Option Change := none
  /-- Codes in force on the latest frame, by control entry, and their EXPOSURE_ID (R256). -/
  eff : Table Nat := []
  effId : Nat := 0
  /-- Codes last written whole to the sensor, and the ID of that change. -/
  sent : Table Nat := []
  sentId : Nat := 0
  /-- Frames, by ticket number, known to carry LATE_BIND. -/
  lateFrames : List Nat := []
  /-- Later frames that carry LATE_BIND whatever their number (R249, R518). -/
  lateCount : Nat := 0
  /-- Windows of opened frames: ticket number, opening and closing clock (R250). -/
  wins : List (Nat × Nat × Nat) := []
  /-- Tickets of those whose opening has been dealt with. -/
  winsDone : List Nat := []
  /-- Target tickets of pending changes whose frame carries LATE_BIND (Table 09-8). -/
  lateOpen : List Nat := []
  /-- The full set of values is to be written in each later window (R262). -/
  restoring : Bool := false
  /-- Device clock at which a failed mode sequence starts again (R249). -/
  modeRetry : Option Nat := none
  isp : List IspSet := []
  /-- FRAME_COUNT of the previous frame. -/
  lastCount : Option Nat := none
  deriving DecidableEq, Repr

/-! ## I2C (spec/10) -/

/-- One transaction: from START to STOP (R276). `op` is 0 WRITE, 1 READ, 2 QUICK, 3 a poll (R278). -/
structure Xact where
  op : Nat := 0
  addr : Nat := 0
  speed : Nat := 0
  ptr : Nat := 0
  ptrBytes : Nat := 0
  data : List Byte := []
  len : Nat := 0
  poll : Nat := 0
  /-- Retries made, and the code of the attempt before (R286). -/
  tries : Nat := 0
  code : Nat := 0
  /-- The host transaction has been counted in HOST_DEFERRED, and in HOST_OVERRAN. -/
  deferred : Bool := false
  overran : Bool := false
  deriving DecidableEq, Repr

/-- A step of sensor work: a transaction or a wait in µs. -/
inductive SensorStep where
  | xact (x : Xact)
  | wait (us : Nat)
  deriving DecidableEq, Repr

/-- What a piece of sensor work is. -/
inductive SensorKind where
  /-- The write set of a change, by its EXPOSURE_ID (R251). -/
  | change (id : Nat)
  /-- A mode sequence and the defaults that follow it (R249). -/
  | mode
  /-- The full set of values in force (R262). -/
  | restore
  deriving DecidableEq, Repr

/-- Sensor work on a bus. -/
structure SensorJob where
  port : Nat
  kind : SensorKind
  steps : List SensorStep
  /-- The window ticket it is armed for. -/
  win : Nat := 0
  /-- Its first transaction has started, in a window that closes at this device clock. -/
  started : Bool := false
  close : Nat := 0
  /-- Its number on the bus. -/
  serial : Nat := 0
  /-- Device clock until which a WAIT lasts. -/
  waitUntil : Option Nat := none
  deriving DecidableEq, Repr

/-- A host descriptor list in progress (R279). -/
structure HostList where
  r : Option Req := none
  /-- Transactions left of each descriptor left. -/
  descs : List (List Xact) := []
  done : Nat := 0
  reads : List Byte := []
  readBytes : Nat := 0
  /-- The code 4 warning of the last descriptor. -/
  warn : Nat := 0
  deriving DecidableEq, Repr

/-- A bus beyond its parameters. -/
structure BusSt where
  sensor : List SensorJob := []
  /-- The host queue: the list in progress first (R280). -/
  hosts : List HostList := []
  /-- The transaction in progress, true where it is the host's; and the sensor work it belongs to, by number. -/
  cur : Option (Bool × Xact) := none
  curOf : Nat := 0
  /-- Numbers given to sensor work so far. -/
  serials : Nat := 0
  /-- Polling runs until this device clock (R278); retries of the poll in turn (R286). -/
  pollEnd : Option Nat := none
  pollTries : Nat := 0
  /-- Device clock at which the bus entered its state. -/
  since : Nat := 0
  /-- The code of the fault (R275). -/
  fault : Nat := 0
  deriving DecidableEq, Repr

/-! ## Display heads (spec/11) -/

/-- Values of one commit that wait at a head (R299): the request to answer and its edge, the latch points still to pass, and
whether the commit is late. -/
structure HeadGroup where
  r : Option Req := none
  edge : Nat := 0
  vals : List (Nat × PVal) := []
  skip : Nat := 0
  late : Bool := false
  deriving DecidableEq, Repr

/-- A head beyond its parameters. -/
structure HeadSt where
  hpd : Bool := false
  groups : List HeadGroup := []
  /-- Device clock of the latest display frame start, and whether its latch point has passed. -/
  frameAt : Nat := 0
  latched : Bool := false
  /-- Frames since the count of P frames opened; alignment points in a row below one line (R293). -/
  align : Nat := 0
  good : Nat := 0
  /-- Lines by which V_TOTAL of the frame that an alignment point starts is changed (R293). -/
  trim : Int := 0
  /-- Device clock of the next display frame start; none until a frame of the raster has started (R292, R301). -/
  due : Option Nat := none
  /-- What the DPCD of the sink says (R291): SINK_CAPS takes it when training starts. -/
  caps : Nat := 0
  /-- Values were latched at a line start since the latest latch point (R303). -/
  changed : Bool := false
  /-- Display frame starts until pixels are sent again after self refresh (R304). -/
  wake : Nat := 0
  torn : Bool := false
  /-- Frames in a row in which nothing changed (R303). -/
  idle : Nat := 0
  /-- Rectangles whose next mismatch is notified (R305). -/
  crcArmed : Nat := 255
  /-- Underflows of the frame: layer, line, first pixel (R306). -/
  under : List (Nat × Nat × Nat) := []
  lastUnder : Option Nat := none
  deriving DecidableEq, Repr

/-! ## Device Time (spec/12) -/

/-- How Device Time runs on the device clock: it was `base` ns at clock `ref` and runs `trim` parts per 10^9 fast (R321, R322). -/
structure TimeBase where
  base : Nat := 0
  ref : Nat := 0
  trim : Int := 0
  /-- TIME_SET: the Device Time of the next tick edge (R321). -/
  set : Option Nat := none
  deriving DecidableEq, Repr

/-! ## Ethernet, queue pairs and streams (spec/12) -/

/-- An Ethernet port beyond its parameters (R311, R313). -/
structure EthSt where
  /-- Device clock at which TRAINING began. -/
  since : Nat := 0
  /-- A PFC pause on ROCE_PRIORITY: when it began and when it ends. -/
  pause : Option (Nat × Nat) := none
  /-- Device clock until which pauses are ignored after a storm. -/
  ignoreUntil : Nat := 0
  /-- The device itself has sent PFC and not released it. -/
  sentPause : Bool := false
  /-- RoCEv2 output that a pause holds, oldest first, with the frames it takes (R313). -/
  held : List (Nat × Output) := []
  deriving DecidableEq, Repr

/-- What a queue pair serves. -/
inductive QpUse where
  /-- The buffer service of a session (R315). -/
  | buffer (sess : Nat)
  /-- The admin queue, or an I/O queue, of a controller of the storage target (spec/14). -/
  | nvme (cntlid qid : Nat)
  deriving DecidableEq, Repr

/-- A connected RoCEv2 queue pair (R313, R314). The rate is in parts of 10^9 of the line rate. -/
structure Qp where
  port : Nat
  use : QpUse
  rate : Nat := 1000000000
  /-- Device clock at which the rate last changed, and of the latest transmission not yet acknowledged. -/
  rateAt : Nat := 0
  sentAt : Nat := 0
  retries : Nat := 0
  /-- Path MTU in bytes, and outstanding RDMA READs as responder (Table 12-3). -/
  mtu : Nat := 1024
  reads : Nat := 0
  deriving DecidableEq, Repr

/-- A frame that a video sender is sending (R317): its source, format and geometry, RTP timestamp, packets in all and sent,
and the device clock at which the next one leaves. -/
structure VideoTx where
  ctx : Nat
  rend : Nat
  buf : Nat
  fmt : Nat
  w : Nat
  h : Nat
  stamp : Nat
  total : Nat
  sent : Nat := 0
  nextAt : Nat
  /-- Time between packets, in ns. -/
  gap : Nat
  /-- The consumer number with which the frame holds its buffer. -/
  hold : Nat
  deriving DecidableEq, Repr

/-- An ST 2110 stream beyond its parameters. -/
structure StreamSt where
  /-- Device clock of the alignment point of this tick, where it is still to come. -/
  alignAt : Option Nat := none
  /-- Frames of which not every packet has left, oldest first. -/
  video : List VideoTx := []
  /-- Audio and ancillary packets ready to leave: device clock, RTP timestamp, payload. -/
  ready : List (Nat × Nat × List Byte) := []
  /-- Next RTP sequence number. -/
  seq : Nat := 0
  /-- The buffer and job ticket sent last, by which a repeated frame is known. -/
  last : Option (Nat × Nat) := none
  /-- The source is lost and has been counted (R318). -/
  lost : Bool := false
  /-- Audio sender: sample frames not yet in a packet, oldest first, and the timestamp of the first. -/
  samples : List (List Nat) := []
  firstStamp : Nat := 0
  /-- Audio receiver: packets received and not yet played, by RTP sequence: timestamp, paths that delivered it, sample
  frames. -/
  rx : Table (Nat × Nat × List (List Nat)) := []
  /-- Audio receiver: the sequence number expected to play next. -/
  rxNext : Option Nat := none
  /-- Audio receiver: sequence numbers played lately, newest first. -/
  rxPlayed : List Nat := []
  deriving DecidableEq, Repr

/-! ## PTP and the sync inputs (spec/12) -/

/-- What an Announce message says of a clock (IEEE 1588). -/
structure PtpClock where
  priority1 : Nat
  clockClass : Nat
  accuracy : Nat
  variance : Nat
  priority2 : Nat
  identity : Nat
  steps : Nat
  deriving DecidableEq, Repr

/-- A foreign master: the port it was heard on, its port identity, Announce messages, the clock of the latest, its data. -/
structure PtpMaster where
  port : Nat
  source : Nat
  count : Nat
  heardAt : Nat
  clock : PtpClock
  deriving DecidableEq, Repr

/-- The PTP engine (R322, R323). -/
structure PtpSt where
  foreign : List PtpMaster := []
  /-- Port and port identity of the selected master. -/
  master : Option (Nat × Nat) := none
  /-- A Sync that waits for its Follow_Up: sequence, arrival, correction in ns. -/
  sync : Option (Nat × Nat × Int) := none
  /-- Departure and arrival of the latest Sync, corrections removed from the departure. -/
  t1 : Int := 0
  t2 : Int := 0
  haveSync : Bool := false
  /-- The Delay_Req in flight: sequence and departure. -/
  req : Option (Nat × Nat) := none
  delay : Option Int := none
  announceSeq : Nat := 0
  syncSeq : Nat := 0
  reqSeq : Nat := 0
  deriving DecidableEq, Repr

/-- A sync input (R327, R328): the clock of the latest accepted edge, the measured period in ns, the latest edge of any
kind and the intervals that contradict the period, the source stopped, and accepted edges since an alignment point. -/
structure FsyncSt where
  lastAt : Option Nat := none
  pm : Nat := 0
  rawAt : Option Nat := none
  odd : List Nat := []
  stopped : Bool := false
  /-- Accepted edges since the latest alignment point, and the device clock of that point (R328). -/
  edges : Nat := 0
  alignAt : Option Nat := none
  /-- Device Time of the latest rising and of the latest falling edge (R327). -/
  rise : Nat := 0
  fall : Nat := 0
  deriving DecidableEq, Repr

/-! ## The Tick Ring (spec/12) -/

/-- A ring port beyond its parameters. -/
structure RingPort where
  /-- Hop delays measured, newest first, in ps; at most 16. -/
  delays : List Nat := []
  /-- Sequence of the DELAY_REQ in flight, and of the next one. -/
  req : Option Nat := none
  nextReq : Nat := 0
  /-- A STATUS has come since the port left DOWN. -/
  status : Bool := false
  /-- ROOT_ID of the latest TIME_HI received on the port. -/
  root : Option Nat := none
  /-- The port is the parent port of its neighbour (R330). -/
  child : Bool := false
  deriving DecidableEq, Repr

/-- What the ring unit keeps. -/
structure RingSt where
  parent : Option Nat := none
  /-- Device clock of the latest periodic sending. -/
  sentAt : Nat := 0
  /-- Next EVENT_SEQ by channel. -/
  eventSeq : Table Nat := []
  /-- Origins, the most recently seen first, with the last EVENT_SEQ by channel. -/
  origins : List (Nat × Table Nat) := []
  /-- Tick Sequence and Time Epoch of the ring have been adopted. -/
  adopted : Bool := false
  /-- The parent's edge as it was last reconstructed, on the device clock in ps (R332). -/
  edge : Option Int := none
  /-- The other ROOT_ID of the latest ROOT_CONFLICT. -/
  conflict : Option Nat := none
  deriving DecidableEq, Repr

/-! ## Recording and media (spec/13) -/

/-- An SSD: its identity, and its content by LBA in blocks of 4,096 bytes; a block not listed is zero. -/
structure Ssd where
  info : SsdInfo
  content : Table (List Byte) := []
  deriving DecidableEq, Repr

/-- The fields of a superblock (Table 13-4). -/
structure Superblock where
  formatTime : Nat
  extBase : Nat
  userMiB : Nat
  extents : Nat
  dirEntries : Nat
  journal : Nat
  memberBlocks : Nat
  ids : List Nat
  setId : Nat
  generation : Nat
  failed : Nat
  index : Nat
  count : Nat
  layout : Nat
  deriving DecidableEq, Repr

/-- A directory entry (Table 13-9). -/
structure DirEntry where
  name : List Byte := []
  length : Nat := 0
  stopTime : Nat := 0
  startTime : Nat := 0
  records : Nat := 0
  extents : Nat := 0
  stopTick : Nat := 0
  firstTick : Nat := 0
  stopEpoch : Nat := 0
  startEpoch : Nat := 0
  clip : Nat := 0
  streams : Nat := 0
  cause : Nat := 0
  state : Nat := 0
  deriving DecidableEq, Repr

/-- A journal entry (Table 13-11). -/
structure JEntry where
  type : Nat
  sub : Nat := 0
  clip : Nat := 0
  a : Nat := 0
  b : Nat := 0
  c : Nat := 0
  deriving DecidableEq, Repr

/-- A frame of a clip: its stream, its port and frame number, its ticket record as last seen and whether that is final, the
clip offset of its chunk, its payload; 0 being written, 1 written, 2 lost. -/
structure ClipFrame where
  stream : Nat
  port : Nat
  number : Nat
  frame : Frame
  offset : Nat := 0
  state : Nat := 0
  deriving DecidableEq, Repr

/-- A stream of a clip (Table 13-7) with what the recorder keeps for it: the number of the last frame taken, and for audio the
next and the last position to record. -/
structure ClipStream where
  stream : Nat
  kind : Nat
  port : Nat
  ctx : Nat := 0
  desc : List Byte := []
  /-- The largest VIDEO chunk of the stream, in bytes. -/
  largest : Nat := 0
  /-- The WORKING_SPACE of the context when the clip was opened (R221). DEDUCED: no record of the clip's layout has a field for it. -/
  space : Nat := 0
  lastNumber : Option Nat := none
  nextPos : Option Nat := none
  endPos : Option Nat := none
  deriving DecidableEq, Repr

/-- An open clip. -/
structure Clip where
  id : Nat
  dir : Nat
  streams : List ClipStream
  extents : List Nat := []
  /-- Extents not yet journalled. -/
  fresh : List (Nat × Nat) := []
  /-- Next byte of the clip byte stream; bytes and index records committed. -/
  off : Nat := 0
  length : Nat := 0
  records : Nat := 0
  firstTick : Nat
  stopTick : Option Nat := none
  cause : Nat := 0
  stopTime : Nat := 0
  stopEpoch : Nat := 0
  /-- The STOP_TICK edge has passed. -/
  stopped : Bool := false
  /-- The CLIP_STOP request to answer. -/
  stopReq : Option Req := none
  frames : List ClipFrame := []
  staged : Option (List Byte) := none
  deriving DecidableEq, Repr

/-- A commit that runs (R354): its commit point, its journal entries, and by clip slot the length and records it commits and
whether it closes the clip. -/
structure CommitRun where
  point : Nat
  entries : List JEntry
  clips : List (Nat × Nat × Nat × Bool)
  deriving DecidableEq, Repr

/-- The recorder. -/
structure RecSt where
  ssds : Table Ssd := []
  /-- The set in use, the root port of each member, and the members in service. -/
  sb : Option Superblock := none
  ports : List (Option Nat) := []
  inService : List Nat := []
  /-- Working copies of the directory and the extent map, and what has changed since the latest checkpoint. -/
  dir : Table DirEntry := []
  exts : Table (Nat × Nat) := []
  dirtyDir : List Nat := []
  dirtyExt : List Nat := []
  lastClip : Nat := 0
  /-- The extent allocated last (R349); none since the mount or the format. -/
  lastExtent : Option Nat := none
  /-- Next journal block and SEQ; covered SEQ; journal blocks and commits since the checkpoint; a checkpoint to announce. -/
  jpos : Nat := 0
  seq : Nat := 1
  covered : Nat := 0
  jblocks : Nat := 0
  sinceCheck : Nat := 0
  announce : Option Nat := none
  clips : Table Clip := []
  run : Option CommitRun := none
  late : Bool := false
  lastPoint : Nat := 0
  /-- A MEDIA_FORMAT that runs: layout, member ports, journal blocks, directory entries, user area. -/
  formatting : Option (Nat × List Nat × Nat × Nat × Nat) := none
  /-- The member index a rebuild replaces, and its root port. -/
  rebuilding : Option (Nat × Nat) := none
  warned : Bool := false
  deriving DecidableEq, Repr

/-! ## The storage target (spec/14) -/

/-- An entry of the Error Information log: its number, queue, command, status, first LBA and namespace. -/
structure NvmeError where
  number : Nat
  qid : Nat
  cid : Nat
  status : Nat
  lba : Nat
  nsid : Nat
  deriving DecidableEq, Repr

/-- An association: one controller (R371). -/
structure Assoc where
  port : Nat
  hostNqn : List Byte
  hostId : List Byte
  discovery : Bool
  /-- The allow-list entry, 0xFF for ALLOW_ANY, and what it gave: rights, URGENT queues, WRR class, queue limit (R372). -/
  entry : Nat
  rights : Nat
  urgent : Nat
  cls : Nat
  limit : Nat
  /-- The grant of Number of Queues, and whether the feature has been set (R373). -/
  grant : Nat
  granted : Bool := false
  /-- KATO in ms, and the device clock of the latest Keep Alive (R393). -/
  kato : Nat
  aliveAt : Nat
  /-- CC, and CSTS.SHST (R384). -/
  cc : Nat := 0
  shst : Nat := 0
  /-- Outstanding Asynchronous Event Requests; the event configuration; events held: bit 0 Namespace Attribute Changed, bit 1
  SMART temperature (R396). -/
  aers : List Nat := []
  events : Nat := 0
  held : Nat := 0
  /-- Both NSIDs stand in the Changed Namespace List (R375). -/
  changed : Bool := false
  errors : List NvmeError := []
  errorCount : Nat := 0
  deriving DecidableEq, Repr

/-- A fetched I/O command (R389, R390). `op` is its opcode; `stage` 0 waits on an overlap, 1 waits at the pacer, 2 has
started. -/
structure NvmeCmd where
  cntlid : Nat
  qid : Nat
  cid : Nat
  op : Nat
  nsid : Nat
  slba : Nat := 0
  blocks : Nat := 0
  fua : Bool := false
  data : List Byte := []
  stage : Nat := 0
  /-- Members that a started read uses. -/
  members : List Nat := []
  /-- The writes a Flush covers: those with a lower serial number. -/
  upTo : Nat := 0
  deriving DecidableEq, Repr

/-- Arbitration among the commands that wait at a pacer (R380): the WRR class in turn and what is left of its weight, the
queue in turn and what is left of its burst, and the queue last served in each class. -/
structure ArbSt where
  cls : Nat := 1
  weight : Nat := 0
  queue : Nat := 0
  burst : Nat := 0
  last : Table Nat := []
  deriving DecidableEq, Repr

/-- The storage target. -/
structure TgtSt where
  assocs : Table Assoc := []
  /-- I/O queues by 65,536 × CNTLID + QID, with their class: 0 URGENT, 1 HIGH, 2 MEDIUM, 3 LOW. -/
  queues : Table Nat := []
  /-- Fetched I/O commands, in the order in which they were fetched, and started commands of associations and queues that have
  ended (R394). -/
  cmds : List NvmeCmd := []
  ghosts : List NvmeCmd := []
  /-- Commands not fetched or not begun: while the DRAM is out of service (R54), and admin commands during a watchdog restart
  (R24). -/
  held : List Instr := []
  /-- Device clock from which the pacer of a port passes data, and its arbiter. -/
  paceAt : Table Nat := []
  arbs : Table ArbSt := []
  /-- The staging image: its association and its 4 KiB blocks (R387). -/
  staging : Option (Nat × Table (List Byte)) := none
  /-- Writes that no Flush covers yet: set block and its content before (R379). -/
  volatile : Table (Nat × List Byte) := []
  serial : Nat := 0
  deriving DecidableEq, Repr

/-! ## Audio (spec/15) -/

/-- An audio port beyond its parameters. -/
structure AudSt where
  /-- The device clock at which the frame of position `basePos` started or starts (R403, R408). -/
  baseClock : Nat := 0
  basePos : Nat := 0
  /-- The period in progress: its first position, whether its boundary has been dealt with, start, epoch and mask; flags and
  zero frames (Table 15-5). -/
  period : Option Nat := none
  startTime : Nat := 0
  startEpoch : Nat := 0
  flags : Nat := 0
  zeros : Nat := 0
  /-- A SLOT_MASK commit that waits, with the device clock at which it reached the port (R412). -/
  maskAt : Option Nat := none
  /-- Device clock, by slot, of the mute changes that wait, and the previous sample by slot (R413). -/
  muteAt : Table Nat := []
  prev : Table Nat := []
  /-- A run of UNDERRUN or OVERRUN frames, and the clock of the latest audio NOTIFY of the port (R410). -/
  xrun : Bool := false
  xrunAt : Option Nat := none
  /-- Follower: clock of the latest FS edge, offset of the edges that stray and how many in a row. -/
  fsAt : Nat := 0
  odd : Nat := 0
  oddRun : Nat := 0
  /-- Zero frames still to insert, and frames still to drop (Table 15-6); whole-frame corrections that wait for the next period
  boundary (R405). -/
  insert : Nat := 0
  drop : Nat := 0
  slip : Int := 0
  deriving DecidableEq, Repr

/-! ## DRAM (spec/16) -/

/-- A write held until its ALERT_N window has passed (R431): its place, the device clock of its latest issue, and the retries
it has failed in a row. -/
structure HeldWrite where
  sub : Nat
  addr : Nat
  at' : Nat
  fails : Nat := 0
  deriving DecidableEq, Repr

/-- The memory controller. A bank is numbered 1,024 × channel + 512 × subchannel + 256 × rank + 4 × bank group + bank. -/
structure DramSt where
  /-- The controller is frozen (R436). -/
  frozen : Bool := false
  /-- Open rows by bank. -/
  rows : Table Nat := []
  /-- Refresh debt, by 1,024 × channel + 512 × subchannel + 256 × rank + bank index, or + 255 for ALL_BANK (R429). -/
  debts : Table Nat := []
  /-- Channels with a drift alarm, and those whose latest retraining found no setting (R433, R434). -/
  alarms : List Nat := []
  missed : List Nat := []
  /-- DRAM temperature by channel, in °C, and at its latest training. -/
  temps : Table Int := []
  trained : Table Int := []
  /-- Token buckets by 8 × channel + class, in 10^-6 bytes, with the device clock of the level (R426). -/
  tokens : Table (Nat × Nat) := []
  /-- The class served last, in turn, by 2 × channel + subchannel. -/
  turn : Table Nat := []
  /-- Held writes by channel. -/
  held : Table (List HeldWrite) := []
  /-- Rolling activate count by bank, and rows whose neighbours are to be refreshed once they close (R430). -/
  acts : Table Nat := []
  neighbours : Table Nat := []
  /-- Corrected write-backs queued, by 2 × channel + subchannel (R423). -/
  writeBacks : Table (List DramReq) := []
  /-- Bursts patrol scrub has read in this pass. -/
  scrubbed : Nat := 0
  /-- Device clocks of corrected bursts of the latest 24 h, by 256 × rank key + component, and marks by rank key, 4 × channel +
  2 × subchannel + rank (R424). -/
  corrected : Table (List Nat) := []
  marks : Table Nat := []
  deriving DecidableEq, Repr

/-! ## The Event Fabric (spec/17) -/

/-- The fabric beyond its parameters. -/
structure FabSt where
  /-- Firings by source since the latest tick edge (R454). -/
  counts : Table Nat := []
  /-- Device clock at which a running timer expires (R450), and at which an EVIO pulse ends (R451). -/
  timers : Table Nat := []
  evios : Table Nat := []
  /-- Device clock until which a TRACE_MARK input is busy. -/
  markBusy : Table Nat := []
  /-- Ring channels triggered and not yet sent. -/
  ringTx : List Nat := []
  /-- Wire positions of the pending wake triggers (R452). -/
  wakeNotify : Option Nat := none
  wakeProfile : Option Nat := none
  deriving DecidableEq, Repr

/-! ## Thermal, power and life (spec/18) -/

/-- Thermal and power unit state beyond the parameters. -/
structure ThermSt where
  calibrated : Bool := false
  /-- The heater runs (R463), and the device clock at which it started. -/
  heating : Bool := false
  heatStart : Nat := 0
  lastSample : Nat := 0
  /-- Sensors (bits 0–15 monitors, 16 diode) at or above the shutdown threshold at the latest sample (R465). -/
  hotOnce : Nat := 0
  /-- Device clock of the latest step down (R469). -/
  lastDown : Option Nat := none
  /-- Device clock since which the conditions of a step up have held without a break (R470). -/
  okSince : Option Nat := none
  /-- A step up is decided and waits for re-admission and a tick edge (R59, R470). -/
  upPending : Bool := false
  /-- FLOOR_HOLDS has been counted for this stay at the floor, and FLOOR_REACHED sent. -/
  floorHeld : Bool := false
  floorNotified : Bool := false
  lastLife : Nat := 0
  /-- Weighted and powered time not yet in a life record, in ms (R472), and per profile. -/
  pendWeighted : Nat := 0
  pendPowered : Nat := 0
  pendProfile : Table Nat := []
  /-- Totals of the latest life record. -/
  recWeighted : Nat := 0
  recPoweredMs : Nat := 0
  recProfile : Table Nat := []
  lifeSeq : Nat := 0
  maxJunction : Int := -32768
  minJunction : Int := 32767
  warnSent : Bool := false
  fullSent : Bool := false
  deriving DecidableEq, Repr

/-! ## Observation (spec/19) -/

/-- A trace destination: the port or one subscription (R491, R493). -/
structure TraceDest where
  /-- The subscribing session; 0 for the port or a free subscription. -/
  sess : Nat := 0
  types : Nat := 0
  rate : Nat := 0
  /-- Next SEQ of a record and SEQUENCE of a datagram. -/
  seq : Nat := 0
  dgram : Nat := 0
  /-- Records waiting in the on-die buffer of 64 KiB, oldest first. -/
  buffer : List (List Byte) := []
  /-- Records dropped since the previous LOST. -/
  lost : Nat := 0
  /-- Byte budget under the rate limit and the clock at which it was last refilled. -/
  credit : Nat := 0
  creditAt : Nat := 0
  deriving DecidableEq, Repr

/-- Observation state beyond the parameters: destinations 0 (the port) to 4. -/
structure ObsSt where
  dests : Table TraceDest := []
  nextSync : Nat := 0
  deriving DecidableEq, Repr

/-! ## The state -/

/-- The state of the block. `pending` is the queue of commands, first in, first out. `clock` counts nanoseconds since
power first came. `freeCtr`, `out` and `firings` are the model's own: the counter free values are drawn with, the record of what
left the device (newest first), and the event sources that have fired and wait for the fabric, each with the clock of its firing (R447). `regs` and `blobs`
hold the parameters by Parameter ID (R13), an absent one standing for its reset value. -/
structure State where
  pending : List Instr := []
  clock : Nat := 0
  freeCtr : Nat := 0
  out : List Output := []
  firings : List (Nat × Nat) := []
  regs : Table Word := []
  blobs : Table (List Byte) := []
  pow : PowerSt := {}
  time : TimeBase := {}
  nmp : NmpSt := {}
  therm : ThermSt := {}
  obs : ObsSt := {}

  lanes : Table LaneSt := []
  ports : Table PortSt := []
  trigs : Table TrigSt := []
  ing : Table IngSt := []
  tickets : Table TicketSt := []
  expo : Table ExpSt := []
  buses : Table BusSt := []

  ctxs : Table CtxSt := []
  scene : SceneSt := {}
  tick : TickSt := {}
  heads : Table HeadSt := []

  eths : Table EthSt := []
  qps : Table Qp := []
  qpSerial : Nat := 0
  streams : Table StreamSt := []
  ptp : PtpSt := {}
  fsync : Table FsyncSt := []
  ringPorts : Table RingPort := []
  ring : RingSt := {}

  media : RecSt := {}
  auds : Table AudSt := []
  families : Table FsyncSt := []

  tgt : TgtSt := {}

  dram : DramSt := {}
  fab : FabSt := {}
  deriving DecidableEq, Repr

/-- The machine right after reset: power has come, GLOBAL_STATE is BOOT with internal reset not yet ended (R476), every
parameter is at its reset value, and no command waits. -/
def State.reset : State := {}

end Sys2Proof.Machine
end

