-- ==== Sys2Proof/Machine/Operands.lean ====
section
/-! DEFINITION. The operand forms of NMP: finding a parameter by its ID, its reset value, and checking and decoding the
value of an entry against its type, length, access and range (R76 to R78). -/

namespace Sys2Proof.Machine

/-! ## Status codes (Table 03-3) -/

namespace Status
def OK : Nat := 0x0000
def BUSY : Nat := 0x0001
def NOT_OWNER : Nat := 0x0002
def BAD_PARAM : Nat := 0x0003
def RANGE : Nat := 0x0004
def BUDGET_EXCEEDED : Nat := 0x0005
def NOT_READY : Nat := 0x0006
def TICKET_PAST : Nat := 0x0007
def TICKET_SHIFTED : Nat := 0x0008
def FAULT_HOLD : Nat := 0x0009
def AUTH : Nat := 0x000A
def UNSUPPORTED : Nat := 0x000B
def CONFLICT : Nat := 0x000C
def NO_RESOURCE : Nat := 0x000D
end Status

/-! ## Finding a parameter (R13) -/

/-- Parameter ID fields. -/
def idGroup (id : Nat) : Nat := bits id 31 24
def idInst (id : Nat) : Nat := bits id 23 16
def idNum (id : Nat) : Nat := bits id 15 0

/-- The index digit of a parameter number described by (shift, width, count). -/
def digitOf (num : Nat) (d : Nat × Nat × Nat) : Nat := (num / 2 ^ d.1) % 2 ^ d.2.1

/-- The number with its index digits at 0. -/
def baseNum (subs : List (Nat × Nat × Nat)) (num : Nat) : Nat :=
  subs.foldl (fun n d => n - digitOf n d * 2 ^ d.1) num

/-- Whether a catalogue row describes the parameter `id`. -/
def Param.covers (p : Param) (id : Nat) : Bool :=
  p.insts.any (fun r => decide (r.1 ≤ idInst id ∧ idInst id ≤ r.2)) &&
    decide (baseNum p.subs (idNum id) = p.num) && p.subs.all (fun d => decide (digitOf (idNum id) d < d.2.2))

/-- The catalogue row of a parameter; none for an ID that is no parameter's. -/
def paramOf (id : Nat) : Option Param :=
  if id < 2 ^ 32 then (catalogueOf (idGroup id)).find? (fun p => p.covers id) else none

/-- The width in bits of a value of a type (R77); 0 for a BLOB. -/
def PType.width : PType → Nat
  | .u64 => 64
  | .blob => 0
  | _ => 32

/-- The type codes of Table 03-5. -/
def PType.code : PType → Nat
  | .u32 => 0 | .s32 => 1 | .u64 => 2 | .q16 => 3 | .cf24 => 4 | .enum => 5 | .flags => 6 | .blob => 7

/-- The access codes of Table 03-7. -/
def Access.code : Access → Nat
  | .rw => 0 | .ro => 1 | .wo => 2

/-- The commit codes of Table 03-7. -/
def CommitRule.code : CommitRule → Nat
  | .immediate => 0 | .admitted => 1 | .ticket => 2 | .boundary => 3 | .restart => 4

/-- The reset value of a parameter: the row's, but where the row gives one per instance or per element. -/
def resetOf (p : Param) (id : Nat) : Nat :=
  let i := idInst id
  if p.group = 0x10 ∧ p.num = 0x000A then i -- BOND_LEADER: PP
  else if p.group = 0x30 ∧ p.num = 0x0002 then (if i < 2 then 5 else 3) -- LINK_RATE_MAX
  else if p.group = 0x30 ∧ p.num = 0x0016 then (if i < 2 then 0 else 1) -- PSR_POLICY
  else if p.group = 0x02 ∧ p.num = 0x0017 then [360, 300, 100, 30, 10].getD i 0 -- CUSTOM_SHARE: Sable
  else if p.group = 0x80 ∧ p.num = 0x0010 then [4000, 20000, 2000, 200000].getD i 0 -- AGE_LIMIT
  else if p.group = 0x21 ∧ (p.num = 0x0020 ∨ p.num = 0x1020) then -- CAM_MATRIX, REND_MATRIX
    (if idNum id % 16 = 0 ∨ idNum id % 16 = 4 ∨ idNum id % 16 = 8 then 0x3F0000 else 0)
  else if p.group = 0x40 ∧ p.num = 0x0003 then (Config.macAddress i).toNat -- MAC_ADDRESS
  else p.reset

/-- The reset value of a parameter ID; 0 for an ID that is no parameter's. -/
def resetValue (id : Nat) : Nat :=
  match paramOf id with
  | some p => resetOf p id
  | none => 0

/-- Parameters whose value is fixed at manufacture or by the interface level, and that nothing writes (R4, R94, R495). -/
def Param.fixed (p : Param) : Bool :=
  (p.group == 0x01 && decide (p.num = 1 ∨ p.num = 2 ∨ p.num = 3)) || (p.group == 0x40 && p.num == 3) ||
    (p.group == 0xA0 && decide (p.num = 3 ∨ p.num = 6 ∨ p.num = 7 ∨ p.num = 0x22)) || (p.group == 0xB0 && p.num == 0x19)

/-! ## Values (R77) -/

/-- A key that orders CF24 words by value (R214). -/
def cf24Key (v : Nat) : Int := if bit v 23 then -((bits v 22 0 : Nat) : Int) else ((bits v 22 0 : Nat) : Int)

/-- The value of a number in the order of its type. -/
def PType.key (t : PType) (v : Nat) : Int :=
  match t with
  | .s32 => toSigned 32 v
  | .q16 => toSigned 32 v
  | .cf24 => cf24Key v
  | _ => v

/-- A bound of the catalogue in the order of its type. -/
def PType.boundKey (t : PType) (b : Int) : Int :=
  match t with
  | .cf24 => cf24Key b.toNat
  | _ => b

/-- A code that Table 08-9 defines. -/
def formatCode (v : Nat) : Bool :=
  decide (v < 64) && (if v % 4 = 3 then decide (bits v 3 2 = 0 ∧ bits v 5 4 ≤ 1) else decide (bits v 3 2 ≤ 1 ∧ bits v 5 4 ≤ 2))

/-- Values inside the bounds of a range that the range still leaves out, by parameter. -/
def holeFree (id v : Nat) : Bool :=
  let g := idGroup id
  let n := idNum id
  match g, n with
  | 0x02, 0x0004 => (List.range 4).all fun k => decide (bits v (4 * k + 3) (4 * k) ≤ 4 ∨ bits v (4 * k + 3) (4 * k) = 15)
  | 0x10, 0x0004 => decide (popcount 4 v = 1 ∨ popcount 4 v = 2 ∨ popcount 4 v = 4)
  | 0x10, 0x0012 => decide (1 ≤ bits v 31 16 ∧ 1 ≤ bits v 15 0)
  | 0x11, 0x0001 => decide (v ≤ 31 ∨ v = 0xFF)
  | 0x20, 0x0003 => decide (v % 64 = 0)
  | 0x20, 0x0008 => decide (v = 0 ∨ 100000 ≤ v)
  | 0x20, 0x0031 => decide (v ≤ 2 ∨ v = 0xFF)
  | 0x11, 0x0005 => decide (v = 0 ∨ 100000 ≤ v)
  | 0x22, 0x0005 => decide (256 ≤ bits v 31 16 ∧ bits v 31 16 ≤ 1024 ∧ 256 ≤ bits v 15 0 ∧ bits v 15 0 ≤ 1024 ∧
      bits v 31 16 % 16 = 0 ∧ bits v 15 0 % 16 = 0)
  | 0x30, 0x0002 => if idInst id < 2 then decide (v ≤ 5) else decide (v ≤ 3 ∨ 6 ≤ v)
  | 0x30, 0x0003 => decide (v = 1 ∨ v = 2 ∨ v = 4)
  | 0x30, 0x0013 => decide (1 ≤ bits v 15 8 ∧ bits v 15 8 ≤ 16 ∧ 1 ≤ bits v 7 0 ∧ bits v 7 0 ≤ 16 ∧ v < 0x10000)
  | 0x30, 0x0015 => decide (v ≠ 1)
  | 0x40, 0x000F => decide (bits v 31 24 = 0 ∧ bits v 23 16 ≤ 63 ∧ bits v 15 8 ≤ 63 ∧ bits v 7 0 ≤ 63)
  | 0x42, 0x0008 => decide (bits v 31 24 = 0 ∧ -3 ≤ toSigned 8 (bits v 23 16) ∧ toSigned 8 (bits v 23 16) ≤ 1 ∧
      -7 ≤ toSigned 8 (bits v 15 8) ∧ toSigned 8 (bits v 15 8) ≤ -1 ∧ -7 ≤ toSigned 8 (bits v 7 0) ∧ toSigned 8 (bits v 7 0) ≤ 5)
  | 0x42, 0x000B => decide (1 ≤ bits v 31 16 ∧ 1 ≤ bits v 15 0)
  | 0x51, 0x0013 => decide (bits v 15 8 ≤ 32 ∧ 1 ≤ bits v 1 0 ∧ bits v 7 2 = 0 ∧ bits v 31 16 = 0)
  | 0x60, 0x0006 => decide (bits v 31 27 = 0 ∧ bits v 23 22 = 0 ∧ bits v 19 19 = 0 ∧ bits v 15 13 = 0 ∧ bits v 7 7 = 0 ∧
      bits v 18 16 ≤ 5 ∧ bits v 21 20 ≤ 2)
  | 0x60, 0x0007 => decide (v < 16)
  | 0x60, 0x000E => decide (bits v 31 16 = 0 ∧ bits v 7 1 = 0 ∧ (bits v 0 0 = 0 ∨ (0x50 ≤ bits v 15 8 ∧ bits v 15 8 ≤ 0x5F)))
  | 0x60, 0x0101 => decide (v ≤ 5 ∨ 0x10 ≤ v)
  | 0x80, 0x0004 => decide (v = 0 ∨ (256 ≤ v ∧ 2 ^ Nat.log2 v = v))
  | 0x80, 0x0029 => decide (v % 64 = 0)
  | 0x90, 0x0002 => decide (v ≠ 1)
  | 0x90, 0x0020 => decide (v % 2 = 0)
  | 0x90, 0x0040 => decide (v ≠ 3)
  | _, _ =>
    if g = 0x30 ∧ bits n 15 12 = 1 then
      (match bits n 7 0 with
       | 0x03 => decide (bits v 15 8 ≤ 31 ∧ bits v 7 2 = 0)
       | 0x05 => formatCode v
       | 0x06 => decide (v % 256 = 0)
       | 0x0B => decide (bits v 7 1 = 0)
       | _ => true)
    else if g = 0x21 ∧ bits n 15 12 = 1 ∧ bits n 7 0 = 0x05 then
      formatCode v
    else if g = 0x21 ∧ bits n 15 12 = 1 ∧ bits n 7 0 = 0x02 then
      decide (16 ≤ bits v 31 16 ∧ bits v 31 16 % 2 = 0 ∧ bits v 31 16 ≤ 65534 ∧ 16 ≤ bits v 15 0 ∧ bits v 15 0 % 2 = 0 ∧ bits v 15 0 ≤ 65534)
    else true

/-- Whether a number lies in the range of its parameter. -/
def inRange (p : Param) (id v : Nat) : Bool :=
  (match p.range with
   | none => true
   | some (lo, hi) => decide (p.type.boundKey lo ≤ p.type.key v ∧ p.type.key v ≤ p.type.boundKey hi)) && holeFree id v

/-- The lengths a BLOB parameter takes, as closed bounds (the parameter tables; BAD_PARAM outside them, Table 03-3). -/
def blobLen (id : Nat) : Nat × Nat :=
  match idGroup id, idNum id with
  | 0x01, 0x0010 => (32, 32)
  | 0x70, 0x0010 => (0, 4096)
  | 0x40, 0x0007 => (16, 16)
  | 0x40, 0x0009 => (16, 16)
  | 0x50, 0x0010 => (16, 16)
  | 0x50, 0x0044 => (1, 65536)
  | 0x51, 0x0010 => (0, 223)
  | 0x51, 0x0011 => (16, 16)
  | 0x60, 0x000B => (32, 32)
  | 0x30, 0x000E => (0, 26)
  | g, n =>
    if g = 0x41 ∧ bits n 15 4 = 2 then (16, 16)
    else if g = 0x21 ∧ bits n 15 12 = 1 ∧ bits n 7 0 = 0x0B then (2048, 2048)
    else (0, 2 ^ 28)

/-- The value an entry of a request carries and the status its checks give: type and length (R76, R77), then range. The
handle of a BLOB passed by buffer is checked by the caller. -/
def decodeValue (p : Param) (e : Entry) : Nat × PVal :=
  if e.type ≠ p.type.code then (Status.BAD_PARAM, .num 0)
  else
    match p.type with
    | .blob =>
      if e.flags = 2 then
        (if e.value.length = 16 then Status.OK else Status.BAD_PARAM, .handle (leAt e.value 0 8) (leAt e.value 8 8))
      else
        (if (blobLen e.id).1 ≤ e.value.length ∧ e.value.length ≤ (blobLen e.id).2 then Status.OK else Status.BAD_PARAM,
          .blob e.value)
    | t =>
      let v := leNat e.value
      if e.value.length ≠ t.width / 8 then (Status.BAD_PARAM, .num 0)
      else if t = .cf24 ∧ bits v 31 24 ≠ 0 then (Status.BAD_PARAM, .num v)
      else if t = .cf24 ∧ bits v 22 16 = 127 then (Status.RANGE, .num v)
      else (if inRange p e.id v then Status.OK else Status.RANGE, .num v)

/-- The value bytes of an entry of a reply (R77). -/
def valueBytes (t : PType) (v : Nat) : List Byte := leBytes (t.width / 8) v

/-- The bytes of an entry: header of Table 03-5, value, padding to 4 bytes (R76). -/
def Entry.bytes (e : Entry) : List Byte :=
  padTo 4 (leBytes 4 e.id ++ leBytes 1 e.type ++ leBytes 1 e.flags ++ leBytes 2 e.value.length ++ e.value)

/-- The 32-byte descriptor of a parameter (Table 03-7). DESIGN CHOICE: COMMIT of a read-only parameter, whose table gives none, is 0. -/
def descriptor (id : Nat) (p : Param) : List Byte :=
  let bound (b : Int) : Nat := ofSigned 64 b
  let r := p.range.getD (0, 0)
  leBytes 4 id ++ leBytes 1 (p.access.code * 16 + p.type.code) ++ leBytes 1 p.commit.code ++ leBytes 2 0 ++
    leBytes 8 (resetOf p id) ++ leBytes 8 (bound r.1) ++ leBytes 8 (bound r.2)

/-- The ownership cell of a parameter (Table 03-4). -/
def cellOf (id : Nat) : Nat :=
  match idGroup id with
  | 0x01 => 0
  | 0x02 => 1
  | 0x10 => 2 + idInst id
  | 0x11 => 2 + idInst id
  | 0x12 => 2 + idInst id
  | 0x28 => 2 + idInst id
  | 0x20 => 18 + idInst id
  | 0x21 => 18 + idInst id
  | 0x22 => 18 + idInst id
  | 0x30 => 50 + idInst id
  | 0x40 => 54
  | 0x42 => 54
  | 0x41 => 55
  | 0x43 => 56
  | 0x50 => 57
  | 0x51 => 58
  | 0x60 => 59
  | 0x70 => 60
  | 0x80 => 61
  | 0x90 => 62
  | _ => 63

end Sys2Proof.Machine
end

