-- ==== Sys2Proof/Machine/Ops.lean ====
section
/-! DEFINITION. The named operations every command is written with: reading and writing a parameter, counting, Device
Time, the global state, NOTIFY, replies, trace records, firing an event source, and drawing a free value. -/

namespace Sys2Proof.Machine

/-! ## Parameters -/

/-- The value a parameter holds: the one written, or its reset value (R80). -/
def State.rd (s : State) (id : Nat) : Nat :=
  match tfind s.regs id with
  | some w => w.toNat
  | none => resetValue id

/-- The signed reading of a 32-bit parameter. -/
def State.rdS (s : State) (id : Nat) : Int := toSigned 32 (s.rd id)

/-- Writes a parameter: the one operation that changes the parameter file. The value is cut to the width of the
parameter's type, a fixed parameter and an ID that names no parameter discard the write, and a value equal to the reset
value is kept by listing nothing. -/
def State.wr (s : State) (id v : Nat) : State :=
  match paramOf id with
  | none => s
  | some p =>
    if p.fixed then s
    else { s with regs := tset s.regs id (BitVec.ofNat 64 (resetOf p id)) (BitVec.ofNat 64 (v % 2 ^ p.type.width)) }

/-- Writes a signed 32-bit parameter. -/
def State.wrS (s : State) (id : Nat) (v : Int) : State := s.wr id (ofSigned 32 v)

/-- Writes a list of parameters in order. -/
def State.wrAll (s : State) (l : List (Nat × Nat)) : State := l.foldl (fun t p => t.wr p.1 p.2) s

/-- Changes a parameter by a function of its value. -/
def State.upd (s : State) (id : Nat) (f : Nat → Nat) : State := s.wr id (f (s.rd id))

/-- Counts `n` events in an event counter (R487). -/
def State.countBy (s : State) (id n : Nat) : State := s.upd id fun v => countUp v n

/-- Counts one event. -/
def State.count (s : State) (id : Nat) : State := s.countBy id 1

/-- Adds to a byte counter (R487). -/
def State.addBytes (s : State) (id n : Nat) : State := s.upd id fun v => bytesUp v n

/-- Raises a maximum. -/
def State.raise (s : State) (id v : Nat) : State := s.upd id fun m => max m v

/-- Raises a wrapping 32-bit number by one (generations, sequences). -/
def State.next32 (s : State) (id : Nat) : State := s.upd id fun v => (v + 1) % 2 ^ 32

/-- The bytes a BLOB parameter holds; an absent one is empty, or zeros where its table says so. -/
def blobReset (id : Nat) : List Byte :=
  match idGroup id, idNum id with
  | 0x40, 0x0007 => zeroBytes 16
  | 0x40, 0x0009 => zeroBytes 16
  | 0x11, 0x0024 => zeroBytes 128
  | 0x42, 0x0013 => zeroBytes 384
  | 0x51, 0x0011 => zeroBytes 16
  | 0x60, 0x000B => zeroBytes 32
  | 0x70, 0x0011 => zeroBytes 4096
  | 0x80, 0x0028 => zeroBytes 64
  | 0x80, 0x002A => zeroBytes 96
  | 0xA0, 0x0019 => zeroBytes 64
  | 0xB0, 0x0016 => Config.keyHash
  | 0xB0, 0x0020 => zeroBytes 64
  | 0x41, n => if bits n 15 4 = 2 then zeroBytes 16 else []
  | 0x22, n => if bits n 15 4 = 0x100 then zeroBytes 20544 else []
  | _, _ => []

def State.rdBlob (s : State) (id : Nat) : List Byte := tget s.blobs id (blobReset id)

def State.wrBlob (s : State) (id : Nat) (b : List Byte) : State :=
  { s with blobs := tset s.blobs id (blobReset id) b }

/-! ## Time -/

/-- Device Time at a device clock, on the 2 ns grid (R321, Table 01-4). -/
def deviceTimeAt (b : TimeBase) (clock : Nat) : Nat :=
  let run : Int := ((clock : Int) - (b.ref : Int)) * (1000000000 + b.trim) / 1000000000
  let t := (((b.base : Int) + run) % (2 ^ 64 : Nat)).toNat
  t - t % 2

/-- Device Time now. -/
def State.deviceTime (s : State) : Nat := deviceTimeAt s.time s.clock

/-- The Time Epoch. -/
def State.epoch (s : State) : Nat := s.rd Time.TIME_EPOCH % 65536

/-- The Tick Sequence of the latest tick. -/
def State.tickSeq (s : State) : Nat := s.rd Tick.TICK_SEQUENCE

/-- The AON-domain reference counter: cycles of 40 ns (R82). -/
def State.aon (s : State) : Nat := s.clock / 40

/-- The device clock moved on to the time a timed event is due. -/
def State.at (s : State) (due : Nat) : State := { s with clock := max s.clock due }

/-- The tick period in ns, rounded down: 10^9 × D ÷ N (R34). -/
def State.period (s : State) : Nat := 1000000000 * s.rd Tick.TICK_RATE_D / max 1 (s.rd Tick.TICK_RATE_N)

/-- The tick guard in ns: the larger of 2 % of the period and 20 µs (Table 00-2). -/
def State.guard (s : State) : Nat := max (s.period / 50) 20000

/-- The exact tick budget is this numerator over 50 × TICK_RATE_N, in ns: the period minus the larger of 2 % of it and 20 µs
(Table 00-2). -/
def State.budgetNum (s : State) : Nat :=
  let d := 1000000000 * s.rd Tick.TICK_RATE_D
  50 * d - max d (1000000 * s.rd Tick.TICK_RATE_N)

/-- The tick budget in ns, rounded down. -/
def State.budget (s : State) : Nat := s.budgetNum / (50 * max 1 (s.rd Tick.TICK_RATE_N))

/-! ## Free values -/

/-- The number that draws the next free value, and the state after it is drawn. -/
def State.draw (s : State) : Nat × State := (s.freeCtr, { s with freeCtr := s.freeCtr + 1 })

/-! ## What leaves the device -/

/-- Frames in which an output leaves an Ethernet port: a message of n bytes takes a frame for each 1,408 bytes (R66). -/
def Output.frames : Output → Option (Nat × Nat)
  | .nmp p _ _ _ m => some (p, max 1 (ceilDiv m.payload.length 1408))
  | .packet p _ _ _ => some (p, 1)
  | .connect p _ _ _ => some (p, 1)
  | _ => none

/-- Counts frames sent on an Ethernet port, with their bytes, which the spec does not define (Table 12-9). -/
def State.txFrames (s : State) (port n : Nat) : State :=
  let (k, s) := s.draw
  (s.countBy (Eth.TX_FRAMES port) n).addBytes (Eth.TX_BYTES port) (Config.frameBytes k).toNat

/-- Counts a frame received on an Ethernet port. -/
def State.rxFrame (s : State) (port : Nat) : State :=
  let (k, s) := s.draw
  (s.count (Eth.RX_FRAMES port)).addBytes (Eth.RX_BYTES port) (Config.frameBytes k).toNat

/-- Records one output; on one of the two Ethernet ports its frames are counted. -/
def State.emit (s : State) (o : Output) : State :=
  let s1 := { s with out := o :: s.out }
  match o.frames with
  | some (p, n) => s1.txFrames (p % 2) n
  | none => s1

/-- The marking of control traffic on a port: VLAN_ID, and the DSCP of DSCP_CONTROL: 0 NMP, 1 RoCEv2, 2 PTP (Table 12-9). DESIGN CHOICE: PCP is
ROCE_PRIORITY for RoCEv2, and else 0; R310 says only that it is honoured. -/
def State.control (s : State) (port which : Nat) : Marking :=
  { vlan := s.rd (Eth.VLAN_ID port), pcp := if which = 1 then s.rd (Eth.ROCE_PRIORITY port) else 0,
    dscp := bits (s.rd (Eth.DSCP_CONTROL port)) (8 * which + 5) (8 * which) }

/-- Sends an NMP message on an Ethernet port. -/
def State.sendNmp (s : State) (port : Nat) (dest : Peer) (keyed : Bool) (m : Msg) : State :=
  s.emit (.nmp port dest (s.control port 0) keyed m)

/-- Drives a pin or pin group; 2 is high impedance. -/
def State.pin (s : State) (name : String) (level : Nat) : State := s.emit (.pin name level)

/-- Fires an event source: it stands recorded until the fabric carries it (R447). -/
def State.fire (s : State) (src : Nat) : State := { s with firings := s.firings ++ [(src, s.clock)] }

/-! ## Trace (R491, R492) -/

/-- The on-die trace buffer of a destination, in records of 32 bytes: 64 KiB. -/
def traceRoom : Nat := 2048

/-- The bytes of a trace record (Table 19-7). -/
def traceRecord (type source time seq : Nat) (payload : List Byte) : List Byte :=
  leBytes 2 seq ++ leBytes 1 source ++ leBytes 1 type ++ leBytes 4 time ++ (payload ++ zeroBytes 24).take 24

/-- Whether a destination takes a record: SYNC, LOST and BOOT always, every other type by the mask (R492, R493). The port
takes a record only while TRACE_PORT_ENABLE is 1. -/
def State.traceTakes (s : State) (dest type source : Nat) : Bool :=
  let ctxOk := (type != 2 && type != 3) || bit (s.rd Obs.TRACE_CONTEXTS) source
  let always := type == 0 || type == 7 || type == 8
  if dest = 0 then s.rd Obs.TRACE_PORT_ENABLE == 1 && ctxOk && (always || bit (s.rd Obs.TRACE_PORT_TYPES) type)
  else
    let d := tget s.obs.dests dest {}
    d.sess != 0 && ctxOk && (always || bit d.types type)

/-- The byte budget of a subscription at a device clock: it fills at RATE bytes per second up to one second's worth. -/
def TraceDest.creditNow (d : TraceDest) (clock : Nat) : Nat :=
  min d.rate (d.credit + (clock - d.creditAt) * d.rate / 1000000000)

/-- A SYNC record's payload (Table 19-8). -/
def State.syncPayload (s : State) : List Byte :=
  leBytes 8 s.deviceTime ++ leBytes 2 s.epoch ++ leBytes 4 s.tickSeq

/-- The next record of a destination, numbered and buffered. -/
def TraceDest.push (d : TraceDest) (type source time : Nat) (payload : List Byte) : TraceDest :=
  { d with seq := (d.seq + 1) % 65536, buffer := d.buffer ++ [traceRecord type source time d.seq payload], credit := d.credit - 32 }

/-- Room for `n` records, in the buffer and under the rate limit of a subscription. -/
def TraceDest.room (d : TraceDest) (dest n : Nat) : Bool :=
  decide (d.buffer.length + n ≤ traceRoom) && (dest == 0 || decide (32 * n ≤ d.credit))

/-- After a loss, as soon as room exists: a LOST record with the number dropped, then a SYNC record (R491). -/
def TraceDest.afterLost (d : TraceDest) (dest time : Nat) (sync : List Byte) : TraceDest :=
  if d.lost ≠ 0 ∧ d.room dest 2 then ({ d with lost := 0 }.push 8 0 time (leBytes 4 d.lost)).push 0 0 time sync else d

/-- Trace runs from the end of internal reset onward (R492), while a clock runs. -/
def State.traceRuns (s : State) : Bool :=
  !(s.pow.global == .off || s.pow.global == .thermalOff || (s.pow.global == .boot && s.pow.phase == .inReset))

/-- Nanoseconds that a record takes on the trace port: 32 bytes at 400 MB/s. -/
def portRecordNs : Nat := 80

/-- The records that the trace port has sent by now leave its buffer. `creditAt` of the port is the clock at which its present record
began. -/
def State.drainPort (s : State) : State :=
  let d := tget s.obs.dests 0 {}
  let n := min d.buffer.length ((s.clock - d.creditAt) / portRecordNs)
  if n = 0 ∨ s.traceRuns = false then s
  else
    let s1 := (d.buffer.take n).foldl (fun (t : State) b => t.emit (.trace 0 b)) s
    { s1 with obs := { s1.obs with dests := tset s1.obs.dests 0 {} { d with buffer := d.buffer.drop n, creditAt := d.creditAt + portRecordNs * n } } }

/-- A destination at this moment: the byte budget of a subscription filled up; the port idle until now where its buffer is empty. -/
def State.destNow (s : State) (dest : Nat) : TraceDest :=
  let d := tget s.obs.dests dest {}
  if dest = 0 then { d with creditAt := if d.buffer.isEmpty then s.clock else d.creditAt }
  else { d with credit := d.creditNow s.clock, creditAt := s.clock }

/-- The LOST record of a destination, where one is due and has room. -/
def State.traceLost (s : State) (dest : Nat) : State :=
  let s := if dest = 0 then s.drainPort else s
  let d := s.destNow dest
  if d.lost ≠ 0 ∧ d.room dest 2 then
    { s with obs := { s.obs with dests := tset s.obs.dests dest {} (d.afterLost dest (bits s.deviceTime 33 2) s.syncPayload) } }
  else s

/-- One record offered to one destination: numbered, then buffered, or dropped where the buffer is full or the rate limit
is passed (R491, R493). -/
def State.traceTo (s : State) (dest type source : Nat) (payload : List Byte) : State :=
  if s.traceTakes dest type source then
    let s := if dest = 0 then s.drainPort else s
    let time := bits s.deviceTime 33 2
    let d := (s.destNow dest).afterLost dest time s.syncPayload
    let full := d.lost != 0 || !d.room dest 1
    let d' := if full then { d with seq := (d.seq + 1) % 65536, lost := d.lost + 1 } else d.push type source time payload
    let s1 := { s with obs := { s.obs with dests := tset s.obs.dests dest {} d' } }
    if full then s1.count (Obs.TRACE_DROPPED dest) else s1
  else s

/-- Produces a trace record for every destination (R491). -/
def State.trace (s : State) (type source : Nat) (payload : List Byte) : State :=
  (List.range 5).foldl (fun t d => t.traceTo d type source payload) (s.count Obs.TRACE_RECORDS)

/-! ## NMP messages out (R74, R91, R92) -/

def State.session (s : State) (sess : Nat) : Option Session := tfind s.nmp.sessions sess

def State.setSession (s : State) (sess : Nat) (x : Session) : State :=
  { s with nmp := { s.nmp with sessions := tins s.nmp.sessions sess x } }

/-- The NOTIFY payload: the header of Table 03-9 and the body. -/
def State.notifyPayload (s : State) (cls code : Nat) (body : List Byte) : List Byte :=
  leBytes 2 cls ++ leBytes 2 code ++ leBytes 4 body.length ++ leBytes 4 s.tickSeq ++ leBytes 2 s.epoch ++ leBytes 2 0 ++
    leBytes 8 s.deviceTime ++ body

/-- Sends one NOTIFY to one session: the next NOTIFY SEQUENCE, CODE bit 15 after a drop, and at most 256 unacknowledged
messages, the oldest being displaced (R91, R92). DESIGN CHOICE: it goes to the port and source of the SESSION_OPEN for the life of the
session; R91 names none. -/
def State.notifyTo (s : State) (sess cls code : Nat) (body : List Byte) : State :=
  match s.session sess with
  | none => s
  | some x =>
    let displaced := decide (256 ≤ x.unacked.length)
    let code' := if x.dropped || displaced then code % 32768 + 32768 else code % 32768
    let pl := s.notifyPayload cls code' body
    let u : Unacked := { seq := x.notifySeq, payload := pl, sends := 1, sentAt := s.clock }
    let x' := { x with
      notifySeq := (x.notifySeq + 1) % 2 ^ 32
      dropped := false
      unacked := (if displaced then x.unacked.drop 1 else x.unacked) ++ [u] }
    let s1 := (s.setSession sess x').sendNmp x.port x.peer true ⟨sess, x.notifySeq, 0x80, 0, pl⟩
    if displaced then s1.count Sys.NOTIFY_DROPPED else s1

/-- Sends a NOTIFY to every open session whose class mask has the class bit, and its trace record (R91, Table 19-8). -/
def State.notify (s : State) (cls code : Nat) (body : List Byte) : State :=
  let s1 := s.trace 4 cls (leBytes 2 code ++ leBytes 2 0 ++ (body ++ zeroBytes 16).take 16)
  s.nmp.sessions.foldl (fun t p => if bit p.2.mask cls then t.notifyTo p.1 cls code body else t) s1

/-- The SEQUENCE values still in the window of H (R70). -/
def Session.inWindow (x : Session) (seq : Nat) : Bool :=
  match x.high with
  | none => false
  | some h => decide ((h + 2 ^ 32 - seq) % 2 ^ 32 ≤ 63)

/-- Answers a request: the reply leaves on the port of the request for its source (R63), the request is no longer in flight, and the
reply is cached for duplicates (R70, R71). A session closed meanwhile still gets the reply. -/
def State.reply (s : State) (r : Req) (op status : Nat) (payload : List Byte) : State :=
  let m : Msg := ⟨r.sess, r.seq, op, status, payload⟩
  let s1 := s.sendNmp r.port r.peer true m
  match s1.session r.sess with
  | none => s1
  | some x =>
    let cache := if x.inWindow r.seq then tins x.cache r.seq m else x.cache
    s1.setSession r.sess { x with
      inflight := x.inflight.filter (fun i => i.seq != r.seq)
      cache := cache.filter (fun p => x.inWindow p.1) }

/-! ## Global state (R26, R28) -/

/-- The code of a global state (GLOBAL_STATE). -/
def GState.code : GState → Nat
  | .off => 0 | .boot => 1 | .warmup => 2 | .ready => 3 | .run => 4 | .faultHold => 5 | .thermalOff => 6

/-- Negor runs and answers requests: not in OFF, BOOT or THERMAL_OFF (Table 01-5), and not during a watchdog restart (R24). -/
def State.negorAnswers (s : State) : Bool :=
  !s.pow.restarting && (s.pow.global == .warmup || s.pow.global == .ready || s.pow.global == .run || s.pow.global == .faultHold)

/-- Changes the global state, with the STATE trace record, which nothing can carry in OFF and THERMAL_OFF, and the STATE NOTIFY
unless the change passes through BOOT or ends in THERMAL_OFF or OFF (R26, R28). -/
def State.setGlobal (s : State) (g : GState) : State :=
  if s.pow.global = g then s
  else
    let old := s.pow.global
    let s1 := { s with pow := { s.pow with global := g } }
    if g = .thermalOff ∨ g = .off then s1
    else
      let s2 := s1.trace 5 0 [BitVec.ofNat 8 g.code, BitVec.ofNat 8 old.code]
      if g = .boot ∨ old = .boot then s2 else s2.notify 0 1 (leBytes 8 (g.code + 256 * old.code))

/-! ## Ownership cells (R82) -/

def State.cell (s : State) (c : Nat) : Cell := tget s.nmp.cells c {}

def State.setCell (s : State) (c : Nat) (x : Cell) : State :=
  { s with nmp := { s.nmp with cells := tset s.nmp.cells c {} x } }

/-- Whether a session owns a cell (R78, R82). -/
def State.owns (s : State) (sess c : Nat) : Bool :=
  sess != 0 && (s.cell c).owner == sess && !(s.cell c).orphan

/-- The state code of a cell: 0 FREE, 1 OWNED, 2 ORPHANED (Table 03-8). -/
def Cell.code (x : Cell) : Nat := if x.owner = 0 then 0 else if x.orphan then 2 else 1

/-- Frees a cell: OWNER 0 and GEN increments (R82). -/
def Cell.freed (x : Cell) : Cell := { x with owner := 0, gen := (x.gen + 1) % 65536, orphan := false, expiry := 0, lease := 0 }

/-! ## Requests -/

/-- The opcodes accepted in WARMUP (R27). -/
def warmupOpcodes : List Nat := [0x01, 0x02, 0x03, 0x04, 0x10, 0x14, 0x20, 0x21, 0x22, 0x23, 0x70, 0x71, 0x72]

/-- The opcodes that need a block stopped in FAULT_HOLD whatever they carry (R29). -/
def faultHoldOpcodes : List Nat := [0x50, 0x60, 0x61]

/-- The status that the global state alone gives a request with an opcode, OK where it may go on (R27, R29). The entries of
PARAM_SET, PARAM_COMMIT and PARAM_DISCARD in a WARMUP with DRAM_STATE FAILED are checked with the entries. -/
def State.gate (s : State) (op : Nat) : Nat :=
  if s.pow.global = .warmup then
    if op ∈ warmupOpcodes then Status.OK
    else if s.rd Dram.DRAM_STATE = 4 ∧ (op = 0x11 ∨ op = 0x12 ∨ op = 0x13) then Status.OK
    else Status.NOT_READY
  else if s.pow.global = .faultHold ∧ op ∈ faultHoldOpcodes then Status.FAULT_HOLD
  else Status.OK

/-- The largest message in bytes: 64 segments of 1,408 (R66). -/
def messageLimit : Nat := 90112

/-- Answers a request whose reply can grow beyond one message. DESIGN CHOICE: such a reply is NO_RESOURCE without payload; R66 gives no
status. -/
def State.replyLong (s : State) (r : Req) (op status : Nat) (payload : List Byte) : State :=
  if payload.length ≤ messageLimit then s.reply r op status payload else s.reply r op Status.NO_RESOURCE []

/-- It is a request's turn in its session: no reply of another one is held back, and no other one that is in flight came before it
(R71). -/
def State.turn (s : State) (r : Req) : Bool :=
  !(s.nmp.waits.any fun w => w.r.sess == r.sess && w.r.seq != r.seq) &&
    match s.session r.sess with
    | some x => !(x.inflight.any fun i => i.seq == r.seq) || (x.inflight.head?.map Inflight.seq == some r.seq)
    | none => true

/-- Runs a request: nothing happens while Negor does not answer (R24); a session that is not open drops it (R65, reason 3); before its
turn in its session it stays in flight and the command has no effect (R71, DESIGN CHOICE); a request counts as activity of its session
(R72); the global state may answer it at once (R27, R29); otherwise `body` has the effect and sends the reply. -/
def State.request (s : State) (r : Req) (op : Nat) (body : State → State) : State :=
  if s.negorAnswers then
    match s.session r.sess with
    | none => s.count (Sys.NMP_DROP_COUNT 3)
    | some x =>
      if s.turn r then
        let s1 := s.setSession r.sess { x with lastRequest := s.clock }
        if s1.gate op = Status.OK then body s1 else s1.reply r op (s1.gate op) []
      else s
  else s

/-- The reply payload of a commit: the Tick Sequence of the edge at which its values are in force, and the resulting
PLAN_GENERATION (R79). -/
def commitReply (edge gen : Nat) : List Byte := leBytes 4 edge ++ leBytes 4 gen

/-- The statuses of a completed operation (R74). -/
def completes (status : Nat) : Bool := status == Status.OK || status == Status.TICKET_SHIFTED

/-! ## The Ledger (R485) -/

/-- The location a region is written to next: the first absent one, or else the one with the earliest record. -/
def ledgerTarget (t : Table LedgerRec) (lo hi : Nat) : Nat :=
  let locs := (List.range (hi + 1 - lo)).map (· + lo)
  match locs.find? (fun l => (tfind t l).isNone) with
  | some l => l
  | none =>
    locs.foldl (fun best l =>
      if later 32 (tget t best {}).seq (tget t l {}).seq then l else best) lo

/-- The newest record of a region: the one whose internal sequence is later than every other's. -/
def ledgerNewest (t : Table LedgerRec) (lo hi : Nat) : Option LedgerRec :=
  ((List.range (hi + 1 - lo)).map (· + lo)).foldl (fun best l =>
    match best, tfind t l with
    | none, x => x
    | some b, some x => if later 32 x.seq b.seq then some x else some b
    | some b, none => some b) none

/-- Writes one record of a region to its next location; LEDGER_WRITES counts it (R485). -/
def State.ledgerWrite (s : State) (lo hi : Nat) (bytes : List Byte) : State :=
  let seq := match ledgerNewest s.pow.ledger lo hi with
    | some x => (x.seq + 1) % 2 ^ 32
    | none => 1
  let loc := ledgerTarget s.pow.ledger lo hi
  { s with pow := { s.pow with ledger := tins s.pow.ledger loc { seq := seq, bytes := bytes } } }.count Obs.LEDGER_WRITES

/-- TIME_EPOCH and DEVICE_TIME of a fault or shutdown record (Tables 16-6 and 18-3). -/
def recordTime (lo : Nat) (b : List Byte) : Option (Nat × Nat) :=
  if lo = 10 then some (leAt b 38 2, leAt b 40 8) else if lo = 14 then some (leAt b 46 2, leAt b 52 8) else none

/-- Whether a record of a region counts as later than another (R485): of fault and shutdown records of one TIME_EPOCH by DEVICE_TIME, else by
the write order. -/
def LedgerRec.newer (lo : Nat) (x b : LedgerRec) : Bool :=
  match recordTime lo x.bytes, recordTime lo b.bytes with
  | some (e, t), some (e', t') => if e = e' ∧ t ≠ t' then decide (t' < t) else later 32 x.seq b.seq
  | _, _ => later 32 x.seq b.seq

/-- The bytes of the newest record of a region; none where every location is absent. -/
def State.ledgerRead (s : State) (lo hi : Nat) : Option (List Byte) :=
  (((List.range (hi + 1 - lo)).map (· + lo)).foldl (fun (best : Option LedgerRec) l =>
    match best, tfind s.pow.ledger l with
    | none, x => x
    | some b, some x => if x.newer lo b then some x else some b
    | some b, none => some b) none).map LedgerRec.bytes

end Sys2Proof.Machine
end

