-- ==== Sys2Proof/Machine/Buffers.lean ====
section
/-! DEFINITION. Host buffers: their memory, their pool, RDMA access by key, and the retire fence (R87 to R90). -/

namespace Sys2Proof.Machine

/-! ## Memory: the buffers' bytes -/

/-- What a byte that nothing has written reads as: the spec gives none, and the model reads 0. DESIGN CHOICE, unsafe. -/
def memBlank : Byte := 0

/-- The address of byte `off` of the buffer with serial number `n`: a buffer holds at most 2^28 bytes (R87). -/
def bufAddr (n off : Nat) : Nat := n * 2 ^ 28 + off

/-- Reads one byte. -/
def memRead (m : List Host.Cell) (a : Nat) : Byte := tget m a memBlank

/-- Writes one byte, in the canonical form: addresses strictly rising, no entry equal to a blank byte. -/
def memWrite (m : List Host.Cell) (a : Nat) (b : Byte) : List Host.Cell := tset m a memBlank b

/-- Reads `n` bytes from `a`. -/
def memReadN (m : List Host.Cell) (a : Nat) : Nat → List Byte
  | 0 => []
  | n + 1 => memRead m a :: memReadN m (a + 1) n

/-- Writes bytes from `a` upward. -/
def memWriteN (m : List Host.Cell) (a : Nat) : List Byte → List Host.Cell
  | [] => m
  | b :: r => memWriteN (memWrite m a b) (a + 1) r

/-- The canonical form of memory. -/
abbrev Memory.wf (m : List Host.Cell) : Prop := twf m memBlank

/-- Memory without the bytes of one buffer. -/
def memDrop (m : List Host.Cell) (n : Nat) : List Host.Cell := m.filter fun c => decide (c.1 / 2 ^ 28 ≠ n)

/-! ## The pool -/

/-- Pool memory a buffer takes, in 4 KiB units (R87). -/
def Buffer.units (b : Buffer) : Nat := ceilDiv b.size 4096

/-- Pool units taken by all buffers, freed ones included until their retire fence (R90). -/
def State.poolUsed (s : State) : Nat := (s.nmp.buffers.map fun p => p.2.units).sum

/-- BUF_POOL_FREE, in MiB. DESIGN CHOICE: rounded down where the 4 KiB units free are no whole MiB (R87, R94). -/
def State.poolFreeMiB (s : State) : Nat := (s.rd Sys.BUF_POOL_SIZE * 256 - s.poolUsed) / 256

/-- The valid buffer with a handle: one not freed (R89). -/
def State.bufOf (s : State) (h : Nat) : Option (Nat × Buffer) :=
  s.nmp.buffers.find? fun p => p.2.handle == h && !p.2.freed && h != 0

/-- A drawn number that is neither 0 nor in use; where it is, the smallest that is not: a handle or a key names one thing. -/
def freshNumber (drawn : Nat) (used : List Nat) : Nat :=
  if drawn ≠ 0 ∧ !used.contains drawn then drawn
  else (((List.range (used.length + 1)).map (· + 1)).find? fun n => !used.contains n).getD 1

/-- The bytes 0 to n − 1 of a buffer (R77). -/
def State.bufBytes (s : State) (serial n : Nat) : List Byte := memReadN s.nmp.mem (bufAddr serial 0) n

def State.setBuf (s : State) (serial : Nat) (b : Buffer) : State :=
  { s with nmp := { s.nmp with buffers := tins s.nmp.buffers serial b } }

/-- Whether a consumer still refers to a buffer: a display layer that names or scans it, a scope buffer, or the ring of
an audio port (R90). -/
def State.bufInUse (s : State) (h : Nat) : Bool :=
  (List.range 4).any (fun d => (List.range 4).any fun l =>
      s.rd (Head.LAYER_CURRENT d l) == h ||
        (s.rd (Head.HEAD_ENABLE d) == 1 && s.rd (Head.LAYER_ENABLE d l) == 1 && s.rd (Head.LAYER_SOURCE d l) == 2 &&
          s.rd (Head.LAYER_BUFFER d l) == h)) ||
    (List.range 32).any (fun c => s.rd (Ctx.CTX_STATE c) == 1 && s.rd (Stat.SCOPE_BUFFER c) == h) ||
    (List.range 8).any (fun p => s.rd (Aud.PORT_ENABLE p) == 1 && leAt (s.rdBlob (Aud.AUD_RING p)) 0 8 == h)

/-- The session a buffer notice goes to: the one that sent BUF_FREE while it is open, or else the owner of the cell (R90). -/
def State.bufNotifySession (s : State) (b : Buffer) : Nat :=
  if (s.session b.freedBy).isSome then b.freedBy
  else if (s.cell b.cell).orphan then 0 else (s.cell b.cell).owner

/-- A buffer notice: code 1 RETIRED, code 2 EARLY_FREE (R92). -/
def State.bufNotify (s : State) (b : Buffer) (code : Nat) : State :=
  s.notifyTo (s.bufNotifySession b) 4 code (leBytes 8 b.handle)

/-- The retire fence of one buffer: its memory returns to the pool and RETIRED is sent (R90). -/
def State.retireOne (s : State) (serial : Nat) (b : Buffer) : State :=
  ({ s with nmp := { s.nmp with buffers := tdel s.nmp.buffers serial, mem := memDrop s.nmp.mem serial } }).bufNotify b 1

/-- Retires every freed buffer that no consumer and no RDMA message uses any more (R90). -/
def State.retireFreed (s : State) : State :=
  s.nmp.buffers.foldl (fun t p =>
    if p.2.freed && p.2.inProgress == 0 && p.2.waiting.isNone && !t.bufInUse p.2.handle then t.retireOne p.1 p.2 else t) s

/-! ## The commands -/

/-- BUF_ALLOC (R87): the handle and the key are no other buffer's, and the buffer is aligned to 4 KiB. -/
def execBufAlloc (r : Req) (cell size : Nat) (s : State) : Host.Outcome State Fault Refusal :=
  .next (s.request r 0x40 fun s =>
    if 64 ≤ cell then s.reply r 0x40 Status.BAD_PARAM []
    else if s.owns r.sess cell = false then s.reply r 0x40 Status.NOT_OWNER []
    else if size = 0 ∨ 2 ^ 28 < size then s.reply r 0x40 Status.RANGE []
    else if s.rd Sys.BUF_POOL_SIZE * 256 < s.poolUsed + ceilDiv size 4096 then s.reply r 0x40 Status.NO_RESOURCE []
    else
      let (k, s) := s.draw
      let all := s.nmp.buffers.map Prod.snd
      let b : Buffer := {
        handle := freshNumber (Config.bufferHandle k).toNat (all.map Buffer.handle), cell := cell, size := size
        key := freshNumber (Config.rdmaKey k).toNat (all.map Buffer.key), keyValid := true
        va := (Config.remoteAddress k).toNat / 4096 * 4096 }
      let s := { s with nmp := { s.nmp with bufSerial := s.nmp.bufSerial + 1 } }
      (s.setBuf s.nmp.bufSerial b).reply r 0x40 Status.OK (leBytes 8 b.handle ++ leBytes 4 b.key ++ leBytes 8 b.va))

/-- From BUF_FREE onward no scope is rendered into a buffer, and SCOPE_BUFFER reads 0 (R242). -/
def State.dropScope (s : State) (h : Nat) : State :=
  (List.range 32).foldl (fun t c => if t.rd (Stat.SCOPE_BUFFER c) = h then t.wr (Stat.SCOPE_BUFFER c) 0 else t) s

/-- A layer that scans a buffer when it is freed is STALE (R302). -/
def State.markStale (s : State) (h : Nat) : State :=
  (List.range 16).foldl (fun t k => if h ≠ 0 ∧ t.rd (Head.LAYER_CURRENT (k / 4) (k % 4)) = h then
    t.upd (Head.LAYER_STATUS (k / 4) (k % 4)) fun v => setFlag v 0 else t) s

/-- BUF_FREE (R89, R90): the key is revoked at once; the reply waits for RDMA messages in progress; the memory returns at
the retire fence. -/
def execBufFree (r : Req) (handle : Nat) (s : State) : Host.Outcome State Fault Refusal :=
  .next (s.request r 0x41 fun s =>
    match s.bufOf handle with
    | none => s.reply r 0x41 Status.BAD_PARAM []
    | some (n, b) =>
      if s.owns r.sess b.cell = false then s.reply r 0x41 Status.NOT_OWNER []
      else
        let busy := decide (0 < b.inProgress)
        let b' := { b with keyValid := false, freed := true, freedBy := r.sess, waiting := if busy then some r else none }
        let s := s.setBuf n b'
        let s := if s.bufInUse b.handle then (s.count Sys.BUF_EARLY_FREE).bufNotify b' 2 else s
        let s := (s.dropScope b.handle).markStale b.handle
        if busy then s else (s.reply r 0x41 Status.OK []).retireFreed)

/-- BUF_INFO (R73): size, cell, whether BUF_FREE has revoked the key, RDMA key, remote address, RDMA messages in progress. DESIGN CHOICE: R73
says "state of a buffer" only; the fields and their layout are the model's. -/
def execBufInfo (r : Req) (handle : Nat) (s : State) : Host.Outcome State Fault Refusal :=
  .next (s.request r 0x42 fun s =>
    match s.nmp.buffers.find? (fun p => p.2.handle == handle) with
    | none => s.reply r 0x42 Status.BAD_PARAM []
    | some (_, b) =>
      s.reply r 0x42 Status.OK (leBytes 8 b.size ++ leBytes 4 b.cell ++ leBytes 4 (if b.freed then 1 else 0) ++
        leBytes 4 b.key ++ leBytes 8 b.va ++ leBytes 4 b.inProgress))

end Sys2Proof.Machine
end

