-- ==== Sys2Proof/Machine/Address.lean ====
section
/-! DEFINITION. The addresses of the Ethernet ports (R63, Table 12-1). -/

namespace Sys2Proof.Machine

/-- The link-local IPv6 address of a port: fe80::/64 and the modified EUI-64 of its MAC (Table 12-1). -/
def State.linkLocal (s : State) (p : Nat) : List Byte :=
  let m := beBytes 6 (s.rd (Eth.MAC_ADDRESS p))
  let first := BitVec.ofNat 8 ((m.getD 0 0).toNat ^^^ 2)
  [0xFE, 0x80] ++ zeroBytes 6 ++ [first] ++ slice m 1 2 ++ [0xFF, 0xFE] ++ slice m 3 3

/-- Whether an address is one of the port's own: its static address of the family, or its link-local address. -/
def State.ownAddress (s : State) (p : Nat) (a : List Byte) : Bool :=
  if a.length = 4 then s.rd (Eth.IPV4_ADDRESS p) != 0 && beNat a == s.rd (Eth.IPV4_ADDRESS p)
  else a.length == 16 && (a == s.linkLocal p || (a == s.rdBlob (Eth.IPV6_ADDRESS p) && a != zeroBytes 16))

end Sys2Proof.Machine
end

