-- ==== Sys2Proof/Machine/Qp.lean ====
section
/-! DEFINITION. The table of RoCEv2 queue pairs (R313 to R315). -/

namespace Sys2Proof.Machine

/-- QP_COUNT of both ports after a change of the queue pairs (Table 12-9). -/
def State.countQps (s : State) : State :=
  s.wrAll ([0, 1].map fun p => (Eth.QP_COUNT p, (s.qps.filter fun (q : Nat × Qp) => q.2.port == p).length))

/-- Sets one queue pair. -/
def State.setQp (s : State) (k : Nat) (q : Qp) : State := { s with qps := tins s.qps k q }

/-- Disconnects every queue pair of a kind. -/
def State.dropQps (s : State) (p : Qp → Bool) : State :=
  if s.qps.any (fun q => p q.2) then ({ s with qps := s.qps.filter fun q => !p q.2 }).countQps else s

/-- The queue pairs of both ports, at most (Table 12-3). -/
def qpLimit : Nat := 1024

/-- A path MTU that RoCEv2 supports (Table 12-3). -/
def pathMtuOk (mtu : Nat) : Bool := mtu == 1024 || mtu == 2048 || mtu == 4096

/-- Connects a queue pair under the next number. -/
def State.addQp (s : State) (port mtu : Nat) (use : QpUse) : State :=
  ({ s with qps := tins s.qps s.qpSerial { port := port, use := use, mtu := mtu }, qpSerial := s.qpSerial + 1 }).countQps

/-! ## RoCEv2 egress (R313) -/

def State.eth (s : State) (k : Nat) : EthSt := tget s.eths k {}
def State.setEth (s : State) (k : Nat) (x : EthSt) : State := { s with eths := tset s.eths k {} x }

/-- A pause holds RoCEv2 egress now. -/
def State.paused (s : State) (p : Nat) : Bool :=
  match (s.eth p).pause with
  | some e => decide (s.clock < e.2)
  | none => false

/-- An output leaves; `extra` frames that its kind does not count by itself. -/
def State.roceNow (s : State) (p extra : Nat) (o : Output) : State :=
  if extra = 0 then s.emit o else (s.emit o).txFrames (p % 2) extra

/-- RoCEv2 output that a pause held leaves once the pause is over. -/
def State.roceFlush (s : State) (p : Nat) : State :=
  if s.paused p ∨ (s.eth p).held = [] then s
  else
    let l := (s.eth p).held
    l.foldl (fun (t : State) e => t.roceNow p e.1 e.2) (s.setEth p { s.eth p with held := [] })

/-- RoCEv2 output on a port: a PFC pause on ROCE_PRIORITY holds it (R313). DESIGN CHOICE: held output leaves at the first event of the port, or
tick edge, after the pause. -/
def State.roceOut (s : State) (p extra : Nat) (o : Output) : State :=
  let s := s.roceFlush p
  if s.paused p then s.setEth p { s.eth p with held := (s.eth p).held ++ [(extra, o)] } else s.roceNow p extra o

end Sys2Proof.Machine
end

