-- ==== Sys2Proof/Machine/Nmp.lean ====
section
/-! DEFINITION. The Negor Mailbox Protocol: datagrams, sessions, sequence numbers, ownership and NOTIFY (spec/03). -/

namespace Sys2Proof.Machine

/-! ## The wire form of a message (Table 03-1, R65, R66) -/

/-- The header of one segment. -/
def nmpHeader (m : Msg) (count index length : Nat) : List Byte :=
  leBytes 1 0x01 ++ leBytes 1 m.op ++ leBytes 1 m.sess ++ leBytes 1 (1 + (if 1 < count then 2 else 0)) ++ leBytes 4 m.seq ++
    leBytes 2 m.status ++ leBytes 2 length ++ leBytes 2 index ++ leBytes 2 count

/-- The tag of a datagram: the first 16 bytes of HMAC-SHA-256 over header and payload (R65). -/
def nmpTag (key hdrAndPayload : List Byte) : List Byte := (hmacSha256 key hdrAndPayload).take 16

/-- The datagrams a message leaves in: segments of at most 1,408 bytes, each tagged on its own; an unauthenticated reply
of R68 carries an all-zero tag. -/
def Msg.datagrams (m : Msg) (key : Option (List Byte)) : List (List Byte) :=
  let count := max 1 (ceilDiv m.payload.length 1408)
  (List.range count).map fun i =>
    let part := slice m.payload (1408 * i) 1408
    let body := nmpHeader m count i part.length ++ part
    body ++ (match key with | some k => nmpTag k body | none => zeroBytes 16)

/-- A request header as received. -/
structure NmpHeader where
  version : Nat
  op : Nat
  sess : Nat
  response : Bool
  segmented : Bool
  seq : Nat
  length : Nat
  index : Nat
  count : Nat
  deriving DecidableEq, Repr

/-- Reads the 16-byte header of Table 03-1. -/
def parseHeader (bs : List Byte) : NmpHeader :=
  let h := leNat (bs.take 16)
  { version := bits h 7 0, op := bits h 15 8, sess := bits h 23 16, response := bit h 24, segmented := bit h 25,
    seq := bits h 63 32, length := bits h 95 80, index := bits h 111 96, count := bits h 127 112 }

/-- R65, reason 7: a header no request may carry. -/
def NmpHeader.bad (h : NmpHeader) : Bool :=
  h.count == 0 || decide (64 < h.count) || decide (h.count ≤ h.index) || (h.segmented != decide (1 < h.count)) || h.response ||
    (h.op == 0x01 && h.sess != 0)

/-! ## Sessions -/

/-- Counts a dropped datagram under its reason (R65). -/
def State.drop (s : State) (reason : Nat) : State := s.count (Sys.NMP_DROP_COUNT reason)

/-- An unauthenticated reply to SESSION_OPEN: at most 10 of them in any interval of 1 s over both ports (R68). -/
def State.openRefused (s : State) (port : Nat) (peer : Peer) (seq status : Nat) : State :=
  let recent := s.nmp.authReplies.filter fun t => decide (s.clock < t + 1000000000)
  if recent.length < 10 then
    ({ s with nmp := { s.nmp with authReplies := s.clock :: recent } }).sendNmp port peer false ⟨0, seq, 0x01, status, []⟩
  else { s with nmp := { s.nmp with authReplies := recent } }

/-- Whether a session ID may be assigned: not in use, and no orphaned cell holds it (R68). -/
def State.idFree (s : State) (id : Nat) : Bool :=
  (s.session id).isNone && !(s.nmp.cells.any fun p => p.2.owner == id && p.2.orphan)

/-- The next session ID from 1 to 255, cyclically after the one assigned last (R68). -/
def State.nextSessionId (s : State) : Nat :=
  (((List.range 255).map fun k => (s.nmp.lastId + k) % 255 + 1).find? fun id => s.idFree id).getD 0

/-- Ends a trace subscription of a session (R493). -/
def State.endSubscription (s : State) (sess : Nat) : State :=
  { s with obs := { s.obs with dests := s.obs.dests.filter fun p => p.1 == 0 || p.2.sess != sess } }

/-- Frees every cell a session owns (R72), or leaves it orphaned with its EXPIRY unchanged (R82, R93). -/
def State.leaveCells (s : State) (sess : Nat) (orphan : Bool) : State :=
  s.nmp.cells.foldl (fun t p =>
    if t.owns sess p.1 then t.setCell p.1 (if orphan then { t.cell p.1 with orphan := true } else (t.cell p.1).freed) else t) s

/-- Closes a session: its cells, its buffer-service queue pairs (R315), its staged entries, its trace subscription, its unacknowledged messages, and the segments
and held replies that belong to it. -/
def State.closeSession (s : State) (sess : Nat) (orphan : Bool) : State :=
  let s := ((s.leaveCells sess orphan).endSubscription sess).dropQps fun q => q.use == .buffer sess
  { s with nmp := { s.nmp with
      sessions := tdel s.nmp.sessions sess
      partials := s.nmp.partials.filter fun p => decide (p.1 / 2 ^ 32 ≠ sess) } }

/-- The SEQUENCE window after a request `q` is accepted (R70). -/
def Session.accept (x : Session) (q : Nat) : Session :=
  match x.high with
  | none => { x with high := some q, window := 1, cache := [] }
  | some h =>
    if later 32 q h then
      let d := (q + 2 ^ 32 - h) % 2 ^ 32
      let x' := { x with high := some q, window := if d ≤ 63 then (x.window * 2 ^ d + 1) % 2 ^ 64 else 1 }
      { x' with cache := x'.cache.filter fun p => x'.inWindow p.1 }
    else { x with window := setFlag x.window ((h + 2 ^ 32 - q) % 2 ^ 32) }

/-- What the SEQUENCE of a request means (R70). -/
inductive SeqVerdict where
  | accept | replay (m : Msg) | inFlight | stale
  deriving DecidableEq, Repr

/-- R70: accepted, replayed from the cache, dropped as in flight, or dropped as stale. -/
def Session.verdict (x : Session) (q : Nat) : SeqVerdict :=
  match x.high with
  | none => .accept
  | some h =>
    if later 32 q h then .accept
    else
      let d := (h + 2 ^ 32 - q) % 2 ^ 32
      if d ≤ 63 then
        if bit x.window d then
          (match tfind x.cache q with
           | some m => .replay m
           | none => .inFlight)
        else .accept
      else .stale

/-- A complete authenticated request of a session: R70, then the limit of 8 (R71). -/
def State.requestArrived (s : State) (port : Nat) (peer : Peer) (sess seq op : Nat) (payload : List Byte) : State :=
  match s.session sess with
  | none => s
  | some x =>
    match x.verdict seq with
    | .stale => s.drop 4
    | .inFlight => s
    | .replay m => (s.count Sys.DUP_REPLAYED).sendNmp port peer true m
    | .accept =>
      if 8 ≤ x.inflight.length then
        (s.count Sys.BUSY_REPLIES).sendNmp port peer true ⟨sess, seq, op, Status.BUSY, []⟩
      else
        let x' := x.accept seq
        s.setSession sess { x' with inflight := x'.inflight ++ [⟨seq, op, port, payload⟩] }

/-- One segment of a request: alone, or joined with the others of its message (R66). DESIGN CHOICE: a segment whose OPCODE or SEG_COUNT
disagrees with the segments held is dropped and counted under no reason; R65 names none for it. -/
def State.segmentArrived (s : State) (port : Nat) (peer : Peer) (h : NmpHeader) (payload : List Byte) : State :=
  if h.count = 1 then s.requestArrived port peer h.sess h.seq h.op payload
  else
    let key := h.sess * 2 ^ 32 + h.seq
    let p := tget s.nmp.partials key { firstAt := s.clock, op := h.op, count := h.count }
    if p.op ≠ h.op ∨ p.count ≠ h.count then s
    else
      let p := { p with segs := tins p.segs h.index payload }
      if p.segs.length = p.count then
        ({ s with nmp := { s.nmp with partials := tdel s.nmp.partials key } }).requestArrived port peer h.sess h.seq h.op
          (p.segs.flatMap Prod.snd)
      else { s with nmp := { s.nmp with partials := tins s.nmp.partials key p } }

/-- NMP_DATAGRAM_RX (R63 to R65): a datagram to no address of the port, or outside its VLAN (DEDUCED from Table 12-9), is not Negor's; of any other the first reason that applies drops it
and is counted; else it is accepted. DESIGN CHOICE: a datagram whose tag verifies counts in NMP_RX_COUNT also where its SEQUENCE is then stale
(R70); Table 03-10 says "accepted" only. -/
def execNmpDatagramRx (port : Fin 2) (vlan : Nat) (peer : Peer) (dst : List Byte) (udpLen : Nat) (fragmented : Bool) (bytes : List Byte) (s : State) :
    Host.Outcome State Fault Refusal :=
  .next (
    let s := s.rxFrame port.val
    if s.negorAnswers = false ∨ vlan ≠ s.rd (Eth.VLAN_ID port.val) ∨ s.ownAddress port.val dst = false then s
    else if fragmented then s.drop 6
    else
      let h := parseHeader bytes
      let body := bytes.take (16 + h.length)
      let tag := slice bytes (16 + h.length) 16
      let payload := slice bytes 16 h.length
      if udpLen ≠ h.length + 32 ∨ 1408 < h.length then s.drop 0
      else if h.version ≠ 0x01 then s.drop 1
      else if h.bad then s.drop 7
      else if h.op = 0x01 then
        if nmpTag s.nmp.ownerKey body = tag then s.count (Sys.NMP_RX_COUNT port.val)
        else (s.drop 2).openRefused port.val peer h.seq Status.AUTH
      else
        match s.session h.sess with
        | none => s.drop 3
        | some x =>
          if nmpTag x.key body ≠ tag then s.drop 2
          else
            let s := (s.setSession h.sess { x with lastRequest := s.clock }).count (Sys.NMP_RX_COUNT port.val)
            s.segmentArrived port.val peer h payload)

/-- NMP_REASSEMBLY_TIMEOUT (R66). -/
def execNmpReassemblyTimeout (sess seq : Nat) (s : State) : Host.Outcome State Fault Refusal :=
  .next (match tfind s.nmp.partials (sess * 2 ^ 32 + seq) with
    | none => s
    | some p =>
      let s := s.at (p.firstAt + 500000000)
      ({ s with nmp := { s.nmp with partials := tdel s.nmp.partials (sess * 2 ^ 32 + seq) } }).drop 5)

/-- The reply payload of SESSION_OPEN (R67). -/
def State.openPayload (s : State) (id nonce : Nat) : List Byte :=
  leBytes 4 id ++ leBytes 16 nonce ++ leBytes 4 (s.rd Sys.INTERFACE_LEVEL) ++ leBytes 4 (s.rd Sys.VARIANT) ++
    leBytes 8 (s.rd Sys.CONTROL_RESTARTS) ++ leBytes 4 (s.rd Sys.LAST_RESTART_CAUSE) ++ leBytes 4 s.pow.global.code

/-- The session key (R67). -/
def sessionKey (owner hostNonce : List Byte) (nonce id : Nat) : List Byte :=
  hmacSha256 owner (ascii "NMP-SESS" ++ hostNonce ++ leBytes 16 nonce ++ leBytes 1 id)

/-- SESSION_OPEN (R67, R68): a request whose tag has verified; Negor has confirmed its start (R481). -/
def execSessionOpen (port : Fin 2) (peer : Peer) (seq : Nat) (payload : List Byte) (s : State) : Host.Outcome State Fault Refusal :=
  .next (
    if s.negorAnswers = false ∨ s.pow.confirmed = false then s
    else if 16 ≤ s.nmp.sessions.length then s.openRefused port.val peer seq Status.NO_RESOURCE
    else if payload.length ≠ 20 then s.openRefused port.val peer seq Status.BAD_PARAM
    else
      let (k, s) := s.draw
      let nonce := (Config.deviceNonce k).toNat
      let id := s.nextSessionId
      let x : Session := { key := sessionKey s.nmp.ownerKey (payload.take 16) nonce id, port := port.val, peer := peer,
                           mask := leAt payload 16 4, lastRequest := s.clock }
      let s := s.setSession id x
      let s := { s with nmp := { s.nmp with lastId := id } }
      s.sendNmp port.val peer true ⟨id, seq, 0x01, Status.OK, s.openPayload id nonce⟩)

/-- SESSION_CLOSE (R72): the reply leaves under the session key, and every cell of the session is released. -/
def execSessionClose (r : Req) (s : State) : Host.Outcome State Fault Refusal :=
  .next (s.request r 0x02 fun s => (s.reply r 0x02 Status.OK []).closeSession r.sess false)

/-- SESSION_IDLE_CLOSE (R72): the session closes and its cells stay orphaned. -/
def execSessionIdleClose (sess : Nat) (s : State) : Host.Outcome State Fault Refusal :=
  .next (match s.session sess with
    | none => s
    | some x =>
      if s.negorAnswers then
        (s.at (x.lastRequest + s.rd Sys.SESSION_IDLE_LIMIT * 1000000)).closeSession sess true
      else s)

/-! ## Ownership -/

/-- Expiry of one cell in hardware: freed, GEN increments, OWN_EXPIRED counts, the former owner is told (R85). -/
def State.expireCell (s : State) (c : Nat) : State :=
  let x := s.cell c
  let s1 := (s.setCell c x.freed).count Sys.OWN_EXPIRED
  if x.orphan then s1 else s1.notifyTo x.owner 3 1 (leBytes 1 c ++ leBytes 1 0 ++ leBytes 2 (x.gen + 1))

/-- Every lease whose EXPIRY has passed is handled before any refresh of the same cycle (R85). -/
def State.expireDue (s : State) : State :=
  s.nmp.cells.foldl (fun t p => if (t.cell p.1).owner ≠ 0 ∧ (t.cell p.1).expiry ≤ t.aon then t.expireCell p.1 else t) s

/-- AON cycles in a lease of `ms` milliseconds. -/
def leaseCycles (ms : Nat) : Nat := ms * 25000

/-- LEASE_EXPIRY (R85). -/
def execLeaseExpiry (cell : Fin 64) (s : State) : Host.Outcome State Fault Refusal :=
  .next (
    let x := s.cell cell.val
    if x.owner = 0 then s else (s.at (x.expiry * 40)).expireCell cell.val)

/-- A cell's record in a reply: cell, OWNER, GEN, state and remaining lease in ms (R83, R86). DESIGN CHOICE: its 12 bytes, the state codes 0
FREE, 1 OWNED, 2 ORPHANED, and the remaining lease rounded down; the spec names the fields and gives no layout. -/
def State.cellRecord (s : State) (c : Nat) : List Byte :=
  let x := s.cell c
  leBytes 1 c ++ leBytes 1 x.owner ++ leBytes 2 x.gen ++ leBytes 1 x.code ++ leBytes 3 0 ++ leBytes 4 ((x.expiry - s.aon) / 25000)

/-- HEARTBEAT (R72, R85). -/
def execHeartbeat (r : Req) (payload : List Byte) (s : State) : Host.Outcome State Fault Refusal :=
  .next (s.request r 0x03 fun s =>
    if payload.length ≠ 4 ∧ payload.length ≠ 8 then s.reply r 0x03 Status.BAD_PARAM []
    else
      let s := s.expireDue
      let s := s.nmp.cells.foldl (fun t p =>
        if t.owns r.sess p.1 then
          t.setCell p.1 { t.cell p.1 with expiry := t.aon + leaseCycles (t.cell p.1).lease }
        else t) s
      match s.session r.sess with
      | none => s
      | some x =>
        let a := leAt payload 0 4
        let ack := if later 32 a x.notifySeq then x.notifySeq else a
        let x' := { x with
          unacked := x.unacked.filter fun u => !(later 32 ack u.seq)
          mask := if payload.length = 8 then leAt payload 4 4 else x.mask }
        (s.setSession r.sess x').reply r 0x03 Status.OK [])

/-- One cell of an acquire: granted, refreshed, or left; the list gathers the cells granted and the cells refused (R83). DESIGN CHOICE: a
refresh takes the lease duration of the request as the cell's new LEASE; R83 says only that the lease is refreshed. -/
def State.acquireOne (st : State × List Nat × List Nat) (sess lease c : Nat) : State × List Nat × List Nat :=
  let s := st.1
  let x := s.cell c
  if x.owner = 0 then
    (s.setCell c { owner := sess, gen := (x.gen + 1) % 65536, lease := lease, expiry := s.aon + leaseCycles lease }, st.2.1 ++ [c], st.2.2)
  else if s.owns sess c then
    (s.setCell c { x with lease := lease, expiry := s.aon + leaseCycles lease }, st.2.1, st.2.2)
  else (s, st.2.1, st.2.2 ++ [c])

/-- OWN_ACQUIRE (R83, R84): all or nothing. DESIGN CHOICE: more than 64 cells, or a cell number of 64 or more, receive BAD_PARAM before the
lease duration is looked at; R83 gives no status for them. -/
def execOwnAcquire (r : Req) (cells : List Nat) (leaseMs : Nat) (s : State) : Host.Outcome State Fault Refusal :=
  .next (s.request r 0x20 fun s =>
    if 64 < cells.length ∨ cells.any (fun c => decide (64 ≤ c)) then s.reply r 0x20 Status.BAD_PARAM []
    else if leaseMs < 500 ∨ 60000 < leaseMs then s.reply r 0x20 Status.RANGE []
    else
      let s := s.expireDue
      let (s, granted, refused) := cells.foldl (fun st c => State.acquireOne st r.sess leaseMs c) (s, [], [])
      if refused = [] then s.reply r 0x20 Status.OK (cells.flatMap s.cellRecord)
      else
        let s := granted.foldl (fun t c => t.setCell c (t.cell c).freed) s
        (s.count Sys.OWN_CONTENDED).reply r 0x20 Status.BUSY (refused.flatMap s.cellRecord))

/-- OWN_RELEASE (R82). -/
def execOwnRelease (r : Req) (cells : List Nat) (s : State) : Host.Outcome State Fault Refusal :=
  .next (s.request r 0x21 fun s =>
    if cells.any (fun c => decide (64 ≤ c)) then s.reply r 0x21 Status.BAD_PARAM []
    else if cells.any (fun c => !s.owns r.sess c) then s.reply r 0x21 Status.NOT_OWNER []
    else (cells.foldl (fun t c => if t.owns r.sess c then t.setCell c (t.cell c).freed else t) s).reply r 0x21 Status.OK [])

/-- OWN_QUERY (R86). -/
def execOwnQuery (r : Req) (cells : List Nat) (s : State) : Host.Outcome State Fault Refusal :=
  .next (s.request r 0x22 fun s =>
    if 64 < cells.length ∨ cells.any (fun c => decide (64 ≤ c)) then s.reply r 0x22 Status.BAD_PARAM []
    else s.reply r 0x22 Status.OK (cells.flatMap s.cellRecord))

/-- OWN_RECLAIM (R86): all or nothing, one indivisible operation. -/
def execOwnReclaim (r : Req) (cells : List (Nat × Nat)) (s : State) : Host.Outcome State Fault Refusal :=
  .next (s.request r 0x23 fun s =>
    if 64 < cells.length ∨ cells.any (fun c => decide (64 ≤ c.1)) then s.reply r 0x23 Status.BAD_PARAM []
    else
      let s := s.expireDue
      let refused := cells.filter fun c => !((s.cell c.1).orphan && (s.cell c.1).owner != 0 && (s.cell c.1).gen == c.2)
      if refused = [] then
        let s := cells.foldl (fun t c =>
          let x := t.cell c.1
          if x.orphan then
            (t.setCell c.1 { x with owner := r.sess, orphan := false, gen := (x.gen + 1) % 65536, expiry := t.aon + leaseCycles x.lease }).notifyTo
              x.owner 3 2 (leBytes 1 c.1 ++ leBytes 1 0 ++ leBytes 2 (x.gen + 1))
          else t) s
        s.reply r 0x23 Status.OK (cells.flatMap fun c => s.cellRecord c.1)
      else s.reply r 0x23 Status.NOT_OWNER (refused.flatMap fun c => s.cellRecord c.1))

/-! ## Other requests -/

/-- UNSUPPORTED_OPCODE (R73). -/
def execUnsupportedOpcode (r : Req) (opcode : Nat) (s : State) : Host.Outcome State Fault Refusal :=
  .next (s.request r opcode fun s => s.reply r opcode Status.UNSUPPORTED [])

/-- NOTIFY_RETRANSMIT (R92): sent again 100 ms after the latest sending, at most 8 times in all, then given up. -/
def execNotifyRetransmit (sess seq : Nat) (s : State) : Host.Outcome State Fault Refusal :=
  .next (match s.session sess with
    | none => s
    | some x =>
      match x.unacked.find? (fun u => u.seq == seq) with
      | none => s
      | some u =>
        if s.negorAnswers = false then s
        else
          let s := s.at (u.sentAt + 100000000)
          if u.sends < 8 then
            let again (v : Unacked) : Unacked := if v.seq = seq then { v with sends := v.sends + 1, sentAt := s.clock } else v
            (s.setSession sess { x with unacked := x.unacked.map again }).sendNmp x.port x.peer true ⟨sess, seq, 0x80, 0, u.payload⟩
          else
            (s.setSession sess { x with unacked := x.unacked.filter (fun v => v.seq != seq), dropped := true }).count Sys.NOTIFY_DROPPED)

/-- DEVICE_RESTART (R477): cell 0, no payload; the restart follows 10 ms after the reply. -/
def execDeviceRestart (r : Req) (s : State) : Host.Outcome State Fault Refusal :=
  .next (s.request r 0x04 fun s =>
    if s.owns r.sess 0 = false then s.reply r 0x04 Status.NOT_OWNER []
    else
      let s := s.reply r 0x04 Status.OK []
      { s with pow := { s.pow with restartDue := some (s.clock + 10000000) } })

/-! ## Replies held back -/

/-- Holds the reply of a commit back, once for each request and cause. A further cause leaves what the reply says as it is. -/
def State.hold (s : State) (w : Wait) : State :=
  if s.nmp.waits.any (fun v => v.r == w.r && v.why == w.why) then s
  else
    let w := match s.nmp.waits.find? (fun v => v.r == w.r) with
      | some v => { v with why := w.why }
      | none => w
    { s with nmp := { s.nmp with waits := s.nmp.waits ++ [w] } }

/-- What a set of held replies waited for has come: each is sent once nothing else holds it back. A status other than OK
replaces the one held, and `tail` is carried after the fields of R79 under a key. -/
def State.releaseIf (s : State) (p : Wait → Bool) (status : Nat) (tail : Option (Nat × List Byte)) : State :=
  let done := s.nmp.waits.filter p
  let others (w : Wait) : Bool := done.any fun d => d.r == w.r
  let withTail (w : Wait) : Wait :=
    { w with
      tails := match tail with | some e => tins w.tails e.1 e.2 | none => w.tails
      status := if status = Status.OK then w.status else status }
  let rest := (s.nmp.waits.filter fun w => !p w).map fun w => if others w then withTail w else w
  done.foldl (fun t w =>
    if rest.any (fun v => v.r == w.r) then t
    else
      let w := withTail w
      let gen := w.gen.getD (t.rd Tick.PLAN_GENERATION)
      t.reply w.r w.op w.status (if completes w.status then commitReply w.edge gen ++ (w.tails.flatMap Prod.snd) else []))
    { s with nmp := { s.nmp with waits := rest } }

/-- Releases every reply that waits for a cause. -/
def State.release (s : State) (why : WaitFor) (status : Nat) : State := s.releaseIf (fun w => w.why == why) status none

end Sys2Proof.Machine
end

