-- ==== Sys2Proof/Machine/Fields.lean ====
section
/-! DEFINITION. Reading and changing the per-instance records of the state, and what a commit hands to the checks and
effects of the chapters (R79). -/

namespace Sys2Proof.Machine

/-! ## Per-instance records -/

def State.lane (s : State) (k : Nat) : LaneSt := tget s.lanes k {}
def State.setLane (s : State) (k : Nat) (x : LaneSt) : State := { s with lanes := tset s.lanes k {} x }
def State.port (s : State) (k : Nat) : PortSt := tget s.ports k {}
def State.setPort (s : State) (k : Nat) (x : PortSt) : State := { s with ports := tset s.ports k {} x }
def State.trig (s : State) (k : Nat) : TrigSt := tget s.trigs k {}
def State.setTrig (s : State) (k : Nat) (x : TrigSt) : State := { s with trigs := tset s.trigs k {} x }
def State.ingest (s : State) (k : Nat) : IngSt := tget s.ing k {}
def State.setIngest (s : State) (k : Nat) (x : IngSt) : State := { s with ing := tset s.ing k {} x }
def State.ticketing (s : State) (k : Nat) : TicketSt := tget s.tickets k {}
def State.setTicketing (s : State) (k : Nat) (x : TicketSt) : State := { s with tickets := tset s.tickets k {} x }
def State.exposure (s : State) (k : Nat) : ExpSt := tget s.expo k {}
def State.setExposure (s : State) (k : Nat) (x : ExpSt) : State := { s with expo := tset s.expo k {} x }
def State.bus (s : State) (k : Nat) : BusSt := tget s.buses k {}
def State.setBus (s : State) (k : Nat) (x : BusSt) : State := { s with buses := tset s.buses k {} x }
def State.ctxSt (s : State) (k : Nat) : CtxSt := tget s.ctxs k {}
def State.setCtx (s : State) (k : Nat) (x : CtxSt) : State := { s with ctxs := tset s.ctxs k {} x }
def State.rend (s : State) (c v : Nat) : RendSt := tget (s.ctxSt c).rends v {}
def State.setRend (s : State) (c v : Nat) (x : RendSt) : State :=
  s.setCtx c { s.ctxSt c with rends := tset (s.ctxSt c).rends v {} x }
def State.head (s : State) (k : Nat) : HeadSt := tget s.heads k {}
def State.setHead (s : State) (k : Nat) (x : HeadSt) : State := { s with heads := tset s.heads k {} x }
def State.stream (s : State) (k : Nat) : StreamSt := tget s.streams k {}
def State.setStream (s : State) (k : Nat) (x : StreamSt) : State := { s with streams := tset s.streams k {} x }
def State.sync (s : State) (k : Nat) : FsyncSt := tget s.fsync k {}
def State.setSync (s : State) (k : Nat) (x : FsyncSt) : State := { s with fsync := tset s.fsync k {} x }
def State.ringPort (s : State) (k : Nat) : RingPort := tget s.ringPorts k {}
def State.setRingPort (s : State) (k : Nat) (x : RingPort) : State := { s with ringPorts := tset s.ringPorts k {} x }
def State.aud (s : State) (k : Nat) : AudSt := tget s.auds k {}
def State.setAud (s : State) (k : Nat) (x : AudSt) : State := { s with auds := tset s.auds k {} x }

/-! ## READY and RUN -/

/-- A context that is ACTIVE. -/
def State.active (s : State) (c : Nat) : Bool := s.rd (Ctx.CTX_STATE c) == 1

/-- RUN while a context is active or a clip is open, READY without (Table 01-5). -/
def State.updateRun (s : State) : State :=
  let busy := (List.range 32).any s.active || decide (0 < s.rd Rec.OPEN_CLIPS)
  if s.pow.global = .ready ∧ busy then s.setGlobal .run
  else if s.pow.global = .run ∧ busy = false then s.setGlobal .ready
  else s

/-! ## Commits -/

/-- What a commit hands to the checks and effects of its entries: the request, the IDs of all its entries, the state
before it, the state with every numeric entry written, and its target ticket (R79, R252). -/
structure Txn where
  r : Req
  op : Nat
  ids : List Nat
  old : State
  cand : State
  target : Nat

/-- The number of a value; a BLOB counts as 0. -/
def PVal.toNat : PVal → Nat
  | .num v => v
  | _ => 0

/-- The bytes of a BLOB value: its own, or the first bytes of the buffer it names (R77). -/
def State.valBytes (s : State) : PVal → List Byte
  | .num _ => []
  | .blob b => b
  | .handle h n =>
    match s.bufOf h with
    | some (serial, b) => s.bufBytes serial (min n b.size)
    | none => []

/-- Whether an ID is an entry of the commit. -/
def Txn.has (t : Txn) (id : Nat) : Bool := t.ids.contains id

/-- The first status of a list that is not OK. -/
def firstBad : List Nat → Nat
  | [] => Status.OK
  | s :: r => if s = Status.OK then firstBad r else s

/-- `st` where a condition holds, else OK. -/
def failIf (b : Bool) (st : Nat) : Nat := if b then st else Status.OK

end Sys2Proof.Machine
end

