-- ==== Sys2Proof/Machine/Maint.lean ====
section
/-! DEFINITION. The maintenance arbiter and Ledger writes through it (R49, R50, R485). -/

namespace Sys2Proof.Machine

/-- The longest run of a stall-class activity in ns (Table 02-6). -/
def maintRun (act : Nat) : Nat := [10000, 16000, 2000, 18000].getD act 0

/-- The ideal position of the next edge in ns × N where nothing re-phases (R34). -/
def State.nextPos (s : State) : Nat := s.tick.pos + 1000000000 * s.rd Tick.TICK_RATE_D

/-- A position in ns × N on the 2 ns grid: the grid point below it, or above it by a bit that the spec leaves open. -/
def State.gridEdge (s : State) (pos : Nat) : Nat :=
  let d := 2 * max 1 (s.rd Tick.TICK_RATE_N)
  if Config.roundUp 0 then ceilDiv pos d * 2 else pos / d * 2

/-- The time left before the next tick edge. -/
def State.timeLeft (s : State) : Nat := s.gridEdge s.nextPos - s.clock

/-- The channel that an interval retraining takes: one with a drift alarm before those whose turn it is (R433); channels out of
service are passed over. -/
def State.retrainChannel (s : State) : Option Nat :=
  let turn := (s.tick.chans.filter fun (e : Nat × Nat) => e.1 == 1).map Prod.snd
  (s.dram.alarms ++ turn).find? fun c => s.rd (Dram.CHANNEL_STATE c) == 1

/-- An activity starts. Where it works on one channel, requests for others go on waiting (R50). -/
def State.maintStart (s : State) (a : Nat) : State :=
  let ch : Option Nat := if a = 1 then s.retrainChannel
    else ((s.tick.chans.find? fun (e : Nat × Nat) => e.1 == a)).map Prod.snd
  let chans := match ch with
    | some c => s.tick.chans.filter fun (e : Nat × Nat) => !(e.1 == a && e.2 == c)
    | none => s.tick.chans.filter fun (e : Nat × Nat) => e.1 != a
  let more := chans.any fun (e : Nat × Nat) => e.1 == a
  let s := { s with tick := { s.tick with
    active := some a, chans := chans, waiting := if more then s.tick.waiting else clearFlag s.tick.waiting a
    waits := tdel s.tick.waits a } }
  match a, ch with
  | 1, some c => s.wr (Dram.CHANNEL_STATE c) 2
  | _, _ => s

/-- The arbiter chooses: the waiting activity of highest priority whose longest run fits the time left (R49). -/
def State.maintChoose (s : State) : State :=
  if s.tick.gap && !s.tick.ran && s.tick.active.isNone && s.tick.waiting != 0 then
    let s := { s with tick := { s.tick with ran := true } }
    match (List.range 4).find? fun a => bit s.tick.waiting a && decide (maintRun a ≤ s.timeLeft) with
    | some a => s.maintStart a
    | none => s
  else s

/-- A request: it merges with one that waits, and may be chosen where it is the first of this gap (R49, R50). -/
def State.maintAsk (s : State) (act ch : Nat) : State :=
  let chans := if act = 1 ∨ act = 2 then (if s.tick.chans.contains (act, ch) then s.tick.chans else s.tick.chans ++ [(act, ch)])
    else s.tick.chans
  ({ s with tick := { s.tick with waiting := setFlag s.tick.waiting act, chans := chans } }).maintChoose

/-- The gap ends at a tick edge: every activity still waiting has waited one gap more (R50). -/
def State.maintWaited (s : State) : State :=
  let s := (List.range 4).foldl (fun t a =>
    if bit t.tick.waiting a then
      let w := tget t.tick.waits a 0 + 1
      let t := { t with tick := { t.tick with waits := tset t.tick.waits a 0 w } }
      (t.count (Tick.MAINT_WAIT_COUNT a)).raise (Tick.MAINT_MAX_WAIT a) w
    else t) s
  { s with tick := { s.tick with gap := false, ran := false, budgetOver := false } }

/-- The gap begins (R49). -/
def State.gapStart (s : State) : State :=
  if s.tick.gap then s else ({ s with tick := { s.tick with gap := true } }.fire 2).maintChoose

/-- A Ledger write: through the arbiter while the tick runs, at once before (R485, Table 02-6). -/
def State.ledgerPut (s : State) (lo hi : Nat) (bytes : List Byte) : State :=
  if s.tick.running then
    ({ s with pow := { s.pow with ledgerQueue := s.pow.ledgerQueue ++ [(lo, hi, bytes)] } }).maintAsk 3 0
  else s.ledgerWrite lo hi bytes

end Sys2Proof.Machine
end

