-- ==== Sys2Proof/Machine/AudRing.lean ====
section
/-! DEFINITION. What the parameters of an audio port say: its rate, its frame format, its ring (R401, R402, R406, R407). -/

namespace Sys2Proof.Machine

/-- The base rate of a family: A 48 kHz, B 44.1 kHz (R402). -/
def baseRate (family : Nat) : Nat := if family = 0 then 48000 else 44100

/-- The sample rate of a port (R402). -/
def State.audRate (s : State) (p : Nat) : Nat := baseRate (s.rd (Aud.FAMILY p)) * 2 ^ s.rd (Aud.RATE_MULT p)

/-- Fields of TDM_FORMAT (Table 15-1). -/
def tdmSlots (f : Nat) : Nat := bits f 4 0 + 1
def tdmWidth (f : Nat) : Nat := [16, 20, 24, 32].getD (bits f 6 5) 32
def tdmOffset (f : Nat) : Nat := bits f 12 8
def tdmLength (f : Nat) : Nat := [32, 64, 128, 256, 512, 1024].getD (bits f 18 16) 1024

/-- The sample width and the packing of SAMPLE_FORMAT (R406). -/
def sampleWidth (f : Nat) : Nat := [16, 20, 24, 32].getD (bits f 1 0) 32
def packing (f : Nat) : Nat := bits f 3 2

/-- Bytes of a packed sample (Table 15-3). -/
def packBytes (pk : Nat) : Nat := [2, 3, 4, 4].getD pk 4

/-- Combinations marked in Table 15-3. -/
def packOk (f : Nat) : Bool :=
  match packing f with
  | 0 => sampleWidth f == 16
  | 1 => sampleWidth f == 20 || sampleWidth f == 24
  | _ => sampleWidth f != 16

/-- A sample of `w` bits in memory (Table 15-3). -/
def packSample (pk w v : Nat) : List Byte :=
  match pk with
  | 0 => leBytes 2 v
  | 1 => leBytes 3 (v * 2 ^ (24 - w))
  | 2 => leBytes 4 (v * 2 ^ (32 - w))
  | _ => leBytes 4 (ofSigned 32 (toSigned w v))

/-- A sample of `w` bits out of its packed bytes. -/
def unpackSample (pk w : Nat) (b : List Byte) : Nat :=
  let v := leNat b
  match pk with
  | 0 => v % 2 ^ w
  | 1 => v / 2 ^ (24 - w)
  | 2 => v / 2 ^ (32 - w)
  | _ => v % 2 ^ w

/-- A ring descriptor (Table 15-4). -/
structure AudRing where
  handle : Nat
  frames : Nat
  count : Nat
  channels : Nat
  version : Nat
  deriving DecidableEq, Repr

def parseRing (b : List Byte) : AudRing :=
  let v := leNat b
  { handle := bits v 255 192, frames := bits v 191 160, count := bits v 127 112, channels := bits v 111 104, version := bits v 7 0 }

/-- The period stride in bytes (R407). -/
def AudRing.stride (r : AudRing) (pk : Nat) : Nat := alignUp (r.frames * r.channels * packBytes pk) 64

/-- Ring and status area in bytes (R407). -/
def AudRing.bytes (r : AudRing) (pk : Nat) : Nat := r.count * r.stride pk + r.count * 32

/-- Fields within the bounds of Table 15-4, and reserved bits 0. -/
def AudRing.ok (r : AudRing) (b : List Byte) : Bool :=
  decide (16 ≤ r.frames ∧ r.frames ≤ 65536 ∧ 4 ≤ r.count ∧ r.count ≤ 64 ∧ 1 ≤ r.channels ∧ r.channels ≤ 32 ∧ r.version = 1) &&
    bits (leNat b) 159 128 == 0 && bits (leNat b) 103 8 == 0

/-- The ring a port has: its descriptor and the serial number of its buffer, held to the retire fence of the buffer (Table
15-6). -/
def State.audRing (s : State) (p : Nat) : Option (AudRing × Nat) :=
  let b := s.rdBlob (Aud.AUD_RING p)
  let r := parseRing b
  if r.handle = 0 then none
  else
    match s.nmp.buffers.find? fun e => e.2.handle == r.handle with
    | some (serial, _) => some (r, serial)
    | none => none

/-- The byte of position `n` in the ring (R408). -/
def AudRing.at (r : AudRing) (pk mask n : Nat) : Nat :=
  (n / r.frames) % r.count * r.stride pk + n % r.frames * (popcount 32 mask * packBytes pk)

/-- The device clock at which the frame of a position starts (R403, R408). -/
def State.audFrameAt (s : State) (p n : Nat) : Nat :=
  let x := s.aud p
  x.baseClock + (n - x.basePos) * 1000000000 / s.audRate p

/-- The frames of a port that start before a device clock, of those it has had. -/
def State.audPosAt (s : State) (p clock : Nat) : Nat :=
  let x := s.aud p
  min (s.rd (Aud.HW_POSITION p)) (x.basePos + ceilDiv ((clock - x.baseClock) * s.audRate p) 1000000000)

/-- Audio ports run: READY, RUN, and FAULT_HOLD with its limits; Duiker is a profile of READY and RUN (R416). -/
def State.audioRuns (s : State) : Bool := s.pow.global == .ready || s.pow.global == .run || s.pow.global == .faultHold

end Sys2Proof.Machine
end

