-- ==== Sys2Proof/Machine/I2c.lean ====
section
/-! DEFINITION. The I2C controllers: transactions, descriptor lists, bus states, and the end of a host list (spec/10). -/

namespace Sys2Proof.Machine

/-! ## Transactions (R276, R277) -/

/-- Nominal bit time in ns (Table 10-1). -/
def bitTime (speed : Nat) : Nat := [10000, 2500, 1000].getD speed 10000

/-- The estimate of a transaction in bit times (R251); a READ with a pointer has a repeated START and a second address
byte; QUICK and a poll send the address only (R276, R278). -/
def Xact.bits (x : Xact) : Nat :=
  if 2 ≤ x.op then 11
  else if x.op = 1 ∧ x.ptrBytes ≠ 0 then 9 * (2 + x.ptrBytes + x.len) + 3 else 9 * (1 + x.ptrBytes + x.len) + 2

/-- The estimate of a transaction in ns. -/
def Xact.time (x : Xact) : Nat := x.bits * bitTime x.speed

/-- The page size of a PAGE_CODE (Table 10-3). -/
def pageSize (code : Nat) : Nat := 2 ^ (code + 2)

/-- A WRITE cut wherever its pointer crosses a multiple of the page (R277). -/
def Xact.split (x : Xact) (page : Nat) : Nat → List Xact
  | 0 => [x]
  | fuel + 1 =>
    let room := page - x.ptr % page
    if x.len ≤ room then [x]
    else
      { x with data := x.data.take room, len := room } ::
        Xact.split { x with ptr := (x.ptr + room) % 2 ^ (8 * x.ptrBytes), data := x.data.drop room, len := x.len - room } page fuel

/-- The transactions of a descriptor: one, or the parts of a split WRITE. -/
def Xact.parts (x : Xact) (pageCode : Nat) : List Xact :=
  if pageCode = 0 then [x] else x.split (pageSize pageCode) 256

/-- The bytes a transaction puts on the bus up to its data (R276). -/
def Xact.wire (x : Xact) : List Byte :=
  let ptr := beBytes x.ptrBytes x.ptr
  let wr : Byte := BitVec.ofNat 8 (2 * x.addr)
  let rdB : Byte := BitVec.ofNat 8 (2 * x.addr + 1)
  if x.op = 0 then wr :: (ptr ++ x.data)
  else if x.op = 1 then (if x.ptrBytes = 0 then [rdB] else wr :: (ptr ++ [rdB]))
  else [wr]

/-! ## Descriptor lists (R279) -/

/-- Parses the descriptors of a list: each with its transactions; none where a length is wrong or a field is refused. -/
def parseDescriptors : Nat → List Byte → Option (List (List Xact))
  | 0, bs => if bs = [] then some [] else none
  | n + 1, bs =>
    if bs.length < 8 then none
    else
      let d := leNat (bs.take 8)
      let op := bits d 15 14
      let ptrBytes := bits d 17 16
      let page := bits d 23 20
      let len := if op = 2 then 0 else bits d 47 39 + 1
      let body := if op = 0 then alignUp len 8 else 0
      let x : Xact := { op := op, addr := bits d 38 32, speed := bits d 19 18, ptr := bits d 63 48 % 2 ^ (8 * ptrBytes),
                        ptrBytes := ptrBytes, data := if op = 0 then slice bs 8 len else [], len := len, poll := bits d 31 24 }
      let bad := op == 3 || ptrBytes == 3 || x.speed == 3 || decide (6 < page) || decide (x.addr < 8) || decide (0x77 < x.addr) ||
        (op == 2 && bits d 47 39 != 0) || (page != 0 && (ptrBytes == 0 || op != 0)) || decide (bs.length < 8 + body)
      if bad then none
      else (parseDescriptors n (bs.drop (8 + body))).map fun r => x.parts page :: r

/-- Parses a descriptor list: header, then COUNT descriptors and nothing more. -/
def parseXfer (bs : List Byte) : Option (List (List Xact)) :=
  let h := leNat (bs.take 8)
  if bs.length < 8 ∨ 4096 < bs.length ∨ bits h 7 0 ≠ 1 ∨ bits h 15 8 = 0 ∨ 16 < bits h 15 8 ∨ bits h 63 16 ≠ 0 then none
  else parseDescriptors (bits h 15 8) (bs.drop 8)

/-- The sum of the estimates and of the POLL_LIMIT values, in ns (R279). -/
def xferTime (ds : List (List Xact)) : Nat :=
  (ds.map fun (d : List Xact) => (d.map Xact.time).sum + (d.getD 0 {}).poll * 1000000).sum

/-! ## Bus states (R272) -/

/-- Puts a bus into a state of Table 10-2. -/
def State.busTo (s : State) (b st : Nat) : State :=
  (s.setBus b { s.bus b with since := s.clock }).wr (I2c.BUS_STATE b) st

/-- Stores a code in LAST_ERROR and counts it (Table 10-5). -/
def State.i2cCode (s : State) (b code : Nat) : State :=
  let s := s.wr (I2c.LAST_ERROR b) code
  match code with
  | 1 => s.count (I2c.ADDR_NACK_COUNT b)
  | 2 => s.count (I2c.DATA_NACK_COUNT b)
  | 3 => s.count (I2c.ARB_LOST_COUNT b)
  | 4 => s.count (I2c.ARB_LOST_STOP_COUNT b)
  | 5 => s.count (I2c.ARB_LOST_RSTART_COUNT b)
  | 6 => s.count (I2c.BUS_ERROR_COUNT b)
  | 7 => s.count (I2c.SCL_TIMEOUT_COUNT b)
  | 8 => s.count (I2c.BUS_CLEAR_FAIL b)
  | 9 => s.count (I2c.LINE_FAULTS b)
  | 10 => s.count (I2c.LINE_FAULTS b)
  | 11 => s.count (I2c.LINE_FAULTS b)
  | 12 => s.count (I2c.POLL_TIMEOUTS b)
  | _ => s

/-- XFER_RESULT of a list that ends (Table 10-4). -/
def xferResult (time : Nat) (h : HostList) (failed : Bool) (error : Nat) : List Byte :=
  leBytes 1 1 ++ leBytes 1 h.done ++ leBytes 1 (if failed then h.done else 0xFF) ++ leBytes 1 error ++ leBytes 2 0 ++
    leBytes 2 h.readBytes ++ leBytes 8 time ++ h.reads

/-- The host list in progress on a bus. -/
def BusSt.host (x : BusSt) : Option HostList := x.hosts.head?

/-- A host list in progress, changed. -/
def State.setHost (s : State) (b : Nat) (h : HostList) : State := s.setBus b { s.bus b with hosts := h :: (s.bus b).hosts.drop 1 }

/-- Ends the host list in progress on a bus: its result stands, and its commit reply is sent (R279). -/
def State.endHost (s : State) (b : Nat) (failed : Bool) (error : Nat) : State :=
  match (s.bus b).host with
  | none => s
  | some h =>
    let s := s.wrBlob (I2c.XFER_RESULT b) (xferResult s.deviceTime h failed error)
    (s.setBus b { s.bus b with hosts := (s.bus b).hosts.drop 1, pollEnd := none, pollTries := 0 }).releaseIf
      (fun w => w.why == .xferList b && h.r == some w.r) Status.OK none

/-- One descriptor part of the host list has completed: the next part, the next descriptor, or the end (R279). -/
def State.hostAdvance (s : State) (b : Nat) : State :=
  match (s.bus b).host with
  | none => s
  | some h =>
    match h.descs with
    | [] => s.endHost b false h.warn
    | d :: ds =>
      let s := s.setBus b { s.bus b with pollEnd := none, pollTries := 0 }
      if 1 < d.length then s.setHost b { h with descs := d.drop 1 :: ds }
      else
        let h' := { h with descs := ds, done := h.done + 1 }
        let s := s.setHost b h'
        if ds = [] then s.endHost b false h'.warn else s

/-- The bus enters FAULT with a code: counted, reported in LAST_ERROR, and the links NOTIFY sent. The transaction in progress ends with
it; where it is the host's, so does its list (R274, R275). -/
def State.busFault (s : State) (b code : Nat) : State :=
  let own := (s.bus b).cur.any Prod.fst
  let s := s.i2cCode b code
  let s := s.setBus b { s.bus b with fault := code, cur := none }
  let s := (s.busTo b 6).notify 8 0x0101 [BitVec.ofNat 8 b, 0xFF, BitVec.ofNat 8 code, 0]
  if own then s.endHost b true code else s

/-- A transaction starts, of the sensor work with a number or of the host: the bus is OWN (Table 10-2). -/
def State.busStart (s : State) (b : Nat) (host : Bool) (job : Nat) (x : Xact) : State :=
  let s := if x.tries = 0 then s else s.count (I2c.RETRIES b)
  ((s.setBus b { s.bus b with cur := some (host, x), curOf := job }).busTo b 3).emit (.i2c b x.wire)

/-- Whether a failed transaction is retried: code 3, 5 or 6, within RETRY_LIMIT, and a WRITE only where no data byte had been
acknowledged (R286). -/
def State.retryable (s : State) (b code acked : Nat) (x : Xact) : Bool :=
  decide (code = 3 ∨ code = 5 ∨ code = 6) && decide (x.tries < s.rd (I2c.RETRY_LIMIT b)) && (x.op != 0 || acked == 0)

/-- The controllers run: in READY, RUN, Duiker and FAULT_HOLD. Before, and in THERMAL_OFF, every pin is released (R287). -/
def State.i2cRuns (s : State) : Bool := s.pow.global == .ready || s.pow.global == .run || s.pow.global == .faultHold

end Sys2Proof.Machine
end

