-- ==== Sys2Proof/Machine/Exposure.lean ====
section
/-! DEFINITION. Sensor Descriptions, exposure changes, write windows, ISP sets and their binding to frames (spec/09), and
the start of the next transaction of a bus (R280). -/

namespace Sys2Proof.Machine

/-! ## Sensor Descriptions (R245 to R248) -/

/-- Reads a control entry (Table 09-2). -/
def parseCtl (bs : List Byte) : Ctl :=
  let e := leNat (bs.take 32)
  { control := bits e 7 0, order := bits e 15 8, bytes := bits e 23 16, reg := bits e 47 32, verify := bits e 63 48,
    num := bits e 95 64, den := bits e 127 96, offset := toSigned 32 (bits e 159 128), minCode := bits e 191 160,
    maxCode := bits e 223 192, dflt := bits e 255 224 }

/-- A sequence entry in the ranges of Table 09-4. -/
def seqEntryOk (e : Nat) : Bool :=
  let bytes := bits e 11 8
  decide (bits e 7 0 ≤ 1) &&
    (match bits e 15 12 with
     | 0 => decide (1 ≤ bytes ∧ bytes ≤ 4)
     | 1 => bytes == 0 && decide (1 ≤ bits e 63 32 ∧ bits e 63 32 ≤ 100000)
     | 2 => bytes == 0
     | _ => false)

/-- Reads a sequence up to its END; none where the area or the limit is passed first. -/
def parseSeq : Nat → List Byte → Option (List SeqOp)
  | 0, _ => none
  | fuel + 1, bs =>
    if bs.length < 8 then none
    else
      let e := leNat (bs.take 8)
      if bits e 15 12 = 2 then some []
      else (parseSeq fuel (bs.drop 8)).map fun r =>
        (if bits e 15 12 = 0 then SeqOp.write (bits e 31 16) (bits e 11 8) (bits e 7 0) (bits e 63 32) else .wait (bits e 63 32)) :: r

/-- Reads a mode entry (Table 09-4); `base` is the offset of the sequence area. -/
def parseMode (all : List Byte) (base : Nat) (bs : List Byte) : Option SMode :=
  let e := leNat (bs.take 16)
  let start := bits e 127 96
  if start < base ∨ all.length ≤ start ∨ (start - base) % 8 ≠ 0 ∨ bits e 7 0 = 255 ∨ bits e 95 64 ≠ 0 then none
  else (parseSeq 4096 (all.drop start)).map fun q =>
    { id := bits e 7 0, bondWidth := bits e 15 8, laneRate := bits e 23 16, width := bits e 31 24, samples := bits e 47 32,
      lines := bits e 63 48, seq := q }

/-- All of a list of optional values, or none. -/
def allSome {α : Type} : List (Option α) → Option (List α)
  | [] => some []
  | x :: r => match x, allSome r with
    | some a, some l => some (a :: l)
    | _, _ => none

/-- The code of a requested value (R247). -/
def Ctl.code (c : Ctl) (x : Nat) : Int := (roundDiv (x * c.num) c.den : Nat) + c.offset

/-- Whether a code may be written. -/
def Ctl.allows (c : Ctl) (k : Int) : Bool := decide ((c.minCode : Int) ≤ k ∧ k ≤ (c.maxCode : Int))

/-- The written value of a code as the exact ratio (code − offset) × den : num (R247). -/
def Ctl.written (c : Ctl) (k : Nat) : Nat × Nat := (((k : Int) - c.offset).toNat * c.den, c.num)

/-- A control entry in its ranges (Tables 09-2, 09-3). -/
def Ctl.valid (c : Ctl) : Bool :=
  (decide (1 ≤ c.control ∧ c.control ≤ 4) || decide (16 ≤ c.control ∧ c.control ≤ 31)) && decide (c.order ≤ 1) &&
    decide (1 ≤ c.bytes ∧ c.bytes ≤ 4) && decide (1 ≤ c.num ∧ 1 ≤ c.den) && c.allows (c.code c.dflt)

/-- The transactions that write a code of a control: address and pointer of the description, BYTES bytes in its ORDER, split
by the page size of the bus (R247, R277). -/
def Desc.write (d : Desc) (page reg bytes order value : Nat) : List Xact :=
  let data := if order = 0 then beBytes bytes value else leBytes bytes value
  let x : Xact := { op := 0, addr := d.addr, speed := d.speed, ptr := reg % 2 ^ (8 * d.ptrBytes), ptrBytes := d.ptrBytes,
                    data := data, len := bytes }
  x.parts (if d.ptrBytes = 0 then 0 else page)

/-- The write set of a list of (control entry, code): ascending order of control code (R251). -/
def Desc.writeSet (d : Desc) (page : Nat) (codes : List (Nat × Nat)) : List Xact :=
  let order := (List.range 256).flatMap fun k => codes.filter fun p => match d.controls[p.1]? with
    | some c => c.control == k
    | none => false
  order.flatMap fun p => match d.controls[p.1]? with
    | some c => d.write page c.reg c.bytes c.order p.2
    | none => []

/-- The transactions and waits of a mode sequence, then of the defaults (R249). -/
def Desc.modeSteps (d : Desc) (page : Nat) (m : SMode) (defaults : List (Nat × Nat)) : List SensorStep :=
  (m.seq.flatMap fun o => match o with
    | .write reg bytes order value => (d.write page reg bytes order value).map SensorStep.xact
    | .wait us => [SensorStep.wait us]) ++ (d.writeSet page defaults).map SensorStep.xact

/-- The default codes of a description, by control entry. -/
def Desc.defaults (d : Desc) : List (Nat × Nat) :=
  (List.range d.controls.length).filterMap fun i => (d.controls[i]?).map fun c => (i, (c.code c.dflt).toNat)

/-- Reads a Sensor Description: the status of R245 that its bytes alone give, and the description. DEDUCED: a reserved field that is not 0
is outside its range. -/
def parseDesc (bs : List Byte) : Nat × Option Desc :=
  let h := leNat (bs.take 64)
  let nc := bits h 215 208
  let nm := bits h 223 216
  let base := 64 + 32 * nc + 16 * nm
  let ctls := (List.range nc).map fun i => parseCtl (bs.drop (64 + 32 * i))
  let modes := allSome ((List.range nm).map fun i => parseMode bs base (bs.drop (64 + 32 * nc + 16 * i)))
  let distinct (l : List Nat) : Bool := l.eraseDups.length == l.length
  let reserved := bits h 511 384 != 0 || bits h 287 224 != 0 || bits h 151 64 != 0 ||
    (List.range nc).any fun i => (leAt bs (64 + 32 * i + 3) 1) != 0
  let entries := (List.range ((bs.length - base) / 8)).map fun i => leAt bs (base + 8 * i) 8
  if bs.length < 64 ∨ bits h 31 0 ≠ 0x43534453 ∨ bits h 63 32 ≠ 1 ∨ bits h 319 288 ≠ bs.length ∨ bs.length < base ∨
      (bs.length - base) % 8 ≠ 0 then (Status.BAD_PARAM, none)
  else
    match modes with
    | none => (Status.RANGE, none)
    | some ms =>
      let d : Desc :=
        { windowOpen := bits h 351 320, windowClose := bits h 383 352, verifyType := bits h 207 200, degrade := bits h 199 192,
          delay := bits h 191 184, speed := bits h 183 176, ptrBytes := bits h 175 168, addr := bits h 167 160,
          bus := bits h 159 152, controls := ctls, modes := ms }
      if reserved ∨ entries.any (fun e => !seqEntryOk e) ∨ 65536 < bs.length ∨ nc = 0 ∨ 16 < nc ∨ nm = 0 ∨ 16 < nm ∨ 2 < d.verifyType ∨ 4 < d.degrade ∨ d.delay = 0 ∨ 3 < d.delay ∨
          2 < d.speed ∨ 2 < d.ptrBytes ∨ d.addr < 8 ∨ 0x77 < d.addr ∨ 11 < d.bus ∨ d.windowClose < 1000 ∨
          1000000000 < d.windowClose ∨ d.windowClose ≤ d.windowOpen ∨ ctls.any (fun c => !c.valid) ∨
          distinct (ctls.map Ctl.control) = false ∨ distinct (ms.map SMode.id) = false then (Status.RANGE, none)
      else (Status.OK, some d)

/-! ## Ports, contexts and windows -/

/-- A port that is a member of an enabled bond (R117). -/
def State.isMember (s : State) (p : Nat) : Bool := s.rd (Port.PORT_STATE p) == 5

/-- The active context bound to a port (R134). -/
def State.boundCtx (s : State) (p : Nat) : Option Nat :=
  let c := s.rd (Ing.CONTEXT p)
  if c < 32 ∧ s.rd (Ctx.CTX_STATE c) = 1 then some c else none

/-- The ticket number of the next frame of a port's context. -/
def State.nextTicket (s : State) (p : Nat) : Nat := (s.ticketing (s.rd (Ing.CONTEXT p))).next

/-- The logical lane count of a port or bond (R116). -/
def State.laneCount (s : State) (p : Nat) : Nat :=
  let w := s.rd (Port.BOND_WIDTH p)
  if w = 1 then 8 else if w = 2 then 16 else popcount 4 (s.rd (Port.LANE_MASK p))

/-- SENSOR_PAGE_SIZE of a bus. -/
def State.pageCode (s : State) (bus : Nat) : Nat := s.rd (I2c.SENSOR_PAGE_SIZE bus)

/-- The window of ticket `w` of a port, where its frame has opened. -/
def ExpSt.window (x : ExpSt) (w : Nat) : Option (Nat × Nat) := (x.wins.find? fun e => e.1 == w).map Prod.snd

/-- Whether the window of ticket `w` is open or passed (R253). -/
def State.windowPassed (s : State) (p w : Nat) : Bool :=
  match (s.exposure p).window w with
  | some (o, _) => decide (o ≤ s.clock)
  | none => !(laterEq 32 w (s.nextTicket p))

/-- The window and whether the change is shifted, for window ticket `w`; none where it is past (Table 09-6, rows 1 to 3). -/
def State.chooseWindow (s : State) (p w : Nat) : Option (Nat × Bool) :=
  if s.windowPassed p w = false then some (w, false)
  else if s.windowPassed p ((w + 1) % 2 ^ 32) = false then some ((w + 1) % 2 ^ 32, true)
  else none

/-- The earliest frame whose window has not opened (R253, ASAP). -/
def State.asapWindow (s : State) (p : Nat) : Nat :=
  match (s.exposure p).wins.reverse.find? fun e => decide (s.clock < e.2.1) with
  | some e => e.1
  | none => s.nextTicket p

/-! ## Outcomes -/

/-- CONTROL_STATE changes, with its NOTIFY (R266). -/
def State.controlState (s : State) (p v : Nat) : State :=
  if s.rd (Sens.CONTROL_STATE p) = v then s
  else (s.wr (Sens.CONTROL_STATE p) v).notify 5 3 (leBytes 1 p ++ leBytes 1 v ++ leBytes 2 0 ++ leBytes 4 (s.nextTicket p))

/-- The ISP_GENERATION that a set first used on ticket `t` takes: one step for each ticket, up to it, on which sets take
effect (R259). -/
def State.ispGenAt (s : State) (p t : Nat) : Nat :=
  let firsts := (((s.exposure p).isp.map IspSet.first).filter fun f => !(later 32 f t)).eraseDups
  ((s.ticketing (s.rd (Ing.CONTEXT p))).ispGen + (if t ∈ firsts then firsts.length else firsts.length + 1)) % 2 ^ 32

/-- Whether a target ticket is known to carry LATE_BIND (Table 09-8): its frame has opened with it, or will: it was marked, or is one of the
next frames that carry it, which while the controls are UNKNOWN are the D − 1 frames after the next (R249). -/
def State.knownLate (s : State) (p t : Nat) : Bool :=
  let x := s.exposure p
  let ahead := (t + 2 ^ 32 - s.nextTicket p) % 2 ^ 32
  let sure := max x.lateCount (if s.rd (Sens.CONTROL_STATE p) = 1 then (match x.desc with | some d => d.delay - 1 | none => 0) else 0)
  x.lateOpen.contains t || x.lateFrames.contains t || decide (ahead < sure)

/-- The reply payload of a decided change (Table 09-8). -/
def State.exposeReply (s : State) (p : Nat) (c : Change) (result err writeEnd : Nat) : List Byte :=
  let x := s.exposure p
  let idx := c.codes.map Prod.fst
  let superseded := (x.pend ++ x.waiting).any fun d => later 32 d.id c.id && d.first == c.first && idx.all fun i => (d.codes.map Prod.fst).contains i
  let late := s.knownLate p c.target
  let isApplied := decide (result ≤ 1)
  leBytes 1 ((if superseded then 1 else 0) + (if late then 2 else 0)) ++ leBytes 1 result ++ leBytes 1 err ++ leBytes 5 0 ++
    leBytes 4 c.id ++ leBytes 4 (if isApplied then c.first else 0) ++ leBytes 4 (if isApplied then c.win else 0) ++
    leBytes 4 (if isApplied ∧ c.isp ≠ [] then s.ispGenAt p c.first else 0) ++ leBytes 8 writeEnd

/-- The status of a RESULT (Table 09-6, R262). -/
def resultStatus (result : Nat) : Nat :=
  if result = 0 then Status.OK else if result = 1 then Status.TICKET_SHIFTED
  else if result = 2 then Status.TICKET_PAST else Status.CONFLICT

/-- Decides a pending change: it is pending no more, its outcome is counted, and its reply is sent (R255). -/
def State.decideChange (s : State) (p : Nat) (c : Change) (result err writeEnd : Nat) : State :=
  let x := s.exposure p
  let s := s.setExposure p { x with pend := x.pend.filter fun d => d.id != c.id }
  let s := s.wr (Sens.PENDING_CHANGES p) (s.exposure p).pend.length
  let s := if result = 0 then s.count (Sens.EXPOSE_APPLIED p) else if result = 1 then s.count (Sens.EXPOSE_SHIFTED p)
    else if result = 2 then s.count (Sens.EXPOSE_PAST p) else s
  match c.r with
  | some r => s.reply r 0x50 (resultStatus result) (s.exposeReply p c result err writeEnd)
  | none => s

/-- Marks a ticket as one that carries LATE_BIND. -/
def State.markLate (s : State) (p t : Nat) : State :=
  let x := s.exposure p
  s.setExposure p { x with lateFrames := if x.lateFrames.contains t then x.lateFrames else x.lateFrames ++ [t] }

/-- The bus of a port's description. -/
def State.sensorBus (s : State) (p : Nat) : Nat :=
  match (s.exposure p).desc with
  | some d => d.bus
  | none => 0

/-- Whether a set goes before another one: of the same port and window, and accepted earlier (R256). -/
def SensorJob.before (j k : SensorJob) : Bool :=
  match j.kind, k.kind with
  | .change a, .change b => j.port == k.port && j.win == k.win && !k.started && later 32 b a
  | _, _ => false

/-- Queues sensor work on the bus of a port: at the end, but before the sets of the same window that were accepted later (R251, R256). -/
def State.pushJob (s : State) (p : Nat) (j : SensorJob) : State :=
  let b := s.sensorBus p
  let q := (s.bus b).sensor
  let j := { j with serial := (s.bus b).serials + 1 }
  s.setBus b { s.bus b with serials := (s.bus b).serials + 1, sensor := q.takeWhile (fun k => !j.before k) ++ j :: q.dropWhile fun k => !j.before k }

/-- Removes sensor work of a port. -/
def State.dropJob (s : State) (p : Nat) (k : SensorKind) : State :=
  let b := s.sensorBus p
  s.setBus b { s.bus b with sensor := (s.bus b).sensor.filter fun j => !(j.port == p && j.kind == k) }

/-- Arms a change for its window: its write set joins the sensor queue (R251). -/
def State.armChange (s : State) (p : Nat) (c : Change) : State :=
  match (s.exposure p).desc with
  | none => s
  | some d =>
    s.pushJob p { port := p, kind := .change c.id, win := c.win,
                  steps := (d.writeSet (s.pageCode d.bus) c.codes).map SensorStep.xact }

/-- The change moved on by one frame, as its one shift (R253). -/
def Change.shift (c : Change) : Change :=
  { c with win := (c.win + 1) % 2 ^ 32, first := (c.first + 1) % 2 ^ 32, shifted := true }

/-- A pending change replaced by a later form of itself. -/
def State.updateChange (s : State) (p : Nat) (c : Change) : State :=
  let x := s.exposure p
  s.setExposure p { x with pend := x.pend.map fun d => if d.id = c.id then c else d }

/-- A set armed for a window and not started there: shifted once, else past (Table 09-6, rows 4 and 5). -/
def State.setMissed (s : State) (p : Nat) (c : Change) : State :=
  let s := s.dropJob p (.change c.id)
  if c.shifted then s.decideChange p c 2 0 0
  else (s.updateChange p c.shift).armChange p c.shift

/-- A change is abandoned: the sensor's values are unknown, and so it goes for every pending change whose window has opened (R262). -/
def State.abandonChange (s : State) (p : Nat) (c : Change) (err : Nat) : State :=
  let s := s.decideChange p c 3 err 0
  let s := (s.exposure p).pend.foldl (fun (t : State) d =>
    if t.windowPassed p d.win then (t.dropJob p (.change d.id)).decideChange p d 3 0 0 else t) s
  (s.setExposure p { s.exposure p with restoring := true }).controlState p 1

/-- A set that has become partial (R262): the frame it aimed at carries LATE_BIND; re-armed once, or abandoned. DEDUCED: it is abandoned
where its ticket numbering has ended, since no window of it is left (R518). -/
def State.setPartial (s : State) (p : Nat) (c : Change) (err : Nat) : State :=
  let s := (s.dropJob p (.change c.id)).count (Sens.EXPOSE_I2C_FAIL p)
  let s := s.notify 5 1 (leBytes 1 p ++ leBytes 1 err ++ leBytes 2 0 ++ leBytes 4 c.first)
  let s := s.markLate p c.first
  if c.shifted = false ∧ c.ended = false ∧ s.windowPassed p ((c.win + 1) % 2 ^ 32) = false then (s.updateChange p c.shift).armChange p c.shift
  else s.abandonChange p c err

/-- A pass of a mode sequence has failed: tried again after 10 ms (R249). -/
def State.modeFailed (s : State) (p err : Nat) : State :=
  let s := (s.dropJob p .mode).count (Sens.EXPOSE_I2C_FAIL p)
  let s := s.notify 5 1 (leBytes 1 p ++ leBytes 1 err ++ leBytes 2 0 ++ leBytes 4 (s.nextTicket p))
  s.setExposure p { s.exposure p with modeRetry := some (s.clock + 10000000) }

/-- Sensor work has failed with an I2C code, or with 0 where it could not go on under R251. -/
def State.jobFailed (s : State) (j : SensorJob) (err : Nat) : State :=
  match j.kind with
  | .mode => s.modeFailed j.port err
  | .restore => (s.dropJob j.port .restore).count (Sens.EXPOSE_I2C_FAIL j.port)
  | .change id =>
    match (s.exposure j.port).pend.find? (fun c => c.id == id) with
    | some c => s.setPartial j.port c err
    | none => s.dropJob j.port j.kind

/-! ## The next transaction of a bus (R280) -/

/-- Whether sensor work may start a transaction now: its window is open, or its WAIT is over. -/
def State.jobReady (s : State) (j : SensorJob) : Bool :=
  match j.kind with
  | .mode => j.waitUntil.isNone && !j.steps.isEmpty
  | _ => (j.started || s.windowPassed j.port j.win) && !j.steps.isEmpty

/-- The time sensor work still needs, in ns. -/
def SensorJob.time (j : SensorJob) : Nat :=
  (j.steps.map fun t => match t with | .xact x => x.time | .wait us => us * 1000).sum

/-- Whether the rest of a set ends by WINDOW_CLOSE (R251). -/
def State.jobFits (s : State) (j : SensorJob) : Bool :=
  match j.kind with
  | .mode => true
  | _ =>
    if j.started then decide (s.clock + j.time ≤ j.close)
    else
      match (s.exposure j.port).window j.win with
      | some (_, c) => decide (s.clock + j.time ≤ c)
      | none => false

/-- The earliest opening of a window for which a set on the bus is armed: known once its frame has opened, and no sooner
than WINDOW_OPEN from now before. -/
def State.earliestWindow (s : State) (b : Nat) : Option Nat :=
  let opens := (s.bus b).sensor.filterMap fun j => match j.kind with
    | .mode => none
    | _ => if j.steps.isEmpty then none else some (match (s.exposure j.port).window j.win with
      | some (o, _) => o
      | none => s.clock + (match (s.exposure j.port).desc with | some d => d.windowOpen | none => 0))
  opens.foldl (fun m o => match m with | none => some o | some v => some (min v o)) none

/-- Whether a host transaction may start beside the armed sets (R280). -/
def State.hostMayStart (s : State) (b : Nat) (x : Xact) : Bool :=
  match s.earliestWindow b with
  | none => true
  | some o => decide (s.clock + max x.time (x.poll * 1000000) < o)

/-- The sensor work of a bus that goes on: a set that has started, else the first that is ready in the order of arming (R251). -/
def State.nextJob (s : State) (b : Nat) : Option SensorJob :=
  match (s.bus b).sensor.find? fun j => j.started && s.jobReady j with
  | some j => some j
  | none => (s.bus b).sensor.find? fun j => s.jobReady j

/-- Sensor work changed in its place. -/
def State.updateJob (s : State) (b : Nat) (j : SensorJob) : State :=
  s.setBus b { s.bus b with sensor := (s.bus b).sensor.map fun k => if k.serial = j.serial then j else k }

/-- Sensor work as its first transaction starts: a set keeps the end of its window. -/
def State.begun (s : State) (j : SensorJob) : SensorJob :=
  match j.kind with
  | .mode => j
  | _ => if j.started then j else
    { j with started := true, close := match (s.exposure j.port).window j.win with | some (_, c) => c | none => 0 }

/-- The poll of a WRITE (R278). -/
def Xact.pollOf (x : Xact) : Xact := { op := 3, addr := x.addr, speed := x.speed }

/-- What the host queue offers at a bus-free moment: a poll to be retried, or the next transaction of its list; none while polling goes
on (R278, R286). -/
def BusSt.hostNext (x : BusSt) : Option Xact :=
  match x.host with
  | some h =>
    match h.descs with
    | (y :: _) :: _ => if x.pollEnd.isNone then some y else if x.pollTries = 0 then none else some { y.pollOf with tries := x.pollTries }
    | _ => none
  | none => none

/-- A host transaction that has to wait is counted once (R280). -/
def State.hostDefer (s : State) (b : Nat) : State :=
  match (s.bus b).host with
  | some h =>
    match h.descs with
    | (x :: xs) :: ds =>
      if x.deferred then s else (s.setHost b { h with descs := ({ x with deferred := true } :: xs) :: ds }).count (I2c.HOST_DEFERRED b)
    | _ => s
  | none => s

/-- Work offered to a bus that cannot take it fails at once with a code: sensor work first, then the host's lists (R275, Table 10-5). -/
def State.offerFails (s : State) (b code : Nat) : Option State :=
  match s.nextJob b with
  | some j => some ((s.i2cCode b code).jobFailed j code)
  | none => if (s.bus b).hosts.isEmpty then none else some ((s.i2cCode b code).endHost b true code)

/-- Starts the next transaction of a bus at a bus-free moment, the sensor queue first; work offered to a bus in FAULT or
DISABLED fails at once (R275, R280, Table 10-5). -/
def State.kick (b : Nat) : Nat → State → State
  | 0, s => s
  | fuel + 1, s =>
    let st := s.rd (I2c.BUS_STATE b)
    if (s.bus b).cur.isSome then s
    else if st = 6 ∨ st = 0 then
      match s.offerFails b (if st = 6 then (s.bus b).fault else 13) with
      | some t => State.kick b fuel t
      | none => s
    else if st = 2 then
      match s.nextJob b with
      | some j =>
        match j.steps with
        | .wait us :: _ => State.kick b fuel (s.updateJob b { j with waitUntil := some (s.clock + us * 1000) })
        | .xact x :: _ =>
          if s.jobFits j then (s.updateJob b (s.begun j)).busStart b false j.serial x
          else if j.started then State.kick b fuel (s.jobFailed j x.code)
          else
            (match j.kind with
            | .change id =>
              match (s.exposure j.port).pend.find? (fun c => c.id == id) with
              | some c => State.kick b fuel (s.setMissed j.port c)
              | none => State.kick b fuel (s.dropJob j.port j.kind)
            | k => State.kick b fuel (s.dropJob j.port k))
        | [] => s
      | none =>
        match (s.bus b).hostNext with
        | some x => if s.hostMayStart b x then s.busStart b true 0 x else s.hostDefer b
        | none => s
    else s

/-- The work a bus looks through in one moment is bounded by its queues. -/
def State.kickBus (s : State) (b : Nat) : State :=
  if s.i2cRuns then State.kick b (4 * (s.bus b).sensor.length + (s.bus b).hosts.length + 8) s else s

/-! ## Requests and commits -/

/-- The checks of EXPOSE_REQUEST that need no staged entry (R254), in the order of the rule: then the codes. -/
def State.exposeCheck (s : State) (p : Nat) (ctls : List (Nat × Nat)) : Nat × List (Nat × Nat) :=
  match (s.exposure p).desc, s.boundCtx p with
  | some d, some _ =>
    if s.rd (Sens.SENSOR_MODE p) = 0xFF then (Status.CONFLICT, [])
    else
      let idx (k : Nat) : Option Nat := (List.range d.controls.length).find? fun i => (d.controls[i]?).map Ctl.control == some k
      if ctls.any (fun e => (idx e.1).isNone) ∨ (ctls.map Prod.fst).eraseDups.length ≠ ctls.length then (Status.BAD_PARAM, [])
      else if 16 ≤ (s.exposure p).pend.length then (Status.NO_RESOURCE, [])
      else
        let coded := ctls.filterMap fun e => match idx e.1 with
          | some i => (d.controls[i]?).map fun c => (i, c.code e.2, c.allows (c.code e.2))
          | none => none
        if coded.any (fun e => !e.2.2) then (Status.RANGE, []) else (Status.OK, coded.map fun e => (e.1, e.2.1.toNat))
  | _, _ => (Status.CONFLICT, [])

/-- The status of a TARGET for a port (R252). -/
def State.targetCheck (s : State) (p target : Nat) : Nat :=
  let delay := match (s.exposure p).desc with | some d => d.delay | none => 0
  if bit target 40 = false then Status.OK
  else if bits target 39 32 ≠ s.rd (Ing.CONTEXT p) then Status.CONFLICT
  else if later 32 (bits target 31 0) ((s.nextTicket p + delay + 63) % 2 ^ 32) then Status.RANGE
  else Status.OK

/-- Accepts an exposure change: its EXPOSURE_ID, its window and its outcome so far (R253, R255). -/
def State.exposeAccept (s : State) (r : Req) (p target : Nat) (codes isp : List (Nat × Nat)) : State :=
  match (s.exposure p).desc with
  | none => s
  | some d =>
    let x := s.exposure p
    let asap := bit target 40 = false
    let w0 := if asap then s.asapWindow p else (bits target 31 0 + 2 ^ 32 - d.delay) % 2 ^ 32
    let t0 := (w0 + d.delay) % 2 ^ 32
    let c : Change := { id := x.nextId, r := some r, codes := codes, target := t0, win := w0, first := t0, isp := isp }
    let s := s.setExposure p { x with nextId := (x.nextId + 1) % 2 ^ 32, pend := x.pend ++ [c] }
    let s := s.wr (Sens.PENDING_CHANGES p) (s.exposure p).pend.length
    match s.chooseWindow p w0 with
    | none => s.decideChange p c 2 0 0
    | some (w, sh) =>
      let c' := { c with win := w, first := (w + d.delay) % 2 ^ 32, shifted := sh }
      ((s.updateChange p c').armChange p c').kickBus d.bus

/-- An ISP set of a commit (R257): the first ticket it takes effect on and the status; none where it is past. -/
def State.ispTarget (s : State) (p target : Nat) : Option (Nat × Nat) :=
  let next := s.nextTicket p
  let t := bits target 31 0
  if bit target 40 = false then some (next, Status.OK)
  else if laterEq 32 t next then some (t, Status.OK)
  else if (t + 1) % 2 ^ 32 = next then some (next, Status.TICKET_SHIFTED)
  else none

/-- Stores an ISP set. -/
def State.pushIsp (s : State) (p first : Nat) (vals : List (Nat × Nat)) : State :=
  if vals = [] then s
  else s.setExposure p { s.exposure p with isp := (s.exposure p).isp ++ [{ first := first, vals := vals }] }

/-- Every pending change of a port is decided as past, and no sensor work of the port is left (R249). DESIGN CHOICE for a commit of
SENSOR_DESC, where the spec is silent on a set that is being written. -/
def State.dropAll (s : State) (p : Nat) : State :=
  let b := s.sensorBus p
  let s := s.setBus b { s.bus b with sensor := (s.bus b).sensor.filter fun j => j.port != p }
  (s.exposure p).pend.foldl (fun t c => t.decideChange p c 2 0 0) s

/-- Every pending change of a port whose writing has not begun is decided as past (R265, R518). -/
def State.dropPending (s : State) (p : Nat) : State :=
  let b := s.sensorBus p
  (s.exposure p).pend.foldl (fun t c =>
    if (t.bus b).sensor.any (fun j => j.port == p && j.kind == .change c.id && j.started) then t
    else (t.dropJob p (.change c.id)).decideChange p c 2 0 0) s

/-- The ticket numbering of a port ends (R518). What has been written, the defaults of a mode included, counts from ticket 0 of the next
numbering, and so does a set that is still being written. -/
def State.numberingEnds (s : State) (p : Nat) : State :=
  match (s.exposure p).desc with
  | none => s.setExposure p { s.exposure p with wins := [], lateFrames := [], isp := (s.exposure p).isp.map fun i => { i with first := 0 } }
  | some d =>
    let s := s.dropPending p
    let x := s.exposure p
    let bound := s.rd (Sens.SENSOR_MODE p) ≠ 0xFF
    let settled := x.defaults.toList.filter Change.written
    s.setExposure p { x with
      wins := [], winsDone := [], lateFrames := [], lateOpen := [], lateCount := if bound then d.delay else 0
      pend := x.pend.map fun c => { c with first := 0, ended := true }
      defaults := x.defaults.filter fun c => !c.written
      waiting := (x.waiting ++ settled).map fun c => { c with first := 0 }
      isp := x.isp.map fun i => { i with first := 0 } }

/-- Starts a pass of the selected mode's sequence (R249). -/
def State.startMode (s : State) (p : Nat) : State :=
  match (s.exposure p).desc with
  | none => s
  | some d =>
    match d.modes.find? (fun m => m.id == s.rd (Sens.SENSOR_MODE p)) with
    | none => s
    | some m =>
      let s := s.dropJob p .mode
      let s := s.setExposure p { s.exposure p with modeRetry := none }
      (s.pushJob p { port := p, kind := .mode, steps := d.modeSteps (s.pageCode d.bus) m d.defaults }).kickBus d.bus

/-- The value of a parameter once the Immediate entries of a commit are in force. -/
def Txn.inForce (t : Txn) (id : Nat) : Nat :=
  if t.ids.contains id && (paramOf id).any (fun q => q.commit == .immediate) then t.cand.rd id else t.old.rd id

/-- The checks of a group 0x28 entry (R245, R249, R267). -/
def exposureCheck (t : Txn) (id : Nat) (v : PVal) : Nat :=
  let p := idInst id
  if t.old.isMember p then Status.CONFLICT
  else if id = Sens.SENSOR_DESC p then
    if t.old.rd (Port.PORT_ENABLE p) = 1 then Status.CONFLICT
    else
      match parseDesc (t.old.valBytes v) with
      | (st, none) => st
      | (_, some d) =>
        let set := d.writeSet (t.old.pageCode d.bus) d.defaults
        if d.windowClose - d.windowOpen < (set.map Xact.time).sum ∨ t.cand.laneCount p ≤ d.degrade then Status.CONFLICT
        else Status.OK
  else if id = Sens.SENSOR_MODE p then
    match (t.old.exposure p).desc with
    | none => Status.RANGE
    | some d =>
      match d.modes.find? (fun m => m.id == v.toNat) with
      | none => Status.RANGE
      | some m =>
        let g := t.inForce (Ing.ING_GEOMETRY p)
        failIf (m.lines != bits g 31 16 || m.samples != bits g 15 0 || m.width != t.inForce (Ing.ING_WIDTH p) ||
          m.laneRate != t.inForce (Port.LANE_RATE p) || m.bondWidth != t.inForce (Port.BOND_WIDTH p)) Status.CONFLICT
  else Status.OK

/-- The effects of a group 0x28 entry that has been written (R245, R249). -/
def exposureApply (t : Txn) (id : Nat) (v : PVal) (s : State) : State :=
  let p := idInst id
  if id = Sens.SENSOR_DESC p then
    match parseDesc (t.old.valBytes v) with
    | (_, none) => s
    | (_, some d) =>
      let s := (s.dropAll p).controlState p 1
      let s := s.setExposure p { desc := some d, lastCount := (s.exposure p).lastCount, isp := (s.exposure p).isp }
      (s.next32 (Sens.DESC_GENERATION p)).wrAll
        [(Port.DEGRADE_LIMIT p, d.degrade), (Sens.SENSOR_MODE p, 0xFF), (Sens.PIPELINE_DELAY p, d.delay)]
  else if id = Sens.SENSOR_MODE p then
    match (s.exposure p).desc with
    | none => s
    | some d =>
      let s := (s.dropAll p).controlState p 1
      let x := s.exposure p
      let c : Change := { id := x.nextId, codes := d.defaults }
      (s.setExposure p { x with nextId := (x.nextId + 1) % 2 ^ 32, defaults := some c, restoring := false }).startMode p
  else s

/-! ## Frames -/

/-- Whether an exposure binding is in force on a port: a description with a selected mode (R249). -/
def State.bindingOn (s : State) (p : Nat) : Bool :=
  (s.exposure p).desc.isSome && s.rd (Sens.SENSOR_MODE p) != 0xFF

/-- A change takes effect before another: by frame, then by EXPOSURE_ID (R256). -/
def Change.earlier (a b : Change) : Bool := later 32 b.first a.first || (a.first == b.first && !later 32 a.id b.id)

/-- Changes take effect in the order of frame, then EXPOSURE_ID (R256). -/
def applyChanges (x : ExpSt) (n : Nat) : ExpSt :=
  let due := (x.waiting.filter fun c => !(later 32 c.first n)).insertionSort fun a b => a.earlier b = true
  due.foldl (fun y c =>
    { y with eff := c.codes.foldl (fun t e => tins t e.1 e.2) y.eff, effId := c.id })
    { x with waiting := x.waiting.filter fun c => later 32 c.first n }

/-- A frame opens on a port with ticket number `n` (R249, R250, R256, R259, R264): its window, the changes and ISP sets that
take effect on it, and whether it carries LATE_BIND. -/
def State.exposureOpens (s : State) (p n frameCount : Nat) : State × Bool :=
  let x : ExpSt := s.exposure p
  let gap := match x.lastCount with | some k => frameCount != (k + 1) % 2 ^ 32 | none => false
  let x := { x with lastCount := some frameCount }
  -- R264: the frames between a window and the frame it aims at
  let x := if gap then
      { x with lateFrames := (x.lateFrames ++ ((x.pend ++ x.waiting).filter fun c =>
          later 32 n c.win && !(later 32 n c.first)).map Change.first).eraseDups }
    else x
  -- R249: the first frame after the mode's defaults were written fixes their first frame
  let x := match x.defaults, x.desc with
    | some c, some d => if c.written then
        { x with defaults := none, waiting := x.waiting ++ [{ c with first := (n + d.delay) % 2 ^ 32 }] }
      else x
    | _, _ => x
  let before := x.effId
  let x := applyChanges x n
  let x := match x.desc with
    | some d =>
      let kept := x.wins.filter fun (e : Nat × Nat × Nat) => !x.winsDone.contains e.1 || decide (s.clock ≤ e.2.2) || x.pend.any fun c => c.win == e.1
      { x with wins := (n, s.clock + d.windowOpen, s.clock + d.windowClose) :: kept, winsDone := x.winsDone.filter fun w => kept.any fun e => e.1 == w }
    | none => x
  let due := x.isp.filter fun i => !(later 32 i.first n)
  let late := s.bindingOn p && (s.rd (Sens.CONTROL_STATE p) == 1 || decide (0 < x.lateCount) || x.lateFrames.contains n)
  let x := { x with isp := x.isp.filter (fun i => later 32 i.first n), lateFrames := x.lateFrames.filter (fun t => later 32 t n),
                    lateCount := x.lateCount - 1
                    lateOpen := ((if late then [n] else []) ++ x.lateOpen).filter fun t => x.pend.any fun c => c.target == t }
  let s := s.setExposure p x
  let s := if x.effId = before then s else s.wrAll [(Sens.LAST_EXPOSURE_ID p, x.effId), (Sens.LAST_EXPOSURE_TICKET p, n)]
  let ctx := s.rd (Ing.CONTEXT p)
  let s := due.foldl (fun t i => t.wrAll i.vals) s
  let s := if due.isEmpty then s
    else
      let g := ((s.ticketing ctx).ispGen + 1) % 2 ^ 32
      ((s.setTicketing ctx { s.ticketing ctx with ispGen := g }).countBy (Sens.ISP_SETS_APPLIED p) due.length)
  (if late then s.count (Sens.FRAMES_LATE_BIND p) else s, late)

/-- The codes a verification line is compared with: (control code, expected bytes, bytes found) (R263). -/
def verifyLine (d : Desc) (codes : List (Nat × Nat)) (line : List Byte) : List (Nat × List Byte × List Byte) :=
  codes.filterMap fun e => match d.controls[e.1]? with
    | some c =>
      if c.verify = 0xFFFF then none
      else some (c.control, if c.order = 0 then beBytes c.bytes e.2 else leBytes c.bytes e.2,
        slice line c.verify c.bytes)
    | none => none

/-- A line too short for a control in force counts as a missing one (R263). -/
def lineShort (d : Desc) (codes : List (Nat × Nat)) (line : List Byte) : Bool :=
  codes.any fun e => (d.controls[e.1]?).any fun c => c.verify != 0xFFFF && decide (line.length < c.verify + c.bytes)

/-- Verification of a frame before its ticket is written: LATE_BIND where a code differs or the line is missing (R263). -/
def State.exposureVerify (s : State) (p : Nat) (f : Frame) : State × Bool :=
  match f.cfg.desc with
  | none => (s, false)
  | some d =>
    if d.verifyType = 0 ∨ s.bindingOn p = false then (s, false)
    else
      let bad := match tfind f.verify d.verifyType with
        | none => [0]
        | some line => if lineShort d f.cfg.controls line then [0] else ((verifyLine d f.cfg.controls line).filter fun (e : Nat × List Byte × List Byte) => e.2.1 != e.2.2).map Prod.fst
      let x := s.exposure p
      let s := if !bad.isEmpty && x.pend.any (fun c => c.target == f.ticket) then s.setExposure p { x with lateOpen := x.lateOpen ++ [f.ticket] } else s
      (bad.foldl (fun t k => (t.count (Sens.VERIFY_FAIL p)).notify 5 2
        (leBytes 1 p ++ leBytes 1 k ++ leBytes 2 0 ++ leBytes 4 f.ticket)) s, !bad.isEmpty)

/-- CONTROL_VALUE of each entry for a frame whose ticket has been written (R247). -/
def State.controlValues (s : State) (p : Nat) (f : Frame) : State :=
  match f.cfg.desc with
  | none => s
  | some d => f.cfg.controls.foldl (fun t e => match d.controls[e.1]? with
      | some c => t.wr (Sens.CONTROL_VALUE p e.1) (min 0xFFFFFFFF (roundDiv (c.written e.2).1 (c.written e.2).2))
      | none => t) s

/-! ## The commands -/

/-- The host transaction on a bus has been carried past the opening of a window for which a set is armed (R280). -/
def State.hostOverran (s : State) (b p n : Nat) : State :=
  match (s.bus b).cur with
  | some (true, x) =>
    if !x.overran && (s.bus b).sensor.any (fun j => j.port == p && j.win == n && j.kind != .mode) then
      (s.setBus b { s.bus b with cur := some (true, { x with overran := true }) }).count (I2c.HOST_OVERRAN b)
    else s
  | _ => s

/-- The window of ticket `n` opens on a port whose values are unknown: the changes armed for it are not written, and the full set is
armed (R262). -/
def State.restoreIn (s : State) (p n : Nat) (d : Desc) : State :=
  let s := (s.exposure p).pend.foldl (fun (t : State) c =>
    if c.win = n then (t.dropJob p (.change c.id)).decideChange p c 3 0 0 else t) s
  let steps := (d.writeSet (s.pageCode d.bus) (s.exposure p).sent).map SensorStep.xact
  (s.dropJob p .restore).pushJob p { port := p, kind := .restore, win := n, steps := steps }

/-- The oldest window of a port whose opening has not been dealt with. -/
def ExpSt.nextWindow (x : ExpSt) : Option (Nat × Nat × Nat) := x.wins.reverse.find? fun e => !x.winsDone.contains e.1

/-- WRITE_WINDOW_OPEN (R250, R251, R262): the window of the oldest frame of a port whose window has not opened yet opens; sets armed for it
start, and a full rewrite is armed where the sensor's values are unknown. -/
def execWriteWindowOpen (port : Fin 16) (s : State) : Host.Outcome State Fault Refusal :=
  .next (
    let p := port.val
    match (s.exposure p).desc, (s.exposure p).nextWindow with
    | some d, some (n, o, _) =>
      let s := s.at o
      let s := s.setExposure p { s.exposure p with winsDone := n :: (s.exposure p).winsDone }
      let s := s.hostOverran d.bus p n
      let s := if (s.exposure p).restoring then s.restoreIn p n d else s
      s.kickBus d.bus
    | _, _ => s)

/-- The last write of a set is done: the change is in the sensor and its outcome is decided, or the sensor's values are known again
(R255, R262). -/
def State.setWritten (s : State) (p : Nat) (k : SensorKind) : State :=
  let x := s.exposure p
  match k with
  | .mode => s
  | .restore =>
    let delay := match x.desc with | some d => d.delay | none => 1
    (s.setExposure p { x with restoring := false, lateCount := max x.lateCount (delay - 1) }).controlState p 0
  | .change id =>
    match x.pend.find? (fun c => c.id == id) with
    | none => s
    | some c =>
      let c' := { c with written := true }
      let s := s.setExposure p { x with waiting := x.waiting ++ [c'], sentId := c.id, sent := c.codes.foldl (fun t e => tins t e.1 e.2) x.sent }
      let s := s.pushIsp p c.first c.isp
      s.decideChange p c' (if c.shifted then 1 else 0) 0 s.deviceTime

/-- WRITE_SET_COMPLETE (R255, R262, R280): the last write of a set is done; what the set held back on the bus may start. -/
def execWriteSetComplete (port : Fin 16) (s : State) : Host.Outcome State Fault Refusal :=
  .next (
    let p := port.val
    let b := s.sensorBus p
    match (s.bus b).sensor.find? (fun j => j.port == p && j.kind != .mode && j.steps.isEmpty && j.started) with
    | none => s
    | some j =>
      (((s.dropJob p j.kind).wrS (Sens.LAST_WRITE_MARGIN p) ((j.close : Int) - (s.clock : Int))).setWritten p j.kind).kickBus b)

/-- MODE_SEQUENCE_DONE (R249): the last write of a mode sequence and its defaults is done; the sensor's values are known. -/
def execModeSequenceDone (port : Fin 16) (s : State) : Host.Outcome State Fault Refusal :=
  .next (
    let p := port.val
    let b := s.sensorBus p
    match (s.bus b).sensor.find? (fun j => j.port == p && j.kind == .mode && j.steps.isEmpty), (s.exposure p).desc with
    | some _, some d =>
      let s := s.dropJob p .mode
      let x := s.exposure p
      let id := match x.defaults with | some c => c.id | none => x.sentId
      (s.setExposure p { x with
        defaults := x.defaults.map fun c => { c with written := true }
        sent := d.defaults.foldl (fun t e => tins t e.1 e.2) [], sentId := id, restoring := false
        lateCount := max x.lateCount (d.delay - 1) }).controlState p 0 |>.kickBus b
    | _, _ => s)

/-- MODE_SEQUENCE_RETRY (R249): 10 ms after a failed pass the whole sequence starts again. -/
def execModeSequenceRetry (port : Fin 16) (s : State) : Host.Outcome State Fault Refusal :=
  .next (
    match (s.exposure port.val).modeRetry with
    | none => s
    | some due => (s.at due).startMode port.val)

/-- SEQUENCE_WAIT_END (R248): a WAIT of a mode sequence is over. -/
def execSequenceWaitEnd (port : Fin 16) (s : State) : Host.Outcome State Fault Refusal :=
  .next (
    let p := port.val
    let b := s.sensorBus p
    match (s.bus b).sensor.find? (fun j => j.port == p && j.kind == .mode && j.waitUntil.isSome) with
    | none => s
    | some j =>
      let s := s.at (j.waitUntil.getD 0)
      (s.updateJob b { j with waitUntil := none, steps := j.steps.drop 1 }).kickBus b)

end Sys2Proof.Machine
end

