-- ==== Sys2Proof/Machine/I2cBus.lean ====
section
/-! DEFINITION. The events of the I2C buses: line test, clearing, transactions and their failures, polling (spec/10). -/

namespace Sys2Proof.Machine

/-- The sensor work whose transaction is on the bus. -/
def State.jobOf (s : State) (b : Nat) : Option SensorJob := (s.bus b).sensor.find? fun j => j.serial == (s.bus b).curOf

/-- A host transaction has completed: its data join the result; polling begins, or the list goes on (R278, R279). -/
def State.hostDone (s : State) (b code : Nat) (x : Xact) (data : List Byte) : State :=
  match (s.bus b).host with
  | none => s
  | some h =>
    let d := if x.op = 1 then data.take x.len else []
    let s := s.setHost b { h with reads := h.reads ++ padTo 8 d, readBytes := h.readBytes + d.length, warn := if code = 4 then 4 else 0 }
    if x.poll ≠ 0 ∧ x.op = 0 then s.setBus b { s.bus b with pollEnd := some (s.clock + x.poll * 1000000) } else s.hostAdvance b

/-- A transaction put back at the head of its queue to be retried (R286). -/
def State.putBack (s : State) (b : Nat) (host : Bool) (x : Xact) : State :=
  if host then
    match (s.bus b).host with
    | some h => match h.descs with
      | (_ :: xs) :: ds => s.setHost b { h with descs := (x :: xs) :: ds }
      | _ => s
    | none => s
  else
    match s.jobOf b with
    | some j => s.updateJob b { j with steps := .xact x :: j.steps.drop 1 }
    | none => s

/-- A poll ends with a code while polling goes on (R278, R286): acknowledged, it ends polling; not acknowledged, the next poll follows; lost,
it is retried within the limit; else the descriptor fails. -/
def State.pollEnds (s : State) (b code : Nat) : State :=
  let tries := (s.bus b).pollTries
  if (s.bus b).pollEnd.isNone then s
  else if code = 0 ∨ code = 4 then s.hostAdvance b
  else if code = 1 ∨ code = 2 then s.setBus b { s.bus b with pollTries := 0 }
  else if code ≠ 7 ∧ tries < s.rd (I2c.RETRY_LIMIT b) then s.setBus b { s.bus b with pollTries := tries + 1 }
  else s.endHost b true code

/-- The bus state after a transaction that ended with a code: IDLE after a STOP, OTHER after codes 3 to 6, CHECK after code 7
(Table 10-2). -/
def busAfter (code : Nat) : Nat := if code = 7 then 1 else if 3 ≤ code ∧ code ≤ 6 then 4 else 2

/-- The transaction on a bus ends with a code: it completes, is retried, or fails (R281, R283, R286). A poll that is not acknowledged is no
error (R278). -/
def State.endXact (s : State) (b code acked : Nat) (data : List Byte) : State :=
  match (s.bus b).cur with
  | none => s
  | some (host, x) =>
    let s := (s.setBus b { s.bus b with cur := none }).busTo b (busAfter code)
    if x.op = 3 then
      let s := if code = 0 ∨ code = 1 ∨ code = 2 then s.count (I2c.TRANSACTIONS b) else s.i2cCode b code
      s.pollEnds b code
    else
    let s := s.i2cCode b code
    if code = 0 ∨ code = 4 then
      let s := (s.count (I2c.TRANSACTIONS b)).addBytes (I2c.BYTES_XFER b) x.len
      if host then s.hostDone b code x data
      else
        match s.jobOf b with
        | some j => s.updateJob b { j with steps := j.steps.drop 1 }
        | none => s
    else
      let s := s.addBytes (I2c.BYTES_XFER b) (min acked x.len)
      if s.retryable b code acked x then s.putBack b host { x with tries := x.tries + 1, code := code }
      else if host then s.endHost b true code
      else
        match s.jobOf b with
        | some j => s.jobFailed j code
        | none => s

/-- The bus enters FAULT: the sensor work of the transaction in progress fails, and so does at once what else is offered (R275). -/
def State.busFails (s : State) (b code : Nat) : State :=
  let job := match (s.bus b).cur with
    | some (false, _) => s.jobOf b
    | _ => none
  let s := s.busFault b code
  let s := match job with
    | some j => s.jobFailed j code
    | none => s
  s.kickBus b

/-- I2C_LINE_TEST_DONE (R273, R275): what CHECK found, faults first. -/
def execI2cLineTestDone (bus : Fin 12) (sclLow drivenHigh shorted sdaLow : Bool) (s : State) :
    Host.Outcome State Fault Refusal :=
  .next (
    let b := bus.val
    if !s.i2cRuns || s.rd (I2c.BUS_STATE b) != 1 then s
    else if sclLow then s.busFails b 9
    else if drivenHigh then s.busFails b 10
    else if shorted then s.busFails b 11
    else if sdaLow then s.busTo b 5
    else (s.busTo b 2).kickBus b)

/-- I2C_CLEARING_DONE (R274): SDA was released and a STOP generated, or it is still low after nine pulses. -/
def execI2cClearingDone (bus : Fin 12) (released : Bool) (s : State) : Host.Outcome State Fault Refusal :=
  .next (
    let b := bus.val
    if !s.i2cRuns || s.rd (I2c.BUS_STATE b) != 5 then s
    else if released then ((s.count (I2c.BUS_CLEARS b)).busTo b 2).kickBus b
    else s.busFails b 8)

/-- I2C_FAULT_RETRY (Table 10-2): BUS_RETRY_INTERVAL has elapsed in FAULT. -/
def execI2cFaultRetry (bus : Fin 12) (s : State) : Host.Outcome State Fault Refusal :=
  .next (
    let b := bus.val
    if !s.i2cRuns || s.rd (I2c.BUS_STATE b) != 6 then s
    else (s.at ((s.bus b).since + s.rd (I2c.BUS_RETRY_INTERVAL b) * 1000000)).busTo b 1)

/-- I2C_BUS_FREE (R272, R280, R286): the bus is free, and the next transaction starts, the sensor queue first. -/
def execI2cBusFree (bus : Fin 12) (s : State) : Host.Outcome State Fault Refusal :=
  .next (
    let b := bus.val
    if !s.i2cRuns then s
    else if s.rd (I2c.BUS_STATE b) = 4 then (s.busTo b 2).kickBus b
    else if s.rd (I2c.BUS_STATE b) = 2 then s.kickBus b
    else s)

/-- I2C_TRANSACTION_DONE (R276, R281): the transaction has reached its STOP; an address or a data byte may not have been
acknowledged. -/
def execI2cTransactionDone (bus : Fin 12) (nackAddr nackData : Bool) (acked : Nat) (data : List Byte) (s : State) :
    Host.Outcome State Fault Refusal :=
  .next (if s.i2cRuns ∧ s.rd (I2c.BUS_STATE bus.val) = 3 then
      s.endXact bus.val (if nackAddr then 1 else if nackData then 2 else 0) acked data
    else s)

/-- I2C_ARB_LOST (R282, R283): arbitration is lost in an address or data bit, during the STOP, or during a repeated START; during the STOP
of a READ all its bytes have been read. -/
def execI2cArbLost (bus : Fin 12) (place : Fin 3) (acked : Nat) (data : List Byte) (s : State) : Host.Outcome State Fault Refusal :=
  .next (if s.i2cRuns ∧ s.rd (I2c.BUS_STATE bus.val) = 3 then s.endXact bus.val (3 + place.val) acked data else s)

/-- I2C_BUS_ERROR (R284). -/
def execI2cBusError (bus : Fin 12) (acked : Nat) (s : State) : Host.Outcome State Fault Refusal :=
  .next (if s.i2cRuns ∧ s.rd (I2c.BUS_STATE bus.val) = 3 then s.endXact bus.val 6 acked [] else s)

/-- I2C_OTHER_START (Table 10-2): another controller takes the bus. -/
def execI2cOtherStart (bus : Fin 12) (s : State) : Host.Outcome State Fault Refusal :=
  .next (if s.i2cRuns ∧ s.rd (I2c.BUS_STATE bus.val) = 2 then s.busTo bus.val 4 else s)

/-- I2C_SCL_TIMEOUT (R272, R285): SCL stays low for SCL_LOW_TIMEOUT in an own transaction, after data bytes that count (R288), or in another
controller's. -/
def execI2cSclTimeout (bus : Fin 12) (acked : Nat) (s : State) : Host.Outcome State Fault Refusal :=
  .next (
    let b := bus.val
    if !s.i2cRuns then s
    else if s.rd (I2c.BUS_STATE b) = 3 then s.endXact b 7 acked []
    else if s.rd (I2c.BUS_STATE b) = 4 then s.busTo b 1
    else s)

/-- I2C_SDA_LOW_TIMEOUT (Table 10-2): SDA low with SCL high for SDA_LOW_TIMEOUT in OTHER. -/
def execI2cSdaLowTimeout (bus : Fin 12) (s : State) : Host.Outcome State Fault Refusal :=
  .next (if s.i2cRuns ∧ s.rd (I2c.BUS_STATE bus.val) = 4 then s.busTo bus.val 5 else s)

/-- I2C_DRIVE_FAIL (R271, R275): a driven line reads high; the transaction in progress fails, after data bytes that count (R288), and the
bus enters FAULT. -/
def execI2cDriveFail (bus : Fin 12) (acked : Nat) (s : State) : Host.Outcome State Fault Refusal :=
  .next (
    let b := bus.val
    if !s.i2cRuns then s
    else if s.rd (I2c.BUS_STATE b) = 3 then
      (match (s.bus b).cur with
       | some (_, x) => s.addBytes (I2c.BYTES_XFER b) (min acked x.len)
       | none => s).busFails b 10
    else if s.rd (I2c.BUS_STATE b) = 1 ∨ s.rd (I2c.BUS_STATE b) = 5 then s.busFails b 10
    else s)

/-- I2C_POLL (R278, R280): the next poll starts on the free bus, unless sensor work goes first or a window is too near. -/
def execI2cPoll (bus : Fin 12) (s : State) : Host.Outcome State Fault Refusal :=
  .next (
    let b := bus.val
    match (s.bus b).pollEnd, (s.bus b).host with
    | some _, some h =>
      match h.descs with
      | (x :: _) :: _ =>
        let y := { x.pollOf with tries := (s.bus b).pollTries }
        if s.i2cRuns && s.rd (I2c.BUS_STATE b) == 2 && (s.bus b).cur.isNone && (s.nextJob b).isNone && s.hostMayStart b y then
          s.busStart b true 0 y
        else s
      | _ => s
    | _, _ => s)

/-- I2C_POLL_TIMEOUT (R278): no poll is acknowledged within POLL_LIMIT of the STOP. -/
def execI2cPollTimeout (bus : Fin 12) (s : State) : Host.Outcome State Fault Refusal :=
  .next (
    let b := bus.val
    match (s.bus b).pollEnd with
    | some due => if s.i2cRuns then (((s.at due).i2cCode b 12).endHost b true 12).kickBus b else s
    | none => s)

/-- The checks of a group 0x70 entry (R279). -/
def i2cCheck (t : Txn) (id : Nat) (v : PVal) : Nat :=
  let b := idInst id
  if id = I2c.XFER_DESC b then
    match parseXfer (t.old.valBytes v) with
    | none => Status.BAD_PARAM
    | some ds =>
      if 1000000000 < xferTime ds then Status.RANGE
      else if t.cand.rd (I2c.I2C_ENABLE b) = 0 then Status.CONFLICT
      else Status.OK
  else Status.OK

/-- The effects of a group 0x70 entry that has been written: a bus is switched, or a descriptor list joins the host queue (R272, R279, R280).
The commit reply of a list waits for its end. A list committed with I2C_ENABLE 1 finds the bus enabled. -/
def i2cApply (t : Txn) (id : Nat) (v : PVal) (s : State) : State :=
  let b := idInst id
  let s := if s.rd (I2c.I2C_ENABLE b) = 1 ∧ s.rd (I2c.BUS_STATE b) = 0 then s.busTo b 1 else s
  if id = I2c.I2C_ENABLE b then
    if v.toNat = 1 then s
    else
      let s := (s.setBus b { s.bus b with cur := none, pollEnd := none }).busTo b 0
      s.kickBus b
  else if id = I2c.XFER_DESC b then
    match parseXfer (t.old.valBytes v) with
    | none => s
    | some ds =>
      let s := s.hold { r := t.r, op := t.op, edge := s.tickSeq, status := Status.OK, why := .xferList b }
      (s.setBus b { s.bus b with hosts := (s.bus b).hosts ++ [{ r := some t.r, descs := ds }] }).kickBus b
  else s

end Sys2Proof.Machine
end

