-- ==== Sys2Proof/Machine/Profile.lean ====
section
/-! DEFINITION. The operating profiles: Table 02-7, the custom profile and its bounds (R52 to R55). -/

namespace Sys2Proof.Machine

/-- What a profile fixes. Caps in mW, the CORE clock and its floor in MHz, the NOC and CPU clocks in kHz, rounded down, shares in
thousandths, the clock scale and life weight in Q16.16, the DRAM speed as the code of CUSTOM_DRAM_SPEED, the TRF budget as the code of Table 06-3, shed items as 1 to 10. -/
structure ProfileVals where
  cap : Nat
  floorCap : Nat
  scale : Nat
  core : Nat
  noc : Nat
  cpu : Nat
  floorClock : Nat
  dramSpeed : Nat
  shares : List Nat
  trf : Nat
  tnrRefs : Nat
  maxContexts : Nat
  shedOrder : List Nat
  lifeWeight : Nat
  deriving DecidableEq, Repr

/-- Eland, Sable, Markhor and Duiker (Table 02-7). In Duiker CORE is gated. -/
def fixedProfile (k : Nat) : ProfileVals :=
  match k with
  | 0 => { cap := 135000, floorCap := 75000, scale := 0x10000, core := 1500, noc := 1200000, cpu := 1600000, floorClock := 1200, dramSpeed := 3, shares := [320, 300, 120, 30, 10],
           trf := 3, tnrRefs := 2, maxContexts := 16, shedOrder := [1, 2, 3, 4, 8, 5, 6, 7, 10, 9], lifeWeight := 0x20000 }
  | 2 => { cap := 70000, floorCap := 45000, scale := 0xCCCD, core := 1200, noc := 960000, cpu := 1280000, floorClock := 900, dramSpeed := 1, shares := [380, 280, 100, 30, 10],
           trf := 2, tnrRefs := 1, maxContexts := 12, shedOrder := [2, 3, 8, 5, 1, 6, 7, 10, 9], lifeWeight := 0x8000 }
  | 3 => { cap := 8000, floorCap := 8000, scale := 0, core := 0, noc := 300000, cpu := 800000, floorClock := 0, dramSpeed := 0, shares := [100, 0, 20, 50, 10],
           trf := 2, tnrRefs := 0, maxContexts := 0, shedOrder := [], lifeWeight := 0x199A }
  | _ => { cap := 95000, floorCap := 60000, scale := 0x10000, core := 1500, noc := 1200000, cpu := 1600000, floorClock := 1000, dramSpeed := 2, shares := [360, 300, 100, 30, 10],
           trf := 2, tnrRefs := 1, maxContexts := 16, shedOrder := [2, 3, 1, 8, 5, 6, 7, 10, 9], lifeWeight := 0x10000 }

/-- The nibbles of a shed order up to the first 0 (R55). -/
def shedItems (v : Nat) : List Nat :=
  ((List.range 16).map fun k => bits v (4 * k + 3) (4 * k)).takeWhile fun n => n != 0

/-- The word of a shed order. -/
def shedWord : List Nat → Nat
  | [] => 0
  | n :: r => n + 16 * shedWord r

/-- A CUSTOM_SHED_ORDER in its bounds (R55). -/
def shedOrderOk (v : Nat) : Bool :=
  let l := shedItems v
  l.all (fun n => decide (n ≤ 10)) && l.eraseDups.length == l.length && decide (v = shedWord l)

/-- The life weight of a custom profile (R55). -/
def customLifeWeight (cap scale : Nat) : Nat :=
  if cap ≤ 70000 ∧ scale ≤ 0xCCCD then 0x8000 else if cap ≤ 95000 then 0x10000 else 0x20000

/-- The CORE clock of a scale in MHz: 1.5 GHz × the scale, rounded down to a multiple of 25 MHz (R55). The scale 0xCCCD is
the Markhor set. -/
def scaledCore (scale : Nat) : Nat := 1500 * scale / 65536 / 25 * 25

/-- The custom profile as its parameters describe it: the NOC and CPU clocks follow the scaled CORE clock (R55). -/
def State.customProfile (s : State) : ProfileVals :=
  { cap := s.rd Tick.CUSTOM_POWER_CAP, floorCap := s.rd Tick.CUSTOM_FLOOR, scale := s.rd Tick.CUSTOM_CLOCK_SCALE,
    core := scaledCore (s.rd Tick.CUSTOM_CLOCK_SCALE), noc := 1200000 * scaledCore (s.rd Tick.CUSTOM_CLOCK_SCALE) / 1500,
    cpu := 1600000 * scaledCore (s.rd Tick.CUSTOM_CLOCK_SCALE) / 1500,
    floorClock := s.rd Tick.CUSTOM_FLOOR_CLOCK, dramSpeed := s.rd Tick.CUSTOM_DRAM_SPEED,
    shares := (List.range 5).map fun c => s.rd (Tick.CUSTOM_SHARE c), trf := s.rd Tick.CUSTOM_TRF_BUDGET,
    tnrRefs := s.rd Tick.CUSTOM_TNR_REFS, maxContexts := s.rd Tick.CUSTOM_MAX_CONTEXTS,
    shedOrder := shedItems (s.rd Tick.CUSTOM_SHED_ORDER),
    lifeWeight := customLifeWeight (s.rd Tick.CUSTOM_POWER_CAP) (s.rd Tick.CUSTOM_CLOCK_SCALE) }

/-- The active profile. -/
def State.profile (s : State) : ProfileVals :=
  if s.rd Tick.PROFILE = 4 then s.customProfile else fixedProfile (s.rd Tick.PROFILE)

/-- Duiker is active. -/
def State.duiker (s : State) : Bool := s.rd Tick.PROFILE == 3

/-- DRAM speed codes in MT/s. -/
def dramMT (code : Nat) : Nat := [4800, 5600, 6400, 8000].getD code 6400

/-- Peak DRAM bandwidth in MB/s at a speed code with all channels: 64 bytes × MT/s (Table 02-7). -/
def dramPeak (code : Nat) : Nat := 64 * dramMT code

end Sys2Proof.Machine
end

