-- ==== Sys2Proof/Machine/Trf.lean ====
section
/-! DEFINITION. The Tile Raw Format bit by bit: the encoder's choice, the tile layouts, the normative decoder, and the
layout of a frame in DRAM (R159 to R182). A tile is four planes of 128 samples (R159). -/

namespace Sys2Proof.Machine

/-! ## The bit stream (R160) -/

/-- A field of `n` bits, least significant first. -/
def putBits : Nat → Nat → List Bool
  | 0, _ => []
  | n + 1, v => (v % 2 == 1) :: putBits n (v / 2)

/-- The number a field of bits stands for. -/
def bitsNat : List Bool → Nat
  | [] => 0
  | b :: r => (if b then 1 else 0) + 2 * bitsNat r

/-- The bytes of a bit stream; the last byte is filled with zero bits. -/
def packBits (bs : List Bool) : Nat → List Byte
  | 0 => []
  | n + 1 => BitVec.ofNat 8 (bitsNat (bs.take 8)) :: packBits (bs.drop 8) n

/-- The bit stream of bytes. -/
def unpackBits (bs : List Byte) : List Bool := bs.flatMap fun b => putBits 8 b.toNat

/-- A tile in writing: fields as (value, width in bits), in stream order. -/
abbrev Fields := List (Nat × Nat)

/-- The bits of the fields. -/
def Fields.stream (f : Fields) : List Bool := f.flatMap fun p => putBits p.2 p.1

/-- The size of the fields in bits. -/
def Fields.size (f : Fields) : Nat := (f.map Prod.snd).sum

/-- Reads `n` bits: the value, what is left, and whether reading passed the end of the tile (`get` of R182). -/
def getBits (n : Nat) (bs : List Bool) : Nat × List Bool × Bool :=
  (bitsNat (bs.take n), bs.drop n, decide (bs.length < n))

/-- Reads fields of the given widths in order. -/
def getMany : List Nat → List Bool → List Nat × List Bool × Bool
  | [], bs => ([], bs, false)
  | n :: r, bs =>
    let (v, bs1, bad1) := getBits n bs
    let (vs, bs2, bad2) := getMany r bs1
    (v :: vs, bs2, bad1 || bad2)

/-! ## Prediction and residuals (R162, R163) -/

/-- The prediction of the next plane sample from the samples before it, the latest first (R162). -/
def trfPredict (prev : List Nat) : Nat :=
  let a := prev.getD 0 0
  let b := prev.getD 31 0
  let c := prev.getD 32 0
  if prev.length < 32 then a
  else if prev.length % 32 = 0 then b
  else if max a b ≤ c then min a b
  else if c ≤ min a b then max a b
  else a + b - c

/-- The coded residual z of a quantised sample against its prediction, in `w` bits (R163). -/
def trfZig (w q p : Nat) : Nat :=
  let d := (q + 2 ^ w - p % 2 ^ w) % 2 ^ w
  if d < 2 ^ (w - 1) then 2 * d else 2 * (2 ^ w - d) - 1

/-- The quantised sample of a coded residual (R163). -/
def trfZag (w z p : Nat) : Nat :=
  if z % 2 = 0 then (p + z / 2) % 2 ^ w else (p + 2 ^ w * ((z + 1) / 2) - (z + 1) / 2) % 2 ^ w

/-- The residuals of the samples that follow `prev` (the latest first). -/
def trfResiduals (w : Nat) (prev : List Nat) : List Nat → List Nat
  | [] => []
  | q :: r => trfZig w q (trfPredict prev) :: trfResiduals w (q :: prev) r

/-- The samples of a list of residuals, after `prev` (the latest first). -/
def trfRebuild (w : Nat) (prev : List Nat) : List Nat → List Nat
  | [] => []
  | z :: r =>
    let q := trfZag w z (trfPredict prev)
    q :: trfRebuild w (q :: prev) r

/-! ## PREDICT tiles (Table 06-1) -/

/-- The bit length of a number. -/
def bitLength (v : Nat) : Nat := if v = 0 then 0 else Nat.log2 v + 1

/-- The residuals of a plane cut into its eight groups: 15, then 16 each (R164). -/
def trfGroups (zs : List Nat) : List (List Nat) :=
  zs.take 15 :: (List.range 7).map fun g => slice' zs (15 + 16 * g) 16
where
  slice' (l : List Nat) (o n : Nat) : List Nat := (l.drop o).take n

/-- The length code the encoder writes for a group (R164). -/
def trfLengthCode (zs : List Nat) : Nat :=
  let n := bitLength (zs.foldl max 0)
  if n ≤ 14 then n else 15

/-- The residual length a code gives at reduced width `w` (R164). -/
def trfLength (w lc : Nat) : Nat := if lc = 15 then w else lc

/-- The lengths of the 127 residuals of a plane. -/
def trfLengths (w : Nat) (lcs : List Nat) : List Nat :=
  List.replicate 15 (trfLength w (lcs.getD 0 0)) ++
    (List.range 7).flatMap fun g => List.replicate 16 (trfLength w (lcs.getD (g + 1) 0))

/-- One plane, quantised: its first sample, its residuals and their length codes. -/
def trfPlane (w s : Nat) (vs : List Nat) : Nat × List Nat × List Nat :=
  let qs := vs.map fun v => v / 2 ^ s
  let q0 := qs.getD 0 0
  let zs := trfResiduals (w - s) [q0] (qs.drop 1)
  (q0, zs, (trfGroups zs).map trfLengthCode)

/-- The WIDTH field of a sample width (R161). -/
def trfWidthCode (w : Nat) : Nat := (w - 10) / 2

/-- The fields of a PREDICT tile with plane shifts `ss` (Table 06-1). -/
def trfPredictFields (w : Nat) (ss : List Nat) (tile : List (List Nat)) : Fields :=
  let ps := (ss.zip tile).map fun p => (p.1, trfPlane w p.1 p.2)
  [(0, 2), (trfWidthCode w, 2)] ++ ss.map (fun s => (s, 4)) ++ [(0, 4)] ++
    ps.flatMap (fun p => p.2.2.2.map fun lc => (lc, 4)) ++ ps.map (fun p => (p.2.1, w - p.1)) ++
    ps.flatMap (fun p => p.2.2.1.zip (trfLengths (w - p.1) p.2.2.2))

/-- The reconstructed sample of a quantised one (R165). -/
def trfDequant (s q : Nat) : Nat := if s = 0 then q else q * 2 ^ s + 2 ^ (s - 1)

/-- The largest reconstruction error at a shift (R165, R167). -/
def trfBound (s : Nat) : Nat := if s = 0 then 0 else 2 ^ (s - 1)

/-! ## FLAT and RAW tiles (R167, R168) -/

/-- The smallest shift for which a span fits an offset of `b` bits (R167). -/
def flatShift (b span : Nat) : Nat := ((List.range 17).find? fun f => decide (span / 2 ^ f ≤ 2 ^ b - 1)).getD 16

/-- The least sample of a plane and its FLAT shift (R167). -/
def flatPlane (b : Nat) (vs : List Nat) : Nat × Nat :=
  let mn := vs.foldl min (vs.getD 0 0)
  (mn, flatShift b (vs.foldl max 0 - mn))

/-- The fields of a FLAT tile (Table 06-2). -/
def trfFlatFields (w b : Nat) (tile : List (List Nat)) : Fields :=
  [(1, 2), (trfWidthCode w, 2), (b, 4)] ++
    tile.flatMap (fun vs => [((flatPlane b vs).1, 16), ((flatPlane b vs).2, 4)]) ++
    tile.flatMap (fun vs => vs.map fun v => ((v - (flatPlane b vs).1) / 2 ^ (flatPlane b vs).2, b))

/-- The fields of a RAW tile (R168). -/
def trfRawFields (w : Nat) (tile : List (List Nat)) : Fields :=
  [(2, 2), (trfWidthCode w, 2), (0, 4)] ++ tile.flatMap fun vs => vs.map fun v => (v, w)

/-! ## The encoder's choice (R170, R172) -/

/-- The tile size in bytes of a budget (Table 06-3). -/
def trfTileBytes (budget : Nat) : Nat := [512, 384, 320, 256, 192].getD budget 320

/-- The FLAT offset width of a tile size: ⌊(tile bits − 88) ÷ 512⌋ (Table 06-3). -/
def trfFlatWidth (tileBytes : Nat) : Nat := (8 * tileBytes - 88) / 512

/-- The plane shifts of a ladder step (R170, Table 06-4); `cfa` 1 and 2 are GRBG and GBRG. -/
def trfShifts (cfa i : Nat) : List Nat :=
  let o := if cfa = 1 ∨ cfa = 2 then [0, 1, 1, 0] else [1, 0, 0, 1]
  o.map fun k => min 8 ((i + k) / 2)

/-- An encoded tile: its bytes, its mode, the ladder step of a PREDICT tile, and its error bound. -/
structure TileOut where
  bytes : List Byte
  mode : Nat
  step : Nat
  bound : Nat
  deriving DecidableEq, Repr

/-- Encodes a tile in a fixed-rate mode: the first ladder step that fits, else FLAT (R170). -/
def trfEncodeFixed (w cfa budget maxStep : Nat) (tile : List (List Nat)) : TileOut :=
  let t := trfTileBytes budget
  match (List.range (maxStep + 1)).find? (fun i => decide ((trfPredictFields w (trfShifts cfa i) tile).size ≤ 8 * t)) with
  | some i =>
    { bytes := packBits (trfPredictFields w (trfShifts cfa i) tile).stream t, mode := 0, step := i,
      bound := ((trfShifts cfa i).map trfBound).foldl max 0 }
  | none =>
    let b := trfFlatWidth t
    { bytes := packBits (trfFlatFields w b tile).stream t, mode := 1, step := 0,
      bound := (tile.map fun vs => trfBound (flatPlane b vs).2).foldl max 0 }

/-- Encodes a tile in the lossless mode: PREDICT at step 0, or RAW where its size padded to 16 bytes is smaller (R172). -/
def trfEncodeLossless (w : Nat) (tile : List (List Nat)) : TileOut :=
  let p := trfPredictFields w [0, 0, 0, 0] tile
  let r := trfRawFields w tile
  let np := alignUp (ceilDiv p.size 8) 16
  let nr := alignUp (ceilDiv r.size 8) 16
  if nr < np then { bytes := packBits r.stream nr, mode := 2, step := 0, bound := 0 }
  else { bytes := packBits p.stream np, mode := 0, step := 0, bound := 0 }

/-! ## The normative decoder (R182) -/

/-- Cuts a list into pieces of `n`. -/
def chunks {α : Type} (n : Nat) : Nat → List α → List (List α)
  | 0, _ => []
  | k + 1, l => l.take n :: chunks n k (l.drop n)

/-- Decodes a PREDICT body after MODE and WIDTH. -/
def trfDecodePredict (w : Nat) (bs : List Bool) : List (List Nat) × Bool :=
  let (ss, bs, e1) := getMany (List.replicate 4 4) bs
  let (_, bs, e2) := getBits 4 bs
  let (lcs, bs, e3) := getMany (List.replicate 32 4) bs
  let lcp := chunks 8 4 lcs
  let (q0s, bs, e4) := getMany (ss.map fun s => w - s) bs
  let (zs, _, e5) := getMany ((ss.zip lcp).flatMap fun p => trfLengths (w - p.1) p.2) bs
  let planes := ((ss.zip q0s).zip (chunks 127 4 zs)).map fun p =>
    (p.1.2 :: trfRebuild (w - p.1.1) [p.1.2] p.2).map (trfDequant p.1.1)
  (planes, e1 || e2 || e3 || e4 || e5 || ss.any fun s => decide (8 < s))

/-- Decodes a FLAT body after MODE and WIDTH, of a tile of `nbits` bits. -/
def trfDecodeFlat (w nbits : Nat) (bs : List Bool) : List (List Nat) × Bool :=
  let (b, bs, e1) := getBits 4 bs
  let (hs, bs, e2) := getMany [16, 4, 16, 4, 16, 4, 16, 4] bs
  let (os, _, e3) := getMany (List.replicate 512 b) bs
  let heads := chunks 2 4 hs
  let planes := (heads.zip (chunks 128 4 os)).map fun p =>
    let mn := p.1.getD 0 0
    let f := p.1.getD 1 0
    p.2.map fun o => min (mn + o * 2 ^ f + trfBound f) (2 ^ w - 1)
  (planes, e1 || e2 || e3 || b == 0 || decide (nbits < 88 + 512 * b) || heads.any fun h => decide (2 ^ w ≤ h.getD 0 0))

/-- Decodes a RAW body after MODE and WIDTH. -/
def trfDecodeRaw (w : Nat) (bs : List Bool) : List (List Nat) × Bool :=
  let (_, bs, e1) := getBits 4 bs
  let (vs, _, e2) := getMany (List.replicate 512 w) bs
  (chunks 128 4 vs, e1 || e2)

/-- A tile of 512 samples of value 0. -/
def zeroTile : List (List Nat) := List.replicate 4 (List.replicate 128 0)

/-- Decodes a tile at sample width `w`: the samples, and whether the tile is malformed (R182). -/
def trfDecode (w : Nat) (tile : List Byte) : List (List Nat) × Bool :=
  let bs := unpackBits tile
  let (mode, bs, e1) := getBits 2 bs
  let (wc, bs, e2) := getBits 2 bs
  let r :=
    if mode = 0 then trfDecodePredict w bs
    else if mode = 1 then trfDecodeFlat w (8 * tile.length) bs
    else if mode = 2 then trfDecodeRaw w bs
    else (zeroTile, true)
  if r.2 || e1 || e2 || wc != trfWidthCode w then (zeroTile, true) else (r.1, false)

/-! ## Tiles of a frame (R137, R159, R175, R176) -/

/-- The planes of tile `c` of a row of 8 padded lines (R159). -/
def tilePlanes (lines : List (List Nat)) (c : Nat) : List (List Nat) :=
  (List.range 4).map fun k => (List.range 128).map fun j =>
    (lines.getD (2 * (j / 32) + k / 2) []).getD (64 * c + 2 * (j % 32) + k % 2) 0

/-- The 8 lines of 64 samples of a decoded tile. -/
def tileLines (planes : List (List Nat)) : List (List Nat) :=
  (List.range 8).map fun y => (List.range 64).map fun x =>
    (planes.getD (2 * (y % 2) + x % 2) []).getD (32 * (y / 2) + x / 2) 0

/-- The size of the lossless object of `r` tile rows and `c` tile columns whose tiles take `data` bytes (R175): index
bytes, padded data bytes, whole object. -/
def losslessSizes (r c data : Nat) : Nat × Nat × Nat :=
  let index := alignUp (r * (8 + alignUp (2 * c) 8)) 64
  let dataB := alignUp data 64
  (index, dataB, 64 + index + dataB)

/-- The largest tile of the lossless mode (R172). -/
def losslessMaxTile (w : Nat) : Nat := alignUp (ceilDiv (8 + 512 * w) 8) 16

/-- The largest frame of a configuration in bytes: tile array or largest lossless object (R174, R177). -/
def trfMaxBytes (lossless : Bool) (w budget lines samples : Nat) : Nat :=
  let c := ceilDiv samples 64
  let r := ceilDiv lines 8
  if lossless then (losslessSizes r c (r * c * losslessMaxTile w)).2.2 else r * c * trfTileBytes budget

/-- A lossless object: header, index and data of its tile rows (R175, Table 06-7). -/
def losslessObject (rows : List (List (List Byte))) : List Byte :=
  let c := (rows.getD 0 []).length
  let data := rows.flatMap fun r => r.flatMap id
  let entries := rows.foldl (fun (st : Nat × List Byte) r =>
    (st.1 + (r.map List.length).sum,
      st.2 ++ leBytes 8 st.1 ++ padTo 8 (r.flatMap fun t => leBytes 2 (t.length / 16)))) (0, [])
  let index := padTo 64 entries.2
  let body := padTo 64 data
  leBytes 1 0x4F ++ leBytes 1 1 ++ leBytes 6 0 ++ leBytes 2 c ++ leBytes 2 rows.length ++ leBytes 4 index.length ++
    leBytes 8 body.length ++ zeroBytes 40 ++ index ++ body

end Sys2Proof.Machine
end

