-- ==== Sys2Proof/Machine/Ingest.lean ====
section
/-! DEFINITION. Ingest: frames from FRAME_START to their final ticket, fill and discard rules, defect records, hand-off to the
TRF encoder (spec/05, R178 to R184). -/

namespace Sys2Proof.Machine

/-! ## Configuration of a frame -/

/-- Sample width of a WIDTH_CODE (Table 04-4). -/
def widthBits (code : Nat) : Nat := 8 + 2 * code

/-- The TRF budget in force for a port; 7 in the lossless mode (R181, Table 06-8). -/
def State.budgetInForce (s : State) (p : Nat) : Nat :=
  if s.rd (Trf.TRF_MODE p) = 1 then 7
  else if s.rd (Trf.TRF_BUDGET p) = 5 then s.profile.trf else s.rd (Trf.TRF_BUDGET p)

/-- The slot size of a port's configuration: its largest frame, in units of 4 KiB (R178). -/
def State.slotBytes (s : State) (p : Nat) : Nat :=
  let g := s.rd (Ing.ING_GEOMETRY p)
  alignUp (trfMaxBytes (s.rd (Trf.TRF_MODE p) == 1) (widthBits (s.rd (Ing.ING_WIDTH p))) (s.budgetInForce p) (bits g 31 16) (bits g 15 0)) 4096

/-- The Ticket-rule parameters of a context (R257). -/
def ispIds (ctx : Nat) : List Nat :=
  (List.range 3).map (Rend.WB_GAIN ctx) ++ (List.range 9).map (Rend.CAM_MATRIX ctx) ++ (List.range 4).map (Rend.TRIM_EV ctx)

/-- The ingest deadline after FRAME_START, in ns (R138). -/
def State.ingestDeadline (s : State) (p ctx : Nat) : Nat :=
  let d := s.rd (Ing.ING_DEADLINE p)
  if d = 0 then s.period * s.rd (Ctx.TICK_DIVISOR ctx) - s.guard else d

/-- What a frame opens with (R135, R181, R256, R259). -/
def State.frameCfg (s : State) (p ctx : Nat) : FrameCfg :=
  let g := s.rd (Ing.ING_GEOMETRY p)
  { ctx := ctx, lines := bits g 31 16, samples := bits g 15 0, width := widthBits (s.rd (Ing.ING_WIDTH p)),
    cfa := s.rd (Ing.CFA_PHASE p), deadline := s.ingestDeadline p ctx, pedestal := s.rd (Ing.PEDESTAL p),
    black := (List.range 4).map fun k => s.rd (Ing.BLACK_LEVEL p k), embed := s.rd (Ing.EMBED_ENABLE p) == 1,
    mapGen := s.rd (Ing.DEFECT_MAP_GENERATION p), map := s.rdBlob (Ing.DEFECT_MAP p),
    lossless := s.rd (Trf.TRF_MODE p) == 1, budget := s.budgetInForce p, maxStep := s.rd (Trf.TRF_MAX_STEP p),
    slots := s.rd (Trf.TRF_SLOTS p), isp := (ispIds ctx).map fun i => (i, s.rd i),
    controls := (s.exposure p).eff, desc := (s.exposure p).desc }

/-! ## Ticket (R153, R154) -/

namespace Flag
def SHORT : Nat := 0
def LONG : Nat := 1
def TRUNCATED : Nat := 2
def CRC_ERR : Nat := 3
def LANE_LOST : Nat := 4
def REPEATED : Nat := 5
def OVERRUN : Nat := 6
def LATE_BIND : Nat := 7
def EPOCH_CHANGE : Nat := 8
def DEGRADED : Nat := 9
end Flag

/-- A frame with a ticket flag set. -/
def Frame.flag (f : Frame) (i : Nat) : Frame := { f with flags := setFlag f.flags i }

/-- Bytes 0 to 123 of the frame ticket (Table 05-5). -/
def Frame.ticketBody (f : Frame) : List Byte :=
  leBytes 1 1 ++ leBytes 1 f.cfg.ctx ++ leBytes 1 f.port ++ leBytes 1 f.cause ++ leBytes 4 f.tickSeq ++ leBytes 8 f.time ++
    leBytes 2 f.epoch ++ leBytes 2 f.flags ++ leBytes 4 f.frameCount ++ leBytes 4 f.exposureId ++ leBytes 4 f.ispGen ++
    leBytes 4 f.ticket ++ leBytes 1 f.embBefore ++ leBytes 1 f.embAfter ++ leBytes 2 f.lenMin ++ leBytes 2 f.lenMax ++
    leBytes 2 f.received ++ leBytes 2 f.linesSent ++ leBytes 2 f.filled ++ leBytes 2 f.discarded ++ leBytes 2 f.padded ++
    leBytes 2 f.cut ++ leBytes 2 f.crcLines ++ leBytes 8 f.statsHandle ++ leBytes 8 f.embedHandle ++
    leBytes 4 f.embed.length ++ leBytes 8 f.defectHandle ++ leBytes 2 f.regions.length ++ leBytes 2 f.cfg.mapGen ++
    leBytes 4 f.trfBytes ++ leBytes 2 f.lanesMissing ++ leBytes 2 f.endEpoch ++ leBytes 8 f.endTime ++ zeroBytes 20

/-- The 128-byte frame ticket with its TICKET_CRC. -/
def Frame.ticketBytes (f : Frame) : List Byte := f.ticketBody ++ leBytes 4 (crc32 f.ticketBody)

/-! ## Region records (R150) -/

/-- The lines a region record covers. -/
def Region.span (r : Region) : Nat := if r.kind = 2 then r.padLines else r.count

/-- Whether a new record continues an older one on the next line. -/
def Region.continues (r n : Region) : Bool :=
  r.kind == n.kind && r.kind != 15 && r.y + r.span == n.y && r.lane == n.lane && r.laneCount == n.laneCount &&
    (if r.kind = 2 then r.x == n.x && r.count == n.count && decide (r.padLines + n.padLines ≤ 4095) else true)

/-- Two records joined. -/
def Region.join (r n : Region) : Region :=
  if r.kind = 2 then { r with padLines := r.padLines + n.padLines } else { r with count := r.count + n.count }

/-- Adds a record: joined to the one it continues, appended, or, as a 257th, making the 256th an OVERFLOW record. -/
def Frame.addRegion (f : Frame) (n : Region) : Frame :=
  if f.overflow then f
  else if f.regions.any (fun r => r.continues n) then
    { f with regions := f.regions.map fun r => if r.continues n then r.join n else r }
  else if f.regions.length < 256 then { f with regions := f.regions ++ [n] }
  else
    let y := (f.regions.getD 255 n).y
    { f with overflow := true, regions := f.regions.take 255 ++ [{ kind := 15, y := y }] }

/-- The 8 bytes of a region record (Table 05-4). -/
def Region.bytes (r : Region) : List Byte :=
  let lane := if r.kind = 2 then bits r.padLines 11 8 else r.lane
  let n := if r.kind = 2 then bits r.padLines 7 0 else r.laneCount
  leBytes 2 r.x ++ leBytes 2 r.y ++ leBytes 2 r.count ++ leBytes 1 n ++ leBytes 1 (r.kind * 16 + lane)

/-! ## Lines (R142 to R148) -/

/-- A filled line: every sample is the pedestal. -/
def Frame.fillLine (f : Frame) : List Nat := List.replicate f.cfg.samples f.cfg.pedestal

/-- Fills lines up to line `l`, which is not filled (R142, R143). -/
def Frame.fillTo (f : Frame) (l : Nat) : Frame :=
  if l ≤ f.next then f
  else
    let n := l - f.next
    let g := (f.flag Flag.SHORT).addRegion { kind := 1, count := n, y := f.next }
    { g with next := l, filled := g.filled + n, rows := g.rows ++ List.replicate n f.fillLine }

/-- The black level of a position (R148). -/
def FrameCfg.blackAt (c : FrameCfg) (line i : Nat) : Nat :=
  if c.cfa = 4 then c.black.getD 0 0 else c.black.getD (2 * (line % 2) + i % 2) 0

/-- One received sample after R148, and whether it was clamped. -/
def FrameCfg.sample (c : FrameCfg) (line i v : Nat) : Nat × Bool :=
  let x : Int := (v : Int) - (c.blackAt line i : Int) + (c.pedestal : Int)
  let top : Int := ((2 ^ c.width - 1 : Nat) : Int)
  ((clamp 0 top x).toNat, decide (x < 0 ∨ top < x))

/-- The samples of a placed line: received ones after R148, missing ones and padding at the pedestal; and how many were
clamped. -/
def FrameCfg.line (c : FrameCfg) (line : Nat) (vs : List (Option Nat)) : List Nat × Nat :=
  let out := (List.range c.samples).map fun i => match vs.getD i none with
    | some v => c.sample line i v
    | none => (c.pedestal, false)
  (out.map Prod.fst, (out.filter Prod.snd).length)

/-- An active line as the port delivers it: number, received length, samples with missing ones as none, CRC error, missing
logical lanes and the lane count. -/
structure RxLine where
  number : Nat
  len : Nat
  samples : List (Option Nat)
  crcErr : Bool
  missing : List Nat
  lanes : Nat
  deriving DecidableEq, Repr

/-- Places an active line in a frame (R142, R144 to R146). A discarded line with a CRC error sets CRC_ERR (Table 05-6); DEDUCED: CRC_LINES
counts placed lines only, as the CRC_LINE records do. -/
def Frame.place (f : Frame) (l : RxLine) : Frame :=
  let f := { f with activeSeen := true, lanesMissing := l.missing.foldl setFlag f.lanesMissing }
  if l.number < f.next ∨ f.cfg.lines ≤ l.number then
    let f := if l.crcErr then f.flag Flag.CRC_ERR else f
    { f.flag Flag.LONG with discarded := f.discarded + 1 }
  else
    let f := f.fillTo l.number
    let f := if l.len < f.cfg.samples then
        { (f.flag Flag.SHORT).addRegion { kind := 2, y := l.number, x := l.len, count := f.cfg.samples - l.len, padLines := 1 } with
          padded := f.padded + 1 }
      else if f.cfg.samples < l.len then { f.flag Flag.LONG with cut := f.cut + 1 }
      else f
    let f := l.missing.foldl (fun g k =>
      g.addRegion { kind := 3, lane := k, laneCount := l.lanes, count := 1, y := l.number }) f
    let f := if l.crcErr then
        { (f.flag Flag.CRC_ERR).addRegion { kind := 4, count := 1, y := l.number } with crcLines := f.crcLines + 1 }
      else f
    { f with
      next := l.number + 1, received := f.received + 1
      lenMin := if f.received = 0 then l.len else min f.lenMin l.len
      lenMax := max f.lenMax l.len
      rows := f.rows ++ [(f.cfg.line l.number l.samples).1] }

/-- The header and padded bytes of an embedded line in the embedded record (R147). -/
def embeddedEntry (type number : Nat) (crcErr : Bool) (bytes : List Byte) : List Byte :=
  leBytes 2 number ++ leBytes 1 0 ++ leBytes 1 type ++ leBytes 2 bytes.length ++ leBytes 2 (if crcErr then 1 else 0) ++ padTo 8 bytes

/-- Takes an embedded line into a frame (R145, R147). EMBED_BEFORE and EMBED_AFTER follow its place in the frame, the limit of 4 its
LINE_TYPE. -/
def Frame.embedded (f : Frame) (type number : Nat) (crcErr : Bool) (bytes : List Byte) : Frame :=
  let type := if f.activeSeen then 2 else type
  let full := decide (4 ≤ if type = 1 then f.emb1 else f.emb2)
  let f := if crcErr then f.flag Flag.CRC_ERR else f
  if full then { f.flag Flag.LONG with discarded := f.discarded + 1 }
  else
    { f with
      emb1 := if type = 1 then f.emb1 + 1 else f.emb1
      emb2 := if type = 1 then f.emb2 else f.emb2 + 1
      embBefore := if f.activeSeen then f.embBefore else f.embBefore + 1
      embAfter := if f.activeSeen then f.embAfter + 1 else f.embAfter
      embed := if f.cfg.embed then f.embed ++ embeddedEntry type number crcErr bytes else f.embed
      verify := if number = 0 ∧ (tfind f.verify type).isNone then tins f.verify type bytes else f.verify }

/-! ## Frame states (R138) -/

/-- Changes the open frame of a port. -/
def State.withFrame (s : State) (p : Nat) (g : Frame → Frame) : State :=
  s.setIngest p { s.ingest p with frame := (s.ingest p).frame.map g }

/-- Makes a ticket final: the slot keeps it, and LAST_TICKET reports it (R155). -/
def State.finalFrame (s : State) (p slot : Nat) : State :=
  match tfind (s.ingest p).slots slot with
  | none => s
  | some f =>
    if f.final then s
    else
      let s := s.setIngest p { s.ingest p with slots := tins (s.ingest p).slots slot { f with final := true } }
      s.wrBlob (Ing.LAST_TICKET p) f.ticketBytes

/-- The frames of a context whose ticket is written and that no job has taken become final, in the order of the frames of each port: when
the next frame of the context closes (R155), or when no job can take them any more (R189). -/
def State.finalUntaken (s : State) (ctx : Nat) : State :=
  (List.range 16).foldl (fun t p =>
    let es := (t.ingest p).slots.filter fun e => e.2.cfg.ctx == ctx && !e.2.taken && !e.2.final
    (es.insertionSort fun a b => a.2.number ≤ b.2.number).foldl (fun u e => u.finalFrame p e.1) t) s

/-- A frame of the context of `f` that opened after it has closed (R155). -/
def State.nextClosed (s : State) (f : Frame) : Bool :=
  (List.range 16).any fun p => ((s.ingest p).closing ++ (s.ingest p).slots.map Prod.snd).any fun h =>
    h.cfg.ctx == f.cfg.ctx && decide (f.startClock < h.startClock)

/-- Counts a flag of a frame that closes. -/
def State.countFlag (s : State) (f : Frame) (i id : Nat) : State := if bit f.flags i then s.count id else s

/-- Closes the open frame of a port with a cause (R138, R140, R143, R152). -/
def State.closeFrame (s : State) (p cause linesSent : Nat) : State :=
  match (s.ingest p).frame with
  | none => s
  | some f0 =>
    let f1 := f0.fillTo f0.cfg.lines
    let s := s.countBy (Ing.LINES_FILLED p) (f1.filled - f0.filled)
    let s := if f1.overflow && !f0.overflow then s.count (Ing.DEFECT_OVERFLOW p) else s
    let f2 := if cause = 0 then f1 else f1.flag Flag.TRUNCATED
    let f3 := if cause = 3 then f2.flag Flag.LANE_LOST else f2
    let f4 := if f3.epoch ≠ s.epoch then f3.flag Flag.EPOCH_CHANGE else f3
    let f := { f4 with cause := cause, linesSent := linesSent, endTime := s.deviceTime, endEpoch := s.epoch, closed := true }
    let s := s.setIngest p { s.ingest p with frame := none, closing := (s.ingest p).closing ++ [f] }
    let s := (s.wr (Ing.FRAME_STATE p) 0).count (Ing.FRAMES_CLOSED p)
    let s := s.countFlag f Flag.SHORT (Ing.FRAMES_SHORT p)
    let s := s.countFlag f Flag.LONG (Ing.FRAMES_LONG p)
    let s := s.countFlag f Flag.TRUNCATED (Ing.FRAMES_TRUNCATED p)
    let s := s.countFlag f Flag.CRC_ERR (Ing.FRAMES_CRC_ERR p)
    let s := s.countFlag f Flag.EPOCH_CHANGE (Ing.EPOCH_CHANGES p)
    (s.finalUntaken f.cfg.ctx).fire (48 + p)

/-- The RO parameters of group 0x12 for a configuration (Table 06-8). -/
def State.trfReport (s : State) (p : Nat) (c : FrameCfg) : State :=
  s.wrAll [(Trf.BUDGET_IN_FORCE p, c.budget), (Trf.TILE_BYTES p, if c.lossless then 0 else trfTileBytes c.budget),
    (Trf.TILE_COLUMNS p, ceilDiv c.samples 64), (Trf.TILE_ROWS p, ceilDiv c.lines 8)]

/-! ### Frames that a job may take (R189, R190) -/

/-- Whether the next job of a context may take a frame of a port: its ticket is written, no job has taken it, and no newer frame of the
port has been considered. DEDUCED: a ticket that became final at the close of the next frame (R155) does not keep a job from the frame
(R190), but it is not changed any more. -/
def State.qualifies (s : State) (c p : Nat) (f : Frame) : Bool :=
  f.cfg.ctx == c && !f.taken && f.ticketWritten &&
    (match (s.ctxSt c).seen with
     | some (q, n) => q != p || decide (n < f.number)
     | none => true)

/-- A slot is used again: a frame in it that qualified for the next job of its context is skipped by that job (R191). -/
def State.slotLost (s : State) (p slot : Nat) : State :=
  match tfind (s.ingest p).slots slot with
  | none => s
  | some f =>
    let c := f.cfg.ctx
    let s := if s.qualifies c p f then s.setCtx c { s.ctxSt c with missed := (s.ctxSt c).missed + 1 } else s
    s.setIngest p { s.ingest p with slots := tdel (s.ingest p).slots slot }

/-- The slot size of the ring in force; until a frame opens, the configuration in force is reported as well (R184). -/
def State.resizeSlots (s : State) (p : Nat) : State :=
  let s := s.wr (Trf.SLOT_BYTES p) (s.slotBytes p)
  if (s.port p).framed then s else s.trfReport p (s.frameCfg p (s.rd (Ing.CONTEXT p)))

/-- Opens a frame on a port with a bound active context; without one the frame is discarded (R134, R138, R151 to R153). -/
def State.openFrame (s : State) (p frameCount : Nat) (degraded : Bool) : State :=
  let s := if (s.ingest p).frame.isSome then s.closeFrame p 2 0 else s
  match s.boundCtx p with
  | none => (s.setPort p { s.port p with discarding := true }).count (Ing.FRAMES_UNBOUND p)
  | some ctx =>
    let n := (s.ticketing ctx).next
    let (s, late) := s.exposureOpens p n frameCount
    let tk := s.ticketing ctx
    let changed := match tk.lastEpoch with | some e => e != s.epoch | none => false
    let cfg := s.frameCfg p ctx
    let s := s.slotLost p ((s.ingest p).count % cfg.slots)
    let g := s.ingest p
    let f : Frame :=
      { cfg := cfg, port := p, number := g.count, ticket := n, tickSeq := s.tickSeq, time := s.deviceTime, startClock := s.clock,
        epoch := s.epoch, frameCount := frameCount, exposureId := if s.bindingOn p then (s.exposure p).effId else 0,
        ispGen := tk.ispGen }
    let f := if late then f.flag Flag.LATE_BIND else f
    let f := if changed then f.flag Flag.EPOCH_CHANGE else f
    let f := if degraded then f.flag Flag.DEGRADED else f
    let s := s.setTicketing ctx { tk with next := (n + 1) % 2 ^ 32, lastEpoch := some s.epoch }
    let s := s.setIngest p { g with frame := some f, count := g.count + 1 }
    let s := s.setPort p { s.port p with discarding := false, framed := true }
    ((s.wr (Ing.FRAME_STATE p) 1).trfReport p cfg).fire (32 + p)

/-- An active line reaches ingest: placed in the open frame, or counted as an orphan (R140, R142). -/
def State.ingestLine (s : State) (p : Nat) (l : RxLine) : State :=
  match (s.ingest p).frame with
  | none => if (s.port p).discarding then s else s.count (Ing.ORPHAN_LINES p)
  | some f =>
    let f' := f.place l
    let s := s.setIngest p { s.ingest p with frame := some f' }
    let s := s.countBy (Ing.LINES_FILLED p) (f'.filled - f.filled)
    let s := s.countBy (Ing.LINES_DISCARDED p) (f'.discarded - f.discarded)
    let s := s.countBy (Ing.LINES_PADDED p) (f'.padded - f.padded)
    let s := s.countBy (Ing.LINES_CUT p) (f'.cut - f.cut)
    let s := if f'.received = f.received then s
      else s.countBy (Ing.SAMPLES_CLAMPED p) (f.cfg.line l.number l.samples).2
    if f'.overflow && !f.overflow then s.count (Ing.DEFECT_OVERFLOW p) else s

/-- An embedded line reaches ingest (R147). -/
def State.ingestEmbedded (s : State) (p type number : Nat) (crcErr : Bool) (bytes : List Byte) : State :=
  match (s.ingest p).frame with
  | none => if (s.port p).discarding then s else s.count (Ing.ORPHAN_LINES p)
  | some f =>
    let f' := f.embedded type number crcErr bytes
    (s.setIngest p { s.ingest p with frame := some f' }).countBy (Ing.LINES_DISCARDED p) (f'.discarded - f.discarded)

/-- The open frame and every frame without a ticket are abandoned (R157). -/
def State.ingestAbandon (s : State) (p : Nat) : State :=
  (s.setIngest p { s.ingest p with frame := none, closing := [] }).wr (Ing.FRAME_STATE p) 0

/-! ## The TRF encoder and the ticket -/

/-- The 8 padded lines of the next tile row of a frame (R137). -/
def Frame.nextRow (f : Frame) : List (List Nat) :=
  let w := alignUp f.cfg.samples 64
  let padded := (f.rows.take 8).map fun r => r ++ List.replicate (w - r.length) f.cfg.pedestal
  padded ++ List.replicate (8 - padded.length) (List.replicate w f.cfg.pedestal)

/-- Whether a tile row can be handed over (R156). -/
def Frame.rowReady (f : Frame) : Bool :=
  decide (f.tiles.length < ceilDiv f.cfg.lines 8) && (f.closed || decide (8 ≤ f.rows.length))

/-- Encodes the next tile row of a frame (R170, R172). -/
def Frame.encodeRow (f : Frame) : List TileOut :=
  let lines := f.nextRow
  (List.range (ceilDiv f.cfg.samples 64)).map fun c =>
    if f.cfg.lossless then trfEncodeLossless f.cfg.width (tilePlanes lines c)
    else trfEncodeFixed f.cfg.width f.cfg.cfa f.cfg.budget f.cfg.maxStep (tilePlanes lines c)

/-- A frame after its next tile row stands in DRAM. -/
def Frame.afterRow (f : Frame) (ts : List TileOut) : Frame :=
  { f with
    rows := f.rows.drop 8, tiles := f.tiles ++ [ts.map TileOut.bytes]
    flat := f.flat + (ts.filter fun t => t.mode == 1).length
    maxStep := (ts.map TileOut.step).foldl max f.maxStep
    bound := (ts.map TileOut.bound).foldl max f.bound }

/-- Counts the tiles of a row (Table 06-8). -/
def State.countTiles (s : State) (p : Nat) (ts : List TileOut) : State :=
  let s := s.countBy (Trf.TILES_ENCODED p) ts.length
  let s := s.countBy (Trf.TILES_FLAT p) (ts.filter fun t => t.mode == 1).length
  let s := s.countBy (Trf.TILES_RAW p) (ts.filter fun t => t.mode == 2).length
  let s := ts.foldl (fun t x => if x.mode = 0 then t.count (Trf.STEP_COUNT p x.step) else t) s
  s.addBytes (Trf.BYTES_OUT p) (ts.map fun t => t.bytes.length).sum

/-- Ingest and the TRF encoders run: in READY and RUN outside Duiker (R157, R183). DEDUCED: a frame that Duiker finds open or not yet
encoded waits, and gets its ticket once Duiker is left (R141). -/
def State.ingestRuns (s : State) : Bool := (s.pow.global == .ready || s.pow.global == .run) && !s.duiker

/-- TRF_TILE_ROW_WRITTEN (R180): the encoder of a port writes the next tile row, of the oldest frame first, while the encoders run. -/
def execTrfTileRowWritten (port : Fin 16) (s : State) : Host.Outcome State Fault Refusal :=
  .next (
    if !s.ingestRuns then s
    else
    let p := port.val
    let g := s.ingest p
    match g.closing.find? Frame.rowReady with
    | some f =>
      let ts := f.encodeRow
      (s.setIngest p { g with closing := g.closing.map fun h => if h.number = f.number then f.afterRow ts else h }).countTiles p ts
    | none =>
      match g.frame with
      | some f =>
        if f.rowReady then (s.setIngest p { g with frame := some (f.afterRow f.encodeRow) }).countTiles p f.encodeRow else s
      | none => s)

/-- The bytes of a frame in its slot: tile array or lossless object (R175, R176). -/
def Frame.stored (f : Frame) : List Byte :=
  if f.cfg.lossless then losslessObject f.tiles else f.tiles.flatMap fun r => r.flatMap id

/-- A free handle, or 0 where there is nothing to name. -/
def State.newHandle (s : State) (nothing : Bool) : Nat × State :=
  if nothing then (0, s)
  else
    let (k, s) := s.draw
    ((Config.recordHandle k).toNat, s)

/-- FRAME_TICKET_WRITE (R153, R263): after the last tile row the ticket is written, and the frame stands in its slot. An
older ticket that no job took becomes final here, and so does this one where a later frame of its context has closed or the context is
not active any more (R155). The rest of a lossless object counts in BYTES_OUT now (R184). -/
def execFrameTicketWrite (port : Fin 16) (s : State) : Host.Outcome State Fault Refusal :=
  .next (
    let p := port.val
    match (s.ingest p).closing with
    | [] => s
    | f :: rest =>
      if !s.ingestRuns || decide (f.tiles.length < ceilDiv f.cfg.lines 8) then s
      else
        let (s, late) := s.exposureVerify p f
        let s := if late && !bit f.flags Flag.LATE_BIND then s.count (Sens.FRAMES_LATE_BIND p) else s
        let f := if late then f.flag Flag.LATE_BIND else f
        let (hd, s) := s.newHandle f.regions.isEmpty
        let (he, s) := s.newHandle f.embed.isEmpty
        let f := { f with defectHandle := hd, embedHandle := he, ticketWritten := true, trfBytes := f.stored.length }
        let s := s.addBytes (Trf.BYTES_OUT p) (f.trfBytes - (f.tiles.map fun r => (r.map List.length).sum).sum)
        let s := s.finalUntaken f.cfg.ctx
        let g := s.ingest p
        let s := s.setIngest p { g with closing := rest, slots := tins g.slots (f.number % f.cfg.slots) f }
        let s := s.trace 2 f.cfg.ctx (f.ticketBody.take 24)
        let s := if s.rd (Ctx.CTX_STATE f.cfg.ctx) = 1 ∧ s.nextClosed f = false then s else s.finalFrame p (f.number % f.cfg.slots)
        (s.wrAll [(Trf.LAST_FRAME_BYTES p, f.trfBytes), (Trf.LAST_FRAME_FLAT p, f.flat), (Trf.LAST_FRAME_MAX_STEP p, f.maxStep),
          (Trf.LAST_FRAME_ERROR_BOUND p, f.bound)]).controlValues p f)

/-- INGEST_DEADLINE (R138): the ingest deadline of the open frame is reached. -/
def execIngestDeadline (port : Fin 16) (s : State) : Host.Outcome State Fault Refusal :=
  .next (
    match (s.ingest port.val).frame with
    | none => s
    | some f => (s.at (f.startClock + f.cfg.deadline)).closeFrame port.val 1 0)

/-! ## Commits of groups 0x11 and 0x12 -/

/-- Reads the static defect map and gives the status of R149. -/
def defectMapCheck (geometry : Nat) (bs : List Byte) : Nat :=
  let h := leNat (bs.take 16)
  let n := bits h 31 0
  let lines := bits geometry 31 16
  let samples := bits geometry 15 0
  let es := (List.range n).map fun i => leAt bs (16 + 8 * i) 8
  let outside (e : Nat) : Bool :=
    let x := bits e 15 0
    let y := bits e 31 16
    let c := bits e 47 32
    let k := bits e 63 60
    decide (3 < k) || decide (samples ≤ x) || decide (lines ≤ y) || (k == 0 && c != 1) || (k == 3 && c != 1) || (c == 0) ||
      (k == 1 && decide (lines < y + c)) || (k == 2 && decide (samples < x + c)) ||
      (k == 3 && (x == 0 || y == 0 || decide (samples ≤ x + 1) || decide (lines ≤ y + 1)))
  let key (e : Nat) : Nat := bits e 31 16 * 65536 + bits e 15 0
  if bs.length < 16 ∨ (n ≤ 65536 ∧ bs.length ≠ 16 + 8 * n) then Status.BAD_PARAM
  else if bits h 63 48 ≠ lines ∨ bits h 47 32 ≠ samples then Status.CONFLICT
  else if 65536 < n then Status.RANGE
  else if (es.zip (es.drop 1)).any (fun e => decide (key e.2 < key e.1)) then Status.CONFLICT
  else if es.any outside then Status.RANGE
  else Status.OK

/-- Whether a port is enabled, or a bond it leads. -/
def State.enabled (s : State) (p : Nat) : Bool := s.rd (Port.PORT_ENABLE p) == 1

/-- The largest frame of a port's configuration is above 0xFFFF_FFFF bytes (R177). -/
def State.frameTooBig (s : State) (p : Nat) : Bool :=
  let g := s.rd (Ing.ING_GEOMETRY p)
  decide (0xFFFFFFFF < trfMaxBytes (s.rd (Trf.TRF_MODE p) == 1) (widthBits (s.rd (Ing.ING_WIDTH p))) (s.budgetInForce p) (bits g 31 16) (bits g 15 0))

/-- The checks of a group 0x11 or 0x12 entry beyond range (R134, R136, R148, R149, R158, R173, R177). -/
def ingestCheck (t : Txn) (id : Nat) (v : PVal) : Nat :=
  let p := idInst id
  let w := widthBits (t.cand.rd (Ing.ING_WIDTH p))
  let g := t.cand.rd (Ing.ING_GEOMETRY p)
  let tooBig := t.cand.frameTooBig p
  if t.old.isMember p then Status.CONFLICT
  else if id = Ing.CONTEXT p then
    if v.toNat < 32 then
      firstBad [failIf (!t.old.owns t.r.sess (18 + v.toNat)) Status.NOT_OWNER,
        failIf ((List.range 16).any fun q => q != p && t.cand.enabled q && t.cand.rd (Ing.CONTEXT q) == v.toNat) Status.CONFLICT,
        failIf (t.cand.rd (Trf.TRF_MODE p) == 1 && t.cand.rd (Ctx.CTX_MODE v.toNat) == 1) Status.CONFLICT]
    else Status.OK
  else if id = Ing.ING_GEOMETRY p then
    firstBad [failIf (decide (bits v.toNat 31 16 % 2 ≠ 0 ∨ bits v.toNat 15 0 % 2 ≠ 0 ∨ bits v.toNat 31 16 < 8 ∨ 65534 < bits v.toNat 31 16 ∨
      bits v.toNat 15 0 < 64 ∨ 65534 < bits v.toNat 15 0)) Status.RANGE, failIf tooBig Status.CONFLICT]
  else if id = Ing.ING_WIDTH p ∨ id = Trf.TRF_BUDGET p then failIf tooBig Status.CONFLICT
  else if id = Trf.TRF_MODE p then
    let c := t.cand.rd (Ing.CONTEXT p)
    firstBad [failIf (v.toNat == 1 && decide (c < 32) && t.cand.rd (Ctx.CTX_MODE c) == 1) Status.CONFLICT, failIf tooBig Status.CONFLICT]
  else if id = Ing.ING_DEADLINE p then
    let c := t.cand.rd (Ing.CONTEXT p)
    failIf (decide (t.cand.period * (if c < 32 then t.cand.rd (Ctx.TICK_DIVISOR c) else 1) < v.toNat)) Status.RANGE
  else if id = Ing.PEDESTAL p ∨ (List.range 4).any (fun k => id == Ing.BLACK_LEVEL p k) then failIf (decide (2 ^ w ≤ v.toNat)) Status.RANGE
  else if id = Ing.DEFECT_MAP p then defectMapCheck g (t.old.valBytes v)
  else Status.OK

/-- The effects of a group 0x11 or 0x12 entry that has been written (R149, R178, R518). -/
def ingestApply (t : Txn) (id : Nat) (v : PVal) (s : State) : State :=
  let p := idInst id
  if id = Ing.DEFECT_MAP p then
    let bs := t.old.valBytes v
    ((s.wrBlob id bs).next32 (Ing.DEFECT_MAP_GENERATION p)).wr (Ing.DEFECT_MAP_ENTRIES p) (leAt bs 0 4)
  else if id = Ing.CONTEXT p then
    if t.old.rd (Ing.CONTEXT p) = v.toNat then s
    else
      let s := (s.wr (Ing.CONTEXT p) (t.old.rd (Ing.CONTEXT p))).numberingEnds p
      let s := ([t.old.rd (Ing.CONTEXT p), v.toNat].filter fun c => decide (c < 32)).foldl (fun u c => u.setCtx c { u.ctxSt c with rebound := true }) s
      s.wr (Ing.CONTEXT p) v.toNat
  else if id = Ing.ING_GEOMETRY p ∨ id = Ing.ING_WIDTH p ∨ id = Trf.TRF_MODE p ∨ id = Trf.TRF_BUDGET p ∨ id = Trf.TRF_SLOTS p then
    s.resizeSlots p
  else s

end Sys2Proof.Machine
end

