-- ==== Sys2Proof/Machine/Links.lean ====
section
/-! DEFINITION. Sensor ports and the Carsuos Raw Link: lanes, polarity, identification, bonds, lost lanes, frames and lines on
the link, the pattern generator and the trigger outputs (spec/04). -/

namespace Sys2Proof.Machine

/-! ## Lanes and bonds -/

/-- The key of a lane: 4 × port + lane. -/
def laneKey (port lane : Nat) : Nat := 4 * port + lane

/-- LANE_STATE of a lane (Table 04-6). -/
def State.laneState (s : State) (k : Nat) : Nat := s.rd (Port.LANE_STATE (k / 4) (k % 4))

/-- The leader of the bond a port belongs to (R117). -/
def State.leaderOf (s : State) (p : Nat) : Nat := if s.isMember p then s.rd (Port.BOND_LEADER p) else p

/-- The ports of the bond led by `p` for a BOND_WIDTH (Table 04-8). -/
def bondPorts (p width : Nat) : List Nat := (List.range (if width = 1 then 2 else if width = 2 then 4 else 1)).map (· + p)

/-- The lanes of the port or bond led by `p`: its ports, the lanes in LANE_MASK. -/
def State.bondLanes (s : State) (p : Nat) : List Nat :=
  (bondPorts p (s.rd (Port.BOND_WIDTH p))).flatMap fun q => (setBits 4 (s.rd (Port.LANE_MASK p))).map fun l => laneKey q l

/-- Ports receive in READY and RUN; in FAULT_HOLD the lanes keep their states (R130). -/
def State.linksLive (s : State) : Bool := s.pow.global == .ready || s.pow.global == .run

/-- The block time of a port in tenths of ns (Table 04-1). -/
def State.blockTenths (s : State) (p : Nat) : Nat := [256, 128, 64, 32].getD (s.rd (Port.LANE_RATE p)) 32

/-- A links NOTIFY of a sensor port (R131). -/
def State.linkNotify (s : State) (code port lane value : Nat) : State :=
  s.notify 8 code (leBytes 1 port ++ leBytes 1 lane ++ leBytes 1 value ++ leBytes 1 0)

/-- Changes PORT_STATE, with its NOTIFY. -/
def State.portTo (s : State) (p st : Nat) : State :=
  if s.rd (Port.PORT_STATE p) = st then s else (s.wr (Port.PORT_STATE p) st).linkNotify 1 p 0xFF st

/-- Puts a lane into a state of Table 04-6. -/
def State.laneTo (s : State) (k st : Nat) : State :=
  (s.setLane k { s.lane k with since := s.clock }).wr (Port.LANE_STATE (k / 4) (k % 4)) st

/-- A lane enters ACQUIRE: it is identified no more. On a parallel loopback ACQUIRE completes at once (R125). -/
def State.laneAcquire (s : State) (k : Nat) : State :=
  let x := s.lane k
  let p := s.leaderOf (k / 4)
  let next := if s.rd (Port.LOOPBACK p) = 2 ∧ s.rd (Port.PATTERN p) = 3 then 4 else 3
  let s := s.setLane k { x with evKind := 0, evCount := 0, validRun := 0, badHist := 0, lastAlign := none, held := 0, claim := none,
                                checkFails := 0, marker := none, jumped := false, rejoin := false, pos := 0, ctl := [] }
  (s.laneTo k next).wr (Port.LOGICAL_ID (k / 4) (k % 4)) 0xFF

/-- Lanes of a bond that carry data: UP and not waiting to rejoin (R122, R124). -/
def State.upLanes (s : State) (p : Nat) : List Nat :=
  (s.bondLanes p).filter fun k => s.laneState k == 8 && !(s.lane k).rejoin

/-- The bring-up condition of R119: every lane waits or has failed, one at least waits, and no more are absent than
DEGRADE_LIMIT. A lane still UP counts as one that waits. -/
def State.bondReady (s : State) (p : Nat) : Bool :=
  let ks := s.bondLanes p
  let waiting := ks.filter fun k => s.laneState k == 7 || s.laneState k == 8
  ks.all (fun k => [2, 7, 8, 9].contains (s.laneState k)) && !waiting.isEmpty &&
    decide (ks.length - waiting.length ≤ s.rd (Port.DEGRADE_LIMIT p))

/-- A bond in DOWN goes on to DESKEW once its bring-up condition holds (R117, R119). -/
def State.bondCheck (s : State) (p : Nat) : State :=
  if s.rd (Port.PORT_STATE p) = 1 ∧ s.bondReady p = true then
    let s := (s.bondLanes p).foldl (fun t k => t.setLane k { t.lane k with marker := none }) s
    (s.setPort p { s.port p with deskewSeries := false }).portTo p 2
  else s

/-- A lane fails for good (R112, R113). -/
def State.laneFailed (s : State) (k cause : Nat) : State :=
  ((s.laneTo k 9).linkNotify 3 (k / 4) (k % 4) cause).bondCheck (s.leaderOf (k / 4))

/-- A failed attempt: back to ACQUIRE, or FAILED after RETRY_LIMIT in a row (R112). -/
def State.failAttempt (s : State) (k : Nat) : State :=
  let n := (s.lane k).attempts + 1
  let s := s.count (Port.FAILED_ATTEMPTS (k / 4) (k % 4))
  let s := (s.laneAcquire k).setLane k { (s.laneAcquire k).lane k with attempts := n }
  if s.rd (Port.RETRY_LIMIT (s.leaderOf (k / 4))) ≤ n then s.laneFailed k 0 else s

/-! ## Bring-up and tear-down of a port (R111, R117, R125, R126) -/

/-- A lane forgets everything but whether a signal is present, and since when not (R113). -/
def State.laneClear (s : State) (k : Nat) : State :=
  s.setLane k { noSignal := (s.lane k).noSignal, lowAt := (s.lane k).lowAt }

/-- A lane starts: HEALTH; on a serial loopback ACQUIRE; on a parallel one POLARITY at once; with a PRBS pattern ACQUIRE. -/
def State.laneStart (s : State) (leader k : Nat) : State :=
  let loop := s.rd (Port.LOOPBACK leader)
  let prbs := loop ≠ 0 ∧ s.rd (Port.PATTERN leader) ≠ 3
  let s := (s.laneClear k).wrAll [(Port.LOGICAL_ID (k / 4) (k % 4), 0xFF), (Port.LANE_POLARITY (k / 4) (k % 4), 0)]
  if loop = 0 then s.laneTo k 1
  else if prbs ∨ loop = 1 then s.laneTo k 3
  else (s.wr (Port.EYE_MARGIN (k / 4) (k % 4)) 0).laneTo k 4

/-- A port or bond starts: members report MEMBER, the leader DOWN, and every lane in LANE_MASK starts (R117). -/
def State.portStart (s : State) (p : Nat) : State :=
  let s := ((bondPorts p (s.rd (Port.BOND_WIDTH p))).drop 1).foldl
    (fun t q => (t.portTo q 5).wr (Port.BOND_LEADER q) p) s
  let s := s.setPort p { patEpoch := s.clock, framed := (s.port p).framed }
  (s.bondLanes p).foldl (fun t k => t.laneStart p k) (s.portTo p 1)

/-- A port leaves UP and UP_DEGRADED: the open frame closes, and unwritten changes are past (R123, R138, R265). -/
def State.portLost (s : State) (p : Nat) : State :=
  let s := s.closeFrame p 3 0
  (s.setPort p { s.port p with linkFrame := none, discarding := false }).dropPending p

/-- A port or bond of a BOND_WIDTH stops: every lane and every port of it is DISABLED (R117). -/
def State.portStop (s : State) (p width : Nat) : State :=
  let up := s.rd (Port.PORT_STATE p) = 3 ∨ s.rd (Port.PORT_STATE p) = 4
  let s := if up then s.portLost p else s
  let s := (bondPorts p width).foldl (fun t q =>
    let t := (List.range 4).foldl (fun u l => (u.laneClear (laneKey q l)).wrAll
      [(Port.LANE_STATE q l, 0), (Port.LOGICAL_ID q l, 0xFF)]) t
    if q = p ∨ t.rd (Port.BOND_LEADER q) = p then (t.portTo q 0).wr (Port.BOND_LEADER q) q else t) s
  s.wrAll [(Port.LANE_MAP p, 0), (Port.LOGICAL_VALID p, 0)]

/-- Duiker holds every enabled port in DISABLED with PORT_ENABLE unchanged, and leaving it starts them (R130). -/
def State.linksDuiker (s : State) (enter : Bool) : State :=
  (List.range 16).foldl (fun t p =>
    if t.rd (Port.PORT_ENABLE p) = 1 ∧ t.isMember p = false then (if enter then t.portStop p (t.rd (Port.BOND_WIDTH p)) else t.portStart p) else t) s

/-! ## Line health (R98, R99) -/

/-- Measurements of one lane: both legs in mV, the difference in mV, both rises in mV/µs. -/
def healthClass (pMv nMv diffMv riseP riseN : Int) : Nat :=
  if 1050 < pMv ∨ 1050 < nMv then 4
  else if pMv < 150 ∨ nMv < 150 then 3
  else if diffMv < 20 then 5
  else if 1000 < riseP ∨ 1000 < riseN then 2
  else 1

/-- The result of the line-health test of one lane: ACQUIRE, or LINE_FAULT with its counter and NOTIFY on entry. -/
def State.healthResult (s : State) (k cls : Nat) : State :=
  let st := s.laneState k
  if st = 1 ∨ (st = 2 ∧ (s.lane k).testing = true) then
    let s := (s.setLane k { s.lane k with testing := false }).wr (Port.LINE_HEALTH (k / 4) (k % 4)) cls
    if cls = 1 then s.laneAcquire k
    else if st = 2 then s.laneTo k 2
    else (((s.laneTo k 2).count (Port.LINE_FAULTS (k / 4) (k % 4))).linkNotify 2 (k / 4) (k % 4) cls).bondCheck (s.leaderOf (k / 4))
  else s

/-- LINE_HEALTH_TEST_DONE (R98, R99): the parallel test of the lanes of a port ends. -/
def execLineHealthTestDone (port : Fin 16) (m : List LineMeas) (s : State) : Host.Outcome State Fault Refusal :=
  .next (if s.linksLive then
      m.foldl (fun t x => t.healthResult (laneKey port.val x.lane.val) (healthClass x.pMv x.nMv x.diffMv x.riseP x.riseN)) s
    else s)

/-- HEALTH_RETEST_TIMER (R99): HEALTH_INTERVAL has passed in LINE_FAULT and the test runs again. -/
def execHealthRetestTimer (port : Fin 16) (lane : Fin 4) (s : State) : Host.Outcome State Fault Refusal :=
  .next (
    let k := laneKey port.val lane.val
    if s.linksLive = true ∧ s.laneState k = 2 then
      let s := s.at ((s.lane k).since + s.rd (Port.HEALTH_INTERVAL (s.leaderOf port.val)) * 1000000)
      s.setLane k { s.lane k with testing := true }
    else s)

/-! ## Acquisition (R112, R113, R519) -/

/-- A lane without a signal to acquire: its pins show none, which a loopback ignores; or the generator has stopped it (R113, R125, R127). -/
def State.signalless (s : State) (k : Nat) : Bool :=
  let p := s.leaderOf (k / 4)
  if s.rd (Port.LOOPBACK p) = 0 then (s.lane k).noSignal else (s.port p).patStopped && k == 4 * p

/-- ACQUIRE_ATTEMPT_END (R112): an attempt found block lock or not, and its verification saw `bad` invalid headers; `eye` is
the margin at the setting. -/
def execAcquireAttemptEnd (port : Fin 16) (lane : Fin 4) (lock : Bool) (bad eye : Nat) (s : State) :
    Host.Outcome State Fault Refusal :=
  .next (
    let k := laneKey port.val lane.val
    let p := s.leaderOf port.val
    if s.linksLive = false ∨ s.laneState k ≠ 3 ∨ s.signalless k = true ∨ (s.rd (Port.LOOPBACK p) ≠ 0 ∧ s.rd (Port.PATTERN p) ≠ 3) then s
    else if lock = true ∧ bad = 0 then (s.wr (Port.EYE_MARGIN port.val lane.val) eye).laneTo k 4
    else s.failAttempt k)

/-- NO_SIGNAL_CHANGE (R113, R519): the amplitude of a lane falls below 50 mVppd or rises again. A loopback ignores the pins (R125). -/
def execNoSignalChange (port : Fin 16) (lane : Fin 4) (below : Bool) (s : State) : Host.Outcome State Fault Refusal :=
  .next (
    let k := laneKey port.val lane.val
    let x := s.lane k
    let s := s.setLane k { x with noSignal := below, lowAt := if below && !x.noSignal then s.clock else x.lowAt }
    if s.rd (Port.LOOPBACK (s.leaderOf port.val)) ≠ 0 then s
    else if below = true ∧ s.linksLive = true ∧ [4, 5, 6, 7].contains (s.laneState k) then s.laneAcquire k
    else s)

/-- NO_SIGNAL_TIMEOUT (R113): no signal for 100 ms while another lane of the bond is in IDENTIFY, WAIT_BOND or UP. -/
def execNoSignalTimeout (port : Fin 16) (lane : Fin 4) (s : State) : Host.Outcome State Fault Refusal :=
  .next (
    let k := laneKey port.val lane.val
    let p := s.leaderOf port.val
    let others := (s.bondLanes p).any fun j => j != k && [6, 7, 8].contains (s.laneState j)
    if s.linksLive = true ∧ s.laneState k = 3 ∧ (s.lane k).noSignal = true ∧ s.rd (Port.LOOPBACK p) = 0 ∧ others = true then
      (s.at ((s.lane k).lowAt + 100000000)).laneFailed k 1
    else s)

/-! ## Blocks (R101, R102, R105, R114, R115, R126) -/

/-- Descrambles 64 payload bits with the 58 bits before them, the latest in bit 57: 1 + x^39 + x^58 (R102). -/
def descramble (hist pay : Nat) : Nat × Nat :=
  let full := hist + pay * 2 ^ 58
  ((pay ^^^ (full / 2 ^ 19) % 2 ^ 64) ^^^ full % 2 ^ 64, full / 2 ^ 64)

/-- The complement of 64 bits. -/
def flip64 (v : Nat) : Nat := 2 ^ 64 - 1 - v % 2 ^ 64

/-- One step of CRC-8, polynomial 0x07, over a byte (Table 04-5). -/
def crc8Byte (c b : Nat) : Nat :=
  (List.range 8).foldl (fun v _ => if bit v 7 then ((v * 2) % 256) ^^^ 0x07 else (v * 2) % 256) (c ^^^ b)

/-- CHECK of an ALIGN payload over bytes 0 to 6. -/
def alignCheck (w : Nat) : Nat := (List.range 7).foldl (fun c i => crc8Byte c (bits w (8 * i + 7) (8 * i))) 0

/-- A valid ALIGN payload: type, PATTERN and CHECK. -/
def alignValid (w : Nat) : Bool := bits w 7 0 == 0x4B && bits w 55 32 == 0x96C35A && bits w 63 56 == alignCheck w

/-- A valid IDLE or ALIGN payload, as polarity evidence (R114). -/
def evidencePayload (w : Nat) : Bool := w == 0x1E || alignValid w

/-- The PRBS length and tap of a PATTERN (R126): x^7 + x^6, x^15 + x^14, x^31 + x^28. -/
def prbsTaps (pattern : Nat) : Nat × Nat := [(7, 6), (15, 14), (31, 28)].getD pattern (7, 6)

/-- The next bit of a PRBS after a history whose latest bit is bit 0. -/
def prbsNext (taps : Nat × Nat) (h : Nat) : Bool := bit h (taps.1 - 1) != bit h (taps.2 - 1)

/-- Checks a list of received bits against the generator: the new history and the errors. -/
def prbsCheck (taps : Nat × Nat) : Nat → List Bool → Nat × Nat
  | h, [] => (h, 0)
  | h, b :: r =>
    let e := prbsNext taps h
    let (h', n) := prbsCheck taps ((2 * h + if e then 1 else 0) % 2 ^ 31) r
    (h', n + if b == e then 0 else 1)

/-- The bits of a block in the order they arrive: two header bits, then the payload from bit 0. -/
def blockBits (hdr pay : Nat) : List Bool := [bit hdr 1, bit hdr 0] ++ (List.range 64).map (bit pay)

/-- A block on a lane with a PRBS pattern: the first one seeds the checker (R126). -/
def State.prbsBlock (s : State) (k pattern hdr pay : Nat) : State :=
  let bs := blockBits hdr pay
  match (s.lane k).prbs with
  | none => s.setLane k { s.lane k with prbs := some (bs.foldl (fun h b => (2 * h + if b then 1 else 0) % 2 ^ 31) 0) }
  | some h =>
    let r := prbsCheck (prbsTaps pattern) h bs
    (s.setLane k { s.lane k with prbs := some r.1 }).countBy (Port.PRBS_ERR (k / 4) (k % 4)) r.2

/-- The polarity of a lane is decided: 0 normal, 1 inverted and corrected; on to BLOCK_LOCK (R114). -/
def State.decidePolarity (s : State) (k pol : Nat) : State :=
  let x := s.lane k
  let x := { x with validRun := 0, badHist := 0, scram := if pol = 1 then 2 ^ 58 - 1 - x.scram else x.scram }
  ((s.setLane k x).wr (Port.LANE_POLARITY (k / 4) (k % 4)) pol).laneTo k 5

/-- A block in POLARITY: the forced polarity, or evidence gathered to four pieces in a row (R114). -/
def State.polarityBlock (s : State) (k hdr pay : Nat) : State :=
  let force := s.rd (Port.POLARITY_FORCE (k / 4) (k % 4))
  if force ≠ 0 then s.decidePolarity k (force - 1)
  else
    let kind := if hdr = 2 ∧ evidencePayload pay = true then 1 else if hdr = 1 ∧ evidencePayload (flip64 pay) = true then 2 else 0
    if kind = 0 then s
    else
      let x := s.lane k
      let n := if x.evKind = kind then x.evCount + 1 else 1
      if 4 ≤ n then s.decidePolarity k (kind - 1) else s.setLane k { x with evKind := kind, evCount := n }

/-- The lowest-numbered logical lane of a bond that is UP. -/
def State.lowestUp (s : State) (p : Nat) : Option Nat :=
  let id (k : Nat) : Nat := s.rd (Port.LOGICAL_ID (k / 4) (k % 4))
  (s.upLanes p).foldl (fun best k => match best with
    | some b => if id k < id b then some k else some b
    | none => some k) none

/-- Control blocks of a lane that are remembered: more than lanes in deskew range can lie apart. -/
def ctlDepth : Nat := 8

/-- A control block other than ALIGN on an UP lane: the port takes that of the lowest-numbered logical lane, and a position at which another
lane carries a different one counts once (R105). A position is a MARKER_COUNT and the blocks since that ALIGN. -/
def State.controlBlock (s : State) (k pay : Nat) : State :=
  let p := s.leaderOf (k / 4)
  let x := s.lane k
  match x.marker with
  | none => s
  | some (m, _) =>
    let at' := (m, x.pos)
    let s := s.setLane k { x with ctl := ((m, x.pos, pay) :: x.ctl).take ctlDepth }
    let differs (j : Nat) : Bool := (s.lane j).ctl.any fun c => (c.1, c.2.1) == at' && c.2.2 != pay
    let clash := match s.lowestUp p with
      | some j => if j = k then (s.upLanes p).any differs else differs j
      | none => false
    if clash = true ∧ !(s.port p).mismatchAt.contains at' then
      (s.setPort p { s.port p with mismatchAt := (at' :: (s.port p).mismatchAt).take ctlDepth }).count (Port.CTRL_MISMATCH p)
    else s

/-! ## The pattern generator's lanes (R125, R127) -/

/-- Whether the pattern generator feeds a port (R125, R127). -/
def State.generated (s : State) (p : Nat) : Bool := s.rd (Port.LOOPBACK p) != 0 && s.rd (Port.PATTERN p) == 3

/-- The block that the generator brings to a lane between frames: an IDLE, complemented where fault 0 inverts the lane and its receiver does
not (Table 04-9). -/
def State.patBlock (s : State) (k : Nat) (corrected : Bool) : Nat × Nat :=
  let inverted := bit (s.rd (Port.PATGEN_FAULTS (s.leaderOf (k / 4)))) 0 && k % 4 == 1
  if inverted == corrected then (2, 0x1E) else (1, flip64 0x1E)

/-- The ALIGN block number `i` that the generator sends on a lane, and its arrival in UI: fault 1 rotates the LANE_ID, faults 3 and 4 delay
physical lane 0 by 1 and 5 block times (R104, R127, Tables 04-5 and 04-9). -/
def State.patAlign (s : State) (k i : Nat) : Nat × Nat :=
  let p := s.leaderOf (k / 4)
  let faults := s.rd (Port.PATGEN_FAULTS p)
  let ks := s.bondLanes p
  let n := max 1 ks.length
  let id := (ks.idxOf k + if bit faults 1 then 1 else 0) % n
  let w := 0x4B + 2 ^ 8 * id + 2 ^ 12 * s.rd (Port.BOND_WIDTH p) + 2 ^ 16 * (s.rd (Port.SENSOR_TAG_EXPECT p) % 256) + 2 ^ 24 * (i % 256) + 2 ^ 32 * 0x96C35A
  let delay := if k = 4 * p then (if bit faults 3 then 1 else 0) + (if bit faults 4 then 5 else 0) else 0
  (w + 2 ^ 56 * alignCheck w, (16384 * i + delay) * 66)

/-- CRL_BLOCK_RX (R101, R102, R114, R115): a block with its header (the first bit in bit 1) and its payload as received. On a port fed by the
pattern generator the block is the generator's. -/
def execCrlBlockRx (port : Fin 16) (lane : Fin 4) (hdr : Fin 4) (payload : BitVec 64) (s : State) :
    Host.Outcome State Fault Refusal :=
  .next (
    let k := laneKey port.val lane.val
    let p := s.leaderOf port.val
    let st := s.laneState k
    if s.linksLive = false ∨ st = 0 then s
    else if s.rd (Port.LOOPBACK p) ≠ 0 ∧ s.rd (Port.PATTERN p) ≠ 3 then s.prbsBlock k (s.rd (Port.PATTERN p)) hdr.val payload.toNat
    else if st < 4 ∨ st = 9 then s
    else
      let inv := decide (st ≠ 4) && s.rd (Port.LANE_POLARITY port.val lane.val) == 1
      let pat := s.generated p
      if pat && (s.port p).patStopped && k == 4 * p then s
      else
      let h := if pat then (s.patBlock k inv).1 else if inv then 3 - hdr.val else hdr.val
      let raw := if inv then flip64 payload.toNat else payload.toNat
      let (got, hist) := descramble (s.lane k).scram raw
      let pay := if pat then (s.patBlock k inv).2 else got
      let valid := h == 1 || h == 2
      let s := s.setLane k { s.lane k with scram := hist }
      if st = 4 then s.polarityBlock k h pay
      else
        let x := s.lane k
        let bad := (x.badHist * 2 + if valid then 0 else 1) % 2 ^ 64
        let x := { x with badHist := bad, validRun := if valid then x.validRun + 1 else 0, pos := x.pos + 1 }
        let s := s.setLane k x
        if st = 5 then (if 16 ≤ popcount 64 bad then s.failAttempt k else s)
        else
          let s := if valid then s else s.count (Port.HEADER_ERR port.val lane.val)
          if st = 8 ∧ h = 2 ∧ bits pay 7 0 ≠ 0x4B then s.controlBlock k pay else s)

/-- POLARITY_TIMEOUT (R114): 65,536 block times without a decision; a forced polarity is a decision. -/
def execPolarityTimeout (port : Fin 16) (lane : Fin 4) (s : State) : Host.Outcome State Fault Refusal :=
  .next (
    let k := laneKey port.val lane.val
    if s.linksLive = true ∧ s.laneState k = 4 then
      let force := s.rd (Port.POLARITY_FORCE port.val lane.val)
      if force ≠ 0 then s.decidePolarity k (force - 1)
      else (s.at ((s.lane k).since + 65536 * s.blockTenths (s.leaderOf port.val) / 10)).failAttempt k
    else s)

/-- BLOCK_LOCK_ACHIEVED (Table 04-6): 64 consecutive valid headers. -/
def execBlockLockAchieved (port : Fin 16) (lane : Fin 4) (s : State) : Host.Outcome State Fault Refusal :=
  .next (
    let k := laneKey port.val lane.val
    if s.linksLive = true ∧ s.laneState k = 5 then
      (s.setLane k { s.lane k with badHist := 0, lastAlign := none, held := 0, claim := none }).laneTo k 6
    else s)

/-! ## Lost lanes (R121 to R124) -/

/-- One UP lane is lost: ACQUIRE with no attempt counted, its logical lane absent, NOTIFY and event source 203. -/
def State.loseLane (s : State) (p k : Nat) : State :=
  let logical := s.rd (Port.LOGICAL_ID (k / 4) (k % 4))
  let s := s.laneAcquire k
  let s := s.setLane k { s.lane k with attempts := 0 }
  let s := s.upd (Port.LOGICAL_VALID p) (fun v => clearFlag v logical)
  (s.linkNotify 5 (k / 4) (k % 4) logical).fire 203

/-- The ticket of the open frame carries flags of a lane loss, and every logical lane missing (R122, Table 05-5). -/
def Frame.laneLoss (f : Frame) (mask : Nat) : Frame :=
  { (f.flag Flag.LANE_LOST).flag Flag.DEGRADED with lanesMissing := f.lanesMissing ||| mask }

/-- The logical lanes of a bond that are missing, as bits. -/
def State.missingMask (s : State) (p : Nat) : Nat :=
  maskOf ((List.range (s.laneCount p)).filter fun k => !bit (s.rd (Port.LOGICAL_VALID p)) k)

/-- A bond in DESKEW from which more lanes are missing than DEGRADE_LIMIT allows goes DOWN (R123; DEDUCED for lanes not yet UP). -/
def State.deskewCheck (s : State) (p : Nat) : State :=
  let ks := s.bondLanes p
  let have' := ks.filter fun k => s.laneState k == 7 || s.laneState k == 8
  if s.rd (Port.PORT_STATE p) = 2 ∧ s.rd (Port.DEGRADE_LIMIT p) < ks.length - have'.length then s.portTo p 1 else s

/-- UP lanes of one bond are lost in one block time: on within DEGRADE_LIMIT, else DOWN (R122, R123). -/
def State.loseLanes (s : State) (p : Nat) (ks : List Nat) : State :=
  let st := s.rd (Port.PORT_STATE p)
  let s := ks.foldl (fun t k => t.loseLane p k) s
  if st ≠ 3 ∧ st ≠ 4 then (s.deskewCheck p).bondCheck p
  else
    let missing := (s.bondLanes p).length - (s.upLanes p).length
    let inFrame := (s.port p).linkFrame.isSome
    let first := inFrame && !(s.port p).frameLost
    let s := if first then s.count (Port.FRAMES_LANE_LOST p) else s
    let s := s.setPort p { s.port p with frameLost := (s.port p).frameLost || inFrame }
    if missing ≤ s.rd (Port.DEGRADE_LIMIT p) then
      let s := if st = 3 ∧ inFrame = true then s.count (Port.FRAMES_DEGRADED p) else s
      let s := if inFrame then s.withFrame p (fun f => f.laneLoss (s.missingMask p)) else s
      s.portTo p 4
    else
      let s := if inFrame then s.withFrame p (fun f => { f with lanesMissing := f.lanesMissing ||| s.missingMask p }) else s
      ((s.portLost p).portTo p 1).bondCheck p

/-- Lanes stop being usable: UP lanes are lost bond by bond, lanes on their way up fail an attempt. -/
def State.dropLanes (s : State) (ks : List Nat) : State :=
  let early := ks.filter fun k => [4, 5, 6, 7].contains (s.laneState k)
  let up := ks.filter fun k => s.laneState k == 8
  let s := early.foldl (fun t k => t.failAttempt k) s
  ((up.map fun k => s.leaderOf (k / 4)).eraseDups).foldl (fun t p => t.loseLanes p (up.filter fun k => t.leaderOf (k / 4) == p)) s

/-- BLOCK_LOCK_LOSS (R115): lanes that see 16 invalid headers within 64 blocks, in one block time. -/
def execBlockLockLoss (lanes : List (Fin 64)) (s : State) : Host.Outcome State Fault Refusal :=
  .next (
    let ks := (lanes.map Fin.val).filter fun k => [6, 7, 8].contains (s.laneState k)
    if s.linksLive then (ks.foldl (fun t k => t.count (Port.BLOCK_LOCK_LOSS (k / 4) (k % 4))) s).dropLanes ks else s)

/-- CDR_LOCK_LOSS (R121, R519): the CDR of lanes loses lock in one block time. On a parallel loopback no CDR runs (R125). -/
def execCdrLockLoss (lanes : List (Fin 64)) (s : State) : Host.Outcome State Fault Refusal :=
  .next (
    let ks := (lanes.map Fin.val).filter fun k => s.rd (Port.LOOPBACK (s.leaderOf (k / 4))) != 2
    if s.linksLive then s.dropLanes ks else s)

/-! ## ALIGN blocks (R116, R118, R121, R124) -/

/-- A lane becomes held in IDENTIFY: ID_ERR and a NOTIFY each time (R116). -/
def State.holdLane (s : State) (k reason claim : Nat) : State :=
  let x := s.lane k
  let s := s.setLane k { x with held := reason, claim := some claim }
  if x.held = 0 then (s.count (Port.ID_ERR (s.leaderOf (k / 4)))).linkNotify 4 (k / 4) (k % 4) reason else s

/-- What keeps a pair of ALIGN blocks from identifying a lane by itself (R116): 1 BOND_CODE, 2 LANE_ID range, 4 SENSOR_TAG. -/
def State.alignReason (s : State) (p w : Nat) : Nat :=
  let expect := s.rd (Port.SENSOR_TAG_EXPECT p)
  if bits w 13 12 ≠ s.rd (Port.BOND_WIDTH p) then 1
  else if s.laneCount p ≤ bits w 11 8 then 2
  else if bit expect 8 = false ∧ bits w 23 16 ≠ bits expect 7 0 then 4
  else 0

/-- A good pair of ALIGN blocks on a lane in IDENTIFY: identified, or held, and with it any lane not UP that claims the same LANE_ID
(R116). -/
def State.alignPair (s : State) (k w : Nat) : State :=
  let p := s.leaderOf (k / 4)
  let id := bits w 11 8
  let reason := s.alignReason p w
  let rivals := (s.bondLanes p).filter fun j => j != k && [6, 7, 8].contains (s.laneState j) && (s.lane j).claim == some id
  if reason ≠ 0 ∨ rivals ≠ [] then
    let s := s.holdLane k (if reason ≠ 0 then reason else 3) id
    rivals.foldl (fun t j =>
      if t.laneState j = 8 then t
      else
        let t := if t.laneState j = 7 then (t.laneTo j 6).wr (Port.LOGICAL_ID (j / 4) (j % 4)) 0xFF else t
        t.holdLane j 3 id) s
  else
    let s := s.setLane k { s.lane k with held := 0, claim := some id, marker := none, ctl := [] }
    ((s.wr (Port.LOGICAL_ID (k / 4) (k % 4)) id).laneTo k 7).bondCheck p

/-- An ALIGN block on a lane in IDENTIFY: with the one 16,384 positions before, a pair; positions are counted in UI of 66 to a
block (R116). -/
def State.identifyAlign (s : State) (k w ui : Nat) : State :=
  if alignValid w = false then s
  else
    let x := s.lane k
    let s := s.setLane k { x with lastAlign := some (w, ui), since := s.clock, pos := 0 }
    match x.lastAlign with
    | some (w0, ui0) =>
      if ui = ui0 + 16384 * 66 ∧ bits w0 23 8 = bits w 23 8 ∧ bits w 31 24 = (bits w0 31 24 + 1) % 256 then s.alignPair k w else s
    | none => s

/-- LANE_MAP with a logical lane carried by a physical lane of the bond (R119). -/
def mapLane (m logical phys : Nat) : Nat := withBits m (4 * logical + 3) (4 * logical) phys

/-- The largest spread that deskews, in UI: 4 block times (R118). -/
def deskewLimit : Nat := 264

/-- The spread of arrivals. -/
def spreadOf (as : List Nat) : Nat := as.foldl max 0 - as.foldl min (as.getD 0 0)

/-- DESKEW_FAIL: counted, with a NOTIFY on the first of a series; the lanes wait for their next ALIGN (R118, R124). -/
def State.deskewFail (s : State) (p spread : Nat) (ks : List Nat) : State :=
  let s := s.count (Port.DESKEW_FAIL p)
  let s := if (s.port p).deskewSeries then s else s.linkNotify 6 p 0xFF (min 255 (spread / 66))
  let s := s.setPort p { s.port p with deskewSeries := true }
  ks.foldl (fun t k => t.setLane k { t.lane k with marker := none }) s

/-- The arrivals of lanes that all hold the same MARKER_COUNT; none otherwise. -/
def State.sameMarker (s : State) (ks : List Nat) : Option (List Nat) :=
  let ms := ks.map fun k => (s.lane k).marker
  match ms with
  | some (m, _) :: _ =>
    if ms.all (fun x => match x with | some (n, _) => n == m | none => false) then
      some (ms.filterMap fun x => x.map Prod.snd)
    else none
  | _ => none

/-- Lanes carry data: UP, mapped and valid (R118, R119). -/
def State.joinLanes (s : State) (p : Nat) (ks : List Nat) : State :=
  ks.foldl (fun t k =>
    let id := t.rd (Port.LOGICAL_ID (k / 4) (k % 4))
    let t := if t.laneState k = 8 then t else t.laneTo k 8
    let t := t.setLane k { t.lane k with attempts := 0, rejoin := false, checkFails := 0, jumped := false }
    (t.upd (Port.LANE_MAP p) (fun v => mapLane v id (k - 4 * p))).upd (Port.LOGICAL_VALID p) (fun v => setFlag v id)) s

/-- A bond in DESKEW tries at a MARKER_COUNT common to every participating lane (R118). -/
def State.tryDeskew (s : State) (p : Nat) : State :=
  let ks := (s.bondLanes p).filter fun k => s.laneState k == 7 || s.laneState k == 8
  match s.sameMarker ks with
  | none => s
  | some as =>
    if (s.deskewCheck p).rd (Port.PORT_STATE p) ≠ 2 then s.deskewCheck p
    else if spreadOf as ≤ deskewLimit then
      let s := s.wrAll [(Port.LANE_MAP p, 0), (Port.LOGICAL_VALID p, 0), (Port.DESKEW_SPREAD p, spreadOf as)]
      let s := s.joinLanes p ks
      let s := s.setPort p { s.port p with deskewSeries := false, linkFrame := none, discarding := false, fresh := true, mismatchAt := [] }
      s.portTo p (if ks.length = (s.bondLanes p).length then 3 else 4)
    else s.deskewFail p (spreadOf as) ks

/-- A lost lane in WAIT_BOND is deskewed against the UP lanes at a common MARKER_COUNT; it waits for the next FRAME_START
(R124). -/
def State.tryRejoin (s : State) (p : Nat) : State :=
  let ups := s.upLanes p
  ((s.bondLanes p).filter fun k => s.laneState k == 7).foldl (fun t k =>
    match t.sameMarker (ups ++ [k]) with
    | none => t
    | some as =>
      if spreadOf as ≤ deskewLimit then
        let t := t.setPort p { t.port p with deskewSeries := false }
        (t.laneTo k 8).setLane k { (t.laneTo k 8).lane k with rejoin := true, attempts := 0, checkFails := 0 }
      else t.deskewFail p (spreadOf as) [k]) s

/-- The checks of an ALIGN position on an UP lane: no ALIGN (by its TYPE, or a good CHECK over another PATTERN), two CHECK failures in a row, or
a MARKER_COUNT that leaves the other lanes at the same position lose it (R121). -/
def State.upAlign (s : State) (k : Nat) (w : Option Nat) (ui : Nat) : State :=
  let p := s.leaderOf (k / 4)
  let x := s.lane k
  match w with
  | none => s.loseLanes p [k]
  | some v =>
    if bits v 7 0 ≠ 0x4B ∨ (bits v 55 32 ≠ 0x96C35A ∧ bits v 63 56 = alignCheck v) then s.loseLanes p [k]
    else if bits v 63 56 ≠ alignCheck v then
      let s := s.count (Port.ALIGN_ERR (k / 4) (k % 4))
      let expect := x.marker.map fun m => ((m.1 + 1) % 256, ui)
      if x.checkFails = 1 then s.loseLanes p [k]
      else s.setLane k { x with checkFails := 1, marker := expect, jumped := false, pos := 0 }
    else
      let m := bits v 31 24
      let jumped := match x.marker with | some (n, _) => m != (n + 1) % 256 | none => false
      let s := s.setLane k { x with checkFails := 0, marker := some (m, ui), jumped := jumped, pos := 0 }
      let here := (s.upLanes p).filter fun j => match (s.lane j).marker with
        | some (_, u) => decide (u < ui + 8192 * 66 ∧ ui < u + 8192 * 66)
        | none => false
      let differ := here.any fun j => match (s.lane j).marker with | some (n, _) => n != m | none => false
      let lost := here.filter fun j => (s.lane j).jumped
      if differ = true ∧ lost ≠ [] then s.loseLanes p lost else s

/-- CRL_ALIGN_RX (R116, R118, R121, R124): what stands at an ALIGN position of a lane, and its arrival in UI. On a port fed by the pattern
generator it is the generator's next ALIGN, and none on a lane it has stopped; a lane whose polarity is wrong receives no valid one (R114). -/
def execCrlAlignRx (port : Fin 16) (lane : Fin 4) (align : Option (BitVec 64)) (ui : Nat) (s : State) :
    Host.Outcome State Fault Refusal :=
  .next (
    let k := laneKey port.val lane.val
    let p := s.leaderOf port.val
    let pat := s.generated p
    let stopped := (s.port p).patStopped && k == 4 * p
    let own := s.patAlign k (s.lane k).patAligns
    let right := (s.patBlock k (s.rd (Port.LANE_POLARITY port.val lane.val) == 1)).1 == 2
    let w := if pat then (if stopped then none else some (if right then own.1 else flip64 own.1)) else align.map BitVec.toNat
    let ui := if pat then own.2 else ui
    let st := s.laneState k
    let s := if pat then s.setLane k { s.lane k with patAligns := (s.lane k).patAligns + 1 } else s
    if s.linksLive = false then s
    else if st = 6 then (match w with | some v => s.identifyAlign k v ui | none => s)
    else if st = 7 ∨ st = 8 then
      let s := if st = 8 then s.upAlign k w ui
        else match w with
          | some v => if alignValid v then s.setLane k { s.lane k with marker := some (bits v 31 24, ui), pos := 0 } else s
          | none => s
      if s.rd (Port.PORT_STATE p) = 2 then s.tryDeskew p
      else if s.rd (Port.PORT_STATE p) = 4 then s.tryRejoin p
      else s
    else s)

/-- IDENTIFY_TIMEOUT (Table 04-6): no valid ALIGN for 49,152 block times. -/
def execIdentifyTimeout (port : Fin 16) (lane : Fin 4) (s : State) : Host.Outcome State Fault Refusal :=
  .next (
    let k := laneKey port.val lane.val
    if s.linksLive = true ∧ s.laneState k = 6 then
      (s.at ((s.lane k).since + 49152 * s.blockTenths (s.leaderOf port.val) / 10)).failAttempt k
    else s)

/-! ## Frames and lines on the link (R105 to R110) -/

/-- A port that delivers data (R118, R130). -/
def State.delivers (s : State) (p : Nat) : Bool :=
  s.linksLive && (s.rd (Port.PORT_STATE p) == 3 || s.rd (Port.PORT_STATE p) == 4)

/-- A FRAME_START at a port or bond leader: rejoined lanes carry data again, and the frame is passed to ingest; one that
cannot be delivered counts (R118, R122 to R124). -/
def State.frameStart (s : State) (p frameCount : Nat) : State :=
  if s.delivers p then
    let back := (s.bondLanes p).filter fun k => s.laneState k == 8 && (s.lane k).rejoin
    let s := s.joinLanes p back
    let s := if s.rd (Port.PORT_STATE p) = 4 ∧ (s.upLanes p).length = (s.bondLanes p).length then s.portTo p 3 else s
    let degraded := s.rd (Port.PORT_STATE p) == 4
    let s := s.count (Port.FRAMES_RX p)
    let s := if degraded then s.count (Port.FRAMES_DEGRADED p) else s
    let s := s.setPort p { s.port p with linkFrame := some frameCount, frameLost := false, lastLine := [], fresh := false }
    let s := s.openFrame p frameCount degraded
    if degraded then s.withFrame p (fun f => { f with lanesMissing := s.missingMask p }) else s
  else if s.linksLive = true ∧ (s.rd (Port.PORT_STATE p) = 1 ∨ s.rd (Port.PORT_STATE p) = 2) ∧
      (s.bondLanes p).any (fun k => s.laneState k == 8) = true then s.count (Port.FRAMES_DROPPED_LINK p)
  else s

/-- A FRAME_END: PROTO_ERR where its FRAME_COUNT differs, and the open frame closes with cause 0 (R110, R138). -/
def State.frameEnd (s : State) (p frameCount linesSent : Nat) : State :=
  if s.delivers p && !(s.port p).fresh then
    let differs := match (s.port p).linkFrame with | some c => c != frameCount | none => false
    let s := if differs then s.count (Port.PROTO_ERR p) else s
    let s := s.closeFrame p 0 linesSent
    s.setPort p { s.port p with linkFrame := none, discarding := false }
  else s

/-- The samples of a line payload: `n` samples of `w` bits, least significant bit first (R107). -/
def unpackSamples (w n : Nat) (bytes : List Byte) : List Nat :=
  let bs := unpackBits bytes
  (List.range n).map fun i => bitsNat ((bs.drop (w * i)).take w)

/-- Whether sample `i` of width `w` lies wholly or partly in a data block carried by a missing logical lane (R107, R122). -/
def sampleMissing (w lanes : Nat) (missing : List Nat) (i : Nat) : Bool :=
  let lo := w * i / 64
  let hi := (w * i + w - 1) / 64
  (List.range (hi + 1 - lo)).any fun d => missing.contains ((lo + d) % lanes)

/-- The bytes of `n` samples of `w` bits. -/
def lineBytes (w n : Nat) : Nat := ceilDiv (w * n) 8

/-- The sample width an active line must have: that of the open frame (R135), or the one configured. -/
def State.lineWidth (s : State) (p : Nat) : Nat :=
  match (s.ingest p).frame with
  | some f => f.cfg.width
  | none => widthBits (s.rd (Ing.ING_WIDTH p))

/-- One line between LINE_START and LINE_END is passed to ingest (R107 to R110). One of another WIDTH_CODE is discarded; its CRC is checked
like any other. -/
def State.linkLine (s : State) (p number endNumber width len : Nat) (payload : List Byte) (crc : Nat) : State :=
  if s.delivers p && !(s.port p).fresh then
    let x := s.port p
    let gap := match tfind x.lastLine 0 with | some k => number != k + 1 | none => false
    let s := if gap then s.count (Port.LINE_SEQ_ERR p) else s
    let s := if endNumber = number then s else s.count (Port.LINE_SEQ_ERR p)
    let s := s.setPort p { s.port p with lastLine := tins x.lastLine 0 number }
    let w := widthBits width
    let n := s.laneCount p
    let missing := (List.range n).filter fun k => !bit (s.rd (Port.LOGICAL_VALID p)) k
    let bytes := payload.take (lineBytes w len)
    let bad := missing.isEmpty && crc32 bytes != crc
    let s := if bad then s.count (Port.LINE_CRC_ERR p) else s
    if width = 0 ∨ w ≠ s.lineWidth p then s.count (Port.LINE_SEQ_ERR p)
    else
      let s := s.addBytes (Port.BYTES_RX p) (lineBytes w len)
      let raw := unpackSamples w len bytes
      let samples := (List.range len).map fun i => if sampleMissing w n missing i then none else raw[i]?
      s.ingestLine p { number := number, len := len, samples := samples, crcErr := bad, missing := missing, lanes := n }
  else s

/-- The samples of a line packed into bytes (R107). -/
def packSamples (w : Nat) (vs : List Nat) : List Byte :=
  let f : Fields := vs.map fun v => (v, w)
  packBits f.stream (lineBytes w vs.length)

/-- Line `j` of the pattern generator: sample i is (i + j) mod 2^w (R127). -/
def patgenLine (w n j : Nat) : List Byte := packSamples w ((List.range n).map fun i => (i + j) % 2 ^ w)

/-! ### The generator's frames (R127) -/

/-- A block position that is none of an ALIGN, by its number among such positions, and back (R104). -/
def plainPos (n : Nat) : Nat := n / 16383 * 16384 + 1 + n % 16383
def plainNum (pos : Nat) : Nat := pos / 16384 * 16383 + pos % 16384 - 1

/-- Block positions of a line of the generator on a lane, ALIGN blocks apart: two IDLE, LINE_START, its data blocks, LINE_END (R106, R107). -/
def State.patLineBlocks (s : State) (p : Nat) : Nat :=
  4 + ceilDiv (lineBytes (widthBits (s.rd (Port.PATGEN_WIDTH p))) (bits (s.rd (Port.PATGEN_GEOMETRY p)) 15 0)) (8 * max 1 (s.bondLanes p).length)

/-- The device clock of a block position of the generator. -/
def State.patTime (s : State) (p pos : Nat) : Nat := (s.port p).patEpoch + pos * s.blockTenths p / 10

/-- The position of plain block `i` of the running frame, whose FRAME_START is plain block 0; ALIGN blocks lengthen the frame. -/
def State.patPlace (s : State) (p i : Nat) : Nat := plainPos (plainNum (s.port p).patStart + i)

/-- Fault 5 (Table 04-9): physical lane 0 stops after active line 100, and an UP lane that stops is lost. -/
def State.patStop (s : State) (p : Nat) : State :=
  let s := s.setPort p { s.port p with patStopped := true }
  if s.laneState (4 * p) = 8 then s.loseLanes p [4 * p] else s

/-- The next line of the running frame: sample i of line j is (i + j) mod 2^w; fault 2 corrupts LINE_CRC of line 0 (R127, Table 04-9). -/
def State.patLineRx (s : State) (p : Nat) : State :=
  let x := s.port p
  let g := s.rd (Port.PATGEN_GEOMETRY p)
  let code := s.rd (Port.PATGEN_WIDTH p)
  let faults := s.rd (Port.PATGEN_FAULTS p)
  if x.patRunning = true ∧ x.patLine < bits g 31 16 then
    let s := s.at (s.patTime p (s.patPlace p ((x.patLine + 1) * s.patLineBlocks p)))
    let bytes := patgenLine (widthBits code) (bits g 15 0) x.patLine
    let sum := crc32 bytes
    let sum := if x.patLine = 0 ∧ bit faults 2 = true then 0xFFFFFFFF - sum else sum
    let s := (s.setPort p { x with patLine := x.patLine + 1 }).linkLine p x.patLine x.patLine code (bits g 15 0) bytes sum
    if x.patLine = 100 ∧ bit faults 5 = true then s.patStop p else s
  else s

/-- The running frame ends: its FRAME_END position is the end of the frame, and physical lane 0 starts again. -/
def State.patFrameEnd (s : State) (p : Nat) : State :=
  let x := s.port p
  if x.patRunning then
    let lines := bits (s.rd (Port.PATGEN_GEOMETRY p)) 31 16
    let last := s.patPlace p (1 + lines * s.patLineBlocks p)
    let s := (s.at (s.patTime p last)).frameEnd p ((x.patFrame + 2 ^ 32 - 1) % 2 ^ 32) lines
    s.setPort p { s.port p with patRunning := false, patNext := last + 1, patStopped := false }
  else s

/-- CRL_FRAME_END_RX (R110, R138). On a port fed by the pattern generator the marker is the generator's. -/
def execCrlFrameEndRx (port : Fin 16) (frameCount linesSent : Nat) (s : State) : Host.Outcome State Fault Refusal :=
  .next (if s.generated port.val then s.patFrameEnd port.val else s.frameEnd port.val frameCount linesSent)

/-- CRL_LINE_RX (R107 to R110, R142): an active line. On a port fed by the pattern generator the line is the generator's. -/
def execCrlLineRx (port : Fin 16) (number endNumber width len : Nat) (payload : List Byte) (crc : Nat) (s : State) :
    Host.Outcome State Fault Refusal :=
  .next (if s.generated port.val then s.patLineRx port.val else s.linkLine port.val number endNumber width len payload crc)

/-- EMBEDDED_LINE_RX (R109, R110, R147): an embedded line of LINE_TYPE `type`. -/
def execEmbeddedLineRx (port : Fin 16) (type : Fin 2) (number endNumber : Nat) (payload : List Byte) (crc : Nat) (s : State) :
    Host.Outcome State Fault Refusal :=
  .next (
    let p := port.val
    if s.delivers p = true ∧ s.generated p = false ∧ (s.port p).fresh = false then
      let x := s.port p
      let gap := match tfind x.lastLine (type.val + 1) with | some k => number != k + 1 | none => false
      let s := if gap then s.count (Port.LINE_SEQ_ERR p) else s
      let s := if endNumber = number then s else s.count (Port.LINE_SEQ_ERR p)
      let s := s.setPort p { s.port p with lastLine := tins x.lastLine (type.val + 1) number }
      let bad := s.missingMask p == 0 && crc32 payload != crc
      let s := if bad then s.count (Port.LINE_CRC_ERR p) else s
      let s := s.addBytes (Port.BYTES_RX p) payload.length
      s.ingestEmbedded p (type.val + 1) number bad payload
    else s)

/-- CRL_UNKNOWN_CONTROL (R103): a control block of no type of Table 04-3 is ignored and counted. -/
def execCrlUnknownControl (port : Fin 16) (s : State) : Host.Outcome State Fault Refusal :=
  .next (if s.delivers port.val then s.count (Port.PROTO_ERR port.val) else s)

/-- CRL_DATA_OUTSIDE_LINE (R110): a data block outside a line is discarded and counted. -/
def execCrlDataOutsideLine (port : Fin 16) (s : State) : Host.Outcome State Fault Refusal :=
  .next (if s.delivers port.val then s.count (Port.PROTO_ERR port.val) else s)

/-! ## Trigger outputs (R128, R129) -/

/-- The trigger outputs run from READY onward (R130). -/
def State.triggersRun (s : State) : Bool := s.pow.global == .ready || s.pow.global == .run || s.pow.global == .faultHold

/-- An odd number of ns acts as the next even number (R128). -/
def evenNs (n : Nat) : Nat := n + n % 2

/-- The active level of a trigger output. -/
def State.trigActive (s : State) (n : Nat) : Nat := if s.rd (Port.XTRIG_POLARITY n) = 1 then 0 else 1

/-- Drives a trigger output to its active or inactive level. Until the first commit of XTRIG_POLARITY it stays low (R129). -/
def State.trigPin (s : State) (n : Nat) (active : Bool) : State :=
  if (s.trig n).polarised then s.pin ("XTRIG" ++ toString n) (if active then s.trigActive n else 1 - s.trigActive n) else s

/-- A tick edge at one trigger output: a pulse not started by now is skipped, the divisor counter advances or is loaded, and
at 0 a pulse is due XTRIG_OFFSET after the edge. -/
def State.trigTick (s : State) (n : Nat) : State :=
  if s.rd (Port.XTRIG_ENABLE n) = 1 ∧ s.triggersRun = true then
    let x := s.trig n
    let s := if x.startAt.isSome then s.count (Port.XTRIG_SKIPPED n) else s
    let div := max 1 (s.rd (Port.XTRIG_DIVISOR n))
    let c := if x.load then s.rd (Port.XTRIG_PHASE n) else (x.count + 1) % div
    s.setTrig n { x with count := c, load := false, startAt := if c = 0 then some (s.clock + evenNs (s.rd (Port.XTRIG_OFFSET n))) else none }
  else s

/-- A pulse of a trigger output starts, or prolongs the one it overlaps (R128, R451): XTRIG_COUNT, and event source 16 + n where
the output was not asserted. -/
def State.trigPulse (s : State) (n : Nat) : State :=
  let x := s.trig n
  let stop := s.clock + evenNs (s.rd (Port.XTRIG_WIDTH n))
  let s := (s.setTrig n { x with endAt := some (max stop (x.endAt.getD 0)) }).count (Port.XTRIG_COUNT n)
  if x.endAt.isSome then s else (s.trigPin n true).fire (16 + n)

/-- XTRIG_PULSE_START (R128). -/
def execXtrigPulseStart (n : Fin 16) (s : State) : Host.Outcome State Fault Refusal :=
  .next (
    match (s.trig n.val).startAt with
    | none => s
    | some due =>
      let s := s.at due
      (s.setTrig n.val { s.trig n.val with startAt := none }).trigPulse n.val)

/-- XTRIG_PULSE_END (R129): the pulse completes its full width. -/
def execXtrigPulseEnd (n : Fin 16) (s : State) : Host.Outcome State Fault Refusal :=
  .next (
    match (s.trig n.val).endAt with
    | none => s
    | some due =>
      let s := s.at due
      (s.setTrig n.val { s.trig n.val with endAt := none }).trigPin n.val false)

/-! ## Commits of group 0x10 -/

/-- The IDs of R132 that a port which stays enabled does not take. -/
def portFrozen (p : Nat) : List Nat :=
  [Port.LANE_RATE p, Port.BOND_WIDTH p, Port.LANE_MASK p, Port.LOOPBACK p, Port.PATTERN p, Port.PATGEN_GEOMETRY p,
   Port.PATGEN_WIDTH p, Port.PATGEN_FAULTS p]

/-- The XTRIG parameters, which a MEMBER port still takes (R132). -/
def trigIds (p : Nat) : List Nat :=
  [Port.XTRIG_ENABLE p, Port.XTRIG_OFFSET p, Port.XTRIG_WIDTH p, Port.XTRIG_POLARITY p, Port.XTRIG_DIVISOR p, Port.XTRIG_PHASE p]

/-- The checks of a group 0x10 entry beyond range (R119, R128, R132). -/
def linkCheck (t : Txn) (id : Nat) (v : PVal) : Nat :=
  let p := idInst id
  let perLane := (List.range 4).any fun l => id == Port.POLARITY_FORCE p l
  let width := t.cand.rd (Port.BOND_WIDTH p)
  let stays := t.old.rd (Port.PORT_ENABLE p) == 1 && t.cand.rd (Port.PORT_ENABLE p) == 1 && !t.has (Port.PORT_ENABLE p)
  if id ∈ trigIds p then
    if id = Port.XTRIG_OFFSET p then failIf (decide (t.cand.period < v.toNat)) Status.RANGE
    else if id = Port.XTRIG_PHASE p ∨ id = Port.XTRIG_DIVISOR p then
      failIf (decide (t.cand.rd (Port.XTRIG_DIVISOR p) ≤ t.cand.rd (Port.XTRIG_PHASE p))) Status.RANGE
    else Status.OK
  else if t.old.isMember p ∧ perLane = false then Status.CONFLICT
  else if id ∈ portFrozen p ∧ stays = true ∧ t.old.rd id ≠ t.cand.rd id then Status.CONFLICT
  else if id = Port.BOND_WIDTH p ∨ id = Port.LANE_MASK p then
    firstBad [
      failIf ((width == 1 && p % 2 != 0) || (width == 2 && p % 4 != 0)) Status.CONFLICT,
      failIf ((bondPorts p (max width (t.old.rd (Port.BOND_WIDTH p)))).any fun q => !t.old.owns t.r.sess (2 + q)) Status.NOT_OWNER,
      failIf (width != 0 && t.cand.rd (Port.LANE_MASK p) != 0xF) Status.RANGE]
  else if id = Port.PORT_ENABLE p ∧ v.toNat = 1 then
    failIf (((bondPorts p width).drop 1).any fun q => t.cand.rd (Port.PORT_ENABLE q) == 1 ||
      (t.old.isMember q && t.old.rd (Port.BOND_LEADER q) != p)) Status.CONFLICT
  else Status.OK

/-- A port stops with the values it ran with; those committed with it stand after. -/
def State.portHalt (s : State) (t : Txn) (p : Nat) : State :=
  let ids := portFrozen p
  ((s.wrAll (ids.map fun i => (i, t.old.rd i))).portStop p (t.old.rd (Port.BOND_WIDTH p))).wrAll (ids.map fun i => (i, t.cand.rd i))

/-- Lanes that had FAILED stay so (R120). -/
def State.stayFailed (s : State) (p : Nat) (ks : List Nat) : State :=
  ((s.bondLanes p).filter ks.contains).foldl (fun t k => t.laneTo k 9) s

/-- The effects of a group 0x10 entry that has been written (R117, R120, R128, R129). DESIGN CHOICE: a commit that changes what a running
port was brought up with, together with PORT_ENABLE 1, restarts it; R132 says only that it is accepted. FAILED is left then only where
LANE_MASK or LANE_RATE changes (R120). -/
def linkApply (t : Txn) (id : Nat) (v : PVal) (s : State) : State :=
  let p := idInst id
  if id = Port.PORT_ENABLE p then
    if v.toNat = 1 then
      if t.old.rd id = 0 then
        let s := (s.setPort p { s.port p with framed := false }).trfReport p (s.frameCfg p (s.rd (Ing.CONTEXT p)))
        if s.duiker then s else s.portStart p
      else if s.duiker = false ∧ (portFrozen p).any (fun i => t.old.rd i != t.cand.rd i) then
        let failed := if [Port.LANE_MASK p, Port.LANE_RATE p].any (fun i => t.old.rd i != t.cand.rd i) then []
          else (s.bondLanes p).filter fun k => s.laneState k == 9
        ((s.portHalt t p).portStart p).stayFailed p failed
      else s
    else if t.old.rd id = 1 then s.portHalt t p else s
  else if id = Port.XTRIG_ENABLE p then
    if v.toNat = 1 then s.setTrig p { s.trig p with load := true, startAt := if t.old.rd id = 0 then none else (s.trig p).startAt }
    else s.setTrig p { s.trig p with startAt := none }
  else if id = Port.XTRIG_DIVISOR p ∨ id = Port.XTRIG_PHASE p then
    if s.rd (Port.XTRIG_ENABLE p) = 1 then s.setTrig p { s.trig p with load := true } else s
  else if id = Port.XTRIG_POLARITY p then
    let s := s.setTrig p { s.trig p with polarised := true }
    if (s.trig p).endAt.isSome then s else s.trigPin p false
  else s

end Sys2Proof.Machine
end

