-- ==== Sys2Proof/Machine/Cf24.lean ====
section
/-! DEFINITION. The number format CF24 (R213, R214), rounding into it once for each stage output (R216), and the elementary
functions that the colour stages need, as rational numbers with at least 60 correct fraction bits. R216 asks for at least
32 significand bits and for agreement within one unit in the last place: the model evaluates every formula on exact
rationals. DESIGN CHOICE, unsafe in the last place. -/

namespace Sys2Proof.Machine

/-! ## CF24 -/

/-- 2 to a signed power. -/
def twoPow (e : Int) : ℚ := if e < 0 then 1 / ((2 ^ (-e).toNat : Nat) : ℚ) else ((2 ^ e.toNat : Nat) : ℚ)

/-- The nearest whole number, ties to even. -/
def roundEven (x : ℚ) : Int := roundDivInt x.num x.den

/-- The exponent e with 2^e ≤ x < 2^(e+1), for x > 0. -/
def floorLog2 (x : ℚ) : Int :=
  let k : Int := (Nat.log2 x.num.natAbs : Int) - (Nat.log2 x.den : Int)
  if twoPow k ≤ x then k else k - 1

/-- The value of a CF24 word (R214); EXP 127 reads as the same formula gives. -/
def cf24Value (v : Nat) : ℚ :=
  let m : ℚ := (bits v 15 0 : Nat)
  let a := if bits v 22 16 = 0 then m * twoPow (-78) else (1 + m / 65536) * twoPow ((bits v 22 16 : Int) - 63)
  if bit v 23 then -a else a

/-- The largest finite value. -/
def cf24Max : ℚ := 131071 * twoPow 47

/-- A number rounded to CF24, and whether it was limited (R214). -/
def cf24Round (x : ℚ) : ℚ × Bool :=
  if x = 0 then (0, false)
  else
    let a := |x|
    let u := twoPow (max (floorLog2 a) (-62) - 16)
    let r : ℚ := (roundEven (a / u) : ℚ) * u
    let y := if cf24Max < r then cf24Max else r
    (if x < 0 then -y else y, decide (cf24Max < r))

/-- The word of a value on the CF24 grid; zero is 0 (R214). -/
def cf24Word (x : ℚ) : Nat :=
  if x = 0 then 0
  else
    let a := |x|
    let e := max (floorLog2 a) (-62)
    let m := (roundEven (a / twoPow (e - 16))).toNat
    let w := if m < 65536 then m else (e + 63).toNat * 65536 + (m - 65536)
    if x < 0 then w + 2 ^ 23 else w

/-- Whether a word is refused with RANGE (R215). -/
def cf24Bad (v : Nat) : Bool := bits v 22 16 == 127

/-- The value of an IEEE 754 binary16 word, none for an infinity or a NaN (R215). -/
def half16 (v : Nat) : Option ℚ :=
  let m : ℚ := (bits v 9 0 : Nat)
  let e := bits v 14 10
  if e = 31 then none
  else
    let a := if e = 0 then m * twoPow (-24) else (1 + m / 1024) * twoPow ((e : Int) - 15)
    some (if bit v 15 then -a else a)

/-! ## Elementary functions -/

/-- One step of the digit-by-digit logarithm in fixed point with 96 fraction bits: the square, and its leading bit. -/
def log2Step (st : Nat × Nat) : Nat × Nat :=
  let m := st.1 * st.1 / 2 ^ 96
  if 2 ^ 97 ≤ m then (m / 2, 2 * st.2 + 1) else (m, 2 * st.2)

/-- Iterates a function. -/
def iterate {α : Type} (f : α → α) : Nat → α → α
  | 0, a => a
  | n + 1, a => iterate f n (f a)

/-- log2 of a positive number to 64 fraction bits. -/
def log2Q (x : ℚ) : ℚ :=
  let e := floorLog2 x
  let m := (x / twoPow e * (2 ^ 96 : Nat)).floor.toNat
  (e : ℚ) + (((iterate log2Step 64 (m, 0)).2 : Nat) : ℚ) / ((2 ^ 64 : Nat) : ℚ)

/-- One step of the product of roots: the root of the level before, the fraction bits left, the product so far. -/
def exp2Step (st : Nat × Nat × Nat) : Nat × Nat × Nat :=
  let r := Nat.sqrt (st.1 * 2 ^ 96)
  let f := 2 * st.2.1
  if 2 ^ 64 ≤ f then (r, f - 2 ^ 64, st.2.2 * r / 2 ^ 96) else (r, f, st.2.2)

/-- 2 to a rational power, with 64 fraction bits of the exponent and 96 of the product. -/
def exp2Q (y : ℚ) : ℚ :=
  let n := y.floor
  let f := ((y - n) * (2 ^ 64 : Nat)).floor.toNat
  (((iterate exp2Step 64 (2 * 2 ^ 96, f, 2 ^ 96)).2.2 : Nat) : ℚ) / ((2 ^ 96 : Nat) : ℚ) * twoPow n

/-- A positive power; 0 at 0. -/
def powQ (x y : ℚ) : ℚ := if x ≤ 0 then 0 else exp2Q (y * log2Q x)

/-- ln 2. -/
def ln2 : ℚ := 693147180559945309417232121458176568 / 10 ^ 36

/-- The natural logarithm. -/
def lnQ (x : ℚ) : ℚ := log2Q x * ln2

/-- The square root to 96 fraction bits. -/
def sqrtQ (x : ℚ) : ℚ := ((Nat.sqrt (x * (2 ^ 192 : Nat)).floor.toNat : Nat) : ℚ) / ((2 ^ 96 : Nat) : ℚ)

/-- π with 96 fraction bits. -/
def piFixed : Nat := 3141592653589793238462643383279502884 * 2 ^ 96 / 10 ^ 36

/-- One term of the sine series: t², the next odd number, the latest term and the sum, with 96 fraction bits. -/
def sinStep (st : Int × Nat × Int × Int) : Int × Nat × Int × Int :=
  let term := -(st.2.2.1 * st.1 / (2 ^ 96 : Nat)) / ((st.2.1 - 1) * st.2.1 : Nat)
  (st.1, st.2.1 + 2, term, st.2.2.2 + term)

/-- sin(πu), by reduction to a quarter turn and the sine series. -/
def sinPi (u : ℚ) : ℚ :=
  let v := u - 2 * ((u / 2 + 1 / 2).floor : ℚ)
  let w := if 1 / 2 < v then 1 - v else if v < -1 / 2 then -1 - v else v
  let t : Int := (w * piFixed).floor
  (((iterate sinStep 20 (t * t / (2 ^ 96 : Nat), 3, t, t)).2.2.2 : Int) : ℚ) / ((2 ^ 96 : Nat) : ℚ)

/-- sinc(u) = sin(πu) ÷ (πu), and 1 at 0 (R230). -/
def sinc (u : ℚ) : ℚ := if u = 0 then 1 else sinPi u / (u * piFixed / ((2 ^ 96 : Nat) : ℚ))

/-! ## Encodings and transfer functions -/

/-- A number limited to [0, 1]. -/
def unit01 (x : ℚ) : ℚ := max 0 (min 1 x)

/-- Carsuos Log (R222). -/
def clog (x : ℚ) : ℚ := if 0 ≤ x then 9 / 16 + log2Q (x + 1 / 128) / 16 else 1 / 8 + x * 8 / ln2

/-- ACEScct (R223). -/
def acescct (x : ℚ) : ℚ :=
  if x ≤ 78125 / 10000000 then 105402377416545 / 10 ^ 13 * x + 729055341958355 / 10 ^ 16
  else (log2Q x + 972 / 100) / (1752 / 100)

/-- The transfer functions of Table 08-5 but TABLE (R224). -/
def transferFn (code : Nat) (e : ℚ) : ℚ :=
  match code with
  | 1 =>
    let x := unit01 e
    if x < 18 / 1000 then 45 / 10 * x else 1099 / 1000 * powQ x (45 / 100) - 99 / 1000
  | 2 =>
    let x := unit01 e
    let a : ℚ := 109929682680944 / 10 ^ 14
    if x < 18053968510807 / 10 ^ 15 then 45 / 10 * x else a * powQ x (45 / 100) - (a - 1)
  | 3 =>
    let y := powQ (unit01 (e / 100)) (1593017578125 / 10 ^ 13)
    powQ ((8359375 / 10 ^ 7 + 188515625 / 10 ^ 7 * y) / (1 + 186875 / 10 ^ 4 * y)) (7884375 / 10 ^ 5)
  | 4 =>
    let x := unit01 e
    if x ≤ 1 / 12 then sqrtQ (3 * x)
    else 17883277 / 10 ^ 8 * lnQ (12 * x - 28466892 / 10 ^ 8) + 55991073 / 10 ^ 8
  | 5 => clog e
  | 6 => acescct e
  | _ => e

end Sys2Proof.Machine
end

