-- ==== Sys2Proof/Machine/Denoise.lean ====
section
/-! DEFINITION. The raw-domain stages of Chamois on plain images: decoding of a stored frame, spatial noise reduction with
defect repair (R202, R203), and motion-compensated temporal noise reduction (R205 to R207). -/

namespace Sys2Proof.Machine

/-- An image: rows of samples or values. -/
abbrev Image (α : Type) := Array (Array α)

/-- The value at a position; `d` outside. -/
def Image.at {α : Type} (m : Image α) (d : α) (x y : Nat) : α := (m.getD y #[]).getD x d

/-- An image of `w` by `h` values. -/
def Image.make {α : Type} (w h : Nat) (f : Nat → Nat → α) : Image α :=
  ((List.range h).map fun y => ((List.range w).map fun x => f x y).toArray).toArray

/-- The position in the 2 × 2 cell (R148). -/
def cfaPos (x y : Nat) : Nat := 2 * (y % 2) + x % 2

/-! ## Decoding (R182) -/

/-- The samples of a stored tile array and the number of malformed tiles: a malformed tile decodes to zeros (R182). -/
def decodeFrame (w : Nat) (tiles : List (List (List Byte))) : Image Nat × Nat :=
  let rows := tiles.map fun r => r.map (trfDecode w)
  let lines := rows.flatMap fun r =>
    let ts := r.map fun t => tileLines t.1
    (List.range 8).map fun y => (ts.flatMap fun t => t.getD y []).toArray
  (lines.toArray, (rows.flatMap fun r => r.filter Prod.snd).length)

/-! ## Defective samples (R203) -/

/-- Whether an entry of the static defect map covers a sample (Table 05-3). -/
def mapCovers (e x y : Nat) : Bool :=
  let ex := bits e 15 0
  let ey := bits e 31 16
  let n := bits e 47 32
  match bits e 63 60 with
  | 0 => x == ex && y == ey
  | 1 => x == ex && decide (ey ≤ y ∧ y < ey + n)
  | 2 => y == ey && decide (ex ≤ x ∧ x < ex + n)
  | 3 => decide (ex ≤ x + 1 ∧ x ≤ ex + 1 ∧ ey ≤ y + 1 ∧ y ≤ ey + 1)
  | _ => false

/-- The entries of a static defect map. -/
def mapEntries (bs : List Byte) : List Nat := (List.range (leAt bs 0 4)).map fun i => leAt bs (16 + 8 * i) 8

/-! ## Spatial noise reduction (R202) -/

/-- The noise model and strengths of a job: NOISE_A, NOISE_B and K as the parameters hold them. -/
structure NoiseCfg where
  a : List Nat
  b : List Nat
  k : Nat
  deriving DecidableEq, Repr

/-- σ² of plane `k` at code `u`. -/
def NoiseCfg.sig2 (c : NoiseCfg) (k u : Nat) : ℚ := (c.a.getD k 0 : ℚ) + (c.b.getD k 0 : ℚ) / 65536 * u

/-- The weight of a window sample other than the centre (R202). Where σ² is 0 the spec states no quotient: a free value. -/
def NoiseCfg.weight (c : NoiseCfg) (sig2 : ℚ) (d : Nat) : ℚ :=
  if c.k = 0 then 0
  else if sig2 = 0 then (Config.zeroNoiseWeight (d * d)).toNat
  else
    let k : ℚ := (c.k : ℚ) / 65536
    let t := 16 * ((d * d : Nat) : ℚ) / (k * k * sig2)
    if 16 ≤ t then 0 else 16 - t

/-- The outcome of the spatial stage at a sample: its code, whether it was repaired, whether it stays unrepaired. -/
structure Spatial where
  code : Nat
  repaired : Bool
  unrepaired : Bool
  deriving DecidableEq, Repr, Inhabited

/-- The spatial stage at a sample of an image of 16-bit codes (R202, R203). -/
def spatialAt (c : NoiseCfg) (u : Image Nat) (bad : Nat → Nat → Bool) (x y : Nat) : Spatial :=
  let h := u.size
  let w := (u.getD 0 #[]).size
  let uc := u.at 0 x y
  let sig2 := c.sig2 (cfaPos x y) uc
  let offs : List Int := [-4, -2, 0, 2, 4]
  let cells : List (Int × Int) := offs.flatMap fun dy => offs.map fun dx => ((x : Int) + dx, (y : Int) + dy)
  let inside : List (Nat × Nat) :=
    (cells.filter fun (p : Int × Int) => decide (0 ≤ p.1 ∧ p.1 < (w : Int) ∧ 0 ≤ p.2 ∧ p.2 < (h : Int))).map
      fun (p : Int × Int) => (p.1.toNat, p.2.toNat)
  let used := inside.filter fun (p : Nat × Nat) => !bad p.1 p.2
  let cBad := bad x y
  let ws := used.map fun (p : Nat × Nat) =>
    let v := u.at 0 p.1 p.2
    let g : ℚ := if cBad then 16 else if p = (x, y) then 16 else c.weight sig2 ((v : Int) - uc).natAbs
    (g, v)
  let sw := (ws.map Prod.fst).sum
  let sv := (ws.map fun p => p.1 * (p.2 : ℚ)).sum
  if sw = 0 then { code := uc, repaired := false, unrepaired := cBad }
  else { code := (roundEven (sv / sw)).toNat, repaired := cBad, unrepaired := false }

/-! ## Temporal noise reduction (R205 to R207) -/

/-- The proxy image: the sum of each 2 × 2 cell, four times its mean (R205). -/
def proxy (u : Image Nat) : Image Nat :=
  Image.make ((u.getD 0 #[]).size / 2) (u.size / 2) fun x y =>
    u.at 0 (2 * x) (2 * y) + u.at 0 (2 * x + 1) (2 * y) + u.at 0 (2 * x) (2 * y + 1) + u.at 0 (2 * x + 1) (2 * y + 1)

/-- The score of a displacement (in proxy samples) of the block at (bx, by); none where the candidate leaves the
reference. -/
def blockScore (cur ref : Image Nat) (bx bY : Nat) (dx dy : Int) : Option Nat :=
  let w := (cur.getD 0 #[]).size
  let h := cur.size
  let bw := min 8 (w - 8 * bx)
  let bh := min 8 (h - 8 * bY)
  let x0 : Int := (8 * bx : Nat) + dx
  let y0 : Int := (8 * bY : Nat) + dy
  if 0 ≤ x0 ∧ x0 + bw ≤ w ∧ 0 ≤ y0 ∧ y0 + bh ≤ h then
    some ((List.range bh).map fun j => ((List.range bw).map fun i =>
      ((cur.at 0 (8 * bx + i) (8 * bY + j) : Int) - (ref.at 0 (x0.toNat + i) (y0.toNat + j) : Int)).natAbs).sum).sum
  else none

/-- The order of candidates: score, |dx| + |dy|, |dy|, dx (R205). -/
def candidateKey (score : Nat) (dx dy : Int) : List Int := [score, dx.natAbs + dy.natAbs, dy.natAbs, dx]

/-- Lexicographic order. -/
def lexLt : List Int → List Int → Bool
  | a :: r, b :: t => decide (a < b) || (a == b && lexLt r t)
  | _, _ => false

/-- The even raw displacements from `lo` to `hi` around a centre, in proxy samples. -/
def spanAround (centre : Int) (range : Nat) : List Int :=
  (List.range (range + 1)).map fun (k : Nat) => centre + (k : Int) - ((range / 2 : Nat) : Int)

/-- The best vector of a block in proxy samples among displacements within `rx` and `ry` raw samples of a centre; the zero
vector is always a candidate (R205). -/
def searchBlock (cur ref : Image Nat) (bx bY : Nat) (cx cy : Int) (rx ry : Nat) : Int × Int :=
  let cands := (0, 0) :: ((spanAround cy ry).flatMap fun dy => (spanAround cx rx).map fun dx => (dx, dy))
  let best := cands.foldl (fun (b : Option (List Int × Int × Int)) p =>
    match blockScore cur ref bx bY p.1 p.2 with
    | none => b
    | some sc =>
      let k := candidateKey sc p.1 p.2
      match b with
      | none => some (k, p)
      | some (k', q) => if lexLt k k' then some (k, p) else some (k', q)) none
  match best with
  | some (_, v) => v
  | none => (0, 0)

/-- The horizontal and vertical range of TNR_SEARCH in raw samples. -/
def searchRange (code : Nat) : Nat × Nat := [(16, 8), (32, 16), (64, 32)].getD code (16, 8)

/-- The blend factor of a reference sample (R206); σ² of 0 leaves the quotient open: a free value. -/
def blend (strength : Nat) (sig2 : ℚ) (u m : ℚ) : ℚ :=
  let s : ℚ := (strength : ℚ) / 65536
  if sig2 = 0 then s * ((Config.zeroNoiseBlend (u - m).num.natAbs).toNat : ℚ) / 65536
  else s * max 0 (1 - (u - m) * (u - m) / (4 * sig2))

/-- Reference samples of a job: the decoded reference, the ratio applied under R207, and the vectors of its blocks. -/
structure RefIn where
  img : Image Nat
  vecs : Image (Int × Int)

/-- The motion-compensated sample at a position: the vectors are in proxy samples, two raw samples each. -/
def RefIn.sample (r : RefIn) (x y : Nat) : Nat :=
  let v := r.vecs.at (0, 0) (x / 16) (y / 16)
  r.img.at 0 ((x : Int) + 2 * v.1).toNat ((y : Int) + 2 * v.2).toNat

/-- The temporal stage at a sample: its code, and whether it counts as unrepaired (R206). -/
def temporalAt (c : NoiseCfg) (strength : Nat) (r1 r2 : Option RefIn) (sp : Spatial) (x y : Nat) : Nat × Bool :=
  let m1 := r1.map fun r => r.sample x y
  let m2 := r2.map fun r => r.sample x y
  if sp.unrepaired then
    match m1, m2 with
    | some m, _ => (m, false)
    | none, some m => (m, false)
    | none, none => (sp.code, true)
  else
    let u : ℚ := sp.code
    let sig2 := c.sig2 (cfaPos x y) sp.code
    let term (m : Option Nat) : ℚ × ℚ := match m with
      | some m => (blend strength sig2 u m, m)
      | none => (0, 0)
    let b1 := term m1
    let b2 := term m2
    ((roundEven ((u + b1.1 * b1.2 + b2.1 * b2.2) / (1 + b1.1 + b2.1))).toNat, false)

/-- A reference image multiplied by an exposure ratio, rounded and limited to 65,535 (R207). -/
def scaleImage (ratio : ℚ) (m : Image Nat) : Image Nat :=
  m.map fun (r : Array Nat) => r.map fun (v : Nat) => (min 65535 (roundEven (ratio * (v : ℚ)))).toNat

end Sys2Proof.Machine
end

