-- ==== Sys2Proof/Machine/Colour.lean ====
section
/-! DEFINITION. The colour stages on plain images: normalisation, lens shading, white balance, demosaic and camera matrix
(R217 to R221), and the rendition chain from trim to output formatting (R225 to R233). Every stage output is rounded once to
CF24 and the limited ones are counted (R214, R216). -/

namespace Sys2Proof.Machine

/-- Rounds an image to CF24 and counts the values that were limited. -/
def roundImage (m : Image ℚ) : Image ℚ × Nat :=
  let r := m.map fun (row : Array ℚ) => row.map cf24Round
  (r.map fun row => row.map Prod.fst, (r.toList.map fun row => (row.toList.filter Prod.snd).length).sum)

/-- Three planes: red, green, blue. -/
structure Rgb where
  r : Image ℚ
  g : Image ℚ
  b : Image ℚ

/-- Rounds three planes. -/
def Rgb.round (m : Rgb) : Rgb × Nat :=
  let r := roundImage m.r
  let g := roundImage m.g
  let b := roundImage m.b
  (⟨r.1, g.1, b.1⟩, r.2 + g.2 + b.2)

/-- The width and height of an image. -/
def Image.w {α : Type} (m : Image α) : Nat := (m.getD 0 #[]).size

/-- A position mirrored about the edge samples of a line of `n` (R220). -/
def mirror (n : Nat) (i : Int) : Nat :=
  if n ≤ 1 then 0
  else
    let p : Int := 2 * ((n : Int) - 1)
    let k := i % p
    (if k < n then k else p - k).toNat

/-- The value at a mirrored position. -/
def Image.mir (m : Image ℚ) (x y : Int) : ℚ := m.at 0 (mirror m.w x) (mirror m.size y)

/-! ## Scene section (R217 to R221) -/

/-- The colour at a position under CFA_PHASE: 0 red, 1 green, 2 blue; green for MONO (R148, R219). -/
def cfaColour (cfa x y : Nat) : Nat :=
  let k := cfaPos x y
  match cfa with
  | 0 => [0, 1, 1, 2].getD k 1
  | 1 => [1, 0, 2, 1].getD k 1
  | 2 => [1, 2, 0, 1].getD k 1
  | 3 => [2, 1, 1, 0].getD k 1
  | _ => 1

/-- What the scene colour stages of a job use. -/
structure SceneCfg where
  samples : Nat
  lines : Nat
  cfa : Nat
  p16 : Nat
  w16 : Nat
  /-- The lens-shading table with LSC_ENABLE 1; empty without. -/
  lsc : Array Byte
  gx : Nat
  gy : Nat
  wb : List ℚ
  cam : List ℚ

/-- A little-endian 16-bit number in an array of bytes. -/
def le16 (a : Array Byte) (o : Nat) : Nat := (a.getD o 0).toNat + 256 * (a.getD (o + 1) 0).toNat

/-- The lens-shading gain of a sample (R218). -/
def SceneCfg.gain (c : SceneCfg) (x y : Nat) : ℚ :=
  if c.lsc.isEmpty then 1
  else
    let fx : ℚ := (x * (c.gx - 1) : Nat) / ((c.samples - 1 : Nat) : ℚ)
    let fy : ℚ := (y * (c.gy - 1) : Nat) / ((c.lines - 1 : Nat) : ℚ)
    let i := min fx.floor.toNat (c.gx - 2)
    let j := min fy.floor.toNat (c.gy - 2)
    let a := fx - i
    let b := fy - j
    let k := cfaPos x y
    let g (jj ii : Nat) : ℚ := (le16 c.lsc (16 + 2 * ((k * c.gy + jj) * c.gx + ii)) : ℚ) / 4096
    (1 - a) * (1 - b) * g j i + a * (1 - b) * g j (i + 1) + (1 - a) * b * g (j + 1) i + a * b * g (j + 1) (i + 1)

/-- The normalised, shaded and balanced samples of the configured geometry, and the values limited (R217 to R219). -/
def SceneCfg.balanced (c : SceneCfg) (u : Image Nat) : Image ℚ × Nat :=
  let n := roundImage (Image.make c.samples c.lines fun x y =>
    ((u.at 0 x y : ℚ) - c.p16) / ((c.w16 : ℚ) - c.p16))
  let s := if c.lsc.isEmpty then (n.1, 0) else roundImage (Image.make c.samples c.lines fun x y => n.1.at 0 x y * c.gain x y)
  let b := roundImage (Image.make c.samples c.lines fun x y => s.1.at 0 x y * c.wb.getD (cfaColour c.cfa x y) 1)
  (b.1, n.2 + s.2 + b.2)

/-- The green plane before rounding (R220, step 1). -/
def greenAt (cfa : Nat) (m : Image ℚ) (x y : Nat) : ℚ :=
  let s (dx dy : Int) : ℚ := m.mir ((x : Int) + dx) ((y : Int) + dy)
  if cfaColour cfa x y = 1 then s 0 0
  else
    let lh := 2 * s 0 0 - s (-2) 0 - s 2 0
    let lv := 2 * s 0 0 - s 0 (-2) - s 0 2
    let dh := |s (-1) 0 - s 1 0| + |lh|
    let dv := |s 0 (-1) - s 0 1| + |lv|
    let gh := (s (-1) 0 + s 1 0) / 2 + lh / 4
    let gv := (s 0 (-1) + s 0 1) / 2 + lv / 4
    if dh < dv then gh else if dv < dh then gv else (gh + gv) / 2

/-- The red or blue plane before rounding (R220, step 2). -/
def chromaAt (cfa c : Nat) (m g : Image ℚ) (x y : Nat) : ℚ :=
  let d (dx dy : Int) : ℚ := m.mir ((x : Int) + dx) ((y : Int) + dy) - g.mir ((x : Int) + dx) ((y : Int) + dy)
  let g0 := g.at 0 x y
  if cfaColour cfa x y = c then m.at 0 x y
  else if cfaColour cfa (x + 1) y = c then g0 + (d (-1) 0 + d 1 0) / 2
  else if cfaColour cfa x (y + 1) = c then g0 + (d 0 (-1) + d 0 1) / 2
  else g0 + (d (-1) (-1) + d 1 (-1) + d (-1) 1 + d 1 1) / 4

/-- The demosaic (R220); bypassed with MONO. -/
def demosaic (cfa : Nat) (m : Image ℚ) : Rgb × Nat :=
  if cfa = 4 then (⟨m, m, m⟩, 0)
  else
    let g := roundImage (Image.make m.w m.size (greenAt cfa m))
    let r := roundImage (Image.make m.w m.size (chromaAt cfa 0 m g.1))
    let b := roundImage (Image.make m.w m.size (chromaAt cfa 2 m g.1))
    (⟨r.1, g.1, b.1⟩, g.2 + r.2 + b.2)

/-- A 3 × 3 matrix in row-major order applied to every pixel (R221). -/
def matrixImage (k : List ℚ) (m : Rgb) : Rgb × Nat :=
  let row (i : Nat) : Image ℚ := Image.make m.r.w m.r.size fun x y =>
    k.getD (3 * i) 0 * m.r.at 0 x y + k.getD (3 * i + 1) 0 * m.g.at 0 x y + k.getD (3 * i + 2) 0 * m.b.at 0 x y
  Rgb.round ⟨row 0, row 1, row 2⟩

/-- The working-space image of a job from the temporal output, and the values limited. -/
def SceneCfg.scene (c : SceneCfg) (u : Image Nat) : Rgb × Nat :=
  let b := c.balanced u
  let d := demosaic c.cfa b.1
  let m := matrixImage c.cam d.1
  (m.1, b.2 + d.2 + m.2)

/-! ## Tables (R227 to R229) -/

/-- A little-endian 32-bit number in an array of bytes. -/
def le32 (a : Array Byte) (o : Nat) : Nat := le16 a o + 65536 * le16 a (o + 2)

/-- The lookup of a channel value in a 1D table (R227). -/
def table1d (a : Array Byte) (channel : Nat) (x : ℚ) : ℚ :=
  let lo := cf24Value (le32 a 0 % 2 ^ 24)
  let hi := cf24Value (le32 a 4 % 2 ^ 24)
  let t : ℚ := if le32 a 8 % 256 = 1 then (log2Q (max x lo) - log2Q lo) / (log2Q hi - log2Q lo) else (x - lo) / (hi - lo)
  let p := (roundEven (unit01 t * 4096 * 65536)).toNat
  let i := min (p / 65536) 4095
  let f : ℚ := ((p - i * 65536 : Nat) : ℚ) / 65536
  let e (j : Nat) : ℚ := cf24Value (le32 a (16 + 4 * (4097 * channel + j)) % 2 ^ 24)
  e i + f * (e (i + 1) - e i)

/-- The 3D LUT at a point, with tetrahedral interpolation (R228, R229). -/
def lut3d (a : Array Byte) (r g b : ℚ) : List ℚ :=
  let idx (v : ℚ) : Nat × ℚ :=
    let p := (roundEven (unit01 v * 64 * 65536)).toNat
    let n := min (p / 65536) 63
    (n, ((p - n * 65536 : Nat) : ℚ) / 65536)
  let nr := idx r
  let ng := idx g
  let nb := idx b
  let dr := nr.2
  let dg := ng.2
  let db := nb.2
  (List.range 3).map fun ch =>
    let c (x y z : Nat) : ℚ :=
      (half16 (le16 a (16 + 8 * ((nr.1 + x) + 65 * (ng.1 + y) + 4225 * (nb.1 + z)) + 2 * ch))).getD 0
    if dg ≤ dr ∧ db ≤ dg then c 0 0 0 + dr * (c 1 0 0 - c 0 0 0) + dg * (c 1 1 0 - c 1 0 0) + db * (c 1 1 1 - c 1 1 0)
    else if db ≤ dr ∧ dg ≤ db then c 0 0 0 + dr * (c 1 0 0 - c 0 0 0) + db * (c 1 0 1 - c 1 0 0) + dg * (c 1 1 1 - c 1 0 1)
    else if dr ≤ db ∧ dg ≤ dr then c 0 0 0 + db * (c 0 0 1 - c 0 0 0) + dr * (c 1 0 1 - c 0 0 1) + dg * (c 1 1 1 - c 1 0 1)
    else if dr ≤ dg ∧ db ≤ dr then c 0 0 0 + dg * (c 0 1 0 - c 0 0 0) + dr * (c 1 1 0 - c 0 1 0) + db * (c 1 1 1 - c 1 1 0)
    else if db ≤ dg ∧ dr ≤ db then c 0 0 0 + dg * (c 0 1 0 - c 0 0 0) + db * (c 0 1 1 - c 0 1 0) + dr * (c 1 1 1 - c 0 1 1)
    else c 0 0 0 + db * (c 0 0 1 - c 0 0 0) + dg * (c 0 1 1 - c 0 0 1) + dr * (c 1 1 1 - c 0 1 1)

/-! ## The colour unit (R225 to R228) -/

/-- What a rendition uses. -/
structure RendCfg where
  trim : Nat
  matrix : List ℚ
  shaper : Nat
  shaperTab : Array Byte
  lutOn : Bool
  lut : Array Byte
  transfer : Nat
  gain : ℚ
  toneTab : Array Byte
  outW : Nat
  outH : Nat
  filter : Nat
  scalerTab : Array Byte
  cropX : Nat
  cropY : Nat
  cropW : Nat
  cropH : Nat
  format : Nat
  ycc : Nat
  full : Bool
  alpha : Nat

/-- Applies a function of channel and value to every value. -/
def Rgb.mapCh (m : Rgb) (f : Nat → ℚ → ℚ) : Rgb :=
  ⟨m.r.map fun row => row.map (f 0), m.g.map fun row => row.map (f 1), m.b.map fun row => row.map (f 2)⟩

/-- Stages 1 to 5 of Table 08-6. -/
def RendCfg.colour (c : RendCfg) (m : Rgb) : Rgb × Nat :=
  let k := exp2Q (((toSigned 32 c.trim : Int) : ℚ) / 65536)
  let t := (m.mapCh fun _ v => v * k).round
  let x := matrixImage c.matrix t.1
  let sh := if c.lutOn && c.shaper != 0 then
      (x.1.mapCh fun ch v => if c.shaper = 1 then clog v else if c.shaper = 2 then acescct v else table1d c.shaperTab ch v).round
    else (x.1, 0)
  let lu := if c.lutOn then
      let out := Image.make sh.1.r.w sh.1.r.size fun px py => lut3d c.lut (sh.1.r.at 0 px py) (sh.1.g.at 0 px py) (sh.1.b.at 0 px py)
      Rgb.round ⟨out.map fun row => row.map fun l => l.getD 0 0, out.map fun row => row.map fun l => l.getD 1 0,
        out.map fun row => row.map fun l => l.getD 2 0⟩
    else (sh.1, 0)
  let tf := (lu.1.mapCh fun ch v => if c.transfer = 7 then table1d c.toneTab ch (v * c.gain) else transferFn c.transfer (v * c.gain)).round
  (tf.1, t.2 + x.2 + sh.2 + lu.2 + tf.2)

/-! ## The scaler (R230) -/

/-- The Keys cubic with a = −0.5. -/
def keysCubic (t : ℚ) : ℚ :=
  let x := |t|
  if x < 1 then 3 / 2 * x * x * x - 5 / 2 * x * x + 1
  else if x < 2 then -1 / 2 * (x * x * x - 5 * x * x + 8 * x - 4)
  else 0

/-- The built-in kernel at t with s = max(1, r′). -/
def scalerKernel (filter : Nat) (s t : ℚ) : ℚ := if filter = 0 then sinc (t / s) * sinc (t / 4) else keysCubic (t / s)

/-- The taps of one phase of a built-in filter: scaled to 16,384, each rounded, the remainder at the largest tap. -/
def phaseTaps (filter : Nat) (s : ℚ) (phase : Nat) : List Int :=
  let ks := (List.range 8).map fun (k : Nat) => scalerKernel filter s ((k : ℚ) - 3 - (phase : ℚ) / 64)
  let sum := ks.sum
  let ts := ks.map fun k => roundEven (k * 16384 / sum)
  let rest := 16384 - ts.sum
  let big := ts.foldl (fun m t => max m t.natAbs) 0
  let at' := ts.findIdx fun t => t.natAbs == big
  ts.zipIdx.map fun p => if p.2 = at' then p.1 + rest else p.1

/-- The smallest m with r ÷ 2^m ≤ 2. -/
def boxShift (inN outN : Nat) : Nat := ((List.range 5).find? fun m => decide (inN ≤ 2 * outN * 2 ^ m)).getD 4

/-- A line averaged in boxes of 2^m samples aligned to sample 0. -/
def boxLine (m : Nat) (l : Array ℚ) : Array ℚ :=
  if m = 0 then l
  else
    ((List.range (ceilDiv l.size (2 ^ m))).map fun i =>
      let xs := (l.toList.drop (i * 2 ^ m)).take (2 ^ m)
      xs.sum / (xs.length : ℚ)).toArray

/-- The taps of every phase: the table's set (0 horizontal, 1 vertical), or the built-in kernel. -/
def scalerTaps (filter : Nat) (tab : Array Byte) (set inN outN m : Nat) : Array (List Int) :=
  ((List.range 64).map fun ph =>
    if filter = 2 then (List.range 8).map fun k => toSigned 16 (le16 tab (1024 * set + 2 * (8 * ph + k)))
    else phaseTaps filter (max 1 ((inN : ℚ) / ((outN * 2 ^ m : Nat) : ℚ))) ph).toArray

/-- Scales one line (R230). -/
def scaleLine (taps : Array (List Int)) (inN outN m : Nat) (l : Array ℚ) : Array ℚ :=
  let b := boxLine m l
  ((List.range outN).map fun (o : Nat) =>
    let pos : Int := (((2 * o + 1) * inN * 32 / (outN * 2 ^ m) : Nat) : Int) - 32
    let i := pos / 64
    let ph := (pos % 64).toNat
    ((taps.getD ph []).zipIdx.map fun (p : Int × Nat) =>
      ((p.1 : Int) : ℚ) * b.getD (mirror b.size (i - 3 + (p.2 : Int))) 0).sum / 16384).toArray

/-- An image with rows and columns exchanged. -/
def Image.flip (m : Image ℚ) : Image ℚ := Image.make m.size m.w fun x y => m.at 0 y x

/-- One plane scaled: the horizontal pass, then the vertical pass, each rounded. -/
def RendCfg.scalePlane (c : RendCfg) (p : Image ℚ) : Image ℚ × Nat :=
  let mh := boxShift p.w c.outW
  let th := scalerTaps c.filter c.scalerTab 0 p.w c.outW mh
  let h := roundImage (p.map fun (l : Array ℚ) => scaleLine th p.w c.outW mh l)
  let mv := boxShift p.size c.outH
  let tv := scalerTaps c.filter c.scalerTab 1 p.size c.outH mv
  let v := roundImage (h.1.flip.map fun (l : Array ℚ) => scaleLine tv p.size c.outH mv l)
  (v.1.flip, h.2 + v.2)

/-- The crop (R231): a size of 0 keeps the whole output. -/
def RendCfg.crop (c : RendCfg) (p : Image ℚ) : Image ℚ :=
  if c.cropW = 0 ∧ c.cropH = 0 then p else Image.make c.cropW c.cropH fun x y => p.at 0 (c.cropX + x) (c.cropY + y)

/-- Stages 6 and 7 of Table 08-6. -/
def RendCfg.output (c : RendCfg) (m : Rgb) : Rgb × Nat :=
  let r := c.scalePlane m.r
  let g := c.scalePlane m.g
  let b := c.scalePlane m.b
  (⟨c.crop r.1, c.crop g.1, c.crop b.1⟩, r.2 + g.2 + b.2)

/-! ## Output formatting (R232, R233) -/

/-- The fields of OUT_FORMAT. -/
def fmtSampling (f : Nat) : Nat := bits f 1 0
def fmtPlanar (f : Nat) : Bool := bits f 3 2 == 1
def fmtDepth (f : Nat) : Nat := [8, 10, 12].getD (bits f 5 4) 8

/-- OUT_FORMAT values that Table 08-9 defines. -/
def fmtValid (f : Nat) : Bool :=
  decide (f < 64) && (if fmtSampling f = 3 then decide (bits f 3 2 = 0 ∧ bits f 5 4 ≤ 1) else decide (bits f 3 2 ≤ 1 ∧ bits f 5 4 ≤ 2))

/-- The planes of an output of w × h pixels: line length in bytes and lines. -/
def outPlanes (f w h : Nat) : List (Nat × Nat) :=
  if fmtSampling f = 3 then [(4 * w, h)]
  else
    let bps := if fmtDepth f = 8 then 1 else 2
    let cw := if fmtSampling f = 2 then w else w / 2
    let ch := if fmtSampling f = 0 then h / 2 else h
    if fmtPlanar f then [(w * bps, h), (cw * bps, ch), (cw * bps, ch)] else [(w * bps, h), (2 * cw * bps, ch)]

/-- The pitch of a plane (R233). -/
def planePitch (p : Nat × Nat) : Nat := alignUp p.1 256

/-- The total bytes of one output frame: each plane begins 4 KiB aligned (R233). -/
def outBytes (f w h : Nat) : Nat := (outPlanes f w h).foldl (fun n p => alignUp n 4096 + planePitch p * p.2) 0

/-- The pitch of the first plane. -/
def outPitch (f w h : Nat) : Nat := ((outPlanes f w h).map planePitch).getD 0 0

/-- A code limited to a range, and whether it was limited. -/
def limitCode (lo hi : Nat) (x : ℚ) : Nat × Bool :=
  let v := roundEven x
  ((clamp lo hi v).toNat, decide (v < lo ∨ hi < v))

/-- The code of a luma value at depth n. -/
def lumaCode (full : Bool) (n : Nat) (y : ℚ) : Nat × Bool :=
  if full then limitCode 0 (2 ^ n - 1) (((2 ^ n - 1 : Nat) : ℚ) * y)
  else limitCode (2 ^ (n - 8)) (2 ^ n - 2 ^ (n - 8) - 1) (((2 ^ (n - 8) : Nat) : ℚ) * (219 * y + 16))

/-- The code of a chroma value at depth n. -/
def chromaCode (full : Bool) (n : Nat) (c : ℚ) : Nat × Bool :=
  if full then limitCode 0 (2 ^ n - 1) (((2 ^ n - 1 : Nat) : ℚ) * c + ((2 ^ (n - 1) : Nat) : ℚ))
  else limitCode (2 ^ (n - 8)) (2 ^ n - 2 ^ (n - 8) - 1) (((2 ^ (n - 8) : Nat) : ℚ) * (224 * c + 128))

/-- Kr and Kb of YCC_MATRIX. -/
def yccWeights (m : Nat) : ℚ × ℚ := if m = 0 then (2126 / 10000, 722 / 10000) else (2627 / 10000, 593 / 10000)

/-- E′y, E′cb and E′cr of a pixel. -/
def yccOf (m : Nat) (r g b : ℚ) : ℚ × ℚ × ℚ :=
  let k := yccWeights m
  let y := k.1 * r + (1 - k.1 - k.2) * g + k.2 * b
  (y, (b - y) / (2 * (1 - k.2)), (r - y) / (2 * (1 - k.1)))

/-- Chroma of a plane subsampled (R232). -/
def subsample (sampling : Nat) (c : Image ℚ) : Image ℚ :=
  if sampling = 2 then c
  else
    let h := Image.make (c.w / 2) c.size fun x y =>
      let p : Int := 2 * (x : Int)
      (c.mir (p - 1) y + 2 * c.mir p y + c.mir (p + 1) y) / 4
    if sampling = 1 then h else Image.make h.w (h.size / 2) fun x y => (h.at 0 x (2 * y) + h.at 0 x (2 * y + 1)) / 2

/-- The bytes of a code of depth n: one byte, or a 16-bit word with the value in the high bits. -/
def codeBytes (n v : Nat) : List Byte := if n = 8 then leBytes 1 v else leBytes 2 (v * 2 ^ (16 - n))

/-- The bytes of planes of lines: each line padded to its pitch, each plane 4 KiB aligned. -/
def layPlanes (planes : List (List (List Byte))) : List Byte :=
  planes.foldl (fun out p => padTo 4096 out ++ p.flatMap fun l => padTo 256 l) []

/-- Codes of a plane. -/
def codePlane (f : ℚ → Nat × Bool) (p : Image ℚ) : List (List Nat) × Nat :=
  let c := p.toList.map fun row => row.toList.map f
  (c.map fun row => row.map Prod.fst, (c.map fun row => (row.filter Prod.snd).length).sum)

/-- Output formatting: the bytes of the frame, the codes limited, and the values limited in CF24 (R232, R233). -/
def RendCfg.formatted (c : RendCfg) (m : Rgb) : List Byte × Nat × Nat :=
  if fmtSampling c.format = 3 then
    let n := if bits c.format 5 4 = 1 then 10 else 8
    let code (v : ℚ) : Nat × Bool := limitCode 0 (2 ^ n - 1) (((2 ^ n - 1 : Nat) : ℚ) * v)
    let r := codePlane code m.r
    let g := codePlane code m.g
    let b := codePlane code m.b
    let word (x y : Nat) : Nat :=
      let v (p : List (List Nat)) : Nat := (p.getD y []).getD x 0
      if n = 10 then bits c.alpha 7 6 * 2 ^ 30 + v r.1 * 2 ^ 20 + v g.1 * 2 ^ 10 + v b.1
      else c.alpha * 2 ^ 24 + v r.1 * 2 ^ 16 + v g.1 * 2 ^ 8 + v b.1
    let lines := (List.range m.r.size).map fun y => (List.range m.r.w).flatMap fun x => leBytes 4 (word x y)
    (layPlanes [lines], r.2 + g.2 + b.2, 0)
  else
    let n := fmtDepth c.format
    let w := m.r.w
    let h := m.r.size
    let px := Image.make w h fun x y => yccOf c.ycc (m.r.at 0 x y) (m.g.at 0 x y) (m.b.at 0 x y)
    let ey := roundImage (px.map fun row => row.map fun v => v.1)
    let eb := roundImage (subsample (fmtSampling c.format) (px.map fun row => row.map fun v => v.2.1))
    let er := roundImage (subsample (fmtSampling c.format) (px.map fun row => row.map fun v => v.2.2))
    let yc := codePlane (lumaCode c.full n) ey.1
    let bc := codePlane (chromaCode c.full n) eb.1
    let rc := codePlane (chromaCode c.full n) er.1
    let bytes (p : List (List Nat)) : List (List Byte) := p.map fun row => row.flatMap (codeBytes n)
    let chroma : List (List (List Byte)) :=
      if fmtPlanar c.format then [bytes bc.1, bytes rc.1]
      else [(bc.1.zip rc.1).map fun p => (p.1.zip p.2).flatMap fun q => codeBytes n q.1 ++ codeBytes n q.2]
    (layPlanes (bytes yc.1 :: chroma), yc.2 + bc.2 + rc.2, ey.2 + eb.2 + er.2)

end Sys2Proof.Machine
end

