-- ==== Sys2Proof/Machine/Statistics.lean ====
section
/-! DEFINITION. Statistics record sets and scope planes as functions of the images of a job (R236 to R241). -/

namespace Sys2Proof.Machine

/-- Signed fixed point with 24 fraction bits, limited (R236). -/
def fix24 (x : ℚ) : Int := clamp (-(2 ^ 39 - 1)) (2 ^ 39 - 1) (roundEven (x * (2 ^ 24 : Nat)))

/-- The luma weights of a working space (Table 08-4). -/
def lumaWeights (space : Nat) : List ℚ :=
  match space with
  | 0 => [3439664498 / 10 ^ 10, 7281660966 / 10 ^ 10, -721325464 / 10 ^ 10]
  | 1 => [2722287168 / 10 ^ 10, 6740817658 / 10 ^ 10, 536895174 / 10 ^ 10]
  | 2 => [2627 / 10000, 6780 / 10000, 593 / 10000]
  | _ => [2126 / 10000, 7152 / 10000, 722 / 10000]

/-- What a record set is made from. -/
structure StatsIn where
  img : Rgb
  clipped : Image Bool
  space : Nat
  domain : Nat
  contents : Nat
  ctx : Nat
  seq : Nat
  ticket : Nat
  exposureId : Nat
  ispGen : Nat

/-- Y of the working-space image. -/
def StatsIn.luma (c : StatsIn) : Image ℚ :=
  let k := lumaWeights c.space
  Image.make c.img.r.w c.img.r.size fun x y =>
    k.getD 0 0 * c.img.r.at 0 x y + k.getD 1 0 * c.img.g.at 0 x y + k.getD 2 0 * c.img.b.at 0 x y

/-- The bin of a value (R237). -/
def histBin (domain : Nat) (v : ℚ) : Nat :=
  (clamp 0 255 ((if domain = 0 then clog v else v) * 256).floor).toNat

/-- A histogram of 256 counts. -/
def histogram (domain : Nat) (m : Image ℚ) : Array Nat :=
  m.foldl (fun h row => row.foldl (fun (a : Array Nat) v => a.modify (histBin domain v) (· + 1)) h) (Array.replicate 256 0)

/-- The bounds of zone index `c` of 32 in `n` samples or lines (R238). -/
def zoneRange (n c : Nat) : List Nat := (List.range ((c + 1) * n / 32 - c * n / 32)).map (· + c * n / 32)

/-- The positions of a zone. -/
def zoneCells (w h zc zr : Nat) : List (Nat × Nat) := (zoneRange h zr).flatMap fun y => (zoneRange w zc).map fun x => (x, y)

/-- A mean: the exact quotient of sum and count, rounded once; of an empty zone, on which the spec states no quotient, a free
value. -/
def zoneMean (key : Nat) (vs : List ℚ) : Nat :=
  if vs.isEmpty then (Config.emptyZoneMean key).toNat
  else cf24Word (cf24Round (((vs.map fix24).sum : ℚ) / ((vs.length : ℚ) * (2 ^ 24 : Nat)))).1

/-- The focus term at a position: ℓ is the log of Y, mirrored at the edges (R238). -/
def focusAt (l : Image ℚ) (x y : Nat) : ℚ :=
  let a := l.mir ((x : Int) + 1) y - l.mir ((x : Int) - 1) y
  let b := l.mir x ((y : Int) + 1) - l.mir x ((y : Int) - 1)
  a * a + b * b

/-- A zone record (Table 08-11). -/
def StatsIn.zone (c : StatsIn) (l : Image ℚ) (zc zr : Nat) : List Byte :=
  let cells := zoneCells c.img.r.w c.img.r.size zc zr
  let key := 4 * (32 * zr + zc)
  let mean (k : Nat) (m : Image ℚ) : Nat := if bit c.contents 1 then zoneMean (key + k) (cells.map fun p => m.at 0 p.1 p.2) else 0
  let clipped := if bit c.contents 1 then min 65535 (cells.filter fun p => c.clipped.at false p.1 p.2).length else 0
  let focus := if bit c.contents 2 then zoneMean (key + 3) (cells.map fun p => focusAt l p.1 p.2) else 0
  leBytes 2 0 ++ leBytes 3 (mean 0 c.img.r) ++ leBytes 3 (mean 1 c.img.g) ++ leBytes 3 (mean 2 c.img.b) ++ leBytes 3 focus ++
    leBytes 2 clipped

/-- The record set of 20,544 bytes (R239, Table 08-10). -/
def StatsIn.record (c : StatsIn) : List Byte :=
  let y := c.luma
  let l := if bit c.contents 2 then y.map fun row => row.map clog else y
  let w := c.img.r.w
  let h := c.img.r.size
  let head := leBytes 1 1 ++ leBytes 1 c.ctx ++ leBytes 1 c.contents ++ leBytes 1 c.space ++ leBytes 1 c.domain ++ zeroBytes 15 ++
    leBytes 8 c.seq ++ leBytes 4 c.ticket ++ leBytes 4 c.exposureId ++ leBytes 4 c.ispGen ++ leBytes 2 w ++ leBytes 2 h ++
    leBytes 4 (w * h) ++ zeroBytes 12
  let hist (m : Image ℚ) : List Byte :=
    if bit c.contents 0 then (histogram c.domain m).toList.flatMap (leBytes 4) else zeroBytes 1024
  let body := head ++ hist c.img.r ++ hist c.img.g ++ hist c.img.b ++ hist y ++
    (List.range 32).flatMap fun r => (List.range 32).flatMap fun k => c.zone l k r
  leBytes 4 (crc32 (zeroBytes 4 ++ body)) ++ body

/-! ## Scopes (R241) -/

/-- The cells that one cropped output pixel counts in: (column, row) (R241). -/
def scopeCells (kind ycc w h cw ox : Nat) (r g b : ℚ) : List (Nat × Nat) :=
  let r := unit01 r
  let g := unit01 g
  let b := unit01 b
  let e := yccOf ycc r g b
  let row (v : ℚ) : Nat := (((h : Int) - 1) - roundEven (v * ((h - 1 : Nat) : ℚ))).toNat
  match kind with
  | 0 => [(ox * w / cw, row e.1)]
  | 1 =>
    let t := w / 3
    [(ox * t / cw, row r), (t + ox * t / cw, row g), (2 * t + ox * t / cw, row b)]
  | _ =>
    let n := min w h
    let k (v : ℚ) : Int := roundEven ((v + 1 / 2) * ((n - 1 : Nat) : ℚ))
    [((w - n) / 2 + (k e.2.1).toNat, (((n : Int) - 1) - k e.2.2).toNat)]

/-- The counts of the grid, saturating at 65,535. -/
def scopeGrid (kind ycc w h : Nat) (m : Rgb) : Array Nat :=
  let cw := m.r.w
  (List.range m.r.size).foldl (fun grid y => (List.range cw).foldl (fun grid x =>
    (scopeCells kind ycc w h cw x (m.r.at 0 x y) (m.g.at 0 x y) (m.b.at 0 x y)).foldl (fun (a : Array Nat) p =>
      a.modify (p.2 * w + p.1) fun n => min 65535 (n + 1)) grid) grid) (Array.replicate (w * h) 0)

/-- The bytes of a scope plane (R241). -/
def scopePlane (kind ycc w h colour : Nat) (m : Rgb) : List Byte :=
  let grid := scopeGrid kind ycc w h m
  grid.toList.zipIdx.flatMap fun p =>
    let a := if p.1 = 0 then 0 else min 255 (64 + 24 * Nat.log2 p.1)
    let rgb := if kind = 1 then [0xFF0000, 0x00FF00, 0x0000FF].getD (min 2 (p.2 % w / (w / 3))) 0 else colour % 2 ^ 24
    leBytes 4 (a * 2 ^ 24 + rgb)

end Sys2Proof.Machine
end

