-- ==== Sys2Proof/Machine/Chamois.lean ====
section
/-! DEFINITION. The Chamois engine: contexts, costs, limits, jobs from start to completion or abandonment, references,
rendition buffers, statistics and scopes (spec/07, spec/08). -/

namespace Sys2Proof.Machine

/-! ## Contexts and ports -/

/-- The ports that name a context in CONTEXT (R134). -/
def State.portsOf (s : State) (c : Nat) : List Nat := (List.range 16).filter fun p => s.rd (Ing.CONTEXT p) == c && !s.isMember p

/-- The port bound to a context: an enabled one if there is one (R134). -/
def State.portOf (s : State) (c : Nat) : Option Nat :=
  match (s.portsOf c).find? s.enabled with
  | some p => some p
  | none => (s.portsOf c).head?

/-- Whether shed item `n` (1 to 10, Table 02-9) is applied. -/
def State.shed (s : State) (n : Nat) : Bool := (s.profile.shedOrder.take (s.rd Tick.SHED_LEVEL)).contains n

/-! ## Divisors and sheddable contexts (R45, R56) -/

/-- The contexts of a plan. -/
def State.planned (s : State) : List Nat := (List.range 32).filter fun c => s.rd (Ctx.CTX_ENABLE c) == 1

/-- The tick divisor of a context. -/
def State.divisor (s : State) (c : Nat) : Nat := max 1 (s.rd (Ctx.TICK_DIVISOR c))

/-- A context marked sheddable (R56). -/
def State.sheddable (s : State) (c : Nat) : Bool := s.rd (Ctx.SHEDDABLE c) == 1

/-- The phase group of a sheddable context under S10: the sheddable contexts of the plan alternate, so that the groups differ by
one at most (Table 02-9). -/
def State.shedGroup (s : State) (c : Nat) : Nat := ((s.planned.filter s.sheddable).findIdx fun k => k == c) % 2

/-! ## Geometry and costs (R193 to R199) -/

/-- Tile columns and rows, and lines and samples, of the port bound to a context. -/
def State.ctxGeom (s : State) (c : Nat) : Option (Nat × Nat × Nat) :=
  (s.portOf c).map fun p => (p, bits (s.rd (Ing.ING_GEOMETRY p)) 31 16, bits (s.rd (Ing.ING_GEOMETRY p)) 15 0)

/-- The stripes of a context whose padded line holds `cols` tile columns: own columns from and to (R194); one in frame
mode. -/
def State.stripesOf (s : State) (c cols : Nat) : List (Nat × Nat) :=
  if s.rd (Ctx.CTX_MODE c) = 1 then
    let w := s.rd (Ctx.STRIPE_WIDTH c)
    (List.range (ceilDiv (64 * cols) w)).map fun k => (k * w, min ((k + 1) * w) (64 * cols))
  else [(0, 64 * cols)]

/-- The columns a stripe processes: 16 more beyond each shared edge (R194). -/
def processed (cols : Nat) (st : Nat × Nat) : Nat × Nat :=
  (if st.1 = 0 then 0 else st.1 - 16, if st.2 = 64 * cols then st.2 else st.2 + 16)

/-- The Scene pixels of a job (R193, R194). -/
def State.scenePixels (s : State) (c cols rows : Nat) : Nat :=
  ((s.stripesOf c cols).map fun st => ((processed cols st).2 - (processed cols st).1) * 8 * rows).sum

/-- The Scene charge of a job in CORE cycles (Table 07-3). -/
def State.sceneCost (s : State) (c : Nat) : Nat :=
  match s.ctxGeom c with
  | none => 0
  | some (_, lines, samples) =>
    let cols := ceilDiv samples 64
    let n := (s.stripesOf c cols).length
    let early := if s.rd (Ctx.EARLY_START c) = 0 then 0 else 6144
    max 12288 (s.scenePixels c cols (ceilDiv lines 8) / 16 + 6144 + (n - 1) * 3584 + early)

/-- The longest unit of a job that cannot yield, with its switch cost (R197). -/
def State.longestUnit (s : State) (c : Nat) : Nat :=
  match s.ctxGeom c with
  | none => 0
  | some (_, lines, samples) =>
    let cols := ceilDiv samples 64
    let rows := ceilDiv lines 8
    if s.rd (Ctx.CTX_MODE c) = 1 then
      (((s.stripesOf c cols).zipIdx.map fun e =>
        ((processed cols e.1).2 - (processed cols e.1).1) * 8 * rows / 16 + (if e.2 = 0 then 6144 else 3584))).foldl max 0
    else s.sceneCost c

/-- The pixels of a scaler output. -/
def State.outPixels (s : State) (c v : Nat) : Nat :=
  bits (s.rd (Rend.SCALE_SIZE c v)) 31 16 * bits (s.rd (Rend.SCALE_SIZE c v)) 15 0

/-- A rendition stopped by a list of shed items: S5, S6 and S9 stop renditions 3, 2 and 1 (Table 02-9). -/
def stoppedBy (items : List Nat) (v : Nat) : Bool :=
  (v == 3 && items.contains 5) || (v == 2 && items.contains 6) || (v == 1 && items.contains 9)

/-- The enabled renditions of a context that a list of shed items leaves running. -/
def State.rendsOn (s : State) (items : List Nat) (c : Nat) : List Nat :=
  (List.range 4).filter fun v => s.rd (Rend.REND_ENABLE c v) == 1 && !stoppedBy items v

/-- Cells of the scope grid of a context with scopes enabled, under a list of shed items (R242). -/
def State.scopeCellsOf (s : State) (items : List Nat) (c : Nat) : Nat :=
  if bit (s.rd (Stat.STATS_ENABLE c)) 3 && !items.contains 2 then
    bits (s.rd (Stat.SCOPE_SIZE c)) 31 16 * bits (s.rd (Stat.SCOPE_SIZE c)) 15 0
  else 0

/-- The Rendition charge of a job in CORE cycles under a list of shed items (Table 07-3, R242). -/
def State.rendCost (s : State) (items : List Nat) (c : Nat) : Nat :=
  match s.ctxGeom c with
  | none => 0
  | some (_, _, samples) =>
    let n := (s.stripesOf c (ceilDiv samples 64)).length
    let vs := s.rendsOn items c
    (vs.map fun v => ceilDiv (s.outPixels c v) 32 + 2048 + (n - 1) * 512).sum + ceilDiv (s.scopeCellsOf items c) 32 +
      (if s.rd (Ctx.EARLY_START c) = 0 then 0 else 8192)

/-- The references a context is configured for: TNR_REFS, or the profile value (R204). -/
def State.refsConfigured (s : State) (c : Nat) : Nat :=
  if s.rd (Ctx.TNR_REFS c) = 0xFF then s.profile.tnrRefs else s.rd (Ctx.TNR_REFS c)

/-- References in use under a list of shed items: S4 leaves one, S7 none. -/
def State.refsUsed (s : State) (items : List Nat) (c : Nat) : Nat :=
  if items.contains 7 then 0 else if items.contains 4 then min 1 (s.refsConfigured c) else s.refsConfigured c

/-- The cropped size of a rendition: width and height (R231). -/
def State.cropOf (s : State) (c v : Nat) : Nat × Nat :=
  let k := s.rd (Rend.CROP_SIZE c v)
  let z := s.rd (Rend.SCALE_SIZE c v)
  if k = 0 then (bits z 15 0, bits z 31 16) else (bits k 15 0, bits k 31 16)

/-- Tile columns that a span of sample columns touches, limited to the frame. -/
def touched (cols lo hi : Nat) : Nat := min cols (ceilDiv hi 64) - lo / 64

/-- Chamois bytes of one job under a list of shed items (R199, R242), by what they move: 0 raw tiles, 1 to 4 the outputs of
renditions 0 to 3, 5 and 6 the references (the one written goes with the first), 7 the scope plane. -/
def State.pixelParts (s : State) (items : List Nat) (c : Nat) : List (Nat × Nat) :=
  match s.ctxGeom c with
  | none => []
  | some (p, lines, samples) =>
    let cols := ceilDiv samples 64
    let rows := ceilDiv lines 8
    let spans := (s.stripesOf c cols).map (processed cols)
    let lossless := s.rd (Trf.TRF_MODE p) == 1
    let raw :=
      if lossless then trfMaxBytes true (widthBits (s.rd (Ing.ING_WIDTH p))) 0 lines samples
      else (spans.map fun e => touched cols e.1 e.2).sum * rows * trfTileBytes (s.budgetInForce p)
    let reach := (searchRange (s.rd (Ctx.TNR_SEARCH c))).1
    let refBytes (w : Nat) : Nat := (spans.map fun e => touched cols (e.1 - w) (e.2 + w)).sum * rows * 512
    let n := s.refsUsed items c
    let out := (s.rendsOn items c).map fun v => (1 + v, outBytes (s.rd (Rend.OUT_FORMAT c v)) (s.cropOf c v).1 (s.cropOf c v).2)
    (0, raw) :: out ++ [(5, if 1 ≤ n then refBytes reach + cols * rows * 512 else 0),
      (6, if 2 ≤ n then refBytes (2 * reach + 8) else 0), (7, 4 * s.scopeCellsOf items c)]

/-- Chamois bytes of one job under a list of shed items (R199). -/
def State.pixelBytes (s : State) (items : List Nat) (c : Nat) : Nat := ((s.pixelParts items c).map Prod.snd).sum

/-! ## Limits (R173, R187, R193, R195, R217, R230, R235) -/

/-- The white code in force of a context whose samples have `w` bits (R217). -/
def State.whiteCode (s : State) (c w : Nat) : Nat :=
  if s.rd (Rend.WHITE_CODE c) = 0 then 2 ^ w - 1 else s.rd (Rend.WHITE_CODE c)

/-- A rendition parameter that breaks R235 whatever the geometry. -/
def State.rendConflict (s : State) (c v : Nat) : Bool :=
  let z := s.rd (Rend.SCALE_SIZE c v)
  let o := s.rd (Rend.CROP_ORIGIN c v)
  let k := s.cropOf c v
  let f := s.rd (Rend.OUT_FORMAT c v)
  let oddX := bits o 15 0 % 2 == 1 || k.1 % 2 == 1
  let oddY := bits o 31 16 % 2 == 1 || k.2 % 2 == 1
  let whole := s.rd (Rend.CROP_SIZE c v) == 0
  (!whole && decide (bits z 15 0 < bits o 15 0 + k.1 ∨ bits z 31 16 < bits o 31 16 + k.2 ∨ k.1 = 0 ∨ k.2 = 0)) ||
    (fmtSampling f == 0 && (oddX || oddY)) || (fmtSampling f == 1 && oddX) ||
    (s.rd (Rend.LUT_ENABLE c v) == 1 && s.rdBlob (Rend.LUT3D c v) == [] && (s.rend c v).lutPend.isNone) ||
    (s.rd (Rend.SHAPER c v) == 3 && s.rdBlob (Rend.SHAPER_TABLE c v) == []) ||
    (s.rd (Rend.TRANSFER c v) == 7 && s.rdBlob (Rend.TONE_TABLE c v) == []) ||
    (s.rd (Rend.SCALER_FILTER c v) == 2 && s.rdBlob (Rend.SCALER_TABLE c v) == [])

/-- A scaler ratio of an enabled rendition outside 1/16 to 16, or above 2 in stripe mode (R195, R230). -/
def State.ratioConflict (s : State) (c v lines samples : Nat) : Bool :=
  let z := s.rd (Rend.SCALE_SIZE c v)
  let w := bits z 15 0
  let h := bits z 31 16
  decide (16 * w < samples ∨ 16 * samples < w ∨ 16 * h < lines ∨ 16 * lines < h) ||
    (s.rd (Ctx.CTX_MODE c) == 1 && decide (2 * w < samples))

/-- Whether a context breaks a limit against the geometry of a port bound to it (R173, R187, R193, R195, R217, R230). -/
def State.geomConflict (s : State) (c p : Nat) : Bool :=
  let g := s.rd (Ing.ING_GEOMETRY p)
  let lines := bits g 31 16
  let samples := bits g 15 0
  let cols := ceilDiv samples 64
  let on := s.rendsOn [] c
  (s.rd (Ctx.CTX_MODE c) == 0 && decide (8192 < 64 * cols)) ||
    (s.rd (Ctx.CTX_MODE c) == 1 && s.rd (Trf.TRF_MODE p) == 1) ||
    decide (2 * s.scenePixels c cols (ceilDiv lines 8) < (on.map (s.outPixels c)).sum) ||
    on.any (fun v => s.ratioConflict c v lines samples) ||
    decide (s.whiteCode c (widthBits (s.rd (Ing.ING_WIDTH p))) ≤ s.rd (Ing.PEDESTAL p))

/-- Whether a context, ACTIVE or not, breaks a limit that gives CONFLICT (R173, R187, R193, R195, R217, R230, R235), against every port
bound to it; without one only those that need none (R517). -/
def State.ctxConflict (s : State) (c : Nat) : Bool :=
  (List.range 4).any (s.rendConflict c) ||
    (s.rd (Rend.LSC_ENABLE c) == 1 && s.rdBlob (Rend.LSC_TABLE c) == []) || (s.portsOf c).any (s.geomConflict c)

/-- Whether the context that a port names breaks such a limit. -/
def State.portConflict (s : State) (p : Nat) : Bool := decide (s.rd (Ing.CONTEXT p) < 32) && s.ctxConflict (s.rd (Ing.CONTEXT p))

/-- Two early-start contexts (R196). -/
def State.earlyCount (s : State) : Nat := ((List.range 32).filter fun c => s.rd (Ctx.EARLY_START c) != 0).length

/-! ## Tables of a commit (R215, R218, R227, R229, R230) -/

/-- A CF24 value of a 1D table with EXP 127 (R215). -/
def table1dBad (bs : List Byte) : Bool :=
  let h := leNat (bs.take 16)
  cf24Bad (bits h 23 0) || cf24Bad (bits h 55 32) || (List.range 12291).any fun i => cf24Bad (leAt (slice bs (16 + 4 * i) 4) 0 3)

/-- A 1D table passed in the request itself is refused for such a value before it is staged (R215). -/
def inlineBad (id : Nat) (v : PVal) : Bool :=
  match v with
  | .blob bs =>
    idGroup id == 0x21 && (id == Rend.SHAPER_TABLE (idInst id) (bits (idNum id) 11 8) || id == Rend.TONE_TABLE (idInst id) (bits (idNum id) 11 8)) &&
      table1dBad bs
  | _ => false

/-- The status of a 1D table (R227, R215). -/
def table1dStatus (bs : List Byte) : Nat :=
  let h := leNat (bs.take 16)
  let lo := bits h 23 0
  let hi := bits h 55 32
  let sp := bits h 71 64
  if bs.length ≠ 49180 ∨ bits h 127 96 ≠ 4097 then Status.BAD_PARAM
  else failIf (table1dBad bs || decide (1 < sp) || decide (cf24Key hi ≤ cf24Key lo) || decide (sp = 1 ∧ cf24Key lo ≤ 0)) Status.RANGE

/-- The status of a lens-shading table (R218). -/
def lscStatus (bs : List Byte) : Nat :=
  let gx := leAt bs 0 2
  let gy := leAt bs 2 2
  if bs.length ≠ 16 + 8 * gx * gy then Status.BAD_PARAM
  else if gx < 3 ∨ 65 < gx ∨ gy < 3 ∨ 65 < gy then Status.RANGE
  else Status.OK

/-- The status of a scaler table: every phase sums to 16,384 (R230). -/
def scalerStatus (bs : List Byte) : Nat :=
  let ok (k : Nat) : Bool := ((List.range 8).map fun i => toSigned 16 (leAt bs (16 * k + 2 * i) 2)).sum == 16384
  failIf (!((List.range 128).all ok)) Status.RANGE

/-- The status of a 3D LUT image (R229, R215). -/
def lutStatus (bs : List Byte) : Nat :=
  if bs.length ≠ 2197016 ∨ leNat (bs.take 16) ≠ 0x10041 then Status.BAD_PARAM
  else
    let bad (o : Nat) : Bool := (half16 (leAt bs o 2)).isNone
    failIf ((List.range 274625).any fun i => bad (16 + 8 * i) || bad (18 + 8 * i) || bad (20 + 8 * i)) Status.RANGE

/-! ## Commits of groups 0x20, 0x21 and 0x22 -/

/-- The rendition of a parameter number of group 0x21. -/
def rendOf (id : Nat) : Nat := bits (idNum id) 11 8

/-- The checks of an entry of groups 0x20 to 0x22 beyond range. -/
def chamoisCheck (t : Txn) (id : Nat) (v : PVal) : Nat :=
  let c := idInst id
  let n := idNum id
  let r := rendOf id
  let bytes := t.old.valBytes v
  firstBad [
    (if id = Ctx.TICK_PHASE c ∨ id = Ctx.TICK_DIVISOR c then
      failIf (decide (t.cand.rd (Ctx.TICK_DIVISOR c) ≤ t.cand.rd (Ctx.TICK_PHASE c))) Status.RANGE
    else if id = Ctx.EARLY_START c then
      firstBad [failIf (decide (t.cand.budget < v.toNat)) Status.RANGE, failIf (decide (1 < t.cand.earlyCount)) Status.CONFLICT]
    else if id = Ctx.CTX_ENABLE c then
      failIf (v.toNat == 1 && !t.old.active c && !Config.memoryAvailable t.old.freeCtr id) Status.NO_RESOURCE
    else if idGroup id = 0x21 ∧ id = Rend.LSC_TABLE c then lscStatus bytes
    else if idGroup id = 0x21 ∧ id = Rend.WHITE_CODE c then
      (match t.cand.ctxGeom c with
       | some (p, _, _) => failIf (decide (2 ^ widthBits (t.cand.rd (Ing.ING_WIDTH p)) ≤ v.toNat)) Status.RANGE
       | none => Status.OK)
    else if idGroup id = 0x21 ∧ bits n 15 12 = 1 then
      (if id = Rend.SHAPER_TABLE c r ∨ id = Rend.TONE_TABLE c r then table1dStatus bytes
       else if id = Rend.SCALER_TABLE c r then scalerStatus bytes
       else if id = Rend.REND_ENABLE c r then
         failIf (v.toNat == 1 && t.old.rd (Rend.REND_ENABLE c r) == 0 && !Config.memoryAvailable t.old.freeCtr id) Status.NO_RESOURCE
       else if id = Rend.LUT3D c r then
         let pending := ((List.range 32).filter fun k =>
          k != c && ((t.old.rend k r).lutPend.isSome || (t.old.active k && t.ids.contains (Rend.LUT3D k r)))).length
         firstBad [lutStatus bytes, failIf (t.old.active c && decide (4 ≤ pending)) Status.NO_RESOURCE,
           failIf (!Config.memoryAvailable t.old.freeCtr id) Status.NO_RESOURCE]
       else Status.OK)
    else if id = Stat.SCOPE_BUFFER c ∨ id = Stat.SCOPE_SIZE c then
      let h := t.cand.rd (Stat.SCOPE_BUFFER c)
      let z := t.cand.rd (Stat.SCOPE_SIZE c)
      if h = 0 then Status.OK
      else (match t.old.bufOf h with
        | some (_, b) => failIf (b.cell != 18 + c || decide (b.size < 8 * (bits z 31 16 * bits z 15 0))) Status.CONFLICT
        | none => Status.CONFLICT)
    else Status.OK),
    failIf (t.cand.ctxConflict c) Status.CONFLICT]

/-! ## Frames of a job -/

/-- The frame in a slot of a port. -/
def State.slotFrame (s : State) (p slot : Nat) : Option Frame := tfind (s.ingest p).slots slot

/-- Changes the frame in a slot of a port. -/
def State.modSlot (s : State) (p slot : Nat) (g : Frame → Frame) : State :=
  match s.slotFrame p slot with
  | some f => s.setIngest p { s.ingest p with slots := tins (s.ingest p).slots slot (g f) }
  | none => s

/-- Flags the frame in a slot REPEATED, counting it once for its context (R47, R56, R234). -/
def State.flagRepeated (s : State) (c p slot : Nat) : State :=
  match s.slotFrame p slot with
  | some f =>
    if bit f.flags Flag.REPEATED || f.final then s
    else (s.modSlot p slot fun f => f.flag Flag.REPEATED).count (Tick.REPEATED_COUNT c)
  | none => s

/-- Changes the ticket of the frame in a slot, unless it is final (R155). -/
def State.modTicket (s : State) (p slot : Nat) (g : Frame → Frame) : State :=
  s.modSlot p slot fun f => if f.final then f else g f

/-- A job leaves its frame: the ticket is final once no job takes it any more (R155). -/
def State.leaveFrame (s : State) (j : Job) : State :=
  let s := s.modSlot j.port j.slot fun f => { f with jobs := f.jobs - 1 }
  match s.slotFrame j.port j.slot with
  | some f => if f.jobs = 0 then s.finalFrame j.port j.slot else s
  | none => s

/-- Produces a JOB trace record (Table 19-8). -/
def State.traceJob (s : State) (c ticket cycles endNs outcome : Nat) : State :=
  s.trace 3 c (leBytes 4 ticket ++ leBytes 4 cycles ++ leBytes 4 endNs ++ leBytes 1 outcome)

/-! ## Boundary values (R200, R201) -/

/-- The effect of a parameter of groups 0x20 to 0x22 that comes into force with a value: tables are kept, their generations
and grids reported. -/
def State.chamoisInForce (s : State) (id : Nat) (v : PVal) : State :=
  let c := idInst id
  match v with
  | .num _ => s
  | _ =>
    let bytes := s.valBytes v
    let s := s.wrBlob id bytes
    if id = Rend.LSC_TABLE c then s.wr (Rend.LSC_GRID c) (leAt bytes 2 2 * 65536 + leAt bytes 0 2) else s

/-- A Boundary-rule value of a context waits for its next job boundary; the last commit's value applies (R201). -/
def State.awaitBoundary (s : State) (id : Nat) (v : PVal) : State :=
  let c := idInst id
  let x := s.ctxSt c
  s.setCtx c { x with waiting := (x.waiting.filter fun e => e.1 != id) ++ [(id, v)] }

/-- The waiting values of a context come into force, and loaded LUT images become resident (R201, R229). -/
def State.adopt (s : State) (c : Nat) : State :=
  let vals := (s.ctxSt c).waiting
  let s := s.setCtx c { s.ctxSt c with waiting := [] }
  let s := vals.foldl (fun t e => match e.2 with
    | .num v => if e.1 = Stat.SCOPE_BUFFER c ∧ (t.bufOf v).isNone then t.wr e.1 0 else t.wr e.1 v
    | v => t.chamoisInForce e.1 v) s
  (List.range 4).foldl (fun t v =>
    match (t.rend c v).lutPend with
    | some img => if (t.rend c v).lutLoaded then
        (t.setRend c v { t.rend c v with lutPend := none, lutLoaded := false }).wrBlob (Rend.LUT3D c v) img
      else t
    | none => t) s

/-! ## Activation and deactivation (R188, R189) -/

/-- A rendition's output buffers appear or go with REND_ENABLE (R234). -/
def State.rendOnOff (s : State) (c v : Nat) : State :=
  let on := s.rd (Rend.REND_ENABLE c v) == 1
  let x := s.rend c v
  if on = x.on then s
  else s.setRend c v { x with on := on, bufs := [], latest := none, held := [], repeats := false }

/-- Abandons the job of a context: its buffer and output are dropped, nothing of it is visible (R48, R209, R234, R240). With
`overrun` its frame carries REPEATED and OVERRUN (R47). -/
def State.abandonJob (s : State) (c : Nat) (overrun : Bool) : State :=
  match (s.ctxSt c).job with
  | none => s
  | some j =>
    let s := s.setCtx c { s.ctxSt c with job := none }
    let s := { s with scene := { s.scene with
        running := if s.scene.running = some c then none else s.scene.running
        queue := s.scene.queue.filter (· != c)
        early := if s.scene.early = some c then none else s.scene.early
        yielded := if s.scene.yielded = some c then none else s.scene.yielded } }
    let s := if overrun then
        (s.flagRepeated c j.port j.slot).modTicket j.port j.slot fun f => f.flag Flag.OVERRUN
      else s
    let s := j.bufs.foldl (fun t b => t.setRend c b.1 { t.rend c b.1 with repeats := true }) s
    let s := if j.writes then s.count (Ctx.REF_DISCARDED c) else s
    let s := if j.stats then s.count (Stat.STATS_OMITTED c) else s
    ((s.traceJob c j.ticket 0 0 1).fire 200).leaveFrame j

/-- The frames of a context in the slots of every port are out of reach of its jobs: their tickets were written before this activation
(R189). -/
def State.retireFrames (s : State) (c : Nat) : State :=
  (List.range 16).foldl (fun t p => t.setIngest p { t.ingest p with
    slots := (t.ingest p).slots.map fun e => if e.2.cfg.ctx = c then (e.1, { e.2 with taken := true }) else e }) s

/-- Activates a context (R189): the divisor counter is loaded with the phase, it has no references, its jobs take frames from now on, and
its tickets start at 0. -/
def State.activate (s : State) (c : Nat) : State :=
  let x := s.ctxSt c
  let s := s.setCtx c { x with
    counter := s.rd (Ctx.TICK_PHASE c), load := true, ref1 := none, ref2 := none, job := none, s8 := 0, missed := 0, rebound := false }
  let s := (s.retireFrames c).setTicketing c {}
  (List.range 4).foldl (fun t v => t.rendOnOff c v) (s.wr (Ctx.CTX_STATE c) 1)

/-- The pending LUT slots of a context are free: a pending image is its rendition's image, and a load that a commit waits for is not
needed any more (R229). DEDUCED for a context that is deactivated. -/
def State.keepLuts (s : State) (c : Nat) : State :=
  (List.range 4).foldl (fun t v => match (t.rend c v).lutPend with
    | some img => ((t.setRend c v { t.rend c v with lutPend := none, lutLoaded := false }).wrBlob (Rend.LUT3D c v) img).release (.lutLoad c v) Status.OK
    | none => t) s

/-- Deactivates a context (R189, R229, R518). -/
def State.deactivate (s : State) (c : Nat) : State :=
  let s := ((s.abandonJob c false).finalUntaken c).keepLuts c
  let s := s.wr (Ctx.CTX_STATE c) 0
  let x := s.ctxSt c
  let s := s.setCtx c { x with ref1 := none, ref2 := none, counter := 0, load := false, scopeIn := none }
  (s.portsOf c).foldl (fun (t : State) p => t.numberingEnds p) s

/-- The effects of an entry of groups 0x20 to 0x22 that has come into force (R45, R189, R229, R234). -/
def chamoisApply (_t : Txn) (id : Nat) (v : PVal) (s : State) : State :=
  let c := idInst id
  if id = Ctx.CTX_ENABLE c then
    if v.toNat = 1 then (if s.active c then s else s.activate c) else if s.active c then s.deactivate c else s
  else if id = Ctx.TICK_DIVISOR c ∨ id = Ctx.TICK_PHASE c then
    if s.active c then s.setCtx c { s.ctxSt c with counter := s.rd (Ctx.TICK_PHASE c), load := true } else s
  else if idGroup id = 0x21 ∧ id = Rend.REND_ENABLE c (rendOf id) then s.rendOnOff c (rendOf id)
  else s.chamoisInForce id v

/-- A commit of a 3D LUT (R229): into a pending slot of an active context, where the reply waits for the load; else the image
is kept at once. -/
def State.lutCommit (s : State) (r : Req) (op id : Nat) (v : PVal) : State :=
  let c := idInst id
  let n := rendOf id
  let s := s.next32 (Rend.LUT_GENERATION c n)
  if s.active c then
    let s := s.setRend c n { s.rend c n with lutPend := some (s.valBytes v), lutLoaded := false }
    s.hold { r := r, op := op, edge := s.tickSeq, status := Status.OK, why := .lutLoad c n }
  else s.wrBlob id (s.valBytes v)

/-! ## Job start (R190, R191, R196) -/

/-- The frames in the slots of a port that a job of a context may take (R190). -/
def State.qualifying (s : State) (c p : Nat) : List (Nat × Frame) := (s.ingest p).slots.filter fun e => s.qualifies c p e.2

/-- The frames older than the one taken are skipped, those whose slot has been used again included (R191). -/
def State.countSkipped (s : State) (c : Nat) (qs : List (Nat × Frame)) : State :=
  (s.countBy (Ctx.FRAMES_SKIPPED c) (qs.length - 1 + (s.ctxSt c).missed)).setCtx c { s.ctxSt c with missed := 0 }

/-- The newest of a list of slot frames. -/
def newestFrame : List (Nat × Frame) → Option (Nat × Frame)
  | [] => none
  | e :: r => match newestFrame r with
    | some b => if e.2.number < b.2.number then some b else some e
    | none => some e

/-- Whether a reference may serve a frame: the port's configuration is unchanged (Table 07-5). -/
def TnrRef.fits (r : TnrRef) (p : Nat) (f : Frame) : Bool :=
  r.port == p && r.lines == f.cfg.lines && r.samples == f.cfg.samples && r.width == f.cfg.width && r.cfa == f.cfg.cfa &&
    r.lossless == f.cfg.lossless

/-- R208: the ticket distance lies from 1 to TNR_MAX_GAP. -/
def TnrRef.near (r : TnrRef) (ticket gap : Nat) : Bool :=
  let d := (ticket + 2 ^ 32 - r.ticket) % 2 ^ 32
  decide (1 ≤ d ∧ d ≤ gap)

/-- A buffer a job may write: neither the latest nor held (R234). -/
def State.freeBuffer (s : State) (c v : Nat) : Option Nat :=
  let x := s.rend c v
  (List.range (s.rd (Rend.REND_BUFFERS c v))).find? fun b => x.latest != some b && !(x.held.any fun h => h.2 == b)

/-- The Scene section goes on: the early-start job that waits, the job that yielded, or the next in order (R192, R196). -/
def State.sceneNext (s : State) : State :=
  let begin (c : Nat) (sc : SceneSt) : State :=
    let s := { s with scene := sc }
    match (s.ctxSt c).job with
    | some j => s.setCtx c { s.ctxSt c with job := some { j with started := true } }
    | none => s
  if s.scene.running.isSome then s
  else
    match s.scene.early, s.scene.yielded, s.scene.queue with
    | some c, _, _ => begin c { s.scene with running := some c, early := none }
    | none, some c, _ => begin c { s.scene with running := some c, yielded := none }
    | none, none, c :: r => begin c { s.scene with running := some c, queue := r }
    | none, none, [] => s

/-- The references of a context at a job boundary: a changed configuration or binding invalidates both, and a lower TNR_REFS releases
REF2 (Table 07-5). DEDUCED: TNR_RESETS counts where there was a reference to invalidate. -/
def State.checkRefs (s : State) (c p : Nat) (f : Frame) : State :=
  let x := s.ctxSt c
  let bad (r : Option TnrRef) : Bool := match r with | some r => !r.fits p f | none => false
  let moved := x.rebound && (x.ref1.isSome || x.ref2.isSome)
  let s := s.setCtx c { x with rebound := false }
  let x := s.ctxSt c
  if bad x.ref1 || bad x.ref2 || moved then (s.setCtx c { x with ref1 := none, ref2 := none }).count (Ctx.TNR_RESETS c)
  else if s.refsConfigured c = 1 then s.setCtx c { x with ref2 := none }
  else s

/-- A job of a context that has no frame (R191, R196). -/
def State.noFrame (s : State) (c : Nat) (early : Bool) : State :=
  let s := if early then s.count (Ctx.EARLY_MISSED c) else s
  (s.count (Ctx.NO_FRAME_COUNT c)).traceJob c 0 0 0 2

/-- The job of a context starts on its newest frame: a job boundary (R190, R191, R201, R204, R234, R240). -/
def State.startJob (s : State) (c : Nat) (early : Bool) : State :=
  match s.portOf c with
  | none => s
  | some p =>
    let qs := s.qualifying c p
    match newestFrame qs with
    | none => s.noFrame c early
    | some (slot, f) =>
      let s := s.countSkipped c qs
      let s := (s.adopt c).checkRefs c p f
      let s := s.modSlot p slot fun f => { f with taken := true, jobs := f.jobs + 1 }
      let x := s.ctxSt c
      let items := s.profile.shedOrder.take (s.rd Tick.SHED_LEVEL)
      let used := s.refsUsed items c
      let gap := s.rd (Ctx.TNR_MAX_GAP c)
      let ok (r : Option TnrRef) : Bool := match r with | some r => r.near f.ticket gap | none => false
      let r1 := decide (1 ≤ used) && ok x.ref1
      let r2 := decide (2 ≤ used) && ok x.ref2
      let enabled := (List.range 4).filter fun v => s.rd (Rend.REND_ENABLE c v) == 1
      let on := s.rendsOn items c
      let bufs := on.filterMap fun v => (s.freeBuffer c v).map fun b => (v, b)
      let none' := on.filter fun v => (s.freeBuffer c v).isNone
      let s := none'.foldl (fun t v => t.count (Rend.REND_NO_BUFFER c v)) s
      let s := enabled.foldl (fun t v => t.setRend c v { t.rend c v with repeats := !(bufs.any fun b => b.1 == v) }) s
      let s := if bufs.length = enabled.length then s else s.flagRepeated c p slot
      let statsOn := decide (0 < s.rd (Stat.STATS_ENABLE c) % 8)
      let skip := items.contains 8 && x.s8 % 2 == 1
      let s := if statsOn && skip then s.count (Stat.STATS_OMITTED c) else s
      let j : Job :=
        { port := p, slot := slot, ticket := f.ticket, edgeAt := s.tick.edgeAt, early := early, bufs := bufs, stats := statsOn && !skip,
          scope := decide (0 < s.scopeCellsOf items c) && bufs.any (fun b => b.1 == s.rd (Stat.SCOPE_SOURCE c)), ref1 := r1, ref2 := r2,
          writes := decide (1 ≤ used), stripes := (s.stripesOf c (ceilDiv f.cfg.samples 64)).length }
      let x := s.ctxSt c
      let s := s.setCtx c { x with job := some j, seen := some (p, f.number), s8 := if items.contains 8 then x.s8 + 1 else 0 }
      let s := s.wr (Ctx.REFS_VALID c) ((if r1 then 1 else 0) + (if r2 then 1 else 0))
      { s with scene := if early then { s.scene with early := some c } else { s.scene with queue := s.scene.queue ++ [c] } }.sceneNext

/-- Whether a context runs on this tick. -/
def State.runsNow (s : State) (c : Nat) : Bool := s.active c && (s.ctxSt c).counter == 0

/-- Under S10 a sheddable context is skipped on every second tick on which it runs, its group deciding which. -/
def State.skips (s : State) (c : Nat) : Bool :=
  s.shed 10 && s.sheddable c && (s.scene.s10 / s.divisor c + s.shedGroup c) % 2 != 0

/-- A context skipped under S10: its newest frame repeats the previous output and is flagged (R56). -/
def State.skipJob (s : State) (c : Nat) : State :=
  match s.portOf c with
  | none => s
  | some p =>
    let qs := s.qualifying c p
    match newestFrame qs with
    | none => s
    | some (slot, f) =>
      let s := s.countSkipped c qs
      let s := s.setCtx c { s.ctxSt c with seen := some (p, f.number) }
      s.flagRepeated c p slot

/-! ## Job completion -/

/-- The statistics renderers have work in a job: a record set or a scope plane. -/
def Job.rendersStats (j : Job) : Bool := j.stats || j.scope

/-- The exposure of a frame as an exact ratio: the product of the written values of EXPOSURE_TIME, ANALOG_GAIN and
DIGITAL_GAIN, the gains as Q16.16; an undefined control counts as 1 (R260). -/
def Frame.exposure (f : Frame) : Nat × Nat :=
  match f.cfg.desc with
  | none => (1, 1)
  | some d => f.cfg.controls.foldl (fun e k => match d.controls[k.1]? with
    | some c =>
      if c.control = 1 then (e.1 * (c.written k.2).1, e.2 * (c.written k.2).2)
      else if c.control ≤ 3 then (e.1 * (c.written k.2).1, e.2 * ((c.written k.2).2 * 65536))
      else e
    | none => e) (1, 1)

/-- The defective samples of a job frame (R203). -/
def State.defects (s : State) (c : Nat) (f : Frame) : Image Bool :=
  let d := s.rd (Ctx.DEFECT_REPAIR c)
  let es := if bit d 0 then mapEntries f.cfg.map else []
  let rs := if bit d 1 then f.regions else []
  let covers (r : Region) (x y : Nat) : Bool :=
    match r.kind with
    | 15 => decide (r.y ≤ y)
    | 2 => decide (r.y ≤ y ∧ y < r.y + r.padLines ∧ r.x ≤ x ∧ x < r.x + r.count)
    | 3 => decide (r.y ≤ y ∧ y < r.y + r.count) && sampleMissing f.cfg.width r.laneCount [r.lane] x
    | _ => decide (r.y ≤ y ∧ y < r.y + r.count)
  Image.make f.cfg.samples f.cfg.lines fun x y => es.any (fun e => mapCovers e x y) || rs.any (fun r => covers r x y)

/-- The decoded image of a reference, scaled by the exposure ratio where the exposures differ (R207). -/
def TnrRef.image (r : TnrRef) (f : Frame) : Image Nat × Image Nat :=
  let m := (decodeFrame 16 r.tiles).1
  if r.exposureId = f.exposureId then (m, m)
  else
    let e := f.exposure
    let ratio : ℚ := if r.expoNum = 0 then ((Config.zeroExposureRatio e.1).toNat : ℚ) / 65536
      else ((e.1 * r.expoDen : Nat) : ℚ) / ((e.2 * r.expoNum : Nat) : ℚ)
    (m, scaleImage ratio m)

/-- The output of the raw-domain stages of a job (R202 to R208), the samples repaired and those left unrepaired. -/
def State.rawStages (s : State) (c : Nat) (j : Job) (f : Frame) : Image Nat × Nat × Nat × Nat :=
  let x := s.ctxSt c
  let dec := decodeFrame f.cfg.width f.tiles
  let u := dec.1.map fun row => row.map fun v => v * 2 ^ (16 - f.cfg.width)
  let bad := s.defects c f
  let cfg : NoiseCfg := { a := (List.range 4).map fun k => s.rd (Ctx.NOISE_A c k), b := (List.range 4).map fun k => s.rd (Ctx.NOISE_B c k),
                          k := s.rd (Ctx.SNR_STRENGTH c) }
  let w := Image.w u
  let h := u.size
  let sp : Image Spatial := Image.make w h fun px py => spatialAt cfg u (fun a b => bad.at false a b) px py
  let codes : Image Nat := sp.map fun row => row.map fun p => p.code
  let cur := proxy codes
  let rng := searchRange (s.rd (Ctx.TNR_SEARCH c))
  let blocks (g : Nat → Nat → Int × Int) : Image (Int × Int) := Image.make (ceilDiv w 16) (ceilDiv h 16) g
  let v1 : Image (Int × Int) := match x.ref1 with
    | some r => if j.ref1 then
        let p := proxy (r.image f).1
        blocks fun bx bY => searchBlock cur p bx bY 0 0 rng.1 rng.2
      else #[]
    | none => #[]
  let in1 : Option RefIn := match x.ref1 with
    | some r => if j.ref1 then some { img := (r.image f).2, vecs := v1 } else none
    | none => none
  let in2 : Option RefIn := match x.ref2 with
    | some r => if j.ref2 then
        let p := proxy (r.image f).1
        some { img := (r.image f).2, vecs := blocks fun bx bY =>
          let v := v1.at (0, 0) bx bY
          searchBlock cur p bx bY (2 * v.1) (2 * v.2) 8 8 }
      else none
    | none => none
  let out : Image (Nat × Bool) := Image.make w h fun px py =>
    temporalAt cfg (s.rd (Ctx.TNR_STRENGTH c)) in1 in2 (sp.at default px py) px py
  let countIn {α : Type} (m : Image α) (g : α → Bool) : Nat := (m.toList.map fun row => (row.toList.filter g).length).sum
  (out.map fun row => row.map Prod.fst, countIn sp Spatial.repaired, countIn out Prod.snd, dec.2)

/-- The tile array of a reference: TRF at 8.0 bpp with WIDTH 3 (R179, R204). -/
def encodeRef (cfa : Nat) (m : Image Nat) : List (List (List Byte)) :=
  (List.range (m.size / 8)).map fun r =>
    let lines := (List.range 8).map fun y => (m.getD (8 * r + y) #[]).toList
    (List.range (Image.w m / 64)).map fun k => (trfEncodeFixed 16 cfa 0 16 (tilePlanes lines k)).bytes

/-- The references after a completed job (Table 07-5). -/
def State.rotateRefs (s : State) (c : Nat) (j : Job) (f : Frame) (m : Image Nat) : State :=
  if j.writes then
    let x := s.ctxSt c
    let e := f.exposure
    let r : TnrRef :=
      { ticket := f.ticket, exposureId := f.exposureId, expoNum := e.1, expoDen := e.2, port := j.port, lines := f.cfg.lines,
        samples := f.cfg.samples, width := f.cfg.width, cfa := f.cfg.cfa, lossless := f.cfg.lossless, tiles := encodeRef f.cfg.cfa m }
    s.setCtx c { x with ref1 := some r, ref2 := if 2 ≤ s.refsConfigured c then x.ref1 else none }
  else s

/-- An ISP value that a frame carries (R259). -/
def Frame.ispValue (f : Frame) (id : Nat) : Nat := ((f.cfg.isp.find? fun e => e.1 == id).map Prod.snd).getD (resetValue id)

/-- What the scene colour stages of a job use (R217 to R221). -/
def State.sceneCfg (s : State) (c : Nat) (f : Frame) : SceneCfg :=
  let sh := 2 ^ (16 - f.cfg.width)
  let lsc := if s.rd (Rend.LSC_ENABLE c) = 1 then s.rdBlob (Rend.LSC_TABLE c) else []
  { samples := f.cfg.samples, lines := f.cfg.lines, cfa := f.cfg.cfa, p16 := f.cfg.pedestal * sh, w16 := s.whiteCode c f.cfg.width * sh,
    lsc := lsc.toArray, gx := leAt lsc 0 2, gy := leAt lsc 2 2,
    wb := (List.range 3).map fun k => (f.ispValue (Rend.WB_GAIN c k) : ℚ) / 65536,
    cam := (List.range 9).map fun k => cf24Value (f.ispValue (Rend.CAM_MATRIX c k)) }

/-- What a rendition of a job uses. -/
def State.rendCfg (s : State) (c v : Nat) (f : Frame) : RendCfg :=
  let z := s.rd (Rend.SCALE_SIZE c v)
  let o := s.rd (Rend.CROP_ORIGIN c v)
  let k := s.rd (Rend.CROP_SIZE c v)
  { trim := f.ispValue (Rend.TRIM_EV c v), matrix := (List.range 9).map fun m => cf24Value (s.rd (Rend.REND_MATRIX c v m)),
    shaper := s.rd (Rend.SHAPER c v), shaperTab := (s.rdBlob (Rend.SHAPER_TABLE c v)).toArray, lutOn := s.rd (Rend.LUT_ENABLE c v) == 1,
    lut := (s.rdBlob (Rend.LUT3D c v)).toArray, transfer := s.rd (Rend.TRANSFER c v), gain := cf24Value (s.rd (Rend.TF_GAIN c v)),
    toneTab := (s.rdBlob (Rend.TONE_TABLE c v)).toArray, outW := bits z 15 0, outH := bits z 31 16,
    filter := s.rd (Rend.SCALER_FILTER c v), scalerTab := (s.rdBlob (Rend.SCALER_TABLE c v)).toArray, cropX := bits o 15 0,
    cropY := bits o 31 16, cropW := bits k 15 0, cropH := bits k 31 16, format := s.rd (Rend.OUT_FORMAT c v),
    ycc := s.rd (Rend.YCC_MATRIX c v), full := s.rd (Rend.YCC_RANGE c v) == 1, alpha := s.rd (Rend.REND_ALPHA c v) }

/-- Writes the statistics record set of a job and sets STATS_HANDLE of its ticket (R239, R240). -/
def State.writeStats (s : State) (c : Nat) (j : Job) (f : Frame) (img : Rgb) (u : Image Nat) (w16 : Nat) : State :=
  if j.stats then
    let x := s.ctxSt c
    let seq := x.seq + 1
    let rec' := StatsIn.record
      { img := img, clipped := Image.make f.cfg.samples f.cfg.lines fun px py => decide (w16 ≤ u.at 0 px py),
        space := s.rd (Rend.WORKING_SPACE c), domain := s.rd (Stat.HIST_DOMAIN c), contents := s.rd (Stat.STATS_ENABLE c) % 8, ctx := c,
        seq := seq, ticket := f.ticket, exposureId := f.exposureId, ispGen := f.ispGen }
    let s := s.setCtx c { x with seq := seq }
    let s := s.wrBlob (Stat.STATS_SLOT c (seq % 16)) rec'
    let s := s.modTicket j.port j.slot fun f => { f with statsHandle := seq }
    (s.wr (Stat.STATS_SEQ c) seq).count (Stat.STATS_WRITTEN c)
  else s

/-- Writes a scope plane into the half of the scope buffer that SCOPE_FRONT does not name, unless a head holds it (R241, R242,
R297). -/
def State.writeScope (s : State) (c : Nat) (m : Rgb) : State :=
  match s.bufOf (s.rd (Stat.SCOPE_BUFFER c)) with
  | none => s
  | some (n, _) =>
    let z := s.rd (Stat.SCOPE_SIZE c)
    let w := bits z 15 0
    let h := bits z 31 16
    let half := 1 - s.rd (Stat.SCOPE_FRONT c)
    let holders := (s.ctxSt c).scopeHeld.filter fun e => e.2 == half
    if holders ≠ [] then holders.foldl (fun t e => t.count (Head.SCOPE_HOLDS e.1)) s
    else
    let plane := scopePlane (s.rd (Stat.SCOPE_KIND c)) (s.rd (Rend.YCC_MATRIX c (s.rd (Stat.SCOPE_SOURCE c)))) w h (s.rd (Stat.SCOPE_COLOUR c)) m
    let s := { s with nmp := { s.nmp with mem := memWriteN s.nmp.mem (bufAddr n (half * 4 * w * h)) plane } }
    let s := s.setCtx c { s.ctxSt c with scopeIn := some (s.rd (Stat.SCOPE_BUFFER c), z) }
    (s.wr (Stat.SCOPE_FRONT c) half).count (Stat.SCOPE_PLANES c)

/-- One rendition of a job: its output frame becomes the latest (R225, R234), and its scope plane is rendered. -/
def State.produceRend (s : State) (c : Nat) (j : Job) (f : Frame) (img : Rgb) (b : Nat × Nat) : State :=
  let cfg := s.rendCfg c b.1 f
  let col := cfg.colour img
  let out := cfg.output col.1
  let fmt := cfg.formatted out.1
  let x := s.rend c b.1
  let s := s.setRend c b.1 { x with bufs := tins x.bufs b.2 fmt.1, latest := some b.2, ticket := f.ticket, repeats := false }
  let s := (s.countBy (Rend.SAT_COUNT c b.1) fmt.2.1).countBy (Rend.CF24_SATURATED c) (col.2 + out.2 + fmt.2.2)
  let s := s.count (Rend.FRAMES_OUT c b.1)
  if j.scope && b.1 == s.rd (Stat.SCOPE_SOURCE c) then s.writeScope c out.1 else s

/-- Rendition 0 keeps the final ticket of the job frame of its latest completed buffer (R319). -/
def State.keepRecord (s : State) (c : Nat) (j : Job) : State :=
  match s.slotFrame j.port j.slot with
  | some f => if j.bufs.any (fun b => b.1 == 0) then s.setRend c 0 { s.rend c 0 with record := f.ticketBytes } else s
  | none => s

/-- A job finishes (R190, R210, R234, R239): its outputs become the latest. -/
def State.finishJob (s : State) (c sceneCycles endNs : Nat) : State :=
  match (s.ctxSt c).job with
  | none => s
  | some j =>
    match s.slotFrame j.port j.slot with
    | none => s.setCtx c { s.ctxSt c with job := none }
    | some f =>
      let s := s.at (j.edgeAt + endNs)
      let (u, repaired, unrepaired, malformed) := s.rawStages c j f
      let s := (s.countBy (Ctx.SAMPLES_REPAIRED c) repaired).countBy (Ctx.SAMPLES_UNREPAIRED c) unrepaired
      let s := s.countBy (Trf.TRF_DECODE_ERR j.port) malformed
      let s := s.rotateRefs c j f u
      let cfg := s.sceneCfg c f
      let (img, sat) := cfg.scene u
      let s := s.countBy (Rend.CF24_SATURATED c) sat
      let s := s.writeStats c j f img u cfg.w16
      let s := j.bufs.foldl (fun t b => t.produceRend c j f img b) s
      let s := s.setCtx c { s.ctxSt c with job := none }
      let s := s.wrAll [(Ctx.LAST_TICKET_NUMBER c, f.ticket), (Ctx.LAST_JOB_CYCLES c, sceneCycles), (Ctx.LAST_JOB_END c, endNs),
        (Ctx.LAST_LATENCY c, s.clock - f.startClock)]
      let s := (s.raise (Ctx.WORST_JOB_END c) endNs).count (Ctx.JOBS_RUN c)
      let s := (s.traceJob c f.ticket sceneCycles endNs 0).fire (64 + c)
      let s := (s.leaveFrame j).keepRecord c j
      let s := { s with scene := { s.scene with running := if s.scene.running = some c then none else s.scene.running } }
      s.sceneNext

/-! ## Rows -/

/-- STRIPE_COMPLETE (R194, R196): a stripe of the running job ends; at the boundary an early-start job that waits runs
first. -/
def execStripeComplete (s : State) : Host.Outcome State Fault Refusal :=
  .next (match s.scene.running with
    | none => s
    | some c =>
      match (s.ctxSt c).job with
      | none => s
      | some j =>
        if j.stripe + 1 < j.stripes then
          let s := s.setCtx c { s.ctxSt c with job := some { j with stripe := j.stripe + 1 } }
          if s.scene.early.isSome then
            ({ s with scene := { s.scene with running := none, yielded := some c } }.count (Ctx.PREEMPTIONS c)).sceneNext
          else s
        else s)

/-- The early-start context: an active one with EARLY_START that runs on this tick (R196). -/
def State.earlyCtx (s : State) : Option Nat :=
  (List.range 32).find? fun c => s.active c && s.rd (Ctx.EARLY_START c) != 0 && (s.ctxSt c).counter == 0

/-- EARLY_START_ELIGIBLE (R56, R196): the early-start job starts or waits, unless S10 skips its context on this tick. -/
def execEarlyStartEligible (s : State) : Host.Outcome State Fault Refusal :=
  .next (match s.earlyCtx with
    | none => s
    | some c =>
      if s.pow.global = .run ∧ (s.ctxSt c).job.isNone then 
        let s := s.at (s.tick.edgeAt + s.rd (Ctx.EARLY_START c))
        if s.skips c then s.skipJob c else s.startJob c true
      else s)

/-- LUT_PENDING_LOAD_DONE (R229): the load into the pending slot is complete, and the commit is answered. -/
def execLutPendingLoadDone (ctx : Fin 32) (rend : Fin 4) (s : State) : Host.Outcome State Fault Refusal :=
  .next (
    if (s.rend ctx.val rend.val).lutPend.isSome then
      (s.setRend ctx.val rend.val { s.rend ctx.val rend.val with lutLoaded := true }).release (.lutLoad ctx.val rend.val) Status.OK
    else s)

end Sys2Proof.Machine
end

