-- ==== Sys2Proof/Machine/Media.lean ====
section
/-! DEFINITION. The media set: its address space, superblocks, directory, extent map, journal, and their bytes (R345 to
R353). -/

namespace Sys2Proof.Machine

/-! ## Set blocks (R345) -/

/-- A set block in bytes. -/
def blockSize : Nat := 4096

/-- Data members of a layout. -/
def dataMembers (layout count : Nat) : Nat := match layout with | 0 => count | 1 => 1 | _ => 2

/-- The copies of set block `b` as (member, LBA) (R345). -/
def setCopies (layout count b : Nat) : List (Nat × Nat) :=
  let u := b / 256
  let o := b % 256
  match layout with
  | 0 => [(u % max 1 count, 256 + u / max 1 count * 256 + o)]
  | 1 => [(0, 256 + b), (1, 256 + b)]
  | _ =>
    let p := u % 2
    let l := 256 + u / 2 * 256 + o
    [(2 * p, l), (2 * p + 1, l)]

/-- The root port of a member. -/
def RecSt.portOf (r : RecSt) (k : Nat) : Option Nat := (r.ports.getD k none)

/-- One block of an SSD; a block not listed is zero. -/
def Ssd.block (x : Ssd) (lba : Nat) : List Byte := tget x.content lba (zeroBytes blockSize)

/-- Writes one block of the SSD on a root port, with BYTES_WRITTEN. -/
def State.ssdWrite (s : State) (port lba : Nat) (b : List Byte) : State :=
  match tfind s.media.ssds port with
  | none => s
  | some x =>
    let x' : Ssd := { x with content := tset x.content lba (zeroBytes blockSize) ((b ++ zeroBytes blockSize).take blockSize) }
    ({ s with media := { s.media with ssds := tins s.media.ssds port x' } }).addBytes (Rec.BYTES_WRITTEN port) blockSize

/-- Reads a set block from its first copy on a member in service. -/
def State.setRead (s : State) (b : Nat) : List Byte :=
  match s.media.sb with
  | none => zeroBytes blockSize
  | some sb =>
    match (setCopies sb.layout sb.count b).find? fun c => s.media.inService.contains c.1 with
    | none => zeroBytes blockSize
    | some (k, lba) =>
      match s.media.portOf k with
      | none => zeroBytes blockSize
      | some p =>
        match tfind s.media.ssds p with
        | none => zeroBytes blockSize
        | some x => x.block lba

/-- Writes a set block to every copy on a member in service. -/
def State.setWrite (s : State) (b : Nat) (bytes : List Byte) : State :=
  match s.media.sb with
  | none => s
  | some sb => (setCopies sb.layout sb.count b).foldl (fun t c =>
      if t.media.inService.contains c.1 then
        match t.media.portOf c.1 with
        | some p => t.ssdWrite p c.2 bytes
        | none => t
      else t) s

/-- Bytes cut into blocks, each with its number counted from `b`. -/
def blocksOf (b : Nat) (bytes : List Byte) : List (Nat × List Byte) :=
  (List.range (ceilDiv bytes.length blockSize)).map fun i => (b + i, slice bytes (blockSize * i) blockSize)

/-! ## Superblock (Table 13-4, R347) -/

/-- Bytes 0 to 4,091. -/
def Superblock.body (x : Superblock) : List Byte :=
  let id (k : Nat) : List Byte := leBytes 8 (x.ids.getD k 0)
  leBytes 4 0x31534D43 ++ leBytes 2 1 ++ leBytes 1 x.layout ++ leBytes 1 x.count ++ leBytes 1 x.index ++ leBytes 1 x.failed ++
    leBytes 2 0 ++ leBytes 4 x.generation ++ leBytes 8 x.setId ++ id 0 ++ id 1 ++ id 2 ++ id 3 ++ leBytes 8 x.memberBlocks ++
    leBytes 4 x.journal ++ leBytes 4 x.dirEntries ++ leBytes 4 x.extents ++ leBytes 4 x.userMiB ++ leBytes 8 x.extBase ++
    leBytes 8 x.formatTime ++ zeroBytes 3996

def Superblock.bytes (x : Superblock) : List Byte := x.body ++ leBytes 4 (crc32 x.body)

/-- A copy that is valid, as its fields (R347). -/
def parseSuperblock (b : List Byte) : Option Superblock :=
  if leAt b 0 4 = 0x31534D43 ∧ leAt b 4 2 = 1 ∧ leAt b 4092 4 = crc32 (b.take 4092) then
    some { layout := leAt b 6 1, count := leAt b 7 1, index := leAt b 8 1, failed := leAt b 9 1, generation := leAt b 12 4,
           setId := leAt b 16 8, ids := (List.range 4).map fun k => leAt b (24 + 8 * k) 8, memberBlocks := leAt b 56 8,
           journal := leAt b 64 4, dirEntries := leAt b 68 4, extents := leAt b 72 4, userMiB := leAt b 76 4,
           extBase := leAt b 80 8, formatTime := leAt b 88 8 }
  else none

/-- The copy in force on an SSD: the valid one with the later GENERATION (R347). -/
def Ssd.superblock (x : Ssd) : Option Superblock :=
  match parseSuperblock (x.block 0), parseSuperblock (x.block 1) with
  | some a, some b => if later 32 b.generation a.generation then some b else some a
  | some a, none => some a
  | none, b => b

/-- Writes the superblock of every member in service: LBA 1, then LBA 0 (R347). -/
def State.writeSuperblocks (s : State) (sb : Superblock) : State :=
  let s := { s with media := { s.media with sb := some sb } }.wr Rec.SET_GENERATION sb.generation
  s.media.inService.foldl (fun t k => match t.media.portOf k with
    | some p =>
      let b := { sb with index := k }.bytes
      ((t.ssdWrite p 1 b).emit (.ssd p "Flush" 0 0)).ssdWrite p 0 b |>.emit (.ssd p "Flush" 0 0)
    | none => t) s

/-! ## Regions (Table 13-3) -/

def Superblock.dirStart (x : Superblock) : Nat := x.journal
def Superblock.mapStart (x : Superblock) : Nat := x.journal + x.dirEntries / 16
def Superblock.userStart (x : Superblock) : Nat := x.mapStart + ceilDiv (x.extents * 8) blockSize
def Superblock.setBlocks (x : Superblock) : Nat := dataMembers x.layout x.count * x.memberBlocks

/-- Set blocks of an extent (Table 13-3). -/
def extentBlocks : Nat := 16384

/-- Whether a number of extents fits (R348). -/
def regionsFit (total journal dir user n : Nat) : Bool :=
  let base := alignUp (journal + dir / 16 + ceilDiv (n * 8) blockSize + user * 256) extentBlocks
  decide (base + n * extentBlocks ≤ total)

/-- The largest number of extents for which every region fits (R348), found bit by bit. -/
def largestExtents (total journal dir user : Nat) : Nat :=
  (List.range 40).reverse.foldl (fun n k => if regionsFit total journal dir user (n + 2 ^ k) then n + 2 ^ k else n) 0

/-! ## Directory (Table 13-9) and extent map (R349) -/

def DirEntry.body (e : DirEntry) : List Byte :=
  leBytes 1 e.state ++ leBytes 1 e.cause ++ leBytes 1 e.streams ++ leBytes 1 0 ++ leBytes 4 e.clip ++ leBytes 2 e.startEpoch ++
    leBytes 2 e.stopEpoch ++ leBytes 4 e.firstTick ++ leBytes 4 e.stopTick ++ leBytes 4 e.extents ++ leBytes 4 e.records ++
    leBytes 8 e.startTime ++ leBytes 8 e.stopTime ++ leBytes 8 e.length ++ zeroBytes 140 ++ (e.name ++ zeroBytes 60).take 60

def DirEntry.bytes (e : DirEntry) : List Byte := if e = {} then zeroBytes 256 else e.body ++ leBytes 4 (crc32 e.body)

/-- An entry read from the directory; one that does not check is FREE. -/
def parseDir (b : List Byte) : DirEntry :=
  if leAt b 252 4 = crc32 (b.take 252) then
    { state := leAt b 0 1, cause := leAt b 1 1, streams := leAt b 2 1, clip := leAt b 4 4, startEpoch := leAt b 8 2,
      stopEpoch := leAt b 10 2, firstTick := leAt b 12 4, stopTick := leAt b 16 4, extents := leAt b 20 4, records := leAt b 24 4,
      startTime := leAt b 28 8, stopTime := leAt b 36 8, length := leAt b 44 8, name := slice b 192 60 }
  else {}

/-- The block of the directory that holds an entry, from the working copy. -/
def RecSt.dirBlock (r : RecSt) (i : Nat) : List Byte :=
  (List.range 16).flatMap fun k => (tget r.dir (i / 16 * 16 + k) {}).bytes

/-- Extents that no committed group has given to their clip yet: they stay free on the media set (R357). -/
def RecSt.uncommitted (r : RecSt) : List Nat :=
  r.clips.flatMap (fun c => c.2.fresh.map Prod.fst) ++
    (match r.run with | some x => (x.entries.filter fun e => e.type == 2).map JEntry.a | none => [])

/-- The block of the extent map that holds an extent's entry, from the working copy without what is not committed. -/
def RecSt.mapBlock (r : RecSt) (e : Nat) : List Byte :=
  let open' := r.uncommitted
  (List.range 512).flatMap fun k =>
    let i := e / 512 * 512 + k
    let x := if open'.contains i then (0, 0) else tget r.exts i (0, 0)
    leBytes 4 x.2 ++ leBytes 4 x.1

/-- FREE_EXTENTS: extents that no clip holds. -/
def RecSt.freeExtents (r : RecSt) : Nat :=
  match r.sb with
  | some sb => sb.extents - r.exts.length
  | none => 0

/-! ## Journal (Tables 13-10 and 13-11) -/

def JEntry.bytes (e : JEntry) : List Byte :=
  leBytes 1 e.type ++ leBytes 1 e.sub ++ leBytes 2 0 ++ leBytes 4 e.clip ++ leBytes 8 e.c ++ leBytes 8 e.b ++ leBytes 8 e.a

def parseJEntry (b : List Byte) : JEntry :=
  { type := leAt b 0 1, sub := leAt b 1 1, clip := leAt b 4 4, c := leAt b 8 8, b := leAt b 16 8, a := leAt b 24 8 }

/-- One journal block: its CRC covers the block with the field taken as 0 (R353). -/
def journalBlock (setId seq count index : Nat) (es : List JEntry) : List Byte :=
  let head (crc : Nat) : List Byte :=
    leBytes 1 0x4A ++ leBytes 1 1 ++ leBytes 1 index ++ leBytes 1 count ++ leBytes 1 es.length ++ leBytes 3 0 ++ leBytes 8 seq ++
      leBytes 8 setId ++ zeroBytes 36 ++ leBytes 4 crc
  let rest := es.flatMap JEntry.bytes ++ zeroBytes (4032 - 32 * es.length)
  head (crc32 (head 0 ++ rest)) ++ rest

/-- A journal block that checks: SEQ, block count, index and entries. -/
def parseJournal (setId : Nat) (b : List Byte) : Option (Nat × Nat × Nat × List JEntry) :=
  if leAt b 0 1 = 0x4A ∧ leAt b 1 1 = 1 ∧ leAt b 16 8 = setId ∧
      leAt b 60 4 = crc32 (b.take 60 ++ zeroBytes 4 ++ b.drop 64) ∧ leAt b 4 1 ≤ 126 then
    some (leAt b 8 8, leAt b 3 1, leAt b 2 1, (List.range (leAt b 4 1)).map fun i => parseJEntry (slice b (64 + 32 * i) 32))
  else none

/-- Journal entries in groups of one block. -/
def inBlocks : Nat → List JEntry → List (List JEntry)
  | 0, _ => []
  | n + 1, l => if l.length ≤ 126 then [l] else l.take 126 :: inBlocks n (l.drop 126)

/-- A checkpoint (R355): every changed directory entry and extent-map block in place, then Flush; the next group says so. -/
def State.checkpoint (s : State) : State :=
  match s.media.sb with
  | none => s
  | some sb =>
    let s := ((s.media.dirtyDir.map (· / 16)).eraseDups).foldl (fun t b => t.setWrite (sb.dirStart + b) (t.media.dirBlock (16 * b))) s
    let s := ((s.media.dirtyExt.map (· / 512)).eraseDups).foldl (fun t b => t.setWrite (sb.mapStart + b) (t.media.mapBlock (512 * b))) s
    ({ s with media := { s.media with
        dirtyDir := [], dirtyExt := s.media.uncommitted, announce := some (s.media.seq - 1), jblocks := 0, sinceCheck := 0 } }).count Rec.CHECKPOINTS

/-- Writes one commit group under the next SEQ, with the CHECKPOINT entry that a checkpoint owes (R353, R355). A checkpoint follows where the
journal written since the covered SEQ exceeds half of it, so that no later block is overwritten. -/
def State.journalGroup (s : State) (entries : List JEntry) : State :=
  match s.media.sb with
  | none => s
  | some sb =>
    let es := (match s.media.announce with | some q => [{ type := 7, a := q }] | none => []) ++ entries
    let blocks := inBlocks 64 es
    let s := (blocks.zipIdx).foldl (fun t e =>
      t.setWrite ((s.media.jpos + e.2) % max 1 sb.journal) (journalBlock sb.setId s.media.seq blocks.length e.2 e.1)) s
    let s := { s with media := { s.media with
        jpos := (s.media.jpos + blocks.length) % max 1 sb.journal
        seq := s.media.seq + 1
        covered := s.media.announce.getD s.media.covered
        announce := none
        jblocks := s.media.jblocks + blocks.length } }
    if sb.journal < 2 * s.media.jblocks then s.checkpoint else s

/-- Whether the commits since the latest checkpoint ask for one (R355). -/
def State.checkpointDue (s : State) : Bool := decide (s.rd Rec.CHECKPOINT_INTERVAL ≤ s.media.sinceCheck)

/-- Changes a directory entry in the working copy. -/
def State.setDir (s : State) (i : Nat) (e : DirEntry) : State :=
  { s with media := { s.media with
      dir := tset s.media.dir i {} e
      dirtyDir := if s.media.dirtyDir.contains i then s.media.dirtyDir else s.media.dirtyDir ++ [i] } }

/-- Changes extent map entries in the working copy; (0, 0) is free. -/
def State.setExts (s : State) (es : List Nat) (x : Nat → Nat × Nat) : State :=
  let m := s.media
  let s := { s with media := { m with
      exts := es.foldl (fun t e => tset t e (0, 0) (x e)) m.exts
      dirtyExt := (m.dirtyExt ++ es).eraseDups } }
  s.wr Rec.FREE_EXTENTS s.media.freeExtents

end Sys2Proof.Machine
end

