-- ==== Sys2Proof/Machine/Nvm.lean ====
section
/-! DEFINITION. What other units do to the storage target: its asynchronous events, the state of the namespaces, and the
commands that a failed member touches (R374 to R376, R396). -/

namespace Sys2Proof.Machine

/-! ## Completions -/

/-! The status codes of the storage target are 256 × SCT + SC. -/
namespace Nvme
def OK : Nat := 0x000
def INVALID_OPCODE : Nat := 0x001
def INVALID_FIELD : Nat := 0x002
def DATA_TRANSFER : Nat := 0x004
def INTERNAL : Nat := 0x006
def ABORT_REQUESTED : Nat := 0x007
def INVALID_NAMESPACE : Nat := 0x00B
def SEQUENCE : Nat := 0x00C
def WRITE_PROTECTED : Nat := 0x020
def LBA_RANGE : Nat := 0x080
def NOT_READY : Nat := 0x082
def ABORT_LIMIT : Nat := 0x103
def AER_LIMIT : Nat := 0x105
def FW_SLOT : Nat := 0x106
def FW_IMAGE : Nat := 0x107
def LOG_PAGE : Nat := 0x109
def FW_RESET : Nat := 0x10B
def NOT_CHANGEABLE : Nat := 0x10E
def FW_PROHIBITED : Nat := 0x113
def BUSY : Nat := 0x181
def CONNECT_PARAM : Nat := 0x182
def CONNECT_HOST : Nat := 0x184
def WRITE_FAULT : Nat := 0x280
def READ_ERROR : Nat := 0x281
def DENIED : Nat := 0x286
end Nvme

def State.assoc (s : State) (c : Nat) : Option Assoc := tfind s.tgt.assocs c
def State.setAssoc (s : State) (c : Nat) (a : Assoc) : State := { s with tgt := { s.tgt with assocs := tins s.tgt.assocs c a } }

/-- Completes a command of an association; a failure enters its Error Information log with the first LBA and the namespace
where it has them, and the 64 latest entries are kept. The retries of its queue pair start afresh. -/
def State.nvmeDoneAt (s : State) (c qid cid status result : Nat) (data : List Byte) (lba nsid : Nat) : State :=
  let q := (s.qps.find? fun (e : Nat × Qp) => e.2.use == QpUse.nvme c qid).map Prod.snd
  let port := (q.map Qp.port).getD 0
  let s := s.roceOut port (1 + ceilDiv data.length (max 1 ((q.map Qp.mtu).getD 1024))) (.nvme port (s.control port 1) c qid cid status result data)
  let s := { s with qps := s.qps.map fun (e : Nat × Qp) =>
    if e.2.use = QpUse.nvme c qid then (e.1, ({ e.2 with retries := 0, sentAt := s.clock } : Qp)) else e }
  match s.assoc c with
  | some a =>
    if status = 0 then s
    else s.setAssoc c { a with
      errors := ({ number := a.errorCount + 1, qid := qid, cid := cid, status := status, lba := lba, nsid := nsid } :: a.errors).take 64
      errorCount := a.errorCount + 1 }
  | none => s

/-- Completes a command that names no LBA. -/
def State.nvmeDone (s : State) (c qid cid status result : Nat) (data : List Byte) : State :=
  s.nvmeDoneAt c qid cid status result data 0 0

/-! ## Asynchronous events (R396) -/

/-- Dword 0 of an event: type, information and log page. Bit 0 is Namespace Attribute Changed, bit 1 SMART temperature. -/
def eventDword (k : Nat) : Nat := if k = 0 then 0x040002 else 0x020101

/-- Whether an association has the event enabled (R396): bit 8 of the configuration for Namespace Attribute notices, bit 1
for the temperature (PRESUMED: the bits of NVM Express). -/
def Assoc.wants (a : Assoc) (k : Nat) : Bool := if k = 0 then bit a.events 8 else bit a.events 1

/-- Raises an event at one association: it completes a request, or is held until the next one. -/
def State.raiseAt (s : State) (k c : Nat) : State :=
  match s.assoc c with
  | none => s
  | some a =>
    if a.wants k then
      match a.aers with
      | cid :: rest => (s.setAssoc c { a with aers := rest }).nvmeDone c 0 cid Nvme.OK (eventDword k) []
      | [] => s.setAssoc c { a with held := setFlag a.held k }
    else s

/-- Raises an event at every association. -/
def State.raiseEvent (s : State) (k : Nat) : State := (tkeys s.tgt.assocs).foldl (fun t c => t.raiseAt k c) s

/-! ## The namespaces (R374, R375) -/

/-- The namespaces are ready. -/
def State.nsReady (s : State) : Bool :=
  (s.rd Rec.MEDIA_STATE == 3 || s.rd Rec.MEDIA_STATE == 4 || s.rd Rec.MEDIA_STATE == 5) && s.media.formatting.isNone

/-- The size of a namespace in LBAs; 0 while it is not ready. -/
def State.nsSize (s : State) (nsid : Nat) : Nat :=
  match s.media.sb with
  | some sb => if s.nsReady then (if nsid = 1 then sb.setBlocks else sb.userMiB * 256) else 0
  | none => 0

/-- The set block of an LBA. -/
def State.nsBlock (s : State) (nsid lba : Nat) : Nat :=
  match s.media.sb with
  | some sb => if nsid = 1 then lba else sb.userStart + lba
  | none => lba

/-- What R375 watches. -/
def State.nsView (s : State) : Bool × Nat × Nat := (s.nsReady, s.nsSize 1, s.nsSize 2)

/-- A change of readiness or size since a state before: both NSIDs enter the Changed Namespace List, and the event is raised. -/
def State.nsWatch (s before : State) : State :=
  if s.nsView = before.nsView then s
  else
    let s := { s with tgt := { s.tgt with assocs := s.tgt.assocs.map fun (e : Nat × Assoc) => (e.1, { e.2 with changed := true }) } }
    s.raiseEvent 0

/-! ## Reads (R376) -/

/-- Target commands outstanding on a member. -/
def State.memberLoad (s : State) (k : Nat) : Nat := (s.tgt.cmds.filter fun (c : NvmeCmd) => c.members.contains k).length

/-- The copy of a set block that a read uses: in service, with fewer target commands outstanding, the lower member number on
a tie. -/
def State.readCopy (s : State) (b : Nat) : Option (Nat × Nat) :=
  match s.media.sb with
  | none => none
  | some sb =>
    ((setCopies sb.layout sb.count b).filter fun (c : Nat × Nat) => s.media.inService.contains c.1).foldl (fun best c => match best with
      | none => some c
      | some x => if s.memberLoad c.1 < s.memberLoad x.1 then some c else some x) none

/-- Blocks of a read in runs: (member, first LBA, count). -/
def State.readRuns (s : State) (b n : Nat) : List (Nat × Nat × Nat) :=
  ((List.range n).foldl (fun (acc : List (Nat × Nat × Nat)) i => match s.readCopy (b + i), acc with
    | none, _ => acc
    | some (k, l), (k', l', m) :: rest => if k = k' ∧ l = l' + m then (k', l', m + 1) :: rest else (k, l, 1) :: acc
    | some (k, l), [] => [(k, l, 1)]) []).reverse

/-- Issues the SSD reads of a command, and notes the members it uses. -/
def State.issueRead (s : State) (c : NvmeCmd) : State × NvmeCmd :=
  let runs := s.readRuns (s.nsBlock c.nsid c.slba) c.blocks
  (runs.foldl (fun (t : State) (r : Nat × Nat × Nat) => match t.media.portOf r.1 with
    | some p => t.emit (.ssd p (if c.fua then "Read FUA" else "Read") r.2.1 r.2.2)
    | none => t) s,
   { c with members := (runs.map fun (r : Nat × Nat × Nat) => r.1).eraseDups })

/-- A member has failed: reads that use it are issued again on the other copy (R376). -/
def State.reissueReads (s : State) (k : Nat) : State :=
  s.tgt.cmds.foldl (fun (t : State) (c : NvmeCmd) =>
    if c.stage = 2 ∧ c.op = 2 ∧ c.members.contains k then
      let (t, c') := t.issueRead c
      { t with tgt := { t.tgt with cmds := t.tgt.cmds.map fun (x : NvmeCmd) => if x = c then c' else x } }
    else t) s

end Sys2Proof.Machine
end

