-- ==== Sys2Proof/Machine/Recorder.lean ====
section
/-! DEFINITION. The recorder: mounting, clips, commits, lost frames and failed members (R348, R350 to R368). -/

namespace Sys2Proof.Machine

/-! ## Notices -/

/-- A recording NOTIFY (R367). -/
def State.recNotify (s : State) (code amount clip port value : Nat) : State :=
  s.notify 7 code (leBytes 1 value ++ leBytes 1 port ++ leBytes 2 0 ++ leBytes 4 clip ++ leBytes 8 amount)

/-- The recorder runs in READY and RUN, from the end of WARMUP (R366). -/
def State.recorderRuns (s : State) : Bool := s.pow.global == .ready || s.pow.global == .run

def State.mediaTo (s : State) (st : Nat) : State :=
  if s.rd Rec.MEDIA_STATE = st then s else ((s.wr Rec.MEDIA_STATE st).recNotify 2 0 0 0xFF st).fire 195

def State.memberTo (s : State) (p st : Nat) : State :=
  if s.rd (Rec.MEMBER_STATE p) = st then s else (s.wr (Rec.MEMBER_STATE p) st).recNotify 3 0 0 p st

/-- Root ports of a bifurcation (Table 13-1). -/
def rootPorts (b : Nat) : Nat := [1, 2, 4].getD b 4

/-! ## Mounting (R356) -/

/-- Every set block has a copy on a member in service (Table 13-12). -/
def setCovered (layout count : Nat) (members : List Nat) : Bool :=
  match layout with
  | 0 => (List.range count).all members.contains
  | 1 => members.contains 0 || members.contains 1
  | _ => (members.contains 0 || members.contains 1) && (members.contains 2 || members.contains 3)

/-- What stands on a root port shows in its parameters: the trained link, within PCIE_SPEED_MAX and the lanes of the port (Table 13-2), the capacity
and the identity; an SSD that lacks a required property, or without identity, is UNSUPPORTED (R344). -/
def State.memberShow (s : State) (p : Nat) (x : SsdInfo) : State :=
  let n := rootPorts (s.rd Rec.PCIE_BIFURCATION)
  let s := s.wrAll [(Rec.MEMBER_LINK p, min x.gen (s.rd Rec.PCIE_SPEED_MAX) * 256 + min x.width (16 / n)), (Rec.MEMBER_CAPACITY p, x.capacity),
    (Rec.MEMBER_ID p, x.id)]
  if p < n then s.memberTo p (if x.supported && x.id != 0 then 2 else 1) else s

/-- Root ports whose SSD may serve: present, supported and not FAILED. -/
def State.usablePorts (s : State) : List Nat :=
  (List.range (rootPorts (s.rd Rec.PCIE_BIFURCATION))).filter fun p =>
    match tfind s.media.ssds p with
    | some x => x.info.supported && x.info.id != 0 && s.rd (Rec.MEMBER_STATE p) != 6
    | none => false

/-- The superblocks in force by root port. -/
def State.superblocks (s : State) : List (Nat × Superblock) :=
  s.usablePorts.filterMap fun p => ((tfind s.media.ssds p).bind Ssd.superblock).map fun b => (p, b)

/-- The journal blocks that check, each with its place. -/
def State.journalBlocks (s : State) (sb : Superblock) : List (Nat × Nat × Nat × Nat × List JEntry) :=
  (List.range sb.journal).filterMap fun b => (parseJournal sb.setId (s.setRead b)).map fun e => (b, e)

/-- The committed groups of the journal: SEQ and entries, where every block of the group is there (R357). -/
def journalGroups (found : List (Nat × Nat × Nat × Nat × List JEntry)) : Table (List JEntry) :=
  let blocks := found.map Prod.snd
  let seqs := (blocks.map fun b => b.1).eraseDups
  seqs.foldl (fun t q =>
    let mine := blocks.filter fun b => b.1 == q
    let n := (mine.map fun b => b.2.1).foldl max 0
    let parts := (List.range n).map fun i => (mine.find? fun b => b.2.2.1 == i).map fun b => b.2.2.2
    if parts.all Option.isSome then tins t q (parts.flatMap fun o => o.getD []) else t) []

/-- The directory index that holds a clip. -/
def RecSt.dirOf (r : RecSt) (clip : Nat) : Option Nat := (r.dir.find? fun e => e.2.clip == clip && e.2.state != 0).map Prod.fst

/-- Extents of a clip. -/
def RecSt.extsOf (r : RecSt) (clip : Nat) : List Nat := (r.exts.filter fun e => e.2.1 == clip).map Prod.fst

/-- Replays one journal entry: every entry sets absolute values (R353). -/
def State.replay (s : State) (e : JEntry) : State :=
  let onDir (f : DirEntry → DirEntry) : State := match s.media.dirOf e.clip with
    | some i => s.setDir i (f (tget s.media.dir i {}))
    | none => s
  match e.type with
  | 1 => s.setDir e.c { tget s.media.dir e.c {} with
      state := 1, clip := e.clip, streams := e.sub, startTime := e.a, startEpoch := bits e.b 47 32, firstTick := bits e.b 31 0 }
  | 2 => (s.setExts [e.a] fun _ => (e.clip, e.b))
  | 3 => onDir fun d => { d with length := e.a, records := e.b % 2 ^ 32 }
  | 4 => onDir fun d => { d with
      state := 2, cause := e.sub, stopTime := e.a, stopEpoch := bits e.b 47 32, stopTick := bits e.b 31 0, length := e.c }
  | 5 => match s.media.dirOf e.clip with
    | some i => (s.setDir i {}).setExts (s.media.extsOf e.clip) fun _ => (0, 0)
    | none => s
  | _ => s

/-- Replays groups in ascending SEQ from `q`, up to the first missing one; answers the next SEQ. -/
def State.replayFrom (t : Table (List JEntry)) : Nat → Nat → State → Nat × State
  | 0, q, s => (q, s)
  | n + 1, q, s => match tfind t q with
    | some es => State.replayFrom t n (q + 1) (es.foldl State.replay s)
    | none => (q, s)

/-- Step 4 of recovery: entries still OPEN are freed where empty and RECOVERED otherwise. -/
def State.closeOpen (s : State) : State :=
  s.media.dir.foldl (fun t e =>
    if e.2.state = 1 then
      let t := if e.2.length = 0 then (t.setDir e.1 {}).setExts (t.media.extsOf e.2.clip) fun _ => (0, 0)
        else t.setDir e.1 { e.2 with state := 3, cause := 3, extents := (t.media.extsOf e.2.clip).length }
      t.count Rec.CLIPS_RECOVERED
    else t) s

/-- Recovery (R357). -/
def State.recover (s : State) (sb : Superblock) : State :=
  let dir := (List.range (sb.dirEntries / 16)).foldl (fun t b =>
    let blk := s.setRead (sb.dirStart + b)
    (List.range 16).foldl (fun t k => tset t (16 * b + k) {} (parseDir (slice blk (256 * k) 256))) t) []
  let exts := (List.range (ceilDiv (sb.extents * 8) blockSize)).foldl (fun t b =>
    let blk := s.setRead (sb.mapStart + b)
    (List.range 512).foldl (fun t k => tset t (512 * b + k) (0, 0) (leAt blk (8 * k + 4) 4, leAt blk (8 * k) 4)) t) []
  let found := s.journalBlocks sb
  let groups := journalGroups found
  let covered := groups.foldl (fun c g => match g.2.find? fun e => e.type == 7 with | some e => e.a | none => c) 0
  let s := { s with media := { s.media with dir := dir, exts := exts, dirtyDir := [], dirtyExt := [], covered := covered } }
  let (next, s) := State.replayFrom groups groups.length (covered + 1) s
  let latest := found.filter fun b => b.2.1 + 1 == next
  let jpos := match latest.find? fun b => b.2.2.2.1 + 1 == b.2.2.1 with | some b => (b.1 + 1) % max 1 sb.journal | none => 0
  let last := match s.media.dir.map fun e => e.2.clip with
    | [] => 0
    | c :: r => r.foldl (fun a c => if later 32 c a then c else a) c
  let s := { s with media := { s.media with seq := next, jpos := jpos, lastClip := last, lastExtent := none, jblocks := 0 } }
  s.closeOpen.checkpoint

/-- Classifies the members and selects the set (R356), then recovers it (R357). -/
def State.mount (s : State) : State :=
  let sbs := s.superblocks
  match sbs.head? with
  | none =>
    let s := s.usablePorts.foldl (fun t p => t.memberTo p 2) s
    let s := { s with media := { s.media with sb := none, ports := [], inService := [], dir := [], exts := [] } }
    (s.wrAll [(Rec.SET_ID, 0), (Rec.SET_GENERATION, 0), (Rec.TOTAL_EXTENTS, 0), (Rec.FREE_EXTENTS, 0)]).mediaTo
      (if s.usablePorts = [] then 0 else 1)
  | some first =>
    let mine := sbs.filter fun e => e.2.setId == first.2.setId
    let gen := mine.foldl (fun g e => if later 32 e.2.generation g then e.2.generation else g) first.2.generation
    let sb := ((mine.find? fun e => e.2.generation == gen).map Prod.snd).getD first.2
    let served := mine.filter fun e => e.2.generation == gen && !bit sb.failed e.2.index
    let s := s.usablePorts.foldl (fun t p => match sbs.find? fun e => e.1 == p with
      | none => t.memberTo p 2
      | some e =>
        if e.2.setId ≠ sb.setId then t.memberTo p 5
        else if served.any fun x => x.1 == p then t.memberTo p 3
        else t.memberTo p 4) s
    let ports := (List.range sb.count).map fun k => (served.find? fun e => e.2.index == k).map Prod.fst
    let members := (List.range sb.count).filter fun k => (ports.getD k none).isSome
    let s := { s with media := { s.media with sb := some sb, ports := ports, inService := members } }
    let s := s.wrAll [(Rec.SET_ID, sb.setId), (Rec.SET_GENERATION, gen), (Rec.SET_LAYOUT, sb.layout), (Rec.TOTAL_EXTENTS, sb.extents)]
    if setCovered sb.layout sb.count members then
      let s := s.recover sb
      (s.wr Rec.FREE_EXTENTS s.media.freeExtents).mediaTo (if members.length = sb.count then 3 else 4)
    else s.mediaTo 2

/-- MEDIA_MOUNT (R356): at the end of WARMUP, and after a change of a member while no clip is open. -/
def execMediaMount (s : State) : Host.Outcome State Fault Refusal :=
  .next (if s.recorderRuns ∧ s.media.clips = [] ∧ s.media.rebuilding = none ∧ s.media.formatting = none then s.mount.nsWatch s else s)

/-! ## Formatting (R348) -/

/-- The status of a MEDIA_FORMAT request (R348). -/
def State.formatBad (s : State) (b : List Byte) : Nat :=
  let layout := leAt b 0 1
  let mask := leAt b 1 1
  let journal := leAt b 4 4
  let dir := leAt b 8 4
  let user := leAt b 12 4
  let ports := setBits 8 mask
  let n := ports.length
  let countOk := match layout with | 0 => decide (1 ≤ n ∧ n ≤ 4) | 1 => n == 2 | _ => n == 4
  let bad (p : Nat) : Bool := s.rd (Rec.MEMBER_STATE p) == 0 || s.rd (Rec.MEMBER_STATE p) == 1 || s.rd (Rec.MEMBER_STATE p) == 6
  if 2 < layout ∨ 16 ≤ mask ∨ leAt b 2 2 ≠ 0 ∨ journal < 4096 ∨ 262144 < journal ∨ dir < 4096 ∨ 1048576 < dir ∨ dir % 16 ≠ 0 ∨
      1048576 < user then Status.RANGE
  else if s.media.clips ≠ [] ∨ s.rd Rec.MEDIA_STATE = 5 ∨ !countOk ∨ ports.any bad then Status.CONFLICT
  else Status.OK

/-- The superblock of a format: sizes by R348, GENERATION 1. -/
def State.formatSb (s : State) (setId layout : Nat) (ports : List Nat) (journal dir user : Nat) : Superblock :=
  let cap (p : Nat) : Nat := s.rd (Rec.MEMBER_CAPACITY p)
  let least := ports.foldl (fun m p => min m (cap p)) (cap (ports.getD 0 0))
  let blocks := (least - 256) / 256 * 256
  let total := dataMembers layout ports.length * blocks
  let n := largestExtents total journal dir user
  { formatTime := s.deviceTime, extBase := alignUp (journal + dir / 16 + ceilDiv (n * 8) blockSize + user * 256) extentBlocks,
    userMiB := user, extents := n, dirEntries := dir, journal := journal, memberBlocks := blocks,
    ids := ports.map fun p => s.rd (Rec.MEMBER_ID p), setId := setId, generation := 1, failed := 0, index := 0,
    count := ports.length, layout := layout }

/-- MEDIA_FORMAT_DONE (R348): zeros over directory and extent map, superblocks, and the reply. The writes start only after
every fetched I/O command has completed (R375), so before that they cannot be done. -/
def execMediaFormatDone (s : State) : Host.Outcome State Fault Refusal :=
  .next (match s.media.formatting with
    | none => s
    | some (layout, ports, journal, dir, user) =>
      if s.tgt.cmds ≠ [] then s
      else
      let before := s
      let (k, s) := s.draw
      let sb := s.formatSb (Config.recordHandle k).toNat layout ports journal dir user
      let s := { s with media := { s.media with
          formatting := none, sb := some sb, ports := ports.map some, inService := List.range ports.length, dir := [], exts := [],
          dirtyDir := [], dirtyExt := [], lastClip := 0, lastExtent := none, jpos := 0, seq := 1, covered := 0, jblocks := 0,
          sinceCheck := 0, announce := none } }
      let s := (List.range (dir / 16 + ceilDiv (sb.extents * 8) blockSize)).foldl (fun t b =>
        t.setWrite (sb.dirStart + b) (zeroBytes blockSize)) s
      let s := s.writeSuperblocks sb
      let s := s.wrAll [(Rec.SET_ID, sb.setId), (Rec.SET_LAYOUT, layout), (Rec.TOTAL_EXTENTS, sb.extents), (Rec.FREE_EXTENTS, sb.extents)]
      let s := ports.foldl (fun t p => t.memberTo p 3) s
      ((s.mediaTo 3).nsWatch before).release .mediaFormat Status.OK)

/-! ## Rebuilding (R364) -/

/-- The member a rebuild replaces: the first out of service. -/
def State.rebuildIndex (s : State) : Option Nat :=
  match s.media.sb with
  | some sb => (List.range sb.count).find? fun k => !s.media.inService.contains k
  | none => none

/-- The status of a MEDIA_REBUILD request. -/
def State.rebuildBad (s : State) (p : Nat) : Nat :=
  let st := s.rd (Rec.MEMBER_STATE p)
  match s.media.sb with
  | none => Status.CONFLICT
  | some sb =>
    if s.rd Rec.MEDIA_STATE ≠ 4 ∨ s.media.clips ≠ [] ∨ (st ≠ 2 ∧ st ≠ 4 ∧ st ≠ 5) ∨ s.rd (Rec.MEMBER_CAPACITY p) < sb.memberBlocks + 256 then
      Status.CONFLICT
    else Status.OK

/-- A rebuild starts. -/
def State.rebuildStart (s : State) (p : Nat) : State :=
  match s.rebuildIndex with
  | none => s
  | some k => ((({ s with media := { s.media with rebuilding := some (k, p) } }).wr Rec.REBUILD_PROGRESS 0).memberTo p 7).mediaTo 5

/-- MEDIA_REBUILD_DONE (R364): the regions and every allocated extent are on the new member, and every member gets
GENERATION + 1 with the bit cleared. -/
def execMediaRebuildDone (s : State) : Host.Outcome State Fault Refusal :=
  .next (match s.media.rebuilding, s.media.sb with
    | some (k, p), some sb =>
      let live : List Nat := (List.range (sb.userStart + sb.userMiB * 256)) ++
        s.media.exts.flatMap fun e => (List.range extentBlocks).map fun i => sb.extBase + e.1 * extentBlocks + i
      let s := live.foldl (fun t b =>
        match (setCopies sb.layout sb.count b).find? fun c => c.1 == k with
        | some c => t.ssdWrite p c.2 (t.setRead b)
        | none => t) s
      let ports := (List.range sb.count).map fun i => if i = k then some p else s.media.portOf i
      let serving := (List.range sb.count).filter fun i => s.media.inService.contains i || i == k
      let s := { s with media := { s.media with rebuilding := none, ports := ports, inService := serving } }
      let ids := (List.range 4).map fun i => if i = k then s.rd (Rec.MEMBER_ID p) else sb.ids.getD i 0
      let sb' := { sb with generation := (sb.generation + 1) % 2 ^ 32, failed := clearFlag sb.failed k, ids := ids }
      let s := (s.writeSuperblocks sb').wr Rec.REBUILD_PROGRESS 1000
      (s.memberTo p 3).mediaTo (if s.media.inService.length = sb.count then 3 else 4)
    | _, _ => s)

/-! ## The clip byte stream (R349, R350) -/

/-- Bytes of an extent: 64 MiB. -/
def extentBytes : Nat := extentBlocks * blockSize

/-- The next free extent in ascending order after the one allocated last, wrapping (R349). DESIGN CHOICE: where none has been allocated since the mount
or the format, the search begins at extent 0. -/
def RecSt.nextExtent (r : RecSt) : Option Nat :=
  match r.sb with
  | none => none
  | some sb => ((List.range sb.extents).map fun i => (((r.lastExtent.map (· + 1)).getD 0) + i) % sb.extents).find? fun e => (tfind r.exts e).isNone

def State.clip (s : State) (cc : Nat) : Option Clip := tfind s.media.clips cc
def State.setClip (s : State) (cc : Nat) (c : Clip) : State := { s with media := { s.media with clips := tins s.media.clips cc c } }

/-- Extents the stream of a clip must have for it to hold `n` more bytes. -/
def Clip.extentsFor (c : Clip) (n : Nat) : Nat := ceilDiv (c.off + n) extentBytes - c.extents.length

/-- Gives a clip extents for `n` more bytes. -/
def State.extend (s : State) (cc n : Nat) : State :=
  match s.clip cc with
  | none => s
  | some c => (List.range (c.extentsFor n)).foldl (fun t _ =>
      match t.media.nextExtent, t.clip cc with
      | some e, some c =>
        let t := t.setExts [e] fun _ => (c.id, c.extents.length)
        let t := { t with media := { t.media with lastExtent := some e } }
        t.setClip cc { c with extents := c.extents ++ [e], fresh := c.fresh ++ [(e, c.extents.length)] }
      | _, _ => t) s

/-- Writes bytes of a clip at a block-aligned offset. -/
def State.clipWrite (s : State) (cc off : Nat) (bytes : List Byte) : State :=
  match s.clip cc, s.media.sb with
  | some c, some sb => (blocksOf (off / blockSize) bytes).foldl (fun t b =>
      match c.extents[b.1 / extentBlocks]? with
      | some e => t.setWrite (sb.extBase + extentBlocks * e + b.1 % extentBlocks) b.2
      | none => t) s
  | _, _ => s

/-! Chunk types (Table 13-6). -/
namespace Chunk
def CLIP_INFO : Nat := 1
def VIDEO : Nat := 2
def AUDIO : Nat := 3
def TICKET : Nat := 4
def INDEX : Nat := 5
def META : Nat := 6
end Chunk

/-- The bytes of a chunk: header of Table 13-6, payload, padding to 4,096 bytes (R350). -/
def chunkBytes (type stream clip count time : Nat) (payload : List Byte) : List Byte :=
  let head := leBytes 1 0x43 ++ leBytes 1 type ++ leBytes 1 stream ++ leBytes 5 0 ++ leBytes 4 clip ++ leBytes 4 count ++ leBytes 8 time ++
    leBytes 8 payload.length ++ zeroBytes 28
  padTo blockSize (head ++ leBytes 4 (crc32 head) ++ payload)

/-- Bytes a chunk of `n` payload bytes takes. -/
def chunkSize (n : Nat) : Nat := alignUp (64 + n) blockSize

/-- Appends a chunk to a clip and writes it. -/
def State.clipChunk (s : State) (cc type stream count time : Nat) (payload : List Byte) : State :=
  let s := s.extend cc (chunkSize payload.length)
  match s.clip cc with
  | none => s
  | some c =>
    let s := s.clipWrite cc c.off (chunkBytes type stream c.id count time payload)
    match s.clip cc with
    | some c => s.setClip cc { c with off := c.off + chunkSize payload.length }
    | none => s

/-! ## Rates and reserves (R362, R365) -/

/-- The largest VIDEO chunk of a port in bytes. -/
def State.largestChunk (s : State) (p : Nat) : Nat :=
  let g := s.rd (Ing.ING_GEOMETRY p)
  chunkSize (trfMaxBytes (s.rd (Trf.TRF_MODE p) == 1) (widthBits (s.rd (Ing.ING_WIDTH p))) (s.budgetInForce p) (bits g 31 16) (bits g 15 0))

/-- The reserve of a clip in extents (R362). -/
def Clip.reserve (c : Clip) : Nat := ceilDiv (2 * (c.streams.map ClipStream.largest).sum + extentBytes) extentBytes

/-- Chunk bytes per second of a video port: chunks per second × bytes, rounded up. -/
def State.videoRate (s : State) (p : Nat) : Nat :=
  ceilDiv (s.largestChunk p * s.rd Tick.TICK_RATE_N)
    (s.rd Tick.TICK_RATE_D * max 1 (s.rd (Ctx.TICK_DIVISOR (s.rd (Ing.CONTEXT p)))))

/-- The charge of resource 0x08 for video and audio ports of one clip (R365): each term per second, its per-commit chunks padded,
rounded up. -/
def State.clipRate (s : State) (video audio : List Nat) : Nat :=
  let ms := s.rd Rec.COMMIT_INTERVAL
  let perCommit (bytes : Nat) : Nat := ceilDiv (bytes * 1000) ms
  let frames (p : Nat) : Nat := ceilDiv (s.rd Tick.TICK_RATE_N * ms)
    (1000 * s.rd Tick.TICK_RATE_D * max 1 (s.rd (Ctx.TICK_DIVISOR (s.rd (Ing.CONTEXT p)))))
  let n := (video.map frames).sum
  let aud (p : Nat) : Nat := chunkSize (ceilDiv (s.audRate p * ms) 1000 * popcount 32 (s.rd (Aud.SLOT_MASK p)) *
    packBytes (packing (s.rd (Aud.SAMPLE_FORMAT p))))
  (video.map s.videoRate).sum + perCommit (((audio.map aud).sum) + chunkSize (n * 128) + chunkSize (n * 32) + 65536)

/-- Ports of a kind in a clip. -/
def Clip.portsOf (c : Clip) (kind : Nat) : List Nat := (c.streams.filter fun x => x.kind == kind).map ClipStream.port

/-- The admitted recording rate: all open clips. -/
def State.recordRate (s : State) : Nat := (s.media.clips.map fun e => s.clipRate (e.2.portsOf 0) (e.2.portsOf 1)).sum

/-- RECORD_SECONDS_LEFT (R362). -/
def State.secondsLeft (s : State) : Nat :=
  if s.recordRate = 0 then 0 else s.media.freeExtents * extentBytes / s.recordRate

/-- RECORD_SECONDS_LEFT follows, and the warning when it falls below FULL_WARNING (R362). -/
def State.fullWarning (s : State) : State :=
  let left := s.secondsLeft
  let low := decide (s.media.clips ≠ []) && decide (left < s.rd Rec.FULL_WARNING)
  let s := s.wr Rec.RECORD_SECONDS_LEFT left
  let s := if low && !s.media.warned then s.recNotify 5 left 0 0xFF 0 else s
  { s with media := { s.media with warned := low } }

/-! ## Starting and stopping (R358 to R360) -/

/-- A port is in an open clip. -/
def State.clipUses (s : State) (kind p : Nat) : Bool := s.media.clips.any fun e => (e.2.portsOf kind).contains p

/-- The stream descriptor of a port (Table 13-7). -/
def State.streamDesc (s : State) (stream kind p : Nat) : List Byte :=
  let ctx := s.rd (Ing.CONTEXT p)
  let g := s.rd (Ing.ING_GEOMETRY p)
  let head := leBytes 1 stream ++ leBytes 1 kind ++ leBytes 1 p
  let rate := leBytes 4 (s.rd Tick.TICK_RATE_N) ++ leBytes 2 (s.rd Tick.TICK_RATE_D) ++ zeroBytes 8
  if kind = 0 then
    head ++ leBytes 1 ctx ++ leBytes 1 (s.rd (Ing.ING_WIDTH p)) ++ leBytes 1 (s.rd (Ing.CFA_PHASE p)) ++ leBytes 1 (s.rd (Trf.TRF_MODE p)) ++
      leBytes 1 (s.rd (Trf.BUDGET_IN_FORCE p)) ++ leBytes 1 (s.rd (Ctx.TICK_DIVISOR ctx)) ++ leBytes 1 0 ++ leBytes 2 (bits g 31 16) ++
      leBytes 2 (bits g 15 0) ++ leBytes 4 0 ++ rate
  else
    head ++ leBytes 1 0 ++ leBytes 1 (packing (s.rd (Aud.SAMPLE_FORMAT p))) ++ leBytes 5 0 ++ leBytes 2 (popcount 32 (s.rd (Aud.SLOT_MASK p))) ++
      leBytes 2 0 ++ leBytes 4 (s.audRate p) ++ rate

/-- The streams of a clip: video ports ascending, then audio ports (Table 13-7). -/
def State.clipStreams (s : State) (video audio : List Nat) : List ClipStream :=
  let v := video.zipIdx.map fun (e : Nat × Nat) =>
    ({ stream := e.2, kind := 0, port := e.1, ctx := s.rd (Ing.CONTEXT e.1), desc := s.streamDesc e.2 0 e.1,
       largest := s.largestChunk e.1, space := s.rd (Rend.WORKING_SPACE (s.rd (Ing.CONTEXT e.1))) } : ClipStream)
  let a := audio.zipIdx.map fun (e : Nat × Nat) =>
    ({ stream := video.length + e.2, kind := 1, port := e.1, desc := s.streamDesc (video.length + e.2) 1 e.1 } : ClipStream)
  v ++ a

/-- A video port that cannot be recorded (R358). -/
def State.videoBad (s : State) (p : Nat) : Bool :=
  s.rd (Port.PORT_ENABLE p) == 0 || s.rd (Port.BOND_LEADER p) != p || (s.boundCtx p).isNone || s.clipUses 0 p

/-- The clip slots that are FREE. -/
def State.freeClipSlot (s : State) : Option Nat := (List.range 4).find? fun cc => (s.clip cc).isNone

/-- The lowest FREE directory entry (R352). -/
def State.freeDir (s : State) : Option Nat :=
  match s.media.sb with
  | some sb => (List.range sb.dirEntries).find? fun i => (tget s.media.dir i {}).state == 0
  | none => none

/-- The Device Time at which a later tick edge is to fall, `k` edges after the latest. -/
def State.edgeTime (s : State) (k : Nat) : Nat :=
  deviceTimeAt s.time (s.gridEdge (s.tick.pos + k * (1000000000 * s.rd Tick.TICK_RATE_D)))

/-- The status of a CLIP_START request before admission (R358, R364, R414). -/
def State.clipStartBad (s : State) (b : List Byte) : Nat :=
  let video := setBits 16 (leAt b 8 2)
  let audio := setBits 8 (leAt b 10 1)
  let at' := leAt b 0 1 % 2 = 1
  let start := leAt b 12 4
  let want : Clip := { id := 0, dir := 0, streams := s.clipStreams video audio, firstTick := 0 }
  if b.length ≠ 80 ∨ video = [] then Status.BAD_PARAM
  else if (s.rd Rec.MEDIA_STATE ≠ 3 ∧ s.rd Rec.MEDIA_STATE ≠ 4) ∨ video.any s.videoBad ∨
      audio.any (fun p => s.rd (Aud.DIRECTION p) != 0 || s.rd (Aud.HOST_FLOW p) != 0) then Status.CONFLICT
  else if s.freeClipSlot.isNone ∨ s.freeDir.isNone ∨ s.media.freeExtents < want.reserve then Status.NO_RESOURCE
  else if at' ∧ !(later 32 start ((s.tickSeq + 1) % 2 ^ 32)) then Status.TICKET_PAST
  else Status.OK

/-- Opens a clip that admission has accepted (R352, R358): directory entry, CLIP_INFO, CLIP_OPEN, and the reply. -/
def State.clipOpen (s : State) (r : Req) (b : List Byte) : State :=
  let video := setBits 16 (leAt b 8 2)
  let audio := setBits 8 (leAt b 10 1)
  let first := if leAt b 0 1 % 2 = 1 then leAt b 12 4 else (s.tickSeq + 1) % 2 ^ 32
  match s.freeClipSlot, s.freeDir with
  | some cc, some i =>
    let id := if (s.media.lastClip + 1) % 2 ^ 32 = 0 then 1 else (s.media.lastClip + 1) % 2 ^ 32
    let streams := s.clipStreams video audio
    let start := s.edgeTime ((first + 2 ^ 32 - s.tickSeq) % 2 ^ 32)
    let d : DirEntry := { state := 1, clip := id, streams := streams.length, firstTick := first, startTime := start,
                          startEpoch := s.epoch, name := slice b 20 60 }
    let s := ({ s with media := { s.media with lastClip := id } }).setDir i d
    let s := match s.media.sb with
      | some sb => s.setWrite (sb.dirStart + i / 16) (s.media.dirBlock i)
      | none => s
    let s := s.media.inService.foldl (fun t k => match t.media.portOf k with | some p => t.emit (.ssd p "Flush" 0 0) | none => t) s
    let s := s.setClip cc { id := id, dir := i, streams := streams, firstTick := first }
    let s := s.clipChunk cc Chunk.CLIP_INFO 0 0 s.deviceTime (streams.flatMap ClipStream.desc)
    let fresh := ((s.clip cc).map Clip.fresh).getD []
    let s := s.journalGroup ({ type := 1, sub := streams.length, clip := id, a := start, b := s.epoch * 2 ^ 32 + first, c := i } ::
      fresh.map fun (e : Nat × Nat) => ({ type := 2, clip := id, a := e.1, b := e.2 } : JEntry))
    let s := match s.clip cc with | some c => s.setClip cc { c with fresh := [] } | none => s
    let s := s.wrAll [(Rec.CLIP_SLOT_ID cc, id), (Rec.CLIP_SLOT_STATE cc, 1), (Rec.CLIP_LENGTH cc, 0), (Rec.CLIP_FRAMES cc, 0),
      (Rec.OPEN_CLIPS, s.media.clips.length)]
    s.fullWarning.reply r 0x60 Status.OK (leBytes 1 cc ++ leBytes 3 0 ++ leBytes 4 id ++ leBytes 4 0 ++ leBytes 4 first)
  | _, _ => s.reply r 0x60 Status.NO_RESOURCE []

/-- Sets the stop of a clip (R360, R362, R363). At a tick that has passed, the stop edge lies its whole periods back: the clip's stop time and the end
of its audio are those of that edge. -/
def State.stopClip (s : State) (cc stop cause : Nat) (req : Option Req) : State :=
  match s.clip cc with
  | none => s
  | some c =>
    let c : Clip := { c with stopTick := some stop, cause := cause, stopReq := req }
    let c : Clip := if laterEq 32 s.tickSeq stop then
        let edge := s.gridEdge (s.tick.pos - (s.tickSeq + 2 ^ 32 - stop) % 2 ^ 32 * (1000000000 * s.rd Tick.TICK_RATE_D))
        { c with
          stopped := true, stopTime := deviceTimeAt s.time edge, stopEpoch := s.epoch
          streams := c.streams.map fun x => if x.kind = 1 then { x with endPos := some (s.audPosAt x.port edge) } else x }
      else c
    (s.setClip cc c).wr (Rec.CLIP_SLOT_STATE cc) 2

/-- The reply payload of a stop. -/
def Clip.stopPayload (c : Clip) : List Byte := leBytes 4 (c.stopTick.getD 0) ++ leBytes 4 c.records ++ leBytes 8 c.length

/-- CLIP_STOP (R360). -/
def execClipStop (r : Req) (payload : List Byte) (s : State) : Host.Outcome State Fault Refusal :=
  .next (s.request r 0x61 fun s =>
    if s.owns r.sess 57 = false then s.reply r 0x61 Status.NOT_OWNER []
    else
      let hit := s.media.clips.find? fun e => e.2.id == leAt payload 8 4
      match hit with
      | none => s.reply r 0x61 Status.BAD_PARAM []
      | some (cc, c) =>
        let at' := leAt payload 0 1 % 2 = 1
        let stop := if at' then leAt payload 4 4 else (s.tickSeq + 1) % 2 ^ 32
        if payload.length ≠ 12 then s.reply r 0x61 Status.BAD_PARAM []
        else if c.stopTick.isSome then s.reply r 0x61 Status.CONFLICT c.stopPayload
        else if !(later 32 stop s.tickSeq) then s.reply r 0x61 Status.TICKET_PAST []
        else s.stopClip cc stop 0 (some r))

/-! ## Frames (R359, R361, R362) -/

/-- A frame belongs to a clip by its tick (R359). -/
def Clip.includes (c : Clip) (t : Nat) : Bool :=
  laterEq 32 t c.firstTick && (match c.stopTick with | some e => later 32 e t | none => true)

/-- The clip slot and stream that record a video port. -/
def State.clipOfPort (s : State) (p : Nat) : Option (Nat × Clip × ClipStream) :=
  s.media.clips.findSome? fun e => (e.2.streams.find? fun x => x.kind == 0 && x.port == p).map fun x => (e.1, e.2, x)

/-- Frames of a port with a written ticket that its clip includes and has not taken, oldest first. -/
def State.untaken (s : State) (p : Nat) (c : Clip) (x : ClipStream) : List Frame :=
  let fs := ((s.ingest p).slots.map Prod.snd).filter fun f =>
    f.ticketWritten && c.includes f.tickSeq && (match x.lastNumber with | some n => decide (n < f.number) | none => true)
  fs.foldl (fun l f => (l.filter fun g => decide (g.number < f.number)) ++ f :: l.filter fun g => !decide (g.number < f.number)) []

/-- Adds a frame to a clip; its stream has taken it. -/
def State.takeFrame (s : State) (cc : Nat) (x : ClipStream) (f : ClipFrame) : State :=
  match s.clip cc with
  | none => s
  | some c => s.setClip cc { c with
      frames := c.frames ++ [f]
      streams := c.streams.map fun y => if y.stream = x.stream then { y with lastNumber := some f.number } else y }

/-- The payload of a VIDEO chunk: the tile array or the lossless object (R350). -/
def Frame.media (f : Frame) : List Byte :=
  if f.cfg.lossless then losslessObject f.tiles else f.tiles.flatMap fun r => r.flatMap id

/-- A clip still takes frames outside its reserve: no stop is in force, or one of the host whose tick has not come (R362). -/
def State.clipRuns (s : State) (c : Clip) : Bool :=
  match c.stopTick with
  | none => true
  | some z => c.cause == 0 && later 32 z s.tickSeq

/-- VIDEO_CHUNK_START (R361, R362): space in the clip for the chunk; a clip that would need the reserve stops instead. -/
def execVideoChunkStart (port : Fin 16) (s : State) : Host.Outcome State Fault Refusal :=
  .next (
    if s.recorderRuns = false then s
    else
      match s.clipOfPort port.val with
      | none => s
      | some (cc, c, x) =>
        match s.untaken port.val c x with
        | [] => s
        | f :: _ =>
          let n := chunkSize f.media.length
          let reserves := (s.media.clips.map fun e => e.2.reserve).sum
          if 0 < c.extentsFor n ∧ s.media.freeExtents ≤ reserves ∧ s.clipRuns c then
            s.stopClip cc f.tickSeq 1 c.stopReq
          else
            let s := s.extend cc n
            let off := ((s.clip cc).map Clip.off).getD 0
            let s := s.takeFrame cc x { stream := x.stream, port := port.val, number := f.number, frame := f, offset := off }
            (match s.clip cc with | some c => s.setClip cc { c with off := c.off + n } | none => s).fullWarning)

/-- VIDEO_CHUNK_WRITTEN (R361): the oldest chunk in progress of the port is on the media set. -/
def execVideoChunkWritten (port : Fin 16) (s : State) : Host.Outcome State Fault Refusal :=
  .next (match s.clipOfPort port.val with
    | none => s
    | some (cc, c, _) =>
      match c.frames.find? fun f => f.port == port.val && f.state == 0 with
      | none => s
      | some f =>
        if s.recorderRuns = false then s
        else
          let s := s.clipWrite cc f.offset (chunkBytes Chunk.VIDEO f.stream c.id f.frame.ticket f.frame.time f.frame.media)
          let done (g : ClipFrame) : ClipFrame := if g.port = f.port ∧ g.number = f.number then { g with state := 1 } else g
          match s.clip cc with
          | some c => s.setClip cc { c with frames := c.frames.map done }
          | none => s)

/-- A frame of a clip is lost (R361). -/
def State.frameLost (s : State) (c : Clip) (ticket : Nat) : State :=
  ((s.count Rec.FRAMES_LOST).recNotify 4 ticket c.id 0xFF 0).fire 194

/-- The FRAME_START that reuses a slot: a frame of it that is not fully written, or not taken at all, is lost to its clip
(R361). -/
def State.slotReused (s : State) (p slot : Nat) : State :=
  match s.slotFrame p slot, s.clipOfPort p with
  | some f, some (cc, c, x) =>
    match c.frames.find? fun g => g.port == p && g.number == f.number with
    | some g =>
      let kept (h : ClipFrame) : ClipFrame :=
        if h.port = p ∧ h.number = f.number then { h with frame := f, state := if h.state = 0 then 2 else h.state } else h
      let s := s.setClip cc { c with frames := c.frames.map kept }
      if g.state = 0 then s.frameLost c f.ticket else s
    | none =>
      if f.ticketWritten && c.includes f.tickSeq && (match x.lastNumber with | some n => decide (n < f.number) | none => true) then
        (s.takeFrame cc x { stream := x.stream, port := p, number := f.number, frame := f, state := 2 }).frameLost c f.ticket
      else s
  | _, _ => s

/-- The recorder's view of its frames is brought up to date with the slots that still hold them. -/
def State.refreshFrames (s : State) (c : Clip) : List ClipFrame :=
  c.frames.map fun g =>
    match ((s.ingest g.port).slots.map Prod.snd).find? fun f => f.number == g.number with
    | some f => { g with frame := f }
    | none => g

/-! ## Commits (R354, R355) -/

/-- A frame that the next commit can hold: written or lost, with its ticket final. DEDUCED: a ticket whose slot is gone is final. -/
def State.committable (s : State) (g : ClipFrame) : Bool :=
  g.state != 0 && (g.frame.final || !((s.ingest g.port).slots.map Prod.snd).any fun f => f.number == g.number)

/-- The bytes of AUDIO samples of a ring from position `a` up to `b`. -/
def State.audioBytes (s : State) (p a b : Nat) : List Byte :=
  match s.audRing p with
  | none => zeroBytes ((b - a) * popcount 32 (s.rd (Aud.MASK_IN_FORCE p)) * packBytes (packing (s.rd (Aud.SAMPLE_FORMAT p))))
  | some (r, serial) =>
    let pk := packing (s.rd (Aud.SAMPLE_FORMAT p))
    let mask := s.rd (Aud.MASK_IN_FORCE p)
    (List.range (b - a)).flatMap fun i => memReadN s.nmp.mem (bufAddr serial (r.at pk mask (a + i))) (popcount 32 mask * packBytes pk)

/-- The AUDIO chunks of a clip up to the commit point (R354, R359, R414). -/
def State.commitAudio (s : State) (cc : Nat) (c : Clip) : State :=
  c.streams.foldl (fun t x =>
    match x.kind, x.nextPos with
    | 1, some a =>
      let b := x.endPos.getD (t.audPosAt x.port t.media.lastPoint)
      if a < b then
        let t := t.clipChunk cc Chunk.AUDIO x.stream (b - a) (deviceTimeAt t.time (t.audFrameAt x.port a)) (t.audioBytes x.port a b)
        match t.clip cc with
        | some c => t.setClip cc { c with streams := c.streams.map fun y => if y.stream = x.stream then { y with nextPos := some b } else y }
        | none => t
      else t
    | _, _ => t) s

/-- An index record (Table 13-8). -/
def ClipFrame.record (g : ClipFrame) : List Byte :=
  let f := g.frame
  leBytes 1 g.stream ++ leBytes 1 (if g.state = 2 then 1 else 0) ++ leBytes 2 0 ++ leBytes 2 f.epoch ++ leBytes 2 f.flags ++
    leBytes 4 f.trfBytes ++ leBytes 4 f.ticket ++ leBytes 8 f.time ++ leBytes 8 (if g.state = 2 then 2 ^ 64 - 1 else g.offset)

/-- Frames ordered by stream and then by ticket (R351). -/
def sortFrames (l : List ClipFrame) : List ClipFrame :=
  l.foldl (fun out g =>
    let before (h : ClipFrame) : Bool := decide (h.stream < g.stream ∨ (h.stream = g.stream ∧ h.number < g.number))
    out.filter before ++ g :: out.filter fun h => !before h) []

/-- Whether nothing of a clip is still to come: its stop edge has passed, and every included frame is written or lost and final
(R360). -/
def State.clipComplete (s : State) (c : Clip) : Bool :=
  c.stopped && c.frames.all s.committable && c.streams.all fun x => x.kind != 0 ||
    ((s.untaken x.port c x).isEmpty &&
      !((s.ingest x.port).closing.any fun f => c.includes f.tickSeq) &&
      (match (s.ingest x.port).frame with | some f => !c.includes f.tickSeq | none => true))

/-- Writes the chunks of one clip for a commit, and answers its journal entries (R354). -/
def State.commitClip (st : State × List JEntry × List (Nat × Nat × Nat × Bool)) (point cc : Nat) :
    State × List JEntry × List (Nat × Nat × Nat × Bool) :=
  match st.1.clip cc with
  | none => st
  | some c =>
    let s := st.1.setClip cc { c with frames := st.1.refreshFrames c }
    let c := { c with frames := st.1.refreshFrames c }
    let close := s.clipComplete c
    let ready := sortFrames (c.frames.filter s.committable)
    let s := s.commitAudio cc c
    let s := match c.staged with | some b => s.clipChunk cc Chunk.META 0 0 point b | none => s
    let s := if ready = [] then s
      else
        let s := s.clipChunk cc Chunk.TICKET 0 ready.length point (ready.flatMap fun g => g.frame.ticketBytes)
        s.clipChunk cc Chunk.INDEX 0 ready.length point (ready.flatMap ClipFrame.record)
    match s.clip cc with
    | none => (s, st.2)
    | some c' =>
      let records := c.records + ready.length
      let adds := c'.fresh.map fun (e : Nat × Nat) => ({ type := 2, clip := c.id, a := e.1, b := e.2 } : JEntry)
      let prog : JEntry := { type := 3, clip := c.id, a := c'.off, b := records, c := point }
      let fin : List JEntry := if close then
          [{ type := 4, sub := c.cause, clip := c.id, a := c.stopTime, b := c.stopEpoch * 2 ^ 32 + c.stopTick.getD 0, c := c'.off }]
        else []
      (s.setClip cc { c' with fresh := [], staged := none, frames := c.frames.filter fun g => !s.committable g },
        st.2.1 ++ adds ++ [prog] ++ fin, st.2.2 ++ [(cc, c'.off, records, close)])

/-- A commit starts (R354): the chunks of every open clip. Its commit point is the tick edge that asked for it, also where it starts late. -/
def State.commitStart (s : State) : State :=
  let point := deviceTimeAt s.time s.media.lastPoint
  let s := if s.checkpointDue then s.checkpoint else s
  let (s, entries, clips) := s.media.clips.foldl (fun st e => State.commitClip st point e.1) (s, [], [])
  { s with media := { s.media with run := some { point := point, entries := entries, clips := clips }, late := false } }

/-- RECORDER_COMMIT_POINT (R354): the first tick edge at or after COMMIT_INTERVAL since the previous point. -/
def execRecorderCommitPoint (s : State) : Host.Outcome State Fault Refusal :=
  .next (
    if s.recorderRuns = false ∨ (s.rd Rec.MEDIA_STATE ≠ 3 ∧ s.rd Rec.MEDIA_STATE ≠ 4) ∨ s.media.clips = [] ∨
        s.tick.edgeAt < s.media.lastPoint + s.rd Rec.COMMIT_INTERVAL * 1000000 then s
    else
      let s := { s with media := { s.media with lastPoint := s.tick.edgeAt } }
      if s.media.run.isSome then
        (({ s with media := { s.media with late := true } }).count Rec.COMMITS_LATE).recNotify 6 0 0 0xFF 0
      else s.commitStart)

/-- A clip whose CLIP_CLOSE is committed: its directory entry, the reply, the NOTIFY, and its slot FREE (R360). -/
def State.clipClosed (s : State) (cc : Nat) (c : Clip) : State :=
  let d := tget s.media.dir c.dir {}
  let s := s.setDir c.dir { d with state := 2, cause := c.cause, stopTick := c.stopTick.getD 0, stopTime := c.stopTime,
                                   stopEpoch := c.stopEpoch, extents := c.extents.length }
  let s := { s with media := { s.media with clips := tdel s.media.clips cc } }
  let s := s.wrAll [(Rec.CLIP_SLOT_ID cc, 0), (Rec.CLIP_SLOT_STATE cc, 0), (Rec.OPEN_CLIPS, s.media.clips.length)]
  let s := match c.stopReq with | some r => s.reply r 0x61 Status.OK c.stopPayload | none => s
  ((s.recNotify 1 c.length c.id 0xFF c.cause).fire 193).updateRun

/-- RECORDER_COMMIT_DONE (R354): the commit group is on every member in service; each clip holds what it committed. -/
def execRecorderCommitDone (s : State) : Host.Outcome State Fault Refusal :=
  .next (match s.media.run with
    | none => s
    | some run =>
      if s.recorderRuns = false then s
      else
        let seq := s.media.seq
        let s := s.media.inService.foldl (fun t k => match t.media.portOf k with | some p => t.emit (.ssd p "Flush" 0 0) | none => t) s
        let s := s.journalGroup run.entries
        let s := { s with media := { s.media with run := none, sinceCheck := s.media.sinceCheck + 1 } }
        let s := (s.wrAll [(Rec.LAST_COMMIT_SEQ, seq), (Rec.LAST_COMMIT_TIME, run.point)]).count Rec.COMMITS
        let s := run.clips.foldl (fun t (e : Nat × Nat × Nat × Bool) =>
          match t.clip e.1 with
          | none => t
          | some c =>
            let t := t.countBy Rec.FRAMES_RECORDED (e.2.2.1 - c.records)
            let c := { c with length := e.2.1, records := e.2.2.1 }
            let d := tget t.media.dir c.dir {}
            let t := (t.setClip e.1 c).setDir c.dir { d with length := c.length, records := c.records, extents := c.extents.length }
            let t := t.wrAll [(Rec.CLIP_LENGTH e.1, c.length), (Rec.CLIP_FRAMES e.1, c.records)]
            if e.2.2.2 then t.clipClosed e.1 c else t) s
        let s := s.fullWarning.fire 192
        if s.media.late then s.commitStart else s)

/-- At a tick edge, clips that begin or stop on it: audio positions, and the time of the stop (R359, Table 13-9). -/
def State.clipTick (s : State) : State :=
  s.media.clips.foldl (fun t e =>
    let c := e.2
    let begin' := c.firstTick == t.tickSeq
    let ends := c.stopTick == some t.tickSeq
    let streams := c.streams.map fun x =>
      if x.kind = 1 then
        { x with nextPos := if begin' then some (t.rd (Aud.HW_POSITION x.port)) else x.nextPos
                 endPos := if ends then some (t.rd (Aud.HW_POSITION x.port)) else x.endPos }
      else x
    let passed := match c.stopTick with | some z => laterEq 32 t.tickSeq z | none => false
    t.setClip e.1 { c with
      streams := streams
      stopTime := if ends then t.deviceTime else c.stopTime
      stopEpoch := if ends then t.epoch else c.stopEpoch
      stopped := c.stopped || passed }) s

/-! ## Members (R344, R363) -/

/-- A member fails (R363): the set goes on where every block still has a copy, else it is INCOMPLETE and its clips stop. DESIGN CHOICE: where the member
that a rebuild fills fails, the rebuild ends and the set is DEGRADED as before; R364 speaks of the partner only. -/
def State.memberFailed (s : State) (p : Nat) : State :=
  let s := ((s.memberTo p 6).count (Rec.MEMBER_FAILURES p))
  if (match s.media.rebuilding with | some (_, q) => q == p | none => false) then
    ({ s with media := { s.media with rebuilding := none } }).mediaTo 4
  else
  match s.media.sb, s.media.ports.findIdx? fun q => q == some p with
  | some sb, some k =>
    if s.media.inService.contains k then
      let s := { s with media := { s.media with inService := s.media.inService.filter fun i => i != k } }
      let s := s.reissueReads k
      if setCovered sb.layout sb.count s.media.inService then
        let sb' := { sb with generation := (sb.generation + 1) % 2 ^ 32, failed := setFlag sb.failed k }
        let s := (s.writeSuperblocks sb').journalGroup [{ type := 6, a := sb'.failed, b := sb'.generation }]
        if s.media.rebuilding.isSome then s else s.mediaTo 4
      else
        let s := { s with media := { s.media with run := none, rebuilding := none } }
        let s := s.media.clips.foldl (fun t e =>
          let c := { e.2 with cause := 2, stopTick := some (e.2.stopTick.getD ((t.tickSeq + 1) % 2 ^ 32)) }
          let t := { t with media := { t.media with clips := tdel t.media.clips e.1 } }
          let t := t.wrAll [(Rec.CLIP_SLOT_ID e.1, 0), (Rec.CLIP_SLOT_STATE e.1, 0), (Rec.OPEN_CLIPS, t.media.clips.length)]
          let t := match c.stopReq with | some r => t.reply r 0x61 Status.OK c.stopPayload | none => t
          (t.recNotify 1 c.length c.id 0xFF 2).fire 193) s
        (s.mediaTo 2).updateRun
    else s
  | _, _ => s

/-- MEMBER_TIMEOUT (R363): a command past MEMBER_TIMEOUT. -/
def execMemberTimeout (port : Fin 4) (s : State) : Host.Outcome State Fault Refusal :=
  .next (if s.recorderRuns ∧ (tfind s.media.ssds port.val).isSome then
      ((s.count (Rec.NVME_TIMEOUTS port.val)).memberFailed port.val).nsWatch s else s)

/-- MEMBER_FAIL (R363): CSTS.CFS, the PCIe link, or a Write or Flush that fails twice. -/
def execMemberFail (port : Fin 4) (cause : Fin 3) (s : State) : Host.Outcome State Fault Refusal :=
  .next (if s.recorderRuns ∧ (tfind s.media.ssds port.val).isSome then
      ((if cause.val = 2 then s.countBy (Rec.NVME_ERRORS port.val) 2 else s).memberFailed port.val).nsWatch s else s)

/-- SSD_PRESENCE_CHANGE (R344): what stands on a root port. A member of the set that leaves has its link down (R363). -/
def execSsdPresenceChange (port : Fin 4) (info : Option SsdInfo) (s : State) : Host.Outcome State Fault Refusal :=
  .next (
    let p := port.val
    match info with
    | some x =>
      let content : Table (List Byte) := x.content.foldl (fun t e => tset t e.1 (zeroBytes blockSize) ((e.2 ++ zeroBytes blockSize).take blockSize)) []
      let s := { s with media := { s.media with ssds := tins s.media.ssds p { info := { x with content := [] }, content := content } } }
      s.memberShow p { x with content := [] }
    | none =>
      let s := if (s.rd (Rec.MEMBER_STATE p) = 3 ∨ s.rd (Rec.MEMBER_STATE p) = 7) ∧ s.recorderRuns then (s.memberFailed p).nsWatch s else s
      let s := { s with media := { s.media with ssds := tdel s.media.ssds p } }
      (s.wrAll [(Rec.MEMBER_LINK p, 0), (Rec.MEMBER_CAPACITY p, 0), (Rec.MEMBER_ID p, 0)]).memberTo p 0)

/-! ## Commits of group 0x50, and of what an open clip holds fixed (R359, R368, R412) -/

/-- The checks of a committed value. -/
def recorderCheck (t : Txn) (id : Nat) (v : PVal) : Nat :=
  let s := t.old
  let n := v.toNat
  let g := idGroup id
  let p := idInst id
  let num := idNum id
  let ctxUsed (c : Nat) : Bool := s.media.clips.any fun e => e.2.streams.any fun x => x.kind == 0 && x.ctx == c
  if id = Rec.MEDIA_FORMAT then (if s.recorderRuns then s.formatBad (s.valBytes v) else Status.NOT_READY)
  else if id = Rec.MEDIA_REBUILD then s.rebuildBad n
  else if id = Rec.CLIP_DELETE then
    (match s.media.dirOf n with
     | some i => failIf ((tget s.media.dir i {}).state == 1 || n == 0 || decide (s.rd Rec.MEDIA_STATE < 3)) Status.CONFLICT
     | none => Status.CONFLICT)
  else if g = 0x50 ∧ num = 0x0044 then failIf (s.clip p).isNone Status.CONFLICT
  else if s.clipUses 0 p ∧ ((g = 0x11 ∧ (id = Ing.ING_GEOMETRY p ∨ id = Ing.ING_WIDTH p ∨ id = Ing.CFA_PHASE p ∨ id = Ing.CONTEXT p)) ∨
      id = Trf.TRF_MODE p ∨ (id = Port.PORT_ENABLE p ∧ n = 0)) then failIf (s.rd id != n) Status.CONFLICT
  else if g = 0x20 ∧ id = Ctx.CTX_ENABLE p ∧ n = 0 ∧ ctxUsed p then Status.CONFLICT
  else if g = 0x60 ∧ (id = Aud.SLOT_MASK p ∨ id = Aud.SAMPLE_FORMAT p ∨ id = Aud.AUD_RING p) then
    failIf (s.rd (Aud.DIRECTION p) == 0 && (s.clipUses 1 p ||
      (List.range 16).any fun k => s.rd (St.STREAM_ENABLE (0x20 + k)) == 1 && s.rd (St.STREAM_SOURCE (0x20 + k)) % 8 == p)) Status.CONFLICT
  else Status.OK

/-- What a committed value does beyond being held: MEDIA_FORMAT holds its reply until the writes are complete (R348). -/
def recorderApply (t : Txn) (id : Nat) (v : PVal) (s : State) : State :=
  if id = Rec.MEDIA_FORMAT then
    let b := t.old.valBytes v
    let s := { s with media := { s.media with
      formatting := some (leAt b 0 1, setBits 4 (leAt b 1 1), leAt b 4 4, leAt b 8 4, leAt b 12 4) } }
    let s := s.nsWatch t.old
    s.hold { r := t.r, op := t.op, edge := s.tickSeq, status := Status.OK, why := .mediaFormat }
  else if id = Rec.MEDIA_REBUILD then s.rebuildStart v.toNat
  else if id = Rec.CLIP_DELETE then
    (match s.media.dirOf v.toNat with
     | some i => (((s.setDir i {}).setExts (s.media.extsOf v.toNat) fun _ => (0, 0)).journalGroup [{ type := 5, clip := v.toNat }]).fullWarning
     | none => s)
  else if idGroup id = 0x50 ∧ idNum id = 0x0044 then
    (match s.clip (idInst id) with
     | some c => s.setClip (idInst id) { c with staged := some (t.old.valBytes v) }
     | none => s)
  else s

end Sys2Proof.Machine
end

