-- ==== Sys2Proof/Machine/Display.lean ====
section
/-! DEFINITION. The display heads: links, raster and lock, layers and blending, commits at latch points, self refresh, CRC
rectangles and underflow (spec/11). -/

namespace Sys2Proof.Machine

/-! ## Rates and timing (R290 to R293) -/

/-- The line rate of a link rate code in kbit/s (Table 11-2). -/
def linkKbps (code : Nat) : Nat :=
  [1620000, 2700000, 5400000, 8100000, 10000000, 13500000, 2160000, 2430000, 3240000, 4320000].getD code 0

/-- Usable bits per 132,000 line bits: × 0.8 × 0.99 for 8b/10b, × 128 ÷ 132 × 0.97 for 128b/132b. -/
def usablePer132k (code : Nat) : Nat := if code = 4 ∨ code = 5 then 124160 else 104544

/-- Bits per pixel of an output format (R290). -/
def bitsPerPixel (colour bpc : Nat) : Nat := (if colour = 2 then 2 else 3) * [8, 10, 12].getD bpc 8

/-- A mode fits a link (R290): PIXEL_CLOCK in kHz. -/
def modeFits (pixelClock bpp rate lanes : Nat) : Bool :=
  decide (pixelClock * bpp * 132000 ≤ lanes * linkKbps rate * usablePer132k rate)

/-- The rate codes of a head in descending order of rate. -/
def headRates (h : Nat) : List Nat := if h < 2 then [5, 4, 3, 2, 1, 0] else [3, 2, 9, 8, 1, 7, 6, 0]

/-- The horizontal and vertical fields: active, total, sync width, front porch. -/
def State.hTiming (s : State) (h : Nat) : Nat × Nat × Nat × Nat :=
  let a := s.rd (Head.H_TIMING_A h)
  let b := s.rd (Head.H_TIMING_B h)
  (bits a 15 0, bits a 31 16, bits b 31 16, bits b 15 0)
def State.vTiming (s : State) (h : Nat) : Nat × Nat × Nat × Nat :=
  let a := s.rd (Head.V_TIMING_A h)
  let b := s.rd (Head.V_TIMING_B h)
  (bits a 15 0, bits a 31 16, bits b 31 16, bits b 15 0)

/-- A timing outside R292: size out of bounds, or a blanking field of 0. -/
def timingBad (t : Nat × Nat × Nat × Nat) (lo hi top : Nat) : Bool :=
  decide (t.1 < lo ∨ hi < t.1 ∨ top < t.2.1 ∨ t.2.2.1 = 0 ∨ t.2.2.2 = 0 ∨ t.2.1 ≤ t.1 + t.2.2.1 + t.2.2.2)

/-- P and Q of LOCK_RATIO. -/
def State.lockRatio (s : State) (h : Nat) : Nat × Nat :=
  (bits (s.rd (Head.LOCK_RATIO h)) 15 8, bits (s.rd (Head.LOCK_RATIO h)) 7 0)

/-- The duration of a line in ns as an exact quotient: H_TOTAL pixels at PIXEL_CLOCK kHz, or, with the pixel clock locked, the
part 1 ÷ V_TOTAL of the period of the target rate (R293). -/
def State.lineTime (s : State) (h : Nat) : Nat × Nat :=
  if s.rd (Head.LOCK_MODE h) = 0 then ((s.hTiming h).2.1 * 1000000, max 1 (s.rd (Head.PIXEL_CLOCK h)))
  else (1000000000 * s.rd Tick.TICK_RATE_D * (s.lockRatio h).2, max 1 ((s.vTiming h).2.1 * s.rd Tick.TICK_RATE_N * (s.lockRatio h).1))

/-- The duration of `lines` lines in ns, rounded down once. -/
def State.linesNs (s : State) (h lines : Nat) : Nat := lines * (s.lineTime h).1 / (s.lineTime h).2

/-- The display frame rate lies more than 2,000 ppm from the target rate (R293), with both rates as exact quotients. -/
def State.rateOff (s : State) (h : Nat) : Bool :=
  let (p, q) := s.lockRatio h
  let rate : ℚ := ((s.rd (Head.PIXEL_CLOCK h) * 1000 : Nat) : ℚ) / (((s.hTiming h).2.1 * (s.vTiming h).2.1 : Nat) : ℚ)
  let target : ℚ := ((s.rd Tick.TICK_RATE_N * p : Nat) : ℚ) / ((s.rd Tick.TICK_RATE_D * q : Nat) : ℚ)
  decide (2 * target < |rate - target| * 1000)

/-! ## Layers (R294, R295) -/

/-- Context and rendition of LAYER_RENDITION. -/
def State.layerRend (s : State) (h l : Nat) : Nat × Nat :=
  (bits (s.rd (Head.LAYER_RENDITION h l)) 12 8, bits (s.rd (Head.LAYER_RENDITION h l)) 1 0)

/-- The source of a layer as it is scanned: NONE where the layer is off, in FAULT_HOLD, while the memory controller is out
of service, in Duiker for L0 and L1 of DH0 and DH1, and under S3 for L1 (Table 02-9, R53, R54, R307). -/
def State.layerSource (s : State) (h l : Nat) : Nat :=
  if s.rd (Head.LAYER_ENABLE h l) = 0 ∨ s.pow.global = .faultHold ∨ s.tick.dramChange then 0
  else if s.duiker && decide (h < 2 ∧ l < 2) then 0
  else if l = 1 ∧ s.shed 3 then 0
  else s.rd (Head.LAYER_SOURCE h l)

/-- The format, and the planes as (offset, pitch), width and height of a layer's source (R233, R294). -/
structure LayerGeom where
  format : Nat
  planes : List (Nat × Nat)
  w : Nat
  h : Nat
  deriving DecidableEq, Repr

/-- Planes laid one after another, each 4 KiB aligned, with their pitches and lines. -/
def layGeom (ps : List (Nat × Nat)) : List (Nat × Nat) :=
  (ps.foldl (fun (st : Nat × List (Nat × Nat)) p =>
    let o := alignUp st.1 4096
    (o + p.1 * p.2, st.2 ++ [(o, p.1)])) (0, [])).2

/-- The geometry of a BUFFER layer whose image is w × h: LAYER_PITCH for the first plane, and in proportion for the others. -/
def State.bufferGeom (s : State) (h l w ht : Nat) : LayerGeom :=
  let f := s.rd (Head.LAYER_FORMAT h l)
  let pitch := s.rd (Head.LAYER_PITCH h l)
  let ps := outPlanes f w ht
  let first := max 1 ((ps.map Prod.fst).getD 0 1)
  { format := f, planes := layGeom (ps.map fun p => (alignUp (pitch * p.1 / first) 256, p.2)), w := w, h := ht }

/-- The bytes that the planes of a BUFFER layer of w × h reach. -/
def State.bufferReach (s : State) (h l w ht : Nat) : Nat :=
  let f := s.rd (Head.LAYER_FORMAT h l)
  let g := s.bufferGeom h l w ht
  ((g.planes.zip (outPlanes f w ht)).map fun p => p.1.1 + p.1.2 * p.2.2).foldl max 0

/-- The buffer of a handle, freed or not: a freed one keeps its content until its retire fence (R302). -/
def State.bufferOf (s : State) (handle : Nat) : Option (Nat × Buffer) :=
  s.nmp.buffers.find? fun p => p.2.handle == handle && p.2.handle != 0

/-- The size in pixels and lines of a layer's whole source. DESIGN CHOICE: R294 gives a BUFFER layer a pitch and no size; its width
is the pixels of a pitch, its height the lines down to the end of the window, or with LAYER_SIZE 0 those that lie inside the buffer. -/
def State.sourceSize (s : State) (h l : Nat) : Nat × Nat :=
  let (c, v) := s.layerRend h l
  match s.rd (Head.LAYER_SOURCE h l) with
  | 1 => s.cropOf c v
  | 3 => (bits (s.rd (Stat.SCOPE_SIZE c)) 15 0, bits (s.rd (Stat.SCOPE_SIZE c)) 31 16)
  | 2 =>
    let f := s.rd (Head.LAYER_FORMAT h l)
    let z := s.rd (Head.LAYER_SIZE h l)
    let o := s.rd (Head.LAYER_SRC_ORIGIN h l)
    let per := max 1 (((outPlanes f 2 2).map Prod.fst).getD 0 2 / 2)
    let w := s.rd (Head.LAYER_PITCH h l) / per
    if z ≠ 0 then (w, bits o 31 16 + bits z 31 16)
    else
      let size := match s.bufferOf (s.rd (Head.LAYER_BUFFER h l)) with | some (_, b) => b.size | none => 0
      let lines := ((List.range 4321).reverse.find? fun n => n % 2 == 0 && decide (s.bufferReach h l w n ≤ size)).getD 0
      (w, lines)
  | _ => (0, 0)

/-- The window of a layer: origin and size (R295). -/
def State.layerWindow (s : State) (h l : Nat) : Nat × Nat × Nat × Nat :=
  let o := s.rd (Head.LAYER_SRC_ORIGIN h l)
  let z := s.rd (Head.LAYER_SIZE h l)
  let src := s.sourceSize h l
  if z = 0 then (0, 0, src.1, src.2) else (bits o 15 0, bits o 31 16, bits z 15 0, bits z 31 16)

/-- The format of a layer's source. -/
def State.sourceFormat (s : State) (h l : Nat) : Nat :=
  match s.rd (Head.LAYER_SOURCE h l) with
  | 1 => s.rd (Rend.OUT_FORMAT (s.layerRend h l).1 (s.layerRend h l).2)
  | 2 => s.rd (Head.LAYER_FORMAT h l)
  | _ => 3

/-- A layer that breaks R294 or R295; a freed or unknown handle is told apart by the caller. -/
def State.layerConflict (s : State) (h l : Nat) : Bool :=
  let src := s.rd (Head.LAYER_SOURCE h l)
  let (x, y, w, ht) := s.layerWindow h l
  let whole := s.sourceSize h l
  let f := s.sourceFormat h l
  let oddX := x % 2 == 1 || w % 2 == 1
  let oddY := y % 2 == 1 || ht % 2 == 1
  (src == 1 && decide (2 ≤ l)) || (src == 3 && l != 2) || (src == 2 && decide (l < 2) && fmtSampling f == 3) ||
    (src != 0 && (decide (whole.1 < x + w ∨ whole.2 < y + ht) || (fmtSampling f == 0 && (oddX || oddY)) || (fmtSampling f == 1 && oddX))) ||
    (src == 2 && (match s.bufOf (s.rd (Head.LAYER_BUFFER h l)) with
      | some (_, b) => b.cell != 50 + h || decide (b.size < s.bufferReach h l whole.1 whole.2)
      | none => false))

/-- Bytes of a layer's window per display frame (R306). -/
def State.layerBytes (s : State) (h l : Nat) : Nat :=
  if s.rd (Head.LAYER_ENABLE h l) = 0 ∨ s.rd (Head.LAYER_SOURCE h l) = 0 then 0
  else
    let (_, _, w, ht) := s.layerWindow h l
    ((outPlanes (s.sourceFormat h l) w ht).map fun p => p.1 * p.2).sum

/-- Bytes a layer fetches in a display frame (R295): the parts of its window that fall outside the raster are not read, and a
transparent layer reads nothing. -/
def State.layerRead (s : State) (h l : Nat) : Nat :=
  let (_, _, w, ht) := s.layerWindow h l
  let d := s.rd (Head.LAYER_DST h l)
  let f := s.sourceFormat h l
  let cw := min w ((s.hTiming h).1 - bits d 15 0)
  let ch := min ht ((s.vTiming h).1 - bits d 31 16)
  let cw := if fmtSampling f < 2 then alignUp cw 2 else cw
  let ch := if fmtSampling f = 0 then alignUp ch 2 else ch
  ((outPlanes f cw ch).map fun p => p.1 * p.2).sum

/-- Display frames in the worst tick of a head (R306): at most this many frames start in one tick period, of which a locked head
starts P in Q. -/
def State.headFrames (s : State) (h : Nat) : Nat :=
  let frame := (s.hTiming h).2.1 * (s.vTiming h).2.1
  if s.rd (Head.LOCK_MODE h) = 1 then ceilDiv (s.lockRatio h).1 (max 1 (s.lockRatio h).2)
  else ceilDiv (s.rd Tick.TICK_RATE_D * s.rd (Head.PIXEL_CLOCK h) * 1000) (s.rd Tick.TICK_RATE_N * max 1 frame)

/-! ## Pixels (R296) -/

/-- The content a layer scans: its bytes and geometry; none where it is transparent. -/
def State.layerContent (s : State) (h l : Nat) : Option (Array Byte × LayerGeom) :=
  let (c, v) := s.layerRend h l
  match s.layerSource h l with
  | 1 =>
    match (s.rend c v).held.find? (fun e => e.1 == 4 * h + l) with
    | some (_, b) =>
      let f := s.rd (Rend.OUT_FORMAT c v)
      let k := s.cropOf c v
      some ((tget (s.rend c v).bufs b []).toArray,
        { format := f, planes := layGeom ((outPlanes f k.1 k.2).map fun p => (planePitch p, p.2)), w := k.1, h := k.2 })
    | none => none
  | 2 =>
    match s.bufferOf (s.rd (Head.LAYER_CURRENT h l)) with
    | some (n, b) =>
      let z := s.sourceSize h l
      some ((s.bufBytes n b.size).toArray, s.bufferGeom h l z.1 z.2)
    | none => none
  | 3 =>
    match (s.ctxSt c).scopeHeld.find? (fun e => e.1 == h), s.bufferOf (s.rd (Head.LAYER_CURRENT h l)) with
    | some (_, half), some (n, _) =>
      let z := s.sourceSize h l
      some ((memReadN s.nmp.mem (bufAddr n (half * 4 * z.1 * z.2)) (4 * z.1 * z.2)).toArray, { format := 3, planes := [(0, 4 * z.1)], w := z.1, h := z.2 })
    | _, _ => none
  | _ => none

/-- The code of depth n at a place in a plane. -/
def codeAt (a : Array Byte) (n o : Nat) : Nat := if n = 8 then (a.getD o 0).toNat else le16 a o / 2 ^ (16 - n)

/-- E′y or E′c of a code (the inverse of R232). -/
def unLuma (full : Bool) (n c : Nat) : ℚ :=
  if full then (c : ℚ) / ((2 ^ n - 1 : Nat) : ℚ) else ((c : ℚ) / ((2 ^ (n - 8) : Nat) : ℚ) - 16) / 219
def unChroma (full : Bool) (n c : Nat) : ℚ :=
  if full then ((c : ℚ) - ((2 ^ (n - 1) : Nat) : ℚ)) / ((2 ^ n - 1 : Nat) : ℚ) else ((c : ℚ) / ((2 ^ (n - 8) : Nat) : ℚ) - 128) / 224

/-- R′, G′, B′ in [0, 1] of Y′CbCr values (R296). -/
def rgbOf (m : Nat) (y cb cr : ℚ) : List ℚ :=
  let k := yccWeights m
  let r := y + 2 * (1 - k.1) * cr
  let b := y + 2 * (1 - k.2) * cb
  let g := (y - k.1 * r - k.2 * b) / (1 - k.1 - k.2)
  [unit01 r, unit01 g, unit01 b]

/-- R′G′B′ and pixel alpha of a source pixel (R296). -/
def layerPixel (a : Array Byte) (g : LayerGeom) (m : Nat) (full : Bool) (x y : Nat) : List ℚ × ℚ :=
  let pl (k : Nat) : Nat × Nat := g.planes.getD k (0, 0)
  if fmtSampling g.format = 3 then
    let w := le32 a ((pl 0).1 + y * (pl 0).2 + 4 * x)
    if bits g.format 5 4 = 1 then
      ([(bits w 29 20 : ℚ) / 1023, (bits w 19 10 : ℚ) / 1023, (bits w 9 0 : ℚ) / 1023], (bits w 31 30 : ℚ) / 3)
    else ([(bits w 23 16 : ℚ) / 255, (bits w 15 8 : ℚ) / 255, (bits w 7 0 : ℚ) / 255], (bits w 31 24 : ℚ) / 255)
  else
    let n := fmtDepth g.format
    let bps := if n = 8 then 1 else 2
    let yv := unLuma full n (codeAt a n ((pl 0).1 + y * (pl 0).2 + bps * x))
    let cy := if fmtSampling g.format = 0 then y / 2 else y
    let cw := if fmtSampling g.format = 2 then g.w else g.w / 2
    let chroma (k cx : Nat) : ℚ :=
      let o := if fmtPlanar g.format then (pl (1 + k)).1 + cy * (pl (1 + k)).2 + bps * cx
        else (pl 1).1 + cy * (pl 1).2 + bps * (2 * cx + k)
      unChroma full n (codeAt a n o)
    let at' (k : Nat) : ℚ :=
      if fmtSampling g.format = 2 then chroma k x
      else if x % 2 = 0 then chroma k (x / 2)
      else if x / 2 + 1 < cw then (chroma k (x / 2) + chroma k (x / 2 + 1)) / 2
      else chroma k (x / 2)
    (rgbOf m yv (at' 0) (at' 1), 1)

/-- BACKGROUND or UNDERFLOW_COLOUR as R′G′B′. -/
def colour10 (v : Nat) : List ℚ := [(bits v 29 20 : ℚ) / 1023, (bits v 19 10 : ℚ) / 1023, (bits v 9 0 : ℚ) / 1023]

/-- The blend of one layer over what lies below it at a pixel of the raster (R295, R296, R306). -/
def State.blendLayer (s : State) (h l : Nat) (content : Option (Array Byte × LayerGeom)) (below : List ℚ) (x y : Nat) : List ℚ :=
  match content with
  | none => below
  | some (a, g) =>
    let (ox, oy, w, ht) := s.layerWindow h l
    let d := s.rd (Head.LAYER_DST h l)
    let dx := bits d 15 0
    let dy := bits d 31 16
    if x < dx ∨ dx + w ≤ x ∨ y < dy ∨ dy + ht ≤ y then below
    else if (s.head h).under.any (fun u => u.1 == l && u.2.1 == y && decide (u.2.2 ≤ x)) then colour10 (s.rd (Head.UNDERFLOW_COLOUR h))
    else
      let (c, v) := s.layerRend h l
      let isRend := s.rd (Head.LAYER_SOURCE h l) == 1
      let ycc := s.rd (Head.LAYER_YCC h l)
      let m := if isRend then s.rd (Rend.YCC_MATRIX c v) else bits ycc 0 0
      let full := if isRend then s.rd (Rend.YCC_RANGE c v) == 1 else bit ycc 8
      let px := layerPixel a g m full (ox + (x - dx)) (oy + (y - dy))
      let al := px.2 * ((s.rd (Head.LAYER_ALPHA h l) : ℚ) / 255)
      (px.1.zip below).map fun e => al * e.1 + (1 - al) * e.2

/-- The output codes of a blended pixel, before chroma subsampling (R296, R305). -/
def State.outCodes (s : State) (h : Nat) (p : List ℚ) : List Nat :=
  let n := [8, 10, 12].getD (s.rd (Head.OUT_BPC h)) 8
  let full := s.rd (Head.OUT_RANGE h) == 1
  if s.rd (Head.OUT_COLOUR h) = 0 then p.map fun v => (limitCode 0 (2 ^ n - 1) (((2 ^ n - 1 : Nat) : ℚ) * v)).1
  else
    let e := yccOf (s.rd (Head.OUT_YCC_MATRIX h)) (p.getD 0 0) (p.getD 1 0) (p.getD 2 0)
    [(lumaCode full n e.1).1, (chromaCode full n e.2.1).1, (chromaCode full n e.2.2).1]

/-- What the layers of a head scan. -/
def State.headContents (s : State) (h : Nat) : List (Nat × Option (Array Byte × LayerGeom)) :=
  (List.range 4).map fun l => (l, s.layerContent h l)

/-- A blended pixel of the raster: the layers in order over BACKGROUND (R294). -/
def State.blendAt (s : State) (h : Nat) (contents : List (Nat × Option (Array Byte × LayerGeom))) (x y : Nat) : List ℚ :=
  contents.foldl (fun below e => s.blendLayer h e.1 e.2 below x y) (colour10 (s.rd (Head.BACKGROUND h)))

/-- The CRC of a rectangle of the blended output (R305). -/
def State.rectCrc (s : State) (h k : Nat) : Nat :=
  let r := s.rd (Head.CRC_RECT h k)
  let contents := s.headContents h
  crc32 ((List.range (bits r 63 48)).flatMap fun j => (List.range (bits r 47 32)).flatMap fun i =>
    (s.outCodes h (s.blendAt h contents (bits r 15 0 + i) (bits r 31 16 + j))).flatMap (leBytes 2))

/-- The codes of an active line in the output format (R296): 4:2:2 takes its chroma subsampled under R232. -/
def State.lineCodes (s : State) (h y : Nat) : List (List Nat) :=
  let contents := s.headContents h
  let px := (List.range (s.hTiming h).1).map fun x => s.blendAt h contents x y
  if s.rd (Head.OUT_COLOUR h) ≠ 2 then px.map (s.outCodes h)
  else
    let n := [8, 10, 12].getD (s.rd (Head.OUT_BPC h)) 8
    let full := s.rd (Head.OUT_RANGE h) == 1
    let e := px.map fun p => yccOf (s.rd (Head.OUT_YCC_MATRIX h)) (p.getD 0 0) (p.getD 1 0) (p.getD 2 0)
    let plane (f : ℚ × ℚ × ℚ → ℚ) : Image ℚ := subsample 1 #[(e.map f).toArray]
    let cb := plane fun v => v.2.1
    let cr := plane fun v => v.2.2
    e.zipIdx.map fun p => (lumaCode full n p.1.1).1 ::
      (if p.2 % 2 = 0 then [(chromaCode full n (cb.at 0 (p.2 / 2) 0)).1, (chromaCode full n (cr.at 0 (p.2 / 2) 0)).1] else [])

/-! ## Links (R291) -/

/-- Changes LINK_STATE, with its NOTIFY. -/
def State.linkTo (s : State) (h st : Nat) : State :=
  if s.rd (Head.LINK_STATE h) = st then s
  else ((s.wr (Head.LINK_STATE h) st).linkNotify 0x0201 h 0xFF st).emit (.display h "link state" st)

/-- Changes LOCK_STATE, with its NOTIFY. -/
def State.lockTo (s : State) (h st : Nat) : State :=
  if s.rd (Head.LOCK_STATE h) = st then s else (s.wr (Head.LOCK_STATE h) st).linkNotify 0x0202 h 0xFF st

/-- The head trains where a sink is present (Table 11-3): SINK_CAPS is read from its DPCD. -/
def State.headTrain (s : State) (h : Nat) : State :=
  if (s.head h).hpd then (s.wr (Head.SINK_CAPS h) (s.head h).caps).linkTo h 2 else s.linkTo h 1

/-- Whether the raster of a head runs: every state but DISABLED. -/
def State.headRuns (s : State) (h : Nat) : Bool := s.rd (Head.LINK_STATE h) != 0

/-! ## Latching (R297 to R304) -/

/-- A consumer gives up the rendition buffer it holds. -/
def State.dropHold (s : State) (consumer : Nat) : State :=
  s.ctxs.foldl (fun t e => e.2.rends.foldl (fun t r =>
    if r.2.held.any (fun x => x.1 == consumer) then
      t.setRend e.1 r.1 { r.2 with held := r.2.held.filter fun x => x.1 != consumer }
    else t) t) s

/-- A consumer takes the latest completed buffer of a rendition (R234). -/
def State.takeHold (s : State) (consumer c v : Nat) : State :=
  let s := s.dropHold consumer
  match (s.rend c v).latest with
  | some b => s.setRend c v { s.rend c v with held := (s.rend c v).held ++ [(consumer, b)] }
  | none => s

/-- A head gives up the scope half it holds. -/
def State.dropScopeHold (s : State) (h : Nat) : State :=
  s.ctxs.foldl (fun t e => if e.2.scopeHeld.any (fun x => x.1 == h) then
    t.setCtx e.1 { t.ctxSt e.1 with scopeHeld := (t.ctxSt e.1).scopeHeld.filter fun x => x.1 != h } else t) s

/-- Whether a rendition feeds its consumers: enabled in an active context, not stopped by a shed item, and with a completed
buffer (R298). -/
def State.rendLive (s : State) (c v : Nat) : Bool :=
  s.active c && (s.rend c v).on && !stoppedBy (s.profile.shedOrder.take (s.rd Tick.SHED_LEVEL)) v && (s.rend c v).latest.isSome

/-- A layer loses or finds its source (R298). -/
def State.layerLost (s : State) (h l : Nat) (lost : Bool) : State :=
  let st := s.rd (Head.LAYER_STATUS h l)
  if lost && !bit st 1 then ((s.wr (Head.LAYER_STATUS h l) (setFlag st 1)).count (Head.SOURCE_LOST h)).linkNotify 0x0205 h l l
  else if lost then s
  else s.wr (Head.LAYER_STATUS h l) (clearFlag st 1)

/-- The buffer a layer held, by consumer. -/
def State.heldBy (s : State) (consumer c v : Nat) : Option Nat :=
  ((s.rend c v).held.find? fun e => e.1 == consumer).map Prod.snd

/-- Whether the scopes of a context feed a layer (R298): enabled and not shed, their source rendition enabled and not stopped, and a
plane completed in the buffer and size in force. -/
def State.scopeLive (s : State) (c : Nat) : Bool :=
  let items := s.profile.shedOrder.take (s.rd Tick.SHED_LEVEL)
  let v := s.rd (Stat.SCOPE_SOURCE c)
  s.active c && decide (0 < s.scopeCellsOf items c) && (s.rend c v).on && !stoppedBy items v && s.rd (Stat.SCOPE_BUFFER c) != 0 &&
    (s.ctxSt c).scopeIn == some (s.rd (Stat.SCOPE_BUFFER c), s.rd (Stat.SCOPE_SIZE c))

/-- A layer takes what it scans next (R297, R298, R302); whether its content changed. `named`: a latched commit names what the layer
shows. A STALE scope layer scans its freed buffer on until a commit names it or another buffer holds a plane. -/
def State.layerTake (s : State) (h l : Nat) (named : Bool) : State × Bool :=
  let (c, v) := s.layerRend h l
  let k := 4 * h + l
  let cur (t : State) (handle : Nat) : State :=
    if t.rd (Head.LAYER_CURRENT h l) = handle then t
    else (t.wr (Head.LAYER_CURRENT h l) handle).upd (Head.LAYER_STATUS h l) fun st => clearFlag st 0
  match s.layerSource h l with
  | 1 =>
    let before := s.heldBy k c v
    if s.rendLive c v then
      let s := cur ((s.takeHold k c v).layerLost h l false) 0
      (s, s.heldBy k c v != before)
    else (cur ((s.dropHold k).layerLost h l true) 0, false)
  | 2 => (cur ((s.dropHold k).layerLost h l false) (s.rd (Head.LAYER_BUFFER h l)), false)
  | 3 =>
    let half := s.rd (Stat.SCOPE_FRONT c)
    let buf := s.rd (Stat.SCOPE_BUFFER c)
    let before := (s.ctxSt c).scopeHeld.find? fun e => e.1 == h
    if bit (s.rd (Head.LAYER_STATUS h l)) 0 && !named && !s.scopeLive c then (s, false)
    else
    let s := s.dropScopeHold h
    if s.scopeLive c then
      let s := s.setCtx c { s.ctxSt c with scopeHeld := (s.ctxSt c).scopeHeld ++ [(h, half)] }
      (cur (s.layerLost h l false) buf, before != some (h, half))
    else (cur (s.layerLost h l true) 0, false)
  | _ => (cur ((s.dropHold k).layerLost h l false) 0, false)

/-- A commit names what a layer shows. -/
def HeadGroup.names (g : HeadGroup) (h l : Nat) : Bool :=
  g.vals.any fun e => [Head.LAYER_ENABLE h l, Head.LAYER_SOURCE h l, Head.LAYER_RENDITION h l, Head.LAYER_BUFFER h l].contains e.1

/-- Layers take what they scan next, and freed buffers may retire (R297, R302): every layer at a latch point, at a line start those
that a commit names (R300). -/
def State.headTake (s : State) (h : Nat) (latch : Bool) (groups : List HeadGroup) : State × Bool :=
  let s := if s.layerSource h 2 = 3 then s else s.dropScopeHold h
  let named (l : Nat) : Bool := groups.any fun g => g.names h l
  let (s, ch) := ((List.range 4).filter fun l => latch || named l).foldl (fun (st : State × Bool) l =>
    let r := st.1.layerTake h l (named l)
    (r.1, st.2 || r.2)) (s, false)
  (s.retireFreed, ch)

/-- Parameters whose change makes a head retrain (R301): raster timing, link options, LOCK_MODE, LOCK_RATIO. -/
def retrains (h id : Nat) : Bool :=
  [Head.LINK_RATE_MAX h, Head.LANES_MAX h, Head.PIXEL_CLOCK h, Head.H_TIMING_A h, Head.H_TIMING_B h, Head.V_TIMING_A h,
    Head.V_TIMING_B h, Head.SYNC_POLARITY h, Head.OUT_COLOUR h, Head.OUT_BPC h, Head.LOCK_MODE h, Head.LOCK_RATIO h].contains id

/-- A head switches off: its layers release what they hold. -/
def State.headOff (s : State) (h : Nat) : State :=
  let s := (s.linkTo h 0).wr (Head.LINK_TRAINED h) 0
  let s := (List.range 4).foldl (fun t l => (t.dropHold (4 * h + l)).wr (Head.LAYER_CURRENT h l) 0) (s.dropScopeHold h)
  (s.setHead h { s.head h with due := none }).retireFreed

/-- One value of a commit is latched. -/
def State.latchOne (s : State) (h : Nat) (e : Nat × PVal) : State :=
  let id := e.1
  match e.2 with
  | .num v =>
    let s := s.wr id v
    if id = Head.HEAD_ENABLE h then
      if v = 0 then s.headOff h
      else if s.rd (Head.LINK_STATE h) = 0 then
        let s := s.linkTo h 1
        if (s.head h).hpd then s.headTrain h else s
      else if s.rd (Head.LINK_STATE h) = 5 then s.headTrain h
      else s
    else if (List.range 8).any fun k => id == Head.CRC_ENABLE h k then
      let k := bits (idNum id) 11 8
      s.setHead h { s.head h with crcArmed := setFlag (s.head h).crcArmed k }
    else if id = Head.LOCK_MODE h then
      (s.lockTo h (if v = 1 then 1 else 0)).setHead h { s.head h with align := 0, good := 0 }
    else s
  | v => (s.wrBlob id (s.valBytes v)).emit (.display h "HDR metadata" (s.valBytes v).length)

/-- The head retrains and its raster starts anew (R301). DEDUCED: the count of P frames of a locked head starts with the raster. -/
def State.restartRaster (s : State) (h : Nat) : State :=
  let s := (s.headTrain h).wr (Head.DISP_FRAME h) 0
  s.setHead h { s.head h with due := none, trim := 0, align := 0, good := 0 }

/-- A commit's values are latched together; the commit is reported and answered (R299 to R301): `ahead` frames after the current one
is the first that shows them. -/
def State.latchGroup (s : State) (h : Nat) (g : HeadGroup) (torn : Bool) (ahead : Nat) : State :=
  let again := g.vals.any fun e => retrains h e.1 && s.rd e.1 != e.2.toNat
  let s := g.vals.foldl (fun t e => t.latchOne h e) s
  let anew := again && s.headRuns h
  let s := if anew then s.restartRaster h else s
  let first := (s.rd (Head.DISP_FRAME h) + (if anew then 1 else ahead)) % 2 ^ 32
  let last := first * 2 ^ 32 + (if g.late then 1 else 0) + (if torn then 2 else 0)
  let s := (s.wr (Head.LAST_COMMIT h) last).count (Head.COMMITS h)
  match g.r with
  | some r => s.releaseIf (fun w => w.why == .headLatch h && w.r == r) Status.OK (some (h, leBytes 8 last))
  | none => s

/-- Values of a commit reach a head (R299): a disabled head has no raster and latches them at once. -/
def State.headReach (s : State) (h : Nat) (r : Option Req) (edge : Nat) (vals : List (Nat × PVal)) : State :=
  let x := s.head h
  if s.headRuns h = false then (s.latchGroup h { r := r, edge := edge, vals := vals } false 1)
  else
    let latchAt := x.frameAt + s.linesNs h (s.vTiming h).1
    let late := s.rd (Head.COMMIT_MODE h) == 1 && x.due.isSome && !x.latched && decide (latchAt ≤ s.clock + s.rd (Head.COMMIT_MARGIN h) * 1000)
    let g : HeadGroup := { r := r, edge := edge, vals := vals, skip := if late then 1 else 0, late := late }
    let s := if late then s.count (Head.COMMITS_LATE h) else s
    s.setHead h { x with groups := x.groups ++ [g] }

/-- Self refresh at a latch point (R303, R304, R53). On leaving it pixels are sent from the second frame start on: the next but one
frame shows the change. -/
def State.selfRefresh (s : State) (h : Nat) (changed : Bool) : State :=
  let x := s.head h
  let st := s.rd (Head.LINK_STATE h)
  let idle := if changed then 0 else x.idle + 1
  let s := s.setHead h { x with idle := idle }
  let psr := decide (2 ≤ h) && bit (s.rd (Head.SINK_CAPS h)) 0
  let enter := psr && (s.duiker || (s.rd (Head.PSR_POLICY h) == 1 && decide (s.rd (Head.PSR_IDLE_FRAMES h) ≤ idle)))
  if st = 4 ∧ changed ∧ s.pow.global ≠ .faultHold then
    ((s.linkTo h 3).count (Head.PSR_EXITS h)).setHead h { x with idle := 0, wake := 2 }
  else if st = 3 ∧ enter then (s.linkTo h 4).count (Head.PSR_ENTRIES h)
  else s

/-- The CRC of one rectangle at a latch point (R305). -/
def State.crcRect (s : State) (h k : Nat) : State :=
  let en := s.rd (Head.CRC_ENABLE h k)
  let x := s.head h
  if en = 0 then s
  else if s.rd (Head.LINK_STATE h) = 4 ∨ s.pow.global = .faultHold then s.wr (Head.CRC_RESULT h k) 4
  else
    let crc := s.rectCrc h k
    let s := s.wr (Head.CRC_LAST h k) crc
    if x.torn then s.wr (Head.CRC_RESULT h k) 3
    else if en = 1 then s.wr (Head.CRC_RESULT h k) 0
    else if crc = s.rd (Head.CRC_EXPECT h k) then
      (s.wr (Head.CRC_RESULT h k) 1).setHead h { x with crcArmed := setFlag x.crcArmed k }
    else
      let s := (s.wr (Head.CRC_RESULT h k) 2).count (Head.CRC_MISMATCHES h k)
      if bit x.crcArmed k then (s.setHead h { x with crcArmed := clearFlag x.crcArmed k }).linkNotify 0x0204 h k k else s

/-! ## Commits of group 0x30 -/

/-- The limits of a head that give RANGE or CONFLICT whatever parameter a commit names (R290, R292, R293). -/
def headModeStatus (c : State) (h : Nat) : Nat :=
  let bpp := bitsPerPixel (c.rd (Head.OUT_COLOUR h)) (c.rd (Head.OUT_BPC h))
  let pc := c.rd (Head.PIXEL_CLOCK h)
  let caps := c.rd (Head.SINK_CAPS h)
  let frameNs := c.linesNs h (c.vTiming h).2.1
  firstBad [
    failIf (timingBad (c.hTiming h) 640 8192 65535 || timingBad (c.vTiming h) 480 4320 8192) Status.RANGE,
    failIf (decide (frameNs < 2 * (c.rdS (Head.LOCK_OFFSET h)).natAbs)) Status.RANGE,
    failIf (!modeFits pc bpp (c.rd (Head.LINK_RATE_MAX h)) (c.rd (Head.LANES_MAX h))) Status.CONFLICT,
    failIf (caps != 0 && !modeFits pc bpp (bits caps 15 8) (bits caps 7 4)) Status.CONFLICT,
    failIf (decide (2 ≤ h) && (c.rd (Head.OUT_COLOUR h) != 0 || c.rd (Head.OUT_BPC h) == 2)) Status.CONFLICT,
    failIf (c.rd (Head.LOCK_MODE h) == 1 && c.rateOff h) Status.CONFLICT]

/-- The checks of a group 0x30 entry beyond range. -/
def headCheck (t : Txn) (id : Nat) (v : PVal) : Nat :=
  let h := idInst id
  let n := idNum id
  let sub := bits n 11 8
  let noPsr := (t.old.head h).hpd && !bit (t.old.head h).caps 0
  let w := (t.cand.hTiming h).1
  let ht := (t.cand.vTiming h).1
  let rectBad (k : Nat) : Bool :=
    let r := t.cand.rd (Head.CRC_RECT h k)
    decide (bits r 47 32 = 0 ∨ bits r 63 48 = 0 ∨ w < bits r 15 0 + bits r 47 32 ∨ ht < bits r 31 16 + bits r 63 48)
  let rectOn (k : Nat) : Bool := t.cand.rd (Head.CRC_ENABLE h k) != 0
  if bits n 15 12 = 1 then
    let handle := t.cand.rd (Head.LAYER_BUFFER h sub)
    firstBad [
      failIf (id == Head.LAYER_BUFFER h sub && v.toNat != 0 && (t.old.bufOf v.toNat).isNone) Status.BAD_PARAM,
      failIf (id == Head.LAYER_BUFFER h sub && v.toNat != 0 && (match t.old.bufOf handle with | some (_, b) => b.cell != 50 + h | none => false))
        Status.CONFLICT,
      failIf (t.cand.layerConflict h sub) Status.CONFLICT]
  else if bits n 15 12 = 2 then failIf ((id == Head.CRC_RECT h sub || rectOn sub) && rectBad sub) Status.CONFLICT
  else if id = Head.HDR_METADATA h then
    firstBad [failIf (decide (2 ≤ h)) Status.CONFLICT,
      failIf (decide ((t.old.valBytes v).length ≠ 0 ∧ (t.old.valBytes v).length ≠ 26)) Status.BAD_PARAM]
  else if id = Head.PSR_POLICY h then failIf (v.toNat == 1 && (decide (h < 2) || noPsr)) Status.CONFLICT
  else if retrains h id ∨ id = Head.LOCK_OFFSET h ∨ id = Head.HEAD_ENABLE h then
    firstBad [headModeStatus t.cand h, failIf ((List.range 8).any fun k => rectOn k && rectBad k) Status.CONFLICT]
  else Status.OK

/-! ## Rows -/

/-- HPD_RISE (R291). -/
def execHpdRise (head : Fin 4) (caps : Nat) (s : State) : Host.Outcome State Fault Refusal :=
  .next (
    let h := head.val
    let s := (s.setHead h { s.head h with hpd := true, caps := caps }).wr (Head.SINK_CAPS h) caps
    let st := s.rd (Head.LINK_STATE h)
    if st = 1 ∨ st = 5 then s.linkTo h 2 else s)

/-- HPD_LOW_TIMEOUT (R291). -/
def execHpdLowTimeout (head : Fin 4) (s : State) : Host.Outcome State Fault Refusal :=
  .next (
    let h := head.val
    let s := (s.setHead h { s.head h with hpd := false, caps := 0 }).wrAll [(Head.SINK_CAPS h, 0), (Head.LINK_TRAINED h, 0)]
    if s.headRuns h then s.linkTo h 1 else s)

/-- HPD_IRQ (R291). -/
def execHpdIrq (head : Fin 4) (linkFailure : Bool) (s : State) : Host.Outcome State Fault Refusal :=
  .next (if linkFailure && s.rd (Head.LINK_STATE head.val) == 3 then s.linkTo head.val 2 else s)

/-- The combinations a head tries, in order: from LINK_RATE_MAX and LANES_MAX within SINK_CAPS, the lower rates first, then
fewer lanes (R291). -/
def State.trainingOrder (s : State) (h : Nat) : List (Nat × Nat) :=
  let caps := s.rd (Head.SINK_CAPS h)
  let top := min (linkKbps (s.rd (Head.LINK_RATE_MAX h))) (linkKbps (bits caps 15 8))
  let rates := (headRates h).filter fun r => decide (linkKbps r ≤ top)
  let lanes := [4, 2, 1].filter fun n => decide (n ≤ s.rd (Head.LANES_MAX h) ∧ n ≤ bits caps 7 4)
  lanes.flatMap fun n => rates.map fun r => (r, n)

/-- LINK_TRAINING_DONE (R291): the first combination that trains and that the mode fits, or LINK_FAIL. -/
def execLinkTrainingDone (head : Fin 4) (works : List (Nat × Nat)) (s : State) : Host.Outcome State Fault Refusal :=
  .next (
    let h := head.val
    if s.rd (Head.LINK_STATE h) = 2 then
      let bpp := bitsPerPixel (s.rd (Head.OUT_COLOUR h)) (s.rd (Head.OUT_BPC h))
      match (s.trainingOrder h).find? (fun e => works.contains e && modeFits (s.rd (Head.PIXEL_CLOCK h)) bpp e.1 e.2) with
      | some e => (s.wr (Head.LINK_TRAINED h) (e.1 * 256 + e.2)).linkTo h 3
      | none => (s.linkTo h 5).count (Head.LINK_TRAIN_FAIL h)
    else s)

/-- The alignment of a locked head at a frame start (R293). DEDUCED: the next frame, whose length the correction changes, is the one that
starts here. DESIGN CHOICE: R293 bounds no jump; the model makes one of all whole lines of the error. -/
def State.alignFrame (s : State) (h : Nat) (phaseErr : Int) : State :=
  let x := s.head h
  let (p, _) := s.lockRatio h
  if s.rd (Head.LOCK_MODE h) = 0 then s
  else if x.align % max 1 p ≠ 0 then s.setHead h { x with align := x.align + 1, trim := 0 }
  else
    let num := max 1 (s.lineTime h).1
    let err := phaseErr.natAbs * (s.lineTime h).2
    let lines := err / num
    let sign : Int := if phaseErr < 0 then 1 else -1
    let jump := s.rd (Head.LOCK_JUMP h)
    let s := s.wrS (Head.LOCK_ERROR h) phaseErr
    if lines = 0 then
      let s := s.setHead h { x with align := 1, good := x.good + 1, trim := 0 }
      if 8 ≤ x.good + 1 then s.lockTo h 2 else s
    else if jump ≠ 0 ∧ jump * num < err then
      ((s.setHead h { x with align := 1, good := 0, trim := sign * (lines : Int) }).count (Head.LOCK_JUMPS h)).lockTo h 1
    else ((s.setHead h { x with align := 1, good := 0, trim := sign }).count (Head.LOCK_TRIMS h)).lockTo h 1

/-- A frame of the raster is being scanned: it has started, and its latch point has not passed (R292). -/
def State.scanning (s : State) (h : Nat) : Bool := s.headRuns h && (s.head h).due.isSome && !(s.head h).latched

/-- DISPLAY_FRAME_START (R292, R293, R302): V_TOTAL lines, changed by a correction, after the frame before. DEDUCED: in self refresh no
frame is scanned (R305), so that none counts in STALE_FRAMES. -/
def execDisplayFrameStart (head : Fin 4) (phaseErr : Int) (s : State) : Host.Outcome State Fault Refusal :=
  .next (
    let h := head.val
    if s.headRuns h then
      let s := s.at ((s.head h).due.getD 0)
      let s := (s.next32 (Head.DISP_FRAME h)).count (Head.FRAMES_SCANNED h)
      let s := s.setHead h { s.head h with frameAt := s.clock, latched := false, torn := false, under := [], wake := (s.head h).wake - 1 }
      let stale := s.rd (Head.LINK_STATE h) != 4 && (List.range 4).any fun l => bit (s.rd (Head.LAYER_STATUS h l)) 0
      let s := if stale then s.count (Head.STALE_FRAMES h) else s
      let s := s.alignFrame h phaseErr
      let x := s.head h
      let s := s.setHead h { x with due := some (x.frameAt + s.linesNs h (((s.vTiming h).2.1 : Int) + x.trim).toNat) }
      (s.fire (100 + h)).emit (.display h "frame start" (s.rd (Head.DISP_FRAME h)))
    else s)

/-- DISPLAY_LATCH_POINT (R297 to R305), the end of the last active line of the frame that is scanned. -/
def execDisplayLatchPoint (head : Fin 4) (s : State) : Host.Outcome State Fault Refusal :=
  .next (
    let h := head.val
    if s.scanning h then
      let s := s.at ((s.head h).frameAt + s.linesNs h (s.vTiming h).1)
      let s := if s.rd (Head.LINK_STATE h) = 4 then s
        else s.addBytes (Head.BYTES_READ h) (((List.range 4).filter fun l => (s.layerContent h l).isSome).map (s.layerRead h)).sum
      let s := (List.range 8).foldl (fun t k => t.crcRect h k) s
      let x := s.head h
      let ready := x.groups.filter fun g => g.skip == 0
      let wait := (x.groups.filter fun g => g.skip != 0).map fun g => { g with skip := g.skip - 1 }
      let s := s.setHead h { x with groups := wait, latched := true, changed := false }
      let s := ready.foldl (fun t g => t.latchGroup h g false (if t.rd (Head.LINK_STATE h) = 4 then 2 else 1)) s
      if s.headRuns h then
        let (s, ch) := s.headTake h true ready
        (s.selfRefresh h (!ready.isEmpty || ch || x.changed)).fire (96 + h)
      else s
    else s)

/-- Values of an IMMEDIATE commit are latched at a line start (R300): the current frame shows them where an active line is still to come.
In self refresh the change is detected at the next latch point and shows two frames after it (R304). -/
def State.latchLine (s : State) (h line : Nat) : State :=
  let x := s.head h
  let active := decide (0 < line ∧ line < (s.vTiming h).1)
  let ahead := (if line < (s.vTiming h).1 then 0 else 1) + (if s.rd (Head.LINK_STATE h) = 4 then 2 else 0)
  let s := s.setHead h { x with groups := [], torn := x.torn || active, changed := true }
  let s := x.groups.foldl (fun t g => t.latchGroup h { g with late := false } active ahead) s
  if s.headRuns h then (s.headTake h false x.groups).1 else s

/-- An active line leaves on the link of an ACTIVE head (R296, R304). -/
def State.sendLine (s : State) (h line : Nat) : State :=
  if s.rd (Head.LINK_STATE h) = 3 ∧ line < (s.vTiming h).1 ∧ (s.head h).wake = 0 then s.emit (.pixels h line (s.lineCodes h line)) else s

/-- DISPLAY_LINE_START (R296, R300): the lines of a frame are counted from the display frame start. -/
def execDisplayLineStart (head : Fin 4) (line : Nat) (s : State) : Host.Outcome State Fault Refusal :=
  .next (
    let h := head.val
    if s.headRuns h && (s.head h).due.isSome then
      let s := s.at ((s.head h).frameAt + s.linesNs h line)
      let s := if s.rd (Head.COMMIT_MODE h) = 0 ∧ (s.head h).groups ≠ [] then s.latchLine h line else s
      s.sendLine h line
    else s)

/-- LAYER_UNDERFLOW (R306). -/
def execLayerUnderflow (head layer : Fin 4) (line x : Nat) (s : State) : Host.Outcome State Fault Refusal :=
  .next (
    let h := head.val
    if s.headRuns h && s.layerSource h layer.val != 0 then
      let d := s.head h
      let s := if d.under.isEmpty then s.count (Head.UNDERFLOW_FRAMES h) else s
      let under := d.under ++ [(layer.val, line, x)]
      let due := match d.lastUnder with | some c => decide (c + 1000000000 ≤ s.clock) | none => true
      let s := s.setHead h { d with under := under, lastUnder := if due then some s.clock else d.lastUnder }
      let s := s.fire 205
      if due then s.linkNotify 0x0203 h 0xFF (maskOf (under.map Prod.fst).eraseDups) else s
    else s)

end Sys2Proof.Machine
end

