-- ==== Sys2Proof/Machine/Ether.lean ====
section
/-! DEFINITION. The Ethernet ports, flow control, and the buffer service (R310 to R315, R338). -/

namespace Sys2Proof.Machine

/-- Ethernet, PTP and the Tick Ring run from WARMUP onward (R338). -/
def State.netRuns (s : State) : Bool :=
  s.pow.global == .warmup || s.pow.global == .ready || s.pow.global == .run || s.pow.global == .faultHold

/-- A port is UP (Table 12-2). -/
def State.ethUp (s : State) (p : Nat) : Bool := s.netRuns && s.rd (Eth.LINK_STATE p) == 2

/-- Changes the link state of a port, with its NOTIFY and event source; TRAINING begins now (R311, R337). -/
def State.ethTo (s : State) (p st : Nat) : State :=
  if s.rd (Eth.LINK_STATE p) = st then s
  else
    let s := (s.wr (Eth.LINK_STATE p) st).setEth p { s.eth p with since := s.clock, pause := none }
    (s.linkNotify 0x0301 p 0 st).fire 204

/-- The ports that are enabled start training when WARMUP is entered (Table 12-2, R338). -/
def State.ethStart (s : State) : State :=
  [0, 1].foldl (fun t p => if t.rd (Eth.ETH_ENABLE p) = 1 then t.ethTo p 1 else t) s

/-- A commit of ETH_ENABLE or ETH_MODE (Table 12-2). -/
def State.ethCommit (s : State) (p : Nat) (mode : Bool) : State :=
  if s.rd (Eth.ETH_ENABLE p) = 0 then s.ethTo p 0
  else if mode then (if s.rd (Eth.LINK_STATE p) = 1 then s.setEth p { s.eth p with since := s.clock } else s.ethTo p 1)
  else if s.rd (Eth.LINK_STATE p) = 0 ∨ s.rd (Eth.LINK_STATE p) = 3 then s.ethTo p 1
  else s

/-- The time from the RST_N rise in ms. -/
def State.sinceRise (s : State) : Nat := (s.clock - s.pow.bootStart) / 1000000

/-- NMP accepts sessions for the first time: Negor has confirmed its start and a port is UP (Table 19-4). -/
def State.noteNmp (s : State) : State :=
  if s.rd Obs.BOOT_TIME_NMP = 0 ∧ s.pow.confirmed ∧ (s.ethUp 0 ∨ s.ethUp 1) then s.wr Obs.BOOT_TIME_NMP s.sinceRise else s

/-- ETH_TRAINING_TIMEOUT (R311). -/
def execEthTrainingTimeout (port : Fin 2) (s : State) : Host.Outcome State Fault Refusal :=
  .next (
    if s.netRuns ∧ s.rd (Eth.LINK_STATE port.val) = 1 then
      ((s.at ((s.eth port.val).since + 500000000)).count (Eth.LINK_FAILS port.val)).ethTo port.val 3
    else s)

/-- ETH_LINK_LOSS (R311). -/
def execEthLinkLoss (port : Fin 2) (uncorrected : Nat) (s : State) : Host.Outcome State Fault Refusal :=
  .next (
    if s.ethUp port.val then (s.countBy (Eth.FEC_UNCORRECTED port.val) uncorrected).ethTo port.val 1 else s)

/-! ## Priority flow control and congestion (R313) -/

/-- The line rate of a port in Gbit/s (Table 12-1). -/
def State.lineGbit (s : State) (p : Nat) : Nat := if s.rd (Eth.ETH_MODE p) = 1 then 200 else 400

/-- PFC_PAUSE_RX (R313): a pause on ROCE_PRIORITY holds RoCEv2 until it ends or is released. A quantum is 512 bit times
(PRESUMED, IEEE 802.1Qbb). -/
def execPfcPauseRx (port : Fin 2) (priority : Fin 8) (quanta : Nat) (s : State) : Host.Outcome State Fault Refusal :=
  .next (
    if s.ethUp port.val then
      let p := port.val
      let s := (s.rxFrame p).count (Eth.PFC_RX p)
      let e := s.eth p
      if s.rd (Eth.PFC_ENABLE p) = 0 ∨ priority.val ≠ s.rd (Eth.ROCE_PRIORITY p) ∨ s.clock < e.ignoreUntil then s
      else if quanta = 0 then (s.setEth p { e with pause := none }).roceFlush p
      else
        let start := if s.paused p then (e.pause.getD (s.clock, 0)).1 else s.clock
        s.setEth p { e with pause := some (start, s.clock + quanta * 512 / s.lineGbit p) }
    else s)

/-- PFC_STORM (R313): a pause longer than PFC_STORM_LIMIT is ignored for 1 s. -/
def execPfcStorm (port : Fin 2) (s : State) : Host.Outcome State Fault Refusal :=
  .next (match (s.eth port.val).pause with
    | none => s
    | some e =>
      let p := port.val
      let s := s.at (e.1 + s.rd (Eth.PFC_STORM_LIMIT p) * 1000000)
      let s := s.setEth p { s.eth p with pause := none, ignoreUntil := s.clock + 1000000000 }
      ((s.count (Eth.PFC_STORMS p)).linkNotify 0x0302 p 0 0).roceFlush p)

/-- PFC_RX_BUFFER_THRESHOLD (R313): PFC is sent above 75 % and released below 50 %. -/
def execPfcRxBufferThreshold (port : Fin 2) (above : Bool) (s : State) : Host.Outcome State Fault Refusal :=
  .next (
    let p := port.val
    if s.ethUp p ∧ s.rd (Eth.PFC_ENABLE p) = 1 ∧ (s.eth p).sentPause ≠ above then
      let s := s.setEth p { s.eth p with sentPause := above }
      (s.count (Eth.PFC_TX p)).emit (.packet p (if above then "PFC pause" else "PFC release") {} (leBytes 1 (s.rd (Eth.ROCE_PRIORITY p))))
    else s)

/-- The full rate of a queue pair. -/
def fullRate : Nat := 1000000000

/-- CNP_RX (R313): the rate of the queue pair is halved. -/
def execCnpRx (qp : Nat) (s : State) : Host.Outcome State Fault Refusal :=
  .next (match tfind s.qps qp with
    | none => s
    | some q => ((s.rxFrame q.port).count (Eth.CNP_RX q.port)).setQp qp { q with rate := q.rate / 2, rateAt := s.clock })

/-- CNP_RATE_RECOVERY (R313): the rate recovers by 5 % of the line rate every 50 µs, up to it. DEDUCED: 5 % of the line
rate. -/
def execCnpRateRecovery (qp : Nat) (s : State) : Host.Outcome State Fault Refusal :=
  .next (match tfind s.qps qp with
    | none => s
    | some q =>
      if q.rate < fullRate then
        let s := s.at (q.rateAt + 50000)
        s.setQp qp { q with rate := min fullRate (q.rate + fullRate / 20), rateAt := s.clock }
      else s)

/-- ECN_MARKED_RX (R313): answered with a CNP. -/
def execEcnMarkedRx (qp : Nat) (s : State) : Host.Outcome State Fault Refusal :=
  .next (match tfind s.qps qp with
    | none => s
    | some q => ((s.rxFrame q.port).count (Eth.CNP_TX q.port)).roceOut q.port 0 (.packet q.port "CNP" (s.control q.port 1) (leBytes 4 qp)))

/-! ## The buffer service (R315) -/

/-- Why a connect request is refused: 0 it is not. The codes are the model's own. -/
def State.bufferConnectBad (s : State) (qpn mtu : Nat) (data : List Byte) : Nat :=
  let sess := leAt data 0 4
  match s.session sess with
  | none => 1
  | some x =>
    if data.length ≠ 20 ∨ (hmacSha256 x.key (ascii "NMP-RDMA" ++ leBytes 4 qpn)).take 16 ≠ slice data 4 16 then 1
    else if 2 ≤ (s.qps.filter fun q => q.2.use == .buffer sess).length then 2
    else if qpLimit ≤ s.qps.length then 3
    else if !pathMtuOk mtu then 4
    else 0

/-- BUFFER_SERVICE_CONNECT (R314, R315). A request outside the port's VLAN is not the port's (DEDUCED from Table 12-9). -/
def execBufferServiceConnect (port : Fin 2) (vlan : Nat) (qpn : BitVec 24) (mtu : Nat) (data : List Byte) (s : State) :
    Host.Outcome State Fault Refusal :=
  .next (
    if s.ethUp port.val then
      let s := s.rxFrame port.val
      let bad := s.bufferConnectBad qpn.toNat mtu data
      let mark := s.control port.val 1
      if vlan ≠ mark.vlan then s
      else if bad = 0 then (s.addQp port.val mtu (.buffer (leAt data 0 4))).roceOut port.val 0 (.connect port.val mark true 0)
      else s.roceOut port.val 0 (.connect port.val mark false bad)
    else s)

/-- A remote access error on a queue pair (R89). -/
def State.accessError (s : State) (q : Qp) (key : Nat) : State :=
  (s.count Sys.BUF_WRITE_REFUSED).roceOut q.port 0 (.packet q.port "RDMA remote access error" (s.control q.port 1) (leBytes 4 key))

/-- The packets of a READ response: path-MTU pieces of the data (R314). -/
def State.readResponse (s : State) (q : Qp) (data : List Byte) : State :=
  (List.range (max 1 (ceilDiv data.length (max 1 q.mtu)))).foldl (fun (t : State) i =>
    t.roceOut q.port 0 (.packet q.port "RDMA READ response" (s.control q.port 1) (slice data (q.mtu * i) q.mtu))) s

/-- BUF_RDMA_ACCESS (R89, R314): an RDMA WRITE or READ on a buffer-service queue pair, checked at its first packet; what answers it leaves on
that queue pair's port. DESIGN CHOICE: a seventeenth outstanding READ is refused as an invalid request; R314 gives the limit only. -/
def execBufRdmaAccess (qp key : Nat) (write : Bool) (offset length : Nat) (data : List Byte) (s : State) :
    Host.Outcome State Fault Refusal :=
  .next (match tfind s.qps qp with
    | some q =>
      if !s.ethUp q.port || (match q.use with | .buffer _ => false | .nvme _ _ => true) then s
      else
        let s := s.rxFrame q.port
        if write = false ∧ 16 ≤ q.reads then
          s.roceOut q.port 0 (.packet q.port "RDMA invalid request" (s.control q.port 1) (leBytes 4 key))
        else match s.nmp.buffers.find? (fun p => p.2.key == key && p.2.keyValid) with
          | none => s.accessError q key
          | some (n, b) =>
            if b.size < offset + length then s.accessError q key
            else
              let s := s.setBuf n { b with inProgress := b.inProgress + 1 }
              if write then
                { s with nmp := { s.nmp with mem := memWriteN s.nmp.mem (bufAddr n offset) (data.take length) } }
              else (s.setQp qp { q with reads := q.reads + 1 }).readResponse q (memReadN s.nmp.mem (bufAddr n offset) length)
    | none => s)

/-- One RDMA message on a buffer is over: a BUF_FREE reply that waited is sent, and the buffer may retire (R89, R90). -/
def State.messageOver (s : State) (n : Nat) (b : Buffer) : State :=
  if b.inProgress = 1 then
    let s := s.setBuf n { b with inProgress := 0, waiting := none }
    match b.waiting with
    | some r => (s.reply r 0x41 Status.OK []).retireFreed
    | none => s.retireFreed
  else s.setBuf n { b with inProgress := b.inProgress - 1 }

/-- RDMA_MESSAGE_COMPLETE (R89): an RDMA message on a buffer key completes on its queue pair. -/
def execRdmaMessageComplete (qp key : Nat) (write : Bool) (s : State) : Host.Outcome State Fault Refusal :=
  .next (match s.nmp.buffers.find? (fun p => p.2.key == key && decide (0 < p.2.inProgress)) with
    | none => s
    | some (n, b) =>
      let s := match tfind s.qps qp with
        | some q => if write then s else s.setQp qp { q with reads := q.reads - 1 }
        | none => s
      s.messageOver n b)

/-! ## Addresses (R310, R312) -/

/-- The multicast groups a port has joined: PTP's, and those of its enabled ST 2110 receivers (Table 12-1). The PTP groups are
224.0.1.129 and ff0e::181 (PRESUMED, IEEE 1588). -/
def State.groups (s : State) (p : Nat) (v6 : Bool) : List (List Byte) :=
  let mapped (a : List Byte) : Bool := slice a 0 12 == zeroBytes 10 ++ [0xFF, 0xFF]
  let ptp : List (List Byte) := if s.rd Time.PTP_ROLE = 0 then []
    else if v6 then [[0xFF, 0x0E] ++ zeroBytes 12 ++ [0x01, 0x81]] else [[224, 0, 1, 129]]
  let rx := (List.range 16).filterMap fun k =>
    let n := 0x50 + k
    let a := s.rdBlob (St.DEST_ADDRESS n p)
    if s.rd (St.STREAM_ENABLE n) = 1 ∧ bit (s.rd (St.STREAM_PORTS n)) p then
      (if mapped a then (if v6 then none else some (slice a 12 4)) else (if v6 then some a else none))
    else none
  ptp ++ rx

/-- The membership reports of a port (R310). -/
def State.reportGroups (s : State) (p : Nat) (v6 : Bool) : State :=
  s.emit (.packet p (if v6 then "MLDv2 report" else "IGMPv3 report") { vlan := s.rd (Eth.VLAN_ID p) } (s.groups p v6).flatten)

/-- The groups of a port have changed from those it had joined: it reports them (R310; that a host reports a change at once is PRESUMED,
IGMPv3 and MLDv2). -/
def State.reportChanges (s : State) (before : Nat → Bool → List (List Byte)) : State :=
  [(0, false), (0, true), (1, false), (1, true)].foldl (fun (t : State) e =>
    if t.ethUp e.1 ∧ t.groups e.1 e.2 ≠ before e.1 e.2 then t.reportGroups e.1 e.2 else t) s

/-- ARP_NDP_ICMP_RX (R310): a request for one of the port's addresses is answered; a query gets a membership report. -/
def execArpNdpIcmpRx (port : Fin 2) (vlan : Nat) (kind : Fin 6) (address data : List Byte) (s : State) : Host.Outcome State Fault Refusal :=
  .next (
    if s.ethUp port.val then
      let p := port.val
      let s := s.rxFrame p
      let family := if kind.val = 0 ∨ kind.val = 2 then 4 else 16
      let mark : Marking := { vlan := s.rd (Eth.VLAN_ID p) }
      if vlan ≠ mark.vlan then s
      else if kind.val = 4 then s.reportGroups p false
      else if kind.val = 5 then s.reportGroups p true
      else if address.length ≠ family ∨ !s.ownAddress p address then s
      else if kind.val = 0 then s.emit (.packet p "ARP reply" mark (beBytes 6 (s.rd (Eth.MAC_ADDRESS p)) ++ address))
      else if kind.val = 1 then s.emit (.packet p "neighbour advertisement" mark (address ++ beBytes 6 (s.rd (Eth.MAC_ADDRESS p))))
      else if kind.val = 2 then s.emit (.packet p "ICMP echo reply" mark (address ++ data))
      else s.emit (.packet p "ICMPv6 echo reply" mark (address ++ data))
    else s)

/-- ETH_LOCK_ACHIEVED (R310, R311): the port is UP and reports the groups it has joined. -/
def execEthLockAchieved (port : Fin 2) (s : State) : Host.Outcome State Fault Refusal :=
  .next (
    if s.netRuns ∧ s.rd (Eth.LINK_STATE port.val) = 1 then
      ((s.ethTo port.val 2).noteNmp).reportChanges fun p v6 => if p = port.val then [] else s.groups p v6
    else s)

/-! ## Commits -/

/-- Parameters stored in the Ledger and restored at BOOT (R312). -/
def ethStored (id : Nat) : Bool := idGroup id == 0x40 && decide (4 ≤ idNum id ∧ idNum id ≤ 0x0B)

/-- The parameters of a port stored as numbers, in the order of the record. -/
def ethNumbers (p : Nat) : List Nat :=
  [Eth.IPV4_ADDRESS p, Eth.IPV4_PREFIX p, Eth.IPV4_GATEWAY p, Eth.IPV6_PREFIX p, Eth.VLAN_ID p, Eth.MTU p]

/-- The record of the stored values of both ports, 56 bytes each (R312, Table 19-5; the layout is internal, R485). -/
def State.ethRecord (s : State) : List Byte :=
  [0, 1].flatMap fun p => (ethNumbers p).flatMap (fun id => leBytes 4 (s.rd id)) ++ s.rdBlob (Eth.IPV6_ADDRESS p) ++
    s.rdBlob (Eth.IPV6_GATEWAY p)

/-- Takes a stored record back (R312). -/
def State.ethRestore (s : State) (b : List Byte) : State :=
  if b.length = 112 then
    [0, 1].foldl (fun t p =>
      let t := t.wrAll ((ethNumbers p).zipIdx.map fun (e : Nat × Nat) => (e.1, leAt b (56 * p + 4 * e.2) 4))
      (t.wrBlob (Eth.IPV6_ADDRESS p) (slice b (56 * p + 24) 16)).wrBlob (Eth.IPV6_GATEWAY p) (slice b (56 * p + 40) 16)) s
  else s

/-- What a committed value of group 0x40 does beyond being held. -/
def ethApply (id : Nat) (s : State) : State :=
  if idGroup id = 0x40 then
    let p := idInst id
    if idNum id = 1 then s.ethCommit p false
    else if idNum id = 2 then s.ethCommit p true
    else if ethStored id then s.ledgerPut 2 3 s.ethRecord
    else s
  else s

end Sys2Proof.Machine
end

