-- ==== Sys2Proof/Machine/TimeRef.lean ====
section
/-! DEFINITION. The states of the Tick Generator, steps of Device Time, PTP and the sync inputs (R38, R39, R321 to R329,
R337). -/

namespace Sys2Proof.Machine

/-! ## The Tick Generator's states (Table 02-2, R337) -/

namespace TickState
def FREE_RUN : Nat := 0
def ACQUIRING : Nat := 1
def LOCKED : Nat := 2
def HOLDOVER : Nat := 3
end TickState

/-- A Tick Generator NOTIFY (R337). -/
def State.tickNotify (s : State) (code : Nat) (amount : Int) (seq value : Nat) : State :=
  s.notify 1 code (leBytes 4 value ++ leBytes 4 seq ++ leBytes 8 (ofSigned 64 amount))

/-- Changes the Tick Generator state (R39). Entering ACQUIRING begins a new run of ticks and a re-phase (R36, R38). -/
def State.tickTo (s : State) (st : Nat) : State :=
  let s := if st = TickState.ACQUIRING then
      { s with tick := { s.tick with lockRun := 0, rephase := max 1 s.tick.rephase } } else s
  if s.rd Tick.TICK_STATE = st then s
  else
    let s := (s.wr Tick.TICK_STATE st).count Tick.TICK_STATE_CHANGES
    let s := if st = TickState.HOLDOVER then { s with tick := { s.tick with holdAt := s.clock } } else s
    (s.tickNotify 1 0 s.tickSeq st).fire 3

/-- The source in force stops: LOCKED goes to HOLDOVER (Table 02-2). -/
def State.sourceStopped (s : State) (src : Nat) : State :=
  if s.tick.src = src ∧ s.rd Tick.TICK_STATE = TickState.LOCKED then s.tickTo TickState.HOLDOVER else s

/-- The source in force returns: HOLDOVER goes to ACQUIRING (Table 02-2). -/
def State.sourceReturned (s : State) (src : Nat) : State :=
  if s.tick.src = src ∧ s.rd Tick.TICK_STATE = TickState.HOLDOVER then s.tickTo TickState.ACQUIRING else s

/-- The source in force has changed its rate: LOCKED or HOLDOVER goes to ACQUIRING (Table 02-2). -/
def State.sourceChanged (s : State) (src : Nat) : State :=
  if s.tick.src = src ∧ s.rd Tick.TICK_STATE ≠ TickState.FREE_RUN then s.tickTo TickState.ACQUIRING else s

/-- Selects a source: FREE_RUN for FREE, ACQUIRING for any other (Table 02-2), and a re-phase (R36). -/
def State.selectSource (s : State) (src : Nat) : State :=
  let s := { s with tick := { s.tick with src := src, rephase := max 1 s.tick.rephase } }
  s.tickTo (if src = 0 then TickState.FREE_RUN else TickState.ACQUIRING)

/-! ## Device Time -/

/-- Device Time goes on from its present value at another rate, in parts per 10^9 (R321). -/
def State.setTrim (s : State) (trim : Int) : State :=
  { s with time := { s.time with base := s.deviceTime, ref := s.clock, trim := trim } }

/-- Device Time reads `t` at device clock `ref`, without a step. -/
def State.setTime (s : State) (t ref : Nat) : State := { s with time := { s.time with base := t, ref := ref } }

/-- An entry of TIME_STEP_LOG (Table 12-11). -/
def stepEntry (after : Nat) (amount : Int) (epoch : Nat) : List Byte :=
  leBytes 2 epoch ++ zeroBytes 6 ++ leBytes 8 (ofSigned 64 amount) ++ leBytes 8 after

/-- A step of Device Time by `amount` (R321, R323): the Time Epoch and TIME_STEPS, the log with its 16 newest entries, the
NOTIFY, and a re-phase of a tick that follows Device Time. -/
def State.timeStep (s : State) (amount : Int) : State :=
  let t := ofSigned 64 ((s.deviceTime : Int) + amount)
  let s := s.setTime (t - t % 2) s.clock
  let epoch := (s.epoch + 1) % 65536
  let s := (s.wr Time.TIME_EPOCH epoch).count Time.TIME_STEPS
  let s := s.wrBlob Time.TIME_STEP_LOG ((stepEntry s.deviceTime amount epoch ++ s.rdBlob Time.TIME_STEP_LOG).take 384)
  let s := if s.tick.src = 1 then { s with tick := { s.tick with rephase := max 1 s.tick.rephase } } else s
  ((s.trace 0 0 s.syncPayload).tickNotify 5 amount s.tickSeq epoch).fire 4

/-- The rate correction that answers an offset: against its sign, of a size the spec leaves open, within ±200 ppm (R323). -/
def State.servoTrim (s : State) (offset : Int) : State :=
  let (k, s) := s.draw
  let size : Int := ((Config.servoRate k).toNat % 200001 : Nat)
  s.setTrim (if offset < 0 then size else if offset = 0 then 0 else -size)

/-- The servo meets an offset of Device Time from its reference (R323): beyond TIME_STEP_THRESHOLD a step, else a rate
correction; then TIME_STATE is LOCKED. DESIGN CHOICE: an offset within the threshold locks. -/
def State.servo (s : State) (offset : Int) : State :=
  if (s.rd Time.TIME_STEP_THRESHOLD : Int) < |offset| then s.timeStep (-offset)
  else (s.servoTrim offset).wr Time.TIME_STATE 2

/-- A commit of TIME_SOURCE: FREE and HOST run from the reference oscillator, PTP and RING begin in ACQUIRING (R321). -/
def State.timeSource (s : State) : State :=
  let src := s.rd Time.TIME_SOURCE
  if src = 0 ∨ src = 3 then (s.setTrim 0).wr Time.TIME_STATE 0 else s.wr Time.TIME_STATE 1

/-- A tick edge takes a waiting TIME_SET: it gives the Device Time of that edge (R321). -/
def State.timeSetAtEdge (s : State) : State :=
  match s.time.set with
  | none => s
  | some v =>
    let s := { s with time := { s.time with set := none } }
    s.timeStep ((v : Int) - (s.deviceTime : Int))

/-! ## PTP (R322 to R324). Message layouts and the comparison of clocks are IEEE 1588's (PRESUMED). -/

/-- Fields of a PTP header. -/
structure PtpHeader where
  type : Nat
  domain : Nat
  twoStep : Bool
  /-- correctionField in ns. -/
  correction : Int
  source : Nat
  seq : Nat
  deriving DecidableEq, Repr

def ptpHeader (b : List Byte) : PtpHeader :=
  { type := beNat (slice b 0 1) % 16, domain := beNat (slice b 4 1), twoStep := bit (beNat (slice b 6 1)) 1,
    correction := toSigned 64 (beNat (slice b 8 8)) / 65536, source := beNat (slice b 20 10), seq := beNat (slice b 30 2) }

/-- The 80-bit timestamp of a message in ns. -/
def ptpStamp (b : List Byte) : Nat := beNat (slice b 34 6) * 1000000000 + beNat (slice b 40 4)

/-- What an Announce says of its grandmaster. -/
def announceClock (b : List Byte) : PtpClock :=
  { priority1 := beNat (slice b 47 1), clockClass := beNat (slice b 48 1), accuracy := beNat (slice b 49 1),
    variance := beNat (slice b 50 2), priority2 := beNat (slice b 52 1), identity := beNat (slice b 53 8),
    steps := beNat (slice b 61 2) }

/-- The clock identity of the device: the EUI-64 of the MAC of port 0. -/
def State.ptpIdentity (s : State) : Nat :=
  let m := beBytes 6 (s.rd (Eth.MAC_ADDRESS 0))
  beNat (slice m 0 3 ++ [0xFF, 0xFE] ++ slice m 3 3)

/-- The device's own clock data, as a master (PTP_PRIORITY; class, accuracy and variance of a clock of no known quality). -/
def State.ownClock (s : State) : PtpClock :=
  { priority1 := bits (s.rd Time.PTP_PRIORITY) 15 8, clockClass := 248, accuracy := 0xFE, variance := 0xFFFF,
    priority2 := bits (s.rd Time.PTP_PRIORITY) 7 0, identity := s.ptpIdentity, steps := 0 }

/-- The order of clocks under BMCA: the lower key is the better clock. -/
def PtpClock.key (c : PtpClock) : List Nat :=
  [c.priority1, c.clockClass, c.accuracy, c.variance, c.priority2, c.identity, c.steps]

/-- Lexicographic comparison. -/
def keyLess : List Nat → List Nat → Bool
  | a :: x, b :: y => if a < b then true else if b < a then false else keyLess x y
  | [], _ :: _ => true
  | _, [] => false

/-- Log2 intervals of PTP_INTERVALS: byte 2 announce, 1 sync, 0 delay request; in ns. -/
def State.ptpInterval (s : State) (which : Nat) : Nat :=
  let e := toSigned 8 (bits (s.rd Time.PTP_INTERVALS) (8 * which + 7) (8 * which))
  if 0 ≤ e then 1000000000 * 2 ^ e.toNat else 1000000000 / 2 ^ (-e).toNat

/-- The foreign masters that qualify: at least two Announce messages, the latest within four announce intervals. -/
def State.qualified (s : State) : List PtpMaster :=
  s.ptp.foreign.filter fun m => decide (2 ≤ m.count ∧ s.clock ≤ m.heardAt + 4 * s.ptpInterval 2)

/-- The best qualified master. -/
def State.bestMaster (s : State) : Option PtpMaster :=
  s.qualified.foldl (fun best m => match best with
    | none => some m
    | some b => if keyLess (m.clock.key ++ [m.source, m.port]) (b.clock.key ++ [b.source, b.port]) then some m else best) none

/-- The states of the ports of a device that is master, or of a slave without one (R322): BMCA picks one port, and the other is PASSIVE.
DESIGN CHOICE: with no better master heard it picks the lowest port that is UP. -/
def State.ptpAlone (s : State) : State :=
  if s.rd Time.PTP_ROLE = 2 then
    let p := if s.ethUp 1 ∧ ¬s.ethUp 0 then 1 else 0
    s.wrAll [(Time.PTP_PORT_STATE p, 6), (Time.PTP_PORT_STATE (1 - p), 7)]
  else s.wrAll [(Time.PTP_PORT_STATE 0, 4), (Time.PTP_PORT_STATE 1, 4)]

/-- Selects a port and its state (R322, BMCA picks one port): SLAVE codes 8 and 9, MASTER 6, LISTENING 4, PASSIVE 7,
DISABLED 3. -/
def State.bmca (s : State) : State :=
  let role := s.rd Time.PTP_ROLE
  if role = 0 then ({ s with ptp := { s.ptp with master := none } }).wrAll [(Time.PTP_PORT_STATE 0, 3), (Time.PTP_PORT_STATE 1, 3)]
  else
    match s.bestMaster with
    | some m =>
      if role = 2 ∧ keyLess s.ownClock.key m.clock.key then
        ({ s with ptp := { s.ptp with master := none } }).ptpAlone
      else
        let new : Bool := s.ptp.master != some (m.port, m.source)
        let p0 := if new then { s.ptp with master := some (m.port, m.source), sync := none, haveSync := false, req := none }
          else s.ptp
        let s : State := { s with ptp := p0 }
        let s := if new then s.wr (Time.PTP_PORT_STATE m.port) 8 else s
        let s := if new ∧ s.rd Time.TIME_SOURCE = 1 then s.wr Time.TIME_STATE 1 else s
        let s := s.wr (Time.PTP_PORT_STATE (1 - m.port)) (if role = 2 then 7 else 4)
        (s.wr Time.PTP_GRANDMASTER m.clock.identity).sourceReturned 1
    | none => ({ s with ptp := { s.ptp with master := none } }).ptpAlone

/-- Both halves of a delay measurement are known: the offset from the master drives the servo (R322, R323). -/
def State.ptpOffset (s : State) (port : Nat) : State :=
  match s.ptp.delay with
  | none => s
  | some d =>
    let offset := s.ptp.t2 - s.ptp.t1 - d
    let s := (s.wr Time.PTP_OFFSET (ofSigned 64 offset)).wr (Time.PTP_PORT_STATE port) 9
    if s.rd Time.TIME_SOURCE = 1 then s.servo offset else s

/-- A Sync, with its departure known (one-step, or by its Follow_Up). A time beyond 2^64 − 1 ns is refused (R324). -/
def State.ptpSync (s : State) (port : Nat) (t1 : Nat) (corr : Int) (t2 : Nat) : State :=
  if 2 ^ 64 ≤ t1 then s.count Time.PTP_BAD_TIME
  else
    let asym := s.rdS (Time.PTP_ASYMMETRY port)
    ({ s with ptp := { s.ptp with t1 := (t1 : Int) + corr, t2 := (t2 : Int) - asym, haveSync := true, sync := none } }).ptpOffset port

/-- A Delay_Resp: the mean path delay is ((t2 − t1) + (t4 − t3)) ÷ 2. -/
def State.ptpDelay (s : State) (port : Nat) (t3 t4 : Nat) (corr : Int) : State :=
  if 2 ^ 64 ≤ t4 then s.count Time.PTP_BAD_TIME
  else if s.ptp.haveSync then
    let asym := s.rdS (Time.PTP_ASYMMETRY port)
    let d := (s.ptp.t2 - s.ptp.t1 + ((t4 : Int) - corr - ((t3 : Int) + asym))) / 2
    ({ s with ptp := { s.ptp with delay := some d, req := none } }).wr Time.PTP_PATH_DELAY (max 0 d).toNat
  else s

/-- An Announce is entered among the foreign masters, and BMCA runs. -/
def State.ptpAnnounce (s : State) (port : Nat) (h : PtpHeader) (b : List Byte) : State :=
  let hit (m : PtpMaster) : Bool := m.port == port && m.source == h.source
  let old := s.ptp.foreign.find? hit
  let m : PtpMaster := { port := port, source := h.source, count := (old.map PtpMaster.count).getD 0 + 1, heardAt := s.clock,
                         clock := announceClock b }
  ({ s with ptp := { s.ptp with foreign := m :: s.ptp.foreign.filter fun x => !hit x } }).bmca

/-- logMessageInterval of a message: that of PTP_INTERVALS, and 0x7F for a Delay_Req and a management message. -/
def State.ptpLog (s : State) (type : Nat) : Nat :=
  let v := s.rd Time.PTP_INTERVALS
  if type = 0xB then bits v 23 16 else if type = 0x0 ∨ type = 0x8 then bits v 15 8 else if type = 0x9 then bits v 7 0 else 0x7F

/-- The common header of a message the device sends; `corr` is its correctionField. -/
def State.ptpHead (s : State) (type len port seq flags : Nat) (corr : List Byte) : List Byte :=
  let control := if type = 0 then 0 else if type = 1 then 1 else if type = 8 then 2 else if type = 9 then 3 else if type = 0xD then 4 else 5
  beBytes 1 type ++ beBytes 1 0x12 ++ beBytes 2 len ++ beBytes 1 (s.rd Time.PTP_DOMAIN) ++ zeroBytes 1 ++ beBytes 2 flags ++
    corr ++ zeroBytes 4 ++ beBytes 8 s.ptpIdentity ++ beBytes 2 (port + 1) ++ beBytes 2 seq ++ beBytes 1 control ++
    beBytes 1 (s.ptpLog type)

/-- A time in the 10 bytes of a PTP timestamp. -/
def ptpTime (t : Nat) : List Byte := beBytes 6 (t / 1000000000) ++ beBytes 4 (t % 1000000000)

/-- The time stamp of a message that arrives on a port, and of one that leaves, with PTP_ASYMMETRY removed (Table 12-5). -/
def State.ptpStampIn (s : State) (port : Nat) : Nat := ((s.deviceTime : Int) - s.rdS (Time.PTP_ASYMMETRY port)).toNat
def State.ptpStampOut (s : State) (port : Nat) : Nat := ((s.deviceTime : Int) + s.rdS (Time.PTP_ASYMMETRY port)).toNat

/-- A message answered as master: a Delay_Resp to a Delay_Req, with the sequence, the correction and the port identity of the request. -/
def State.ptpAnswer (s : State) (port : Nat) (h : PtpHeader) (b : List Byte) : State :=
  if s.rd (Time.PTP_PORT_STATE port) = 6 then
    s.emit (.packet port "PTP Delay_Resp" (s.control port 2) (s.ptpHead 0x9 54 port h.seq 0 (slice b 8 8) ++ ptpTime (s.ptpStampIn port) ++
      beBytes 10 h.source))
  else s

/-- The synchronisation metadata TLV of ST 2059-2 in its management message, with the tick rate as default frame rate. The layout and the zeros of
the fields that say no local time is kept are PRESUMED. -/
def State.syncMetadata (s : State) (port seq : Nat) : List Byte :=
  s.ptpHead 0xD 100 port seq 0 (zeroBytes 8) ++ List.replicate 10 0xFF ++ zeroBytes 2 ++ beBytes 1 3 ++ zeroBytes 1 ++
    beBytes 2 3 ++ beBytes 2 48 ++ beBytes 3 0x6897E8 ++ beBytes 3 1 ++ beBytes 4 (s.rd Tick.TICK_RATE_N) ++
    beBytes 4 (s.rd Tick.TICK_RATE_D) ++ zeroBytes 34

/-- PTP_MESSAGE_RX (R322): messages of another domain, or outside the port's VLAN (DEDUCED from Table 12-9), and management messages are ignored. -/
def execPtpMessageRx (port : Fin 2) (vlan : Nat) (bytes : List Byte) (s : State) : Host.Outcome State Fault Refusal :=
  .next (
    let p := port.val
    if s.ethUp p then
      let s := s.rxFrame p
      let h := ptpHeader bytes
      let selected := s.ptp.master == some (p, h.source)
      if s.rd Time.PTP_ROLE = 0 ∨ vlan ≠ s.rd (Eth.VLAN_ID p) ∨ h.domain ≠ s.rd Time.PTP_DOMAIN then s
      else
        match h.type with
        | 0xB => if 64 ≤ bytes.length ∧ h.source / 65536 ≠ s.ptpIdentity then s.ptpAnnounce p h bytes else s
        | 0x0 =>
          if selected then
            (if h.twoStep then { s with ptp := { s.ptp with sync := some (h.seq, s.deviceTime, h.correction) } }
             else s.ptpSync p (ptpStamp bytes) h.correction s.deviceTime)
          else s
        | 0x8 =>
          (match s.ptp.sync with
           | some (q, t2, c) => if selected ∧ q = h.seq then s.ptpSync p (ptpStamp bytes) (c + h.correction) t2 else s
           | none => s)
        | 0x9 =>
          (match s.ptp.req with
           | some (q, t3) =>
             if selected ∧ q = h.seq ∧ beNat (slice bytes 44 8) = s.ptpIdentity then s.ptpDelay p t3 (ptpStamp bytes) h.correction else s
           | none => s)
        | 0x1 => s.ptpAnswer p h bytes
        | _ => s
    else s)

/-- PTP_ANNOUNCE_TIMEOUT (R323): the selected master is lost; Device Time keeps its last rate in HOLDOVER, which stops a tick
source PTP. -/
def execPtpAnnounceTimeout (s : State) : Host.Outcome State Fault Refusal :=
  .next (match s.ptp.master with
    | none => s
    | some m =>
      let last := ((s.ptp.foreign.find? fun x => x.port == m.1 && x.source == m.2).map PtpMaster.heardAt).getD s.clock
      let s := s.at (last + s.rd Time.PTP_ANNOUNCE_TIMEOUT * s.ptpInterval 2)
      let s := { s with ptp := { s.ptp with foreign := s.ptp.foreign.filter fun x => !(x.port == m.1 && x.source == m.2),
                                            delay := none, haveSync := false } }
      let s := s.bmca
      if s.ptp.master.isSome then s
      else
        let s := if s.rd Time.TIME_SOURCE = 1 then s.wr Time.TIME_STATE 3 else s
        s.sourceStopped 1)

/-- PTP_INTERVAL_SEND (R322): as master Announce (with the ST 2059-2 metadata beside it) and two-step Sync, as slave
Delay_Req. Without a master the choice of the port is made anew with each announce interval. -/
def execPtpIntervalSend (port : Fin 2) (kind : Fin 3) (s : State) : Host.Outcome State Fault Refusal :=
  .next (
    let p := port.val
    if s.ethUp p then
      let s := if kind.val = 0 ∧ s.ptp.master = none then s.bmca else s
      let st := s.rd (Time.PTP_PORT_STATE p)
      if kind.val = 0 ∧ st = 6 then
        let q := s.ptp.announceSeq
        let c := s.ownClock
        let s := { s with ptp := { s.ptp with announceSeq := (q + 1) % 65536 } }
        let s := s.emit (.packet p "PTP Announce" (s.control p 2) (s.ptpHead 0xB 64 p q 0 (zeroBytes 8) ++ ptpTime 0 ++ zeroBytes 3 ++ beBytes 1 c.priority1 ++
          beBytes 1 c.clockClass ++ beBytes 1 c.accuracy ++ beBytes 2 c.variance ++ beBytes 1 c.priority2 ++
          beBytes 8 c.identity ++ beBytes 2 0 ++ beBytes 1 0xA0))
        s.emit (.packet p "PTP ST 2059-2 metadata" (s.control p 2) (s.syncMetadata p q))
      else if kind.val = 1 ∧ st = 6 then
        let q := s.ptp.syncSeq
        let s := { s with ptp := { s.ptp with syncSeq := (q + 1) % 65536 } }
        let s := s.emit (.packet p "PTP Sync" (s.control p 2) (s.ptpHead 0x0 44 p q 0x200 (zeroBytes 8) ++ ptpTime 0))
        s.emit (.packet p "PTP Follow_Up" (s.control p 2) (s.ptpHead 0x8 44 p q 0 (zeroBytes 8) ++ ptpTime (s.ptpStampOut p)))
      else if kind.val = 2 ∧ (st = 8 ∨ st = 9) then
        let q := s.ptp.reqSeq
        let s := { s with ptp := { s.ptp with reqSeq := (q + 1) % 65536, req := some (q, s.deviceTime) } }
        s.emit (.packet p "PTP Delay_Req" (s.control p 2) (s.ptpHead 0x1 44 p q 0 (zeroBytes 8) ++ ptpTime 0))
      else s
    else s)

/-! ## Sync inputs (R327 to R329) -/

/-- The expected edge period of an input in ns: the tick period × P ÷ Q (R328). -/
def State.fsyncExpected (s : State) (n : Nat) : Nat :=
  let r := s.rd (Time.FSYNC_RATIO n)
  1000000000 * s.rd Tick.TICK_RATE_D * bits r 31 16 / max 1 (s.rd Tick.TICK_RATE_N * bits r 15 0)

/-- |a − b| is more than 5 % of m. -/
def offBy5 (a b m : Nat) : Bool := decide (m < 20 * (max a b - min a b))

/-- A period that the Tick Generator accepts: within FSYNC_PULL of the expected one (R329). -/
def State.fsyncInPull (s : State) (n period : Nat) : Bool :=
  let want := s.fsyncExpected n
  decide ((max want period - min want period) * 1000000 ≤ want * s.rd (Time.FSYNC_PULL n))

/-- An accepted edge counts towards the alignment point that every Q-th is (R328). DESIGN CHOICE: the first edge of a prediction, and the edge
at which a rate change is taken, are alignment points. -/
def FsyncSt.counted (x : FsyncSt) (clock q : Nat) (anew : Bool) : FsyncSt :=
  if anew || x.alignAt.isNone || decide (q ≤ x.edges + 1) then { x with edges := 0, alignAt := some (clock / 2 * 2) }
  else { x with edges := x.edges + 1 }

/-- Q of FSYNC_RATIO. -/
def State.fsyncQ (s : State) (n : Nat) : Nat := bits (s.rd (Time.FSYNC_RATIO n)) 15 0

/-- An edge is accepted: the measured period, the prediction, and the return of a stopped source whose period is within FSYNC_PULL (R329). -/
def State.fsyncAccept (s : State) (n period : Nat) : State :=
  let x : FsyncSt := { s.sync n with lastAt := some s.clock, rawAt := some s.clock, pm := period, odd := [], stopped := false }
  let s := s.setSync n (x.counted s.clock (s.fsyncQ n) false)
  let s := s.wr (Time.FSYNC_PERIOD n) period
  if s.fsyncInPull n period then s.sourceReturned (2 + n) else s

/-- New timing replaces the measured period (R328). The Tick Generator takes it only within FSYNC_PULL, with a frame slip
(R329). -/
def State.fsyncRate (s : State) (n period : Nat) : State :=
  let inPull := s.fsyncInPull n period
  let x : FsyncSt := { s.sync n with lastAt := some s.clock, rawAt := some s.clock, pm := period, odd := [],
                                     stopped := if inPull then false else (s.sync n).stopped }
  let s := s.setSync n (x.counted s.clock (s.fsyncQ n) true)
  let s := s.wr (Time.FSYNC_PERIOD n) period
  if s.tick.src ≠ 2 + n then s
  else if inPull then
    ({ s with tick := { s.tick with rephase := 2, slipInput := n } }).sourceChanged (2 + n)
  else
    ((s.count (Time.RATE_MISMATCH n)).tickNotify 4 ((period : Int) - s.fsyncExpected n) s.tickSeq 0).fire 6

/-- Whether 8 intervals lie within 5 % of each other. -/
def alike (l : List Nat) : Bool := l.all fun a => l.all fun b => !(offBy5 a b a)

/-- FSYNC_EDGE (R327, R328): every edge is stamped; one that FSYNC_EDGE names is reported, fires ES7 or ES8 (Table 17-1) and is classed. The first edge, and the first after a stop, begin the
prediction; Pm is the latest accepted interval (DESIGN CHOICE). -/
def execFsyncEdge (n : Fin 2) (rising : Bool) (s : State) : Host.Outcome State Fault Refusal :=
  .next (
    let k := n.val
    if s.netRuns = false then s
    else
    let x := s.sync k
    let s := s.setSync k (if rising then { x with rise := s.deviceTime } else { x with fall := s.deviceTime })
    if rising ≠ (s.rd (Time.FSYNC_EDGE k) == 0) then s
    else
      let s := (s.wr (Time.FSYNC_LAST_EDGE k) s.deviceTime).fire (7 + k)
      let x := s.sync k
      match x.lastAt, x.rawAt with
      | some l, some raw =>
        let pm := if x.pm = 0 then s.fsyncExpected k else x.pm
        let gap := s.clock - raw
        if !(offBy5 (s.clock - l) pm pm) then s.fsyncAccept k (s.clock - l)
        else if x.stopped ∧ !(offBy5 gap pm pm) then s.fsyncAccept k gap
        else
          let odd := if offBy5 gap pm pm then (gap :: x.odd).take 8 else []
          if odd.length = 8 ∧ alike odd then s.fsyncRate k gap
          else (s.setSync k { x with rawAt := some s.clock, odd := odd }).count (Time.FSYNC_GLITCHES k)
      | _, _ =>
        let x : FsyncSt := { x with lastAt := some s.clock, rawAt := some s.clock }
        s.setSync k (x.counted s.clock (s.fsyncQ k) true))

/-- FSYNC_STOP (R328): no accepted edge for 1.5 × Pm. -/
def execFsyncStop (n : Fin 2) (s : State) : Host.Outcome State Fault Refusal :=
  .next (
    let k := n.val
    let x := s.sync k
    match x.lastAt with
    | none => s
    | some l =>
      if x.stopped then s
      else
        let pm := if x.pm = 0 then s.fsyncExpected k else x.pm
        let s := s.at (l + pm * 3 / 2)
        ((s.setSync k { x with stopped := true }).count (Time.FSYNC_STOPS k)).sourceStopped (2 + k))

/-! ## Commits -/

/-- What a committed value of group 0x42 does beyond being held. -/
def timeApply (id v : Nat) (s : State) : State :=
  if id = Time.TIME_SOURCE then s.timeSource
  else if id = Time.TIME_SET then (if s.rd Time.TIME_SOURCE = 3 then { s with time := { s.time with set := some v } } else s)
  else if id = Time.PTP_ROLE ∨ id = Time.PTP_PRIORITY then s.bmca
  else if id = Time.PTP_DOMAIN then ({ s with ptp := { s.ptp with foreign := [] } }).bmca
  else if idGroup id = 0x42 ∧ idNum id = 0x000D then
    let k := idInst id
    let x := s.sync k
    (s.setSync k { rise := x.rise, fall := x.fall }).wr (Time.FSYNC_LAST_EDGE k) (if v = 0 then x.rise else x.fall)
  else s

end Sys2Proof.Machine
end

