-- ==== Sys2Proof/Machine/Streams.lean ====
section
/-! DEFINITION. ST 2110 video and ancillary senders (R316 to R319). Packet layouts are those of ST 2110-20, RFC 4175 and RFC
8331 (PRESUMED). -/

namespace Sys2Proof.Machine

/-! ## Kinds and parameters (Table 12-4, R340) -/

/-- The kind of a stream: 0 video sender, 1 audio sender, 2 ancillary sender, 3 audio receiver. -/
def streamKind (n : Nat) : Nat := if n < 0x20 then 0 else if n < 0x30 then 1 else if n < 0x50 then 2 else 3

/-- Whether a parameter of group 0x41 applies to a stream kind; one that does not gets BAD_PARAM (R340). DEDUCED from the
meanings of Table 12-10. -/
def streamHas (kind num : Nat) : Bool :=
  let n := if bits num 15 4 = 2 then 0x20 else if bits num 15 4 = 3 then 0x30 else num
  let common : List Nat := [0x01, 0x02, 0x03, 0x05, 0x07, 0x20, 0x30, 0x58]
  let own : List Nat := match kind with
    | 0 => [0x04, 0x06, 0x08, 0x09, 0x0A, 0x0B, 0x0C, 0x0D, 0x40, 0x50, 0x51, 0x52, 0x53]
    | 1 => [0x04, 0x06, 0x0E, 0x0F, 0x10, 0x40, 0x50]
    | 2 => [0x04, 0x06, 0x08, 0x0A, 0x12, 0x40, 0x50, 0x51, 0x52, 0x53]
    | _ => [0x0E, 0x0F, 0x10, 0x11, 0x54, 0x55, 0x56, 0x57]
  common.contains n || own.contains n

/-- Context and rendition that a video or ancillary sender is fed from; an ancillary sender follows rendition 0. -/
def State.streamRend (s : State) (n : Nat) : Nat × Nat :=
  let v := s.rd (St.STREAM_SOURCE n)
  (bits v 15 8 % 32, if streamKind n = 0 then bits v 1 0 else 0)

/-! ## Pixel groups (ST 2110-20) -/

/-- A pixel group: pixels across, lines, and the samples in order as (component, dx, dy); component 0 is Y′ or R′, 1 Cb or G′,
2 Cr or B′; chroma positions are in chroma samples. -/
structure PGroup where
  across : Nat
  down : Nat
  samples : List (Nat × Nat × Nat)
  deriving DecidableEq, Repr

/-- The pixel group of an output format. -/
def pgroupOf (f : Nat) : PGroup :=
  let run (order : List Nat) (k : Nat) : List (Nat × Nat × Nat) :=
    (List.range k).flatMap fun x => order.map fun c => (c, x, 0)
  let k444 := if fmtDepth f = 8 then 1 else if fmtDepth f = 10 then 4 else 2
  match fmtSampling f with
  | 0 =>
    let cell (x : Nat) : List (Nat × Nat × Nat) := [(0, 2 * x, 0), (0, 2 * x + 1, 0), (0, 2 * x, 1), (0, 2 * x + 1, 1), (1, x, 0), (2, x, 0)]
    if fmtDepth f = 10 then ⟨4, 2, cell 0 ++ cell 1⟩ else ⟨2, 2, cell 0⟩
  | 1 => ⟨2, 1, [(1, 0, 0), (0, 0, 0), (2, 0, 0), (0, 1, 0)]⟩
  | 2 => ⟨k444, 1, run [1, 0, 2] k444⟩
  | _ => ⟨k444, 1, run [0, 1, 2] k444⟩

/-- Bytes of a pixel group. -/
def pgroupBytes (f : Nat) : Nat := (pgroupOf f).samples.length * fmtDepth f / 8

/-- Pixel groups across a line. -/
def groupsAcross (f w : Nat) : Nat := ceilDiv w (pgroupOf f).across

/-- Bit fields packed from the first, most significant bit first, padded with zeros to whole units of `unit` bytes. -/
def packFields (unit : Nat) (l : List (Nat × Nat)) : List Byte :=
  let p := l.foldl (fun (a : Nat × Nat) (e : Nat × Nat) => (a.1 + e.1, a.2 * 2 ^ e.1 + e.2 % 2 ^ e.1)) (0, 0)
  let n := ceilDiv p.1 (8 * unit) * unit
  beBytes n (p.2 * 2 ^ (8 * n - p.1))

/-- The code of one component of a rendition frame. -/
def compCode (a : Array Byte) (f w h comp x y : Nat) : Nat :=
  let pl := layGeom ((outPlanes f w h).map fun p => (planePitch p, p.2))
  let at' (k : Nat) : Nat × Nat := pl.getD k (0, 0)
  if fmtSampling f = 3 then
    let v := le32 a ((at' 0).1 + y * (at' 0).2 + 4 * x)
    if bits f 5 4 = 1 then bits v (29 - 10 * comp) (20 - 10 * comp) else bits v (23 - 8 * comp) (16 - 8 * comp)
  else
    let n := fmtDepth f
    let bps := if n = 8 then 1 else 2
    if comp = 0 then codeAt a n ((at' 0).1 + y * (at' 0).2 + bps * x)
    else if fmtPlanar f then codeAt a n ((at' comp).1 + y * (at' comp).2 + bps * x)
    else codeAt a n ((at' 1).1 + y * (at' 1).2 + bps * (2 * x + comp - 1))

/-- The bytes of pixel group `gx` of line unit `gy`. -/
def groupData (a : Array Byte) (f w h gx gy : Nat) : List Byte :=
  let g := pgroupOf f
  packFields 1 (g.samples.map fun (e : Nat × Nat × Nat) =>
    let chroma := e.1 != 0 && decide (fmtSampling f < 2)
    let x := (if chroma then gx * (g.across / 2) else gx * g.across) + e.2.1
    let y := (if chroma && fmtSampling f == 0 then gy else gy * g.down) + e.2.2
    (fmtDepth f, compCode a f w h e.1 x y))

/-! ## Packets -/

/-- Bytes of IP header: a destination ::ffff:a.b.c.d is IPv4 (Table 12-10). -/
def State.ipBytes (s : State) (n p : Nat) : Nat :=
  if slice (s.rdBlob (St.DEST_ADDRESS n p)) 0 12 = zeroBytes 10 ++ [0xFF, 0xFF] then 20 else 40

/-- The RTP payload a packet of a stream may carry on a port, with `head` bytes of payload headers. -/
def State.payloadRoom (s : State) (n p head : Nat) : Nat := s.rd (Eth.MTU p) - s.ipBytes n p - 8 - 12 - head

/-- The smaller room over the ports of the stream. -/
def State.streamRoom (s : State) (n head : Nat) : Nat :=
  match (List.range 2).filter fun p => bit (s.rd (St.STREAM_PORTS n)) p with
  | [] => s.payloadRoom n 0 head
  | p :: r => r.foldl (fun m q => min m (s.payloadRoom n q head)) (s.payloadRoom n p head)

/-- Payload of a BPM packet in bytes (PRESUMED, ST 2110-20). -/
def bpmBytes : Nat := 1260

/-- Pixel groups a packet carries: under BPM 1,260 bytes; under GPM the line is cut into the smallest number of equal packets
that fit (DEDUCED from the worked example of spec/12). -/
def State.groupsPerPacket (s : State) (n f w : Nat) : Nat :=
  if s.rd (St.VIDEO_PACKING n) = 1 then bpmBytes / pgroupBytes f
  else
    let g := groupsAcross f w
    let room := s.streamRoom n 8 / max 1 (pgroupBytes f)
    match (List.range g).find? fun k => decide (g % (k + 1) = 0 ∧ g / (k + 1) ≤ room) with
    | some k => g / (k + 1)
    | none => max 1 (min g room)

/-- Packets of one frame. -/
def State.packetsOf (s : State) (n f w h : Nat) : Nat :=
  let lines := h / (pgroupOf f).down
  if s.rd (St.VIDEO_PACKING n) = 1 then ceilDiv (groupsAcross f w * lines) (s.groupsPerPacket n f w)
  else ceilDiv (groupsAcross f w) (s.groupsPerPacket n f w) * lines

/-- The RTP header of a packet. -/
def State.rtpHeader (s : State) (n seq stamp : Nat) (marker : Bool) : List Byte :=
  let ssrc := if s.rd (St.SSRC n) = 0 then (Config.derivedSsrc n).toNat else s.rd (St.SSRC n)
  [0x80] ++ beBytes 1 ((if marker then 128 else 0) + s.rd (St.PAYLOAD_TYPE n)) ++ beBytes 2 seq ++ beBytes 4 stamp ++ beBytes 4 ssrc

/-- The pixel groups of a packet as runs: line unit, first group, groups. -/
def State.packetRuns (s : State) (n f w h k : Nat) : List (Nat × Nat × Nat) :=
  let g := groupsAcross f w
  let per := s.groupsPerPacket n f w
  if s.rd (St.VIDEO_PACKING n) = 1 then
    let total := g * (h / (pgroupOf f).down)
    let lo := k * per
    let hi := min total (lo + per)
    (List.range (if g = 0 then 0 else (hi - 1) / g + 1 - lo / g)).map fun i =>
      let y := lo / g + i
      let a := max lo (y * g)
      let b := min hi ((y + 1) * g)
      (y, a - y * g, b - a)
  else
    let row := max 1 (ceilDiv g per)
    [(k / row, k % row * per, min per (g - k % row * per))]

/-- The payload of packet `k` of a frame (RFC 4175): the high half of the sequence number, a header for each run, the pixel
groups. -/
def State.videoPayload (s : State) (n : Nat) (t : VideoTx) (seq : Nat) : List Byte :=
  let a := (tget (s.rend t.ctx t.rend).bufs t.buf []).toArray
  let g := pgroupOf t.fmt
  let runs := s.packetRuns n t.fmt t.w t.h t.sent
  let head := runs.zipIdx.flatMap fun (e : (Nat × Nat × Nat) × Nat) =>
    beBytes 2 (e.1.2.2 * pgroupBytes t.fmt) ++ beBytes 2 (e.1.1 * g.down) ++
      beBytes 2 ((if e.2 + 1 < runs.length then 32768 else 0) + e.1.2.1 * g.across)
  beBytes 2 (seq / 65536) ++ head ++ runs.flatMap fun (e : Nat × Nat × Nat) =>
    (List.range e.2.2).flatMap fun i => groupData a t.fmt t.w t.h (e.2.1 + i) e.1

/-- Sends one RTP packet on every port of the stream that is UP (R316): the next sequence number, PACKETS_SENT for each
path, STREAM_BYTES of the RTP packet. -/
def State.sendRtp (s : State) (n stamp : Nat) (marker : Bool) (kind : String) (payload : Nat → List Byte) : State :=
  let q := (s.stream n).seq
  let pkt := s.rtpHeader n (q % 65536) stamp marker ++ payload q
  let s := s.setStream n { s.stream n with seq := (q + 1) % 2 ^ 32 }
  [0, 1].foldl (fun t p =>
    if bit (t.rd (St.STREAM_PORTS n)) p && t.ethUp p then
      ((t.emit (.packet p kind { vlan := t.rd (St.STREAM_VLAN n), dscp := t.rd (St.STREAM_DSCP n) } pkt)).count (St.PACKETS_SENT n)).addBytes (St.STREAM_BYTES n) pkt.length
    else t) s

/-! ## Alignment points (R317 to R319) -/

/-- The RTP timestamp of a Device Time at a clock rate (R317). -/
def rtpStamp (rate t : Nat) : Nat := t * rate / 1000000000 % 2 ^ 32

/-- TR_OFFSET, 0 selecting the default of ST 2110-21: 43/1125 of the frame time from 1,080 lines upward, 28/750 below
(PRESUMED). -/
def State.trOffset (s : State) (n frameNs h : Nat) : Nat :=
  let v := s.rd (St.TR_OFFSET n)
  if v ≠ 0 then v else if 1080 ≤ h then frameNs * 43 / 1125 else frameNs * 28 / 750

/-- The time between packets: type N sends a frame within 1080/1125 of its time, type W over all of it (PRESUMED, ST 2110-21). -/
def State.packetGap (s : State) (n frameNs total : Nat) : Nat :=
  (if s.rd (St.TR_MODE n) = 0 then frameNs * 1080 / 1125 else frameNs) / max 1 total

/-- Whether senders may send: not in Duiker or FAULT_HOLD (R338, R318). -/
def State.sendersRun (s : State) : Bool := s.netRuns && !s.duiker && s.pow.global != .faultHold

/-- The source of a sender is lost: nothing is sent, counted once until it resumes (R318). DEDUCED: counted when the sender stops
sending. -/
def State.sourceLost (s : State) (n : Nat) : State :=
  if (s.stream n).lost then s
  else (s.setStream n { s.stream n with lost := true }).count (St.SOURCE_LOST n)

/-- RFC 8331: a 10-bit word of 8 data bits with its parity bits. -/
def parityWord (v : Nat) : Nat :=
  let p := popcount 8 v % 2
  v % 256 + p * 256 + (1 - p) * 512

/-- The payload of the ANC packet that carries a frame ticket (R319): one ANC packet, DID 0x51, SDID 0x14, 128 words. -/
def ancPayload (seq : Nat) (ticket : List Byte) : List Byte :=
  let words := [0x51, 0x14, 128].map parityWord ++ ticket.map fun b => parityWord b.toNat
  let sum := (words.map fun w => w % 512).sum % 512
  let check := sum + (1 - sum / 256) * 512
  let anc := packFields 4 ([(1, 0), (11, 0x7FF), (12, 0xFFF), (1, 0), (7, 0)] ++ (words ++ [check]).map fun w => (10, w))
  beBytes 2 (seq / 65536) ++ beBytes 2 anc.length ++ beBytes 1 1 ++ zeroBytes 3 ++ anc

/-- What a sender has sent, for R318: a frame whose buffer is the one sent before is a repeated frame. -/
def State.frameSent (s : State) (n : Nat) (now : Nat × Nat) : State :=
  let again := (s.stream n).last = some now
  let s := (s.setStream n { s.stream n with last := some now, lost := false }).count (St.FRAMES_SENT n)
  if again then s.count (St.FRAMES_REPEATED_SENT n) else s

/-- The consumer number of the next frame of a sender: one that no frame still being sent uses. -/
def State.nextHold (s : State) (n : Nat) : Nat :=
  let used := (s.stream n).video.map VideoTx.hold
  ((List.range (used.length + 1)).map fun k => 16 + n + 80 * k).find? (fun h => !used.contains h) |>.getD (16 + n)

/-- Every buffer that the frames of a sender hold is given up. -/
def State.dropHolds (s : State) (n : Nat) : State :=
  ((s.stream n).video.map VideoTx.hold).foldl State.dropHold (s.dropHold (16 + n))

/-- A sender stops: what it is sending or has ready never leaves, and it holds no buffer. -/
def State.senderStop (s : State) (n : Nat) : State :=
  let s := s.dropHolds n
  s.setStream n { s.stream n with alignAt := none, video := [], ready := [] }

/-- A video sender takes the latest completed buffer and starts sending it (R317). Packets of the frame before it that are still to come
leave as they were due. -/
def State.videoAlign (s : State) (n at' : Nat) : State :=
  let (c, v) := s.streamRend n
  let k := s.nextHold n
  let s := s.takeHold k c v
  match s.heldBy k c v with
  | none => s.sourceLost n
  | some b =>
    let f := s.rd (Rend.OUT_FORMAT c v)
    let (w, h) := s.cropOf c v
    let frameNs := s.period * max 1 (s.rd (Ctx.TICK_DIVISOR c))
    let total := s.packetsOf n f w h
    let tx : VideoTx := { ctx := c, rend := v, buf := b, fmt := f, w := w, h := h,
                          stamp := rtpStamp 90000 (deviceTimeAt s.time at'), total := total,
                          nextAt := at' + s.trOffset n frameNs h, gap := s.packetGap n frameNs total, hold := k }
    (s.setStream n { s.stream n with video := (s.stream n).video ++ [tx] }).frameSent n (b, (s.rend c v).ticket)

/-- An ancillary sender sends the final ticket of the latest completed buffer of rendition 0 (R319). -/
def State.ancAlign (s : State) (n at' : Nat) : State :=
  let (c, v) := s.streamRend n
  let stamp := rtpStamp 90000 (deviceTimeAt s.time at')
  let frameNs := s.period * max 1 (s.rd (Ctx.TICK_DIVISOR c))
  let due := at' + s.trOffset n frameNs (s.cropOf c v).2
  let s := s.takeHold (16 + n) c 0
  let x := s.stream n
  let s := if s.rd (St.ANC_TICKET n) = 1 then s.setStream n { x with ready := x.ready ++ [(due, stamp, (s.rend c v).record)] } else s
  s.frameSent n ((s.rend c v).latest.getD 0, (s.rend c v).ticket)

/-- SENDER_ALIGNMENT_POINT (R317, R318): where the source is live the sender takes its latest buffer, else it sends nothing more. -/
def execSenderAlignmentPoint (n : Fin 80) (s : State) : Host.Outcome State Fault Refusal :=
  .next (
    let k := n.val
    match (s.stream k).alignAt with
    | none => s
    | some t =>
      let s := s.at t
      let s := s.setStream k { s.stream k with alignAt := none }
      let (c, v) := s.streamRend k
      if s.rd (St.STREAM_ENABLE k) = 0 then s
      else if s.sendersRun && s.rendLive c v then (if streamKind k = 0 then s.videoAlign k t else s.ancAlign k t)
      else ((s.senderStop k).sourceLost k).retireFreed)

/-- The next video packet of a sender leaves; after the last of a frame its buffer is given up (R317). -/
def State.videoSend (s : State) (k : Nat) (t : VideoTx) (rest : List VideoTx) : State :=
  let s := s.at t.nextAt
  let s := s.sendRtp k t.stamp (t.sent + 1 == t.total) "ST 2110-20" fun q => s.videoPayload k t q
  if t.sent + 1 < t.total then
    s.setStream k { s.stream k with video := { t with sent := t.sent + 1, nextAt := t.nextAt + t.gap } :: rest }
  else ((s.setStream k { s.stream k with video := rest }).dropHold t.hold).retireFreed

/-- The next audio or ancillary packet of a sender leaves; an ancillary one is the only packet of its frame (R317, R319). -/
def State.readySend (s : State) (k due stamp : Nat) (data : List Byte) (rest : List (Nat × Nat × List Byte)) : State :=
  let s := s.at due
  let s := s.setStream k { s.stream k with ready := rest }
  if streamKind k = 1 then s.sendRtp k stamp false "ST 2110-30" fun _ => data
  else ((s.sendRtp k stamp true "ST 2110-40" fun q => ancPayload q data).dropHold (16 + k)).retireFreed

/-- ST2110_PACKET_SEND (R29, R316, R317): the next packet leaves at its time, none in FAULT_HOLD. -/
def execSt2110PacketSend (n : Fin 80) (s : State) : Host.Outcome State Fault Refusal :=
  .next (
    let k := n.val
    if s.pow.global = .faultHold then s
    else match (s.stream k).video, (s.stream k).ready with
      | t :: rest, _ => s.videoSend k t rest
      | [], (due, stamp, data) :: rest => s.readySend k due stamp data rest
      | [], [] => s)

/-- The alignment points of a tick (R317): senders whose source context runs on the tick, or whose source is lost. -/
def State.streamsTick (s : State) (runs : Nat → Bool) : State :=
  (List.range 80).foldl (fun t n =>
    let c := (t.streamRend n).1
    if streamKind n ≠ 1 ∧ t.rd (St.STREAM_ENABLE n) = 1 ∧ (runs c || !t.active c) then
      t.setStream n { t.stream n with alignAt := some (t.tick.edgeAt + t.rd (St.SENDER_OFFSET n)) }
    else t) s

/-! ## The packet builders as an engine of the tick plan (R40, R46, R47) -/

/-- Some sender still has packets of a frame to build. -/
def State.videoUnsent (s : State) : Bool := (List.range 80).any fun n => (s.stream n).video != []

/-- The job of the packet builders ends with the tick: one that has run on after the budget was late (R46); one that has not finished is
abandoned, and the contexts whose frames it was sending repeat (R47). DESIGN CHOICE: packets that have left stand, and the ticket of such a
frame, already final (R155), keeps its flags. -/
def State.buildersEdge (s : State) (built : Bool) : State :=
  if s.tick.building = false then s
  else
    let s := { s with tick := { s.tick with building := false } }
    if built then s.count (Tick.LATE_COUNT 3)
    else
      let unsent := (List.range 80).filter fun n => (s.stream n).video != []
      let ctxs := (List.range 32).filter fun c => unsent.any fun n => (s.streamRend n).1 == c
      let s := unsent.foldl (fun (t : State) n => (t.dropHolds n).setStream n { t.stream n with video := [] }) s
      (ctxs.foldl (fun (t : State) c => t.count (Tick.REPEATED_COUNT c)) (s.count (Tick.OVERRUN_COUNT 3))).retireFreed

/-! ## Commits and admission (R316, Table 02-4) -/

/-- Samples of a packet and bytes of a sample frame of an audio stream, at a sample rate. -/
def State.audioPacket (s : State) (n rate : Nat) : Nat × Nat :=
  ((if s.rd (St.PACKET_TIME n) = 0 then rate / 1000 else rate / 8000),
   s.rd (St.AUDIO_CHANNELS n) * (if s.rd (St.AUDIO_ENCODING n) = 0 then 2 else 3))

/-- Conformance levels A, B, C, AX, BX, CX of ST 2110-30 (Table 12-4; the channel counts are PRESUMED): channels allowed. -/
def audioChannelLimit (rate packetTime : Nat) : Nat :=
  if rate ≤ 48000 then (if packetTime = 0 then 8 else 64) else if packetTime = 0 then 4 else 32

/-- The audio port of an audio stream (Table 12-10; ports are 0 to 7), and its sample rate. -/
def State.streamPort (s : State) (n : Nat) : Nat := s.rd (St.STREAM_SOURCE n) % 8
def State.streamRate (s : State) (n : Nat) : Nat := s.audRate (s.streamPort n)

/-- A stream that cannot be sent as configured: packets beyond the MTU, a format that does not match the source
(R316), or an audio port that cannot serve it (R414, R415). -/
def State.streamConflict (s : State) (n : Nat) : Bool :=
  if s.rd (St.STREAM_ENABLE n) = 0 then false
  else
    match streamKind n with
    | 0 =>
      let (c, v) := s.streamRend n
      let f := s.rd (Rend.OUT_FORMAT c v)
      let bpm := s.rd (St.VIDEO_PACKING n) == 1
      decide (s.streamRoom n 8 < pgroupBytes f) || (bpm && !(fmtSampling f == 1 && fmtDepth f == 10)) ||
        (bpm && decide (s.streamRoom n 14 < bpmBytes))
    | 2 => decide (s.streamRoom n 8 < 176)
    | _ =>
      let (k, b) := s.audioPacket n (s.streamRate n)
      let p := s.streamPort n
      decide (s.streamRoom n 0 < k * b) || decide (s.rd (Aud.FAMILY_SOURCE (s.rd (Aud.FAMILY p))) ≠ 1) ||
        decide (s.streamRate n ≠ 48000 ∧ s.streamRate n ≠ 96000) ||
        decide (audioChannelLimit (s.streamRate n) (s.rd (St.PACKET_TIME n)) < s.rd (St.AUDIO_CHANNELS n)) ||
        (streamKind n == 1 && (s.rd (Aud.HOST_FLOW p) == 1 || s.rd (Aud.DIRECTION p) == 1 ||
          s.rd (St.AUDIO_CHANNELS n) != popcount 32 (s.rd (Aud.SLOT_MASK p))))

/-- Bits per second of a stream on a port, with Ethernet, VLAN, FCS, preamble, gap, IP, UDP and RTP overhead (the worked example
of spec/12). -/
def State.streamBits (s : State) (n p : Nat) : Nat :=
  if s.rd (St.STREAM_ENABLE n) = 0 || !bit (s.rd (St.STREAM_PORTS n)) p then 0
  else
    let ovh := 14 + (if s.rd (St.STREAM_VLAN n) = 0 then 0 else 4) + 4 + 20 + s.ipBytes n p + 8 + 12
    let ticks (bitsPerFrame c : Nat) : Nat :=
      ceilDiv (bitsPerFrame * s.rd Tick.TICK_RATE_N) (s.rd Tick.TICK_RATE_D * max 1 (s.rd (Ctx.TICK_DIVISOR c)))
    match streamKind n with
    | 0 =>
      let (c, v) := s.streamRend n
      let f := s.rd (Rend.OUT_FORMAT c v)
      let (w, h) := s.cropOf c v
      let data := groupsAcross f w * (h / (pgroupOf f).down) * pgroupBytes f
      ticks (8 * (data + s.packetsOf n f w h * (ovh + 8))) c
    | 1 =>
      let rate := s.streamRate n
      let (k, b) := s.audioPacket n rate
      8 * (k * b + ovh) * ceilDiv rate (max 1 k)
    | 2 => if s.rd (St.ANC_TICKET n) = 1 then ticks (8 * (ovh + 8 + 172)) (s.streamRend n).1 else 0
    | _ => 0

/-- The checks of a committed value of group 0x41 (R316, R340). -/
def streamCheck (t : Txn) (id v : Nat) : Nat :=
  if idGroup id = 0x41 then
    let n := idInst id
    firstBad [failIf (!streamHas (streamKind n) (idNum id)) Status.BAD_PARAM,
      failIf (idNum id == 0x08 && decide (t.cand.period < v)) Status.RANGE,
      failIf (t.cand.streamConflict n) Status.CONFLICT]
  else Status.OK

/-- What a committed value of group 0x41 does beyond being held: a sender that is disabled lets its buffer go. -/
def streamApply (id v : Nat) (s : State) : State :=
  if idGroup id = 0x41 ∧ idNum id = 1 ∧ v = 0 then
    let n := idInst id
    let s := s.senderStop n
    (s.setStream n { seq := (s.stream n).seq }).retireFreed
  else s

end Sys2Proof.Machine
end

