-- ==== Sys2Proof/Machine/Audio.lean ====
section
/-! DEFINITION. Audio ports, their rings and sample clocks, and the ST 2110-30 streams (R320, R400 to R418). -/

namespace Sys2Proof.Machine

/-! ## Notices (R417) -/

def State.audNotify (s : State) (code port value : Nat) : State := s.linkNotify code port 0xFF value

/-- A NOTIFY of a port, at most once per second (R410). DEDUCED: the limit holds for the audio NOTIFY messages of a port together. -/
def State.audPortNotify (s : State) (code p value : Nat) : State :=
  match (s.aud p).xrunAt with
  | some t => if s.clock < t + 1000000000 then s else (s.setAud p { s.aud p with xrunAt := some s.clock }).audNotify code p value
  | none => (s.setAud p { s.aud p with xrunAt := some s.clock }).audNotify code p value

/-- Changes a family state, with its NOTIFY. -/
def State.familyTo (s : State) (f st : Nat) : State :=
  if s.rd (Aud.FAMILY_STATE f) = st then s else (s.wr (Aud.FAMILY_STATE f) st).audNotify 0x0503 f st

/-- Sets period flags of a port (Table 15-5). -/
def State.audFlag (s : State) (p bitNo : Nat) : State := s.setAud p { s.aud p with flags := setFlag (s.aud p).flags bitNo }

namespace AudFlag
def UNDERRUN : Nat := 0
def OVERRUN : Nat := 1
def MASK_CHANGE : Nat := 2
def SLIP : Nat := 3
def FS_LOST : Nat := 4
def MUTE_TIMEOUT : Nat := 5
end AudFlag

/-! ## Enabling (R408) -/

/-- PORT_STATE of a running port: NO_RING without a ring or a receiver to play (Table 15-6). -/
def State.audRunState (s : State) (p : Nat) : Nat :=
  if (s.audRing p).isSome || (s.rd (Aud.DIRECTION p) == 1 && bit (s.rd (Aud.AUD_SOURCE p)) 0) then 1 else 2

/-- The bit clock of a port (R402). -/
def State.audBclk (s : State) (p : Nat) : Nat := s.audRate p * tdmLength (s.rd (Aud.TDM_FORMAT p))

/-- Whole frames in a tick: the base rate × the tick period is an integer (R403). -/
def State.framesPerTickWhole (s : State) (p : Nat) : Bool :=
  s.audRate p * s.rd Tick.TICK_RATE_D % max 1 (s.rd Tick.TICK_RATE_N) == 0

/-- A port is enabled, or enabled again: its position is 0 at the first frame, which with family source TICK and whole frames per
tick starts at the next tick edge (R408), and else starts now (DESIGN CHOICE). DESIGN CHOICE: BCLK_RATE reads the bit clock of
R402 for a follower too. -/
def State.audStart (s : State) (p : Nat) : State :=
  let tick := s.rd (Aud.FAMILY_SOURCE (s.rd (Aud.FAMILY p))) == 1 && s.framesPerTickWhole p
  let first := if tick then s.gridEdge s.nextPos else s.clock
  let s := s.setAud p { baseClock := first, fsAt := s.clock, xrunAt := (s.aud p).xrunAt }
  s.wrAll [(Aud.HW_POSITION p, 0), (Aud.MASK_IN_FORCE p, s.rd (Aud.SLOT_MASK p)), (Aud.MUTE_STATE p, s.rd (Aud.MUTE p)),
    (Aud.BCLK_RATE p, s.audBclk p), (Aud.PORT_STATE p, s.audRunState p)]

/-- A port is disabled. -/
def State.audStop (s : State) (p : Nat) : State :=
  ((s.setAud p { xrunAt := (s.aud p).xrunAt }).wrAll [(Aud.PORT_STATE p, 0), (Aud.MASK_IN_FORCE p, 0), (Aud.BCLK_RATE p, 0)]).retireFreed

/-- A port runs now (R416). -/
def State.audRunning (s : State) (p : Nat) : Bool := s.audioRuns && s.rd (Aud.PORT_ENABLE p) == 1

/-! ## Periods (R408, R409, R412) -/

/-- PERIOD_FRAMES of a port; without a ring, periods are those of the descriptor, or of 16 frames. -/
def State.periodFrames (s : State) (p : Nat) : Nat := max 16 (parseRing (s.rdBlob (Aud.AUD_RING p))).frames

/-- Writes the status of the period that ends (R409, Table 15-5); not in FAULT_HOLD (R416). -/
def State.writeStatus (s : State) (p : Nat) : State :=
  let x := s.aud p
  match x.period, s.audRing p with
  | some first, some (r, serial) =>
    if s.pow.global = .faultHold then s
    else
      let pk := packing (s.rd (Aud.SAMPLE_FORMAT p))
      let st := leBytes 2 x.flags ++ leBytes 6 0 ++ leBytes 2 x.zeros ++ leBytes 2 x.startEpoch ++ leBytes 4 (s.rd (Aud.MASK_IN_FORCE p)) ++
        leBytes 8 first ++ leBytes 8 x.startTime
      let off := r.count * r.stride pk + first / r.frames % r.count * 32
      { s with nmp := { s.nmp with mem := memWriteN s.nmp.mem (bufAddr serial off) st } }
  | _, _ => s

/-- A freed ring reaches its retire fence at the end of the period: AUD_RING reads 0 and PORT_STATE reads NO_RING (Table 15-6). -/
def State.ringFreed (s : State) (p : Nat) : State :=
  let h := (parseRing (s.rdBlob (Aud.AUD_RING p))).handle
  if h ≠ 0 ∧ (s.bufOf h).isNone then
    (((s.wrBlob (Aud.AUD_RING p) (zeroBytes 32)).wr (Aud.PORT_STATE p) 2)).retireFreed
  else s

/-- A waiting mask applies (R412): the period carries MASK_CHANGE; a slot it adds takes its MUTE bit at once (R413). -/
def State.maskApply (s : State) (p now : Nat) : State :=
  let x := s.aud p
  match x.maskAt with
  | none => s
  | some at' =>
    if at' + 1000000000 / s.audRate p ≤ now then
      let old := s.rd (Aud.MASK_IN_FORCE p)
      let new := s.rd (Aud.SLOT_MASK p)
      let added := setBits 32 (writeOneClears new old)
      let mute := added.foldl (fun m k => withBit m k (bit (s.rd (Aud.MUTE p)) k)) (s.rd (Aud.MUTE_STATE p))
      let s := s.setAud p { x with maskAt := none, flags := setFlag x.flags AudFlag.MASK_CHANGE }
      (s.wrAll [(Aud.MASK_IN_FORCE p, new), (Aud.MUTE_STATE p, mute)]).count (Aud.MASK_CHANGES p)
    else s

/-- The boundary at the present position of a port, once: the status of the period that ends, a freed ring, then the new
period with its mask and its whole-frame correction (R405, R409, R412). -/
def State.audBoundary (s : State) (p : Nat) : State :=
  let n := s.rd (Aud.HW_POSITION p)
  if n % s.periodFrames p ≠ 0 ∨ (s.aud p).period = some n then s
  else
    let s := (s.writeStatus p).ringFreed p
    let now := s.audFrameAt p n
    let x := s.aud p
    let slip := x.slip
    let s := s.setAud p { x with
      period := some n, startTime := deviceTimeAt s.time now, startEpoch := s.epoch, zeros := 0, slip := 0,
      flags := if slip ≠ 0 then 2 ^ AudFlag.SLIP else 0, insert := x.insert + slip.toNat }
    let s := if slip < 0 then
        (s.setAud p { s.aud p with baseClock := s.audFrameAt p n, basePos := n + (-slip).toNat }).wr (Aud.HW_POSITION p) (n + (-slip).toNat)
      else s
    (s.maskApply p now).fire (104 + p)

/-- AUDIO_PERIOD_BOUNDARY (R409). -/
def execAudioPeriodBoundary (port : Fin 8) (s : State) : Host.Outcome State Fault Refusal :=
  .next (if s.audRunning port.val then (s.at (s.audFrameAt port.val (s.rd (Aud.HW_POSITION port.val)))).audBoundary port.val else s)

/-! ## Mute (R413) -/

/-- A crossing of a slot: a sample of value 0, or of another sign than the previous one. -/
def crossing (w : Nat) (prev : Option Nat) (v : Nat) : Bool :=
  v % 2 ^ w == 0 || (match prev with | some u => bit u (w - 1) != bit v (w - 1) | none => false)

/-- The samples of a frame, by slot of the mask, after mute: a change takes effect at a crossing, or in an underrun frame. -/
def State.audMute (s : State) (p w : Nat) (slots vals : List Nat) (all : Bool) : State × List Nat :=
  let want := s.rd (Aud.MUTE p)
  let x := s.aud p
  let hit := (slots.zip vals).filter fun (e : Nat × Nat) =>
    bit want e.1 != bit (s.rd (Aud.MUTE_STATE p)) e.1 && (all || crossing w (tfind x.prev e.1) e.2)
  let state := hit.foldl (fun m (e : Nat × Nat) => withBit m e.1 (bit want e.1)) (s.rd (Aud.MUTE_STATE p))
  let prev := (slots.zip vals).foldl (fun t (e : Nat × Nat) => tins t e.1 e.2) x.prev
  let s := (s.setAud p { x with prev := prev, muteAt := x.muteAt.filter fun e => bit want e.1 != bit state e.1 }).wr (Aud.MUTE_STATE p) state
  (s, (slots.zip vals).map fun (e : Nat × Nat) => if bit state e.1 then 0 else e.2)

/-- AUDIO_MUTE_TIMEOUT (R413): the changes that have waited longest take effect, and the device clock moves to their timeout. -/
def execAudioMuteTimeout (port : Fin 8) (s : State) : Host.Outcome State Fault Refusal :=
  .next (
    let p := port.val
    match ((s.aud p).muteAt.map fun e => e.2).min? with
    | none => s
    | some t =>
      if s.audRunning p then
        let s := s.at (t + s.rd (Aud.MUTE_TIMEOUT p) * 1000000)
        let x := s.aud p
        let due := x.muteAt.filter fun e => e.2 == t
        let state := due.foldl (fun m e => withBit m e.1 (bit (s.rd (Aud.MUTE p)) e.1)) (s.rd (Aud.MUTE_STATE p))
        let s := (s.setAud p { x with muteAt := x.muteAt.filter fun e => e.2 != t }).audFlag p AudFlag.MUTE_TIMEOUT
        (s.wr (Aud.MUTE_STATE p) state).count (Aud.MUTE_TIMEOUTS p)
      else s)

/-! ## Receivers (R320, R415) -/

/-- The RTP timestamp that plays at a device clock: the media clock less RX_DELAY. -/
def State.rxStamp (s : State) (n clock : Nat) : Nat :=
  let rate := s.streamRate n
  let delay := s.rd (St.RX_DELAY n) * rate / 1000000
  (rtpStamp rate (deviceTimeAt s.time clock) + 2 ^ 32 - delay % 2 ^ 32) % 2 ^ 32

/-- Packets whose place has passed leave: the packets missing between them are lost (RX_LOST), and those that only the second
path delivered are counted. -/
def State.rxAdvance (s : State) (n clock : Nat) : State :=
  let k := (s.audioPacket n (s.streamRate n)).1
  let now := s.rxStamp n clock
  let begun := (s.stream n).rx.filter fun (e : Nat × Nat × Nat × List (List Nat)) => laterEq 32 now e.2.1
  let ordered := begun.foldl (fun l e => (l.filter fun g => later 32 e.2.1 g.2.1) ++ e :: l.filter fun g => !(later 32 e.2.1 g.2.1)) []
  ordered.foldl (fun t e =>
    let x := t.stream n
    let gone := laterEq 32 now ((e.2.1 + k) % 2 ^ 32)
    if x.rxPlayed.contains e.1 then (if gone then t.setStream n { x with rx := tdel x.rx e.1 } else t)
    else
      let missed := match x.rxNext with
        | some q => if later 16 e.1 q then (e.1 + 65536 - q) % 65536 else 0
        | none => 0
      let t := (t.setStream n { x with
        rx := if gone then tdel x.rx e.1 else x.rx
        rxNext := some ((e.1 + 1) % 65536)
        rxPlayed := (e.1 :: x.rxPlayed).take 64 }).countBy (St.RX_LOST n) missed
      if e.2.2.1 = 2 then t.count (St.RX_PATH_RECOVERED n) else t) s

/-- The sample frame of a receiver that plays at a device clock; none where no packet has it. -/
def State.rxFrameAt (s : State) (n clock : Nat) : Option (List Nat) :=
  let now := s.rxStamp n clock
  ((s.stream n).rx.findSome? fun (e : Nat × Nat × Nat × List (List Nat)) =>
    let i := (now + 2 ^ 32 - e.2.1) % 2 ^ 32
    e.2.2.2[i]?)

/-- The sample frames of an ST 2110-30 payload: channels interleaved, big-endian, left-justified into 32 bits. -/
def State.rxUnpack (s : State) (n : Nat) (payload : List Byte) : List (List Nat) :=
  let b := if s.rd (St.AUDIO_ENCODING n) = 0 then 2 else 3
  let ch := s.rd (St.AUDIO_CHANNELS n)
  (List.range (payload.length / max 1 (b * ch))).map fun i =>
    (List.range ch).map fun c => beNat (slice payload ((i * ch + c) * b) b) * 2 ^ (32 - 8 * b)

/-- ST2110_AUDIO_RX_PACKET (R320): placed by its timestamp, discarded as late, or taken as the second copy. -/
def execSt2110AudioRxPacket (n : Fin 16) (path : Fin 2) (vlan : Nat) (seq : BitVec 16) (stamp : BitVec 32) (payload : List Byte) (s : State) :
    Host.Outcome State Fault Refusal :=
  .next (
    let k := 0x50 + n.val
    if s.rd (St.STREAM_ENABLE k) = 0 ∨ !bit (s.rd (St.STREAM_PORTS k)) path.val ∨ !s.ethUp path.val ∨ !s.sendersRun ∨ vlan ≠ s.rd (St.STREAM_VLAN k) then s
    else
      let s := (((s.rxFrame path.val).count (St.RX_PACKETS k)).addBytes (St.STREAM_BYTES k) (12 + payload.length)).rxAdvance k s.clock
      let x := s.stream k
      match tfind x.rx seq.toNat with
      | some (t, m, fs) => s.setStream k { x with rx := tins x.rx seq.toNat (t, setFlag m path.val, fs) }
      | none =>
        if x.rxPlayed.contains seq.toNat then s
        else
          let frames := s.rxUnpack k payload
          if later 32 (s.rxStamp k s.clock) ((stamp.toNat + frames.length + 2 ^ 32 - 1) % 2 ^ 32) then s.count (St.RX_LATE k)
          else s.setStream k { x with rx := tins x.rx seq.toNat (stamp.toNat, 2 ^ path.val, frames) })

/-! ## Senders (R317, R415) -/

/-- A sample frame of an input port reaches the senders that read it: samples of `w` bits as their 24 or 16 most significant. -/
def State.feedSenders (s : State) (p w clock : Nat) (vals : List Nat) : State :=
  (List.range 16).foldl (fun t i =>
    let n := 0x20 + i
    if t.rd (St.STREAM_ENABLE n) = 1 ∧ t.streamPort n = p ∧ t.sendersRun then
      let b := if t.rd (St.AUDIO_ENCODING n) = 0 then 2 else 3
      let x := t.stream n
      let first := if x.samples = [] then rtpStamp (t.streamRate n) (deviceTimeAt t.time clock) else x.firstStamp
      let all := x.samples ++ [vals.map fun v => v * 2 ^ (32 - w) / 2 ^ (32 - 8 * b)]
      if all.length = (t.audioPacket n (t.streamRate n)).1 then
        t.setStream n { x with samples := [], ready := x.ready ++ [(clock, first, all.flatMap fun f => f.flatMap (beBytes b))] }
      else t.setStream n { x with samples := all, firstStamp := first }
    else t) s

/-! ## Sample frames (R410, R411) -/

/-- An UNDERRUN or OVERRUN frame: flag, counter, ZERO_FRAMES; each run counts once, and a NOTIFY leaves at most once per second
(R410). -/
def State.audXrun (s : State) (p kind : Nat) : State :=
  let x := s.aud p
  let s := s.count (if kind = 0 then Aud.UNDERRUN_FRAMES p else Aud.OVERRUN_FRAMES p)
  let s := s.setAud p { x with flags := setFlag x.flags kind, zeros := x.zeros + 1, xrun := true }
  let s := if x.xrun then s else (s.count (Aud.XRUN_EVENTS p)).fire (112 + p)
  s.audPortNotify 0x0501 p kind

/-- A frame of a follower without frame sync (Table 15-6): an input's zeros, an output's frame that is not sent. -/
def State.audFsFrame (s : State) (p : Nat) : State :=
  let x := s.aud p
  (s.setAud p { x with flags := setFlag x.flags AudFlag.FS_LOST, zeros := x.zeros + 1 }).count (Aud.FS_LOST_FRAMES p)

/-- The run of lost frames ends with a frame that is transferred. -/
def State.audOk (s : State) (p : Nat) : State := if (s.aud p).xrun then s.setAud p { s.aud p with xrun := false } else s

/-- Slots of the mask in force. -/
def State.audSlots (s : State) (p : Nat) : List Nat := setBits 32 (s.rd (Aud.MASK_IN_FORCE p))

/-- The slots of a sampled frame go to the ring of the port, where it has one and the flow control allows it (R407). -/
def State.audStore (s : State) (p n w pk : Nat) (out : List Nat) : State :=
  match s.audRing p with
  | none => s
  | some (r, serial) =>
    if s.rd (Aud.HOST_FLOW p) = 1 ∧ s.rd (Aud.APPL_POSITION p) + r.count * r.frames ≤ n then s.audXrun p 1
    else
      let b := out.flatMap (packSample pk w)
      let s := { s with nmp := { s.nmp with mem := memWriteN s.nmp.mem (bufAddr serial (r.at pk (s.rd (Aud.MASK_IN_FORCE p)) n)) b } }
      (s.audOk p).addBytes (Aud.BYTES_MOVED p) b.length

/-- One frame of an input port at position `n` (Table 15-6). -/
def State.audInput (s : State) (p n clock : Nat) (raw : List Nat) : State :=
  let fmt := s.rd (Aud.SAMPLE_FORMAT p)
  let w := sampleWidth fmt
  let pk := packing fmt
  let slots := s.audSlots p
  let lost := s.rd (Aud.PORT_STATE p) == 3
  let zero := lost || decide (0 < (s.aud p).insert)
  let vals := slots.map fun k => if zero then 0 else raw.getD k 0 / 2 ^ (tdmWidth (s.rd (Aud.TDM_FORMAT p)) - w) % 2 ^ w
  let s := if lost then s.audFsFrame p else s
  let q := s.audMute p w slots vals false
  if q.1.pow.global = .faultHold then q.1
  else if q.1.tick.dramChange then q.1.audXrun p 1
  else (q.1.feedSenders p w clock q.2).audStore p n w pk q.2

/-- What an output port has to send at position `n`: samples by slot of the mask, whether it is an underrun, and ring bytes
read. -/
def State.audSource (s : State) (p n clock : Nat) : List Nat × Bool × Nat :=
  let fmt := s.rd (Aud.SAMPLE_FORMAT p)
  let w := sampleWidth fmt
  let pk := packing fmt
  let slots := s.audSlots p
  let zeros := slots.map fun _ => 0
  if s.tick.dramChange then (zeros, true, 0)
  else if s.pow.global = .faultHold ∨ 0 < (s.aud p).insert then (zeros, false, 0)
  else if bit (s.rd (Aud.AUD_SOURCE p)) 0 then
    match s.rxFrameAt (bits (s.rd (Aud.AUD_SOURCE p)) 15 8) clock with
    | some f => (slots.zipIdx.map fun (e : Nat × Nat) => f.getD e.2 0 / 2 ^ (32 - w), false, 0)
    | none => (zeros, false, 0)
  else
    match s.audRing p with
    | none => (zeros, false, 0)
    | some (r, serial) =>
      if s.rd (Aud.HOST_FLOW p) = 1 ∧ s.rd (Aud.APPL_POSITION p) ≤ n then (zeros, true, 0)
      else
        let k := packBytes pk
        let at' := bufAddr serial (r.at pk (s.rd (Aud.MASK_IN_FORCE p)) n)
        (slots.zipIdx.map fun (e : Nat × Nat) => unpackSample pk w (memReadN s.nmp.mem (at' + k * e.2) k), false, k * slots.length)

/-- The level an idle output slot shows: high impedance under SLOT_IDLE, written as 2^32 (R411). -/
def idleSlot (fmt : Nat) : Nat := if bit fmt 26 then 2 ^ 32 else 0

/-- One frame of an output port at position `n` (Table 15-6, R411). -/
def State.audOutput (s : State) (p n clock : Nat) : State :=
  let fmt := s.rd (Aud.SAMPLE_FORMAT p)
  let tdm := s.rd (Aud.TDM_FORMAT p)
  let w := sampleWidth fmt
  let slots := s.audSlots p
  let s := if bit (s.rd (Aud.AUD_SOURCE p)) 0 then s.rxAdvance (bits (s.rd (Aud.AUD_SOURCE p)) 15 8) clock else s
  let (vals, under, moved) := s.audSource p n clock
  let s := if under then s.audXrun p 0 else s.audOk p
  let (s, out) := s.audMute p w slots vals under
  let s := s.addBytes (Aud.BYTES_MOVED p) moved
  if s.rd (Aud.PORT_STATE p) = 3 then s.audFsFrame p
  else if 0 < (s.aud p).drop then s.setAud p { s.aud p with drop := (s.aud p).drop - 1 }
  else
    let slot (k : Nat) : Nat := match slots.findIdx? fun j => j == k with
      | some i => out.getD i 0 * 2 ^ (tdmWidth tdm - w)
      | none => idleSlot tdm
    s.emit (.audio p ((List.range (tdmSlots tdm)).map slot))

/-- AUDIO_SAMPLE_FRAME (R408, R410): the position advances by one frame whatever happens. -/
def execAudioSampleFrame (port : Fin 8) (slots : List Nat) (s : State) : Host.Outcome State Fault Refusal :=
  .next (
    let p := port.val
    if s.audRunning p then
      let s := (s.at (s.audFrameAt p (s.rd (Aud.HW_POSITION p)))).audBoundary p
      let n := s.rd (Aud.HW_POSITION p)
      let clock := s.audFrameAt p n
      let s := if s.rd (Aud.DIRECTION p) = 0 then s.audInput p n clock slots else s.audOutput p n clock
      let x := s.aud p
      (s.setAud p { x with insert := x.insert - 1 }).wr (Aud.HW_POSITION p) (n + 1)
    else s)

/-! ## Frame sync of followers (Table 15-6) -/

/-- AUDIO_FS_EDGE (R410): `offset` is the place of the edge from the port's frame boundary in bit clocks, and `drift` the whole
frames by which the port lags (above 0) or leads the family clock with this edge. DEDUCED: a frame inserted takes the next
position; a frame that an output drops is consumed and not sent, and one that an input drops has no frame time of its own. -/
def execAudioFsEdge (port : Fin 8) (offset : Nat) (drift : Int) (s : State) : Host.Outcome State Fault Refusal :=
  .next (
    let p := port.val
    if s.audRunning p = false ∨ s.rd (Aud.CLOCK_ROLE p) = 0 then s
    else
      let x := s.aud p
      let s := s.setAud p { x with fsAt := s.clock }
      let x := s.aud p
      let s := if s.rd (Aud.PORT_STATE p) = 3 then s.wr (Aud.PORT_STATE p) (s.audRunState p) else s
      if offset = 0 then
        let s := s.setAud p { x with oddRun := 0 }
        if drift = 0 then s
        else
          let x := s.aud p
          let s := s.setAud p { x with insert := x.insert + (if 0 < drift then 1 else 0)
                                       drop := x.drop + (if drift < 0 ∧ s.rd (Aud.DIRECTION p) = 1 then 1 else 0) }
          (s.audFlag p AudFlag.SLIP).count (Aud.SLIPS p)
      else
        let run := if x.odd = offset then x.oddRun + 1 else 1
        let s := (s.setAud p { x with odd := offset, oddRun := if run = 8 then 0 else run }).count (Aud.FS_GLITCHES p)
        if run = 8 then (s.audFlag p AudFlag.SLIP).count (Aud.SLIPS p) else s)

/-- AUDIO_FS_LOST (R410): no FS edge for 1.5 frames. -/
def execAudioFsLost (port : Fin 8) (s : State) : Host.Outcome State Fault Refusal :=
  .next (
    let p := port.val
    if s.audRunning p = false ∨ s.rd (Aud.CLOCK_ROLE p) = 0 ∨ s.rd (Aud.PORT_STATE p) = 3 then s
    else
      let s := s.at ((s.aud p).fsAt + 1500000000 / s.audRate p)
      ((s.wr (Aud.PORT_STATE p) 3).audFlag p AudFlag.FS_LOST).audPortNotify 0x0502 p 0)

/-! ## Clock families (R403 to R405) -/

def State.family (s : State) (f : Nat) : FsyncSt := tget s.families f {}
def State.setFamily (s : State) (f : Nat) (x : FsyncSt) : State := { s with families := tset s.families f {} x }

/-- |period − base| within FAMILY_PULL, in ppm of the base rate's period (R404). -/
def State.inPull (s : State) (f period : Nat) : Bool :=
  let want := 1000000000
  let got := period * baseRate f
  decide ((max want got - min want got) * 1000000 ≤ want * s.rd (Aud.FAMILY_PULL f) + baseRate f * 1000000)

/-- A word-clock edge that is accepted, with a period: it ends HOLDOVER within FAMILY_PULL (R404). -/
def State.wordclockAccept (s : State) (f period : Nat) (phaseErr : Int) : State :=
  let s := s.setFamily f { s.family f with lastAt := some s.clock, rawAt := some s.clock, pm := period, odd := [], stopped := false }
  let s := s.wrS (Aud.FAMILY_PHASE_ERROR f) phaseErr
  if s.rd (Aud.FAMILY_STATE f) = 3 ∧ s.inPull f period then s.familyTo f 1 else s

/-- The pin that FAMILY_WCLK names brings a word clock: EVIO0 to EVIO5, or the FS pin of a follower port of the family (R403). -/
def State.wordclockPin (s : State) (f : Nat) : Bool :=
  let w := s.rd (Aud.FAMILY_WCLK f)
  decide (w < 6) || (s.rd (Aud.FAMILY (w - 16)) == f && s.rd (Aud.CLOCK_ROLE (w - 16)) == 1)

/-- WORDCLOCK_EDGE (R404): classified under R328 with the base rate period. -/
def execWordclockEdge (family : Fin 2) (phaseErr : Int) (s : State) : Host.Outcome State Fault Refusal :=
  .next (
    let f := family.val
    if s.rd (Aud.FAMILY_SOURCE f) ≠ 2 ∨ s.audioRuns = false ∨ s.wordclockPin f = false then s
    else
      let x := s.family f
      let pm := if x.pm = 0 then 1000000000 / baseRate f else x.pm
      match x.lastAt, x.rawAt with
      | some l, some raw =>
        let gap := s.clock - raw
        if !(offBy5 (s.clock - l) pm pm) then s.wordclockAccept f (s.clock - l) phaseErr
        else if x.stopped ∧ !(offBy5 gap pm pm) then s.wordclockAccept f gap phaseErr
        else
          let odd := if offBy5 gap pm pm then (gap :: x.odd).take 8 else []
          if odd.length = 8 ∧ alike odd then s.wordclockAccept f gap phaseErr
          else (s.setFamily f { x with rawAt := some s.clock, odd := odd }).count (Aud.FAMILY_GLITCHES f)
      | _, _ => s.setFamily f { x with lastAt := some s.clock, rawAt := some s.clock })

/-- WORDCLOCK_STOP (R404). -/
def execWordclockStop (family : Fin 2) (s : State) : Host.Outcome State Fault Refusal :=
  .next (
    let f := family.val
    let x := s.family f
    if s.rd (Aud.FAMILY_SOURCE f) ≠ 2 ∨ x.stopped ∨ s.audioRuns = false then s
    else
      let pm := if x.pm = 0 then 1000000000 / baseRate f else x.pm
      let s := s.at (x.lastAt.getD s.clock + pm * 3 / 2)
      let s := (s.setFamily f { x with stopped := true }).count (Aud.FAMILY_STOPS f)
      if s.rd (Aud.FAMILY_STATE f) = 1 ∨ s.rd (Aud.FAMILY_STATE f) = 2 then s.familyTo f 3 else s)

/-- FAMILY_LOCK_ACHIEVED (R404). -/
def execFamilyLockAchieved (family : Fin 2) (s : State) : Host.Outcome State Fault Refusal :=
  .next (if s.rd (Aud.FAMILY_STATE family.val) = 1 ∧ s.audioRuns then s.familyTo family.val 2 else s)

/-- FAMILY_SLIP (R405): counted once; each port of the family corrects at its next period boundary; LOCKED goes to ACQUIRING. -/
def execFamilySlip (family : Fin 2) (frames : Int) (s : State) : Host.Outcome State Fault Refusal :=
  .next (
    let f := family.val
    if s.rd (Aud.FAMILY_STATE f) ≠ 2 ∨ frames = 0 ∨ s.audioRuns = false then s
    else
      let s := s.count (Aud.FAMILY_SLIPS f)
      let s := (List.range 8).foldl (fun t p =>
        if t.rd (Aud.PORT_ENABLE p) = 1 ∧ t.rd (Aud.FAMILY p) = f then
          t.setAud p { t.aud p with slip := (t.aud p).slip + frames * 2 ^ t.rd (Aud.RATE_MULT p) }
        else t) s
      s.familyTo f 1)

/-! ## Commits (R401 to R403, R406, R407, R418) -/

/-- Parameters that may not change while the port stays enabled (R418). -/
def audFrozen (p : Nat) : List Nat :=
  [Aud.DIRECTION p, Aud.CLOCK_ROLE p, Aud.FAMILY p, Aud.RATE_MULT p, Aud.TDM_FORMAT p, Aud.SAMPLE_FORMAT p, Aud.HOST_FLOW p, Aud.AUD_RING p]

/-- A committed value of a port that contradicts its other parameters: the slots pass the end of the frame, a sample its slot (R401); the
packing is not offered (R406); the bit clock passes its limit (R402). -/
def State.audConflict (s : State) (p id : Nat) : Bool :=
  let tdm := s.rd (Aud.TDM_FORMAT p)
  let fmt := s.rd (Aud.SAMPLE_FORMAT p)
  let bclk := s.audBclk p
  (id == Aud.TDM_FORMAT p && decide (tdmLength tdm < tdmOffset tdm + tdmSlots tdm * tdmWidth tdm)) ||
    ((id == Aud.TDM_FORMAT p || id == Aud.SAMPLE_FORMAT p) && decide (tdmWidth tdm < sampleWidth fmt)) ||
    (id == Aud.SAMPLE_FORMAT p && !packOk fmt) ||
    ([Aud.TDM_FORMAT p, Aud.CLOCK_ROLE p, Aud.FAMILY p, Aud.RATE_MULT p].contains id &&
      (if s.rd (Aud.CLOCK_ROLE p) = 0 then decide ((if s.rd (Aud.FAMILY p) = 0 then 49152000 else 45158400) < bclk)
        else decide (50000000 < bclk)))

/-- A ring descriptor that cannot be taken: another buffer's cell, too small a buffer, or too many channels (R407). DESIGN CHOICE:
a descriptor of zeros names no ring. -/
def State.ringConflict (s : State) (p : Nat) (b : List Byte) : Bool :=
  let r := parseRing b
  if b = zeroBytes 32 then false
  else
    (match s.bufOf r.handle with
     | some (_, x) => x.cell != 59 || decide (x.size < r.bytes (packing (s.rd (Aud.SAMPLE_FORMAT p))))
     | none => false) || decide (r.channels < popcount 32 (s.rd (Aud.SLOT_MASK p)))

/-- The checks of a committed value of group 0x60. -/
def audioCheck (t : Txn) (id : Nat) (v : PVal) : Nat :=
  if idGroup id = 0x60 then
    let p := idInst id
    let n := idNum id
    let stays := t.old.rd (Aud.PORT_ENABLE p) == 1 && t.cand.rd (Aud.PORT_ENABLE p) == 1 && !t.has (Aud.PORT_ENABLE p)
    let w := v.toNat
    let familyBusy := (List.range 8).any fun q => t.old.rd (Aud.PORT_ENABLE q) == 1 && t.old.rd (Aud.FAMILY q) == p
    if n = 0x0100 ∨ n = 0x0101 ∨ n = 0x0102 then failIf familyBusy Status.CONFLICT
    else if id = Aud.AUD_RING p then
      let b := t.cand.valBytes v
      firstBad [failIf (stays && t.old.rdBlob id != b) Status.CONFLICT,
        failIf (b != zeroBytes 32 && !(parseRing b).ok b) Status.RANGE,
        failIf (b != zeroBytes 32 && (t.cand.bufOf (parseRing b).handle).isNone) Status.BAD_PARAM,
        failIf (t.cand.ringConflict p b) Status.CONFLICT]
    else
      firstBad [failIf (stays && (audFrozen p).contains id && t.old.rd id != w) Status.CONFLICT,
        failIf (t.cand.audConflict p id) Status.CONFLICT,
        failIf ((id == Aud.SLOT_MASK p || id == Aud.SAMPLE_FORMAT p) && !t.has (Aud.AUD_RING p) && t.cand.ringConflict p (t.old.rdBlob (Aud.AUD_RING p)) &&
          (t.old.audRing p).isSome) Status.CONFLICT]
  else Status.OK

/-- What a committed value of group 0x60 does beyond being held. -/
def audioApply (_t : Txn) (id : Nat) (v : PVal) (s : State) : State :=
  if idGroup id = 0x60 then
    let p := idInst id
    if id = Aud.PORT_ENABLE p then
      (if v.toNat = 0 then s.audStop p else s.audStart p)
    else if id = Aud.SLOT_MASK p then
      (if s.rd (Aud.PORT_ENABLE p) = 1 then s.setAud p { s.aud p with maskAt := some s.clock } else s)
    else if id = Aud.MUTE p then
      (if s.rd (Aud.PORT_ENABLE p) = 1 then
        let out := setBits 32 (writeOneClears (2 ^ 32 - 1) (s.rd (Aud.MASK_IN_FORCE p)))
        let m := out.foldl (fun m k => withBit m k (bit v.toNat k)) (s.rd (Aud.MUTE_STATE p))
        let x := s.aud p
        let wait := (setBits 32 (m ^^^ v.toNat)).map fun k => (k, (tfind x.muteAt k).getD s.clock)
        (s.setAud p { x with muteAt := wait }).wr (Aud.MUTE_STATE p) m
       else s)
    else if id = Aud.AUD_RING p then s.retireFreed
    else if idNum id = 0x0100 then
      ((s.setFamily p {}).wrS (Aud.FAMILY_PHASE_ERROR p) 0).familyTo p (if v.toNat = 0 then 0 else 1)
    else s
  else s

end Sys2Proof.Machine
end

