-- ==== Sys2Proof/Machine/Image.lean ====
section
/-! DEFINITION. Negor images: header, validity, and the selection between slots 2 and 3 (R480 to R483). -/

namespace Sys2Proof.Machine

/-! ## The header (Table 19-3) -/

/-- Bytes of the header. -/
def headerBytes : Nat := 4096

def imgMagic (h : List Byte) : Nat := leAt h 0 4
def imgVersion (h : List Byte) : Nat := leAt h 4 2
def imgBodyBytes (h : List Byte) : Nat := leAt h 8 4
def imgSecVersion (h : List Byte) : Nat := leAt h 12 4
def imgSlotGen (h : List Byte) : Nat := leAt h 16 1
def imgLevel (h : List Byte) : Nat := leAt h 20 4
def imgBuild (h : List Byte) : Nat := leAt h 24 4
def imgBodyDigest (h : List Byte) : List Byte := slice h 32 48
def imgKey (h : List Byte) : List Byte := slice h 80 96
def imgSignature (h : List Byte) : List Byte := slice h 176 96

/-- The header with another SLOT_GEN; byte 16 is not signed. -/
def withSlotGen (h : List Byte) (g : Nat) : List Byte := h.take 16 ++ leBytes 1 g ++ h.drop 17

/-! ## Validity (R480). The codes are those of SLOT_STATUS. -/

/-- SIGNATURE verifies by PUBLIC_KEY over bytes 0 to 175 with byte 16 taken as 0. -/
def signatureOk (h : List Byte) : Bool :=
  let k := imgKey h
  let g := imgSignature h
  ecdsaVerify (beNat (k.take 48)) (beNat (k.drop 48)) (beNat (g.take 48)) (beNat (g.drop 48)) (sha384 ((withSlotGen h 0).take 176))

/-- The status of a header: empty, header, key, signature. An erased header, all bytes 0xFF, is empty (DEDUCED). -/
def headerStatus (h : List Byte) : Nat :=
  if h.all fun b => b == 0xFF then 1
  else if imgMagic h ≠ 0x4E474F52 ∨ imgVersion h ≠ 1 ∨ imgBodyBytes h % 4096 ≠ 0 ∨ 33550336 < imgBodyBytes h then 2
  else if sha384 (imgKey h) ≠ Config.keyHash then 3
  else if signatureOk h then 0
  else 4

/-- The status of a slot's header under a floor: the golden image is exempt from the floor (R481). -/
def slotHeaderStatus (slot floor : Nat) (h : List Byte) : Nat :=
  if headerStatus h ≠ 0 then headerStatus h
  else if slot ≠ 1 ∧ imgSecVersion h < floor then 5
  else 0

/-- The status of a whole image. -/
def imageStatus (slot floor : Nat) (h body : List Byte) : Nat :=
  if slotHeaderStatus slot floor h ≠ 0 then slotHeaderStatus slot floor h
  else if body.length ≠ imgBodyBytes h ∨ sha384 body ≠ imgBodyDigest h then 6
  else 0

/-! ## Slots -/

/-- The header of a slot as last read or written. -/
def State.slotHeader (s : State) (slot : Nat) : List Byte := tget s.pow.headers slot []

/-- The flash address of a slot (Table 19-1). -/
def slotAddr (slot : Nat) : Nat := [0, 0x00100000, 0x02100000, 0x04100000].getD slot 0

/-- What the parameters say of a slot's header (Table 19-9). -/
def State.slotParams (s : State) (slot status : Nat) (h : List Byte) : State :=
  s.wrAll [(Obs.SLOT_GENERATION slot, if status = 1 ∨ status = 2 then 0x100 else imgSlotGen h), (Obs.SLOT_SEC_VERSION slot, imgSecVersion h),
    (Obs.SLOT_STATUS slot, status)]

/-- A slot that the boot ROM may select: valid as far as it has been read, and with fewer than 3 boot failures (R483). -/
def State.bootable (s : State) (slot : Nat) : Bool :=
  s.rd (Obs.SLOT_STATUS slot) == 0 && s.slotHeader slot != [] && decide (s.rd (Obs.BOOT_FAILS slot) < 3)

/-- The selection between slots 2 and 3 (R482), else the golden image; 0 where it is invalid. -/
def State.bootChoice (s : State) : Nat :=
  if s.bootable 2 && s.bootable 3 then
    let a := s.slotHeader 2
    let b := s.slotHeader 3
    if later 8 (imgSlotGen a) (imgSlotGen b) then 2
    else if later 8 (imgSlotGen b) (imgSlotGen a) then 3
    else if imgSecVersion a < imgSecVersion b then 3
    else 2
  else if s.bootable 2 then 2
  else if s.bootable 3 then 3
  else if s.rd (Obs.SLOT_STATUS 1) = 0 ∧ s.slotHeader 1 ≠ [] then 1
  else 0

/-- The record of the floor and of the boot failures of slots 1 to 3 (Table 19-5; the layout is internal, R485). -/
def State.bootRecord (s : State) : List Byte :=
  leBytes 4 (s.rd Obs.SEC_VERSION_FLOOR) ++ ([1, 2, 3].flatMap fun k => leBytes 1 (s.rd (Obs.BOOT_FAILS k)))

/-- Takes that record back. -/
def State.bootRestore (s : State) (b : List Byte) : State :=
  s.wrAll ((Obs.SEC_VERSION_FLOOR, leAt b 0 4) :: [1, 2, 3].map fun k => (Obs.BOOT_FAILS k, leAt b (3 + k) 1))

/-- Sets the floor or the failures and stores them (R481, R483). -/
def State.bootStore (s : State) (l : List (Nat × Nat)) : State :=
  let s := s.wrAll l
  s.ledgerPut 4 5 s.bootRecord

end Sys2Proof.Machine
end

