-- ==== Sys2Proof/Machine/Life.lean ====
section
/-! DEFINITION. The Life Meter's record and the writing of Ledger records that have waited (R472, R473, R485, Table 18-7). -/

namespace Sys2Proof.Machine

/-! ## Records of the Ledger -/

/-- The low bytes of a signed number. -/
def leSigned (n : Nat) (i : Int) : List Byte := leBytes n (ofSigned (8 * n) i)

/-- A record with the CRC-32 of its bytes after it (R108). -/
def withCrc (b : List Byte) : List Byte := b ++ leBytes 4 (crc32 b)

/-- Weighted and powered time in ms, with what no record holds yet. -/
def State.weightedMs (s : State) : Nat := s.therm.recWeighted + s.therm.pendWeighted
def State.poweredMs (s : State) : Nat := s.therm.recPoweredMs + s.therm.pendPowered
def State.profileMs (s : State) (p : Nat) : Nat := tget s.therm.recProfile p 0 + tget s.therm.pendProfile p 0

/-- LIFE_USED of a weighted time (R473). -/
def lifeUsed (ms : Nat) : Nat := min 65535 (ms / ratedLife)

/-- The parameters of the Life Meter (R472, R473). -/
def State.lifeParams (s : State) : State :=
  (s.wrAll [(Th.LIFE_WEIGHTED, s.weightedMs), (Th.LIFE_POWERED, s.poweredMs / 1000), (Th.LIFE_USED, lifeUsed s.weightedMs)]).wrAll
    ((List.range 5).map fun p => (Th.PROFILE_SECONDS p, s.profileMs p / 1000))

/-- The life record (Table 18-7). -/
def State.lifeRecord (s : State) : List Byte :=
  withCrc (leBytes 1 0x4C ++ leBytes 1 1 ++ zeroBytes 58 ++ leSigned 2 s.therm.minJunction ++ leSigned 2 s.therm.maxJunction ++
    leBytes 4 s.therm.lifeSeq ++ leBytes 8 (s.poweredMs / 1000) ++ leBytes 8 s.weightedMs ++
    ((List.range 5).flatMap fun p => leBytes 8 (s.profileMs p / 1000)))

/-- Negor adds the accumulated amounts to the life record (R472). The record numbers itself; the extremes start again. -/
def State.lifeAdd (s : State) : State :=
  { s with therm := { s.therm with
      recWeighted := s.weightedMs, recPoweredMs := s.poweredMs
      recProfile := (List.range 5).foldl (fun (t : Table Nat) p => tset t p 0 (s.profileMs p)) []
      pendWeighted := 0, pendPowered := 0, pendProfile := [], lifeSeq := (s.therm.lifeSeq + 1) % 2 ^ 32
      maxJunction := -32768, minJunction := 32767 } }

/-- A Ledger write that has waited is made. The life record is written as it stands when it is written (R472). -/
def State.ledgerCommit (s : State) (w : Nat × Nat × List Byte) : State :=
  if w.1 = 18 then (s.ledgerWrite 18 25 s.lifeRecord).lifeAdd else s.ledgerWrite w.1 w.2.1 w.2.2

end Sys2Proof.Machine
end

