-- ==== Sys2Proof/Machine/Restart.lean ====
section
/-! DEFINITION. Entering BOOT: what the device keeps and what returns to reset (Table 01-5, R76, R80, R82, R476, R477). -/

namespace Sys2Proof.Machine

/-- Registers kept over a BOOT: what the sensors read, and the control-plane starts since power-on. -/
def keptOverBoot : List Nat :=
  [Th.JUNCTION, Th.DIODE, Th.POWER_NOW, Sys.LAST_RESTART_CAUSE, Sys.CONTROL_RESTARTS] ++ (List.range 16).map Th.MONITOR

/-- The Ledger writes that wait are made (R485). -/
def State.flushLedger (s : State) : State :=
  let s1 := s.pow.ledgerQueue.foldl (fun (t : State) w => t.ledgerCommit w) s
  { s1 with pow := { s1.pow with ledgerQueue := [] } }

/-- The Ledger write in progress, if one is, completes (R476, R465). -/
def State.finishLedger (s : State) : State :=
  match s.tick.active, s.pow.ledgerQueue with
  | some 3, w :: _ => s.ledgerCommit w
  | _, _ => s

/-- Everything that BOOT returns to reset. The AON domain keeps its clock and the Life Meter; the Ledger, the flash and the
SSDs keep their content; the sinks stay plugged in. Device Time starts at 0 (R321). -/
def State.bootReset (s : State) : State :=
  { ({} : State) with
    pending := s.pending, clock := s.clock, freeCtr := s.freeCtr, out := s.out
    regs := s.regs.filter fun (p : Nat × Word) => keptOverBoot.contains p.1
    time := { base := 0, ref := s.clock }
    pow := {
      global := s.pow.global, phase := .inReset, resetEnd := s.clock, bootStart := s.clock, afterThermalOff := s.pow.afterThermalOff
      banksReleased := s.pow.banksReleased, banksHigh := s.pow.banksHigh, thermShdn := s.pow.thermShdn, ledger := s.pow.ledger
      restartValues := s.pow.restartValues }
    nmp := { ownerKey := s.nmp.ownerKey }
    therm := {
      lastSample := s.therm.lastSample, lastLife := s.therm.lastLife, pendWeighted := s.therm.pendWeighted
      pendPowered := s.therm.pendPowered, pendProfile := s.therm.pendProfile, recWeighted := s.therm.recWeighted
      recPoweredMs := s.therm.recPoweredMs, recProfile := s.therm.recProfile, lifeSeq := s.therm.lifeSeq
      maxJunction := s.therm.maxJunction, minJunction := s.therm.minJunction, warnSent := s.therm.warnSent, fullSent := s.therm.fullSent }
    heads := (s.heads.filter fun (h : Nat × HeadSt) => h.2.hpd).map fun (h : Nat × HeadSt) => (h.1, { ({} : HeadSt) with hpd := true, caps := h.2.caps })
    media := { ssds := s.media.ssds } }

/-- Enters BOOT (Table 01-5), with LAST_RESTART_CAUSE. -/
def State.enterBoot (s : State) (cause : Nat) : State := (s.bootReset.wr Sys.LAST_RESTART_CAUSE cause).setGlobal .boot

end Sys2Proof.Machine
end

