-- ==== Sys2Proof/Machine/BootRom.lean ====
section
/-! DEFINITION. The boot ROM: BOOT trace records, the selection of an image, boot failures, and Negor's start (R480 to R483). -/

namespace Sys2Proof.Machine

/-- A BOOT trace record (Table 19-8). -/
def State.bootTrace (s : State) (slot stage : Nat) (failed : Bool) : State :=
  s.trace 7 slot (leBytes 1 stage ++ leBytes 1 (if failed then 1 else 0) ++ leBytes 1 (if slot = 0 then 0 else s.rd (Obs.BOOT_FAILS slot)))

/-- The stage at which a slot with a SLOT_STATUS fails; an empty slot fails at its header. -/
def failedStage (status : Nat) : Nat := if status = 1 then 2 else status

/-- The records of the header checks of a slot: each stage passed, up to the one that failed (Table 19-8). The golden image has no
floor stage. -/
def State.traceHeader (s : State) (slot : Nat) : State :=
  let status := s.rd (Obs.SLOT_STATUS slot)
  let stages := if slot = 1 then [2, 3, 4] else [2, 3, 4, 5]
  let bad := decide (1 ≤ status ∧ status ≤ 5)
  stages.foldl (fun (t : State) k =>
    if bad && decide (failedStage status < k) then t else t.bootTrace slot k (bad && failedStage status == k)) s

/-- The record sent while no image boots (R483). -/
def State.traceNoImage (s : State) : State :=
  let status := s.rd (Obs.SLOT_STATUS 1)
  s.bootTrace 1 (if status = 6 then 6 else failedStage (max 1 (min 5 status))) true

/-- The boot ROM selects an image and begins to read it, or finds none (R482, R483). -/
def State.selectImage (s : State) : State :=
  match s.bootChoice with
  | 0 => ({ s with pow := { s.pow with phase := .noImage, confirmDue := s.clock } }).traceNoImage
  | k => ({ s with pow := { s.pow with phase := .verifying k } }).traceHeader k

/-- A boot failure of a slot, stored in the Ledger (R483). BOOT_FAILS reaches 3 at most. -/
def State.bootFailure (s : State) (slot : Nat) : State :=
  s.bootStore [(Obs.BOOT_FAILS slot, min 3 (s.rd (Obs.BOOT_FAILS slot) + 1))]

/-! ## The clock set (R468, R498) -/

/-- The CORE clock of a cap under a profile, in MHz. -/
def capClock (p : ProfileVals) (cap : Nat) : Nat :=
  if p.cap ≤ p.floorCap then p.core
  else (p.floorClock + (p.core - p.floorClock) * (cap - p.floorCap) / (p.cap - p.floorCap)) / 25 * 25

/-- A NOC or CPU clock of the profile at a CORE clock, in kHz (R468); where CORE is gated, that of the profile. -/
def capScaled (p : ProfileVals) (mhz clock : Nat) : Nat := if p.core = 0 then clock else clock * mhz / p.core

/-- The CORE_VID code of a clock set: free within its bounds (R498). -/
def vidCode (p : ProfileVals) (mhz : Nat) : Nat := if p.scale ≤ 0xCCCD then (Config.vidLevel mhz).toNat % 4 else (Config.vidLevel mhz).toNat % 11

/-- Applies the clock set of ACTIVE_CAP. -/
def State.applyClock (s : State) : State :=
  let mhz := capClock s.profile (s.rd Tick.ACTIVE_CAP)
  let vid := vidCode s.profile mhz
  let s1 := { s with pow := { s.pow with
    coreMHz := mhz, nocKHz := capScaled s.profile mhz s.profile.noc, cpuKHz := capScaled s.profile mhz s.profile.cpu, coreVid := vid } }
  if s.pow.coreVid = vid then s1 else s1.pin "CORE_VID" vid

/-! ## Negor's start (R483) -/

/-- Negor starts to execute from a verified image: WARMUP, with Ethernet bring-up (Table 19-4). It must confirm within 500 ms, and CORE_VID leaves code 5
for the level of the clock set (R498).
DESIGN CHOICE: an image of an interface level other than 4 starts too, reports its level and behaves as level 4; the manual makes no statement
of such firmware (R5), and R480 does not check the level. -/
def State.negorStarts (s : State) (slot : Nat) (header : List Byte) : State :=
  let s := (s.bootTrace slot 6 false).bootTrace slot 7 false
  let s := s.wrAll [(Obs.BOOT_SLOT, slot), (Sys.INTERFACE_LEVEL, imgLevel header), (Sys.NEGOR_BUILD, imgBuild header)]
  let s := { s with pow := { s.pow with phase := .started, confirmed := false, confirmDue := s.clock + 500000000 } }
  ((s.count Sys.CONTROL_RESTARTS).setGlobal .warmup).applyClock.ethStart

/-- BOOT_IMAGE_VERIFIED (R480, R482): the selected image is read and checked as a whole; a valid one starts, an invalid one leaves
the boot ROM to select again. -/
def execBootImageVerified (header body : List Byte) (s : State) : Host.Outcome State Fault Refusal :=
  .next (
    match s.pow.global, s.pow.phase with
    | .boot, .verifying slot =>
      let status := imageStatus slot (s.rd Obs.SEC_VERSION_FLOOR) header body
      let s := ({ s with pow := { s.pow with headers := tins s.pow.headers slot header } }).slotParams slot status header
      if status = 0 then s.negorStarts slot header
      else if status = 6 then (s.bootTrace slot 6 true).selectImage
      else (s.traceHeader slot).selectImage
    | _, _ => s)

/-- GOLDEN_INVALID_BOOT_RECORD (R483): every 1 s while no image boots. -/
def execGoldenInvalidBootRecord (s : State) : Host.Outcome State Fault Refusal :=
  .next (
    if s.pow.global = .boot ∧ s.pow.phase = .noImage then
      let s := s.at (s.pow.confirmDue + 1000000000)
      ({ s with pow := { s.pow with confirmDue := s.clock } }).traceNoImage
    else s)

end Sys2Proof.Machine
end

