-- ==== Sys2Proof/Machine/Ecc.lean ====
section
/-! DEFINITION. The DRAM code: RS(80,64) over GF(2^8), its syndromes, and decoding of errors and erasures (R421, R422, R424). -/

namespace Sys2Proof.Machine

/-! ## The field (R421) -/

/-- Twice an element modulo x^8 + x^4 + x^3 + x^2 + 1. -/
def gfDouble (a : Nat) : Nat := if 128 ≤ a then (2 * a) ^^^ 0x11D else 2 * a

/-- The product of two elements, over the low `fuel` bits of the second. -/
def gfMulN : Nat → Nat → Nat → Nat
  | 0, _, _ => 0
  | n + 1, a, b => (if b % 2 = 1 then a else 0) ^^^ gfMulN n (gfDouble a) (b / 2)

def gfMul (a b : Nat) : Nat := gfMulN 8 a b

/-- α^n with α = 0x02. -/
def gfAlpha (n : Nat) : Nat := (List.range (n % 255)).foldl (fun x _ => gfDouble x) 1

/-- The inverse, a^254: the product of a^2, a^4, … and a^128. -/
def gfInv (a : Nat) : Nat :=
  ((List.range 7).foldl (fun (e : Nat × Nat) _ => (gfMul e.1 e.1, gfMul e.2 (gfMul e.1 e.1))) (a, 1)).2

/-! ## Polynomials, lowest coefficient first -/

def polyAdd (a b : List Nat) : List Nat :=
  (List.range (max a.length b.length)).map fun i => a.getD i 0 ^^^ b.getD i 0

def polyScale (c : Nat) (a : List Nat) : List Nat := a.map (gfMul c)

def polyMul (a b : List Nat) : List Nat :=
  a.foldr (fun c acc => polyAdd (polyScale c b) (0 :: acc)) []

/-- The value at x. -/
def polyEval (a : List Nat) (x : Nat) : Nat := a.foldr (fun c acc => c ^^^ gfMul x acc) 0

def polyDegree (a : List Nat) : Nat := ((List.range a.length).filter fun i => a.getD i 0 != 0).foldl max 0

/-! ## The code -/

/-- Symbols of a codeword, and check symbols. -/
def codeLength : Nat := 80
def codeChecks : Nat := 16

/-- The degree of a codeword position: position 0 stands for x^79 (DEDUCED: systematic, data symbols first). -/
def posDegree (i : Nat) : Nat := 79 - i

/-- The 16 syndromes S0 to S15: the word's polynomial at α^0 to α^15. -/
def syndromes (w : List Nat) : List Nat :=
  (List.range codeChecks).map fun j => w.foldl (fun acc c => gfMul acc (gfAlpha j) ^^^ c) 0

/-- The locator of a set of positions. -/
def locator (ps : List Nat) : List Nat := ps.foldl (fun l p => polyMul l [1, gfAlpha (posDegree p)]) [1]

/-- Berlekamp–Massey from an erasure locator of degree f: the state is (locator, previous, length). -/
def massey (syn : List Nat) (f : Nat) (start : List Nat) : List Nat × Nat :=
  let step (st : List Nat × List Nat × Nat) (r : Nat) : List Nat × List Nat × Nat :=
    let d := (List.range r).foldl (fun acc i => acc ^^^ gfMul (st.1.getD i 0) (syn.getD (r - 1 - i) 0)) 0
    let t := polyAdd st.1 (0 :: polyScale d st.2.1)
    if d ≠ 0 ∧ 2 * st.2.2 ≤ r + f - 1 then (t, polyScale (gfInv d) st.1, r + f - st.2.2)
    else (t, 0 :: st.2.1, st.2.2)
  let out := ((List.range (codeChecks - f)).map fun k => k + f + 1).foldl step (start, start, f)
  (out.1, out.2.2)

/-- Decoding with erased positions (R422, R424): the positions in error with the values to add, where e errors and f erasures
satisfy 2e + f ≤ 16; none where the word is uncorrectable. -/
def rsDecode (w erased : List Nat) : Option (List (Nat × Nat)) :=
  let syn := syndromes w
  if syn.all (· == 0) then some []
  else if codeChecks < erased.length then none
  else
    let (loc, len) := massey syn erased.length (locator erased)
    let roots := (List.range codeLength).filter fun p => polyEval loc (gfInv (gfAlpha (posDegree p))) == 0
    if polyDegree loc ≠ len ∨ roots.length ≠ len ∨ codeChecks < 2 * (len - erased.length) + erased.length then none
    else
      let omega := (polyMul syn loc).take codeChecks
      let deriv := (List.range (loc.length - 1)).map fun i => if i % 2 = 0 then loc.getD (i + 1) 0 else 0
      let errs := roots.map fun p =>
        let x := gfAlpha (posDegree p)
        let xi := gfInv x
        (p, gfMul (gfMul x (polyEval omega xi)) (gfInv (polyEval deriv xi)))
      let fixed := w.zipIdx.map fun (e : Nat × Nat) => e.1 ^^^ (((errs.find? fun (q : Nat × Nat) => q.1 == e.2).map Prod.snd).getD 0)
      if (syndromes fixed).all (· == 0) then some (errs.filter fun (q : Nat × Nat) => q.2 != 0) else none

/-- The word of 80 symbols from bytes, padded with zeros. -/
def symbolsOf (b : List Byte) : List Nat := (List.range codeLength).map fun i => (b.getD i 0).toNat

/-! ## Places in a codeword (R421) -/

/-- The beat pair of a codeword position. -/
def posPair (i : Nat) : Nat := if i < 64 then i / 8 else (i - 64) / 2

/-- The nibble (0 to 9) of a codeword position. -/
def posNibble (i : Nat) : Nat := if i < 64 then i % 8 else 8 + (i - 64) % 2

/-- The symbols of a burst of 16 beats, in codeword positions: a beat is 40 lines, DQ0 to DQ31 below CB0 to CB7, and a symbol is one
nibble of two beats, the first in bits 3 to 0. -/
def burstSymbols (beats : List Nat) : List Nat :=
  (List.range codeLength).map fun i =>
    let line (b : Nat) : Nat := beats.getD (2 * posPair i + b) 0 / 16 ^ posNibble i % 16
    line 0 + 16 * line 1

/-- The component of a nibble: data components first, then check components, by the widths of Table 16-1. -/
def nibbleComponent (dataWidth checkWidth n : Nat) : Nat :=
  let per := max 1 (dataWidth / 4)
  if n < 8 then n / per else 8 / per + (n - 8) / max 1 (checkWidth / 4)

end Sys2Proof.Machine
end

