-- ==== Sys2Proof/Machine/Target.lean ====
section
/-! DEFINITION. The storage target: associations, queues and admin commands (R369 to R375, R382 to R389, R392 to R398). -/

namespace Sys2Proof.Machine

/-! ## Associations (R371, R372) -/

/-- The subsystem NQN (R369). -/
def subsysNqn : List Byte := ascii "nqn.2019-04.com.dzigiver:cx9144:" ++ hexDigits 16 Config.serialNumber.toNat

/-- A storage-target NOTIFY (R397). -/
def State.targetNotify (s : State) (code cntlid port value : Nat) : State :=
  s.notify 9 code (leBytes 1 cntlid ++ leBytes 1 port ++ leBytes 1 value ++ zeroBytes 5)

/-- The target serves associations in READY and RUN, Duiker included (R398). -/
def State.targetServes (s : State) : Bool := s.pow.global == .ready || s.pow.global == .run

/-- The key of an I/O queue. -/
def qKey (c qid : Nat) : Nat := 65536 * c + qid

/-- I/O queues of an association. -/
def State.queuesOf (s : State) (c : Nat) : List Nat := (tkeys s.tgt.queues).filter fun (k : Nat) => k / 65536 == c

/-- ASSOC_INFO, ASSOC_HOST and ASSOCIATIONS after a change of an association (Table 14-10). -/
def State.assocParams (s : State) (c : Nat) : State :=
  let s := s.wr Tgt.ASSOCIATIONS s.tgt.assocs.length
  match s.assoc c with
  | some a => (s.wrBlob (Tgt.ASSOC_HOST (c - 1)) a.hostNqn).wr (Tgt.ASSOC_INFO (c - 1))
      (a.kato * 2 ^ 32 + a.entry * 65536 + (s.queuesOf c).length * 256 + a.port)
  | none => (s.wrBlob (Tgt.ASSOC_HOST (c - 1)) []).wr (Tgt.ASSOC_INFO (c - 1)) 0

/-- The first allow-list entry that matches (R372). -/
def State.allowEntry (s : State) (nqn hostId : List Byte) : Option Nat :=
  (List.range 32).find? fun e =>
    let n := s.rdBlob (Tgt.ALLOW_NQN e)
    let h := s.rdBlob (Tgt.ALLOW_HOSTID e)
    n != [] && n == nqn && (h == zeroBytes 16 || h == hostId)

/-- The association a Connect opens; none where no entry matches and ALLOW_ANY is 0 (R372). -/
def State.admitHost (s : State) (port kato : Nat) (discovery : Bool) (nqn hostId : List Byte) : Option Assoc :=
  let make (entry rights urgent cls limit : Nat) : Assoc :=
    { port := port, hostNqn := nqn, hostId := hostId, discovery := discovery, entry := entry, rights := rights, urgent := urgent,
      cls := cls, limit := limit, grant := limit, kato := kato, aliveAt := s.clock }
  match s.allowEntry nqn hostId with
  | some e =>
    let w := s.rd (Tgt.ALLOW_CLASS e)
    some (make e (s.rd (Tgt.ALLOW_RIGHTS e)) (bits w 15 8) (bits w 1 0) (s.rd (Tgt.ALLOW_QUEUES e)))
  | none => if s.rd Tgt.ALLOW_ANY = 1 then some (make 0xFF 3 0 2 4) else none

/-- KATO in its range (R393). -/
def katoOk (ms : Nat) : Bool := decide (1000 ≤ ms ∧ ms ≤ 600000 ∧ ms % 100 = 0)

/-- Why the RDMA connection itself is refused: 0 it is not (R314, R398). The codes are the model's own. -/
def State.rdmaBad (s : State) (mtu : Nat) : Nat :=
  if s.rd Tgt.TARGET_ENABLE = 0 then 1
  else if !s.targetServes && s.pow.global != .faultHold then 2
  else if qpLimit ≤ s.qps.length then 3
  else if !pathMtuOk mtu then 4
  else 0

/-- A refused Connect, counted where R371 or R372 refuses it. -/
def State.connectFail (s : State) (port cid status : Nat) (counted : Bool) : State :=
  (if counted then s.count Tgt.CONNECT_REJECTED else s).roceOut port 1 (.nvme port (s.control port 1) 0xFFFF 0 cid status 0 [])

/-- An admin Connect (R371, R372, R393). -/
def State.adminConnect (s : State) (port mtu cid : Nat) (discovery : Bool) (sqsize kato : Nat) (nqn hostId : List Byte) : State :=
  if s.pow.global = .faultHold then s.connectFail port cid Nvme.INTERNAL false
  else if 31 < sqsize then s.connectFail port cid Nvme.CONNECT_PARAM true
  else if !katoOk kato then s.connectFail port cid Nvme.CONNECT_PARAM false
  else
    match s.admitHost port kato discovery nqn hostId, (List.range 16).find? fun k => (s.assoc (k + 1)).isNone with
    | none, _ => s.connectFail port cid Nvme.CONNECT_HOST true
    | some _, none => s.connectFail port cid Nvme.BUSY true
    | some a, some k =>
      let c := k + 1
      let s := ((s.setAssoc c a).addQp port mtu (.nvme c 0)).assocParams c
      let s := (s.count Tgt.CONNECTS).roceOut port 0 (.connect port (s.control port 1) true 0)
      (s.nvmeDone c 0 cid Nvme.OK c []).targetNotify 1 c port 0

/-- An I/O Connect (R371, R373, R380). A QID in use and a controller that is not enabled receive Command Sequence Error
(PRESUMED, NVMe over Fabrics). -/
def State.ioConnect (s : State) (port mtu cid c qid sqsize : Nat) : State :=
  if s.pow.global = .faultHold then s.connectFail port cid Nvme.INTERNAL false
  else
    match s.assoc c with
    | none => s.connectFail port cid Nvme.CONNECT_PARAM true
    | some a =>
      if a.port ≠ port ∨ a.discovery ∨ sqsize = 0 ∨ 1023 < sqsize ∨ qid = 0 ∨ a.grant < qid then s.connectFail port cid Nvme.CONNECT_PARAM true
      else if (tfind s.tgt.queues (qKey c qid)).isSome ∨ a.cc % 2 = 0 then s.connectFail port cid Nvme.SEQUENCE false
      else
        let cls := if qid ≤ a.urgent then 0 else a.cls
        let s := { s with tgt := { s.tgt with queues := tins s.tgt.queues (qKey c qid) cls } }
        let s := ((s.addQp port mtu (.nvme c qid)).assocParams c).roceOut port 0 (.connect port (s.control port 1) true 0)
        s.nvmeDone c qid cid Nvme.OK c []

/-! ## The end of queues and associations (R394, R395) -/

/-- The commands of ended queues: those not started are discarded, the started ones run on without completion. -/
def State.endCmds (s : State) (p : NvmeCmd → Bool) : State :=
  let mine := s.tgt.cmds.filter p
  { s with tgt := { s.tgt with
      cmds := s.tgt.cmds.filter fun (c : NvmeCmd) => !p c
      ghosts := s.tgt.ghosts ++ mine.filter fun (c : NvmeCmd) => c.stage == 2 && (c.op == 1 || c.op == 8) } }

/-- The association a command of the target belongs to. -/
def targetOf : Instr → Nat
  | .nvmfIoConnect _ _ _ _ c _ _ | .nvmfPropertyGet c _ _ | .nvmfPropertySet c _ _ _ | .nvmfDisconnect c _ _ | .nvmeGetLogPage c _ _ _ _
  | .nvmeIdentify c _ _ _ | .nvmeAbort c _ _ _ | .nvmeSetFeatures c _ _ _ | .nvmeGetFeatures c _ _ _ | .nvmeAsyncEventRequest c _
  | .nvmeFirmwareCommit c _ _ _ | .nvmeFirmwareImageDownload c _ _ _ | .nvmeInvalidOpcode c _ _ _ | .nvmeRead c _ _ _ _ _ _
  | .nvmeWrite c _ _ _ _ _ _ _ | .nvmeWriteZeroes c _ _ _ _ _ _ | .nvmeFlush c _ _ _ => c
  | _ => 0

/-- Deletes one I/O queue (R395). -/
def State.endQueue (s : State) (c qid : Nat) : State :=
  let s := s.endCmds fun (x : NvmeCmd) => x.cntlid == c && x.qid == qid
  let s := { s with tgt := { s.tgt with queues := tdel s.tgt.queues (qKey c qid) } }
  (s.dropQps fun q => q.use == .nvme c qid).assocParams c

/-- Discards the staging image of an association (R387). -/
def State.dropStaging (s : State) (c : Nat) : State :=
  match s.tgt.staging with
  | some (o, _) => if o = c then { s with tgt := { s.tgt with staging := none } } else s
  | none => s

/-- Ends an association (R394): `value` is that of ASSOC_DOWN. -/
def State.endAssoc (s : State) (c value : Nat) : State :=
  match s.assoc c with
  | none => s
  | some a =>
    let s := s.endCmds fun (x : NvmeCmd) => x.cntlid == c
    let s := { s with tgt := { s.tgt with
        queues := s.tgt.queues.filter fun (q : Nat × Nat) => q.1 / 65536 != c
        held := s.tgt.held.filter fun (i : Instr) => targetOf i != c
        assocs := tdel s.tgt.assocs c } }
    let s := s.dropStaging c
    let s := s.dropQps fun q => match q.use with | .nvme x _ => x == c | _ => false
    (s.assocParams c).targetNotify 2 c a.port value

/-- The queue pair of an admin queue or of an I/O queue is lost (R395). -/
def State.queueLost (s : State) (c qid : Nat) : State :=
  match s.assoc c with
  | none => s
  | some _ =>
    if qid = 0 then (s.count Tgt.CONN_LOST).endAssoc c 2
    else if (tfind s.tgt.queues (qKey c qid)).isSome then s.endQueue c qid
    else s

/-! ## What every command goes through (R24, R54, R398) -/

/-- The queue of a command exists. -/
def State.hasQueue (s : State) (c qid : Nat) : Bool :=
  if qid = 0 then (s.assoc c).isSome else (tfind s.tgt.queues (qKey c qid)).isSome

/-- A command arrives: nothing without its queue; Internal Error in FAULT_HOLD; held while it may not be fetched, or, for one
that Negor executes, during a watchdog restart. -/
def State.targetCmd (s : State) (i : Instr) (c qid cid : Nat) (negor : Bool) (body : State → State) : State :=
  if s.hasQueue c qid = false then s
  else if s.pow.global = .faultHold then s.nvmeDone c qid cid Nvme.INTERNAL 0 []
  else if s.tick.dramChange ∨ (negor ∧ s.pow.restarting) then { s with tgt := { s.tgt with held := s.tgt.held ++ [i] } }
  else body s

/-! ## Properties (R384) -/

/-- CAP: MQES, CQR (PRESUMED 1, NVMe over Fabrics), TO and CSS. -/
def capValue : Nat := 1023 + 2 ^ 16 + 2 * 2 ^ 24 + 2 ^ 37

/-- CSTS: RDY follows CC.EN, CFS in FAULT_HOLD, SHST. -/
def State.cstsValue (s : State) (a : Assoc) : Nat :=
  a.cc % 2 + (if s.pow.global = .faultHold then 2 else 0) + 4 * a.shst

def State.propertyGet (s : State) (c cid offset : Nat) : State :=
  match s.assoc c with
  | none => s
  | some a =>
    match offset with
    | 0x00 => s.nvmeDone c 0 cid Nvme.OK capValue []
    | 0x08 => s.nvmeDone c 0 cid Nvme.OK 0x00020000 []
    | 0x14 => s.nvmeDone c 0 cid Nvme.OK a.cc []
    | 0x1C => s.nvmeDone c 0 cid Nvme.OK (s.cstsValue a) []
    | _ => s.nvmeDone c 0 cid Nvme.INVALID_FIELD 0 []

def State.propertySet (s : State) (c cid offset value : Nat) : State :=
  match s.assoc c with
  | none => s
  | some a =>
    if offset = 0x14 then
      let shst := if bits value 15 14 ≠ 0 then 2 else if value % 2 = 1 ∧ a.cc % 2 = 0 then 0 else a.shst
      let s := s.setAssoc c { a with cc := value % 2 ^ 32, shst := shst }
      let s := if a.cc % 2 = 1 ∧ value % 2 = 0 then
          ((s.queuesOf c).foldl (fun (t : State) k => t.endQueue c (k % 65536)) s).dropStaging c
        else s
      s.nvmeDone c 0 cid Nvme.OK 0 []
    else s.nvmeDone c 0 cid Nvme.INVALID_FIELD 0 []

/-- Queue and identifier of a command that is held. -/
def heldKey : Instr → Nat × Nat
  | .nvmeRead _ q cid .. | .nvmeWrite _ q cid .. | .nvmeWriteZeroes _ q cid .. | .nvmeFlush _ q cid _ | .nvmeInvalidOpcode _ q cid _
  | .nvmfDisconnect _ q cid => (q, cid)
  | .nvmfPropertySet _ cid _ _ | .nvmeGetLogPage _ cid .. | .nvmeIdentify _ cid .. | .nvmeAbort _ cid _ _ | .nvmeSetFeatures _ cid _ _
  | .nvmeGetFeatures _ cid _ _ | .nvmeAsyncEventRequest _ cid | .nvmeFirmwareCommit _ cid _ _ | .nvmeFirmwareImageDownload _ cid _ _ => (0, cid)
  | _ => (0, 0)

/-- A held command is answered in FAULT_HOLD (R398): a Property Get with its value, every other with Internal Error. -/
def State.heldFault (s : State) (i : Instr) : State :=
  match i with
  | .nvmfPropertyGet c cid o => s.propertyGet c cid o
  | .nvmfAdminConnect p _ _ cid .. => s.connectFail p.val cid Nvme.INTERNAL false
  | .nvmfIoConnect p _ _ cid .. => s.connectFail p.val cid Nvme.INTERNAL false
  | _ => s.nvmeDone (targetOf i) (heldKey i).1 (heldKey i).2 Nvme.INTERNAL 0 []

/-- The device enters FAULT_HOLD: every pending command completes with Internal Error (R398). -/
def State.targetFault (s : State) : State :=
  let s := s.tgt.cmds.foldl (fun (t : State) (c : NvmeCmd) => t.nvmeDone c.cntlid c.qid c.cid Nvme.INTERNAL 0 []) s
  let s := s.tgt.held.foldl State.heldFault s
  let s := s.tgt.assocs.foldl (fun (t : State) (e : Nat × Assoc) =>
    let t := e.2.aers.foldl (fun (u : State) cid => u.nvmeDone e.1 0 cid Nvme.INTERNAL 0 []) t
    match t.assoc e.1 with
    | some a => t.setAssoc e.1 { a with aers := [] }
    | none => t) s
  { s with tgt := { s.tgt with cmds := [], ghosts := [], held := [] } }

/-! ## Data pages -/

/-- A page of `n` bytes: the fields stated, at their offsets, over bytes that the spec does not state. -/
def pageOf (n k : Nat) (fields : List (Nat × List Byte)) : List Byte :=
  fields.foldl (fun page (f : Nat × List Byte) => page.take f.1 ++ f.2 ++ page.drop (f.1 + f.2.length)) ((List.range n).map (Config.pageByte k))

/-- The first `n` bytes of a text, padded with spaces. -/
def padText (n : Nat) (b : List Byte) : List Byte := (b ++ List.replicate n 0x20).take n

/-- Identify Controller (R382, Table 14-1), at the offsets of NVM Express Base 2.0. -/
def State.identifyController (s : State) (c k : Nat) : List Byte :=
  pageOf 4096 k [
    (4, padText 20 (hexDigits 16 Config.serialNumber.toNat)), (24, padText 40 (ascii "DZIGIVER CX9144")),
    (64, hexDigits 8 (s.rd Sys.NEGOR_BUILD)), (77, leBytes 1 8), (78, leBytes 2 c), (80, leBytes 4 0x00020000), (111, leBytes 1 1),
    (256, leBytes 2 4), (258, leBytes 1 3), (259, leBytes 1 7), (260, leBytes 1 0x07), (262, leBytes 1 63), (319, leBytes 1 1),
    (320, leBytes 2 1), (514, leBytes 2 1024), (516, leBytes 4 2), (520, leBytes 2 8), (525, leBytes 1 1), (526, leBytes 2 0), (528, leBytes 2 0),
    (768, subsysNqn ++ zeroBytes (256 - subsysNqn.length)), (1792, leBytes 4 4), (1796, leBytes 4 1), (1800, leBytes 2 0)]

/-- NGUID: SET_ID in bits [127:64], the NSID in bits [63:0], most significant byte first (R374; PRESUMED order, NVM Express). -/
def State.nguid (s : State) (nsid : Nat) : List Byte := beBytes 8 (s.rd Rec.SET_ID) ++ beBytes 8 nsid

/-- EUI64: SET_ID XOR NSID. -/
def State.eui64 (s : State) (nsid : Nat) : List Byte := beBytes 8 (s.rd Rec.SET_ID ^^^ nsid)

/-- Identify Namespace (R374, R375). -/
def State.identifyNamespace (s : State) (nsid k : Nat) : List Byte :=
  let n := leBytes 8 (s.nsSize nsid)
  pageOf 4096 k [(0, n), (8, n), (16, n), (25, leBytes 1 0), (26, leBytes 1 0), (29, leBytes 1 0),
    (99, leBytes 1 (if nsid = 1 then 1 else 0)), (104, s.nguid nsid), (120, s.eui64 nsid), (128, leBytes 2 0), (130, leBytes 1 12)]

/-- NVME_IDENTIFY (R382). -/
def State.identify (s : State) (c cid cns nsid : Nat) : State :=
  let (k, s) := s.draw
  if cns = 1 then s.nvmeDone c 0 cid Nvme.OK 0 (s.identifyController c k)
  else if cns = 2 then
    let list := ([1, 2].filter fun (n : Nat) => decide (nsid < n)).flatMap (leBytes 4)
    s.nvmeDone c 0 cid Nvme.OK 0 (list ++ zeroBytes (4096 - list.length))
  else if cns = 0 ∨ cns = 3 then
    if nsid = 1 ∨ nsid = 2 then
      if cns = 0 then s.nvmeDone c 0 cid Nvme.OK 0 (s.identifyNamespace nsid k)
      else
        let d := [0x01, 0x08, 0, 0] ++ s.eui64 nsid ++ [0x02, 0x10, 0, 0] ++ s.nguid nsid
        s.nvmeDone c 0 cid Nvme.OK 0 (d ++ zeroBytes (4096 - d.length))
    else s.nvmeDone c 0 cid Nvme.INVALID_NAMESPACE 0 []
  else s.nvmeDone c 0 cid Nvme.INVALID_FIELD 0 []

/-! ## Log pages (R385) -/

/-- Error Information: 64 entries of 64 bytes, the latest first, at the offsets of NVM Express. -/
def errorPage (a : Assoc) : List Byte :=
  let entry (e : NvmeError) : List Byte :=
    leBytes 8 e.number ++ leBytes 2 e.qid ++ leBytes 2 e.cid ++ leBytes 2 (2 * e.status) ++ leBytes 2 0xFFFF ++ leBytes 8 e.lba ++
      leBytes 4 e.nsid ++ zeroBytes 36
  let all := a.errors.flatMap entry
  all ++ zeroBytes (4096 - all.length)

/-- The junction estimate in kelvin, from 1/16 °C. -/
def State.junctionKelvin (s : State) : Nat := ((s.rdS Th.JUNCTION) / 16 + 273).toNat

/-- SMART / Health (Table 14-4). -/
def State.smartPage (s : State) (k : Nat) : List Byte :=
  let warn := if s.rdS Th.WARN_THRESHOLD ≤ s.rdS Th.JUNCTION then 2 else 0
  let degraded := if s.rd Rec.MEDIA_STATE = 4 then 4 else 0
  let absent := if s.nsReady then 0 else 8
  let units (r w : Nat) : Nat := (s.rd r + s.rd w) / 512000
  pageOf 512 k [(0, leBytes 1 (warn + degraded + absent)), (1, leBytes 2 s.junctionKelvin), (5, leBytes 1 (min 255 (s.rd Th.LIFE_USED / 10))),
    (32, leBytes 16 (units (Tgt.READ_BYTES 0) (Tgt.READ_BYTES 1))), (48, leBytes 16 (units (Tgt.WRITE_BYTES 0) (Tgt.WRITE_BYTES 1)))]

/-- The slot to be run at the next BOOT, where it differs from the running one; 0 where no change is pending (R386, R482). -/
def State.nextSlot (s : State) : Nat := if s.bootChoice = s.rd Obs.BOOT_SLOT then 0 else s.bootChoice

/-- Firmware Slot (R386): AFI, and as revision the 8 digits of NEGOR_BUILD of each valid header. -/
def State.slotPage (s : State) : List Byte :=
  let frs (k : Nat) : List Byte := if s.rd (Obs.SLOT_STATUS k) = 1 ∨ s.slotHeader k = [] then zeroBytes 8 else hexDigits 8 (imgBuild (s.slotHeader k))
  leBytes 1 (s.rd Obs.BOOT_SLOT + 16 * s.nextSlot) ++ zeroBytes 7 ++ frs 1 ++ frs 2 ++ frs 3 ++ zeroBytes 480

/-- Commands Supported and Effects: CSUPP of every supported admin and I/O command. -/
def effectsPage : List Byte :=
  let entry (l : List Nat) (i : Nat) : List Byte := leBytes 4 (if l.contains i then 1 else 0)
  (List.range 256).flatMap (entry [0x02, 0x06, 0x08, 0x09, 0x0A, 0x0C, 0x10, 0x11, 0x18]) ++
    (List.range 256).flatMap (entry [0x00, 0x01, 0x02, 0x08]) ++ zeroBytes 2048

/-- A Discovery log entry for a port (R369), at the offsets of NVMe over Fabrics. -/
def State.discoveryEntry (s : State) (p k : Nat) : List Byte :=
  let v4 := s.rd (Eth.IPV4_ADDRESS p)
  let v6 := s.rdBlob (Eth.IPV6_ADDRESS p)
  let dot := fun (i : Nat) => decDigits 3 (bits v4 (8 * i + 7) (8 * i))
  let a6 := if v6 = zeroBytes 16 then s.linkLocal p else v6
  let text4 := dot 3 ++ ascii "." ++ dot 2 ++ ascii "." ++ dot 1 ++ ascii "." ++ dot 0
  let text6 := (List.range 8).flatMap fun i => (if i = 0 then [] else ascii ":") ++ hexDigits 4 (beNat (slice a6 (2 * i) 2))
  pageOf 1024 k [(0, leBytes 1 1), (1, leBytes 1 (if v4 ≠ 0 then 1 else 2)), (2, leBytes 1 2), (32, padText 32 (ascii "4420")),
    (256, subsysNqn ++ zeroBytes (256 - subsysNqn.length)), (512, padText 256 (if v4 ≠ 0 then text4 else text6)),
    (768, leBytes 1 1), (769, leBytes 1 1), (770, leBytes 1 1)]

def State.discoveryPage (s : State) (k : Nat) : List Byte :=
  let ports := [0, 1].filter s.ethUp
  pageOf 1024 k [(8, leBytes 8 ports.length), (16, leBytes 2 0)] ++ ports.flatMap fun p => s.discoveryEntry p (k + 1 + p)

/-- Page 0xC0 (Table 14-5). -/
def State.thermalPage (s : State) : List Byte :=
  let t (v : Nat) : List Byte := leBytes 2 v
  leBytes 1 1 ++ leBytes 1 0 ++ t (s.rd Th.JUNCTION) ++ t (s.rd Th.DIODE) ++ zeroBytes 2 ++
    ((List.range 16).flatMap fun m => t (s.rd (Th.MONITOR m))) ++ leBytes 4 (s.rd Tick.ACTIVE_CAP) ++
    leBytes 4 (min 0xFFFFFFFF (bits (s.rd Th.THROTTLE_STEPS) 47 0)) ++ leBytes 8 s.deviceTime ++ zeroBytes 456

/-- Page 0xC1 (Table 14-6). -/
def State.lifePage (s : State) : List Byte :=
  leBytes 1 1 ++ leBytes 1 (s.rd Sys.VARIANT) ++ zeroBytes 6 ++ leBytes 8 (s.rd Th.LIFE_POWERED) ++ leBytes 8 (s.rd Th.LIFE_WEIGHTED / 1000) ++
    leBytes 8 (s.rd Th.LIFE_RATED) ++ ((List.range 5).flatMap fun p => leBytes 8 (s.rd (Th.PROFILE_SECONDS p))) ++
    leBytes 2 (s.rd Th.LIFE_USED) ++ zeroBytes 438

/-- Page 0xC2 (Table 14-7). -/
def State.recordingPage (s : State) : List Byte :=
  leBytes 1 1 ++ leBytes 1 (s.rd Rec.MEDIA_STATE) ++ leBytes 1 (s.rd Rec.SET_LAYOUT) ++ leBytes 1 s.media.clips.length ++
    ((List.range 4).flatMap fun k => leBytes 1 (s.rd (Rec.MEMBER_STATE k))) ++ leBytes 4 s.media.freeExtents ++
    leBytes 4 (s.rd Rec.TOTAL_EXTENTS) ++ leBytes 4 s.secondsLeft ++ leBytes 4 (s.rd Rec.SET_GENERATION) ++ leBytes 8 (s.rd Rec.SET_ID) ++
    leBytes 8 (s.rd Rec.LAST_COMMIT_SEQ) ++ leBytes 8 (s.rd Rec.LAST_COMMIT_TIME) ++
    ((List.range 4).flatMap fun k => leBytes 4 (s.rd (Rec.CLIP_SLOT_ID k))) ++
    ((List.range 4).flatMap fun k => leBytes 8 (s.rd (Rec.CLIP_LENGTH k))) ++ zeroBytes 416

/-- The content of a log page; none for one that is not served (R385). -/
def State.logPage (s : State) (a : Assoc) (lid k : Nat) : Option (List Byte) :=
  match lid with
  | 0x01 => some (errorPage a)
  | 0x02 => some (s.smartPage k)
  | 0x03 => some s.slotPage
  | 0x04 => some (if a.changed then leBytes 4 1 ++ leBytes 4 2 ++ zeroBytes 4088 else zeroBytes 4096)
  | 0x05 => some effectsPage
  | 0x70 => if a.discovery then some (s.discoveryPage k) else none
  | 0xC0 => some s.thermalPage
  | 0xC1 => some s.lifePage
  | 0xC2 => some s.recordingPage
  | _ => none

/-- NVME_GET_LOG_PAGE (R385). Reading page 0x04 clears it (PRESUMED, NVM Express). -/
def State.getLogPage (s : State) (c cid lid offset count : Nat) : State :=
  let (k, s) := s.draw
  match s.assoc c with
  | none => s
  | some a =>
    match s.logPage a lid k with
    | none => s.nvmeDone c 0 cid Nvme.LOG_PAGE 0 []
    | some page =>
      if page.length < 4 * offset then s.nvmeDone c 0 cid Nvme.INVALID_FIELD 0 []
      else
        let s := if lid = 0x04 then s.setAssoc c { a with changed := false } else s
        s.nvmeDone c 0 cid Nvme.OK 0 (slice page (4 * offset) (4 * count))

/-! ## Abort (R389) -/

/-- An Abort names the queue and the identifier. -/
def NvmeCmd.is (x : NvmeCmd) (c qid cid : Nat) : Bool := x.cntlid == c && x.qid == qid && x.cid == cid

/-! ## Features (R373, R380, R393, R396) -/

def State.setFeatures (s : State) (c cid fid value : Nat) : State :=
  match s.assoc c with
  | none => s
  | some a =>
    match fid with
    | 0x01 | 0x06 => s.nvmeDone c 0 cid Nvme.NOT_CHANGEABLE 0 []
    | 0x07 =>
      if a.granted then s.nvmeDone c 0 cid Nvme.SEQUENCE 0 []
      else
        let g := min (min (bits value 15 0) (bits value 31 16) + 1) a.limit
        (s.setAssoc c { a with grant := g, granted := true }).nvmeDone c 0 cid Nvme.OK ((g - 1) * 65536 + (g - 1)) []
    | 0x0B => (s.setAssoc c { a with events := value }).nvmeDone c 0 cid Nvme.OK 0 []
    | 0x0F =>
      if katoOk value then ((s.setAssoc c { a with kato := value }).assocParams c).nvmeDone c 0 cid Nvme.OK 0 []
      else s.nvmeDone c 0 cid Nvme.INVALID_FIELD 0 []
    | _ => s.nvmeDone c 0 cid Nvme.INVALID_FIELD 0 []

/-- The value of a feature; none for one that is not supported. -/
def State.feature (s : State) (a : Assoc) (fid : Nat) : Option Nat :=
  match fid with
  | 0x01 => some (s.rd Tgt.ARB_BURST + 2 ^ 8 * (s.rd Tgt.WEIGHT_LOW - 1) + 2 ^ 16 * (s.rd Tgt.WEIGHT_MEDIUM - 1) +
      2 ^ 24 * (s.rd Tgt.WEIGHT_HIGH - 1))
  | 0x06 => some 1
  | 0x07 => some ((a.grant - 1) * 65536 + (a.grant - 1))
  | 0x0B => some a.events
  | 0x0F => some a.kato
  | _ => none

/-- Supported capabilities (SEL 3): bit 2 where the feature is changeable. -/
def featureCaps (fid : Nat) : Nat := if fid = 0x01 ∨ fid = 0x06 then 0 else 4

def State.getFeatures (s : State) (c cid fid sel : Nat) : State :=
  match s.assoc c with
  | none => s
  | some a =>
    match s.feature a fid with
    | none => s.nvmeDone c 0 cid Nvme.INVALID_FIELD 0 []
    | some v =>
      if sel = 0 then s.nvmeDone c 0 cid Nvme.OK v []
      else if sel = 3 then s.nvmeDone c 0 cid Nvme.OK (featureCaps fid) []
      else s.nvmeDone c 0 cid Nvme.INVALID_FIELD 0 []

/-- NVME_ASYNC_EVENT_REQUEST (R396). -/
def State.asyncRequest (s : State) (c cid : Nat) : State :=
  match s.assoc c with
  | none => s
  | some a =>
    match [0, 1].find? (bit a.held) with
    | some k => (s.setAssoc c { a with held := clearFlag a.held k }).nvmeDone c 0 cid Nvme.OK (eventDword k) []
    | none =>
      if 8 ≤ a.aers.length then s.nvmeDone c 0 cid Nvme.AER_LIMIT 0 []
      else s.setAssoc c { a with aers := a.aers ++ [cid] }

/-! ## Firmware (R386 to R388, R482) -/

/-- The largest staging image. -/
def stagingMax : Nat := 32 * 2 ^ 20

/-- The bytes of a staging image. -/
def stagingBytes (t : Table (List Byte)) : List Byte :=
  (List.range ((tkeys t).foldl (fun m k => max m (k + 1)) 0)).flatMap fun b => tget t b (zeroBytes 4096)

def State.firmwareDownload (s : State) (c cid offset : Nat) (data : List Byte) : State :=
  match s.assoc c with
  | none => s
  | some a =>
    if bit a.rights 3 = false then s.nvmeDone c 0 cid Nvme.DENIED 0 []
    else if offset % 4096 ≠ 0 ∨ data.length % 4096 ≠ 0 ∨ data = [] ∨ stagingMax < offset + data.length then
      s.nvmeDone c 0 cid Nvme.INVALID_FIELD 0 []
    else
      let mine := match s.tgt.staging with | some (o, _) => o == c | none => false
      if offset ≠ 0 ∧ !mine then s.nvmeDone c 0 cid Nvme.INVALID_FIELD 0 []
      else
        let s := if !mine && s.tgt.staging.isSome then s.count Tgt.FW_STAGING_RESETS else s
        let old := match s.tgt.staging with | some (o, t) => if o = c then t else [] | none => []
        let t := (List.range (data.length / 4096)).foldl (fun t i => tins t (offset / 4096 + i) (slice data (4096 * i) 4096)) old
        ({ s with tgt := { s.tgt with staging := some (c, t) } }).nvmeDone c 0 cid Nvme.OK 0 []

/-- A refused Firmware Commit. -/
def State.firmwareRefused (s : State) (c cid status : Nat) : State := (s.count Tgt.FW_REJECTED).nvmeDone c 0 cid status 0 []

/-- The SLOT_GEN that takes the running one's part: that of the other slot when the golden image runs (R482). -/
def State.runningGen (s : State) (slot : Nat) : Nat :=
  let r := s.rd Obs.BOOT_SLOT
  imgSlotGen (s.slotHeader (if r = 1 then 5 - slot else r))

/-- Firmware Commit (Table 14-8). Where neither slot 2 nor slot 3 runs, slot 0 selects either: the spec does not say which. -/
def State.firmwareCommit (s : State) (c cid ca slot0 : Nat) : State :=
  let (k, s) := s.draw
  match s.assoc c with
  | none => s
  | some a =>
    let run := s.rd Obs.BOOT_SLOT
    let floor := s.rd Obs.SEC_VERSION_FLOOR
    let slot := if slot0 ≠ 0 then slot0 else if run = 2 then 3 else if run = 3 then 2 else if Config.openBool k then 2 else 3
    let image := match s.tgt.staging with | some (o, t) => if o = c then some (stagingBytes t) else none | none => none
    let replaces := ca = 0 ∨ ca = 1 ∨ ca = 3
    let gen := s.runningGen slot
    if bit a.rights 3 = false then s.nvmeDone c 0 cid Nvme.DENIED 0 []
    else if 3 < ca then s.firmwareRefused c cid Nvme.INVALID_FIELD
    else if slot = 1 ∨ 3 < slot ∨ (replaces ∧ slot = run) then s.firmwareRefused c cid Nvme.FW_SLOT
    else if replaces then
      match image with
      | none => s.firmwareRefused c cid Nvme.FW_IMAGE
      | some img =>
        let h := img.take headerBytes
        let body := slice img headerBytes (imgBodyBytes h)
        if imageStatus slot 0 h body ≠ 0 then s.firmwareRefused c cid Nvme.FW_IMAGE
        else if imgSecVersion h < floor ∨ floor = 0xFFFFFFFF then s.firmwareRefused c cid Nvme.FW_PROHIBITED
        else
          let h' := withSlotGen h (if ca = 0 then (gen + 255) % 256 else (gen + 1) % 256)
          let s := s.emit (.flash (slotAddr slot) (h' ++ body))
          let s := ({ s with pow := { s.pow with headers := tins s.pow.headers slot h' } }).slotParams slot 0 h'
          let s := s.bootStore [(Obs.BOOT_FAILS slot, 0)]
          ((s.count Tgt.FW_COMMITS).nvmeDone c 0 cid (if ca = 3 then Nvme.FW_RESET else Nvme.OK) 0 []).targetNotify 3 c a.port slot
    else
      let h := s.slotHeader slot
      if imgSecVersion h < floor ∨ floor = 0xFFFFFFFF then s.firmwareRefused c cid Nvme.FW_PROHIBITED
      else
        let h' := withSlotGen h ((gen + 1) % 256)
        let s := s.emit (.flash (slotAddr slot) h')
        let s := ({ s with pow := { s.pow with headers := tins s.pow.headers slot h' } }).slotParams slot (s.rd (Obs.SLOT_STATUS slot)) h'
        ((s.count Tgt.FW_COMMITS).nvmeDone c 0 cid Nvme.OK 0 []).targetNotify 3 c a.port slot

end Sys2Proof.Machine
end

