-- ==== Sys2Proof/Machine/TargetIo.lean ====
section
/-! DEFINITION. The storage target: I/O commands, the pacers, and the meaning of every command of spec/14 (R376 to R381, R383, R389
to R395). -/

namespace Sys2Proof.Machine

/-! ## Arbitration among waiting commands (R380) -/

/-- The class of a queue. -/
def State.queueClass (s : State) (k : Nat) : Nat := tget s.tgt.queues k 3

/-- Commands that wait at the pacer of a port, in the order of fetching. -/
def State.atPacer (s : State) (port : Nat) : List NvmeCmd :=
  s.tgt.cmds.filter fun (c : NvmeCmd) => c.stage == 1 && (match s.assoc c.cntlid with | some a => a.port == port | none => false)

/-- The weight of a WRR class. -/
def State.classWeight (s : State) (cls : Nat) : Nat :=
  [0, s.rd Tgt.WEIGHT_HIGH, s.rd Tgt.WEIGHT_MEDIUM, s.rd Tgt.WEIGHT_LOW].getD cls 0

/-- The next queue of a class, round robin after the one served last. -/
def nextQueue (qs : List Nat) (last : Nat) : Nat :=
  match qs.filter fun (q : Nat) => decide (last < q) with
  | [] => qs.foldl min (qs.headD 0)
  | q :: r => r.foldl min q

/-- The arbiter chooses a queue among those that wait: URGENT first, then weighted round robin over HIGH, MEDIUM and LOW; a
queue gives up its turn after 2^ARB_BURST commands. -/
def State.arbitrate (s : State) (a : ArbSt) (qs : List Nat) : Nat × ArbSt :=
  let of (cls : Nat) : List Nat := qs.filter fun (q : Nat) => s.queueClass q == cls
  let (cls, a) : Nat × ArbSt :=
    if of 0 ≠ [] then (0, a)
    else if of a.cls ≠ [] ∧ 0 < a.weight then (a.cls, { a with weight := a.weight - 1 })
    else
      let order : List Nat := [a.cls % 3 + 1, (a.cls + 1) % 3 + 1, (a.cls + 2) % 3 + 1]
      let c := (order.find? fun (x : Nat) => of x != []).getD 1
      (c, { a with cls := c, weight := s.classWeight c - 1 })
  if (of cls).contains a.queue ∧ 0 < a.burst then (a.queue, { a with burst := a.burst - 1 })
  else
    let q := nextQueue (of cls) (tget a.last cls 0)
    (q, { a with queue := q, burst := 2 ^ s.rd Tgt.ARB_BURST - 1, last := tins a.last cls q })

/-! ## Starting a command -/

/-- Two commands of a queue overlap (R390): the same namespace, and common LBAs or a Flush beside a write. -/
def NvmeCmd.overlaps (a b : NvmeCmd) : Bool :=
  let write (x : NvmeCmd) : Bool := x.op == 1 || x.op == 8
  a.cntlid == b.cntlid && a.qid == b.qid && a.nsid == b.nsid &&
    ((a.op == 0 && write b) || (b.op == 0 && write a) ||
      (a.op != 0 && b.op != 0 && decide (a.slba < b.slba + b.blocks ∧ b.slba < a.slba + a.blocks)))

/-- Replaces a fetched command. -/
def State.setCmd (s : State) (old new : NvmeCmd) : State :=
  { s with tgt := { s.tgt with cmds := s.tgt.cmds.map fun (x : NvmeCmd) => if x = old then new else x } }

/-- A command starts: a Read issues its SSD commands, a Write its RDMA READ, a Flush its member Flush commands (R389). -/
def State.startCmd (s : State) (c : NvmeCmd) : State :=
  let c' := { c with stage := 2 }
  if c.op = 2 then
    let (t, r) := s.issueRead c'
    t.setCmd c r
  else if c.op = 0 then
    s.media.inService.foldl (fun (t : State) k => match t.media.portOf k with
      | some p => t.emit (.ssd p "Flush" 0 0)
      | none => t) (s.setCmd c c')
  else if c.op = 1 then
    match s.assoc c.cntlid with
    | some a => (s.setCmd c c').roceOut a.port 0 (.packet a.port "RDMA READ" (s.control a.port 1) (leBytes 2 c.cntlid ++ leBytes 2 c.qid ++ leBytes 2 c.cid))
    | none => s.setCmd c c'
  else s.setCmd c c'

/-- The rate of a pacer in bit/s (R381). -/
def State.paceRate (s : State) (port : Nat) : Nat := s.rd (Tgt.TARGET_RATE port) / (if s.shed 1 then 2 else 1)

/-- Charges data to a pacer: its wire bits with all headers. -/
def State.paceCharge (s : State) (port bytes : Nat) : State :=
  let wire := 8 * (bytes + (Config.wireHeaders bytes).toNat)
  let from' := max s.clock (tget s.tgt.paceAt port 0)
  { s with tgt := { s.tgt with paceAt := tset s.tgt.paceAt port 0 (from' + ceilDiv (wire * 1000000000) (s.paceRate port)) } }

/-- A command that waits on no other starts, or waits at its pacer. Flush and Write Zeroes carry no data. -/
def State.tryStart (s : State) (port : Nat) (c : NvmeCmd) : State :=
  if c.op = 1 ∨ c.op = 2 then
    if s.atPacer port = [] ∧ 0 < s.paceRate port ∧ tget s.tgt.paceAt port 0 ≤ s.clock then
      (s.paceCharge port (c.blocks * blockSize)).startCmd c
    else (s.setCmd c { c with stage := 1 }).count Tgt.PACER_WAITS
  else s.startCmd c

/-- Commands of a list that are earlier than one: those before it. -/
def earlier (c : NvmeCmd) (l : List NvmeCmd) : List NvmeCmd := l.takeWhile fun (x : NvmeCmd) => x != c

/-- Waiting commands that wait on nothing any more go on, in order (R390). -/
def State.releaseCmds (s : State) : State :=
  s.tgt.cmds.foldl (fun (t : State) (c : NvmeCmd) =>
    if c.stage = 0 ∧ !((earlier c t.tgt.cmds).any fun (x : NvmeCmd) => x.overlaps c) then
      match t.assoc c.cntlid with
      | some a => t.tryStart a.port c
      | none => t
    else t) s

/-- Fetches an I/O command: URGENT_CMDS, and its start unless it waits. -/
def State.fetchCmd (s : State) (c : NvmeCmd) : State :=
  let s := if s.queueClass (qKey c.cntlid c.qid) = 0 then s.count Tgt.URGENT_CMDS else s
  ({ s with tgt := { s.tgt with cmds := s.tgt.cmds ++ [c] } }).releaseCmds

/-- The status that refuses an I/O command, 0 where none does: the namespace, its readiness (R375), write protection and rights
(R378), the range (R374) and MDTS (Table 14-1). -/
def State.ioBad (s : State) (a : Assoc) (c : NvmeCmd) : Nat :=
  let write := c.op == 1 || c.op == 8
  if c.nsid ≠ 1 ∧ c.nsid ≠ 2 then Nvme.INVALID_NAMESPACE
  else if !s.nsReady then Nvme.NOT_READY
  else if write ∧ c.nsid = 1 then Nvme.WRITE_PROTECTED
  else if c.op ≠ 0 ∧ !bit a.rights (if write then 2 else c.nsid - 1) then Nvme.DENIED
  else if s.nsSize c.nsid < c.slba + c.blocks then Nvme.LBA_RANGE
  else if (c.op = 1 ∨ c.op = 2) ∧ 256 < c.blocks then Nvme.INVALID_FIELD
  else Nvme.OK

/-- An I/O command as fetched. -/
def State.ioCmd (s : State) (c : NvmeCmd) : State :=
  match s.assoc c.cntlid with
  | none => s
  | some a =>
    let bad := s.ioBad a c
    if bad = Nvme.OK then s.fetchCmd c
    else
      let s := if bad = Nvme.NOT_READY then s.count Tgt.NS_NOT_READY else if bad = Nvme.DENIED then s.count Tgt.ACCESS_DENIED else s
      s.nvmeDoneAt c.cntlid c.qid c.cid bad 0 [] c.slba c.nsid

def State.doRead (s : State) (c qid cid nsid slba blocks : Nat) (fua : Bool) : State :=
  s.ioCmd { cntlid := c, qid := qid, cid := cid, op := 2, nsid := nsid, slba := slba, blocks := blocks, fua := fua }

def State.doWrite (s : State) (c qid cid nsid slba blocks : Nat) (fua : Bool) (data : List Byte) : State :=
  s.ioCmd { cntlid := c, qid := qid, cid := cid, op := 1, nsid := nsid, slba := slba, blocks := blocks, fua := fua,
            data := (data ++ zeroBytes (blocks * blockSize)).take (blocks * blockSize) }

def State.doWriteZeroes (s : State) (c qid cid nsid slba blocks : Nat) (fua : Bool) : State :=
  s.ioCmd { cntlid := c, qid := qid, cid := cid, op := 8, nsid := nsid, slba := slba, blocks := blocks, fua := fua,
            data := zeroBytes (blocks * blockSize) }

def State.doFlush (s : State) (c qid cid nsid : Nat) : State :=
  s.ioCmd { cntlid := c, qid := qid, cid := cid, op := 0, nsid := nsid, upTo := s.tgt.serial }

/-! ## Completion -/

/-- A block written to every copy in service, a member that is being rebuilt included (R378). -/
def State.targetWrite (s : State) (b : Nat) (bytes : List Byte) : State :=
  let s := s.setWrite b bytes
  match s.media.rebuilding, s.media.sb with
  | some (k, p), some sb => ((setCopies sb.layout sb.count b).filter fun (c : Nat × Nat) => c.1 == k).foldl (fun (t : State) c => t.ssdWrite p c.2 bytes) s
  | _, _ => s

/-- A write not covered by a Flush is noted with what it replaced (R379). -/
def State.noteVolatile (s : State) (b : Nat) : State :=
  { s with tgt := { s.tgt with volatile := s.tgt.volatile ++ [(s.tgt.serial, b, s.setRead b)], serial := s.tgt.serial + 1 } }

/-- A set block has a copy on a member in service. -/
def State.hasCopy (s : State) (b : Nat) : Bool := (s.readCopy b).isSome

/-- The set blocks of a command, each with its part of the data. -/
def State.cmdBlocks (s : State) (c : NvmeCmd) : List (Nat × List Byte) :=
  (List.range c.blocks).map fun i => (s.nsBlock c.nsid (c.slba + i), slice c.data (blockSize * i) blockSize)

/-- The effect of a started command that completes, its status and its data (R376, R378, R379, R383). -/
def State.finishIo (s : State) (c : NvmeCmd) (dataError : Bool) : Nat × List Byte × State :=
  let port := match s.assoc c.cntlid with | some a => a.port | none => 0
  let blocks := s.cmdBlocks c
  let lost := blocks.any fun (b : Nat × List Byte) => !s.hasCopy b.1
  if dataError ∧ (c.op = 1 ∨ c.op = 2) then (Nvme.DATA_TRANSFER, [], s)
  else if c.op = 2 then
    if lost then (Nvme.READ_ERROR, [], s.count Tgt.MEDIA_READ_ERRORS)
    else (Nvme.OK, blocks.flatMap fun (b : Nat × List Byte) => s.setRead b.1,
      (s.count Tgt.READ_CMDS).addBytes (Tgt.READ_BYTES port) (c.blocks * blockSize))
  else if c.op = 0 then
    (Nvme.OK, [], ({ s with tgt := { s.tgt with
      volatile := s.tgt.volatile.filter fun (v : Nat × Nat × List Byte) => c.nsid != 2 || decide (c.upTo ≤ v.1) } }).count Tgt.FLUSH_CMDS)
  else if lost then (Nvme.WRITE_FAULT, [], s)
  else
    let s := blocks.foldl (fun (t : State) (b : Nat × List Byte) =>
      (if c.fua then t else t.noteVolatile b.1).targetWrite b.1 b.2) s
    let s := s.count Tgt.WRITE_CMDS
    (Nvme.OK, [], if c.op = 1 then s.addBytes (Tgt.WRITE_BYTES port) (c.blocks * blockSize) else s)

/-- A started write of an ended association runs to its end: each block lands or does not (R394). -/
def State.finishGhost (s : State) (c : NvmeCmd) : State :=
  let s := { s with tgt := { s.tgt with ghosts := s.tgt.ghosts.filter fun (x : NvmeCmd) => x != c } }
  (s.cmdBlocks c).foldl (fun (t : State) (b : Nat × List Byte) =>
    let (k, t) := t.draw
    if Config.openBool k then (t.noteVolatile b.1).targetWrite b.1 b.2 else t) s

/-- Power is lost (R379): each write that no FUA and no Flush covers is lost or not, block by block, the latest first. -/
def State.losePower (s : State) : State :=
  s.tgt.volatile.foldr (fun (v : Nat × Nat × List Byte) (t : State) =>
    let (k, t) := t.draw
    if Config.openBool k then t.setWrite v.2.1 v.2.2 else t) s

/-! ## Held commands (R24, R54) -/

def State.abortCmd (s : State) (c cid sqid target : Nat) : State :=
  let miss := (s.count Tgt.ABORT_NOT_ABORTED).nvmeDone c 0 cid Nvme.OK 1 []
  match s.tgt.cmds.find? fun (x : NvmeCmd) => x.is c sqid target with
  | none => miss
  | some x =>
    if x.stage = 2 then miss
    else
      let s := { s with tgt := { s.tgt with cmds := s.tgt.cmds.filter fun (y : NvmeCmd) => y != x } }
      let s := (s.count Tgt.ABORTED).nvmeDoneAt c sqid target Nvme.ABORT_REQUESTED 0 [] x.slba x.nsid
      (s.nvmeDone c 0 cid Nvme.OK 0 []).releaseCmds

/-- The opcodes of Table 14-3 and R383. -/
def supportedOpcode (qid op : Nat) : Bool :=
  if qid = 0 then [0x02, 0x06, 0x08, 0x09, 0x0A, 0x0C, 0x10, 0x11, 0x18, 0x7F].contains op else [0x00, 0x01, 0x02, 0x08, 0x7F].contains op

def State.invalidOpcode (s : State) (c qid cid op : Nat) : State :=
  if supportedOpcode qid op then s else s.nvmeDone c qid cid Nvme.INVALID_OPCODE 0 []

/-- Disconnect (R395). -/
def State.disconnect (s : State) (c qid cid : Nat) : State :=
  let s := s.nvmeDone c qid cid Nvme.OK 0 []
  if qid = 0 then s.endAssoc c 0 else s.endQueue c qid

/-- A connect request passes where the RDMA connection is accepted (R314, R398). -/
def State.rdmaGate (s : State) (port mtu : Nat) (body : State → State) : State :=
  if s.rdmaBad mtu ≠ 0 then s.roceOut port 0 (.connect port (s.control port 1) false (s.rdmaBad mtu)) else body s

/-- A held command goes on. -/
def State.runHeld (s : State) (i : Instr) : State :=
  match i with
  | .nvmfAdminConnect p _ mtu cid d sq kato nqn hid => s.rdmaGate p.val mtu fun s => s.adminConnect p.val mtu cid d sq kato nqn hid
  | .nvmfIoConnect p _ mtu cid c qid sq => s.rdmaGate p.val mtu fun s => s.ioConnect p.val mtu cid c qid sq
  | .nvmfPropertyGet c cid o => s.propertyGet c cid o
  | .nvmfPropertySet c cid o v => s.propertySet c cid o v
  | .nvmfDisconnect c qid cid => s.disconnect c qid cid
  | .nvmeGetLogPage c cid lid o n => s.getLogPage c cid lid o n
  | .nvmeIdentify c cid cns n => s.identify c cid cns n
  | .nvmeAbort c cid sq t => s.abortCmd c cid sq t
  | .nvmeSetFeatures c cid f v => s.setFeatures c cid f v
  | .nvmeGetFeatures c cid f v => s.getFeatures c cid f v
  | .nvmeAsyncEventRequest c cid => s.asyncRequest c cid
  | .nvmeFirmwareCommit c cid ca slot => s.firmwareCommit c cid ca slot
  | .nvmeFirmwareImageDownload c cid o d => s.firmwareDownload c cid o d
  | .nvmeInvalidOpcode c qid cid op => s.invalidOpcode c qid cid op
  | .nvmeRead c qid cid n l b f => s.doRead c qid cid n l b f
  | .nvmeWrite c qid cid n l b f d => s.doWrite c qid cid n l b f d
  | .nvmeWriteZeroes c qid cid n l b f => s.doWriteZeroes c qid cid n l b f
  | .nvmeFlush c qid cid n => s.doFlush c qid cid n
  | _ => s

/-- A command that a watchdog restart holds: one that Negor executes. -/
def negorRuns : Instr → Bool
  | .nvmeRead .. | .nvmeWrite .. | .nvmeWriteZeroes .. | .nvmeFlush .. => false
  | .nvmeInvalidOpcode _ qid _ _ | .nvmfDisconnect _ qid _ => qid == 0
  | _ => true

/-- The DRAM is back, or Negor runs again: held commands go on in order, but those that something else still holds. -/
def State.resumeTarget (s : State) : State :=
  let stays (i : Instr) : Bool := s.tick.dramChange || (s.pow.restarting && negorRuns i)
  let go := s.tgt.held.filter fun (i : Instr) => !stays i
  go.foldl State.runHeld { s with tgt := { s.tgt with held := s.tgt.held.filter stays } }

/-! ## The meanings -/

/-- NVMF_ADMIN_CONNECT (R371, R372). A request outside the port's VLAN is not the port's (DEDUCED from Table 12-9). -/
def execNvmfAdminConnect (port : Fin 2) (vlan mtu cid : Nat) (discovery : Bool) (sqsize kato : Nat) (hostNqn hostId : List Byte) (s : State) :
    Host.Outcome State Fault Refusal :=
  .next (
    if s.ethUp port.val = false ∨ vlan ≠ s.rd (Eth.VLAN_ID port.val) then s
    else if s.rdmaBad mtu ≠ 0 then s.roceOut port.val 0 (.connect port.val (s.control port.val 1) false (s.rdmaBad mtu))
    else if s.tick.dramChange ∨ s.pow.restarting then
      { s with tgt := { s.tgt with held := s.tgt.held ++ [.nvmfAdminConnect port vlan mtu cid discovery sqsize kato hostNqn hostId] } }
    else s.adminConnect port.val mtu cid discovery sqsize kato hostNqn hostId)

/-- NVMF_IO_CONNECT (R371, R380). -/
def execNvmfIoConnect (port : Fin 2) (vlan mtu cid cntlid qid sqsize : Nat) (s : State) : Host.Outcome State Fault Refusal :=
  .next (
    if s.ethUp port.val = false ∨ vlan ≠ s.rd (Eth.VLAN_ID port.val) then s
    else if s.rdmaBad mtu ≠ 0 then s.roceOut port.val 0 (.connect port.val (s.control port.val 1) false (s.rdmaBad mtu))
    else if s.tick.dramChange ∨ s.pow.restarting then
      { s with tgt := { s.tgt with held := s.tgt.held ++ [.nvmfIoConnect port vlan mtu cid cntlid qid sqsize] } }
    else s.ioConnect port.val mtu cid cntlid qid sqsize)

/-- NVMF_PROPERTY_GET (R384); answered in FAULT_HOLD too (R398). -/
def execNvmfPropertyGet (cntlid cid offset : Nat) (s : State) : Host.Outcome State Fault Refusal :=
  .next (
    if s.pow.global = .faultHold ∧ s.hasQueue cntlid 0 then s.propertyGet cntlid cid offset
    else s.targetCmd (.nvmfPropertyGet cntlid cid offset) cntlid 0 cid true fun s => s.propertyGet cntlid cid offset)

/-- NVMF_PROPERTY_SET (R384). -/
def execNvmfPropertySet (cntlid cid offset value : Nat) (s : State) : Host.Outcome State Fault Refusal :=
  .next (s.targetCmd (.nvmfPropertySet cntlid cid offset value) cntlid 0 cid true fun s => s.propertySet cntlid cid offset value)

/-- NVMF_DISCONNECT (R395). -/
def execNvmfDisconnect (cntlid qid cid : Nat) (s : State) : Host.Outcome State Fault Refusal :=
  .next (s.targetCmd (.nvmfDisconnect cntlid qid cid) cntlid qid cid (qid == 0) fun s => s.disconnect cntlid qid cid)

/-- NVME_GET_LOG_PAGE (R385). -/
def execNvmeGetLogPage (cntlid cid lid offset count : Nat) (s : State) : Host.Outcome State Fault Refusal :=
  .next (s.targetCmd (.nvmeGetLogPage cntlid cid lid offset count) cntlid 0 cid true fun s => s.getLogPage cntlid cid lid offset count)

/-- NVME_IDENTIFY (R382). -/
def execNvmeIdentify (cntlid cid cns nsid : Nat) (s : State) : Host.Outcome State Fault Refusal :=
  .next (s.targetCmd (.nvmeIdentify cntlid cid cns nsid) cntlid 0 cid true fun s => s.identify cntlid cid cns nsid)

/-- NVME_ABORT (R389): a fifth outstanding Abort is refused. -/
def execNvmeAbort (cntlid cid sqid target : Nat) (s : State) : Host.Outcome State Fault Refusal :=
  .next (
    let waiting := s.tgt.held.filter fun (i : Instr) => match i with | .nvmeAbort c _ _ _ => c == cntlid | _ => false
    if s.hasQueue cntlid 0 ∧ 4 ≤ waiting.length ∧ s.pow.global ≠ .faultHold then s.nvmeDone cntlid 0 cid Nvme.ABORT_LIMIT 0 []
    else s.targetCmd (.nvmeAbort cntlid cid sqid target) cntlid 0 cid true fun s => s.abortCmd cntlid cid sqid target)

/-- NVME_SET_FEATURES (R373, R380, R393, R396). -/
def execNvmeSetFeatures (cntlid cid fid value : Nat) (s : State) : Host.Outcome State Fault Refusal :=
  .next (s.targetCmd (.nvmeSetFeatures cntlid cid fid value) cntlid 0 cid true fun s => s.setFeatures cntlid cid fid value)

/-- NVME_GET_FEATURES (R380, R382). -/
def execNvmeGetFeatures (cntlid cid fid sel : Nat) (s : State) : Host.Outcome State Fault Refusal :=
  .next (s.targetCmd (.nvmeGetFeatures cntlid cid fid sel) cntlid 0 cid true fun s => s.getFeatures cntlid cid fid sel)

/-- NVME_ASYNC_EVENT_REQUEST (R396). -/
def execNvmeAsyncEventRequest (cntlid cid : Nat) (s : State) : Host.Outcome State Fault Refusal :=
  .next (s.targetCmd (.nvmeAsyncEventRequest cntlid cid) cntlid 0 cid true fun s => s.asyncRequest cntlid cid)

/-- NVME_FIRMWARE_COMMIT (R388). -/
def execNvmeFirmwareCommit (cntlid cid ca slot : Nat) (s : State) : Host.Outcome State Fault Refusal :=
  .next (s.targetCmd (.nvmeFirmwareCommit cntlid cid ca slot) cntlid 0 cid true fun s => s.firmwareCommit cntlid cid ca slot)

/-- NVME_FIRMWARE_IMAGE_DOWNLOAD (R387). -/
def execNvmeFirmwareImageDownload (cntlid cid offset : Nat) (data : List Byte) (s : State) : Host.Outcome State Fault Refusal :=
  .next (s.targetCmd (.nvmeFirmwareImageDownload cntlid cid offset data) cntlid 0 cid true fun s =>
    s.firmwareDownload cntlid cid offset data)

/-- NVME_KEEP_ALIVE (R393, R394): answered by the queue engines in every state of the device. -/
def execNvmeKeepAlive (cntlid cid : Nat) (s : State) : Host.Outcome State Fault Refusal :=
  .next (match s.assoc cntlid with
    | some a => (s.setAssoc cntlid { a with aliveAt := s.clock }).nvmeDone cntlid 0 cid Nvme.OK 0 []
    | none => s)

/-- NVME_INVALID_OPCODE (R382, R383). -/
def execNvmeInvalidOpcode (cntlid qid cid opcode : Nat) (s : State) : Host.Outcome State Fault Refusal :=
  .next (s.targetCmd (.nvmeInvalidOpcode cntlid qid cid opcode) cntlid qid cid (qid == 0) fun s => s.invalidOpcode cntlid qid cid opcode)

/-- NVME_READ (R374 to R376). -/
def execNvmeRead (cntlid qid cid nsid slba blocks : Nat) (fua : Bool) (s : State) : Host.Outcome State Fault Refusal :=
  .next (if qid = 0 then s else s.targetCmd (.nvmeRead cntlid qid cid nsid slba blocks fua) cntlid qid cid false fun s =>
    s.doRead cntlid qid cid nsid slba blocks fua)

/-- NVME_WRITE (R378, R379). -/
def execNvmeWrite (cntlid qid cid nsid slba blocks : Nat) (fua : Bool) (data : List Byte) (s : State) :
    Host.Outcome State Fault Refusal :=
  .next (if qid = 0 then s else s.targetCmd (.nvmeWrite cntlid qid cid nsid slba blocks fua data) cntlid qid cid false fun s =>
    s.doWrite cntlid qid cid nsid slba blocks fua data)

/-- NVME_WRITE_ZEROES (R383). -/
def execNvmeWriteZeroes (cntlid qid cid nsid slba blocks : Nat) (fua : Bool) (s : State) : Host.Outcome State Fault Refusal :=
  .next (if qid = 0 then s else s.targetCmd (.nvmeWriteZeroes cntlid qid cid nsid slba blocks fua) cntlid qid cid false fun s =>
    s.doWriteZeroes cntlid qid cid nsid slba blocks fua)

/-- NVME_FLUSH (R379). -/
def execNvmeFlush (cntlid qid cid nsid : Nat) (s : State) : Host.Outcome State Fault Refusal :=
  .next (if qid = 0 then s else s.targetCmd (.nvmeFlush cntlid qid cid nsid) cntlid qid cid false fun s => s.doFlush cntlid qid cid nsid)

/-- NVME_COMMAND_COMPLETE (R390): a started command completes and releases those that waited on it. A started write of an
association that has ended completes without a completion (R394). Nothing completes while the DRAM is out of service (R54). -/
def execNvmeCommandComplete (cntlid qid cid : Nat) (dataError : Bool) (s : State) : Host.Outcome State Fault Refusal :=
  .next (
    if s.tick.dramChange ∨ s.pow.global = .faultHold then s
    else
      match s.tgt.cmds.find? fun (x : NvmeCmd) => x.is cntlid qid cid && x.stage == 2 with
      | some c =>
        let (status, data, s) := s.finishIo c dataError
        let s := { s with tgt := { s.tgt with cmds := s.tgt.cmds.filter fun (x : NvmeCmd) => x != c } }
        (s.nvmeDoneAt cntlid qid cid status 0 data c.slba c.nsid).releaseCmds
      | none =>
        match s.tgt.ghosts.find? fun (x : NvmeCmd) => x.is cntlid qid cid with
        | some c => s.finishGhost c
        | none => s)

/-- PACER_RELEASE (R381): the next command in arbitration order starts, when its data fits. -/
def execPacerRelease (port : Fin 2) (s : State) : Host.Outcome State Fault Refusal :=
  .next (
    let p := port.val
    let waiting := s.atPacer p
    if waiting = [] ∨ s.paceRate p = 0 ∨ s.tick.dramChange ∨ s.pow.global = .faultHold then s
    else
      let s := s.at (tget s.tgt.paceAt p 0)
      let (q, a) := s.arbitrate (tget s.tgt.arbs p {}) ((waiting.map fun (c : NvmeCmd) => qKey c.cntlid c.qid).eraseDups)
      let s := { s with tgt := { s.tgt with arbs := tset s.tgt.arbs p {} a } }
      match waiting.find? fun (c : NvmeCmd) => qKey c.cntlid c.qid == q with
      | some c => (s.paceCharge p (c.blocks * blockSize)).startCmd c
      | none => s)

/-- KATO_EXPIRY (R394): detected within 100 ms after KATO has passed, when exactly is not said. -/
def execKatoExpiry (cntlid : Nat) (s : State) : Host.Outcome State Fault Refusal :=
  .next (match s.assoc cntlid with
    | none => s
    | some a =>
      let (k, s) := s.draw
      let s := s.at (a.aliveAt + a.kato * 1000000 + (Config.openWord k).toNat % 100000001)
      (s.count Tgt.KATO_EXPIRED).endAssoc cntlid 1)

/-- NVMF_QUEUE_PAIR_LOSS (R395). -/
def execNvmfQueuePairLoss (cntlid qid : Nat) (s : State) : Host.Outcome State Fault Refusal := .next (s.queueLost cntlid qid)

/-- LOCAL_ACK_TIMEOUT (R314): sent again up to ROCE_RETRY times, then the queue pair is lost. An acknowledgement that has come since the
timeout before (`progress`) lets the count start afresh. An RNR NAK is retried without limit: that is what RNR retry 7 stands for (PRESUMED,
InfiniBand). -/
def execLocalAckTimeout (qp : Nat) (progress : Bool) (s : State) : Host.Outcome State Fault Refusal :=
  .next (match tfind s.qps qp with
    | none => s
    | some q =>
      let s := s.at (q.sentAt + 4096 * 2 ^ s.rd (Eth.ROCE_ACK_TIMEOUT q.port))
      let done := if progress then 0 else q.retries
      if done < s.rd (Eth.ROCE_RETRY q.port) then
        (s.setQp qp { q with retries := done + 1, sentAt := s.clock }).roceOut q.port 0
          (.packet q.port "RETRANSMIT" (s.control q.port 1) (leBytes 4 qp))
      else
        match q.use with
        | .nvme c qid => s.queueLost c qid
        | .buffer _ => ({ s with qps := tdel s.qps qp }).countQps)

/-! ## Commits of group 0x51 -/

/-- What a committed value does beyond being held: TARGET_ENABLE 0 ends every association (R398). -/
def targetApply (id v : Nat) (s : State) : State :=
  if id = Tgt.TARGET_ENABLE ∧ v = 0 then (tkeys s.tgt.assocs).foldl (fun (t : State) c => t.endAssoc c 3) s else s

end Sys2Proof.Machine
end

