-- ==== Sys2Proof/Machine/Dram.lean ====
section
/-! DEFINITION. The DDR5 memory controller (R419 to R440) and the entry to FAULT_HOLD (R29). -/

namespace Sys2Proof.Machine

/-- A DRAM NOTIFY (R440). -/
def State.dramNotify (s : State) (code ch sub value : Nat) : State :=
  s.notify 10 code (leBytes 1 ch ++ leBytes 1 sub ++ leBytes 1 value ++ zeroBytes 5)

/-- Channels in service, lowest first. -/
def State.dramChannels (s : State) : List Nat := setBits 8 (s.rd Dram.CHANNELS_IN_SERVICE)

/-- A channel is in service and serves requests: not frozen, not out of service for a change of speed, not being retrained. -/
def State.dramServes (s : State) (ch : Nat) : Bool :=
  !s.dram.frozen && !s.tick.dramChange && s.rd (Dram.CHANNEL_STATE ch) == 1

/-! ## Organisation and addresses (R419, R420, R425) -/

/-- Capacity of one channel in bytes: two subchannels of 32 ÷ width components of the density, per rank (Table 16-1). -/
def State.channelBytes (s : State) : Nat :=
  let b := s.pow.board
  2 * b.ranks * (32 / max 1 b.dataWidth) * (b.density * 2 ^ 30 / 8)

/-- The channel and the channel-local address of a physical address (Table 16-3). -/
def State.mapAddress (s : State) (a : Nat) : Nat × Nat :=
  let chs := s.dramChannels
  let c := max 1 chs.length
  let (k, l) : Nat × Nat := match s.rd Dram.MAP_ORDER with
    | 0 => ((a / 256) % c, (a / 256) / c * 256 + a % 256)
    | 1 => ((a / 4096) % c, (a / 4096) / c * 4096 + a % 4096)
    | _ => (a / max 1 s.channelBytes % c, a % max 1 s.channelBytes)
  (chs.getD k 0, l)

/-- A place on a channel (Table 16-6): subchannel, rank, bank group, bank, row and column. -/
structure DramLoc where
  ch : Nat
  sub : Nat
  rank : Nat
  group : Nat
  bank : Nat
  row : Nat
  col : Nat
  deriving DecidableEq, Repr

/-- Bursts of a row of a subchannel: 1,024 columns of 16 beats a burst, or 2,048 columns of ×4 components. PRESUMED (DDR5 page sizes). -/
def State.rowBursts (s : State) : Nat := if s.pow.board.dataWidth = 4 then 128 else 64

/-- Bank groups, and banks of a group. DEDUCED from the worked example of R430, whose row hits lie in BG0 to BG7, and PRESUMED
(DDR5: 32 banks, a bank index of 4). -/
def bankGroups : Nat := 8
def banksPerGroup : Nat := 4

/-- The place of a physical address (R425): from bit 6 of the channel-local address, subchannel, column, bank group, bank, rank and row;
with the bank-group XOR of INTERLEAVE_4K_XOR. -/
def State.placeOf (s : State) (a : Nat) : DramLoc :=
  let (ch, l) := s.mapAddress a
  let x := l / 128
  let y := x / s.rowBursts
  let z := y / bankGroups
  let r := z / banksPerGroup
  let row := r / max 1 s.pow.board.ranks
  let bg := y % bankGroups
  { ch := ch, sub := l / 64 % 2, rank := r % max 1 s.pow.board.ranks
    group := if s.rd Dram.MAP_ORDER = 1 then bg ^^^ row % bankGroups else bg
    bank := z % banksPerGroup, row := row, col := x % s.rowBursts * 16 }

/-- Rows of a bank. -/
def State.bankRows (s : State) : Nat :=
  s.channelBytes / (128 * s.rowBursts * bankGroups * banksPerGroup * max 1 s.pow.board.ranks)

/-- Speed, peak bandwidth, capacity and scrub pass time for the channels in service (R420, R423, Table 16-7). The rounding of the
pass time is not stated. -/
def State.dramFigures (s : State) : State :=
  let c := s.dramChannels.length
  let mt := dramMT s.profile.dramSpeed
  let peak := c * 8 * mt * 1000000
  let cap := c * s.channelBytes
  let share := peak * s.profile.shares.getD 4 0
  let pass := if Config.roundUp 1 then ceilDiv (cap * 1000) share else cap * 1000 / max 1 share
  s.wrAll [(Dram.DRAM_SPEED, mt), (Dram.PEAK_BANDWIDTH, peak), (Dram.CAPACITY, cap / 2 ^ 20), (Dram.SCRUB_PASS_TIME, pass)]

/-- The record of marks and failed channels (Table 19-5; the layout is internal, R485). -/
def State.dramRecord (s : State) : List Byte :=
  leBytes 1 (s.rd Dram.FAILED_CHANNELS) ++ (List.range 32).flatMap fun k => leBytes 1 (tget s.dram.marks k 0xFF)

/-- DEVICE_MARK of a channel: the mark of rank 0 of a subchannel, or else of rank 1. -/
def State.markParam (s : State) (ch : Nat) : State :=
  let m (sub : Nat) : Nat :=
    let a := tget s.dram.marks (4 * ch + 2 * sub) 0xFF
    if a = 0xFF then tget s.dram.marks (4 * ch + 2 * sub + 1) 0xFF else a
  s.wr (Dram.DEVICE_MARK ch) (256 * m 1 + m 0)

/-- Takes that record back. -/
def State.dramRestore (s : State) (b : List Byte) : State :=
  let marks := (List.range 32).foldl (fun t k => tset t k 0xFF (leAt b (1 + k) 1)) ([] : Table Nat)
  let s := { s with dram := { s.dram with marks := marks } }.wr Dram.FAILED_CHANNELS (leAt b 0 1)
  (List.range 8).foldl State.markParam s

/-! ## Drift alarms and retraining (R433, R434) -/

/-- A drift alarm: the channel moves ahead of the turn. -/
def State.driftAlarm (s : State) (ch : Nat) : State :=
  ({ s with dram := { s.dram with alarms := if s.dram.alarms.contains ch then s.dram.alarms else s.dram.alarms ++ [ch] } }).maintAsk 1 ch

/-- The latest training of a channel was at the present temperature. -/
def State.trainedNow (s : State) (ch : Nat) : State :=
  { s with dram := { s.dram with trained := tset s.dram.trained ch 0 (tget s.dram.temps ch 0) } }

/-! ## Failed channels (R435) -/

/-- Records a failed channel. -/
def State.recordFailed (s : State) (ch : Nat) : State :=
  let s := s.wrAll [(Dram.FAILED_CHANNELS, setFlag (s.rd Dram.FAILED_CHANNELS) ch),
    (Dram.CHANNELS_IN_SERVICE, clearFlag (s.rd Dram.CHANNELS_IN_SERVICE) ch), (Dram.CHANNEL_STATE ch, 3)]
  s.ledgerPut 6 7 s.dramRecord

/-- A channel fails: recorded, a NOTIFY where Negor runs, and a restart through BOOT with cause 4. In FAULT_HOLD it is only recorded
(R439). -/
def State.channelFailed (s : State) (ch cause : Nat) : State :=
  let s := s.recordFailed ch
  let s := if s.negorAnswers then s.dramNotify 3 ch 0xFF cause else s
  if s.pow.global = .faultHold then s else s.flushLedger.enterBoot 4

/-- A working eye (R432). -/
def eyeOk (e : Nat × Nat) : Bool := decide (16 ≤ e.1 ∧ 16 ≤ e.2)

def eyeCode (e : Nat × Nat) : Nat := 256 * (e.1 % 256) + e.2 % 256

/-- The end of WARMUP (Table 01-5): DRAM trained, and the estimate at or above COLD_LIMIT + COLD_HYSTERESIS. Negor runs, and the
monitors are calibrated. -/
def State.warmupEnds (s : State) : State :=
  let ok := decide (s.rd Dram.DRAM_STATE = 1 ∨ s.rd Dram.DRAM_STATE = 2) &&
    decide (s.rdS Th.COLD_LIMIT + s.rdS Th.COLD_HYSTERESIS ≤ s.rdS Th.JUNCTION)
  if s.pow.global = .warmup ∧ ok then s.setGlobal .ready else s

/-- What training leaves, from the eyes of the channels (R432, R435). -/
def State.trainingDone (s : State) (eyes : List (Nat × Nat)) : State :=
  let failed := setBits 8 (s.rd Dram.FAILED_CHANNELS)
  let tried := (List.range 8).filter fun c => !failed.contains c
  let s := tried.foldl (fun (t : State) c => (t.wr (Dram.EYE_MARGIN c) (eyeCode (eyes.getD c (0, 0)))).trainedNow c) s
  let bad := tried.filter fun c => !eyeOk (eyes.getD c (0, 0))
  let s := bad.foldl State.recordFailed s
  if 2 ≤ failed.length + bad.length then s.wr Dram.DRAM_STATE 4
  else
    match bad with
    | c :: _ => (if s.negorAnswers then s.dramNotify 3 c 0xFF 0 else s).flushLedger.enterBoot 4
    | [] =>
      let s := failed.foldl (fun (t : State) c => t.wrAll [(Dram.CHANNELS_IN_SERVICE, clearFlag (t.rd Dram.CHANNELS_IN_SERVICE) c), (Dram.CHANNEL_STATE c, 3)]) s
      let s := tried.foldl (fun (t : State) c => t.wr (Dram.CHANNEL_STATE c) 1) s
      ((s.wr Dram.DRAM_STATE (if failed = [] then 1 else 2)).dramFigures).warmupEnds

/-- DRAM_TRAINING_DONE (R432): in WARMUP, once heating is over (R463). -/
def execDramTrainingDone (eyes : List (Nat × Nat)) (s : State) : Host.Outcome State Fault Refusal :=
  .next (if s.pow.global = .warmup ∧ s.rd Dram.DRAM_STATE = 0 ∧ !s.therm.heating ∧ s.therm.calibrated then s.trainingDone eyes else s)

/-- Clears the refresh debts of a channel. -/
def State.clearDebts (s : State) (ch : Nat) : State :=
  { s with dram := { s.dram with debts := s.dram.debts.filter fun (e : Nat × Nat) => e.1 / 1024 != ch } }

/-- DRAM_RETRAIN_DONE (R433, R434): a setting is kept, or none is found; a second time in a row fails the channel. -/
def execDramRetrainDone (ch : Fin 8) (eye : Option (Nat × Nat)) (s : State) : Host.Outcome State Fault Refusal :=
  .next (
    if s.rd (Dram.CHANNEL_STATE ch.val) ≠ 2 then s
    else
      let c := ch.val
      let s := ((s.wr (Dram.CHANNEL_STATE c) 1).count (Dram.RETRAINS c)).clearDebts c
      let s := { s with dram := { s.dram with alarms := s.dram.alarms.filter fun (x : Nat) => x != c } }
      match eye with
      | some e =>
        let s := { s with dram := { s.dram with missed := s.dram.missed.filter fun (x : Nat) => x != c } }
        (s.wr (Dram.EYE_MARGIN c) (eyeCode e)).trainedNow c
      | none =>
        let s := s.count (Dram.RETRAIN_FAIL c)
        if s.dram.missed.contains c then s.channelFailed c 1
        else ({ s with dram := { s.dram with missed := s.dram.missed ++ [c] } }).driftAlarm c)

/-- DRAM_CHANNEL_FAIL (R435). -/
def execDramChannelFail (ch : Fin 8) (cause : Fin 3) (s : State) : Host.Outcome State Fault Refusal :=
  .next (if s.pow.global ≠ .off ∧ s.pow.global ≠ .boot ∧ s.pow.global ≠ .thermalOff ∧ s.dramChannels.contains ch.val then
      s.channelFailed ch.val cause.val else s)

/-! ## Corrected codewords and marks (R423, R424) -/

/-- The key of a rank: 4 × channel + 2 × subchannel + rank. -/
def rankKey (ch sub rank : Nat) : Nat := 4 * ch + 2 * sub + rank

/-- Positions of the marked component of a rank, as erasures. -/
def State.erasures (s : State) (rk : Nat) : List Nat :=
  match tfind s.dram.marks rk with
  | some m => (List.range codeLength).filter fun i => nibbleComponent s.pow.board.dataWidth s.pow.board.checkWidth (posNibble i) == m
  | none => []

/-- 24 h in ns. -/
def dayNs : Nat := 86400000000000

/-- One corrected burst of a component, and its mark once it has MARK_THRESHOLD of them in 24 h. -/
def State.correctedAt (s : State) (ch sub rank comp : Nat) : State :=
  let rk := rankKey ch sub rank
  let key := 256 * rk + comp
  let times := s.clock :: (tget s.dram.corrected key []).filter fun (x : Nat) => decide (s.clock < x + dayNs)
  let s := { s with dram := { s.dram with corrected := tset s.dram.corrected key [] times } }
  if 0 < s.rd Dram.MARK_THRESHOLD ∧ s.rd Dram.MARK_THRESHOLD ≤ times.length ∧ (tfind s.dram.marks rk).isNone then
    let s := ({ s with dram := { s.dram with marks := tset s.dram.marks rk 0xFF comp } }).markParam ch
    (s.ledgerPut 6 7 s.dramRecord).dramNotify 2 ch sub comp
  else s

/-- DRAM_CORRECTED_READ (R423, R424): corrected data goes to the requester, a write-back of the codeword is queued, and the
components in error are counted towards a mark. -/
def execDramCorrectedRead (addr : Nat) (_requester : Fin 9) (symbols : List Byte) (s : State) : Host.Outcome State Fault Refusal :=
  .next (
    let l := s.placeOf addr
    if s.dramServes l.ch = false then s
    else
      match rsDecode (symbolsOf symbols) (s.erasures (rankKey l.ch l.sub l.rank)) with
      | none => s
      | some [] => s
      | some errs =>
        let s := (s.count (Dram.CE_COUNT l.ch)).fire 202
        let back : DramReq := { requester := 7, write := true, addr := addr, age := 0 }
        let k := 2 * l.ch + l.sub
        let s := { s with dram := { s.dram with writeBacks := tset s.dram.writeBacks k [] (tget s.dram.writeBacks k [] ++ [back]) } }
        let comps := (errs.map fun (e : Nat × Nat) => nibbleComponent s.pow.board.dataWidth s.pow.board.checkWidth (posNibble e.1)).eraseDups
        comps.foldl (fun (t : State) c => t.correctedAt l.ch l.sub l.rank c) s)

/-! ## Uncorrectable codewords and FAULT_HOLD (R29, R436, R437) -/

/-- FAULT_RECORD (Table 16-6). -/
def State.faultRecord (s : State) (addr requester cause : Nat) (w : List Nat) : List Byte :=
  let l := s.placeOf addr
  leBytes 1 1 ++ zeroBytes 13 ++ leBytes 4 s.tickSeq ++ leBytes 1 0 ++ leBytes 1 cause ++ leBytes 1 requester ++ leBytes 1 l.ch ++ leBytes 1 l.sub ++
    leBytes 1 l.rank ++ leBytes 1 l.group ++ leBytes 1 l.bank ++ leBytes 2 l.col ++ leBytes 4 l.row ++
    leBytes 5 (addr / 64 * 64) ++ leBytes 1 0 ++ leBytes 2 s.epoch ++ leBytes 8 s.deviceTime ++ (syndromes w).flatMap (leBytes 1)

/-- What stops on entry to FAULT_HOLD: an open frame is abandoned without a ticket (R157), every job is abandoned without a mark
(R211), the ST 2110 senders send nothing further (R29, R338), the recorder writes nothing further (R366), and the storage target moves no
data (R398). -/
def State.stopBlocks (s : State) : State :=
  let s := (List.range 16).foldl State.ingestAbandon s
  let s := (List.range 80).foldl State.senderStop s
  let s := { s with
    ctxs := s.ctxs.map fun (e : Nat × CtxSt) => (e.1, { e.2 with job := none })
    scene := {}
    media := { s.media with run := none, formatting := none, rebuilding := none } }
  s.targetFault

/-- DRAM_UNCORRECTABLE (R436, R437): the controller freezes, a retraining stops, and the device enters FAULT_HOLD; a later detection
only counts. -/
def execDramUncorrectable (addr : Nat) (requester : Fin 9) (cause : Fin 3) (symbols : List Byte) (s : State) :
    Host.Outcome State Fault Refusal :=
  .next (
    let l := s.placeOf addr
    let w := symbolsOf symbols
    let live := decide (s.rd Dram.DRAM_STATE ≠ 0 ∧ s.rd Dram.DRAM_STATE ≠ 4) && !s.tick.dramChange
    if live = false ∨ (rsDecode w (s.erasures (rankKey l.ch l.sub l.rank))).isSome then s
    else
      let s := s.count (Dram.UE_COUNT l.ch)
      if s.dram.frozen then s
      else
        let record := s.faultRecord addr requester.val (cause.val + 1) w
        let s := ({ s with dram := { s.dram with frozen := true } }.wr Dram.DRAM_STATE 3).wrBlob Dram.FAULT_RECORD record
        let s := (List.range 8).foldl (fun (t : State) c => if t.rd (Dram.CHANNEL_STATE c) = 2 then t.wr (Dram.CHANNEL_STATE c) 1 else t) s
        let s := (s.setGlobal .faultHold).stopBlocks
        (s.ledgerPut 10 13 record).dramNotify 1 l.ch l.sub (cause.val + 1))

/-- The result of a diagnostic read (R438). -/
def diagBytes (w : List Nat) (erased : List Nat) : List Byte :=
  let head := w.flatMap (leBytes 1)
  match rsDecode w erased with
  | none => head ++ leBytes 1 2 ++ zeroBytes 15
  | some errs =>
    let pos := errs.map fun (e : Nat × Nat) => e.1
    head ++ leBytes 1 (if errs = [] then 0 else 1) ++ leBytes 1 errs.length ++ ((pos.take 8).flatMap (leBytes 1) ++ zeroBytes 8).take 8 ++ zeroBytes 6

/-- A diagnostic read: what the burst holds is not modelled, so its 16 beats are free. -/
def State.diagRead (s : State) (a : Nat) : State :=
  let (k, s) := s.draw
  let l := s.placeOf a
  let beats := (List.range 16).map fun b => beNat ((List.range 5).map fun i => Config.pageByte k (5 * b + i))
  s.wrBlob Dram.DIAG_DATA (diagBytes (burstSymbols beats) (s.erasures (rankKey l.ch l.sub l.rank)))

/-! ## Refresh (R428, R429) -/

/-- The key of a bank. -/
def bankKey (l : DramLoc) : Nat := 1024 * l.ch + 512 * l.sub + 256 * l.rank + 4 * l.group + l.bank

/-- A bank is precharged; a neighbour refresh that waits for its row to close follows (R430), but not in FAULT_HOLD (R436). -/
def State.closeBank (s : State) (k : Nat) : State :=
  let (ch, sub) := (k / 1024, k / 512 % 2)
  let s := ({ s with dram := { s.dram with rows := tdel s.dram.rows k } }).emit (.dram ch sub "PRE" k)
  match tfind s.dram.neighbours k with
  | none => s
  | some row =>
    let near := (List.range (s.rd Dram.PNR_DISTANCE)).flatMap fun i =>
      (if i < row then [row - i - 1] else []) ++ (if row + i + 1 < s.bankRows then [row + i + 1] else [])
    let s := { s with dram := { s.dram with neighbours := tdel s.dram.neighbours k } }
    if s.dram.frozen then s
    else (near.foldl (fun (t : State) r => (t.emit (.dram ch sub "ACT" r)).emit (.dram ch sub "PRE" k)) s).countBy (Dram.PNR_ACTIVATES ch) near.length

/-- Banks that a refresh of an index, or of a rank with ALL_BANK, covers. -/
def refreshBanks (ch sub rank : Nat) (index : Option Nat) : Nat → Bool := fun k =>
  k / 256 == 4 * ch + 2 * sub + rank && index.all fun i => k % 4 == i

/-- Open rows of some banks close, and their rolling activate counts fall by RAAIMT `n` times (PRESUMED, DDR5). -/
def State.closeBanks (s : State) (mine : Nat → Bool) (n : Nat) : State :=
  let s := (s.dram.rows.filter fun e => mine e.1).foldl (fun (t : State) e => t.closeBank e.1) s
  { s with dram := { s.dram with
    acts := (s.dram.acts.map fun (e : Nat × Nat) => if mine e.1 then (e.1, e.2 - n * Config.raaimt.toNat) else e).filter fun (e : Nat × Nat) => e.2 != 0 } }

/-- Issues refreshes of a bank index, or of a rank. -/
def State.refresh (s : State) (ch sub rank : Nat) (index : Option Nat) (n : Nat) : State :=
  let s := s.closeBanks (refreshBanks ch sub rank index) n
  (List.range n).foldl (fun (t : State) _ => match index with
    | none => t.emit (.dram ch sub "REFab" rank)
    | some i => t.emit (.dram ch sub "REFsb" (4 * rank + i))) s

/-- The bank index of a refresh: none with ALL_BANK; and the key of its debt. -/
def State.refreshIndex (s : State) (i : Nat) : Option Nat := if s.rd Dram.REFRESH_MODE = 0 then none else some i
def debtKey (ch sub rank : Nat) (index : Option Nat) : Nat := 1024 * ch + 512 * sub + 256 * rank + index.getD 255

def State.setDebt (s : State) (key d : Nat) : State := { s with dram := { s.dram with debts := tset s.dram.debts key 0 d } }

/-- DRAM_REFRESH_DUE (R428, R429): issued with every debt repaid, or postponed while its banks hold pending real-time row hits,
or, when the debt reaches POSTPONE_LIMIT, the burst is split for one refresh. Refresh goes on in FAULT_HOLD (R436). -/
def execDramRefreshDue (ch : Fin 8) (sub : Fin 2) (rank : Fin 2) (index : Fin 4) (hits : Bool) (s : State) :
    Host.Outcome State Fault Refusal :=
  .next (
    let (c, b, r, i) := (ch.val, sub.val, rank.val, index.val)
    if s.rd (Dram.CHANNEL_STATE c) ≠ 1 ∨ s.tick.dramChange ∨ s.pow.board.ranks ≤ r then s
    else
      let x := s.refreshIndex i
      let key := debtKey c b r x
      let debt := tget s.dram.debts key 0
      if !hits then (s.setDebt key 0).refresh c b r x (debt + 1)
      else if debt + 1 < s.rd Dram.POSTPONE_LIMIT then (s.setDebt key (debt + 1)).count (Dram.REFRESH_POSTPONED c)
      else (s.refresh c b r x 1).count (Dram.BURST_SPLITS c))

/-- DRAM_MR4_POLL (R428, R433): the refresh rate; a change of temperature of DRIFT_TEMP since the latest training is a drift
alarm. -/
def execDramMr4Poll (ch : Fin 8) (doubled : Bool) (temp : Int) (s : State) : Host.Outcome State Fault Refusal :=
  .next (
    let c := ch.val
    if s.dramServes c = false then s
    else
      let was := s.rd (Dram.REFRESH_RATE c)
      let s := s.wr (Dram.REFRESH_RATE c) (if doubled then 1 else 0)
      let s := if doubled ∧ was = 0 then s.dramNotify 4 c 0xFF 1 else s
      let s := { s with dram := { s.dram with temps := tset s.dram.temps c 0 temp } }
      if (s.rd Dram.DRIFT_TEMP : Int) ≤ (temp - tget s.dram.trained c 0).natAbs then s.driftAlarm c else s)

/-! ## Write CRC (R431) -/

/-- Writes of a channel whose ALERT_N window is still open. -/
def State.heldWrites (s : State) (ch : Nat) : List HeldWrite :=
  (tget s.dram.held ch []).filter fun (w : HeldWrite) => decide (s.clock ≤ w.at' + Config.alertWindow.toNat)

/-- DRAM_ALERT_N (R431): every held write of both subchannels is issued again in its order, with a drift alarm; a write that
fails a fourth time in a row fails the channel. -/
def execDramAlertN (ch : Fin 8) (s : State) : Host.Outcome State Fault Refusal :=
  .next (
    let c := ch.val
    if s.dramServes c = false ∨ s.rd Dram.WRITE_CRC_ENABLE = 0 then s
    else
      let again : List HeldWrite := (s.heldWrites c).map fun (w : HeldWrite) => { w with at' := s.clock, fails := w.fails + 1 }
      let s := { s with dram := { s.dram with held := tset s.dram.held c [] again } }
      let s := (s.count (Dram.WRITE_CRC_RETRIES c)).driftAlarm c
      let s := again.foldl (fun (t : State) (w : HeldWrite) => t.emit (.dram c w.sub "WR" w.addr)) s
      if again.any fun (w : HeldWrite) => decide (4 ≤ w.fails) then s.channelFailed c 2 else s)

/-! ## Command selection (R426, R430) -/

/-- The class of a requester: 0 PIXEL, 1 MEDIA, 2 CONTROL, 3 SCRUB; none for a real-time port (Table 16-4). -/
def requestClass (r : Nat) : Option Nat := if r < 4 then none else if r < 8 then some (r - 4) else none

/-- The token level of a class on a channel now: it fills at the class share × the channel peak, up to what fills in 10 µs. -/
def State.tokenLevel (s : State) (ch cls : Nat) : Nat :=
  let rate := s.profile.shares.getD (cls + 1) 0 * 8 * dramMT s.profile.dramSpeed
  let (l, at') := tget s.dram.tokens (8 * ch + cls) (0, 0)
  min (rate * 10000) (l + rate * (s.clock - at'))

/-- A burst in token units. -/
def burstTokens : Nat := 64000000

/-- A class holds the tokens of a burst. -/
def State.hasTokens (s : State) (ch cls : Nat) : Bool := decide (burstTokens ≤ s.tokenLevel ch cls)

/-- A request hits an open row. -/
def State.rowHit (s : State) (r : DramReq) : Bool := tfind s.dram.rows (bankKey (s.placeOf r.addr)) == some (s.placeOf r.addr).row

/-- The oldest of a list, the earlier one on equal ages. -/
def oldest (l : List DramReq) : Option DramReq :=
  l.foldl (fun best r => match best with
    | none => some r
    | some b => if b.age < r.age then some r else best) none

/-- A row hit first, then the oldest. -/
def State.hitFirst (s : State) (l : List DramReq) : Option DramReq :=
  match oldest (l.filter s.rowHit) with
  | some r => some r
  | none => oldest l

/-- The next request of a subchannel (R426), and whether it was promoted by its age. -/
def State.chooseRequest (s : State) (ch sub : Nat) (reqs : List DramReq) : Option (DramReq × Bool) :=
  let of (cls : Nat) : List DramReq := reqs.filter fun (r : DramReq) => requestClass r.requester == some cls
  let realTime := reqs.filter fun (r : DramReq) => decide (r.requester < 4)
  let aged := reqs.filter fun (r : DramReq) => match requestClass r.requester with
    | some c => decide (s.rd (Dram.AGE_LIMIT c) < r.age) && (c != 3 || s.hasTokens ch 3)
    | none => false
  let last := tget s.dram.turn (2 * ch + sub) 2
  let turn : List Nat := [(last + 1) % 3, (last + 2) % 3, last % 3]
  match s.hitFirst realTime with
  | some r => some (r, false)
  | none =>
    match oldest aged with
    | some r => some (r, true)
    | none =>
      match (turn ++ [3]).find? fun (c : Nat) => of c != [] && s.hasTokens ch c with
      | some c => (s.hitFirst (of c)).map fun r => (r, false)
      | none =>
        match [0, 1, 2].find? fun (c : Nat) => of c != [] with
        | some c => (s.hitFirst (of c)).map fun r => (r, false)
        | none => none

/-- The banks of the pending real-time row hits (R429). -/
def State.hitBanks (s : State) (reqs : List DramReq) : List Nat :=
  (reqs.filter fun (r : DramReq) => decide (r.requester < 4) && s.rowHit r).map fun r => bankKey (s.placeOf r.addr)

/-- Debts of a subchannel that no pending real-time row hit holds back are repaid in full (R429): the burst has ended. -/
def State.repayDebts (s : State) (ch sub : Nat) (hits : List Nat) : State :=
  (s.dram.debts.filter fun e => e.1 / 512 == 2 * ch + sub).foldl (fun (t : State) e =>
    let rank := e.1 / 256 % 2
    let index : Option Nat := if e.1 % 256 = 255 then none else some (e.1 % 256)
    if hits.any (refreshBanks ch sub rank index) then t else (t.setDebt e.1 0).refresh ch sub rank index e.2) s

/-- The refresh management of a bank before it is activated (R430): an RFM of its bank index falls due at RAAIMT. As a refresh it is
postponed while its banks hold pending real-time row hits (R429), until the count is at RAAMMT and the burst is split for it. -/
def State.manageBank (s : State) (l : DramLoc) (hits : List Nat) : State :=
  let n := tget s.dram.acts (bankKey l) 0
  let mine := refreshBanks l.ch l.sub l.rank (some l.bank)
  if s.rd Dram.RFM_ENABLE = 0 ∨ Config.raaimt.toNat = 0 ∨ n < Config.raaimt.toNat then s
  else if hits.any mine ∧ n < Config.raammt.toNat then s.count (Dram.REFRESH_POSTPONED l.ch)
  else
    let s := ((s.closeBanks mine 1).emit (.dram l.ch l.sub "RFMsb" (bankKey l))).count (Dram.RFM_COMMANDS l.ch)
    if hits.any mine then s.count (Dram.BURST_SPLITS l.ch) else s

/-- A row is opened: with it a neighbour refresh is drawn with probability 1 ÷ PNR_PERIOD (R430). -/
def State.activateRow (s : State) (l : DramLoc) : State :=
  let k := bankKey l
  let (d, s) := s.draw
  let period := s.rd Dram.PNR_PERIOD
  let near := decide (0 < period ∧ (Config.openWord d).toNat % period = 0)
  ({ s with dram := { s.dram with
      rows := tins s.dram.rows k l.row
      acts := tset s.dram.acts k 0 (tget s.dram.acts k 0 + 1)
      neighbours := if near then tins s.dram.neighbours k l.row else s.dram.neighbours } }).emit (.dram l.ch l.sub "ACT" l.row)

/-- What every burst does: its command, its bytes, the longest wait of a real-time port, a write held for its ALERT_N window. -/
def State.burstData (s : State) (ch sub : Nat) (r : DramReq) : State :=
  let s := s.emit (.dram ch sub (if r.write then "WR" else "RD") r.addr)
  let s := s.addBytes (if r.write then Dram.BYTES_WRITTEN ch else Dram.BYTES_READ ch) 64
  let s := if r.requester < 4 then s.raise (Dram.RT_LATENCY_MAX r.requester) r.age else s
  if r.write ∧ s.rd Dram.WRITE_CRC_ENABLE = 1 then
    { s with dram := { s.dram with held := tset s.dram.held ch [] (s.heldWrites ch ++ [{ sub := sub, addr := r.addr, at' := s.clock }]) } }
  else s

/-- One more burst that patrol scrub has read; a pass ends with the last. -/
def State.scrubOne (s : State) : State :=
  let total := s.dramChannels.length * s.channelBytes / 64
  if total ≤ s.dram.scrubbed + 1 then ({ s with dram := { s.dram with scrubbed := 0 } }).count Dram.SCRUB_PASSES
  else { s with dram := { s.dram with scrubbed := s.dram.scrubbed + 1 } }

/-- What a burst of a class takes: tokens, its turn, a write-back out of its queue. -/
def State.burstClass (s : State) (ch sub c : Nat) (r : DramReq) : State :=
  let level := s.tokenLevel ch c
  { s with dram := { s.dram with
    tokens := tset s.dram.tokens (8 * ch + c) (0, 0) (level - burstTokens, s.clock)
    turn := if c < 3 then tins s.dram.turn (2 * ch + sub) c else s.dram.turn
    writeBacks := if c = 3 ∧ r.write then tset s.dram.writeBacks (2 * ch + sub) [] ((tget s.dram.writeBacks (2 * ch + sub) []).erase r)
      else s.dram.writeBacks } }

/-- A burst moves: bytes, tokens, the longest wait of a real-time port, a held write, a promotion, scrub progress. -/
def State.burst (s : State) (ch sub : Nat) (r : DramReq) (promoted : Bool) : State :=
  let s := s.burstData ch sub r
  match requestClass r.requester with
  | none => s
  | some c =>
    let s := (if promoted then s.count (Dram.PROMOTIONS c) else s).burstClass ch sub c r
    if c = 3 ∧ !r.write then s.scrubOne else s

/-- DRAM_COMMAND_SELECT (R426, R429, R430): a burst on a row hit, else a precharge or an activate towards it. Patrol scrub reads only
with SCRUB_ENABLE 1; queued write-backs take part; requests whose address lies in another subchannel are none of this one's. -/
def execDramCommandSelect (ch : Fin 8) (sub : Fin 2) (reqs : List DramReq) (s : State) : Host.Outcome State Fault Refusal :=
  .next (
    let c := ch.val
    let b := sub.val
    if s.dramServes c = false then s
    else
      let all := (reqs.filter fun (r : DramReq) => (s.placeOf r.addr).ch == c && (s.placeOf r.addr).sub == b &&
        (r.requester != 7 || (!r.write && s.rd Dram.SCRUB_ENABLE == 1))) ++
        tget s.dram.writeBacks (2 * c + b) []
      let hits := s.hitBanks all
      let s := s.repayDebts c b hits
      match s.chooseRequest c b all with
      | none => s
      | some (r, promoted) =>
        let l := s.placeOf r.addr
        match tfind s.dram.rows (bankKey l) with
        | some row => if row = l.row then s.burst c b r promoted else s.closeBank (bankKey l)
        | none => (s.manageBank l hits).activateRow l)

/-! ## Commits of group 0x80 -/

/-- The checks of a committed value (R438, Table 16-7). -/
def dramCheck (t : Txn) (id v : Nat) : Nat :=
  if id = Dram.DIAG_ADDRESS then
    firstBad [failIf (v % 64 != 0 || decide (t.old.dramChannels.length * t.old.channelBytes ≤ v)) Status.RANGE, failIf (t.old.pow.global != .faultHold) Status.CONFLICT]
  else if id = Tick.PROFILE ∨ id = Tick.CUSTOM_DRAM_SPEED then
    failIf (t.cand.profile.dramSpeed == 3 && t.old.pow.board.ranks == 2) Status.CONFLICT
  else Status.OK

def dramApply (id v : Nat) (s : State) : State := if id = Dram.DIAG_ADDRESS then s.diagRead v else s

end Sys2Proof.Machine
end

