-- ==== Sys2Proof/Machine/Event.lean ====
section
/-! DEFINITION. The Event Fabric: sources, wires, task inputs, timers, pins, the wake path and the loop guard (spec/17). -/

namespace Sys2Proof.Machine

/-- The fabric runs (R457). -/
def State.fabricRuns (s : State) : Bool :=
  !(s.pow.global == .off || s.pow.global == .boot || s.pow.global == .thermalOff)

/-! ## The wiring (R442, R445) -/

/-- The task inputs that exist (Table 17-2). -/
def taskInputs : List Nat := List.range 134 ++ [184, 185]

/-- The sources of the wire positions of a task input, W0 first; none at an unused position (Table 17-3). -/
def wireSources (ti : Nat) : List (Option Nat) :=
  if ti < 16 then
    [some (128 + ti), some (224 + ti), some 120, some 121, some 122, some 123, some 124, some 125]
  else if ti < 80 then
    let c := ti - 16
    [some (208 + c % 16), some (120 + c % 6), some (16 + c % 16), some (224 + c % 16), some (32 + c % 16), some (192 + c % 4), some 0,
      some (128 + (c + 32) % 64)]
  else if ti < 96 then
    let t := ti - 80
    [some 0, some (32 + t), some (16 + t), some (120 + t % 6), some (128 + t), some (208 + t), some (224 + (t + 1) % 16),
      some (224 + t)]
  else if ti < 112 then
    let t := ti - 96
    [some (208 + t), some (120 + t % 6), some (128 + t), some (32 + t), none, none, none, none]
  else if ti < 118 then
    let e := ti - 112
    [some 0, some (16 + e), some (224 + e), some (128 + e), some (208 + e), some (32 + e), some (96 + e % 4), some (104 + e)]
  else if ti < 134 then
    let m := ti - 118
    [some (208 + m), some (32 + m), some (48 + m), some (64 + m), some (80 + m), some (128 + m), some (224 + m), some (200 + m % 6)]
  else if ti = 184 ∨ ti = 185 then
    [some 120, some 121, some 122, some 123, some 124, some 125, some 7, some 128]
  else []

/-- The positions of WIRE_ENABLE that are wired; the others read 0 (R442). -/
def wireMask (ti : Nat) : Nat :=
  maskOf ((List.range 8).filter fun w => ((wireSources ti).getD w none).isSome)

/-- The enabled wire positions of a task input that one of the sources feeds. -/
def State.wireHits (s : State) (ti : Nat) (srcs : List Nat) : List Nat :=
  (List.range 8).filter fun w =>
    bit (s.rd (Ev.WIRE_ENABLE ti)) w &&
      (match (wireSources ti).getD w none with
       | some src => srcs.contains src
       | none => false)

/-- A source has at least one enabled wire. -/
def State.sourceWired (s : State) (src : Nat) : Bool := taskInputs.any fun ti => !(s.wireHits ti [src]).isEmpty

/-- Sets a flag of a source or of a task input: the flag word `r` gives its ID (R455). -/
def State.eventFlag (s : State) (r : Nat → Nat) (k : Nat) : State := s.upd (r (k / 32)) fun v => setFlag v (k % 32)

/-! ## Task inputs (R444, R448 to R450) -/

/-- The active level of an EVIO pin. -/
def State.evioActive (s : State) (e : Nat) : Nat := if s.rd (Ev.EVIO_POLARITY e) = 1 then 0 else 1

/-- The time a TRACE_MARK input stays busy: 4 PERI cycles of 10 ns. -/
def markBusyNs : Nat := 40

/-- Whether a task input is busy at a device clock (Table 17-2). -/
def State.inputBusy (s : State) (ti now : Nat) : Bool :=
  if ti < 16 then (s.trig ti).endAt.isSome
  else if ti < 80 then s.fab.ringTx.contains (ti - 16)
  else if ti < 96 then s.rd (Ev.TIMER_STATE (ti - 80)) == 1
  else if ti < 112 then false
  else if ti < 118 then (tfind s.fab.evios (ti - 112)).isSome || s.rd (Ev.EVIO_DIR (ti - 112)) == 0
  else if ti < 134 then decide (now < tget s.fab.markBusy (ti - 118) 0)
  else if ti = 184 then s.fab.wakeNotify.isSome
  else s.fab.wakeProfile.isSome

/-- What a task input does when a trigger acts on it at a device clock (Table 17-2, R450, R451, R452); `pos` is the wire
position that carried the trigger. -/
def State.inputAct (s : State) (ti now pos : Nat) : State :=
  if ti < 16 then s.trigPulse ti
  else if ti < 80 then { s with fab := { s.fab with ringTx := s.fab.ringTx ++ [ti - 16] } }
  else if ti < 96 then
    let t := ti - 80
    let s := { s with fab := { s.fab with timers := tins s.fab.timers t (now + s.rd (Ev.TIMER_DELAY t)) } }
    s.wr (Ev.TIMER_STATE t) 1
  else if ti < 112 then
    let t := ti - 96
    let s := { s with fab := { s.fab with timers := tdel s.fab.timers t } }
    s.wr (Ev.TIMER_STATE t) 0
  else if ti < 118 then
    let e := ti - 112
    let s := { s with fab := { s.fab with evios := tins s.fab.evios e (now + evenNs (s.rd (Ev.EVIO_WIDTH e))) } }
    s.pin ("EVIO" ++ toString e) (s.evioActive e)
  else if ti < 134 then
    let m := ti - 118
    let s := { s with fab := { s.fab with markBusy := tins s.fab.markBusy m (now + markBusyNs) } }
    s.trace 6 m (leBytes 8 (deviceTimeAt s.time now))
  else if ti = 184 then { s with fab := { s.fab with wakeNotify := some pos } }
  else { s with fab := { s.fab with wakeProfile := some pos } }

/-- One trigger of one task input by the sources that reach it in one cycle (R448, R449). -/
def State.inputTrigger (s : State) (ti now : Nat) (srcs : List Nat) : State :=
  let hits := s.wireHits ti srcs
  match hits with
  | [] => s
  | pos :: rest =>
    let s := if rest.isEmpty then s else (s.eventFlag Ev.TI_COINCIDENT_FLAG ti).count (Ev.TI_COINCIDENT ti)
    if s.inputBusy ti now then (s.eventFlag Ev.TI_OVERRUN ti).count (Ev.TI_OVERRUNS ti)
    else ((s.eventFlag Ev.TI_TRIGGERED ti).count (Ev.TI_TRIGGERS ti)).inputAct ti now pos

/-! ## Sources (R447, R454) -/

/-- One firing of one source: whether it is delivered, and the state after it has been counted and guarded. -/
def State.sourceFires (s : State) (src : Nat) : Bool × State :=
  if s.rd (Ev.SRC_ENABLE src) = 0 then (false, s)
  else
    let limit := s.rd (Ev.LOOP_LIMIT src)
    let guarded := limit != 0 && s.sourceWired src
    let n := tget s.fab.counts src 0 + 1
    if guarded && decide (limit < n) then
      let s := ((s.wr (Ev.SRC_ENABLE src) 0).eventFlag Ev.SRC_LOOP_SUSPECT src).count (Ev.SRC_LOOP_TRIPS src)
      (false, s.linkNotify 0x0601 src 0xFF 0)
    else
      let s := if guarded then { s with fab := { s.fab with counts := tset s.fab.counts src 0 n } } else s
      (true, (s.count (Ev.SRC_FIRINGS src)).eventFlag Ev.SRC_FIRED src)

/-- The order in which one cycle handles the task inputs: cancels before starts (R450). -/
def inputOrder : List Nat := (taskInputs.filter fun ti => decide (96 ≤ ti ∧ ti < 112)) ++ taskInputs.filter fun ti => decide (ti < 96 ∨ 112 ≤ ti)

/-- A cycle of the domain of a task input, in 0.1 ns: TIME 500 MHz, RING 312.5 MHz, PERI 100 MHz, AON 25 MHz (R446, Table 17-2). -/
def inputCycle (ti : Nat) : Nat := if ti < 16 then 20 else if ti < 80 then 32 else if ti < 118 then 20 else if ti < 134 then 100 else 400

/-- When a firing at a device clock reaches a task input, in 0.1 ns: 2 cycles of the input's domain after the first clock edge of that
domain at or after it (R446). DESIGN CHOICE: the clock edges of a domain lie at the multiples of its cycle. -/
def arrivalAt (ti clock : Nat) : Nat := (ceilDiv (10 * clock) (inputCycle ti) + 2) * inputCycle ti

/-- A timer expires: it returns to IDLE and fires (R450). -/
def State.timerExpire (s : State) (t due : Nat) : State :=
  let s := { s with fab := { s.fab with timers := tdel s.fab.timers t }, firings := s.firings ++ [(224 + t, due)] }
  s.wr (Ev.TIMER_STATE t) 0

/-- The timers due by a device clock expire: of one cycle, before its cancels and starts (R450). -/
def State.expireTimers (s : State) (now : Nat) : State :=
  (s.fab.timers.filter fun e => decide (e.2 ≤ now)).foldl (fun (t : State) e => t.timerExpire e.1 e.2) s

/-- The triggers that some firings, of a source at a device clock each, bring: (time in 0.1 ns, task input), earliest first. Firings
that reach an input in one cycle of its domain are one trigger (R447, R449). -/
def State.arrivals (s : State) (fs : List (Nat × Nat)) : List (Nat × Nat) :=
  let all := inputOrder.flatMap fun ti => ((fs.filter fun f => !(s.wireHits ti [f.1]).isEmpty).map fun f => (arrivalAt ti f.2, ti)).eraseDups
  all.foldl (fun l m => (l.filter fun g => decide (g.1 ≤ m.1)) ++ m :: l.filter fun g => decide (m.1 < g.1)) []

/-- Some firings reach the task inputs (R446 to R449). The device clock moves to what happens in TIME; inputs of slower domains act
later. -/
def State.deliver (s : State) (fs : List (Nat × Nat)) : State :=
  let r := fs.foldl (fun (a : List (Nat × Nat) × State) f =>
    let x := a.2.sourceFires f.1
    (if x.1 then a.1 ++ [f] else a.1, x.2)) ([], s)
  (r.2.arrivals r.1).foldl (fun (t : State) m =>
    let now := m.1 / 10
    let t := (if inputCycle m.2 = 20 then t.at now else t).expireTimers now
    t.inputTrigger m.2 now ((r.1.filter fun (f : Nat × Nat) => arrivalAt m.2 f.2 == m.1).map Prod.fst)) r.2

/-- The first recorded firing of a source leaves the record. -/
def dropFirst (l : List (Nat × Nat)) (src : Nat) : List (Nat × Nat) :=
  match l.find? fun f => f.1 == src with
  | some f => l.erase f
  | none => l

/-- EVENT_SOURCE_FIRE (R447, R446): of the named sources those that have fired, each by its earliest firing, reach the task inputs; a
fabric that does not run carries nothing (R457). -/
def execEventSourceFire (sources : List (Fin 256)) (s : State) : Host.Outcome State Fault Refusal :=
  .next (
    let fs := ((sources.map Fin.val).eraseDups).filterMap fun (x : Nat) => s.firings.find? fun f => f.1 == x
    let s := { s with firings := fs.foldl (fun l (f : Nat × Nat) => dropFirst l f.1) s.firings }
    if s.fabricRuns then s.deliver fs else s)

/-- TIMER_EXPIRY (R450). -/
def execTimerExpiry (t : Fin 16) (s : State) : Host.Outcome State Fault Refusal :=
  .next (
    match tfind s.fab.timers t.val with
    | none => s
    | some due => if s.fabricRuns then (s.at due).timerExpire t.val due else s)

/-- EVIO_INPUT_EDGE (R443, R451): an input fires on the edges EVIO_EDGE selects. -/
def execEvioInputEdge (e : Fin 6) (rising : Bool) (s : State) : Host.Outcome State Fault Refusal :=
  .next (
    let sel := s.rd (Ev.EVIO_EDGE e.val)
    let selected := sel == 2 || (sel == 0 && rising) || (sel == 1 && !rising)
    if s.fabricRuns && s.rd (Ev.EVIO_DIR e.val) == 0 && selected then s.fire (120 + e.val) else s)

/-- EVIO_PULSE_END (R451). -/
def execEvioPulseEnd (e : Fin 6) (s : State) : Host.Outcome State Fault Refusal :=
  .next (
    match tfind s.fab.evios e.val with
    | none => s
    | some due =>
      let s := s.at due
      let s := { s with fab := { s.fab with evios := tdel s.fab.evios e.val } }
      s.pin ("EVIO" ++ toString e.val) (1 - s.evioActive e.val))

/-- WAKE_NOTIFY_ACTION (R452, R456): Negor sends the NOTIFY of the pending wake; not while it restarts. -/
def execWakeNotifyAction (s : State) : Host.Outcome State Fault Refusal :=
  .next (
    match s.fab.wakeNotify with
    | none => s
    | some pos =>
      if s.negorAnswers then ({ s with fab := { s.fab with wakeNotify := none } }).linkNotify 0x0602 184 0xFF pos else s)

/-! ## Commits of group 0x90 -/

/-- The value that a commit puts in force: a write of 1 clears a flag (R455), an unused wire position reads 0 (R442). -/
def fabricValue (old : State) (id v : Nat) : Nat :=
  let n := idNum id
  if 0x0201 ≤ n ∧ n ≤ 0x0205 then writeOneClears (old.rd id) v
  else if n = 0x0101 then v &&& wireMask (idInst id)
  else v

/-- The level an EVIO pin rests at, or high impedance while it is an input (R451). -/
def State.evioPin (s : State) (e : Nat) : State :=
  if s.rd (Ev.EVIO_DIR e) = 0 then
    ({ s with fab := { s.fab with evios := tdel s.fab.evios e } }).pin ("EVIO" ++ toString e) 2
  else if (tfind s.fab.evios e).isSome then s.pin ("EVIO" ++ toString e) (s.evioActive e)
  else s.pin ("EVIO" ++ toString e) (1 - s.evioActive e)

/-- The effects of a group 0x90 value in force: SW_FIRE fires its sources (R443), a pin takes its direction and polarity. -/
def fabricApply (id v : Nat) (s : State) : State :=
  if id = Ev.SW_FIRE then (setBits 16 v).foldl (fun (t : State) b => t.fire (208 + b)) s
  else if idNum id = 0x0030 ∨ idNum id = 0x0033 then s.evioPin (idInst id)
  else s

end Sys2Proof.Machine
end

