-- ==== Sys2Proof/Machine/Thermal.lean ====
section
/-! DEFINITION. The thermal and power unit: sensors, thermal states, heating, shutdown, cap steps, and the Life Meter (spec/18). -/

namespace Sys2Proof.Machine

/-! ## The life record at a start -/

/-- The newest life record taken back at a start: times in whole seconds where the record holds seconds. -/
def State.lifeRestore (s : State) : State :=
  let s := match s.ledgerRead 18 25 with
    | none => s
    | some b => { s with therm := { s.therm with
        recWeighted := leAt b 76 8, recPoweredMs := leAt b 68 8 * 1000, lifeSeq := (leAt b 64 4 + 1) % 2 ^ 32
        recProfile := (List.range 5).foldl (fun (t : Table Nat) p => tset t p 0 (leAt b (84 + 8 * p) 8 * 1000)) [] } }
  s.lifeParams

/-- The shutdown record (Table 18-3). -/
def State.shutdownRecord (s : State) (cause source : Nat) : List Byte :=
  let diode : Int := if bit (s.rd Th.MONITOR_VALID) 16 then s.rdS Th.DIODE else -32768
  withCrc (leBytes 1 0x5D ++ leBytes 1 1 ++ leBytes 1 cause ++ leBytes 1 source ++ leBytes 1 s.pow.global.code ++ leBytes 1 (s.rd Tick.PROFILE) ++
    zeroBytes 24 ++ leBytes 4 s.therm.pendPowered ++ leBytes 4 s.therm.pendWeighted ++ leBytes 4 (s.rd Tick.ACTIVE_CAP) ++ leSigned 2 diode ++
    leSigned 2 (s.rdS Th.JUNCTION) ++ leBytes 2 s.epoch ++ leBytes 4 s.tickSeq ++ leBytes 8 s.deviceTime)

/-! ## Notices (R474) -/

/-- A thermal NOTIFY; none in BOOT, OFF and THERMAL_OFF. -/
def State.thermNotify (s : State) (code value sensor cap : Nat) : State :=
  if s.pow.global = .boot ∨ s.pow.global = .off ∨ s.pow.global = .thermalOff then s
  else s.notify 6 code (leSigned 2 (s.rdS Th.JUNCTION) ++ leBytes 1 value ++ leBytes 1 sensor ++ leBytes 4 cap)

/-! ## Shutdown (R465) -/

/-- Everything that a stop of the clocks ends. -/
def State.stopAll (s : State) : State :=
  { s with
    ing := s.ing.map fun (e : Nat × IngSt) => (e.1, { e.2 with frame := none, closing := [] })
    ctxs := s.ctxs.map fun (e : Nat × CtxSt) => (e.1, { e.2 with job := none })
    trigs := s.trigs.map fun (e : Nat × TrigSt) => (e.1, { e.2 with startAt := none, endAt := none })
    buses := s.buses.map fun (e : Nat × BusSt) => (e.1, { e.2 with sensor := [], hosts := [], cur := none, pollEnd := none })
    scene := {}, firings := []
    media := { s.media with run := none, formatting := none, rebuilding := none }
    fab := { s.fab with timers := [], evios := [], ringTx := [], wakeNotify := none, wakeProfile := none }
    tick := { s.tick with running := false, gap := false, active := none, waiting := 0 } }

/-- The shutdown: the Ledger write in progress completes, the shutdown record is written outside the arbiter, and the device is in
THERMAL_OFF. The time not yet in a life record is in the shutdown record from now on. -/
def State.thermalShutdown (s : State) (cause source : Nat) : State :=
  let s := s.finishLedger
  let record := s.shutdownRecord cause source
  let s := (s.ledgerWrite 14 17 record).count Th.SHUTDOWN_COUNT
  let s := (((s.pin "THERM_SHDN" 1).pin "DDR5_RESET_N" 0).pin "PCIE_PERST_N" 0).pin "OUTPUTS" 2
  let s := s.stopAll
  let s := { s with
    pow := { s.pow with thermShdn := true, clocksStopped := true, afterThermalOff := true, ledgerQueue := [], restarting := false }
    therm := { s.therm with pendWeighted := 0, pendPowered := 0, heating := false } }
  s.setGlobal .thermalOff

/-- A sensor is invalid until the next BOOT; with fewer than 4 left the device shuts down (R461). -/
def State.sensorInvalid (s : State) (k : Nat) : State :=
  if bit (s.rd Th.MONITOR_VALID) k = false then s
  else
    let s := (s.wr Th.MONITOR_VALID (clearFlag (s.rd Th.MONITOR_VALID) k)).count Th.MONITOR_FAULTS
    let s := { s with therm := { s.therm with hotOnce := clearFlag s.therm.hotOnce k } }
    let s := s.thermNotify 4 0 k (s.rd Tick.ACTIVE_CAP)
    if popcount 17 (s.rd Th.MONITOR_VALID) < 4 ∧ s.pow.global ≠ .off ∧ s.pow.global ≠ .thermalOff then s.thermalShutdown 2 0xFF else s

/-! ## The estimate and the thermal states (R459, R462) -/

/-- The latest reading of a sensor: 0 to 15 a monitor, 16 the diode. -/
def State.sensor (s : State) (k : Nat) : Int := if k = 16 then s.rdS Th.DIODE else s.rdS (Th.MONITOR k)

/-- Valid sensors. -/
def State.validSensors (s : State) : List Nat := setBits 17 (s.rd Th.MONITOR_VALID)

/-- The junction estimate: the maximum of the valid sensors; the previous one where none is valid. -/
def State.estimate (s : State) : Int :=
  match s.validSensors with
  | [] => s.rdS Th.JUNCTION
  | k :: r => r.foldl (fun (m : Int) j => max m (s.sensor j)) (s.sensor k)

/-- The thermal state that a sample selects (Table 18-2). DEDUCED: a cold state is entered below its threshold, as the table says, and not at
it, as R462 has it with the directions reversed. -/
def State.thermalNext (s : State) : Nat :=
  let e := s.rdS Th.JUNCTION
  let old := s.rd Th.THERMAL_STATE
  let hot := s.rdS Th.HOT_HYSTERESIS
  let cold := s.rdS Th.COLD_HYSTERESIS
  let coldState := if s.pow.global = .warmup then 0 else 1
  if s.rdS Th.THROTTLE_THRESHOLD ≤ e then 5
  else if old = 5 ∧ s.rdS Th.THROTTLE_THRESHOLD - hot < e then 5
  else if s.rdS Th.WARN_THRESHOLD ≤ e then 4
  else if 4 ≤ old ∧ s.rdS Th.WARN_THRESHOLD - hot < e then 4
  else if e < s.rdS Th.COLD_LIMIT then coldState
  else if old ≤ 1 ∧ e < s.rdS Th.COLD_LIMIT + cold then coldState
  else if e < s.rdS Th.COLD_WARNING then 2
  else if old ≤ 2 ∧ e < s.rdS Th.COLD_WARNING + cold then 2
  else 3

/-- The heater (R463): it runs in WARMUP while the thermal state is HEATING, and its end lets DRAM training start. -/
def State.heater (s : State) : State :=
  let cold := s.pow.global == .warmup && s.rd Th.THERMAL_STATE == 0
  if cold && !s.therm.heating then { s with therm := { s.therm with heating := true, heatStart := s.clock } }
  else if s.therm.heating then
    let s := s.wr Th.WARMUP_HEAT_TIME ((s.clock - s.therm.heatStart) / 1000000)
    if cold then s else ({ s with therm := { s.therm with heating := false } }).warmupEnds
  else s

/-- Moves to the thermal state that the estimate selects (R462, R464, Table 17-1, R396). DEDUCED: ES126 fires on a rise to WARM or beyond it, as
Table 17-1 says, and not on the fall from HOT to WARM; WARNINGS counts every entry to WARM. -/
def State.thermalStep (s : State) : State :=
  let old := s.rd Th.THERMAL_STATE
  let st := s.thermalNext
  let s := if st = old then s else
    let s := (s.wr Th.THERMAL_STATE st).thermNotify 1 st 0xFF (s.rd Tick.ACTIVE_CAP)
    let s := if st = 4 then s.count Th.WARNINGS else s
    let s := if old < 4 ∧ 4 ≤ st then (s.fire 126).raiseEvent 1 else s
    if st = 1 ∧ 2 ≤ old then s.count Th.COLD_EXCURSIONS else s
  s.heater

/-- THERMAL_CALIBRATION (R460): in WARMUP; offsets that correct each monitor to the diode, then the comparison of R463. -/
def execThermalCalibration (diode : Int) (monitors : List Int) (s : State) : Host.Outcome State Fault Refusal :=
  .next (
    if s.pow.global ≠ .warmup ∨ s.therm.calibrated then s
    else
      let s := { s with therm := { s.therm with calibrated := true } }
      let s := (List.range 16).foldl (fun (t : State) m =>
        let off := diode - monitors.getD m diode
        let t := (t.wrS (Th.MONITOR_OFFSET m) off).wrS (Th.MONITOR m) diode
        if 160 < off.natAbs then t.sensorInvalid m else t) (s.wrS Th.DIODE diode)
      if s.pow.global ≠ .warmup then s
      else (((s.wrS Th.JUNCTION s.estimate).thermalStep)).warmupEnds)

/-! ## Cap steps (R469 to R471) -/

/-- Cap steps are decided in WARMUP, READY, RUN and FAULT_HOLD. -/
def State.capDecides (s : State) : Bool :=
  s.pow.global == .warmup || s.pow.global == .ready || s.pow.global == .run || s.pow.global == .faultHold

/-- POWER_NOW is above ACTIVE_CAP while the power limit is on. -/
def State.overPower (s : State) : Bool := s.rd Th.POWER_ENABLE == 1 && decide (s.rd Tick.ACTIVE_CAP < s.rd Th.POWER_NOW)

/-- The conditions of a step up hold. -/
def State.withinLimits (s : State) : Bool :=
  decide (s.rdS Th.JUNCTION ≤ s.rdS Th.THROTTLE_THRESHOLD - s.rdS Th.HOT_HYSTERESIS) && !s.overPower

/-- A cap step: 5 W. -/
def capStep : Nat := 5000

/-- Re-admission for a changed cap begins; one under way is given up (R58, R471). -/
def State.readmit (s : State) : State :=
  if s.tick.running then { s with tick := { s.tick with readmitting := true, readmitted := false } } else s

/-- The shed level of a step down is due at the next tick edge (R58). -/
def State.shedNext (s : State) : State := if s.tick.running then { s with tick := { s.tick with shedDue := true } } else s

/-- A step down, or a stay at the floor (R469). -/
def State.stepDown (s : State) : State :=
  let floor := s.profile.floorCap
  let cap := s.rd Tick.ACTIVE_CAP
  if floor < cap then
    let new := max floor (cap - capStep)
    let s := (s.wr Tick.ACTIVE_CAP new).applyClock.fire 201
    let s := (s.count Th.THROTTLE_STEPS).wr Th.THROTTLE_CAUSE (if s.rd Th.THERMAL_STATE = 5 then 1 else 2)
    let s := { s with therm := { s.therm with lastDown := some s.clock } }
    let s := s.readmit.shedNext.thermNotify 2 0 0xFF new
    if new = floor ∧ s.therm.floorNotified = false then
      ({ s with therm := { s.therm with floorNotified := true } }).thermNotify 3 0 0xFF new
    else s
  else if s.therm.floorHeld then s
  else { s with therm := { s.therm with floorHeld := true } }.count Th.FLOOR_HOLDS

/-- 100 ms, in ns. -/
def capHold : Nat := 100000000

/-- The decisions of one sample (R469, R470). -/
def State.capSample (s : State) : State :=
  if s.capDecides = false then s
  else
    let s := { s with therm := { s.therm with
      okSince := if s.withinLimits && !s.therm.upPending then some (s.therm.okSince.getD s.clock) else none } }
    if s.rd Th.THERMAL_STATE = 5 ∨ s.overPower then
      let s := { s with therm := { s.therm with upPending := false } }
      match s.therm.lastDown with
      | some t => if t + capHold ≤ s.clock then s.stepDown else s
      | none => s.stepDown
    else s

/-- A step up takes effect: the cap, its clock set, RESTORE_STEPS, the NOTIFY, and the next 1 s begins (R59, R470). DEDUCED: a step that is
cancelled before it takes effect counts and reports nothing. -/
def State.stepUpNow (s : State) : State :=
  let new := min s.profile.cap (s.rd Tick.ACTIVE_CAP + capStep)
  let s := { s with therm := { s.therm with upPending := false, okSince := some s.clock, floorHeld := false, floorNotified := false } }
  ((s.wr Tick.ACTIVE_CAP new).applyClock.count Th.RESTORE_STEPS).thermNotify 2 1 0xFF new

/-- CAP_STEP_UP (R470): decided once the conditions have held for 1 s; applied at once where no plan runs, else under R59. -/
def execCapStepUp (s : State) : Host.Outcome State Fault Refusal :=
  .next (
    match s.therm.okSince with
    | none => s
    | some t =>
      let cap := s.rd Tick.ACTIVE_CAP
      if s.capDecides && !s.therm.upPending && decide (cap < s.profile.cap) && s.withinLimits then
        let s := s.at (t + 1000000000)
        if s.tick.running then ({ s with therm := { s.therm with upPending := true, okSince := none } }).readmit else s.stepUpNow
      else s)

/-! ## Samples (R459, R461, R465, R466) -/

/-- The two consecutive hot samples of R465: the sensors hot now, and the one that starts a shutdown. -/
def State.shutdownSource (s : State) (hot : List Nat) : Option Nat :=
  let twice := hot.filter fun k => bit s.therm.hotOnce k
  match twice with
  | [] => none
  | k :: r => some (r.foldl (fun best j => if s.sensor best < s.sensor j then j else best) k)

/-- What one sample reads. -/
def State.readSensors (s : State) (diode : Int) (diodeFault : Bool) (monitors : List Int) (powerMw : Nat) : State :=
  let s := (s.wr Th.POWER_NOW powerMw).wrS Th.DIODE diode
  let s := (List.range 16).foldl (fun (t : State) m => t.wrS (Th.MONITOR m) (monitors.getD m 0 + t.rdS (Th.MONITOR_OFFSET m))) s
  let s := if diodeFault then s.sensorInvalid 16 else s
  let s := (List.range 16).foldl (fun (t : State) m =>
    if t.sensor m < -960 ∨ 2560 < t.sensor m then t.sensorInvalid m else t) s
  s.wrS Th.JUNCTION s.estimate

/-- What follows from a sample that shuts nothing down, by the global state: the end of the boot ROM's wait (R466), the steps of
the cap, the end of WARMUP. -/
def State.sampleSteps (s : State) : State :=
  if s.pow.global = .boot then
    (if s.pow.phase = .cooling ∧ s.rdS Th.JUNCTION < s.rdS Th.SHUTDOWN_THRESHOLD - s.rdS Th.HOT_HYSTERESIS then
      s.selectImage else s)
  else if s.pow.global = .warmup ∧ s.therm.calibrated = false then s.capSample
  else (s.thermalStep.capSample).warmupEnds

/-- What follows from a sample: a shutdown for two readings in a row (R465), or the steps. -/
def State.sampleActs (s : State) : State :=
  let hot := s.validSensors.filter fun k => decide (s.rdS Th.SHUTDOWN_THRESHOLD ≤ s.sensor k)
  match s.shutdownSource hot with
  | some k => s.thermalShutdown 1 k
  | none => { s with therm := { s.therm with hotOnce := maskOf hot } }.sampleSteps

/-- The readings of a sample, at the sample's time. -/
def State.sampleReads (s : State) (diode : Int) (diodeFault : Bool) (monitors : List Int) (powerMw : Nat) : State :=
  let s := s.at (s.therm.lastSample + 100000)
  { s with therm := { s.therm with lastSample := s.clock } }.readSensors diode diodeFault monitors powerMw

/-- THERMAL_SAMPLE (R459): every 100 µs in every state but OFF. -/
def execThermalSample (diode : Int) (diodeFault : Bool) (monitors : List Int) (powerMw : Nat) (s : State) :
    Host.Outcome State Fault Refusal :=
  .next (
    if s.pow.global = .off then s
    else
      let s := s.sampleReads diode diodeFault monitors powerMw
      if s.pow.global = .thermalOff then s else s.sampleActs)

/-! ## The Life Meter (R472, R473) -/

/-- The weight w of Table 18-5 in tenths. -/
def State.lifeTenths (s : State) : Nat :=
  match s.pow.global with
  | .ready | .run =>
    let w := s.profile.lifeWeight
    if w = 0x20000 then 20 else if w = 0x10000 then 10 else if w = 0x8000 then 5 else 1
  | .thermalOff | .off => 0
  | _ => 1

/-- The band factor b of Table 18-6 in tenths. -/
def bandTenths (e : Int) : Nat :=
  if e ≤ 1760 then 10 else if e ≤ 1840 then 15 else if e ≤ 1920 then 20 else if e ≤ 2000 then 30 else 40

/-- Sends the LIFE notices that are due, once each (R473). -/
def State.lifeNotices (s : State) : State :=
  let used := s.rd Th.LIFE_USED
  let speaks := s.negorAnswers
  let s := if speaks && !s.therm.warnSent && decide (s.rd Th.LIFE_WARN ≤ used) then
      ({ s with therm := { s.therm with warnSent := true } }).thermNotify 5 0 0xFF (s.rd Tick.ACTIVE_CAP) else s
  if speaks && !s.therm.fullSent && decide (1000 ≤ used) then
    ({ s with therm := { s.therm with fullSent := true } }).thermNotify 5 1 0xFF (s.rd Tick.ACTIVE_CAP) else s

/-- LIFE_METER_SAMPLE (R472): 100 ms × w × b, in every state but OFF. -/
def execLifeMeterSample (s : State) : Host.Outcome State Fault Refusal :=
  .next (
    if s.pow.global = .off then s
    else
      let s := s.at (s.therm.lastLife + 100000000)
      let e := s.rdS Th.JUNCTION
      let amount := s.lifeTenths * bandTenths e
      let p := s.rd Tick.PROFILE
      let runs := s.pow.global == .ready || s.pow.global == .run
      let s := { s with therm := { s.therm with
        lastLife := s.clock
        pendWeighted := s.therm.pendWeighted + amount
        pendPowered := s.therm.pendPowered + 100
        pendProfile := if runs then tset s.therm.pendProfile p 0 (tget s.therm.pendProfile p 0 + 100) else s.therm.pendProfile
        maxJunction := max s.therm.maxJunction e
        minJunction := min s.therm.minJunction e } }
      (s.lifeParams.wr Th.LIFE_RATE (roundDiv (amount * 65536) 100)).lifeNotices)

/-- What Negor does with the latest shutdown record at its next start (R466). -/
def State.afterShutdown (s : State) : State :=
  match s.ledgerRead 14 17 with
  | none => s
  | some b =>
    let s := s.wrBlob Th.SHUTDOWN_RECORD b
    if s.pow.afterThermalOff then
      ({ s with
        pow := { s.pow with afterThermalOff := false }
        therm := { s.therm with pendWeighted := s.therm.pendWeighted + leAt b 34 4, pendPowered := s.therm.pendPowered + leAt b 30 4 } }).lifeParams
    else s

/-! ## Commits of group 0xA0 -/

/-- The checks of a group 0xA0 entry beyond range (R475). -/
def thermCheck (t : Txn) (id : Nat) : Nat :=
  failIf ((id == Th.WARN_THRESHOLD || id == Th.THROTTLE_THRESHOLD) &&
    decide (t.cand.rdS Th.THROTTLE_THRESHOLD < t.cand.rdS Th.WARN_THRESHOLD)) Status.CONFLICT

end Sys2Proof.Machine
end

