-- ==== Sys2Proof/Machine/Admission.lean ====
section
/-! DEFINITION. Admission (R40 to R45, R57, R197): what a plan requires of every resource of Table 02-4 at its worst tick, whether it
fits, the shortfall records, and the shed table. Every function reads the plan from a state: the one in force, or the one a
commit would leave. -/

namespace Sys2Proof.Machine

/-! ## The divisor cycle (R43, R45) -/

/-- Whether context `c` is processed on tick `t` of the cycle, counted from the tick on which every divisor counter is at its
reload value, under a list of shed items (R45, Table 02-9). -/
def State.runsAt (s : State) (items : List Nat) (c t : Nat) : Bool :=
  let n := s.divisor c
  let p := s.rd (Ctx.TICK_PHASE c)
  let k := (t - (n - p % n) % n) / n
  (p + t) % n == 0 && (!(items.contains 10 && s.sheddable c) || (k + s.shedGroup c) % 2 == 0)

/-- The length of the cycle of all divisors. -/
def State.cycleLength (s : State) (items : List Nat) : Nat :=
  let n := (s.planned.map s.divisor).foldl Nat.lcm 1
  if items.contains 10 && s.planned.any s.sheddable then 2 * n else n

/-- The worst tick of a cost per context: the largest sum over the cycle, the contexts that contribute to it, and its index, the
lowest where ticks are equal. -/
def State.worst (s : State) (items : List Nat) (cost : Nat → Nat) : Nat × List Nat × Nat :=
  let at' (t : Nat) : Nat × List Nat × Nat :=
    let on := s.planned.filter fun c => s.runsAt items c t && decide (0 < cost c)
    ((on.map cost).sum, on, t)
  (List.range (s.cycleLength items)).foldl (fun best t => if best.1 < (at' t).1 then at' t else best) (at' 0)

/-! ## Shortfall records (R44, Table 02-5) -/

/-- What one resource requires and offers at the worst tick; `refused` where a further rule refuses the plan under this resource. -/
structure Shortfall where
  code : Nat
  unit : Nat
  required : Nat
  available : Nat
  mask : List Nat := []
  tick : Nat := 0
  refused : Bool := false
  deriving DecidableEq, Repr

/-- A resource that fits (R43). -/
def Shortfall.fits (r : Shortfall) : Bool := decide (r.required ≤ r.available) && !r.refused

/-- The 32 bytes of a record. -/
def Shortfall.bytes (r : Shortfall) : List Byte :=
  leBytes 1 r.code ++ leBytes 1 r.unit ++ zeroBytes 6 ++ leBytes 4 r.tick ++ leBytes 4 (maskOf r.mask) ++ leBytes 8 r.available ++
    leBytes 8 r.required

/-! ## Amounts -/

/-- Tick budget × a CORE clock in MHz, in cycles. -/
def State.cycles (s : State) (mhz : Nat) : Nat := s.budgetNum * mhz / (50 * max 1 (s.rd Tick.TICK_RATE_N) * 1000)

/-- Peak bandwidth of one channel in bytes per second at the plan's DRAM speed. -/
def State.channelPeak (s : State) : Nat := 8 * dramMT s.profile.dramSpeed * 1000000

/-- A share, in thousandths, of the peak of `n` channels over one tick period, in bytes. -/
def State.shareBytes (s : State) (share n : Nat) : Nat :=
  share * (n * s.channelPeak) * s.rd Tick.TICK_RATE_D / (1000 * max 1 (s.rd Tick.TICK_RATE_N))

/-- Bytes per second as bytes per tick, rounded up. -/
def State.perTick (s : State) (rate : Nat) : Nat := ceilDiv (rate * s.rd Tick.TICK_RATE_D) (max 1 (s.rd Tick.TICK_RATE_N))

/-- The amount without an index, over a total or over the channel that carries most (R425). -/
abbrev Traffic := List (Option Nat × Nat)

/-- What is placed in DRAM for a plan, in the order in which PARTITION takes the channels in turn: the frame-slot ring, the rendition
buffers and the references of each context (R425). The order is a design choice. -/
def State.placed (s : State) : List (Nat × Nat) :=
  s.planned.flatMap fun c => (c, 0) :: ((s.rendsOn [] c).map fun v => (c, 1 + v)) ++ (List.range (s.refsConfigured c)).map fun k => (c, 5 + k)

/-- The channel of a placed thing under PARTITION, as an index; none for what is not placed so. -/
def State.channelOf (s : State) (c part : Nat) : Option Nat :=
  let i := s.placed.findIdx fun e => e == (c, part)
  if i < s.placed.length then some (i % max 1 s.dramChannels.length) else none

/-- The total of a traffic list; under PARTITION, the channel that carries most of it, with what is not placed spread evenly. -/
def State.load (s : State) (t : Traffic) : Nat :=
  if s.rd Dram.MAP_ORDER = 2 then
    let n := max 1 s.dramChannels.length
    let spread := ceilDiv ((t.filter fun (e : Option Nat × Nat) => e.1.isNone).map Prod.snd).sum n
    ((List.range n).map fun k => spread + ((t.filter fun (e : Option Nat × Nat) => e.1 == some k).map Prod.snd).sum).foldl max 0
  else (t.map Prod.snd).sum

/-- The channels that a load is checked against: all, or under PARTITION one. -/
def State.loadChannels (s : State) : Nat := if s.rd Dram.MAP_ORDER = 2 then 1 else s.dramChannels.length

/-! ### Real-time ports (R18, R156, R181, R306, R365, R427) -/

/-- Ingest bytes of a context per tick: the bytes of its frames at the rate of the tick and the divisor; in the lossless mode with
the staging area, written and read at 2 bytes per sample. -/
def State.ingestBytes (s : State) (c : Nat) : Nat :=
  match s.ctxGeom c with
  | none => 0
  | some (p, lines, samples) =>
    let lossless := s.rd (Trf.TRF_MODE p) == 1
    let frame := trfMaxBytes lossless (widthBits (s.rd (Ing.ING_WIDTH p))) (s.budgetInForce p) lines samples +
      (if lossless then 4 * 512 * (ceilDiv samples 64 * ceilDiv lines 8) else 0)
    ceilDiv frame (s.divisor c)

/-- Ingest write. -/
def State.ingestTraffic (s : State) : Traffic := s.planned.map fun c => (s.channelOf c 0, s.ingestBytes c)

/-- Recorder read: the chunks of every open clip. -/
def State.recorderTraffic (s : State) : Traffic :=
  s.media.clips.flatMap fun (e : Nat × Clip) => (e.2.portsOf 0).map fun p =>
    (s.channelOf (s.rd (Ing.CONTEXT p)) 0, s.perTick (s.videoRate p))

/-- Display scan-out under a list of shed items: S3 disables L1. -/
def State.displayTraffic (s : State) (items : List Nat) : Traffic :=
  (List.range 4).flatMap fun h =>
    if s.rd (Head.HEAD_ENABLE h) = 0 then []
    else ((List.range 4).filter fun l => !(l == 1 && items.contains 3)).map fun l =>
      let r := s.layerRend h l
      (if s.rd (Head.LAYER_SOURCE h l) = 1 then s.channelOf r.1 (1 + r.2) else none, s.layerBytes h l * s.headFrames h)

/-- Bytes that a sender reads for one frame of its source: a video sender its buffer, an ancillary sender a ticket. -/
def State.senderBytes (s : State) (n : Nat) : Nat :=
  let (c, v) := s.streamRend n
  if s.rd (St.STREAM_ENABLE n) = 0 then 0
  else if streamKind n = 0 then outBytes (s.rd (Rend.OUT_FORMAT c v)) (s.cropOf c v).1 (s.cropOf c v).2
  else if streamKind n = 2 ∧ s.rd (St.ANC_TICKET n) = 1 then 128
  else 0

/-- Audio bytes that the senders read per tick. -/
def State.audioSenderBytes (s : State) : Nat :=
  ((List.range 16).map fun k =>
    let n := 0x20 + k
    if s.rd (St.STREAM_ENABLE n) = 0 then 0
    else s.perTick (s.streamRate n * s.rd (St.AUDIO_CHANNELS n) * packBytes (packing (s.rd (Aud.SAMPLE_FORMAT (s.streamPort n)))))).sum

/-- The senders fed by a context. -/
def State.sendersOf (s : State) (c : Nat) : List Nat :=
  (List.range 80).filter fun n => streamKind n != 1 && (s.streamRend n).1 == c && decide (0 < s.senderBytes n)

/-- Stream-sender read on the ticks that some contexts run. -/
def State.senderTraffic (s : State) (on : List Nat) : Traffic :=
  (none, s.audioSenderBytes) :: on.flatMap fun c => (s.sendersOf c).map fun n =>
    (if streamKind n = 0 then s.channelOf c (1 + (s.streamRend n).2) else none, s.senderBytes n)

/-- R427: a port's rate on a channel × 17 µs is more than its reorder store. -/
def State.storeShort (s : State) (t : Traffic) (store : Nat) : Bool :=
  decide (store * s.rd Tick.TICK_RATE_D * max 1 s.loadChannels * 1000000 < s.load t * s.rd Tick.TICK_RATE_N * 17)

/-- The time after FRAME_START by which a ticket is written, in ns: the ingest deadline, and what the encoder and the ticket take
(R153). -/
def State.ticketDue (s : State) (p c : Nat) : Nat :=
  s.ingestDeadline p c + 8000 + alignUp (bits (s.rd (Ing.ING_GEOMETRY p)) 15 0) 64 / 20

/-- R178: a slot that is used again before the tick-plan job of its frame has ended: the job runs on a tick of the context after the
ticket, every second one where S10 may apply, and ends a tick later (R155). -/
def State.jobSlotShort (s : State) : Bool :=
  s.planned.any fun c => match s.portOf c with
    | none => false
    | some p =>
      let n := s.divisor c * if s.profile.shedOrder.contains 10 && s.sheddable c then 2 else 1
      decide (s.rd (Trf.TRF_SLOTS p) * s.divisor c * s.period < s.ticketDue p c + (n + 1) * s.period)

/-- R365, R178: a recorder read that is due only after its frame slot is used again. A ticket is written at the ingest deadline at
the latest. -/
def State.slotShort (s : State) : Bool :=
  s.media.clips.any fun (e : Nat × Clip) => (e.2.portsOf 0).any fun p =>
    let c := s.rd (Ing.CONTEXT p)
    let chunk := ceilDiv (s.largestChunk p * 1000000000 * s.recordRate) (s.rd Rec.DECLARED_RATE * s.videoRate p)
    decide (s.rd (Trf.TRF_SLOTS p) * s.divisor c * s.period < s.ingestDeadline p c + 100000 + chunk)

/-- Resource 0x03. -/
def State.realTime (s : State) (items : List Nat) : Shortfall :=
  let w := s.worst items fun c => ((s.sendersOf c).map s.senderBytes).sum
  let ing := s.ingestTraffic
  let rec' := s.recorderTraffic
  let disp := s.displayTraffic items
  let send := s.senderTraffic w.2.1
  { code := 0x03, unit := 2, required := s.load (ing ++ rec' ++ disp ++ send),
    available := s.shareBytes (s.profile.shares.getD 0 0) s.loadChannels,
    mask := s.planned.filter fun c => w.2.1.contains c || decide (0 < s.ingestBytes c), tick := w.2.2,
    refused := s.storeShort ing 262144 || s.storeShort rec' 262144 || s.storeShort disp 131072 || s.storeShort send 131072 || s.slotShort || s.jobSlotShort }

/-! ### Classes -/

/-- Resource 0x04: the channel that carries most under PARTITION, at the worst tick of the total. -/
def State.pixelClass (s : State) (items : List Nat) : Shortfall :=
  let w := s.worst items fun c => s.pixelBytes items c
  let t : Traffic := w.2.1.flatMap fun c => (s.pixelParts items c).map fun e => (s.channelOf c e.1, e.2)
  { code := 0x04, unit := 2, required := s.load t, available := s.shareBytes (s.profile.shares.getD 1 0) s.loadChannels,
    mask := w.2.1, tick := w.2.2 }

/-- The rate of a pacer at admission (R381): halved under S1. -/
def State.targetRate (s : State) (items : List Nat) (p : Nat) : Nat := s.rd (Tgt.TARGET_RATE p) / (if items.contains 1 then 2 else 1)

/-- Resource 0x05 (R381): twice the rates of both ports; S1 halves the share as well. -/
def State.mediaClass (s : State) (items : List Nat) : Shortfall :=
  let share := s.shareBytes (s.profile.shares.getD 2 0) s.dramChannels.length
  { code := 0x05, unit := 2,
    required := ceilDiv (2 * (s.targetRate items 0 + s.targetRate items 1) * s.rd Tick.TICK_RATE_D) (8 * max 1 (s.rd Tick.TICK_RATE_N)),
    available := if items.contains 1 then share / 2 else share }

/-- Audio ring traffic per tick: every enabled port moves a sample per slot of its mask (R416). -/
def State.audioRingBytes (s : State) : Nat :=
  ((List.range 8).map fun p => if s.rd (Aud.PORT_ENABLE p) = 0 then 0
    else s.perTick (s.audRate p * popcount 32 (s.rd (Aud.SLOT_MASK p)) * packBytes (packing (s.rd (Aud.SAMPLE_FORMAT p))))).sum

/-- The numeric parameters of a plan that are not at their reset values. -/
def State.planParams (s : State) : List (Nat × Nat) :=
  (s.regs.filter fun e => match paramOf e.1 with | some p => p.access == .rw | none => false).map fun e => (e.1, e.2.toNat)

/-- Resource 0x06: audio rings, and the control cluster's own traffic, which the spec does not give. DEDUCED: that traffic is what the
share leaves at most, since a plan without work is admitted in every profile. -/
def State.controlClass (s : State) : Shortfall :=
  let share := s.shareBytes (s.profile.shares.getD 3 0) s.dramChannels.length
  let own := min (Config.controlTraffic s.planParams).toNat (share - s.audioRingBytes)
  { code := 0x06, unit := 2, required := s.audioRingBytes + own, available := share }

/-- A plan without work: no context, no head, no stream and no open clip. -/
def State.idlePlan (s : State) : Bool :=
  s.planned.isEmpty && (List.range 4).all (fun h => s.rd (Head.HEAD_ENABLE h) == 0) &&
    (List.range 96).all (fun n => s.rd (St.STREAM_ENABLE n) == 0) && s.media.clips.isEmpty

/-- Resource 0x07: the estimate of the power model, which the spec does not give. DEDUCED: a plan without work stays within the cap of
every profile, else none could be selected. -/
def State.powerResource (s : State) (items : List Nat) (mhz cap : Nat) : Shortfall :=
  let e := (Config.powerEstimate s.planParams items mhz).toNat
  { code := 0x07, unit := 3, required := if s.idlePlan then min e cap else e, available := cap }

/-- Resources 0x09 and 0x0A: streams and storage-target data on a port. -/
def State.egress (s : State) (items : List Nat) (p : Nat) : Shortfall :=
  { code := 0x09 + p, unit := 5, required := ((List.range 96).map fun n => s.streamBits n p).sum + s.targetRate items p,
    available := if s.rd (Eth.ETH_MODE p) = 0 then 400000000000 else 200000000000 }

/-- Resources 0x01 and 0x02 at a CORE clock. -/
def State.sceneResource (s : State) (items : List Nat) (mhz : Nat) : Shortfall :=
  let w := s.worst items s.sceneCost
  { code := 0x01, unit := 1, required := w.1, available := s.cycles mhz, mask := w.2.1, tick := w.2.2 }

def State.rendResource (s : State) (items : List Nat) (mhz : Nat) : Shortfall :=
  let w := s.worst items (s.rendCost items)
  { code := 0x02, unit := 1, required := w.1, available := s.cycles mhz, mask := w.2.1, tick := w.2.2 }

/-- Every resource of Table 02-4 but 0x0C under a list of shed items, at a cap and its clock set, in ascending order of code. -/
def State.stepResources (s : State) (items : List Nat) (cap : Nat) : List Shortfall :=
  let mhz := capClock s.profile cap
  [s.sceneResource items mhz, s.rendResource items mhz, s.realTime items, s.pixelClass items, s.mediaClass items, s.controlClass,
   s.powerResource items mhz cap, { code := 0x08, unit := 4, required := s.recordRate, available := s.rd Rec.DECLARED_RATE },
   s.egress items 0, s.egress items 1,
   { code := 0x0B, unit := 6, required := s.planned.length, available := s.profile.maxContexts, mask := s.planned }]

/-- Resource 0x0C: the larger of the Scene and the Rendition cost with every shed item applied, at the floor clock. A plan that does not fit
the floor in every other resource is refused under it (R57). -/
def State.floorResource (s : State) : Shortfall :=
  let a := s.sceneResource s.profile.shedOrder s.profile.floorClock
  let b := s.rendResource s.profile.shedOrder s.profile.floorClock
  { (if a.required < b.required then b else a) with
    code := 0x0C, refused := !(s.stepResources s.profile.shedOrder s.profile.floorCap).all Shortfall.fits }

/-- Every resource of Table 02-4, in ascending order of code. -/
def State.resources (s : State) (items : List Nat) (cap : Nat) : List Shortfall := s.stepResources items cap ++ [s.floorResource]

/-! ## The shed table (R57) -/

/-- The caps of a profile from its cap down to its floor in 5 W steps. -/
def ProfileVals.caps (p : ProfileVals) : List Nat :=
  let n := ceilDiv (p.cap - p.floorCap) 5000
  (List.range n).map (fun k => p.cap - 5000 * k) ++ [p.floorCap]

/-- The shed level of a cap: the smallest number of items with which everything but 0x0C fits; the whole order where nothing does. -/
def State.shedLevelAt (s : State) (cap : Nat) : Nat :=
  let order := s.profile.shedOrder
  ((List.range order.length).find? fun k =>
    (s.stepResources (order.take k) cap).all Shortfall.fits).getD order.length

/-- The table handed to the thermal and power unit (R25). -/
def State.newShedTable (s : State) : List Nat := s.profile.caps.map s.shedLevelAt

/-- The level of the table for the cap in force; a cap between two steps takes that of the lower one. -/
def State.tableLevel (s : State) : Nat :=
  let k := ceilDiv (s.profile.cap - s.rd Tick.ACTIVE_CAP) 5000
  s.tick.shedTable.getD (min k (s.tick.shedTable.length - 1)) 0

/-! ## Admission (R41, R60) -/

/-- A commit that changes the profile is admitted at the profile cap with nothing shed, any other at the cap and the shed level in
force (R60, R471). -/
def planCap (old cand : State) : Nat × Nat :=
  if old.profile = cand.profile then (cand.rd Tick.ACTIVE_CAP, cand.rd Tick.SHED_LEVEL) else (cand.profile.cap, 0)

/-- The resources that a candidate plan does not fit. -/
def shortfalls (old cand : State) : List Shortfall :=
  let (cap, level) := planCap old cand
  (cand.resources (cand.profile.shedOrder.take level) cap).filter fun r => !r.fits

/-- The payload of a BUDGET_EXCEEDED reply (R44): a 32-bit count and the records. -/
def shortfallPayload (l : List Shortfall) : List Byte := leBytes 4 l.length ++ l.flatMap Shortfall.bytes

/-! ## The early start (R197) -/

/-- The contexts that share a tick with `e`. -/
def State.sharesTick (s : State) (e c : Nat) : Bool :=
  c != e && (List.range (s.cycleLength [])).any fun t => s.runsAt [] e t && s.runsAt [] c t

/-- The early-start context of a plan. -/
def State.earlyPlanned (s : State) : Option Nat := s.planned.find? fun c => s.rd (Ctx.EARLY_START c) != 0

/-- The cycles that the early-start job may have to wait and run: W + cost. -/
def State.earlyCycles (s : State) (e : Nat) : Nat :=
  ((s.planned.filter (s.sharesTick e)).map s.longestUnit).foldl max 0 + s.sceneCost e

/-- The margin of R197 in ns, rounded down, at the clock set of the profile. -/
def State.earlySlack (s : State) (e : Nat) : Int :=
  let f := max 1 s.profile.core
  let d : Int := ((50 * max 1 (s.rd Tick.TICK_RATE_N) * f : Nat) : Int)
  (((s.budgetNum * f : Nat) : Int) -
    ((50 * max 1 (s.rd Tick.TICK_RATE_N) * (s.rd (Ctx.EARLY_START e) * f + 1000 * s.earlyCycles e) : Nat) : Int)) / d

/-- R197: the plan's early-start job would not end within the tick budget. -/
def State.earlyBad (s : State) : Bool :=
  match s.earlyPlanned with
  | some e => decide (s.earlySlack e < 0)
  | none => false

end Sys2Proof.Machine
end

