-- ==== Sys2Proof/Machine/FrameStart.lean ====
section
/-! DEFINITION. The rows that start a frame: FRAME_START on the link, and the pattern generator (R127, R138, R361). -/

namespace Sys2Proof.Machine

/-- The FRAME_START that opens the next frame of a port reuses its slot: the recorder learns of it first (R361). -/
def State.frameStartAt (s : State) (p frameCount : Nat) : State :=
  let s := match s.boundCtx p with
    | some ctx => if s.delivers p = false then s else s.slotReused p ((s.ingest p).count % (s.frameCfg p ctx).slots)
    | none => s
  s.frameStart p frameCount

/-- CRL_FRAME_START_RX (R138): from the link, unless the pattern generator replaces it. -/
def execCrlFrameStartRx (port : Fin 16) (frameCount : Nat) (s : State) : Host.Outcome State Fault Refusal :=
  .next (if s.generated port.val then s else s.frameStartAt port.val frameCount)

/-- PATGEN_FRAME_START (R127): the generator starts a frame with the next FRAME_COUNT, at the first block position for it 10 µs after the
tick edge, or after the end of the previous frame if that is later. -/
def execPatgenFrameStart (port : Fin 16) (s : State) : Host.Outcome State Fault Refusal :=
  .next (
    let p := port.val
    let x := s.port p
    if s.generated p && s.linksLive && s.rd (Port.PORT_ENABLE p) == 1 && !s.isMember p && !x.patRunning then
      let due := max (s.tick.edgeAt + 10000) (s.patTime p x.patNext)
      let pos := max x.patNext (ceilDiv ((due - x.patEpoch) * 10) (s.blockTenths p))
      let start := if pos % 16384 = 0 then pos + 1 else pos
      let s := (s.at (s.patTime p start)).frameStartAt p x.patFrame
      s.setPort p { s.port p with patRunning := true, patLine := 0, patFrame := (x.patFrame + 1) % 2 ^ 32, patStart := start }
    else s)

end Sys2Proof.Machine
end

