-- ==== Sys2Proof/Machine/Power.lean ====
section
/-! DEFINITION. Supplies, reset, the start of the device, the watchdog, and restart through BOOT (R26, R93, R476 to R485, R497 to
R501). -/

namespace Sys2Proof.Machine

/-! ## Supplies (R497, R500, R501) -/

/-- The bank supplies in order. -/
def bankName (b : Nat) : String := ["I2CA", "I2CB", "AUD", "SYNC"].getD b ""

/-- The AON domain loses its state. -/
def State.clearAon (s : State) : State :=
  { s with
    regs := s.regs.filter fun (p : Nat × Word) => p.1 != Sys.CONTROL_RESTARTS
    pow := { s.pow with banksReleased := 0, banksHigh := 0, thermShdn := false }
    therm := {} }

/-- The supplies come: the bank supplies are sensed, and internal reset can end 20 µs later (R26, R476, R501). -/
def State.powerUp (s : State) (bankMv : List Nat) : State :=
  let s := { s with
    pow := { s.pow with
      phase := .inReset, resetEnd := s.clock + 20000, bootStart := s.clock
      banksHigh := maskOf ((List.range 4).filter fun b => decide (2500 < bankMv.getD b 0)) }
    time := { base := 0, ref := s.clock }
    therm := { s.therm with lastSample := s.clock, lastLife := s.clock } }
  (s.wr Sys.LAST_RESTART_CAUSE 0).setGlobal .boot

/-- POWER_LOSS (R497, R500): 1 µs or longer takes the device to OFF. The Ledger write in progress is lost or not; writes that no
flush covers are lost or not (R379). The AON domain loses its state too. -/
def execPowerLoss (ns : Nat) (s : State) : Host.Outcome State Fault Refusal :=
  .next (
    if ns < 1000 ∨ s.pow.global = .off then s
    else
      let (k, s) := s.draw
      let s := if Config.openBool k then s.finishLedger else s
      s.losePower.bootReset.clearAon.setGlobal .off)

/-- POWER_ON_SUPPLIES_VALID (R26, R501): the bank supplies are sensed, and the device leaves OFF for BOOT. A bank supply beyond the
absolute maximum of Table 20-1 is a fault: the device can be damaged (R496). -/
def execPowerOnSuppliesValid (bankMv : List Nat) (s : State) : Host.Outcome State Fault Refusal :=
  if bankMv.any fun v => decide (3800 < v) then .fault .absoluteMaximum
  else .next (if s.pow.global ≠ .off then s else s.powerUp bankMv)

/-- BANK_SUPPLY_FAULT (R501): every ball of the bank goes to high impedance. -/
def execBankSupplyFault (bank : Fin 4) (ns : Nat) (s : State) : Host.Outcome State Fault Refusal :=
  .next (
    if ns < 1000 ∨ s.pow.global = .off ∨ bit s.pow.banksReleased bank.val then s
    else ({ s with pow := { s.pow with banksReleased := setFlag s.pow.banksReleased bank.val } }).pin ("VDDIO_" ++ bankName bank.val) 2)

/-- BANK_SUPPLY_RETURN (R501): the balls are driven again. -/
def execBankSupplyReturn (bank : Fin 4) (s : State) : Host.Outcome State Fault Refusal :=
  .next (
    if bit s.pow.banksReleased bank.val then
      ({ s with pow := { s.pow with banksReleased := clearFlag s.pow.banksReleased bank.val } }).pin ("VDDIO_" ++ bankName bank.val) 1
    else s)

/-! ## Reset (R476) -/

/-- RST_N_LOW (R476): a pulse of 1 µs or longer. The Ledger write in progress completes; from THERMAL_OFF, THERM_SHDN goes low and
the cause is 5. -/
def execRstNLow (ns : Nat) (s : State) : Host.Outcome State Fault Refusal :=
  .next (
    if ns < 1000 ∨ s.pow.global = .off then s
    else
      let hot := s.pow.global = .thermalOff
      let s := s.finishLedger.enterBoot (if hot then 5 else 1)
      let s := s.at (s.clock + ns)
      let s := { s with
        pow := { s.pow with resetEnd := s.clock + 20000, bootStart := s.clock, thermShdn := false }
        time := { base := 0, ref := s.clock } }
      let s := (s.pin "RESET_STATE" 1).pin "CORE_VID" 5
      if hot then s.pin "THERM_SHDN" 0 else s)

/-! ## The end of internal reset (R476, R479, R482, R80) -/

/-- Reads the board configuration block; none where it is invalid (R479, Tables 16-1 and 19-2). -/
def readBoard (b : List Byte) : Option BoardCfg :=
  let c : BoardCfg := {
    density := leAt b 4 1, dataWidth := leAt b 5 1, checkWidth := leAt b 6 1, ranks := leAt b 7 1
    tRp := leAt b 40 4, tRfc1 := leAt b 44 4, tRfcSb := leAt b 48 4, tRfm := leAt b 52 4 }
  let widths := (c.dataWidth, c.checkWidth)
  let gib := 16 * c.ranks * (32 / max 1 c.dataWidth) * c.density / 8
  if decide (64 ≤ b.length) && leAt b 0 2 == 0x4342 && leAt b 2 2 == 1 && leAt b 60 4 == (crc32 (b.take 60)) &&
      (c.density == 16 || c.density == 32 || c.density == 64) && (c.ranks == 1 || c.ranks == 2) &&
      (widths == (4, 4) || widths == (8, 8) || widths == (16, 8)) && decide (64 ≤ gib ∧ gib ≤ 512) then some c
  else none

/-- The record of Restart-rule values: ID and value of each, 4 bytes each (Table 19-5). -/
def restartRecord (t : Table Nat) : List Byte := t.flatMap fun (e : Nat × Nat) => leBytes 4 e.1 ++ leBytes 4 e.2

/-- The Restart-rule values of a record. -/
def restartTable (b : List Byte) : Table Nat :=
  (List.range (b.length / 8)).foldl (fun (t : Table Nat) k => tins t (leAt b (8 * k) 4) (leAt b (8 * k + 4) 4)) []

/-- Stores a committed Restart-rule value (Table 03-6): HEAT_POWER in its own region. -/
def State.restartStore (s : State) (id v : Nat) : State :=
  let s := { s with pow := { s.pow with restartValues := tins s.pow.restartValues id v } }
  if id = Th.HEAT_POWER then s.ledgerPut 8 9 (restartRecord [(id, v)])
  else s.ledgerPut 26 27 (restartRecord (tdel s.pow.restartValues Th.HEAT_POWER))

/-- A Restart-rule value at the entry to BOOT (Table 03-6): a readable one is in force, a write-only one is carried out
(R424, R435). -/
def State.restartApply (s : State) (id v : Nat) : State :=
  if id = Dram.MARK_CLEAR then
    let gone (k : Nat) : Bool := k / 2 == v
    let s := { s with dram := { s.dram with marks := s.dram.marks.filter fun (e : Nat × Nat) => !gone e.1 } }
    let s := s.markParam (v / 2)
    s.ledgerPut 6 7 s.dramRecord
  else if id = Dram.CHANNEL_REENABLE then
    let s := s.wr Dram.FAILED_CHANNELS (writeOneClears (s.rd Dram.FAILED_CHANNELS) v)
    s.ledgerPut 6 7 s.dramRecord
  else s.wr id v

/-- The write-only Restart-rule parameters. -/
def restartOnce : List Nat := [Dram.MARK_CLEAR, Dram.CHANNEL_REENABLE]

/-- The Restart-rule values of the Ledger apply, and the requests among them are cleared (R80). -/
def State.applyRestart (s : State) : State :=
  let stored := restartTable ((s.ledgerRead 26 27).getD [])
  let all := restartTable ((s.ledgerRead 8 9).getD []) ++ stored
  let s := all.foldl (fun (t : State) (e : Nat × Nat) => t.restartApply e.1 e.2) s
  let keep := stored.filter fun (e : Nat × Nat) => !restartOnce.contains e.1
  let held : Table Nat := all.foldl (fun (t : Table Nat) (e : Nat × Nat) => if restartOnce.contains e.1 then t else tins t e.1 e.2) []
  let s := { s with pow := { s.pow with restartValues := held } }
  if keep.length = stored.length then s else s.ledgerPut 26 27 (restartRecord keep)

/-- What the Ledger gives at BOOT (Table 19-5). -/
def State.readLedger (s : State) : State :=
  let s := match s.ledgerRead 0 1 with
    | some b => { s with nmp := { s.nmp with ownerKey := b } }.wr Sys.OWNER_KEY_STATE 1
    | none => { s with nmp := { s.nmp with ownerKey := zeroBytes 32 } }.wr Sys.OWNER_KEY_STATE 0
  let s := match s.ledgerRead 2 3 with
    | some b => s.ethRestore b
    | none => s
  let s := match s.ledgerRead 4 5 with
    | some b => s.bootRestore b
    | none => s
  let s := match s.ledgerRead 6 7 with
    | some b => s.dramRestore b
    | none => s
  let s := match s.ledgerRead 10 13 with
    | some b => s.wrBlob Obs.LEDGER_FAULT_RECORD b
    | none => s
  let s := match ledgerNewest s.pow.ledger 14 17 with
    | some x => s.wr Th.SHUTDOWN_COUNT x.seq
    | none => s
  s.lifeRestore.applyRestart

/-- What the boot ROM learns of a slot from its header: 7 where it is valid and has failed 3 times (Table 19-9). -/
def State.readHeader (s : State) (slot : Nat) (h : List Byte) : State :=
  let status := slotHeaderStatus slot (s.rd Obs.SEC_VERSION_FLOOR) h
  let skipped := decide (slot ≠ 1 ∧ status = 0 ∧ 3 ≤ s.rd (Obs.BOOT_FAILS slot))
  let s := ({ s with pow := { s.pow with headers := tins s.pow.headers slot h } }).slotParams slot (if skipped then 7 else status) h
  if status = 0 then s else s.traceHeader slot

/-- What stands on the board shows in the parameters: the bank supplies, the DRAM, the SSDs. -/
def State.readBoardParams (s : State) (c : BoardCfg) : State :=
  let volt (b : Nat) : Nat := if bit s.pow.banksHigh b then 1 else 0
  let s := s.wrAll ((Dram.ORGANISATION, c.density * 2 ^ 24 + c.dataWidth * 2 ^ 16 + c.ranks * 2 ^ 8) :: (Aud.AUD_BANK_VOLTAGE, volt 2) ::
    (List.range 12).map fun k => (I2c.BANK_VOLTAGE k, volt (k / 6)))
  s.media.ssds.foldl (fun (t : State) (e : Nat × Ssd) => t.memberShow e.1 e.2.info) s

/-- INTERNAL_RESET_END (R476): the boot ROM reads the board configuration block, the Ledger and the headers, and selects an
image, once the die is cool enough after THERMAL_OFF (R466). -/
def execInternalResetEnd (bcb : List Byte) (headers : List (List Byte)) (crcErrors : List Nat) (s : State) :
    Host.Outcome State Fault Refusal :=
  .next (
    if s.pow.global ≠ .boot ∨ s.pow.phase ≠ .inReset then s
    else
      let s := s.at s.pow.resetEnd
      let lost := (crcErrors.eraseDups).filter fun (l : Nat) => (tfind s.pow.ledger l).isSome
      let s := { s with pow := { s.pow with
        clocksStopped := false, pinsReset := false, ledger := s.pow.ledger.filter fun (e : Nat × LedgerRec) => !lost.contains e.1 } }
      let s := { s with obs := { s.obs with nextSync := s.clock + s.rd Obs.TRACE_SYNC_INTERVAL * 1000000 } }
      let s := s.countBy Obs.LEDGER_CRC_ERRORS lost.length
      match readBoard bcb with
      | none => ({ s with pow := { s.pow with phase := .badConfig } }).bootTrace 0 1 true
      | some c =>
        let s := ({ s with pow := { s.pow with board := c } }).bootTrace 0 1 false
        let s := s.readLedger.readBoardParams c
        let s := [1, 2, 3].foldl (fun (t : State) k => t.readHeader k (headers.getD (k - 1) [])) s
        if s.pow.afterThermalOff ∧ s.rdS Th.SHUTDOWN_THRESHOLD - s.rdS Th.HOT_HYSTERESIS ≤ s.rdS Th.JUNCTION then
          { s with pow := { s.pow with phase := .cooling } }
        else s.selectImage)

/-! ## Negor's start and the watchdog (R478, R481, R483) -/

/-- Negor has started to execute in this state. -/
def State.negorExecutes (s : State) : Bool := s.netRuns && s.pow.phase == .started

/-- What a raised floor makes of the other images (R481): a valid or skipped one below it is below the floor. -/
def State.belowFloor (s : State) : State :=
  [2, 3].foldl (fun (t : State) k =>
    if (t.rd (Obs.SLOT_STATUS k) = 0 ∨ t.rd (Obs.SLOT_STATUS k) = 7) ∧ t.rd (Obs.SLOT_SEC_VERSION k) < t.rd Obs.SEC_VERSION_FLOOR then
      t.wr (Obs.SLOT_STATUS k) 5 else t) s

/-- What a confirmed start does for its slot: the floor is raised by a slot 2 or 3, and its failures return to 0. -/
def State.confirmSlot (s : State) : State :=
  let slot := s.rd Obs.BOOT_SLOT
  let sec := s.rd (Obs.SLOT_SEC_VERSION slot)
  let floor := s.rd Obs.SEC_VERSION_FLOOR
  let raised := if slot ≠ 1 ∧ floor < sec then sec else floor
  if raised = floor ∧ s.rd (Obs.BOOT_FAILS slot) = 0 then s
  else (s.bootStore [(Obs.SEC_VERSION_FLOOR, raised), (Obs.BOOT_FAILS slot, 0)]).belowFloor

/-- NEGOR_START_CONFIRM (R483, R478): the first start of a BOOT, or the end of a watchdog restart. -/
def execNegorStartConfirm (s : State) : Host.Outcome State Fault Refusal :=
  .next (
    if s.negorExecutes = false then s
    else if s.pow.restarting then
      let s := { s with pow := { s.pow with restarting := false, unconfirmed := 0, confirmed := true } }
      let s := s.confirmSlot.resumeTarget
      if s.pow.ledgerQueue.isEmpty then s else s.maintAsk 3 0
    else if s.pow.confirmed then s
    else
      let s := { s with pow := { s.pow with confirmed := true } }
      s.confirmSlot.afterShutdown.noteNmp)

/-- BOOT_CONFIRM_TIMEOUT (R483): a boot failure; the boot ROM selects again. DESIGN CHOICE: it does so through the whole of BOOT, and
LAST_RESTART_CAUSE stays as it is. -/
def execBootConfirmTimeout (s : State) : Host.Outcome State Fault Refusal :=
  .next (
    if s.negorExecutes && !s.pow.confirmed && !s.pow.restarting then
      let s := s.at s.pow.confirmDue
      ((s.bootFailure (s.rd Obs.BOOT_SLOT)).flushLedger).enterBoot (s.rd Sys.LAST_RESTART_CAUSE)
    else s)

/-- No reply to a request of a closed session leaves any more (R24, R265, R287, R366). -/
def State.dropReplies (s : State) : State :=
  { s with
    nmp := { s.nmp with waits := [], partials := [], buffers := s.nmp.buffers.map fun (e : Nat × Buffer) => (e.1, { e.2 with waiting := none }) }
    expo := s.expo.map fun (e : Nat × ExpSt) => (e.1, { e.2 with pend := e.2.pend.map fun (c : Change) => { c with r := none } })
    buses := s.buses.map fun (e : Nat × BusSt) => (e.1, { e.2 with hosts := e.2.hosts.map fun (h : HostList) => { h with r := none } })
    heads := s.heads.map fun (e : Nat × HeadSt) => (e.1, { e.2 with groups := e.2.groups.map fun (g : HeadGroup) => { g with r := none } })
    media := { s.media with clips := s.media.clips.map fun (e : Nat × Clip) => (e.1, { e.2 with stopReq := none }) } }

/-- A control-plane restart (R93). -/
def State.controlRestart (s : State) : State :=
  let s := (tkeys s.nmp.sessions).foldl (fun (t : State) k => t.closeSession k true) s.dropReplies
  (s.count Sys.CONTROL_RESTARTS).wr Sys.LAST_RESTART_CAUSE 3

/-- WATCHDOG_EXPIRY (R478): Negor restarts from protected control memory; every other block goes on (R23). -/
def execWatchdogExpiry (s : State) : Host.Outcome State Fault Refusal :=
  .next (
    if s.negorExecutes && !s.pow.restarting then
      let s := s.controlRestart
      { s with pow := { s.pow with restarting := true, unconfirmed := 0, confirmDue := s.clock + 300000000 } }
    else s)

/-- RESTART_CONFIRM_TIMEOUT (R478, R483): another restart; after the third in a row, a boot failure of the running slot and BOOT. -/
def execRestartConfirmTimeout (s : State) : Host.Outcome State Fault Refusal :=
  .next (
    if s.negorExecutes && s.pow.restarting then
      let s := s.at s.pow.confirmDue
      if 2 ≤ s.pow.unconfirmed then ((s.bootFailure (s.rd Obs.BOOT_SLOT)).flushLedger).enterBoot 3
      else
        let s := s.controlRestart
        { s with pow := { s.pow with unconfirmed := s.pow.unconfirmed + 1, confirmDue := s.clock + 300000000 } }
    else s)

/-- DEVICE_RESTART_DELAY_END (R477). -/
def execDeviceRestartDelayEnd (s : State) : Host.Outcome State Fault Refusal :=
  .next (
    match s.pow.restartDue with
    | some due => if s.negorExecutes then ((s.at due).flushLedger).enterBoot 2 else s
    | none => s)

end Sys2Proof.Machine
end

