-- ==== Sys2Proof/Machine/Ring.lean ====
section
/-! DEFINITION. The Tick Ring (R330 to R336). -/

namespace Sys2Proof.Machine

/-! The block types of Table 12-7. -/
namespace RingType
def IDLE : Nat := 0x1E
def TICK : Nat := 0x2D
def TIME_LO : Nat := 0x39
def TIME_HI : Nat := 0x4E
def EVENT : Nat := 0x55
def DELAY_REQ : Nat := 0x66
def DELAY_RESP : Nat := 0x78
def STATUS : Nat := 0xD2
end RingType

/-- Sends a control block: its fields stand in payload bits [63:8], the type in [7:0] (R331). -/
def State.ringSend (s : State) (port type fields : Nat) : State := s.emit (.ringBlock port type (fields * 256 + type))

/-- Ring ports that are UP. -/
def State.ringUp (s : State) : List Nat := (List.range 4).filter fun p => s.rd (Ring.RING_PORT_STATE p) == 3

/-- The device takes its tick from the ring (R330). -/
def State.follower (s : State) : Bool := s.rd Tick.TICK_SOURCE == 4

/-- Hops to a root that a neighbour reports. -/
def State.neighbourHops (s : State) (p : Nat) : Nat := bits (s.rd (Ring.NEIGHBOUR_STATUS p)) 39 24

/-- The ROOT_ID of a port: that of its latest TIME_HI; where none has come, the neighbour's own RING_ID if it is a root. DESIGN
CHOICE: a root not known yet counts behind every known one. -/
def State.portRoot (s : State) (p : Nat) : Nat :=
  match (s.ringPort p).root with
  | some r => r
  | none => if s.neighbourHops p = 0 then bits (s.rd (Ring.NEIGHBOUR_STATUS p)) 55 40 else 65536

/-- The parent port by R330: fewest hops, then the lowest ROOT_ID, then the lowest port number. -/
def State.bestParent (s : State) : Option Nat :=
  (s.ringUp.filter fun p => s.neighbourHops p != 0xFFFF && (s.ringPort p).status).foldl (fun best p => match best with
    | none => some p
    | some b => if keyLess [s.neighbourHops p, s.portRoot p, p] [s.neighbourHops b, s.portRoot b, b] then some p else best) none

/-- The role of an UP port (R330, Table 12-12): it leads to a child where it is the neighbour's parent port, and else its link is a closing link.
DESIGN CHOICE: no block of Table 12-7 says which port a neighbour takes as its parent; RING_STATUS_RX brings it. -/
def State.ringRole (s : State) (p : Nat) : Nat :=
  if s.rd (Ring.RING_PORT_STATE p) ≠ 3 then 0
  else if s.ring.parent = some p then 1
  else if (s.ringPort p).child then 2
  else 3

/-- ROOT_CONFLICT: a device that sees two ROOT_ID values says so, once for each other value (R330). -/
def State.rootConflict (s : State) : State :=
  let own := s.rd Ring.ROOT_ID
  let other := (s.ringUp.map s.portRoot).find? fun r => decide (r < 65536) && r != own && own != 0
  match other with
  | some r =>
    if s.ring.conflict = some r then s
    else ({ s with ring := { s.ring with conflict := some r } }).tickNotify 7 0 s.tickSeq r
  | none => { s with ring := { s.ring with conflict := none } }

/-- Selects the parent and everything that follows from it: RING_HOPS, ROOT_ID and the roles (R330). -/
def State.ringSelect (s : State) : State :=
  let old := s.ring.parent
  let new := if s.follower then s.bestParent else none
  let edge := if old = new then s.ring.edge else none
  let s := { s with ring := { s.ring with parent := new, adopted := s.ring.adopted && old == new, edge := edge } }
  let s := if s.follower then
      (match new with
       | some p => s.wrAll [(Ring.RING_HOPS, min 0xFFFF (s.neighbourHops p + 1)), (Ring.ROOT_ID, s.portRoot p % 65536)]
       | none => s.wrAll [(Ring.RING_HOPS, 0xFFFF), (Ring.ROOT_ID, 0)])
    else s.wrAll [(Ring.RING_HOPS, 0), (Ring.ROOT_ID, s.rd Ring.RING_ID)]
  let s := (List.range 4).foldl (fun t p => t.wr (Ring.RING_PORT_ROLE p) (t.ringRole p)) s
  let s := if new.isSome then s.sourceReturned 4 else s.sourceStopped 4
  s.rootConflict

/-- Changes the state of a ring port, with its NOTIFY (Table 12-8, R337). -/
def State.ringTo (s : State) (p st : Nat) : State :=
  if s.rd (Ring.RING_PORT_STATE p) = st then s else (s.wr (Ring.RING_PORT_STATE p) st).linkNotify 0x0401 p 0 st

/-- A port leaves UP (R335): where it is the parent port the ring is broken, the Tick Generator enters HOLDOVER at once, and a
parent is selected again; RING_BREAKS and REPARENTS count the break, whether or not a path to a root remains. -/
def State.ringLeave (s : State) (p st : Nat) : State :=
  let up := decide (s.rd (Ring.RING_PORT_STATE p) = 3)
  let s := (s.ringTo p st).setRingPort p { nextReq := (s.ringPort p).nextReq }
  if up then
    if s.ring.parent = some p then
      ((((s.count Ring.RING_BREAKS).count Ring.REPARENTS).sourceStopped 4).linkNotify 0x0402 p 0 0).ringSelect
    else s.ringSelect
  else s

/-- A port in MEASURE goes UP after 16 delay measurements and one STATUS (Table 12-8). -/
def State.ringMeasured (s : State) (p : Nat) : State :=
  if s.rd (Ring.RING_PORT_STATE p) = 2 ∧ (s.ringPort p).delays.length = 16 ∧ (s.ringPort p).status then
    (s.ringTo p 3).ringSelect
  else s

/-- The rate check of STATUS: the low 8 bits of N XOR D (Table 12-7). -/
def State.rateCheck (s : State) : Nat := (s.rd Tick.TICK_RATE_N ^^^ s.rd Tick.TICK_RATE_D) % 256

/-- The parent runs at the follower's own rate as far as STATUS tells (R332). -/
def State.ringRateOk (s : State) : Bool :=
  match s.ring.parent with
  | some p => bits (s.rd (Ring.NEIGHBOUR_STATUS p)) 15 8 == s.rateCheck
  | none => false

/-- The STATUS fields of the device (Table 12-7), as payload bits [63:8]. -/
def State.statusFields (s : State) : Nat :=
  s.rd Ring.RING_ID * 2 ^ 40 + s.rd Ring.RING_HOPS * 2 ^ 24 + s.pow.global.code * 2 ^ 20 + s.rd Tick.TICK_STATE * 2 ^ 16 +
    s.rateCheck * 2 ^ 8

/-- What a commit of RING_ENABLE does (Table 12-8). -/
def State.ringEnable (s : State) : State :=
  (List.range 4).foldl (fun t p =>
    let st := t.rd (Ring.RING_PORT_STATE p)
    if bit (t.rd Ring.RING_ENABLE) p then (if st = 0 then t.ringTo p 1 else t) else t.ringLeave p 0) s

/-- RING_BLOCK_LOCK (R335). -/
def execRingBlockLock (port : Fin 4) (s : State) : Host.Outcome State Fault Refusal :=
  .next (
    let p := port.val
    if s.netRuns ∧ s.rd (Ring.RING_PORT_STATE p) = 1 then
      (s.setRingPort p { nextReq := (s.ringPort p).nextReq }).ringTo p 2
    else s)

/-- RING_LINK_LOSS (R335, Table 12-8). -/
def execRingLinkLoss (port : Fin 4) (headerErrors : Nat) (s : State) : Host.Outcome State Fault Refusal :=
  .next (
    let p := port.val
    let s := s.countBy (Ring.RING_HEADER_ERR p) headerErrors
    if s.rd (Ring.RING_PORT_STATE p) = 3 then (s.count (Ring.RING_LINK_LOSS p)).ringLeave p 1
    else if s.rd (Ring.RING_PORT_STATE p) = 2 then s.ringLeave p 1
    else s)

/-- RING_STATUS_RX (R331): the neighbour's status, and parent selection under R330. -/
def execRingStatusRx (port : Fin 4) (block : BitVec 64) (child : Bool) (s : State) : Host.Outcome State Fault Refusal :=
  .next (
    let p := port.val
    if s.rd (Ring.RING_PORT_STATE p) < 2 then s
    else
      let s := (s.wr (Ring.NEIGHBOUR_STATUS p) (block.toNat / 256)).setRingPort p { s.ringPort p with status := true, child := child }
      let s := (s.ringMeasured p).ringSelect
      if s.tick.src = 4 ∧ s.ring.parent = some p ∧ !s.ringRateOk then s.sourceChanged 4 else s)

/-- RING_DELAY_REQ_RX (R332). -/
def execRingDelayReqRx (port : Fin 4) (block : BitVec 64) (turnaround : Nat) (s : State) : Host.Outcome State Fault Refusal :=
  .next (
    if s.rd (Ring.RING_PORT_STATE port.val) < 2 then s
    else s.ringSend port.val RingType.DELAY_RESP (bits block.toNat 15 8 * 2 ^ 48 + turnaround % 2 ^ 48))

/-- The hop delay of one measurement in ps: (round trip − TURNAROUND) ÷ 2, the round trip in 1/64 UI at 10.3125 Gbaud and the
turnaround in 1/64 ns (R332). -/
def hopDelayPs (roundTrip turnaround : Nat) : Nat := (roundTrip * 1000000 * 4 / 41250 - turnaround * 1000) / 128

/-- RING_DELAY_RESP_RX (R332, R335): HOP_DELAY is the mean of the last 16 measurements. -/
def execRingDelayRespRx (port : Fin 4) (block : BitVec 64) (roundTrip : Nat) (s : State) : Host.Outcome State Fault Refusal :=
  .next (
    let p := port.val
    let x := s.ringPort p
    if s.rd (Ring.RING_PORT_STATE p) < 2 ∨ x.req ≠ some (bits block.toNat 63 56) then s
    else
      let ds := (hopDelayPs roundTrip (bits block.toNat 55 8) :: x.delays).take 16
      let s := s.setRingPort p { x with delays := ds, req := none }
      (s.wr (Ring.HOP_DELAY p) (ds.sum / ds.length)).ringMeasured p)

/-- RING_PERIODIC_SEND (R331, R332): STATUS on every enabled port, a DELAY_REQ where the link is measured, and IDLE, of which one block stands for
all that fill the line until the next one is sent. -/
def execRingPeriodicSend (s : State) : Host.Outcome State Fault Refusal :=
  .next (
    if s.netRuns then
      let s := s.at (s.ring.sentAt + 1000000)
      let s := { s with ring := { s.ring with sentAt := s.clock } }
      (List.range 4).foldl (fun t p =>
        if t.rd (Ring.RING_PORT_STATE p) = 0 then t
        else
          let t := t.ringSend p RingType.STATUS t.statusFields
          let x := t.ringPort p
          let t := if t.rd (Ring.RING_PORT_STATE p) < 2 then t
            else (t.setRingPort p { x with req := some x.nextReq, nextReq := (x.nextReq + 1) % 256 }).ringSend p RingType.DELAY_REQ x.nextReq
          t.ringSend p RingType.IDLE 0) s
    else s)

/-! ## Ticks and time -/

/-- Sends a tick to every child with its TIME blocks (R331, R332). OFFSET is the edge before the block's first bit; where block
boundaries lie is not the spec's to say, so it is a free value. -/
def State.ringTick (s : State) (hops seq time epoch root : Nat) : State :=
  (List.range 4).foldl (fun t p =>
    if t.ringRole p = 2 then
      let (k, t) := t.draw
      let t := t.ringSend p RingType.TICK ((Config.openByte k).toNat * 2 ^ 48 + hops * 2 ^ 32 + seq)
      let t := t.ringSend p RingType.TIME_LO (bits time 47 0)
      t.ringSend p RingType.TIME_HI (root * 2 ^ 40 + epoch * 2 ^ 24 + bits time 63 48)
    else t) s

/-- The root sends each of its ticks with HOPS 0 (R330, R331). -/
def State.ringRootTick (s : State) : State :=
  if s.follower then s else s.ringTick 0 s.tickSeq s.deviceTime s.epoch (s.rd Ring.ROOT_ID)

/-- The first LOCKED tick of a follower adopts the Tick Sequence and Time Epoch of the ring (R332). -/
def State.ringAdopt (s : State) (seq epoch : Nat) : State :=
  if s.rd Tick.TICK_STATE = TickState.LOCKED ∧ s.tick.src = 4 ∧ !s.ring.adopted then
    let s := { s with ring := { s.ring with adopted := true } }
    let own := s.tickSeq
    let s := s.wr Time.TIME_EPOCH epoch
    if own = seq then s
    else ((s.wr Tick.TICK_SEQUENCE seq).count Ring.TICK_SEQ_JUMPS).tickNotify 6 ((seq : Int) - own) seq 0
  else s

/-- A difference in ps taken into half a tick period on either side. -/
def State.wrapPeriod (s : State) (d : Int) : Int :=
  let p : Int := ((1000 * s.period : Nat) : Int)
  if p = 0 then d
  else
    let r := d % p
    if p < 2 * r then r - p else r

/-- RING_TICK_RX (R332, R333, R321): on the parent port the parent's edge is the arrival − OFFSET − hop delay; the error of the
device's own edge is reported, its next edge steers onto the parent's, the tick goes on to the children, and Device Time follows under TIME_SOURCE
RING. -/
def execRingTickRx (port : Fin 4) (tick lo hi : BitVec 64) (ps : Fin 1000) (s : State) : Host.Outcome State Fault Refusal :=
  .next (
    let p := port.val
    let hops := bits tick.toNat 55 40
    let seq := bits tick.toNat 39 8
    let time : Nat := bits lo.toNat 55 8 + bits hi.toNat 23 8 * 2 ^ 48
    let epoch := bits hi.toNat 47 32
    let root := bits hi.toNat 63 48
    if s.rd (Ring.RING_PORT_STATE p) ≠ 3 then s
    else
      let s := (s.setRingPort p { s.ringPort p with root := some root }).ringSelect
      if s.ring.parent ≠ some p then s
      else
        let edge : Int := ((s.clock * 1000 + ps.val : Nat) : Int) - ((bits tick.toNat 63 56 * 1000 / 32 : Nat) : Int) -
          ((s.rd (Ring.HOP_DELAY p) : Nat) : Int)
        let err := s.wrapPeriod (((s.tick.edgeAt * 1000 : Nat) : Int) - edge)
        let s := { s with ring := { s.ring with edge := some edge } }
        let s := s.wrS Ring.TICK_ALIGN_ERROR (clamp (-2147483647) 2147483647 err)
        let s := s.ringAdopt seq epoch
        let s := if hops = 0xFFFF then s.count Ring.HOP_EXHAUSTED else s.ringTick (hops + 1) seq time epoch root
        if s.rd Time.TIME_SOURCE = 2 then s.servo ((deviceTimeAt s.time (edge / 1000).toNat : Int) - (time : Int)) else s)

/-! ## Events (R334) -/

/-- The fields of an EVENT block, as payload bits [63:8]. -/
def eventFields (origin hops seq ch : Nat) : Nat := origin * 2 ^ 40 + hops * 2 ^ 24 + seq * 2 ^ 8 + ch

/-- Fires a ring channel: the next EVENT_SEQ of the channel, ORIGIN the device, HOPS 0, on every UP port. -/
def State.ringFire (s : State) (ch : Nat) : State :=
  let q := tget s.ring.eventSeq ch 0
  let s := { s with ring := { s.ring with eventSeq := tset s.ring.eventSeq ch 0 ((q + 1) % 65536) } }
  let s := s.count Ring.EVENTS_TX
  s.ringUp.foldl (fun t p => t.ringSend p RingType.EVENT (eventFields (s.rd Ring.RING_ID) 0 q ch)) s

/-- Origins the device tracks (R334). -/
def originLimit : Nat := 4096

/-- RING_EVENT_SEND (R334): a channel that the Event Fabric has triggered is sent, and its task input is busy no more. -/
def execRingEventSend (c : Fin 64) (s : State) : Host.Outcome State Fault Refusal :=
  .next (if s.netRuns ∧ s.fab.ringTx.contains c.val then
      ({ s with fab := { s.fab with ringTx := s.fab.ringTx.filter fun (x : Nat) => x != c.val } }).ringFire c.val
    else s)

/-- RING_EVENT_RX (R334, R333). -/
def execRingEventRx (port : Fin 4) (block : BitVec 64) (s : State) : Host.Outcome State Fault Refusal :=
  .next (
    let b := block.toNat
    let origin := bits b 63 48
    let hops := bits b 47 32
    let seq := bits b 31 16
    let ch := bits b 13 8
    if s.rd (Ring.RING_PORT_STATE port.val) ≠ 3 then s
    else if origin = s.rd Ring.RING_ID then s.count Ring.RING_RETURN
    else
      let seen := (s.ring.origins.find? fun o => o.1 == origin).map Prod.snd
      let last := seen.bind fun t => tfind t ch
      let dup : Bool := match last with | some q => !later 16 seq q | none => false
      let mine := if dup then seen.getD [] else tins (seen.getD []) ch seq
      let origins := ((origin, mine) :: s.ring.origins.filter fun o => o.1 != origin).take originLimit
      let s := { s with ring := { s.ring with origins := origins } }
      if dup then s.count Ring.RING_DUP
      else
        let s := if bit (s.rd Ring.EVENT_RX_MASK) ch then (s.count Ring.EVENTS_RX).fire (128 + ch) else s
        if hops = 0xFFFF then s.count Ring.HOP_EXHAUSTED
        else (s.ringUp.filter fun p => p != port.val).foldl (fun t p =>
          t.ringSend p RingType.EVENT (eventFields origin (hops + 1) seq ch)) s)

/-- What a committed value of group 0x43 does beyond being held. -/
def ringApply (id v : Nat) (s : State) : State :=
  if id = Ring.RING_ENABLE then s.ringEnable.ringSelect
  else if id = Ring.RING_ID then s.ringSelect
  else if id = Ring.EVENT_FIRE then (setBits 64 v).foldl (fun t c => t.ringFire c) s
  else s

end Sys2Proof.Machine
end

