-- ==== Sys2Proof/Machine/Apply.lean ====
section
/-! DEFINITION. A commit as one unit (R41, R76 to R80, R200, R257, R299): its checks in their order, and what each entry does under its
own commit rule. -/

namespace Sys2Proof.Machine

/-! ## Entries -/

/-- An entry of a commit: the bytes of a BLOB that a buffer holds are read by now (R77). -/
structure CEntry where
  id : Nat
  val : PVal
  rule : CommitRule
  deriving DecidableEq, Repr

/-- The commit rule of an ID. -/
def ruleOf (id : Nat) : CommitRule :=
  match paramOf id with
  | some p => p.commit
  | none => .immediate

/-- Whether an ID names a parameter that a host can read back. -/
def readable (id : Nat) : Bool :=
  match paramOf id with
  | some p => p.access == .rw
  | none => false

/-- A value placed in the parameters: numbers of readable parameters, and BLOBs. -/
def State.place (s : State) (e : Nat × PVal) : State :=
  match e.2 with
  | .num v => if readable e.1 && ruleOf e.1 != .restart then s.wr e.1 (if idGroup e.1 = 0x90 then fabricValue s e.1 v else v) else s
  | v => s.wrBlob e.1 (s.valBytes v)

def State.placeAll (s : State) (l : List (Nat × PVal)) : State := l.foldl State.place s

/-- Numbers as values. -/
def numVals (l : List (Nat × Nat)) : List (Nat × PVal) := l.map fun e => (e.1, PVal.num e.2)

/-- The parameters with every committed value that is not in force yet placed in them: those that wait at a head, for the DRAM speed,
for a tick edge, for a job boundary, and for a frame. -/
def State.committed (s : State) : State :=
  let s1 := s.heads.foldl (fun (t : State) (e : Nat × HeadSt) => e.2.groups.foldl (fun (u : State) (g : HeadGroup) => u.placeAll g.vals) t) s
  let s2 := s1.placeAll (numVals s.tick.dramTarget)
  let s3 := s.tick.admitted.foldl (fun (t : State) (a : Admitted) => t.placeAll a.vals) s2
  let s4 := s.ctxs.foldl (fun (t : State) (e : Nat × CtxSt) => t.placeAll e.2.waiting) s3
  s.expo.foldl (fun (t : State) (e : Nat × ExpSt) => e.2.isp.foldl (fun (u : State) (i : IspSet) => u.placeAll (numVals i.vals)) t) s4

/-- The CUSTOM parameters as a copy of a fixed profile (R55). Duiker, which has no CORE clock, is copied with the scale 0.50 and the floor
clock 750 MHz. -/
def customCopy (base : Nat) : List (Nat × Nat) :=
  let p := fixedProfile base
  [(Tick.CUSTOM_POWER_CAP, p.cap), (Tick.CUSTOM_FLOOR, p.floorCap), (Tick.CUSTOM_CLOCK_SCALE, if p.core = 0 then 0x8000 else p.scale),
    (Tick.CUSTOM_FLOOR_CLOCK, if p.core = 0 then 750 else p.floorClock),
    (Tick.CUSTOM_DRAM_SPEED, p.dramSpeed)] ++ ((List.range 5).map fun k => (Tick.CUSTOM_SHARE k, p.shares.getD k 0)) ++
  [(Tick.CUSTOM_TRF_BUDGET, p.trf), (Tick.CUSTOM_TNR_REFS, p.tnrRefs), (Tick.CUSTOM_MAX_CONTEXTS, p.maxContexts),
    (Tick.CUSTOM_SHED_ORDER, shedWord p.shedOrder)]

/-- The entries of a commit with their rules. A write of CUSTOM_BASE brings its copy with it, placed before the other entries (R55); where
the custom profile is the active one the copy changes the plan, and it is admitted. -/
def centries (s : State) (l : List (Nat × PVal)) : List CEntry :=
  let copyRule : CommitRule := if s.rd Tick.PROFILE = 4 then .admitted else .immediate
  let copies := match l.find? fun e => e.1 == Tick.CUSTOM_BASE with
    | some e => (customCopy e.2.toNat).map fun c => ({ id := c.1, val := .num c.2, rule := copyRule } : CEntry)
    | none => []
  copies ++ l.map fun e => { id := e.1, val := e.2, rule := ruleOf e.1 }

/-! ## Checks of group 0x02 (R33, R36, R37, R54, R55, R420) -/

/-- The custom profile keeps the bounds of Table 02-8. -/
def customBad (s : State) : Bool :=
  let p := s.customProfile
  decide (p.cap < p.floorCap) || decide (p.core < p.floorClock) || decide (800 < p.shares.sum) || decide (p.shares.getD 4 0 < 10) ||
    !shedOrderOk (s.rd Tick.CUSTOM_SHED_ORDER)

/-- An enabled viewfinder head whose sink has no self refresh keeps Duiker out. -/
def State.viewfinderAwake (s : State) : Bool :=
  [2, 3].any fun h => s.rd (Head.HEAD_ENABLE h) == 1 && (s.head h).hpd && !bit (s.head h).caps 0

/-- A change of profile that changes the DRAM speed, or that goes to or from Duiker, is accepted only in READY (R54); one whose default TRF
budget makes the frame of a port too large is refused (R177). -/
def profileStatus (t : Txn) : Nat :=
  let prev := t.old.committed
  let heavy := prev.profile.dramSpeed != t.cand.profile.dramSpeed || prev.duiker != t.cand.duiker
  let big := (List.range 16).any fun p => t.cand.frameTooBig p && !prev.frameTooBig p
  firstBad [failIf (heavy && t.old.pow.global != .ready) Status.CONFLICT, failIf big Status.CONFLICT,
    failIf (t.cand.duiker && !prev.duiker && t.old.viewfinderAwake) Status.CONFLICT]

/-- The checks of a group 0x02 entry beyond range. -/
def tickCheck (t : Txn) (id v : Nat) : Nat :=
  let n := t.cand.rd Tick.TICK_RATE_N
  let d := t.cand.rd Tick.TICK_RATE_D
  if id = Tick.TICK_RATE_N ∨ id = Tick.TICK_RATE_D then
    firstBad [failIf (t.old.pow.global != .ready) Status.CONFLICT, failIf (decide (n < d ∨ 1000 * d < n)) Status.RANGE]
  else if id = Tick.TICK_OFFSET then failIf (decide (1000000000 * d < 2 * (toSigned 32 v).natAbs * n)) Status.RANGE
  else if id = Tick.PROFILE then profileStatus t
  else if (customCopy 1).any (fun e => e.1 == id) then firstBad [failIf (customBad t.cand) Status.RANGE, profileStatus t]
  else if id = Tick.CUSTOM_BASE then profileStatus t
  else Status.OK

/-! ## Checks of all groups -/

/-- Entries that need a block which FAULT_HOLD has stopped (R29). DEDUCED: the actions of the recorder, and the start of a context. -/
def needsStopped (id : Nat) (v : PVal) : Bool :=
  id == Rec.MEDIA_FORMAT || id == Rec.MEDIA_REBUILD || id == Rec.CLIP_DELETE || (idGroup id == 0x50 && idNum id == 0x0044) ||
    (idGroup id == 0x20 && idNum id == 1 && v.toNat == 1)

/-- A stream that the commit would leave unable to be sent as configured (R316). -/
def breaksStream (t : Txn) : Bool := (List.range 96).any fun n => t.cand.streamConflict n && !t.old.streamConflict n

/-- The checks of one entry: those of its chapter. -/
def chapterCheck (t : Txn) (id : Nat) (v : PVal) : Nat :=
  match idGroup id with
  | 0x01 => failIf (id == Sys.BUF_POOL_SIZE && decide (v.toNat * 256 < t.old.poolUsed)) Status.CONFLICT
  | 0x02 => tickCheck t id v.toNat
  | 0x10 => linkCheck t id v
  | 0x11 => firstBad [ingestCheck t id v, failIf (t.cand.portConflict (idInst id)) Status.CONFLICT]
  | 0x12 => firstBad [ingestCheck t id v, failIf (t.cand.portConflict (idInst id)) Status.CONFLICT]
  | 0x20 => chamoisCheck t id v
  | 0x21 => firstBad [chamoisCheck t id v, failIf (breaksStream t) Status.CONFLICT]
  | 0x22 => chamoisCheck t id v
  | 0x28 => exposureCheck t id v
  | 0x30 => headCheck t id v
  | 0x40 => failIf (breaksStream t) Status.CONFLICT
  | 0x41 => streamCheck t id v.toNat
  | 0x60 => firstBad [audioCheck t id v, failIf (breaksStream t) Status.CONFLICT]
  | 0x70 => i2cCheck t id v
  | 0xA0 => thermCheck t id
  | _ => Status.OK

/-- The checks of one entry of a commit. In a WARMUP after failed training only the two requests of R435 are taken (R27). -/
def entryCheck (t : Txn) (id : Nat) (v : PVal) : Nat :=
  firstBad [failIf (t.old.pow.global == .warmup && !restartOnce.contains id) Status.NOT_READY,
    failIf (t.old.pow.global == .faultHold && needsStopped id v) Status.FAULT_HOLD,
    chapterCheck t id v, recorderCheck t id v, dramCheck t id v.toNat]

/-! ## What needs admission (R41) -/

/-- Immediate-rule parameters whose value enters a charge of admission: MTU and ancillary tickets, the commit interval, and what an
audio port moves. DEDUCED from R41. -/
def costImmediate (id : Nat) : Bool :=
  let n := idNum id
  (idGroup id == 0x40 && n == 0x000B) || (idGroup id == 0x41 && n == 0x0012) || id == Rec.COMMIT_INTERVAL ||
    (idGroup id == 0x60 && [0x0001, 0x0004, 0x0005, 0x0007, 0x0008].contains n)

/-- A commit that runs admission. -/
def admits (es : List CEntry) : Bool := es.any fun e => e.rule == .admitted || costImmediate e.id

/-! ## The Ticket rule (R252, R257) -/

/-- The Ticket-rule entries of a commit. -/
def ticketVals (es : List CEntry) : List (Nat × Nat) := (es.filter fun e => e.rule == .ticket).map fun e => (e.id, e.val.toNat)

/-- The contexts that Ticket-rule entries and their target name. -/
def State.ticketCtxs (s : State) (vals : List (Nat × Nat)) (target : Nat) : List Nat :=
  let named := vals.map fun e => if idGroup e.1 = 0x11 then s.rd (Ing.CONTEXT (idInst e.1)) else idInst e.1
  (named ++ if bit target 40 then [bits target 39 32] else []).eraseDups

/-- The port that Ticket-rule entries apply to: that of the one context they name. -/
def State.ticketPort (s : State) (vals : List (Nat × Nat)) (target : Nat) : Option Nat :=
  match s.ticketCtxs vals target with
  | [c] =>
    match s.portOf c with
    | some p => if vals.any fun e => idGroup e.1 == 0x11 && idInst e.1 != p then none else some p
    | none => none
  | _ => none

/-- The status of the Ticket-rule part of a commit, its port and its first ticket. -/
def State.ticketStatus (s : State) (vals : List (Nat × Nat)) (target : Nat) : Nat × Nat × Nat :=
  match s.ticketPort vals target with
  | none => (Status.CONFLICT, 0, 0)
  | some p =>
    let st := s.targetCheck p target
    if st ≠ Status.OK then (st, p, 0)
    else
      match s.ispTarget p target with
      | some (first, st) => (st, p, first)
      | none => (Status.TICKET_PAST, p, 0)

/-! ## The verdict on a commit -/

/-- What a commit hands to its checks and effects. -/
def State.txn (s : State) (r : Req) (op target : Nat) (es : List CEntry) : Txn :=
  { r := r, op := op, ids := es.map CEntry.id, old := s, cand := s.committed.placeAll (es.map fun e => (e.id, e.val)), target := target }

/-- The verdict of admission on a candidate plan: the early start, then the resources (R41, R197). -/
def admission (old cand : State) : Nat × List Byte :=
  if cand.earlyBad then (Status.CONFLICT, [])
  else
    match shortfalls old cand with
    | [] => (Status.OK, [])
    | l => (Status.BUDGET_EXCEEDED, shortfallPayload l)

/-- The status of a commit, the payload of a refusal, and the port and first ticket of its Ticket-rule part. -/
def commitVerdict (t : Txn) (es : List CEntry) : Nat × List Byte × Nat × Nat :=
  let st := firstBad (es.map fun e => entryCheck t e.id e.val)
  if st ≠ Status.OK then (st, [], 0, 0)
  else
    let a := if admits es then admission t.old.committed t.cand else (Status.OK, [])
    if a.1 ≠ Status.OK then (a.1, a.2, 0, 0)
    else
      match ticketVals es with
      | [] => (Status.OK, [], 0, 0)
      | vals =>
        let k := t.old.ticketStatus vals t.target
        (k.1, [], k.2.1, k.2.2)

/-! ## Effects -/

/-- Effects of group 0x01: the owner key goes to the Ledger and is in force for sessions opened from now on (R69). -/
def sysApply (id : Nat) (v : PVal) (s : State) : State :=
  if id = Sys.OWNER_KEY then
    let key := s.valBytes v
    (({ s with nmp := { s.nmp with ownerKey := key } }).wr Sys.OWNER_KEY_STATE 1).ledgerPut 0 1 key
  else s

/-- Effects of group 0x02: another source, offset or fallback order re-phases the tick without stopping it (R36). A new offset moves a
FREE tick by the difference. -/
def tickApply (t : Txn) (id v : Nat) (s : State) : State :=
  if id = Tick.TICK_SOURCE then
    let s := { s with tick := { s.tick with fallback := 0 } }
    if s.tick.src = v ∧ t.old.rd Tick.TICK_SOURCE = v then s
    else (({ s with ring := { s.ring with adopted := false } }).selectSource v).ringSelect
  else if id = Tick.TICK_OFFSET then
    let moved := toSigned 32 v - t.old.rdS Tick.TICK_OFFSET
    if s.tick.src = 0 then { s with tick := { s.tick with owed := s.tick.owed + moved } }
    else if moved = 0 then s
    else { s with tick := { s.tick with rephase := max 1 s.tick.rephase } }
  else s

/-- The effect of an entry that is in force, by its group. -/
def entryApply (t : Txn) (id : Nat) (v : PVal) (s : State) : State :=
  match idGroup id with
  | 0x01 => sysApply id v s
  | 0x02 => tickApply t id v.toNat s
  | 0x10 => linkApply t id v s
  | 0x11 => ingestApply t id v s
  | 0x12 => ingestApply t id v s
  | 0x20 => chamoisApply t id v s
  | 0x21 => chamoisApply t id v s
  | 0x22 => chamoisApply t id v s
  | 0x28 => exposureApply t id v s
  | 0x40 => ethApply id s
  | 0x41 => streamApply id v.toNat s
  | 0x42 => timeApply id v.toNat s
  | 0x43 => ringApply id v.toNat s
  | 0x50 => recorderApply t id v s
  | 0x51 => targetApply id v.toNat s
  | 0x60 => audioApply t id v s
  | 0x70 => i2cApply t id v s
  | 0x80 => dramApply id v.toNat s
  | 0x90 => fabricApply id v.toNat s
  | _ => s

/-- A value comes into the parameters: a write-only one leaves nothing there. -/
def State.install (s : State) (e : Nat × PVal) : State := if readable e.1 then s.place e else s

/-- Values come into force as one unit: every one stands before any acts (R79). Joined multicast groups that change are reported (R310). -/
def State.inForce (s : State) (t : Txn) (l : List (Nat × PVal)) : State :=
  (l.foldl (fun u e => entryApply t e.1 e.2 u) (l.foldl State.install s)).reportChanges s.groups

/-- The values that name a head. -/
def headVals (h : Nat) (l : List (Nat × PVal)) : List (Nat × PVal) := l.filter fun e => idGroup e.1 == 0x30 && idInst e.1 == h

/-- The values that name no head. -/
def otherVals (l : List (Nat × PVal)) : List (Nat × PVal) := l.filter fun e => idGroup e.1 != 0x30

/-- The values of a commit reach their heads (R299); the reply waits for each latch. -/
def State.reachHeads (s : State) (r : Req) (op edge : Nat) (l : List (Nat × PVal)) : State :=
  (List.range 4).foldl (fun (t : State) h =>
    match headVals h l with
    | [] => t
    | vals =>
      let t := if t.nmp.waits.any (fun w => w.r == r) then t.hold { r := r, op := op, edge := edge, status := Status.OK, why := .headLatch h } else t
      t.headReach h (some r) edge vals) s

/-- The entries of one rule, as values. -/
def ofRule (k : CommitRule) (es : List CEntry) : List (Nat × PVal) := (es.filter fun e => e.rule == k).map fun e => (e.id, e.val)

/-- The Tick Sequence of the next edge: 0 before the first one (R35). -/
def State.nextEdge (s : State) : Nat := if s.tick.first then 0 else (s.tickSeq + 1) % 2 ^ 32

/-- A Boundary-rule value waits for a job boundary; a 3D LUT has a slot of its own (R201, R229). -/
def boundaryApply (r : Req) (op : Nat) (s : State) (e : Nat × PVal) : State :=
  if idGroup e.1 = 0x21 ∧ e.1 = Rend.LUT3D (idInst e.1) (rendOf e.1) then s.lutCommit r op e.1 e.2 else s.awaitBoundary e.1 e.2

/-- The parameters that make up the active profile. -/
def profileIds : List Nat := Tick.PROFILE :: (customCopy 1).map Prod.fst

/-- An admitted commit changes the DRAM speed, or changes the profile behind such a change: it is not in force at the next tick edge
(R54). -/
def State.speedChange (s : State) (t : Txn) (vals : List (Nat × PVal)) : Bool :=
  vals.any (fun e => profileIds.contains e.1) &&
    (s.tick.dramChange || s.tick.admitted.any Admitted.slow || s.profile.dramSpeed != t.cand.profile.dramSpeed)

/-- The admitted commits that come into force at the next tick edge. -/
def State.plansDue (s : State) : Nat := (s.tick.admitted.filter fun a => !a.slow).length

/-- The part of a commit that waits for the next tick edge (R41). The reply waits for a change of the DRAM speed (R54) and for head
values (R42). -/
def State.queueAdmitted (s : State) (t : Txn) (es : List CEntry) (edge : Nat) : State :=
  if admits es then
    let vals := ofRule .admitted es
    let slow := s.speedChange t vals
    let w (why : WaitFor) : Wait := { r := t.r, op := t.op, edge := edge, status := Status.OK, why := why }
    let s := { s with tick := { s.tick with
      admitted := s.tick.admitted ++ [{ r := t.r, op := t.op, ids := t.ids, vals := vals, target := t.target, slow := slow }] } }
    let s := if slow then s.hold (w .dramSpeed) else s
    if vals.any fun e => idGroup e.1 == 0x30 then s.hold (w (.event 1)) else s
  else s

/-- What the Ticket-rule part of a commit counts (Table 09-10). -/
def State.ticketCounts (s : State) (status p : Nat) : State :=
  if status = Status.TICKET_SHIFTED then s.count (Sens.EXPOSE_SHIFTED p)
  else if status = Status.TICKET_PAST then s.count (Sens.EXPOSE_PAST p)
  else s

/-- A commit that has passed its checks takes effect, each entry under its own rule (R80), and is answered (R79). -/
def State.commitApply (s : State) (t : Txn) (es : List CEntry) (status port first : Nat) : State :=
  let tick := ticketVals es
  let edge := if (es.any fun e => e.rule == .admitted) then s.nextEdge else s.tickSeq
  let gen := (s.rd Tick.PLAN_GENERATION + s.plansDue + (if admits es then 1 else 0)) % 2 ^ 32
  let tails : Table (List Byte) := if tick.isEmpty then [] else [(4, leBytes 4 first ++ leBytes 4 (s.ispGenAt port first))]
  let s := s.hold { r := t.r, op := t.op, edge := edge, status := status, why := .event 0, gen := some gen, tails := tails }
  let imm := ofRule .immediate es
  let s := s.inForce t (otherVals imm)
  let s := s.reachHeads t.r t.op edge imm
  let s := (ofRule .boundary es).foldl (boundaryApply t.r t.op) s
  let s := (ofRule .restart es).foldl (fun (u : State) e => u.restartStore e.1 e.2.toNat) s
  let s := if tick.isEmpty then s else (s.pushIsp port first tick).ticketCounts status port
  let s := s.queueAdmitted t es edge
  s.release (.event 0) Status.OK

/-- One commit: refused with nothing applied, or applied as one unit. A refusal by admission is counted (Table 02-11). `done` follows a
commit that has taken effect. -/
def State.commitRun (s : State) (r : Req) (op target : Nat) (vals : List (Nat × PVal)) (done : State → State) : State :=
  let es := centries s vals
  let t := s.txn r op target es
  match commitVerdict t es with
  | (st, payload, port, first) =>
    if completes st then (done s).commitApply t es st port first
    else
      let s := if st = Status.BUDGET_EXCEEDED then s.count Tick.ADMIT_REFUSED else s.ticketCounts st port
      s.reply r op st payload

/-! ## The checks of PARAM_SET (R76 to R78) -/

/-- The status of an entry, and its value. -/
def State.setStatus (s : State) (sess : Nat) (e : Entry) : Nat × PVal :=
  match paramOf e.id with
  | none => (Status.BAD_PARAM, .num 0)
  | some p =>
    if p.access = .ro ∨ (e.flags ≠ 0 ∧ e.flags ≠ 2) ∨ (e.flags = 2 ∧ p.type ≠ .blob) then (Status.BAD_PARAM, .num 0)
    else if idGroup e.id = 0x41 ∧ !streamHas (streamKind (idInst e.id)) (idNum e.id) then (Status.BAD_PARAM, .num 0)
    else
      let d := decodeValue p e
      let fits : Bool := match d.2 with
        | .handle h n => (match s.bufOf h with | some (_, b) => decide (n ≤ b.size) | none => false)
        | _ => true
      if d.1 ≠ Status.OK then d
      else if !fits then (Status.BAD_PARAM, d.2)
      else if inlineBad e.id d.2 then (Status.RANGE, d.2)
      else if s.owns sess (cellOf e.id) then d
      else (Status.NOT_OWNER, d.2)

/-- The status of an entry of PARAM_SET: in a WARMUP after failed training only the requests of R435 are taken (R27). -/
def State.stageStatus (s : State) (sess : Nat) (e : Entry) : Nat :=
  if s.pow.global = .warmup ∧ !restartOnce.contains e.id then Status.NOT_READY else (s.setStatus sess e).1

/-- The value of a staged entry as its commit reads it: the bytes of a BLOB passed by buffer; none where the buffer is gone or its bytes
have a length that the parameter does not take (R77). -/
def State.resolve (s : State) (id : Nat) (v : PVal) : Option PVal :=
  match v with
  | .handle h n =>
    match s.bufOf h with
    | some (serial, b) =>
      if n ≤ b.size ∧ (blobLen id).1 ≤ n ∧ n ≤ (blobLen id).2 then some (.blob (s.bufBytes serial n)) else none
    | none => none
  | v => some v

/-- A commit of staged values: what buffers hold is read now. -/
def State.commitStaged (s : State) (r : Req) (op target : Nat) (vals : List (Nat × PVal)) (done : State → State) : State :=
  if vals.any fun e => (s.resolve e.1 e.2).isNone then s.reply r op Status.BAD_PARAM []
  else s.commitRun r op target (vals.filterMap fun e => (s.resolve e.1 e.2).map fun v => (e.1, v)) done

/-- A commit of given entries: each is checked as PARAM_SET checks it, then all are committed as one unit. -/
def State.commitEntries (s : State) (r : Req) (l : List Entry) : State :=
  s.request r 0x12 fun s =>
    let st := firstBad (l.map fun e => s.stageStatus r.sess e)
    if st ≠ Status.OK then s.reply r 0x12 st []
    else s.commitStaged r 0x12 0 (l.map fun e => (e.id, (s.setStatus r.sess e).2)) id

/-- The entry that carries a number. -/
def numEntry (id v : Nat) : Entry :=
  match paramOf id with
  | some p => { id := id, type := p.type.code, flags := 0, value := valueBytes p.type v }
  | none => { id := id, type := 0, flags := 0, value := leBytes 4 v }

/-- The entry that carries a BLOB, or with `flags` 2 the handle and byte count of a buffer. -/
def blobEntry (id flags : Nat) (value : List Byte) : Entry := { id := id, type := 7, flags := flags, value := value }

/-- A commit of one number. -/
def State.commitNum (s : State) (r : Req) (id v : Nat) : State := s.commitEntries r [numEntry id v]

/-- A commit of one BLOB. -/
def State.commitBlob (s : State) (r : Req) (id flags : Nat) (value : List Byte) : State := s.commitEntries r [blobEntry id flags value]

end Sys2Proof.Machine
end

