-- ==== Sys2Proof/Machine/Tick.lean ====
section
/-! DEFINITION. The tick: placing an edge, what an edge does, the tick budget, jobs that end, maintenance, re-admission and the change of
the DRAM speed (spec/02, R325, R326). -/

namespace Sys2Proof.Machine

/-! ## Placing an edge (R34, R36, R325, R326, R329) -/

/-- The tick runs: in READY, RUN and FAULT_HOLD. -/
def State.tickRuns (s : State) : Bool := s.pow.global == .ready || s.pow.global == .run || s.pow.global == .faultHold

/-- The nominal period in ns × N. -/
def State.periodNum (s : State) : Nat := 1000000000 * s.rd Tick.TICK_RATE_D

/-- An alignment point of the source in force, in ns × N on the device clock; one stands for all that lie whole periods away (Table 02-1):
Device Time at a multiple of the period (ST 2059-1), the alignment point of a sync input (R328), the parent's edge (R332). -/
def State.alignPoint (s : State) : Option Int :=
  let n := max 1 (s.rd Tick.TICK_RATE_N)
  match s.tick.src with
  | 0 => none
  | 1 => some (((s.nextPos : Nat) : Int) - ((deviceTimeAt s.time (s.nextPos / n) * n : Nat) : Int))
  | 4 => s.ring.edge.map fun e => e * (n : Int) / 1000
  | k => (s.sync (k - 2)).alignAt.map fun a => ((a * n : Nat) : Int)

/-- The tick phase error of an alignment point in ns, from −0.5, exclusive, to +0.5, inclusive, of a period: the point, shifted by TICK_OFFSET,
against the edge that comes next. -/
def State.phaseError (s : State) (a : Int) : Int :=
  let n := max 1 (s.rd Tick.TICK_RATE_N)
  let p : Int := (max 1 s.periodNum : Nat)
  let r := (a + s.rdS Tick.TICK_OFFSET * (n : Int) - (s.nextPos : Nat)) % p
  (if p < 2 * r then r - p else r) / (n : Int)

/-- The phase error that the next edge takes up, in ns: none in HOLDOVER; what is owed of a new TICK_OFFSET where the source is FREE; else that of
the source, positive where the alignment point lies later, and 0 where it has shown none yet. -/
def State.edgeError (s : State) : Int :=
  if s.rd Tick.TICK_STATE = TickState.HOLDOVER then 0
  else if s.tick.src = 0 then s.tick.owed
  else (s.alignPoint.map s.phaseError).getD 0

/-- The next edge is placed under the STEP rule: by a frame slip, or where a re-phase is due under TICK_REPHASE STEP. -/
def State.edgeSteps (s : State) (e : Int) : Bool :=
  if s.rd Tick.TICK_STATE = TickState.HOLDOVER then false
  else if s.tick.rephase = 2 ∧ s.tick.src ≠ 0 then true
  else s.rd Time.TICK_REPHASE == 1 && (s.tick.src == 0 || s.tick.rephase != 0) && decide (2 ≤ e.natAbs)

/-- The position of the next edge in ns × N (R325, R326): at its nominal place, moved by at most 100 ppm of a period; or at the first
alignment point at or after the last edge plus half a period. -/
def State.placeEdge (s : State) (e : Int) : Nat :=
  let pd := s.periodNum
  let shift : Int := e * (s.rd Tick.TICK_RATE_N : Int)
  if s.edgeSteps e then s.tick.pos + pd / 2 + (((pd / 2 : Nat) : Int) + shift).toNat % pd
  else if e.natAbs < 2 ∧ s.tick.src ≠ 0 then s.nextPos
  else (((s.nextPos : Nat) : Int) + clamp (-((pd / 10000 : Nat) : Int)) ((pd / 10000 : Nat) : Int) shift).toNat

/-- What a FREE tick still owes of its shift, and the run of ticks within ±100 ns (R38). -/
def State.edgeTaken (s : State) (e : Int) : State :=
  let n := max 1 (s.rd Tick.TICK_RATE_N)
  let most : Int := ((s.periodNum / 10000 / n : Nat) : Int)
  let owed := if s.tick.src ≠ 0 then s.tick.owed else if s.edgeSteps e then 0 else s.tick.owed - clamp (-most) most e
  let run := if s.rd Tick.TICK_STATE = TickState.ACQUIRING ∧ s.alignPoint.isSome ∧ e.natAbs ≤ 100 then s.tick.lockRun + 1 else 0
  { s with tick := { s.tick with owed := owed, lockRun := run, rephase := 0 } }

/-- What a stepped edge reports (R326, R329, Table 17-1): the frame slip, or the stepped tick; both count in STEPPED_TICKS. -/
def State.stepped (s : State) (slip : Bool) (amount : Int) : State :=
  let s := (s.count Time.STEPPED_TICKS).fire 5
  if slip then (s.count (Time.FRAME_SLIPS s.tick.slipInput)).tickNotify 3 amount s.tickSeq 0 else s.tickNotify 2 amount s.tickSeq 0

/-- The edge takes place: its position, its time on the grid, its Tick Sequence, and the report of a step. The first edge after BOOT
begins at the first grid point from where the clock stands. -/
def State.edgeAt (s : State) : State :=
  if s.tick.first then
    let edge := s.clock + s.clock % 2
    let s := { s.at edge with tick := { s.tick with first := false, running := true, pos := edge * s.rd Tick.TICK_RATE_N, edgeAt := edge } }
    (s.wr Tick.TICK_SEQUENCE 0).wr Obs.BOOT_TIME_TICK s.sinceRise
  else
    let e := s.edgeError
    let pos := s.placeEdge e
    let edge := s.gridEdge pos
    let steps := s.edgeSteps e
    let slip := s.tick.rephase == 2
    let amount : Int := (((pos : Nat) : Int) - ((s.nextPos : Nat) : Int)) / ((max 1 (s.rd Tick.TICK_RATE_N) : Nat) : Int)
    let s := (s.edgeTaken e).at edge
    let s := ({ s with tick := { s.tick with running := true, pos := pos, edgeAt := edge } }).next32 Tick.TICK_SEQUENCE
    if steps then s.stepped slip amount else s

/-! ## Plan changes at an edge (R41, R54, R57 to R61, R471) -/

/-- A plan or shed NOTIFY (R61). -/
def State.planNotify (s : State) (code new old : Nat) : State :=
  s.notify 2 code (leBytes 4 (s.rd Tick.PLAN_GENERATION) ++ leBytes 1 new ++ leBytes 1 old ++ leBytes 2 0 ++ leBytes 4 (s.rd Tick.ACTIVE_CAP) ++
    leBytes 4 s.tickSeq)

/-- A new rate is in force from this edge: its position is kept in the new units, the guard and the budget follow, and a source other
than FREE is met anew (R37). -/
def State.newRate (s old : State) : State :=
  let n := s.rd Tick.TICK_RATE_N
  let m := old.rd Tick.TICK_RATE_N
  if n = m ∧ s.rd Tick.TICK_RATE_D = old.rd Tick.TICK_RATE_D then s
  else
    let rephase := if s.tick.src = 0 then s.tick.rephase else max 1 s.tick.rephase
    let s := { s with tick := { s.tick with pos := s.tick.pos * n / max 1 m, rephase := rephase } }
    s.wrAll [(Tick.TICK_GUARD, s.guard), (Tick.TICK_BUDGET, s.budget)]

/-- A new profile is in force: its life weight, its cap and clock set, the figures of the DRAM, the slots of ports with the default budget, and ingest off
or on with Duiker (R52, R53, R178, R471). -/
def State.newProfile (s old : State) : State :=
  if s.profile = old.profile ∧ s.duiker = old.duiker then s
  else
    let s := s.wrAll [(Tick.LIFE_WEIGHT, s.profile.lifeWeight), (Tick.ACTIVE_CAP, s.profile.cap)]
    let s := { s with
      therm := { s.therm with upPending := false, okSince := none, floorHeld := false, floorNotified := false }
      tick := { s.tick with readmitting := false, readmitted := false, shedDue := false } }
    let s := (List.range 16).foldl State.resizeSlots s.applyClock.dramFigures
    if s.duiker = old.duiker then s else s.linksDuiker s.duiker

/-- The reply to a commit that a change of the DRAM speed has held back is sent, with the tick and the generation at which its values are
in force (R54, R79). -/
def State.speedReply (s : State) (r : Req) : State :=
  let gen := (s.rd Tick.PLAN_GENERATION + 1) % 2 ^ 32
  let s := { s with nmp := { s.nmp with waits := s.nmp.waits.map fun (w : Wait) => if w.r = r then { w with edge := s.tickSeq, gen := some gen } else w } }
  s.releaseIf (fun (w : Wait) => w.r == r && w.why == WaitFor.dramSpeed) Status.OK none

/-- One admitted commit applies. Where it changes the DRAM speed, the memory controller goes out of service, and the profile waits until
it is back (R54). -/
def State.applyAdmitted (s : State) (a : Admitted) : State :=
  let next := s.placeAll a.vals
  let slow : Bool := s.profile.dramSpeed != next.profile.dramSpeed
  let s := if a.slow && !slow then s.speedReply a.r else s
  let t : Txn := { r := a.r, op := a.op, ids := a.ids, old := s, cand := next, target := a.target }
  let now := if slow then a.vals.filter fun e => !profileIds.contains e.1 else a.vals
  let s := s.inForce t (otherVals now)
  let s := s.reachHeads a.r a.op s.tickSeq now
  let s := s.releaseIf (fun w => w.r == a.r && w.why == .event 1) Status.OK none
  if slow then
    let target := (a.vals.filter fun e => profileIds.contains e.1).map fun e => (e.1, e.2.toNat)
    { s with tick := { s.tick with dramChange := true, dramTarget := target, dramFor := some a.r } }
  else ((s.newRate t.old).newProfile t.old).next32 Tick.PLAN_GENERATION

/-- The admitted commits apply in order. Those that change the profile wait while the memory controller is out of service. -/
def State.applyQueue (s : State) : State :=
  let queue := s.tick.admitted
  if queue.isEmpty then s
  else
    let s := queue.foldl (fun (t : State) a =>
      if t.tick.dramChange ∧ a.vals.any (fun e => profileIds.contains e.1) then
        { t with tick := { t.tick with admitted := t.tick.admitted ++ [a] } }
      else t.applyAdmitted a) { s with tick := { s.tick with admitted := [] } }
    let s := s.updateRun
    { s with tick := { s.tick with shedTable := s.newShedTable } }

/-- The shed level of the table for the cap in force, announced (R57, R60). -/
def State.levelTo (s : State) (code : Nat) : State :=
  let old := s.rd Tick.SHED_LEVEL
  let new := s.tableLevel
  ((s.wr Tick.SHED_LEVEL new).next32 Tick.PLAN_GENERATION).planNotify code new old

/-- The shed level at an edge (R58, R59, R471): that of a step down; or the result of a re-admission, which lets a decided step up take
effect; or whatever level the table gives for the cap in force. -/
def State.shedTick (s : State) : State :=
  if s.tick.shedDue then ({ s with tick := { s.tick with shedDue := false } }).levelTo 1
  else if s.tick.readmitted then
    let up := s.therm.upPending
    let s := { s with tick := { s.tick with readmitted := false, readmitting := false } }
    let s := if up then s.stepUpNow else s
    ({ s with tick := { s.tick with shedTable := s.newShedTable } }).levelTo (if up then 2 else 3)
  else if s.tableLevel = s.rd Tick.SHED_LEVEL then s
  else s.levelTo (if s.tableLevel < s.rd Tick.SHED_LEVEL then 2 else 1)

/-! ## Jobs at an edge (R45, R47, R56, R192) -/

/-- The engines whose part of a job is not finished: Scene, Rendition, the statistics renderers (R40). `drained` where the Scene section has
finished with the running job. -/
def State.unfinished (s : State) (drained : Bool) (c : Nat) (j : Job) : List Nat :=
  (if drained && s.scene.running == some c then [] else [0]) ++ (if j.bufs.isEmpty then [] else [1]) ++ (if j.rendersStats then [2] else [])

/-- A context whose CTX_ENABLE 0 applies at this edge: its job is abandoned without a flag (R189). -/
def State.leaving (s : State) (c : Nat) : Bool :=
  s.tick.admitted.any fun a => a.vals.any fun e => e.1 == Ctx.CTX_ENABLE c && e.2.toNat == 0

/-- Jobs not finished at the edge are abandoned, and counted for every engine that has not finished (R47, R48). -/
def State.overruns (s : State) (drained built : Bool) : State :=
  let s := (List.range 32).foldl (fun (t : State) c =>
    match (t.ctxSt c).job with
    | some j => if t.leaving c then t else (s.unfinished drained c j).foldl (fun (u : State) k => u.count (Tick.OVERRUN_COUNT k)) (t.abandonJob c true)
    | none => t) s
  s.buildersEdge built

/-- The divisor counters advance, or are loaded with their phase (R45). -/
def State.countersTick (s : State) : State :=
  (List.range 32).foldl (fun (t : State) c =>
    if t.active c then
      let x := t.ctxSt c
      t.setCtx c { x with counter := if x.load then t.rd (Ctx.TICK_PHASE c) else (x.counter + 1) % t.divisor c, load := false }
    else t) s

/-- The contexts of the Scene section in the order of R192. -/
def State.jobOrder (s : State) : List Nat :=
  (List.range 16).flatMap fun p => (List.range 32).filter fun c =>
    s.active c && s.rd (Ctx.EARLY_START c) == 0 && s.rd (Ctx.CTX_PRIORITY c) == p

/-- The jobs of the tick start. -/
def State.startJobs (s : State) : State :=
  if s.pow.global = .run then
    s.jobOrder.foldl (fun (t : State) c => if t.runsNow c then (if t.skips c then t.skipJob c else t.startJob c false) else t) s
  else s

/-- Jobs since S8 was applied start at 0 once it is restored (R240). -/
def State.s8Tick (s : State) : State :=
  if s.shed 8 then s else (List.range 32).foldl (fun (t : State) c => t.setCtx c { t.ctxSt c with s8 := 0 }) s

/-- Tick edges since S10 was applied. -/
def State.s10Tick (s : State) (before : Bool) : State :=
  { s with scene := { s.scene with s10 := if s.shed 10 && before then s.scene.s10 + 1 else 0 } }

/-! ## The tick row -/

/-- A TICK trace record (Table 19-8). -/
def State.traceTick (s : State) : State :=
  s.trace 1 0 (leBytes 4 s.tickSeq ++ leBytes 4 (s.rd Tick.PLAN_GENERATION) ++ leBytes 1 (s.rd Tick.SHED_LEVEL) ++ leBytes 1 (s.rd Tick.TICK_STATE))

/-- What a tick edge does, once it has been placed. -/
def State.tickWork (s : State) : State :=
  let s := s.timeSetAtEdge
  let had := s.shed 10
  let s := s.applyQueue.shedTick
  let s := ((s.s10Tick had).s8Tick).countersTick
  let s := ((s.streamsTick s.runsNow).ringRootTick.clipTick.roceFlush 0).roceFlush 1
  let s := (List.range 16).foldl State.trigTick s
  let s := { s with fab := { s.fab with counts := [] } }
  (s.traceTick.fire 0).startJobs

/-- TICK_EDGE (R34, R35, R47, R58). -/
def execTickEdge (drained built : Bool) (s : State) : Host.Outcome State Fault Refusal :=
  .next (if s.tickRuns then ((s.edgeAt.overruns drained built).maintWaited).tickWork else s)

/-- TICK_LOCK_ACHIEVED (R38, R332): 8 consecutive ticks within ±100 ns; a follower also needs its parent's rate check. -/
def execTickLockAchieved (s : State) : Host.Outcome State Fault Refusal :=
  .next (
    if s.rd Tick.TICK_STATE = TickState.ACQUIRING ∧ 8 ≤ s.tick.lockRun ∧ (s.tick.src ≠ 4 ∨ s.ringRateOk = true) then
      s.tickTo TickState.LOCKED
    else s)

/-- The next entry of TICK_FALLBACK (R38). DESIGN CHOICE: the index of the next entry is counted from the latest commit of TICK_SOURCE, and a
commit of TICK_FALLBACK leaves it; the spec is silent. -/
def State.nextFallback (s : State) : Option Nat :=
  let k := s.tick.fallback
  let n := bits (s.rd Tick.TICK_FALLBACK) (4 * k + 3) (4 * k)
  if k < 4 ∧ n ≤ 4 then some n else none

/-- HOLDOVER_LIMIT_EXPIRY (R39): the next entry of TICK_FALLBACK is selected, or the generator stays in HOLDOVER. -/
def execHoldoverLimitExpiry (s : State) : Host.Outcome State Fault Refusal :=
  .next (
    if s.rd Tick.TICK_STATE = TickState.HOLDOVER then
      let s := s.at (s.tick.holdAt + 1000000 * s.rd Tick.HOLDOVER_LIMIT)
      match s.nextFallback with
      | some n => ({ s with tick := { s.tick with fallback := s.tick.fallback + 1 } }).selectSource n
      | none => s
    else s)

/-! ## The budget, the gap and jobs that end (R46, R49) -/

/-- Every tick-plan job of the tick has finished. -/
def State.jobsDone (s : State) : Bool := !s.tick.building && (List.range 32).all fun c => (s.ctxSt c).job.isNone

/-- TICK_BUDGET_END (R46, Table 17-1): jobs still running are late from now on, those of the packet builders included; without any, the gap
begins. -/
def execTickBudgetEnd (building : Bool) (s : State) : Host.Outcome State Fault Refusal :=
  .next (
    if s.tick.running ∧ s.tick.budgetOver = false then
      let s := (s.at (s.tick.edgeAt + s.budget)).fire 1
      let s := { s with tick := { s.tick with budgetOver := true, building := building && s.videoUnsent } }
      if s.jobsDone then s.gapStart else s
    else s)

/-- JOB_COMPLETE (R190, R46): the running job finishes; a section that ended after the budget was late, and the statistics renderers where
the job has work for them. -/
def execJobComplete (ctx : Fin 32) (sceneCycles endNs : Nat) (sceneLate rendLate statsLate : Bool) (s : State) :
    Host.Outcome State Fault Refusal :=
  .next (
    if s.scene.running = some ctx.val then
      let stats := (s.ctxSt ctx.val).job.any Job.rendersStats
      let s := s.finishJob ctx.val sceneCycles endNs
      let s := if sceneLate then s.count (Tick.LATE_COUNT 0) else s
      let s := if rendLate then s.count (Tick.LATE_COUNT 1) else s
      let s := if statsLate && stats then s.count (Tick.LATE_COUNT 2) else s
      if s.jobsDone && s.tick.budgetOver then s.gapStart else s
    else s)

/-! ## Maintenance (R49, R50, R472) -/

/-- MAINT_REQUEST (R50): the periodic requests of Table 02-6. The Ledger write is that of the life record. Retraining and ZQ calibration
of the DRAM stop in FAULT_HOLD. -/
def execMaintRequest (act : Fin 4) (ch : Fin 8) (s : State) : Host.Outcome State Fault Refusal :=
  .next (
    if s.tick.running = false ∨ (s.pow.global = .faultHold ∧ (act.val = 1 ∨ act.val = 2)) then s
    else if act.val = 3 then
      (if s.pow.ledgerQueue.any fun w => w.1 == 18 then s.maintAsk 3 0 else s.ledgerPut 18 25 [])
    else s.maintAsk act.val ch.val)

/-- A Ledger write has run: the record is made, and a further one that waits asks anew. -/
def State.ledgerDone (s : State) : State :=
  match s.pow.ledgerQueue with
  | [] => s
  | w :: r =>
    let s := ({ s with pow := { s.pow with ledgerQueue := r } }).ledgerCommit w
    if r.isEmpty then s else s.maintAsk 3 0

/-- MAINT_ACTIVITY_DONE (R50): the running activity ends. A monitor whose self-test failed is invalid (R461); a Ledger write is made. -/
def execMaintActivityDone (failed : List Nat) (s : State) : Host.Outcome State Fault Refusal :=
  .next (match s.tick.active with
    | none => s
    | some a =>
      let s := ({ s with tick := { s.tick with active := none } }).count (Tick.MAINT_RUN_COUNT a)
      if a = 0 then (failed.filter fun k => decide (k < 16)).foldl State.sensorInvalid s
      else if a = 3 then s.ledgerDone
      else s)

/-! ## Re-admission and the DRAM speed (R54, R58) -/

/-- READMISSION_DONE (R58): Negor has re-admitted the plan; it applies at the next tick edge, after that of the step down itself. -/
def execReadmissionDone (s : State) : Host.Outcome State Fault Refusal :=
  .next (
    if s.negorAnswers ∧ s.tick.readmitting ∧ s.tick.shedDue = false then { s with tick := { s.tick with readmitted := true } } else s)

/-- DRAM_SPEED_CHANGE_DONE (R54, R435): the controller is back in service, the new profile is in force, and the commit is answered. A
channel that does not work at the new speed fails. -/
def execDramSpeedChangeDone (failed : List Nat) (s : State) : Host.Outcome State Fault Refusal :=
  .next (
    if s.tick.dramChange = false then s
    else
      let old := s
      let asked := s.tick.dramFor
      let s := s.placeAll (numVals s.tick.dramTarget)
      let s := { s with tick := { s.tick with dramChange := false, dramTarget := [], dramFor := none } }
      let s := match asked with
        | some r => s.speedReply r
        | none => s
      let s := (s.newProfile old).next32 Tick.PLAN_GENERATION
      let s := { s with tick := { s.tick with shedTable := s.newShedTable } }
      let s := s.dramChannels.foldl (fun (t : State) c => (t.trainedNow c).clearDebts c) s
      match failed.filter s.dramChannels.contains with
      | [] => s.resumeTarget
      | c :: r => (r.foldl State.recordFailed s).channelFailed c 0)

end Sys2Proof.Machine
end

