-- ==== Sys2Proof/Machine/Params.lean ====
section
/-! DEFINITION. Reading, staging and describing parameters, and the plan's records (R44, R76 to R81). -/

namespace Sys2Proof.Machine

/-! ## Reading (R76, R79) -/

/-- Parameters that report what other state holds: the number they read, by ID. -/
def State.derived (s : State) (id : Nat) : Option Nat :=
  let i := idInst id
  let v := rendOf id
  if id = Sys.GLOBAL_STATE then some s.pow.global.code
  else if id = Sys.BUF_POOL_FREE then some s.poolFreeMiB
  else if id = Sys.SESSIONS_OPEN then some s.nmp.sessions.length
  else if id = Time.DEVICE_TIME then some s.deviceTime
  else if id = Obs.SUBSCRIPTIONS then some ((List.range 4).filter fun d => (tget s.obs.dests (d + 1) {}).sess != 0).length
  else if id = Sens.ISP_GENERATION i then some (if s.rd (Ing.CONTEXT i) < 32 then (s.ticketing (s.rd (Ing.CONTEXT i))).ispGen else 0)
  else if id = Ctx.SOURCE_PORT i then some ((s.portOf i).getD 0xFF)
  else if id = Ctx.STRIPE_COUNT i then
    some (match s.ctxGeom i with | some (_, _, samples) => (s.stripesOf i (ceilDiv samples 64)).length | none => 1)
  else if id = Ctx.JOB_ORDER i then some (if s.jobOrder.contains i then s.jobOrder.findIdx fun c => c == i else 0xFF)
  else if id = Ctx.EARLY_SLACK i then some (if s.active i ∧ s.rd (Ctx.EARLY_START i) ≠ 0 then ofSigned 32 (s.earlySlack i) else 0)
  else if id = Rend.OUT_BYTES i v then
    some (if s.rd (Rend.REND_ENABLE i v) = 1 then outBytes (s.rd (Rend.OUT_FORMAT i v)) (s.cropOf i v).1 (s.cropOf i v).2 else 0)
  else if id = Rend.OUT_PITCH i v then
    some (if s.rd (Rend.REND_ENABLE i v) = 1 then outPitch (s.rd (Rend.OUT_FORMAT i v)) (s.cropOf i v).1 (s.cropOf i v).2 else 0)
  else none

/-- The number a parameter reads. -/
def State.readNum (s : State) (id : Nat) : Nat := (s.derived id).getD (s.rd id)

/-- The bytes a BLOB parameter reads. An SDP exists while its sender is enabled. -/
def State.readBlob (s : State) (id : Nat) : List Byte :=
  if id = Tgt.SUBSYS_NQN then subsysNqn
  else if id = St.SDP (idInst id) then
    (if s.rd (St.STREAM_ENABLE (idInst id)) = 1 then (Config.sdpText (idInst id)).take 4096 else [])
  else s.rdBlob id

/-- The value of a parameter in force. -/
def State.readValue (s : State) (p : Param) (id : Nat) : List Byte :=
  if p.type = .blob then s.readBlob id else valueBytes p.type (s.readNum id)

/-- The value of a staged entry: of a BLOB passed by buffer, its handle and byte count. -/
def stagedBytes (p : Param) : PVal → List Byte
  | .num v => valueBytes p.type v
  | .blob b => b
  | .handle h n => leBytes 8 h ++ leBytes 8 n

/-- An entry of a PARAM_GET reply, and its status. FLAGS bit 0 selects the session's own staged value; where it has none, the value in
force. -/
def State.getEntry (s : State) (sess : Nat) (e : Entry) : Nat × Entry :=
  let bad : Nat × Entry := (Status.BAD_PARAM, { id := e.id, type := e.type, flags := Status.BAD_PARAM, value := [] })
  match paramOf e.id with
  | none => bad
  | some p =>
    if p.access = .wo ∨ 1 < e.flags then bad
    else if idGroup e.id = 0x41 ∧ !streamHas (streamKind (idInst e.id)) (idNum e.id) then bad
    else
      let staged := match s.session sess with
        | some x => if e.flags = 1 then x.staged.find? fun (g : Staged) => g.id == e.id else none
        | none => none
      let value := match staged with
        | some g => stagedBytes p g.val
        | none => s.readValue p e.id
      (Status.OK, { id := e.id, type := p.type.code, flags := Status.OK, value := value })

/-- A list of entries with its count (R76). -/
def entriesBytes (l : List Entry) : List Byte := leBytes 4 l.length ++ l.flatMap Entry.bytes

/-- PARAM_GET (R76). -/
def execParamGet (r : Req) (entries : List Entry) (s : State) : Host.Outcome State Fault Refusal :=
  .next (s.request r 0x10 fun s =>
    let l := entries.map (s.getEntry r.sess)
    s.replyLong r 0x10 (firstBad (l.map Prod.fst)) (entriesBytes (l.map Prod.snd)))

/-! ## Staging (R78) -/

/-- A staged set with one more entry: a second value of an ID replaces the first. -/
def stageOne (l : List Staged) (g : Staged) : List Staged := (l.filter fun x => x.id != g.id) ++ [g]

/-- An entry to stage, with the generation of its cell. -/
def State.stagedOf (s : State) (sess : Nat) (e : Entry) : Staged :=
  { id := e.id, val := (s.setStatus sess e).2, gen := (s.cell (cellOf e.id)).gen }

/-- Replaces the staged set of a session. -/
def State.setStaged (s : State) (sess : Nat) (l : List Staged) : State :=
  match s.session sess with
  | some x => s.setSession sess { x with staged := l }
  | none => s

/-- The staged set of a session. -/
def State.stagedSet (s : State) (sess : Nat) : List Staged :=
  match s.session sess with
  | some x => x.staged
  | none => []

/-- PARAM_SET (R76 to R78): all entries are staged, or none. -/
def execParamSet (r : Req) (entries : List Entry) (s : State) : Host.Outcome State Fault Refusal :=
  .next (s.request r 0x11 fun s =>
    let sts := entries.map (s.stageStatus r.sess)
    let results := (entries.zip sts).map fun e => ({ id := e.1.id, type := e.1.type, flags := e.2 % 256, value := [] } : Entry)
    let l := entries.foldl (fun l e => stageOne l (s.stagedOf r.sess e)) (s.stagedSet r.sess)
    let st := firstBad sts
    if st ≠ Status.OK then s.reply r 0x11 st (entriesBytes results)
    else if 512 < l.length then s.reply r 0x11 Status.NO_RESOURCE (entriesBytes results)
    else (s.setStaged r.sess l).reply r 0x11 Status.OK (entriesBytes results))

/-- Staged entries whose cells the session still owns, in the generation of their staging (R79). -/
def State.stagedOwned (s : State) (sess : Nat) (l : List Staged) : Bool :=
  l.all fun g => s.owns sess (cellOf g.id) && (s.cell (cellOf g.id)).gen == g.gen

/-- Staged values by ID. -/
def stagedVals (l : List Staged) : List (Nat × PVal) := l.map fun g => (g.id, g.val)

/-- PARAM_COMMIT (R79, R80, R257): every staged entry takes effect as one unit, or none does and they stay staged. -/
def execParamCommit (r : Req) (target : Nat) (s : State) : Host.Outcome State Fault Refusal :=
  .next (s.request r 0x12 fun s =>
    let l := s.stagedSet r.sess
    if s.stagedOwned r.sess l then s.commitStaged r 0x12 target (stagedVals l) fun t => t.setStaged r.sess []
    else s.reply r 0x12 Status.NOT_OWNER [])

/-- PARAM_DISCARD. -/
def execParamDiscard (r : Req) (s : State) : Host.Outcome State Fault Refusal :=
  .next (s.request r 0x13 fun s => (s.setStaged r.sess []).reply r 0x13 Status.OK [])

/-! ## Description (R81) -/

/-- The descriptor of an ID; of one that names no parameter, the ID alone. -/
def descriptorOf (id : Nat) : List Byte :=
  match paramOf id with
  | some p => descriptor id p
  | none => leBytes 4 id ++ zeroBytes 28

/-- PARAM_DESCRIBE (R81). -/
def execParamDescribe (r : Req) (ids : List Nat) (s : State) : Host.Outcome State Fault Refusal :=
  .next (s.request r 0x14 fun s =>
    let st := if ids.all fun id => (paramOf id).isSome then Status.OK else Status.BAD_PARAM
    s.replyLong r 0x14 st (ids.flatMap descriptorOf))

/-! ## The plan (R44) -/

/-- PLAN_QUERY (R44): PLAN_GENERATION, SHED_LEVEL, and a record for every resource under the plan in force. -/
def execPlanQuery (r : Req) (s : State) : Host.Outcome State Fault Refusal :=
  .next (s.request r 0x30 fun s =>
    let items := s.profile.shedOrder.take (s.rd Tick.SHED_LEVEL)
    s.reply r 0x30 Status.OK (leBytes 4 (s.rd Tick.PLAN_GENERATION) ++ leBytes 4 (s.rd Tick.SHED_LEVEL) ++
      (s.resources items (s.rd Tick.ACTIVE_CAP)).flatMap Shortfall.bytes))

end Sys2Proof.Machine
end

