-- ==== Sys2Proof/Machine/Commit.lean ====
section
/-! DEFINITION. The commits that the table names by their parameter, and the other requests that a plan change or an exposure change
makes: each commit is one entry, checked as PARAM_SET checks it and committed as PARAM_COMMIT commits it (R76 to R80). -/

namespace Sys2Proof.Machine

/-! ## Commits of one parameter -/

/-- CUSTOM_BASE_WRITE (R55). -/
def execCustomBaseWrite (r : Req) (value : Nat) (s : State) :
    Host.Outcome State Fault Refusal :=
  .next (s.commitNum r Tick.CUSTOM_BASE value)

/-- TICK_SOURCE_WRITE: TICK_SOURCE, TICK_OFFSET and TICK_FALLBACK (R36). -/
def execTickSourceWrite (r : Req) (source : Nat) (offset : Int) (fallback : Nat) (s : State) :
    Host.Outcome State Fault Refusal :=
  .next (s.commitEntries r [numEntry Tick.TICK_SOURCE source, numEntry Tick.TICK_OFFSET (ofSigned 32 offset),
    numEntry Tick.TICK_FALLBACK fallback])

/-- TICK_RATE_WRITE: TICK_RATE_N and TICK_RATE_D (R33, R37). -/
def execTickRateWrite (r : Req) (n d : Nat) (s : State) :
    Host.Outcome State Fault Refusal :=
  .next (s.commitEntries r [numEntry Tick.TICK_RATE_N n, numEntry Tick.TICK_RATE_D d])

/-- PROFILE_WRITE (R54). -/
def execProfileWrite (r : Req) (value : Nat) (s : State) :
    Host.Outcome State Fault Refusal :=
  .next (s.commitNum r Tick.PROFILE value)

/-- PARAM_WRITE_PLAIN: one parameter of any kind, its value as the bytes of an entry (R80). -/
def execParamWritePlain (r : Req) (id : Nat) (value : List Byte) (s : State) :
    Host.Outcome State Fault Refusal :=
  .next (s.commitEntries r [{ id := id, type := ((paramOf id).map fun p => p.type.code).getD 0, flags := 0, value := value }])

/-- OWNER_KEY_WRITE (R69). -/
def execOwnerKeyWrite (r : Req) (key : List Byte) (s : State) :
    Host.Outcome State Fault Refusal :=
  .next (s.commitBlob r Sys.OWNER_KEY 0 key)

/-- SENSOR_PORT_ENABLE_WRITE (R117). -/
def execSensorPortEnableWrite (r : Req) (port : Fin 16) (value : Nat) (s : State) :
    Host.Outcome State Fault Refusal :=
  .next (s.commitNum r (Port.PORT_ENABLE port.val) value)

/-- XTRIG_ENABLE_WRITE (R128). -/
def execXtrigEnableWrite (r : Req) (n : Fin 16) (value : Nat) (s : State) :
    Host.Outcome State Fault Refusal :=
  .next (s.commitNum r (Port.XTRIG_ENABLE n.val) value)

/-- CONTEXT_BIND_WRITE (R134). -/
def execContextBindWrite (r : Req) (port : Fin 16) (value : Nat) (s : State) :
    Host.Outcome State Fault Refusal :=
  .next (s.commitNum r (Ing.CONTEXT port.val) value)

/-- DEFECT_MAP_WRITE (R149). -/
def execDefectMapWrite (r : Req) (port : Fin 16) (flags : Nat) (value : List Byte) (s : State) :
    Host.Outcome State Fault Refusal :=
  .next (s.commitBlob r (Ing.DEFECT_MAP port.val) flags value)

/-- CTX_ENABLE_WRITE (R188). -/
def execCtxEnableWrite (r : Req) (ctx : Fin 32) (value : Nat) (s : State) :
    Host.Outcome State Fault Refusal :=
  .next (s.commitNum r (Ctx.CTX_ENABLE ctx.val) value)

/-- LSC_TABLE_WRITE (R218). -/
def execLscTableWrite (r : Req) (ctx : Fin 32) (flags : Nat) (value : List Byte) (s : State) :
    Host.Outcome State Fault Refusal :=
  .next (s.commitBlob r (Rend.LSC_TABLE ctx.val) flags value)

/-- TABLE_1D_WRITE: SHAPER_TABLE, or TONE_TABLE where `tone` is true (R227). -/
def execTable1dWrite (r : Req) (ctx : Fin 32) (rend : Fin 4) (tone : Bool) (flags : Nat) (value : List Byte) (s : State) :
    Host.Outcome State Fault Refusal :=
  .next (s.commitBlob r (if tone then Rend.TONE_TABLE ctx.val rend.val else Rend.SHAPER_TABLE ctx.val rend.val) flags value)

/-- SCALER_TABLE_WRITE (R230). -/
def execScalerTableWrite (r : Req) (ctx : Fin 32) (rend : Fin 4) (flags : Nat) (value : List Byte) (s : State) :
    Host.Outcome State Fault Refusal :=
  .next (s.commitBlob r (Rend.SCALER_TABLE ctx.val rend.val) flags value)

/-- LUT3D_WRITE (R229). -/
def execLut3dWrite (r : Req) (ctx : Fin 32) (rend : Fin 4) (flags : Nat) (value : List Byte) (s : State) :
    Host.Outcome State Fault Refusal :=
  .next (s.commitBlob r (Rend.LUT3D ctx.val rend.val) flags value)

/-- SENSOR_DESC_WRITE (R245). -/
def execSensorDescWrite (r : Req) (port : Fin 16) (flags : Nat) (value : List Byte) (s : State) :
    Host.Outcome State Fault Refusal :=
  .next (s.commitBlob r (Sens.SENSOR_DESC port.val) flags value)

/-- SENSOR_MODE_WRITE (R249). -/
def execSensorModeWrite (r : Req) (port : Fin 16) (value : Nat) (s : State) :
    Host.Outcome State Fault Refusal :=
  .next (s.commitNum r (Sens.SENSOR_MODE port.val) value)

/-- I2C_ENABLE_WRITE (R272). -/
def execI2cEnableWrite (r : Req) (bus : Fin 12) (value : Nat) (s : State) :
    Host.Outcome State Fault Refusal :=
  .next (s.commitNum r (I2c.I2C_ENABLE bus.val) value)

/-- XFER_DESC_WRITE (R279). -/
def execXferDescWrite (r : Req) (bus : Fin 12) (flags : Nat) (value : List Byte) (s : State) :
    Host.Outcome State Fault Refusal :=
  .next (s.commitBlob r (I2c.XFER_DESC bus.val) flags value)

/-- HEAD_ENABLE_WRITE (R291). -/
def execHeadEnableWrite (r : Req) (head : Fin 4) (value : Nat) (s : State) :
    Host.Outcome State Fault Refusal :=
  .next (s.commitNum r (Head.HEAD_ENABLE head.val) value)

/-- ETH_ENABLE_WRITE: ETH_ENABLE, or ETH_MODE where `mode` is true (R311). -/
def execEthEnableWrite (r : Req) (port : Fin 2) (mode : Bool) (value : Nat) (s : State) :
    Host.Outcome State Fault Refusal :=
  .next (s.commitNum r (if mode then Eth.ETH_MODE port.val else Eth.ETH_ENABLE port.val) value)

/-- TIME_SET_WRITE (R321). -/
def execTimeSetWrite (r : Req) (value : Nat) (s : State) :
    Host.Outcome State Fault Refusal :=
  .next (s.commitNum r Time.TIME_SET value)

/-- RING_ENABLE_WRITE (R342). -/
def execRingEnableWrite (r : Req) (value : Nat) (s : State) :
    Host.Outcome State Fault Refusal :=
  .next (s.commitNum r Ring.RING_ENABLE value)

/-- MEDIA_FORMAT_WRITE (R348). -/
def execMediaFormatWrite (r : Req) (flags : Nat) (value : List Byte) (s : State) :
    Host.Outcome State Fault Refusal :=
  .next (s.commitBlob r Rec.MEDIA_FORMAT flags value)

/-- MEDIA_REBUILD_WRITE (R364). -/
def execMediaRebuildWrite (r : Req) (value : Nat) (s : State) :
    Host.Outcome State Fault Refusal :=
  .next (s.commitNum r Rec.MEDIA_REBUILD value)

/-- CLIP_DELETE_WRITE (R368). -/
def execClipDeleteWrite (r : Req) (value : Nat) (s : State) :
    Host.Outcome State Fault Refusal :=
  .next (s.commitNum r Rec.CLIP_DELETE value)

/-- CLIP_META_WRITE (R368). -/
def execClipMetaWrite (r : Req) (slot : Fin 4) (flags : Nat) (value : List Byte) (s : State) :
    Host.Outcome State Fault Refusal :=
  .next (s.commitBlob r (Rec.CLIP_META slot.val) flags value)

/-- TARGET_ENABLE_WRITE (R398). -/
def execTargetEnableWrite (r : Req) (value : Nat) (s : State) :
    Host.Outcome State Fault Refusal :=
  .next (s.commitNum r Tgt.TARGET_ENABLE value)

/-- AUDIO_PORT_ENABLE_WRITE (R408). -/
def execAudioPortEnableWrite (r : Req) (port : Fin 8) (value : Nat) (s : State) :
    Host.Outcome State Fault Refusal :=
  .next (s.commitNum r (Aud.PORT_ENABLE port.val) value)

/-- AUD_RING_WRITE (R407). -/
def execAudRingWrite (r : Req) (port : Fin 8) (flags : Nat) (value : List Byte) (s : State) :
    Host.Outcome State Fault Refusal :=
  .next (s.commitBlob r (Aud.AUD_RING port.val) flags value)

/-- SLOT_MASK_WRITE (R412). -/
def execSlotMaskWrite (r : Req) (port : Fin 8) (value : Nat) (s : State) :
    Host.Outcome State Fault Refusal :=
  .next (s.commitNum r (Aud.SLOT_MASK port.val) value)

/-- MUTE_WRITE (R413). -/
def execMuteWrite (r : Req) (port : Fin 8) (value : Nat) (s : State) :
    Host.Outcome State Fault Refusal :=
  .next (s.commitNum r (Aud.MUTE port.val) value)

/-- APPL_POSITION_WRITE (R410). -/
def execApplPositionWrite (r : Req) (port : Fin 8) (value : Nat) (s : State) :
    Host.Outcome State Fault Refusal :=
  .next (s.commitNum r (Aud.APPL_POSITION port.val) value)

/-- FAMILY_SOURCE_WRITE (R403). -/
def execFamilySourceWrite (r : Req) (family : Fin 2) (value : Nat) (s : State) :
    Host.Outcome State Fault Refusal :=
  .next (s.commitNum r (Aud.FAMILY_SOURCE family.val) value)

/-- DIAG_ADDRESS_WRITE (R438). -/
def execDiagAddressWrite (r : Req) (address : Nat) (s : State) :
    Host.Outcome State Fault Refusal :=
  .next (s.commitNum r Dram.DIAG_ADDRESS address)

/-- SW_FIRE_WRITE (R443). -/
def execSwFireWrite (r : Req) (value : Nat) (s : State) :
    Host.Outcome State Fault Refusal :=
  .next (s.commitNum r Ev.SW_FIRE value)

/-- EVENT_FIRE_WRITE (R334). -/
def execEventFireWrite (r : Req) (value : Nat) (s : State) :
    Host.Outcome State Fault Refusal :=
  .next (s.commitNum r Ring.EVENT_FIRE value)

/-- EVENT_FLAG_CLEAR_WRITE: word `word` of the flag `flag`, 0 SRC_FIRED to 4 TI_COINCIDENT_FLAG (R455). -/
def execEventFlagClearWrite (r : Req) (flag : Fin 5) (word : Fin 8) (value : Nat) (s : State) :
    Host.Outcome State Fault Refusal :=
  .next (s.commitNum r (0x90000201 + 0x10000 * word.val + flag.val) value)

/-- SRC_ENABLE_WRITE (R454). -/
def execSrcEnableWrite (r : Req) (src : Fin 256) (value : Nat) (s : State) :
    Host.Outcome State Fault Refusal :=
  .next (s.commitNum r (Ev.SRC_ENABLE src.val) value)

/-! ## An exposure change (R254 to R258) -/

/-- The control entries of an EXPOSE_REQUEST: control and value. -/
def exposeControls (b : List Byte) : List (Nat × Nat) :=
  (List.range (leAt b 2 1)).map fun k => (leAt b (16 + 8 * k) 1, leAt b (20 + 8 * k) 4)

/-- The status of the staged Ticket-rule entries that a change binds (R258): ownership, their checks as a commit, and that they name the
port of the change and no other (R257). -/
def State.bindStatus (s : State) (r : Req) (p target : Nat) (l : List Staged) : Nat :=
  if l.isEmpty then Status.OK
  else if s.stagedOwned r.sess l = false then Status.NOT_OWNER
  else
    let es := centries s (stagedVals l)
    let t := s.txn r 0x50 target es
    firstBad [firstBad (es.map fun e => entryCheck t e.id e.val), failIf (s.ticketPort (ticketVals es) target != some p) Status.CONFLICT]

/-- EXPOSE_REQUEST (R254, R255, R258, Table 09-7). Without BIND_STAGED staged entries stay as they are. -/
def execExposeRequest (r : Req) (payload : List Byte) (s : State) : Host.Outcome State Fault Refusal :=
  .next (s.request r 0x50 fun s =>
    let b := payload
    let p := leAt b 0 1
    let n := leAt b 2 1
    let target := leAt b 8 8
    let staged := s.stagedSet r.sess
    let bound := if leAt b 1 1 % 2 = 1 then staged.filter fun g => ruleOf g.id == .ticket else []
    if b.length < 16 ∨ n = 0 ∨ 16 < n ∨ b.length ≠ 16 + 8 * n ∨ 16 ≤ p then s.reply r 0x50 Status.BAD_PARAM []
    else if s.owns r.sess (2 + p) = false then s.reply r 0x50 Status.NOT_OWNER []
    else
      let (st, codes) := s.exposeCheck p (exposeControls b)
      let st := firstBad [st, s.targetCheck p target, s.bindStatus r p target bound]
      if st ≠ Status.OK then s.reply r 0x50 st []
      else
        let s := if bound.isEmpty then s else s.setStaged r.sess (staged.filter fun g => ruleOf g.id != .ticket)
        s.exposeAccept r p target codes (bound.map fun g => (g.id, g.val.toNat)))

/-! ## A clip (R358) -/

/-- The state with the clip of a request open in it, as admission sees it. -/
def State.withClip (s : State) (b : List Byte) : State :=
  match s.freeClipSlot with
  | some cc => s.setClip cc { id := 0, dir := 0, streams := s.clipStreams (setBits 16 (leAt b 8 2)) (setBits 8 (leAt b 10 1)), firstTick := 0 }
  | none => s

/-- CLIP_START (R358): the request's own checks, admission, then the clip opens. The plan changes at the next edge. -/
def execClipStart (r : Req) (payload : List Byte) (s : State) : Host.Outcome State Fault Refusal :=
  .next (s.request r 0x60 fun s =>
    if s.owns r.sess 57 = false then s.reply r 0x60 Status.NOT_OWNER []
    else if s.clipStartBad payload ≠ Status.OK then s.reply r 0x60 (s.clipStartBad payload) []
    else
      let plan := s.committed
      match admission plan (plan.withClip payload) with
      | (st, records) =>
        if st = Status.OK then
          let s := s.clipOpen r payload
          let a : Admitted := { r := r, op := 0x60, ids := [], vals := [], target := 0 }
          ({ s with tick := { s.tick with admitted := s.tick.admitted ++ [a] } }).updateRun
        else (if st = Status.BUDGET_EXCEEDED then s.count Tick.ADMIT_REFUSED else s).reply r 0x60 st records)

/-! ## The wake profile (R453) -/

/-- WAKE_PROFILE_ACTION (R452, R453): Negor commits PROFILE = WAKE_PROFILE without cell 1; not while it restarts. No session waits for a
reply. -/
def execWakeProfileAction (s : State) : Host.Outcome State Fault Refusal :=
  .next (match s.fab.wakeProfile with
    | none => s
    | some _ =>
      if s.negorAnswers then
        let s := { s with fab := { s.fab with wakeProfile := none } }
        let r : Req := { sess := 0, seq := 0, port := 0 }
        let es := centries s [(Tick.PROFILE, .num (s.rd Ev.WAKE_PROFILE))]
        let t := s.txn r 0x12 0 es
        match commitVerdict t es with
        | (st, _, _, _) =>
          if completes st then
            let a : Admitted := { r := r, op := 0x12, ids := t.ids, vals := ofRule .admitted es, target := 0 }
            { s with tick := { s.tick with admitted := s.tick.admitted ++ [a] } }
          else
            let s := if st = Status.BUDGET_EXCEEDED then s.count Tick.ADMIT_REFUSED else s
            if st = Status.BUDGET_EXCEEDED ∨ st = Status.CONFLICT then s.count Ev.WAKE_REFUSED else s
      else s)

end Sys2Proof.Machine
end

