-- ==== Sys2Proof/Machine/Observe.lean ====
section
/-! DEFINITION. Counter groups and snapshots (R487 to R490), and trace subscriptions and destinations (R491 to R493). -/

namespace Sys2Proof.Machine

/-! ## Counter groups (R488) -/

/-- The numbers, with index digits at 0, of the counters and maxima of a group: the rows of its parameter table that count events,
bytes, tick gaps or bit errors, or hold a longest wait. -/
def counterNums : Nat → List Nat
  | 0x02 => [0x000B, 0x0024, 0x0030, 0x0031, 0x0032, 0x0040, 0x0041, 0x0042]
  | 0x01 => [0x0021, 0x0030, 0x0031, 0x0032, 0x0033, 0x0034, 0x0035, 0x0036, 0x0037, 0x0038]
  | 0x10 => [0x0160, 0x0170, 0x0180, 0x0190, 0x01A0, 0x01B0, 0x0046, 0x0047, 0x0050, 0x0051, 0x0052, 0x0053, 0x0054, 0x0055, 0x0056, 0x0057, 0x0058, 0x0059, 0x005A]
  | 0x11 => [0x0030, 0x0031, 0x0032, 0x0033, 0x0034, 0x0035, 0x0036, 0x0037, 0x0038, 0x0039, 0x003A, 0x003B, 0x003C, 0x003D]
  | 0x12 => [0x0020, 0x0021, 0x0022, 0x0023, 0x0024, 0x0100]
  | 0x20 => [0x0043, 0x0050, 0x0051, 0x0052, 0x0053, 0x0054, 0x0055, 0x0056, 0x0057, 0x0058]
  | 0x21 => [0x0030, 0x1040, 0x1041, 0x1042]
  | 0x22 => [0x0010, 0x0011, 0x0012]
  | 0x28 => [0x0030, 0x0031, 0x0032, 0x0033, 0x0034, 0x0035, 0x0036]
  | 0x70 => [0x0020, 0x0021, 0x0022, 0x0023, 0x0024, 0x0025, 0x0026, 0x0027, 0x0028, 0x0029, 0x002A, 0x002B, 0x002C, 0x002D, 0x002E, 0x002F]
  | 0x30 => [0x0030, 0x0031, 0x0032, 0x0033, 0x0034, 0x0035, 0x0036, 0x0037, 0x0038, 0x0039, 0x003A, 0x003B, 0x003C, 0x2006]
  | 0x40 => [0x0030, 0x0031, 0x0032, 0x0033, 0x0034, 0x0035, 0x0036, 0x0037, 0x0038, 0x0039, 0x003A, 0x003B, 0x003C]
  | 0x41 => [0x0050, 0x0051, 0x0052, 0x0053, 0x0054, 0x0055, 0x0056, 0x0057, 0x0058]
  | 0x42 => [0x0030, 0x0031, 0x0032, 0x0033, 0x0034, 0x0035, 0x0036]
  | 0x43 => [0x0020, 0x0021, 0x0022, 0x0023, 0x0024, 0x0025, 0x0026, 0x0027, 0x0028, 0x0029]
  | 0x50 => [0x0050, 0x0051, 0x0052, 0x0053, 0x0054, 0x0055, 0x0056, 0x0057, 0x0058, 0x0059]
  | 0x51 => [0x0030, 0x0031, 0x0032, 0x0033, 0x0034, 0x0035, 0x0036, 0x0037, 0x0038, 0x0039, 0x003A, 0x003B, 0x003C, 0x003D, 0x003E, 0x003F, 0x0040, 0x0041, 0x0042]
  | 0x60 => [0x0020, 0x0021, 0x0022, 0x0023, 0x0024, 0x0025, 0x0026, 0x0027, 0x0028, 0x0110, 0x0111, 0x0112]
  | 0x80 => [0x0030, 0x0040, 0x0041, 0x0042, 0x0043, 0x0044, 0x0045, 0x0046, 0x0047, 0x0048, 0x0049, 0x004A, 0x0050, 0x0051]
  | 0x90 => [0x0003, 0x0004, 0x0102, 0x0103, 0x0104, 0x0041]
  | 0xA0 => [0x0030, 0x0031, 0x0032, 0x0033, 0x0034, 0x0035, 0x0036]
  | 0xB0 => [0x0030, 0x0031, 0x0032, 0x0033, 0x0035, 0x0036]
  | _ => []

/-- The numbers that a catalogue row covers, every index digit at each of its values. -/
def expandNums (num : Nat) (subs : List (Nat × Nat × Nat)) : List Nat :=
  subs.foldl (fun ns d => ns.flatMap fun n => (List.range d.2.2).map fun k => n + k * 2 ^ d.1) [num]

/-- A number put before the first that is not below it. -/
def insertNum (n : Nat) : List Nat → List Nat
  | [] => [n]
  | m :: r => if n ≤ m then n :: m :: r else m :: insertNum n r

/-- The counters and maxima of a parameter group and instance, in ascending order of number; empty for an unknown one. -/
def counterGroup (g inst : Nat) : List Nat :=
  let rows := (catalogueOf g).filter fun p =>
    (counterNums g).contains p.num && p.insts.any fun r => decide (r.1 ≤ inst ∧ inst ≤ r.2)
  (rows.flatMap fun p => expandNums p.num p.subs).foldr insertNum []

/-- The ID of a number of a group and instance. -/
def idOf (g inst num : Nat) : Nat := g * 2 ^ 24 + inst * 2 ^ 16 + num

/-- One snapshot: its header and entries (Table 19-6). -/
def State.snapshot (s : State) (r : GroupRef) : List Byte :=
  let nums := counterGroup r.group r.inst
  leBytes 1 r.group ++ leBytes 1 r.inst ++ leBytes 2 0 ++ leBytes 4 nums.length ++ leBytes 4 s.tickSeq ++ leBytes 2 0 ++ leBytes 2 s.epoch ++
    leBytes 8 s.deviceTime ++ nums.flatMap fun n => leBytes 2 n ++ leBytes 2 0 ++ leBytes 8 (s.rd (idOf r.group r.inst n))

/-- OBS_READ (R488, R489). -/
def execObsRead (r : Req) (groups : List GroupRef) (s : State) : Host.Outcome State Fault Refusal :=
  .next (s.request r 0x70 fun s =>
    if groups.length = 0 ∨ 16 < groups.length ∨ groups.any (fun g => (counterGroup g.group g.inst).isEmpty) then
      s.reply r 0x70 Status.BAD_PARAM []
    else
      let body := groups.flatMap s.snapshot
      (s.countBy Obs.SNAPSHOTS groups.length).reply r 0x70 Status.OK body)

/-- Counters that COUNTER_RESET leaves as they are (R490). -/
def resetExempt : List Nat := [Sys.CONTROL_RESTARTS, Th.SHUTDOWN_COUNT]

/-- COUNTER_RESET (R490). -/
def execCounterReset (r : Req) (g : GroupRef) (s : State) : Host.Outcome State Fault Refusal :=
  .next (s.request r 0x73 fun s =>
    let nums := counterGroup g.group g.inst
    if nums.isEmpty then s.reply r 0x73 Status.BAD_PARAM []
    else if s.owns r.sess 63 = false then s.reply r 0x73 Status.NOT_OWNER []
    else
      let ids := (nums.map (idOf g.group g.inst)).filter fun id => !resetExempt.contains id
      ((ids.foldl (fun (t : State) id => t.wr id 0) s).count Obs.COUNTER_RESETS).reply r 0x73 Status.OK [])

/-! ## Trace destinations (R491, R493) -/

def State.dest (s : State) (d : Nat) : TraceDest := tget s.obs.dests d {}
def State.setDest (s : State) (d : Nat) (x : TraceDest) : State :=
  { s with obs := { s.obs with dests := tset s.obs.dests d {} x } }

/-- The limits of a subscription's rate. -/
def traceRateOk (rate : Nat) : Bool := decide (10000 ≤ rate ∧ rate ≤ 50000000)

/-- OBS_SUBSCRIBE (R493): at most 4; a second one of a session replaces its first. -/
def execObsSubscribe (r : Req) (types rate : Nat) (s : State) : Host.Outcome State Fault Refusal :=
  .next (s.request r 0x71 fun s =>
    if traceRateOk rate = false then s.reply r 0x71 Status.RANGE []
    else
      let own := [1, 2, 3, 4].find? fun d => (s.dest d).sess == r.sess
      let free := [1, 2, 3, 4].find? fun d => (s.dest d).sess == 0
      match own.or free with
      | none => s.reply r 0x71 Status.NO_RESOURCE []
      | some d => (s.setDest d { sess := r.sess, types := types, rate := rate, credit := rate, creditAt := s.clock }).reply r 0x71 Status.OK [])

/-- OBS_UNSUBSCRIBE (R493). -/
def execObsUnsubscribe (r : Req) (s : State) : Host.Outcome State Fault Refusal :=
  .next (s.request r 0x72 fun s => (s.endSubscription r.sess).reply r 0x72 Status.OK [])

/-- TRACE_RECORD_PRODUCED (R491, R492): a record for every destination that takes it. -/
def execTraceRecordProduced (type source : Nat) (payload : List Byte) (s : State) : Host.Outcome State Fault Refusal :=
  .next (if s.traceRuns then s.trace type source payload else s)

/-- TRACE_SYNC_INTERVAL (R491). -/
def execTraceSyncInterval (s : State) : Host.Outcome State Fault Refusal :=
  .next (
    if s.traceRuns then
      let s := s.at s.obs.nextSync
      let s := s.trace 0 0 s.syncPayload
      { s with obs := { s.obs with nextSync := s.clock + s.rd Obs.TRACE_SYNC_INTERVAL * 1000000 } }
    else s)

/-- TRACE_LOST_RECORD (R491): room has returned after a loss. -/
def execTraceLostRecord (dest : Fin 5) (s : State) : Host.Outcome State Fault Refusal :=
  .next (if s.traceRuns then s.traceLost dest.val else s)

/-- TRACE_SUBSCRIPTION_SEND (R493): a datagram of 1 to 44 records, neither acknowledged nor sent again. -/
def execTraceSubscriptionSend (dest : Fin 4) (count : Nat) (s : State) : Host.Outcome State Fault Refusal :=
  .next (
    let d := dest.val + 1
    let x := s.dest d
    let n := min 44 (min count x.buffer.length)
    match s.session x.sess with
    | none => s
    | some u =>
      if s.negorAnswers = false ∨ n = 0 then s
      else
        let s := s.setDest d { x with buffer := x.buffer.drop n, dgram := (x.dgram + 1) % 2 ^ 32 }
        s.sendNmp u.port u.peer true ⟨x.sess, x.dgram, 0x71, 0, (x.buffer.take n).flatten⟩)

/-! ## The idle step -/

/-- What happens while no command waits: 2 ns pass, and the trace port goes on sending (DESIGN CHOICE). -/
def State.idle (s : State) : State := { s with clock := s.clock + 2 }.drainPort

end Sys2Proof.Machine
end

