-- ==== Sys2Proof/Machine/Dispatch.lean ====
section
/-! DEFINITION. The command dispatch: one arm per row of spec/opcode_table.json, each one call of its meaning. -/

namespace Sys2Proof.Machine

def exec (i : Instr) (s : State) : Host.Outcome State Fault Refusal :=
  match i with
  | .powerLoss ns => Sys2Proof.Machine.execPowerLoss ns s
  | .powerOnSuppliesValid bankMv => Sys2Proof.Machine.execPowerOnSuppliesValid bankMv s
  | .bankSupplyFault bank ns => Sys2Proof.Machine.execBankSupplyFault bank ns s
  | .rstNLow ns => Sys2Proof.Machine.execRstNLow ns s
  | .internalResetEnd bcb headers crcErrors => Sys2Proof.Machine.execInternalResetEnd bcb headers crcErrors s
  | .bootImageVerified header body => Sys2Proof.Machine.execBootImageVerified header body s
  | .negorStartConfirm => Sys2Proof.Machine.execNegorStartConfirm s
  | .bootConfirmTimeout => Sys2Proof.Machine.execBootConfirmTimeout s
  | .goldenInvalidBootRecord => Sys2Proof.Machine.execGoldenInvalidBootRecord s
  | .watchdogExpiry => Sys2Proof.Machine.execWatchdogExpiry s
  | .restartConfirmTimeout => Sys2Proof.Machine.execRestartConfirmTimeout s
  | .tickEdge drained built => Sys2Proof.Machine.execTickEdge drained built s
  | .tickLockAchieved => Sys2Proof.Machine.execTickLockAchieved s
  | .holdoverLimitExpiry => Sys2Proof.Machine.execHoldoverLimitExpiry s
  | .tickBudgetEnd building => Sys2Proof.Machine.execTickBudgetEnd building s
  | .jobComplete ctx sceneCycles endNs sceneLate rendLate statsLate => Sys2Proof.Machine.execJobComplete ctx sceneCycles endNs sceneLate rendLate statsLate s
  | .maintRequest act ch => Sys2Proof.Machine.execMaintRequest act ch s
  | .maintActivityDone failed => Sys2Proof.Machine.execMaintActivityDone failed s
  | .earlyStartEligible => Sys2Proof.Machine.execEarlyStartEligible s
  | .stripeComplete => Sys2Proof.Machine.execStripeComplete s
  | .readmissionDone => Sys2Proof.Machine.execReadmissionDone s
  | .dramSpeedChangeDone failed => Sys2Proof.Machine.execDramSpeedChangeDone failed s
  | .customBaseWrite r value => Sys2Proof.Machine.execCustomBaseWrite r value s
  | .tickSourceWrite r source offset fallback => Sys2Proof.Machine.execTickSourceWrite r source offset fallback s
  | .tickRateWrite r n d => Sys2Proof.Machine.execTickRateWrite r n d s
  | .profileWrite r value => Sys2Proof.Machine.execProfileWrite r value s
  | .nmpDatagramRx port vlan peer dst udpLen fragmented bytes => Sys2Proof.Machine.execNmpDatagramRx port vlan peer dst udpLen fragmented bytes s
  | .nmpReassemblyTimeout sess seq => Sys2Proof.Machine.execNmpReassemblyTimeout sess seq s
  | .sessionOpen port peer seq payload => Sys2Proof.Machine.execSessionOpen port peer seq payload s
  | .sessionClose r => Sys2Proof.Machine.execSessionClose r s
  | .heartbeat r payload => Sys2Proof.Machine.execHeartbeat r payload s
  | .sessionIdleClose sess => Sys2Proof.Machine.execSessionIdleClose sess s
  | .deviceRestart r => Sys2Proof.Machine.execDeviceRestart r s
  | .deviceRestartDelayEnd => Sys2Proof.Machine.execDeviceRestartDelayEnd s
  | .paramGet r entries => Sys2Proof.Machine.execParamGet r entries s
  | .paramSet r entries => Sys2Proof.Machine.execParamSet r entries s
  | .paramCommit r target => Sys2Proof.Machine.execParamCommit r target s
  | .paramDiscard r => Sys2Proof.Machine.execParamDiscard r s
  | .paramDescribe r ids => Sys2Proof.Machine.execParamDescribe r ids s
  | .paramWritePlain r id value => Sys2Proof.Machine.execParamWritePlain r id value s
  | .ownAcquire r cells leaseMs => Sys2Proof.Machine.execOwnAcquire r cells leaseMs s
  | .ownRelease r cells => Sys2Proof.Machine.execOwnRelease r cells s
  | .ownQuery r cells => Sys2Proof.Machine.execOwnQuery r cells s
  | .ownReclaim r cells => Sys2Proof.Machine.execOwnReclaim r cells s
  | .leaseExpiry cell => Sys2Proof.Machine.execLeaseExpiry cell s
  | .planQuery r => Sys2Proof.Machine.execPlanQuery r s
  | .bufAlloc r cell size => Sys2Proof.Machine.execBufAlloc r cell size s
  | .bufFree r handle => Sys2Proof.Machine.execBufFree r handle s
  | .bufInfo r handle => Sys2Proof.Machine.execBufInfo r handle s
  | .bufRdmaAccess qp key write offset length data => Sys2Proof.Machine.execBufRdmaAccess qp key write offset length data s
  | .unsupportedOpcode r opcode => Sys2Proof.Machine.execUnsupportedOpcode r opcode s
  | .notifyRetransmit sess seq => Sys2Proof.Machine.execNotifyRetransmit sess seq s
  | .ownerKeyWrite r key => Sys2Proof.Machine.execOwnerKeyWrite r key s
  | .rdmaMessageComplete qp key write => Sys2Proof.Machine.execRdmaMessageComplete qp key write s
  | .sensorPortEnableWrite r port value => Sys2Proof.Machine.execSensorPortEnableWrite r port value s
  | .xtrigEnableWrite r n value => Sys2Proof.Machine.execXtrigEnableWrite r n value s
  | .crlBlockRx port lane hdr payload => Sys2Proof.Machine.execCrlBlockRx port lane hdr payload s
  | .polarityTimeout port lane => Sys2Proof.Machine.execPolarityTimeout port lane s
  | .blockLockAchieved port lane => Sys2Proof.Machine.execBlockLockAchieved port lane s
  | .blockLockLoss lanes => Sys2Proof.Machine.execBlockLockLoss lanes s
  | .cdrLockLoss lanes => Sys2Proof.Machine.execCdrLockLoss lanes s
  | .lineHealthTestDone port m => Sys2Proof.Machine.execLineHealthTestDone port m s
  | .healthRetestTimer port lane => Sys2Proof.Machine.execHealthRetestTimer port lane s
  | .acquireAttemptEnd port lane lock bad eye => Sys2Proof.Machine.execAcquireAttemptEnd port lane lock bad eye s
  | .noSignalTimeout port lane => Sys2Proof.Machine.execNoSignalTimeout port lane s
  | .noSignalChange port lane below => Sys2Proof.Machine.execNoSignalChange port lane below s
  | .crlAlignRx port lane align ui => Sys2Proof.Machine.execCrlAlignRx port lane align ui s
  | .identifyTimeout port lane => Sys2Proof.Machine.execIdentifyTimeout port lane s
  | .crlUnknownControl port => Sys2Proof.Machine.execCrlUnknownControl port s
  | .crlDataOutsideLine port => Sys2Proof.Machine.execCrlDataOutsideLine port s
  | .crlFrameStartRx port frameCount => Sys2Proof.Machine.execCrlFrameStartRx port frameCount s
  | .crlFrameEndRx port frameCount linesSent => Sys2Proof.Machine.execCrlFrameEndRx port frameCount linesSent s
  | .crlLineRx port number endNumber width len payload crc => Sys2Proof.Machine.execCrlLineRx port number endNumber width len payload crc s
  | .embeddedLineRx port type number endNumber payload crc => Sys2Proof.Machine.execEmbeddedLineRx port type number endNumber payload crc s
  | .patgenFrameStart port => Sys2Proof.Machine.execPatgenFrameStart port s
  | .xtrigPulseStart n => Sys2Proof.Machine.execXtrigPulseStart n s
  | .xtrigPulseEnd n => Sys2Proof.Machine.execXtrigPulseEnd n s
  | .contextBindWrite r port value => Sys2Proof.Machine.execContextBindWrite r port value s
  | .defectMapWrite r port flags value => Sys2Proof.Machine.execDefectMapWrite r port flags value s
  | .ingestDeadline port => Sys2Proof.Machine.execIngestDeadline port s
  | .trfTileRowWritten port => Sys2Proof.Machine.execTrfTileRowWritten port s
  | .frameTicketWrite port => Sys2Proof.Machine.execFrameTicketWrite port s
  | .ctxEnableWrite r ctx value => Sys2Proof.Machine.execCtxEnableWrite r ctx value s
  | .lscTableWrite r ctx flags value => Sys2Proof.Machine.execLscTableWrite r ctx flags value s
  | .table1dWrite r ctx rend tone flags value => Sys2Proof.Machine.execTable1dWrite r ctx rend tone flags value s
  | .scalerTableWrite r ctx rend flags value => Sys2Proof.Machine.execScalerTableWrite r ctx rend flags value s
  | .lut3dWrite r ctx rend flags value => Sys2Proof.Machine.execLut3dWrite r ctx rend flags value s
  | .lutPendingLoadDone ctx rend => Sys2Proof.Machine.execLutPendingLoadDone ctx rend s
  | .sensorDescWrite r port flags value => Sys2Proof.Machine.execSensorDescWrite r port flags value s
  | .sensorModeWrite r port value => Sys2Proof.Machine.execSensorModeWrite r port value s
  | .modeSequenceDone port => Sys2Proof.Machine.execModeSequenceDone port s
  | .modeSequenceRetry port => Sys2Proof.Machine.execModeSequenceRetry port s
  | .exposeRequest r payload => Sys2Proof.Machine.execExposeRequest r payload s
  | .writeWindowOpen port => Sys2Proof.Machine.execWriteWindowOpen port s
  | .writeSetComplete port => Sys2Proof.Machine.execWriteSetComplete port s
  | .sequenceWaitEnd port => Sys2Proof.Machine.execSequenceWaitEnd port s
  | .i2cEnableWrite r bus value => Sys2Proof.Machine.execI2cEnableWrite r bus value s
  | .xferDescWrite r bus flags value => Sys2Proof.Machine.execXferDescWrite r bus flags value s
  | .i2cLineTestDone bus sclLow drivenHigh shorted sdaLow => Sys2Proof.Machine.execI2cLineTestDone bus sclLow drivenHigh shorted sdaLow s
  | .i2cClearingDone bus released => Sys2Proof.Machine.execI2cClearingDone bus released s
  | .i2cFaultRetry bus => Sys2Proof.Machine.execI2cFaultRetry bus s
  | .i2cBusFree bus => Sys2Proof.Machine.execI2cBusFree bus s
  | .i2cTransactionDone bus nackAddr nackData acked data => Sys2Proof.Machine.execI2cTransactionDone bus nackAddr nackData acked data s
  | .i2cArbLost bus place acked data => Sys2Proof.Machine.execI2cArbLost bus place acked data s
  | .i2cBusError bus acked => Sys2Proof.Machine.execI2cBusError bus acked s
  | .i2cOtherStart bus => Sys2Proof.Machine.execI2cOtherStart bus s
  | .i2cSclTimeout bus acked => Sys2Proof.Machine.execI2cSclTimeout bus acked s
  | .i2cSdaLowTimeout bus => Sys2Proof.Machine.execI2cSdaLowTimeout bus s
  | .i2cDriveFail bus acked => Sys2Proof.Machine.execI2cDriveFail bus acked s
  | .i2cPoll bus => Sys2Proof.Machine.execI2cPoll bus s
  | .i2cPollTimeout bus => Sys2Proof.Machine.execI2cPollTimeout bus s
  | .headEnableWrite r head value => Sys2Proof.Machine.execHeadEnableWrite r head value s
  | .hpdRise head caps => Sys2Proof.Machine.execHpdRise head caps s
  | .hpdLowTimeout head => Sys2Proof.Machine.execHpdLowTimeout head s
  | .hpdIrq head linkFailure => Sys2Proof.Machine.execHpdIrq head linkFailure s
  | .linkTrainingDone head works => Sys2Proof.Machine.execLinkTrainingDone head works s
  | .displayFrameStart head phaseErr => Sys2Proof.Machine.execDisplayFrameStart head phaseErr s
  | .displayLatchPoint head => Sys2Proof.Machine.execDisplayLatchPoint head s
  | .displayLineStart head line => Sys2Proof.Machine.execDisplayLineStart head line s
  | .layerUnderflow head layer line x => Sys2Proof.Machine.execLayerUnderflow head layer line x s
  | .ethEnableWrite r port mode value => Sys2Proof.Machine.execEthEnableWrite r port mode value s
  | .ethLockAchieved port => Sys2Proof.Machine.execEthLockAchieved port s
  | .ethTrainingTimeout port => Sys2Proof.Machine.execEthTrainingTimeout port s
  | .ethLinkLoss port uncorrected => Sys2Proof.Machine.execEthLinkLoss port uncorrected s
  | .pfcPauseRx port priority quanta => Sys2Proof.Machine.execPfcPauseRx port priority quanta s
  | .pfcStorm port => Sys2Proof.Machine.execPfcStorm port s
  | .pfcRxBufferThreshold port above => Sys2Proof.Machine.execPfcRxBufferThreshold port above s
  | .cnpRx qp => Sys2Proof.Machine.execCnpRx qp s
  | .cnpRateRecovery qp => Sys2Proof.Machine.execCnpRateRecovery qp s
  | .ecnMarkedRx qp => Sys2Proof.Machine.execEcnMarkedRx qp s
  | .bufferServiceConnect port vlan qpn mtu data => Sys2Proof.Machine.execBufferServiceConnect port vlan qpn mtu data s
  | .senderAlignmentPoint n => Sys2Proof.Machine.execSenderAlignmentPoint n s
  | .st2110AudioRxPacket n path vlan seq stamp payload => Sys2Proof.Machine.execSt2110AudioRxPacket n path vlan seq stamp payload s
  | .ptpMessageRx port vlan bytes => Sys2Proof.Machine.execPtpMessageRx port vlan bytes s
  | .ptpAnnounceTimeout => Sys2Proof.Machine.execPtpAnnounceTimeout s
  | .timeSetWrite r value => Sys2Proof.Machine.execTimeSetWrite r value s
  | .fsyncEdge n rising => Sys2Proof.Machine.execFsyncEdge n rising s
  | .fsyncStop n => Sys2Proof.Machine.execFsyncStop n s
  | .ringEnableWrite r value => Sys2Proof.Machine.execRingEnableWrite r value s
  | .ringBlockLock port => Sys2Proof.Machine.execRingBlockLock port s
  | .ringTickRx port tick lo hi ps => Sys2Proof.Machine.execRingTickRx port tick lo hi ps s
  | .ringEventRx port block => Sys2Proof.Machine.execRingEventRx port block s
  | .ringDelayReqRx port block turnaround => Sys2Proof.Machine.execRingDelayReqRx port block turnaround s
  | .ringDelayRespRx port block roundTrip => Sys2Proof.Machine.execRingDelayRespRx port block roundTrip s
  | .ringStatusRx port block child => Sys2Proof.Machine.execRingStatusRx port block child s
  | .ringPeriodicSend => Sys2Proof.Machine.execRingPeriodicSend s
  | .ringLinkLoss port headerErrors => Sys2Proof.Machine.execRingLinkLoss port headerErrors s
  | .ringEventSend c => Sys2Proof.Machine.execRingEventSend c s
  | .st2110PacketSend n => Sys2Proof.Machine.execSt2110PacketSend n s
  | .ptpIntervalSend port kind => Sys2Proof.Machine.execPtpIntervalSend port kind s
  | .localAckTimeout qp progress => Sys2Proof.Machine.execLocalAckTimeout qp progress s
  | .arpNdpIcmpRx port vlan kind address data => Sys2Proof.Machine.execArpNdpIcmpRx port vlan kind address data s
  | .mediaMount => Sys2Proof.Machine.execMediaMount s
  | .mediaFormatWrite r flags value => Sys2Proof.Machine.execMediaFormatWrite r flags value s
  | .mediaFormatDone => Sys2Proof.Machine.execMediaFormatDone s
  | .mediaRebuildWrite r value => Sys2Proof.Machine.execMediaRebuildWrite r value s
  | .mediaRebuildDone => Sys2Proof.Machine.execMediaRebuildDone s
  | .clipStart r payload => Sys2Proof.Machine.execClipStart r payload s
  | .clipStop r payload => Sys2Proof.Machine.execClipStop r payload s
  | .clipDeleteWrite r value => Sys2Proof.Machine.execClipDeleteWrite r value s
  | .clipMetaWrite r slot flags value => Sys2Proof.Machine.execClipMetaWrite r slot flags value s
  | .videoChunkStart port => Sys2Proof.Machine.execVideoChunkStart port s
  | .videoChunkWritten port => Sys2Proof.Machine.execVideoChunkWritten port s
  | .recorderCommitPoint => Sys2Proof.Machine.execRecorderCommitPoint s
  | .recorderCommitDone => Sys2Proof.Machine.execRecorderCommitDone s
  | .memberTimeout port => Sys2Proof.Machine.execMemberTimeout port s
  | .memberFail port cause => Sys2Proof.Machine.execMemberFail port cause s
  | .ssdPresenceChange port info => Sys2Proof.Machine.execSsdPresenceChange port info s
  | .nvmfAdminConnect port vlan mtu cid discovery sqsize kato hostNqn hostId => Sys2Proof.Machine.execNvmfAdminConnect port vlan mtu cid discovery sqsize kato hostNqn hostId s
  | .nvmfIoConnect port vlan mtu cid cntlid qid sqsize => Sys2Proof.Machine.execNvmfIoConnect port vlan mtu cid cntlid qid sqsize s
  | .nvmfPropertyGet cntlid cid offset => Sys2Proof.Machine.execNvmfPropertyGet cntlid cid offset s
  | .nvmfPropertySet cntlid cid offset value => Sys2Proof.Machine.execNvmfPropertySet cntlid cid offset value s
  | .nvmfDisconnect cntlid qid cid => Sys2Proof.Machine.execNvmfDisconnect cntlid qid cid s
  | .nvmeGetLogPage cntlid cid lid offset count => Sys2Proof.Machine.execNvmeGetLogPage cntlid cid lid offset count s
  | .nvmeIdentify cntlid cid cns nsid => Sys2Proof.Machine.execNvmeIdentify cntlid cid cns nsid s
  | .nvmeAbort cntlid cid sqid target => Sys2Proof.Machine.execNvmeAbort cntlid cid sqid target s
  | .nvmeSetFeatures cntlid cid fid value => Sys2Proof.Machine.execNvmeSetFeatures cntlid cid fid value s
  | .nvmeGetFeatures cntlid cid fid sel => Sys2Proof.Machine.execNvmeGetFeatures cntlid cid fid sel s
  | .nvmeAsyncEventRequest cntlid cid => Sys2Proof.Machine.execNvmeAsyncEventRequest cntlid cid s
  | .nvmeFirmwareCommit cntlid cid ca slot => Sys2Proof.Machine.execNvmeFirmwareCommit cntlid cid ca slot s
  | .nvmeFirmwareImageDownload cntlid cid offset data => Sys2Proof.Machine.execNvmeFirmwareImageDownload cntlid cid offset data s
  | .nvmeKeepAlive cntlid cid => Sys2Proof.Machine.execNvmeKeepAlive cntlid cid s
  | .nvmeInvalidOpcode cntlid qid cid opcode => Sys2Proof.Machine.execNvmeInvalidOpcode cntlid qid cid opcode s
  | .nvmeRead cntlid qid cid nsid slba blocks fua => Sys2Proof.Machine.execNvmeRead cntlid qid cid nsid slba blocks fua s
  | .nvmeWrite cntlid qid cid nsid slba blocks fua data => Sys2Proof.Machine.execNvmeWrite cntlid qid cid nsid slba blocks fua data s
  | .nvmeWriteZeroes cntlid qid cid nsid slba blocks fua => Sys2Proof.Machine.execNvmeWriteZeroes cntlid qid cid nsid slba blocks fua s
  | .nvmeFlush cntlid qid cid nsid => Sys2Proof.Machine.execNvmeFlush cntlid qid cid nsid s
  | .nvmeCommandComplete cntlid qid cid dataError => Sys2Proof.Machine.execNvmeCommandComplete cntlid qid cid dataError s
  | .pacerRelease port => Sys2Proof.Machine.execPacerRelease port s
  | .katoExpiry cntlid => Sys2Proof.Machine.execKatoExpiry cntlid s
  | .nvmfQueuePairLoss cntlid qid => Sys2Proof.Machine.execNvmfQueuePairLoss cntlid qid s
  | .targetEnableWrite r value => Sys2Proof.Machine.execTargetEnableWrite r value s
  | .audioPortEnableWrite r port value => Sys2Proof.Machine.execAudioPortEnableWrite r port value s
  | .audRingWrite r port flags value => Sys2Proof.Machine.execAudRingWrite r port flags value s
  | .slotMaskWrite r port value => Sys2Proof.Machine.execSlotMaskWrite r port value s
  | .muteWrite r port value => Sys2Proof.Machine.execMuteWrite r port value s
  | .applPositionWrite r port value => Sys2Proof.Machine.execApplPositionWrite r port value s
  | .familySourceWrite r family value => Sys2Proof.Machine.execFamilySourceWrite r family value s
  | .audioSampleFrame port slots => Sys2Proof.Machine.execAudioSampleFrame port slots s
  | .audioMuteTimeout port => Sys2Proof.Machine.execAudioMuteTimeout port s
  | .audioPeriodBoundary port => Sys2Proof.Machine.execAudioPeriodBoundary port s
  | .audioFsEdge port offset drift => Sys2Proof.Machine.execAudioFsEdge port offset drift s
  | .audioFsLost port => Sys2Proof.Machine.execAudioFsLost port s
  | .wordclockEdge family phaseErr => Sys2Proof.Machine.execWordclockEdge family phaseErr s
  | .wordclockStop family => Sys2Proof.Machine.execWordclockStop family s
  | .familyLockAchieved family => Sys2Proof.Machine.execFamilyLockAchieved family s
  | .familySlip family frames => Sys2Proof.Machine.execFamilySlip family frames s
  | .dramTrainingDone eyes => Sys2Proof.Machine.execDramTrainingDone eyes s
  | .dramRetrainDone ch eye => Sys2Proof.Machine.execDramRetrainDone ch eye s
  | .dramChannelFail ch cause => Sys2Proof.Machine.execDramChannelFail ch cause s
  | .dramCorrectedRead addr requester symbols => Sys2Proof.Machine.execDramCorrectedRead addr requester symbols s
  | .dramUncorrectable addr requester cause symbols => Sys2Proof.Machine.execDramUncorrectable addr requester cause symbols s
  | .dramRefreshDue ch sub rank index hits => Sys2Proof.Machine.execDramRefreshDue ch sub rank index hits s
  | .dramMr4Poll ch doubled temp => Sys2Proof.Machine.execDramMr4Poll ch doubled temp s
  | .dramAlertN ch => Sys2Proof.Machine.execDramAlertN ch s
  | .diagAddressWrite r address => Sys2Proof.Machine.execDiagAddressWrite r address s
  | .dramCommandSelect ch sub reqs => Sys2Proof.Machine.execDramCommandSelect ch sub reqs s
  | .eventSourceFire sources => Sys2Proof.Machine.execEventSourceFire sources s
  | .timerExpiry t => Sys2Proof.Machine.execTimerExpiry t s
  | .evioInputEdge e rising => Sys2Proof.Machine.execEvioInputEdge e rising s
  | .evioPulseEnd e => Sys2Proof.Machine.execEvioPulseEnd e s
  | .swFireWrite r value => Sys2Proof.Machine.execSwFireWrite r value s
  | .eventFireWrite r value => Sys2Proof.Machine.execEventFireWrite r value s
  | .eventFlagClearWrite r flag word value => Sys2Proof.Machine.execEventFlagClearWrite r flag word value s
  | .srcEnableWrite r src value => Sys2Proof.Machine.execSrcEnableWrite r src value s
  | .wakeNotifyAction => Sys2Proof.Machine.execWakeNotifyAction s
  | .wakeProfileAction => Sys2Proof.Machine.execWakeProfileAction s
  | .thermalCalibration diode monitors => Sys2Proof.Machine.execThermalCalibration diode monitors s
  | .thermalSample diode diodeFault monitors powerMw => Sys2Proof.Machine.execThermalSample diode diodeFault monitors powerMw s
  | .capStepUp => Sys2Proof.Machine.execCapStepUp s
  | .lifeMeterSample => Sys2Proof.Machine.execLifeMeterSample s
  | .counterReset r g => Sys2Proof.Machine.execCounterReset r g s
  | .obsRead r groups => Sys2Proof.Machine.execObsRead r groups s
  | .obsSubscribe r types rate => Sys2Proof.Machine.execObsSubscribe r types rate s
  | .obsUnsubscribe r => Sys2Proof.Machine.execObsUnsubscribe r s
  | .traceRecordProduced type source payload => Sys2Proof.Machine.execTraceRecordProduced type source payload s
  | .traceSyncInterval => Sys2Proof.Machine.execTraceSyncInterval s
  | .traceLostRecord dest => Sys2Proof.Machine.execTraceLostRecord dest s
  | .traceSubscriptionSend dest count => Sys2Proof.Machine.execTraceSubscriptionSend dest count s
  | .bankSupplyReturn bank => Sys2Proof.Machine.execBankSupplyReturn bank s

end Sys2Proof.Machine
end

