-- ==== Sys2Proof/Safety.lean ====
section
/-! DEFINITION. What counts as a sound state and as a safe step, and what it is for a command to leave everything else unchanged, in
the terms claims use. -/

namespace Sys2Proof.Machine

/-! ## Sound states -/

/-- A listed parameter is one that exists and can change, its value fits its type, and it is not at its reset value (R77, R80). -/
def RegOk (e : Nat × Word) : Prop :=
  ∃ p, paramOf e.1 = some p ∧ p.fixed = false ∧ e.2.toNat < 2 ^ p.type.width ∧ e.2 ≠ BitVec.ofNat 64 (resetOf p e.1)

/-- The parameter file in its canonical form. -/
def RegsWf (t : Table Word) : Prop := (tkeys t).Pairwise (· < ·) ∧ ∀ e ∈ t, RegOk e

/-- A sound state: the parameter file and the buffers' memory are in canonical form. -/
def State.Sound (s : State) : Prop := RegsWf s.regs ∧ Memory.wf s.nmp.mem

/-- A safe step: the block goes on. -/
def SafeStep (s : State) : Prop := ∃ t, step s = .next t

/-! ## Frames -/

/-- The parts of the state beside the parameters and the queue of commands. A part with a number is one instance: a lane (4 × port + lane),
a port, a bus, a context, a head, … -/
inductive Part where
  | clock | free | out | firings | blob (id : Nat)
  | pow | time | therm | obs
  | sessions | cells | buffers | mem | nmp
  | lane (k : Nat) | port (k : Nat) | trig (k : Nat) | ingest (k : Nat) | ticketing (k : Nat) | exposure (k : Nat) | bus (k : Nat)
  | ctx (k : Nat) | scene | tick | head (k : Nat)
  | eth (k : Nat) | qps | stream (k : Nat) | ptp | sync (k : Nat) | ringPort (k : Nat) | ring
  | media | aud (k : Nat) | family (k : Nat) | tgt | dram | fab
  deriving DecidableEq, Repr

/-- A part holds the same in two states. -/
def Part.same (s t : State) : Part → Prop
  | .clock => t.clock = s.clock
  | .free => t.freeCtr = s.freeCtr
  | .out => t.out = s.out
  | .firings => t.firings = s.firings
  | .blob id => t.rdBlob id = s.rdBlob id
  | .pow => t.pow = s.pow
  | .time => t.time = s.time
  | .therm => t.therm = s.therm
  | .obs => t.obs = s.obs
  | .sessions => t.nmp.sessions = s.nmp.sessions
  | .cells => t.nmp.cells = s.nmp.cells
  | .buffers => t.nmp.buffers = s.nmp.buffers ∧ t.nmp.bufSerial = s.nmp.bufSerial
  | .mem => ∀ a, memRead t.nmp.mem a = memRead s.nmp.mem a
  | .nmp => t.nmp.lastId = s.nmp.lastId ∧ t.nmp.partials = s.nmp.partials ∧ t.nmp.authReplies = s.nmp.authReplies ∧
      t.nmp.waits = s.nmp.waits ∧ t.nmp.ownerKey = s.nmp.ownerKey
  | .lane k => t.lane k = s.lane k
  | .port k => t.port k = s.port k
  | .trig k => t.trig k = s.trig k
  | .ingest k => t.ingest k = s.ingest k
  | .ticketing k => t.ticketing k = s.ticketing k
  | .exposure k => t.exposure k = s.exposure k
  | .bus k => t.bus k = s.bus k
  | .ctx k => t.ctxSt k = s.ctxSt k
  | .scene => t.scene = s.scene
  | .tick => t.tick = s.tick
  | .head k => t.head k = s.head k
  | .eth k => t.eth k = s.eth k
  | .qps => t.qps = s.qps ∧ t.qpSerial = s.qpSerial
  | .stream k => t.stream k = s.stream k
  | .ptp => t.ptp = s.ptp
  | .sync k => t.sync k = s.sync k
  | .ringPort k => t.ringPort k = s.ringPort k
  | .ring => t.ring = s.ring
  | .media => t.media = s.media
  | .aud k => t.aud k = s.aud k
  | .family k => t.family k = s.family k
  | .tgt => t.tgt = s.tgt
  | .dram => t.dram = s.dram
  | .fab => t.fab = s.fab

/-- Everything but the parts `ps` and the parameters `ids` is unchanged, the queue of commands and every byte of memory included. -/
def OnlyChanges (ps : List Part) (ids : List Nat) (s t : State) : Prop :=
  t.pending = s.pending ∧ (∀ p, p ∉ ps → p.same s t) ∧ ∀ id, id ∉ ids → t.rd id = s.rd id

/-- The parts that sending a NOTIFY moves: the record of what left the device with its free values, the sessions' NOTIFY sequences,
the trace destinations. -/
def sending : List Part := [.out, .free, .sessions, .obs]

/-- The counters of frames and bytes sent. -/
def txIds : List Nat := [Eth.TX_FRAMES 0, Eth.TX_FRAMES 1, Eth.TX_BYTES 0, Eth.TX_BYTES 1]

/-- The counters of trace records. -/
def traceIds : List Nat :=
  [Obs.TRACE_RECORDS, Obs.TRACE_DROPPED 0, Obs.TRACE_DROPPED 1, Obs.TRACE_DROPPED 2, Obs.TRACE_DROPPED 3, Obs.TRACE_DROPPED 4]

/-- The counters that count what the device sends itself: trace records, dropped notices, frames and bytes on the Ethernet ports. -/
def sendIds : List Nat :=
  [Obs.TRACE_RECORDS, Obs.TRACE_DROPPED 0, Obs.TRACE_DROPPED 1, Obs.TRACE_DROPPED 2, Obs.TRACE_DROPPED 3, Obs.TRACE_DROPPED 4,
    Sys.NOTIFY_DROPPED, Eth.TX_FRAMES 0, Eth.TX_FRAMES 1, Eth.TX_BYTES 0, Eth.TX_BYTES 1]

/-! ## Requests -/

/-- Negor takes a request with an opcode: it answers, the session is open, it is the request's turn in it, and the global state lets the
opcode run (R24, R27, R29, R65, R71). -/
def State.takes (s : State) (r : Req) (op : Nat) : Prop :=
  s.negorAnswers = true ∧ (s.session r.sess).isSome = true ∧ s.turn r = true ∧ s.gate op = Status.OK

/-- The state in which a request that Negor takes runs: its session has been active (R72). -/
def State.heard (s : State) (r : Req) : State :=
  match s.session r.sess with
  | some x => s.setSession r.sess { x with lastRequest := s.clock }
  | none => s

/-- The latest thing that left the device is the reply to a request, on its port to its source (R63, R74). -/
def State.replied (t : State) (r : Req) (op status : Nat) (payload : List Byte) : Prop :=
  ∃ mark, t.out.head? = some (.nmp r.port r.peer mark true ⟨r.sess, r.seq, op, status, payload⟩)

/-- RoCEv2 egress is free on both ports: no PFC pause holds it now, and none has left output behind (R313). -/
def State.roceFree (s : State) : Prop := ∀ p, s.paused p = false ∧ (s.eth p).held = []

/-- The storage target takes a command at once and its answer leaves at once: not in FAULT_HOLD, the DRAM in service, Negor running, RoCEv2
egress free (R24, R54, R313, R398). -/
def State.fetches (s : State) : Prop :=
  s.pow.global ≠ .faultHold ∧ s.tick.dramChange = false ∧ s.pow.restarting = false ∧ s.roceFree

/-- The parts that a completion of the storage target moves: the record of what left, its free values, the retries of the queue pair. -/
def answering : List Part := [.qps, .out, .free]

/-- The latest thing that left the device is the completion of a command of the storage target. -/
def State.answered (t : State) (c qid cid status result : Nat) (data : List Byte) : Prop :=
  ∃ port mark, t.out.head? = some (.nvme port mark c qid cid status result data)

/-- The completion of a command of the storage target is among what left the device. -/
def State.completed (t : State) (c qid cid status result : Nat) (data : List Byte) : Prop :=
  ∃ port mark, Output.nvme port mark c qid cid status result data ∈ t.out

/-! ## Commits -/

/-- What a command commits: the session's request and the entries, for each of the commits that the table names by their parameter. -/
def committedBy : Instr → Option (Req × List Entry)
  | .customBaseWrite r value => some (r, [numEntry Tick.CUSTOM_BASE value])
  | .tickSourceWrite r source offset fallback =>
    some (r, [numEntry Tick.TICK_SOURCE source, numEntry Tick.TICK_OFFSET (ofSigned 32 offset), numEntry Tick.TICK_FALLBACK fallback])
  | .tickRateWrite r n d => some (r, [numEntry Tick.TICK_RATE_N n, numEntry Tick.TICK_RATE_D d])
  | .profileWrite r value => some (r, [numEntry Tick.PROFILE value])
  | .paramWritePlain r id value =>
    some (r, [{ id := id, type := ((paramOf id).map fun p => p.type.code).getD 0, flags := 0, value := value }])
  | .ownerKeyWrite r key => some (r, [blobEntry Sys.OWNER_KEY 0 key])
  | .sensorPortEnableWrite r port value => some (r, [numEntry (Port.PORT_ENABLE port.val) value])
  | .xtrigEnableWrite r n value => some (r, [numEntry (Port.XTRIG_ENABLE n.val) value])
  | .contextBindWrite r port value => some (r, [numEntry (Ing.CONTEXT port.val) value])
  | .defectMapWrite r port flags value => some (r, [blobEntry (Ing.DEFECT_MAP port.val) flags value])
  | .ctxEnableWrite r ctx value => some (r, [numEntry (Ctx.CTX_ENABLE ctx.val) value])
  | .lscTableWrite r ctx flags value => some (r, [blobEntry (Rend.LSC_TABLE ctx.val) flags value])
  | .table1dWrite r ctx rend tone flags value =>
    some (r, [blobEntry (if tone then Rend.TONE_TABLE ctx.val rend.val else Rend.SHAPER_TABLE ctx.val rend.val) flags value])
  | .scalerTableWrite r ctx rend flags value => some (r, [blobEntry (Rend.SCALER_TABLE ctx.val rend.val) flags value])
  | .lut3dWrite r ctx rend flags value => some (r, [blobEntry (Rend.LUT3D ctx.val rend.val) flags value])
  | .sensorDescWrite r port flags value => some (r, [blobEntry (Sens.SENSOR_DESC port.val) flags value])
  | .sensorModeWrite r port value => some (r, [numEntry (Sens.SENSOR_MODE port.val) value])
  | .i2cEnableWrite r bus value => some (r, [numEntry (I2c.I2C_ENABLE bus.val) value])
  | .xferDescWrite r bus flags value => some (r, [blobEntry (I2c.XFER_DESC bus.val) flags value])
  | .headEnableWrite r head value => some (r, [numEntry (Head.HEAD_ENABLE head.val) value])
  | .ethEnableWrite r port mode value =>
    some (r, [numEntry (if mode then Eth.ETH_MODE port.val else Eth.ETH_ENABLE port.val) value])
  | .timeSetWrite r value => some (r, [numEntry Time.TIME_SET value])
  | .ringEnableWrite r value => some (r, [numEntry Ring.RING_ENABLE value])
  | .mediaFormatWrite r flags value => some (r, [blobEntry Rec.MEDIA_FORMAT flags value])
  | .mediaRebuildWrite r value => some (r, [numEntry Rec.MEDIA_REBUILD value])
  | .clipDeleteWrite r value => some (r, [numEntry Rec.CLIP_DELETE value])
  | .clipMetaWrite r slot flags value => some (r, [blobEntry (Rec.CLIP_META slot.val) flags value])
  | .targetEnableWrite r value => some (r, [numEntry Tgt.TARGET_ENABLE value])
  | .audioPortEnableWrite r port value => some (r, [numEntry (Aud.PORT_ENABLE port.val) value])
  | .audRingWrite r port flags value => some (r, [blobEntry (Aud.AUD_RING port.val) flags value])
  | .slotMaskWrite r port value => some (r, [numEntry (Aud.SLOT_MASK port.val) value])
  | .muteWrite r port value => some (r, [numEntry (Aud.MUTE port.val) value])
  | .applPositionWrite r port value => some (r, [numEntry (Aud.APPL_POSITION port.val) value])
  | .familySourceWrite r family value => some (r, [numEntry (Aud.FAMILY_SOURCE family.val) value])
  | .diagAddressWrite r address => some (r, [numEntry Dram.DIAG_ADDRESS address])
  | .swFireWrite r value => some (r, [numEntry Ev.SW_FIRE value])
  | .eventFireWrite r value => some (r, [numEntry Ring.EVENT_FIRE value])
  | .eventFlagClearWrite r flag word value => some (r, [numEntry (0x90000201 + 0x10000 * word.val + flag.val) value])
  | .srcEnableWrite r src value => some (r, [numEntry (Ev.SRC_ENABLE src.val) value])
  | _ => none

/-- Entries that PARAM_SET would take from a session, with the bytes of every buffer that they name (R76 to R78). -/
def State.wellGiven (s : State) (sess : Nat) (es : List Entry) : Prop :=
  ∀ e ∈ es, s.stageStatus sess e = Status.OK ∧ (s.resolve e.id (s.setStatus sess e).2).isSome = true

/-- The values of entries, those in a buffer read now. -/
def State.entryVals (s : State) (sess : Nat) (es : List Entry) : List (Nat × PVal) :=
  es.filterMap fun e => (s.resolve e.id (s.setStatus sess e).2).map fun v => (e.id, v)

end Sys2Proof.Machine
end

