-- ==== Sys2Proof/Certificates/Slice0/Obligations.lean ====
section
/-! DEFINITION. The statements for the provers. -/

open Sys2Proof Sys2Proof.Machine

/-! ## The block as a whole -/

/-- A step takes the command at the front of the queue and runs it on the state with the queue's rest. On an empty queue the block idles, which is the
model's choice (log 1): 2 ns pass, the trace port goes on sending, and no parameter changes. -/
def Obligations.AStepRunsTheFrontCommand : Prop :=
  (∀ (c : Instr) (s : State), step { s with pending := c :: s.pending } = exec c s) ∧
  ∀ s : State, s.pending = [] → ∃ t, step s = .next t ∧ t.clock = s.clock + 2 ∧ OnlyChanges [.clock, .obs, .out] [] s t

/-- Every step keeps a sound state sound: the parameter file lists only parameters that exist and can change, each within its type and off its reset
value, in the order of their IDs (R77, R80), and the buffers' memory is in canonical form. -/
def Obligations.EveryStepKeepsTheStateSound : Prop :=
  ∀ s t : State, s.Sound → step s = .next t → t.Sound

/-- Every command completes in every state, but for supplies beyond the absolute maximum, where the model stops (log 14); none touches the queue of
commands, and none runs the device clock back. -/
def Obligations.CommandsLeaveTheQueueAndTheClock : Prop :=
  ∀ (c : Instr) (s : State),
    (∃ mv, c = .powerOnSuppliesValid mv ∧ (∃ v ∈ mv, 3800 < v) ∧ exec c s = .fault .absoluteMaximum) ∨
      ∃ t, exec c s = .next t ∧ t.pending = s.pending ∧ s.clock ≤ t.clock

/-- The state after reset is sound.

R476, Table 01-5 and the parameter tables: the state after reset is BOOT in internal reset, with no session, no byte in a buffer and every parameter
at the reset value of its table. -/
def Obligations.ResetIsSoundAndHoldsTheTables : Prop :=
  (State.reset.Sound) ∧
  (State.reset.pow.global = .boot ∧ State.reset.pow.phase = .inReset ∧ State.reset.pending = [] ∧ State.reset.nmp.sessions = [] ∧ (∀ a, memRead State.reset.nmp.mem a = memBlank) ∧
   (∀ id, State.reset.rd id = resetValue id) ∧
   State.reset.rd Tick.PROFILE = 1 ∧ State.reset.rd Tick.TICK_SOURCE = 0 ∧ State.reset.rd (Aud.TDM_FORMAT 7) = 0x01110161 ∧
   State.reset.rd (Aud.SAMPLE_FORMAT 0) = 0xA ∧ State.reset.rd Dram.CHANNELS_IN_SERVICE = 0xFF ∧ State.reset.rd Dram.POSTPONE_LIMIT = 4 ∧
   State.reset.rd (Dram.DEVICE_MARK 3) = 0xFFFF ∧ State.reset.rd (Ev.SRC_ENABLE 255) = 1 ∧ State.reset.rd (Ev.LOOP_LIMIT 0) = 64 ∧
   State.reset.rd (Ev.TIMER_DELAY 15) = 1000000 ∧ State.reset.rd Th.SHUTDOWN_THRESHOLD = 2080 ∧ State.reset.rdS Th.COLD_LIMIT = -720 ∧
   State.reset.rd Th.MONITOR_VALID = 0x1FFFF ∧ State.reset.rd Obs.TRACE_PORT_TYPES = 0x1E3 ∧ State.reset.rd Obs.TRACE_SYNC_INTERVAL = 1000)

/-- R77, R80: a value written to a parameter reads back, cut to the width of its type; an ID that names no parameter and a fixed parameter discard the
write; no other parameter changes, and a sound state stays sound.

R487: an event counter that stands at 2^48 − 1 with SAT stays there whatever is counted, one below counts on, and one that reaches 2^48 − 1 sets
SAT; a byte counter wraps. -/
def Obligations.ParametersAndCountersHold : Prop :=
  (∀ (id v : Nat) (s : State),
     (∀ p, paramOf id = some p → p.fixed = false → (s.wr id v).rd id = v % 2 ^ p.type.width) ∧
     ((paramOf id = none ∨ ∃ p, paramOf id = some p ∧ p.fixed = true) → s.wr id v = s) ∧
     OnlyChanges [] [id] s (s.wr id v) ∧ (s.Sound → (s.wr id v).Sound)) ∧
  (∀ (id n : Nat) (p : Param) (s : State), paramOf id = some p → p.fixed = false → p.type = .u64 →
     let v := s.rd id
     (bit v 63 = true → (s.countBy id n).rd id = v) ∧
     (v < 2 ^ 48 - 1 → (s.countBy id n).rd id = (if v + n < 2 ^ 48 - 1 then v + n else 2 ^ 48 - 1 + 2 ^ 63)) ∧
     (s.addBytes id n).rd id = (v + n) % 2 ^ 64 ∧ OnlyChanges [] [id] s (s.countBy id n) ∧ OnlyChanges [] [id] s (s.addBytes id n))

/-! ## Power, reset and boot (spec/01, 19, 20) -/

/-- R497, R500 (Table 01-5): a core-side rail below its minimum for 1 µs or longer takes the device to OFF from every other state; no session and no
byte of a buffer is left, and every parameter but the ones that show the sensors, the sinks and the last restart stands at its reset value. A
shorter dip changes nothing. -/
def Obligations.PowerLossTakesTheDeviceToOff : Prop :=
  ∀ (ns : Nat) (s : State),
    (ns < 1000 → exec (.powerLoss ns) s = .next s) ∧
    (1000 ≤ ns → s.pow.global ≠ .off →
      ∃ t, exec (.powerLoss ns) s = .next t ∧ t.pow.global = .off ∧ t.pending = s.pending ∧ t.clock = s.clock ∧
        t.nmp.sessions = [] ∧ (∀ a, memRead t.nmp.mem a = memBlank) ∧
        ∀ id, id ∉ keptOverBoot → t.rd id = resetValue id)

/-- R26, R501: with all supplies valid and RST_N high the device leaves OFF for BOOT with its bank supplies sensed, 3.3 V above 2.5 V; in any other
state the supplies are valid already and nothing changes. R496 (the model's fault, log 14): a bank supply beyond the absolute maximum of Table 20-1
is a fault.

R501: a bank supply outside the range of its sensed voltage for 1 µs or longer releases every ball of its bank to high impedance until it returns,
and no global state changes. -/
def Obligations.BankSuppliesAreSensedAndReleased : Prop :=
  (∀ (mv : List Nat) (s : State),
     ((∃ v ∈ mv, 3800 < v) → exec (.powerOnSuppliesValid mv) s = .fault .absoluteMaximum) ∧
     ((∀ v ∈ mv, v ≤ 3800) → s.pow.global ≠ .off → exec (.powerOnSuppliesValid mv) s = .next s) ∧
     ((∀ v ∈ mv, v ≤ 3800) → s.pow.global = .off →
       ∃ t, exec (.powerOnSuppliesValid mv) s = .next t ∧ t.pow.global = .boot ∧ t.pow.phase = .inReset ∧
         t.pow.resetEnd = s.clock + 20000 ∧ (∀ b, b < 4 → bit t.pow.banksHigh b = decide (2500 < mv.getD b 0)) ∧
         OnlyChanges [.pow, .time, .therm, .out, .obs] (Sys.LAST_RESTART_CAUSE :: traceIds) s t)) ∧
  (∀ (b : Fin 4) (ns : Nat) (s : State),
     (1000 ≤ ns → s.pow.global ≠ .off → bit s.pow.banksReleased b.val = false →
       ∃ t, exec (.bankSupplyFault b ns) s = .next t ∧ bit t.pow.banksReleased b.val = true ∧
         (∀ j, j ≠ b.val → bit t.pow.banksReleased j = bit s.pow.banksReleased j) ∧ t.pow.global = s.pow.global ∧
         t.out = .pin ("VDDIO_" ++ bankName b.val) 2 :: s.out ∧ OnlyChanges [.pow, .out] [] s t) ∧
     (ns < 1000 → exec (.bankSupplyFault b ns) s = .next s) ∧
     (bit s.pow.banksReleased b.val = true →
       ∃ t, exec (.bankSupplyReturn b) s = .next t ∧ bit t.pow.banksReleased b.val = false ∧
         (∀ j, j ≠ b.val → bit t.pow.banksReleased j = bit s.pow.banksReleased j) ∧ t.pow.global = s.pow.global ∧
         t.out = .pin ("VDDIO_" ++ bankName b.val) 1 :: s.out ∧ OnlyChanges [.pow, .out] [] s t))

/-- R476: a low pulse of 1 µs or longer on RST_N resets the device, a shorter one is ignored. After the pulse the device is in BOOT with the pins in
their reset state and the clocks stopped, and internal reset ends 20 µs after RST_N rises. The Ledger keeps its records, a write in progress
completed, and the SSDs stay; no session and no byte of a buffer is left; every parameter but the ones that a BOOT keeps and the counters of trace
records stands at its reset value. LAST_RESTART_CAUSE reads 1, or 5 out of THERMAL_OFF, and THERM_SHDN is low (log 15).

R476, R479, R482, R466: internal reset ends, and the clocks start. With a valid board configuration block the boot ROM selects the slot that R482
chooses, or none; after THERMAL_OFF with the junction estimate not yet below the shutdown threshold minus the hysteresis it waits instead. An
invalid block leaves the device in BOOT with no slot selected.

R478, R23, R24, R93: the watchdog restarts the control cluster: every session is closed, Negor does not answer, LAST_RESTART_CAUSE reads 3, and 300
ms are given; the global state, the tick, the sensor lanes, the heads and the buffers' bytes go on as they were. The third restart in a row without
confirmation takes the device to BOOT. -/
def Obligations.ResetsEnterBootAndSelectAnImage : Prop :=
  (∀ (ns : Nat) (s : State),
     (ns < 1000 → exec (.rstNLow ns) s = .next s) ∧
     (1000 ≤ ns → s.pow.global ≠ .off →
       ∃ t, exec (.rstNLow ns) s = .next t ∧ t.pow.global = .boot ∧ t.pow.phase = .inReset ∧ t.clock = s.clock + ns ∧
         t.pow.resetEnd = t.clock + 20000 ∧ t.pow.pinsReset = true ∧ t.pow.clocksStopped = true ∧
         t.pow.thermShdn = false ∧ t.nmp.sessions = [] ∧ (∀ a, memRead t.nmp.mem a = memBlank) ∧ t.media.ssds = s.media.ssds ∧
         t.pow.ledger = s.finishLedger.pow.ledger ∧
         t.rd Sys.LAST_RESTART_CAUSE = (if s.pow.global = .thermalOff then 5 else 1) ∧ t.pending = s.pending ∧
         ∀ id, id ∉ keptOverBoot → id ∉ traceIds → t.rd id = resetValue id)) ∧
  (∀ (bcb : List Byte) (hs : List (List Byte)) (bad : List Nat) (s : State), s.pow.global = .boot → s.pow.phase = .inReset →
     (readBoard bcb = none →
       ∃ t, exec (.internalResetEnd bcb hs bad) s = .next t ∧ t.pow.phase = .badConfig ∧ t.pow.global = .boot ∧
         t.pow.clocksStopped = false ∧ OnlyChanges [.clock, .pow, .out, .obs] (Obs.LEDGER_CRC_ERRORS :: traceIds) s t) ∧
     (∀ c, readBoard bcb = some c →
       ∃ t, exec (.internalResetEnd bcb hs bad) s = .next t ∧ t.pow.global = .boot ∧ t.pow.board = c ∧ t.pow.clocksStopped = false ∧
         t.pow.pinsReset = false ∧
         t.pow.phase = (if s.pow.afterThermalOff = true ∧ t.rdS Th.SHUTDOWN_THRESHOLD - t.rdS Th.HOT_HYSTERESIS ≤ t.rdS Th.JUNCTION then .cooling
           else match t.bootChoice with | 0 => .noImage | k => .verifying k))) ∧
  (∀ s : State, s.negorExecutes = true →
     (s.pow.restarting = false →
       ∃ t, exec .watchdogExpiry s = .next t ∧ t.pow.restarting = true ∧ t.negorAnswers = false ∧ t.pow.global = s.pow.global ∧
         t.pow.confirmDue = s.clock + 300000000 ∧ t.nmp.sessions = [] ∧ t.rd Sys.LAST_RESTART_CAUSE = 3 ∧
         t.tick = s.tick ∧ t.lanes = s.lanes ∧ t.dram = s.dram ∧ t.ctxs = s.ctxs ∧ ∀ a, memRead t.nmp.mem a = memRead s.nmp.mem a) ∧
     (s.pow.restarting = true → 2 ≤ s.pow.unconfirmed →
       ∃ t, exec .restartConfirmTimeout s = .next t ∧ t.pow.global = .boot ∧ t.rd Sys.LAST_RESTART_CAUSE = 3 ∧
         t.clock = max s.clock s.pow.confirmDue) ∧
     (s.pow.restarting = true → s.pow.unconfirmed < 2 →
       ∃ t, exec .restartConfirmTimeout s = .next t ∧ t.pow.global = s.pow.global ∧ t.pow.restarting = true ∧
         t.pow.unconfirmed = s.pow.unconfirmed + 1 ∧ t.nmp.sessions = [] ∧ t.tick = s.tick))

/-- R480, R482, R483: the selected image, once read, shows its status as a whole in SLOT_STATUS. A valid one starts Negor: WARMUP, BOOT_SLOT reading the
slot, one more start counted in CONTROL_RESTARTS, and 500 ms to confirm. Otherwise the device stays in BOOT and the boot ROM selects again.

R483: while no image boots, the boot ROM sends a BOOT record every 1 s, and the device remains in BOOT.

R481, R483: Negor of slot `k` confirms its first start: BOOT_FAILS of its slot returns to 0, and SEC_VERSION_FLOOR is raised to the SLOT_SEC_VERSION
of its slot where that is higher and the slot is not the golden one; the floor never decreases.

R483: a start without confirmation within its 500 ms takes the device back to internal reset in BOOT, no session is left, the Ledger writes that
waited are made, and LAST_RESTART_CAUSE stays; that it does so through the whole of BOOT is the model's choice (log 154). -/
def Obligations.ImagesBootConfirmOrFail : Prop :=
  (∀ (h body : List Byte) (slot : Nat) (s : State), s.pow.global = .boot → s.pow.phase = .verifying slot → 1 ≤ slot → slot ≤ 3 →
     ∃ t, exec (.bootImageVerified h body) s = .next t ∧
       t.rd (Obs.SLOT_STATUS slot) = imageStatus slot (s.rd Obs.SEC_VERSION_FLOOR) h body ∧ t.slotHeader slot = h ∧
       (if imageStatus slot (s.rd Obs.SEC_VERSION_FLOOR) h body = 0 then
         t.pow.global = .warmup ∧ t.pow.phase = .started ∧ t.pow.confirmed = false ∧ t.pow.confirmDue = s.clock + 500000000 ∧
           t.rd Obs.BOOT_SLOT = slot ∧ t.rd Sys.CONTROL_RESTARTS = countUp (s.rd Sys.CONTROL_RESTARTS) 1
       else t.pow.global = .boot ∧ t.pow.phase = (match t.bootChoice with | 0 => .noImage | k => .verifying k))) ∧
  (∀ s : State, s.pow.global = .boot → s.pow.phase = .noImage →
     ∃ t, exec .goldenInvalidBootRecord s = .next t ∧ t.pow.global = .boot ∧ t.pow.phase = .noImage ∧
       t.clock = max s.clock (s.pow.confirmDue + 1000000000) ∧ t.pow.confirmDue = t.clock ∧
       t.rd Obs.TRACE_RECORDS = countUp (s.rd Obs.TRACE_RECORDS) 1 ∧
       OnlyChanges [.clock, .pow, .out, .obs] traceIds s t) ∧
  (∀ (s : State) (k : Nat), s.negorExecutes = true → s.pow.confirmed = false → s.pow.restarting = false → s.rd Obs.BOOT_SLOT = k →
     1 ≤ k → k ≤ 3 → s.rd (Obs.SLOT_SEC_VERSION k) < 2 ^ 32 → s.rd Obs.SEC_VERSION_FLOOR < 2 ^ 32 →
     ∃ t, exec .negorStartConfirm s = .next t ∧ t.pow.confirmed = true ∧ t.rd (Obs.BOOT_FAILS k) = 0 ∧
       t.rd Obs.SEC_VERSION_FLOOR =
         (if k ≠ 1 then max (s.rd Obs.SEC_VERSION_FLOOR) (s.rd (Obs.SLOT_SEC_VERSION k)) else s.rd Obs.SEC_VERSION_FLOOR) ∧
       s.rd Obs.SEC_VERSION_FLOOR ≤ t.rd Obs.SEC_VERSION_FLOOR) ∧
  (∀ s : State, s.negorExecutes = true → s.pow.confirmed = false → s.pow.restarting = false →
     ∃ t, exec .bootConfirmTimeout s = .next t ∧ t.pow.global = .boot ∧ t.pow.phase = .inReset ∧
       t.clock = max s.clock s.pow.confirmDue ∧ t.nmp.sessions = [] ∧ t.pow.ledgerQueue = [] ∧
       t.rd Sys.LAST_RESTART_CAUSE = s.rd Sys.LAST_RESTART_CAUSE % 2 ^ 32)

/-- R477: DEVICE_RESTART requires cell 0; from its owner it is answered OK in every state in which Negor answers, at its turn in its session, and the
device enters BOOT 10 ms after the reply, with LAST_RESTART_CAUSE 2. -/
def Obligations.DeviceRestartTakesTenMilliseconds : Prop :=
  ∀ (r : Req) (s : State), s.negorAnswers = true → (s.session r.sess).isSome = true → s.turn r = true →
    (s.owns r.sess 0 = true →
      ∃ t, exec (.deviceRestart r) s = .next t ∧ t.replied r 0x04 Status.OK [] ∧ t.pow.restartDue = some (s.clock + 10000000) ∧
        t.pow.global = s.pow.global ∧ OnlyChanges [.pow, .out, .free, .sessions] txIds s t) ∧
    (s.owns r.sess 0 = false →
      ∃ t, exec (.deviceRestart r) s = .next t ∧ t.replied r 0x04 Status.NOT_OWNER [] ∧ t.pow = s.pow) ∧
    (∀ due, s.pow.restartDue = some due → s.negorExecutes = true →
      ∃ t, exec .deviceRestartDelayEnd s = .next t ∧ t.pow.global = .boot ∧ t.clock = max s.clock due ∧
        t.rd Sys.LAST_RESTART_CAUSE = 2 ∧ t.nmp.sessions = [] ∧ t.pow.ledgerQueue = [])

/-! ## The Frame Tick (spec/02) -/

/-- R34, R35, R325: the first tick edge after BOOT lies on the first point of the 2 ns grid from the present clock on and has Tick Sequence 0. Every
later one lies on that grid less than 2 ns from its ideal position, which is the nominal one moved by at most 100 ppm of a period unless the edge is
stepped, and the Tick Sequence grows by 1 and wraps. What the edge then does starts from that state. Where no tick runs the command changes nothing
(the model's choice, log 26).

R36, R325, R326: whatever the phase error, the position of a tick edge never comes closer to the one before than half a period; a stepped edge takes
the first alignment point from there on, less than one more period away, and is counted in STEPPED_TICKS.

R38, R39 (Table 02-2): ACQUIRING becomes LOCKED after 8 consecutive ticks within ±100 ns, with TICK_SOURCE RING only where the parent's rate check
matches; before that the command changes nothing. HOLDOVER that reaches HOLDOVER_LIMIT selects the next entry of TICK_FALLBACK, or stays where none
is left. Each change of state counts in TICK_STATE_CHANGES. -/
def Obligations.TicksArePlacedOnTheirGrid : Prop :=
  (∀ (drained built : Bool) (s : State),
     (s.tickRuns = false → exec (.tickEdge drained built) s = .next s) ∧
     (s.tickRuns = true → s.tick.first = true →
       ∃ t u, exec (.tickEdge drained built) s = .next t ∧ u = s.edgeAt ∧ t = ((u.overruns drained built).maintWaited).tickWork ∧
         u.tick.edgeAt = s.clock + s.clock % 2 ∧ u.clock = u.tick.edgeAt ∧ u.tickSeq = 0 ∧ u.tick.running = true ∧
         OnlyChanges [.tick, .clock] [Tick.TICK_SEQUENCE, Obs.BOOT_TIME_TICK] s u) ∧
     (s.tickRuns = true → s.tick.first = false → 0 < s.rd Tick.TICK_RATE_N →
       ∃ t u, exec (.tickEdge drained built) s = .next t ∧ u = s.edgeAt ∧ t = ((u.overruns drained built).maintWaited).tickWork ∧
         u.tickSeq = (s.tickSeq + 1) % 2 ^ 32 ∧ u.tick.edgeAt % 2 = 0 ∧ u.clock = max s.clock u.tick.edgeAt ∧
         (((u.tick.edgeAt * s.rd Tick.TICK_RATE_N : Nat) : Int) - (u.tick.pos : Int)).natAbs < 2 * s.rd Tick.TICK_RATE_N ∧
         (s.edgeSteps s.edgeError = false →
           (((u.tick.pos : Nat) : Int) - (s.nextPos : Int)).natAbs ≤ s.periodNum / 10000 ∧
           OnlyChanges [.tick, .clock] [Tick.TICK_SEQUENCE] s u))) ∧
  (∀ (e : Int) (s : State),
     s.tick.pos + s.periodNum / 2 ≤ s.placeEdge e ∧
     (s.edgeSteps e = true → s.periodNum ≠ 0 →
       s.placeEdge e < s.tick.pos + s.periodNum / 2 + s.periodNum ∧
       (0 ≤ ((s.periodNum / 2 : Nat) : Int) + e * (s.rd Tick.TICK_RATE_N : Int) →
         ((s.placeEdge e : Nat) : Int) % (s.periodNum : Int) =
           ((s.tick.pos + s.periodNum / 2 + s.periodNum / 2 : Nat) + e * (s.rd Tick.TICK_RATE_N : Int)) % (s.periodNum : Int))) ∧
     (s.tick.first = false → s.edgeSteps s.edgeError = true →
       s.edgeAt.rd Time.STEPPED_TICKS = countUp (s.rd Time.STEPPED_TICKS) 1)) ∧
  (∀ s : State,
     (s.rd Tick.TICK_STATE = 1 → 8 ≤ s.tick.lockRun → (s.tick.src ≠ 4 ∨ s.ringRateOk = true) →
       ∃ t, exec .tickLockAchieved s = .next t ∧ t.rd Tick.TICK_STATE = 2 ∧
         t.rd Tick.TICK_STATE_CHANGES = countUp (s.rd Tick.TICK_STATE_CHANGES) 1 ∧ t.firings = s.firings ++ [(3, s.clock)] ∧
         OnlyChanges (.firings :: sending) (Tick.TICK_STATE :: Tick.TICK_STATE_CHANGES :: sendIds) s t) ∧
     ((s.rd Tick.TICK_STATE ≠ 1 ∨ s.tick.lockRun < 8 ∨ (s.tick.src = 4 ∧ s.ringRateOk = false)) → exec .tickLockAchieved s = .next s) ∧
     (s.rd Tick.TICK_STATE = 3 → ∀ n, s.nextFallback = some n →
       ∃ t, exec .holdoverLimitExpiry s = .next t ∧ t.tick.src = n ∧ t.tick.fallback = s.tick.fallback + 1 ∧
         t.rd Tick.TICK_STATE = (if n = 0 then 0 else 1) ∧ t.rd Tick.TICK_STATE_CHANGES = countUp (s.rd Tick.TICK_STATE_CHANGES) 1 ∧
         OnlyChanges (.clock :: .tick :: .firings :: sending) (Tick.TICK_STATE :: Tick.TICK_STATE_CHANGES :: sendIds) s t) ∧
     (s.rd Tick.TICK_STATE = 3 → s.nextFallback = none →
       ∃ t, exec .holdoverLimitExpiry s = .next t ∧ t.rd Tick.TICK_STATE = 3 ∧
         t.clock = max s.clock (s.tick.holdAt + 1000000 * s.rd Tick.HOLDOVER_LIMIT) ∧ OnlyChanges [.clock] [] s t))

/-- R46, R47, R49: at the end of the tick budget ES1 fires; with every job finished the gap begins, and else the jobs run on. A job that completes
counts in LATE_COUNT of each engine whose part of it ended late, the statistics renderers only where the job has work for them, and the last one
after the budget begins the gap. A tick edge leaves no job of a context that is not being deactivated.

R49, R50: a maintenance request outside a gap waits, and a repeated one merges; in a gap that has run none yet, a request that finds nothing waiting
starts where its longest run fits the time left. One that ends is counted, and its Ledger write, if it is one, is made. At a tick edge each activity
that waits counts the gap it waited and goes on waiting.

R54, R58: a completed re-admission waits for the next tick edge. A change of the DRAM speed, with no command of the storage target held back by it,
ends with the controller in service again, the profile that waited in force, and PLAN_GENERATION one higher. -/
def Obligations.JobsAndMaintenanceShareTheGap : Prop :=
  (∀ s : State,
     (∀ b : Bool, s.tick.running = true → s.tick.budgetOver = false →
       ((b && s.videoUnsent) = true ∨ ∃ c, c < 32 ∧ (s.ctxSt c).job ≠ none) →
       ∃ t, exec (.tickBudgetEnd b) s = .next t ∧ t.tick.budgetOver = true ∧ t.tick.building = (b && s.videoUnsent) ∧ t.tick.gap = s.tick.gap ∧
         t.clock = max s.clock (s.tick.edgeAt + s.budget) ∧ t.firings = s.firings ++ [(1, t.clock)] ∧
         OnlyChanges [.clock, .firings, .tick] [] s t) ∧
     (∀ b : Bool, s.tick.running = true → s.tick.budgetOver = false → (b && s.videoUnsent) = false → (∀ c, c < 32 → (s.ctxSt c).job = none) →
       s.tick.gap = false →
       ∃ t, exec (.tickBudgetEnd b) s = .next t ∧ t.tick.budgetOver = true ∧ t.tick.gap = true ∧
         t.clock = max s.clock (s.tick.edgeAt + s.budget) ∧ t.firings = s.firings ++ [(1, t.clock), (2, t.clock)]) ∧
     (∀ (c : Fin 32) (cyc ns : Nat) (scene rend stats : Bool), s.scene.running = some c.val →
       ∃ t u, exec (.jobComplete c cyc ns scene rend stats) s = .next t ∧ u = s.finishJob c.val cyc ns ∧
         t.rd (Tick.LATE_COUNT 0) = (if scene then countUp (u.rd (Tick.LATE_COUNT 0)) 1 else u.rd (Tick.LATE_COUNT 0)) ∧
         t.rd (Tick.LATE_COUNT 1) = (if rend then countUp (u.rd (Tick.LATE_COUNT 1)) 1 else u.rd (Tick.LATE_COUNT 1)) ∧
         t.rd (Tick.LATE_COUNT 2) =
           (if stats && (s.ctxSt c.val).job.any Job.rendersStats then countUp (u.rd (Tick.LATE_COUNT 2)) 1 else u.rd (Tick.LATE_COUNT 2)) ∧
         t.tick.gap = (u.tick.gap || (u.jobsDone && u.tick.budgetOver))) ∧
     ∀ (drained built : Bool) (c : Nat), c < 32 → s.leaving c = false → ((s.overruns drained built).ctxSt c).job = none) ∧
  (∀ (act : Fin 4) (ch : Fin 8) (s : State),
     (act.val ≠ 3 → s.tick.running = true → s.pow.global ≠ .faultHold → s.tick.gap = false →
       ∃ t, exec (.maintRequest act ch) s = .next t ∧ (∀ a, bit t.tick.waiting a = (bit s.tick.waiting a || a == act.val)) ∧
         t.tick.active = s.tick.active ∧ OnlyChanges [.tick] [] s t) ∧
     (act.val = 3 → s.tick.running = true → s.tick.gap = false →
       ∃ t, exec (.maintRequest act ch) s = .next t ∧ bit t.tick.waiting 3 = true ∧ (∃ w ∈ t.pow.ledgerQueue, w.1 = 18) ∧
         t.tick.active = s.tick.active ∧ OnlyChanges [.tick, .pow] [] s t) ∧
     (act.val ≠ 3 → s.tick.running = true → s.pow.global ≠ .faultHold → s.tick.gap = true → s.tick.ran = false → s.tick.active = none →
       s.tick.waiting = 0 → maintRun act.val ≤ s.timeLeft →
       ∃ t, exec (.maintRequest act ch) s = .next t ∧ t.tick.active = some act.val ∧ t.tick.ran = true) ∧
     (∀ failed : List Nat, (act.val = 1 ∨ act.val = 2) → s.tick.active = some act.val →
       ∃ t, exec (.maintActivityDone failed) s = .next t ∧ t.tick.active = none ∧
         t.rd (Tick.MAINT_RUN_COUNT act.val) = countUp (s.rd (Tick.MAINT_RUN_COUNT act.val)) 1 ∧
         OnlyChanges [.tick] [Tick.MAINT_RUN_COUNT act.val] s t) ∧
     (∀ (failed : List Nat) (w : Nat × Nat × List Byte), s.tick.active = some 3 → s.pow.ledgerQueue = [w] →
       ∃ t, exec (.maintActivityDone failed) s = .next t ∧ t.tick.active = none ∧ t.pow.ledgerQueue = [] ∧
         t.rd Obs.LEDGER_WRITES = countUp (s.rd Obs.LEDGER_WRITES) 1 ∧
         t.rd (Tick.MAINT_RUN_COUNT 3) = countUp (s.rd (Tick.MAINT_RUN_COUNT 3)) 1) ∧
     (bit s.tick.waiting act.val = true →
       bit s.maintWaited.tick.waiting act.val = true ∧
       s.maintWaited.rd (Tick.MAINT_WAIT_COUNT act.val) = countUp (s.rd (Tick.MAINT_WAIT_COUNT act.val)) 1 ∧
       s.maintWaited.tick.gap = false ∧ s.maintWaited.tick.ran = false)) ∧
  (∀ s : State,
     (s.negorAnswers = true → s.tick.readmitting = true → s.tick.shedDue = false →
       ∃ t, exec .readmissionDone s = .next t ∧ t.tick.readmitted = true ∧ t.rd Tick.SHED_LEVEL = s.rd Tick.SHED_LEVEL ∧
         OnlyChanges [.tick] [] s t) ∧
     (s.tick.dramChange = true → s.tgt.held = [] → (∀ e ∈ s.tick.dramTarget, e.1 ∈ profileIds) →
       ∃ t, exec (.dramSpeedChangeDone []) s = .next t ∧ t.tick.dramChange = false ∧ t.tick.dramTarget = [] ∧
         t.profile = (s.placeAll (numVals s.tick.dramTarget)).profile ∧
         t.rd Tick.PLAN_GENERATION = (s.rd Tick.PLAN_GENERATION + 1) % 2 ^ 32 ∧ t.pending = s.pending))

/-! ## Parameters and commits (spec/02, spec/03) -/

/-- R76: PARAM_GET is answered with its entries in order, and nothing else changes; a reply beyond the largest message is NO_RESOURCE without payload
(the model's choice, log 149). For a readable number outside the stream groups the entry holds the value in force in the width of its type, and an
ID that names no parameter gets BAD_PARAM.

R76, R78: PARAM_SET stages all of its entries, each in the place of an earlier one of its ID, or none of them; nothing that is in force changes.
PARAM_DISCARD leaves the session with none staged (R73).

R44, R81: PARAM_DESCRIBE answers one descriptor for each ID, BAD_PARAM where one names no parameter, and NO_RESOURCE where the reply is beyond the
largest message (the model's choice, log 149); PLAN_QUERY answers PLAN_GENERATION, SHED_LEVEL and the twelve records of Table 02-4 under the plan in
force. Neither changes anything else. -/
def Obligations.ParametersAreReadStagedAndDescribed : Prop :=
  (∀ (r : Req) (s : State), s.takes r 0x10 →
     (∀ es : List Entry,
       let pl := leBytes 4 es.length ++ es.flatMap fun e => Entry.bytes ((s.heard r).getEntry r.sess e).2
       ∃ t, exec (.paramGet r es) s = .next t ∧
       (if pl.length ≤ 90112 then t.replied r 0x10 (firstBad (es.map fun e => ((s.heard r).getEntry r.sess e).1)) pl
         else t.replied r 0x10 Status.NO_RESOURCE []) ∧
       OnlyChanges [.out, .free, .sessions] txIds s t) ∧
     (∀ (id : Nat) (p : Param), paramOf id = some p → p.access ≠ .wo → p.type ≠ .blob → idGroup id ≠ 0x41 →
       ∃ t, exec (.paramGet r [⟨id, 0, 0, []⟩]) s = .next t ∧
         t.replied r 0x10 Status.OK (leBytes 4 1 ++ Entry.bytes ⟨id, p.type.code, Status.OK, valueBytes p.type ((s.heard r).readNum id)⟩)) ∧
     ∀ id : Nat, paramOf id = none →
       ∃ t, exec (.paramGet r [⟨id, 0, 0, []⟩]) s = .next t ∧
         t.replied r 0x10 Status.BAD_PARAM (leBytes 4 1 ++ Entry.bytes ⟨id, 0, Status.BAD_PARAM, []⟩)) ∧
  (∀ (r : Req) (es : List Entry) (s : State),
     (s.takes r 0x11 →
       let u := s.heard r
       let staged := es.foldl (fun l e => stageOne l (u.stagedOf r.sess e)) (s.stagedSet r.sess)
       let bad := firstBad (es.map (u.stageStatus r.sess))
       ∃ t, exec (.paramSet r es) s = .next t ∧ OnlyChanges [.out, .free, .sessions] txIds s t ∧
         t.stagedSet r.sess = (if bad = Status.OK ∧ staged.length ≤ 512 then staged else s.stagedSet r.sess) ∧
         ∃ pl, t.replied r 0x11 (if bad ≠ Status.OK then bad else if 512 < staged.length then Status.NO_RESOURCE else Status.OK) pl) ∧
     (s.takes r 0x13 →
       ∃ t, exec (.paramDiscard r) s = .next t ∧ t.stagedSet r.sess = [] ∧ t.replied r 0x13 Status.OK [] ∧
         OnlyChanges [.out, .free, .sessions] txIds s t)) ∧
  (∀ (r : Req) (ids : List Nat) (s : State),
     (s.takes r 0x14 →
       ∃ t, exec (.paramDescribe r ids) s = .next t ∧
         (if (ids.flatMap descriptorOf).length ≤ 90112 then
           t.replied r 0x14 (if ids.all fun id => (paramOf id).isSome then Status.OK else Status.BAD_PARAM) (ids.flatMap descriptorOf)
           else t.replied r 0x14 Status.NO_RESOURCE []) ∧
         OnlyChanges [.out, .free, .sessions] txIds s t) ∧
     (s.takes r 0x30 →
       ∃ t records, exec (.planQuery r) s = .next t ∧ records.length = 12 ∧
         records = (s.heard r).resources ((s.heard r).profile.shedOrder.take (s.rd Tick.SHED_LEVEL)) (s.rd Tick.ACTIVE_CAP) ∧
         t.replied r 0x30 Status.OK
           (leBytes 4 (s.rd Tick.PLAN_GENERATION) ++ leBytes 4 (s.rd Tick.SHED_LEVEL) ++ records.flatMap Shortfall.bytes) ∧
         OnlyChanges [.out, .free, .sessions] txIds s t))

/-- R41, R79, R80: a commit that passes its checks takes effect as one unit, the meaning of `State.commitApply`: every entry under its own commit rule.
It holds for each of the commits that the table names by their parameter, and for PARAM_COMMIT, which leaves nothing staged: customBaseWrite,
tickSourceWrite, tickRateWrite, profileWrite, paramWritePlain, ownerKeyWrite, sensorPortEnableWrite, xtrigEnableWrite, contextBindWrite,
defectMapWrite, ctxEnableWrite, lscTableWrite, table1dWrite, scalerTableWrite, lut3dWrite, sensorDescWrite, sensorModeWrite, i2cEnableWrite,
xferDescWrite, headEnableWrite, ethEnableWrite, timeSetWrite, ringEnableWrite, mediaFormatWrite, mediaRebuildWrite, clipDeleteWrite, clipMetaWrite,
targetEnableWrite, audioPortEnableWrite, audRingWrite, slotMaskWrite, muteWrite, applPositionWrite, familySourceWrite, diagAddressWrite,
swFireWrite, eventFireWrite, eventFlagClearWrite, srcEnableWrite and paramCommit.

R41, R79: a commit that fails a check, of an entry or of admission, is answered with that status and changes nothing: no parameter but the counters
of refusals and of frames sent, and no part of the state but what sending the reply moves. A PARAM_COMMIT of staged entries whose cells the session
does not own in the generation of their staging gets NOT_OWNER, and they stay staged. -/
def Obligations.CommitsAreOneUnit : Prop :=
  ((∀ (i : Instr) (r : Req) (es : List Entry) (s : State), committedBy i = some (r, es) → s.takes r 0x12 →
     (s.heard r).wellGiven r.sess es →
     let u := s.heard r
     let ces := centries u (u.entryVals r.sess es)
     let x := u.txn r 0x12 0 ces
     ∀ st pl port first, commitVerdict x ces = (st, pl, port, first) → completes st = true →
       ∃ t, exec i s = .next t ∧ t = u.commitApply x ces st port first) ∧
   (∀ (r : Req) (target : Nat) (s : State), s.takes r 0x12 → s.stagedOwned r.sess (s.stagedSet r.sess) = true →
     let u := s.heard r
     let given := stagedVals (s.stagedSet r.sess)
     let ces := centries u (given.filterMap fun e => (u.resolve e.1 e.2).map fun v => (e.1, v))
     let x := u.txn r 0x12 target ces
     (∀ e ∈ given, (u.resolve e.1 e.2).isSome = true) →
     ∀ st pl port first, commitVerdict x ces = (st, pl, port, first) → completes st = true →
       ∃ t, exec (.paramCommit r target) s = .next t ∧ t = (u.setStaged r.sess []).commitApply x ces st port first)) ∧
  ((∀ (i : Instr) (r : Req) (es : List Entry) (s : State), committedBy i = some (r, es) → s.takes r 0x12 →
     let u := s.heard r
     (firstBad (es.map (u.stageStatus r.sess)) ≠ Status.OK →
       ∃ t, exec i s = .next t ∧ t.replied r 0x12 (firstBad (es.map (u.stageStatus r.sess))) [] ∧
         OnlyChanges [.out, .free, .sessions] txIds s t) ∧
     (u.wellGiven r.sess es →
       let ces := centries u (u.entryVals r.sess es)
       let x := u.txn r 0x12 0 ces
       ∀ st pl port first, commitVerdict x ces = (st, pl, port, first) → completes st = false →
         ∃ t, exec i s = .next t ∧ t.replied r 0x12 st pl ∧
           OnlyChanges [.out, .free, .sessions] (Tick.ADMIT_REFUSED :: Sens.EXPOSE_PAST port :: txIds) s t)) ∧
   (∀ (r : Req) (target : Nat) (s : State), s.takes r 0x12 → s.stagedOwned r.sess (s.stagedSet r.sess) = false →
     ∃ t, exec (.paramCommit r target) s = .next t ∧ t.replied r 0x12 Status.NOT_OWNER [] ∧ t.stagedSet r.sess = s.stagedSet r.sess ∧
       OnlyChanges [.out, .free, .sessions] txIds s t))

/-- R41, R79: an admitted commit waits for the next tick edge: no parameter takes a new value at the commit, which joins those that wait, in the order
of admission, and the reply names the Tick Sequence of that edge. It holds for the commits that the table names and whose entries are all of the
admitted rule and name no head, where no change of the DRAM speed delays them and no reply to the same request is held back.

R80, R487: an immediate number of the observation group or of the thermal group is in force when its commit is answered, and it alone changes.

What commits of one number do to their blocks once they are accepted. R455: a written 1 clears its flag, every other flag stays. R443: SW_FIRE fires
the sources of its bits. R454: SRC_ENABLE takes its value, as APPL_POSITION does (R410). R438: DIAG_ADDRESS leaves 96 bytes in DIAG_DATA. R321:
TIME_SET is kept for the coming step where TIME_SOURCE reads 3. R37: a commit of the tick rate in RUN is answered CONFLICT, and nothing changes. -/
def Obligations.CommitsActUnderTheirRule : Prop :=
  (∀ (i : Instr) (r : Req) (es : List Entry) (s : State), committedBy i = some (r, es) → s.takes r 0x12 →
     (s.heard r).wellGiven r.sess es →
     let u := s.heard r
     let ces := centries u (u.entryVals r.sess es)
     let x := u.txn r 0x12 0 ces
     ces ≠ [] → (∀ c ∈ ces, c.rule = .admitted ∧ idGroup c.id ≠ 0x30) → (∀ w ∈ s.nmp.waits, w.r ≠ r ∧ w.why ≠ .event 0) →
     u.speedChange x (ces.map fun c => (c.id, c.val)) = false →
     ∀ pl port first, commitVerdict x ces = (Status.OK, pl, port, first) →
       ∃ t, exec i s = .next t ∧ OnlyChanges [.tick, .out, .free, .sessions] txIds s t ∧
         t.tick.admitted = s.tick.admitted ++ [⟨r, 0x12, ces.map CEntry.id, ces.map fun c => (c.id, c.val), 0, false⟩] ∧
         t.replied r 0x12 Status.OK
           (leBytes 4 s.nextEdge ++ leBytes 4 ((s.rd Tick.PLAN_GENERATION + s.plansDue + 1) % 2 ^ 32))) ∧
  (∀ (r : Req) (id v : Nat) (p : Param) (s : State), s.takes r 0x12 → paramOf id = some p → p.commit = .immediate → p.access = .rw →
     p.fixed = false → p.type ≠ .blob → (idGroup id = 0xA0 ∨ idGroup id = 0xB0) → v < 2 ^ p.type.width →
     let u := s.heard r
     let e : Entry := ⟨id, p.type.code, 0, valueBytes p.type v⟩
     u.stageStatus r.sess e = Status.OK → (∀ w ∈ s.nmp.waits, w.r ≠ r ∧ w.why ≠ .event 0) →
     let ces := centries u [(id, .num v)]
     commitVerdict (u.txn r 0x12 0 ces) ces = (Status.OK, [], 0, 0) →
       ∃ t, exec (.paramWritePlain r id e.value) s = .next t ∧ t.rd id = v ∧
         t.replied r 0x12 Status.OK
           (leBytes 4 s.tickSeq ++ leBytes 4 ((s.rd Tick.PLAN_GENERATION + s.plansDue) % 2 ^ 32)) ∧
         OnlyChanges [.out, .free, .sessions] (id :: txIds) s t) ∧
  (∀ (r : Req) (v : Nat) (s : State), s.takes r 0x12 → (∀ w ∈ s.nmp.waits, w.r ≠ r ∧ w.why ≠ .event 0) →
     let u := s.heard r
     let accepted (id : Nat) : Prop :=
       u.stageStatus r.sess (numEntry id v) = Status.OK ∧
         commitVerdict (u.txn r 0x12 0 (centries u [(id, .num v)])) (centries u [(id, .num v)]) = (Status.OK, [], 0, 0)
     (∀ (flag : Fin 5) (word : Fin 8), v < 2 ^ 32 →
       let id := 0x90000201 + 0x10000 * word.val + flag.val
       accepted id →
       ∃ t, exec (.eventFlagClearWrite r flag word v) s = .next t ∧ t.rd id = writeOneClears (s.rd id) v % 2 ^ 32 ∧
         OnlyChanges [.out, .free, .sessions] (id :: txIds) s t) ∧
     (v < 2 ^ 32 → accepted Ev.SW_FIRE →
       ∃ t, exec (.swFireWrite r v) s = .next t ∧ t.firings = s.firings ++ (setBits 16 v).map (fun b => (208 + b, s.clock)) ∧
         OnlyChanges [.firings, .out, .free, .sessions] txIds s t) ∧
     (∀ src : Fin 256, v < 2 ^ 32 → accepted (Ev.SRC_ENABLE src.val) →
       ∃ t, exec (.srcEnableWrite r src v) s = .next t ∧ t.rd (Ev.SRC_ENABLE src.val) = v ∧
         OnlyChanges [.out, .free, .sessions] (Ev.SRC_ENABLE src.val :: txIds) s t) ∧
     (∀ port : Fin 8, v < 2 ^ 64 → accepted (Aud.APPL_POSITION port.val) →
       ∃ t, exec (.applPositionWrite r port v) s = .next t ∧ t.rd (Aud.APPL_POSITION port.val) = v ∧
         OnlyChanges [.out, .free, .sessions] (Aud.APPL_POSITION port.val :: txIds) s t) ∧
     (v < 2 ^ 64 → accepted Dram.DIAG_ADDRESS →
       ∃ t, exec (.diagAddressWrite r v) s = .next t ∧ (t.rdBlob Dram.DIAG_DATA).length = 96 ∧
         OnlyChanges [.blob Dram.DIAG_DATA, .out, .free, .sessions] txIds s t) ∧
     (v < 2 ^ 64 → s.rd Time.TIME_SOURCE = 3 → accepted Time.TIME_SET →
       ∃ t, exec (.timeSetWrite r v) s = .next t ∧ t.time.set = some v ∧ OnlyChanges [.time, .out, .free, .sessions] txIds s t) ∧
     ∀ n d : Nat, s.pow.global = .run → u.wellGiven r.sess [numEntry Tick.TICK_RATE_N n, numEntry Tick.TICK_RATE_D d] →
       ∃ t, exec (.tickRateWrite r n d) s = .next t ∧ t.replied r 0x12 Status.CONFLICT [] ∧ OnlyChanges [.out, .free, .sessions] txIds s t)

/-! ## The Negor Mailbox Protocol and ownership (spec/03) -/

/-- R63, R64, R65: while Negor answers, a datagram to the port's VLAN and to one of its addresses that may not be taken is counted once, under the first
reason that applies, and has no other effect; a SESSION_OPEN request whose tag does not verify is counted the same way and answered with AUTH while
fewer than 10 such answers were sent within 1 s. Any other datagram has no effect but on the counters of frames received (that the VLAN decides is
the model's reading, log 150).

R65, R70, R71: a request of one datagram for the port whose tag verifies counts as activity of its session. A SEQUENCE that is new is accepted and
in flight, or answered BUSY where 8 are; one whose reply has been sent gets the cached reply again; one still in flight is dropped; one older than
the window is counted under reason 4. -/
def Obligations.DatagramsAreTakenOrCounted : Prop :=
  (∀ (port : Fin 2) (vlan : Nat) (peer : Peer) (dst : List Byte) (len : Nat) (bytes : List Byte) (s : State), s.negorAnswers = true →
     let h := parseHeader bytes
     let ids := [Eth.RX_FRAMES port.val, Eth.RX_BYTES port.val]
     let mine : Prop := vlan = s.rd (Eth.VLAN_ID port.val) ∧ s.ownAddress port.val dst = true
     let dropped (k : Nat) (frag : Bool) : Prop :=
       mine → ∃ t, exec (.nmpDatagramRx port vlan peer dst len frag bytes) s = .next t ∧
         t.rd (Sys.NMP_DROP_COUNT k) = countUp (s.rd (Sys.NMP_DROP_COUNT k)) 1 ∧ t.out = s.out ∧
         OnlyChanges [.free] (Sys.NMP_DROP_COUNT k :: ids) s t
     let fits : Prop := len = h.length + 32 ∧ h.length ≤ 1408
     (¬mine → ∀ frag : Bool, ∃ t, exec (.nmpDatagramRx port vlan peer dst len frag bytes) s = .next t ∧ OnlyChanges [.free] ids s t) ∧
     dropped 6 true ∧
     (¬fits → dropped 0 false) ∧
     (fits → h.version ≠ 1 → dropped 1 false) ∧
     (fits → h.version = 1 → h.bad = true → dropped 7 false) ∧
     (fits → h.version = 1 → h.bad = false → h.op ≠ 1 → s.session h.sess = none → dropped 3 false) ∧
     (fits → h.version = 1 → h.bad = false → h.op ≠ 1 → ∀ x, s.session h.sess = some x →
       nmpTag x.key (bytes.take (16 + h.length)) ≠ slice bytes (16 + h.length) 16 → dropped 2 false) ∧
     (mine → fits → h.version = 1 → h.bad = false → h.op = 1 → nmpTag s.nmp.ownerKey (bytes.take (16 + h.length)) ≠ slice bytes (16 + h.length) 16 →
       (s.nmp.authReplies.filter fun t => decide (s.clock < t + 1000000000)).length < 10 →
       ∃ t, exec (.nmpDatagramRx port vlan peer dst len false bytes) s = .next t ∧
         t.rd (Sys.NMP_DROP_COUNT 2) = countUp (s.rd (Sys.NMP_DROP_COUNT 2)) 1 ∧
         t.out = .nmp port.val peer (s.control port.val 0) false ⟨0, h.seq, 1, Status.AUTH, []⟩ :: s.out ∧
         OnlyChanges [.free, .out, .nmp] (Sys.NMP_DROP_COUNT 2 :: ids ++ txIds) s t)) ∧
  (∀ (port : Fin 2) (vlan : Nat) (peer : Peer) (dst : List Byte) (len : Nat) (bytes : List Byte) (s : State) (x : Session), s.negorAnswers = true →
     vlan = s.rd (Eth.VLAN_ID port.val) → s.ownAddress port.val dst = true →
     let h := parseHeader bytes
     let y : Session := { x with lastRequest := s.clock }
     let ids := [Eth.RX_FRAMES port.val, Eth.RX_BYTES port.val, Sys.NMP_RX_COUNT port.val]
     len = h.length + 32 → h.length ≤ 1408 → h.version = 1 → h.bad = false → h.op ≠ 1 → h.count = 1 → s.session h.sess = some x →
     nmpTag x.key (bytes.take (16 + h.length)) = slice bytes (16 + h.length) 16 →
     ∃ t, exec (.nmpDatagramRx port vlan peer dst len false bytes) s = .next t ∧
       t.rd (Sys.NMP_RX_COUNT port.val) = countUp (s.rd (Sys.NMP_RX_COUNT port.val)) 1 ∧
       OnlyChanges [.free, .sessions, .out] (Sys.NMP_DROP_COUNT 4 :: Sys.DUP_REPLAYED :: Sys.BUSY_REPLIES :: ids ++ txIds) s t ∧
       (match x.verdict h.seq with
       | .accept =>
         if x.inflight.length < 8 then
           t.out = s.out ∧ t.session h.sess = some { y.accept h.seq with
             inflight := x.inflight ++ [⟨h.seq, h.op, port.val, slice bytes 16 h.length⟩] }
         else t.out = .nmp port.val peer (s.control port.val 0) true ⟨h.sess, h.seq, h.op, Status.BUSY, []⟩ :: s.out ∧ t.session h.sess = some y
       | .replay m => t.out = .nmp port.val peer (s.control port.val 0) true m :: s.out ∧ t.session h.sess = some y ∧
           t.rd Sys.DUP_REPLAYED = countUp (s.rd Sys.DUP_REPLAYED) 1
       | .inFlight => t.out = s.out ∧ t.session h.sess = some y
       | .stale => t.out = s.out ∧ t.session h.sess = some y ∧ t.rd (Sys.NMP_DROP_COUNT 4) = countUp (s.rd (Sys.NMP_DROP_COUNT 4)) 1))

/-- Table 03-1: the header that the device writes reads back field by field, whatever follows it.

R67, R68, R72: an accepted SESSION_OPEN opens a session under an ID that was free, keyed from the owner key and both nonces, with its NOTIFY mask,
its port and its source, and answers with the 44 bytes of R67. With 16 sessions open, or a payload of another length, none opens. SESSION_CLOSE is
answered OK, closes the session and frees its cells, with GEN one higher; the idle limit closes it and leaves its cells ORPHANED.

R66, R73, R92: a NOTIFY not acknowledged is sent again 100 ms after its latest sending, at most 8 times in all, and then given up, counted and
marked; a request whose segments are not all there after 500 ms is discarded and counted under reason 5; an opcode outside Table 03-2 gets
UNSUPPORTED. -/
def Obligations.SessionsHeadersAndRetries : Prop :=
  (∀ (m : Msg) (count index length : Nat) (rest : List Byte), m.op < 2 ^ 8 → m.sess < 2 ^ 8 → m.seq < 2 ^ 32 → m.status < 2 ^ 16 →
     length < 2 ^ 16 → index < 2 ^ 16 → count < 2 ^ 16 →
     (nmpHeader m count index length).length = 16 ∧
     parseHeader (nmpHeader m count index length ++ rest) =
       { version := 1, op := m.op, sess := m.sess, response := true, segmented := decide (1 < count), seq := m.seq, length := length,
         index := index, count := count }) ∧
  ((∀ (port : Fin 2) (peer : Peer) (seq : Nat) (pl : List Byte) (s : State), s.negorAnswers = true → s.pow.confirmed = true →
     (s.nmp.sessions.length < 16 → pl.length = 20 → (∃ id, 1 ≤ id ∧ id ≤ 255 ∧ s.idFree id = true) →
       ∃ t id nonce x, exec (.sessionOpen port peer seq pl) s = .next t ∧ 1 ≤ id ∧ id ≤ 255 ∧ s.idFree id = true ∧ t.nmp.lastId = id ∧
         t.session id = some x ∧ x.key = sessionKey s.nmp.ownerKey (pl.take 16) nonce id ∧ x.port = port.val ∧ x.peer = peer ∧ x.mask = leAt pl 16 4 ∧
         (s.openPayload id nonce).length = 44 ∧
         t.out = .nmp port.val peer (s.control port.val 0) true ⟨id, seq, 1, Status.OK, s.openPayload id nonce⟩ :: s.out ∧
         OnlyChanges [.sessions, .nmp, .free, .out] txIds s t) ∧
     ((16 ≤ s.nmp.sessions.length ∨ pl.length ≠ 20) →
       ∃ t, exec (.sessionOpen port peer seq pl) s = .next t ∧ t.nmp.sessions = s.nmp.sessions ∧ OnlyChanges [.nmp, .free, .out] txIds s t)) ∧
   (∀ (r : Req) (s : State), s.takes r 0x02 →
     ∃ t, exec (.sessionClose r) s = .next t ∧ t.session r.sess = none ∧ t.replied r 0x02 Status.OK [] ∧
       (∀ c, s.owns r.sess c = true → (t.cell c).owner = 0 ∧ (t.cell c).gen = ((s.cell c).gen + 1) % 65536) ∧
       (∀ c, s.owns r.sess c = false → t.cell c = s.cell c) ∧
       OnlyChanges [.sessions, .cells, .nmp, .qps, .out, .free, .obs] (Eth.QP_COUNT 0 :: Eth.QP_COUNT 1 :: txIds) s t) ∧
   ∀ (sess : Nat) (x : Session) (s : State), s.session sess = some x → s.negorAnswers = true →
     ∃ t, exec (.sessionIdleClose sess) s = .next t ∧ t.session sess = none ∧
       t.clock = max s.clock (x.lastRequest + s.rd Sys.SESSION_IDLE_LIMIT * 1000000) ∧
       (∀ c, s.owns sess c = true → t.cell c = { s.cell c with orphan := true }) ∧
       (∀ c, s.owns sess c = false → t.cell c = s.cell c) ∧
       OnlyChanges [.clock, .sessions, .cells, .nmp, .qps, .obs] [Eth.QP_COUNT 0, Eth.QP_COUNT 1] s t) ∧
  ((∀ (sess seq : Nat) (x : Session) (u : Unacked) (s : State), s.negorAnswers = true → s.session sess = some x →
     x.unacked.find? (fun u => u.seq == seq) = some u →
     (u.sends < 8 →
       ∃ t, exec (.notifyRetransmit sess seq) s = .next t ∧ t.clock = max s.clock (u.sentAt + 100000000) ∧
         t.out = .nmp x.port x.peer (s.control x.port 0) true ⟨sess, seq, 0x80, 0, u.payload⟩ :: s.out ∧
         (∃ y, t.session sess = some y ∧ y.unacked.find? (fun u => u.seq == seq) = some { u with sends := u.sends + 1, sentAt := t.clock }) ∧
         OnlyChanges [.clock, .sessions, .out, .free] txIds s t) ∧
     (8 ≤ u.sends →
       ∃ t, exec (.notifyRetransmit sess seq) s = .next t ∧ t.out = s.out ∧
         t.rd Sys.NOTIFY_DROPPED = countUp (s.rd Sys.NOTIFY_DROPPED) 1 ∧
         (∃ y, t.session sess = some y ∧ y.dropped = true ∧ ∀ v ∈ y.unacked, v.seq ≠ seq) ∧
         OnlyChanges [.clock, .sessions] [Sys.NOTIFY_DROPPED] s t)) ∧
   (∀ (sess seq : Nat) (p : Partial) (s : State), tfind s.nmp.partials (sess * 2 ^ 32 + seq) = some p →
     ∃ t, exec (.nmpReassemblyTimeout sess seq) s = .next t ∧ tfind t.nmp.partials (sess * 2 ^ 32 + seq) = none ∧
       t.clock = max s.clock (p.firstAt + 500000000) ∧ t.rd (Sys.NMP_DROP_COUNT 5) = countUp (s.rd (Sys.NMP_DROP_COUNT 5)) 1 ∧
       OnlyChanges [.clock, .nmp] [Sys.NMP_DROP_COUNT 5] s t) ∧
   (∀ (r : Req) (op : Nat) (s : State), s.takes r op →
     ∃ t, exec (.unsupportedOpcode r op) s = .next t ∧ t.replied r op Status.UNSUPPORTED [] ∧ OnlyChanges [.out, .free, .sessions] txIds s t))

/-- R72, R85: where no lease has run out, HEARTBEAT sets the EXPIRY of every cell that the session owns to now plus the LEASE of the cell, and touches
no other; no NOTIFY joins those that wait for their acknowledgement, and the class mask is set where the payload carries one. A lease that runs out
frees its cell: GEN grows by one, OWN_EXPIRED counts, and an ORPHANED cell, or one whose session is closed, tells nobody.

R83: OWN_ACQUIRE with a lease outside 500 ms to 60 s gets RANGE; else, where no lease has run out, every cell it names that is FREE is granted and
every one it owns is refreshed with the new lease (the model's choice, log 141) if no other is among them, and otherwise every cell that was FREE is
FREE, every cell of another owner is untouched, the reply is BUSY and OWN_CONTENDED counts.

R82, R86: OWN_RELEASE frees the cells it names where the session owns them all; OWN_RECLAIM takes over the cells it names where each is ORPHANED
with the GEN given, and none otherwise; both raise GEN. OWN_QUERY answers the records of the cells and changes none. -/
def Obligations.OwnershipIsHeldUnderLeases : Prop :=
  ((∀ (r : Req) (pl : List Byte) (s : State), s.takes r 0x03 → (pl.length = 4 ∨ pl.length = 8) →
     (∀ c, (s.cell c).owner = 0 ∨ s.aon < (s.cell c).expiry) →
     ∃ t, exec (.heartbeat r pl) s = .next t ∧ t.replied r 0x03 Status.OK [] ∧
       (∀ c, t.cell c = if s.owns r.sess c then { s.cell c with expiry := s.aon + 25000 * (s.cell c).lease } else s.cell c) ∧
       (∀ x y, s.session r.sess = some x → t.session r.sess = some y →
         y.mask = (if pl.length = 8 then leAt pl 4 4 else x.mask) ∧ ∀ u ∈ y.unacked, u ∈ x.unacked) ∧
       OnlyChanges [.cells, .sessions, .out, .free] txIds s t) ∧
   ∀ (c : Fin 64) (s : State), (s.cell c.val).owner ≠ 0 →
     ∃ t, exec (.leaseExpiry c) s = .next t ∧ t.clock = max s.clock ((s.cell c.val).expiry * 40) ∧ (t.cell c.val).owner = 0 ∧
       (t.cell c.val).gen = ((s.cell c.val).gen + 1) % 65536 ∧ (t.cell c.val).orphan = false ∧
       (∀ j, j ≠ c.val → t.cell j = s.cell j) ∧ t.rd Sys.OWN_EXPIRED = countUp (s.rd Sys.OWN_EXPIRED) 1 ∧
       (((s.cell c.val).orphan = true ∨ s.session (s.cell c.val).owner = none) → t.out = s.out) ∧
       OnlyChanges [.clock, .cells, .sessions, .out, .free] (Sys.OWN_EXPIRED :: Sys.NOTIFY_DROPPED :: txIds) s t) ∧
  (∀ (r : Req) (cells : List Nat) (lease : Nat) (s : State), s.takes r 0x20 → r.sess ≠ 0 → cells.length ≤ 64 → (∀ c ∈ cells, c < 64) →
     (∀ c, (s.cell c).owner = 0 ∨ s.aon < (s.cell c).expiry) →
     ((lease < 500 ∨ 60000 < lease) →
       ∃ t, exec (.ownAcquire r cells lease) s = .next t ∧ t.replied r 0x20 Status.RANGE [] ∧
         OnlyChanges [.sessions, .out, .free] txIds s t) ∧
     (500 ≤ lease → lease ≤ 60000 → (∀ c ∈ cells, (s.cell c).owner = 0 ∨ s.owns r.sess c = true) →
       ∃ t, exec (.ownAcquire r cells lease) s = .next t ∧ t.replied r 0x20 Status.OK (cells.flatMap t.cellRecord) ∧
         (∀ c ∈ cells, (t.cell c).owner = r.sess ∧ (t.cell c).orphan = false ∧ (t.cell c).lease = lease ∧
           (t.cell c).expiry = s.aon + 25000 * lease ∧
           (t.cell c).gen = (if (s.cell c).owner = 0 then ((s.cell c).gen + 1) % 65536 else (s.cell c).gen)) ∧
         (∀ c, c ∉ cells → t.cell c = s.cell c) ∧ OnlyChanges [.cells, .sessions, .out, .free] txIds s t) ∧
     (500 ≤ lease → lease ≤ 60000 → (∃ c ∈ cells, (s.cell c).owner ≠ 0 ∧ s.owns r.sess c = false) →
       ∃ t pl, exec (.ownAcquire r cells lease) s = .next t ∧ t.replied r 0x20 Status.BUSY pl ∧
         t.rd Sys.OWN_CONTENDED = countUp (s.rd Sys.OWN_CONTENDED) 1 ∧ (∀ c, (s.cell c).owner = 0 → (t.cell c).owner = 0) ∧
         (∀ c, (s.cell c).owner ≠ 0 → s.owns r.sess c = false → t.cell c = s.cell c) ∧
         OnlyChanges [.cells, .sessions, .out, .free] (Sys.OWN_CONTENDED :: txIds) s t)) ∧
  (∀ (r : Req) (s : State),
     (∀ cells : List Nat, s.takes r 0x21 → (∀ c ∈ cells, c < 64 ∧ s.owns r.sess c = true) →
       ∃ t, exec (.ownRelease r cells) s = .next t ∧ t.replied r 0x21 Status.OK [] ∧
         (∀ c ∈ cells, (t.cell c).owner = 0 ∧ (t.cell c).gen = ((s.cell c).gen + 1) % 65536) ∧
         (∀ c, c ∉ cells → t.cell c = s.cell c) ∧ OnlyChanges [.cells, .sessions, .out, .free] txIds s t) ∧
     (∀ cells : List Nat, s.takes r 0x22 → cells.length ≤ 64 → (∀ c ∈ cells, c < 64) →
       ∃ t, exec (.ownQuery r cells) s = .next t ∧ t.replied r 0x22 Status.OK (cells.flatMap s.cellRecord) ∧
         OnlyChanges [.sessions, .out, .free] txIds s t) ∧
     (∀ cells : List (Nat × Nat), s.takes r 0x23 → cells.length ≤ 64 → (∀ c ∈ cells, c.1 < 64) →
       (∀ c, (s.cell c).owner = 0 ∨ s.aon < (s.cell c).expiry) →
       ((∀ c ∈ cells, (s.cell c.1).orphan = true ∧ (s.cell c.1).owner ≠ 0 ∧ (s.cell c.1).gen = c.2) →
         ∃ t pl, exec (.ownReclaim r cells) s = .next t ∧ t.replied r 0x23 Status.OK pl ∧
           (∀ c ∈ cells, t.cell c.1 = { s.cell c.1 with
             owner := r.sess, orphan := false, gen := (c.2 + 1) % 65536, expiry := s.aon + 25000 * (s.cell c.1).lease }) ∧
           (∀ c, (∀ e ∈ cells, e.1 ≠ c) → t.cell c = s.cell c) ∧
           OnlyChanges [.cells, .sessions, .out, .free] (Sys.NOTIFY_DROPPED :: txIds) s t) ∧
       ((∃ c ∈ cells, (s.cell c.1).orphan = false ∨ (s.cell c.1).owner = 0 ∨ (s.cell c.1).gen ≠ c.2) →
         ∃ t pl, exec (.ownReclaim r cells) s = .next t ∧ t.replied r 0x23 Status.NOT_OWNER pl ∧
           OnlyChanges [.sessions, .out, .free] txIds s t)))

/-- R87, R89, R90: BUF_ALLOC in a cell that the session owns gives a buffer aligned to 4 KiB with a valid key where the pool holds it, else NO_RESOURCE.
BUF_FREE of a buffer that nothing uses answers OK, and the buffer, its key and its bytes are gone; one that a message still uses keeps the reply
back, with its key revoked. BUF_INFO answers size, cell, whether it has been freed, key, address and messages in progress (fields and layout are the
model's choice, log 144).

R89, R314: on a queue pair of the buffer service with its port UP, an RDMA WRITE on a valid key inside the size of its buffer moves exactly the
bytes of its range into the buffer, and a READ sends exactly them in pieces of the path MTU; on a key that is not valid, or outside the size, no
byte moves and BUF_WRITE_REFUSED counts. Each message in progress counts at its buffer until it completes, and once the last has completed a
BUF_FREE that waited is answered. -/
def Obligations.BuffersAndRdmaStayInside : Prop :=
  (∀ (r : Req) (s : State),
     (∀ cell size : Nat, s.takes r 0x40 → cell < 64 → s.owns r.sess cell = true → 1 ≤ size → size ≤ 2 ^ 28 →
       (s.poolUsed + ceilDiv size 4096 ≤ s.rd Sys.BUF_POOL_SIZE * 256 →
         ∃ t b, exec (.bufAlloc r cell size) s = .next t ∧ tfind t.nmp.buffers (s.nmp.bufSerial + 1) = some b ∧ b.size = size ∧
           b.cell = cell ∧ b.keyValid = true ∧ b.freed = false ∧ b.handle ≠ 0 ∧ b.va % 4096 = 0 ∧
           (∀ n, n ≠ s.nmp.bufSerial + 1 → tfind t.nmp.buffers n = tfind s.nmp.buffers n) ∧
           t.replied r 0x40 Status.OK (leBytes 8 b.handle ++ leBytes 4 b.key ++ leBytes 8 b.va) ∧
           OnlyChanges [.buffers, .sessions, .out, .free] txIds s t) ∧
       (s.rd Sys.BUF_POOL_SIZE * 256 < s.poolUsed + ceilDiv size 4096 →
         ∃ t, exec (.bufAlloc r cell size) s = .next t ∧ t.replied r 0x40 Status.NO_RESOURCE [] ∧
           OnlyChanges [.sessions, .out, .free] txIds s t)) ∧
     (∀ h n b, s.takes r 0x41 → s.bufOf h = some (n, b) → s.owns r.sess b.cell = true → s.bufInUse h = false →
       (b.inProgress = 0 →
         ∃ t, exec (.bufFree r h) s = .next t ∧ tfind t.nmp.buffers n = none ∧ (∀ off, off < 2 ^ 28 → memRead t.nmp.mem (bufAddr n off) = memBlank) ∧
           .nmp r.port r.peer (s.control r.port 0) true ⟨r.sess, r.seq, 0x41, Status.OK, []⟩ ∈ t.out) ∧
       (0 < b.inProgress →
         ∃ t, exec (.bufFree r h) s = .next t ∧ t.out = s.out ∧
           tfind t.nmp.buffers n = some { b with keyValid := false, freed := true, freedBy := r.sess, waiting := some r } ∧
           ∀ a, memRead t.nmp.mem a = memRead s.nmp.mem a)) ∧
     (∀ h n b, s.takes r 0x42 → s.nmp.buffers.find? (fun p => p.2.handle == h) = some (n, b) →
       ∃ t, exec (.bufInfo r h) s = .next t ∧ OnlyChanges [.sessions, .out, .free] txIds s t ∧
         t.replied r 0x42 Status.OK (leBytes 8 b.size ++ leBytes 4 b.cell ++ leBytes 4 (if b.freed then 1 else 0) ++
           leBytes 4 b.key ++ leBytes 8 b.va ++ leBytes 4 b.inProgress))) ∧
  (∀ (qp key off len sess : Nat) (q : Qp) (data : List Byte) (s : State),
     (tfind s.qps qp = some q → q.use = .buffer sess → s.ethUp q.port = true →
       let ids := [Eth.RX_FRAMES q.port, Eth.RX_BYTES q.port]
       (∀ n b, s.nmp.buffers.find? (fun p => p.2.key == key && p.2.keyValid) = some (n, b) → off + len ≤ b.size → data.length = len →
         ∃ t, exec (.bufRdmaAccess qp key true off len data) s = .next t ∧
           (∀ k, k < len → memRead t.nmp.mem (bufAddr n off + k) = data.getD k 0) ∧
           (∀ a, (a < bufAddr n off ∨ bufAddr n off + len ≤ a) → memRead t.nmp.mem a = memRead s.nmp.mem a) ∧
           tfind t.nmp.buffers n = some { b with inProgress := b.inProgress + 1 } ∧ OnlyChanges [.buffers, .mem, .free] ids s t) ∧
       (∀ n b, s.nmp.buffers.find? (fun p => p.2.key == key && p.2.keyValid) = some (n, b) → off + len ≤ b.size → q.reads < 16 →
         s.paused q.port = false → (s.eth q.port).held = [] →
         ∃ t, exec (.bufRdmaAccess qp key false off len data) s = .next t ∧
           t.out = ((List.range (max 1 (ceilDiv len (max 1 q.mtu)))).map fun i =>
             Output.packet q.port "RDMA READ response" (s.control q.port 1) (slice (memReadN s.nmp.mem (bufAddr n off) len) (q.mtu * i) q.mtu)).reverse ++ s.out ∧
           tfind t.nmp.buffers n = some { b with inProgress := b.inProgress + 1 } ∧
           OnlyChanges [.buffers, .qps, .out, .free] (ids ++ txIds) s t) ∧
       (∀ w : Bool, (w = true ∨ q.reads < 16) →
         (∀ n b, s.nmp.buffers.find? (fun p => p.2.key == key && p.2.keyValid) = some (n, b) → b.size < off + len) →
         ∃ t, exec (.bufRdmaAccess qp key w off len data) s = .next t ∧ t.rd Sys.BUF_WRITE_REFUSED = countUp (s.rd Sys.BUF_WRITE_REFUSED) 1 ∧
           OnlyChanges [.eth q.port, .out, .free] (Sys.BUF_WRITE_REFUSED :: ids ++ txIds) s t)) ∧
     (∀ (w : Bool) (n : Nat) (b : Buffer), s.nmp.buffers.find? (fun p => p.2.key == key && decide (0 < p.2.inProgress)) = some (n, b) →
       (2 ≤ b.inProgress →
         ∃ t, exec (.rdmaMessageComplete qp key w) s = .next t ∧ tfind t.nmp.buffers n = some { b with inProgress := b.inProgress - 1 } ∧
           OnlyChanges [.buffers, .qps] [] s t) ∧
       (∀ r, b.inProgress = 1 → b.waiting = some r →
         ∃ t, exec (.rdmaMessageComplete qp key w) s = .next t ∧
           .nmp r.port r.peer (s.control r.port 0) true ⟨r.sess, r.seq, 0x41, Status.OK, []⟩ ∈ t.out)))

/-! ## Sensor links (spec/04) -/

/-- R98, R99: a line-health test moves a lane in HEALTH to ACQUIRE where it finds the line healthy, on a port that no loopback feeds, and to LINE_FAULT
with its fault otherwise, which counts on entry. In LINE_FAULT the test runs again HEALTH_INTERVAL after its entry.

R112, R113, on a port that no loopback feeds: an attempt that finds block lock and no invalid header goes on to POLARITY with its eye margin; any
other counts in FAILED_ATTEMPTS and begins again, until RETRY_LIMIT in a row take the lane to FAILED. Without signal no attempt ends; a lane in
ACQUIRE that has none for 100 ms while another lane of the bond is in IDENTIFY, WAIT_BOND or UP is FAILED; a lane on its way up that loses the
signal begins again.

R111, R114, on a port that no loopback feeds: the polarity of a lane is decided by POLARITY_FORCE, or by the fourth piece of evidence of normal
polarity in a row, and it goes on to BLOCK_LOCK; block lock takes it to IDENTIFY. Without a decision in 65,536 block times, or an ALIGN in 49,152,
the attempt has failed. -/
def Obligations.LanesComeUpStepByStep : Prop :=
  (∀ (port : Fin 16) (lane : Fin 4) (s : State), s.linksLive = true →
     let k := laneKey port.val lane.val
     (∀ m : LineMeas, m.lane = lane → s.laneState k = 1 →
       let cls := healthClass m.pMv m.nMv m.diffMv m.riseP m.riseN
       (cls = 1 → s.rd (Port.LOOPBACK (s.leaderOf port.val)) = 0 →
         ∃ t, exec (.lineHealthTestDone port [m]) s = .next t ∧ t.laneState k = 3 ∧ t.rd (Port.LINE_HEALTH port.val lane.val) = 1 ∧
           OnlyChanges [.lane k]
             [Port.LINE_HEALTH port.val lane.val, Port.LANE_STATE port.val lane.val, Port.LOGICAL_ID port.val lane.val] s t) ∧
       (cls ≠ 1 →
         ∃ t, exec (.lineHealthTestDone port [m]) s = .next t ∧ t.laneState k = 2 ∧ t.rd (Port.LINE_HEALTH port.val lane.val) = cls ∧
           t.rd (Port.LINE_FAULTS port.val lane.val) = countUp (s.rd (Port.LINE_FAULTS port.val lane.val)) 1)) ∧
     (s.laneState k = 2 →
       ∃ t, exec (.healthRetestTimer port lane) s = .next t ∧ (t.lane k).testing = true ∧
         t.clock = max s.clock ((s.lane k).since + s.rd (Port.HEALTH_INTERVAL (s.leaderOf port.val)) * 1000000) ∧
         OnlyChanges [.clock, .lane k] [] s t)) ∧
  (∀ (port : Fin 16) (lane : Fin 4) (s : State), s.linksLive = true →
     let k := laneKey port.val lane.val
     let p := s.leaderOf port.val
     let fails := Port.FAILED_ATTEMPTS port.val lane.val
     s.rd (Port.LOOPBACK p) = 0 →
     (s.laneState k = 3 → (s.lane k).noSignal = true → ∀ lock bad eye, exec (.acquireAttemptEnd port lane lock bad eye) s = .next s) ∧
     (s.laneState k = 3 → (s.lane k).noSignal = false →
       (∀ eye, eye < 256 →
         ∃ t, exec (.acquireAttemptEnd port lane true 0 eye) s = .next t ∧ t.laneState k = 4 ∧
           t.rd (Port.EYE_MARGIN port.val lane.val) = eye ∧ (t.lane k).since = s.clock ∧
           OnlyChanges [.lane k] [Port.EYE_MARGIN port.val lane.val, Port.LANE_STATE port.val lane.val] s t) ∧
       (∀ lock bad eye, (lock = false ∨ bad ≠ 0) → (s.lane k).attempts + 1 < s.rd (Port.RETRY_LIMIT p) →
         ∃ t, exec (.acquireAttemptEnd port lane lock bad eye) s = .next t ∧ t.laneState k = 3 ∧ t.rd fails = countUp (s.rd fails) 1 ∧
           (t.lane k).attempts = (s.lane k).attempts + 1 ∧
           OnlyChanges [.lane k] [fails, Port.LANE_STATE port.val lane.val, Port.LOGICAL_ID port.val lane.val] s t) ∧
       (∀ lock bad eye, (lock = false ∨ bad ≠ 0) → s.rd (Port.RETRY_LIMIT p) ≤ (s.lane k).attempts + 1 →
         ∃ t, exec (.acquireAttemptEnd port lane lock bad eye) s = .next t ∧ t.laneState k = 9 ∧ t.rd fails = countUp (s.rd fails) 1)) ∧
     (s.laneState k = 3 → (s.lane k).noSignal = true → ((s.bondLanes p).any fun j => j != k && [6, 7, 8].contains (s.laneState j)) = true →
       ∃ t, exec (.noSignalTimeout port lane) s = .next t ∧ t.laneState k = 9 ∧ t.clock = max s.clock ((s.lane k).lowAt + 100000000)) ∧
     ([4, 5, 6, 7].contains (s.laneState k) = true →
       ∃ t, exec (.noSignalChange port lane true) s = .next t ∧ t.laneState k = 3 ∧ (t.lane k).noSignal = true ∧
         t.rd (Port.LOGICAL_ID port.val lane.val) = 0xFF ∧
         OnlyChanges [.lane k] [Port.LANE_STATE port.val lane.val, Port.LOGICAL_ID port.val lane.val] s t)) ∧
  (∀ (port : Fin 16) (lane : Fin 4) (s : State), s.linksLive = true → s.rd (Port.LOOPBACK (s.leaderOf port.val)) = 0 →
     let k := laneKey port.val lane.val
     let force := s.rd (Port.POLARITY_FORCE port.val lane.val)
     let fails := Port.FAILED_ATTEMPTS port.val lane.val
     (∀ (hdr : Fin 4) (pay : BitVec 64), s.laneState k = 4 → 1 ≤ force → force ≤ 2 →
       ∃ t, exec (.crlBlockRx port lane hdr pay) s = .next t ∧ t.laneState k = 5 ∧ t.rd (Port.LANE_POLARITY port.val lane.val) = force - 1 ∧
         OnlyChanges [.lane k] [Port.LANE_POLARITY port.val lane.val, Port.LANE_STATE port.val lane.val] s t) ∧
     (∀ pay : BitVec 64, s.laneState k = 4 → force = 0 → evidencePayload (descramble (s.lane k).scram pay.toNat).1 = true →
       (s.lane k).evKind = 1 →
       ((s.lane k).evCount < 3 →
         ∃ t, exec (.crlBlockRx port lane 2 pay) s = .next t ∧ t.laneState k = 4 ∧ (t.lane k).evCount = (s.lane k).evCount + 1 ∧
           OnlyChanges [.lane k] [] s t) ∧
       (3 ≤ (s.lane k).evCount →
         ∃ t, exec (.crlBlockRx port lane 2 pay) s = .next t ∧ t.laneState k = 5 ∧ t.rd (Port.LANE_POLARITY port.val lane.val) = 0)) ∧
     (s.laneState k = 4 → force = 0 →
       ∃ t, exec (.polarityTimeout port lane) s = .next t ∧ t.rd fails = countUp (s.rd fails) 1 ∧ (t.laneState k = 3 ∨ t.laneState k = 9) ∧
         t.clock = max s.clock ((s.lane k).since + 65536 * s.blockTenths (s.leaderOf port.val) / 10)) ∧
     (s.laneState k = 5 →
       ∃ t, exec (.blockLockAchieved port lane) s = .next t ∧ t.laneState k = 6 ∧ (t.lane k).badHist = 0 ∧ (t.lane k).held = 0 ∧
         OnlyChanges [.lane k] [Port.LANE_STATE port.val lane.val] s t) ∧
     (s.laneState k = 6 →
       ∃ t, exec (.identifyTimeout port lane) s = .next t ∧ t.rd fails = countUp (s.rd fails) 1 ∧ (t.laneState k = 3 ∨ t.laneState k = 9) ∧
         t.clock = max s.clock ((s.lane k).since + 49152 * s.blockTenths (s.leaderOf port.val) / 10)))

/-- R101, R102, R115: an invalid header on a lane in IDENTIFY or WAIT_BOND counts in HEADER_ERR. The descrambler is self-synchronising: what it makes of
a payload depends on the payload before and on nothing earlier.

R115, R121: a lane that loses block lock or the lock of its CDR on its way up fails an attempt; an UP lane whose CDR loses lock begins again at
ACQUIRE with no attempt counted and LOGICAL_ID 0xFF, and ES203 fires; in every other state nothing happens. On a parallel loopback no CDR runs, and
its loss does nothing (R125).

R116, R118, on a port that the pattern generator does not feed: two ALIGN blocks 16,384 positions apart that agree, and that fit the port, identify
a lane whose LANE_ID no other lane claims: it waits for its bond. A pair that does not fit holds the lane, which counts in ID_ERR once; one that
names the LANE_ID of other lanes holds it and every one of them that is not UP. A block with no valid ALIGN has no effect on a lane in IDENTIFY. A
bond in DESKEW with no more lanes absent than DEGRADE_LIMIT, at a MARKER_COUNT common to the others within 4 block times, carries data: the port is
UP, or UP_DEGRADED where lanes are absent. -/
def Obligations.LanesAlignAndAreLost : Prop :=
  ((∀ (h g v w : Nat), h < 2 ^ 58 → g < 2 ^ 58 → descramble (descramble h v).2 w = descramble (descramble g v).2 w) ∧
   (∀ (h w : Nat), h < 2 ^ 58 → w < 2 ^ 64 → (descramble h w).1 < 2 ^ 64 ∧ (descramble h w).2 = w / 2 ^ 6) ∧
   ∀ (port : Fin 16) (lane : Fin 4) (hdr : Fin 4) (pay : BitVec 64) (s : State), s.linksLive = true →
     s.rd (Port.LOOPBACK (s.leaderOf port.val)) = 0 → (s.laneState (laneKey port.val lane.val) = 6 ∨ s.laneState (laneKey port.val lane.val) = 7) →
     (hdr.val = 0 ∨ hdr.val = 3) →
     ∃ t, exec (.crlBlockRx port lane hdr pay) s = .next t ∧
       t.rd (Port.HEADER_ERR port.val lane.val) = countUp (s.rd (Port.HEADER_ERR port.val lane.val)) 1 ∧
       OnlyChanges [.lane (laneKey port.val lane.val)] [Port.HEADER_ERR port.val lane.val] s t) ∧
  (∀ (k : Fin 64) (s : State), s.linksLive = true →
     let fails := Port.FAILED_ATTEMPTS (k.val / 4) (k.val % 4)
     let loss := Port.BLOCK_LOCK_LOSS (k.val / 4) (k.val % 4)
     let loop := s.rd (Port.LOOPBACK (s.leaderOf (k.val / 4)))
     (loop ≠ 2 → (s.laneState k.val = 6 ∨ s.laneState k.val = 7) →
       ∃ t, exec (.blockLockLoss [k]) s = .next t ∧ t.rd loss = countUp (s.rd loss) 1 ∧ t.rd fails = countUp (s.rd fails) 1 ∧
         (t.laneState k.val = 3 ∨ t.laneState k.val = 9)) ∧
     (loop ≠ 2 → [4, 5, 6, 7].contains (s.laneState k.val) = true →
       ∃ t, exec (.cdrLockLoss [k]) s = .next t ∧ t.rd fails = countUp (s.rd fails) 1 ∧ (t.laneState k.val = 3 ∨ t.laneState k.val = 9)) ∧
     (loop ≠ 2 → s.laneState k.val = 8 →
       ∃ t, exec (.cdrLockLoss [k]) s = .next t ∧ t.laneState k.val = 3 ∧ t.rd fails = s.rd fails ∧
         t.rd (Port.LOGICAL_ID (k.val / 4) (k.val % 4)) = 0xFF ∧ (∃ c, (203, c) ∈ t.firings)) ∧
     ((loop = 2 ∨ s.laneState k.val < 4 ∨ s.laneState k.val = 9) →
       ∃ t, exec (.cdrLockLoss [k]) s = .next t ∧ OnlyChanges [] [] s t)) ∧
  (∀ (port : Fin 16) (lane : Fin 4) (w : BitVec 64) (ui : Nat) (s : State), s.linksLive = true →
     let k := laneKey port.val lane.val
     let p := s.leaderOf port.val
     let v := w.toNat
     let rivals := (s.bondLanes p).filter fun j => j != k && [6, 7, 8].contains (s.laneState j) && (s.lane j).claim == some (bits v 11 8)
     s.generated p = false →
     (∀ w0 ui0, p < 16 → s.laneState k = 6 → alignValid v = true → (s.lane k).lastAlign = some (w0, ui0) → ui = ui0 + 16384 * 66 →
       bits w0 23 8 = bits v 23 8 → bits v 31 24 = (bits w0 31 24 + 1) % 256 →
       (s.alignReason p v = 0 → s.rd (Port.PORT_STATE p) ≠ 1 → rivals = [] →
         ∃ t, exec (.crlAlignRx port lane (some w) ui) s = .next t ∧ t.laneState k = 7 ∧
           t.rd (Port.LOGICAL_ID port.val lane.val) = bits v 11 8 ∧ (t.lane k).claim = some (bits v 11 8) ∧
           OnlyChanges [.lane k] [Port.LANE_STATE port.val lane.val, Port.LOGICAL_ID port.val lane.val] s t) ∧
       (rivals ≠ [] →
         ∃ t, exec (.crlAlignRx port lane (some w) ui) s = .next t ∧ t.laneState k = 6 ∧
           (t.lane k).held = (if s.alignReason p v ≠ 0 then s.alignReason p v else 3) ∧
           ∀ j ∈ rivals, s.laneState j ≠ 8 → t.laneState j = 6 ∧ (t.lane j).held = 3) ∧
       (s.alignReason p v ≠ 0 → rivals = [] → (s.lane k).held = 0 →
         ∃ t, exec (.crlAlignRx port lane (some w) ui) s = .next t ∧ t.laneState k = 6 ∧ (t.lane k).held = s.alignReason p v ∧
           t.rd (Port.ID_ERR p) = countUp (s.rd (Port.ID_ERR p)) 1 ∧
           OnlyChanges (.lane k :: sending) (Port.ID_ERR p :: sendIds) s t)) ∧
     (s.laneState k = 6 → alignValid v = false → exec (.crlAlignRx port lane (some w) ui) s = .next s) ∧
     (∀ as : List Nat, p < 16 → s.rd (Port.PORT_STATE p) = 2 →
       let ks := (s.bondLanes p).filter fun j => s.laneState j == 7 || s.laneState j == 8
       s.sameMarker ks = some as → spreadOf as ≤ 264 → (s.bondLanes p).length - ks.length ≤ s.rd (Port.DEGRADE_LIMIT p) →
       (s.tryDeskew p).rd (Port.PORT_STATE p) = (if ks.length = (s.bondLanes p).length then 3 else 4) ∧
       (s.tryDeskew p).rd (Port.DESKEW_SPREAD p) = spreadOf as ∧ ∀ j ∈ ks, (s.tryDeskew p).laneState j = 8))

/-- R107: the samples of a line travel least significant bit first, and unpacking gives back what was packed, at every width.

R103, R107 to R110: on a port that delivers data, past the first FRAME_START and not fed by the pattern generator, the first line of a frame counts
its bytes and passes to ingest; one of another width than the frame's counts in LINE_SEQ_ERR and goes no further; both count in LINE_CRC_ERR where
the CRC fails with no logical lane missing. An embedded line with a good CRC counts its bytes and passes to ingest. An unknown control block or data
outside a line counts in PROTO_ERR, and has no other effect. On a port that delivers none, none of them does anything.

R110, R127, R138: FRAME_START on a port that is UP counts in FRAMES_RX and opens the frame on the link; FRAME_END ends it, and counts in PROTO_ERR
where its FRAME_COUNT differs. On a port fed by the pattern generator a frame starts with a FRAME_COUNT one higher each time, its lines follow one
by one, and its end stops it.

R128, R129: a trigger pulse that is due starts at its time, its output not being asserted: XTRIG_COUNT counts, the event source fires, and the
output is driven active; its end drives it inactive. Until the first commit of XTRIG_POLARITY the output is not driven. A tick edge on which the
divisor counter advances to 0 makes a pulse due XTRIG_OFFSET later. -/
def Obligations.LinesAndTriggersPassTheLink : Prop :=
  (∀ (w : Nat) (vs : List Nat), 1 ≤ w → (∀ v ∈ vs, v < 2 ^ w) →
     (packSamples w vs).length = lineBytes w vs.length ∧ unpackSamples w vs.length (packSamples w vs) = vs) ∧
  (∀ (port : Fin 16) (s : State), s.generated port.val = false →
     let p := port.val
     (s.delivers p = true →
       (∃ t, exec (.crlUnknownControl port) s = .next t ∧ t.rd (Port.PROTO_ERR p) = countUp (s.rd (Port.PROTO_ERR p)) 1 ∧
         OnlyChanges [] [Port.PROTO_ERR p] s t) ∧
       (∃ t, exec (.crlDataOutsideLine port) s = .next t ∧ t.rd (Port.PROTO_ERR p) = countUp (s.rd (Port.PROTO_ERR p)) 1 ∧
         OnlyChanges [] [Port.PROTO_ERR p] s t) ∧
       (∀ (n width len : Nat) (pl : List Byte) (crc : Nat), (s.port p).fresh = false → tfind (s.port p).lastLine 0 = none →
         let missing := (List.range (s.laneCount p)).filter fun j => !bit (s.rd (Port.LOGICAL_VALID p)) j
         let bytes := pl.take (lineBytes (widthBits width) len)
         let bad := missing.isEmpty && crc32 bytes != crc
         let crcErrors := if bad then countUp (s.rd (Port.LINE_CRC_ERR p)) 1 else s.rd (Port.LINE_CRC_ERR p)
         ((width = 0 ∨ widthBits width ≠ s.lineWidth p) →
           ∃ t, exec (.crlLineRx port n n width len pl crc) s = .next t ∧ t.rd (Port.LINE_CRC_ERR p) = crcErrors ∧
             t.rd (Port.LINE_SEQ_ERR p) = countUp (s.rd (Port.LINE_SEQ_ERR p)) 1 ∧
             OnlyChanges [.port p] [Port.LINE_SEQ_ERR p, Port.LINE_CRC_ERR p] s t) ∧
         (width ≠ 0 → widthBits width = s.lineWidth p →
           ∃ t u, exec (.crlLineRx port n n width len pl crc) s = .next t ∧
             t = u.ingestLine p ⟨n, len, (List.range len).map fun i =>
               if sampleMissing (widthBits width) (s.laneCount p) missing i then none
               else (unpackSamples (widthBits width) len bytes)[i]?, bad, missing, s.laneCount p⟩ ∧
             u.rd (Port.BYTES_RX p) = bytesUp (s.rd (Port.BYTES_RX p)) (lineBytes (widthBits width) len) ∧
             u.rd (Port.LINE_CRC_ERR p) = crcErrors ∧ OnlyChanges [.port p] [Port.BYTES_RX p, Port.LINE_CRC_ERR p] s u)) ∧
       (∀ (type : Fin 2) (n : Nat) (pl : List Byte), (s.port p).fresh = false → tfind (s.port p).lastLine (type.val + 1) = none →
         ∃ t u, exec (.embeddedLineRx port type n n pl (crc32 pl)) s = .next t ∧ t = u.ingestEmbedded p (type.val + 1) n false pl ∧
           u.rd (Port.BYTES_RX p) = bytesUp (s.rd (Port.BYTES_RX p)) pl.length ∧ OnlyChanges [.port p] [Port.BYTES_RX p] s u)) ∧
     (s.delivers p = false →
       exec (.crlUnknownControl port) s = .next s ∧ exec (.crlDataOutsideLine port) s = .next s ∧
       (∀ n m w l pl c, exec (.crlLineRx port n m w l pl c) s = .next s) ∧ (∀ f l, exec (.crlFrameEndRx port f l) s = .next s) ∧
       ∀ t n m pl c, exec (.embeddedLineRx port t n m pl c) s = .next s)) ∧
  (∀ (port : Fin 16) (fc lines : Nat) (s : State), s.delivers port.val = true →
     let p := port.val
     (s.generated p = false → s.rd (Port.PORT_STATE p) = 3 →
       ∃ t, exec (.crlFrameStartRx port fc) s = .next t ∧ t.rd (Port.FRAMES_RX p) = countUp (s.rd (Port.FRAMES_RX p)) 1 ∧
         (t.port p).linkFrame = some fc ∧ t.pending = s.pending) ∧
     (s.generated p = false → (s.port p).fresh = false → ∀ c, (s.port p).linkFrame = some c →
       ∃ t, exec (.crlFrameEndRx port fc lines) s = .next t ∧ (t.port p).linkFrame = none ∧ (t.ingest p).frame = none ∧
         t.rd (Port.PROTO_ERR p) = (if c ≠ fc then countUp (s.rd (Port.PROTO_ERR p)) 1 else s.rd (Port.PROTO_ERR p))) ∧
     (s.generated p = true → s.rd (Port.PORT_ENABLE p) = 1 → s.isMember p = false → (s.port p).patRunning = false →
       ∃ t, exec (.patgenFrameStart port) s = .next t ∧ (t.port p).patRunning = true ∧ (t.port p).patLine = 0 ∧
         (t.port p).patFrame = ((s.port p).patFrame + 1) % 2 ^ 32) ∧
     (s.generated p = true → (s.port p).patRunning = true → (s.port p).patLine < bits (s.rd (Port.PATGEN_GEOMETRY p)) 31 16 →
       ∀ n m w len pl crc, ∃ t, exec (.crlLineRx port n m w len pl crc) s = .next t ∧ (t.port p).patLine = (s.port p).patLine + 1) ∧
     (s.generated p = true → (s.port p).patRunning = true →
       ∃ t, exec (.crlFrameEndRx port fc lines) s = .next t ∧ (t.port p).patRunning = false)) ∧
  (∀ (n : Fin 16) (s : State),
     (∀ due, (s.trig n.val).startAt = some due → (s.trig n.val).endAt = none →
       ∃ t, exec (.xtrigPulseStart n) s = .next t ∧ t.clock = max s.clock due ∧ (t.trig n.val).startAt = none ∧
         (t.trig n.val).endAt = some (t.clock + evenNs (s.rd (Port.XTRIG_WIDTH n.val))) ∧
         t.rd (Port.XTRIG_COUNT n.val) = countUp (s.rd (Port.XTRIG_COUNT n.val)) 1 ∧
         t.out = (if (s.trig n.val).polarised then .pin ("XTRIG" ++ toString n.val) (s.trigActive n.val) :: s.out else s.out) ∧
         t.firings = s.firings ++ [(16 + n.val, t.clock)] ∧
         OnlyChanges [.clock, .trig n.val, .out, .firings] [Port.XTRIG_COUNT n.val] s t) ∧
     (∀ due, (s.trig n.val).endAt = some due →
       ∃ t, exec (.xtrigPulseEnd n) s = .next t ∧ t.clock = max s.clock due ∧ (t.trig n.val).endAt = none ∧
         t.out = (if (s.trig n.val).polarised then .pin ("XTRIG" ++ toString n.val) (1 - s.trigActive n.val) :: s.out else s.out) ∧
         OnlyChanges [.clock, .trig n.val, .out] [] s t) ∧
     (s.rd (Port.XTRIG_ENABLE n.val) = 1 → s.triggersRun = true → (s.trig n.val).load = false →
       ((s.trigTick n.val).trig n.val).startAt =
         if ((s.trig n.val).count + 1) % max 1 (s.rd (Port.XTRIG_DIVISOR n.val)) = 0 then
           some (s.clock + evenNs (s.rd (Port.XTRIG_OFFSET n.val))) else none))

/-! ## Frame ingest and the Tile Raw Format (spec/05, 06) -/

/-- R142, R144, R146, R148: a line of the frame that comes in order is placed after the lines missing before it, which are filled at the pedestal; it is
padded or cut to the geometry, and every sample lies in the range of the sample width. A line out of order or beyond the geometry is discarded, and
the ticket says LONG.

R138, R140, R143: at the ingest deadline the open frame closes with cause 1: the lines missing at its end are filled, its ticket says TRUNCATED,
FRAMES_CLOSED counts, FRAME_STATE reads 0 and ES48 + port fires.

R156, R180: in READY and RUN outside Duiker the encoder writes the next tile row of the oldest frame that has one: one tile for each 64 samples,
counted in TILES_ENCODED. R153: after the last tile row the ticket of the oldest closed frame is written and the frame stands in its slot. The
ticket's 128 bytes end in their CRC-32. -/
def Obligations.FramesAreIngested : Prop :=
  (∀ (f : Frame) (l : RxLine),
     (f.next ≤ l.number → l.number < f.cfg.lines →
       (f.place l).next = l.number + 1 ∧ (f.place l).received = f.received + 1 ∧ (f.place l).filled = f.filled + (l.number - f.next) ∧
       ∃ row, (f.place l).rows = f.rows ++ List.replicate (l.number - f.next) (List.replicate f.cfg.samples f.cfg.pedestal) ++ [row] ∧
         row.length = f.cfg.samples ∧ (f.cfg.pedestal < 2 ^ f.cfg.width → ∀ v ∈ row, v < 2 ^ f.cfg.width) ∧
         ∀ i, i < f.cfg.samples → (l.samples.getD i none = none → row.getD i 0 = f.cfg.pedestal) ∧
           ∀ v, l.samples.getD i none = some v → row.getD i 0 =
             (clamp 0 ((2 ^ f.cfg.width - 1 : Nat) : Int) ((v : Int) - (f.cfg.blackAt l.number i : Int) + (f.cfg.pedestal : Int))).toNat) ∧
     ((l.number < f.next ∨ f.cfg.lines ≤ l.number) →
       (f.place l).rows = f.rows ∧ (f.place l).discarded = f.discarded + 1 ∧ bit (f.place l).flags 1 = true ∧ (f.place l).next = f.next)) ∧
  (∀ (port : Fin 16) (f : Frame) (s : State), (s.ingest port.val).frame = some f →
     let p := port.val
     ∃ t g, exec (.ingestDeadline port) s = .next t ∧ t.clock = max s.clock (f.startClock + f.cfg.deadline) ∧
       (t.ingest p).frame = none ∧ (t.ingest p).closing = (s.ingest p).closing ++ [g] ∧ g.cause = 1 ∧ g.closed = true ∧
       g.filled = f.filled + (f.cfg.lines - f.next) ∧ bit g.flags 2 = true ∧ g.number = f.number ∧ g.ticket = f.ticket ∧
       t.rd (Ing.FRAME_STATE p) = 0 ∧ t.rd (Ing.FRAMES_CLOSED p) = countUp (s.rd (Ing.FRAMES_CLOSED p)) 1 ∧
       t.firings = s.firings ++ [(48 + p, t.clock)]) ∧
  (∀ (port : Fin 16) (f : Frame) (s : State), s.ingestRuns = true →
     let p := port.val
     ((s.ingest p).closing.find? Frame.rowReady = none → (s.ingest p).frame = some f → f.rowReady = true →
       ∃ t g, exec (.trfTileRowWritten port) s = .next t ∧ (t.ingest p).frame = some g ∧ g.tiles.length = f.tiles.length + 1 ∧
         g.rows = f.rows.drop 8 ∧ t.rd (Trf.TILES_ENCODED p) = countUp (s.rd (Trf.TILES_ENCODED p)) (ceilDiv f.cfg.samples 64)) ∧
     ((s.ingest p).closing.find? Frame.rowReady = some f →
       ∃ t, exec (.trfTileRowWritten port) s = .next t ∧ (t.ingest p).frame = (s.ingest p).frame ∧
         (t.ingest p).closing.length = (s.ingest p).closing.length ∧ (∃ g ∈ (t.ingest p).closing, g = f.afterRow f.encodeRow) ∧
         t.rd (Trf.TILES_ENCODED p) = countUp (s.rd (Trf.TILES_ENCODED p)) (ceilDiv f.cfg.samples 64)) ∧
     (∀ rest, (s.ingest p).closing = f :: rest → ceilDiv f.cfg.lines 8 ≤ f.tiles.length →
       ∃ t g, exec (.frameTicketWrite port) s = .next t ∧ tfind (t.ingest p).slots (f.number % f.cfg.slots) = some g ∧
         g.ticketWritten = true ∧ g.ticket = f.ticket ∧ g.trfBytes = f.stored.length ∧ (t.ingest p).closing = rest) ∧
     (f.ticketBytes.length = 128 ∧ leAt f.ticketBytes 124 4 = crc32 (f.ticketBytes.take 124)))

/-- R163, R170, R172, R182: the decoder gives back every tile that the lossless mode encodes, sample for sample, at every sample width. -/
def Obligations.LosslessTilesDecodeExactly : Prop :=
  ∀ (w : Nat) (tile : List (List Nat)), (w = 10 ∨ w = 12 ∨ w = 14 ∨ w = 16) → tile.length = 4 →
    (∀ p ∈ tile, p.length = 128 ∧ ∀ v ∈ p, v < 2 ^ w) →
    trfDecode w (trfEncodeLossless w tile).bytes = (tile, false) ∧ (trfEncodeLossless w tile).bytes.length % 16 = 0

/-- R165, R167, R170: a tile of a fixed-rate mode takes exactly the bytes of its budget, it decodes, and no sample is further from its own value than
the error bound that the encoder reports. -/
def Obligations.FixedRateTilesStayWithinTheirBound : Prop :=
  ∀ (w cfa budget maxStep : Nat) (tile : List (List Nat)), (w = 10 ∨ w = 12 ∨ w = 14 ∨ w = 16) → budget ≤ 4 → maxStep ≤ 16 →
    tile.length = 4 → (∀ p ∈ tile, p.length = 128 ∧ ∀ v ∈ p, v < 2 ^ w) →
    let e := trfEncodeFixed w cfa budget maxStep tile
    e.bytes.length = trfTileBytes budget ∧ (trfDecode w e.bytes).2 = false ∧
      ∀ k j, k < 4 → j < 128 →
        (((((trfDecode w e.bytes).1.getD k []).getD j 0 : Nat) : Int) - (((tile.getD k []).getD j 0 : Nat) : Int)).natAbs ≤ e.bound

/-! ## Chamois (spec/07, 08) -/

/-- R190, R191, R196: an eligible early start takes the newest frame of its context and waits for the Scene section; the older frames, and those whose
slot was used again, count as skipped. Without a frame it counts in EARLY_MISSED and NO_FRAME_COUNT. R56: where S10 skips the context on this tick,
no job starts, and the newest frame is behind it.

R194, R196: at the end of a stripe that is not the last the running job goes on, or yields to an early-start job that waits, which counts in
PREEMPTIONS; the job that yielded is kept to go on after it.

R190, R212: a finished job leaves its context free; LAST_TICKET_NUMBER, LAST_JOB_CYCLES and LAST_JOB_END tell of it, and WORST_JOB_END is at least
its end. R229: a 3D LUT whose load is complete waits in its pending slot, no commit waits for the load any more, and one that waited for it alone is
answered. -/
def Obligations.JobsRunUnderTheirRules : Prop :=
  (∀ (c p : Nat) (s : State), s.earlyCtx = some c → c < 32 → p < 16 → s.pow.global = .run → (s.ctxSt c).job = none → s.portOf c = some p →
     (s.skips c = false → ∀ slot f, newestFrame (s.qualifying c p) = some (slot, f) →
       ∃ t j, exec .earlyStartEligible s = .next t ∧ (t.ctxSt c).job = some j ∧ j.port = p ∧ j.slot = slot ∧ j.ticket = f.ticket ∧
         j.early = true ∧ (t.ctxSt c).seen = some (p, f.number) ∧ (t.ctxSt c).waiting = [] ∧
         t.clock = max s.clock (s.tick.edgeAt + s.rd (Ctx.EARLY_START c)) ∧
         ((∀ e ∈ (s.ctxSt c).waiting, e.1 ≠ Ctx.FRAMES_SKIPPED c) →
           t.rd (Ctx.FRAMES_SKIPPED c) = countUp (s.rd (Ctx.FRAMES_SKIPPED c)) ((s.qualifying c p).length - 1 + (s.ctxSt c).missed))) ∧
     (s.skips c = false → s.qualifying c p = [] →
       ∃ t, exec .earlyStartEligible s = .next t ∧ (t.ctxSt c).job = none ∧
         t.rd (Ctx.EARLY_MISSED c) = countUp (s.rd (Ctx.EARLY_MISSED c)) 1 ∧
         t.rd (Ctx.NO_FRAME_COUNT c) = countUp (s.rd (Ctx.NO_FRAME_COUNT c)) 1 ∧
         OnlyChanges [.clock, .out, .obs] (Ctx.EARLY_MISSED c :: Ctx.NO_FRAME_COUNT c :: traceIds) s t) ∧
     (s.skips c = true → ∀ slot f, newestFrame (s.qualifying c p) = some (slot, f) →
       ∃ t, exec .earlyStartEligible s = .next t ∧ (t.ctxSt c).job = none ∧ (t.ctxSt c).seen = some (p, f.number) ∧
         OnlyChanges [.clock, .ctx c, .ingest p] [Ctx.FRAMES_SKIPPED c, Tick.REPEATED_COUNT c] s t)) ∧
  (∀ (c : Nat) (j : Job) (s : State), s.scene.running = some c → (s.ctxSt c).job = some j → j.stripe + 1 < j.stripes →
     (s.scene.early = none →
       ∃ t, exec .stripeComplete s = .next t ∧ (t.ctxSt c).job = some { j with stripe := j.stripe + 1 } ∧ t.scene = s.scene ∧
         OnlyChanges [.ctx c] [] s t) ∧
     (∀ e, s.scene.early = some e → c < 32 →
       ∃ t, exec .stripeComplete s = .next t ∧ t.scene.running = some e ∧ t.scene.early = none ∧ t.scene.yielded = some c ∧
         t.rd (Ctx.PREEMPTIONS c) = countUp (s.rd (Ctx.PREEMPTIONS c)) 1 ∧
         OnlyChanges [.ctx c, .ctx e, .scene] [Ctx.PREEMPTIONS c] s t)) ∧
  ((∀ (c : Fin 32) (cyc ns : Nat) (sceneLate rendLate statsLate : Bool) (j : Job) (f : Frame) (s : State), s.scene.running = some c.val →
     (s.ctxSt c.val).job = some j → s.slotFrame j.port j.slot = some f → cyc < 2 ^ 32 → ns < 2 ^ 32 → f.ticket < 2 ^ 32 →
     s.rd (Ctx.WORST_JOB_END c.val) < 2 ^ 32 →
     ∃ t, exec (.jobComplete c cyc ns sceneLate rendLate statsLate) s = .next t ∧ (t.ctxSt c.val).job = none ∧
       t.rd (Ctx.LAST_TICKET_NUMBER c.val) = f.ticket ∧ t.rd (Ctx.LAST_JOB_CYCLES c.val) = cyc ∧ t.rd (Ctx.LAST_JOB_END c.val) = ns ∧
       ns ≤ t.rd (Ctx.WORST_JOB_END c.val)) ∧
   ∀ (c : Fin 32) (v : Fin 4) (s : State), (s.rend c.val v.val).lutPend.isSome = true →
     ∃ t, exec (.lutPendingLoadDone c v) s = .next t ∧ (t.rend c.val v.val).lutLoaded = true ∧
       (t.rend c.val v.val).lutPend = (s.rend c.val v.val).lutPend ∧ t.nmp.waits = s.nmp.waits.filter (fun w => w.why ≠ .lutLoad c.val v.val) ∧
       ((∀ w ∈ s.nmp.waits, w.why ≠ .lutLoad c.val v.val) → OnlyChanges [.ctx c.val] [] s t) ∧
       ∀ w, s.nmp.waits = [w] → w.why = .lutLoad c.val v.val →
         ∃ mark payload, t.out.head? = some (.nmp w.r.port w.r.peer mark true ⟨w.r.sess, w.r.seq, w.op, w.status, payload⟩))

/-- R213, R214: every CF24 word with a finite exponent but the negative zero stands for one value, and that value is written as the same word; rounding
changes no value that a word stands for.

R238: the 32 zones across and the 32 zones down cover every sample once, in order. -/
def Obligations.NumbersAndZonesAreExact : Prop :=
  (∀ v : Nat, v < 2 ^ 24 → cf24Bad v = false → v ≠ 2 ^ 23 →
     cf24Word (cf24Value v) = v ∧ cf24Round (cf24Value v) = (cf24Value v, false)) ∧
  (∀ n : Nat, ((List.range 32).flatMap (zoneRange n)) = List.range n)

/-! ## Exposure and I2C (spec/09, 10) -/

/-- Table 10-2, R273 to R275: while the controllers run, the line test leaves the bus IDLE, sends it to CLEARING, or finds a fault, the first of codes
9, 10, 11; clearing leaves it IDLE, or in FAULT with code 8; FAULT is left for CHECK after BUS_RETRY_INTERVAL. On a bus with no work waiting nothing
else changes.

Table 10-2, R272, R275: what others do with the lines moves the bus while the controllers run: another controller takes an IDLE bus and frees it;
SCL held low for SCL_LOW_TIMEOUT leads to CHECK, SDA held low for SDA_LOW_TIMEOUT to CLEARING; a driven line that reads high leads to FAULT with
code 10. On a freed or faulty bus with no work waiting nothing else changes. -/
def Obligations.TheBusFollowsItsLines : Prop :=
  (∀ (b : Fin 12) (s : State), s.i2cRuns = true →
     (s.rd (I2c.BUS_STATE b) = 1 →
       (∃ t, exec (.i2cLineTestDone b false false false true) s = .next t ∧ t.rd (I2c.BUS_STATE b) = 5 ∧ (t.bus b).since = s.clock ∧
         OnlyChanges [.bus b] [I2c.BUS_STATE b] s t) ∧
       ((s.bus b).sensor = [] → (s.bus b).hosts = [] →
         (∃ t, exec (.i2cLineTestDone b false false false false) s = .next t ∧ t.rd (I2c.BUS_STATE b) = 2 ∧ (t.bus b).since = s.clock ∧
           OnlyChanges [.bus b] [I2c.BUS_STATE b] s t) ∧
         ∀ sclLow drivenHigh shorted sdaLow : Bool, (sclLow || drivenHigh || shorted) = true →
           ∃ t, exec (.i2cLineTestDone b sclLow drivenHigh shorted sdaLow) s = .next t ∧ t.rd (I2c.BUS_STATE b) = 6 ∧
             t.rd (I2c.LAST_ERROR b) = (if sclLow then 9 else if drivenHigh then 10 else 11) ∧
             t.rd (I2c.LINE_FAULTS b) = countUp (s.rd (I2c.LINE_FAULTS b)) 1 ∧
             OnlyChanges (.bus b :: sending) (I2c.BUS_STATE b :: I2c.LAST_ERROR b :: I2c.LINE_FAULTS b :: sendIds) s t)) ∧
     (s.rd (I2c.BUS_STATE b) = 5 → (s.bus b).sensor = [] → (s.bus b).hosts = [] →
       (∃ t, exec (.i2cClearingDone b true) s = .next t ∧ t.rd (I2c.BUS_STATE b) = 2 ∧
         t.rd (I2c.BUS_CLEARS b) = countUp (s.rd (I2c.BUS_CLEARS b)) 1 ∧ OnlyChanges [.bus b] [I2c.BUS_STATE b, I2c.BUS_CLEARS b] s t) ∧
       ∃ t, exec (.i2cClearingDone b false) s = .next t ∧ t.rd (I2c.BUS_STATE b) = 6 ∧ t.rd (I2c.LAST_ERROR b) = 8 ∧
         t.rd (I2c.BUS_CLEAR_FAIL b) = countUp (s.rd (I2c.BUS_CLEAR_FAIL b)) 1 ∧
         OnlyChanges (.bus b :: sending) (I2c.BUS_STATE b :: I2c.LAST_ERROR b :: I2c.BUS_CLEAR_FAIL b :: sendIds) s t) ∧
     (s.rd (I2c.BUS_STATE b) = 6 →
       ∃ t, exec (.i2cFaultRetry b) s = .next t ∧ t.rd (I2c.BUS_STATE b) = 1 ∧
         t.clock = max s.clock ((s.bus b).since + s.rd (I2c.BUS_RETRY_INTERVAL b) * 1000000) ∧ (t.bus b).since = t.clock ∧
         OnlyChanges [.clock, .bus b] [I2c.BUS_STATE b] s t)) ∧
  (∀ (b : Fin 12) (acked : Nat) (s : State), s.i2cRuns = true →
     (s.rd (I2c.BUS_STATE b) = 2 →
       ∃ t, exec (.i2cOtherStart b) s = .next t ∧ t.rd (I2c.BUS_STATE b) = 4 ∧ OnlyChanges [.bus b] [I2c.BUS_STATE b] s t) ∧
     (s.rd (I2c.BUS_STATE b) = 4 →
       ((s.bus b).sensor = [] → (s.bus b).hosts = [] →
         ∃ t, exec (.i2cBusFree b) s = .next t ∧ t.rd (I2c.BUS_STATE b) = 2 ∧ OnlyChanges [.bus b] [I2c.BUS_STATE b] s t) ∧
       (∃ t, exec (.i2cSclTimeout b acked) s = .next t ∧ t.rd (I2c.BUS_STATE b) = 1 ∧ OnlyChanges [.bus b] [I2c.BUS_STATE b] s t) ∧
       ∃ t, exec (.i2cSdaLowTimeout b) s = .next t ∧ t.rd (I2c.BUS_STATE b) = 5 ∧ OnlyChanges [.bus b] [I2c.BUS_STATE b] s t) ∧
     (s.rd (I2c.BUS_STATE b) = 1 ∨ s.rd (I2c.BUS_STATE b) = 5 → (s.bus b).sensor = [] → (s.bus b).hosts = [] →
       ∃ t, exec (.i2cDriveFail b acked) s = .next t ∧ t.rd (I2c.BUS_STATE b) = 6 ∧ t.rd (I2c.LAST_ERROR b) = 10 ∧ (t.bus b).fault = 10 ∧
         t.rd (I2c.LINE_FAULTS b) = countUp (s.rd (I2c.LINE_FAULTS b)) 1 ∧
         OnlyChanges (.bus b :: sending) (I2c.BUS_STATE b :: I2c.LAST_ERROR b :: I2c.LINE_FAULTS b :: sendIds) s t))

/-- R281 to R286: a host transaction that ends leaves its code in LAST_ERROR and moves the bus. One that completes counts in TRANSACTIONS and
BYTES_XFER, and the list goes on with its next part; one that is not acknowledged ends the list, as a clock held low too long does, and each counts;
after a bus error the transaction is put back, to be retried, within RETRY_LIMIT and where it may be repeated, and ends the list otherwise. Nothing
else changes where no commit waits for the list.

R278, R279: on a free bus with no sensor work a poll starts: its address byte leaves, and the bus is OWN. A poll that is not acknowledged changes
nothing of the list; an acknowledged one ends the last descriptor and with it the list: XFER_RESULT stands, and no commit waits for the list any
more. POLL_LIMIT passed ends it with code 12. -/
def Obligations.TransactionsEndWithACode : Prop :=
  (∀ (b : Fin 12) (x y : Xact) (xs : List Xact) (ds : List (List Xact)) (h : HostList) (hs : List HostList) (s : State), s.i2cRuns = true →
     s.rd (I2c.BUS_STATE b) = 3 → (s.bus b).cur = some (true, x) → (s.bus b).hosts = h :: hs → h.descs = (x :: y :: xs) :: ds → x.poll = 0 →
     x.op ≠ 3 → (∀ w ∈ s.nmp.waits, w.why ≠ .xferList b) →
     (∀ (acked : Nat) (data : List Byte), ∃ t h', exec (.i2cTransactionDone b false false acked data) s = .next t ∧
       t.rd (I2c.BUS_STATE b) = 2 ∧ t.rd (I2c.LAST_ERROR b) = 0 ∧ t.rd (I2c.TRANSACTIONS b) = countUp (s.rd (I2c.TRANSACTIONS b)) 1 ∧
       t.rd (I2c.BYTES_XFER b) = bytesUp (s.rd (I2c.BYTES_XFER b)) x.len ∧ (t.bus b).cur = none ∧ (t.bus b).hosts = h' :: hs ∧
       h'.descs = (y :: xs) :: ds ∧ h'.reads = h.reads ++ padTo 8 (if x.op = 1 then data.take x.len else []) ∧
       OnlyChanges [.bus b] [I2c.BUS_STATE b, I2c.LAST_ERROR b, I2c.TRANSACTIONS b, I2c.BYTES_XFER b] s t) ∧
     (∀ (addr : Bool) (acked : Nat) (data : List Byte), ∃ t, exec (.i2cTransactionDone b addr (!addr) acked data) s = .next t ∧
       t.rd (I2c.BUS_STATE b) = 2 ∧ t.rd (I2c.LAST_ERROR b) = (if addr then 1 else 2) ∧
       t.rd (if addr then I2c.ADDR_NACK_COUNT b else I2c.DATA_NACK_COUNT b) =
         countUp (s.rd (if addr then I2c.ADDR_NACK_COUNT b else I2c.DATA_NACK_COUNT b)) 1 ∧
       (t.bus b).hosts = hs ∧ t.rdBlob (I2c.XFER_RESULT b) = xferResult s.deviceTime h true (if addr then 1 else 2) ∧
       OnlyChanges [.bus b, .blob (I2c.XFER_RESULT b)]
         [I2c.BUS_STATE b, I2c.LAST_ERROR b, I2c.ADDR_NACK_COUNT b, I2c.DATA_NACK_COUNT b, I2c.BYTES_XFER b] s t) ∧
     (∀ (place : Fin 3) (acked : Nat) (data : List Byte), ∃ t, exec (.i2cArbLost b place acked data) s = .next t ∧
       t.rd (I2c.BUS_STATE b) = 4 ∧ t.rd (I2c.LAST_ERROR b) = 3 + place.val ∧ (t.bus b).cur = none ∧
       OnlyChanges [.bus b, .blob (I2c.XFER_RESULT b)] [I2c.BUS_STATE b, I2c.LAST_ERROR b, I2c.ARB_LOST_COUNT b, I2c.ARB_LOST_STOP_COUNT b,
         I2c.ARB_LOST_RSTART_COUNT b, I2c.TRANSACTIONS b, I2c.BYTES_XFER b] s t) ∧
     (∀ acked : Nat, ∃ t, exec (.i2cBusError b acked) s = .next t ∧ t.rd (I2c.BUS_STATE b) = 4 ∧ t.rd (I2c.LAST_ERROR b) = 6 ∧
       t.rd (I2c.BUS_ERROR_COUNT b) = countUp (s.rd (I2c.BUS_ERROR_COUNT b)) 1 ∧ (t.bus b).cur = none ∧
       (t.bus b).hosts = (if x.tries < s.rd (I2c.RETRY_LIMIT b) ∧ (x.op ≠ 0 ∨ acked = 0) then
         { h with descs := ({ x with tries := x.tries + 1, code := 6 } :: y :: xs) :: ds } :: hs else hs) ∧
       OnlyChanges [.bus b, .blob (I2c.XFER_RESULT b)] [I2c.BUS_STATE b, I2c.LAST_ERROR b, I2c.BUS_ERROR_COUNT b, I2c.BYTES_XFER b] s t) ∧
     ∀ acked : Nat, ∃ t, exec (.i2cSclTimeout b acked) s = .next t ∧ t.rd (I2c.BUS_STATE b) = 1 ∧ t.rd (I2c.LAST_ERROR b) = 7 ∧
       t.rd (I2c.SCL_TIMEOUT_COUNT b) = countUp (s.rd (I2c.SCL_TIMEOUT_COUNT b)) 1 ∧ (t.bus b).hosts = hs ∧
       t.rdBlob (I2c.XFER_RESULT b) = xferResult s.deviceTime h true 7 ∧
       OnlyChanges [.bus b, .blob (I2c.XFER_RESULT b)] [I2c.BUS_STATE b, I2c.LAST_ERROR b, I2c.SCL_TIMEOUT_COUNT b, I2c.BYTES_XFER b] s t) ∧
  (∀ (b : Fin 12) (x : Xact) (due : Nat) (h : HostList) (s : State), s.i2cRuns = true → (s.bus b).pollEnd = some due →
     (s.bus b).hosts = [h] → h.descs = [[x]] → (s.bus b).sensor = [] →
     (s.rd (I2c.BUS_STATE b) = 2 → (s.bus b).cur = none → (s.bus b).pollTries = 0 →
       ∃ t, exec (.i2cPoll b) s = .next t ∧ t.out = .i2c b x.pollOf.wire :: s.out ∧ t.rd (I2c.BUS_STATE b) = 3 ∧
         (t.bus b).cur = some (true, x.pollOf) ∧ OnlyChanges [.out, .bus b] [I2c.BUS_STATE b] s t) ∧
     (s.rd (I2c.BUS_STATE b) = 3 → (s.bus b).cur = some (true, x.pollOf) → ∀ (acked : Nat) (data : List Byte),
       (∃ t, exec (.i2cTransactionDone b true false acked data) s = .next t ∧ t.rd (I2c.BUS_STATE b) = 2 ∧ (t.bus b).hosts = [h] ∧
         (t.bus b).pollEnd = some due ∧ t.rd (I2c.TRANSACTIONS b) = countUp (s.rd (I2c.TRANSACTIONS b)) 1 ∧
         OnlyChanges [.bus b] [I2c.BUS_STATE b, I2c.TRANSACTIONS b] s t) ∧
       ∃ t, exec (.i2cTransactionDone b false false acked data) s = .next t ∧ t.rd (I2c.BUS_STATE b) = 2 ∧ (t.bus b).hosts = [] ∧
         (t.bus b).pollEnd = none ∧ t.rd (I2c.TRANSACTIONS b) = countUp (s.rd (I2c.TRANSACTIONS b)) 1 ∧
         t.rdBlob (I2c.XFER_RESULT b) = xferResult s.deviceTime { h with descs := [], done := h.done + 1 } false h.warn ∧
         t.nmp.waits.filter (fun w => w.why == .xferList b && h.r == some w.r) = [] ∧
         ((∀ w ∈ s.nmp.waits, w.why ≠ .xferList b) →
           OnlyChanges [.bus b, .blob (I2c.XFER_RESULT b)] [I2c.BUS_STATE b, I2c.TRANSACTIONS b] s t)) ∧
     ∃ t, exec (.i2cPollTimeout b) s = .next t ∧ t.clock = max s.clock due ∧ t.rd (I2c.LAST_ERROR b) = 12 ∧
       t.rd (I2c.POLL_TIMEOUTS b) = countUp (s.rd (I2c.POLL_TIMEOUTS b)) 1 ∧ (t.bus b).hosts = [] ∧ (t.bus b).pollEnd = none ∧
       t.rdBlob (I2c.XFER_RESULT b) = xferResult t.deviceTime h true 12 ∧
       t.nmp.waits.filter (fun w => w.why == .xferList b && h.r == some w.r) = [] ∧
       ((∀ w ∈ s.nmp.waits, w.why ≠ .xferList b) →
         OnlyChanges [.clock, .bus b, .blob (I2c.XFER_RESULT b)] [I2c.LAST_ERROR b, I2c.POLL_TIMEOUTS b] s t))

/-- R252 to R255: EXPOSE_REQUEST with a malformed payload gets BAD_PARAM, without the port's cell NOT_OWNER. One without bound ISP values that passes
its checks takes the next EXPOSURE_ID and is pending, armed for its window on the bus of its sensor, its reply still to come; while the bus is busy
or has no other work nothing starts. Where no window is left the change is decided as past at once.

R250, R251, R280: as a write window opens, the work armed for it on an idle bus starts: the bus is OWN and the first transaction leaves on it. R255:
after the last transaction of a change it waits for its first frame, LAST_WRITE_MARGIN is the time left to WINDOW_CLOSE, the change is counted as
applied or as shifted, and its reply is sent. R262: after that of a full set the sensor's values are known again.

R248, R249: with the last write of a mode sequence and its defaults the sensor's values are known: CONTROL_STATE is 0, and on a bus without host
work nothing else starts. A failed pass starts again at its time with the whole sequence; a WAIT that is over leaves the steps that follow it. -/
def Obligations.ExposureChangesReachTheSensor : Prop :=
  (∀ (r : Req) (b : List Byte) (s : State), s.takes r 0x50 →
     let u := s.heard r
     let p := leAt b 0 1
     let n := leAt b 2 1
     let target := leAt b 8 8
     let x := s.exposure p
     (b.length < 16 ∨ n = 0 ∨ 16 < n ∨ b.length ≠ 16 + 8 * n ∨ 16 ≤ p →
       ∃ t, exec (.exposeRequest r b) s = .next t ∧ t.replied r 0x50 Status.BAD_PARAM [] ∧ OnlyChanges [.out, .free, .sessions] txIds s t) ∧
     (1 ≤ n → n ≤ 16 → b.length = 16 + 8 * n → p < 16 →
       (s.owns r.sess (2 + p) = false →
         ∃ t, exec (.exposeRequest r b) s = .next t ∧ t.replied r 0x50 Status.NOT_OWNER [] ∧
           OnlyChanges [.out, .free, .sessions] txIds s t) ∧
       ∀ (d : Desc) (codes : List (Nat × Nat)), s.owns r.sess (2 + p) = true → leAt b 1 1 % 2 = 0 → x.desc = some d →
         u.exposeCheck p (exposeControls b) = (Status.OK, codes) → u.targetCheck p target = Status.OK →
         let w0 := if bit target 40 = false then u.asapWindow p else (bits target 31 0 + 2 ^ 32 - d.delay) % 2 ^ 32
         (∀ w sh, u.chooseWindow p w0 = some (w, sh) →
           ((s.bus d.bus).cur.isSome = true ∨ s.rd (I2c.BUS_STATE d.bus) ∈ [1, 4, 5] ∨
             (s.bus d.bus).sensor = [] ∧ (s.bus d.bus).hosts = []) →
           ∃ t c, exec (.exposeRequest r b) s = .next t ∧ c ∈ (t.exposure p).pend ∧ c.id = x.nextId ∧ c.r = some r ∧ c.codes = codes ∧
             c.win = w ∧ c.first = (w + d.delay) % 2 ^ 32 ∧ c.shifted = sh ∧ (t.exposure p).nextId = (x.nextId + 1) % 2 ^ 32 ∧
             t.rd (Sens.PENDING_CHANGES p) = x.pend.length + 1 ∧
             (∃ j, (t.bus d.bus).sensor.Perm (j :: (s.bus d.bus).sensor) ∧ j.port = p ∧ j.kind = .change c.id ∧ j.win = w ∧
               j.steps = (d.writeSet (s.pageCode d.bus) codes).map SensorStep.xact) ∧
             OnlyChanges [.sessions, .exposure p, .bus d.bus] [Sens.PENDING_CHANGES p] s t) ∧
         (u.chooseWindow p w0 = none →
           ∃ t pl, exec (.exposeRequest r b) s = .next t ∧ t.replied r 0x50 Status.TICKET_PAST pl ∧
             t.rd (Sens.EXPOSE_PAST p) = countUp (s.rd (Sens.EXPOSE_PAST p)) 1 ∧
             OnlyChanges [.sessions, .exposure p, .out, .free] (Sens.PENDING_CHANGES p :: Sens.EXPOSE_PAST p :: txIds) s t))) ∧
  (∀ (p : Fin 16) (d : Desc) (j : SensorJob) (s : State), (s.exposure p).desc = some d → d.bus < 12 → (s.bus d.bus).sensor = [j] →
     (∀ n o cl x xs, (s.exposure p).nextWindow = some (n, o, cl) → (s.exposure p).restoring = false → s.i2cRuns = true →
       (s.bus d.bus).cur = none → s.rd (I2c.BUS_STATE d.bus) = 2 → (s.at o).jobReady j = true → (s.at o).jobFits j = true →
       j.steps = .xact x :: xs → x.tries = 0 →
       ∃ t k, exec (.writeWindowOpen p) s = .next t ∧ t.clock = max s.clock o ∧ t.rd (I2c.BUS_STATE d.bus) = 3 ∧
         (t.bus d.bus).cur = some (false, x) ∧ (t.bus d.bus).sensor = [k] ∧ k.steps = j.steps ∧ k.port = j.port ∧ k.kind = j.kind ∧
         (j.kind ≠ .mode → k.started = true) ∧ t.out = .i2c d.bus x.wire :: s.out ∧ n ∈ (t.exposure p).winsDone ∧
         OnlyChanges [.clock, .bus d.bus, .exposure p, .out] [I2c.BUS_STATE d.bus] s t) ∧
     (j.port = p → j.steps = [] → j.started = true → (s.bus d.bus).hosts = [] →
       (∀ id c r, j.kind = .change id → (s.exposure p).pend.find? (fun c => c.id == id) = some c → c.r = some r →
         ∃ t pl, exec (.writeSetComplete p) s = .next t ∧ (t.bus d.bus).sensor = [] ∧
           t.rd (Sens.LAST_WRITE_MARGIN p) = ofSigned 32 ((j.close : Int) - (s.clock : Int)) ∧
           (t.exposure p).waiting = (s.exposure p).waiting ++ [{ c with written := true }] ∧
           (t.exposure p).pend = (s.exposure p).pend.filter (fun e => e.id != c.id) ∧
           t.rd (if c.shifted then Sens.EXPOSE_SHIFTED p else Sens.EXPOSE_APPLIED p) =
             countUp (s.rd (if c.shifted then Sens.EXPOSE_SHIFTED p else Sens.EXPOSE_APPLIED p)) 1 ∧
           t.replied r 0x50 (if c.shifted then Status.TICKET_SHIFTED else Status.OK) pl ∧
           OnlyChanges [.exposure p, .bus d.bus, .out, .free, .sessions] (Sens.LAST_WRITE_MARGIN p :: Sens.PENDING_CHANGES p ::
             Sens.EXPOSE_SHIFTED p :: Sens.EXPOSE_APPLIED p :: txIds) s t) ∧
       (j.kind = .restore →
         ∃ t, exec (.writeSetComplete p) s = .next t ∧ (t.bus d.bus).sensor = [] ∧ (t.exposure p).restoring = false ∧
           t.rd (Sens.CONTROL_STATE p) = 0 ∧
           t.rd (Sens.LAST_WRITE_MARGIN p) = ofSigned 32 ((j.close : Int) - (s.clock : Int)) ∧
           OnlyChanges (.exposure p :: .bus d.bus :: sending) (Sens.LAST_WRITE_MARGIN p :: Sens.CONTROL_STATE p :: sendIds) s t))) ∧
  (∀ (p : Fin 16) (d : Desc) (s : State), (s.exposure p).desc = some d →
     (∀ j : SensorJob, (s.bus d.bus).sensor = [j] → j.port = p → j.kind = .mode →
       (j.steps = [] → (s.bus d.bus).hosts = [] →
         ∃ t, exec (.modeSequenceDone p) s = .next t ∧ (t.bus d.bus).sensor = [] ∧ t.rd (Sens.CONTROL_STATE p) = 0 ∧
           (t.exposure p).restoring = false ∧ (t.exposure p).lateCount = max (s.exposure p).lateCount (d.delay - 1) ∧
           (t.exposure p).defaults = (s.exposure p).defaults.map (fun c => { c with written := true }) ∧
           OnlyChanges (.exposure p :: .bus d.bus :: sending) (Sens.CONTROL_STATE p :: sendIds) s t) ∧
       ∀ w, j.waitUntil = some w → s.rd (I2c.BUS_STATE d.bus) = 4 →
         ∃ t, exec (.sequenceWaitEnd p) s = .next t ∧ t.clock = max s.clock w ∧
           (t.bus d.bus).sensor = [{ j with waitUntil := none, steps := j.steps.drop 1 }] ∧ OnlyChanges [.clock, .bus d.bus] [] s t) ∧
     ∀ due m, (s.exposure p).modeRetry = some due → d.modes.find? (fun m => m.id == s.rd (Sens.SENSOR_MODE p)) = some m →
       s.rd (I2c.BUS_STATE d.bus) = 4 →
       ∃ t, exec (.modeSequenceRetry p) s = .next t ∧ t.clock = max s.clock due ∧ (t.exposure p).modeRetry = none ∧
         (∃ j, j ∈ (t.bus d.bus).sensor ∧ j.port = p ∧ j.kind = .mode ∧ j.steps = d.modeSteps (s.pageCode d.bus) m d.defaults) ∧
         OnlyChanges [.clock, .exposure p, .bus d.bus] [] s t)

/-! ## Display heads (spec/11) -/

/-- R291, Table 11-3: a rising HPD reports the sink and starts training from NO_SINK and LINK_FAIL; HPD held low leaves an enabled head in NO_SINK; an
HPD IRQ with a link failure retrains an ACTIVE head. Training takes the first combination of its order that works and that the mode fits, or ends in
LINK_FAIL, which counts.

R292, R293: a display frame starts V_TOTAL lines after the one before, raises DISP_FRAME by one, counts in FRAMES_SCANNED and fires its event
source. A locked head measures its phase error at an alignment point: below one line it counts towards LOCKED, else it trims the frame that starts
by one line, or by all whole lines of the error where LOCK_JUMP allows it (DESIGN CHOICE, log 168), and is ACQUIRING.

R299, R300: a head whose frame is being scanned latches the values that wait for it at its latch point, the end of the last active line, and
LAST_COMMIT names the first frame that shows them, the next one, or in self refresh the next but one (R304), with COMMIT_LATE where they came too
late for this one; values that skip this latch point wait on. In IMMEDIATE mode the next line start latches them, and inside the active lines the
frame is torn.

R306: late data of a layer that scans a source is noted for the rest of its line; UNDERFLOW_FRAMES counts the frame once. The NOTIFY is sent at most
once per second for a head. -/
def Obligations.HeadsFollowSinkAndRaster : Prop :=
  (∀ (h : Fin 4) (s : State),
     (∀ caps, caps < 2 ^ 32 → (s.rd (Head.LINK_STATE h) = 1 ∨ s.rd (Head.LINK_STATE h) = 5) →
       ∃ t, exec (.hpdRise h caps) s = .next t ∧ t.rd (Head.LINK_STATE h) = 2 ∧ t.rd (Head.SINK_CAPS h) = caps ∧ (t.head h).hpd = true ∧
         OnlyChanges (.head h :: sending) (Head.LINK_STATE h :: Head.SINK_CAPS h :: sendIds) s t) ∧
     (s.rd (Head.LINK_STATE h) ≠ 0 →
       ∃ t, exec (.hpdLowTimeout h) s = .next t ∧ t.rd (Head.LINK_STATE h) = 1 ∧ t.rd (Head.SINK_CAPS h) = 0 ∧
         t.rd (Head.LINK_TRAINED h) = 0 ∧ (t.head h).hpd = false ∧
         OnlyChanges (.head h :: sending) (Head.LINK_STATE h :: Head.SINK_CAPS h :: Head.LINK_TRAINED h :: sendIds) s t) ∧
     (s.rd (Head.LINK_STATE h) = 3 →
       ∃ t, exec (.hpdIrq h true) s = .next t ∧ t.rd (Head.LINK_STATE h) = 2 ∧
         OnlyChanges sending (Head.LINK_STATE h :: sendIds) s t) ∧
     (s.rd (Head.LINK_STATE h) = 2 → ∀ works : List (Nat × Nat),
       let fits := (s.trainingOrder h).find? fun e => works.contains e &&
         modeFits (s.rd (Head.PIXEL_CLOCK h)) (bitsPerPixel (s.rd (Head.OUT_COLOUR h)) (s.rd (Head.OUT_BPC h))) e.1 e.2
       (∀ e, fits = some e →
         ∃ t, exec (.linkTrainingDone h works) s = .next t ∧ t.rd (Head.LINK_STATE h) = 3 ∧
           t.rd (Head.LINK_TRAINED h) = e.1 * 256 + e.2 ∧
           OnlyChanges sending (Head.LINK_STATE h :: Head.LINK_TRAINED h :: sendIds) s t) ∧
       (fits = none →
         ∃ t, exec (.linkTrainingDone h works) s = .next t ∧ t.rd (Head.LINK_STATE h) = 5 ∧
           t.rd (Head.LINK_TRAIN_FAIL h) = countUp (s.rd (Head.LINK_TRAIN_FAIL h)) 1 ∧
           OnlyChanges sending (Head.LINK_STATE h :: Head.LINK_TRAIN_FAIL h :: sendIds) s t))) ∧
  (∀ (h : Fin 4) (e : Int) (s : State), s.rd (Head.LINK_STATE h) ≠ 0 →
     (s.rd (Head.LOCK_MODE h) = 0 →
       ∃ t, exec (.displayFrameStart h e) s = .next t ∧ t.rd (Head.DISP_FRAME h) = (s.rd (Head.DISP_FRAME h) + 1) % 2 ^ 32 ∧
         t.rd (Head.FRAMES_SCANNED h) = countUp (s.rd (Head.FRAMES_SCANNED h)) 1 ∧ t.clock = max s.clock ((s.head h).due.getD 0) ∧
         (t.head h).frameAt = t.clock ∧ (t.head h).due = some (t.clock + s.linesNs h (((s.vTiming h).2.1 : Int) + (s.head h).trim).toNat) ∧
         (t.head h).latched = false ∧ (t.head h).torn = false ∧ (t.head h).under = [] ∧ t.firings = s.firings ++ [(100 + h.val, t.clock)] ∧
         OnlyChanges [.clock, .head h, .firings, .out] [Head.DISP_FRAME h, Head.FRAMES_SCANNED h, Head.STALE_FRAMES h] s t) ∧
     (s.rd (Head.LOCK_MODE h) ≠ 0 → (s.head h).align % max 1 (s.lockRatio h).1 = 0 →
       let num := max 1 (s.lineTime h).1
       let err := e.natAbs * (s.lineTime h).2
       let jump := s.rd (Head.LOCK_JUMP h)
       let toward : Int := if e < 0 then 1 else -1
       ∃ t, exec (.displayFrameStart h e) s = .next t ∧ t.rd (Head.LOCK_ERROR h) = ofSigned 32 e ∧ (t.head h).align = 1 ∧
         t.clock = max s.clock ((s.head h).due.getD 0) ∧ (t.head h).frameAt = t.clock ∧
         (t.head h).due = some (t.clock + s.linesNs h (((s.vTiming h).2.1 : Int) + (t.head h).trim).toNat) ∧
         t.firings = s.firings ++ [(100 + h.val, t.clock)] ∧
         (err / num = 0 → (t.head h).good = (s.head h).good + 1 ∧ (t.head h).trim = 0 ∧
           t.rd (Head.LOCK_STATE h) = (if 8 ≤ (s.head h).good + 1 then 2 else s.rd (Head.LOCK_STATE h))) ∧
         (err / num ≠ 0 → jump ≠ 0 ∧ jump * num < err → (t.head h).trim = toward * ((err / num : Nat) : Int) ∧ (t.head h).good = 0 ∧
           t.rd (Head.LOCK_STATE h) = 1 ∧ t.rd (Head.LOCK_JUMPS h) = countUp (s.rd (Head.LOCK_JUMPS h)) 1) ∧
         (err / num ≠ 0 → ¬(jump ≠ 0 ∧ jump * num < err) → (t.head h).trim = toward ∧ (t.head h).good = 0 ∧
           t.rd (Head.LOCK_STATE h) = 1 ∧ t.rd (Head.LOCK_TRIMS h) = countUp (s.rd (Head.LOCK_TRIMS h)) 1) ∧
         OnlyChanges (.clock :: .head h :: .firings :: sending) (Head.DISP_FRAME h :: Head.FRAMES_SCANNED h :: Head.STALE_FRAMES h ::
           Head.LOCK_ERROR h :: Head.LOCK_STATE h :: Head.LOCK_TRIMS h :: Head.LOCK_JUMPS h :: sendIds) s t)) ∧
  (∀ (h : Fin 4) (s : State), s.rd (Head.LINK_STATE h) ≠ 0 → (s.head h).due.isSome = true →
     ((s.head h).latched = false →
       (∃ t, exec (.displayLatchPoint h) s = .next t ∧ t.clock = max s.clock ((s.head h).frameAt + s.linesNs h (s.vTiming h).1)) ∧
       ((∀ g ∈ (s.head h).groups, g.skip ≠ 0) →
         ∃ t, exec (.displayLatchPoint h) s = .next t ∧ (t.head h).latched = true ∧ t.firings = s.firings ++ [(96 + h.val, t.clock)] ∧
           (t.head h).groups = (s.head h).groups.map (fun g => { g with skip := g.skip - 1 }))) ∧
     (∀ (g : HeadGroup) (id v : Nat), (s.head h).groups = [g] → g.vals = [(id, .num v)] → id = Head.BACKGROUND h ∨ id = Head.UNDERFLOW_COLOUR h →
       v < 2 ^ 32 →
       let held := decide (s.rd (Head.LINK_STATE h) = 4)
       (g.skip = 0 → (s.head h).latched = false →
         ∃ t, exec (.displayLatchPoint h) s = .next t ∧ t.rd id = v ∧ (t.head h).groups = [] ∧
           t.rd (Head.COMMITS h) = countUp (s.rd (Head.COMMITS h)) 1 ∧
           t.rd (Head.LAST_COMMIT h) = (s.rd (Head.DISP_FRAME h) + (if held then 2 else 1)) % 2 ^ 32 * 2 ^ 32 + (if g.late then 1 else 0)) ∧
       (s.rd (Head.COMMIT_MODE h) = 0 → ∀ line : Nat,
         let inside := decide (0 < line ∧ line < (s.vTiming h).1)
         ∃ t, exec (.displayLineStart h line) s = .next t ∧ t.clock = max s.clock ((s.head h).frameAt + s.linesNs h line) ∧ t.rd id = v ∧
           (t.head h).groups = [] ∧ (t.head h).torn = ((s.head h).torn || inside) ∧
           t.rd (Head.COMMITS h) = countUp (s.rd (Head.COMMITS h)) 1 ∧
           t.rd (Head.LAST_COMMIT h) = (s.rd (Head.DISP_FRAME h) + ((if line < (s.vTiming h).1 then 0 else 1) + (if held then 2 else 0))) % 2 ^ 32 *
             2 ^ 32 + (if inside then 2 else 0)))) ∧
  (∀ (h l : Fin 4) (line x : Nat) (s : State), s.rd (Head.LINK_STATE h) ≠ 0 → s.layerSource h l ≠ 0 →
     ∃ t, exec (.layerUnderflow h l line x) s = .next t ∧ (t.head h).under = (s.head h).under ++ [(l.val, line, x)] ∧
       t.rd (Head.UNDERFLOW_FRAMES h) =
         (if (s.head h).under = [] then countUp (s.rd (Head.UNDERFLOW_FRAMES h)) 1 else s.rd (Head.UNDERFLOW_FRAMES h)) ∧
       t.firings = s.firings ++ [(205, s.clock)] ∧
       OnlyChanges (.head h :: .firings :: sending) (Head.UNDERFLOW_FRAMES h :: sendIds) s t ∧
       ∀ c, (s.head h).lastUnder = some c → s.clock < c + 1000000000 →
         OnlyChanges [.head h, .firings] [Head.UNDERFLOW_FRAMES h] s t)

/-! ## The network, Device Time, the Tick Ring and the streams (spec/12) -/

/-- R311, R337: a port in TRAINING goes UP with lock, or to FAIL 500 ms after it began, which counts in LINK_FAILS; an UP port that loses its link
trains again, and its uncorrected codewords are counted. Each change fires the event source of the links.

R313: a pause on ROCE_PRIORITY holds RoCEv2 until it ends, one of no quanta ends it and what it held leaves; a pause longer than PFC_STORM_LIMIT
ends and pauses are ignored for one second; the port itself sends PFC as its buffer passes the thresholds.

R310: a request in the port's VLAN for one of the port's addresses is answered from that port with its MAC address or with the echoed data; one for
another address, or outside the VLAN, only counts as received. A membership query is answered with the groups that the port has joined. -/
def Obligations.EthernetLinksTrainAndPause : Prop :=
  (∀ (p : Fin 2) (n : Nat) (s : State), s.netRuns = true →
     (s.rd (Eth.LINK_STATE p) = 1 →
       (∃ t, exec (.ethLockAchieved p) s = .next t ∧ t.rd (Eth.LINK_STATE p) = 2 ∧ (t.eth p).since = s.clock ∧ (t.eth p).pause = none ∧
         t.firings = s.firings ++ [(204, s.clock)] ∧
         OnlyChanges (.eth p :: .firings :: sending) (Eth.LINK_STATE p :: Obs.BOOT_TIME_NMP :: sendIds) s t) ∧
       ∃ t, exec (.ethTrainingTimeout p) s = .next t ∧ t.rd (Eth.LINK_STATE p) = 3 ∧ t.clock = max s.clock ((s.eth p).since + 500000000) ∧
         t.rd (Eth.LINK_FAILS p) = countUp (s.rd (Eth.LINK_FAILS p)) 1 ∧ t.firings = s.firings ++ [(204, t.clock)] ∧
         OnlyChanges (.clock :: .eth p :: .firings :: sending) (Eth.LINK_STATE p :: Eth.LINK_FAILS p :: sendIds) s t) ∧
     (s.rd (Eth.LINK_STATE p) = 2 →
       ∃ t, exec (.ethLinkLoss p n) s = .next t ∧ t.rd (Eth.LINK_STATE p) = 1 ∧
         t.rd (Eth.FEC_UNCORRECTED p) = countUp (s.rd (Eth.FEC_UNCORRECTED p)) n ∧ t.firings = s.firings ++ [(204, s.clock)] ∧
         OnlyChanges (.eth p :: .firings :: sending) (Eth.LINK_STATE p :: Eth.FEC_UNCORRECTED p :: sendIds) s t)) ∧
  (∀ (p : Fin 2) (s : State),
     (s.ethUp p = true → ∀ (prio : Fin 8) (quanta : Nat), s.rd (Eth.PFC_ENABLE p) ≠ 0 → prio.val = s.rd (Eth.ROCE_PRIORITY p) →
       (s.eth p).ignoreUntil ≤ s.clock →
       let start := if s.paused p then ((s.eth p).pause.getD (s.clock, 0)).1 else s.clock
       ∃ t, exec (.pfcPauseRx p prio quanta) s = .next t ∧ t.rd (Eth.PFC_RX p) = countUp (s.rd (Eth.PFC_RX p)) 1 ∧
         (t.eth p).pause = (if quanta = 0 then none else some (start, s.clock + quanta * 512 / s.lineGbit p)) ∧
         (t.eth p).held = (if quanta = 0 then [] else (s.eth p).held) ∧
         (quanta ≠ 0 → OnlyChanges [.eth p, .free] [Eth.RX_FRAMES p, Eth.RX_BYTES p, Eth.PFC_RX p] s t) ∧
         OnlyChanges [.eth p, .free, .out] (Eth.RX_FRAMES p :: Eth.RX_BYTES p :: Eth.PFC_RX p :: txIds) s t) ∧
     (∀ e, (s.eth p).pause = some e →
       ∃ t, exec (.pfcStorm p) s = .next t ∧ t.clock = max s.clock (e.1 + s.rd (Eth.PFC_STORM_LIMIT p) * 1000000) ∧
         (t.eth p).pause = none ∧ (t.eth p).held = [] ∧ (t.eth p).ignoreUntil = t.clock + 1000000000 ∧
         t.rd (Eth.PFC_STORMS p) = countUp (s.rd (Eth.PFC_STORMS p)) 1 ∧
         OnlyChanges (.clock :: .eth p :: sending) (Eth.PFC_STORMS p :: sendIds) s t) ∧
     ∀ above : Bool, s.ethUp p = true → s.rd (Eth.PFC_ENABLE p) = 1 → (s.eth p).sentPause ≠ above →
       ∃ t, exec (.pfcRxBufferThreshold p above) s = .next t ∧ (t.eth p).sentPause = above ∧
         t.rd (Eth.PFC_TX p) = countUp (s.rd (Eth.PFC_TX p)) 1 ∧ OnlyChanges [.eth p, .out, .free] (Eth.PFC_TX p :: txIds) s t) ∧
  (∀ (p : Fin 2) (a d : List Byte) (s : State), s.ethUp p = true →
     let v := s.rd (Eth.VLAN_ID p)
     let mark : Marking := { vlan := v }
     (a.length = 4 → s.ownAddress p a = true →
       (∃ t, exec (.arpNdpIcmpRx p v 0 a d) s = .next t ∧ t.out = .packet p "ARP reply" mark (beBytes 6 (s.rd (Eth.MAC_ADDRESS p)) ++ a) :: s.out) ∧
       ∃ t, exec (.arpNdpIcmpRx p v 2 a d) s = .next t ∧ t.out = .packet p "ICMP echo reply" mark (a ++ d) :: s.out) ∧
     (a.length = 16 → s.ownAddress p a = true →
       (∃ t, exec (.arpNdpIcmpRx p v 1 a d) s = .next t ∧
         t.out = .packet p "neighbour advertisement" mark (a ++ beBytes 6 (s.rd (Eth.MAC_ADDRESS p))) :: s.out) ∧
       ∃ t, exec (.arpNdpIcmpRx p v 3 a d) s = .next t ∧ t.out = .packet p "ICMPv6 echo reply" mark (a ++ d) :: s.out) ∧
     (∃ t, exec (.arpNdpIcmpRx p v 4 a d) s = .next t ∧ t.out = .packet p "IGMPv3 report" mark (s.groups p false).flatten :: s.out) ∧
     (∃ t, exec (.arpNdpIcmpRx p v 5 a d) s = .next t ∧ t.out = .packet p "MLDv2 report" mark (s.groups p true).flatten :: s.out) ∧
     ∀ (vlan : Nat) (kind : Fin 6),
       ∃ t, exec (.arpNdpIcmpRx p vlan kind a d) s = .next t ∧
         ((vlan ≠ v ∨ kind.val < 4 ∧ s.ownAddress p a = false) → t.out = s.out) ∧
         OnlyChanges [.out, .free] (Eth.RX_FRAMES p :: Eth.RX_BYTES p :: txIds) s t)

/-- R313, R315: a CNP halves the rate of its queue pair, which recovers in steps; a marked packet is answered with a CNP, which a pause holds back; a
connect request in the port's VLAN that passes the checks of the buffer service gets a queue pair of the session, any other is refused.

R314: a transmission that is not acknowledged within ROCE_ACK_TIMEOUT is sent again, up to ROCE_RETRY times after the latest acknowledgement; then
the queue pair of a buffer service is lost. -/
def Obligations.QueuePairsConnectSlowDownAndRetry : Prop :=
  (∀ (s : State),
     (∀ (k : Nat) (q : Qp), tfind s.qps k = some q → q.port < 2 →
       (∃ t, exec (.cnpRx k) s = .next t ∧ tfind t.qps k = some { q with rate := q.rate / 2, rateAt := s.clock } ∧
         t.rd (Eth.CNP_RX q.port) = countUp (s.rd (Eth.CNP_RX q.port)) 1 ∧
         OnlyChanges [.qps, .free] [Eth.RX_FRAMES q.port, Eth.RX_BYTES q.port, Eth.CNP_RX q.port] s t) ∧
       (q.rate < fullRate →
         ∃ t, exec (.cnpRateRecovery k) s = .next t ∧ t.clock = max s.clock (q.rateAt + 50000) ∧
           tfind t.qps k = some { q with rate := min fullRate (q.rate + fullRate / 20), rateAt := t.clock } ∧
           OnlyChanges [.clock, .qps] [] s t) ∧
       (let cnp := Output.packet q.port "CNP" (s.control q.port 1) (leBytes 4 k)
        (s.paused q.port = false → (s.eth q.port).held = [] →
         ∃ t, exec (.ecnMarkedRx k) s = .next t ∧ t.out = cnp :: s.out ∧ t.rd (Eth.CNP_TX q.port) = countUp (s.rd (Eth.CNP_TX q.port)) 1 ∧
           OnlyChanges [.out, .free] (Eth.RX_FRAMES q.port :: Eth.RX_BYTES q.port :: Eth.CNP_TX q.port :: txIds) s t) ∧
        (s.paused q.port = true →
         ∃ t, exec (.ecnMarkedRx k) s = .next t ∧ (t.eth q.port).held = (s.eth q.port).held ++ [(0, cnp)] ∧
           t.rd (Eth.CNP_TX q.port) = countUp (s.rd (Eth.CNP_TX q.port)) 1 ∧
           OnlyChanges [.eth q.port, .free] [Eth.RX_FRAMES q.port, Eth.RX_BYTES q.port, Eth.CNP_TX q.port] s t))) ∧
     ∀ (p : Fin 2) (qpn : BitVec 24) (mtu : Nat) (data : List Byte), s.ethUp p = true → s.paused p = false → (s.eth p).held = [] →
       ∃ t, exec (.bufferServiceConnect p (s.rd (Eth.VLAN_ID p)) qpn mtu data) s = .next t ∧
         (s.bufferConnectBad qpn.toNat mtu data = 0 →
           tfind t.qps s.qpSerial = some { port := p.val, use := .buffer (leAt data 0 4), mtu := mtu } ∧
           t.out = .connect p.val (s.control p 1) true 0 :: s.out) ∧
         (s.bufferConnectBad qpn.toNat mtu data ≠ 0 →
           t.qps = s.qps ∧ t.out = .connect p.val (s.control p 1) false (s.bufferConnectBad qpn.toNat mtu data) :: s.out) ∧
         OnlyChanges [.qps, .out, .free] (Eth.RX_FRAMES p :: Eth.RX_BYTES p :: Eth.QP_COUNT 0 :: Eth.QP_COUNT 1 :: txIds) s t) ∧
  (∀ (k sess : Nat) (progress : Bool) (q : Qp) (s : State), tfind s.qps k = some q → q.port < 2 → q.use = .buffer sess →
     let done := if progress then 0 else q.retries
     let due := max s.clock (q.sentAt + 4096 * 2 ^ s.rd (Eth.ROCE_ACK_TIMEOUT q.port))
     (done < s.rd (Eth.ROCE_RETRY q.port) → (s.at due).paused q.port = false → (s.eth q.port).held = [] →
       ∃ t, exec (.localAckTimeout k progress) s = .next t ∧ t.clock = due ∧
         tfind t.qps k = some { q with retries := done + 1, sentAt := t.clock } ∧
         t.out = .packet q.port "RETRANSMIT" (s.control q.port 1) (leBytes 4 k) :: s.out ∧ OnlyChanges [.clock, .qps, .out, .free] txIds s t) ∧
     (s.rd (Eth.ROCE_RETRY q.port) ≤ done →
       ∃ t, exec (.localAckTimeout k progress) s = .next t ∧ t.clock = due ∧ t.qps = tdel s.qps k ∧
         OnlyChanges [.clock, .qps] [Eth.QP_COUNT 0, Eth.QP_COUNT 1] s t))

/-- R322 to R324: a message of another domain or VLAN is ignored; a master answers a Delay_Req; a Sync of the selected master, with the path delay
known, gives PTP_OFFSET, and a departure beyond 2^64 − 1 ns is refused. With TIME_SOURCE PTP an offset beyond TIME_STEP_THRESHOLD steps Device Time
by it, a smaller one locks. That an offset within the threshold locks is the model's choice (log 78).

R322, R323: a master sends two-step Sync, and, with no better master heard, takes the lowest port UP (DESIGN CHOICE, log 172) and sends Announce
there with the metadata of the tick rate; a slave sends Delay_Req and keeps its departure. When the only master is lost no master is selected, and
Device Time from PTP is in HOLDOVER, as is a locked tick from PTP.

R327 to R329: an edge of a sync input that FSYNC_EDGE names stands in FSYNC_LAST_EDGE and fires its event source. One within 5 % of the measured
period is accepted and gives FSYNC_PERIOD, and a Tick Generator held over on the input acquires again where that period is within FSYNC_PULL. An
edge off the period is a glitch; no accepted edge for 1.5 periods is a stop, which takes a locked Tick Generator to HOLDOVER. The other edge is only
stamped. -/
def Obligations.DeviceTimeFollowsItsReference : Prop :=
  (∀ (p : Fin 2) (b : List Byte) (s : State), s.ethUp p = true →
     let h := ptpHeader b
     let v := s.rd (Eth.VLAN_ID p)
     (∀ vlan, s.rd Time.PTP_ROLE = 0 ∨ vlan ≠ v ∨ h.domain ≠ s.rd Time.PTP_DOMAIN →
       ∃ t, exec (.ptpMessageRx p vlan b) s = .next t ∧ OnlyChanges [.free] [Eth.RX_FRAMES p, Eth.RX_BYTES p] s t) ∧
     (s.rd Time.PTP_ROLE ≠ 0 → h.domain = s.rd Time.PTP_DOMAIN →
       (h.type = 1 → s.rd (Time.PTP_PORT_STATE p) = 6 →
         ∃ t pl, exec (.ptpMessageRx p v b) s = .next t ∧ t.out = .packet p "PTP Delay_Resp" (s.control p 2) pl :: s.out ∧
           OnlyChanges [.out, .free] (Eth.RX_FRAMES p :: Eth.RX_BYTES p :: txIds) s t) ∧
       (h.type = 0 → h.twoStep = false → s.ptp.master = some (p.val, h.source) →
         (2 ^ 64 ≤ ptpStamp b →
           ∃ t, exec (.ptpMessageRx p v b) s = .next t ∧ t.rd Time.PTP_BAD_TIME = countUp (s.rd Time.PTP_BAD_TIME) 1 ∧
             OnlyChanges [.free] [Eth.RX_FRAMES p, Eth.RX_BYTES p, Time.PTP_BAD_TIME] s t) ∧
         ∀ d : Int, ptpStamp b < 2 ^ 64 → s.ptp.delay = some d →
           let offset : Int := (s.deviceTime : Int) - s.rdS (Time.PTP_ASYMMETRY p) - ((ptpStamp b : Int) + h.correction) - d
           let past := ofSigned 64 ((s.deviceTime : Int) - offset)
           ∃ t, exec (.ptpMessageRx p v b) s = .next t ∧ t.rd Time.PTP_OFFSET = ofSigned 64 offset ∧ t.rd (Time.PTP_PORT_STATE p) = 9 ∧
             (s.rd Time.TIME_SOURCE ≠ 1 →
               OnlyChanges [.ptp, .free] [Eth.RX_FRAMES p, Eth.RX_BYTES p, Time.PTP_OFFSET, Time.PTP_PORT_STATE p] s t) ∧
             (s.rd Time.TIME_SOURCE = 1 → (s.rd Time.TIME_STEP_THRESHOLD : Int) < |offset| →
               t.deviceTime = past - past % 2 ∧ t.rd Time.TIME_EPOCH = (s.epoch + 1) % 65536 ∧
               t.rd Time.TIME_STEPS = countUp (s.rd Time.TIME_STEPS) 1 ∧ t.firings = s.firings ++ [(4, s.clock)]) ∧
             (s.rd Time.TIME_SOURCE = 1 → |offset| ≤ (s.rd Time.TIME_STEP_THRESHOLD : Int) →
               t.rd Time.TIME_STATE = 2 ∧ t.rd Time.TIME_EPOCH = s.rd Time.TIME_EPOCH ∧
               OnlyChanges [.ptp, .time, .free]
                 [Eth.RX_FRAMES p, Eth.RX_BYTES p, Time.PTP_OFFSET, Time.PTP_PORT_STATE p, Time.TIME_STATE] s t)))) ∧
  (∀ (s : State),
     let chosen := if s.ethUp 1 = true ∧ ¬s.ethUp 0 = true then 1 else 0
     (∀ p : Fin 2, s.ethUp p = true →
       let mark := s.control p 2
       (s.rd Time.PTP_ROLE = 2 → s.ptp.master = none → s.qualified = [] → p.val = chosen →
         ∃ t a, exec (.ptpIntervalSend p 0) s = .next t ∧ t.rd (Time.PTP_PORT_STATE p) = 6 ∧
           t.ptp.announceSeq = (s.ptp.announceSeq + 1) % 65536 ∧
           t.out = .packet p "PTP ST 2059-2 metadata" mark (s.syncMetadata p s.ptp.announceSeq) :: .packet p "PTP Announce" mark a :: s.out ∧
           OnlyChanges [.ptp, .out, .free] (Time.PTP_PORT_STATE 0 :: Time.PTP_PORT_STATE 1 :: txIds) s t) ∧
       (s.rd (Time.PTP_PORT_STATE p) = 6 →
         ∃ t a b, exec (.ptpIntervalSend p 1) s = .next t ∧ t.ptp.syncSeq = (s.ptp.syncSeq + 1) % 65536 ∧
           t.out = .packet p "PTP Follow_Up" mark a :: .packet p "PTP Sync" mark b :: s.out ∧ OnlyChanges [.ptp, .out, .free] txIds s t) ∧
       (s.rd (Time.PTP_PORT_STATE p) = 8 ∨ s.rd (Time.PTP_PORT_STATE p) = 9 →
         ∃ t a, exec (.ptpIntervalSend p 2) s = .next t ∧ t.ptp.req = some (s.ptp.reqSeq, s.deviceTime) ∧
           t.out = .packet p "PTP Delay_Req" mark a :: s.out ∧ OnlyChanges [.ptp, .out, .free] txIds s t)) ∧
     ∀ m x, s.ptp.master = some m → s.ptp.foreign = [x] → x.port = m.1 → x.source = m.2 →
       let st (p : Nat) := if s.rd Time.PTP_ROLE = 0 then 3 else if s.rd Time.PTP_ROLE = 2 then (if p = chosen then 6 else 7) else 4
       ∃ t, exec .ptpAnnounceTimeout s = .next t ∧
         t.clock = max s.clock (x.heardAt + s.rd Time.PTP_ANNOUNCE_TIMEOUT * s.ptpInterval 2) ∧ t.ptp.master = none ∧ t.ptp.foreign = [] ∧
         t.rd (Time.PTP_PORT_STATE 0) = st 0 ∧ t.rd (Time.PTP_PORT_STATE 1) = st 1 ∧
         (s.rd Time.TIME_SOURCE = 1 → t.rd Time.TIME_STATE = 3) ∧
         (s.tick.src ≠ 1 → OnlyChanges [.clock, .ptp] [Time.PTP_PORT_STATE 0, Time.PTP_PORT_STATE 1, Time.TIME_STATE] s t) ∧
         (s.tick.src = 1 → s.rd Tick.TICK_STATE = TickState.LOCKED → t.rd Tick.TICK_STATE = TickState.HOLDOVER)) ∧
  (∀ (k : Fin 2) (l raw : Nat) (s : State), (s.sync k).lastAt = some l → (s.sync k).pm ≠ 0 →
     let pm := (s.sync k).pm
     (s.netRuns = true → (s.sync k).rawAt = some raw →
       let rising := s.rd (Time.FSYNC_EDGE k) == 0
       (offBy5 (s.clock - l) pm pm = false → s.clock - l < 2 ^ 32 →
         ∃ t, exec (.fsyncEdge k rising) s = .next t ∧ t.rd (Time.FSYNC_LAST_EDGE k) = s.deviceTime ∧
           t.rd (Time.FSYNC_PERIOD k) = s.clock - l ∧ (t.sync k).lastAt = some s.clock ∧ (t.sync k).stopped = false ∧
           (s.tick.src ≠ 2 + k.val → t.firings = s.firings ++ [(7 + k.val, s.clock)] ∧
             OnlyChanges [.sync k, .firings] [Time.FSYNC_LAST_EDGE k, Time.FSYNC_PERIOD k] s t) ∧
           (s.tick.src = 2 + k.val → s.rd Tick.TICK_STATE = TickState.HOLDOVER →
             t.rd Tick.TICK_STATE = (if s.fsyncInPull k (s.clock - l) then TickState.ACQUIRING else TickState.HOLDOVER))) ∧
       (offBy5 (s.clock - l) pm pm = true → (s.sync k).stopped = false → (s.sync k).odd.length < 7 →
         ∃ t, exec (.fsyncEdge k rising) s = .next t ∧ t.rd (Time.FSYNC_LAST_EDGE k) = s.deviceTime ∧
           t.rd (Time.FSYNC_GLITCHES k) = countUp (s.rd (Time.FSYNC_GLITCHES k)) 1 ∧ (t.sync k).lastAt = some l ∧ (t.sync k).pm = pm ∧
           t.firings = s.firings ++ [(7 + k.val, s.clock)] ∧
           OnlyChanges [.sync k, .firings] [Time.FSYNC_LAST_EDGE k, Time.FSYNC_GLITCHES k] s t) ∧
       ∃ t, exec (.fsyncEdge k (!rising)) s = .next t ∧ (t.sync k).lastAt = some l ∧ (t.sync k).pm = pm ∧
         (if rising then (t.sync k).fall else (t.sync k).rise) = s.deviceTime ∧ OnlyChanges [.sync k] [] s t) ∧
     ((s.sync k).stopped = false →
       ∃ t, exec (.fsyncStop k) s = .next t ∧ t.clock = max s.clock (l + pm * 3 / 2) ∧ (t.sync k).stopped = true ∧
         t.rd (Time.FSYNC_STOPS k) = countUp (s.rd (Time.FSYNC_STOPS k)) 1 ∧
         (s.tick.src ≠ 2 + k.val → OnlyChanges [.clock, .sync k] [Time.FSYNC_STOPS k] s t) ∧
         (s.tick.src = 2 + k.val → s.rd Tick.TICK_STATE = TickState.LOCKED → t.rd Tick.TICK_STATE = TickState.HOLDOVER)))

/-- R330, R335, Table 12-8: block lock takes a ring port to MEASURE; 16 delay measurements and a STATUS take it UP. A STATUS gives the neighbour's hops:
a follower whose only port UP it comes from takes it as its parent, one hop further from the root. A port that loses its link is in DOWN again, and
where it was UP the loss is counted.

R331, R332: every millisecond each enabled port sends STATUS, and one whose link is measured a DELAY_REQ; a DELAY_REQ is answered with its
turnaround; the answer gives one hop delay, and HOP_DELAY is the mean of the last 16.

R332, R333: on the parent port the parent's edge is the arrival less OFFSET less the hop delay, and TICK_ALIGN_ERROR is the error of the device's
own edge, in ps, taken into half a period on either side; a tick that has passed 65,535 devices counts in HOP_EXHAUSTED.

R334: a channel that waits to be sent leaves on every port UP with the next EVENT_SEQ of the channel. An EVENT that comes back is counted and
dropped, a duplicate too; a new one fires its channel under EVENT_RX_MASK and goes on to the other ports with one hop more. -/
def Obligations.TheRingAlignsItsDevices : Prop :=
  (∀ (p : Fin 4) (block : BitVec 64) (child : Bool) (n : Nat) (s : State),
     (s.netRuns = true → s.rd (Ring.RING_PORT_STATE p) = 1 →
       ∃ t, exec (.ringBlockLock p) s = .next t ∧ t.rd (Ring.RING_PORT_STATE p) = 2 ∧ (t.ringPort p).delays = [] ∧
         (t.ringPort p).status = false ∧ OnlyChanges (.ringPort p :: sending) (Ring.RING_PORT_STATE p :: sendIds) s t) ∧
     (s.rd (Ring.RING_PORT_STATE p) = 3 → s.follower = true → (∀ q : Fin 4, q ≠ p → s.rd (Ring.RING_PORT_STATE q) ≠ 3) →
       bits block.toNat 47 32 ≠ 0xFFFF →
       ∃ t, exec (.ringStatusRx p block child) s = .next t ∧ (t.ringPort p).child = child ∧ t.rd (Ring.NEIGHBOUR_STATUS p) = block.toNat / 256 ∧ t.ring.parent = some p.val ∧
         t.rd Ring.RING_HOPS = bits block.toNat 47 32 + 1 ∧ t.rd (Ring.RING_PORT_ROLE p) = 1 ∧ (t.ringPort p).status = true) ∧
     (s.rd (Ring.RING_PORT_STATE p) = 2 ∨ s.rd (Ring.RING_PORT_STATE p) = 3 →
       ∃ t, exec (.ringLinkLoss p n) s = .next t ∧ t.rd (Ring.RING_PORT_STATE p) = 1 ∧ (t.ringPort p).delays = [] ∧
         t.rd (Ring.RING_HEADER_ERR p) = countUp (s.rd (Ring.RING_HEADER_ERR p)) n ∧
         t.rd (Ring.RING_LINK_LOSS p) =
           (if s.rd (Ring.RING_PORT_STATE p) = 3 then countUp (s.rd (Ring.RING_LINK_LOSS p)) 1 else s.rd (Ring.RING_LINK_LOSS p)) ∧
         (s.rd (Ring.RING_PORT_STATE p) = 3 → s.ring.parent = some p.val → t.rd Ring.RING_BREAKS = countUp (s.rd Ring.RING_BREAKS) 1))) ∧
  (∀ (p : Fin 4) (block : BitVec 64) (n : Nat) (s : State),
     (s.netRuns = true →
       ∃ t, exec .ringPeriodicSend s = .next t ∧ t.clock = max s.clock (s.ring.sentAt + 1000000) ∧ t.ring.sentAt = t.clock ∧
         (s.rd (Ring.RING_PORT_STATE p) ≠ 0 → .ringBlock p RingType.STATUS (s.statusFields * 256 + RingType.STATUS) ∈ t.out) ∧
         (2 ≤ s.rd (Ring.RING_PORT_STATE p) →
           .ringBlock p RingType.DELAY_REQ ((s.ringPort p).nextReq * 256 + RingType.DELAY_REQ) ∈ t.out ∧ (t.ringPort p).req = some (s.ringPort p).nextReq ∧
           (t.ringPort p).nextReq = ((s.ringPort p).nextReq + 1) % 256) ∧
         OnlyChanges [.clock, .ring, .out, .ringPort 0, .ringPort 1, .ringPort 2, .ringPort 3] [] s t) ∧
     (2 ≤ s.rd (Ring.RING_PORT_STATE p) →
       (∃ t, exec (.ringDelayReqRx p block n) s = .next t ∧
         t.out = .ringBlock p RingType.DELAY_RESP ((bits block.toNat 15 8 * 2 ^ 48 + n % 2 ^ 48) * 256 + RingType.DELAY_RESP) :: s.out ∧
         OnlyChanges [.out] [] s t) ∧
       ((s.ringPort p).req = some (bits block.toNat 63 56) →
         let ds := (hopDelayPs n (bits block.toNat 55 8) :: (s.ringPort p).delays).take 16
         ∃ t, exec (.ringDelayRespRx p block n) s = .next t ∧ t.rd (Ring.HOP_DELAY p) = (ds.sum / ds.length) % 2 ^ 32 ∧
           (t.ringPort p).delays = ds ∧ (t.ringPort p).req = none ∧
           (s.rd (Ring.RING_PORT_STATE p) = 3 → OnlyChanges [.ringPort p] [Ring.HOP_DELAY p] s t) ∧
           (s.rd (Ring.RING_PORT_STATE p) = 2 → ds.length = 16 → (s.ringPort p).status = true → t.rd (Ring.RING_PORT_STATE p) = 3)))) ∧
  (∀ (p : Fin 4) (tick lo hi : BitVec 64) (ps : Fin 1000) (s : State), s.rd (Ring.RING_PORT_STATE p) = 3 → s.follower = true →
     (∀ q : Fin 4, q ≠ p → s.rd (Ring.RING_PORT_STATE q) ≠ 3) → s.neighbourHops p ≠ 0xFFFF → (s.ringPort p).status = true →
     let edge : Int := ((s.clock * 1000 + ps.val : Nat) : Int) - ((bits tick.toNat 63 56 * 1000 / 32 : Nat) : Int) -
       ((s.rd (Ring.HOP_DELAY p) : Nat) : Int)
     ∃ t, exec (.ringTickRx p tick lo hi ps) s = .next t ∧ t.ring.parent = some p.val ∧ t.ring.edge = some edge ∧
       t.rd Ring.TICK_ALIGN_ERROR =
         ofSigned 32 (clamp (-2147483647) 2147483647 (s.wrapPeriod (((s.tick.edgeAt * 1000 : Nat) : Int) - edge))) ∧
       (t.ringPort p).root = some (bits hi.toNat 63 48) ∧
       (bits tick.toNat 55 40 = 0xFFFF → t.rd Ring.HOP_EXHAUSTED = countUp (s.rd Ring.HOP_EXHAUSTED) 1)) ∧
  (∀ (s : State),
     (∀ c : Fin 64, s.netRuns = true → c.val ∈ s.fab.ringTx →
       let q := tget s.ring.eventSeq c.val 0
       ∃ t, exec (.ringEventSend c) s = .next t ∧ t.rd Ring.EVENTS_TX = countUp (s.rd Ring.EVENTS_TX) 1 ∧
         tget t.ring.eventSeq c.val 0 = (q + 1) % 65536 ∧ c.val ∉ t.fab.ringTx ∧
         t.out = (s.ringUp.map fun p =>
           Output.ringBlock p RingType.EVENT (eventFields (s.rd Ring.RING_ID) 0 q c.val * 256 + RingType.EVENT)).reverse ++ s.out ∧
         OnlyChanges [.fab, .ring, .out] [Ring.EVENTS_TX] s t) ∧
     ∀ (p : Fin 4) (block : BitVec 64), s.rd (Ring.RING_PORT_STATE p) = 3 →
       let b := block.toNat
       let origin := bits b 63 48
       let seen := (s.ring.origins.find? fun o => o.1 == origin).map Prod.snd
       (origin = s.rd Ring.RING_ID →
         ∃ t, exec (.ringEventRx p block) s = .next t ∧ t.rd Ring.RING_RETURN = countUp (s.rd Ring.RING_RETURN) 1 ∧
           OnlyChanges [] [Ring.RING_RETURN] s t) ∧
       (origin ≠ s.rd Ring.RING_ID →
         (∀ x q, seen = some x → tfind x (bits b 13 8) = some q → later 16 (bits b 31 16) q = false →
           ∃ t, exec (.ringEventRx p block) s = .next t ∧ t.rd Ring.RING_DUP = countUp (s.rd Ring.RING_DUP) 1 ∧
             OnlyChanges [.ring] [Ring.RING_DUP] s t) ∧
         (seen = none → bits b 47 32 ≠ 0xFFFF →
           ∃ t, exec (.ringEventRx p block) s = .next t ∧
             t.firings = s.firings ++ (if bit (s.rd Ring.EVENT_RX_MASK) (bits b 13 8) then [(128 + bits b 13 8, s.clock)] else []) ∧
             t.out = ((s.ringUp.filter fun q => q != p.val).map fun q => Output.ringBlock q RingType.EVENT
               (eventFields origin (bits b 47 32 + 1) (bits b 31 16) (bits b 13 8) * 256 + RingType.EVENT)).reverse ++ s.out ∧
             OnlyChanges [.ring, .firings, .out] [Ring.EVENTS_RX] s t)))

/-- R316 to R319: at its alignment point a sender whose source is lost sends nothing more, and the loss counts once; a video sender whose source is live
takes the latest completed buffer, an ancillary sender the ticket of it. The next video packet leaves at its time, marked with the VLAN and DSCP of
the stream, and counts; the sequence number goes on.

R320: an enabled audio receiver takes the second copy of a packet with its path, discards a packet whose time has passed (RX_LATE), and places any
other by its timestamp. -/
def Obligations.StreamsAreSentAndReceived : Prop :=
  (∀ (n : Fin 80) (s : State),
     let src := s.streamRend n
     let unheld (k : Nat) : Prop := ∀ e ∈ s.ctxs, ∀ r ∈ e.2.rends, ∀ x ∈ r.2.held, x.1 ≠ k
     (∀ due, (s.stream n).alignAt = some due → s.rd (St.STREAM_ENABLE n) ≠ 0 → (s.sendersRun && s.rendLive src.1 src.2) = false →
       (s.stream n).video = [] → unheld (16 + n) →
       ∃ t, exec (.senderAlignmentPoint n) s = .next t ∧ t.clock = max s.clock due ∧ (t.stream n).alignAt = none ∧
         (t.stream n).video = [] ∧ (t.stream n).ready = [] ∧ (t.stream n).lost = true ∧
         t.rd (St.SOURCE_LOST n) = (if (s.stream n).lost then s.rd (St.SOURCE_LOST n) else countUp (s.rd (St.SOURCE_LOST n)) 1) ∧
         OnlyChanges (.clock :: .stream n :: .buffers :: .mem :: sending) (St.SOURCE_LOST n :: sendIds) s t) ∧
     (∀ due b, (s.stream n).alignAt = some due → s.rd (St.STREAM_ENABLE n) ≠ 0 → (s.sendersRun && s.rendLive src.1 src.2) = true →
       (s.rend src.1 src.2).latest = some b →
       (n.val < 0x20 → unheld (s.nextHold n) →
         ∃ t x, exec (.senderAlignmentPoint n) s = .next t ∧ t.clock = max s.clock due ∧ (t.stream n).video = (s.stream n).video ++ [x] ∧
           x.buf = b ∧ x.sent = 0 ∧ x.stamp = rtpStamp 90000 (deviceTimeAt s.time due) ∧
           t.rd (St.FRAMES_SENT n) = countUp (s.rd (St.FRAMES_SENT n)) 1 ∧ (t.stream n).lost = false ∧
           OnlyChanges [.clock, .stream n, .ctx src.1] [St.FRAMES_SENT n, St.FRAMES_REPEATED_SENT n] s t) ∧
       (0x30 ≤ n.val → s.rd (St.ANC_TICKET n) = 1 → unheld (16 + n) →
         ∃ t at', exec (.senderAlignmentPoint n) s = .next t ∧ t.clock = max s.clock due ∧
           (t.stream n).ready = (s.stream n).ready ++ [(at', rtpStamp 90000 (deviceTimeAt s.time due), (s.rend src.1 src.2).record)] ∧
           t.rd (St.FRAMES_SENT n) = countUp (s.rd (St.FRAMES_SENT n)) 1 ∧
           OnlyChanges [.clock, .stream n, .ctx src.1] [St.FRAMES_SENT n, St.FRAMES_REPEATED_SENT n] s t)) ∧
     ∀ x rest, (s.stream n).video = x :: rest → x.sent + 1 < x.total → s.rd (St.STREAM_PORTS n) = 1 → s.ethUp 0 = true →
       s.pow.global ≠ .faultHold →
       ∃ t pkt, exec (.st2110PacketSend n) s = .next t ∧ t.clock = max s.clock x.nextAt ∧
         t.out = .packet 0 "ST 2110-20" { vlan := s.rd (St.STREAM_VLAN n), dscp := s.rd (St.STREAM_DSCP n) } pkt :: s.out ∧
         (t.stream n).video = { x with sent := x.sent + 1, nextAt := x.nextAt + x.gap } :: rest ∧
         (t.stream n).seq = ((s.stream n).seq + 1) % 2 ^ 32 ∧ t.rd (St.PACKETS_SENT n) = countUp (s.rd (St.PACKETS_SENT n)) 1 ∧
         OnlyChanges [.clock, .stream n, .out, .free] (St.PACKETS_SENT n :: St.STREAM_BYTES n :: txIds) s t) ∧
  (∀ (n : Fin 16) (path : Fin 2) (seq : BitVec 16) (stamp : BitVec 32) (pl : List Byte) (s : State),
     let k := 0x50 + n.val
     s.rd (St.STREAM_ENABLE k) ≠ 0 → bit (s.rd (St.STREAM_PORTS k)) path.val = true → s.ethUp path = true → s.sendersRun = true →
     (∀ e ∈ (s.stream k).rx, laterEq 32 (s.rxStamp k s.clock) e.2.1 = false) →
     ∃ t, exec (.st2110AudioRxPacket n path (s.rd (St.STREAM_VLAN k)) seq stamp pl) s = .next t ∧ t.rd (St.RX_PACKETS k) = countUp (s.rd (St.RX_PACKETS k)) 1 ∧
       t.rd (St.STREAM_BYTES k) = bytesUp (s.rd (St.STREAM_BYTES k)) (12 + pl.length) ∧
       (∀ at' m fs, tfind (s.stream k).rx seq.toNat = some (at', m, fs) →
         tfind (t.stream k).rx seq.toNat = some (at', setFlag m path.val, fs)) ∧
       (tfind (s.stream k).rx seq.toNat = none → (s.stream k).rxPlayed.contains seq.toNat = false →
         let frames := s.rxUnpack k pl
         let late := later 32 (s.rxStamp k s.clock) ((stamp.toNat + frames.length + 2 ^ 32 - 1) % 2 ^ 32)
         (late = true → (t.stream k).rx = (s.stream k).rx ∧ t.rd (St.RX_LATE k) = countUp (s.rd (St.RX_LATE k)) 1) ∧
         (late = false → tfind (t.stream k).rx seq.toNat = some (stamp.toNat, 2 ^ path.val, frames))) ∧
       OnlyChanges [.stream k, .free] [Eth.RX_FRAMES path, Eth.RX_BYTES path, St.RX_PACKETS k, St.STREAM_BYTES k, St.RX_LATE k] s t)

/-! ## The recorder (spec/13) -/

/-- R345, R347: a superblock written out and read back is the same, wherever its fields fit; so is a journal block, whose CRC covers it (R353). -/
def Obligations.MediaBlocksReadBack : Prop :=
  (∀ x : Superblock, x.layout < 2 ^ 8 → x.count < 2 ^ 8 → x.index < 2 ^ 8 → x.failed < 2 ^ 8 → x.generation < 2 ^ 32 → x.setId < 2 ^ 64 →
    x.ids.length = 4 → (∀ k ∈ x.ids, k < 2 ^ 64) → x.memberBlocks < 2 ^ 64 → x.journal < 2 ^ 32 → x.dirEntries < 2 ^ 32 →
    x.extents < 2 ^ 32 → x.userMiB < 2 ^ 32 → x.extBase < 2 ^ 64 → x.formatTime < 2 ^ 64 →
    x.bytes.length = blockSize ∧ parseSuperblock x.bytes = some x) ∧
  ∀ (setId seq count index : Nat) (es : List JEntry), setId < 2 ^ 64 → seq < 2 ^ 64 → count < 2 ^ 8 → index < 2 ^ 8 → es.length ≤ 126 →
    (∀ e ∈ es, e.type < 2 ^ 8 ∧ e.sub < 2 ^ 8 ∧ e.clip < 2 ^ 32 ∧ e.a < 2 ^ 64 ∧ e.b < 2 ^ 64 ∧ e.c < 2 ^ 64) →
    (journalBlock setId seq count index es).length = blockSize ∧
      parseJournal setId (journalBlock setId seq count index es) = some (seq, count, index, es)

/-- R345: no two set blocks of a layout share a place on the members, and the two copies of a mirrored block lie on different members.

R348: the writes of a format leave a set of GENERATION 1 with an empty directory and extent map, its members in service, and MEDIA_STATE READY.
R356: a mount that finds no superblock leaves no set; one that finds a set is READY or DEGRADED where every block has a copy in service, else
INCOMPLETE.

R364: a finished rebuild puts the new member in service: every member gets the next GENERATION with the failed bit cleared, and the set is READY
where no member is missing.

R363: a member that answers no more, or fails, is FAILED and counted; where every block still has a copy in service the set is DEGRADED, else it is
INCOMPLETE. R344: what stands on a root port is reported; an SSD that leaves is ABSENT. -/
def Obligations.MediaSetsServeAndRebuild : Prop :=
  (∀ (layout count a b : Nat), layout < 3 → 1 ≤ count → count ≤ 4 →
     ((∃ p, p ∈ setCopies layout count a ∧ p ∈ setCopies layout count b) → a = b) ∧
     (∀ p ∈ setCopies layout count a, 256 ≤ p.2 ∧ p.1 < (if layout = 0 then count else if layout = 1 then 2 else 4)) ∧
     (layout ≠ 0 → ∃ p q, setCopies layout count a = [p, q] ∧ p.1 ≠ q.1)) ∧
  (∀ (s : State),
     (∀ layout ports journal dir user, s.media.formatting = some (layout, ports, journal, dir, user) → s.tgt.cmds = [] →
       ∃ t sb, exec .mediaFormatDone s = .next t ∧ t.media.formatting = none ∧ t.media.sb = some sb ∧ sb.layout = layout ∧
         sb.count = ports.length ∧ sb.generation = 1 ∧ sb.journal = journal ∧ sb.dirEntries = dir ∧ t.media.dir = [] ∧ t.media.exts = [] ∧
         t.media.inService = List.range ports.length ∧ t.media.seq = 1 ∧ t.rd Rec.MEDIA_STATE = 3 ∧
         t.rd Rec.FREE_EXTENTS = t.rd Rec.TOTAL_EXTENTS ∧ ∀ p ∈ ports, p < 4 → t.rd (Rec.MEMBER_STATE p) = 3) ∧
     (s.recorderRuns = true → s.media.clips = [] → s.media.rebuilding = none → s.media.formatting = none →
       (s.superblocks = [] →
         ∃ t, exec .mediaMount s = .next t ∧ t.media.sb = none ∧ t.media.inService = [] ∧ t.rd Rec.SET_ID = 0 ∧ t.rd Rec.FREE_EXTENTS = 0 ∧
           t.rd Rec.MEDIA_STATE = (if s.usablePorts = [] then 0 else 1)) ∧
       (s.superblocks ≠ [] →
         ∃ t sb, exec .mediaMount s = .next t ∧ t.media.sb = some sb ∧ t.rd Rec.MEDIA_STATE =
           (if setCovered sb.layout sb.count t.media.inService then (if t.media.inService.length = sb.count then 3 else 4) else 2)))) ∧
  (∀ (k p : Nat) (sb : Superblock) (s : State), s.media.rebuilding = some (k, p) → s.media.sb = some sb → p < 4 → k < sb.count →
     ∃ t sb', exec .mediaRebuildDone s = .next t ∧ t.media.rebuilding = none ∧ t.media.sb = some sb' ∧
       sb'.generation = (sb.generation + 1) % 2 ^ 32 ∧ sb'.failed = clearFlag sb.failed k ∧ k ∈ t.media.inService ∧
       t.media.portOf k = some p ∧ t.rd Rec.SET_GENERATION = (sb.generation + 1) % 2 ^ 32 ∧ t.rd Rec.REBUILD_PROGRESS = 1000 ∧
       t.rd (Rec.MEMBER_STATE p) = 3 ∧ t.rd Rec.MEDIA_STATE = (if t.media.inService.length = sb.count then 3 else 4)) ∧
  (∀ (p : Fin 4) (s : State),
     (s.recorderRuns = true → (tfind s.media.ssds p).isSome = true →
       (∃ t, exec (.memberTimeout p) s = .next t ∧ t.rd (Rec.MEMBER_STATE p) = 6 ∧
         t.rd (Rec.NVME_TIMEOUTS p) = countUp (s.rd (Rec.NVME_TIMEOUTS p)) 1 ∧
         t.rd (Rec.MEMBER_FAILURES p) = countUp (s.rd (Rec.MEMBER_FAILURES p)) 1) ∧
       ∀ cause : Fin 3, ∃ t, exec (.memberFail p cause) s = .next t ∧ t.rd (Rec.MEMBER_STATE p) = 6 ∧
         t.rd (Rec.MEMBER_FAILURES p) = countUp (s.rd (Rec.MEMBER_FAILURES p)) 1 ∧
         t.rd (Rec.NVME_ERRORS p) = (if cause.val = 2 then countUp (s.rd (Rec.NVME_ERRORS p)) 2 else s.rd (Rec.NVME_ERRORS p)) ∧
         ∀ sb k, s.media.sb = some sb → (s.media.ports.findIdx? fun q => q == some p.val) = some k → k ∈ s.media.inService →
           s.media.rebuilding = none →
           t.media.inService = s.media.inService.filter (fun i => i != k) ∧
             t.rd Rec.MEDIA_STATE = (if setCovered sb.layout sb.count t.media.inService then 4 else 2)) ∧
     (∀ x : SsdInfo, ∃ t, exec (.ssdPresenceChange p (some x)) s = .next t ∧
       t.rd (Rec.MEMBER_LINK p) = (min x.gen (s.rd Rec.PCIE_SPEED_MAX) * 256 + min x.width (16 / rootPorts (s.rd Rec.PCIE_BIFURCATION))) % 2 ^ 32 ∧ t.rd (Rec.MEMBER_CAPACITY p) = x.capacity % 2 ^ 64 ∧
       t.rd (Rec.MEMBER_ID p) = x.id % 2 ^ 64 ∧
       (p.val < rootPorts (s.rd Rec.PCIE_BIFURCATION) → t.rd (Rec.MEMBER_STATE p) = (if x.supported && x.id != 0 then 2 else 1)) ∧
       OnlyChanges (.media :: sending)
         (Rec.MEMBER_LINK p :: Rec.MEMBER_CAPACITY p :: Rec.MEMBER_ID p :: Rec.MEMBER_STATE p :: sendIds) s t) ∧
     ∃ t, exec (.ssdPresenceChange p none) s = .next t ∧ tfind t.media.ssds p = none ∧ t.rd (Rec.MEMBER_STATE p) = 0 ∧
       t.rd (Rec.MEMBER_ID p) = 0 ∧ t.rd (Rec.MEMBER_CAPACITY p) = 0)

/-- R352, R358: CLIP_START without cell 57 gets NOT_OWNER; one that its own checks refuse gets their status; one that admission accepts opens a clip in
the lowest free slot under the next clip ID, with its directory entry OPEN, and the plan changes at the next edge.

R360: CLIP_STOP with the cell sets the stop of its clip at a tick still to come, whose reply follows with the close; a clip that is stopping already
gets CONFLICT with its values, an unknown clip BAD_PARAM, a stop in the past TICKET_PAST.

R361, R362: the oldest frame that a clip has not taken gets its place at the end of the clip's byte stream; where the clip needs another extent and
only the reserves are left, the clip stops at that frame instead. A chunk that is written marks its frame.

R354, R360: at a commit point a commit begins, its point the Device Time of the tick edge, or counts as late behind one that runs. A finished commit
counts, gives LAST_COMMIT_SEQ and LAST_COMMIT_TIME, and each clip in it holds its committed bytes and records; a clip that it closes leaves its
slot. -/
def Obligations.ClipsRecordAndCommit : Prop :=
  (∀ (r : Req) (b : List Byte) (s : State), s.takes r 0x60 →
     let u := s.heard r
     (s.owns r.sess 57 = false →
       ∃ t, exec (.clipStart r b) s = .next t ∧ t.replied r 0x60 Status.NOT_OWNER [] ∧ OnlyChanges [.out, .free, .sessions] txIds s t) ∧
     (s.owns r.sess 57 = true → u.clipStartBad b ≠ Status.OK →
       ∃ t, exec (.clipStart r b) s = .next t ∧ t.replied r 0x60 (u.clipStartBad b) [] ∧ OnlyChanges [.out, .free, .sessions] txIds s t) ∧
     ∀ records cc i, s.owns r.sess 57 = true → u.clipStartBad b = Status.OK → admission u.committed (u.committed.withClip b) = (Status.OK, records) →
       s.freeClipSlot = some cc → s.freeDir = some i → s.media.clips.length < 4 →
       let id := if (s.media.lastClip + 1) % 2 ^ 32 = 0 then 1 else (s.media.lastClip + 1) % 2 ^ 32
       ∃ t c pl, exec (.clipStart r b) s = .next t ∧ t.clip cc = some c ∧ c.id = id ∧ c.dir = i ∧
         c.firstTick = (if leAt b 0 1 % 2 = 1 then leAt b 12 4 else (s.tickSeq + 1) % 2 ^ 32) ∧
         (tget t.media.dir i {}).state = 1 ∧ (tget t.media.dir i {}).clip = id ∧ t.media.lastClip = id ∧
         t.rd (Rec.CLIP_SLOT_ID cc) = id ∧ t.rd (Rec.CLIP_SLOT_STATE cc) = 1 ∧ t.rd Rec.OPEN_CLIPS = s.media.clips.length + 1 ∧
         t.tick.admitted.length = s.tick.admitted.length + 1 ∧
         ∃ mark, .nmp r.port r.peer mark true ⟨r.sess, r.seq, 0x60, Status.OK, pl⟩ ∈ t.out) ∧
  (∀ (r : Req) (b : List Byte) (s : State), s.takes r 0x61 → s.owns r.sess 57 = true →
     let hit := s.media.clips.find? fun e => e.2.id == leAt b 8 4
     let stop := if leAt b 0 1 % 2 = 1 then leAt b 4 4 else (s.tickSeq + 1) % 2 ^ 32
     (hit = none →
       ∃ t, exec (.clipStop r b) s = .next t ∧ t.replied r 0x61 Status.BAD_PARAM [] ∧ OnlyChanges [.out, .free, .sessions] txIds s t) ∧
     ∀ cc c, hit = some (cc, c) → s.clip cc = some c → cc < 4 → b.length = 12 →
       (c.stopTick.isSome = true →
         ∃ t, exec (.clipStop r b) s = .next t ∧ t.replied r 0x61 Status.CONFLICT c.stopPayload ∧
           OnlyChanges [.out, .free, .sessions] txIds s t) ∧
       (c.stopTick = none → later 32 stop s.tickSeq = false →
         ∃ t, exec (.clipStop r b) s = .next t ∧ t.replied r 0x61 Status.TICKET_PAST [] ∧
           OnlyChanges [.out, .free, .sessions] txIds s t) ∧
       (c.stopTick = none → later 32 stop s.tickSeq = true →
         ∃ t, exec (.clipStop r b) s = .next t ∧ t.clip cc = some { c with stopTick := some stop, cause := 0, stopReq := some r } ∧
           t.rd (Rec.CLIP_SLOT_STATE cc) = 2 ∧ OnlyChanges [.sessions, .media] [Rec.CLIP_SLOT_STATE cc] s t)) ∧
  (∀ (p : Fin 16) (cc : Nat) (c : Clip) (x : ClipStream) (s : State), s.recorderRuns = true → s.clipOfPort p = some (cc, c, x) →
     s.clip cc = some c → cc < 4 →
     (∀ f rest, s.untaken p c x = f :: rest →
       let n := chunkSize f.media.length
       (c.extentsFor n = 0 →
         ∃ t c', exec (.videoChunkStart p) s = .next t ∧ t.clip cc = some c' ∧ c'.off = c.off + n ∧
           c'.frames = c.frames ++ [{ stream := x.stream, port := p.val, number := f.number, frame := f, offset := c.off }] ∧
           OnlyChanges (.media :: sending) (Rec.RECORD_SECONDS_LEFT :: sendIds) s t) ∧
       (0 < c.extentsFor n → s.media.freeExtents ≤ (s.media.clips.map fun e => e.2.reserve).sum → c.stopTick = none →
         ∃ t c', exec (.videoChunkStart p) s = .next t ∧ t.clip cc = some c' ∧ c'.stopTick = some f.tickSeq ∧ c'.cause = 1 ∧
           c'.frames = c.frames ∧ t.rd (Rec.CLIP_SLOT_STATE cc) = 2 ∧ OnlyChanges [.media] [Rec.CLIP_SLOT_STATE cc] s t)) ∧
     ∀ f, (c.frames.find? fun g => g.port == p.val && g.state == 0) = some f → (∀ k q, s.media.portOf k = some q → q < 4) →
       ∃ t c', exec (.videoChunkWritten p) s = .next t ∧ t.clip cc = some c' ∧
         c'.frames = c.frames.map (fun g => if g.port = f.port ∧ g.number = f.number then { g with state := 1 } else g) ∧
         OnlyChanges [.media] [Rec.BYTES_WRITTEN 0, Rec.BYTES_WRITTEN 1, Rec.BYTES_WRITTEN 2, Rec.BYTES_WRITTEN 3] s t) ∧
  (∀ (s : State), s.recorderRuns = true →
     (s.rd Rec.MEDIA_STATE = 3 ∨ s.rd Rec.MEDIA_STATE = 4 → s.media.clips ≠ [] →
       s.media.lastPoint + s.rd Rec.COMMIT_INTERVAL * 1000000 ≤ s.tick.edgeAt →
       (s.media.run = none →
         ∃ t run, exec .recorderCommitPoint s = .next t ∧ t.media.run = some run ∧ run.point = deviceTimeAt s.time s.tick.edgeAt ∧
           t.media.lastPoint = s.tick.edgeAt) ∧
       (s.media.run.isSome = true →
         ∃ t, exec .recorderCommitPoint s = .next t ∧ t.media.run = s.media.run ∧ t.media.late = true ∧
           t.rd Rec.COMMITS_LATE = countUp (s.rd Rec.COMMITS_LATE) 1 ∧
           OnlyChanges (.media :: sending) (Rec.COMMITS_LATE :: sendIds) s t)) ∧
     ∀ run cc len n closes c, s.media.run = some run → run.clips = [(cc, len, n, closes)] → s.clip cc = some c → cc < 4 →
       s.media.sb.isSome = true → s.media.late = false →
       ∃ t, exec .recorderCommitDone s = .next t ∧ t.media.run = none ∧ t.media.seq = s.media.seq + 1 ∧
         t.rd Rec.COMMITS = countUp (s.rd Rec.COMMITS) 1 ∧ t.rd Rec.LAST_COMMIT_SEQ = s.media.seq % 2 ^ 64 ∧
         t.rd Rec.LAST_COMMIT_TIME = run.point % 2 ^ 64 ∧ t.rd (Rec.CLIP_LENGTH cc) = len % 2 ^ 64 ∧
         t.rd (Rec.CLIP_FRAMES cc) = n % 2 ^ 32 ∧ t.rd Rec.FRAMES_RECORDED = countUp (s.rd Rec.FRAMES_RECORDED) (n - c.records) ∧
         (closes = false → t.clip cc = some { c with length := len, records := n } ∧ t.firings = s.firings ++ [(192, s.clock)]) ∧
         (closes = true → t.clip cc = none ∧ t.rd (Rec.CLIP_SLOT_STATE cc) = 0 ∧ (193, s.clock) ∈ t.firings))

/-! ## The storage target (spec/14) -/

/-- R371 to R373, R393: an admin Connect that an allow-list entry admits opens the lowest free controller; one that none admits is refused with Invalid
Host, one with too large a queue or a KATO out of range with Invalid Parameters, one that finds no free controller with Busy. An I/O Connect opens a
queue of an enabled controller within its grant.

R394, R395: Disconnect completes and ends its queue, on the admin queue the association; a lost queue pair does the same, and the end of KATO ends
the association. An association that has ended has no queue and no command. -/
def Obligations.AssociationsOpenAndEnd : Prop :=
  (∀ (p : Fin 2) (mtu cid : Nat) (s : State), s.ethUp p = true → s.rdmaBad mtu = 0 → s.fetches →
     (∀ disc sqsize kato nqn hid,
       let connect := Instr.nvmfAdminConnect p (s.rd (Eth.VLAN_ID p)) mtu cid disc sqsize kato nqn hid
       let refused (status : Nat) : Prop :=
         ∃ t, exec connect s = .next t ∧ t.answered 0xFFFF 0 cid status 0 [] ∧
           t.rd Tgt.CONNECT_REJECTED = countUp (s.rd Tgt.CONNECT_REJECTED) 1 ∧ OnlyChanges [.out, .free] (Tgt.CONNECT_REJECTED :: txIds) s t
       (31 < sqsize → refused Nvme.CONNECT_PARAM) ∧
       (sqsize ≤ 31 → katoOk kato = false →
         ∃ t, exec connect s = .next t ∧ t.answered 0xFFFF 0 cid Nvme.CONNECT_PARAM 0 [] ∧ OnlyChanges [.out, .free] txIds s t) ∧
       (sqsize ≤ 31 → katoOk kato = true →
         let free := (List.range 16).find? fun k => (s.assoc (k + 1)).isNone
         (s.admitHost p kato disc nqn hid = none → refused Nvme.CONNECT_HOST) ∧
         ∀ a, s.admitHost p kato disc nqn hid = some a →
           (free = none → refused Nvme.BUSY) ∧
           ∀ k, free = some k →
             ∃ t, exec connect s = .next t ∧ t.assoc (k + 1) = some a ∧
               t.rd Tgt.CONNECTS = countUp (s.rd Tgt.CONNECTS) 1 ∧ t.rdBlob (Tgt.ASSOC_HOST k) = a.hostNqn ∧
               (∃ mark, Output.connect p mark true 0 ∈ t.out) ∧ t.completed (k + 1) 0 cid Nvme.OK (k + 1) [] ∧
               OnlyChanges (.tgt :: .qps :: .blob (Tgt.ASSOC_HOST k) :: sending)
                 (Tgt.CONNECTS :: Tgt.ASSOCIATIONS :: Tgt.ASSOC_INFO k :: Eth.QP_COUNT 0 :: Eth.QP_COUNT 1 :: sendIds) s t)) ∧
     ∀ c qid sqsize a, s.assoc c = some a → a.port = p.val → a.discovery = false → 1 ≤ sqsize → sqsize ≤ 1023 → 1 ≤ qid → qid ≤ a.grant →
       tfind s.tgt.queues (qKey c qid) = none → a.cc % 2 = 1 → 1 ≤ c → c ≤ 16 →
       ∃ t, exec (.nvmfIoConnect p (s.rd (Eth.VLAN_ID p)) mtu cid c qid sqsize) s = .next t ∧ t.answered c qid cid Nvme.OK c [] ∧
         tfind t.tgt.queues (qKey c qid) = some (if qid ≤ a.urgent then 0 else a.cls) ∧
         OnlyChanges (.tgt :: .blob (Tgt.ASSOC_HOST (c - 1)) :: answering)
           (Tgt.ASSOCIATIONS :: Tgt.ASSOC_INFO (c - 1) :: Eth.QP_COUNT 0 :: Eth.QP_COUNT 1 :: txIds) s t) ∧
  (∀ (c cid : Nat) (a : Assoc) (s : State), s.assoc c = some a → 1 ≤ c → c ≤ 16 →
     (s.fetches →
       (∃ t, exec (.nvmfDisconnect c 0 cid) s = .next t ∧ t.assoc c = none ∧ t.queuesOf c = [] ∧ (∀ x ∈ t.tgt.cmds, x.cntlid ≠ c) ∧
         t.completed c 0 cid Nvme.OK 0 []) ∧
       ∀ qid, qid ≠ 0 → (tfind s.tgt.queues (qKey c qid)).isSome = true →
         ∃ t, exec (.nvmfDisconnect c qid cid) s = .next t ∧ tfind t.tgt.queues (qKey c qid) = none ∧ t.assoc c = some a ∧
           (∀ x ∈ t.tgt.cmds, x.cntlid = c → x.qid ≠ qid) ∧ t.answered c qid cid Nvme.OK 0 []) ∧
     (∃ t, exec (.nvmfQueuePairLoss c 0) s = .next t ∧ t.assoc c = none ∧ t.queuesOf c = [] ∧
       t.rd Tgt.CONN_LOST = countUp (s.rd Tgt.CONN_LOST) 1) ∧
     (∀ qid, qid ≠ 0 → (tfind s.tgt.queues (qKey c qid)).isSome = true →
       ∃ t, exec (.nvmfQueuePairLoss c qid) s = .next t ∧ tfind t.tgt.queues (qKey c qid) = none ∧ t.assoc c = some a) ∧
     ∃ t, exec (.katoExpiry c) s = .next t ∧ t.assoc c = none ∧ a.aliveAt + a.kato * 1000000 ≤ t.clock ∧
       t.rd Tgt.KATO_EXPIRED = countUp (s.rd Tgt.KATO_EXPIRED) 1)

/-- R54, R398: a command with a queue is held while the DRAM is out of service, and in FAULT_HOLD it completes with Internal Error; without its queue
nothing happens. It holds for reads as for the commands that Negor executes.

R384, R393: CC reads back what was set, CSTS.RDY follows CC.EN, and clearing it deletes the I/O queues; a Keep Alive is answered in every state and
restarts the timer.

R382, R385: Identify answers its four data structures, another CNS with Invalid Field, another namespace with Invalid Namespace; a log page is
answered from its offset, one that is not served with Invalid Log Page; an opcode outside the lists with Invalid Opcode.

R373, R380, R393, R396: Number of Queues grants up to the limit, once; Keep Alive Timer takes a value in its range; arbitration and the write cache
cannot be changed. An Asynchronous Event Request waits for an event, up to eight of them, or takes one that is held.

R386 to R389: firmware takes right bit 3; a first download starts the staging image of its association; a commit of another action or without an
image is refused and counted, and the activation of a slot whose version is allowed makes it the newest. An Abort takes a command that has not
started out of its queue, and leaves one that has. -/
def Obligations.AdminCommandsAreAnswered : Prop :=
  (∀ (c qid cid nsid slba n cns : Nat) (fua : Bool) (s : State), qid ≠ 0 → s.roceFree →
     (s.hasQueue c 0 = true →
       (s.pow.global = .faultHold →
         ∃ t, exec (.nvmeIdentify c cid cns nsid) s = .next t ∧ t.answered c 0 cid Nvme.INTERNAL 0 [] ∧ OnlyChanges (.tgt :: answering) txIds s t) ∧
       (s.pow.global ≠ .faultHold → s.tick.dramChange = true ∨ s.pow.restarting = true →
         ∃ t, exec (.nvmeIdentify c cid cns nsid) s = .next t ∧ t.tgt.held = s.tgt.held ++ [.nvmeIdentify c cid cns nsid] ∧
           OnlyChanges [.tgt] [] s t)) ∧
     (s.hasQueue c qid = true →
       (s.pow.global = .faultHold →
         ∃ t, exec (.nvmeRead c qid cid nsid slba n fua) s = .next t ∧ t.answered c qid cid Nvme.INTERNAL 0 [] ∧
           OnlyChanges (.tgt :: answering) txIds s t) ∧
       (s.pow.global ≠ .faultHold → s.tick.dramChange = true →
         ∃ t, exec (.nvmeRead c qid cid nsid slba n fua) s = .next t ∧ t.tgt.held = s.tgt.held ++ [.nvmeRead c qid cid nsid slba n fua] ∧
           t.tgt.cmds = s.tgt.cmds ∧ OnlyChanges [.tgt] [] s t)) ∧
     (s.hasQueue c qid = false → ∃ t, exec (.nvmeRead c qid cid nsid slba n fua) s = .next t ∧ t = s)) ∧
  (∀ (c cid : Nat) (a : Assoc) (s : State), s.assoc c = some a → s.roceFree →
     (s.pow.global = .faultHold ∨ s.fetches →
       (∃ t, exec (.nvmfPropertyGet c cid 0x14) s = .next t ∧ t.answered c 0 cid Nvme.OK a.cc [] ∧ OnlyChanges answering txIds s t) ∧
       ∃ t, exec (.nvmfPropertyGet c cid 0x1C) s = .next t ∧
         t.answered c 0 cid Nvme.OK (a.cc % 2 + (if s.pow.global = .faultHold then 2 else 0) + 4 * a.shst) [] ∧
         OnlyChanges answering txIds s t) ∧
     (s.fetches → ∀ v, v < 2 ^ 32 →
       ∃ t b, exec (.nvmfPropertySet c cid 0x14 v) s = .next t ∧ t.assoc c = some b ∧ b.cc = v ∧ t.answered c 0 cid Nvme.OK 0 [] ∧
         (a.cc % 2 = 1 → v % 2 = 0 → t.queuesOf c = [])) ∧
     ∃ t, exec (.nvmeKeepAlive c cid) s = .next t ∧ t.assoc c = some { a with aliveAt := s.clock } ∧ t.answered c 0 cid Nvme.OK 0 [] ∧
       OnlyChanges (.tgt :: answering) txIds s t) ∧
  (∀ (c cid : Nat) (a : Assoc) (s : State), s.assoc c = some a → s.fetches →
     (∃ t, exec (.nvmeIdentify c cid 1 0) s = .next t ∧ t.answered c 0 cid Nvme.OK 0 (s.identifyController c s.freeCtr) ∧
       OnlyChanges answering txIds s t) ∧
     (∀ nsid, nsid = 1 ∨ nsid = 2 →
       ∃ t, exec (.nvmeIdentify c cid 0 nsid) s = .next t ∧ t.answered c 0 cid Nvme.OK 0 (s.identifyNamespace nsid s.freeCtr) ∧
         OnlyChanges answering txIds s t) ∧
     (∀ cns nsid, (cns = 0 ∨ cns = 3) → nsid ≠ 1 → nsid ≠ 2 →
       ∃ t, exec (.nvmeIdentify c cid cns nsid) s = .next t ∧ t.answered c 0 cid Nvme.INVALID_NAMESPACE 0 []) ∧
     (∀ cns nsid, 3 < cns → ∃ t, exec (.nvmeIdentify c cid cns nsid) s = .next t ∧ t.answered c 0 cid Nvme.INVALID_FIELD 0 []) ∧
     (∀ lid offset n,
       (∀ page, s.logPage a lid s.freeCtr = some page → 4 * offset ≤ page.length →
         ∃ t, exec (.nvmeGetLogPage c cid lid offset n) s = .next t ∧ t.answered c 0 cid Nvme.OK 0 (slice page (4 * offset) (4 * n)) ∧
           t.assoc c = some (if lid = 4 then { a with changed := false } else a)) ∧
       (s.logPage a lid s.freeCtr = none →
         ∃ t, exec (.nvmeGetLogPage c cid lid offset n) s = .next t ∧ t.answered c 0 cid Nvme.LOG_PAGE 0 [])) ∧
     ∀ op, supportedOpcode 0 op = false →
       ∃ t, exec (.nvmeInvalidOpcode c 0 cid op) s = .next t ∧ t.answered c 0 cid Nvme.INVALID_OPCODE 0 []) ∧
  (∀ (c cid v : Nat) (a : Assoc) (s : State), s.assoc c = some a → s.fetches →
     (let g := min (min (bits v 15 0) (bits v 31 16) + 1) a.limit;
       (a.granted = false →
         ∃ t, exec (.nvmeSetFeatures c cid 0x07 v) s = .next t ∧ t.assoc c = some { a with grant := g, granted := true } ∧
           t.answered c 0 cid Nvme.OK ((g - 1) * 65536 + (g - 1)) [] ∧ OnlyChanges (.tgt :: answering) txIds s t) ∧
       (a.granted = true →
         ∃ t, exec (.nvmeSetFeatures c cid 0x07 v) s = .next t ∧ t.answered c 0 cid Nvme.SEQUENCE 0 [])) ∧
     (∃ t, exec (.nvmeSetFeatures c cid 0x0F v) s = .next t ∧
       (katoOk v = true → t.assoc c = some { a with kato := v } ∧ t.answered c 0 cid Nvme.OK 0 []) ∧
       (katoOk v = false → t.answered c 0 cid Nvme.INVALID_FIELD 0 [])) ∧
     (∃ t, exec (.nvmeSetFeatures c cid 0x0B v) s = .next t ∧ t.assoc c = some { a with events := v } ∧ t.answered c 0 cid Nvme.OK 0 []) ∧
     (∀ fid, fid = 1 ∨ fid = 6 → ∃ t, exec (.nvmeSetFeatures c cid fid v) s = .next t ∧ t.answered c 0 cid Nvme.NOT_CHANGEABLE 0 []) ∧
     (∃ t, exec (.nvmeGetFeatures c cid 0x0F 0) s = .next t ∧ t.answered c 0 cid Nvme.OK a.kato [] ∧ OnlyChanges answering txIds s t) ∧
     (∀ fid, s.feature a fid = none → ∃ t, exec (.nvmeGetFeatures c cid fid 0) s = .next t ∧ t.answered c 0 cid Nvme.INVALID_FIELD 0 []) ∧
     (∀ k, ([0, 1].find? (bit a.held)) = some k →
       ∃ t, exec (.nvmeAsyncEventRequest c cid) s = .next t ∧ t.assoc c = some { a with held := clearFlag a.held k } ∧
         t.answered c 0 cid Nvme.OK (eventDword k) []) ∧
     (bit a.held 0 = false → bit a.held 1 = false →
       (a.aers.length < 8 →
         ∃ t, exec (.nvmeAsyncEventRequest c cid) s = .next t ∧ t.assoc c = some { a with aers := a.aers ++ [cid] } ∧
           OnlyChanges [.tgt] [] s t) ∧
       (8 ≤ a.aers.length →
         ∃ t, exec (.nvmeAsyncEventRequest c cid) s = .next t ∧ t.answered c 0 cid Nvme.AER_LIMIT 0 []))) ∧
  (∀ (c cid : Nat) (a : Assoc) (s : State), s.assoc c = some a → s.fetches →
     (bit a.rights 3 = false → ∀ offset d ca slot,
       (∃ t, exec (.nvmeFirmwareImageDownload c cid offset d) s = .next t ∧ t.answered c 0 cid Nvme.DENIED 0 [] ∧ t.tgt.staging = s.tgt.staging) ∧
       ∃ t, exec (.nvmeFirmwareCommit c cid ca slot) s = .next t ∧ t.answered c 0 cid Nvme.DENIED 0 [] ∧ t.pow = s.pow) ∧
     (bit a.rights 3 = true →
       (∀ d : List Byte, d ≠ [] → d.length % 4096 = 0 → d.length ≤ stagingMax →
         ∃ t tab, exec (.nvmeFirmwareImageDownload c cid 0 d) s = .next t ∧ t.tgt.staging = some (c, tab) ∧
           tfind tab 0 = some (slice d 0 4096) ∧ t.answered c 0 cid Nvme.OK 0 []) ∧
       (∀ ca slot, 3 < ca →
         ∃ t, exec (.nvmeFirmwareCommit c cid ca slot) s = .next t ∧ t.answered c 0 cid Nvme.INVALID_FIELD 0 [] ∧
           t.rd Tgt.FW_REJECTED = countUp (s.rd Tgt.FW_REJECTED) 1) ∧
       ∀ slot, slot = 2 ∨ slot = 3 →
         (s.rd Obs.BOOT_SLOT ≠ slot → s.tgt.staging = none →
           ∃ t, exec (.nvmeFirmwareCommit c cid 0 slot) s = .next t ∧ t.answered c 0 cid Nvme.FW_IMAGE 0 [] ∧ t.pow = s.pow ∧
             t.rd Tgt.FW_REJECTED = countUp (s.rd Tgt.FW_REJECTED) 1) ∧
         (s.rd Obs.SEC_VERSION_FLOOR ≤ imgSecVersion (s.slotHeader slot) → s.rd Obs.SEC_VERSION_FLOOR ≠ 0xFFFFFFFF →
           ∃ t, exec (.nvmeFirmwareCommit c cid 2 slot) s = .next t ∧
             tfind t.pow.headers slot = some (withSlotGen (s.slotHeader slot) ((s.runningGen slot + 1) % 256)) ∧
             t.rd Tgt.FW_COMMITS = countUp (s.rd Tgt.FW_COMMITS) 1 ∧ t.completed c 0 cid Nvme.OK 0 [])) ∧
     ∀ sq target x, s.tgt.held = [] → s.tgt.cmds = [x] → x.is c sq target = true →
       (x.stage = 2 →
         ∃ t, exec (.nvmeAbort c cid sq target) s = .next t ∧ t.answered c 0 cid Nvme.OK 1 [] ∧ t.tgt.cmds = [x] ∧
           t.rd Tgt.ABORT_NOT_ABORTED = countUp (s.rd Tgt.ABORT_NOT_ABORTED) 1) ∧
       (x.stage ≠ 2 →
         ∃ t, exec (.nvmeAbort c cid sq target) s = .next t ∧ t.tgt.cmds = [] ∧
           (∃ p m q n, t.out = .nvme p m c 0 cid Nvme.OK 0 [] :: .nvme q n c sq target Nvme.ABORT_REQUESTED 0 [] :: s.out) ∧
           t.rd Tgt.ABORTED = countUp (s.rd Tgt.ABORTED) 1))

/-- R374, R375, R378, R390: an I/O command that the namespace, its readiness, the rights or the range refuse completes at once with that status; one
that is taken on an idle target is fetched: a Read and a Write start where the pacer of their port passes data now, and wait there where it does
not; Flush and Write Zeroes carry no data and start at once.

R381: the only command that waits at a pacer starts when the pacer passes data again. R376, R378, R379: a started Read completes with the data of
its blocks, a started Write of one block is what the block reads as afterwards, a Flush covers the writes before it; a data error changes nothing on
the media. -/
def Obligations.IoCommandsAreCheckedAndComplete : Prop :=
  (∀ (c qid cid nsid slba n : Nat) (fua : Bool) (d : List Byte) (a : Assoc) (s : State), s.assoc c = some a → qid ≠ 0 →
     s.hasQueue c qid = true → s.fetches → s.tgt.cmds = [] →
     let data := (d ++ zeroBytes (n * blockSize)).take (n * blockSize)
     let rows : List (Instr × NvmeCmd) := [
       (.nvmeRead c qid cid nsid slba n fua, { cntlid := c, qid := qid, cid := cid, op := 2, nsid := nsid, slba := slba, blocks := n, fua := fua }),
       (.nvmeWrite c qid cid nsid slba n fua d,
         { cntlid := c, qid := qid, cid := cid, op := 1, nsid := nsid, slba := slba, blocks := n, fua := fua, data := data }),
       (.nvmeWriteZeroes c qid cid nsid slba n fua,
         { cntlid := c, qid := qid, cid := cid, op := 8, nsid := nsid, slba := slba, blocks := n, fua := fua,
           data := zeroBytes (n * blockSize) }),
       (.nvmeFlush c qid cid nsid, { cntlid := c, qid := qid, cid := cid, op := 0, nsid := nsid, upTo := s.tgt.serial })]
     ∀ e ∈ rows,
       (s.ioBad a e.2 ≠ Nvme.OK →
         ∃ t, exec e.1 s = .next t ∧ t.answered c qid cid (s.ioBad a e.2) 0 [] ∧ t.tgt.cmds = [] ∧ t.media = s.media ∧
           OnlyChanges (.tgt :: answering) (Tgt.NS_NOT_READY :: Tgt.ACCESS_DENIED :: txIds) s t) ∧
       (s.ioBad a e.2 = Nvme.OK →
         let passes := e.2.op = 0 ∨ e.2.op = 8 ∨ (0 < s.paceRate a.port ∧ tget s.tgt.paceAt a.port 0 ≤ s.clock)
         (passes →
           ∃ t m, exec e.1 s = .next t ∧ t.tgt.cmds = [{ e.2 with stage := 2, members := m }] ∧ t.media = s.media ∧
             OnlyChanges [.tgt, .out, .free] (Tgt.URGENT_CMDS :: txIds) s t) ∧
         (¬passes →
           ∃ t, exec e.1 s = .next t ∧ t.tgt.cmds = [{ e.2 with stage := 1 }] ∧
             t.rd Tgt.PACER_WAITS = countUp (s.rd Tgt.PACER_WAITS) 1 ∧ OnlyChanges [.tgt] [Tgt.URGENT_CMDS, Tgt.PACER_WAITS] s t))) ∧
  (∀ (x : NvmeCmd) (a : Assoc) (s : State), s.assoc x.cntlid = some a → a.port < 2 → s.pow.global ≠ .faultHold → s.tick.dramChange = false →
     s.roceFree → s.tgt.cmds = [x] →
     (x.stage = 1 → 0 < s.paceRate a.port → s.queueClass (qKey x.cntlid x.qid) ≤ 3 → ∀ p : Fin 2, a.port = p.val →
       ∃ t m, exec (.pacerRelease p) s = .next t ∧ t.clock = max s.clock (tget s.tgt.paceAt p 0) ∧
         t.tgt.cmds = [{ x with stage := 2, members := m }]) ∧
     (x.stage = 2 →
       let blocks := (s.cmdBlocks x).map Prod.fst
       (x.op = 2 → (∀ b ∈ blocks, s.hasCopy b = true) →
         ∃ t, exec (.nvmeCommandComplete x.cntlid x.qid x.cid false) s = .next t ∧
           t.answered x.cntlid x.qid x.cid Nvme.OK 0 (blocks.flatMap s.setRead) ∧ t.tgt.cmds = [] ∧
           t.rd Tgt.READ_CMDS = countUp (s.rd Tgt.READ_CMDS) 1 ∧
           t.rd (Tgt.READ_BYTES a.port) = bytesUp (s.rd (Tgt.READ_BYTES a.port)) (x.blocks * blockSize) ∧
           OnlyChanges (.tgt :: answering) (Tgt.READ_CMDS :: Tgt.READ_BYTES a.port :: txIds) s t) ∧
       (x.op = 1 → x.blocks = 1 → x.data.length = blockSize → ∀ sb k lba q,
         let b := s.nsBlock x.nsid x.slba
         s.media.sb = some sb → ((setCopies sb.layout sb.count b).find? fun e => s.media.inService.contains e.1) = some (k, lba) →
         s.media.portOf k = some q → (tfind s.media.ssds q).isSome = true →
           ∃ t, exec (.nvmeCommandComplete x.cntlid x.qid x.cid false) s = .next t ∧ t.answered x.cntlid x.qid x.cid Nvme.OK 0 [] ∧
             t.setRead b = x.data ∧ t.tgt.cmds = [] ∧ t.rd Tgt.WRITE_CMDS = countUp (s.rd Tgt.WRITE_CMDS) 1) ∧
       (x.op = 1 ∨ x.op = 2 →
         ∃ t, exec (.nvmeCommandComplete x.cntlid x.qid x.cid true) s = .next t ∧
           t.answered x.cntlid x.qid x.cid Nvme.DATA_TRANSFER 0 [] ∧ t.tgt.cmds = [] ∧ OnlyChanges (.tgt :: answering) txIds s t) ∧
       (x.op = 0 →
         ∃ t, exec (.nvmeCommandComplete x.cntlid x.qid x.cid false) s = .next t ∧ t.answered x.cntlid x.qid x.cid Nvme.OK 0 [] ∧
           t.tgt.volatile = s.tgt.volatile.filter (fun v => x.nsid != 2 || decide (x.upTo ≤ v.1)) ∧
           t.rd Tgt.FLUSH_CMDS = countUp (s.rd Tgt.FLUSH_CMDS) 1 ∧ OnlyChanges (.tgt :: answering) (Tgt.FLUSH_CMDS :: txIds) s t)))

/-! ## Audio (spec/15) -/

/-- R406, Table 15-3: in every marked combination of sample width and packing, a packed sample reads back as the sample, its bytes little-endian. -/
def Obligations.PackedSamplesReadBack : Prop :=
  ∀ fmt v : Nat, packOk fmt = true → v < 2 ^ sampleWidth fmt →
    (packSample (packing fmt) (sampleWidth fmt) v).length = packBytes (packing fmt) ∧
      unpackSample (packing fmt) (sampleWidth fmt) (packSample (packing fmt) (sampleWidth fmt) v) = v

/-- R411: an output drives the level of SLOT_IDLE in every slot outside the mask in force, whatever the frame carries, and 0 in every slot of the mask
where the frame is an underrun, with HOST_FLOW 1 at a position not below APPL_POSITION. -/
def Obligations.UnderrunsAndIdleSlotsDriveTheirLevels : Prop :=
  ∀ (port : Fin 8) (slots : List Nat) (s : State),
    let p := port.val
    let n := s.rd (Aud.HW_POSITION p)
    let tdm := s.rd (Aud.TDM_FORMAT p)
    s.audRunning p = true → s.rd (Aud.DIRECTION p) = 1 → s.rd (Aud.PORT_STATE p) ≠ 3 → (s.aud p).drop = 0 →
    ∃ t f, exec (.audioSampleFrame port slots) s = .next t ∧ t.out.head? = some (.audio p f) ∧ f.length = tdmSlots tdm ∧
      (∀ k, k < tdmSlots tdm → bit (t.rd (Aud.MASK_IN_FORCE p)) k = false → f[k]? = some (idleSlot tdm)) ∧
      (n % s.periodFrames p ≠ 0 →
        s.pow.global ≠ .faultHold → (s.aud p).insert = 0 → bit (s.rd (Aud.AUD_SOURCE p)) 0 = false →
        (s.audRing p).isSome = true → s.rd (Aud.HOST_FLOW p) = 1 → s.rd (Aud.APPL_POSITION p) ≤ n →
        t.rd (Aud.UNDERRUN_FRAMES p) = countUp (s.rd (Aud.UNDERRUN_FRAMES p)) 1 ∧
          ∀ k, k < tdmSlots tdm → bit (t.rd (Aud.MASK_IN_FORCE p)) k = true → f[k]? = some 0)

/-- R407, R408, R410: a frame of an unmuted input port that owes no correction goes to its place in the ring, the slots of the mask in ascending order;
with HOST_FLOW 1 and no room it is an overrun, which stores nothing. The position advances by one frame either way.

R408, R410, R411: a frame of an unmuted output port that owes no correction sends the frame of its position from the ring, each sample left-
justified in its slot, idle slots by SLOT_IDLE; with HOST_FLOW 1 and nothing written it is an underrun of zeros, as is every output while the DRAM
changes its speed. -/
def Obligations.SampleFramesPassTheRing : Prop :=
  (∀ (port : Fin 8) (slots : List Nat) (r : AudRing) (serial : Nat) (s : State),
     let p := port.val
     let n := s.rd (Aud.HW_POSITION p)
     let fmt := s.rd (Aud.SAMPLE_FORMAT p)
     let w := sampleWidth fmt
     let senders := (List.range 16).map fun i => Part.stream (0x20 + i)
     s.audRunning p = true → s.pow.global ≠ .faultHold → s.tick.dramChange = false → n % s.periodFrames p ≠ 0 → s.rd (Aud.DIRECTION p) = 0 →
     s.rd (Aud.PORT_STATE p) ≠ 3 → (s.aud p).insert = 0 → s.rd (Aud.MUTE p) = 0 → s.rd (Aud.MUTE_STATE p) = 0 → s.audRing p = some (r, serial) →
     (s.rd (Aud.HOST_FLOW p) ≠ 1 ∨ n < s.rd (Aud.APPL_POSITION p) + r.count * r.frames →
       let a := bufAddr serial (r.at (packing fmt) (s.rd (Aud.MASK_IN_FORCE p)) n)
       let b := (setBits 32 (s.rd (Aud.MASK_IN_FORCE p))).flatMap fun k =>
         packSample (packing fmt) w (slots.getD k 0 / 2 ^ (tdmWidth (s.rd (Aud.TDM_FORMAT p)) - w) % 2 ^ w)
       ∃ t, exec (.audioSampleFrame port slots) s = .next t ∧ memReadN t.nmp.mem a b.length = b ∧
         (∀ x, x < a ∨ a + b.length ≤ x → memRead t.nmp.mem x = memRead s.nmp.mem x) ∧
         t.rd (Aud.HW_POSITION p) = (n + 1) % 2 ^ 64 ∧ t.rd (Aud.BYTES_MOVED p) = bytesUp (s.rd (Aud.BYTES_MOVED p)) b.length ∧
         t.clock = max s.clock (s.audFrameAt p n) ∧
         OnlyChanges (.clock :: .mem :: .aud p :: senders) [Aud.HW_POSITION p, Aud.BYTES_MOVED p] s t) ∧
     (s.rd (Aud.HOST_FLOW p) = 1 → s.rd (Aud.APPL_POSITION p) + r.count * r.frames ≤ n →
       ∃ t, exec (.audioSampleFrame port slots) s = .next t ∧ t.rd (Aud.HW_POSITION p) = (n + 1) % 2 ^ 64 ∧
         t.rd (Aud.OVERRUN_FRAMES p) = countUp (s.rd (Aud.OVERRUN_FRAMES p)) 1 ∧ bit (t.aud p).flags AudFlag.OVERRUN = true ∧
         ((s.aud p).xrun = false → t.rd (Aud.XRUN_EVENTS p) = countUp (s.rd (Aud.XRUN_EVENTS p)) 1 ∧
           t.firings = s.firings ++ [(112 + p, t.clock)]) ∧
         ((s.aud p).xrun = true → t.rd (Aud.XRUN_EVENTS p) = s.rd (Aud.XRUN_EVENTS p) ∧ t.firings = s.firings) ∧
         OnlyChanges (.clock :: .aud p :: .firings :: sending ++ senders)
           (Aud.HW_POSITION p :: Aud.OVERRUN_FRAMES p :: Aud.XRUN_EVENTS p :: sendIds) s t)) ∧
  (∀ (port : Fin 8) (slots : List Nat) (r : AudRing) (serial : Nat) (s : State),
     let p := port.val
     let n := s.rd (Aud.HW_POSITION p)
     let pk := packing (s.rd (Aud.SAMPLE_FORMAT p))
     let w := sampleWidth (s.rd (Aud.SAMPLE_FORMAT p))
     let tdm := s.rd (Aud.TDM_FORMAT p)
     let mask := setBits 32 (s.rd (Aud.MASK_IN_FORCE p))
     s.audRunning p = true → s.pow.global ≠ .faultHold → n % s.periodFrames p ≠ 0 → s.rd (Aud.DIRECTION p) = 1 →
     s.rd (Aud.PORT_STATE p) ≠ 3 → (s.aud p).insert = 0 → (s.aud p).drop = 0 → s.rd (Aud.MUTE p) = 0 → s.rd (Aud.MUTE_STATE p) = 0 →
     bit (s.rd (Aud.AUD_SOURCE p)) 0 = false → s.audRing p = some (r, serial) →
     (s.tick.dramChange = false → (s.rd (Aud.HOST_FLOW p) ≠ 1 ∨ n < s.rd (Aud.APPL_POSITION p)) →
       let a := bufAddr serial (r.at pk (s.rd (Aud.MASK_IN_FORCE p)) n)
       ∃ t f, exec (.audioSampleFrame port slots) s = .next t ∧ t.out = .audio p f :: s.out ∧ f.length = tdmSlots tdm ∧
         (∀ i k, mask[i]? = some k → k < tdmSlots tdm →
           f[k]? = some (unpackSample pk w (memReadN s.nmp.mem (a + packBytes pk * i) (packBytes pk)) * 2 ^ (tdmWidth tdm - w))) ∧
         (∀ k, k < tdmSlots tdm → k ∉ mask → f[k]? = some (idleSlot tdm)) ∧
         t.rd (Aud.HW_POSITION p) = (n + 1) % 2 ^ 64 ∧
         t.rd (Aud.BYTES_MOVED p) = bytesUp (s.rd (Aud.BYTES_MOVED p)) (packBytes pk * mask.length) ∧
         OnlyChanges [.clock, .aud p, .out] [Aud.HW_POSITION p, Aud.BYTES_MOVED p] s t) ∧
     ((s.tick.dramChange = true ∨ s.rd (Aud.HOST_FLOW p) = 1 ∧ s.rd (Aud.APPL_POSITION p) ≤ n) →
       ∃ t f, exec (.audioSampleFrame port slots) s = .next t ∧ t.out.head? = some (.audio p f) ∧ f.length = tdmSlots tdm ∧
         (∀ k, k < tdmSlots tdm → f[k]? = some (if k ∈ mask then 0 else idleSlot tdm)) ∧
         t.rd (Aud.HW_POSITION p) = (n + 1) % 2 ^ 64 ∧ t.rd (Aud.UNDERRUN_FRAMES p) = countUp (s.rd (Aud.UNDERRUN_FRAMES p)) 1 ∧
         bit (t.aud p).flags AudFlag.UNDERRUN = true ∧
         OnlyChanges (.clock :: .aud p :: .firings :: sending)
           (Aud.HW_POSITION p :: Aud.UNDERRUN_FRAMES p :: Aud.XRUN_EVENTS p :: sendIds) s t))

/-- R405, R408, R409, R412: a period boundary writes the status of the period that ends, drops or inserts the whole frames of a correction, and applies
a mask that reached the port at least one frame before, which the new period carries. It fires the event source of the port.

R413: where no crossing comes within MUTE_TIMEOUT, the changes of mute that have waited longest take effect at their timeout, the period carries it,
and it counts; a slot with a later change keeps its state. -/
def Obligations.PeriodsAndMuteKeepTheirOrder : Prop :=
  (∀ (port : Fin 8) (s : State),
     let p := port.val
     let n := s.rd (Aud.HW_POSITION p)
     let x := s.aud p
     let due := (x.maskAt.map fun c => decide (c + 1000000000 / s.audRate p ≤ s.audFrameAt p n)).getD false
     s.audRunning p = true → s.pow.global ≠ .faultHold → n % s.periodFrames p = 0 → x.period ≠ some n →
     ((parseRing (s.rdBlob (Aud.AUD_RING p))).handle = 0 ∨ (s.bufOf (parseRing (s.rdBlob (Aud.AUD_RING p))).handle).isSome = true) →
     ∃ t, exec (.audioPeriodBoundary port) s = .next t ∧ t.clock = max s.clock (s.audFrameAt p n) ∧
       t.firings = s.firings ++ [(104 + p, t.clock)] ∧ (t.aud p).period = some n ∧ (t.aud p).zeros = 0 ∧ (t.aud p).slip = 0 ∧
       (t.aud p).startTime = deviceTimeAt s.time (s.audFrameAt p n) ∧ (t.aud p).startEpoch = s.epoch ∧
       (t.aud p).insert = x.insert + x.slip.toNat ∧
       t.rd (Aud.HW_POSITION p) = (if x.slip < 0 then (n + x.slip.natAbs) % 2 ^ 64 else n) ∧
       (t.aud p).flags = (if x.slip ≠ 0 then 2 ^ AudFlag.SLIP else 0) + (if due then 2 ^ AudFlag.MASK_CHANGE else 0) ∧
       t.rd (Aud.MASK_IN_FORCE p) = (if due then s.rd (Aud.SLOT_MASK p) % 2 ^ 32 else s.rd (Aud.MASK_IN_FORCE p)) ∧
       t.rd (Aud.MASK_CHANGES p) = (if due then countUp (s.rd (Aud.MASK_CHANGES p)) 1 else s.rd (Aud.MASK_CHANGES p)) ∧
       ((x.period = none ∨ s.audRing p = none) → ∀ a, memRead t.nmp.mem a = memRead s.nmp.mem a) ∧
       (∀ first r serial, x.period = some first → s.audRing p = some (r, serial) →
         let off := r.count * r.stride (packing (s.rd (Aud.SAMPLE_FORMAT p))) + first / r.frames % r.count * 32
         memReadN t.nmp.mem (bufAddr serial off) 32 =
           leBytes 2 x.flags ++ zeroBytes 6 ++ leBytes 2 x.zeros ++ leBytes 2 x.startEpoch ++ leBytes 4 (s.rd (Aud.MASK_IN_FORCE p)) ++
             leBytes 8 first ++ leBytes 8 x.startTime ∧
         ∀ a, a < bufAddr serial off ∨ bufAddr serial off + 32 ≤ a → memRead t.nmp.mem a = memRead s.nmp.mem a) ∧
       OnlyChanges [.clock, .mem, .aud p, .firings] [Aud.HW_POSITION p, Aud.MASK_IN_FORCE p, Aud.MUTE_STATE p, Aud.MASK_CHANGES p] s t) ∧
  (∀ (port : Fin 8) (c : Nat) (s : State),
     let p := port.val
     let waiting := (s.aud p).muteAt
     s.audRunning p = true → (waiting.map fun e => e.2).min? = some c →
     ∃ t, exec (.audioMuteTimeout port) s = .next t ∧ t.clock = max s.clock (c + s.rd (Aud.MUTE_TIMEOUT p) * 1000000) ∧
       (∀ k, k < 32 → bit (t.rd (Aud.MUTE_STATE p)) k = bit (s.rd (if (k, c) ∈ waiting then Aud.MUTE p else Aud.MUTE_STATE p)) k) ∧
       (t.aud p).muteAt = waiting.filter (fun e => e.2 != c) ∧
       (t.aud p).flags = setFlag (s.aud p).flags AudFlag.MUTE_TIMEOUT ∧
       t.rd (Aud.MUTE_TIMEOUTS p) = countUp (s.rd (Aud.MUTE_TIMEOUTS p)) 1 ∧
       OnlyChanges [.clock, .aud p] [Aud.MUTE_STATE p, Aud.MUTE_TIMEOUTS p] s t)

/-- R410 (Table 15-6): a follower without its frame sync for 1.5 frames is in FS_LOST until an edge returns. A stray edge is a glitch, the eighth in a
row at one place and an edge at its place with a drift are slips.

R404, R405: an expected word-clock edge gives the phase error, and ends HOLDOVER where its rate is within FAMILY_PULL; one that is not expected is a
glitch. A clock that stops leaves a locked family in HOLDOVER; a family that has acquired is LOCKED; a phase error of whole frames takes it back,
counts once, and is owed by every enabled port of the family. -/
def Obligations.AudioClocksFollowTheirSource : Prop :=
  (∀ (port : Fin 8) (s : State),
     let p := port.val
     s.audRunning p = true → s.rd (Aud.CLOCK_ROLE p) = 1 →
     (s.rd (Aud.PORT_STATE p) ≠ 3 →
       ∃ t, exec (.audioFsLost port) s = .next t ∧ t.rd (Aud.PORT_STATE p) = 3 ∧ t.clock = max s.clock ((s.aud p).fsAt + 1500000000 / s.audRate p) ∧
         t.aud p = { s.aud p with flags := setFlag (s.aud p).flags AudFlag.FS_LOST, xrunAt := (t.aud p).xrunAt } ∧
         OnlyChanges (.clock :: .aud p :: sending) (Aud.PORT_STATE p :: sendIds) s t) ∧
     (∃ t, exec (.audioFsEdge port 0 0) s = .next t ∧ t.aud p = { s.aud p with fsAt := s.clock, oddRun := 0 } ∧
       t.rd (Aud.PORT_STATE p) = (if s.rd (Aud.PORT_STATE p) = 3 then s.audRunState p else s.rd (Aud.PORT_STATE p)) ∧
       OnlyChanges [.aud p] [Aud.PORT_STATE p] s t) ∧
     (∀ d : Int, d ≠ 0 →
       ∃ t, exec (.audioFsEdge port 0 d) s = .next t ∧ t.rd (Aud.SLIPS p) = countUp (s.rd (Aud.SLIPS p)) 1 ∧
         (t.aud p).insert = (s.aud p).insert + (if 0 < d then 1 else 0) ∧
         (t.aud p).drop = (s.aud p).drop + (if d < 0 ∧ s.rd (Aud.DIRECTION p) = 1 then 1 else 0) ∧ (t.aud p).flags = setFlag (s.aud p).flags AudFlag.SLIP ∧
         OnlyChanges [.aud p] [Aud.PORT_STATE p, Aud.SLIPS p] s t) ∧
     ∀ (o : Nat) (d : Int), o ≠ 0 →
       let run := if (s.aud p).odd = o then (s.aud p).oddRun + 1 else 1
       ∃ t, exec (.audioFsEdge port o d) s = .next t ∧ t.rd (Aud.FS_GLITCHES p) = countUp (s.rd (Aud.FS_GLITCHES p)) 1 ∧
         t.rd (Aud.SLIPS p) = (if run = 8 then countUp (s.rd (Aud.SLIPS p)) 1 else s.rd (Aud.SLIPS p)) ∧
         (t.aud p).oddRun = (if run = 8 then 0 else run) ∧ OnlyChanges [.aud p] [Aud.PORT_STATE p, Aud.FS_GLITCHES p, Aud.SLIPS p] s t) ∧
  (∀ (family : Fin 2) (s : State),
     let f := family.val
     let x := s.family f
     let pm := if x.pm = 0 then 1000000000 / baseRate f else x.pm
     s.audioRuns = true →
     (s.rd (Aud.FAMILY_SOURCE f) = 2 →
       (s.wordclockPin f = true → ∀ (l raw : Nat) (e : Int), x.lastAt = some l → x.rawAt = some raw →
         (offBy5 (s.clock - l) pm pm = false →
           ∃ t, exec (.wordclockEdge family e) s = .next t ∧ t.rd (Aud.FAMILY_PHASE_ERROR f) = ofSigned 32 e ∧
             (t.family f).pm = s.clock - l ∧ (t.family f).lastAt = some s.clock ∧
             t.rd (Aud.FAMILY_STATE f) =
               (if s.rd (Aud.FAMILY_STATE f) = 3 ∧ s.inPull f (s.clock - l) = true then 1 else s.rd (Aud.FAMILY_STATE f)) ∧
             OnlyChanges (.family f :: sending) (Aud.FAMILY_PHASE_ERROR f :: Aud.FAMILY_STATE f :: sendIds) s t) ∧
         (offBy5 (s.clock - l) pm pm = true → offBy5 (s.clock - raw) pm pm = true → x.odd = [] →
           ∃ t, exec (.wordclockEdge family e) s = .next t ∧ t.rd (Aud.FAMILY_GLITCHES f) = countUp (s.rd (Aud.FAMILY_GLITCHES f)) 1 ∧
             (t.family f).lastAt = some l ∧ OnlyChanges [.family f] [Aud.FAMILY_GLITCHES f] s t)) ∧
       (x.stopped = false →
         ∃ t, exec (.wordclockStop family) s = .next t ∧ t.rd (Aud.FAMILY_STOPS f) = countUp (s.rd (Aud.FAMILY_STOPS f)) 1 ∧
           t.clock = max s.clock (x.lastAt.getD s.clock + pm * 3 / 2) ∧ (t.family f).stopped = true ∧
           t.rd (Aud.FAMILY_STATE f) =
             (if s.rd (Aud.FAMILY_STATE f) = 1 ∨ s.rd (Aud.FAMILY_STATE f) = 2 then 3 else s.rd (Aud.FAMILY_STATE f)) ∧
           OnlyChanges (.clock :: .family f :: sending) (Aud.FAMILY_STOPS f :: Aud.FAMILY_STATE f :: sendIds) s t)) ∧
     (s.rd (Aud.FAMILY_STATE f) = 1 →
       ∃ t, exec (.familyLockAchieved family) s = .next t ∧ t.rd (Aud.FAMILY_STATE f) = 2 ∧
         OnlyChanges sending (Aud.FAMILY_STATE f :: sendIds) s t) ∧
     ∀ n : Int, n ≠ 0 → s.rd (Aud.FAMILY_STATE f) = 2 →
       ∃ t, exec (.familySlip family n) s = .next t ∧ t.rd (Aud.FAMILY_STATE f) = 1 ∧
         t.rd (Aud.FAMILY_SLIPS f) = countUp (s.rd (Aud.FAMILY_SLIPS f)) 1 ∧
         (∀ p, p < 8 → t.aud p = (if s.rd (Aud.PORT_ENABLE p) = 1 ∧ s.rd (Aud.FAMILY p) = f then
           { s.aud p with slip := (s.aud p).slip + n * 2 ^ s.rd (Aud.RATE_MULT p) } else s.aud p)) ∧
         OnlyChanges ((List.range 8).map Part.aud ++ sending) (Aud.FAMILY_SLIPS f :: Aud.FAMILY_STATE f :: sendIds) s t)

/-! ## The DRAM controller (spec/16) -/

/-- R420, R432, R435: training in which every channel that has not failed finds a working eye leaves the channels in service, DRAM_STATE TRAINED, and
READY where the die is warm enough. A second channel that fails leaves DRAM_STATE FAILED, and the device in WARMUP; a first one is recorded and
restarts the device.

R435, R439: a channel in service that fails is recorded and the device restarts through BOOT with LAST_RESTART_CAUSE 4; in FAULT_HOLD it is only
recorded. -/
def Obligations.TrainingDecidesTheChannels : Prop :=
  (∀ (eyes : List (Nat × Nat)) (s : State), s.pow.global = .warmup → s.rd Dram.DRAM_STATE = 0 → s.therm.heating = false → s.therm.calibrated = true →
     let failed := setBits 8 (s.rd Dram.FAILED_CHANNELS)
     let bad := (List.range 8).filter fun c => decide (c ∉ failed) && !eyeOk (eyes.getD c (0, 0))
     (bad = [] → failed.length < 2 →
       ∃ t, exec (.dramTrainingDone eyes) s = .next t ∧ t.rd Dram.DRAM_STATE = (if failed = [] then 1 else 2) ∧
         (∀ c, c < 8 → t.rd (Dram.CHANNEL_STATE c) = (if c ∈ failed then 3 else 1)) ∧
         (∀ c, c < 8 → c ∉ failed → t.rd (Dram.EYE_MARGIN c) = eyeCode (eyes.getD c (0, 0))) ∧
         (∀ c, c < 8 → c ∈ failed → bit (t.rd Dram.CHANNELS_IN_SERVICE) c = false) ∧
         t.rd Dram.DRAM_SPEED = dramMT s.profile.dramSpeed ∧
         t.pow.global = (if s.rdS Th.COLD_LIMIT + s.rdS Th.COLD_HYSTERESIS ≤ s.rdS Th.JUNCTION then .ready else .warmup) ∧
         OnlyChanges (.dram :: .pow :: sending)
           ((List.range 8).map Dram.CHANNEL_STATE ++ (List.range 8).map Dram.EYE_MARGIN ++
             [Dram.DRAM_STATE, Dram.CHANNELS_IN_SERVICE, Dram.DRAM_SPEED, Dram.PEAK_BANDWIDTH, Dram.CAPACITY, Dram.SCRUB_PASS_TIME] ++ sendIds) s t) ∧
     (2 ≤ failed.length + bad.length → s.tick.running = false →
       ∃ t, exec (.dramTrainingDone eyes) s = .next t ∧ t.rd Dram.DRAM_STATE = 4 ∧ t.pow.global = .warmup ∧
         ∀ c ∈ bad, t.rd (Dram.CHANNEL_STATE c) = 3 ∧ bit (t.rd Dram.FAILED_CHANNELS) c = true) ∧
     (failed.length + bad.length = 1 → bad ≠ [] →
       ∃ t, exec (.dramTrainingDone eyes) s = .next t ∧ t.pow.global = .boot ∧ t.rd Sys.LAST_RESTART_CAUSE = 4)) ∧
  (∀ (ch : Fin 8) (cause : Fin 3) (s : State), s.dramChannels.contains ch.val = true →
     (s.pow.global = .warmup ∨ s.pow.global = .ready ∨ s.pow.global = .run →
       ∃ t, exec (.dramChannelFail ch cause) s = .next t ∧ t.pow.global = .boot ∧ t.rd Sys.LAST_RESTART_CAUSE = 4 ∧ t.pow.ledgerQueue = [] ∧
         t.nmp.sessions = []) ∧
     (s.pow.global = .faultHold → s.tick.gap = false →
       ∃ t, exec (.dramChannelFail ch cause) s = .next t ∧ t.pow.global = .faultHold ∧ t.rd (Dram.CHANNEL_STATE ch) = 3 ∧
         bit (t.rd Dram.FAILED_CHANNELS) ch = true ∧ bit (t.rd Dram.CHANNELS_IN_SERVICE) ch = false))

/-- R433, R434: a retraining counts, repays the refresh debt of its channel, and keeps a setting that it finds; one that finds none raises a drift
alarm, and a second in a row fails the channel. -/
def Obligations.RetrainingKeepsOrLosesAChannel : Prop :=
  ∀ (ch : Fin 8) (s : State), s.rd (Dram.CHANNEL_STATE ch) = 2 →
    (∀ e : Nat × Nat,
      ∃ t, exec (.dramRetrainDone ch (some e)) s = .next t ∧ t.rd (Dram.CHANNEL_STATE ch) = 1 ∧ t.rd (Dram.EYE_MARGIN ch) = eyeCode e ∧
        t.rd (Dram.RETRAINS ch) = countUp (s.rd (Dram.RETRAINS ch)) 1 ∧ ch.val ∉ t.dram.alarms ∧ ch.val ∉ t.dram.missed ∧
        (∀ d ∈ t.dram.debts, d.1 / 1024 ≠ ch.val) ∧ OnlyChanges [.dram] [Dram.CHANNEL_STATE ch, Dram.EYE_MARGIN ch, Dram.RETRAINS ch] s t) ∧
    (ch.val ∉ s.dram.missed → (s.tick.gap = false ∨ s.tick.active.isSome = true) →
      ∃ t, exec (.dramRetrainDone ch none) s = .next t ∧ t.rd (Dram.CHANNEL_STATE ch) = 1 ∧ ch.val ∈ t.dram.alarms ∧ ch.val ∈ t.dram.missed ∧
        t.rd (Dram.RETRAINS ch) = countUp (s.rd (Dram.RETRAINS ch)) 1 ∧ t.rd (Dram.RETRAIN_FAIL ch) = countUp (s.rd (Dram.RETRAIN_FAIL ch)) 1 ∧
        bit t.tick.waiting 1 = true ∧ (1, ch.val) ∈ t.tick.chans ∧
        OnlyChanges [.dram, .tick] [Dram.CHANNEL_STATE ch, Dram.RETRAINS ch, Dram.RETRAIN_FAIL ch] s t) ∧
    (ch.val ∈ s.dram.missed → s.pow.global ≠ .faultHold →
      ∃ t, exec (.dramRetrainDone ch none) s = .next t ∧ t.pow.global = .boot ∧ t.rd Sys.LAST_RESTART_CAUSE = 4)

/-- R423, R424: a codeword with correctable errors counts, fires the event source of the DRAM, and its write-back is queued under class SCRUB; with
MARK_THRESHOLD 0 nothing is ever marked. One without errors does nothing.

R436, R437, R30: an uncorrectable codeword freezes the controller, is captured in FAULT_RECORD, counts, and takes the device to FAULT_HOLD: no
frame, job, recording, transfer or packet goes on. A later one only counts. The Ledger keeps the record: at once, or, while the tick runs, as a
write that waits for the arbiter. -/
def Obligations.CodewordErrorsAreCorrectedOrHold : Prop :=
  (∀ (addr : Nat) (requester : Fin 9) (b : List Byte) (s : State),
     let l := s.placeOf addr
     let k := 2 * l.ch + l.sub
     let errs := rsDecode (symbolsOf b) (s.erasures (rankKey l.ch l.sub l.rank))
     s.dramServes l.ch = true →
     (errs = some [] → ∃ t, exec (.dramCorrectedRead addr requester b) s = .next t ∧ t = s) ∧
     (∀ e r, errs = some (e :: r) →
       ∃ t, exec (.dramCorrectedRead addr requester b) s = .next t ∧ t.rd (Dram.CE_COUNT l.ch) = countUp (s.rd (Dram.CE_COUNT l.ch)) 1 ∧
         t.firings = s.firings ++ [(202, s.clock)] ∧
         tget t.dram.writeBacks k [] = tget s.dram.writeBacks k [] ++ [{ requester := 7, write := true, addr := addr, age := 0 }] ∧
         (s.rd Dram.MARK_THRESHOLD = 0 → t.dram.marks = s.dram.marks ∧ OnlyChanges [.dram, .firings] [Dram.CE_COUNT l.ch] s t))) ∧
  (∀ (addr : Nat) (requester : Fin 9) (cause : Fin 3) (b : List Byte) (s : State),
     let l := s.placeOf addr
     s.rd Dram.DRAM_STATE ≠ 0 → s.rd Dram.DRAM_STATE ≠ 4 → s.tick.dramChange = false →
     rsDecode (symbolsOf b) (s.erasures (rankKey l.ch l.sub l.rank)) = none →
     (s.dram.frozen = true →
       ∃ t, exec (.dramUncorrectable addr requester cause b) s = .next t ∧ t.rd (Dram.UE_COUNT l.ch) = countUp (s.rd (Dram.UE_COUNT l.ch)) 1 ∧
         OnlyChanges [] [Dram.UE_COUNT l.ch] s t) ∧
     (s.dram.frozen = false →
       ∃ t, exec (.dramUncorrectable addr requester cause b) s = .next t ∧ t.pow.global = .faultHold ∧ t.dram.frozen = true ∧
         t.rd Dram.DRAM_STATE = 3 ∧ t.rd (Dram.UE_COUNT l.ch) = countUp (s.rd (Dram.UE_COUNT l.ch)) 1 ∧
         t.rdBlob Dram.FAULT_RECORD = s.faultRecord addr requester.val (cause.val + 1) (symbolsOf b) ∧
         (∀ x, (t.ctxSt x).job = none) ∧ (∀ x, x < 16 → (t.ingest x).frame = none ∧ t.rd (Ing.FRAME_STATE x) = 0) ∧
         (∀ x, x < 80 → (t.stream x).video = [] ∧ (t.stream x).ready = []) ∧ t.media.run = none ∧ t.tgt.cmds = [] ∧
         (s.tick.running = false → ∃ n x, 10 ≤ n ∧ n ≤ 13 ∧ tfind t.pow.ledger n = some x ∧ x.bytes = t.rdBlob Dram.FAULT_RECORD) ∧
         ((∀ e ∈ s.nmp.buffers, e.2.freed = false) → ∀ a, memRead t.nmp.mem a = memRead s.nmp.mem a)))

/-- R428, R429: a refresh whose banks hold no pending real-time row hits is issued, with every debt repaid; one whose banks do is postponed below
POSTPONE_LIMIT, and at the limit splits the burst for one refresh. The open rows that a refresh covers close before it.

R428, R431, R433: MR4 gives the refresh rate, and a change of temperature of DRIFT_TEMP or more since the latest training is a drift alarm. ALERT_N
issues every held write of the channel again, in its order, with a drift alarm; a write that fails four times in a row fails the channel.

R426, R429, R430: the request that is chosen moves on a row hit, 64 bytes; another open row is precharged first, and a closed bank is activated. A
real-time request is chosen before every other. Where nothing waits, the refresh debts of the subchannel are repaid. -/
def Obligations.MemoryCommandsKeepTheirOrder : Prop :=
  (∀ (ch : Fin 8) (sub rank : Fin 2) (index : Fin 4) (s : State),
     let mine := refreshBanks ch sub rank (s.refreshIndex index)
     let key := 1024 * ch.val + 512 * sub.val + 256 * rank.val + (if s.rd Dram.REFRESH_MODE = 0 then 255 else index.val)
     let debt := tget s.dram.debts key 0
     let one : Output :=
       if s.rd Dram.REFRESH_MODE = 0 then .dram ch sub "REFab" rank else .dram ch sub "REFsb" (4 * rank.val + index.val)
     let issued (n : Nat) (t : State) : Prop :=
       (∃ first, t.out = List.replicate n one ++ first ++ s.out ∧ ((∀ e ∈ s.dram.rows, mine e.1 = false) → first = [])) ∧
         ∀ e ∈ t.dram.rows, mine e.1 = false
     s.rd (Dram.CHANNEL_STATE ch) = 1 → s.tick.dramChange = false → rank.val < s.pow.board.ranks →
     (∃ t, exec (.dramRefreshDue ch sub rank index false) s = .next t ∧ tget t.dram.debts key 0 = 0 ∧ issued (debt + 1) t ∧
       OnlyChanges [.dram, .out] [Dram.PNR_ACTIVATES ch] s t) ∧
     (debt + 1 < s.rd Dram.POSTPONE_LIMIT →
       ∃ t, exec (.dramRefreshDue ch sub rank index true) s = .next t ∧ tget t.dram.debts key 0 = debt + 1 ∧
         t.rd (Dram.REFRESH_POSTPONED ch) = countUp (s.rd (Dram.REFRESH_POSTPONED ch)) 1 ∧ OnlyChanges [.dram] [Dram.REFRESH_POSTPONED ch] s t) ∧
     (s.rd Dram.POSTPONE_LIMIT ≤ debt + 1 →
       ∃ t, exec (.dramRefreshDue ch sub rank index true) s = .next t ∧ tget t.dram.debts key 0 = debt ∧ issued 1 t ∧
         t.rd (Dram.BURST_SPLITS ch) = countUp (s.rd (Dram.BURST_SPLITS ch)) 1 ∧
         OnlyChanges [.dram, .out] [Dram.BURST_SPLITS ch, Dram.PNR_ACTIVATES ch] s t)) ∧
  (∀ (ch : Fin 8) (s : State), s.dramServes ch = true → (s.tick.gap = false ∨ s.tick.active.isSome = true) →
     (∀ (doubled : Bool) (temp : Int),
       let drift := decide ((s.rd Dram.DRIFT_TEMP : Int) ≤ (temp - tget s.dram.trained ch 0).natAbs)
       ∃ t, exec (.dramMr4Poll ch doubled temp) s = .next t ∧ t.rd (Dram.REFRESH_RATE ch) = (if doubled then 1 else 0) ∧
         tget t.dram.temps ch 0 = temp ∧ (drift = true → ch.val ∈ t.dram.alarms ∧ (1, ch.val) ∈ t.tick.chans) ∧
         (drift = false → t.dram.alarms = s.dram.alarms ∧ t.tick = s.tick) ∧
         (doubled = false ∨ s.rd (Dram.REFRESH_RATE ch) ≠ 0 → OnlyChanges [.dram, .tick] [Dram.REFRESH_RATE ch] s t) ∧
         OnlyChanges (.dram :: .tick :: sending) (Dram.REFRESH_RATE ch :: sendIds) s t) ∧
     (s.rd Dram.WRITE_CRC_ENABLE = 1 → (∀ w ∈ s.heldWrites ch, w.fails < 3) →
       ∃ t, exec (.dramAlertN ch) s = .next t ∧
         t.out = ((s.heldWrites ch).map fun (w : HeldWrite) => Output.dram ch w.sub "WR" w.addr).reverse ++ s.out ∧
         t.rd (Dram.WRITE_CRC_RETRIES ch) = countUp (s.rd (Dram.WRITE_CRC_RETRIES ch)) 1 ∧ ch.val ∈ t.dram.alarms ∧
         tget t.dram.held ch [] = (s.heldWrites ch).map (fun (w : HeldWrite) => { w with at' := s.clock, fails := w.fails + 1 }) ∧
         OnlyChanges [.dram, .tick, .out] [Dram.WRITE_CRC_RETRIES ch] s t) ∧
     (s.rd Dram.WRITE_CRC_ENABLE = 1 → (∃ w ∈ s.heldWrites ch, 3 ≤ w.fails) → s.pow.global ≠ .faultHold →
       ∃ t, exec (.dramAlertN ch) s = .next t ∧ t.pow.global = .boot ∧ t.rd Sys.LAST_RESTART_CAUSE = 4)) ∧
  (∀ (ch : Fin 8) (sub : Fin 2) (reqs : List DramReq) (s : State),
     let k := 2 * ch.val + sub.val
     let all := (reqs.filter fun (q : DramReq) => (s.placeOf q.addr).ch == ch.val && (s.placeOf q.addr).sub == sub.val &&
       (q.requester != 7 || (!q.write && s.rd Dram.SCRUB_ENABLE == 1))) ++ tget s.dram.writeBacks k []
     s.dramServes ch = true →
     (all = [] →
       ∃ t, exec (.dramCommandSelect ch sub reqs) s = .next t ∧ (∀ e ∈ t.dram.debts, e.1 / 512 ≠ k) ∧
         OnlyChanges [.dram, .out] [Dram.PNR_ACTIVATES ch] s t) ∧
     ((∃ q ∈ all, q.requester < 4) → ∃ q, s.chooseRequest ch sub all = some (q, false) ∧ q.requester < 4 ∧ q ∈ all) ∧
     ((∀ e ∈ s.dram.debts, e.1 / 512 ≠ k) → s.pow.board.ranks ≤ 2 →
       ∀ (q : DramReq) (promoted : Bool), s.chooseRequest ch sub all = some (q, promoted) →
         let l := s.placeOf q.addr
         let b := bankKey l
         (tfind s.dram.rows b = some l.row →
           ∃ t, exec (.dramCommandSelect ch sub reqs) s = .next t ∧
             t.out = .dram ch sub (if q.write then "WR" else "RD") q.addr :: s.out ∧
             (if q.write then t.rd (Dram.BYTES_WRITTEN ch) = bytesUp (s.rd (Dram.BYTES_WRITTEN ch)) 64
               else t.rd (Dram.BYTES_READ ch) = bytesUp (s.rd (Dram.BYTES_READ ch)) 64) ∧
             OnlyChanges [.dram, .out] ([Dram.BYTES_WRITTEN ch, Dram.BYTES_READ ch, Dram.SCRUB_PASSES] ++
               (List.range 4).map Dram.RT_LATENCY_MAX ++ (List.range 4).map Dram.PROMOTIONS) s t) ∧
         (∀ row, tfind s.dram.rows b = some row → row ≠ l.row → tfind s.dram.neighbours b = none →
           ∃ t, exec (.dramCommandSelect ch sub reqs) s = .next t ∧ t.out = .dram (b / 1024) (b / 512 % 2) "PRE" b :: s.out ∧
             tfind t.dram.rows b = none ∧ OnlyChanges [.dram, .out] [] s t) ∧
         (tfind s.dram.rows b = none →
           ∃ t, exec (.dramCommandSelect ch sub reqs) s = .next t ∧ t.out.head? = some (.dram l.ch l.sub "ACT" l.row) ∧
             tfind t.dram.rows b = some l.row ∧
             OnlyChanges [.dram, .out, .free]
               [Dram.RFM_COMMANDS l.ch, Dram.REFRESH_POSTPONED l.ch, Dram.BURST_SPLITS l.ch, Dram.PNR_ACTIVATES l.ch] s t)))

/-! ## The Event Fabric (spec/17) -/

/-- R446 to R450, R454, R455, R457: a firing of an enabled source is counted, sets its flag, and triggers every task input with an enabled wire to it, 2
cycles of the input's domain after the next edge of it, where no timer expires meanwhile; a busy input drops the trigger, sets OVERRUN and counts
it. A disabled source and a fabric that does not run carry nothing. A wired source that would pass LOOP_LIMIT is suppressed, disabled and flagged. -/
def Obligations.FiringsReachTheirInputsTogether : Prop :=
  ∀ (src : Fin 256) (c0 : Nat) (s : State), s.firings = [(src.val, c0)] →
    let k := src.val
    let n := tget s.fab.counts k 0 + 1
    let stopped := s.rd (Ev.LOOP_LIMIT k) ≠ 0 ∧ s.sourceWired k = true ∧ s.rd (Ev.LOOP_LIMIT k) < n
    let reaches (ti : Nat) : Prop := ti ∈ taskInputs ∧ s.wireHits ti [k] ≠ []
    let now (ti : Nat) : Nat := arrivalAt ti c0 / 10
    (s.fabricRuns = false ∨ s.rd (Ev.SRC_ENABLE k) = 0 →
      ∃ t, exec (.eventSourceFire [src]) s = .next t ∧ t.firings = [] ∧ OnlyChanges [.firings] [] s t) ∧
    (s.fabricRuns = true → s.rd (Ev.SRC_ENABLE k) ≠ 0 → stopped →
      ∃ t, exec (.eventSourceFire [src]) s = .next t ∧ t.rd (Ev.SRC_ENABLE k) = 0 ∧
        bit (t.rd (Ev.SRC_LOOP_SUSPECT (k / 32))) (k % 32) = true ∧ t.rd (Ev.SRC_LOOP_TRIPS k) = countUp (s.rd (Ev.SRC_LOOP_TRIPS k)) 1 ∧
        OnlyChanges (.firings :: sending) (Ev.SRC_ENABLE k :: Ev.SRC_LOOP_SUSPECT (k / 32) :: Ev.SRC_LOOP_TRIPS k :: sendIds) s t) ∧
    (s.fabricRuns = true → s.rd (Ev.SRC_ENABLE k) ≠ 0 → ¬stopped → (∀ e ∈ s.fab.timers, ∀ ti, reaches ti → now ti < e.2) →
      ∃ t, exec (.eventSourceFire [src]) s = .next t ∧
        t.rd (Ev.SRC_FIRINGS k) = countUp (s.rd (Ev.SRC_FIRINGS k)) 1 ∧ bit (t.rd (Ev.SRC_FIRED (k / 32))) (k % 32) = true ∧
        (s.sourceWired k = false → OnlyChanges [.firings] [Ev.SRC_FIRINGS k, Ev.SRC_FIRED (k / 32)] s t) ∧
        ∀ ti, reaches ti →
          (inputCycle ti = 20 → t.clock = max s.clock (now ti)) ∧
          ((ti < 80 ∨ 96 ≤ ti) →
            (s.inputBusy ti (now ti) = true →
              t.rd (Ev.TI_OVERRUNS ti) = countUp (s.rd (Ev.TI_OVERRUNS ti)) 1 ∧ bit (t.rd (Ev.TI_OVERRUN (ti / 32))) (ti % 32) = true ∧
                t.rd (Ev.TI_TRIGGERS ti) = s.rd (Ev.TI_TRIGGERS ti)) ∧
            (s.inputBusy ti (now ti) = false →
              t.rd (Ev.TI_TRIGGERS ti) = countUp (s.rd (Ev.TI_TRIGGERS ti)) 1 ∧ bit (t.rd (Ev.TI_TRIGGERED (ti / 32))) (ti % 32) = true ∧
                t.rd (Ev.TI_OVERRUNS ti) = s.rd (Ev.TI_OVERRUNS ti))) ∧
          (ti < 16 → s.inputBusy ti (now ti) = false → (t.trig ti).endAt = some (t.clock + evenNs (s.rd (Port.XTRIG_WIDTH ti)))) ∧
          (80 ≤ ti → ti < 96 → s.inputBusy ti (now ti) = false →
            let due := now ti + s.rd (Ev.TIMER_DELAY (ti - 80))
            (∀ tj, reaches tj → now tj < due) → t.rd (Ev.TIMER_STATE (ti - 80)) = 1 ∧ tfind t.fab.timers (ti - 80) = some due))

/-- R443, R450, R451: a timer expires at its time, returns to IDLE and fires its source; an EVIO input fires on the edges that EVIO_EDGE selects, an
output never; a pulse on an EVIO output ends at the level of rest.

R452, R453, R456: the pending wake actions are carried out once Negor runs, and wait while it restarts. The notice goes to the sessions; a commit of
WAKE_PROFILE that is refused with CONFLICT or BUDGET_EXCEEDED counts and leaves the profile, one that is accepted waits for its tick edge. -/
def Obligations.TimersPinsAndWakesAct : Prop :=
  (∀ s : State,
     (∀ (n : Fin 16) (due : Nat), tfind s.fab.timers n.val = some due → s.fabricRuns = true →
       ∃ t, exec (.timerExpiry n) s = .next t ∧ t.rd (Ev.TIMER_STATE n.val) = 0 ∧ tfind t.fab.timers n.val = none ∧ t.clock = max s.clock due ∧
         t.firings = s.firings ++ [(224 + n.val, due)] ∧ OnlyChanges [.clock, .fab, .firings] [Ev.TIMER_STATE n.val] s t) ∧
     (∀ (e : Fin 6) (rising : Bool),
       (s.fabricRuns = true → s.rd (Ev.EVIO_DIR e.val) = 0 →
         (s.rd (Ev.EVIO_EDGE e.val) = 2 ∨ s.rd (Ev.EVIO_EDGE e.val) = (if rising then 0 else 1)) →
         ∃ t, exec (.evioInputEdge e rising) s = .next t ∧ t.firings = s.firings ++ [(120 + e.val, s.clock)] ∧ OnlyChanges [.firings] [] s t) ∧
       (s.rd (Ev.EVIO_DIR e.val) = 1 → ∃ t, exec (.evioInputEdge e rising) s = .next t ∧ t = s)) ∧
     ∀ (e : Fin 6) (due : Nat), tfind s.fab.evios e.val = some due →
       ∃ t, exec (.evioPulseEnd e) s = .next t ∧ t.clock = max s.clock due ∧ tfind t.fab.evios e.val = none ∧
         t.out = .pin ("EVIO" ++ toString e.val) (if s.rd (Ev.EVIO_POLARITY e.val) = 1 then 1 else 0) :: s.out ∧
         OnlyChanges [.clock, .fab, .out] [] s t) ∧
  (∀ (s : State) (pos : Nat),
     (s.negorAnswers = false →
       (∃ t, exec .wakeNotifyAction s = .next t ∧ t = s) ∧ ∃ t, exec .wakeProfileAction s = .next t ∧ t = s) ∧
     (s.negorAnswers = true → s.fab.wakeNotify = some pos →
       ∃ t, exec .wakeNotifyAction s = .next t ∧ t.fab = { s.fab with wakeNotify := none } ∧
         (∀ k x, s.nmp.sessions = [(k, x)] → bit x.mask 8 = true →
           ∃ mark code pl, t.out.head? = some (.nmp x.port x.peer mark true ⟨k, x.notifySeq, 0x80, 0, pl⟩) ∧ code % 32768 = 0x0602 ∧
             slice pl 0 4 = leBytes 2 8 ++ leBytes 2 code ∧ slice pl 24 4 = leBytes 1 184 ++ leBytes 1 0xFF ++ leBytes 1 pos ++ leBytes 1 0) ∧
         OnlyChanges (.fab :: sending) sendIds s t) ∧
     (s.negorAnswers = true → s.fab.wakeProfile = some pos →
       let u : State := { s with fab := { s.fab with wakeProfile := none } }
       let es := centries u [(Tick.PROFILE, .num (s.rd Ev.WAKE_PROFILE))]
       let verdict := (commitVerdict (u.txn { sess := 0, seq := 0, port := 0 } 0x12 0 es) es).1
       (verdict = Status.OK →
         ∃ t a, exec .wakeProfileAction s = .next t ∧ t.tick.admitted = s.tick.admitted ++ [a] ∧ a.ids = es.map CEntry.id ∧
           t.fab.wakeProfile = none ∧ OnlyChanges [.fab, .tick] [] s t) ∧
       (verdict = Status.CONFLICT ∨ verdict = Status.BUDGET_EXCEEDED →
         ∃ t, exec .wakeProfileAction s = .next t ∧ t.rd Ev.WAKE_REFUSED = countUp (s.rd Ev.WAKE_REFUSED) 1 ∧ t.fab.wakeProfile = none ∧
           OnlyChanges [.fab] [Ev.WAKE_REFUSED, Tick.ADMIT_REFUSED] s t)))

/-! ## The thermal and power unit (spec/18) -/

/-- R459, R462, R465, R469: a sample reads the sensors, and the estimate is the largest valid reading. The thermal state follows the estimate with its
hysteresis. Two samples in a row of one sensor at or above SHUTDOWN_THRESHOLD shut the device down; one alone does not. In THROTTLE the cap steps
down by 5 W, to the floor at most, once in 100 ms.

R460, R463: calibration in WARMUP keeps the difference of each monitor to the diode as its offset, and compares the estimate with COLD_LIMIT: below
it the heater runs. -/
def Obligations.SamplesGovernTheHeat : Prop :=
  (∀ (diode : Int) (monitors : List Int) (mw : Nat) (s : State),
     let reading (k : Nat) : Int := if k = 16 then diode else monitors.getD k 0 + s.rdS (Th.MONITOR_OFFSET k)
     (∀ k, k < 17 → -960 ≤ reading k ∧ reading k ≤ 2560) →
     (s.pow.global = .off → ∃ t, exec (.thermalSample diode false monitors mw) s = .next t ∧ t = s) ∧
     (s.pow.global ≠ .off →
       ∃ t, exec (.thermalSample diode false monitors mw) s = .next t ∧ t.rdS Th.DIODE = diode ∧ (∀ m, m < 16 → t.rdS (Th.MONITOR m) = reading m) ∧
         t.rd Th.POWER_NOW = mw % 2 ^ 32 ∧ t.clock = max s.clock (s.therm.lastSample + 100000) ∧
         (∀ k ∈ s.validSensors, reading k ≤ t.rdS Th.JUNCTION) ∧ (s.validSensors ≠ [] → ∃ k ∈ s.validSensors, reading k = t.rdS Th.JUNCTION) ∧
         (s.pow.global = .thermalOff →
           OnlyChanges [.clock, .therm] (Th.POWER_NOW :: Th.DIODE :: Th.JUNCTION :: (List.range 16).map Th.MONITOR) s t) ∧
         ((∃ k ∈ s.validSensors, bit s.therm.hotOnce k = true ∧ s.rdS Th.SHUTDOWN_THRESHOLD ≤ reading k) → s.pow.global ≠ .thermalOff →
           t.pow.global = .thermalOff ∧ t.pow.thermShdn = true ∧ t.pow.clocksStopped = true ∧
             t.rd Th.SHUTDOWN_COUNT = countUp (s.rd Th.SHUTDOWN_COUNT) 1 ∧ Output.pin "THERM_SHDN" 1 ∈ t.out ∧ t.media.run = none ∧
             ∀ x, (t.ctxSt x).job = none) ∧
         ((∀ k ∈ s.validSensors, bit s.therm.hotOnce k = false ∨ reading k < s.rdS Th.SHUTDOWN_THRESHOLD) →
           (s.pow.global = .ready ∨ s.pow.global = .run) →
           let j := t.rdS Th.JUNCTION
           let hot := s.rdS Th.HOT_HYSTERESIS
           let old := s.rd Th.THERMAL_STATE
           let down := (s.therm.lastDown.map fun c => decide (c + 100000000 ≤ t.clock)).getD true
           t.pow.global = s.pow.global ∧ (s.rdS Th.THROTTLE_THRESHOLD ≤ j → t.rd Th.THERMAL_STATE = 5) ∧
             (old = 5 → s.rdS Th.THROTTLE_THRESHOLD - hot < j → t.rd Th.THERMAL_STATE = 5) ∧
             (old ≠ 5 → s.rdS Th.WARN_THRESHOLD ≤ j → j < s.rdS Th.THROTTLE_THRESHOLD → t.rd Th.THERMAL_STATE = 4) ∧
             (0 < hot → s.rdS Th.WARN_THRESHOLD ≤ s.rdS Th.THROTTLE_THRESHOLD → j ≤ s.rdS Th.WARN_THRESHOLD - hot → 0 ≤ s.rdS Th.COLD_HYSTERESIS →
               s.rdS Th.COLD_LIMIT ≤ s.rdS Th.COLD_WARNING → s.rdS Th.COLD_WARNING + s.rdS Th.COLD_HYSTERESIS ≤ j →
               t.rd Th.THERMAL_STATE = 3) ∧
             (t.rd Th.THERMAL_STATE = 5 → s.profile.floorCap < s.rd Tick.ACTIVE_CAP → down = true →
               t.rd Tick.ACTIVE_CAP = max s.profile.floorCap (s.rd Tick.ACTIVE_CAP - 5000) % 2 ^ 32 ∧
                 t.rd Th.THROTTLE_STEPS = countUp (s.rd Th.THROTTLE_STEPS) 1 ∧ t.rd Th.THROTTLE_CAUSE = 1 ∧ (201, t.clock) ∈ t.firings) ∧
             (down = false → t.rd Tick.ACTIVE_CAP = s.rd Tick.ACTIVE_CAP)))) ∧
  (∀ (diode : Int) (monitors : List Int) (s : State), s.pow.global = .warmup → s.therm.calibrated = false →
     (∀ m, m < 16 → (diode - monitors.getD m diode).natAbs ≤ 160) → -960 ≤ diode → diode ≤ 2560 → s.validSensors ≠ [] →
     ∃ t, exec (.thermalCalibration diode monitors) s = .next t ∧ t.therm.calibrated = true ∧ t.rdS Th.DIODE = diode ∧ t.rdS Th.JUNCTION = diode ∧
       (∀ m, m < 16 → t.rdS (Th.MONITOR_OFFSET m) = diode - monitors.getD m diode ∧ t.rdS (Th.MONITOR m) = diode) ∧
       (diode < s.rdS Th.COLD_LIMIT → 0 ≤ s.rdS Th.HOT_HYSTERESIS → 0 ≤ s.rdS Th.COLD_HYSTERESIS →
         diode + s.rdS Th.HOT_HYSTERESIS < s.rdS Th.WARN_THRESHOLD → diode + s.rdS Th.HOT_HYSTERESIS < s.rdS Th.THROTTLE_THRESHOLD →
         t.rd Th.THERMAL_STATE = 0 ∧ t.therm.heating = true ∧ t.pow.global = .warmup))

/-- R470, R59, R471: with no tick plan a step up that is due raises the cap by 5 W at once, to the profile cap at most, and counts; with a plan it waits
for re-admission.

R472, R473: every 100 ms the weighted time grows by the weight of the state times the band factor of the estimate, the powered time by 100 ms, and
in READY and RUN the time of the profile; the parameters show them. -/
def Obligations.CapsStepUpAndLifeAddsUp : Prop :=
  (∀ (c : Nat) (s : State), s.therm.okSince = some c → s.therm.upPending = false → s.withinLimits = true →
     s.rd Tick.ACTIVE_CAP < s.profile.cap →
     (s.pow.global = .warmup ∨ s.pow.global = .ready ∨ s.pow.global = .run ∨ s.pow.global = .faultHold) →
     ∃ t, exec .capStepUp s = .next t ∧ t.clock = max s.clock (c + 1000000000) ∧
       (s.tick.running = false →
         t.rd Th.RESTORE_STEPS = countUp (s.rd Th.RESTORE_STEPS) 1 ∧
         t.rd Tick.ACTIVE_CAP = min s.profile.cap (s.rd Tick.ACTIVE_CAP + 5000) % 2 ^ 32 ∧ t.therm.okSince = some t.clock ∧
           OnlyChanges (.clock :: .therm :: .pow :: sending) (Th.RESTORE_STEPS :: Tick.ACTIVE_CAP :: sendIds) s t) ∧
       (s.tick.running = true →
         t.therm.upPending = true ∧ t.tick.readmitting = true ∧ t.tick.readmitted = false ∧ OnlyChanges [.clock, .therm, .tick] [] s t)) ∧
  (∀ s : State, s.pow.global ≠ .off →
     let amount := s.lifeTenths * bandTenths (s.rdS Th.JUNCTION)
     ∃ t, exec .lifeMeterSample s = .next t ∧ t.clock = max s.clock (s.therm.lastLife + 100000000) ∧ t.therm.lastLife = t.clock ∧
       t.weightedMs = s.weightedMs + amount ∧ t.poweredMs = s.poweredMs + 100 ∧ t.rd Th.LIFE_WEIGHTED = t.weightedMs % 2 ^ 64 ∧
       t.rd Th.LIFE_POWERED = t.poweredMs / 1000 % 2 ^ 64 ∧ t.rd Th.LIFE_USED = lifeUsed t.weightedMs ∧
       t.rd Th.LIFE_RATE = roundDiv (amount * 65536) 100 ∧
       ((s.pow.global = .ready ∨ s.pow.global = .run) → t.profileMs (s.rd Tick.PROFILE) = s.profileMs (s.rd Tick.PROFILE) + 100) ∧
       OnlyChanges (.clock :: .therm :: sending)
         (Th.LIFE_WEIGHTED :: Th.LIFE_POWERED :: Th.LIFE_USED :: Th.LIFE_RATE :: (List.range 5).map Th.PROFILE_SECONDS ++ sendIds) s t)

/-! ## Observation (spec/19) -/

/-- R488 to R490: a read answers with the counters of its 1 to 16 groups at one instant, and changes no counter of theirs but SNAPSHOTS; an unknown
group is refused whole. A reset, which requires cell 63, leaves every counter and maximum of the group 0 but the exempt ones, and what its own reply
counts. -/
def Obligations.CountersAreReadAndReset : Prop :=
  ∀ (r : Req) (s : State),
    (∀ groups : List GroupRef, s.takes r 0x70 →
      ((groups = [] ∨ 16 < groups.length ∨ ∃ g ∈ groups, counterGroup g.group g.inst = []) →
        ∃ t, exec (.obsRead r groups) s = .next t ∧ t.replied r 0x70 Status.BAD_PARAM [] ∧ OnlyChanges [.out, .free, .sessions] txIds s t) ∧
      (groups ≠ [] → groups.length ≤ 16 → (∀ g ∈ groups, counterGroup g.group g.inst ≠ []) →
        ∃ t, exec (.obsRead r groups) s = .next t ∧ t.replied r 0x70 Status.OK (groups.flatMap s.snapshot) ∧
          t.rd Obs.SNAPSHOTS = countUp (s.rd Obs.SNAPSHOTS) groups.length ∧ OnlyChanges [.out, .free, .sessions] (Obs.SNAPSHOTS :: txIds) s t)) ∧
    ∀ g : GroupRef, s.takes r 0x73 →
      let ids := ((counterGroup g.group g.inst).map (idOf g.group g.inst)).filter fun id => !resetExempt.contains id
      (counterGroup g.group g.inst = [] →
        ∃ t, exec (.counterReset r g) s = .next t ∧ t.replied r 0x73 Status.BAD_PARAM [] ∧ OnlyChanges [.out, .free, .sessions] txIds s t) ∧
      (counterGroup g.group g.inst ≠ [] → s.owns r.sess 63 = false →
        ∃ t, exec (.counterReset r g) s = .next t ∧ t.replied r 0x73 Status.NOT_OWNER [] ∧ OnlyChanges [.out, .free, .sessions] txIds s t) ∧
      (counterGroup g.group g.inst ≠ [] → s.owns r.sess 63 = true →
        ∃ t, exec (.counterReset r g) s = .next t ∧ t.replied r 0x73 Status.OK [] ∧
          (∀ id ∈ ids, id ∉ txIds → id ≠ Obs.COUNTER_RESETS → t.rd id = 0) ∧
          t.rd Obs.COUNTER_RESETS = countUp (if Obs.COUNTER_RESETS ∈ ids then 0 else s.rd Obs.COUNTER_RESETS) 1 ∧
          OnlyChanges [.out, .free, .sessions] (Obs.COUNTER_RESETS :: ids ++ txIds) s t)

/-- R493: a subscription within the limits of its rate takes the place of the session's own one, or else a free one; where all four are others' it is
refused. It ends with OBS_UNSUBSCRIBE.

R491 to R493: a record goes to every subscription that takes its type, numbered, while there is room in the buffer of 64 KiB and in the rate; where
there is none it is dropped and counted. A LOST record with the number dropped, then a SYNC record, follow as soon as there is room, and a SYNC
record at every TRACE_SYNC_INTERVAL. A subscription sends 1 to 44 records in a datagram. -/
def Obligations.TraceReachesItsSubscribers : Prop :=
  (∀ (r : Req) (types rate : Nat) (s : State), r.sess ≠ 0 →
     (s.takes r 0x71 →
       ((rate < 10000 ∨ 50000000 < rate) →
         ∃ t, exec (.obsSubscribe r types rate) s = .next t ∧ t.replied r 0x71 Status.RANGE [] ∧ OnlyChanges [.out, .free, .sessions] txIds s t) ∧
       (10000 ≤ rate → rate ≤ 50000000 → (∀ d, 1 ≤ d → d ≤ 4 → (s.dest d).sess ≠ 0 ∧ (s.dest d).sess ≠ r.sess) →
         ∃ t, exec (.obsSubscribe r types rate) s = .next t ∧ t.replied r 0x71 Status.NO_RESOURCE [] ∧
           OnlyChanges [.out, .free, .sessions] txIds s t) ∧
       (10000 ≤ rate → rate ≤ 50000000 → (∃ d, 1 ≤ d ∧ d ≤ 4 ∧ ((s.dest d).sess = 0 ∨ (s.dest d).sess = r.sess)) →
         ∃ t d, exec (.obsSubscribe r types rate) s = .next t ∧ t.replied r 0x71 Status.OK [] ∧ 1 ≤ d ∧ d ≤ 4 ∧
           t.dest d = { sess := r.sess, types := types, rate := rate, credit := rate, creditAt := s.clock } ∧
           ((s.dest d).sess = r.sess ∨ (s.dest d).sess = 0 ∧ ∀ e, 1 ≤ e → e ≤ 4 → (s.dest e).sess ≠ r.sess) ∧
           (∀ e, e ≠ d → t.dest e = s.dest e) ∧ OnlyChanges [.obs, .out, .free, .sessions] txIds s t)) ∧
     (s.takes r 0x72 →
       ∃ t, exec (.obsUnsubscribe r) s = .next t ∧ t.replied r 0x72 Status.OK [] ∧ (∀ d, d ≠ 0 → (t.dest d).sess ≠ r.sess) ∧
         (∀ d, (s.dest d).sess ≠ r.sess → t.dest d = s.dest d) ∧ OnlyChanges [.obs, .out, .free, .sessions] txIds s t)) ∧
  (∀ (d : Fin 4) (s : State),
     let k := d.val + 1
     let x := s.dest k
     let time := bits s.deviceTime 33 2
     let credit := x.creditNow s.clock
     (∀ (type source : Nat) (pl : List Byte), s.traceRuns = true →
       ∃ t, exec (.traceRecordProduced type source pl) s = .next t ∧ t.rd Obs.TRACE_RECORDS = countUp (s.rd Obs.TRACE_RECORDS) 1 ∧
         OnlyChanges [.obs, .out] traceIds s t ∧
         (s.traceTakes k type source = false → t.dest k = x) ∧
         (s.traceTakes k type source = true → x.lost = 0 →
           (x.buffer.length < traceRoom → 32 ≤ credit →
             t.dest k = { x with
               seq := (x.seq + 1) % 65536, buffer := x.buffer ++ [traceRecord type source time x.seq pl], credit := credit - 32,
               creditAt := s.clock } ∧ t.rd (Obs.TRACE_DROPPED k) = s.rd (Obs.TRACE_DROPPED k)) ∧
           (traceRoom ≤ x.buffer.length ∨ credit < 32 →
             (t.dest k).buffer = x.buffer ∧ (t.dest k).lost = 1 ∧ (t.dest k).seq = (x.seq + 1) % 65536 ∧
               t.rd (Obs.TRACE_DROPPED k) = countUp (s.rd (Obs.TRACE_DROPPED k)) 1))) ∧
     (s.traceRuns = true →
       ∃ t, exec .traceSyncInterval s = .next t ∧ t.clock = max s.clock s.obs.nextSync ∧
         t.obs.nextSync = t.clock + s.rd Obs.TRACE_SYNC_INTERVAL * 1000000 ∧ t.rd Obs.TRACE_RECORDS = countUp (s.rd Obs.TRACE_RECORDS) 1 ∧
         (x.sess ≠ 0 → x.lost = 0 → x.buffer.length < traceRoom → 32 ≤ x.creditNow t.clock →
           (t.dest k).buffer = x.buffer ++ [traceRecord 0 0 (bits t.deviceTime 33 2) x.seq t.syncPayload]) ∧
         OnlyChanges [.clock, .obs, .out] traceIds s t) ∧
     (s.traceRuns = true → x.lost ≠ 0 → x.buffer.length + 2 ≤ traceRoom → 64 ≤ credit →
       ∃ t, exec (.traceLostRecord ⟨k, by omega⟩) s = .next t ∧ (t.dest k).lost = 0 ∧
         (t.dest k).buffer = x.buffer ++ [traceRecord 8 0 time x.seq (leBytes 4 x.lost), traceRecord 0 0 time ((x.seq + 1) % 65536) s.syncPayload] ∧
         OnlyChanges [.obs] [] s t) ∧
     ∀ (n : Nat) (u : Session), s.negorAnswers = true → s.session x.sess = some u → 0 < n → x.buffer ≠ [] →
       let m := min 44 (min n x.buffer.length)
       ∃ t, exec (.traceSubscriptionSend d n) s = .next t ∧ t.dest k = { x with buffer := x.buffer.drop m, dgram := (x.dgram + 1) % 2 ^ 32 } ∧
         (∃ mark, t.out = .nmp u.port u.peer mark true ⟨x.sess, x.dgram, 0x71, 0, (x.buffer.take m).flatten⟩ :: s.out) ∧ OnlyChanges [.obs, .out, .free] txIds s t)
end

