-- ==== Sys2Proof/Laws/Tables.lean ====
section
/-! SUPPORT. Tables: what each operation leaves at a key, and that each keeps the canonical form. -/

namespace Sys2Proof.Machine

variable {α : Type}

@[simp] theorem tfind_nil (k : Nat) : tfind ([] : Table α) k = none := rfl

@[simp] theorem tget_nil (k : Nat) (d : α) : tget ([] : Table α) k d = d := rfl

theorem tget_of_tfind {t : Table α} {k : Nat} {d a : α} (h : tfind t k = some a) : tget t k d = a := by
  simp [tget, h]

theorem tfind_eq_none {t : Table α} {k : Nat} (h : ∀ p ∈ t, p.1 ≠ k) : tfind t k = none := by
  induction t with
  | nil => rfl
  | cons p r ih =>
    obtain ⟨j, a⟩ := p
    have hj : j ≠ k := h _ (List.mem_cons_self ..)
    simp only [tfind, hj, if_false]
    exact ih fun q hq => h q (List.mem_cons_of_mem _ hq)

theorem tfind_append (t u : Table α) (k : Nat) : tfind (t ++ u) k = (tfind t k).or (tfind u k) := by
  induction t with
  | nil => simp
  | cons p r ih =>
    obtain ⟨j, a⟩ := p
    by_cases h : j = k <;> simp [tfind, h, ih]

theorem tfind_filter {t : Table α} {k : Nat} {f : Nat → Bool} (hf : f k = true) :
    tfind (t.filter fun p => f p.1) k = tfind t k := by
  induction t with
  | nil => rfl
  | cons p r ih =>
    obtain ⟨j, a⟩ := p
    by_cases h : j = k
    · subst h; simp [tfind, hf]
    · by_cases g : f j = true
      · simp [tfind, h, g, ih]
      · simp [tfind, h, g, ih]

theorem tfind_filter_none {t : Table α} {k : Nat} {f : Nat → Bool} (hf : f k = false) :
    tfind (t.filter fun p => f p.1) k = none := by
  apply tfind_eq_none
  rintro ⟨j, a⟩ hp rfl
  simp [hf] at hp

@[simp] theorem tfind_tins_same (t : Table α) (k : Nat) (a : α) : tfind (tins t k a) k = some a := by
  have h : tfind (t.filter fun p => decide (p.1 < k)) k = none :=
    tfind_filter_none (f := fun j => decide (j < k)) (by simp)
  simp [tins, tfind_append, h, tfind]

theorem tfind_tins_other {t : Table α} {j k : Nat} {a : α} (h : j ≠ k) : tfind (tins t k a) j = tfind t j := by
  rw [tins, tfind_append]
  rcases Nat.lt_or_gt_of_ne h with g | g
  · rw [tfind_filter (f := fun i => decide (i < k)) (by simpa using g)]
    have : tfind ((k, a) :: t.filter fun p => decide (k < p.1)) j = none := by
      rw [tfind, if_neg (Ne.symm h)]
      exact tfind_filter_none (f := fun i => decide (k < i)) (by simp; omega)
    simp [this]
  · rw [tfind_filter_none (f := fun i => decide (i < k)) (by simp; omega)]
    rw [tfind, if_neg (Ne.symm h), tfind_filter (f := fun i => decide (k < i)) (by simpa using g)]
    simp

@[simp] theorem tfind_tdel_same (t : Table α) (k : Nat) : tfind (tdel t k) k = none :=
  tfind_filter_none (f := fun j => decide (j ≠ k)) (by simp)

theorem tfind_tdel_other {t : Table α} {j k : Nat} (h : j ≠ k) : tfind (tdel t k) j = tfind t j :=
  tfind_filter (f := fun i => decide (i ≠ k)) (by simpa using h)

@[simp] theorem tget_tset_same [DecidableEq α] (t : Table α) (k : Nat) (d a : α) : tget (tset t k d a) k d = a := by
  unfold tset
  split
  · next h => simp [tget, h]
  · simp [tget]

theorem tget_tset_other [DecidableEq α] {t : Table α} {j k : Nat} {d a e : α} (h : j ≠ k) :
    tget (tset t k d a) j e = tget t j e := by
  unfold tset
  split
  · rw [tget, tfind_tdel_other h, tget]
  · rw [tget, tfind_tins_other h, tget]

theorem tfind_tset_other [DecidableEq α] {t : Table α} {j k : Nat} {d a : α} (h : j ≠ k) :
    tfind (tset t k d a) j = tfind t j := by
  unfold tset
  split
  · exact tfind_tdel_other h
  · exact tfind_tins_other h

theorem tkeys_filter_pairwise {t : Table α} (f : Nat × α → Bool) (h : (tkeys t).Pairwise (· < ·)) :
    (tkeys (t.filter f)).Pairwise (· < ·) :=
  h.sublist (List.filter_sublist.map _)

theorem tkeys_tins_pairwise {t : Table α} (k : Nat) (a : α) (h : (tkeys t).Pairwise (· < ·)) :
    (tkeys (tins t k a)).Pairwise (· < ·) := by
  have key : ∀ (l : List (Nat × α)) (f : Nat → Bool) j, j ∈ tkeys (l.filter fun p => f p.1) → f j = true := by
    intro l f j hj
    simp only [tkeys, List.mem_map, List.mem_filter] at hj
    obtain ⟨p, ⟨-, hp⟩, rfl⟩ := hj
    exact hp
  rw [tins, tkeys, List.map_append, List.map_cons, List.pairwise_append, List.pairwise_cons]
  refine ⟨tkeys_filter_pairwise _ h, ⟨fun j hj => ?_, tkeys_filter_pairwise _ h⟩, fun i hi j hj => ?_⟩
  · simpa using key t (fun i => decide (k < i)) j hj
  · have hi' : i < k := by simpa using key t (fun i => decide (i < k)) i hi
    rcases List.mem_cons.1 hj with rfl | hj
    · exact hi'
    · have : k < j := by simpa using key t (fun i => decide (k < i)) j hj
      omega

/-- A table stays in canonical form when an entry is removed. -/
theorem twf_tdel {t : Table α} {d : α} (k : Nat) (h : twf t d) : twf (tdel t k) d :=
  ⟨tkeys_filter_pairwise _ h.1, fun p hp => h.2 p (List.mem_of_mem_filter hp)⟩

/-- A table stays in canonical form when a value other than the default is listed. -/
theorem twf_tins {t : Table α} {d : α} (k : Nat) {a : α} (ha : a ≠ d) (h : twf t d) : twf (tins t k a) d := by
  refine ⟨tkeys_tins_pairwise k a h.1, fun p hp => ?_⟩
  rw [tins, List.mem_append, List.mem_cons] at hp
  rcases hp with hp | rfl | hp
  · exact h.2 p (List.mem_of_mem_filter hp)
  · exact ha
  · exact h.2 p (List.mem_of_mem_filter hp)

/-- A write keeps the canonical form. -/
theorem twf_tset [DecidableEq α] {t : Table α} {d : α} (k : Nat) (a : α) (h : twf t d) : twf (tset t k d a) d := by
  unfold tset
  split
  · exact twf_tdel k h
  · next ha => exact twf_tins k ha h

@[simp] theorem twf_nil (d : α) : twf ([] : Table α) d := ⟨List.Pairwise.nil, by simp⟩

theorem mem_tset [DecidableEq α] {t : Table α} {k : Nat} {d a : α} {p : Nat × α} (hp : p ∈ tset t k d a) :
    p ∈ t ∨ p = (k, a) ∧ a ≠ d := by
  unfold tset at hp
  split at hp
  · exact .inl (List.mem_of_mem_filter hp)
  · next ha =>
    rw [tins, List.mem_append, List.mem_cons] at hp
    rcases hp with hp | rfl | hp
    · exact .inl (List.mem_of_mem_filter hp)
    · exact .inr ⟨rfl, ha⟩
    · exact .inl (List.mem_of_mem_filter hp)

end Sys2Proof.Machine
end

