-- ==== Sys2Proof/Laws/Registers.lean ====
section
/-! SUPPORT. The parameter file: what one write does to every parameter, and that it keeps the canonical form. -/

namespace Sys2Proof.Machine

theorem PType.width_le (t : PType) : t.width ≤ 64 := by cases t <;> decide

/-- Every reset value of the catalogue fits its type. -/
def Param.resetFits (p : Param) : Bool := decide (p.reset < 2 ^ p.type.width ∨ p.type = .blob ∧ p.reset = 0)

theorem catalogue02_resetFits : catalogue02.all Param.resetFits = true := by decide
theorem catalogue01_resetFits : catalogue01.all Param.resetFits = true := by
  have h0 := Config.variant.isLt
  have h1 := Config.dieRevision.isLt
  have h2 := Config.serialNumber.isLt
  have h3 := Config.negorBuild.isLt
  simp [catalogue01, catalogue01_0, catalogue01_1, Param.resetFits, PType.width]
  omega
theorem catalogue10_resetFits : catalogue10.all Param.resetFits = true := by decide
theorem catalogue11_resetFits : catalogue11.all Param.resetFits = true := by decide
theorem catalogue12_resetFits : catalogue12.all Param.resetFits = true := by decide
theorem catalogue20_resetFits : catalogue20.all Param.resetFits = true := by decide
theorem catalogue21_resetFits : catalogue21.all Param.resetFits = true := by decide
theorem catalogue22_resetFits : catalogue22.all Param.resetFits = true := by decide
theorem catalogue28_resetFits : catalogue28.all Param.resetFits = true := by decide
theorem catalogue70_resetFits : catalogue70.all Param.resetFits = true := by decide
theorem catalogue30_resetFits : catalogue30.all Param.resetFits = true := by decide
theorem catalogue40_resetFits : catalogue40.all Param.resetFits = true := by decide
theorem catalogue41_resetFits : catalogue41.all Param.resetFits = true := by decide
theorem catalogue42_resetFits : catalogue42.all Param.resetFits = true := by decide
theorem catalogue43_resetFits : catalogue43.all Param.resetFits = true := by
  have h0 := Config.serialNumber.isLt
  simp [catalogue43, catalogue43_0, catalogue43_1, Param.resetFits, PType.width]
  omega
theorem catalogue50_resetFits : catalogue50.all Param.resetFits = true := by decide
theorem catalogue51_resetFits : catalogue51.all Param.resetFits = true := by decide
theorem catalogue60_resetFits : catalogue60.all Param.resetFits = true := by decide
theorem catalogue80_resetFits : catalogue80.all Param.resetFits = true := by
  have h0 := Config.dramOrganisation.isLt
  simp [catalogue80, catalogue80_0, catalogue80_1, catalogue80_2, Param.resetFits, PType.width]
  omega
theorem catalogue90_resetFits : catalogue90.all Param.resetFits = true := by decide
theorem catalogueA0_resetFits : catalogueA0.all Param.resetFits = true := by
  simp [catalogueA0, catalogueA0_0, catalogueA0_1, catalogueA0_2, Param.resetFits, PType.width, ratedLife]
  split <;> decide
theorem catalogueB0_resetFits : catalogueB0.all Param.resetFits = true := by decide

theorem catalogueOf_resetFits (g : Nat) : (catalogueOf g).all Param.resetFits = true := by
  unfold catalogueOf
  split
  · exact catalogue02_resetFits
  · exact catalogue01_resetFits
  · exact catalogue10_resetFits
  · exact catalogue11_resetFits
  · exact catalogue12_resetFits
  · exact catalogue20_resetFits
  · exact catalogue21_resetFits
  · exact catalogue22_resetFits
  · exact catalogue28_resetFits
  · exact catalogue70_resetFits
  · exact catalogue30_resetFits
  · exact catalogue40_resetFits
  · exact catalogue41_resetFits
  · exact catalogue42_resetFits
  · exact catalogue43_resetFits
  · exact catalogue50_resetFits
  · exact catalogue51_resetFits
  · exact catalogue60_resetFits
  · exact catalogue80_resetFits
  · exact catalogue90_resetFits
  · exact catalogueA0_resetFits
  · exact catalogueB0_resetFits
  · rfl

theorem mem_of_paramOf {id : Nat} {p : Param} (h : paramOf id = some p) : p ∈ catalogueOf (idGroup id) := by
  unfold paramOf at h
  split at h
  · exact List.mem_of_find?_eq_some h
  · cases h

theorem paramOf_resetFits {id : Nat} {p : Param} (h : paramOf id = some p) : p.resetFits = true :=
  List.all_eq_true.1 (catalogueOf_resetFits _) p (mem_of_paramOf h)

theorem idInst_lt (id : Nat) : idInst id < 256 := by unfold idInst bits; exact Nat.mod_lt _ (by decide)

/-- A reset value fits a register word. -/
theorem resetOf_lt {id : Nat} {p : Param} (h : paramOf id = some p) : resetOf p id < 2 ^ 64 := by
  have hi := idInst_lt id
  have hr : p.reset < 2 ^ 64 := by
    have := paramOf_resetFits h
    unfold Param.resetFits at this
    have hw := Nat.pow_le_pow_right (n := 2) (by decide) p.type.width_le
    rcases of_decide_eq_true this with g | ⟨-, g⟩ <;> omega
  have hm : (Config.macAddress (idInst id)).toNat < 2 ^ 64 :=
    Nat.lt_of_lt_of_le (Config.macAddress (idInst id)).isLt (by decide)
  have hg : ∀ (l : List Nat), (∀ x ∈ l, x < 2 ^ 64) → ∀ i, l.getD i 0 < 2 ^ 64 := by
    intro l hl i
    by_cases hlt : i < l.length
    · rw [List.getD_eq_getElem _ _ hlt]; exact hl _ (List.getElem_mem hlt)
    · rw [List.getD_eq_default _ _ (by omega)]; decide
  have h1 := hg [360, 300, 100, 30, 10] (by decide) (idInst id)
  have h2 := hg [4000, 20000, 2000, 200000] (by decide) (idInst id)
  unfold resetOf
  dsimp only
  repeat' split
  all_goals first | assumption | omega

/-- Every parameter that exists and can change reads, after a write, as the value written, cut to its type. -/
theorem rd_wr_same {s : State} {id v : Nat} {p : Param} (hp : paramOf id = some p) (hf : p.fixed = false) :
    (s.wr id v).rd id = v % 2 ^ p.type.width := by
  have hv : v % 2 ^ p.type.width < 2 ^ 64 :=
    Nat.lt_of_lt_of_le (Nat.mod_lt _ (Nat.two_pow_pos _)) (Nat.pow_le_pow_right (by decide) p.type.width_le)
  simp only [State.wr, hp, hf, State.rd, Bool.false_eq_true, if_false, tset]
  by_cases h : BitVec.ofNat 64 (v % 2 ^ p.type.width) = BitVec.ofNat 64 (resetOf p id)
  · have h' := congrArg BitVec.toNat h
    simp only [BitVec.toNat_ofNat, Nat.mod_eq_of_lt hv, Nat.mod_eq_of_lt (resetOf_lt hp)] at h'
    simp only [h', if_true, tfind_tdel_same, resetValue, hp]
  · simp only [if_neg h, tfind_tins_same, BitVec.toNat_ofNat, Nat.mod_eq_of_lt hv]

/-- Every other parameter reads as before. -/
theorem rd_wr_other {s : State} {i id v : Nat} (h : i ≠ id) : (s.wr id v).rd i = s.rd i := by
  unfold State.wr
  split
  · rfl
  · split
    · rfl
    · simp only [State.rd, tfind_tset_other h]

/-- A write of a parameter that is fixed, or of an ID that names none, changes nothing. -/
theorem wr_discarded {s : State} {id v : Nat} (h : ∀ p, paramOf id = some p → p.fixed = true) : s.wr id v = s := by
  unfold State.wr
  split
  · rfl
  · next p hp => simp [h p hp]

/-- A write keeps the parameter file in canonical form. -/
theorem wr_regsWf {s : State} (id v : Nat) (h : RegsWf s.regs) : RegsWf (s.wr id v).regs := by
  unfold State.wr
  split
  · exact h
  · next p hp =>
    split
    · exact h
    · next hf =>
      refine ⟨?_, fun e he => ?_⟩
      · simp only [tset]
        split
        · exact tkeys_filter_pairwise _ h.1
        · exact tkeys_tins_pairwise _ _ h.1
      · rcases mem_tset he with g | ⟨rfl, hne⟩
        · exact h.2 e g
        · refine ⟨p, hp, by simpa using hf, ?_, hne⟩
          have hlt : v % 2 ^ p.type.width < 2 ^ p.type.width := Nat.mod_lt _ (Nat.two_pow_pos _)
          have h64 := Nat.pow_le_pow_right (n := 2) (by decide) p.type.width_le
          rw [BitVec.toNat_ofNat, Nat.mod_eq_of_lt (by omega)]
          exact hlt

/-- In a canonical file a parameter reads within its type, or as its reset value. -/
theorem rd_lt {s : State} {id : Nat} {p : Param} (h : RegsWf s.regs) (hp : paramOf id = some p) :
    s.rd id < 2 ^ p.type.width ∨ s.rd id = resetOf p id := by
  unfold State.rd
  split
  · next w hw =>
    left
    have : ∀ (t : Table Word), tfind t id = some w → (id, w) ∈ t := by
      intro t
      induction t with
      | nil => intro g; cases g
      | cons q r ih =>
        obtain ⟨j, a⟩ := q
        intro g
        by_cases hj : j = id
        · simp only [tfind, hj, if_true, Option.some.injEq] at g
          subst hj; subst g; exact List.mem_cons_self ..
        · simp only [tfind, hj, if_false] at g
          exact List.mem_cons_of_mem _ (ih g)
    obtain ⟨p', hp', -, hlt, -⟩ := h.2 _ (this _ hw)
    simp only [hp, Option.some.injEq] at hp'
    subst hp'; exact hlt
  · right; simp [resetValue, hp]

end Sys2Proof.Machine
end

