-- ==== Sys2Proof/Laws/Frames.lean ====
section
/-! SUPPORT. Frames: how they compose, and the frame of every shared operation. -/

namespace Sys2Proof.Machine

theorem Part.same_refl (s : State) (p : Part) : p.same s s := by
  cases p <;> simp [Part.same]

theorem Part.same_trans {s t u : State} {p : Part} (h : p.same s t) (g : p.same t u) : p.same s u := by
  cases p <;> simp_all [Part.same]

theorem OnlyChanges.refl (s : State) : OnlyChanges [] [] s s := ⟨rfl, fun p _ => p.same_refl s, fun _ _ => rfl⟩

theorem OnlyChanges.mono {ps qs : List Part} {ids js : List Nat} {s t : State} (h : OnlyChanges ps ids s t)
    (hp : ∀ p ∈ ps, p ∈ qs) (hi : ∀ i ∈ ids, i ∈ js) : OnlyChanges qs js s t :=
  ⟨h.1, fun p np => h.2.1 p fun m => np (hp p m), fun i ni => h.2.2 i fun m => ni (hi i m)⟩

theorem OnlyChanges.trans {ps qs : List Part} {ids js : List Nat} {s t u : State} (h : OnlyChanges ps ids s t)
    (g : OnlyChanges qs js t u) : OnlyChanges (ps ++ qs) (ids ++ js) s u :=
  ⟨g.1.trans h.1, fun p np => Part.same_trans (h.2.1 p fun m => np (List.mem_append_left _ m)) (g.2.1 p fun m => np (List.mem_append_right _ m)),
    fun i ni => (g.2.2 i fun m => ni (List.mem_append_right _ m)).trans (h.2.2 i fun m => ni (List.mem_append_left _ m))⟩

/-- Two steps within one frame. -/
theorem OnlyChanges.then {ps : List Part} {ids : List Nat} {s t u : State} (h : OnlyChanges ps ids s t) (g : OnlyChanges ps ids t u) :
    OnlyChanges ps ids s u :=
  (h.trans g).mono (fun _ m => (List.mem_append.1 m).elim id id) (fun _ m => (List.mem_append.1 m).elim id id)

theorem OnlyChanges.foldl {α : Type} {ps : List Part} {ids : List Nat} {z s : State} {f : State → α → State} (l : List α)
    (h : OnlyChanges ps ids z s) (hf : ∀ t x, x ∈ l → OnlyChanges ps ids t (f t x)) : OnlyChanges ps ids z (l.foldl f s) := by
  induction l generalizing s with
  | nil => exact h
  | cons a r ih =>
    exact ih (h.then (hf s a (List.mem_cons_self ..))) fun t x m => hf t x (List.mem_cons_of_mem _ m)

/-! ## Registers -/

/-- A write changes one parameter and nothing else. -/
theorem wr_only (s : State) (id v : Nat) : OnlyChanges [] [id] s (s.wr id v) := by
  refine ⟨?_, fun p _ => ?_, fun i ni => rd_wr_other (by simpa using ni)⟩
  · unfold State.wr; split
    · rfl
    · split <;> rfl
  · unfold State.wr; split
    · exact p.same_refl s
    · split
      · exact p.same_refl s
      · cases p <;> simp [Part.same, State.rdBlob, State.lane, State.port, State.trig, State.ingest, State.ticketing, State.exposure,
          State.bus, State.ctxSt, State.head, State.eth, State.stream, State.sync, State.ringPort, State.aud, State.family]

theorem upd_only (s : State) (id : Nat) (f : Nat → Nat) : OnlyChanges [] [id] s (s.upd id f) := wr_only _ _ _

theorem countBy_only (s : State) (id n : Nat) : OnlyChanges [] [id] s (s.countBy id n) := wr_only _ _ _

theorem count_only (s : State) (id : Nat) : OnlyChanges [] [id] s (s.count id) := wr_only _ _ _

theorem addBytes_only (s : State) (id n : Nat) : OnlyChanges [] [id] s (s.addBytes id n) := wr_only _ _ _

theorem raise_only (s : State) (id v : Nat) : OnlyChanges [] [id] s (s.raise id v) := wr_only _ _ _

theorem next32_only (s : State) (id : Nat) : OnlyChanges [] [id] s (s.next32 id) := wr_only _ _ _

theorem wrAll_only (s : State) (l : List (Nat × Nat)) : OnlyChanges [] (l.map Prod.fst) s (s.wrAll l) := by
  unfold State.wrAll
  refine OnlyChanges.foldl l (OnlyChanges.refl s |>.mono (by simp) (by simp)) fun t p m => ?_
  exact (wr_only t p.1 p.2).mono (by simp) fun i hi => by
    obtain rfl := List.mem_singleton.1 hi
    exact List.mem_map_of_mem m

/-! ## Instances -/

@[simp] theorem lane_setLane_same (s : State) (k : Nat) (x : LaneSt) : (s.setLane k x).lane k = x := tget_tset_same _ k _ x

theorem lane_setLane_other {s : State} {j k : Nat} {x : LaneSt} (h : j ≠ k) : (s.setLane k x).lane j = s.lane j := tget_tset_other h

theorem setLane_only (s : State) (k : Nat) (x : LaneSt) : OnlyChanges [.lane k] [] s (s.setLane k x) := by
  refine ⟨rfl, fun p hp => ?_, fun _ _ => rfl⟩
  cases p with
  | lane j => exact tget_tset_other fun e => hp (by simp [e])
  | _ => simp [Part.same, State.setLane, State.rdBlob, State.port, State.trig, State.ingest, State.ticketing, State.exposure, State.bus, State.ctxSt, State.head, State.eth, State.stream, State.sync, State.ringPort, State.aud, State.family]

@[simp] theorem port_setPort_same (s : State) (k : Nat) (x : PortSt) : (s.setPort k x).port k = x := tget_tset_same _ k _ x

theorem port_setPort_other {s : State} {j k : Nat} {x : PortSt} (h : j ≠ k) : (s.setPort k x).port j = s.port j := tget_tset_other h

theorem setPort_only (s : State) (k : Nat) (x : PortSt) : OnlyChanges [.port k] [] s (s.setPort k x) := by
  refine ⟨rfl, fun p hp => ?_, fun _ _ => rfl⟩
  cases p with
  | port j => exact tget_tset_other fun e => hp (by simp [e])
  | _ => simp [Part.same, State.setPort, State.rdBlob, State.lane, State.trig, State.ingest, State.ticketing, State.exposure, State.bus, State.ctxSt, State.head, State.eth, State.stream, State.sync, State.ringPort, State.aud, State.family]

@[simp] theorem trig_setTrig_same (s : State) (k : Nat) (x : TrigSt) : (s.setTrig k x).trig k = x := tget_tset_same _ k _ x

theorem trig_setTrig_other {s : State} {j k : Nat} {x : TrigSt} (h : j ≠ k) : (s.setTrig k x).trig j = s.trig j := tget_tset_other h

theorem setTrig_only (s : State) (k : Nat) (x : TrigSt) : OnlyChanges [.trig k] [] s (s.setTrig k x) := by
  refine ⟨rfl, fun p hp => ?_, fun _ _ => rfl⟩
  cases p with
  | trig j => exact tget_tset_other fun e => hp (by simp [e])
  | _ => simp [Part.same, State.setTrig, State.rdBlob, State.lane, State.port, State.ingest, State.ticketing, State.exposure, State.bus, State.ctxSt, State.head, State.eth, State.stream, State.sync, State.ringPort, State.aud, State.family]

@[simp] theorem ingest_setIngest_same (s : State) (k : Nat) (x : IngSt) : (s.setIngest k x).ingest k = x := tget_tset_same _ k _ x

theorem ingest_setIngest_other {s : State} {j k : Nat} {x : IngSt} (h : j ≠ k) : (s.setIngest k x).ingest j = s.ingest j := tget_tset_other h

theorem setIngest_only (s : State) (k : Nat) (x : IngSt) : OnlyChanges [.ingest k] [] s (s.setIngest k x) := by
  refine ⟨rfl, fun p hp => ?_, fun _ _ => rfl⟩
  cases p with
  | ingest j => exact tget_tset_other fun e => hp (by simp [e])
  | _ => simp [Part.same, State.setIngest, State.rdBlob, State.lane, State.port, State.trig, State.ticketing, State.exposure, State.bus, State.ctxSt, State.head, State.eth, State.stream, State.sync, State.ringPort, State.aud, State.family]

@[simp] theorem ticketing_setTicketing_same (s : State) (k : Nat) (x : TicketSt) : (s.setTicketing k x).ticketing k = x := tget_tset_same _ k _ x

theorem ticketing_setTicketing_other {s : State} {j k : Nat} {x : TicketSt} (h : j ≠ k) : (s.setTicketing k x).ticketing j = s.ticketing j := tget_tset_other h

theorem setTicketing_only (s : State) (k : Nat) (x : TicketSt) : OnlyChanges [.ticketing k] [] s (s.setTicketing k x) := by
  refine ⟨rfl, fun p hp => ?_, fun _ _ => rfl⟩
  cases p with
  | ticketing j => exact tget_tset_other fun e => hp (by simp [e])
  | _ => simp [Part.same, State.setTicketing, State.rdBlob, State.lane, State.port, State.trig, State.ingest, State.exposure, State.bus, State.ctxSt, State.head, State.eth, State.stream, State.sync, State.ringPort, State.aud, State.family]

@[simp] theorem exposure_setExposure_same (s : State) (k : Nat) (x : ExpSt) : (s.setExposure k x).exposure k = x := tget_tset_same _ k _ x

theorem exposure_setExposure_other {s : State} {j k : Nat} {x : ExpSt} (h : j ≠ k) : (s.setExposure k x).exposure j = s.exposure j := tget_tset_other h

theorem setExposure_only (s : State) (k : Nat) (x : ExpSt) : OnlyChanges [.exposure k] [] s (s.setExposure k x) := by
  refine ⟨rfl, fun p hp => ?_, fun _ _ => rfl⟩
  cases p with
  | exposure j => exact tget_tset_other fun e => hp (by simp [e])
  | _ => simp [Part.same, State.setExposure, State.rdBlob, State.lane, State.port, State.trig, State.ingest, State.ticketing, State.bus, State.ctxSt, State.head, State.eth, State.stream, State.sync, State.ringPort, State.aud, State.family]

@[simp] theorem bus_setBus_same (s : State) (k : Nat) (x : BusSt) : (s.setBus k x).bus k = x := tget_tset_same _ k _ x

theorem bus_setBus_other {s : State} {j k : Nat} {x : BusSt} (h : j ≠ k) : (s.setBus k x).bus j = s.bus j := tget_tset_other h

theorem setBus_only (s : State) (k : Nat) (x : BusSt) : OnlyChanges [.bus k] [] s (s.setBus k x) := by
  refine ⟨rfl, fun p hp => ?_, fun _ _ => rfl⟩
  cases p with
  | bus j => exact tget_tset_other fun e => hp (by simp [e])
  | _ => simp [Part.same, State.setBus, State.rdBlob, State.lane, State.port, State.trig, State.ingest, State.ticketing, State.exposure, State.ctxSt, State.head, State.eth, State.stream, State.sync, State.ringPort, State.aud, State.family]

@[simp] theorem ctxSt_setCtx_same (s : State) (k : Nat) (x : CtxSt) : (s.setCtx k x).ctxSt k = x := tget_tset_same _ k _ x

theorem ctxSt_setCtx_other {s : State} {j k : Nat} {x : CtxSt} (h : j ≠ k) : (s.setCtx k x).ctxSt j = s.ctxSt j := tget_tset_other h

theorem setCtx_only (s : State) (k : Nat) (x : CtxSt) : OnlyChanges [.ctx k] [] s (s.setCtx k x) := by
  refine ⟨rfl, fun p hp => ?_, fun _ _ => rfl⟩
  cases p with
  | ctx j => exact tget_tset_other fun e => hp (by simp [e])
  | _ => simp [Part.same, State.setCtx, State.rdBlob, State.lane, State.port, State.trig, State.ingest, State.ticketing, State.exposure, State.bus, State.head, State.eth, State.stream, State.sync, State.ringPort, State.aud, State.family]

@[simp] theorem head_setHead_same (s : State) (k : Nat) (x : HeadSt) : (s.setHead k x).head k = x := tget_tset_same _ k _ x

theorem head_setHead_other {s : State} {j k : Nat} {x : HeadSt} (h : j ≠ k) : (s.setHead k x).head j = s.head j := tget_tset_other h

theorem setHead_only (s : State) (k : Nat) (x : HeadSt) : OnlyChanges [.head k] [] s (s.setHead k x) := by
  refine ⟨rfl, fun p hp => ?_, fun _ _ => rfl⟩
  cases p with
  | head j => exact tget_tset_other fun e => hp (by simp [e])
  | _ => simp [Part.same, State.setHead, State.rdBlob, State.lane, State.port, State.trig, State.ingest, State.ticketing, State.exposure, State.bus, State.ctxSt, State.eth, State.stream, State.sync, State.ringPort, State.aud, State.family]

@[simp] theorem eth_setEth_same (s : State) (k : Nat) (x : EthSt) : (s.setEth k x).eth k = x := tget_tset_same _ k _ x

theorem eth_setEth_other {s : State} {j k : Nat} {x : EthSt} (h : j ≠ k) : (s.setEth k x).eth j = s.eth j := tget_tset_other h

theorem setEth_only (s : State) (k : Nat) (x : EthSt) : OnlyChanges [.eth k] [] s (s.setEth k x) := by
  refine ⟨rfl, fun p hp => ?_, fun _ _ => rfl⟩
  cases p with
  | eth j => exact tget_tset_other fun e => hp (by simp [e])
  | _ => simp [Part.same, State.setEth, State.rdBlob, State.lane, State.port, State.trig, State.ingest, State.ticketing, State.exposure, State.bus, State.ctxSt, State.head, State.stream, State.sync, State.ringPort, State.aud, State.family]

@[simp] theorem stream_setStream_same (s : State) (k : Nat) (x : StreamSt) : (s.setStream k x).stream k = x := tget_tset_same _ k _ x

theorem stream_setStream_other {s : State} {j k : Nat} {x : StreamSt} (h : j ≠ k) : (s.setStream k x).stream j = s.stream j := tget_tset_other h

theorem setStream_only (s : State) (k : Nat) (x : StreamSt) : OnlyChanges [.stream k] [] s (s.setStream k x) := by
  refine ⟨rfl, fun p hp => ?_, fun _ _ => rfl⟩
  cases p with
  | stream j => exact tget_tset_other fun e => hp (by simp [e])
  | _ => simp [Part.same, State.setStream, State.rdBlob, State.lane, State.port, State.trig, State.ingest, State.ticketing, State.exposure, State.bus, State.ctxSt, State.head, State.eth, State.sync, State.ringPort, State.aud, State.family]

@[simp] theorem sync_setSync_same (s : State) (k : Nat) (x : FsyncSt) : (s.setSync k x).sync k = x := tget_tset_same _ k _ x

theorem sync_setSync_other {s : State} {j k : Nat} {x : FsyncSt} (h : j ≠ k) : (s.setSync k x).sync j = s.sync j := tget_tset_other h

theorem setSync_only (s : State) (k : Nat) (x : FsyncSt) : OnlyChanges [.sync k] [] s (s.setSync k x) := by
  refine ⟨rfl, fun p hp => ?_, fun _ _ => rfl⟩
  cases p with
  | sync j => exact tget_tset_other fun e => hp (by simp [e])
  | _ => simp [Part.same, State.setSync, State.rdBlob, State.lane, State.port, State.trig, State.ingest, State.ticketing, State.exposure, State.bus, State.ctxSt, State.head, State.eth, State.stream, State.ringPort, State.aud, State.family]

@[simp] theorem ringPort_setRingPort_same (s : State) (k : Nat) (x : RingPort) : (s.setRingPort k x).ringPort k = x := tget_tset_same _ k _ x

theorem ringPort_setRingPort_other {s : State} {j k : Nat} {x : RingPort} (h : j ≠ k) : (s.setRingPort k x).ringPort j = s.ringPort j := tget_tset_other h

theorem setRingPort_only (s : State) (k : Nat) (x : RingPort) : OnlyChanges [.ringPort k] [] s (s.setRingPort k x) := by
  refine ⟨rfl, fun p hp => ?_, fun _ _ => rfl⟩
  cases p with
  | ringPort j => exact tget_tset_other fun e => hp (by simp [e])
  | _ => simp [Part.same, State.setRingPort, State.rdBlob, State.lane, State.port, State.trig, State.ingest, State.ticketing, State.exposure, State.bus, State.ctxSt, State.head, State.eth, State.stream, State.sync, State.aud, State.family]

@[simp] theorem aud_setAud_same (s : State) (k : Nat) (x : AudSt) : (s.setAud k x).aud k = x := tget_tset_same _ k _ x

theorem aud_setAud_other {s : State} {j k : Nat} {x : AudSt} (h : j ≠ k) : (s.setAud k x).aud j = s.aud j := tget_tset_other h

theorem setAud_only (s : State) (k : Nat) (x : AudSt) : OnlyChanges [.aud k] [] s (s.setAud k x) := by
  refine ⟨rfl, fun p hp => ?_, fun _ _ => rfl⟩
  cases p with
  | aud j => exact tget_tset_other fun e => hp (by simp [e])
  | _ => simp [Part.same, State.setAud, State.rdBlob, State.lane, State.port, State.trig, State.ingest, State.ticketing, State.exposure, State.bus, State.ctxSt, State.head, State.eth, State.stream, State.sync, State.ringPort, State.family]

@[simp] theorem family_setFamily_same (s : State) (k : Nat) (x : FsyncSt) : (s.setFamily k x).family k = x := tget_tset_same _ k _ x

theorem family_setFamily_other {s : State} {j k : Nat} {x : FsyncSt} (h : j ≠ k) : (s.setFamily k x).family j = s.family j := tget_tset_other h

theorem setFamily_only (s : State) (k : Nat) (x : FsyncSt) : OnlyChanges [.family k] [] s (s.setFamily k x) := by
  refine ⟨rfl, fun p hp => ?_, fun _ _ => rfl⟩
  cases p with
  | family j => exact tget_tset_other fun e => hp (by simp [e])
  | _ => simp [Part.same, State.setFamily, State.rdBlob, State.lane, State.port, State.trig, State.ingest, State.ticketing, State.exposure, State.bus, State.ctxSt, State.head, State.eth, State.stream, State.sync, State.ringPort, State.aud]

/-! ## Other fields of the state -/

theorem wrBlob_only (s : State) (id : Nat) (b : List Byte) : OnlyChanges [.blob id] [] s (s.wrBlob id b) := by
  refine ⟨rfl, fun p hp => ?_, fun _ _ => rfl⟩
  cases p with
  | blob j => exact tget_tset_other fun e => hp (by simp [e])
  | _ => simp [Part.same, State.wrBlob, State.lane, State.port, State.trig, State.ingest, State.ticketing, State.exposure, State.bus, State.ctxSt, State.head, State.eth, State.stream, State.sync, State.ringPort, State.aud, State.family]

@[simp] theorem rdBlob_wrBlob_same (s : State) (id : Nat) (b : List Byte) : (s.wrBlob id b).rdBlob id = b := tget_tset_same _ id _ b

theorem rdBlob_wrBlob_other {s : State} {i id : Nat} {b : List Byte} (h : i ≠ id) : (s.wrBlob id b).rdBlob i = s.rdBlob i :=
  tget_tset_other h

theorem at_only (s : State) (due : Nat) : OnlyChanges [.clock] [] s (s.at due) := by
  refine ⟨rfl, fun p hp => ?_, fun _ _ => rfl⟩
  cases p with
  | clock => simp at hp
  | _ => simp [Part.same, State.at, State.rdBlob, State.lane, State.port, State.trig, State.ingest, State.ticketing, State.exposure, State.bus, State.ctxSt, State.head, State.eth, State.stream, State.sync, State.ringPort, State.aud, State.family]

theorem fire_only (s : State) (src : Nat) : OnlyChanges [.firings] [] s (s.fire src) := by
  refine ⟨rfl, fun p hp => ?_, fun _ _ => rfl⟩
  cases p with
  | firings => simp at hp
  | _ => simp [Part.same, State.fire, State.rdBlob, State.lane, State.port, State.trig, State.ingest, State.ticketing, State.exposure, State.bus, State.ctxSt, State.head, State.eth, State.stream, State.sync, State.ringPort, State.aud, State.family]

/-- The firing stands recorded with the clock, after the earlier ones (R447). -/
@[simp] theorem fire_firings (s : State) (src : Nat) : (s.fire src).firings = s.firings ++ [(src, s.clock)] := rfl

theorem draw_only (s : State) : OnlyChanges [.free] [] s s.draw.2 := by
  refine ⟨rfl, fun p hp => ?_, fun _ _ => rfl⟩
  cases p with
  | free => simp at hp
  | _ => simp [Part.same, State.draw, State.rdBlob, State.lane, State.port, State.trig, State.ingest, State.ticketing, State.exposure, State.bus, State.ctxSt, State.head, State.eth, State.stream, State.sync, State.ringPort, State.aud, State.family]

theorem setSession_only (s : State) (k : Nat) (x : Session) : OnlyChanges [.sessions] [] s (s.setSession k x) := by
  refine ⟨rfl, fun p hp => ?_, fun _ _ => rfl⟩
  cases p with
  | sessions => simp at hp
  | _ => simp [Part.same, State.setSession, State.rdBlob, State.lane, State.port, State.trig, State.ingest, State.ticketing, State.exposure, State.bus, State.ctxSt, State.head, State.eth, State.stream, State.sync, State.ringPort, State.aud, State.family]

@[simp] theorem session_setSession_same (s : State) (k : Nat) (x : Session) : (s.setSession k x).session k = some x :=
  tfind_tins_same _ k x

theorem session_setSession_other {s : State} {j k : Nat} {x : Session} (h : j ≠ k) : (s.setSession k x).session j = s.session j :=
  tfind_tins_other h

theorem setCell_only (s : State) (k : Nat) (x : Cell) : OnlyChanges [.cells] [] s (s.setCell k x) := by
  refine ⟨rfl, fun p hp => ?_, fun _ _ => rfl⟩
  cases p with
  | cells => simp at hp
  | _ => simp [Part.same, State.setCell, State.rdBlob, State.lane, State.port, State.trig, State.ingest, State.ticketing, State.exposure, State.bus, State.ctxSt, State.head, State.eth, State.stream, State.sync, State.ringPort, State.aud, State.family]

@[simp] theorem cell_setCell_same (s : State) (k : Nat) (x : Cell) : (s.setCell k x).cell k = x := tget_tset_same _ k _ x

theorem cell_setCell_other {s : State} {j k : Nat} {x : Cell} (h : j ≠ k) : (s.setCell k x).cell j = s.cell j := tget_tset_other h

/-! ## What leaves the device -/

theorem txFrames_only (s : State) (p n : Nat) : OnlyChanges [.free] txIds s (s.txFrames (p % 2) n) := by
  have h : p % 2 = 0 ∨ p % 2 = 1 := by omega
  refine (((draw_only s).trans (countBy_only s.draw.2 (Eth.TX_FRAMES (p % 2)) n)).trans (addBytes_only _ (Eth.TX_BYTES (p % 2)) _)).mono
    (by simp) ?_
  rcases h with h | h <;> simp [h, txIds]

/-- A change of the record of what left the device alone. -/
theorem setOut_only (s : State) (o : List Output) : OnlyChanges [.out] [] s { s with out := o } := by
  refine ⟨rfl, fun p hp => ?_, fun _ _ => rfl⟩
  cases p with
  | out => simp at hp
  | _ => simp [Part.same, State.rdBlob, State.lane, State.port, State.trig, State.ingest, State.ticketing, State.exposure, State.bus, State.ctxSt, State.head, State.eth, State.stream, State.sync, State.ringPort, State.aud, State.family]

theorem emit_only (s : State) (o : Output) : OnlyChanges [.out, .free] txIds s (s.emit o) := by
  unfold State.emit
  dsimp only
  split
  · next p n _ => exact ((setOut_only s _).trans (txFrames_only _ p n)).mono (by simp) (by simp)
  · exact (setOut_only s _).mono (by simp) (by simp)

/-- An output of the block stands first in the record of what left the device. -/
@[simp] theorem emit_out (s : State) (o : Output) : (s.emit o).out = o :: s.out := by
  unfold State.emit
  dsimp only
  split
  · next p n _ => exact (txFrames_only _ p n).2.1 .out (by simp)
  · rfl

/-- An output that is no message on Ethernet moves no counter. -/
theorem emit_quiet {s : State} {o : Output} (h : o.frames = none) : s.emit o = { s with out := o :: s.out } := by
  simp [State.emit, h]

theorem emitQuiet_only (s : State) {o : Output} (h : o.frames = none) : OnlyChanges [.out] [] s (s.emit o) := by
  rw [emit_quiet h]; exact setOut_only s _

theorem pin_only (s : State) (n : String) (l : Nat) : OnlyChanges [.out] [] s (s.pin n l) := emitQuiet_only s rfl

theorem setDest_only (s : State) (d : Nat) (x : TraceDest) :
    OnlyChanges [.obs] [] s { s with obs := { s.obs with dests := tset s.obs.dests d {} x } } := by
  refine ⟨rfl, fun p hp => ?_, fun _ _ => rfl⟩
  cases p with
  | obs => simp at hp
  | _ => simp [Part.same, State.rdBlob, State.lane, State.port, State.trig, State.ingest, State.ticketing, State.exposure, State.bus, State.ctxSt, State.head, State.eth, State.stream, State.sync, State.ringPort, State.aud, State.family]

theorem drainPort_only (s : State) : OnlyChanges [.out, .obs] [] s s.drainPort := by
  unfold State.drainPort
  dsimp only
  split
  · exact (OnlyChanges.refl s).mono (by simp) (by simp)
  · refine ((OnlyChanges.foldl (ps := [.out]) (ids := []) _ ((OnlyChanges.refl s).mono (by simp) (by simp))
      fun t b _ => emitQuiet_only (o := .trace 0 b) t rfl).trans (setDest_only _ 0 _)).mono (by simp) (by simp)

theorem traceTo_only (s : State) (d type source : Nat) (pl : List Byte) (hd : d < 5) :
    OnlyChanges [.out, .obs] traceIds s (s.traceTo d type source pl) := by
  have h1 : OnlyChanges [.out, .obs] [] s (if d = 0 then s.drainPort else s) := by
    split
    · exact drainPort_only s
    · exact (OnlyChanges.refl s).mono (by simp) (by simp)
  unfold State.traceTo
  split
  · dsimp only
    generalize (if d = 0 then s.drainPort else s) = s1 at h1
    split
    · refine ((h1.trans (setDest_only s1 d _)).trans (count_only _ _)).mono (by simp) ?_
      have : d = 0 ∨ d = 1 ∨ d = 2 ∨ d = 3 ∨ d = 4 := by omega
      rcases this with rfl | rfl | rfl | rfl | rfl <;> simp [traceIds]
    · exact (h1.trans (setDest_only s1 d _)).mono (by simp) (by simp)
  · exact (OnlyChanges.refl s).mono (by simp) (by simp)

/-- A trace record moves the trace destinations and the counters of trace records (R491). -/
theorem trace_only (s : State) (type source : Nat) (pl : List Byte) :
    OnlyChanges [.out, .obs] traceIds s (s.trace type source pl) :=
  OnlyChanges.foldl _ ((count_only s Obs.TRACE_RECORDS).mono (by simp) (by simp [traceIds]))
    fun t d hd => traceTo_only t d type source pl (by simpa using hd)

/-- A NOTIFY to one session moves that session, the record of what left the device and the counters of messages sent (R91, R92). -/
theorem notifyTo_only (s : State) (sess cls code : Nat) (body : List Byte) :
    OnlyChanges [.sessions, .out, .free] (Sys.NOTIFY_DROPPED :: txIds) s (s.notifyTo sess cls code body) := by
  unfold State.notifyTo
  split
  · exact (OnlyChanges.refl s).mono (by simp) (by simp)
  · dsimp only
    split
    · exact (((setSession_only s sess _).trans (emit_only _ _)).trans (count_only _ _)).mono (by simp) (by decide)
    · exact ((setSession_only s sess _).trans (emit_only _ _)).mono (by simp) (by decide)

/-- A NOTIFY moves the sessions, the trace destinations, the record of what left the device, and the counters of all that (R91). -/
theorem notify_only (s : State) (cls code : Nat) (body : List Byte) : OnlyChanges sending sendIds s (s.notify cls code body) := by
  unfold State.notify
  refine OnlyChanges.foldl _ ((trace_only s 4 cls _).mono (by simp [sending]) (by decide)) fun t p _ => ?_
  split
  · exact (notifyTo_only t p.1 cls code body).mono (by simp [sending]) (by decide)
  · exact (OnlyChanges.refl t).mono (by simp) (by simp)

/-- A reply moves its session, the record of what left the device, and the counters of frames sent (R70, R74). -/
theorem reply_only (s : State) (r : Req) (op st : Nat) (pl : List Byte) :
    OnlyChanges [.out, .free, .sessions] txIds s (s.reply r op st pl) := by
  unfold State.reply
  dsimp only
  split
  · exact (emit_only s _).mono (by simp) (by simp)
  · exact ((emit_only s _).trans (setSession_only _ _ _)).mono (by simp) (by simp)

/-- The reply stands first in the record of what left the device. -/
@[simp] theorem reply_out (s : State) (r : Req) (op st : Nat) (pl : List Byte) :
    (s.reply r op st pl).out = .nmp r.port r.peer (s.control r.port 0) true ⟨r.sess, r.seq, op, st, pl⟩ :: s.out := by
  unfold State.reply
  dsimp only
  split
  · simp [State.sendNmp]
  · exact ((setSession_only _ r.sess _).2.1 .out (by simp)).trans (emit_out s _)

theorem setGlobal_only (s : State) (g : GState) : OnlyChanges (.pow :: sending) sendIds s (s.setGlobal g) := by
  have h1 : OnlyChanges [.pow] [] s { s with pow := { s.pow with global := g } } := by
    refine ⟨rfl, fun p hp => ?_, fun _ _ => rfl⟩
    cases p with
    | pow => simp at hp
    | _ => simp [Part.same, State.rdBlob, State.lane, State.port, State.trig, State.ingest, State.ticketing, State.exposure, State.bus, State.ctxSt, State.head, State.eth, State.stream, State.sync, State.ringPort, State.aud, State.family]
  unfold State.setGlobal
  split
  · exact (OnlyChanges.refl s).mono (by simp) (by simp)
  · dsimp only
    split
    · exact h1.mono (by simp) (by simp)
    · have h2 := (h1.trans (trace_only _ 5 0 [BitVec.ofNat 8 g.code, BitVec.ofNat 8 s.pow.global.code])).mono
        (qs := .pow :: sending) (js := sendIds) (by simp [sending]) (by decide)
      split
      · exact h2
      · exact h2.then ((notify_only _ 0 1 _).mono (by simp [sending]) (by simp))

end Sys2Proof.Machine
end

