-- ==== Sys2Proof/Laws/Memory.lean ====
section
/-! SUPPORT. The buffers' memory: read after write, and that every memory operation keeps the canonical form. -/

namespace Sys2Proof.Machine

@[simp] theorem memRead_memWrite_same (m : List Host.Cell) (a : Nat) (b : Byte) : memRead (memWrite m a b) a = b :=
  tget_tset_same m a memBlank b

theorem memRead_memWrite_other {m : List Host.Cell} {a c : Nat} {b : Byte} (h : c ≠ a) :
    memRead (memWrite m a b) c = memRead m c :=
  tget_tset_other h

/-- Bytes outside the range written read as before. -/
theorem memRead_memWriteN_other {bs : List Byte} {m : List Host.Cell} {a c : Nat} (h : c < a ∨ a + bs.length ≤ c) :
    memRead (memWriteN m a bs) c = memRead m c := by
  induction bs generalizing m a with
  | nil => rfl
  | cons b r ih =>
    rw [memWriteN, ih (by simp at h; omega), memRead_memWrite_other (by simp at h; omega)]

/-- A byte of the range written reads as written. -/
theorem memRead_memWriteN_same {bs : List Byte} {m : List Host.Cell} {a i : Nat} (h : i < bs.length) :
    memRead (memWriteN m a bs) (a + i) = bs[i] := by
  induction bs generalizing m a i with
  | nil => simp at h
  | cons b r ih =>
    rw [memWriteN]
    cases i with
    | zero => rw [memRead_memWriteN_other (by omega)]; simp
    | succ j =>
      have := ih (m := memWrite m a b) (a := a + 1) (i := j) (by simpa using h)
      simpa [Nat.add_assoc, Nat.add_comm 1 j] using this

/-- Reading back a range just written gives what was written. -/
theorem memReadN_memWriteN (m : List Host.Cell) (a : Nat) (bs : List Byte) :
    memReadN (memWriteN m a bs) a bs.length = bs := by
  induction bs generalizing m a with
  | nil => rfl
  | cons b r ih =>
    have h : memRead (memWriteN (memWrite m a b) (a + 1) r) a = b := by
      rw [memRead_memWriteN_other (by omega)]; simp
    simp only [memWriteN, List.length_cons, memReadN, h, ih]

theorem memWrite_wf {m : List Host.Cell} (a : Nat) (b : Byte) (h : Memory.wf m) : Memory.wf (memWrite m a b) :=
  twf_tset a b h

theorem memWriteN_wf {m : List Host.Cell} (a : Nat) (bs : List Byte) (h : Memory.wf m) :
    Memory.wf (memWriteN m a bs) := by
  induction bs generalizing m a with
  | nil => exact h
  | cons b r ih => exact ih (a + 1) (memWrite_wf a b h)

theorem memDrop_wf {m : List Host.Cell} (n : Nat) (h : Memory.wf m) : Memory.wf (memDrop m n) :=
  ⟨tkeys_filter_pairwise _ h.1, fun p hp => h.2 p (List.mem_of_mem_filter hp)⟩

theorem memDrop_same (m : List Host.Cell) {n c : Nat} (h : c / 2 ^ 28 = n) : memRead (memDrop m n) c = memBlank := by
  have : tfind (memDrop m n) c = none := tfind_filter_none (f := fun j => decide (j / 2 ^ 28 ≠ n)) (by rw [h]; simp)
  simp [memRead, tget, this]

/-- Freeing a buffer leaves every byte of the others. -/
theorem memDrop_other {m : List Host.Cell} {n c : Nat} (h : c / 2 ^ 28 ≠ n) : memRead (memDrop m n) c = memRead m c := by
  have : tfind (memDrop m n) c = tfind m c := tfind_filter (f := fun j => decide (j / 2 ^ 28 ≠ n)) (by simpa using h)
  simp [memRead, tget, this]

end Sys2Proof.Machine
end

