-- ==== Sys2Proof/Laws/Keeps.lean ====
section
/-! SUPPORT. What no operation of the block can do: touch the queue of commands, run the clock or the counter of free values back, or
leave the parameter file or the buffers' memory outside its canonical form. One lemma for each way of building a state; the other
files have one for each operation. -/

namespace Sys2Proof.Machine

/-- What every operation keeps. -/
structure Keeps (s t : State) : Prop where
  pending : t.pending = s.pending
  clock : s.clock ≤ t.clock
  free : s.freeCtr ≤ t.freeCtr
  regs : RegsWf s.regs → RegsWf t.regs
  mem : Memory.wf s.nmp.mem → Memory.wf t.nmp.mem

theorem Keeps.refl (s : State) : Keeps s s := ⟨rfl, Nat.le_refl _, Nat.le_refl _, id, id⟩

theorem Keeps.trans {s t u : State} (h : Keeps s t) (g : Keeps t u) : Keeps s u :=
  ⟨g.pending.trans h.pending, Nat.le_trans h.clock g.clock, Nat.le_trans h.free g.free, g.regs ∘ h.regs, g.mem ∘ h.mem⟩

/-- A change of any other field. -/
theorem Keeps.upd {s t u : State} (h : Keeps s t) (hp : u.pending = t.pending) (hc : u.clock = t.clock)
    (hf : u.freeCtr = t.freeCtr) (hr : u.regs = t.regs) (hm : u.nmp.mem = t.nmp.mem) : Keeps s u :=
  ⟨hp.trans h.pending, hc ▸ h.clock, hf ▸ h.free, fun g => hr ▸ h.regs g, fun g => hm ▸ h.mem g⟩

/-- A parameter file stays in canonical form when entries return to their reset values. -/
theorem regsWf_filter {t : Table Word} (f : Nat × Word → Bool) (h : RegsWf t) : RegsWf (t.filter f) :=
  ⟨tkeys_filter_pairwise f h.1, fun e he => h.2 e (List.mem_of_mem_filter he)⟩

/-- Any other fields, on the queue, the parameter file and the memory of a state. -/
theorem Keeps.mk' {z t : State} {clock : Nat} {out : List Output} {firings : List (Nat × Nat)} {blobs : Table (List Byte)} {pow : PowerSt} {time : TimeBase} {nmp : NmpSt} {therm : ThermSt} {obs : ObsSt} {lanes : Table LaneSt} {ports : Table PortSt} {trigs : Table TrigSt} {ing : Table IngSt} {tickets : Table TicketSt} {expo : Table ExpSt} {buses : Table BusSt} {ctxs : Table CtxSt} {scene : SceneSt} {tick : TickSt} {heads : Table HeadSt} {eths : Table EthSt} {qps : Table Qp} {qpSerial : Nat} {streams : Table StreamSt} {ptp : PtpSt} {fsync : Table FsyncSt} {ringPorts : Table RingPort} {ring : RingSt} {media : RecSt} {auds : Table AudSt} {families : Table FsyncSt} {tgt : TgtSt} {dram : DramSt} {fab : FabSt} {freeCtr : Nat} (h : Keeps z t) (hc : t.clock ≤ clock)
    (hf : t.freeCtr ≤ freeCtr) (hm : nmp.mem = t.nmp.mem) :
    Keeps z ⟨t.pending, clock, freeCtr, out, firings, t.regs, blobs, pow, time, nmp, therm, obs, lanes, ports, trigs, ing, tickets, expo, buses, ctxs, scene, tick, heads, eths, qps, qpSerial, streams, ptp, fsync, ringPorts, ring, media, auds, families, tgt, dram, fab⟩ :=
  ⟨h.pending, Nat.le_trans h.clock hc, Nat.le_trans h.free hf, h.regs, fun g => by show Memory.wf nmp.mem; rw [hm]; exact h.mem g⟩

/-- A wider memory in canonical form. -/
theorem Keeps.mkMem {z t : State} {clock : Nat} {out : List Output} {firings : List (Nat × Nat)} {blobs : Table (List Byte)} {pow : PowerSt} {time : TimeBase} {nmp : NmpSt} {therm : ThermSt} {obs : ObsSt} {lanes : Table LaneSt} {ports : Table PortSt} {trigs : Table TrigSt} {ing : Table IngSt} {tickets : Table TicketSt} {expo : Table ExpSt} {buses : Table BusSt} {ctxs : Table CtxSt} {scene : SceneSt} {tick : TickSt} {heads : Table HeadSt} {eths : Table EthSt} {qps : Table Qp} {qpSerial : Nat} {streams : Table StreamSt} {ptp : PtpSt} {fsync : Table FsyncSt} {ringPorts : Table RingPort} {ring : RingSt} {media : RecSt} {auds : Table AudSt} {families : Table FsyncSt} {tgt : TgtSt} {dram : DramSt} {fab : FabSt} (h : Keeps z t) (hc : t.clock ≤ clock)
    (hm : Memory.wf t.nmp.mem → Memory.wf nmp.mem) : Keeps z ⟨t.pending, clock, t.freeCtr, out, firings, t.regs, blobs, pow, time, nmp, therm, obs, lanes, ports, trigs, ing, tickets, expo, buses, ctxs, scene, tick, heads, eths, qps, qpSerial, streams, ptp, fsync, ringPorts, ring, media, auds, families, tgt, dram, fab⟩ :=
  ⟨h.pending, Nat.le_trans h.clock hc, h.free, h.regs, fun g => hm (h.mem g)⟩

theorem Keeps.foldl {α : Type} {z s : State} {f : State → α → State} (l : List α) (h : Keeps z s)
    (hf : ∀ t x, Keeps z t → Keeps z (f t x)) : Keeps z (l.foldl f s) := by
  induction l generalizing s with
  | nil => exact h
  | cons a r ih => exact ih (hf s a h)

theorem Keeps.foldlPair {α β : Type} {z : State} {p : State × β} {f : State × β → α → State × β} (l : List α) (h : Keeps z p.1)
    (hf : ∀ q x, Keeps z q.1 → Keeps z (f q x).1) : Keeps z (l.foldl f p).1 := by
  induction l generalizing p with
  | nil => exact h
  | cons a r ih => exact ih (hf p a h)

theorem Keeps.ofFst {β : Type} {z a : State} {p : State × β} {b : β} (h : p = (a, b)) (hk : Keeps z p.1) : Keeps z a := by
  subst h; exact hk

theorem Keeps.ofSnd {α : Type} {z b : State} {p : α × State} {a : α} (h : p = (a, b)) (hk : Keeps z p.2) : Keeps z b := by
  subst h; exact hk

theorem Keeps.ofThird {α β : Type} {z c : State} {p : α × β × State} {a : α} {b : β} (h : p = (a, b, c)) (hk : Keeps z p.2.2) :
    Keeps z c := by
  subst h; exact hk

theorem Keeps.foldlPair' {α β : Type} {z : State} {p : β × State} {f : β × State → α → β × State} (l : List α)
    (h : Keeps z p.2) (hf : ∀ q x, Keeps z q.2 → Keeps z (f q x).2) : Keeps z (l.foldl f p).2 := by
  induction l generalizing p with
  | nil => exact h
  | cons a r ih => exact ih (hf p a h)

theorem Keeps.ite {c : Prop} [Decidable c] {z a b : State} (ha : Keeps z a) (hb : Keeps z b) : Keeps z (if c then a else b) := by
  split <;> assumption

theorem Keeps.iteFst {β : Type} {c : Prop} [Decidable c] {z : State} {a b : State × β} (ha : Keeps z a.1) (hb : Keeps z b.1) :
    Keeps z (if c then a else b).1 := by
  split <;> assumption

theorem Keeps.iteSnd {β : Type} {c : Prop} [Decidable c] {z : State} {a b : β × State} (ha : Keeps z a.2) (hb : Keeps z b.2) :
    Keeps z (if c then a else b).2 := by
  split <;> assumption

theorem Keeps.foldr {α : Type} {z s : State} {f : α → State → State} (l : List α) (h : Keeps z s)
    (hf : ∀ x t, Keeps z t → Keeps z (f x t)) : Keeps z (l.foldr f s) := by
  induction l with
  | nil => exact h
  | cons a r ih => exact hf a _ ih

theorem Keeps.ofId {z t : State} (h : Keeps z t) : Keeps z (id t) := h

theorem Keeps.getD {z s : State} {o : Option State} (h : Keeps z s) (ho : ∀ t, o = some t → Keeps z t) : Keeps z (o.getD s) := by
  cases o with
  | none => exact h
  | some t => exact ho t rfl

end Sys2Proof.Machine
end

