-- ==== Sys2Proof/Laws/Keeps/Ops.lean ====
section
/-! SUPPORT. What every operation of Machine/Ops.lean keeps. -/

namespace Sys2Proof.Machine

theorem State.wr_keeps {z : State} (s : State) (id v : Nat) (h : Keeps z s) : Keeps z (s.wr id v) := by
  refine ⟨?_, ?_, ?_, fun g => wr_regsWf id v (h.regs g), ?_⟩ <;> (unfold State.wr; split)
  all_goals (try split)
  all_goals first | exact h.pending | exact h.clock | exact h.free | exact h.mem

theorem State.wrS_keeps {z : State} (s : State) (id : Nat) (v : Int) (hk : Keeps z s) :
    Keeps z (State.wrS s id v) := by
  unfold State.wrS
  repeat' with_reducible first
    | assumption
    | apply State.wr_keeps

theorem State.wrAll_keeps {z : State} (s : State) (l : List (Nat × Nat)) (h : Keeps z s) : Keeps z (s.wrAll l) :=
  Keeps.foldl l h fun t p g => State.wr_keeps t p.1 p.2 g

theorem State.upd_keeps {z : State} (s : State) (id : Nat) (f : Nat → Nat) (hk : Keeps z s) :
    Keeps z (State.upd s id f) := by
  unfold State.upd
  repeat' with_reducible first
    | assumption
    | apply State.wr_keeps

theorem State.countBy_keeps {z : State} (s : State) (id n : Nat) (hk : Keeps z s) :
    Keeps z (State.countBy s id n) := by
  unfold State.countBy
  repeat' with_reducible first
    | assumption
    | apply State.upd_keeps

theorem State.count_keeps {z : State} (s : State) (id : Nat) (hk : Keeps z s) :
    Keeps z (State.count s id) := by
  unfold State.count
  repeat' with_reducible first
    | assumption
    | apply State.countBy_keeps

theorem State.addBytes_keeps {z : State} (s : State) (id n : Nat) (hk : Keeps z s) :
    Keeps z (State.addBytes s id n) := by
  unfold State.addBytes
  repeat' with_reducible first
    | assumption
    | apply State.upd_keeps

theorem State.raise_keeps {z : State} (s : State) (id v : Nat) (hk : Keeps z s) :
    Keeps z (State.raise s id v) := by
  unfold State.raise
  repeat' with_reducible first
    | assumption
    | apply State.upd_keeps

theorem State.next32_keeps {z : State} (s : State) (id : Nat) (hk : Keeps z s) :
    Keeps z (State.next32 s id) := by
  unfold State.next32
  repeat' with_reducible first
    | assumption
    | apply State.upd_keeps

theorem State.wrBlob_keeps {z : State} (s : State) (id : Nat) (b : List Byte) (hk : Keeps z s) :
    Keeps z (State.wrBlob s id b) := by
  unfold State.wrBlob
  repeat' with_reducible first
    | (refine (Keeps.mk' ?_ (by omega) (by omega) rfl) <;>
       first | assumption)

theorem State.at_keeps {z : State} (s : State) (due : Nat) (h : Keeps z s) : Keeps z (s.at due) :=
  Keeps.mk' h (Nat.le_max_left _ _) (Nat.le_refl _) rfl

theorem State.txFrames_keeps {z : State} (s : State) (port n : Nat) (hk : Keeps z s) :
    Keeps z (State.txFrames s port n) := by
  unfold State.txFrames
  try dsimp only [State.draw]
  repeat' with_reducible first
    | apply State.addBytes_keeps
    | apply State.countBy_keeps
    | (refine (Keeps.mk' ?_ (by omega) (by omega) rfl) <;>
       first | assumption)

theorem State.rxFrame_keeps {z : State} (s : State) (port : Nat) (hk : Keeps z s) :
    Keeps z (State.rxFrame s port) := by
  unfold State.rxFrame
  try dsimp only [State.draw]
  repeat' with_reducible first
    | apply State.addBytes_keeps
    | apply State.count_keeps
    | (refine (Keeps.mk' ?_ (by omega) (by omega) rfl) <;>
       first | assumption)

theorem State.emit_keeps {z : State} (s : State) (o : Output) (hk : Keeps z s) :
    Keeps z (State.emit s o) := by
  unfold State.emit
  repeat' with_reducible first
    | apply State.txFrames_keeps
    | split
    | (refine (Keeps.mk' ?_ (by omega) (by omega) rfl) <;>
       first | assumption)

theorem State.sendNmp_keeps {z : State} (s : State) (port : Nat) (dest : Peer) (keyed : Bool) (m : Msg) (hk : Keeps z s) :
    Keeps z (State.sendNmp s port dest keyed m) := by
  unfold State.sendNmp
  repeat' with_reducible first
    | assumption
    | apply State.emit_keeps

theorem State.pin_keeps {z : State} (s : State) (name : String) (level : Nat) (hk : Keeps z s) :
    Keeps z (State.pin s name level) := by
  unfold State.pin
  repeat' with_reducible first
    | assumption
    | apply State.emit_keeps

theorem State.fire_keeps {z : State} (s : State) (src : Nat) (hk : Keeps z s) :
    Keeps z (State.fire s src) := by
  unfold State.fire
  repeat' with_reducible first
    | (refine (Keeps.mk' ?_ (by omega) (by omega) rfl) <;>
       first | assumption)

theorem State.drainPort_keeps {z : State} (s : State) (hk : Keeps z s) :
    Keeps z (State.drainPort s) := by
  unfold State.drainPort
  repeat' with_reducible first
    | apply State.emit_keeps
    | intro _
    | apply Keeps.ite
    | (refine (Keeps.mk' ?_ (by omega) (by omega) rfl) <;>
       first | assumption | apply Keeps.foldl)

theorem State.traceLost_keeps {z : State} (s : State) (dest : Nat) (hk : Keeps z s) :
    Keeps z (State.traceLost s dest) := by
  unfold State.traceLost
  try dsimp only [State.draw]
  repeat' with_reducible first
    | split
    | (refine (Keeps.mk' ?_ (by omega) (by omega) rfl) <;>
       first | assumption | apply State.drainPort_keeps)

theorem State.traceTo_keeps {z : State} (s : State) (dest type source : Nat) (payload : List Byte) (hk : Keeps z s) :
    Keeps z (State.traceTo s dest type source payload) := by
  unfold State.traceTo
  try dsimp only [State.draw]
  repeat' with_reducible first
    | apply State.count_keeps
    | split
    | (refine (Keeps.mk' ?_ (by omega) (by omega) rfl) <;>
       first | assumption | apply State.drainPort_keeps)

theorem State.trace_keeps {z : State} (s : State) (type source : Nat) (payload : List Byte) (hk : Keeps z s) :
    Keeps z (State.trace s type source payload) := by
  unfold State.trace
  repeat' with_reducible first
    | assumption
    | apply State.count_keeps
    | apply State.traceTo_keeps
    | apply Keeps.foldl
    | intro _

theorem State.setSession_keeps {z : State} (s : State) (sess : Nat) (x : Session) (hk : Keeps z s) :
    Keeps z (State.setSession s sess x) := by
  unfold State.setSession
  repeat' with_reducible first
    | (refine (Keeps.mk' ?_ (by omega) (by omega) rfl) <;>
       first | assumption)

theorem State.notifyTo_keeps {z : State} (s : State) (sess cls code : Nat) (body : List Byte) (hk : Keeps z s) :
    Keeps z (State.notifyTo s sess cls code body) := by
  unfold State.notifyTo
  try dsimp only [State.draw]
  repeat' with_reducible first
    | assumption
    | apply State.count_keeps
    | apply State.sendNmp_keeps
    | apply State.setSession_keeps
    | split

theorem State.notify_keeps {z : State} (s : State) (cls code : Nat) (body : List Byte) (hk : Keeps z s) :
    Keeps z (State.notify s cls code body) := by
  unfold State.notify
  repeat' with_reducible first
    | assumption
    | apply State.notifyTo_keeps
    | apply State.trace_keeps
    | apply Keeps.foldl
    | intro _
    | apply Keeps.ite

theorem State.reply_keeps {z : State} (s : State) (r : Req) (op status : Nat) (payload : List Byte) (hk : Keeps z s) :
    Keeps z (State.reply s r op status payload) := by
  unfold State.reply
  try dsimp only [State.draw]
  repeat' with_reducible first
    | assumption
    | apply State.sendNmp_keeps
    | apply State.setSession_keeps
    | split

theorem State.setGlobal_keeps {z : State} (s : State) (g : GState) (hk : Keeps z s) :
    Keeps z (State.setGlobal s g) := by
  unfold State.setGlobal
  repeat' with_reducible first
    | apply State.notify_keeps
    | apply State.trace_keeps
    | apply Keeps.ite
    | (refine (Keeps.mk' ?_ (by omega) (by omega) rfl) <;>
       first | assumption)

theorem State.setCell_keeps {z : State} (s : State) (c : Nat) (x : Cell) (hk : Keeps z s) :
    Keeps z (State.setCell s c x) := by
  unfold State.setCell
  repeat' with_reducible first
    | (refine (Keeps.mk' ?_ (by omega) (by omega) rfl) <;>
       first | assumption)

theorem State.replyLong_keeps {z : State} (s : State) (r : Req) (op status : Nat) (payload : List Byte) (hk : Keeps z s) :
    Keeps z (State.replyLong s r op status payload) := by
  unfold State.replyLong
  repeat' with_reducible first
    | assumption
    | apply State.reply_keeps
    | apply Keeps.ite

theorem State.request_keeps {z : State} (s : State) (r : Req) (op : Nat) (body : State → State) (h : Keeps z s)
    (hb : ∀ t, Keeps z t → Keeps z (body t)) : Keeps z (s.request r op body) := by
  unfold State.request
  dsimp only
  split
  · split
    · exact State.count_keeps _ _ h
    · split
      · split
        · exact hb _ (State.setSession_keeps _ _ _ h)
        · exact State.reply_keeps _ _ _ _ _ (State.setSession_keeps _ _ _ h)
      · exact h
  · exact h

theorem State.ledgerWrite_keeps {z : State} (s : State) (lo hi : Nat) (bytes : List Byte) (hk : Keeps z s) :
    Keeps z (State.ledgerWrite s lo hi bytes) := by
  unfold State.ledgerWrite
  repeat' with_reducible first
    | apply State.count_keeps
    | (refine (Keeps.mk' ?_ (by omega) (by omega) rfl) <;>
       first | assumption)

end Sys2Proof.Machine
end

