-- ==== Sys2Proof/Laws/Keeps/Buffers.lean ====
section
/-! SUPPORT. What every operation of Machine/Buffers.lean keeps. -/

namespace Sys2Proof.Machine

theorem State.setBuf_keeps {z : State} (s : State) (serial : Nat) (b : Buffer) (hk : Keeps z s) :
    Keeps z (State.setBuf s serial b) := by
  unfold State.setBuf
  repeat' with_reducible first
    | (refine (Keeps.mk' ?_ (by omega) (by omega) rfl) <;>
       first | assumption)

theorem State.bufNotify_keeps {z : State} (s : State) (b : Buffer) (code : Nat) (hk : Keeps z s) :
    Keeps z (State.bufNotify s b code) := by
  unfold State.bufNotify
  repeat' with_reducible first
    | assumption
    | apply State.notifyTo_keeps

theorem State.retireOne_keeps {z : State} (s : State) (serial : Nat) (b : Buffer) (hk : Keeps z s) :
    Keeps z (State.retireOne s serial b) := by
  unfold State.retireOne
  repeat' with_reducible first
    | apply State.bufNotify_keeps
    | (refine (Keeps.mkMem ?_ (by omega) (by first | exact memDrop_wf _ | exact memWriteN_wf _ _)) <;>
       first | assumption)

theorem State.retireFreed_keeps {z : State} (s : State) (hk : Keeps z s) :
    Keeps z (State.retireFreed s) := by
  unfold State.retireFreed
  repeat' with_reducible first
    | assumption
    | apply State.retireOne_keeps
    | apply Keeps.foldl
    | intro _
    | apply Keeps.ite

theorem execBufAlloc_keeps {z : State} (r : Req) (cell size : Nat) (s : State) (hk : Keeps z s) {u : State} (he : execBufAlloc r cell size s = .next u) : Keeps z u := by
  unfold execBufAlloc at he
  cases he
  try dsimp only [State.draw]
  repeat' with_reducible first
    | apply State.reply_keeps
    | apply State.request_keeps
    | apply State.setBuf_keeps
    | intro _
    | apply Keeps.ite
    | (refine (Keeps.mk' ?_ (by omega) (by omega) rfl) <;>
       first | assumption)

theorem State.dropScope_keeps {z : State} (s : State) (h : Nat) (hk : Keeps z s) :
    Keeps z (State.dropScope s h) := by
  unfold State.dropScope
  repeat' with_reducible first
    | assumption
    | apply State.wr_keeps
    | apply Keeps.foldl
    | intro _
    | apply Keeps.ite

theorem State.markStale_keeps {z : State} (s : State) (h : Nat) (hk : Keeps z s) :
    Keeps z (State.markStale s h) := by
  unfold State.markStale
  repeat' with_reducible first
    | assumption
    | apply State.upd_keeps
    | apply Keeps.foldl
    | intro _
    | apply Keeps.ite

theorem execBufFree_keeps {z : State} (r : Req) (handle : Nat) (s : State) (hk : Keeps z s) {u : State} (he : execBufFree r handle s = .next u) : Keeps z u := by
  unfold execBufFree at he
  cases he
  try dsimp only [State.draw]
  repeat' with_reducible first
    | assumption
    | apply State.bufNotify_keeps
    | apply State.count_keeps
    | apply State.dropScope_keeps
    | apply State.markStale_keeps
    | apply State.reply_keeps
    | apply State.request_keeps
    | apply State.retireFreed_keeps
    | apply State.setBuf_keeps
    | intro _
    | split

theorem execBufInfo_keeps {z : State} (r : Req) (handle : Nat) (s : State) (hk : Keeps z s) {u : State} (he : execBufInfo r handle s = .next u) : Keeps z u := by
  unfold execBufInfo at he
  cases he
  repeat' with_reducible first
    | assumption
    | apply State.reply_keeps
    | apply State.request_keeps
    | intro _
    | split

end Sys2Proof.Machine
end

