-- ==== Sys2Proof/Laws/Keeps/Qp.lean ====
section
/-! SUPPORT. What every operation of Machine/Qp.lean keeps. -/

namespace Sys2Proof.Machine

theorem State.countQps_keeps {z : State} (s : State) (hk : Keeps z s) :
    Keeps z (State.countQps s) := by
  unfold State.countQps
  repeat' with_reducible first
    | assumption
    | apply State.wrAll_keeps

theorem State.setQp_keeps {z : State} (s : State) (k : Nat) (q : Qp) (hk : Keeps z s) :
    Keeps z (State.setQp s k q) := by
  unfold State.setQp
  repeat' with_reducible first
    | (refine (Keeps.mk' ?_ (by omega) (by omega) rfl) <;>
       first | assumption)

theorem State.dropQps_keeps {z : State} (s : State) (p : Qp → Bool) (hk : Keeps z s) :
    Keeps z (State.dropQps s p) := by
  unfold State.dropQps
  repeat' with_reducible first
    | apply State.countQps_keeps
    | apply Keeps.ite
    | (refine (Keeps.mk' ?_ (by omega) (by omega) rfl) <;>
       first | assumption)

theorem State.addQp_keeps {z : State} (s : State) (port mtu : Nat) (use : QpUse) (hk : Keeps z s) :
    Keeps z (State.addQp s port mtu use) := by
  unfold State.addQp
  repeat' with_reducible first
    | apply State.countQps_keeps
    | (refine (Keeps.mk' ?_ (by omega) (by omega) rfl) <;>
       first | assumption)

theorem State.setEth_keeps {z : State} (s : State) (k : Nat) (x : EthSt) (hk : Keeps z s) :
    Keeps z (State.setEth s k x) := by
  unfold State.setEth
  repeat' with_reducible first
    | (refine (Keeps.mk' ?_ (by omega) (by omega) rfl) <;>
       first | assumption)

theorem State.roceNow_keeps {z : State} (s : State) (p extra : Nat) (o : Output) (hk : Keeps z s) :
    Keeps z (State.roceNow s p extra o) := by
  unfold State.roceNow
  repeat' with_reducible first
    | assumption
    | apply State.emit_keeps
    | apply State.txFrames_keeps
    | apply Keeps.ite

theorem State.roceFlush_keeps {z : State} (s : State) (p : Nat) (hk : Keeps z s) :
    Keeps z (State.roceFlush s p) := by
  unfold State.roceFlush
  repeat' with_reducible first
    | assumption
    | apply State.roceNow_keeps
    | apply State.setEth_keeps
    | apply Keeps.foldl
    | intro _
    | apply Keeps.ite

theorem State.roceOut_keeps {z : State} (s : State) (p extra : Nat) (o : Output) (hk : Keeps z s) :
    Keeps z (State.roceOut s p extra o) := by
  unfold State.roceOut
  repeat' with_reducible first
    | assumption
    | apply State.roceFlush_keeps
    | apply State.roceNow_keeps
    | apply State.setEth_keeps
    | apply Keeps.ite

end Sys2Proof.Machine
end

