-- ==== Sys2Proof/Laws/Keeps/Nmp.lean ====
section
/-! SUPPORT. What every operation of Machine/Nmp.lean keeps. -/

namespace Sys2Proof.Machine

theorem State.drop_keeps {z : State} (s : State) (reason : Nat) (hk : Keeps z s) :
    Keeps z (State.drop s reason) := by
  unfold State.drop
  repeat' with_reducible first
    | assumption
    | apply State.count_keeps

theorem State.openRefused_keeps {z : State} (s : State) (port : Nat) (peer : Peer) (seq status : Nat) (hk : Keeps z s) :
    Keeps z (State.openRefused s port peer seq status) := by
  unfold State.openRefused
  repeat' with_reducible first
    | apply State.sendNmp_keeps
    | apply Keeps.ite
    | (refine (Keeps.mk' ?_ (by omega) (by omega) rfl) <;>
       first | assumption)

theorem State.endSubscription_keeps {z : State} (s : State) (sess : Nat) (hk : Keeps z s) :
    Keeps z (State.endSubscription s sess) := by
  unfold State.endSubscription
  repeat' with_reducible first
    | (refine (Keeps.mk' ?_ (by omega) (by omega) rfl) <;>
       first | assumption)

theorem State.leaveCells_keeps {z : State} (s : State) (sess : Nat) (orphan : Bool) (hk : Keeps z s) :
    Keeps z (State.leaveCells s sess orphan) := by
  unfold State.leaveCells
  repeat' with_reducible first
    | assumption
    | apply State.setCell_keeps
    | apply Keeps.foldl
    | intro _
    | apply Keeps.ite

theorem State.closeSession_keeps {z : State} (s : State) (sess : Nat) (orphan : Bool) (hk : Keeps z s) :
    Keeps z (State.closeSession s sess orphan) := by
  unfold State.closeSession
  repeat' with_reducible first
    | apply State.endSubscription_keeps
    | apply State.leaveCells_keeps
    | (refine (Keeps.mk' ?_ (by omega) (by omega) rfl) <;>
       first | assumption | apply State.dropQps_keeps)

theorem State.requestArrived_keeps {z : State} (s : State) (port : Nat) (peer : Peer) (sess seq op : Nat) (payload : List Byte) (hk : Keeps z s) :
    Keeps z (State.requestArrived s port peer sess seq op payload) := by
  unfold State.requestArrived
  repeat' with_reducible first
    | assumption
    | apply State.count_keeps
    | apply State.drop_keeps
    | apply State.sendNmp_keeps
    | apply State.setSession_keeps
    | split

theorem State.segmentArrived_keeps {z : State} (s : State) (port : Nat) (peer : Peer) (h : NmpHeader) (payload : List Byte) (hk : Keeps z s) :
    Keeps z (State.segmentArrived s port peer h payload) := by
  unfold State.segmentArrived
  repeat' with_reducible first
    | apply State.requestArrived_keeps
    | apply Keeps.ite
    | (refine (Keeps.mk' ?_ (by omega) (by omega) rfl) <;>
       first | assumption)

theorem execNmpDatagramRx_keeps {z : State} (port : Fin 2) (vlan : Nat) (peer : Peer) (dst : List Byte) (udpLen : Nat) (fragmented : Bool) (bytes : List Byte) (s : State) (hk : Keeps z s) {u : State} (he : execNmpDatagramRx port vlan peer dst udpLen fragmented bytes s = .next u) : Keeps z u := by
  unfold execNmpDatagramRx at he
  cases he
  try dsimp only [State.draw]
  repeat' with_reducible first
    | assumption
    | apply State.count_keeps
    | apply State.drop_keeps
    | apply State.openRefused_keeps
    | apply State.rxFrame_keeps
    | apply State.segmentArrived_keeps
    | apply State.setSession_keeps
    | split

theorem execNmpReassemblyTimeout_keeps {z : State} (sess seq : Nat) (s : State) (hk : Keeps z s) {u : State} (he : execNmpReassemblyTimeout sess seq s = .next u) : Keeps z u := by
  unfold execNmpReassemblyTimeout at he
  cases he
  repeat' with_reducible first
    | apply State.drop_keeps
    | split
    | (refine (Keeps.mk' ?_ (by omega) (by omega) rfl) <;>
       first | assumption | apply State.at_keeps)

theorem execSessionOpen_keeps {z : State} (port : Fin 2) (peer : Peer) (seq : Nat) (payload : List Byte) (s : State) (hk : Keeps z s) {u : State} (he : execSessionOpen port peer seq payload s = .next u) : Keeps z u := by
  unfold execSessionOpen at he
  cases he
  try dsimp only [State.draw]
  repeat' with_reducible first
    | apply State.openRefused_keeps
    | apply State.sendNmp_keeps
    | apply Keeps.ite
    | (refine (Keeps.mk' ?_ (by omega) (by omega) rfl) <;>
       first | assumption | apply State.setSession_keeps)

theorem execSessionClose_keeps {z : State} (r : Req) (s : State) (hk : Keeps z s) {u : State} (he : execSessionClose r s = .next u) : Keeps z u := by
  unfold execSessionClose at he
  cases he
  repeat' with_reducible first
    | assumption
    | apply State.closeSession_keeps
    | apply State.reply_keeps
    | apply State.request_keeps
    | intro _

theorem execSessionIdleClose_keeps {z : State} (sess : Nat) (s : State) (hk : Keeps z s) {u : State} (he : execSessionIdleClose sess s = .next u) : Keeps z u := by
  unfold execSessionIdleClose at he
  cases he
  repeat' with_reducible first
    | assumption
    | apply State.at_keeps
    | apply State.closeSession_keeps
    | split

theorem State.expireCell_keeps {z : State} (s : State) (c : Nat) (hk : Keeps z s) :
    Keeps z (State.expireCell s c) := by
  unfold State.expireCell
  repeat' with_reducible first
    | assumption
    | apply State.count_keeps
    | apply State.notifyTo_keeps
    | apply State.setCell_keeps
    | apply Keeps.ite

theorem State.expireDue_keeps {z : State} (s : State) (hk : Keeps z s) :
    Keeps z (State.expireDue s) := by
  unfold State.expireDue
  repeat' with_reducible first
    | assumption
    | apply State.expireCell_keeps
    | apply Keeps.foldl
    | intro _
    | apply Keeps.ite

theorem execLeaseExpiry_keeps {z : State} (cell : Fin 64) (s : State) (hk : Keeps z s) {u : State} (he : execLeaseExpiry cell s = .next u) : Keeps z u := by
  unfold execLeaseExpiry at he
  cases he
  repeat' with_reducible first
    | assumption
    | apply State.at_keeps
    | apply State.expireCell_keeps
    | apply Keeps.ite

theorem execHeartbeat_keeps {z : State} (r : Req) (payload : List Byte) (s : State) (hk : Keeps z s) {u : State} (he : execHeartbeat r payload s = .next u) : Keeps z u := by
  unfold execHeartbeat at he
  cases he
  try dsimp only [State.draw]
  repeat' with_reducible first
    | assumption
    | apply State.expireDue_keeps
    | apply State.reply_keeps
    | apply State.request_keeps
    | apply State.setCell_keeps
    | apply State.setSession_keeps
    | apply Keeps.foldl
    | intro _
    | split

theorem State.acquireOne_keeps {z : State} (st : State × List Nat × List Nat) (sess lease c : Nat) (hk : Keeps z st.1) :
    Keeps z (State.acquireOne st sess lease c).1 := by
  unfold State.acquireOne
  repeat' with_reducible first
    | assumption
    | apply State.setCell_keeps
    | apply Keeps.iteFst

theorem execOwnAcquire_keeps {z : State} (r : Req) (cells : List Nat) (leaseMs : Nat) (s : State) (hk : Keeps z s) {u : State} (he : execOwnAcquire r cells leaseMs s = .next u) : Keeps z u := by
  unfold execOwnAcquire at he
  cases he
  repeat' with_reducible first
    | assumption
    | apply State.acquireOne_keeps
    | apply State.count_keeps
    | apply State.expireDue_keeps
    | apply State.reply_keeps
    | apply State.request_keeps
    | apply State.setCell_keeps
    | apply Keeps.foldl
    | apply Keeps.foldlPair
    | intro _
    | apply Keeps.ite

theorem execOwnRelease_keeps {z : State} (r : Req) (cells : List Nat) (s : State) (hk : Keeps z s) {u : State} (he : execOwnRelease r cells s = .next u) : Keeps z u := by
  unfold execOwnRelease at he
  cases he
  repeat' with_reducible first
    | assumption
    | apply State.reply_keeps
    | apply State.request_keeps
    | apply State.setCell_keeps
    | apply Keeps.foldl
    | intro _
    | apply Keeps.ite

theorem execOwnQuery_keeps {z : State} (r : Req) (cells : List Nat) (s : State) (hk : Keeps z s) {u : State} (he : execOwnQuery r cells s = .next u) : Keeps z u := by
  unfold execOwnQuery at he
  cases he
  repeat' with_reducible first
    | assumption
    | apply State.reply_keeps
    | apply State.request_keeps
    | intro _
    | apply Keeps.ite

theorem execOwnReclaim_keeps {z : State} (r : Req) (cells : List (Nat × Nat)) (s : State) (hk : Keeps z s) {u : State} (he : execOwnReclaim r cells s = .next u) : Keeps z u := by
  unfold execOwnReclaim at he
  cases he
  repeat' with_reducible first
    | assumption
    | apply State.expireDue_keeps
    | apply State.notifyTo_keeps
    | apply State.reply_keeps
    | apply State.request_keeps
    | apply State.setCell_keeps
    | apply Keeps.foldl
    | intro _
    | apply Keeps.ite

theorem execUnsupportedOpcode_keeps {z : State} (r : Req) (opcode : Nat) (s : State) (hk : Keeps z s) {u : State} (he : execUnsupportedOpcode r opcode s = .next u) : Keeps z u := by
  unfold execUnsupportedOpcode at he
  cases he
  repeat' with_reducible first
    | assumption
    | apply State.reply_keeps
    | apply State.request_keeps
    | intro _

theorem execNotifyRetransmit_keeps {z : State} (sess seq : Nat) (s : State) (hk : Keeps z s) {u : State} (he : execNotifyRetransmit sess seq s = .next u) : Keeps z u := by
  unfold execNotifyRetransmit at he
  cases he
  repeat' with_reducible first
    | assumption
    | apply State.at_keeps
    | apply State.count_keeps
    | apply State.sendNmp_keeps
    | apply State.setSession_keeps
    | split

theorem execDeviceRestart_keeps {z : State} (r : Req) (s : State) (hk : Keeps z s) {u : State} (he : execDeviceRestart r s = .next u) : Keeps z u := by
  unfold execDeviceRestart at he
  cases he
  repeat' with_reducible first
    | apply State.request_keeps
    | intro _
    | apply Keeps.ite
    | (refine (Keeps.mk' ?_ (by omega) (by omega) rfl) <;>
       first | assumption | apply State.reply_keeps)

theorem State.hold_keeps {z : State} (s : State) (w : Wait) (hk : Keeps z s) :
    Keeps z (State.hold s w) := by
  unfold State.hold
  repeat' with_reducible first
    | apply Keeps.ite
    | (refine (Keeps.mk' ?_ (by omega) (by omega) rfl) <;>
       first | assumption)

theorem State.releaseIf_keeps {z : State} (s : State) (p : Wait → Bool) (status : Nat) (tail : Option (Nat × List Byte)) (hk : Keeps z s) :
    Keeps z (State.releaseIf s p status tail) := by
  unfold State.releaseIf
  repeat' with_reducible first
    | apply State.reply_keeps
    | apply Keeps.foldl
    | intro _
    | apply Keeps.ite
    | (refine (Keeps.mk' ?_ (by omega) (by omega) rfl) <;>
       first | assumption)

theorem State.release_keeps {z : State} (s : State) (why : WaitFor) (status : Nat) (hk : Keeps z s) :
    Keeps z (State.release s why status) := by
  unfold State.release
  repeat' with_reducible first
    | assumption
    | apply State.releaseIf_keeps

end Sys2Proof.Machine
end

