-- ==== Sys2Proof/Laws/Keeps/Fields.lean ====
section
/-! SUPPORT. What every operation of Machine/Fields.lean keeps. -/

namespace Sys2Proof.Machine

theorem State.setLane_keeps {z : State} (s : State) (k : Nat) (x : LaneSt) (hk : Keeps z s) :
    Keeps z (State.setLane s k x) := by
  unfold State.setLane
  repeat' with_reducible first
    | (refine (Keeps.mk' ?_ (by omega) (by omega) rfl) <;>
       first | assumption)

theorem State.setPort_keeps {z : State} (s : State) (k : Nat) (x : PortSt) (hk : Keeps z s) :
    Keeps z (State.setPort s k x) := by
  unfold State.setPort
  repeat' with_reducible first
    | (refine (Keeps.mk' ?_ (by omega) (by omega) rfl) <;>
       first | assumption)

theorem State.setTrig_keeps {z : State} (s : State) (k : Nat) (x : TrigSt) (hk : Keeps z s) :
    Keeps z (State.setTrig s k x) := by
  unfold State.setTrig
  repeat' with_reducible first
    | (refine (Keeps.mk' ?_ (by omega) (by omega) rfl) <;>
       first | assumption)

theorem State.setIngest_keeps {z : State} (s : State) (k : Nat) (x : IngSt) (hk : Keeps z s) :
    Keeps z (State.setIngest s k x) := by
  unfold State.setIngest
  repeat' with_reducible first
    | (refine (Keeps.mk' ?_ (by omega) (by omega) rfl) <;>
       first | assumption)

theorem State.setTicketing_keeps {z : State} (s : State) (k : Nat) (x : TicketSt) (hk : Keeps z s) :
    Keeps z (State.setTicketing s k x) := by
  unfold State.setTicketing
  repeat' with_reducible first
    | (refine (Keeps.mk' ?_ (by omega) (by omega) rfl) <;>
       first | assumption)

theorem State.setExposure_keeps {z : State} (s : State) (k : Nat) (x : ExpSt) (hk : Keeps z s) :
    Keeps z (State.setExposure s k x) := by
  unfold State.setExposure
  repeat' with_reducible first
    | (refine (Keeps.mk' ?_ (by omega) (by omega) rfl) <;>
       first | assumption)

theorem State.setBus_keeps {z : State} (s : State) (k : Nat) (x : BusSt) (hk : Keeps z s) :
    Keeps z (State.setBus s k x) := by
  unfold State.setBus
  repeat' with_reducible first
    | (refine (Keeps.mk' ?_ (by omega) (by omega) rfl) <;>
       first | assumption)

theorem State.setCtx_keeps {z : State} (s : State) (k : Nat) (x : CtxSt) (hk : Keeps z s) :
    Keeps z (State.setCtx s k x) := by
  unfold State.setCtx
  repeat' with_reducible first
    | (refine (Keeps.mk' ?_ (by omega) (by omega) rfl) <;>
       first | assumption)

theorem State.setRend_keeps {z : State} (s : State) (c v : Nat) (x : RendSt) (hk : Keeps z s) :
    Keeps z (State.setRend s c v x) := by
  unfold State.setRend
  repeat' with_reducible first
    | assumption
    | apply State.setCtx_keeps

theorem State.setHead_keeps {z : State} (s : State) (k : Nat) (x : HeadSt) (hk : Keeps z s) :
    Keeps z (State.setHead s k x) := by
  unfold State.setHead
  repeat' with_reducible first
    | (refine (Keeps.mk' ?_ (by omega) (by omega) rfl) <;>
       first | assumption)

theorem State.setStream_keeps {z : State} (s : State) (k : Nat) (x : StreamSt) (hk : Keeps z s) :
    Keeps z (State.setStream s k x) := by
  unfold State.setStream
  repeat' with_reducible first
    | (refine (Keeps.mk' ?_ (by omega) (by omega) rfl) <;>
       first | assumption)

theorem State.setSync_keeps {z : State} (s : State) (k : Nat) (x : FsyncSt) (hk : Keeps z s) :
    Keeps z (State.setSync s k x) := by
  unfold State.setSync
  repeat' with_reducible first
    | (refine (Keeps.mk' ?_ (by omega) (by omega) rfl) <;>
       first | assumption)

theorem State.setRingPort_keeps {z : State} (s : State) (k : Nat) (x : RingPort) (hk : Keeps z s) :
    Keeps z (State.setRingPort s k x) := by
  unfold State.setRingPort
  repeat' with_reducible first
    | (refine (Keeps.mk' ?_ (by omega) (by omega) rfl) <;>
       first | assumption)

theorem State.setAud_keeps {z : State} (s : State) (k : Nat) (x : AudSt) (hk : Keeps z s) :
    Keeps z (State.setAud s k x) := by
  unfold State.setAud
  repeat' with_reducible first
    | (refine (Keeps.mk' ?_ (by omega) (by omega) rfl) <;>
       first | assumption)

theorem State.updateRun_keeps {z : State} (s : State) (hk : Keeps z s) :
    Keeps z (State.updateRun s) := by
  unfold State.updateRun
  repeat' with_reducible first
    | assumption
    | apply State.setGlobal_keeps
    | apply Keeps.ite

end Sys2Proof.Machine
end

