-- ==== Sys2Proof/Laws/Keeps/Maint.lean ====
section
/-! SUPPORT. What every operation of Machine/Maint.lean keeps. -/

namespace Sys2Proof.Machine

theorem State.maintStart_keeps {z : State} (s : State) (a : Nat) (hk : Keeps z s) :
    Keeps z (State.maintStart s a) := by
  unfold State.maintStart
  try dsimp only [State.draw]
  repeat' with_reducible first
    | apply State.wr_keeps
    | split
    | (refine (Keeps.mk' ?_ (by omega) (by omega) rfl) <;>
       first | assumption)

theorem State.maintChoose_keeps {z : State} (s : State) (hk : Keeps z s) :
    Keeps z (State.maintChoose s) := by
  unfold State.maintChoose
  try dsimp only [State.draw]
  repeat' with_reducible first
    | apply State.maintStart_keeps
    | split
    | (refine (Keeps.mk' ?_ (by omega) (by omega) rfl) <;>
       first | assumption)

theorem State.maintAsk_keeps {z : State} (s : State) (act ch : Nat) (hk : Keeps z s) :
    Keeps z (State.maintAsk s act ch) := by
  unfold State.maintAsk
  repeat' with_reducible first
    | apply State.maintChoose_keeps
    | (refine (Keeps.mk' ?_ (by omega) (by omega) rfl) <;>
       first | assumption)

theorem State.maintWaited_keeps {z : State} (s : State) (hk : Keeps z s) :
    Keeps z (State.maintWaited s) := by
  unfold State.maintWaited
  repeat' with_reducible first
    | apply State.count_keeps
    | apply State.raise_keeps
    | intro _
    | apply Keeps.ite
    | (refine (Keeps.mk' ?_ (by omega) (by omega) rfl) <;>
       first | assumption | apply Keeps.foldl)

theorem State.gapStart_keeps {z : State} (s : State) (hk : Keeps z s) :
    Keeps z (State.gapStart s) := by
  unfold State.gapStart
  repeat' with_reducible first
    | apply State.fire_keeps
    | apply State.maintChoose_keeps
    | apply Keeps.ite
    | (refine (Keeps.mk' ?_ (by omega) (by omega) rfl) <;>
       first | assumption)

theorem State.ledgerPut_keeps {z : State} (s : State) (lo hi : Nat) (bytes : List Byte) (hk : Keeps z s) :
    Keeps z (State.ledgerPut s lo hi bytes) := by
  unfold State.ledgerPut
  repeat' with_reducible first
    | apply State.ledgerWrite_keeps
    | apply State.maintAsk_keeps
    | apply Keeps.ite
    | (refine (Keeps.mk' ?_ (by omega) (by omega) rfl) <;>
       first | assumption)

end Sys2Proof.Machine
end

