-- ==== Sys2Proof/Laws/Keeps/I2c.lean ====
section
/-! SUPPORT. What every operation of Machine/I2c.lean keeps. -/

namespace Sys2Proof.Machine

theorem State.busTo_keeps {z : State} (s : State) (b st : Nat) (hk : Keeps z s) :
    Keeps z (State.busTo s b st) := by
  unfold State.busTo
  repeat' with_reducible first
    | assumption
    | apply State.setBus_keeps
    | apply State.wr_keeps

theorem State.i2cCode_keeps {z : State} (s : State) (b code : Nat) (hk : Keeps z s) :
    Keeps z (State.i2cCode s b code) := by
  unfold State.i2cCode
  repeat' with_reducible first
    | assumption
    | apply State.count_keeps
    | apply State.wr_keeps
    | split

theorem State.setHost_keeps {z : State} (s : State) (b : Nat) (h : HostList) (hk : Keeps z s) :
    Keeps z (State.setHost s b h) := by
  unfold State.setHost
  repeat' with_reducible first
    | assumption
    | apply State.setBus_keeps

theorem State.endHost_keeps {z : State} (s : State) (b : Nat) (failed : Bool) (error : Nat) (hk : Keeps z s) :
    Keeps z (State.endHost s b failed error) := by
  unfold State.endHost
  repeat' with_reducible first
    | assumption
    | apply State.releaseIf_keeps
    | apply State.setBus_keeps
    | apply State.wrBlob_keeps
    | split

theorem State.hostAdvance_keeps {z : State} (s : State) (b : Nat) (hk : Keeps z s) :
    Keeps z (State.hostAdvance s b) := by
  unfold State.hostAdvance
  repeat' with_reducible first
    | assumption
    | apply State.endHost_keeps
    | apply State.setBus_keeps
    | apply State.setHost_keeps
    | split

theorem State.busFault_keeps {z : State} (s : State) (b code : Nat) (hk : Keeps z s) :
    Keeps z (State.busFault s b code) := by
  unfold State.busFault
  repeat' with_reducible first
    | assumption
    | apply State.busTo_keeps
    | apply State.endHost_keeps
    | apply State.i2cCode_keeps
    | apply State.notify_keeps
    | apply State.setBus_keeps
    | apply Keeps.ite

theorem State.busStart_keeps {z : State} (s : State) (b : Nat) (host : Bool) (job : Nat) (x : Xact) (hk : Keeps z s) :
    Keeps z (State.busStart s b host job x) := by
  unfold State.busStart
  repeat' with_reducible first
    | assumption
    | apply State.busTo_keeps
    | apply State.count_keeps
    | apply State.emit_keeps
    | apply State.setBus_keeps
    | apply Keeps.ite

end Sys2Proof.Machine
end

