-- ==== Sys2Proof/Laws/Keeps/Exposure.lean ====
section
/-! SUPPORT. What every operation of Machine/Exposure.lean keeps. -/

namespace Sys2Proof.Machine

theorem State.controlState_keeps {z : State} (s : State) (p v : Nat) (hk : Keeps z s) :
    Keeps z (State.controlState s p v) := by
  unfold State.controlState
  repeat' with_reducible first
    | assumption
    | apply State.notify_keeps
    | apply State.wr_keeps
    | apply Keeps.ite

theorem State.decideChange_keeps {z : State} (s : State) (p : Nat) (c : Change) (result err writeEnd : Nat) (hk : Keeps z s) :
    Keeps z (State.decideChange s p c result err writeEnd) := by
  unfold State.decideChange
  repeat' with_reducible first
    | assumption
    | apply State.count_keeps
    | apply State.reply_keeps
    | apply State.setExposure_keeps
    | apply State.wr_keeps
    | split

theorem State.markLate_keeps {z : State} (s : State) (p t : Nat) (hk : Keeps z s) :
    Keeps z (State.markLate s p t) := by
  unfold State.markLate
  repeat' with_reducible first
    | assumption
    | apply State.setExposure_keeps

theorem State.pushJob_keeps {z : State} (s : State) (p : Nat) (j : SensorJob) (hk : Keeps z s) :
    Keeps z (State.pushJob s p j) := by
  unfold State.pushJob
  repeat' with_reducible first
    | assumption
    | apply State.setBus_keeps

theorem State.dropJob_keeps {z : State} (s : State) (p : Nat) (k : SensorKind) (hk : Keeps z s) :
    Keeps z (State.dropJob s p k) := by
  unfold State.dropJob
  repeat' with_reducible first
    | assumption
    | apply State.setBus_keeps

theorem State.armChange_keeps {z : State} (s : State) (p : Nat) (c : Change) (hk : Keeps z s) :
    Keeps z (State.armChange s p c) := by
  unfold State.armChange
  repeat' with_reducible first
    | assumption
    | apply State.pushJob_keeps
    | split

theorem State.updateChange_keeps {z : State} (s : State) (p : Nat) (c : Change) (hk : Keeps z s) :
    Keeps z (State.updateChange s p c) := by
  unfold State.updateChange
  repeat' with_reducible first
    | assumption
    | apply State.setExposure_keeps

theorem State.setMissed_keeps {z : State} (s : State) (p : Nat) (c : Change) (hk : Keeps z s) :
    Keeps z (State.setMissed s p c) := by
  unfold State.setMissed
  repeat' with_reducible first
    | assumption
    | apply State.armChange_keeps
    | apply State.decideChange_keeps
    | apply State.dropJob_keeps
    | apply State.updateChange_keeps
    | apply Keeps.ite

theorem State.abandonChange_keeps {z : State} (s : State) (p : Nat) (c : Change) (err : Nat) (hk : Keeps z s) :
    Keeps z (State.abandonChange s p c err) := by
  unfold State.abandonChange
  repeat' with_reducible first
    | assumption
    | apply State.controlState_keeps
    | apply State.decideChange_keeps
    | apply State.dropJob_keeps
    | apply State.setExposure_keeps
    | apply Keeps.foldl
    | intro _
    | apply Keeps.ite

theorem State.setPartial_keeps {z : State} (s : State) (p : Nat) (c : Change) (err : Nat) (hk : Keeps z s) :
    Keeps z (State.setPartial s p c err) := by
  unfold State.setPartial
  repeat' with_reducible first
    | assumption
    | apply State.abandonChange_keeps
    | apply State.armChange_keeps
    | apply State.count_keeps
    | apply State.dropJob_keeps
    | apply State.markLate_keeps
    | apply State.notify_keeps
    | apply State.updateChange_keeps
    | apply Keeps.ite

theorem State.modeFailed_keeps {z : State} (s : State) (p err : Nat) (hk : Keeps z s) :
    Keeps z (State.modeFailed s p err) := by
  unfold State.modeFailed
  repeat' with_reducible first
    | assumption
    | apply State.count_keeps
    | apply State.dropJob_keeps
    | apply State.notify_keeps
    | apply State.setExposure_keeps

theorem State.jobFailed_keeps {z : State} (s : State) (j : SensorJob) (err : Nat) (hk : Keeps z s) :
    Keeps z (State.jobFailed s j err) := by
  unfold State.jobFailed
  repeat' with_reducible first
    | assumption
    | apply State.count_keeps
    | apply State.dropJob_keeps
    | apply State.modeFailed_keeps
    | apply State.setPartial_keeps
    | split

theorem State.updateJob_keeps {z : State} (s : State) (b : Nat) (j : SensorJob) (hk : Keeps z s) :
    Keeps z (State.updateJob s b j) := by
  unfold State.updateJob
  repeat' with_reducible first
    | assumption
    | apply State.setBus_keeps

theorem State.hostDefer_keeps {z : State} (s : State) (b : Nat) (hk : Keeps z s) :
    Keeps z (State.hostDefer s b) := by
  unfold State.hostDefer
  repeat' with_reducible first
    | assumption
    | apply State.count_keeps
    | apply State.setHost_keeps
    | split

/-- Work that is offered to a bus which cannot serve it fails. -/
theorem State.offerFails_keeps {z : State} (s : State) (b code : Nat) {t : State} (h : s.offerFails b code = some t) (hk : Keeps z s) :
    Keeps z t := by
  unfold State.offerFails at h
  split at h
  · cases h
    exact State.jobFailed_keeps _ _ _ (State.i2cCode_keeps _ _ _ hk)
  · split at h
    · cases h
    · cases h
      exact State.endHost_keeps _ _ _ _ (State.i2cCode_keeps _ _ _ hk)

theorem State.kick_keeps {z : State} (b fuel : Nat) (s : State) (hk : Keeps z s) : Keeps z (State.kick b fuel s) := by
  induction fuel generalizing s with
  | zero => exact hk
  | succ n ih =>
    unfold State.kick
    dsimp only
    repeat' with_reducible first
      | assumption
      | exact State.offerFails_keeps _ _ _ (by assumption) hk
      | apply ih
      | apply State.jobFailed_keeps
      | apply State.hostDefer_keeps
      | apply State.updateJob_keeps
      | apply State.busStart_keeps
      | apply State.setMissed_keeps
      | apply State.dropJob_keeps
      | split

theorem State.kickBus_keeps {z : State} (s : State) (b : Nat) (hk : Keeps z s) :
    Keeps z (State.kickBus s b) := by
  unfold State.kickBus
  repeat' with_reducible first
    | assumption
    | apply State.kick_keeps
    | apply Keeps.ite

theorem State.exposeAccept_keeps {z : State} (s : State) (r : Req) (p target : Nat) (codes isp : List (Nat × Nat)) (hk : Keeps z s) :
    Keeps z (State.exposeAccept s r p target codes isp) := by
  unfold State.exposeAccept
  try dsimp only [State.draw]
  repeat' with_reducible first
    | assumption
    | apply State.armChange_keeps
    | apply State.decideChange_keeps
    | apply State.kickBus_keeps
    | apply State.setExposure_keeps
    | apply State.updateChange_keeps
    | apply State.wr_keeps
    | split

theorem State.pushIsp_keeps {z : State} (s : State) (p first : Nat) (vals : List (Nat × Nat)) (hk : Keeps z s) :
    Keeps z (State.pushIsp s p first vals) := by
  unfold State.pushIsp
  repeat' with_reducible first
    | assumption
    | apply State.setExposure_keeps
    | apply Keeps.ite

theorem State.dropAll_keeps {z : State} (s : State) (p : Nat) (hk : Keeps z s) :
    Keeps z (State.dropAll s p) := by
  unfold State.dropAll
  repeat' with_reducible first
    | assumption
    | apply State.decideChange_keeps
    | apply State.setBus_keeps
    | apply Keeps.foldl
    | intro _

theorem State.dropPending_keeps {z : State} (s : State) (p : Nat) (hk : Keeps z s) :
    Keeps z (State.dropPending s p) := by
  unfold State.dropPending
  repeat' with_reducible first
    | assumption
    | apply State.decideChange_keeps
    | apply State.dropJob_keeps
    | apply Keeps.foldl
    | intro _
    | apply Keeps.ite

theorem State.numberingEnds_keeps {z : State} (s : State) (p : Nat) (hk : Keeps z s) :
    Keeps z (State.numberingEnds s p) := by
  unfold State.numberingEnds
  repeat' with_reducible first
    | assumption
    | apply State.dropPending_keeps
    | apply State.setExposure_keeps
    | split

theorem State.startMode_keeps {z : State} (s : State) (p : Nat) (hk : Keeps z s) :
    Keeps z (State.startMode s p) := by
  unfold State.startMode
  repeat' with_reducible first
    | assumption
    | apply State.dropJob_keeps
    | apply State.kickBus_keeps
    | apply State.pushJob_keeps
    | apply State.setExposure_keeps
    | split

theorem exposureApply_keeps {z : State} (t : Txn) (id : Nat) (v : PVal) (s : State) (hk : Keeps z s) :
    Keeps z (exposureApply t id v s) := by
  unfold exposureApply
  try dsimp only [State.draw]
  repeat' with_reducible first
    | assumption
    | apply State.controlState_keeps
    | apply State.dropAll_keeps
    | apply State.next32_keeps
    | apply State.setExposure_keeps
    | apply State.startMode_keeps
    | apply State.wrAll_keeps
    | split

theorem State.exposureOpens_keeps {z : State} (s : State) (p n frameCount : Nat) (hk : Keeps z s) :
    Keeps z (State.exposureOpens s p n frameCount).1 := by
  unfold State.exposureOpens
  repeat' with_reducible first
    | assumption
    | apply State.count_keeps
    | apply State.countBy_keeps
    | apply State.setExposure_keeps
    | apply State.setTicketing_keeps
    | apply State.wrAll_keeps
    | apply Keeps.foldl
    | intro _
    | apply Keeps.ite

theorem State.exposureVerify_keeps {z : State} (s : State) (p : Nat) (f : Frame) (hk : Keeps z s) :
    Keeps z (State.exposureVerify s p f).1 := by
  unfold State.exposureVerify
  repeat' with_reducible first
    | assumption
    | apply State.count_keeps
    | apply State.notify_keeps
    | apply State.setExposure_keeps
    | apply Keeps.foldl
    | intro _
    | split

theorem State.controlValues_keeps {z : State} (s : State) (p : Nat) (f : Frame) (hk : Keeps z s) :
    Keeps z (State.controlValues s p f) := by
  unfold State.controlValues
  repeat' with_reducible first
    | assumption
    | apply State.wr_keeps
    | apply Keeps.foldl
    | intro _
    | split

theorem State.hostOverran_keeps {z : State} (s : State) (b p n : Nat) (hk : Keeps z s) :
    Keeps z (State.hostOverran s b p n) := by
  unfold State.hostOverran
  repeat' with_reducible first
    | assumption
    | apply State.count_keeps
    | apply State.setBus_keeps
    | split

theorem State.restoreIn_keeps {z : State} (s : State) (p n : Nat) (d : Desc) (hk : Keeps z s) :
    Keeps z (State.restoreIn s p n d) := by
  unfold State.restoreIn
  repeat' with_reducible first
    | assumption
    | apply State.decideChange_keeps
    | apply State.dropJob_keeps
    | apply State.pushJob_keeps
    | apply Keeps.foldl
    | intro _
    | apply Keeps.ite

theorem execWriteWindowOpen_keeps {z : State} (port : Fin 16) (s : State) (hk : Keeps z s) {u : State} (he : execWriteWindowOpen port s = .next u) : Keeps z u := by
  unfold execWriteWindowOpen at he
  cases he
  try dsimp only [State.draw]
  repeat' with_reducible first
    | assumption
    | apply State.at_keeps
    | apply State.hostOverran_keeps
    | apply State.kickBus_keeps
    | apply State.restoreIn_keeps
    | apply State.setExposure_keeps
    | split

theorem State.setWritten_keeps {z : State} (s : State) (p : Nat) (k : SensorKind) (hk : Keeps z s) :
    Keeps z (State.setWritten s p k) := by
  unfold State.setWritten
  try dsimp only [State.draw]
  repeat' with_reducible first
    | assumption
    | apply State.controlState_keeps
    | apply State.decideChange_keeps
    | apply State.pushIsp_keeps
    | apply State.setExposure_keeps
    | split

theorem execWriteSetComplete_keeps {z : State} (port : Fin 16) (s : State) (hk : Keeps z s) {u : State} (he : execWriteSetComplete port s = .next u) : Keeps z u := by
  unfold execWriteSetComplete at he
  cases he
  try dsimp only [State.draw]
  repeat' with_reducible first
    | assumption
    | apply State.dropJob_keeps
    | apply State.kickBus_keeps
    | apply State.setWritten_keeps
    | apply State.wrS_keeps
    | split

theorem execModeSequenceDone_keeps {z : State} (port : Fin 16) (s : State) (hk : Keeps z s) {u : State} (he : execModeSequenceDone port s = .next u) : Keeps z u := by
  unfold execModeSequenceDone at he
  cases he
  try dsimp only [State.draw]
  repeat' with_reducible first
    | assumption
    | apply State.controlState_keeps
    | apply State.dropJob_keeps
    | apply State.kickBus_keeps
    | apply State.setExposure_keeps
    | split

theorem execModeSequenceRetry_keeps {z : State} (port : Fin 16) (s : State) (hk : Keeps z s) {u : State} (he : execModeSequenceRetry port s = .next u) : Keeps z u := by
  unfold execModeSequenceRetry at he
  cases he
  repeat' with_reducible first
    | assumption
    | apply State.at_keeps
    | apply State.startMode_keeps
    | split

theorem execSequenceWaitEnd_keeps {z : State} (port : Fin 16) (s : State) (hk : Keeps z s) {u : State} (he : execSequenceWaitEnd port s = .next u) : Keeps z u := by
  unfold execSequenceWaitEnd at he
  cases he
  try dsimp only [State.draw]
  repeat' with_reducible first
    | assumption
    | apply State.at_keeps
    | apply State.kickBus_keeps
    | apply State.updateJob_keeps
    | split

end Sys2Proof.Machine
end

