-- ==== Sys2Proof/Laws/Keeps/I2cBus.lean ====
section
/-! SUPPORT. What every operation of Machine/I2cBus.lean keeps. -/

namespace Sys2Proof.Machine

theorem State.hostDone_keeps {z : State} (s : State) (b code : Nat) (x : Xact) (data : List Byte) (hk : Keeps z s) :
    Keeps z (State.hostDone s b code x data) := by
  unfold State.hostDone
  repeat' with_reducible first
    | assumption
    | apply State.hostAdvance_keeps
    | apply State.setBus_keeps
    | apply State.setHost_keeps
    | split

theorem State.putBack_keeps {z : State} (s : State) (b : Nat) (host : Bool) (x : Xact) (hk : Keeps z s) :
    Keeps z (State.putBack s b host x) := by
  unfold State.putBack
  repeat' with_reducible first
    | assumption
    | apply State.setHost_keeps
    | apply State.updateJob_keeps
    | split

theorem State.pollEnds_keeps {z : State} (s : State) (b code : Nat) (hk : Keeps z s) :
    Keeps z (State.pollEnds s b code) := by
  unfold State.pollEnds
  repeat' with_reducible first
    | assumption
    | apply State.endHost_keeps
    | apply State.hostAdvance_keeps
    | apply State.setBus_keeps
    | apply Keeps.ite

theorem State.endXact_keeps {z : State} (s : State) (b code acked : Nat) (data : List Byte) (hk : Keeps z s) :
    Keeps z (State.endXact s b code acked data) := by
  unfold State.endXact
  try dsimp only [State.draw]
  repeat' with_reducible first
    | assumption
    | apply State.addBytes_keeps
    | apply State.busTo_keeps
    | apply State.count_keeps
    | apply State.endHost_keeps
    | apply State.hostDone_keeps
    | apply State.i2cCode_keeps
    | apply State.jobFailed_keeps
    | apply State.pollEnds_keeps
    | apply State.putBack_keeps
    | apply State.setBus_keeps
    | apply State.updateJob_keeps
    | split

theorem State.busFails_keeps {z : State} (s : State) (b code : Nat) (hk : Keeps z s) :
    Keeps z (State.busFails s b code) := by
  unfold State.busFails
  repeat' with_reducible first
    | assumption
    | apply State.busFault_keeps
    | apply State.jobFailed_keeps
    | apply State.kickBus_keeps
    | split

theorem execI2cLineTestDone_keeps {z : State} (bus : Fin 12) (sclLow drivenHigh shorted sdaLow : Bool) (s : State) (hk : Keeps z s) {u : State} (he : execI2cLineTestDone bus sclLow drivenHigh shorted sdaLow s = .next u) : Keeps z u := by
  unfold execI2cLineTestDone at he
  cases he
  repeat' with_reducible first
    | assumption
    | apply State.busFails_keeps
    | apply State.busTo_keeps
    | apply State.kickBus_keeps
    | apply Keeps.ite

theorem execI2cClearingDone_keeps {z : State} (bus : Fin 12) (released : Bool) (s : State) (hk : Keeps z s) {u : State} (he : execI2cClearingDone bus released s = .next u) : Keeps z u := by
  unfold execI2cClearingDone at he
  cases he
  repeat' with_reducible first
    | assumption
    | apply State.busFails_keeps
    | apply State.busTo_keeps
    | apply State.count_keeps
    | apply State.kickBus_keeps
    | apply Keeps.ite

theorem execI2cFaultRetry_keeps {z : State} (bus : Fin 12) (s : State) (hk : Keeps z s) {u : State} (he : execI2cFaultRetry bus s = .next u) : Keeps z u := by
  unfold execI2cFaultRetry at he
  cases he
  repeat' with_reducible first
    | assumption
    | apply State.at_keeps
    | apply State.busTo_keeps
    | apply Keeps.ite

theorem execI2cBusFree_keeps {z : State} (bus : Fin 12) (s : State) (hk : Keeps z s) {u : State} (he : execI2cBusFree bus s = .next u) : Keeps z u := by
  unfold execI2cBusFree at he
  cases he
  repeat' with_reducible first
    | assumption
    | apply State.busTo_keeps
    | apply State.kickBus_keeps
    | apply Keeps.ite

theorem execI2cTransactionDone_keeps {z : State} (bus : Fin 12) (nackAddr nackData : Bool) (acked : Nat) (data : List Byte) (s : State) (hk : Keeps z s) {u : State} (he : execI2cTransactionDone bus nackAddr nackData acked data s = .next u) : Keeps z u := by
  unfold execI2cTransactionDone at he
  cases he
  repeat' with_reducible first
    | assumption
    | apply State.endXact_keeps
    | apply Keeps.ite

theorem execI2cArbLost_keeps {z : State} (bus : Fin 12) (place : Fin 3) (acked : Nat) (data : List Byte) (s : State) (hk : Keeps z s) {u : State} (he : execI2cArbLost bus place acked data s = .next u) : Keeps z u := by
  unfold execI2cArbLost at he
  cases he
  repeat' with_reducible first
    | assumption
    | apply State.endXact_keeps
    | apply Keeps.ite

theorem execI2cBusError_keeps {z : State} (bus : Fin 12) (acked : Nat) (s : State) (hk : Keeps z s) {u : State} (he : execI2cBusError bus acked s = .next u) : Keeps z u := by
  unfold execI2cBusError at he
  cases he
  repeat' with_reducible first
    | assumption
    | apply State.endXact_keeps
    | apply Keeps.ite

theorem execI2cOtherStart_keeps {z : State} (bus : Fin 12) (s : State) (hk : Keeps z s) {u : State} (he : execI2cOtherStart bus s = .next u) : Keeps z u := by
  unfold execI2cOtherStart at he
  cases he
  repeat' with_reducible first
    | assumption
    | apply State.busTo_keeps
    | apply Keeps.ite

theorem execI2cSclTimeout_keeps {z : State} (bus : Fin 12) (acked : Nat) (s : State) (hk : Keeps z s) {u : State} (he : execI2cSclTimeout bus acked s = .next u) : Keeps z u := by
  unfold execI2cSclTimeout at he
  cases he
  repeat' with_reducible first
    | assumption
    | apply State.busTo_keeps
    | apply State.endXact_keeps
    | apply Keeps.ite

theorem execI2cSdaLowTimeout_keeps {z : State} (bus : Fin 12) (s : State) (hk : Keeps z s) {u : State} (he : execI2cSdaLowTimeout bus s = .next u) : Keeps z u := by
  unfold execI2cSdaLowTimeout at he
  cases he
  repeat' with_reducible first
    | assumption
    | apply State.busTo_keeps
    | apply Keeps.ite

theorem execI2cDriveFail_keeps {z : State} (bus : Fin 12) (acked : Nat) (s : State) (hk : Keeps z s) {u : State} (he : execI2cDriveFail bus acked s = .next u) : Keeps z u := by
  unfold execI2cDriveFail at he
  cases he
  try dsimp only [State.draw]
  repeat' with_reducible first
    | assumption
    | apply State.addBytes_keeps
    | apply State.busFails_keeps
    | split

theorem execI2cPoll_keeps {z : State} (bus : Fin 12) (s : State) (hk : Keeps z s) {u : State} (he : execI2cPoll bus s = .next u) : Keeps z u := by
  unfold execI2cPoll at he
  cases he
  try dsimp only [State.draw]
  repeat' with_reducible first
    | assumption
    | apply State.busStart_keeps
    | split

theorem execI2cPollTimeout_keeps {z : State} (bus : Fin 12) (s : State) (hk : Keeps z s) {u : State} (he : execI2cPollTimeout bus s = .next u) : Keeps z u := by
  unfold execI2cPollTimeout at he
  cases he
  try dsimp only [State.draw]
  repeat' with_reducible first
    | assumption
    | apply State.at_keeps
    | apply State.endHost_keeps
    | apply State.i2cCode_keeps
    | apply State.kickBus_keeps
    | split

theorem i2cApply_keeps {z : State} (t : Txn) (id : Nat) (v : PVal) (s : State) (hk : Keeps z s) :
    Keeps z (i2cApply t id v s) := by
  unfold i2cApply
  try dsimp only [State.draw]
  repeat' with_reducible first
    | assumption
    | apply State.busTo_keeps
    | apply State.hold_keeps
    | apply State.kickBus_keeps
    | apply State.setBus_keeps
    | split

end Sys2Proof.Machine
end

