-- ==== Sys2Proof/Laws/Keeps/Ingest.lean ====
section
/-! SUPPORT. What every operation of Machine/Ingest.lean keeps. -/

namespace Sys2Proof.Machine

theorem State.withFrame_keeps {z : State} (s : State) (p : Nat) (g : Frame → Frame) (hk : Keeps z s) :
    Keeps z (State.withFrame s p g) := by
  unfold State.withFrame
  repeat' with_reducible first
    | assumption
    | apply State.setIngest_keeps

theorem State.finalFrame_keeps {z : State} (s : State) (p slot : Nat) (hk : Keeps z s) :
    Keeps z (State.finalFrame s p slot) := by
  unfold State.finalFrame
  repeat' with_reducible first
    | assumption
    | apply State.setIngest_keeps
    | apply State.wrBlob_keeps
    | split

theorem State.finalUntaken_keeps {z : State} (s : State) (ctx : Nat) (hk : Keeps z s) :
    Keeps z (State.finalUntaken s ctx) := by
  unfold State.finalUntaken
  repeat' with_reducible first
    | assumption
    | apply State.finalFrame_keeps
    | apply Keeps.foldl
    | intro _

theorem State.countFlag_keeps {z : State} (s : State) (f : Frame) (i id : Nat) (hk : Keeps z s) :
    Keeps z (State.countFlag s f i id) := by
  unfold State.countFlag
  repeat' with_reducible first
    | assumption
    | apply State.count_keeps
    | apply Keeps.ite

theorem State.closeFrame_keeps {z : State} (s : State) (p cause linesSent : Nat) (hk : Keeps z s) :
    Keeps z (State.closeFrame s p cause linesSent) := by
  unfold State.closeFrame
  repeat' with_reducible first
    | assumption
    | apply State.count_keeps
    | apply State.countBy_keeps
    | apply State.countFlag_keeps
    | apply State.finalUntaken_keeps
    | apply State.fire_keeps
    | apply State.setIngest_keeps
    | apply State.wr_keeps
    | split

theorem State.trfReport_keeps {z : State} (s : State) (p : Nat) (c : FrameCfg) (hk : Keeps z s) :
    Keeps z (State.trfReport s p c) := by
  unfold State.trfReport
  repeat' with_reducible first
    | assumption
    | apply State.wrAll_keeps

theorem State.slotLost_keeps {z : State} (s : State) (p slot : Nat) (hk : Keeps z s) :
    Keeps z (State.slotLost s p slot) := by
  unfold State.slotLost
  repeat' with_reducible first
    | assumption
    | apply State.setCtx_keeps
    | apply State.setIngest_keeps
    | split

theorem State.resizeSlots_keeps {z : State} (s : State) (p : Nat) (hk : Keeps z s) :
    Keeps z (State.resizeSlots s p) := by
  unfold State.resizeSlots
  repeat' with_reducible first
    | assumption
    | apply State.trfReport_keeps
    | apply State.wr_keeps
    | apply Keeps.ite

theorem State.openFrame_keeps {z : State} (s : State) (p frameCount : Nat) (degraded : Bool) (hk : Keeps z s) :
    Keeps z (State.openFrame s p frameCount degraded) := by
  unfold State.openFrame
  try dsimp only [State.draw]
  repeat' with_reducible first
    | assumption
    | apply State.closeFrame_keeps
    | apply State.count_keeps
    | apply State.exposureOpens_keeps
    | apply State.fire_keeps
    | apply State.setIngest_keeps
    | apply State.setPort_keeps
    | apply State.setTicketing_keeps
    | apply State.slotLost_keeps
    | apply State.trfReport_keeps
    | apply State.wr_keeps
    | split

theorem State.ingestLine_keeps {z : State} (s : State) (p : Nat) (l : RxLine) (hk : Keeps z s) :
    Keeps z (State.ingestLine s p l) := by
  unfold State.ingestLine
  try dsimp only [State.draw]
  repeat' with_reducible first
    | assumption
    | apply State.count_keeps
    | apply State.countBy_keeps
    | apply State.setIngest_keeps
    | split

theorem State.ingestEmbedded_keeps {z : State} (s : State) (p type number : Nat) (crcErr : Bool) (bytes : List Byte) (hk : Keeps z s) :
    Keeps z (State.ingestEmbedded s p type number crcErr bytes) := by
  unfold State.ingestEmbedded
  repeat' with_reducible first
    | assumption
    | apply State.count_keeps
    | apply State.countBy_keeps
    | apply State.setIngest_keeps
    | split

theorem State.ingestAbandon_keeps {z : State} (s : State) (p : Nat) (hk : Keeps z s) :
    Keeps z (State.ingestAbandon s p) := by
  unfold State.ingestAbandon
  repeat' with_reducible first
    | assumption
    | apply State.setIngest_keeps
    | apply State.wr_keeps

theorem State.countTiles_keeps {z : State} (s : State) (p : Nat) (ts : List TileOut) (hk : Keeps z s) :
    Keeps z (State.countTiles s p ts) := by
  unfold State.countTiles
  repeat' with_reducible first
    | assumption
    | apply State.addBytes_keeps
    | apply State.count_keeps
    | apply State.countBy_keeps
    | apply Keeps.foldl
    | intro _
    | apply Keeps.ite

theorem execTrfTileRowWritten_keeps {z : State} (port : Fin 16) (s : State) (hk : Keeps z s) {u : State} (he : execTrfTileRowWritten port s = .next u) : Keeps z u := by
  unfold execTrfTileRowWritten at he
  cases he
  try dsimp only [State.draw]
  repeat' with_reducible first
    | assumption
    | apply State.countTiles_keeps
    | apply State.setIngest_keeps
    | split

theorem State.newHandle_keeps {z : State} (s : State) (nothing : Bool) (hk : Keeps z s) :
    Keeps z (State.newHandle s nothing).2 := by
  unfold State.newHandle
  try dsimp only [State.draw]
  repeat' with_reducible first
    | apply Keeps.iteSnd
    | (refine (Keeps.mk' ?_ (by omega) (by omega) rfl) <;>
       first | assumption)

theorem execFrameTicketWrite_keeps {z : State} (port : Fin 16) (s : State) (hk : Keeps z s) {u : State} (he : execFrameTicketWrite port s = .next u) : Keeps z u := by
  unfold execFrameTicketWrite at he
  cases he
  try dsimp only [State.draw]
  repeat' with_reducible first
    | assumption
    | apply State.addBytes_keeps
    | apply State.controlValues_keeps
    | apply State.count_keeps
    | apply State.exposureVerify_keeps
    | apply State.finalFrame_keeps
    | apply State.finalUntaken_keeps
    | apply State.newHandle_keeps
    | apply State.setIngest_keeps
    | apply State.trace_keeps
    | apply State.wrAll_keeps
    | split

theorem execIngestDeadline_keeps {z : State} (port : Fin 16) (s : State) (hk : Keeps z s) {u : State} (he : execIngestDeadline port s = .next u) : Keeps z u := by
  unfold execIngestDeadline at he
  cases he
  repeat' with_reducible first
    | assumption
    | apply State.at_keeps
    | apply State.closeFrame_keeps
    | split

theorem ingestApply_keeps {z : State} (t : Txn) (id : Nat) (v : PVal) (s : State) (hk : Keeps z s) :
    Keeps z (ingestApply t id v s) := by
  unfold ingestApply
  repeat' with_reducible first
    | assumption
    | apply State.next32_keeps
    | apply State.numberingEnds_keeps
    | apply State.resizeSlots_keeps
    | apply State.setCtx_keeps
    | apply State.wr_keeps
    | apply State.wrBlob_keeps
    | apply Keeps.foldl
    | intro _
    | apply Keeps.ite

end Sys2Proof.Machine
end

