-- ==== Sys2Proof/Laws/Keeps/Links.lean ====
section
/-! SUPPORT. What every operation of Machine/Links.lean keeps. -/

namespace Sys2Proof.Machine

theorem State.linkNotify_keeps {z : State} (s : State) (code port lane value : Nat) (hk : Keeps z s) :
    Keeps z (State.linkNotify s code port lane value) := by
  unfold State.linkNotify
  repeat' with_reducible first
    | assumption
    | apply State.notify_keeps

theorem State.portTo_keeps {z : State} (s : State) (p st : Nat) (hk : Keeps z s) :
    Keeps z (State.portTo s p st) := by
  unfold State.portTo
  repeat' with_reducible first
    | assumption
    | apply State.linkNotify_keeps
    | apply State.wr_keeps
    | apply Keeps.ite

theorem State.laneTo_keeps {z : State} (s : State) (k st : Nat) (hk : Keeps z s) :
    Keeps z (State.laneTo s k st) := by
  unfold State.laneTo
  repeat' with_reducible first
    | assumption
    | apply State.setLane_keeps
    | apply State.wr_keeps

theorem State.laneAcquire_keeps {z : State} (s : State) (k : Nat) (hk : Keeps z s) :
    Keeps z (State.laneAcquire s k) := by
  unfold State.laneAcquire
  repeat' with_reducible first
    | assumption
    | apply State.laneTo_keeps
    | apply State.setLane_keeps
    | apply State.wr_keeps

theorem State.bondCheck_keeps {z : State} (s : State) (p : Nat) (hk : Keeps z s) :
    Keeps z (State.bondCheck s p) := by
  unfold State.bondCheck
  repeat' with_reducible first
    | assumption
    | apply State.portTo_keeps
    | apply State.setLane_keeps
    | apply State.setPort_keeps
    | apply Keeps.foldl
    | intro _
    | apply Keeps.ite

theorem State.laneFailed_keeps {z : State} (s : State) (k cause : Nat) (hk : Keeps z s) :
    Keeps z (State.laneFailed s k cause) := by
  unfold State.laneFailed
  repeat' with_reducible first
    | assumption
    | apply State.bondCheck_keeps
    | apply State.laneTo_keeps
    | apply State.linkNotify_keeps

theorem State.failAttempt_keeps {z : State} (s : State) (k : Nat) (hk : Keeps z s) :
    Keeps z (State.failAttempt s k) := by
  unfold State.failAttempt
  repeat' with_reducible first
    | assumption
    | apply State.count_keeps
    | apply State.laneAcquire_keeps
    | apply State.laneFailed_keeps
    | apply State.setLane_keeps
    | apply Keeps.ite

theorem State.laneClear_keeps {z : State} (s : State) (k : Nat) (hk : Keeps z s) :
    Keeps z (State.laneClear s k) := by
  unfold State.laneClear
  repeat' with_reducible first
    | assumption
    | apply State.setLane_keeps

theorem State.laneStart_keeps {z : State} (s : State) (leader k : Nat) (hk : Keeps z s) :
    Keeps z (State.laneStart s leader k) := by
  unfold State.laneStart
  repeat' with_reducible first
    | assumption
    | apply State.laneClear_keeps
    | apply State.laneTo_keeps
    | apply State.wr_keeps
    | apply State.wrAll_keeps
    | apply Keeps.ite

theorem State.portStart_keeps {z : State} (s : State) (p : Nat) (hk : Keeps z s) :
    Keeps z (State.portStart s p) := by
  unfold State.portStart
  repeat' with_reducible first
    | assumption
    | apply State.laneStart_keeps
    | apply State.portTo_keeps
    | apply State.setPort_keeps
    | apply State.wr_keeps
    | apply Keeps.foldl
    | intro _

theorem State.portLost_keeps {z : State} (s : State) (p : Nat) (hk : Keeps z s) :
    Keeps z (State.portLost s p) := by
  unfold State.portLost
  repeat' with_reducible first
    | assumption
    | apply State.closeFrame_keeps
    | apply State.dropPending_keeps
    | apply State.setPort_keeps

theorem State.portStop_keeps {z : State} (s : State) (p width : Nat) (hk : Keeps z s) :
    Keeps z (State.portStop s p width) := by
  unfold State.portStop
  repeat' with_reducible first
    | assumption
    | apply State.laneClear_keeps
    | apply State.portLost_keeps
    | apply State.portTo_keeps
    | apply State.wr_keeps
    | apply State.wrAll_keeps
    | apply Keeps.foldl
    | intro _
    | apply Keeps.ite

theorem State.linksDuiker_keeps {z : State} (s : State) (enter : Bool) (hk : Keeps z s) :
    Keeps z (State.linksDuiker s enter) := by
  unfold State.linksDuiker
  repeat' with_reducible first
    | assumption
    | apply State.portStart_keeps
    | apply State.portStop_keeps
    | apply Keeps.foldl
    | intro _
    | apply Keeps.ite

theorem State.healthResult_keeps {z : State} (s : State) (k cls : Nat) (hk : Keeps z s) :
    Keeps z (State.healthResult s k cls) := by
  unfold State.healthResult
  repeat' with_reducible first
    | assumption
    | apply State.bondCheck_keeps
    | apply State.count_keeps
    | apply State.laneAcquire_keeps
    | apply State.laneTo_keeps
    | apply State.linkNotify_keeps
    | apply State.setLane_keeps
    | apply State.wr_keeps
    | apply Keeps.ite

theorem execLineHealthTestDone_keeps {z : State} (port : Fin 16) (m : List LineMeas) (s : State) (hk : Keeps z s) {u : State} (he : execLineHealthTestDone port m s = .next u) : Keeps z u := by
  unfold execLineHealthTestDone at he
  cases he
  repeat' with_reducible first
    | assumption
    | apply State.healthResult_keeps
    | apply Keeps.foldl
    | intro _
    | apply Keeps.ite

theorem execHealthRetestTimer_keeps {z : State} (port : Fin 16) (lane : Fin 4) (s : State) (hk : Keeps z s) {u : State} (he : execHealthRetestTimer port lane s = .next u) : Keeps z u := by
  unfold execHealthRetestTimer at he
  cases he
  repeat' with_reducible first
    | assumption
    | apply State.at_keeps
    | apply State.setLane_keeps
    | apply Keeps.ite

theorem execAcquireAttemptEnd_keeps {z : State} (port : Fin 16) (lane : Fin 4) (lock : Bool) (bad eye : Nat) (s : State) (hk : Keeps z s) {u : State} (he : execAcquireAttemptEnd port lane lock bad eye s = .next u) : Keeps z u := by
  unfold execAcquireAttemptEnd at he
  cases he
  repeat' with_reducible first
    | assumption
    | apply State.failAttempt_keeps
    | apply State.laneTo_keeps
    | apply State.wr_keeps
    | apply Keeps.ite

theorem execNoSignalChange_keeps {z : State} (port : Fin 16) (lane : Fin 4) (below : Bool) (s : State) (hk : Keeps z s) {u : State} (he : execNoSignalChange port lane below s = .next u) : Keeps z u := by
  unfold execNoSignalChange at he
  cases he
  repeat' with_reducible first
    | assumption
    | apply State.laneAcquire_keeps
    | apply State.setLane_keeps
    | apply Keeps.ite

theorem execNoSignalTimeout_keeps {z : State} (port : Fin 16) (lane : Fin 4) (s : State) (hk : Keeps z s) {u : State} (he : execNoSignalTimeout port lane s = .next u) : Keeps z u := by
  unfold execNoSignalTimeout at he
  cases he
  repeat' with_reducible first
    | assumption
    | apply State.at_keeps
    | apply State.laneFailed_keeps
    | apply Keeps.ite

theorem State.prbsBlock_keeps {z : State} (s : State) (k pattern hdr pay : Nat) (hk : Keeps z s) :
    Keeps z (State.prbsBlock s k pattern hdr pay) := by
  unfold State.prbsBlock
  repeat' with_reducible first
    | assumption
    | apply State.countBy_keeps
    | apply State.setLane_keeps
    | split

theorem State.decidePolarity_keeps {z : State} (s : State) (k pol : Nat) (hk : Keeps z s) :
    Keeps z (State.decidePolarity s k pol) := by
  unfold State.decidePolarity
  repeat' with_reducible first
    | assumption
    | apply State.laneTo_keeps
    | apply State.setLane_keeps
    | apply State.wr_keeps

theorem State.polarityBlock_keeps {z : State} (s : State) (k hdr pay : Nat) (hk : Keeps z s) :
    Keeps z (State.polarityBlock s k hdr pay) := by
  unfold State.polarityBlock
  repeat' with_reducible first
    | assumption
    | apply State.decidePolarity_keeps
    | apply State.setLane_keeps
    | apply Keeps.ite

theorem State.controlBlock_keeps {z : State} (s : State) (k pay : Nat) (hk : Keeps z s) :
    Keeps z (State.controlBlock s k pay) := by
  unfold State.controlBlock
  try dsimp only [State.draw]
  repeat' with_reducible first
    | assumption
    | apply State.count_keeps
    | apply State.setLane_keeps
    | apply State.setPort_keeps
    | split

theorem execCrlBlockRx_keeps {z : State} (port : Fin 16) (lane : Fin 4) (hdr : Fin 4) (payload : BitVec 64) (s : State) (hk : Keeps z s) {u : State} (he : execCrlBlockRx port lane hdr payload s = .next u) : Keeps z u := by
  unfold execCrlBlockRx at he
  cases he
  repeat' with_reducible first
    | assumption
    | apply State.controlBlock_keeps
    | apply State.count_keeps
    | apply State.failAttempt_keeps
    | apply State.polarityBlock_keeps
    | apply State.prbsBlock_keeps
    | apply State.setLane_keeps
    | apply Keeps.ite

theorem execPolarityTimeout_keeps {z : State} (port : Fin 16) (lane : Fin 4) (s : State) (hk : Keeps z s) {u : State} (he : execPolarityTimeout port lane s = .next u) : Keeps z u := by
  unfold execPolarityTimeout at he
  cases he
  repeat' with_reducible first
    | assumption
    | apply State.at_keeps
    | apply State.decidePolarity_keeps
    | apply State.failAttempt_keeps
    | apply Keeps.ite

theorem execBlockLockAchieved_keeps {z : State} (port : Fin 16) (lane : Fin 4) (s : State) (hk : Keeps z s) {u : State} (he : execBlockLockAchieved port lane s = .next u) : Keeps z u := by
  unfold execBlockLockAchieved at he
  cases he
  repeat' with_reducible first
    | assumption
    | apply State.laneTo_keeps
    | apply State.setLane_keeps
    | apply Keeps.ite

theorem State.loseLane_keeps {z : State} (s : State) (p k : Nat) (hk : Keeps z s) :
    Keeps z (State.loseLane s p k) := by
  unfold State.loseLane
  repeat' with_reducible first
    | assumption
    | apply State.fire_keeps
    | apply State.laneAcquire_keeps
    | apply State.linkNotify_keeps
    | apply State.setLane_keeps
    | apply State.upd_keeps

theorem State.deskewCheck_keeps {z : State} (s : State) (p : Nat) (hk : Keeps z s) :
    Keeps z (State.deskewCheck s p) := by
  unfold State.deskewCheck
  repeat' with_reducible first
    | assumption
    | apply State.portTo_keeps
    | apply Keeps.ite

theorem State.loseLanes_keeps {z : State} (s : State) (p : Nat) (ks : List Nat) (hk : Keeps z s) :
    Keeps z (State.loseLanes s p ks) := by
  unfold State.loseLanes
  repeat' with_reducible first
    | assumption
    | apply State.bondCheck_keeps
    | apply State.count_keeps
    | apply State.deskewCheck_keeps
    | apply State.loseLane_keeps
    | apply State.portLost_keeps
    | apply State.portTo_keeps
    | apply State.setPort_keeps
    | apply State.withFrame_keeps
    | apply Keeps.foldl
    | intro _
    | apply Keeps.ite

theorem State.dropLanes_keeps {z : State} (s : State) (ks : List Nat) (hk : Keeps z s) :
    Keeps z (State.dropLanes s ks) := by
  unfold State.dropLanes
  repeat' with_reducible first
    | assumption
    | apply State.failAttempt_keeps
    | apply State.loseLanes_keeps
    | apply Keeps.foldl
    | intro _

theorem execBlockLockLoss_keeps {z : State} (lanes : List (Fin 64)) (s : State) (hk : Keeps z s) {u : State} (he : execBlockLockLoss lanes s = .next u) : Keeps z u := by
  unfold execBlockLockLoss at he
  cases he
  repeat' with_reducible first
    | assumption
    | apply State.count_keeps
    | apply State.dropLanes_keeps
    | apply Keeps.foldl
    | intro _
    | apply Keeps.ite

theorem execCdrLockLoss_keeps {z : State} (lanes : List (Fin 64)) (s : State) (hk : Keeps z s) {u : State} (he : execCdrLockLoss lanes s = .next u) : Keeps z u := by
  unfold execCdrLockLoss at he
  cases he
  repeat' with_reducible first
    | assumption
    | apply State.dropLanes_keeps
    | apply Keeps.ite

theorem State.holdLane_keeps {z : State} (s : State) (k reason claim : Nat) (hk : Keeps z s) :
    Keeps z (State.holdLane s k reason claim) := by
  unfold State.holdLane
  repeat' with_reducible first
    | assumption
    | apply State.count_keeps
    | apply State.linkNotify_keeps
    | apply State.setLane_keeps
    | apply Keeps.ite

theorem State.alignPair_keeps {z : State} (s : State) (k w : Nat) (hk : Keeps z s) :
    Keeps z (State.alignPair s k w) := by
  unfold State.alignPair
  repeat' with_reducible first
    | assumption
    | apply State.bondCheck_keeps
    | apply State.holdLane_keeps
    | apply State.laneTo_keeps
    | apply State.setLane_keeps
    | apply State.wr_keeps
    | apply Keeps.foldl
    | intro _
    | apply Keeps.ite

theorem State.identifyAlign_keeps {z : State} (s : State) (k w ui : Nat) (hk : Keeps z s) :
    Keeps z (State.identifyAlign s k w ui) := by
  unfold State.identifyAlign
  try dsimp only [State.draw]
  repeat' with_reducible first
    | assumption
    | apply State.alignPair_keeps
    | apply State.setLane_keeps
    | split

theorem State.deskewFail_keeps {z : State} (s : State) (p spread : Nat) (ks : List Nat) (hk : Keeps z s) :
    Keeps z (State.deskewFail s p spread ks) := by
  unfold State.deskewFail
  repeat' with_reducible first
    | assumption
    | apply State.count_keeps
    | apply State.linkNotify_keeps
    | apply State.setLane_keeps
    | apply State.setPort_keeps
    | apply Keeps.foldl
    | intro _
    | apply Keeps.ite

theorem State.joinLanes_keeps {z : State} (s : State) (p : Nat) (ks : List Nat) (hk : Keeps z s) :
    Keeps z (State.joinLanes s p ks) := by
  unfold State.joinLanes
  repeat' with_reducible first
    | assumption
    | apply State.laneTo_keeps
    | apply State.setLane_keeps
    | apply State.upd_keeps
    | apply Keeps.foldl
    | intro _
    | apply Keeps.ite

theorem State.tryDeskew_keeps {z : State} (s : State) (p : Nat) (hk : Keeps z s) :
    Keeps z (State.tryDeskew s p) := by
  unfold State.tryDeskew
  try dsimp only [State.draw]
  repeat' with_reducible first
    | assumption
    | apply State.deskewCheck_keeps
    | apply State.deskewFail_keeps
    | apply State.joinLanes_keeps
    | apply State.portTo_keeps
    | apply State.setPort_keeps
    | apply State.wrAll_keeps
    | split

theorem State.tryRejoin_keeps {z : State} (s : State) (p : Nat) (hk : Keeps z s) :
    Keeps z (State.tryRejoin s p) := by
  unfold State.tryRejoin
  repeat' with_reducible first
    | assumption
    | apply State.deskewFail_keeps
    | apply State.laneTo_keeps
    | apply State.setLane_keeps
    | apply State.setPort_keeps
    | apply Keeps.foldl
    | intro _
    | split

theorem State.upAlign_keeps {z : State} (s : State) (k : Nat) (w : Option Nat) (ui : Nat) (hk : Keeps z s) :
    Keeps z (State.upAlign s k w ui) := by
  unfold State.upAlign
  try dsimp only [State.draw]
  repeat' with_reducible first
    | assumption
    | apply State.count_keeps
    | apply State.loseLanes_keeps
    | apply State.setLane_keeps
    | split

theorem execCrlAlignRx_keeps {z : State} (port : Fin 16) (lane : Fin 4) (align : Option (BitVec 64)) (ui : Nat) (s : State) (hk : Keeps z s) {u : State} (he : execCrlAlignRx port lane align ui s = .next u) : Keeps z u := by
  unfold execCrlAlignRx at he
  cases he
  repeat' with_reducible first
    | assumption
    | apply State.identifyAlign_keeps
    | apply State.setLane_keeps
    | apply State.tryDeskew_keeps
    | apply State.tryRejoin_keeps
    | apply State.upAlign_keeps
    | apply Keeps.ite
    | split

theorem execIdentifyTimeout_keeps {z : State} (port : Fin 16) (lane : Fin 4) (s : State) (hk : Keeps z s) {u : State} (he : execIdentifyTimeout port lane s = .next u) : Keeps z u := by
  unfold execIdentifyTimeout at he
  cases he
  repeat' with_reducible first
    | assumption
    | apply State.at_keeps
    | apply State.failAttempt_keeps
    | apply Keeps.ite

theorem State.frameStart_keeps {z : State} (s : State) (p frameCount : Nat) (hk : Keeps z s) :
    Keeps z (State.frameStart s p frameCount) := by
  unfold State.frameStart
  repeat' with_reducible first
    | assumption
    | apply State.count_keeps
    | apply State.joinLanes_keeps
    | apply State.openFrame_keeps
    | apply State.portTo_keeps
    | apply State.setPort_keeps
    | apply State.withFrame_keeps
    | apply Keeps.ite

theorem State.frameEnd_keeps {z : State} (s : State) (p frameCount linesSent : Nat) (hk : Keeps z s) :
    Keeps z (State.frameEnd s p frameCount linesSent) := by
  unfold State.frameEnd
  repeat' with_reducible first
    | assumption
    | apply State.closeFrame_keeps
    | apply State.count_keeps
    | apply State.setPort_keeps
    | apply Keeps.ite

theorem State.linkLine_keeps {z : State} (s : State) (p number endNumber width len : Nat) (payload : List Byte) (crc : Nat) (hk : Keeps z s) :
    Keeps z (State.linkLine s p number endNumber width len payload crc) := by
  unfold State.linkLine
  repeat' with_reducible first
    | assumption
    | apply State.addBytes_keeps
    | apply State.count_keeps
    | apply State.ingestLine_keeps
    | apply State.setPort_keeps
    | apply Keeps.ite

theorem State.patStop_keeps {z : State} (s : State) (p : Nat) (hk : Keeps z s) :
    Keeps z (State.patStop s p) := by
  unfold State.patStop
  repeat' with_reducible first
    | assumption
    | apply State.loseLanes_keeps
    | apply State.setPort_keeps
    | apply Keeps.ite

theorem State.patLineRx_keeps {z : State} (s : State) (p : Nat) (hk : Keeps z s) :
    Keeps z (State.patLineRx s p) := by
  unfold State.patLineRx
  repeat' with_reducible first
    | assumption
    | apply State.at_keeps
    | apply State.linkLine_keeps
    | apply State.patStop_keeps
    | apply State.setPort_keeps
    | apply Keeps.ite

theorem State.patFrameEnd_keeps {z : State} (s : State) (p : Nat) (hk : Keeps z s) :
    Keeps z (State.patFrameEnd s p) := by
  unfold State.patFrameEnd
  repeat' with_reducible first
    | assumption
    | apply State.at_keeps
    | apply State.frameEnd_keeps
    | apply State.setPort_keeps
    | apply Keeps.ite

theorem execCrlFrameEndRx_keeps {z : State} (port : Fin 16) (frameCount linesSent : Nat) (s : State) (hk : Keeps z s) {u : State} (he : execCrlFrameEndRx port frameCount linesSent s = .next u) : Keeps z u := by
  unfold execCrlFrameEndRx at he
  cases he
  repeat' with_reducible first
    | assumption
    | apply State.frameEnd_keeps
    | apply State.patFrameEnd_keeps
    | apply Keeps.ite

theorem execCrlLineRx_keeps {z : State} (port : Fin 16) (number endNumber width len : Nat) (payload : List Byte) (crc : Nat) (s : State) (hk : Keeps z s) {u : State} (he : execCrlLineRx port number endNumber width len payload crc s = .next u) : Keeps z u := by
  unfold execCrlLineRx at he
  cases he
  repeat' with_reducible first
    | assumption
    | apply State.linkLine_keeps
    | apply State.patLineRx_keeps
    | apply Keeps.ite

theorem execEmbeddedLineRx_keeps {z : State} (port : Fin 16) (type : Fin 2) (number endNumber : Nat) (payload : List Byte) (crc : Nat) (s : State) (hk : Keeps z s) {u : State} (he : execEmbeddedLineRx port type number endNumber payload crc s = .next u) : Keeps z u := by
  unfold execEmbeddedLineRx at he
  cases he
  repeat' with_reducible first
    | assumption
    | apply State.addBytes_keeps
    | apply State.count_keeps
    | apply State.ingestEmbedded_keeps
    | apply State.setPort_keeps
    | apply Keeps.ite

theorem execCrlUnknownControl_keeps {z : State} (port : Fin 16) (s : State) (hk : Keeps z s) {u : State} (he : execCrlUnknownControl port s = .next u) : Keeps z u := by
  unfold execCrlUnknownControl at he
  cases he
  repeat' with_reducible first
    | assumption
    | apply State.count_keeps
    | apply Keeps.ite

theorem execCrlDataOutsideLine_keeps {z : State} (port : Fin 16) (s : State) (hk : Keeps z s) {u : State} (he : execCrlDataOutsideLine port s = .next u) : Keeps z u := by
  unfold execCrlDataOutsideLine at he
  cases he
  repeat' with_reducible first
    | assumption
    | apply State.count_keeps
    | apply Keeps.ite

theorem State.trigPin_keeps {z : State} (s : State) (n : Nat) (active : Bool) (hk : Keeps z s) :
    Keeps z (State.trigPin s n active) := by
  unfold State.trigPin
  repeat' with_reducible first
    | assumption
    | apply State.pin_keeps
    | apply Keeps.ite

theorem State.trigTick_keeps {z : State} (s : State) (n : Nat) (hk : Keeps z s) :
    Keeps z (State.trigTick s n) := by
  unfold State.trigTick
  repeat' with_reducible first
    | assumption
    | apply State.count_keeps
    | apply State.setTrig_keeps
    | apply Keeps.ite

theorem State.trigPulse_keeps {z : State} (s : State) (n : Nat) (hk : Keeps z s) :
    Keeps z (State.trigPulse s n) := by
  unfold State.trigPulse
  repeat' with_reducible first
    | assumption
    | apply State.count_keeps
    | apply State.fire_keeps
    | apply State.setTrig_keeps
    | apply State.trigPin_keeps
    | apply Keeps.ite

theorem execXtrigPulseStart_keeps {z : State} (n : Fin 16) (s : State) (hk : Keeps z s) {u : State} (he : execXtrigPulseStart n s = .next u) : Keeps z u := by
  unfold execXtrigPulseStart at he
  cases he
  repeat' with_reducible first
    | assumption
    | apply State.at_keeps
    | apply State.setTrig_keeps
    | apply State.trigPulse_keeps
    | split

theorem execXtrigPulseEnd_keeps {z : State} (n : Fin 16) (s : State) (hk : Keeps z s) {u : State} (he : execXtrigPulseEnd n s = .next u) : Keeps z u := by
  unfold execXtrigPulseEnd at he
  cases he
  repeat' with_reducible first
    | assumption
    | apply State.at_keeps
    | apply State.setTrig_keeps
    | apply State.trigPin_keeps
    | split

theorem State.portHalt_keeps {z : State} (s : State) (t : Txn) (p : Nat) (hk : Keeps z s) :
    Keeps z (State.portHalt s t p) := by
  unfold State.portHalt
  repeat' with_reducible first
    | assumption
    | apply State.portStop_keeps
    | apply State.wrAll_keeps

theorem State.stayFailed_keeps {z : State} (s : State) (p : Nat) (ks : List Nat) (hk : Keeps z s) :
    Keeps z (State.stayFailed s p ks) := by
  unfold State.stayFailed
  repeat' with_reducible first
    | assumption
    | apply State.laneTo_keeps
    | apply Keeps.foldl
    | intro _

theorem linkApply_keeps {z : State} (t : Txn) (id : Nat) (v : PVal) (s : State) (hk : Keeps z s) :
    Keeps z (linkApply t id v s) := by
  unfold linkApply
  repeat' with_reducible first
    | assumption
    | apply State.portHalt_keeps
    | apply State.portStart_keeps
    | apply State.setPort_keeps
    | apply State.setTrig_keeps
    | apply State.stayFailed_keeps
    | apply State.trfReport_keeps
    | apply State.trigPin_keeps
    | apply Keeps.ite

end Sys2Proof.Machine
end

