-- ==== Sys2Proof/Laws/Keeps/Chamois.lean ====
section
/-! SUPPORT. What every operation of Machine/Chamois.lean keeps. -/

namespace Sys2Proof.Machine

theorem State.modSlot_keeps {z : State} (s : State) (p slot : Nat) (g : Frame → Frame) (hk : Keeps z s) :
    Keeps z (State.modSlot s p slot g) := by
  unfold State.modSlot
  repeat' with_reducible first
    | assumption
    | apply State.setIngest_keeps
    | split

theorem State.flagRepeated_keeps {z : State} (s : State) (c p slot : Nat) (hk : Keeps z s) :
    Keeps z (State.flagRepeated s c p slot) := by
  unfold State.flagRepeated
  repeat' with_reducible first
    | assumption
    | apply State.count_keeps
    | apply State.modSlot_keeps
    | split

theorem State.modTicket_keeps {z : State} (s : State) (p slot : Nat) (g : Frame → Frame) (hk : Keeps z s) :
    Keeps z (State.modTicket s p slot g) := by
  unfold State.modTicket
  repeat' with_reducible first
    | assumption
    | apply State.modSlot_keeps

theorem State.leaveFrame_keeps {z : State} (s : State) (j : Job) (hk : Keeps z s) :
    Keeps z (State.leaveFrame s j) := by
  unfold State.leaveFrame
  try dsimp only [State.draw]
  repeat' with_reducible first
    | assumption
    | apply State.finalFrame_keeps
    | apply State.modSlot_keeps
    | split

theorem State.traceJob_keeps {z : State} (s : State) (c ticket cycles endNs outcome : Nat) (hk : Keeps z s) :
    Keeps z (State.traceJob s c ticket cycles endNs outcome) := by
  unfold State.traceJob
  repeat' with_reducible first
    | assumption
    | apply State.trace_keeps

theorem State.chamoisInForce_keeps {z : State} (s : State) (id : Nat) (v : PVal) (hk : Keeps z s) :
    Keeps z (State.chamoisInForce s id v) := by
  unfold State.chamoisInForce
  try dsimp only [State.draw]
  repeat' with_reducible first
    | assumption
    | apply State.wr_keeps
    | apply State.wrBlob_keeps
    | split

theorem State.awaitBoundary_keeps {z : State} (s : State) (id : Nat) (v : PVal) (hk : Keeps z s) :
    Keeps z (State.awaitBoundary s id v) := by
  unfold State.awaitBoundary
  repeat' with_reducible first
    | assumption
    | apply State.setCtx_keeps

theorem State.adopt_keeps {z : State} (s : State) (c : Nat) (hk : Keeps z s) :
    Keeps z (State.adopt s c) := by
  unfold State.adopt
  repeat' with_reducible first
    | assumption
    | apply State.chamoisInForce_keeps
    | apply State.setCtx_keeps
    | apply State.setRend_keeps
    | apply State.wr_keeps
    | apply State.wrBlob_keeps
    | apply Keeps.foldl
    | intro _
    | split

theorem State.rendOnOff_keeps {z : State} (s : State) (c v : Nat) (hk : Keeps z s) :
    Keeps z (State.rendOnOff s c v) := by
  unfold State.rendOnOff
  repeat' with_reducible first
    | assumption
    | apply State.setRend_keeps
    | apply Keeps.ite

theorem State.abandonJob_keeps {z : State} (s : State) (c : Nat) (overrun : Bool) (hk : Keeps z s) :
    Keeps z (State.abandonJob s c overrun) := by
  unfold State.abandonJob
  repeat' with_reducible first
    | apply State.count_keeps
    | apply State.fire_keeps
    | apply State.flagRepeated_keeps
    | apply State.leaveFrame_keeps
    | apply State.modTicket_keeps
    | apply State.setRend_keeps
    | apply State.traceJob_keeps
    | apply Keeps.foldl
    | intro _
    | split
    | (refine (Keeps.mk' ?_ (by omega) (by omega) rfl) <;>
       first | assumption | apply State.setCtx_keeps)

theorem State.retireFrames_keeps {z : State} (s : State) (c : Nat) (hk : Keeps z s) :
    Keeps z (State.retireFrames s c) := by
  unfold State.retireFrames
  repeat' with_reducible first
    | assumption
    | apply State.setIngest_keeps
    | apply Keeps.foldl
    | intro _

theorem State.activate_keeps {z : State} (s : State) (c : Nat) (hk : Keeps z s) :
    Keeps z (State.activate s c) := by
  unfold State.activate
  repeat' with_reducible first
    | assumption
    | apply State.rendOnOff_keeps
    | apply State.retireFrames_keeps
    | apply State.setCtx_keeps
    | apply State.setTicketing_keeps
    | apply State.wr_keeps
    | apply Keeps.foldl
    | intro _

theorem State.keepLuts_keeps {z : State} (s : State) (c : Nat) (hk : Keeps z s) :
    Keeps z (State.keepLuts s c) := by
  unfold State.keepLuts
  repeat' with_reducible first
    | assumption
    | apply State.release_keeps
    | apply State.setRend_keeps
    | apply State.wrBlob_keeps
    | apply Keeps.foldl
    | intro _
    | split

theorem State.deactivate_keeps {z : State} (s : State) (c : Nat) (hk : Keeps z s) :
    Keeps z (State.deactivate s c) := by
  unfold State.deactivate
  repeat' with_reducible first
    | assumption
    | apply State.abandonJob_keeps
    | apply State.finalUntaken_keeps
    | apply State.keepLuts_keeps
    | apply State.numberingEnds_keeps
    | apply State.setCtx_keeps
    | apply State.wr_keeps
    | apply Keeps.foldl

theorem chamoisApply_keeps {z : State} (_t : Txn) (id : Nat) (v : PVal) (s : State) (hk : Keeps z s) :
    Keeps z (chamoisApply _t id v s) := by
  unfold chamoisApply
  repeat' with_reducible first
    | assumption
    | apply State.activate_keeps
    | apply State.chamoisInForce_keeps
    | apply State.deactivate_keeps
    | apply State.rendOnOff_keeps
    | apply State.setCtx_keeps
    | apply Keeps.ite

theorem State.lutCommit_keeps {z : State} (s : State) (r : Req) (op id : Nat) (v : PVal) (hk : Keeps z s) :
    Keeps z (State.lutCommit s r op id v) := by
  unfold State.lutCommit
  repeat' with_reducible first
    | assumption
    | apply State.hold_keeps
    | apply State.next32_keeps
    | apply State.setRend_keeps
    | apply State.wrBlob_keeps
    | apply Keeps.ite

theorem State.countSkipped_keeps {z : State} (s : State) (c : Nat) (qs : List (Nat × Frame)) (hk : Keeps z s) :
    Keeps z (State.countSkipped s c qs) := by
  unfold State.countSkipped
  repeat' with_reducible first
    | assumption
    | apply State.countBy_keeps
    | apply State.setCtx_keeps

theorem State.sceneNext_keeps {z : State} (s : State) (hk : Keeps z s) :
    Keeps z (State.sceneNext s) := by
  unfold State.sceneNext
  try dsimp only [State.draw]
  repeat' with_reducible first
    | apply State.setCtx_keeps
    | split
    | (refine (Keeps.mk' ?_ (by omega) (by omega) rfl) <;>
       first | assumption)

theorem State.checkRefs_keeps {z : State} (s : State) (c p : Nat) (f : Frame) (hk : Keeps z s) :
    Keeps z (State.checkRefs s c p f) := by
  unfold State.checkRefs
  repeat' with_reducible first
    | assumption
    | apply State.count_keeps
    | apply State.setCtx_keeps
    | apply Keeps.ite

theorem State.noFrame_keeps {z : State} (s : State) (c : Nat) (early : Bool) (hk : Keeps z s) :
    Keeps z (State.noFrame s c early) := by
  unfold State.noFrame
  repeat' with_reducible first
    | assumption
    | apply State.count_keeps
    | apply State.traceJob_keeps
    | apply Keeps.ite

theorem State.startJob_keeps {z : State} (s : State) (c : Nat) (early : Bool) (hk : Keeps z s) :
    Keeps z (State.startJob s c early) := by
  unfold State.startJob
  try dsimp only [State.draw]
  repeat' with_reducible first
    | apply State.adopt_keeps
    | apply State.checkRefs_keeps
    | apply State.count_keeps
    | apply State.countSkipped_keeps
    | apply State.flagRepeated_keeps
    | apply State.modSlot_keeps
    | apply State.noFrame_keeps
    | apply State.sceneNext_keeps
    | apply State.setCtx_keeps
    | apply State.setRend_keeps
    | apply Keeps.foldl
    | intro _
    | split
    | (refine (Keeps.mk' ?_ (by omega) (by omega) rfl) <;>
       first | assumption | apply State.wr_keeps)

theorem State.skipJob_keeps {z : State} (s : State) (c : Nat) (hk : Keeps z s) :
    Keeps z (State.skipJob s c) := by
  unfold State.skipJob
  try dsimp only [State.draw]
  repeat' with_reducible first
    | assumption
    | apply State.countSkipped_keeps
    | apply State.flagRepeated_keeps
    | apply State.setCtx_keeps
    | split

theorem State.rotateRefs_keeps {z : State} (s : State) (c : Nat) (j : Job) (f : Frame) (m : Image Nat) (hk : Keeps z s) :
    Keeps z (State.rotateRefs s c j f m) := by
  unfold State.rotateRefs
  repeat' with_reducible first
    | assumption
    | apply State.setCtx_keeps
    | apply Keeps.ite

theorem State.writeStats_keeps {z : State} (s : State) (c : Nat) (j : Job) (f : Frame) (img : Rgb) (u : Image Nat) (w16 : Nat) (hk : Keeps z s) :
    Keeps z (State.writeStats s c j f img u w16) := by
  unfold State.writeStats
  repeat' with_reducible first
    | assumption
    | apply State.count_keeps
    | apply State.modTicket_keeps
    | apply State.setCtx_keeps
    | apply State.wr_keeps
    | apply State.wrBlob_keeps
    | apply Keeps.ite

theorem State.writeScope_keeps {z : State} (s : State) (c : Nat) (m : Rgb) (hk : Keeps z s) :
    Keeps z (State.writeScope s c m) := by
  unfold State.writeScope
  try dsimp only [State.draw]
  repeat' with_reducible first
    | assumption
    | apply State.count_keeps
    | apply State.setCtx_keeps
    | apply State.wr_keeps
    | apply Keeps.foldl
    | intro _
    | split
    | (refine (Keeps.mkMem ?_ (by omega) (by first | exact memDrop_wf _ | exact memWriteN_wf _ _)) <;>
       first | assumption)

theorem State.produceRend_keeps {z : State} (s : State) (c : Nat) (j : Job) (f : Frame) (img : Rgb) (b : Nat × Nat) (hk : Keeps z s) :
    Keeps z (State.produceRend s c j f img b) := by
  unfold State.produceRend
  repeat' with_reducible first
    | assumption
    | apply State.count_keeps
    | apply State.countBy_keeps
    | apply State.setRend_keeps
    | apply State.writeScope_keeps
    | apply Keeps.ite

theorem State.keepRecord_keeps {z : State} (s : State) (c : Nat) (j : Job) (hk : Keeps z s) :
    Keeps z (State.keepRecord s c j) := by
  unfold State.keepRecord
  repeat' with_reducible first
    | assumption
    | apply State.setRend_keeps
    | split

theorem State.finishJob_keeps {z : State} (s : State) (c sceneCycles endNs : Nat) (hk : Keeps z s) :
    Keeps z (State.finishJob s c sceneCycles endNs) := by
  unfold State.finishJob
  repeat' with_reducible first
    | apply State.at_keeps
    | apply State.count_keeps
    | apply State.countBy_keeps
    | apply State.fire_keeps
    | apply State.leaveFrame_keeps
    | apply State.produceRend_keeps
    | apply State.raise_keeps
    | apply State.rotateRefs_keeps
    | apply State.sceneNext_keeps
    | apply State.setCtx_keeps
    | apply State.traceJob_keeps
    | apply State.wrAll_keeps
    | apply State.writeStats_keeps
    | apply Keeps.foldl
    | intro _
    | split
    | (refine (Keeps.mk' ?_ (by omega) (by omega) rfl) <;>
       first | assumption | apply State.keepRecord_keeps)

theorem execStripeComplete_keeps {z : State} (s : State) (hk : Keeps z s) {u : State} (he : execStripeComplete s = .next u) : Keeps z u := by
  unfold execStripeComplete at he
  cases he
  try dsimp only [State.draw]
  repeat' with_reducible first
    | apply State.count_keeps
    | apply State.sceneNext_keeps
    | split
    | (refine (Keeps.mk' ?_ (by omega) (by omega) rfl) <;>
       first | assumption | apply State.setCtx_keeps)

theorem execEarlyStartEligible_keeps {z : State} (s : State) (hk : Keeps z s) {u : State} (he : execEarlyStartEligible s = .next u) : Keeps z u := by
  unfold execEarlyStartEligible at he
  cases he
  try dsimp only [State.draw]
  repeat' with_reducible first
    | assumption
    | apply State.at_keeps
    | apply State.skipJob_keeps
    | apply State.startJob_keeps
    | split

theorem execLutPendingLoadDone_keeps {z : State} (ctx : Fin 32) (rend : Fin 4) (s : State) (hk : Keeps z s) {u : State} (he : execLutPendingLoadDone ctx rend s = .next u) : Keeps z u := by
  unfold execLutPendingLoadDone at he
  cases he
  repeat' with_reducible first
    | assumption
    | apply State.release_keeps
    | apply State.setRend_keeps
    | apply Keeps.ite

end Sys2Proof.Machine
end

