-- ==== Sys2Proof/Laws/Keeps/Media.lean ====
section
/-! SUPPORT. What every operation of Machine/Media.lean keeps. -/

namespace Sys2Proof.Machine

theorem State.ssdWrite_keeps {z : State} (s : State) (port lba : Nat) (b : List Byte) (hk : Keeps z s) :
    Keeps z (State.ssdWrite s port lba b) := by
  unfold State.ssdWrite
  repeat' with_reducible first
    | apply State.addBytes_keeps
    | split
    | (refine (Keeps.mk' ?_ (by omega) (by omega) rfl) <;>
       first | assumption)

theorem State.setWrite_keeps {z : State} (s : State) (b : Nat) (bytes : List Byte) (hk : Keeps z s) :
    Keeps z (State.setWrite s b bytes) := by
  unfold State.setWrite
  repeat' with_reducible first
    | assumption
    | apply State.ssdWrite_keeps
    | apply Keeps.foldl
    | intro _
    | split

theorem State.writeSuperblocks_keeps {z : State} (s : State) (sb : Superblock) (hk : Keeps z s) :
    Keeps z (State.writeSuperblocks s sb) := by
  unfold State.writeSuperblocks
  repeat' with_reducible first
    | apply State.emit_keeps
    | apply State.ssdWrite_keeps
    | apply State.wr_keeps
    | apply Keeps.foldl
    | intro _
    | split
    | (refine (Keeps.mk' ?_ (by omega) (by omega) rfl) <;>
       first | assumption)

theorem State.checkpoint_keeps {z : State} (s : State) (hk : Keeps z s) :
    Keeps z (State.checkpoint s) := by
  unfold State.checkpoint
  repeat' with_reducible first
    | apply State.count_keeps
    | apply State.setWrite_keeps
    | intro _
    | split
    | (refine (Keeps.mk' ?_ (by omega) (by omega) rfl) <;>
       first | assumption | apply Keeps.foldl)

theorem State.journalGroup_keeps {z : State} (s : State) (entries : List JEntry) (hk : Keeps z s) :
    Keeps z (State.journalGroup s entries) := by
  unfold State.journalGroup
  try dsimp only [State.draw]
  repeat' with_reducible first
    | apply State.checkpoint_keeps
    | intro _
    | split
    | (refine (Keeps.mk' ?_ (by omega) (by omega) rfl) <;>
       first | assumption | apply State.setWrite_keeps | apply Keeps.foldl)

theorem State.setDir_keeps {z : State} (s : State) (i : Nat) (e : DirEntry) (hk : Keeps z s) :
    Keeps z (State.setDir s i e) := by
  unfold State.setDir
  repeat' with_reducible first
    | (refine (Keeps.mk' ?_ (by omega) (by omega) rfl) <;>
       first | assumption)

theorem State.setExts_keeps {z : State} (s : State) (es : List Nat) (x : Nat → Nat × Nat) (hk : Keeps z s) :
    Keeps z (State.setExts s es x) := by
  unfold State.setExts
  repeat' with_reducible first
    | apply State.wr_keeps
    | (refine (Keeps.mk' ?_ (by omega) (by omega) rfl) <;>
       first | assumption)

end Sys2Proof.Machine
end

