-- ==== Sys2Proof/Laws/Keeps/Nvm.lean ====
section
/-! SUPPORT. What every operation of Machine/Nvm.lean keeps. -/

namespace Sys2Proof.Machine

theorem State.setAssoc_keeps {z : State} (s : State) (c : Nat) (a : Assoc) (hk : Keeps z s) :
    Keeps z (State.setAssoc s c a) := by
  unfold State.setAssoc
  repeat' with_reducible first
    | (refine (Keeps.mk' ?_ (by omega) (by omega) rfl) <;>
       first | assumption)

theorem State.nvmeDoneAt_keeps {z : State} (s : State) (c qid cid status result : Nat) (data : List Byte) (lba nsid : Nat) (hk : Keeps z s) :
    Keeps z (State.nvmeDoneAt s c qid cid status result data lba nsid) := by
  unfold State.nvmeDoneAt
  try dsimp only [State.draw]
  repeat' with_reducible first
    | apply State.setAssoc_keeps
    | split
    | (refine (Keeps.mk' ?_ (by omega) (by omega) rfl) <;>
       first | assumption | apply State.roceOut_keeps)

theorem State.nvmeDone_keeps {z : State} (s : State) (c qid cid status result : Nat) (data : List Byte) (hk : Keeps z s) :
    Keeps z (State.nvmeDone s c qid cid status result data) := by
  unfold State.nvmeDone
  repeat' with_reducible first
    | assumption
    | apply State.nvmeDoneAt_keeps

theorem State.raiseAt_keeps {z : State} (s : State) (k c : Nat) (hk : Keeps z s) :
    Keeps z (State.raiseAt s k c) := by
  unfold State.raiseAt
  repeat' with_reducible first
    | assumption
    | apply State.nvmeDone_keeps
    | apply State.setAssoc_keeps
    | split

theorem State.raiseEvent_keeps {z : State} (s : State) (k : Nat) (hk : Keeps z s) :
    Keeps z (State.raiseEvent s k) := by
  unfold State.raiseEvent
  repeat' with_reducible first
    | assumption
    | apply State.raiseAt_keeps
    | apply Keeps.foldl
    | intro _

theorem State.nsWatch_keeps {z : State} (s before : State) (hk : Keeps z s) :
    Keeps z (State.nsWatch s before) := by
  unfold State.nsWatch
  repeat' with_reducible first
    | apply State.raiseEvent_keeps
    | apply Keeps.ite
    | (refine (Keeps.mk' ?_ (by omega) (by omega) rfl) <;>
       first | assumption)

theorem State.issueRead_keeps {z : State} (s : State) (c : NvmeCmd) (hk : Keeps z s) :
    Keeps z (State.issueRead s c).1 := by
  unfold State.issueRead
  repeat' with_reducible first
    | assumption
    | apply State.emit_keeps
    | apply Keeps.foldl
    | intro _
    | split

theorem State.reissueReads_keeps {z : State} (s : State) (k : Nat) (hk : Keeps z s) :
    Keeps z (State.reissueReads s k) := by
  unfold State.reissueReads
  repeat' with_reducible first
    | apply Keeps.foldl
    | intro _
    | apply Keeps.ite
    | (refine (Keeps.mk' ?_ (by omega) (by omega) rfl) <;>
       first | assumption | apply State.issueRead_keeps)

end Sys2Proof.Machine
end

