-- ==== Sys2Proof/Laws/Keeps/Recorder.lean ====
section
/-! SUPPORT. What every operation of Machine/Recorder.lean keeps. -/

namespace Sys2Proof.Machine

theorem State.recNotify_keeps {z : State} (s : State) (code amount clip port value : Nat) (hk : Keeps z s) :
    Keeps z (State.recNotify s code amount clip port value) := by
  unfold State.recNotify
  repeat' with_reducible first
    | assumption
    | apply State.notify_keeps

theorem State.mediaTo_keeps {z : State} (s : State) (st : Nat) (hk : Keeps z s) :
    Keeps z (State.mediaTo s st) := by
  unfold State.mediaTo
  repeat' with_reducible first
    | assumption
    | apply State.fire_keeps
    | apply State.recNotify_keeps
    | apply State.wr_keeps
    | apply Keeps.ite

theorem State.memberTo_keeps {z : State} (s : State) (p st : Nat) (hk : Keeps z s) :
    Keeps z (State.memberTo s p st) := by
  unfold State.memberTo
  repeat' with_reducible first
    | assumption
    | apply State.recNotify_keeps
    | apply State.wr_keeps
    | apply Keeps.ite

theorem State.memberShow_keeps {z : State} (s : State) (p : Nat) (x : SsdInfo) (hk : Keeps z s) :
    Keeps z (State.memberShow s p x) := by
  unfold State.memberShow
  repeat' with_reducible first
    | assumption
    | apply State.memberTo_keeps
    | apply State.wrAll_keeps
    | apply Keeps.ite

theorem State.replay_keeps {z : State} (s : State) (e : JEntry) (hk : Keeps z s) :
    Keeps z (State.replay s e) := by
  unfold State.replay
  repeat' with_reducible first
    | assumption
    | apply State.setDir_keeps
    | apply State.setExts_keeps
    | split

theorem State.replayFrom_keeps {z : State} (t : Table (List JEntry)) (n q : Nat) (s : State) (hk : Keeps z s) :
    Keeps z (State.replayFrom t n q s).2 := by
  induction n generalizing q s with
  | zero => exact hk
  | succ n ih =>
    unfold State.replayFrom
    split
    · exact ih _ _ (Keeps.foldl _ hk fun u e g => State.replay_keeps u e g)
    · exact hk

theorem State.closeOpen_keeps {z : State} (s : State) (hk : Keeps z s) :
    Keeps z (State.closeOpen s) := by
  unfold State.closeOpen
  repeat' with_reducible first
    | assumption
    | apply State.count_keeps
    | apply State.setDir_keeps
    | apply State.setExts_keeps
    | apply Keeps.foldl
    | intro _
    | apply Keeps.ite

theorem State.recover_keeps {z : State} (s : State) (sb : Superblock) (hk : Keeps z s) :
    Keeps z (State.recover s sb) := by
  unfold State.recover
  repeat' with_reducible first
    | apply State.checkpoint_keeps
    | apply State.closeOpen_keeps
    | (refine (Keeps.mk' ?_ (by omega) (by omega) rfl) <;>
       first | assumption | apply State.replayFrom_keeps)

theorem State.mount_keeps {z : State} (s : State) (hk : Keeps z s) :
    Keeps z (State.mount s) := by
  unfold State.mount
  try dsimp only [State.draw]
  repeat' with_reducible first
    | apply State.mediaTo_keeps
    | apply State.memberTo_keeps
    | apply State.recover_keeps
    | apply State.wr_keeps
    | apply State.wrAll_keeps
    | intro _
    | split
    | (refine (Keeps.mk' ?_ (by omega) (by omega) rfl) <;>
       first | assumption | apply Keeps.foldl)

theorem execMediaMount_keeps {z : State} (s : State) (hk : Keeps z s) {u : State} (he : execMediaMount s = .next u) : Keeps z u := by
  unfold execMediaMount at he
  cases he
  repeat' with_reducible first
    | assumption
    | apply State.mount_keeps
    | apply State.nsWatch_keeps
    | apply Keeps.ite

theorem execMediaFormatDone_keeps {z : State} (s : State) (hk : Keeps z s) {u : State} (he : execMediaFormatDone s = .next u) : Keeps z u := by
  unfold execMediaFormatDone at he
  cases he
  try dsimp only [State.draw]
  repeat' with_reducible first
    | apply State.mediaTo_keeps
    | apply State.memberTo_keeps
    | apply State.nsWatch_keeps
    | apply State.release_keeps
    | apply State.setWrite_keeps
    | apply State.wrAll_keeps
    | apply State.writeSuperblocks_keeps
    | apply Keeps.foldl
    | intro _
    | split
    | (refine (Keeps.mk' ?_ (by omega) (by omega) rfl) <;>
       first | assumption)

theorem State.rebuildStart_keeps {z : State} (s : State) (p : Nat) (hk : Keeps z s) :
    Keeps z (State.rebuildStart s p) := by
  unfold State.rebuildStart
  repeat' with_reducible first
    | apply State.mediaTo_keeps
    | apply State.memberTo_keeps
    | apply State.wr_keeps
    | split
    | (refine (Keeps.mk' ?_ (by omega) (by omega) rfl) <;>
       first | assumption)

theorem execMediaRebuildDone_keeps {z : State} (s : State) (hk : Keeps z s) {u : State} (he : execMediaRebuildDone s = .next u) : Keeps z u := by
  unfold execMediaRebuildDone at he
  cases he
  repeat' with_reducible first
    | apply State.mediaTo_keeps
    | apply State.memberTo_keeps
    | apply State.ssdWrite_keeps
    | apply State.wr_keeps
    | apply State.writeSuperblocks_keeps
    | intro _
    | split
    | (refine (Keeps.mk' ?_ (by omega) (by omega) rfl) <;>
       first | assumption | apply Keeps.foldl)

theorem State.setClip_keeps {z : State} (s : State) (cc : Nat) (c : Clip) (hk : Keeps z s) :
    Keeps z (State.setClip s cc c) := by
  unfold State.setClip
  repeat' with_reducible first
    | (refine (Keeps.mk' ?_ (by omega) (by omega) rfl) <;>
       first | assumption)

theorem State.extend_keeps {z : State} (s : State) (cc n : Nat) (hk : Keeps z s) :
    Keeps z (State.extend s cc n) := by
  unfold State.extend
  repeat' with_reducible first
    | apply State.setClip_keeps
    | apply Keeps.foldl
    | intro _
    | split
    | (refine (Keeps.mk' ?_ (by omega) (by omega) rfl) <;>
       first | assumption | apply State.setExts_keeps)

theorem State.clipWrite_keeps {z : State} (s : State) (cc off : Nat) (bytes : List Byte) (hk : Keeps z s) :
    Keeps z (State.clipWrite s cc off bytes) := by
  unfold State.clipWrite
  repeat' with_reducible first
    | assumption
    | apply State.setWrite_keeps
    | apply Keeps.foldl
    | intro _
    | split

theorem State.clipChunk_keeps {z : State} (s : State) (cc type stream count time : Nat) (payload : List Byte) (hk : Keeps z s) :
    Keeps z (State.clipChunk s cc type stream count time payload) := by
  unfold State.clipChunk
  try dsimp only [State.draw]
  repeat' with_reducible first
    | assumption
    | apply State.clipWrite_keeps
    | apply State.extend_keeps
    | apply State.setClip_keeps
    | split

theorem State.fullWarning_keeps {z : State} (s : State) (hk : Keeps z s) :
    Keeps z (State.fullWarning s) := by
  unfold State.fullWarning
  try dsimp only [State.draw]
  repeat' with_reducible first
    | split
    | (refine (Keeps.mk' ?_ (by omega) (by omega) rfl) <;>
       first | assumption | apply State.recNotify_keeps | apply State.wr_keeps)

theorem State.clipOpen_keeps {z : State} (s : State) (r : Req) (b : List Byte) (hk : Keeps z s) :
    Keeps z (State.clipOpen s r b) := by
  unfold State.clipOpen
  repeat' with_reducible first
    | apply State.clipChunk_keeps
    | apply State.emit_keeps
    | apply State.fullWarning_keeps
    | apply State.journalGroup_keeps
    | apply State.reply_keeps
    | apply State.setClip_keeps
    | apply State.setDir_keeps
    | apply State.setWrite_keeps
    | apply State.wrAll_keeps
    | apply Keeps.foldl
    | intro _
    | split
    | (refine (Keeps.mk' ?_ (by omega) (by omega) rfl) <;>
       first | assumption)

theorem State.stopClip_keeps {z : State} (s : State) (cc stop cause : Nat) (req : Option Req) (hk : Keeps z s) :
    Keeps z (State.stopClip s cc stop cause req) := by
  unfold State.stopClip
  repeat' with_reducible first
    | assumption
    | apply State.setClip_keeps
    | apply State.wr_keeps
    | split

theorem execClipStop_keeps {z : State} (r : Req) (payload : List Byte) (s : State) (hk : Keeps z s) {u : State} (he : execClipStop r payload s = .next u) : Keeps z u := by
  unfold execClipStop at he
  cases he
  try dsimp only [State.draw]
  repeat' with_reducible first
    | assumption
    | apply State.reply_keeps
    | apply State.request_keeps
    | apply State.stopClip_keeps
    | intro _
    | split

theorem State.takeFrame_keeps {z : State} (s : State) (cc : Nat) (x : ClipStream) (f : ClipFrame) (hk : Keeps z s) :
    Keeps z (State.takeFrame s cc x f) := by
  unfold State.takeFrame
  repeat' with_reducible first
    | assumption
    | apply State.setClip_keeps
    | split

theorem execVideoChunkStart_keeps {z : State} (port : Fin 16) (s : State) (hk : Keeps z s) {u : State} (he : execVideoChunkStart port s = .next u) : Keeps z u := by
  unfold execVideoChunkStart at he
  cases he
  try dsimp only [State.draw]
  repeat' with_reducible first
    | assumption
    | apply State.extend_keeps
    | apply State.fullWarning_keeps
    | apply State.setClip_keeps
    | apply State.stopClip_keeps
    | apply State.takeFrame_keeps
    | split

theorem execVideoChunkWritten_keeps {z : State} (port : Fin 16) (s : State) (hk : Keeps z s) {u : State} (he : execVideoChunkWritten port s = .next u) : Keeps z u := by
  unfold execVideoChunkWritten at he
  cases he
  try dsimp only [State.draw]
  repeat' with_reducible first
    | assumption
    | apply State.clipWrite_keeps
    | apply State.setClip_keeps
    | split

theorem State.frameLost_keeps {z : State} (s : State) (c : Clip) (ticket : Nat) (hk : Keeps z s) :
    Keeps z (State.frameLost s c ticket) := by
  unfold State.frameLost
  repeat' with_reducible first
    | assumption
    | apply State.count_keeps
    | apply State.fire_keeps
    | apply State.recNotify_keeps

theorem State.slotReused_keeps {z : State} (s : State) (p slot : Nat) (hk : Keeps z s) :
    Keeps z (State.slotReused s p slot) := by
  unfold State.slotReused
  repeat' with_reducible first
    | assumption
    | apply State.frameLost_keeps
    | apply State.setClip_keeps
    | apply State.takeFrame_keeps
    | split

theorem State.commitAudio_keeps {z : State} (s : State) (cc : Nat) (c : Clip) (hk : Keeps z s) :
    Keeps z (State.commitAudio s cc c) := by
  unfold State.commitAudio
  try dsimp only [State.draw]
  repeat' with_reducible first
    | assumption
    | apply State.clipChunk_keeps
    | apply State.setClip_keeps
    | apply Keeps.foldl
    | intro _
    | split

theorem State.commitClip_keeps {z : State} (st : State × List JEntry × List (Nat × Nat × Nat × Bool)) (point cc : Nat) (hk : Keeps z st.1) :
    Keeps z (State.commitClip st point cc).1 := by
  unfold State.commitClip
  try dsimp only [State.draw]
  repeat' with_reducible first
    | assumption
    | apply State.clipChunk_keeps
    | apply State.commitAudio_keeps
    | apply State.setClip_keeps
    | split

theorem State.commitStart_keeps {z : State} (s : State) (hk : Keeps z s) :
    Keeps z (State.commitStart s) := by
  unfold State.commitStart
  repeat' with_reducible first
    | apply State.checkpoint_keeps
    | apply State.commitClip_keeps
    | intro _
    | apply Keeps.ite
    | (refine (Keeps.mk' ?_ (by omega) (by omega) rfl) <;>
       first | assumption | apply Keeps.foldlPair)

theorem execRecorderCommitPoint_keeps {z : State} (s : State) (hk : Keeps z s) {u : State} (he : execRecorderCommitPoint s = .next u) : Keeps z u := by
  unfold execRecorderCommitPoint at he
  cases he
  try dsimp only [State.draw]
  repeat' with_reducible first
    | apply State.commitStart_keeps
    | apply State.count_keeps
    | apply State.recNotify_keeps
    | apply Keeps.ite
    | (refine (Keeps.mk' ?_ (by omega) (by omega) rfl) <;>
       first | assumption)

theorem State.clipClosed_keeps {z : State} (s : State) (cc : Nat) (c : Clip) (hk : Keeps z s) :
    Keeps z (State.clipClosed s cc c) := by
  unfold State.clipClosed
  repeat' with_reducible first
    | apply State.fire_keeps
    | apply State.recNotify_keeps
    | apply State.reply_keeps
    | apply State.updateRun_keeps
    | apply State.wrAll_keeps
    | split
    | (refine (Keeps.mk' ?_ (by omega) (by omega) rfl) <;>
       first | assumption | apply State.setDir_keeps)

theorem execRecorderCommitDone_keeps {z : State} (s : State) (hk : Keeps z s) {u : State} (he : execRecorderCommitDone s = .next u) : Keeps z u := by
  unfold execRecorderCommitDone at he
  cases he
  try dsimp only [State.draw]
  repeat' with_reducible first
    | apply State.clipClosed_keeps
    | apply State.commitStart_keeps
    | apply State.count_keeps
    | apply State.countBy_keeps
    | apply State.emit_keeps
    | apply State.fire_keeps
    | apply State.fullWarning_keeps
    | apply State.setClip_keeps
    | apply State.setDir_keeps
    | apply State.wrAll_keeps
    | apply Keeps.foldl
    | intro _
    | split
    | (refine (Keeps.mk' ?_ (by omega) (by omega) rfl) <;>
       first | assumption | apply State.journalGroup_keeps)

theorem State.clipTick_keeps {z : State} (s : State) (hk : Keeps z s) :
    Keeps z (State.clipTick s) := by
  unfold State.clipTick
  repeat' with_reducible first
    | assumption
    | apply State.setClip_keeps
    | apply Keeps.foldl
    | intro _

theorem State.memberFailed_keeps {z : State} (s : State) (p : Nat) (hk : Keeps z s) :
    Keeps z (State.memberFailed s p) := by
  unfold State.memberFailed
  try dsimp only [State.draw]
  repeat' with_reducible first
    | apply State.fire_keeps
    | apply State.journalGroup_keeps
    | apply State.mediaTo_keeps
    | apply State.memberTo_keeps
    | apply State.recNotify_keeps
    | apply State.reply_keeps
    | apply State.updateRun_keeps
    | apply State.wrAll_keeps
    | apply State.writeSuperblocks_keeps
    | apply Keeps.foldl
    | intro _
    | split
    | (refine (Keeps.mk' ?_ (by omega) (by omega) rfl) <;>
       first | assumption | apply State.count_keeps | apply State.reissueReads_keeps)

theorem execMemberTimeout_keeps {z : State} (port : Fin 4) (s : State) (hk : Keeps z s) {u : State} (he : execMemberTimeout port s = .next u) : Keeps z u := by
  unfold execMemberTimeout at he
  cases he
  repeat' with_reducible first
    | assumption
    | apply State.count_keeps
    | apply State.memberFailed_keeps
    | apply State.nsWatch_keeps
    | apply Keeps.ite

theorem execMemberFail_keeps {z : State} (port : Fin 4) (cause : Fin 3) (s : State) (hk : Keeps z s) {u : State} (he : execMemberFail port cause s = .next u) : Keeps z u := by
  unfold execMemberFail at he
  cases he
  repeat' with_reducible first
    | assumption
    | apply State.countBy_keeps
    | apply State.memberFailed_keeps
    | apply State.nsWatch_keeps
    | apply Keeps.ite

theorem execSsdPresenceChange_keeps {z : State} (port : Fin 4) (info : Option SsdInfo) (s : State) (hk : Keeps z s) {u : State} (he : execSsdPresenceChange port info s = .next u) : Keeps z u := by
  unfold execSsdPresenceChange at he
  cases he
  repeat' with_reducible first
    | apply State.memberFailed_keeps
    | apply State.memberTo_keeps
    | apply State.wrAll_keeps
    | split
    | (refine (Keeps.mk' ?_ (by omega) (by omega) rfl) <;>
       first | assumption | apply State.memberShow_keeps | apply State.nsWatch_keeps)

theorem recorderApply_keeps {z : State} (t : Txn) (id : Nat) (v : PVal) (s : State) (hk : Keeps z s) :
    Keeps z (recorderApply t id v s) := by
  unfold recorderApply
  repeat' with_reducible first
    | apply State.fullWarning_keeps
    | apply State.hold_keeps
    | apply State.journalGroup_keeps
    | apply State.nsWatch_keeps
    | apply State.rebuildStart_keeps
    | apply State.setClip_keeps
    | apply State.setDir_keeps
    | apply State.setExts_keeps
    | apply Keeps.iteSnd
    | split
    | (refine (Keeps.mk' ?_ (by omega) (by omega) rfl) <;>
       first | assumption)

end Sys2Proof.Machine
end

