-- ==== Sys2Proof/Laws/Keeps/Display.lean ====
section
/-! SUPPORT. What every operation of Machine/Display.lean keeps. -/

namespace Sys2Proof.Machine

theorem State.linkTo_keeps {z : State} (s : State) (h st : Nat) (hk : Keeps z s) :
    Keeps z (State.linkTo s h st) := by
  unfold State.linkTo
  repeat' with_reducible first
    | assumption
    | apply State.emit_keeps
    | apply State.linkNotify_keeps
    | apply State.wr_keeps
    | apply Keeps.ite

theorem State.lockTo_keeps {z : State} (s : State) (h st : Nat) (hk : Keeps z s) :
    Keeps z (State.lockTo s h st) := by
  unfold State.lockTo
  repeat' with_reducible first
    | assumption
    | apply State.linkNotify_keeps
    | apply State.wr_keeps
    | apply Keeps.ite

theorem State.headTrain_keeps {z : State} (s : State) (h : Nat) (hk : Keeps z s) :
    Keeps z (State.headTrain s h) := by
  unfold State.headTrain
  repeat' with_reducible first
    | assumption
    | apply State.linkTo_keeps
    | apply State.wr_keeps
    | apply Keeps.ite

theorem State.dropHold_keeps {z : State} (s : State) (consumer : Nat) (hk : Keeps z s) :
    Keeps z (State.dropHold s consumer) := by
  unfold State.dropHold
  repeat' with_reducible first
    | assumption
    | apply State.setRend_keeps
    | apply Keeps.foldl
    | intro _
    | apply Keeps.ite

theorem State.takeHold_keeps {z : State} (s : State) (consumer c v : Nat) (hk : Keeps z s) :
    Keeps z (State.takeHold s consumer c v) := by
  unfold State.takeHold
  try dsimp only [State.draw]
  repeat' with_reducible first
    | assumption
    | apply State.dropHold_keeps
    | apply State.setRend_keeps
    | split

theorem State.dropScopeHold_keeps {z : State} (s : State) (h : Nat) (hk : Keeps z s) :
    Keeps z (State.dropScopeHold s h) := by
  unfold State.dropScopeHold
  repeat' with_reducible first
    | assumption
    | apply State.setCtx_keeps
    | apply Keeps.foldl
    | intro _
    | apply Keeps.ite

theorem State.layerLost_keeps {z : State} (s : State) (h l : Nat) (lost : Bool) (hk : Keeps z s) :
    Keeps z (State.layerLost s h l lost) := by
  unfold State.layerLost
  repeat' with_reducible first
    | assumption
    | apply State.count_keeps
    | apply State.linkNotify_keeps
    | apply State.wr_keeps
    | apply Keeps.ite

theorem State.layerTake_keeps {z : State} (s : State) (h l : Nat) (named : Bool) (hk : Keeps z s) :
    Keeps z (State.layerTake s h l named).1 := by
  unfold State.layerTake
  try dsimp only [State.draw]
  repeat' with_reducible first
    | assumption
    | apply State.dropHold_keeps
    | apply State.dropScopeHold_keeps
    | apply State.layerLost_keeps
    | apply State.setCtx_keeps
    | apply State.takeHold_keeps
    | apply State.upd_keeps
    | apply State.wr_keeps
    | split

theorem State.headTake_keeps {z : State} (s : State) (h : Nat) (latch : Bool) (groups : List HeadGroup) (hk : Keeps z s) :
    Keeps z (State.headTake s h latch groups).1 := by
  unfold State.headTake
  repeat' with_reducible first
    | assumption
    | apply State.dropScopeHold_keeps
    | apply State.layerTake_keeps
    | apply State.retireFreed_keeps
    | apply Keeps.foldlPair
    | intro _
    | apply Keeps.ite

theorem State.headOff_keeps {z : State} (s : State) (h : Nat) (hk : Keeps z s) :
    Keeps z (State.headOff s h) := by
  unfold State.headOff
  repeat' with_reducible first
    | assumption
    | apply State.dropHold_keeps
    | apply State.dropScopeHold_keeps
    | apply State.linkTo_keeps
    | apply State.retireFreed_keeps
    | apply State.setHead_keeps
    | apply State.wr_keeps
    | apply Keeps.foldl
    | intro _

theorem State.latchOne_keeps {z : State} (s : State) (h : Nat) (e : Nat × PVal) (hk : Keeps z s) :
    Keeps z (State.latchOne s h e) := by
  unfold State.latchOne
  try dsimp only [State.draw]
  repeat' with_reducible first
    | assumption
    | apply State.emit_keeps
    | apply State.headOff_keeps
    | apply State.headTrain_keeps
    | apply State.linkTo_keeps
    | apply State.lockTo_keeps
    | apply State.setHead_keeps
    | apply State.wr_keeps
    | apply State.wrBlob_keeps
    | split

theorem State.restartRaster_keeps {z : State} (s : State) (h : Nat) (hk : Keeps z s) :
    Keeps z (State.restartRaster s h) := by
  unfold State.restartRaster
  repeat' with_reducible first
    | assumption
    | apply State.headTrain_keeps
    | apply State.setHead_keeps
    | apply State.wr_keeps

theorem State.latchGroup_keeps {z : State} (s : State) (h : Nat) (g : HeadGroup) (torn : Bool) (ahead : Nat) (hk : Keeps z s) :
    Keeps z (State.latchGroup s h g torn ahead) := by
  unfold State.latchGroup
  repeat' with_reducible first
    | assumption
    | apply State.count_keeps
    | apply State.latchOne_keeps
    | apply State.releaseIf_keeps
    | apply State.restartRaster_keeps
    | apply State.wr_keeps
    | apply Keeps.foldl
    | intro _
    | split

theorem State.headReach_keeps {z : State} (s : State) (h : Nat) (r : Option Req) (edge : Nat) (vals : List (Nat × PVal)) (hk : Keeps z s) :
    Keeps z (State.headReach s h r edge vals) := by
  unfold State.headReach
  repeat' with_reducible first
    | assumption
    | apply State.count_keeps
    | apply State.latchGroup_keeps
    | apply State.setHead_keeps
    | apply Keeps.ite

theorem State.selfRefresh_keeps {z : State} (s : State) (h : Nat) (changed : Bool) (hk : Keeps z s) :
    Keeps z (State.selfRefresh s h changed) := by
  unfold State.selfRefresh
  repeat' with_reducible first
    | assumption
    | apply State.count_keeps
    | apply State.linkTo_keeps
    | apply State.setHead_keeps
    | apply Keeps.ite

theorem State.crcRect_keeps {z : State} (s : State) (h k : Nat) (hk : Keeps z s) :
    Keeps z (State.crcRect s h k) := by
  unfold State.crcRect
  repeat' with_reducible first
    | assumption
    | apply State.count_keeps
    | apply State.linkNotify_keeps
    | apply State.setHead_keeps
    | apply State.wr_keeps
    | apply Keeps.ite

theorem execHpdRise_keeps {z : State} (head : Fin 4) (caps : Nat) (s : State) (hk : Keeps z s) {u : State} (he : execHpdRise head caps s = .next u) : Keeps z u := by
  unfold execHpdRise at he
  cases he
  repeat' with_reducible first
    | assumption
    | apply State.linkTo_keeps
    | apply State.setHead_keeps
    | apply State.wr_keeps
    | apply Keeps.ite

theorem execHpdLowTimeout_keeps {z : State} (head : Fin 4) (s : State) (hk : Keeps z s) {u : State} (he : execHpdLowTimeout head s = .next u) : Keeps z u := by
  unfold execHpdLowTimeout at he
  cases he
  repeat' with_reducible first
    | assumption
    | apply State.linkTo_keeps
    | apply State.setHead_keeps
    | apply State.wrAll_keeps
    | apply Keeps.ite

theorem execHpdIrq_keeps {z : State} (head : Fin 4) (linkFailure : Bool) (s : State) (hk : Keeps z s) {u : State} (he : execHpdIrq head linkFailure s = .next u) : Keeps z u := by
  unfold execHpdIrq at he
  cases he
  repeat' with_reducible first
    | assumption
    | apply State.linkTo_keeps
    | apply Keeps.ite

theorem execLinkTrainingDone_keeps {z : State} (head : Fin 4) (works : List (Nat × Nat)) (s : State) (hk : Keeps z s) {u : State} (he : execLinkTrainingDone head works s = .next u) : Keeps z u := by
  unfold execLinkTrainingDone at he
  cases he
  try dsimp only [State.draw]
  repeat' with_reducible first
    | assumption
    | apply State.count_keeps
    | apply State.linkTo_keeps
    | apply State.wr_keeps
    | split

theorem State.alignFrame_keeps {z : State} (s : State) (h : Nat) (phaseErr : Int) (hk : Keeps z s) :
    Keeps z (State.alignFrame s h phaseErr) := by
  unfold State.alignFrame
  repeat' with_reducible first
    | assumption
    | apply State.count_keeps
    | apply State.lockTo_keeps
    | apply State.setHead_keeps
    | apply State.wrS_keeps
    | apply Keeps.ite

theorem execDisplayFrameStart_keeps {z : State} (head : Fin 4) (phaseErr : Int) (s : State) (hk : Keeps z s) {u : State} (he : execDisplayFrameStart head phaseErr s = .next u) : Keeps z u := by
  unfold execDisplayFrameStart at he
  cases he
  repeat' with_reducible first
    | assumption
    | apply State.alignFrame_keeps
    | apply State.at_keeps
    | apply State.count_keeps
    | apply State.emit_keeps
    | apply State.fire_keeps
    | apply State.next32_keeps
    | apply State.setHead_keeps
    | apply Keeps.ite

theorem execDisplayLatchPoint_keeps {z : State} (head : Fin 4) (s : State) (hk : Keeps z s) {u : State} (he : execDisplayLatchPoint head s = .next u) : Keeps z u := by
  unfold execDisplayLatchPoint at he
  cases he
  repeat' with_reducible first
    | assumption
    | apply State.addBytes_keeps
    | apply State.at_keeps
    | apply State.crcRect_keeps
    | apply State.fire_keeps
    | apply State.headTake_keeps
    | apply State.latchGroup_keeps
    | apply State.selfRefresh_keeps
    | apply State.setHead_keeps
    | apply Keeps.foldl
    | intro _
    | apply Keeps.ite

theorem State.latchLine_keeps {z : State} (s : State) (h line : Nat) (hk : Keeps z s) :
    Keeps z (State.latchLine s h line) := by
  unfold State.latchLine
  repeat' with_reducible first
    | assumption
    | apply State.headTake_keeps
    | apply State.latchGroup_keeps
    | apply State.setHead_keeps
    | apply Keeps.foldl
    | intro _
    | apply Keeps.ite

theorem State.sendLine_keeps {z : State} (s : State) (h line : Nat) (hk : Keeps z s) :
    Keeps z (State.sendLine s h line) := by
  unfold State.sendLine
  repeat' with_reducible first
    | assumption
    | apply State.emit_keeps
    | apply Keeps.ite

theorem execDisplayLineStart_keeps {z : State} (head : Fin 4) (line : Nat) (s : State) (hk : Keeps z s) {u : State} (he : execDisplayLineStart head line s = .next u) : Keeps z u := by
  unfold execDisplayLineStart at he
  cases he
  repeat' with_reducible first
    | assumption
    | apply State.at_keeps
    | apply State.latchLine_keeps
    | apply State.sendLine_keeps
    | apply Keeps.ite

theorem execLayerUnderflow_keeps {z : State} (head layer : Fin 4) (line x : Nat) (s : State) (hk : Keeps z s) {u : State} (he : execLayerUnderflow head layer line x s = .next u) : Keeps z u := by
  unfold execLayerUnderflow at he
  cases he
  repeat' with_reducible first
    | assumption
    | apply State.count_keeps
    | apply State.fire_keeps
    | apply State.linkNotify_keeps
    | apply State.setHead_keeps
    | apply Keeps.ite

end Sys2Proof.Machine
end

