-- ==== Sys2Proof/Laws/Keeps/Ether.lean ====
section
/-! SUPPORT. What every operation of Machine/Ether.lean keeps. -/

namespace Sys2Proof.Machine

theorem State.ethTo_keeps {z : State} (s : State) (p st : Nat) (hk : Keeps z s) :
    Keeps z (State.ethTo s p st) := by
  unfold State.ethTo
  repeat' with_reducible first
    | assumption
    | apply State.fire_keeps
    | apply State.linkNotify_keeps
    | apply State.setEth_keeps
    | apply State.wr_keeps
    | apply Keeps.ite

theorem State.ethStart_keeps {z : State} (s : State) (hk : Keeps z s) :
    Keeps z (State.ethStart s) := by
  unfold State.ethStart
  repeat' with_reducible first
    | assumption
    | apply State.ethTo_keeps
    | apply Keeps.foldl
    | intro _
    | apply Keeps.ite

theorem State.ethCommit_keeps {z : State} (s : State) (p : Nat) (mode : Bool) (hk : Keeps z s) :
    Keeps z (State.ethCommit s p mode) := by
  unfold State.ethCommit
  repeat' with_reducible first
    | assumption
    | apply State.ethTo_keeps
    | apply State.setEth_keeps
    | apply Keeps.ite

theorem State.noteNmp_keeps {z : State} (s : State) (hk : Keeps z s) :
    Keeps z (State.noteNmp s) := by
  unfold State.noteNmp
  repeat' with_reducible first
    | assumption
    | apply State.wr_keeps
    | apply Keeps.ite

theorem execEthTrainingTimeout_keeps {z : State} (port : Fin 2) (s : State) (hk : Keeps z s) {u : State} (he : execEthTrainingTimeout port s = .next u) : Keeps z u := by
  unfold execEthTrainingTimeout at he
  cases he
  repeat' with_reducible first
    | assumption
    | apply State.at_keeps
    | apply State.count_keeps
    | apply State.ethTo_keeps
    | apply Keeps.ite

theorem execEthLinkLoss_keeps {z : State} (port : Fin 2) (uncorrected : Nat) (s : State) (hk : Keeps z s) {u : State} (he : execEthLinkLoss port uncorrected s = .next u) : Keeps z u := by
  unfold execEthLinkLoss at he
  cases he
  repeat' with_reducible first
    | assumption
    | apply State.countBy_keeps
    | apply State.ethTo_keeps
    | apply Keeps.ite

theorem execPfcPauseRx_keeps {z : State} (port : Fin 2) (priority : Fin 8) (quanta : Nat) (s : State) (hk : Keeps z s) {u : State} (he : execPfcPauseRx port priority quanta s = .next u) : Keeps z u := by
  unfold execPfcPauseRx at he
  cases he
  repeat' with_reducible first
    | assumption
    | apply State.count_keeps
    | apply State.roceFlush_keeps
    | apply State.rxFrame_keeps
    | apply State.setEth_keeps
    | apply Keeps.ite

theorem execPfcStorm_keeps {z : State} (port : Fin 2) (s : State) (hk : Keeps z s) {u : State} (he : execPfcStorm port s = .next u) : Keeps z u := by
  unfold execPfcStorm at he
  cases he
  repeat' with_reducible first
    | assumption
    | apply State.at_keeps
    | apply State.count_keeps
    | apply State.linkNotify_keeps
    | apply State.roceFlush_keeps
    | apply State.setEth_keeps
    | split

theorem execPfcRxBufferThreshold_keeps {z : State} (port : Fin 2) (above : Bool) (s : State) (hk : Keeps z s) {u : State} (he : execPfcRxBufferThreshold port above s = .next u) : Keeps z u := by
  unfold execPfcRxBufferThreshold at he
  cases he
  repeat' with_reducible first
    | assumption
    | apply State.count_keeps
    | apply State.emit_keeps
    | apply State.setEth_keeps
    | apply Keeps.ite

theorem execCnpRx_keeps {z : State} (qp : Nat) (s : State) (hk : Keeps z s) {u : State} (he : execCnpRx qp s = .next u) : Keeps z u := by
  unfold execCnpRx at he
  cases he
  repeat' with_reducible first
    | assumption
    | apply State.count_keeps
    | apply State.rxFrame_keeps
    | apply State.setQp_keeps
    | split

theorem execCnpRateRecovery_keeps {z : State} (qp : Nat) (s : State) (hk : Keeps z s) {u : State} (he : execCnpRateRecovery qp s = .next u) : Keeps z u := by
  unfold execCnpRateRecovery at he
  cases he
  repeat' with_reducible first
    | assumption
    | apply State.at_keeps
    | apply State.setQp_keeps
    | split

theorem execEcnMarkedRx_keeps {z : State} (qp : Nat) (s : State) (hk : Keeps z s) {u : State} (he : execEcnMarkedRx qp s = .next u) : Keeps z u := by
  unfold execEcnMarkedRx at he
  cases he
  repeat' with_reducible first
    | assumption
    | apply State.count_keeps
    | apply State.roceOut_keeps
    | apply State.rxFrame_keeps
    | split

theorem execBufferServiceConnect_keeps {z : State} (port : Fin 2) (vlan : Nat) (qpn : BitVec 24) (mtu : Nat) (data : List Byte) (s : State) (hk : Keeps z s) {u : State} (he : execBufferServiceConnect port vlan qpn mtu data s = .next u) : Keeps z u := by
  unfold execBufferServiceConnect at he
  cases he
  repeat' with_reducible first
    | assumption
    | apply State.addQp_keeps
    | apply State.roceOut_keeps
    | apply State.rxFrame_keeps
    | apply Keeps.ite

theorem State.accessError_keeps {z : State} (s : State) (q : Qp) (key : Nat) (hk : Keeps z s) :
    Keeps z (State.accessError s q key) := by
  unfold State.accessError
  repeat' with_reducible first
    | assumption
    | apply State.count_keeps
    | apply State.roceOut_keeps

theorem State.readResponse_keeps {z : State} (s : State) (q : Qp) (data : List Byte) (hk : Keeps z s) :
    Keeps z (State.readResponse s q data) := by
  unfold State.readResponse
  repeat' with_reducible first
    | assumption
    | apply State.roceOut_keeps
    | apply Keeps.foldl
    | intro _

theorem execBufRdmaAccess_keeps {z : State} (qp key : Nat) (write : Bool) (offset length : Nat) (data : List Byte) (s : State) (hk : Keeps z s) {u : State} (he : execBufRdmaAccess qp key write offset length data s = .next u) : Keeps z u := by
  unfold execBufRdmaAccess at he
  cases he
  try dsimp only [State.draw]
  repeat' with_reducible first
    | assumption
    | apply State.accessError_keeps
    | apply State.readResponse_keeps
    | apply State.roceOut_keeps
    | apply State.rxFrame_keeps
    | apply State.setBuf_keeps
    | apply State.setQp_keeps
    | split
    | (refine (Keeps.mkMem ?_ (by omega) (by first | exact memDrop_wf _ | exact memWriteN_wf _ _)) <;>
       first | assumption | apply State.setBuf_keeps)

theorem State.messageOver_keeps {z : State} (s : State) (n : Nat) (b : Buffer) (hk : Keeps z s) :
    Keeps z (State.messageOver s n b) := by
  unfold State.messageOver
  repeat' with_reducible first
    | assumption
    | apply State.reply_keeps
    | apply State.retireFreed_keeps
    | apply State.setBuf_keeps
    | split

theorem execRdmaMessageComplete_keeps {z : State} (qp key : Nat) (write : Bool) (s : State) (hk : Keeps z s) {u : State} (he : execRdmaMessageComplete qp key write s = .next u) : Keeps z u := by
  unfold execRdmaMessageComplete at he
  cases he
  repeat' with_reducible first
    | assumption
    | apply State.messageOver_keeps
    | apply State.setQp_keeps
    | split

theorem State.reportGroups_keeps {z : State} (s : State) (p : Nat) (v6 : Bool) (hk : Keeps z s) :
    Keeps z (State.reportGroups s p v6) := by
  unfold State.reportGroups
  repeat' with_reducible first
    | assumption
    | apply State.emit_keeps

theorem State.reportChanges_keeps {z : State} (s : State) (before : Nat → Bool → List (List Byte)) (hk : Keeps z s) :
    Keeps z (State.reportChanges s before) := by
  unfold State.reportChanges
  repeat' with_reducible first
    | assumption
    | apply State.reportGroups_keeps
    | apply Keeps.foldl
    | intro _
    | apply Keeps.ite

theorem execArpNdpIcmpRx_keeps {z : State} (port : Fin 2) (vlan : Nat) (kind : Fin 6) (address data : List Byte) (s : State) (hk : Keeps z s) {u : State} (he : execArpNdpIcmpRx port vlan kind address data s = .next u) : Keeps z u := by
  unfold execArpNdpIcmpRx at he
  cases he
  repeat' with_reducible first
    | assumption
    | apply State.emit_keeps
    | apply State.reportGroups_keeps
    | apply State.rxFrame_keeps
    | apply Keeps.ite

theorem execEthLockAchieved_keeps {z : State} (port : Fin 2) (s : State) (hk : Keeps z s) {u : State} (he : execEthLockAchieved port s = .next u) : Keeps z u := by
  unfold execEthLockAchieved at he
  cases he
  repeat' with_reducible first
    | assumption
    | apply State.ethTo_keeps
    | apply State.noteNmp_keeps
    | apply State.reportChanges_keeps
    | apply Keeps.ite

theorem State.ethRestore_keeps {z : State} (s : State) (b : List Byte) (hk : Keeps z s) :
    Keeps z (State.ethRestore s b) := by
  unfold State.ethRestore
  repeat' with_reducible first
    | assumption
    | apply State.wrAll_keeps
    | apply State.wrBlob_keeps
    | apply Keeps.foldl
    | intro _
    | apply Keeps.ite

theorem ethApply_keeps {z : State} (id : Nat) (s : State) (hk : Keeps z s) :
    Keeps z (ethApply id s) := by
  unfold ethApply
  repeat' with_reducible first
    | assumption
    | apply State.ethCommit_keeps
    | apply State.ledgerPut_keeps
    | apply Keeps.ite

end Sys2Proof.Machine
end

