-- ==== Sys2Proof/Laws/Keeps/TimeRef.lean ====
section
/-! SUPPORT. What every operation of Machine/TimeRef.lean keeps. -/

namespace Sys2Proof.Machine

theorem State.tickNotify_keeps {z : State} (s : State) (code : Nat) (amount : Int) (seq value : Nat) (hk : Keeps z s) :
    Keeps z (State.tickNotify s code amount seq value) := by
  unfold State.tickNotify
  repeat' with_reducible first
    | assumption
    | apply State.notify_keeps

theorem State.tickTo_keeps {z : State} (s : State) (st : Nat) (hk : Keeps z s) :
    Keeps z (State.tickTo s st) := by
  unfold State.tickTo
  repeat' with_reducible first
    | apply State.fire_keeps
    | apply State.tickNotify_keeps
    | apply State.wr_keeps
    | apply Keeps.ite
    | (refine (Keeps.mk' ?_ (by omega) (by omega) rfl) <;>
       first | assumption | apply State.count_keeps)

theorem State.sourceStopped_keeps {z : State} (s : State) (src : Nat) (hk : Keeps z s) :
    Keeps z (State.sourceStopped s src) := by
  unfold State.sourceStopped
  repeat' with_reducible first
    | assumption
    | apply State.tickTo_keeps
    | apply Keeps.ite

theorem State.sourceReturned_keeps {z : State} (s : State) (src : Nat) (hk : Keeps z s) :
    Keeps z (State.sourceReturned s src) := by
  unfold State.sourceReturned
  repeat' with_reducible first
    | assumption
    | apply State.tickTo_keeps
    | apply Keeps.ite

theorem State.sourceChanged_keeps {z : State} (s : State) (src : Nat) (hk : Keeps z s) :
    Keeps z (State.sourceChanged s src) := by
  unfold State.sourceChanged
  repeat' with_reducible first
    | assumption
    | apply State.tickTo_keeps
    | apply Keeps.ite

theorem State.selectSource_keeps {z : State} (s : State) (src : Nat) (hk : Keeps z s) :
    Keeps z (State.selectSource s src) := by
  unfold State.selectSource
  repeat' with_reducible first
    | apply State.tickTo_keeps
    | (refine (Keeps.mk' ?_ (by omega) (by omega) rfl) <;>
       first | assumption)

theorem State.setTrim_keeps {z : State} (s : State) (trim : Int) (hk : Keeps z s) :
    Keeps z (State.setTrim s trim) := by
  unfold State.setTrim
  repeat' with_reducible first
    | (refine (Keeps.mk' ?_ (by omega) (by omega) rfl) <;>
       first | assumption)

theorem State.setTime_keeps {z : State} (s : State) (t ref : Nat) (hk : Keeps z s) :
    Keeps z (State.setTime s t ref) := by
  unfold State.setTime
  repeat' with_reducible first
    | (refine (Keeps.mk' ?_ (by omega) (by omega) rfl) <;>
       first | assumption)

theorem State.timeStep_keeps {z : State} (s : State) (amount : Int) (hk : Keeps z s) :
    Keeps z (State.timeStep s amount) := by
  unfold State.timeStep
  repeat' with_reducible first
    | apply State.count_keeps
    | apply State.fire_keeps
    | apply State.setTime_keeps
    | apply State.tickNotify_keeps
    | apply State.trace_keeps
    | apply State.wr_keeps
    | apply Keeps.ite
    | (refine (Keeps.mk' ?_ (by omega) (by omega) rfl) <;>
       first | assumption | apply State.wrBlob_keeps)

theorem State.servoTrim_keeps {z : State} (s : State) (offset : Int) (hk : Keeps z s) :
    Keeps z (State.servoTrim s offset) := by
  unfold State.servoTrim
  try dsimp only [State.draw]
  repeat' with_reducible first
    | apply State.setTrim_keeps
    | (refine (Keeps.mk' ?_ (by omega) (by omega) rfl) <;>
       first | assumption)

theorem State.servo_keeps {z : State} (s : State) (offset : Int) (hk : Keeps z s) :
    Keeps z (State.servo s offset) := by
  unfold State.servo
  repeat' with_reducible first
    | assumption
    | apply State.servoTrim_keeps
    | apply State.timeStep_keeps
    | apply State.wr_keeps
    | apply Keeps.ite

theorem State.timeSource_keeps {z : State} (s : State) (hk : Keeps z s) :
    Keeps z (State.timeSource s) := by
  unfold State.timeSource
  repeat' with_reducible first
    | assumption
    | apply State.setTrim_keeps
    | apply State.wr_keeps
    | apply Keeps.ite

theorem State.timeSetAtEdge_keeps {z : State} (s : State) (hk : Keeps z s) :
    Keeps z (State.timeSetAtEdge s) := by
  unfold State.timeSetAtEdge
  repeat' with_reducible first
    | apply State.timeStep_keeps
    | split
    | (refine (Keeps.mk' ?_ (by omega) (by omega) rfl) <;>
       first | assumption)

theorem State.ptpAlone_keeps {z : State} (s : State) (hk : Keeps z s) :
    Keeps z (State.ptpAlone s) := by
  unfold State.ptpAlone
  repeat' with_reducible first
    | assumption
    | apply State.wrAll_keeps
    | apply Keeps.ite

theorem State.bmca_keeps {z : State} (s : State) (hk : Keeps z s) :
    Keeps z (State.bmca s) := by
  unfold State.bmca
  try dsimp only [State.draw]
  repeat' with_reducible first
    | apply State.ptpAlone_keeps
    | apply State.sourceReturned_keeps
    | apply State.wr_keeps
    | apply State.wrAll_keeps
    | split
    | (refine (Keeps.mk' ?_ (by omega) (by omega) rfl) <;>
       first | assumption)

theorem State.ptpOffset_keeps {z : State} (s : State) (port : Nat) (hk : Keeps z s) :
    Keeps z (State.ptpOffset s port) := by
  unfold State.ptpOffset
  try dsimp only [State.draw]
  repeat' with_reducible first
    | assumption
    | apply State.servo_keeps
    | apply State.wr_keeps
    | split

theorem State.ptpSync_keeps {z : State} (s : State) (port : Nat) (t1 : Nat) (corr : Int) (t2 : Nat) (hk : Keeps z s) :
    Keeps z (State.ptpSync s port t1 corr t2) := by
  unfold State.ptpSync
  repeat' with_reducible first
    | apply State.count_keeps
    | apply State.ptpOffset_keeps
    | apply Keeps.ite
    | (refine (Keeps.mk' ?_ (by omega) (by omega) rfl) <;>
       first | assumption)

theorem State.ptpDelay_keeps {z : State} (s : State) (port : Nat) (t3 t4 : Nat) (corr : Int) (hk : Keeps z s) :
    Keeps z (State.ptpDelay s port t3 t4 corr) := by
  unfold State.ptpDelay
  repeat' with_reducible first
    | apply State.count_keeps
    | apply State.wr_keeps
    | apply Keeps.ite
    | (refine (Keeps.mk' ?_ (by omega) (by omega) rfl) <;>
       first | assumption)

theorem State.ptpAnnounce_keeps {z : State} (s : State) (port : Nat) (h : PtpHeader) (b : List Byte) (hk : Keeps z s) :
    Keeps z (State.ptpAnnounce s port h b) := by
  unfold State.ptpAnnounce
  repeat' with_reducible first
    | apply State.bmca_keeps
    | (refine (Keeps.mk' ?_ (by omega) (by omega) rfl) <;>
       first | assumption)

theorem State.ptpAnswer_keeps {z : State} (s : State) (port : Nat) (h : PtpHeader) (b : List Byte) (hk : Keeps z s) :
    Keeps z (State.ptpAnswer s port h b) := by
  unfold State.ptpAnswer
  repeat' with_reducible first
    | assumption
    | apply State.emit_keeps
    | apply Keeps.ite

theorem execPtpMessageRx_keeps {z : State} (port : Fin 2) (vlan : Nat) (bytes : List Byte) (s : State) (hk : Keeps z s) {u : State} (he : execPtpMessageRx port vlan bytes s = .next u) : Keeps z u := by
  unfold execPtpMessageRx at he
  cases he
  try dsimp only [State.draw]
  repeat' with_reducible first
    | apply State.ptpAnnounce_keeps
    | apply State.ptpAnswer_keeps
    | apply State.ptpDelay_keeps
    | apply State.ptpSync_keeps
    | split
    | (refine (Keeps.mk' ?_ (by omega) (by omega) rfl) <;>
       first | assumption | apply State.rxFrame_keeps)

theorem execPtpAnnounceTimeout_keeps {z : State} (s : State) (hk : Keeps z s) {u : State} (he : execPtpAnnounceTimeout s = .next u) : Keeps z u := by
  unfold execPtpAnnounceTimeout at he
  cases he
  try dsimp only [State.draw]
  repeat' with_reducible first
    | apply State.bmca_keeps
    | apply State.sourceStopped_keeps
    | apply State.wr_keeps
    | split
    | (refine (Keeps.mk' ?_ (by omega) (by omega) rfl) <;>
       first | assumption | apply State.at_keeps)

theorem execPtpIntervalSend_keeps {z : State} (port : Fin 2) (kind : Fin 3) (s : State) (hk : Keeps z s) {u : State} (he : execPtpIntervalSend port kind s = .next u) : Keeps z u := by
  unfold execPtpIntervalSend at he
  cases he
  try dsimp only [State.draw]
  repeat' with_reducible first
    | apply State.emit_keeps
    | split
    | (refine (Keeps.mk' ?_ (by omega) (by omega) rfl) <;>
       first | assumption | apply State.bmca_keeps)

theorem State.fsyncAccept_keeps {z : State} (s : State) (n period : Nat) (hk : Keeps z s) :
    Keeps z (State.fsyncAccept s n period) := by
  unfold State.fsyncAccept
  repeat' with_reducible first
    | assumption
    | apply State.setSync_keeps
    | apply State.sourceReturned_keeps
    | apply State.wr_keeps
    | apply Keeps.ite

theorem State.fsyncRate_keeps {z : State} (s : State) (n period : Nat) (hk : Keeps z s) :
    Keeps z (State.fsyncRate s n period) := by
  unfold State.fsyncRate
  repeat' with_reducible first
    | apply State.count_keeps
    | apply State.fire_keeps
    | apply State.setSync_keeps
    | apply State.sourceChanged_keeps
    | apply State.tickNotify_keeps
    | apply Keeps.ite
    | (refine (Keeps.mk' ?_ (by omega) (by omega) rfl) <;>
       first | assumption | apply State.wr_keeps)

theorem execFsyncEdge_keeps {z : State} (n : Fin 2) (rising : Bool) (s : State) (hk : Keeps z s) {u : State} (he : execFsyncEdge n rising s = .next u) : Keeps z u := by
  unfold execFsyncEdge at he
  cases he
  try dsimp only [State.draw]
  repeat' with_reducible first
    | assumption
    | apply State.count_keeps
    | apply State.fire_keeps
    | apply State.fsyncAccept_keeps
    | apply State.fsyncRate_keeps
    | apply State.setSync_keeps
    | apply State.wr_keeps
    | split

theorem execFsyncStop_keeps {z : State} (n : Fin 2) (s : State) (hk : Keeps z s) {u : State} (he : execFsyncStop n s = .next u) : Keeps z u := by
  unfold execFsyncStop at he
  cases he
  try dsimp only [State.draw]
  repeat' with_reducible first
    | assumption
    | apply State.at_keeps
    | apply State.count_keeps
    | apply State.setSync_keeps
    | apply State.sourceStopped_keeps
    | split

theorem timeApply_keeps {z : State} (id v : Nat) (s : State) (hk : Keeps z s) :
    Keeps z (timeApply id v s) := by
  unfold timeApply
  repeat' with_reducible first
    | apply State.bmca_keeps
    | apply State.setSync_keeps
    | apply State.timeSource_keeps
    | apply State.wr_keeps
    | apply Keeps.ite
    | (refine (Keeps.mk' ?_ (by omega) (by omega) rfl) <;>
       first | assumption)

end Sys2Proof.Machine
end

