-- ==== Sys2Proof/Laws/Keeps/Streams.lean ====
section
/-! SUPPORT. What every operation of Machine/Streams.lean keeps. -/

namespace Sys2Proof.Machine

theorem State.sendRtp_keeps {z : State} (s : State) (n stamp : Nat) (marker : Bool) (kind : String) (payload : Nat → List Byte) (hk : Keeps z s) :
    Keeps z (State.sendRtp s n stamp marker kind payload) := by
  unfold State.sendRtp
  repeat' with_reducible first
    | assumption
    | apply State.addBytes_keeps
    | apply State.count_keeps
    | apply State.emit_keeps
    | apply State.setStream_keeps
    | apply Keeps.foldl
    | intro _
    | apply Keeps.ite

theorem State.sourceLost_keeps {z : State} (s : State) (n : Nat) (hk : Keeps z s) :
    Keeps z (State.sourceLost s n) := by
  unfold State.sourceLost
  repeat' with_reducible first
    | assumption
    | apply State.count_keeps
    | apply State.setStream_keeps
    | apply Keeps.ite

theorem State.frameSent_keeps {z : State} (s : State) (n : Nat) (now : Nat × Nat) (hk : Keeps z s) :
    Keeps z (State.frameSent s n now) := by
  unfold State.frameSent
  repeat' with_reducible first
    | assumption
    | apply State.count_keeps
    | apply State.setStream_keeps
    | apply Keeps.ite

theorem State.dropHolds_keeps {z : State} (s : State) (n : Nat) (hk : Keeps z s) :
    Keeps z (State.dropHolds s n) := by
  unfold State.dropHolds
  repeat' with_reducible first
    | assumption
    | apply State.dropHold_keeps
    | apply Keeps.foldl

theorem State.senderStop_keeps {z : State} (s : State) (n : Nat) (hk : Keeps z s) :
    Keeps z (State.senderStop s n) := by
  unfold State.senderStop
  repeat' with_reducible first
    | assumption
    | apply State.dropHolds_keeps
    | apply State.setStream_keeps

theorem State.videoAlign_keeps {z : State} (s : State) (n at' : Nat) (hk : Keeps z s) :
    Keeps z (State.videoAlign s n at') := by
  unfold State.videoAlign
  try dsimp only [State.draw]
  repeat' with_reducible first
    | assumption
    | apply State.frameSent_keeps
    | apply State.setStream_keeps
    | apply State.sourceLost_keeps
    | apply State.takeHold_keeps
    | split

theorem State.ancAlign_keeps {z : State} (s : State) (n at' : Nat) (hk : Keeps z s) :
    Keeps z (State.ancAlign s n at') := by
  unfold State.ancAlign
  repeat' with_reducible first
    | assumption
    | apply State.frameSent_keeps
    | apply State.setStream_keeps
    | apply State.takeHold_keeps
    | apply Keeps.ite

theorem execSenderAlignmentPoint_keeps {z : State} (n : Fin 80) (s : State) (hk : Keeps z s) {u : State} (he : execSenderAlignmentPoint n s = .next u) : Keeps z u := by
  unfold execSenderAlignmentPoint at he
  cases he
  try dsimp only [State.draw]
  repeat' with_reducible first
    | assumption
    | apply State.ancAlign_keeps
    | apply State.at_keeps
    | apply State.retireFreed_keeps
    | apply State.senderStop_keeps
    | apply State.setStream_keeps
    | apply State.sourceLost_keeps
    | apply State.videoAlign_keeps
    | split

theorem State.videoSend_keeps {z : State} (s : State) (k : Nat) (t : VideoTx) (rest : List VideoTx) (hk : Keeps z s) :
    Keeps z (State.videoSend s k t rest) := by
  unfold State.videoSend
  repeat' with_reducible first
    | assumption
    | apply State.at_keeps
    | apply State.dropHold_keeps
    | apply State.retireFreed_keeps
    | apply State.sendRtp_keeps
    | apply State.setStream_keeps
    | apply Keeps.ite

theorem State.readySend_keeps {z : State} (s : State) (k due stamp : Nat) (data : List Byte) (rest : List (Nat × Nat × List Byte)) (hk : Keeps z s) :
    Keeps z (State.readySend s k due stamp data rest) := by
  unfold State.readySend
  repeat' with_reducible first
    | assumption
    | apply State.at_keeps
    | apply State.dropHold_keeps
    | apply State.retireFreed_keeps
    | apply State.sendRtp_keeps
    | apply State.setStream_keeps
    | apply Keeps.ite

theorem execSt2110PacketSend_keeps {z : State} (n : Fin 80) (s : State) (hk : Keeps z s) {u : State} (he : execSt2110PacketSend n s = .next u) : Keeps z u := by
  unfold execSt2110PacketSend at he
  cases he
  try dsimp only [State.draw]
  repeat' with_reducible first
    | assumption
    | apply State.readySend_keeps
    | apply State.videoSend_keeps
    | split

theorem State.streamsTick_keeps {z : State} (s : State) (runs : Nat → Bool) (hk : Keeps z s) :
    Keeps z (State.streamsTick s runs) := by
  unfold State.streamsTick
  repeat' with_reducible first
    | assumption
    | apply State.setStream_keeps
    | apply Keeps.foldl
    | intro _
    | apply Keeps.ite

theorem State.buildersEdge_keeps {z : State} (s : State) (built : Bool) (hk : Keeps z s) :
    Keeps z (State.buildersEdge s built) := by
  unfold State.buildersEdge
  repeat' with_reducible first
    | apply State.count_keeps
    | apply State.dropHolds_keeps
    | apply State.retireFreed_keeps
    | apply State.setStream_keeps
    | apply Keeps.foldl
    | intro _
    | apply Keeps.ite
    | (refine (Keeps.mk' ?_ (by omega) (by omega) rfl) <;>
       first | assumption)

theorem streamApply_keeps {z : State} (id v : Nat) (s : State) (hk : Keeps z s) :
    Keeps z (streamApply id v s) := by
  unfold streamApply
  repeat' with_reducible first
    | assumption
    | apply State.retireFreed_keeps
    | apply State.senderStop_keeps
    | apply State.setStream_keeps
    | apply Keeps.ite

end Sys2Proof.Machine
end

