-- ==== Sys2Proof/Laws/Keeps/Audio.lean ====
section
/-! SUPPORT. What every operation of Machine/Audio.lean keeps. -/

namespace Sys2Proof.Machine

theorem State.audNotify_keeps {z : State} (s : State) (code port value : Nat) (hk : Keeps z s) :
    Keeps z (State.audNotify s code port value) := by
  unfold State.audNotify
  repeat' with_reducible first
    | assumption
    | apply State.linkNotify_keeps

theorem State.audPortNotify_keeps {z : State} (s : State) (code p value : Nat) (hk : Keeps z s) :
    Keeps z (State.audPortNotify s code p value) := by
  unfold State.audPortNotify
  repeat' with_reducible first
    | assumption
    | apply State.audNotify_keeps
    | apply State.setAud_keeps
    | split

theorem State.familyTo_keeps {z : State} (s : State) (f st : Nat) (hk : Keeps z s) :
    Keeps z (State.familyTo s f st) := by
  unfold State.familyTo
  repeat' with_reducible first
    | assumption
    | apply State.audNotify_keeps
    | apply State.wr_keeps
    | apply Keeps.ite

theorem State.audFlag_keeps {z : State} (s : State) (p bitNo : Nat) (hk : Keeps z s) :
    Keeps z (State.audFlag s p bitNo) := by
  unfold State.audFlag
  repeat' with_reducible first
    | assumption
    | apply State.setAud_keeps

theorem State.audStart_keeps {z : State} (s : State) (p : Nat) (hk : Keeps z s) :
    Keeps z (State.audStart s p) := by
  unfold State.audStart
  repeat' with_reducible first
    | assumption
    | apply State.setAud_keeps
    | apply State.wrAll_keeps

theorem State.audStop_keeps {z : State} (s : State) (p : Nat) (hk : Keeps z s) :
    Keeps z (State.audStop s p) := by
  unfold State.audStop
  repeat' with_reducible first
    | assumption
    | apply State.retireFreed_keeps
    | apply State.setAud_keeps
    | apply State.wrAll_keeps

theorem State.writeStatus_keeps {z : State} (s : State) (p : Nat) (hk : Keeps z s) :
    Keeps z (State.writeStatus s p) := by
  unfold State.writeStatus
  try dsimp only [State.draw]
  repeat' with_reducible first
    | assumption
    | split
    | (refine (Keeps.mkMem ?_ (by omega) (by first | exact memDrop_wf _ | exact memWriteN_wf _ _)) <;>
       first | assumption)

theorem State.ringFreed_keeps {z : State} (s : State) (p : Nat) (hk : Keeps z s) :
    Keeps z (State.ringFreed s p) := by
  unfold State.ringFreed
  repeat' with_reducible first
    | assumption
    | apply State.retireFreed_keeps
    | apply State.wr_keeps
    | apply State.wrBlob_keeps
    | apply Keeps.ite

theorem State.maskApply_keeps {z : State} (s : State) (p now : Nat) (hk : Keeps z s) :
    Keeps z (State.maskApply s p now) := by
  unfold State.maskApply
  try dsimp only [State.draw]
  repeat' with_reducible first
    | assumption
    | apply State.count_keeps
    | apply State.setAud_keeps
    | apply State.wrAll_keeps
    | split

theorem State.audBoundary_keeps {z : State} (s : State) (p : Nat) (hk : Keeps z s) :
    Keeps z (State.audBoundary s p) := by
  unfold State.audBoundary
  repeat' with_reducible first
    | assumption
    | apply State.fire_keeps
    | apply State.maskApply_keeps
    | apply State.ringFreed_keeps
    | apply State.setAud_keeps
    | apply State.wr_keeps
    | apply State.writeStatus_keeps
    | apply Keeps.ite

theorem execAudioPeriodBoundary_keeps {z : State} (port : Fin 8) (s : State) (hk : Keeps z s) {u : State} (he : execAudioPeriodBoundary port s = .next u) : Keeps z u := by
  unfold execAudioPeriodBoundary at he
  cases he
  repeat' with_reducible first
    | assumption
    | apply State.at_keeps
    | apply State.audBoundary_keeps
    | apply Keeps.ite

theorem State.audMute_keeps {z : State} (s : State) (p w : Nat) (slots vals : List Nat) (all : Bool) (hk : Keeps z s) :
    Keeps z (State.audMute s p w slots vals all).1 := by
  unfold State.audMute
  repeat' with_reducible first
    | assumption
    | apply State.setAud_keeps
    | apply State.wr_keeps

theorem execAudioMuteTimeout_keeps {z : State} (port : Fin 8) (s : State) (hk : Keeps z s) {u : State} (he : execAudioMuteTimeout port s = .next u) : Keeps z u := by
  unfold execAudioMuteTimeout at he
  cases he
  try dsimp only [State.draw]
  repeat' with_reducible first
    | assumption
    | apply State.at_keeps
    | apply State.audFlag_keeps
    | apply State.count_keeps
    | apply State.setAud_keeps
    | apply State.wr_keeps
    | split

theorem State.rxAdvance_keeps {z : State} (s : State) (n clock : Nat) (hk : Keeps z s) :
    Keeps z (State.rxAdvance s n clock) := by
  unfold State.rxAdvance
  repeat' with_reducible first
    | assumption
    | apply State.count_keeps
    | apply State.countBy_keeps
    | apply State.setStream_keeps
    | apply Keeps.foldl
    | intro _
    | apply Keeps.ite

theorem execSt2110AudioRxPacket_keeps {z : State} (n : Fin 16) (path : Fin 2) (vlan : Nat) (seq : BitVec 16) (stamp : BitVec 32) (payload : List Byte) (s : State) (hk : Keeps z s) {u : State} (he : execSt2110AudioRxPacket n path vlan seq stamp payload s = .next u) : Keeps z u := by
  unfold execSt2110AudioRxPacket at he
  cases he
  try dsimp only [State.draw]
  repeat' with_reducible first
    | assumption
    | apply State.addBytes_keeps
    | apply State.count_keeps
    | apply State.rxAdvance_keeps
    | apply State.rxFrame_keeps
    | apply State.setStream_keeps
    | split

theorem State.feedSenders_keeps {z : State} (s : State) (p w clock : Nat) (vals : List Nat) (hk : Keeps z s) :
    Keeps z (State.feedSenders s p w clock vals) := by
  unfold State.feedSenders
  repeat' with_reducible first
    | assumption
    | apply State.setStream_keeps
    | apply Keeps.foldl
    | intro _
    | apply Keeps.ite

theorem State.audXrun_keeps {z : State} (s : State) (p kind : Nat) (hk : Keeps z s) :
    Keeps z (State.audXrun s p kind) := by
  unfold State.audXrun
  repeat' with_reducible first
    | assumption
    | apply State.audPortNotify_keeps
    | apply State.count_keeps
    | apply State.fire_keeps
    | apply State.setAud_keeps
    | apply Keeps.ite

theorem State.audFsFrame_keeps {z : State} (s : State) (p : Nat) (hk : Keeps z s) :
    Keeps z (State.audFsFrame s p) := by
  unfold State.audFsFrame
  repeat' with_reducible first
    | assumption
    | apply State.count_keeps
    | apply State.setAud_keeps

theorem State.audOk_keeps {z : State} (s : State) (p : Nat) (hk : Keeps z s) :
    Keeps z (State.audOk s p) := by
  unfold State.audOk
  repeat' with_reducible first
    | assumption
    | apply State.setAud_keeps
    | apply Keeps.ite

theorem State.audStore_keeps {z : State} (s : State) (p n w pk : Nat) (out : List Nat) (hk : Keeps z s) :
    Keeps z (State.audStore s p n w pk out) := by
  unfold State.audStore
  repeat' with_reducible first
    | assumption
    | apply State.addBytes_keeps
    | apply State.audOk_keeps
    | apply State.audXrun_keeps
    | split
    | (refine (Keeps.mkMem ?_ (by omega) (by first | exact memDrop_wf _ | exact memWriteN_wf _ _)) <;>
       first | assumption)

theorem State.audInput_keeps {z : State} (s : State) (p n clock : Nat) (raw : List Nat) (hk : Keeps z s) :
    Keeps z (State.audInput s p n clock raw) := by
  unfold State.audInput
  repeat' with_reducible first
    | assumption
    | apply State.audFsFrame_keeps
    | apply State.audMute_keeps
    | apply State.audStore_keeps
    | apply State.audXrun_keeps
    | apply State.feedSenders_keeps
    | apply Keeps.ite

theorem State.audOutput_keeps {z : State} (s : State) (p n clock : Nat) (hk : Keeps z s) :
    Keeps z (State.audOutput s p n clock) := by
  unfold State.audOutput
  repeat' with_reducible first
    | assumption
    | apply State.addBytes_keeps
    | apply State.audFsFrame_keeps
    | apply State.audMute_keeps
    | apply State.audOk_keeps
    | apply State.audXrun_keeps
    | apply State.emit_keeps
    | apply State.rxAdvance_keeps
    | apply State.setAud_keeps
    | apply Keeps.ite

theorem execAudioSampleFrame_keeps {z : State} (port : Fin 8) (slots : List Nat) (s : State) (hk : Keeps z s) {u : State} (he : execAudioSampleFrame port slots s = .next u) : Keeps z u := by
  unfold execAudioSampleFrame at he
  cases he
  repeat' with_reducible first
    | assumption
    | apply State.at_keeps
    | apply State.audBoundary_keeps
    | apply State.audInput_keeps
    | apply State.audOutput_keeps
    | apply State.setAud_keeps
    | apply State.wr_keeps
    | apply Keeps.ite

theorem execAudioFsEdge_keeps {z : State} (port : Fin 8) (offset : Nat) (drift : Int) (s : State) (hk : Keeps z s) {u : State} (he : execAudioFsEdge port offset drift s = .next u) : Keeps z u := by
  unfold execAudioFsEdge at he
  cases he
  repeat' with_reducible first
    | assumption
    | apply State.audFlag_keeps
    | apply State.count_keeps
    | apply State.setAud_keeps
    | apply State.wr_keeps
    | apply Keeps.ite

theorem execAudioFsLost_keeps {z : State} (port : Fin 8) (s : State) (hk : Keeps z s) {u : State} (he : execAudioFsLost port s = .next u) : Keeps z u := by
  unfold execAudioFsLost at he
  cases he
  repeat' with_reducible first
    | assumption
    | apply State.at_keeps
    | apply State.audFlag_keeps
    | apply State.audPortNotify_keeps
    | apply State.wr_keeps
    | apply Keeps.ite

theorem State.setFamily_keeps {z : State} (s : State) (f : Nat) (x : FsyncSt) (hk : Keeps z s) :
    Keeps z (State.setFamily s f x) := by
  unfold State.setFamily
  repeat' with_reducible first
    | (refine (Keeps.mk' ?_ (by omega) (by omega) rfl) <;>
       first | assumption)

theorem State.wordclockAccept_keeps {z : State} (s : State) (f period : Nat) (phaseErr : Int) (hk : Keeps z s) :
    Keeps z (State.wordclockAccept s f period phaseErr) := by
  unfold State.wordclockAccept
  repeat' with_reducible first
    | assumption
    | apply State.familyTo_keeps
    | apply State.setFamily_keeps
    | apply State.wrS_keeps
    | apply Keeps.ite

theorem execWordclockEdge_keeps {z : State} (family : Fin 2) (phaseErr : Int) (s : State) (hk : Keeps z s) {u : State} (he : execWordclockEdge family phaseErr s = .next u) : Keeps z u := by
  unfold execWordclockEdge at he
  cases he
  try dsimp only [State.draw]
  repeat' with_reducible first
    | assumption
    | apply State.count_keeps
    | apply State.setFamily_keeps
    | apply State.wordclockAccept_keeps
    | split

theorem execWordclockStop_keeps {z : State} (family : Fin 2) (s : State) (hk : Keeps z s) {u : State} (he : execWordclockStop family s = .next u) : Keeps z u := by
  unfold execWordclockStop at he
  cases he
  repeat' with_reducible first
    | assumption
    | apply State.at_keeps
    | apply State.count_keeps
    | apply State.familyTo_keeps
    | apply State.setFamily_keeps
    | apply Keeps.ite

theorem execFamilyLockAchieved_keeps {z : State} (family : Fin 2) (s : State) (hk : Keeps z s) {u : State} (he : execFamilyLockAchieved family s = .next u) : Keeps z u := by
  unfold execFamilyLockAchieved at he
  cases he
  repeat' with_reducible first
    | assumption
    | apply State.familyTo_keeps
    | apply Keeps.ite

theorem execFamilySlip_keeps {z : State} (family : Fin 2) (frames : Int) (s : State) (hk : Keeps z s) {u : State} (he : execFamilySlip family frames s = .next u) : Keeps z u := by
  unfold execFamilySlip at he
  cases he
  repeat' with_reducible first
    | assumption
    | apply State.count_keeps
    | apply State.familyTo_keeps
    | apply State.setAud_keeps
    | apply Keeps.foldl
    | intro _
    | apply Keeps.ite

theorem audioApply_keeps {z : State} (_t : Txn) (id : Nat) (v : PVal) (s : State) (hk : Keeps z s) :
    Keeps z (audioApply _t id v s) := by
  unfold audioApply
  repeat' with_reducible first
    | assumption
    | apply State.audStart_keeps
    | apply State.audStop_keeps
    | apply State.familyTo_keeps
    | apply State.retireFreed_keeps
    | apply State.setAud_keeps
    | apply State.setFamily_keeps
    | apply State.wr_keeps
    | apply State.wrS_keeps
    | apply Keeps.ite

end Sys2Proof.Machine
end

