-- ==== Sys2Proof/Laws/Keeps/FrameStart.lean ====
section
/-! SUPPORT. What every operation of Machine/FrameStart.lean keeps. -/

namespace Sys2Proof.Machine

theorem State.frameStartAt_keeps {z : State} (s : State) (p frameCount : Nat) (hk : Keeps z s) :
    Keeps z (State.frameStartAt s p frameCount) := by
  unfold State.frameStartAt
  repeat' with_reducible first
    | assumption
    | apply State.frameStart_keeps
    | apply State.slotReused_keeps
    | split

theorem execCrlFrameStartRx_keeps {z : State} (port : Fin 16) (frameCount : Nat) (s : State) (hk : Keeps z s) {u : State} (he : execCrlFrameStartRx port frameCount s = .next u) : Keeps z u := by
  unfold execCrlFrameStartRx at he
  cases he
  repeat' with_reducible first
    | assumption
    | apply State.frameStartAt_keeps
    | apply Keeps.ite

theorem execPatgenFrameStart_keeps {z : State} (port : Fin 16) (s : State) (hk : Keeps z s) {u : State} (he : execPatgenFrameStart port s = .next u) : Keeps z u := by
  unfold execPatgenFrameStart at he
  cases he
  repeat' with_reducible first
    | assumption
    | apply State.at_keeps
    | apply State.frameStartAt_keeps
    | apply State.setPort_keeps
    | apply Keeps.ite

end Sys2Proof.Machine
end

