-- ==== Sys2Proof/Laws/Keeps/Image.lean ====
section
/-! SUPPORT. What every operation of Machine/Image.lean keeps. -/

namespace Sys2Proof.Machine

theorem State.slotParams_keeps {z : State} (s : State) (slot status : Nat) (h : List Byte) (hk : Keeps z s) :
    Keeps z (State.slotParams s slot status h) := by
  unfold State.slotParams
  repeat' with_reducible first
    | assumption
    | apply State.wrAll_keeps

theorem State.bootRestore_keeps {z : State} (s : State) (b : List Byte) (hk : Keeps z s) :
    Keeps z (State.bootRestore s b) := by
  unfold State.bootRestore
  repeat' with_reducible first
    | assumption
    | apply State.wrAll_keeps

theorem State.bootStore_keeps {z : State} (s : State) (l : List (Nat × Nat)) (hk : Keeps z s) :
    Keeps z (State.bootStore s l) := by
  unfold State.bootStore
  repeat' with_reducible first
    | assumption
    | apply State.ledgerPut_keeps
    | apply State.wrAll_keeps

end Sys2Proof.Machine
end

