-- ==== Sys2Proof/Laws/Keeps/Life.lean ====
section
/-! SUPPORT. What every operation of Machine/Life.lean keeps. -/

namespace Sys2Proof.Machine

theorem State.lifeParams_keeps {z : State} (s : State) (hk : Keeps z s) :
    Keeps z (State.lifeParams s) := by
  unfold State.lifeParams
  repeat' with_reducible first
    | assumption
    | apply State.wrAll_keeps

theorem State.lifeAdd_keeps {z : State} (s : State) (hk : Keeps z s) :
    Keeps z (State.lifeAdd s) := by
  unfold State.lifeAdd
  repeat' with_reducible first
    | (refine (Keeps.mk' ?_ (by omega) (by omega) rfl) <;>
       first | assumption)

theorem State.ledgerCommit_keeps {z : State} (s : State) (w : Nat × Nat × List Byte) (hk : Keeps z s) :
    Keeps z (State.ledgerCommit s w) := by
  unfold State.ledgerCommit
  repeat' with_reducible first
    | assumption
    | apply State.ledgerWrite_keeps
    | apply State.lifeAdd_keeps
    | apply Keeps.ite

end Sys2Proof.Machine
end

