-- ==== Sys2Proof/Laws/Keeps/Restart.lean ====
section
/-! SUPPORT. What every operation of Machine/Restart.lean keeps. -/

namespace Sys2Proof.Machine

theorem State.flushLedger_keeps {z : State} (s : State) (hk : Keeps z s) :
    Keeps z (State.flushLedger s) := by
  unfold State.flushLedger
  repeat' with_reducible first
    | apply State.ledgerCommit_keeps
    | (refine (Keeps.mk' ?_ (by omega) (by omega) rfl) <;>
       first | assumption | apply Keeps.foldl)

theorem State.finishLedger_keeps {z : State} (s : State) (hk : Keeps z s) :
    Keeps z (State.finishLedger s) := by
  unfold State.finishLedger
  repeat' with_reducible first
    | assumption
    | apply State.ledgerCommit_keeps
    | split

theorem State.bootReset_keeps {z : State} (s : State) (hk : Keeps z s) : Keeps z s.bootReset :=
  ⟨hk.pending, hk.clock, hk.free, fun g => regsWf_filter _ (hk.regs g), fun _ => twf_nil _⟩

theorem State.enterBoot_keeps {z : State} (s : State) (cause : Nat) (hk : Keeps z s) :
    Keeps z (State.enterBoot s cause) := by
  unfold State.enterBoot
  repeat' with_reducible first
    | assumption
    | apply State.bootReset_keeps
    | apply State.setGlobal_keeps
    | apply State.wr_keeps

end Sys2Proof.Machine
end

