-- ==== Sys2Proof/Laws/Keeps/BootRom.lean ====
section
/-! SUPPORT. What every operation of Machine/BootRom.lean keeps. -/

namespace Sys2Proof.Machine

theorem State.bootTrace_keeps {z : State} (s : State) (slot stage : Nat) (failed : Bool) (hk : Keeps z s) :
    Keeps z (State.bootTrace s slot stage failed) := by
  unfold State.bootTrace
  repeat' with_reducible first
    | assumption
    | apply State.trace_keeps

theorem State.traceHeader_keeps {z : State} (s : State) (slot : Nat) (hk : Keeps z s) :
    Keeps z (State.traceHeader s slot) := by
  unfold State.traceHeader
  repeat' with_reducible first
    | assumption
    | apply State.bootTrace_keeps
    | apply Keeps.foldl
    | intro _
    | apply Keeps.ite

theorem State.traceNoImage_keeps {z : State} (s : State) (hk : Keeps z s) :
    Keeps z (State.traceNoImage s) := by
  unfold State.traceNoImage
  repeat' with_reducible first
    | assumption
    | apply State.bootTrace_keeps

theorem State.selectImage_keeps {z : State} (s : State) (hk : Keeps z s) :
    Keeps z (State.selectImage s) := by
  unfold State.selectImage
  repeat' with_reducible first
    | apply State.traceHeader_keeps
    | apply State.traceNoImage_keeps
    | split
    | (refine (Keeps.mk' ?_ (by omega) (by omega) rfl) <;>
       first | assumption)

theorem State.bootFailure_keeps {z : State} (s : State) (slot : Nat) (hk : Keeps z s) :
    Keeps z (State.bootFailure s slot) := by
  unfold State.bootFailure
  repeat' with_reducible first
    | assumption
    | apply State.bootStore_keeps

theorem State.applyClock_keeps {z : State} (s : State) (hk : Keeps z s) :
    Keeps z (State.applyClock s) := by
  unfold State.applyClock
  repeat' with_reducible first
    | apply State.pin_keeps
    | apply Keeps.ite
    | (refine (Keeps.mk' ?_ (by omega) (by omega) rfl) <;>
       first | assumption)

theorem State.negorStarts_keeps {z : State} (s : State) (slot : Nat) (header : List Byte) (hk : Keeps z s) :
    Keeps z (State.negorStarts s slot header) := by
  unfold State.negorStarts
  repeat' with_reducible first
    | apply State.applyClock_keeps
    | apply State.bootTrace_keeps
    | apply State.count_keeps
    | apply State.ethStart_keeps
    | apply State.setGlobal_keeps
    | (refine (Keeps.mk' ?_ (by omega) (by omega) rfl) <;>
       first | assumption | apply State.wrAll_keeps)

theorem execBootImageVerified_keeps {z : State} (header body : List Byte) (s : State) (hk : Keeps z s) {u : State} (he : execBootImageVerified header body s = .next u) : Keeps z u := by
  unfold execBootImageVerified at he
  cases he
  try dsimp only [State.draw]
  repeat' with_reducible first
    | apply State.bootTrace_keeps
    | apply State.negorStarts_keeps
    | apply State.selectImage_keeps
    | apply State.slotParams_keeps
    | apply State.traceHeader_keeps
    | split
    | (refine (Keeps.mk' ?_ (by omega) (by omega) rfl) <;>
       first | assumption)

theorem execGoldenInvalidBootRecord_keeps {z : State} (s : State) (hk : Keeps z s) {u : State} (he : execGoldenInvalidBootRecord s = .next u) : Keeps z u := by
  unfold execGoldenInvalidBootRecord at he
  cases he
  repeat' with_reducible first
    | apply State.traceNoImage_keeps
    | apply Keeps.ite
    | (refine (Keeps.mk' ?_ (by omega) (by omega) rfl) <;>
       first | assumption | apply State.at_keeps)

end Sys2Proof.Machine
end

