-- ==== Sys2Proof/Laws/Keeps/Target.lean ====
section
/-! SUPPORT. What every operation of Machine/Target.lean keeps. -/

namespace Sys2Proof.Machine

theorem State.targetNotify_keeps {z : State} (s : State) (code cntlid port value : Nat) (hk : Keeps z s) :
    Keeps z (State.targetNotify s code cntlid port value) := by
  unfold State.targetNotify
  repeat' with_reducible first
    | assumption
    | apply State.notify_keeps

theorem State.assocParams_keeps {z : State} (s : State) (c : Nat) (hk : Keeps z s) :
    Keeps z (State.assocParams s c) := by
  unfold State.assocParams
  try dsimp only [State.draw]
  repeat' with_reducible first
    | assumption
    | apply State.wr_keeps
    | apply State.wrBlob_keeps
    | split

theorem State.connectFail_keeps {z : State} (s : State) (port cid status : Nat) (counted : Bool) (hk : Keeps z s) :
    Keeps z (State.connectFail s port cid status counted) := by
  unfold State.connectFail
  repeat' with_reducible first
    | assumption
    | apply State.count_keeps
    | apply State.roceOut_keeps
    | apply Keeps.ite

theorem State.adminConnect_keeps {z : State} (s : State) (port mtu cid : Nat) (discovery : Bool) (sqsize kato : Nat) (nqn hostId : List Byte) (hk : Keeps z s) :
    Keeps z (State.adminConnect s port mtu cid discovery sqsize kato nqn hostId) := by
  unfold State.adminConnect
  repeat' with_reducible first
    | assumption
    | apply State.addQp_keeps
    | apply State.assocParams_keeps
    | apply State.connectFail_keeps
    | apply State.count_keeps
    | apply State.nvmeDone_keeps
    | apply State.roceOut_keeps
    | apply State.setAssoc_keeps
    | apply State.targetNotify_keeps
    | split

theorem State.ioConnect_keeps {z : State} (s : State) (port mtu cid c qid sqsize : Nat) (hk : Keeps z s) :
    Keeps z (State.ioConnect s port mtu cid c qid sqsize) := by
  unfold State.ioConnect
  repeat' with_reducible first
    | apply State.addQp_keeps
    | apply State.assocParams_keeps
    | apply State.connectFail_keeps
    | apply State.nvmeDone_keeps
    | apply State.roceOut_keeps
    | split
    | (refine (Keeps.mk' ?_ (by omega) (by omega) rfl) <;>
       first | assumption)

theorem State.endCmds_keeps {z : State} (s : State) (p : NvmeCmd → Bool) (hk : Keeps z s) :
    Keeps z (State.endCmds s p) := by
  unfold State.endCmds
  repeat' with_reducible first
    | (refine (Keeps.mk' ?_ (by omega) (by omega) rfl) <;>
       first | assumption)

theorem State.endQueue_keeps {z : State} (s : State) (c qid : Nat) (hk : Keeps z s) :
    Keeps z (State.endQueue s c qid) := by
  unfold State.endQueue
  repeat' with_reducible first
    | apply State.assocParams_keeps
    | apply State.dropQps_keeps
    | (refine (Keeps.mk' ?_ (by omega) (by omega) rfl) <;>
       first | assumption | apply State.endCmds_keeps)

theorem State.dropStaging_keeps {z : State} (s : State) (c : Nat) (hk : Keeps z s) :
    Keeps z (State.dropStaging s c) := by
  unfold State.dropStaging
  repeat' with_reducible first
    | split
    | (refine (Keeps.mk' ?_ (by omega) (by omega) rfl) <;>
       first | assumption)

theorem State.endAssoc_keeps {z : State} (s : State) (c value : Nat) (hk : Keeps z s) :
    Keeps z (State.endAssoc s c value) := by
  unfold State.endAssoc
  repeat' with_reducible first
    | apply State.assocParams_keeps
    | apply State.dropQps_keeps
    | apply State.dropStaging_keeps
    | apply State.targetNotify_keeps
    | split
    | (refine (Keeps.mk' ?_ (by omega) (by omega) rfl) <;>
       first | assumption | apply State.endCmds_keeps)

theorem State.queueLost_keeps {z : State} (s : State) (c qid : Nat) (hk : Keeps z s) :
    Keeps z (State.queueLost s c qid) := by
  unfold State.queueLost
  repeat' with_reducible first
    | assumption
    | apply State.count_keeps
    | apply State.endAssoc_keeps
    | apply State.endQueue_keeps
    | split

theorem State.targetCmd_keeps {z : State} (s : State) (i : Instr) (c qid cid : Nat) (negor : Bool) (body : State → State) (hk : Keeps z s) (h_body : ∀ t, Keeps z t → Keeps z (body t)) :
    Keeps z (State.targetCmd s i c qid cid negor body) := by
  unfold State.targetCmd
  repeat' with_reducible first
    | apply h_body
    | apply State.nvmeDone_keeps
    | apply Keeps.ite
    | (refine (Keeps.mk' ?_ (by omega) (by omega) rfl) <;>
       first | assumption)

theorem State.propertyGet_keeps {z : State} (s : State) (c cid offset : Nat) (hk : Keeps z s) :
    Keeps z (State.propertyGet s c cid offset) := by
  unfold State.propertyGet
  repeat' with_reducible first
    | assumption
    | apply State.nvmeDone_keeps
    | split

theorem State.propertySet_keeps {z : State} (s : State) (c cid offset value : Nat) (hk : Keeps z s) :
    Keeps z (State.propertySet s c cid offset value) := by
  unfold State.propertySet
  repeat' with_reducible first
    | assumption
    | apply State.dropStaging_keeps
    | apply State.endQueue_keeps
    | apply State.nvmeDone_keeps
    | apply State.setAssoc_keeps
    | apply Keeps.foldl
    | intro _
    | split

theorem State.heldFault_keeps {z : State} (s : State) (i : Instr) (hk : Keeps z s) :
    Keeps z (State.heldFault s i) := by
  unfold State.heldFault
  repeat' with_reducible first
    | assumption
    | apply State.connectFail_keeps
    | apply State.nvmeDone_keeps
    | apply State.propertyGet_keeps
    | split

theorem State.targetFault_keeps {z : State} (s : State) (hk : Keeps z s) :
    Keeps z (State.targetFault s) := by
  unfold State.targetFault
  try dsimp only [State.draw]
  repeat' with_reducible first
    | apply State.heldFault_keeps
    | apply State.nvmeDone_keeps
    | apply State.setAssoc_keeps
    | intro _
    | split
    | (refine (Keeps.mk' ?_ (by omega) (by omega) rfl) <;>
       first | assumption | apply Keeps.foldl)

theorem State.identify_keeps {z : State} (s : State) (c cid cns nsid : Nat) (hk : Keeps z s) :
    Keeps z (State.identify s c cid cns nsid) := by
  unfold State.identify
  try dsimp only [State.draw]
  repeat' with_reducible first
    | apply State.nvmeDone_keeps
    | apply Keeps.ite
    | (refine (Keeps.mk' ?_ (by omega) (by omega) rfl) <;>
       first | assumption)

theorem State.getLogPage_keeps {z : State} (s : State) (c cid lid offset count : Nat) (hk : Keeps z s) :
    Keeps z (State.getLogPage s c cid lid offset count) := by
  unfold State.getLogPage
  try dsimp only [State.draw]
  repeat' with_reducible first
    | apply State.nvmeDone_keeps
    | apply State.setAssoc_keeps
    | split
    | (refine (Keeps.mk' ?_ (by omega) (by omega) rfl) <;>
       first | assumption)

theorem State.setFeatures_keeps {z : State} (s : State) (c cid fid value : Nat) (hk : Keeps z s) :
    Keeps z (State.setFeatures s c cid fid value) := by
  unfold State.setFeatures
  repeat' with_reducible first
    | assumption
    | apply State.assocParams_keeps
    | apply State.nvmeDone_keeps
    | apply State.setAssoc_keeps
    | split

theorem State.getFeatures_keeps {z : State} (s : State) (c cid fid sel : Nat) (hk : Keeps z s) :
    Keeps z (State.getFeatures s c cid fid sel) := by
  unfold State.getFeatures
  repeat' with_reducible first
    | assumption
    | apply State.nvmeDone_keeps
    | split

theorem State.asyncRequest_keeps {z : State} (s : State) (c cid : Nat) (hk : Keeps z s) :
    Keeps z (State.asyncRequest s c cid) := by
  unfold State.asyncRequest
  repeat' with_reducible first
    | assumption
    | apply State.nvmeDone_keeps
    | apply State.setAssoc_keeps
    | split

theorem State.firmwareDownload_keeps {z : State} (s : State) (c cid offset : Nat) (data : List Byte) (hk : Keeps z s) :
    Keeps z (State.firmwareDownload s c cid offset data) := by
  unfold State.firmwareDownload
  try dsimp only [State.draw]
  repeat' with_reducible first
    | apply State.nvmeDone_keeps
    | split
    | (refine (Keeps.mk' ?_ (by omega) (by omega) rfl) <;>
       first | assumption | apply State.count_keeps)

theorem State.firmwareRefused_keeps {z : State} (s : State) (c cid status : Nat) (hk : Keeps z s) :
    Keeps z (State.firmwareRefused s c cid status) := by
  unfold State.firmwareRefused
  repeat' with_reducible first
    | assumption
    | apply State.count_keeps
    | apply State.nvmeDone_keeps

theorem State.firmwareCommit_keeps {z : State} (s : State) (c cid ca slot0 : Nat) (hk : Keeps z s) :
    Keeps z (State.firmwareCommit s c cid ca slot0) := by
  unfold State.firmwareCommit
  try dsimp only [State.draw]
  repeat' with_reducible first
    | apply State.bootStore_keeps
    | apply State.count_keeps
    | apply State.firmwareRefused_keeps
    | apply State.nvmeDone_keeps
    | apply State.slotParams_keeps
    | apply State.targetNotify_keeps
    | apply Keeps.ite
    | split
    | (refine (Keeps.mk' ?_ (by omega) (by omega) rfl) <;>
       first | assumption | apply State.emit_keeps)

end Sys2Proof.Machine
end

