-- ==== Sys2Proof/Laws/Keeps/TargetIo.lean ====
section
/-! SUPPORT. What every operation of Machine/TargetIo.lean keeps. -/

namespace Sys2Proof.Machine

theorem State.setCmd_keeps {z : State} (s : State) (old new : NvmeCmd) (hk : Keeps z s) :
    Keeps z (State.setCmd s old new) := by
  unfold State.setCmd
  repeat' with_reducible first
    | (refine (Keeps.mk' ?_ (by omega) (by omega) rfl) <;>
       first | assumption)

theorem State.startCmd_keeps {z : State} (s : State) (c : NvmeCmd) (hk : Keeps z s) :
    Keeps z (State.startCmd s c) := by
  unfold State.startCmd
  repeat' with_reducible first
    | assumption
    | apply State.emit_keeps
    | apply State.issueRead_keeps
    | apply State.roceOut_keeps
    | apply State.setCmd_keeps
    | apply Keeps.foldl
    | intro _
    | split

theorem State.paceCharge_keeps {z : State} (s : State) (port bytes : Nat) (hk : Keeps z s) :
    Keeps z (State.paceCharge s port bytes) := by
  unfold State.paceCharge
  repeat' with_reducible first
    | (refine (Keeps.mk' ?_ (by omega) (by omega) rfl) <;>
       first | assumption)

theorem State.tryStart_keeps {z : State} (s : State) (port : Nat) (c : NvmeCmd) (hk : Keeps z s) :
    Keeps z (State.tryStart s port c) := by
  unfold State.tryStart
  repeat' with_reducible first
    | assumption
    | apply State.count_keeps
    | apply State.paceCharge_keeps
    | apply State.setCmd_keeps
    | apply State.startCmd_keeps
    | apply Keeps.ite

theorem State.releaseCmds_keeps {z : State} (s : State) (hk : Keeps z s) :
    Keeps z (State.releaseCmds s) := by
  unfold State.releaseCmds
  repeat' with_reducible first
    | assumption
    | apply State.tryStart_keeps
    | apply Keeps.foldl
    | intro _
    | split

theorem State.fetchCmd_keeps {z : State} (s : State) (c : NvmeCmd) (hk : Keeps z s) :
    Keeps z (State.fetchCmd s c) := by
  unfold State.fetchCmd
  repeat' with_reducible first
    | apply State.releaseCmds_keeps
    | split
    | (refine (Keeps.mk' ?_ (by omega) (by omega) rfl) <;>
       first | assumption | apply State.count_keeps)

theorem State.ioCmd_keeps {z : State} (s : State) (c : NvmeCmd) (hk : Keeps z s) :
    Keeps z (State.ioCmd s c) := by
  unfold State.ioCmd
  try dsimp only [State.draw]
  repeat' with_reducible first
    | assumption
    | apply State.count_keeps
    | apply State.fetchCmd_keeps
    | apply State.nvmeDoneAt_keeps
    | split

theorem State.doRead_keeps {z : State} (s : State) (c qid cid nsid slba blocks : Nat) (fua : Bool) (hk : Keeps z s) :
    Keeps z (State.doRead s c qid cid nsid slba blocks fua) := by
  unfold State.doRead
  repeat' with_reducible first
    | assumption
    | apply State.ioCmd_keeps

theorem State.doWrite_keeps {z : State} (s : State) (c qid cid nsid slba blocks : Nat) (fua : Bool) (data : List Byte) (hk : Keeps z s) :
    Keeps z (State.doWrite s c qid cid nsid slba blocks fua data) := by
  unfold State.doWrite
  repeat' with_reducible first
    | assumption
    | apply State.ioCmd_keeps

theorem State.doWriteZeroes_keeps {z : State} (s : State) (c qid cid nsid slba blocks : Nat) (fua : Bool) (hk : Keeps z s) :
    Keeps z (State.doWriteZeroes s c qid cid nsid slba blocks fua) := by
  unfold State.doWriteZeroes
  repeat' with_reducible first
    | assumption
    | apply State.ioCmd_keeps

theorem State.doFlush_keeps {z : State} (s : State) (c qid cid nsid : Nat) (hk : Keeps z s) :
    Keeps z (State.doFlush s c qid cid nsid) := by
  unfold State.doFlush
  repeat' with_reducible first
    | assumption
    | apply State.ioCmd_keeps

theorem State.targetWrite_keeps {z : State} (s : State) (b : Nat) (bytes : List Byte) (hk : Keeps z s) :
    Keeps z (State.targetWrite s b bytes) := by
  unfold State.targetWrite
  try dsimp only [State.draw]
  repeat' with_reducible first
    | assumption
    | apply State.setWrite_keeps
    | apply State.ssdWrite_keeps
    | apply Keeps.foldl
    | intro _
    | split

theorem State.noteVolatile_keeps {z : State} (s : State) (b : Nat) (hk : Keeps z s) :
    Keeps z (State.noteVolatile s b) := by
  unfold State.noteVolatile
  repeat' with_reducible first
    | (refine (Keeps.mk' ?_ (by omega) (by omega) rfl) <;>
       first | assumption)

theorem State.finishIo_keeps {z : State} (s : State) (c : NvmeCmd) (dataError : Bool) (hk : Keeps z s) :
    Keeps z (State.finishIo s c dataError).2.2 := by
  unfold State.finishIo
  try dsimp only [State.draw]
  repeat' with_reducible first
    | apply State.addBytes_keeps
    | apply State.count_keeps
    | apply State.noteVolatile_keeps
    | apply State.targetWrite_keeps
    | apply Keeps.foldl
    | intro _
    | split
    | (refine (Keeps.mk' ?_ (by omega) (by omega) rfl) <;>
       first | assumption)

theorem State.finishGhost_keeps {z : State} (s : State) (c : NvmeCmd) (hk : Keeps z s) :
    Keeps z (State.finishGhost s c) := by
  unfold State.finishGhost
  try dsimp only [State.draw]
  repeat' with_reducible first
    | apply State.noteVolatile_keeps
    | apply State.targetWrite_keeps
    | apply Keeps.foldl
    | intro _
    | apply Keeps.ite
    | (refine (Keeps.mk' ?_ (by omega) (by omega) rfl) <;>
       first | assumption)

theorem State.losePower_keeps {z : State} (s : State) (hk : Keeps z s) :
    Keeps z (State.losePower s) := by
  unfold State.losePower
  try dsimp only [State.draw]
  repeat' with_reducible first
    | apply State.setWrite_keeps
    | apply Keeps.foldr
    | intro _
    | apply Keeps.ite
    | (refine (Keeps.mk' ?_ (by omega) (by omega) rfl) <;>
       first | assumption)

theorem State.abortCmd_keeps {z : State} (s : State) (c cid sqid target : Nat) (hk : Keeps z s) :
    Keeps z (State.abortCmd s c cid sqid target) := by
  unfold State.abortCmd
  repeat' with_reducible first
    | apply State.count_keeps
    | apply State.nvmeDone_keeps
    | apply State.nvmeDoneAt_keeps
    | apply State.releaseCmds_keeps
    | split
    | (refine (Keeps.mk' ?_ (by omega) (by omega) rfl) <;>
       first | assumption)

theorem State.invalidOpcode_keeps {z : State} (s : State) (c qid cid op : Nat) (hk : Keeps z s) :
    Keeps z (State.invalidOpcode s c qid cid op) := by
  unfold State.invalidOpcode
  repeat' with_reducible first
    | assumption
    | apply State.nvmeDone_keeps
    | apply Keeps.ite

theorem State.disconnect_keeps {z : State} (s : State) (c qid cid : Nat) (hk : Keeps z s) :
    Keeps z (State.disconnect s c qid cid) := by
  unfold State.disconnect
  repeat' with_reducible first
    | assumption
    | apply State.endAssoc_keeps
    | apply State.endQueue_keeps
    | apply State.nvmeDone_keeps
    | apply Keeps.ite

theorem State.rdmaGate_keeps {z : State} (s : State) (port mtu : Nat) (body : State → State) (hk : Keeps z s) (h_body : ∀ t, Keeps z t → Keeps z (body t)) :
    Keeps z (State.rdmaGate s port mtu body) := by
  unfold State.rdmaGate
  repeat' with_reducible first
    | assumption
    | apply h_body
    | apply State.roceOut_keeps
    | apply Keeps.ite

theorem State.runHeld_keeps {z : State} (s : State) (i : Instr) (hk : Keeps z s) :
    Keeps z (State.runHeld s i) := by
  unfold State.runHeld
  repeat' with_reducible first
    | assumption
    | apply State.abortCmd_keeps
    | apply State.adminConnect_keeps
    | apply State.asyncRequest_keeps
    | apply State.disconnect_keeps
    | apply State.doFlush_keeps
    | apply State.doRead_keeps
    | apply State.doWrite_keeps
    | apply State.doWriteZeroes_keeps
    | apply State.firmwareCommit_keeps
    | apply State.firmwareDownload_keeps
    | apply State.getFeatures_keeps
    | apply State.getLogPage_keeps
    | apply State.identify_keeps
    | apply State.invalidOpcode_keeps
    | apply State.ioConnect_keeps
    | apply State.propertyGet_keeps
    | apply State.propertySet_keeps
    | apply State.rdmaGate_keeps
    | apply State.setFeatures_keeps
    | intro _
    | split

theorem State.resumeTarget_keeps {z : State} (s : State) (hk : Keeps z s) :
    Keeps z (State.resumeTarget s) := by
  unfold State.resumeTarget
  repeat' with_reducible first
    | apply State.runHeld_keeps
    | apply Keeps.foldl
    | (refine (Keeps.mk' ?_ (by omega) (by omega) rfl) <;>
       first | assumption)

theorem execNvmfAdminConnect_keeps {z : State} (port : Fin 2) (vlan mtu cid : Nat) (discovery : Bool) (sqsize kato : Nat) (hostNqn hostId : List Byte) (s : State) (hk : Keeps z s) {u : State} (he : execNvmfAdminConnect port vlan mtu cid discovery sqsize kato hostNqn hostId s = .next u) : Keeps z u := by
  unfold execNvmfAdminConnect at he
  cases he
  repeat' with_reducible first
    | apply State.adminConnect_keeps
    | apply State.roceOut_keeps
    | apply Keeps.ite
    | (refine (Keeps.mk' ?_ (by omega) (by omega) rfl) <;>
       first | assumption)

theorem execNvmfIoConnect_keeps {z : State} (port : Fin 2) (vlan mtu cid cntlid qid sqsize : Nat) (s : State) (hk : Keeps z s) {u : State} (he : execNvmfIoConnect port vlan mtu cid cntlid qid sqsize s = .next u) : Keeps z u := by
  unfold execNvmfIoConnect at he
  cases he
  repeat' with_reducible first
    | apply State.ioConnect_keeps
    | apply State.roceOut_keeps
    | apply Keeps.ite
    | (refine (Keeps.mk' ?_ (by omega) (by omega) rfl) <;>
       first | assumption)

theorem execNvmfPropertyGet_keeps {z : State} (cntlid cid offset : Nat) (s : State) (hk : Keeps z s) {u : State} (he : execNvmfPropertyGet cntlid cid offset s = .next u) : Keeps z u := by
  unfold execNvmfPropertyGet at he
  cases he
  repeat' with_reducible first
    | assumption
    | apply State.propertyGet_keeps
    | apply State.targetCmd_keeps
    | intro _
    | apply Keeps.ite

theorem execNvmfPropertySet_keeps {z : State} (cntlid cid offset value : Nat) (s : State) (hk : Keeps z s) {u : State} (he : execNvmfPropertySet cntlid cid offset value s = .next u) : Keeps z u := by
  unfold execNvmfPropertySet at he
  cases he
  repeat' with_reducible first
    | assumption
    | apply State.propertySet_keeps
    | apply State.targetCmd_keeps
    | intro _

theorem execNvmfDisconnect_keeps {z : State} (cntlid qid cid : Nat) (s : State) (hk : Keeps z s) {u : State} (he : execNvmfDisconnect cntlid qid cid s = .next u) : Keeps z u := by
  unfold execNvmfDisconnect at he
  cases he
  repeat' with_reducible first
    | assumption
    | apply State.disconnect_keeps
    | apply State.targetCmd_keeps
    | intro _

theorem execNvmeGetLogPage_keeps {z : State} (cntlid cid lid offset count : Nat) (s : State) (hk : Keeps z s) {u : State} (he : execNvmeGetLogPage cntlid cid lid offset count s = .next u) : Keeps z u := by
  unfold execNvmeGetLogPage at he
  cases he
  repeat' with_reducible first
    | assumption
    | apply State.getLogPage_keeps
    | apply State.targetCmd_keeps
    | intro _

theorem execNvmeIdentify_keeps {z : State} (cntlid cid cns nsid : Nat) (s : State) (hk : Keeps z s) {u : State} (he : execNvmeIdentify cntlid cid cns nsid s = .next u) : Keeps z u := by
  unfold execNvmeIdentify at he
  cases he
  repeat' with_reducible first
    | assumption
    | apply State.identify_keeps
    | apply State.targetCmd_keeps
    | intro _

theorem execNvmeAbort_keeps {z : State} (cntlid cid sqid target : Nat) (s : State) (hk : Keeps z s) {u : State} (he : execNvmeAbort cntlid cid sqid target s = .next u) : Keeps z u := by
  unfold execNvmeAbort at he
  cases he
  repeat' with_reducible first
    | assumption
    | apply State.abortCmd_keeps
    | apply State.nvmeDone_keeps
    | apply State.targetCmd_keeps
    | intro _
    | apply Keeps.ite

theorem execNvmeSetFeatures_keeps {z : State} (cntlid cid fid value : Nat) (s : State) (hk : Keeps z s) {u : State} (he : execNvmeSetFeatures cntlid cid fid value s = .next u) : Keeps z u := by
  unfold execNvmeSetFeatures at he
  cases he
  repeat' with_reducible first
    | assumption
    | apply State.setFeatures_keeps
    | apply State.targetCmd_keeps
    | intro _

theorem execNvmeGetFeatures_keeps {z : State} (cntlid cid fid sel : Nat) (s : State) (hk : Keeps z s) {u : State} (he : execNvmeGetFeatures cntlid cid fid sel s = .next u) : Keeps z u := by
  unfold execNvmeGetFeatures at he
  cases he
  repeat' with_reducible first
    | assumption
    | apply State.getFeatures_keeps
    | apply State.targetCmd_keeps
    | intro _

theorem execNvmeAsyncEventRequest_keeps {z : State} (cntlid cid : Nat) (s : State) (hk : Keeps z s) {u : State} (he : execNvmeAsyncEventRequest cntlid cid s = .next u) : Keeps z u := by
  unfold execNvmeAsyncEventRequest at he
  cases he
  repeat' with_reducible first
    | assumption
    | apply State.asyncRequest_keeps
    | apply State.targetCmd_keeps
    | intro _

theorem execNvmeFirmwareCommit_keeps {z : State} (cntlid cid ca slot : Nat) (s : State) (hk : Keeps z s) {u : State} (he : execNvmeFirmwareCommit cntlid cid ca slot s = .next u) : Keeps z u := by
  unfold execNvmeFirmwareCommit at he
  cases he
  repeat' with_reducible first
    | assumption
    | apply State.firmwareCommit_keeps
    | apply State.targetCmd_keeps
    | intro _

theorem execNvmeFirmwareImageDownload_keeps {z : State} (cntlid cid offset : Nat) (data : List Byte) (s : State) (hk : Keeps z s) {u : State} (he : execNvmeFirmwareImageDownload cntlid cid offset data s = .next u) : Keeps z u := by
  unfold execNvmeFirmwareImageDownload at he
  cases he
  repeat' with_reducible first
    | assumption
    | apply State.firmwareDownload_keeps
    | apply State.targetCmd_keeps
    | intro _

theorem execNvmeKeepAlive_keeps {z : State} (cntlid cid : Nat) (s : State) (hk : Keeps z s) {u : State} (he : execNvmeKeepAlive cntlid cid s = .next u) : Keeps z u := by
  unfold execNvmeKeepAlive at he
  cases he
  repeat' with_reducible first
    | assumption
    | apply State.nvmeDone_keeps
    | apply State.setAssoc_keeps
    | split

theorem execNvmeInvalidOpcode_keeps {z : State} (cntlid qid cid opcode : Nat) (s : State) (hk : Keeps z s) {u : State} (he : execNvmeInvalidOpcode cntlid qid cid opcode s = .next u) : Keeps z u := by
  unfold execNvmeInvalidOpcode at he
  cases he
  repeat' with_reducible first
    | assumption
    | apply State.invalidOpcode_keeps
    | apply State.targetCmd_keeps
    | intro _

theorem execNvmeRead_keeps {z : State} (cntlid qid cid nsid slba blocks : Nat) (fua : Bool) (s : State) (hk : Keeps z s) {u : State} (he : execNvmeRead cntlid qid cid nsid slba blocks fua s = .next u) : Keeps z u := by
  unfold execNvmeRead at he
  cases he
  repeat' with_reducible first
    | assumption
    | apply State.doRead_keeps
    | apply State.targetCmd_keeps
    | intro _
    | apply Keeps.ite

theorem execNvmeWrite_keeps {z : State} (cntlid qid cid nsid slba blocks : Nat) (fua : Bool) (data : List Byte) (s : State) (hk : Keeps z s) {u : State} (he : execNvmeWrite cntlid qid cid nsid slba blocks fua data s = .next u) : Keeps z u := by
  unfold execNvmeWrite at he
  cases he
  repeat' with_reducible first
    | assumption
    | apply State.doWrite_keeps
    | apply State.targetCmd_keeps
    | intro _
    | apply Keeps.ite

theorem execNvmeWriteZeroes_keeps {z : State} (cntlid qid cid nsid slba blocks : Nat) (fua : Bool) (s : State) (hk : Keeps z s) {u : State} (he : execNvmeWriteZeroes cntlid qid cid nsid slba blocks fua s = .next u) : Keeps z u := by
  unfold execNvmeWriteZeroes at he
  cases he
  repeat' with_reducible first
    | assumption
    | apply State.doWriteZeroes_keeps
    | apply State.targetCmd_keeps
    | intro _
    | apply Keeps.ite

theorem execNvmeFlush_keeps {z : State} (cntlid qid cid nsid : Nat) (s : State) (hk : Keeps z s) {u : State} (he : execNvmeFlush cntlid qid cid nsid s = .next u) : Keeps z u := by
  unfold execNvmeFlush at he
  cases he
  repeat' with_reducible first
    | assumption
    | apply State.doFlush_keeps
    | apply State.targetCmd_keeps
    | intro _
    | apply Keeps.ite

theorem execNvmeCommandComplete_keeps {z : State} (cntlid qid cid : Nat) (dataError : Bool) (s : State) (hk : Keeps z s) {u : State} (he : execNvmeCommandComplete cntlid qid cid dataError s = .next u) : Keeps z u := by
  unfold execNvmeCommandComplete at he
  cases he
  repeat' with_reducible first
    | apply State.finishGhost_keeps
    | apply State.nvmeDoneAt_keeps
    | apply State.releaseCmds_keeps
    | split
    | (refine (Keeps.mk' ?_ (by omega) (by omega) rfl) <;>
       first | assumption | apply State.finishIo_keeps)

theorem execPacerRelease_keeps {z : State} (port : Fin 2) (s : State) (hk : Keeps z s) {u : State} (he : execPacerRelease port s = .next u) : Keeps z u := by
  unfold execPacerRelease at he
  cases he
  try dsimp only [State.draw]
  repeat' with_reducible first
    | apply State.paceCharge_keeps
    | apply State.startCmd_keeps
    | split
    | (refine (Keeps.mk' ?_ (by omega) (by omega) rfl) <;>
       first | assumption | apply State.at_keeps)

theorem execKatoExpiry_keeps {z : State} (cntlid : Nat) (s : State) (hk : Keeps z s) {u : State} (he : execKatoExpiry cntlid s = .next u) : Keeps z u := by
  unfold execKatoExpiry at he
  cases he
  try dsimp only [State.draw]
  repeat' with_reducible first
    | apply State.at_keeps
    | apply State.count_keeps
    | apply State.endAssoc_keeps
    | split
    | (refine (Keeps.mk' ?_ (by omega) (by omega) rfl) <;>
       first | assumption)

theorem execNvmfQueuePairLoss_keeps {z : State} (cntlid qid : Nat) (s : State) (hk : Keeps z s) {u : State} (he : execNvmfQueuePairLoss cntlid qid s = .next u) : Keeps z u := by
  unfold execNvmfQueuePairLoss at he
  cases he
  repeat' with_reducible first
    | assumption
    | apply State.queueLost_keeps

theorem execLocalAckTimeout_keeps {z : State} (qp : Nat) (progress : Bool) (s : State) (hk : Keeps z s) {u : State} (he : execLocalAckTimeout qp progress s = .next u) : Keeps z u := by
  unfold execLocalAckTimeout at he
  cases he
  try dsimp only [State.draw]
  repeat' with_reducible first
    | apply State.countQps_keeps
    | apply State.queueLost_keeps
    | apply State.roceOut_keeps
    | apply State.setQp_keeps
    | split
    | (refine (Keeps.mk' ?_ (by omega) (by omega) rfl) <;>
       first | assumption | apply State.at_keeps)

theorem targetApply_keeps {z : State} (id v : Nat) (s : State) (hk : Keeps z s) :
    Keeps z (targetApply id v s) := by
  unfold targetApply
  repeat' with_reducible first
    | assumption
    | apply State.endAssoc_keeps
    | apply Keeps.foldl
    | intro _
    | apply Keeps.ite

end Sys2Proof.Machine
end

