-- ==== Sys2Proof/Laws/Keeps/Dram.lean ====
section
/-! SUPPORT. What every operation of Machine/Dram.lean keeps. -/

namespace Sys2Proof.Machine

theorem State.dramNotify_keeps {z : State} (s : State) (code ch sub value : Nat) (hk : Keeps z s) :
    Keeps z (State.dramNotify s code ch sub value) := by
  unfold State.dramNotify
  repeat' with_reducible first
    | assumption
    | apply State.notify_keeps

theorem State.dramFigures_keeps {z : State} (s : State) (hk : Keeps z s) :
    Keeps z (State.dramFigures s) := by
  unfold State.dramFigures
  repeat' with_reducible first
    | assumption
    | apply State.wrAll_keeps

theorem State.markParam_keeps {z : State} (s : State) (ch : Nat) (hk : Keeps z s) :
    Keeps z (State.markParam s ch) := by
  unfold State.markParam
  repeat' with_reducible first
    | assumption
    | apply State.wr_keeps

theorem State.dramRestore_keeps {z : State} (s : State) (b : List Byte) (hk : Keeps z s) :
    Keeps z (State.dramRestore s b) := by
  unfold State.dramRestore
  repeat' with_reducible first
    | apply State.markParam_keeps
    | apply State.wr_keeps
    | apply Keeps.foldl
    | (refine (Keeps.mk' ?_ (by omega) (by omega) rfl) <;>
       first | assumption)

theorem State.driftAlarm_keeps {z : State} (s : State) (ch : Nat) (hk : Keeps z s) :
    Keeps z (State.driftAlarm s ch) := by
  unfold State.driftAlarm
  repeat' with_reducible first
    | apply State.maintAsk_keeps
    | (refine (Keeps.mk' ?_ (by omega) (by omega) rfl) <;>
       first | assumption)

theorem State.trainedNow_keeps {z : State} (s : State) (ch : Nat) (hk : Keeps z s) :
    Keeps z (State.trainedNow s ch) := by
  unfold State.trainedNow
  repeat' with_reducible first
    | (refine (Keeps.mk' ?_ (by omega) (by omega) rfl) <;>
       first | assumption)

theorem State.recordFailed_keeps {z : State} (s : State) (ch : Nat) (hk : Keeps z s) :
    Keeps z (State.recordFailed s ch) := by
  unfold State.recordFailed
  repeat' with_reducible first
    | assumption
    | apply State.ledgerPut_keeps
    | apply State.wrAll_keeps

theorem State.channelFailed_keeps {z : State} (s : State) (ch cause : Nat) (hk : Keeps z s) :
    Keeps z (State.channelFailed s ch cause) := by
  unfold State.channelFailed
  repeat' with_reducible first
    | assumption
    | apply State.dramNotify_keeps
    | apply State.enterBoot_keeps
    | apply State.flushLedger_keeps
    | apply State.recordFailed_keeps
    | apply Keeps.ite

theorem State.warmupEnds_keeps {z : State} (s : State) (hk : Keeps z s) :
    Keeps z (State.warmupEnds s) := by
  unfold State.warmupEnds
  repeat' with_reducible first
    | assumption
    | apply State.setGlobal_keeps
    | apply Keeps.ite

theorem State.trainingDone_keeps {z : State} (s : State) (eyes : List (Nat × Nat)) (hk : Keeps z s) :
    Keeps z (State.trainingDone s eyes) := by
  unfold State.trainingDone
  try dsimp only [State.draw]
  repeat' with_reducible first
    | assumption
    | apply State.dramFigures_keeps
    | apply State.dramNotify_keeps
    | apply State.enterBoot_keeps
    | apply State.flushLedger_keeps
    | apply State.recordFailed_keeps
    | apply State.trainedNow_keeps
    | apply State.warmupEnds_keeps
    | apply State.wr_keeps
    | apply State.wrAll_keeps
    | apply Keeps.foldl
    | intro _
    | split

theorem execDramTrainingDone_keeps {z : State} (eyes : List (Nat × Nat)) (s : State) (hk : Keeps z s) {u : State} (he : execDramTrainingDone eyes s = .next u) : Keeps z u := by
  unfold execDramTrainingDone at he
  cases he
  repeat' with_reducible first
    | assumption
    | apply State.trainingDone_keeps
    | apply Keeps.ite

theorem State.clearDebts_keeps {z : State} (s : State) (ch : Nat) (hk : Keeps z s) :
    Keeps z (State.clearDebts s ch) := by
  unfold State.clearDebts
  repeat' with_reducible first
    | (refine (Keeps.mk' ?_ (by omega) (by omega) rfl) <;>
       first | assumption)

theorem execDramRetrainDone_keeps {z : State} (ch : Fin 8) (eye : Option (Nat × Nat)) (s : State) (hk : Keeps z s) {u : State} (he : execDramRetrainDone ch eye s = .next u) : Keeps z u := by
  unfold execDramRetrainDone at he
  cases he
  try dsimp only [State.draw]
  repeat' with_reducible first
    | apply State.channelFailed_keeps
    | apply State.driftAlarm_keeps
    | apply State.trainedNow_keeps
    | apply State.wr_keeps
    | split
    | (refine (Keeps.mk' ?_ (by omega) (by omega) rfl) <;>
       first | assumption | apply State.clearDebts_keeps | apply State.count_keeps)

theorem execDramChannelFail_keeps {z : State} (ch : Fin 8) (cause : Fin 3) (s : State) (hk : Keeps z s) {u : State} (he : execDramChannelFail ch cause s = .next u) : Keeps z u := by
  unfold execDramChannelFail at he
  cases he
  repeat' with_reducible first
    | assumption
    | apply State.channelFailed_keeps
    | apply Keeps.ite

theorem State.correctedAt_keeps {z : State} (s : State) (ch sub rank comp : Nat) (hk : Keeps z s) :
    Keeps z (State.correctedAt s ch sub rank comp) := by
  unfold State.correctedAt
  try dsimp only [State.draw]
  repeat' with_reducible first
    | apply State.dramNotify_keeps
    | apply State.ledgerPut_keeps
    | apply State.markParam_keeps
    | apply Keeps.ite
    | (refine (Keeps.mk' ?_ (by omega) (by omega) rfl) <;>
       first | assumption)

theorem execDramCorrectedRead_keeps {z : State} (addr : Nat) (_requester : Fin 9) (symbols : List Byte) (s : State) (hk : Keeps z s) {u : State} (he : execDramCorrectedRead addr _requester symbols s = .next u) : Keeps z u := by
  unfold execDramCorrectedRead at he
  cases he
  try dsimp only [State.draw]
  repeat' with_reducible first
    | apply State.correctedAt_keeps
    | apply State.count_keeps
    | apply Keeps.foldl
    | intro _
    | split
    | (refine (Keeps.mk' ?_ (by omega) (by omega) rfl) <;>
       first | assumption | apply State.fire_keeps)

theorem State.stopBlocks_keeps {z : State} (s : State) (hk : Keeps z s) :
    Keeps z (State.stopBlocks s) := by
  unfold State.stopBlocks
  repeat' with_reducible first
    | apply State.ingestAbandon_keeps
    | apply State.senderStop_keeps
    | apply State.targetFault_keeps
    | (refine (Keeps.mk' ?_ (by omega) (by omega) rfl) <;>
       first | assumption | apply Keeps.foldl)

theorem execDramUncorrectable_keeps {z : State} (addr : Nat) (requester : Fin 9) (cause : Fin 3) (symbols : List Byte) (s : State) (hk : Keeps z s) {u : State} (he : execDramUncorrectable addr requester cause symbols s = .next u) : Keeps z u := by
  unfold execDramUncorrectable at he
  cases he
  repeat' with_reducible first
    | apply State.dramNotify_keeps
    | apply State.ledgerPut_keeps
    | apply State.setGlobal_keeps
    | apply State.stopBlocks_keeps
    | apply State.wr_keeps
    | apply State.wrBlob_keeps
    | apply Keeps.foldl
    | intro _
    | apply Keeps.ite
    | (refine (Keeps.mk' ?_ (by omega) (by omega) rfl) <;>
       first | assumption | apply State.count_keeps)

theorem State.diagRead_keeps {z : State} (s : State) (a : Nat) (hk : Keeps z s) :
    Keeps z (State.diagRead s a) := by
  unfold State.diagRead
  try dsimp only [State.draw]
  repeat' with_reducible first
    | apply State.wrBlob_keeps
    | (refine (Keeps.mk' ?_ (by omega) (by omega) rfl) <;>
       first | assumption)

theorem State.closeBank_keeps {z : State} (s : State) (k : Nat) (hk : Keeps z s) :
    Keeps z (State.closeBank s k) := by
  unfold State.closeBank
  try dsimp only [State.draw]
  repeat' with_reducible first
    | apply State.countBy_keeps
    | apply Keeps.foldl
    | intro _
    | split
    | (refine (Keeps.mk' ?_ (by omega) (by omega) rfl) <;>
       first | assumption | apply State.emit_keeps)

theorem State.closeBanks_keeps {z : State} (s : State) (mine : Nat → Bool) (n : Nat) (hk : Keeps z s) :
    Keeps z (State.closeBanks s mine n) := by
  unfold State.closeBanks
  repeat' with_reducible first
    | apply State.closeBank_keeps
    | intro _
    | (refine (Keeps.mk' ?_ (by omega) (by omega) rfl) <;>
       first | assumption | apply Keeps.foldl)

theorem State.refresh_keeps {z : State} (s : State) (ch sub rank : Nat) (index : Option Nat) (n : Nat) (hk : Keeps z s) :
    Keeps z (State.refresh s ch sub rank index n) := by
  unfold State.refresh
  repeat' with_reducible first
    | assumption
    | apply State.closeBanks_keeps
    | apply State.emit_keeps
    | apply Keeps.foldl
    | intro _
    | split

theorem State.setDebt_keeps {z : State} (s : State) (key d : Nat) (hk : Keeps z s) :
    Keeps z (State.setDebt s key d) := by
  unfold State.setDebt
  repeat' with_reducible first
    | (refine (Keeps.mk' ?_ (by omega) (by omega) rfl) <;>
       first | assumption)

theorem execDramRefreshDue_keeps {z : State} (ch : Fin 8) (sub : Fin 2) (rank : Fin 2) (index : Fin 4) (hits : Bool) (s : State) (hk : Keeps z s) {u : State} (he : execDramRefreshDue ch sub rank index hits s = .next u) : Keeps z u := by
  unfold execDramRefreshDue at he
  cases he
  repeat' with_reducible first
    | assumption
    | apply State.count_keeps
    | apply State.refresh_keeps
    | apply State.setDebt_keeps
    | apply Keeps.ite

theorem execDramMr4Poll_keeps {z : State} (ch : Fin 8) (doubled : Bool) (temp : Int) (s : State) (hk : Keeps z s) {u : State} (he : execDramMr4Poll ch doubled temp s = .next u) : Keeps z u := by
  unfold execDramMr4Poll at he
  cases he
  try dsimp only [State.draw]
  repeat' with_reducible first
    | apply State.driftAlarm_keeps
    | split
    | (refine (Keeps.mk' ?_ (by omega) (by omega) rfl) <;>
       first | assumption | apply State.dramNotify_keeps | apply State.wr_keeps)

theorem execDramAlertN_keeps {z : State} (ch : Fin 8) (s : State) (hk : Keeps z s) {u : State} (he : execDramAlertN ch s = .next u) : Keeps z u := by
  unfold execDramAlertN at he
  cases he
  repeat' with_reducible first
    | apply State.channelFailed_keeps
    | apply State.count_keeps
    | apply State.driftAlarm_keeps
    | apply State.emit_keeps
    | apply Keeps.foldl
    | intro _
    | apply Keeps.ite
    | (refine (Keeps.mk' ?_ (by omega) (by omega) rfl) <;>
       first | assumption)

theorem State.repayDebts_keeps {z : State} (s : State) (ch sub : Nat) (hits : List Nat) (hk : Keeps z s) :
    Keeps z (State.repayDebts s ch sub hits) := by
  unfold State.repayDebts
  repeat' with_reducible first
    | assumption
    | apply State.refresh_keeps
    | apply State.setDebt_keeps
    | apply Keeps.foldl
    | intro _
    | apply Keeps.ite

theorem State.manageBank_keeps {z : State} (s : State) (l : DramLoc) (hits : List Nat) (hk : Keeps z s) :
    Keeps z (State.manageBank s l hits) := by
  unfold State.manageBank
  repeat' with_reducible first
    | assumption
    | apply State.closeBanks_keeps
    | apply State.count_keeps
    | apply State.emit_keeps
    | apply Keeps.ite

theorem State.activateRow_keeps {z : State} (s : State) (l : DramLoc) (hk : Keeps z s) :
    Keeps z (State.activateRow s l) := by
  unfold State.activateRow
  try dsimp only [State.draw]
  repeat' with_reducible first
    | apply State.emit_keeps
    | (refine (Keeps.mk' ?_ (by omega) (by omega) rfl) <;>
       first | assumption)

theorem State.burstData_keeps {z : State} (s : State) (ch sub : Nat) (r : DramReq) (hk : Keeps z s) :
    Keeps z (State.burstData s ch sub r) := by
  unfold State.burstData
  try dsimp only [State.draw]
  repeat' with_reducible first
    | apply State.emit_keeps
    | split
    | (refine (Keeps.mk' ?_ (by omega) (by omega) rfl) <;>
       first | assumption | apply State.addBytes_keeps | apply State.raise_keeps)

theorem State.scrubOne_keeps {z : State} (s : State) (hk : Keeps z s) :
    Keeps z (State.scrubOne s) := by
  unfold State.scrubOne
  repeat' with_reducible first
    | apply State.count_keeps
    | apply Keeps.ite
    | (refine (Keeps.mk' ?_ (by omega) (by omega) rfl) <;>
       first | assumption)

theorem State.burstClass_keeps {z : State} (s : State) (ch sub c : Nat) (r : DramReq) (hk : Keeps z s) :
    Keeps z (State.burstClass s ch sub c r) := by
  unfold State.burstClass
  repeat' with_reducible first
    | (refine (Keeps.mk' ?_ (by omega) (by omega) rfl) <;>
       first | assumption)

theorem State.burst_keeps {z : State} (s : State) (ch sub : Nat) (r : DramReq) (promoted : Bool) (hk : Keeps z s) :
    Keeps z (State.burst s ch sub r promoted) := by
  unfold State.burst
  repeat' with_reducible first
    | assumption
    | apply State.burstClass_keeps
    | apply State.burstData_keeps
    | apply State.count_keeps
    | apply State.scrubOne_keeps
    | split

theorem execDramCommandSelect_keeps {z : State} (ch : Fin 8) (sub : Fin 2) (reqs : List DramReq) (s : State) (hk : Keeps z s) {u : State} (he : execDramCommandSelect ch sub reqs s = .next u) : Keeps z u := by
  unfold execDramCommandSelect at he
  cases he
  try dsimp only [State.draw]
  repeat' with_reducible first
    | assumption
    | apply State.activateRow_keeps
    | apply State.burst_keeps
    | apply State.closeBank_keeps
    | apply State.manageBank_keeps
    | apply State.repayDebts_keeps
    | split

theorem dramApply_keeps {z : State} (id v : Nat) (s : State) (hk : Keeps z s) :
    Keeps z (dramApply id v s) := by
  unfold dramApply
  repeat' with_reducible first
    | assumption
    | apply State.diagRead_keeps
    | apply Keeps.ite

end Sys2Proof.Machine
end

