-- ==== Sys2Proof/Laws/Keeps/Event.lean ====
section
/-! SUPPORT. What every operation of Machine/Event.lean keeps. -/

namespace Sys2Proof.Machine

theorem State.eventFlag_keeps {z : State} (s : State) (r : Nat → Nat) (k : Nat) (hk : Keeps z s) :
    Keeps z (State.eventFlag s r k) := by
  unfold State.eventFlag
  repeat' with_reducible first
    | assumption
    | apply State.upd_keeps

theorem State.inputAct_keeps {z : State} (s : State) (ti now pos : Nat) (hk : Keeps z s) :
    Keeps z (State.inputAct s ti now pos) := by
  unfold State.inputAct
  repeat' with_reducible first
    | apply State.pin_keeps
    | apply State.trace_keeps
    | apply State.trigPulse_keeps
    | apply State.wr_keeps
    | apply Keeps.ite
    | (refine (Keeps.mk' ?_ (by omega) (by omega) rfl) <;>
       first | assumption)

theorem State.inputTrigger_keeps {z : State} (s : State) (ti now : Nat) (srcs : List Nat) (hk : Keeps z s) :
    Keeps z (State.inputTrigger s ti now srcs) := by
  unfold State.inputTrigger
  try dsimp only [State.draw]
  repeat' with_reducible first
    | assumption
    | apply State.count_keeps
    | apply State.eventFlag_keeps
    | apply State.inputAct_keeps
    | split

theorem State.sourceFires_keeps {z : State} (s : State) (src : Nat) (hk : Keeps z s) :
    Keeps z (State.sourceFires s src).2 := by
  unfold State.sourceFires
  repeat' with_reducible first
    | apply State.count_keeps
    | apply State.eventFlag_keeps
    | apply State.linkNotify_keeps
    | apply State.wr_keeps
    | apply Keeps.ite
    | apply Keeps.iteSnd
    | (refine (Keeps.mk' ?_ (by omega) (by omega) rfl) <;>
       first | assumption)

theorem State.timerExpire_keeps {z : State} (s : State) (t due : Nat) (hk : Keeps z s) :
    Keeps z (State.timerExpire s t due) := by
  unfold State.timerExpire
  repeat' with_reducible first
    | apply State.wr_keeps
    | (refine (Keeps.mk' ?_ (by omega) (by omega) rfl) <;>
       first | assumption)

theorem State.expireTimers_keeps {z : State} (s : State) (now : Nat) (hk : Keeps z s) :
    Keeps z (State.expireTimers s now) := by
  unfold State.expireTimers
  repeat' with_reducible first
    | assumption
    | apply State.timerExpire_keeps
    | apply Keeps.foldl
    | intro _

theorem State.deliver_keeps {z : State} (s : State) (fs : List (Nat × Nat)) (hk : Keeps z s) :
    Keeps z (State.deliver s fs) := by
  unfold State.deliver
  repeat' with_reducible first
    | assumption
    | apply State.at_keeps
    | apply State.expireTimers_keeps
    | apply State.inputTrigger_keeps
    | apply State.sourceFires_keeps
    | apply Keeps.foldl
    | apply Keeps.foldlPair'
    | intro _
    | apply Keeps.ite

theorem execEventSourceFire_keeps {z : State} (sources : List (Fin 256)) (s : State) (hk : Keeps z s) {u : State} (he : execEventSourceFire sources s = .next u) : Keeps z u := by
  unfold execEventSourceFire at he
  cases he
  repeat' with_reducible first
    | apply State.deliver_keeps
    | apply Keeps.ite
    | (refine (Keeps.mk' ?_ (by omega) (by omega) rfl) <;>
       first | assumption)

theorem execTimerExpiry_keeps {z : State} (t : Fin 16) (s : State) (hk : Keeps z s) {u : State} (he : execTimerExpiry t s = .next u) : Keeps z u := by
  unfold execTimerExpiry at he
  cases he
  repeat' with_reducible first
    | assumption
    | apply State.at_keeps
    | apply State.timerExpire_keeps
    | split

theorem execEvioInputEdge_keeps {z : State} (e : Fin 6) (rising : Bool) (s : State) (hk : Keeps z s) {u : State} (he : execEvioInputEdge e rising s = .next u) : Keeps z u := by
  unfold execEvioInputEdge at he
  cases he
  repeat' with_reducible first
    | assumption
    | apply State.fire_keeps
    | apply Keeps.ite

theorem execEvioPulseEnd_keeps {z : State} (e : Fin 6) (s : State) (hk : Keeps z s) {u : State} (he : execEvioPulseEnd e s = .next u) : Keeps z u := by
  unfold execEvioPulseEnd at he
  cases he
  repeat' with_reducible first
    | apply State.pin_keeps
    | split
    | (refine (Keeps.mk' ?_ (by omega) (by omega) rfl) <;>
       first | assumption | apply State.at_keeps)

theorem execWakeNotifyAction_keeps {z : State} (s : State) (hk : Keeps z s) {u : State} (he : execWakeNotifyAction s = .next u) : Keeps z u := by
  unfold execWakeNotifyAction at he
  cases he
  repeat' with_reducible first
    | apply State.linkNotify_keeps
    | split
    | (refine (Keeps.mk' ?_ (by omega) (by omega) rfl) <;>
       first | assumption)

theorem State.evioPin_keeps {z : State} (s : State) (e : Nat) (hk : Keeps z s) :
    Keeps z (State.evioPin s e) := by
  unfold State.evioPin
  repeat' with_reducible first
    | apply State.pin_keeps
    | apply Keeps.ite
    | (refine (Keeps.mk' ?_ (by omega) (by omega) rfl) <;>
       first | assumption)

theorem fabricApply_keeps {z : State} (id v : Nat) (s : State) (hk : Keeps z s) :
    Keeps z (fabricApply id v s) := by
  unfold fabricApply
  repeat' with_reducible first
    | assumption
    | apply State.evioPin_keeps
    | apply State.fire_keeps
    | apply Keeps.foldl
    | intro _
    | apply Keeps.ite

end Sys2Proof.Machine
end

