-- ==== Sys2Proof/Laws/Keeps/Thermal.lean ====
section
/-! SUPPORT. What every operation of Machine/Thermal.lean keeps. -/

namespace Sys2Proof.Machine

theorem State.lifeRestore_keeps {z : State} (s : State) (hk : Keeps z s) :
    Keeps z (State.lifeRestore s) := by
  unfold State.lifeRestore
  repeat' with_reducible first
    | apply State.lifeParams_keeps
    | split
    | (refine (Keeps.mk' ?_ (by omega) (by omega) rfl) <;>
       first | assumption)

theorem State.thermNotify_keeps {z : State} (s : State) (code value sensor cap : Nat) (hk : Keeps z s) :
    Keeps z (State.thermNotify s code value sensor cap) := by
  unfold State.thermNotify
  repeat' with_reducible first
    | assumption
    | apply State.notify_keeps
    | apply Keeps.ite

theorem State.stopAll_keeps {z : State} (s : State) (hk : Keeps z s) :
    Keeps z (State.stopAll s) := by
  unfold State.stopAll
  repeat' with_reducible first
    | (refine (Keeps.mk' ?_ (by omega) (by omega) rfl) <;>
       first | assumption)

theorem State.thermalShutdown_keeps {z : State} (s : State) (cause source : Nat) (hk : Keeps z s) :
    Keeps z (State.thermalShutdown s cause source) := by
  unfold State.thermalShutdown
  repeat' with_reducible first
    | apply State.count_keeps
    | apply State.finishLedger_keeps
    | apply State.ledgerWrite_keeps
    | apply State.pin_keeps
    | apply State.setGlobal_keeps
    | (refine (Keeps.mk' ?_ (by omega) (by omega) rfl) <;>
       first | assumption | apply State.stopAll_keeps)

theorem State.sensorInvalid_keeps {z : State} (s : State) (k : Nat) (hk : Keeps z s) :
    Keeps z (State.sensorInvalid s k) := by
  unfold State.sensorInvalid
  repeat' with_reducible first
    | apply State.thermNotify_keeps
    | apply State.thermalShutdown_keeps
    | apply State.wr_keeps
    | apply Keeps.ite
    | (refine (Keeps.mk' ?_ (by omega) (by omega) rfl) <;>
       first | assumption | apply State.count_keeps)

theorem State.heater_keeps {z : State} (s : State) (hk : Keeps z s) :
    Keeps z (State.heater s) := by
  unfold State.heater
  repeat' with_reducible first
    | apply State.warmupEnds_keeps
    | apply Keeps.ite
    | (refine (Keeps.mk' ?_ (by omega) (by omega) rfl) <;>
       first | assumption | apply State.wr_keeps)

theorem State.thermalStep_keeps {z : State} (s : State) (hk : Keeps z s) :
    Keeps z (State.thermalStep s) := by
  unfold State.thermalStep
  repeat' with_reducible first
    | assumption
    | apply State.count_keeps
    | apply State.fire_keeps
    | apply State.heater_keeps
    | apply State.raiseEvent_keeps
    | apply State.thermNotify_keeps
    | apply State.wr_keeps
    | apply Keeps.ite

theorem execThermalCalibration_keeps {z : State} (diode : Int) (monitors : List Int) (s : State) (hk : Keeps z s) {u : State} (he : execThermalCalibration diode monitors s = .next u) : Keeps z u := by
  unfold execThermalCalibration at he
  cases he
  repeat' with_reducible first
    | apply State.sensorInvalid_keeps
    | apply State.thermalStep_keeps
    | apply State.warmupEnds_keeps
    | apply State.wrS_keeps
    | apply Keeps.foldl
    | intro _
    | apply Keeps.ite
    | (refine (Keeps.mk' ?_ (by omega) (by omega) rfl) <;>
       first | assumption)

theorem State.readmit_keeps {z : State} (s : State) (hk : Keeps z s) :
    Keeps z (State.readmit s) := by
  unfold State.readmit
  repeat' with_reducible first
    | apply Keeps.ite
    | (refine (Keeps.mk' ?_ (by omega) (by omega) rfl) <;>
       first | assumption)

theorem State.shedNext_keeps {z : State} (s : State) (hk : Keeps z s) :
    Keeps z (State.shedNext s) := by
  unfold State.shedNext
  repeat' with_reducible first
    | apply Keeps.ite
    | (refine (Keeps.mk' ?_ (by omega) (by omega) rfl) <;>
       first | assumption)

theorem State.stepDown_keeps {z : State} (s : State) (hk : Keeps z s) :
    Keeps z (State.stepDown s) := by
  unfold State.stepDown
  repeat' with_reducible first
    | apply State.applyClock_keeps
    | apply State.count_keeps
    | apply State.fire_keeps
    | apply State.readmit_keeps
    | apply State.shedNext_keeps
    | apply Keeps.ite
    | (refine (Keeps.mk' ?_ (by omega) (by omega) rfl) <;>
       first | assumption | apply State.thermNotify_keeps | apply State.wr_keeps)

theorem State.capSample_keeps {z : State} (s : State) (hk : Keeps z s) :
    Keeps z (State.capSample s) := by
  unfold State.capSample
  try dsimp only [State.draw]
  repeat' with_reducible first
    | apply State.stepDown_keeps
    | split
    | (refine (Keeps.mk' ?_ (by omega) (by omega) rfl) <;>
       first | assumption)

theorem State.stepUpNow_keeps {z : State} (s : State) (hk : Keeps z s) :
    Keeps z (State.stepUpNow s) := by
  unfold State.stepUpNow
  repeat' with_reducible first
    | apply State.applyClock_keeps
    | apply State.count_keeps
    | apply State.thermNotify_keeps
    | apply State.wr_keeps
    | (refine (Keeps.mk' ?_ (by omega) (by omega) rfl) <;>
       first | assumption)

theorem execCapStepUp_keeps {z : State} (s : State) (hk : Keeps z s) {u : State} (he : execCapStepUp s = .next u) : Keeps z u := by
  unfold execCapStepUp at he
  cases he
  try dsimp only [State.draw]
  repeat' with_reducible first
    | apply State.readmit_keeps
    | apply State.stepUpNow_keeps
    | split
    | (refine (Keeps.mk' ?_ (by omega) (by omega) rfl) <;>
       first | assumption | apply State.at_keeps)

theorem State.readSensors_keeps {z : State} (s : State) (diode : Int) (diodeFault : Bool) (monitors : List Int) (powerMw : Nat) (hk : Keeps z s) :
    Keeps z (State.readSensors s diode diodeFault monitors powerMw) := by
  unfold State.readSensors
  repeat' with_reducible first
    | assumption
    | apply State.sensorInvalid_keeps
    | apply State.wr_keeps
    | apply State.wrS_keeps
    | apply Keeps.foldl
    | intro _
    | apply Keeps.ite

theorem State.sampleSteps_keeps {z : State} (s : State) (hk : Keeps z s) :
    Keeps z (State.sampleSteps s) := by
  unfold State.sampleSteps
  repeat' with_reducible first
    | assumption
    | apply State.capSample_keeps
    | apply State.selectImage_keeps
    | apply State.thermalStep_keeps
    | apply State.warmupEnds_keeps
    | apply Keeps.ite

theorem State.sampleActs_keeps {z : State} (s : State) (hk : Keeps z s) :
    Keeps z (State.sampleActs s) := by
  unfold State.sampleActs
  try dsimp only [State.draw]
  repeat' with_reducible first
    | apply State.sampleSteps_keeps
    | apply State.thermalShutdown_keeps
    | split
    | (refine (Keeps.mk' ?_ (by omega) (by omega) rfl) <;>
       first | assumption)

theorem State.sampleReads_keeps {z : State} (s : State) (diode : Int) (diodeFault : Bool) (monitors : List Int) (powerMw : Nat) (hk : Keeps z s) :
    Keeps z (State.sampleReads s diode diodeFault monitors powerMw) := by
  unfold State.sampleReads
  repeat' with_reducible first
    | apply State.readSensors_keeps
    | (refine (Keeps.mk' ?_ (by omega) (by omega) rfl) <;>
       first | assumption | apply State.at_keeps)

theorem execThermalSample_keeps {z : State} (diode : Int) (diodeFault : Bool) (monitors : List Int) (powerMw : Nat) (s : State) (hk : Keeps z s) {u : State} (he : execThermalSample diode diodeFault monitors powerMw s = .next u) : Keeps z u := by
  unfold execThermalSample at he
  cases he
  repeat' with_reducible first
    | assumption
    | apply State.sampleActs_keeps
    | apply State.sampleReads_keeps
    | apply Keeps.ite

theorem State.lifeNotices_keeps {z : State} (s : State) (hk : Keeps z s) :
    Keeps z (State.lifeNotices s) := by
  unfold State.lifeNotices
  try dsimp only [State.draw]
  repeat' with_reducible first
    | split
    | (refine (Keeps.mk' ?_ (by omega) (by omega) rfl) <;>
       first | assumption | apply State.thermNotify_keeps)

theorem execLifeMeterSample_keeps {z : State} (s : State) (hk : Keeps z s) {u : State} (he : execLifeMeterSample s = .next u) : Keeps z u := by
  unfold execLifeMeterSample at he
  cases he
  repeat' with_reducible first
    | apply State.lifeNotices_keeps
    | apply State.lifeParams_keeps
    | apply State.wr_keeps
    | apply Keeps.ite
    | (refine (Keeps.mk' ?_ (by omega) (by omega) rfl) <;>
       first | assumption | apply State.at_keeps)

theorem State.afterShutdown_keeps {z : State} (s : State) (hk : Keeps z s) :
    Keeps z (State.afterShutdown s) := by
  unfold State.afterShutdown
  try dsimp only [State.draw]
  repeat' with_reducible first
    | apply State.lifeParams_keeps
    | split
    | (refine (Keeps.mk' ?_ (by omega) (by omega) rfl) <;>
       first | assumption | apply State.wrBlob_keeps)

end Sys2Proof.Machine
end

