-- ==== Sys2Proof/Laws/Keeps/Power.lean ====
section
/-! SUPPORT. What every operation of Machine/Power.lean keeps. -/

namespace Sys2Proof.Machine

theorem State.clearAon_keeps {z : State} (s : State) (hk : Keeps z s) : Keeps z s.clearAon :=
  ⟨hk.pending, hk.clock, hk.free, fun g => regsWf_filter _ (hk.regs g), hk.mem⟩

theorem State.powerUp_keeps {z : State} (s : State) (bankMv : List Nat) (hk : Keeps z s) :
    Keeps z (State.powerUp s bankMv) := by
  unfold State.powerUp
  repeat' with_reducible first
    | apply State.setGlobal_keeps
    | apply State.wr_keeps
    | (refine (Keeps.mk' ?_ (by omega) (by omega) rfl) <;>
       first | assumption)

theorem execPowerLoss_keeps {z : State} (ns : Nat) (s : State) (hk : Keeps z s) {u : State} (he : execPowerLoss ns s = .next u) : Keeps z u := by
  unfold execPowerLoss at he
  cases he
  try dsimp only [State.draw]
  repeat' with_reducible first
    | apply State.bootReset_keeps
    | apply State.clearAon_keeps
    | apply State.finishLedger_keeps
    | apply State.losePower_keeps
    | apply State.setGlobal_keeps
    | apply Keeps.ite
    | (refine (Keeps.mk' ?_ (by omega) (by omega) rfl) <;>
       first | assumption)

theorem execPowerOnSuppliesValid_keeps {z : State} (bankMv : List Nat) (s : State) (hk : Keeps z s) {u : State}
    (he : execPowerOnSuppliesValid bankMv s = .next u) : Keeps z u := by
  unfold execPowerOnSuppliesValid at he
  split at he
  · cases he
  · cases he
    exact Keeps.ite hk (State.powerUp_keeps _ _ hk)

theorem execBankSupplyFault_keeps {z : State} (bank : Fin 4) (ns : Nat) (s : State) (hk : Keeps z s) {u : State} (he : execBankSupplyFault bank ns s = .next u) : Keeps z u := by
  unfold execBankSupplyFault at he
  cases he
  repeat' with_reducible first
    | apply State.pin_keeps
    | apply Keeps.ite
    | (refine (Keeps.mk' ?_ (by omega) (by omega) rfl) <;>
       first | assumption)

theorem execBankSupplyReturn_keeps {z : State} (bank : Fin 4) (s : State) (hk : Keeps z s) {u : State} (he : execBankSupplyReturn bank s = .next u) : Keeps z u := by
  unfold execBankSupplyReturn at he
  cases he
  repeat' with_reducible first
    | apply State.pin_keeps
    | apply Keeps.ite
    | (refine (Keeps.mk' ?_ (by omega) (by omega) rfl) <;>
       first | assumption)

theorem execRstNLow_keeps {z : State} (ns : Nat) (s : State) (hk : Keeps z s) {u : State} (he : execRstNLow ns s = .next u) : Keeps z u := by
  unfold execRstNLow at he
  cases he
  repeat' with_reducible first
    | apply State.enterBoot_keeps
    | apply State.finishLedger_keeps
    | apply State.pin_keeps
    | apply Keeps.ite
    | (refine (Keeps.mk' ?_ (by omega) (by omega) rfl) <;>
       first | assumption | apply State.at_keeps)

theorem State.restartStore_keeps {z : State} (s : State) (id v : Nat) (hk : Keeps z s) :
    Keeps z (State.restartStore s id v) := by
  unfold State.restartStore
  repeat' with_reducible first
    | apply State.ledgerPut_keeps
    | apply Keeps.ite
    | (refine (Keeps.mk' ?_ (by omega) (by omega) rfl) <;>
       first | assumption)

theorem State.restartApply_keeps {z : State} (s : State) (id v : Nat) (hk : Keeps z s) :
    Keeps z (State.restartApply s id v) := by
  unfold State.restartApply
  repeat' with_reducible first
    | apply State.ledgerPut_keeps
    | apply State.markParam_keeps
    | apply State.wr_keeps
    | apply Keeps.ite
    | (refine (Keeps.mk' ?_ (by omega) (by omega) rfl) <;>
       first | assumption)

theorem State.applyRestart_keeps {z : State} (s : State) (hk : Keeps z s) :
    Keeps z (State.applyRestart s) := by
  unfold State.applyRestart
  repeat' with_reducible first
    | apply State.ledgerPut_keeps
    | apply State.restartApply_keeps
    | intro _
    | apply Keeps.ite
    | (refine (Keeps.mk' ?_ (by omega) (by omega) rfl) <;>
       first | assumption | apply Keeps.foldl)

theorem State.readLedger_keeps {z : State} (s : State) (hk : Keeps z s) :
    Keeps z (State.readLedger s) := by
  unfold State.readLedger
  repeat' with_reducible first
    | apply State.applyRestart_keeps
    | apply State.bootRestore_keeps
    | apply State.dramRestore_keeps
    | apply State.ethRestore_keeps
    | apply State.lifeRestore_keeps
    | apply State.wr_keeps
    | apply State.wrBlob_keeps
    | split
    | (refine (Keeps.mk' ?_ (by omega) (by omega) rfl) <;>
       first | assumption)

theorem State.readHeader_keeps {z : State} (s : State) (slot : Nat) (h : List Byte) (hk : Keeps z s) :
    Keeps z (State.readHeader s slot h) := by
  unfold State.readHeader
  repeat' with_reducible first
    | apply State.slotParams_keeps
    | apply State.traceHeader_keeps
    | apply Keeps.ite
    | (refine (Keeps.mk' ?_ (by omega) (by omega) rfl) <;>
       first | assumption)

theorem State.readBoardParams_keeps {z : State} (s : State) (c : BoardCfg) (hk : Keeps z s) :
    Keeps z (State.readBoardParams s c) := by
  unfold State.readBoardParams
  repeat' with_reducible first
    | assumption
    | apply State.memberShow_keeps
    | apply State.wrAll_keeps
    | apply Keeps.foldl
    | intro _

theorem execInternalResetEnd_keeps {z : State} (bcb : List Byte) (headers : List (List Byte)) (crcErrors : List Nat) (s : State) (hk : Keeps z s) {u : State} (he : execInternalResetEnd bcb headers crcErrors s = .next u) : Keeps z u := by
  unfold execInternalResetEnd at he
  cases he
  try dsimp only [State.draw]
  repeat' with_reducible first
    | apply State.bootTrace_keeps
    | apply State.readBoardParams_keeps
    | apply State.readHeader_keeps
    | apply State.readLedger_keeps
    | apply State.selectImage_keeps
    | intro _
    | split
    | (refine (Keeps.mk' ?_ (by omega) (by omega) rfl) <;>
       first | assumption | apply State.at_keeps | apply State.countBy_keeps | apply Keeps.foldl)

theorem State.belowFloor_keeps {z : State} (s : State) (hk : Keeps z s) :
    Keeps z (State.belowFloor s) := by
  unfold State.belowFloor
  repeat' with_reducible first
    | assumption
    | apply State.wr_keeps
    | apply Keeps.foldl
    | intro _
    | apply Keeps.ite

theorem State.confirmSlot_keeps {z : State} (s : State) (hk : Keeps z s) :
    Keeps z (State.confirmSlot s) := by
  unfold State.confirmSlot
  repeat' with_reducible first
    | assumption
    | apply State.belowFloor_keeps
    | apply State.bootStore_keeps
    | apply Keeps.ite

theorem execNegorStartConfirm_keeps {z : State} (s : State) (hk : Keeps z s) {u : State} (he : execNegorStartConfirm s = .next u) : Keeps z u := by
  unfold execNegorStartConfirm at he
  cases he
  repeat' with_reducible first
    | apply State.afterShutdown_keeps
    | apply State.confirmSlot_keeps
    | apply State.maintAsk_keeps
    | apply State.noteNmp_keeps
    | apply State.resumeTarget_keeps
    | apply Keeps.ite
    | (refine (Keeps.mk' ?_ (by omega) (by omega) rfl) <;>
       first | assumption)

theorem execBootConfirmTimeout_keeps {z : State} (s : State) (hk : Keeps z s) {u : State} (he : execBootConfirmTimeout s = .next u) : Keeps z u := by
  unfold execBootConfirmTimeout at he
  cases he
  repeat' with_reducible first
    | assumption
    | apply State.at_keeps
    | apply State.bootFailure_keeps
    | apply State.enterBoot_keeps
    | apply State.flushLedger_keeps
    | apply Keeps.ite

theorem State.dropReplies_keeps {z : State} (s : State) (hk : Keeps z s) :
    Keeps z (State.dropReplies s) := by
  unfold State.dropReplies
  repeat' with_reducible first
    | (refine (Keeps.mk' ?_ (by omega) (by omega) rfl) <;>
       first | assumption)

theorem State.controlRestart_keeps {z : State} (s : State) (hk : Keeps z s) :
    Keeps z (State.controlRestart s) := by
  unfold State.controlRestart
  repeat' with_reducible first
    | assumption
    | apply State.closeSession_keeps
    | apply State.count_keeps
    | apply State.dropReplies_keeps
    | apply State.wr_keeps
    | apply Keeps.foldl
    | intro _

theorem execWatchdogExpiry_keeps {z : State} (s : State) (hk : Keeps z s) {u : State} (he : execWatchdogExpiry s = .next u) : Keeps z u := by
  unfold execWatchdogExpiry at he
  cases he
  repeat' with_reducible first
    | apply Keeps.ite
    | (refine (Keeps.mk' ?_ (by omega) (by omega) rfl) <;>
       first | assumption | apply State.controlRestart_keeps)

theorem execRestartConfirmTimeout_keeps {z : State} (s : State) (hk : Keeps z s) {u : State} (he : execRestartConfirmTimeout s = .next u) : Keeps z u := by
  unfold execRestartConfirmTimeout at he
  cases he
  repeat' with_reducible first
    | apply State.at_keeps
    | apply State.bootFailure_keeps
    | apply State.enterBoot_keeps
    | apply State.flushLedger_keeps
    | apply Keeps.ite
    | (refine (Keeps.mk' ?_ (by omega) (by omega) rfl) <;>
       first | assumption | apply State.controlRestart_keeps)

theorem execDeviceRestartDelayEnd_keeps {z : State} (s : State) (hk : Keeps z s) {u : State} (he : execDeviceRestartDelayEnd s = .next u) : Keeps z u := by
  unfold execDeviceRestartDelayEnd at he
  cases he
  repeat' with_reducible first
    | assumption
    | apply State.at_keeps
    | apply State.enterBoot_keeps
    | apply State.flushLedger_keeps
    | split

end Sys2Proof.Machine
end

