-- ==== Sys2Proof/Laws/Keeps/Ring.lean ====
section
/-! SUPPORT. What every operation of Machine/Ring.lean keeps. -/

namespace Sys2Proof.Machine

theorem State.ringSend_keeps {z : State} (s : State) (port type fields : Nat) (hk : Keeps z s) :
    Keeps z (State.ringSend s port type fields) := by
  unfold State.ringSend
  repeat' with_reducible first
    | assumption
    | apply State.emit_keeps

theorem State.rootConflict_keeps {z : State} (s : State) (hk : Keeps z s) :
    Keeps z (State.rootConflict s) := by
  unfold State.rootConflict
  try dsimp only [State.draw]
  repeat' with_reducible first
    | apply State.tickNotify_keeps
    | split
    | (refine (Keeps.mk' ?_ (by omega) (by omega) rfl) <;>
       first | assumption)

theorem State.ringSelect_keeps {z : State} (s : State) (hk : Keeps z s) :
    Keeps z (State.ringSelect s) := by
  unfold State.ringSelect
  repeat' with_reducible first
    | apply State.rootConflict_keeps
    | apply State.sourceReturned_keeps
    | apply State.sourceStopped_keeps
    | apply State.wr_keeps
    | apply State.wrAll_keeps
    | apply Keeps.foldl
    | intro _
    | split
    | (refine (Keeps.mk' ?_ (by omega) (by omega) rfl) <;>
       first | assumption)

theorem State.ringTo_keeps {z : State} (s : State) (p st : Nat) (hk : Keeps z s) :
    Keeps z (State.ringTo s p st) := by
  unfold State.ringTo
  repeat' with_reducible first
    | assumption
    | apply State.linkNotify_keeps
    | apply State.wr_keeps
    | apply Keeps.ite

theorem State.ringLeave_keeps {z : State} (s : State) (p st : Nat) (hk : Keeps z s) :
    Keeps z (State.ringLeave s p st) := by
  unfold State.ringLeave
  repeat' with_reducible first
    | assumption
    | apply State.count_keeps
    | apply State.linkNotify_keeps
    | apply State.ringSelect_keeps
    | apply State.ringTo_keeps
    | apply State.setRingPort_keeps
    | apply State.sourceStopped_keeps
    | apply Keeps.ite

theorem State.ringMeasured_keeps {z : State} (s : State) (p : Nat) (hk : Keeps z s) :
    Keeps z (State.ringMeasured s p) := by
  unfold State.ringMeasured
  repeat' with_reducible first
    | assumption
    | apply State.ringSelect_keeps
    | apply State.ringTo_keeps
    | apply Keeps.ite

theorem State.ringEnable_keeps {z : State} (s : State) (hk : Keeps z s) :
    Keeps z (State.ringEnable s) := by
  unfold State.ringEnable
  repeat' with_reducible first
    | assumption
    | apply State.ringLeave_keeps
    | apply State.ringTo_keeps
    | apply Keeps.foldl
    | intro _
    | apply Keeps.ite

theorem execRingBlockLock_keeps {z : State} (port : Fin 4) (s : State) (hk : Keeps z s) {u : State} (he : execRingBlockLock port s = .next u) : Keeps z u := by
  unfold execRingBlockLock at he
  cases he
  repeat' with_reducible first
    | assumption
    | apply State.ringTo_keeps
    | apply State.setRingPort_keeps
    | apply Keeps.ite

theorem execRingLinkLoss_keeps {z : State} (port : Fin 4) (headerErrors : Nat) (s : State) (hk : Keeps z s) {u : State} (he : execRingLinkLoss port headerErrors s = .next u) : Keeps z u := by
  unfold execRingLinkLoss at he
  cases he
  repeat' with_reducible first
    | assumption
    | apply State.count_keeps
    | apply State.countBy_keeps
    | apply State.ringLeave_keeps
    | apply Keeps.ite

theorem execRingStatusRx_keeps {z : State} (port : Fin 4) (block : BitVec 64) (child : Bool) (s : State) (hk : Keeps z s) {u : State} (he : execRingStatusRx port block child s = .next u) : Keeps z u := by
  unfold execRingStatusRx at he
  cases he
  repeat' with_reducible first
    | assumption
    | apply State.ringMeasured_keeps
    | apply State.ringSelect_keeps
    | apply State.setRingPort_keeps
    | apply State.sourceChanged_keeps
    | apply State.wr_keeps
    | apply Keeps.ite

theorem execRingDelayReqRx_keeps {z : State} (port : Fin 4) (block : BitVec 64) (turnaround : Nat) (s : State) (hk : Keeps z s) {u : State} (he : execRingDelayReqRx port block turnaround s = .next u) : Keeps z u := by
  unfold execRingDelayReqRx at he
  cases he
  repeat' with_reducible first
    | assumption
    | apply State.ringSend_keeps
    | apply Keeps.ite

theorem execRingDelayRespRx_keeps {z : State} (port : Fin 4) (block : BitVec 64) (roundTrip : Nat) (s : State) (hk : Keeps z s) {u : State} (he : execRingDelayRespRx port block roundTrip s = .next u) : Keeps z u := by
  unfold execRingDelayRespRx at he
  cases he
  repeat' with_reducible first
    | assumption
    | apply State.ringMeasured_keeps
    | apply State.setRingPort_keeps
    | apply State.wr_keeps
    | apply Keeps.ite

theorem execRingPeriodicSend_keeps {z : State} (s : State) (hk : Keeps z s) {u : State} (he : execRingPeriodicSend s = .next u) : Keeps z u := by
  unfold execRingPeriodicSend at he
  cases he
  repeat' with_reducible first
    | apply State.ringSend_keeps
    | apply State.setRingPort_keeps
    | apply Keeps.foldl
    | intro _
    | apply Keeps.ite
    | (refine (Keeps.mk' ?_ (by omega) (by omega) rfl) <;>
       first | assumption | apply State.at_keeps)

theorem State.ringTick_keeps {z : State} (s : State) (hops seq time epoch root : Nat) (hk : Keeps z s) :
    Keeps z (State.ringTick s hops seq time epoch root) := by
  unfold State.ringTick
  try dsimp only [State.draw]
  repeat' with_reducible first
    | apply State.ringSend_keeps
    | apply Keeps.foldl
    | intro _
    | apply Keeps.ite
    | (refine (Keeps.mk' ?_ (by omega) (by omega) rfl) <;>
       first | assumption)

theorem State.ringRootTick_keeps {z : State} (s : State) (hk : Keeps z s) :
    Keeps z (State.ringRootTick s) := by
  unfold State.ringRootTick
  repeat' with_reducible first
    | assumption
    | apply State.ringTick_keeps
    | apply Keeps.ite

theorem State.ringAdopt_keeps {z : State} (s : State) (seq epoch : Nat) (hk : Keeps z s) :
    Keeps z (State.ringAdopt s seq epoch) := by
  unfold State.ringAdopt
  repeat' with_reducible first
    | apply State.count_keeps
    | apply State.tickNotify_keeps
    | apply State.wr_keeps
    | apply Keeps.ite
    | (refine (Keeps.mk' ?_ (by omega) (by omega) rfl) <;>
       first | assumption)

theorem execRingTickRx_keeps {z : State} (port : Fin 4) (tick lo hi : BitVec 64) (ps : Fin 1000) (s : State) (hk : Keeps z s) {u : State} (he : execRingTickRx port tick lo hi ps s = .next u) : Keeps z u := by
  unfold execRingTickRx at he
  cases he
  repeat' with_reducible first
    | apply State.count_keeps
    | apply State.ringAdopt_keeps
    | apply State.ringTick_keeps
    | apply State.servo_keeps
    | apply State.setRingPort_keeps
    | apply State.wrS_keeps
    | apply Keeps.ite
    | (refine (Keeps.mk' ?_ (by omega) (by omega) rfl) <;>
       first | assumption | apply State.ringSelect_keeps)

theorem State.ringFire_keeps {z : State} (s : State) (ch : Nat) (hk : Keeps z s) :
    Keeps z (State.ringFire s ch) := by
  unfold State.ringFire
  repeat' with_reducible first
    | apply State.count_keeps
    | apply State.ringSend_keeps
    | apply Keeps.foldl
    | intro _
    | (refine (Keeps.mk' ?_ (by omega) (by omega) rfl) <;>
       first | assumption)

theorem execRingEventSend_keeps {z : State} (c : Fin 64) (s : State) (hk : Keeps z s) {u : State} (he : execRingEventSend c s = .next u) : Keeps z u := by
  unfold execRingEventSend at he
  cases he
  repeat' with_reducible first
    | apply State.ringFire_keeps
    | apply Keeps.ite
    | (refine (Keeps.mk' ?_ (by omega) (by omega) rfl) <;>
       first | assumption)

theorem execRingEventRx_keeps {z : State} (port : Fin 4) (block : BitVec 64) (s : State) (hk : Keeps z s) {u : State} (he : execRingEventRx port block s = .next u) : Keeps z u := by
  unfold execRingEventRx at he
  cases he
  repeat' with_reducible first
    | apply State.count_keeps
    | apply State.fire_keeps
    | apply State.ringSend_keeps
    | apply Keeps.foldl
    | intro _
    | apply Keeps.ite
    | (refine (Keeps.mk' ?_ (by omega) (by omega) rfl) <;>
       first | assumption)

theorem ringApply_keeps {z : State} (id v : Nat) (s : State) (hk : Keeps z s) :
    Keeps z (ringApply id v s) := by
  unfold ringApply
  repeat' with_reducible first
    | assumption
    | apply State.ringEnable_keeps
    | apply State.ringFire_keeps
    | apply State.ringSelect_keeps
    | apply Keeps.foldl
    | apply Keeps.ite

end Sys2Proof.Machine
end

