-- ==== Sys2Proof/Laws/Keeps/Apply.lean ====
section
/-! SUPPORT. What every operation of Machine/Apply.lean keeps. -/

namespace Sys2Proof.Machine

theorem State.place_keeps {z : State} (s : State) (e : Nat × PVal) (hk : Keeps z s) :
    Keeps z (State.place s e) := by
  unfold State.place
  repeat' with_reducible first
    | assumption
    | apply State.wr_keeps
    | apply State.wrBlob_keeps
    | split

theorem State.placeAll_keeps {z : State} (s : State) (l : List (Nat × PVal)) (hk : Keeps z s) :
    Keeps z (State.placeAll s l) := by
  unfold State.placeAll
  repeat' with_reducible first
    | assumption
    | apply State.place_keeps
    | apply Keeps.foldl

theorem State.committed_keeps {z : State} (s : State) (hk : Keeps z s) :
    Keeps z (State.committed s) := by
  unfold State.committed
  repeat' with_reducible first
    | assumption
    | apply State.placeAll_keeps
    | apply Keeps.foldl
    | intro _

theorem sysApply_keeps {z : State} (id : Nat) (v : PVal) (s : State) (hk : Keeps z s) :
    Keeps z (sysApply id v s) := by
  unfold sysApply
  repeat' with_reducible first
    | apply State.ledgerPut_keeps
    | apply State.wr_keeps
    | apply Keeps.ite
    | (refine (Keeps.mk' ?_ (by omega) (by omega) rfl) <;>
       first | assumption)

theorem tickApply_keeps {z : State} (t : Txn) (id v : Nat) (s : State) (hk : Keeps z s) :
    Keeps z (tickApply t id v s) := by
  unfold tickApply
  try dsimp only [State.draw]
  repeat' with_reducible first
    | apply State.ringSelect_keeps
    | apply State.selectSource_keeps
    | apply Keeps.ite
    | (refine (Keeps.mk' ?_ (by omega) (by omega) rfl) <;>
       first | assumption)

theorem entryApply_keeps {z : State} (t : Txn) (id : Nat) (v : PVal) (s : State) (hk : Keeps z s) :
    Keeps z (entryApply t id v s) := by
  unfold entryApply
  repeat' with_reducible first
    | assumption
    | apply audioApply_keeps
    | apply chamoisApply_keeps
    | apply dramApply_keeps
    | apply ethApply_keeps
    | apply exposureApply_keeps
    | apply fabricApply_keeps
    | apply i2cApply_keeps
    | apply ingestApply_keeps
    | apply linkApply_keeps
    | apply recorderApply_keeps
    | apply ringApply_keeps
    | apply streamApply_keeps
    | apply sysApply_keeps
    | apply targetApply_keeps
    | apply tickApply_keeps
    | apply timeApply_keeps
    | split

theorem State.install_keeps {z : State} (s : State) (e : Nat × PVal) (hk : Keeps z s) :
    Keeps z (State.install s e) := by
  unfold State.install
  repeat' with_reducible first
    | assumption
    | apply State.place_keeps
    | apply Keeps.ite

theorem State.inForce_keeps {z : State} (s : State) (t : Txn) (l : List (Nat × PVal)) (hk : Keeps z s) :
    Keeps z (State.inForce s t l) := by
  unfold State.inForce
  repeat' with_reducible first
    | assumption
    | apply entryApply_keeps
    | apply State.install_keeps
    | apply State.reportChanges_keeps
    | apply Keeps.foldl
    | intro _

theorem State.reachHeads_keeps {z : State} (s : State) (r : Req) (op edge : Nat) (l : List (Nat × PVal)) (hk : Keeps z s) :
    Keeps z (State.reachHeads s r op edge l) := by
  unfold State.reachHeads
  repeat' with_reducible first
    | assumption
    | apply State.headReach_keeps
    | apply State.hold_keeps
    | apply Keeps.foldl
    | intro _
    | split

theorem boundaryApply_keeps {z : State} (r : Req) (op : Nat) (s : State) (e : Nat × PVal) (hk : Keeps z s) :
    Keeps z (boundaryApply r op s e) := by
  unfold boundaryApply
  repeat' with_reducible first
    | assumption
    | apply State.awaitBoundary_keeps
    | apply State.lutCommit_keeps
    | apply Keeps.ite

theorem State.queueAdmitted_keeps {z : State} (s : State) (t : Txn) (es : List CEntry) (edge : Nat) (hk : Keeps z s) :
    Keeps z (State.queueAdmitted s t es edge) := by
  unfold State.queueAdmitted
  repeat' with_reducible first
    | apply State.hold_keeps
    | apply Keeps.ite
    | (refine (Keeps.mk' ?_ (by omega) (by omega) rfl) <;>
       first | assumption)

theorem State.ticketCounts_keeps {z : State} (s : State) (status p : Nat) (hk : Keeps z s) :
    Keeps z (State.ticketCounts s status p) := by
  unfold State.ticketCounts
  repeat' with_reducible first
    | assumption
    | apply State.count_keeps
    | apply Keeps.ite

theorem State.commitApply_keeps {z : State} (s : State) (t : Txn) (es : List CEntry) (status port first : Nat) (hk : Keeps z s) :
    Keeps z (State.commitApply s t es status port first) := by
  unfold State.commitApply
  repeat' with_reducible first
    | assumption
    | apply boundaryApply_keeps
    | apply State.hold_keeps
    | apply State.inForce_keeps
    | apply State.pushIsp_keeps
    | apply State.queueAdmitted_keeps
    | apply State.reachHeads_keeps
    | apply State.release_keeps
    | apply State.restartStore_keeps
    | apply State.ticketCounts_keeps
    | apply Keeps.foldl
    | intro _
    | apply Keeps.ite

theorem State.commitRun_keeps {z : State} (s : State) (r : Req) (op target : Nat) (vals : List (Nat × PVal)) (done : State → State) (hk : Keeps z s) (h_done : ∀ t, Keeps z t → Keeps z (done t)) :
    Keeps z (State.commitRun s r op target vals done) := by
  unfold State.commitRun
  repeat' with_reducible first
    | assumption
    | apply h_done
    | apply State.commitApply_keeps
    | apply State.count_keeps
    | apply State.reply_keeps
    | apply State.ticketCounts_keeps
    | apply Keeps.ite

theorem State.commitStaged_keeps {z : State} (s : State) (r : Req) (op target : Nat) (vals : List (Nat × PVal)) (done : State → State) (hk : Keeps z s) (h_done : ∀ t, Keeps z t → Keeps z (done t)) :
    Keeps z (State.commitStaged s r op target vals done) := by
  unfold State.commitStaged
  repeat' with_reducible first
    | assumption
    | apply State.commitRun_keeps
    | apply State.reply_keeps
    | apply Keeps.ite

theorem State.commitEntries_keeps {z : State} (s : State) (r : Req) (l : List Entry) (hk : Keeps z s) :
    Keeps z (State.commitEntries s r l) := by
  unfold State.commitEntries
  repeat' with_reducible first
    | assumption
    | apply Keeps.ofId
    | apply State.commitStaged_keeps
    | apply State.reply_keeps
    | apply State.request_keeps
    | intro _
    | apply Keeps.ite

theorem State.commitNum_keeps {z : State} (s : State) (r : Req) (id v : Nat) (hk : Keeps z s) :
    Keeps z (State.commitNum s r id v) := by
  unfold State.commitNum
  repeat' with_reducible first
    | assumption
    | apply State.commitEntries_keeps

theorem State.commitBlob_keeps {z : State} (s : State) (r : Req) (id flags : Nat) (value : List Byte) (hk : Keeps z s) :
    Keeps z (State.commitBlob s r id flags value) := by
  unfold State.commitBlob
  repeat' with_reducible first
    | assumption
    | apply State.commitEntries_keeps

end Sys2Proof.Machine
end

