-- ==== Sys2Proof/Laws/Keeps/Tick.lean ====
section
/-! SUPPORT. What every operation of Machine/Tick.lean keeps. -/

namespace Sys2Proof.Machine

theorem State.edgeTaken_keeps {z : State} (s : State) (e : Int) (hk : Keeps z s) :
    Keeps z (State.edgeTaken s e) := by
  unfold State.edgeTaken
  repeat' with_reducible first
    | (refine (Keeps.mk' ?_ (by omega) (by omega) rfl) <;>
       first | assumption)

theorem State.stepped_keeps {z : State} (s : State) (slip : Bool) (amount : Int) (hk : Keeps z s) :
    Keeps z (State.stepped s slip amount) := by
  unfold State.stepped
  repeat' with_reducible first
    | assumption
    | apply State.count_keeps
    | apply State.fire_keeps
    | apply State.tickNotify_keeps
    | apply Keeps.ite

theorem State.edgeAt_keeps {z : State} (s : State) (hk : Keeps z s) :
    Keeps z (State.edgeAt s) := by
  unfold State.edgeAt
  repeat' with_reducible first
    | apply State.edgeTaken_keeps
    | apply State.next32_keeps
    | apply State.stepped_keeps
    | apply State.wr_keeps
    | apply Keeps.ite
    | (refine (Keeps.mk' ?_ (by omega) (by omega) rfl) <;>
       first | assumption | apply State.at_keeps)

theorem State.planNotify_keeps {z : State} (s : State) (code new old : Nat) (hk : Keeps z s) :
    Keeps z (State.planNotify s code new old) := by
  unfold State.planNotify
  repeat' with_reducible first
    | assumption
    | apply State.notify_keeps

theorem State.newRate_keeps {z : State} (s old : State) (hk : Keeps z s) :
    Keeps z (State.newRate s old) := by
  unfold State.newRate
  repeat' with_reducible first
    | apply State.wrAll_keeps
    | apply Keeps.ite
    | (refine (Keeps.mk' ?_ (by omega) (by omega) rfl) <;>
       first | assumption)

theorem State.newProfile_keeps {z : State} (s old : State) (hk : Keeps z s) :
    Keeps z (State.newProfile s old) := by
  unfold State.newProfile
  repeat' with_reducible first
    | apply State.applyClock_keeps
    | apply State.dramFigures_keeps
    | apply State.linksDuiker_keeps
    | apply State.resizeSlots_keeps
    | apply Keeps.foldl
    | apply Keeps.ite
    | (refine (Keeps.mk' ?_ (by omega) (by omega) rfl) <;>
       first | assumption | apply State.wrAll_keeps)

theorem State.speedReply_keeps {z : State} (s : State) (r : Req) (hk : Keeps z s) :
    Keeps z (State.speedReply s r) := by
  unfold State.speedReply
  repeat' with_reducible first
    | apply State.releaseIf_keeps
    | (refine (Keeps.mk' ?_ (by omega) (by omega) rfl) <;>
       first | assumption)

theorem State.applyAdmitted_keeps {z : State} (s : State) (a : Admitted) (hk : Keeps z s) :
    Keeps z (State.applyAdmitted s a) := by
  unfold State.applyAdmitted
  repeat' with_reducible first
    | apply State.inForce_keeps
    | apply State.newProfile_keeps
    | apply State.newRate_keeps
    | apply State.next32_keeps
    | apply State.reachHeads_keeps
    | apply State.speedReply_keeps
    | apply Keeps.ite
    | (refine (Keeps.mk' ?_ (by omega) (by omega) rfl) <;>
       first | assumption | apply State.releaseIf_keeps)

theorem State.applyQueue_keeps {z : State} (s : State) (hk : Keeps z s) :
    Keeps z (State.applyQueue s) := by
  unfold State.applyQueue
  repeat' with_reducible first
    | apply State.applyAdmitted_keeps
    | apply Keeps.foldl
    | intro _
    | apply Keeps.ite
    | (refine (Keeps.mk' ?_ (by omega) (by omega) rfl) <;>
       first | assumption | apply State.updateRun_keeps)

theorem State.levelTo_keeps {z : State} (s : State) (code : Nat) (hk : Keeps z s) :
    Keeps z (State.levelTo s code) := by
  unfold State.levelTo
  repeat' with_reducible first
    | assumption
    | apply State.next32_keeps
    | apply State.planNotify_keeps
    | apply State.wr_keeps

theorem State.shedTick_keeps {z : State} (s : State) (hk : Keeps z s) :
    Keeps z (State.shedTick s) := by
  unfold State.shedTick
  repeat' with_reducible first
    | apply State.levelTo_keeps
    | split
    | (refine (Keeps.mk' ?_ (by omega) (by omega) rfl) <;>
       first | assumption | apply State.stepUpNow_keeps)
    | dsimp only

theorem State.overruns_keeps {z : State} (s : State) (drained built : Bool) (hk : Keeps z s) :
    Keeps z (State.overruns s drained built) := by
  unfold State.overruns
  repeat' with_reducible first
    | assumption
    | apply State.abandonJob_keeps
    | apply State.buildersEdge_keeps
    | apply State.count_keeps
    | apply Keeps.foldl
    | intro _
    | split

theorem State.countersTick_keeps {z : State} (s : State) (hk : Keeps z s) :
    Keeps z (State.countersTick s) := by
  unfold State.countersTick
  repeat' with_reducible first
    | assumption
    | apply State.setCtx_keeps
    | apply Keeps.foldl
    | intro _
    | apply Keeps.ite

theorem State.startJobs_keeps {z : State} (s : State) (hk : Keeps z s) :
    Keeps z (State.startJobs s) := by
  unfold State.startJobs
  repeat' with_reducible first
    | assumption
    | apply State.skipJob_keeps
    | apply State.startJob_keeps
    | apply Keeps.foldl
    | intro _
    | apply Keeps.ite

theorem State.s8Tick_keeps {z : State} (s : State) (hk : Keeps z s) :
    Keeps z (State.s8Tick s) := by
  unfold State.s8Tick
  repeat' with_reducible first
    | assumption
    | apply State.setCtx_keeps
    | apply Keeps.foldl
    | intro _
    | apply Keeps.ite

theorem State.s10Tick_keeps {z : State} (s : State) (before : Bool) (hk : Keeps z s) :
    Keeps z (State.s10Tick s before) := by
  unfold State.s10Tick
  repeat' with_reducible first
    | (refine (Keeps.mk' ?_ (by omega) (by omega) rfl) <;>
       first | assumption)

theorem State.traceTick_keeps {z : State} (s : State) (hk : Keeps z s) :
    Keeps z (State.traceTick s) := by
  unfold State.traceTick
  repeat' with_reducible first
    | assumption
    | apply State.trace_keeps

theorem State.tickWork_keeps {z : State} (s : State) (hk : Keeps z s) :
    Keeps z (State.tickWork s) := by
  unfold State.tickWork
  repeat' with_reducible first
    | apply State.applyQueue_keeps
    | apply State.clipTick_keeps
    | apply State.countersTick_keeps
    | apply State.fire_keeps
    | apply State.ringRootTick_keeps
    | apply State.roceFlush_keeps
    | apply State.s10Tick_keeps
    | apply State.s8Tick_keeps
    | apply State.shedTick_keeps
    | apply State.startJobs_keeps
    | apply State.streamsTick_keeps
    | apply State.timeSetAtEdge_keeps
    | apply State.trigTick_keeps
    | (refine (Keeps.mk' ?_ (by omega) (by omega) rfl) <;>
       first | assumption | apply State.traceTick_keeps | apply State.trigTick_keeps | apply Keeps.foldl)

theorem execTickEdge_keeps {z : State} (drained built : Bool) (s : State) (hk : Keeps z s) {u : State} (he : execTickEdge drained built s = .next u) : Keeps z u := by
  unfold execTickEdge at he
  cases he
  repeat' with_reducible first
    | assumption
    | apply State.edgeAt_keeps
    | apply State.maintWaited_keeps
    | apply State.overruns_keeps
    | apply State.tickWork_keeps
    | apply Keeps.ite

theorem execTickLockAchieved_keeps {z : State} (s : State) (hk : Keeps z s) {u : State} (he : execTickLockAchieved s = .next u) : Keeps z u := by
  unfold execTickLockAchieved at he
  cases he
  repeat' with_reducible first
    | assumption
    | apply State.tickTo_keeps
    | apply Keeps.ite

theorem execHoldoverLimitExpiry_keeps {z : State} (s : State) (hk : Keeps z s) {u : State} (he : execHoldoverLimitExpiry s = .next u) : Keeps z u := by
  unfold execHoldoverLimitExpiry at he
  cases he
  try dsimp only [State.draw]
  repeat' with_reducible first
    | apply State.selectSource_keeps
    | split
    | (refine (Keeps.mk' ?_ (by omega) (by omega) rfl) <;>
       first | assumption | apply State.at_keeps)

theorem execTickBudgetEnd_keeps {z : State} (building : Bool) (s : State) (hk : Keeps z s) {u : State} (he : execTickBudgetEnd building s = .next u) : Keeps z u := by
  unfold execTickBudgetEnd at he
  cases he
  repeat' with_reducible first
    | apply State.at_keeps
    | apply State.gapStart_keeps
    | apply Keeps.ite
    | (refine (Keeps.mk' ?_ (by omega) (by omega) rfl) <;>
       first | assumption | apply State.fire_keeps)

theorem execJobComplete_keeps {z : State} (ctx : Fin 32) (sceneCycles endNs : Nat) (sceneLate rendLate statsLate : Bool) (s : State) (hk : Keeps z s) {u : State} (he : execJobComplete ctx sceneCycles endNs sceneLate rendLate statsLate s = .next u) : Keeps z u := by
  unfold execJobComplete at he
  cases he
  repeat' with_reducible first
    | assumption
    | apply State.count_keeps
    | apply State.finishJob_keeps
    | apply State.gapStart_keeps
    | apply Keeps.ite

theorem execMaintRequest_keeps {z : State} (act : Fin 4) (ch : Fin 8) (s : State) (hk : Keeps z s) {u : State} (he : execMaintRequest act ch s = .next u) : Keeps z u := by
  unfold execMaintRequest at he
  cases he
  repeat' with_reducible first
    | assumption
    | apply State.ledgerPut_keeps
    | apply State.maintAsk_keeps
    | apply Keeps.ite

theorem State.ledgerDone_keeps {z : State} (s : State) (hk : Keeps z s) :
    Keeps z (State.ledgerDone s) := by
  unfold State.ledgerDone
  repeat' with_reducible first
    | apply State.ledgerCommit_keeps
    | apply State.maintAsk_keeps
    | split
    | (refine (Keeps.mk' ?_ (by omega) (by omega) rfl) <;>
       first | assumption)

theorem execMaintActivityDone_keeps {z : State} (failed : List Nat) (s : State) (hk : Keeps z s) {u : State} (he : execMaintActivityDone failed s = .next u) : Keeps z u := by
  unfold execMaintActivityDone at he
  cases he
  repeat' with_reducible first
    | apply State.count_keeps
    | apply State.ledgerDone_keeps
    | apply State.sensorInvalid_keeps
    | apply Keeps.foldl
    | split
    | (refine (Keeps.mk' ?_ (by omega) (by omega) rfl) <;>
       first | assumption)

theorem execReadmissionDone_keeps {z : State} (s : State) (hk : Keeps z s) {u : State} (he : execReadmissionDone s = .next u) : Keeps z u := by
  unfold execReadmissionDone at he
  cases he
  repeat' with_reducible first
    | apply Keeps.ite
    | (refine (Keeps.mk' ?_ (by omega) (by omega) rfl) <;>
       first | assumption)

theorem execDramSpeedChangeDone_keeps {z : State} (failed : List Nat) (s : State) (hk : Keeps z s) {u : State} (he : execDramSpeedChangeDone failed s = .next u) : Keeps z u := by
  unfold execDramSpeedChangeDone at he
  cases he
  try dsimp only [State.draw]
  repeat' with_reducible first
    | apply State.channelFailed_keeps
    | apply State.clearDebts_keeps
    | apply State.newProfile_keeps
    | apply State.recordFailed_keeps
    | apply State.resumeTarget_keeps
    | apply State.speedReply_keeps
    | apply State.trainedNow_keeps
    | apply Keeps.foldl
    | intro _
    | split
    | (refine (Keeps.mk' ?_ (by omega) (by omega) rfl) <;>
       first | assumption | apply State.next32_keeps | apply State.placeAll_keeps)

end Sys2Proof.Machine
end

