-- ==== Sys2Proof/Laws/Keeps/Params.lean ====
section
/-! SUPPORT. What every operation of Machine/Params.lean keeps. -/

namespace Sys2Proof.Machine

theorem execParamGet_keeps {z : State} (r : Req) (entries : List Entry) (s : State) (hk : Keeps z s) {u : State} (he : execParamGet r entries s = .next u) : Keeps z u := by
  unfold execParamGet at he
  cases he
  repeat' with_reducible first
    | assumption
    | apply State.replyLong_keeps
    | apply State.request_keeps
    | intro _

theorem State.setStaged_keeps {z : State} (s : State) (sess : Nat) (l : List Staged) (hk : Keeps z s) :
    Keeps z (State.setStaged s sess l) := by
  unfold State.setStaged
  repeat' with_reducible first
    | assumption
    | apply State.setSession_keeps
    | split

theorem execParamSet_keeps {z : State} (r : Req) (entries : List Entry) (s : State) (hk : Keeps z s) {u : State} (he : execParamSet r entries s = .next u) : Keeps z u := by
  unfold execParamSet at he
  cases he
  repeat' with_reducible first
    | assumption
    | apply State.reply_keeps
    | apply State.request_keeps
    | apply State.setStaged_keeps
    | intro _
    | apply Keeps.ite

theorem execParamCommit_keeps {z : State} (r : Req) (target : Nat) (s : State) (hk : Keeps z s) {u : State} (he : execParamCommit r target s = .next u) : Keeps z u := by
  unfold execParamCommit at he
  cases he
  repeat' with_reducible first
    | assumption
    | apply State.commitStaged_keeps
    | apply State.reply_keeps
    | apply State.request_keeps
    | apply State.setStaged_keeps
    | intro _
    | apply Keeps.ite

theorem execParamDiscard_keeps {z : State} (r : Req) (s : State) (hk : Keeps z s) {u : State} (he : execParamDiscard r s = .next u) : Keeps z u := by
  unfold execParamDiscard at he
  cases he
  repeat' with_reducible first
    | assumption
    | apply State.reply_keeps
    | apply State.request_keeps
    | apply State.setStaged_keeps
    | intro _

theorem execParamDescribe_keeps {z : State} (r : Req) (ids : List Nat) (s : State) (hk : Keeps z s) {u : State} (he : execParamDescribe r ids s = .next u) : Keeps z u := by
  unfold execParamDescribe at he
  cases he
  repeat' with_reducible first
    | assumption
    | apply State.replyLong_keeps
    | apply State.request_keeps
    | intro _

theorem execPlanQuery_keeps {z : State} (r : Req) (s : State) (hk : Keeps z s) {u : State} (he : execPlanQuery r s = .next u) : Keeps z u := by
  unfold execPlanQuery at he
  cases he
  repeat' with_reducible first
    | assumption
    | apply State.reply_keeps
    | apply State.request_keeps
    | intro _

end Sys2Proof.Machine
end

