-- ==== Sys2Proof/Laws/Keeps/Commit.lean ====
section
/-! SUPPORT. What every operation of Machine/Commit.lean keeps. -/

namespace Sys2Proof.Machine

theorem execCustomBaseWrite_keeps {z : State} (r : Req) (value : Nat) (s : State) (hk : Keeps z s) {u : State} (he : execCustomBaseWrite r value s = .next u) : Keeps z u := by
  unfold execCustomBaseWrite at he
  cases he
  repeat' with_reducible first
    | assumption
    | apply State.commitNum_keeps

theorem execTickSourceWrite_keeps {z : State} (r : Req) (source : Nat) (offset : Int) (fallback : Nat) (s : State) (hk : Keeps z s) {u : State} (he : execTickSourceWrite r source offset fallback s = .next u) : Keeps z u := by
  unfold execTickSourceWrite at he
  cases he
  repeat' with_reducible first
    | assumption
    | apply State.commitEntries_keeps

theorem execTickRateWrite_keeps {z : State} (r : Req) (n d : Nat) (s : State) (hk : Keeps z s) {u : State} (he : execTickRateWrite r n d s = .next u) : Keeps z u := by
  unfold execTickRateWrite at he
  cases he
  repeat' with_reducible first
    | assumption
    | apply State.commitEntries_keeps

theorem execProfileWrite_keeps {z : State} (r : Req) (value : Nat) (s : State) (hk : Keeps z s) {u : State} (he : execProfileWrite r value s = .next u) : Keeps z u := by
  unfold execProfileWrite at he
  cases he
  repeat' with_reducible first
    | assumption
    | apply State.commitNum_keeps

theorem execParamWritePlain_keeps {z : State} (r : Req) (id : Nat) (value : List Byte) (s : State) (hk : Keeps z s) {u : State} (he : execParamWritePlain r id value s = .next u) : Keeps z u := by
  unfold execParamWritePlain at he
  cases he
  repeat' with_reducible first
    | assumption
    | apply State.commitEntries_keeps

theorem execOwnerKeyWrite_keeps {z : State} (r : Req) (key : List Byte) (s : State) (hk : Keeps z s) {u : State} (he : execOwnerKeyWrite r key s = .next u) : Keeps z u := by
  unfold execOwnerKeyWrite at he
  cases he
  repeat' with_reducible first
    | assumption
    | apply State.commitBlob_keeps

theorem execSensorPortEnableWrite_keeps {z : State} (r : Req) (port : Fin 16) (value : Nat) (s : State) (hk : Keeps z s) {u : State} (he : execSensorPortEnableWrite r port value s = .next u) : Keeps z u := by
  unfold execSensorPortEnableWrite at he
  cases he
  repeat' with_reducible first
    | assumption
    | apply State.commitNum_keeps

theorem execXtrigEnableWrite_keeps {z : State} (r : Req) (n : Fin 16) (value : Nat) (s : State) (hk : Keeps z s) {u : State} (he : execXtrigEnableWrite r n value s = .next u) : Keeps z u := by
  unfold execXtrigEnableWrite at he
  cases he
  repeat' with_reducible first
    | assumption
    | apply State.commitNum_keeps

theorem execContextBindWrite_keeps {z : State} (r : Req) (port : Fin 16) (value : Nat) (s : State) (hk : Keeps z s) {u : State} (he : execContextBindWrite r port value s = .next u) : Keeps z u := by
  unfold execContextBindWrite at he
  cases he
  repeat' with_reducible first
    | assumption
    | apply State.commitNum_keeps

theorem execDefectMapWrite_keeps {z : State} (r : Req) (port : Fin 16) (flags : Nat) (value : List Byte) (s : State) (hk : Keeps z s) {u : State} (he : execDefectMapWrite r port flags value s = .next u) : Keeps z u := by
  unfold execDefectMapWrite at he
  cases he
  repeat' with_reducible first
    | assumption
    | apply State.commitBlob_keeps

theorem execCtxEnableWrite_keeps {z : State} (r : Req) (ctx : Fin 32) (value : Nat) (s : State) (hk : Keeps z s) {u : State} (he : execCtxEnableWrite r ctx value s = .next u) : Keeps z u := by
  unfold execCtxEnableWrite at he
  cases he
  repeat' with_reducible first
    | assumption
    | apply State.commitNum_keeps

theorem execLscTableWrite_keeps {z : State} (r : Req) (ctx : Fin 32) (flags : Nat) (value : List Byte) (s : State) (hk : Keeps z s) {u : State} (he : execLscTableWrite r ctx flags value s = .next u) : Keeps z u := by
  unfold execLscTableWrite at he
  cases he
  repeat' with_reducible first
    | assumption
    | apply State.commitBlob_keeps

theorem execTable1dWrite_keeps {z : State} (r : Req) (ctx : Fin 32) (rend : Fin 4) (tone : Bool) (flags : Nat) (value : List Byte) (s : State) (hk : Keeps z s) {u : State} (he : execTable1dWrite r ctx rend tone flags value s = .next u) : Keeps z u := by
  unfold execTable1dWrite at he
  cases he
  repeat' with_reducible first
    | assumption
    | apply State.commitBlob_keeps

theorem execScalerTableWrite_keeps {z : State} (r : Req) (ctx : Fin 32) (rend : Fin 4) (flags : Nat) (value : List Byte) (s : State) (hk : Keeps z s) {u : State} (he : execScalerTableWrite r ctx rend flags value s = .next u) : Keeps z u := by
  unfold execScalerTableWrite at he
  cases he
  repeat' with_reducible first
    | assumption
    | apply State.commitBlob_keeps

theorem execLut3dWrite_keeps {z : State} (r : Req) (ctx : Fin 32) (rend : Fin 4) (flags : Nat) (value : List Byte) (s : State) (hk : Keeps z s) {u : State} (he : execLut3dWrite r ctx rend flags value s = .next u) : Keeps z u := by
  unfold execLut3dWrite at he
  cases he
  repeat' with_reducible first
    | assumption
    | apply State.commitBlob_keeps

theorem execSensorDescWrite_keeps {z : State} (r : Req) (port : Fin 16) (flags : Nat) (value : List Byte) (s : State) (hk : Keeps z s) {u : State} (he : execSensorDescWrite r port flags value s = .next u) : Keeps z u := by
  unfold execSensorDescWrite at he
  cases he
  repeat' with_reducible first
    | assumption
    | apply State.commitBlob_keeps

theorem execSensorModeWrite_keeps {z : State} (r : Req) (port : Fin 16) (value : Nat) (s : State) (hk : Keeps z s) {u : State} (he : execSensorModeWrite r port value s = .next u) : Keeps z u := by
  unfold execSensorModeWrite at he
  cases he
  repeat' with_reducible first
    | assumption
    | apply State.commitNum_keeps

theorem execI2cEnableWrite_keeps {z : State} (r : Req) (bus : Fin 12) (value : Nat) (s : State) (hk : Keeps z s) {u : State} (he : execI2cEnableWrite r bus value s = .next u) : Keeps z u := by
  unfold execI2cEnableWrite at he
  cases he
  repeat' with_reducible first
    | assumption
    | apply State.commitNum_keeps

theorem execXferDescWrite_keeps {z : State} (r : Req) (bus : Fin 12) (flags : Nat) (value : List Byte) (s : State) (hk : Keeps z s) {u : State} (he : execXferDescWrite r bus flags value s = .next u) : Keeps z u := by
  unfold execXferDescWrite at he
  cases he
  repeat' with_reducible first
    | assumption
    | apply State.commitBlob_keeps

theorem execHeadEnableWrite_keeps {z : State} (r : Req) (head : Fin 4) (value : Nat) (s : State) (hk : Keeps z s) {u : State} (he : execHeadEnableWrite r head value s = .next u) : Keeps z u := by
  unfold execHeadEnableWrite at he
  cases he
  repeat' with_reducible first
    | assumption
    | apply State.commitNum_keeps

theorem execEthEnableWrite_keeps {z : State} (r : Req) (port : Fin 2) (mode : Bool) (value : Nat) (s : State) (hk : Keeps z s) {u : State} (he : execEthEnableWrite r port mode value s = .next u) : Keeps z u := by
  unfold execEthEnableWrite at he
  cases he
  repeat' with_reducible first
    | assumption
    | apply State.commitNum_keeps

theorem execTimeSetWrite_keeps {z : State} (r : Req) (value : Nat) (s : State) (hk : Keeps z s) {u : State} (he : execTimeSetWrite r value s = .next u) : Keeps z u := by
  unfold execTimeSetWrite at he
  cases he
  repeat' with_reducible first
    | assumption
    | apply State.commitNum_keeps

theorem execRingEnableWrite_keeps {z : State} (r : Req) (value : Nat) (s : State) (hk : Keeps z s) {u : State} (he : execRingEnableWrite r value s = .next u) : Keeps z u := by
  unfold execRingEnableWrite at he
  cases he
  repeat' with_reducible first
    | assumption
    | apply State.commitNum_keeps

theorem execMediaFormatWrite_keeps {z : State} (r : Req) (flags : Nat) (value : List Byte) (s : State) (hk : Keeps z s) {u : State} (he : execMediaFormatWrite r flags value s = .next u) : Keeps z u := by
  unfold execMediaFormatWrite at he
  cases he
  repeat' with_reducible first
    | assumption
    | apply State.commitBlob_keeps

theorem execMediaRebuildWrite_keeps {z : State} (r : Req) (value : Nat) (s : State) (hk : Keeps z s) {u : State} (he : execMediaRebuildWrite r value s = .next u) : Keeps z u := by
  unfold execMediaRebuildWrite at he
  cases he
  repeat' with_reducible first
    | assumption
    | apply State.commitNum_keeps

theorem execClipDeleteWrite_keeps {z : State} (r : Req) (value : Nat) (s : State) (hk : Keeps z s) {u : State} (he : execClipDeleteWrite r value s = .next u) : Keeps z u := by
  unfold execClipDeleteWrite at he
  cases he
  repeat' with_reducible first
    | assumption
    | apply State.commitNum_keeps

theorem execClipMetaWrite_keeps {z : State} (r : Req) (slot : Fin 4) (flags : Nat) (value : List Byte) (s : State) (hk : Keeps z s) {u : State} (he : execClipMetaWrite r slot flags value s = .next u) : Keeps z u := by
  unfold execClipMetaWrite at he
  cases he
  repeat' with_reducible first
    | assumption
    | apply State.commitBlob_keeps

theorem execTargetEnableWrite_keeps {z : State} (r : Req) (value : Nat) (s : State) (hk : Keeps z s) {u : State} (he : execTargetEnableWrite r value s = .next u) : Keeps z u := by
  unfold execTargetEnableWrite at he
  cases he
  repeat' with_reducible first
    | assumption
    | apply State.commitNum_keeps

theorem execAudioPortEnableWrite_keeps {z : State} (r : Req) (port : Fin 8) (value : Nat) (s : State) (hk : Keeps z s) {u : State} (he : execAudioPortEnableWrite r port value s = .next u) : Keeps z u := by
  unfold execAudioPortEnableWrite at he
  cases he
  repeat' with_reducible first
    | assumption
    | apply State.commitNum_keeps

theorem execAudRingWrite_keeps {z : State} (r : Req) (port : Fin 8) (flags : Nat) (value : List Byte) (s : State) (hk : Keeps z s) {u : State} (he : execAudRingWrite r port flags value s = .next u) : Keeps z u := by
  unfold execAudRingWrite at he
  cases he
  repeat' with_reducible first
    | assumption
    | apply State.commitBlob_keeps

theorem execSlotMaskWrite_keeps {z : State} (r : Req) (port : Fin 8) (value : Nat) (s : State) (hk : Keeps z s) {u : State} (he : execSlotMaskWrite r port value s = .next u) : Keeps z u := by
  unfold execSlotMaskWrite at he
  cases he
  repeat' with_reducible first
    | assumption
    | apply State.commitNum_keeps

theorem execMuteWrite_keeps {z : State} (r : Req) (port : Fin 8) (value : Nat) (s : State) (hk : Keeps z s) {u : State} (he : execMuteWrite r port value s = .next u) : Keeps z u := by
  unfold execMuteWrite at he
  cases he
  repeat' with_reducible first
    | assumption
    | apply State.commitNum_keeps

theorem execApplPositionWrite_keeps {z : State} (r : Req) (port : Fin 8) (value : Nat) (s : State) (hk : Keeps z s) {u : State} (he : execApplPositionWrite r port value s = .next u) : Keeps z u := by
  unfold execApplPositionWrite at he
  cases he
  repeat' with_reducible first
    | assumption
    | apply State.commitNum_keeps

theorem execFamilySourceWrite_keeps {z : State} (r : Req) (family : Fin 2) (value : Nat) (s : State) (hk : Keeps z s) {u : State} (he : execFamilySourceWrite r family value s = .next u) : Keeps z u := by
  unfold execFamilySourceWrite at he
  cases he
  repeat' with_reducible first
    | assumption
    | apply State.commitNum_keeps

theorem execDiagAddressWrite_keeps {z : State} (r : Req) (address : Nat) (s : State) (hk : Keeps z s) {u : State} (he : execDiagAddressWrite r address s = .next u) : Keeps z u := by
  unfold execDiagAddressWrite at he
  cases he
  repeat' with_reducible first
    | assumption
    | apply State.commitNum_keeps

theorem execSwFireWrite_keeps {z : State} (r : Req) (value : Nat) (s : State) (hk : Keeps z s) {u : State} (he : execSwFireWrite r value s = .next u) : Keeps z u := by
  unfold execSwFireWrite at he
  cases he
  repeat' with_reducible first
    | assumption
    | apply State.commitNum_keeps

theorem execEventFireWrite_keeps {z : State} (r : Req) (value : Nat) (s : State) (hk : Keeps z s) {u : State} (he : execEventFireWrite r value s = .next u) : Keeps z u := by
  unfold execEventFireWrite at he
  cases he
  repeat' with_reducible first
    | assumption
    | apply State.commitNum_keeps

theorem execEventFlagClearWrite_keeps {z : State} (r : Req) (flag : Fin 5) (word : Fin 8) (value : Nat) (s : State) (hk : Keeps z s) {u : State} (he : execEventFlagClearWrite r flag word value s = .next u) : Keeps z u := by
  unfold execEventFlagClearWrite at he
  cases he
  repeat' with_reducible first
    | assumption
    | apply State.commitNum_keeps

theorem execSrcEnableWrite_keeps {z : State} (r : Req) (src : Fin 256) (value : Nat) (s : State) (hk : Keeps z s) {u : State} (he : execSrcEnableWrite r src value s = .next u) : Keeps z u := by
  unfold execSrcEnableWrite at he
  cases he
  repeat' with_reducible first
    | assumption
    | apply State.commitNum_keeps

theorem execExposeRequest_keeps {z : State} (r : Req) (payload : List Byte) (s : State) (hk : Keeps z s) {u : State} (he : execExposeRequest r payload s = .next u) : Keeps z u := by
  unfold execExposeRequest at he
  cases he
  repeat' with_reducible first
    | assumption
    | apply State.exposeAccept_keeps
    | apply State.reply_keeps
    | apply State.request_keeps
    | apply State.setStaged_keeps
    | intro _
    | apply Keeps.ite

theorem State.withClip_keeps {z : State} (s : State) (b : List Byte) (hk : Keeps z s) :
    Keeps z (State.withClip s b) := by
  unfold State.withClip
  repeat' with_reducible first
    | assumption
    | apply State.setClip_keeps
    | split

theorem execClipStart_keeps {z : State} (r : Req) (payload : List Byte) (s : State) (hk : Keeps z s) {u : State} (he : execClipStart r payload s = .next u) : Keeps z u := by
  unfold execClipStart at he
  cases he
  repeat' with_reducible first
    | apply State.count_keeps
    | apply State.reply_keeps
    | apply State.request_keeps
    | apply State.updateRun_keeps
    | intro _
    | apply Keeps.ite
    | (refine (Keeps.mk' ?_ (by omega) (by omega) rfl) <;>
       first | assumption | apply State.clipOpen_keeps)

theorem execWakeProfileAction_keeps {z : State} (s : State) (hk : Keeps z s) {u : State} (he : execWakeProfileAction s = .next u) : Keeps z u := by
  unfold execWakeProfileAction at he
  cases he
  try dsimp only [State.draw]
  repeat' with_reducible first
    | apply State.count_keeps
    | split
    | (refine (Keeps.mk' ?_ (by omega) (by omega) rfl) <;>
       first | assumption)

end Sys2Proof.Machine
end

