-- ==== Sys2Proof/Laws/Keeps/Observe.lean ====
section
/-! SUPPORT. What every operation of Machine/Observe.lean keeps. -/

namespace Sys2Proof.Machine

theorem execObsRead_keeps {z : State} (r : Req) (groups : List GroupRef) (s : State) (hk : Keeps z s) {u : State} (he : execObsRead r groups s = .next u) : Keeps z u := by
  unfold execObsRead at he
  cases he
  repeat' with_reducible first
    | assumption
    | apply State.countBy_keeps
    | apply State.reply_keeps
    | apply State.request_keeps
    | intro _
    | apply Keeps.ite

theorem execCounterReset_keeps {z : State} (r : Req) (g : GroupRef) (s : State) (hk : Keeps z s) {u : State} (he : execCounterReset r g s = .next u) : Keeps z u := by
  unfold execCounterReset at he
  cases he
  repeat' with_reducible first
    | assumption
    | apply State.count_keeps
    | apply State.reply_keeps
    | apply State.request_keeps
    | apply State.wr_keeps
    | apply Keeps.foldl
    | intro _
    | apply Keeps.ite

theorem State.setDest_keeps {z : State} (s : State) (d : Nat) (x : TraceDest) (hk : Keeps z s) :
    Keeps z (State.setDest s d x) := by
  unfold State.setDest
  repeat' with_reducible first
    | (refine (Keeps.mk' ?_ (by omega) (by omega) rfl) <;>
       first | assumption)

theorem execObsSubscribe_keeps {z : State} (r : Req) (types rate : Nat) (s : State) (hk : Keeps z s) {u : State} (he : execObsSubscribe r types rate s = .next u) : Keeps z u := by
  unfold execObsSubscribe at he
  cases he
  try dsimp only [State.draw]
  repeat' with_reducible first
    | assumption
    | apply State.reply_keeps
    | apply State.request_keeps
    | apply State.setDest_keeps
    | intro _
    | split

theorem execObsUnsubscribe_keeps {z : State} (r : Req) (s : State) (hk : Keeps z s) {u : State} (he : execObsUnsubscribe r s = .next u) : Keeps z u := by
  unfold execObsUnsubscribe at he
  cases he
  repeat' with_reducible first
    | assumption
    | apply State.endSubscription_keeps
    | apply State.reply_keeps
    | apply State.request_keeps
    | intro _

theorem execTraceRecordProduced_keeps {z : State} (type source : Nat) (payload : List Byte) (s : State) (hk : Keeps z s) {u : State} (he : execTraceRecordProduced type source payload s = .next u) : Keeps z u := by
  unfold execTraceRecordProduced at he
  cases he
  repeat' with_reducible first
    | assumption
    | apply State.trace_keeps
    | apply Keeps.ite

theorem execTraceSyncInterval_keeps {z : State} (s : State) (hk : Keeps z s) {u : State} (he : execTraceSyncInterval s = .next u) : Keeps z u := by
  unfold execTraceSyncInterval at he
  cases he
  repeat' with_reducible first
    | apply State.at_keeps
    | apply Keeps.ite
    | (refine (Keeps.mk' ?_ (by omega) (by omega) rfl) <;>
       first | assumption | apply State.trace_keeps)

theorem execTraceLostRecord_keeps {z : State} (dest : Fin 5) (s : State) (hk : Keeps z s) {u : State} (he : execTraceLostRecord dest s = .next u) : Keeps z u := by
  unfold execTraceLostRecord at he
  cases he
  repeat' with_reducible first
    | assumption
    | apply State.traceLost_keeps
    | apply Keeps.ite

theorem execTraceSubscriptionSend_keeps {z : State} (dest : Fin 4) (count : Nat) (s : State) (hk : Keeps z s) {u : State} (he : execTraceSubscriptionSend dest count s = .next u) : Keeps z u := by
  unfold execTraceSubscriptionSend at he
  cases he
  try dsimp only [State.draw]
  repeat' with_reducible first
    | assumption
    | apply State.sendNmp_keeps
    | apply State.setDest_keeps
    | split

theorem State.idle_keeps {z : State} (s : State) (hk : Keeps z s) :
    Keeps z (State.idle s) := by
  unfold State.idle
  repeat' with_reducible first
    | apply State.drainPort_keeps
    | (refine (Keeps.mk' ?_ (by omega) (by omega) rfl) <;>
       first | assumption)

end Sys2Proof.Machine
end

