-- ==== Sys2Proof/Laws/Keeps/Dispatch.lean ====
section
/-! SUPPORT. What every operation of Machine/Dispatch.lean keeps. -/

namespace Sys2Proof.Machine

end Sys2Proof.Machine
end

