-- ==== Sys2Proof/Laws/Requests.lean ====
section
/-! SUPPORT. Requests: what State.request does with one that Negor takes, and what does not depend on the session's activity. -/

namespace Sys2Proof.Machine

theorem heard_only (s : State) (r : Req) : OnlyChanges [.sessions] [] s (s.heard r) := by
  unfold State.heard
  split
  · exact setSession_only s _ _
  · exact (OnlyChanges.refl s).mono (by simp) (by simp)

@[simp] theorem heard_rd (s : State) (r : Req) (id : Nat) : (s.heard r).rd id = s.rd id := (heard_only s r).2.2 id (by simp)

@[simp] theorem heard_pow (s : State) (r : Req) : (s.heard r).pow = s.pow := (heard_only s r).2.1 .pow (by simp)

@[simp] theorem heard_clock (s : State) (r : Req) : (s.heard r).clock = s.clock := (heard_only s r).2.1 .clock (by simp)

@[simp] theorem heard_cells (s : State) (r : Req) : (s.heard r).nmp.cells = s.nmp.cells := (heard_only s r).2.1 .cells (by simp)

@[simp] theorem heard_cell (s : State) (r : Req) (c : Nat) : (s.heard r).cell c = s.cell c := by
  simp [State.cell]

@[simp] theorem heard_owns (s : State) (r : Req) (k c : Nat) : (s.heard r).owns k c = s.owns k c := by
  simp [State.owns]

/-- The status that the global state gives a request does not depend on the sessions. -/
@[simp] theorem gate_setSession (s : State) (k : Nat) (x : Session) (op : Nat) : (s.setSession k x).gate op = s.gate op := rfl

/-- A request that Negor takes runs its body on the state in which its session has been active. -/
theorem request_of_takes {s : State} {r : Req} {op : Nat} (body : State → State) (h : s.takes r op) :
    s.request r op body = body (s.heard r) := by
  obtain ⟨ha, hs, hg⟩ := h
  obtain ⟨x, hx⟩ := Option.isSome_iff_exists.1 hs
  simp [State.request, State.heard, ha, hx, hg]

/-- A request that Negor does not answer changes nothing (R24). -/
theorem request_of_silent {s : State} {r : Req} {op : Nat} (body : State → State) (h : s.negorAnswers = false) :
    s.request r op body = s := by
  simp [State.request, h]

/-- A request on a session that is not open is dropped and counted (R65, reason 3). -/
theorem request_of_closed {s : State} {r : Req} {op : Nat} (body : State → State) (ha : s.negorAnswers = true)
    (hs : s.session r.sess = none) : s.request r op body = s.count (Sys.NMP_DROP_COUNT 3) := by
  simp [State.request, ha, hs]

/-- A request that the global state refuses gets the status of the state and has no effect (R27, R29). -/
theorem request_of_gated {s : State} {r : Req} {op : Nat} (body : State → State) (ha : s.negorAnswers = true)
    (hs : (s.session r.sess).isSome = true) (ht : s.turn r = true) (hg : s.gate op ≠ Status.OK) :
    s.request r op body = (s.heard r).reply r op (s.gate op) [] := by
  obtain ⟨x, hx⟩ := Option.isSome_iff_exists.1 hs
  simp [State.request, State.heard, ha, hx, ht, hg]

/-- A request before its turn in its session stays in flight, and nothing happens (R71). -/
theorem request_of_later {s : State} {r : Req} {op : Nat} (body : State → State) (hs : (s.session r.sess).isSome = true)
    (ht : s.turn r = false) : s.request r op body = s := by
  obtain ⟨x, hx⟩ := Option.isSome_iff_exists.1 hs
  simp [State.request, hx, ht]

end Sys2Proof.Machine
end

