-- ==== Sys2Proof/Laws/State.lean ====
section
/-! SUPPORT. One lemma for each field of the state under each update: what the update leaves there. -/

namespace Sys2Proof.Machine

variable (s : State)

/-! ## State.at -/

@[simp] theorem State.at_pending (due : Nat) : (s.at due).pending = s.pending := rfl
@[simp] theorem State.at_clock (due : Nat) : (s.at due).clock = max s.clock due := rfl
@[simp] theorem State.at_freeCtr (due : Nat) : (s.at due).freeCtr = s.freeCtr := rfl
@[simp] theorem State.at_out (due : Nat) : (s.at due).out = s.out := rfl
@[simp] theorem State.at_firings (due : Nat) : (s.at due).firings = s.firings := rfl
@[simp] theorem State.at_regs (due : Nat) : (s.at due).regs = s.regs := rfl
@[simp] theorem State.at_blobs (due : Nat) : (s.at due).blobs = s.blobs := rfl
@[simp] theorem State.at_pow (due : Nat) : (s.at due).pow = s.pow := rfl
@[simp] theorem State.at_time (due : Nat) : (s.at due).time = s.time := rfl
@[simp] theorem State.at_nmp (due : Nat) : (s.at due).nmp = s.nmp := rfl
@[simp] theorem State.at_therm (due : Nat) : (s.at due).therm = s.therm := rfl
@[simp] theorem State.at_obs (due : Nat) : (s.at due).obs = s.obs := rfl
@[simp] theorem State.at_lanes (due : Nat) : (s.at due).lanes = s.lanes := rfl
@[simp] theorem State.at_ports (due : Nat) : (s.at due).ports = s.ports := rfl
@[simp] theorem State.at_trigs (due : Nat) : (s.at due).trigs = s.trigs := rfl
@[simp] theorem State.at_ing (due : Nat) : (s.at due).ing = s.ing := rfl
@[simp] theorem State.at_tickets (due : Nat) : (s.at due).tickets = s.tickets := rfl
@[simp] theorem State.at_expo (due : Nat) : (s.at due).expo = s.expo := rfl
@[simp] theorem State.at_buses (due : Nat) : (s.at due).buses = s.buses := rfl
@[simp] theorem State.at_ctxs (due : Nat) : (s.at due).ctxs = s.ctxs := rfl
@[simp] theorem State.at_scene (due : Nat) : (s.at due).scene = s.scene := rfl
@[simp] theorem State.at_tick (due : Nat) : (s.at due).tick = s.tick := rfl
@[simp] theorem State.at_heads (due : Nat) : (s.at due).heads = s.heads := rfl
@[simp] theorem State.at_eths (due : Nat) : (s.at due).eths = s.eths := rfl
@[simp] theorem State.at_qps (due : Nat) : (s.at due).qps = s.qps := rfl
@[simp] theorem State.at_qpSerial (due : Nat) : (s.at due).qpSerial = s.qpSerial := rfl
@[simp] theorem State.at_streams (due : Nat) : (s.at due).streams = s.streams := rfl
@[simp] theorem State.at_ptp (due : Nat) : (s.at due).ptp = s.ptp := rfl
@[simp] theorem State.at_fsync (due : Nat) : (s.at due).fsync = s.fsync := rfl
@[simp] theorem State.at_ringPorts (due : Nat) : (s.at due).ringPorts = s.ringPorts := rfl
@[simp] theorem State.at_ring (due : Nat) : (s.at due).ring = s.ring := rfl
@[simp] theorem State.at_media (due : Nat) : (s.at due).media = s.media := rfl
@[simp] theorem State.at_auds (due : Nat) : (s.at due).auds = s.auds := rfl
@[simp] theorem State.at_families (due : Nat) : (s.at due).families = s.families := rfl
@[simp] theorem State.at_tgt (due : Nat) : (s.at due).tgt = s.tgt := rfl
@[simp] theorem State.at_dram (due : Nat) : (s.at due).dram = s.dram := rfl
@[simp] theorem State.at_fab (due : Nat) : (s.at due).fab = s.fab := rfl

/-! ## State.fire -/

@[simp] theorem State.fire_pending (src : Nat) : (s.fire src).pending = s.pending := rfl
@[simp] theorem State.fire_clock (src : Nat) : (s.fire src).clock = s.clock := rfl
@[simp] theorem State.fire_freeCtr (src : Nat) : (s.fire src).freeCtr = s.freeCtr := rfl
@[simp] theorem State.fire_out (src : Nat) : (s.fire src).out = s.out := rfl
@[simp] theorem State.fire_firings (src : Nat) : (s.fire src).firings = s.firings ++ [(src, s.clock)] := rfl
@[simp] theorem State.fire_regs (src : Nat) : (s.fire src).regs = s.regs := rfl
@[simp] theorem State.fire_blobs (src : Nat) : (s.fire src).blobs = s.blobs := rfl
@[simp] theorem State.fire_pow (src : Nat) : (s.fire src).pow = s.pow := rfl
@[simp] theorem State.fire_time (src : Nat) : (s.fire src).time = s.time := rfl
@[simp] theorem State.fire_nmp (src : Nat) : (s.fire src).nmp = s.nmp := rfl
@[simp] theorem State.fire_therm (src : Nat) : (s.fire src).therm = s.therm := rfl
@[simp] theorem State.fire_obs (src : Nat) : (s.fire src).obs = s.obs := rfl
@[simp] theorem State.fire_lanes (src : Nat) : (s.fire src).lanes = s.lanes := rfl
@[simp] theorem State.fire_ports (src : Nat) : (s.fire src).ports = s.ports := rfl
@[simp] theorem State.fire_trigs (src : Nat) : (s.fire src).trigs = s.trigs := rfl
@[simp] theorem State.fire_ing (src : Nat) : (s.fire src).ing = s.ing := rfl
@[simp] theorem State.fire_tickets (src : Nat) : (s.fire src).tickets = s.tickets := rfl
@[simp] theorem State.fire_expo (src : Nat) : (s.fire src).expo = s.expo := rfl
@[simp] theorem State.fire_buses (src : Nat) : (s.fire src).buses = s.buses := rfl
@[simp] theorem State.fire_ctxs (src : Nat) : (s.fire src).ctxs = s.ctxs := rfl
@[simp] theorem State.fire_scene (src : Nat) : (s.fire src).scene = s.scene := rfl
@[simp] theorem State.fire_tick (src : Nat) : (s.fire src).tick = s.tick := rfl
@[simp] theorem State.fire_heads (src : Nat) : (s.fire src).heads = s.heads := rfl
@[simp] theorem State.fire_eths (src : Nat) : (s.fire src).eths = s.eths := rfl
@[simp] theorem State.fire_qps (src : Nat) : (s.fire src).qps = s.qps := rfl
@[simp] theorem State.fire_qpSerial (src : Nat) : (s.fire src).qpSerial = s.qpSerial := rfl
@[simp] theorem State.fire_streams (src : Nat) : (s.fire src).streams = s.streams := rfl
@[simp] theorem State.fire_ptp (src : Nat) : (s.fire src).ptp = s.ptp := rfl
@[simp] theorem State.fire_fsync (src : Nat) : (s.fire src).fsync = s.fsync := rfl
@[simp] theorem State.fire_ringPorts (src : Nat) : (s.fire src).ringPorts = s.ringPorts := rfl
@[simp] theorem State.fire_ring (src : Nat) : (s.fire src).ring = s.ring := rfl
@[simp] theorem State.fire_media (src : Nat) : (s.fire src).media = s.media := rfl
@[simp] theorem State.fire_auds (src : Nat) : (s.fire src).auds = s.auds := rfl
@[simp] theorem State.fire_families (src : Nat) : (s.fire src).families = s.families := rfl
@[simp] theorem State.fire_tgt (src : Nat) : (s.fire src).tgt = s.tgt := rfl
@[simp] theorem State.fire_dram (src : Nat) : (s.fire src).dram = s.dram := rfl
@[simp] theorem State.fire_fab (src : Nat) : (s.fire src).fab = s.fab := rfl

/-! ## State.wrBlob -/

@[simp] theorem State.wrBlob_pending (id : Nat) (b : List Byte) : (s.wrBlob id b).pending = s.pending := rfl
@[simp] theorem State.wrBlob_clock (id : Nat) (b : List Byte) : (s.wrBlob id b).clock = s.clock := rfl
@[simp] theorem State.wrBlob_freeCtr (id : Nat) (b : List Byte) : (s.wrBlob id b).freeCtr = s.freeCtr := rfl
@[simp] theorem State.wrBlob_out (id : Nat) (b : List Byte) : (s.wrBlob id b).out = s.out := rfl
@[simp] theorem State.wrBlob_firings (id : Nat) (b : List Byte) : (s.wrBlob id b).firings = s.firings := rfl
@[simp] theorem State.wrBlob_regs (id : Nat) (b : List Byte) : (s.wrBlob id b).regs = s.regs := rfl
@[simp] theorem State.wrBlob_blobs (id : Nat) (b : List Byte) : (s.wrBlob id b).blobs = tset s.blobs id (blobReset id) b := rfl
@[simp] theorem State.wrBlob_pow (id : Nat) (b : List Byte) : (s.wrBlob id b).pow = s.pow := rfl
@[simp] theorem State.wrBlob_time (id : Nat) (b : List Byte) : (s.wrBlob id b).time = s.time := rfl
@[simp] theorem State.wrBlob_nmp (id : Nat) (b : List Byte) : (s.wrBlob id b).nmp = s.nmp := rfl
@[simp] theorem State.wrBlob_therm (id : Nat) (b : List Byte) : (s.wrBlob id b).therm = s.therm := rfl
@[simp] theorem State.wrBlob_obs (id : Nat) (b : List Byte) : (s.wrBlob id b).obs = s.obs := rfl
@[simp] theorem State.wrBlob_lanes (id : Nat) (b : List Byte) : (s.wrBlob id b).lanes = s.lanes := rfl
@[simp] theorem State.wrBlob_ports (id : Nat) (b : List Byte) : (s.wrBlob id b).ports = s.ports := rfl
@[simp] theorem State.wrBlob_trigs (id : Nat) (b : List Byte) : (s.wrBlob id b).trigs = s.trigs := rfl
@[simp] theorem State.wrBlob_ing (id : Nat) (b : List Byte) : (s.wrBlob id b).ing = s.ing := rfl
@[simp] theorem State.wrBlob_tickets (id : Nat) (b : List Byte) : (s.wrBlob id b).tickets = s.tickets := rfl
@[simp] theorem State.wrBlob_expo (id : Nat) (b : List Byte) : (s.wrBlob id b).expo = s.expo := rfl
@[simp] theorem State.wrBlob_buses (id : Nat) (b : List Byte) : (s.wrBlob id b).buses = s.buses := rfl
@[simp] theorem State.wrBlob_ctxs (id : Nat) (b : List Byte) : (s.wrBlob id b).ctxs = s.ctxs := rfl
@[simp] theorem State.wrBlob_scene (id : Nat) (b : List Byte) : (s.wrBlob id b).scene = s.scene := rfl
@[simp] theorem State.wrBlob_tick (id : Nat) (b : List Byte) : (s.wrBlob id b).tick = s.tick := rfl
@[simp] theorem State.wrBlob_heads (id : Nat) (b : List Byte) : (s.wrBlob id b).heads = s.heads := rfl
@[simp] theorem State.wrBlob_eths (id : Nat) (b : List Byte) : (s.wrBlob id b).eths = s.eths := rfl
@[simp] theorem State.wrBlob_qps (id : Nat) (b : List Byte) : (s.wrBlob id b).qps = s.qps := rfl
@[simp] theorem State.wrBlob_qpSerial (id : Nat) (b : List Byte) : (s.wrBlob id b).qpSerial = s.qpSerial := rfl
@[simp] theorem State.wrBlob_streams (id : Nat) (b : List Byte) : (s.wrBlob id b).streams = s.streams := rfl
@[simp] theorem State.wrBlob_ptp (id : Nat) (b : List Byte) : (s.wrBlob id b).ptp = s.ptp := rfl
@[simp] theorem State.wrBlob_fsync (id : Nat) (b : List Byte) : (s.wrBlob id b).fsync = s.fsync := rfl
@[simp] theorem State.wrBlob_ringPorts (id : Nat) (b : List Byte) : (s.wrBlob id b).ringPorts = s.ringPorts := rfl
@[simp] theorem State.wrBlob_ring (id : Nat) (b : List Byte) : (s.wrBlob id b).ring = s.ring := rfl
@[simp] theorem State.wrBlob_media (id : Nat) (b : List Byte) : (s.wrBlob id b).media = s.media := rfl
@[simp] theorem State.wrBlob_auds (id : Nat) (b : List Byte) : (s.wrBlob id b).auds = s.auds := rfl
@[simp] theorem State.wrBlob_families (id : Nat) (b : List Byte) : (s.wrBlob id b).families = s.families := rfl
@[simp] theorem State.wrBlob_tgt (id : Nat) (b : List Byte) : (s.wrBlob id b).tgt = s.tgt := rfl
@[simp] theorem State.wrBlob_dram (id : Nat) (b : List Byte) : (s.wrBlob id b).dram = s.dram := rfl
@[simp] theorem State.wrBlob_fab (id : Nat) (b : List Byte) : (s.wrBlob id b).fab = s.fab := rfl

/-! ## State.setLane -/

@[simp] theorem State.setLane_pending (k : Nat) (x : LaneSt) : (s.setLane k x).pending = s.pending := rfl
@[simp] theorem State.setLane_clock (k : Nat) (x : LaneSt) : (s.setLane k x).clock = s.clock := rfl
@[simp] theorem State.setLane_freeCtr (k : Nat) (x : LaneSt) : (s.setLane k x).freeCtr = s.freeCtr := rfl
@[simp] theorem State.setLane_out (k : Nat) (x : LaneSt) : (s.setLane k x).out = s.out := rfl
@[simp] theorem State.setLane_firings (k : Nat) (x : LaneSt) : (s.setLane k x).firings = s.firings := rfl
@[simp] theorem State.setLane_regs (k : Nat) (x : LaneSt) : (s.setLane k x).regs = s.regs := rfl
@[simp] theorem State.setLane_blobs (k : Nat) (x : LaneSt) : (s.setLane k x).blobs = s.blobs := rfl
@[simp] theorem State.setLane_pow (k : Nat) (x : LaneSt) : (s.setLane k x).pow = s.pow := rfl
@[simp] theorem State.setLane_time (k : Nat) (x : LaneSt) : (s.setLane k x).time = s.time := rfl
@[simp] theorem State.setLane_nmp (k : Nat) (x : LaneSt) : (s.setLane k x).nmp = s.nmp := rfl
@[simp] theorem State.setLane_therm (k : Nat) (x : LaneSt) : (s.setLane k x).therm = s.therm := rfl
@[simp] theorem State.setLane_obs (k : Nat) (x : LaneSt) : (s.setLane k x).obs = s.obs := rfl
@[simp] theorem State.setLane_lanes (k : Nat) (x : LaneSt) : (s.setLane k x).lanes = tset s.lanes k {} x := rfl
@[simp] theorem State.setLane_ports (k : Nat) (x : LaneSt) : (s.setLane k x).ports = s.ports := rfl
@[simp] theorem State.setLane_trigs (k : Nat) (x : LaneSt) : (s.setLane k x).trigs = s.trigs := rfl
@[simp] theorem State.setLane_ing (k : Nat) (x : LaneSt) : (s.setLane k x).ing = s.ing := rfl
@[simp] theorem State.setLane_tickets (k : Nat) (x : LaneSt) : (s.setLane k x).tickets = s.tickets := rfl
@[simp] theorem State.setLane_expo (k : Nat) (x : LaneSt) : (s.setLane k x).expo = s.expo := rfl
@[simp] theorem State.setLane_buses (k : Nat) (x : LaneSt) : (s.setLane k x).buses = s.buses := rfl
@[simp] theorem State.setLane_ctxs (k : Nat) (x : LaneSt) : (s.setLane k x).ctxs = s.ctxs := rfl
@[simp] theorem State.setLane_scene (k : Nat) (x : LaneSt) : (s.setLane k x).scene = s.scene := rfl
@[simp] theorem State.setLane_tick (k : Nat) (x : LaneSt) : (s.setLane k x).tick = s.tick := rfl
@[simp] theorem State.setLane_heads (k : Nat) (x : LaneSt) : (s.setLane k x).heads = s.heads := rfl
@[simp] theorem State.setLane_eths (k : Nat) (x : LaneSt) : (s.setLane k x).eths = s.eths := rfl
@[simp] theorem State.setLane_qps (k : Nat) (x : LaneSt) : (s.setLane k x).qps = s.qps := rfl
@[simp] theorem State.setLane_qpSerial (k : Nat) (x : LaneSt) : (s.setLane k x).qpSerial = s.qpSerial := rfl
@[simp] theorem State.setLane_streams (k : Nat) (x : LaneSt) : (s.setLane k x).streams = s.streams := rfl
@[simp] theorem State.setLane_ptp (k : Nat) (x : LaneSt) : (s.setLane k x).ptp = s.ptp := rfl
@[simp] theorem State.setLane_fsync (k : Nat) (x : LaneSt) : (s.setLane k x).fsync = s.fsync := rfl
@[simp] theorem State.setLane_ringPorts (k : Nat) (x : LaneSt) : (s.setLane k x).ringPorts = s.ringPorts := rfl
@[simp] theorem State.setLane_ring (k : Nat) (x : LaneSt) : (s.setLane k x).ring = s.ring := rfl
@[simp] theorem State.setLane_media (k : Nat) (x : LaneSt) : (s.setLane k x).media = s.media := rfl
@[simp] theorem State.setLane_auds (k : Nat) (x : LaneSt) : (s.setLane k x).auds = s.auds := rfl
@[simp] theorem State.setLane_families (k : Nat) (x : LaneSt) : (s.setLane k x).families = s.families := rfl
@[simp] theorem State.setLane_tgt (k : Nat) (x : LaneSt) : (s.setLane k x).tgt = s.tgt := rfl
@[simp] theorem State.setLane_dram (k : Nat) (x : LaneSt) : (s.setLane k x).dram = s.dram := rfl
@[simp] theorem State.setLane_fab (k : Nat) (x : LaneSt) : (s.setLane k x).fab = s.fab := rfl

/-! ## State.setPort -/

@[simp] theorem State.setPort_pending (k : Nat) (x : PortSt) : (s.setPort k x).pending = s.pending := rfl
@[simp] theorem State.setPort_clock (k : Nat) (x : PortSt) : (s.setPort k x).clock = s.clock := rfl
@[simp] theorem State.setPort_freeCtr (k : Nat) (x : PortSt) : (s.setPort k x).freeCtr = s.freeCtr := rfl
@[simp] theorem State.setPort_out (k : Nat) (x : PortSt) : (s.setPort k x).out = s.out := rfl
@[simp] theorem State.setPort_firings (k : Nat) (x : PortSt) : (s.setPort k x).firings = s.firings := rfl
@[simp] theorem State.setPort_regs (k : Nat) (x : PortSt) : (s.setPort k x).regs = s.regs := rfl
@[simp] theorem State.setPort_blobs (k : Nat) (x : PortSt) : (s.setPort k x).blobs = s.blobs := rfl
@[simp] theorem State.setPort_pow (k : Nat) (x : PortSt) : (s.setPort k x).pow = s.pow := rfl
@[simp] theorem State.setPort_time (k : Nat) (x : PortSt) : (s.setPort k x).time = s.time := rfl
@[simp] theorem State.setPort_nmp (k : Nat) (x : PortSt) : (s.setPort k x).nmp = s.nmp := rfl
@[simp] theorem State.setPort_therm (k : Nat) (x : PortSt) : (s.setPort k x).therm = s.therm := rfl
@[simp] theorem State.setPort_obs (k : Nat) (x : PortSt) : (s.setPort k x).obs = s.obs := rfl
@[simp] theorem State.setPort_lanes (k : Nat) (x : PortSt) : (s.setPort k x).lanes = s.lanes := rfl
@[simp] theorem State.setPort_ports (k : Nat) (x : PortSt) : (s.setPort k x).ports = tset s.ports k {} x := rfl
@[simp] theorem State.setPort_trigs (k : Nat) (x : PortSt) : (s.setPort k x).trigs = s.trigs := rfl
@[simp] theorem State.setPort_ing (k : Nat) (x : PortSt) : (s.setPort k x).ing = s.ing := rfl
@[simp] theorem State.setPort_tickets (k : Nat) (x : PortSt) : (s.setPort k x).tickets = s.tickets := rfl
@[simp] theorem State.setPort_expo (k : Nat) (x : PortSt) : (s.setPort k x).expo = s.expo := rfl
@[simp] theorem State.setPort_buses (k : Nat) (x : PortSt) : (s.setPort k x).buses = s.buses := rfl
@[simp] theorem State.setPort_ctxs (k : Nat) (x : PortSt) : (s.setPort k x).ctxs = s.ctxs := rfl
@[simp] theorem State.setPort_scene (k : Nat) (x : PortSt) : (s.setPort k x).scene = s.scene := rfl
@[simp] theorem State.setPort_tick (k : Nat) (x : PortSt) : (s.setPort k x).tick = s.tick := rfl
@[simp] theorem State.setPort_heads (k : Nat) (x : PortSt) : (s.setPort k x).heads = s.heads := rfl
@[simp] theorem State.setPort_eths (k : Nat) (x : PortSt) : (s.setPort k x).eths = s.eths := rfl
@[simp] theorem State.setPort_qps (k : Nat) (x : PortSt) : (s.setPort k x).qps = s.qps := rfl
@[simp] theorem State.setPort_qpSerial (k : Nat) (x : PortSt) : (s.setPort k x).qpSerial = s.qpSerial := rfl
@[simp] theorem State.setPort_streams (k : Nat) (x : PortSt) : (s.setPort k x).streams = s.streams := rfl
@[simp] theorem State.setPort_ptp (k : Nat) (x : PortSt) : (s.setPort k x).ptp = s.ptp := rfl
@[simp] theorem State.setPort_fsync (k : Nat) (x : PortSt) : (s.setPort k x).fsync = s.fsync := rfl
@[simp] theorem State.setPort_ringPorts (k : Nat) (x : PortSt) : (s.setPort k x).ringPorts = s.ringPorts := rfl
@[simp] theorem State.setPort_ring (k : Nat) (x : PortSt) : (s.setPort k x).ring = s.ring := rfl
@[simp] theorem State.setPort_media (k : Nat) (x : PortSt) : (s.setPort k x).media = s.media := rfl
@[simp] theorem State.setPort_auds (k : Nat) (x : PortSt) : (s.setPort k x).auds = s.auds := rfl
@[simp] theorem State.setPort_families (k : Nat) (x : PortSt) : (s.setPort k x).families = s.families := rfl
@[simp] theorem State.setPort_tgt (k : Nat) (x : PortSt) : (s.setPort k x).tgt = s.tgt := rfl
@[simp] theorem State.setPort_dram (k : Nat) (x : PortSt) : (s.setPort k x).dram = s.dram := rfl
@[simp] theorem State.setPort_fab (k : Nat) (x : PortSt) : (s.setPort k x).fab = s.fab := rfl

/-! ## State.setTrig -/

@[simp] theorem State.setTrig_pending (k : Nat) (x : TrigSt) : (s.setTrig k x).pending = s.pending := rfl
@[simp] theorem State.setTrig_clock (k : Nat) (x : TrigSt) : (s.setTrig k x).clock = s.clock := rfl
@[simp] theorem State.setTrig_freeCtr (k : Nat) (x : TrigSt) : (s.setTrig k x).freeCtr = s.freeCtr := rfl
@[simp] theorem State.setTrig_out (k : Nat) (x : TrigSt) : (s.setTrig k x).out = s.out := rfl
@[simp] theorem State.setTrig_firings (k : Nat) (x : TrigSt) : (s.setTrig k x).firings = s.firings := rfl
@[simp] theorem State.setTrig_regs (k : Nat) (x : TrigSt) : (s.setTrig k x).regs = s.regs := rfl
@[simp] theorem State.setTrig_blobs (k : Nat) (x : TrigSt) : (s.setTrig k x).blobs = s.blobs := rfl
@[simp] theorem State.setTrig_pow (k : Nat) (x : TrigSt) : (s.setTrig k x).pow = s.pow := rfl
@[simp] theorem State.setTrig_time (k : Nat) (x : TrigSt) : (s.setTrig k x).time = s.time := rfl
@[simp] theorem State.setTrig_nmp (k : Nat) (x : TrigSt) : (s.setTrig k x).nmp = s.nmp := rfl
@[simp] theorem State.setTrig_therm (k : Nat) (x : TrigSt) : (s.setTrig k x).therm = s.therm := rfl
@[simp] theorem State.setTrig_obs (k : Nat) (x : TrigSt) : (s.setTrig k x).obs = s.obs := rfl
@[simp] theorem State.setTrig_lanes (k : Nat) (x : TrigSt) : (s.setTrig k x).lanes = s.lanes := rfl
@[simp] theorem State.setTrig_ports (k : Nat) (x : TrigSt) : (s.setTrig k x).ports = s.ports := rfl
@[simp] theorem State.setTrig_trigs (k : Nat) (x : TrigSt) : (s.setTrig k x).trigs = tset s.trigs k {} x := rfl
@[simp] theorem State.setTrig_ing (k : Nat) (x : TrigSt) : (s.setTrig k x).ing = s.ing := rfl
@[simp] theorem State.setTrig_tickets (k : Nat) (x : TrigSt) : (s.setTrig k x).tickets = s.tickets := rfl
@[simp] theorem State.setTrig_expo (k : Nat) (x : TrigSt) : (s.setTrig k x).expo = s.expo := rfl
@[simp] theorem State.setTrig_buses (k : Nat) (x : TrigSt) : (s.setTrig k x).buses = s.buses := rfl
@[simp] theorem State.setTrig_ctxs (k : Nat) (x : TrigSt) : (s.setTrig k x).ctxs = s.ctxs := rfl
@[simp] theorem State.setTrig_scene (k : Nat) (x : TrigSt) : (s.setTrig k x).scene = s.scene := rfl
@[simp] theorem State.setTrig_tick (k : Nat) (x : TrigSt) : (s.setTrig k x).tick = s.tick := rfl
@[simp] theorem State.setTrig_heads (k : Nat) (x : TrigSt) : (s.setTrig k x).heads = s.heads := rfl
@[simp] theorem State.setTrig_eths (k : Nat) (x : TrigSt) : (s.setTrig k x).eths = s.eths := rfl
@[simp] theorem State.setTrig_qps (k : Nat) (x : TrigSt) : (s.setTrig k x).qps = s.qps := rfl
@[simp] theorem State.setTrig_qpSerial (k : Nat) (x : TrigSt) : (s.setTrig k x).qpSerial = s.qpSerial := rfl
@[simp] theorem State.setTrig_streams (k : Nat) (x : TrigSt) : (s.setTrig k x).streams = s.streams := rfl
@[simp] theorem State.setTrig_ptp (k : Nat) (x : TrigSt) : (s.setTrig k x).ptp = s.ptp := rfl
@[simp] theorem State.setTrig_fsync (k : Nat) (x : TrigSt) : (s.setTrig k x).fsync = s.fsync := rfl
@[simp] theorem State.setTrig_ringPorts (k : Nat) (x : TrigSt) : (s.setTrig k x).ringPorts = s.ringPorts := rfl
@[simp] theorem State.setTrig_ring (k : Nat) (x : TrigSt) : (s.setTrig k x).ring = s.ring := rfl
@[simp] theorem State.setTrig_media (k : Nat) (x : TrigSt) : (s.setTrig k x).media = s.media := rfl
@[simp] theorem State.setTrig_auds (k : Nat) (x : TrigSt) : (s.setTrig k x).auds = s.auds := rfl
@[simp] theorem State.setTrig_families (k : Nat) (x : TrigSt) : (s.setTrig k x).families = s.families := rfl
@[simp] theorem State.setTrig_tgt (k : Nat) (x : TrigSt) : (s.setTrig k x).tgt = s.tgt := rfl
@[simp] theorem State.setTrig_dram (k : Nat) (x : TrigSt) : (s.setTrig k x).dram = s.dram := rfl
@[simp] theorem State.setTrig_fab (k : Nat) (x : TrigSt) : (s.setTrig k x).fab = s.fab := rfl

/-! ## State.setIngest -/

@[simp] theorem State.setIngest_pending (k : Nat) (x : IngSt) : (s.setIngest k x).pending = s.pending := rfl
@[simp] theorem State.setIngest_clock (k : Nat) (x : IngSt) : (s.setIngest k x).clock = s.clock := rfl
@[simp] theorem State.setIngest_freeCtr (k : Nat) (x : IngSt) : (s.setIngest k x).freeCtr = s.freeCtr := rfl
@[simp] theorem State.setIngest_out (k : Nat) (x : IngSt) : (s.setIngest k x).out = s.out := rfl
@[simp] theorem State.setIngest_firings (k : Nat) (x : IngSt) : (s.setIngest k x).firings = s.firings := rfl
@[simp] theorem State.setIngest_regs (k : Nat) (x : IngSt) : (s.setIngest k x).regs = s.regs := rfl
@[simp] theorem State.setIngest_blobs (k : Nat) (x : IngSt) : (s.setIngest k x).blobs = s.blobs := rfl
@[simp] theorem State.setIngest_pow (k : Nat) (x : IngSt) : (s.setIngest k x).pow = s.pow := rfl
@[simp] theorem State.setIngest_time (k : Nat) (x : IngSt) : (s.setIngest k x).time = s.time := rfl
@[simp] theorem State.setIngest_nmp (k : Nat) (x : IngSt) : (s.setIngest k x).nmp = s.nmp := rfl
@[simp] theorem State.setIngest_therm (k : Nat) (x : IngSt) : (s.setIngest k x).therm = s.therm := rfl
@[simp] theorem State.setIngest_obs (k : Nat) (x : IngSt) : (s.setIngest k x).obs = s.obs := rfl
@[simp] theorem State.setIngest_lanes (k : Nat) (x : IngSt) : (s.setIngest k x).lanes = s.lanes := rfl
@[simp] theorem State.setIngest_ports (k : Nat) (x : IngSt) : (s.setIngest k x).ports = s.ports := rfl
@[simp] theorem State.setIngest_trigs (k : Nat) (x : IngSt) : (s.setIngest k x).trigs = s.trigs := rfl
@[simp] theorem State.setIngest_ing (k : Nat) (x : IngSt) : (s.setIngest k x).ing = tset s.ing k {} x := rfl
@[simp] theorem State.setIngest_tickets (k : Nat) (x : IngSt) : (s.setIngest k x).tickets = s.tickets := rfl
@[simp] theorem State.setIngest_expo (k : Nat) (x : IngSt) : (s.setIngest k x).expo = s.expo := rfl
@[simp] theorem State.setIngest_buses (k : Nat) (x : IngSt) : (s.setIngest k x).buses = s.buses := rfl
@[simp] theorem State.setIngest_ctxs (k : Nat) (x : IngSt) : (s.setIngest k x).ctxs = s.ctxs := rfl
@[simp] theorem State.setIngest_scene (k : Nat) (x : IngSt) : (s.setIngest k x).scene = s.scene := rfl
@[simp] theorem State.setIngest_tick (k : Nat) (x : IngSt) : (s.setIngest k x).tick = s.tick := rfl
@[simp] theorem State.setIngest_heads (k : Nat) (x : IngSt) : (s.setIngest k x).heads = s.heads := rfl
@[simp] theorem State.setIngest_eths (k : Nat) (x : IngSt) : (s.setIngest k x).eths = s.eths := rfl
@[simp] theorem State.setIngest_qps (k : Nat) (x : IngSt) : (s.setIngest k x).qps = s.qps := rfl
@[simp] theorem State.setIngest_qpSerial (k : Nat) (x : IngSt) : (s.setIngest k x).qpSerial = s.qpSerial := rfl
@[simp] theorem State.setIngest_streams (k : Nat) (x : IngSt) : (s.setIngest k x).streams = s.streams := rfl
@[simp] theorem State.setIngest_ptp (k : Nat) (x : IngSt) : (s.setIngest k x).ptp = s.ptp := rfl
@[simp] theorem State.setIngest_fsync (k : Nat) (x : IngSt) : (s.setIngest k x).fsync = s.fsync := rfl
@[simp] theorem State.setIngest_ringPorts (k : Nat) (x : IngSt) : (s.setIngest k x).ringPorts = s.ringPorts := rfl
@[simp] theorem State.setIngest_ring (k : Nat) (x : IngSt) : (s.setIngest k x).ring = s.ring := rfl
@[simp] theorem State.setIngest_media (k : Nat) (x : IngSt) : (s.setIngest k x).media = s.media := rfl
@[simp] theorem State.setIngest_auds (k : Nat) (x : IngSt) : (s.setIngest k x).auds = s.auds := rfl
@[simp] theorem State.setIngest_families (k : Nat) (x : IngSt) : (s.setIngest k x).families = s.families := rfl
@[simp] theorem State.setIngest_tgt (k : Nat) (x : IngSt) : (s.setIngest k x).tgt = s.tgt := rfl
@[simp] theorem State.setIngest_dram (k : Nat) (x : IngSt) : (s.setIngest k x).dram = s.dram := rfl
@[simp] theorem State.setIngest_fab (k : Nat) (x : IngSt) : (s.setIngest k x).fab = s.fab := rfl

/-! ## State.setTicketing -/

@[simp] theorem State.setTicketing_pending (k : Nat) (x : TicketSt) : (s.setTicketing k x).pending = s.pending := rfl
@[simp] theorem State.setTicketing_clock (k : Nat) (x : TicketSt) : (s.setTicketing k x).clock = s.clock := rfl
@[simp] theorem State.setTicketing_freeCtr (k : Nat) (x : TicketSt) : (s.setTicketing k x).freeCtr = s.freeCtr := rfl
@[simp] theorem State.setTicketing_out (k : Nat) (x : TicketSt) : (s.setTicketing k x).out = s.out := rfl
@[simp] theorem State.setTicketing_firings (k : Nat) (x : TicketSt) : (s.setTicketing k x).firings = s.firings := rfl
@[simp] theorem State.setTicketing_regs (k : Nat) (x : TicketSt) : (s.setTicketing k x).regs = s.regs := rfl
@[simp] theorem State.setTicketing_blobs (k : Nat) (x : TicketSt) : (s.setTicketing k x).blobs = s.blobs := rfl
@[simp] theorem State.setTicketing_pow (k : Nat) (x : TicketSt) : (s.setTicketing k x).pow = s.pow := rfl
@[simp] theorem State.setTicketing_time (k : Nat) (x : TicketSt) : (s.setTicketing k x).time = s.time := rfl
@[simp] theorem State.setTicketing_nmp (k : Nat) (x : TicketSt) : (s.setTicketing k x).nmp = s.nmp := rfl
@[simp] theorem State.setTicketing_therm (k : Nat) (x : TicketSt) : (s.setTicketing k x).therm = s.therm := rfl
@[simp] theorem State.setTicketing_obs (k : Nat) (x : TicketSt) : (s.setTicketing k x).obs = s.obs := rfl
@[simp] theorem State.setTicketing_lanes (k : Nat) (x : TicketSt) : (s.setTicketing k x).lanes = s.lanes := rfl
@[simp] theorem State.setTicketing_ports (k : Nat) (x : TicketSt) : (s.setTicketing k x).ports = s.ports := rfl
@[simp] theorem State.setTicketing_trigs (k : Nat) (x : TicketSt) : (s.setTicketing k x).trigs = s.trigs := rfl
@[simp] theorem State.setTicketing_ing (k : Nat) (x : TicketSt) : (s.setTicketing k x).ing = s.ing := rfl
@[simp] theorem State.setTicketing_tickets (k : Nat) (x : TicketSt) : (s.setTicketing k x).tickets = tset s.tickets k {} x := rfl
@[simp] theorem State.setTicketing_expo (k : Nat) (x : TicketSt) : (s.setTicketing k x).expo = s.expo := rfl
@[simp] theorem State.setTicketing_buses (k : Nat) (x : TicketSt) : (s.setTicketing k x).buses = s.buses := rfl
@[simp] theorem State.setTicketing_ctxs (k : Nat) (x : TicketSt) : (s.setTicketing k x).ctxs = s.ctxs := rfl
@[simp] theorem State.setTicketing_scene (k : Nat) (x : TicketSt) : (s.setTicketing k x).scene = s.scene := rfl
@[simp] theorem State.setTicketing_tick (k : Nat) (x : TicketSt) : (s.setTicketing k x).tick = s.tick := rfl
@[simp] theorem State.setTicketing_heads (k : Nat) (x : TicketSt) : (s.setTicketing k x).heads = s.heads := rfl
@[simp] theorem State.setTicketing_eths (k : Nat) (x : TicketSt) : (s.setTicketing k x).eths = s.eths := rfl
@[simp] theorem State.setTicketing_qps (k : Nat) (x : TicketSt) : (s.setTicketing k x).qps = s.qps := rfl
@[simp] theorem State.setTicketing_qpSerial (k : Nat) (x : TicketSt) : (s.setTicketing k x).qpSerial = s.qpSerial := rfl
@[simp] theorem State.setTicketing_streams (k : Nat) (x : TicketSt) : (s.setTicketing k x).streams = s.streams := rfl
@[simp] theorem State.setTicketing_ptp (k : Nat) (x : TicketSt) : (s.setTicketing k x).ptp = s.ptp := rfl
@[simp] theorem State.setTicketing_fsync (k : Nat) (x : TicketSt) : (s.setTicketing k x).fsync = s.fsync := rfl
@[simp] theorem State.setTicketing_ringPorts (k : Nat) (x : TicketSt) : (s.setTicketing k x).ringPorts = s.ringPorts := rfl
@[simp] theorem State.setTicketing_ring (k : Nat) (x : TicketSt) : (s.setTicketing k x).ring = s.ring := rfl
@[simp] theorem State.setTicketing_media (k : Nat) (x : TicketSt) : (s.setTicketing k x).media = s.media := rfl
@[simp] theorem State.setTicketing_auds (k : Nat) (x : TicketSt) : (s.setTicketing k x).auds = s.auds := rfl
@[simp] theorem State.setTicketing_families (k : Nat) (x : TicketSt) : (s.setTicketing k x).families = s.families := rfl
@[simp] theorem State.setTicketing_tgt (k : Nat) (x : TicketSt) : (s.setTicketing k x).tgt = s.tgt := rfl
@[simp] theorem State.setTicketing_dram (k : Nat) (x : TicketSt) : (s.setTicketing k x).dram = s.dram := rfl
@[simp] theorem State.setTicketing_fab (k : Nat) (x : TicketSt) : (s.setTicketing k x).fab = s.fab := rfl

/-! ## State.setExposure -/

@[simp] theorem State.setExposure_pending (k : Nat) (x : ExpSt) : (s.setExposure k x).pending = s.pending := rfl
@[simp] theorem State.setExposure_clock (k : Nat) (x : ExpSt) : (s.setExposure k x).clock = s.clock := rfl
@[simp] theorem State.setExposure_freeCtr (k : Nat) (x : ExpSt) : (s.setExposure k x).freeCtr = s.freeCtr := rfl
@[simp] theorem State.setExposure_out (k : Nat) (x : ExpSt) : (s.setExposure k x).out = s.out := rfl
@[simp] theorem State.setExposure_firings (k : Nat) (x : ExpSt) : (s.setExposure k x).firings = s.firings := rfl
@[simp] theorem State.setExposure_regs (k : Nat) (x : ExpSt) : (s.setExposure k x).regs = s.regs := rfl
@[simp] theorem State.setExposure_blobs (k : Nat) (x : ExpSt) : (s.setExposure k x).blobs = s.blobs := rfl
@[simp] theorem State.setExposure_pow (k : Nat) (x : ExpSt) : (s.setExposure k x).pow = s.pow := rfl
@[simp] theorem State.setExposure_time (k : Nat) (x : ExpSt) : (s.setExposure k x).time = s.time := rfl
@[simp] theorem State.setExposure_nmp (k : Nat) (x : ExpSt) : (s.setExposure k x).nmp = s.nmp := rfl
@[simp] theorem State.setExposure_therm (k : Nat) (x : ExpSt) : (s.setExposure k x).therm = s.therm := rfl
@[simp] theorem State.setExposure_obs (k : Nat) (x : ExpSt) : (s.setExposure k x).obs = s.obs := rfl
@[simp] theorem State.setExposure_lanes (k : Nat) (x : ExpSt) : (s.setExposure k x).lanes = s.lanes := rfl
@[simp] theorem State.setExposure_ports (k : Nat) (x : ExpSt) : (s.setExposure k x).ports = s.ports := rfl
@[simp] theorem State.setExposure_trigs (k : Nat) (x : ExpSt) : (s.setExposure k x).trigs = s.trigs := rfl
@[simp] theorem State.setExposure_ing (k : Nat) (x : ExpSt) : (s.setExposure k x).ing = s.ing := rfl
@[simp] theorem State.setExposure_tickets (k : Nat) (x : ExpSt) : (s.setExposure k x).tickets = s.tickets := rfl
@[simp] theorem State.setExposure_expo (k : Nat) (x : ExpSt) : (s.setExposure k x).expo = tset s.expo k {} x := rfl
@[simp] theorem State.setExposure_buses (k : Nat) (x : ExpSt) : (s.setExposure k x).buses = s.buses := rfl
@[simp] theorem State.setExposure_ctxs (k : Nat) (x : ExpSt) : (s.setExposure k x).ctxs = s.ctxs := rfl
@[simp] theorem State.setExposure_scene (k : Nat) (x : ExpSt) : (s.setExposure k x).scene = s.scene := rfl
@[simp] theorem State.setExposure_tick (k : Nat) (x : ExpSt) : (s.setExposure k x).tick = s.tick := rfl
@[simp] theorem State.setExposure_heads (k : Nat) (x : ExpSt) : (s.setExposure k x).heads = s.heads := rfl
@[simp] theorem State.setExposure_eths (k : Nat) (x : ExpSt) : (s.setExposure k x).eths = s.eths := rfl
@[simp] theorem State.setExposure_qps (k : Nat) (x : ExpSt) : (s.setExposure k x).qps = s.qps := rfl
@[simp] theorem State.setExposure_qpSerial (k : Nat) (x : ExpSt) : (s.setExposure k x).qpSerial = s.qpSerial := rfl
@[simp] theorem State.setExposure_streams (k : Nat) (x : ExpSt) : (s.setExposure k x).streams = s.streams := rfl
@[simp] theorem State.setExposure_ptp (k : Nat) (x : ExpSt) : (s.setExposure k x).ptp = s.ptp := rfl
@[simp] theorem State.setExposure_fsync (k : Nat) (x : ExpSt) : (s.setExposure k x).fsync = s.fsync := rfl
@[simp] theorem State.setExposure_ringPorts (k : Nat) (x : ExpSt) : (s.setExposure k x).ringPorts = s.ringPorts := rfl
@[simp] theorem State.setExposure_ring (k : Nat) (x : ExpSt) : (s.setExposure k x).ring = s.ring := rfl
@[simp] theorem State.setExposure_media (k : Nat) (x : ExpSt) : (s.setExposure k x).media = s.media := rfl
@[simp] theorem State.setExposure_auds (k : Nat) (x : ExpSt) : (s.setExposure k x).auds = s.auds := rfl
@[simp] theorem State.setExposure_families (k : Nat) (x : ExpSt) : (s.setExposure k x).families = s.families := rfl
@[simp] theorem State.setExposure_tgt (k : Nat) (x : ExpSt) : (s.setExposure k x).tgt = s.tgt := rfl
@[simp] theorem State.setExposure_dram (k : Nat) (x : ExpSt) : (s.setExposure k x).dram = s.dram := rfl
@[simp] theorem State.setExposure_fab (k : Nat) (x : ExpSt) : (s.setExposure k x).fab = s.fab := rfl

/-! ## State.setBus -/

@[simp] theorem State.setBus_pending (k : Nat) (x : BusSt) : (s.setBus k x).pending = s.pending := rfl
@[simp] theorem State.setBus_clock (k : Nat) (x : BusSt) : (s.setBus k x).clock = s.clock := rfl
@[simp] theorem State.setBus_freeCtr (k : Nat) (x : BusSt) : (s.setBus k x).freeCtr = s.freeCtr := rfl
@[simp] theorem State.setBus_out (k : Nat) (x : BusSt) : (s.setBus k x).out = s.out := rfl
@[simp] theorem State.setBus_firings (k : Nat) (x : BusSt) : (s.setBus k x).firings = s.firings := rfl
@[simp] theorem State.setBus_regs (k : Nat) (x : BusSt) : (s.setBus k x).regs = s.regs := rfl
@[simp] theorem State.setBus_blobs (k : Nat) (x : BusSt) : (s.setBus k x).blobs = s.blobs := rfl
@[simp] theorem State.setBus_pow (k : Nat) (x : BusSt) : (s.setBus k x).pow = s.pow := rfl
@[simp] theorem State.setBus_time (k : Nat) (x : BusSt) : (s.setBus k x).time = s.time := rfl
@[simp] theorem State.setBus_nmp (k : Nat) (x : BusSt) : (s.setBus k x).nmp = s.nmp := rfl
@[simp] theorem State.setBus_therm (k : Nat) (x : BusSt) : (s.setBus k x).therm = s.therm := rfl
@[simp] theorem State.setBus_obs (k : Nat) (x : BusSt) : (s.setBus k x).obs = s.obs := rfl
@[simp] theorem State.setBus_lanes (k : Nat) (x : BusSt) : (s.setBus k x).lanes = s.lanes := rfl
@[simp] theorem State.setBus_ports (k : Nat) (x : BusSt) : (s.setBus k x).ports = s.ports := rfl
@[simp] theorem State.setBus_trigs (k : Nat) (x : BusSt) : (s.setBus k x).trigs = s.trigs := rfl
@[simp] theorem State.setBus_ing (k : Nat) (x : BusSt) : (s.setBus k x).ing = s.ing := rfl
@[simp] theorem State.setBus_tickets (k : Nat) (x : BusSt) : (s.setBus k x).tickets = s.tickets := rfl
@[simp] theorem State.setBus_expo (k : Nat) (x : BusSt) : (s.setBus k x).expo = s.expo := rfl
@[simp] theorem State.setBus_buses (k : Nat) (x : BusSt) : (s.setBus k x).buses = tset s.buses k {} x := rfl
@[simp] theorem State.setBus_ctxs (k : Nat) (x : BusSt) : (s.setBus k x).ctxs = s.ctxs := rfl
@[simp] theorem State.setBus_scene (k : Nat) (x : BusSt) : (s.setBus k x).scene = s.scene := rfl
@[simp] theorem State.setBus_tick (k : Nat) (x : BusSt) : (s.setBus k x).tick = s.tick := rfl
@[simp] theorem State.setBus_heads (k : Nat) (x : BusSt) : (s.setBus k x).heads = s.heads := rfl
@[simp] theorem State.setBus_eths (k : Nat) (x : BusSt) : (s.setBus k x).eths = s.eths := rfl
@[simp] theorem State.setBus_qps (k : Nat) (x : BusSt) : (s.setBus k x).qps = s.qps := rfl
@[simp] theorem State.setBus_qpSerial (k : Nat) (x : BusSt) : (s.setBus k x).qpSerial = s.qpSerial := rfl
@[simp] theorem State.setBus_streams (k : Nat) (x : BusSt) : (s.setBus k x).streams = s.streams := rfl
@[simp] theorem State.setBus_ptp (k : Nat) (x : BusSt) : (s.setBus k x).ptp = s.ptp := rfl
@[simp] theorem State.setBus_fsync (k : Nat) (x : BusSt) : (s.setBus k x).fsync = s.fsync := rfl
@[simp] theorem State.setBus_ringPorts (k : Nat) (x : BusSt) : (s.setBus k x).ringPorts = s.ringPorts := rfl
@[simp] theorem State.setBus_ring (k : Nat) (x : BusSt) : (s.setBus k x).ring = s.ring := rfl
@[simp] theorem State.setBus_media (k : Nat) (x : BusSt) : (s.setBus k x).media = s.media := rfl
@[simp] theorem State.setBus_auds (k : Nat) (x : BusSt) : (s.setBus k x).auds = s.auds := rfl
@[simp] theorem State.setBus_families (k : Nat) (x : BusSt) : (s.setBus k x).families = s.families := rfl
@[simp] theorem State.setBus_tgt (k : Nat) (x : BusSt) : (s.setBus k x).tgt = s.tgt := rfl
@[simp] theorem State.setBus_dram (k : Nat) (x : BusSt) : (s.setBus k x).dram = s.dram := rfl
@[simp] theorem State.setBus_fab (k : Nat) (x : BusSt) : (s.setBus k x).fab = s.fab := rfl

/-! ## State.setCtx -/

@[simp] theorem State.setCtx_pending (k : Nat) (x : CtxSt) : (s.setCtx k x).pending = s.pending := rfl
@[simp] theorem State.setCtx_clock (k : Nat) (x : CtxSt) : (s.setCtx k x).clock = s.clock := rfl
@[simp] theorem State.setCtx_freeCtr (k : Nat) (x : CtxSt) : (s.setCtx k x).freeCtr = s.freeCtr := rfl
@[simp] theorem State.setCtx_out (k : Nat) (x : CtxSt) : (s.setCtx k x).out = s.out := rfl
@[simp] theorem State.setCtx_firings (k : Nat) (x : CtxSt) : (s.setCtx k x).firings = s.firings := rfl
@[simp] theorem State.setCtx_regs (k : Nat) (x : CtxSt) : (s.setCtx k x).regs = s.regs := rfl
@[simp] theorem State.setCtx_blobs (k : Nat) (x : CtxSt) : (s.setCtx k x).blobs = s.blobs := rfl
@[simp] theorem State.setCtx_pow (k : Nat) (x : CtxSt) : (s.setCtx k x).pow = s.pow := rfl
@[simp] theorem State.setCtx_time (k : Nat) (x : CtxSt) : (s.setCtx k x).time = s.time := rfl
@[simp] theorem State.setCtx_nmp (k : Nat) (x : CtxSt) : (s.setCtx k x).nmp = s.nmp := rfl
@[simp] theorem State.setCtx_therm (k : Nat) (x : CtxSt) : (s.setCtx k x).therm = s.therm := rfl
@[simp] theorem State.setCtx_obs (k : Nat) (x : CtxSt) : (s.setCtx k x).obs = s.obs := rfl
@[simp] theorem State.setCtx_lanes (k : Nat) (x : CtxSt) : (s.setCtx k x).lanes = s.lanes := rfl
@[simp] theorem State.setCtx_ports (k : Nat) (x : CtxSt) : (s.setCtx k x).ports = s.ports := rfl
@[simp] theorem State.setCtx_trigs (k : Nat) (x : CtxSt) : (s.setCtx k x).trigs = s.trigs := rfl
@[simp] theorem State.setCtx_ing (k : Nat) (x : CtxSt) : (s.setCtx k x).ing = s.ing := rfl
@[simp] theorem State.setCtx_tickets (k : Nat) (x : CtxSt) : (s.setCtx k x).tickets = s.tickets := rfl
@[simp] theorem State.setCtx_expo (k : Nat) (x : CtxSt) : (s.setCtx k x).expo = s.expo := rfl
@[simp] theorem State.setCtx_buses (k : Nat) (x : CtxSt) : (s.setCtx k x).buses = s.buses := rfl
@[simp] theorem State.setCtx_ctxs (k : Nat) (x : CtxSt) : (s.setCtx k x).ctxs = tset s.ctxs k {} x := rfl
@[simp] theorem State.setCtx_scene (k : Nat) (x : CtxSt) : (s.setCtx k x).scene = s.scene := rfl
@[simp] theorem State.setCtx_tick (k : Nat) (x : CtxSt) : (s.setCtx k x).tick = s.tick := rfl
@[simp] theorem State.setCtx_heads (k : Nat) (x : CtxSt) : (s.setCtx k x).heads = s.heads := rfl
@[simp] theorem State.setCtx_eths (k : Nat) (x : CtxSt) : (s.setCtx k x).eths = s.eths := rfl
@[simp] theorem State.setCtx_qps (k : Nat) (x : CtxSt) : (s.setCtx k x).qps = s.qps := rfl
@[simp] theorem State.setCtx_qpSerial (k : Nat) (x : CtxSt) : (s.setCtx k x).qpSerial = s.qpSerial := rfl
@[simp] theorem State.setCtx_streams (k : Nat) (x : CtxSt) : (s.setCtx k x).streams = s.streams := rfl
@[simp] theorem State.setCtx_ptp (k : Nat) (x : CtxSt) : (s.setCtx k x).ptp = s.ptp := rfl
@[simp] theorem State.setCtx_fsync (k : Nat) (x : CtxSt) : (s.setCtx k x).fsync = s.fsync := rfl
@[simp] theorem State.setCtx_ringPorts (k : Nat) (x : CtxSt) : (s.setCtx k x).ringPorts = s.ringPorts := rfl
@[simp] theorem State.setCtx_ring (k : Nat) (x : CtxSt) : (s.setCtx k x).ring = s.ring := rfl
@[simp] theorem State.setCtx_media (k : Nat) (x : CtxSt) : (s.setCtx k x).media = s.media := rfl
@[simp] theorem State.setCtx_auds (k : Nat) (x : CtxSt) : (s.setCtx k x).auds = s.auds := rfl
@[simp] theorem State.setCtx_families (k : Nat) (x : CtxSt) : (s.setCtx k x).families = s.families := rfl
@[simp] theorem State.setCtx_tgt (k : Nat) (x : CtxSt) : (s.setCtx k x).tgt = s.tgt := rfl
@[simp] theorem State.setCtx_dram (k : Nat) (x : CtxSt) : (s.setCtx k x).dram = s.dram := rfl
@[simp] theorem State.setCtx_fab (k : Nat) (x : CtxSt) : (s.setCtx k x).fab = s.fab := rfl

/-! ## State.setHead -/

@[simp] theorem State.setHead_pending (k : Nat) (x : HeadSt) : (s.setHead k x).pending = s.pending := rfl
@[simp] theorem State.setHead_clock (k : Nat) (x : HeadSt) : (s.setHead k x).clock = s.clock := rfl
@[simp] theorem State.setHead_freeCtr (k : Nat) (x : HeadSt) : (s.setHead k x).freeCtr = s.freeCtr := rfl
@[simp] theorem State.setHead_out (k : Nat) (x : HeadSt) : (s.setHead k x).out = s.out := rfl
@[simp] theorem State.setHead_firings (k : Nat) (x : HeadSt) : (s.setHead k x).firings = s.firings := rfl
@[simp] theorem State.setHead_regs (k : Nat) (x : HeadSt) : (s.setHead k x).regs = s.regs := rfl
@[simp] theorem State.setHead_blobs (k : Nat) (x : HeadSt) : (s.setHead k x).blobs = s.blobs := rfl
@[simp] theorem State.setHead_pow (k : Nat) (x : HeadSt) : (s.setHead k x).pow = s.pow := rfl
@[simp] theorem State.setHead_time (k : Nat) (x : HeadSt) : (s.setHead k x).time = s.time := rfl
@[simp] theorem State.setHead_nmp (k : Nat) (x : HeadSt) : (s.setHead k x).nmp = s.nmp := rfl
@[simp] theorem State.setHead_therm (k : Nat) (x : HeadSt) : (s.setHead k x).therm = s.therm := rfl
@[simp] theorem State.setHead_obs (k : Nat) (x : HeadSt) : (s.setHead k x).obs = s.obs := rfl
@[simp] theorem State.setHead_lanes (k : Nat) (x : HeadSt) : (s.setHead k x).lanes = s.lanes := rfl
@[simp] theorem State.setHead_ports (k : Nat) (x : HeadSt) : (s.setHead k x).ports = s.ports := rfl
@[simp] theorem State.setHead_trigs (k : Nat) (x : HeadSt) : (s.setHead k x).trigs = s.trigs := rfl
@[simp] theorem State.setHead_ing (k : Nat) (x : HeadSt) : (s.setHead k x).ing = s.ing := rfl
@[simp] theorem State.setHead_tickets (k : Nat) (x : HeadSt) : (s.setHead k x).tickets = s.tickets := rfl
@[simp] theorem State.setHead_expo (k : Nat) (x : HeadSt) : (s.setHead k x).expo = s.expo := rfl
@[simp] theorem State.setHead_buses (k : Nat) (x : HeadSt) : (s.setHead k x).buses = s.buses := rfl
@[simp] theorem State.setHead_ctxs (k : Nat) (x : HeadSt) : (s.setHead k x).ctxs = s.ctxs := rfl
@[simp] theorem State.setHead_scene (k : Nat) (x : HeadSt) : (s.setHead k x).scene = s.scene := rfl
@[simp] theorem State.setHead_tick (k : Nat) (x : HeadSt) : (s.setHead k x).tick = s.tick := rfl
@[simp] theorem State.setHead_heads (k : Nat) (x : HeadSt) : (s.setHead k x).heads = tset s.heads k {} x := rfl
@[simp] theorem State.setHead_eths (k : Nat) (x : HeadSt) : (s.setHead k x).eths = s.eths := rfl
@[simp] theorem State.setHead_qps (k : Nat) (x : HeadSt) : (s.setHead k x).qps = s.qps := rfl
@[simp] theorem State.setHead_qpSerial (k : Nat) (x : HeadSt) : (s.setHead k x).qpSerial = s.qpSerial := rfl
@[simp] theorem State.setHead_streams (k : Nat) (x : HeadSt) : (s.setHead k x).streams = s.streams := rfl
@[simp] theorem State.setHead_ptp (k : Nat) (x : HeadSt) : (s.setHead k x).ptp = s.ptp := rfl
@[simp] theorem State.setHead_fsync (k : Nat) (x : HeadSt) : (s.setHead k x).fsync = s.fsync := rfl
@[simp] theorem State.setHead_ringPorts (k : Nat) (x : HeadSt) : (s.setHead k x).ringPorts = s.ringPorts := rfl
@[simp] theorem State.setHead_ring (k : Nat) (x : HeadSt) : (s.setHead k x).ring = s.ring := rfl
@[simp] theorem State.setHead_media (k : Nat) (x : HeadSt) : (s.setHead k x).media = s.media := rfl
@[simp] theorem State.setHead_auds (k : Nat) (x : HeadSt) : (s.setHead k x).auds = s.auds := rfl
@[simp] theorem State.setHead_families (k : Nat) (x : HeadSt) : (s.setHead k x).families = s.families := rfl
@[simp] theorem State.setHead_tgt (k : Nat) (x : HeadSt) : (s.setHead k x).tgt = s.tgt := rfl
@[simp] theorem State.setHead_dram (k : Nat) (x : HeadSt) : (s.setHead k x).dram = s.dram := rfl
@[simp] theorem State.setHead_fab (k : Nat) (x : HeadSt) : (s.setHead k x).fab = s.fab := rfl

/-! ## State.setEth -/

@[simp] theorem State.setEth_pending (k : Nat) (x : EthSt) : (s.setEth k x).pending = s.pending := rfl
@[simp] theorem State.setEth_clock (k : Nat) (x : EthSt) : (s.setEth k x).clock = s.clock := rfl
@[simp] theorem State.setEth_freeCtr (k : Nat) (x : EthSt) : (s.setEth k x).freeCtr = s.freeCtr := rfl
@[simp] theorem State.setEth_out (k : Nat) (x : EthSt) : (s.setEth k x).out = s.out := rfl
@[simp] theorem State.setEth_firings (k : Nat) (x : EthSt) : (s.setEth k x).firings = s.firings := rfl
@[simp] theorem State.setEth_regs (k : Nat) (x : EthSt) : (s.setEth k x).regs = s.regs := rfl
@[simp] theorem State.setEth_blobs (k : Nat) (x : EthSt) : (s.setEth k x).blobs = s.blobs := rfl
@[simp] theorem State.setEth_pow (k : Nat) (x : EthSt) : (s.setEth k x).pow = s.pow := rfl
@[simp] theorem State.setEth_time (k : Nat) (x : EthSt) : (s.setEth k x).time = s.time := rfl
@[simp] theorem State.setEth_nmp (k : Nat) (x : EthSt) : (s.setEth k x).nmp = s.nmp := rfl
@[simp] theorem State.setEth_therm (k : Nat) (x : EthSt) : (s.setEth k x).therm = s.therm := rfl
@[simp] theorem State.setEth_obs (k : Nat) (x : EthSt) : (s.setEth k x).obs = s.obs := rfl
@[simp] theorem State.setEth_lanes (k : Nat) (x : EthSt) : (s.setEth k x).lanes = s.lanes := rfl
@[simp] theorem State.setEth_ports (k : Nat) (x : EthSt) : (s.setEth k x).ports = s.ports := rfl
@[simp] theorem State.setEth_trigs (k : Nat) (x : EthSt) : (s.setEth k x).trigs = s.trigs := rfl
@[simp] theorem State.setEth_ing (k : Nat) (x : EthSt) : (s.setEth k x).ing = s.ing := rfl
@[simp] theorem State.setEth_tickets (k : Nat) (x : EthSt) : (s.setEth k x).tickets = s.tickets := rfl
@[simp] theorem State.setEth_expo (k : Nat) (x : EthSt) : (s.setEth k x).expo = s.expo := rfl
@[simp] theorem State.setEth_buses (k : Nat) (x : EthSt) : (s.setEth k x).buses = s.buses := rfl
@[simp] theorem State.setEth_ctxs (k : Nat) (x : EthSt) : (s.setEth k x).ctxs = s.ctxs := rfl
@[simp] theorem State.setEth_scene (k : Nat) (x : EthSt) : (s.setEth k x).scene = s.scene := rfl
@[simp] theorem State.setEth_tick (k : Nat) (x : EthSt) : (s.setEth k x).tick = s.tick := rfl
@[simp] theorem State.setEth_heads (k : Nat) (x : EthSt) : (s.setEth k x).heads = s.heads := rfl
@[simp] theorem State.setEth_eths (k : Nat) (x : EthSt) : (s.setEth k x).eths = tset s.eths k {} x := rfl
@[simp] theorem State.setEth_qps (k : Nat) (x : EthSt) : (s.setEth k x).qps = s.qps := rfl
@[simp] theorem State.setEth_qpSerial (k : Nat) (x : EthSt) : (s.setEth k x).qpSerial = s.qpSerial := rfl
@[simp] theorem State.setEth_streams (k : Nat) (x : EthSt) : (s.setEth k x).streams = s.streams := rfl
@[simp] theorem State.setEth_ptp (k : Nat) (x : EthSt) : (s.setEth k x).ptp = s.ptp := rfl
@[simp] theorem State.setEth_fsync (k : Nat) (x : EthSt) : (s.setEth k x).fsync = s.fsync := rfl
@[simp] theorem State.setEth_ringPorts (k : Nat) (x : EthSt) : (s.setEth k x).ringPorts = s.ringPorts := rfl
@[simp] theorem State.setEth_ring (k : Nat) (x : EthSt) : (s.setEth k x).ring = s.ring := rfl
@[simp] theorem State.setEth_media (k : Nat) (x : EthSt) : (s.setEth k x).media = s.media := rfl
@[simp] theorem State.setEth_auds (k : Nat) (x : EthSt) : (s.setEth k x).auds = s.auds := rfl
@[simp] theorem State.setEth_families (k : Nat) (x : EthSt) : (s.setEth k x).families = s.families := rfl
@[simp] theorem State.setEth_tgt (k : Nat) (x : EthSt) : (s.setEth k x).tgt = s.tgt := rfl
@[simp] theorem State.setEth_dram (k : Nat) (x : EthSt) : (s.setEth k x).dram = s.dram := rfl
@[simp] theorem State.setEth_fab (k : Nat) (x : EthSt) : (s.setEth k x).fab = s.fab := rfl

/-! ## State.setStream -/

@[simp] theorem State.setStream_pending (k : Nat) (x : StreamSt) : (s.setStream k x).pending = s.pending := rfl
@[simp] theorem State.setStream_clock (k : Nat) (x : StreamSt) : (s.setStream k x).clock = s.clock := rfl
@[simp] theorem State.setStream_freeCtr (k : Nat) (x : StreamSt) : (s.setStream k x).freeCtr = s.freeCtr := rfl
@[simp] theorem State.setStream_out (k : Nat) (x : StreamSt) : (s.setStream k x).out = s.out := rfl
@[simp] theorem State.setStream_firings (k : Nat) (x : StreamSt) : (s.setStream k x).firings = s.firings := rfl
@[simp] theorem State.setStream_regs (k : Nat) (x : StreamSt) : (s.setStream k x).regs = s.regs := rfl
@[simp] theorem State.setStream_blobs (k : Nat) (x : StreamSt) : (s.setStream k x).blobs = s.blobs := rfl
@[simp] theorem State.setStream_pow (k : Nat) (x : StreamSt) : (s.setStream k x).pow = s.pow := rfl
@[simp] theorem State.setStream_time (k : Nat) (x : StreamSt) : (s.setStream k x).time = s.time := rfl
@[simp] theorem State.setStream_nmp (k : Nat) (x : StreamSt) : (s.setStream k x).nmp = s.nmp := rfl
@[simp] theorem State.setStream_therm (k : Nat) (x : StreamSt) : (s.setStream k x).therm = s.therm := rfl
@[simp] theorem State.setStream_obs (k : Nat) (x : StreamSt) : (s.setStream k x).obs = s.obs := rfl
@[simp] theorem State.setStream_lanes (k : Nat) (x : StreamSt) : (s.setStream k x).lanes = s.lanes := rfl
@[simp] theorem State.setStream_ports (k : Nat) (x : StreamSt) : (s.setStream k x).ports = s.ports := rfl
@[simp] theorem State.setStream_trigs (k : Nat) (x : StreamSt) : (s.setStream k x).trigs = s.trigs := rfl
@[simp] theorem State.setStream_ing (k : Nat) (x : StreamSt) : (s.setStream k x).ing = s.ing := rfl
@[simp] theorem State.setStream_tickets (k : Nat) (x : StreamSt) : (s.setStream k x).tickets = s.tickets := rfl
@[simp] theorem State.setStream_expo (k : Nat) (x : StreamSt) : (s.setStream k x).expo = s.expo := rfl
@[simp] theorem State.setStream_buses (k : Nat) (x : StreamSt) : (s.setStream k x).buses = s.buses := rfl
@[simp] theorem State.setStream_ctxs (k : Nat) (x : StreamSt) : (s.setStream k x).ctxs = s.ctxs := rfl
@[simp] theorem State.setStream_scene (k : Nat) (x : StreamSt) : (s.setStream k x).scene = s.scene := rfl
@[simp] theorem State.setStream_tick (k : Nat) (x : StreamSt) : (s.setStream k x).tick = s.tick := rfl
@[simp] theorem State.setStream_heads (k : Nat) (x : StreamSt) : (s.setStream k x).heads = s.heads := rfl
@[simp] theorem State.setStream_eths (k : Nat) (x : StreamSt) : (s.setStream k x).eths = s.eths := rfl
@[simp] theorem State.setStream_qps (k : Nat) (x : StreamSt) : (s.setStream k x).qps = s.qps := rfl
@[simp] theorem State.setStream_qpSerial (k : Nat) (x : StreamSt) : (s.setStream k x).qpSerial = s.qpSerial := rfl
@[simp] theorem State.setStream_streams (k : Nat) (x : StreamSt) : (s.setStream k x).streams = tset s.streams k {} x := rfl
@[simp] theorem State.setStream_ptp (k : Nat) (x : StreamSt) : (s.setStream k x).ptp = s.ptp := rfl
@[simp] theorem State.setStream_fsync (k : Nat) (x : StreamSt) : (s.setStream k x).fsync = s.fsync := rfl
@[simp] theorem State.setStream_ringPorts (k : Nat) (x : StreamSt) : (s.setStream k x).ringPorts = s.ringPorts := rfl
@[simp] theorem State.setStream_ring (k : Nat) (x : StreamSt) : (s.setStream k x).ring = s.ring := rfl
@[simp] theorem State.setStream_media (k : Nat) (x : StreamSt) : (s.setStream k x).media = s.media := rfl
@[simp] theorem State.setStream_auds (k : Nat) (x : StreamSt) : (s.setStream k x).auds = s.auds := rfl
@[simp] theorem State.setStream_families (k : Nat) (x : StreamSt) : (s.setStream k x).families = s.families := rfl
@[simp] theorem State.setStream_tgt (k : Nat) (x : StreamSt) : (s.setStream k x).tgt = s.tgt := rfl
@[simp] theorem State.setStream_dram (k : Nat) (x : StreamSt) : (s.setStream k x).dram = s.dram := rfl
@[simp] theorem State.setStream_fab (k : Nat) (x : StreamSt) : (s.setStream k x).fab = s.fab := rfl

/-! ## State.setSync -/

@[simp] theorem State.setSync_pending (k : Nat) (x : FsyncSt) : (s.setSync k x).pending = s.pending := rfl
@[simp] theorem State.setSync_clock (k : Nat) (x : FsyncSt) : (s.setSync k x).clock = s.clock := rfl
@[simp] theorem State.setSync_freeCtr (k : Nat) (x : FsyncSt) : (s.setSync k x).freeCtr = s.freeCtr := rfl
@[simp] theorem State.setSync_out (k : Nat) (x : FsyncSt) : (s.setSync k x).out = s.out := rfl
@[simp] theorem State.setSync_firings (k : Nat) (x : FsyncSt) : (s.setSync k x).firings = s.firings := rfl
@[simp] theorem State.setSync_regs (k : Nat) (x : FsyncSt) : (s.setSync k x).regs = s.regs := rfl
@[simp] theorem State.setSync_blobs (k : Nat) (x : FsyncSt) : (s.setSync k x).blobs = s.blobs := rfl
@[simp] theorem State.setSync_pow (k : Nat) (x : FsyncSt) : (s.setSync k x).pow = s.pow := rfl
@[simp] theorem State.setSync_time (k : Nat) (x : FsyncSt) : (s.setSync k x).time = s.time := rfl
@[simp] theorem State.setSync_nmp (k : Nat) (x : FsyncSt) : (s.setSync k x).nmp = s.nmp := rfl
@[simp] theorem State.setSync_therm (k : Nat) (x : FsyncSt) : (s.setSync k x).therm = s.therm := rfl
@[simp] theorem State.setSync_obs (k : Nat) (x : FsyncSt) : (s.setSync k x).obs = s.obs := rfl
@[simp] theorem State.setSync_lanes (k : Nat) (x : FsyncSt) : (s.setSync k x).lanes = s.lanes := rfl
@[simp] theorem State.setSync_ports (k : Nat) (x : FsyncSt) : (s.setSync k x).ports = s.ports := rfl
@[simp] theorem State.setSync_trigs (k : Nat) (x : FsyncSt) : (s.setSync k x).trigs = s.trigs := rfl
@[simp] theorem State.setSync_ing (k : Nat) (x : FsyncSt) : (s.setSync k x).ing = s.ing := rfl
@[simp] theorem State.setSync_tickets (k : Nat) (x : FsyncSt) : (s.setSync k x).tickets = s.tickets := rfl
@[simp] theorem State.setSync_expo (k : Nat) (x : FsyncSt) : (s.setSync k x).expo = s.expo := rfl
@[simp] theorem State.setSync_buses (k : Nat) (x : FsyncSt) : (s.setSync k x).buses = s.buses := rfl
@[simp] theorem State.setSync_ctxs (k : Nat) (x : FsyncSt) : (s.setSync k x).ctxs = s.ctxs := rfl
@[simp] theorem State.setSync_scene (k : Nat) (x : FsyncSt) : (s.setSync k x).scene = s.scene := rfl
@[simp] theorem State.setSync_tick (k : Nat) (x : FsyncSt) : (s.setSync k x).tick = s.tick := rfl
@[simp] theorem State.setSync_heads (k : Nat) (x : FsyncSt) : (s.setSync k x).heads = s.heads := rfl
@[simp] theorem State.setSync_eths (k : Nat) (x : FsyncSt) : (s.setSync k x).eths = s.eths := rfl
@[simp] theorem State.setSync_qps (k : Nat) (x : FsyncSt) : (s.setSync k x).qps = s.qps := rfl
@[simp] theorem State.setSync_qpSerial (k : Nat) (x : FsyncSt) : (s.setSync k x).qpSerial = s.qpSerial := rfl
@[simp] theorem State.setSync_streams (k : Nat) (x : FsyncSt) : (s.setSync k x).streams = s.streams := rfl
@[simp] theorem State.setSync_ptp (k : Nat) (x : FsyncSt) : (s.setSync k x).ptp = s.ptp := rfl
@[simp] theorem State.setSync_fsync (k : Nat) (x : FsyncSt) : (s.setSync k x).fsync = tset s.fsync k {} x := rfl
@[simp] theorem State.setSync_ringPorts (k : Nat) (x : FsyncSt) : (s.setSync k x).ringPorts = s.ringPorts := rfl
@[simp] theorem State.setSync_ring (k : Nat) (x : FsyncSt) : (s.setSync k x).ring = s.ring := rfl
@[simp] theorem State.setSync_media (k : Nat) (x : FsyncSt) : (s.setSync k x).media = s.media := rfl
@[simp] theorem State.setSync_auds (k : Nat) (x : FsyncSt) : (s.setSync k x).auds = s.auds := rfl
@[simp] theorem State.setSync_families (k : Nat) (x : FsyncSt) : (s.setSync k x).families = s.families := rfl
@[simp] theorem State.setSync_tgt (k : Nat) (x : FsyncSt) : (s.setSync k x).tgt = s.tgt := rfl
@[simp] theorem State.setSync_dram (k : Nat) (x : FsyncSt) : (s.setSync k x).dram = s.dram := rfl
@[simp] theorem State.setSync_fab (k : Nat) (x : FsyncSt) : (s.setSync k x).fab = s.fab := rfl

/-! ## State.setRingPort -/

@[simp] theorem State.setRingPort_pending (k : Nat) (x : RingPort) : (s.setRingPort k x).pending = s.pending := rfl
@[simp] theorem State.setRingPort_clock (k : Nat) (x : RingPort) : (s.setRingPort k x).clock = s.clock := rfl
@[simp] theorem State.setRingPort_freeCtr (k : Nat) (x : RingPort) : (s.setRingPort k x).freeCtr = s.freeCtr := rfl
@[simp] theorem State.setRingPort_out (k : Nat) (x : RingPort) : (s.setRingPort k x).out = s.out := rfl
@[simp] theorem State.setRingPort_firings (k : Nat) (x : RingPort) : (s.setRingPort k x).firings = s.firings := rfl
@[simp] theorem State.setRingPort_regs (k : Nat) (x : RingPort) : (s.setRingPort k x).regs = s.regs := rfl
@[simp] theorem State.setRingPort_blobs (k : Nat) (x : RingPort) : (s.setRingPort k x).blobs = s.blobs := rfl
@[simp] theorem State.setRingPort_pow (k : Nat) (x : RingPort) : (s.setRingPort k x).pow = s.pow := rfl
@[simp] theorem State.setRingPort_time (k : Nat) (x : RingPort) : (s.setRingPort k x).time = s.time := rfl
@[simp] theorem State.setRingPort_nmp (k : Nat) (x : RingPort) : (s.setRingPort k x).nmp = s.nmp := rfl
@[simp] theorem State.setRingPort_therm (k : Nat) (x : RingPort) : (s.setRingPort k x).therm = s.therm := rfl
@[simp] theorem State.setRingPort_obs (k : Nat) (x : RingPort) : (s.setRingPort k x).obs = s.obs := rfl
@[simp] theorem State.setRingPort_lanes (k : Nat) (x : RingPort) : (s.setRingPort k x).lanes = s.lanes := rfl
@[simp] theorem State.setRingPort_ports (k : Nat) (x : RingPort) : (s.setRingPort k x).ports = s.ports := rfl
@[simp] theorem State.setRingPort_trigs (k : Nat) (x : RingPort) : (s.setRingPort k x).trigs = s.trigs := rfl
@[simp] theorem State.setRingPort_ing (k : Nat) (x : RingPort) : (s.setRingPort k x).ing = s.ing := rfl
@[simp] theorem State.setRingPort_tickets (k : Nat) (x : RingPort) : (s.setRingPort k x).tickets = s.tickets := rfl
@[simp] theorem State.setRingPort_expo (k : Nat) (x : RingPort) : (s.setRingPort k x).expo = s.expo := rfl
@[simp] theorem State.setRingPort_buses (k : Nat) (x : RingPort) : (s.setRingPort k x).buses = s.buses := rfl
@[simp] theorem State.setRingPort_ctxs (k : Nat) (x : RingPort) : (s.setRingPort k x).ctxs = s.ctxs := rfl
@[simp] theorem State.setRingPort_scene (k : Nat) (x : RingPort) : (s.setRingPort k x).scene = s.scene := rfl
@[simp] theorem State.setRingPort_tick (k : Nat) (x : RingPort) : (s.setRingPort k x).tick = s.tick := rfl
@[simp] theorem State.setRingPort_heads (k : Nat) (x : RingPort) : (s.setRingPort k x).heads = s.heads := rfl
@[simp] theorem State.setRingPort_eths (k : Nat) (x : RingPort) : (s.setRingPort k x).eths = s.eths := rfl
@[simp] theorem State.setRingPort_qps (k : Nat) (x : RingPort) : (s.setRingPort k x).qps = s.qps := rfl
@[simp] theorem State.setRingPort_qpSerial (k : Nat) (x : RingPort) : (s.setRingPort k x).qpSerial = s.qpSerial := rfl
@[simp] theorem State.setRingPort_streams (k : Nat) (x : RingPort) : (s.setRingPort k x).streams = s.streams := rfl
@[simp] theorem State.setRingPort_ptp (k : Nat) (x : RingPort) : (s.setRingPort k x).ptp = s.ptp := rfl
@[simp] theorem State.setRingPort_fsync (k : Nat) (x : RingPort) : (s.setRingPort k x).fsync = s.fsync := rfl
@[simp] theorem State.setRingPort_ringPorts (k : Nat) (x : RingPort) : (s.setRingPort k x).ringPorts = tset s.ringPorts k {} x := rfl
@[simp] theorem State.setRingPort_ring (k : Nat) (x : RingPort) : (s.setRingPort k x).ring = s.ring := rfl
@[simp] theorem State.setRingPort_media (k : Nat) (x : RingPort) : (s.setRingPort k x).media = s.media := rfl
@[simp] theorem State.setRingPort_auds (k : Nat) (x : RingPort) : (s.setRingPort k x).auds = s.auds := rfl
@[simp] theorem State.setRingPort_families (k : Nat) (x : RingPort) : (s.setRingPort k x).families = s.families := rfl
@[simp] theorem State.setRingPort_tgt (k : Nat) (x : RingPort) : (s.setRingPort k x).tgt = s.tgt := rfl
@[simp] theorem State.setRingPort_dram (k : Nat) (x : RingPort) : (s.setRingPort k x).dram = s.dram := rfl
@[simp] theorem State.setRingPort_fab (k : Nat) (x : RingPort) : (s.setRingPort k x).fab = s.fab := rfl

/-! ## State.setAud -/

@[simp] theorem State.setAud_pending (k : Nat) (x : AudSt) : (s.setAud k x).pending = s.pending := rfl
@[simp] theorem State.setAud_clock (k : Nat) (x : AudSt) : (s.setAud k x).clock = s.clock := rfl
@[simp] theorem State.setAud_freeCtr (k : Nat) (x : AudSt) : (s.setAud k x).freeCtr = s.freeCtr := rfl
@[simp] theorem State.setAud_out (k : Nat) (x : AudSt) : (s.setAud k x).out = s.out := rfl
@[simp] theorem State.setAud_firings (k : Nat) (x : AudSt) : (s.setAud k x).firings = s.firings := rfl
@[simp] theorem State.setAud_regs (k : Nat) (x : AudSt) : (s.setAud k x).regs = s.regs := rfl
@[simp] theorem State.setAud_blobs (k : Nat) (x : AudSt) : (s.setAud k x).blobs = s.blobs := rfl
@[simp] theorem State.setAud_pow (k : Nat) (x : AudSt) : (s.setAud k x).pow = s.pow := rfl
@[simp] theorem State.setAud_time (k : Nat) (x : AudSt) : (s.setAud k x).time = s.time := rfl
@[simp] theorem State.setAud_nmp (k : Nat) (x : AudSt) : (s.setAud k x).nmp = s.nmp := rfl
@[simp] theorem State.setAud_therm (k : Nat) (x : AudSt) : (s.setAud k x).therm = s.therm := rfl
@[simp] theorem State.setAud_obs (k : Nat) (x : AudSt) : (s.setAud k x).obs = s.obs := rfl
@[simp] theorem State.setAud_lanes (k : Nat) (x : AudSt) : (s.setAud k x).lanes = s.lanes := rfl
@[simp] theorem State.setAud_ports (k : Nat) (x : AudSt) : (s.setAud k x).ports = s.ports := rfl
@[simp] theorem State.setAud_trigs (k : Nat) (x : AudSt) : (s.setAud k x).trigs = s.trigs := rfl
@[simp] theorem State.setAud_ing (k : Nat) (x : AudSt) : (s.setAud k x).ing = s.ing := rfl
@[simp] theorem State.setAud_tickets (k : Nat) (x : AudSt) : (s.setAud k x).tickets = s.tickets := rfl
@[simp] theorem State.setAud_expo (k : Nat) (x : AudSt) : (s.setAud k x).expo = s.expo := rfl
@[simp] theorem State.setAud_buses (k : Nat) (x : AudSt) : (s.setAud k x).buses = s.buses := rfl
@[simp] theorem State.setAud_ctxs (k : Nat) (x : AudSt) : (s.setAud k x).ctxs = s.ctxs := rfl
@[simp] theorem State.setAud_scene (k : Nat) (x : AudSt) : (s.setAud k x).scene = s.scene := rfl
@[simp] theorem State.setAud_tick (k : Nat) (x : AudSt) : (s.setAud k x).tick = s.tick := rfl
@[simp] theorem State.setAud_heads (k : Nat) (x : AudSt) : (s.setAud k x).heads = s.heads := rfl
@[simp] theorem State.setAud_eths (k : Nat) (x : AudSt) : (s.setAud k x).eths = s.eths := rfl
@[simp] theorem State.setAud_qps (k : Nat) (x : AudSt) : (s.setAud k x).qps = s.qps := rfl
@[simp] theorem State.setAud_qpSerial (k : Nat) (x : AudSt) : (s.setAud k x).qpSerial = s.qpSerial := rfl
@[simp] theorem State.setAud_streams (k : Nat) (x : AudSt) : (s.setAud k x).streams = s.streams := rfl
@[simp] theorem State.setAud_ptp (k : Nat) (x : AudSt) : (s.setAud k x).ptp = s.ptp := rfl
@[simp] theorem State.setAud_fsync (k : Nat) (x : AudSt) : (s.setAud k x).fsync = s.fsync := rfl
@[simp] theorem State.setAud_ringPorts (k : Nat) (x : AudSt) : (s.setAud k x).ringPorts = s.ringPorts := rfl
@[simp] theorem State.setAud_ring (k : Nat) (x : AudSt) : (s.setAud k x).ring = s.ring := rfl
@[simp] theorem State.setAud_media (k : Nat) (x : AudSt) : (s.setAud k x).media = s.media := rfl
@[simp] theorem State.setAud_auds (k : Nat) (x : AudSt) : (s.setAud k x).auds = tset s.auds k {} x := rfl
@[simp] theorem State.setAud_families (k : Nat) (x : AudSt) : (s.setAud k x).families = s.families := rfl
@[simp] theorem State.setAud_tgt (k : Nat) (x : AudSt) : (s.setAud k x).tgt = s.tgt := rfl
@[simp] theorem State.setAud_dram (k : Nat) (x : AudSt) : (s.setAud k x).dram = s.dram := rfl
@[simp] theorem State.setAud_fab (k : Nat) (x : AudSt) : (s.setAud k x).fab = s.fab := rfl

/-! ## State.setFamily -/

@[simp] theorem State.setFamily_pending (k : Nat) (x : FsyncSt) : (s.setFamily k x).pending = s.pending := rfl
@[simp] theorem State.setFamily_clock (k : Nat) (x : FsyncSt) : (s.setFamily k x).clock = s.clock := rfl
@[simp] theorem State.setFamily_freeCtr (k : Nat) (x : FsyncSt) : (s.setFamily k x).freeCtr = s.freeCtr := rfl
@[simp] theorem State.setFamily_out (k : Nat) (x : FsyncSt) : (s.setFamily k x).out = s.out := rfl
@[simp] theorem State.setFamily_firings (k : Nat) (x : FsyncSt) : (s.setFamily k x).firings = s.firings := rfl
@[simp] theorem State.setFamily_regs (k : Nat) (x : FsyncSt) : (s.setFamily k x).regs = s.regs := rfl
@[simp] theorem State.setFamily_blobs (k : Nat) (x : FsyncSt) : (s.setFamily k x).blobs = s.blobs := rfl
@[simp] theorem State.setFamily_pow (k : Nat) (x : FsyncSt) : (s.setFamily k x).pow = s.pow := rfl
@[simp] theorem State.setFamily_time (k : Nat) (x : FsyncSt) : (s.setFamily k x).time = s.time := rfl
@[simp] theorem State.setFamily_nmp (k : Nat) (x : FsyncSt) : (s.setFamily k x).nmp = s.nmp := rfl
@[simp] theorem State.setFamily_therm (k : Nat) (x : FsyncSt) : (s.setFamily k x).therm = s.therm := rfl
@[simp] theorem State.setFamily_obs (k : Nat) (x : FsyncSt) : (s.setFamily k x).obs = s.obs := rfl
@[simp] theorem State.setFamily_lanes (k : Nat) (x : FsyncSt) : (s.setFamily k x).lanes = s.lanes := rfl
@[simp] theorem State.setFamily_ports (k : Nat) (x : FsyncSt) : (s.setFamily k x).ports = s.ports := rfl
@[simp] theorem State.setFamily_trigs (k : Nat) (x : FsyncSt) : (s.setFamily k x).trigs = s.trigs := rfl
@[simp] theorem State.setFamily_ing (k : Nat) (x : FsyncSt) : (s.setFamily k x).ing = s.ing := rfl
@[simp] theorem State.setFamily_tickets (k : Nat) (x : FsyncSt) : (s.setFamily k x).tickets = s.tickets := rfl
@[simp] theorem State.setFamily_expo (k : Nat) (x : FsyncSt) : (s.setFamily k x).expo = s.expo := rfl
@[simp] theorem State.setFamily_buses (k : Nat) (x : FsyncSt) : (s.setFamily k x).buses = s.buses := rfl
@[simp] theorem State.setFamily_ctxs (k : Nat) (x : FsyncSt) : (s.setFamily k x).ctxs = s.ctxs := rfl
@[simp] theorem State.setFamily_scene (k : Nat) (x : FsyncSt) : (s.setFamily k x).scene = s.scene := rfl
@[simp] theorem State.setFamily_tick (k : Nat) (x : FsyncSt) : (s.setFamily k x).tick = s.tick := rfl
@[simp] theorem State.setFamily_heads (k : Nat) (x : FsyncSt) : (s.setFamily k x).heads = s.heads := rfl
@[simp] theorem State.setFamily_eths (k : Nat) (x : FsyncSt) : (s.setFamily k x).eths = s.eths := rfl
@[simp] theorem State.setFamily_qps (k : Nat) (x : FsyncSt) : (s.setFamily k x).qps = s.qps := rfl
@[simp] theorem State.setFamily_qpSerial (k : Nat) (x : FsyncSt) : (s.setFamily k x).qpSerial = s.qpSerial := rfl
@[simp] theorem State.setFamily_streams (k : Nat) (x : FsyncSt) : (s.setFamily k x).streams = s.streams := rfl
@[simp] theorem State.setFamily_ptp (k : Nat) (x : FsyncSt) : (s.setFamily k x).ptp = s.ptp := rfl
@[simp] theorem State.setFamily_fsync (k : Nat) (x : FsyncSt) : (s.setFamily k x).fsync = s.fsync := rfl
@[simp] theorem State.setFamily_ringPorts (k : Nat) (x : FsyncSt) : (s.setFamily k x).ringPorts = s.ringPorts := rfl
@[simp] theorem State.setFamily_ring (k : Nat) (x : FsyncSt) : (s.setFamily k x).ring = s.ring := rfl
@[simp] theorem State.setFamily_media (k : Nat) (x : FsyncSt) : (s.setFamily k x).media = s.media := rfl
@[simp] theorem State.setFamily_auds (k : Nat) (x : FsyncSt) : (s.setFamily k x).auds = s.auds := rfl
@[simp] theorem State.setFamily_families (k : Nat) (x : FsyncSt) : (s.setFamily k x).families = tset s.families k {} x := rfl
@[simp] theorem State.setFamily_tgt (k : Nat) (x : FsyncSt) : (s.setFamily k x).tgt = s.tgt := rfl
@[simp] theorem State.setFamily_dram (k : Nat) (x : FsyncSt) : (s.setFamily k x).dram = s.dram := rfl
@[simp] theorem State.setFamily_fab (k : Nat) (x : FsyncSt) : (s.setFamily k x).fab = s.fab := rfl

/-! ## State.setQp -/

@[simp] theorem State.setQp_pending (k : Nat) (q : Qp) : (s.setQp k q).pending = s.pending := rfl
@[simp] theorem State.setQp_clock (k : Nat) (q : Qp) : (s.setQp k q).clock = s.clock := rfl
@[simp] theorem State.setQp_freeCtr (k : Nat) (q : Qp) : (s.setQp k q).freeCtr = s.freeCtr := rfl
@[simp] theorem State.setQp_out (k : Nat) (q : Qp) : (s.setQp k q).out = s.out := rfl
@[simp] theorem State.setQp_firings (k : Nat) (q : Qp) : (s.setQp k q).firings = s.firings := rfl
@[simp] theorem State.setQp_regs (k : Nat) (q : Qp) : (s.setQp k q).regs = s.regs := rfl
@[simp] theorem State.setQp_blobs (k : Nat) (q : Qp) : (s.setQp k q).blobs = s.blobs := rfl
@[simp] theorem State.setQp_pow (k : Nat) (q : Qp) : (s.setQp k q).pow = s.pow := rfl
@[simp] theorem State.setQp_time (k : Nat) (q : Qp) : (s.setQp k q).time = s.time := rfl
@[simp] theorem State.setQp_nmp (k : Nat) (q : Qp) : (s.setQp k q).nmp = s.nmp := rfl
@[simp] theorem State.setQp_therm (k : Nat) (q : Qp) : (s.setQp k q).therm = s.therm := rfl
@[simp] theorem State.setQp_obs (k : Nat) (q : Qp) : (s.setQp k q).obs = s.obs := rfl
@[simp] theorem State.setQp_lanes (k : Nat) (q : Qp) : (s.setQp k q).lanes = s.lanes := rfl
@[simp] theorem State.setQp_ports (k : Nat) (q : Qp) : (s.setQp k q).ports = s.ports := rfl
@[simp] theorem State.setQp_trigs (k : Nat) (q : Qp) : (s.setQp k q).trigs = s.trigs := rfl
@[simp] theorem State.setQp_ing (k : Nat) (q : Qp) : (s.setQp k q).ing = s.ing := rfl
@[simp] theorem State.setQp_tickets (k : Nat) (q : Qp) : (s.setQp k q).tickets = s.tickets := rfl
@[simp] theorem State.setQp_expo (k : Nat) (q : Qp) : (s.setQp k q).expo = s.expo := rfl
@[simp] theorem State.setQp_buses (k : Nat) (q : Qp) : (s.setQp k q).buses = s.buses := rfl
@[simp] theorem State.setQp_ctxs (k : Nat) (q : Qp) : (s.setQp k q).ctxs = s.ctxs := rfl
@[simp] theorem State.setQp_scene (k : Nat) (q : Qp) : (s.setQp k q).scene = s.scene := rfl
@[simp] theorem State.setQp_tick (k : Nat) (q : Qp) : (s.setQp k q).tick = s.tick := rfl
@[simp] theorem State.setQp_heads (k : Nat) (q : Qp) : (s.setQp k q).heads = s.heads := rfl
@[simp] theorem State.setQp_eths (k : Nat) (q : Qp) : (s.setQp k q).eths = s.eths := rfl
@[simp] theorem State.setQp_qps (k : Nat) (q : Qp) : (s.setQp k q).qps = tins s.qps k q := rfl
@[simp] theorem State.setQp_qpSerial (k : Nat) (q : Qp) : (s.setQp k q).qpSerial = s.qpSerial := rfl
@[simp] theorem State.setQp_streams (k : Nat) (q : Qp) : (s.setQp k q).streams = s.streams := rfl
@[simp] theorem State.setQp_ptp (k : Nat) (q : Qp) : (s.setQp k q).ptp = s.ptp := rfl
@[simp] theorem State.setQp_fsync (k : Nat) (q : Qp) : (s.setQp k q).fsync = s.fsync := rfl
@[simp] theorem State.setQp_ringPorts (k : Nat) (q : Qp) : (s.setQp k q).ringPorts = s.ringPorts := rfl
@[simp] theorem State.setQp_ring (k : Nat) (q : Qp) : (s.setQp k q).ring = s.ring := rfl
@[simp] theorem State.setQp_media (k : Nat) (q : Qp) : (s.setQp k q).media = s.media := rfl
@[simp] theorem State.setQp_auds (k : Nat) (q : Qp) : (s.setQp k q).auds = s.auds := rfl
@[simp] theorem State.setQp_families (k : Nat) (q : Qp) : (s.setQp k q).families = s.families := rfl
@[simp] theorem State.setQp_tgt (k : Nat) (q : Qp) : (s.setQp k q).tgt = s.tgt := rfl
@[simp] theorem State.setQp_dram (k : Nat) (q : Qp) : (s.setQp k q).dram = s.dram := rfl
@[simp] theorem State.setQp_fab (k : Nat) (q : Qp) : (s.setQp k q).fab = s.fab := rfl

/-! ## State.setSession -/

@[simp] theorem State.setSession_pending (k : Nat) (x : Session) : (s.setSession k x).pending = s.pending := rfl
@[simp] theorem State.setSession_clock (k : Nat) (x : Session) : (s.setSession k x).clock = s.clock := rfl
@[simp] theorem State.setSession_freeCtr (k : Nat) (x : Session) : (s.setSession k x).freeCtr = s.freeCtr := rfl
@[simp] theorem State.setSession_out (k : Nat) (x : Session) : (s.setSession k x).out = s.out := rfl
@[simp] theorem State.setSession_firings (k : Nat) (x : Session) : (s.setSession k x).firings = s.firings := rfl
@[simp] theorem State.setSession_regs (k : Nat) (x : Session) : (s.setSession k x).regs = s.regs := rfl
@[simp] theorem State.setSession_blobs (k : Nat) (x : Session) : (s.setSession k x).blobs = s.blobs := rfl
@[simp] theorem State.setSession_pow (k : Nat) (x : Session) : (s.setSession k x).pow = s.pow := rfl
@[simp] theorem State.setSession_time (k : Nat) (x : Session) : (s.setSession k x).time = s.time := rfl
@[simp] theorem State.setSession_nmp (k : Nat) (x : Session) : (s.setSession k x).nmp = { s.nmp with sessions := tins s.nmp.sessions k x } := rfl
@[simp] theorem State.setSession_therm (k : Nat) (x : Session) : (s.setSession k x).therm = s.therm := rfl
@[simp] theorem State.setSession_obs (k : Nat) (x : Session) : (s.setSession k x).obs = s.obs := rfl
@[simp] theorem State.setSession_lanes (k : Nat) (x : Session) : (s.setSession k x).lanes = s.lanes := rfl
@[simp] theorem State.setSession_ports (k : Nat) (x : Session) : (s.setSession k x).ports = s.ports := rfl
@[simp] theorem State.setSession_trigs (k : Nat) (x : Session) : (s.setSession k x).trigs = s.trigs := rfl
@[simp] theorem State.setSession_ing (k : Nat) (x : Session) : (s.setSession k x).ing = s.ing := rfl
@[simp] theorem State.setSession_tickets (k : Nat) (x : Session) : (s.setSession k x).tickets = s.tickets := rfl
@[simp] theorem State.setSession_expo (k : Nat) (x : Session) : (s.setSession k x).expo = s.expo := rfl
@[simp] theorem State.setSession_buses (k : Nat) (x : Session) : (s.setSession k x).buses = s.buses := rfl
@[simp] theorem State.setSession_ctxs (k : Nat) (x : Session) : (s.setSession k x).ctxs = s.ctxs := rfl
@[simp] theorem State.setSession_scene (k : Nat) (x : Session) : (s.setSession k x).scene = s.scene := rfl
@[simp] theorem State.setSession_tick (k : Nat) (x : Session) : (s.setSession k x).tick = s.tick := rfl
@[simp] theorem State.setSession_heads (k : Nat) (x : Session) : (s.setSession k x).heads = s.heads := rfl
@[simp] theorem State.setSession_eths (k : Nat) (x : Session) : (s.setSession k x).eths = s.eths := rfl
@[simp] theorem State.setSession_qps (k : Nat) (x : Session) : (s.setSession k x).qps = s.qps := rfl
@[simp] theorem State.setSession_qpSerial (k : Nat) (x : Session) : (s.setSession k x).qpSerial = s.qpSerial := rfl
@[simp] theorem State.setSession_streams (k : Nat) (x : Session) : (s.setSession k x).streams = s.streams := rfl
@[simp] theorem State.setSession_ptp (k : Nat) (x : Session) : (s.setSession k x).ptp = s.ptp := rfl
@[simp] theorem State.setSession_fsync (k : Nat) (x : Session) : (s.setSession k x).fsync = s.fsync := rfl
@[simp] theorem State.setSession_ringPorts (k : Nat) (x : Session) : (s.setSession k x).ringPorts = s.ringPorts := rfl
@[simp] theorem State.setSession_ring (k : Nat) (x : Session) : (s.setSession k x).ring = s.ring := rfl
@[simp] theorem State.setSession_media (k : Nat) (x : Session) : (s.setSession k x).media = s.media := rfl
@[simp] theorem State.setSession_auds (k : Nat) (x : Session) : (s.setSession k x).auds = s.auds := rfl
@[simp] theorem State.setSession_families (k : Nat) (x : Session) : (s.setSession k x).families = s.families := rfl
@[simp] theorem State.setSession_tgt (k : Nat) (x : Session) : (s.setSession k x).tgt = s.tgt := rfl
@[simp] theorem State.setSession_dram (k : Nat) (x : Session) : (s.setSession k x).dram = s.dram := rfl
@[simp] theorem State.setSession_fab (k : Nat) (x : Session) : (s.setSession k x).fab = s.fab := rfl

/-! ## State.setCell -/

@[simp] theorem State.setCell_pending (k : Nat) (x : Cell) : (s.setCell k x).pending = s.pending := rfl
@[simp] theorem State.setCell_clock (k : Nat) (x : Cell) : (s.setCell k x).clock = s.clock := rfl
@[simp] theorem State.setCell_freeCtr (k : Nat) (x : Cell) : (s.setCell k x).freeCtr = s.freeCtr := rfl
@[simp] theorem State.setCell_out (k : Nat) (x : Cell) : (s.setCell k x).out = s.out := rfl
@[simp] theorem State.setCell_firings (k : Nat) (x : Cell) : (s.setCell k x).firings = s.firings := rfl
@[simp] theorem State.setCell_regs (k : Nat) (x : Cell) : (s.setCell k x).regs = s.regs := rfl
@[simp] theorem State.setCell_blobs (k : Nat) (x : Cell) : (s.setCell k x).blobs = s.blobs := rfl
@[simp] theorem State.setCell_pow (k : Nat) (x : Cell) : (s.setCell k x).pow = s.pow := rfl
@[simp] theorem State.setCell_time (k : Nat) (x : Cell) : (s.setCell k x).time = s.time := rfl
@[simp] theorem State.setCell_nmp (k : Nat) (x : Cell) : (s.setCell k x).nmp = { s.nmp with cells := tset s.nmp.cells k {} x } := rfl
@[simp] theorem State.setCell_therm (k : Nat) (x : Cell) : (s.setCell k x).therm = s.therm := rfl
@[simp] theorem State.setCell_obs (k : Nat) (x : Cell) : (s.setCell k x).obs = s.obs := rfl
@[simp] theorem State.setCell_lanes (k : Nat) (x : Cell) : (s.setCell k x).lanes = s.lanes := rfl
@[simp] theorem State.setCell_ports (k : Nat) (x : Cell) : (s.setCell k x).ports = s.ports := rfl
@[simp] theorem State.setCell_trigs (k : Nat) (x : Cell) : (s.setCell k x).trigs = s.trigs := rfl
@[simp] theorem State.setCell_ing (k : Nat) (x : Cell) : (s.setCell k x).ing = s.ing := rfl
@[simp] theorem State.setCell_tickets (k : Nat) (x : Cell) : (s.setCell k x).tickets = s.tickets := rfl
@[simp] theorem State.setCell_expo (k : Nat) (x : Cell) : (s.setCell k x).expo = s.expo := rfl
@[simp] theorem State.setCell_buses (k : Nat) (x : Cell) : (s.setCell k x).buses = s.buses := rfl
@[simp] theorem State.setCell_ctxs (k : Nat) (x : Cell) : (s.setCell k x).ctxs = s.ctxs := rfl
@[simp] theorem State.setCell_scene (k : Nat) (x : Cell) : (s.setCell k x).scene = s.scene := rfl
@[simp] theorem State.setCell_tick (k : Nat) (x : Cell) : (s.setCell k x).tick = s.tick := rfl
@[simp] theorem State.setCell_heads (k : Nat) (x : Cell) : (s.setCell k x).heads = s.heads := rfl
@[simp] theorem State.setCell_eths (k : Nat) (x : Cell) : (s.setCell k x).eths = s.eths := rfl
@[simp] theorem State.setCell_qps (k : Nat) (x : Cell) : (s.setCell k x).qps = s.qps := rfl
@[simp] theorem State.setCell_qpSerial (k : Nat) (x : Cell) : (s.setCell k x).qpSerial = s.qpSerial := rfl
@[simp] theorem State.setCell_streams (k : Nat) (x : Cell) : (s.setCell k x).streams = s.streams := rfl
@[simp] theorem State.setCell_ptp (k : Nat) (x : Cell) : (s.setCell k x).ptp = s.ptp := rfl
@[simp] theorem State.setCell_fsync (k : Nat) (x : Cell) : (s.setCell k x).fsync = s.fsync := rfl
@[simp] theorem State.setCell_ringPorts (k : Nat) (x : Cell) : (s.setCell k x).ringPorts = s.ringPorts := rfl
@[simp] theorem State.setCell_ring (k : Nat) (x : Cell) : (s.setCell k x).ring = s.ring := rfl
@[simp] theorem State.setCell_media (k : Nat) (x : Cell) : (s.setCell k x).media = s.media := rfl
@[simp] theorem State.setCell_auds (k : Nat) (x : Cell) : (s.setCell k x).auds = s.auds := rfl
@[simp] theorem State.setCell_families (k : Nat) (x : Cell) : (s.setCell k x).families = s.families := rfl
@[simp] theorem State.setCell_tgt (k : Nat) (x : Cell) : (s.setCell k x).tgt = s.tgt := rfl
@[simp] theorem State.setCell_dram (k : Nat) (x : Cell) : (s.setCell k x).dram = s.dram := rfl
@[simp] theorem State.setCell_fab (k : Nat) (x : Cell) : (s.setCell k x).fab = s.fab := rfl

/-! ## State.setBuf -/

@[simp] theorem State.setBuf_pending (k : Nat) (b : Buffer) : (s.setBuf k b).pending = s.pending := rfl
@[simp] theorem State.setBuf_clock (k : Nat) (b : Buffer) : (s.setBuf k b).clock = s.clock := rfl
@[simp] theorem State.setBuf_freeCtr (k : Nat) (b : Buffer) : (s.setBuf k b).freeCtr = s.freeCtr := rfl
@[simp] theorem State.setBuf_out (k : Nat) (b : Buffer) : (s.setBuf k b).out = s.out := rfl
@[simp] theorem State.setBuf_firings (k : Nat) (b : Buffer) : (s.setBuf k b).firings = s.firings := rfl
@[simp] theorem State.setBuf_regs (k : Nat) (b : Buffer) : (s.setBuf k b).regs = s.regs := rfl
@[simp] theorem State.setBuf_blobs (k : Nat) (b : Buffer) : (s.setBuf k b).blobs = s.blobs := rfl
@[simp] theorem State.setBuf_pow (k : Nat) (b : Buffer) : (s.setBuf k b).pow = s.pow := rfl
@[simp] theorem State.setBuf_time (k : Nat) (b : Buffer) : (s.setBuf k b).time = s.time := rfl
@[simp] theorem State.setBuf_nmp (k : Nat) (b : Buffer) : (s.setBuf k b).nmp = { s.nmp with buffers := tins s.nmp.buffers k b } := rfl
@[simp] theorem State.setBuf_therm (k : Nat) (b : Buffer) : (s.setBuf k b).therm = s.therm := rfl
@[simp] theorem State.setBuf_obs (k : Nat) (b : Buffer) : (s.setBuf k b).obs = s.obs := rfl
@[simp] theorem State.setBuf_lanes (k : Nat) (b : Buffer) : (s.setBuf k b).lanes = s.lanes := rfl
@[simp] theorem State.setBuf_ports (k : Nat) (b : Buffer) : (s.setBuf k b).ports = s.ports := rfl
@[simp] theorem State.setBuf_trigs (k : Nat) (b : Buffer) : (s.setBuf k b).trigs = s.trigs := rfl
@[simp] theorem State.setBuf_ing (k : Nat) (b : Buffer) : (s.setBuf k b).ing = s.ing := rfl
@[simp] theorem State.setBuf_tickets (k : Nat) (b : Buffer) : (s.setBuf k b).tickets = s.tickets := rfl
@[simp] theorem State.setBuf_expo (k : Nat) (b : Buffer) : (s.setBuf k b).expo = s.expo := rfl
@[simp] theorem State.setBuf_buses (k : Nat) (b : Buffer) : (s.setBuf k b).buses = s.buses := rfl
@[simp] theorem State.setBuf_ctxs (k : Nat) (b : Buffer) : (s.setBuf k b).ctxs = s.ctxs := rfl
@[simp] theorem State.setBuf_scene (k : Nat) (b : Buffer) : (s.setBuf k b).scene = s.scene := rfl
@[simp] theorem State.setBuf_tick (k : Nat) (b : Buffer) : (s.setBuf k b).tick = s.tick := rfl
@[simp] theorem State.setBuf_heads (k : Nat) (b : Buffer) : (s.setBuf k b).heads = s.heads := rfl
@[simp] theorem State.setBuf_eths (k : Nat) (b : Buffer) : (s.setBuf k b).eths = s.eths := rfl
@[simp] theorem State.setBuf_qps (k : Nat) (b : Buffer) : (s.setBuf k b).qps = s.qps := rfl
@[simp] theorem State.setBuf_qpSerial (k : Nat) (b : Buffer) : (s.setBuf k b).qpSerial = s.qpSerial := rfl
@[simp] theorem State.setBuf_streams (k : Nat) (b : Buffer) : (s.setBuf k b).streams = s.streams := rfl
@[simp] theorem State.setBuf_ptp (k : Nat) (b : Buffer) : (s.setBuf k b).ptp = s.ptp := rfl
@[simp] theorem State.setBuf_fsync (k : Nat) (b : Buffer) : (s.setBuf k b).fsync = s.fsync := rfl
@[simp] theorem State.setBuf_ringPorts (k : Nat) (b : Buffer) : (s.setBuf k b).ringPorts = s.ringPorts := rfl
@[simp] theorem State.setBuf_ring (k : Nat) (b : Buffer) : (s.setBuf k b).ring = s.ring := rfl
@[simp] theorem State.setBuf_media (k : Nat) (b : Buffer) : (s.setBuf k b).media = s.media := rfl
@[simp] theorem State.setBuf_auds (k : Nat) (b : Buffer) : (s.setBuf k b).auds = s.auds := rfl
@[simp] theorem State.setBuf_families (k : Nat) (b : Buffer) : (s.setBuf k b).families = s.families := rfl
@[simp] theorem State.setBuf_tgt (k : Nat) (b : Buffer) : (s.setBuf k b).tgt = s.tgt := rfl
@[simp] theorem State.setBuf_dram (k : Nat) (b : Buffer) : (s.setBuf k b).dram = s.dram := rfl
@[simp] theorem State.setBuf_fab (k : Nat) (b : Buffer) : (s.setBuf k b).fab = s.fab := rfl

/-! ## State.setAssoc -/

@[simp] theorem State.setAssoc_pending (k : Nat) (a : Assoc) : (s.setAssoc k a).pending = s.pending := rfl
@[simp] theorem State.setAssoc_clock (k : Nat) (a : Assoc) : (s.setAssoc k a).clock = s.clock := rfl
@[simp] theorem State.setAssoc_freeCtr (k : Nat) (a : Assoc) : (s.setAssoc k a).freeCtr = s.freeCtr := rfl
@[simp] theorem State.setAssoc_out (k : Nat) (a : Assoc) : (s.setAssoc k a).out = s.out := rfl
@[simp] theorem State.setAssoc_firings (k : Nat) (a : Assoc) : (s.setAssoc k a).firings = s.firings := rfl
@[simp] theorem State.setAssoc_regs (k : Nat) (a : Assoc) : (s.setAssoc k a).regs = s.regs := rfl
@[simp] theorem State.setAssoc_blobs (k : Nat) (a : Assoc) : (s.setAssoc k a).blobs = s.blobs := rfl
@[simp] theorem State.setAssoc_pow (k : Nat) (a : Assoc) : (s.setAssoc k a).pow = s.pow := rfl
@[simp] theorem State.setAssoc_time (k : Nat) (a : Assoc) : (s.setAssoc k a).time = s.time := rfl
@[simp] theorem State.setAssoc_nmp (k : Nat) (a : Assoc) : (s.setAssoc k a).nmp = s.nmp := rfl
@[simp] theorem State.setAssoc_therm (k : Nat) (a : Assoc) : (s.setAssoc k a).therm = s.therm := rfl
@[simp] theorem State.setAssoc_obs (k : Nat) (a : Assoc) : (s.setAssoc k a).obs = s.obs := rfl
@[simp] theorem State.setAssoc_lanes (k : Nat) (a : Assoc) : (s.setAssoc k a).lanes = s.lanes := rfl
@[simp] theorem State.setAssoc_ports (k : Nat) (a : Assoc) : (s.setAssoc k a).ports = s.ports := rfl
@[simp] theorem State.setAssoc_trigs (k : Nat) (a : Assoc) : (s.setAssoc k a).trigs = s.trigs := rfl
@[simp] theorem State.setAssoc_ing (k : Nat) (a : Assoc) : (s.setAssoc k a).ing = s.ing := rfl
@[simp] theorem State.setAssoc_tickets (k : Nat) (a : Assoc) : (s.setAssoc k a).tickets = s.tickets := rfl
@[simp] theorem State.setAssoc_expo (k : Nat) (a : Assoc) : (s.setAssoc k a).expo = s.expo := rfl
@[simp] theorem State.setAssoc_buses (k : Nat) (a : Assoc) : (s.setAssoc k a).buses = s.buses := rfl
@[simp] theorem State.setAssoc_ctxs (k : Nat) (a : Assoc) : (s.setAssoc k a).ctxs = s.ctxs := rfl
@[simp] theorem State.setAssoc_scene (k : Nat) (a : Assoc) : (s.setAssoc k a).scene = s.scene := rfl
@[simp] theorem State.setAssoc_tick (k : Nat) (a : Assoc) : (s.setAssoc k a).tick = s.tick := rfl
@[simp] theorem State.setAssoc_heads (k : Nat) (a : Assoc) : (s.setAssoc k a).heads = s.heads := rfl
@[simp] theorem State.setAssoc_eths (k : Nat) (a : Assoc) : (s.setAssoc k a).eths = s.eths := rfl
@[simp] theorem State.setAssoc_qps (k : Nat) (a : Assoc) : (s.setAssoc k a).qps = s.qps := rfl
@[simp] theorem State.setAssoc_qpSerial (k : Nat) (a : Assoc) : (s.setAssoc k a).qpSerial = s.qpSerial := rfl
@[simp] theorem State.setAssoc_streams (k : Nat) (a : Assoc) : (s.setAssoc k a).streams = s.streams := rfl
@[simp] theorem State.setAssoc_ptp (k : Nat) (a : Assoc) : (s.setAssoc k a).ptp = s.ptp := rfl
@[simp] theorem State.setAssoc_fsync (k : Nat) (a : Assoc) : (s.setAssoc k a).fsync = s.fsync := rfl
@[simp] theorem State.setAssoc_ringPorts (k : Nat) (a : Assoc) : (s.setAssoc k a).ringPorts = s.ringPorts := rfl
@[simp] theorem State.setAssoc_ring (k : Nat) (a : Assoc) : (s.setAssoc k a).ring = s.ring := rfl
@[simp] theorem State.setAssoc_media (k : Nat) (a : Assoc) : (s.setAssoc k a).media = s.media := rfl
@[simp] theorem State.setAssoc_auds (k : Nat) (a : Assoc) : (s.setAssoc k a).auds = s.auds := rfl
@[simp] theorem State.setAssoc_families (k : Nat) (a : Assoc) : (s.setAssoc k a).families = s.families := rfl
@[simp] theorem State.setAssoc_tgt (k : Nat) (a : Assoc) : (s.setAssoc k a).tgt = { s.tgt with assocs := tins s.tgt.assocs k a } := rfl
@[simp] theorem State.setAssoc_dram (k : Nat) (a : Assoc) : (s.setAssoc k a).dram = s.dram := rfl
@[simp] theorem State.setAssoc_fab (k : Nat) (a : Assoc) : (s.setAssoc k a).fab = s.fab := rfl

/-! ## State.setDest -/

@[simp] theorem State.setDest_pending (k : Nat) (x : TraceDest) : (s.setDest k x).pending = s.pending := rfl
@[simp] theorem State.setDest_clock (k : Nat) (x : TraceDest) : (s.setDest k x).clock = s.clock := rfl
@[simp] theorem State.setDest_freeCtr (k : Nat) (x : TraceDest) : (s.setDest k x).freeCtr = s.freeCtr := rfl
@[simp] theorem State.setDest_out (k : Nat) (x : TraceDest) : (s.setDest k x).out = s.out := rfl
@[simp] theorem State.setDest_firings (k : Nat) (x : TraceDest) : (s.setDest k x).firings = s.firings := rfl
@[simp] theorem State.setDest_regs (k : Nat) (x : TraceDest) : (s.setDest k x).regs = s.regs := rfl
@[simp] theorem State.setDest_blobs (k : Nat) (x : TraceDest) : (s.setDest k x).blobs = s.blobs := rfl
@[simp] theorem State.setDest_pow (k : Nat) (x : TraceDest) : (s.setDest k x).pow = s.pow := rfl
@[simp] theorem State.setDest_time (k : Nat) (x : TraceDest) : (s.setDest k x).time = s.time := rfl
@[simp] theorem State.setDest_nmp (k : Nat) (x : TraceDest) : (s.setDest k x).nmp = s.nmp := rfl
@[simp] theorem State.setDest_therm (k : Nat) (x : TraceDest) : (s.setDest k x).therm = s.therm := rfl
@[simp] theorem State.setDest_obs (k : Nat) (x : TraceDest) : (s.setDest k x).obs = { s.obs with dests := tset s.obs.dests k {} x } := rfl
@[simp] theorem State.setDest_lanes (k : Nat) (x : TraceDest) : (s.setDest k x).lanes = s.lanes := rfl
@[simp] theorem State.setDest_ports (k : Nat) (x : TraceDest) : (s.setDest k x).ports = s.ports := rfl
@[simp] theorem State.setDest_trigs (k : Nat) (x : TraceDest) : (s.setDest k x).trigs = s.trigs := rfl
@[simp] theorem State.setDest_ing (k : Nat) (x : TraceDest) : (s.setDest k x).ing = s.ing := rfl
@[simp] theorem State.setDest_tickets (k : Nat) (x : TraceDest) : (s.setDest k x).tickets = s.tickets := rfl
@[simp] theorem State.setDest_expo (k : Nat) (x : TraceDest) : (s.setDest k x).expo = s.expo := rfl
@[simp] theorem State.setDest_buses (k : Nat) (x : TraceDest) : (s.setDest k x).buses = s.buses := rfl
@[simp] theorem State.setDest_ctxs (k : Nat) (x : TraceDest) : (s.setDest k x).ctxs = s.ctxs := rfl
@[simp] theorem State.setDest_scene (k : Nat) (x : TraceDest) : (s.setDest k x).scene = s.scene := rfl
@[simp] theorem State.setDest_tick (k : Nat) (x : TraceDest) : (s.setDest k x).tick = s.tick := rfl
@[simp] theorem State.setDest_heads (k : Nat) (x : TraceDest) : (s.setDest k x).heads = s.heads := rfl
@[simp] theorem State.setDest_eths (k : Nat) (x : TraceDest) : (s.setDest k x).eths = s.eths := rfl
@[simp] theorem State.setDest_qps (k : Nat) (x : TraceDest) : (s.setDest k x).qps = s.qps := rfl
@[simp] theorem State.setDest_qpSerial (k : Nat) (x : TraceDest) : (s.setDest k x).qpSerial = s.qpSerial := rfl
@[simp] theorem State.setDest_streams (k : Nat) (x : TraceDest) : (s.setDest k x).streams = s.streams := rfl
@[simp] theorem State.setDest_ptp (k : Nat) (x : TraceDest) : (s.setDest k x).ptp = s.ptp := rfl
@[simp] theorem State.setDest_fsync (k : Nat) (x : TraceDest) : (s.setDest k x).fsync = s.fsync := rfl
@[simp] theorem State.setDest_ringPorts (k : Nat) (x : TraceDest) : (s.setDest k x).ringPorts = s.ringPorts := rfl
@[simp] theorem State.setDest_ring (k : Nat) (x : TraceDest) : (s.setDest k x).ring = s.ring := rfl
@[simp] theorem State.setDest_media (k : Nat) (x : TraceDest) : (s.setDest k x).media = s.media := rfl
@[simp] theorem State.setDest_auds (k : Nat) (x : TraceDest) : (s.setDest k x).auds = s.auds := rfl
@[simp] theorem State.setDest_families (k : Nat) (x : TraceDest) : (s.setDest k x).families = s.families := rfl
@[simp] theorem State.setDest_tgt (k : Nat) (x : TraceDest) : (s.setDest k x).tgt = s.tgt := rfl
@[simp] theorem State.setDest_dram (k : Nat) (x : TraceDest) : (s.setDest k x).dram = s.dram := rfl
@[simp] theorem State.setDest_fab (k : Nat) (x : TraceDest) : (s.setDest k x).fab = s.fab := rfl

/-! ## State.draw -/

@[simp] theorem State.draw_pending : s.draw.2.pending = s.pending := rfl
@[simp] theorem State.draw_clock : s.draw.2.clock = s.clock := rfl
@[simp] theorem State.draw_freeCtr : s.draw.2.freeCtr = s.freeCtr + 1 := rfl
@[simp] theorem State.draw_out : s.draw.2.out = s.out := rfl
@[simp] theorem State.draw_firings : s.draw.2.firings = s.firings := rfl
@[simp] theorem State.draw_regs : s.draw.2.regs = s.regs := rfl
@[simp] theorem State.draw_blobs : s.draw.2.blobs = s.blobs := rfl
@[simp] theorem State.draw_pow : s.draw.2.pow = s.pow := rfl
@[simp] theorem State.draw_time : s.draw.2.time = s.time := rfl
@[simp] theorem State.draw_nmp : s.draw.2.nmp = s.nmp := rfl
@[simp] theorem State.draw_therm : s.draw.2.therm = s.therm := rfl
@[simp] theorem State.draw_obs : s.draw.2.obs = s.obs := rfl
@[simp] theorem State.draw_lanes : s.draw.2.lanes = s.lanes := rfl
@[simp] theorem State.draw_ports : s.draw.2.ports = s.ports := rfl
@[simp] theorem State.draw_trigs : s.draw.2.trigs = s.trigs := rfl
@[simp] theorem State.draw_ing : s.draw.2.ing = s.ing := rfl
@[simp] theorem State.draw_tickets : s.draw.2.tickets = s.tickets := rfl
@[simp] theorem State.draw_expo : s.draw.2.expo = s.expo := rfl
@[simp] theorem State.draw_buses : s.draw.2.buses = s.buses := rfl
@[simp] theorem State.draw_ctxs : s.draw.2.ctxs = s.ctxs := rfl
@[simp] theorem State.draw_scene : s.draw.2.scene = s.scene := rfl
@[simp] theorem State.draw_tick : s.draw.2.tick = s.tick := rfl
@[simp] theorem State.draw_heads : s.draw.2.heads = s.heads := rfl
@[simp] theorem State.draw_eths : s.draw.2.eths = s.eths := rfl
@[simp] theorem State.draw_qps : s.draw.2.qps = s.qps := rfl
@[simp] theorem State.draw_qpSerial : s.draw.2.qpSerial = s.qpSerial := rfl
@[simp] theorem State.draw_streams : s.draw.2.streams = s.streams := rfl
@[simp] theorem State.draw_ptp : s.draw.2.ptp = s.ptp := rfl
@[simp] theorem State.draw_fsync : s.draw.2.fsync = s.fsync := rfl
@[simp] theorem State.draw_ringPorts : s.draw.2.ringPorts = s.ringPorts := rfl
@[simp] theorem State.draw_ring : s.draw.2.ring = s.ring := rfl
@[simp] theorem State.draw_media : s.draw.2.media = s.media := rfl
@[simp] theorem State.draw_auds : s.draw.2.auds = s.auds := rfl
@[simp] theorem State.draw_families : s.draw.2.families = s.families := rfl
@[simp] theorem State.draw_tgt : s.draw.2.tgt = s.tgt := rfl
@[simp] theorem State.draw_dram : s.draw.2.dram = s.dram := rfl
@[simp] theorem State.draw_fab : s.draw.2.fab = s.fab := rfl

/-! ## State.wr -/

/-- A write of a parameter changes the parameter file alone. -/
theorem State.wr_shape (id v : Nat) : ∃ r, s.wr id v = { s with regs := r } := by
  unfold State.wr
  split
  · exact ⟨s.regs, rfl⟩
  · split
    · exact ⟨s.regs, rfl⟩
    · exact ⟨_, rfl⟩

@[simp] theorem State.wr_pending (id v : Nat) : (s.wr id v).pending = s.pending := by
  obtain ⟨r, h⟩ := s.wr_shape id v
  rw [h]
@[simp] theorem State.wr_clock (id v : Nat) : (s.wr id v).clock = s.clock := by
  obtain ⟨r, h⟩ := s.wr_shape id v
  rw [h]
@[simp] theorem State.wr_freeCtr (id v : Nat) : (s.wr id v).freeCtr = s.freeCtr := by
  obtain ⟨r, h⟩ := s.wr_shape id v
  rw [h]
@[simp] theorem State.wr_out (id v : Nat) : (s.wr id v).out = s.out := by
  obtain ⟨r, h⟩ := s.wr_shape id v
  rw [h]
@[simp] theorem State.wr_firings (id v : Nat) : (s.wr id v).firings = s.firings := by
  obtain ⟨r, h⟩ := s.wr_shape id v
  rw [h]
@[simp] theorem State.wr_blobs (id v : Nat) : (s.wr id v).blobs = s.blobs := by
  obtain ⟨r, h⟩ := s.wr_shape id v
  rw [h]
@[simp] theorem State.wr_pow (id v : Nat) : (s.wr id v).pow = s.pow := by
  obtain ⟨r, h⟩ := s.wr_shape id v
  rw [h]
@[simp] theorem State.wr_time (id v : Nat) : (s.wr id v).time = s.time := by
  obtain ⟨r, h⟩ := s.wr_shape id v
  rw [h]
@[simp] theorem State.wr_nmp (id v : Nat) : (s.wr id v).nmp = s.nmp := by
  obtain ⟨r, h⟩ := s.wr_shape id v
  rw [h]
@[simp] theorem State.wr_therm (id v : Nat) : (s.wr id v).therm = s.therm := by
  obtain ⟨r, h⟩ := s.wr_shape id v
  rw [h]
@[simp] theorem State.wr_obs (id v : Nat) : (s.wr id v).obs = s.obs := by
  obtain ⟨r, h⟩ := s.wr_shape id v
  rw [h]
@[simp] theorem State.wr_lanes (id v : Nat) : (s.wr id v).lanes = s.lanes := by
  obtain ⟨r, h⟩ := s.wr_shape id v
  rw [h]
@[simp] theorem State.wr_ports (id v : Nat) : (s.wr id v).ports = s.ports := by
  obtain ⟨r, h⟩ := s.wr_shape id v
  rw [h]
@[simp] theorem State.wr_trigs (id v : Nat) : (s.wr id v).trigs = s.trigs := by
  obtain ⟨r, h⟩ := s.wr_shape id v
  rw [h]
@[simp] theorem State.wr_ing (id v : Nat) : (s.wr id v).ing = s.ing := by
  obtain ⟨r, h⟩ := s.wr_shape id v
  rw [h]
@[simp] theorem State.wr_tickets (id v : Nat) : (s.wr id v).tickets = s.tickets := by
  obtain ⟨r, h⟩ := s.wr_shape id v
  rw [h]
@[simp] theorem State.wr_expo (id v : Nat) : (s.wr id v).expo = s.expo := by
  obtain ⟨r, h⟩ := s.wr_shape id v
  rw [h]
@[simp] theorem State.wr_buses (id v : Nat) : (s.wr id v).buses = s.buses := by
  obtain ⟨r, h⟩ := s.wr_shape id v
  rw [h]
@[simp] theorem State.wr_ctxs (id v : Nat) : (s.wr id v).ctxs = s.ctxs := by
  obtain ⟨r, h⟩ := s.wr_shape id v
  rw [h]
@[simp] theorem State.wr_scene (id v : Nat) : (s.wr id v).scene = s.scene := by
  obtain ⟨r, h⟩ := s.wr_shape id v
  rw [h]
@[simp] theorem State.wr_tick (id v : Nat) : (s.wr id v).tick = s.tick := by
  obtain ⟨r, h⟩ := s.wr_shape id v
  rw [h]
@[simp] theorem State.wr_heads (id v : Nat) : (s.wr id v).heads = s.heads := by
  obtain ⟨r, h⟩ := s.wr_shape id v
  rw [h]
@[simp] theorem State.wr_eths (id v : Nat) : (s.wr id v).eths = s.eths := by
  obtain ⟨r, h⟩ := s.wr_shape id v
  rw [h]
@[simp] theorem State.wr_qps (id v : Nat) : (s.wr id v).qps = s.qps := by
  obtain ⟨r, h⟩ := s.wr_shape id v
  rw [h]
@[simp] theorem State.wr_qpSerial (id v : Nat) : (s.wr id v).qpSerial = s.qpSerial := by
  obtain ⟨r, h⟩ := s.wr_shape id v
  rw [h]
@[simp] theorem State.wr_streams (id v : Nat) : (s.wr id v).streams = s.streams := by
  obtain ⟨r, h⟩ := s.wr_shape id v
  rw [h]
@[simp] theorem State.wr_ptp (id v : Nat) : (s.wr id v).ptp = s.ptp := by
  obtain ⟨r, h⟩ := s.wr_shape id v
  rw [h]
@[simp] theorem State.wr_fsync (id v : Nat) : (s.wr id v).fsync = s.fsync := by
  obtain ⟨r, h⟩ := s.wr_shape id v
  rw [h]
@[simp] theorem State.wr_ringPorts (id v : Nat) : (s.wr id v).ringPorts = s.ringPorts := by
  obtain ⟨r, h⟩ := s.wr_shape id v
  rw [h]
@[simp] theorem State.wr_ring (id v : Nat) : (s.wr id v).ring = s.ring := by
  obtain ⟨r, h⟩ := s.wr_shape id v
  rw [h]
@[simp] theorem State.wr_media (id v : Nat) : (s.wr id v).media = s.media := by
  obtain ⟨r, h⟩ := s.wr_shape id v
  rw [h]
@[simp] theorem State.wr_auds (id v : Nat) : (s.wr id v).auds = s.auds := by
  obtain ⟨r, h⟩ := s.wr_shape id v
  rw [h]
@[simp] theorem State.wr_families (id v : Nat) : (s.wr id v).families = s.families := by
  obtain ⟨r, h⟩ := s.wr_shape id v
  rw [h]
@[simp] theorem State.wr_tgt (id v : Nat) : (s.wr id v).tgt = s.tgt := by
  obtain ⟨r, h⟩ := s.wr_shape id v
  rw [h]
@[simp] theorem State.wr_dram (id v : Nat) : (s.wr id v).dram = s.dram := by
  obtain ⟨r, h⟩ := s.wr_shape id v
  rw [h]
@[simp] theorem State.wr_fab (id v : Nat) : (s.wr id v).fab = s.fab := by
  obtain ⟨r, h⟩ := s.wr_shape id v
  rw [h]

end Sys2Proof.Machine
end

