-- ==== Sys2Proof/Tests/Slice0.lean ====
section
/-! SUPPORT. Tests: the checks of WellFormed refuse what is ill formed; the hypotheses of each statement are met by states and operands
written out here; and single steps whose outcome the spec gives. -/

namespace Sys2Proof.Tests

set_option Elab.async false

open Sys2Proof Sys2Proof.Machine

/-! ## States for the tests -/

/-- Negor runs in a global state, its start confirmed. -/
def up (g : GState) : State :=
  { State.reset with pow := { State.reset.pow with global := g, phase := .started, confirmed := true, pinsReset := false, clocksStopped := false } }

/-- In a global state, with session 1 open. -/
def inSession (g : GState) : State := (up g).setSession 1 {}

/-- In RUN with session 1 open, which owns a cell under a lease far from its end. -/
def owning (c : Nat) : State := (inSession .run).setCell c { owner := 1, lease := 1000, expiry := 1000000 }

/-- The request of session 1 with SEQUENCE 1 on port 0. -/
def rq : Req := { sess := 1, seq := 1, port := 0 }

/-- What holds of the value of every unlisted key and of every listed one holds of every key. -/
theorem tget_all {α : Type} (P : α → Prop) (t : Table α) (d : α) (hd : P d) (h : ∀ e ∈ t, P e.2) : ∀ k, P (tget t k d) := by
  intro k
  induction t with
  | nil => exact hd
  | cons e r ih =>
    have hr := ih fun x hx => h x (List.mem_cons_of_mem _ hx)
    obtain ⟨j, a⟩ := e
    by_cases hj : j = k
    · have := h (j, a) List.mem_cons_self
      simpa [tget, tfind, hj] using this
    · simpa [tget, tfind, hj] using hr

/-- Every lease of every cell goes on. -/
def Fresh (s : State) : Prop := ∀ c, (s.cell c).owner = 0 ∨ s.aon < (s.cell c).expiry

theorem fresh_of (s : State) (h : ∀ e ∈ s.nmp.cells, e.2.owner = 0 ∨ s.aon < e.2.expiry) : Fresh s :=
  tget_all (fun x : Cell => x.owner = 0 ∨ s.aon < x.expiry) s.nmp.cells {} (Or.inl rfl) h

/-! ## What WellFormed refuses: one ill-formed term for each check -/

def okReq : Req := { port := 1, sess := 255, seq := 2 ^ 32 - 1 }
def badReq : Req := { okReq with sess := 256 }
def badPeer : Peer := { addr := 2 ^ 32 }
def okDst : List (BitVec 8) := [0, 0, 0, 0]
def badSsd : SsdInfo := { gen := 5, width := 4, id := 1, capacity := 2 ^ 64, supported := true, content := [] }

theorem test_partsOfCommandsAreChecked :
    okReq.ok = true ∧ (⟨true, 2 ^ 128 - 1, 2 ^ 16 - 1⟩ : Peer).ok = true ∧ (⟨8, true, 2 ^ 40 - 1, 2 ^ 32 - 1⟩ : DramReq).ok = true ∧ (⟨2 ^ 32 - 1, 255, 255, [1]⟩ : Entry).ok = true ∧ (⟨255, 255⟩ : GroupRef).ok = true ∧
      (∀ r ∈ [badReq, { okReq with port := 2 }, { okReq with seq := 2 ^ 32 }, { okReq with peer := badPeer }], r.ok = false) ∧
      (∀ p ∈ [badPeer, { v6 := true, addr := 2 ^ 128 }, { udp := 2 ^ 16 }], p.ok = false) ∧
      (∀ e ∈ [(⟨2 ^ 32, 0, 0, []⟩ : Entry), ⟨0, 256, 0, []⟩, ⟨0, 0, 256, []⟩], e.ok = false) ∧
      (∀ g ∈ [(⟨256, 0⟩ : GroupRef), ⟨0, 256⟩], g.ok = false) ∧ pairOk (0, 2 ^ 32) = false ∧ pairOk (2 ^ 32, 0) = false ∧
      (∀ x ∈ [badSsd, { badSsd with capacity := 0, content := [(2 ^ 64, List.replicate 4096 0)] }, { badSsd with capacity := 0, content := [(0, [1])] }],
        x.ok = false) ∧
      (∀ q ∈ [(⟨9, false, 0, 0⟩ : DramReq), ⟨8, false, 2 ^ 40, 0⟩, ⟨8, false, 0, 2 ^ 32⟩], q.ok = false) := by decide +kernel

/-- There are lists with more bytes than a length field can count. -/
theorem test_longLists : ∃ long : List Byte, fits 32 long.length = false ∧ fits 16 long.length = false := by
  refine ⟨List.replicate (2 ^ 32) 0, ?_⟩
  rw [List.length_replicate]
  decide

theorem test_entryValuesAreCounted (long : List Byte) (h : fits 16 long.length = false) : (⟨0, 0, 0, long⟩ : Entry).ok = false := by
  simp only [Entry.ok, h, Bool.and_false]

theorem test_numbersFitTheirFields1 : ∀ c ∈ ([
    .powerLoss (2 ^ 64), .powerOnSuppliesValid [2 ^ 32], .bankSupplyFault 0 (2 ^ 64), .rstNLow (2 ^ 64), .internalResetEnd [] [] [2 ^ 32],
    .jobComplete 0 (2 ^ 64) 0 false false false, .jobComplete 0 0 (2 ^ 64) false false false, .maintActivityDone [2 ^ 32],
    .dramSpeedChangeDone [2 ^ 32], .customBaseWrite badReq 0, .customBaseWrite okReq (2 ^ 64), .tickSourceWrite badReq 0 0 0,
    .tickSourceWrite okReq (2 ^ 64) 0 0, .tickSourceWrite okReq 0 0 (2 ^ 64), .tickRateWrite badReq 0 0, .tickRateWrite okReq (2 ^ 32) 0,
    .tickRateWrite okReq 0 (2 ^ 32), .profileWrite badReq 0, .profileWrite okReq (2 ^ 64), .nmpDatagramRx 0 (2 ^ 12) {} okDst 0 false [],
    .nmpDatagramRx 0 0 badPeer okDst 0 false [], .nmpDatagramRx 0 0 {} [] 0 false [], .nmpDatagramRx 0 0 {} okDst (2 ^ 16) false [],
    .nmpReassemblyTimeout (2 ^ 8) 0, .nmpReassemblyTimeout 0 (2 ^ 32), .sessionOpen 0 badPeer 0 [], .sessionOpen 0 {} (2 ^ 32) [],
    .sessionClose badReq, .heartbeat badReq [], .sessionIdleClose (2 ^ 8), .deviceRestart badReq, .paramGet badReq [],
    .paramGet okReq [⟨2 ^ 32, 0, 0, []⟩], .paramSet badReq [], .paramSet okReq [⟨2 ^ 32, 0, 0, []⟩], .paramCommit badReq 0,
    .paramCommit okReq (2 ^ 64), .paramDiscard badReq, .paramDescribe badReq [], .paramDescribe okReq [2 ^ 32], .paramWritePlain badReq 0 [],
    .paramWritePlain okReq (2 ^ 32) [], .ownAcquire badReq [] 0, .ownAcquire okReq [2 ^ 32] 0, .ownAcquire okReq [] (2 ^ 32),
    .ownRelease badReq [], .ownRelease okReq [2 ^ 32], .ownQuery badReq [], .ownQuery okReq [2 ^ 32], .ownReclaim badReq [],
    .ownReclaim okReq [(2 ^ 32, 0)], .planQuery badReq, .bufAlloc badReq 0 0, .bufAlloc okReq (2 ^ 32) 0, .bufAlloc okReq 0 (2 ^ 32),
    .bufFree badReq 0, .bufFree okReq (2 ^ 64), .bufInfo badReq 0, .bufInfo okReq (2 ^ 64), .bufRdmaAccess (2 ^ 64) 0 false 0 0 []] : List Instr), c.wf = false := by decide +kernel

theorem test_numbersFitTheirFields2 : ∀ c ∈ ([
    .bufRdmaAccess 0 (2 ^ 64) false 0 0 [], .bufRdmaAccess 0 0 false (2 ^ 64) 0 [], .bufRdmaAccess 0 0 false 0 (2 ^ 64) [],
    .unsupportedOpcode badReq 0, .unsupportedOpcode okReq (2 ^ 16), .notifyRetransmit (2 ^ 8) 0, .notifyRetransmit 0 (2 ^ 32),
    .ownerKeyWrite badReq [], .rdmaMessageComplete (2 ^ 64) 0 false, .rdmaMessageComplete 0 (2 ^ 64) false, .sensorPortEnableWrite badReq 0 0,
    .sensorPortEnableWrite okReq 0 (2 ^ 64), .xtrigEnableWrite badReq 0 0, .xtrigEnableWrite okReq 0 (2 ^ 64),
    .acquireAttemptEnd 0 0 false (2 ^ 16) 0, .acquireAttemptEnd 0 0 false 0 (2 ^ 64), .crlAlignRx 0 0 none (2 ^ 64), .crlFrameStartRx 0 (2 ^ 32),
    .crlFrameEndRx 0 (2 ^ 32) 0, .crlFrameEndRx 0 0 (2 ^ 32), .crlLineRx 0 (2 ^ 32) 0 0 0 [] 0, .crlLineRx 0 0 (2 ^ 32) 0 0 [] 0,
    .crlLineRx 0 0 0 (2 ^ 8) 0 [] 0, .crlLineRx 0 0 0 0 (2 ^ 32) [] 0, .crlLineRx 0 0 0 0 0 [] (2 ^ 32), .embeddedLineRx 0 0 (2 ^ 32) 0 [] 0,
    .embeddedLineRx 0 0 0 (2 ^ 32) [] 0, .embeddedLineRx 0 0 0 0 [] (2 ^ 32), .contextBindWrite badReq 0 0, .contextBindWrite okReq 0 (2 ^ 64),
    .defectMapWrite badReq 0 0 [], .defectMapWrite okReq 0 (2 ^ 8) [], .ctxEnableWrite badReq 0 0, .ctxEnableWrite okReq 0 (2 ^ 64),
    .lscTableWrite badReq 0 0 [], .lscTableWrite okReq 0 (2 ^ 8) [], .table1dWrite badReq 0 0 false 0 [], .table1dWrite okReq 0 0 false (2 ^ 8) [],
    .scalerTableWrite badReq 0 0 0 [], .scalerTableWrite okReq 0 0 (2 ^ 8) [], .lut3dWrite badReq 0 0 0 [], .lut3dWrite okReq 0 0 (2 ^ 8) [],
    .sensorDescWrite badReq 0 0 [], .sensorDescWrite okReq 0 (2 ^ 8) [], .sensorModeWrite badReq 0 0, .sensorModeWrite okReq 0 (2 ^ 64),
    .exposeRequest badReq [], .i2cEnableWrite badReq 0 0, .i2cEnableWrite okReq 0 (2 ^ 64), .xferDescWrite badReq 0 0 [],
    .xferDescWrite okReq 0 (2 ^ 8) [], .i2cTransactionDone 0 false false (2 ^ 16) [], .i2cArbLost 0 0 (2 ^ 16) [], .i2cBusError 0 (2 ^ 16),
    .i2cSclTimeout 0 (2 ^ 16), .i2cDriveFail 0 (2 ^ 16), .headEnableWrite badReq 0 0, .headEnableWrite okReq 0 (2 ^ 64), .hpdRise 0 (2 ^ 32),
    .linkTrainingDone 0 [(2 ^ 32, 0)]] : List Instr), c.wf = false := by decide +kernel

theorem test_numbersFitTheirFields3 : ∀ c ∈ ([
    .displayLineStart 0 (2 ^ 16), .layerUnderflow 0 0 (2 ^ 16) 0, .layerUnderflow 0 0 0 (2 ^ 16), .ethEnableWrite badReq 0 false 0,
    .ethEnableWrite okReq 0 false (2 ^ 64), .ethLinkLoss 0 (2 ^ 16), .pfcPauseRx 0 0 (2 ^ 16), .cnpRx (2 ^ 64), .cnpRateRecovery (2 ^ 64),
    .ecnMarkedRx (2 ^ 64), .bufferServiceConnect 0 (2 ^ 12) 0 0 [], .bufferServiceConnect 0 0 0 (2 ^ 16) [],
    .st2110AudioRxPacket 0 0 (2 ^ 12) 0 0 [], .ptpMessageRx 0 (2 ^ 12) [], .timeSetWrite badReq 0, .timeSetWrite okReq (2 ^ 64),
    .ringEnableWrite badReq 0, .ringEnableWrite okReq (2 ^ 64), .ringDelayReqRx 0 0 (2 ^ 64), .ringDelayRespRx 0 0 (2 ^ 64),
    .ringLinkLoss 0 (2 ^ 64), .localAckTimeout (2 ^ 64) false, .arpNdpIcmpRx 0 (2 ^ 12) 0 [] [], .mediaFormatWrite badReq 0 [],
    .mediaFormatWrite okReq (2 ^ 8) [], .mediaRebuildWrite badReq 0, .mediaRebuildWrite okReq (2 ^ 64), .clipStart badReq [], .clipStop badReq [],
    .clipDeleteWrite badReq 0, .clipDeleteWrite okReq (2 ^ 64), .clipMetaWrite badReq 0 0 [], .clipMetaWrite okReq 0 (2 ^ 8) [],
    .ssdPresenceChange 0 (some badSsd), .nvmfAdminConnect 0 (2 ^ 12) 0 0 false 0 0 [] [], .nvmfAdminConnect 0 0 (2 ^ 16) 0 false 0 0 [] [],
    .nvmfAdminConnect 0 0 0 (2 ^ 16) false 0 0 [] [], .nvmfAdminConnect 0 0 0 0 false (2 ^ 16) 0 [] [],
    .nvmfAdminConnect 0 0 0 0 false 0 (2 ^ 32) [] [], .nvmfIoConnect 0 (2 ^ 12) 0 0 0 0 0, .nvmfIoConnect 0 0 (2 ^ 16) 0 0 0 0,
    .nvmfIoConnect 0 0 0 (2 ^ 16) 0 0 0, .nvmfIoConnect 0 0 0 0 (2 ^ 16) 0 0, .nvmfIoConnect 0 0 0 0 0 (2 ^ 16) 0,
    .nvmfIoConnect 0 0 0 0 0 0 (2 ^ 16), .nvmfPropertyGet (2 ^ 16) 0 0, .nvmfPropertyGet 0 (2 ^ 16) 0, .nvmfPropertyGet 0 0 (2 ^ 64),
    .nvmfPropertySet (2 ^ 16) 0 0 0, .nvmfPropertySet 0 (2 ^ 16) 0 0, .nvmfPropertySet 0 0 (2 ^ 64) 0, .nvmfPropertySet 0 0 0 (2 ^ 64),
    .nvmfDisconnect (2 ^ 16) 0 0, .nvmfDisconnect 0 (2 ^ 16) 0, .nvmfDisconnect 0 0 (2 ^ 16), .nvmeGetLogPage (2 ^ 16) 0 0 0 0,
    .nvmeGetLogPage 0 (2 ^ 16) 0 0 0, .nvmeGetLogPage 0 0 (2 ^ 8) 0 0, .nvmeGetLogPage 0 0 0 (2 ^ 64) 0, .nvmeGetLogPage 0 0 0 0 (2 ^ 32)] : List Instr), c.wf = false := by decide +kernel

theorem test_numbersFitTheirFields4 : ∀ c ∈ ([
    .nvmeIdentify (2 ^ 16) 0 0 0, .nvmeIdentify 0 (2 ^ 16) 0 0, .nvmeIdentify 0 0 (2 ^ 8) 0, .nvmeIdentify 0 0 0 (2 ^ 32),
    .nvmeAbort (2 ^ 16) 0 0 0, .nvmeAbort 0 (2 ^ 16) 0 0, .nvmeAbort 0 0 (2 ^ 16) 0, .nvmeAbort 0 0 0 (2 ^ 64), .nvmeSetFeatures (2 ^ 16) 0 0 0,
    .nvmeSetFeatures 0 (2 ^ 16) 0 0, .nvmeSetFeatures 0 0 (2 ^ 8) 0, .nvmeSetFeatures 0 0 0 (2 ^ 64), .nvmeGetFeatures (2 ^ 16) 0 0 0,
    .nvmeGetFeatures 0 (2 ^ 16) 0 0, .nvmeGetFeatures 0 0 (2 ^ 8) 0, .nvmeGetFeatures 0 0 0 (2 ^ 64), .nvmeAsyncEventRequest (2 ^ 16) 0,
    .nvmeAsyncEventRequest 0 (2 ^ 16), .nvmeFirmwareCommit (2 ^ 16) 0 0 0, .nvmeFirmwareCommit 0 (2 ^ 16) 0 0, .nvmeFirmwareCommit 0 0 (2 ^ 64) 0,
    .nvmeFirmwareCommit 0 0 0 (2 ^ 16), .nvmeFirmwareImageDownload (2 ^ 16) 0 0 [], .nvmeFirmwareImageDownload 0 (2 ^ 16) 0 [],
    .nvmeFirmwareImageDownload 0 0 (2 ^ 64) [], .nvmeKeepAlive (2 ^ 16) 0, .nvmeKeepAlive 0 (2 ^ 16), .nvmeInvalidOpcode (2 ^ 16) 0 0 0,
    .nvmeInvalidOpcode 0 (2 ^ 16) 0 0, .nvmeInvalidOpcode 0 0 (2 ^ 16) 0, .nvmeInvalidOpcode 0 0 0 (2 ^ 16), .nvmeRead (2 ^ 16) 0 0 0 0 0 false,
    .nvmeRead 0 (2 ^ 16) 0 0 0 0 false, .nvmeRead 0 0 (2 ^ 16) 0 0 0 false, .nvmeRead 0 0 0 (2 ^ 32) 0 0 false, .nvmeRead 0 0 0 0 (2 ^ 64) 0 false,
    .nvmeRead 0 0 0 0 0 (2 ^ 32) false, .nvmeWrite (2 ^ 16) 0 0 0 0 0 false [], .nvmeWrite 0 (2 ^ 16) 0 0 0 0 false [],
    .nvmeWrite 0 0 (2 ^ 16) 0 0 0 false [], .nvmeWrite 0 0 0 (2 ^ 32) 0 0 false [], .nvmeWrite 0 0 0 0 (2 ^ 64) 0 false [],
    .nvmeWrite 0 0 0 0 0 (2 ^ 32) false [], .nvmeWriteZeroes (2 ^ 16) 0 0 0 0 0 false, .nvmeWriteZeroes 0 (2 ^ 16) 0 0 0 0 false,
    .nvmeWriteZeroes 0 0 (2 ^ 16) 0 0 0 false, .nvmeWriteZeroes 0 0 0 (2 ^ 32) 0 0 false, .nvmeWriteZeroes 0 0 0 0 (2 ^ 64) 0 false,
    .nvmeWriteZeroes 0 0 0 0 0 (2 ^ 32) false, .nvmeFlush (2 ^ 16) 0 0 0, .nvmeFlush 0 (2 ^ 16) 0 0, .nvmeFlush 0 0 (2 ^ 16) 0,
    .nvmeFlush 0 0 0 (2 ^ 32), .nvmeCommandComplete (2 ^ 16) 0 0 false, .nvmeCommandComplete 0 (2 ^ 16) 0 false,
    .nvmeCommandComplete 0 0 (2 ^ 16) false, .katoExpiry (2 ^ 16), .nvmfQueuePairLoss (2 ^ 16) 0, .nvmfQueuePairLoss 0 (2 ^ 16),
    .targetEnableWrite badReq 0] : List Instr), c.wf = false := by decide +kernel

theorem test_numbersFitTheirFields5 : ∀ c ∈ ([
    .targetEnableWrite okReq (2 ^ 64), .audioPortEnableWrite badReq 0 0, .audioPortEnableWrite okReq 0 (2 ^ 64), .audRingWrite badReq 0 0 [],
    .audRingWrite okReq 0 (2 ^ 8) [], .slotMaskWrite badReq 0 0, .slotMaskWrite okReq 0 (2 ^ 64), .muteWrite badReq 0 0,
    .muteWrite okReq 0 (2 ^ 64), .applPositionWrite badReq 0 0, .applPositionWrite okReq 0 (2 ^ 64), .familySourceWrite badReq 0 0,
    .familySourceWrite okReq 0 (2 ^ 64), .audioSampleFrame 0 [2 ^ 32], .audioFsEdge 0 (2 ^ 64) 0, .dramTrainingDone [(2 ^ 32, 0)],
    .dramRetrainDone 0 (some (2 ^ 32, 0)), .dramCorrectedRead (2 ^ 40) 0 [], .dramUncorrectable (2 ^ 40) 0 0 [], .diagAddressWrite badReq 0,
    .diagAddressWrite okReq (2 ^ 64), .dramCommandSelect 0 0 [⟨9, false, 0, 0⟩], .swFireWrite badReq 0, .swFireWrite okReq (2 ^ 64),
    .eventFireWrite badReq 0, .eventFireWrite okReq (2 ^ 64), .eventFlagClearWrite badReq 0 0 0, .eventFlagClearWrite okReq 0 0 (2 ^ 64),
    .srcEnableWrite badReq 0 0, .srcEnableWrite okReq 0 (2 ^ 64), .thermalSample 0 false [] (2 ^ 32), .counterReset badReq ⟨0, 0⟩,
    .counterReset okReq ⟨256, 0⟩, .obsRead badReq [], .obsRead okReq [⟨0, 256⟩], .obsSubscribe badReq 0 0, .obsSubscribe okReq (2 ^ 32) 0,
    .obsSubscribe okReq 0 (2 ^ 32), .obsUnsubscribe badReq, .traceRecordProduced (2 ^ 8) 0 [], .traceRecordProduced 0 (2 ^ 64) [],
    .traceSubscriptionSend 0 (2 ^ 32)] : List Instr), c.wf = false := by decide +kernel

theorem test_lengthsFitTheirFields1 (long : List Byte) (h : fits 32 long.length = false) : ∀ c ∈ ([
    .internalResetEnd long [] [], .internalResetEnd [] [long] [], .bootImageVerified long [], .bootImageVerified [] long,
    .nmpDatagramRx 0 0 {} okDst 0 false long, .sessionOpen 0 {} 0 long, .heartbeat okReq long, .paramWritePlain okReq 0 long,
    .bufRdmaAccess 0 0 false 0 0 long, .ownerKeyWrite okReq long, .crlLineRx 0 0 0 0 0 long 0, .embeddedLineRx 0 0 0 0 long 0,
    .defectMapWrite okReq 0 0 long, .lscTableWrite okReq 0 0 long, .table1dWrite okReq 0 0 false 0 long, .scalerTableWrite okReq 0 0 0 long,
    .lut3dWrite okReq 0 0 0 long, .sensorDescWrite okReq 0 0 long, .exposeRequest okReq long] : List Instr),
    c.wf = false := by
  simp only [List.forall_mem_cons]
  refine ⟨?_, ?_, ?_, ?_, ?_, ?_, ?_, ?_, ?_, ?_, ?_, ?_, ?_, ?_, ?_, ?_, ?_, ?_, ?_, by simp⟩ <;>
    rw [Bool.eq_false_iff] <;> intro hw <;> dsimp only [Instr.wf] at hw <;> simp [h] at hw

theorem test_lengthsFitTheirFields2 (long : List Byte) (h : fits 32 long.length = false) : ∀ c ∈ ([
    .xferDescWrite okReq 0 0 long, .i2cTransactionDone 0 false false 0 long, .i2cArbLost 0 0 0 long, .bufferServiceConnect 0 0 0 0 long,
    .st2110AudioRxPacket 0 0 0 0 0 long, .ptpMessageRx 0 0 long, .arpNdpIcmpRx 0 0 0 long [], .arpNdpIcmpRx 0 0 0 [] long,
    .mediaFormatWrite okReq 0 long, .clipStart okReq long, .clipStop okReq long, .clipMetaWrite okReq 0 0 long,
    .nvmfAdminConnect 0 0 0 0 false 0 0 long [], .nvmfAdminConnect 0 0 0 0 false 0 0 [] long, .nvmeFirmwareImageDownload 0 0 0 long,
    .nvmeWrite 0 0 0 0 0 0 false long, .audRingWrite okReq 0 0 long, .dramCorrectedRead 0 0 long, .dramUncorrectable 0 0 0 long] : List Instr),
    c.wf = false := by
  simp only [List.forall_mem_cons]
  refine ⟨?_, ?_, ?_, ?_, ?_, ?_, ?_, ?_, ?_, ?_, ?_, ?_, ?_, ?_, ?_, ?_, ?_, ?_, ?_, by simp⟩ <;>
    rw [Bool.eq_false_iff] <;> intro hw <;> dsimp only [Instr.wf] at hw <;> simp [h] at hw

theorem test_lengthsFitTheirFields3 (long : List Byte) (h : fits 32 long.length = false) : ∀ c ∈ ([
    .traceRecordProduced 0 0 long] : List Instr),
    c.wf = false := by
  simp only [List.forall_mem_cons]
  refine ⟨?_, by simp⟩ <;>
    rw [Bool.eq_false_iff] <;> intro hw <;> dsimp only [Instr.wf] at hw <;> simp [h] at hw

/-! ## Witnesses: power, reset and boot -/

theorem test_powerLossTakesTheDeviceToOff :
    999 < 1000 ∧ 1000 ≤ 1000 ∧ (up .run).pow.global ≠ .off ∧ Tick.PROFILE ∉ keptOverBoot := by decide

theorem test_powerOnSensesTheBanks :
    (∃ v ∈ [3800, 3801], 3800 < v) ∧ (∀ v ∈ [2500, 3800], v ≤ 3800) ∧ (up .run).pow.global ≠ .off ∧ (up .off).pow.global = .off := by decide

/-- A device with the balls of bank 1 released. -/
def released : State := { up .run with pow := { (up .run).pow with banksReleased := 2 } }

theorem test_bankSupplyReleasesItsBalls :
    1000 ≤ 1000 ∧ 999 < 1000 ∧ (up .run).pow.global ≠ .off ∧ bit (up .run).pow.banksReleased 1 = false ∧
      bit released.pow.banksReleased 1 = true := by decide

theorem test_resetPulseEntersBoot :
    999 < 1000 ∧ (up .run).pow.global ≠ .off ∧ (up .thermalOff).pow.global ≠ .off ∧
      Tick.PROFILE ∉ keptOverBoot ∧ Tick.PROFILE ∉ traceIds := by decide

/-- A board configuration block of Tables 16-1 and 19-2: 64 Gbit devices 8 bits wide, two ranks. -/
def board : List Byte :=
  let b := leBytes 2 0x4342 ++ leBytes 2 1 ++ leBytes 1 16 ++ leBytes 1 8 ++ leBytes 1 8 ++ leBytes 1 2 ++ zeroBytes 52
  b ++ leBytes 4 (crc32 b)

set_option maxRecDepth 20000 in
theorem test_internalResetEndSelectsAnImage :
    State.reset.pow.global = .boot ∧ State.reset.pow.phase = .inReset ∧ readBoard [] = none ∧ (readBoard board).isSome = true ∧
      State.reset.pow.afterThermalOff = false := by decide

theorem test_verifiedImageStartsNegor :
    let s : State := { State.reset with pow := { State.reset.pow with phase := .verifying 3 } }
    s.pow.global = .boot ∧ s.pow.phase = .verifying 3 ∧ 1 ≤ 3 ∧ 3 ≤ 3 := by decide

theorem test_noImageSendsABootRecord :
    let s : State := { State.reset with pow := { State.reset.pow with phase := .noImage } }
    s.pow.global = .boot ∧ s.pow.phase = .noImage := by decide

/-- Negor has started and not confirmed, from slot 2 with SEC_VERSION 7. -/
def unconfirmed : State := ({ up .warmup with pow := { (up .warmup).pow with confirmed := false } }).wrAll
  [(Obs.BOOT_SLOT, 2), (Obs.SLOT_SEC_VERSION 2, 7)]

theorem test_confirmedStartRaisesTheFloor :
    unconfirmed.negorExecutes = true ∧ unconfirmed.pow.confirmed = false ∧ unconfirmed.pow.restarting = false ∧
      unconfirmed.rd Obs.BOOT_SLOT = 2 ∧ unconfirmed.rd (Obs.SLOT_SEC_VERSION 2) < 2 ^ 32 ∧
      unconfirmed.rd Obs.SEC_VERSION_FLOOR < 2 ^ 32 := by decide

theorem test_unconfirmedStartIsABootFailure :
    unconfirmed.negorExecutes = true ∧ unconfirmed.pow.confirmed = false ∧ unconfirmed.pow.restarting = false := by decide

theorem test_watchdogRestartsTheControlCluster :
    let again (n : Nat) : State := { up .run with pow := { (up .run).pow with restarting := true, unconfirmed := n } }
    (up .run).negorExecutes = true ∧ (up .run).pow.restarting = false ∧ (again 2).negorExecutes = true ∧
      (again 2).pow.restarting = true ∧ 2 ≤ (again 2).pow.unconfirmed ∧ (again 1).negorExecutes = true ∧ (again 1).pow.unconfirmed < 2 := by
  decide

theorem test_deviceRestartTakesTenMilliseconds :
    let due : State := { owning 0 with pow := { (owning 0).pow with restartDue := some 10000000 } }
    (owning 0).negorAnswers = true ∧ ((owning 0).session rq.sess).isSome = true ∧ (owning 0).owns rq.sess 0 = true ∧
      (owning 1).negorAnswers = true ∧ ((owning 1).session rq.sess).isSome = true ∧ (owning 1).owns rq.sess 0 = false ∧
      due.pow.restartDue = some 10000000 ∧ due.negorExecutes = true := by decide

/-! ## Witnesses: the Frame Tick -/

/-- In RUN with the tick running, its first edge placed. -/
def ticking : State := { up .run with tick := { running := true, first := false } }

/-- The same where the present phase error makes the next edge step. -/
def stepping : State := ({ ticking with tick := { ticking.tick with src := 1, rephase := 2 } }).wr Tick.TICK_STATE 2

theorem test_tickEdgeIsPlacedOnTheGrid :
    (up .warmup).tickRuns = false ∧ (up .run).tickRuns = true ∧ (up .run).tick.first = true ∧ ticking.tickRuns = true ∧
      ticking.tick.first = false ∧ 0 < ticking.rd Tick.TICK_RATE_N ∧ ticking.edgeSteps ticking.edgeError = false := by decide

theorem test_ticksNeverComeCloserThanHalfAPeriod :
    stepping.edgeSteps 1000 = true ∧ stepping.periodNum ≠ 0 ∧
      0 ≤ ((stepping.periodNum / 2 : Nat) : Int) + 1000 * (stepping.rd Tick.TICK_RATE_N : Int) ∧
      stepping.tick.first = false ∧ stepping.edgeSteps stepping.edgeError = true := by decide

theorem test_tickStatesFollowTheirSource :
    let acquiring (n : Nat) : State := ({ ticking with tick := { ticking.tick with src := 1, lockRun := n } }).wr Tick.TICK_STATE 1
    let holding (n : Nat) : State := ({ ticking with tick := { ticking.tick with fallback := n } }).wr Tick.TICK_STATE 3
    ((acquiring 8).rd Tick.TICK_STATE = 1 ∧ 8 ≤ (acquiring 8).tick.lockRun ∧ (acquiring 8).tick.src ≠ 4) ∧
      (let ringing : State := { acquiring 8 with tick := { (acquiring 8).tick with src := 4 } }
       ringing.tick.src = 4 ∧ ringing.ringRateOk = false) ∧
      (acquiring 7).tick.lockRun < 8 ∧ ((holding 0).rd Tick.TICK_STATE = 3 ∧ ((holding 0).nextFallback).isSome = true) ∧
      (holding 4).rd Tick.TICK_STATE = 3 ∧ (holding 4).nextFallback = none := by decide

/-- A job of two stripes. -/
def aJob : Job :=
  { port := 5, slot := 0, ticket := 7, edgeAt := 0, early := false, bufs := [], stats := false, scope := false, ref1 := false, ref2 := false
    writes := false, stripes := 2 }

/-- A tick whose context 3 runs its job. -/
def working : State :=
  { ticking with ctxs := [(3, { job := some aJob })], scene := { running := some 3 } }

theorem test_lateJobsCompleteInTheGap :
    (working.tick.running = true ∧ working.tick.budgetOver = false ∧ (working.ctxSt 3).job ≠ none ∧ working.scene.running = some 3 ∧
      working.leaving 3 = false) ∧
      ticking.tick.running = true ∧ ticking.tick.budgetOver = false ∧ (true && ticking.videoUnsent) = false ∧
        (∀ c, c < 32 → (ticking.ctxSt c).job = none) ∧ ticking.tick.gap = false := by
  refine ⟨by decide, by decide, by decide, by decide, fun c _ => rfl, by decide⟩

/-- A tick gap in which nothing has run. -/
def gap : State := { ticking with tick := { ticking.tick with gap := true } }

theorem test_maintenanceWaitsForTheGap :
    (ticking.tick.running = true ∧ ticking.pow.global ≠ .faultHold ∧ ticking.tick.gap = false) ∧
      (gap.tick.running = true ∧ gap.pow.global ≠ .faultHold ∧ gap.tick.gap = true ∧ gap.tick.ran = false ∧ gap.tick.active = none ∧
        gap.tick.waiting = 0 ∧ maintRun 1 ≤ gap.timeLeft) ∧
      ({ gap with tick := { gap.tick with active := some 1 } } : State).tick.active = some 1 ∧
      (let ledger : State := { gap with tick := { gap.tick with active := some 3 }, pow := { gap.pow with ledgerQueue := [(18, 18, [])] } }
       ledger.tick.active = some 3 ∧ ledger.pow.ledgerQueue = [(18, 18, [])]) ∧
      bit ({ ticking with tick := { ticking.tick with waiting := 8 } } : State).tick.waiting 3 = true := by
  refine ⟨by decide, ⟨by decide, by decide, by decide, by decide, by decide, by decide, ?_⟩, by decide, by decide, by decide⟩
  unfold State.timeLeft State.gridEdge
  split <;> decide

theorem test_readmissionAndSpeedChangeComplete :
    let back : State := { ticking with tick := { ticking.tick with readmitting := true } }
    let speed : State := { ticking with tick := { ticking.tick with dramChange := true, dramTarget := [(Tick.PROFILE, 2)] } }
    (back.negorAnswers = true ∧ back.tick.readmitting = true ∧ back.tick.shedDue = false) ∧
      speed.tick.dramChange = true ∧ speed.tgt.held = [] ∧ ∀ e ∈ speed.tick.dramTarget, e.1 ∈ profileIds := by decide

/-! ## Witnesses: parameters and commits -/

theorem takes_iff (s : State) (r : Req) (op : Nat) :
    (s.negorAnswers = true ∧ (s.session r.sess).isSome = true ∧ s.turn r = true ∧ s.gate op = Status.OK) → s.takes r op := id

theorem test_paramGetReadsValuesInForce :
    (inSession .warmup).takes rq 0x10 ∧ (∃ p, paramOf Tick.PROFILE = some p ∧ p.access ≠ .wo ∧ p.type ≠ .blob) ∧
      idGroup Tick.PROFILE ≠ 0x41 ∧ paramOf 0 = none := by
  refine ⟨takes_iff _ _ _ (by decide), ⟨_, rfl, by decide, by decide⟩, by decide, by decide⟩

theorem test_paramSetStagesAllOrNone : (inSession .run).takes rq 0x11 ∧ (inSession .run).takes rq 0x13 :=
  ⟨takes_iff _ _ _ (by decide), takes_iff _ _ _ (by decide)⟩

theorem test_descriptionsAndPlansAreAnswered : (inSession .run).takes rq 0x14 ∧ (inSession .run).takes rq 0x30 :=
  ⟨takes_iff _ _ _ (by decide), takes_iff _ _ _ (by decide)⟩

/-- The event fabric's cell is owned. -/
def fabricOwner : State := owning 62

theorem fabricOwner_takes : fabricOwner.takes rq 0x12 := takes_iff _ _ _ (by decide)

/-- One immediate number as a commit sees it. -/
def oneNum (s : State) (id v : Nat) : List CEntry := centries (s.heard rq) [(id, .num v)]

theorem test_acceptedCommitsTakeEffectAsOneUnit :
    (committedBy (.srcEnableWrite rq 7 1) = some (rq, [numEntry (Ev.SRC_ENABLE 7) 1]) ∧ fabricOwner.takes rq 0x12 ∧
        (fabricOwner.heard rq).wellGiven 1 [numEntry (Ev.SRC_ENABLE 7) 1] ∧
        commitVerdict ((fabricOwner.heard rq).txn rq 0x12 0 (oneNum fabricOwner (Ev.SRC_ENABLE 7) 1)) (oneNum fabricOwner (Ev.SRC_ENABLE 7) 1) =
          (Status.OK, [], 0, 0) ∧ completes Status.OK = true) ∧
      (let staged : State := fabricOwner.setStaged 1 [⟨Ev.SRC_ENABLE 7, .num 1, 0⟩]
       staged.takes rq 0x12 ∧ staged.stagedOwned 1 (staged.stagedSet 1) = true ∧ (staged.stagedSet 1).length = 1 ∧
         ∀ e ∈ stagedVals (staged.stagedSet 1), ((staged.heard rq).resolve e.1 e.2).isSome = true) := by
  refine ⟨⟨rfl, fabricOwner_takes, ?_, by decide, by decide⟩, takes_iff _ _ _ (by decide), by decide, by decide, by decide⟩
  unfold State.wellGiven
  decide

/-- In RUN, the tick rate commit that is refused. -/
def rateCommit : List Entry := [numEntry Tick.TICK_RATE_N 50, numEntry Tick.TICK_RATE_D 1]

theorem rateCommit_wellGiven : ((owning 1).heard rq).wellGiven 1 rateCommit := by
  unfold State.wellGiven
  decide

theorem test_refusedCommitsChangeNothing :
    ((owning 0).takes rq 0x12 ∧
      firstBad ([numEntry (Ev.SRC_ENABLE 7) 1].map fun e => ((owning 0).heard rq).stageStatus 1 e) ≠ Status.OK) ∧
      (let u := (owning 1).heard rq
       let ces := centries u (u.entryVals 1 rateCommit)
       committedBy (.tickRateWrite rq 50 1) = some (rq, rateCommit) ∧ (owning 1).takes rq 0x12 ∧ u.wellGiven 1 rateCommit ∧
         commitVerdict (u.txn rq 0x12 0 ces) ces = (Status.CONFLICT, [], 0, 0) ∧ completes Status.CONFLICT = false) ∧
      (let staged : State := (owning 0).setStaged 1 [⟨Ev.SRC_ENABLE 7, .num 1, 0⟩]
       staged.takes rq 0x12 ∧ staged.stagedOwned 1 (staged.stagedSet 1) = false) :=
  ⟨⟨takes_iff _ _ _ (by decide), by decide⟩, ⟨rfl, takes_iff _ _ _ (by decide), rateCommit_wellGiven, by decide, by decide⟩,
    takes_iff _ _ _ (by decide), by decide⟩

/-- The plan of `owning 1` with CUSTOM_POWER_CAP at 96 W, which an idle plan admits whatever the power model says. -/
def capCommit : List Entry := [{ id := Tick.CUSTOM_POWER_CAP, type := 0, flags := 0, value := leBytes 4 96000 }]

def capEntries : List CEntry := centries ((owning 1).heard rq) (((owning 1).heard rq).entryVals 1 capCommit)

def capTxn : Txn := ((owning 1).heard rq).txn rq 0x12 0 capEntries

theorem fits_filter (l : List Shortfall) (h : ∀ r ∈ l, r.fits = true) : (l.filter fun r => !r.fits) = [] := by
  simpa [List.filter_eq_nil_iff] using h

theorem controlClass_fits (s : State) (h : s.audioRingBytes ≤ s.shareBytes (s.profile.shares.getD 3 0) s.dramChannels.length) :
    s.controlClass.required ≤ s.controlClass.available := by
  simp only [State.controlClass]
  omega

theorem powerResource_fits (s : State) (items : List Nat) (mhz cap : Nat) (h : s.idlePlan = true) :
    (s.powerResource items mhz cap).required ≤ (s.powerResource items mhz cap).available := by
  simp only [State.powerResource, h, if_true]
  omega

theorem steps_fit (s : State) (items : List Nat) (cap : Nat) (hi : s.idlePlan = true)
    (ha : s.audioRingBytes ≤ s.shareBytes (s.profile.shares.getD 3 0) s.dramChannels.length)
    (h : ([s.sceneResource items (capClock s.profile cap), s.rendResource items (capClock s.profile cap), s.realTime items, s.pixelClass items,
      s.mediaClass items, { code := 0x08, unit := 4, required := s.recordRate, available := s.rd Rec.DECLARED_RATE }, s.egress items 0, s.egress items 1,
      { code := 0x0B, unit := 6, required := s.planned.length, available := s.profile.maxContexts, mask := s.planned }] : List Shortfall).all
        Shortfall.fits = true) :
    (s.stepResources items cap).all Shortfall.fits = true := by
  have hc : s.controlClass.fits = true := by
    rw [Shortfall.fits, Bool.and_eq_true, decide_eq_true_eq]
    exact ⟨controlClass_fits s ha, rfl⟩
  have hp : (s.powerResource items (capClock s.profile cap) cap).fits = true := by
    rw [Shortfall.fits, Bool.and_eq_true, decide_eq_true_eq]
    exact ⟨powerResource_fits s _ _ _ hi, rfl⟩
  simp only [List.all_cons, List.all_nil, Bool.and_true, Bool.and_eq_true, State.stepResources] at h ⊢
  simp only [h, hc, hp, and_self]

theorem floor_fits (s : State) (h : (s.stepResources s.profile.shedOrder s.profile.floorCap).all Shortfall.fits = true)
    (hc : let a := s.sceneResource s.profile.shedOrder s.profile.floorClock
      let b := s.rendResource s.profile.shedOrder s.profile.floorClock
      (if a.required < b.required then b else a).required ≤ (if a.required < b.required then b else a).available) :
    s.floorResource.fits = true := by
  simp only [State.floorResource, Shortfall.fits, h, Bool.not_true, Bool.not_false, Bool.and_true, decide_eq_true_eq]
  exact hc

theorem shortfalls_nil (old cand : State) (cap level : Nat) (h : planCap old cand = (cap, level))
    (hs : (cand.stepResources (cand.profile.shedOrder.take level) cap).all Shortfall.fits = true) (hf : cand.floorResource.fits = true) :
    shortfalls old cand = [] := by
  simp only [shortfalls, h]
  apply fits_filter
  intro r hr
  rw [State.resources, List.mem_append, List.mem_singleton] at hr
  rcases hr with hr | rfl
  · exact List.all_eq_true.mp hs r hr
  · exact hf

theorem capTxn_fits : shortfalls capTxn.old.committed capTxn.cand = [] := by
  have hi : capTxn.cand.idlePlan = true := by decide +kernel
  have ha : capTxn.cand.audioRingBytes ≤ capTxn.cand.shareBytes (capTxn.cand.profile.shares.getD 3 0) capTxn.cand.dramChannels.length := by decide +kernel
  exact shortfalls_nil _ _ (capTxn.cand.rd Tick.ACTIVE_CAP) 0 (by decide +kernel) (steps_fit _ _ _ hi ha (by decide +kernel))
    (floor_fits _ (steps_fit _ _ _ hi ha (by decide +kernel)) (by decide +kernel))

theorem test_admittedCommitsWaitForTheEdge :
    (committedBy (.paramWritePlain rq Tick.CUSTOM_POWER_CAP (leBytes 4 96000)) = some (rq, capCommit) ∧ (owning 1).takes rq 0x12 ∧
      ((owning 1).heard rq).wellGiven 1 capCommit) ∧
      (capEntries ≠ [] ∧ (∀ c ∈ capEntries, c.rule = .admitted ∧ idGroup c.id ≠ 0x30) ∧ (owning 1).nmp.waits = [] ∧
        ((owning 1).heard rq).committed.profile.dramSpeed = capTxn.cand.profile.dramSpeed) ∧
      commitVerdict capTxn capEntries = (Status.OK, [], 0, 0) := by
  refine ⟨⟨rfl, takes_iff _ _ _ (by decide), by unfold State.wellGiven; decide⟩, ⟨by decide, by decide, by decide, by decide⟩, ?_⟩
  have hc : firstBad (capEntries.map fun e => entryCheck capTxn e.id e.val) = Status.OK := by decide
  have ha : admits capEntries = true := by decide
  have he : capTxn.cand.earlyBad = false := by decide
  have ht : ticketVals capEntries = [] := by decide
  simp only [commitVerdict, hc, ha, ht, admission, he, capTxn_fits, ne_eq, not_true_eq_false, if_false, if_true, Bool.false_eq_true]

theorem test_immediateCommitsAreInForceAtOnce :
    (owning 63).takes rq 0x12 ∧ (∃ p, paramOf Th.HOT_HYSTERESIS = some p ∧ p.commit = .immediate ∧ p.access = .rw ∧ p.fixed = false ∧ p.type ≠ .blob ∧
      32 < 2 ^ p.type.width) ∧ idGroup Th.HOT_HYSTERESIS = 0xA0 ∧ ((owning 63).heard rq).stageStatus 1 (numEntry Th.HOT_HYSTERESIS 32) = Status.OK ∧
      (owning 63).nmp.waits = [] ∧
      commitVerdict (((owning 63).heard rq).txn rq 0x12 0 (oneNum (owning 63) Th.HOT_HYSTERESIS 32)) (oneNum (owning 63) Th.HOT_HYSTERESIS 32) =
        (Status.OK, [], 0, 0) := by
  refine ⟨takes_iff _ _ _ (by decide), ⟨_, rfl, by decide, by decide, by decide, by decide, by decide⟩, by decide, by decide, by decide, by decide⟩

/-- The same in FAULT_HOLD. -/
def heldOwning (c : Nat) : State :=
  let s := (inSession .faultHold).setCell c { owner := 1, lease := 1000, expiry := 1000000 }
  { s with pow := { s.pow with board := { density := 16, dataWidth := 8, checkWidth := 8, ranks := 1 } } }

/-- A commit of one number by session 1, which owns the cell, is accepted. -/
def acceptsNum (s : State) (id v : Nat) : Prop :=
  (s.heard rq).stageStatus 1 (numEntry id v) = Status.OK ∧
    commitVerdict ((s.heard rq).txn rq 0x12 0 (oneNum s id v)) (oneNum s id v) = (Status.OK, [], 0, 0)

theorem test_commitsReachTheirBlocks :
    (∀ s ∈ [owning 62, owning 59, heldOwning 61, owning 54, owning 1], s.takes rq 0x12 ∧ s.nmp.waits = []) ∧
      acceptsNum (owning 62) (Ev.SRC_FIRED 7) (2 ^ 32 - 1) ∧ acceptsNum (owning 62) Ev.SW_FIRE 0xFFFF ∧ acceptsNum (owning 62) (Ev.SRC_ENABLE 255) 1 ∧
      acceptsNum (owning 59) (Aud.APPL_POSITION 7) 0 ∧ acceptsNum (heldOwning 61) Dram.DIAG_ADDRESS 64 ∧
      ((owning 54).wr Time.TIME_SOURCE 3).rd Time.TIME_SOURCE = 3 ∧ acceptsNum ((owning 54).wr Time.TIME_SOURCE 3) Time.TIME_SET 1000000000 ∧
      (owning 1).pow.global = .run ∧ ((owning 1).heard rq).wellGiven 1 rateCommit := by
  refine ⟨?_, ⟨by decide, by decide⟩, ⟨by decide, by decide⟩, ⟨by decide, by decide⟩, ⟨by decide, by decide⟩, ⟨by decide, by decide⟩, by decide,
    ⟨by decide, by decide⟩, by decide, rateCommit_wellGiven⟩
  simp only [List.mem_cons, List.not_mem_nil, or_false, forall_eq_or_imp, forall_eq]
  refine ⟨⟨takes_iff _ _ _ ?_, ?_⟩, ⟨takes_iff _ _ _ ?_, ?_⟩, ⟨takes_iff _ _ _ ?_, ?_⟩, ⟨takes_iff _ _ _ ?_, ?_⟩, takes_iff _ _ _ ?_, ?_⟩ <;> decide

/-! ## Witnesses: the Negor Mailbox Protocol and ownership -/

/-- The 16 bytes of a request header of Table 03-1 without payload, and its tag under the empty key. -/
def datagram (version op sess seq count : Nat) : List Byte :=
  let b := leBytes 1 version ++ leBytes 1 op ++ leBytes 1 sess ++ zeroBytes 1 ++ leBytes 4 seq ++ zeroBytes 6 ++ leBytes 2 count
  b ++ nmpTag [] b

/-- A datagram with its tag spoilt. -/
def spoilt (op sess : Nat) : List Byte := (datagram 1 op sess 1 1).take 31 ++ [BitVec.ofNat 8 0]

theorem test_badDatagramsAreCountedOnce :
    let s := inSession .run
    let ok (b : List Byte) : Prop := 32 = (parseHeader b).length + 32 ∧ (parseHeader b).length ≤ 1408
    s.negorAnswers = true ∧ 31 ≠ (parseHeader (datagram 1 2 1 1 1)).length + 32 ∧
      (ok (datagram 0 2 1 1 1) ∧ (parseHeader (datagram 0 2 1 1 1)).version ≠ 1) ∧
      (ok (datagram 1 2 1 1 65) ∧ (parseHeader (datagram 1 2 1 1 65)).version = 1 ∧ (parseHeader (datagram 1 2 1 1 65)).bad = true) ∧
      (ok (datagram 1 2 255 1 1) ∧ (parseHeader (datagram 1 2 255 1 1)).bad = false ∧ s.session (parseHeader (datagram 1 2 255 1 1)).sess = none) ∧
      (ok (spoilt 2 1) ∧ (parseHeader (spoilt 2 1)).op ≠ 1 ∧ (parseHeader (spoilt 2 1)).bad = false ∧
        s.session (parseHeader (spoilt 2 1)).sess = some {} ∧ nmpTag [] ((spoilt 2 1).take 16) ≠ slice (spoilt 2 1) 16 16) ∧
      (ok (spoilt 1 0) ∧ (parseHeader (spoilt 1 0)).op = 1 ∧ (parseHeader (spoilt 1 0)).bad = false ∧
        nmpTag s.nmp.ownerKey ((spoilt 1 0).take 16) ≠ slice (spoilt 1 0) 16 16 ∧ s.nmp.authReplies.length < 10) := by
  decide +kernel

/-- A session whose highest SEQUENCE is 100, with a cached reply to it and SEQUENCE 99 in flight. -/
def busySession : Session := { high := some 100, window := 3, cache := [(100, ⟨1, 100, 2, 0, []⟩)], inflight := [⟨99, 2, 0, []⟩] }

theorem test_requestsAreTakenByTheirSequence :
    let s := (up .run).setSession 1 busySession
    let taken (q : Nat) : Prop :=
      let b := datagram 1 3 1 q 1
      let h := parseHeader b
      32 = h.length + 32 ∧ h.version = 1 ∧ h.bad = false ∧ h.op ≠ 1 ∧ h.count = 1 ∧ h.seq = q ∧ s.session h.sess = some busySession ∧
        nmpTag busySession.key (b.take 16) = slice b 16 16
    s.negorAnswers = true ∧ (taken 101 ∧ busySession.verdict 101 = .accept) ∧ (taken 98 ∧ busySession.verdict 98 = .accept) ∧
      (taken 100 ∧ busySession.verdict 100 = .replay ⟨1, 100, 2, 0, []⟩) ∧ (taken 99 ∧ busySession.verdict 99 = .inFlight) ∧
      (taken 36 ∧ busySession.verdict 36 = .stale) := by
  decide +kernel

theorem test_nmpHeadersReadBack :
    let m : Msg := ⟨255, 2 ^ 32 - 1, 255, 2 ^ 16 - 1, []⟩
    m.op < 2 ^ 8 ∧ m.sess < 2 ^ 8 ∧ m.seq < 2 ^ 32 ∧ m.status < 2 ^ 16 := by decide

/-- Sixteen sessions are open. -/
def crowded : State := (List.range 16).foldl (fun (s : State) k => s.setSession (k + 1) {}) (up .run)

theorem test_sessionsOpenAndClose :
    ((up .run).negorAnswers = true ∧ (up .run).pow.confirmed = true ∧ (up .run).nmp.sessions.length < 16 ∧ (zeroBytes 20).length = 20 ∧
        ∃ id, 1 ≤ id ∧ id ≤ 255 ∧ (up .run).idFree id = true) ∧
      (crowded.negorAnswers = true ∧ crowded.pow.confirmed = true ∧ 16 ≤ crowded.nmp.sessions.length) ∧ (zeroBytes 19).length ≠ 20 ∧
      (owning 5).takes rq 0x02 ∧ (owning 5).owns 1 5 = true ∧ (owning 5).owns 1 6 = false ∧ (inSession .run).session 1 = some {} :=
  ⟨⟨by decide, by decide, by decide, by decide, 255, by decide⟩, by decide, by decide, takes_iff _ _ _ (by decide), by decide⟩

theorem test_heartbeatsRefreshAndLeasesExpire :
    (owning 5).takes rq 0x03 ∧ (zeroBytes 4).length = 4 ∧ (zeroBytes 8).length = 8 ∧ Fresh (owning 5) ∧ (owning 5).owns 1 5 = true ∧
      ((owning 5).cell 5).owner ≠ 0 ∧ (owning 5).session ((owning 5).cell 5).owner ≠ none ∧
      (let gone : State := (up .run).setCell 63 { owner := 9, expiry := 1 }
       (gone.cell 63).owner ≠ 0 ∧ gone.session (gone.cell 63).owner = none) :=
  ⟨takes_iff _ _ _ (by decide), by decide, by decide, fresh_of _ (by decide), by decide⟩

/-- Cell 6 is another session's. -/
def shared : State := (owning 5).setCell 6 { owner := 2, lease := 1000, expiry := 1000000 }

theorem test_acquireIsAllOrNothing :
    (shared.takes rq 0x20 ∧ rq.sess ≠ 0 ∧ Fresh shared) ∧ (499 < 500 ∧ 60000 < 60001) ∧
      (∀ c ∈ [5, 63], c < 64 ∧ ((shared.cell c).owner = 0 ∨ shared.owns 1 c = true)) ∧
      (∃ c ∈ [5, 6], (shared.cell c).owner ≠ 0 ∧ shared.owns 1 c = false) :=
  ⟨⟨takes_iff _ _ _ (by decide), by decide, fresh_of _ (by decide)⟩, by decide⟩

theorem test_releaseReclaimAndQuery :
    let orphaned : State := (inSession .run).setCell 7 { owner := 9, gen := 65535, lease := 1000, expiry := 1000000, orphan := true }
    ((owning 5).takes rq 0x21 ∧ ∀ c ∈ [5], c < 64 ∧ (owning 5).owns 1 c = true) ∧ (owning 5).takes rq 0x22 ∧
      (orphaned.takes rq 0x23 ∧ Fresh orphaned ∧
        (∀ c ∈ [(7, 65535)], c.1 < 64 ∧ (orphaned.cell c.1).orphan = true ∧ (orphaned.cell c.1).owner ≠ 0 ∧ (orphaned.cell c.1).gen = c.2)) ∧
      ∃ c ∈ [(7, 0), (8, 0)], (orphaned.cell c.1).orphan = false ∨ (orphaned.cell c.1).owner = 0 ∨ (orphaned.cell c.1).gen ≠ c.2 :=
  ⟨⟨takes_iff _ _ _ (by decide), by decide⟩, takes_iff _ _ _ (by decide), ⟨takes_iff _ _ _ (by decide), fresh_of _ (by decide), by decide⟩,
    by decide⟩

/-- Session 1 owns cell 59 and a buffer of 16 bytes there. -/
def buffered (n : Nat) : State :=
  let s := owning 59
  { s with nmp := { s.nmp with bufSerial := 1, buffers := [(1, { handle := 77, cell := 59, size := 16, key := 5, keyValid := true, inProgress := n })] } }

/-- The pool has room, or none. -/
def pool (n : Nat) : State := (owning 59).wr Sys.BUF_POOL_SIZE n

theorem test_buffersAreAllocatedAndFreed :
    ((pool 256).takes rq 0x40 ∧ (pool 256).owns 1 59 = true ∧ (pool 256).poolUsed + ceilDiv (2 ^ 28) 4096 ≤ (pool 256).rd Sys.BUF_POOL_SIZE * 256) ∧
      ((pool 0).takes rq 0x40 ∧ (pool 0).rd Sys.BUF_POOL_SIZE * 256 < (pool 0).poolUsed + ceilDiv 1 4096) ∧
      (∀ k ∈ [0, 1], ((buffered k).bufOf 77).isSome = true ∧ (buffered k).owns 1 59 = true ∧ (buffered k).bufInUse 77 = false) ∧
      (buffered 0).takes rq 0x41 ∧ (buffered 1).takes rq 0x41 ∧ (buffered 0).takes rq 0x42 ∧
      ((buffered 0).nmp.buffers.find? (fun p => p.2.handle == 77)).isSome = true :=
  ⟨⟨takes_iff _ _ _ (by decide), by decide⟩, ⟨takes_iff _ _ _ (by decide), by decide⟩, by decide, takes_iff _ _ _ (by decide),
    takes_iff _ _ _ (by decide), takes_iff _ _ _ (by decide), by decide⟩

theorem test_rdmaStaysInsideItsBuffer :
    let b (n : Nat) : Buffer := { handle := 77, cell := 59, size := 16, key := 5, keyValid := true, inProgress := n }
    ((buffered 0).nmp.buffers.find? (fun p => p.2.key == 5 && p.2.keyValid) = some (1, b 0) ∧ 0 + 16 ≤ (b 0).size ∧ (b 0).size < 1 + 16) ∧
      (buffered 0).nmp.buffers.find? (fun p => p.2.key == 6 && p.2.keyValid) = none ∧
      ((buffered 2).nmp.buffers.find? (fun p => p.2.key == 5 && decide (0 < p.2.inProgress)) = some (1, b 2) ∧ 2 ≤ (b 2).inProgress) ∧
      (let w : Buffer := { b 1 with keyValid := false, freed := true, freedBy := 1, waiting := some rq }
       let s : State := { buffered 1 with nmp := { (buffered 1).nmp with buffers := [(1, w)] } }
       s.nmp.buffers.find? (fun p => p.2.key == 5 && decide (0 < p.2.inProgress)) = some (1, w) ∧ w.inProgress = 1 ∧ w.waiting = some rq) := by
  decide

theorem test_unansweredMessagesEnd :
    let x (n : Nat) : Session := { unacked := [⟨4, [], n, 0⟩] }
    let s (n : Nat) : State := (up .run).setSession 1 (x n)
    (∀ n ∈ [7, 8], (s n).negorAnswers = true ∧ (s n).session 1 = some (x n) ∧
        (x n).unacked.find? (fun u => u.seq == 4) = some ⟨4, [], n, 0⟩) ∧ (7 < 8 ∧ 8 ≤ 8) ∧
      tfind ({ up .run with nmp := { partials := [(1 * 2 ^ 32 + 9, {})] } } : State).nmp.partials (1 * 2 ^ 32 + 9) = some {} ∧
      (inSession .run).takes rq 0x7F :=
  ⟨by decide, by decide, by decide, takes_iff _ _ _ (by decide)⟩

/-- Port 0 has the address 10.0.0.1, on VLAN 5. -/
def onVlan : State := (inSession .run).wrAll [(Eth.IPV4_ADDRESS 0, 0x0A000001), (Eth.VLAN_ID 0, 5)]

theorem test_datagramsForThePortAndForOthers :
    (5 = onVlan.rd (Eth.VLAN_ID 0) ∧ onVlan.ownAddress 0 [10, 0, 0, 1] = true ∧ onVlan.negorAnswers = true) ∧
      ¬(5 = onVlan.rd (Eth.VLAN_ID 0) ∧ onVlan.ownAddress 0 [10, 0, 0, 2] = true) ∧ 4 ≠ onVlan.rd (Eth.VLAN_ID 0) ∧
      ({ busySession with inflight := List.replicate 8 ⟨99, 2, 0, []⟩ } : Session).inflight.length = 8 := by decide +kernel

/-- Port 0 is UP, and session 1 has a queue pair there. -/
def rdmaReady (n : Nat) : State := { (buffered n).wr (Eth.LINK_STATE 0) 2 with qps := [(3, { port := 0, use := .buffer 1, reads := 15 })] }

theorem test_rdmaComesOnAQueuePair :
    let q : Qp := { port := 0, use := .buffer 1, reads := 15 }
    (tfind (rdmaReady 0).qps 3 = some q ∧ q.use = .buffer 1 ∧ (rdmaReady 0).ethUp q.port = true ∧ q.reads < 16 ∧ (rdmaReady 0).paused q.port = false ∧
        ((rdmaReady 0).eth q.port).held = []) ∧
      ((rdmaReady 0).nmp.buffers.find? (fun p => p.2.key == 5 && p.2.keyValid)).map (fun e => (e.1, e.2.size)) = some (1, 16) ∧ 0 + 16 ≤ 16 ∧ 16 < 1 + 16 ∧
      (zeroBytes 16).length = 16 := by decide +kernel

/-! ## Witnesses: sensor links -/

/-- In RUN, with a lane of port 0 in a state. -/
def laneIn (n : Nat) (x : LaneSt) : State := ((up .run).setLane 0 x).wr (Port.LANE_STATE 0 0) n

theorem test_lineHealthDecidesTheLane :
    (laneIn 1 {}).linksLive = true ∧ (laneIn 1 {}).laneState 0 = 1 ∧ healthClass 150 1050 20 1000 1000 = 1 ∧ healthClass 149 300 300 10 10 ≠ 1 ∧
      (laneIn 2 {}).linksLive = true ∧ (laneIn 2 {}).laneState 0 = 2 := by decide +kernel

/-- Another lane of the port is UP. -/
def otherUp (s : State) : State := (s.wr (Port.LANE_MASK 0) 15).wr (Port.LANE_STATE 0 1) 8

theorem test_acquisitionEndsOrRetries :
    let s := laneIn 3 {}
    let n := s.rd (Port.RETRY_LIMIT 0)
    let last := laneIn 3 { attempts := n - 1 }
    let dark := otherUp (laneIn 3 { noSignal := true })
    (s.linksLive = true ∧ s.leaderOf 0 = 0 ∧ s.laneState 0 = 3 ∧ (s.lane 0).noSignal = false ∧ s.rd (Port.LOOPBACK 0) = 0 ∧
        (s.lane 0).attempts + 1 < n) ∧
      (last.laneState 0 = 3 ∧ last.rd (Port.RETRY_LIMIT 0) ≤ (last.lane 0).attempts + 1) ∧
      (dark.laneState 0 = 3 ∧ (dark.lane 0).noSignal = true ∧
        ((dark.bondLanes 0).any fun j => j != 0 && [6, 7, 8].contains (dark.laneState j)) = true) ∧
      ∀ n ∈ [4, 5, 6, 7], [4, 5, 6, 7].contains ((laneIn n {}).laneState 0) = true := by decide +kernel

/-- The scrambled payload of IDLE after zeros. -/
def idleOnLine : BitVec 64 := BitVec.ofNat 64 (0x1E ^^^ 0x1E <<< 39 ^^^ 0x1E <<< 58)

theorem test_polarityThenBlockLockThenIdentify :
    let s (n : Nat) := laneIn 4 { evKind := 1, evCount := n }
    let forced (f : Nat) := (laneIn 4 {}).wr (Port.POLARITY_FORCE 0 0) f
    ((s 0).linksLive = true ∧ (s 0).rd (Port.LOOPBACK ((s 0).leaderOf 0)) = 0) ∧
      (∀ f ∈ [1, 2], (forced f).laneState 0 = 4 ∧ 1 ≤ (forced f).rd (Port.POLARITY_FORCE 0 0) ∧ (forced f).rd (Port.POLARITY_FORCE 0 0) ≤ 2) ∧
      (∀ n ∈ [2, 3], (s n).laneState 0 = 4 ∧ (s n).rd (Port.POLARITY_FORCE 0 0) = 0 ∧
        evidencePayload (descramble ((s n).lane 0).scram idleOnLine.toNat).1 = true ∧ ((s n).lane 0).evKind = 1 ∧ ((s n).lane 0).evCount = n) ∧
      (2 < 3 ∧ 3 ≤ 3) ∧ (laneIn 5 {}).laneState 0 = 5 ∧ (laneIn 6 {}).laneState 0 = 6 := by decide +kernel

theorem test_descramblerSynchronisesItself :
    2 ^ 58 - 1 < 2 ^ 58 ∧ 2 ^ 64 - 1 < 2 ^ 64 ∧ (laneIn 6 {}).linksLive = true ∧ (laneIn 6 {}).rd (Port.LOOPBACK ((laneIn 6 {}).leaderOf 0)) = 0 ∧
      (laneIn 6 {}).laneState (laneKey 0 0) = 6 ∧ (laneIn 7 {}).laneState (laneKey 0 0) = 7 := by decide +kernel

theorem test_lostLanesBeginAgain :
    (laneIn 6 {}).linksLive = true ∧ (laneIn 6 {}).laneState 0 = 6 ∧ (laneIn 7 {}).laneState 0 = 7 ∧ [4, 5, 6, 7].contains ((laneIn 4 {}).laneState 0) = true ∧
      (laneIn 8 {}).laneState 0 = 8 ∧ (laneIn 3 {}).laneState 0 < 4 ∧ (laneIn 9 {}).laneState 0 = 9 := by decide +kernel

/-- An ALIGN payload of Table 04-3: MARKER_COUNT, SENSOR_TAG 0, LANE_ID, a single port. -/
def align (marker lane : Nat) : Nat :=
  let w := 0x4B + lane * 2 ^ 8 + marker * 2 ^ 24 + 0x96C35A * 2 ^ 32
  w + alignCheck w * 2 ^ 56

/-- Lane 0 of port 0 has seen an ALIGN of MARKER_COUNT 255. -/
def aligned (lane : Nat) : State := (laneIn 6 { lastAlign := some (align 255 lane, 0) }).wr (Port.LANE_MASK 0) 15

/-- Both lanes of port 0 in DESKEW, with the same MARKER_COUNT 4 block times apart. -/
def deskewing : State :=
  ((((up .run).setLane 0 { marker := some (9, 100) }).setLane 1 { marker := some (9, 364) }).wrAll
    [(Port.LANE_STATE 0 0, 7), (Port.LANE_STATE 0 1, 7), (Port.LANE_MASK 0, 3), (Port.PORT_STATE 0, 2)])

theorem test_alignBlocksIdentifyAndDeskew :
    let s := aligned 0
    let v := align 0 0
    (s.linksLive = true ∧ s.leaderOf 0 = 0 ∧ s.laneState 0 = 6 ∧ alignValid v = true ∧ (s.lane 0).lastAlign = some (align 255 0, 0) ∧
        bits (align 255 0) 23 8 = bits v 23 8 ∧ bits v 31 24 = (bits (align 255 0) 31 24 + 1) % 256) ∧
      (s.alignReason 0 v = 0 ∧ s.rd (Port.PORT_STATE 0) ≠ 1 ∧
        ((s.bondLanes 0).filter fun j => j != 0 && [6, 7, 8].contains (s.laneState j) && (s.lane j).claim == some (bits v 11 8)) = []) ∧
      ((aligned 15).alignReason 0 (align 0 15) ≠ 0 ∧ alignValid (align 0 15) = true ∧ ((aligned 15).lane 0).held = 0) ∧
      alignValid 0 = false ∧
      (deskewing.rd (Port.PORT_STATE 0) = 2 ∧
        deskewing.sameMarker ((deskewing.bondLanes 0).filter fun j => deskewing.laneState j == 7 || deskewing.laneState j == 8) = some [100, 364] ∧
        spreadOf [100, 364] ≤ 264) := by decide +kernel

theorem test_packedLinesUnpack : 1 ≤ 10 ∧ (∀ v ∈ [0, 1023, 512, 7, 1], v < 2 ^ 10) := by decide

/-- Port 15 is UP. -/
def linked : State := (up .run).wr (Port.PORT_STATE 15) 3

theorem test_linesReachIngest :
    linked.generated 15 = false ∧ linked.delivers 15 = true ∧ tfind (linked.port 15).lastLine 0 = none ∧ tfind (linked.port 15).lastLine 2 = none ∧
      linked.rd (Ing.ING_WIDTH 15) ≠ 255 ∧ (up .run).generated 15 = false ∧ (up .run).delivers 15 = false := by decide +kernel

theorem test_framesStartAndEndOnTheLink :
    let framed := linked.setPort 15 { linkFrame := some 3 }
    let pattern := linked.wrAll [(Port.LOOPBACK 15, 1), (Port.PATTERN 15, 3)]
    (linked.delivers 15 = true ∧ linked.generated 15 = false ∧ linked.rd (Port.PORT_STATE 15) = 3) ∧
      (framed.delivers 15 = true ∧ framed.generated 15 = false ∧ (framed.port 15).linkFrame = some 3) ∧
      pattern.delivers 15 = true ∧ pattern.generated 15 = true ∧ (pattern.port 15).patRunning = false := by decide +kernel

theorem test_triggerPulsesStartAndEnd :
    let due := (up .run).setTrig 15 { startAt := some 10 }
    let pulsing := (up .run).setTrig 15 { endAt := some 20 }
    let divided := (up .run).wr (Port.XTRIG_ENABLE 15) 1
    ((due.trig 15).startAt = some 10 ∧ (due.trig 15).endAt = none) ∧ (pulsing.trig 15).endAt = some 20 ∧
      divided.rd (Port.XTRIG_ENABLE 15) = 1 ∧ divided.triggersRun = true ∧ (divided.trig 15).load = false := by decide +kernel

/-- The lane next to it has claimed LANE_ID 0 of the same bond. -/
def rivalled : State := ((aligned 0).setLane 1 { claim := some 0 }).wr (Port.LANE_STATE 0 1) 7

theorem test_rivalLanesHoldEachOther :
    let rivals (s : State) (v : Nat) : List Nat :=
      (s.bondLanes 0).filter fun j => j != 0 && [6, 7, 8].contains (s.laneState j) && (s.lane j).claim == some (bits v 11 8)
    (rivalled.generated 0 = false ∧ rivals rivalled (align 0 0) = [1] ∧ rivalled.laneState 1 ≠ 8) ∧
      ((aligned 15).generated 0 = false ∧ rivals (aligned 15) (align 0 15) = [] ∧ ((aligned 15).lane 0).held = 0) ∧
      (deskewing.bondLanes 0).length - 2 ≤ deskewing.rd (Port.DEGRADE_LIMIT 0) := by decide +kernel

theorem test_loopbacksRunNoCdr :
    let looped := (laneIn 8 {}).wr (Port.LOOPBACK 0) 2
    looped.linksLive = true ∧ looped.rd (Port.LOOPBACK (looped.leaderOf 0)) = 2 ∧ (laneIn 8 {}).rd (Port.LOOPBACK ((laneIn 8 {}).leaderOf 0)) ≠ 2 := by
  decide +kernel

/-- Port 15 delivers lines of 12 bits. -/
def delivering : State := (linked.wr (Ing.ING_WIDTH 15) 2).setPort 15 { fresh := false }

theorem test_linesOfEitherWidth :
    delivering.generated 15 = false ∧ delivering.delivers 15 = true ∧ (delivering.port 15).fresh = false ∧
      (∃ w ∈ [1, 2, 3, 4], widthBits w = delivering.lineWidth 15) ∧ ∃ w ∈ [1, 2, 3, 4], widthBits w ≠ delivering.lineWidth 15 := by decide +kernel

/-- Port 15 is fed by the pattern generator, its frame has four lines. -/
def patterned (running : Bool) (line : Nat) : State :=
  (linked.wrAll [(Port.LOOPBACK 15, 1), (Port.PATTERN 15, 3), (Port.PORT_ENABLE 15, 1), (Port.PATGEN_GEOMETRY 15, 4 * 2 ^ 16 + 64)]).setPort 15
    { patRunning := running, patLine := line }

theorem test_patternFramesRun :
    ((patterned false 0).delivers 15 = true ∧ (patterned false 0).generated 15 = true ∧ (patterned false 0).rd (Port.PORT_ENABLE 15) = 1 ∧
        (patterned false 0).isMember 15 = false ∧ ((patterned false 0).port 15).patRunning = false) ∧
      ((patterned true 3).delivers 15 = true ∧ (patterned true 3).generated 15 = true ∧ ((patterned true 3).port 15).patRunning = true ∧
        ((patterned true 3).port 15).patLine < bits ((patterned true 3).rd (Port.PATGEN_GEOMETRY 15)) 31 16) := by decide +kernel

/-! ## Witnesses: ingest and the Tile Raw Format -/

/-- A frame of two lines of 64 samples of 10 bits. -/
def aFrame : Frame :=
  { cfg := { ctx := 3, lines := 2, samples := 64, width := 10, deadline := 1000, pedestal := 64, black := [64, 64, 64, 64] }, port := 5, number := 9
    ticket := 7, ticketWritten := true }

theorem test_linesArePlacedInTheirGeometry :
    let l (n : Nat) : RxLine := ⟨n, 2, [none, some 1023], false, [], 4⟩
    (aFrame.next ≤ (l 1).number ∧ (l 1).number < aFrame.cfg.lines ∧ aFrame.cfg.pedestal < 2 ^ aFrame.cfg.width ∧
        (l 1).samples.getD 0 none = none ∧ (l 1).samples.getD 1 none = some 1023) ∧
      aFrame.cfg.lines ≤ (l 2).number ∧ (l 0).number < ({ aFrame with next := 1 } : Frame).next := by decide

/-- Port 5 with a frame open, closing frames, and slots. -/
def ingesting (g : IngSt) : State := (up .run).setIngest 5 g

theorem test_theDeadlineClosesTheFrame : ((ingesting { frame := some aFrame }).ingest 5).frame = some aFrame := by decide

theorem test_tileRowsThenTheTicket :
    let ready : Frame := { aFrame with closed := true }
    let done : Frame := { aFrame with tiles := [[]] }
    let opened := ingesting { frame := some ready }
    opened.ingestRuns = true ∧ (((opened.ingest 5).closing.find? Frame.rowReady = none ∧ (opened.ingest 5).frame = some ready) ∧ ready.rowReady = true) ∧
      ((ingesting { closing := [ready] }).ingest 5).closing.find? Frame.rowReady = some ready ∧
      ((ingesting { closing := [done] }).ingest 5).closing = [done] ∧ ceilDiv done.cfg.lines 8 ≤ done.tiles.length := by decide +kernel

theorem test_tilesOfTheTileRawFormat :
    let tile : List (List Nat) := List.replicate 4 (List.replicate 128 65535)
    tile.length = 4 ∧ (∀ p ∈ tile, p.length = 128 ∧ ∀ v ∈ p, v < 2 ^ 16) ∧ (4 ≤ 4 ∧ 16 ≤ 16) := by decide +kernel

/-! ## Witnesses: Chamois -/

/-- Context 3 is active with an early start on port 5, whose slot 1 holds a frame. -/
def early (slots : Table Frame) : State :=
  ((ingesting { slots := slots }).wrAll [(Ctx.CTX_STATE 3, 1), (Ctx.EARLY_START 3, 1000000), (Ing.CONTEXT 5, 3), (Port.PORT_ENABLE 5, 1)])

theorem test_earlyStartsTakeTheNewestFrame :
    let s := early [(0, { aFrame with number := 8 }), (1, aFrame)]
    let s10 := (early [(1, aFrame)]).wrAll [(Tick.SHED_LEVEL, 10), (Ctx.SHEDDABLE 3, 1), (Ctx.CTX_ENABLE 3, 1)]
    let shed : State := { s10 with scene := { s10.scene with s10 := 1 } }
    (s.earlyCtx = some 3 ∧ s.skips 3 = false ∧ (∀ e ∈ (s.ctxSt 3).waiting, e.1 ≠ Ctx.FRAMES_SKIPPED 3) ∧ s.pow.global = .run ∧ (s.ctxSt 3).job = none ∧ s.portOf 3 = some 5 ∧
        newestFrame (s.qualifying 3 5) = some (1, aFrame)) ∧
      (early []).earlyCtx = some 3 ∧ (early []).portOf 3 = some 5 ∧ (early []).qualifying 3 5 = [] ∧ (early []).skips 3 = false ∧
      (shed.earlyCtx = some 3 ∧ shed.skips 3 = true ∧ newestFrame (shed.qualifying 3 5) = some (1, aFrame)) := by decide +kernel

theorem test_stripesYieldToTheEarlyStart :
    let waiting : State := { working with scene := { running := some 3, early := some 4 } }
    (working.scene.running = some 3 ∧ (working.ctxSt 3).job = some aJob ∧ aJob.stripe + 1 < aJob.stripes ∧ working.scene.early = none) ∧
      waiting.scene.early = some 4 := by decide

theorem test_finishedJobsReport :
    let s := working.setIngest 5 { slots := [(0, aFrame)] }
    (s.scene.running = some 3 ∧ (s.ctxSt 3).job = some aJob ∧ s.slotFrame 5 0 = some aFrame ∧ aFrame.ticket < 2 ^ 32 ∧ s.rd (Ctx.WORST_JOB_END 3) < 2 ^ 32) ∧
      (let l := (up .run).setRend 31 3 { lutPend := some [] }
       let w (lut : Wait) : State := { l with nmp := { l.nmp with waits := [lut] } }
       (l.rend 31 3).lutPend.isSome = true ∧ (∀ x ∈ l.nmp.waits, x.why ≠ .lutLoad 31 3) ∧
         (w { r := rq, op := 0x12, edge := 0, status := 0, why := .lutLoad 31 3 }).nmp.waits = [{ r := rq, op := 0x12, edge := 0, status := 0, why := .lutLoad 31 3 }]) := by decide

theorem test_cf24WordsAndValuesAgree :
    (∀ v ∈ [0, 1, 0x3F0000, 0xBF0001], v < 2 ^ 24 ∧ cf24Bad v = false ∧ v ≠ 2 ^ 23) := by decide

/-! ## Witnesses: exposure and I2C -/

/-- Bus 11 in a state. -/
def busIn (n : Nat) (x : BusSt) : State := ((owning 7).setBus 11 x).wr (I2c.BUS_STATE 11) n

theorem test_theBusFollowsItsLines :
    ∀ n ∈ [1, 2, 4, 5, 6], ((busIn n {}).bus 11).sensor = [] ∧ ((busIn n {}).bus 11).hosts = [] ∧ (busIn n {}).i2cRuns = true ∧ (busIn n {}).rd (I2c.BUS_STATE 11) = n := by
  decide +kernel

theorem test_hostTransactionsEndWithACode :
    let x (n : Nat) : Xact := { len := 4, tries := n }
    let h (n : Nat) : HostList := { descs := [[x n, {}]] }
    let s (n : Nat) := busIn 3 { cur := some (true, x n), hosts := [h n] }
    ∀ n ∈ [0, 1], (s n).i2cRuns = true ∧ (s n).rd (I2c.BUS_STATE 11) = 3 ∧ ((s n).bus 11).cur = some (true, x n) ∧
      ((s n).bus 11).hosts = h n :: [] ∧ (h n).descs = (x n :: {} :: []) :: [] ∧ (x n).poll = 0 ∧ (x n).op ≠ 3 ∧
      (∀ w ∈ (s n).nmp.waits, w.why ≠ .xferList 11) := by decide +kernel

theorem test_pollingEndsTheList :
    let x : Xact := { addr := 0x50, poll := 1 }
    let h : HostList := { descs := [[x]] }
    let s := busIn 2 { pollEnd := some 5, hosts := [h] }
    let t := busIn 3 { pollEnd := some 5, hosts := [h], cur := some (true, x.pollOf) }
    (s.i2cRuns = true ∧ (s.bus 11).pollEnd = some 5 ∧ (s.bus 11).hosts = [h] ∧ h.descs = [[x]] ∧ (s.bus 11).sensor = [] ∧
        s.rd (I2c.BUS_STATE 11) = 2 ∧ (s.bus 11).cur = none ∧ (s.bus 11).pollTries = 0 ∧ (∀ w ∈ s.nmp.waits, w.why ≠ .xferList 11)) ∧
      t.i2cRuns = true ∧ t.rd (I2c.BUS_STATE 11) = 3 ∧ (t.bus 11).pollEnd = some 5 ∧ (t.bus 11).hosts = [h] ∧
        (t.bus 11).cur = some (true, x.pollOf) := by
  decide +kernel

/-- A sensor on bus 11 with one control of two bytes and one mode, two frames of delay. -/
def aDesc : Desc :=
  { windowOpen := 1000, windowClose := 1000, verifyType := 0, degrade := 0, delay := 2, speed := 0, ptrBytes := 2, addr := 0x10, bus := 11
    controls := [{ control := 1, order := 0, bytes := 2, reg := 0x100, verify := 0, num := 1, den := 1, offset := 0, minCode := 0, maxCode := 65535
                   dflt := 10 }]
    modes := [{ id := 4, bondWidth := 0, laneRate := 0, width := 0, samples := 64, lines := 8, seq := [.wait 10] }] }

/-- Port 5 with that sensor in mode 4, bound to context 3, its cell owned by session 1. -/
def controlled (x : ExpSt) (b : BusSt) (state : Nat) : State :=
  ((busIn state b).setExposure 5 { x with desc := some aDesc }).wrAll
    [(Sens.SENSOR_MODE 5, 4), (Ing.CONTEXT 5, 3), (Port.PORT_ENABLE 5, 1), (Ctx.CTX_STATE 3, 1)]

/-- EXPOSE_REQUEST of control 1 on a port. -/
def exposure (port : Nat) : List Byte := leBytes 1 port ++ leBytes 1 0 ++ leBytes 1 1 ++ zeroBytes 13 ++ leBytes 4 1 ++ leBytes 4 20

theorem test_exposureChangesAreAcceptedAndArmed :
    let s := controlled {} { cur := some (false, {}) } 3
    let gone : State := { controlled { wins := [(0, 1, 2), (1, 3, 4)] } {} 2 with clock := 9, tickets := [(3, { next := 2 })] }
    (s.takes rq 0x50 ∧ (zeroBytes 15).length < 16 ∧ (exposure 5).length = 16 + 8 * 1 ∧ leAt (exposure 5) 2 1 = 1 ∧ leAt (exposure 5) 0 1 = 5) ∧
      (leAt (exposure 6) 0 1 = 6 ∧ s.owns 1 (2 + 6) = false) ∧
      (s.owns 1 (2 + 5) = true ∧ leAt (exposure 5) 1 1 % 2 = 0 ∧ (s.exposure 5).desc = some aDesc ∧
        ((s.heard rq).exposeCheck 5 (exposeControls (exposure 5))).1 = Status.OK ∧ (s.heard rq).targetCheck 5 0 = Status.OK ∧
        ((s.heard rq).chooseWindow 5 ((s.heard rq).asapWindow 5)).isSome = true ∧ (s.bus aDesc.bus).cur.isSome = true ∧ (exposure 5).length = 16 + 8 * 1 ∧
        bit (leAt (exposure 5) 8 8) 40 = false) ∧
      (gone.heard rq).chooseWindow 5 0 = none :=
  ⟨⟨takes_iff _ _ _ (by decide), by decide +kernel⟩, by decide +kernel, by decide +kernel, by decide +kernel⟩

/-- The same, bound to ticket 2 of context 3. -/
def boundExposure : List Byte := leBytes 1 5 ++ leBytes 1 0 ++ leBytes 1 1 ++ zeroBytes 5 ++ leBytes 8 (2 ^ 40 + 3 * 2 ^ 32 + 2) ++ leBytes 4 1 ++ leBytes 4 20

theorem test_changesForAPastWindow :
    let s : State := { controlled { wins := [(0, 1, 2), (1, 3, 4)] } {} 2 with clock := 9, tickets := [(3, { next := 2 })] }
    let b := boundExposure
    let target := leAt b 8 8
    (b.length = 16 + 8 * 1 ∧ leAt b 2 1 = 1 ∧ leAt b 0 1 = 5 ∧ s.owns 1 (2 + 5) = true ∧ leAt b 1 1 % 2 = 0 ∧ (s.exposure 5).desc = some aDesc) ∧
      bit target 40 = true ∧ (bits target 31 0 + 2 ^ 32 - aDesc.delay) % 2 ^ 32 = 0 ∧
      ((s.heard rq).exposeCheck 5 (exposeControls b)).1 = Status.OK ∧ (s.heard rq).targetCheck 5 target = Status.OK ∧
      (s.heard rq).chooseWindow 5 0 = none := by decide +kernel

/-- The first transaction of a change. -/
def aChange : SensorJob := { port := 5, kind := .change 1, steps := [.xact { len := 2 }], win := 0 }

theorem test_writeWindowsCarryTheChange :
    let s := controlled { wins := [(0, 100, 100000000)] } { sensor := [aChange] } 2
    let last : SensorJob := { aChange with steps := [], started := true, close := 900 }
    let t := controlled { pend := [{ id := 1, r := some rq }] } { sensor := [last] } 3
    let back := controlled { restoring := true } { sensor := [{ last with kind := .restore }] } 3
    ((s.exposure 5).desc = some aDesc ∧ aDesc.bus < 12 ∧ (s.bus aDesc.bus).sensor = [aChange] ∧
        (s.exposure 5).nextWindow = some (0, 100, 100000000) ∧ (s.exposure 5).restoring = false ∧ s.i2cRuns = true ∧
        (s.bus aDesc.bus).cur = none ∧ s.rd (I2c.BUS_STATE aDesc.bus) = 2 ∧
        (s.at 100).jobReady aChange = true ∧ (s.at 100).jobFits aChange = true ∧ aChange.steps = .xact { len := 2 } :: []) ∧
      ((t.bus aDesc.bus).sensor = [last] ∧ last.port = 5 ∧ last.kind = .change 1 ∧ last.steps = [] ∧ last.started = true ∧
        (t.bus aDesc.bus).hosts = [] ∧ (t.exposure 5).pend.find? (fun c => c.id == 1) = some { id := 1, r := some rq }) ∧
      (back.bus aDesc.bus).sensor = [{ last with kind := .restore }] ∧ (back.exposure 5).desc = some aDesc := by decide +kernel

theorem test_modeSequencesRunToTheirEnd :
    let done : SensorJob := { port := 5, kind := .mode, steps := [] }
    let waits : SensorJob := { port := 5, kind := .mode, steps := [.wait 10], waitUntil := some 50 }
    let s := controlled {} { sensor := [done] } 2
    let t := controlled {} { sensor := [waits] } 4
    let u := controlled { modeRetry := some 60 } {} 4
    ((s.exposure 5).desc = some aDesc ∧ (s.bus aDesc.bus).sensor = [done] ∧ done.port = 5 ∧ done.kind = .mode ∧ done.steps = [] ∧ (s.bus aDesc.bus).hosts = []) ∧
      ((t.bus aDesc.bus).sensor = [waits] ∧ waits.waitUntil = some 50 ∧ t.rd (I2c.BUS_STATE aDesc.bus) = 4) ∧
      (u.exposure 5).modeRetry = some 60 ∧ (aDesc.modes.find? fun m => m.id == u.rd (Sens.SENSOR_MODE 5)).isSome = true ∧
      u.rd (I2c.BUS_STATE aDesc.bus) = 4 := by decide +kernel

/-! ## Witnesses: display heads -/

/-- Head 3 with its link in a state. -/
def headIn (n : Nat) (x : HeadSt) : State := ((up .run).setHead 3 x).wr (Head.LINK_STATE 3) n

theorem test_linksFollowTheirSink :
    (∀ n ∈ [1, 2, 3, 5], (headIn n {}).rd (Head.LINK_STATE 3) = n) ∧ 2 ^ 32 - 1 < 2 ^ 32 ∧
      (let s := (headIn 2 {}).wrAll [(Head.PIXEL_CLOCK 3, 25000), (Head.SINK_CAPS 3, 3 * 256 + 4 * 16)]
       let fits (works : List (Nat × Nat)) := (s.trainingOrder 3).find? fun e => works.contains e &&
         modeFits (s.rd (Head.PIXEL_CLOCK 3)) (bitsPerPixel (s.rd (Head.OUT_COLOUR 3)) (s.rd (Head.OUT_BPC 3))) e.1 e.2
       (fits (s.trainingOrder 3)).isSome = true ∧ fits [] = none) := by decide +kernel

theorem test_displayFramesStartAndAlign :
    let locked (jump : Nat) := (headIn 3 { good := 7 }).wrAll [(Head.LOCK_MODE 3, 1), (Head.LOCK_JUMP 3, jump), (Head.H_TIMING_A 3, 100 * 65536),
      (Head.PIXEL_CLOCK 3, 100000)]
    (headIn 3 {}).rd (Head.LINK_STATE 3) ≠ 0 ∧ (headIn 3 {}).rd (Head.LOCK_MODE 3) = 0 ∧
      (∀ j ∈ [0, 1], (locked j).rd (Head.LOCK_MODE 3) ≠ 0 ∧ ((locked j).head 3).align % max 1 ((locked j).lockRatio 3).1 = 0 ∧
        (0 : Int).natAbs * ((locked j).lineTime 3).2 / max 1 ((locked j).lineTime 3).1 = 0 ∧
        (10000000 : Int).natAbs * ((locked j).lineTime 3).2 / max 1 ((locked j).lineTime 3).1 ≠ 0) ∧
      ((locked 1).rd (Head.LOCK_JUMP 3) ≠ 0 ∧ (locked 1).rd (Head.LOCK_JUMP 3) * max 1 ((locked 1).lineTime 3).1 <
        (10000000 : Int).natAbs * ((locked 1).lineTime 3).2) ∧
      ¬((locked 0).rd (Head.LOCK_JUMP 3) ≠ 0) := by decide +kernel

theorem test_valuesLatchAtTheirPoint :
    let g (n : Nat) : HeadGroup := { vals := [(Head.BACKGROUND 3, .num (2 ^ 32 - 1))], skip := n }
    let s (n : Nat) := headIn 3 { groups := [g n], due := some 5 }
    let held := headIn 4 { groups := [g 0], due := some 5 }
    ((s 1).rd (Head.LINK_STATE 3) ≠ 0 ∧ ((s 1).head 3).due.isSome = true ∧ ((s 1).head 3).latched = false ∧ ∀ x ∈ ((s 1).head 3).groups, x.skip ≠ 0) ∧
      (((s 0).head 3).groups = [g 0] ∧ (g 0).vals = [(Head.BACKGROUND 3, .num (2 ^ 32 - 1))] ∧ (g 0).skip = 0 ∧ ((s 0).head 3).latched = false) ∧
      (held.rd (Head.LINK_STATE 3) = 4 ∧ (held.head 3).groups = [g 0] ∧ (held.head 3).due.isSome = true ∧ (held.head 3).latched = false) ∧
      ((s 0).wr (Head.COMMIT_MODE 3) 0).rd (Head.COMMIT_MODE 3) = 0 := by decide +kernel

theorem test_underflowsAreCountedOnceAFrame :
    let s := (headIn 3 { lastUnder := some 0 }).wrAll [(Head.LAYER_ENABLE 3 2, 1), (Head.LAYER_SOURCE 3 2, 1)]
    s.rd (Head.LINK_STATE 3) ≠ 0 ∧ s.layerSource 3 2 ≠ 0 ∧ (s.head 3).lastUnder = some 0 ∧ s.clock < 0 + 1000000000 := by decide +kernel

/-! ## Witnesses: the network, Device Time, the Tick Ring, the streams -/

/-- Ethernet port 1 with its link in a state. -/
def ethIn (n : Nat) (x : EthSt) : State := ((up .run).setEth 1 x).wr (Eth.LINK_STATE 1) n

theorem test_ethernetLinksTrain :
    (ethIn 1 {}).netRuns = true ∧ (ethIn 1 {}).rd (Eth.LINK_STATE 1) = 1 ∧ (ethIn 2 {}).netRuns = true ∧ (ethIn 2 {}).rd (Eth.LINK_STATE 1) = 2 := by
  decide +kernel

theorem test_pausesHoldTheirPriority :
    let s := (ethIn 2 {}).wrAll [(Eth.PFC_ENABLE 1, 1), (Eth.ROCE_PRIORITY 1, 7)]
    (s.ethUp 1 = true ∧ s.rd (Eth.PFC_ENABLE 1) = 1 ∧ 7 = s.rd (Eth.ROCE_PRIORITY 1) ∧ s.rd (Eth.PFC_ENABLE 1) ≠ 0 ∧ (s.eth 1).ignoreUntil ≤ s.clock) ∧
      ((ethIn 2 { pause := some (0, 10) }).eth 1).pause = some (0, 10) ∧ (s.eth 1).sentPause ≠ true := by decide +kernel

/-- A queue pair of the buffer service on port 1. -/
def qp (retries rate : Nat) : State :=
  { ethIn 2 {} with qps := [(4, { port := 1, use := .buffer 1, rate := rate, retries := retries })], qpSerial := 5 }

/-- The same port held by a pause. -/
def pausedQp : State := (qp 0 5).setEth 1 { pause := some (0, 10) }

/-- The private data by which session 1 asks for a queue pair of the buffer service with queue pair number 9. -/
def connectData : List Byte := leBytes 4 1 ++ (hmacSha256 [] (ascii "NMP-RDMA" ++ leBytes 4 9)).take 16

theorem test_queuePairsConnectSlowDownAndRetry :
    let q (n : Nat) : Qp := { port := 1, use := .buffer 1, rate := 5, retries := n }
    let due (s : State) (n : Nat) : Nat := max s.clock ((q n).sentAt + 4096 * 2 ^ s.rd (Eth.ROCE_ACK_TIMEOUT (q n).port))
    let s := (qp 0 5).setSession 1 {}
    (tfind (qp 0 5).qps 4 = some (q 0) ∧ (q 0).port < 2 ∧ 5 < fullRate ∧ (qp 0 5).ethUp 1 = true ∧ (qp 0 5).paused 1 = false ∧
        ((qp 0 5).eth 1).held = []) ∧
      (tfind pausedQp.qps 4 = some (q 0) ∧ pausedQp.paused 1 = true) ∧
      ((qp 0 5).bufferConnectBad 9 1024 [] ≠ 0 ∧ s.ethUp 1 = true ∧ s.paused 1 = false ∧ (s.eth 1).held = [] ∧
        s.bufferConnectBad 9 1024 connectData = 0) ∧
      (0 < (qp 0 5).rd (Eth.ROCE_RETRY 1) ∧ ((qp 0 5).at (due (qp 0 5) 0)).paused 1 = false) ∧
      tfind (qp 7 5).qps 4 = some (q 7) ∧ (qp 7 5).rd (Eth.ROCE_RETRY 1) ≤ (q 7).retries := by decide +kernel

/-- Port 1 with its addresses. -/
def addressed : State :=
  { (ethIn 2 {}).wr (Eth.IPV4_ADDRESS 1) 0x0A000001 with blobs := [(Eth.IPV6_ADDRESS 1, List.replicate 16 7)] }

theorem test_portsAnswerForTheirAddresses :
    addressed.ethUp 1 = true ∧ addressed.ownAddress 1 [10, 0, 0, 1] = true ∧ addressed.ownAddress 1 (List.replicate 16 7) = true ∧
      addressed.ownAddress 1 [10, 0, 0, 2] = false := by
  refine ⟨by decide +kernel, by decide +kernel, ?_, by decide +kernel⟩
  simp only [State.ownAddress, List.length_replicate, Nat.reduceEqDiff, if_false, beq_self_eq_true, Bool.true_and, Bool.or_eq_true]
  right
  decide +kernel

/-- A PTP message of a type, one-step, with a departure. -/
def ptp (type domain sec ns : Nat) : List Byte :=
  beBytes 1 type ++ zeroBytes 3 ++ beBytes 1 domain ++ zeroBytes 29 ++ beBytes 6 sec ++ beBytes 4 ns

/-- A slave of the master with port identity 0 on port 1. -/
def slave (source : Nat) : State :=
  { (ethIn 2 {}).wrAll [(Time.PTP_ROLE, 1), (Time.TIME_SOURCE, source), (Time.TIME_STEP_THRESHOLD, 1000), (Time.PTP_PORT_STATE 1, 8)] with
    ptp := { master := some (1, 0), delay := some 10, foreign := [⟨1, 0, 2, 0, ⟨0, 0, 0, 0, 0, 0, 0⟩⟩] } }

theorem test_ptpMessagesDriveDeviceTime :
    let s := slave 1
    let d := s.rd Time.PTP_DOMAIN
    (s.ethUp 1 = true ∧ (s.wr Time.PTP_ROLE 0).rd Time.PTP_ROLE = 0 ∧ (ptpHeader (ptp 0 (d + 1) 0 0)).domain ≠ d ∧ 7 ≠ s.rd (Eth.VLAN_ID 1)) ∧
      (s.rd Time.PTP_ROLE ≠ 0 ∧ (ptpHeader (ptp 1 d 0 0)).domain = d ∧ (ptpHeader (ptp 1 d 0 0)).type = 1 ∧
        (s.wr (Time.PTP_PORT_STATE 1) 6).rd (Time.PTP_PORT_STATE 1) = 6) ∧
      ((ptpHeader (ptp 0 d 0 0)).domain = d ∧ (ptpHeader (ptp 0 d 0 0)).type = 0 ∧ (ptpHeader (ptp 0 d 0 0)).twoStep = false ∧
        s.ptp.master = some (1, (ptpHeader (ptp 0 d 0 0)).source) ∧ 2 ^ 64 ≤ ptpStamp (ptp 0 d (2 ^ 35) 0) ∧ s.ptp.delay = some 10) ∧
      (let offset (b : List Byte) : Int := (s.deviceTime : Int) - s.rdS (Time.PTP_ASYMMETRY 1) - ((ptpStamp b : Int) + (ptpHeader b).correction) - 10
       s.rd Time.TIME_SOURCE = 1 ∧ (s.rd Time.TIME_STEP_THRESHOLD : Int) < |offset (ptp 0 d 1 0)| ∧
         |offset (ptp 0 d 0 0)| ≤ (s.rd Time.TIME_STEP_THRESHOLD : Int)) ∧ (slave 0).rd Time.TIME_SOURCE ≠ 1 := by decide +kernel

theorem test_ptpSendsAndLosesItsMaster :
    (∀ n ∈ [6, 8, 9], ((slave 1).wr (Time.PTP_PORT_STATE 1) n).ethUp 1 = true ∧
        ((slave 1).wr (Time.PTP_PORT_STATE 1) n).rd (Time.PTP_PORT_STATE 1) = n) ∧
      (slave 1).ptp.master = some (1, 0) ∧ (slave 1).ptp.foreign = [⟨1, 0, 2, 0, ⟨0, 0, 0, 0, 0, 0, 0⟩⟩] ∧ (slave 1).tick.src ≠ 1 ∧
      (slave 1).rd Time.TIME_SOURCE = 1 ∧
      (let locked : State := { (slave 1).wr Tick.TICK_STATE 2 with tick := { src := 1 } }
       locked.tick.src = 1 ∧ locked.rd Tick.TICK_STATE = TickState.LOCKED) ∧
      (let alone : State := { (ethIn 2 {}).wr Time.PTP_ROLE 2 with ptp := {} }
       alone.ethUp 1 = true ∧ alone.ethUp 0 = false ∧ alone.rd Time.PTP_ROLE = 2 ∧ alone.ptp.master = none ∧ alone.qualified = []) := by decide +kernel

/-- Sync input 1 measured at 1 ms, its latest edge at 0. -/
def syncAt (clock src : Nat) : State :=
  { ((up .run).setSync 1 { lastAt := some 0, pm := 1000000, rawAt := some 0 }).wr Tick.TICK_STATE 3 with clock := clock, tick := { src := src } }

theorem test_syncInputsAreMeasured :
    let s := syncAt 1050000 0
    ((s.sync 1).lastAt = some 0 ∧ (s.sync 1).pm ≠ 0 ∧ s.netRuns = true ∧ (s.sync 1).rawAt = some 0 ∧ offBy5 (s.clock - 0) 1000000 1000000 = false ∧
        s.clock - 0 < 2 ^ 32 ∧ s.tick.src ≠ 2 + 1) ∧
      ((syncAt 1050000 3).tick.src = 2 + 1 ∧ (syncAt 1050000 3).rd Tick.TICK_STATE = TickState.HOLDOVER ∧ ((syncAt 1050000 3).sync 1).lastAt = some 0) ∧
      (offBy5 ((syncAt 1050001 0).clock - 0) 1000000 1000000 = true ∧ ((syncAt 1050001 0).sync 1).stopped = false ∧
        ((syncAt 1050001 0).sync 1).odd.length < 7) ∧
      ((syncAt 0 3).wr Tick.TICK_STATE 2).rd Tick.TICK_STATE = TickState.LOCKED := by decide +kernel

/-- Ring port 3 in a state, the device a follower. -/
def ringIn (n : Nat) (x : RingPort) : State := ((up .run).setRingPort 3 x).wrAll [(Ring.RING_PORT_STATE 3, n), (Tick.TICK_SOURCE, 4)]

theorem test_ringPortsComeUpAndSelectAParent :
    (∀ n ∈ [1, 2, 3], (ringIn n {}).netRuns = true ∧ (ringIn n {}).rd (Ring.RING_PORT_STATE 3) = n) ∧
      ((ringIn 3 {}).follower = true ∧ (∀ q : Fin 4, q ≠ 3 → (ringIn 3 {}).rd (Ring.RING_PORT_STATE q) ≠ 3) ∧ bits 0 47 32 ≠ 0xFFFF) ∧
      ({ ringIn 3 {} with ring := { parent := some 3 } } : State).ring.parent = some 3 := by decide +kernel

theorem test_hopDelaysAreMeasured :
    let s (n : Nat) := ringIn n { req := some 0, status := true, delays := List.replicate 15 1 }
    (∀ n ∈ [2, 3], (s n).netRuns = true ∧ 2 ≤ (s n).rd (Ring.RING_PORT_STATE 3) ∧ ((s n).ringPort 3).req = some (bits 0 63 56)) ∧
      ((hopDelayPs 0 (bits 0 55 8) :: ((s 2).ringPort 3).delays).take 16).length = 16 ∧ ((s 2).ringPort 3).status = true := by decide +kernel

theorem test_ringTicksGiveTheAlignError :
    let s := ringIn 3 { status := true }
    s.rd (Ring.RING_PORT_STATE 3) = 3 ∧ s.follower = true ∧ (∀ q : Fin 4, q ≠ 3 → s.rd (Ring.RING_PORT_STATE q) ≠ 3) ∧ s.neighbourHops 3 ≠ 0xFFFF ∧
      (s.ringPort 3).status = true ∧ bits (0xFFFF * 2 ^ 40) 55 40 = 0xFFFF := by decide +kernel

theorem test_ringEventsGoRoundOnce :
    let s : State := { ringIn 3 {} with
      regs := tins (ringIn 3 {}).regs Ring.RING_ID 5, fab := { ringTx := [63] }, ring := { origins := [(6, [(0, 9)])] } }
    let b (origin hops seq : Nat) := origin * 2 ^ 48 + hops * 2 ^ 32 + seq * 2 ^ 16
    (s.netRuns = true ∧ 63 ∈ s.fab.ringTx ∧ s.rd (Ring.RING_PORT_STATE 3) = 3 ∧ bits (b 5 0 0) 63 48 = s.rd Ring.RING_ID) ∧
      (bits (b 6 0 9) 63 48 ≠ s.rd Ring.RING_ID ∧ (s.ring.origins.find? fun o => o.1 == bits (b 6 0 9) 63 48).map Prod.snd = some [(0, 9)] ∧
        tfind [(0, 9)] (bits (b 6 0 9) 13 8) = some 9 ∧ later 16 (bits (b 6 0 9) 31 16) 9 = false) ∧
      (s.ring.origins.find? fun o => o.1 == bits (b 7 0xFFFE 0) 63 48) = none ∧ bits (b 7 0xFFFE 0) 47 32 ≠ 0xFFFF := by decide +kernel

/-- Sender `n` enabled with an alignment point due, from rendition 0 of context 3, which has a completed buffer where it is live. -/
def sender (n : Nat) (live : Bool) : State :=
  let s := (up .run).setStream n { alignAt := some 10 }
  let s := s.setRend 3 0 { latest := some 2, on := live }
  s.wrAll [(St.STREAM_ENABLE n, 1), (St.STREAM_SOURCE n, 3 * 256), (Ctx.CTX_STATE 3, 1)]

theorem test_sendersAlignAndSend :
    (∀ n ∈ [0x1F, 0x30], ((sender n false).stream n).alignAt = some 10 ∧ (sender n false).rd (St.STREAM_ENABLE n) ≠ 0 ∧
        ((sender n false).stream n).video = [] ∧ (∀ k ∈ [16 + n, (sender n true).nextHold n], ∀ s ∈ [sender n false, sender n true],
          ∀ e ∈ s.ctxs, ∀ r ∈ e.2.rends, ∀ x ∈ r.2.held, x.1 ≠ k) ∧
        ((sender n false).sendersRun && (sender n false).rendLive ((sender n false).streamRend n).1 ((sender n false).streamRend n).2) = false ∧
        ((sender n true).sendersRun && (sender n true).rendLive ((sender n true).streamRend n).1 ((sender n true).streamRend n).2) = true ∧
        ((sender n true).rend 3 0).latest = some 2) ∧
      ((sender 0x30 true).wr (St.ANC_TICKET 0x30) 1).rd (St.ANC_TICKET 0x30) = 1 ∧
      (let x : VideoTx := { ctx := 3, rend := 0, buf := 2, fmt := 0, w := 64, h := 8, stamp := 0, total := 2, nextAt := 20, gap := 5, hold := 95 }
       let s := ((up .run).setStream 79 { video := [x] }).wrAll [(St.STREAM_PORTS 79, 1), (Eth.LINK_STATE 0, 2)]
       (s.stream 79).video = x :: [] ∧ s.pow.global ≠ .faultHold ∧ x.sent + 1 < x.total ∧ s.rd (St.STREAM_PORTS 79) = 1 ∧ s.ethUp 0 = true) := by decide +kernel

theorem test_receiversPlacePackets :
    let s := ((up .run).setStream 0x5F { rx := [(7, 100000, 1, [])] }).wrAll
      [(St.STREAM_ENABLE 0x5F, 1), (St.STREAM_PORTS 0x5F, 3), (Eth.LINK_STATE 1, 2), (St.AUDIO_CHANNELS 0x5F, 1), (St.RX_DELAY 0x5F, 0)]
    s.rd (St.STREAM_ENABLE 0x5F) ≠ 0 ∧ bit (s.rd (St.STREAM_PORTS 0x5F)) 1 = true ∧ s.ethUp 1 = true ∧ s.sendersRun = true ∧
      (∀ e ∈ (s.stream 0x5F).rx, laterEq 32 (s.rxStamp 0x5F s.clock) e.2.1 = false) ∧
      tfind (s.stream 0x5F).rx 7 = some (100000, 1, []) ∧ tfind (s.stream 0x5F).rx 8 = none ∧ (s.stream 0x5F).rxPlayed.contains 8 = false := by
  decide +kernel

/-! ## Witnesses: the recorder -/

/-- A set of one member without redundancy. -/
def aSet : Superblock :=
  { formatTime := 0, extBase := 1000, userMiB := 0, extents := 100000, dirEntries := 4, journal := 8, memberBlocks := 100000, ids := [1, 0, 0, 0]
    setId := 9, generation := 1, failed := 0, index := 0, count := 1, layout := 0 }

theorem test_mediaBlocksReadBack :
    let x : Superblock := { aSet with layout := 255, count := 255, generation := 2 ^ 32 - 1, setId := 2 ^ 64 - 1 }
    let e : JEntry := { type := 255, sub := 255, clip := 2 ^ 32 - 1, a := 2 ^ 64 - 1, b := 0, c := 0 }
    (x.layout < 2 ^ 8 ∧ x.count < 2 ^ 8 ∧ x.index < 2 ^ 8 ∧ x.failed < 2 ^ 8 ∧ x.generation < 2 ^ 32 ∧ x.setId < 2 ^ 64 ∧ x.ids.length = 4 ∧
        (∀ k ∈ x.ids, k < 2 ^ 64) ∧ x.memberBlocks < 2 ^ 64 ∧ x.journal < 2 ^ 32 ∧ x.dirEntries < 2 ^ 32 ∧ x.extents < 2 ^ 32 ∧ x.userMiB < 2 ^ 32 ∧
        x.extBase < 2 ^ 64 ∧ x.formatTime < 2 ^ 64) ∧
      (List.replicate 126 e).length ≤ 126 ∧
      ∀ f ∈ List.replicate 126 e, f.type < 2 ^ 8 ∧ f.sub < 2 ^ 8 ∧ f.clip < 2 ^ 32 ∧ f.a < 2 ^ 64 ∧ f.b < 2 ^ 64 ∧ f.c < 2 ^ 64 := by decide +kernel

theorem test_setBlocksNeverShareAPlace :
    (∃ p, p ∈ setCopies 2 4 7 ∧ p ∈ setCopies 2 4 7) ∧ (setCopies 0 4 7).length = 1 ∧ (setCopies 1 2 7).length = 2 :=
  ⟨⟨(setCopies 2 4 7).getD 0 (0, 0), by decide, by decide⟩, by decide, by decide⟩

/-- The recorder in RUN with the set, MEDIA_STATE READY. -/
def recording (m : RecSt) : State := { (owning 57).wr Rec.MEDIA_STATE 3 with media := { m with sb := some aSet } }

/-- An SSD whose superblock is `x`, on root port 0. -/
def withSsd (blocks : Table (List Byte)) : State :=
  { up .ready with media := { ssds := [(0, { info := { gen := 4, width := 4, id := 1, capacity := 100000, supported := true, content := [] }, content := blocks })] } }

set_option maxRecDepth 100000 in
theorem test_mediaSetsAreFormattedAndMounted :
    let f : State := { recording { formatting := some (0, [0], 8, 4, 0) } with tgt := {} }
    let s := withSsd []
    let t := withSsd [(0, aSet.bytes)]
    (f.media.formatting = some (0, [0], 8, 4, 0) ∧ f.tgt.cmds = []) ∧
      (s.recorderRuns = true ∧ s.media.clips = [] ∧ s.media.rebuilding = none ∧ s.media.formatting = none ∧ s.superblocks = []) ∧
      t.recorderRuns = true ∧ t.superblocks ≠ [] := by decide +kernel

theorem test_rebuildsPutTheMemberInService :
    let s : State := { up .run with media := { rebuilding := some (3, 3), sb := some { aSet with count := 4, layout := 2 } } }
    s.media.rebuilding = some (3, 3) ∧ (s.media.sb.map Superblock.count) = some 4 ∧ 3 < 4 := by decide

/-- A CLIP_START payload for the video of port 5. -/
def clipStart : List Byte := zeroBytes 8 ++ leBytes 2 32 ++ zeroBytes 70

/-- Port 5 may be recorded; the caps of the custom profile lie above every estimate of the power model. -/
def clipReady : State :=
  let s := (owning 57).wrAll [(Rec.MEDIA_STATE, 3), (Ing.CONTEXT 5, 3), (Port.PORT_ENABLE 5, 1), (Ctx.CTX_STATE 3, 1), (Ctx.CTX_ENABLE 3, 1),
    (Rec.DECLARED_RATE, 2 ^ 40), (Tick.ACTIVE_CAP, 2 ^ 32 - 1), (Tick.PROFILE, 4),
    (Tick.CUSTOM_POWER_CAP, 2 ^ 32 - 1), (Tick.CUSTOM_FLOOR, 2 ^ 32 - 1), (Dram.CHANNELS_IN_SERVICE, 255)]
  { s with media := { s.media with sb := some aSet } }

/-- The committed plan, without the clip and with it. -/
def clipPlan : State := (clipReady.heard rq).committed

theorem powerResource_below (s : State) (items : List Nat) (mhz cap : Nat) (h : 2 ^ 32 - 1 ≤ cap) :
    (s.powerResource items mhz cap).required ≤ (s.powerResource items mhz cap).available := by
  have hb := (Config.powerEstimate s.planParams items mhz).isLt
  simp only [State.powerResource]
  split <;> omega

/-- The plan with the clip. -/
def clipCand : State := clipPlan.withClip clipStart

theorem clipSteps_fit (items : List Nat)
    (h : ([clipCand.sceneResource items (capClock clipCand.profile (2 ^ 32 - 1)), clipCand.rendResource items (capClock clipCand.profile (2 ^ 32 - 1)),
      clipCand.realTime items, clipCand.pixelClass items, clipCand.mediaClass items,
      { code := 0x08, unit := 4, required := clipCand.recordRate, available := clipCand.rd Rec.DECLARED_RATE }, clipCand.egress items 0,
      clipCand.egress items 1,
      { code := 0x0B, unit := 6, required := clipCand.planned.length, available := clipCand.profile.maxContexts, mask := clipCand.planned }] : List Shortfall).all Shortfall.fits = true) :
    (clipCand.stepResources items (2 ^ 32 - 1)).all Shortfall.fits = true := by
  have hc : clipCand.controlClass.fits = true := by
    rw [Shortfall.fits, Bool.and_eq_true, decide_eq_true_eq]
    exact ⟨controlClass_fits _ (by decide +kernel), rfl⟩
  have hp : (clipCand.powerResource items (capClock clipCand.profile (2 ^ 32 - 1)) (2 ^ 32 - 1)).fits = true := by
    rw [Shortfall.fits, Bool.and_eq_true, decide_eq_true_eq]
    exact ⟨powerResource_below _ _ _ _ (Nat.le_refl _), rfl⟩
  simp only [List.all_cons, List.all_nil, Bool.and_true, Bool.and_eq_true, State.stepResources] at h ⊢
  simp only [h, hc, hp, and_self]

theorem clipPlan_fits : shortfalls clipPlan clipCand = [] := by
  have hf := clipSteps_fit clipCand.profile.shedOrder (by decide +kernel)
  have hcap : clipCand.profile.floorCap = 2 ^ 32 - 1 := by decide +kernel
  exact shortfalls_nil _ _ (2 ^ 32 - 1) 0 (by decide +kernel) (clipSteps_fit _ (by decide +kernel))
    (floor_fits _ (by rw [hcap]; exact hf) (by decide +kernel))

theorem test_clipsOpenOnceAdmitted :
    ((owning 0).takes rq 0x60 ∧ (owning 0).owns 1 57 = false) ∧ ((owning 57).takes rq 0x60 ∧ ((owning 57).heard rq).clipStartBad [] ≠ Status.OK) ∧
      (clipReady.takes rq 0x60 ∧ clipReady.owns 1 57 = true ∧ (clipReady.heard rq).clipStartBad clipStart = Status.OK ∧
        admission clipPlan clipCand = (Status.OK, []) ∧ clipReady.freeClipSlot = some 0 ∧ clipReady.freeDir = some 0 ∧
        clipReady.media.clips.length < 4) := by
  refine ⟨⟨takes_iff _ _ _ (by decide), by decide⟩, ⟨takes_iff _ _ _ (by decide), by decide⟩,
    takes_iff _ _ _ (by decide +kernel), by decide +kernel, by decide +kernel, ?_, by decide +kernel, by decide +kernel, by decide +kernel⟩
  have he : clipCand.earlyBad = false := by decide +kernel
  simp only [admission, he, clipPlan_fits, Bool.false_eq_true, if_false]

/-- A clip of port 5. -/
def aClip : Clip := { id := 6, dir := 0, streams := [{ stream := 0, kind := 0, port := 5 }], extents := [], firstTick := 0 }

theorem test_clipsStopAtTheirTick :
    let s (c : Clip) := recording { clips := [(3, c)] }
    let stop (tick : Nat) : List Byte := leBytes 1 1 ++ zeroBytes 3 ++ leBytes 4 tick ++ leBytes 4 6
    ((s aClip).takes rq 0x61 ∧ (s aClip).owns 1 57 = true ∧ (recording {}).media.clips.find? (fun e => e.2.id == leAt (stop 9) 8 4) = none) ∧
      ((s aClip).media.clips.find? (fun e => e.2.id == leAt (stop 9) 8 4) = some (3, aClip) ∧ (s aClip).clip 3 = some aClip ∧
        (stop 9).length = 12 ∧ aClip.stopTick = none ∧ later 32 9 (s aClip).tickSeq = true ∧ later 32 0 (s aClip).tickSeq = false) ∧
      ({ aClip with stopTick := some 4 } : Clip).stopTick.isSome = true :=
  ⟨⟨takes_iff _ _ _ (by decide +kernel), by decide +kernel⟩, by decide +kernel, by decide⟩

theorem test_framesJoinTheirClip :
    let x : ClipStream := { stream := 0, kind := 0, port := 5 }
    let s (c : Clip) := (recording { clips := [(3, c)] }).setIngest 5 { slots := [(1, aFrame)] }
    let roomy : Clip := { aClip with extents := [0] }
    let full : State := { s aClip with media := { (s aClip).media with sb := some { aSet with extents := 0 } } }
    ((s roomy).recorderRuns = true ∧ (s roomy).clipOfPort 5 = some (3, roomy, x) ∧ (s roomy).clip 3 = some roomy ∧
        (s roomy).untaken 5 roomy x = [aFrame] ∧ roomy.extentsFor (chunkSize aFrame.media.length) = 0) ∧
      (full.clipOfPort 5 = some (3, aClip, x) ∧ full.untaken 5 aClip x = [aFrame] ∧ 0 < aClip.extentsFor (chunkSize aFrame.media.length) ∧
        full.media.freeExtents ≤ (full.media.clips.map fun e => e.2.reserve).sum ∧ aClip.stopTick = none) ∧
      (let taken : Clip := { roomy with frames := [{ stream := 0, port := 5, number := 9, frame := aFrame }] }
       (s taken).clipOfPort 5 = some (3, taken, x) ∧ (taken.frames.find? fun g => g.port == 5 && g.state == 0).isSome = true ∧
         (s taken).media.ports = []) := by decide +kernel

theorem test_commitsMakeClipsDurable :
    let s (r : Option CommitRun) := recording { clips := [(3, aClip)], run := r }
    let run (closes : Bool) : CommitRun := { point := 5, entries := [], clips := [(3, 4096, 1, closes)] }
    let t (r : Option CommitRun) : State := { s r with tick := { edgeAt := 10000000000 } }
    (∀ r ∈ [none, some (run false)], (t r).recorderRuns = true ∧ (t r).rd Rec.MEDIA_STATE = 3 ∧ (t r).media.clips ≠ [] ∧ (t r).media.run = r ∧
        (t r).media.lastPoint + (t r).rd Rec.COMMIT_INTERVAL * 1000000 ≤ (t r).tick.edgeAt) ∧
      ∀ b ∈ [true, false], (s (some (run b))).media.run = some (run b) ∧ (run b).clips = [(3, 4096, 1, b)] ∧ (s (some (run b))).clip 3 = some aClip ∧
        (s (some (run b))).media.sb.isSome = true ∧ (s (some (run b))).media.late = false := by decide +kernel

theorem test_membersFailAndChange :
    let m := (withSsd []).media
    let s : State := { withSsd [] with media := { m with sb := some aSet, ports := [some 0], inService := [0] } }
    (s.recorderRuns = true ∧ (tfind s.media.ssds 0).isSome = true ∧ s.media.sb = some aSet ∧
        (s.media.ports.findIdx? fun q => q == some 0) = some 0 ∧ 0 ∈ s.media.inService ∧ s.media.rebuilding = none) ∧
      0 < rootPorts (s.rd Rec.PCIE_BIFURCATION) := by decide +kernel

/-- Every member of a set stands on one of the four root ports. -/
theorem test_membersStandOnRootPorts :
    ∀ k q, ({ sb := some aSet, ports := [some 0] } : RecSt).portOf k = some q → q < 4 := by
  intro k q h
  match k with
  | 0 => simp only [RecSt.portOf, List.getD_cons_zero, Option.some.injEq] at h; omega
  | k + 1 => simp [RecSt.portOf] at h

/-! ## Witnesses: the storage target -/

/-- A host's association on port 1, its controller enabled. -/
def anAssoc : Assoc :=
  { port := 1, hostNqn := [104], hostId := zeroBytes 16, discovery := false, entry := 0xFF, rights := 15, urgent := 0, cls := 2, limit := 4,
    grant := 4, kato := 60000, aliveAt := 0, cc := 1 }

/-- In RUN with TARGET_ENABLE 1 and one association, controller 1. -/
def serving (g : GState) (a : Assoc) : State :=
  { (up g).wrAll [(Eth.LINK_STATE 1, 2), (Tgt.TARGET_ENABLE, 1), (Rec.MEDIA_STATE, 3)] with
    tgt := { assocs := [(1, a)] }, media := { ports := [some 0], inService := [0], sb := some { aSet with userMiB := 16 } } }

/-- The same with I/O queue 1 and its commands. -/
def withCmds (s : State) (l : List NvmeCmd) : State := { s with tgt := { s.tgt with queues := [(qKey 1 1, 2)], cmds := l } }

/-- Nothing of Ethernet is listed: no pause, nothing held back. -/
theorem roceFree_of (s : State) (h : s.eths = []) : s.roceFree := by
  intro p
  simp only [State.paused, State.eth, h, tget, tfind]
  exact ⟨rfl, rfl⟩

theorem fetches_of (s : State) (h : s.pow.global ≠ .faultHold ∧ s.tick.dramChange = false ∧ s.pow.restarting = false ∧ s.eths = []) : s.fetches :=
  ⟨h.1, h.2.1, h.2.2.1, roceFree_of s h.2.2.2⟩

theorem serving_fetches (a : Assoc) : (serving .run a).fetches :=
  fetches_of _ ⟨GState.noConfusion, rfl, rfl, rfl⟩

theorem test_connectsOpenControllersAndQueues :
    let s := serving .run anAssoc
    let anyone := s.wr Tgt.ALLOW_ANY 1
    let full : State := { anyone with tgt := { anyone.tgt with assocs := (List.range 16).map fun k => (k + 1, anAssoc) } }
    (s.fetches ∧ anyone.fetches ∧ full.fetches) ∧ (∀ t ∈ [s, anyone, full], t.ethUp 1 = true ∧ t.rdmaBad 1024 = 0) ∧ katoOk 1 = false ∧
      ((full.admitHost 1 1000 false [104] (zeroBytes 16)).isSome = true ∧ ((List.range 16).find? fun k => (full.assoc (k + 1)).isNone) = none) ∧ 31 < 32 ∧ 31 ≤ 31 ∧ katoOk 1000 = true ∧ katoOk 600000 = true ∧
      s.admitHost 1 1000 false [104] (zeroBytes 16) = none ∧ (anyone.admitHost 1 1000 false [104] (zeroBytes 16)).isSome = true ∧
      ((List.range 16).find? fun k => (anyone.assoc (k + 1)).isNone) = some 1 ∧
      (s.assoc 1 = some anAssoc ∧ anAssoc.port = 1 ∧ anAssoc.discovery = false ∧ 1023 ≤ 1023 ∧ 4 ≤ anAssoc.grant ∧
        tfind s.tgt.queues (qKey 1 4) = none ∧ anAssoc.cc % 2 = 1) := by
  refine ⟨⟨serving_fetches _, fetches_of _ (by decide +kernel), fetches_of _ (by decide +kernel)⟩, ?_⟩
  decide +kernel

theorem test_targetCommandsWaitOrFail :
    ((∀ g, (serving g anAssoc).roceFree) ∧ ∀ g, (withCmds (serving g anAssoc) []).roceFree) ∧
      (∀ g ∈ [GState.faultHold, .run], (serving g anAssoc).hasQueue 1 0 = true ∧ (withCmds (serving g anAssoc) []).hasQueue 1 1 = true) ∧
      (serving .faultHold anAssoc).pow.global = .faultHold ∧ (serving .run anAssoc).pow.global ≠ .faultHold ∧
      ({ serving .run anAssoc with tick := { dramChange := true } } : State).tick.dramChange = true ∧
      (serving .run anAssoc).hasQueue 1 1 = false :=
  ⟨⟨fun _ => roceFree_of _ rfl, fun _ => roceFree_of _ rfl⟩, by decide +kernel⟩

theorem test_associationsEnd :
    let s := withCmds (serving .run anAssoc) []
    s.fetches ∧ s.assoc 1 = some anAssoc ∧ (tfind s.tgt.queues (qKey 1 1)).isSome = true :=
  ⟨fetches_of _ (by decide +kernel), by decide +kernel⟩

theorem test_propertiesAndKeepAlive :
    ((serving .run anAssoc).fetches ∧ (serving .faultHold anAssoc).roceFree) ∧ (serving .run anAssoc).assoc 1 = some anAssoc ∧ anAssoc.cc % 2 = 1 ∧
      (serving .faultHold anAssoc).assoc 1 = some anAssoc ∧ (serving .faultHold anAssoc).pow.global = .faultHold :=
  ⟨⟨serving_fetches _, roceFree_of _ rfl⟩, by decide +kernel⟩

theorem test_identifyAndLogPagesAreAnswered :
    let s := serving .run anAssoc
    (s.assoc 1 = some anAssoc ∧ s.fetches) ∧
      (∃ page, s.logPage anAssoc 4 s.freeCtr = some page ∧ 4 * 1024 ≤ page.length) ∧ s.logPage anAssoc 0x70 s.freeCtr = none ∧
      s.logPage anAssoc 6 s.freeCtr = none ∧ supportedOpcode 0 0x0D = false := by
  refine ⟨⟨by decide +kernel, serving_fetches _⟩, ⟨zeroBytes 4096, rfl, ?_⟩, by decide +kernel, by decide +kernel, by decide⟩
  exact Nat.le_of_eq List.length_replicate.symm

theorem test_featuresAndEventsFollowTheController :
    let s := serving .run anAssoc
    s.fetches ∧ (∀ a, (serving .run a).fetches) ∧ (s.assoc 1 = some anAssoc ∧ anAssoc.granted = false ∧ s.feature anAssoc 2 = none ∧ bit anAssoc.held 0 = false ∧
        bit anAssoc.held 1 = false ∧ anAssoc.aers.length < 8) ∧
      (∀ a ∈ [{ anAssoc with granted := true, held := 2 }, { anAssoc with aers := List.range 8 }], (serving .run a).assoc 1 = some a) ∧
      [0, 1].find? (bit 2) = some 1 ∧ 8 ≤ (List.range 8).length ∧ katoOk 1000 = true ∧ katoOk 1 = false := by
  refine ⟨serving_fetches _, serving_fetches, ?_⟩
  decide +kernel

/-- A command of queue 1 in a stage. -/
def aCmd (op stage : Nat) : NvmeCmd :=
  { cntlid := 1, qid := 1, cid := 7, op := op, nsid := 2, blocks := 1, data := zeroBytes blockSize, stage := stage }

theorem test_firmwareAndAborts :
    let s := serving .run anAssoc
    let barred : Assoc := { anAssoc with rights := 7 }
    s.fetches ∧ (serving .run barred).fetches ∧ (∀ x, (withCmds s [x]).fetches) ∧
      (s.assoc 1 = some anAssoc ∧ bit anAssoc.rights 3 = true ∧ (serving .run barred).assoc 1 = some barred ∧ bit barred.rights 3 = false ∧
        zeroBytes 4096 ≠ [] ∧ (zeroBytes 4096).length % 4096 = 0 ∧ (zeroBytes 4096).length ≤ stagingMax) ∧
      ((s.wr Obs.BOOT_SLOT 1).rd Obs.BOOT_SLOT ≠ 2 ∧ s.tgt.staging = none) ∧
      ((s.wr Obs.SEC_VERSION_FLOOR 0).rd Obs.SEC_VERSION_FLOOR ≤ imgSecVersion (s.slotHeader 2) ∧
        (s.wr Obs.SEC_VERSION_FLOOR 0).rd Obs.SEC_VERSION_FLOOR ≠ 0xFFFFFFFF) ∧
      ∀ n ∈ [1, 2], (withCmds s [aCmd 1 n]).tgt.held = [] ∧ (withCmds s [aCmd 1 n]).tgt.cmds = [aCmd 1 n] ∧ (aCmd 1 n).is 1 1 7 = true := by
  refine ⟨serving_fetches _, serving_fetches _, fun x => fetches_of _ ⟨GState.noConfusion, rfl, rfl, rfl⟩, ?_⟩
  decide +kernel

theorem test_ioCommandsAreCheckedAndFetched :
    let s := withCmds (serving .run anAssoc) []
    s.fetches ∧ (s.assoc 1 = some anAssoc ∧ s.hasQueue 1 1 = true ∧ s.tgt.cmds = []) ∧
      (∀ op ∈ [0, 1, 2, 8], s.ioBad anAssoc (aCmd op 0) = Nvme.OK ∧ s.ioBad anAssoc { aCmd op 0 with nsid := 3 } ≠ Nvme.OK) ∧
      0 < (s.wr (Tgt.TARGET_RATE 1) 1000000000).paceRate anAssoc.port ∧ tget s.tgt.paceAt anAssoc.port 0 ≤ s.clock ∧
      ¬0 < (s.wr (Tgt.TARGET_RATE 1) 0).paceRate anAssoc.port :=
  ⟨fetches_of _ (by decide +kernel), by decide +kernel⟩

theorem test_ioCommandsCompleteWithTheirData :
    let m := (withSsd []).media
    let base := serving .run anAssoc
    let s (x : NvmeCmd) : State := { withCmds (base.wr (Tgt.TARGET_RATE 1) 1000000000) [x] with media := { base.media with ssds := m.ssds } }
    (∀ x, (s x).roceFree) ∧ (∀ op ∈ [0, 1, 2], (s (aCmd op 2)).assoc 1 = some anAssoc ∧ anAssoc.port < 2 ∧ (s (aCmd op 2)).pow.global ≠ .faultHold ∧
        (s (aCmd op 2)).tick.dramChange = false ∧ (s (aCmd op 2)).tgt.cmds = [aCmd op 2]) ∧
      (0 < (s (aCmd 2 1)).paceRate 1 ∧ (s (aCmd 2 1)).queueClass (qKey 1 1) ≤ 3) ∧
      (∀ b ∈ ((s (aCmd 2 2)).cmdBlocks (aCmd 2 2)).map Prod.fst, (s (aCmd 2 2)).hasCopy b = true) ∧
      ((aCmd 1 2).blocks = 1 ∧ (aCmd 1 2).data.length = blockSize ∧
        ∃ k lba, ((setCopies aSet.layout aSet.count ((s (aCmd 1 2)).nsBlock 2 0)).find? fun e => (s (aCmd 1 2)).media.inService.contains e.1) =
          some (k, lba) ∧ (s (aCmd 1 2)).media.portOf k = some 0 ∧ (tfind (s (aCmd 1 2)).media.ssds 0).isSome = true) := by
  refine ⟨fun x => roceFree_of _ rfl, by decide +kernel, by decide +kernel, by decide +kernel, by decide +kernel, by decide +kernel, ?_⟩
  exact ⟨0, _, rfl, by decide +kernel, by decide +kernel⟩

/-! ## Witnesses: audio -/

/-- A descriptor of a ring of four periods of 16 frames with two channels in buffer 77. -/
def ringBlob : List Byte := zeroBytes 13 ++ leBytes 1 2 ++ leBytes 2 4 ++ zeroBytes 4 ++ leBytes 4 16 ++ leBytes 8 77

/-- Audio port 0 runs with its ring: its direction, HOST_FLOW and position; DATA_OFFSET 0, 24 bits in 32. -/
def playing (dir flow pos : Nat) (x : AudSt) : State :=
  let s := ((up .run).setAud 0 x).wrAll [(Aud.PORT_ENABLE 0, 1), (Aud.DIRECTION 0, dir), (Aud.HOST_FLOW 0, flow), (Aud.HW_POSITION 0, pos),
    (Aud.SLOT_MASK 0, 3), (Aud.MASK_IN_FORCE 0, 3)]
  { s with blobs := [(Aud.AUD_RING 0, ringBlob)], nmp := { s.nmp with buffers := [(1, { handle := 77, size := 4096 })] } }

/-- The ring of `playing`. -/
def theRing : AudRing := { handle := 77, frames := 16, count := 4, channels := 2, version := 0 }

theorem test_packedSamplesReadBack :
    (∀ fmt ∈ [0, 5, 6, 9, 10, 11, 13, 14, 15], packOk fmt = true) ∧ 2 ^ 32 - 1 < 2 ^ sampleWidth 15 ∧ 0 < 2 ^ sampleWidth 0 := by decide

theorem test_inputFramesReachTheRing :
    (∀ flow ∈ [0, 1], let s := playing 0 flow 65 {}
      s.audRunning 0 = true ∧ s.pow.global ≠ .faultHold ∧ s.tick.dramChange = false ∧ 65 % s.periodFrames 0 ≠ 0 ∧ s.rd (Aud.DIRECTION 0) = 0 ∧
        s.rd (Aud.HW_POSITION 0) = 65 ∧ s.rd (Aud.PORT_STATE 0) ≠ 3 ∧ (s.aud 0).insert = 0 ∧ s.rd (Aud.MUTE 0) = 0 ∧ s.rd (Aud.MUTE_STATE 0) = 0 ∧
        s.audRing 0 = some (theRing, 1)) ∧
      (playing 0 0 65 {}).rd (Aud.HOST_FLOW 0) ≠ 1 ∧ (playing 0 1 65 {}).rd (Aud.HOST_FLOW 0) = 1 ∧
      (playing 0 1 65 {}).rd (Aud.APPL_POSITION 0) + theRing.count * theRing.frames ≤ 65 ∧ (playing 0 1 65 { xrun := true }).aud 0 = { xrun := true } ∧
      63 < (playing 0 1 63 {}).rd (Aud.APPL_POSITION 0) + theRing.count * theRing.frames := by decide +kernel

theorem test_outputFramesLeaveTheRing :
    ∀ flow ∈ [0, 1], let s := playing 1 flow 65 {}
      (s.audRunning 0 = true ∧ s.pow.global ≠ .faultHold ∧ 65 % s.periodFrames 0 ≠ 0 ∧ s.rd (Aud.DIRECTION 0) = 1 ∧ s.rd (Aud.HW_POSITION 0) = 65 ∧
          s.rd (Aud.PORT_STATE 0) ≠ 3 ∧ (s.aud 0).insert = 0 ∧ s.rd (Aud.MUTE 0) = 0 ∧ s.rd (Aud.MUTE_STATE 0) = 0 ∧
          bit (s.rd (Aud.AUD_SOURCE 0)) 0 = false ∧ (s.aud 0).drop = 0 ∧ s.audRing 0 = some (theRing, 1) ∧ s.tick.dramChange = false) ∧
        (flow = 0 → s.rd (Aud.HOST_FLOW 0) ≠ 1) ∧ (flow = 1 → s.rd (Aud.HOST_FLOW 0) = 1 ∧ s.rd (Aud.APPL_POSITION 0) ≤ 65) ∧
        (∃ k, (setBits 32 (s.rd (Aud.MASK_IN_FORCE 0)))[1]? = some k ∧ k < tdmSlots (s.rd (Aud.TDM_FORMAT 0))) := by
  intro flow h
  simp only [List.mem_cons, List.not_mem_nil, or_false] at h
  obtain rfl | rfl := h <;> exact ⟨by decide +kernel, by decide +kernel, by decide +kernel, 1, by decide +kernel, by decide +kernel⟩

theorem test_underrunsAndIdleSlotsDriveTheirLevels :
    let s := playing 1 1 65 {}
    (s.audRunning 0 = true ∧ s.rd (Aud.DIRECTION 0) = 1 ∧ s.rd (Aud.PORT_STATE 0) ≠ 3) ∧ s.rd (Aud.HW_POSITION 0) % s.periodFrames 0 ≠ 0 ∧
      s.pow.global ≠ .faultHold ∧ (s.aud 0).insert = 0 ∧ (s.aud 0).drop = 0 ∧ bit (s.rd (Aud.AUD_SOURCE 0)) 0 = false ∧ (s.audRing 0).isSome = true ∧
      s.rd (Aud.HOST_FLOW 0) = 1 ∧ s.rd (Aud.APPL_POSITION 0) ≤ s.rd (Aud.HW_POSITION 0) := by decide +kernel

theorem test_periodBoundariesKeepTheirOrder :
    ∀ x ∈ [({} : AudSt), { period := some 0, slip := -2, maskAt := some 0 }, { period := some 0, slip := 1 }], let s := playing 1 0 16 x
      s.audRunning 0 = true ∧ s.pow.global ≠ .faultHold ∧ s.rd (Aud.HW_POSITION 0) % s.periodFrames 0 = 0 ∧ x.period ≠ some 16 ∧
        (s.bufOf (parseRing (s.rdBlob (Aud.AUD_RING 0))).handle).isSome = true ∧ s.audRing 0 = some (theRing, 1) := by decide +kernel

theorem test_muteTakesEffectAtItsTimeout :
    let s := playing 1 0 16 { muteAt := [(0, 5), (3, 5), (4, 9)] }
    s.audRunning 0 = true ∧ (((s.aud 0).muteAt).map fun e => e.2).min? = some 5 := by decide +kernel

theorem test_followersTrackTheirFrameSync :
    let s := (playing 1 0 16 { odd := 3, oddRun := 7 }).wr (Aud.CLOCK_ROLE 0) 1
    s.audRunning 0 = true ∧ s.rd (Aud.CLOCK_ROLE 0) = 1 ∧ s.rd (Aud.PORT_STATE 0) ≠ 3 ∧ (s.aud 0).oddRun = 7 := by decide +kernel

/-- Family 0 follows a word clock of 48 kHz whose latest edge was at 0; the device clock. -/
def wordclock (clock n : Nat) : State :=
  ({ up .run with clock := clock }.wrAll [(Aud.FAMILY_SOURCE 0, 2), (Aud.FAMILY_STATE 0, n)]).setFamily 0
    { lastAt := some 0, rawAt := some 0, pm := 20833 }

theorem test_familiesFollowTheirSource :
    let s := wordclock 20833 3
    let g := wordclock 5000 2
    (s.rd (Aud.FAMILY_SOURCE 0) = 2 ∧ s.audioRuns = true ∧ (s.family 0).lastAt = some 0 ∧ (s.family 0).rawAt = some 0 ∧
        offBy5 (s.clock - 0) 20833 20833 = false ∧ s.rd (Aud.FAMILY_STATE 0) = 3 ∧ (s.family 0).stopped = false) ∧
      (s.wordclockPin 0 = true ∧ g.wordclockPin 0 = true ∧ offBy5 (g.clock - 0) 20833 20833 = true ∧ g.rd (Aud.FAMILY_SOURCE 0) = 2 ∧ g.audioRuns = true ∧ offBy5 (g.clock - 0) 20833 20833 = true ∧ (g.family 0).odd = [] ∧
        g.rd (Aud.FAMILY_STATE 0) = 2) ∧ (wordclock 0 1).rd (Aud.FAMILY_STATE 0) = 1 ∧
      (g.wr (Aud.PORT_ENABLE 7) 1).rd (Aud.PORT_ENABLE 7) = 1 ∧ g.rd (Aud.FAMILY 7) = 0 := by decide +kernel

/-! ## Witnesses: the DRAM controller -/

/-- In WARMUP with DRAM in training, its monitors calibrated. -/
def training (failed : Nat) : State :=
  { (up .warmup).wr Dram.FAILED_CHANNELS failed with therm := { calibrated := true } }

theorem test_trainingDecidesTheChannels :
    let good : List (Nat × Nat) := List.replicate 8 (16, 16)
    let bad (s : State) (eyes : List (Nat × Nat)) := (List.range 8).filter fun c => decide (c ∉ setBits 8 (s.rd Dram.FAILED_CHANNELS)) &&
      !eyeOk (eyes.getD c (0, 0))
    (∀ n ∈ [0, 0x80], (training n).pow.global = .warmup ∧ (training n).rd Dram.DRAM_STATE = 0 ∧ (training n).therm.heating = false ∧
        (training n).therm.calibrated = true ∧ (training n).tick.running = false ∧ bad (training n) good = [] ∧
        (setBits 8 ((training n).rd Dram.FAILED_CHANNELS)).length < 2) ∧
      bad (training 0x80) ((15, 16) :: good) = [0] ∧ bad (training 0) ((16, 15) :: good) = [0] ∧
      (setBits 8 ((training 0x80).rd Dram.FAILED_CHANNELS)).length = 1 ∧ (setBits 8 ((training 0).rd Dram.FAILED_CHANNELS)).length = 0 := by decide +kernel

/-- Channel 7 is being retrained; channels whose latest retraining found nothing. -/
def retraining (missed : List Nat) : State :=
  { (up .run).wrAll [(Dram.CHANNEL_STATE 7, 2), (Dram.CHANNELS_IN_SERVICE, 0xFF)] with dram := { missed := missed } }

theorem test_retrainingKeepsOrLosesAChannel :
    (retraining []).rd (Dram.CHANNEL_STATE 7) = 2 ∧ 7 ∉ (retraining []).dram.missed ∧ (retraining []).tick.gap = false ∧
      (retraining [7]).rd (Dram.CHANNEL_STATE 7) = 2 ∧ 7 ∈ (retraining [7]).dram.missed ∧ (retraining [7]).pow.global ≠ .faultHold := by decide +kernel

/-- Every channel serves. -/
def dramUp (g : GState) (x : DramSt) : State :=
  let s := (up g).wrAll ((Dram.CHANNELS_IN_SERVICE, 0xFF) :: (List.range 8).map fun c => (Dram.CHANNEL_STATE c, 1))
  { s with dram := x, pow := { s.pow with board := { density := 16, dataWidth := 8, checkWidth := 8, ranks := 2 } } }

theorem test_failedChannelsRestartTheDevice :
    ∀ g ∈ [GState.warmup, .ready, .run, .faultHold], (dramUp g {}).dramChannels.contains 7 = true ∧ (dramUp g {}).pow.global = g ∧
      (dramUp g {}).tick.gap = false := by decide +kernel

/-- An address of subchannel 1 of channel 7, in row 5; a codeword whose listed bytes are wrong. -/
def addr7 : Nat := 5 * 2 ^ 22 + 7 * 256 + 64
def codeword (wrong : List Nat) : List Byte := (List.range 80).map fun i => if wrong.contains i then BitVec.ofNat 8 (7 * i + 1) else 0

set_option maxRecDepth 10000 in
theorem oneError : rsDecode (symbolsOf (codeword [9])) [] = some [(9, 64)] := by decide_cbv

set_option maxRecDepth 10000 in
theorem manyErrors : rsDecode (symbolsOf (codeword (List.range 20))) [] = none := by decide_cbv

theorem test_correctedReadsAreWrittenBack :
    let s := dramUp .run {}
    let l := s.placeOf addr7
    (l.ch = 7 ∧ l.sub = 1 ∧ s.dramServes 7 = true) ∧ rsDecode (symbolsOf (codeword [])) (s.erasures (rankKey l.ch l.sub l.rank)) = some [] ∧
      (∃ e r, rsDecode (symbolsOf (codeword [9])) (s.erasures (rankKey l.ch l.sub l.rank)) = some (e :: r)) ∧
      (s.wr Dram.MARK_THRESHOLD 0).rd Dram.MARK_THRESHOLD = 0 := by
  refine ⟨by decide +kernel, by decide +kernel, ⟨(9, 64), [], oneError⟩, by decide +kernel⟩

/-- DRAM in service, its controller frozen or not. -/
def dramIn (g : GState) (frozen : Bool) : State := (dramUp g { frozen := frozen }).wr Dram.DRAM_STATE 1

theorem test_uncorrectableCodewordsHoldTheDevice :
    (∀ g ∈ [GState.warmup, .ready, .run, .faultHold], (dramIn g false).rd Dram.DRAM_STATE ≠ 0 ∧ (dramIn g false).rd Dram.DRAM_STATE ≠ 4 ∧
        (dramIn g false).tick.dramChange = false ∧ (dramIn g false).dram.frozen = false ∧ (dramIn g true).dram.frozen = true ∧
        (dramIn g false).tick.running = false ∧ (∀ e ∈ (dramIn g false).nmp.buffers, e.2.freed = false)) ∧
      rsDecode (symbolsOf (codeword (List.range 20)))
        ((dramIn .run false).erasures (rankKey ((dramIn .run false).placeOf addr7).ch ((dramIn .run false).placeOf addr7).sub
          ((dramIn .run false).placeOf addr7).rank)) = none :=
  ⟨by decide +kernel, manyErrors⟩

theorem test_refreshesAreIssuedPostponedOrSplit :
    let key := 1024 * 7 + 512 * 1 + 256 * 1 + 3
    let s := (dramUp .run { debts := [(key, 2)] }).wr Dram.REFRESH_MODE 1
    let t := (dramUp .run { debts := [(key, 3)] }).wr Dram.REFRESH_MODE 1
    s.rd (Dram.CHANNEL_STATE 7) = 1 ∧ s.rd Dram.REFRESH_MODE ≠ 0 ∧ s.tick.dramChange = false ∧ 1 < s.pow.board.ranks ∧
      tget s.dram.debts key 0 + 1 < s.rd Dram.POSTPONE_LIMIT ∧ t.rd Dram.POSTPONE_LIMIT ≤ tget t.dram.debts key 0 + 1 ∧
      (dramUp .run {}).rd Dram.POSTPONE_LIMIT = 4 ∧ ((dramUp .run {}).wr Dram.REFRESH_MODE 0).rd Dram.REFRESH_MODE = 0 := by decide +kernel

theorem test_memoryReportsAreActedOn :
    let s (n : Nat) := (dramUp .run { held := [(7, [{ sub := 1, addr := addr7, at' := 0, fails := n }])] }).wr Dram.WRITE_CRC_ENABLE 1
    (∀ n ∈ [2, 3], (s n).dramServes 7 = true ∧ (s n).tick.gap = false ∧ (s n).rd Dram.WRITE_CRC_ENABLE = 1 ∧ (s n).pow.global ≠ .faultHold ∧
        (s n).heldWrites 7 = [{ sub := 1, addr := addr7, at' := 0, fails := n }]) ∧
      (s 2).rd Dram.DRIFT_TEMP ≤ (100 - tget (s 2).dram.trained 7 0).natAbs ∧
      ¬((s 2).rd Dram.DRIFT_TEMP : Int) ≤ (0 - tget (s 2).dram.trained 7 0).natAbs := by
  refine ⟨?_, by decide +kernel, by decide +kernel⟩
  intro n h
  simp only [List.mem_cons, List.not_mem_nil, or_false] at h
  obtain rfl | rfl := h <;> refine ⟨by decide +kernel, by decide +kernel, by decide +kernel, by decide +kernel, ?_⟩ <;>
    exact List.filter_eq_self.mpr fun w _ => decide_eq_true (Nat.zero_le _)

/-- A request of a requester. -/
def aReq (requester : Nat) : DramReq := { requester := requester, write := true, addr := addr7, age := 0 }

theorem test_commandsServeRealTimeFirst :
    let s (rows : Table Nat) := dramUp .run { rows := rows }
    let l := (s []).placeOf addr7
    let k := bankKey l
    let all (t : State) (reqs : List DramReq) : List DramReq :=
      (reqs.filter fun (q : DramReq) => (t.placeOf q.addr).ch == 7 && (t.placeOf q.addr).sub == 1 &&
        (q.requester != 7 || (!q.write && t.rd Dram.SCRUB_ENABLE == 1))) ++ tget t.dram.writeBacks 15 []
    let owing : State := dramUp .run { debts := [(512 * 15 + 255, 2)] }
    (owing.dramServes 7 = true ∧ all owing [] = []) ∧
      (∀ rows ∈ [[], [(k, 5)], [(k, 6)]], (s rows).dramServes 7 = true ∧ (s rows).pow.board.ranks ≤ 2 ∧ (s rows).dram.debts = [] ∧
        all (s rows) [aReq 5, aReq 3] = [aReq 5, aReq 3] ∧ (aReq 3).requester < 4 ∧ (s rows).placeOf addr7 = l ∧
        (s rows).chooseRequest 7 1 [aReq 5, aReq 3] = some (aReq 3, false)) ∧
      tfind (s [(k, 5)]).dram.rows k = some l.row ∧ (tfind (s [(k, 6)]).dram.rows k = some 6 ∧ 6 ≠ l.row) ∧
      tfind (s [(k, 6)]).dram.neighbours k = none ∧ tfind (s []).dram.rows k = none := by decide +kernel

/-! ## Witnesses: the Event Fabric -/

/-- In RUN, a firing of timer 0's source that waits, with wires to a trigger output, a ring channel and a timer. -/
def fired (x : FabSt) : State :=
  { (up .run).wrAll [(Ev.WIRE_ENABLE 0, 2), (Ev.WIRE_ENABLE 16, 8), (Ev.WIRE_ENABLE 95, 64)] with firings := [(224, 100)], fab := x }

theorem test_firingsReachTheirInputsTogether :
    let s := fired {}
    let stopped (s : State) := s.rd (Ev.LOOP_LIMIT 224) ≠ 0 ∧ s.sourceWired 224 = true ∧ s.rd (Ev.LOOP_LIMIT 224) < tget s.fab.counts 224 0 + 1
    ({ up .boot with firings := [(224, 100)] } : State).fabricRuns = false ∧
      (s.firings = [(224, 100)] ∧ s.fabricRuns = true ∧ s.rd (Ev.SRC_ENABLE 224) ≠ 0 ∧ ¬stopped s ∧
        (∀ e ∈ s.fab.timers, ∀ ti, (ti ∈ taskInputs ∧ s.wireHits ti [224] ≠ []) → arrivalAt ti 100 / 10 < e.2) ∧
        (∀ ti ∈ [0, 16, 95], ti ∈ taskInputs ∧ s.wireHits ti [224] ≠ [] ∧ s.inputBusy ti (arrivalAt ti 100 / 10) = false) ∧
        inputCycle 95 = 20 ∧ (∀ tj ∈ taskInputs, s.wireHits tj [224] ≠ [] → arrivalAt tj 100 / 10 < arrivalAt 95 100 / 10 + s.rd (Ev.TIMER_DELAY 15))) ∧
      (s.wr (Ev.SRC_ENABLE 224) 0).rd (Ev.SRC_ENABLE 224) = 0 ∧ stopped (fired { counts := [(224, 64)] }) ∧
      (fired { ringTx := [0] }).inputBusy 16 (arrivalAt 16 100 / 10) = true ∧ ({ up .run with firings := [(224, 100)] } : State).sourceWired 224 = false := by
  refine ⟨by decide +kernel, ⟨by decide +kernel, by decide +kernel, by decide +kernel, by decide +kernel, ?_, by decide +kernel⟩, by decide +kernel⟩
  intro e he
  exact absurd he List.not_mem_nil

theorem test_timersAndPinsFire :
    let s (dir edge : Nat) : State := (fired { timers := [(15, 500)], evios := [(5, 600)] }).wrAll [(Ev.EVIO_DIR 5, dir), (Ev.EVIO_EDGE 5, edge)]
    tfind (s 0 0).fab.timers 15 = some 500 ∧ tfind (s 0 0).fab.evios 5 = some 600 ∧ (s 0 0).fabricRuns = true ∧
      (∀ edge ∈ [0, 1, 2], (s 0 edge).rd (Ev.EVIO_DIR 5) = 0 ∧ (s 0 edge).rd (Ev.EVIO_EDGE 5) = edge) ∧ (s 1 0).rd (Ev.EVIO_DIR 5) = 1 := by decide +kernel

/-- A wake profile that waits, in RUN; the profile it names. -/
def waking (n : Nat) : State := { (up .run).wr Ev.WAKE_PROFILE n with fab := { wakeProfile := some 6, wakeNotify := some 6 } }

/-- The profile commit of `waking` as its verdict sees it. -/
def wakeEntries (n : Nat) : List CEntry :=
  centries { waking n with fab := { (waking n).fab with wakeProfile := none } } [(Tick.PROFILE, .num ((waking n).rd Ev.WAKE_PROFILE))]
def wakeTxn (n : Nat) : Txn :=
  ({ waking n with fab := { (waking n).fab with wakeProfile := none } } : State).txn { sess := 0, seq := 0, port := 0 } 0x12 0 (wakeEntries n)

theorem wake_fits : shortfalls (wakeTxn 1).old.committed (wakeTxn 1).cand = [] := by
  have hi : (wakeTxn 1).cand.idlePlan = true := by decide +kernel
  have ha : (wakeTxn 1).cand.audioRingBytes ≤
      (wakeTxn 1).cand.shareBytes ((wakeTxn 1).cand.profile.shares.getD 3 0) (wakeTxn 1).cand.dramChannels.length := by decide +kernel
  exact shortfalls_nil _ _ ((wakeTxn 1).cand.rd Tick.ACTIVE_CAP) 0 (by decide +kernel) (steps_fit _ _ _ hi ha (by decide +kernel))
    (floor_fits _ (steps_fit _ _ _ hi ha (by decide +kernel)) (by decide +kernel))

/-- A context runs, which Duiker cannot take. -/
def busyWake : State := (waking 3).wrAll [(Ctx.CTX_STATE 9, 1), (Ctx.CTX_ENABLE 9, 1)]

theorem test_wakeActionsWaitForNegor :
    (up .boot).negorAnswers = false ∧
      ((waking 1).negorAnswers = true ∧ (waking 1).fab.wakeNotify = some 6 ∧ (waking 1).fab.wakeProfile = some 6 ∧
        bit (({ mask := 256 } : Session)).mask 8 = true) ∧
      (commitVerdict (wakeTxn 1) (wakeEntries 1)).1 = Status.OK ∧
      (let u : State := { busyWake with fab := { busyWake.fab with wakeProfile := none } }
       let es := centries u [(Tick.PROFILE, .num (busyWake.rd Ev.WAKE_PROFILE))]
       busyWake.negorAnswers = true ∧ busyWake.fab.wakeProfile = some 6 ∧
         (commitVerdict (u.txn { sess := 0, seq := 0, port := 0 } 0x12 0 es) es).1 = Status.CONFLICT) := by
  refine ⟨by decide +kernel, by decide +kernel, ?_, by decide +kernel⟩
  have hc : firstBad ((wakeEntries 1).map fun e => entryCheck (wakeTxn 1) e.id e.val) = Status.OK := by decide +kernel
  have ha : admits (wakeEntries 1) = true := by decide +kernel
  have he : (wakeTxn 1).cand.earlyBad = false := by decide +kernel
  have ht : ticketVals (wakeEntries 1) = [] := by decide +kernel
  simp only [commitVerdict, hc, ha, ht, admission, he, wake_fits, ne_eq, not_true_eq_false, if_false, if_true, Bool.false_eq_true]

/-! ## Witnesses: the thermal and power unit -/

/-- The chip in a state with its estimate, its thermal state and what the unit keeps. -/
def warm (g : GState) (x : ThermSt) : State := { up g with therm := x }

theorem test_samplesGovernTheHeat :
    let s := (up .run).wrAll [(Tick.ACTIVE_CAP, 100000)]
    (∀ g ∈ [GState.off, .thermalOff, .warmup, .ready, .run], (up g).pow.global = g) ∧
      s.validSensors = List.range 17 ∧ bit (warm .run { hotOnce := 1 }).therm.hotOnce 0 = true ∧
      (s.rdS Th.SHUTDOWN_THRESHOLD ≤ 2560 ∧ s.rdS (Th.MONITOR_OFFSET 3) = 0 ∧ -960 ≤ (0 : Int)) ∧
      (bit s.therm.hotOnce 5 = false ∧ s.profile.floorCap < s.rd Tick.ACTIVE_CAP ∧ s.rdS Th.WARN_THRESHOLD ≤ s.rdS Th.THROTTLE_THRESHOLD ∧
        0 < s.rdS Th.HOT_HYSTERESIS ∧ 0 ≤ s.rdS Th.COLD_HYSTERESIS ∧ s.rdS Th.COLD_LIMIT ≤ s.rdS Th.COLD_WARNING ∧
        s.rdS Th.COLD_WARNING + s.rdS Th.COLD_HYSTERESIS ≤ 0 ∧ 0 ≤ s.rdS Th.WARN_THRESHOLD - s.rdS Th.HOT_HYSTERESIS ∧ s.therm.lastDown = none) := by
  decide +kernel

theorem test_calibrationStartsTheHeater :
    let s := up .warmup
    s.pow.global = .warmup ∧ s.therm.calibrated = false ∧ s.validSensors ≠ [] ∧ (-800 - (-640) : Int).natAbs ≤ 160 ∧ -960 ≤ (-800 : Int) ∧
      -800 < s.rdS Th.COLD_LIMIT ∧ 0 ≤ s.rdS Th.HOT_HYSTERESIS ∧ 0 ≤ s.rdS Th.COLD_HYSTERESIS ∧
      -800 + s.rdS Th.HOT_HYSTERESIS < s.rdS Th.WARN_THRESHOLD ∧ -800 + s.rdS Th.HOT_HYSTERESIS < s.rdS Th.THROTTLE_THRESHOLD := by decide +kernel

theorem test_capsStepUpAfterASecond :
    (∀ b ∈ [true, false], let s : State := { warm .run { okSince := some 7 } with tick := { running := b } }.wrAll [(Tick.ACTIVE_CAP, 50000)]
      s.therm.okSince = some 7 ∧ s.therm.upPending = false ∧ s.withinLimits = true ∧ s.rd Tick.ACTIVE_CAP < s.profile.cap ∧ s.pow.global = .run ∧
        s.tick.running = b) := by decide +kernel

theorem test_theLifeMeterAddsUp : (up .run).pow.global ≠ .off ∧ (up .run).pow.global = .run ∧ (up .faultHold).pow.global ≠ .off := by decide +kernel

/-! ## Witnesses: observation -/

theorem test_countersAreReadAndReset :
    (inSession .run).takes rq 0x70 ∧ ((owning 63).takes rq 0x73 ∧ (owning 63).owns 1 63 = true) ∧ (owning 1).takes rq 0x73 ∧
      (owning 1).owns 1 63 = false ∧ counterGroup 0xFF 0 = [] ∧ counterGroup 0xA0 0 ≠ [] ∧ Obs.COUNTER_RESETS ≠ idOf 0xA0 0 0x36 := by
  refine ⟨takes_iff _ _ _ (by decide), ⟨takes_iff _ _ _ (by decide), by decide⟩, takes_iff _ _ _ (by decide), by decide, by decide +kernel,
    by decide +kernel, by decide⟩

theorem test_subscriptionsAreHeldByTheirSession :
    let full : State := { inSession .run with obs := { dests := (List.range 4).map fun d => (d + 1, { sess := d + 2 }) } }
    (inSession .run).takes rq 0x71 ∧ (inSession .run).takes rq 0x72 ∧ rq.sess ≠ 0 ∧ ((inSession .run).dest 4).sess = 0 ∧ full.takes rq 0x71 ∧
      ∀ d, d < 4 → (full.dest (d + 1)).sess ≠ 0 ∧ (full.dest (d + 1)).sess ≠ rq.sess := by
  refine ⟨takes_iff _ _ _ (by decide), takes_iff _ _ _ (by decide), by decide, by decide, takes_iff _ _ _ (by decide), by decide⟩

/-- Session 1 holds subscription 1. -/
def subscribed (x : TraceDest) : State := { inSession .run with obs := { dests := [(1, { x with sess := 1, types := 0xFF, rate := 10000, credit := 10000 })] } }

theorem test_traceRecordsReachTheirSubscription :
    let s := subscribed {}
    (s.traceRuns = true ∧ s.traceTakes 1 1 0 = true ∧ s.traceTakes 1 9 0 = false ∧ (s.dest 1).lost = 0 ∧ (s.dest 1).buffer.length < traceRoom ∧
        32 ≤ (s.dest 1).creditNow s.clock ∧ (s.dest 1).sess ≠ 0) ∧
      (let t : State := { s with obs := { dests := [(1, { sess := 1, types := 0xFF, rate := 0 })] } }
       (t.dest 1).creditNow t.clock < 32 ∧ t.traceTakes 1 1 0 = true ∧ (t.dest 1).lost = 0) ∧
      (let u := subscribed { lost := 3 }
       (u.dest 1).lost ≠ 0 ∧ (u.dest 1).buffer.length + 2 ≤ traceRoom ∧ 64 ≤ (u.dest 1).creditNow u.clock) ∧
      (let v := subscribed { buffer := [zeroBytes 32] }
       v.negorAnswers = true ∧ (v.session (v.dest 1).sess).isSome = true ∧ 0 < 1 ∧ (v.dest 1).buffer ≠ []) := by decide +kernel

/-! ## The spec's worked examples -/

/-- spec/00, the example of R11: the lease generation goes from 0xFFFE to 0x0003, which is later; from 0x8003 it is not. -/
theorem test_serialNumbersCompare : later 16 0x0003 0xFFFE = true ∧ later 16 0x0003 0x8003 = false := by decide

/-- spec/02, the example of R34: in three ticks at 24000/1001 Hz, two intervals of 20,854,167 units of 2 ns and one of 20,854,166. -/
theorem test_tickIntervalsOnTheGrid :
    let s := ticking.wrAll [(Tick.TICK_RATE_N, 24000), (Tick.TICK_RATE_D, 1001)]
    let edge (k : Nat) : Nat := s.gridEdge (k * s.periodNum)
    let steps : List Nat := [edge 1 - edge 0, edge 2 - edge 1, edge 3 - edge 2]
    edge 3 = 125125000 ∧ steps.count (2 * 20854167) = 2 ∧ steps.count (2 * 20854166) = 1 := by
  simp only [State.gridEdge]
  cases Config.roundUp 0 <;> decide +kernel

/-- spec/06, the example of R163: the coded residuals 2, 3 and 12 of the samples 1,003, 998 and 1,010 after 1,000, with s 1. -/
theorem test_tileResiduals :
    trfResiduals 11 [500] [1003 / 2, 998 / 2, 1010 / 2] = [2, 3, 12] ∧ [500, 501, 499, 505].map (trfDequant 1) = [1001, 1003, 999, 1011] := by decide

/-- spec/09, the example under Table 09-5: the code of an exposure time of 5,000,000 ns in lines of 7.4 µs. -/
theorem test_exposureCode :
    let c (num den : Nat) : Ctl := 
      { control := 0, order := 0, bytes := 2, reg := 0, verify := 0, num := num, den := den, offset := 0, minCode := 0, maxCode := 0xFFFF, dflt := 0 }
    (c 1 7400).code 5000000 = 676 ∧ (c 1 7400).written 676 = (5002400, 1) ∧ (c 16 65536).code (4 * 65536) = 64 := by decide

/-- spec/10, the example of R251: a write of 100 bytes at 0x01F0 to pages of 64 bytes, three parts of 987 bit times in all. -/
theorem test_pageWrites :
    let x : Xact := { op := 0, addr := 0x50, speed := 1, ptr := 0x01F0, ptrBytes := 2, data := zeroBytes 100, len := 100 }
    ((x.parts 4).map Xact.bits) = [173, 605, 209] ∧ ((x.parts 4).map Xact.time).sum = 2467500 := by decide +kernel

/-- spec/15, the example of AP2: the ring and status area of 8 periods of 2,002 frames of 16 channels in P32L. -/
theorem test_audioRingBytes :
    ({ handle := 1, frames := 2002, count := 8, channels := 16, version := 1 } : AudRing).stride 2 = 128128 ∧
      ({ handle := 1, frames := 2002, count := 8, channels := 16, version := 1 } : AudRing).bytes 2 = 1025280 := by decide

/-- spec/19, the example of R482: SLOT_GEN 0x00 in slot 3 is later than 0xFF in slot 2; 0x7F is not, and the higher SEC_VERSION boots. -/
theorem test_slotSelection :
    let h (gen sec : Nat) : List Byte := zeroBytes 12 ++ leBytes 4 sec ++ leBytes 1 gen
    let s (g3 sec3 : Nat) : State := { State.reset with pow := { State.reset.pow with headers := [(2, h 0xFF 5), (3, h g3 sec3)] } }.wrAll
      [(Obs.SLOT_STATUS 2, 0), (Obs.SLOT_STATUS 3, 0)]
    (s 0x00 5).bootChoice = 3 ∧ (s 0x7F 6).bootChoice = 3 ∧ (s 0x7F 4).bootChoice = 2 := by decide +kernel

/-- spec/17, Table 17-4: TIMER3, wired to the tick, starts 4 ns after the edge, and expires TIMER_DELAY later. -/
theorem test_timerStartsAfterTheEdge :
    let s : State := { (up .run).wrAll [(Ev.WIRE_ENABLE 83, 0x81), (Ev.TIMER_DELAY 3, 100000)] with firings := [(0, 0)] }
    (match exec (.eventSourceFire [0]) s with
     | .next t => (t.clock, tfind t.fab.timers 3)
     | _ => (0, none)) = (4, some 100004) := by decide +kernel

/-! ## Witnesses: the block as a whole -/

theorem test_theQueueIsTakenInOrder : State.reset.pending = [] := rfl

theorem test_everyStepKeepsTheStateSound : State.reset.Sound ∧ step State.reset = .next State.reset.idle := by
  refine ⟨⟨⟨List.Pairwise.nil, ?_⟩, by decide⟩, rfl⟩
  intro e h
  exact absurd h (List.not_mem_nil (a := e))

theorem test_commandsLeaveTheQueueAndTheClock : ∃ t, exec (.timerExpiry 3) State.reset = .next t := ⟨_, rfl⟩

theorem test_countersSaturateAndBytesWrap :
    (∃ p, paramOf (Ev.TI_TRIGGERS 0) = some p ∧ p.fixed = false ∧ p.type = .u64) ∧
      bit ((up .run).wr (Ev.TI_TRIGGERS 0) (2 ^ 48 - 1 + 2 ^ 63) |>.rd (Ev.TI_TRIGGERS 0)) 63 = true ∧
      (up .run).rd (Ev.TI_TRIGGERS 0) < 2 ^ 48 - 1 := by
  refine ⟨⟨_, rfl, ?_, ?_⟩, ?_, ?_⟩ <;> decide

theorem test_parametersHoldWhatIsWritten :
    (∃ p, paramOf Tick.PROFILE = some p ∧ p.fixed = false) ∧ paramOf 0 = none ∧ (∃ p, paramOf Sys.SERIAL_NUMBER = some p ∧ p.fixed = true) := by
  refine ⟨⟨_, rfl, ?_⟩, ?_, ⟨_, rfl, ?_⟩⟩ <;> decide

/-- The table gives the commands no bits. -/
theorem test_tableWordsSpellNothing : decodeTableWord 0 0 = none ∧ State.reset.withFetchWord 16 7 = State.reset := ⟨rfl, rfl⟩

end Sys2Proof.Tests
end

/-! Power supplies (R26, R496, R501): the bits of flag words and masks, the frames of powering up and of releasing a bank, and O7. -/

namespace Sys2Proof.Machine

/-! ## Bits of flag words and masks -/

theorem bit_eq_testBit (v i : Nat) : bit v i = v.testBit i := by
  rw [Nat.testBit_eq_decide_div_mod_eq, bit, beq_eq_decide]

/-- Clearing bits borrows nothing: it acts on the lowest bit and on the bits above it apart. -/
theorem writeOneClears_halves (v w : Nat) :
    writeOneClears v w / 2 = writeOneClears (v / 2) (w / 2) ∧ writeOneClears v w % 2 = writeOneClears (v % 2) (w % 2) := by
  have hle : v &&& w ≤ v := Nat.and_le_left
  have hlow : v % 2 &&& w % 2 ≤ v % 2 := Nat.and_le_left
  have hdiv : (v &&& w) / 2 = v / 2 &&& w / 2 := Nat.and_div_two
  have hmod : (v &&& w) % 2 = v % 2 &&& w % 2 := Nat.and_mod_two_pow (n := 1)
  unfold writeOneClears
  omega

/-- A write of `w` clears exactly the bits of `w` (R455). -/
@[simp] theorem bit_writeOneClears (v w i : Nat) : bit (writeOneClears v w) i = (bit v i && !bit w i) := by
  simp only [bit_eq_testBit]
  induction i generalizing v w with
  | zero =>
    simp only [Nat.testBit_zero, (writeOneClears_halves v w).2]
    rcases Nat.mod_two_eq_zero_or_one v with hv | hv <;> rcases Nat.mod_two_eq_zero_or_one w with hw | hw <;>
      simp [hv, hw, writeOneClears]
  | succ i ih => simp only [Nat.testBit_add_one, (writeOneClears_halves v w).1, ih]

theorem bit_two_pow (i j : Nat) : bit (2 ^ i) j = decide (i = j) := by
  rw [bit_eq_testBit, Nat.testBit_two_pow]

@[simp] theorem bit_setFlag (v i j : Nat) : bit (setFlag v i) j = (bit v j || decide (i = j)) := by
  simp [bit_eq_testBit, setFlag, Nat.testBit_two_pow]

@[simp] theorem bit_clearFlag (v i j : Nat) : bit (clearFlag v i) j = (bit v j && !decide (i = j)) := by
  simp [clearFlag, bit_two_pow]

@[simp] theorem bit_maskOf (l : List Nat) (i : Nat) : bit (maskOf l) i = decide (i ∈ l) := by
  induction l with
  | nil => simp [maskOf, bit]
  | cons j r ih =>
    rw [bit_eq_testBit] at ih ⊢
    simp [maskOf, ih, Nat.testBit_two_pow, eq_comm]

/-! ## Frames of the power rows (R26, R501) -/

theorem setPow_only (s : State) (x : PowerSt) : OnlyChanges [.pow] [] s { s with pow := x } := by
  refine ⟨rfl, fun p hp => ?_, fun _ _ => rfl⟩
  cases p with
  | pow => simp at hp
  | mem => exact fun _ => rfl
  | buffers | qps => exact ⟨rfl, rfl⟩
  | nmp => exact ⟨rfl, rfl, rfl, rfl, rfl⟩
  | _ => rfl

/-- A change of the power state, the time base and the thermal state, as the sensing of the bank supplies makes it. -/
theorem setPowTimeTherm_only (s : State) (x : PowerSt) (y : TimeBase) (z : ThermSt) :
    OnlyChanges [.pow, .time, .therm] [] s { s with pow := x, time := y, therm := z } := by
  refine ⟨rfl, fun p hp => ?_, fun _ _ => rfl⟩
  cases p with
  | pow | time | therm => simp at hp
  | mem => exact fun _ => rfl
  | buffers | qps => exact ⟨rfl, rfl⟩
  | nmp => exact ⟨rfl, rfl, rfl, rfl, rfl⟩
  | _ => rfl

/-- The change to BOOT is traced and not notified (R28). -/
theorem setGlobal_boot {s : State} (h : s.pow.global ≠ .boot) :
    s.setGlobal .boot =
      { s with pow := { s.pow with global := .boot } }.trace 5 0 [BitVec.ofNat 8 GState.boot.code, BitVec.ofNat 8 s.pow.global.code] := by
  simp [State.setGlobal, h]

theorem setGlobal_boot_pow (s : State) : (s.setGlobal .boot).pow = { s.pow with global := .boot } := by
  by_cases h : s.pow.global = .boot
  · rw [← h]; simp [State.setGlobal]
  · rw [setGlobal_boot h]
    exact (trace_only _ _ _ _).2.1 .pow (by simp)

/-- A change to BOOT moves, beside the power state, what the STATE trace record moves. -/
theorem setGlobal_boot_only (s : State) : OnlyChanges [.pow, .out, .obs] traceIds s (s.setGlobal .boot) := by
  by_cases h : s.pow.global = .boot
  · simpa [State.setGlobal, h] using (OnlyChanges.refl s).mono (by simp) (by simp)
  · rw [setGlobal_boot h]
    exact ((setPow_only s _).trans (trace_only _ _ _ _)).mono (by simp) (by simp)

/-- The power state once the supplies are valid: BOOT in internal reset, which can end 20 µs later, the bank supplies sensed. -/
theorem powerUp_pow (s : State) (mv : List Nat) :
    (s.powerUp mv).pow = { s.pow with
      global := .boot, phase := .inReset, resetEnd := s.clock + 20000, bootStart := s.clock
      banksHigh := maskOf ((List.range 4).filter fun b => decide (2500 < mv.getD b 0)) } := by
  simp [State.powerUp, setGlobal_boot_pow]

theorem powerUp_only (s : State) (mv : List Nat) :
    OnlyChanges [.pow, .time, .therm, .out, .obs] (Sys.LAST_RESTART_CAUSE :: traceIds) s (s.powerUp mv) :=
  (((setPowTimeTherm_only s _ _ _).trans (wr_only _ Sys.LAST_RESTART_CAUSE 0)).trans (setGlobal_boot_only _)).mono (by simp) (by simp)

/-! ## What the rows answer -/

/-- A bank supply beyond the absolute maximum stops the model (R496, log 14). -/
theorem exec_powerOnSuppliesValid_beyond {mv : List Nat} (s : State) (h : ∃ v ∈ mv, 3800 < v) :
    exec (.powerOnSuppliesValid mv) s = .fault .absoluteMaximum := by
  have hany : (mv.any fun v => decide (3800 < v)) = true := by simpa using h
  show execPowerOnSuppliesValid mv s = _
  rw [execPowerOnSuppliesValid, if_pos hany]

/-- Valid supplies act in OFF alone. -/
theorem exec_powerOnSuppliesValid_within {mv : List Nat} (s : State) (h : ∀ v ∈ mv, v ≤ 3800) :
    exec (.powerOnSuppliesValid mv) s = .next (if s.pow.global ≠ .off then s else s.powerUp mv) := by
  have hany : ¬(mv.any fun v => decide (3800 < v)) = true := by simpa using h
  show execPowerOnSuppliesValid mv s = _
  rw [execPowerOnSuppliesValid, if_neg hany]

theorem exec_bankSupplyFault (b : Fin 4) (ns : Nat) (s : State) :
    exec (.bankSupplyFault b ns) s = .next (
      if ns < 1000 ∨ s.pow.global = .off ∨ bit s.pow.banksReleased b.val then s
      else ({ s with pow := { s.pow with banksReleased := setFlag s.pow.banksReleased b.val } }).pin ("VDDIO_" ++ bankName b.val) 2) := rfl

theorem exec_bankSupplyReturn (b : Fin 4) (s : State) :
    exec (.bankSupplyReturn b) s = .next (
      if bit s.pow.banksReleased b.val then
        ({ s with pow := { s.pow with banksReleased := clearFlag s.pow.banksReleased b.val } }).pin ("VDDIO_" ++ bankName b.val) 1
      else s) := rfl

/-- A change of the released banks, shown at a pin group, leaves the global state and every other part of the state as they were (R501). -/
theorem releaseAndPin_spec (s : State) (m : Nat) (name : String) (level : Nat) :
    let t := { s with pow := { s.pow with banksReleased := m } }.pin name level
    t.pow.banksReleased = m ∧ t.pow.global = s.pow.global ∧ t.out = .pin name level :: s.out ∧ OnlyChanges [.pow, .out] [] s t :=
  ⟨rfl, rfl, rfl, ((setPow_only s _).trans (pin_only _ name level)).mono (by simp) (by simp)⟩

/-! ## Powering up, releasing a bank, driving it again -/

theorem powerOnSuppliesValid_sensesBanks (mv : List Nat) (s : State) (hmv : ∀ v ∈ mv, v ≤ 3800) (hoff : s.pow.global = .off) :
    ∃ t, exec (.powerOnSuppliesValid mv) s = .next t ∧ t.pow.global = .boot ∧ t.pow.phase = .inReset ∧
      t.pow.resetEnd = s.clock + 20000 ∧ (∀ b, b < 4 → bit t.pow.banksHigh b = decide (2500 < mv.getD b 0)) ∧
      OnlyChanges [.pow, .time, .therm, .out, .obs] (Sys.LAST_RESTART_CAUSE :: traceIds) s t := by
  refine ⟨s.powerUp mv, by simp [exec_powerOnSuppliesValid_within s hmv, hoff], ?_, ?_, ?_, fun b hb => ?_, powerUp_only s mv⟩
  all_goals rw [powerUp_pow]
  rw [bit_maskOf]
  simp [hb]

theorem bankSupplyFault_releasesBank {b : Fin 4} {ns : Nat} {s : State} (hns : 1000 ≤ ns) (hon : s.pow.global ≠ .off)
    (hdriven : bit s.pow.banksReleased b.val = false) :
    ∃ t, exec (.bankSupplyFault b ns) s = .next t ∧ bit t.pow.banksReleased b.val = true ∧
      (∀ j, j ≠ b.val → bit t.pow.banksReleased j = bit s.pow.banksReleased j) ∧ t.pow.global = s.pow.global ∧
      t.out = .pin ("VDDIO_" ++ bankName b.val) 2 :: s.out ∧ OnlyChanges [.pow, .out] [] s t := by
  obtain ⟨hmask, hrest⟩ := releaseAndPin_spec s (setFlag s.pow.banksReleased b.val) ("VDDIO_" ++ bankName b.val) 2
  have hacts : ¬(ns < 1000 ∨ s.pow.global = .off ∨ bit s.pow.banksReleased b.val = true) := by simp [hon, hdriven]; omega
  refine ⟨_, by rw [exec_bankSupplyFault, if_neg hacts], ?_, fun j hj => ?_, hrest⟩
  · rw [hmask]; simp
  · rw [hmask]; simp [hj.symm]

theorem bankSupplyReturn_drivesBank {b : Fin 4} {s : State} (hreleased : bit s.pow.banksReleased b.val = true) :
    ∃ t, exec (.bankSupplyReturn b) s = .next t ∧ bit t.pow.banksReleased b.val = false ∧
      (∀ j, j ≠ b.val → bit t.pow.banksReleased j = bit s.pow.banksReleased j) ∧ t.pow.global = s.pow.global ∧
      t.out = .pin ("VDDIO_" ++ bankName b.val) 1 :: s.out ∧ OnlyChanges [.pow, .out] [] s t := by
  obtain ⟨hmask, hrest⟩ := releaseAndPin_spec s (clearFlag s.pow.banksReleased b.val) ("VDDIO_" ++ bankName b.val) 1
  refine ⟨_, by rw [exec_bankSupplyReturn, if_pos hreleased], ?_, fun j hj => ?_, hrest⟩
  · rw [hmask]; simp
  · rw [hmask]; simp [hj.symm]

/-- Settles O7: the frames of powering up and of releasing a bank, and the bits that each leaves in the bank masks. -/
theorem bankSuppliesAreSensedAndReleased : Obligations.BankSuppliesAreSensedAndReleased := by
  refine ⟨fun mv s => ⟨exec_powerOnSuppliesValid_beyond s, fun hmv hon => ?_, powerOnSuppliesValid_sensesBanks mv s⟩,
    fun b ns s => ⟨bankSupplyFault_releasesBank, fun hns => ?_, bankSupplyReturn_drivesBank⟩⟩
  · rw [exec_powerOnSuppliesValid_within s hmv, if_pos hon]
  · rw [exec_bankSupplyFault, if_pos (.inl hns)]

end Sys2Proof.Machine

/-! Commits as one unit (R41, R79, R80): what a commit of given or of staged values comes to, accepted or refused, and O14. -/

namespace Sys2Proof.Machine

/-! ## Requests that Negor takes -/

@[simp] theorem heard_stagedSet (s : State) (r : Req) : (s.heard r).stagedSet r.sess = s.stagedSet r.sess := by
  unfold State.heard
  split
  next x hx => simp [State.stagedSet, hx]
  next => rfl

@[simp] theorem heard_stagedOwned (s : State) (r : Req) (sess : Nat) (l : List Staged) :
    (s.heard r).stagedOwned sess l = s.stagedOwned sess l := by
  simp [State.stagedOwned]

/-- Sending leaves every session as it is. -/
@[simp] theorem emit_session (s : State) (o : Output) (sess : Nat) : (s.emit o).session sess = s.session sess := by
  have h : (s.emit o).nmp.sessions = s.nmp.sessions := (emit_only s o).2.1 .sessions (by simp)
  rw [State.session, h, State.session]

/-- A reply leaves every staged set as it is. -/
@[simp] theorem reply_stagedSet (s : State) (r : Req) (op st : Nat) (pl : List Byte) (sess : Nat) :
    (s.reply r op st pl).stagedSet sess = s.stagedSet sess := by
  unfold State.reply State.sendNmp
  dsimp only
  split
  next => simp [State.stagedSet]
  next x hx =>
    by_cases h : sess = r.sess
    · subst h
      rw [emit_session] at hx
      simp [State.stagedSet, hx]
    · simp [State.stagedSet, session_setSession_other h]

theorem replied_reply (s : State) (r : Req) (op st : Nat) (pl : List Byte) : (s.reply r op st pl).replied r op st pl :=
  ⟨s.control r.port 0, by simp⟩

/-- A request that is answered at once moves nothing but its session and what sending the reply moves. -/
theorem heardReply_only (s : State) (r : Req) (op st : Nat) (pl : List Byte) :
    OnlyChanges [.out, .free, .sessions] txIds s ((s.heard r).reply r op st pl) :=
  ((heard_only s r).trans (reply_only _ r op st pl)).mono (by simp) (by simp)

/-! ## One commit -/

theorem firstBad_eq_ok {l : List Nat} (h : ∀ st ∈ l, st = Status.OK) : firstBad l = Status.OK := by
  induction l with
  | nil => rfl
  | cons st l ih =>
    rw [firstBad, if_pos (h st (List.mem_cons_self ..)), ih fun x hx => h x (List.mem_cons_of_mem _ hx)]

variable {s : State} {r : Req} {op target st port first : Nat} {vals : List (Nat × PVal)} {pl : List Byte}

theorem commitRun_accepted (done : State → State)
    (hv : commitVerdict (s.txn r op target (centries s vals)) (centries s vals) = (st, pl, port, first)) (hst : completes st = true) :
    s.commitRun r op target vals done = (done s).commitApply (s.txn r op target (centries s vals)) (centries s vals) st port first := by
  simp only [State.commitRun, hv, hst, if_true]

theorem commitRun_refused (done : State → State)
    (hv : commitVerdict (s.txn r op target (centries s vals)) (centries s vals) = (st, pl, port, first)) (hst : completes st = false) :
    s.commitRun r op target vals done =
      (if st = Status.BUDGET_EXCEEDED then s.count Tick.ADMIT_REFUSED else s.ticketCounts st port).reply r op st pl := by
  simp only [State.commitRun, hv, hst, Bool.false_eq_true, if_false]

/-- A refusal counts in ADMIT_REFUSED or in EXPOSE_PAST (Tables 02-11 and 09-10). -/
theorem refusalCounts_only (s : State) (hst : completes st = false) :
    OnlyChanges [] [Tick.ADMIT_REFUSED, Sens.EXPOSE_PAST port] s
      (if st = Status.BUDGET_EXCEEDED then s.count Tick.ADMIT_REFUSED else s.ticketCounts st port) := by
  have hshift : st ≠ Status.TICKET_SHIFTED := by rintro rfl; simp [completes] at hst
  unfold State.ticketCounts
  rw [if_neg hshift]
  split
  · exact (count_only s _).mono (by simp) (by simp)
  · split
    · exact (count_only s _).mono (by simp) (by simp)
    · exact (OnlyChanges.refl s).mono (by simp) (by simp)

theorem commitStaged_resolved (done : State → State) (h : ∀ e ∈ vals, (s.resolve e.1 e.2).isSome = true) :
    s.commitStaged r op target vals done =
      s.commitRun r op target (vals.filterMap fun e => (s.resolve e.1 e.2).map fun v => (e.1, v)) done := by
  have hany : (vals.any fun e => (s.resolve e.1 e.2).isNone) = false :=
    List.any_eq_false.2 fun e he => by simp [Option.isSome_iff_ne_none.1 (h e he)]
  rw [State.commitStaged, hany, if_neg Bool.false_ne_true]

/-! ## The commits that the table names by their parameter -/

/-- Each is a commit of the entries that it gives. -/
theorem exec_of_committedBy {i : Instr} {es : List Entry} (h : committedBy i = some (r, es)) (s : State) :
    exec i s = .next (s.commitEntries r es) := by
  cases i <;> cases h <;> rfl

variable {es : List Entry}

theorem commitEntries_refused (ht : s.takes r 0x12) (h : firstBad (es.map ((s.heard r).stageStatus r.sess)) ≠ Status.OK) :
    s.commitEntries r es = (s.heard r).reply r 0x12 (firstBad (es.map ((s.heard r).stageStatus r.sess))) [] := by
  rw [State.commitEntries, request_of_takes _ ht]
  exact if_pos h

theorem commitEntries_wellGiven (ht : s.takes r 0x12) (h : (s.heard r).wellGiven r.sess es) :
    s.commitEntries r es = (s.heard r).commitRun r 0x12 0 ((s.heard r).entryVals r.sess es) id := by
  have hok : firstBad (es.map fun e => (s.heard r).stageStatus r.sess e) = Status.OK :=
    firstBad_eq_ok (by simpa using fun e he => (h e he).1)
  rw [State.commitEntries, request_of_takes _ ht]
  dsimp only
  rw [hok, if_neg (by simp), commitStaged_resolved id (by simpa using fun e he => (h e he).2), List.filterMap_map]
  rfl

/-! ## PARAM_COMMIT -/

theorem exec_paramCommit_owned (ht : s.takes r 0x12) (h : s.stagedOwned r.sess (s.stagedSet r.sess) = true) :
    exec (.paramCommit r target) s =
      .next ((s.heard r).commitStaged r 0x12 target (stagedVals (s.stagedSet r.sess)) fun t => t.setStaged r.sess []) := by
  show execParamCommit r target s = _
  rw [execParamCommit, request_of_takes _ ht]
  simp only [heard_stagedSet, heard_stagedOwned, h, if_true]

theorem exec_paramCommit_notOwned (ht : s.takes r 0x12) (h : s.stagedOwned r.sess (s.stagedSet r.sess) = false) :
    exec (.paramCommit r target) s = .next ((s.heard r).reply r 0x12 Status.NOT_OWNER []) := by
  show execParamCommit r target s = _
  rw [execParamCommit, request_of_takes _ ht]
  simp only [heard_stagedSet, heard_stagedOwned, h, Bool.false_eq_true, if_false]

/-- Settles O14: a commit is `State.commitRun` on the values that it gives or has staged, which applies all of them or replies alone. -/
theorem commitsAreOneUnit : Obligations.CommitsAreOneUnit := by
  refine ⟨⟨fun i r es s hi ht hg => ?_, fun r target s ht ho => ?_⟩, fun i r es s hi ht => ⟨fun hbad => ?_, fun hg => ?_⟩,
    fun r target s ht ho => ?_⟩
  · intro u ces x st pl port first hv hst
    exact ⟨_, exec_of_committedBy hi s, by rw [commitEntries_wellGiven ht hg, commitRun_accepted id hv hst, id]⟩
  · intro u given ces x hgiven st pl port first hv hst
    exact ⟨_, exec_paramCommit_owned ht ho, by rw [commitStaged_resolved _ hgiven, commitRun_accepted _ hv hst]⟩
  · exact ⟨_, by rw [exec_of_committedBy hi, commitEntries_refused ht hbad], replied_reply .., heardReply_only ..⟩
  · intro ces x st pl port first hv hst
    refine ⟨_, by rw [exec_of_committedBy hi, commitEntries_wellGiven ht hg, commitRun_refused id hv hst], replied_reply .., ?_⟩
    exact (((heard_only s r).trans (refusalCounts_only _ hst)).trans (reply_only ..)).mono (by simp) (by simp)
  · exact ⟨_, exec_paramCommit_notOwned ht ho, replied_reply .., by simp, heardReply_only ..⟩

end Sys2Proof.Machine

/-! Commits under their rule (R41, R80): replies held back and let go, commits that wait for the tick edge, commits of one number in force
at once, and O15. -/

namespace Sys2Proof.Machine

/-! ## Replies held back and let go -/

/-- The same state with other replies held back. -/
def State.withWaits (s : State) (l : List Wait) : State := { s with nmp := { s.nmp with waits := l } }

theorem withWaits_only (s : State) (l : List Wait) : OnlyChanges [.nmp] [] s (s.withWaits l) := by
  refine ⟨rfl, fun p hp => ?_, fun _ _ => rfl⟩
  cases p with
  | nmp => simp at hp
  | mem => exact fun _ => rfl
  | buffers | qps => exact ⟨rfl, rfl⟩
  | _ => rfl

/-- A part that holds the same in the end does not count as changed. -/
theorem OnlyChanges.drop {p : Part} {ps : List Part} {ids : List Nat} {s t : State} (h : OnlyChanges (p :: ps) ids s t) (hp : p.same s t) :
    OnlyChanges ps ids s t := by
  refine ⟨h.1, fun q hq => ?_, h.2.2⟩
  by_cases e : q = p
  · exact e ▸ hp
  · exact h.2.1 q (by simp [e, hq])

/-- What changes while a reply is held back is all that has changed once it has been let go. -/
theorem OnlyChanges.aroundWaits {ps : List Part} {ids : List Nat} {s t : State} {l : List Wait} (h : OnlyChanges ps ids (s.withWaits l) t)
    (hn : Part.nmp ∉ ps) : OnlyChanges ps ids s (t.withWaits s.nmp.waits) := by
  have hsame : Part.nmp.same s (t.withWaits s.nmp.waits) := by
    obtain ⟨hid, hpart, hauth, -, hkey⟩ := h.2.1 .nmp hn
    exact ⟨hid, hpart, hauth, rfl, hkey⟩
  exact (((withWaits_only s l).trans h).trans (withWaits_only t _)).mono (qs := .nmp :: ps) (js := ids)
    (by simp +contextual [or_imp]) (by simp) |>.drop hsame

theorem hold_fresh {s : State} {w : Wait} (h : ∀ v ∈ s.nmp.waits, v.r ≠ w.r) : s.hold w = s.withWaits (s.nmp.waits ++ [w]) := by
  have hany : (s.nmp.waits.any fun v => v.r == w.r && v.why == w.why) = false :=
    List.any_eq_false.2 fun v hv => by simp [h v hv]
  have hfind : (s.nmp.waits.find? fun v => v.r == w.r) = none :=
    List.find?_eq_none.2 fun v hv => by simp [h v hv]
  simp only [State.hold, hany, hfind, Bool.false_eq_true, if_false]
  rfl

/-- A reply that one cause alone holds back is sent when that cause is gone (R79). -/
theorem release_last {s : State} {l : List Wait} {w : Wait} (hs : s.nmp.waits = l ++ [w]) (hl : ∀ v ∈ l, v.r ≠ w.r ∧ v.why ≠ w.why)
    (hst : completes w.status = true) :
    s.release w.why Status.OK = (s.withWaits l).reply w.r w.op w.status
      (commitReply w.edge (w.gen.getD (s.rd Tick.PLAN_GENERATION)) ++ w.tails.flatMap Prod.snd) := by
  have hdone : (l ++ [w]).filter (fun v => v.why == w.why) = [w] := by
    have : l.filter (fun v => v.why == w.why) = [] := List.filter_eq_nil_iff.2 fun v hv => by simp [(hl v hv).2]
    simp [List.filter_append, this]
  have hrest : (l ++ [w]).filter (fun v => !(v.why == w.why)) = l := by
    have : l.filter (fun v => !(v.why == w.why)) = l := List.filter_eq_self.2 fun v hv => by simp [(hl v hv).2]
    simp [List.filter_append, this]
  have hmap : ∀ f : Wait → Wait, (l.map fun v => if w.r == v.r then f v else v) = l := fun f => by
    conv_rhs => rw [← List.map_id l]
    exact List.map_congr_left fun v hv => by simp [Ne.symm (hl v hv).1]
  have hany : (l.any fun v => v.r == w.r) = false := List.any_eq_false.2 fun v hv => by simp [(hl v hv).1]
  simp only [State.release, State.releaseIf, hs, hdone, hrest, List.any_cons, List.any_nil, Bool.or_false, hmap, List.foldl_cons, List.foldl_nil,
    hany, Bool.false_eq_true, if_false, if_true, hst]
  rfl

/-! ## Values that come into force -/

/-- Membership reports are sent only where the groups have changed (R310). -/
theorem reportChanges_same {s : State} {before : Nat → Bool → List (List Byte)} (h : ∀ p, p < 2 → ∀ v6, s.groups p v6 = before p v6) :
    s.reportChanges before = s := by
  simp [State.reportChanges, h]

/-- The groups of the ports depend on parameters below group 0x60 alone. -/
theorem groups_of_below {s t : State} (h : ∀ id, id < 0x60000000 → t.rd id = s.rd id ∧ t.rdBlob id = s.rdBlob id) {p : Nat} (hp : p < 2)
    (v6 : Bool) : t.groups p v6 = s.groups p v6 := by
  have hrole := (h Time.PTP_ROLE (by decide)).1
  have hrx : ∀ k, k ∈ List.range 16 → t.rdBlob (St.DEST_ADDRESS (0x50 + k) p) = s.rdBlob (St.DEST_ADDRESS (0x50 + k) p) ∧
      t.rd (St.STREAM_ENABLE (0x50 + k)) = s.rd (St.STREAM_ENABLE (0x50 + k)) ∧ t.rd (St.STREAM_PORTS (0x50 + k)) = s.rd (St.STREAM_PORTS (0x50 + k)) := by
    intro k hk
    have hk := List.mem_range.1 hk
    refine ⟨(h _ ?_).2, (h _ ?_).1, (h _ ?_).1⟩ <;> simp only [St.DEST_ADDRESS, St.STREAM_ENABLE, St.STREAM_PORTS] <;> omega
  unfold State.groups
  dsimp only
  rw [hrole]
  congr 1
  refine List.filterMap_congr fun k hk => ?_
  obtain ⟨ha, he, hports⟩ := hrx k hk
  rw [ha, he, hports]

/-- No value that names no head reaches one (R299). -/
theorem reachHeads_other {s : State} {l : List (Nat × PVal)} (r : Req) (op edge : Nat) (h : ∀ e ∈ l, idGroup e.1 ≠ 0x30) :
    s.reachHeads r op edge l = s := by
  have hnone : ∀ k, headVals k l = [] := fun k => List.filter_eq_nil_iff.2 fun e he => by simp [h e he]
  simp [State.reachHeads, hnone]

/-- Nothing comes into force, nothing changes. -/
theorem inForce_nil (s : State) (t : Txn) : s.inForce t [] = s := reportChanges_same fun _ _ _ => rfl

/-- The reply of a commit that waits for nothing but the end of the commit itself. -/
def commitWait (t : Txn) (edge gen : Nat) : Wait :=
  { r := t.r, op := t.op, edge := edge, status := Status.OK, why := .event 0, gen := some gen }

/-- A commit whose reply no cause but its own end holds back, once what it does has left the other replies as they are. -/
theorem release_commitWait {s b : State} {t : Txn} {edge gen : Nat} (hw : ∀ w ∈ s.nmp.waits, w.r ≠ t.r ∧ w.why ≠ .event 0)
    (hb : b.nmp.waits = s.nmp.waits ++ [commitWait t edge gen]) :
    b.release (.event 0) Status.OK = (b.withWaits s.nmp.waits).reply t.r t.op Status.OK (leBytes 4 edge ++ leBytes 4 gen) := by
  have h := release_last hb hw rfl
  simpa [commitWait, commitReply] using h

/-! ## Commits that wait for the next tick edge -/

theorem ofRule_all {k : CommitRule} {es : List CEntry} (h : ∀ c ∈ es, c.rule = k) : ofRule k es = es.map fun c => (c.id, c.val) := by
  rw [ofRule, List.filter_eq_self.2 fun c hc => by simp [h c hc]]

theorem ofRule_none {k : CommitRule} {es : List CEntry} (h : ∀ c ∈ es, c.rule ≠ k) : ofRule k es = [] := by
  rw [ofRule, List.filter_eq_nil_iff.2 fun c hc => by simp [h c hc], List.map_nil]

theorem ticketVals_none {es : List CEntry} (h : ∀ c ∈ es, c.rule ≠ .ticket) : ticketVals es = [] := by
  rw [ticketVals, List.filter_eq_nil_iff.2 fun c hc => by simp [h c hc], List.map_nil]

/-- The state in which a commit waits for the next tick edge. -/
def State.withAdmitted (s : State) (a : Admitted) : State := { s with tick := { s.tick with admitted := s.tick.admitted ++ [a] } }

theorem setTick_only (s : State) (x : TickSt) : OnlyChanges [.tick] [] s { s with tick := x } := by
  refine ⟨rfl, fun p hp => ?_, fun _ _ => rfl⟩
  cases p with
  | tick => simp at hp
  | mem => exact fun _ => rfl
  | buffers | qps => exact ⟨rfl, rfl⟩
  | nmp => exact ⟨rfl, rfl, rfl, rfl, rfl⟩
  | _ => rfl

theorem withAdmitted_only (s : State) (a : Admitted) : OnlyChanges [.tick] [] s (s.withAdmitted a) := setTick_only s _

/-- A commit that waits for the next edge without a change of the DRAM speed and without values for a head (R41). -/
theorem queueAdmitted_quick {s : State} {t : Txn} {es : List CEntry} {edge : Nat} (hne : es ≠ [])
    (hes : ∀ c ∈ es, c.rule = .admitted ∧ idGroup c.id ≠ 0x30) (hslow : s.speedChange t (es.map fun c => (c.id, c.val)) = false) :
    s.queueAdmitted t es edge = s.withAdmitted ⟨t.r, t.op, t.ids, es.map fun c => (c.id, c.val), t.target, false⟩ := by
  obtain ⟨c, hc⟩ := List.exists_mem_of_ne_nil es hne
  have hadm : admits es = true := List.any_eq_true.2 ⟨c, hc, by simp [(hes c hc).1]⟩
  have hhead : (es.any fun c => idGroup c.id == 0x30) = false := List.any_eq_false.2 fun c hc => by simp [(hes c hc).2]
  simp only [State.queueAdmitted, hadm, ofRule_all fun c hc => (hes c hc).1, hslow, List.any_map, Function.comp_def, hhead, if_true,
    Bool.false_eq_true, if_false]
  rfl

/-- An admitted commit, once accepted, changes no more than that it waits and is answered (R41, R79). -/
theorem commitApply_admitted {s : State} {t : Txn} {es : List CEntry} {port first : Nat} (hne : es ≠ [])
    (hes : ∀ c ∈ es, c.rule = .admitted ∧ idGroup c.id ≠ 0x30) (hw : ∀ w ∈ s.nmp.waits, w.r ≠ t.r ∧ w.why ≠ .event 0)
    (hslow : s.speedChange t (es.map fun c => (c.id, c.val)) = false) :
    let gen := (s.rd Tick.PLAN_GENERATION + s.plansDue + 1) % 2 ^ 32
    let w := commitWait t s.nextEdge gen
    let a : Admitted := ⟨t.r, t.op, t.ids, es.map fun c => (c.id, c.val), t.target, false⟩
    s.commitApply t es Status.OK port first =
      (((s.withWaits (s.nmp.waits ++ [w])).withAdmitted a).withWaits s.nmp.waits).reply t.r t.op Status.OK
        (leBytes 4 s.nextEdge ++ leBytes 4 gen) := by
  intro gen w a
  obtain ⟨c, hc⟩ := List.exists_mem_of_ne_nil es hne
  have hadm : admits es = true := List.any_eq_true.2 ⟨c, hc, by simp [(hes c hc).1]⟩
  have hany : (es.any fun e => e.rule == .admitted) = true := List.any_eq_true.2 ⟨c, hc, by simp [(hes c hc).1]⟩
  have hrule : ∀ k, k ≠ CommitRule.admitted → ∀ c ∈ es, c.rule ≠ k := fun k hk c hc => by rw [(hes c hc).1]; exact hk.symm
  have hhold : s.hold w = s.withWaits (s.nmp.waits ++ [w]) := hold_fresh fun v hv => (hw v hv).1
  have hqueue : (s.withWaits (s.nmp.waits ++ [w])).queueAdmitted t es s.nextEdge = (s.withWaits (s.nmp.waits ++ [w])).withAdmitted a :=
    queueAdmitted_quick hne hes hslow
  simp only [State.commitApply, ticketVals_none (hrule .ticket (by decide)), ofRule_none (hrule .immediate (by decide)),
    ofRule_none (hrule .boundary (by decide)), ofRule_none (hrule .restart (by decide)), hany, hadm, if_true, List.isEmpty_nil, List.foldl_nil]
  change ((((s.hold w).inForce t []).reachHeads t.r t.op s.nextEdge []).queueAdmitted t es s.nextEdge).release (.event 0) Status.OK = _
  rw [hhold, inForce_nil, reachHeads_other _ _ _ (by simp), hqueue]
  exact release_commitWait hw rfl

/-! ## Commits of one number in force at once -/

/-- A commit of one immediate number that names no head and enters no charge of admission: the number comes into force, and the commit is
answered with the Tick Sequence and the generation in force (R79, R80). -/
theorem commitApply_immediate {s : State} {t : Txn} {id v port first : Nat} (hhead : idGroup id ≠ 0x30) (hcost : costImmediate id = false)
    (hw : ∀ w ∈ s.nmp.waits, w.r ≠ t.r ∧ w.why ≠ .event 0) :
    let gen := (s.rd Tick.PLAN_GENERATION + s.plansDue) % 2 ^ 32
    let u := s.withWaits (s.nmp.waits ++ [commitWait t s.tickSeq gen])
    (u.inForce t [(id, .num v)]).nmp.waits = u.nmp.waits →
    s.commitApply t [⟨id, .num v, .immediate⟩] Status.OK port first =
      ((u.inForce t [(id, .num v)]).withWaits s.nmp.waits).reply t.r t.op Status.OK (leBytes 4 s.tickSeq ++ leBytes 4 gen) := by
  intro gen u hu
  have hadm : admits [⟨id, .num v, .immediate⟩] = false := by simp [admits, hcost]
  have hhold : s.hold (commitWait t s.tickSeq gen) = u := hold_fresh fun v hv => (hw v hv).1
  have hother : otherVals [(id, .num v)] = [(id, .num v)] := by simp [otherVals, hhead]
  have hrun : s.commitApply t [⟨id, .num v, .immediate⟩] Status.OK port first =
      ((((s.hold (commitWait t s.tickSeq gen)).inForce t (otherVals [(id, .num v)])).reachHeads t.r t.op s.tickSeq
        [(id, .num v)]).queueAdmitted t [⟨id, .num v, .immediate⟩] s.tickSeq).release (.event 0) Status.OK := by
    simp only [State.commitApply, hadm]
    rfl
  rw [hrun, hhold, hother, reachHeads_other _ _ _ (by simpa using hhead), State.queueAdmitted, hadm, if_neg Bool.false_ne_true]
  exact release_commitWait hw hu

theorem leNat_leBytes (n v : Nat) : leNat (leBytes n v) = v % 256 ^ n := by
  induction n generalizing v with
  | zero => simp [leBytes, leNat, Nat.mod_one]
  | succ n ih => simp [leBytes, leNat, ih, Nat.pow_succ, Nat.mul_comm, Nat.mod_mul]

@[simp] theorem leBytes_length (n v : Nat) : (leBytes n v).length = n := by
  induction n generalizing v with
  | zero => rfl
  | succ n ih => simp [leBytes, ih]

/-- The bytes of a number of a type stand for the number (R77). -/
theorem leNat_valueBytes {t : PType} {v : Nat} (hv : v < 2 ^ t.width) : leNat (valueBytes t v) = v := by
  rw [valueBytes, leNat_leBytes, Nat.mod_eq_of_lt]
  cases t <;> exact hv

/-- The entry that carries a number is decoded to it. -/
theorem decodeValue_number {p : Param} {id v : Nat} (hb : p.type ≠ .blob) (hv : v < 2 ^ p.type.width) :
    (decodeValue p ⟨id, p.type.code, 0, valueBytes p.type v⟩).2 = .num v := by
  have hn := leNat_valueBytes hv
  have hl : (valueBytes p.type v).length = p.type.width / 8 := leBytes_length ..
  unfold decodeValue
  dsimp only
  rw [if_neg (by simp)]
  split
  next h => exact absurd h hb
  next =>
    rw [if_neg (by simpa using hl), hn]
    split
    · rfl
    · split <;> rfl

/-- An entry of a number that PARAM_SET would take carries that number. -/
theorem setStatus_number {s : State} {sess id v : Nat} {p : Param} (hp : paramOf id = some p) (hb : p.type ≠ .blob) (hv : v < 2 ^ p.type.width)
    (hok : (s.setStatus sess ⟨id, p.type.code, 0, valueBytes p.type v⟩).1 = Status.OK) :
    (s.setStatus sess ⟨id, p.type.code, 0, valueBytes p.type v⟩).2 = .num v := by
  have hd := decodeValue_number (id := id) hb hv
  unfold State.setStatus at hok ⊢
  simp only [hp] at hok ⊢
  split at hok
  · exact absurd hok (by decide)
  · rw [if_neg ‹_›]
    split at hok
    · exact absurd hok (by decide)
    · rw [if_neg ‹_›]
      simp only [hd]
      repeat' split
      all_goals simp only [hd]

theorem setStatus_of_stageStatus {s : State} {sess : Nat} {e : Entry} (h : s.stageStatus sess e = Status.OK) :
    (s.setStatus sess e).1 = Status.OK := by
  unfold State.stageStatus at h
  split at h
  · exact absurd h (by decide)
  · exact h

theorem numEntry_of_paramOf {id v : Nat} {p : Param} (hp : paramOf id = some p) : numEntry id v = ⟨id, p.type.code, 0, valueBytes p.type v⟩ := by
  simp [numEntry, hp]

theorem wellGiven_number {s : State} {sess id v : Nat} {p : Param} (hp : paramOf id = some p) (hb : p.type ≠ .blob) (hv : v < 2 ^ p.type.width)
    (hst : s.stageStatus sess (numEntry id v) = Status.OK) :
    s.wellGiven sess [numEntry id v] ∧ s.entryVals sess [numEntry id v] = [(id, .num v)] := by
  rw [numEntry_of_paramOf hp] at hst ⊢
  have hval := setStatus_number hp hb hv (setStatus_of_stageStatus hst)
  refine ⟨fun e he => ?_, ?_⟩
  · rw [List.mem_singleton.1 he]
    exact ⟨hst, by simp [hval, State.resolve]⟩
  · simp [State.entryVals, hval, State.resolve]

theorem centries_number (s : State) {id : Nat} (v : Nat) {p : Param} (hp : paramOf id = some p) (hbase : id ≠ Tick.CUSTOM_BASE) :
    centries s [(id, .num v)] = [⟨id, .num v, p.commit⟩] := by
  simp [centries, hbase, ruleOf, hp]

/-- A request that Negor accepts for one immediate number. -/
structure AcceptsNumber (s : State) (r : Req) (id v : Nat) (p : Param) : Prop where
  takes : s.takes r 0x12
  waits : ∀ w ∈ s.nmp.waits, w.r ≠ r ∧ w.why ≠ .event 0
  param : paramOf id = some p
  rule : p.commit = .immediate
  number : p.type ≠ .blob
  fits : v < 2 ^ p.type.width
  head : idGroup id ≠ 0x30
  free : costImmediate id = false
  base : id ≠ Tick.CUSTOM_BASE
  staged : (s.heard r).stageStatus r.sess (numEntry id v) = Status.OK
  verdict : commitVerdict ((s.heard r).txn r 0x12 0 (centries (s.heard r) [(id, .num v)])) (centries (s.heard r) [(id, .num v)]) =
    (Status.OK, [], 0, 0)

/-- What such a commit leaves: the number has come into force in a state that differs in the session's activity and the replies held
back, and the commit is answered. -/
theorem AcceptsNumber.comesIntoForce {s : State} {r : Req} {id v : Nat} {p : Param} (h : AcceptsNumber s r id v p) {i : Instr}
    (hi : committedBy i = some (r, [numEntry id v])) {ps : List Part} {ids : List Nat} (hn : Part.nmp ∉ ps)
    (hf : ∀ (u : State) (x : Txn), OnlyChanges [.sessions, .nmp] [] s u → OnlyChanges ps ids u (u.inForce x [(id, .num v)])) :
    ∃ t u x, exec i s = .next t ∧ OnlyChanges [.sessions, .nmp] [] s u ∧
      OnlyChanges [.nmp, .out, .free, .sessions] txIds (u.inForce x [(id, .num v)]) t ∧
      OnlyChanges (ps ++ [.out, .free, .sessions]) (ids ++ txIds) s t ∧
      t.replied r 0x12 Status.OK (leBytes 4 s.tickSeq ++ leBytes 4 ((s.rd Tick.PLAN_GENERATION + s.plansDue) % 2 ^ 32)) := by
  obtain ⟨ht, hw, hp, hrule, hb, hv, hhead, hfree, hbase, hst, hverdict⟩ := h
  obtain ⟨hgiven, hvals⟩ := wellGiven_number hp hb hv hst
  have hces := centries_number (s.heard r) v hp hbase
  rw [hrule] at hces
  have hwaits : (s.heard r).nmp.waits = s.nmp.waits := ((heard_only s r).2.1 .nmp (by simp)).2.2.2.1
  have htick : (s.heard r).tick = s.tick := (heard_only s r).2.1 .tick (by simp)
  have hseq : (s.heard r).tickSeq = s.tickSeq := heard_rd ..
  have hdue : (s.heard r).plansDue = s.plansDue := by simp only [State.plansDue, htick]
  let x := (s.heard r).txn r 0x12 0 [⟨id, .num v, .immediate⟩]
  let gen := (s.rd Tick.PLAN_GENERATION + s.plansDue) % 2 ^ 32
  let u := (s.heard r).withWaits (s.nmp.waits ++ [commitWait x s.tickSeq gen])
  have hu : OnlyChanges [.sessions, .nmp] [] s u := ((heard_only s r).trans (withWaits_only _ _)).mono (by simp) (by simp)
  have hforce := hf u x hu
  have hkept : (u.inForce x [(id, .num v)]).nmp.waits = u.nmp.waits := (hforce.2.1 .nmp hn).2.2.2.1
  have happly := commitApply_immediate (s := s.heard r) (t := x) (id := id) (v := v) (port := 0) (first := 0) hhead hfree
    (fun w hm => hw w (hwaits ▸ hm))
  simp only [heard_rd, hdue, hseq, hwaits] at happly
  refine ⟨((u.inForce x [(id, .num v)]).withWaits s.nmp.waits).reply r 0x12 Status.OK (leBytes 4 s.tickSeq ++ leBytes 4 gen), u, x, ?_, hu, ?_, ?_, replied_reply ..⟩
  · rw [exec_of_committedBy hi, commitEntries_wellGiven ht hgiven, hvals, commitRun_accepted _ hverdict rfl, hces]
    exact congrArg _ (happly hkept)
  · exact ((withWaits_only _ _).trans (reply_only ..)).mono (by simp) (by simp)
  · have hframe := (hforce.aroundWaits hn)
    rw [hwaits] at hframe
    exact (((heard_only s r).trans hframe).trans (reply_only ..)).mono (by simp) (by simp)

/-! ## What one number does to its block -/

theorem install_writeOnly {id : Nat} {p : Param} (hp : paramOf id = some p) (ha : p.access = .wo) (s : State) (v : PVal) :
    s.install (id, v) = s := by
  simp [State.install, readable, hp, ha]

theorem install_number {id : Nat} {p : Param} (hp : paramOf id = some p) (ha : p.access = .rw) (hr : p.commit = .immediate) (s : State) (v : Nat) :
    s.install (id, .num v) = s.wr id (if idGroup id = 0x90 then fabricValue s id v else v) := by
  simp [State.install, State.place, readable, ruleOf, hp, ha, hr]

/-- One number comes into force: it stands, then it acts on its block. Where that leaves the parameters below group 0x60 as they were,
no group of a port has changed. -/
theorem inForce_number {s : State} {t : Txn} {id v : Nat}
    (h : ∀ i, i < 0x60000000 → (entryApply t id (.num v) (s.install (id, .num v))).rd i = s.rd i ∧
      (entryApply t id (.num v) (s.install (id, .num v))).rdBlob i = s.rdBlob i) :
    s.inForce t [(id, .num v)] = entryApply t id (.num v) (s.install (id, .num v)) :=
  reportChanges_same fun _ hp v6 => groups_of_below h hp v6

/-- The frame of a change of one parameter from group 0x60 on. -/
theorem wr_below {id : Nat} (hid : 0x60000000 ≤ id) (s : State) (v : Nat) :
    ∀ i, i < 0x60000000 → (s.wr id v).rd i = s.rd i ∧ (s.wr id v).rdBlob i = s.rdBlob i :=
  fun i hi => ⟨(wr_only s id v).2.2 i (by simp; omega), (wr_only s id v).2.1 (.blob i) (by simp)⟩

/-- A number of a group from 0x60 on that acts on no block does nothing but stand. -/
theorem inForce_plain {id : Nat} {p : Param} (hp : paramOf id = some p) (ha : p.access = .rw) (hr : p.commit = .immediate)
    (hid : 0x60000000 ≤ id) {v : Nat} {t : Txn} (hact : ∀ s, entryApply t id (.num v) s = s) (s : State) :
    s.inForce t [(id, .num v)] = s.wr id (if idGroup id = 0x90 then fabricValue s id v else v) := by
  have hE : entryApply t id (.num v) (s.install (id, .num v)) = s.wr id (if idGroup id = 0x90 then fabricValue s id v else v) := by
    rw [hact, install_number hp ha hr]
  rw [inForce_number (by rw [hE]; exact wr_below hid s _), hE]

theorem le_of_idGroup {id g : Nat} (h : idGroup id = g) : g * 0x1000000 ≤ id := by
  simp only [idGroup, bits] at h
  omega

theorem costImmediate_other {id : Nat} (h : idGroup id ∉ [0x40, 0x41, 0x50, 0x60]) : costImmediate id = false := by
  have hint : id ≠ Rec.COMMIT_INTERVAL := by rintro rfl; exact h (by decide)
  simp only [List.mem_cons, List.not_mem_nil, or_false, not_or] at h
  simp [costImmediate, h, hint]

theorem not_mem_txIds {id : Nat} (hid : 0x60000000 ≤ id) : id ∉ txIds := fun hm =>
  absurd ((by decide : ∀ i ∈ txIds, i < 0x60000000) id hm) (by omega)

/-- An accepted number of a group from 0x60 on that acts on no block: it stands, and it alone changes. -/
theorem AcceptsNumber.stands {s : State} {r : Req} {id v : Nat} {p : Param} (h : AcceptsNumber s r id v p) (ha : p.access = .rw)
    (hfixed : p.fixed = false) (hid : 0x60000000 ≤ id) (hact : ∀ (t : Txn) (s : State), entryApply t id (.num v) s = s) {i : Instr}
    (hi : committedBy i = some (r, [numEntry id v])) :
    ∃ t, exec i s = .next t ∧ t.rd id = (if idGroup id = 0x90 then fabricValue s id v else v) % 2 ^ p.type.width ∧
      t.replied r 0x12 Status.OK (leBytes 4 s.tickSeq ++ leBytes 4 ((s.rd Tick.PLAN_GENERATION + s.plansDue) % 2 ^ 32)) ∧
      OnlyChanges [.out, .free, .sessions] (id :: txIds) s t := by
  obtain ⟨t, u, x, he, hu, hlast, hall, hreply⟩ := h.comesIntoForce hi (ps := []) (ids := [id]) (by simp) fun u x _ => by
    rw [inForce_plain h.param ha h.rule hid (hact x)]
    exact wr_only ..
  refine ⟨t, he, ?_, hreply, hall.mono (by simp) (by simp)⟩
  rw [hlast.2.2 id (not_mem_txIds hid), inForce_plain h.param ha h.rule hid (hact x), rd_wr_same h.param hfixed]
  simp only [fabricValue, hu.2.2 id (by simp)]

/-! ## Parameters by their group, instance and number (R13) -/

/-- The fields of an ID. -/
theorem idFields {g i n : Nat} (hg : g < 256) (hi : i < 256) (hn : n < 65536) :
    idGroup (g * 0x1000000 + n + i * 0x10000) = g ∧ idInst (g * 0x1000000 + n + i * 0x10000) = i ∧
      idNum (g * 0x1000000 + n + i * 0x10000) = n := by
  simp only [idGroup, idInst, idNum, bits]
  omega

theorem paramOf_srcEnable (i : Fin 256) :
    paramOf (Ev.SRC_ENABLE i.val) = some ⟨0x90, 0x0001, [], [(0, 255)], .enum, .rw, 1, some (0, 1), .immediate⟩ := by
  obtain ⟨hg, hi, hn⟩ := idFields (g := 0x90) (n := 1) (by decide) i.isLt (by decide)
  have hlt : Ev.SRC_ENABLE i.val < 2 ^ 32 := by simp only [Ev.SRC_ENABLE]; omega
  rw [paramOf, if_pos hlt, show idGroup (Ev.SRC_ENABLE i.val) = 0x90 from hg]
  refine List.find?_cons_of_pos ?_
  simp [Param.covers, baseNum, show idInst (Ev.SRC_ENABLE i.val) = i.val from hi, show idNum (Ev.SRC_ENABLE i.val) = 1 from hn]
  omega

theorem paramOf_applPosition (i : Fin 8) :
    paramOf (Aud.APPL_POSITION i.val) = some ⟨0x60, 0x000D, [], [(0, 7)], .u64, .rw, 0, none, .immediate⟩ := by
  revert i
  decide

/-- The flag words of the Event Fabric that exist are 32-bit flags in force at once (Table 17-5). -/
theorem paramOf_flagWord (word : Fin 8) (flag : Fin 5) :
    (paramOf (0x90000201 + 0x10000 * word.val + flag.val)).all fun p =>
      p.type == .flags && p.access == .rw && p.commit == .immediate && !p.fixed := by
  revert word flag
  decide

/-! ## The clauses -/

/-- A request for a number is accepted: PARAM_SET would take the entry, and its commit passes the checks. -/
def State.takesNumber (s : State) (r : Req) (id v : Nat) : Prop :=
  (s.heard r).stageStatus r.sess (numEntry id v) = Status.OK ∧
    commitVerdict ((s.heard r).txn r 0x12 0 (centries (s.heard r) [(id, .num v)])) (centries (s.heard r) [(id, .num v)]) = (Status.OK, [], 0, 0)

/-- What an accepted request for an immediate number owes to the row of its parameter. -/
theorem acceptsNumber_of_row {s : State} {r : Req} {id v : Nat} {p : Param} (ht : s.takes r 0x12)
    (hw : ∀ w ∈ s.nmp.waits, w.r ≠ r ∧ w.why ≠ .event 0) (hp : paramOf id = some p) (hrule : p.commit = .immediate) (hb : p.type ≠ .blob)
    (hv : v < 2 ^ p.type.width) (hg : idGroup id ∉ [0x02, 0x30]) (hfree : costImmediate id = false)
    (hok : s.takesNumber r id v) : AcceptsNumber s r id v p :=
  ⟨ht, hw, hp, hrule, hb, hv, fun h => hg (by simp [h]), hfree, fun h => hg (by rw [h]; decide), hok.1, hok.2⟩

/-- An entry of no parameter is BAD_PARAM, or NOT_READY in a WARMUP (R27, R76). -/
theorem stageStatus_unknown {s : State} {sess : Nat} {e : Entry} (h : paramOf e.id = none) : s.stageStatus sess e ≠ Status.OK := by
  unfold State.stageStatus
  split
  · decide
  · rw [State.setStatus, h]
    exact (by decide : Status.BAD_PARAM ≠ Status.OK)

theorem eventFlagClear_clears {s : State} {r : Req} {v : Nat} {flag : Fin 5} {word : Fin 8} (ht : s.takes r 0x12)
    (hw : ∀ w ∈ s.nmp.waits, w.r ≠ r ∧ w.why ≠ .event 0) (hv : v < 2 ^ 32) :
    let id := 0x90000201 + 0x10000 * word.val + flag.val
    s.takesNumber r id v →
    ∃ t, exec (.eventFlagClearWrite r flag word v) s = .next t ∧ t.rd id = writeOneClears (s.rd id) v % 2 ^ 32 ∧
      OnlyChanges [.out, .free, .sessions] (id :: txIds) s t := by
  intro id hok
  have hid : id = 0x90 * 0x1000000 + (0x201 + flag.val) + word.val * 0x10000 := by omega
  obtain ⟨hg, -, hn⟩ := idFields (g := 0x90) (i := word.val) (n := 0x201 + flag.val) (by decide) (by omega) (by omega)
  rw [← hid] at hg hn
  obtain hp | ⟨p, hp⟩ := Option.eq_none_or_eq_some (paramOf id)
  · exact absurd hok.1 (stageStatus_unknown (by simp [numEntry, hp]))
  have hrow := paramOf_flagWord word flag
  rw [show paramOf (0x90000201 + 0x10000 * word.val + flag.val) = some p from hp, Option.all_some] at hrow
  simp only [Bool.and_eq_true, beq_iff_eq, Bool.not_eq_true'] at hrow
  obtain ⟨⟨⟨htype, ha⟩, hrule⟩, hfixed⟩ := hrow
  have hacc : AcceptsNumber s r id v p := acceptsNumber_of_row ht hw hp hrule (by simp [htype]) (by rw [htype]; exact hv) (by simp [hg])
    (costImmediate_other (by simp [hg])) hok
  obtain ⟨t, he, hrd, -, hframe⟩ := hacc.stands ha hfixed (by omega) (fun t u => by
    have hfire : id ≠ Ev.SW_FIRE := by simp only [Ev.SW_FIRE]; omega
    simp only [entryApply, hg, fabricApply, hn, hfire, if_false]
    rw [if_neg (by omega)]) (i := .eventFlagClearWrite r flag word v) rfl
  refine ⟨t, he, ?_, hframe⟩
  rw [hrd, if_pos hg, fabricValue, hn, if_pos (by omega), htype]
  rfl

section

variable {s : State} {r : Req} {v : Nat}

theorem srcEnable_stands {src : Fin 256} (ht : s.takes r 0x12) (hw : ∀ w ∈ s.nmp.waits, w.r ≠ r ∧ w.why ≠ .event 0) (hv : v < 2 ^ 32)
    (hok : s.takesNumber r (Ev.SRC_ENABLE src.val) v) :
    ∃ t, exec (.srcEnableWrite r src v) s = .next t ∧ t.rd (Ev.SRC_ENABLE src.val) = v ∧
      OnlyChanges [.out, .free, .sessions] (Ev.SRC_ENABLE src.val :: txIds) s t := by
  obtain ⟨hg, -, hn⟩ := idFields (g := 0x90) (n := 1) (by decide) src.isLt (by decide)
  replace hg : idGroup (Ev.SRC_ENABLE src.val) = 0x90 := hg
  replace hn : idNum (Ev.SRC_ENABLE src.val) = 1 := hn
  have hacc := acceptsNumber_of_row ht hw (paramOf_srcEnable src) rfl (by decide) hv (by simp [hg]) (costImmediate_other (by simp [hg])) hok
  obtain ⟨t, he, hrd, -, hframe⟩ := hacc.stands rfl rfl (by simp only [Ev.SRC_ENABLE]; omega) (fun t u => by
    have hfire : Ev.SRC_ENABLE src.val ≠ Ev.SW_FIRE := by simp only [Ev.SRC_ENABLE, Ev.SW_FIRE]; omega
    simp [entryApply, hg, fabricApply, hn, hfire]) (i := .srcEnableWrite r src v) rfl
  refine ⟨t, he, ?_, hframe⟩
  rw [hrd, if_pos hg, fabricValue, hn]
  exact Nat.mod_eq_of_lt hv

theorem applPosition_stands {port : Fin 8} (ht : s.takes r 0x12) (hw : ∀ w ∈ s.nmp.waits, w.r ≠ r ∧ w.why ≠ .event 0) (hv : v < 2 ^ 64)
    (hok : s.takesNumber r (Aud.APPL_POSITION port.val) v) :
    ∃ t, exec (.applPositionWrite r port v) s = .next t ∧ t.rd (Aud.APPL_POSITION port.val) = v ∧
      OnlyChanges [.out, .free, .sessions] (Aud.APPL_POSITION port.val :: txIds) s t := by
  obtain ⟨hg, hi, hn⟩ := idFields (g := 0x60) (i := port.val) (n := 0xD) (by decide) (by omega) (by decide)
  replace hg : idGroup (Aud.APPL_POSITION port.val) = 0x60 := hg
  replace hi : idInst (Aud.APPL_POSITION port.val) = port.val := hi
  replace hn : idNum (Aud.APPL_POSITION port.val) = 0xD := hn
  have hfree : costImmediate (Aud.APPL_POSITION port.val) = false := by
    have : Aud.APPL_POSITION port.val ≠ Rec.COMMIT_INTERVAL := by simp only [Aud.APPL_POSITION, Rec.COMMIT_INTERVAL]; omega
    simp [costImmediate, hg, hn, this]
  have hacc := acceptsNumber_of_row ht hw (paramOf_applPosition port) rfl (by decide) hv (by simp [hg]) hfree hok
  obtain ⟨t, he, hrd, -, hframe⟩ := hacc.stands rfl rfl (by simp only [Aud.APPL_POSITION]; omega) (fun t u => by
    obtain ⟨henable, hmask, hmute, hring⟩ : Aud.APPL_POSITION port.val ≠ Aud.PORT_ENABLE port.val ∧
        Aud.APPL_POSITION port.val ≠ Aud.SLOT_MASK port.val ∧ Aud.APPL_POSITION port.val ≠ Aud.MUTE port.val ∧
        Aud.APPL_POSITION port.val ≠ Aud.AUD_RING port.val := by
      simp [Aud.APPL_POSITION, Aud.PORT_ENABLE, Aud.SLOT_MASK, Aud.MUTE, Aud.AUD_RING]
    simp [entryApply, hg, audioApply, hi, hn, henable, hmask, hmute, hring])
    (i := .applPositionWrite r port v) rfl
  refine ⟨t, he, ?_, hframe⟩
  rw [hrd, if_neg (by simp [hg])]
  exact Nat.mod_eq_of_lt hv

/-- Firing sources one after the other adds their firings at one device clock. -/
theorem foldl_fire (l : List Nat) (s : State) :
    (l.foldl (fun (t : State) b => t.fire (208 + b)) s).firings = s.firings ++ l.map (fun b => (208 + b, s.clock)) ∧
      OnlyChanges [.firings] [] s (l.foldl (fun (t : State) b => t.fire (208 + b)) s) := by
  refine ⟨?_, OnlyChanges.foldl l ((OnlyChanges.refl s).mono (by simp) (by simp)) fun t b _ => fire_only t _⟩
  induction l generalizing s with
  | nil => simp
  | cons b l ih => simp [ih]

/-- An accepted number that is only written acts on its block and leaves nothing in the parameters. -/
theorem AcceptsNumber.acts {id : Nat} {p : Param} (h : AcceptsNumber s r id v p) (ha : p.access = .wo) {ps : List Part} {f : State → State}
    (hact : ∀ (x : Txn) (u : State), OnlyChanges [.sessions, .nmp] [] s u → entryApply x id (.num v) u = f u)
    (hf : ∀ u, OnlyChanges ps [] u (f u)) (hn : Part.nmp ∉ ps) (hblob : ∀ i, i < 0x60000000 → Part.blob i ∉ ps) {i : Instr}
    (hi : committedBy i = some (r, [numEntry id v])) :
    ∃ t u, exec i s = .next t ∧ OnlyChanges [.sessions, .nmp] [] s u ∧ OnlyChanges [.nmp, .out, .free, .sessions] txIds (f u) t ∧
      OnlyChanges (ps ++ [.out, .free, .sessions]) txIds s t := by
  have hforce : ∀ (u : State) (x : Txn), OnlyChanges [.sessions, .nmp] [] s u → u.inForce x [(id, .num v)] = f u := by
    intro u x hu
    have hE : entryApply x id (.num v) (u.install (id, .num v)) = f u := by rw [install_writeOnly h.param ha, hact x u hu]
    rw [inForce_number (by rw [hE]; exact fun i hi => ⟨(hf u).2.2 i (by simp), (hf u).2.1 (.blob i) (hblob i hi)⟩), hE]
  obtain ⟨t, u, x, he, hu, hlast, hall, -⟩ := h.comesIntoForce hi (ps := ps) (ids := []) hn fun u x hu => by rw [hforce u x hu]; exact hf u
  exact ⟨t, u, he, hu, hforce u x hu ▸ hlast, hall⟩

theorem swFire_fires (ht : s.takes r 0x12) (hw : ∀ w ∈ s.nmp.waits, w.r ≠ r ∧ w.why ≠ .event 0) (hv : v < 2 ^ 32)
    (hok : s.takesNumber r Ev.SW_FIRE v) :
    ∃ t, exec (.swFireWrite r v) s = .next t ∧ t.firings = s.firings ++ (setBits 16 v).map (fun b => (208 + b, s.clock)) ∧
      OnlyChanges [.firings, .out, .free, .sessions] txIds s t := by
  have hp : paramOf Ev.SW_FIRE = some ⟨0x90, 0x0010, [], [(0, 0)], .flags, .wo, 0, some (0, 65535), .immediate⟩ := by decide
  have hacc := acceptsNumber_of_row ht hw hp rfl (by decide) hv (by decide) (by decide) hok
  obtain ⟨t, u, he, hu, hlast, hall⟩ := hacc.acts rfl (fun _ _ _ => rfl) (fun u => (foldl_fire (setBits 16 v) u).2) (by simp) (by simp)
    (i := .swFireWrite r v) rfl
  refine ⟨t, he, ?_, hall⟩
  have hfirings : u.firings = s.firings := hu.2.1 .firings (by simp)
  have hclock : u.clock = s.clock := hu.2.1 .clock (by simp)
  exact (hlast.2.1 .firings (by simp)).trans (by rw [(foldl_fire _ u).1, hfirings, hclock]; rfl)

/-- The result of a diagnostic read has 96 bytes (R438). -/
theorem diagBytes_length (beats erased : List Nat) : (diagBytes (burstSymbols beats) erased).length = 96 := by
  have hhead : ((burstSymbols beats).flatMap (leBytes 1)).length = 80 := by
    simp [List.length_flatMap, burstSymbols, codeLength, Function.comp_def]
  unfold diagBytes
  dsimp only
  split <;> simp [hhead, zeroBytes]

theorem diagRead_only (s : State) (a : Nat) : OnlyChanges [.free, .blob Dram.DIAG_DATA] [] s (s.diagRead a) :=
  (draw_only s).trans (wrBlob_only _ Dram.DIAG_DATA _)

theorem diagAddress_reads (ht : s.takes r 0x12) (hw : ∀ w ∈ s.nmp.waits, w.r ≠ r ∧ w.why ≠ .event 0) (hv : v < 2 ^ 64)
    (hok : s.takesNumber r Dram.DIAG_ADDRESS v) :
    ∃ t, exec (.diagAddressWrite r v) s = .next t ∧ (t.rdBlob Dram.DIAG_DATA).length = 96 ∧
      OnlyChanges [.blob Dram.DIAG_DATA, .out, .free, .sessions] txIds s t := by
  have hp : paramOf Dram.DIAG_ADDRESS = some ⟨0x80, 0x0029, [], [(0, 0)], .u64, .wo, 0, none, .immediate⟩ := by decide
  have hacc := acceptsNumber_of_row ht hw hp rfl (by decide) hv (by decide) (by decide) hok
  obtain ⟨t, u, he, -, hlast, hall⟩ := hacc.acts rfl (fun _ _ _ => rfl) (fun u => diagRead_only u v) (by simp)
    (by simp only [Dram.DIAG_DATA]; simp; omega) (i := .diagAddressWrite r v) rfl
  have hdata : t.rdBlob Dram.DIAG_DATA = (u.diagRead v).rdBlob Dram.DIAG_DATA := hlast.2.1 (.blob Dram.DIAG_DATA) (by simp)
  refine ⟨t, he, ?_, hall.mono (by simp) (by simp)⟩
  rw [hdata, State.diagRead, rdBlob_wrBlob_same, diagBytes_length]

theorem setTimeSet_only (s : State) (v : Option Nat) : OnlyChanges [.time] [] s { s with time := { s.time with set := v } } :=
  ((setPowTimeTherm_only s s.pow { s.time with set := v } s.therm).mono (qs := [.pow, .therm, .time]) (by simp) (by simp)).drop rfl |>.drop rfl

theorem timeSet_kept (ht : s.takes r 0x12) (hw : ∀ w ∈ s.nmp.waits, w.r ≠ r ∧ w.why ≠ .event 0) (hv : v < 2 ^ 64)
    (hhost : s.rd Time.TIME_SOURCE = 3) (hok : s.takesNumber r Time.TIME_SET v) :
    ∃ t, exec (.timeSetWrite r v) s = .next t ∧ t.time.set = some v ∧ OnlyChanges [.time, .out, .free, .sessions] txIds s t := by
  have hp : paramOf Time.TIME_SET = some ⟨0x42, 0x0002, [], [(0, 0)], .u64, .wo, 0, none, .immediate⟩ := by decide
  have hacc := acceptsNumber_of_row ht hw hp rfl (by decide) hv (by decide) (by decide) hok
  obtain ⟨t, u, he, -, hlast, hall⟩ := hacc.acts rfl (fun _ u hu => if_pos ((hu.2.2 Time.TIME_SOURCE (by simp)).trans hhost))
    (fun u => setTimeSet_only u (some v)) (by simp) (by simp) (i := .timeSetWrite r v) rfl
  have htime : t.time = { u.time with set := some v } := hlast.2.1 .time (by simp)
  exact ⟨t, he, by rw [htime], hall⟩

end

/-! ## The tick rate in RUN (R37) -/

/-- The first check of an entry that fails decides (R79). -/
theorem commitVerdict_bad {t : Txn} {es : List CEntry} {st : Nat} (h : firstBad (es.map fun e => entryCheck t e.id e.val) = st)
    (hst : st ≠ Status.OK) : commitVerdict t es = (st, [], 0, 0) := by
  simp only [commitVerdict, h, if_pos hst]

/-- The tick rate changes in READY alone: its commit is a CONFLICT in RUN (R37). -/
theorem tickRate_conflict {u : State} {r : Req} {target : Nat} {a b : PVal} (hrun : u.pow.global = .run) :
    let vals := [(Tick.TICK_RATE_N, a), (Tick.TICK_RATE_D, b)]
    commitVerdict (u.txn r 0x12 target (centries u vals)) (centries u vals) = (Status.CONFLICT, [], 0, 0) := by
  intro vals
  have hces : centries u vals = [⟨Tick.TICK_RATE_N, a, .admitted⟩, ⟨Tick.TICK_RATE_D, b, .admitted⟩] := by
    have hrules : ruleOf Tick.TICK_RATE_N = .admitted ∧ ruleOf Tick.TICK_RATE_D = .admitted := by decide
    have hbase : (vals.find? fun e => e.1 == Tick.CUSTOM_BASE) = none := rfl
    simp only [centries, hbase, List.nil_append, vals, List.map_cons, List.map_nil, hrules]
  have hfirst : ∀ t : Txn, t.old.pow.global = .run → entryCheck t Tick.TICK_RATE_N a = Status.CONFLICT := by
    intro t ht
    have hwarm : failIf (t.old.pow.global == .warmup && !restartOnce.contains Tick.TICK_RATE_N) Status.NOT_READY = Status.OK := by rw [ht]; rfl
    have hhold : failIf (t.old.pow.global == .faultHold && needsStopped Tick.TICK_RATE_N a) Status.FAULT_HOLD = Status.OK := by rw [ht]; rfl
    have hrate : chapterCheck t Tick.TICK_RATE_N a = Status.CONFLICT := by
      show tickCheck t Tick.TICK_RATE_N a.toNat = _
      simp only [tickCheck, true_or, if_true, ht]
      rfl
    rw [entryCheck, hwarm, hhold, hrate]
    rfl
  rw [hces]
  refine commitVerdict_bad ?_ (by decide)
  rw [List.map_cons, firstBad, hfirst (u.txn r 0x12 target _) hrun]
  rfl

theorem tickRateWrite_inRun {s : State} {r : Req} {n d : Nat} (ht : s.takes r 0x12) (hrun : s.pow.global = .run)
    (hg : (s.heard r).wellGiven r.sess [numEntry Tick.TICK_RATE_N n, numEntry Tick.TICK_RATE_D d]) :
    ∃ t, exec (.tickRateWrite r n d) s = .next t ∧ t.replied r 0x12 Status.CONFLICT [] ∧ OnlyChanges [.out, .free, .sessions] txIds s t := by
  obtain ⟨a, ha⟩ := Option.isSome_iff_exists.1 (hg _ (List.mem_cons_self ..)).2
  obtain ⟨b, hb⟩ := Option.isSome_iff_exists.1 (hg _ (List.mem_cons_of_mem _ (List.mem_singleton_self _))).2
  have hids : (numEntry Tick.TICK_RATE_N n).id = Tick.TICK_RATE_N ∧ (numEntry Tick.TICK_RATE_D d).id = Tick.TICK_RATE_D := by
    constructor <;> (unfold numEntry; split <;> rfl)
  have hvals : (s.heard r).entryVals r.sess [numEntry Tick.TICK_RATE_N n, numEntry Tick.TICK_RATE_D d] =
      [(Tick.TICK_RATE_N, a), (Tick.TICK_RATE_D, b)] := by
    rw [hids.1] at ha
    rw [hids.2] at hb
    simp only [State.entryVals, List.filterMap_cons, List.filterMap_nil, hids, ha, hb, Option.map_some]
  have hverdict := tickRate_conflict (u := s.heard r) (r := r) (target := 0) (a := a) (b := b) (by simpa using hrun)
  refine ⟨_, ?_, replied_reply .., heardReply_only s r 0x12 Status.CONFLICT []⟩
  rw [exec_of_committedBy (i := .tickRateWrite r n d) rfl, commitEntries_wellGiven ht hg, hvals, commitRun_refused id hverdict rfl]
  rfl

/-! ## Admitted commits -/

theorem admittedCommit_waits {i : Instr} {r : Req} {es : List Entry} {s : State} (hi : committedBy i = some (r, es)) (ht : s.takes r 0x12)
    (hg : (s.heard r).wellGiven r.sess es) :
    let u := s.heard r
    let ces := centries u (u.entryVals r.sess es)
    let x := u.txn r 0x12 0 ces
    ces ≠ [] → (∀ c ∈ ces, c.rule = .admitted ∧ idGroup c.id ≠ 0x30) → (∀ w ∈ s.nmp.waits, w.r ≠ r ∧ w.why ≠ .event 0) →
    u.speedChange x (ces.map fun c => (c.id, c.val)) = false →
    ∀ pl port first, commitVerdict x ces = (Status.OK, pl, port, first) →
      ∃ t, exec i s = .next t ∧ OnlyChanges [.tick, .out, .free, .sessions] txIds s t ∧
        t.tick.admitted = s.tick.admitted ++ [⟨r, 0x12, ces.map CEntry.id, ces.map fun c => (c.id, c.val), 0, false⟩] ∧
        t.replied r 0x12 Status.OK (leBytes 4 s.nextEdge ++ leBytes 4 ((s.rd Tick.PLAN_GENERATION + s.plansDue + 1) % 2 ^ 32)) := by
  intro u ces x hne hces hw hslow pl port first hv
  have hwaits : u.nmp.waits = s.nmp.waits := ((heard_only s r).2.1 .nmp (by simp)).2.2.2.1
  have htick : u.tick = s.tick := (heard_only s r).2.1 .tick (by simp)
  have hedge : u.nextEdge = s.nextEdge := by simp only [State.nextEdge, State.tickSeq, htick, u, heard_rd]
  have hdue : u.plansDue = s.plansDue := by simp only [State.plansDue, htick]
  have happly := commitApply_admitted (port := port) (first := first) hne hces (t := x) (fun w hm => hw w (hwaits ▸ hm)) hslow
  simp only [hedge, hdue, hwaits, u, heard_rd] at happly
  let a : Admitted := ⟨r, 0x12, ces.map CEntry.id, ces.map fun c => (c.id, c.val), 0, false⟩
  let w := commitWait x s.nextEdge ((s.rd Tick.PLAN_GENERATION + s.plansDue + 1) % 2 ^ 32)
  have hframe := ((withAdmitted_only (u.withWaits (s.nmp.waits ++ [w])) a).aroundWaits (by simp))
  rw [hwaits] at hframe
  refine ⟨_, by rw [exec_of_committedBy hi, commitEntries_wellGiven ht hg, commitRun_accepted id hv rfl]; exact congrArg _ happly, ?_, ?_,
    replied_reply ..⟩
  · exact (((heard_only s r).trans hframe).trans (reply_only ..)).mono (by simp) (by simp)
  · exact congrArg TickSt.admitted ((reply_only _ r 0x12 Status.OK _).2.1 .tick (by simp)) |>.trans (by rw [← htick]; rfl)

/-! ## An immediate number of the observation or the thermal group -/

theorem immediateNumber_inForce {r : Req} {id v : Nat} {p : Param} {s : State} (ht : s.takes r 0x12) (hp : paramOf id = some p)
    (hrule : p.commit = .immediate) (ha : p.access = .rw) (hfixed : p.fixed = false) (hb : p.type ≠ .blob)
    (hg : idGroup id = 0xA0 ∨ idGroup id = 0xB0) (hv : v < 2 ^ p.type.width) (hw : ∀ w ∈ s.nmp.waits, w.r ≠ r ∧ w.why ≠ .event 0)
    (hok : s.takesNumber r id v) :
    ∃ t, exec (.paramWritePlain r id (valueBytes p.type v)) s = .next t ∧ t.rd id = v ∧
      t.replied r 0x12 Status.OK (leBytes 4 s.tickSeq ++ leBytes 4 ((s.rd Tick.PLAN_GENERATION + s.plansDue) % 2 ^ 32)) ∧
      OnlyChanges [.out, .free, .sessions] (id :: txIds) s t := by
  have hgroup : idGroup id ∉ [0x02, 0x30, 0x40, 0x41, 0x50, 0x60] := by rcases hg with h | h <;> simp [h]
  have hacc := acceptsNumber_of_row ht hw hp hrule hb hv (by simp_all) (costImmediate_other (by simp_all)) hok
  have hid : 0x60000000 ≤ id := by rcases hg with h | h <;> (have := le_of_idGroup h; omega)
  obtain ⟨t, he, hrd, hreply, hframe⟩ := hacc.stands ha hfixed hid (fun t u => by rcases hg with h | h <;> simp [entryApply, h])
    (i := .paramWritePlain r id (valueBytes p.type v)) (by simp [committedBy, numEntry_of_paramOf hp, hp])
  refine ⟨t, he, ?_, hreply, hframe⟩
  rw [hrd, if_neg (by rcases hg with h | h <;> simp [h]), Nat.mod_eq_of_lt hv]

/-- Settles O15: an accepted commit of admitted entries comes to `commitApply_admitted`, one of an immediate number to
`commitApply_immediate`, and the rest is what the number does to its block. -/
theorem commitsActUnderTheirRule : Obligations.CommitsActUnderTheirRule := by
  refine ⟨fun i r es s hi ht hg => admittedCommit_waits hi ht hg, fun r id v p s ht hp hrule ha hfixed hb hg hv => ?_, fun r v s ht hw => ?_⟩
  · intro u e hst hw ces hverdict
    exact immediateNumber_inForce ht hp hrule ha hfixed hb hg hv hw ⟨by rw [numEntry_of_paramOf hp]; exact hst, hverdict⟩
  · exact ⟨fun flag word hv => eventFlagClear_clears ht hw hv, swFire_fires ht hw, fun src => srcEnable_stands ht hw,
      fun port => applPosition_stands ht hw, diagAddress_reads ht hw, timeSet_kept ht hw, fun n d => tickRateWrite_inRun ht⟩

end Sys2Proof.Machine

/-! The tick edge (R34 to R39, R325, R326): where it is placed, what placing it changes, the states of the Tick Generator, and O11. -/

namespace Sys2Proof.Machine

/-! ## Numbers and counters -/

/-- Every parameter reads as a number of a register word. -/
theorem rd_lt_word (s : State) (id : Nat) : s.rd id < 2 ^ 64 := by
  unfold State.rd
  split
  · exact BitVec.isLt _
  · unfold resetValue
    split
    next p hp => exact resetOf_lt hp
    next => decide

theorem countUp_lt_word {v : Nat} (n : Nat) (hv : v < 2 ^ 64) : countUp v n < 2 ^ 64 := by
  unfold countUp countMax
  split
  · exact hv
  · split <;> omega

/-- An event counter reads one event more (R487). -/
theorem rd_count_same {s : State} {id : Nat} {p : Param} (hp : paramOf id = some p) (hfixed : p.fixed = false) (ht : p.type = .u64) :
    (s.count id).rd id = countUp (s.rd id) 1 := by
  show (s.wr id (countUp (s.rd id) 1)).rd id = _
  rw [rd_wr_same hp hfixed, ht]
  exact Nat.mod_eq_of_lt (countUp_lt_word 1 (rd_lt_word s id))

/-- A wrapping number of 32 bits reads one more. -/
theorem rd_next32_same {s : State} {id : Nat} {p : Param} (hp : paramOf id = some p) (hfixed : p.fixed = false) (ht : p.type.width = 32) :
    (s.next32 id).rd id = (s.rd id + 1) % 2 ^ 32 := by
  show (s.wr id ((s.rd id + 1) % 2 ^ 32)).rd id = _
  rw [rd_wr_same hp hfixed, ht, Nat.mod_mod]

theorem paramOf_tickSequence : paramOf Tick.TICK_SEQUENCE = some ⟨0x02, 0x0007, [], [(0, 0)], .u32, .ro, 0, none, .immediate⟩ := by decide
theorem paramOf_tickState : paramOf Tick.TICK_STATE = some ⟨0x02, 0x000A, [], [(0, 0)], .enum, .ro, 0, some (0, 3), .immediate⟩ := by decide
theorem paramOf_tickStateChanges : paramOf Tick.TICK_STATE_CHANGES = some ⟨0x02, 0x000B, [], [(0, 0)], .u64, .ro, 0, none, .immediate⟩ := by decide
theorem paramOf_steppedTicks : ∃ p, paramOf Time.STEPPED_TICKS = some p ∧ p.fixed = false ∧ p.type = .u64 := by
  exact ⟨_, rfl, by decide, by decide⟩

/-! ## The place of an edge (R34, R36, R325, R326) -/

theorem clamp_bounds {lo hi v : Int} (h : lo ≤ hi) : lo ≤ clamp lo hi v ∧ clamp lo hi v ≤ hi := by
  unfold clamp
  split
  · omega
  · split <;> omega

/-- A grid point next to a position lies less than a grid step from it (R34). -/
theorem gridEdge_near (s : State) (pos : Nat) (hn : 0 < s.rd Tick.TICK_RATE_N) :
    s.gridEdge pos % 2 = 0 ∧ (((s.gridEdge pos * s.rd Tick.TICK_RATE_N : Nat) : Int) - (pos : Int)).natAbs < 2 * s.rd Tick.TICK_RATE_N := by
  set n := s.rd Tick.TICK_RATE_N with hndef
  have hd : 2 * max 1 n = 2 * n := by omega
  have hq : ∀ q : Nat, q * 2 * n = 2 * n * q := fun q => by ring
  have hdiv := Nat.div_add_mod pos (2 * n)
  have hmod := Nat.mod_lt pos (show 0 < 2 * n by omega)
  unfold State.gridEdge ceilDiv
  dsimp only
  rw [← hndef, hd]
  split
  · have hdiv' := Nat.div_add_mod (pos + 2 * n - 1) (2 * n)
    have hmod' := Nat.mod_lt (pos + 2 * n - 1) (show 0 < 2 * n by omega)
    rw [if_neg (by omega), hq]
    omega
  · rw [hq]
    omega

/-- A stepped edge takes the first alignment point from half a period after the last edge on (R326). -/
theorem placeEdge_stepped {s : State} {e : Int} (h : s.edgeSteps e = true) :
    s.placeEdge e = s.tick.pos + s.periodNum / 2 +
      (((s.periodNum / 2 : Nat) : Int) + e * (s.rd Tick.TICK_RATE_N : Int)).toNat % s.periodNum := by
  simp only [State.placeEdge, h, if_true]

/-- Any other edge lies within 100 ppm of a period of its nominal place (R325). -/
theorem placeEdge_slewed {s : State} {e : Int} (h : s.edgeSteps e = false) :
    (((s.placeEdge e : Nat) : Int) - (s.nextPos : Int)).natAbs ≤ s.periodNum / 10000 := by
  obtain ⟨hlo, hhi⟩ := clamp_bounds (lo := -((s.periodNum / 10000 : Nat) : Int)) (hi := ((s.periodNum / 10000 : Nat) : Int))
    (v := e * (s.rd Tick.TICK_RATE_N : Int)) (by omega)
  have hnext : s.nextPos = s.tick.pos + s.periodNum := rfl
  simp only [State.placeEdge, h, Bool.false_eq_true, if_false]
  split
  · simp
  · omega

theorem le_placeEdge (s : State) (e : Int) : s.tick.pos + s.periodNum / 2 ≤ s.placeEdge e := by
  cases h : s.edgeSteps e with
  | true => rw [placeEdge_stepped h]; omega
  | false =>
    have hslew := placeEdge_slewed h
    have hnext : s.nextPos = s.tick.pos + s.periodNum := rfl
    omega

/-- The place of a stepped edge, modulo the period, is that of the alignment point. -/
theorem placeEdge_aligned {s : State} {e : Int} (h : s.edgeSteps e = true)
    (hpos : 0 ≤ ((s.periodNum / 2 : Nat) : Int) + e * (s.rd Tick.TICK_RATE_N : Int)) :
    ((s.placeEdge e : Nat) : Int) % (s.periodNum : Int) =
      ((s.tick.pos + s.periodNum / 2 + s.periodNum / 2 : Nat) + e * (s.rd Tick.TICK_RATE_N : Int)) % (s.periodNum : Int) := by
  rw [placeEdge_stepped h, Nat.cast_add, Int.natCast_emod, Int.toNat_of_nonneg hpos, Int.add_emod_emod, ← add_assoc, ← Nat.cast_add]

/-! ## Placing an edge -/

/-- The first edge after BOOT (R34, R35). -/
theorem edgeAt_first {s : State} (h : s.tick.first = true) :
    s.edgeAt.tick.edgeAt = s.clock + s.clock % 2 ∧ s.edgeAt.clock = s.edgeAt.tick.edgeAt ∧ s.edgeAt.tickSeq = 0 ∧
      s.edgeAt.tick.running = true ∧ OnlyChanges [.tick, .clock] [Tick.TICK_SEQUENCE, Obs.BOOT_TIME_TICK] s s.edgeAt := by
  let x : TickSt := { s.tick with
    first := false, running := true, pos := (s.clock + s.clock % 2) * s.rd Tick.TICK_RATE_N, edgeAt := s.clock + s.clock % 2 }
  let u : State := { s.at (s.clock + s.clock % 2) with tick := x }
  have hedge : s.edgeAt = (u.wr Tick.TICK_SEQUENCE 0).wr Obs.BOOT_TIME_TICK (u.wr Tick.TICK_SEQUENCE 0).sinceRise := by
    rw [State.edgeAt, if_pos h]
    rfl
  rw [hedge]
  refine ⟨by simp [u, x], by simp [u, x], ?_, by simp [u, x], ?_⟩
  · rw [State.tickSeq, rd_wr_other (by decide), rd_wr_same paramOf_tickSequence (by decide), Nat.zero_mod]
  · exact (((at_only s _).trans (setTick_only (s.at (s.clock + s.clock % 2)) x)).trans ((wr_only u _ _).trans (wr_only _ _ _))).mono (by simp) (by simp)

/-- A later edge in its place, before what a step reports. -/
def State.edgePlaced (s : State) : State :=
  let pos := s.placeEdge s.edgeError
  let t := (s.edgeTaken s.edgeError).at (s.gridEdge pos)
  ({ t with tick := { t.tick with running := true, pos := pos, edgeAt := s.gridEdge pos } }).next32 Tick.TICK_SEQUENCE

theorem edgeAt_later {s : State} (h : s.tick.first = false) :
    ∃ slip amount, s.edgeAt = if s.edgeSteps s.edgeError then s.edgePlaced.stepped slip amount else s.edgePlaced := by
  refine ⟨s.tick.rephase == 2,
    (((s.placeEdge s.edgeError : Nat) : Int) - ((s.nextPos : Nat) : Int)) / ((max 1 (s.rd Tick.TICK_RATE_N) : Nat) : Int), ?_⟩
  rw [State.edgeAt, if_neg (by simp [h])]
  rfl

theorem edgePlaced_spec (s : State) :
    s.edgePlaced.tick.pos = s.placeEdge s.edgeError ∧ s.edgePlaced.tick.edgeAt = s.gridEdge (s.placeEdge s.edgeError) ∧
      s.edgePlaced.clock = max s.clock (s.gridEdge (s.placeEdge s.edgeError)) ∧ s.edgePlaced.tickSeq = (s.tickSeq + 1) % 2 ^ 32 ∧
      OnlyChanges [.tick, .clock] [Tick.TICK_SEQUENCE] s s.edgePlaced := by
  have htaken : OnlyChanges [.tick] [] s (s.edgeTaken s.edgeError) := setTick_only s _
  let t := (s.edgeTaken s.edgeError).at (s.gridEdge (s.placeEdge s.edgeError))
  let u : State := { t with tick := { t.tick with
    running := true, pos := s.placeEdge s.edgeError, edgeAt := s.gridEdge (s.placeEdge s.edgeError) } }
  have hplaced : s.edgePlaced = u.next32 Tick.TICK_SEQUENCE := rfl
  have hu : OnlyChanges [.tick, .clock] [] s u := ((htaken.trans (at_only _ _)).trans (setTick_only t _)).mono (by simp) (by simp)
  have hnext := next32_only u Tick.TICK_SEQUENCE
  rw [hplaced]
  refine ⟨congrArg TickSt.pos (hnext.2.1 .tick (by simp)), congrArg TickSt.edgeAt (hnext.2.1 .tick (by simp)), hnext.2.1 .clock (by simp), ?_,
    (hu.trans hnext).mono (by simp) (by simp)⟩
  rw [State.tickSeq, rd_next32_same paramOf_tickSequence (by decide) (by decide), hu.2.2 _ (by simp), State.tickSeq]

/-- What a step reports: sources fired, a NOTIFY, STEPPED_TICKS and where the tick slipped FRAME_SLIPS (R326, R329). -/
theorem stepped_spec (s : State) (slip : Bool) (amount : Int) :
    (s.stepped slip amount).rd Time.STEPPED_TICKS = countUp (s.rd Time.STEPPED_TICKS) 1 ∧
      OnlyChanges (.firings :: sending) (Time.STEPPED_TICKS :: Time.FRAME_SLIPS s.tick.slipInput :: sendIds) s (s.stepped slip amount) := by
  obtain ⟨p, hp, hfixed, ht⟩ := paramOf_steppedTicks
  let u := (s.count Time.STEPPED_TICKS).fire 5
  have hu : OnlyChanges [.firings] [Time.STEPPED_TICKS] s u := ((count_only s _).trans (fire_only _ 5)).mono (by simp) (by simp)
  have hcount : u.rd Time.STEPPED_TICKS = countUp (s.rd Time.STEPPED_TICKS) 1 := rd_count_same hp hfixed ht
  have hslip : Time.STEPPED_TICKS ≠ Time.FRAME_SLIPS s.tick.slipInput := by simp only [Time.STEPPED_TICKS, Time.FRAME_SLIPS]; omega
  have hinput : u.tick.slipInput = s.tick.slipInput := congrArg TickSt.slipInput (hu.2.1 .tick (by simp))
  have hrest : OnlyChanges sending (Time.FRAME_SLIPS s.tick.slipInput :: sendIds) u (s.stepped slip amount) := by
    show OnlyChanges _ _ u (if slip then (u.count (Time.FRAME_SLIPS u.tick.slipInput)).tickNotify 3 amount u.tickSeq 0 else u.tickNotify 2 amount u.tickSeq 0)
    rw [hinput]
    split
    · exact ((count_only u _).trans (notify_only _ _ _ _)).mono (by simp) (by simp)
    · exact (notify_only u _ _ _).mono (by simp) (by simp +contextual)
  refine ⟨?_, (hu.trans hrest).mono (by simp) (by simp)⟩
  rw [hrest.2.2 _ (by simp only [List.mem_cons, hslip, false_or]; decide), hcount]

/-- A later edge (R34, R35). -/
theorem edgeAt_later_spec {s : State} (h : s.tick.first = false) :
    s.edgeAt.tick = s.edgePlaced.tick ∧ s.edgeAt.clock = s.edgePlaced.clock ∧ s.edgeAt.tickSeq = s.edgePlaced.tickSeq ∧
      (s.edgeSteps s.edgeError = false → s.edgeAt = s.edgePlaced) ∧
      (s.edgeSteps s.edgeError = true → s.edgeAt.rd Time.STEPPED_TICKS = countUp (s.rd Time.STEPPED_TICKS) 1) := by
  obtain ⟨slip, amount, hedge⟩ := edgeAt_later h
  cases hstep : s.edgeSteps s.edgeError with
  | false =>
    rw [hstep, if_neg (by simp)] at hedge
    simp [hedge]
  | true =>
    rw [hstep, if_pos rfl] at hedge
    obtain ⟨hcount, hframe⟩ := stepped_spec s.edgePlaced slip amount
    obtain ⟨-, -, -, -, hplaced⟩ := edgePlaced_spec s
    have hseq : Tick.TICK_SEQUENCE ≠ Time.FRAME_SLIPS s.edgePlaced.tick.slipInput := by simp only [Tick.TICK_SEQUENCE, Time.FRAME_SLIPS]; omega
    rw [hedge]
    refine ⟨hframe.2.1 .tick (by simp [sending]), hframe.2.1 .clock (by simp [sending]), hframe.2.2 _ ?_, by simp, fun _ => ?_⟩
    · simp only [List.mem_cons, hseq, false_or]
      decide
    · rw [hcount, hplaced.2.2 _ (by decide)]

theorem exec_tickEdge {s : State} (h : s.tickRuns = true) (drained built : Bool) :
    exec (.tickEdge drained built) s = .next ((s.edgeAt.overruns drained built).maintWaited).tickWork := by
  show execTickEdge drained built s = _
  rw [execTickEdge, if_pos h]

theorem exec_tickEdge_stopped {s : State} (h : s.tickRuns = false) (drained built : Bool) : exec (.tickEdge drained built) s = .next s := by
  show execTickEdge drained built s = _
  rw [execTickEdge, if_neg (by simp [h])]

/-! ## The states of the Tick Generator (R38, R39) -/

/-- A change of the Tick Generator's state: counted, reported, fired (R39). -/
def State.announceTick (s : State) (st : Nat) : State :=
  let t := (s.wr Tick.TICK_STATE st).count Tick.TICK_STATE_CHANGES
  (t.tickNotify 1 0 t.tickSeq st).fire 3

theorem announceTick_spec (s : State) {st : Nat} (hst : st < 2 ^ 32) :
    (s.announceTick st).rd Tick.TICK_STATE = st ∧
      (s.announceTick st).rd Tick.TICK_STATE_CHANGES = countUp (s.rd Tick.TICK_STATE_CHANGES) 1 ∧
      (s.announceTick st).firings = s.firings ++ [(3, s.clock)] ∧
      OnlyChanges (.firings :: sending) (Tick.TICK_STATE :: Tick.TICK_STATE_CHANGES :: sendIds) s (s.announceTick st) := by
  let t := (s.wr Tick.TICK_STATE st).count Tick.TICK_STATE_CHANGES
  have ht : OnlyChanges [] [Tick.TICK_STATE, Tick.TICK_STATE_CHANGES] s t := (wr_only ..).trans (count_only ..)
  have hn : OnlyChanges sending sendIds t (t.tickNotify 1 0 t.tickSeq st) := notify_only ..
  have hlast : OnlyChanges (.firings :: sending) sendIds t (s.announceTick st) := (hn.trans (fire_only _ 3)).mono (by simp +contextual [or_comm]) (by simp)
  refine ⟨?_, ?_, ?_, (ht.trans hlast).mono (by simp) (by simp)⟩
  · rw [hlast.2.2 _ (by decide), (count_only _ _).2.2 _ (by decide), rd_wr_same paramOf_tickState (by decide)]
    exact Nat.mod_eq_of_lt hst
  · rw [hlast.2.2 _ (by decide), rd_count_same paramOf_tickStateChanges (by decide) rfl, rd_wr_other (by decide)]
  · have hfirings : (t.tickNotify 1 0 t.tickSeq st).firings = s.firings := (hn.2.1 .firings (by simp [sending])).trans (ht.2.1 .firings (by simp))
    have hclock : (t.tickNotify 1 0 t.tickSeq st).clock = s.clock := (hn.2.1 .clock (by simp [sending])).trans (ht.2.1 .clock (by simp))
    show (t.tickNotify 1 0 t.tickSeq st).firings ++ [(3, (t.tickNotify 1 0 t.tickSeq st).clock)] = _
    rw [hfirings, hclock]

/-- A change into another state than HOLDOVER; into ACQUIRING it begins a new run of ticks and a re-phase. -/
theorem tickTo_change {s : State} {st : Nat} (h : s.rd Tick.TICK_STATE ≠ st) (hst : st ≠ TickState.HOLDOVER) :
    s.tickTo st = (if st = TickState.ACQUIRING then
      { s with tick := { s.tick with lockRun := 0, rephase := max 1 s.tick.rephase } } else s).announceTick st := by
  simp only [State.tickTo, if_neg hst]
  split
  · exact if_neg h
  · rfl

theorem tickLockAchieved_locks {s : State} (hacq : s.rd Tick.TICK_STATE = 1) (hrun : 8 ≤ s.tick.lockRun)
    (hring : s.tick.src ≠ 4 ∨ s.ringRateOk = true) :
    ∃ t, exec .tickLockAchieved s = .next t ∧ t.rd Tick.TICK_STATE = 2 ∧
      t.rd Tick.TICK_STATE_CHANGES = countUp (s.rd Tick.TICK_STATE_CHANGES) 1 ∧ t.firings = s.firings ++ [(3, s.clock)] ∧
      OnlyChanges (.firings :: sending) (Tick.TICK_STATE :: Tick.TICK_STATE_CHANGES :: sendIds) s t := by
  have hto : s.tickTo TickState.LOCKED = s.announceTick TickState.LOCKED := tickTo_change (by rw [hacq]; decide) (by decide)
  have hexec : exec .tickLockAchieved s = .next (s.announceTick TickState.LOCKED) := by
    show execTickLockAchieved s = _
    rw [execTickLockAchieved, if_pos ⟨hacq, hrun, hring⟩, hto]
  exact ⟨_, hexec, announceTick_spec s (by decide)⟩

theorem tickLockAchieved_waits {s : State}
    (h : s.rd Tick.TICK_STATE ≠ 1 ∨ s.tick.lockRun < 8 ∨ (s.tick.src = 4 ∧ s.ringRateOk = false)) : exec .tickLockAchieved s = .next s := by
  show execTickLockAchieved s = _
  rw [execTickLockAchieved, if_neg]
  rintro ⟨hacq, hrun, hring⟩
  rcases h with h | h | ⟨hsrc, hrate⟩
  · exact h hacq
  · omega
  · rcases hring with hring | hring
    · exact hring hsrc
    · simp [hrate] at hring

theorem holdoverLimit_selects {s : State} (hhold : s.rd Tick.TICK_STATE = 3) {n : Nat} (hn : s.nextFallback = some n) :
    ∃ t, exec .holdoverLimitExpiry s = .next t ∧ t.tick.src = n ∧ t.tick.fallback = s.tick.fallback + 1 ∧
      t.rd Tick.TICK_STATE = (if n = 0 then 0 else 1) ∧ t.rd Tick.TICK_STATE_CHANGES = countUp (s.rd Tick.TICK_STATE_CHANGES) 1 ∧
      OnlyChanges (.clock :: .tick :: .firings :: sending) (Tick.TICK_STATE :: Tick.TICK_STATE_CHANGES :: sendIds) s t := by
  let u := s.at (s.tick.holdAt + 1000000 * s.rd Tick.HOLDOVER_LIMIT)
  let x : TickSt := { s.tick with fallback := s.tick.fallback + 1, src := n, rephase := max 1 s.tick.rephase }
  let st := if n = 0 then TickState.FREE_RUN else TickState.ACQUIRING
  let y : TickSt := if st = TickState.ACQUIRING then { x with lockRun := 0, rephase := max 1 x.rephase } else x
  have hst : st < 2 ^ 32 ∧ st ≠ 3 := by
    by_cases h : n = 0 <;> simp [st, h, TickState.FREE_RUN, TickState.ACQUIRING]
  have hto : ({ u with tick := x } : State).tickTo st = ({ u with tick := y } : State).announceTick st := by
    rw [tickTo_change (by show s.rd Tick.TICK_STATE ≠ st; rw [hhold]; exact hst.2.symm) hst.2]
    show (if st = TickState.ACQUIRING then _ else _ : State).announceTick st = ({ u with tick := if st = TickState.ACQUIRING then _ else _ } : State).announceTick st
    split <;> rfl
  have hexec : exec .holdoverLimitExpiry s = .next (({ u with tick := y } : State).announceTick st) := by
    rw [← hto]
    show execHoldoverLimitExpiry s = _
    have hnext : (s.at (s.tick.holdAt + 1000000 * s.rd Tick.HOLDOVER_LIMIT)).nextFallback = some n := hn
    simp only [execHoldoverLimitExpiry, hhold, TickState.HOLDOVER, if_true, hnext]
    rfl
  have hu : OnlyChanges [.clock, .tick] [] s { u with tick := y } := ((at_only s _).trans (setTick_only u y)).mono (by simp) (by simp)
  obtain ⟨hstate, hcount, -, hframe⟩ := announceTick_spec { u with tick := y } hst.1
  have htick : (({ u with tick := y } : State).announceTick st).tick = y := hframe.2.1 .tick (by simp [sending])
  refine ⟨_, hexec, ?_, ?_, hstate, hcount, (hu.trans hframe).mono (by simp) (by simp)⟩
  · rw [htick]
    show (if st = TickState.ACQUIRING then _ else _ : TickSt).src = n
    split <;> rfl
  · rw [htick]
    show (if st = TickState.ACQUIRING then _ else _ : TickSt).fallback = _
    split <;> rfl

theorem holdoverLimit_stays {s : State} (hhold : s.rd Tick.TICK_STATE = 3) (hn : s.nextFallback = none) :
    exec .holdoverLimitExpiry s = .next (s.at (s.tick.holdAt + 1000000 * s.rd Tick.HOLDOVER_LIMIT)) := by
  have hnext : (s.at (s.tick.holdAt + 1000000 * s.rd Tick.HOLDOVER_LIMIT)).nextFallback = none := hn
  show execHoldoverLimitExpiry s = _
  simp only [execHoldoverLimitExpiry, hhold, TickState.HOLDOVER, if_true, hnext]

/-- Settles O11: `edgeAt_first` and `edgePlaced_spec` say what placing an edge does, `placeEdge` where it lies, and `announceTick_spec` what a
change of the generator's state does. -/
theorem ticksArePlacedOnTheirGrid : Obligations.TicksArePlacedOnTheirGrid := by
  refine ⟨fun drained built s => ⟨fun h => exec_tickEdge_stopped h drained built, fun hruns hfirst => ?_, fun hruns hfirst hn => ?_⟩,
    fun e s => ⟨le_placeEdge s e, fun hstep hperiod => ⟨?_, placeEdge_aligned hstep⟩, fun hfirst => (edgeAt_later_spec hfirst).2.2.2.2⟩,
    fun s => ⟨tickLockAchieved_locks, tickLockAchieved_waits, fun hhold n => holdoverLimit_selects hhold, fun hhold hn => ?_⟩⟩
  · exact ⟨_, _, exec_tickEdge hruns drained built, rfl, rfl, edgeAt_first hfirst⟩
  · obtain ⟨htick, hclock, hseq, hquiet, -⟩ := edgeAt_later_spec hfirst
    obtain ⟨hpos, hedge, hplacedClock, hplacedSeq, hframe⟩ := edgePlaced_spec s
    obtain ⟨hgrid, hnear⟩ := gridEdge_near s (s.placeEdge s.edgeError) hn
    refine ⟨_, _, exec_tickEdge hruns drained built, rfl, rfl, hseq.trans hplacedSeq, ?_, ?_, ?_, fun hstep => ⟨?_, ?_⟩⟩
    · rw [htick, hedge, hgrid]
    · rw [hclock, htick, hedge, hplacedClock]
    · rw [htick, hedge, hpos]
      exact hnear
    · rw [htick, hpos]
      exact placeEdge_slewed hstep
    · rw [hquiet hstep]
      exact hframe
  · rw [placeEdge_stepped hstep]
    have := Nat.mod_lt (((s.periodNum / 2 : Nat) : Int) + e * (s.rd Tick.TICK_RATE_N : Int)).toNat (Nat.pos_of_ne_zero hperiod)
    omega
  · exact ⟨_, holdoverLimit_stays hhold hn, hhold, rfl, at_only ..⟩

end Sys2Proof.Machine

/-! The tick budget, the gap and the arbiter (R46, R49, R50). -/

namespace Sys2Proof.Machine

/-! ## The arbiter (R49, R50) -/

/-- An activity that starts runs, and the rest of the gap is as it was. It may take a channel out of service. -/
theorem maintStart_spec (s : State) (a : Nat) :
    ∃ ch, (s.maintStart a).tick.active = some a ∧ (s.maintStart a).tick.gap = s.tick.gap ∧ (s.maintStart a).tick.ran = s.tick.ran ∧
      (s.maintStart a).tick.budgetOver = s.tick.budgetOver ∧ OnlyChanges [.tick] [Dram.CHANNEL_STATE ch] s (s.maintStart a) := by
  unfold State.maintStart
  dsimp only
  split
  next c _ =>
    refine ⟨c, ?_, ?_, ?_, ?_, ((setTick_only s _).trans (wr_only _ _ _)).mono (by simp) (by simp)⟩ <;> rw [State.wr_tick]
  next => exact ⟨0, rfl, rfl, rfl, rfl, (setTick_only s _).mono (by simp) (by simp)⟩

/-- The arbiter chooses nothing outside the gap. -/
theorem maintChoose_outside {s : State} (h : s.tick.gap = false) : s.maintChoose = s := by
  simp [State.maintChoose, h]

/-- What the arbiter can do: leave the gap and the budget as they are, start an activity, take a channel. -/
theorem maintChoose_spec (s : State) :
    ∃ ch, s.maintChoose.tick.gap = s.tick.gap ∧ s.maintChoose.tick.budgetOver = s.tick.budgetOver ∧
      OnlyChanges [.tick] [Dram.CHANNEL_STATE ch] s s.maintChoose := by
  unfold State.maintChoose
  split
  · dsimp only
    split
    next a _ =>
      obtain ⟨ch, -, hgap, -, hover, hframe⟩ := maintStart_spec { s with tick := { s.tick with ran := true } } a
      exact ⟨ch, hgap, hover, ((setTick_only s _).trans hframe).mono (by simp) (by simp)⟩
    next => exact ⟨0, rfl, rfl, (setTick_only s _).mono (by simp) (by simp)⟩
  · exact ⟨0, rfl, rfl, (OnlyChanges.refl s).mono (by simp) (by simp)⟩

/-- The gap begins: ES2 fires where it had not begun, and the arbiter chooses. -/
theorem gapStart_spec (s : State) :
    ∃ ch, s.gapStart.tick.gap = true ∧ s.gapStart.tick.budgetOver = s.tick.budgetOver ∧
      (s.tick.gap = false → s.gapStart.firings = s.firings ++ [(2, s.clock)]) ∧
      OnlyChanges [.tick, .firings] [Dram.CHANNEL_STATE ch] s s.gapStart := by
  unfold State.gapStart
  split
  next h => exact ⟨0, h, rfl, by simp [h], (OnlyChanges.refl s).mono (by simp) (by simp)⟩
  next =>
    let u := { s with tick := { s.tick with gap := true } }.fire 2
    have hu : OnlyChanges [.tick, .firings] [] s u := (setTick_only s _).trans (fire_only _ 2)
    obtain ⟨ch, hgap, hover, hframe⟩ := maintChoose_spec u
    exact ⟨ch, hgap, hover, fun _ => hframe.2.1 .firings (by simp), (hu.trans hframe).mono (by simp) (by simp)⟩

/-- A request waits: its activity is among those that do, and a repeated one merges. -/
def State.asked (s : State) (act ch : Nat) : State :=
  let chans := if act = 1 ∨ act = 2 then (if s.tick.chans.contains (act, ch) then s.tick.chans else s.tick.chans ++ [(act, ch)]) else s.tick.chans
  { s with tick := { s.tick with waiting := setFlag s.tick.waiting act, chans := chans } }

theorem maintAsk_eq (s : State) (act ch : Nat) : s.maintAsk act ch = (s.asked act ch).maintChoose := rfl

theorem asked_only (s : State) (act ch : Nat) : OnlyChanges [.tick] [] s (s.asked act ch) := setTick_only s _

theorem maintAsk_outside {s : State} (act ch : Nat) (h : s.tick.gap = false) : s.maintAsk act ch = s.asked act ch :=
  maintChoose_outside h

/-- In a gap that has run nothing, an activity that alone waits starts where its longest run fits. -/
theorem maintAsk_starts {s : State} {act : Nat} (ch : Nat) (hact : act < 4) (hgap : s.tick.gap = true) (hran : s.tick.ran = false)
    (hactive : s.tick.active = none) (hwaiting : s.tick.waiting = 0) (hfits : maintRun act ≤ s.timeLeft) :
    (s.maintAsk act ch).tick.active = some act ∧ (s.maintAsk act ch).tick.ran = true := by
  have hbit : ∀ a, bit (setFlag 0 act) a = decide (act = a) := fun a => by rw [bit_setFlag, show bit 0 a = false by simp [bit], Bool.false_or]
  let u : State := { s.asked act ch with tick := { (s.asked act ch).tick with ran := true } }
  have hleft : u.timeLeft = s.timeLeft := rfl
  have hfind : (List.range 4).find? (fun a => bit u.tick.waiting a && decide (maintRun a ≤ u.timeLeft)) = some act := by
    have hw : u.tick.waiting = setFlag 0 act := congrArg (setFlag · act) hwaiting
    rw [hw, hleft]
    refine List.find?_eq_some_iff_getElem.2 ⟨by simp [hbit, hfits], act, by simpa using hact, by simp, fun j hj => ?_⟩
    simp [hbit]
    omega
  have hne : (s.asked act ch).tick.waiting ≠ 0 := by
    show setFlag s.tick.waiting act ≠ 0
    rw [hwaiting]
    intro h0
    have := hbit act
    rw [h0] at this
    rw [show bit 0 act = false by simp [bit]] at this
    simp at this
  have hchoose : s.maintAsk act ch = u.maintStart act := by
    have hcond : ((s.asked act ch).tick.gap && !(s.asked act ch).tick.ran && (s.asked act ch).tick.active.isNone &&
        (s.asked act ch).tick.waiting != 0) = true := by
      simp only [bne_iff_ne, ne_eq, Bool.and_eq_true, hne, not_false_eq_true, and_true]
      show (s.tick.gap = true ∧ (!s.tick.ran) = true) ∧ s.tick.active.isNone = true
      simp [hgap, hran, hactive]
    rw [maintAsk_eq, State.maintChoose, if_pos hcond]
    show (match (List.range 4).find? (fun a => bit u.tick.waiting a && decide (maintRun a ≤ u.timeLeft)) with
      | some a => u.maintStart a | none => u) = _
    rw [hfind]
  obtain ⟨-, hstarted, -, hstays, -⟩ := maintStart_spec u act
  rw [hchoose]
  exact ⟨hstarted, hstays⟩

/-! ## The budget and jobs that complete (R46, R49) -/

/-- Every job has finished or not by the builders' flag and the contexts alone. -/
theorem jobsDone_congr {s t : State} (hb : t.tick.building = s.tick.building) (hc : ∀ c, t.ctxSt c = s.ctxSt c) : t.jobsDone = s.jobsDone := by
  simp only [State.jobsDone, hb, hc]

theorem jobsDone_iff {s : State} : s.jobsDone = true ↔ s.tick.building = false ∧ ∀ c, c < 32 → (s.ctxSt c).job = none := by
  simp [State.jobsDone]

/-- The state at the end of the budget (R46): ES1 has fired, and jobs that still run are late. -/
def State.budgetEnded (s : State) (building : Bool) : State :=
  let u := (s.at (s.tick.edgeAt + s.budget)).fire 1
  { u with tick := { u.tick with budgetOver := true, building := building && s.videoUnsent } }

theorem exec_tickBudgetEnd {s : State} (b : Bool) (hrun : s.tick.running = true) (hover : s.tick.budgetOver = false) :
    exec (.tickBudgetEnd b) s = .next (if (s.budgetEnded b).jobsDone then (s.budgetEnded b).gapStart else s.budgetEnded b) := by
  show execTickBudgetEnd b s = _
  rw [execTickBudgetEnd, if_pos ⟨hrun, hover⟩]
  rfl

theorem budgetEnded_only (s : State) (b : Bool) : OnlyChanges [.clock, .firings, .tick] [] s (s.budgetEnded b) :=
  (((at_only s _).trans (fire_only _ 1)).trans (setTick_only _ _)).mono (by simp) (by simp)

theorem tickBudgetEnd_jobsRunOn {s : State} (b : Bool) (hrun : s.tick.running = true) (hover : s.tick.budgetOver = false)
    (hjobs : (b && s.videoUnsent) = true ∨ ∃ c, c < 32 ∧ (s.ctxSt c).job ≠ none) :
    ∃ t, exec (.tickBudgetEnd b) s = .next t ∧ t.tick.budgetOver = true ∧ t.tick.building = (b && s.videoUnsent) ∧ t.tick.gap = s.tick.gap ∧
      t.clock = max s.clock (s.tick.edgeAt + s.budget) ∧ t.firings = s.firings ++ [(1, t.clock)] ∧ OnlyChanges [.clock, .firings, .tick] [] s t := by
  have hdone : (s.budgetEnded b).jobsDone = false := by
    rw [← Bool.not_eq_true, jobsDone_iff]
    rintro ⟨hb, hc⟩
    rcases hjobs with h | ⟨c, hlt, h⟩
    · exact absurd (h.symm.trans hb) (by simp)
    · exact h (hc c hlt)
  exact ⟨s.budgetEnded b, by rw [exec_tickBudgetEnd b hrun hover, hdone, if_neg Bool.false_ne_true], rfl, rfl, rfl, rfl, rfl, budgetEnded_only s b⟩

theorem tickBudgetEnd_gapBegins {s : State} (b : Bool) (hrun : s.tick.running = true) (hover : s.tick.budgetOver = false)
    (hvideo : (b && s.videoUnsent) = false) (hjobs : ∀ c, c < 32 → (s.ctxSt c).job = none) (hgap : s.tick.gap = false) :
    ∃ t, exec (.tickBudgetEnd b) s = .next t ∧ t.tick.budgetOver = true ∧ t.tick.gap = true ∧
      t.clock = max s.clock (s.tick.edgeAt + s.budget) ∧ t.firings = s.firings ++ [(1, t.clock), (2, t.clock)] := by
  have hdone : (s.budgetEnded b).jobsDone = true := jobsDone_iff.2 ⟨hvideo, hjobs⟩
  obtain ⟨ch, hbegun, hkept, hfired, hframe⟩ := gapStart_spec (s.budgetEnded b)
  have hclock : (s.budgetEnded b).gapStart.clock = max s.clock (s.tick.edgeAt + s.budget) := hframe.2.1 .clock (by simp)
  refine ⟨_, by rw [exec_tickBudgetEnd b hrun hover, hdone, if_pos rfl], hkept, hbegun, hclock, ?_⟩
  rw [hfired hgap, hclock]
  show (s.firings ++ [(1, _)]) ++ [(2, _)] = _
  rw [List.append_assoc]
  rfl

/-- The late parts of a job are counted. -/
def State.lateCounted (s : State) (scene rend stats : Bool) : State :=
  let u := if scene then s.count (Tick.LATE_COUNT 0) else s
  let v := if rend then u.count (Tick.LATE_COUNT 1) else u
  if stats then v.count (Tick.LATE_COUNT 2) else v

/-- A count that is made or not. -/
theorem countIf_only (s : State) (b : Bool) (id : Nat) : OnlyChanges [] [id] s (if b then s.count id else s) := by
  split
  · exact count_only s id
  · exact (OnlyChanges.refl s).mono (by simp) (by simp)

theorem rd_countIf {s : State} {id : Nat} {p : Param} (hp : paramOf id = some p) (hfixed : p.fixed = false) (ht : p.type = .u64) (b : Bool) :
    (if b then s.count id else s).rd id = if b then countUp (s.rd id) 1 else s.rd id := by
  split
  · exact rd_count_same hp hfixed ht
  · rfl

theorem paramOf_lateCount (k : Fin 4) : ∃ p, paramOf (Tick.LATE_COUNT k.val) = some p ∧ p.fixed = false ∧ p.type = .u64 := by
  refine ⟨⟨0x02, 0x0031, [], [(0, 3)], .u64, .ro, 0, none, .immediate⟩, ?_, by decide, rfl⟩
  revert k
  decide

theorem lateCounted_spec (s : State) (scene rend stats : Bool) :
    (s.lateCounted scene rend stats).rd (Tick.LATE_COUNT 0) = (if scene then countUp (s.rd (Tick.LATE_COUNT 0)) 1 else s.rd (Tick.LATE_COUNT 0)) ∧
      (s.lateCounted scene rend stats).rd (Tick.LATE_COUNT 1) = (if rend then countUp (s.rd (Tick.LATE_COUNT 1)) 1 else s.rd (Tick.LATE_COUNT 1)) ∧
      (s.lateCounted scene rend stats).rd (Tick.LATE_COUNT 2) = (if stats then countUp (s.rd (Tick.LATE_COUNT 2)) 1 else s.rd (Tick.LATE_COUNT 2)) ∧
      OnlyChanges [] [Tick.LATE_COUNT 0, Tick.LATE_COUNT 1, Tick.LATE_COUNT 2] s (s.lateCounted scene rend stats) := by
  obtain ⟨p0, hp0, hf0, ht0⟩ := paramOf_lateCount 0
  obtain ⟨p1, hp1, hf1, ht1⟩ := paramOf_lateCount 1
  obtain ⟨p2, hp2, hf2, ht2⟩ := paramOf_lateCount 2
  let u := if scene then s.count (Tick.LATE_COUNT 0) else s
  let v := if rend then u.count (Tick.LATE_COUNT 1) else u
  have hu : OnlyChanges [] [Tick.LATE_COUNT 0] s u := countIf_only s scene _
  have hv : OnlyChanges [] [Tick.LATE_COUNT 1] u v := countIf_only u rend _
  have hw : OnlyChanges [] [Tick.LATE_COUNT 2] v (s.lateCounted scene rend stats) := countIf_only v stats _
  refine ⟨?_, ?_, ?_, ((hu.trans hv).trans hw).mono (by simp) (by simp)⟩
  · rw [hw.2.2 _ (by decide), hv.2.2 _ (by decide)]
    exact rd_countIf hp0 hf0 ht0 scene
  · rw [hw.2.2 _ (by decide), ← hu.2.2 (Tick.LATE_COUNT 1) (by decide)]
    exact rd_countIf hp1 hf1 ht1 rend
  · rw [← hu.2.2 (Tick.LATE_COUNT 2) (by decide), ← hv.2.2 (Tick.LATE_COUNT 2) (by decide)]
    exact rd_countIf hp2 hf2 ht2 stats

theorem jobComplete_countsLate {s : State} {c : Fin 32} (cyc ns : Nat) (scene rend stats : Bool) (hrun : s.scene.running = some c.val) :
    ∃ t u, exec (.jobComplete c cyc ns scene rend stats) s = .next t ∧ u = s.finishJob c.val cyc ns ∧
      t.rd (Tick.LATE_COUNT 0) = (if scene then countUp (u.rd (Tick.LATE_COUNT 0)) 1 else u.rd (Tick.LATE_COUNT 0)) ∧
      t.rd (Tick.LATE_COUNT 1) = (if rend then countUp (u.rd (Tick.LATE_COUNT 1)) 1 else u.rd (Tick.LATE_COUNT 1)) ∧
      t.rd (Tick.LATE_COUNT 2) =
        (if stats && (s.ctxSt c.val).job.any Job.rendersStats then countUp (u.rd (Tick.LATE_COUNT 2)) 1 else u.rd (Tick.LATE_COUNT 2)) ∧
      t.tick.gap = (u.tick.gap || (u.jobsDone && u.tick.budgetOver)) := by
  let u := s.finishJob c.val cyc ns
  let v := u.lateCounted scene rend (stats && (s.ctxSt c.val).job.any Job.rendersStats)
  have hexec : exec (.jobComplete c cyc ns scene rend stats) s = .next (if v.jobsDone && v.tick.budgetOver then v.gapStart else v) := by
    show execJobComplete c cyc ns scene rend stats s = _
    rw [execJobComplete, if_pos hrun]
    rfl
  obtain ⟨hscene, hrend, hstats, hframe⟩ := lateCounted_spec u scene rend (stats && (s.ctxSt c.val).job.any Job.rendersStats)
  have htick : v.tick = u.tick := hframe.2.1 .tick (by simp)
  have hdone : v.jobsDone = u.jobsDone := jobsDone_congr (by rw [htick]) fun k => hframe.2.1 (.ctx k) (by simp)
  obtain ⟨ch, hbegun, -, -, hgap⟩ := gapStart_spec v
  have hlate : ∀ k, k < 4 → v.gapStart.rd (Tick.LATE_COUNT k) = v.rd (Tick.LATE_COUNT k) := fun k _ =>
    hgap.2.2 _ (by simp only [List.mem_singleton, Tick.LATE_COUNT, Dram.CHANNEL_STATE]; omega)
  refine ⟨_, u, hexec, rfl, ?_⟩
  rw [hdone, htick]
  cases hbegin : u.jobsDone && u.tick.budgetOver with
  | true => exact ⟨(hlate 0 (by decide)).trans hscene, (hlate 1 (by decide)).trans hrend, (hlate 2 (by decide)).trans hstats, by rw [Bool.or_true]; exact hbegun⟩
  | false => exact ⟨hscene, hrend, hstats, by rw [Bool.or_false]; exact congrArg TickSt.gap htick⟩

end Sys2Proof.Machine

/-! Jobs at a tick edge (R47): which jobs the overrun ends, and that nothing of an edge begins one. -/

namespace Sys2Proof.Machine

/-- No job appears: a context without a job has none after, and which contexts are being deactivated is as it was. -/
def NoNewJobs (s t : State) : Prop :=
  t.tick.admitted = s.tick.admitted ∧ ∀ c, (s.ctxSt c).job = none → (t.ctxSt c).job = none

theorem NoNewJobs.refl (s : State) : NoNewJobs s s := ⟨rfl, fun _ h => h⟩

theorem NoNewJobs.trans {s t u : State} (h : NoNewJobs s t) (g : NoNewJobs t u) : NoNewJobs s u :=
  ⟨g.1.trans h.1, fun c hc => g.2 c (h.2 c hc)⟩

theorem NoNewJobs.leaving {s t : State} (h : NoNewJobs s t) (c : Nat) : t.leaving c = s.leaving c := by
  rw [State.leaving, h.1]
  rfl

theorem NoNewJobs.foldl {α : Type} {f : State → α → State} (hstep : ∀ t x, NoNewJobs t (f t x)) (l : List α) (s : State) :
    NoNewJobs s (l.foldl f s) := by
  induction l generalizing s with
  | nil => exact NoNewJobs.refl s
  | cons x xs ih => exact (hstep s x).trans (ih (f s x))

/-- What moves neither the tick nor a context brings no job. -/
theorem OnlyChanges.noNewJobs {ps : List Part} {ids : List Nat} {s t : State} (h : OnlyChanges ps ids s t)
    (htick : Part.tick ∉ ps) (hctx : ∀ k, Part.ctx k ∉ ps) : NoNewJobs s t := by
  refine ⟨congrArg TickSt.admitted (h.2.1 .tick htick), fun c hc => ?_⟩
  rw [show t.ctxSt c = s.ctxSt c from h.2.1 (.ctx c) (hctx c)]
  exact hc

theorem count_noNewJobs (s : State) (id : Nat) : NoNewJobs s (s.count id) := (count_only s id).noNewJobs (by simp) (by simp)

/-- A context set to no more of a job than it has brings no job. -/
theorem setCtx_noNewJobs {s : State} {c : Nat} {x : CtxSt} (h : (s.ctxSt c).job = none → x.job = none) : NoNewJobs s (s.setCtx c x) := by
  refine ⟨rfl, fun d hd => ?_⟩
  by_cases hdc : d = c
  · subst hdc
    rw [ctxSt_setCtx_same]
    exact h hd
  · rw [ctxSt_setCtx_other hdc]
    exact hd

theorem setRend_noNewJobs (s : State) (c v : Nat) (x : RendSt) : NoNewJobs s (s.setRend c v x) := setCtx_noNewJobs fun h => h

theorem modSlot_noNewJobs (s : State) (p slot : Nat) (g : Frame → Frame) : NoNewJobs s (s.modSlot p slot g) := by
  unfold State.modSlot
  split
  · exact (setIngest_only s p _).noNewJobs (by simp) (by simp)
  · exact NoNewJobs.refl s

theorem flagRepeated_noNewJobs (s : State) (c p slot : Nat) : NoNewJobs s (s.flagRepeated c p slot) := by
  unfold State.flagRepeated
  split
  · split
    · exact NoNewJobs.refl s
    · exact (modSlot_noNewJobs s p slot _).trans (count_noNewJobs _ _)
  · exact NoNewJobs.refl s

theorem finalFrame_noNewJobs (s : State) (p slot : Nat) : NoNewJobs s (s.finalFrame p slot) := by
  unfold State.finalFrame
  split
  · exact NoNewJobs.refl s
  · split
    · exact NoNewJobs.refl s
    · exact ((setIngest_only s p _).trans (wrBlob_only _ _ _)).noNewJobs (by simp) (by simp)

theorem leaveFrame_noNewJobs (s : State) (j : Job) : NoNewJobs s (s.leaveFrame j) := by
  unfold State.leaveFrame
  dsimp only
  refine (modSlot_noNewJobs s j.port j.slot fun f => { f with jobs := f.jobs - 1 }).trans ?_
  split
  · split
    · exact finalFrame_noNewJobs _ _ _
    · exact NoNewJobs.refl _
  · exact NoNewJobs.refl _

theorem countIf_noNewJobs (s : State) (b : Bool) (id : Nat) : NoNewJobs s (if b then s.count id else s) :=
  (countIf_only s b id).noNewJobs (by simp) (by simp)

/-- A context that abandons its job has none, and no other gets one. -/
theorem abandonJob_noJob (s : State) (c : Nat) (overrun : Bool) :
    NoNewJobs s (s.abandonJob c overrun) ∧ ((s.abandonJob c overrun).ctxSt c).job = none := by
  unfold State.abandonJob
  cases hjob : (s.ctxSt c).job with
  | none => exact ⟨NoNewJobs.refl s, hjob⟩
  | some j =>
    dsimp only
    let scene : SceneSt := { s.scene with
        running := if s.scene.running = some c then none else s.scene.running
        queue := s.scene.queue.filter (· != c)
        early := if s.scene.early = some c then none else s.scene.early
        yielded := if s.scene.yielded = some c then none else s.scene.yielded }
    let u : State := { s.setCtx c { s.ctxSt c with job := none } with scene := scene }
    have hu : NoNewJobs s u :=
      NoNewJobs.trans (t := s.setCtx c { s.ctxSt c with job := none }) (setCtx_noNewJobs fun _ => rfl) ⟨rfl, fun _ h => h⟩
    have hnone : (u.ctxSt c).job = none := congrArg CtxSt.job (ctxSt_setCtx_same s c _)
    let v : State := if overrun then (u.flagRepeated c j.port j.slot).modTicket j.port j.slot fun f => f.flag Flag.OVERRUN else u
    have hv : NoNewJobs u v := by
      show NoNewJobs u (if overrun then _ else u)
      split
      · exact (flagRepeated_noNewJobs u c _ _).trans (modSlot_noNewJobs _ _ _ _)
      · exact NoNewJobs.refl u
    have hrest := (((hv.trans (NoNewJobs.foldl (fun t (b : Nat × Nat) => setRend_noNewJobs t c b.1 { t.rend c b.1 with repeats := true }) j.bufs v)).trans
      (countIf_noNewJobs _ j.writes (Ctx.REF_DISCARDED c))).trans (countIf_noNewJobs _ j.stats (Stat.STATS_OMITTED c))).trans
      (((trace_only _ 3 c (leBytes 4 j.ticket ++ leBytes 4 0 ++ leBytes 4 0 ++ leBytes 1 1)).trans (fire_only _ 200)).noNewJobs (by simp) (by simp))
    have hall := hrest.trans (leaveFrame_noNewJobs _ j)
    exact ⟨hu.trans hall, hall.2 c hnone⟩

theorem dropHold_noNewJobs (s : State) (consumer : Nat) : NoNewJobs s (s.dropHold consumer) := by
  refine NoNewJobs.foldl (fun t e => NoNewJobs.foldl (fun u r => ?_) e.2.rends t) s.ctxs s
  split
  · exact setRend_noNewJobs u _ _ _
  · exact NoNewJobs.refl u

theorem retireOne_noNewJobs (s : State) (serial : Nat) (b : Buffer) : NoNewJobs s (s.retireOne serial b) :=
  NoNewJobs.trans (t := { s with nmp := { s.nmp with buffers := tdel s.nmp.buffers serial, mem := memDrop s.nmp.mem serial } })
    ⟨rfl, fun _ h => h⟩ ((notifyTo_only _ _ _ _ _).noNewJobs (by simp) (by simp))

theorem retireFreed_noNewJobs (s : State) : NoNewJobs s s.retireFreed := by
  refine NoNewJobs.foldl (fun t p => ?_) s.nmp.buffers s
  split
  · exact retireOne_noNewJobs t _ _
  · exact NoNewJobs.refl t

theorem buildersEdge_noNewJobs (s : State) (built : Bool) : NoNewJobs s (s.buildersEdge built) := by
  unfold State.buildersEdge
  split
  · exact NoNewJobs.refl s
  · refine NoNewJobs.trans (t := { s with tick := { s.tick with building := false } }) ⟨rfl, fun _ h => h⟩ ?_
    dsimp only
    split
    · exact count_noNewJobs _ _
    · refine NoNewJobs.trans ?_ (retireFreed_noNewJobs _)
      refine NoNewJobs.trans (NoNewJobs.trans (NoNewJobs.foldl (fun t n => ?_) _ _) (count_noNewJobs _ _))
        (NoNewJobs.foldl (fun t c => count_noNewJobs t _) _ _)
      exact ((dropHold_noNewJobs t (16 + n)).trans (NoNewJobs.foldl dropHold_noNewJobs _ _)).trans
        ((setStream_only _ n _).noNewJobs (by simp) (by simp))

/-- One context at a tick edge: its job has ended, unless it is being deactivated. -/
def State.overrunOne (drained : Bool) (s t : State) (c : Nat) : State :=
  match (t.ctxSt c).job with
  | some j => if t.leaving c then t else (s.unfinished drained c j).foldl (fun (u : State) k => u.count (Tick.OVERRUN_COUNT k)) (t.abandonJob c true)
  | none => t

theorem overruns_eq (s : State) (drained built : Bool) :
    s.overruns drained built = ((List.range 32).foldl (s.overrunOne drained) s).buildersEdge built := rfl

theorem overrunOne_noJob (drained : Bool) (s t : State) (c : Nat) :
    NoNewJobs t (s.overrunOne drained t c) ∧ (t.leaving c = false → ((s.overrunOne drained t c).ctxSt c).job = none) := by
  unfold State.overrunOne
  split
  next j _ =>
    split
    next h => exact ⟨NoNewJobs.refl t, fun h' => absurd (h.symm.trans h') (by simp)⟩
    next =>
      obtain ⟨hab, hnone⟩ := abandonJob_noJob t c true
      have hcounts := NoNewJobs.foldl (fun u k => count_noNewJobs u (Tick.OVERRUN_COUNT k)) (s.unfinished drained c j) (t.abandonJob c true)
      exact ⟨hab.trans hcounts, fun _ => hcounts.2 c hnone⟩
  next h => exact ⟨NoNewJobs.refl t, fun _ => h⟩

theorem overrunOne_foldl_noJob (drained : Bool) (s : State) (l : List Nat) (t : State) {c : Nat} (hc : c ∈ l) (hstays : t.leaving c = false) :
    ((l.foldl (s.overrunOne drained) t).ctxSt c).job = none := by
  induction l generalizing t with
  | nil => exact absurd hc (by simp)
  | cons x xs ih =>
    obtain ⟨hnew, hends⟩ := overrunOne_noJob drained s t x
    have hrest := NoNewJobs.foldl (fun u y => (overrunOne_noJob drained s u y).1) xs (s.overrunOne drained t x)
    rcases List.mem_cons.1 hc with rfl | hmem
    · exact hrest.2 c (hends hstays)
    · exact ih (s.overrunOne drained t x) hmem ((hnew.leaving c).trans hstays)

theorem overruns_leaveNoJob {s : State} (drained built : Bool) {c : Nat} (hc : c < 32) (hstays : s.leaving c = false) :
    ((s.overruns drained built).ctxSt c).job = none := by
  rw [overruns_eq]
  exact (buildersEdge_noNewJobs _ built).2 c (overrunOne_foldl_noJob drained s (List.range 32) s (List.mem_range.2 hc) hstays)

end Sys2Proof.Machine

/-! Maintenance: requests, activities that end, and edges at which they wait (R49, R50, R62). -/

namespace Sys2Proof.Machine

/-! ## A request (R49) -/

theorem exec_maintRequest {act : Fin 4} (ch : Fin 8) {s : State} (hrun : s.tick.running = true) (hact : act.val ≠ 3) (hglobal : s.pow.global ≠ .faultHold) :
    exec (.maintRequest act ch) s = .next (s.maintAsk act.val ch.val) := by
  show execMaintRequest act ch s = _
  rw [execMaintRequest, if_neg (by simp [hrun, hglobal]), if_neg hact]

theorem maintRequest_waits {act : Fin 4} (ch : Fin 8) {s : State} (hact : act.val ≠ 3) (hrun : s.tick.running = true)
    (hglobal : s.pow.global ≠ .faultHold) (hgap : s.tick.gap = false) :
    ∃ t, exec (.maintRequest act ch) s = .next t ∧ (∀ a, bit t.tick.waiting a = (bit s.tick.waiting a || a == act.val)) ∧
      t.tick.active = s.tick.active ∧ OnlyChanges [.tick] [] s t := by
  refine ⟨s.asked act.val ch.val, ?_, fun a => ?_, rfl, asked_only s _ _⟩
  · rw [exec_maintRequest ch hrun hact hglobal, maintAsk_outside _ _ hgap]
  · show bit (setFlag s.tick.waiting act.val) a = _
    rw [bit_setFlag, ← Bool.beq_eq_decide_eq, Bool.beq_comm]

theorem maintRequest_starts {act : Fin 4} (ch : Fin 8) {s : State} (hact : act.val ≠ 3) (hrun : s.tick.running = true)
    (hglobal : s.pow.global ≠ .faultHold) (hgap : s.tick.gap = true) (hran : s.tick.ran = false) (hactive : s.tick.active = none)
    (hwaiting : s.tick.waiting = 0) (hfits : maintRun act.val ≤ s.timeLeft) :
    ∃ t, exec (.maintRequest act ch) s = .next t ∧ t.tick.active = some act.val ∧ t.tick.ran = true :=
  ⟨_, exec_maintRequest ch hrun hact hglobal, maintAsk_starts ch.val act.isLt hgap hran hactive hwaiting hfits⟩

/-- The Ledger's own activity waits with the record it is to write, which is queued once. -/
theorem maintRequest_queuesLife {act : Fin 4} (ch : Fin 8) {s : State} (hact : act.val = 3) (hrun : s.tick.running = true) (hgap : s.tick.gap = false) :
    ∃ t, exec (.maintRequest act ch) s = .next t ∧ bit t.tick.waiting 3 = true ∧ (∃ w ∈ t.pow.ledgerQueue, w.1 = 18) ∧
      t.tick.active = s.tick.active ∧ OnlyChanges [.tick, .pow] [] s t := by
  have hexec : exec (.maintRequest act ch) s =
      .next (if s.pow.ledgerQueue.any (fun w => w.1 == 18) then s.maintAsk 3 0 else s.ledgerPut 18 25 []) := by
    show execMaintRequest act ch s = _
    rw [execMaintRequest, if_neg (by simp [hrun, hact]), if_pos hact]
  have hwaits : ∀ v : State, bit (v.asked 3 0).tick.waiting 3 = true := fun v => by
    show bit (setFlag v.tick.waiting 3) 3 = true
    simp
  cases hqueued : s.pow.ledgerQueue.any fun w => w.1 == 18 with
  | true =>
    refine ⟨s.asked 3 0, ?_, hwaits s, ?_, rfl, (asked_only s 3 0).mono (by simp) (by simp)⟩
    · rw [hexec, if_pos hqueued, maintAsk_outside _ _ hgap]
    · obtain ⟨w, hmem, hw⟩ := List.any_eq_true.1 hqueued
      exact ⟨w, hmem, beq_iff_eq.1 hw⟩
  | false =>
    let u : State := { s with pow := { s.pow with ledgerQueue := s.pow.ledgerQueue ++ [(18, 25, [])] } }
    refine ⟨u.asked 3 0, ?_, hwaits u, ⟨(18, 25, []), List.mem_append_right _ (by simp), rfl⟩, rfl,
      ((setPow_only s _).trans (asked_only u 3 0)).mono (by simp) (by simp)⟩
    rw [hexec, if_neg (by simp [hqueued]), State.ledgerPut, if_pos hrun]
    exact congrArg _ (maintAsk_outside (s := u) 3 0 hgap)

/-! ## An activity that ends (R49, R62) -/

theorem paramOf_maintRunCount (a : Fin 4) : ∃ p, paramOf (Tick.MAINT_RUN_COUNT a.val) = some p ∧ p.fixed = false ∧ p.type = .u64 := by
  refine ⟨⟨0x02, 0x0042, [], [(0, 3)], .u64, .ro, 0, none, .immediate⟩, ?_, by decide, rfl⟩
  revert a
  decide

/-- The activity has ended and is counted. -/
def State.maintEnded (s : State) (a : Nat) : State :=
  ({ s with tick := { s.tick with active := none } }).count (Tick.MAINT_RUN_COUNT a)

theorem exec_maintActivityDone {s : State} {a : Nat} (failed : List Nat) (hactive : s.tick.active = some a) :
    exec (.maintActivityDone failed) s = .next (
      if a = 0 then (failed.filter fun k => decide (k < 16)).foldl State.sensorInvalid (s.maintEnded a)
      else if a = 3 then (s.maintEnded a).ledgerDone else s.maintEnded a) := by
  show execMaintActivityDone failed s = _
  rw [execMaintActivityDone, hactive]
  rfl

theorem maintEnded_spec (s : State) {a : Nat} (ha : a < 4) :
    (s.maintEnded a).tick.active = none ∧
      (s.maintEnded a).rd (Tick.MAINT_RUN_COUNT a) = countUp (s.rd (Tick.MAINT_RUN_COUNT a)) 1 ∧
      OnlyChanges [.tick] [Tick.MAINT_RUN_COUNT a] s (s.maintEnded a) := by
  obtain ⟨p, hp, hfixed, ht⟩ := paramOf_maintRunCount ⟨a, ha⟩
  exact ⟨congrArg TickSt.active ((count_only _ _).2.1 .tick (by simp)), rd_count_same hp hfixed ht, (setTick_only s _).trans (count_only _ _)⟩

theorem maintActivityDone_channel {act : Fin 4} (s : State) (failed : List Nat) (hact : act.val = 1 ∨ act.val = 2) (hactive : s.tick.active = some act.val) :
    ∃ t, exec (.maintActivityDone failed) s = .next t ∧ t.tick.active = none ∧
      t.rd (Tick.MAINT_RUN_COUNT act.val) = countUp (s.rd (Tick.MAINT_RUN_COUNT act.val)) 1 ∧ OnlyChanges [.tick] [Tick.MAINT_RUN_COUNT act.val] s t := by
  refine ⟨_, ?_, maintEnded_spec s act.isLt⟩
  rw [exec_maintActivityDone failed hactive, if_neg (by omega), if_neg (by omega)]

theorem setTherm_only (s : State) (x : ThermSt) : OnlyChanges [.therm] [] s { s with therm := x } :=
  ((setPowTimeTherm_only s s.pow s.time x).drop rfl).drop rfl

theorem paramOf_ledgerWrites : paramOf Obs.LEDGER_WRITES = some ⟨0xB0, 0x0035, [], [(0, 0)], .u64, .ro, 0, none, .immediate⟩ := by decide

theorem ledgerWrite_spec (s : State) (lo hi : Nat) (bytes : List Byte) :
    (s.ledgerWrite lo hi bytes).rd Obs.LEDGER_WRITES = countUp (s.rd Obs.LEDGER_WRITES) 1 ∧
      (s.ledgerWrite lo hi bytes).pow.ledgerQueue = s.pow.ledgerQueue ∧
      OnlyChanges [.pow] [Obs.LEDGER_WRITES] s (s.ledgerWrite lo hi bytes) := by
  unfold State.ledgerWrite
  refine ⟨rd_count_same paramOf_ledgerWrites (by decide) rfl, ?_, (setPow_only s _).trans (count_only _ _)⟩
  exact (congrArg PowerSt.ledgerQueue ((count_only _ Obs.LEDGER_WRITES).2.1 .pow (by simp)) :)

/-- A queued write is made: one record, counted. -/
theorem ledgerCommit_spec (s : State) (w : Nat × Nat × List Byte) :
    (s.ledgerCommit w).rd Obs.LEDGER_WRITES = countUp (s.rd Obs.LEDGER_WRITES) 1 ∧ (s.ledgerCommit w).pow.ledgerQueue = s.pow.ledgerQueue ∧
      OnlyChanges [.pow, .therm] [Obs.LEDGER_WRITES] s (s.ledgerCommit w) := by
  unfold State.ledgerCommit
  split
  · obtain ⟨hcount, hqueue, hframe⟩ := ledgerWrite_spec s 18 25 s.lifeRecord
    exact ⟨hcount, hqueue, (hframe.trans (setTherm_only _ _)).mono (by simp) (by simp)⟩
  · obtain ⟨hcount, hqueue, hframe⟩ := ledgerWrite_spec s w.1 w.2.1 w.2.2
    exact ⟨hcount, hqueue, hframe.mono (by simp) (by simp)⟩

theorem maintActivityDone_ledger {s : State} (failed : List Nat) {w : Nat × Nat × List Byte} (hactive : s.tick.active = some 3)
    (hqueue : s.pow.ledgerQueue = [w]) :
    ∃ t, exec (.maintActivityDone failed) s = .next t ∧ t.tick.active = none ∧ t.pow.ledgerQueue = [] ∧
      t.rd Obs.LEDGER_WRITES = countUp (s.rd Obs.LEDGER_WRITES) 1 ∧
      t.rd (Tick.MAINT_RUN_COUNT 3) = countUp (s.rd (Tick.MAINT_RUN_COUNT 3)) 1 := by
  obtain ⟨hnone, hrun, hended⟩ := maintEnded_spec s (by decide : 3 < 4)
  let u : State := { s.maintEnded 3 with pow := { (s.maintEnded 3).pow with ledgerQueue := [] } }
  obtain ⟨hcount, hempty, hcommit⟩ := ledgerCommit_spec u w
  have hu : OnlyChanges [.pow] [] (s.maintEnded 3) u := setPow_only _ _
  have hdone : (s.maintEnded 3).ledgerDone = u.ledgerCommit w := by
    have hpow : (s.maintEnded 3).pow = s.pow := hended.2.1 .pow (by simp)
    rw [State.ledgerDone, hpow, hqueue]
    rfl
  refine ⟨u.ledgerCommit w, ?_, ?_, hempty, ?_, ?_⟩
  · rw [exec_maintActivityDone failed hactive, if_neg (by decide), if_pos rfl, hdone]
  · exact (congrArg TickSt.active (hcommit.2.1 .tick (by simp))).trans hnone
  · rw [hcount, hu.2.2 _ (by simp), hended.2.2 _ (by decide)]
  · rw [hcommit.2.2 _ (by decide), hu.2.2 _ (by simp)]
    exact hrun

/-! ## Activities that wait at an edge (R50, R62) -/

theorem paramOf_maintWaitCount (a : Fin 4) : ∃ p, paramOf (Tick.MAINT_WAIT_COUNT a.val) = some p ∧ p.fixed = false ∧ p.type = .u64 := by
  refine ⟨⟨0x02, 0x0040, [], [(0, 3)], .u64, .ro, 0, none, .immediate⟩, ?_, by decide, rfl⟩
  revert a
  decide

/-- One activity at a tick edge: the gap it waited is counted. -/
def State.waitedOne (t : State) (a : Nat) : State :=
  if bit t.tick.waiting a then
    let w := tget t.tick.waits a 0 + 1
    let t := { t with tick := { t.tick with waits := tset t.tick.waits a 0 w } }
    (t.count (Tick.MAINT_WAIT_COUNT a)).raise (Tick.MAINT_MAX_WAIT a) w
  else t

theorem maintWaited_eq (s : State) :
    s.maintWaited = { (List.range 4).foldl State.waitedOne s with
      tick := { ((List.range 4).foldl State.waitedOne s).tick with gap := false, ran := false, budgetOver := false } } := rfl

theorem waitedOne_only (s : State) (a : Nat) :
    (s.waitedOne a).tick.waiting = s.tick.waiting ∧ OnlyChanges [.tick] [Tick.MAINT_WAIT_COUNT a, Tick.MAINT_MAX_WAIT a] s (s.waitedOne a) := by
  unfold State.waitedOne
  split
  · let u : State := { s with tick := { s.tick with waits := tset s.tick.waits a 0 (tget s.tick.waits a 0 + 1) } }
    have hcounts := (count_only u (Tick.MAINT_WAIT_COUNT a)).trans (raise_only _ (Tick.MAINT_MAX_WAIT a) (tget s.tick.waits a 0 + 1))
    exact ⟨(congrArg TickSt.waiting (hcounts.2.1 .tick (by simp)) :), (setTick_only s _).trans hcounts⟩
  · exact ⟨rfl, (OnlyChanges.refl s).mono (by simp) (by simp)⟩

theorem waitedOne_counts {s : State} {a : Fin 4} (hwaits : bit s.tick.waiting a.val = true) :
    (s.waitedOne a.val).rd (Tick.MAINT_WAIT_COUNT a.val) = countUp (s.rd (Tick.MAINT_WAIT_COUNT a.val)) 1 := by
  obtain ⟨p, hp, hfixed, ht⟩ := paramOf_maintWaitCount a
  rw [State.waitedOne, if_pos hwaits]
  rw [(raise_only _ _ _).2.2 _ (by simp [Tick.MAINT_WAIT_COUNT, Tick.MAINT_MAX_WAIT])]
  exact rd_count_same hp hfixed ht

/-- Over activities apart, each that waits counts once. -/
theorem waitedOne_foldl {l : List Nat} (hnodup : l.Nodup) (s : State) :
    (l.foldl State.waitedOne s).tick.waiting = s.tick.waiting ∧
      ∀ a : Fin 4, (a.val ∈ l → bit s.tick.waiting a.val = true →
          (l.foldl State.waitedOne s).rd (Tick.MAINT_WAIT_COUNT a.val) = countUp (s.rd (Tick.MAINT_WAIT_COUNT a.val)) 1) ∧
        (a.val ∉ l → (l.foldl State.waitedOne s).rd (Tick.MAINT_WAIT_COUNT a.val) = s.rd (Tick.MAINT_WAIT_COUNT a.val)) := by
  induction l generalizing s with
  | nil => exact ⟨rfl, fun a => ⟨fun h => absurd h (by simp), fun _ => rfl⟩⟩
  | cons x xs ih =>
    obtain ⟨hx, hxs⟩ := List.nodup_cons.1 hnodup
    obtain ⟨hwaiting, hframe⟩ := waitedOne_only s x
    obtain ⟨hrestWaiting, hrest⟩ := ih hxs (s.waitedOne x)
    have hother : ∀ a : Nat, a ≠ x → (s.waitedOne x).rd (Tick.MAINT_WAIT_COUNT a) = s.rd (Tick.MAINT_WAIT_COUNT a) := fun a ha =>
      hframe.2.2 _ (by simp only [Tick.MAINT_WAIT_COUNT, Tick.MAINT_MAX_WAIT, List.mem_cons, List.not_mem_nil, or_false]; omega)
    refine ⟨hrestWaiting.trans hwaiting, fun a => ⟨fun hmem hbit => ?_, fun hmem => ?_⟩⟩
    · obtain ⟨hcounted, hkept⟩ := hrest a
      by_cases hax : a.val = x
      · subst hax
        exact (hkept hx).trans (waitedOne_counts hbit)
      · rw [List.foldl_cons, hcounted ((List.mem_cons.1 hmem).resolve_left hax) (by rw [hwaiting]; exact hbit), hother _ hax]
    · obtain ⟨hne, hout⟩ := not_or.1 fun h => hmem (List.mem_cons.2 h)
      exact ((hrest a).2 hout).trans (hother _ hne)

theorem maintWaited_counts {s : State} {a : Fin 4} (hwaits : bit s.tick.waiting a.val = true) :
    bit s.maintWaited.tick.waiting a.val = true ∧
      s.maintWaited.rd (Tick.MAINT_WAIT_COUNT a.val) = countUp (s.rd (Tick.MAINT_WAIT_COUNT a.val)) 1 ∧
      s.maintWaited.tick.gap = false ∧ s.maintWaited.tick.ran = false := by
  obtain ⟨hwaiting, hcounts⟩ := waitedOne_foldl List.nodup_range s
  rw [maintWaited_eq]
  refine ⟨?_, (hcounts a).1 (List.mem_range.2 a.isLt) hwaits, rfl, rfl⟩
  show bit ((List.range 4).foldl State.waitedOne s).tick.waiting a.val = true
  rw [hwaiting]
  exact hwaits

theorem readmissionDone_waits {s : State} (hanswers : s.negorAnswers = true) (hreadmitting : s.tick.readmitting = true) (hshed : s.tick.shedDue = false) :
    ∃ t, exec .readmissionDone s = .next t ∧ t.tick.readmitted = true ∧ t.rd Tick.SHED_LEVEL = s.rd Tick.SHED_LEVEL ∧ OnlyChanges [.tick] [] s t := by
  refine ⟨{ s with tick := { s.tick with readmitted := true } }, ?_, rfl, rfl, setTick_only s _⟩
  show execReadmissionDone s = _
  rw [execReadmissionDone, if_pos ⟨hanswers, hreadmitting, hshed⟩]

end Sys2Proof.Machine

/-! What the change of the DRAM speed leaves alone (R58). -/

namespace Sys2Proof.Machine

/-! ## What the change of the speed does not touch -/

/-- The parameters that say which profile is in force, and its number. -/
def planIds : List Nat := Tick.PLAN_GENERATION :: profileIds

theorem planIds_lt : ∀ id ∈ planIds, id < 0x03000000 := by decide

/-- The plan is as it was: its number, the parameters of the profile, a change under way, and the storage target. -/
def KeepsPlan (s t : State) : Prop :=
  t.tick.dramChange = s.tick.dramChange ∧ t.tick.dramTarget = s.tick.dramTarget ∧ t.tgt = s.tgt ∧ ∀ id ∈ planIds, t.rd id = s.rd id

theorem KeepsPlan.refl (s : State) : KeepsPlan s s := ⟨rfl, rfl, rfl, fun _ _ => rfl⟩

theorem KeepsPlan.trans {s t u : State} (h : KeepsPlan s t) (g : KeepsPlan t u) : KeepsPlan s u :=
  ⟨g.1.trans h.1, g.2.1.trans h.2.1, g.2.2.1.trans h.2.2.1, fun id hid => (g.2.2.2 id hid).trans (h.2.2.2 id hid)⟩

theorem KeepsPlan.foldl {α : Type} {f : State → α → State} (hstep : ∀ t x, KeepsPlan t (f t x)) (l : List α) (s : State) :
    KeepsPlan s (l.foldl f s) := by
  induction l generalizing s with
  | nil => exact KeepsPlan.refl s
  | cons x xs ih => exact (hstep s x).trans (ih (f s x))

theorem KeepsPlan.ite {c : Prop} [Decidable c] {s t u : State} (h : KeepsPlan s t) (g : KeepsPlan s u) : KeepsPlan s (if c then t else u) := by
  split
  · exact h
  · exact g

theorem OnlyChanges.keepsPlan {ps : List Part} {ids : List Nat} {s t : State} (h : OnlyChanges ps ids s t)
    (htick : Part.tick ∉ ps) (htgt : Part.tgt ∉ ps) (hids : ∀ id ∈ ids, id ∉ planIds) : KeepsPlan s t :=
  ⟨congrArg TickSt.dramChange (h.2.1 .tick htick), congrArg TickSt.dramTarget (h.2.1 .tick htick), h.2.1 .tgt htgt,
    fun id hid => h.2.2 id fun hmem => hids id hmem hid⟩

/-- The parameters of the groups above the tick's are none of the plan's. -/
theorem not_planId {id : Nat} (h : 0x03000000 ≤ id) : id ∉ planIds := fun hmem => absurd (planIds_lt id hmem) (by omega)

theorem wr_keepsPlan (s : State) {id : Nat} (v : Nat) (h : 0x03000000 ≤ id) : KeepsPlan s (s.wr id v) :=
  (wr_only s id v).keepsPlan (by simp) (by simp) fun _ hid => by rw [List.mem_singleton.1 hid]; exact not_planId h

theorem wrAll_keepsPlan (s : State) (l : List (Nat × Nat)) (h : ∀ e ∈ l, 0x03000000 ≤ e.1) : KeepsPlan s (s.wrAll l) := by
  refine (wrAll_only s l).keepsPlan (by simp) (by simp) fun id hid => ?_
  obtain ⟨e, he, rfl⟩ := List.mem_map.1 hid
  exact not_planId (h e he)

theorem count_keepsPlan (s : State) {id : Nat} (h : 0x03000000 ≤ id) : KeepsPlan s (s.count id) := wr_keepsPlan s _ h

theorem notify_keepsPlan (s : State) (cls code : Nat) (body : List Byte) : KeepsPlan s (s.notify cls code body) :=
  (notify_only s cls code body).keepsPlan (by decide) (by decide) (by decide)

theorem reply_keepsPlan (s : State) (r : Req) (op st : Nat) (pl : List Byte) : KeepsPlan s (s.reply r op st pl) :=
  (reply_only s r op st pl).keepsPlan (by decide) (by decide) (by decide)

theorem releaseIf_keepsPlan (s : State) (p : Wait → Bool) (status : Nat) (tail : Option (Nat × List Byte)) : KeepsPlan s (s.releaseIf p status tail) := by
  unfold State.releaseIf
  dsimp only
  refine KeepsPlan.trans (t := { s with nmp := { s.nmp with waits := _ } }) ⟨rfl, rfl, rfl, fun _ _ => rfl⟩ (KeepsPlan.foldl (fun t w => ?_) _ _)
  exact (KeepsPlan.refl t).ite (reply_keepsPlan t _ _ _ _)

theorem speedReply_keepsPlan (s : State) (r : Req) : KeepsPlan s (s.speedReply r) :=
  KeepsPlan.trans (t := { s with nmp := { s.nmp with waits := s.nmp.waits.map fun (w : Wait) =>
      if w.r = r then { w with edge := s.tickSeq, gen := some ((s.rd Tick.PLAN_GENERATION + 1) % 2 ^ 32) } else w } })
    ⟨rfl, rfl, rfl, fun _ _ => rfl⟩ (releaseIf_keepsPlan _ _ _ _)

/-! ## The clocks, the DRAM's figures and the slots of a profile -/

theorem applyClock_keepsPlan (s : State) : KeepsPlan s s.applyClock := by
  unfold State.applyClock
  dsimp only
  split
  · exact (setPow_only s _).keepsPlan (by simp) (by simp) (by simp)
  · exact ((setPow_only s _).trans (pin_only _ _ _)).keepsPlan (by simp) (by simp) (by simp)

theorem dramFigures_keepsPlan (s : State) : KeepsPlan s s.dramFigures :=
  wrAll_keepsPlan s _ (by simp [Dram.DRAM_SPEED, Dram.PEAK_BANDWIDTH, Dram.CAPACITY, Dram.SCRUB_PASS_TIME])

theorem trfReport_keepsPlan (s : State) (p : Nat) (c : FrameCfg) : KeepsPlan s (s.trfReport p c) :=
  wrAll_keepsPlan s _ (by simp [Trf.BUDGET_IN_FORCE, Trf.TILE_BYTES, Trf.TILE_COLUMNS, Trf.TILE_ROWS]; omega)

theorem resizeSlots_keepsPlan (s : State) (p : Nat) : KeepsPlan s (s.resizeSlots p) := by
  have hbytes : KeepsPlan s (s.wr (Trf.SLOT_BYTES p) (s.slotBytes p)) := wr_keepsPlan s _ (by simp [Trf.SLOT_BYTES]; omega)
  unfold State.resizeSlots
  dsimp only
  split
  · exact hbytes
  · exact hbytes.trans (trfReport_keepsPlan _ _ _)

/-! ## A frame that closes -/

theorem countFlag_keepsPlan (s : State) (f : Frame) (i : Nat) {id : Nat} (h : 0x03000000 ≤ id) : KeepsPlan s (s.countFlag f i id) := by
  unfold State.countFlag
  split
  · exact count_keepsPlan s h
  · exact KeepsPlan.refl s

theorem finalFrame_keepsPlan (s : State) (p slot : Nat) : KeepsPlan s (s.finalFrame p slot) := by
  unfold State.finalFrame
  split
  · exact KeepsPlan.refl s
  · split
    · exact KeepsPlan.refl s
    · exact ((setIngest_only s p _).trans (wrBlob_only _ _ _)).keepsPlan (by simp) (by simp) (by simp)

theorem finalUntaken_keepsPlan (s : State) (ctx : Nat) : KeepsPlan s (s.finalUntaken ctx) := by
  unfold State.finalUntaken
  exact KeepsPlan.foldl (fun t p => KeepsPlan.foldl (fun u (e : Nat × Frame) => finalFrame_keepsPlan u p e.1) _ t) _ s

/-- The end of a frame, on whatever state and frame it meets. -/
theorem frameEnd_keepsPlan {s u : State} (hu : KeepsPlan s u) (p : Nat) (f : Frame) (x : IngSt) :
    KeepsPlan s ((((((((((u.setIngest p x).wr (Ing.FRAME_STATE p) 0).count (Ing.FRAMES_CLOSED p)).countFlag f Flag.SHORT (Ing.FRAMES_SHORT p)).countFlag
      f Flag.LONG (Ing.FRAMES_LONG p)).countFlag f Flag.TRUNCATED (Ing.FRAMES_TRUNCATED p)).countFlag f Flag.CRC_ERR (Ing.FRAMES_CRC_ERR p)).countFlag
      f Flag.EPOCH_CHANGE (Ing.EPOCH_CHANGES p)).finalUntaken f.cfg.ctx).fire (48 + p)) := by
  refine KeepsPlan.trans ?_ ((fire_only _ _).keepsPlan (by simp) (by simp) (by simp))
  refine KeepsPlan.trans ?_ (finalUntaken_keepsPlan _ _)
  refine KeepsPlan.trans ?_ (countFlag_keepsPlan _ _ _ (by simp [Ing.EPOCH_CHANGES]; omega))
  refine KeepsPlan.trans ?_ (countFlag_keepsPlan _ _ _ (by simp [Ing.FRAMES_CRC_ERR]; omega))
  refine KeepsPlan.trans ?_ (countFlag_keepsPlan _ _ _ (by simp [Ing.FRAMES_TRUNCATED]; omega))
  refine KeepsPlan.trans ?_ (countFlag_keepsPlan _ _ _ (by simp [Ing.FRAMES_LONG]; omega))
  refine KeepsPlan.trans ?_ (countFlag_keepsPlan _ _ _ (by simp [Ing.FRAMES_SHORT]; omega))
  refine KeepsPlan.trans ?_ (count_keepsPlan _ (by simp [Ing.FRAMES_CLOSED]; omega))
  refine KeepsPlan.trans ?_ (wr_keepsPlan _ _ (by simp [Ing.FRAME_STATE]; omega))
  exact hu.trans ((setIngest_only _ _ _).keepsPlan (by simp) (by simp) (by simp))

theorem closeFrame_keepsPlan (s : State) (p cause linesSent : Nat) : KeepsPlan s (s.closeFrame p cause linesSent) := by
  have hfilled : ∀ n, KeepsPlan s (s.countBy (Ing.LINES_FILLED p) n) := fun n => wr_keepsPlan s _ (by simp [Ing.LINES_FILLED]; omega)
  unfold State.closeFrame
  split
  · exact KeepsPlan.refl s
  · exact frameEnd_keepsPlan (((hfilled _).trans (count_keepsPlan _ (by simp [Ing.DEFECT_OVERFLOW]; omega))).ite (hfilled _)) p _ _

/-! ## Ports that stop and start with DUIKER -/

theorem dropJob_keepsPlan (s : State) (p : Nat) (k : SensorKind) : KeepsPlan s (s.dropJob p k) :=
  (setBus_only s _ _).keepsPlan (by simp) (by simp) (by simp)

theorem decideChange_keepsPlan (s : State) (p : Nat) (c : Change) (result err writeEnd : Nat) : KeepsPlan s (s.decideChange p c result err writeEnd) := by
  unfold State.decideChange
  dsimp only
  have hpend : ∀ (x : ExpSt) (n : Nat), KeepsPlan s ((s.setExposure p x).wr (Sens.PENDING_CHANGES p) n) := fun x n =>
    ((setExposure_only s p x).keepsPlan (by simp) (by simp) (by simp)).trans (wr_keepsPlan _ n (by simp [Sens.PENDING_CHANGES]; omega))
  have hcounted : ∀ t, KeepsPlan s t → KeepsPlan s (if result = 0 then t.count (Sens.EXPOSE_APPLIED p) else
      if result = 1 then t.count (Sens.EXPOSE_SHIFTED p) else if result = 2 then t.count (Sens.EXPOSE_PAST p) else t) := by
    intro t ht
    split
    · exact ht.trans (count_keepsPlan t (by simp [Sens.EXPOSE_APPLIED]; omega))
    · split
      · exact ht.trans (count_keepsPlan t (by simp [Sens.EXPOSE_SHIFTED]; omega))
      · split
        · exact ht.trans (count_keepsPlan t (by simp [Sens.EXPOSE_PAST]; omega))
        · exact ht
  split
  · exact (hcounted _ (hpend _ _)).trans (reply_keepsPlan _ _ _ _ _)
  · exact hcounted _ (hpend _ _)

theorem dropPending_keepsPlan (s : State) (p : Nat) : KeepsPlan s (s.dropPending p) := by
  refine KeepsPlan.foldl (fun t c => ?_) _ s
  split
  · exact KeepsPlan.refl t
  · exact (dropJob_keepsPlan t _ _).trans (decideChange_keepsPlan _ _ _ _ _ _)

theorem portLost_keepsPlan (s : State) (p : Nat) : KeepsPlan s (s.portLost p) :=
  ((closeFrame_keepsPlan s p 3 0).trans ((setPort_only _ p _).keepsPlan (by simp) (by simp) (by simp))).trans (dropPending_keepsPlan _ p)

theorem laneClear_keepsPlan (s : State) (k : Nat) : KeepsPlan s (s.laneClear k) :=
  (setLane_only s k _).keepsPlan (by simp) (by simp) (by simp)

theorem portTo_keepsPlan (s : State) (p st : Nat) : KeepsPlan s (s.portTo p st) := by
  unfold State.portTo
  split
  · exact KeepsPlan.refl s
  · exact (wr_keepsPlan s st (by simp [Port.PORT_STATE]; omega)).trans (notify_keepsPlan _ _ _ _)

theorem portTo_leader_keepsPlan (s : State) (p st leader : Nat) : KeepsPlan s ((s.portTo p st).wr (Port.BOND_LEADER p) leader) :=
  (portTo_keepsPlan s p st).trans (wr_keepsPlan _ leader (by simp [Port.BOND_LEADER]; omega))

theorem portStop_keepsPlan (s : State) (p width : Nat) : KeepsPlan s (s.portStop p width) := by
  unfold State.portStop
  dsimp only
  refine KeepsPlan.trans ?_ (wrAll_keepsPlan _ _ (by simp [Port.LANE_MAP, Port.LOGICAL_VALID]; omega))
  refine KeepsPlan.trans ?_ (KeepsPlan.foldl (fun t q => ?_) _ _)
  · split
    · exact portLost_keepsPlan s p
    · exact KeepsPlan.refl s
  · have hlanes := KeepsPlan.foldl (fun u l => (laneClear_keepsPlan u (laneKey q l)).trans
      (wrAll_keepsPlan _ [(Port.LANE_STATE q l, 0), (Port.LOGICAL_ID q l, 0xFF)] (by simp [Port.LANE_STATE, Port.LOGICAL_ID]; omega))) (List.range 4) t
    split
    · exact hlanes.trans (portTo_leader_keepsPlan _ q 0 q)
    · exact hlanes

theorem laneTo_keepsPlan (s : State) (k st : Nat) : KeepsPlan s (s.laneTo k st) :=
  ((setLane_only s k _).keepsPlan (by simp) (by simp) (by simp)).trans (wr_keepsPlan _ st (by simp [Port.LANE_STATE]; omega))

theorem laneStart_keepsPlan (s : State) (leader k : Nat) : KeepsPlan s (s.laneStart leader k) := by
  unfold State.laneStart
  dsimp only
  have hclear : ∀ l, l = [(Port.LOGICAL_ID (k / 4) (k % 4), 0xFF), (Port.LANE_POLARITY (k / 4) (k % 4), 0)] → KeepsPlan s ((s.laneClear k).wrAll l) := by
    rintro _ rfl
    exact (laneClear_keepsPlan s k).trans (wrAll_keepsPlan _ _ (by simp [Port.LOGICAL_ID, Port.LANE_POLARITY]; omega))
  split
  · exact (hclear _ rfl).trans (laneTo_keepsPlan _ k 1)
  · split
    · exact (hclear _ rfl).trans (laneTo_keepsPlan _ k 3)
    · exact ((hclear _ rfl).trans (wr_keepsPlan _ 0 (by simp [Port.EYE_MARGIN]; omega))).trans (laneTo_keepsPlan _ k 4)

theorem portStart_keepsPlan (s : State) (p : Nat) : KeepsPlan s (s.portStart p) := by
  unfold State.portStart
  dsimp only
  refine KeepsPlan.trans ?_ (KeepsPlan.foldl (fun t k => laneStart_keepsPlan t p k) _ _)
  refine KeepsPlan.trans ?_ (portTo_keepsPlan _ p 1)
  exact (KeepsPlan.foldl (fun t q => portTo_leader_keepsPlan t q 5 p) _ s).trans ((setPort_only _ p _).keepsPlan (by simp) (by simp) (by simp))

theorem linksDuiker_keepsPlan (s : State) (enter : Bool) : KeepsPlan s (s.linksDuiker enter) := by
  refine KeepsPlan.foldl (fun t p => ?_) _ s
  split
  · split
    · exact portStop_keepsPlan t p _
    · exact portStart_keepsPlan t p
  · exact KeepsPlan.refl t

/-- Taking up another profile changes its clocks, figures, slots and links, and nothing of the plan itself. -/
theorem newProfile_keepsPlan (s old : State) : KeepsPlan s (s.newProfile old) := by
  unfold State.newProfile
  split
  · exact KeepsPlan.refl s
  · dsimp only
    let u := s.wrAll [(Tick.LIFE_WEIGHT, s.profile.lifeWeight), (Tick.ACTIVE_CAP, s.profile.cap)]
    have hu : KeepsPlan s u := (wrAll_only s _).keepsPlan (by simp) (by simp)
      (show ∀ id ∈ [Tick.LIFE_WEIGHT, Tick.ACTIVE_CAP], id ∉ planIds by decide)
    let v : State := { u with
      therm := { u.therm with upPending := false, okSince := none, floorHeld := false, floorNotified := false }
      tick := { u.tick with readmitting := false, readmitted := false, shedDue := false } }
    have hv : KeepsPlan u v := ⟨rfl, rfl, rfl, fun _ _ => rfl⟩
    have hslots := (((hu.trans hv).trans (applyClock_keepsPlan v)).trans (dramFigures_keepsPlan _)).trans
      (KeepsPlan.foldl resizeSlots_keepsPlan (List.range 16) v.applyClock.dramFigures)
    split
    · exact hslots
    · exact hslots.trans (linksDuiker_keepsPlan _ _)

end Sys2Proof.Machine

/-! The change of the DRAM speed (R58), and O12. -/

namespace Sys2Proof.Machine

/-! ## The change of the speed itself -/

theorem profile_congr {s t : State} (h : ∀ id ∈ profileIds, t.rd id = s.rd id) : t.profile = s.profile := by
  have hshares : ∀ c, c < 5 → t.rd (Tick.CUSTOM_SHARE c) = s.rd (Tick.CUSTOM_SHARE c) := fun c hc => h _ (by revert c; decide)
  have hcustom : t.customProfile = s.customProfile := by
    unfold State.customProfile
    rw [h Tick.CUSTOM_POWER_CAP (by decide), h Tick.CUSTOM_FLOOR (by decide), h Tick.CUSTOM_CLOCK_SCALE (by decide), h Tick.CUSTOM_FLOOR_CLOCK (by decide),
      h Tick.CUSTOM_DRAM_SPEED (by decide), h Tick.CUSTOM_TRF_BUDGET (by decide), h Tick.CUSTOM_TNR_REFS (by decide),
      h Tick.CUSTOM_MAX_CONTEXTS (by decide), h Tick.CUSTOM_SHED_ORDER (by decide), List.map_congr_left fun c hc => hshares c (List.mem_range.1 hc)]
  unfold State.profile
  rw [h Tick.PROFILE (by decide), hcustom]

/-- Values of the profile put in force change its parameters and nothing else. -/
theorem placeAll_profile_only (s : State) {l : List (Nat × Nat)} (h : ∀ e ∈ l, e.1 ∈ profileIds) :
    OnlyChanges [] profileIds s (s.placeAll (numVals l)) := by
  refine OnlyChanges.foldl _ ((OnlyChanges.refl s).mono (by simp) (by simp)) fun t x hx => ?_
  obtain ⟨e, he, rfl⟩ := List.mem_map.1 hx
  unfold State.place
  dsimp only
  split
  · exact (wr_only t e.1 _).mono (by simp) (by simpa using h e he)
  · exact (OnlyChanges.refl t).mono (by simp) (by simp)

/-- The profile that waited is in force, with its figures, and a delayed commit is answered. -/
def State.speedTaken (s : State) : State :=
  let u := s.placeAll (numVals s.tick.dramTarget)
  let v := { u with tick := { u.tick with dramChange := false, dramTarget := [], dramFor := none } }
  (match s.tick.dramFor with
    | some r => v.speedReply r
    | none => v).newProfile s

/-- The controller is back: the plan has its next number and the channels have no refreshes due. -/
def State.speedBack (s : State) : State :=
  let s := s.next32 Tick.PLAN_GENERATION
  let s := { s with tick := { s.tick with shedTable := s.newShedTable } }
  s.dramChannels.foldl (fun (t : State) c => (t.trainedNow c).clearDebts c) s

theorem exec_dramSpeedChangeDone {s : State} (h : s.tick.dramChange = true) :
    exec (.dramSpeedChangeDone []) s = .next s.speedTaken.speedBack.resumeTarget := by
  show execDramSpeedChangeDone [] s = _
  rw [execDramSpeedChangeDone, if_neg (by simp [h])]
  rfl

theorem speedTaken_spec {s : State} (htarget : ∀ e ∈ s.tick.dramTarget, e.1 ∈ profileIds) :
    s.speedTaken.tick.dramChange = false ∧ s.speedTaken.tick.dramTarget = [] ∧ s.speedTaken.tgt = s.tgt ∧
      s.speedTaken.profile = (s.placeAll (numVals s.tick.dramTarget)).profile ∧ s.speedTaken.rd Tick.PLAN_GENERATION = s.rd Tick.PLAN_GENERATION := by
  let u := s.placeAll (numVals s.tick.dramTarget)
  let v : State := { u with tick := { u.tick with dramChange := false, dramTarget := [], dramFor := none } }
  have hplaced : OnlyChanges [] profileIds s u := placeAll_profile_only s htarget
  have hanswered : KeepsPlan v (match s.tick.dramFor with | some r => v.speedReply r | none => v) := by
    split
    · exact speedReply_keepsPlan v _
    · exact KeepsPlan.refl v
  obtain ⟨hchange, hempty, htgt, hids⟩ := hanswered.trans (newProfile_keepsPlan _ s)
  refine ⟨hchange, hempty, htgt.trans (hplaced.2.1 .tgt (by simp)), profile_congr fun id hid => hids id (List.mem_cons_of_mem _ hid), ?_⟩
  exact (hids _ (List.mem_cons_self ..)).trans (hplaced.2.2 _ (by decide))

theorem setDram_only (s : State) (x : DramSt) : OnlyChanges [.dram] [] s { s with dram := x } := by
  refine ⟨rfl, fun p hp => ?_, fun _ _ => rfl⟩
  cases p with
  | dram => simp at hp
  | mem => exact fun _ => rfl
  | buffers | qps => exact ⟨rfl, rfl⟩
  | nmp => exact ⟨rfl, rfl, rfl, rfl, rfl⟩
  | _ => rfl

theorem paramOf_planGeneration : ∃ p, paramOf Tick.PLAN_GENERATION = some p ∧ p.fixed = false ∧ p.type.width = 32 :=
  ⟨_, rfl, by decide, by decide⟩

theorem speedBack_spec (s : State) :
    s.speedBack.tick.dramChange = s.tick.dramChange ∧ s.speedBack.tick.dramTarget = s.tick.dramTarget ∧
      s.speedBack.rd Tick.PLAN_GENERATION = (s.rd Tick.PLAN_GENERATION + 1) % 2 ^ 32 ∧
      OnlyChanges [.tick, .dram] [Tick.PLAN_GENERATION] s s.speedBack := by
  obtain ⟨p, hp, hfixed, hwidth⟩ := paramOf_planGeneration
  let u := s.next32 Tick.PLAN_GENERATION
  let v : State := { u with tick := { u.tick with shedTable := u.newShedTable } }
  have hu : OnlyChanges [] [Tick.PLAN_GENERATION] s u := next32_only s _
  have hv : OnlyChanges [.tick] [] u v := setTick_only u _
  have hdram : OnlyChanges [.dram] [] v s.speedBack :=
    OnlyChanges.foldl _ ((OnlyChanges.refl v).mono (by simp) (by simp)) fun t c _ => (setDram_only t _).then (setDram_only _ _)
  have htick : s.speedBack.tick = v.tick := hdram.2.1 .tick (by simp)
  have hutick : u.tick = s.tick := hu.2.1 .tick (by simp)
  refine ⟨?_, ?_, ?_, ((hu.trans hv).trans hdram).mono (by simp) (by simp)⟩
  · rw [htick]
    exact (congrArg TickSt.dramChange hutick :)
  · rw [htick]
    exact (congrArg TickSt.dramTarget hutick :)
  · rw [hdram.2.2 _ (by simp), hv.2.2 _ (by simp)]
    exact rd_next32_same hp hfixed hwidth

/-- With nothing held back, the storage target goes on as it was. -/
theorem resumeTarget_nothingHeld {s : State} (h : s.tgt.held = []) : s.resumeTarget = s := by
  unfold State.resumeTarget
  rw [h]
  dsimp only [List.filter_nil, List.foldl_nil]
  rw [← h]

theorem dramSpeedChangeDone_puts {s : State} (hchange : s.tick.dramChange = true) (hheld : s.tgt.held = [])
    (htarget : ∀ e ∈ s.tick.dramTarget, e.1 ∈ profileIds) :
    ∃ t, exec (.dramSpeedChangeDone []) s = .next t ∧ t.tick.dramChange = false ∧ t.tick.dramTarget = [] ∧
      t.profile = (s.placeAll (numVals s.tick.dramTarget)).profile ∧ t.rd Tick.PLAN_GENERATION = (s.rd Tick.PLAN_GENERATION + 1) % 2 ^ 32 ∧
      t.pending = s.pending := by
  obtain ⟨hended, hempty, htgt, hprofile, hgen⟩ := speedTaken_spec htarget
  obtain ⟨hchange', htarget', hnext, hframe⟩ := speedBack_spec s.speedTaken
  have hback : s.speedTaken.speedBack.tgt.held = [] := by
    rw [(hframe.2.1 .tgt (by simp) : _ = s.speedTaken.tgt), htgt, hheld]
  have hexec : exec (.dramSpeedChangeDone []) s = .next s.speedTaken.speedBack := by
    rw [exec_dramSpeedChangeDone hchange, resumeTarget_nothingHeld hback]
  refine ⟨s.speedTaken.speedBack, hexec, hchange'.trans hended, htarget'.trans hempty, ?_, by rw [hnext, hgen], ?_⟩
  · exact (profile_congr fun id hid => hframe.2.2 id fun hmem => absurd (List.mem_singleton.1 hmem ▸ hid) (by decide)).trans hprofile
  · exact (execDramSpeedChangeDone_keeps [] s (Keeps.refl s) hexec).pending

/-- Settles O12: the budget and jobs, maintenance, and the change of the DRAM speed, each by its own lemmas. -/
theorem jobsAndMaintenanceShareTheGap : Obligations.JobsAndMaintenanceShareTheGap :=
  ⟨fun _ => ⟨tickBudgetEnd_jobsRunOn, tickBudgetEnd_gapBegins, fun _ => jobComplete_countsLate, fun drained built _ => overruns_leaveNoJob drained built⟩,
    fun _ ch s => ⟨maintRequest_waits ch, maintRequest_queuesLife ch, maintRequest_starts ch, maintActivityDone_channel s,
      fun failed _ => maintActivityDone_ledger failed, maintWaited_counts⟩,
    fun _ => ⟨readmissionDone_waits, dramSpeedChangeDone_puts⟩⟩

end Sys2Proof.Machine

/-! What every step keeps: the command at the front runs whole, and what its meaning keeps the step keeps; O1, O2 and O3. -/

namespace Sys2Proof.Machine

/-- Supplies within the absolute maximum ratings complete (R496, log 14). -/
theorem powerOnSuppliesValid_completes (mv : List Nat) (s : State) :
    (∃ mv', Instr.powerOnSuppliesValid mv = .powerOnSuppliesValid mv' ∧ ∃ v ∈ mv', 3800 < v) ∨
      ∃ t, exec (.powerOnSuppliesValid mv) s = .next t ∧ Keeps s t := by
  by_cases h : ∃ v ∈ mv, 3800 < v
  · exact .inl ⟨mv, rfl, h⟩
  · have hexec := exec_powerOnSuppliesValid_within s fun v hv => Nat.le_of_not_lt fun hlt => h ⟨v, hv, hlt⟩
    exact .inr ⟨_, hexec, execPowerOnSuppliesValid_keeps mv s (.refl s) hexec⟩

/-- Every command but one completes in every state, and what it leaves keeps what every operation keeps: one row for each row of the dispatch. -/
theorem exec_completes (c : Instr) (s : State) :
    (∃ mv, c = .powerOnSuppliesValid mv ∧ ∃ v ∈ mv, 3800 < v) ∨ ∃ t, exec c s = .next t ∧ Keeps s t :=
  match c with
  | .powerLoss ns => .inr ⟨_, rfl, execPowerLoss_keeps ns s (.refl s) rfl⟩
  | .powerOnSuppliesValid mv => powerOnSuppliesValid_completes mv s
  | .bankSupplyFault bank ns => .inr ⟨_, rfl, execBankSupplyFault_keeps bank ns s (.refl s) rfl⟩
  | .rstNLow ns => .inr ⟨_, rfl, execRstNLow_keeps ns s (.refl s) rfl⟩
  | .internalResetEnd bcb headers crcErrors => .inr ⟨_, rfl, execInternalResetEnd_keeps bcb headers crcErrors s (.refl s) rfl⟩
  | .bootImageVerified header body => .inr ⟨_, rfl, execBootImageVerified_keeps header body s (.refl s) rfl⟩
  | .negorStartConfirm => .inr ⟨_, rfl, execNegorStartConfirm_keeps s (.refl s) rfl⟩
  | .bootConfirmTimeout => .inr ⟨_, rfl, execBootConfirmTimeout_keeps s (.refl s) rfl⟩
  | .goldenInvalidBootRecord => .inr ⟨_, rfl, execGoldenInvalidBootRecord_keeps s (.refl s) rfl⟩
  | .watchdogExpiry => .inr ⟨_, rfl, execWatchdogExpiry_keeps s (.refl s) rfl⟩
  | .restartConfirmTimeout => .inr ⟨_, rfl, execRestartConfirmTimeout_keeps s (.refl s) rfl⟩
  | .tickEdge drained built => .inr ⟨_, rfl, execTickEdge_keeps drained built s (.refl s) rfl⟩
  | .tickLockAchieved => .inr ⟨_, rfl, execTickLockAchieved_keeps s (.refl s) rfl⟩
  | .holdoverLimitExpiry => .inr ⟨_, rfl, execHoldoverLimitExpiry_keeps s (.refl s) rfl⟩
  | .tickBudgetEnd building => .inr ⟨_, rfl, execTickBudgetEnd_keeps building s (.refl s) rfl⟩
  | .jobComplete ctx sceneCycles endNs sceneLate rendLate statsLate => .inr ⟨_, rfl, execJobComplete_keeps ctx sceneCycles endNs sceneLate rendLate statsLate s (.refl s) rfl⟩
  | .maintRequest act ch => .inr ⟨_, rfl, execMaintRequest_keeps act ch s (.refl s) rfl⟩
  | .maintActivityDone failed => .inr ⟨_, rfl, execMaintActivityDone_keeps failed s (.refl s) rfl⟩
  | .earlyStartEligible => .inr ⟨_, rfl, execEarlyStartEligible_keeps s (.refl s) rfl⟩
  | .stripeComplete => .inr ⟨_, rfl, execStripeComplete_keeps s (.refl s) rfl⟩
  | .readmissionDone => .inr ⟨_, rfl, execReadmissionDone_keeps s (.refl s) rfl⟩
  | .dramSpeedChangeDone failed => .inr ⟨_, rfl, execDramSpeedChangeDone_keeps failed s (.refl s) rfl⟩
  | .customBaseWrite r value => .inr ⟨_, rfl, execCustomBaseWrite_keeps r value s (.refl s) rfl⟩
  | .tickSourceWrite r source offset fallback => .inr ⟨_, rfl, execTickSourceWrite_keeps r source offset fallback s (.refl s) rfl⟩
  | .tickRateWrite r n d => .inr ⟨_, rfl, execTickRateWrite_keeps r n d s (.refl s) rfl⟩
  | .profileWrite r value => .inr ⟨_, rfl, execProfileWrite_keeps r value s (.refl s) rfl⟩
  | .nmpDatagramRx port vlan peer dst udpLen fragmented bytes => .inr ⟨_, rfl, execNmpDatagramRx_keeps port vlan peer dst udpLen fragmented bytes s (.refl s) rfl⟩
  | .nmpReassemblyTimeout sess seq => .inr ⟨_, rfl, execNmpReassemblyTimeout_keeps sess seq s (.refl s) rfl⟩
  | .sessionOpen port peer seq payload => .inr ⟨_, rfl, execSessionOpen_keeps port peer seq payload s (.refl s) rfl⟩
  | .sessionClose r => .inr ⟨_, rfl, execSessionClose_keeps r s (.refl s) rfl⟩
  | .heartbeat r payload => .inr ⟨_, rfl, execHeartbeat_keeps r payload s (.refl s) rfl⟩
  | .sessionIdleClose sess => .inr ⟨_, rfl, execSessionIdleClose_keeps sess s (.refl s) rfl⟩
  | .deviceRestart r => .inr ⟨_, rfl, execDeviceRestart_keeps r s (.refl s) rfl⟩
  | .deviceRestartDelayEnd => .inr ⟨_, rfl, execDeviceRestartDelayEnd_keeps s (.refl s) rfl⟩
  | .paramGet r entries => .inr ⟨_, rfl, execParamGet_keeps r entries s (.refl s) rfl⟩
  | .paramSet r entries => .inr ⟨_, rfl, execParamSet_keeps r entries s (.refl s) rfl⟩
  | .paramCommit r target => .inr ⟨_, rfl, execParamCommit_keeps r target s (.refl s) rfl⟩
  | .paramDiscard r => .inr ⟨_, rfl, execParamDiscard_keeps r s (.refl s) rfl⟩
  | .paramDescribe r ids => .inr ⟨_, rfl, execParamDescribe_keeps r ids s (.refl s) rfl⟩
  | .paramWritePlain r id value => .inr ⟨_, rfl, execParamWritePlain_keeps r id value s (.refl s) rfl⟩
  | .ownAcquire r cells leaseMs => .inr ⟨_, rfl, execOwnAcquire_keeps r cells leaseMs s (.refl s) rfl⟩
  | .ownRelease r cells => .inr ⟨_, rfl, execOwnRelease_keeps r cells s (.refl s) rfl⟩
  | .ownQuery r cells => .inr ⟨_, rfl, execOwnQuery_keeps r cells s (.refl s) rfl⟩
  | .ownReclaim r cells => .inr ⟨_, rfl, execOwnReclaim_keeps r cells s (.refl s) rfl⟩
  | .leaseExpiry cell => .inr ⟨_, rfl, execLeaseExpiry_keeps cell s (.refl s) rfl⟩
  | .planQuery r => .inr ⟨_, rfl, execPlanQuery_keeps r s (.refl s) rfl⟩
  | .bufAlloc r cell size => .inr ⟨_, rfl, execBufAlloc_keeps r cell size s (.refl s) rfl⟩
  | .bufFree r handle => .inr ⟨_, rfl, execBufFree_keeps r handle s (.refl s) rfl⟩
  | .bufInfo r handle => .inr ⟨_, rfl, execBufInfo_keeps r handle s (.refl s) rfl⟩
  | .bufRdmaAccess qp key write offset length data => .inr ⟨_, rfl, execBufRdmaAccess_keeps qp key write offset length data s (.refl s) rfl⟩
  | .unsupportedOpcode r opcode => .inr ⟨_, rfl, execUnsupportedOpcode_keeps r opcode s (.refl s) rfl⟩
  | .notifyRetransmit sess seq => .inr ⟨_, rfl, execNotifyRetransmit_keeps sess seq s (.refl s) rfl⟩
  | .ownerKeyWrite r key => .inr ⟨_, rfl, execOwnerKeyWrite_keeps r key s (.refl s) rfl⟩
  | .rdmaMessageComplete qp key write => .inr ⟨_, rfl, execRdmaMessageComplete_keeps qp key write s (.refl s) rfl⟩
  | .sensorPortEnableWrite r port value => .inr ⟨_, rfl, execSensorPortEnableWrite_keeps r port value s (.refl s) rfl⟩
  | .xtrigEnableWrite r n value => .inr ⟨_, rfl, execXtrigEnableWrite_keeps r n value s (.refl s) rfl⟩
  | .crlBlockRx port lane hdr payload => .inr ⟨_, rfl, execCrlBlockRx_keeps port lane hdr payload s (.refl s) rfl⟩
  | .polarityTimeout port lane => .inr ⟨_, rfl, execPolarityTimeout_keeps port lane s (.refl s) rfl⟩
  | .blockLockAchieved port lane => .inr ⟨_, rfl, execBlockLockAchieved_keeps port lane s (.refl s) rfl⟩
  | .blockLockLoss lanes => .inr ⟨_, rfl, execBlockLockLoss_keeps lanes s (.refl s) rfl⟩
  | .cdrLockLoss lanes => .inr ⟨_, rfl, execCdrLockLoss_keeps lanes s (.refl s) rfl⟩
  | .lineHealthTestDone port m => .inr ⟨_, rfl, execLineHealthTestDone_keeps port m s (.refl s) rfl⟩
  | .healthRetestTimer port lane => .inr ⟨_, rfl, execHealthRetestTimer_keeps port lane s (.refl s) rfl⟩
  | .acquireAttemptEnd port lane lock bad eye => .inr ⟨_, rfl, execAcquireAttemptEnd_keeps port lane lock bad eye s (.refl s) rfl⟩
  | .noSignalTimeout port lane => .inr ⟨_, rfl, execNoSignalTimeout_keeps port lane s (.refl s) rfl⟩
  | .noSignalChange port lane below => .inr ⟨_, rfl, execNoSignalChange_keeps port lane below s (.refl s) rfl⟩
  | .crlAlignRx port lane align ui => .inr ⟨_, rfl, execCrlAlignRx_keeps port lane align ui s (.refl s) rfl⟩
  | .identifyTimeout port lane => .inr ⟨_, rfl, execIdentifyTimeout_keeps port lane s (.refl s) rfl⟩
  | .crlUnknownControl port => .inr ⟨_, rfl, execCrlUnknownControl_keeps port s (.refl s) rfl⟩
  | .crlDataOutsideLine port => .inr ⟨_, rfl, execCrlDataOutsideLine_keeps port s (.refl s) rfl⟩
  | .crlFrameStartRx port frameCount => .inr ⟨_, rfl, execCrlFrameStartRx_keeps port frameCount s (.refl s) rfl⟩
  | .crlFrameEndRx port frameCount linesSent => .inr ⟨_, rfl, execCrlFrameEndRx_keeps port frameCount linesSent s (.refl s) rfl⟩
  | .crlLineRx port number endNumber width len payload crc => .inr ⟨_, rfl, execCrlLineRx_keeps port number endNumber width len payload crc s (.refl s) rfl⟩
  | .embeddedLineRx port type number endNumber payload crc => .inr ⟨_, rfl, execEmbeddedLineRx_keeps port type number endNumber payload crc s (.refl s) rfl⟩
  | .patgenFrameStart port => .inr ⟨_, rfl, execPatgenFrameStart_keeps port s (.refl s) rfl⟩
  | .xtrigPulseStart n => .inr ⟨_, rfl, execXtrigPulseStart_keeps n s (.refl s) rfl⟩
  | .xtrigPulseEnd n => .inr ⟨_, rfl, execXtrigPulseEnd_keeps n s (.refl s) rfl⟩
  | .contextBindWrite r port value => .inr ⟨_, rfl, execContextBindWrite_keeps r port value s (.refl s) rfl⟩
  | .defectMapWrite r port flags value => .inr ⟨_, rfl, execDefectMapWrite_keeps r port flags value s (.refl s) rfl⟩
  | .ingestDeadline port => .inr ⟨_, rfl, execIngestDeadline_keeps port s (.refl s) rfl⟩
  | .trfTileRowWritten port => .inr ⟨_, rfl, execTrfTileRowWritten_keeps port s (.refl s) rfl⟩
  | .frameTicketWrite port => .inr ⟨_, rfl, execFrameTicketWrite_keeps port s (.refl s) rfl⟩
  | .ctxEnableWrite r ctx value => .inr ⟨_, rfl, execCtxEnableWrite_keeps r ctx value s (.refl s) rfl⟩
  | .lscTableWrite r ctx flags value => .inr ⟨_, rfl, execLscTableWrite_keeps r ctx flags value s (.refl s) rfl⟩
  | .table1dWrite r ctx rend tone flags value => .inr ⟨_, rfl, execTable1dWrite_keeps r ctx rend tone flags value s (.refl s) rfl⟩
  | .scalerTableWrite r ctx rend flags value => .inr ⟨_, rfl, execScalerTableWrite_keeps r ctx rend flags value s (.refl s) rfl⟩
  | .lut3dWrite r ctx rend flags value => .inr ⟨_, rfl, execLut3dWrite_keeps r ctx rend flags value s (.refl s) rfl⟩
  | .lutPendingLoadDone ctx rend => .inr ⟨_, rfl, execLutPendingLoadDone_keeps ctx rend s (.refl s) rfl⟩
  | .sensorDescWrite r port flags value => .inr ⟨_, rfl, execSensorDescWrite_keeps r port flags value s (.refl s) rfl⟩
  | .sensorModeWrite r port value => .inr ⟨_, rfl, execSensorModeWrite_keeps r port value s (.refl s) rfl⟩
  | .modeSequenceDone port => .inr ⟨_, rfl, execModeSequenceDone_keeps port s (.refl s) rfl⟩
  | .modeSequenceRetry port => .inr ⟨_, rfl, execModeSequenceRetry_keeps port s (.refl s) rfl⟩
  | .exposeRequest r payload => .inr ⟨_, rfl, execExposeRequest_keeps r payload s (.refl s) rfl⟩
  | .writeWindowOpen port => .inr ⟨_, rfl, execWriteWindowOpen_keeps port s (.refl s) rfl⟩
  | .writeSetComplete port => .inr ⟨_, rfl, execWriteSetComplete_keeps port s (.refl s) rfl⟩
  | .sequenceWaitEnd port => .inr ⟨_, rfl, execSequenceWaitEnd_keeps port s (.refl s) rfl⟩
  | .i2cEnableWrite r bus value => .inr ⟨_, rfl, execI2cEnableWrite_keeps r bus value s (.refl s) rfl⟩
  | .xferDescWrite r bus flags value => .inr ⟨_, rfl, execXferDescWrite_keeps r bus flags value s (.refl s) rfl⟩
  | .i2cLineTestDone bus sclLow drivenHigh shorted sdaLow => .inr ⟨_, rfl, execI2cLineTestDone_keeps bus sclLow drivenHigh shorted sdaLow s (.refl s) rfl⟩
  | .i2cClearingDone bus released => .inr ⟨_, rfl, execI2cClearingDone_keeps bus released s (.refl s) rfl⟩
  | .i2cFaultRetry bus => .inr ⟨_, rfl, execI2cFaultRetry_keeps bus s (.refl s) rfl⟩
  | .i2cBusFree bus => .inr ⟨_, rfl, execI2cBusFree_keeps bus s (.refl s) rfl⟩
  | .i2cTransactionDone bus nackAddr nackData acked data => .inr ⟨_, rfl, execI2cTransactionDone_keeps bus nackAddr nackData acked data s (.refl s) rfl⟩
  | .i2cArbLost bus place acked data => .inr ⟨_, rfl, execI2cArbLost_keeps bus place acked data s (.refl s) rfl⟩
  | .i2cBusError bus acked => .inr ⟨_, rfl, execI2cBusError_keeps bus acked s (.refl s) rfl⟩
  | .i2cOtherStart bus => .inr ⟨_, rfl, execI2cOtherStart_keeps bus s (.refl s) rfl⟩
  | .i2cSclTimeout bus acked => .inr ⟨_, rfl, execI2cSclTimeout_keeps bus acked s (.refl s) rfl⟩
  | .i2cSdaLowTimeout bus => .inr ⟨_, rfl, execI2cSdaLowTimeout_keeps bus s (.refl s) rfl⟩
  | .i2cDriveFail bus acked => .inr ⟨_, rfl, execI2cDriveFail_keeps bus acked s (.refl s) rfl⟩
  | .i2cPoll bus => .inr ⟨_, rfl, execI2cPoll_keeps bus s (.refl s) rfl⟩
  | .i2cPollTimeout bus => .inr ⟨_, rfl, execI2cPollTimeout_keeps bus s (.refl s) rfl⟩
  | .headEnableWrite r head value => .inr ⟨_, rfl, execHeadEnableWrite_keeps r head value s (.refl s) rfl⟩
  | .hpdRise head caps => .inr ⟨_, rfl, execHpdRise_keeps head caps s (.refl s) rfl⟩
  | .hpdLowTimeout head => .inr ⟨_, rfl, execHpdLowTimeout_keeps head s (.refl s) rfl⟩
  | .hpdIrq head linkFailure => .inr ⟨_, rfl, execHpdIrq_keeps head linkFailure s (.refl s) rfl⟩
  | .linkTrainingDone head works => .inr ⟨_, rfl, execLinkTrainingDone_keeps head works s (.refl s) rfl⟩
  | .displayFrameStart head phaseErr => .inr ⟨_, rfl, execDisplayFrameStart_keeps head phaseErr s (.refl s) rfl⟩
  | .displayLatchPoint head => .inr ⟨_, rfl, execDisplayLatchPoint_keeps head s (.refl s) rfl⟩
  | .displayLineStart head line => .inr ⟨_, rfl, execDisplayLineStart_keeps head line s (.refl s) rfl⟩
  | .layerUnderflow head layer line x => .inr ⟨_, rfl, execLayerUnderflow_keeps head layer line x s (.refl s) rfl⟩
  | .ethEnableWrite r port mode value => .inr ⟨_, rfl, execEthEnableWrite_keeps r port mode value s (.refl s) rfl⟩
  | .ethLockAchieved port => .inr ⟨_, rfl, execEthLockAchieved_keeps port s (.refl s) rfl⟩
  | .ethTrainingTimeout port => .inr ⟨_, rfl, execEthTrainingTimeout_keeps port s (.refl s) rfl⟩
  | .ethLinkLoss port uncorrected => .inr ⟨_, rfl, execEthLinkLoss_keeps port uncorrected s (.refl s) rfl⟩
  | .pfcPauseRx port priority quanta => .inr ⟨_, rfl, execPfcPauseRx_keeps port priority quanta s (.refl s) rfl⟩
  | .pfcStorm port => .inr ⟨_, rfl, execPfcStorm_keeps port s (.refl s) rfl⟩
  | .pfcRxBufferThreshold port above => .inr ⟨_, rfl, execPfcRxBufferThreshold_keeps port above s (.refl s) rfl⟩
  | .cnpRx qp => .inr ⟨_, rfl, execCnpRx_keeps qp s (.refl s) rfl⟩
  | .cnpRateRecovery qp => .inr ⟨_, rfl, execCnpRateRecovery_keeps qp s (.refl s) rfl⟩
  | .ecnMarkedRx qp => .inr ⟨_, rfl, execEcnMarkedRx_keeps qp s (.refl s) rfl⟩
  | .bufferServiceConnect port vlan qpn mtu data => .inr ⟨_, rfl, execBufferServiceConnect_keeps port vlan qpn mtu data s (.refl s) rfl⟩
  | .senderAlignmentPoint n => .inr ⟨_, rfl, execSenderAlignmentPoint_keeps n s (.refl s) rfl⟩
  | .st2110AudioRxPacket n path vlan seq stamp payload => .inr ⟨_, rfl, execSt2110AudioRxPacket_keeps n path vlan seq stamp payload s (.refl s) rfl⟩
  | .ptpMessageRx port vlan bytes => .inr ⟨_, rfl, execPtpMessageRx_keeps port vlan bytes s (.refl s) rfl⟩
  | .ptpAnnounceTimeout => .inr ⟨_, rfl, execPtpAnnounceTimeout_keeps s (.refl s) rfl⟩
  | .timeSetWrite r value => .inr ⟨_, rfl, execTimeSetWrite_keeps r value s (.refl s) rfl⟩
  | .fsyncEdge n rising => .inr ⟨_, rfl, execFsyncEdge_keeps n rising s (.refl s) rfl⟩
  | .fsyncStop n => .inr ⟨_, rfl, execFsyncStop_keeps n s (.refl s) rfl⟩
  | .ringEnableWrite r value => .inr ⟨_, rfl, execRingEnableWrite_keeps r value s (.refl s) rfl⟩
  | .ringBlockLock port => .inr ⟨_, rfl, execRingBlockLock_keeps port s (.refl s) rfl⟩
  | .ringTickRx port tick lo hi ps => .inr ⟨_, rfl, execRingTickRx_keeps port tick lo hi ps s (.refl s) rfl⟩
  | .ringEventRx port block => .inr ⟨_, rfl, execRingEventRx_keeps port block s (.refl s) rfl⟩
  | .ringDelayReqRx port block turnaround => .inr ⟨_, rfl, execRingDelayReqRx_keeps port block turnaround s (.refl s) rfl⟩
  | .ringDelayRespRx port block roundTrip => .inr ⟨_, rfl, execRingDelayRespRx_keeps port block roundTrip s (.refl s) rfl⟩
  | .ringStatusRx port block child => .inr ⟨_, rfl, execRingStatusRx_keeps port block child s (.refl s) rfl⟩
  | .ringPeriodicSend => .inr ⟨_, rfl, execRingPeriodicSend_keeps s (.refl s) rfl⟩
  | .ringLinkLoss port headerErrors => .inr ⟨_, rfl, execRingLinkLoss_keeps port headerErrors s (.refl s) rfl⟩
  | .ringEventSend c => .inr ⟨_, rfl, execRingEventSend_keeps c s (.refl s) rfl⟩
  | .st2110PacketSend n => .inr ⟨_, rfl, execSt2110PacketSend_keeps n s (.refl s) rfl⟩
  | .ptpIntervalSend port kind => .inr ⟨_, rfl, execPtpIntervalSend_keeps port kind s (.refl s) rfl⟩
  | .localAckTimeout qp progress => .inr ⟨_, rfl, execLocalAckTimeout_keeps qp progress s (.refl s) rfl⟩
  | .arpNdpIcmpRx port vlan kind address data => .inr ⟨_, rfl, execArpNdpIcmpRx_keeps port vlan kind address data s (.refl s) rfl⟩
  | .mediaMount => .inr ⟨_, rfl, execMediaMount_keeps s (.refl s) rfl⟩
  | .mediaFormatWrite r flags value => .inr ⟨_, rfl, execMediaFormatWrite_keeps r flags value s (.refl s) rfl⟩
  | .mediaFormatDone => .inr ⟨_, rfl, execMediaFormatDone_keeps s (.refl s) rfl⟩
  | .mediaRebuildWrite r value => .inr ⟨_, rfl, execMediaRebuildWrite_keeps r value s (.refl s) rfl⟩
  | .mediaRebuildDone => .inr ⟨_, rfl, execMediaRebuildDone_keeps s (.refl s) rfl⟩
  | .clipStart r payload => .inr ⟨_, rfl, execClipStart_keeps r payload s (.refl s) rfl⟩
  | .clipStop r payload => .inr ⟨_, rfl, execClipStop_keeps r payload s (.refl s) rfl⟩
  | .clipDeleteWrite r value => .inr ⟨_, rfl, execClipDeleteWrite_keeps r value s (.refl s) rfl⟩
  | .clipMetaWrite r slot flags value => .inr ⟨_, rfl, execClipMetaWrite_keeps r slot flags value s (.refl s) rfl⟩
  | .videoChunkStart port => .inr ⟨_, rfl, execVideoChunkStart_keeps port s (.refl s) rfl⟩
  | .videoChunkWritten port => .inr ⟨_, rfl, execVideoChunkWritten_keeps port s (.refl s) rfl⟩
  | .recorderCommitPoint => .inr ⟨_, rfl, execRecorderCommitPoint_keeps s (.refl s) rfl⟩
  | .recorderCommitDone => .inr ⟨_, rfl, execRecorderCommitDone_keeps s (.refl s) rfl⟩
  | .memberTimeout port => .inr ⟨_, rfl, execMemberTimeout_keeps port s (.refl s) rfl⟩
  | .memberFail port cause => .inr ⟨_, rfl, execMemberFail_keeps port cause s (.refl s) rfl⟩
  | .ssdPresenceChange port info => .inr ⟨_, rfl, execSsdPresenceChange_keeps port info s (.refl s) rfl⟩
  | .nvmfAdminConnect port vlan mtu cid discovery sqsize kato hostNqn hostId => .inr ⟨_, rfl, execNvmfAdminConnect_keeps port vlan mtu cid discovery sqsize kato hostNqn hostId s (.refl s) rfl⟩
  | .nvmfIoConnect port vlan mtu cid cntlid qid sqsize => .inr ⟨_, rfl, execNvmfIoConnect_keeps port vlan mtu cid cntlid qid sqsize s (.refl s) rfl⟩
  | .nvmfPropertyGet cntlid cid offset => .inr ⟨_, rfl, execNvmfPropertyGet_keeps cntlid cid offset s (.refl s) rfl⟩
  | .nvmfPropertySet cntlid cid offset value => .inr ⟨_, rfl, execNvmfPropertySet_keeps cntlid cid offset value s (.refl s) rfl⟩
  | .nvmfDisconnect cntlid qid cid => .inr ⟨_, rfl, execNvmfDisconnect_keeps cntlid qid cid s (.refl s) rfl⟩
  | .nvmeGetLogPage cntlid cid lid offset count => .inr ⟨_, rfl, execNvmeGetLogPage_keeps cntlid cid lid offset count s (.refl s) rfl⟩
  | .nvmeIdentify cntlid cid cns nsid => .inr ⟨_, rfl, execNvmeIdentify_keeps cntlid cid cns nsid s (.refl s) rfl⟩
  | .nvmeAbort cntlid cid sqid target => .inr ⟨_, rfl, execNvmeAbort_keeps cntlid cid sqid target s (.refl s) rfl⟩
  | .nvmeSetFeatures cntlid cid fid value => .inr ⟨_, rfl, execNvmeSetFeatures_keeps cntlid cid fid value s (.refl s) rfl⟩
  | .nvmeGetFeatures cntlid cid fid sel => .inr ⟨_, rfl, execNvmeGetFeatures_keeps cntlid cid fid sel s (.refl s) rfl⟩
  | .nvmeAsyncEventRequest cntlid cid => .inr ⟨_, rfl, execNvmeAsyncEventRequest_keeps cntlid cid s (.refl s) rfl⟩
  | .nvmeFirmwareCommit cntlid cid ca slot => .inr ⟨_, rfl, execNvmeFirmwareCommit_keeps cntlid cid ca slot s (.refl s) rfl⟩
  | .nvmeFirmwareImageDownload cntlid cid offset data => .inr ⟨_, rfl, execNvmeFirmwareImageDownload_keeps cntlid cid offset data s (.refl s) rfl⟩
  | .nvmeKeepAlive cntlid cid => .inr ⟨_, rfl, execNvmeKeepAlive_keeps cntlid cid s (.refl s) rfl⟩
  | .nvmeInvalidOpcode cntlid qid cid opcode => .inr ⟨_, rfl, execNvmeInvalidOpcode_keeps cntlid qid cid opcode s (.refl s) rfl⟩
  | .nvmeRead cntlid qid cid nsid slba blocks fua => .inr ⟨_, rfl, execNvmeRead_keeps cntlid qid cid nsid slba blocks fua s (.refl s) rfl⟩
  | .nvmeWrite cntlid qid cid nsid slba blocks fua data => .inr ⟨_, rfl, execNvmeWrite_keeps cntlid qid cid nsid slba blocks fua data s (.refl s) rfl⟩
  | .nvmeWriteZeroes cntlid qid cid nsid slba blocks fua => .inr ⟨_, rfl, execNvmeWriteZeroes_keeps cntlid qid cid nsid slba blocks fua s (.refl s) rfl⟩
  | .nvmeFlush cntlid qid cid nsid => .inr ⟨_, rfl, execNvmeFlush_keeps cntlid qid cid nsid s (.refl s) rfl⟩
  | .nvmeCommandComplete cntlid qid cid dataError => .inr ⟨_, rfl, execNvmeCommandComplete_keeps cntlid qid cid dataError s (.refl s) rfl⟩
  | .pacerRelease port => .inr ⟨_, rfl, execPacerRelease_keeps port s (.refl s) rfl⟩
  | .katoExpiry cntlid => .inr ⟨_, rfl, execKatoExpiry_keeps cntlid s (.refl s) rfl⟩
  | .nvmfQueuePairLoss cntlid qid => .inr ⟨_, rfl, execNvmfQueuePairLoss_keeps cntlid qid s (.refl s) rfl⟩
  | .targetEnableWrite r value => .inr ⟨_, rfl, execTargetEnableWrite_keeps r value s (.refl s) rfl⟩
  | .audioPortEnableWrite r port value => .inr ⟨_, rfl, execAudioPortEnableWrite_keeps r port value s (.refl s) rfl⟩
  | .audRingWrite r port flags value => .inr ⟨_, rfl, execAudRingWrite_keeps r port flags value s (.refl s) rfl⟩
  | .slotMaskWrite r port value => .inr ⟨_, rfl, execSlotMaskWrite_keeps r port value s (.refl s) rfl⟩
  | .muteWrite r port value => .inr ⟨_, rfl, execMuteWrite_keeps r port value s (.refl s) rfl⟩
  | .applPositionWrite r port value => .inr ⟨_, rfl, execApplPositionWrite_keeps r port value s (.refl s) rfl⟩
  | .familySourceWrite r family value => .inr ⟨_, rfl, execFamilySourceWrite_keeps r family value s (.refl s) rfl⟩
  | .audioSampleFrame port slots => .inr ⟨_, rfl, execAudioSampleFrame_keeps port slots s (.refl s) rfl⟩
  | .audioMuteTimeout port => .inr ⟨_, rfl, execAudioMuteTimeout_keeps port s (.refl s) rfl⟩
  | .audioPeriodBoundary port => .inr ⟨_, rfl, execAudioPeriodBoundary_keeps port s (.refl s) rfl⟩
  | .audioFsEdge port offset drift => .inr ⟨_, rfl, execAudioFsEdge_keeps port offset drift s (.refl s) rfl⟩
  | .audioFsLost port => .inr ⟨_, rfl, execAudioFsLost_keeps port s (.refl s) rfl⟩
  | .wordclockEdge family phaseErr => .inr ⟨_, rfl, execWordclockEdge_keeps family phaseErr s (.refl s) rfl⟩
  | .wordclockStop family => .inr ⟨_, rfl, execWordclockStop_keeps family s (.refl s) rfl⟩
  | .familyLockAchieved family => .inr ⟨_, rfl, execFamilyLockAchieved_keeps family s (.refl s) rfl⟩
  | .familySlip family frames => .inr ⟨_, rfl, execFamilySlip_keeps family frames s (.refl s) rfl⟩
  | .dramTrainingDone eyes => .inr ⟨_, rfl, execDramTrainingDone_keeps eyes s (.refl s) rfl⟩
  | .dramRetrainDone ch eye => .inr ⟨_, rfl, execDramRetrainDone_keeps ch eye s (.refl s) rfl⟩
  | .dramChannelFail ch cause => .inr ⟨_, rfl, execDramChannelFail_keeps ch cause s (.refl s) rfl⟩
  | .dramCorrectedRead addr requester symbols => .inr ⟨_, rfl, execDramCorrectedRead_keeps addr requester symbols s (.refl s) rfl⟩
  | .dramUncorrectable addr requester cause symbols => .inr ⟨_, rfl, execDramUncorrectable_keeps addr requester cause symbols s (.refl s) rfl⟩
  | .dramRefreshDue ch sub rank index hits => .inr ⟨_, rfl, execDramRefreshDue_keeps ch sub rank index hits s (.refl s) rfl⟩
  | .dramMr4Poll ch doubled temp => .inr ⟨_, rfl, execDramMr4Poll_keeps ch doubled temp s (.refl s) rfl⟩
  | .dramAlertN ch => .inr ⟨_, rfl, execDramAlertN_keeps ch s (.refl s) rfl⟩
  | .diagAddressWrite r address => .inr ⟨_, rfl, execDiagAddressWrite_keeps r address s (.refl s) rfl⟩
  | .dramCommandSelect ch sub reqs => .inr ⟨_, rfl, execDramCommandSelect_keeps ch sub reqs s (.refl s) rfl⟩
  | .eventSourceFire sources => .inr ⟨_, rfl, execEventSourceFire_keeps sources s (.refl s) rfl⟩
  | .timerExpiry t => .inr ⟨_, rfl, execTimerExpiry_keeps t s (.refl s) rfl⟩
  | .evioInputEdge e rising => .inr ⟨_, rfl, execEvioInputEdge_keeps e rising s (.refl s) rfl⟩
  | .evioPulseEnd e => .inr ⟨_, rfl, execEvioPulseEnd_keeps e s (.refl s) rfl⟩
  | .swFireWrite r value => .inr ⟨_, rfl, execSwFireWrite_keeps r value s (.refl s) rfl⟩
  | .eventFireWrite r value => .inr ⟨_, rfl, execEventFireWrite_keeps r value s (.refl s) rfl⟩
  | .eventFlagClearWrite r flag word value => .inr ⟨_, rfl, execEventFlagClearWrite_keeps r flag word value s (.refl s) rfl⟩
  | .srcEnableWrite r src value => .inr ⟨_, rfl, execSrcEnableWrite_keeps r src value s (.refl s) rfl⟩
  | .wakeNotifyAction => .inr ⟨_, rfl, execWakeNotifyAction_keeps s (.refl s) rfl⟩
  | .wakeProfileAction => .inr ⟨_, rfl, execWakeProfileAction_keeps s (.refl s) rfl⟩
  | .thermalCalibration diode monitors => .inr ⟨_, rfl, execThermalCalibration_keeps diode monitors s (.refl s) rfl⟩
  | .thermalSample diode diodeFault monitors powerMw => .inr ⟨_, rfl, execThermalSample_keeps diode diodeFault monitors powerMw s (.refl s) rfl⟩
  | .capStepUp => .inr ⟨_, rfl, execCapStepUp_keeps s (.refl s) rfl⟩
  | .lifeMeterSample => .inr ⟨_, rfl, execLifeMeterSample_keeps s (.refl s) rfl⟩
  | .counterReset r g => .inr ⟨_, rfl, execCounterReset_keeps r g s (.refl s) rfl⟩
  | .obsRead r groups => .inr ⟨_, rfl, execObsRead_keeps r groups s (.refl s) rfl⟩
  | .obsSubscribe r types rate => .inr ⟨_, rfl, execObsSubscribe_keeps r types rate s (.refl s) rfl⟩
  | .obsUnsubscribe r => .inr ⟨_, rfl, execObsUnsubscribe_keeps r s (.refl s) rfl⟩
  | .traceRecordProduced type source payload => .inr ⟨_, rfl, execTraceRecordProduced_keeps type source payload s (.refl s) rfl⟩
  | .traceSyncInterval => .inr ⟨_, rfl, execTraceSyncInterval_keeps s (.refl s) rfl⟩
  | .traceLostRecord dest => .inr ⟨_, rfl, execTraceLostRecord_keeps dest s (.refl s) rfl⟩
  | .traceSubscriptionSend dest count => .inr ⟨_, rfl, execTraceSubscriptionSend_keeps dest count s (.refl s) rfl⟩
  | .bankSupplyReturn bank => .inr ⟨_, rfl, execBankSupplyReturn_keeps bank s (.refl s) rfl⟩

theorem exec_keeps {c : Instr} {s t : State} (h : exec c s = .next t) : Keeps s t := by
  obtain ⟨mv, rfl, hmv⟩ | ⟨u, hu, hkeeps⟩ := exec_completes c s
  · rw [exec_powerOnSuppliesValid_beyond s hmv] at h
    cases h
  · cases hu.symm.trans h
    exact hkeeps

/-- Any state a step answers keeps what every operation keeps, but for the command taken from the queue. -/
theorem step_keeps {s t : State} (h : step s = .next t) : Keeps { s with pending := s.pending.tail } t := by
  unfold step at h
  split at h
  next hnone =>
    cases h
    rw [hnone, List.tail_nil, ← hnone]
    exact State.idle_keeps s (.refl s)
  next c rest hfront =>
    rw [hfront]
    exact exec_keeps h

/-- Settles O2: what every operation keeps includes the canonical form of the parameter file and of the buffers' memory. -/
theorem everyStepKeepsTheStateSound : Obligations.EveryStepKeepsTheStateSound := by
  rintro s t ⟨hregs, hmem⟩ hstep
  have hkeeps := step_keeps hstep
  exact ⟨hkeeps.regs hregs, hkeeps.mem hmem⟩

/-- Settles O3: every command but supplies beyond the absolute maximum completes, and keeps the queue and the clock's order. -/
theorem commandsLeaveTheQueueAndTheClock : Obligations.CommandsLeaveTheQueueAndTheClock := by
  intro c s
  obtain ⟨mv, rfl, hmv⟩ | ⟨t, ht, hkeeps⟩ := exec_completes c s
  · exact .inl ⟨mv, rfl, hmv, exec_powerOnSuppliesValid_beyond s hmv⟩
  · exact .inr ⟨t, ht, hkeeps.pending, hkeeps.clock⟩

/-- The time that an idle step lets pass. -/
theorem setClock_only (s : State) (n : Nat) : OnlyChanges [.clock] [] s { s with clock := n } := by
  refine ⟨rfl, fun p hp => ?_, fun _ _ => rfl⟩
  cases p with
  | clock => simp at hp
  | mem => exact fun _ => rfl
  | buffers | qps => exact ⟨rfl, rfl⟩
  | nmp => exact ⟨rfl, rfl, rfl, rfl, rfl⟩
  | _ => rfl

/-- An idle step lets 2 ns pass, then the trace port sends what it has (log 1). -/
theorem idle_spec (s : State) : s.idle.clock = s.clock + 2 ∧ OnlyChanges [.clock, .obs, .out] [] s s.idle := by
  have hdrain := drainPort_only { s with clock := s.clock + 2 }
  exact ⟨hdrain.2.1 .clock (by simp), ((setClock_only s _).trans hdrain).mono (by simp) (by simp)⟩

/-- Settles O1: by the two cases of the queue. -/
theorem aStepRunsTheFrontCommand : Obligations.AStepRunsTheFrontCommand := by
  refine ⟨fun _ _ => rfl, fun s hempty => ⟨s.idle, ?_, idle_spec s⟩⟩
  rw [step, hempty]

end Sys2Proof.Machine

/-! Parameters and counters (R77, R80, R487): what one count leaves at an event counter and at a byte counter, and O5. -/

namespace Sys2Proof.Machine

theorem countUp_saturated {v : Nat} (n : Nat) (h : bit v 63 = true) : countUp v n = v := if_pos h

/-- An event counter below its largest count counts on, and saturates at it (R487). -/
theorem countUp_below {v : Nat} (n : Nat) (h : v < 2 ^ 48 - 1) :
    countUp v n = if v + n < 2 ^ 48 - 1 then v + n else 2 ^ 48 - 1 + 2 ^ 63 := by
  have hsat : bit v 63 = false := by
    rw [bit, Nat.div_eq_of_lt (by omega)]
    rfl
  have hcount : bits v 47 0 = v := by
    rw [bits, Nat.pow_zero, Nat.div_one]
    exact Nat.mod_eq_of_lt (by omega)
  rw [countUp, hsat, hcount]
  rfl

/-- An event counter reads what it counts up to (R487). -/
theorem rd_countBy_same {s : State} {id : Nat} {p : Param} (n : Nat) (hp : paramOf id = some p) (hfixed : p.fixed = false) (ht : p.type = .u64) :
    (s.countBy id n).rd id = countUp (s.rd id) n := by
  rw [State.countBy, State.upd, rd_wr_same hp hfixed, ht]
  exact Nat.mod_eq_of_lt (countUp_lt_word n (rd_lt_word s id))

/-- A byte counter reads the sum, which wraps (R487). -/
theorem rd_addBytes_same {s : State} {id : Nat} {p : Param} (n : Nat) (hp : paramOf id = some p) (hfixed : p.fixed = false) (ht : p.type = .u64) :
    (s.addBytes id n).rd id = (s.rd id + n) % 2 ^ 64 := by
  rw [State.addBytes, State.upd, rd_wr_same hp hfixed, ht, bytesUp]
  exact Nat.mod_mod _ _

theorem wr_sound {s : State} (id v : Nat) (h : s.Sound) : (s.wr id v).Sound :=
  have hkeeps := State.wr_keeps s id v (.refl s)
  ⟨hkeeps.regs h.1, hkeeps.mem h.2⟩

theorem wr_unwritable {s : State} {id v : Nat} (h : paramOf id = none ∨ ∃ p, paramOf id = some p ∧ p.fixed = true) : s.wr id v = s :=
  wr_discarded fun q hq => by
    obtain hnone | ⟨p, hp, hfixed⟩ := h
    · exact absurd (hnone.symm.trans hq) (by simp)
    · exact Option.some.inj (hp.symm.trans hq) ▸ hfixed

/-- Settles O5: one write is `rd_wr_same` and `wr_only`, one count `countUp_below`. -/
theorem parametersAndCountersHold : Obligations.ParametersAndCountersHold := by
  refine ⟨fun id v s => ⟨fun p => rd_wr_same, wr_unwritable, wr_only s id v, wr_sound id v⟩, ?_⟩
  intro id n p s hp hfixed ht v
  refine ⟨fun hsat => ?_, fun hbelow => ?_, rd_addBytes_same n hp hfixed ht, countBy_only s id n, addBytes_only s id n⟩
  · rw [rd_countBy_same n hp hfixed ht, countUp_saturated n hsat]
  · rw [rd_countBy_same n hp hfixed ht, countUp_below n hbelow]

end Sys2Proof.Machine

/-! Reading, staging and describing parameters (R44, R76, R78, R81): what each request is answered, and O13. -/

namespace Sys2Proof.Machine

/-! ## Replies to a request that Negor takes -/

/-- A reply that can grow beyond one message: it leaves as it is, or as NO_RESOURCE without payload (log 149). -/
theorem replyLong_replied (s : State) (r : Req) (op st : Nat) (pl : List Byte) :
    if pl.length ≤ 90112 then (s.replyLong r op st pl).replied r op st pl else (s.replyLong r op st pl).replied r op Status.NO_RESOURCE [] := by
  unfold State.replyLong messageLimit
  split <;> exact replied_reply ..

theorem heardReplyLong_only (s : State) (r : Req) (op st : Nat) (pl : List Byte) :
    OnlyChanges [.out, .free, .sessions] txIds s ((s.heard r).replyLong r op st pl) := by
  unfold State.replyLong
  split <;> exact heardReply_only ..

/-! ## PARAM_GET (R76) -/

section
variable {s : State} {r : Req}

theorem exec_paramGet (ht : s.takes r 0x10) (es : List Entry) :
    exec (.paramGet r es) s = .next ((s.heard r).replyLong r 0x10 (firstBad (es.map fun e => ((s.heard r).getEntry r.sess e).1))
      (leBytes 4 es.length ++ es.flatMap fun e => Entry.bytes ((s.heard r).getEntry r.sess e).2)) := by
  show Host.Outcome.next (s.request r 0x10 _) = _
  rw [request_of_takes _ ht]
  simp only [entriesBytes, List.map_map, List.length_map, List.flatMap_map, Function.comp_def]

theorem getEntry_inForce {s : State} {sess id : Nat} {p : Param} (hp : paramOf id = some p) (hread : p.access ≠ .wo)
    (hnumber : p.type ≠ .blob) (hstream : idGroup id ≠ 0x41) :
    s.getEntry sess ⟨id, 0, 0, []⟩ = (Status.OK, ⟨id, p.type.code, Status.OK, valueBytes p.type (s.readNum id)⟩) := by
  cases hx : s.session sess <;> simp [State.getEntry, hp, hread, hstream, hx, State.readValue, hnumber]

theorem getEntry_unknown (s : State) (sess : Nat) {id : Nat} (hp : paramOf id = none) :
    s.getEntry sess ⟨id, 0, 0, []⟩ = (Status.BAD_PARAM, ⟨id, 0, Status.BAD_PARAM, []⟩) := by
  simp only [State.getEntry, hp]

theorem valueBytes_length (t : PType) (v : Nat) : (valueBytes t v).length ≤ 8 := by
  have hwidth := t.width_le
  rw [valueBytes, leBytes_length]
  omega

/-- An entry has a header of 8 bytes and is padded to 4 bytes (R76). -/
theorem entryBytes_length (e : Entry) : (Entry.bytes e).length ≤ e.value.length + 12 := by
  simp [Entry.bytes, padTo, zeroBytes, alignUp, ceilDiv]
  omega

theorem paramGet_answers (ht : s.takes r 0x10) (es : List Entry) :
    let pl := leBytes 4 es.length ++ es.flatMap fun e => Entry.bytes ((s.heard r).getEntry r.sess e).2
    ∃ t, exec (.paramGet r es) s = .next t ∧
      (if pl.length ≤ 90112 then t.replied r 0x10 (firstBad (es.map fun e => ((s.heard r).getEntry r.sess e).1)) pl
        else t.replied r 0x10 Status.NO_RESOURCE []) ∧
      OnlyChanges [.out, .free, .sessions] txIds s t :=
  ⟨_, exec_paramGet ht es, replyLong_replied .., heardReplyLong_only ..⟩

/-- One entry of a number, or of no parameter, always fits a message. -/
theorem paramGet_one (ht : s.takes r 0x10) {e g : Entry} {st : Nat} (he : (s.heard r).getEntry r.sess e = (st, g)) (hshort : g.value.length ≤ 8) :
    ∃ t, exec (.paramGet r [e]) s = .next t ∧ t.replied r 0x10 st (leBytes 4 1 ++ Entry.bytes g) := by
  obtain ⟨t, hexec, hreply, -⟩ := paramGet_answers ht [e]
  have hst : firstBad [st] = st := by
    unfold firstBad
    split
    next h => exact h.symm
    next => rfl
  have hlen := entryBytes_length g
  simp only [List.map_cons, List.map_nil, List.flatMap_cons, List.flatMap_nil, List.append_nil, he, hst, List.length_cons, List.length_nil,
    List.length_append, leBytes_length] at hreply
  rw [if_pos (by omega)] at hreply
  exact ⟨t, hexec, hreply⟩

/-! ## PARAM_SET and PARAM_DISCARD (R73, R76, R78) -/

/-- The staged set of an open session is replaced, and nothing else. -/
theorem setStaged_spec {s : State} {sess : Nat} {x : Session} (hx : s.session sess = some x) (l : List Staged) :
    (s.setStaged sess l).stagedSet sess = l ∧ OnlyChanges [.sessions] [] s (s.setStaged sess l) := by
  simp only [State.setStaged, hx]
  exact ⟨by simp [State.stagedSet], setSession_only ..⟩

theorem heard_session {s : State} {r : Req} {x : Session} (hx : s.session r.sess = some x) :
    (s.heard r).session r.sess = some { x with lastRequest := s.clock } := by
  simp [State.heard, hx]

theorem paramSet_stages (ht : s.takes r 0x11) (es : List Entry) :
    let u := s.heard r
    let staged := es.foldl (fun l e => stageOne l (u.stagedOf r.sess e)) (s.stagedSet r.sess)
    let bad := firstBad (es.map (u.stageStatus r.sess))
    ∃ t, exec (.paramSet r es) s = .next t ∧ OnlyChanges [.out, .free, .sessions] txIds s t ∧
      t.stagedSet r.sess = (if bad = Status.OK ∧ staged.length ≤ 512 then staged else s.stagedSet r.sess) ∧
      ∃ pl, t.replied r 0x11 (if bad ≠ Status.OK then bad else if 512 < staged.length then Status.NO_RESOURCE else Status.OK) pl := by
  intro u staged bad
  obtain ⟨x, hx⟩ := Option.isSome_iff_exists.1 ht.2.1
  have hkept (st : Nat) (pl : List Byte) : (u.reply r 0x11 st pl).stagedSet r.sess = s.stagedSet r.sess := by
    rw [reply_stagedSet, heard_stagedSet]
  simp only [show exec (.paramSet r es) s = _ from congrArg Host.Outcome.next (request_of_takes _ ht), heard_stagedSet]
  refine ⟨_, rfl, ?_⟩
  by_cases hbad : bad = Status.OK
  · by_cases hroom : staged.length ≤ 512
    · obtain ⟨hset, hframe⟩ := setStaged_spec (heard_session hx) staged
      have hroom' := Nat.not_lt.2 hroom
      rw [if_neg (not_not.2 hbad), if_neg hroom', if_pos ⟨hbad, hroom⟩, if_neg (not_not.2 hbad), if_neg hroom']
      refine ⟨(((heard_only s r).trans hframe).trans (reply_only ..)).mono (by simp) (by simp), ?_, _, replied_reply ..⟩
      rw [reply_stagedSet, hset]
    · have hfull := Nat.lt_of_not_le hroom
      rw [if_neg (not_not.2 hbad), if_pos hfull, if_neg fun h => hroom h.2, if_neg (not_not.2 hbad), if_pos hfull]
      exact ⟨heardReply_only .., hkept .., _, replied_reply ..⟩
  · rw [if_pos hbad, if_neg fun h => hbad h.1, if_pos hbad]
    exact ⟨heardReply_only .., hkept .., _, replied_reply ..⟩

theorem paramDiscard_empties (ht : s.takes r 0x13) :
    ∃ t, exec (.paramDiscard r) s = .next t ∧ t.stagedSet r.sess = [] ∧ t.replied r 0x13 Status.OK [] ∧
      OnlyChanges [.out, .free, .sessions] txIds s t := by
  obtain ⟨x, hx⟩ := Option.isSome_iff_exists.1 ht.2.1
  obtain ⟨hset, hframe⟩ := setStaged_spec (heard_session hx) []
  refine ⟨_, congrArg Host.Outcome.next (request_of_takes _ ht), ?_, replied_reply .., ?_⟩
  · rw [reply_stagedSet, hset]
  · exact (((heard_only s r).trans hframe).trans (reply_only ..)).mono (by simp) (by simp)

/-! ## PARAM_DESCRIBE and PLAN_QUERY (R44, R81) -/

theorem paramDescribe_answers (ht : s.takes r 0x14) (ids : List Nat) :
    ∃ t, exec (.paramDescribe r ids) s = .next t ∧
      (if (ids.flatMap descriptorOf).length ≤ 90112 then
        t.replied r 0x14 (if ids.all fun id => (paramOf id).isSome then Status.OK else Status.BAD_PARAM) (ids.flatMap descriptorOf)
        else t.replied r 0x14 Status.NO_RESOURCE []) ∧
      OnlyChanges [.out, .free, .sessions] txIds s t :=
  ⟨_, congrArg Host.Outcome.next (request_of_takes _ ht), replyLong_replied .., heardReplyLong_only ..⟩

theorem planQuery_answers (ht : s.takes r 0x30) :
    ∃ t records, exec (.planQuery r) s = .next t ∧ records.length = 12 ∧
      records = (s.heard r).resources ((s.heard r).profile.shedOrder.take (s.rd Tick.SHED_LEVEL)) (s.rd Tick.ACTIVE_CAP) ∧
      t.replied r 0x30 Status.OK
        (leBytes 4 (s.rd Tick.PLAN_GENERATION) ++ leBytes 4 (s.rd Tick.SHED_LEVEL) ++ records.flatMap Shortfall.bytes) ∧
      OnlyChanges [.out, .free, .sessions] txIds s t := by
  refine ⟨_, _, congrArg Host.Outcome.next (request_of_takes _ ht), rfl, rfl, ?_, heardReply_only ..⟩
  simp only [heard_rd]
  exact replied_reply ..

end

/-- Settles O13: each request by what it is answered. -/
theorem parametersAreReadStagedAndDescribed : Obligations.ParametersAreReadStagedAndDescribed := by
  refine ⟨fun r s ht => ⟨paramGet_answers ht, fun id p hp hread hnumber hstream => ?_, fun id hp => ?_⟩,
    fun r es s => ⟨fun ht => paramSet_stages ht es, paramDiscard_empties⟩,
    fun r ids s => ⟨fun ht => paramDescribe_answers ht ids, planQuery_answers⟩⟩
  · exact paramGet_one ht (getEntry_inForce hp hread hnumber hstream) (valueBytes_length ..)
  · exact paramGet_one ht (getEntry_unknown _ _ hp) (Nat.zero_le _)

end Sys2Proof.Machine

/-! Datagrams (R63 to R65, R70, R71): the counters of frames received, each reason to drop a datagram, what the SEQUENCE of a request decides, and
O16. -/

namespace Sys2Proof.Machine

/-! ## Event counters and frames received -/

/-- Whether an ID names an event counter (R487). -/
def isCounter (id : Nat) : Bool := (paramOf id).any fun p => !p.fixed && p.type == .u64

theorem rd_count_counter {id : Nat} (h : isCounter id = true) (s : State) : (s.count id).rd id = countUp (s.rd id) 1 := by
  obtain ⟨p, hp, hrow⟩ := (Option.any_eq_true _ _).1 h
  simp only [Bool.and_eq_true, Bool.not_eq_true', beq_iff_eq] at hrow
  exact rd_count_same hp hrow.1 hrow.2

theorem isCounter_dropCount {k : Nat} (hk : k < 8) : isCounter (Sys.NMP_DROP_COUNT k) = true := by
  revert k
  decide

theorem isCounter_rxCount (port : Fin 2) : isCounter (Sys.NMP_RX_COUNT port.val) = true := by
  revert port
  decide

/-- A frame received moves the two counters of its port (Table 12-9). -/
theorem rxFrame_only (s : State) (p : Nat) : OnlyChanges [.free] [Eth.RX_FRAMES p, Eth.RX_BYTES p] s (s.rxFrame p) :=
  (((draw_only s).trans (count_only s.draw.2 (Eth.RX_FRAMES p))).trans (addBytes_only _ (Eth.RX_BYTES p) _)).mono (by simp) (by simp)

/-- The addresses of a port depend on its own parameters alone (R63). -/
theorem ownAddress_congr {s t : State} {p : Nat} (hmac : t.rd (Eth.MAC_ADDRESS p) = s.rd (Eth.MAC_ADDRESS p))
    (hv4 : t.rd (Eth.IPV4_ADDRESS p) = s.rd (Eth.IPV4_ADDRESS p)) (hv6 : t.rdBlob (Eth.IPV6_ADDRESS p) = s.rdBlob (Eth.IPV6_ADDRESS p))
    (a : List Byte) : t.ownAddress p a = s.ownAddress p a := by
  simp only [State.ownAddress, State.linkLocal, hmac, hv4, hv6]

/-! ## Datagrams that are Negor's -/

/-- A datagram on a port is Negor's: Negor answers, and the datagram comes on the port's VLAN to one of the port's addresses (R63, log 150). -/
def State.hears (s : State) (port vlan : Nat) (dst : List Byte) : Prop :=
  s.negorAnswers = true ∧ vlan = s.rd (Eth.VLAN_ID port) ∧ s.ownAddress port dst = true

theorem rxFrame_hears (s : State) (port vlan : Nat) (dst : List Byte) : (s.rxFrame port).hears port vlan dst ↔ s.hears port vlan dst := by
  obtain ⟨-, hparts, hids⟩ := rxFrame_only s port
  have hpow : (s.rxFrame port).pow = s.pow := hparts .pow (by simp)
  have hown := ownAddress_congr (hids (Eth.MAC_ADDRESS port) (by simp [Eth.MAC_ADDRESS, Eth.RX_FRAMES, Eth.RX_BYTES]))
    (hids (Eth.IPV4_ADDRESS port) (by simp [Eth.IPV4_ADDRESS, Eth.RX_FRAMES, Eth.RX_BYTES])) (hparts (.blob (Eth.IPV6_ADDRESS port)) (by simp)) dst
  rw [State.hears, State.hears, State.negorAnswers, hpow, hown,
    hids (Eth.VLAN_ID port) (by simp [Eth.VLAN_ID, Eth.RX_FRAMES, Eth.RX_BYTES])]
  rfl

theorem unheard_iff (s : State) (port vlan : Nat) (dst : List Byte) :
    (s.negorAnswers = false ∨ vlan ≠ s.rd (Eth.VLAN_ID port) ∨ s.ownAddress port dst = false) ↔ ¬s.hears port vlan dst := by
  simp only [State.hears, not_and_or, Bool.not_eq_true]

theorem rxFrame_heard {s : State} {port vlan : Nat} {dst : List Byte} (h : s.hears port vlan dst) :
    ¬((s.rxFrame port).negorAnswers = false ∨ vlan ≠ (s.rxFrame port).rd (Eth.VLAN_ID port) ∨ (s.rxFrame port).ownAddress port dst = false) :=
  fun hun => (unheard_iff ..).1 hun ((rxFrame_hears ..).2 h)

theorem OnlyChanges.session {ps : List Part} {ids : List Nat} {s t : State} (h : OnlyChanges ps ids s t) (hp : .sessions ∉ ps) (sess : Nat) :
    t.session sess = s.session sess :=
  congrArg (tfind · sess) (h.2.1 .sessions hp : t.nmp.sessions = s.nmp.sessions)

@[simp] theorem rxFrame_session (s : State) (port sess : Nat) : (s.rxFrame port).session sess = s.session sess :=
  (rxFrame_only s port).session (by simp) sess

@[simp] theorem rxFrame_ownerKey (s : State) (port : Nat) : (s.rxFrame port).nmp.ownerKey = s.nmp.ownerKey := by
  obtain ⟨-, -, -, -, hkey⟩ := (rxFrame_only s port).2.1 .nmp (by simp)
  exact hkey

/-- A datagram has the length that its header gives, within one segment (R66). -/
def NmpHeader.fits (h : NmpHeader) (len : Nat) : Prop := len = h.length + 32 ∧ h.length ≤ 1408

theorem fits_iff (h : NmpHeader) (len : Nat) : (len ≠ h.length + 32 ∨ 1408 < h.length) ↔ ¬h.fits len := by
  rw [NmpHeader.fits, not_and_or, Nat.not_le]

theorem segment_of_fits {h : NmpHeader} {len : Nat} (hfits : h.fits len) : ¬(len ≠ h.length + 32 ∨ 1408 < h.length) :=
  fun hun => (fits_iff h len).1 hun hfits

section
variable {port : Fin 2} {vlan len : Nat} {dst bytes : List Byte} {s : State} (peer : Peer)

theorem exec_nmpDatagramRx_unheard (frag : Bool) (h : ¬s.hears port.val vlan dst) :
    exec (.nmpDatagramRx port vlan peer dst len frag bytes) s = .next (s.rxFrame port.val) := by
  simp only [exec, execNmpDatagramRx, if_pos ((unheard_iff ..).2 (mt (rxFrame_hears ..).1 h))]

variable (hheard : s.hears port.val vlan dst)
include hheard

theorem exec_nmpDatagramRx_fragment :
    exec (.nmpDatagramRx port vlan peer dst len true bytes) s = .next ((s.rxFrame port.val).drop 6) := by
  simp only [exec, execNmpDatagramRx, if_neg (rxFrame_heard hheard), if_true]

theorem exec_nmpDatagramRx_length (hfits : ¬(parseHeader bytes).fits len) :
    exec (.nmpDatagramRx port vlan peer dst len false bytes) s = .next ((s.rxFrame port.val).drop 0) := by
  simp only [exec, execNmpDatagramRx, if_neg (rxFrame_heard hheard), Bool.false_eq_true, if_false, if_pos ((fits_iff ..).2 hfits)]

variable (hfits : (parseHeader bytes).fits len)
include hfits

theorem exec_nmpDatagramRx_version (hversion : (parseHeader bytes).version ≠ 1) :
    exec (.nmpDatagramRx port vlan peer dst len false bytes) s = .next ((s.rxFrame port.val).drop 1) := by
  simp only [exec, execNmpDatagramRx, if_neg (rxFrame_heard hheard), Bool.false_eq_true, if_false, if_neg (segment_of_fits hfits), if_pos hversion]

variable (hversion : (parseHeader bytes).version = 1)
include hversion

theorem exec_nmpDatagramRx_header (hbad : (parseHeader bytes).bad = true) :
    exec (.nmpDatagramRx port vlan peer dst len false bytes) s = .next ((s.rxFrame port.val).drop 7) := by
  simp only [exec, execNmpDatagramRx, if_neg (rxFrame_heard hheard), Bool.false_eq_true, if_false, if_neg (segment_of_fits hfits), hversion,
    ne_eq, not_true, hbad, if_true]

variable (hbad : (parseHeader bytes).bad = false)
include hbad

/-- A SESSION_OPEN request whose tag does not verify (R65, R68). -/
theorem exec_nmpDatagramRx_openTag (hop : (parseHeader bytes).op = 1)
    (htag : nmpTag s.nmp.ownerKey (bytes.take (16 + (parseHeader bytes).length)) ≠ slice bytes (16 + (parseHeader bytes).length) 16) :
    exec (.nmpDatagramRx port vlan peer dst len false bytes) s =
      .next (((s.rxFrame port.val).drop 2).openRefused port.val peer (parseHeader bytes).seq Status.AUTH) := by
  simp only [exec, execNmpDatagramRx, if_neg (rxFrame_heard hheard), Bool.false_eq_true, if_false, if_neg (segment_of_fits hfits), hversion,
    ne_eq, not_true, hbad, hop, if_true, rxFrame_ownerKey, if_neg htag]

variable (hop : (parseHeader bytes).op ≠ 1)
include hop

theorem exec_nmpDatagramRx_closed (hsess : s.session (parseHeader bytes).sess = none) :
    exec (.nmpDatagramRx port vlan peer dst len false bytes) s = .next ((s.rxFrame port.val).drop 3) := by
  simp only [exec, execNmpDatagramRx, if_neg (rxFrame_heard hheard), Bool.false_eq_true, if_false, if_neg (segment_of_fits hfits), hversion,
    ne_eq, not_true, hbad, hop, rxFrame_session, hsess]

variable {x : Session} (hsess : s.session (parseHeader bytes).sess = some x)
include hsess

theorem exec_nmpDatagramRx_tag
    (htag : nmpTag x.key (bytes.take (16 + (parseHeader bytes).length)) ≠ slice bytes (16 + (parseHeader bytes).length) 16) :
    exec (.nmpDatagramRx port vlan peer dst len false bytes) s = .next ((s.rxFrame port.val).drop 2) := by
  simp only [exec, execNmpDatagramRx, if_neg (rxFrame_heard hheard), Bool.false_eq_true, if_false, if_neg (segment_of_fits hfits), hversion,
    ne_eq, not_true, hbad, hop, rxFrame_session, hsess, if_pos htag]

/-- A request of one datagram whose tag verifies: it counts as activity of its session, and its SEQUENCE decides (R65, R70). -/
theorem exec_nmpDatagramRx_request (hcount : (parseHeader bytes).count = 1)
    (htag : nmpTag x.key (bytes.take (16 + (parseHeader bytes).length)) = slice bytes (16 + (parseHeader bytes).length) 16) :
    exec (.nmpDatagramRx port vlan peer dst len false bytes) s =
      .next ((((s.rxFrame port.val).setSession (parseHeader bytes).sess { x with lastRequest := s.clock }).count
        (Sys.NMP_RX_COUNT port.val)).requestArrived port.val peer (parseHeader bytes).sess (parseHeader bytes).seq (parseHeader bytes).op
          (slice bytes 16 (parseHeader bytes).length)) := by
  have hclock : (s.rxFrame port.val).clock = s.clock := (rxFrame_only s port.val).2.1 .clock (by simp)
  simp only [exec, execNmpDatagramRx, if_neg (rxFrame_heard hheard), Bool.false_eq_true, if_false, if_neg (segment_of_fits hfits), hversion,
    ne_eq, not_true, hbad, hop, rxFrame_session, hsess, htag, hclock, State.segmentArrived, hcount, if_true]

end

/-! ## What a dropped datagram leaves (R65, R68) -/

/-- A datagram dropped under a reason moves the counters of frames received and the counter of that reason. -/
theorem rxFrame_drop_spec (s : State) (port k : Nat) (hk : k < 8) :
    let t := (s.rxFrame port).drop k
    t.rd (Sys.NMP_DROP_COUNT k) = countUp (s.rd (Sys.NMP_DROP_COUNT k)) 1 ∧ t.out = s.out ∧
      OnlyChanges [.free] [Sys.NMP_DROP_COUNT k, Eth.RX_FRAMES port, Eth.RX_BYTES port] s t := by
  have hframe : OnlyChanges [.free] [Sys.NMP_DROP_COUNT k, Eth.RX_FRAMES port, Eth.RX_BYTES port] s ((s.rxFrame port).drop k) :=
    ((rxFrame_only s port).trans (count_only _ _)).mono (by simp) (by simp)
  refine ⟨?_, hframe.2.1 .out (by simp), hframe⟩
  rw [State.drop, rd_count_counter (isCounter_dropCount hk), (rxFrame_only s port).2.2]
  simp [Sys.NMP_DROP_COUNT, Eth.RX_FRAMES, Eth.RX_BYTES]
  omega

/-- A change of the state of NMP beside its sessions, cells and buffers. -/
theorem setNmp_only (s : State) (x : NmpSt) (hsessions : x.sessions = s.nmp.sessions) (hcells : x.cells = s.nmp.cells)
    (hbuffers : x.buffers = s.nmp.buffers) (hserial : x.bufSerial = s.nmp.bufSerial) (hmem : x.mem = s.nmp.mem) :
    OnlyChanges [.nmp] [] s { s with nmp := x } := by
  refine ⟨rfl, fun p hp => ?_, fun _ _ => rfl⟩
  cases p with
  | nmp => simp at hp
  | sessions => exact hsessions
  | cells => exact hcells
  | mem => exact fun a => congrArg (memRead · a) hmem
  | buffers => exact ⟨hbuffers, hserial⟩
  | qps => exact ⟨rfl, rfl⟩
  | _ => rfl

theorem setAuthReplies_only (s : State) (l : List Nat) : OnlyChanges [.nmp] [] s { s with nmp := { s.nmp with authReplies := l } } :=
  setNmp_only s _ rfl rfl rfl rfl rfl

/-- The marking of control traffic depends on three parameters of its port (Table 12-9), which have their own numbers. -/
theorem OnlyChanges.control {ps : List Part} {ids : List Nat} {s t : State} (h : OnlyChanges ps ids s t)
    (hids : ∀ id ∈ ids, id % 0x10000 ∉ [0x000A, 0x000C, 0x000F]) (p which : Nat) : t.control p which = s.control p which := by
  have hsame {id : Nat} (hid : id % 0x10000 ∈ [0x000A, 0x000C, 0x000F]) : t.rd id = s.rd id := h.2.2 id fun hmem => hids id hmem hid
  rw [State.control, State.control, hsame (id := Eth.VLAN_ID p), hsame (id := Eth.ROCE_PRIORITY p), hsame (id := Eth.DSCP_CONTROL p)]
  all_goals simp [Eth.VLAN_ID, Eth.ROCE_PRIORITY, Eth.DSCP_CONTROL]

/-- An unauthenticated reply, or none where 10 were sent within 1 s (R68). -/
theorem openRefused_only (s : State) (port : Nat) (peer : Peer) (seq st : Nat) :
    OnlyChanges [.nmp, .free, .out] txIds s (s.openRefused port peer seq st) := by
  unfold State.openRefused
  dsimp only
  split
  · exact ((setAuthReplies_only s _).trans (emit_only _ _)).mono (by simp) (by simp)
  · exact (setAuthReplies_only s _).mono (by simp) (by simp)

theorem openRefused_out {s : State} {port : Nat} {peer : Peer} {seq st : Nat}
    (h : (s.nmp.authReplies.filter fun t => decide (s.clock < t + 1000000000)).length < 10) :
    (s.openRefused port peer seq st).out = .nmp port peer (s.control port 0) false ⟨0, seq, 1, st, []⟩ :: s.out := by
  rw [State.openRefused, if_pos h]
  exact emit_out _ _

/-! ## What the SEQUENCE of a request decides (R70, R71) -/

section
variable {s : State} {sess seq : Nat} {x : Session} (port : Nat) (peer : Peer) (op : Nat) (pl : List Byte)

theorem requestArrived_only (s : State) (sess seq : Nat) :
    OnlyChanges [.free, .sessions, .out] (Sys.NMP_DROP_COUNT 4 :: Sys.DUP_REPLAYED :: Sys.BUSY_REPLIES :: txIds) s
      (s.requestArrived port peer sess seq op pl) := by
  unfold State.requestArrived
  split
  · exact (OnlyChanges.refl s).mono (by simp) (by simp)
  · split
    · exact (count_only s _).mono (by simp) (by simp)
    · exact (OnlyChanges.refl s).mono (by simp) (by simp)
    · exact ((count_only s _).trans (emit_only _ _)).mono (by simp) (by simp +contextual)
    · split
      · exact ((count_only s _).trans (emit_only _ _)).mono (by simp) (by simp +contextual)
      · exact (setSession_only ..).mono (by simp) (by simp)

variable (hx : s.session sess = some x)
include hx

theorem requestArrived_stale (hv : x.verdict seq = .stale) : s.requestArrived port peer sess seq op pl = s.drop 4 := by
  simp only [State.requestArrived, hx, hv]

theorem requestArrived_inFlight (hv : x.verdict seq = .inFlight) : s.requestArrived port peer sess seq op pl = s := by
  simp only [State.requestArrived, hx, hv]

theorem requestArrived_replay {m : Msg} (hv : x.verdict seq = .replay m) :
    s.requestArrived port peer sess seq op pl = (s.count Sys.DUP_REPLAYED).sendNmp port peer true m := by
  simp only [State.requestArrived, hx, hv]

theorem requestArrived_busy (hv : x.verdict seq = .accept) (hfull : 8 ≤ x.inflight.length) :
    s.requestArrived port peer sess seq op pl = (s.count Sys.BUSY_REPLIES).sendNmp port peer true ⟨sess, seq, op, Status.BUSY, []⟩ := by
  simp only [State.requestArrived, hx, hv, if_pos hfull]

theorem requestArrived_accepted (hv : x.verdict seq = .accept) (hroom : x.inflight.length < 8) :
    s.requestArrived port peer sess seq op pl =
      s.setSession sess { x.accept seq with inflight := (x.accept seq).inflight ++ [⟨seq, op, port, pl⟩] } := by
  simp only [State.requestArrived, hx, hv, if_neg (Nat.not_le.2 hroom)]

end

/-- Accepting a SEQUENCE moves its window and the cache, and no request in flight (R70). -/
theorem accept_inflight (x : Session) (q : Nat) : (x.accept q).inflight = x.inflight := by
  unfold Session.accept
  split
  · rfl
  · split <;> rfl

@[simp] theorem count_session (s : State) (id sess : Nat) : (s.count id).session sess = s.session sess := (count_only s id).session (by simp) sess

/-- A message that leaves after a count: it stands first, with the marking of its port (Table 12-9). -/
theorem count_sendNmp_out (s : State) {id : Nat} (hid : id % 0x10000 ∉ [0x000A, 0x000C, 0x000F]) (port : Nat) (dest : Peer) (keyed : Bool) (m : Msg) :
    ((s.count id).sendNmp port dest keyed m).out = .nmp port dest (s.control port 0) keyed m :: s.out := by
  have hcount := count_only s id
  rw [State.sendNmp, emit_out, hcount.control (by simpa using hid), (hcount.2.1 .out (by simp) : (s.count id).out = s.out)]

theorem count_sendNmp_session (s : State) (id port : Nat) (dest : Peer) (keyed : Bool) (m : Msg) (sess : Nat) :
    ((s.count id).sendNmp port dest keyed m).session sess = s.session sess := by
  rw [State.sendNmp, emit_session, count_session]

/-! ## The clauses -/

section
variable {port : Fin 2} {vlan len : Nat} {peer : Peer} {dst bytes : List Byte} {s : State}

/-- A SESSION_OPEN request whose tag does not verify is counted, and answered while fewer than 10 such answers were sent within 1 s (R65, R68). -/
theorem nmpDatagramRx_answersAuth (hheard : s.hears port.val vlan dst) (hfits : (parseHeader bytes).fits len) (hversion : (parseHeader bytes).version = 1)
    (hbad : (parseHeader bytes).bad = false) (hop : (parseHeader bytes).op = 1)
    (htag : nmpTag s.nmp.ownerKey (bytes.take (16 + (parseHeader bytes).length)) ≠ slice bytes (16 + (parseHeader bytes).length) 16)
    (hfew : (s.nmp.authReplies.filter fun t => decide (s.clock < t + 1000000000)).length < 10) :
    ∃ t, exec (.nmpDatagramRx port vlan peer dst len false bytes) s = .next t ∧
      t.rd (Sys.NMP_DROP_COUNT 2) = countUp (s.rd (Sys.NMP_DROP_COUNT 2)) 1 ∧
      t.out = .nmp port.val peer (s.control port.val 0) false ⟨0, (parseHeader bytes).seq, 1, Status.AUTH, []⟩ :: s.out ∧
      OnlyChanges [.free, .out, .nmp] (Sys.NMP_DROP_COUNT 2 :: [Eth.RX_FRAMES port.val, Eth.RX_BYTES port.val] ++ txIds) s t := by
  obtain ⟨hdrop, hout, hframe⟩ := rxFrame_drop_spec s port.val 2 (by decide)
  have hrefuse := openRefused_only ((s.rxFrame port.val).drop 2) port.val peer (parseHeader bytes).seq Status.AUTH
  have hclock : ((s.rxFrame port.val).drop 2).clock = s.clock := hframe.2.1 .clock (by simp)
  obtain ⟨-, -, hreplies, -⟩ := hframe.2.1 .nmp (by simp)
  refine ⟨_, exec_nmpDatagramRx_openTag peer hheard hfits hversion hbad hop htag, ?_, ?_, (hframe.trans hrefuse).mono (by simp) (by simp)⟩
  · rw [hrefuse.2.2 _ (by decide)]
    exact hdrop
  · rw [openRefused_out (by rw [hclock]; exact hreplies ▸ hfew), hframe.control (by simp [Sys.NMP_DROP_COUNT, Eth.RX_FRAMES, Eth.RX_BYTES]), hout]

/-- A session that has been active under a request just received, before its SEQUENCE decides (R65, R72). -/
def State.activeUnder (s : State) (port sess : Nat) (x : Session) : State :=
  ((s.rxFrame port).setSession sess { x with lastRequest := s.clock }).count (Sys.NMP_RX_COUNT port)

theorem rxCount_not_mem (port : Fin 2) : Sys.NMP_RX_COUNT port.val ∉ Sys.NMP_DROP_COUNT 4 :: Sys.DUP_REPLAYED :: Sys.BUSY_REPLIES :: txIds := by
  revert port
  decide

theorem activeUnder_spec (s : State) (port : Fin 2) (sess : Nat) (x : Session) :
    let v := s.activeUnder port.val sess x
    v.session sess = some { x with lastRequest := s.clock } ∧ v.out = s.out ∧ v.control port.val 0 = s.control port.val 0 ∧
      v.rd (Sys.NMP_RX_COUNT port.val) = countUp (s.rd (Sys.NMP_RX_COUNT port.val)) 1 ∧
      OnlyChanges [.free, .sessions] [Eth.RX_FRAMES port.val, Eth.RX_BYTES port.val, Sys.NMP_RX_COUNT port.val] s v := by
  have hcount := count_only ((s.rxFrame port.val).setSession sess { x with lastRequest := s.clock }) (Sys.NMP_RX_COUNT port.val)
  have hframe : OnlyChanges [.free, .sessions] [Eth.RX_FRAMES port.val, Eth.RX_BYTES port.val, Sys.NMP_RX_COUNT port.val] s
      (s.activeUnder port.val sess x) :=
    (((rxFrame_only s port.val).trans (setSession_only ..)).trans hcount).mono (by simp) (by simp)
  refine ⟨?_, hframe.2.1 .out (by simp), hframe.control (by simp [Sys.NMP_RX_COUNT, Eth.RX_FRAMES, Eth.RX_BYTES]) .., ?_, hframe⟩
  · exact (hcount.session (by simp) sess).trans (session_setSession_same ..)
  · rw [State.activeUnder, rd_count_counter (isCounter_rxCount port), (setSession_only ..).2.2 _ (by simp),
      (rxFrame_only s port.val).2.2]
    simp [Sys.NMP_RX_COUNT, Eth.RX_FRAMES, Eth.RX_BYTES]

end

/-- Settles O16: each reason to drop is one case of the row, and the SEQUENCE of a request decides as `requestArrived` says. -/
theorem datagramsAreTakenOrCounted : Obligations.DatagramsAreTakenOrCounted := by
  constructor
  · intro port vlan peer dst len bytes s hanswers h ids mine dropped fits
    have hears (hmine : mine) : s.hears port.val vlan dst := ⟨hanswers, hmine⟩
    refine ⟨fun hother frag => ⟨_, exec_nmpDatagramRx_unheard peer frag fun hheard => hother hheard.2, rxFrame_only s port.val⟩,
      fun hmine => ⟨_, exec_nmpDatagramRx_fragment peer (hears hmine), rxFrame_drop_spec s port.val 6 (by decide)⟩,
      fun hshort hmine => ⟨_, exec_nmpDatagramRx_length peer (hears hmine) hshort, rxFrame_drop_spec s port.val 0 (by decide)⟩,
      fun hfits hversion hmine => ⟨_, exec_nmpDatagramRx_version peer (hears hmine) hfits hversion, rxFrame_drop_spec s port.val 1 (by decide)⟩,
      fun hfits hversion hbad hmine => ⟨_, exec_nmpDatagramRx_header peer (hears hmine) hfits hversion hbad, rxFrame_drop_spec s port.val 7 (by decide)⟩,
      fun hfits hversion hbad hop hsess hmine =>
        ⟨_, exec_nmpDatagramRx_closed peer (hears hmine) hfits hversion hbad hop hsess, rxFrame_drop_spec s port.val 3 (by decide)⟩,
      fun hfits hversion hbad hop x hsess htag hmine =>
        ⟨_, exec_nmpDatagramRx_tag peer (hears hmine) hfits hversion hbad hop hsess htag, rxFrame_drop_spec s port.val 2 (by decide)⟩,
      fun hmine hfits hversion hbad hop => nmpDatagramRx_answersAuth (hears hmine) hfits hversion hbad hop⟩
  · intro port vlan peer dst len bytes s x hanswers hvlan hdst h y ids hlen hseg hversion hbad hop hcount hsess htag
    obtain ⟨hactive, hout, hcontrol, hrx, hframe⟩ := activeUnder_spec s port h.sess x
    have hexec := exec_nmpDatagramRx_request peer ⟨hanswers, hvlan, hdst⟩ ⟨hlen, hseg⟩ hversion hbad hop hsess hcount htag
    change exec _ s = .next ((s.activeUnder port.val h.sess x).requestArrived port.val peer h.sess h.seq h.op (slice bytes 16 h.length)) at hexec
    have hdecides := requestArrived_only port.val peer h.op (slice bytes 16 h.length) (s.activeUnder port.val h.sess x) h.sess h.seq
    generalize s.activeUnder port.val h.sess x = v at *
    have hverdict : y.verdict h.seq = x.verdict h.seq := rfl
    refine ⟨_, hexec, (hdecides.2.2 _ (rxCount_not_mem port)).trans hrx, (hframe.trans hdecides).mono (by simp) (by simp +contextual [ids]), ?_⟩
    cases hv : x.verdict h.seq with
    | accept =>
      by_cases hroom : x.inflight.length < 8
      · rw [requestArrived_accepted port.val peer h.op _ hactive (hverdict.trans hv) hroom, accept_inflight]
        exact (if_pos hroom).mpr ⟨hout, session_setSession_same ..⟩
      · rw [requestArrived_busy port.val peer h.op _ hactive (hverdict.trans hv) (Nat.not_lt.1 hroom)]
        refine (if_neg hroom).mpr ⟨?_, ?_⟩
        · rw [count_sendNmp_out v (by decide), hcontrol, hout]
        · rw [count_sendNmp_session, hactive]
    | replay m =>
      rw [requestArrived_replay port.val peer h.op _ hactive (hverdict.trans hv)]
      refine ⟨?_, ?_, ?_⟩
      · rw [count_sendNmp_out v (by decide), hcontrol, hout]
      · rw [count_sendNmp_session, hactive]
      · rw [State.sendNmp, (emit_only _ _).2.2 _ (by decide), rd_count_counter (by decide), hframe.2.2]
        simp [Sys.DUP_REPLAYED, Eth.RX_FRAMES, Eth.RX_BYTES, Sys.NMP_RX_COUNT]
        omega
    | inFlight =>
      rw [requestArrived_inFlight port.val peer h.op _ hactive (hverdict.trans hv)]
      exact ⟨hout, hactive⟩
    | stale =>
      rw [requestArrived_stale port.val peer h.op _ hactive (hverdict.trans hv)]
      refine ⟨?_, ?_, ?_⟩
      · rw [← hout]
        exact (count_only v _).2.1 .out (by simp)
      · rw [State.drop, count_session, hactive]
      · rw [State.drop, rd_count_counter (isCounter_dropCount (by decide)), hframe.2.2]
        simp [Sys.NMP_DROP_COUNT, Eth.RX_FRAMES, Eth.RX_BYTES, Sys.NMP_RX_COUNT]
        omega

end Sys2Proof.Machine

/-! Ownership of cells (R72, R82 to R86): one step over the cells of a list, leases that run on or out, each request on cells, and O18. -/

namespace Sys2Proof.Machine

/-! ## Cells one after the other -/

theorem cells_congr {s t : State} (h : t.nmp.cells = s.nmp.cells) (c : Nat) : t.cell c = s.cell c := congrArg (tget · c ({} : Cell)) h

theorem OnlyChanges.cell {ps : List Part} {ids : List Nat} {s t : State} (h : OnlyChanges ps ids s t) (hp : .cells ∉ ps) (c : Nat) :
    t.cell c = s.cell c :=
  cells_congr (h.2.1 .cells hp) c

theorem OnlyChanges.aon {ps : List Part} {ids : List Nat} {s t : State} (h : OnlyChanges ps ids s t) (hp : .clock ∉ ps) : t.aon = s.aon :=
  congrArg (· / 40) (h.2.1 .clock hp : t.clock = s.clock)

/-- Whether a session owns what a cell holds (R78, R82). -/
def Cell.ownedBy (x : Cell) (sess : Nat) : Bool := sess != 0 && x.owner == sess && !x.orphan

theorem owns_eq (s : State) (sess c : Nat) : s.owns sess c = (s.cell c).ownedBy sess := rfl

theorem ownedBy_free {x : Cell} (h : x.owner = 0) (sess : Nat) : x.ownedBy sess = false := by
  cases sess <;> simp [Cell.ownedBy, h]

/-- An operation on the cells of a list, one after the other: where it does the same again as once, each cell of the list has it done, however
often the list names the cell. -/
theorem foldl_cell {α : Type} {P : State → Prop} {key : α → Nat} {g : Cell → Cell} {step : State → α → State} {l : List α} {s : State}
    (hs : P s) (hkeeps : ∀ t a, P t → P (step t a)) (hsame : ∀ t a, P t → (step t a).cell (key a) = g (t.cell (key a)))
    (hother : ∀ t a j, j ≠ key a → (step t a).cell j = t.cell j) (htwice : ∀ x, g (g x) = g x) (j : Nat) :
    (l.foldl step s).cell j = if j ∈ l.map key then g (s.cell j) else s.cell j := by
  induction l generalizing s with
  | nil => rfl
  | cons a r ih =>
    rw [List.foldl_cons, ih (hkeeps s a hs)]
    by_cases hj : j = key a
    · subst hj
      simp [hsame s a hs, htwice]
    · simp [hother s a j hj, hj]

/-- A change of what a session owns. -/
def Cell.mapOwned (x : Cell) (sess : Nat) (f : Cell → Cell) : Cell := if x.ownedBy sess then f x else x

/-- A change of one cell at the reference counter's present value, where a session owns it. -/
def State.onOwned (s : State) (sess : Nat) (f : Nat → Cell → Cell) (c : Nat) : State :=
  if s.owns sess c then s.setCell c (f s.aon (s.cell c)) else s

theorem onOwned_only (s : State) (sess : Nat) (f : Nat → Cell → Cell) (c : Nat) : OnlyChanges [.cells] [] s (s.onOwned sess f c) := by
  unfold State.onOwned
  split
  · exact setCell_only ..
  · exact (OnlyChanges.refl s).mono (by simp) (by simp)

theorem cell_onOwned_same (s : State) (sess : Nat) (f : Nat → Cell → Cell) (c : Nat) :
    (s.onOwned sess f c).cell c = (s.cell c).mapOwned sess (f s.aon) := by
  unfold State.onOwned Cell.mapOwned
  rw [owns_eq]
  split
  · exact cell_setCell_same ..
  · rfl

theorem cell_onOwned_other {s : State} {sess : Nat} {f : Nat → Cell → Cell} {j c : Nat} (h : j ≠ c) :
    (s.onOwned sess f c).cell j = s.cell j := by
  unfold State.onOwned
  split
  · exact cell_setCell_other h
  · rfl

/-- A change of the cells of a list that a session owns, where it does the same again as once. -/
theorem foldl_onOwned {α : Type} {key : α → Nat} {sess : Nat} {f : Nat → Cell → Cell} (l : List α) (s : State)
    (htwice : ∀ x : Cell, (x.mapOwned sess (f s.aon)).mapOwned sess (f s.aon) = x.mapOwned sess (f s.aon)) :
    OnlyChanges [.cells] [] s (l.foldl (fun t a => t.onOwned sess f (key a)) s) ∧
      ∀ j, (l.foldl (fun t a => t.onOwned sess f (key a)) s).cell j = if j ∈ l.map key then (s.cell j).mapOwned sess (f s.aon) else s.cell j := by
  refine ⟨OnlyChanges.foldl l ((OnlyChanges.refl s).mono (by simp) (by simp)) fun _ _ _ => onOwned_only .., ?_⟩
  refine foldl_cell (P := fun t => t.aon = s.aon) (g := fun x => x.mapOwned sess (f s.aon)) rfl (fun t a ht => ?_) (fun t a ht => ?_)
    (fun _ _ _ => cell_onOwned_other) htwice
  · rw [(onOwned_only t sess f (key a)).aon (by simp), ht]
  · rw [cell_onOwned_same, ht]

/-- A change that ends the ownership is done once. -/
theorem mapOwned_twice_of_ends {sess : Nat} {f : Cell → Cell} (hends : ∀ x : Cell, (f x).ownedBy sess = false) (x : Cell) :
    (x.mapOwned sess f).mapOwned sess f = x.mapOwned sess f := by
  by_cases hx : x.ownedBy sess = true <;> simp [Cell.mapOwned, hx, hends]

/-- A change that keeps the ownership and does the same again as once. -/
theorem mapOwned_twice_of_same {sess : Nat} {f : Cell → Cell} (hsame : ∀ x : Cell, f (f x) = f x) (x : Cell) :
    (x.mapOwned sess f).mapOwned sess f = x.mapOwned sess f := by
  by_cases hx : x.ownedBy sess = true
  · simp only [Cell.mapOwned, hx, if_true, hsame, ite_self]
  · simp [Cell.mapOwned, hx]

/-- A session owns no cell that the table of cells does not list. -/
theorem mem_cells_of_owns {s : State} {sess c : Nat} (h : s.owns sess c = true) : c ∈ s.nmp.cells.map Prod.fst := by
  by_contra hmem
  have hnone : tfind s.nmp.cells c = none := tfind_eq_none fun p hp hc => hmem (hc ▸ List.mem_map_of_mem hp)
  have hfree : (s.cell c).owner = 0 := by rw [State.cell, tget, hnone]; rfl
  rw [owns_eq, ownedBy_free hfree] at h
  exact absurd h Bool.false_ne_true

/-- A change of all cells that a session owns. -/
theorem foldl_onOwned_all {sess : Nat} {f : Nat → Cell → Cell} (s : State)
    (htwice : ∀ x : Cell, (x.mapOwned sess (f s.aon)).mapOwned sess (f s.aon) = x.mapOwned sess (f s.aon)) (j : Nat) :
    (s.nmp.cells.foldl (fun t (p : Nat × Cell) => t.onOwned sess f p.1) s).cell j = if s.owns sess j then f s.aon (s.cell j) else s.cell j := by
  rw [(foldl_onOwned s.nmp.cells s htwice).2 j]
  by_cases hj : s.owns sess j = true
  · rw [if_pos (mem_cells_of_owns hj), if_pos hj, Cell.mapOwned, ← owns_eq, if_pos hj]
  · simp only [Cell.mapOwned, ← owns_eq, hj, Bool.false_eq_true, if_false, ite_self]

/-! ## Leases (R85) -/

/-- A NOTIFY to a session that is not open goes nowhere. -/
theorem notifyTo_closed {s : State} {sess : Nat} (h : s.session sess = none) (cls code : Nat) (body : List Byte) :
    s.notifyTo sess cls code body = s := by
  rw [State.notifyTo, h]

/-- No lease has run out. -/
def State.leasesRun (s : State) : Prop := ∀ c, (s.cell c).owner = 0 ∨ s.aon < (s.cell c).expiry

theorem expireDue_of_leasesRun {s : State} (h : s.leasesRun) : s.expireDue = s := by
  refine List.foldl_fixed' (fun p => if_neg ?_) _
  rintro ⟨howned, hdue⟩
  rcases h p.1 with hfree | hruns
  · exact howned hfree
  · exact absurd hdue (Nat.not_le.2 hruns)

theorem heard_aon (s : State) (r : Req) : (s.heard r).aon = s.aon := congrArg (· / 40) (heard_clock s r)

theorem heard_leasesRun {s : State} (h : s.leasesRun) (r : Req) : (s.heard r).leasesRun := fun c => by
  rw [heard_cell, heard_aon]
  exact h c

/-- The expiry of a cell in hardware (R85). -/
theorem expireCell_spec (s : State) (c : Nat) :
    let t := s.expireCell c
    t.cell c = (s.cell c).freed ∧ (∀ j, j ≠ c → t.cell j = s.cell j) ∧ t.rd Sys.OWN_EXPIRED = countUp (s.rd Sys.OWN_EXPIRED) 1 ∧
      (((s.cell c).orphan = true ∨ s.session (s.cell c).owner = none) → t.out = s.out) ∧
      OnlyChanges [.cells, .sessions, .out, .free] (Sys.OWN_EXPIRED :: Sys.NOTIFY_DROPPED :: txIds) s t := by
  let u := (s.setCell c (s.cell c).freed).count Sys.OWN_EXPIRED
  have hu : OnlyChanges [.cells] [Sys.OWN_EXPIRED] s u := ((setCell_only s c _).trans (count_only _ _)).mono (by simp) (by simp)
  have hcount := count_only (s.setCell c (s.cell c).freed) Sys.OWN_EXPIRED
  have hcells (j : Nat) : u.cell j = (s.setCell c (s.cell c).freed).cell j := hcount.cell (by simp) j
  have htold : OnlyChanges [.sessions, .out, .free] (Sys.NOTIFY_DROPPED :: txIds) u (s.expireCell c) := by
    unfold State.expireCell
    dsimp only
    split
    · exact (OnlyChanges.refl _).mono (by simp) (by simp)
    · exact notifyTo_only ..
  refine ⟨?_, fun j hj => ?_, ?_, fun h => ?_, (hu.trans htold).mono (by simp) (by simp +contextual)⟩
  · rw [htold.cell (by simp), hcells, cell_setCell_same]
  · rw [htold.cell (by simp), hcells, cell_setCell_other hj]
  · rw [htold.2.2 _ (by decide), rd_count_counter (by decide)]
    rfl
  · have hsilent : s.expireCell c = u := by
      unfold State.expireCell
      dsimp only
      split
      next => rfl
      next horphan =>
        have hclosed : u.session (s.cell c).owner = none := (count_session ..).trans (h.resolve_left horphan)
        exact notifyTo_closed hclosed ..
    rw [hsilent]
    exact hu.2.1 .out (by simp)

theorem leaseExpiry_frees {c : Fin 64} {s : State} (howned : (s.cell c.val).owner ≠ 0) :
    ∃ t, exec (.leaseExpiry c) s = .next t ∧ t.clock = max s.clock ((s.cell c.val).expiry * 40) ∧ (t.cell c.val).owner = 0 ∧
      (t.cell c.val).gen = ((s.cell c.val).gen + 1) % 65536 ∧ (t.cell c.val).orphan = false ∧
      (∀ j, j ≠ c.val → t.cell j = s.cell j) ∧ t.rd Sys.OWN_EXPIRED = countUp (s.rd Sys.OWN_EXPIRED) 1 ∧
      (((s.cell c.val).orphan = true ∨ s.session (s.cell c.val).owner = none) → t.out = s.out) ∧
      OnlyChanges [.clock, .cells, .sessions, .out, .free] (Sys.OWN_EXPIRED :: Sys.NOTIFY_DROPPED :: txIds) s t := by
  let v := s.at ((s.cell c.val).expiry * 40)
  obtain ⟨hcell, hothers, hcount, hout, hframe⟩ := expireCell_spec v c.val
  have hexec : exec (.leaseExpiry c) s = .next (v.expireCell c.val) := congrArg Host.Outcome.next (if_neg howned)
  refine ⟨_, hexec, hframe.2.1 .clock (by simp), ?_, ?_, ?_, hothers, hcount, hout,
    ((at_only s _).trans hframe).mono (by simp) (by simp +contextual)⟩
  all_goals rw [hcell]; rfl

/-! ## HEARTBEAT (R72, R85) -/

/-- A reply leaves its session as it is but for its requests in flight and its cached replies. -/
theorem reply_session {s : State} {r : Req} {x : Session} (hx : s.session r.sess = some x) (op st : Nat) (pl : List Byte) :
    ∃ inflight cache, (s.reply r op st pl).session r.sess = some { x with inflight := inflight, cache := cache } := by
  have hsent (m : Msg) : (s.sendNmp r.port r.peer true m).session r.sess = some x := by rw [State.sendNmp, emit_session, hx]
  simp only [State.reply, hsent, session_setSession_same]
  exact ⟨_, _, rfl⟩

/-- The lease of a cell begins again (R85). -/
def Cell.refreshed (aon : Nat) (x : Cell) : Cell := { x with expiry := aon + leaseCycles x.lease }

/-- A session whose HEARTBEAT has been read: the notices it acknowledges are gone, its class mask is set where the payload carries one. -/
def Session.heartbeat (x : Session) (pl : List Byte) : Session :=
  { x with
    unacked := x.unacked.filter fun u => !later 32 (if later 32 (leAt pl 0 4) x.notifySeq then x.notifySeq else leAt pl 0 4) u.seq
    mask := if pl.length = 8 then leAt pl 4 4 else x.mask }

section
variable {s : State} {r : Req}

theorem exec_heartbeat {pl : List Byte} {x : Session} (ht : s.takes r 0x03) (hpl : pl.length = 4 ∨ pl.length = 8) (hleases : s.leasesRun)
    (hx : s.session r.sess = some x) :
    let u := s.heard r
    let v := u.nmp.cells.foldl (fun t (p : Nat × Cell) => t.onOwned r.sess Cell.refreshed p.1) u
    exec (.heartbeat r pl) s =
      .next ((v.setSession r.sess (Session.heartbeat { x with lastRequest := s.clock } pl)).reply r 0x03 Status.OK []) := by
  intro u v
  have hframe : OnlyChanges [.cells] [] u v := (foldl_onOwned _ u (mapOwned_twice_of_same fun _ => rfl)).1
  have hsession : v.session r.sess = some { x with lastRequest := s.clock } :=
    (hframe.session (by simp) _).trans (heard_session hx)
  show Host.Outcome.next (s.request r 0x03 _) = _
  rw [request_of_takes _ ht, if_neg (by omega)]
  simp only [expireDue_of_leasesRun (heard_leasesRun hleases r)]
  change Host.Outcome.next (match v.session r.sess with | none => v | some x => _) = _
  rw [hsession]
  rfl

theorem heartbeat_refreshes {pl : List Byte} (ht : s.takes r 0x03) (hpl : pl.length = 4 ∨ pl.length = 8) (hleases : s.leasesRun) :
    ∃ t, exec (.heartbeat r pl) s = .next t ∧ t.replied r 0x03 Status.OK [] ∧
      (∀ c, t.cell c = if s.owns r.sess c then { s.cell c with expiry := s.aon + 25000 * (s.cell c).lease } else s.cell c) ∧
      (∀ x y, s.session r.sess = some x → t.session r.sess = some y →
        y.mask = (if pl.length = 8 then leAt pl 4 4 else x.mask) ∧ ∀ u ∈ y.unacked, u ∈ x.unacked) ∧
      OnlyChanges [.cells, .sessions, .out, .free] txIds s t := by
  obtain ⟨x, hx⟩ := Option.isSome_iff_exists.1 ht.2.1
  let u := s.heard r
  let v := u.nmp.cells.foldl (fun t (p : Nat × Cell) => t.onOwned r.sess Cell.refreshed p.1) u
  let y := Session.heartbeat { x with lastRequest := s.clock } pl
  have htwice : ∀ z : Cell, (z.mapOwned r.sess (Cell.refreshed u.aon)).mapOwned r.sess (Cell.refreshed u.aon) =
      z.mapOwned r.sess (Cell.refreshed u.aon) := mapOwned_twice_of_same fun _ => rfl
  have hv : OnlyChanges [.cells] [] u v := (foldl_onOwned _ u htwice).1
  have hanswer : OnlyChanges [.sessions, .out, .free] txIds v ((v.setSession r.sess y).reply r 0x03 Status.OK []) :=
    ((setSession_only ..).trans (reply_only ..)).mono (by simp) (by simp)
  refine ⟨_, exec_heartbeat ht hpl hleases hx, replied_reply .., fun c => ?_, fun x' y' hx' hy' => ?_,
    (((heard_only s r).trans hv).trans hanswer).mono (by simp) (by simp)⟩
  · rw [hanswer.cell (by simp), foldl_onOwned_all u htwice, heard_owns, heard_cell, heard_aon, Cell.refreshed, leaseCycles, Nat.mul_comm]
  · obtain ⟨inflight, cache, hreply⟩ := reply_session (session_setSession_same v r.sess y) 0x03 Status.OK []
    obtain rfl := Option.some.inj (hx.symm.trans hx')
    obtain rfl := Option.some.inj (hreply.symm.trans hy')
    exact ⟨rfl, fun n hn => List.mem_of_mem_filter hn⟩

/-! ## OWN_ACQUIRE (R83, R84) -/

/-- A cell that a session asks for: granted where it is free, under the new lease where the session owns it, else as it was (log 141). -/
def Cell.asked (sess lease aon : Nat) (x : Cell) : Cell :=
  if x.owner = 0 then { owner := sess, gen := (x.gen + 1) % 65536, lease := lease, expiry := aon + leaseCycles lease }
  else if x.ownedBy sess then { x with lease := lease, expiry := aon + leaseCycles lease }
  else x

/-- A cell is another's: it is not free, and the session does not own it. -/
def Cell.othersThan (x : Cell) (sess : Nat) : Bool := x.owner != 0 && !x.ownedBy sess

theorem asked_owned {sess : Nat} {x : Cell} (h : x.ownedBy sess = true) (lease aon : Nat) :
    x.asked sess lease aon = { x with lease := lease, expiry := aon + leaseCycles lease } := by
  have hne : x.owner ≠ 0 := fun hfree => by simp [ownedBy_free hfree] at h
  rw [Cell.asked, if_neg hne, if_pos h]

theorem ownedBy_granted {sess : Nat} (hsess : sess ≠ 0) (gen lease expiry : Nat) :
    (Cell.mk sess gen lease expiry false).ownedBy sess = true := by
  simp [Cell.ownedBy, hsess]

theorem asked_twice {sess : Nat} (hsess : sess ≠ 0) (lease aon : Nat) (x : Cell) :
    (x.asked sess lease aon).asked sess lease aon = x.asked sess lease aon := by
  by_cases hfree : x.owner = 0
  · rw [Cell.asked.eq_1 sess lease aon x, if_pos hfree, asked_owned (ownedBy_granted hsess ..)]
  · by_cases hown : x.ownedBy sess = true
    · rw [asked_owned hown, asked_owned (by exact hown)]
    · have hleft : x.asked sess lease aon = x := by rw [Cell.asked, if_neg hfree, if_neg hown]
      rw [hleft, hleft]

/-- Asking for a cell leaves whose it is, but for a free one, which is then the session's. -/
theorem othersThan_asked {sess : Nat} (hsess : sess ≠ 0) (lease aon : Nat) (x : Cell) :
    (x.asked sess lease aon).othersThan sess = x.othersThan sess := by
  by_cases hfree : x.owner = 0
  · simp [Cell.asked, hfree, Cell.othersThan, ownedBy_granted hsess]
  · by_cases hown : x.ownedBy sess = true
    · rw [asked_owned hown]
      rfl
    · rw [Cell.asked, if_neg hfree, if_neg hown]

theorem owner_asked {sess : Nat} (hsess : sess ≠ 0) (lease aon : Nat) (x : Cell) : (x.asked sess lease aon).owner ≠ 0 := by
  by_cases hfree : x.owner = 0
  · simp [Cell.asked, hfree, hsess]
  · by_cases hown : x.ownedBy sess = true
    · rw [asked_owned hown]
      exact hfree
    · rwa [Cell.asked, if_neg hfree, if_neg hown]

/-- One cell of an acquire: the state, the cells granted, the cells refused. -/
theorem acquireOne_spec (st : State × List Nat × List Nat) (sess lease c : Nat) :
    let st' := State.acquireOne st sess lease c
    OnlyChanges [.cells] [] st.1 st'.1 ∧ st'.1.cell c = (st.1.cell c).asked sess lease st.1.aon ∧ (∀ j, j ≠ c → st'.1.cell j = st.1.cell j) ∧
      st'.2.1 = st.2.1 ++ (if (st.1.cell c).owner = 0 then [c] else []) ∧
      st'.2.2 = st.2.2 ++ (if (st.1.cell c).othersThan sess = true then [c] else []) := by
  have hset (x : Cell) : OnlyChanges [.cells] [] st.1 (st.1.setCell c x) ∧ (st.1.setCell c x).cell c = x ∧
      ∀ j, j ≠ c → (st.1.setCell c x).cell j = st.1.cell j :=
    ⟨setCell_only .., cell_setCell_same .., fun j hj => cell_setCell_other hj⟩
  by_cases hfree : (st.1.cell c).owner = 0
  · obtain ⟨hframe, hsame, hother⟩ := hset ((st.1.cell c).asked sess lease st.1.aon)
    have hothers : (st.1.cell c).othersThan sess = false := by simp [Cell.othersThan, hfree]
    have hone : State.acquireOne st sess lease c = (st.1.setCell c ((st.1.cell c).asked sess lease st.1.aon), st.2.1 ++ [c], st.2.2) := by
      rw [State.acquireOne, Cell.asked, if_pos hfree, if_pos hfree]
    rw [hone, if_pos hfree, hothers]
    exact ⟨hframe, hsame, hother, rfl, (List.append_nil _).symm⟩
  · by_cases hown : (st.1.cell c).ownedBy sess = true
    · obtain ⟨hframe, hsame, hother⟩ := hset ((st.1.cell c).asked sess lease st.1.aon)
      have hothers : (st.1.cell c).othersThan sess = false := by simp [Cell.othersThan, hown]
      have hone : State.acquireOne st sess lease c = (st.1.setCell c ((st.1.cell c).asked sess lease st.1.aon), st.2.1, st.2.2) := by
        rw [State.acquireOne, asked_owned hown, if_neg hfree, owns_eq, if_pos hown]
      rw [hone, if_neg hfree, hothers]
      exact ⟨hframe, hsame, hother, (List.append_nil _).symm, (List.append_nil _).symm⟩
    · have hothers : (st.1.cell c).othersThan sess = true := by simp [Cell.othersThan, hfree, hown]
      have hone : State.acquireOne st sess lease c = (st.1, st.2.1, st.2.2 ++ [c]) := by
        rw [State.acquireOne, if_neg hfree, owns_eq, if_neg hown]
      rw [hone, if_neg hfree, if_pos hothers, Cell.asked, if_neg hfree, if_neg hown]
      exact ⟨(OnlyChanges.refl _).mono (by simp) (by simp), rfl, fun _ _ => rfl, (List.append_nil _).symm, rfl⟩

/-- An acquire before it is decided: each cell named has been asked for, those that were free are granted, others' are refused. -/
theorem acquire_spec {sess : Nat} (hsess : sess ≠ 0) (lease : Nat) (l : List Nat) (st : State × List Nat × List Nat) :
    let st' := l.foldl (fun st c => State.acquireOne st sess lease c) st
    OnlyChanges [.cells] [] st.1 st'.1 ∧
      (∀ j, st'.1.cell j = if j ∈ l then (st.1.cell j).asked sess lease st.1.aon else st.1.cell j) ∧
      (∀ j, j ∈ st'.2.1 ↔ j ∈ st.2.1 ∨ j ∈ l ∧ (st.1.cell j).owner = 0) ∧
      st'.2.2 = st.2.2 ++ l.filter fun c => (st.1.cell c).othersThan sess := by
  induction l generalizing st with
  | nil => exact ⟨(OnlyChanges.refl _).mono (by simp) (by simp), fun _ => rfl, by simp, by simp⟩
  | cons c l ih =>
    obtain ⟨hone, hsame, hother, hgranted, hrefused⟩ := acquireOne_spec st sess lease c
    obtain ⟨hrest, hcells, hgrants, hrefuses⟩ := ih (State.acquireOne st sess lease c)
    have haon : (State.acquireOne st sess lease c).1.aon = st.1.aon := hone.aon (by simp)
    have hothers (j : Nat) : ((State.acquireOne st sess lease c).1.cell j).othersThan sess = (st.1.cell j).othersThan sess := by
      by_cases hj : j = c
      · rw [hj, hsame, othersThan_asked hsess]
      · rw [hother j hj]
    refine ⟨hone.then hrest, fun j => ?_, fun j => ?_, ?_⟩
    · rw [List.foldl_cons, hcells, haon]
      by_cases hj : j = c
      · simp [hj, hsame, asked_twice hsess]
      · simp [hother j hj, hj]
    · rw [List.foldl_cons, hgrants, hgranted]
      by_cases hj : j = c
      · by_cases hfree : (st.1.cell c).owner = 0 <;> simp [hj, hsame, owner_asked hsess, hfree]
      · by_cases hfree : (st.1.cell c).owner = 0 <;> simp [hother j hj, hj, hfree]
    · rw [List.foldl_cons, hrefuses, hrefused, List.append_assoc, List.filter_cons]
      simp only [hothers]
      split <;> rfl

/-- A request names cells that exist, and at most 64 of them. -/
theorem names_fit {α : Type} {key : α → Nat} {l : List α} (hlen : l.length ≤ 64) (hcells : ∀ a ∈ l, key a < 64) :
    ¬(64 < l.length ∨ l.any (fun a => decide (64 ≤ key a)) = true) := by
  simp only [List.any_eq_true, decide_eq_true_eq]
  rintro (hlong | ⟨a, ha, hbig⟩)
  · exact absurd hlong (Nat.not_lt.2 hlen)
  · exact absurd (hcells a ha) (Nat.not_lt.2 hbig)

/-- The record of a cell depends on the cell and the reference counter alone (R83). -/
theorem OnlyChanges.cellRecord {ps : List Part} {ids : List Nat} {s t : State} (h : OnlyChanges ps ids s t) (hcells : .cells ∉ ps)
    (hclock : .clock ∉ ps) : t.cellRecord = s.cellRecord := by
  funext c
  simp only [State.cellRecord, h.cell hcells, h.aon hclock]

/-- Cells that were granted are given back: those of the list are free, and every free one stays free. -/
theorem giveBack_spec (l : List Nat) (s : State) :
    let t := l.foldl (fun t c => t.setCell c (t.cell c).freed) s
    OnlyChanges [.cells] [] s t ∧ ∀ j, (j ∈ l ∨ (s.cell j).owner = 0 → (t.cell j).owner = 0) ∧ (j ∉ l → t.cell j = s.cell j) := by
  induction l generalizing s with
  | nil => exact ⟨(OnlyChanges.refl s).mono (by simp) (by simp), fun _ => ⟨by simp, fun _ => rfl⟩⟩
  | cons c l ih =>
    obtain ⟨hframe, hcells⟩ := ih (s.setCell c (s.cell c).freed)
    refine ⟨(setCell_only ..).then hframe, fun j => ⟨fun hj => (hcells j).1 ?_, fun hj => ?_⟩⟩
    · by_cases hjc : j = c
      · exact .inr (by rw [hjc, cell_setCell_same]; rfl)
      · rw [cell_setCell_other hjc]
        exact hj.imp_left fun hmem => (List.mem_cons.1 hmem).resolve_left hjc
    · obtain ⟨hjc, hjl⟩ := not_or.1 (mt List.mem_cons.2 hj)
      exact ((hcells j).2 hjl).trans (cell_setCell_other hjc)

/-- The state, the cells granted and the cells refused of an acquire before it is decided. -/
def State.asking (s : State) (sess lease : Nat) (cells : List Nat) : State × List Nat × List Nat :=
  cells.foldl (fun st c => State.acquireOne st sess lease c) (s, [], [])

/-- What asking for cells on behalf of a request comes to, in the terms of the state before it. -/
theorem asking_spec {sess : Nat} (hsess : sess ≠ 0) (lease : Nat) (cells : List Nat) (s : State) (r : Req) :
    let st := (s.heard r).asking sess lease cells
    OnlyChanges [.cells] [] (s.heard r) st.1 ∧ (∀ j, st.1.cell j = if j ∈ cells then (s.cell j).asked sess lease s.aon else s.cell j) ∧
      (∀ j, j ∈ st.2.1 ↔ j ∈ cells ∧ (s.cell j).owner = 0) ∧ st.2.2 = cells.filter fun c => (s.cell c).othersThan sess := by
  obtain ⟨hframe, hcells, hgranted, hrefused⟩ := acquire_spec hsess lease cells (s.heard r, [], [])
  simp only [heard_cell, heard_aon, List.not_mem_nil, false_or, List.nil_append] at hcells hgranted hrefused
  exact ⟨hframe, hcells, hgranted, hrefused⟩

section
variable {cells : List Nat} {lease : Nat}

theorem exec_ownAcquire (ht : s.takes r 0x20) (hlen : cells.length ≤ 64) (hcells : ∀ c ∈ cells, c < 64) (hleases : s.leasesRun) :
    let st := (s.heard r).asking r.sess lease cells
    exec (.ownAcquire r cells lease) s = .next (
      if lease < 500 ∨ 60000 < lease then (s.heard r).reply r 0x20 Status.RANGE []
      else if st.2.2 = [] then st.1.reply r 0x20 Status.OK (cells.flatMap st.1.cellRecord)
      else ((st.2.1.foldl (fun t c => t.setCell c (t.cell c).freed) st.1).count Sys.OWN_CONTENDED).reply r 0x20 Status.BUSY
        (st.2.2.flatMap ((st.2.1.foldl (fun t c => t.setCell c (t.cell c).freed) st.1).cellRecord))) := by
  show Host.Outcome.next (s.request r 0x20 _) = _
  rw [request_of_takes _ ht, if_neg (names_fit (key := fun c => c) hlen hcells), expireDue_of_leasesRun (heard_leasesRun hleases r)]
  rfl

variable (ht : s.takes r 0x20) (hsess : r.sess ≠ 0) (hlen : cells.length ≤ 64) (hcells : ∀ c ∈ cells, c < 64) (hleases : s.leasesRun)
include ht hlen hcells hleases

theorem ownAcquire_range (hlease : lease < 500 ∨ 60000 < lease) :
    ∃ t, exec (.ownAcquire r cells lease) s = .next t ∧ t.replied r 0x20 Status.RANGE [] ∧ OnlyChanges [.sessions, .out, .free] txIds s t := by
  have hexec := exec_ownAcquire (lease := lease) ht hlen hcells hleases
  simp only [if_pos hlease] at hexec
  exact ⟨_, hexec, replied_reply .., (heardReply_only ..).mono (by simp) (by simp)⟩

variable (hmin : 500 ≤ lease) (hmax : lease ≤ 60000)
include hsess hmin hmax

theorem ownAcquire_grants (hfree : ∀ c ∈ cells, (s.cell c).owner = 0 ∨ s.owns r.sess c = true) :
    ∃ t, exec (.ownAcquire r cells lease) s = .next t ∧ t.replied r 0x20 Status.OK (cells.flatMap t.cellRecord) ∧
      (∀ c ∈ cells, (t.cell c).owner = r.sess ∧ (t.cell c).orphan = false ∧ (t.cell c).lease = lease ∧
        (t.cell c).expiry = s.aon + 25000 * lease ∧
        (t.cell c).gen = (if (s.cell c).owner = 0 then ((s.cell c).gen + 1) % 65536 else (s.cell c).gen)) ∧
      (∀ c, c ∉ cells → t.cell c = s.cell c) ∧ OnlyChanges [.cells, .sessions, .out, .free] txIds s t := by
  obtain ⟨hframe, hasked, -, hrefused⟩ := asking_spec hsess lease cells s r
  have hnone : ((s.heard r).asking r.sess lease cells).2.2 = [] := by
    rw [hrefused, List.filter_eq_nil_iff]
    intro c hc
    rcases hfree c hc with h | h
    · simp [Cell.othersThan, h]
    · simp [Cell.othersThan, ← owns_eq, h]
  have hanswer := reply_only ((s.heard r).asking r.sess lease cells).1 r 0x20 Status.OK
    (cells.flatMap ((s.heard r).asking r.sess lease cells).1.cellRecord)
  have hexec := exec_ownAcquire (lease := lease) ht hlen hcells hleases
  have hrange : ¬(lease < 500 ∨ 60000 < lease) := by omega
  simp only [if_neg hrange, if_pos hnone] at hexec
  refine ⟨_, hexec, ?_, fun c hc => ?_, fun c hc => ?_, (((heard_only s r).trans hframe).trans hanswer).mono (by simp) (by simp)⟩
  · rw [hanswer.cellRecord (by simp) (by simp)]
    exact replied_reply ..
  · rw [hanswer.cell (by simp), hasked, if_pos hc]
    by_cases h : (s.cell c).owner = 0
    · simp [Cell.asked, h, leaseCycles, Nat.mul_comm]
    · have hown : (s.cell c).ownedBy r.sess = true := (hfree c hc).resolve_left h
      have howner := hown
      simp only [Cell.ownedBy, Bool.and_eq_true, beq_iff_eq, Bool.not_eq_true'] at howner
      rw [asked_owned hown, if_neg h]
      exact ⟨howner.1.2, howner.2, rfl, congrArg _ (Nat.mul_comm ..), rfl⟩
  · rw [hanswer.cell (by simp), hasked, if_neg hc]

theorem ownAcquire_contended (hother : ∃ c ∈ cells, (s.cell c).owner ≠ 0 ∧ s.owns r.sess c = false) :
    ∃ t pl, exec (.ownAcquire r cells lease) s = .next t ∧ t.replied r 0x20 Status.BUSY pl ∧
      t.rd Sys.OWN_CONTENDED = countUp (s.rd Sys.OWN_CONTENDED) 1 ∧ (∀ c, (s.cell c).owner = 0 → (t.cell c).owner = 0) ∧
      (∀ c, (s.cell c).owner ≠ 0 → s.owns r.sess c = false → t.cell c = s.cell c) ∧
      OnlyChanges [.cells, .sessions, .out, .free] (Sys.OWN_CONTENDED :: txIds) s t := by
  obtain ⟨hframe, hasked, hgranted, hrefused⟩ := asking_spec hsess lease cells s r
  let st := (s.heard r).asking r.sess lease cells
  have hsome : ((s.heard r).asking r.sess lease cells).2.2 ≠ [] := by
    obtain ⟨c, hc, howner, hown⟩ := hother
    rw [hrefused, ne_eq, List.filter_eq_nil_iff]
    exact fun h => h c hc (by simp [Cell.othersThan, ← owns_eq, howner, hown])
  obtain ⟨hback, hgiven⟩ := giveBack_spec st.2.1 st.1
  have hcount := count_only (st.2.1.foldl (fun t c => t.setCell c (t.cell c).freed) st.1) Sys.OWN_CONTENDED
  have hanswer (pl : List Byte) := hcount.trans (reply_only _ r 0x20 Status.BUSY pl)
  have hexec := exec_ownAcquire (lease := lease) ht hlen hcells hleases
  have hrange : ¬(lease < 500 ∨ 60000 < lease) := by omega
  simp only [if_neg hrange, if_neg hsome] at hexec
  refine ⟨_, _, hexec, replied_reply .., ?_, fun c hfree => ?_, fun c howner hown => ?_,
    ((((heard_only s r).trans hframe).trans hback).trans (hanswer _)).mono (by simp) (by simp)⟩
  · rw [(reply_only ..).2.2 _ (by decide), rd_count_counter (by decide), hback.2.2 _ (by simp), hframe.2.2 _ (by simp), heard_rd]
  · rw [(hanswer _).cell (by simp)]
    refine (hgiven c).1 ?_
    by_cases hc : c ∈ cells
    · exact .inl ((hgranted c).2 ⟨hc, hfree⟩)
    · exact .inr (by rw [hasked, if_neg hc, hfree])
  · rw [(hanswer _).cell (by simp), (hgiven c).2 fun h => howner ((hgranted c).1 h).2, hasked]
    rw [owns_eq] at hown
    simp [Cell.asked, howner, hown]

end

/-! ## OWN_RELEASE, OWN_QUERY and OWN_RECLAIM (R82, R86) -/

theorem ownRelease_frees {cells : List Nat} (ht : s.takes r 0x21) (hcells : ∀ c ∈ cells, c < 64 ∧ s.owns r.sess c = true) :
    ∃ t, exec (.ownRelease r cells) s = .next t ∧ t.replied r 0x21 Status.OK [] ∧
      (∀ c ∈ cells, (t.cell c).owner = 0 ∧ (t.cell c).gen = ((s.cell c).gen + 1) % 65536) ∧
      (∀ c, c ∉ cells → t.cell c = s.cell c) ∧ OnlyChanges [.cells, .sessions, .out, .free] txIds s t := by
  let v := cells.foldl (fun t c => t.onOwned r.sess (fun _ => Cell.freed) (id c)) (s.heard r)
  have hends (x : Cell) : x.freed.ownedBy r.sess = false := ownedBy_free rfl _
  obtain ⟨hframe, hfreed⟩ := foldl_onOwned (key := id) (f := fun _ => Cell.freed) cells (s.heard r) (mapOwned_twice_of_ends hends)
  have hexist : ¬(cells.any (fun c => decide (64 ≤ c)) = true) := by
    simpa using fun c hc => (hcells c hc).1
  have howned : ¬(cells.any (fun c => !(s.heard r).owns r.sess c) = true) := by
    simpa using fun c hc => (hcells c hc).2
  have hexec : exec (.ownRelease r cells) s = .next (v.reply r 0x21 Status.OK []) := by
    show Host.Outcome.next (s.request r 0x21 _) = _
    rw [request_of_takes _ ht, if_neg hexist, if_neg howned]
    rfl
  have hanswer := reply_only v r 0x21 Status.OK []
  refine ⟨_, hexec, replied_reply .., fun c hc => ?_, fun c hc => ?_, (((heard_only s r).trans hframe).trans hanswer).mono (by simp) (by simp)⟩
  · rw [hanswer.cell (by simp), hfreed, List.map_id, if_pos hc, heard_cell, Cell.mapOwned, ← owns_eq, if_pos (hcells c hc).2]
    exact ⟨rfl, rfl⟩
  · rw [hanswer.cell (by simp), hfreed, List.map_id, if_neg hc, heard_cell]

theorem ownQuery_answers {cells : List Nat} (ht : s.takes r 0x22) (hlen : cells.length ≤ 64) (hcells : ∀ c ∈ cells, c < 64) :
    ∃ t, exec (.ownQuery r cells) s = .next t ∧ t.replied r 0x22 Status.OK (cells.flatMap s.cellRecord) ∧
      OnlyChanges [.sessions, .out, .free] txIds s t := by
  have hexec : exec (.ownQuery r cells) s = .next ((s.heard r).reply r 0x22 Status.OK (cells.flatMap (s.heard r).cellRecord)) := by
    show Host.Outcome.next (s.request r 0x22 _) = _
    rw [request_of_takes _ ht, if_neg (names_fit (key := fun c => c) hlen hcells)]
  refine ⟨_, hexec, ?_, (heardReply_only ..).mono (by simp) (by simp)⟩
  rw [(heard_only s r).cellRecord (by simp) (by simp)]
  exact replied_reply ..

/-- A cell that a session has taken over. -/
def Cell.taken (sess aon : Nat) (x : Cell) : Cell :=
  { x with owner := sess, orphan := false, gen := (x.gen + 1) % 65536, expiry := aon + leaseCycles x.lease }

/-- A cell that a session takes over in hardware, where it is ORPHANED (R86). -/
def Cell.reclaimed (sess aon : Nat) (x : Cell) : Cell := if x.orphan then x.taken sess aon else x

/-- A session takes over one cell, and its former owner is told. -/
def State.reclaimOne (s : State) (sess c : Nat) : State :=
  if (s.cell c).orphan then
    (s.setCell c ((s.cell c).taken sess s.aon)).notifyTo (s.cell c).owner 3 2 (leBytes 1 c ++ leBytes 1 0 ++ leBytes 2 ((s.cell c).gen + 1))
  else s

theorem reclaimOne_spec (s : State) (sess c : Nat) :
    OnlyChanges [.cells, .sessions, .out, .free] (Sys.NOTIFY_DROPPED :: txIds) s (s.reclaimOne sess c) ∧
      (s.reclaimOne sess c).cell c = (s.cell c).reclaimed sess s.aon ∧ ∀ j, j ≠ c → (s.reclaimOne sess c).cell j = s.cell j := by
  unfold State.reclaimOne
  split
  next horphan =>
    have htold := notifyTo_only (s.setCell c ((s.cell c).taken sess s.aon)) (s.cell c).owner 3 2
      (leBytes 1 c ++ leBytes 1 0 ++ leBytes 2 ((s.cell c).gen + 1))
    refine ⟨((setCell_only ..).trans htold).mono (by simp) (by simp), ?_, fun j hj => ?_⟩
    · rw [htold.cell (by simp), cell_setCell_same, Cell.reclaimed, if_pos horphan]
    · rw [htold.cell (by simp), cell_setCell_other hj]
  next h => exact ⟨(OnlyChanges.refl s).mono (by simp) (by simp), by rw [Cell.reclaimed, if_neg h], fun _ _ => rfl⟩

theorem reclaim_spec (l : List (Nat × Nat)) (s : State) (sess : Nat) :
    let t := l.foldl (fun t c => t.reclaimOne sess c.1) s
    OnlyChanges [.cells, .sessions, .out, .free] (Sys.NOTIFY_DROPPED :: txIds) s t ∧
      ∀ j, t.cell j = if j ∈ l.map Prod.fst then (s.cell j).reclaimed sess s.aon else s.cell j := by
  refine ⟨OnlyChanges.foldl l ((OnlyChanges.refl s).mono (by simp) (by simp)) fun t c _ => (reclaimOne_spec t sess c.1).1, ?_⟩
  refine foldl_cell (P := fun t => t.aon = s.aon) rfl (fun t c ht => ?_) (fun t c ht => ?_) (fun t c => (reclaimOne_spec t sess c.1).2.2) fun x => ?_
  · rw [(reclaimOne_spec t sess c.1).1.aon (by simp), ht]
  · rw [(reclaimOne_spec t sess c.1).2.1, ht]
  · by_cases h : x.orphan = true <;> simp [Cell.reclaimed, Cell.taken, h]

/-- What a reclaim refuses: a cell that is not ORPHANED, or not with the GEN given (R86). -/
def State.refuses (s : State) (c : Nat × Nat) : Bool := !((s.cell c.1).orphan && (s.cell c.1).owner != 0 && (s.cell c.1).gen == c.2)

section
variable {cells : List (Nat × Nat)}

theorem exec_ownReclaim (ht : s.takes r 0x23) (hlen : cells.length ≤ 64) (hcells : ∀ c ∈ cells, c.1 < 64) (hleases : s.leasesRun) :
    exec (.ownReclaim r cells) s = .next (
      if cells.filter s.refuses = [] then
        (cells.foldl (fun t c => t.reclaimOne r.sess c.1) (s.heard r)).reply r 0x23 Status.OK
          (cells.flatMap fun c => (cells.foldl (fun t c => t.reclaimOne r.sess c.1) (s.heard r)).cellRecord c.1)
      else (s.heard r).reply r 0x23 Status.NOT_OWNER ((cells.filter s.refuses).flatMap fun c => (s.heard r).cellRecord c.1)) := by
  have hrefuses : (s.heard r).refuses = s.refuses := by
    funext c
    simp only [State.refuses, heard_cell]
  show Host.Outcome.next (s.request r 0x23 _) = _
  rw [request_of_takes _ ht, if_neg (names_fit (key := Prod.fst) hlen hcells), expireDue_of_leasesRun (heard_leasesRun hleases r), ← hrefuses]
  rfl

variable (ht : s.takes r 0x23) (hlen : cells.length ≤ 64) (hcells : ∀ c ∈ cells, c.1 < 64) (hleases : s.leasesRun)
include ht hlen hcells hleases

theorem ownReclaim_takesOver (hall : ∀ c ∈ cells, (s.cell c.1).orphan = true ∧ (s.cell c.1).owner ≠ 0 ∧ (s.cell c.1).gen = c.2) :
    ∃ t pl, exec (.ownReclaim r cells) s = .next t ∧ t.replied r 0x23 Status.OK pl ∧
      (∀ c ∈ cells, t.cell c.1 = { s.cell c.1 with
        owner := r.sess, orphan := false, gen := (c.2 + 1) % 65536, expiry := s.aon + 25000 * (s.cell c.1).lease }) ∧
      (∀ c, (∀ e ∈ cells, e.1 ≠ c) → t.cell c = s.cell c) ∧
      OnlyChanges [.cells, .sessions, .out, .free] (Sys.NOTIFY_DROPPED :: txIds) s t := by
  have hnone : cells.filter s.refuses = [] := by
    rw [List.filter_eq_nil_iff]
    intro c hc
    obtain ⟨horphan, howner, hgen⟩ := hall c hc
    simp [State.refuses, horphan, howner, hgen]
  have hexec := exec_ownReclaim ht hlen hcells hleases
  rw [if_pos hnone] at hexec
  obtain ⟨hframe, htaken⟩ := reclaim_spec cells (s.heard r) r.sess
  have hanswer (pl : List Byte) := reply_only (cells.foldl (fun t c => t.reclaimOne r.sess c.1) (s.heard r)) r 0x23 Status.OK pl
  refine ⟨_, _, hexec, replied_reply .., fun c hc => ?_, fun c hc => ?_,
    (((heard_only s r).trans hframe).trans (hanswer _)).mono (by simp) (by simp +contextual)⟩
  · obtain ⟨horphan, -, hgen⟩ := hall c hc
    rw [(hanswer _).cell (by simp), htaken, if_pos (List.mem_map_of_mem hc), heard_cell, heard_aon, Cell.reclaimed, if_pos horphan, Cell.taken,
      hgen, leaseCycles, Nat.mul_comm]
  · have hmem : c ∉ cells.map Prod.fst := by simpa using fun g hg => hc (c, g) hg rfl
    rw [(hanswer _).cell (by simp), htaken, if_neg hmem, heard_cell]

theorem ownReclaim_refused (hsome : ∃ c ∈ cells, (s.cell c.1).orphan = false ∨ (s.cell c.1).owner = 0 ∨ (s.cell c.1).gen ≠ c.2) :
    ∃ t pl, exec (.ownReclaim r cells) s = .next t ∧ t.replied r 0x23 Status.NOT_OWNER pl ∧ OnlyChanges [.sessions, .out, .free] txIds s t := by
  have hrefused : cells.filter s.refuses ≠ [] := by
    obtain ⟨c, hc, hbad⟩ := hsome
    rw [ne_eq, List.filter_eq_nil_iff]
    refine fun h => h c hc ?_
    rcases hbad with hbad | hbad | hbad <;> simp [State.refuses, hbad]
  have hexec := exec_ownReclaim ht hlen hcells hleases
  rw [if_neg hrefused] at hexec
  exact ⟨_, _, hexec, replied_reply .., (heardReply_only ..).mono (by simp) (by simp)⟩

end

end

/-- Settles O18: each request on cells by what it leaves of each cell. -/
theorem ownershipIsHeldUnderLeases : Obligations.OwnershipIsHeldUnderLeases :=
  ⟨⟨fun _ _ _ ht hpl hleases => heartbeat_refreshes ht hpl hleases, fun _ _ howned => leaseExpiry_frees howned⟩,
    fun _ _ _ _ ht hsess hlen hcells hleases => ⟨ownAcquire_range ht hlen hcells hleases, ownAcquire_grants ht hsess hlen hcells hleases,
      ownAcquire_contended ht hsess hlen hcells hleases⟩,
    fun _ _ => ⟨fun _ ht hcells => ownRelease_frees ht hcells, fun _ ht hlen hcells => ownQuery_answers ht hlen hcells,
      fun _ ht hlen hcells hleases => ⟨ownReclaim_takesOver ht hlen hcells hleases, ownReclaim_refused ht hlen hcells hleases⟩⟩⟩

end Sys2Proof.Machine

/-! NMP headers, sessions that open and close, notices that nothing acknowledges (R66 to R68, R72, R73, R92), and O17. -/

namespace Sys2Proof.Machine

/-! ## The header (Table 03-1) -/

theorem leNat_append (a b : List Byte) : leNat (a ++ b) = leNat a + 256 ^ a.length * leNat b := by
  induction a with
  | nil => simp [leNat]
  | cons x a ih =>
    rw [List.cons_append, leNat, leNat, ih, List.length_cons, Nat.pow_succ]
    ring

theorem nmpHeader_length (m : Msg) (count index length : Nat) : (nmpHeader m count index length).length = 16 := by
  simp [nmpHeader]

/-- The number that a header's bytes stand for: each field at its place. -/
theorem leNat_nmpHeader {m : Msg} {count index length : Nat} (hop : m.op < 2 ^ 8) (hsess : m.sess < 2 ^ 8) (hseq : m.seq < 2 ^ 32)
    (hstatus : m.status < 2 ^ 16) (hlength : length < 2 ^ 16) (hindex : index < 2 ^ 16) (hcount : count < 2 ^ 16) :
    leNat (nmpHeader m count index length) = 1 + 2 ^ 8 * m.op + 2 ^ 16 * m.sess + 2 ^ 24 * (1 + (if 1 < count then 2 else 0)) + 2 ^ 32 * m.seq +
      2 ^ 64 * m.status + 2 ^ 80 * length + 2 ^ 96 * index + 2 ^ 112 * count := by
  have hflags : (1 + (if 1 < count then 2 else 0)) % 256 = 1 + (if 1 < count then 2 else 0) := by split <;> rfl
  simp only [nmpHeader, leNat_append, leNat_leBytes, leBytes_length, List.length_append]
  norm_num only [hflags]
  omega

theorem parseHeader_nmpHeader {m : Msg} {count index length : Nat} (rest : List Byte) (hop : m.op < 2 ^ 8) (hsess : m.sess < 2 ^ 8)
    (hseq : m.seq < 2 ^ 32) (hstatus : m.status < 2 ^ 16) (hlength : length < 2 ^ 16) (hindex : index < 2 ^ 16) (hcount : count < 2 ^ 16) :
    parseHeader (nmpHeader m count index length ++ rest) =
      { version := 1, op := m.op, sess := m.sess, response := true, segmented := decide (1 < count), seq := m.seq, length := length,
        index := index, count := count } := by
  have htake : (nmpHeader m count index length ++ rest).take 16 = nmpHeader m count index length := by
    rw [List.take_append_of_le_length (by rw [nmpHeader_length]), List.take_of_length_le (by rw [nmpHeader_length])]
  simp only [parseHeader, htake, leNat_nmpHeader hop hsess hseq hstatus hlength hindex hcount, bits, bit, NmpHeader.mk.injEq]
  refine ⟨?_, ?_, ?_, ?responseBit, ?segmentedBit, ?_, ?_, ?_, ?_⟩
  case responseBit =>
    rw [beq_iff_eq]
    split <;> omega
  case segmentedBit =>
    rw [Bool.eq_iff_iff, beq_iff_eq, decide_eq_true_eq]
    split <;> omega
  all_goals split <;> omega

/-! ## SESSION_OPEN (R67, R68) -/

section
variable {port : Fin 2} {seq : Nat} {pl : List Byte} {s : State} (peer : Peer)

/-- The IDs go round from the one assigned last: a free one is found where there is one (R68). -/
theorem nextSessionId_free {s : State} (h : ∃ id, 1 ≤ id ∧ id ≤ 255 ∧ s.idFree id = true) :
    1 ≤ s.nextSessionId ∧ s.nextSessionId ≤ 255 ∧ s.idFree s.nextSessionId = true := by
  obtain ⟨id, hmin, hmax, hfree⟩ := h
  let ids := (List.range 255).map fun k => (s.nmp.lastId + k) % 255 + 1
  have hids : id ∈ ids := List.mem_map.2 ⟨(id + 254 - s.nmp.lastId % 255) % 255, by simp; omega, by omega⟩
  obtain ⟨n, hn⟩ := Option.isSome_iff_exists.1 (List.find?_isSome.2 ⟨id, hids, hfree⟩)
  have hnext : s.nextSessionId = n := by rw [State.nextSessionId, hn]; rfl
  obtain ⟨k, -, hk⟩ := List.mem_map.1 (List.mem_of_find?_eq_some hn)
  rw [hnext]
  exact ⟨by omega, by omega, List.find?_some (p := s.idFree) hn⟩

/-- The session that an accepted SESSION_OPEN opens (R67, R91). -/
def State.newSession (s : State) (port : Nat) (peer : Peer) (pl : List Byte) (nonce : Nat) : Session :=
  { key := sessionKey s.nmp.ownerKey (pl.take 16) nonce s.nextSessionId, port := port, peer := peer, mask := leAt pl 16 4, lastRequest := s.clock }

/-- The state in which a session has just been opened. -/
def State.opened (s : State) (x : Session) : State :=
  { s.draw.2.setSession s.nextSessionId x with nmp := { (s.draw.2.setSession s.nextSessionId x).nmp with lastId := s.nextSessionId } }

theorem opened_only (s : State) (x : Session) : OnlyChanges [.sessions, .nmp, .free] [] s (s.opened x) := by
  let v := s.draw.2.setSession s.nextSessionId x
  have hlast := setNmp_only v { v.nmp with lastId := s.nextSessionId } rfl rfl rfl rfl rfl
  exact (((draw_only s).trans (setSession_only ..)).trans hlast).mono (by simp) (by simp)

theorem openPayload_length (s : State) (id nonce : Nat) : (s.openPayload id nonce).length = 44 := by
  simp [State.openPayload]

theorem sessionOpen_opens (hanswers : s.negorAnswers = true) (hconfirmed : s.pow.confirmed = true) (hroom : s.nmp.sessions.length < 16)
    (hpl : pl.length = 20) (hfree : ∃ id, 1 ≤ id ∧ id ≤ 255 ∧ s.idFree id = true) :
    ∃ t id nonce x, exec (.sessionOpen port peer seq pl) s = .next t ∧ 1 ≤ id ∧ id ≤ 255 ∧ s.idFree id = true ∧ t.nmp.lastId = id ∧
      t.session id = some x ∧ x.key = sessionKey s.nmp.ownerKey (pl.take 16) nonce id ∧ x.port = port.val ∧ x.peer = peer ∧ x.mask = leAt pl 16 4 ∧
      (s.openPayload id nonce).length = 44 ∧
      t.out = .nmp port.val peer (s.control port.val 0) true ⟨id, seq, 1, Status.OK, s.openPayload id nonce⟩ :: s.out ∧
      OnlyChanges [.sessions, .nmp, .free, .out] txIds s t := by
  let nonce := (Config.deviceNonce s.draw.1).toNat
  let x := s.newSession port.val peer pl nonce
  let m : Msg := ⟨s.nextSessionId, seq, 1, Status.OK, s.openPayload s.nextSessionId nonce⟩
  obtain ⟨hmin, hmax, hidFree⟩ := nextSessionId_free hfree
  have hexec : exec (.sessionOpen port peer seq pl) s = .next ((s.opened x).sendNmp port.val peer true m) := by
    show execSessionOpen .. = _
    rw [execSessionOpen, if_neg (by simp [hanswers, hconfirmed]), if_neg (by omega), if_neg (by omega)]
    rfl
  have hsent := emit_only (s.opened x) (.nmp port.val peer ((s.opened x).control port.val 0) true m)
  obtain ⟨hlast, -⟩ := hsent.2.1 .nmp (by simp)
  refine ⟨_, s.nextSessionId, nonce, x, hexec, hmin, hmax, hidFree, hlast, ?_, rfl, rfl, rfl, rfl, openPayload_length .., emit_out ..,
    ((opened_only s x).trans hsent).mono (by simp) (by simp)⟩
  rw [State.sendNmp, emit_session]
  exact session_setSession_same s.draw.2 s.nextSessionId x

theorem sessionOpen_refused (hanswers : s.negorAnswers = true) (hconfirmed : s.pow.confirmed = true)
    (hbad : 16 ≤ s.nmp.sessions.length ∨ pl.length ≠ 20) :
    ∃ t, exec (.sessionOpen port peer seq pl) s = .next t ∧ t.nmp.sessions = s.nmp.sessions ∧ OnlyChanges [.nmp, .free, .out] txIds s t := by
  have hexec : ∃ st, exec (.sessionOpen port peer seq pl) s = .next (s.openRefused port.val peer seq st) := by
    show ∃ st, execSessionOpen .. = _
    rw [execSessionOpen, if_neg (by simp [hanswers, hconfirmed])]
    by_cases hfull : 16 ≤ s.nmp.sessions.length
    · exact ⟨_, by rw [if_pos hfull]⟩
    · exact ⟨_, by rw [if_neg hfull, if_pos (hbad.resolve_left hfull)]⟩
  obtain ⟨st, hexec⟩ := hexec
  have hframe := openRefused_only s port.val peer seq st
  exact ⟨_, hexec, hframe.2.1 .sessions (by simp), hframe⟩

end

/-! ## Sessions that close (R72, R82, R93) -/

/-- What a session that closes leaves of a cell that it owns: ORPHANED, or free. -/
def Cell.left (orphan : Bool) (x : Cell) : Cell := if orphan then { x with orphan := true } else x.freed

theorem leaveCells_eq (s : State) (sess : Nat) (orphan : Bool) :
    s.leaveCells sess orphan = s.nmp.cells.foldl (fun t (p : Nat × Cell) => t.onOwned sess (fun _ => Cell.left orphan) p.1) s := rfl

theorem leaveCells_spec (s : State) (sess : Nat) (orphan : Bool) :
    OnlyChanges [.cells] [] s (s.leaveCells sess orphan) ∧
      ∀ c, (s.leaveCells sess orphan).cell c = if s.owns sess c then (s.cell c).left orphan else s.cell c := by
  have hends (x : Cell) : (x.left orphan).ownedBy sess = false := by
    cases orphan
    · exact ownedBy_free rfl _
    · simp [Cell.left, Cell.ownedBy]
  have htwice := mapOwned_twice_of_ends hends
  rw [leaveCells_eq]
  exact ⟨(foldl_onOwned s.nmp.cells s htwice).1, foldl_onOwned_all s htwice⟩

theorem endSubscription_only (s : State) (sess : Nat) : OnlyChanges [.obs] [] s (s.endSubscription sess) := by
  refine ⟨rfl, fun p hp => ?_, fun _ _ => rfl⟩
  cases p with
  | obs => simp at hp
  | mem => exact fun _ => rfl
  | buffers | qps => exact ⟨rfl, rfl⟩
  | nmp => exact ⟨rfl, rfl, rfl, rfl, rfl⟩
  | _ => rfl

theorem setQps_only (s : State) (x : Table Qp) : OnlyChanges [.qps] [] s { s with qps := x } := by
  refine ⟨rfl, fun p hp => ?_, fun _ _ => rfl⟩
  cases p with
  | qps => simp at hp
  | mem => exact fun _ => rfl
  | buffers => exact ⟨rfl, rfl⟩
  | nmp => exact ⟨rfl, rfl, rfl, rfl, rfl⟩
  | _ => rfl

theorem dropQps_only (s : State) (p : Qp → Bool) : OnlyChanges [.qps] [Eth.QP_COUNT 0, Eth.QP_COUNT 1] s (s.dropQps p) := by
  unfold State.dropQps
  split
  · exact ((setQps_only s _).trans (wrAll_only _ _)).mono (by simp) (by simp)
  · exact (OnlyChanges.refl s).mono (by simp) (by simp)

theorem setSessions_only (s : State) (x : Table Session) (y : Table Partial) :
    OnlyChanges [.sessions, .nmp] [] s { s with nmp := { s.nmp with sessions := x, partials := y } } := by
  refine ⟨rfl, fun p hp => ?_, fun _ _ => rfl⟩
  cases p with
  | sessions | nmp => simp at hp
  | mem => exact fun _ => rfl
  | buffers | qps => exact ⟨rfl, rfl⟩
  | _ => rfl

theorem closeSession_spec (s : State) (sess : Nat) (orphan : Bool) :
    let t := s.closeSession sess orphan
    t.session sess = none ∧ (∀ c, t.cell c = if s.owns sess c then (s.cell c).left orphan else s.cell c) ∧
      OnlyChanges [.sessions, .cells, .nmp, .qps, .obs] [Eth.QP_COUNT 0, Eth.QP_COUNT 1] s t := by
  obtain ⟨hleave, hcells⟩ := leaveCells_spec s sess orphan
  let v := ((s.leaveCells sess orphan).endSubscription sess).dropQps fun q => q.use == .buffer sess
  have hqps : OnlyChanges [.obs, .qps] [Eth.QP_COUNT 0, Eth.QP_COUNT 1] (s.leaveCells sess orphan) v :=
    (endSubscription_only ..).trans (dropQps_only ..)
  have hclosed := setSessions_only v (tdel v.nmp.sessions sess) (v.nmp.partials.filter fun p => decide (p.1 / 2 ^ 32 ≠ sess))
  have hrest := hqps.trans hclosed
  refine ⟨tfind_tdel_same .., fun c => ?_, (hleave.trans hrest).mono (by simp) (by simp)⟩
  rw [← hcells c]
  exact hrest.cell (by simp) c

theorem sessionClose_closes {r : Req} {s : State} (ht : s.takes r 0x02) :
    ∃ t, exec (.sessionClose r) s = .next t ∧ t.session r.sess = none ∧ t.replied r 0x02 Status.OK [] ∧
      (∀ c, s.owns r.sess c = true → (t.cell c).owner = 0 ∧ (t.cell c).gen = ((s.cell c).gen + 1) % 65536) ∧
      (∀ c, s.owns r.sess c = false → t.cell c = s.cell c) ∧
      OnlyChanges [.sessions, .cells, .nmp, .qps, .out, .free, .obs] (Eth.QP_COUNT 0 :: Eth.QP_COUNT 1 :: txIds) s t := by
  have hexec : exec (.sessionClose r) s = .next (((s.heard r).reply r 0x02 Status.OK []).closeSession r.sess false) :=
    congrArg Host.Outcome.next (request_of_takes _ ht)
  have hanswer := heardReply_only s r 0x02 Status.OK []
  obtain ⟨hclosed, hcells, hframe⟩ := closeSession_spec ((s.heard r).reply r 0x02 Status.OK []) r.sess false
  have hreplied := replied_reply (s.heard r) r 0x02 Status.OK []
  rw [State.replied, ← (hframe.2.1 .out (by simp) : _ = ((s.heard r).reply r 0x02 Status.OK []).out)] at hreplied
  have hleft (c : Nat) := hcells c
  simp only [owns_eq, hanswer.cell (by simp)] at hleft
  refine ⟨_, hexec, hclosed, hreplied, fun c hown => ?_, fun c hown => ?_, (hanswer.trans hframe).mono (by simp) (by simp; tauto)⟩
  · rw [owns_eq] at hown
    rw [hleft c, if_pos hown]
    exact ⟨rfl, rfl⟩
  · rw [owns_eq] at hown
    simp only [hleft c, hown, Bool.false_eq_true, if_false]

theorem sessionIdleClose_orphans {sess : Nat} {x : Session} {s : State} (hx : s.session sess = some x) (hanswers : s.negorAnswers = true) :
    ∃ t, exec (.sessionIdleClose sess) s = .next t ∧ t.session sess = none ∧
      t.clock = max s.clock (x.lastRequest + s.rd Sys.SESSION_IDLE_LIMIT * 1000000) ∧
      (∀ c, s.owns sess c = true → t.cell c = { s.cell c with orphan := true }) ∧
      (∀ c, s.owns sess c = false → t.cell c = s.cell c) ∧
      OnlyChanges [.clock, .sessions, .cells, .nmp, .qps, .obs] [Eth.QP_COUNT 0, Eth.QP_COUNT 1] s t := by
  let v := s.at (x.lastRequest + s.rd Sys.SESSION_IDLE_LIMIT * 1000000)
  obtain ⟨hclosed, hcells, hframe⟩ := closeSession_spec v sess true
  have hexec : exec (.sessionIdleClose sess) s = .next (v.closeSession sess true) := by
    simp only [exec, execSessionIdleClose, hx, hanswers, if_true]
    rfl
  refine ⟨_, hexec, hclosed, hframe.2.1 .clock (by simp), fun c hown => ?_, fun c hown => ?_, ((at_only s _).trans hframe).mono (by simp) (by simp)⟩
  · exact (hcells c).trans (if_pos hown)
  · exact (hcells c).trans (if_neg (by rw [show v.owns sess c = false from hown]; exact Bool.false_ne_true))

/-! ## Notices that nothing acknowledges, segments that do not come, opcodes outside the table (R66, R73, R92) -/

/-- A notice that is sent again now. -/
def Unacked.again (clock seq : Nat) (v : Unacked) : Unacked := if v.seq = seq then { v with sends := v.sends + 1, sentAt := clock } else v

theorem find?_again {l : List Unacked} {seq : Nat} {u : Unacked} (clock : Nat) (h : l.find? (fun u => u.seq == seq) = some u) :
    (l.map (Unacked.again clock seq)).find? (fun u => u.seq == seq) = some { u with sends := u.sends + 1, sentAt := clock } := by
  have hseq : u.seq = seq := by simpa using List.find?_some h
  have hsame : ((fun u : Unacked => u.seq == seq) ∘ Unacked.again clock seq) = fun u => u.seq == seq := by
    funext v
    simp only [Function.comp, Unacked.again]
    split <;> rfl
  rw [List.find?_map, hsame, h, Option.map_some, Unacked.again, if_pos hseq]

section
variable {sess seq : Nat} {x : Session} {u : Unacked} {s : State} (hanswers : s.negorAnswers = true) (hx : s.session sess = some x)
  (hu : x.unacked.find? (fun u => u.seq == seq) = some u)
include hanswers hx hu

theorem notifyRetransmit_again (hsends : u.sends < 8) :
    ∃ t, exec (.notifyRetransmit sess seq) s = .next t ∧ t.clock = max s.clock (u.sentAt + 100000000) ∧
      t.out = .nmp x.port x.peer (s.control x.port 0) true ⟨sess, seq, 0x80, 0, u.payload⟩ :: s.out ∧
      (∃ y, t.session sess = some y ∧ y.unacked.find? (fun u => u.seq == seq) = some { u with sends := u.sends + 1, sentAt := t.clock }) ∧
      OnlyChanges [.clock, .sessions, .out, .free] txIds s t := by
  let v := s.at (u.sentAt + 100000000)
  let y : Session := { x with unacked := x.unacked.map (Unacked.again v.clock seq) }
  let m : Msg := ⟨sess, seq, 0x80, 0, u.payload⟩
  have hexec : exec (.notifyRetransmit sess seq) s = .next ((v.setSession sess y).sendNmp x.port x.peer true m) := by
    simp only [exec, execNotifyRetransmit, hx, hu, hanswers, Bool.true_eq_false, if_false, if_pos hsends]
    rfl
  have hsent := emit_only (v.setSession sess y) (.nmp x.port x.peer ((v.setSession sess y).control x.port 0) true m)
  have hclock : ((v.setSession sess y).sendNmp x.port x.peer true m).clock = v.clock := hsent.2.1 .clock (by simp)
  refine ⟨_, hexec, hclock, emit_out .., ⟨y, ?_, ?_⟩, (((at_only s _).trans (setSession_only ..)).trans hsent).mono (by simp) (by simp)⟩
  · rw [State.sendNmp, emit_session, session_setSession_same]
  · rw [hclock]
    exact find?_again v.clock hu

theorem notifyRetransmit_givesUp (hsends : 8 ≤ u.sends) :
    ∃ t, exec (.notifyRetransmit sess seq) s = .next t ∧ t.out = s.out ∧
      t.rd Sys.NOTIFY_DROPPED = countUp (s.rd Sys.NOTIFY_DROPPED) 1 ∧
      (∃ y, t.session sess = some y ∧ y.dropped = true ∧ ∀ v ∈ y.unacked, v.seq ≠ seq) ∧
      OnlyChanges [.clock, .sessions] [Sys.NOTIFY_DROPPED] s t := by
  let v := s.at (u.sentAt + 100000000)
  let y : Session := { x with unacked := x.unacked.filter (fun v => v.seq != seq), dropped := true }
  have hexec : exec (.notifyRetransmit sess seq) s = .next ((v.setSession sess y).count Sys.NOTIFY_DROPPED) := by
    simp only [exec, execNotifyRetransmit, hx, hu, hanswers, Bool.true_eq_false, if_false, if_neg (Nat.not_lt.2 hsends)]
    rfl
  have hcount := count_only (v.setSession sess y) Sys.NOTIFY_DROPPED
  refine ⟨_, hexec, hcount.2.1 .out (by simp), rd_count_counter (by decide) _, ⟨y, ?_, rfl, fun n hn => ?_⟩,
    (((at_only s _).trans (setSession_only ..)).trans hcount).mono (by simp) (by simp)⟩
  · rw [count_session, session_setSession_same]
  · simpa using (List.mem_filter.1 hn).2

end

theorem nmpReassemblyTimeout_discards {sess seq : Nat} {p : Partial} {s : State} (hp : tfind s.nmp.partials (sess * 2 ^ 32 + seq) = some p) :
    ∃ t, exec (.nmpReassemblyTimeout sess seq) s = .next t ∧ tfind t.nmp.partials (sess * 2 ^ 32 + seq) = none ∧
      t.clock = max s.clock (p.firstAt + 500000000) ∧ t.rd (Sys.NMP_DROP_COUNT 5) = countUp (s.rd (Sys.NMP_DROP_COUNT 5)) 1 ∧
      OnlyChanges [.clock, .nmp] [Sys.NMP_DROP_COUNT 5] s t := by
  let v := s.at (p.firstAt + 500000000)
  let w : State := { v with nmp := { v.nmp with partials := tdel v.nmp.partials (sess * 2 ^ 32 + seq) } }
  have hw : OnlyChanges [.nmp] [] v w := setNmp_only v _ rfl rfl rfl rfl rfl
  have hexec : exec (.nmpReassemblyTimeout sess seq) s = .next (w.drop 5) := by
    simp only [exec, execNmpReassemblyTimeout, hp]
    rfl
  have hcount := count_only w (Sys.NMP_DROP_COUNT 5)
  obtain ⟨-, hpartials, -⟩ := hcount.2.1 .nmp (by simp)
  refine ⟨_, hexec, ?_, hcount.2.1 .clock (by simp), rd_count_counter (isCounter_dropCount (by decide)) _,
    (((at_only s _).trans hw).trans hcount).mono (by simp) (by simp)⟩
  rw [State.drop, hpartials]
  exact tfind_tdel_same ..

theorem unsupportedOpcode_answers {r : Req} {op : Nat} {s : State} (ht : s.takes r op) :
    ∃ t, exec (.unsupportedOpcode r op) s = .next t ∧ t.replied r op Status.UNSUPPORTED [] ∧ OnlyChanges [.out, .free, .sessions] txIds s t :=
  ⟨_, congrArg Host.Outcome.next (request_of_takes _ ht), replied_reply .., heardReply_only ..⟩

/-- Settles O17: the header by the number its bytes stand for, each row by its own lemma. -/
theorem sessionsHeadersAndRetries : Obligations.SessionsHeadersAndRetries :=
  ⟨fun _ _ _ _ rest hop hsess hseq hstatus hlength hindex hcount =>
      ⟨nmpHeader_length .., parseHeader_nmpHeader rest hop hsess hseq hstatus hlength hindex hcount⟩,
    ⟨fun _ peer _ _ _ hanswers hconfirmed => ⟨sessionOpen_opens peer hanswers hconfirmed, sessionOpen_refused peer hanswers hconfirmed⟩,
      fun _ _ ht => sessionClose_closes ht, fun _ _ _ hx hanswers => sessionIdleClose_orphans hx hanswers⟩,
    fun _ _ _ _ _ hanswers hx hu => ⟨notifyRetransmit_again hanswers hx hu, notifyRetransmit_givesUp hanswers hx hu⟩,
    fun _ _ _ _ hp => nmpReassemblyTimeout_discards hp, fun _ _ _ ht => unsupportedOpcode_answers ht⟩

end Sys2Proof.Machine

/-! Host buffers and RDMA (R87 to R90, R314): the tables of buffers and queue pairs, what BUF_FREE and the retire fence leave, the messages on a key,
and O19. -/

namespace Sys2Proof.Machine

/-! ## The table of buffers and their memory -/

/-- A change of the buffers and of their memory. -/
theorem setStore_only (s : State) (buffers : Table Buffer) (serial : Nat) (mem : List Host.Cell) :
    OnlyChanges [.mem, .buffers] [] s { s with nmp := { s.nmp with buffers := buffers, bufSerial := serial, mem := mem } } := by
  refine ⟨rfl, fun p hp => ?_, fun _ _ => rfl⟩
  cases p with
  | mem | buffers => simp at hp
  | qps => exact ⟨rfl, rfl⟩
  | nmp => exact ⟨rfl, rfl, rfl, rfl, rfl⟩
  | _ => rfl

theorem setBuffers_only (s : State) (buffers : Table Buffer) (serial : Nat) :
    OnlyChanges [.buffers] [] s { s with nmp := { s.nmp with buffers := buffers, bufSerial := serial } } :=
  (setStore_only s buffers serial s.nmp.mem).drop fun _ => rfl

theorem setBuf_only (s : State) (n : Nat) (b : Buffer) : OnlyChanges [.buffers] [] s (s.setBuf n b) := setBuffers_only s _ s.nmp.bufSerial

theorem setQp_only (s : State) (k : Nat) (q : Qp) : OnlyChanges [.qps] [] s (s.setQp k q) := setQps_only s _

theorem OnlyChanges.buffers {ps : List Part} {ids : List Nat} {s t : State} (h : OnlyChanges ps ids s t) (hp : .buffers ∉ ps) :
    t.nmp.buffers = s.nmp.buffers :=
  (h.2.1 .buffers hp).1

@[simp] theorem heard_buffers (s : State) (r : Req) : (s.heard r).nmp.buffers = s.nmp.buffers := (heard_only s r).buffers (by simp)

@[simp] theorem heard_bufSerial (s : State) (r : Req) : (s.heard r).nmp.bufSerial = s.nmp.bufSerial := ((heard_only s r).2.1 .buffers (by simp)).2

@[simp] theorem heard_poolUsed (s : State) (r : Req) : (s.heard r).poolUsed = s.poolUsed := by simp [State.poolUsed]

@[simp] theorem heard_bufOf (s : State) (r : Req) (h : Nat) : (s.heard r).bufOf h = s.bufOf h := by simp [State.bufOf]

theorem memReadN_length (m : List Host.Cell) (a n : Nat) : (memReadN m a n).length = n := by
  induction n generalizing a with
  | zero => rfl
  | succ n ih => rw [memReadN, List.length_cons, ih]

theorem memReadN_congr {m m' : List Host.Cell} (h : ∀ a, memRead m' a = memRead m a) (a n : Nat) : memReadN m' a n = memReadN m a n := by
  induction n generalizing a with
  | zero => rfl
  | succ n ih => rw [memReadN, memReadN, h, ih]

/-! ## BUF_ALLOC and BUF_INFO (R87, R90) -/

theorem freshNumber_ne_zero (drawn : Nat) (used : List Nat) : freshNumber drawn used ≠ 0 := by
  unfold freshNumber
  split
  · next h => exact h.1
  · cases hfind : ((List.range (used.length + 1)).map (· + 1)).find? fun n => !used.contains n with
    | none => exact Nat.one_ne_zero
    | some n =>
      obtain ⟨k, -, hk⟩ := List.mem_map.1 (List.mem_of_find?_eq_some hfind)
      rw [Option.getD_some]
      omega

/-- The buffer that BUF_ALLOC gives, of the draw `k` (R87). -/
def State.newBuffer (s : State) (cell size k : Nat) : Buffer where
  handle := freshNumber (Config.bufferHandle k).toNat ((s.nmp.buffers.map Prod.snd).map Buffer.handle)
  cell := cell
  size := size
  key := freshNumber (Config.rdmaKey k).toNat ((s.nmp.buffers.map Prod.snd).map Buffer.key)
  keyValid := true
  va := (Config.remoteAddress k).toNat / 4096 * 4096

/-- A new buffer under the next serial number, and the draw it took. -/
def State.addBuffer (s : State) (b : Buffer) : State :=
  { s.draw.2 with nmp := { s.nmp with buffers := tins s.nmp.buffers (s.nmp.bufSerial + 1) b, bufSerial := s.nmp.bufSerial + 1 } }

theorem addBuffer_only (s : State) (b : Buffer) : OnlyChanges [.free, .buffers] [] s (s.addBuffer b) :=
  (draw_only s).trans (setBuffers_only s.draw.2 (tins s.nmp.buffers (s.nmp.bufSerial + 1) b) (s.nmp.bufSerial + 1))

section
variable {r : Req} {s : State}

section
variable {cell size : Nat} (ht : s.takes r 0x40) (hcell : cell < 64) (howns : s.owns r.sess cell = true) (hmin : 1 ≤ size) (hmax : size ≤ 2 ^ 28)
include ht hcell howns hmin hmax

theorem bufAlloc_allocates (hroom : s.poolUsed + ceilDiv size 4096 ≤ s.rd Sys.BUF_POOL_SIZE * 256) :
    ∃ t b, exec (.bufAlloc r cell size) s = .next t ∧ tfind t.nmp.buffers (s.nmp.bufSerial + 1) = some b ∧ b.size = size ∧
      b.cell = cell ∧ b.keyValid = true ∧ b.freed = false ∧ b.handle ≠ 0 ∧ b.va % 4096 = 0 ∧
      (∀ n, n ≠ s.nmp.bufSerial + 1 → tfind t.nmp.buffers n = tfind s.nmp.buffers n) ∧
      t.replied r 0x40 Status.OK (leBytes 8 b.handle ++ leBytes 4 b.key ++ leBytes 8 b.va) ∧
      OnlyChanges [.buffers, .sessions, .out, .free] txIds s t := by
  let b := (s.heard r).newBuffer cell size (s.heard r).freeCtr
  have hexec : exec (.bufAlloc r cell size) s = .next (((s.heard r).addBuffer b).reply r 0x40 Status.OK
      (leBytes 8 b.handle ++ leBytes 4 b.key ++ leBytes 8 b.va)) := by
    show Host.Outcome.next (s.request r 0x40 _) = _
    rw [request_of_takes _ ht]
    simp only [if_neg (Nat.not_le.2 hcell), heard_owns, howns, Bool.true_eq_false, if_false, if_neg (show ¬(size = 0 ∨ 2 ^ 28 < size) by omega),
      heard_rd, heard_poolUsed, if_neg (Nat.not_lt.2 hroom)]
    rfl
  have hadd := addBuffer_only (s.heard r) b
  have hreply := reply_only ((s.heard r).addBuffer b) r 0x40 Status.OK (leBytes 8 b.handle ++ leBytes 4 b.key ++ leBytes 8 b.va)
  have hbuffers : (((s.heard r).addBuffer b).reply r 0x40 Status.OK (leBytes 8 b.handle ++ leBytes 4 b.key ++ leBytes 8 b.va)).nmp.buffers =
      tins s.nmp.buffers (s.nmp.bufSerial + 1) b := by
    rw [hreply.buffers (by simp), ← heard_buffers s r, ← heard_bufSerial s r]
    rfl
  refine ⟨_, b, hexec, ?_, rfl, rfl, rfl, rfl, freshNumber_ne_zero _ _, Nat.mul_mod_left .., fun n hn => ?_, replied_reply ..,
    (((heard_only s r).trans hadd).trans hreply).mono (by simp) (by simp)⟩
  · rw [hbuffers, tfind_tins_same]
  · rw [hbuffers, tfind_tins_other hn]

theorem bufAlloc_noResource (hfull : s.rd Sys.BUF_POOL_SIZE * 256 < s.poolUsed + ceilDiv size 4096) :
    ∃ t, exec (.bufAlloc r cell size) s = .next t ∧ t.replied r 0x40 Status.NO_RESOURCE [] ∧ OnlyChanges [.sessions, .out, .free] txIds s t := by
  have hexec : exec (.bufAlloc r cell size) s = .next ((s.heard r).reply r 0x40 Status.NO_RESOURCE []) := by
    show Host.Outcome.next (s.request r 0x40 _) = _
    rw [request_of_takes _ ht]
    simp only [if_neg (Nat.not_le.2 hcell), heard_owns, howns, Bool.true_eq_false, if_false, if_neg (show ¬(size = 0 ∨ 2 ^ 28 < size) by omega),
      heard_rd, heard_poolUsed, if_pos hfull]
  exact ⟨_, hexec, replied_reply .., (heardReply_only ..).mono (by simp) (by simp)⟩

end

theorem bufInfo_answers {h n : Nat} {b : Buffer} (ht : s.takes r 0x42) (hb : s.nmp.buffers.find? (fun p => p.2.handle == h) = some (n, b)) :
    ∃ t, exec (.bufInfo r h) s = .next t ∧ OnlyChanges [.sessions, .out, .free] txIds s t ∧
      t.replied r 0x42 Status.OK (leBytes 8 b.size ++ leBytes 4 b.cell ++ leBytes 4 (if b.freed then 1 else 0) ++
        leBytes 4 b.key ++ leBytes 8 b.va ++ leBytes 4 b.inProgress) := by
  have hexec : exec (.bufInfo r h) s = .next ((s.heard r).reply r 0x42 Status.OK (leBytes 8 b.size ++ leBytes 4 b.cell ++
      leBytes 4 (if b.freed then 1 else 0) ++ leBytes 4 b.key ++ leBytes 8 b.va ++ leBytes 4 b.inProgress)) := by
    show Host.Outcome.next (s.request r 0x42 _) = _
    rw [request_of_takes _ ht]
    simp only [heard_buffers, hb]
  exact ⟨_, hexec, (heardReply_only ..).mono (by simp) (by simp), replied_reply ..⟩

end

/-! ## Consumers of a buffer (R90) -/

/-- The counters that a buffer notice moves. -/
def noticeIds : List Nat := Sys.NOTIFY_DROPPED :: txIds

/-- A consumer of a buffer in one state is one in an earlier state, where the parameters that name consumers hold the same or have been zeroed. -/
theorem bufInUse_of_zeroed {s t : State} {h : Nat} (hh : h ≠ 0) (hrd : ∀ id, id ∉ noticeIds → t.rd id = s.rd id ∨ t.rd id = 0)
    (hblob : ∀ id, t.rdBlob id = s.rdBlob id) (huse : t.bufInUse h = true) : s.bufInUse h = true := by
  have hkept {id v : Nat} (hid : id ∉ noticeIds) (hv : v ≠ 0) (ht : t.rd id = v) : s.rd id = v := by
    obtain e | e := hrd id hid
    · exact e ▸ ht
    · exact absurd (ht.symm.trans e) hv
  simp only [State.bufInUse, Bool.or_eq_true, Bool.and_eq_true, List.any_eq_true, List.mem_range, beq_iff_eq] at huse ⊢
  rcases huse with (⟨d, hd, l, hl, hlayer⟩ | ⟨c, hc, hstate, hscope⟩) | ⟨p, hp, henable, hring⟩
  · refine .inl (.inl ⟨d, hd, l, hl, ?_⟩)
    rcases hlayer with hcurrent | ⟨⟨⟨hhead, henable⟩, hsource⟩, hbuffer⟩
    · exact .inl (hkept (by simp [Head.LAYER_CURRENT, noticeIds, txIds, Sys.NOTIFY_DROPPED, Eth.TX_FRAMES, Eth.TX_BYTES]; omega) hh hcurrent)
    · refine .inr ⟨⟨⟨hkept ?_ one_ne_zero hhead, hkept ?_ one_ne_zero henable⟩, hkept ?_ two_ne_zero hsource⟩, hkept ?_ hh hbuffer⟩
      all_goals
        simp [Head.HEAD_ENABLE, Head.LAYER_ENABLE, Head.LAYER_SOURCE, Head.LAYER_BUFFER, noticeIds, txIds, Sys.NOTIFY_DROPPED, Eth.TX_FRAMES,
          Eth.TX_BYTES]
        omega
  · refine .inl (.inr ⟨c, hc, hkept ?_ one_ne_zero hstate, hkept ?_ hh hscope⟩)
    all_goals
      simp [Ctx.CTX_STATE, Stat.SCOPE_BUFFER, noticeIds, txIds, Sys.NOTIFY_DROPPED, Eth.TX_FRAMES, Eth.TX_BYTES]
      omega
  · refine .inr ⟨p, hp, hkept ?_ one_ne_zero henable, hblob _ ▸ hring⟩
    simp [Aud.PORT_ENABLE, noticeIds, txIds, Sys.NOTIFY_DROPPED, Eth.TX_FRAMES, Eth.TX_BYTES]
    omega

/-- What a buffer notice moves names no consumer. -/
theorem OnlyChanges.unused {ps : List Part} {s t : State} {h : Nat} (hframe : OnlyChanges ps noticeIds s t) (hps : ∀ id, .blob id ∉ ps) (hh : h ≠ 0)
    (hun : s.bufInUse h = false) : t.bufInUse h = false := by
  rw [← Bool.not_eq_true] at hun ⊢
  exact mt (bufInUse_of_zeroed hh (fun id hid => .inl (hframe.2.2 id hid)) fun id => hframe.2.1 (.blob id) (hps id)) hun

/-- A parameter holds what it held, or 0, once 0 has been written to one. -/
theorem rd_wr_zero (s : State) (id i : Nat) : (s.wr id 0).rd i = s.rd i ∨ (s.wr id 0).rd i = 0 := by
  by_cases hi : i = id
  · subst hi
    cases hp : paramOf i with
    | none => exact .inl (by rw [wr_unwritable (.inl hp)])
    | some p =>
      by_cases hf : p.fixed = true
      · exact .inl (by rw [wr_unwritable (.inr ⟨p, hp, hf⟩)])
      · exact .inr (by rw [rd_wr_same hp (Bool.not_eq_true _ ▸ hf), Nat.zero_mod])
  · exact .inl (rd_wr_other hi)

theorem dropScope_only (s : State) (h : Nat) : OnlyChanges [] ((List.range 32).map Stat.SCOPE_BUFFER) s (s.dropScope h) := by
  refine OnlyChanges.foldl _ ((OnlyChanges.refl s).mono (by simp) (by simp)) fun t c hc => ?_
  split
  · exact (wr_only t _ 0).mono (by simp) (by simpa using ⟨c, List.mem_range.1 hc, rfl⟩)
  · exact (OnlyChanges.refl t).mono (by simp) (by simp)

theorem rd_dropScope (s : State) (h id : Nat) : (s.dropScope h).rd id = s.rd id ∨ (s.dropScope h).rd id = 0 := by
  refine List.foldlRecOn (motive := fun t : State => t.rd id = s.rd id ∨ t.rd id = 0) _ _ (.inl rfl) fun t ht c _ => ?_
  split
  · obtain e | e := rd_wr_zero t (Stat.SCOPE_BUFFER c) id
    · exact e ▸ ht
    · exact .inr e
  · exact ht

theorem dropScope_unused {s : State} {h : Nat} (hh : h ≠ 0) (hun : s.bufInUse h = false) : (s.dropScope h).bufInUse h = false := by
  rw [← Bool.not_eq_true] at hun ⊢
  exact mt (bufInUse_of_zeroed hh (fun id _ => rd_dropScope s h id) fun id => (dropScope_only s h).2.1 (.blob id) (by simp)) hun

/-- No layer scans a buffer that nothing uses (R302). -/
theorem markStale_of_unused {s : State} {h : Nat} (hun : s.bufInUse h = false) : s.markStale h = s := by
  have hlayer : ∀ k ∈ List.range 16, ¬(h ≠ 0 ∧ s.rd (Head.LAYER_CURRENT (k / 4) (k % 4)) = h) := fun k hk hscan => by
    have huse : s.bufInUse h = true := by
      simp only [State.bufInUse, Bool.or_eq_true, List.any_eq_true, List.mem_range, beq_iff_eq]
      exact .inl (.inl ⟨k / 4, by simp at hk; omega, k % 4, by omega, .inl hscan.2⟩)
    exact absurd (hun.symm.trans huse) Bool.false_ne_true
  refine List.foldlRecOn (motive := fun t => t = s) _ _ rfl fun t ht k hk => ?_
  rw [ht, if_neg (hlayer k hk)]

/-- The marking of control traffic does not depend on the scope buffers. -/
theorem dropScope_control (s : State) (h p which : Nat) : (s.dropScope h).control p which = s.control p which := by
  have hsame {id : Nat} (hid : 0x40000000 ≤ id) : (s.dropScope h).rd id = s.rd id :=
    (dropScope_only s h).2.2 id fun hmem => by
      obtain ⟨c, hc, rfl⟩ := List.mem_map.1 hmem
      simp [Stat.SCOPE_BUFFER] at hc hid
      omega
  simp only [State.control, hsame (show 0x40000000 ≤ Eth.VLAN_ID p by simp [Eth.VLAN_ID]; omega),
    hsame (show 0x40000000 ≤ Eth.ROCE_PRIORITY p by simp [Eth.ROCE_PRIORITY]; omega),
    hsame (show 0x40000000 ≤ Eth.DSCP_CONTROL p by simp [Eth.DSCP_CONTROL]; omega)]

/-! ## The retire fence (R90) -/

/-- A buffer and its bytes are gone. -/
def State.bufferGone (s : State) (n : Nat) : Prop :=
  tfind s.nmp.buffers n = none ∧ ∀ off, off < 2 ^ 28 → memRead s.nmp.mem (bufAddr n off) = memBlank

/-- The retire fence of one buffer, where it has been freed and nothing uses it. -/
def State.retireIfOver (s : State) (p : Nat × Buffer) : State :=
  if p.2.freed && p.2.inProgress == 0 && p.2.waiting.isNone && !s.bufInUse p.2.handle then s.retireOne p.1 p.2 else s

theorem retireFreed_eq (s : State) : s.retireFreed = s.nmp.buffers.foldl State.retireIfOver s := rfl

theorem notifyTo_mem_out {s : State} {o : Output} (ho : o ∈ s.out) (sess cls code : Nat) (body : List Byte) :
    o ∈ (s.notifyTo sess cls code body).out := by
  unfold State.notifyTo
  split
  · exact ho
  · next x _ =>
    dsimp only
    have hsent (y : Session) (m : Msg) : o ∈ ((s.setSession sess y).sendNmp x.port x.peer true m).out := by
      rw [State.sendNmp, emit_out]
      exact List.mem_cons_of_mem _ ho
    split
    · rw [show (State.count _ Sys.NOTIFY_DROPPED).out = _ from (count_only ..).2.1 .out (by simp)]
      exact hsent ..
    · exact hsent ..

/-- The store of buffers once one has been retired: its entry and its bytes are gone. -/
def State.withoutBuffer (s : State) (n : Nat) : State :=
  { s with nmp := { s.nmp with buffers := tdel s.nmp.buffers n, mem := memDrop s.nmp.mem n } }

theorem withoutBuffer_only (s : State) (n : Nat) : OnlyChanges [.mem, .buffers] [] s (s.withoutBuffer n) := setStore_only s _ s.nmp.bufSerial _

theorem retireOne_eq (s : State) (n : Nat) (b : Buffer) : s.retireOne n b = (s.withoutBuffer n).bufNotify b 1 := rfl

theorem bufNotify_only (s : State) (b : Buffer) (code : Nat) : OnlyChanges [.sessions, .out, .free] noticeIds s (s.bufNotify b code) := notifyTo_only ..

theorem bufAddr_serial {n off : Nat} (hoff : off < 2 ^ 28) : bufAddr n off / 2 ^ 28 = n := by
  unfold bufAddr
  omega

theorem withoutBuffer_gone (s : State) (n : Nat) : (s.withoutBuffer n).bufferGone n :=
  ⟨tfind_tdel_same .., fun _ hoff => memDrop_same _ (bufAddr_serial hoff)⟩

theorem withoutBuffer_stays_gone {s : State} {n : Nat} (h : s.bufferGone n) (m : Nat) : (s.withoutBuffer m).bufferGone n := by
  by_cases hm : n = m
  · exact hm ▸ withoutBuffer_gone s n
  · refine ⟨(tfind_tdel_other hm).trans h.1, fun off hoff => ?_⟩
    exact (memDrop_other (by rwa [bufAddr_serial hoff])).trans (h.2 off hoff)

theorem bufNotify_stays_gone {s : State} {n : Nat} (h : s.bufferGone n) (b : Buffer) (code : Nat) : (s.bufNotify b code).bufferGone n := by
  have hframe := bufNotify_only s b code
  have hmem : ∀ a, memRead (s.bufNotify b code).nmp.mem a = memRead s.nmp.mem a := hframe.2.1 .mem (by simp)
  exact ⟨hframe.buffers (by simp) ▸ h.1, fun off hoff => (hmem _).trans (h.2 off hoff)⟩

theorem retireIfOver_only (s : State) (p : Nat × Buffer) :
    OnlyChanges [.mem, .buffers, .sessions, .out, .free] noticeIds s (s.retireIfOver p) := by
  unfold State.retireIfOver
  split
  · rw [retireOne_eq]
    exact ((withoutBuffer_only s p.1).trans (bufNotify_only _ p.2 1)).mono (by simp) (by simp)
  · exact (OnlyChanges.refl s).mono (by simp) (by simp)

theorem retireIfOver_stays_gone {s : State} {n : Nat} (h : s.bufferGone n) (p : Nat × Buffer) : (s.retireIfOver p).bufferGone n := by
  unfold State.retireIfOver
  split
  · exact bufNotify_stays_gone (withoutBuffer_stays_gone h p.1) p.2 1
  · exact h

theorem retireFreed_mem_out {s : State} {o : Output} (ho : o ∈ s.out) : o ∈ s.retireFreed.out := by
  rw [retireFreed_eq]
  refine List.foldlRecOn (motive := fun t : State => o ∈ t.out) _ _ ho fun t ht p _ => ?_
  unfold State.retireIfOver
  split
  · exact notifyTo_mem_out (s := t.withoutBuffer p.1) ht ..
  · exact ht

/-- A buffer that BUF_FREE has freed and that nothing uses is gone after the retire fences. -/
theorem retireFreed_gone {s : State} {n : Nat} {b : Buffer} (hmem : (n, b) ∈ s.nmp.buffers) (hfreed : b.freed = true) (hidle : b.inProgress = 0)
    (hwaiting : b.waiting = none) (hh : b.handle ≠ 0) (hun : s.bufInUse b.handle = false) : s.retireFreed.bufferGone n := by
  obtain ⟨before, after, hsplit⟩ := List.append_of_mem hmem
  rw [retireFreed_eq, hsplit, List.foldl_append, List.foldl_cons]
  have hframe : OnlyChanges [.mem, .buffers, .sessions, .out, .free] noticeIds s (before.foldl State.retireIfOver s) :=
    OnlyChanges.foldl _ ((OnlyChanges.refl s).mono (by simp) (by simp)) fun t p _ => retireIfOver_only t p
  generalize before.foldl State.retireIfOver s = t at hframe
  have hunused : t.bufInUse b.handle = false := hframe.unused (by simp) hh hun
  refine List.foldlRecOn (motive := fun u : State => u.bufferGone n) _ _ ?_ fun u hu p _ => retireIfOver_stays_gone hu p
  simp only [State.retireIfOver, hfreed, hidle, hwaiting, hunused, beq_self_eq_true, Option.isNone_none, Bool.not_false, Bool.and_self, if_true]
  exact bufNotify_stays_gone (withoutBuffer_gone t n) b 1

/-! ## BUF_FREE (R89, R90) -/

theorem tins_mem {α : Type} (t : Table α) (k : Nat) (a : α) : (k, a) ∈ tins t k a := by simp [tins]

section
variable {r : Req} {s : State} {h n : Nat} {b : Buffer} (ht : s.takes r 0x41) (hb : s.bufOf h = some (n, b)) (howns : s.owns r.sess b.cell = true)
  (hun : s.bufInUse h = false)

/-- The buffer once BUF_FREE has executed: its key is revoked, and the reply waits where a message is in progress (R89, R90). -/
def Buffer.freedFor (b : Buffer) (r : Req) (waiting : Option Req) : Buffer :=
  { b with keyValid := false, freed := true, freedBy := r.sess, waiting := waiting }

/-- The state in which BUF_FREE of a buffer that nothing uses goes on. -/
def State.freeing (s : State) (r : Req) (n : Nat) (b : Buffer) (waiting : Option Req) : State :=
  ((s.heard r).setBuf n (b.freedFor r waiting)).dropScope b.handle

theorem freeing_only (s : State) (r : Req) (n : Nat) (b : Buffer) (waiting : Option Req) :
    OnlyChanges [.sessions, .buffers] ((List.range 32).map Stat.SCOPE_BUFFER) s (s.freeing r n b waiting) :=
  (((heard_only s r).trans (setBuf_only _ n _)).trans (dropScope_only _ b.handle)).mono (by simp) (by simp)

theorem freeing_buffers (s : State) (r : Req) (n : Nat) (b : Buffer) (waiting : Option Req) :
    (s.freeing r n b waiting).nmp.buffers = tins s.nmp.buffers n (b.freedFor r waiting) := by
  rw [State.freeing, (dropScope_only ..).buffers (by simp), State.setBuf, heard_buffers]

theorem freeing_control (s : State) (r : Req) (n : Nat) (b : Buffer) (waiting : Option Req) (p which : Nat) :
    (s.freeing r n b waiting).control p which = s.control p which := by
  rw [State.freeing, dropScope_control]
  exact ((heard_only s r).trans (setBuf_only _ n _)).control (by simp) p which

include hb in
theorem bufOf_handle : b.handle = h ∧ h ≠ 0 := by
  have hrow := List.find?_some hb
  simp only [Bool.and_eq_true, beq_iff_eq, bne_iff_ne] at hrow
  exact ⟨hrow.1.1, hrow.2⟩

include hun in
theorem heardSetBuf_unused (r : Req) (n : Nat) (b : Buffer) (hh : h ≠ 0) : ((s.heard r).setBuf n b).bufInUse h = false :=
  (((heard_only s r).trans (setBuf_only _ n b)).mono (js := noticeIds) (fun _ => id) (by simp)).unused (by simp) hh hun

include ht hb howns hun

theorem exec_bufFree : exec (.bufFree r h) s = .next (
    if 0 < b.inProgress then s.freeing r n b (some r)
    else ((s.freeing r n b none).reply r 0x41 Status.OK []).retireFreed) := by
  obtain ⟨rfl, hh⟩ := bufOf_handle hb
  show Host.Outcome.next (s.request r 0x41 _) = _
  rw [request_of_takes _ ht]
  have hset (waiting : Option Req) := heardSetBuf_unused hun r n (b.freedFor r waiting) hh
  have hstale (waiting : Option Req) : (s.freeing r n b waiting).markStale b.handle = s.freeing r n b waiting :=
    markStale_of_unused (dropScope_unused hh (hset waiting))
  simp only [State.freeing, Buffer.freedFor] at hset hstale ⊢
  simp only [heard_bufOf, hb, heard_owns, howns, Bool.true_eq_false, if_false, hset, Bool.false_eq_true, decide_eq_true_eq, hstale]
  split <;> rfl

theorem bufFree_frees (hidle : b.inProgress = 0) :
    ∃ t, exec (.bufFree r h) s = .next t ∧ tfind t.nmp.buffers n = none ∧ (∀ off, off < 2 ^ 28 → memRead t.nmp.mem (bufAddr n off) = memBlank) ∧
      .nmp r.port r.peer (s.control r.port 0) true ⟨r.sess, r.seq, 0x41, Status.OK, []⟩ ∈ t.out := by
  have hexec := exec_bufFree ht hb howns hun
  rw [if_neg (by omega)] at hexec
  obtain ⟨rfl, hh⟩ := bufOf_handle hb
  have hreply := reply_only (s.freeing r n b none) r 0x41 Status.OK []
  have hunused : ((s.freeing r n b none).reply r 0x41 Status.OK []).bufInUse b.handle = false :=
    (hreply.mono (js := noticeIds) (fun _ => id) fun _ hid => List.mem_cons_of_mem _ hid).unused (by simp) hh
      (dropScope_unused hh (heardSetBuf_unused hun r n (b.freedFor r none) hh))
  have hmem : (n, b.freedFor r none) ∈ ((s.freeing r n b none).reply r 0x41 Status.OK []).nmp.buffers := by
    rw [hreply.buffers (by simp), freeing_buffers]
    exact tins_mem ..
  obtain ⟨hgone, hblank⟩ := retireFreed_gone hmem rfl hidle rfl hh hunused
  refine ⟨_, hexec, hgone, hblank, retireFreed_mem_out ?_⟩
  rw [reply_out, freeing_control]
  exact List.mem_cons_self ..

theorem bufFree_waits (hbusy : 0 < b.inProgress) :
    ∃ t, exec (.bufFree r h) s = .next t ∧ t.out = s.out ∧
      tfind t.nmp.buffers n = some { b with keyValid := false, freed := true, freedBy := r.sess, waiting := some r } ∧
      ∀ a, memRead t.nmp.mem a = memRead s.nmp.mem a := by
  have hexec := exec_bufFree ht hb howns hun
  rw [if_pos hbusy] at hexec
  have hframe := freeing_only s r n b (some r)
  refine ⟨_, hexec, hframe.2.1 .out (by simp), ?_, hframe.2.1 .mem (by simp)⟩
  rw [freeing_buffers]
  exact tfind_tins_same ..

end

/-! ## RoCEv2 egress (R313) -/

/-- Where no pause holds RoCEv2 egress and nothing waits, one frame leaves at once. -/
theorem roceOut_free {s : State} {p : Nat} (hpaused : s.paused p = false) (hheld : (s.eth p).held = []) (o : Output) : s.roceOut p 0 o = s.emit o := by
  have hflush : s.roceFlush p = s := if_pos (.inr hheld)
  simp only [State.roceOut, hflush, hpaused, Bool.false_eq_true, if_false, State.roceNow, if_true]

theorem roceNow_only (s : State) (p extra : Nat) (o : Output) : OnlyChanges [.out, .free] txIds s (s.roceNow p extra o) := by
  unfold State.roceNow
  split
  · exact emit_only s o
  · exact ((emit_only s o).trans (txFrames_only _ p extra)).mono (by simp) (by simp)

theorem roceFlush_only (s : State) (p : Nat) : OnlyChanges [.eth p, .out, .free] txIds s (s.roceFlush p) := by
  unfold State.roceFlush
  split
  · exact (OnlyChanges.refl s).mono (by simp) (by simp)
  · exact OnlyChanges.foldl _ ((setEth_only ..).mono (by simp) (by simp)) fun t e _ => (roceNow_only t p e.1 e.2).mono (by simp) (by simp)

theorem roceOut_only (s : State) (p extra : Nat) (o : Output) : OnlyChanges [.eth p, .out, .free] txIds s (s.roceOut p extra o) := by
  unfold State.roceOut
  dsimp only
  split
  · exact ((roceFlush_only s p).trans (setEth_only ..)).mono (by simp) (by simp)
  · exact ((roceFlush_only s p).trans (roceNow_only ..)).mono (by simp) (by simp)

theorem OnlyChanges.paused {ps : List Part} {ids : List Nat} {s t : State} {p : Nat} (h : OnlyChanges ps ids s t) (hclock : .clock ∉ ps)
    (heth : .eth p ∉ ps) : t.paused p = s.paused p := by
  have hc : t.clock = s.clock := h.2.1 .clock hclock
  have he : t.eth p = s.eth p := h.2.1 (.eth p) heth
  rw [State.paused, State.paused, hc, he]

/-- Frames that leave free RoCEv2 egress one after the other. -/
theorem roceOuts_leave {α : Type} {p : Nat} {f : α → Output} (l : List α) {s : State} (hpaused : s.paused p = false) (hheld : (s.eth p).held = []) :
    let t := l.foldl (fun (t : State) i => t.roceOut p 0 (f i)) s
    t.out = (l.map f).reverse ++ s.out ∧ OnlyChanges [.out, .free] txIds s t := by
  induction l generalizing s with
  | nil => exact ⟨rfl, (OnlyChanges.refl s).mono (by simp) (by simp)⟩
  | cons i l ih =>
    have hsent := emit_only s (f i)
    have heth : (s.emit (f i)).eth p = s.eth p := hsent.2.1 (.eth p) (by simp)
    obtain ⟨hout, hframe⟩ := ih ((hsent.paused (by simp) (by simp)).trans hpaused) (heth ▸ hheld)
    simp only [List.foldl_cons, roceOut_free hpaused hheld]
    refine ⟨?_, hsent.then hframe⟩
    rw [hout, emit_out, List.map_cons, List.reverse_cons, List.append_assoc, List.singleton_append]

/-! ## RDMA on a buffer (R89, R314) -/

section
variable {qp key off len : Nat} {q : Qp} {data : List Byte} {s : State}

/-- An access that the key and the size of its buffer allow counts at its buffer (R89). -/
def State.accessed (s : State) (q : Qp) (n : Nat) (b : Buffer) : State := (s.rxFrame q.port).setBuf n { b with inProgress := b.inProgress + 1 }

theorem accessed_only (s : State) (q : Qp) (n : Nat) (b : Buffer) :
    OnlyChanges [.buffers, .free] [Eth.RX_FRAMES q.port, Eth.RX_BYTES q.port] s (s.accessed q n b) :=
  ((rxFrame_only s q.port).trans (setBuf_only ..)).mono (by simp) (by simp)

@[simp] theorem rxFrame_buffers (s : State) (p : Nat) : (s.rxFrame p).nmp.buffers = s.nmp.buffers := (rxFrame_only s p).buffers (by simp)

section
variable {sess : Nat} (hq : tfind s.qps qp = some q) (huse : q.use = .buffer sess) (hup : s.ethUp q.port = true)
include hq huse hup

theorem exec_bufRdmaAccess_write {n : Nat} {b : Buffer} (hb : s.nmp.buffers.find? (fun p => p.2.key == key && p.2.keyValid) = some (n, b))
    (hinside : off + len ≤ b.size) :
    exec (.bufRdmaAccess qp key true off len data) s = .next { s.accessed q n b with nmp := { (s.accessed q n b).nmp with
      mem := memWriteN (s.accessed q n b).nmp.mem (bufAddr n off) (data.take len) } } := by
  simp only [exec, execBufRdmaAccess, hq, huse, hup, Bool.not_true, Bool.or_false, Bool.false_eq_true, Bool.true_eq_false, false_and, if_false,
    rxFrame_buffers, hb, if_neg (Nat.not_lt.2 hinside), if_true]
  rfl

theorem exec_bufRdmaAccess_read {n : Nat} {b : Buffer} (hb : s.nmp.buffers.find? (fun p => p.2.key == key && p.2.keyValid) = some (n, b))
    (hinside : off + len ≤ b.size) (hreads : q.reads < 16) :
    exec (.bufRdmaAccess qp key false off len data) s = .next (((s.accessed q n b).setQp qp { q with reads := q.reads + 1 }).readResponse q
      (memReadN (s.accessed q n b).nmp.mem (bufAddr n off) len)) := by
  simp only [exec, execBufRdmaAccess, hq, huse, hup, Bool.not_true, Bool.or_false, Bool.false_eq_true, true_and, if_false,
    if_neg (Nat.not_le.2 hreads), rxFrame_buffers, hb, if_neg (Nat.not_lt.2 hinside)]
  rfl

theorem exec_bufRdmaAccess_refused {w : Bool} (hroom : w = true ∨ q.reads < 16)
    (hout : ∀ n b, s.nmp.buffers.find? (fun p => p.2.key == key && p.2.keyValid) = some (n, b) → b.size < off + len) :
    exec (.bufRdmaAccess qp key w off len data) s = .next ((s.rxFrame q.port).accessError q key) := by
  have hlimit : ¬(w = false ∧ 16 ≤ q.reads) := fun hfull => by
    obtain hw | hreads := hroom
    · exact absurd (hw.symm.trans hfull.1) (by simp)
    · omega
  simp only [exec, execBufRdmaAccess, hq, huse, hup, Bool.not_true, Bool.or_false, Bool.false_eq_true, if_false, if_neg hlimit, rxFrame_buffers]
  cases hfind : s.nmp.buffers.find? (fun p => p.2.key == key && p.2.keyValid) with
  | none => rfl
  | some p => exact congrArg Host.Outcome.next (if_pos (hout p.1 p.2 hfind))

theorem bufRdmaWrite_moves {n : Nat} {b : Buffer} (hb : s.nmp.buffers.find? (fun p => p.2.key == key && p.2.keyValid) = some (n, b))
    (hinside : off + len ≤ b.size) (hdata : data.length = len) :
    ∃ t, exec (.bufRdmaAccess qp key true off len data) s = .next t ∧
      (∀ k, k < len → memRead t.nmp.mem (bufAddr n off + k) = data.getD k 0) ∧
      (∀ a, (a < bufAddr n off ∨ bufAddr n off + len ≤ a) → memRead t.nmp.mem a = memRead s.nmp.mem a) ∧
      tfind t.nmp.buffers n = some { b with inProgress := b.inProgress + 1 } ∧
      OnlyChanges [.buffers, .mem, .free] [Eth.RX_FRAMES q.port, Eth.RX_BYTES q.port] s t := by
  have hframe := accessed_only s q n b
  have hmem : ∀ a, memRead (s.accessed q n b).nmp.mem a = memRead s.nmp.mem a := hframe.2.1 .mem (by simp)
  have hstored := setStore_only (s.accessed q n b) (s.accessed q n b).nmp.buffers (s.accessed q n b).nmp.bufSerial
    (memWriteN (s.accessed q n b).nmp.mem (bufAddr n off) data)
  have hexec := exec_bufRdmaAccess_write (data := data) hq huse hup hb hinside
  rw [List.take_of_length_le (Nat.le_of_eq hdata)] at hexec
  refine ⟨_, hexec, fun k hk => ?_, fun a ha => ?_, tfind_tins_same .., (hframe.trans hstored).mono (by simp) (by simp)⟩
  · rw [List.getD_eq_getElem _ _ (hdata ▸ hk)]
    exact memRead_memWriteN_same (hdata ▸ hk)
  · exact (memRead_memWriteN_other (hdata ▸ ha)).trans (hmem a)

theorem bufRdmaRead_sends {n : Nat} {b : Buffer} (hb : s.nmp.buffers.find? (fun p => p.2.key == key && p.2.keyValid) = some (n, b))
    (hinside : off + len ≤ b.size) (hreads : q.reads < 16) (hpaused : s.paused q.port = false) (hheld : (s.eth q.port).held = []) :
    ∃ t, exec (.bufRdmaAccess qp key false off len data) s = .next t ∧
      t.out = ((List.range (max 1 (ceilDiv len (max 1 q.mtu)))).map fun i =>
        Output.packet q.port "RDMA READ response" (s.control q.port 1) (slice (memReadN s.nmp.mem (bufAddr n off) len) (q.mtu * i) q.mtu)).reverse ++
          s.out ∧
      tfind t.nmp.buffers n = some { b with inProgress := b.inProgress + 1 } ∧
      OnlyChanges [.buffers, .qps, .out, .free] ([Eth.RX_FRAMES q.port, Eth.RX_BYTES q.port] ++ txIds) s t := by
  let v := (s.accessed q n b).setQp qp { q with reads := q.reads + 1 }
  have hframe : OnlyChanges [.buffers, .qps, .free] [Eth.RX_FRAMES q.port, Eth.RX_BYTES q.port] s v :=
    ((accessed_only s q n b).trans (setQp_only ..)).mono (by simp) (by simp)
  have heth : v.eth q.port = s.eth q.port := hframe.2.1 (.eth q.port) (by simp)
  have hdata : memReadN (s.accessed q n b).nmp.mem (bufAddr n off) len = memReadN s.nmp.mem (bufAddr n off) len :=
    memReadN_congr ((accessed_only s q n b).2.1 .mem (by simp)) ..
  have hcontrol : v.control q.port 1 = s.control q.port 1 := hframe.control (by simp [Eth.RX_FRAMES, Eth.RX_BYTES]) ..
  have hexec := exec_bufRdmaAccess_read (data := data) hq huse hup hb hinside hreads
  rw [hdata, State.readResponse, memReadN_length, hcontrol] at hexec
  obtain ⟨hsent, hrest⟩ := roceOuts_leave
    (f := fun i => .packet q.port "RDMA READ response" (s.control q.port 1) (slice (memReadN s.nmp.mem (bufAddr n off) len) (q.mtu * i) q.mtu))
    (List.range (max 1 (ceilDiv len (max 1 q.mtu)))) ((hframe.paused (by simp) (by simp)).trans hpaused) (heth ▸ hheld)
  refine ⟨_, hexec, ?_, ?_, (hframe.trans hrest).mono (by simp) (by simp +contextual)⟩
  · rw [hsent, show v.out = s.out from hframe.2.1 .out (by simp)]
  · rw [hrest.buffers (by simp)]
    exact tfind_tins_same ..

theorem bufRdmaAccess_refused {w : Bool} (hroom : w = true ∨ q.reads < 16)
    (hout : ∀ n b, s.nmp.buffers.find? (fun p => p.2.key == key && p.2.keyValid) = some (n, b) → b.size < off + len) :
    ∃ t, exec (.bufRdmaAccess qp key w off len data) s = .next t ∧ t.rd Sys.BUF_WRITE_REFUSED = countUp (s.rd Sys.BUF_WRITE_REFUSED) 1 ∧
      OnlyChanges [.eth q.port, .out, .free] (Sys.BUF_WRITE_REFUSED :: [Eth.RX_FRAMES q.port, Eth.RX_BYTES q.port] ++ txIds) s t := by
  have hrx := rxFrame_only s q.port
  have hcount := count_only (s.rxFrame q.port) Sys.BUF_WRITE_REFUSED
  have hsent := roceOut_only ((s.rxFrame q.port).count Sys.BUF_WRITE_REFUSED) q.port 0
    (.packet q.port "RDMA remote access error" ((s.rxFrame q.port).control q.port 1) (leBytes 4 key))
  refine ⟨_, exec_bufRdmaAccess_refused hq huse hup hroom hout, ?_, ?_⟩
  · rw [State.accessError, hsent.2.2 _ (by decide), rd_count_counter (by decide), hrx.2.2]
    simp [Sys.BUF_WRITE_REFUSED, Eth.RX_FRAMES, Eth.RX_BYTES]
    omega
  · exact ((hrx.trans hcount).trans hsent).mono (by simp) (by simp +contextual)

end

/-! ## Messages that complete (R89, R90) -/

/-- The state in which a message on a key is over: an RDMA READ is no longer outstanding on its queue pair. -/
def State.readOver (s : State) (qp : Nat) (w : Bool) : State :=
  match tfind s.qps qp with
  | some q => if w then s else s.setQp qp { q with reads := q.reads - 1 }
  | none => s

theorem readOver_only (s : State) (qp : Nat) (w : Bool) : OnlyChanges [.qps] [] s (s.readOver qp w) := by
  unfold State.readOver
  split
  · split
    · exact (OnlyChanges.refl s).mono (by simp) (by simp)
    · exact setQp_only ..
  · exact (OnlyChanges.refl s).mono (by simp) (by simp)

variable {w : Bool} {n : Nat} {b : Buffer} (hb : s.nmp.buffers.find? (fun p => p.2.key == key && decide (0 < p.2.inProgress)) = some (n, b))
include hb

theorem exec_rdmaMessageComplete : exec (.rdmaMessageComplete qp key w) s = .next ((s.readOver qp w).messageOver n b) := by
  simp only [exec, execRdmaMessageComplete, hb]
  rfl

theorem rdmaMessageComplete_counts (hmore : 2 ≤ b.inProgress) :
    ∃ t, exec (.rdmaMessageComplete qp key w) s = .next t ∧ tfind t.nmp.buffers n = some { b with inProgress := b.inProgress - 1 } ∧
      OnlyChanges [.buffers, .qps] [] s t := by
  have hexec := exec_rdmaMessageComplete (qp := qp) (w := w) hb
  rw [State.messageOver, if_neg (by omega)] at hexec
  exact ⟨_, hexec, tfind_tins_same .., ((readOver_only s qp w).trans (setBuf_only ..)).mono (by simp) (by simp)⟩

theorem rdmaMessageComplete_answers {r : Req} (hlast : b.inProgress = 1) (hwaiting : b.waiting = some r) :
    ∃ t, exec (.rdmaMessageComplete qp key w) s = .next t ∧
      .nmp r.port r.peer (s.control r.port 0) true ⟨r.sess, r.seq, 0x41, Status.OK, []⟩ ∈ t.out := by
  have hexec := exec_rdmaMessageComplete (qp := qp) (w := w) hb
  simp only [State.messageOver, if_pos hlast, hwaiting] at hexec
  refine ⟨_, hexec, retireFreed_mem_out ?_⟩
  rw [reply_out, ((readOver_only s qp w).trans (setBuf_only ..)).control (by simp)]
  exact List.mem_cons_self ..

end

/-- Settles O19: each request and each message by its own lemma; the retire fence is `retireFreed_gone`. -/
theorem buffersAndRdmaStayInside : Obligations.BuffersAndRdmaStayInside :=
  ⟨fun _ _ =>
      ⟨fun _ _ ht hcell howns hmin hmax => ⟨bufAlloc_allocates ht hcell howns hmin hmax, bufAlloc_noResource ht hcell howns hmin hmax⟩,
        fun _ _ _ ht hb howns hun => ⟨bufFree_frees ht hb howns hun, bufFree_waits ht hb howns hun⟩, fun _ _ _ ht hb => bufInfo_answers ht hb⟩,
    fun _ _ _ _ _ _ _ _ =>
      ⟨fun hq huse hup => ⟨fun _ _ hb hinside hdata => bufRdmaWrite_moves hq huse hup hb hinside hdata,
          fun _ _ hb hinside hreads hpaused hheld => bufRdmaRead_sends hq huse hup hb hinside hreads hpaused hheld,
          fun _ hroom hout => bufRdmaAccess_refused hq huse hup hroom hout⟩,
        fun _ _ _ hb => ⟨rdmaMessageComplete_counts hb, fun _ hlast hwaiting => rdmaMessageComplete_answers hb hlast hwaiting⟩⟩⟩

end Sys2Proof.Machine

/-! Sensor links (R98, R99, R111 to R114): the parameters of a lane, what each operation on a lane does and leaves alone, lanes on their way up, and
O20. -/

namespace Sys2Proof.Machine

/-! ## The parameters of a lane (Table 04-12) -/

@[simp] theorem laneKey_div (port : Nat) (lane : Fin 4) : laneKey port lane.val / 4 = port := by unfold laneKey; omega

/-- The port and the lane of a key. -/
theorem laneKey_parts {port : Fin 16} {lane : Fin 4} {k : Nat} (hkey : laneKey port.val lane.val = k) :
    k < 64 ∧ port.val = k / 4 ∧ lane.val = k % 4 := by
  unfold laneKey at hkey; omega

/-- Whether an ID names a parameter of 32 bits that can change. -/
def isWord (id : Nat) : Bool := (paramOf id).any fun p => !p.fixed && p.type.width == 32

theorem rd_wr_word {id v : Nat} (h : isWord id = true) (hv : v < 2 ^ 32) (s : State) : (s.wr id v).rd id = v := by
  obtain ⟨p, hp, hrow⟩ := (Option.any_eq_true _ _).1 h
  simp only [Bool.and_eq_true, Bool.not_eq_true', beq_iff_eq] at hrow
  rw [rd_wr_same hp hrow.1, hrow.2, Nat.mod_eq_of_lt hv]

/-- What a lane reports of itself. -/
def laneWords (k : Nat) : List Nat :=
  [Port.LANE_STATE (k / 4) (k % 4), Port.LINE_HEALTH (k / 4) (k % 4), Port.LANE_POLARITY (k / 4) (k % 4), Port.LOGICAL_ID (k / 4) (k % 4),
    Port.EYE_MARGIN (k / 4) (k % 4)]

/-- What a lane counts on its way up. -/
def laneCounters (k : Nat) : List Nat := [Port.FAILED_ATTEMPTS (k / 4) (k % 4), Port.LINE_FAULTS (k / 4) (k % 4)]

theorem isWord_laneWords : ∀ k < 64, ∀ id ∈ laneWords k, isWord id = true := by decide +kernel

theorem isCounter_laneCounters : ∀ k < 64, ∀ id ∈ laneCounters k, isCounter id = true := by decide +kernel

/-- The parameters of a lane lie in group 0x10, after those of its port. -/
theorem laneParam_bounds {k : Nat} (hk : k < 64) :
    ∀ id ∈ laneWords k ++ laneCounters k, 0x100 ≤ id % 0x10000 ∧ 0x10000000 ≤ id ∧ id < 0x11000000 := by
  intro id hid
  simp only [laneWords, laneCounters, List.cons_append, List.nil_append, List.mem_cons, List.not_mem_nil, or_false, Port.LANE_STATE, Port.LINE_HEALTH,
    Port.LANE_POLARITY, Port.LOGICAL_ID, Port.EYE_MARGIN, Port.FAILED_ATTEMPTS, Port.LINE_FAULTS] at hid
  omega

theorem sendIds_bounds : ∀ id ∈ sendIds, id < 0x10000000 ∨ 0x11000000 ≤ id := by decide

/-- What a port reports of its state moves no parameter of a lane. -/
theorem laneParam_not_reported {k id : Nat} (hk : k < 64) (hid : id ∈ laneWords k ++ laneCounters k) (p : Nat) :
    id ∉ Port.PORT_STATE p :: sendIds := by
  obtain ⟨hnumber, hlow, hhigh⟩ := laneParam_bounds hk id hid
  rintro (_ | ⟨_, hsent⟩)
  · unfold Port.PORT_STATE at hnumber; omega
  · have := sendIds_bounds id hsent; omega

/-- A change of the parameters of a lane moves none of a port. -/
theorem OnlyChanges.portParam {ps : List Part} {ids : List Nat} {s t : State} {k id : Nat} (h : OnlyChanges ps ids s t) (hk : k < 64)
    (hids : ∀ i ∈ ids, i ∈ laneWords k ++ laneCounters k) (hid : id % 0x10000 < 0x100) : t.rd id = s.rd id :=
  h.2.2 id fun hmem => by have := (laneParam_bounds hk id (hids id hmem)).1; omega

theorem OnlyChanges.leaderOf {ps : List Part} {ids : List Nat} {s t : State} {k : Nat} (h : OnlyChanges ps ids s t) (hk : k < 64)
    (hids : ∀ i ∈ ids, i ∈ laneWords k ++ laneCounters k) (p : Nat) : t.leaderOf p = s.leaderOf p := by
  have hstate := h.portParam hk hids (id := Port.PORT_STATE p) (by unfold Port.PORT_STATE; omega)
  have hleader := h.portParam hk hids (id := Port.BOND_LEADER p) (by unfold Port.BOND_LEADER; omega)
  rw [State.leaderOf, State.leaderOf, State.isMember, State.isMember, hstate, hleader]

/-! ## What a port reports, and the check of its bond (R117, R119, R131) -/

theorem linkNotify_only (s : State) (code port lane value : Nat) : OnlyChanges sending sendIds s (s.linkNotify code port lane value) := notify_only ..

theorem portTo_only (s : State) (p st : Nat) : OnlyChanges sending (Port.PORT_STATE p :: sendIds) s (s.portTo p st) := by
  unfold State.portTo
  split
  · exact (OnlyChanges.refl s).mono (by simp) (by simp)
  · exact ((wr_only ..).trans (linkNotify_only ..)).mono (by simp) (by simp)

/-- The parts that the check of a bond moves: the markers of its lanes, its port, and what the NOTIFY moves. -/
def bondParts (p : Nat) (ks : List Nat) : List Part := ks.map Part.lane ++ .port p :: sending

theorem bondCheck_only (s : State) (p : Nat) : OnlyChanges (bondParts p (s.bondLanes p)) (Port.PORT_STATE p :: sendIds) s (s.bondCheck p) := by
  unfold State.bondCheck
  split
  · have hmarkers : OnlyChanges ((s.bondLanes p).map Part.lane) [] s
        ((s.bondLanes p).foldl (fun t k => t.setLane k { t.lane k with marker := none }) s) :=
      OnlyChanges.foldl _ ((OnlyChanges.refl s).mono (by simp) (by simp)) fun t k hk =>
        (setLane_only t k _).mono (by simpa using hk) (by simp)
    refine ((hmarkers.trans (setPort_only _ p _)).trans (portTo_only _ p 2)).mono ?_ (by simp)
    simp [bondParts]
  · exact (OnlyChanges.refl s).mono (by simp) (by simp)

/-- A report on a lane and the check of its bond leave the clock and the lane's own parameters. -/
theorem reported_keeps {s : State} {k : Nat} (hk : k < 64) (code port lane value p : Nat) :
    let t := (s.linkNotify code port lane value).bondCheck p
    t.clock = s.clock ∧ ∀ id ∈ laneWords k ++ laneCounters k, t.rd id = s.rd id := by
  have hnotify := linkNotify_only s code port lane value
  have hbond := bondCheck_only (s.linkNotify code port lane value) p
  refine ⟨(hbond.2.1 .clock (by simp [bondParts, sending])).trans (hnotify.2.1 .clock (by simp [sending])), fun id hid => ?_⟩
  have hnot := laneParam_not_reported hk hid p
  rw [hbond.2.2 id hnot, hnotify.2.2 id fun hmem => hnot (List.mem_cons_of_mem _ hmem)]

/-! ## Moves of a lane (Table 04-6) -/

theorem laneTo_only (s : State) (k st : Nat) : OnlyChanges [.lane k] [Port.LANE_STATE (k / 4) (k % 4)] s (s.laneTo k st) :=
  (setLane_only s k _).trans (wr_only ..)

theorem laneState_laneTo {k st : Nat} (hk : k < 64) (hst : st < 2 ^ 32) (s : State) : (s.laneTo k st).laneState k = st :=
  rd_wr_word (isWord_laneWords k hk _ (by simp [laneWords])) hst _

@[simp] theorem lane_wr (s : State) (id v k : Nat) : (s.wr id v).lane k = s.lane k := (wr_only s id v).2.1 (.lane k) (by simp)

@[simp] theorem lane_laneTo (s : State) (k st : Nat) : (s.laneTo k st).lane k = { s.lane k with since := s.clock } := by simp [State.laneTo]

/-- A lane that enters ACQUIRE on a port without a parallel loopback is there, without a LOGICAL_ID (R112). -/
theorem laneAcquire_spec {s : State} {k : Nat} (hk : k < 64) (hloop : s.rd (Port.LOOPBACK (s.leaderOf (k / 4))) ≠ 2) :
    (s.laneAcquire k).laneState k = 3 ∧ (s.laneAcquire k).rd (Port.LOGICAL_ID (k / 4) (k % 4)) = 0xFF ∧
      ((s.laneAcquire k).lane k).noSignal = (s.lane k).noSignal ∧
      OnlyChanges [.lane k] [Port.LANE_STATE (k / 4) (k % 4), Port.LOGICAL_ID (k / 4) (k % 4)] s (s.laneAcquire k) := by
  unfold State.laneAcquire
  dsimp only
  rw [if_neg fun h => hloop h.1]
  refine ⟨?_, rd_wr_word (isWord_laneWords k hk _ (by simp [laneWords])) (by decide) _, by simp,
    (((setLane_only s k _).trans (laneTo_only _ k 3)).trans (wr_only ..)).mono (by simp) (by simp)⟩
  · rw [State.laneState, rd_wr_other (by simp [Port.LANE_STATE, Port.LOGICAL_ID])]
    exact laneState_laneTo hk (by decide) _

/-- A lane that fails for good is in FAILED; the failure is reported (R112, R113). -/
theorem laneFailed_spec {s : State} {k : Nat} (hk : k < 64) (cause : Nat) :
    (s.laneFailed k cause).laneState k = 9 ∧ (s.laneFailed k cause).clock = s.clock ∧
      ∀ id ∈ laneCounters k, (s.laneFailed k cause).rd id = s.rd id := by
  have hto := laneTo_only s k 9
  obtain ⟨hclock, hkept⟩ := reported_keeps (s := s.laneTo k 9) hk 3 (k / 4) (k % 4) cause (s.leaderOf (k / 4))
  have heq : s.laneFailed k cause = ((s.laneTo k 9).linkNotify 3 (k / 4) (k % 4) cause).bondCheck (s.leaderOf (k / 4)) := rfl
  refine ⟨?_, ?_, fun id hid => ?_⟩
  · rw [heq, State.laneState, hkept _ (by simp [laneWords])]
    exact laneState_laneTo hk (by decide) s
  · rw [heq, hclock, hto.2.1 .clock (by simp)]
  · rw [heq, hkept id (List.mem_append_right _ hid), hto.2.2]
    revert hid
    simp only [laneCounters, Port.LANE_STATE, Port.FAILED_ATTEMPTS, Port.LINE_FAULTS, List.mem_cons, List.not_mem_nil, or_false]
    intro hid hstate
    omega

/-! ## A failed attempt (R112) -/

/-- A lane that begins another attempt: the failed one is counted. -/
def State.retried (s : State) (k : Nat) : State :=
  let t := (s.count (Port.FAILED_ATTEMPTS (k / 4) (k % 4))).laneAcquire k
  t.setLane k { t.lane k with attempts := (s.lane k).attempts + 1 }

theorem retried_spec {s : State} {k : Nat} (hk : k < 64) (hloop : s.rd (Port.LOOPBACK (s.leaderOf (k / 4))) ≠ 2) :
    let fails := Port.FAILED_ATTEMPTS (k / 4) (k % 4)
    (s.retried k).laneState k = 3 ∧ (s.retried k).rd fails = countUp (s.rd fails) 1 ∧
      ((s.retried k).lane k).attempts = (s.lane k).attempts + 1 ∧
      OnlyChanges [.lane k] [fails, Port.LANE_STATE (k / 4) (k % 4), Port.LOGICAL_ID (k / 4) (k % 4)] s (s.retried k) := by
  intro fails
  have hcount : OnlyChanges [] [fails] s (s.count fails) := count_only s fails
  have hids : ∀ i ∈ [fails], i ∈ laneWords k ++ laneCounters k := by simp [fails, laneCounters]
  obtain ⟨hstate, -, -, hframe⟩ := laneAcquire_spec (s := s.count fails) hk (by
    rw [hcount.leaderOf hk hids, hcount.portParam hk hids (by unfold Port.LOOPBACK; omega)]; exact hloop)
  have hset : OnlyChanges [.lane k] [] ((s.count fails).laneAcquire k) (s.retried k) := setLane_only ..
  refine ⟨(hset.2.2 _ (by simp)).trans hstate, ?_, by simp [State.retried], ((hcount.trans hframe).trans hset).mono (by simp) (by simp)⟩
  calc (s.retried k).rd fails = ((s.count fails).laneAcquire k).rd fails := hset.2.2 _ (by simp)
    _ = (s.count fails).rd fails := hframe.2.2 fails (by simp [fails, Port.FAILED_ATTEMPTS, Port.LANE_STATE, Port.LOGICAL_ID])
    _ = countUp (s.rd fails) 1 := rd_count_counter (isCounter_laneCounters k hk _ (by simp [fails, laneCounters])) s

theorem failAttempt_eq {s : State} {k : Nat} (hk : k < 64) (hloop : s.rd (Port.LOOPBACK (s.leaderOf (k / 4))) ≠ 2) :
    s.failAttempt k = if s.rd (Port.RETRY_LIMIT (s.leaderOf (k / 4))) ≤ (s.lane k).attempts + 1 then (s.retried k).laneFailed k 0 else s.retried k := by
  obtain ⟨-, -, -, hframe⟩ := retried_spec hk hloop
  have hids : ∀ i ∈ [Port.FAILED_ATTEMPTS (k / 4) (k % 4), Port.LANE_STATE (k / 4) (k % 4), Port.LOGICAL_ID (k / 4) (k % 4)],
      i ∈ laneWords k ++ laneCounters k := by simp [laneWords, laneCounters]
  have hlimit : (s.retried k).rd (Port.RETRY_LIMIT ((s.retried k).leaderOf (k / 4))) = s.rd (Port.RETRY_LIMIT (s.leaderOf (k / 4))) := by
    rw [hframe.leaderOf hk hids, hframe.portParam hk hids (by unfold Port.RETRY_LIMIT; omega)]
  rw [← hlimit]
  rfl

/-- A failed attempt that is the last of RETRY_LIMIT in a row. -/
theorem failAttempt_last {s : State} {k : Nat} (hk : k < 64) (hloop : s.rd (Port.LOOPBACK (s.leaderOf (k / 4))) ≠ 2)
    (hlast : s.rd (Port.RETRY_LIMIT (s.leaderOf (k / 4))) ≤ (s.lane k).attempts + 1) :
    let fails := Port.FAILED_ATTEMPTS (k / 4) (k % 4)
    (s.failAttempt k).laneState k = 9 ∧ (s.failAttempt k).rd fails = countUp (s.rd fails) 1 ∧ (s.failAttempt k).clock = s.clock := by
  intro fails
  obtain ⟨-, hfails, -, hframe⟩ := retried_spec hk hloop
  obtain ⟨hstate, hclock, hkept⟩ := laneFailed_spec (s := s.retried k) hk 0
  rw [failAttempt_eq hk hloop, if_pos hlast]
  exact ⟨hstate, (hkept fails (by simp [fails, laneCounters])).trans hfails, hclock.trans (hframe.2.1 .clock (by simp))⟩

/-- Every failed attempt is counted, and leaves the lane in ACQUIRE or in FAILED. -/
theorem failAttempt_spec {s : State} {k : Nat} (hk : k < 64) (hloop : s.rd (Port.LOOPBACK (s.leaderOf (k / 4))) ≠ 2) :
    let fails := Port.FAILED_ATTEMPTS (k / 4) (k % 4)
    (s.failAttempt k).rd fails = countUp (s.rd fails) 1 ∧ ((s.failAttempt k).laneState k = 3 ∨ (s.failAttempt k).laneState k = 9) ∧
      (s.failAttempt k).clock = s.clock := by
  by_cases hlast : s.rd (Port.RETRY_LIMIT (s.leaderOf (k / 4))) ≤ (s.lane k).attempts + 1
  · obtain ⟨hstate, hfails, hclock⟩ := failAttempt_last hk hloop hlast
    exact ⟨hfails, .inr hstate, hclock⟩
  · obtain ⟨hstate, hfails, -, hframe⟩ := retried_spec hk hloop
    rw [failAttempt_eq hk hloop, if_neg hlast]
    exact ⟨hfails, .inl hstate, hframe.2.1 .clock (by simp)⟩

section

variable {port : Fin 16} {lane : Fin 4} {k : Nat} {s : State}

/-! ## Line health (R98, R99) -/

theorem exec_lineHealthTestDone {m : LineMeas} (hlive : s.linksLive = true) (hkey : laneKey port.val lane.val = k) (hm : m.lane = lane) :
    exec (.lineHealthTestDone port [m]) s =
      .next (s.healthResult k (healthClass m.pMv m.nMv m.diffMv m.riseP m.riseN)) := by
  show execLineHealthTestDone port [m] s = _
  rw [execLineHealthTestDone, if_pos hlive, ← hkey, ← hm]
  rfl

/-- A lane whose test has ended with a class. -/
def State.tested (s : State) (k cls : Nat) : State :=
  (s.setLane k { s.lane k with testing := false }).wr (Port.LINE_HEALTH (k / 4) (k % 4)) cls

theorem tested_only (s : State) (k cls : Nat) : OnlyChanges [.lane k] [Port.LINE_HEALTH (k / 4) (k % 4)] s (s.tested k cls) :=
  (setLane_only s k _).trans (wr_only ..)

theorem rd_tested {k cls : Nat} (hk : k < 64) (hcls : cls < 2 ^ 32) (s : State) : (s.tested k cls).rd (Port.LINE_HEALTH (k / 4) (k % 4)) = cls :=
  rd_wr_word (isWord_laneWords k hk _ (by simp [laneWords])) hcls _

/-- A lane whose test has found a fault. -/
def State.faulted (s : State) (k cls : Nat) : State := ((s.tested k cls).laneTo k 2).count (Port.LINE_FAULTS (k / 4) (k % 4))

theorem healthResult_first (hstate : s.laneState k = 1) (cls : Nat) :
    s.healthResult k cls = if cls = 1 then (s.tested k cls).laneAcquire k else
      ((s.faulted k cls).linkNotify 2 (k / 4) (k % 4) cls).bondCheck ((s.tested k cls).leaderOf (k / 4)) := by
  unfold State.healthResult
  rw [hstate, if_pos (.inl rfl)]
  dsimp only
  rw [if_neg (by decide : ¬ 1 = 2)]
  rfl

theorem healthClass_lt (pMv nMv diffMv riseP riseN : Int) : healthClass pMv nMv diffMv riseP riseN < 2 ^ 32 := by
  unfold healthClass
  repeat' split
  all_goals decide

/-- A lane that the test finds healthy begins to acquire. -/
theorem lineHealthTestDone_healthy {m : LineMeas} (hlive : s.linksLive = true) (hkey : laneKey port.val lane.val = k) (hm : m.lane = lane)
    (hstate : s.laneState k = 1) (hclass : healthClass m.pMv m.nMv m.diffMv m.riseP m.riseN = 1)
    (hloop : s.rd (Port.LOOPBACK (s.leaderOf port.val)) = 0) :
    ∃ t, exec (.lineHealthTestDone port [m]) s = .next t ∧ t.laneState k = 3 ∧ t.rd (Port.LINE_HEALTH port.val lane.val) = 1 ∧
      OnlyChanges [.lane k] [Port.LINE_HEALTH port.val lane.val, Port.LANE_STATE port.val lane.val, Port.LOGICAL_ID port.val lane.val] s t := by
  have hexec := exec_lineHealthTestDone hlive hkey hm
  rw [hclass, healthResult_first hstate, if_pos rfl] at hexec
  obtain ⟨hk, hport, hlane⟩ := laneKey_parts hkey
  rw [hport] at hloop
  rw [hport, hlane]
  have htested := tested_only s k 1
  have hids : ∀ i ∈ [Port.LINE_HEALTH (k / 4) (k % 4)], i ∈ laneWords k ++ laneCounters k := by simp [laneWords]
  obtain ⟨hacquire, -, -, hframe⟩ := laneAcquire_spec (s := s.tested k 1) hk (by
    rw [htested.leaderOf hk hids, htested.portParam hk hids (by unfold Port.LOOPBACK; omega), hloop]; decide)
  exact ⟨_, hexec, hacquire,
    (hframe.2.2 _ (by simp [Port.LINE_HEALTH, Port.LANE_STATE, Port.LOGICAL_ID])).trans (rd_tested hk (by decide) s),
    (htested.trans hframe).mono (by simp) (by simp)⟩

/-- A lane that the test finds faulty is in LINE_FAULT, which counts. -/
theorem lineHealthTestDone_faulty {m : LineMeas} (hlive : s.linksLive = true) (hkey : laneKey port.val lane.val = k) (hm : m.lane = lane)
    (hstate : s.laneState k = 1) (hclass : healthClass m.pMv m.nMv m.diffMv m.riseP m.riseN ≠ 1) :
    ∃ t, exec (.lineHealthTestDone port [m]) s = .next t ∧ t.laneState k = 2 ∧
      t.rd (Port.LINE_HEALTH port.val lane.val) = healthClass m.pMv m.nMv m.diffMv m.riseP m.riseN ∧
      t.rd (Port.LINE_FAULTS port.val lane.val) = countUp (s.rd (Port.LINE_FAULTS port.val lane.val)) 1 := by
  have hexec := exec_lineHealthTestDone hlive hkey hm
  rw [healthResult_first hstate, if_neg hclass] at hexec
  have hlt := healthClass_lt m.pMv m.nMv m.diffMv m.riseP m.riseN
  generalize healthClass m.pMv m.nMv m.diffMv m.riseP m.riseN = cls at hexec hlt
  obtain ⟨hk, hport, hlane⟩ := laneKey_parts hkey
  rw [hport, hlane]
  have htested := tested_only s k cls
  have hto := laneTo_only (s.tested k cls) k 2
  have hcount : OnlyChanges [] [Port.LINE_FAULTS (k / 4) (k % 4)] _ (s.faulted k cls) := count_only ..
  obtain ⟨-, hkept⟩ := reported_keeps (s := s.faulted k cls) hk 2 (k / 4) (k % 4) cls ((s.tested k cls).leaderOf (k / 4))
  refine ⟨_, hexec, ?_, ?_, ?_⟩
  · rw [State.laneState, hkept _ (by simp [laneWords]), hcount.2.2 _ (by simp [Port.LANE_STATE, Port.LINE_FAULTS])]
    exact laneState_laneTo hk (by decide) _
  · rw [hkept _ (by simp [laneWords]), hcount.2.2 _ (by simp [Port.LINE_HEALTH, Port.LINE_FAULTS]),
      hto.2.2 _ (by simp [Port.LINE_HEALTH, Port.LANE_STATE]), rd_tested hk hlt]
  · rw [hkept _ (by simp [laneCounters]), State.faulted, rd_count_counter (isCounter_laneCounters k hk _ (by simp [laneCounters])),
      hto.2.2 _ (by simp [Port.LINE_FAULTS, Port.LANE_STATE]), htested.2.2 _ (by simp [Port.LINE_FAULTS, Port.LINE_HEALTH])]

theorem healthRetestTimer_tests (hlive : s.linksLive = true) (hkey : laneKey port.val lane.val = k) (hstate : s.laneState k = 2) :
    ∃ t, exec (.healthRetestTimer port lane) s = .next t ∧ (t.lane k).testing = true ∧
      t.clock = max s.clock ((s.lane k).since + s.rd (Port.HEALTH_INTERVAL (s.leaderOf port.val)) * 1000000) ∧
      OnlyChanges [.clock, .lane k] [] s t := by
  subst hkey
  have hexec : exec (.healthRetestTimer port lane) s = _ := congrArg Host.Outcome.next (if_pos ⟨hlive, hstate⟩)
  exact ⟨_, hexec, by simp, rfl, (at_only ..).trans (setLane_only ..)⟩

/-! ## Acquisition (R112, R113) -/

theorem acquireAttemptEnd_dark (hkey : laneKey port.val lane.val = k) (hloop : s.rd (Port.LOOPBACK (s.leaderOf port.val)) = 0)
    (hdark : (s.lane k).noSignal = true) (lock : Bool) (bad eye : Nat) : exec (.acquireAttemptEnd port lane lock bad eye) s = .next s := by
  subst hkey
  have hsignal : s.signalless (laneKey port.val lane.val) = true := by simp [State.signalless, hloop, hdark]
  exact congrArg Host.Outcome.next (if_pos (.inr (.inr (.inl hsignal))))

theorem exec_acquireAttemptEnd (hlive : s.linksLive = true) (hkey : laneKey port.val lane.val = k)
    (hloop : s.rd (Port.LOOPBACK (s.leaderOf port.val)) = 0) (hstate : s.laneState k = 3) (hsignal : (s.lane k).noSignal = false)
    (lock : Bool) (bad eye : Nat) :
    exec (.acquireAttemptEnd port lane lock bad eye) s =
      .next (if lock = true ∧ bad = 0 then (s.wr (Port.EYE_MARGIN port.val lane.val) eye).laneTo k 4 else s.failAttempt k) := by
  subst hkey
  refine congrArg Host.Outcome.next (if_neg ?_)
  simp [hlive, hstate, State.signalless, hloop, hsignal]

theorem acquireAttemptEnd_locks (hlive : s.linksLive = true) (hkey : laneKey port.val lane.val = k)
    (hloop : s.rd (Port.LOOPBACK (s.leaderOf port.val)) = 0) (hstate : s.laneState k = 3) (hsignal : (s.lane k).noSignal = false)
    {eye : Nat} (heye : eye < 256) :
    ∃ t, exec (.acquireAttemptEnd port lane true 0 eye) s = .next t ∧ t.laneState k = 4 ∧ t.rd (Port.EYE_MARGIN port.val lane.val) = eye ∧
      (t.lane k).since = s.clock ∧ OnlyChanges [.lane k] [Port.EYE_MARGIN port.val lane.val, Port.LANE_STATE port.val lane.val] s t := by
  have hexec := exec_acquireAttemptEnd hlive hkey hloop hstate hsignal true 0 eye
  rw [if_pos ⟨rfl, rfl⟩] at hexec
  obtain ⟨hk, hport, hlane⟩ := laneKey_parts hkey
  rw [hport, hlane] at hexec ⊢
  have heyeWord : isWord (Port.EYE_MARGIN (k / 4) (k % 4)) = true := isWord_laneWords k hk _ (by simp [laneWords])
  have hwr := wr_only s (Port.EYE_MARGIN (k / 4) (k % 4)) eye
  have hto := laneTo_only (s.wr (Port.EYE_MARGIN (k / 4) (k % 4)) eye) k 4
  refine ⟨_, hexec, laneState_laneTo hk (by decide) _, ?_, ?_, (hwr.trans hto).mono (by simp) (by simp)⟩
  · rw [hto.2.2 _ (by simp [Port.EYE_MARGIN, Port.LANE_STATE]), rd_wr_word heyeWord (by omega)]
  · have hclock : (s.wr (Port.EYE_MARGIN (k / 4) (k % 4)) eye).clock = s.clock := hwr.2.1 .clock (by simp)
    rw [lane_laneTo, hclock]

theorem exec_acquireAttemptEnd_fails (hlive : s.linksLive = true) (hkey : laneKey port.val lane.val = k)
    (hloop : s.rd (Port.LOOPBACK (s.leaderOf port.val)) = 0) (hstate : s.laneState k = 3) (hsignal : (s.lane k).noSignal = false)
    {lock : Bool} {bad : Nat} (hbad : lock = false ∨ bad ≠ 0) (eye : Nat) :
    exec (.acquireAttemptEnd port lane lock bad eye) s = .next (s.failAttempt k) := by
  rw [exec_acquireAttemptEnd hlive hkey hloop hstate hsignal, if_neg]
  rintro ⟨hlock, hnone⟩
  rcases hbad with hbad | hbad
  · rw [hlock] at hbad; cases hbad
  · exact hbad hnone

theorem acquireAttemptEnd_retries (hlive : s.linksLive = true) (hkey : laneKey port.val lane.val = k)
    (hloop : s.rd (Port.LOOPBACK (s.leaderOf port.val)) = 0) (hstate : s.laneState k = 3) (hsignal : (s.lane k).noSignal = false)
    {lock : Bool} {bad eye : Nat} (hbad : lock = false ∨ bad ≠ 0)
    (hmore : (s.lane k).attempts + 1 < s.rd (Port.RETRY_LIMIT (s.leaderOf port.val))) :
    let fails := Port.FAILED_ATTEMPTS port.val lane.val
    ∃ t, exec (.acquireAttemptEnd port lane lock bad eye) s = .next t ∧ t.laneState k = 3 ∧ t.rd fails = countUp (s.rd fails) 1 ∧
      (t.lane k).attempts = (s.lane k).attempts + 1 ∧
      OnlyChanges [.lane k] [fails, Port.LANE_STATE port.val lane.val, Port.LOGICAL_ID port.val lane.val] s t := by
  have hexec := exec_acquireAttemptEnd_fails hlive hkey hloop hstate hsignal hbad eye
  obtain ⟨hk, hport, hlane⟩ := laneKey_parts hkey
  rw [hport] at hloop hmore
  rw [hport, hlane]
  have hparallel : s.rd (Port.LOOPBACK (s.leaderOf (k / 4))) ≠ 2 := by rw [hloop]; decide
  rw [failAttempt_eq hk hparallel, if_neg (by omega)] at hexec
  exact ⟨_, hexec, retried_spec hk hparallel⟩

theorem acquireAttemptEnd_givesUp (hlive : s.linksLive = true) (hkey : laneKey port.val lane.val = k)
    (hloop : s.rd (Port.LOOPBACK (s.leaderOf port.val)) = 0) (hstate : s.laneState k = 3) (hsignal : (s.lane k).noSignal = false)
    {lock : Bool} {bad eye : Nat} (hbad : lock = false ∨ bad ≠ 0)
    (hlast : s.rd (Port.RETRY_LIMIT (s.leaderOf port.val)) ≤ (s.lane k).attempts + 1) :
    let fails := Port.FAILED_ATTEMPTS port.val lane.val
    ∃ t, exec (.acquireAttemptEnd port lane lock bad eye) s = .next t ∧ t.laneState k = 9 ∧ t.rd fails = countUp (s.rd fails) 1 := by
  have hexec := exec_acquireAttemptEnd_fails hlive hkey hloop hstate hsignal hbad eye
  obtain ⟨hk, hport, hlane⟩ := laneKey_parts hkey
  rw [hport] at hloop hlast
  rw [hport, hlane]
  obtain ⟨hfailed, hfails, -⟩ := failAttempt_last hk (by rw [hloop]; decide) hlast
  exact ⟨_, hexec, hfailed, hfails⟩

theorem noSignalTimeout_fails (hlive : s.linksLive = true) (hkey : laneKey port.val lane.val = k)
    (hloop : s.rd (Port.LOOPBACK (s.leaderOf port.val)) = 0) (hstate : s.laneState k = 3) (hdark : (s.lane k).noSignal = true)
    (hothers : ((s.bondLanes (s.leaderOf port.val)).any fun j => j != k && [6, 7, 8].contains (s.laneState j)) = true) :
    ∃ t, exec (.noSignalTimeout port lane) s = .next t ∧ t.laneState k = 9 ∧ t.clock = max s.clock ((s.lane k).lowAt + 100000000) := by
  subst hkey
  have hexec : exec (.noSignalTimeout port lane) s = _ := congrArg Host.Outcome.next (if_pos ⟨hlive, hstate, hdark, hloop, hothers⟩)
  obtain ⟨hfailed, hclock, -⟩ := laneFailed_spec (s := s.at ((s.lane (laneKey port.val lane.val)).lowAt + 100000000)) (laneKey_parts rfl).1 1
  exact ⟨_, hexec, hfailed, hclock⟩

theorem noSignalChange_restarts (hlive : s.linksLive = true) (hkey : laneKey port.val lane.val = k)
    (hloop : s.rd (Port.LOOPBACK (s.leaderOf port.val)) = 0) (hstate : [4, 5, 6, 7].contains (s.laneState k) = true) :
    ∃ t, exec (.noSignalChange port lane true) s = .next t ∧ t.laneState k = 3 ∧ (t.lane k).noSignal = true ∧
      t.rd (Port.LOGICAL_ID port.val lane.val) = 0xFF ∧
      OnlyChanges [.lane k] [Port.LANE_STATE port.val lane.val, Port.LOGICAL_ID port.val lane.val] s t := by
  let x : LaneSt := { s.lane k with noSignal := true, lowAt := if true && !(s.lane k).noSignal then s.clock else (s.lane k).lowAt }
  have hexec : exec (.noSignalChange port lane true) s = .next ((s.setLane k x).laneAcquire k) := by
    subst hkey
    exact congrArg Host.Outcome.next ((if_neg (not_not.2 hloop)).trans (if_pos ⟨rfl, hlive, hstate⟩))
  obtain ⟨hk, hport, hlane⟩ := laneKey_parts hkey
  rw [hport] at hloop
  rw [hport, hlane]
  have hset := setLane_only s k x
  obtain ⟨hacquire, hid, hsignal, hframe⟩ := laneAcquire_spec (s := s.setLane k x) hk (by
    rw [hset.leaderOf hk (by simp), hset.portParam hk (by simp) (by unfold Port.LOOPBACK; omega), hloop]; decide)
  refine ⟨_, hexec, hacquire, ?_, hid, (hset.trans hframe).mono (by simp) (by simp)⟩
  rw [hsignal, lane_setLane_same]

/-! ## Polarity, block lock and identity (R111, R114) -/

/-- A lane that has descrambled one more block. -/
def State.descrambled (s : State) (k raw : Nat) : State := s.setLane k { s.lane k with scram := (descramble (s.lane k).scram raw).2 }

theorem descrambled_only (s : State) (k raw : Nat) : OnlyChanges [.lane k] [] s (s.descrambled k raw) := setLane_only ..

@[simp] theorem rd_descrambled (s : State) (k raw id : Nat) : (s.descrambled k raw).rd id = s.rd id := (descrambled_only s k raw).2.2 id (by simp)

@[simp] theorem lane_descrambled (s : State) (k raw : Nat) :
    (s.descrambled k raw).lane k = { s.lane k with scram := (descramble (s.lane k).scram raw).2 } := lane_setLane_same ..

theorem exec_crlBlockRx_polarity (hlive : s.linksLive = true) (hkey : laneKey port.val lane.val = k)
    (hloop : s.rd (Port.LOOPBACK (s.leaderOf port.val)) = 0) (hstate : s.laneState k = 4) (hdr : Fin 4) (pay : BitVec 64) :
    exec (.crlBlockRx port lane hdr pay) s =
      .next ((s.descrambled k pay.toNat).polarityBlock k hdr.val (descramble (s.lane k).scram pay.toNat).1) := by
  subst hkey
  show execCrlBlockRx port lane hdr pay s = _
  simp [execCrlBlockRx, hlive, hstate, hloop, State.generated]
  rfl

/-- A lane whose polarity is decided goes on to BLOCK_LOCK. -/
theorem decidePolarity_spec (hk : k < 64) {pol : Nat} (hpol : pol < 2 ^ 32) (s : State) :
    (s.decidePolarity k pol).laneState k = 5 ∧ (s.decidePolarity k pol).rd (Port.LANE_POLARITY (k / 4) (k % 4)) = pol ∧
      OnlyChanges [.lane k] [Port.LANE_POLARITY (k / 4) (k % 4), Port.LANE_STATE (k / 4) (k % 4)] s (s.decidePolarity k pol) := by
  unfold State.decidePolarity
  dsimp only
  refine ⟨laneState_laneTo hk (by decide) _, ?_, (((setLane_only ..).trans (wr_only ..)).trans (laneTo_only ..)).mono (by simp) (by simp)⟩
  rw [(laneTo_only _ k 5).2.2 _ (by simp [Port.LANE_POLARITY, Port.LANE_STATE])]
  exact rd_wr_word (isWord_laneWords k hk _ (by simp [laneWords])) hpol _

theorem polarityBlock_forced (h : s.rd (Port.POLARITY_FORCE (k / 4) (k % 4)) ≠ 0) (hdr pay : Nat) :
    s.polarityBlock k hdr pay = s.decidePolarity k (s.rd (Port.POLARITY_FORCE (k / 4) (k % 4)) - 1) := by
  unfold State.polarityBlock
  rw [if_pos h]

/-- One more piece of evidence of normal polarity after another. -/
theorem polarityBlock_normal (hforce : s.rd (Port.POLARITY_FORCE (k / 4) (k % 4)) = 0) {pay : Nat} (hpay : evidencePayload pay = true)
    (hkind : (s.lane k).evKind = 1) :
    s.polarityBlock k 2 pay = if 4 ≤ (s.lane k).evCount + 1 then s.decidePolarity k 0 else
      s.setLane k { s.lane k with evKind := 1, evCount := (s.lane k).evCount + 1 } := by
  unfold State.polarityBlock
  simp [hforce, hpay, hkind]

theorem crlBlockRx_forced (hlive : s.linksLive = true) (hkey : laneKey port.val lane.val = k)
    (hloop : s.rd (Port.LOOPBACK (s.leaderOf port.val)) = 0) (hstate : s.laneState k = 4)
    (hlow : 1 ≤ s.rd (Port.POLARITY_FORCE port.val lane.val)) (hhigh : s.rd (Port.POLARITY_FORCE port.val lane.val) ≤ 2)
    (hdr : Fin 4) (pay : BitVec 64) :
    ∃ t, exec (.crlBlockRx port lane hdr pay) s = .next t ∧ t.laneState k = 5 ∧
      t.rd (Port.LANE_POLARITY port.val lane.val) = s.rd (Port.POLARITY_FORCE port.val lane.val) - 1 ∧
      OnlyChanges [.lane k] [Port.LANE_POLARITY port.val lane.val, Port.LANE_STATE port.val lane.val] s t := by
  have hexec := exec_crlBlockRx_polarity hlive hkey hloop hstate hdr pay
  obtain ⟨hk, hport, hlane⟩ := laneKey_parts hkey
  rw [hport, hlane] at hlow hhigh ⊢
  rw [polarityBlock_forced (by rw [rd_descrambled]; omega), rd_descrambled] at hexec
  obtain ⟨hlock, hpol, hframe⟩ := decidePolarity_spec hk (pol := s.rd (Port.POLARITY_FORCE (k / 4) (k % 4)) - 1) (by omega)
    (s.descrambled k pay.toNat)
  exact ⟨_, hexec, hlock, hpol, ((descrambled_only s k _).trans hframe).mono (by simp) (by simp)⟩

theorem exec_crlBlockRx_evidence (hlive : s.linksLive = true) (hkey : laneKey port.val lane.val = k)
    (hloop : s.rd (Port.LOOPBACK (s.leaderOf port.val)) = 0) (hstate : s.laneState k = 4)
    (hforce : s.rd (Port.POLARITY_FORCE port.val lane.val) = 0) {pay : BitVec 64}
    (hpay : evidencePayload (descramble (s.lane k).scram pay.toNat).1 = true) (hkind : (s.lane k).evKind = 1) :
    exec (.crlBlockRx port lane 2 pay) s = .next (if 4 ≤ (s.lane k).evCount + 1 then (s.descrambled k pay.toNat).decidePolarity k 0 else
      (s.descrambled k pay.toNat).setLane k { (s.descrambled k pay.toNat).lane k with evKind := 1, evCount := (s.lane k).evCount + 1 }) := by
  obtain ⟨-, hport, hlane⟩ := laneKey_parts hkey
  have hnone : (s.descrambled k pay.toNat).rd (Port.POLARITY_FORCE (k / 4) (k % 4)) = 0 := by rw [rd_descrambled, ← hport, ← hlane, hforce]
  have hheader : (2 : Fin 4).val = 2 := rfl
  rw [exec_crlBlockRx_polarity hlive hkey hloop hstate, hheader, polarityBlock_normal hnone hpay (by simp [hkind])]
  simp only [lane_descrambled]

theorem crlBlockRx_gathers (hlive : s.linksLive = true) (hkey : laneKey port.val lane.val = k)
    (hloop : s.rd (Port.LOOPBACK (s.leaderOf port.val)) = 0) (hstate : s.laneState k = 4)
    (hforce : s.rd (Port.POLARITY_FORCE port.val lane.val) = 0) {pay : BitVec 64}
    (hpay : evidencePayload (descramble (s.lane k).scram pay.toNat).1 = true) (hkind : (s.lane k).evKind = 1) (hcount : (s.lane k).evCount < 3) :
    ∃ t, exec (.crlBlockRx port lane 2 pay) s = .next t ∧ t.laneState k = 4 ∧ (t.lane k).evCount = (s.lane k).evCount + 1 ∧
      OnlyChanges [.lane k] [] s t := by
  have hexec := exec_crlBlockRx_evidence hlive hkey hloop hstate hforce hpay hkind
  rw [if_neg (by omega)] at hexec
  have hframe := ((descrambled_only s k pay.toNat).trans (setLane_only _ k
    { (s.descrambled k pay.toNat).lane k with evKind := 1, evCount := (s.lane k).evCount + 1 })).mono (qs := [.lane k]) (js := []) (by simp) (by simp)
  exact ⟨_, hexec, (hframe.2.2 _ (by simp)).trans hstate, by simp, hframe⟩

theorem crlBlockRx_decides (hlive : s.linksLive = true) (hkey : laneKey port.val lane.val = k)
    (hloop : s.rd (Port.LOOPBACK (s.leaderOf port.val)) = 0) (hstate : s.laneState k = 4)
    (hforce : s.rd (Port.POLARITY_FORCE port.val lane.val) = 0) {pay : BitVec 64}
    (hpay : evidencePayload (descramble (s.lane k).scram pay.toNat).1 = true) (hkind : (s.lane k).evKind = 1) (hcount : 3 ≤ (s.lane k).evCount) :
    ∃ t, exec (.crlBlockRx port lane 2 pay) s = .next t ∧ t.laneState k = 5 ∧ t.rd (Port.LANE_POLARITY port.val lane.val) = 0 := by
  have hexec := exec_crlBlockRx_evidence hlive hkey hloop hstate hforce hpay hkind
  rw [if_pos (by omega)] at hexec
  obtain ⟨hk, hport, hlane⟩ := laneKey_parts hkey
  obtain ⟨hlock, hpol, -⟩ := decidePolarity_spec hk (pol := 0) (by decide) (s.descrambled k pay.toNat)
  rw [hport, hlane]
  exact ⟨_, hexec, hlock, hpol⟩

theorem blockLockAchieved_identifies (hlive : s.linksLive = true) (hkey : laneKey port.val lane.val = k) (hstate : s.laneState k = 5) :
    ∃ t, exec (.blockLockAchieved port lane) s = .next t ∧ t.laneState k = 6 ∧ (t.lane k).badHist = 0 ∧ (t.lane k).held = 0 ∧
      OnlyChanges [.lane k] [Port.LANE_STATE port.val lane.val] s t := by
  have hexec : exec (.blockLockAchieved port lane) s =
      .next ((s.setLane k { s.lane k with badHist := 0, lastAlign := none, held := 0, claim := none }).laneTo k 6) := by
    show execBlockLockAchieved port lane s = _
    rw [execBlockLockAchieved, hkey, if_pos ⟨hlive, hstate⟩]
  obtain ⟨hk, hport, hlane⟩ := laneKey_parts hkey
  rw [hport, hlane]
  exact ⟨_, hexec, laneState_laneTo hk (by decide) _, by simp, by simp, ((setLane_only ..).trans (laneTo_only ..)).mono (by simp) (by simp)⟩

/-- An attempt that fails at its deadline. -/
theorem failAttempt_at (hkey : laneKey port.val lane.val = k) (hloop : s.rd (Port.LOOPBACK (s.leaderOf port.val)) = 0) (due : Nat) :
    let fails := Port.FAILED_ATTEMPTS port.val lane.val
    let t := (s.at due).failAttempt k
    t.rd fails = countUp (s.rd fails) 1 ∧ (t.laneState k = 3 ∨ t.laneState k = 9) ∧ t.clock = max s.clock due := by
  obtain ⟨hk, hport, hlane⟩ := laneKey_parts hkey
  rw [hport] at hloop
  rw [hport, hlane]
  exact failAttempt_spec (s := s.at due) hk (by show s.rd (Port.LOOPBACK (s.leaderOf (k / 4))) ≠ 2; rw [hloop]; decide)

theorem polarityTimeout_fails (hlive : s.linksLive = true) (hkey : laneKey port.val lane.val = k)
    (hloop : s.rd (Port.LOOPBACK (s.leaderOf port.val)) = 0) (hstate : s.laneState k = 4)
    (hforce : s.rd (Port.POLARITY_FORCE port.val lane.val) = 0) :
    let fails := Port.FAILED_ATTEMPTS port.val lane.val
    ∃ t, exec (.polarityTimeout port lane) s = .next t ∧ t.rd fails = countUp (s.rd fails) 1 ∧ (t.laneState k = 3 ∨ t.laneState k = 9) ∧
      t.clock = max s.clock ((s.lane k).since + 65536 * s.blockTenths (s.leaderOf port.val) / 10) := by
  have hexec : exec (.polarityTimeout port lane) s =
      .next ((s.at ((s.lane k).since + 65536 * s.blockTenths (s.leaderOf port.val) / 10)).failAttempt k) := by
    show execPolarityTimeout port lane s = _
    rw [execPolarityTimeout, hkey, if_pos ⟨hlive, hstate⟩, if_neg (not_not.2 hforce)]
  exact ⟨_, hexec, failAttempt_at hkey hloop _⟩

theorem identifyTimeout_fails (hlive : s.linksLive = true) (hkey : laneKey port.val lane.val = k)
    (hloop : s.rd (Port.LOOPBACK (s.leaderOf port.val)) = 0) (hstate : s.laneState k = 6) :
    let fails := Port.FAILED_ATTEMPTS port.val lane.val
    ∃ t, exec (.identifyTimeout port lane) s = .next t ∧ t.rd fails = countUp (s.rd fails) 1 ∧ (t.laneState k = 3 ∨ t.laneState k = 9) ∧
      t.clock = max s.clock ((s.lane k).since + 49152 * s.blockTenths (s.leaderOf port.val) / 10) := by
  have hexec : exec (.identifyTimeout port lane) s =
      .next ((s.at ((s.lane k).since + 49152 * s.blockTenths (s.leaderOf port.val) / 10)).failAttempt k) := by
    show execIdentifyTimeout port lane s = _
    rw [execIdentifyTimeout, hkey, if_pos ⟨hlive, hstate⟩]
  exact ⟨_, hexec, failAttempt_at hkey hloop _⟩

end

/-- Settles O20: each row of Table 04-6 by its own lemma; `failAttempt_eq` and `laneFailed_spec` say what a failed attempt leaves. -/
theorem lanesComeUpStepByStep : Obligations.LanesComeUpStepByStep :=
  ⟨fun _ _ _ hlive =>
      ⟨fun _ hm hstate =>
          ⟨fun hclass hloop => lineHealthTestDone_healthy hlive rfl hm hstate hclass hloop, fun hclass => lineHealthTestDone_faulty hlive rfl hm hstate hclass⟩,
        fun hstate => healthRetestTimer_tests hlive rfl hstate⟩,
    fun _ _ _ hlive hloop =>
      ⟨fun _ hdark => acquireAttemptEnd_dark rfl hloop hdark,
        fun hstate hsignal =>
          ⟨fun _ heye => acquireAttemptEnd_locks hlive rfl hloop hstate hsignal heye,
            fun _ _ _ hbad hmore => acquireAttemptEnd_retries hlive rfl hloop hstate hsignal hbad hmore,
            fun _ _ _ hbad hlast => acquireAttemptEnd_givesUp hlive rfl hloop hstate hsignal hbad hlast⟩,
        fun hstate hdark hothers => noSignalTimeout_fails hlive rfl hloop hstate hdark hothers,
        fun hstate => noSignalChange_restarts hlive rfl hloop hstate⟩,
    fun _ _ _ hlive hloop =>
      ⟨fun hdr pay hstate hlow hhigh => crlBlockRx_forced hlive rfl hloop hstate hlow hhigh hdr pay,
        fun _ hstate hforce hpay hkind =>
          ⟨fun hcount => crlBlockRx_gathers hlive rfl hloop hstate hforce hpay hkind hcount,
            fun hcount => crlBlockRx_decides hlive rfl hloop hstate hforce hpay hkind hcount⟩,
        fun hstate hforce => polarityTimeout_fails hlive rfl hloop hstate hforce,
        fun hstate => blockLockAchieved_identifies hlive rfl hstate,
        fun hstate => identifyTimeout_fails hlive rfl hloop hstate⟩⟩

end Sys2Proof.Machine

/-! A bond that reaches past the last port (R118), and O21. -/

namespace Sys2Proof.Machine

/-- In RUN, the bond of port 15 is in DESKEW with one lane of port 15 and one of the port after it, which does not exist. The parameter file lists
LANE_STATE of that lane all the same, an ID that names no parameter: it reads WAIT_BOND, and no write changes it. The state is not `Sound`, which
O21 does not ask of it. -/
def pastLastPort : State :=
  let s := ((State.reset.setLane 60 { marker := some (9, 100) }).setLane 64 { marker := some (9, 100) }).wrAll
    [(Port.PORT_STATE 15, 2), (Port.BOND_WIDTH 15, 1), (Port.LANE_MASK 15, 1), (Port.LANE_STATE 15 0, 7)]
  { s with pow := { s.pow with global := .run }, regs := tins s.regs (Port.LANE_STATE 16 0) 7 }

theorem pastLastPort_deskews :
    pastLastPort.linksLive = true ∧ pastLastPort.leaderOf 15 = 15 ∧ pastLastPort.generated 15 = false ∧ pastLastPort.rd (Port.PORT_STATE 15) = 2 ∧
      pastLastPort.bondLanes 15 = [60, 64] ∧
      ((pastLastPort.bondLanes 15).filter fun j => pastLastPort.laneState j == 7 || pastLastPort.laneState j == 8) = [60, 64] ∧
      pastLastPort.sameMarker [60, 64] = some [100, 100] := by decide +kernel

/-- The bond comes UP, and the lane past the last port stays in WAIT_BOND. -/
theorem pastLastPort_stays : (pastLastPort.tryDeskew 15).rd (Port.PORT_STATE 15) = 3 ∧ (pastLastPort.tryDeskew 15).laneState 64 = 7 := by decide +kernel

/-- Refutes O21: where the bond of port 15 reaches past the last port, a deskew that succeeds leaves a lane of its list that is not UP. -/
theorem not_lanesAlignAndAreLost : ¬ Obligations.LanesAlignAndAreLost := by
  intro ⟨_, _, halign⟩
  obtain ⟨hlive, hleader, hgenerated, hstate, hbond, hwaiting, hmarkers⟩ := pastLastPort_deskews
  obtain ⟨_, _, hdeskew⟩ := halign 15 0 0 0 pastLastPort hlive (by rw [← hgenerated]; exact congrArg _ hleader)
  have hleader' : pastLastPort.leaderOf ((15 : Fin 16).val) = 15 := hleader
  rw [hleader', hwaiting, hbond] at hdeskew
  have hlimit : [60, 64].length - [60, 64].length ≤ pastLastPort.rd (Port.DEGRADE_LIMIT 15) := Nat.zero_le _
  obtain ⟨_, _, hup⟩ := hdeskew [100, 100] (by decide) hstate hmarkers (by decide) hlimit
  have h8 : (pastLastPort.tryDeskew 15).laneState 64 = 8 := hup 64 (by decide)
  rw [pastLastPort_stays.2] at h8
  exact absurd h8 (by decide)

end Sys2Proof.Machine

/-! Ingest (R138 to R156, R180): lines that are placed and filled, the close of a frame at its deadline, tile rows, the ticket, and O23. -/

namespace Sys2Proof.Machine

/-! ## Lines that are filled (R142, R143) -/

/-- A frame after `k` further lines that are filled. Its flags, its region records and what it counts of received lines may differ. -/
structure Frame.Filled (f : Frame) (k : Nat) (g : Frame) : Prop where
  cfg : g.cfg = f.cfg
  next : g.next = f.next + k
  received : g.received = f.received
  filled : g.filled = f.filled + k
  rows : g.rows = f.rows ++ List.replicate k f.fillLine
  number : g.number = f.number
  ticket : g.ticket = f.ticket

theorem Frame.Filled.none {f g : Frame} (hcfg : g.cfg = f.cfg) (hnext : g.next = f.next) (hreceived : g.received = f.received)
    (hfilled : g.filled = f.filled) (hrows : g.rows = f.rows) (hnumber : g.number = f.number) (hticket : g.ticket = f.ticket) : f.Filled 0 g :=
  ⟨hcfg, hnext, hreceived, hfilled, by simp [hrows], hnumber, hticket⟩

theorem Frame.Filled.refl (f : Frame) : f.Filled 0 f := .none rfl rfl rfl rfl rfl rfl rfl

/-- What follows without a filled line. -/
theorem Frame.Filled.then {f g h : Frame} {k : Nat} (hfg : f.Filled k g) (hgh : g.Filled 0 h) : f.Filled k h :=
  ⟨hgh.cfg.trans hfg.cfg, hgh.next.trans hfg.next, hgh.received.trans hfg.received, hgh.filled.trans hfg.filled,
    by rw [hgh.rows, hfg.rows, List.replicate_zero, List.append_nil], hgh.number.trans hfg.number, hgh.ticket.trans hfg.ticket⟩

theorem Frame.Filled.foldl {α : Type} {g : Frame → α → Frame} (hstep : ∀ (f : Frame) x, f.Filled 0 (g f x)) (l : List α) (f : Frame) :
    f.Filled 0 (l.foldl g f) := by
  induction l generalizing f with
  | nil => exact .refl f
  | cons x xs ih => exact (hstep f x).then (ih (g f x))

theorem flag_filled (f : Frame) (i : Nat) : f.Filled 0 (f.flag i) := .none rfl rfl rfl rfl rfl rfl rfl

theorem addRegion_filled (f : Frame) (n : Region) : f.Filled 0 (f.addRegion n) := by
  unfold Frame.addRegion
  split
  · exact .refl f
  · split
    · exact .none rfl rfl rfl rfl rfl rfl rfl
    · split <;> exact .none rfl rfl rfl rfl rfl rfl rfl

theorem fillTo_filled (f : Frame) (n : Nat) : f.Filled (n - f.next) (f.fillTo n) := by
  unfold Frame.fillTo
  split
  case isTrue h => rw [Nat.sub_eq_zero_of_le h]; exact .refl f
  case isFalse h =>
    have hmarks := (flag_filled f Flag.SHORT).then (addRegion_filled _ { kind := 1, count := n - f.next, y := f.next })
    exact ⟨hmarks.cfg, (Nat.add_sub_of_le (Nat.le_of_not_le h)).symm, hmarks.received, congrArg (· + (n - f.next)) hmarks.filled,
      by dsimp only; rw [hmarks.rows, List.replicate_zero, List.append_nil], hmarks.number, hmarks.ticket⟩

/-! ## Samples and lines (R144 to R148) -/

theorem sample_lt (c : FrameCfg) (line i v : Nat) : (c.sample line i v).1 < 2 ^ c.width := by
  have hpos : 0 < 2 ^ c.width := Nat.two_pow_pos _
  simp only [FrameCfg.sample, clamp]
  generalize 2 ^ c.width = top at hpos
  split
  · exact hpos
  · split <;> omega

/-- What stands at a position of a placed line: a received sample after R148, the pedestal for a missing one. -/
def FrameCfg.placed (c : FrameCfg) (line i : Nat) : Option Nat → Nat
  | some v => (c.sample line i v).1
  | none => c.pedestal

theorem line_eq (c : FrameCfg) (line : Nat) (vs : List (Option Nat)) :
    (c.line line vs).1 = (List.range c.samples).map fun i => c.placed line i (vs.getD i none) := by
  simp only [FrameCfg.line, List.map_map]
  refine List.map_congr_left fun i _ => ?_
  cases h : vs.getD i none <;> simp only [Function.comp_apply, h] <;> rfl

theorem line_length (c : FrameCfg) (line : Nat) (vs : List (Option Nat)) : (c.line line vs).1.length = c.samples := by
  simp [line_eq]

theorem line_getD {c : FrameCfg} {i : Nat} (hi : i < c.samples) (line : Nat) (vs : List (Option Nat)) :
    (c.line line vs).1.getD i 0 = c.placed line i (vs.getD i none) := by
  rw [line_eq, List.getD_eq_getElem _ _ (by simpa using hi), List.getElem_map, List.getElem_range]

theorem line_lt {c : FrameCfg} (hpedestal : c.pedestal < 2 ^ c.width) (line : Nat) (vs : List (Option Nat)) :
    ∀ v ∈ (c.line line vs).1, v < 2 ^ c.width := by
  rw [line_eq]
  intro v hv
  obtain ⟨i, -, rfl⟩ := List.mem_map.1 hv
  cases vs.getD i none with
  | none => exact hpedestal
  | some v => exact sample_lt c line i v

/-! ## A line that is placed or discarded (R142, R144) -/

/-- A frame in which an active line has arrived. -/
def Frame.arrived (f : Frame) (l : RxLine) : Frame :=
  { f with activeSeen := true, lanesMissing := l.missing.foldl setFlag f.lanesMissing }

/-- A frame that tells of a line of another length than the geometry's. -/
def Frame.noteLength (f : Frame) (l : RxLine) : Frame :=
  if l.len < f.cfg.samples then
    { (f.flag Flag.SHORT).addRegion { kind := 2, y := l.number, x := l.len, count := f.cfg.samples - l.len, padLines := 1 } with
      padded := f.padded + 1 }
  else if f.cfg.samples < l.len then { f.flag Flag.LONG with cut := f.cut + 1 }
  else f

/-- A frame that tells of the lanes missing from a line. -/
def Frame.noteLanes (f : Frame) (l : RxLine) : Frame :=
  l.missing.foldl (fun g k => g.addRegion { kind := 3, lane := k, laneCount := l.lanes, count := 1, y := l.number }) f

/-- A frame that tells of the CRC error of a line. -/
def Frame.noteCrc (f : Frame) (l : RxLine) : Frame :=
  if l.crcErr then { (f.flag Flag.CRC_ERR).addRegion { kind := 4, count := 1, y := l.number } with crcLines := f.crcLines + 1 } else f

/-- A frame with a line after those it has. -/
def Frame.append (f : Frame) (l : RxLine) : Frame :=
  { f with
    next := l.number + 1, received := f.received + 1
    lenMin := if f.received = 0 then l.len else min f.lenMin l.len
    lenMax := max f.lenMax l.len
    rows := f.rows ++ [(f.cfg.line l.number l.samples).1] }

/-- A frame that is ready for a line: filled up to it, with what is told of it. -/
def Frame.prepared (f : Frame) (l : RxLine) : Frame := ((((f.arrived l).fillTo l.number).noteLength l).noteLanes l).noteCrc l

theorem place_of_inOrder {f : Frame} {l : RxLine} (hnext : f.next ≤ l.number) (hlines : l.number < f.cfg.lines) :
    f.place l = (f.prepared l).append l := by
  have hin : ¬(l.number < f.next ∨ f.cfg.lines ≤ l.number) := by omega
  exact if_neg hin

theorem noteLength_filled (f : Frame) (l : RxLine) : f.Filled 0 (f.noteLength l) := by
  unfold Frame.noteLength
  split
  · exact ((flag_filled f _).then (addRegion_filled _ _)).then (.none rfl rfl rfl rfl rfl rfl rfl)
  · split
    · exact .none rfl rfl rfl rfl rfl rfl rfl
    · exact .refl f

theorem noteCrc_filled (f : Frame) (l : RxLine) : f.Filled 0 (f.noteCrc l) := by
  unfold Frame.noteCrc
  split
  · exact ((flag_filled f _).then (addRegion_filled _ _)).then (.none rfl rfl rfl rfl rfl rfl rfl)
  · exact .refl f

theorem prepared_filled (f : Frame) (l : RxLine) : f.Filled (l.number - f.next) (f.prepared l) := by
  have hfill : (f.arrived l).Filled (l.number - f.next) (f.prepared l) :=
    (((fillTo_filled (f.arrived l) l.number).then (noteLength_filled _ l)).then (.foldl (fun g k => addRegion_filled g _) _ _)).then
      (noteCrc_filled _ l)
  exact ⟨hfill.cfg, hfill.next, hfill.received, hfill.filled, hfill.rows, hfill.number, hfill.ticket⟩

/-- A line that comes in order stands after the missing ones, which are filled. -/
theorem place_inOrder {f : Frame} {l : RxLine} (hnext : f.next ≤ l.number) (hlines : l.number < f.cfg.lines) :
    (f.place l).next = l.number + 1 ∧ (f.place l).received = f.received + 1 ∧ (f.place l).filled = f.filled + (l.number - f.next) ∧
      (f.place l).rows = f.rows ++ List.replicate (l.number - f.next) f.fillLine ++ [(f.cfg.line l.number l.samples).1] := by
  have hfill := prepared_filled f l
  rw [place_of_inOrder hnext hlines]
  exact ⟨rfl, congrArg (· + 1) hfill.received, hfill.filled, by rw [Frame.append, hfill.rows, hfill.cfg]⟩

/-- A line out of order or beyond the geometry is discarded. -/
theorem place_discards {f : Frame} {l : RxLine} (h : l.number < f.next ∨ f.cfg.lines ≤ l.number) :
    (f.place l).rows = f.rows ∧ (f.place l).discarded = f.discarded + 1 ∧ bit (f.place l).flags 1 = true ∧ (f.place l).next = f.next := by
  have hplace : f.place l = (fun g : Frame => { g.flag Flag.LONG with discarded := g.discarded + 1 })
      (if l.crcErr then (f.arrived l).flag Flag.CRC_ERR else f.arrived l) := if_pos h
  rw [hplace]
  split <;> exact ⟨rfl, rfl, by simp [Frame.flag, Flag.LONG], rfl⟩

/-! ## The close of a frame (R138, R140, R143) -/

/-- The counter of an event reads what it counts up to. -/
theorem rd_countBy_counter {id : Nat} (h : isCounter id = true) (n : Nat) (s : State) : (s.countBy id n).rd id = countUp (s.rd id) n := by
  obtain ⟨p, hp, hrow⟩ := (Option.any_eq_true _ _).1 h
  simp only [Bool.and_eq_true, Bool.not_eq_true', beq_iff_eq] at hrow
  exact rd_countBy_same n hp hrow.1 hrow.2

theorem isCounter_framesClosed (port : Fin 16) : isCounter (Ing.FRAMES_CLOSED port.val) = true := by
  revert port
  decide

theorem isCounter_tilesEncoded (port : Fin 16) : isCounter (Trf.TILES_ENCODED port.val) = true := by
  revert port
  decide

theorem isWord_frameState (port : Fin 16) : isWord (Ing.FRAME_STATE port.val) = true := by
  revert port
  decide

/-- Two states between which tickets have become final, in their slots and in LAST_TICKET (R155). -/
structure FinalTickets (s t : State) : Prop where
  frame : ∀ p, (t.ingest p).frame = (s.ingest p).frame
  closing : ∀ p, (t.ingest p).closing = (s.ingest p).closing
  clock : t.clock = s.clock
  firings : t.firings = s.firings
  rd : ∀ id, t.rd id = s.rd id

theorem FinalTickets.refl (s : State) : FinalTickets s s := ⟨fun _ => rfl, fun _ => rfl, rfl, rfl, fun _ => rfl⟩

theorem FinalTickets.trans {s t u : State} (h : FinalTickets s t) (g : FinalTickets t u) : FinalTickets s u :=
  ⟨fun p => (g.frame p).trans (h.frame p), fun p => (g.closing p).trans (h.closing p), g.clock.trans h.clock, g.firings.trans h.firings,
    fun id => (g.rd id).trans (h.rd id)⟩

theorem FinalTickets.foldl {α : Type} {f : State → α → State} (hstep : ∀ t x, FinalTickets t (f t x)) (l : List α) (s : State) :
    FinalTickets s (l.foldl f s) := by
  induction l generalizing s with
  | nil => exact .refl s
  | cons x xs ih => exact (hstep s x).trans (ih (f s x))

theorem setSlots_finalTickets (s : State) (p : Nat) (slots : Table Frame) : FinalTickets s (s.setIngest p { s.ingest p with slots := slots }) := by
  have hingest : ∀ q, (s.setIngest p { s.ingest p with slots := slots }).ingest q = if q = p then { s.ingest p with slots := slots } else s.ingest q := by
    intro q
    split
    case isTrue h => rw [h, ingest_setIngest_same]
    case isFalse h => exact ingest_setIngest_other h
  refine ⟨fun q => ?_, fun q => ?_, rfl, rfl, fun _ => rfl⟩
  all_goals
    rw [hingest]
    split
    case isTrue h => rw [h]
    case isFalse => rfl

theorem wrBlob_finalTickets (s : State) (id : Nat) (b : List Byte) : FinalTickets s (s.wrBlob id b) := ⟨fun _ => rfl, fun _ => rfl, rfl, rfl, fun _ => rfl⟩

theorem finalFrame_finalTickets (s : State) (p slot : Nat) : FinalTickets s (s.finalFrame p slot) := by
  unfold State.finalFrame
  split
  · exact .refl s
  · split
    · exact .refl s
    · exact (setSlots_finalTickets s p _).trans (wrBlob_finalTickets _ _ _)

theorem finalUntaken_finalTickets (s : State) (ctx : Nat) : FinalTickets s (s.finalUntaken ctx) :=
  .foldl (fun t p => .foldl (fun u (e : Nat × Frame) => finalFrame_finalTickets u p e.1) _ t) _ s

/-- The lines filled at the end of a frame are counted, and so is an overflow of its region records. -/
def State.endFilled (s : State) (p : Nat) (f g : Frame) : State :=
  let u := s.countBy (Ing.LINES_FILLED p) (g.filled - f.filled)
  if g.overflow && !f.overflow then u.count (Ing.DEFECT_OVERFLOW p) else u

/-- A frame whose last lines are filled, closed with a cause. -/
def Frame.closedBy (f : Frame) (cause linesSent time epoch : Nat) : Frame :=
  let f2 := if cause = 0 then f else f.flag Flag.TRUNCATED
  let f3 := if cause = 3 then f2.flag Flag.LANE_LOST else f2
  let f4 := if f3.epoch ≠ epoch then f3.flag Flag.EPOCH_CHANGE else f3
  { f4 with cause := cause, linesSent := linesSent, endTime := time, endEpoch := epoch, closed := true }

/-- The flags of a frame that closes are counted (Table 05-6). -/
def State.flagsCounted (s : State) (p : Nat) (f : Frame) : State :=
  ((((s.countFlag f Flag.SHORT (Ing.FRAMES_SHORT p)).countFlag f Flag.LONG (Ing.FRAMES_LONG p)).countFlag f Flag.TRUNCATED
    (Ing.FRAMES_TRUNCATED p)).countFlag f Flag.CRC_ERR (Ing.FRAMES_CRC_ERR p)).countFlag f Flag.EPOCH_CHANGE (Ing.EPOCH_CHANGES p)

/-- The open frame of a port gives way to a closed one that waits for its ticket. -/
def State.frameLeaves (s : State) (p : Nat) (f : Frame) : State :=
  s.setIngest p { s.ingest p with frame := none, closing := (s.ingest p).closing ++ [f] }

/-- FRAME_STATE and the counters of a frame that closes. -/
def State.closeCounted (s : State) (p : Nat) (f : Frame) : State :=
  ((s.wr (Ing.FRAME_STATE p) 0).count (Ing.FRAMES_CLOSED p)).flagsCounted p f

/-- The end of a frame but for the event source that fires. -/
def State.frameClosed (s : State) (p : Nat) (f : Frame) : State := ((s.frameLeaves p f).closeCounted p f).finalUntaken f.cfg.ctx

theorem closeFrame_open {s u : State} {p : Nat} {f : Frame} (hf : (s.ingest p).frame = some f) (hu : s.endFilled p f (f.fillTo f.cfg.lines) = u)
    (cause linesSent : Nat) :
    s.closeFrame p cause linesSent = (u.frameClosed p ((f.fillTo f.cfg.lines).closedBy cause linesSent u.deviceTime u.epoch)).fire (48 + p) := by
  subst hu
  unfold State.closeFrame
  rw [hf]
  rfl

theorem endFilled_only (s : State) (p : Nat) (f g : Frame) : OnlyChanges [] [Ing.LINES_FILLED p, Ing.DEFECT_OVERFLOW p] s (s.endFilled p f g) :=
  (countBy_only s _ _).trans (countIf_only _ _ _)

theorem countFlag_only (s : State) (f : Frame) (i id : Nat) : OnlyChanges [] [id] s (s.countFlag f i id) := countIf_only s _ id

/-- The counters of the flags of closed frames. -/
def flagCounters (p : Nat) : List Nat :=
  [Ing.FRAMES_SHORT p, Ing.FRAMES_LONG p, Ing.FRAMES_TRUNCATED p, Ing.FRAMES_CRC_ERR p, Ing.EPOCH_CHANGES p]

theorem flagsCounted_only (s : State) (p : Nat) (f : Frame) : OnlyChanges [] (flagCounters p) s (s.flagsCounted p f) :=
  ((((countFlag_only s f _ _).trans (countFlag_only _ f _ _)).trans (countFlag_only _ f _ _)).trans (countFlag_only _ f _ _)).trans
    (countFlag_only _ f _ _)

theorem closedBy_filled (f : Frame) (cause linesSent time epoch : Nat) : f.Filled 0 (f.closedBy cause linesSent time epoch) := by
  unfold Frame.closedBy
  dsimp only
  repeat' split
  all_goals exact .none rfl rfl rfl rfl rfl rfl rfl

theorem closedBy_deadline (f : Frame) (linesSent time epoch : Nat) :
    (f.closedBy 1 linesSent time epoch).cause = 1 ∧ (f.closedBy 1 linesSent time epoch).closed = true ∧
      bit (f.closedBy 1 linesSent time epoch).flags 2 = true := by
  refine ⟨rfl, rfl, ?_⟩
  unfold Frame.closedBy
  dsimp only
  rw [if_neg (by decide : ¬1 = 0), if_neg (by decide : ¬1 = 3)]
  split <;> simp [Frame.flag, Flag.TRUNCATED, Flag.EPOCH_CHANGE]

theorem frameLeaves_ingest (s : State) (p : Nat) (f : Frame) :
    ((s.frameLeaves p f).ingest p).frame = none ∧ ((s.frameLeaves p f).ingest p).closing = (s.ingest p).closing ++ [f] := by
  rw [State.frameLeaves, ingest_setIngest_same]
  exact ⟨rfl, rfl⟩

theorem frameLeaves_only (s : State) (p : Nat) (f : Frame) : OnlyChanges [.ingest p] [] s (s.frameLeaves p f) := setIngest_only s p _

theorem closeCounted_only (s : State) (p : Nat) (f : Frame) :
    OnlyChanges [] (Ing.FRAME_STATE p :: Ing.FRAMES_CLOSED p :: flagCounters p) s (s.closeCounted p f) :=
  ((wr_only s _ _).trans (count_only _ _)).trans (flagsCounted_only _ p f)

theorem rd_closeCounted (port : Fin 16) (s : State) (f : Frame) :
    (s.closeCounted port.val f).rd (Ing.FRAME_STATE port.val) = 0 ∧
      (s.closeCounted port.val f).rd (Ing.FRAMES_CLOSED port.val) = countUp (s.rd (Ing.FRAMES_CLOSED port.val)) 1 := by
  have hflags := flagsCounted_only ((s.wr (Ing.FRAME_STATE port.val) 0).count (Ing.FRAMES_CLOSED port.val)) port.val f
  have hstate : Ing.FRAME_STATE port.val ∉ flagCounters port.val := by
    simp [flagCounters, Ing.FRAME_STATE, Ing.FRAMES_SHORT, Ing.FRAMES_LONG, Ing.FRAMES_TRUNCATED, Ing.FRAMES_CRC_ERR, Ing.EPOCH_CHANGES]
  have hclosed : Ing.FRAMES_CLOSED port.val ∉ flagCounters port.val := by
    simp [flagCounters, Ing.FRAMES_CLOSED, Ing.FRAMES_SHORT, Ing.FRAMES_LONG, Ing.FRAMES_TRUNCATED, Ing.FRAMES_CRC_ERR, Ing.EPOCH_CHANGES]
  have hne : Ing.FRAME_STATE port.val ≠ Ing.FRAMES_CLOSED port.val := by simp [Ing.FRAME_STATE, Ing.FRAMES_CLOSED]
  constructor
  · rw [State.closeCounted, hflags.2.2 _ hstate, (count_only _ _).2.2 _ (by simpa using hne), rd_wr_word (isWord_frameState port) (by decide)]
  · rw [State.closeCounted, hflags.2.2 _ hclosed, rd_count_counter (isCounter_framesClosed port), rd_wr_other hne.symm]

/-- A frame that ends waits for its ticket; FRAME_STATE reads 0, and FRAMES_CLOSED counts. -/
theorem frameClosed_spec (port : Fin 16) (s : State) (f : Frame) :
    ((s.frameClosed port.val f).ingest port.val).frame = none ∧
      ((s.frameClosed port.val f).ingest port.val).closing = (s.ingest port.val).closing ++ [f] ∧
      (s.frameClosed port.val f).rd (Ing.FRAME_STATE port.val) = 0 ∧
      (s.frameClosed port.val f).rd (Ing.FRAMES_CLOSED port.val) = countUp (s.rd (Ing.FRAMES_CLOSED port.val)) 1 ∧
      (s.frameClosed port.val f).clock = s.clock ∧ (s.frameClosed port.val f).firings = s.firings := by
  have hleaves := frameLeaves_only s port.val f
  obtain ⟨hframe, hclosing⟩ := frameLeaves_ingest s port.val f
  have hcounted := closeCounted_only (s.frameLeaves port.val f) port.val f
  obtain ⟨hstate, hclosed⟩ := rd_closeCounted port (s.frameLeaves port.val f) f
  have hingest : ((s.frameLeaves port.val f).closeCounted port.val f).ingest port.val = (s.frameLeaves port.val f).ingest port.val :=
    hcounted.2.1 (.ingest port.val) (by simp)
  obtain ⟨hfinalFrame, hfinalClosing, hclock, hfirings, hrd⟩ : FinalTickets _ (s.frameClosed port.val f) := finalUntaken_finalTickets _ _
  refine ⟨?_, ?_, ?_, ?_, ?_, ?_⟩
  · rw [hfinalFrame, hingest, hframe]
  · rw [hfinalClosing, hingest, hclosing]
  · rw [hrd, hstate]
  · rw [hrd, hclosed, hleaves.2.2 _ (by simp)]
  · exact hclock.trans ((hcounted.2.1 .clock (by simp)).trans (hleaves.2.1 .clock (by simp)))
  · exact hfirings.trans ((hcounted.2.1 .firings (by simp)).trans (hleaves.2.1 .firings (by simp)))

/-- At the ingest deadline the open frame closes with cause 1. -/
theorem ingestDeadline_closes {port : Fin 16} {f : Frame} {s : State} (hf : (s.ingest port.val).frame = some f) :
    ∃ t g, exec (.ingestDeadline port) s = .next t ∧ t.clock = max s.clock (f.startClock + f.cfg.deadline) ∧
      (t.ingest port.val).frame = none ∧ (t.ingest port.val).closing = (s.ingest port.val).closing ++ [g] ∧ g.cause = 1 ∧ g.closed = true ∧
      g.filled = f.filled + (f.cfg.lines - f.next) ∧ bit g.flags 2 = true ∧ g.number = f.number ∧ g.ticket = f.ticket ∧
      t.rd (Ing.FRAME_STATE port.val) = 0 ∧ t.rd (Ing.FRAMES_CLOSED port.val) = countUp (s.rd (Ing.FRAMES_CLOSED port.val)) 1 ∧
      t.firings = s.firings ++ [(48 + port.val, t.clock)] := by
  let due := f.startClock + f.cfg.deadline
  let u := (s.at due).endFilled port.val f (f.fillTo f.cfg.lines)
  let g := (f.fillTo f.cfg.lines).closedBy 1 0 u.deviceTime u.epoch
  have hexec : exec (.ingestDeadline port) s = .next ((u.frameClosed port.val g).fire (48 + port.val)) := by
    show execIngestDeadline port s = _
    rw [execIngestDeadline, hf]
    exact congrArg Host.Outcome.next (closeFrame_open (s := s.at due) hf rfl 1 0)
  have hfilled : f.Filled (f.cfg.lines - f.next) g := (fillTo_filled f f.cfg.lines).then (closedBy_filled _ 1 0 u.deviceTime u.epoch)
  have hu := endFilled_only (s.at due) port.val f (f.fillTo f.cfg.lines)
  have hclock : u.clock = max s.clock due := hu.2.1 .clock (by simp)
  have hfirings : u.firings = s.firings := hu.2.1 .firings (by simp)
  have hingest : u.ingest port.val = s.ingest port.val := hu.2.1 (.ingest port.val) (by simp)
  have hclosed : u.rd (Ing.FRAMES_CLOSED port.val) = s.rd (Ing.FRAMES_CLOSED port.val) :=
    hu.2.2 _ (by simp [Ing.FRAMES_CLOSED, Ing.LINES_FILLED, Ing.DEFECT_OVERFLOW])
  obtain ⟨hnone, hclosing, hstate, hcount, hclock', hfirings'⟩ := frameClosed_spec port u g
  obtain ⟨hcause, hisClosed, hflag⟩ := closedBy_deadline (f.fillTo f.cfg.lines) 0 u.deviceTime u.epoch
  have hfire := fire_only (u.frameClosed port.val g) (48 + port.val)
  have hfireIngest : ((u.frameClosed port.val g).fire (48 + port.val)).ingest port.val = (u.frameClosed port.val g).ingest port.val :=
    hfire.2.1 (.ingest port.val) (by simp)
  have hfireClock : ((u.frameClosed port.val g).fire (48 + port.val)).clock = (u.frameClosed port.val g).clock := hfire.2.1 .clock (by simp)
  refine ⟨_, g, hexec, ?_, ?_, ?_, hcause, hisClosed, hfilled.filled, hflag, hfilled.number, hfilled.ticket, ?_, ?_, ?_⟩
  · rw [hfireClock, hclock', hclock]
  · rw [hfireIngest, hnone]
  · rw [hfireIngest, hclosing, hingest]
  · rw [hfire.2.2 _ (by simp), hstate]
  · rw [hfire.2.2 _ (by simp), hcount, hclosed]
  · rw [fire_firings, hfireClock, hfirings', hfirings]

/-! ## Tile rows (R156, R180) -/

theorem encodeRow_length (f : Frame) : f.encodeRow.length = ceilDiv f.cfg.samples 64 := by simp [Frame.encodeRow]

/-- The counts of a tile row beside the number of its tiles (Table 06-8). -/
def State.tileKindsCounted (s : State) (p : Nat) (ts : List TileOut) : State :=
  let u := (s.countBy (Trf.TILES_FLAT p) (ts.filter fun t => t.mode == 1).length).countBy (Trf.TILES_RAW p) (ts.filter fun t => t.mode == 2).length
  (ts.foldl (fun t x => if x.mode = 0 then t.count (Trf.STEP_COUNT p x.step) else t) u).addBytes (Trf.BYTES_OUT p)
    (ts.map fun t => t.bytes.length).sum

theorem countTiles_eq (s : State) (p : Nat) (ts : List TileOut) :
    s.countTiles p ts = (s.countBy (Trf.TILES_ENCODED p) ts.length).tileKindsCounted p ts := rfl

/-- The counters of the tiles of a row by their kinds. -/
def tileKinds (p : Nat) (ts : List TileOut) : List Nat :=
  Trf.TILES_FLAT p :: Trf.TILES_RAW p :: Trf.BYTES_OUT p :: ts.map fun x => Trf.STEP_COUNT p x.step

theorem stepsCounted_only (s : State) (p : Nat) (ts : List TileOut) : OnlyChanges [] (tileKinds p ts) s
    (ts.foldl (fun t x => if x.mode = 0 then t.count (Trf.STEP_COUNT p x.step) else t) s) := by
  refine OnlyChanges.foldl ts ((OnlyChanges.refl s).mono (by simp) (by simp)) fun t x hx => ?_
  have hmem : Trf.STEP_COUNT p x.step ∈ tileKinds p ts := by
    simp only [tileKinds, List.mem_cons]
    exact .inr (.inr (.inr (List.mem_map_of_mem (f := fun x : TileOut => Trf.STEP_COUNT p x.step) hx)))
  split
  · exact (count_only t _).mono (by simp) (by simpa using hmem)
  · exact (OnlyChanges.refl t).mono (by simp) (by simp)

theorem tileKindsCounted_only (s : State) (p : Nat) (ts : List TileOut) : OnlyChanges [] (tileKinds p ts) s (s.tileKindsCounted p ts) := by
  have hflatRaw : ∀ m n, OnlyChanges [] (tileKinds p ts) s ((s.countBy (Trf.TILES_FLAT p) m).countBy (Trf.TILES_RAW p) n) := fun _ _ =>
    ((countBy_only s _ _).trans (countBy_only _ _ _)).mono (by simp) (by simp [tileKinds])
  exact ((hflatRaw _ _).then (stepsCounted_only _ p ts)).then ((addBytes_only _ _ _).mono (by simp) (by simp [tileKinds]))

/-- A tile row counts its tiles and leaves the frames alone. -/
theorem countTiles_spec (port : Fin 16) (s : State) (ts : List TileOut) :
    (s.countTiles port.val ts).rd (Trf.TILES_ENCODED port.val) = countUp (s.rd (Trf.TILES_ENCODED port.val)) ts.length ∧
      (s.countTiles port.val ts).ingest port.val = s.ingest port.val := by
  rw [countTiles_eq]
  have hkinds := tileKindsCounted_only (s.countBy (Trf.TILES_ENCODED port.val) ts.length) port.val ts
  refine ⟨(hkinds.2.2 _ ?_).trans (rd_countBy_counter (isCounter_tilesEncoded port) _ s),
    (hkinds.2.1 (.ingest port.val) (by simp)).trans ((countBy_only s _ _).2.1 (.ingest port.val) (by simp))⟩
  simp [tileKinds, Trf.TILES_ENCODED, Trf.TILES_FLAT, Trf.TILES_RAW, Trf.BYTES_OUT, Trf.STEP_COUNT]
  omega

section

variable {port : Fin 16} {f : Frame} {s : State} (hruns : s.ingestRuns = true)
include hruns

/-- The next tile row of the open frame, where no closed one has a row left. -/
theorem tileRowWritten_open (hclosing : (s.ingest port.val).closing.find? Frame.rowReady = none) (hf : (s.ingest port.val).frame = some f)
    (hready : f.rowReady = true) :
    ∃ t g, exec (.trfTileRowWritten port) s = .next t ∧ (t.ingest port.val).frame = some g ∧ g.tiles.length = f.tiles.length + 1 ∧
      g.rows = f.rows.drop 8 ∧ t.rd (Trf.TILES_ENCODED port.val) = countUp (s.rd (Trf.TILES_ENCODED port.val)) (ceilDiv f.cfg.samples 64) := by
  have hexec : exec (.trfTileRowWritten port) s =
      .next ((s.setIngest port.val { s.ingest port.val with frame := some (f.afterRow f.encodeRow) }).countTiles port.val f.encodeRow) := by
    show execTrfTileRowWritten port s = _
    simp [execTrfTileRowWritten, hruns, hclosing, hf, hready]
  obtain ⟨hcount, hingest⟩ := countTiles_spec port (s.setIngest port.val { s.ingest port.val with frame := some (f.afterRow f.encodeRow) }) f.encodeRow
  refine ⟨_, f.afterRow f.encodeRow, hexec, ?_, by simp [Frame.afterRow], rfl, ?_⟩
  · rw [hingest, ingest_setIngest_same]
  · rw [hcount, encodeRow_length]
    rfl

/-- The next tile row of the oldest closed frame that has one left. -/
theorem tileRowWritten_closed (hfind : (s.ingest port.val).closing.find? Frame.rowReady = some f) :
    ∃ t, exec (.trfTileRowWritten port) s = .next t ∧ (t.ingest port.val).frame = (s.ingest port.val).frame ∧
      (t.ingest port.val).closing.length = (s.ingest port.val).closing.length ∧ (∃ g ∈ (t.ingest port.val).closing, g = f.afterRow f.encodeRow) ∧
      t.rd (Trf.TILES_ENCODED port.val) = countUp (s.rd (Trf.TILES_ENCODED port.val)) (ceilDiv f.cfg.samples 64) := by
  let x : IngSt := { s.ingest port.val with
    closing := (s.ingest port.val).closing.map fun h => if h.number = f.number then f.afterRow f.encodeRow else h }
  have hexec : exec (.trfTileRowWritten port) s = .next ((s.setIngest port.val x).countTiles port.val f.encodeRow) := by
    show execTrfTileRowWritten port s = _
    simp [execTrfTileRowWritten, hruns, hfind, x]
  obtain ⟨hcount, hingest⟩ := countTiles_spec port (s.setIngest port.val x) f.encodeRow
  rw [ingest_setIngest_same] at hingest
  refine ⟨_, hexec, by rw [hingest], by rw [hingest, List.length_map], ⟨_, ?_, rfl⟩, ?_⟩
  · rw [hingest]
    exact List.mem_map.2 ⟨f, List.mem_of_find?_eq_some hfind, if_pos rfl⟩
  · rw [hcount, encodeRow_length]
    rfl

end

/-! ## The ticket (R153) -/

/-- A ticket that becomes final stays in its slot. -/
theorem finalFrame_slot {s : State} {p slot : Nat} {f : Frame} (h : tfind (s.ingest p).slots slot = some f) :
    ∃ b, tfind ((s.finalFrame p slot).ingest p).slots slot = some { f with final := b } := by
  unfold State.finalFrame
  rw [h]
  dsimp only
  split
  case isTrue => exact ⟨f.final, h⟩
  case isFalse =>
    refine ⟨true, ?_⟩
    rw [(wrBlob_only _ _ _).2.1 (.ingest p) (by simp), ingest_setIngest_same, tfind_tins_same]

/-- A frame moves into its slot with its ticket. -/
def State.ticketMoved (s : State) (p : Nat) (f : Frame) (rest : List Frame) : State :=
  (s.setIngest p { s.ingest p with closing := rest, slots := tins (s.ingest p).slots (f.number % f.cfg.slots) f }).trace 2 f.cfg.ctx
    (f.ticketBody.take 24)

/-- A ticket in its slot becomes final, unless its context is active and no later frame of it has closed (R155). -/
def State.ticketSettled (s : State) (p : Nat) (f : Frame) : State :=
  if s.rd (Ctx.CTX_STATE f.cfg.ctx) = 1 ∧ s.nextClosed f = false then s else s.finalFrame p (f.number % f.cfg.slots)

/-- A written frame moves into its slot, and is reported. -/
def State.ticketStored (s : State) (p : Nat) (f : Frame) (rest : List Frame) : State :=
  (((s.ticketMoved p f rest).ticketSettled p f).wrAll [(Trf.LAST_FRAME_BYTES p, f.trfBytes), (Trf.LAST_FRAME_FLAT p, f.flat),
    (Trf.LAST_FRAME_MAX_STEP p, f.maxStep), (Trf.LAST_FRAME_ERROR_BOUND p, f.bound)]).controlValues p f

theorem controlValues_ingest (s : State) (p : Nat) (f : Frame) (q : Nat) : (s.controlValues p f).ingest q = s.ingest q := by
  unfold State.controlValues
  split
  · rfl
  · refine List.foldlRecOn (motive := fun t : State => t.ingest q = s.ingest q) _ _ rfl fun t ht e _ => ?_
    split
    · exact ((wr_only t _ _).2.1 (.ingest q) (by simp)).trans ht
    · exact ht

theorem ticketMoved_ingest (s : State) (p : Nat) (f : Frame) (rest : List Frame) :
    ((s.ticketMoved p f rest).ingest p).closing = rest ∧
      tfind ((s.ticketMoved p f rest).ingest p).slots (f.number % f.cfg.slots) = some f := by
  have hingest : (s.ticketMoved p f rest).ingest p = _ := (trace_only _ 2 f.cfg.ctx _).2.1 (.ingest p) (by simp)
  rw [hingest, ingest_setIngest_same]
  exact ⟨rfl, tfind_tins_same _ _ _⟩

theorem ticketSettled_ingest {s : State} {p : Nat} {f : Frame} (h : tfind (s.ingest p).slots (f.number % f.cfg.slots) = some f) :
    ((s.ticketSettled p f).ingest p).closing = (s.ingest p).closing ∧
      ∃ b, tfind ((s.ticketSettled p f).ingest p).slots (f.number % f.cfg.slots) = some { f with final := b } := by
  unfold State.ticketSettled
  split
  · exact ⟨rfl, f.final, h⟩
  · exact ⟨(finalFrame_finalTickets s p _).closing p, finalFrame_slot h⟩

theorem ticketStored_ingest (s : State) (p : Nat) (f : Frame) (rest : List Frame) :
    ((s.ticketStored p f rest).ingest p).closing = rest ∧
      ∃ b, tfind ((s.ticketStored p f rest).ingest p).slots (f.number % f.cfg.slots) = some { f with final := b } := by
  obtain ⟨hrest, hslot⟩ := ticketMoved_ingest s p f rest
  obtain ⟨hclosing, hfinal⟩ := ticketSettled_ingest hslot
  have hingest : (s.ticketStored p f rest).ingest p = ((s.ticketMoved p f rest).ticketSettled p f).ingest p :=
    (controlValues_ingest _ p f p).trans ((wrAll_only _ _).2.1 (.ingest p) (by simp))
  rw [hingest]
  exact ⟨hclosing.trans hrest, hfinal⟩

/-- A frame whose verification has ended, which may set LATE_BIND (R263). -/
def Frame.verified (f : Frame) (late : Bool) : Frame := if late then f.flag Flag.LATE_BIND else f

/-- A frame whose ticket is written, with the handles of its defect list and its embedded record. -/
def Frame.written (f : Frame) (defects embedded : Nat) : Frame :=
  { f with defectHandle := defects, embedHandle := embedded, ticketWritten := true, trfBytes := f.stored.length }

theorem verified_keeps (f : Frame) (late : Bool) : (f.verified late).ticket = f.ticket ∧ (f.verified late).stored = f.stored ∧
    (f.verified late).number = f.number ∧ (f.verified late).cfg = f.cfg := by
  cases late <;> exact ⟨rfl, rfl, rfl, rfl⟩

theorem exec_frameTicketWrite {port : Fin 16} {f : Frame} {rest : List Frame} {s : State} (hruns : s.ingestRuns = true)
    (hclosing : (s.ingest port.val).closing = f :: rest) (htiles : ceilDiv f.cfg.lines 8 ≤ f.tiles.length) :
    ∃ (u : State) (late : Bool) (defects embedded : Nat),
      exec (.frameTicketWrite port) s = .next (u.ticketStored port.val ((f.verified late).written defects embedded) rest) := by
  have harm : exec (.frameTicketWrite port) s = execFrameTicketWrite port s := rfl
  have hgo : (!s.ingestRuns || decide (f.tiles.length < ceilDiv f.cfg.lines 8)) = false := by simp [hruns, htiles]
  rw [harm, execFrameTicketWrite]
  dsimp only
  rw [hclosing]
  dsimp only
  rw [hgo]
  exact ⟨_, _, _, _, rfl⟩

/-- After the last tile row the frame stands in its slot with its ticket. -/
theorem frameTicketWrite_stores {port : Fin 16} {f : Frame} {rest : List Frame} {s : State} (hruns : s.ingestRuns = true)
    (hclosing : (s.ingest port.val).closing = f :: rest) (htiles : ceilDiv f.cfg.lines 8 ≤ f.tiles.length) :
    ∃ t g, exec (.frameTicketWrite port) s = .next t ∧ tfind (t.ingest port.val).slots (f.number % f.cfg.slots) = some g ∧
      g.ticketWritten = true ∧ g.ticket = f.ticket ∧ g.trfBytes = f.stored.length ∧ (t.ingest port.val).closing = rest := by
  obtain ⟨u, late, defects, embedded, hexec⟩ := exec_frameTicketWrite hruns hclosing htiles
  obtain ⟨hticket, hstored, hnumber, hcfg⟩ := verified_keeps f late
  obtain ⟨hrest, b, hslot⟩ := ticketStored_ingest u port.val ((f.verified late).written defects embedded) rest
  rw [show ((f.verified late).written defects embedded).number = f.number from hnumber,
    show ((f.verified late).written defects embedded).cfg = f.cfg from hcfg] at hslot
  exact ⟨_, _, hexec, hslot, rfl, hticket, congrArg List.length hstored, hrest⟩

/-! ## The bytes of a ticket (R108, Table 05-5) -/

theorem crcBit_lt {c : Nat} (h : c < 2 ^ 32) : crcBit c < 2 ^ 32 := by
  unfold crcBit
  split
  · exact Nat.xor_lt_two_pow (by omega) (by decide)
  · omega

theorem crcByte_lt {c : Nat} (h : c < 2 ^ 32) (b : Byte) : crcByte c b < 2 ^ 32 := by
  have hbyte : b.toNat < 2 ^ 32 := Nat.lt_of_lt_of_le b.isLt (by decide)
  unfold crcByte
  iterate 8 apply crcBit_lt
  exact Nat.xor_lt_two_pow h hbyte

theorem crc32_lt (bs : List Byte) : crc32 bs < 2 ^ 32 := by
  have hfold : bs.foldl crcByte 0xFFFFFFFF < 2 ^ 32 :=
    List.foldlRecOn (motive := fun c => c < 2 ^ 32) bs crcByte (by decide) fun _ hc b _ => crcByte_lt hc b
  exact Nat.xor_lt_two_pow hfold (by decide)

theorem ticketBody_length (f : Frame) : f.ticketBody.length = 124 := by
  unfold Frame.ticketBody zeroBytes
  simp only [List.length_append, leBytes_length, List.length_replicate]

theorem ticketBytes_crc (f : Frame) : f.ticketBytes.length = 128 ∧ leAt f.ticketBytes 124 4 = crc32 (f.ticketBytes.take 124) := by
  have hbody := ticketBody_length f
  refine ⟨by simp [Frame.ticketBytes, hbody], ?_⟩
  rw [leAt, slice, Frame.ticketBytes, List.drop_left' hbody, List.take_left' hbody, List.take_of_length_le (by simp), leNat_leBytes]
  exact Nat.mod_eq_of_lt (crc32_lt _)

/-- Settles O23: lines by `place_inOrder` and `place_discards`, the deadline by `ingestDeadline_closes`, tile rows and the ticket by their lemmas. -/
theorem framesAreIngested : Obligations.FramesAreIngested := by
  refine ⟨fun f l => ⟨fun hnext hlines => ?_, place_discards⟩, fun _ _ _ hf => ingestDeadline_closes hf,
    fun _ f _ hruns => ⟨tileRowWritten_open hruns, tileRowWritten_closed hruns, fun _ => frameTicketWrite_stores hruns, ticketBytes_crc f⟩⟩
  obtain ⟨hplaced, hreceived, hfilled, hrows⟩ := place_inOrder hnext hlines
  refine ⟨hplaced, hreceived, hfilled, _, hrows, line_length _ _ _, fun hpedestal => line_lt hpedestal _ _, fun i hi => ?_⟩
  rw [line_getD hi]
  exact ⟨fun hmissing => by rw [hmissing]; rfl, fun v hv => by rw [hv]; rfl⟩

end Sys2Proof.Machine

/-! The Tile Raw Format (R159 to R172, R182): fields through the bit stream and the bytes, residuals and length codes through the
decoder, the decoder on each tile layout, and O24 and O25. -/

namespace Sys2Proof.Machine

/-! ## The bit stream (R160) -/

@[simp] theorem putBits_length (n v : Nat) : (putBits n v).length = n := by
  induction n generalizing v with
  | zero => rfl
  | succ n ih => simp [putBits, ih]

theorem bitsNat_lt (bs : List Bool) : bitsNat bs < 2 ^ bs.length := by
  induction bs with
  | nil => decide
  | cons b bs ih =>
    simp only [bitsNat, List.length_cons, Nat.pow_succ]
    split <;> omega

theorem bitsNat_putBits {n v : Nat} (h : v < 2 ^ n) : bitsNat (putBits n v) = v := by
  induction n generalizing v with
  | zero => simp only [putBits, bitsNat]; omega
  | succ n ih =>
    simp only [putBits, bitsNat, ih (v := v / 2) (by omega), beq_iff_eq]
    split <;> omega

theorem putBits_zero (n : Nat) : putBits n 0 = List.replicate n false := by
  induction n with
  | zero => rfl
  | succ n ih => simp [putBits, ih, List.replicate_succ]

/-- The bits of a number that was read from at most `n` bits: those bits, and zero fill. -/
theorem putBits_bitsNat {n : Nat} {bs : List Bool} (h : bs.length ≤ n) :
    putBits n (bitsNat bs) = bs ++ List.replicate (n - bs.length) false := by
  induction bs generalizing n with
  | nil => simp [bitsNat, putBits_zero]
  | cons b bs ih =>
    obtain ⟨n, rfl⟩ : ∃ m, n = m + 1 := ⟨n - 1, by simp at h; omega⟩
    have htail : (bitsNat (b :: bs)) / 2 = bitsNat bs := by cases b <;> simp [bitsNat]; omega
    have hhead : (bitsNat (b :: bs) % 2 == 1) = b := by cases b <;> simp [bitsNat]
    rw [putBits, hhead, htail, ih (by simpa using h)]
    simp

@[simp] theorem packBits_length (bs : List Bool) (n : Nat) : (packBits bs n).length = n := by
  induction n generalizing bs with
  | zero => rfl
  | succ n ih => simp [packBits, ih]

/-- A stream that fits comes back from its bytes, followed by the zero fill of R160. -/
theorem unpackBits_packBits {bs : List Bool} {n : Nat} (h : bs.length ≤ 8 * n) :
    unpackBits (packBits bs n) = bs ++ List.replicate (8 * n - bs.length) false := by
  induction n generalizing bs with
  | zero => simp_all [packBits, unpackBits]
  | succ n ih =>
    have hbyte : (BitVec.ofNat 8 (bitsNat (bs.take 8))).toNat = bitsNat (bs.take 8) :=
      Nat.mod_eq_of_lt (Nat.lt_of_lt_of_le (bitsNat_lt _) (Nat.pow_le_pow_right (by decide) (by simp)))
    have hcons : unpackBits (packBits bs (n + 1)) =
        putBits 8 (bitsNat (bs.take 8)) ++ unpackBits (packBits (bs.drop 8) n) := by
      rw [← hbyte]; rfl
    rw [hcons, putBits_bitsNat (by simp), ih (by simp; omega)]
    rcases Nat.le_total bs.length 8 with hshort | hlong
    · rw [List.take_of_length_le hshort, List.drop_eq_nil_of_le hshort, List.nil_append, List.append_assoc,
        List.replicate_append_replicate]
      congr 2
      simp
      omega
    · have htake : (bs.take 8).length = 8 := by simp [hlong]
      rw [htake, Nat.sub_self, List.replicate_zero, List.append_nil, ← List.append_assoc, List.take_append_drop, List.length_drop]
      congr 2
      omega

/-! ## Fields -/

theorem Fields.stream_append (f g : Fields) : Fields.stream (f ++ g) = f.stream ++ g.stream := List.flatMap_append

theorem Fields.stream_length (f : Fields) : f.stream.length = f.size := by
  simp [Fields.stream, Fields.size, List.length_flatMap]

/-- Every value fits the bits of its field. -/
def Fields.Fit (f : Fields) : Prop := ∀ p ∈ f, p.1 < 2 ^ p.2

theorem Fields.fit_cons {p : Nat × Nat} {f : Fields} : Fields.Fit (p :: f) ↔ p.1 < 2 ^ p.2 ∧ f.Fit := List.forall_mem_cons

theorem Fields.fit_append {f g : Fields} : Fields.Fit (f ++ g) ↔ f.Fit ∧ g.Fit := List.forall_mem_append

theorem getBits_putBits {n v : Nat} (h : v < 2 ^ n) (rest : List Bool) : getBits n (putBits n v ++ rest) = (v, rest, false) := by
  simp only [getBits, List.take_left' (putBits_length n v), List.drop_left' (putBits_length n v), bitsNat_putBits h]
  simp

/-- Fields that fit are read back as they were written. -/
theorem getMany_stream {f : Fields} (h : f.Fit) (rest : List Bool) :
    getMany (f.map Prod.snd) (f.stream ++ rest) = (f.map Prod.fst, rest, false) := by
  induction f with
  | nil => rfl
  | cons p f ih =>
    obtain ⟨hp, hf⟩ := Fields.fit_cons.mp h
    have hcons : Fields.stream (p :: f) ++ rest = putBits p.2 p.1 ++ (Fields.stream f ++ rest) := by simp [Fields.stream]
    rw [hcons, List.map_cons, getMany, getBits_putBits hp]
    dsimp only
    rw [ih hf]
    rfl

/-- The same, with the widths and the values given by name. -/
theorem getMany_fields {f : Fields} {ns vs : List Nat} (h : f.Fit) (hns : f.map Prod.snd = ns) (hvs : f.map Prod.fst = vs)
    (rest : List Bool) : getMany ns (f.stream ++ rest) = (vs, rest, false) := by
  subst hns hvs
  exact getMany_stream h rest

/-- Cutting a list of pieces of equal length gives the pieces. -/
theorem chunks_flatMap {α β : Type} {n k : Nat} {g : α → List β} {l : List α} (hk : l.length = k)
    (h : ∀ x ∈ l, (g x).length = n) : chunks n k (l.flatMap g) = l.map g := by
  subst hk
  induction l with
  | nil => rfl
  | cons x l ih =>
    obtain ⟨hx, hl⟩ := List.forall_mem_cons.mp h
    simp [chunks, List.take_left' hx, List.drop_left' hx, ih hl]

/-! ## Residuals (R162, R163) -/

/-- Adding the prediction to the difference from it gives the sample back, modulo the range (R163). -/
theorem add_diff_mod {w q : Nat} (hq : q < 2 ^ w) (p : Nat) : (p + (q + 2 ^ w - p % 2 ^ w) % 2 ^ w) % 2 ^ w = q := by
  have hp : p % 2 ^ w < 2 ^ w := Nat.mod_lt _ (by positivity)
  rw [Nat.add_mod_mod, ← Nat.mod_add_mod, Nat.add_sub_cancel' (by omega), Nat.add_mod_right, Nat.mod_eq_of_lt hq]

section
variable {w : Nat} (hw : 1 ≤ w)
include hw

/-- Half of the range of `w` bits. -/
theorem two_pow_eq_double : 2 ^ w = 2 * 2 ^ (w - 1) := (Nat.two_pow_pred_add_two_pow_pred hw ▸ Nat.two_mul _).symm

theorem trfZig_lt (q p : Nat) : trfZig w q p < 2 ^ w := by
  have hhalf := two_pow_eq_double hw
  have hpos : 0 < 2 ^ w := by positivity
  have hd : (q + 2 ^ w - p % 2 ^ w) % 2 ^ w < 2 ^ w := Nat.mod_lt _ hpos
  unfold trfZig
  dsimp only
  split <;> omega

theorem trfZag_trfZig {q : Nat} (hq : q < 2 ^ w) (p : Nat) : trfZag w (trfZig w q p) p = q := by
  have hback := add_diff_mod hq p
  have hhalf := two_pow_eq_double hw
  have hd : (q + 2 ^ w - p % 2 ^ w) % 2 ^ w < 2 ^ w := Nat.mod_lt _ (by positivity)
  unfold trfZig trfZag
  generalize (q + 2 ^ w - p % 2 ^ w) % 2 ^ w = d at hback hd
  dsimp only
  split
  · rw [if_pos (by omega), Nat.mul_div_cancel_left _ (by decide), hback]
  · have hm : (2 * (2 ^ w - d) - 1 + 1) / 2 = 2 ^ w - d := by omega
    have hwrap : p + 2 ^ w * (2 ^ w - d) - (2 ^ w - d) = p + d + 2 ^ w * (2 ^ w - d - 1) := by
      rw [Nat.mul_sub_one]
      have : 2 ^ w ≤ 2 ^ w * (2 ^ w - d) := Nat.le_mul_of_pos_right _ (by omega)
      omega
    rw [if_neg (by omega), hm, hwrap, Nat.add_mul_mod_self_left, hback]

theorem trfResiduals_lt {qs : List Nat} (prev : List Nat) : ∀ z ∈ trfResiduals w prev qs, z < 2 ^ w := by
  induction qs generalizing prev with
  | nil => simp [trfResiduals]
  | cons q qs ih => exact List.forall_mem_cons.mpr ⟨trfZig_lt hw q _, ih _⟩

/-- Encoder and decoder run one predictor on the same samples: the residuals give every sample back. -/
theorem trfRebuild_trfResiduals {qs : List Nat} (hqs : ∀ q ∈ qs, q < 2 ^ w) (prev : List Nat) :
    trfRebuild w prev (trfResiduals w prev qs) = qs := by
  induction qs generalizing prev with
  | nil => rfl
  | cons q qs ih =>
    obtain ⟨hq, hqs⟩ := List.forall_mem_cons.mp hqs
    simp only [trfResiduals, trfRebuild, trfZag_trfZig hw hq, ih hqs]

end

@[simp] theorem trfResiduals_length (w : Nat) (prev qs : List Nat) : (trfResiduals w prev qs).length = qs.length := by
  induction qs generalizing prev with
  | nil => rfl
  | cons q qs ih => simp [trfResiduals, ih]

/-! ## Length codes (R164) -/

/-- Folding `max` gives at least every entry. -/
theorem le_foldl_max {l : List Nat} {v : Nat} (h : v ∈ l) (a : Nat) : v ≤ l.foldl max a := by
  rw [List.foldl_max_eq_max (List.ne_nil_of_mem h)]
  exact le_max_of_le_right (List.le_max_of_mem h)

theorem lt_two_pow_bitLength (v : Nat) : v < 2 ^ bitLength v := by
  unfold bitLength
  split
  · omega
  · exact Nat.lt_log2_self

theorem trfLengthCode_lt (zs : List Nat) : trfLengthCode zs < 2 ^ 4 := by
  unfold trfLengthCode
  dsimp only
  split <;> omega

/-- Each residual of a group can be written in the length of the group's code. -/
theorem lt_two_pow_trfLength {w z : Nat} {zs : List Nat} (hz : z ∈ zs) (hw : z < 2 ^ w) : z < 2 ^ trfLength w (trfLengthCode zs) := by
  have hmax : z < 2 ^ bitLength (zs.foldl max 0) := Nat.lt_of_le_of_lt (le_foldl_max hz 0) (lt_two_pow_bitLength _)
  unfold trfLengthCode trfLength
  dsimp only
  split
  · rwa [if_neg (by omega)]
  · rwa [if_pos rfl]

/-- Consecutive slices of equal length put together. -/
theorem flatten_slices {α : Type} (l : List α) (k n : Nat) :
    ((List.range n).map fun g => (l.drop (k * g)).take k).flatten = l.take (k * n) := by
  induction n with
  | zero => simp
  | succ n ih => rw [List.range_succ, List.map_append, List.flatten_append, ih, Nat.mul_succ, List.take_add]; simp

/-- The entries of a list, taken by their places. -/
theorem flatMap_range_getD {α β : Type} (l : List α) (d : α) (f : α → List β) :
    (List.range l.length).flatMap (fun i => f (l.getD i d)) = l.flatMap f := by
  induction l with
  | nil => rfl
  | cons x l ih => simp [List.range_succ_eq_map, List.flatMap_map, ← ih]

theorem zip_replicate_right {α β : Type} (l : List α) (b : β) : l.zip (List.replicate l.length b) = l.map fun a => (a, b) := by
  induction l with
  | nil => rfl
  | cons a l ih => simp [List.replicate_succ, ih]

/-- The eight groups of the 127 residuals of a plane, in order, are all of them. -/
theorem trfGroups_flatten {zs : List Nat} (h : zs.length = 127) : (trfGroups zs).flatten = zs := by
  have hrest := flatten_slices (zs.drop 15) 16 7
  rw [List.take_of_length_le (by simp [h])] at hrest
  simp only [List.drop_drop] at hrest
  rw [trfGroups, List.flatten_cons]
  exact (congrArg (zs.take 15 ++ ·) hrest).trans (List.take_append_drop 15 zs)

@[simp] theorem trfGroups_length (zs : List Nat) : (trfGroups zs).length = 8 := by simp [trfGroups]

/-- The decoder gives each residual the length of its group's code. -/
theorem trfLengths_trfGroups {zs : List Nat} (h : zs.length = 127) (w : Nat) :
    trfLengths w ((trfGroups zs).map trfLengthCode) =
      (trfGroups zs).flatMap fun g => List.replicate g.length (trfLength w (trfLengthCode g)) := by
  have hfirst : (zs.take 15).length = 15 := by simp [h]
  have hlater : ∀ i ∈ List.range 7, ((zs.drop (15 + 16 * i)).take 16).length = 16 := by simp [h]; omega
  have hcodes := flatMap_range_getD ((List.range 7).map fun i => trfLengthCode ((zs.drop (15 + 16 * i)).take 16)) 0
    fun lc => List.replicate 16 (trfLength w lc)
  rw [List.length_map, List.length_range, List.flatMap_map] at hcodes
  rw [trfGroups, List.map_cons, List.map_map, List.flatMap_cons, List.flatMap_map, hfirst, trfLengths]
  simp only [List.getD_cons_zero, List.getD_cons_succ]
  refine congrArg _ (hcodes.trans (List.flatMap_congr fun i hi => ?_))
  rw [show trfGroups.slice' zs (15 + 16 * i) 16 = (zs.drop (15 + 16 * i)).take 16 from rfl, hlater i hi]

/-- The fields of a plane's residuals: each in the length of its group (R164). -/
theorem zip_trfLengths {zs : List Nat} (h : zs.length = 127) (w : Nat) :
    zs.zip (trfLengths w ((trfGroups zs).map trfLengthCode)) =
      (trfGroups zs).flatMap fun g => g.map fun z => (z, trfLength w (trfLengthCode g)) := by
  rw [trfLengths_trfGroups h]
  nth_rw 1 [← trfGroups_flatten h]
  induction trfGroups zs with
  | nil => rfl
  | cons g gs ih => rw [List.flatten_cons, List.flatMap_cons, List.flatMap_cons, List.zip_append (by simp), ih, zip_replicate_right]

theorem zip_trfLengths_fit {zs : List Nat} {w : Nat} (h : zs.length = 127) (hzs : ∀ z ∈ zs, z < 2 ^ w) :
    Fields.Fit (zs.zip (trfLengths w ((trfGroups zs).map trfLengthCode))) := by
  rw [zip_trfLengths h]
  intro p hp
  obtain ⟨g, hg, hpg⟩ := List.mem_flatMap.mp hp
  obtain ⟨z, hz, rfl⟩ := List.mem_map.mp hpg
  exact lt_two_pow_trfLength hz (hzs z (trfGroups_flatten h ▸ List.mem_flatten_of_mem hg hz))

theorem trfLengths_length (w : Nat) (lcs : List Nat) : (trfLengths w lcs).length = 127 := by
  simp [trfLengths, List.length_flatMap]

/-! ## One plane of a PREDICT tile (R162 to R165) -/

/-- A plane of 128 samples of `w` bits. -/
def IsPlane (w : Nat) (vs : List Nat) : Prop := vs.length = 128 ∧ ∀ v ∈ vs, v < 2 ^ w

/-- A tile of four planes (R159). -/
def IsTile (w : Nat) (tile : List (List Nat)) : Prop := tile.length = 4 ∧ ∀ vs ∈ tile, IsPlane w vs

section
variable {w s : Nat} {vs : List Nat} (hplane : IsPlane w vs)
include hplane

/-- The quantised samples of a plane: the first, and the 127 that are coded as residuals. -/
theorem trfPlane_samples : ∃ q0 qs, vs.map (fun v => v / 2 ^ s) = q0 :: qs ∧ qs.length = 127 ∧
    trfPlane w s vs = (q0, trfResiduals (w - s) [q0] qs, (trfGroups (trfResiduals (w - s) [q0] qs)).map trfLengthCode) := by
  obtain ⟨hlength, -⟩ := hplane
  obtain ⟨v, r, rfl⟩ := List.exists_cons_of_length_eq_add_one hlength
  exact ⟨v / 2 ^ s, r.map fun v => v / 2 ^ s, rfl, by simpa using hlength, rfl⟩

/-- A quantised sample fits the reduced width. -/
theorem quantised_lt (hs : s ≤ w) : ∀ q ∈ vs.map (fun v => v / 2 ^ s), q < 2 ^ (w - s) := by
  obtain ⟨-, hlt⟩ := hplane
  simp only [List.forall_mem_map]
  intro v hv
  rw [Nat.div_lt_iff_lt_mul (by positivity), ← Nat.pow_add, Nat.sub_add_cancel hs]
  exact hlt v hv

theorem trfPlane_first_lt (hs : s ≤ w) : (trfPlane w s vs).1 < 2 ^ (w - s) := by
  obtain ⟨q0, qs, hqs, -, hp⟩ := trfPlane_samples (s := s) hplane
  have hlt := quantised_lt hplane hs
  rw [hqs] at hlt
  rw [hp]
  exact hlt q0 List.mem_cons_self

theorem trfPlane_residuals_length : (trfPlane w s vs).2.1.length = 127 := by
  obtain ⟨q0, qs, -, hlength, hp⟩ := trfPlane_samples (s := s) hplane
  rw [hp, trfResiduals_length, hlength]

theorem trfPlane_residuals_fit (hs : s < w) :
    Fields.Fit ((trfPlane w s vs).2.1.zip (trfLengths (w - s) (trfPlane w s vs).2.2)) := by
  obtain ⟨q0, qs, -, hlength, hp⟩ := trfPlane_samples (s := s) hplane
  rw [hp]
  exact zip_trfLengths_fit (by rw [trfResiduals_length, hlength]) (trfResiduals_lt (by omega) _)

/-- What the decoder makes of a plane's first sample and residuals: every sample, quantised and scaled back (R163, R165). -/
theorem trfPlane_rebuilt (hs : s < w) :
    ((trfPlane w s vs).1 :: trfRebuild (w - s) [(trfPlane w s vs).1] (trfPlane w s vs).2.1).map (trfDequant s) =
      vs.map fun v => trfDequant s (v / 2 ^ s) := by
  obtain ⟨q0, qs, hqs, -, hp⟩ := trfPlane_samples (s := s) hplane
  have hlt := quantised_lt hplane hs.le
  rw [hqs] at hlt
  rw [hp, trfRebuild_trfResiduals (by omega) fun q hq => hlt q (List.mem_cons_of_mem _ hq), ← hqs, List.map_map]
  rfl

end

theorem trfPlane_codes_length (w s : Nat) (vs : List Nat) : (trfPlane w s vs).2.2.length = 8 := by simp [trfPlane]

theorem trfPlane_codes_lt {w s lc : Nat} {vs : List Nat} (h : lc ∈ (trfPlane w s vs).2.2) : lc < 2 ^ 4 := by
  obtain ⟨g, -, rfl⟩ := List.mem_map.mp h
  exact trfLengthCode_lt g

/-! ## The decoder on each layout (R182, Tables 06-1 and 06-2) -/

/-- A tile whose header is right decodes to what its body decodes to. -/
theorem trfDecode_of_body {w n mode : Nat} {body : Fields} {planes : List (List Nat)} (hmode : mode < 2 ^ 2)
    (hwidth : trfWidthCode w < 2 ^ 2) (hsize : Fields.size ((mode, 2) :: (trfWidthCode w, 2) :: body) ≤ 8 * n)
    (hbody : ∀ fill,
      (if mode = 0 then trfDecodePredict w (body.stream ++ fill)
        else if mode = 1 then trfDecodeFlat w (8 * n) (body.stream ++ fill)
        else if mode = 2 then trfDecodeRaw w (body.stream ++ fill)
        else (zeroTile, true)) = (planes, false)) :
    trfDecode w (packBits (Fields.stream ((mode, 2) :: (trfWidthCode w, 2) :: body)) n) = (planes, false) := by
  have hbits := unpackBits_packBits (Fields.stream_length _ ▸ hsize)
  simp only [Fields.stream, List.flatMap_cons, List.append_assoc] at hbits hbody ⊢
  simp only [trfDecode, hbits, getBits_putBits hmode, getBits_putBits hwidth, packBits_length, hbody]
  simp

theorem trfWidthCode_lt {w : Nat} (hw : w ≤ 16) : trfWidthCode w < 2 ^ 2 := by
  unfold trfWidthCode
  omega

/-! ### PREDICT tiles: planes paired with their shifts -/

/-- SHIFT0 to SHIFT3 (Table 06-1). -/
def shiftFields (pt : List (Nat × List Nat)) : Fields := pt.map fun p => (p.1, 4)

/-- LCODE. -/
def codeFields (w : Nat) (pt : List (Nat × List Nat)) : Fields :=
  pt.flatMap fun p => (trfPlane w p.1 p.2).2.2.map fun lc => (lc, 4)

/-- FIRST0 to FIRST3. -/
def firstFields (w : Nat) (pt : List (Nat × List Nat)) : Fields := pt.map fun p => ((trfPlane w p.1 p.2).1, w - p.1)

/-- RESID. -/
def residualFields (w : Nat) (pt : List (Nat × List Nat)) : Fields :=
  pt.flatMap fun p => (trfPlane w p.1 p.2).2.1.zip (trfLengths (w - p.1) (trfPlane w p.1 p.2).2.2)

theorem trfPredictFields_zip (w : Nat) (pt : List (Nat × List Nat)) :
    trfPredictFields w (pt.map Prod.fst) (pt.map Prod.snd) =
      (0, 2) :: (trfWidthCode w, 2) ::
        (shiftFields pt ++ ([(0, 4)] ++ (codeFields w pt ++ (firstFields w pt ++ residualFields w pt)))) := by
  simp [trfPredictFields, shiftFields, codeFields, firstFields, residualFields, List.zip_map', List.flatMap_map, Function.comp_def]

/-- The plane that a PREDICT tile gives back: its samples quantised by its shift and scaled back (R165). -/
def predictRestored (p : Nat × List Nat) : List Nat := p.2.map fun v => trfDequant p.1 (v / 2 ^ p.1)

/-- Four planes of `w` bits, each with a shift that R182 accepts. -/
def IsShifted (w : Nat) (pt : List (Nat × List Nat)) : Prop := pt.length = 4 ∧ ∀ p ∈ pt, p.1 ≤ 8 ∧ IsPlane w p.2

section
variable {w : Nat} {pt : List (Nat × List Nat)} (hpt : IsShifted w pt)
include hpt

theorem getMany_shiftFields (rest : List Bool) :
    getMany (List.replicate 4 4) ((shiftFields pt).stream ++ rest) = (pt.map Prod.fst, rest, false) := by
  obtain ⟨hlength, hplanes⟩ := hpt
  have hfit : (shiftFields pt).Fit := List.forall_mem_map.mpr fun p hp => Nat.lt_of_le_of_lt (hplanes p hp).1 (by decide : 8 < 2 ^ 4)
  refine getMany_fields hfit ?_ ?_ rest
  · simp [shiftFields, ← hlength, Function.comp_def]
  · simp [shiftFields, Function.comp_def]

theorem getMany_codeFields (rest : List Bool) :
    getMany (List.replicate 32 4) ((codeFields w pt).stream ++ rest) = (pt.flatMap fun p => (trfPlane w p.1 p.2).2.2, rest, false) := by
  obtain ⟨hlength, -⟩ := hpt
  have hfit : (codeFields w pt).Fit := List.forall_mem_flatMap.mpr fun p _ => List.forall_mem_map.mpr fun lc hlc => trfPlane_codes_lt hlc
  refine getMany_fields hfit ?_ ?_ rest
  · rw [codeFields, List.eq_replicate_iff]
    simp +contextual [trfPlane_codes_length, hlength, eq_comm]
  · simp [codeFields, List.map_flatMap, Function.comp_def]

theorem getMany_firstFields (hw : 10 ≤ w) (rest : List Bool) :
    getMany ((pt.map Prod.fst).map fun s => w - s) ((firstFields w pt).stream ++ rest) =
      (pt.map fun p => (trfPlane w p.1 p.2).1, rest, false) := by
  obtain ⟨-, hplanes⟩ := hpt
  have hfit : (firstFields w pt).Fit := List.forall_mem_map.mpr fun p hp => by
    obtain ⟨hs, hplane⟩ := hplanes p hp
    exact trfPlane_first_lt hplane (by omega)
  refine getMany_fields hfit ?_ ?_ rest
  · simp [firstFields, Function.comp_def]
  · simp [firstFields, Function.comp_def]

theorem getMany_residualFields (hw : 10 ≤ w) (rest : List Bool) :
    getMany (pt.flatMap fun p => trfLengths (w - p.1) (trfPlane w p.1 p.2).2.2) ((residualFields w pt).stream ++ rest) =
      (pt.flatMap fun p => (trfPlane w p.1 p.2).2.1, rest, false) := by
  obtain ⟨-, hplanes⟩ := hpt
  have hlengths : ∀ p ∈ pt, (trfPlane w p.1 p.2).2.1.length = (trfLengths (w - p.1) (trfPlane w p.1 p.2).2.2).length := fun p hp => by
    rw [trfPlane_residuals_length (hplanes p hp).2, trfLengths_length]
  have hfit : (residualFields w pt).Fit := List.forall_mem_flatMap.mpr fun p hp => by
    obtain ⟨hs, hplane⟩ := hplanes p hp
    exact trfPlane_residuals_fit hplane (by omega)
  refine getMany_fields hfit ?_ ?_ rest
  · rw [residualFields, List.map_flatMap]
    exact List.flatMap_congr fun p hp => List.map_snd_zip (hlengths p hp).ge
  · rw [residualFields, List.map_flatMap]
    exact List.flatMap_congr fun p hp => List.map_fst_zip (hlengths p hp).le

theorem trfDecodePredict_fields (hw : 10 ≤ w) (fill : List Bool) :
    trfDecodePredict w (Fields.stream
        (shiftFields pt ++ ([(0, 4)] ++ (codeFields w pt ++ (firstFields w pt ++ residualFields w pt)))) ++ fill) =
      (pt.map predictRestored, false) := by
  have hreserved : Fields.stream [(0, 4)] = putBits 4 0 := rfl
  have hcodes : chunks 8 4 (pt.flatMap fun p => (trfPlane w p.1 p.2).2.2) = pt.map fun p => (trfPlane w p.1 p.2).2.2 :=
    chunks_flatMap hpt.1 fun p _ => trfPlane_codes_length w p.1 p.2
  have hresiduals : chunks 127 4 (pt.flatMap fun p => (trfPlane w p.1 p.2).2.1) = pt.map fun p => (trfPlane w p.1 p.2).2.1 :=
    chunks_flatMap hpt.1 fun p hp => trfPlane_residuals_length (hpt.2 p hp).2
  simp only [Fields.stream_append, List.append_assoc, trfDecodePredict, getMany_shiftFields hpt, hreserved,
    getBits_putBits (show 0 < 2 ^ 4 by decide), getMany_codeFields hpt, hcodes, getMany_firstFields hpt hw, List.zip_map', List.flatMap_map,
    getMany_residualFields hpt hw, hresiduals]
  rw [Prod.mk.injEq, List.map_map]
  refine ⟨List.map_congr_left fun p hp => ?_, ?_⟩
  · obtain ⟨hs, hplane⟩ := hpt.2 p hp
    exact trfPlane_rebuilt hplane (s := p.1) (by omega)
  · simpa using fun s vs hp => (hpt.2 (s, vs) hp).1

end

/-- A PREDICT tile that fits its bytes decodes (R162 to R165). -/
theorem trfDecode_predict {w n : Nat} {ss : List Nat} {tile : List (List Nat)} (hw : 10 ≤ w) (hw' : w ≤ 16) (htile : IsTile w tile)
    (hss : ss.length = 4) (hshift : ∀ s ∈ ss, s ≤ 8) (hsize : (trfPredictFields w ss tile).size ≤ 8 * n) :
    trfDecode w (packBits (trfPredictFields w ss tile).stream n) =
      ((ss.zip tile).map predictRestored, false) := by
  obtain ⟨hlength, hplanes⟩ := htile
  have hpt : IsShifted w (ss.zip tile) := ⟨by simp [hss, hlength], fun p hp =>
    ⟨hshift _ (List.of_mem_zip hp).1, hplanes _ (List.of_mem_zip hp).2⟩⟩
  have hfields := trfPredictFields_zip w (ss.zip tile)
  rw [List.map_fst_zip (by omega), List.map_snd_zip (by omega)] at hfields
  rw [hfields] at hsize ⊢
  exact trfDecode_of_body (by decide) (trfWidthCode_lt hw') hsize fun fill => (if_pos rfl).trans (trfDecodePredict_fields hpt hw fill)

/-! ### RAW and FLAT tiles: one field of one width for each sample -/

/-- The samples of a tile, each as `g` writes it, in `b` bits. -/
def sampleFields (b : Nat) (g : List Nat → Nat → Nat) (tile : List (List Nat)) : Fields :=
  tile.flatMap fun vs => vs.map fun v => (g vs v, b)

section
variable {w : Nat} {tile : List (List Nat)} (htile : IsTile w tile)
include htile

theorem sampleFields_widths (b : Nat) (g : List Nat → Nat → Nat) : (sampleFields b g tile).map Prod.snd = List.replicate 512 b := by
  obtain ⟨hlength, hplanes⟩ := htile
  have hcount : tile.flatMap (fun vs => vs.map fun _ => b) = tile.flatMap fun _ => List.replicate 128 b :=
    List.flatMap_congr fun vs hvs => by rw [List.map_const', (hplanes vs hvs).1]
  rw [sampleFields, List.map_flatMap]
  simp only [List.map_map, Function.comp_def]
  rw [hcount, List.eq_replicate_iff]
  simp +contextual [hlength]

theorem getMany_sampleFields {b : Nat} {g : List Nat → Nat → Nat} (hfit : ∀ vs ∈ tile, ∀ v ∈ vs, g vs v < 2 ^ b)
    (rest : List Bool) :
    getMany (List.replicate 512 b) ((sampleFields b g tile).stream ++ rest) =
      (tile.flatMap fun vs => vs.map (g vs), rest, false) := by
  have hfields : (sampleFields b g tile).Fit :=
    List.forall_mem_flatMap.mpr fun vs hvs => List.forall_mem_map.mpr (hfit vs hvs)
  refine getMany_fields hfields (sampleFields_widths htile b g) ?_ rest
  simp [sampleFields, List.map_flatMap, Function.comp_def]

theorem chunks_samples (g : List Nat → Nat → Nat) :
    chunks 128 4 (tile.flatMap fun vs => vs.map (g vs)) = tile.map fun vs => vs.map (g vs) := by
  obtain ⟨hlength, hplanes⟩ := htile
  exact chunks_flatMap hlength fun vs hvs => by rw [List.length_map, (hplanes vs hvs).1]

/-- A RAW tile that fits its bytes decodes to its samples (R168). -/
theorem trfDecode_raw {n : Nat} (hw : w ≤ 16) (hsize : (trfRawFields w tile).size ≤ 8 * n) :
    trfDecode w (packBits (trfRawFields w tile).stream n) = (tile, false) := by
  have hreserved : Fields.stream [(0, 4)] = putBits 4 0 := rfl
  have hsamples := getMany_sampleFields htile (b := w) (g := fun _ v => v) fun vs hvs => (htile.2 vs hvs).2
  have hfields : trfRawFields w tile = (2, 2) :: (trfWidthCode w, 2) :: ([(0, 4)] ++ sampleFields w (fun _ v => v) tile) := rfl
  rw [hfields] at hsize ⊢
  refine trfDecode_of_body (by decide) (trfWidthCode_lt hw) hsize fun fill => ?_
  simp only [Fields.stream_append, List.append_assoc, trfDecodeRaw, hreserved, getBits_putBits (show 0 < 2 ^ 4 by decide), hsamples,
    chunks_samples htile fun _ v => v]
  simp

end

/-- Quantised by a shift and scaled back, a number is off by the bound of the shift at most (R165, R167). -/
theorem quantised_near (s v : Nat) : v / 2 ^ s * 2 ^ s ≤ v ∧ v ≤ v / 2 ^ s * 2 ^ s + 2 * trfBound s := by
  refine ⟨Nat.div_mul_le_self v _, ?_⟩
  have hpos : 0 < 2 ^ s := by positivity
  have hlt := Nat.lt_div_mul_add hpos (a := v)
  unfold trfBound
  split
  · subst s; simp
  · have := two_pow_eq_double (w := s) (by omega)
    omega

theorem trfDequant_near (s v : Nat) : ((trfDequant s (v / 2 ^ s) : Nat) - (v : Int)).natAbs ≤ trfBound s := by
  have hdequant : trfDequant s (v / 2 ^ s) = v / 2 ^ s * 2 ^ s + trfBound s := by
    unfold trfDequant trfBound
    split
    · subst s; simp
    · rfl
  have hnear := quantised_near s v
  omega

/-! ### The FLAT shift (R167) -/

section
variable {w b : Nat} {vs : List Nat}

theorem flatPlane_min_le {v : Nat} (hv : v ∈ vs) : (flatPlane b vs).1 ≤ v := by
  rw [flatPlane, List.foldl_min_eq_min (List.ne_nil_of_mem hv)]
  exact min_le_of_right_le (List.min_le_of_mem hv)

theorem flatPlane_min_lt (hplane : IsPlane w vs) : (flatPlane b vs).1 < 2 ^ w := by
  obtain ⟨hlength, hlt⟩ := hplane
  obtain ⟨v, r, rfl⟩ := List.exists_cons_of_length_eq_add_one hlength
  exact Nat.lt_of_le_of_lt (flatPlane_min_le List.mem_cons_self) (hlt v List.mem_cons_self)

/-- Some shift of at most 15 brings the span of a plane into an offset. -/
theorem flatShift_fits {span : Nat} (hb : 1 ≤ b) (hspan : span < 2 ^ 16) :
    flatShift b span < 2 ^ 4 ∧ span / 2 ^ flatShift b span < 2 ^ b := by
  have hpos : 2 ≤ 2 ^ b := Nat.pow_le_pow_right (n := 2) (by decide) hb
  have hlast : span / 2 ^ 15 ≤ 2 ^ b - 1 := by omega
  obtain ⟨f, hf⟩ : ∃ f, (List.range 17).find? (fun f => decide (span / 2 ^ f ≤ 2 ^ b - 1)) = some f :=
    Option.isSome_iff_exists.mp (List.find?_isSome.mpr ⟨15, by decide, by simpa using hlast⟩)
  obtain ⟨hfits, -, hleast⟩ := List.find?_range_eq_some.mp hf
  have hle : f ≤ 15 := by
    by_contra hgt
    exact absurd hlast (by simpa using hleast 15 (by omega))
  rw [flatShift, hf, Option.getD_some]
  have := of_decide_eq_true hfits
  omega

/-- The offset of a sample of a plane in a FLAT tile of offset width `b` (R167). -/
def flatOffset (b : Nat) (vs : List Nat) (v : Nat) : Nat := (v - (flatPlane b vs).1) / 2 ^ (flatPlane b vs).2

theorem flatPlane_fits (hb : 1 ≤ b) (hw : w ≤ 16) (hplane : IsPlane w vs) :
    (flatPlane b vs).2 < 2 ^ 4 ∧ ∀ v ∈ vs, flatOffset b vs v < 2 ^ b := by
  obtain ⟨hlength, hlt⟩ := hplane
  have hmax : vs.foldl max 0 < 2 ^ w := List.foldlRecOn (motive := fun m => m < 2 ^ w) vs max (by positivity) fun m hm v hv =>
    max_lt hm (hlt v hv)
  have hrange : 2 ^ w ≤ 2 ^ 16 := Nat.pow_le_pow_right (by decide) hw
  obtain ⟨hshift, hspan⟩ := flatShift_fits (span := vs.foldl max 0 - (flatPlane b vs).1) hb (by omega)
  refine ⟨hshift, fun v hv => Nat.lt_of_le_of_lt (Nat.div_le_div_right ?_) hspan⟩
  exact Nat.sub_le_sub_right (le_foldl_max hv 0) _

end

/-- The sample that a FLAT tile of offset width `b` gives back for `v` of plane `vs` (R167). -/
def flatRestored (w b : Nat) (vs : List Nat) (v : Nat) : Nat :=
  min ((flatPlane b vs).1 + flatOffset b vs v * 2 ^ (flatPlane b vs).2 + trfBound (flatPlane b vs).2) (2 ^ w - 1)

theorem flatRestored_near {w b v : Nat} {vs : List Nat} (hplane : IsPlane w vs) (hv : v ∈ vs) :
    ((flatRestored w b vs v : Nat) - (v : Int)).natAbs ≤ trfBound (flatPlane b vs).2 := by
  have hmin : (flatPlane b vs).1 ≤ v := flatPlane_min_le hv
  have hlt := hplane.2 v hv
  have hnear := quantised_near (flatPlane b vs).2 (v - (flatPlane b vs).1)
  unfold flatRestored flatOffset
  omega

/-- MIN_k and FSHIFT_k (Table 06-2). -/
def flatHeadFields (b : Nat) (tile : List (List Nat)) : Fields :=
  tile.flatMap fun vs => [((flatPlane b vs).1, 16), ((flatPlane b vs).2, 4)]

theorem trfFlatFields_eq (w b : Nat) (tile : List (List Nat)) :
    trfFlatFields w b tile =
      (1, 2) :: (trfWidthCode w, 2) :: ([(b, 4)] ++ (flatHeadFields b tile ++ sampleFields b (flatOffset b) tile)) := by
  simp [trfFlatFields, flatHeadFields, sampleFields, flatOffset]

section
variable {w b : Nat} {tile : List (List Nat)} (htile : IsTile w tile)
include htile

theorem flatHeadFields_widths : (flatHeadFields b tile).map Prod.snd = [16, 4, 16, 4, 16, 4, 16, 4] := by
  obtain ⟨vs0, vs1, vs2, vs3, rfl⟩ := List.length_eq_four.mp htile.1
  rfl

theorem getMany_flatHeadFields (hb : 1 ≤ b) (hw : w ≤ 16) (rest : List Bool) :
    getMany [16, 4, 16, 4, 16, 4, 16, 4] ((flatHeadFields b tile).stream ++ rest) =
      (tile.flatMap fun vs => [(flatPlane b vs).1, (flatPlane b vs).2], rest, false) := by
  have hrange : 2 ^ w ≤ 2 ^ 16 := Nat.pow_le_pow_right (by decide) hw
  have hfit : (flatHeadFields b tile).Fit := List.forall_mem_flatMap.mpr fun vs hvs => by
    have hplane := htile.2 vs hvs
    have hmin := flatPlane_min_lt (b := b) hplane
    have hshift := (flatPlane_fits hb hw hplane).1
    simp only [List.forall_mem_cons, List.not_mem_nil, false_implies, implies_true, and_true]
    omega
  exact getMany_fields hfit (flatHeadFields_widths htile) (by simp [flatHeadFields, List.map_flatMap]) rest

theorem trfFlatFields_size : (trfFlatFields w b tile).size = 88 + 512 * b := by
  simp only [trfFlatFields_eq, Fields.size, List.map_cons, List.map_append, flatHeadFields_widths htile, sampleFields_widths htile,
    List.sum_cons, List.sum_append, List.sum_replicate]
  simp
  omega

/-- A FLAT tile that fits its bytes decodes, each sample restored from its offset (R167). -/
theorem trfDecode_flat {n : Nat} (hb : 1 ≤ b) (hb' : b < 2 ^ 4) (hw : w ≤ 16) (hsize : 88 + 512 * b ≤ 8 * n) :
    trfDecode w (packBits (trfFlatFields w b tile).stream n) = (tile.map fun vs => vs.map (flatRestored w b vs), false) := by
  have hstream : Fields.stream [(b, 4)] = putBits 4 b := by simp [Fields.stream]
  have hheads : chunks 2 4 (tile.flatMap fun vs => [(flatPlane b vs).1, (flatPlane b vs).2]) =
      tile.map fun vs => [(flatPlane b vs).1, (flatPlane b vs).2] :=
    chunks_flatMap htile.1 fun _ _ => rfl
  have hoffsets := getMany_sampleFields htile (b := b) (g := flatOffset b) fun vs hvs =>
    (flatPlane_fits hb hw (htile.2 vs hvs)).2
  have htotal := trfFlatFields_size (b := b) htile
  rw [trfFlatFields_eq] at htotal ⊢
  refine trfDecode_of_body (by decide) (trfWidthCode_lt hw) (htotal ▸ hsize) fun fill => ?_
  simp only [Fields.stream_append, List.append_assoc, trfDecodeFlat, hstream, getBits_putBits hb', getMany_flatHeadFields htile hb hw,
    hheads, hoffsets, chunks_samples htile (flatOffset b), List.zip_map']
  have hmins : ∀ vs ∈ tile, (flatPlane b vs).1 < 2 ^ w := fun vs hvs => flatPlane_min_lt (htile.2 vs hvs)
  simpa [flatRestored, Function.comp_def, hsize, Nat.ne_of_gt hb] using hmins

end

/-! ## The encoder's choice (R169, R170, R172) -/

theorem trfShifts_valid (cfa i : Nat) : (trfShifts cfa i).length = 4 ∧ ∀ s ∈ trfShifts cfa i, s ≤ 8 := by
  unfold trfShifts
  refine ⟨?_, List.forall_mem_map.mpr fun _ _ => Nat.min_le_left _ _⟩
  rw [List.length_map]
  split <;> rfl

/-- The FLAT offset width of every budget: it fits its field, and the tile fits its budget (Table 06-3). -/
theorem trfFlatWidth_fits {budget : Nat} (h : budget ≤ 4) :
    1 ≤ trfFlatWidth (trfTileBytes budget) ∧ trfFlatWidth (trfTileBytes budget) < 2 ^ 4 ∧
      88 + 512 * trfFlatWidth (trfTileBytes budget) ≤ 8 * trfTileBytes budget := by
  interval_cases budget <;> decide

/-- A size in bits fits the bytes it is padded to (R172). -/
theorem le_padded (bits : Nat) : bits ≤ 8 * alignUp (ceilDiv bits 8) 16 := by
  simp only [alignUp, ceilDiv, if_neg (show ¬ 8 = 0 by decide), if_neg (show ¬ 16 = 0 by decide)]
  omega

/-- Settles O24. The padded tile holds its fields: a RAW tile gives its samples back by `trfDecode_raw`, a PREDICT tile by
`trfDecode_predict` with shifts of 0. -/
theorem losslessTilesDecodeExactly : Obligations.LosslessTilesDecodeExactly := by
  intro w tile hw hlength hplanes
  have htile : IsTile w tile := ⟨hlength, hplanes⟩
  unfold trfEncodeLossless
  dsimp only
  split
  · exact ⟨trfDecode_raw htile (by omega) (le_padded _), by rw [packBits_length]; exact Nat.mul_mod_left _ _⟩
  · refine ⟨?_, by rw [packBits_length]; exact Nat.mul_mod_left _ _⟩
    rw [trfDecode_predict (by omega) (by omega) htile rfl (by decide) (le_padded _)]
    obtain ⟨vs0, vs1, vs2, vs3, rfl⟩ := List.length_eq_four.mp hlength
    simp [predictRestored, trfDequant]

/-- The plane `r` restores each sample of the plane `vs` to within `bound`. -/
def PlaneNear (bound : Nat) (r vs : List Nat) : Prop :=
  ∃ g : Nat → Nat, r = vs.map g ∧ ∀ v ∈ vs, ((g v : Nat) - (v : Int)).natAbs ≤ bound

theorem samples_near {tile planes : List (List Nat)} {bound : Nat} (hplanes : ∀ vs ∈ tile, vs.length = 128)
    (h : List.Forall₂ (PlaneNear bound) planes tile) {k j : Nat} (hk : k < tile.length) (hj : j < 128) :
    ((((planes.getD k []).getD j 0 : Nat) : Int) - (((tile.getD k []).getD j 0 : Nat) : Int)).natAbs ≤ bound := by
  have hk' : k < planes.length := h.length_eq ▸ hk
  obtain ⟨g, hr, hnear⟩ := h.get hk' hk
  have hj' : j < tile[k].length := by rw [hplanes _ (List.getElem_mem hk)]; exact hj
  simp only [List.get_eq_getElem] at hr hnear
  rw [List.getD_eq_getElem _ _ hk', List.getD_eq_getElem _ _ hk, hr, List.getD_eq_getElem _ _ (by simpa using hj'), List.getElem_map,
    List.getD_eq_getElem _ _ hj']
  exact hnear _ (List.getElem_mem hj')

theorem predictPlanes_near {ss : List Nat} {tile : List (List Nat)} (h : ss.length = tile.length) :
    List.Forall₂ (PlaneNear ((ss.map trfBound).foldl max 0))
      ((ss.zip tile).map predictRestored) tile := by
  have hnear : List.Forall₂ (PlaneNear ((ss.map trfBound).foldl max 0))
      ((ss.zip tile).map predictRestored) ((ss.zip tile).map Prod.snd) := by
    rw [List.forall₂_map_left_iff, List.forall₂_map_right_iff, List.forall₂_same]
    intro p hp
    have hbound := le_foldl_max (List.mem_map_of_mem (f := trfBound) (List.of_mem_zip hp).1) 0
    exact ⟨_, rfl, fun v _ => (trfDequant_near p.1 v).trans hbound⟩
  rwa [List.map_snd_zip h.ge] at hnear

theorem flatPlanes_near {w : Nat} {tile : List (List Nat)} (htile : IsTile w tile) (b : Nat) :
    List.Forall₂ (PlaneNear ((tile.map fun vs => trfBound (flatPlane b vs).2).foldl max 0))
      (tile.map fun vs => vs.map (flatRestored w b vs)) tile := by
  rw [List.forall₂_map_left_iff, List.forall₂_same]
  intro vs hvs
  have hbound := le_foldl_max (List.mem_map_of_mem (f := fun vs => trfBound (flatPlane b vs).2) hvs) 0
  exact ⟨_, rfl, fun v hv => (flatRestored_near (htile.2 vs hvs) hv).trans hbound⟩

/-- Settles O25. The tile of the first step that fits, by `trfDecode_predict` and `predictPlanes_near`; else the FLAT tile, which fits
every budget, by `trfDecode_flat` and `flatPlanes_near`. -/
theorem fixedRateTilesStayWithinTheirBound : Obligations.FixedRateTilesStayWithinTheirBound := by
  intro w cfa budget maxStep tile hw hbudget _ hlength hplanes
  have htile : IsTile w tile := ⟨hlength, hplanes⟩
  have hlengths : ∀ vs ∈ tile, vs.length = 128 := fun vs hvs => (hplanes vs hvs).1
  rw [trfEncodeFixed]
  dsimp only
  split
  next i hi =>
    obtain ⟨hss, hshift⟩ := trfShifts_valid cfa i
    have hsize : (trfPredictFields w (trfShifts cfa i) tile).size ≤ 8 * trfTileBytes budget := by simpa using List.find?_some hi
    dsimp only
    rw [packBits_length, trfDecode_predict (by omega) (by omega) htile hss hshift hsize]
    refine ⟨rfl, rfl, fun k j hk hj => samples_near hlengths ?_ (hlength ▸ hk) hj⟩
    exact predictPlanes_near (hss.trans hlength.symm)
  next =>
    obtain ⟨hb, hb', hsize⟩ := trfFlatWidth_fits hbudget
    dsimp only
    rw [packBits_length, trfDecode_flat htile hb hb' (by omega) hsize]
    refine ⟨rfl, rfl, fun k j hk hj => samples_near hlengths ?_ (hlength ▸ hk) hj⟩
    exact flatPlanes_near htile _

end Sys2Proof.Machine

/-! The Scene section (R192, R194, R196): the job that it takes up when it goes on, and stripes that end. -/

namespace Sys2Proof.Machine

/-! ## The Scene section goes on (R192, R196) -/

theorem setScene_only (s : State) (x : SceneSt) : OnlyChanges [.scene] [] s { s with scene := x } := by
  refine ⟨rfl, fun p hp => ?_, fun _ _ => rfl⟩
  cases p with
  | scene => simp at hp
  | mem => exact fun _ => rfl
  | buffers | qps => exact ⟨rfl, rfl⟩
  | nmp => exact ⟨rfl, rfl, rfl, rfl, rfl⟩
  | _ => rfl

theorem setRend_only (s : State) (c v : Nat) (x : RendSt) : OnlyChanges [.ctx c] [] s (s.setRend c v x) := setCtx_only s c _

/-- The Scene section, now `x`, takes up the job of a context. -/
def State.sceneBegin (s : State) (c : Nat) (x : SceneSt) : State :=
  match (s.ctxSt c).job with
  | some j => ({ s with scene := x }).setCtx c { s.ctxSt c with job := some { j with started := true } }
  | none => { s with scene := x }

theorem sceneBegin_only (s : State) (c : Nat) (x : SceneSt) : OnlyChanges [.ctx c, .scene] [] s (s.sceneBegin c x) := by
  unfold State.sceneBegin
  split
  · exact ((setScene_only s x).trans (setCtx_only _ c _)).mono (by simp) (by simp)
  · exact (setScene_only s x).mono (by simp) (by simp)

theorem sceneBegin_scene (s : State) (c : Nat) (x : SceneSt) : (s.sceneBegin c x).scene = x := by
  unfold State.sceneBegin
  split <;> rfl

/-- A job taken up has started, and nothing else of its context changes. -/
theorem sceneBegin_ctxSt (s : State) (c : Nat) (x : SceneSt) (d : Nat) :
    (s.sceneBegin c x).ctxSt d = s.ctxSt d ∨
      ∃ j, (s.ctxSt d).job = some j ∧ (s.sceneBegin c x).ctxSt d = { s.ctxSt d with job := some { j with started := true } } := by
  by_cases hd : d = c
  · subst hd
    unfold State.sceneBegin
    split
    next j hjob => exact .inr ⟨j, hjob, ctxSt_setCtx_same _ _ _⟩
    next => exact .inl rfl
  · exact .inl ((sceneBegin_only s c x).2.1 (.ctx d) (by simp [hd]))

/-- A Scene section that runs nothing takes up the early-start job that waits first (R196). -/
theorem sceneNext_early {s : State} {e : Nat} (hidle : s.scene.running = none) (hearly : s.scene.early = some e) :
    s.sceneNext = s.sceneBegin e { s.scene with running := some e, early := none } := by
  simp only [State.sceneNext, hidle, hearly]
  rfl

/-- What the Scene section can do when it goes on: take up the job of a context. -/
theorem sceneNext_cases (s : State) : s.sceneNext = s ∨ ∃ c x, s.sceneNext = s.sceneBegin c x := by
  unfold State.sceneNext
  dsimp only
  split
  · exact .inl rfl
  · split
    · exact .inr ⟨_, _, rfl⟩
    · exact .inr ⟨_, _, rfl⟩
    · exact .inr ⟨_, _, rfl⟩
    · exact .inl rfl

theorem sceneNext_clock (s : State) : s.sceneNext.clock = s.clock := by
  obtain h | ⟨c, x, h⟩ := sceneNext_cases s
  · rw [h]
  · rw [h]; exact (sceneBegin_only s c x).2.1 .clock (by simp)

theorem sceneNext_rd (s : State) (id : Nat) : s.sceneNext.rd id = s.rd id := by
  obtain h | ⟨c, x, h⟩ := sceneNext_cases s
  · rw [h]
  · rw [h]; exact (sceneBegin_only s c x).2.2 id (by simp)

theorem sceneNext_ctxSt (s : State) (d : Nat) :
    s.sceneNext.ctxSt d = s.ctxSt d ∨
      ∃ j, (s.ctxSt d).job = some j ∧ s.sceneNext.ctxSt d = { s.ctxSt d with job := some { j with started := true } } := by
  obtain h | ⟨c, x, h⟩ := sceneNext_cases s
  · rw [h]; exact .inl rfl
  · rw [h]; exact sceneBegin_ctxSt s c x d

/-! ## Stripes that end (R194, R196) -/

theorem isCounter_ctxCounters : ∀ c < 32, ∀ id ∈ [Ctx.FRAMES_SKIPPED c, Ctx.NO_FRAME_COUNT c, Ctx.EARLY_MISSED c, Ctx.PREEMPTIONS c],
    isCounter id = true := by decide +kernel

/-- The running job of a context goes on with its next stripe. -/
def State.nextStripe (s : State) (c : Nat) (j : Job) : State := s.setCtx c { s.ctxSt c with job := some { j with stripe := j.stripe + 1 } }

theorem exec_stripeComplete {s : State} {c : Nat} {j : Job} (hrun : s.scene.running = some c) (hjob : (s.ctxSt c).job = some j)
    (hmore : j.stripe + 1 < j.stripes) :
    exec .stripeComplete s = .next (
      if s.scene.early.isSome then
        (({ s.nextStripe c j with scene := { s.scene with running := none, yielded := some c } }).count (Ctx.PREEMPTIONS c)).sceneNext
      else s.nextStripe c j) := by
  show execStripeComplete s = _
  rw [execStripeComplete, hrun]
  dsimp only
  rw [hjob]
  dsimp only
  rw [if_pos hmore]
  rfl

theorem stripeComplete_goesOn {s : State} {c : Nat} {j : Job} (hrun : s.scene.running = some c) (hjob : (s.ctxSt c).job = some j)
    (hmore : j.stripe + 1 < j.stripes) (hearly : s.scene.early = none) :
    ∃ t, exec .stripeComplete s = .next t ∧ (t.ctxSt c).job = some { j with stripe := j.stripe + 1 } ∧ t.scene = s.scene ∧
      OnlyChanges [.ctx c] [] s t := by
  refine ⟨s.nextStripe c j, ?_, ?_, rfl, setCtx_only s c _⟩
  · rw [exec_stripeComplete hrun hjob hmore, hearly]
    rfl
  · rw [State.nextStripe, ctxSt_setCtx_same]

theorem stripeComplete_yields {s : State} {c e : Nat} {j : Job} (hrun : s.scene.running = some c) (hjob : (s.ctxSt c).job = some j)
    (hmore : j.stripe + 1 < j.stripes) (hearly : s.scene.early = some e) (hc : c < 32) :
    ∃ t, exec .stripeComplete s = .next t ∧ t.scene.running = some e ∧ t.scene.early = none ∧ t.scene.yielded = some c ∧
      t.rd (Ctx.PREEMPTIONS c) = countUp (s.rd (Ctx.PREEMPTIONS c)) 1 ∧ OnlyChanges [.ctx c, .ctx e, .scene] [Ctx.PREEMPTIONS c] s t := by
  let u : State := { s.nextStripe c j with scene := { s.scene with running := none, yielded := some c } }
  let v := u.count (Ctx.PREEMPTIONS c)
  have hu : OnlyChanges [.ctx c, .scene] [] s u := (setCtx_only s c _).trans (setScene_only _ _)
  have hv : OnlyChanges [] [Ctx.PREEMPTIONS c] u v := count_only u _
  have hscene : v.scene = { s.scene with running := none, yielded := some c } := hv.2.1 .scene (by simp)
  let x : SceneSt := { v.scene with running := some e, early := none }
  have hnext : v.sceneNext = v.sceneBegin e x := sceneNext_early (by rw [hscene]) (by rw [hscene]; exact hearly)
  have hbegin := sceneBegin_only v e x
  refine ⟨v.sceneBegin e x, ?_, ?_, ?_, ?_, ?_, ((hu.trans hv).trans hbegin).mono (by simp) (by simp)⟩
  · rw [exec_stripeComplete hrun hjob hmore, if_pos (by rw [hearly]; rfl), ← hnext]
  · rw [sceneBegin_scene]
  · rw [sceneBegin_scene]
  · rw [sceneBegin_scene]
    exact congrArg SceneSt.yielded hscene
  · rw [hbegin.2.2 _ (by simp)]
    exact (rd_count_counter (isCounter_ctxCounters c hc _ (by simp)) u).trans (by rw [hu.2.2 _ (by simp)])

end Sys2Proof.Machine

/-! Jobs that start (R56, R190, R191, R196, R201): what their preparation leaves alone, early starts, and contexts that S10 skips. -/

namespace Sys2Proof.Machine

/-! ## Frames and counts of a context -/

theorem modSlot_only (s : State) (p slot : Nat) (g : Frame → Frame) : OnlyChanges [.ingest p] [] s (s.modSlot p slot g) := by
  unfold State.modSlot
  split
  · exact setIngest_only s p _
  · exact (OnlyChanges.refl s).mono (by simp) (by simp)

theorem flagRepeated_only (s : State) (c p slot : Nat) : OnlyChanges [.ingest p] [Tick.REPEATED_COUNT c] s (s.flagRepeated c p slot) := by
  unfold State.flagRepeated
  split
  · split
    · exact (OnlyChanges.refl s).mono (by simp) (by simp)
    · exact (modSlot_only s p slot _).trans (count_only _ _)
  · exact (OnlyChanges.refl s).mono (by simp) (by simp)

theorem countSkipped_only (s : State) (c : Nat) (qs : List (Nat × Frame)) : OnlyChanges [.ctx c] [Ctx.FRAMES_SKIPPED c] s (s.countSkipped c qs) :=
  (countBy_only s _ _).trans (setCtx_only _ c _)

/-- Every frame older than the one taken is skipped, with those whose slot was used again (R191). -/
theorem rd_countSkipped {c : Nat} (hc : c < 32) (s : State) (qs : List (Nat × Frame)) :
    (s.countSkipped c qs).rd (Ctx.FRAMES_SKIPPED c) = countUp (s.rd (Ctx.FRAMES_SKIPPED c)) (qs.length - 1 + (s.ctxSt c).missed) :=
  ((setCtx_only _ c _).2.2 _ (by simp)).trans (rd_countBy_counter (isCounter_ctxCounters c hc _ (by simp)) _ s)

theorem countSkipped_ctxSt (s : State) (c : Nat) (qs : List (Nat × Frame)) :
    (s.countSkipped c qs).ctxSt c = { s.ctxSt c with missed := 0 } := by
  rw [State.countSkipped, ctxSt_setCtx_same]

theorem traceIds_ge : ∀ id ∈ traceIds, 0xB0000000 ≤ id := by decide

/-! ## Jobs that are prepared (R190, R191, R201) -/

/-- Between two states of a job's start the clock and the values that wait for the boundary of the context are as they were, and so is the
count of its skipped frames, as far as `P` holds. -/
structure Prepares (c : Nat) (P : Prop) (s t : State) : Prop where
  clock : t.clock = s.clock
  waiting : (t.ctxSt c).waiting = (s.ctxSt c).waiting
  skipped : P → t.rd (Ctx.FRAMES_SKIPPED c) = s.rd (Ctx.FRAMES_SKIPPED c)

section

variable {c : Nat} {P : Prop}

theorem Prepares.refl (s : State) : Prepares c P s s := ⟨rfl, rfl, fun _ => rfl⟩

theorem Prepares.trans {s t u : State} (h : Prepares c P s t) (g : Prepares c P t u) : Prepares c P s u :=
  ⟨g.clock.trans h.clock, g.waiting.trans h.waiting, fun hP => (g.skipped hP).trans (h.skipped hP)⟩

theorem Prepares.ite {b : Prop} [Decidable b] {s t u : State} (h : Prepares c P s t) (g : Prepares c P s u) : Prepares c P s (if b then t else u) := by
  split
  · exact h
  · exact g

theorem Prepares.foldl {α : Type} {g : State → α → State} {l : List α} (hstep : ∀ t, ∀ x ∈ l, Prepares c P t (g t x)) (s : State) :
    Prepares c P s (l.foldl g s) := by
  induction l generalizing s with
  | nil => exact .refl s
  | cons x xs ih => exact (hstep s x List.mem_cons_self).trans (ih (fun t y hy => hstep t y (List.mem_cons_of_mem _ hy)) (g s x))

theorem OnlyChanges.prepares {ps : List Part} {ids : List Nat} {s t : State} (h : OnlyChanges ps ids s t) (hclock : .clock ∉ ps)
    (hctx : .ctx c ∉ ps) (hids : P → Ctx.FRAMES_SKIPPED c ∉ ids) : Prepares c P s t :=
  ⟨h.2.1 .clock hclock, congrArg CtxSt.waiting (h.2.1 (.ctx c) hctx), fun hP => h.2.2 _ (hids hP)⟩

theorem wr_prepares (s : State) {id : Nat} (v : Nat) (h : P → Ctx.FRAMES_SKIPPED c ≠ id) : Prepares c P s (s.wr id v) :=
  (wr_only s id v).prepares (by simp) (by simp) fun hP => by simpa using h hP

theorem count_prepares (s : State) {id : Nat} (h : Ctx.FRAMES_SKIPPED c ≠ id) : Prepares c P s (s.count id) := wr_prepares s _ fun _ => h

theorem setCtx_prepares {s : State} {x : CtxSt} (h : x.waiting = (s.ctxSt c).waiting) : Prepares c P s (s.setCtx c x) :=
  ⟨rfl, by rw [ctxSt_setCtx_same]; exact h, fun _ => rfl⟩

theorem setRend_prepares (s : State) (v : Nat) (x : RendSt) : Prepares c P s (s.setRend c v x) := setCtx_prepares rfl

theorem wrBlob_prepares (s : State) (id : Nat) (b : List Byte) : Prepares c P s (s.wrBlob id b) :=
  (wrBlob_only s id b).prepares (by simp) (by simp) (by simp)

/-- A table that comes into force counts no skipped frame: the grid that it reports lies in group 0x21. -/
theorem chamoisInForce_prepares (s : State) (id : Nat) (v : PVal) : Prepares c P s (s.chamoisInForce id v) := by
  have hgrid : Ctx.FRAMES_SKIPPED c ≠ Rend.LSC_GRID (idInst id) := by simp only [Ctx.FRAMES_SKIPPED, Rend.LSC_GRID]; omega
  unfold State.chamoisInForce
  dsimp only
  split
  · exact .refl s
  · exact ((wrBlob_prepares s _ _).trans (wr_prepares _ _ fun _ => hgrid)).ite (wrBlob_prepares s _ _)

/-- At a job boundary no value waits any more; the count of skipped frames stays unless a waiting value names it (R201). -/
theorem adopt_prepares {s : State} (hP : P → ∀ e ∈ (s.ctxSt c).waiting, e.1 ≠ Ctx.FRAMES_SKIPPED c) :
    Prepares c P (s.setCtx c { s.ctxSt c with waiting := [] }) (s.adopt c) := by
  have hvals (e : Nat × PVal) (he : e ∈ (s.ctxSt c).waiting) (v : Nat) (t : State) : Prepares c P t (t.wr e.1 v) :=
    wr_prepares t v fun h => (hP h e he).symm
  unfold State.adopt
  refine (Prepares.foldl (fun t e he => ?_) _).trans (.foldl (fun t v _ => ?_) _)
  · split
    · exact (hvals e he _ t).ite (hvals e he _ t)
    · exact chamoisInForce_prepares t _ _
  · split
    · exact ((setRend_prepares t v _).trans (wrBlob_prepares _ _ _)).ite (.refl t)
    · exact .refl t

theorem checkRefs_prepares (s : State) (p : Nat) (f : Frame) : Prepares c P s (s.checkRefs c p f) := by
  have hresets : Ctx.FRAMES_SKIPPED c ≠ Ctx.TNR_RESETS c := by simp [Ctx.FRAMES_SKIPPED, Ctx.TNR_RESETS]
  have hrebound : Prepares c P s (s.setCtx c { s.ctxSt c with rebound := false }) := setCtx_prepares rfl
  unfold State.checkRefs
  dsimp only
  refine hrebound.trans ?_
  generalize s.setCtx c _ = u
  exact ((setCtx_prepares (by rfl)).trans (count_prepares _ hresets)).ite ((setCtx_prepares (by rfl)).ite (.refl u))

/-- The job `j` of a context has been set up, for its newest frame, and takes its place in the Scene section (R192, R196). -/
def State.jobSetUp (s : State) (c : Nat) (j : Job) (seen : Nat × Nat) (s8 refs : Nat) : State :=
  let u := (s.setCtx c { s.ctxSt c with job := some j, seen := some seen, s8 := s8 }).wr (Ctx.REFS_VALID c) refs
  ({ u with scene := if j.early then { u.scene with early := some c } else { u.scene with queue := u.scene.queue ++ [c] } }).sceneNext

/-- A job that starts skips the older frames, adopts the values that wait, is prepared, and is set up. -/
theorem startJob_eq {s : State} {p slot : Nat} {f : Frame} (early : Bool) (hport : s.portOf c = some p)
    (hnewest : newestFrame (s.qualifying c p) = some (slot, f)) :
    ∃ u j s8 refs, Prepares c P ((s.countSkipped c (s.qualifying c p)).adopt c) u ∧ j.port = p ∧ j.slot = slot ∧ j.ticket = f.ticket ∧
      j.early = early ∧ s.startJob c early = u.jobSetUp c j (p, f.number) s8 refs := by
  generalize ht : s.startJob c early = t
  unfold State.startJob at ht
  simp -zeta only [hport] at ht
  extract_lets qs skipped at ht
  rw [hnewest] at ht
  dsimp -zeta only at ht
  extract_lets checked taken x items used gap ok r1 r2 enabled on bufs none' counted assigned flagged statsOn skip ready j y z w at ht
  have hchecked : Prepares c P (skipped.adopt c) checked := checkRefs_prepares _ p f
  have htaken : Prepares c P checked taken := (modSlot_only checked p slot _).prepares (by simp) (by simp) (by simp)
  have hcounted : Prepares c P taken counted :=
    .foldl (fun t v _ => count_prepares t (by simp only [Ctx.FRAMES_SKIPPED, Rend.REND_NO_BUFFER]; omega)) _
  have hassigned : Prepares c P counted assigned := .foldl (fun t v _ => setRend_prepares t v _) _
  have hflagged : Prepares c P assigned flagged :=
    (Prepares.refl _).ite ((flagRepeated_only assigned c p slot).prepares (by simp) (by simp) fun _ => by
      simp only [List.mem_singleton, Ctx.FRAMES_SKIPPED, Tick.REPEATED_COUNT]; omega)
  have hready : Prepares c P flagged ready :=
    (count_prepares _ (by simp only [Ctx.FRAMES_SKIPPED, Stat.STATS_OMITTED]; omega)).ite (.refl _)
  exact ⟨ready, j, _, _, ((((hchecked.trans htaken).trans hcounted).trans hassigned).trans hflagged).trans hready, rfl, rfl, rfl, rfl, ht.symm⟩

/-- What a job that has been set up leaves: the job, started or not, its frame as the newest considered, and the rest of the context. -/
theorem jobSetUp_spec (s : State) (j : Job) (seen : Nat × Nat) (s8 refs : Nat) :
    let t := s.jobSetUp c j seen s8 refs
    (∃ b, (t.ctxSt c).job = some { j with started := b }) ∧ (t.ctxSt c).seen = some seen ∧ Prepares c P s t := by
  let u := (s.setCtx c { s.ctxSt c with job := some j, seen := some seen, s8 := s8 }).wr (Ctx.REFS_VALID c) refs
  let v : State := { u with scene := if j.early then { u.scene with early := some c } else { u.scene with queue := u.scene.queue ++ [c] } }
  have hctx : v.ctxSt c = { s.ctxSt c with job := some j, seen := some seen, s8 := s8 } :=
    ((wr_only _ (Ctx.REFS_VALID c) refs).2.1 (.ctx c) (by simp)).trans (ctxSt_setCtx_same s c _)
  have hu : Prepares c P s u :=
    (setCtx_prepares (by rfl)).trans (wr_prepares _ _ fun _ => by simp [Ctx.FRAMES_SKIPPED, Ctx.REFS_VALID])
  have hv : Prepares c P s v := hu.trans ((setScene_only u _).prepares (by simp) (by simp) (by simp))
  show (∃ b, (v.sceneNext.ctxSt c).job = some { j with started := b }) ∧ (v.sceneNext.ctxSt c).seen = some seen ∧ Prepares c P s v.sceneNext
  have hkept : (v.sceneNext.ctxSt c).waiting = (v.ctxSt c).waiting → Prepares c P s v.sceneNext := fun h =>
    hv.trans ⟨sceneNext_clock v, h, fun _ => sceneNext_rd v _⟩
  obtain hnext | ⟨k, hk, hnext⟩ := sceneNext_ctxSt v c
  · exact ⟨⟨j.started, by rw [hnext, hctx]⟩, by rw [hnext, hctx], hkept (by rw [hnext])⟩
  · obtain rfl : j = k := by simpa [hctx] using hk
    exact ⟨⟨true, by rw [hnext]⟩, by rw [hnext, hctx], hkept (by rw [hnext])⟩

end

/-! ## Early starts (R56, R190, R191, R196) -/

theorem exec_earlyStartEligible {s : State} {c : Nat} (hearly : s.earlyCtx = some c) (hrun : s.pow.global = .run)
    (hjob : (s.ctxSt c).job = none) :
    exec .earlyStartEligible s = .next (
      if s.skips c then (s.at (s.tick.edgeAt + s.rd (Ctx.EARLY_START c))).skipJob c
      else (s.at (s.tick.edgeAt + s.rd (Ctx.EARLY_START c))).startJob c true) := by
  show execEarlyStartEligible s = _
  rw [execEarlyStartEligible, hearly]
  dsimp only
  rw [if_pos ⟨hrun, by rw [hjob]; rfl⟩]
  rfl

theorem earlyStart_takesNewest {s : State} {c p slot : Nat} {f : Frame} (hearly : s.earlyCtx = some c) (hc : c < 32)
    (hrun : s.pow.global = .run) (hjob : (s.ctxSt c).job = none) (hport : s.portOf c = some p) (hruns : s.skips c = false)
    (hnewest : newestFrame (s.qualifying c p) = some (slot, f)) :
    ∃ t j, exec .earlyStartEligible s = .next t ∧ (t.ctxSt c).job = some j ∧ j.port = p ∧ j.slot = slot ∧ j.ticket = f.ticket ∧
      j.early = true ∧ (t.ctxSt c).seen = some (p, f.number) ∧ (t.ctxSt c).waiting = [] ∧
      t.clock = max s.clock (s.tick.edgeAt + s.rd (Ctx.EARLY_START c)) ∧
      ((∀ e ∈ (s.ctxSt c).waiting, e.1 ≠ Ctx.FRAMES_SKIPPED c) →
        t.rd (Ctx.FRAMES_SKIPPED c) = countUp (s.rd (Ctx.FRAMES_SKIPPED c)) ((s.qualifying c p).length - 1 + (s.ctxSt c).missed)) := by
  let a := s.at (s.tick.edgeAt + s.rd (Ctx.EARLY_START c))
  let b := a.countSkipped c (a.qualifying c p)
  let P : Prop := ∀ e ∈ (s.ctxSt c).waiting, e.1 ≠ Ctx.FRAMES_SKIPPED c
  have hb : (b.ctxSt c).waiting = (s.ctxSt c).waiting := by
    rw [show b.ctxSt c = { s.ctxSt c with missed := 0 } from countSkipped_ctxSt a c _]
  obtain ⟨u, j, s8, refs, hprepared, hjport, hjslot, hjticket, hjearly, hstart⟩ := startJob_eq (P := P) (s := a) true hport hnewest
  obtain ⟨⟨started, hjob'⟩, hseen, hset⟩ := jobSetUp_spec (P := P) (c := c) u j (p, f.number) s8 refs
  have hadopted : Prepares c P (b.setCtx c { b.ctxSt c with waiting := [] }) (b.adopt c) :=
    adopt_prepares (P := P) fun h e he => h e (hb ▸ he)
  have hall := (hadopted.trans hprepared).trans hset
  refine ⟨a.startJob c true, { j with started := started }, ?_, by rw [hstart]; exact hjob', hjport, hjslot, hjticket, hjearly, ?_⟩
  · rw [exec_earlyStartEligible hearly hrun hjob, hruns, if_neg Bool.false_ne_true]
  rw [hstart]
  refine ⟨hseen, hall.waiting.trans (by rw [ctxSt_setCtx_same]), ?_, fun hP => (hall.skipped hP).trans (rd_countSkipped hc a _)⟩
  exact hall.clock.trans ((countSkipped_only a c _).2.1 .clock (by simp))

/-- A job that finds no frame does not start (R191, R196). -/
theorem startJob_noFrame {s : State} {c p : Nat} (early : Bool) (hport : s.portOf c = some p) (hnone : s.qualifying c p = []) :
    s.startJob c early = s.noFrame c early := by
  unfold State.startJob
  simp -zeta only [hport]
  extract_lets qs
  rw [show qs = [] from hnone]
  rfl

theorem earlyStart_misses {s : State} {c p : Nat} (hearly : s.earlyCtx = some c) (hc : c < 32) (hrun : s.pow.global = .run)
    (hjob : (s.ctxSt c).job = none) (hport : s.portOf c = some p) (hruns : s.skips c = false) (hnone : s.qualifying c p = []) :
    ∃ t, exec .earlyStartEligible s = .next t ∧ (t.ctxSt c).job = none ∧
      t.rd (Ctx.EARLY_MISSED c) = countUp (s.rd (Ctx.EARLY_MISSED c)) 1 ∧
      t.rd (Ctx.NO_FRAME_COUNT c) = countUp (s.rd (Ctx.NO_FRAME_COUNT c)) 1 ∧
      OnlyChanges [.clock, .out, .obs] (Ctx.EARLY_MISSED c :: Ctx.NO_FRAME_COUNT c :: traceIds) s t := by
  let a := s.at (s.tick.edgeAt + s.rd (Ctx.EARLY_START c))
  let u := a.count (Ctx.EARLY_MISSED c)
  let v := u.count (Ctx.NO_FRAME_COUNT c)
  have ha : OnlyChanges [.clock] [] s a := at_only s _
  have hu : OnlyChanges [] [Ctx.EARLY_MISSED c] a u := count_only a _
  have hv : OnlyChanges [] [Ctx.NO_FRAME_COUNT c] u v := count_only u _
  have ht : OnlyChanges [.out, .obs] traceIds v (v.traceJob c 0 0 0 2) := trace_only v 3 c _
  have hframe := ((ha.trans hu).trans hv).trans ht
  have htraced : ∀ id, id < 0x21000000 → (v.traceJob c 0 0 0 2).rd id = v.rd id := fun id hid =>
    ht.2.2 id fun hmem => absurd (traceIds_ge id hmem) (by omega)
  refine ⟨v.traceJob c 0 0 0 2, ?_, ?_, ?_, ?_, hframe.mono (by simp) (by simp)⟩
  · rw [exec_earlyStartEligible hearly hrun hjob, hruns, if_neg Bool.false_ne_true]
    exact congrArg _ (startJob_noFrame (s := a) true hport hnone)
  · rw [show (v.traceJob c 0 0 0 2).ctxSt c = s.ctxSt c from hframe.2.1 (.ctx c) (by simp)]
    exact hjob
  · rw [htraced _ (by simp only [Ctx.EARLY_MISSED]; omega), hv.2.2 _ (by simp [Ctx.EARLY_MISSED, Ctx.NO_FRAME_COUNT])]
    exact rd_count_counter (isCounter_ctxCounters c hc _ (by simp)) a
  · rw [htraced _ (by simp only [Ctx.NO_FRAME_COUNT]; omega)]
    refine (rd_count_counter (isCounter_ctxCounters c hc _ (by simp)) u).trans ?_
    rw [hu.2.2 _ (by simp [Ctx.EARLY_MISSED, Ctx.NO_FRAME_COUNT])]
    rfl

/-- A context that S10 skips (R56): its newest frame has been considered, and repeats the output before it. -/
theorem earlyStart_skipped {s : State} {c p slot : Nat} {f : Frame} (hearly : s.earlyCtx = some c)
    (hrun : s.pow.global = .run) (hjob : (s.ctxSt c).job = none) (hport : s.portOf c = some p) (hskips : s.skips c = true)
    (hnewest : newestFrame (s.qualifying c p) = some (slot, f)) :
    ∃ t, exec .earlyStartEligible s = .next t ∧ (t.ctxSt c).job = none ∧ (t.ctxSt c).seen = some (p, f.number) ∧
      OnlyChanges [.clock, .ctx c, .ingest p] [Ctx.FRAMES_SKIPPED c, Tick.REPEATED_COUNT c] s t := by
  let a := s.at (s.tick.edgeAt + s.rd (Ctx.EARLY_START c))
  let b := a.countSkipped c (a.qualifying c p)
  let u := b.setCtx c { b.ctxSt c with seen := some (p, f.number) }
  have hrepeated := flagRepeated_only u c p slot
  have hctx : (u.flagRepeated c p slot).ctxSt c = { s.ctxSt c with missed := 0, seen := some (p, f.number) } := by
    rw [show (u.flagRepeated c p slot).ctxSt c = u.ctxSt c from hrepeated.2.1 (.ctx c) (by simp), ctxSt_setCtx_same,
      show b.ctxSt c = { s.ctxSt c with missed := 0 } from countSkipped_ctxSt a c _]
  refine ⟨u.flagRepeated c p slot, ?_, by rw [hctx]; exact hjob, by rw [hctx], ?_⟩
  · rw [exec_earlyStartEligible hearly hrun hjob, hskips, if_pos rfl]
    show Host.Outcome.next (a.skipJob c) = _
    rw [State.skipJob, show a.portOf c = some p from hport]
    dsimp only
    rw [show newestFrame (a.qualifying c p) = some (slot, f) from hnewest]
  · exact (((at_only s _).trans (countSkipped_only a c _)).trans ((setCtx_only b c _).trans hrepeated)).mono (by simp) (by simp)

end Sys2Proof.Machine

/-! Jobs that finish and 3D LUTs that have been loaded (R190, R212, R229), and O26. -/

namespace Sys2Proof.Machine

/-! ## Words that stay within their width (R77) -/

/-- A parameter that reads within 32 bits still does. -/
def KeepsWord (id : Nat) (s t : State) : Prop := s.rd id < 2 ^ 32 → t.rd id < 2 ^ 32

section

variable {id : Nat}

theorem KeepsWord.refl (s : State) : KeepsWord id s s := fun h => h

theorem KeepsWord.trans {s t u : State} (h : KeepsWord id s t) (g : KeepsWord id t u) : KeepsWord id s u := fun hs => g (h hs)

theorem KeepsWord.ite {b : Prop} [Decidable b] {s t u : State} (h : KeepsWord id s t) (g : KeepsWord id s u) : KeepsWord id s (if b then t else u) := by
  split
  · exact h
  · exact g

theorem KeepsWord.foldl {α : Type} {g : State → α → State} (hstep : ∀ t x, KeepsWord id t (g t x)) (l : List α) (s : State) :
    KeepsWord id s (l.foldl g s) := by
  induction l generalizing s with
  | nil => exact .refl s
  | cons x xs ih => exact (hstep s x).trans (ih (g s x))

/-- What moves no parameter moves none beyond its width. -/
theorem OnlyChanges.keepsWord {ps : List Part} {s t : State} (h : OnlyChanges ps [] s t) : KeepsWord id s t := fun hs => by
  rw [h.2.2 id (by simp)]
  exact hs

/-- A write is cut to the width of the parameter, whichever parameter is written. -/
theorem wr_keepsWord (hid : isWord id = true) (s : State) (i v : Nat) : KeepsWord id s (s.wr i v) := fun hs => by
  by_cases h : id = i
  · subst h
    obtain ⟨p, hp, hrow⟩ := (Option.any_eq_true _ _).1 hid
    simp only [Bool.and_eq_true, Bool.not_eq_true', beq_iff_eq] at hrow
    rw [rd_wr_same hp hrow.1, hrow.2]
    exact Nat.mod_lt _ (by decide)
  · rw [rd_wr_other h]
    exact hs

theorem countBy_keepsWord (hid : isWord id = true) (s : State) (i n : Nat) : KeepsWord id s (s.countBy i n) := wr_keepsWord hid s i _

theorem count_keepsWord (hid : isWord id = true) (s : State) (i : Nat) : KeepsWord id s (s.count i) := wr_keepsWord hid s i _

/-! ## What a job that finishes produces (R204, R234, R239, R241) -/

theorem rotateRefs_keepsWord (s : State) (c : Nat) (j : Job) (f : Frame) (m : Image Nat) : KeepsWord id s (s.rotateRefs c j f m) := by
  unfold State.rotateRefs
  exact (setCtx_only s c _).keepsWord.ite (.refl s)

theorem writeStats_keepsWord (hid : isWord id = true) (s : State) (c : Nat) (j : Job) (f : Frame) (img : Rgb) (u : Image Nat) (w16 : Nat) :
    KeepsWord id s (s.writeStats c j f img u w16) := by
  unfold State.writeStats
  refine KeepsWord.ite ?_ (.refl s)
  refine KeepsWord.trans ?_ (count_keepsWord hid _ _)
  refine KeepsWord.trans ?_ (wr_keepsWord hid _ _ _)
  exact (((setCtx_only s c _).trans (wrBlob_only _ _ _)).trans (modSlot_only _ _ _ _)).keepsWord

theorem writeScope_keepsWord (hid : isWord id = true) (s : State) (c : Nat) (m : Rgb) : KeepsWord id s (s.writeScope c m) := by
  unfold State.writeScope
  split
  · exact .refl s
  · refine KeepsWord.ite (.foldl (fun t e => count_keepsWord hid t _) _ s) ?_
    refine KeepsWord.trans ?_ (count_keepsWord hid _ _)
    refine KeepsWord.trans ?_ (wr_keepsWord hid _ _ _)
    exact ((setStore_only s s.nmp.buffers s.nmp.bufSerial _).trans (setCtx_only _ c _)).keepsWord

theorem produceRend_keepsWord (hid : isWord id = true) (s : State) (c : Nat) (j : Job) (f : Frame) (img : Rgb) (b : Nat × Nat) :
    KeepsWord id s (s.produceRend c j f img b) := by
  have hout : ∀ x n k, KeepsWord id s ((((s.setRend c b.1 x).countBy (Rend.SAT_COUNT c b.1) n).countBy (Rend.CF24_SATURATED c) k).count
      (Rend.FRAMES_OUT c b.1)) := fun x n k =>
    (((setRend_only s c b.1 x).keepsWord.trans (countBy_keepsWord hid _ _ n)).trans (countBy_keepsWord hid _ _ k)).trans (count_keepsWord hid _ _)
  unfold State.produceRend
  exact ((hout _ _ _).trans (writeScope_keepsWord hid _ c _)).ite (hout _ _ _)

end

/-! ## Jobs that finish (R190, R212) -/

/-- The numbers of a finished job are reported. -/
def State.jobReported (s : State) (c ticket cycles endNs latency : Nat) : State :=
  ((s.wrAll [(Ctx.LAST_TICKET_NUMBER c, ticket), (Ctx.LAST_JOB_CYCLES c, cycles), (Ctx.LAST_JOB_END c, endNs),
    (Ctx.LAST_LATENCY c, latency)]).raise (Ctx.WORST_JOB_END c) endNs).count (Ctx.JOBS_RUN c)

/-- A finished job leaves its frame, and the Scene section goes on. -/
def State.jobGone (s : State) (c : Nat) (j : Job) : State :=
  let u := (s.leaveFrame j).keepRecord c j
  ({ u with scene := { u.scene with running := if u.scene.running = some c then none else u.scene.running } }).sceneNext

theorem isWord_jobWords : ∀ c < 32, ∀ id ∈ [Ctx.LAST_TICKET_NUMBER c, Ctx.LAST_JOB_CYCLES c, Ctx.LAST_JOB_END c, Ctx.WORST_JOB_END c],
    isWord id = true := by decide +kernel

/-- A job that finishes leaves its context, is reported and traced, and is gone. -/
theorem finishJob_eq {s : State} {c : Nat} {j : Job} {f : Frame} (cyc ns : Nat) (hc : c < 32) (hjob : (s.ctxSt c).job = some j)
    (hframe : s.slotFrame j.port j.slot = some f) :
    ∃ u latency, KeepsWord (Ctx.WORST_JOB_END c) s u ∧
      s.finishJob c cyc ns = ((((u.setCtx c { u.ctxSt c with job := none }).jobReported c f.ticket cyc ns latency).traceJob c f.ticket cyc ns 0).fire
        (64 + c)).jobGone c j := by
  have hid : isWord (Ctx.WORST_JOB_END c) = true := isWord_jobWords c hc _ (by simp)
  generalize ht : s.finishJob c cyc ns = t
  unfold State.finishJob at ht
  simp -zeta only [hjob, hframe] at ht
  extract_lets ended repaired decoded rotated cfg coloured counted produced x left reported raised traced gone at ht
  have hended : KeepsWord (Ctx.WORST_JOB_END c) s ended := (at_only s _).keepsWord
  have hrepaired : KeepsWord (Ctx.WORST_JOB_END c) ended repaired := (countBy_keepsWord hid _ _ _).trans (countBy_keepsWord hid _ _ _)
  have hdecoded : KeepsWord (Ctx.WORST_JOB_END c) repaired decoded := countBy_keepsWord hid _ _ _
  have hrotated : KeepsWord (Ctx.WORST_JOB_END c) decoded rotated := rotateRefs_keepsWord decoded c j f _
  have hcoloured : KeepsWord (Ctx.WORST_JOB_END c) rotated coloured := countBy_keepsWord hid _ _ _
  have hcounted : KeepsWord (Ctx.WORST_JOB_END c) coloured counted := writeStats_keepsWord hid coloured c j f _ _ _
  have hproduced : KeepsWord (Ctx.WORST_JOB_END c) counted produced := .foldl (fun t b => produceRend_keepsWord hid t c j f _ b) _ _
  have hgone : traced.jobGone c j = t := by
    clear_value traced
    exact ht
  have hreported : left.jobReported c f.ticket cyc ns (left.clock - f.startClock) = raised := rfl
  refine ⟨produced, left.clock - f.startClock, ?_, ?_⟩
  · exact (((hended.trans hrepaired).trans (hdecoded.trans hrotated)).trans (hcoloured.trans hcounted)).trans hproduced
  · show t = (((left.jobReported c f.ticket cyc ns (left.clock - f.startClock)).traceJob c f.ticket cyc ns 0).fire (64 + c)).jobGone c j
    rw [hreported]
    exact hgone.symm

/-- What a finished job reports (R212). -/
theorem jobReported_spec {s : State} {c ticket cyc ns : Nat} (latency : Nat) (hc : c < 32) (hticket : ticket < 2 ^ 32) (hcyc : cyc < 2 ^ 32)
    (hns : ns < 2 ^ 32) (hworst : s.rd (Ctx.WORST_JOB_END c) < 2 ^ 32) :
    let t := s.jobReported c ticket cyc ns latency
    t.rd (Ctx.LAST_TICKET_NUMBER c) = ticket ∧ t.rd (Ctx.LAST_JOB_CYCLES c) = cyc ∧ t.rd (Ctx.LAST_JOB_END c) = ns ∧
      ns ≤ t.rd (Ctx.WORST_JOB_END c) ∧ t.ctxSt c = s.ctxSt c := by
  have hword := isWord_jobWords c hc
  let s1 := s.wr (Ctx.LAST_TICKET_NUMBER c) ticket
  let s2 := s1.wr (Ctx.LAST_JOB_CYCLES c) cyc
  let s3 := s2.wr (Ctx.LAST_JOB_END c) ns
  let s4 := s3.wr (Ctx.LAST_LATENCY c) latency
  let s5 := s4.raise (Ctx.WORST_JOB_END c) ns
  let t := s5.count (Ctx.JOBS_RUN c)
  have h1 : OnlyChanges [] [Ctx.LAST_TICKET_NUMBER c] s s1 := wr_only ..
  have h2 : OnlyChanges [] [Ctx.LAST_JOB_CYCLES c] s1 s2 := wr_only ..
  have h3 : OnlyChanges [] [Ctx.LAST_JOB_END c] s2 s3 := wr_only ..
  have h4 : OnlyChanges [] [Ctx.LAST_LATENCY c] s3 s4 := wr_only ..
  have h5 : OnlyChanges [] [Ctx.WORST_JOB_END c] s4 s5 := raise_only ..
  have h6 : OnlyChanges [] [Ctx.JOBS_RUN c] s5 t := count_only ..
  have hlast := (h4.trans h5).trans h6
  have hbefore := ((h1.trans h2).trans h3).trans h4
  show t.rd _ = _ ∧ t.rd _ = _ ∧ t.rd _ = _ ∧ _ ≤ t.rd _ ∧ t.ctxSt c = s.ctxSt c
  refine ⟨?_, ?_, ?_, ?_, (hbefore.trans (h5.trans h6)).2.1 (.ctx c) (by simp)⟩
  · rw [((h2.trans h3).trans hlast).2.2 _ (by
      simp [Ctx.LAST_TICKET_NUMBER, Ctx.LAST_JOB_CYCLES, Ctx.LAST_JOB_END, Ctx.LAST_LATENCY, Ctx.WORST_JOB_END, Ctx.JOBS_RUN])]
    exact rd_wr_word (hword _ (by simp)) hticket s
  · rw [(h3.trans hlast).2.2 _ (by simp [Ctx.LAST_JOB_CYCLES, Ctx.LAST_JOB_END, Ctx.LAST_LATENCY, Ctx.WORST_JOB_END, Ctx.JOBS_RUN])]
    exact rd_wr_word (hword _ (by simp)) hcyc s1
  · rw [hlast.2.2 _ (by simp [Ctx.LAST_JOB_END, Ctx.LAST_LATENCY, Ctx.WORST_JOB_END, Ctx.JOBS_RUN])]
    exact rd_wr_word (hword _ (by simp)) hns s2
  · have hstood : s4.rd (Ctx.WORST_JOB_END c) = s.rd (Ctx.WORST_JOB_END c) := hbefore.2.2 _ (by
      simp [Ctx.LAST_TICKET_NUMBER, Ctx.LAST_JOB_CYCLES, Ctx.LAST_JOB_END, Ctx.LAST_LATENCY, Ctx.WORST_JOB_END])
    have hraised : s5.rd (Ctx.WORST_JOB_END c) = max (s4.rd (Ctx.WORST_JOB_END c)) ns :=
      rd_wr_word (hword _ (by simp)) (by rw [hstood]; exact max_lt hworst hns) s4
    rw [h6.2.2 _ (by simp [Ctx.WORST_JOB_END, Ctx.JOBS_RUN]), hraised]
    exact le_max_right _ _

theorem leaveFrame_rd (s : State) (j : Job) (id : Nat) : (s.leaveFrame j).rd id = s.rd id := by
  have hmod := modSlot_only s j.port j.slot fun f => { f with jobs := f.jobs - 1 }
  rw [← hmod.2.2 id (by simp)]
  unfold State.leaveFrame
  dsimp only
  split
  · split
    · exact (finalFrame_finalTickets _ j.port j.slot).rd id
    · rfl
  · rfl

theorem keepRecord_only (s : State) (c : Nat) (j : Job) : OnlyChanges [.ctx c] [] s (s.keepRecord c j) := by
  unfold State.keepRecord
  split
  · split
    · exact setRend_only s c 0 _
    · exact (OnlyChanges.refl s).mono (by simp) (by simp)
  · exact (OnlyChanges.refl s).mono (by simp) (by simp)

theorem keepRecord_noNewJobs (s : State) (c : Nat) (j : Job) : NoNewJobs s (s.keepRecord c j) := by
  unfold State.keepRecord
  split
  · split
    · exact setRend_noNewJobs s c 0 _
    · exact .refl s
  · exact .refl s

theorem sceneNext_noJob {s : State} {c : Nat} (h : (s.ctxSt c).job = none) : (s.sceneNext.ctxSt c).job = none := by
  obtain hnext | ⟨j, hj, -⟩ := sceneNext_ctxSt s c
  · rw [hnext]; exact h
  · exact absurd (h.symm.trans hj) (by simp)

/-- That a finished job is gone moves no parameter, and brings its context no other job. -/
theorem jobGone_spec (s : State) (c : Nat) (j : Job) :
    (∀ id, (s.jobGone c j).rd id = s.rd id) ∧ ((s.ctxSt c).job = none → ((s.jobGone c j).ctxSt c).job = none) := by
  let u := (s.leaveFrame j).keepRecord c j
  have hscene := setScene_only u { u.scene with running := if u.scene.running = some c then none else u.scene.running }
  have hjobs : NoNewJobs s u := (leaveFrame_noNewJobs s j).trans (keepRecord_noNewJobs _ c j)
  refine ⟨fun id => ?_, fun hnone => sceneNext_noJob ((hjobs.trans (hscene.noNewJobs (by simp) (by simp))).2 c hnone)⟩
  exact (sceneNext_rd _ id).trans ((hscene.2.2 id (by simp)).trans (((keepRecord_only _ c j).2.2 id (by simp)).trans (leaveFrame_rd s j id)))

theorem finishJob_spec {s : State} {c cyc ns : Nat} {j : Job} {f : Frame} (hc : c < 32) (hjob : (s.ctxSt c).job = some j)
    (hframe : s.slotFrame j.port j.slot = some f) (hcyc : cyc < 2 ^ 32) (hns : ns < 2 ^ 32) (hticket : f.ticket < 2 ^ 32)
    (hworst : s.rd (Ctx.WORST_JOB_END c) < 2 ^ 32) :
    let t := s.finishJob c cyc ns
    (t.ctxSt c).job = none ∧ t.rd (Ctx.LAST_TICKET_NUMBER c) = f.ticket ∧ t.rd (Ctx.LAST_JOB_CYCLES c) = cyc ∧
      t.rd (Ctx.LAST_JOB_END c) = ns ∧ ns ≤ t.rd (Ctx.WORST_JOB_END c) := by
  obtain ⟨u, latency, hkeeps, hfinish⟩ := finishJob_eq cyc ns hc hjob hframe
  let v := u.setCtx c { u.ctxSt c with job := none }
  let w := v.jobReported c f.ticket cyc ns latency
  let x := (w.traceJob c f.ticket cyc ns 0).fire (64 + c)
  have hv : KeepsWord (Ctx.WORST_JOB_END c) u v := (setCtx_only u c _).keepsWord
  obtain ⟨hlast, hcycles, hend, hworst', hctx⟩ := jobReported_spec (s := v) latency hc hticket hcyc hns (hv (hkeeps hworst))
  have htraced : OnlyChanges [.out, .obs, .firings] traceIds w x := ((trace_only w 3 c _).trans (fire_only _ (64 + c))).mono (by simp) (by simp)
  obtain ⟨hrd, hgone⟩ := jobGone_spec x c j
  have hread : ∀ id, id < 0x21000000 → (x.jobGone c j).rd id = w.rd id := fun id hid =>
    (hrd id).trans (htraced.2.2 id fun hmem => absurd (traceIds_ge id hmem) (by omega))
  have hnone : (x.ctxSt c).job = none := by
    rw [show x.ctxSt c = w.ctxSt c from htraced.2.1 (.ctx c) (by simp), show w.ctxSt c = v.ctxSt c from hctx, ctxSt_setCtx_same]
  rw [hfinish]
  refine ⟨hgone hnone, (hread _ ?_).trans hlast, (hread _ ?_).trans hcycles, (hread _ ?_).trans hend, hworst'.trans (hread _ ?_).ge⟩
  all_goals simp only [Ctx.LAST_TICKET_NUMBER, Ctx.LAST_JOB_CYCLES, Ctx.LAST_JOB_END, Ctx.WORST_JOB_END]; omega

/-- A job that completes has finished; its late parts are counted, and the gap may begin (R46, R49). -/
theorem jobComplete_finishes {s : State} {c : Fin 32} (cyc ns : Nat) (scene rend stats : Bool) (hrun : s.scene.running = some c.val) :
    ∃ t ch, exec (.jobComplete c cyc ns scene rend stats) s = .next t ∧
      OnlyChanges [.tick, .firings] [Tick.LATE_COUNT 0, Tick.LATE_COUNT 1, Tick.LATE_COUNT 2, Dram.CHANNEL_STATE ch] (s.finishJob c.val cyc ns) t := by
  let u := s.finishJob c.val cyc ns
  let v := u.lateCounted scene rend (stats && (s.ctxSt c.val).job.any Job.rendersStats)
  obtain ⟨-, -, -, hlate⟩ := lateCounted_spec u scene rend (stats && (s.ctxSt c.val).job.any Job.rendersStats)
  obtain ⟨ch, -, -, -, hgap⟩ := gapStart_spec v
  refine ⟨if v.jobsDone && v.tick.budgetOver then v.gapStart else v, ch, ?_, ?_⟩
  · show execJobComplete c cyc ns scene rend stats s = _
    rw [execJobComplete, if_pos hrun]
    rfl
  · split
    · exact (hlate.trans hgap).mono (by simp) (by simp)
    · exact hlate.mono (by simp) (by simp)

theorem jobComplete_reports {s : State} {c : Fin 32} {cyc ns : Nat} {j : Job} {f : Frame} (scene rend stats : Bool)
    (hrun : s.scene.running = some c.val) (hjob : (s.ctxSt c.val).job = some j) (hframe : s.slotFrame j.port j.slot = some f)
    (hcyc : cyc < 2 ^ 32) (hns : ns < 2 ^ 32) (hticket : f.ticket < 2 ^ 32) (hworst : s.rd (Ctx.WORST_JOB_END c.val) < 2 ^ 32) :
    ∃ t, exec (.jobComplete c cyc ns scene rend stats) s = .next t ∧ (t.ctxSt c.val).job = none ∧
      t.rd (Ctx.LAST_TICKET_NUMBER c.val) = f.ticket ∧ t.rd (Ctx.LAST_JOB_CYCLES c.val) = cyc ∧ t.rd (Ctx.LAST_JOB_END c.val) = ns ∧
      ns ≤ t.rd (Ctx.WORST_JOB_END c.val) := by
  obtain ⟨t, ch, hexec, hrest⟩ := jobComplete_finishes cyc ns scene rend stats hrun
  obtain ⟨hnone, hlast, hcycles, hend, hworst'⟩ := finishJob_spec c.isLt hjob hframe hcyc hns hticket hworst
  have hread : ∀ id, 0x20000000 ≤ id → id < 0x21000000 → t.rd id = (s.finishJob c.val cyc ns).rd id := fun id hlow hhigh =>
    hrest.2.2 id (by simp only [List.mem_cons, List.not_mem_nil, or_false, Tick.LATE_COUNT, Dram.CHANNEL_STATE]; omega)
  refine ⟨t, hexec, ?_, (hread _ ?_ ?_).trans hlast, (hread _ ?_ ?_).trans hcycles, (hread _ ?_ ?_).trans hend, hworst'.trans (hread _ ?_ ?_).ge⟩
  · rw [show t.ctxSt c.val = (s.finishJob c.val cyc ns).ctxSt c.val from hrest.2.1 (.ctx c.val) (by simp)]
    exact hnone
  all_goals simp only [Ctx.LAST_TICKET_NUMBER, Ctx.LAST_JOB_CYCLES, Ctx.LAST_JOB_END, Ctx.WORST_JOB_END]; omega


/-! ## 3D LUTs that have been loaded (R229) -/

theorem reply_waits (s : State) (r : Req) (op st : Nat) (pl : List Byte) : (s.reply r op st pl).nmp.waits = s.nmp.waits := by
  obtain ⟨-, -, -, hwaits, -⟩ := (reply_only s r op st pl).2.1 .nmp (by simp)
  exact hwaits

/-- What a release does: the replies that waited for the cause alone are sent, on the state in which no reply waits for it. -/
theorem release_eq (s : State) (why : WaitFor) :
    let rest := s.nmp.waits.filter fun w => w.why ≠ why
    s.release why Status.OK = (s.nmp.waits.filter fun w => w.why = why).foldl (fun (t : State) w =>
      if rest.any (fun v => v.r == w.r) then t
      else t.reply w.r w.op w.status (if completes w.status then
        commitReply w.edge (w.gen.getD (t.rd Tick.PLAN_GENERATION)) ++ w.tails.flatMap Prod.snd else [])) (s.withWaits rest) := by
  intro rest
  have hrest : (s.nmp.waits.filter fun w => !(w.why == why)) = rest := List.filter_congr fun w _ => by simp [beq_eq_decide]
  have hdone : (s.nmp.waits.filter fun w => w.why == why) = s.nmp.waits.filter fun w => w.why = why := by simp only [beq_eq_decide]
  simp only [State.release, State.releaseIf, hrest, hdone, if_true, ite_self, List.map_id']
  rfl

/-- No reply waits for a cause that has come. -/
theorem release_waits (s : State) (why : WaitFor) : (s.release why Status.OK).nmp.waits = s.nmp.waits.filter fun w => w.why ≠ why := by
  rw [release_eq]
  refine List.foldlRecOn _ _ (motive := fun t : State => t.nmp.waits = _) rfl fun t ht w _ => ?_
  split
  · exact ht
  · rw [reply_waits, ht]

/-- A release moves nothing of the contexts. -/
theorem release_ctxSt (s : State) (why : WaitFor) (c : Nat) : (s.release why Status.OK).ctxSt c = s.ctxSt c := by
  rw [release_eq]
  refine List.foldlRecOn _ _ (motive := fun t : State => t.ctxSt c = s.ctxSt c) rfl fun t ht w _ => ?_
  split
  · exact ht
  · rw [← ht]
    exact (reply_only t _ _ _ _).2.1 (.ctx c) (by simp)

/-- A cause for which nothing waits releases nothing. -/
theorem release_none {s : State} {why : WaitFor} (h : ∀ w ∈ s.nmp.waits, w.why ≠ why) : s.release why Status.OK = s := by
  have hdone : (s.nmp.waits.filter fun w => w.why = why) = [] := List.filter_eq_nil_iff.2 fun w hw => by simp [h w hw]
  have hrest : (s.nmp.waits.filter fun w => w.why ≠ why) = s.nmp.waits := List.filter_eq_self.2 fun w hw => by simp [h w hw]
  rw [release_eq, hdone, hrest]
  rfl

/-- The one reply that waits, for the cause that has come, is sent. -/
theorem release_one {s : State} {w : Wait} (h : s.nmp.waits = [w]) :
    ∃ mark payload, (s.release w.why Status.OK).out.head? = some (.nmp w.r.port w.r.peer mark true ⟨w.r.sess, w.r.seq, w.op, w.status, payload⟩) := by
  rw [release_eq, h]
  simp

/-- The 3D LUT of a rendition has been loaded. -/
def State.lutReady (s : State) (c v : Nat) : State := s.setRend c v { s.rend c v with lutLoaded := true }

@[simp] theorem rend_setRend_same (s : State) (c v : Nat) (x : RendSt) : (s.setRend c v x).rend c v = x := by
  rw [State.rend, State.setRend, ctxSt_setCtx_same]
  exact tget_tset_same _ v _ x

theorem exec_lutPendingLoadDone {s : State} {c : Fin 32} {v : Fin 4} (h : (s.rend c.val v.val).lutPend.isSome = true) :
    exec (.lutPendingLoadDone c v) s = .next ((s.lutReady c.val v.val).release (.lutLoad c.val v.val) Status.OK) := by
  show execLutPendingLoadDone c v s = _
  rw [execLutPendingLoadDone, if_pos h]
  rfl

theorem lutPendingLoadDone_answers {s : State} {c : Fin 32} {v : Fin 4} (h : (s.rend c.val v.val).lutPend.isSome = true) :
    ∃ t, exec (.lutPendingLoadDone c v) s = .next t ∧ (t.rend c.val v.val).lutLoaded = true ∧
      (t.rend c.val v.val).lutPend = (s.rend c.val v.val).lutPend ∧ t.nmp.waits = s.nmp.waits.filter (fun w => w.why ≠ .lutLoad c.val v.val) ∧
      ((∀ w ∈ s.nmp.waits, w.why ≠ .lutLoad c.val v.val) → OnlyChanges [.ctx c.val] [] s t) ∧
      ∀ w, s.nmp.waits = [w] → w.why = .lutLoad c.val v.val →
        ∃ mark payload, t.out.head? = some (.nmp w.r.port w.r.peer mark true ⟨w.r.sess, w.r.seq, w.op, w.status, payload⟩) := by
  let u := s.lutReady c.val v.val
  have hrend : (u.release (.lutLoad c.val v.val) Status.OK).rend c.val v.val = { s.rend c.val v.val with lutLoaded := true } := by
    rw [State.rend, release_ctxSt]
    exact rend_setRend_same s c.val v.val _
  refine ⟨_, exec_lutPendingLoadDone h, by rw [hrend], by rw [hrend], release_waits u _, fun hnone => ?_, fun w hw hwhy => ?_⟩
  · show OnlyChanges [.ctx c.val] [] s (u.release (.lutLoad c.val v.val) Status.OK)
    rw [release_none (s := u) hnone]
    exact setRend_only s _ _ _
  · rw [← hwhy]
    exact release_one hw

/-- Settles O26: early starts by `startJob_eq` and `jobSetUp_spec`, stripes by `sceneNext_early`, finished jobs by `finishJob_spec`, loaded 3D LUTs by
`release_eq`. -/
theorem jobsRunUnderTheirRules : Obligations.JobsRunUnderTheirRules := by
  refine ⟨fun c p s hearly hc _ hrun hjob hport => ⟨fun hruns slot f => ?_, fun hruns hnone => ?_, fun hskips slot f => ?_⟩,
    fun c j s hrun hjob hmore => ⟨stripeComplete_goesOn hrun hjob hmore, fun e => stripeComplete_yields hrun hjob hmore⟩,
    fun c cyc ns scene rend stats j f s => ?_, fun c v s => lutPendingLoadDone_answers⟩
  · exact earlyStart_takesNewest hearly hc hrun hjob hport hruns
  · exact earlyStart_misses hearly hc hrun hjob hport hruns hnone
  · exact earlyStart_skipped hearly hrun hjob hport hskips
  · exact jobComplete_reports scene rend stats

end Sys2Proof.Machine

/-! CF24 words and their values (R213, R214): a finite word as a significand on the grid of its exponent, what writing and rounding make of a number
on that grid; the statistics zones (R238), and O27. -/

namespace Sys2Proof.Machine

/-! ## Powers, logarithms and rounding of rationals -/

theorem twoPow_eq_zpow (e : Int) : twoPow e = (2 : ℚ) ^ e := by
  unfold twoPow
  split
  case isTrue hneg =>
    obtain ⟨n, rfl⟩ := Int.exists_eq_neg_ofNat hneg.le
    simp
  case isFalse hnonneg =>
    obtain ⟨n, rfl⟩ := Int.eq_ofNat_of_zero_le (not_lt.mp hnonneg)
    simp

theorem twoPow_pos (e : Int) : 0 < twoPow e := by
  rw [twoPow_eq_zpow]
  positivity

theorem twoPow_le_iff {x : ℚ} (hx : 0 < x) (k : Int) : twoPow k ≤ x ↔ k ≤ Int.log 2 x := by
  rw [twoPow_eq_zpow]
  exact_mod_cast Int.zpow_le_iff_le_log (b := 2) one_lt_two hx

theorem lt_twoPow_iff {x : ℚ} (hx : 0 < x) (k : Int) : x < twoPow k ↔ Int.log 2 x < k := by
  rw [twoPow_eq_zpow]
  exact_mod_cast Int.lt_zpow_iff_log_lt (b := 2) one_lt_two hx

/-- The bit lengths of numerator and denominator give the logarithm of a quotient to within one. -/
theorem log2_div_bounds {n d : Nat} (hn : n ≠ 0) (hd : d ≠ 0) :
    twoPow ((n.log2 : Int) - d.log2 - 1) ≤ n / d ∧ (n : ℚ) / d < twoPow ((n.log2 : Int) - d.log2 + 1) := by
  have hd' : (0 : ℚ) < d := mod_cast Nat.pos_of_ne_zero hd
  have hnLo : (2 : ℚ) ^ n.log2 ≤ n := mod_cast Nat.log2_self_le hn
  have hnHi : (n : ℚ) < 2 ^ (n.log2 + 1) := mod_cast Nat.lt_log2_self
  have hdLo : (2 : ℚ) ^ d.log2 ≤ d := mod_cast Nat.log2_self_le hd
  have hdHi : (d : ℚ) < 2 ^ (d.log2 + 1) := mod_cast Nat.lt_log2_self
  have hpow (a b : Nat) (k : Int) (hk : k = (a : Int) - b) : twoPow k = 2 ^ a / 2 ^ b := by
    rw [hk, twoPow_eq_zpow, zpow_sub₀ two_ne_zero, zpow_natCast, zpow_natCast]
  constructor
  · rw [hpow n.log2 (d.log2 + 1) _ (by omega)]
    gcongr
  · rw [hpow (n.log2 + 1) d.log2 _ (by omega)]
    gcongr

/-- The model's first guess is at most one too large. -/
theorem floorLog2_eq_log {x : ℚ} (hx : 0 < x) : floorLog2 x = Int.log 2 x := by
  have hnum : x.num.natAbs ≠ 0 := Int.natAbs_ne_zero.mpr (Rat.num_pos.mpr hx).ne'
  have hquot : (x.num.natAbs : ℚ) / x.den = x := by
    rw [Nat.cast_natAbs, abs_of_pos (Rat.num_pos.mpr hx), Rat.num_div_den]
  obtain ⟨hlow, hhigh⟩ := log2_div_bounds hnum x.den_nz
  rw [hquot] at hlow hhigh
  rw [twoPow_le_iff hx] at hlow
  rw [lt_twoPow_iff hx] at hhigh
  simp only [floorLog2, twoPow_le_iff hx]
  split <;> omega

@[simp] theorem roundDiv_one (n : Nat) : roundDiv n 1 = n := by simp [roundDiv, Nat.mod_one]

@[simp] theorem roundEven_natCast (n : Nat) : roundEven (n : ℚ) = n := by simp [roundEven, roundDivInt]

/-! ## Magnitudes on the CF24 grid (R214) -/

/-- The magnitude with the significand `m`, in units of 2^-16, at the exponent `e`. -/
def cf24Mag (e : Int) (m : Nat) : ℚ := m * twoPow (e - 16)

theorem roundEven_mag (e : Int) (m : Nat) : roundEven (cf24Mag e m / twoPow (e - 16)) = m := by
  rw [cf24Mag, mul_div_cancel_right₀ _ (twoPow_pos _).ne', roundEven_natCast]

/-- `e` and `m` are the exponent and the significand of a finite magnitude that is not zero: normal, or subnormal at the lowest exponent. -/
structure OnCf24Grid (e : Int) (m : Nat) : Prop where
  pos : 0 < m
  lt : m < 2 ^ 17
  normal : 2 ^ 16 ≤ m ∨ e = -62
  low : -62 ≤ e
  high : e ≤ 63

section
variable {e : Int} {m : Nat} (h : OnCf24Grid e m)
include h

theorem OnCf24Grid.mag_pos : 0 < cf24Mag e m := mul_pos (mod_cast h.pos) (twoPow_pos _)

/-- The exponent that the model reads off a magnitude is the one of its grid. -/
theorem OnCf24Grid.exponent_mag : max (floorLog2 (cf24Mag e m)) (-62) = e := by
  have hscale (n : Nat) : 2 ^ n * twoPow (e - 16) = twoPow (e - 16 + n) := by
    rw [twoPow_eq_zpow, twoPow_eq_zpow, zpow_add₀ two_ne_zero, zpow_natCast, mul_comm]
  have hhigh : cf24Mag e m < twoPow (e - 16 + 17) :=
    (mul_lt_mul_of_pos_right (mod_cast h.lt) (twoPow_pos _)).trans_eq (hscale 17)
  rw [lt_twoPow_iff h.mag_pos] at hhigh
  rw [floorLog2_eq_log h.mag_pos]
  obtain hnormal | hsub := h.normal
  · have hlow : twoPow (e - 16 + 16) ≤ cf24Mag e m :=
      (hscale 16).symm.trans_le (mul_le_mul_of_nonneg_right (mod_cast hnormal) (twoPow_pos _).le)
    rw [twoPow_le_iff h.mag_pos] at hlow
    have := h.low
    omega
  · omega

theorem OnCf24Grid.mag_le_max : cf24Mag e m ≤ cf24Max := by
  have hm : (m : ℚ) ≤ 131071 := mod_cast Nat.le_of_lt_succ h.lt
  have he : twoPow (e - 16) ≤ twoPow 47 := by
    rw [twoPow_eq_zpow, twoPow_eq_zpow]
    exact zpow_le_zpow_right₀ one_le_two (by have := h.high; omega)
  exact mul_le_mul hm he (twoPow_pos _).le (by norm_num)

variable {x : ℚ} (hx : |x| = cf24Mag e m)
include hx

theorem OnCf24Grid.ne_zero : x ≠ 0 := abs_pos.mp (hx ▸ h.mag_pos)

/-- Rounding leaves a number on the grid as it is, and nothing is limited. -/
theorem OnCf24Grid.cf24Round_eq : cf24Round x = (x, false) := by
  have hround : ((m : Int) : ℚ) * twoPow (e - 16) = cf24Mag e m := by rw [Int.cast_natCast, cf24Mag]
  have hsign : (if x < 0 then -cf24Mag e m else cf24Mag e m) = x := by
    rw [← hx]
    split
    case isTrue hneg => rw [abs_of_neg hneg, neg_neg]
    case isFalse hpos => exact abs_of_nonneg (not_lt.mp hpos)
  simp only [cf24Round, h.ne_zero hx, hx, h.exponent_mag, roundEven_mag, hround, h.mag_le_max.not_gt, hsign, if_false, decide_false]

/-- A number on the grid is written with the exponent and significand of its magnitude; a significand below 2^16 has EXP 0. -/
theorem OnCf24Grid.cf24Word_eq :
    cf24Word x = (if m < 65536 then m else (e + 63).toNat * 65536 + (m - 65536)) + if x < 0 then 2 ^ 23 else 0 := by
  simp only [cf24Word, h.ne_zero hx, hx, h.exponent_mag, roundEven_mag, Int.toNat_natCast, if_false]
  by_cases hneg : x < 0 <;> simp [hneg]

end

/-! ## Finite words (R213, R214) -/

/-- The exponent of a word: EXP less the bias, and that of EXP 1 for EXP 0. -/
def cf24Exp (v : Nat) : Int := max (bits v 22 16) 1 - 63

/-- The significand of a word, in units of 2^-16: MANT, under a leading one where EXP is not 0. -/
def cf24Sig (v : Nat) : Nat := if bits v 22 16 = 0 then bits v 15 0 else 65536 + bits v 15 0

theorem cf24Value_eq (v : Nat) :
    cf24Value v = if bit v 23 then -cf24Mag (cf24Exp v) (cf24Sig v) else cf24Mag (cf24Exp v) (cf24Sig v) := by
  have hmag : (if bits v 22 16 = 0 then (bits v 15 0 : ℚ) * twoPow (-78)
      else (1 + (bits v 15 0 : ℚ) / 65536) * twoPow ((bits v 22 16 : Int) - 63)) = cf24Mag (cf24Exp v) (cf24Sig v) := by
    unfold cf24Mag cf24Exp cf24Sig
    split
    case isTrue h0 => simp [h0]
    case isFalse h0 =>
      have he : max (bits v 22 16) 1 = bits v 22 16 := by omega
      rw [he, twoPow_eq_zpow, twoPow_eq_zpow, zpow_sub₀ two_ne_zero _ 16]
      push_cast
      ring
  simp only [cf24Value, hmag]

theorem abs_cf24Value (v : Nat) : |cf24Value v| = cf24Mag (cf24Exp v) (cf24Sig v) := by
  have hnonneg : 0 ≤ cf24Mag (cf24Exp v) (cf24Sig v) := mul_nonneg (Nat.cast_nonneg _) (twoPow_pos _).le
  rw [cf24Value_eq]
  split
  · rw [abs_neg, abs_of_nonneg hnonneg]
  · exact abs_of_nonneg hnonneg

theorem cf24Fields_lt (v : Nat) : bits v 15 0 < 65536 ∧ bits v 22 16 < 128 :=
  ⟨Nat.mod_lt _ (by norm_num), Nat.mod_lt _ (by norm_num)⟩

/-- Table 08-1: SIGN, EXP and MANT are the whole word. -/
theorem cf24Fields_sum {v : Nat} (hv : v < 2 ^ 24) :
    (bits v 22 16 * 65536 + bits v 15 0) + (if bit v 23 then 2 ^ 23 else 0) = v := by
  simp only [bits, bit, beq_iff_eq]
  split <;> omega

/-- A significand of 0 is that of the two zeros alone. -/
theorem cf24Sig_pos {v : Nat} (hv : v < 2 ^ 24) (h0 : v ≠ 0) (hneg : v ≠ 2 ^ 23) : 0 < cf24Sig v := by
  have hsum := cf24Fields_sum hv
  unfold cf24Sig
  split
  · split at hsum <;> omega
  · omega

theorem onCf24Grid_of_finite {v : Nat} (hfin : cf24Bad v = false) (hpos : 0 < cf24Sig v) : OnCf24Grid (cf24Exp v) (cf24Sig v) := by
  obtain ⟨hmant, hexp⟩ := cf24Fields_lt v
  have hne : bits v 22 16 ≠ 127 := by simpa [cf24Bad] using hfin
  by_cases h0 : bits v 22 16 = 0
  all_goals
    simp only [cf24Sig, cf24Exp, h0, if_true, if_false] at hpos ⊢
    constructor <;> omega

theorem cf24Value_neg_iff {v : Nat} (hgrid : OnCf24Grid (cf24Exp v) (cf24Sig v)) : cf24Value v < 0 ↔ bit v 23 = true := by
  have hpos := hgrid.mag_pos
  rw [cf24Value_eq]
  cases hsign : bit v 23
  · simpa using hpos.le
  · simpa using hpos

theorem cf24Word_cf24Value {v : Nat} (hv : v < 2 ^ 24) (hgrid : OnCf24Grid (cf24Exp v) (cf24Sig v)) : cf24Word (cf24Value v) = v := by
  obtain ⟨hmant, -⟩ := cf24Fields_lt v
  have hcode : (if cf24Sig v < 65536 then cf24Sig v else (cf24Exp v + 63).toNat * 65536 + (cf24Sig v - 65536)) =
      bits v 22 16 * 65536 + bits v 15 0 := by
    unfold cf24Sig cf24Exp
    by_cases h0 : bits v 22 16 = 0
    · simp [h0, hmant]
    · have he : max (bits v 22 16) 1 = bits v 22 16 := by omega
      simp [h0, he]
  rw [hgrid.cf24Word_eq (abs_cf24Value v), hcode]
  simpa only [cf24Value_neg_iff hgrid] using cf24Fields_sum hv

theorem cf24_exact {v : Nat} (hv : v < 2 ^ 24) (hfin : cf24Bad v = false) (hneg : v ≠ 2 ^ 23) :
    cf24Word (cf24Value v) = v ∧ cf24Round (cf24Value v) = (cf24Value v, false) := by
  obtain rfl | h0 := eq_or_ne v 0
  · have hzero : cf24Value 0 = 0 := by simp [cf24Value, bits, bit]
    simp [hzero, cf24Word, cf24Round]
  · have hgrid := onCf24Grid_of_finite hfin (cf24Sig_pos hv h0 hneg)
    exact ⟨cf24Word_cf24Value hv hgrid, hgrid.cf24Round_eq (abs_cf24Value v)⟩

/-! ## The zones of the statistics taps (R238) -/

/-- The first `k` zones cover the samples before the bound of zone `k`. -/
theorem flatMap_zoneRange (n k : Nat) : (List.range k).flatMap (zoneRange n) = List.range (k * n / 32) := by
  induction k with
  | zero => simp
  | succ k ih =>
    have hmono : k * n / 32 ≤ (k + 1) * n / 32 := Nat.div_le_div_right (Nat.mul_le_mul_right n k.le_succ)
    have hsplit : (k + 1) * n / 32 = k * n / 32 + ((k + 1) * n / 32 - k * n / 32) := by omega
    rw [List.range_succ, List.flatMap_append, ih, hsplit, List.range_add]
    simp [zoneRange, Nat.add_comm]

/-- Settles O27: a finite word is a significand on the grid of its exponent (`onCf24Grid_of_finite`), which writing and rounding leave as it is; the
zones by induction on their number. -/
theorem numbersAndZonesAreExact : Obligations.NumbersAndZonesAreExact :=
  ⟨fun _ hv hfin hneg => cf24_exact hv hfin hneg, fun n => by rw [flatMap_zoneRange, Nat.mul_div_cancel_left n (by norm_num)]⟩

end Sys2Proof.Machine

/-! Exposure changes (R248 to R255, R262, R280): what sensor work reads of a state, a bus on which nothing starts, changes that are accepted,
written and decided, mode sequences, and O30. -/

namespace Sys2Proof.Machine

/-! ## Records and parameters under each other's updates -/

theorem OnlyChanges.exposure {ps : List Part} {ids : List Nat} {s t : State} {p : Nat} (h : OnlyChanges ps ids s t) (hp : .exposure p ∉ ps) :
    t.exposure p = s.exposure p :=
  h.2.1 (.exposure p) hp

theorem OnlyChanges.bus {ps : List Part} {ids : List Nat} {s t : State} {b : Nat} (h : OnlyChanges ps ids s t) (hb : .bus b ∉ ps) :
    t.bus b = s.bus b :=
  h.2.1 (.bus b) hb

theorem OnlyChanges.rd {ps : List Part} {ids : List Nat} {s t : State} {id : Nat} (h : OnlyChanges ps ids s t) (hid : id ∉ ids) :
    t.rd id = s.rd id :=
  h.2.2 id hid

theorem OnlyChanges.clock {ps : List Part} {ids : List Nat} {s t : State} (h : OnlyChanges ps ids s t) (hp : .clock ∉ ps) : t.clock = s.clock :=
  h.2.1 .clock hp

@[simp] theorem exposure_wr (s : State) (id v p : Nat) : (s.wr id v).exposure p = s.exposure p := (wr_only s id v).exposure (by simp)
@[simp] theorem exposure_setBus (s : State) (b : Nat) (x : BusSt) (p : Nat) : (s.setBus b x).exposure p = s.exposure p := rfl
@[simp] theorem exposure_at (s : State) (due p : Nat) : (s.at due).exposure p = s.exposure p := rfl
@[simp] theorem exposure_heard (s : State) (r : Req) (p : Nat) : (s.heard r).exposure p = s.exposure p := (heard_only s r).exposure (by simp)

@[simp] theorem bus_wr (s : State) (id v b : Nat) : (s.wr id v).bus b = s.bus b := (wr_only s id v).bus (by simp)
@[simp] theorem bus_setExposure (s : State) (p : Nat) (x : ExpSt) (b : Nat) : (s.setExposure p x).bus b = s.bus b := rfl
@[simp] theorem bus_at (s : State) (due b : Nat) : (s.at due).bus b = s.bus b := rfl
@[simp] theorem bus_heard (s : State) (r : Req) (b : Nat) : (s.heard r).bus b = s.bus b := (heard_only s r).bus (by simp)

@[simp] theorem rd_setBus (s : State) (b : Nat) (x : BusSt) (id : Nat) : (s.setBus b x).rd id = s.rd id := rfl
@[simp] theorem rd_setExposure (s : State) (p : Nat) (x : ExpSt) (id : Nat) : (s.setExposure p x).rd id = s.rd id := rfl
@[simp] theorem rd_at (s : State) (due id : Nat) : (s.at due).rd id = s.rd id := rfl

theorem sensorBus_of_desc {s : State} {p : Nat} {d : Desc} (h : (s.exposure p).desc = some d) : s.sensorBus p = d.bus := by
  simp [State.sensorBus, h]

/-! ## The parameters of sensor control (Table 09-10) -/

theorem paramOf_pendingChanges {p : Nat} (hp : p < 16) :
    paramOf (Sens.PENDING_CHANGES p) = some ⟨0x28, 0x0006, [], [(0, 15)], .u32, .ro, 0, some (0, 16), .immediate⟩ :=
  (by decide : ∀ i : Fin 16, paramOf (Sens.PENDING_CHANGES i) = _) ⟨p, hp⟩

theorem paramOf_controlState {p : Nat} (hp : p < 16) :
    paramOf (Sens.CONTROL_STATE p) = some ⟨0x28, 0x0005, [], [(0, 15)], .enum, .ro, 1, some (0, 1), .immediate⟩ :=
  (by decide : ∀ i : Fin 16, paramOf (Sens.CONTROL_STATE i) = _) ⟨p, hp⟩

theorem paramOf_lastWriteMargin {p : Nat} (hp : p < 16) :
    paramOf (Sens.LAST_WRITE_MARGIN p) = some ⟨0x28, 0x000A, [], [(0, 15)], .s32, .ro, 0, none, .immediate⟩ :=
  (by decide : ∀ i : Fin 16, paramOf (Sens.LAST_WRITE_MARGIN i) = _) ⟨p, hp⟩

theorem paramOf_busState {b : Nat} (hb : b < 12) :
    paramOf (I2c.BUS_STATE b) = some ⟨0x70, 0x0012, [], [(0, 11)], .enum, .ro, 0, some (0, 6), .immediate⟩ :=
  (by decide : ∀ i : Fin 12, paramOf (I2c.BUS_STATE i) = _) ⟨b, hb⟩

/-- The counter of the outcome of a change: applied, shifted, else past (R255). -/
def outcomeCounter (p result : Nat) : Nat :=
  if result = 0 then Sens.EXPOSE_APPLIED p else if result = 1 then Sens.EXPOSE_SHIFTED p else Sens.EXPOSE_PAST p

theorem paramOf_outcomeCounter {p : Nat} (hp : p < 16) (result : Nat) :
    ∃ q, paramOf (outcomeCounter p result) = some q ∧ q.fixed = false ∧ q.type = .u64 := by
  have hrow (id : Fin 16 → Nat) (n : Nat) (h : ∀ i, paramOf (id i) = some ⟨0x28, n, [], [(0, 15)], .u64, .ro, 0, none, .immediate⟩) :
      ∃ q, paramOf (id ⟨p, hp⟩) = some q ∧ q.fixed = false ∧ q.type = .u64 := ⟨_, h _, by simp [Param.fixed], rfl⟩
  unfold outcomeCounter
  split
  · exact hrow (fun i => Sens.EXPOSE_APPLIED i) 0x30 (by decide)
  · split
    · exact hrow (fun i => Sens.EXPOSE_SHIFTED i) 0x31 (by decide)
    · exact hrow (fun i => Sens.EXPOSE_PAST i) 0x32 (by decide)

/-- What sending counts are no parameters of sensor control. -/
theorem sendIds_not_sens : ∀ id ∈ sendIds, id < 0x28000000 ∨ 0x28100000 ≤ id := by decide

theorem sens_not_mem_sendIds {id : Nat} (h : 0x28000000 ≤ id ∧ id < 0x28100000) : id ∉ sendIds := fun hm => by
  have := sendIds_not_sens id hm
  omega

theorem sens_not_mem_txIds {id : Nat} (h : 0x28000000 ≤ id ∧ id < 0x28100000) : id ∉ txIds := fun hm =>
  sens_not_mem_sendIds h ((by decide : ∀ i ∈ txIds, i ∈ sendIds) id hm)

theorem outcomeCounter_bounds {p : Nat} (hp : p < 16) (result : Nat) :
    Sens.PENDING_CHANGES p < outcomeCounter p result ∧ Sens.LAST_WRITE_MARGIN p < outcomeCounter p result ∧
      0x28000000 ≤ outcomeCounter p result ∧ outcomeCounter p result < 0x28100000 := by
  unfold outcomeCounter
  split
  · simp only [Sens.PENDING_CHANGES, Sens.LAST_WRITE_MARGIN, Sens.EXPOSE_APPLIED]; omega
  · split
    · simp only [Sens.PENDING_CHANGES, Sens.LAST_WRITE_MARGIN, Sens.EXPOSE_SHIFTED]; omega
    · simp only [Sens.PENDING_CHANGES, Sens.LAST_WRITE_MARGIN, Sens.EXPOSE_PAST]; omega

/-! ## What sensor work reads of a state (R250, R253) -/

/-- Two states agree on the windows of a port: the clock, the windows of the frames that have opened, and the ticket of the next frame. -/
structure SameWindows (p : Nat) (s t : State) : Prop where
  clock : t.clock = s.clock
  wins : (t.exposure p).wins = (s.exposure p).wins
  next : t.nextTicket p = s.nextTicket p

namespace SameWindows

variable {p : Nat} {s t : State}

theorem window (h : SameWindows p s t) (w : Nat) : (t.exposure p).window w = (s.exposure p).window w := by
  simp only [ExpSt.window, h.wins]

theorem windowPassed (h : SameWindows p s t) (w : Nat) : t.windowPassed p w = s.windowPassed p w := by
  simp only [State.windowPassed, h.window, h.next, h.clock]

theorem chooseWindow (h : SameWindows p s t) (w : Nat) : t.chooseWindow p w = s.chooseWindow p w := by
  simp only [State.chooseWindow, h.windowPassed]

theorem jobReady {j : SensorJob} (h : SameWindows j.port s t) : t.jobReady j = s.jobReady j := by
  simp only [State.jobReady, h.windowPassed]

theorem jobFits {j : SensorJob} (h : SameWindows j.port s t) : t.jobFits j = s.jobFits j := by
  simp only [State.jobFits, h.window, h.clock]

theorem trans {u : State} (h : SameWindows p s t) (g : SameWindows p t u) : SameWindows p s u :=
  ⟨g.clock.trans h.clock, g.wins.trans h.wins, g.next.trans h.next⟩

theorem setExposure (q : Nat) {x : ExpSt} (h : x.wins = (s.exposure q).wins) : SameWindows p s (s.setExposure q x) where
  clock := rfl
  wins := by
    obtain rfl | hq := eq_or_ne p q
    · rw [exposure_setExposure_same, h]
    · rw [exposure_setExposure_other hq]
  next := rfl

end SameWindows

theorem OnlyChanges.sameWindows {ps : List Part} {ids : List Nat} {s t : State} {p : Nat} (h : OnlyChanges ps ids s t) (hclock : .clock ∉ ps)
    (hp : .exposure p ∉ ps) (hticket : ∀ k, .ticketing k ∉ ps) (hctx : Ing.CONTEXT p ∉ ids) : SameWindows p s t where
  clock := h.clock hclock
  wins := congrArg ExpSt.wins (h.exposure hp)
  next := by rw [State.nextTicket, State.nextTicket, h.rd hctx, show t.ticketing _ = _ from h.2.1 (.ticketing _) (hticket _)]

theorem windowPassed_of_chooseWindow {s : State} {p w0 w : Nat} {sh : Bool} (h : s.chooseWindow p w0 = some (w, sh)) :
    s.windowPassed p w = false := by
  unfold State.chooseWindow at h
  split at h
  · next h0 => cases h; exact h0
  · split at h
    · next h1 => cases h; exact h1
    · cases h

/-! ## A bus on which nothing starts (R280) -/

/-- Nothing can start on a bus: it is busy, in a state that waits for its lines, or no work is ready on it. -/
def State.startsNothing (s : State) (b : Nat) : Prop :=
  (s.bus b).cur.isSome = true ∨ s.rd (I2c.BUS_STATE b) ∈ [1, 4, 5] ∨
    (∀ j ∈ (s.bus b).sensor, s.jobReady j = false) ∧ (s.bus b).hosts = []

theorem nextJob_none {s : State} {b : Nat} (h : ∀ j ∈ (s.bus b).sensor, s.jobReady j = false) : s.nextJob b = none := by
  have hready : (s.bus b).sensor.find? (fun j => s.jobReady j) = none := List.find?_eq_none.2 fun j hj => by simp [h j hj]
  have hstarted : (s.bus b).sensor.find? (fun j => j.started && s.jobReady j) = none := List.find?_eq_none.2 fun j hj => by simp [h j hj]
  simp only [State.nextJob, hstarted, hready]

theorem kick_nothing {s : State} {b : Nat} (h : s.startsNothing b) (fuel : Nat) : State.kick b (fuel + 1) s = s := by
  obtain hcur | hst | ⟨hjobs, hhosts⟩ := h
  · simp [State.kick, hcur]
  · simp only [List.mem_cons, List.not_mem_nil, or_false] at hst
    obtain hst | hst | hst := hst <;> simp [State.kick, hst]
  · simp [State.kick, State.offerFails, nextJob_none hjobs, hhosts, BusSt.hostNext, BusSt.host]

theorem kickBus_nothing {s : State} {b : Nat} (h : s.startsNothing b) : s.kickBus b = s := by
  unfold State.kickBus
  split
  · exact kick_nothing h _
  · rfl

/-! ## A transaction that starts (R251, R280) -/

theorem nextJob_single {s : State} {b : Nat} {j : SensorJob} (h : (s.bus b).sensor = [j]) (hready : s.jobReady j = true) :
    s.nextJob b = some j := by
  cases hstarted : j.started <;> simp [State.nextJob, h, hready, hstarted]

/-- The sensor work that goes on starts its transaction on the idle bus, where it ends in its window. -/
theorem kickBus_starts {s : State} {b : Nat} {j : SensorJob} {x : Xact} {xs : List SensorStep} (hruns : s.i2cRuns = true)
    (hcur : (s.bus b).cur = none) (hst : s.rd (I2c.BUS_STATE b) = 2) (hjob : s.nextJob b = some j) (hsteps : j.steps = .xact x :: xs)
    (hfits : s.jobFits j = true) : s.kickBus b = (s.updateJob b (s.begun j)).busStart b false j.serial x := by
  rw [State.kickBus, if_pos hruns, State.kick]
  simp [hcur, hst, hjob, hsteps, hfits]

theorem busStart_spec {s : State} {b : Nat} (hb : b < 12) (host : Bool) (job : Nat) {x : Xact} (htries : x.tries = 0) :
    let t := s.busStart b host job x
    t.rd (I2c.BUS_STATE b) = 3 ∧ (t.bus b).cur = some (host, x) ∧ (t.bus b).sensor = (s.bus b).sensor ∧ t.out = .i2c b x.wire :: s.out ∧
      OnlyChanges [.bus b, .out] [I2c.BUS_STATE b] s t := by
  let u := (s.setBus b { s.bus b with cur := some (host, x), curOf := job }).busTo b 3
  have ht : s.busStart b host job x = u.emit (.i2c b x.wire) := by rw [State.busStart, if_pos htries]
  have hlast : OnlyChanges [.out] [] u (s.busStart b host job x) := ht ▸ emitQuiet_only u rfl
  have hu : OnlyChanges [.bus b] [I2c.BUS_STATE b] s u :=
    (((setBus_only ..).trans (setBus_only ..)).trans (wr_only ..)).mono (by simp) (by simp)
  have hbus : (s.busStart b host job x).bus b = u.bus b := hlast.bus (by simp)
  refine ⟨?_, ?_, ?_, ?_, (hu.trans hlast).mono (by simp) (by simp)⟩
  · rw [hlast.rd (by simp)]
    exact rd_wr_same (paramOf_busState hb) rfl
  · rw [hbus]; simp [u, State.busTo]
  · rw [hbus]; simp [u, State.busTo]
  · rw [ht, emit_out, show u.out = s.out from hu.2.1 .out (by simp)]

theorem begun_same (s : State) (j : SensorJob) :
    (s.begun j).steps = j.steps ∧ (s.begun j).port = j.port ∧ (s.begun j).kind = j.kind ∧ (s.begun j).serial = j.serial := by
  unfold State.begun
  split
  · simp
  · split <;> simp

theorem begun_started (s : State) {j : SensorJob} (h : j.kind ≠ .mode) : (s.begun j).started = true := by
  unfold State.begun
  split
  · contradiction
  · split
    · assumption
    · rfl

/-! ## Sensor work on the queue of a bus -/

/-- Work that is queued stands among the work of its bus. -/
theorem pushJob_spec {s : State} {p b : Nat} (hb : s.sensorBus p = b) (j : SensorJob) :
    let t := s.pushJob p j
    (∃ n, (t.bus b).sensor.Perm ({ j with serial := n } :: (s.bus b).sensor)) ∧ (t.bus b).cur = (s.bus b).cur ∧
      (t.bus b).hosts = (s.bus b).hosts ∧ OnlyChanges [.bus b] [] s t := by
  subst hb
  refine ⟨⟨(s.bus (s.sensorBus p)).serials + 1, ?_⟩, by simp [State.pushJob], by simp [State.pushJob], setBus_only ..⟩
  simp only [State.pushJob, bus_setBus_same]
  exact List.perm_middle.trans (by rw [List.takeWhile_append_dropWhile])

theorem dropJob_only (s : State) (p : Nat) (k : SensorKind) : OnlyChanges [.bus (s.sensorBus p)] [] s (s.dropJob p k) := setBus_only ..

/-- The only work of a bus is done and leaves it empty. -/
theorem dropJob_single {s : State} {p b : Nat} (hb : s.sensorBus p = b) {j : SensorJob} (h : (s.bus b).sensor = [j]) (hp : j.port = p) :
    (s.dropJob p j.kind).bus b = { s.bus b with sensor := [] } := by
  simp [State.dropJob, hb, h, hp]

theorem updateJob_single {s : State} {b : Nat} {j k : SensorJob} (h : (s.bus b).sensor = [j]) (hk : k.serial = j.serial) :
    ((s.updateJob b k).bus b).sensor = [k] := by
  simp [State.updateJob, h, hk]

/-! ## CONTROL_STATE (R266) -/

theorem controlState_only (s : State) (p v : Nat) : OnlyChanges sending (Sens.CONTROL_STATE p :: sendIds) s (s.controlState p v) := by
  unfold State.controlState
  split
  · exact (OnlyChanges.refl s).mono (by simp) (by simp)
  · exact ((wr_only s _ v).trans (notify_only ..)).mono (by simp) (by simp)

theorem rd_controlState_known {p : Nat} (hp : p < 16) (s : State) : (s.controlState p 0).rd (Sens.CONTROL_STATE p) = 0 := by
  unfold State.controlState
  split
  · assumption
  · rw [(notify_only ..).rd (sens_not_mem_sendIds (by simp only [Sens.CONTROL_STATE]; omega)), rd_wr_same (paramOf_controlState hp) rfl]
    rfl

/-! ## Changes that are decided (R255, Table 09-6) -/

/-- A change that a request waits for is decided as applied, shifted or past: it is pending no more, it is counted, and the request is
answered. -/
theorem decideChange_spec {s : State} {p : Nat} {c : Change} {r : Req} {result : Nat} (hp : p < 16) (hr : c.r = some r) (hresult : result ≤ 2)
    (err writeEnd : Nat) :
    let t := s.decideChange p c result err writeEnd
    (∃ pl, t.replied r 0x50 (resultStatus result) pl) ∧
      t.exposure p = { s.exposure p with pend := (s.exposure p).pend.filter fun e => e.id != c.id } ∧
      t.rd (outcomeCounter p result) = countUp (s.rd (outcomeCounter p result)) 1 ∧
      OnlyChanges [.exposure p, .out, .free, .sessions] (Sens.PENDING_CHANGES p :: outcomeCounter p result :: txIds) s t := by
  obtain ⟨q, hq, hfixed, htype⟩ := paramOf_outcomeCounter hp result
  obtain ⟨hpending, -, hbounds⟩ := outcomeCounter_bounds hp result
  let x : ExpSt := { s.exposure p with pend := (s.exposure p).pend.filter fun e => e.id != c.id }
  let u := (s.setExposure p x).wr (Sens.PENDING_CHANGES p) x.pend.length
  let v := u.count (outcomeCounter p result)
  have heq : s.decideChange p c result err writeEnd = v.reply r 0x50 (resultStatus result) (v.exposeReply p c result err writeEnd) := by
    have hcounted : (if result = 0 then u.count (Sens.EXPOSE_APPLIED p) else if result = 1 then u.count (Sens.EXPOSE_SHIFTED p)
        else if result = 2 then u.count (Sens.EXPOSE_PAST p) else u) = v := by
      obtain rfl | rfl | rfl : result = 0 ∨ result = 1 ∨ result = 2 := by omega
      all_goals rfl
    simp only [State.decideChange, hr, exposure_setExposure_same]
    rw [hcounted]
  have hu : OnlyChanges [.exposure p] [Sens.PENDING_CHANGES p] s u := ((setExposure_only s p x).trans (wr_only ..)).mono (by simp) (by simp)
  have hv : OnlyChanges [] [outcomeCounter p result] u v := count_only ..
  have ht := reply_only v r 0x50 (resultStatus result) (v.exposeReply p c result err writeEnd)
  rw [← heq] at ht
  refine ⟨⟨_, heq ▸ replied_reply ..⟩, ?_, ?_, ((hu.trans hv).trans ht).mono (by simp) (by simp)⟩
  · rw [ht.exposure (by simp), hv.exposure (by simp)]
    simp [u, x]
  · rw [ht.rd (sens_not_mem_txIds hbounds), rd_count_same hq hfixed htype, hu.rd (by simp; omega)]

/-! ## EXPOSE_REQUEST (R252 to R255) -/

/-- A payload that has not the form of Table 09-7. -/
def ExposeMalformed (b : List Byte) : Prop :=
  b.length < 16 ∨ leAt b 2 1 = 0 ∨ 16 < leAt b 2 1 ∨ b.length ≠ 16 + 8 * leAt b 2 1 ∨ 16 ≤ leAt b 0 1

theorem not_exposeMalformed {b : List Byte} (h1 : 1 ≤ leAt b 2 1) (h16 : leAt b 2 1 ≤ 16) (hlen : b.length = 16 + 8 * leAt b 2 1)
    (hp : leAt b 0 1 < 16) : ¬ExposeMalformed b := by
  unfold ExposeMalformed
  omega

section

variable {s : State} {r : Req} {b : List Byte}

theorem exposeRequest_malformed (ht : s.takes r 0x50) (h : ExposeMalformed b) :
    exec (.exposeRequest r b) s = .next ((s.heard r).reply r 0x50 Status.BAD_PARAM []) :=
  congrArg Host.Outcome.next ((request_of_takes _ ht).trans (if_pos h))

theorem exposeRequest_notOwner (ht : s.takes r 0x50) (hform : ¬ExposeMalformed b) (howns : s.owns r.sess (2 + leAt b 0 1) = false) :
    exec (.exposeRequest r b) s = .next ((s.heard r).reply r 0x50 Status.NOT_OWNER []) :=
  congrArg Host.Outcome.next ((request_of_takes _ ht).trans ((if_neg hform).trans (if_pos ((heard_owns ..).trans howns))))

/-- A request that binds no staged values and passes the checks is accepted. -/
theorem exposeRequest_accepted {codes : List (Nat × Nat)} (ht : s.takes r 0x50) (hform : ¬ExposeMalformed b)
    (howns : s.owns r.sess (2 + leAt b 0 1) = true) (hbind : leAt b 1 1 % 2 = 0)
    (hcheck : (s.heard r).exposeCheck (leAt b 0 1) (exposeControls b) = (Status.OK, codes))
    (htarget : (s.heard r).targetCheck (leAt b 0 1) (leAt b 8 8) = Status.OK) :
    exec (.exposeRequest r b) s = .next ((s.heard r).exposeAccept r (leAt b 0 1) (leAt b 8 8) codes []) := by
  refine congrArg Host.Outcome.next ((request_of_takes _ ht).trans ((if_neg hform).trans ?_))
  have howned : ¬(s.heard r).owns r.sess (2 + leAt b 0 1) = false := by simp [howns]
  simp [howned, hbind, hcheck, htarget, State.bindStatus, firstBad]

end

/-! ## Changes that are accepted (R253, R255) -/

/-- The window ticket that a TARGET aims at (R252, R253). -/
def State.aimedWindow (s : State) (p target : Nat) (d : Desc) : Nat :=
  if bit target 40 = false then s.asapWindow p else (bits target 31 0 + 2 ^ 32 - d.delay) % 2 ^ 32

/-- The change of a request, with the next EXPOSURE_ID, for the window that its TARGET aims at. -/
def State.newChange (s : State) (r : Req) (p target : Nat) (d : Desc) (codes : List (Nat × Nat)) : Change :=
  let w0 := s.aimedWindow p target d
  let t0 := (w0 + d.delay) % 2 ^ 32
  { id := (s.exposure p).nextId, r := some r, codes := codes, target := t0, win := w0, first := t0 }

/-- The state in which a new change is pending. -/
def State.withPending (s : State) (p : Nat) (c : Change) : State :=
  (s.setExposure p { s.exposure p with nextId := ((s.exposure p).nextId + 1) % 2 ^ 32, pend := (s.exposure p).pend ++ [c] }).wr
    (Sens.PENDING_CHANGES p) ((s.exposure p).pend.length + 1)

theorem withPending_only (s : State) (p : Nat) (c : Change) : OnlyChanges [.exposure p] [Sens.PENDING_CHANGES p] s (s.withPending p c) :=
  ((setExposure_only ..).trans (wr_only ..)).mono (by simp) (by simp)

theorem withPending_windows (s : State) (p : Nat) (c : Change) : SameWindows p s (s.withPending p c) := by
  refine SameWindows.trans (.setExposure p ?_) ((wr_only ..).sameWindows (by simp) (by simp) (by simp) ?_)
  · rfl
  · simp only [Ing.CONTEXT, Sens.PENDING_CHANGES, List.mem_singleton]
    omega

/-- A new change takes the next EXPOSURE_ID and is pending in the form that its window gives it. -/
theorem pending_spec {s : State} {p : Nat} (hp : p < 16) (hroom : (s.exposure p).pend.length < 16) {c c' : Change} (hid : c'.id = c.id) :
    let t := (s.withPending p c).updateChange p c'
    c' ∈ (t.exposure p).pend ∧ (t.exposure p).nextId = ((s.exposure p).nextId + 1) % 2 ^ 32 ∧ (t.exposure p).desc = (s.exposure p).desc ∧
      t.rd (Sens.PENDING_CHANGES p) = (s.exposure p).pend.length + 1 ∧ SameWindows p s t ∧
      OnlyChanges [.exposure p] [Sens.PENDING_CHANGES p] s t := by
  have hlast : OnlyChanges [.exposure p] [] (s.withPending p c) ((s.withPending p c).updateChange p c') := setExposure_only ..
  refine ⟨?_, ?_, ?_, ?_, (withPending_windows s p c).trans (.setExposure p rfl), ((withPending_only s p c).trans hlast).mono (by simp) (by simp)⟩
  · simp [State.updateChange, State.withPending, hid]
  · simp [State.updateChange, State.withPending]
  · simp [State.updateChange, State.withPending]
  · rw [hlast.rd (by simp), State.withPending, rd_wr_same (paramOf_pendingChanges hp) rfl]
    exact Nat.mod_eq_of_lt (by simp only [PType.width]; omega)

/-- The sensor work that writes a change (R251). -/
def State.changeJob (s : State) (p : Nat) (d : Desc) (c : Change) : SensorJob :=
  { port := p, kind := .change c.id, win := c.win, steps := (d.writeSet (s.pageCode d.bus) c.codes).map SensorStep.xact }

theorem armChange_eq {s : State} {p : Nat} {d : Desc} (hd : (s.exposure p).desc = some d) (c : Change) :
    s.armChange p c = s.pushJob p (s.changeJob p d c) := by
  simp only [State.armChange, hd, State.changeJob]

theorem changeJob_same {s t : State} {p : Nat} (h : OnlyChanges [.exposure p] [Sens.PENDING_CHANGES p] s t) (d : Desc) (c : Change) :
    t.changeJob p d c = s.changeJob p d c := by
  rw [State.changeJob, State.pageCode, h.rd (by simp only [I2c.SENSOR_PAGE_SIZE, Sens.PENDING_CHANGES, List.mem_singleton]; omega)]
  rfl

/-- A set whose window has not opened is not ready. -/
theorem jobReady_closed {s : State} {j : SensorJob} (hkind : j.kind ≠ .mode) (hstarted : j.started = false)
    (hclosed : s.windowPassed j.port j.win = false) : s.jobReady j = false := by
  simp [State.jobReady, hstarted, hclosed]

/-- A change passes the checks only where fewer than 16 others are pending (R254). -/
theorem pend_room {s : State} {p : Nat} {ctls codes : List (Nat × Nat)} (h : s.exposeCheck p ctls = (Status.OK, codes)) :
    (s.exposure p).pend.length < 16 := by
  by_contra hfull
  have hne {st : Nat} {l : List (Nat × Nat)} (hst : st ≠ Status.OK) : (st, l) ≠ (Status.OK, codes) := fun e => hst (congrArg Prod.fst e)
  unfold State.exposeCheck at h
  split at h
  · split at h
    · exact hne (by decide) h
    · dsimp only at h
      split at h
      · exact hne (by decide) h
      · exact hne (by decide) ((if_pos (by omega)).symm.trans h)
  · exact hne (by decide) h

section

variable {s : State} {p : Nat} {d : Desc} (hd : (s.exposure p).desc = some d) (r : Req) (target : Nat) (codes : List (Nat × Nat))

include hd

theorem exposeAccept_eq :
    let c := s.newChange r p target d codes
    let u := s.withPending p c
    s.exposeAccept r p target codes [] =
      match s.chooseWindow p (s.aimedWindow p target d) with
      | none => u.decideChange p c 2 0 0
      | some (w, sh) =>
        let c' := { c with win := w, first := (w + d.delay) % 2 ^ 32, shifted := sh }
        ((u.updateChange p c').armChange p c').kickBus d.bus := by
  intro c u
  rw [← (withPending_windows s p c).chooseWindow]
  unfold State.exposeAccept
  split
  · next hnone => simp [hd] at hnone
  · next e he =>
    obtain rfl : d = e := Option.some.inj (hd.symm.trans he)
    simp only [exposure_setExposure_same, List.length_append, List.length_singleton]
    rfl

/-- No window is left: the change is decided as past at once. -/
theorem exposeAccept_past (hp : p < 16) (hchoose : s.chooseWindow p (s.aimedWindow p target d) = none) :
    let t := s.exposeAccept r p target codes []
    (∃ pl, t.replied r 0x50 Status.TICKET_PAST pl) ∧ t.rd (Sens.EXPOSE_PAST p) = countUp (s.rd (Sens.EXPOSE_PAST p)) 1 ∧
      OnlyChanges [.exposure p, .out, .free, .sessions] (Sens.PENDING_CHANGES p :: Sens.EXPOSE_PAST p :: txIds) s t := by
  let c := s.newChange r p target d codes
  have heq := exposeAccept_eq hd r target codes
  simp only [hchoose] at heq
  obtain ⟨hreply, -, hcount, hframe⟩ := decideChange_spec (s := s.withPending p c) (c := c) (result := 2) hp rfl (by decide) 0 0
  have hpend := withPending_only s p c
  rw [← heq] at hreply hcount hframe
  refine ⟨hreply, hcount.trans ?_, (hpend.trans hframe).mono (by simp) (by simp [outcomeCounter])⟩
  rw [hpend.rd (by simp [outcomeCounter, Sens.EXPOSE_PAST, Sens.PENDING_CHANGES])]
  rfl

/-- A window is left: the change is pending and armed for it, and nothing starts on a bus that is busy, waits for its lines or has no other
work. -/
theorem exposeAccept_armed {w : Nat} {sh : Bool} (hp : p < 16) (hroom : (s.exposure p).pend.length < 16)
    (hchoose : s.chooseWindow p (s.aimedWindow p target d) = some (w, sh))
    (hbus : (s.bus d.bus).cur.isSome = true ∨ s.rd (I2c.BUS_STATE d.bus) ∈ [1, 4, 5] ∨ (s.bus d.bus).sensor = [] ∧ (s.bus d.bus).hosts = []) :
    let c : Change := { s.newChange r p target d codes with win := w, first := (w + d.delay) % 2 ^ 32, shifted := sh }
    let t := s.exposeAccept r p target codes []
    c ∈ (t.exposure p).pend ∧ (t.exposure p).nextId = ((s.exposure p).nextId + 1) % 2 ^ 32 ∧
      t.rd (Sens.PENDING_CHANGES p) = (s.exposure p).pend.length + 1 ∧
      (∃ n, (t.bus d.bus).sensor.Perm ({ s.changeJob p d c with serial := n } :: (s.bus d.bus).sensor)) ∧
      OnlyChanges [.exposure p, .bus d.bus] [Sens.PENDING_CHANGES p] s t := by
  intro c t
  let c0 := s.newChange r p target d codes
  let u := (s.withPending p c0).updateChange p c
  obtain ⟨hmem, hnext, hdesc, hpending, hwindows, hu⟩ := pending_spec hp hroom (c := c0) (c' := c) rfl
  have hdu : (u.exposure p).desc = some d := hdesc.trans hd
  obtain ⟨⟨n, hperm⟩, hcur, hhosts, harm⟩ := pushJob_spec (sensorBus_of_desc hdu) (s.changeJob p d c)
  rw [← changeJob_same hu d c, ← armChange_eq hdu c, changeJob_same hu d c] at hperm
  rw [← changeJob_same hu d c, ← armChange_eq hdu c] at hcur hhosts harm
  have hall := (hu.trans harm).mono (qs := [.exposure p, .bus d.bus]) (js := [Sens.PENDING_CHANGES p]) (by simp) (by simp)
  rw [hu.bus (by simp)] at hperm hcur hhosts
  have hkick : (u.armChange p c).startsNothing d.bus := by
    obtain hbusy | hwaits | ⟨hsensor, hnohosts⟩ := hbus
    · exact .inl (hcur ▸ hbusy)
    · refine .inr (.inl ?_)
      rwa [hall.rd (by simp only [I2c.BUS_STATE, Sens.PENDING_CHANGES, List.mem_singleton]; omega)]
    · refine .inr (.inr ⟨fun j hj => ?_, hhosts.trans hnohosts⟩)
      rw [hsensor] at hperm
      obtain rfl := List.mem_singleton.1 (hperm.mem_iff.1 hj)
      have harmed : SameWindows p s (u.armChange p c) := hwindows.trans (harm.sameWindows (by simp) (by simp) (by simp) (by simp))
      exact jobReady_closed (by simp [State.changeJob]) rfl ((harmed.windowPassed w).trans (windowPassed_of_chooseWindow hchoose))
  have heq : t = u.armChange p c := by
    have haccept := exposeAccept_eq hd r target codes
    simp only [hchoose] at haccept
    exact haccept.trans (kickBus_nothing hkick)
  rw [heq, harm.exposure (by simp), harm.rd (by simp)]
  exact ⟨hmem, hnext, hpending, ⟨n, hperm⟩, hall⟩

end

section

variable {r : Req} {b : List Byte} {s : State} (ht : s.takes r 0x50) (hform : ¬ExposeMalformed b)
  (howns : s.owns r.sess (2 + leAt b 0 1) = true) (hbind : leAt b 1 1 % 2 = 0)
  {d : Desc} (hd : (s.exposure (leAt b 0 1)).desc = some d) {codes : List (Nat × Nat)}
  (hcheck : (s.heard r).exposeCheck (leAt b 0 1) (exposeControls b) = (Status.OK, codes))
  (htarget : (s.heard r).targetCheck (leAt b 0 1) (leAt b 8 8) = Status.OK)

include ht hform howns hbind hd hcheck htarget

/-- A request whose change finds a window is answered later: the change is pending and armed. -/
theorem exposeRequest_armed {w : Nat} {sh : Bool}
    (hchoose : (s.heard r).chooseWindow (leAt b 0 1) ((s.heard r).aimedWindow (leAt b 0 1) (leAt b 8 8) d) = some (w, sh))
    (hbus : (s.bus d.bus).cur.isSome = true ∨ s.rd (I2c.BUS_STATE d.bus) ∈ [1, 4, 5] ∨ (s.bus d.bus).sensor = [] ∧ (s.bus d.bus).hosts = []) :
    let p := leAt b 0 1
    let x := s.exposure p
    ∃ t c, exec (.exposeRequest r b) s = .next t ∧ c ∈ (t.exposure p).pend ∧ c.id = x.nextId ∧ c.r = some r ∧ c.codes = codes ∧
      c.win = w ∧ c.first = (w + d.delay) % 2 ^ 32 ∧ c.shifted = sh ∧ (t.exposure p).nextId = (x.nextId + 1) % 2 ^ 32 ∧
      t.rd (Sens.PENDING_CHANGES p) = x.pend.length + 1 ∧
      (∃ j, (t.bus d.bus).sensor.Perm (j :: (s.bus d.bus).sensor) ∧ j.port = p ∧ j.kind = .change c.id ∧ j.win = w ∧
        j.steps = (d.writeSet (s.pageCode d.bus) codes).map SensorStep.xact) ∧
      OnlyChanges [.sessions, .exposure p, .bus d.bus] [Sens.PENDING_CHANGES p] s t := by
  intro p x
  have hp : p < 16 := by unfold ExposeMalformed at hform; omega
  obtain ⟨hmem, hnext, hpending, ⟨n, hperm⟩, hframe⟩ := exposeAccept_armed (s := s.heard r) (by rwa [exposure_heard]) r (leAt b 8 8) codes
    hp (pend_room hcheck) hchoose (by rwa [bus_heard, heard_rd])
  rw [exposure_heard] at hnext hpending
  rw [bus_heard] at hperm
  refine ⟨_, _, exposeRequest_accepted ht hform howns hbind hcheck htarget, hmem, ?_, rfl, rfl, rfl, rfl, rfl, hnext, hpending,
    ⟨_, hperm, rfl, rfl, rfl, ?_⟩, (heard_only s r).trans hframe⟩
  · exact congrArg ExpSt.nextId (exposure_heard ..)
  · simp [State.changeJob, State.pageCode, State.newChange]

/-- A request whose change finds no window is answered as past. -/
theorem exposeRequest_past
    (hchoose : (s.heard r).chooseWindow (leAt b 0 1) ((s.heard r).aimedWindow (leAt b 0 1) (leAt b 8 8) d) = none) :
    let p := leAt b 0 1
    ∃ t pl, exec (.exposeRequest r b) s = .next t ∧ t.replied r 0x50 Status.TICKET_PAST pl ∧
      t.rd (Sens.EXPOSE_PAST p) = countUp (s.rd (Sens.EXPOSE_PAST p)) 1 ∧
      OnlyChanges [.sessions, .exposure p, .out, .free] (Sens.PENDING_CHANGES p :: Sens.EXPOSE_PAST p :: txIds) s t := by
  intro p
  have hp : p < 16 := by unfold ExposeMalformed at hform; omega
  obtain ⟨⟨pl, hreply⟩, hcount, hframe⟩ := exposeAccept_past (s := s.heard r) (by rwa [exposure_heard]) r (leAt b 8 8) codes hp hchoose
  rw [heard_rd] at hcount
  exact ⟨_, pl, exposeRequest_accepted ht hform howns hbind hcheck htarget, hreply, hcount,
    ((heard_only s r).trans hframe).mono (by simp) (by simp)⟩

end

/-! ## Write windows (R250, R251, R280) -/

/-- The state in which the opening of the window of a ticket is dealt with. -/
def State.windowSeen (s : State) (p n o : Nat) : State :=
  (s.at o).setExposure p { s.exposure p with winsDone := n :: (s.exposure p).winsDone }

theorem exec_writeWindowOpen {p : Fin 16} {d : Desc} {s : State} (hd : (s.exposure p).desc = some d) {n o cl : Nat}
    (hwindow : (s.exposure p).nextWindow = some (n, o, cl)) (hknown : (s.exposure p).restoring = false) (hcur : (s.bus d.bus).cur = none) :
    exec (.writeWindowOpen p) s = .next ((s.windowSeen p n o).kickBus d.bus) := by
  have hover : (s.windowSeen p n o).hostOverran d.bus p n = s.windowSeen p n o := by
    simp only [State.hostOverran, show ((s.windowSeen p n o).bus d.bus).cur = none from hcur]
  have hsettled : ¬((s.windowSeen p n o).exposure p).restoring = true := by simp [State.windowSeen, hknown]
  simp only [exec, execWriteWindowOpen, Host.Outcome.next.injEq]
  split
  · next e m o' cl' he hw =>
    cases hd.symm.trans he
    cases hwindow.symm.trans hw
    change (if (((s.windowSeen p n o).hostOverran d.bus p n).exposure p).restoring = true then _ else
      (s.windowSeen p n o).hostOverran d.bus p n).kickBus d.bus = _
    rw [hover, if_neg hsettled]
  · next hnone => exact absurd hwindow (hnone d n o cl hd)

/-- A window opens for the work armed for it on an idle bus, which starts. -/
theorem writeWindowOpen_starts {p : Fin 16} {d : Desc} {j : SensorJob} {s : State} (hd : (s.exposure p).desc = some d) (hb : d.bus < 12)
    (hsensor : (s.bus d.bus).sensor = [j]) {n o cl : Nat} {x : Xact} {xs : List SensorStep}
    (hwindow : (s.exposure p).nextWindow = some (n, o, cl)) (hknown : (s.exposure p).restoring = false) (hruns : s.i2cRuns = true)
    (hcur : (s.bus d.bus).cur = none) (hst : s.rd (I2c.BUS_STATE d.bus) = 2) (hready : (s.at o).jobReady j = true)
    (hfits : (s.at o).jobFits j = true) (hsteps : j.steps = .xact x :: xs) (htries : x.tries = 0) :
    ∃ t k, exec (.writeWindowOpen p) s = .next t ∧ t.clock = max s.clock o ∧ t.rd (I2c.BUS_STATE d.bus) = 3 ∧
      (t.bus d.bus).cur = some (false, x) ∧ (t.bus d.bus).sensor = [k] ∧ k.steps = j.steps ∧ k.port = j.port ∧ k.kind = j.kind ∧
      (j.kind ≠ .mode → k.started = true) ∧ t.out = .i2c d.bus x.wire :: s.out ∧ n ∈ (t.exposure p).winsDone ∧
      OnlyChanges [.clock, .bus d.bus, .exposure p, .out] [I2c.BUS_STATE d.bus] s t := by
  let u := s.windowSeen p n o
  obtain ⟨hksteps, hkport, hkkind, hkserial⟩ := begun_same u j
  have hwindows : SameWindows j.port (s.at o) u := .setExposure p.val rfl
  have hjob : u.nextJob d.bus = some j := nextJob_single hsensor (hwindows.jobReady.trans hready)
  let v := u.updateJob d.bus (u.begun j)
  have hkick : u.kickBus d.bus = v.busStart d.bus false j.serial x :=
    kickBus_starts hruns hcur hst hjob hsteps (hwindows.jobFits.trans hfits)
  obtain ⟨hstate, hstarted, hqueue, hout, hstart⟩ := busStart_spec (s := v) hb false j.serial htries
  have hu : OnlyChanges [.clock, .exposure p] [] s u := (at_only s o).trans (setExposure_only ..)
  have hv : OnlyChanges [.bus d.bus] [] u v := setBus_only ..
  rw [← hkick] at hstate hstarted hqueue hout hstart
  have hall := (hu.trans hv).trans hstart
  refine ⟨_, u.begun j, exec_writeWindowOpen hd hwindow hknown hcur, ?_, hstate, hstarted, ?_, hksteps, hkport, hkkind, begun_started u, hout, ?_,
    hall.mono (by simp) (by simp)⟩
  · exact (hv.trans hstart).clock (by simp)
  · exact hqueue.trans (updateJob_single hsensor hkserial)
  · rw [(hv.trans hstart).exposure (by simp)]
    simp [u, State.windowSeen]

/-! ## The last write of a set (R255, R262, R280) -/

theorem ofSigned_lt (i : Int) : ofSigned 32 i < 2 ^ 32 := by
  unfold ofSigned
  omega

/-- The state after the last write of a set: it has left the queue of its bus, and its margin to the end of its window stands. -/
def State.setLeaves (s : State) (p : Nat) (j : SensorJob) : State :=
  (s.dropJob p j.kind).wrS (Sens.LAST_WRITE_MARGIN p) ((j.close : Int) - (s.clock : Int))

/-- Once its only work has left, the bus without host work goes on to nothing. -/
theorem startsNothing_of_left {s t : State} {b : Nat} (hhosts : (s.bus b).hosts = []) (ht : t.bus b = { s.bus b with sensor := [] }) :
    t.startsNothing b := by
  refine .inr (.inr ?_)
  rw [ht]
  exact ⟨by simp, hhosts⟩

section

variable {p : Fin 16} {d : Desc} {j : SensorJob} {s : State} (hd : (s.exposure p).desc = some d) (hsensor : (s.bus d.bus).sensor = [j])
  (hport : j.port = p)

include hd hsensor hport

theorem setLeaves_spec :
    (s.setLeaves p j).bus d.bus = { s.bus d.bus with sensor := [] } ∧
      (s.setLeaves p j).rd (Sens.LAST_WRITE_MARGIN p) = ofSigned 32 ((j.close : Int) - (s.clock : Int)) ∧
      OnlyChanges [.bus d.bus] [Sens.LAST_WRITE_MARGIN p] s (s.setLeaves p j) := by
  have hbus := sensorBus_of_desc hd
  refine ⟨?_, ?_, ?_⟩
  · rw [State.setLeaves, State.wrS, bus_wr, dropJob_single hbus hsensor hport]
  · rw [State.setLeaves, State.wrS, rd_wr_same (paramOf_lastWriteMargin p.isLt) rfl]
    exact Nat.mod_eq_of_lt (ofSigned_lt _)
  · exact hbus ▸ ((dropJob_only s p j.kind).trans (wr_only ..)).mono (by simp) (by simp)

theorem exec_writeSetComplete (hkind : j.kind ≠ .mode) (hsteps : j.steps = []) (hstarted : j.started = true) :
    exec (.writeSetComplete p) s = .next (((s.setLeaves p j).setWritten p j.kind).kickBus d.bus) := by
  have hfind : (s.bus d.bus).sensor.find? (fun j => j.port == p.val && j.kind != .mode && j.steps.isEmpty && j.started) = some j := by
    simp [hsensor, hport, hkind, hsteps, hstarted]
  simp only [exec, execWriteSetComplete, sensorBus_of_desc hd, hfind]
  rfl

end

theorem pushIsp_only (s : State) (p first : Nat) (vals : List (Nat × Nat)) : OnlyChanges [.exposure p] [] s (s.pushIsp p first vals) := by
  unfold State.pushIsp
  split
  · exact (OnlyChanges.refl s).mono (by simp) (by simp)
  · exact setExposure_only ..

theorem pushIsp_exposure (s : State) (p first : Nat) (vals : List (Nat × Nat)) :
    ∃ l, (s.pushIsp p first vals).exposure p = { s.exposure p with isp := l } := by
  unfold State.pushIsp
  split
  · exact ⟨(s.exposure p).isp, rfl⟩
  · exact ⟨_, exposure_setExposure_same ..⟩

/-- A change is in the sensor: it waits for its first frame, is counted as applied or as shifted, and its request is answered. -/
theorem setWritten_change {s : State} {p id : Nat} {c : Change} {r : Req} (hp : p < 16)
    (hfind : (s.exposure p).pend.find? (fun c => c.id == id) = some c) (hr : c.r = some r) :
    let t := s.setWritten p (.change id)
    let counter := if c.shifted then Sens.EXPOSE_SHIFTED p else Sens.EXPOSE_APPLIED p
    (t.exposure p).waiting = (s.exposure p).waiting ++ [{ c with written := true }] ∧
      (t.exposure p).pend = (s.exposure p).pend.filter (fun e => e.id != c.id) ∧ t.rd counter = countUp (s.rd counter) 1 ∧
      (∃ pl, t.replied r 0x50 (if c.shifted then Status.TICKET_SHIFTED else Status.OK) pl) ∧
      OnlyChanges [.exposure p, .out, .free, .sessions] (Sens.PENDING_CHANGES p :: counter :: txIds) s t := by
  intro t counter
  let result := if c.shifted then 1 else 0
  let u := s.setExposure p { s.exposure p with
    waiting := (s.exposure p).waiting ++ [{ c with written := true }], sentId := c.id
    sent := c.codes.foldl (fun t e => tins t e.1 e.2) (s.exposure p).sent }
  let v := u.pushIsp p c.first c.isp
  have heq : t = v.decideChange p { c with written := true } result 0 v.deviceTime := by
    simp only [t, State.setWritten, hfind]
    rfl
  have hcounter : outcomeCounter p result = counter := by
    cases hshift : c.shifted <;> simp [result, counter, hshift, outcomeCounter]
  have hstatus : resultStatus result = if c.shifted then Status.TICKET_SHIFTED else Status.OK := by
    cases hshift : c.shifted <;> simp [result, hshift, resultStatus]
  obtain ⟨l, hisp⟩ := pushIsp_exposure u p c.first c.isp
  have hv : OnlyChanges [.exposure p] [] s v := (setExposure_only ..).then (pushIsp_only ..)
  obtain ⟨hreply, hexpo, hcount, hframe⟩ := decideChange_spec (s := v) (c := { c with written := true }) (result := result) hp hr
    (by simp only [result]; split <;> decide) 0 v.deviceTime
  rw [← heq, hstatus] at hreply
  rw [← heq, hisp] at hexpo
  rw [← heq, hcounter, hv.rd (by simp)] at hcount
  rw [← heq, hcounter] at hframe
  refine ⟨?_, ?_, hcount, hreply, (hv.trans hframe).mono (by simp) (by simp)⟩
  · rw [hexpo]; simp [u]
  · rw [hexpo]; simp [u]

/-- A full set is in the sensor: its values are known. -/
theorem setWritten_restore {s : State} {p : Nat} (hp : p < 16) :
    let t := s.setWritten p .restore
    (t.exposure p).restoring = false ∧ t.rd (Sens.CONTROL_STATE p) = 0 ∧
      OnlyChanges (.exposure p :: sending) (Sens.CONTROL_STATE p :: sendIds) s t := by
  refine ⟨?_, rd_controlState_known hp _, ((setExposure_only ..).trans (controlState_only ..)).mono (by simp) (by simp)⟩
  simp only [State.setWritten]
  rw [(controlState_only ..).exposure (by simp [sending]), exposure_setExposure_same]

/-- A set of changes has been written, and the bus goes on to nothing. -/
theorem writeSetComplete_change {p : Fin 16} {d : Desc} {j : SensorJob} {s : State} (hd : (s.exposure p).desc = some d)
    (hsensor : (s.bus d.bus).sensor = [j]) (hport : j.port = p) (hsteps : j.steps = []) (hstarted : j.started = true)
    (hhosts : (s.bus d.bus).hosts = []) {id : Nat} {c : Change} {r : Req} (hkind : j.kind = .change id)
    (hfind : (s.exposure p).pend.find? (fun c => c.id == id) = some c) (hr : c.r = some r) :
    ∃ t pl, exec (.writeSetComplete p) s = .next t ∧ (t.bus d.bus).sensor = [] ∧
      t.rd (Sens.LAST_WRITE_MARGIN p) = ofSigned 32 ((j.close : Int) - (s.clock : Int)) ∧
      (t.exposure p).waiting = (s.exposure p).waiting ++ [{ c with written := true }] ∧
      (t.exposure p).pend = (s.exposure p).pend.filter (fun e => e.id != c.id) ∧
      t.rd (if c.shifted then Sens.EXPOSE_SHIFTED p else Sens.EXPOSE_APPLIED p) =
        countUp (s.rd (if c.shifted then Sens.EXPOSE_SHIFTED p else Sens.EXPOSE_APPLIED p)) 1 ∧
      t.replied r 0x50 (if c.shifted then Status.TICKET_SHIFTED else Status.OK) pl ∧
      OnlyChanges [.exposure p, .bus d.bus, .out, .free, .sessions] (Sens.LAST_WRITE_MARGIN p :: Sens.PENDING_CHANGES p ::
        Sens.EXPOSE_SHIFTED p :: Sens.EXPOSE_APPLIED p :: txIds) s t := by
  obtain ⟨hbus, hmargin, hleaves⟩ := setLeaves_spec hd hsensor hport
  rw [← hleaves.exposure (by simp)] at hfind
  obtain ⟨hwaiting, hpend, hcount, ⟨pl, hreply⟩, hframe⟩ := setWritten_change p.isLt hfind hr
  have hexec := exec_writeSetComplete hd hsensor hport (by simp [hkind]) hsteps hstarted
  rw [hkind, kickBus_nothing (startsNothing_of_left hhosts ((hframe.bus (by simp)).trans hbus))] at hexec
  rw [hleaves.exposure (by simp)] at hwaiting hpend
  have hcounter : Sens.LAST_WRITE_MARGIN p < if c.shifted then Sens.EXPOSE_SHIFTED p else Sens.EXPOSE_APPLIED p := by
    split <;> simp [Sens.LAST_WRITE_MARGIN, Sens.EXPOSE_SHIFTED, Sens.EXPOSE_APPLIED]
  have hpending : Sens.LAST_WRITE_MARGIN p ≠ Sens.PENDING_CHANGES p := by simp [Sens.LAST_WRITE_MARGIN, Sens.PENDING_CHANGES]
  have hsent : Sens.LAST_WRITE_MARGIN p ∉ txIds := sens_not_mem_txIds (by simp only [Sens.LAST_WRITE_MARGIN]; omega)
  refine ⟨_, pl, hexec, ?_, ?_, hwaiting, hpend, hcount.trans ?_, hreply, (hleaves.trans hframe).mono (by simp) ?_⟩
  · rw [hframe.bus (by simp), hbus]
  · rw [hframe.rd (by simp [hpending, hcounter.ne, hsent]), hmargin]
  · rw [hleaves.rd (by simpa using hcounter.ne')]
  · cases c.shifted <;> simp +contextual

/-- The full set has been written, and the bus goes on to nothing. -/
theorem writeSetComplete_restore {p : Fin 16} {d : Desc} {j : SensorJob} {s : State} (hd : (s.exposure p).desc = some d)
    (hsensor : (s.bus d.bus).sensor = [j]) (hport : j.port = p) (hsteps : j.steps = []) (hstarted : j.started = true)
    (hhosts : (s.bus d.bus).hosts = []) (hkind : j.kind = .restore) :
    ∃ t, exec (.writeSetComplete p) s = .next t ∧ (t.bus d.bus).sensor = [] ∧ (t.exposure p).restoring = false ∧
      t.rd (Sens.CONTROL_STATE p) = 0 ∧ t.rd (Sens.LAST_WRITE_MARGIN p) = ofSigned 32 ((j.close : Int) - (s.clock : Int)) ∧
      OnlyChanges (.exposure p :: .bus d.bus :: sending) (Sens.LAST_WRITE_MARGIN p :: Sens.CONTROL_STATE p :: sendIds) s t := by
  obtain ⟨hbus, hmargin, hleaves⟩ := setLeaves_spec hd hsensor hport
  obtain ⟨hknown, hstate, hframe⟩ := setWritten_restore (s := s.setLeaves p j) p.isLt
  have hbus' := (hframe.bus (b := d.bus) (by simp [sending])).trans hbus
  have hexec := exec_writeSetComplete hd hsensor hport (by simp [hkind]) hsteps hstarted
  rw [hkind, kickBus_nothing (startsNothing_of_left hhosts hbus')] at hexec
  have hstate' : Sens.LAST_WRITE_MARGIN p ≠ Sens.CONTROL_STATE p := by simp [Sens.LAST_WRITE_MARGIN, Sens.CONTROL_STATE]
  have hsent : Sens.LAST_WRITE_MARGIN p ∉ sendIds := sens_not_mem_sendIds (by simp only [Sens.LAST_WRITE_MARGIN]; omega)
  refine ⟨_, hexec, by rw [hbus'], hknown, hstate, ?_, (hleaves.trans hframe).mono (by simp +contextual) (by simp +contextual)⟩
  rw [hframe.rd (by simp [hstate', hsent]), hmargin]

/-! ## Mode sequences (R248, R249) -/

/-- The values of a mode are in the sensor: they are known, and frames carry LATE_BIND for the delay of the sensor. -/
def ExpSt.modeWritten (x : ExpSt) (d : Desc) : ExpSt :=
  { x with
    defaults := x.defaults.map fun c => { c with written := true }
    sent := d.defaults.foldl (fun t e => tins t e.1 e.2) []
    sentId := match x.defaults with | some c => c.id | none => x.sentId
    restoring := false, lateCount := max x.lateCount (d.delay - 1) }

section

variable {p : Fin 16} {d : Desc} {j : SensorJob} {s : State} (hd : (s.exposure p).desc = some d) (hsensor : (s.bus d.bus).sensor = [j])
  (hport : j.port = p) (hkind : j.kind = .mode)

include hd hsensor hport hkind

theorem exec_modeSequenceDone (hsteps : j.steps = []) :
    exec (.modeSequenceDone p) s =
      .next ((((s.dropJob p .mode).setExposure p ((s.exposure p).modeWritten d)).controlState p 0).kickBus d.bus) := by
  have hfind : (s.bus d.bus).sensor.find? (fun j => j.port == p.val && j.kind == .mode && j.steps.isEmpty) = some j := by
    simp [hsensor, hport, hkind, hsteps]
  simp only [exec, execModeSequenceDone, sensorBus_of_desc hd, hfind, Host.Outcome.next.injEq]
  split
  · next e he hde =>
    cases hd.symm.trans hde
    rfl
  · next hnone => exact absurd hd (hnone j d rfl)

theorem modeSequenceDone_known (hsteps : j.steps = []) (hhosts : (s.bus d.bus).hosts = []) :
    ∃ t, exec (.modeSequenceDone p) s = .next t ∧ (t.bus d.bus).sensor = [] ∧ t.rd (Sens.CONTROL_STATE p) = 0 ∧
      (t.exposure p).restoring = false ∧ (t.exposure p).lateCount = max (s.exposure p).lateCount (d.delay - 1) ∧
      (t.exposure p).defaults = (s.exposure p).defaults.map (fun c => { c with written := true }) ∧
      OnlyChanges (.exposure p :: .bus d.bus :: sending) (Sens.CONTROL_STATE p :: sendIds) s t := by
  let u := (s.dropJob p .mode).setExposure p ((s.exposure p).modeWritten d)
  have hb := sensorBus_of_desc hd
  have hu : OnlyChanges [.bus d.bus, .exposure p] [] s u := hb ▸ (dropJob_only s p .mode).trans (setExposure_only ..)
  have hcontrol := controlState_only u p 0
  have hbus : (u.controlState p 0).bus d.bus = { s.bus d.bus with sensor := [] } := by
    rw [hcontrol.bus (by simp [sending]), ← dropJob_single hb hsensor hport, hkind]
    rfl
  have hexpo : (u.controlState p 0).exposure p = (s.exposure p).modeWritten d :=
    (hcontrol.exposure (by simp [sending])).trans (exposure_setExposure_same ..)
  have hexec := exec_modeSequenceDone hd hsensor hport hkind hsteps
  rw [kickBus_nothing (startsNothing_of_left hhosts hbus)] at hexec
  refine ⟨_, hexec, by rw [hbus], rd_controlState_known p.isLt u, ?_, ?_, ?_, (hu.trans hcontrol).mono (by simp +contextual) (by simp)⟩
  all_goals rw [hexpo]; rfl

/-- A WAIT that is over leaves the steps that follow it to the bus once it is free. -/
theorem sequenceWaitEnd_goesOn {w : Nat} (hwait : j.waitUntil = some w) (hst : s.rd (I2c.BUS_STATE d.bus) = 4) :
    ∃ t, exec (.sequenceWaitEnd p) s = .next t ∧ t.clock = max s.clock w ∧
      (t.bus d.bus).sensor = [{ j with waitUntil := none, steps := j.steps.drop 1 }] ∧ OnlyChanges [.clock, .bus d.bus] [] s t := by
  have hfind : (s.bus d.bus).sensor.find? (fun j => j.port == p.val && j.kind == .mode && j.waitUntil.isSome) = some j := by
    simp [hsensor, hport, hkind, hwait]
  have hexec : exec (.sequenceWaitEnd p) s =
      .next (((s.at w).updateJob d.bus { j with waitUntil := none, steps := j.steps.drop 1 }).kickBus d.bus) := by
    simp only [exec, execSequenceWaitEnd, sensorBus_of_desc hd, hfind, hwait, Option.getD_some]
  have hkick : ((s.at w).updateJob d.bus { j with waitUntil := none, steps := j.steps.drop 1 }).startsNothing d.bus :=
    .inr (.inl (by simp [State.updateJob, hst]))
  rw [kickBus_nothing hkick] at hexec
  exact ⟨_, hexec, rfl, updateJob_single hsensor rfl, (at_only s w).trans (setBus_only ..)⟩

end

theorem startMode_eq {p : Nat} {d : Desc} {s : State} (hd : (s.exposure p).desc = some d) {m : SMode}
    (hmode : d.modes.find? (fun m => m.id == s.rd (Sens.SENSOR_MODE p)) = some m) :
    s.startMode p =
      (((s.dropJob p .mode).setExposure p { s.exposure p with modeRetry := none }).pushJob p
        { port := p, kind := .mode, steps := d.modeSteps (s.pageCode d.bus) m d.defaults }).kickBus d.bus := by
  unfold State.startMode
  split
  · next hnone => simp [hd] at hnone
  · next e he =>
    cases hd.symm.trans he
    simp only [hmode]
    rfl

/-- A failed pass starts again with the whole sequence, on a bus that another controller holds. -/
theorem modeSequenceRetry_armed {p : Fin 16} {d : Desc} {s : State} (hd : (s.exposure p).desc = some d) {due : Nat} {m : SMode}
    (hretry : (s.exposure p).modeRetry = some due) (hmode : d.modes.find? (fun m => m.id == s.rd (Sens.SENSOR_MODE p)) = some m)
    (hst : s.rd (I2c.BUS_STATE d.bus) = 4) :
    ∃ t, exec (.modeSequenceRetry p) s = .next t ∧ t.clock = max s.clock due ∧ (t.exposure p).modeRetry = none ∧
      (∃ j, j ∈ (t.bus d.bus).sensor ∧ j.port = p ∧ j.kind = .mode ∧ j.steps = d.modeSteps (s.pageCode d.bus) m d.defaults) ∧
      OnlyChanges [.clock, .exposure p, .bus d.bus] [] s t := by
  let v := (s.at due).dropJob p .mode
  let u := v.setExposure p { s.exposure p with modeRetry := none }
  let j : SensorJob := { port := p, kind := .mode, steps := d.modeSteps (s.pageCode d.bus) m d.defaults }
  have hexec : exec (.modeSequenceRetry p) s = .next ((u.pushJob p j).kickBus d.bus) := by
    simp only [exec, execModeSequenceRetry, hretry, startMode_eq (s := s.at due) hd hmode]
    rfl
  have hux : u.exposure p = { s.exposure p with modeRetry := none } := exposure_setExposure_same ..
  obtain ⟨⟨n, hperm⟩, -, -, hpush⟩ := pushJob_spec (sensorBus_of_desc (d := d) (by rw [hux]; exact hd)) j
  have hu : OnlyChanges [.clock, .bus d.bus, .exposure p] [] s u :=
    sensorBus_of_desc (s := s.at due) hd ▸ ((at_only s due).trans (dropJob_only ..)).trans (setExposure_only ..)
  have hall := (hu.trans hpush).mono (qs := [.clock, .exposure p, .bus d.bus]) (js := []) (by simp +contextual) (by simp)
  have hkick : (u.pushJob p j).startsNothing d.bus := .inr (.inl (by rw [hall.rd (by simp), hst]; simp))
  rw [kickBus_nothing hkick] at hexec
  refine ⟨_, hexec, hpush.clock (by simp), ?_, ⟨_, hperm.mem_iff.2 (List.mem_cons_self ..), rfl, rfl, rfl⟩, hall⟩
  rw [hpush.exposure (by simp), hux]

/-! ## O30 -/

/-- Settles O30: requests by `exposeAccept_eq`, work that starts by `kickBus_starts`, outcomes by `decideChange_spec`, and every bus that goes on to
nothing by `kickBus_nothing`. -/
theorem exposureChangesReachTheSensor : Obligations.ExposureChangesReachTheSensor := by
  refine ⟨fun r b s ht => ?_, fun p d j s hd hb hsensor => ⟨?_, ?_⟩, fun p d s hd => ⟨?_, ?_⟩⟩
  · refine ⟨fun hbad => ⟨_, exposeRequest_malformed ht hbad, replied_reply .., heardReply_only ..⟩, fun h1 h16 hlen hp => ?_⟩
    have hform := not_exposeMalformed h1 h16 hlen hp
    exact ⟨fun howns => ⟨_, exposeRequest_notOwner ht hform howns, replied_reply .., heardReply_only ..⟩,
      fun d codes howns hbind hd hcheck htarget =>
        ⟨fun w sh => exposeRequest_armed ht hform howns hbind hd hcheck htarget,
          exposeRequest_past ht hform howns hbind hd hcheck htarget⟩⟩
  · intro n o cl x xs
    exact writeWindowOpen_starts hd hb hsensor
  · intro hport hsteps hstarted hhosts
    exact ⟨fun id c r => writeSetComplete_change hd hsensor hport hsteps hstarted hhosts,
      writeSetComplete_restore hd hsensor hport hsteps hstarted hhosts⟩
  · intro j hsensor hport hkind
    exact ⟨modeSequenceDone_known hd hsensor hport hkind, fun w => sequenceWaitEnd_goesOn hd hsensor hport hkind⟩
  · intro due m
    exact modeSequenceRetry_armed hd

end Sys2Proof.Machine

/-! I2C buses (R272 to R275): the counters of a bus, codes that are reported, bus states and faults, and O28. -/

namespace Sys2Proof.Machine

/-! ## The parameters of a bus (Tables 10-5, 10-6) -/

theorem isWord_busState {b : Nat} (hb : b < 12) : isWord (I2c.BUS_STATE b) = true :=
  (by decide : ∀ i : Fin 12, isWord (I2c.BUS_STATE i) = true) ⟨b, hb⟩

theorem isWord_lastError {b : Nat} (hb : b < 12) : isWord (I2c.LAST_ERROR b) = true :=
  (by decide : ∀ i : Fin 12, isWord (I2c.LAST_ERROR i) = true) ⟨b, hb⟩

/-- The numbers 0x20 to 0x2F of group 0x70 are event and byte counters. -/
theorem isCounter_bus {b id : Nat} (hb : b < 12) (hlow : I2c.TRANSACTIONS b ≤ id) (hhigh : id ≤ I2c.HOST_OVERRAN b) : isCounter id = true := by
  have hrow : ∀ i : Fin 12, ∀ n : Fin 16, isCounter (I2c.TRANSACTIONS i + n) = true := by decide +kernel
  simp only [I2c.TRANSACTIONS, I2c.HOST_OVERRAN] at hlow hhigh
  have hid : id = I2c.TRANSACTIONS b + (id - I2c.TRANSACTIONS b) := by simp only [I2c.TRANSACTIONS]; omega
  rw [hid]
  exact hrow ⟨b, hb⟩ ⟨id - I2c.TRANSACTIONS b, by simp only [I2c.TRANSACTIONS]; omega⟩

theorem rd_addBytes_counter {id : Nat} (h : isCounter id = true) (n : Nat) (s : State) : (s.addBytes id n).rd id = bytesUp (s.rd id) n := by
  obtain ⟨p, hp, hrow⟩ := (Option.any_eq_true _ _).1 h
  simp only [Bool.and_eq_true, Bool.not_eq_true', beq_iff_eq] at hrow
  exact rd_addBytes_same n hp hrow.1 hrow.2

/-- The counter of a code (Table 10-5); codes 0 and 13 have none. -/
def codeCounters (b : Nat) : Nat → List Nat
  | 1 => [I2c.ADDR_NACK_COUNT b]
  | 2 => [I2c.DATA_NACK_COUNT b]
  | 3 => [I2c.ARB_LOST_COUNT b]
  | 4 => [I2c.ARB_LOST_STOP_COUNT b]
  | 5 => [I2c.ARB_LOST_RSTART_COUNT b]
  | 6 => [I2c.BUS_ERROR_COUNT b]
  | 7 => [I2c.SCL_TIMEOUT_COUNT b]
  | 8 => [I2c.BUS_CLEAR_FAIL b]
  | 9 | 10 | 11 => [I2c.LINE_FAULTS b]
  | 12 => [I2c.POLL_TIMEOUTS b]
  | _ => []

/-- The counters of codes lie between TRANSACTIONS and BYTES_XFER. -/
theorem codeCounters_bounds {b code id : Nat} (h : id ∈ codeCounters b code) : I2c.TRANSACTIONS b < id ∧ id < I2c.BYTES_XFER b := by
  unfold codeCounters at h
  split at h
  all_goals simp only [List.mem_singleton, List.not_mem_nil] at h
  all_goals exact h ▸ ⟨Nat.add_lt_add_right (by decide) _, Nat.add_lt_add_right (by decide) _⟩

theorem not_mem_codeCounters {b code id : Nat} (h : id ≤ I2c.TRANSACTIONS b ∨ I2c.BYTES_XFER b ≤ id) :
    id ∉ codeCounters b code := fun hm => by
  have := codeCounters_bounds hm
  omega

/-- What tells of the code of a transaction or of a fault: the bus state, LAST_ERROR, and the counter of the code. -/
def reportIds (b code : Nat) : List Nat := I2c.BUS_STATE b :: I2c.LAST_ERROR b :: codeCounters b code

theorem not_mem_reportIds {b code id : Nat} (h : id < I2c.BUS_STATE b ∨ id = I2c.TRANSACTIONS b ∨ I2c.BYTES_XFER b ≤ id) :
    id ∉ reportIds b code := by
  have hcounter : id ∉ codeCounters b code := not_mem_codeCounters (by simp only [I2c.BUS_STATE, I2c.TRANSACTIONS] at *; omega)
  simp only [I2c.BUS_STATE, I2c.TRANSACTIONS, I2c.BYTES_XFER] at h
  simp only [reportIds, List.mem_cons, hcounter, or_false, not_or, I2c.BUS_STATE, I2c.LAST_ERROR]
  omega

theorem sendIds_not_reported {b code : Nat} (hb : b < 12) : ∀ id ∈ sendIds, id ∉ reportIds b code := fun id hid => by
  have : id < 0x70000000 ∨ 0x71000000 ≤ id := (by decide : ∀ i ∈ sendIds, i < 0x70000000 ∨ 0x71000000 ≤ i) id hid
  refine not_mem_reportIds ?_
  simp only [I2c.BUS_STATE, I2c.BYTES_XFER]
  omega

theorem txIds_not_reported {b code : Nat} (hb : b < 12) : ∀ id ∈ txIds, id ∉ reportIds b code := fun id hid =>
  sendIds_not_reported hb id ((by decide : ∀ i ∈ txIds, i ∈ sendIds) id hid)

/-! ## Bus states (Table 10-2) -/

theorem busTo_only (s : State) (b st : Nat) : OnlyChanges [.bus b] [I2c.BUS_STATE b] s (s.busTo b st) :=
  ((setBus_only ..).trans (wr_only ..)).mono (by simp) (by simp)

@[simp] theorem bus_busTo (s : State) (b st : Nat) : (s.busTo b st).bus b = { s.bus b with since := s.clock } := by
  rw [State.busTo, bus_wr, bus_setBus_same]

theorem rd_busTo {b st : Nat} (hb : b < 12) (hst : st ≤ 6) (s : State) : (s.busTo b st).rd (I2c.BUS_STATE b) = st :=
  rd_wr_word (isWord_busState hb) (by omega) _

/-- A bus without work goes on to nothing. -/
theorem kickBus_empty {s : State} {b : Nat} (hsensor : (s.bus b).sensor = []) (hhosts : (s.bus b).hosts = []) : s.kickBus b = s :=
  kickBus_nothing (.inr (.inr ⟨by simp [hsensor], hhosts⟩))

/-! ## Codes that are reported (Table 10-5) -/

theorem i2cCode_eq (s : State) (b code : Nat) :
    s.i2cCode b code = (codeCounters b code).foldl State.count (s.wr (I2c.LAST_ERROR b) code) := by
  match code with
  | 0 | 1 | 2 | 3 | 4 | 5 | 6 | 7 | 8 | 9 | 10 | 11 | 12 => rfl
  | _ + 13 => rfl

/-- A code has at most one counter. -/
theorem codeCounters_eq {b code id : Nat} (h : id ∈ codeCounters b code) : codeCounters b code = [id] := by
  unfold codeCounters at h ⊢
  split at h
  all_goals simp only [List.mem_singleton, List.not_mem_nil] at h
  all_goals exact h ▸ rfl

theorem countAll_only (s : State) (ids : List Nat) : OnlyChanges [] ids s (ids.foldl State.count s) :=
  OnlyChanges.foldl _ ((OnlyChanges.refl s).mono (by simp) (by simp)) fun t id hid => (count_only t id).mono (by simp) (by simpa using hid)

theorem i2cCode_only (s : State) (b code : Nat) : OnlyChanges [] (I2c.LAST_ERROR b :: codeCounters b code) s (s.i2cCode b code) :=
  i2cCode_eq s b code ▸ (wr_only ..).trans (countAll_only ..)

@[simp] theorem bus_i2cCode (s : State) (b code k : Nat) : (s.i2cCode b code).bus k = s.bus k := (i2cCode_only ..).bus (by simp)

theorem busState_not_counter (b code : Nat) : I2c.BUS_STATE b ∉ codeCounters b code :=
  not_mem_codeCounters (.inl (Nat.add_le_add_right (by decide) _))

/-- From one state to another a bus has reported a code: the state it is in, LAST_ERROR, and the counter of the code. -/
structure Reports (b st code : Nat) (s t : State) : Prop where
  state : t.rd (I2c.BUS_STATE b) = st
  error : t.rd (I2c.LAST_ERROR b) = code
  counted : ∀ id ∈ codeCounters b code, t.rd id = countUp (s.rd id) 1

namespace Reports

variable {b st code : Nat} {s t u : State}

/-- What was reported stands while nothing else is. -/
theorem stands {ps : List Part} {ids : List Nat} (h : Reports b st code s t) (g : OnlyChanges ps ids t u)
    (hids : ∀ id ∈ ids, id ∉ reportIds b code) : Reports b st code s u where
  state := (g.rd fun hm => hids _ hm (by simp [reportIds])).trans h.state
  error := (g.rd fun hm => hids _ hm (by simp [reportIds])).trans h.error
  counted id hid := (g.rd fun hm => hids _ hm (by simp [reportIds, hid])).trans (h.counted id hid)

/-- What changed before the code was reported, but no counter of it, does not matter. -/
theorem of_before {ps : List Part} {ids : List Nat} (h : Reports b st code t u) (g : OnlyChanges ps ids s t)
    (hids : ∀ id ∈ ids, id ∉ codeCounters b code) : Reports b st code s u :=
  ⟨h.state, h.error, fun id hid => by rw [h.counted id hid, g.rd fun hm => hids id hm hid]⟩

theorem busTo (h : Reports b st code s t) (hb : b < 12) {st' : Nat} (hst : st' ≤ 6) : Reports b st' code s (t.busTo b st') where
  state := rd_busTo hb hst t
  error := ((busTo_only ..).rd (by simp [I2c.LAST_ERROR, I2c.BUS_STATE])).trans h.error
  counted id hid := by
    rw [(busTo_only ..).rd, h.counted id hid]
    rw [List.mem_singleton]
    rintro rfl
    exact busState_not_counter b code hid

end Reports

theorem i2cCode_reports {b code : Nat} (hb : b < 12) (hcode : code ≤ 13) (s : State) :
    Reports b (s.rd (I2c.BUS_STATE b)) code s (s.i2cCode b code) := by
  have herror : I2c.LAST_ERROR b ∉ codeCounters b code := not_mem_codeCounters (.inl (Nat.add_le_add_right (by decide) _))
  refine ⟨(i2cCode_only ..).rd ?_, ?_, fun id hid => ?_⟩
  · simpa [I2c.BUS_STATE, I2c.LAST_ERROR] using busState_not_counter b code
  · rw [i2cCode_eq, (countAll_only ..).rd herror, rd_wr_word (isWord_lastError hb) (by omega)]
  · obtain ⟨hlow, hhigh⟩ := codeCounters_bounds hid
    have hcounter : isCounter id = true := isCounter_bus hb hlow.le (hhigh.le.trans (Nat.add_le_add_right (by decide) _))
    rw [i2cCode_eq, codeCounters_eq hid, List.foldl_cons, List.foldl_nil, rd_count_counter hcounter]
    rw [rd_wr_other fun (h : id = I2c.LAST_ERROR b) => herror (h ▸ hid)]

/-! ## Buses in FAULT (R274, R275) -/

theorem endHost_empty {s : State} {b : Nat} (h : (s.bus b).hosts = []) (failed : Bool) (error : Nat) : s.endHost b failed error = s := by
  simp [State.endHost, BusSt.host, h]

/-- A fault of a bus without work: it is reported, and nothing else goes on. -/
theorem busFails_empty {s : State} {b code : Nat} (hb : b < 12) (hcode : code ≤ 13) (hsensor : (s.bus b).sensor = [])
    (hhosts : (s.bus b).hosts = []) :
    let t := s.busFails b code
    Reports b 6 code s t ∧ (t.bus b).fault = code ∧ OnlyChanges (.bus b :: sending) (reportIds b code ++ sendIds) s t := by
  let u := s.i2cCode b code
  let v := u.setBus b { u.bus b with fault := code, cur := none }
  let w := v.busTo b 6
  let t := w.notify 8 0x0101 [BitVec.ofNat 8 b, 0xFF, BitVec.ofNat 8 code, 0]
  have hlast : OnlyChanges sending sendIds w t := notify_only ..
  have hw : w.bus b = { s.bus b with fault := code, cur := none, since := v.clock } := by simp [w, v, u]
  have ht : t.bus b = w.bus b := hlast.bus (by simp [sending])
  have hfault : s.busFault b code = t := by
    have hempty : t.endHost b true code = t := endHost_empty (by rw [ht, hw, hhosts]) ..
    show (if _ then t.endHost b true code else t) = t
    rw [hempty, ite_self]
  have hkick : t.kickBus b = t := kickBus_empty (by rw [ht, hw, hsensor]) (by rw [ht, hw, hhosts])
  have heq : s.busFails b code = t := by
    have hjob : s.jobOf b = none := by simp [State.jobOf, hsensor]
    rw [State.busFails, hjob, hfault]
    obtain _ | ⟨_ | _, x⟩ := (s.bus b).cur <;> exact hkick
  have hreport : Reports b 6 code s w :=
    ((i2cCode_reports hb hcode s).stands (setBus_only u b _) (by simp)).busTo hb (by decide)
  rw [heq]
  refine ⟨hreport.stands hlast (sendIds_not_reported hb), by rw [ht, hw], ?_⟩
  exact ((((i2cCode_only s b code).trans (setBus_only u b _)).trans (busTo_only v b 6)).trans hlast).mono (by simp)
    (by simp +contextual [reportIds, or_imp])

/-! ## O28 -/

section

variable {b : Fin 12} {s : State} (hruns : s.i2cRuns = true)

include hruns

theorem lineTestDone_sdaLow (hst : s.rd (I2c.BUS_STATE b) = 1) :
    exec (.i2cLineTestDone b false false false true) s = .next (s.busTo b 5) := by
  simp [exec, execI2cLineTestDone, hruns, hst]

theorem lineTestDone_free (hst : s.rd (I2c.BUS_STATE b) = 1) (hsensor : (s.bus b).sensor = []) (hhosts : (s.bus b).hosts = []) :
    exec (.i2cLineTestDone b false false false false) s = .next (s.busTo b 2) := by
  simp [exec, execI2cLineTestDone, hruns, hst, kickBus_empty, hsensor, hhosts]

/-- What the line test finds is one fault, the first of codes 9, 10, 11. -/
theorem lineTestDone_fault (hst : s.rd (I2c.BUS_STATE b) = 1) (hsensor : (s.bus b).sensor = []) (hhosts : (s.bus b).hosts = [])
    {sclLow drivenHigh shorted : Bool} (sdaLow : Bool) (hbad : (sclLow || drivenHigh || shorted) = true) :
    let code := if sclLow then 9 else if drivenHigh then 10 else 11
    ∃ t, exec (.i2cLineTestDone b sclLow drivenHigh shorted sdaLow) s = .next t ∧ t.rd (I2c.BUS_STATE b) = 6 ∧
      t.rd (I2c.LAST_ERROR b) = code ∧ t.rd (I2c.LINE_FAULTS b) = countUp (s.rd (I2c.LINE_FAULTS b)) 1 ∧
      OnlyChanges (.bus b :: sending) (I2c.BUS_STATE b :: I2c.LAST_ERROR b :: I2c.LINE_FAULTS b :: sendIds) s t := by
  intro code
  have hcode : codeCounters b code = [I2c.LINE_FAULTS b] ∧ code ≤ 13 := by
    simp only [code]
    split
    · exact ⟨rfl, by decide⟩
    · split <;> exact ⟨rfl, by decide⟩
  have hexec : exec (.i2cLineTestDone b sclLow drivenHigh shorted sdaLow) s = .next (s.busFails b code) := by
    simp only [exec, execI2cLineTestDone, hruns, hst, code]
    cases sclLow
    · cases drivenHigh
      · obtain rfl : shorted = true := hbad
        rfl
      · rfl
    · rfl
  obtain ⟨hreport, -, hframe⟩ := busFails_empty b.isLt hcode.2 hsensor hhosts
  exact ⟨_, hexec, hreport.state, hreport.error, hreport.counted _ (by simp [hcode]), hframe.mono (by simp) (by simp [reportIds, hcode])⟩

theorem clearingDone_released (hst : s.rd (I2c.BUS_STATE b) = 5) (hsensor : (s.bus b).sensor = []) (hhosts : (s.bus b).hosts = []) :
    ∃ t, exec (.i2cClearingDone b true) s = .next t ∧ t.rd (I2c.BUS_STATE b) = 2 ∧
      t.rd (I2c.BUS_CLEARS b) = countUp (s.rd (I2c.BUS_CLEARS b)) 1 ∧ OnlyChanges [.bus b] [I2c.BUS_STATE b, I2c.BUS_CLEARS b] s t := by
  let u := s.count (I2c.BUS_CLEARS b)
  have hbus : u.bus b = s.bus b := (count_only ..).bus (by simp)
  have hexec : exec (.i2cClearingDone b true) s = .next (u.busTo b 2) := by
    simp [exec, execI2cClearingDone, hruns, hst, kickBus_empty, hbus, hsensor, hhosts, u]
  have hcounter : isCounter (I2c.BUS_CLEARS b) = true :=
    isCounter_bus b.isLt (Nat.add_le_add_right (by decide) _) (Nat.add_le_add_right (by decide) _)
  refine ⟨_, hexec, rd_busTo b.isLt (by decide) u, ?_, ((count_only ..).trans (busTo_only ..)).mono (by simp) (by simp)⟩
  rw [(busTo_only ..).rd (by simp [I2c.BUS_CLEARS, I2c.BUS_STATE]), rd_count_counter hcounter]

theorem clearingDone_stuck (hst : s.rd (I2c.BUS_STATE b) = 5) (hsensor : (s.bus b).sensor = []) (hhosts : (s.bus b).hosts = []) :
    ∃ t, exec (.i2cClearingDone b false) s = .next t ∧ t.rd (I2c.BUS_STATE b) = 6 ∧ t.rd (I2c.LAST_ERROR b) = 8 ∧
      t.rd (I2c.BUS_CLEAR_FAIL b) = countUp (s.rd (I2c.BUS_CLEAR_FAIL b)) 1 ∧
      OnlyChanges (.bus b :: sending) (I2c.BUS_STATE b :: I2c.LAST_ERROR b :: I2c.BUS_CLEAR_FAIL b :: sendIds) s t := by
  have hexec : exec (.i2cClearingDone b false) s = .next (s.busFails b 8) := by simp [exec, execI2cClearingDone, hruns, hst]
  obtain ⟨hreport, -, hframe⟩ := busFails_empty (code := 8) b.isLt (by decide) hsensor hhosts
  exact ⟨_, hexec, hreport.state, hreport.error, hreport.counted _ (List.mem_singleton.2 rfl), hframe⟩

theorem faultRetry_checks (hst : s.rd (I2c.BUS_STATE b) = 6) :
    ∃ t, exec (.i2cFaultRetry b) s = .next t ∧ t.rd (I2c.BUS_STATE b) = 1 ∧
      t.clock = max s.clock ((s.bus b).since + s.rd (I2c.BUS_RETRY_INTERVAL b) * 1000000) ∧ (t.bus b).since = t.clock ∧
      OnlyChanges [.clock, .bus b] [I2c.BUS_STATE b] s t := by
  let u := s.at ((s.bus b).since + s.rd (I2c.BUS_RETRY_INTERVAL b) * 1000000)
  have hexec : exec (.i2cFaultRetry b) s = .next (u.busTo b 1) := by simp [exec, execI2cFaultRetry, hruns, hst, u]
  have hclock : (u.busTo b 1).clock = u.clock := (busTo_only ..).clock (by simp)
  exact ⟨_, hexec, rd_busTo b.isLt (by decide) u, hclock, by rw [hclock, bus_busTo], (at_only ..).trans (busTo_only ..)⟩

theorem busFree_idle (hst : s.rd (I2c.BUS_STATE b) = 4) (hsensor : (s.bus b).sensor = []) (hhosts : (s.bus b).hosts = []) :
    exec (.i2cBusFree b) s = .next (s.busTo b 2) := by
  simp [exec, execI2cBusFree, hruns, hst, kickBus_empty, hsensor, hhosts]

theorem sclTimeout_other (hst : s.rd (I2c.BUS_STATE b) = 4) (acked : Nat) : exec (.i2cSclTimeout b acked) s = .next (s.busTo b 1) := by
  simp [exec, execI2cSclTimeout, hruns, hst]

theorem driveFail_fault (hst : s.rd (I2c.BUS_STATE b) = 1 ∨ s.rd (I2c.BUS_STATE b) = 5) (hsensor : (s.bus b).sensor = [])
    (hhosts : (s.bus b).hosts = []) (acked : Nat) :
    ∃ t, exec (.i2cDriveFail b acked) s = .next t ∧ t.rd (I2c.BUS_STATE b) = 6 ∧ t.rd (I2c.LAST_ERROR b) = 10 ∧ (t.bus b).fault = 10 ∧
      t.rd (I2c.LINE_FAULTS b) = countUp (s.rd (I2c.LINE_FAULTS b)) 1 ∧
      OnlyChanges (.bus b :: sending) (I2c.BUS_STATE b :: I2c.LAST_ERROR b :: I2c.LINE_FAULTS b :: sendIds) s t := by
  have hexec : exec (.i2cDriveFail b acked) s = .next (s.busFails b 10) := by
    have hown : s.rd (I2c.BUS_STATE b) ≠ 3 := by omega
    simp [exec, execI2cDriveFail, hruns, hst, hown]
  obtain ⟨hreport, hfault, hframe⟩ := busFails_empty (code := 10) b.isLt (by decide) hsensor hhosts
  exact ⟨_, hexec, hreport.state, hreport.error, hfault, hreport.counted _ (List.mem_singleton.2 rfl), hframe⟩

end

/-- Settles O28: moves of the bus state by `busTo_only`, faults by `busFails_empty`, and a bus without work goes on to nothing by `kickBus_empty`. -/
theorem theBusFollowsItsLines : Obligations.TheBusFollowsItsLines := by
  refine ⟨fun b s hruns => ⟨fun hst => ⟨?_, fun hsensor hhosts => ⟨?_, ?_⟩⟩, fun hst hsensor hhosts => ⟨?_, ?_⟩, ?_⟩,
    fun b acked s hruns => ⟨fun hst => ?_, fun hst => ⟨fun hsensor hhosts => ?_, ?_, ?_⟩, fun hst hsensor hhosts => ?_⟩⟩
  · exact ⟨_, lineTestDone_sdaLow hruns hst, rd_busTo b.isLt (by decide) s, by rw [bus_busTo], busTo_only ..⟩
  · exact ⟨_, lineTestDone_free hruns hst hsensor hhosts, rd_busTo b.isLt (by decide) s, by rw [bus_busTo], busTo_only ..⟩
  · exact fun sclLow drivenHigh shorted sdaLow => lineTestDone_fault hruns hst hsensor hhosts sdaLow
  · exact clearingDone_released hruns hst hsensor hhosts
  · exact clearingDone_stuck hruns hst hsensor hhosts
  · exact faultRetry_checks hruns
  · exact ⟨_, congrArg Host.Outcome.next (if_pos ⟨hruns, hst⟩), rd_busTo b.isLt (by decide) s, busTo_only ..⟩
  · exact ⟨_, busFree_idle hruns hst hsensor hhosts, rd_busTo b.isLt (by decide) s, busTo_only ..⟩
  · exact ⟨_, sclTimeout_other hruns hst acked, rd_busTo b.isLt (by decide) s, busTo_only ..⟩
  · exact ⟨_, congrArg Host.Outcome.next (if_pos ⟨hruns, hst⟩), rd_busTo b.isLt (by decide) s, busTo_only ..⟩
  · exact driveFail_fault hruns hst hsensor hhosts acked

end Sys2Proof.Machine

/-! Host transactions on the I2C buses (R278 to R286): lists that go on or end, transactions and polls that end, and O29. -/

namespace Sys2Proof.Machine

/-! ## Host lists (R279) -/

theorem OnlyChanges.waits {ps : List Part} {ids : List Nat} {s t : State} (h : OnlyChanges ps ids s t) (hp : .nmp ∉ ps) :
    t.nmp.waits = s.nmp.waits := by
  obtain ⟨-, -, -, hwaits, -⟩ := h.2.1 .nmp hp
  exact hwaits

theorem OnlyChanges.deviceTime {ps : List Part} {ids : List Nat} {s t : State} (h : OnlyChanges ps ids s t) (hclock : .clock ∉ ps)
    (htime : .time ∉ ps) : t.deviceTime = s.deviceTime := by
  rw [State.deviceTime, State.deviceTime, h.clock hclock, show t.time = s.time from h.2.1 .time htime]

theorem host_of_hosts {x : BusSt} {h : HostList} {hs : List HostList} (hx : x.hosts = h :: hs) : x.host = some h := by rw [BusSt.host, hx]; rfl

theorem setHost_only (s : State) (b : Nat) (h : HostList) : OnlyChanges [.bus b] [] s (s.setHost b h) := setBus_only ..

@[simp] theorem bus_setHost (s : State) (b : Nat) (h : HostList) :
    (s.setHost b h).bus b = { s.bus b with hosts := h :: (s.bus b).hosts.drop 1 } := bus_setBus_same ..

/-- A release takes the replies that waited for the cause from those held back, and sends some of them. -/
theorem releaseIf_induction {s : State} {p : Wait → Bool} {motive : State → Prop}
    (hwaits : motive (s.withWaits (s.nmp.waits.filter fun w => !p w)))
    (hreply : ∀ (t : State) (r : Req) (op st : Nat) (pl : List Byte), motive t → motive (t.reply r op st pl)) :
    motive (s.releaseIf p Status.OK none) := by
  simp only [State.releaseIf, if_true, ite_self, List.map_id']
  refine List.foldlRecOn _ _ hwaits fun t ht w _ => ?_
  split
  · exact ht
  · exact hreply _ _ _ _ _ ht

theorem releaseIf_only (s : State) (p : Wait → Bool) :
    OnlyChanges [.nmp, .out, .free, .sessions] txIds s (s.releaseIf p Status.OK none) :=
  releaseIf_induction ((withWaits_only s _).mono (by simp) (by simp)) fun _ _ _ _ _ ht => ht.then ((reply_only ..).mono (by simp) (by simp))

/-- No reply waits any more for a cause that has come. -/
theorem releaseIf_waits (s : State) (p : Wait → Bool) : (s.releaseIf p Status.OK none).nmp.waits = s.nmp.waits.filter fun w => !p w :=
  releaseIf_induction (motive := fun t => t.nmp.waits = _) rfl fun _ _ _ _ _ ht => (reply_waits ..).trans ht

theorem releaseIf_none {s : State} {p : Wait → Bool} (h : ∀ w ∈ s.nmp.waits, p w = false) : s.releaseIf p Status.OK none = s := by
  have hdone : s.nmp.waits.filter p = [] := List.filter_eq_nil_iff.2 fun w hw => by simp [h w hw]
  have hrest : (s.nmp.waits.filter fun w => !p w) = s.nmp.waits := List.filter_eq_self.2 fun w hw => by simp [h w hw]
  simp [State.releaseIf, hdone, hrest]

/-- From one state to another the list `h` at the head of the host queue of a bus has ended: its result stands, polling is over, and no commit
waits for the list. -/
structure ListEnds (b : Nat) (h : HostList) (hs : List HostList) (failed : Bool) (error : Nat) (s t : State) : Prop where
  bus : t.bus b = { s.bus b with hosts := hs, pollEnd := none, pollTries := 0 }
  result : t.rdBlob (I2c.XFER_RESULT b) = xferResult s.deviceTime h failed error
  waits : t.nmp.waits.filter (fun w => w.why == .xferList b && h.r == some w.r) = []
  frame : OnlyChanges [.bus b, .blob (I2c.XFER_RESULT b), .nmp, .out, .free, .sessions] txIds s t
  quiet : (∀ w ∈ s.nmp.waits, w.why ≠ .xferList b) → OnlyChanges [.bus b, .blob (I2c.XFER_RESULT b)] [] s t

theorem endHost_ends {s : State} {b : Nat} {h : HostList} {hs : List HostList} (hhosts : (s.bus b).hosts = h :: hs) (failed : Bool) (error : Nat) :
    ListEnds b h hs failed error s (s.endHost b failed error) := by
  let p (w : Wait) : Bool := w.why == .xferList b && h.r == some w.r
  let u := s.wrBlob (I2c.XFER_RESULT b) (xferResult s.deviceTime h failed error)
  let v := u.setBus b { s.bus b with hosts := (s.bus b).hosts.drop 1, pollEnd := none, pollTries := 0 }
  have heq : s.endHost b failed error = v.releaseIf p Status.OK none := by
    rw [State.endHost, host_of_hosts hhosts]
    rfl
  have hv : OnlyChanges [.blob (I2c.XFER_RESULT b), .bus b] [] s v := (wrBlob_only ..).trans (setBus_only ..)
  have hlast := releaseIf_only v p
  rw [heq]
  refine ⟨?_, ?_, ?_, (hv.trans hlast).mono (by simp) (by simp), fun hnone => ?_⟩
  · rw [hlast.bus (by simp), bus_setBus_same, hhosts]
    rfl
  · exact (hlast.2.1 (.blob _) (by simp)).trans (rdBlob_wrBlob_same ..)
  · rw [releaseIf_waits]
    simp [p]
  · rw [releaseIf_none (s := v) fun w hw => by simp [p, hnone w hw]]
    exact hv.mono (by simp) (by simp)

namespace ListEnds

variable {b : Nat} {h : HostList} {hs : List HostList} {failed : Bool} {error : Nat} {s u t : State}

/-- The list may have moved on before it ended. -/
theorem of_before (he : ListEnds b h hs failed error u t) (g : OnlyChanges [.bus b] [] s u)
    (hbus : { u.bus b with hosts := hs, pollEnd := none, pollTries := 0 } = { s.bus b with hosts := hs, pollEnd := none, pollTries := 0 }) :
    ListEnds b h hs failed error s t where
  bus := he.bus.trans hbus
  result := by rw [he.result, g.deviceTime (by simp) (by simp)]
  waits := he.waits
  frame := (g.trans he.frame).mono (by simp) (by simp)
  quiet hnone := (g.trans (he.quiet (by rwa [g.waits (by simp)]))).mono (by simp) (by simp)

/-- A list for which no commit waits leaves its result, and what changed before it ended. -/
theorem quietly (he : ListEnds b h hs failed error u t) {ps : List Part} {ids : List Nat} (g : OnlyChanges ps ids s u) (hps : .nmp ∉ ps)
    (hnone : ∀ w ∈ s.nmp.waits, w.why ≠ .xferList b) : OnlyChanges (ps ++ [.bus b, .blob (I2c.XFER_RESULT b)]) ids s t :=
  (g.trans (he.quiet (by rwa [g.waits hps]))).mono (fun _ => id) (by simp)

end ListEnds

section

variable {s : State} {b : Nat} {h : HostList} {hs : List HostList} (hhosts : (s.bus b).hosts = h :: hs)

include hhosts

/-- A list with more to do goes on with its next part. -/
theorem hostAdvance_next {x y : Xact} {xs : List Xact} {ds : List (List Xact)} (hdescs : h.descs = (x :: y :: xs) :: ds) :
    (s.hostAdvance b).bus b = { s.bus b with hosts := { h with descs := (y :: xs) :: ds } :: hs, pollEnd := none, pollTries := 0 } ∧
      OnlyChanges [.bus b] [] s (s.hostAdvance b) := by
  let u := s.setBus b { s.bus b with pollEnd := none, pollTries := 0 }
  have heq : s.hostAdvance b = u.setHost b { h with descs := (y :: xs) :: ds } := by
    simp [State.hostAdvance, host_of_hosts hhosts, hdescs, u]
  rw [heq]
  exact ⟨by simp [u, hhosts], (setBus_only ..).then (setHost_only ..)⟩

/-- The last part of its last descriptor ends a list. -/
theorem hostAdvance_last {x : Xact} (hdescs : h.descs = [[x]]) :
    ListEnds b { h with descs := [], done := h.done + 1 } hs false h.warn s (s.hostAdvance b) := by
  let h' : HostList := { h with descs := [], done := h.done + 1 }
  let u := s.setBus b { s.bus b with pollEnd := none, pollTries := 0 }
  let v := u.setHost b h'
  have heq : s.hostAdvance b = v.endHost b false h.warn := by simp [State.hostAdvance, host_of_hosts hhosts, hdescs, u, v, h']
  have hv : OnlyChanges [.bus b] [] s v := (setBus_only ..).then (setHost_only ..)
  have hbus : v.bus b = { s.bus b with hosts := h' :: hs, pollEnd := none, pollTries := 0 } := by simp [v, u, hhosts]
  rw [heq]
  exact (endHost_ends (by rw [hbus]) false h.warn).of_before hv (by rw [hbus])

end

/-! ## Transactions that end (R281 to R286) -/

/-- The state in which a transaction is over and its code is reported. -/
def State.xactOver (s : State) (b code : Nat) : State :=
  ((s.setBus b { s.bus b with cur := none }).busTo b (busAfter code)).i2cCode b code

theorem busAfter_le (code : Nat) : busAfter code ≤ 6 := by
  unfold busAfter
  split
  · decide
  · split <;> decide

theorem xactOver_spec {b code : Nat} (hb : b < 12) (hcode : code ≤ 13) (s : State) :
    let t := s.xactOver b code
    Reports b (busAfter code) code s t ∧ t.bus b = { s.bus b with cur := none, since := s.clock } ∧
      OnlyChanges [.bus b] (reportIds b code) s t := by
  let u := s.setBus b { s.bus b with cur := none }
  let v := u.busTo b (busAfter code)
  have hv : OnlyChanges [.bus b] [I2c.BUS_STATE b] s v := ((setBus_only ..).trans (busTo_only ..)).mono (by simp) (by simp)
  have hreport : Reports b (busAfter code) code v (v.i2cCode b code) := rd_busTo hb (busAfter_le code) u ▸ i2cCode_reports hb hcode v
  refine ⟨hreport.of_before hv (by simpa using busState_not_counter b code), ?_,
    (hv.trans (i2cCode_only ..)).mono (by simp) (by simp [reportIds])⟩
  rw [State.xactOver, bus_i2cCode, bus_busTo, bus_setBus_same]
  rfl

/-- Bytes that a transaction has moved are counted on a bus that has reported its code. -/
def State.xactMoved (s : State) (b code n : Nat) : State := (s.xactOver b code).addBytes (I2c.BYTES_XFER b) n

theorem xactMoved_spec {b code : Nat} (hb : b < 12) (hcode : code ≤ 13) (s : State) (n : Nat) :
    let t := s.xactMoved b code n
    Reports b (busAfter code) code s t ∧ t.bus b = { s.bus b with cur := none, since := s.clock } ∧
      OnlyChanges [.bus b] (I2c.BYTES_XFER b :: reportIds b code) s t := by
  obtain ⟨hreport, hbus, hframe⟩ := xactOver_spec hb hcode s
  refine ⟨hreport.stands (addBytes_only ..) ?_, ((addBytes_only ..).bus (by simp)).trans hbus,
    (hframe.trans (addBytes_only ..)).mono (by simp) (by simp +contextual [or_imp])⟩
  simpa using not_mem_reportIds (.inr (.inr le_rfl))

/-- The state in which a transaction has completed: it and its bytes are counted. -/
def State.xactDone (s : State) (b code n : Nat) : State :=
  ((s.xactOver b code).count (I2c.TRANSACTIONS b)).addBytes (I2c.BYTES_XFER b) n

theorem xactDone_spec {b code : Nat} (hb : b < 12) (hcode : code ≤ 13) (s : State) (n : Nat) :
    let t := s.xactDone b code n
    Reports b (busAfter code) code s t ∧ t.rd (I2c.TRANSACTIONS b) = countUp (s.rd (I2c.TRANSACTIONS b)) 1 ∧
      t.rd (I2c.BYTES_XFER b) = bytesUp (s.rd (I2c.BYTES_XFER b)) n ∧ t.bus b = { s.bus b with cur := none, since := s.clock } ∧
      OnlyChanges [.bus b] (I2c.TRANSACTIONS b :: I2c.BYTES_XFER b :: reportIds b code) s t := by
  obtain ⟨hreport, hbus, hframe⟩ := xactOver_spec hb hcode s
  let u := s.xactOver b code
  let v := u.count (I2c.TRANSACTIONS b)
  have htransactions : I2c.TRANSACTIONS b ∉ reportIds b code := not_mem_reportIds (.inr (.inl rfl))
  have hbytes : I2c.BYTES_XFER b ∉ reportIds b code := not_mem_reportIds (.inr (.inr le_rfl))
  have hlt : I2c.TRANSACTIONS b < I2c.BYTES_XFER b := Nat.add_lt_add_right (by decide) _
  have hlast : OnlyChanges [] [I2c.TRANSACTIONS b, I2c.BYTES_XFER b] u (s.xactDone b code n) := (count_only ..).trans (addBytes_only ..)
  have hcounters : isCounter (I2c.TRANSACTIONS b) = true ∧ isCounter (I2c.BYTES_XFER b) = true :=
    ⟨isCounter_bus hb le_rfl (Nat.add_le_add_right (by decide) _), isCounter_bus hb hlt.le (Nat.add_le_add_right (by decide) _)⟩
  refine ⟨hreport.stands hlast (by simp [htransactions, hbytes]), ?_, ?_, (hlast.bus (by simp)).trans hbus,
    (hframe.trans hlast).mono (by simp) (by simp +contextual [or_imp])⟩
  · rw [State.xactDone, (addBytes_only v ..).rd (by simp [hlt.ne]), rd_count_counter hcounters.1, hframe.rd htransactions]
  · rw [State.xactDone, rd_addBytes_counter hcounters.2, (count_only ..).rd (by simp [hlt.ne']), hframe.rd hbytes]

section

variable {s : State} {b : Nat} {x : Xact} (hcur : (s.bus b).cur = some (true, x)) (hop : x.op ≠ 3)

include hcur hop

theorem endXact_completed {code : Nat} (hcode : code = 0 ∨ code = 4) (acked : Nat) (data : List Byte) :
    s.endXact b code acked data = (s.xactDone b code x.len).hostDone b code x data := by
  simp only [State.endXact, hcur, if_neg hop, if_pos hcode]
  rfl

theorem endXact_failed {code : Nat} (hcode : ¬(code = 0 ∨ code = 4)) (acked : Nat) (data : List Byte) :
    let u := s.xactMoved b code (min acked x.len)
    s.endXact b code acked data =
      if u.retryable b code acked x then u.putBack b true { x with tries := x.tries + 1, code := code } else u.endHost b true code := by
  simp only [State.endXact, hcur, if_neg hop, if_neg hcode, if_true]
  rfl

end

theorem retryable_xactMoved {b code : Nat} (hb : b < 12) (hcode : code ≤ 13) (s : State) (n acked : Nat) (x : Xact) :
    (s.xactMoved b code n).retryable b code acked x = s.retryable b code acked x := by
  obtain ⟨-, -, hframe⟩ := xactMoved_spec hb hcode s n
  have hlow : I2c.RETRY_LIMIT b < I2c.BUS_STATE b ∧ I2c.RETRY_LIMIT b ≠ I2c.BYTES_XFER b := by
    simp [I2c.RETRY_LIMIT, I2c.BUS_STATE, I2c.BYTES_XFER]
  rw [State.retryable, State.retryable, hframe.rd (by simpa [hlow] using not_mem_reportIds (.inl hlow.1))]

section

variable {s : State} {b : Nat} {x y : Xact} {xs : List Xact} {ds : List (List Xact)} {h : HostList} {hs : List HostList}
  (hhosts : (s.bus b).hosts = h :: hs) (hdescs : h.descs = (x :: y :: xs) :: ds)

include hhosts hdescs

/-- The data of a completed transaction join the result, and the list goes on with its next part. -/
theorem hostDone_next (hpoll : x.poll = 0) (code : Nat) (data : List Byte) :
    ∃ h', (s.hostDone b code x data).bus b = { s.bus b with hosts := h' :: hs, pollEnd := none, pollTries := 0 } ∧ h'.descs = (y :: xs) :: ds ∧
      h'.reads = h.reads ++ padTo 8 (if x.op = 1 then data.take x.len else []) ∧ OnlyChanges [.bus b] [] s (s.hostDone b code x data) := by
  let d := if x.op = 1 then data.take x.len else []
  let k : HostList := { h with reads := h.reads ++ padTo 8 d, readBytes := h.readBytes + d.length, warn := if code = 4 then 4 else 0 }
  let u := s.setHost b k
  have heq : s.hostDone b code x data = u.hostAdvance b := by
    have hlast : ¬(x.poll ≠ 0 ∧ x.op = 0) := fun hp => hp.1 hpoll
    rw [State.hostDone, host_of_hosts hhosts]
    exact if_neg hlast
  have hbus : u.bus b = { s.bus b with hosts := k :: hs } := by simp [u, hhosts]
  obtain ⟨hnext, hframe⟩ := hostAdvance_next (s := u) (h := k) (by rw [hbus]) hdescs
  rw [heq]
  exact ⟨{ k with descs := (y :: xs) :: ds }, by rw [hnext, hbus], rfl, rfl, (setHost_only ..).then hframe⟩

theorem putBack_host (x' : Xact) :
    (s.putBack b true x').bus b = { s.bus b with hosts := { h with descs := (x' :: y :: xs) :: ds } :: hs } ∧
      OnlyChanges [.bus b] [] s (s.putBack b true x') := by
  have heq : s.putBack b true x' = s.setHost b { h with descs := (x' :: y :: xs) :: ds } := by
    simp [State.putBack, host_of_hosts hhosts, hdescs]
  rw [heq]
  exact ⟨by simp [hhosts], setHost_only ..⟩

variable (hb : b < 12) (hcur : (s.bus b).cur = some (true, x)) (hop : x.op ≠ 3)

include hb hcur hop

/-- A host transaction that completes (R281, R283): codes 0 and 4. -/
theorem endXact_completes (hpoll : x.poll = 0) {code : Nat} (hcode : code = 0 ∨ code = 4) (acked : Nat) (data : List Byte) :
    ∃ h', let t := s.endXact b code acked data
      Reports b (busAfter code) code s t ∧ t.rd (I2c.TRANSACTIONS b) = countUp (s.rd (I2c.TRANSACTIONS b)) 1 ∧
      t.rd (I2c.BYTES_XFER b) = bytesUp (s.rd (I2c.BYTES_XFER b)) x.len ∧ (t.bus b).cur = none ∧ (t.bus b).hosts = h' :: hs ∧
      h'.descs = (y :: xs) :: ds ∧ h'.reads = h.reads ++ padTo 8 (if x.op = 1 then data.take x.len else []) ∧
      OnlyChanges [.bus b] (I2c.TRANSACTIONS b :: I2c.BYTES_XFER b :: reportIds b code) s t := by
  let u := s.xactDone b code x.len
  obtain ⟨hreport, hcount, hbytes, hbus, hframe⟩ := xactDone_spec hb (code := code) (by omega) s x.len
  obtain ⟨h', hnext, hrest, hreads, hlast⟩ := hostDone_next (s := u) (by rw [hbus, hhosts]) hdescs hpoll code data
  rw [endXact_completed hcur hop hcode]
  exact ⟨h', hreport.stands hlast (by simp), (hlast.rd (by simp)).trans hcount, (hlast.rd (by simp)).trans hbytes, by rw [hnext, hbus],
    by rw [hnext], hrest, hreads, (hframe.trans hlast).mono (by simp) (by simp)⟩

omit hdescs in
/-- A host transaction that fails for good ends its list (R281, R283 to R286). -/
theorem endXact_fails {code : Nat} (hcode : code ≠ 0 ∧ code ≠ 4 ∧ code ≤ 13) {acked : Nat} (hretry : s.retryable b code acked x = false)
    (hnone : ∀ w ∈ s.nmp.waits, w.why ≠ .xferList b) (data : List Byte) :
    let t := s.endXact b code acked data
    Reports b (busAfter code) code s t ∧ (t.bus b).cur = none ∧ (t.bus b).hosts = hs ∧
      t.rdBlob (I2c.XFER_RESULT b) = xferResult s.deviceTime h true code ∧
      OnlyChanges [.bus b, .blob (I2c.XFER_RESULT b)] (I2c.BYTES_XFER b :: reportIds b code) s t := by
  obtain ⟨h0, h4, h13⟩ := hcode
  let u := s.xactMoved b code (min acked x.len)
  obtain ⟨hreport, hbus, hframe⟩ := xactMoved_spec hb h13 s (min acked x.len)
  have hends := endHost_ends (s := u) (by rw [hbus, hhosts]) true code
  have heq : s.endXact b code acked data = u.endHost b true code := by
    rw [endXact_failed hcur hop (by omega), retryable_xactMoved hb h13, hretry]
    rfl
  rw [heq]
  refine ⟨hreport.stands hends.frame (txIds_not_reported hb), by rw [hends.bus, hbus], by rw [hends.bus], ?_,
    (hends.quietly hframe (by simp) hnone).mono (by simp) (fun _ => id)⟩
  rw [hends.result, hframe.deviceTime (by simp) (by simp)]

/-- A host transaction that may be repeated is put back (R286). -/
theorem endXact_retries {code : Nat} (hcode : code ≠ 0 ∧ code ≠ 4 ∧ code ≤ 13) {acked : Nat} (hretry : s.retryable b code acked x = true)
    (data : List Byte) :
    let t := s.endXact b code acked data
    Reports b (busAfter code) code s t ∧ (t.bus b).cur = none ∧
      (t.bus b).hosts = { h with descs := ({ x with tries := x.tries + 1, code := code } :: y :: xs) :: ds } :: hs ∧
      OnlyChanges [.bus b] (I2c.BYTES_XFER b :: reportIds b code) s t := by
  obtain ⟨h0, h4, h13⟩ := hcode
  let u := s.xactMoved b code (min acked x.len)
  let x' := { x with tries := x.tries + 1, code := code }
  obtain ⟨hreport, hbus, hframe⟩ := xactMoved_spec hb h13 s (min acked x.len)
  obtain ⟨hback, hlast⟩ := putBack_host (s := u) (by rw [hbus, hhosts]) hdescs x'
  have heq : s.endXact b code acked data = u.putBack b true x' := by
    rw [endXact_failed hcur hop (by omega), retryable_xactMoved hb h13, hretry]
    rfl
  rw [heq]
  exact ⟨hreport.stands hlast (by simp), by rw [hback, hbus], by rw [hback], (hframe.trans hlast).mono (by simp) (by simp)⟩

/-- Whether or not it is put back, a host transaction that fails is over. -/
theorem endXact_over {code : Nat} (hcode : code ≠ 0 ∧ code ≠ 4 ∧ code ≤ 13) (hnone : ∀ w ∈ s.nmp.waits, w.why ≠ .xferList b)
    (acked : Nat) (data : List Byte) :
    let t := s.endXact b code acked data
    Reports b (busAfter code) code s t ∧ (t.bus b).cur = none ∧
      (t.bus b).hosts = (if s.retryable b code acked x then
        { h with descs := ({ x with tries := x.tries + 1, code := code } :: y :: xs) :: ds } :: hs else hs) ∧
      OnlyChanges [.bus b, .blob (I2c.XFER_RESULT b)] (I2c.BYTES_XFER b :: reportIds b code) s t := by
  cases hretry : s.retryable b code acked x
  · obtain ⟨hreport, hover, hgone, -, hframe⟩ := endXact_fails hhosts hb hcur hop hcode hretry hnone data
    exact ⟨hreport, hover, hgone, hframe⟩
  · obtain ⟨hreport, hover, hback, hframe⟩ := endXact_retries hhosts hdescs hb hcur hop hcode hretry data
    exact ⟨hreport, hover, hback, hframe.mono (by simp) (fun _ => id)⟩

end

/-! ## Polls (R278, R279) -/

/-- The state in which a poll that reached its STOP is over and counted. -/
def State.pollOver (s : State) (b : Nat) : State :=
  ((s.setBus b { s.bus b with cur := none }).busTo b 2).count (I2c.TRANSACTIONS b)

theorem pollOver_spec {b : Nat} (hb : b < 12) (s : State) :
    let t := s.pollOver b
    t.rd (I2c.BUS_STATE b) = 2 ∧ t.rd (I2c.TRANSACTIONS b) = countUp (s.rd (I2c.TRANSACTIONS b)) 1 ∧
      t.bus b = { s.bus b with cur := none, since := s.clock } ∧ OnlyChanges [.bus b] [I2c.BUS_STATE b, I2c.TRANSACTIONS b] s t := by
  let u := s.setBus b { s.bus b with cur := none }
  let v := u.busTo b 2
  have hne : I2c.TRANSACTIONS b ≠ I2c.BUS_STATE b := by simp [I2c.TRANSACTIONS, I2c.BUS_STATE]
  have hcounter : isCounter (I2c.TRANSACTIONS b) = true := isCounter_bus hb le_rfl (Nat.add_le_add_right (by decide) _)
  have hv : OnlyChanges [.bus b] [I2c.BUS_STATE b] s v := ((setBus_only ..).trans (busTo_only ..)).mono (by simp) (by simp)
  have hlast : OnlyChanges [] [I2c.TRANSACTIONS b] v (s.pollOver b) := count_only ..
  refine ⟨(hlast.rd (by simpa using hne.symm)).trans (rd_busTo hb (by decide) u), ?_, ?_, (hv.trans hlast).mono (by simp) (by simp)⟩
  · rw [State.pollOver, rd_count_counter hcounter, hv.rd (by simpa using hne)]
  · rw [hlast.bus (by simp), bus_busTo, bus_setBus_same]
    rfl

/-- A poll that reached its STOP, acknowledged or not (R278). -/
theorem endXact_poll {s : State} {b : Nat} {x : Xact} (hcur : (s.bus b).cur = some (true, x)) (hop : x.op = 3) {code : Nat} (hcode : code ≤ 2)
    (acked : Nat) (data : List Byte) : s.endXact b code acked data = (s.pollOver b).pollEnds b code := by
  have hidle : busAfter code = 2 := by
    unfold busAfter
    rw [if_neg (by omega), if_neg (by omega)]
  simp only [State.endXact, hcur, if_pos hop, hidle, if_pos (show code = 0 ∨ code = 1 ∨ code = 2 by omega)]
  rfl

/-! ## O29: transactions -/

section

variable {b : Fin 12} {s : State} (hruns : s.i2cRuns = true)

include hruns

section

variable (hst : s.rd (I2c.BUS_STATE b) = 3)

include hst

theorem transactionDone_own (nackAddr nackData : Bool) (acked : Nat) (data : List Byte) :
    exec (.i2cTransactionDone b nackAddr nackData acked data) s =
      .next (s.endXact b (if nackAddr then 1 else if nackData then 2 else 0) acked data) :=
  congrArg Host.Outcome.next (if_pos ⟨hruns, hst⟩)

theorem arbLost_own (place : Fin 3) (acked : Nat) (data : List Byte) :
    exec (.i2cArbLost b place acked data) s = .next (s.endXact b (3 + place.val) acked data) :=
  congrArg Host.Outcome.next (if_pos ⟨hruns, hst⟩)

theorem busError_own (acked : Nat) : exec (.i2cBusError b acked) s = .next (s.endXact b 6 acked []) :=
  congrArg Host.Outcome.next (if_pos ⟨hruns, hst⟩)

theorem sclTimeout_own (acked : Nat) : exec (.i2cSclTimeout b acked) s = .next (s.endXact b 7 acked []) := by
  simp [exec, execI2cSclTimeout, hruns, hst]

variable {x y : Xact} {xs : List Xact} {ds : List (List Xact)} {h : HostList} {hs : List HostList}
  (hcur : (s.bus b).cur = some (true, x)) (hhosts : (s.bus b).hosts = h :: hs) (hdescs : h.descs = (x :: y :: xs) :: ds) (hop : x.op ≠ 3)

include hcur hhosts hop

theorem transactionDone_notAcknowledged (hnone : ∀ w ∈ s.nmp.waits, w.why ≠ .xferList b) (addr : Bool) (acked : Nat) (data : List Byte) :
    let counter := if addr then I2c.ADDR_NACK_COUNT b else I2c.DATA_NACK_COUNT b
    ∃ t, exec (.i2cTransactionDone b addr (!addr) acked data) s = .next t ∧ t.rd (I2c.BUS_STATE b) = 2 ∧
      t.rd (I2c.LAST_ERROR b) = (if addr then 1 else 2) ∧ t.rd counter = countUp (s.rd counter) 1 ∧
      (t.bus b).hosts = hs ∧ t.rdBlob (I2c.XFER_RESULT b) = xferResult s.deviceTime h true (if addr then 1 else 2) ∧
      OnlyChanges [.bus b, .blob (I2c.XFER_RESULT b)]
        [I2c.BUS_STATE b, I2c.LAST_ERROR b, I2c.ADDR_NACK_COUNT b, I2c.DATA_NACK_COUNT b, I2c.BYTES_XFER b] s t := by
  intro counter
  let code := if addr then 1 else 2
  have hcode : codeCounters b code = [counter] ∧ busAfter code = 2 ∧ s.retryable b code acked x = false ∧
      code ≠ 0 ∧ code ≠ 4 ∧ code ≤ 13 := by
    cases addr <;> simp [code, counter, codeCounters, busAfter, State.retryable]
  obtain ⟨hcounter, hidle, hretry, hfails⟩ := hcode
  have hexec : exec (.i2cTransactionDone b addr (!addr) acked data) s = .next (s.endXact b code acked data) := by
    rw [transactionDone_own hruns hst]
    cases addr <;> rfl
  obtain ⟨hreport, -, hgone, hresult, hframe⟩ := endXact_fails hhosts b.isLt hcur hop hfails hretry hnone data
  refine ⟨_, hexec, hidle ▸ hreport.state, hreport.error, hreport.counted _ (by simp [hcounter]), hgone, hresult, hframe.mono (fun _ => id) ?_⟩
  rw [reportIds, hcounter]
  cases addr <;> simp [counter]

theorem sclTimeout_ends (hnone : ∀ w ∈ s.nmp.waits, w.why ≠ .xferList b) (acked : Nat) :
    ∃ t, exec (.i2cSclTimeout b acked) s = .next t ∧ t.rd (I2c.BUS_STATE b) = 1 ∧ t.rd (I2c.LAST_ERROR b) = 7 ∧
      t.rd (I2c.SCL_TIMEOUT_COUNT b) = countUp (s.rd (I2c.SCL_TIMEOUT_COUNT b)) 1 ∧ (t.bus b).hosts = hs ∧
      t.rdBlob (I2c.XFER_RESULT b) = xferResult s.deviceTime h true 7 ∧
      OnlyChanges [.bus b, .blob (I2c.XFER_RESULT b)] [I2c.BUS_STATE b, I2c.LAST_ERROR b, I2c.SCL_TIMEOUT_COUNT b, I2c.BYTES_XFER b] s t := by
  obtain ⟨hreport, -, hgone, hresult, hframe⟩ :=
    endXact_fails (code := 7) (acked := acked) hhosts b.isLt hcur hop (by decide) (by simp [State.retryable]) hnone []
  exact ⟨_, sclTimeout_own hruns hst acked, hreport.state, hreport.error, hreport.counted _ (List.mem_singleton.2 rfl), hgone, hresult,
    hframe.mono (fun _ => id) (by simp [reportIds, codeCounters])⟩

include hdescs

theorem transactionDone_completes (hpoll : x.poll = 0) (acked : Nat) (data : List Byte) :
    ∃ t h', exec (.i2cTransactionDone b false false acked data) s = .next t ∧
      t.rd (I2c.BUS_STATE b) = 2 ∧ t.rd (I2c.LAST_ERROR b) = 0 ∧ t.rd (I2c.TRANSACTIONS b) = countUp (s.rd (I2c.TRANSACTIONS b)) 1 ∧
      t.rd (I2c.BYTES_XFER b) = bytesUp (s.rd (I2c.BYTES_XFER b)) x.len ∧ (t.bus b).cur = none ∧ (t.bus b).hosts = h' :: hs ∧
      h'.descs = (y :: xs) :: ds ∧ h'.reads = h.reads ++ padTo 8 (if x.op = 1 then data.take x.len else []) ∧
      OnlyChanges [.bus b] [I2c.BUS_STATE b, I2c.LAST_ERROR b, I2c.TRANSACTIONS b, I2c.BYTES_XFER b] s t := by
  obtain ⟨h', hreport, hcount, hbytes, hover, hnext, hrest, hreads, hframe⟩ :=
    endXact_completes hhosts hdescs b.isLt hcur hop hpoll (.inl rfl) acked data
  exact ⟨_, h', transactionDone_own hruns hst false false acked data, hreport.state, hreport.error, hcount, hbytes, hover, hnext, hrest, hreads,
    hframe.mono (fun _ => id) (by simp [reportIds, codeCounters])⟩

/-- Arbitration lost during the STOP completes the transaction, elsewhere it fails (R283). -/
theorem arbLost_over (hpoll : x.poll = 0) (hnone : ∀ w ∈ s.nmp.waits, w.why ≠ .xferList b) (place : Fin 3) (acked : Nat) (data : List Byte) :
    ∃ t, exec (.i2cArbLost b place acked data) s = .next t ∧ t.rd (I2c.BUS_STATE b) = 4 ∧ t.rd (I2c.LAST_ERROR b) = 3 + place.val ∧
      (t.bus b).cur = none ∧
      OnlyChanges [.bus b, .blob (I2c.XFER_RESULT b)] [I2c.BUS_STATE b, I2c.LAST_ERROR b, I2c.ARB_LOST_COUNT b, I2c.ARB_LOST_STOP_COUNT b,
        I2c.ARB_LOST_RSTART_COUNT b, I2c.TRANSACTIONS b, I2c.BYTES_XFER b] s t := by
  have hother : busAfter (3 + place.val) = 4 := (by decide : ∀ i : Fin 3, busAfter (3 + i.val) = 4) place
  have hids : ∀ id ∈ I2c.TRANSACTIONS b :: I2c.BYTES_XFER b :: reportIds b (3 + place.val), id ∈ [I2c.BUS_STATE b, I2c.LAST_ERROR b,
      I2c.ARB_LOST_COUNT b, I2c.ARB_LOST_STOP_COUNT b, I2c.ARB_LOST_RSTART_COUNT b, I2c.TRANSACTIONS b, I2c.BYTES_XFER b] := by
    obtain rfl | rfl | rfl : place = 0 ∨ place = 1 ∨ place = 2 := by omega
    all_goals simp [reportIds, codeCounters]
  suffices hover : let t := s.endXact b (3 + place.val) acked data
      Reports b (busAfter (3 + place.val)) (3 + place.val) s t ∧ (t.bus b).cur = none ∧ OnlyChanges [.bus b, .blob (I2c.XFER_RESULT b)]
        (I2c.TRANSACTIONS b :: I2c.BYTES_XFER b :: reportIds b (3 + place.val)) s t by
    obtain ⟨hreport, hcur', hframe⟩ := hover
    exact ⟨_, arbLost_own hruns hst place acked data, hother ▸ hreport.state, hreport.error, hcur', hframe.mono (fun _ => id) hids⟩
  by_cases hstop : place.val = 1
  · obtain ⟨h', hreport, -, -, hover, -, -, -, hframe⟩ :=
      endXact_completes (code := 3 + place.val) hhosts hdescs b.isLt hcur hop hpoll (.inr (by omega)) acked data
    exact ⟨hreport, hover, hframe.mono (by simp) (fun _ => id)⟩
  · obtain ⟨hreport, hover, -, hframe⟩ := endXact_over (code := 3 + place.val) hhosts hdescs b.isLt hcur hop (by omega) hnone acked data
    exact ⟨hreport, hover, hframe.mono (fun _ => id) (by simp +contextual)⟩

theorem busError_over (hnone : ∀ w ∈ s.nmp.waits, w.why ≠ .xferList b) (acked : Nat) :
    ∃ t, exec (.i2cBusError b acked) s = .next t ∧ t.rd (I2c.BUS_STATE b) = 4 ∧ t.rd (I2c.LAST_ERROR b) = 6 ∧
      t.rd (I2c.BUS_ERROR_COUNT b) = countUp (s.rd (I2c.BUS_ERROR_COUNT b)) 1 ∧ (t.bus b).cur = none ∧
      (t.bus b).hosts = (if x.tries < s.rd (I2c.RETRY_LIMIT b) ∧ (x.op ≠ 0 ∨ acked = 0) then
        { h with descs := ({ x with tries := x.tries + 1, code := 6 } :: y :: xs) :: ds } :: hs else hs) ∧
      OnlyChanges [.bus b, .blob (I2c.XFER_RESULT b)] [I2c.BUS_STATE b, I2c.LAST_ERROR b, I2c.BUS_ERROR_COUNT b, I2c.BYTES_XFER b] s t := by
  obtain ⟨hreport, hover, hafter, hframe⟩ := endXact_over (code := 6) hhosts hdescs b.isLt hcur hop (by decide) hnone acked []
  refine ⟨_, busError_own hruns hst acked, hreport.state, hreport.error, hreport.counted _ (List.mem_singleton.2 rfl), hover, ?_,
    hframe.mono (fun _ => id) (by simp [reportIds, codeCounters])⟩
  rw [hafter]
  simp [State.retryable]

end

/-! ## O29: polls -/

variable {x : Xact} {due : Nat} {h : HostList} (hpoll : (s.bus b).pollEnd = some due) (hhosts : (s.bus b).hosts = [h])

include hpoll hhosts

theorem poll_starts (hdescs : h.descs = [[x]]) (hsensor : (s.bus b).sensor = []) (hst : s.rd (I2c.BUS_STATE b) = 2) (hcur : (s.bus b).cur = none)
    (htries : (s.bus b).pollTries = 0) :
    ∃ t, exec (.i2cPoll b) s = .next t ∧ t.out = .i2c b x.pollOf.wire :: s.out ∧ t.rd (I2c.BUS_STATE b) = 3 ∧
      (t.bus b).cur = some (true, x.pollOf) ∧ OnlyChanges [.out, .bus b] [I2c.BUS_STATE b] s t := by
  have hjob : s.nextJob b = none := nextJob_none (by simp [hsensor])
  have hexec : exec (.i2cPoll b) s = .next (s.busStart b true 0 x.pollOf) := by
    simp only [exec, execI2cPoll, hpoll, host_of_hosts hhosts, hdescs, htries, hruns, hst, hcur, hjob]
    exact congrArg Host.Outcome.next (if_pos (by simp [State.hostMayStart, State.earliestWindow, hsensor]))
  obtain ⟨hown, hstarted, -, hout, hframe⟩ := busStart_spec (s := s) b.isLt true 0 (x := x.pollOf) rfl
  exact ⟨_, hexec, hout, hown, hstarted, hframe.mono (by simp) (fun _ => id)⟩

theorem poll_notAcknowledged (hst : s.rd (I2c.BUS_STATE b) = 3) (hcur : (s.bus b).cur = some (true, x.pollOf)) (acked : Nat) (data : List Byte) :
    ∃ t, exec (.i2cTransactionDone b true false acked data) s = .next t ∧ t.rd (I2c.BUS_STATE b) = 2 ∧ (t.bus b).hosts = [h] ∧
      (t.bus b).pollEnd = some due ∧ t.rd (I2c.TRANSACTIONS b) = countUp (s.rd (I2c.TRANSACTIONS b)) 1 ∧
      OnlyChanges [.bus b] [I2c.BUS_STATE b, I2c.TRANSACTIONS b] s t := by
  obtain ⟨hidle, hcount, hbus, hframe⟩ := pollOver_spec b.isLt s
  let u := s.pollOver b
  let v := u.setBus b { u.bus b with pollTries := 0 }
  have hexec : exec (.i2cTransactionDone b true false acked data) s = .next v := by
    rw [transactionDone_own hruns hst, endXact_poll hcur rfl (by simp)]
    simp [State.pollEnds, hbus, hpoll, v, u]
  have hlast : OnlyChanges [.bus b.val] [] u v := setBus_only ..
  have hv : v.bus b = { s.bus b with cur := none, since := s.clock, pollTries := 0 } := by simp [v, u, hbus]
  exact ⟨_, hexec, (hlast.rd (by simp)).trans hidle, by rw [hv, hhosts], by rw [hv, hpoll], (hlast.rd (by simp)).trans hcount,
    (hframe.trans hlast).mono (by simp) (by simp)⟩

theorem poll_acknowledged (hdescs : h.descs = [[x]]) (hst : s.rd (I2c.BUS_STATE b) = 3) (hcur : (s.bus b).cur = some (true, x.pollOf)) (acked : Nat)
    (data : List Byte) :
    ∃ t, exec (.i2cTransactionDone b false false acked data) s = .next t ∧ t.rd (I2c.BUS_STATE b) = 2 ∧ (t.bus b).hosts = [] ∧
      (t.bus b).pollEnd = none ∧ t.rd (I2c.TRANSACTIONS b) = countUp (s.rd (I2c.TRANSACTIONS b)) 1 ∧
      t.rdBlob (I2c.XFER_RESULT b) = xferResult s.deviceTime { h with descs := [], done := h.done + 1 } false h.warn ∧
      t.nmp.waits.filter (fun w => w.why == .xferList b && h.r == some w.r) = [] ∧
      ((∀ w ∈ s.nmp.waits, w.why ≠ .xferList b) →
        OnlyChanges [.bus b, .blob (I2c.XFER_RESULT b)] [I2c.BUS_STATE b, I2c.TRANSACTIONS b] s t) := by
  obtain ⟨hidle, hcount, hbus, hframe⟩ := pollOver_spec b.isLt s
  let u := s.pollOver b
  have hexec : exec (.i2cTransactionDone b false false acked data) s = .next (u.hostAdvance b) := by
    rw [transactionDone_own hruns hst, endXact_poll hcur rfl (by simp)]
    simp [State.pollEnds, hbus, hpoll, u]
  have hends := hostAdvance_last (s := u) (by rw [hbus, hhosts]) hdescs
  have hsent {id : Nat} (hid : 0x60000000 ≤ id) : (u.hostAdvance b).rd id = u.rd id := hends.frame.rd (not_mem_txIds hid)
  refine ⟨_, hexec, (hsent ?_).trans hidle, by rw [hends.bus], by rw [hends.bus], (hsent ?_).trans hcount, ?_, hends.waits, fun hnone =>
    (hends.quietly hframe (by simp) hnone).mono (by simp) (fun _ => id)⟩
  · simp only [I2c.BUS_STATE]; omega
  · simp only [I2c.TRANSACTIONS]; omega
  · rw [hends.result, hframe.deviceTime (by simp) (by simp)]

theorem pollTimeout_ends (hsensor : (s.bus b).sensor = []) :
    ∃ t, exec (.i2cPollTimeout b) s = .next t ∧ t.clock = max s.clock due ∧ t.rd (I2c.LAST_ERROR b) = 12 ∧
      t.rd (I2c.POLL_TIMEOUTS b) = countUp (s.rd (I2c.POLL_TIMEOUTS b)) 1 ∧ (t.bus b).hosts = [] ∧ (t.bus b).pollEnd = none ∧
      t.rdBlob (I2c.XFER_RESULT b) = xferResult t.deviceTime h true 12 ∧
      t.nmp.waits.filter (fun w => w.why == .xferList b && h.r == some w.r) = [] ∧
      ((∀ w ∈ s.nmp.waits, w.why ≠ .xferList b) →
        OnlyChanges [.clock, .bus b, .blob (I2c.XFER_RESULT b)] [I2c.LAST_ERROR b, I2c.POLL_TIMEOUTS b] s t) := by
  let u := (s.at due).i2cCode b 12
  let t := u.endHost b true 12
  have hu : OnlyChanges [.clock] [I2c.LAST_ERROR b, I2c.POLL_TIMEOUTS b] s u := (at_only ..).trans (i2cCode_only ..)
  have hbus : u.bus b = s.bus b := hu.bus (by simp)
  have hends : ListEnds b h [] true 12 u t := endHost_ends (by rw [hbus, hhosts]) ..
  have hexec : exec (.i2cPollTimeout b) s = .next t := by
    have hkick : t.kickBus b = t := kickBus_empty (by rw [hends.bus, hbus, hsensor]) (by rw [hends.bus])
    simp only [exec, execI2cPollTimeout, hpoll, hruns, if_true]
    exact congrArg Host.Outcome.next hkick
  have hreport := (i2cCode_reports b.isLt (code := 12) (by decide) (s.at due)).stands hends.frame (txIds_not_reported b.isLt)
  refine ⟨t, hexec, ?_, hreport.error, hreport.counted _ (List.mem_singleton.2 rfl), by rw [hends.bus], by rw [hends.bus], ?_, hends.waits,
    fun hnone => hends.quietly hu (by simp) hnone⟩
  · rw [hends.frame.clock (by simp)]
    exact (i2cCode_only ..).clock (by simp)
  · rw [hends.result, hends.frame.deviceTime (by simp) (by simp)]

end

/-- Settles O29: host transactions by `endXact_completes`, `endXact_fails` and `endXact_over`, lists that end by `endHost_ends`, polls by
`endXact_poll`. -/
theorem transactionsEndWithACode : Obligations.TransactionsEndWithACode := by
  refine ⟨fun b x y xs ds h hs s hruns hst hcur hhosts hdescs hpoll hop hnone => ⟨?_, ?_, ?_, ?_, ?_⟩,
    fun b x due h s hruns hpoll hhosts hdescs hsensor => ⟨?_, fun hst hcur acked data => ⟨?_, ?_⟩, ?_⟩⟩
  · exact transactionDone_completes hruns hst hcur hhosts hdescs hop hpoll
  · exact transactionDone_notAcknowledged hruns hst hcur hhosts hop hnone
  · exact arbLost_over hruns hst hcur hhosts hdescs hop hpoll hnone
  · exact busError_over hruns hst hcur hhosts hdescs hop hnone
  · exact sclTimeout_ends hruns hst hcur hhosts hop hnone
  · exact poll_starts hruns hpoll hhosts hdescs hsensor
  · exact poll_notAcknowledged hruns hpoll hhosts hst hcur acked data
  · exact poll_acknowledged hruns hpoll hhosts hdescs hst hcur acked data
  · exact pollTimeout_ends hruns hpoll hhosts hsensor

end Sys2Proof.Machine

/-! Display links and the raster (R291 to R293): the parameters of a head, changes of its link and of its lock, frames that start, and the
alignment of a locked head. -/

namespace Sys2Proof.Machine

/-! ## The parameters of a head (Table 11-7) -/

/-- What a head reports or shows in 32 bits. -/
def headWords (h : Nat) : List Nat :=
  [Head.LINK_STATE h, Head.LINK_TRAINED h, Head.SINK_CAPS h, Head.LOCK_STATE h, Head.LOCK_ERROR h, Head.DISP_FRAME h, Head.BACKGROUND h,
    Head.UNDERFLOW_COLOUR h]

/-- What a head counts, and LAST_COMMIT, in 64 bits. -/
def headCounters (h : Nat) : List Nat :=
  [Head.FRAMES_SCANNED h, Head.LOCK_TRIMS h, Head.LOCK_JUMPS h, Head.UNDERFLOW_FRAMES h, Head.LINK_TRAIN_FAIL h, Head.COMMITS h,
    Head.LAST_COMMIT h]

/-- The parameters of a head's link, raster and commits. -/
def headIds (h : Nat) : List Nat := headWords h ++ headCounters h

theorem isWord_headWords : ∀ h < 4, ∀ id ∈ headWords h, isWord id = true := by decide +kernel

theorem isCounter_headCounters : ∀ h < 4, ∀ id ∈ headCounters h, isCounter id = true := by decide +kernel

/-- They lie in group 0x30, before SOURCE_LOST, the layers and the rectangles. -/
theorem headIds_bounds : ∀ h < 4, ∀ id ∈ headIds h, 0x30000000 ≤ id ∧ id < 0x30040000 ∧ id % 0x10000 < 0x3A := by decide +kernel

theorem sendIds_not_head : ∀ id ∈ sendIds, id < 0x30000000 ∨ 0x31000000 ≤ id := by decide

/-- What sending counts are no parameters of a head. -/
theorem head_not_mem_sendIds {id : Nat} (h : 0x30000000 ≤ id ∧ id < 0x31000000) : id ∉ sendIds := fun hm => by
  have := sendIds_not_head id hm
  omega

theorem headIds_not_sent {h : Nat} (hh : h < 4) : ∀ id ∈ headIds h, id ∉ sendIds := fun id hid => by
  have := headIds_bounds h hh id hid
  exact head_not_mem_sendIds (by omega)

theorem rd_wr_headWord {h id v : Nat} (hh : h < 4) (hid : id ∈ headWords h) (hv : v < 2 ^ 32) (s : State) : (s.wr id v).rd id = v :=
  rd_wr_word (isWord_headWords h hh id hid) hv s

theorem rd_count_headCounter {h id : Nat} (hh : h < 4) (hid : id ∈ headCounters h) (s : State) : (s.count id).rd id = countUp (s.rd id) 1 :=
  rd_count_counter (isCounter_headCounters h hh id hid) s

theorem OnlyChanges.head {ps : List Part} {ids : List Nat} {s t : State} {h : Nat} (hst : OnlyChanges ps ids s t) (hp : .head h ∉ ps) :
    t.head h = s.head h :=
  hst.2.1 (.head h) hp

theorem OnlyChanges.firings {ps : List Part} {ids : List Nat} {s t : State} (hst : OnlyChanges ps ids s t) (hp : .firings ∉ ps) :
    t.firings = s.firings :=
  hst.2.1 .firings hp

@[simp] theorem head_wr (s : State) (id v h : Nat) : (s.wr id v).head h = s.head h := (wr_only ..).head (by simp)

@[simp] theorem head_count (s : State) (id h : Nat) : (s.count id).head h = s.head h := head_wr ..

@[simp] theorem rd_setHead (s : State) (h : Nat) (x : HeadSt) (id : Nat) : (s.setHead h x).rd id = s.rd id := rfl

/-! ## The link of a head (R291, Table 11-3) -/

theorem linkTo_only (s : State) (h st : Nat) : OnlyChanges sending (Head.LINK_STATE h :: sendIds) s (s.linkTo h st) := by
  unfold State.linkTo
  split
  · exact (OnlyChanges.refl s).mono (by simp) (by simp)
  · exact (((wr_only ..).trans (linkNotify_only ..)).trans (emitQuiet_only _ rfl)).mono (by simp [sending]) (by simp)

theorem lockTo_only (s : State) (h st : Nat) : OnlyChanges sending (Head.LOCK_STATE h :: sendIds) s (s.lockTo h st) := by
  unfold State.lockTo
  split
  · exact (OnlyChanges.refl s).mono (by simp) (by simp)
  · exact ((wr_only ..).trans (linkNotify_only ..)).mono (by simp) (by simp)

section

variable {h : Nat} (hh : h < 4)

include hh

theorem rd_linkTo {st : Nat} (hst : st < 2 ^ 32) (s : State) : (s.linkTo h st).rd (Head.LINK_STATE h) = st := by
  have hsent : Head.LINK_STATE h ∉ sendIds := headIds_not_sent hh _ (by simp [headIds, headWords])
  unfold State.linkTo
  split
  next hsame => exact hsame
  next => rw [(emitQuiet_only _ rfl).rd (by simp), (linkNotify_only ..).rd hsent, rd_wr_headWord hh (by simp [headWords]) hst]

theorem rd_lockTo {st : Nat} (hst : st < 2 ^ 32) (s : State) : (s.lockTo h st).rd (Head.LOCK_STATE h) = st := by
  have hsent : Head.LOCK_STATE h ∉ sendIds := headIds_not_sent hh _ (by simp [headIds, headWords])
  unfold State.lockTo
  split
  next hsame => exact hsame
  next => rw [(linkNotify_only ..).rd hsent, rd_wr_headWord hh (by simp [headWords]) hst]

/-- A change of the link moves no other parameter of the head. -/
theorem rd_linkTo_other {id : Nat} (hid : id ∈ headIds h) (hne : id ≠ Head.LINK_STATE h) (s : State) (st : Nat) :
    (s.linkTo h st).rd id = s.rd id :=
  (linkTo_only ..).rd (by simpa [hne] using headIds_not_sent hh id hid)

theorem rd_lockTo_other {id : Nat} (hid : id ∈ headIds h) (hne : id ≠ Head.LOCK_STATE h) (s : State) (st : Nat) :
    (s.lockTo h st).rd id = s.rd id :=
  (lockTo_only ..).rd (by simpa [hne] using headIds_not_sent hh id hid)

end

section

variable {h : Fin 4} {s : State}

theorem hpdRise_trains {caps : Nat} (hcaps : caps < 2 ^ 32) (hidle : s.rd (Head.LINK_STATE h) = 1 ∨ s.rd (Head.LINK_STATE h) = 5) :
    ∃ t, exec (.hpdRise h caps) s = .next t ∧ t.rd (Head.LINK_STATE h) = 2 ∧ t.rd (Head.SINK_CAPS h) = caps ∧ (t.head h).hpd = true ∧
      OnlyChanges (.head h :: sending) (Head.LINK_STATE h :: Head.SINK_CAPS h :: sendIds) s t := by
  let x : HeadSt := { s.head h with hpd := true, caps := caps }
  let u := (s.setHead h x).wr (Head.SINK_CAPS h) caps
  have hu : OnlyChanges [.head h] [Head.SINK_CAPS h] s u := (setHead_only ..).trans (wr_only ..)
  have hst : u.rd (Head.LINK_STATE h) = s.rd (Head.LINK_STATE h) := hu.rd (by simp [Head.LINK_STATE, Head.SINK_CAPS])
  have hcapsRead : u.rd (Head.SINK_CAPS h) = caps := rd_wr_headWord h.isLt (by simp [headWords]) hcaps _
  refine ⟨u.linkTo h 2, congrArg Host.Outcome.next (if_pos (hst ▸ hidle)), rd_linkTo h.isLt (by decide) u, ?_, ?_,
    (hu.trans (linkTo_only ..)).mono (by simp) (by simp +contextual [or_imp])⟩
  · rw [rd_linkTo_other h.isLt (by simp [headIds, headWords]) (by simp [Head.LINK_STATE, Head.SINK_CAPS]), hcapsRead]
  · rw [(linkTo_only ..).head (by simp [sending])]
    simp [u, x]

theorem wrAll_pair (s : State) (i v j w : Nat) : s.wrAll [(i, v), (j, w)] = (s.wr i v).wr j w := rfl

/-- The sink of a head has gone: nothing stands in SINK_CAPS and LINK_TRAINED. -/
def State.sinkLost (s : State) (h : Nat) : State :=
  (s.setHead h { s.head h with hpd := false, caps := 0 }).wrAll [(Head.SINK_CAPS h, 0), (Head.LINK_TRAINED h, 0)]

theorem exec_hpdLowTimeout (h : Fin 4) (s : State) :
    exec (.hpdLowTimeout h) s = .next (if (s.sinkLost h).headRuns h then (s.sinkLost h).linkTo h 1 else s.sinkLost h) := rfl

theorem sinkLost_only (s : State) (h : Nat) : OnlyChanges [.head h] [Head.SINK_CAPS h, Head.LINK_TRAINED h] s (s.sinkLost h) :=
  (setHead_only ..).trans (wrAll_only ..)

theorem head_sinkLost (s : State) (h : Nat) : (s.sinkLost h).head h = { s.head h with hpd := false, caps := 0 } := by
  rw [State.sinkLost, (wrAll_only ..).head (by simp), head_setHead_same]

theorem sinkLost_reports (s : State) (h : Fin 4) :
    (s.sinkLost h).rd (Head.SINK_CAPS h) = 0 ∧ (s.sinkLost h).rd (Head.LINK_TRAINED h) = 0 := by
  rw [State.sinkLost, wrAll_pair]
  refine ⟨?_, rd_wr_headWord h.isLt (by simp [headWords]) (by decide) _⟩
  rw [rd_wr_other (by simp [Head.SINK_CAPS, Head.LINK_TRAINED]), rd_wr_headWord h.isLt (by simp [headWords]) (by decide)]

theorem hpdLowTimeout_noSink (hruns : s.rd (Head.LINK_STATE h) ≠ 0) :
    ∃ t, exec (.hpdLowTimeout h) s = .next t ∧ t.rd (Head.LINK_STATE h) = 1 ∧ t.rd (Head.SINK_CAPS h) = 0 ∧
      t.rd (Head.LINK_TRAINED h) = 0 ∧ (t.head h).hpd = false ∧
      OnlyChanges (.head h :: sending) (Head.LINK_STATE h :: Head.SINK_CAPS h :: Head.LINK_TRAINED h :: sendIds) s t := by
  have hu := sinkLost_only s h
  have hst : (s.sinkLost h).rd (Head.LINK_STATE h) = s.rd (Head.LINK_STATE h) :=
    hu.rd (by simp [Head.LINK_STATE, Head.SINK_CAPS, Head.LINK_TRAINED])
  have hstill : (s.sinkLost h).headRuns h = true := bne_iff_ne.2 (hst ▸ hruns)
  obtain ⟨hcaps, htrained⟩ := sinkLost_reports s h
  refine ⟨(s.sinkLost h).linkTo h 1, by rw [exec_hpdLowTimeout, if_pos hstill], rd_linkTo h.isLt (by decide) _, ?_, ?_, ?_,
    (hu.trans (linkTo_only ..)).mono (by simp) (by simp +contextual [or_imp])⟩
  · rw [rd_linkTo_other h.isLt (by simp [headIds, headWords]) (by simp [Head.LINK_STATE, Head.SINK_CAPS]), hcaps]
  · rw [rd_linkTo_other h.isLt (by simp [headIds, headWords]) (by simp [Head.LINK_STATE, Head.LINK_TRAINED]), htrained]
  · rw [(linkTo_only ..).head (by simp [sending]), head_sinkLost]

theorem hpdIrq_retrains (hactive : s.rd (Head.LINK_STATE h) = 3) :
    ∃ t, exec (.hpdIrq h true) s = .next t ∧ t.rd (Head.LINK_STATE h) = 2 ∧ OnlyChanges sending (Head.LINK_STATE h :: sendIds) s t :=
  ⟨s.linkTo h 2, by simp [exec, execHpdIrq, hactive], rd_linkTo h.isLt (by decide) s, linkTo_only ..⟩

/-- A combination of the training order has a rate code and at most four lanes, which fit LINK_TRAINED. -/
theorem trainingOrder_fits {k : Nat} {e : Nat × Nat} (he : e ∈ s.trainingOrder k) : e.1 * 256 + e.2 < 2 ^ 32 := by
  simp only [State.trainingOrder, List.mem_flatMap, List.mem_map, List.mem_filter] at he
  obtain ⟨lanes, ⟨hlanes, -⟩, rate, ⟨hrate, -⟩, rfl⟩ := he
  have hl : lanes ≤ 4 := (by decide : ∀ n ∈ [4, 2, 1], n ≤ 4) lanes hlanes
  have hr : rate ≤ 9 := by
    unfold headRates at hrate
    split at hrate
    · exact (by decide : ∀ r ∈ [5, 4, 3, 2, 1, 0], r ≤ 9) rate hrate
    · exact (by decide : ∀ r ∈ [3, 2, 9, 8, 1, 7, 6, 0], r ≤ 9) rate hrate
  dsimp only
  omega

/-- The combination that training takes: the first of the training order that works and that the mode fits. -/
def State.trains (s : State) (h : Nat) (works : List (Nat × Nat)) : Option (Nat × Nat) :=
  (s.trainingOrder h).find? fun e => works.contains e &&
    modeFits (s.rd (Head.PIXEL_CLOCK h)) (bitsPerPixel (s.rd (Head.OUT_COLOUR h)) (s.rd (Head.OUT_BPC h))) e.1 e.2

theorem exec_linkTrainingDone (htraining : s.rd (Head.LINK_STATE h) = 2) (works : List (Nat × Nat)) :
    exec (.linkTrainingDone h works) s = .next (match s.trains h works with
      | some e => (s.wr (Head.LINK_TRAINED h) (e.1 * 256 + e.2)).linkTo h 3
      | none => (s.linkTo h 5).count (Head.LINK_TRAIN_FAIL h)) :=
  congrArg Host.Outcome.next (if_pos htraining)

theorem linkTrainingDone_active (htraining : s.rd (Head.LINK_STATE h) = 2) {works : List (Nat × Nat)} {e : Nat × Nat}
    (he : s.trains h works = some e) :
    ∃ t, exec (.linkTrainingDone h works) s = .next t ∧ t.rd (Head.LINK_STATE h) = 3 ∧ t.rd (Head.LINK_TRAINED h) = e.1 * 256 + e.2 ∧
      OnlyChanges sending (Head.LINK_STATE h :: Head.LINK_TRAINED h :: sendIds) s t := by
  let u := s.wr (Head.LINK_TRAINED h) (e.1 * 256 + e.2)
  have htrained : u.rd (Head.LINK_TRAINED h) = e.1 * 256 + e.2 :=
    rd_wr_headWord h.isLt (by simp [headWords]) (trainingOrder_fits (List.mem_of_find?_eq_some he)) _
  refine ⟨u.linkTo h 3, by rw [exec_linkTrainingDone htraining, he], rd_linkTo h.isLt (by decide) u, ?_,
    ((wr_only ..).trans (linkTo_only ..)).mono (by simp) (by simp +contextual [or_imp])⟩
  rw [rd_linkTo_other h.isLt (by simp [headIds, headWords]) (by simp [Head.LINK_STATE, Head.LINK_TRAINED]), htrained]

theorem linkTrainingDone_fails (htraining : s.rd (Head.LINK_STATE h) = 2) {works : List (Nat × Nat)} (hnone : s.trains h works = none) :
    ∃ t, exec (.linkTrainingDone h works) s = .next t ∧ t.rd (Head.LINK_STATE h) = 5 ∧
      t.rd (Head.LINK_TRAIN_FAIL h) = countUp (s.rd (Head.LINK_TRAIN_FAIL h)) 1 ∧
      OnlyChanges sending (Head.LINK_STATE h :: Head.LINK_TRAIN_FAIL h :: sendIds) s t := by
  refine ⟨(s.linkTo h 5).count (Head.LINK_TRAIN_FAIL h), by rw [exec_linkTrainingDone htraining, hnone], ?_, ?_,
    ((linkTo_only ..).trans (count_only ..)).mono (by simp) (by simp +contextual [or_imp])⟩
  · rw [(count_only ..).rd (by simp [Head.LINK_STATE, Head.LINK_TRAIN_FAIL]), rd_linkTo h.isLt (by decide)]
  · rw [rd_count_headCounter h.isLt (by simp [headCounters]),
      rd_linkTo_other h.isLt (by simp [headIds, headCounters]) (by simp [Head.LINK_STATE, Head.LINK_TRAIN_FAIL])]

end

/-! ## The raster (R292) -/

/-- The parameters on which the duration of a line depends (R292, R293). -/
def timingIds (h : Nat) : List Nat :=
  [Head.LOCK_MODE h, Head.H_TIMING_A h, Head.H_TIMING_B h, Head.V_TIMING_A h, Head.V_TIMING_B h, Head.PIXEL_CLOCK h, Head.LOCK_RATIO h,
    Tick.TICK_RATE_D, Tick.TICK_RATE_N]

theorem timingIds_not_sent : ∀ h < 4, ∀ id ∈ timingIds h, id ∉ sendIds := by decide +kernel

/-- The counts of frames are not among them. -/
theorem timingIds_not_frame (h : Nat) : ∀ id ∈ timingIds h, id ∉ [Head.DISP_FRAME h, Head.FRAMES_SCANNED h, Head.STALE_FRAMES h] := by
  simp [timingIds, Head.LOCK_MODE, Head.H_TIMING_A, Head.H_TIMING_B, Head.V_TIMING_A, Head.V_TIMING_B, Head.PIXEL_CLOCK, Head.LOCK_RATIO,
    Tick.TICK_RATE_D, Tick.TICK_RATE_N, Head.DISP_FRAME, Head.FRAMES_SCANNED, Head.STALE_FRAMES]
  omega

/-- A change that leaves those parameters alone leaves the timing of the raster. -/
structure SameTiming (h : Nat) (s t : State) : Prop where
  mode : t.rd (Head.LOCK_MODE h) = s.rd (Head.LOCK_MODE h)
  ratio : t.lockRatio h = s.lockRatio h
  line : t.lineTime h = s.lineTime h
  vertical : t.vTiming h = s.vTiming h

theorem OnlyChanges.sameTiming {ps : List Part} {ids : List Nat} {s t : State} {h : Nat} (hst : OnlyChanges ps ids s t)
    (hids : ∀ id ∈ timingIds h, id ∉ ids) : SameTiming h s t := by
  have hrd : ∀ id ∈ timingIds h, t.rd id = s.rd id := fun id hid => hst.rd (hids id hid)
  simp only [timingIds, List.forall_mem_cons] at hrd
  obtain ⟨hmode, hha, hhb, hva, hvb, hpixel, hratio, hd, hn, -⟩ := hrd
  have hlock : t.lockRatio h = s.lockRatio h := by rw [State.lockRatio, State.lockRatio, hratio]
  have hhorizontal : t.hTiming h = s.hTiming h := by rw [State.hTiming, State.hTiming, hha, hhb]
  have hvertical : t.vTiming h = s.vTiming h := by rw [State.vTiming, State.vTiming, hva, hvb]
  refine ⟨hmode, hlock, ?_, hvertical⟩
  rw [State.lineTime, State.lineTime, hmode, hlock, hhorizontal, hvertical, hpixel, hd, hn]

theorem SameTiming.linesNs {h : Nat} {s t : State} (hst : SameTiming h s t) (lines : Nat) : t.linesNs h lines = s.linesNs h lines := by
  rw [State.linesNs, State.linesNs, hst.line]

/-- A display frame of a head has started: the clock is at its start, it is counted, and nothing of it has been latched, torn or late. -/
def State.frameBegun (s : State) (h : Nat) : State :=
  let s := s.at ((s.head h).due.getD 0)
  let s := (s.next32 (Head.DISP_FRAME h)).count (Head.FRAMES_SCANNED h)
  let s := s.setHead h { s.head h with frameAt := s.clock, latched := false, torn := false, under := [], wake := (s.head h).wake - 1 }
  let stale := s.rd (Head.LINK_STATE h) != 4 && (List.range 4).any fun l => bit (s.rd (Head.LAYER_STATUS h l)) 0
  if stale then s.count (Head.STALE_FRAMES h) else s

/-- The next frame of a head is due: V_TOTAL lines, with the correction that stands, after the one that has started. -/
def State.frameTimed (s : State) (h : Nat) : State :=
  let x := s.head h
  let s := s.setHead h { x with due := some (x.frameAt + s.linesNs h (((s.vTiming h).2.1 : Int) + x.trim).toNat) }
  (s.fire (100 + h)).emit (.display h "frame start" (s.rd (Head.DISP_FRAME h)))

theorem exec_displayFrameStart {h : Fin 4} {s : State} (hruns : s.rd (Head.LINK_STATE h) ≠ 0) (e : Int) :
    exec (.displayFrameStart h e) s = .next (((s.frameBegun h).alignFrame h e).frameTimed h) :=
  congrArg Host.Outcome.next (if_pos (bne_iff_ne.2 hruns))

/-- From one state to another a display frame of a head has started (R292). -/
structure FrameBegins (h : Nat) (s t : State) : Prop where
  clock : t.clock = max s.clock ((s.head h).due.getD 0)
  head : t.head h = { s.head h with frameAt := t.clock, latched := false, torn := false, under := [], wake := (s.head h).wake - 1 }
  number : t.rd (Head.DISP_FRAME h) = (s.rd (Head.DISP_FRAME h) + 1) % 2 ^ 32
  counted : t.rd (Head.FRAMES_SCANNED h) = countUp (s.rd (Head.FRAMES_SCANNED h)) 1
  frame : OnlyChanges [.clock, .head h] [Head.DISP_FRAME h, Head.FRAMES_SCANNED h, Head.STALE_FRAMES h] s t

theorem frameBegun_begins {h : Nat} (hh : h < 4) (s : State) : FrameBegins h s (s.frameBegun h) := by
  let a := s.at ((s.head h).due.getD 0)
  let c := (a.next32 (Head.DISP_FRAME h)).count (Head.FRAMES_SCANNED h)
  let x : HeadSt := { c.head h with frameAt := c.clock, latched := false, torn := false, under := [], wake := (c.head h).wake - 1 }
  have hc : OnlyChanges [] [Head.DISP_FRAME h, Head.FRAMES_SCANNED h] a c := (next32_only ..).trans (count_only ..)
  have hlast : OnlyChanges [] [Head.STALE_FRAMES h] (c.setHead h x) (s.frameBegun h) := by
    unfold State.frameBegun
    exact countIf_only ..
  have hhead : c.head h = s.head h := hc.head (by simp)
  have hnow : (s.frameBegun h).clock = c.clock := by rw [hlast.clock (by simp), State.setHead_clock]
  refine ⟨hnow.trans (hc.clock (by simp)), ?_, ?_, ?_, ((at_only ..).trans (hc.trans ((setHead_only ..).trans hlast))).mono (by simp) (by simp)⟩
  · rw [hlast.head (by simp), head_setHead_same, hnow]
    simp only [x, hhead]
  · rw [hlast.rd (by simp [Head.DISP_FRAME, Head.STALE_FRAMES]), rd_setHead, (count_only ..).rd (by simp [Head.DISP_FRAME, Head.FRAMES_SCANNED])]
    exact rd_wr_headWord hh (by simp [headWords]) (Nat.mod_lt _ (by decide)) a
  · rw [hlast.rd (by simp [Head.FRAMES_SCANNED, Head.STALE_FRAMES]), rd_setHead, rd_count_headCounter hh (by simp [headCounters]),
      (next32_only ..).rd (by simp [Head.DISP_FRAME, Head.FRAMES_SCANNED]), rd_at]

theorem FrameBegins.timing {h : Nat} {s t : State} (hb : FrameBegins h s t) : SameTiming h s t := hb.frame.sameTiming (timingIds_not_frame h)

/-- A head goes on to its next frame: this one is announced, the next one is due. -/
structure FrameGoesOn (h : Nat) (s t : State) : Prop where
  head : t.head h = { s.head h with due := some ((s.head h).frameAt + s.linesNs h (((s.vTiming h).2.1 : Int) + (s.head h).trim).toNat) }
  fired : t.firings = s.firings ++ [(100 + h, s.clock)]
  frame : OnlyChanges [.head h, .firings, .out] [] s t

theorem frameTimed_goesOn (s : State) (h : Nat) : FrameGoesOn h s (s.frameTimed h) := by
  let x : HeadSt := { s.head h with due := some ((s.head h).frameAt + s.linesNs h (((s.vTiming h).2.1 : Int) + (s.head h).trim).toNat) }
  have hlast : OnlyChanges [.out] [] ((s.setHead h x).fire (100 + h)) (s.frameTimed h) := emitQuiet_only _ rfl
  refine ⟨?_, hlast.firings (by simp), ((setHead_only s h x).trans ((fire_only ..).trans hlast)).mono (by simp) (by simp)⟩
  rw [hlast.head (by simp), (fire_only ..).head (by simp), head_setHead_same]

theorem FrameBegins.goesOn {h : Nat} {s u t : State} (hu : FrameBegins h s u) (ht : FrameGoesOn h u t) :
    t.rd (Head.DISP_FRAME h) = (s.rd (Head.DISP_FRAME h) + 1) % 2 ^ 32 ∧
      t.rd (Head.FRAMES_SCANNED h) = countUp (s.rd (Head.FRAMES_SCANNED h)) 1 ∧ t.clock = max s.clock ((s.head h).due.getD 0) ∧
      (t.head h).frameAt = t.clock ∧ (t.head h).due = some (t.clock + s.linesNs h (((s.vTiming h).2.1 : Int) + (s.head h).trim).toNat) ∧
      (t.head h).latched = false ∧ (t.head h).torn = false ∧ (t.head h).under = [] ∧ t.firings = s.firings ++ [(100 + h, t.clock)] ∧
      OnlyChanges [.clock, .head h, .firings, .out] [Head.DISP_FRAME h, Head.FRAMES_SCANNED h, Head.STALE_FRAMES h] s t := by
  have hnow : t.clock = u.clock := ht.frame.clock (by simp)
  refine ⟨?_, ?_, ?_, ?_, ?_, ?_, ?_, ?_, ?_, (hu.frame.trans ht.frame).mono (by simp) (by simp)⟩
  · rw [ht.frame.rd (by simp), hu.number]
  · rw [ht.frame.rd (by simp), hu.counted]
  · rw [hnow, hu.clock]
  · rw [ht.head, hnow, hu.head]
  · rw [ht.head, hnow, hu.head, hu.timing.linesNs, hu.timing.vertical]
  · rw [ht.head, hu.head]
  · rw [ht.head, hu.head]
  · rw [ht.head, hu.head]
  · rw [ht.fired, hnow, hu.frame.firings (by simp)]

/-! ## The alignment of a locked head (R293) -/

/-- Without the lock nothing is aligned. -/
theorem alignFrame_free {s : State} {h : Nat} (hfree : s.rd (Head.LOCK_MODE h) = 0) (e : Int) : s.alignFrame h e = s := by
  simp only [State.alignFrame, hfree, if_true]

theorem displayFrameStart_free {h : Fin 4} {s : State} (hruns : s.rd (Head.LINK_STATE h) ≠ 0) (hfree : s.rd (Head.LOCK_MODE h) = 0) (e : Int) :
    exec (.displayFrameStart h e) s = .next ((s.frameBegun h).frameTimed h) := by
  rw [exec_displayFrameStart hruns, alignFrame_free ((frameBegun_begins h.isLt s).timing.mode.trans hfree)]

/-- What an alignment point writes. -/
def lockIds (h : Nat) : List Nat := [Head.LOCK_ERROR h, Head.LOCK_STATE h, Head.LOCK_TRIMS h, Head.LOCK_JUMPS h]

theorem timingIds_not_lock : ∀ h < 4, ∀ id ∈ timingIds h, id ∉ lockIds h ++ sendIds := by decide +kernel

/-- From one state to another a head has been aligned on a phase error: it is in LOCK_STATE `st`, after `good` alignment points in a row below
one line, and corrects the frame that starts by `trim` lines. -/
structure Aligns (h : Nat) (e : Int) (good : Nat) (trim : Int) (st : Nat) (s t : State) : Prop where
  error : t.rd (Head.LOCK_ERROR h) = ofSigned 32 e
  head : t.head h = { s.head h with align := 1, good := good, trim := trim }
  state : t.rd (Head.LOCK_STATE h) = st
  frame : OnlyChanges (.head h :: sending) (lockIds h ++ sendIds) s t

section

variable {h : Nat} (hh : h < 4) {e : Int} {good : Nat} {trim : Int} {st : Nat} {s t : State}

include hh

theorem Aligns.lockTo (ha : Aligns h e good trim st s t) {st' : Nat} (hst : st' < 2 ^ 32) : Aligns h e good trim st' s (t.lockTo h st') where
  error := by rw [rd_lockTo_other hh (by simp [headIds, headWords]) (by simp [Head.LOCK_ERROR, Head.LOCK_STATE]), ha.error]
  head := by rw [(lockTo_only ..).head (by simp [sending]), ha.head]
  state := rd_lockTo hh hst t
  frame := (ha.frame.trans (lockTo_only ..)).mono (by simp) (by simp +contextual [lockIds, or_imp])

omit hh in
theorem Aligns.count (ha : Aligns h e good trim st s t) {id : Nat} (hid : id = Head.LOCK_TRIMS h ∨ id = Head.LOCK_JUMPS h) :
    Aligns h e good trim st s (t.count id) where
  error := by rw [(count_only ..).rd (by rcases hid with rfl | rfl <;> simp [Head.LOCK_ERROR, Head.LOCK_TRIMS, Head.LOCK_JUMPS]), ha.error]
  head := by rw [head_count, ha.head]
  state := by rw [(count_only ..).rd (by rcases hid with rfl | rfl <;> simp [Head.LOCK_STATE, Head.LOCK_TRIMS, Head.LOCK_JUMPS]), ha.state]
  frame := (ha.frame.trans (count_only ..)).mono (by simp) (by rcases hid with rfl | rfl <;> simp +contextual [lockIds, or_imp])

/-- The phase error is measured, and the correction of the frame that starts follows from it. -/
def State.measured (s : State) (h : Nat) (e : Int) (good : Nat) (trim : Int) : State :=
  (s.wrS (Head.LOCK_ERROR h) e).setHead h { s.head h with align := 1, good := good, trim := trim }

theorem measured_aligns (s : State) (e : Int) (good : Nat) (trim : Int) :
    Aligns h e good trim (s.rd (Head.LOCK_STATE h)) s (s.measured h e good trim) where
  error := by
    have hfits : ofSigned 32 e < 2 ^ 32 := by unfold ofSigned; omega
    rw [State.measured, rd_setHead, State.wrS, rd_wr_headWord hh (by simp [headWords]) hfits]
  head := by rw [State.measured, head_setHead_same]
  state := by rw [State.measured, rd_setHead, State.wrS, rd_wr_other (by simp [Head.LOCK_STATE, Head.LOCK_ERROR])]
  frame := ((wr_only ..).trans (setHead_only ..)).mono (by simp) (by simp [lockIds])

/-- A correction that a counter counts leaves the head ACQUIRING. -/
theorem corrected_aligns {id : Nat} (hid : id = Head.LOCK_TRIMS h ∨ id = Head.LOCK_JUMPS h) (s : State) (e : Int) (trim : Int) :
    let t := ((s.measured h e 0 trim).count id).lockTo h 1
    Aligns h e 0 trim 1 s t ∧ t.rd id = countUp (s.rd id) 1 := by
  have hcounter : id ∈ headCounters h := by rcases hid with rfl | rfl <;> simp [headCounters]
  have hne : id ≠ Head.LOCK_STATE h ∧ id ≠ Head.LOCK_ERROR h := by
    rcases hid with rfl | rfl <;> simp [Head.LOCK_STATE, Head.LOCK_ERROR, Head.LOCK_TRIMS, Head.LOCK_JUMPS]
  refine ⟨((measured_aligns hh s e 0 trim).count hid).lockTo hh (by decide), ?_⟩
  rw [rd_lockTo_other hh (by simp [headIds, hcounter]) hne.1, rd_count_headCounter hh hcounter, State.measured, rd_setHead, State.wrS,
    rd_wr_other hne.2]

end

section

variable {h : Nat} {s : State} {e : Int} (hlocked : s.rd (Head.LOCK_MODE h) ≠ 0) (hpoint : (s.head h).align % max 1 (s.lockRatio h).1 = 0)

include hlocked hpoint

theorem alignFrame_below (hbelow : e.natAbs * (s.lineTime h).2 / max 1 (s.lineTime h).1 = 0) :
    s.alignFrame h e = if 8 ≤ (s.head h).good + 1 then (s.measured h e ((s.head h).good + 1) 0).lockTo h 2
      else s.measured h e ((s.head h).good + 1) 0 := by
  unfold State.alignFrame
  dsimp only
  rw [if_neg hlocked, if_neg (not_not.2 hpoint), if_pos hbelow]
  rfl

theorem alignFrame_jump (habove : e.natAbs * (s.lineTime h).2 / max 1 (s.lineTime h).1 ≠ 0)
    (hjump : s.rd (Head.LOCK_JUMP h) ≠ 0 ∧ s.rd (Head.LOCK_JUMP h) * max 1 (s.lineTime h).1 < e.natAbs * (s.lineTime h).2) :
    s.alignFrame h e = ((s.measured h e 0
      ((if e < 0 then 1 else -1) * ((e.natAbs * (s.lineTime h).2 / max 1 (s.lineTime h).1 : Nat) : Int))).count (Head.LOCK_JUMPS h)).lockTo h 1 := by
  unfold State.alignFrame
  dsimp only
  rw [if_neg hlocked, if_neg (not_not.2 hpoint), if_neg habove, if_pos hjump]
  rfl

theorem alignFrame_trim (habove : e.natAbs * (s.lineTime h).2 / max 1 (s.lineTime h).1 ≠ 0)
    (hnojump : ¬(s.rd (Head.LOCK_JUMP h) ≠ 0 ∧ s.rd (Head.LOCK_JUMP h) * max 1 (s.lineTime h).1 < e.natAbs * (s.lineTime h).2)) :
    s.alignFrame h e = ((s.measured h e 0 (if e < 0 then 1 else -1)).count (Head.LOCK_TRIMS h)).lockTo h 1 := by
  unfold State.alignFrame
  dsimp only
  rw [if_neg hlocked, if_neg (not_not.2 hpoint), if_neg habove, if_neg hnojump]
  rfl

end

/-- What an alignment point decides, of a phase error of `err ÷ num` lines: whether the head counts towards LOCKED, jumps or trims. -/
structure Decides (h : Nat) (e : Int) (s : State) (good : Nat) (trim : Int) (st : Nat) (t : State) : Prop where
  below : e.natAbs * (s.lineTime h).2 / max 1 (s.lineTime h).1 = 0 →
    good = (s.head h).good + 1 ∧ trim = 0 ∧ st = if 8 ≤ (s.head h).good + 1 then 2 else s.rd (Head.LOCK_STATE h)
  jump : e.natAbs * (s.lineTime h).2 / max 1 (s.lineTime h).1 ≠ 0 →
    s.rd (Head.LOCK_JUMP h) ≠ 0 ∧ s.rd (Head.LOCK_JUMP h) * max 1 (s.lineTime h).1 < e.natAbs * (s.lineTime h).2 →
    trim = (if e < 0 then 1 else -1) * ((e.natAbs * (s.lineTime h).2 / max 1 (s.lineTime h).1 : Nat) : Int) ∧ good = 0 ∧ st = 1 ∧
      t.rd (Head.LOCK_JUMPS h) = countUp (s.rd (Head.LOCK_JUMPS h)) 1
  trim : e.natAbs * (s.lineTime h).2 / max 1 (s.lineTime h).1 ≠ 0 →
    ¬(s.rd (Head.LOCK_JUMP h) ≠ 0 ∧ s.rd (Head.LOCK_JUMP h) * max 1 (s.lineTime h).1 < e.natAbs * (s.lineTime h).2) →
    trim = (if e < 0 then 1 else -1) ∧ good = 0 ∧ st = 1 ∧ t.rd (Head.LOCK_TRIMS h) = countUp (s.rd (Head.LOCK_TRIMS h)) 1

theorem alignFrame_decides {h : Nat} (hh : h < 4) {s : State} {e : Int} (hlocked : s.rd (Head.LOCK_MODE h) ≠ 0)
    (hpoint : (s.head h).align % max 1 (s.lockRatio h).1 = 0) :
    ∃ good trim st, Aligns h e good trim st s (s.alignFrame h e) ∧ Decides h e s good trim st (s.alignFrame h e) := by
  by_cases hbelow : e.natAbs * (s.lineTime h).2 / max 1 (s.lineTime h).1 = 0
  · have hmeasured := measured_aligns hh s e ((s.head h).good + 1) 0
    rw [alignFrame_below hlocked hpoint hbelow]
    refine ⟨_, 0, if 8 ≤ (s.head h).good + 1 then 2 else s.rd (Head.LOCK_STATE h), ?_, fun _ => ⟨rfl, rfl, rfl⟩, fun h => absurd hbelow h,
      fun h => absurd hbelow h⟩
    split
    · exact hmeasured.lockTo hh (by decide)
    · exact hmeasured
  · by_cases hjump : s.rd (Head.LOCK_JUMP h) ≠ 0 ∧ s.rd (Head.LOCK_JUMP h) * max 1 (s.lineTime h).1 < e.natAbs * (s.lineTime h).2
    · rw [alignFrame_jump hlocked hpoint hbelow hjump]
      obtain ⟨haligns, hcount⟩ := corrected_aligns hh (.inr rfl) s e _
      exact ⟨_, _, _, haligns, fun h => absurd h hbelow, fun _ _ => ⟨rfl, rfl, rfl, hcount⟩, fun _ h => absurd hjump h⟩
    · rw [alignFrame_trim hlocked hpoint hbelow hjump]
      obtain ⟨haligns, hcount⟩ := corrected_aligns hh (.inl rfl) s e _
      exact ⟨_, _, _, haligns, fun h => absurd h hbelow, fun _ h => absurd h hjump, fun _ _ => ⟨rfl, rfl, rfl, hcount⟩⟩

theorem timing_of_aligns {h : Nat} (hh : h < 4) {e : Int} {good : Nat} {trim : Int} {st : Nat} {s t : State} (ha : Aligns h e good trim st s t) :
    SameTiming h s t := ha.frame.sameTiming (timingIds_not_lock h hh)

/-- What a frame that has begun leaves for its alignment to decide on. -/
theorem FrameBegins.decides {h : Nat} {e : Int} {s u v : State} {good : Nat} {trim : Int} {st : Nat} (hu : FrameBegins h s u)
    (hd : Decides h e u good trim st v) : Decides h e s good trim st v := by
  have hgood : (u.head h).good = (s.head h).good := by rw [hu.head]
  have hrd {id : Nat} (hid : id ∉ [Head.DISP_FRAME h, Head.FRAMES_SCANNED h, Head.STALE_FRAMES h]) : u.rd id = s.rd id := hu.frame.rd hid
  have hjump : u.rd (Head.LOCK_JUMP h) = s.rd (Head.LOCK_JUMP h) :=
    hrd (by simp [Head.LOCK_JUMP, Head.DISP_FRAME, Head.FRAMES_SCANNED, Head.STALE_FRAMES])
  have hstate : u.rd (Head.LOCK_STATE h) = s.rd (Head.LOCK_STATE h) :=
    hrd (by simp [Head.LOCK_STATE, Head.DISP_FRAME, Head.FRAMES_SCANNED, Head.STALE_FRAMES])
  have hjumps : u.rd (Head.LOCK_JUMPS h) = s.rd (Head.LOCK_JUMPS h) :=
    hrd (by simp [Head.LOCK_JUMPS, Head.DISP_FRAME, Head.FRAMES_SCANNED, Head.STALE_FRAMES])
  have htrims : u.rd (Head.LOCK_TRIMS h) = s.rd (Head.LOCK_TRIMS h) :=
    hrd (by simp [Head.LOCK_TRIMS, Head.DISP_FRAME, Head.FRAMES_SCANNED, Head.STALE_FRAMES])
  have hline := hu.timing.line
  obtain ⟨hbelow, hjumps', htrims'⟩ := hd
  rw [hline, hgood, hstate] at hbelow
  rw [hline, hjump, hjumps] at hjumps'
  rw [hline, hjump, htrims] at htrims'
  exact ⟨hbelow, hjumps', htrims'⟩

theorem displayFrameStart_locked {h : Fin 4} {e : Int} {s : State} (hruns : s.rd (Head.LINK_STATE h) ≠ 0) (hlocked : s.rd (Head.LOCK_MODE h) ≠ 0)
    (hpoint : (s.head h).align % max 1 (s.lockRatio h).1 = 0) :
    ∃ u v t good trim st, exec (.displayFrameStart h e) s = .next t ∧ FrameBegins h s u ∧ Aligns h e good trim st u v ∧ FrameGoesOn h v t ∧
      Decides h e s good trim st v := by
  have hu := frameBegun_begins h.isLt s
  have hpoint' : ((s.frameBegun h).head h).align % max 1 ((s.frameBegun h).lockRatio h).1 = 0 := by rw [hu.head, hu.timing.ratio]; exact hpoint
  obtain ⟨good, trim, st, haligns, hdecides⟩ := alignFrame_decides h.isLt (hu.timing.mode ▸ hlocked) hpoint'
  exact ⟨_, _, _, good, trim, st, exec_displayFrameStart hruns e, hu, haligns, frameTimed_goesOn .., hu.decides hdecides⟩

/-- The frame of a locked head, aligned as the alignment point decided. -/
theorem FrameBegins.aligned {h : Nat} (hh : h < 4) {e : Int} {s u v t : State} {good : Nat} {trim : Int} {st : Nat} (hu : FrameBegins h s u)
    (hv : Aligns h e good trim st u v) (ht : FrameGoesOn h v t) (hd : Decides h e s good trim st v) :
    t.rd (Head.LOCK_ERROR h) = ofSigned 32 e ∧ (t.head h).align = 1 ∧ t.clock = max s.clock ((s.head h).due.getD 0) ∧
      (t.head h).frameAt = t.clock ∧ (t.head h).due = some (t.clock + s.linesNs h (((s.vTiming h).2.1 : Int) + (t.head h).trim).toNat) ∧
      t.firings = s.firings ++ [(100 + h, t.clock)] ∧ (t.head h).good = good ∧ (t.head h).trim = trim ∧ t.rd (Head.LOCK_STATE h) = st ∧
      Decides h e s good trim st t ∧
      OnlyChanges (.clock :: .head h :: .firings :: sending) (Head.DISP_FRAME h :: Head.FRAMES_SCANNED h :: Head.STALE_FRAMES h ::
        Head.LOCK_ERROR h :: Head.LOCK_STATE h :: Head.LOCK_TRIMS h :: Head.LOCK_JUMPS h :: sendIds) s t := by
  have hkept (id : Nat) : t.rd id = v.rd id := ht.frame.rd (by simp)
  have hthen : v.clock = u.clock := hv.frame.clock (by simp [sending])
  have hnow : t.clock = u.clock := (ht.frame.clock (by simp)).trans hthen
  have htrim : (t.head h).trim = trim := by rw [ht.head, hv.head]
  have htiming := timing_of_aligns hh hv
  refine ⟨?_, ?_, ?_, ?_, ?_, ?_, ?_, htrim, ?_, ⟨hd.below, ?_, ?_⟩, ?_⟩
  · rw [hkept, hv.error]
  · rw [ht.head, hv.head]
  · rw [hnow, hu.clock]
  · rw [ht.head, hv.head, hu.head, hnow]
  · rw [htrim, ht.head, hv.head, hu.head, hnow, htiming.linesNs, htiming.vertical, hu.timing.linesNs, hu.timing.vertical]
  · rw [ht.fired, hv.frame.firings (by simp [sending]), hu.frame.firings (by simp), hnow, hthen]
  · rw [ht.head, hv.head]
  · rw [hkept, hv.state]
  · rw [hkept]
    exact hd.jump
  · rw [hkept]
    exact hd.trim
  · exact ((hu.frame.trans hv.frame).trans ht.frame).mono (by simp [sending]) (by simp +contextual [lockIds])

end Sys2Proof.Machine

/-! Latch points and underflows of a display head (R297 to R306): what the CRC rectangles, the layers' sources and self refresh leave of the raster,
values that are latched, and O31. -/

namespace Sys2Proof.Machine

/-! ## What the raster goes on with -/

/-- From one state to another neither the time, nor the firings, nor the values that wait at a head, nor the parameters of its link, raster and
commits have moved. -/
structure RasterStands (h : Nat) (s t : State) : Prop where
  clock : t.clock = s.clock
  firings : t.firings = s.firings
  groups : (t.head h).groups = (s.head h).groups
  latched : (t.head h).latched = (s.head h).latched
  torn : (t.head h).torn = (s.head h).torn
  rd : ∀ id ∈ headIds h, t.rd id = s.rd id

section

variable {h : Nat}

theorem RasterStands.refl (s : State) : RasterStands h s s := ⟨rfl, rfl, rfl, rfl, rfl, fun _ _ => rfl⟩

theorem RasterStands.trans {s t u : State} (hst : RasterStands h s t) (htu : RasterStands h t u) : RasterStands h s u where
  clock := htu.clock.trans hst.clock
  firings := htu.firings.trans hst.firings
  groups := htu.groups.trans hst.groups
  latched := htu.latched.trans hst.latched
  torn := htu.torn.trans hst.torn
  rd id hid := (htu.rd id hid).trans (hst.rd id hid)

theorem RasterStands.foldl {α : Type} {f : State → α → State} (l : List α) (s : State) (hf : ∀ t, ∀ x ∈ l, RasterStands h t (f t x)) :
    RasterStands h s (l.foldl f s) :=
  List.foldlRecOn (motive := RasterStands h s) l f (.refl s) fun t ht x hx => ht.trans (hf t x hx)

theorem OnlyChanges.rasterStands {ps : List Part} {ids : List Nat} {s t : State} (hst : OnlyChanges ps ids s t)
    (hps : ∀ p ∈ ps, p ≠ .clock ∧ p ≠ .firings ∧ p ≠ .head h) (hids : ∀ id ∈ headIds h, id ∉ ids) : RasterStands h s t := by
  have hhead : t.head h = s.head h := hst.head fun hm => (hps _ hm).2.2 rfl
  exact ⟨hst.clock fun hm => (hps _ hm).1 rfl, hst.firings fun hm => (hps _ hm).2.1 rfl, by rw [hhead], by rw [hhead], by rw [hhead],
    fun id hid => hst.rd (hids id hid)⟩

/-- Another record of the head with the same values waiting. -/
theorem setHead_stands (s : State) {x : HeadSt} (hgroups : x.groups = (s.head h).groups) (hlatched : x.latched = (s.head h).latched)
    (htorn : x.torn = (s.head h).torn) : RasterStands h s (s.setHead h x) :=
  ⟨rfl, rfl, by rw [head_setHead_same, hgroups], by rw [head_setHead_same, hlatched], by rw [head_setHead_same, htorn], fun _ _ => rfl⟩

variable (hh : h < 4)

include hh

/-- A parameter of the head beyond those of its link, raster and commits. -/
theorem wr_stands {id : Nat} (hid : 0x3A ≤ id % 0x10000) (s : State) (v : Nat) : RasterStands h s (s.wr id v) :=
  (wr_only s id v).rasterStands (by simp) fun i hi hm => by
    have := headIds_bounds h hh i hi
    rw [List.mem_singleton.1 hm] at this
    omega

theorem count_stands {id : Nat} (hid : 0x3A ≤ id % 0x10000) (s : State) : RasterStands h s (s.count id) := wr_stands hh hid s _

theorem linkNotify_stands (s : State) (code port lane value : Nat) : RasterStands h s (s.linkNotify code port lane value) :=
  (linkNotify_only ..).rasterStands (by simp [sending]) (headIds_not_sent hh)

/-! ## CRC rectangles (R305) -/

theorem crcRect_stands {k : Nat} (hk : k < 8) (s : State) : RasterStands h s (s.crcRect h k) := by
  have hresult : 0x3A ≤ Head.CRC_RESULT h k % 0x10000 := by unfold Head.CRC_RESULT; omega
  have hlast : 0x3A ≤ Head.CRC_LAST h k % 0x10000 := by unfold Head.CRC_LAST; omega
  have hmismatches : 0x3A ≤ Head.CRC_MISMATCHES h k % 0x10000 := by unfold Head.CRC_MISMATCHES; omega
  have hcrc : RasterStands h s (s.wr (Head.CRC_LAST h k) (s.rectCrc h k)) := wr_stands hh hlast ..
  unfold State.crcRect
  dsimp only
  split_ifs
  · exact .refl s
  · exact wr_stands hh hresult ..
  · exact hcrc.trans (wr_stands hh hresult ..)
  · exact hcrc.trans (wr_stands hh hresult ..)
  · exact hcrc.trans ((wr_stands hh hresult ..).trans (setHead_stands _ (by simp) (by simp) (by simp)))
  · exact hcrc.trans ((wr_stands hh hresult ..).trans ((count_stands hh hmismatches _).trans
      ((setHead_stands _ (by simp) (by simp) (by simp)).trans (linkNotify_stands hh ..))))
  · exact hcrc.trans ((wr_stands hh hresult ..).trans (count_stands hh hmismatches _))

/-! ## What the layers scan next (R297, R298, R302) -/

omit hh in
theorem setCtx_stands (s : State) (c : Nat) (x : CtxSt) : RasterStands h s (s.setCtx c x) := (setCtx_only s c x).rasterStands (by simp) (by simp)

omit hh in
theorem dropHold_stands (s : State) (consumer : Nat) : RasterStands h s (s.dropHold consumer) :=
  .foldl _ _ fun t e _ => .foldl _ _ fun u r _ => by
    split
    · exact setCtx_stands ..
    · exact .refl u

omit hh in
theorem dropScopeHold_stands (s : State) (k : Nat) : RasterStands h s (s.dropScopeHold k) :=
  .foldl _ _ fun t e _ => by
    split
    · exact setCtx_stands ..
    · exact .refl t

omit hh in
theorem takeHold_stands (s : State) (consumer c v : Nat) : RasterStands h s (s.takeHold consumer c v) := by
  unfold State.takeHold
  dsimp only
  split
  · exact (dropHold_stands ..).trans (setCtx_stands ..)
  · exact dropHold_stands ..

theorem retireFreed_stands (s : State) : RasterStands h s s.retireFreed := by
  rw [retireFreed_eq]
  exact .foldl _ _ fun t p _ => (retireIfOver_only t p).rasterStands (by simp) fun id hid hm =>
    headIds_not_sent hh id hid ((by decide : ∀ i ∈ noticeIds, i ∈ sendIds) id hm)

section

variable {l : Nat} (hl : l < 4)

include hl

theorem layerLost_stands (s : State) (lost : Bool) : RasterStands h s (s.layerLost h l lost) := by
  have hstatus : 0x3A ≤ Head.LAYER_STATUS h l % 0x10000 := by unfold Head.LAYER_STATUS; omega
  have hlost : 0x3A ≤ Head.SOURCE_LOST h % 0x10000 := by unfold Head.SOURCE_LOST; omega
  unfold State.layerLost
  dsimp only
  split
  · exact ((wr_stands hh hstatus ..).trans (wr_stands hh hlost _ _)).trans (linkNotify_stands hh ..)
  · split
    · exact .refl s
    · exact wr_stands hh hstatus ..

/-- LAYER_CURRENT follows what the layer takes. -/
theorem layerCurrent_stands (s : State) (handle : Nat) (f : Nat → Nat) :
    RasterStands h s (if s.rd (Head.LAYER_CURRENT h l) = handle then s
      else (s.wr (Head.LAYER_CURRENT h l) handle).upd (Head.LAYER_STATUS h l) f) := by
  have hstatus : 0x3A ≤ Head.LAYER_STATUS h l % 0x10000 := by unfold Head.LAYER_STATUS; omega
  have hcurrent : 0x3A ≤ Head.LAYER_CURRENT h l % 0x10000 := by unfold Head.LAYER_CURRENT; omega
  split
  · exact .refl s
  · exact (wr_stands hh hcurrent ..).trans (wr_stands hh hstatus _ _)

theorem layerTake_stands (s : State) (named : Bool) : RasterStands h s (s.layerTake h l named).1 := by
  unfold State.layerTake
  dsimp only
  split
  · split
    · exact ((takeHold_stands ..).trans (layerLost_stands hh hl ..)).trans (layerCurrent_stands hh hl ..)
    · exact ((dropHold_stands ..).trans (layerLost_stands hh hl ..)).trans (layerCurrent_stands hh hl ..)
  · exact ((dropHold_stands ..).trans (layerLost_stands hh hl ..)).trans (layerCurrent_stands hh hl ..)
  · split
    · exact .refl s
    · split
      · exact ((dropScopeHold_stands s h).trans ((setCtx_stands ..).trans (layerLost_stands hh hl ..))).trans (layerCurrent_stands hh hl ..)
      · exact ((dropScopeHold_stands s h).trans (layerLost_stands hh hl ..)).trans (layerCurrent_stands hh hl ..)
  · exact ((dropHold_stands ..).trans (layerLost_stands hh hl ..)).trans (layerCurrent_stands hh hl ..)

end

theorem headTake_stands (s : State) (latch : Bool) (groups : List HeadGroup) : RasterStands h s (s.headTake h latch groups).1 := by
  have hscope : RasterStands h s (if s.layerSource h 2 = 3 then s else s.dropScopeHold h) := by
    split
    · exact .refl s
    · exact dropScopeHold_stands ..
  refine (hscope.trans (List.foldlRecOn (motive := fun p : State × Bool => RasterStands h _ p.1) _ _ (.refl _) fun p hp l hl => ?_)).trans
    (retireFreed_stands hh _)
  exact hp.trans (layerTake_stands hh (List.mem_range.1 (List.mem_of_mem_filter hl)) ..)

/-! ## Self refresh (R303, R304) -/

omit hh in
/-- Self refresh moves the link between ACTIVE and SELF_REFRESH, the counts of both, and what the head keeps of it. -/
theorem selfRefresh_spec (s : State) (changed : Bool) :
    let t := s.selfRefresh h changed
    (t.head h).groups = (s.head h).groups ∧ (t.head h).latched = (s.head h).latched ∧
      OnlyChanges (.head h :: sending) (Head.LINK_STATE h :: Head.PSR_EXITS h :: Head.PSR_ENTRIES h :: sendIds) s t := by
  have hidle (n : Nat) : OnlyChanges [.head h] [] s (s.setHead h { s.head h with idle := n }) := setHead_only ..
  have hlink (u : State) (st id : Nat) : OnlyChanges sending (Head.LINK_STATE h :: sendIds ++ [id]) u ((u.linkTo h st).count id) :=
    (linkTo_only ..).trans (count_only ..) |>.mono (by simp) (by simp)
  have hhead (u : State) (st id : Nat) : ((u.linkTo h st).count id).head h = u.head h := (hlink u st id).head (by simp [sending])
  unfold State.selfRefresh
  dsimp only
  generalize (if changed then 0 else (s.head h).idle + 1) = n
  split_ifs
  · refine ⟨by simp, by simp, (((hidle _).trans (hlink _ 3 _)).trans (setHead_only ..)).mono ?_ (by simp +contextual [or_imp])⟩
    simp +contextual [or_imp]
  · refine ⟨by simp [hhead], by simp [hhead], ((hidle _).trans (hlink _ 4 _)).mono (by simp) (by simp +contextual [or_imp])⟩
  · exact ⟨by simp, by simp, (hidle _).mono (by simp) (by simp)⟩

end

/-! ## Latching runs no clock (R299, R301) -/

theorem OnlyChanges.orNothing {ps : List Part} {ids : List Nat} {s t : State} (h : OnlyChanges ps ids s t) (b : Prop) [Decidable b] :
    OnlyChanges ps ids s (if b then s else t) := by
  split
  · exact (OnlyChanges.refl s).mono (by simp) (by simp)
  · exact h

theorem releaseIf_moves (s : State) (p : Wait → Bool) (status : Nat) (tail : Option (Nat × List Byte)) :
    OnlyChanges [.nmp, .out, .free, .sessions] txIds s (s.releaseIf p status tail) := by
  unfold State.releaseIf
  dsimp only
  refine OnlyChanges.foldl _ ((withWaits_only s _).mono (by simp) (by simp)) fun t w _ => ?_
  exact ((reply_only ..).mono (by simp) (by simp)).orNothing _

section

variable (s : State) (h : Nat)

@[simp] theorem clock_count (id : Nat) : (s.count id).clock = s.clock := (count_only ..).clock (by simp)

@[simp] theorem clock_linkTo (st : Nat) : (s.linkTo h st).clock = s.clock := (linkTo_only ..).clock (by simp [sending])

@[simp] theorem clock_lockTo (st : Nat) : (s.lockTo h st).clock = s.clock := (lockTo_only ..).clock (by simp [sending])

@[simp] theorem clock_retireFreed : s.retireFreed.clock = s.clock := by
  rw [retireFreed_eq]
  exact (OnlyChanges.foldl _ ((OnlyChanges.refl s).mono (by simp) (by simp)) fun t p _ => retireIfOver_only t p).clock (by simp)

@[simp] theorem clock_headTrain : (s.headTrain h).clock = s.clock := by
  unfold State.headTrain
  split <;> simp

@[simp] theorem clock_dropScopeHold : (s.dropScopeHold h).clock = s.clock := (dropScopeHold_stands (h := h) ..).clock

@[simp] theorem clock_dropHold (consumer : Nat) : (s.dropHold consumer).clock = s.clock := (dropHold_stands (h := 0) ..).clock

theorem clock_dropLayers (ls : List Nat) :
    (ls.foldl (fun t l => (t.dropHold (4 * h + l)).wr (Head.LAYER_CURRENT h l) 0) s).clock = s.clock := by
  induction ls generalizing s with
  | nil => rfl
  | cons l ls ih => rw [List.foldl_cons, ih, State.wr_clock, clock_dropHold]

/-- A head that switches off has lost its link, and its layers hold nothing. -/
def State.layersOff (s : State) (h : Nat) : State :=
  (List.range 4).foldl (fun t l => (t.dropHold (4 * h + l)).wr (Head.LAYER_CURRENT h l) 0)
    (((s.linkTo h 0).wr (Head.LINK_TRAINED h) 0).dropScopeHold h)

theorem headOff_eq : s.headOff h = ((s.layersOff h).setHead h { (s.layersOff h).head h with due := none }).retireFreed := rfl

theorem clock_headOff : (s.headOff h).clock = s.clock := by
  rw [headOff_eq, clock_retireFreed, State.setHead_clock, State.layersOff, clock_dropLayers, clock_dropScopeHold, State.wr_clock, clock_linkTo]

theorem clock_latchOne (e : Nat × PVal) : (s.latchOne h e).clock = s.clock := by
  unfold State.latchOne
  dsimp only
  split
  next v =>
    split_ifs <;> simp [clock_headOff]
  next => rw [(emitQuiet_only _ rfl).clock (by simp), State.wrBlob_clock]

theorem clock_restartRaster : (s.restartRaster h).clock = s.clock := by
  rw [State.restartRaster, State.setHead_clock, State.wr_clock, clock_headTrain]

theorem clock_latchGroup (g : HeadGroup) (torn : Bool) (ahead : Nat) : (s.latchGroup h g torn ahead).clock = s.clock := by
  have hvals : (g.vals.foldl (fun t e => t.latchOne h e) s).clock = s.clock :=
    List.foldlRecOn (motive := fun t : State => t.clock = s.clock) _ _ rfl fun t ht e _ => (clock_latchOne t h e).trans ht
  have hraster (b : Bool) (u : State) : (if b then u.restartRaster h else u).clock = u.clock := by
    split
    · exact clock_restartRaster ..
    · rfl
  unfold State.latchGroup
  dsimp only
  split
  · rw [(releaseIf_moves ..).clock (by simp), clock_count, State.wr_clock, hraster, hvals]
  · rw [clock_count, State.wr_clock, hraster, hvals]

end

/-! ## A colour that is latched (R299, R300) -/

/-- The parameters of the head that hold a colour of the raster. -/
def colourIds (h : Nat) : List Nat := [Head.BACKGROUND h, Head.UNDERFLOW_COLOUR h]

/-- A colour is no switch of the head, and nothing retrains for it (R301). -/
theorem colour_plain {h id : Nat} (hid : id ∈ colourIds h) : retrains h id = false ∧ id ≠ Head.HEAD_ENABLE h ∧ id ≠ Head.LOCK_MODE h ∧
    ∀ k < 8, id ≠ Head.CRC_ENABLE h k := by
  simp only [colourIds, List.mem_cons, List.not_mem_nil, or_false] at hid
  rcases hid with rfl | rfl
  all_goals
    refine ⟨?_, by simp [Head.BACKGROUND, Head.UNDERFLOW_COLOUR, Head.HEAD_ENABLE],
      by simp [Head.BACKGROUND, Head.UNDERFLOW_COLOUR, Head.LOCK_MODE], fun k _ => ?_⟩
    · simp [retrains, Head.BACKGROUND, Head.UNDERFLOW_COLOUR, Head.LINK_RATE_MAX, Head.LANES_MAX, Head.PIXEL_CLOCK, Head.H_TIMING_A,
        Head.H_TIMING_B, Head.V_TIMING_A, Head.V_TIMING_B, Head.SYNC_POLARITY, Head.OUT_COLOUR, Head.OUT_BPC, Head.LOCK_MODE, Head.LOCK_RATIO]
    · simp only [Head.BACKGROUND, Head.UNDERFLOW_COLOUR, Head.CRC_ENABLE]
      omega

theorem latchOne_colour {h id : Nat} (hid : id ∈ colourIds h) (s : State) (v : Nat) : s.latchOne h (id, .num v) = s.wr id v := by
  obtain ⟨-, henable, hmode, hcrc⟩ := colour_plain hid
  have hany : ((List.range 8).any fun k => id == Head.CRC_ENABLE h k) = false :=
    List.any_eq_false.2 fun k hk => by simpa using hcrc k (List.mem_range.1 hk)
  simp [State.latchOne, henable, hmode, hany]

/-- The commit `g` of one colour has been latched: LAST_COMMIT names the frame that shows it. -/
def State.colourLatched (s : State) (h id v : Nat) (g : HeadGroup) (torn : Bool) (ahead : Nat) : State :=
  ((s.wr id v).wr (Head.LAST_COMMIT h)
    (((s.wr id v).rd (Head.DISP_FRAME h) + ahead) % 2 ^ 32 * 2 ^ 32 + (if g.late then 1 else 0) + (if torn then 2 else 0))).count (Head.COMMITS h)

theorem latchGroup_colour {h id v : Nat} (hid : id ∈ colourIds h) {g : HeadGroup} (hg : g.vals = [(id, .num v)]) (s : State) (torn : Bool)
    (ahead : Nat) :
    OnlyChanges [.nmp, .out, .free, .sessions] txIds (s.colourLatched h id v g torn ahead) (s.latchGroup h g torn ahead) := by
  have hagain : (g.vals.any fun e => retrains h e.1 && s.rd e.1 != e.2.toNat) = false := by simp [hg, (colour_plain hid).1]
  have hvals : g.vals.foldl (fun t e => t.latchOne h e) s = s.wr id v := by rw [hg, List.foldl_cons, List.foldl_nil, latchOne_colour hid]
  simp only [State.latchGroup, hagain, hvals, Bool.false_and, Bool.false_eq_true, if_false]
  split
  · exact releaseIf_moves ..
  · exact (OnlyChanges.refl _).mono (by simp) (by simp)

/-- From one state to another one colour has been latched for the frame that LAST_COMMIT names. -/
structure LatchesColour (h id v last : Nat) (s t : State) : Prop where
  colour : t.rd id = v
  last : t.rd (Head.LAST_COMMIT h) = last
  commits : t.rd (Head.COMMITS h) = countUp (s.rd (Head.COMMITS h)) 1
  link : t.rd (Head.LINK_STATE h) = s.rd (Head.LINK_STATE h)
  clock : t.clock = s.clock
  firings : t.firings = s.firings
  head : t.head h = s.head h

section

variable {h : Nat} (hh : h < 4) {id v last : Nat} {s t u : State}

include hh

theorem rd_wr_headCounter (hid : id ∈ headCounters h) (hv : v < 2 ^ 64) (s : State) : (s.wr id v).rd id = v := by
  obtain ⟨p, hp, hrow⟩ := (Option.any_eq_true _ _).1 (isCounter_headCounters h hh id hid)
  simp only [Bool.and_eq_true, Bool.not_eq_true', beq_iff_eq] at hrow
  rw [rd_wr_same hp hrow.1, hrow.2]
  exact Nat.mod_eq_of_lt hv

theorem headIds_not_tx : ∀ id ∈ headIds h, id ∉ txIds := fun id hid hm =>
  headIds_not_sent hh id hid ((by decide : ∀ i ∈ txIds, i ∈ sendIds) id hm)

omit hh in
theorem colourLatched_only (s : State) (id v : Nat) (g : HeadGroup) (torn : Bool) (ahead : Nat) :
    OnlyChanges [] [id, Head.LAST_COMMIT h, Head.COMMITS h] s (s.colourLatched h id v g torn ahead) :=
  ((wr_only ..).trans (wr_only ..)).trans (count_only ..)

omit hh in
/-- A colour is none of the parameters that tell of the link and of the commits. -/
theorem colour_apart (hid : id ∈ colourIds h) :
    id ∈ headWords h ∧ id ≠ Head.LINK_STATE h ∧ id ≠ Head.DISP_FRAME h ∧ id ≠ Head.LAST_COMMIT h ∧ id ≠ Head.COMMITS h := by
  simp only [colourIds, List.mem_cons, List.not_mem_nil, or_false] at hid
  rcases hid with rfl | rfl <;> simp [headWords, Head.BACKGROUND, Head.UNDERFLOW_COLOUR, Head.LINK_STATE, Head.DISP_FRAME, Head.LAST_COMMIT,
    Head.COMMITS]

theorem colourLatched_latches (hid : id ∈ colourIds h) (hv : v < 2 ^ 32) (s : State) (g : HeadGroup) (torn : Bool) (ahead : Nat) :
    LatchesColour h id v ((s.rd (Head.DISP_FRAME h) + ahead) % 2 ^ 32 * 2 ^ 32 + (if g.late then 1 else 0) + (if torn then 2 else 0)) s
      (s.colourLatched h id v g torn ahead) := by
  obtain ⟨hword, hlink, hframe, hlast, hcommits⟩ := colour_apart hid
  have hall := colourLatched_only (h := h) s id v g torn ahead
  have happart : Head.LAST_COMMIT h ≠ Head.COMMITS h := by simp [Head.LAST_COMMIT, Head.COMMITS]
  refine ⟨?_, ?_, ?_, hall.rd ?_, hall.clock (by simp), hall.firings (by simp), hall.head (by simp)⟩
  · rw [State.colourLatched, (count_only ..).rd (by simpa using hcommits), rd_wr_other hlast, rd_wr_headWord hh hword hv]
  · have hfits : (s.rd (Head.DISP_FRAME h) + ahead) % 2 ^ 32 * 2 ^ 32 + (if g.late then 1 else 0) + (if torn then 2 else 0) < 2 ^ 64 := by
      split_ifs <;> omega
    rw [State.colourLatched, (count_only ..).rd (by simpa using happart), rd_wr_other hframe.symm,
      rd_wr_headCounter hh (by simp [headCounters]) hfits]
  · rw [State.colourLatched, rd_count_headCounter hh (by simp [headCounters]), rd_wr_other happart.symm, rd_wr_other hcommits.symm]
  · simp only [List.mem_cons, List.not_mem_nil, or_false, not_or]
    exact ⟨hlink.symm, by simp [Head.LINK_STATE, Head.LAST_COMMIT], by simp [Head.LINK_STATE, Head.COMMITS]⟩

omit hh in
/-- What has been latched stands while the parameters of the raster and the commits do. -/
theorem LatchesColour.before (hl : LatchesColour h id v last s t) (hid : id ∈ colourIds h) {ps : List Part} {ids : List Nat}
    (htu : OnlyChanges ps ids t u) (hps : ∀ p ∈ ps, p ≠ .clock ∧ p ≠ .firings ∧ p ≠ .head h) (hids : ∀ i ∈ headIds h, i ∉ ids) :
    LatchesColour h id v last s u := by
  obtain ⟨hword, -⟩ := colour_apart hid
  have hrd {i : Nat} (hi : i ∈ headIds h) : u.rd i = t.rd i := htu.rd (hids i hi)
  exact ⟨(hrd (by simp [headIds, hword])).trans hl.colour, (hrd (by simp [headIds, headCounters])).trans hl.last,
    (hrd (by simp [headIds, headCounters])).trans hl.commits, (hrd (by simp [headIds, headWords])).trans hl.link,
    (htu.clock fun hm => (hps _ hm).1 rfl).trans hl.clock, (htu.firings fun hm => (hps _ hm).2.1 rfl).trans hl.firings,
    (htu.head fun hm => (hps _ hm).2.2 rfl).trans hl.head⟩

theorem latchGroup_latches (hid : id ∈ colourIds h) (hv : v < 2 ^ 32) {g : HeadGroup} (hg : g.vals = [(id, .num v)]) (s : State) (torn : Bool)
    (ahead : Nat) :
    LatchesColour h id v ((s.rd (Head.DISP_FRAME h) + ahead) % 2 ^ 32 * 2 ^ 32 + (if g.late then 1 else 0) + (if torn then 2 else 0)) s
      (s.latchGroup h g torn ahead) :=
  (colourLatched_latches hh hid hv s g torn ahead).before hid (latchGroup_colour hid hg s torn ahead) (by simp) (headIds_not_tx hh)

end

/-! ## The latch point (R292, R297 to R306) -/

/-- The bytes of a frame that is not refreshed by the sink itself are counted (R304, R306). -/
def State.frameRead (s : State) (h : Nat) : State :=
  if s.rd (Head.LINK_STATE h) = 4 then s
  else s.addBytes (Head.BYTES_READ h) (((List.range 4).filter fun l => (s.layerContent h l).isSome).map (s.layerRead h)).sum

/-- The latch point of a frame: the time is that of the end of its last active line, its bytes are counted and its CRCs taken. -/
def State.atLatch (s : State) (h : Nat) : State :=
  (List.range 8).foldl (fun t k => t.crcRect h k) ((s.at ((s.head h).frameAt + s.linesNs h (s.vTiming h).1)).frameRead h)

/-- The values that do not skip this latch point. -/
def HeadSt.ready (x : HeadSt) : List HeadGroup := x.groups.filter fun g => g.skip == 0

/-- The head once its latch point has passed: the other values wait for one latch point less. -/
def HeadSt.passed (x : HeadSt) : HeadSt :=
  { x with groups := (x.groups.filter fun g => g.skip != 0).map fun g => { g with skip := g.skip - 1 }, latched := true, changed := false }

/-- The values that the head `x` had ready are latched: the next frame shows them, or in self refresh the next but one. -/
def State.latchReady (s : State) (h : Nat) (x : HeadSt) : State :=
  x.ready.foldl (fun t g => t.latchGroup h g false (if t.rd (Head.LINK_STATE h) = 4 then 2 else 1)) (s.setHead h x.passed)

/-- The layers take what they scan next, and the latch point fires its event source. -/
def State.scansNext (s : State) (h : Nat) (x : HeadSt) : State :=
  if s.headRuns h then
    let (s, ch) := s.headTake h true x.ready
    (s.selfRefresh h (!x.ready.isEmpty || ch || x.changed)).fire (96 + h)
  else s

theorem exec_displayLatchPoint {h : Fin 4} {s : State} (hscan : s.scanning h = true) :
    exec (.displayLatchPoint h) s = .next (((s.atLatch h).latchReady h ((s.atLatch h).head h)).scansNext h ((s.atLatch h).head h)) :=
  congrArg Host.Outcome.next (if_pos hscan)

theorem clock_latchReady (s : State) (h : Nat) (x : HeadSt) : (s.latchReady h x).clock = s.clock :=
  List.foldlRecOn (motive := fun t : State => t.clock = s.clock) _ _ rfl fun t ht g _ => (clock_latchGroup t h g _ _).trans ht

section

variable {h : Nat} (hh : h < 4)

include hh

theorem frameRead_stands (s : State) : RasterStands h s (s.frameRead h) := by
  have hbytes : 0x3A ≤ Head.BYTES_READ h % 0x10000 := by unfold Head.BYTES_READ; omega
  unfold State.frameRead
  split
  · exact .refl s
  · exact wr_stands hh hbytes ..

theorem crcRects_stand (s : State) : RasterStands h s ((List.range 8).foldl (fun t k => t.crcRect h k) s) :=
  .foldl _ _ fun t _ hk => crcRect_stands hh (List.mem_range.1 hk) t

theorem atLatch_stands (s : State) : RasterStands h (s.at ((s.head h).frameAt + s.linesNs h (s.vTiming h).1)) (s.atLatch h) :=
  (frameRead_stands hh _).trans (crcRects_stand hh _)

theorem headIds_not_psr : ∀ id ∈ headIds h, id ≠ Head.PSR_EXITS h ∧ id ≠ Head.PSR_ENTRIES h :=
  (by decide +kernel : ∀ i < 4, ∀ id ∈ headIds i, id ≠ Head.PSR_EXITS i ∧ id ≠ Head.PSR_ENTRIES i) h hh

theorem scansNext_spec {s : State} (hruns : s.headRuns h = true) (x : HeadSt) :
    let t := s.scansNext h x
    t.clock = s.clock ∧ t.firings = s.firings ++ [(96 + h, s.clock)] ∧ (t.head h).groups = (s.head h).groups ∧
      (t.head h).latched = (s.head h).latched ∧ ∀ id ∈ headIds h, id ≠ Head.LINK_STATE h → t.rd id = s.rd id := by
  have hu := headTake_stands hh s true x.ready
  unfold State.scansNext
  rw [if_pos hruns]
  generalize s.headTake h true x.ready = taken at hu
  obtain ⟨u, ch⟩ := taken
  dsimp only at hu ⊢
  obtain ⟨hgroups, hlatched, hrefresh⟩ := selfRefresh_spec (h := h) u (!x.ready.isEmpty || ch || x.changed)
  have hclock := (hrefresh.clock (by simp [sending])).trans hu.clock
  refine ⟨hclock, ?_, hgroups.trans hu.groups, hlatched.trans hu.latched, fun id hid hne => ?_⟩
  · rw [State.fire_firings, hclock, hrefresh.firings (by simp [sending]), hu.firings]
  · obtain ⟨hexits, hentries⟩ := headIds_not_psr hh id hid
    exact (hrefresh.rd (by simp [hne, hexits, hentries, headIds_not_sent hh id hid])).trans (hu.rd id hid)

theorem clock_scansNext (s : State) (x : HeadSt) : (s.scansNext h x).clock = s.clock := by
  by_cases hruns : s.headRuns h = true
  · exact (scansNext_spec hh hruns x).1
  · rw [State.scansNext, if_neg hruns]

omit hh in
/-- A frame that is scanned: its latch point is to come. -/
theorem scanning_of {s : State} (hruns : s.rd (Head.LINK_STATE h) ≠ 0) (hdue : (s.head h).due.isSome = true) (hlatched : (s.head h).latched = false) :
    s.scanning h = true := by
  simp [State.scanning, State.headRuns, hruns, hdue, hlatched]

omit hh in
theorem latchReady_none {s : State} {x : HeadSt} (hskip : ∀ g ∈ x.groups, g.skip ≠ 0) :
    s.latchReady h x = s.setHead h x.passed ∧ x.passed.groups = x.groups.map fun g => { g with skip := g.skip - 1 } := by
  have hready : x.ready = [] := List.filter_eq_nil_iff.2 fun g hg => by simpa using hskip g hg
  have hwait : (x.groups.filter fun g => g.skip != 0) = x.groups := List.filter_eq_self.2 fun g hg => by simpa using hskip g hg
  refine ⟨by rw [State.latchReady, hready, List.foldl_nil], ?_⟩
  rw [HeadSt.passed, hwait]

omit hh in
theorem latchReady_single {s : State} {x : HeadSt} {g : HeadGroup} (hx : x.groups = [g]) (hskip : g.skip = 0) :
    s.latchReady h x = (s.setHead h x.passed).latchGroup h g false (if s.rd (Head.LINK_STATE h) = 4 then 2 else 1) ∧ x.passed.groups = [] := by
  have hready : x.ready = [g] := by simp [HeadSt.ready, hx, hskip]
  refine ⟨by rw [State.latchReady, hready, List.foldl_cons, List.foldl_nil, rd_setHead], ?_⟩
  simp [HeadSt.passed, hx, hskip]

/-- Values that all skip this latch point wait on. -/
theorem latchPoint_waits {s u : State} (hu : RasterStands h s u) (hruns : s.rd (Head.LINK_STATE h) ≠ 0)
    (hskip : ∀ g ∈ (s.head h).groups, g.skip ≠ 0) :
    let t := (u.latchReady h (u.head h)).scansNext h (u.head h)
    (t.head h).latched = true ∧ t.firings = s.firings ++ [(96 + h, t.clock)] ∧
      (t.head h).groups = (s.head h).groups.map fun g => { g with skip := g.skip - 1 } := by
  have hlink : u.rd (Head.LINK_STATE h) = s.rd (Head.LINK_STATE h) := hu.rd _ (by simp [headIds, headWords])
  obtain ⟨heq, hgroups⟩ := latchReady_none (h := h) (s := u) (x := u.head h) (hu.groups ▸ hskip)
  obtain ⟨hclock, hfired, hwait, hlatched, -⟩ :=
    scansNext_spec hh (s := u.setHead h (u.head h).passed) (bne_iff_ne.2 (hlink ▸ hruns)) (u.head h)
  rw [heq]
  refine ⟨?_, ?_, ?_⟩
  · rw [hlatched, head_setHead_same]
    rfl
  · rw [hfired, hclock, State.setHead_firings, hu.firings]
  · rw [hwait, head_setHead_same, hgroups, hu.groups]

/-- A colour that does not skip this latch point is latched. -/
theorem latchPoint_latches {s u : State} (hu : RasterStands h s u) (hruns : s.rd (Head.LINK_STATE h) ≠ 0) {g : HeadGroup} {id v : Nat}
    (hg : (s.head h).groups = [g]) (hvals : g.vals = [(id, .num v)]) (hid : id ∈ colourIds h) (hv : v < 2 ^ 32) (hskip : g.skip = 0) :
    let t := (u.latchReady h (u.head h)).scansNext h (u.head h)
    t.rd id = v ∧ (t.head h).groups = [] ∧ t.rd (Head.COMMITS h) = countUp (s.rd (Head.COMMITS h)) 1 ∧
      t.rd (Head.LAST_COMMIT h) = (s.rd (Head.DISP_FRAME h) + (if s.rd (Head.LINK_STATE h) = 4 then 2 else 1)) % 2 ^ 32 * 2 ^ 32 +
        (if g.late then 1 else 0) := by
  obtain ⟨hword, hnotLink, -⟩ := colour_apart hid
  have hlink : u.rd (Head.LINK_STATE h) = s.rd (Head.LINK_STATE h) := hu.rd _ (by simp [headIds, headWords])
  have hframe : u.rd (Head.DISP_FRAME h) = s.rd (Head.DISP_FRAME h) := hu.rd _ (by simp [headIds, headWords])
  have hcommits : u.rd (Head.COMMITS h) = s.rd (Head.COMMITS h) := hu.rd _ (by simp [headIds, headCounters])
  obtain ⟨heq, hnone⟩ := latchReady_single (h := h) (s := u) (x := u.head h) (hu.groups.trans hg) hskip
  have hl := latchGroup_latches hh hid hv hvals (u.setHead h (u.head h).passed) false (if u.rd (Head.LINK_STATE h) = 4 then 2 else 1)
  rw [← heq, rd_setHead, hlink, hframe] at hl
  obtain ⟨-, -, hgroups, -, hrd⟩ :=
    scansNext_spec hh (s := u.latchReady h (u.head h)) (bne_iff_ne.2 (by rw [hl.link, rd_setHead, hlink]; exact hruns)) (u.head h)
  refine ⟨?_, ?_, ?_, ?_⟩
  · rw [hrd id (by simp [headIds, hword]) hnotLink, hl.colour]
  · rw [hgroups, hl.head, head_setHead_same, hnone]
  · rw [hrd _ (by simp [headIds, headCounters]) (by simp [Head.COMMITS, Head.LINK_STATE]), hl.commits, rd_setHead, hcommits]
  · rw [hrd _ (by simp [headIds, headCounters]) (by simp [Head.LAST_COMMIT, Head.LINK_STATE]), hl.last]
    simp

/-! ## Lines (R300, R304) -/

omit hh in
/-- A commit that alone waits is latched at a line start, and the layers that it names take what they scan next. -/
theorem latchLine_eq {s : State} {g : HeadGroup} (hg : (s.head h).groups = [g]) (line : Nat) :
    s.latchLine h line =
      let active := decide (0 < line ∧ line < (s.vTiming h).1)
      let u := (s.setHead h { s.head h with groups := [], torn := (s.head h).torn || active, changed := true }).latchGroup h { g with late := false }
        active ((if line < (s.vTiming h).1 then 0 else 1) + (if s.rd (Head.LINK_STATE h) = 4 then 2 else 0))
      if u.headRuns h then (u.headTake h false [g]).1 else u := by
  rw [State.latchLine, hg]
  rfl

omit hh in
theorem sendLine_only (s : State) (line : Nat) : OnlyChanges [.out] [] s (s.sendLine h line) := by
  unfold State.sendLine
  split
  · exact emitQuiet_only _ rfl
  · exact (OnlyChanges.refl s).mono (by simp) (by simp)

theorem latchLine_latches {s : State} (hruns : s.rd (Head.LINK_STATE h) ≠ 0) {g : HeadGroup} {id v : Nat} (hg : (s.head h).groups = [g])
    (hvals : g.vals = [(id, .num v)]) (hid : id ∈ colourIds h) (hv : v < 2 ^ 32) (line : Nat) :
    let t := s.latchLine h line
    let inside := decide (0 < line ∧ line < (s.vTiming h).1)
    t.clock = s.clock ∧ t.rd id = v ∧ (t.head h).groups = [] ∧ (t.head h).torn = ((s.head h).torn || inside) ∧
      t.rd (Head.COMMITS h) = countUp (s.rd (Head.COMMITS h)) 1 ∧
      t.rd (Head.LAST_COMMIT h) = (s.rd (Head.DISP_FRAME h) + ((if line < (s.vTiming h).1 then 0 else 1) +
        (if s.rd (Head.LINK_STATE h) = 4 then 2 else 0))) % 2 ^ 32 * 2 ^ 32 + (if inside then 2 else 0) := by
  intro t inside
  obtain ⟨hword, -⟩ := colour_apart hid
  let x : HeadSt := { s.head h with groups := [], torn := (s.head h).torn || inside, changed := true }
  let ahead := (if line < (s.vTiming h).1 then 0 else 1) + (if s.rd (Head.LINK_STATE h) = 4 then 2 else 0)
  have hl := latchGroup_latches hh hid hv (g := { g with late := false }) hvals (s.setHead h x) inside ahead
  have ht : t = if (State.latchGroup (s.setHead h x) h { g with late := false } inside ahead).headRuns h then
      (State.headTake (State.latchGroup (s.setHead h x) h { g with late := false } inside ahead) h false [g]).1
      else State.latchGroup (s.setHead h x) h { g with late := false } inside ahead := latchLine_eq hg line
  generalize State.latchGroup (s.setHead h x) h { g with late := false } inside ahead = u at hl ht
  have hstill : u.headRuns h = true := bne_iff_ne.2 (by rw [hl.link, rd_setHead]; exact hruns)
  rw [if_pos hstill] at ht
  have hu := headTake_stands hh u false [g]
  rw [ht]
  refine ⟨?_, ?_, ?_, ?_, ?_, ?_⟩
  · rw [hu.clock, hl.clock, State.setHead_clock]
  · rw [hu.rd id (by simp [headIds, hword]), hl.colour]
  · rw [hu.groups, hl.head, head_setHead_same]
  · rw [hu.torn, hl.head, head_setHead_same]
  · rw [hu.rd _ (by simp [headIds, headCounters]), hl.commits, rd_setHead]
  · rw [hu.rd _ (by simp [headIds, headCounters]), hl.last, rd_setHead]
    simp [ahead]

end

theorem exec_displayLineStart {h : Fin 4} {s : State} (hruns : s.rd (Head.LINK_STATE h) ≠ 0) (hdue : (s.head h).due.isSome = true)
    (hmode : s.rd (Head.COMMIT_MODE h) = 0) (hwaits : (s.head h).groups ≠ []) (line : Nat) :
    exec (.displayLineStart h line) s =
      .next (((s.at ((s.head h).frameAt + s.linesNs h line)).latchLine h line).sendLine h line) := by
  have hscan : (s.headRuns h && (s.head h).due.isSome) = true := by simp [State.headRuns, hruns, hdue]
  have hlatch (due : Nat) : (s.at due).rd (Head.COMMIT_MODE h) = 0 ∧ ((s.at due).head h).groups ≠ [] := ⟨hmode, hwaits⟩
  simp only [exec, execDisplayLineStart, hscan, if_true]
  rw [if_pos (hlatch _)]

section

variable {h : Fin 4} {s : State} (hruns : s.rd (Head.LINK_STATE h) ≠ 0) (hdue : (s.head h).due.isSome = true)

include hruns hdue

theorem displayLatchPoint_clock (hlatched : (s.head h).latched = false) :
    ∃ t, exec (.displayLatchPoint h) s = .next t ∧ t.clock = max s.clock ((s.head h).frameAt + s.linesNs h (s.vTiming h).1) := by
  refine ⟨_, exec_displayLatchPoint (scanning_of hruns hdue hlatched), ?_⟩
  rw [clock_scansNext h.isLt, clock_latchReady, (atLatch_stands h.isLt s).clock, State.at_clock]

theorem displayLatchPoint_waits (hlatched : (s.head h).latched = false) (hskip : ∀ g ∈ (s.head h).groups, g.skip ≠ 0) :
    ∃ t, exec (.displayLatchPoint h) s = .next t ∧ (t.head h).latched = true ∧ t.firings = s.firings ++ [(96 + h.val, t.clock)] ∧
      (t.head h).groups = (s.head h).groups.map (fun g => { g with skip := g.skip - 1 }) :=
  ⟨_, exec_displayLatchPoint (scanning_of hruns hdue hlatched),
    latchPoint_waits h.isLt (s := s.at _) (atLatch_stands h.isLt s) hruns hskip⟩

variable {g : HeadGroup} {id v : Nat} (hg : (s.head h).groups = [g]) (hvals : g.vals = [(id, .num v)]) (hid : id ∈ colourIds h) (hv : v < 2 ^ 32)

include hg hvals hid hv

theorem displayLatchPoint_latches (hskip : g.skip = 0) (hlatched : (s.head h).latched = false) :
    ∃ t, exec (.displayLatchPoint h) s = .next t ∧ t.rd id = v ∧ (t.head h).groups = [] ∧
      t.rd (Head.COMMITS h) = countUp (s.rd (Head.COMMITS h)) 1 ∧
      t.rd (Head.LAST_COMMIT h) = (s.rd (Head.DISP_FRAME h) + (if s.rd (Head.LINK_STATE h) = 4 then 2 else 1)) % 2 ^ 32 * 2 ^ 32 +
        (if g.late then 1 else 0) :=
  ⟨_, exec_displayLatchPoint (scanning_of hruns hdue hlatched),
    latchPoint_latches h.isLt (s := s.at _) (atLatch_stands h.isLt s) hruns hg hvals hid hv hskip⟩

theorem displayLineStart_latches (hmode : s.rd (Head.COMMIT_MODE h) = 0) (line : Nat) :
    let inside := decide (0 < line ∧ line < (s.vTiming h).1)
    ∃ t, exec (.displayLineStart h line) s = .next t ∧ t.clock = max s.clock ((s.head h).frameAt + s.linesNs h line) ∧ t.rd id = v ∧
      (t.head h).groups = [] ∧ (t.head h).torn = ((s.head h).torn || inside) ∧
      t.rd (Head.COMMITS h) = countUp (s.rd (Head.COMMITS h)) 1 ∧
      t.rd (Head.LAST_COMMIT h) = (s.rd (Head.DISP_FRAME h) + ((if line < (s.vTiming h).1 then 0 else 1) +
        (if s.rd (Head.LINK_STATE h) = 4 then 2 else 0))) % 2 ^ 32 * 2 ^ 32 + (if inside then 2 else 0) := by
  obtain ⟨hclock, hcolour, hgroups, htorn, hcommits, hlast⟩ :=
    latchLine_latches h.isLt (s := s.at ((s.head h).frameAt + s.linesNs h line)) hruns hg hvals hid hv line
  have hsent := sendLine_only (h := h) ((s.at ((s.head h).frameAt + s.linesNs h line)).latchLine h line) line
  refine ⟨_, exec_displayLineStart hruns hdue hmode (by simp [hg]) line, ?_, ?_, ?_, ?_, ?_, ?_⟩
  · rw [hsent.clock (by simp), hclock, State.at_clock]
  · rw [hsent.rd (by simp), hcolour]
  · rw [hsent.head (by simp), hgroups]
  · rw [hsent.head (by simp), htorn]
    rfl
  · rw [hsent.rd (by simp), hcommits, rd_at]
  · rw [hsent.rd (by simp), hlast]
    rfl

end

/-! ## Underflows (R306) -/

/-- A NOTIFY of underflows is due: the head has sent none in the last second. -/
def noticeDue (last : Option Nat) (clock : Nat) : Bool :=
  match last with
  | some c => decide (c + 1000000000 ≤ clock)
  | none => true

/-- The first underflow of a frame counts the frame. -/
def State.underCounted (s : State) (h : Nat) : State := if (s.head h).under.isEmpty then s.count (Head.UNDERFLOW_FRAMES h) else s

/-- The underflow of a layer is noted for the rest of its line. -/
def State.underNoted (s : State) (h l line x : Nat) : State :=
  let u := s.underCounted h
  (u.setHead h { s.head h with under := (s.head h).under ++ [(l, line, x)]
                               lastUnder := if noticeDue (s.head h).lastUnder u.clock then some u.clock else (s.head h).lastUnder }).fire 205

theorem underCounted_only (s : State) (h : Nat) : OnlyChanges [] [Head.UNDERFLOW_FRAMES h] s (s.underCounted h) := countIf_only ..

theorem exec_layerUnderflow {h l : Fin 4} {s : State} (hruns : s.rd (Head.LINK_STATE h) ≠ 0) (hsource : s.layerSource h l ≠ 0) (line x : Nat) :
    exec (.layerUnderflow h l line x) s = .next (if noticeDue (s.head h).lastUnder (s.underCounted h).clock then
      (s.underNoted h l line x).linkNotify 0x0203 h 0xFF (maskOf (((s.head h).under ++ [(l.val, line, x)]).map Prod.fst).eraseDups)
      else s.underNoted h l line x) :=
  congrArg Host.Outcome.next (if_pos (by simp [State.headRuns, hruns, hsource]))

theorem underNoted_spec {h : Nat} (hh : h < 4) (s : State) (l line x : Nat) :
    let t := s.underNoted h l line x
    (t.head h).under = (s.head h).under ++ [(l, line, x)] ∧
      t.rd (Head.UNDERFLOW_FRAMES h) =
        (if (s.head h).under = [] then countUp (s.rd (Head.UNDERFLOW_FRAMES h)) 1 else s.rd (Head.UNDERFLOW_FRAMES h)) ∧
      t.firings = s.firings ++ [(205, s.clock)] ∧ OnlyChanges [.head h, .firings] [Head.UNDERFLOW_FRAMES h] s t := by
  have hu := underCounted_only s h
  have hcount : (s.underCounted h).rd (Head.UNDERFLOW_FRAMES h) =
      if (s.head h).under = [] then countUp (s.rd (Head.UNDERFLOW_FRAMES h)) 1 else s.rd (Head.UNDERFLOW_FRAMES h) := by
    simp only [State.underCounted, List.isEmpty_iff]
    split
    · exact rd_count_headCounter hh (by simp [headCounters]) s
    · rfl
  refine ⟨?_, hcount, ?_, (hu.trans ((setHead_only ..).trans (fire_only ..))).mono (by simp) (by simp)⟩
  · rw [State.underNoted, (fire_only ..).head (by simp), head_setHead_same]
  · rw [State.underNoted, State.fire_firings, State.setHead_firings, State.setHead_clock, hu.firings (by simp), hu.clock (by simp)]

theorem layerUnderflow_noted {h l : Fin 4} {s : State} (hruns : s.rd (Head.LINK_STATE h) ≠ 0) (hsource : s.layerSource h l ≠ 0) (line x : Nat) :
    ∃ t, exec (.layerUnderflow h l line x) s = .next t ∧ (t.head h).under = (s.head h).under ++ [(l.val, line, x)] ∧
      t.rd (Head.UNDERFLOW_FRAMES h) =
        (if (s.head h).under = [] then countUp (s.rd (Head.UNDERFLOW_FRAMES h)) 1 else s.rd (Head.UNDERFLOW_FRAMES h)) ∧
      t.firings = s.firings ++ [(205, s.clock)] ∧
      OnlyChanges (.head h :: .firings :: sending) (Head.UNDERFLOW_FRAMES h :: sendIds) s t ∧
      ∀ c, (s.head h).lastUnder = some c → s.clock < c + 1000000000 →
        OnlyChanges [.head h, .firings] [Head.UNDERFLOW_FRAMES h] s t := by
  obtain ⟨hunder, hcount, hfired, hframe⟩ := underNoted_spec h.isLt s l line x
  have hcounter : Head.UNDERFLOW_FRAMES h ∉ sendIds := headIds_not_sent h.isLt _ (by simp [headIds, headCounters])
  rw [exec_layerUnderflow hruns hsource, (underCounted_only s h).clock (by simp)]
  refine ⟨_, rfl, ?_⟩
  split
  next hdue =>
    have hsent := linkNotify_only (s.underNoted h l line x) 0x0203 h 0xFF
      (maskOf (((s.head h).under ++ [(l.val, line, x)]).map Prod.fst).eraseDups)
    refine ⟨?_, ?_, ?_, hframe.trans hsent, fun c hc hlate => ?_⟩
    · rw [hsent.head (by simp [sending]), hunder]
    · rw [hsent.rd hcounter, hcount]
    · rw [hsent.firings (by simp [sending]), hfired]
    · rw [hc, noticeDue, decide_eq_true_eq] at hdue
      omega
  next => exact ⟨hunder, hcount, hfired, hframe.mono (by simp) (by simp), fun _ _ _ => hframe⟩

/-! ## O31 -/

/-- Settles O31: links by `rd_linkTo`, frames by `FrameBegins.goesOn` and, locked, by `FrameBegins.aligned`, latch points and lines by
`RasterStands` and `LatchesColour`, underflows by `layerUnderflow_noted`. -/
theorem headsFollowSinkAndRaster : Obligations.HeadsFollowSinkAndRaster := by
  refine ⟨fun h s => ⟨fun _ => hpdRise_trains, hpdLowTimeout_noSink, hpdIrq_retrains, fun htraining works =>
    ⟨fun _ => linkTrainingDone_active htraining, linkTrainingDone_fails htraining⟩⟩, fun h e s hruns => ⟨fun hfree => ?_, fun hlocked hpoint => ?_⟩,
    fun h s hruns hdue => ⟨fun hlatched => ⟨displayLatchPoint_clock hruns hdue hlatched, displayLatchPoint_waits hruns hdue hlatched⟩,
      fun g id v hg hvals hid hv => ⟨fun hskip hlatched => ?_, fun hmode line => ?_⟩⟩,
    fun h l line x s hruns hsource => layerUnderflow_noted hruns hsource line x⟩
  · exact ⟨_, displayFrameStart_free hruns hfree e, (frameBegun_begins h.isLt s).goesOn (frameTimed_goesOn ..)⟩
  · obtain ⟨u, v, t, good, trim, st, hexec, hu, hv, ht, hd⟩ := displayFrameStart_locked (e := e) hruns hlocked hpoint
    obtain ⟨herror, halign, hclock, hat, hdue, hfired, hgood, htrim, hstate, hdecided, hframe⟩ := hu.aligned h.isLt hv ht hd
    refine ⟨t, hexec, herror, halign, hclock, hat, hdue, hfired, fun hbelow => ?_, fun habove hjump => ?_, fun habove hnojump => ?_, hframe⟩
    · obtain ⟨rfl, rfl, rfl⟩ := hdecided.below hbelow
      exact ⟨hgood, htrim, hstate⟩
    · obtain ⟨rfl, rfl, rfl, hcount⟩ := hdecided.jump habove hjump
      exact ⟨htrim, hgood, hstate, hcount⟩
    · obtain ⟨rfl, rfl, rfl, hcount⟩ := hdecided.trim habove hnojump
      exact ⟨htrim, hgood, hstate, hcount⟩
  · simpa using displayLatchPoint_latches hruns hdue hg hvals (by simpa [colourIds] using hid) hv hskip hlatched
  · simpa using displayLineStart_latches hruns hdue hg hvals (by simpa [colourIds] using hid) hv hmode line

end Sys2Proof.Machine

/-! Blocks of the media set (R345, R347, R353): fields through their bytes, superblocks and journal blocks that read back, and O37. -/

namespace Sys2Proof.Machine

/-! ## Fields in a row of bytes -/

/-- Bytes after a first part, from their own start. -/
theorem slice_append_right {a : List Byte} (r : List Byte) {o : Nat} (h : a.length ≤ o) (n : Nat) :
    slice (a ++ r) o n = slice r (o - a.length) n := by
  rw [slice, slice, List.drop_append, List.drop_of_length_le h, List.nil_append]

theorem leAt_append_right {a : List Byte} (r : List Byte) {o : Nat} (h : a.length ≤ o) (n : Nat) :
    leAt (a ++ r) o n = leAt r (o - a.length) n := by
  rw [leAt, slice_append_right r h, leAt]

/-- The field that stands first reads as its number. -/
theorem leAt_field (n v : Nat) (r : List Byte) : leAt (leBytes n v ++ r) 0 n = v % 2 ^ (8 * n) := by
  rw [leAt, slice, List.drop_zero, List.take_left' (leBytes_length n v), leNat_leBytes, Nat.pow_mul]

/-- A field alone, as the last of a row. -/
theorem leAt_lastField (n v : Nat) : leAt (leBytes n v) 0 n = v % 2 ^ (8 * n) := by
  simpa using leAt_field n v []

/-- The fields before the one that is read are stepped over. -/
theorem leAt_skip {o : Nat} (k v : Nat) (r : List Byte) (h : k ≤ o) (n : Nat) : leAt (leBytes k v ++ r) o n = leAt r (o - k) n := by
  rw [leAt_append_right r (by simpa using h), leBytes_length]

theorem leAt_skipZeros {o : Nat} (k : Nat) (r : List Byte) (h : k ≤ o) (n : Nat) : leAt (zeroBytes k ++ r) o n = leAt r (o - k) n := by
  rw [leAt_append_right r (by simpa [zeroBytes] using h), zeroBytes, List.length_replicate]

/-! ## Superblocks (R347, Table 13-4) -/

theorem superblockBody_length (x : Superblock) : x.body.length = 4092 := by
  unfold Superblock.body
  simp only [zeroBytes, List.length_append, leBytes_length, List.length_replicate]

/-- Each field of a superblock at its place of Table 13-4, whatever follows the body. -/
theorem superblock_fields (x : Superblock) (c : List Byte) :
    let b := x.body ++ c
    leAt b 0 4 = 0x31534D43 ∧ leAt b 4 2 = 1 ∧ leAt b 6 1 = x.layout % 2 ^ 8 ∧ leAt b 7 1 = x.count % 2 ^ 8 ∧ leAt b 8 1 = x.index % 2 ^ 8 ∧
      leAt b 9 1 = x.failed % 2 ^ 8 ∧ leAt b 12 4 = x.generation % 2 ^ 32 ∧ leAt b 16 8 = x.setId % 2 ^ 64 ∧
      (∀ k < 4, leAt b (24 + 8 * k) 8 = x.ids.getD k 0 % 2 ^ 64) ∧ leAt b 56 8 = x.memberBlocks % 2 ^ 64 ∧ leAt b 64 4 = x.journal % 2 ^ 32 ∧
      leAt b 68 4 = x.dirEntries % 2 ^ 32 ∧ leAt b 72 4 = x.extents % 2 ^ 32 ∧ leAt b 76 4 = x.userMiB % 2 ^ 32 ∧
      leAt b 80 8 = x.extBase % 2 ^ 64 ∧ leAt b 88 8 = x.formatTime % 2 ^ 64 := by
  have hids : ∀ P : Nat → Prop, (∀ k < 4, P k) ↔ P 0 ∧ P 1 ∧ P 2 ∧ P 3 := fun P =>
    ⟨fun h => ⟨h 0 (by omega), h 1 (by omega), h 2 (by omega), h 3 (by omega)⟩, fun ⟨h0, h1, h2, h3⟩ k hk => by
      interval_cases k <;> assumption⟩
  unfold Superblock.body
  generalize zeroBytes 3996 = z
  simp (disch := omega) only [List.append_assoc, leAt_field, leAt_skip, hids, Nat.reduceSub, Nat.reduceAdd, Nat.reduceMul, and_true]
  exact ⟨rfl, rfl⟩

theorem superblock_readsBack {x : Superblock} (hlayout : x.layout < 2 ^ 8) (hcount : x.count < 2 ^ 8) (hindex : x.index < 2 ^ 8)
    (hfailed : x.failed < 2 ^ 8) (hgeneration : x.generation < 2 ^ 32) (hset : x.setId < 2 ^ 64) (hids : x.ids.length = 4)
    (hid : ∀ k ∈ x.ids, k < 2 ^ 64) (hblocks : x.memberBlocks < 2 ^ 64) (hjournal : x.journal < 2 ^ 32) (hdir : x.dirEntries < 2 ^ 32)
    (hextents : x.extents < 2 ^ 32) (huser : x.userMiB < 2 ^ 32) (hbase : x.extBase < 2 ^ 64) (htime : x.formatTime < 2 ^ 64) :
    x.bytes.length = blockSize ∧ parseSuperblock x.bytes = some x := by
  have hlen := superblockBody_length x
  have hcrc : leAt x.bytes 4092 4 = crc32 (x.bytes.take 4092) := by
    rw [Superblock.bytes, List.take_left' hlen, leAt_append_right _ (Nat.le_of_eq hlen), hlen, leAt_lastField]
    exact Nat.mod_eq_of_lt (crc32_lt _)
  obtain ⟨hmagic, hversion, h⟩ := superblock_fields x (leBytes 4 (crc32 x.body))
  rw [← Superblock.bytes] at hmagic hversion h
  obtain ⟨hl, hc, hi, hf, hg, hs, hks, hm, hj, hd, he, hu, hb, ht⟩ := h
  have hmembers : (List.range 4).map (fun k => leAt x.bytes (24 + 8 * k) 8) = x.ids := by
    refine List.ext_getElem (by simp [hids]) fun k hk hk' => ?_
    rw [List.getElem_map, List.getElem_range, hks k (hids ▸ hk'), List.getD_eq_getElem _ _ hk', Nat.mod_eq_of_lt (hid _ (List.getElem_mem hk'))]
  refine ⟨by rw [Superblock.bytes, List.length_append, hlen, leBytes_length]; rfl, ?_⟩
  rw [parseSuperblock, if_pos ⟨hmagic, hversion, hcrc⟩, hmembers, hl, hc, hi, hf, hg, hs, hm, hj, hd, he, hu, hb, ht]
  simp only [Nat.mod_eq_of_lt, *]

/-! ## Journal blocks (R353, Tables 13-10 and 13-11) -/

theorem jentryBytes_length (e : JEntry) : e.bytes.length = 32 := by
  simp only [JEntry.bytes, List.length_append, leBytes_length]

theorem parseJEntry_bytes {e : JEntry} (htype : e.type < 2 ^ 8) (hsub : e.sub < 2 ^ 8) (hclip : e.clip < 2 ^ 32) (ha : e.a < 2 ^ 64)
    (hb : e.b < 2 ^ 64) (hc : e.c < 2 ^ 64) : parseJEntry e.bytes = e := by
  rw [parseJEntry, JEntry.bytes]
  simp (disch := omega) only [List.append_assoc, leAt_field, leAt_skip, leAt_lastField, Nat.reduceSub, Nat.reduceMul, Nat.mod_eq_of_lt, *]

/-- The entries of a journal block stand one after the other, 32 bytes each. -/
theorem slice_entries {es : List JEntry} {i : Nat} (hi : i < es.length) (z : List Byte) :
    slice (es.flatMap JEntry.bytes ++ z) (32 * i) 32 = es[i].bytes := by
  induction es generalizing i with
  | nil => simp at hi
  | cons e es ih =>
    rw [List.flatMap_cons, List.append_assoc]
    cases i with
    | zero => rw [slice, Nat.mul_zero, List.drop_zero, List.take_left' (jentryBytes_length e), List.getElem_cons_zero]
    | succ i =>
      have hskip : 32 * (i + 1) - e.bytes.length = 32 * i := by rw [jentryBytes_length]; omega
      rw [slice_append_right _ (by rw [jentryBytes_length]; omega), hskip, ih (by simpa using hi), List.getElem_cons_succ]

/-- Bytes 0 to 59 of a journal block with `n` entries (Table 13-10). -/
def journalHead (setId seq count index n : Nat) : List Byte :=
  leBytes 1 0x4A ++ leBytes 1 1 ++ leBytes 1 index ++ leBytes 1 count ++ leBytes 1 n ++ leBytes 3 0 ++ leBytes 8 seq ++ leBytes 8 setId ++ zeroBytes 36

/-- Bytes 64 to 4,095 of a journal block (Table 13-11). -/
def journalRest (es : List JEntry) : List Byte := es.flatMap JEntry.bytes ++ zeroBytes (4032 - 32 * es.length)

/-- A journal block: its head, its CRC with the field taken as 0, its entries (R353). -/
theorem journalBlock_eq (setId seq count index : Nat) (es : List JEntry) :
    journalBlock setId seq count index es = journalHead setId seq count index es.length ++
      (leBytes 4 (crc32 (journalHead setId seq count index es.length ++ zeroBytes 4 ++ journalRest es)) ++ journalRest es) := by
  rw [← List.append_assoc]
  rfl

theorem journalHead_length (setId seq count index n : Nat) : (journalHead setId seq count index n).length = 60 := by
  unfold journalHead
  simp only [zeroBytes, List.length_append, leBytes_length, List.length_replicate]

theorem journalRest_length {es : List JEntry} (hlen : es.length ≤ 126) : (journalRest es).length = 4032 := by
  have hentries : (es.flatMap JEntry.bytes).length = 32 * es.length := by
    simp [List.length_flatMap, jentryBytes_length, Nat.mul_comm]
  rw [journalRest, List.length_append, hentries, zeroBytes, List.length_replicate]
  omega

/-- Each field of a journal block at its place of Table 13-10, whatever follows the head. -/
theorem journalHead_fields (setId seq count index n : Nat) (r : List Byte) :
    let b := journalHead setId seq count index n ++ r
    leAt b 0 1 = 0x4A ∧ leAt b 1 1 = 1 ∧ leAt b 2 1 = index % 2 ^ 8 ∧ leAt b 3 1 = count % 2 ^ 8 ∧ leAt b 4 1 = n % 2 ^ 8 ∧
      leAt b 8 8 = seq % 2 ^ 64 ∧ leAt b 16 8 = setId % 2 ^ 64 := by
  unfold journalHead
  generalize zeroBytes 36 = z
  simp (disch := omega) only [List.append_assoc, leAt_field, leAt_skip, Nat.reduceSub, Nat.reduceMul, and_true]
  exact ⟨rfl, rfl⟩

theorem journalBlock_readsBack {setId seq count index : Nat} {es : List JEntry} (hset : setId < 2 ^ 64) (hseq : seq < 2 ^ 64)
    (hcount : count < 2 ^ 8) (hindex : index < 2 ^ 8) (hlen : es.length ≤ 126)
    (hes : ∀ e ∈ es, e.type < 2 ^ 8 ∧ e.sub < 2 ^ 8 ∧ e.clip < 2 ^ 32 ∧ e.a < 2 ^ 64 ∧ e.b < 2 ^ 64 ∧ e.c < 2 ^ 64) :
    (journalBlock setId seq count index es).length = blockSize ∧
      parseJournal setId (journalBlock setId seq count index es) = some (seq, count, index, es) := by
  have hhead := journalHead_length setId seq count index es.length
  obtain ⟨hmagic, hversion, hi, hc, hn, hs, hid⟩ := journalHead_fields setId seq count index es.length
    (leBytes 4 (crc32 (journalHead setId seq count index es.length ++ zeroBytes 4 ++ journalRest es)) ++ journalRest es)
  rw [journalBlock_eq]
  generalize hcrc : crc32 (journalHead setId seq count index es.length ++ zeroBytes 4 ++ journalRest es) = crc at *
  generalize journalHead setId seq count index es.length = head at *
  rw [Nat.mod_eq_of_lt hindex] at hi
  rw [Nat.mod_eq_of_lt hcount] at hc
  rw [Nat.mod_eq_of_lt (by omega)] at hn
  rw [Nat.mod_eq_of_lt hseq] at hs
  rw [Nat.mod_eq_of_lt hset] at hid
  have hsum : leAt (head ++ (leBytes 4 crc ++ journalRest es)) 60 4 =
      crc32 ((head ++ (leBytes 4 crc ++ journalRest es)).take 60 ++ zeroBytes 4 ++ (head ++ (leBytes 4 crc ++ journalRest es)).drop 64) := by
    have hdrop : (head ++ (leBytes 4 crc ++ journalRest es)).drop 64 = journalRest es := by
      rw [← List.append_assoc]
      exact List.drop_left' (by rw [List.length_append, hhead, leBytes_length])
    rw [leAt_append_right _ (Nat.le_of_eq hhead), hhead, leAt_field, List.take_left' hhead, hdrop, hcrc]
    exact Nat.mod_eq_of_lt (hcrc ▸ crc32_lt _)
  have hentries : (List.range es.length).map (fun i => parseJEntry (slice (head ++ (leBytes 4 crc ++ journalRest es)) (64 + 32 * i) 32)) = es := by
    refine List.ext_getElem (by simp) fun i h h' => ?_
    obtain ⟨htype, hsub, hclip, ha, hb, hc⟩ := hes _ (List.getElem_mem h')
    have hskip : 64 + 32 * i - (head ++ leBytes 4 crc).length = 32 * i := by rw [List.length_append, hhead, leBytes_length]; omega
    rw [List.getElem_map, List.getElem_range, ← List.append_assoc,
      slice_append_right _ (by rw [List.length_append, hhead, leBytes_length]; omega), hskip, journalRest, slice_entries h',
      parseJEntry_bytes htype hsub hclip ha hb hc]
  refine ⟨by rw [List.length_append, List.length_append, hhead, leBytes_length, journalRest_length hlen]; rfl, ?_⟩
  rw [parseJournal, if_pos ⟨hmagic, hversion, hid, hsum, by omega⟩, hs, hc, hi, hn, hentries]

/-- Settles O37: superblocks by their fields and the CRC of their body, journal blocks by their head, their CRC and their entries in a row. -/
theorem mediaBlocksReadBack : Obligations.MediaBlocksReadBack :=
  ⟨fun _ hlayout hcount hindex hfailed hgeneration hset hids hid hblocks hjournal hdir hextents huser hbase htime =>
    superblock_readsBack hlayout hcount hindex hfailed hgeneration hset hids hid hblocks hjournal hdir hextents huser hbase htime,
    fun _ _ _ _ _ hset hseq hcount hindex hlen hes => journalBlock_readsBack hset hseq hcount hindex hlen hes⟩

end Sys2Proof.Machine

/-! Ethernet ports (R310, R311, R313, R337): links that train, pauses that hold RoCEv2, requests for the addresses of a port, and O32. -/

namespace Sys2Proof.Machine

/-! ## The parameters of an Ethernet port (Table 12-9) -/

/-- What an Ethernet port counts of its link and of flow control. -/
def ethCounters (p : Nat) : List Nat :=
  [Eth.FEC_UNCORRECTED p, Eth.LINK_FAILS p, Eth.PFC_RX p, Eth.PFC_TX p, Eth.PFC_STORMS p, Eth.CNP_RX p, Eth.CNP_TX p]

theorem isWord_ethLinkState : ∀ p < 2, isWord (Eth.LINK_STATE p) = true := by decide

theorem isCounter_ethCounters : ∀ p < 2, ∀ id ∈ ethCounters p, isCounter id = true := by decide

/-- What a port counts of its link is none of what sending counts. -/
theorem ethCounters_not_sent : ∀ p < 2, ∀ id ∈ Eth.LINK_STATE p :: ethCounters p, id ∉ sendIds := by decide

theorem mem_sendIds_of_txIds : ∀ id ∈ txIds, id ∈ sendIds := by decide

theorem rd_count_ethCounter {p id : Nat} (hp : p < 2) (hid : id ∈ ethCounters p) (s : State) : (s.count id).rd id = countUp (s.rd id) 1 :=
  rd_count_counter (isCounter_ethCounters p hp id hid) s

theorem OnlyChanges.eth {ps : List Part} {ids : List Nat} {s t : State} {p : Nat} (h : OnlyChanges ps ids s t) (hp : .eth p ∉ ps) :
    t.eth p = s.eth p :=
  h.2.1 (.eth p) hp

theorem OnlyChanges.out {ps : List Part} {ids : List Nat} {s t : State} (h : OnlyChanges ps ids s t) (hp : .out ∉ ps) : t.out = s.out :=
  h.2.1 .out hp

theorem OnlyChanges.nothing {ps : List Part} {ids : List Nat} (s : State) : OnlyChanges ps ids s s :=
  (OnlyChanges.refl s).mono (by simp) (by simp)

/-! ## Links (R311, R337) -/

/-- A change of the link: the state, when it began, no pause, the NOTIFY and the event source of the links. -/
theorem ethTo_change {s : State} {p st : Nat} (h : s.rd (Eth.LINK_STATE p) ≠ st) :
    s.ethTo p st =
      (((s.wr (Eth.LINK_STATE p) st).setEth p { s.eth p with since := s.clock, pause := none }).linkNotify 0x0301 p 0 st).fire 204 := by
  rw [State.ethTo, if_neg h]

theorem ethTo_spec {s : State} {p st : Nat} (hp : p < 2) (hst : st < 2 ^ 32) (h : s.rd (Eth.LINK_STATE p) ≠ st) :
    (s.ethTo p st).rd (Eth.LINK_STATE p) = st ∧ (s.ethTo p st).eth p = { s.eth p with since := s.clock, pause := none } ∧
      (s.ethTo p st).firings = s.firings ++ [(204, s.clock)] ∧
      OnlyChanges (.eth p :: .firings :: sending) (Eth.LINK_STATE p :: sendIds) s (s.ethTo p st) := by
  let u := (s.wr (Eth.LINK_STATE p) st).setEth p { s.eth p with since := s.clock, pause := none }
  have hwr := wr_only s (Eth.LINK_STATE p) st
  have hu : OnlyChanges [.eth p] [Eth.LINK_STATE p] s u := hwr.trans (setEth_only ..)
  have hn : OnlyChanges sending sendIds u (u.linkNotify 0x0301 p 0 st) := linkNotify_only ..
  rw [show s.ethTo p st = (u.linkNotify 0x0301 p 0 st).fire 204 from ethTo_change h]
  refine ⟨?_, ?_, ?_, ((hu.trans hn).trans (fire_only _ 204)).mono (by simp +contextual [or_imp]) (by simp)⟩
  · rw [(fire_only ..).rd (by simp), hn.rd (ethCounters_not_sent p hp _ (by simp))]
    exact rd_wr_word (isWord_ethLinkState p hp) hst s
  · rw [(fire_only ..).eth (by simp), hn.eth (by simp [sending]), eth_setEth_same]
  · rw [fire_firings, (hu.trans hn).firings (by simp [sending]), (hu.trans hn).clock (by simp [sending])]

theorem noteNmp_only (s : State) : OnlyChanges [] [Obs.BOOT_TIME_NMP] s s.noteNmp := by
  unfold State.noteNmp
  split
  · exact wr_only ..
  · exact .nothing s

theorem reportGroups_only (s : State) (p : Nat) (v6 : Bool) : OnlyChanges [.out, .free] txIds s (s.reportGroups p v6) := emit_only ..

theorem reportChanges_only (s : State) (before : Nat → Bool → List (List Byte)) : OnlyChanges [.out, .free] txIds s (s.reportChanges before) := by
  refine OnlyChanges.foldl _ (.nothing s) fun t e _ => ?_
  split
  · exact reportGroups_only ..
  · exact .nothing t

section

variable {p : Fin 2} {s : State} (hruns : s.netRuns = true)

include hruns

theorem ethLockAchieved_up (htraining : s.rd (Eth.LINK_STATE p) = 1) :
    ∃ t, exec (.ethLockAchieved p) s = .next t ∧ t.rd (Eth.LINK_STATE p) = 2 ∧ (t.eth p).since = s.clock ∧ (t.eth p).pause = none ∧
      t.firings = s.firings ++ [(204, s.clock)] ∧
      OnlyChanges (.eth p :: .firings :: sending) (Eth.LINK_STATE p :: Obs.BOOT_TIME_NMP :: sendIds) s t := by
  obtain ⟨hst, heth, hfired, hframe⟩ := ethTo_spec (s := s) (st := 2) p.isLt (by decide) (by omega)
  have hrest := (noteNmp_only (s.ethTo p 2)).trans (reportChanges_only _ fun q v6 => if q = p.val then [] else s.groups q v6)
  have hlink : Eth.LINK_STATE p ∉ [Obs.BOOT_TIME_NMP] ++ txIds :=
    (by decide : ∀ q : Fin 2, Eth.LINK_STATE q ∉ [Obs.BOOT_TIME_NMP] ++ txIds) p
  refine ⟨_, congrArg Host.Outcome.next (if_pos ⟨hruns, htraining⟩), ?_, ?_, ?_, ?_,
    (hframe.trans hrest).mono (by simp +contextual [sending, or_imp]) (by simp +contextual [or_imp, mem_sendIds_of_txIds])⟩
  · rw [hrest.rd hlink, hst]
  · rw [hrest.eth (by simp), heth]
  · rw [hrest.eth (by simp), heth]
  · rw [hrest.firings (by simp), hfired]

theorem ethTrainingTimeout_fails (htraining : s.rd (Eth.LINK_STATE p) = 1) :
    ∃ t, exec (.ethTrainingTimeout p) s = .next t ∧ t.rd (Eth.LINK_STATE p) = 3 ∧ t.clock = max s.clock ((s.eth p).since + 500000000) ∧
      t.rd (Eth.LINK_FAILS p) = countUp (s.rd (Eth.LINK_FAILS p)) 1 ∧ t.firings = s.firings ++ [(204, t.clock)] ∧
      OnlyChanges (.clock :: .eth p :: .firings :: sending) (Eth.LINK_STATE p :: Eth.LINK_FAILS p :: sendIds) s t := by
  let due := (s.eth p).since + 500000000
  let u := (s.at due).count (Eth.LINK_FAILS p)
  have hu : OnlyChanges [.clock] [Eth.LINK_FAILS p] s u := (at_only s due).trans (count_only ..)
  have hclock : u.clock = max s.clock due := (count_only (s.at due) (Eth.LINK_FAILS p)).clock (by simp)
  have hstill : u.rd (Eth.LINK_STATE p) = 1 := (hu.rd (by simp [Eth.LINK_STATE, Eth.LINK_FAILS])).trans htraining
  obtain ⟨hst, -, hfired, hframe⟩ := ethTo_spec (s := u) (st := 3) p.isLt (by decide) (by omega)
  have hnow : (u.ethTo p 3).clock = u.clock := hframe.clock (by simp [sending])
  refine ⟨u.ethTo p 3, congrArg Host.Outcome.next (if_pos ⟨hruns, htraining⟩), hst, hnow.trans hclock, ?_, ?_,
    (hu.trans hframe).mono (by simp) (by simp +contextual [or_imp])⟩
  · rw [hframe.rd ((by decide : ∀ q : Fin 2, Eth.LINK_FAILS q ∉ Eth.LINK_STATE q :: sendIds) p), rd_count_ethCounter p.isLt (by simp [ethCounters])]
    rfl
  · rw [hnow, hfired, hu.firings (by simp)]

theorem ethLinkLoss_retrains (n : Nat) (hup : s.rd (Eth.LINK_STATE p) = 2) :
    ∃ t, exec (.ethLinkLoss p n) s = .next t ∧ t.rd (Eth.LINK_STATE p) = 1 ∧
      t.rd (Eth.FEC_UNCORRECTED p) = countUp (s.rd (Eth.FEC_UNCORRECTED p)) n ∧ t.firings = s.firings ++ [(204, s.clock)] ∧
      OnlyChanges (.eth p :: .firings :: sending) (Eth.LINK_STATE p :: Eth.FEC_UNCORRECTED p :: sendIds) s t := by
  let u := s.countBy (Eth.FEC_UNCORRECTED p) n
  have hu : OnlyChanges [] [Eth.FEC_UNCORRECTED p] s u := countBy_only ..
  have hstill : u.rd (Eth.LINK_STATE p) = 2 := (hu.rd (by simp [Eth.LINK_STATE, Eth.FEC_UNCORRECTED])).trans hup
  obtain ⟨hst, -, hfired, hframe⟩ := ethTo_spec (s := u) (st := 1) p.isLt (by decide) (by omega)
  refine ⟨u.ethTo p 1, congrArg Host.Outcome.next (if_pos (by simp [State.ethUp, hruns, hup])), hst, ?_, ?_,
    (hu.trans hframe).mono (by simp) (by simp +contextual [or_imp])⟩
  · rw [hframe.rd ((by decide : ∀ q : Fin 2, Eth.FEC_UNCORRECTED q ∉ Eth.LINK_STATE q :: sendIds) p),
      rd_countBy_counter (isCounter_ethCounters p p.isLt _ (by simp [ethCounters]))]
  · rw [hfired, hu.firings (by simp), hu.clock (by simp)]

end

/-! ## Flow control (R313) -/

section

variable {p : Fin 2} {s : State}

theorem eth_setEth_held (s : State) (p : Nat) (x : EthSt) : ((s.setEth p x).eth p).held = x.held := by rw [eth_setEth_same]

/-- Output that a pause held leaves once there is none. -/
theorem roceFlush_released {s : State} {p : Nat} (h : (s.eth p).pause = none) : (s.roceFlush p).eth p = { s.eth p with held := [] } := by
  have hfree : s.paused p = false := by simp [State.paused, h]
  by_cases hheld : (s.eth p).held = []
  · rw [State.roceFlush, if_pos (.inr hheld), ← hheld]
  · rw [State.roceFlush, if_neg (by simp [hfree, hheld])]
    have hleave : OnlyChanges [.out, .free] txIds (s.setEth p { s.eth p with held := [] })
        ((s.eth p).held.foldl (fun (t : State) e => t.roceNow p e.1 e.2) (s.setEth p { s.eth p with held := [] })) :=
      OnlyChanges.foldl _ (.nothing _) fun t e _ => roceNow_only t p e.1 e.2
    exact (hleave.eth (by simp)).trans (eth_setEth_same ..)

theorem pfcPauseRx_holds (hup : s.ethUp p = true) {prio : Fin 8} {quanta : Nat} (henabled : s.rd (Eth.PFC_ENABLE p) ≠ 0)
    (hprio : prio.val = s.rd (Eth.ROCE_PRIORITY p)) (hignore : (s.eth p).ignoreUntil ≤ s.clock) :
    let start := if s.paused p then ((s.eth p).pause.getD (s.clock, 0)).1 else s.clock
    ∃ t, exec (.pfcPauseRx p prio quanta) s = .next t ∧ t.rd (Eth.PFC_RX p) = countUp (s.rd (Eth.PFC_RX p)) 1 ∧
      (t.eth p).pause = (if quanta = 0 then none else some (start, s.clock + quanta * 512 / s.lineGbit p)) ∧
      (t.eth p).held = (if quanta = 0 then [] else (s.eth p).held) ∧
      (quanta ≠ 0 → OnlyChanges [.eth p, .free] [Eth.RX_FRAMES p, Eth.RX_BYTES p, Eth.PFC_RX p] s t) ∧
      OnlyChanges [.eth p, .free, .out] (Eth.RX_FRAMES p :: Eth.RX_BYTES p :: Eth.PFC_RX p :: txIds) s t := by
  intro start
  let u := (s.rxFrame p).count (Eth.PFC_RX p)
  have hu : OnlyChanges [.free] [Eth.RX_FRAMES p, Eth.RX_BYTES p, Eth.PFC_RX p] s u := (rxFrame_only s p).trans (count_only ..)
  have hcounted : u.rd (Eth.PFC_RX p) = countUp (s.rd (Eth.PFC_RX p)) 1 := by
    rw [rd_count_ethCounter p.isLt (by simp [ethCounters]), (rxFrame_only s p).rd (by simp [Eth.PFC_RX, Eth.RX_FRAMES, Eth.RX_BYTES])]
  have hsame : ∀ id ∈ [Eth.PFC_ENABLE p, Eth.ROCE_PRIORITY p, Eth.ETH_MODE p], u.rd id = s.rd id := fun id hid =>
    hu.rd ((by decide : ∀ q : Fin 2, ∀ id ∈ [Eth.PFC_ENABLE q, Eth.ROCE_PRIORITY q, Eth.ETH_MODE q],
      id ∉ [Eth.RX_FRAMES q, Eth.RX_BYTES q, Eth.PFC_RX q]) p id hid)
  have heth : u.eth p = s.eth p := hu.eth (by simp)
  have hclock : u.clock = s.clock := hu.clock (by simp)
  have htaken : ¬(u.rd (Eth.PFC_ENABLE p) = 0 ∨ prio.val ≠ u.rd (Eth.ROCE_PRIORITY p) ∨ u.clock < (u.eth p).ignoreUntil) := by
    rw [hsame _ (by simp), hsame _ (by simp), heth, hclock]
    omega
  have hexec : exec (.pfcPauseRx p prio quanta) s = .next (
      if quanta = 0 then (u.setEth p { u.eth p with pause := none }).roceFlush p
      else u.setEth p { u.eth p with pause := some (if u.paused p then ((u.eth p).pause.getD (u.clock, 0)).1 else u.clock,
        u.clock + quanta * 512 / u.lineGbit p) }) := by
    refine congrArg Host.Outcome.next ((if_pos hup).trans ((if_neg htaken).trans rfl))
  have hline : u.lineGbit p = s.lineGbit p := by rw [State.lineGbit, State.lineGbit, hsame _ (by simp)]
  rw [hexec]
  by_cases hq : quanta = 0
  · have hflush := roceFlush_only (u.setEth p { u.eth p with pause := none }) p
    have hreleased := roceFlush_released (s := u.setEth p { u.eth p with pause := none }) (p := p) (by rw [eth_setEth_same])
    refine ⟨_, rfl, ?_, ?_, ?_, fun h => absurd hq h, ?_⟩ <;> simp only [if_pos hq]
    · rw [hflush.rd ((by decide : ∀ q : Fin 2, Eth.PFC_RX q ∉ txIds) p)]
      exact hcounted
    · rw [hreleased, eth_setEth_same]
    · rw [hreleased]
    · exact ((hu.trans (setEth_only ..)).trans hflush).mono (by simp) (by simp)
  · refine ⟨_, rfl, ?_, ?_, ?_, fun _ => ?_, ?_⟩ <;> simp only [if_neg hq]
    · exact hcounted
    · rw [eth_setEth_same, hclock, heth, hline, hu.paused (by simp) (by simp)]
    · rw [eth_setEth_same, heth]
    · exact (hu.trans (setEth_only ..)).mono (by simp) (by simp)
    · exact (hu.trans (setEth_only ..)).mono (by simp) (by simp)

theorem pfcStorm_ends {e : Nat × Nat} (hpause : (s.eth p).pause = some e) :
    ∃ t, exec (.pfcStorm p) s = .next t ∧ t.clock = max s.clock (e.1 + s.rd (Eth.PFC_STORM_LIMIT p) * 1000000) ∧
      (t.eth p).pause = none ∧ (t.eth p).held = [] ∧ (t.eth p).ignoreUntil = t.clock + 1000000000 ∧
      t.rd (Eth.PFC_STORMS p) = countUp (s.rd (Eth.PFC_STORMS p)) 1 ∧
      OnlyChanges (.clock :: .eth p :: sending) (Eth.PFC_STORMS p :: sendIds) s t := by
  let due := e.1 + s.rd (Eth.PFC_STORM_LIMIT p) * 1000000
  let x : EthSt := { s.eth p with pause := none, ignoreUntil := max s.clock due + 1000000000 }
  let u := (((s.at due).setEth p x).count (Eth.PFC_STORMS p)).linkNotify 0x0302 p 0 0
  have hset : OnlyChanges [.clock, .eth p] [] s ((s.at due).setEth p x) := (at_only s due).trans (setEth_only ..)
  have hnotice : OnlyChanges sending (Eth.PFC_STORMS p :: sendIds) ((s.at due).setEth p x) u :=
    ((count_only ..).trans (linkNotify_only ..)).mono (by simp) (by simp)
  have hflush := roceFlush_only u p
  have heth : u.eth p = x := (hnotice.eth (by simp [sending])).trans (eth_setEth_same ..)
  have hclock : (u.roceFlush p).clock = max s.clock due := (hflush.clock (by simp)).trans (hnotice.clock (by simp [sending]))
  have hreleased : (u.roceFlush p).eth p = { x with held := [] } := by rw [roceFlush_released (by rw [heth]), heth]
  have hexec : exec (.pfcStorm p) s = .next (u.roceFlush p) := by
    simp only [exec, execPfcStorm, hpause]
    rfl
  refine ⟨_, hexec, hclock, by rw [hreleased], by rw [hreleased], by rw [hreleased, hclock], ?_,
    ((hset.trans hnotice).trans hflush).mono (by simp +contextual [sending, or_imp]) (by simp +contextual [or_imp, mem_sendIds_of_txIds])⟩
  rw [hflush.rd ((by decide : ∀ q : Fin 2, Eth.PFC_STORMS q ∉ txIds) p), (linkNotify_only ..).rd (ethCounters_not_sent p p.isLt _ (by simp [ethCounters])),
    rd_count_ethCounter p.isLt (by simp [ethCounters])]
  rfl

theorem pfcRxBufferThreshold_sends {above : Bool} (hup : s.ethUp p = true) (henabled : s.rd (Eth.PFC_ENABLE p) = 1)
    (hsent : (s.eth p).sentPause ≠ above) :
    ∃ t, exec (.pfcRxBufferThreshold p above) s = .next t ∧ (t.eth p).sentPause = above ∧
      t.rd (Eth.PFC_TX p) = countUp (s.rd (Eth.PFC_TX p)) 1 ∧ OnlyChanges [.eth p, .out, .free] (Eth.PFC_TX p :: txIds) s t := by
  let u := (s.setEth p { s.eth p with sentPause := above }).count (Eth.PFC_TX p)
  have hu : OnlyChanges [.eth p] [Eth.PFC_TX p] s u := (setEth_only ..).trans (count_only ..)
  have hout (o : Output) : OnlyChanges [.out, .free] txIds u (u.emit o) := emit_only u o
  refine ⟨_, congrArg Host.Outcome.next (if_pos ⟨hup, henabled, hsent⟩), ?_, ?_, (hu.trans (hout _)).mono (by simp) (by simp)⟩
  · rw [(hout _).eth (by simp), (count_only ..).eth (by simp), eth_setEth_same]
  · rw [(hout _).rd ((by decide : ∀ q : Fin 2, Eth.PFC_TX q ∉ txIds) p), rd_count_ethCounter p.isLt (by simp [ethCounters])]
    rfl

end

/-! ## Addresses (R310) -/

/-- The groups of a port depend on nothing of group 0x40. -/
theorem groups_of_above {s t : State} (h : ∀ id, 0x41000000 ≤ id → t.rd id = s.rd id ∧ t.rdBlob id = s.rdBlob id) (p : Nat) (v6 : Bool) :
    t.groups p v6 = s.groups p v6 := by
  have hrole := (h Time.PTP_ROLE (by decide)).1
  have hrx (k : Nat) : t.rdBlob (St.DEST_ADDRESS (0x50 + k) p) = s.rdBlob (St.DEST_ADDRESS (0x50 + k) p) ∧
      t.rd (St.STREAM_ENABLE (0x50 + k)) = s.rd (St.STREAM_ENABLE (0x50 + k)) ∧ t.rd (St.STREAM_PORTS (0x50 + k)) = s.rd (St.STREAM_PORTS (0x50 + k)) := by
    refine ⟨(h _ ?_).2, (h _ ?_).1, (h _ ?_).1⟩ <;> simp only [St.DEST_ADDRESS, St.STREAM_ENABLE, St.STREAM_PORTS] <;> omega
  simp only [State.groups, hrole, hrx]

/-- A frame received leaves what a port answers with: its VLAN, its addresses and its groups. -/
theorem rxFrame_answers (s : State) {p : Nat} (hp : p < 2) :
    (s.rxFrame p).rd (Eth.VLAN_ID p) = s.rd (Eth.VLAN_ID p) ∧ (s.rxFrame p).rd (Eth.MAC_ADDRESS p) = s.rd (Eth.MAC_ADDRESS p) ∧
      (∀ a, (s.rxFrame p).ownAddress p a = s.ownAddress p a) ∧ ∀ v6, (s.rxFrame p).groups p v6 = s.groups p v6 := by
  have hrx := rxFrame_only s p
  have hmac : (s.rxFrame p).rd (Eth.MAC_ADDRESS p) = s.rd (Eth.MAC_ADDRESS p) := hrx.rd (by simp [Eth.MAC_ADDRESS, Eth.RX_FRAMES, Eth.RX_BYTES])
  refine ⟨hrx.rd (by simp [Eth.VLAN_ID, Eth.RX_FRAMES, Eth.RX_BYTES]), hmac,
    ownAddress_congr hmac (hrx.rd (by simp [Eth.IPV4_ADDRESS, Eth.RX_FRAMES, Eth.RX_BYTES])) (hrx.2.1 (.blob _) (by simp)),
    fun v6 => groups_of_above (fun id hid => ⟨hrx.rd ?_, hrx.2.1 (.blob id) (by simp)⟩) p v6⟩
  simp only [List.mem_cons, List.not_mem_nil, or_false, not_or, Eth.RX_FRAMES, Eth.RX_BYTES]
  omega

/-- What a port answers a request with (R310): a request of a kind in its VLAN and, but for membership queries, for one of its addresses. -/
def State.portAnswer (s : State) (p vlan kind : Nat) (a d : List Byte) : Option Output :=
  let mark : Marking := { vlan := s.rd (Eth.VLAN_ID p) }
  if vlan ≠ s.rd (Eth.VLAN_ID p) then none
  else if kind = 4 then some (.packet p "IGMPv3 report" mark (s.groups p false).flatten)
  else if kind = 5 then some (.packet p "MLDv2 report" mark (s.groups p true).flatten)
  else if a.length ≠ (if kind = 0 ∨ kind = 2 then 4 else 16) ∨ !s.ownAddress p a then none
  else if kind = 0 then some (.packet p "ARP reply" mark (beBytes 6 (s.rd (Eth.MAC_ADDRESS p)) ++ a))
  else if kind = 1 then some (.packet p "neighbour advertisement" mark (a ++ beBytes 6 (s.rd (Eth.MAC_ADDRESS p))))
  else if kind = 2 then some (.packet p "ICMP echo reply" mark (a ++ d))
  else some (.packet p "ICMPv6 echo reply" mark (a ++ d))

theorem portAnswer_elsewhere {s : State} {p vlan kind : Nat} {a : List Byte} (d : List Byte)
    (h : vlan ≠ s.rd (Eth.VLAN_ID p) ∨ kind < 4 ∧ s.ownAddress p a = false) : s.portAnswer p vlan kind a d = none := by
  unfold State.portAnswer
  rcases h with hvlan | ⟨hkind, hown⟩
  · rw [if_pos hvlan]
  · dsimp only
    split
    · rfl
    · rw [if_neg (by omega), if_neg (by omega), if_pos (.inr (by simp [hown]))]

/-- A frame received and what answers it, if anything. -/
def State.answer (s : State) (p : Nat) (o : Option Output) : State := o.elim (s.rxFrame p) (s.rxFrame p).emit

theorem answer_spec (s : State) (p : Nat) (o : Option Output) :
    (s.answer p o).out = o.toList ++ s.out ∧ OnlyChanges [.out, .free] (Eth.RX_FRAMES p :: Eth.RX_BYTES p :: txIds) s (s.answer p o) := by
  have hrx := rxFrame_only s p
  cases o with
  | none => exact ⟨hrx.out (by simp), hrx.mono (by simp) (by simp)⟩
  | some o => exact ⟨(emit_out ..).trans (congrArg (o :: ·) (hrx.out (by simp))), (hrx.trans (emit_only _ o)).mono (by simp) (by simp)⟩

theorem exec_arpNdpIcmpRx {p : Fin 2} {s : State} (hup : s.ethUp p = true) (vlan : Nat) (kind : Fin 6) (a d : List Byte) :
    exec (.arpNdpIcmpRx p vlan kind a d) s = .next (s.answer p (s.portAnswer p vlan kind a d)) := by
  obtain ⟨hvlan, hmac, hown, hgroups⟩ := rxFrame_answers s p.isLt
  simp only [exec, execArpNdpIcmpRx, State.portAnswer, State.reportGroups, hup, hvlan, hmac, hown, hgroups, if_true, Bool.false_eq_true, if_false]
  split_ifs <;> rfl

theorem arpNdpIcmpRx_answers {p : Fin 2} {s : State} (hup : s.ethUp p = true) {vlan : Nat} {kind : Fin 6} {a d : List Byte} {o : Output}
    (ho : s.portAnswer p vlan kind a d = some o) : ∃ t, exec (.arpNdpIcmpRx p vlan kind a d) s = .next t ∧ t.out = o :: s.out := by
  refine ⟨_, exec_arpNdpIcmpRx hup vlan kind a d, ?_⟩
  rw [ho, (answer_spec ..).1]
  rfl

theorem arpNdpIcmpRx_frame {p : Fin 2} {s : State} (hup : s.ethUp p = true) (vlan : Nat) (kind : Fin 6) (a d : List Byte) :
    ∃ t, exec (.arpNdpIcmpRx p vlan kind a d) s = .next t ∧
      ((vlan ≠ s.rd (Eth.VLAN_ID p) ∨ kind.val < 4 ∧ s.ownAddress p a = false) → t.out = s.out) ∧
      OnlyChanges [.out, .free] (Eth.RX_FRAMES p :: Eth.RX_BYTES p :: txIds) s t := by
  obtain ⟨hout, hframe⟩ := answer_spec s p (s.portAnswer p vlan kind a d)
  refine ⟨_, exec_arpNdpIcmpRx hup vlan kind a d, fun hother => ?_, hframe⟩
  rw [hout, portAnswer_elsewhere d hother]
  rfl

/-- Settles O32: links by `ethTo_spec`, pauses by `roceFlush_released`, requests for addresses by `portAnswer`. -/
theorem ethernetLinksTrainAndPause : Obligations.EthernetLinksTrainAndPause := by
  refine ⟨fun p n s hruns => ⟨fun htraining => ⟨ethLockAchieved_up hruns htraining, ethTrainingTimeout_fails hruns htraining⟩,
      ethLinkLoss_retrains hruns n⟩,
    fun p s => ⟨fun hup prio quanta => pfcPauseRx_holds hup, fun e => pfcStorm_ends, fun above => pfcRxBufferThreshold_sends⟩,
    fun p a d s hup => ⟨fun hlen hown => ⟨?_, ?_⟩, fun hlen hown => ⟨?_, ?_⟩, ?_, ?_, fun vlan kind => arpNdpIcmpRx_frame hup vlan kind a d⟩⟩
  all_goals refine arpNdpIcmpRx_answers hup ?_
  all_goals simp [State.portAnswer, *]

end Sys2Proof.Machine

/-! Queue pairs (R313 to R315): congestion notices, connect requests of the buffer service, transmissions that are not acknowledged, and O33. -/

namespace Sys2Proof.Machine

/-! ## The table of queue pairs -/

@[simp] theorem tfind_setQp_same (s : State) (k : Nat) (q : Qp) : tfind (s.setQp k q).qps k = some q := tfind_tins_same _ k q

theorem OnlyChanges.qps {ps : List Part} {ids : List Nat} {s t : State} (h : OnlyChanges ps ids s t) (hp : .qps ∉ ps) : t.qps = s.qps :=
  (h.2.1 .qps hp).1

theorem countQps_only (s : State) : OnlyChanges [] [Eth.QP_COUNT 0, Eth.QP_COUNT 1] s s.countQps := wrAll_only s _

theorem setQpTable_only (s : State) (x : Table Qp) (n : Nat) : OnlyChanges [.qps] [] s { s with qps := x, qpSerial := n } := by
  refine ⟨rfl, fun p hp => ?_, fun _ _ => rfl⟩
  cases p with
  | qps => simp at hp
  | mem => exact fun _ => rfl
  | buffers => exact ⟨rfl, rfl⟩
  | nmp => exact ⟨rfl, rfl, rfl, rfl, rfl⟩
  | _ => rfl

theorem addQp_spec (s : State) (p mtu : Nat) (use : QpUse) :
    tfind (s.addQp p mtu use).qps s.qpSerial = some { port := p, use := use, mtu := mtu } ∧
      OnlyChanges [.qps] [Eth.QP_COUNT 0, Eth.QP_COUNT 1] s (s.addQp p mtu use) := by
  let q : Qp := { port := p, use := use, mtu := mtu }
  have hset := setQpTable_only s (tins s.qps s.qpSerial q) (s.qpSerial + 1)
  have hcount := countQps_only { s with qps := tins s.qps s.qpSerial q, qpSerial := s.qpSerial + 1 }
  refine ⟨?_, hset.trans hcount⟩
  rw [State.addQp, hcount.qps (by simp)]
  exact tfind_tins_same ..

/-! ## Congestion (R313) -/

theorem rxIds_not_marked : ∀ p < 2, ∀ id ∈ [Eth.RX_FRAMES p, Eth.RX_BYTES p, Eth.CNP_TX p], id % 0x10000 ∉ [0x000A, 0x000C, 0x000F] := by decide

/-- A frame received for a queue pair of a port, and what it counts there. -/
theorem rxCounted_spec (s : State) {p id : Nat} (hp : p < 2) (hid : id ∈ [Eth.CNP_RX p, Eth.CNP_TX p]) :
    ((s.rxFrame p).count id).rd id = countUp (s.rd id) 1 ∧ OnlyChanges [.free] [Eth.RX_FRAMES p, Eth.RX_BYTES p, id] s ((s.rxFrame p).count id) := by
  have hnot : ∀ p < 2, ∀ id ∈ [Eth.CNP_RX p, Eth.CNP_TX p], id ∉ [Eth.RX_FRAMES p, Eth.RX_BYTES p] := by decide
  have hcounter : ∀ p < 2, ∀ id ∈ [Eth.CNP_RX p, Eth.CNP_TX p], id ∈ ethCounters p := by decide
  refine ⟨?_, (rxFrame_only s p).trans (count_only ..)⟩
  rw [rd_count_ethCounter hp (hcounter p hp id hid), (rxFrame_only s p).rd (hnot p hp id hid)]

/-- A pause keeps RoCEv2 output back. -/
theorem roceOut_held {s : State} {p : Nat} (hpaused : s.paused p = true) (o : Output) :
    s.roceOut p 0 o = s.setEth p { s.eth p with held := (s.eth p).held ++ [(0, o)] } := by
  have hflush : s.roceFlush p = s := if_pos (.inl hpaused)
  rw [State.roceOut, hflush, if_pos hpaused]

section

variable {k : Nat} {q : Qp} {s : State} (hq : tfind s.qps k = some q)

include hq

theorem cnpRx_halves (hp : q.port < 2) :
    ∃ t, exec (.cnpRx k) s = .next t ∧ tfind t.qps k = some { q with rate := q.rate / 2, rateAt := s.clock } ∧
      t.rd (Eth.CNP_RX q.port) = countUp (s.rd (Eth.CNP_RX q.port)) 1 ∧
      OnlyChanges [.qps, .free] [Eth.RX_FRAMES q.port, Eth.RX_BYTES q.port, Eth.CNP_RX q.port] s t := by
  obtain ⟨hcounted, hframe⟩ := rxCounted_spec s hp (id := Eth.CNP_RX q.port) (by simp)
  refine ⟨((s.rxFrame q.port).count (Eth.CNP_RX q.port)).setQp k { q with rate := q.rate / 2, rateAt := s.clock }, ?_, tfind_setQp_same .., hcounted,
    (hframe.trans (setQp_only ..)).mono (by simp) (by simp)⟩
  simp only [exec, execCnpRx, hq]

theorem cnpRateRecovery_steps (hrate : q.rate < fullRate) :
    ∃ t, exec (.cnpRateRecovery k) s = .next t ∧ t.clock = max s.clock (q.rateAt + 50000) ∧
      tfind t.qps k = some { q with rate := min fullRate (q.rate + fullRate / 20), rateAt := t.clock } ∧ OnlyChanges [.clock, .qps] [] s t := by
  let due := q.rateAt + 50000
  refine ⟨(s.at due).setQp k { q with rate := min fullRate (q.rate + fullRate / 20), rateAt := (s.at due).clock }, ?_, rfl, tfind_setQp_same ..,
    (at_only s due).trans (setQp_only ..)⟩
  simp only [exec, execCnpRateRecovery, hq, if_pos hrate]
  rfl

theorem exec_ecnMarkedRx : exec (.ecnMarkedRx k) s = .next (((s.rxFrame q.port).count (Eth.CNP_TX q.port)).roceOut q.port 0
    (.packet q.port "CNP" (s.control q.port 1) (leBytes 4 k))) := by
  simp only [exec, execEcnMarkedRx, hq]

theorem ecnMarkedRx_answers (hp : q.port < 2) (hpaused : s.paused q.port = false) (hheld : (s.eth q.port).held = []) :
    ∃ t, exec (.ecnMarkedRx k) s = .next t ∧ t.out = .packet q.port "CNP" (s.control q.port 1) (leBytes 4 k) :: s.out ∧
      t.rd (Eth.CNP_TX q.port) = countUp (s.rd (Eth.CNP_TX q.port)) 1 ∧
      OnlyChanges [.out, .free] (Eth.RX_FRAMES q.port :: Eth.RX_BYTES q.port :: Eth.CNP_TX q.port :: txIds) s t := by
  obtain ⟨hcounted, hframe⟩ := rxCounted_spec s hp (id := Eth.CNP_TX q.port) (by simp)
  refine ⟨_, exec_ecnMarkedRx hq, ?_⟩
  rw [roceOut_free ((hframe.paused (by simp) (by simp)).trans hpaused) ((hframe.eth (by simp)).symm ▸ hheld), emit_out, hframe.out (by simp),
    (emit_only ..).rd ((by decide : ∀ p < 2, Eth.CNP_TX p ∉ txIds) _ hp)]
  exact ⟨rfl, hcounted, (hframe.trans (emit_only ..)).mono (by simp) (by simp)⟩

theorem ecnMarkedRx_waits (hp : q.port < 2) (hpaused : s.paused q.port = true) :
    ∃ t, exec (.ecnMarkedRx k) s = .next t ∧
      (t.eth q.port).held = (s.eth q.port).held ++ [(0, .packet q.port "CNP" (s.control q.port 1) (leBytes 4 k))] ∧
      t.rd (Eth.CNP_TX q.port) = countUp (s.rd (Eth.CNP_TX q.port)) 1 ∧
      OnlyChanges [.eth q.port, .free] [Eth.RX_FRAMES q.port, Eth.RX_BYTES q.port, Eth.CNP_TX q.port] s t := by
  obtain ⟨hcounted, hframe⟩ := rxCounted_spec s hp (id := Eth.CNP_TX q.port) (by simp)
  refine ⟨_, exec_ecnMarkedRx hq, ?_⟩
  rw [roceOut_held ((hframe.paused (by simp) (by simp)).trans hpaused), eth_setEth_same, hframe.eth (by simp)]
  exact ⟨rfl, hcounted, (hframe.trans (setEth_only ..)).mono (by simp) (by simp)⟩

end

/-! ## The buffer service (R315) -/

theorem bufferServiceConnect_decides {p : Fin 2} (qpn : BitVec 24) (mtu : Nat) (data : List Byte) {s : State} (hup : s.ethUp p = true)
    (hpaused : s.paused p = false) (hheld : (s.eth p).held = []) :
    ∃ t, exec (.bufferServiceConnect p (s.rd (Eth.VLAN_ID p)) qpn mtu data) s = .next t ∧
      (s.bufferConnectBad qpn.toNat mtu data = 0 →
        tfind t.qps s.qpSerial = some { port := p.val, use := .buffer (leAt data 0 4), mtu := mtu } ∧
        t.out = .connect p.val (s.control p 1) true 0 :: s.out) ∧
      (s.bufferConnectBad qpn.toNat mtu data ≠ 0 →
        t.qps = s.qps ∧ t.out = .connect p.val (s.control p 1) false (s.bufferConnectBad qpn.toNat mtu data) :: s.out) ∧
      OnlyChanges [.qps, .out, .free] (Eth.RX_FRAMES p :: Eth.RX_BYTES p :: Eth.QP_COUNT 0 :: Eth.QP_COUNT 1 :: txIds) s t := by
  let u := s.rxFrame p
  let a := u.addQp p mtu (.buffer (leAt data 0 4))
  have hu : OnlyChanges [.free] [Eth.RX_FRAMES p, Eth.RX_BYTES p] s u := rxFrame_only s p
  obtain ⟨hadded, ha⟩ := addQp_spec u p mtu (.buffer (leAt data 0 4))
  have hserial : u.qpSerial = s.qpSerial := (hu.2.1 .qps (by simp)).2
  have hmark : u.control p 1 = s.control p 1 :=
    hu.control (fun id hid => rxIds_not_marked p p.isLt id (by simp at hid ⊢; tauto)) p 1
  have hbad : u.bufferConnectBad qpn.toNat mtu data = s.bufferConnectBad qpn.toNat mtu data := by
    rw [State.bufferConnectBad, State.bufferConnectBad, rxFrame_session, hu.qps (by simp)]
  have hua := hu.trans ha
  have hfreeA : a.paused p = false ∧ (a.eth p).held = [] :=
    ⟨(hua.paused (by simp) (by simp)).trans hpaused, (hua.eth (p := p) (by simp)).symm ▸ hheld⟩
  have hfreeU : u.paused p = false ∧ (u.eth p).held = [] := ⟨(hu.paused (by simp) (by simp)).trans hpaused, (hu.eth (p := p) (by simp)).symm ▸ hheld⟩
  have hexec : exec (.bufferServiceConnect p (s.rd (Eth.VLAN_ID p)) qpn mtu data) s = .next (
      if s.bufferConnectBad qpn.toNat mtu data = 0 then a.emit (.connect p.val (s.control p 1) true 0)
      else u.emit (.connect p.val (s.control p 1) false (s.bufferConnectBad qpn.toNat mtu data))) := by
    have hvlan : (s.control p 1).vlan = s.rd (Eth.VLAN_ID p) := rfl
    rw [← roceOut_free hfreeA.1 hfreeA.2, ← roceOut_free hfreeU.1 hfreeU.2, ← hbad, ← hmark]
    refine congrArg Host.Outcome.next ((if_pos hup).trans (if_neg ?_))
    exact fun h => h (hmark ▸ hvlan.symm)
  rw [hexec]
  by_cases h : s.bufferConnectBad qpn.toNat mtu data = 0
  · refine ⟨_, rfl, fun _ => ?_, fun hne => absurd h hne, ?_⟩ <;> rw [if_pos h]
    · rw [(emit_only ..).qps (by simp), emit_out, hua.out (by simp), ← hserial]
      exact ⟨hadded, rfl⟩
    · exact (hua.trans (emit_only ..)).mono (by simp) (by simp)
  · refine ⟨_, rfl, fun heq => absurd heq h, fun _ => ?_, ?_⟩ <;> rw [if_neg h]
    · rw [(emit_only ..).qps (by simp), emit_out, hu.out (by simp), hu.qps (by simp)]
      exact ⟨rfl, rfl⟩
    · exact (hu.trans (emit_only ..)).mono (by simp) (by simp +contextual [or_imp])

/-! ## Transmissions that are not acknowledged (R314) -/

/-- The clock does not go back. -/
theorem at_max (s : State) (due : Nat) : s.at (max s.clock due) = s.at due := by
  rw [State.at, State.at, ← max_assoc, max_self]

section

variable {k sess : Nat} {progress : Bool} {q : Qp} {s : State} (hq : tfind s.qps k = some q)

include hq

theorem localAckTimeout_again (hmore : (if progress then 0 else q.retries) < s.rd (Eth.ROCE_RETRY q.port))
    (hpaused : (s.at (q.sentAt + 4096 * 2 ^ s.rd (Eth.ROCE_ACK_TIMEOUT q.port))).paused q.port = false) (hheld : (s.eth q.port).held = []) :
    ∃ t, exec (.localAckTimeout k progress) s = .next t ∧ t.clock = max s.clock (q.sentAt + 4096 * 2 ^ s.rd (Eth.ROCE_ACK_TIMEOUT q.port)) ∧
      tfind t.qps k = some { q with retries := (if progress then 0 else q.retries) + 1, sentAt := t.clock } ∧
      t.out = .packet q.port "RETRANSMIT" (s.control q.port 1) (leBytes 4 k) :: s.out ∧ OnlyChanges [.clock, .qps, .out, .free] txIds s t := by
  let due := q.sentAt + 4096 * 2 ^ s.rd (Eth.ROCE_ACK_TIMEOUT q.port)
  let u := (s.at due).setQp k { q with retries := (if progress then 0 else q.retries) + 1, sentAt := (s.at due).clock }
  have hu : OnlyChanges [.clock, .qps] [] s u := (at_only s due).trans (setQp_only ..)
  have hexec : exec (.localAckTimeout k progress) s = .next (u.roceOut q.port 0 (.packet q.port "RETRANSMIT" (s.control q.port 1) (leBytes 4 k))) := by
    simp only [exec, execLocalAckTimeout, hq]
    exact congrArg Host.Outcome.next (if_pos hmore)
  rw [roceOut_free (show u.paused q.port = false from hpaused) hheld] at hexec
  refine ⟨_, hexec, (emit_only ..).clock (by simp), ?_, ?_, (hu.trans (emit_only ..)).mono (by simp) (by simp)⟩
  · rw [(emit_only ..).qps (by simp), tfind_setQp_same, (emit_only ..).clock (by simp)]
    rfl
  · rw [emit_out, hu.out (by simp)]

theorem localAckTimeout_lost (huse : q.use = .buffer sess) (hdone : s.rd (Eth.ROCE_RETRY q.port) ≤ if progress then 0 else q.retries) :
    ∃ t, exec (.localAckTimeout k progress) s = .next t ∧ t.clock = max s.clock (q.sentAt + 4096 * 2 ^ s.rd (Eth.ROCE_ACK_TIMEOUT q.port)) ∧
      t.qps = tdel s.qps k ∧ OnlyChanges [.clock, .qps] [Eth.QP_COUNT 0, Eth.QP_COUNT 1] s t := by
  let due := q.sentAt + 4096 * 2 ^ s.rd (Eth.ROCE_ACK_TIMEOUT q.port)
  let u : State := { s.at due with qps := tdel s.qps k }
  have hu : OnlyChanges [.clock, .qps] [] s u := (at_only s due).trans (setQps_only ..)
  have hcount := countQps_only u
  refine ⟨u.countQps, ?_, hcount.clock (by simp), hcount.qps (by simp), hu.trans hcount⟩
  simp only [exec, execLocalAckTimeout, hq, huse]
  exact congrArg Host.Outcome.next (if_neg (Nat.not_lt.2 hdone))

end

/-- Settles O33: congestion by `rxCounted_spec` and the egress of RoCEv2, connect requests by what their checks find, timeouts by the retries left. -/
theorem queuePairsConnectSlowDownAndRetry : Obligations.QueuePairsConnectSlowDownAndRetry := by
  refine ⟨fun s => ⟨fun k q hq hp => ⟨cnpRx_halves hq hp, cnpRateRecovery_steps hq, ecnMarkedRx_answers hq hp, ecnMarkedRx_waits hq hp⟩,
    fun p qpn mtu data => bufferServiceConnect_decides qpn mtu data⟩,
    fun k sess progress q s hq _ huse => ⟨fun hmore hpaused => localAckTimeout_again hq hmore (at_max s _ ▸ hpaused), localAckTimeout_lost hq huse⟩⟩

end Sys2Proof.Machine

/-! Device Time (R38, R39, R321 to R324): the states of the Tick Generator under a source that stops or returns, steps of Device Time, and what
the messages of PTP do. -/

namespace Sys2Proof.Machine

/-! ## The parameters of Device Time (Table 12-11) -/

theorem rd_wr_long {id v : Nat} (h : isCounter id = true) (hv : v < 2 ^ 64) (s : State) : (s.wr id v).rd id = v := by
  obtain ⟨p, hp, hrow⟩ := (Option.any_eq_true _ _).1 h
  simp only [Bool.and_eq_true, Bool.not_eq_true', beq_iff_eq] at hrow
  rw [rd_wr_same hp hrow.1, hrow.2]
  exact Nat.mod_eq_of_lt hv

/-- What Device Time and its references report in 32 bits. -/
def timeWords : List Nat :=
  [Time.TIME_EPOCH, Time.TIME_STATE, Time.PTP_PORT_STATE 0, Time.PTP_PORT_STATE 1, Time.FSYNC_PERIOD 0, Time.FSYNC_PERIOD 1]

/-- What they report or count in 64 bits. -/
def timeLongs : List Nat :=
  [Time.TIME_STEPS, Time.PTP_BAD_TIME, Time.PTP_OFFSET, Time.FSYNC_LAST_EDGE 0, Time.FSYNC_LAST_EDGE 1, Time.FSYNC_GLITCHES 0,
    Time.FSYNC_GLITCHES 1, Time.FSYNC_STOPS 0, Time.FSYNC_STOPS 1]

theorem isWord_timeWords : ∀ id ∈ timeWords, isWord id = true := by decide

theorem isCounter_timeLongs : ∀ id ∈ timeLongs, isCounter id = true := by decide

theorem timeIds_not_sent : ∀ id ∈ timeWords ++ timeLongs, id ∉ Tick.TICK_STATE :: Tick.TICK_STATE_CHANGES :: sendIds := by decide

theorem ptpPortState_mem {p : Nat} (hp : p < 2) : Time.PTP_PORT_STATE p ∈ timeWords := by
  interval_cases p <;> simp [timeWords]

theorem ofSigned_lt_two_pow (w : Nat) (i : Int) : ofSigned w i < 2 ^ w := by
  have hpos : (0 : Int) < (2 ^ w : Nat) := by exact_mod_cast Nat.two_pow_pos w
  have hlt : i % (2 ^ w : Nat) < (2 ^ w : Nat) := Int.emod_lt_of_pos _ hpos
  have hnonneg : 0 ≤ i % (2 ^ w : Nat) := Int.emod_nonneg _ hpos.ne'
  unfold ofSigned
  omega

theorem setTimeBase_only (s : State) (x : TimeBase) : OnlyChanges [.time] [] s { s with time := x } :=
  ((setPowTimeTherm_only s s.pow x s.therm).mono (qs := [.pow, .therm, .time]) (by simp) (by simp)).drop rfl |>.drop rfl

theorem setPtp_only (s : State) (x : PtpSt) : OnlyChanges [.ptp] [] s { s with ptp := x } := by
  refine ⟨rfl, fun p hp => ?_, fun _ _ => rfl⟩
  cases p with
  | ptp => simp at hp
  | mem => exact fun _ => rfl
  | buffers | qps => exact ⟨rfl, rfl⟩
  | nmp => exact ⟨rfl, rfl, rfl, rfl, rfl⟩
  | _ => rfl

theorem OnlyChanges.ptp {ps : List Part} {ids : List Nat} {s t : State} (h : OnlyChanges ps ids s t) (hp : .ptp ∉ ps) : t.ptp = s.ptp :=
  h.2.1 .ptp hp

theorem OnlyChanges.tick {ps : List Part} {ids : List Nat} {s t : State} (h : OnlyChanges ps ids s t) (hp : .tick ∉ ps) : t.tick = s.tick :=
  h.2.1 .tick hp

/-! ## The states of the Tick Generator (Table 02-2) -/

/-- A change into ACQUIRING begins a new run of ticks and a re-phase (R36, R38). -/
def State.tickBegins (s : State) (st : Nat) : State :=
  if st = TickState.ACQUIRING then { s with tick := { s.tick with lockRun := 0, rephase := max 1 s.tick.rephase } } else s

/-- A change into HOLDOVER keeps when it came (R39). -/
def State.tickHolds (s : State) (st : Nat) : State :=
  if st = TickState.HOLDOVER then { s with tick := { s.tick with holdAt := s.clock } } else s

theorem tickTo_eq (s : State) (st : Nat) :
    s.tickTo st = if (s.tickBegins st).rd Tick.TICK_STATE = st then s.tickBegins st
      else
        let w := (((s.tickBegins st).wr Tick.TICK_STATE st).count Tick.TICK_STATE_CHANGES).tickHolds st
        (w.tickNotify 1 0 w.tickSeq st).fire 3 := by
  unfold State.tickTo State.tickBegins State.tickHolds
  rfl

theorem tickBegins_only (s : State) (st : Nat) : OnlyChanges [.tick] [] s (s.tickBegins st) := by
  unfold State.tickBegins
  split
  · exact setTick_only s _
  · exact .nothing s

theorem tickHolds_only (s : State) (st : Nat) : OnlyChanges [.tick] [] s (s.tickHolds st) := by
  unfold State.tickHolds
  split
  · exact setTick_only s _
  · exact .nothing s

theorem tickTo_spec (s : State) {st : Nat} (hst : st < 2 ^ 32) :
    (s.tickTo st).rd Tick.TICK_STATE = st ∧
      OnlyChanges (.tick :: .firings :: sending) (Tick.TICK_STATE :: Tick.TICK_STATE_CHANGES :: sendIds) s (s.tickTo st) := by
  have hbegun := tickBegins_only s st
  rw [tickTo_eq]
  split
  next hsame => exact ⟨hsame, hbegun.mono (by simp) (by simp)⟩
  next =>
    let v := ((s.tickBegins st).wr Tick.TICK_STATE st).count Tick.TICK_STATE_CHANGES
    have hv : OnlyChanges [] [Tick.TICK_STATE, Tick.TICK_STATE_CHANGES] (s.tickBegins st) v := (wr_only ..).trans (count_only ..)
    have hrd : v.rd Tick.TICK_STATE = st := by
      rw [(count_only ..).rd (by decide), rd_wr_same paramOf_tickState (by decide)]
      exact Nat.mod_eq_of_lt hst
    have hheld := tickHolds_only v st
    have hend : OnlyChanges (.firings :: sending) sendIds (v.tickHolds st) (((v.tickHolds st).tickNotify 1 0 (v.tickHolds st).tickSeq st).fire 3) :=
      ((notify_only ..).trans (fire_only _ 3)).mono (by simp +contextual [or_comm]) (by simp)
    refine ⟨?_, (((hbegun.trans hv).trans hheld).trans hend).mono (by simp) (by simp)⟩
    exact (hend.rd (by decide)).trans ((hheld.rd (by simp)).trans hrd)

theorem sourceStopped_holds {s : State} {src : Nat} (hsrc : s.tick.src = src) (hlocked : s.rd Tick.TICK_STATE = TickState.LOCKED) :
    (s.sourceStopped src).rd Tick.TICK_STATE = TickState.HOLDOVER := by
  rw [State.sourceStopped, if_pos ⟨hsrc, hlocked⟩]
  exact (tickTo_spec s (by decide)).1

theorem sourceStopped_only (s : State) (src : Nat) :
    OnlyChanges (.tick :: .firings :: sending) (Tick.TICK_STATE :: Tick.TICK_STATE_CHANGES :: sendIds) s (s.sourceStopped src) := by
  unfold State.sourceStopped
  split
  · exact (tickTo_spec s (by decide)).2
  · exact .nothing s

theorem sourceStopped_other {s : State} {src : Nat} (hsrc : s.tick.src ≠ src) : s.sourceStopped src = s := if_neg fun h => hsrc h.1

theorem sourceReturned_acquires {s : State} {src : Nat} (hsrc : s.tick.src = src) (hhold : s.rd Tick.TICK_STATE = TickState.HOLDOVER) :
    (s.sourceReturned src).rd Tick.TICK_STATE = TickState.ACQUIRING := by
  rw [State.sourceReturned, if_pos ⟨hsrc, hhold⟩]
  exact (tickTo_spec s (by decide)).1

theorem sourceReturned_only (s : State) (src : Nat) :
    OnlyChanges (.tick :: .firings :: sending) (Tick.TICK_STATE :: Tick.TICK_STATE_CHANGES :: sendIds) s (s.sourceReturned src) := by
  unfold State.sourceReturned
  split
  · exact (tickTo_spec s (by decide)).2
  · exact .nothing s

theorem sourceReturned_other {s : State} {src : Nat} (hsrc : s.tick.src ≠ src) : s.sourceReturned src = s := if_neg fun h => hsrc h.1

/-! ## Steps of Device Time (R321, R323) -/

/-- Device Time from a base on the grid, at its own clock. -/
theorem deviceTimeAt_base (b : TimeBase) (hbase : b.base < 2 ^ 64) : deviceTimeAt b b.ref = b.base - b.base % 2 := by
  have hrun : ((b.ref : Int) - b.ref) * (1000000000 + b.trim) / 1000000000 = 0 := by simp
  have hmod : ((b.base : Int) % (2 ^ 64 : Nat)).toNat = b.base := by omega
  simp only [deviceTimeAt, hrun, add_zero, hmod]

theorem deviceTime_lt (s : State) : s.deviceTime < 2 ^ 64 := by
  simp only [State.deviceTime, deviceTimeAt]
  omega

theorem timeStep_spec (s : State) (amount : Int) :
    let past := ofSigned 64 ((s.deviceTime : Int) + amount)
    (s.timeStep amount).deviceTime = past - past % 2 ∧ (s.timeStep amount).rd Time.TIME_EPOCH = (s.epoch + 1) % 65536 ∧
      (s.timeStep amount).rd Time.TIME_STEPS = countUp (s.rd Time.TIME_STEPS) 1 ∧
      (s.timeStep amount).firings = s.firings ++ [(4, s.clock)] ∧
      OnlyChanges (.time :: .tick :: .blob Time.TIME_STEP_LOG :: .firings :: sending) (Time.TIME_EPOCH :: Time.TIME_STEPS :: sendIds) s
        (s.timeStep amount) := by
  intro past
  generalize ht : s.timeStep amount = t
  unfold State.timeStep at ht
  extract_lets a epoch b c x d at ht
  have ha : OnlyChanges [.time] [] s a := setTimeBase_only s _
  have hepoch : epoch = (s.epoch + 1) % 65536 := rfl
  have hb : OnlyChanges [] [Time.TIME_EPOCH, Time.TIME_STEPS] a b := (wr_only ..).trans (count_only ..)
  have hc : OnlyChanges [.blob Time.TIME_STEP_LOG] [] b c := wrBlob_only ..
  have hd : OnlyChanges [.tick] [] c d := by
    unfold d
    split
    · exact setTick_only c _
    · exact .nothing c
  have hquiet : OnlyChanges [.blob Time.TIME_STEP_LOG, .tick] [] b d := hc.trans hd
  let e := (d.trace 0 0 d.syncPayload).tickNotify 5 amount d.tickSeq epoch
  have he : OnlyChanges sending sendIds d e := ((trace_only ..).trans (notify_only ..)).mono (by simp [sending]) (by
    simp only [List.mem_append]
    exact fun i hi => hi.elim (fun h => (by decide : ∀ i ∈ traceIds, i ∈ sendIds) i h) id)
  have hte : OnlyChanges [.firings] [] e t := ht ▸ fire_only e 4
  have hbt := (hquiet.trans he).trans hte
  have hat := hb.trans hbt
  refine ⟨?_, ?_, ?_, ?_, (ha.trans hat).mono (by simp +contextual [or_imp]) (by simp +contextual)⟩
  · have hpast : past < 2 ^ 64 := ofSigned_lt_two_pow ..
    rw [hat.deviceTime (by simp [sending]) (by simp [sending])]
    exact (deviceTimeAt_base _ (show past - past % 2 < 2 ^ 64 by omega)).trans (by simp only [a, State.setTime]; omega)
  · rw [hbt.rd (by decide), (count_only ..).rd (by decide), rd_wr_word (isWord_timeWords _ (by simp [timeWords])) (by omega), hepoch]
  · rw [hbt.rd (by decide), rd_count_counter (isCounter_timeLongs _ (by simp [timeLongs])), (wr_only ..).rd (by decide)]
    rfl
  · have hse := ((ha.trans hb).trans hquiet).trans he
    rw [← ht, fire_firings, hse.firings (by simp [sending]), hse.clock (by simp [sending])]

theorem servoTrim_only (s : State) (offset : Int) : OnlyChanges [.free, .time] [] s (s.servoTrim offset) :=
  (draw_only s).trans (setTimeBase_only ..)

/-! ## Messages (R322 to R324) -/

theorem rxFrame_reads (s : State) {p id : Nat} (hp : p < 2) (hid : 0x41000000 ≤ id) : (s.rxFrame p).rd id = s.rd id :=
  (rxFrame_only s p).rd (by simp only [List.mem_cons, List.not_mem_nil, or_false, not_or, Eth.RX_FRAMES, Eth.RX_BYTES]; omega)

section

variable {p : Fin 2} {b : List Byte} {s : State} (hup : s.ethUp p = true)

include hup

theorem ptpMessageRx_ignored {vlan : Nat}
    (hother : s.rd Time.PTP_ROLE = 0 ∨ vlan ≠ s.rd (Eth.VLAN_ID p) ∨ (ptpHeader b).domain ≠ s.rd Time.PTP_DOMAIN) :
    ∃ t, exec (.ptpMessageRx p vlan b) s = .next t ∧ OnlyChanges [.free] [Eth.RX_FRAMES p, Eth.RX_BYTES p] s t := by
  obtain ⟨hvlan, -⟩ := rxFrame_answers s p.isLt
  refine ⟨s.rxFrame p, ?_, rxFrame_only s p⟩
  simp only [exec, execPtpMessageRx, hup, if_true, hvlan, rxFrame_reads s p.isLt (show 0x41000000 ≤ Time.PTP_ROLE by decide),
    rxFrame_reads s p.isLt (show 0x41000000 ≤ Time.PTP_DOMAIN by decide), if_pos hother]

variable (hrole : s.rd Time.PTP_ROLE ≠ 0) (hdomain : (ptpHeader b).domain = s.rd Time.PTP_DOMAIN)

include hrole hdomain

theorem exec_ptpMessageRx_delayReq (htype : (ptpHeader b).type = 1) :
    exec (.ptpMessageRx p (s.rd (Eth.VLAN_ID p)) b) s = .next ((s.rxFrame p).ptpAnswer p (ptpHeader b) b) := by
  obtain ⟨hvlan, -⟩ := rxFrame_answers s p.isLt
  simp only [exec, execPtpMessageRx, hup, if_true, hvlan, rxFrame_reads s p.isLt (show 0x41000000 ≤ Time.PTP_ROLE by decide),
    rxFrame_reads s p.isLt (show 0x41000000 ≤ Time.PTP_DOMAIN by decide), hrole, hdomain, ne_eq, not_true, or_self, if_false, htype]

theorem exec_ptpMessageRx_sync (htype : (ptpHeader b).type = 0) (hstep : (ptpHeader b).twoStep = false)
    (hmaster : s.ptp.master = some (p.val, (ptpHeader b).source)) :
    exec (.ptpMessageRx p (s.rd (Eth.VLAN_ID p)) b) s =
      .next ((s.rxFrame p).ptpSync p (ptpStamp b) (ptpHeader b).correction s.deviceTime) := by
  obtain ⟨hvlan, -⟩ := rxFrame_answers s p.isLt
  have hptp : (s.rxFrame p).ptp = s.ptp := (rxFrame_only s p).ptp (by simp)
  have htime : (s.rxFrame p).deviceTime = s.deviceTime := (rxFrame_only s p).deviceTime (by simp) (by simp)
  simp only [exec, execPtpMessageRx, hup, if_true, hvlan, rxFrame_reads s p.isLt (show 0x41000000 ≤ Time.PTP_ROLE by decide),
    rxFrame_reads s p.isLt (show 0x41000000 ≤ Time.PTP_DOMAIN by decide), hrole, hdomain, ne_eq, not_true, or_self, if_false, htype, hptp, hmaster,
    beq_self_eq_true, hstep, Bool.false_eq_true, htime]

theorem ptpMessageRx_answersDelayReq (htype : (ptpHeader b).type = 1) (hstate : s.rd (Time.PTP_PORT_STATE p) = 6) :
    ∃ t pl, exec (.ptpMessageRx p (s.rd (Eth.VLAN_ID p)) b) s = .next t ∧ t.out = .packet p "PTP Delay_Resp" (s.control p 2) pl :: s.out ∧
      OnlyChanges [.out, .free] (Eth.RX_FRAMES p :: Eth.RX_BYTES p :: txIds) s t := by
  have hrx := rxFrame_only s p
  have hst : (s.rxFrame p).rd (Time.PTP_PORT_STATE p) = 6 :=
    (rxFrame_reads s p.isLt (by simp only [Time.PTP_PORT_STATE]; omega)).trans hstate
  have hmark : (s.rxFrame p).control p 2 = s.control p 2 :=
    hrx.control (fun id hid => rxIds_not_marked p p.isLt id (by simp at hid ⊢; tauto)) p 2
  have hexec := exec_ptpMessageRx_delayReq hup hrole hdomain htype
  rw [State.ptpAnswer, if_pos hst] at hexec
  rw [hmark] at hexec
  exact ⟨_, _, hexec, (emit_out ..).trans (congrArg _ (hrx.out (by simp))), (hrx.trans (emit_only ..)).mono (by simp) (by simp)⟩

section

variable (htype : (ptpHeader b).type = 0) (hstep : (ptpHeader b).twoStep = false) (hmaster : s.ptp.master = some (p.val, (ptpHeader b).source))

include htype hstep hmaster

theorem ptpMessageRx_badTime (hstamp : 2 ^ 64 ≤ ptpStamp b) :
    ∃ t, exec (.ptpMessageRx p (s.rd (Eth.VLAN_ID p)) b) s = .next t ∧ t.rd Time.PTP_BAD_TIME = countUp (s.rd Time.PTP_BAD_TIME) 1 ∧
      OnlyChanges [.free] [Eth.RX_FRAMES p, Eth.RX_BYTES p, Time.PTP_BAD_TIME] s t := by
  refine ⟨_, exec_ptpMessageRx_sync hup hrole hdomain htype hstep hmaster, ?_⟩
  rw [State.ptpSync, if_pos hstamp, rd_count_counter (isCounter_timeLongs _ (by simp [timeLongs])), rxFrame_reads s p.isLt (by decide)]
  exact ⟨rfl, (rxFrame_only s p).trans (count_only ..)⟩

/-- A Sync with the path delay known comes to PTP_OFFSET and the state UNCALIBRATED or SLAVE of the port, and to the servo under TIME_SOURCE PTP. -/
theorem ptpMessageRx_sync {d : Int} (hstamp : ptpStamp b < 2 ^ 64) (hdelay : s.ptp.delay = some d) :
    let offset : Int := (s.deviceTime : Int) - s.rdS (Time.PTP_ASYMMETRY p) - ((ptpStamp b : Int) + (ptpHeader b).correction) - d
    ∃ u, exec (.ptpMessageRx p (s.rd (Eth.VLAN_ID p)) b) s = .next (if s.rd Time.TIME_SOURCE = 1 then u.servo offset else u) ∧
      u.rd Time.PTP_OFFSET = ofSigned 64 offset ∧ u.rd (Time.PTP_PORT_STATE p) = 9 ∧
      OnlyChanges [.ptp, .free] [Eth.RX_FRAMES p, Eth.RX_BYTES p, Time.PTP_OFFSET, Time.PTP_PORT_STATE p] s u := by
  intro offset
  have hrx := rxFrame_only s p
  have hptp : (s.rxFrame p).ptp = s.ptp := hrx.ptp (by simp)
  have hasym : (s.rxFrame p).rdS (Time.PTP_ASYMMETRY p) = s.rdS (Time.PTP_ASYMMETRY p) := by
    rw [State.rdS, State.rdS, rxFrame_reads s p.isLt (by simp only [Time.PTP_ASYMMETRY]; omega)]
  let x : PtpSt := { s.ptp with t1 := (ptpStamp b : Int) + (ptpHeader b).correction, t2 := (s.deviceTime : Int) - s.rdS (Time.PTP_ASYMMETRY p),
                                haveSync := true, sync := none }
  let v : State := { s.rxFrame p with ptp := x }
  let w := v.wr Time.PTP_OFFSET (ofSigned 64 offset)
  let u := w.wr (Time.PTP_PORT_STATE p) 9
  have hu : OnlyChanges [.ptp, .free] [Eth.RX_FRAMES p, Eth.RX_BYTES p, Time.PTP_OFFSET, Time.PTP_PORT_STATE p] s u :=
    (((hrx.trans (setPtp_only _ x)).trans (wr_only v Time.PTP_OFFSET _)).trans (wr_only w _ 9)).mono (by simp) (by simp)
  have hsource : u.rd Time.TIME_SOURCE = s.rd Time.TIME_SOURCE :=
    hu.rd ((by decide : ∀ p : Fin 2, Time.TIME_SOURCE ∉ [Eth.RX_FRAMES p, Eth.RX_BYTES p, Time.PTP_OFFSET, Time.PTP_PORT_STATE p]) p)
  refine ⟨u, ?_, ?_, rd_wr_word (isWord_timeWords _ (ptpPortState_mem p.isLt)) (by decide) w, hu⟩
  · rw [exec_ptpMessageRx_sync hup hrole hdomain htype hstep hmaster, State.ptpSync, if_neg (Nat.not_le.2 hstamp), hptp, hasym]
    show Host.Outcome.next (v.ptpOffset p) = _
    rw [State.ptpOffset, show v.ptp.delay = some d from hdelay]
    show Host.Outcome.next (if u.rd Time.TIME_SOURCE = 1 then _ else _) = _
    rw [hsource]
  · rw [rd_wr_other ((by decide : ∀ p : Fin 2, Time.PTP_OFFSET ≠ Time.PTP_PORT_STATE p) p)]
    exact rd_wr_long (isCounter_timeLongs _ (by simp [timeLongs])) (ofSigned_lt_two_pow ..) v

end

end

section

variable {s : State} {offset : Int}

theorem servo_steps (hbeyond : (s.rd Time.TIME_STEP_THRESHOLD : Int) < |offset|) : s.servo offset = s.timeStep (-offset) := if_pos hbeyond

theorem servo_locks (hwithin : |offset| ≤ (s.rd Time.TIME_STEP_THRESHOLD : Int)) :
    (s.servo offset).rd Time.TIME_STATE = 2 ∧ OnlyChanges [.free, .time] [Time.TIME_STATE] s (s.servo offset) := by
  rw [State.servo, if_neg (not_lt.2 hwithin)]
  exact ⟨rd_wr_word (isWord_timeWords _ (by simp [timeWords])) (by decide) _, (servoTrim_only ..).trans (wr_only ..)⟩

end

theorem ptpMessageRx_follows {p : Fin 2} {b : List Byte} {s : State} {d : Int} (hup : s.ethUp p = true) (hrole : s.rd Time.PTP_ROLE ≠ 0)
    (hdomain : (ptpHeader b).domain = s.rd Time.PTP_DOMAIN) (htype : (ptpHeader b).type = 0) (hstep : (ptpHeader b).twoStep = false)
    (hmaster : s.ptp.master = some (p.val, (ptpHeader b).source)) (hstamp : ptpStamp b < 2 ^ 64) (hdelay : s.ptp.delay = some d) :
    let offset : Int := (s.deviceTime : Int) - s.rdS (Time.PTP_ASYMMETRY p) - ((ptpStamp b : Int) + (ptpHeader b).correction) - d
    let past := ofSigned 64 ((s.deviceTime : Int) - offset)
    ∃ t, exec (.ptpMessageRx p (s.rd (Eth.VLAN_ID p)) b) s = .next t ∧ t.rd Time.PTP_OFFSET = ofSigned 64 offset ∧
      t.rd (Time.PTP_PORT_STATE p) = 9 ∧
      (s.rd Time.TIME_SOURCE ≠ 1 → OnlyChanges [.ptp, .free] [Eth.RX_FRAMES p, Eth.RX_BYTES p, Time.PTP_OFFSET, Time.PTP_PORT_STATE p] s t) ∧
      (s.rd Time.TIME_SOURCE = 1 → (s.rd Time.TIME_STEP_THRESHOLD : Int) < |offset| →
        t.deviceTime = past - past % 2 ∧ t.rd Time.TIME_EPOCH = (s.epoch + 1) % 65536 ∧
        t.rd Time.TIME_STEPS = countUp (s.rd Time.TIME_STEPS) 1 ∧ t.firings = s.firings ++ [(4, s.clock)]) ∧
      (s.rd Time.TIME_SOURCE = 1 → |offset| ≤ (s.rd Time.TIME_STEP_THRESHOLD : Int) →
        t.rd Time.TIME_STATE = 2 ∧ t.rd Time.TIME_EPOCH = s.rd Time.TIME_EPOCH ∧
        OnlyChanges [.ptp, .time, .free]
          [Eth.RX_FRAMES p, Eth.RX_BYTES p, Time.PTP_OFFSET, Time.PTP_PORT_STATE p, Time.TIME_STATE] s t) := by
  intro offset past
  obtain ⟨u, hexec, hoffset, hstate, hu⟩ := ptpMessageRx_sync hup hrole hdomain htype hstep hmaster hstamp hdelay
  have hsame : ∀ id ∈ [Time.TIME_STEP_THRESHOLD, Time.TIME_EPOCH, Time.TIME_STEPS], u.rd id = s.rd id := fun id hid =>
    hu.rd ((by decide : ∀ p : Fin 2, ∀ id ∈ [Time.TIME_STEP_THRESHOLD, Time.TIME_EPOCH, Time.TIME_STEPS],
      id ∉ [Eth.RX_FRAMES p, Eth.RX_BYTES p, Time.PTP_OFFSET, Time.PTP_PORT_STATE p]) p id hid)
  by_cases hsource : s.rd Time.TIME_SOURCE = 1
  case neg =>
    rw [if_neg hsource] at hexec
    exact ⟨u, hexec, hoffset, hstate, fun _ => hu, fun h => absurd h hsource, fun h => absurd h hsource⟩
  rw [if_pos hsource] at hexec
  refine ⟨_, hexec, ?_⟩
  by_cases hwithin : |offset| ≤ (s.rd Time.TIME_STEP_THRESHOLD : Int)
  · obtain ⟨hlocked, hservo⟩ := servo_locks (s := u) (offset := offset) (by rw [hsame _ (by simp)]; exact hwithin)
    refine ⟨(hservo.rd (by decide)).trans hoffset, (hservo.rd ?_).trans hstate, fun h => absurd hsource h,
      fun _ hbeyond => absurd hwithin (not_le.2 hbeyond), fun _ _ => ⟨hlocked, ?_, (hu.trans hservo).mono (by simp) (by simp)⟩⟩
    · exact (by decide : ∀ p : Fin 2, Time.PTP_PORT_STATE p ∉ [Time.TIME_STATE]) p
    · rw [hservo.rd (by decide), hsame _ (by simp)]
  · have hbeyond : (u.rd Time.TIME_STEP_THRESHOLD : Int) < |offset| := by rw [hsame _ (by simp)]; exact not_le.1 hwithin
    have htime : u.deviceTime = s.deviceTime := hu.deviceTime (by simp) (by simp)
    obtain ⟨hnow, hepoch, hsteps, hfired, hframe⟩ := timeStep_spec u (-offset)
    rw [servo_steps hbeyond]
    refine ⟨(hframe.rd (by decide)).trans hoffset, (hframe.rd ?_).trans hstate, fun h => absurd hsource h,
      fun _ _ => ⟨?_, ?_, ?_, ?_⟩, fun _ h => absurd h hwithin⟩
    · exact (by decide : ∀ p : Fin 2, Time.PTP_PORT_STATE p ∉ Time.TIME_EPOCH :: Time.TIME_STEPS :: sendIds) p
    · rw [hnow, htime]
      rfl
    · rw [hepoch, State.epoch, State.epoch, hsame _ (by simp)]
    · rw [hsteps, hsame _ (by simp)]
    · rw [hfired, hu.firings (by simp), hu.clock (by simp)]

end Sys2Proof.Machine

/-! PTP as master and without one (R322, R323): BMCA where no master qualifies, what leaves at the intervals, a master that is lost. -/

namespace Sys2Proof.Machine

/-! ## BMCA where no master qualifies (R322) -/

/-- The port that a device takes as master, with no better master heard. -/
def State.masterPort (s : State) : Nat := if s.ethUp 1 = true ∧ ¬s.ethUp 0 = true then 1 else 0

/-- The state of a port where no master qualifies: DISABLED, MASTER, PASSIVE or LISTENING. -/
def State.aloneState (s : State) (p : Nat) : Nat :=
  if s.rd Time.PTP_ROLE = 0 then 3 else if s.rd Time.PTP_ROLE = 2 then (if p = s.masterPort then 6 else 7) else 4

theorem portStates_spec (s : State) {c v w : Nat} (hc : c < 2) (hv : v < 2 ^ 32) (hw : w < 2 ^ 32) :
    let t := s.wrAll [(Time.PTP_PORT_STATE c, v), (Time.PTP_PORT_STATE (1 - c), w)]
    (∀ p < 2, t.rd (Time.PTP_PORT_STATE p) = if p = c then v else w) ∧ OnlyChanges [] [Time.PTP_PORT_STATE 0, Time.PTP_PORT_STATE 1] s t := by
  intro t
  have hword (p : Nat) (hp : p < 2) : isWord (Time.PTP_PORT_STATE p) = true := isWord_timeWords _ (ptpPortState_mem hp)
  have hpair : t = (s.wr (Time.PTP_PORT_STATE c) v).wr (Time.PTP_PORT_STATE (1 - c)) w := wrAll_pair ..
  have hsame : t.rd (Time.PTP_PORT_STATE c) = v := by
    rw [hpair, rd_wr_other (by simp only [Time.PTP_PORT_STATE]; omega), rd_wr_word (hword c hc) hv]
  have hother : t.rd (Time.PTP_PORT_STATE (1 - c)) = w := by
    rw [hpair, rd_wr_word (hword _ (by omega)) hw]
  refine ⟨fun p hp => ?_, ?_⟩
  · split
    next h => rw [h, hsame]
    next h => rw [show p = 1 - c by omega, hother]
  · rw [hpair]
    refine ((wr_only ..).trans (wr_only ..)).mono (by simp) fun i hi => ?_
    interval_cases c <;> simp at hi ⊢ <;> tauto

theorem bestMaster_none {s : State} (h : s.qualified = []) : s.bestMaster = none := by rw [State.bestMaster, h]; rfl

theorem bmca_alone {s : State} (h : s.qualified = []) :
    s.bmca.ptp = { s.ptp with master := none } ∧ (∀ p < 2, s.bmca.rd (Time.PTP_PORT_STATE p) = s.aloneState p) ∧
      OnlyChanges [.ptp] [Time.PTP_PORT_STATE 0, Time.PTP_PORT_STATE 1] s s.bmca := by
  let u : State := { s with ptp := { s.ptp with master := none } }
  have hu : OnlyChanges [.ptp] [] s u := setPtp_only s _
  suffices hwr : ∃ c v w, c < 2 ∧ v < 2 ^ 32 ∧ w < 2 ^ 32 ∧ s.bmca = u.wrAll [(Time.PTP_PORT_STATE c, v), (Time.PTP_PORT_STATE (1 - c), w)] ∧
      ∀ p, s.aloneState p = if p = c then v else w by
    obtain ⟨c, v, w, hc, hv, hw, heq, hst⟩ := hwr
    obtain ⟨hports, hframe⟩ := portStates_spec u hc hv hw
    rw [heq]
    exact ⟨hframe.ptp (by simp), fun p hp => (hports p hp).trans (hst p).symm, hu.trans hframe⟩
  unfold State.aloneState
  by_cases h0 : s.rd Time.PTP_ROLE = 0
  · exact ⟨0, 3, 3, by decide, by decide, by decide, if_pos h0, fun p => by simp [h0]⟩
  have hbmca : s.bmca = u.ptpAlone := by
    rw [State.bmca]
    dsimp only
    rw [if_neg h0, bestMaster_none h]
  have hrole : u.rd Time.PTP_ROLE = s.rd Time.PTP_ROLE := rfl
  by_cases h2 : s.rd Time.PTP_ROLE = 2
  · refine ⟨s.masterPort, 6, 7, by unfold State.masterPort; split <;> omega, by decide, by decide, ?_, fun p => by simp [h2]⟩
    rw [hbmca, State.ptpAlone, hrole, if_pos h2]
    rfl
  · refine ⟨0, 4, 4, by decide, by decide, by decide, ?_, fun p => by simp [h0, h2]⟩
    rw [hbmca, State.ptpAlone, hrole, if_neg h2]

/-! ## What leaves at the intervals (R322) -/

/-- The Announce of a master and the metadata beside it. -/
def State.ptpAnnounces (s : State) (p : Nat) : State :=
  let q := s.ptp.announceSeq
  let c := s.ownClock
  let s := { s with ptp := { s.ptp with announceSeq := (q + 1) % 65536 } }
  let s := s.emit (.packet p "PTP Announce" (s.control p 2) (s.ptpHead 0xB 64 p q 0 (zeroBytes 8) ++ ptpTime 0 ++ zeroBytes 3 ++ beBytes 1 c.priority1 ++
    beBytes 1 c.clockClass ++ beBytes 1 c.accuracy ++ beBytes 2 c.variance ++ beBytes 1 c.priority2 ++
    beBytes 8 c.identity ++ beBytes 2 0 ++ beBytes 1 0xA0))
  s.emit (.packet p "PTP ST 2059-2 metadata" (s.control p 2) (s.syncMetadata p q))

/-- The two-step Sync of a master. -/
def State.ptpSyncs (s : State) (p : Nat) : State :=
  let q := s.ptp.syncSeq
  let s := { s with ptp := { s.ptp with syncSeq := (q + 1) % 65536 } }
  let s := s.emit (.packet p "PTP Sync" (s.control p 2) (s.ptpHead 0x0 44 p q 0x200 (zeroBytes 8) ++ ptpTime 0))
  s.emit (.packet p "PTP Follow_Up" (s.control p 2) (s.ptpHead 0x8 44 p q 0 (zeroBytes 8) ++ ptpTime (s.ptpStampOut p)))

/-- The Delay_Req of a slave. -/
def State.ptpAsks (s : State) (p : Nat) : State :=
  let q := s.ptp.reqSeq
  let s := { s with ptp := { s.ptp with reqSeq := (q + 1) % 65536, req := some (q, s.deviceTime) } }
  s.emit (.packet p "PTP Delay_Req" (s.control p 2) (s.ptpHead 0x1 44 p q 0 (zeroBytes 8) ++ ptpTime 0))

theorem exec_ptpIntervalSend {p : Fin 2} (kind : Fin 3) {s : State} (hup : s.ethUp p = true) :
    exec (.ptpIntervalSend p kind) s = .next (
      let u := if kind.val = 0 ∧ s.ptp.master = none then s.bmca else s
      if kind.val = 0 ∧ u.rd (Time.PTP_PORT_STATE p) = 6 then u.ptpAnnounces p
      else if kind.val = 1 ∧ u.rd (Time.PTP_PORT_STATE p) = 6 then u.ptpSyncs p
      else if kind.val = 2 ∧ (u.rd (Time.PTP_PORT_STATE p) = 8 ∨ u.rd (Time.PTP_PORT_STATE p) = 9) then u.ptpAsks p
      else u) := by
  show execPtpIntervalSend p kind s = _
  rw [execPtpIntervalSend]
  dsimp only
  rw [if_pos hup]
  rfl

/-- The metadata of a master depends on five parameters. -/
theorem OnlyChanges.syncMetadata {ps : List Part} {ids : List Nat} {s t : State} (h : OnlyChanges ps ids s t)
    (hids : ∀ id ∈ [Time.PTP_DOMAIN, Time.PTP_INTERVALS, Eth.MAC_ADDRESS 0, Tick.TICK_RATE_N, Tick.TICK_RATE_D], id ∉ ids) (p q : Nat) :
    t.syncMetadata p q = s.syncMetadata p q := by
  have hrd {id : Nat} (hid : id ∈ [Time.PTP_DOMAIN, Time.PTP_INTERVALS, Eth.MAC_ADDRESS 0, Tick.TICK_RATE_N, Tick.TICK_RATE_D]) : t.rd id = s.rd id :=
    h.rd (hids id hid)
  have h1 := hrd (id := Time.PTP_DOMAIN) (by simp)
  have h2 := hrd (id := Time.PTP_INTERVALS) (by simp)
  have h3 := hrd (id := Eth.MAC_ADDRESS 0) (by simp)
  have h4 := hrd (id := Tick.TICK_RATE_N) (by simp)
  have h5 := hrd (id := Tick.TICK_RATE_D) (by simp)
  simp only [State.syncMetadata, State.ptpHead, State.ptpLog, State.ptpIdentity, h1, h2, h3, h4, h5]

theorem txIds_not_marked : ∀ id ∈ txIds, id % 0x10000 ∉ [0x000A, 0x000C, 0x000F] := by decide

theorem ptpAnnounces_spec (s : State) (p : Nat) :
    ∃ a, (s.ptpAnnounces p).ptp.announceSeq = (s.ptp.announceSeq + 1) % 65536 ∧
      (s.ptpAnnounces p).out =
        .packet p "PTP ST 2059-2 metadata" (s.control p 2) (s.syncMetadata p s.ptp.announceSeq) :: .packet p "PTP Announce" (s.control p 2) a :: s.out ∧
      OnlyChanges [.ptp, .out, .free] txIds s (s.ptpAnnounces p) := by
  generalize ht : s.ptpAnnounces p = t
  unfold State.ptpAnnounces at ht
  extract_lets q c x u v at ht
  have hu : OnlyChanges [.ptp] [] s u := setPtp_only s _
  have huv : OnlyChanges [.out, .free] txIds u v := emit_only u _
  have hvt : OnlyChanges [.out, .free] txIds v t := ht ▸ emit_only v _
  have hmark : v.control p 2 = s.control p 2 := huv.control txIds_not_marked p 2
  have hmeta : v.syncMetadata p q = s.syncMetadata p q := (hu.trans huv).syncMetadata (by decide) p q
  have hptp : t.ptp = u.ptp := (hvt.ptp (by simp)).trans (huv.ptp (by simp))
  rw [hmark, hmeta] at ht
  exact ⟨_, congrArg PtpSt.announceSeq hptp, (congrArg State.out ht).symm.trans ((emit_out v _).trans (congrArg _ (emit_out u _))),
    ((hu.trans huv).trans hvt).mono (by simp) (by simp)⟩

theorem ptpSyncs_spec (s : State) (p : Nat) :
    ∃ a b, (s.ptpSyncs p).ptp.syncSeq = (s.ptp.syncSeq + 1) % 65536 ∧
      (s.ptpSyncs p).out = .packet p "PTP Follow_Up" (s.control p 2) a :: .packet p "PTP Sync" (s.control p 2) b :: s.out ∧
      OnlyChanges [.ptp, .out, .free] txIds s (s.ptpSyncs p) := by
  generalize ht : s.ptpSyncs p = t
  unfold State.ptpSyncs at ht
  extract_lets q x u v at ht
  have hu : OnlyChanges [.ptp] [] s u := setPtp_only s _
  have huv : OnlyChanges [.out, .free] txIds u v := emit_only u _
  have hvt : OnlyChanges [.out, .free] txIds v t := ht ▸ emit_only v _
  have hmark : v.control p 2 = s.control p 2 := huv.control txIds_not_marked p 2
  have hptp : t.ptp = u.ptp := (hvt.ptp (by simp)).trans (huv.ptp (by simp))
  rw [hmark] at ht
  exact ⟨_, _, congrArg PtpSt.syncSeq hptp, (congrArg State.out ht).symm.trans ((emit_out v _).trans (congrArg _ (emit_out u _))),
    ((hu.trans huv).trans hvt).mono (by simp) (by simp)⟩

theorem ptpAsks_spec (s : State) (p : Nat) :
    ∃ a, (s.ptpAsks p).ptp.req = some (s.ptp.reqSeq, s.deviceTime) ∧
      (s.ptpAsks p).out = .packet p "PTP Delay_Req" (s.control p 2) a :: s.out ∧ OnlyChanges [.ptp, .out, .free] txIds s (s.ptpAsks p) := by
  generalize ht : s.ptpAsks p = t
  unfold State.ptpAsks at ht
  extract_lets q x u at ht
  have hu : OnlyChanges [.ptp] [] s u := setPtp_only s _
  have hut : OnlyChanges [.out, .free] txIds u t := ht ▸ emit_only u _
  exact ⟨_, congrArg PtpSt.req (hut.ptp (by simp)), (congrArg State.out ht).symm.trans (emit_out u _), (hu.trans hut).mono (by simp) (by simp)⟩

section

variable {p : Fin 2} {s : State} (hup : s.ethUp p = true)

include hup

theorem ptpIntervalSend_announces (hrole : s.rd Time.PTP_ROLE = 2) (hmaster : s.ptp.master = none) (hnone : s.qualified = [])
    (hchosen : p.val = s.masterPort) :
    ∃ t a, exec (.ptpIntervalSend p 0) s = .next t ∧ t.rd (Time.PTP_PORT_STATE p) = 6 ∧
      t.ptp.announceSeq = (s.ptp.announceSeq + 1) % 65536 ∧
      t.out = .packet p "PTP ST 2059-2 metadata" (s.control p 2) (s.syncMetadata p s.ptp.announceSeq) ::
        .packet p "PTP Announce" (s.control p 2) a :: s.out ∧
      OnlyChanges [.ptp, .out, .free] (Time.PTP_PORT_STATE 0 :: Time.PTP_PORT_STATE 1 :: txIds) s t := by
  obtain ⟨hptp, hports, hu⟩ := bmca_alone hnone
  have hst : s.bmca.rd (Time.PTP_PORT_STATE p) = 6 := by
    rw [hports p p.isLt]
    simp [State.aloneState, hrole, hchosen]
  obtain ⟨a, hseq, hout, hframe⟩ := ptpAnnounces_spec s.bmca p
  have hmark : s.bmca.control p 2 = s.control p 2 := hu.control (by decide) p 2
  refine ⟨s.bmca.ptpAnnounces p, a, ?_, ?_, ?_, ?_, (hu.trans hframe).mono (by simp) (by simp)⟩
  · rw [exec_ptpIntervalSend 0 hup]
    simp [hmaster, hst]
  · rw [hframe.rd ((by decide : ∀ p : Fin 2, Time.PTP_PORT_STATE p ∉ txIds) p), hst]
  · rw [hseq, hptp]
  · rw [hout, hmark, hu.out (by simp), hptp, hu.syncMetadata (by decide)]

theorem ptpIntervalSend_syncs (hst : s.rd (Time.PTP_PORT_STATE p) = 6) :
    ∃ t a b, exec (.ptpIntervalSend p 1) s = .next t ∧ t.ptp.syncSeq = (s.ptp.syncSeq + 1) % 65536 ∧
      t.out = .packet p "PTP Follow_Up" (s.control p 2) a :: .packet p "PTP Sync" (s.control p 2) b :: s.out ∧
      OnlyChanges [.ptp, .out, .free] txIds s t := by
  obtain ⟨a, b, hspec⟩ := ptpSyncs_spec s p
  refine ⟨s.ptpSyncs p, a, b, ?_, hspec⟩
  rw [exec_ptpIntervalSend 1 hup]
  simp [hst]

theorem ptpIntervalSend_asks (hst : s.rd (Time.PTP_PORT_STATE p) = 8 ∨ s.rd (Time.PTP_PORT_STATE p) = 9) :
    ∃ t a, exec (.ptpIntervalSend p 2) s = .next t ∧ t.ptp.req = some (s.ptp.reqSeq, s.deviceTime) ∧
      t.out = .packet p "PTP Delay_Req" (s.control p 2) a :: s.out ∧ OnlyChanges [.ptp, .out, .free] txIds s t := by
  obtain ⟨a, hspec⟩ := ptpAsks_spec s p
  refine ⟨s.ptpAsks p, a, ?_, hspec⟩
  rw [exec_ptpIntervalSend 2 hup]
  simp [hst]

end

/-! ## A master that is lost (R323) -/

/-- The selected master and its delay are forgotten. -/
def State.masterForgotten (s : State) (m : Nat × Nat) : State :=
  { s with ptp := { s.ptp with foreign := s.ptp.foreign.filter fun x => !(x.port == m.1 && x.source == m.2), delay := none, haveSync := false } }

theorem ptpAnnounceTimeout_lost {s : State} {m : Nat × Nat} {x : PtpMaster} (hmaster : s.ptp.master = some m) (honly : s.ptp.foreign = [x])
    (hport : x.port = m.1) (hsource : x.source = m.2) :
    ∃ t, exec .ptpAnnounceTimeout s = .next t ∧
      t.clock = max s.clock (x.heardAt + s.rd Time.PTP_ANNOUNCE_TIMEOUT * s.ptpInterval 2) ∧ t.ptp.master = none ∧ t.ptp.foreign = [] ∧
      t.rd (Time.PTP_PORT_STATE 0) = s.aloneState 0 ∧ t.rd (Time.PTP_PORT_STATE 1) = s.aloneState 1 ∧
      (s.rd Time.TIME_SOURCE = 1 → t.rd Time.TIME_STATE = 3) ∧
      (s.tick.src ≠ 1 → OnlyChanges [.clock, .ptp] [Time.PTP_PORT_STATE 0, Time.PTP_PORT_STATE 1, Time.TIME_STATE] s t) ∧
      (s.tick.src = 1 → s.rd Tick.TICK_STATE = TickState.LOCKED → t.rd Tick.TICK_STATE = TickState.HOLDOVER) := by
  let due := x.heardAt + s.rd Time.PTP_ANNOUNCE_TIMEOUT * s.ptpInterval 2
  let u := (s.at due).masterForgotten m
  have hu : OnlyChanges [.clock, .ptp] [] s u := (at_only s due).trans (setPtp_only ..)
  have hempty : u.ptp.foreign = [] := by
    show s.ptp.foreign.filter _ = []
    rw [honly, hport.symm, hsource.symm]
    simp
  obtain ⟨hptp, hports, hb⟩ := bmca_alone (s := u) (by rw [State.qualified, hempty]; rfl)
  let v := if u.bmca.rd Time.TIME_SOURCE = 1 then u.bmca.wr Time.TIME_STATE 3 else u.bmca
  have hv : OnlyChanges [] [Time.TIME_STATE] u.bmca v := by
    unfold v
    split
    · exact wr_only ..
    · exact .nothing _
  have hsv : OnlyChanges [.clock, .ptp] [Time.PTP_PORT_STATE 0, Time.PTP_PORT_STATE 1, Time.TIME_STATE] s v :=
    ((hu.trans hb).trans hv).mono (by simp) (by simp)
  have hsource : u.bmca.rd Time.TIME_SOURCE = s.rd Time.TIME_SOURCE := (hu.trans hb).rd (by decide)
  have hexec : exec .ptpAnnounceTimeout s = .next (v.sourceStopped 1) := by
    have hlast : ((s.ptp.foreign.find? fun y => y.port == m.1 && y.source == m.2).map PtpMaster.heardAt).getD s.clock = x.heardAt := by
      rw [honly, hport.symm, ‹x.source = m.2›.symm]
      simp
    have hnone : u.bmca.ptp.master = none := by rw [hptp]
    show execPtpAnnounceTimeout s = _
    simp only [execPtpAnnounceTimeout, hmaster, hlast]
    change Host.Outcome.next (if u.bmca.ptp.master.isSome = true then u.bmca else v.sourceStopped 1) = _
    rw [hnone]
    rfl
  have hstop := sourceStopped_only v 1
  have hlater : ∀ id ∈ timeWords, (v.sourceStopped 1).rd id = v.rd id := fun id hid => hstop.rd (timeIds_not_sent id (by simp [hid]))
  have hstate (p : Nat) (hp : p < 2) : (v.sourceStopped 1).rd (Time.PTP_PORT_STATE p) = s.aloneState p := by
    rw [hlater _ (ptpPortState_mem hp), hv.rd (by simp only [List.mem_singleton, Time.PTP_PORT_STATE, Time.TIME_STATE]; omega), hports p hp]
    rfl
  have hptp' : (v.sourceStopped 1).ptp = { u.ptp with master := none } := by
    rw [hstop.ptp (by simp [sending]), hv.ptp (by simp), hptp]
  refine ⟨_, hexec, ?_, ?_, ?_, hstate 0 (by decide), hstate 1 (by decide), fun h => ?_, fun h => ?_, fun h hlocked => ?_⟩
  · rw [hstop.clock (by simp [sending]), hv.clock (by simp), hb.clock (by simp)]
    rfl
  · rw [hptp']
  · rw [hptp', hempty]
  · rw [hlater _ (by simp [timeWords]), show v = u.bmca.wr Time.TIME_STATE 3 from if_pos (hsource.trans h)]
    exact rd_wr_word (isWord_timeWords _ (by simp [timeWords])) (by decide) _
  · rw [sourceStopped_other (by rwa [hsv.tick (by simp)])]
    exact hsv
  · exact sourceStopped_holds ((congrArg TickSt.src (hsv.tick (by simp))).trans h) ((hsv.rd (by decide)).trans hlocked)

end Sys2Proof.Machine

/-! Sync inputs (R327 to R329): edges that are accepted, glitches, edges that are only stamped, stops, and O34. -/

namespace Sys2Proof.Machine

theorem OnlyChanges.sync {ps : List Part} {ids : List Nat} {s t : State} {k : Nat} (h : OnlyChanges ps ids s t) (hp : .sync k ∉ ps) :
    t.sync k = s.sync k :=
  h.2.1 (.sync k) hp

theorem syncIds_mem : ∀ k < 2, Time.FSYNC_PERIOD k ∈ timeWords ∧ ∀ id ∈ [Time.FSYNC_LAST_EDGE k, Time.FSYNC_GLITCHES k, Time.FSYNC_STOPS k],
    id ∈ timeLongs := by decide

/-! ## Edges (R327, R328) -/

/-- An edge is stamped. -/
def State.edgeStamped (s : State) (k : Nat) (rising : Bool) : State :=
  s.setSync k (if rising then { s.sync k with rise := s.deviceTime } else { s.sync k with fall := s.deviceTime })

/-- An edge that FSYNC_EDGE names is reported and fires the event source of its input. -/
def State.edgeReported (s : State) (k : Nat) (rising : Bool) : State :=
  ((s.edgeStamped k rising).wr (Time.FSYNC_LAST_EDGE k) s.deviceTime).fire (7 + k)

theorem edgeReported_spec (s : State) {k : Nat} (hk : k < 2) (rising : Bool) :
    (s.edgeReported k rising).rd (Time.FSYNC_LAST_EDGE k) = s.deviceTime ∧
      ((s.edgeReported k rising).sync k).lastAt = (s.sync k).lastAt ∧ ((s.edgeReported k rising).sync k).rawAt = (s.sync k).rawAt ∧
      ((s.edgeReported k rising).sync k).pm = (s.sync k).pm ∧ ((s.edgeReported k rising).sync k).stopped = (s.sync k).stopped ∧
      ((s.edgeReported k rising).sync k).odd = (s.sync k).odd ∧ (s.edgeReported k rising).firings = s.firings ++ [(7 + k, s.clock)] ∧
      OnlyChanges [.sync k, .firings] [Time.FSYNC_LAST_EDGE k] s (s.edgeReported k rising) := by
  let u := s.edgeStamped k rising
  have hu : OnlyChanges [.sync k] [] s u := setSync_only ..
  have hw : OnlyChanges [] [Time.FSYNC_LAST_EDGE k] u (u.wr (Time.FSYNC_LAST_EDGE k) s.deviceTime) := wr_only ..
  have hsync : (s.edgeReported k rising).sync k = if rising then { s.sync k with rise := s.deviceTime } else { s.sync k with fall := s.deviceTime } := by
    rw [State.edgeReported, (fire_only ..).sync (by simp), (wr_only ..).sync (by simp), State.edgeStamped, sync_setSync_same]
  refine ⟨?_, ?_, ?_, ?_, ?_, ?_, ?_, ((hu.trans hw).trans (fire_only ..)).mono (by simp) (by simp)⟩
  · rw [State.edgeReported, (fire_only ..).rd (by simp)]
    exact rd_wr_long (isCounter_timeLongs _ ((syncIds_mem k hk).2 _ (by simp))) (deviceTime_lt s) u
  · rw [hsync]; split <;> rfl
  · rw [hsync]; split <;> rfl
  · rw [hsync]; split <;> rfl
  · rw [hsync]; split <;> rfl
  · rw [hsync]; split <;> rfl
  · rw [State.edgeReported, fire_firings, (hu.trans hw).firings (by simp), (hu.trans hw).clock (by simp)]

/-- What a reported edge is: accepted, new timing, a glitch, or the first of a prediction (R328). -/
def State.edgeClassed (s : State) (k : Nat) : State :=
  let x := s.sync k
  match x.lastAt, x.rawAt with
  | some l, some raw =>
    let pm := if x.pm = 0 then s.fsyncExpected k else x.pm
    let gap := s.clock - raw
    if !(offBy5 (s.clock - l) pm pm) then s.fsyncAccept k (s.clock - l)
    else if x.stopped ∧ !(offBy5 gap pm pm) then s.fsyncAccept k gap
    else
      let odd := if offBy5 gap pm pm then (gap :: x.odd).take 8 else []
      if odd.length = 8 ∧ alike odd then s.fsyncRate k gap
      else (s.setSync k { x with rawAt := some s.clock, odd := odd }).count (Time.FSYNC_GLITCHES k)
  | _, _ =>
    let x : FsyncSt := { x with lastAt := some s.clock, rawAt := some s.clock }
    s.setSync k (x.counted s.clock (s.fsyncQ k) true)

theorem exec_fsyncEdge (k : Fin 2) (rising : Bool) {s : State} (hruns : s.netRuns = true) :
    exec (.fsyncEdge k rising) s = .next (
      if rising ≠ (s.rd (Time.FSYNC_EDGE k) == 0) then s.edgeStamped k rising else (s.edgeReported k rising).edgeClassed k) := by
  show execFsyncEdge k rising s = _
  unfold execFsyncEdge
  dsimp only
  rw [if_neg (by simp [hruns])]
  rfl

theorem edgeClassed_accepted {s : State} {k l raw : Nat} (hlast : (s.sync k).lastAt = some l) (hraw : (s.sync k).rawAt = some raw)
    (hpm : (s.sync k).pm ≠ 0) (hnear : offBy5 (s.clock - l) (s.sync k).pm (s.sync k).pm = false) :
    s.edgeClassed k = s.fsyncAccept k (s.clock - l) := by
  simp only [State.edgeClassed, hlast, hraw, if_neg hpm, hnear, Bool.not_false, if_true]

theorem edgeClassed_glitch {s : State} {k l raw : Nat} (hlast : (s.sync k).lastAt = some l) (hraw : (s.sync k).rawAt = some raw)
    (hpm : (s.sync k).pm ≠ 0) (hoff : offBy5 (s.clock - l) (s.sync k).pm (s.sync k).pm = true) (hgoes : (s.sync k).stopped = false)
    (hfew : (s.sync k).odd.length < 7) :
    ∃ odd, s.edgeClassed k = (s.setSync k { s.sync k with rawAt := some s.clock, odd := odd }).count (Time.FSYNC_GLITCHES k) := by
  let odd := if offBy5 (s.clock - raw) (s.sync k).pm (s.sync k).pm then ((s.clock - raw) :: (s.sync k).odd).take 8 else []
  have hshort : ¬(odd.length = 8 ∧ alike odd = true) := fun h => by
    have hlen : odd.length ≤ (s.sync k).odd.length + 1 := by
      unfold odd
      split
      · simp
      · simp
    omega
  refine ⟨odd, ?_⟩
  simp only [State.edgeClassed, hlast, hraw, if_neg hpm, hoff, hgoes, Bool.not_true, Bool.false_eq_true, false_and, if_false]
  exact if_neg hshort

theorem counted_keeps (x : FsyncSt) (clock q : Nat) (anew : Bool) :
    (x.counted clock q anew).lastAt = x.lastAt ∧ (x.counted clock q anew).stopped = x.stopped := by
  unfold FsyncSt.counted
  split <;> exact ⟨rfl, rfl⟩

/-- Whether a period is within FSYNC_PULL depends on the ratio and the limit of its input and on the tick rate. -/
theorem OnlyChanges.fsyncInPull {ps : List Part} {ids : List Nat} {s t : State} {k : Nat} (h : OnlyChanges ps ids s t)
    (hids : ∀ id ∈ [Time.FSYNC_RATIO k, Time.FSYNC_PULL k, Tick.TICK_RATE_N, Tick.TICK_RATE_D], id ∉ ids) (period : Nat) :
    t.fsyncInPull k period = s.fsyncInPull k period := by
  have hrd {id : Nat} (hid : id ∈ [Time.FSYNC_RATIO k, Time.FSYNC_PULL k, Tick.TICK_RATE_N, Tick.TICK_RATE_D]) : t.rd id = s.rd id :=
    h.rd (hids id hid)
  have hratio := hrd (.head _)
  have hpull := hrd (.tail _ (.head _))
  have hn := hrd (.tail _ (.tail _ (.head _)))
  have hd := hrd (.tail _ (.tail _ (.tail _ (.head _))))
  unfold State.fsyncInPull State.fsyncExpected
  rw [hratio, hpull, hn, hd]

theorem pullIds_free : ∀ k < 2, ∀ id ∈ [Time.FSYNC_RATIO k, Time.FSYNC_PULL k, Tick.TICK_RATE_N, Tick.TICK_RATE_D],
    id ∉ [Time.FSYNC_PERIOD k] ∧ id ∉ [Time.FSYNC_LAST_EDGE k] := by decide

theorem fsyncAccept_spec (s : State) {k period : Nat} (hk : k < 2) (hperiod : period < 2 ^ 32) :
    (s.fsyncAccept k period).rd (Time.FSYNC_PERIOD k) = period ∧ ((s.fsyncAccept k period).sync k).lastAt = some s.clock ∧
      ((s.fsyncAccept k period).sync k).stopped = false ∧
      OnlyChanges (.sync k :: .tick :: .firings :: sending) (Time.FSYNC_PERIOD k :: Tick.TICK_STATE :: Tick.TICK_STATE_CHANGES :: sendIds) s
        (s.fsyncAccept k period) ∧
      (s.tick.src ≠ 2 + k → OnlyChanges [.sync k] [Time.FSYNC_PERIOD k] s (s.fsyncAccept k period)) ∧
      (s.tick.src = 2 + k → s.rd Tick.TICK_STATE = TickState.HOLDOVER →
        (s.fsyncAccept k period).rd Tick.TICK_STATE = if s.fsyncInPull k period then TickState.ACQUIRING else TickState.HOLDOVER) := by
  obtain ⟨hword, -⟩ := syncIds_mem k hk
  generalize ht : s.fsyncAccept k period = t
  unfold State.fsyncAccept at ht
  extract_lets y x u v at ht
  have hu : OnlyChanges [.sync k] [] s u := setSync_only ..
  have hv : OnlyChanges [] [Time.FSYNC_PERIOD k] u v := wr_only ..
  have hsv : OnlyChanges [.sync k] [Time.FSYNC_PERIOD k] s v := hu.trans hv
  have hpull : v.fsyncInPull k period = s.fsyncInPull k period := hsv.fsyncInPull (fun id hid => (pullIds_free k hk id hid).1) period
  have hrd : v.rd (Time.FSYNC_PERIOD k) = period := rd_wr_word (isWord_timeWords _ hword) hperiod u
  have hsync : v.sync k = x.counted s.clock (s.fsyncQ k) false := (hv.sync (by simp)).trans (sync_setSync_same ..)
  obtain ⟨hlast, hstopped⟩ := counted_keeps x s.clock (s.fsyncQ k) false
  have htick : v.tick = s.tick := hsv.tick (by simp)
  have hst : v.rd Tick.TICK_STATE = s.rd Tick.TICK_STATE := hsv.rd ((by decide : ∀ k < 2, Tick.TICK_STATE ∉ [Time.FSYNC_PERIOD k]) k hk)
  have hvt : OnlyChanges (.tick :: .firings :: sending) (Tick.TICK_STATE :: Tick.TICK_STATE_CHANGES :: sendIds) v t := by
    rw [← ht]
    split
    · exact sourceReturned_only ..
    · exact .nothing v
  refine ⟨(hvt.rd (timeIds_not_sent _ (by simp [hword]))).trans hrd, ?_, ?_, (hsv.trans hvt).mono (by simp) (by simp), fun hsrc => ?_, fun hsrc hhold => ?_⟩
  · rw [hvt.sync (by simp [sending]), hsync, hlast]
  · rw [hvt.sync (by simp [sending]), hsync, hstopped]
  · rw [← ht, sourceReturned_other (by rwa [htick]), ite_self]
    exact hsv
  · rw [← ht, ← hpull]
    split
    · exact sourceReturned_acquires (by rw [htick, hsrc]) (hst.trans hhold)
    · exact hst.trans hhold

theorem fsyncEdge_stamped {k : Fin 2} {l : Nat} {s : State} (hlast : (s.sync k).lastAt = some l) (hruns : s.netRuns = true) :
    ∃ t, exec (.fsyncEdge k (!(s.rd (Time.FSYNC_EDGE k) == 0))) s = .next t ∧ (t.sync k).lastAt = some l ∧ (t.sync k).pm = (s.sync k).pm ∧
      (if s.rd (Time.FSYNC_EDGE k) == 0 then (t.sync k).fall else (t.sync k).rise) = s.deviceTime ∧ OnlyChanges [.sync k] [] s t := by
  refine ⟨s.edgeStamped k (!(s.rd (Time.FSYNC_EDGE k) == 0)), ?_, ?_, ?_, ?_, setSync_only ..⟩
  · rw [exec_fsyncEdge k _ hruns, if_pos (by simp)]
  all_goals
    rw [State.edgeStamped, sync_setSync_same]
    cases s.rd (Time.FSYNC_EDGE k) == 0 <;> simp [hlast]

section

variable {k : Fin 2} {l : Nat} {s : State} (hlast : (s.sync k).lastAt = some l) (hpm : (s.sync k).pm ≠ 0)

include hlast hpm

section

variable {raw : Nat} (hruns : s.netRuns = true) (hraw : (s.sync k).rawAt = some raw)

include hruns hraw

theorem fsyncEdge_accepted (hnear : offBy5 (s.clock - l) (s.sync k).pm (s.sync k).pm = false) (hfits : s.clock - l < 2 ^ 32) :
    ∃ t, exec (.fsyncEdge k (s.rd (Time.FSYNC_EDGE k) == 0)) s = .next t ∧ t.rd (Time.FSYNC_LAST_EDGE k) = s.deviceTime ∧
      t.rd (Time.FSYNC_PERIOD k) = s.clock - l ∧ (t.sync k).lastAt = some s.clock ∧ (t.sync k).stopped = false ∧
      (s.tick.src ≠ 2 + k.val → t.firings = s.firings ++ [(7 + k.val, s.clock)] ∧
        OnlyChanges [.sync k, .firings] [Time.FSYNC_LAST_EDGE k, Time.FSYNC_PERIOD k] s t) ∧
      (s.tick.src = 2 + k.val → s.rd Tick.TICK_STATE = TickState.HOLDOVER →
        t.rd Tick.TICK_STATE = (if s.fsyncInPull k (s.clock - l) then TickState.ACQUIRING else TickState.HOLDOVER)) := by
  obtain ⟨hedge, hl, hr, hp, -, -, hfired, hu⟩ := edgeReported_spec s k.isLt (s.rd (Time.FSYNC_EDGE k) == 0)
  generalize hreported : s.edgeReported k (s.rd (Time.FSYNC_EDGE k) == 0) = u at *
  have hclock : u.clock = s.clock := hu.clock (by simp)
  have hclassed : u.edgeClassed k = u.fsyncAccept k (s.clock - l) := by
    rw [edgeClassed_accepted (hl.trans hlast) (hr.trans hraw) (by rwa [hp]) (by rwa [hp, hclock]), hclock]
  obtain ⟨hperiod, hat, hgoes, hframe, hother, hown⟩ := fsyncAccept_spec u k.isLt hfits
  have htick : u.tick = s.tick := hu.tick (by simp)
  have hst : u.rd Tick.TICK_STATE = s.rd Tick.TICK_STATE := hu.rd ((by decide : ∀ k : Fin 2, Tick.TICK_STATE ∉ [Time.FSYNC_LAST_EDGE k]) k)
  refine ⟨u.fsyncAccept k (s.clock - l), ?_, ?_, hperiod, hat.trans (congrArg some hclock), hgoes, fun hsrc => ?_, fun hsrc hhold => ?_⟩
  · rw [exec_fsyncEdge k _ hruns, if_neg (by simp), hreported, hclassed]
  · rw [hframe.rd ((by decide : ∀ k : Fin 2, Time.FSYNC_LAST_EDGE k ∉ Time.FSYNC_PERIOD k :: Tick.TICK_STATE :: Tick.TICK_STATE_CHANGES :: sendIds) k),
      hedge]
  · have hquiet := hother (by rwa [htick])
    exact ⟨(hquiet.firings (by simp)).trans hfired, (hu.trans hquiet).mono (by simp) (by simp)⟩
  · rw [hown (by rw [htick, hsrc]) (hst.trans hhold), hu.fsyncInPull fun id hid => (pullIds_free k k.isLt id hid).2]

theorem fsyncEdge_glitch (hoff : offBy5 (s.clock - l) (s.sync k).pm (s.sync k).pm = true) (hgoes : (s.sync k).stopped = false)
    (hfew : (s.sync k).odd.length < 7) :
    ∃ t, exec (.fsyncEdge k (s.rd (Time.FSYNC_EDGE k) == 0)) s = .next t ∧ t.rd (Time.FSYNC_LAST_EDGE k) = s.deviceTime ∧
      t.rd (Time.FSYNC_GLITCHES k) = countUp (s.rd (Time.FSYNC_GLITCHES k)) 1 ∧ (t.sync k).lastAt = some l ∧ (t.sync k).pm = (s.sync k).pm ∧
      t.firings = s.firings ++ [(7 + k.val, s.clock)] ∧
      OnlyChanges [.sync k, .firings] [Time.FSYNC_LAST_EDGE k, Time.FSYNC_GLITCHES k] s t := by
  obtain ⟨hedge, hl, hr, hp, hst, hodd, hfired, hu⟩ := edgeReported_spec s k.isLt (s.rd (Time.FSYNC_EDGE k) == 0)
  generalize hreported : s.edgeReported k (s.rd (Time.FSYNC_EDGE k) == 0) = u at *
  have hclock : u.clock = s.clock := hu.clock (by simp)
  obtain ⟨odd, hclassed⟩ := edgeClassed_glitch (s := u) (hl.trans hlast) (hr.trans hraw) (by rwa [hp])
    (by rwa [hp, hclock]) (hst.trans hgoes) (by rwa [hodd])
  let v := u.setSync k { u.sync k with rawAt := some u.clock, odd := odd }
  have hv : OnlyChanges [.sync k.val] [] u v := setSync_only ..
  have ht : OnlyChanges [] [Time.FSYNC_GLITCHES k] v (v.count (Time.FSYNC_GLITCHES k)) := count_only ..
  have hsync : (v.count (Time.FSYNC_GLITCHES k)).sync k = { u.sync k with rawAt := some u.clock, odd := odd } :=
    (ht.sync (by simp)).trans (sync_setSync_same ..)
  refine ⟨v.count (Time.FSYNC_GLITCHES k), ?_, ?_, ?_, ?_, ?_, ?_, ((hu.trans hv).trans ht).mono (by simp) (by simp)⟩
  · rw [exec_fsyncEdge k _ hruns, if_neg (by simp), hreported, hclassed]
  · rw [ht.rd ((by decide : ∀ k : Fin 2, Time.FSYNC_LAST_EDGE k ∉ [Time.FSYNC_GLITCHES k]) k), hv.rd (by simp), hedge]
  · rw [rd_count_counter (isCounter_timeLongs _ ((syncIds_mem k k.isLt).2 _ (by simp))), hv.rd (by simp),
      hu.rd ((by decide : ∀ k : Fin 2, Time.FSYNC_GLITCHES k ∉ [Time.FSYNC_LAST_EDGE k]) k)]
  · rw [hsync]
    exact hl.trans hlast
  · rw [hsync, ← hp]
  · rw [ht.firings (by simp), hv.firings (by simp), hfired]

end

/-! ## Stops (R328) -/

theorem fsyncStop_stops (hgoes : (s.sync k).stopped = false) :
    ∃ t, exec (.fsyncStop k) s = .next t ∧ t.clock = max s.clock (l + (s.sync k).pm * 3 / 2) ∧ (t.sync k).stopped = true ∧
      t.rd (Time.FSYNC_STOPS k) = countUp (s.rd (Time.FSYNC_STOPS k)) 1 ∧
      (s.tick.src ≠ 2 + k.val → OnlyChanges [.clock, .sync k] [Time.FSYNC_STOPS k] s t) ∧
      (s.tick.src = 2 + k.val → s.rd Tick.TICK_STATE = TickState.LOCKED → t.rd Tick.TICK_STATE = TickState.HOLDOVER) := by
  have hlong : Time.FSYNC_STOPS k ∈ timeLongs := (syncIds_mem k k.isLt).2 _ (by simp)
  let due := l + (s.sync k).pm * 3 / 2
  let u := (s.at due).setSync k { s.sync k with stopped := true }
  let v := u.count (Time.FSYNC_STOPS k)
  have hu : OnlyChanges [.clock, .sync k.val] [] s u := (at_only s due).trans (setSync_only ..)
  have hv : OnlyChanges [] [Time.FSYNC_STOPS k] u v := count_only ..
  have hsv : OnlyChanges [.clock, .sync k.val] [Time.FSYNC_STOPS k] s v := hu.trans hv
  have hstop := sourceStopped_only v (2 + k)
  have hexec : exec (.fsyncStop k) s = .next (v.sourceStopped (2 + k)) := by
    show execFsyncStop k s = _
    unfold execFsyncStop
    extract_lets n x pm
    refine congrArg Host.Outcome.next ?_
    split
    next hnone => simp [x, n, hlast] at hnone
    next l' hsome =>
      obtain rfl : l' = l := Option.some.inj (hsome.symm.trans hlast)
      rw [if_neg (by simp [x, n, hgoes])]
      simp only [pm, x, n, if_neg hpm, v, u, due]
  refine ⟨_, hexec, ?_, ?_, ?_, fun hsrc => ?_, fun hsrc hlocked => ?_⟩
  · rw [hstop.clock (by simp [sending]), hv.clock (by simp)]
    rfl
  · rw [hstop.sync (by simp [sending]), hv.sync (by simp), sync_setSync_same]
  · rw [hstop.rd (timeIds_not_sent _ (by simp [hlong])), rd_count_counter (isCounter_timeLongs _ hlong), hu.rd (by simp)]
  · rw [sourceStopped_other (by rwa [hsv.tick (by simp)])]
    exact hsv
  · exact sourceStopped_holds ((congrArg TickSt.src (hsv.tick (by simp))).trans hsrc)
      ((hsv.rd ((by decide : ∀ k : Fin 2, Tick.TICK_STATE ∉ [Time.FSYNC_STOPS k]) k)).trans hlocked)

end

/-- Settles O34: messages by their type, intervals by what a master and a slave send, edges by `edgeClassed`, stops by `fsyncStop_stops`. -/
theorem deviceTimeFollowsItsReference : Obligations.DeviceTimeFollowsItsReference := by
  refine ⟨fun p b s hup => ⟨fun vlan => ptpMessageRx_ignored hup, fun hrole hdomain => ⟨ptpMessageRx_answersDelayReq hup hrole hdomain,
      fun htype hstep hmaster => ⟨ptpMessageRx_badTime hup hrole hdomain htype hstep hmaster,
        fun d => ptpMessageRx_follows hup hrole hdomain htype hstep hmaster⟩⟩⟩,
    fun s => ⟨fun p hup => ⟨ptpIntervalSend_announces hup, ptpIntervalSend_syncs hup, ptpIntervalSend_asks hup⟩,
      fun m x => ptpAnnounceTimeout_lost⟩,
    fun k l raw s hlast hpm => ⟨fun hruns hraw => ⟨fsyncEdge_accepted hlast hpm hruns hraw, fsyncEdge_glitch hlast hpm hruns hraw,
      fsyncEdge_stamped hlast hruns⟩, fsyncStop_stops hlast hpm⟩⟩

end Sys2Proof.Machine

/-! The Tick Ring (R330 to R335): the selection of the parent port, the states of a ring port, delay measurements, ticks and events, and O35. -/

namespace Sys2Proof.Machine

/-! ## The parameters of the ring (Table 12-15) -/

/-- What the ring reports in 32 bits. -/
def ringWords (p : Nat) : List Nat :=
  [Ring.RING_PORT_STATE p, Ring.RING_PORT_ROLE p, Ring.HOP_DELAY p, Ring.RING_HOPS, Ring.ROOT_ID, Ring.TICK_ALIGN_ERROR]

/-- What it reports or counts in 64 bits. -/
def ringLongs (p : Nat) : List Nat :=
  [Ring.NEIGHBOUR_STATUS p, Ring.RING_HEADER_ERR p, Ring.RING_LINK_LOSS p, Ring.EVENTS_TX, Ring.EVENTS_RX, Ring.RING_RETURN, Ring.RING_DUP,
    Ring.HOP_EXHAUSTED, Ring.RING_BREAKS, Ring.REPARENTS]

theorem isWord_ringWords : ∀ p : Fin 4, ∀ id ∈ ringWords p, isWord id = true := by decide

theorem isCounter_ringLongs : ∀ p : Fin 4, ∀ id ∈ ringLongs p, isCounter id = true := by decide

/-- What a selection of the parent port shows. -/
def selectIds : List Nat :=
  Ring.RING_HOPS :: Ring.ROOT_ID :: Ring.RING_PORT_ROLE 0 :: Ring.RING_PORT_ROLE 1 :: Ring.RING_PORT_ROLE 2 :: Ring.RING_PORT_ROLE 3 ::
    Tick.TICK_STATE :: Tick.TICK_STATE_CHANGES :: sendIds

/-- The parts that it moves. -/
def selectParts : List Part := .ring :: .tick :: .firings :: sending

/-- The parameters that the ring keeps through a selection. -/
def ringKept (p : Nat) : List Nat :=
  [Ring.RING_PORT_STATE p, Ring.HOP_DELAY p, Ring.NEIGHBOUR_STATUS p, Ring.RING_HEADER_ERR p, Ring.RING_LINK_LOSS p, Ring.RING_BREAKS,
    Ring.HOP_EXHAUSTED, Tick.TICK_SOURCE, Tick.TICK_RATE_N, Tick.TICK_RATE_D]

theorem ringKept_not_selected : ∀ p : Fin 4, ∀ id ∈ ringKept p, id ∉ selectIds := by decide

theorem setRing_only (s : State) (x : RingSt) : OnlyChanges [.ring] [] s { s with ring := x } := by
  refine ⟨rfl, fun p hp => ?_, fun _ _ => rfl⟩
  cases p with
  | ring => simp at hp
  | mem => exact fun _ => rfl
  | buffers | qps => exact ⟨rfl, rfl⟩
  | nmp => exact ⟨rfl, rfl, rfl, rfl, rfl⟩
  | _ => rfl

theorem OnlyChanges.ring {ps : List Part} {ids : List Nat} {s t : State} (h : OnlyChanges ps ids s t) (hp : .ring ∉ ps) : t.ring = s.ring :=
  h.2.1 .ring hp

theorem OnlyChanges.ringPort {ps : List Part} {ids : List Nat} {s t : State} {k : Nat} (h : OnlyChanges ps ids s t) (hp : .ringPort k ∉ ps) :
    t.ringPort k = s.ringPort k :=
  h.2.1 (.ringPort k) hp

/-! ## The source of the tick (Table 02-2) -/

theorem tickTo_edgeAt (s : State) (st : Nat) : (s.tickTo st).tick.edgeAt = s.tick.edgeAt := by
  have hbegun : (s.tickBegins st).tick.edgeAt = s.tick.edgeAt := by unfold State.tickBegins; split <;> rfl
  have hheld (u : State) : (u.tickHolds st).tick.edgeAt = u.tick.edgeAt := by unfold State.tickHolds; split <;> rfl
  rw [tickTo_eq]
  split
  · exact hbegun
  · dsimp only
    rw [(fire_only ..).tick (by simp), State.tickNotify, (notify_only ..).tick (by simp [sending]), hheld, (count_only ..).tick (by simp),
      (wr_only ..).tick (by simp), hbegun]

theorem tickToIf_spec (s : State) (b : Prop) [Decidable b] {st : Nat} (hst : st < 2 ^ 32) :
    (if b then s.tickTo st else s).tick.edgeAt = s.tick.edgeAt ∧
      OnlyChanges (.tick :: .firings :: sending) (Tick.TICK_STATE :: Tick.TICK_STATE_CHANGES :: sendIds) s (if b then s.tickTo st else s) := by
  split
  · exact ⟨tickTo_edgeAt s st, (tickTo_spec s hst).2⟩
  · exact ⟨rfl, .nothing s⟩

theorem sourceChanged_only (s : State) (src : Nat) :
    OnlyChanges (.tick :: .firings :: sending) (Tick.TICK_STATE :: Tick.TICK_STATE_CHANGES :: sendIds) s (s.sourceChanged src) := by
  exact (tickToIf_spec s _ (by decide)).2

/-- The ring as the source stops or returns with the parent port. -/
def State.ringSource (s : State) (parent : Option Nat) : State := if parent.isSome then s.sourceReturned 4 else s.sourceStopped 4

theorem ringSource_spec (s : State) (parent : Option Nat) :
    (s.ringSource parent).tick.edgeAt = s.tick.edgeAt ∧
      OnlyChanges (.tick :: .firings :: sending) (Tick.TICK_STATE :: Tick.TICK_STATE_CHANGES :: sendIds) s (s.ringSource parent) := by
  unfold State.ringSource State.sourceReturned State.sourceStopped
  split
  · exact tickToIf_spec s _ (by decide)
  · exact tickToIf_spec s _ (by decide)

/-! ## Selection of the parent port (R330) -/

theorem rootConflict_spec (s : State) :
    s.rootConflict.ring.parent = s.ring.parent ∧ OnlyChanges (.ring :: sending) sendIds s s.rootConflict := by
  unfold State.rootConflict
  extract_lets own other
  cases other with
  | some r =>
    dsimp only
    split
    · exact ⟨rfl, .nothing s⟩
    · have hset := setRing_only s { s.ring with conflict := some r }
      have hsent := notify_only { s with ring := { s.ring with conflict := some r } } 1 7
        (leBytes 4 r ++ leBytes 4 s.tickSeq ++ leBytes 8 (ofSigned 64 0))
      have hparent := congrArg RingSt.parent (hsent.ring (by simp [sending]))
      exact ⟨hparent, (hset.trans hsent).mono (by simp) (by simp)⟩
  | none => exact ⟨rfl, (setRing_only s _).mono (by simp) (by simp)⟩

/-- The parent port that a selection takes. -/
def State.ringChoice (s : State) : Option Nat := if s.follower then s.bestParent else none

/-- The parent port is taken. -/
def State.parentTaken (s : State) : State :=
  { s with ring := { s.ring with parent := s.ringChoice, adopted := s.ring.adopted && s.ring.parent == s.ringChoice,
                                 edge := if s.ring.parent = s.ringChoice then s.ring.edge else none } }

/-- RING_HOPS and ROOT_ID are shown. -/
def State.hopsShown (s : State) (parent : Option Nat) : State :=
  if s.follower then
    (match parent with
     | some p => s.wrAll [(Ring.RING_HOPS, min 0xFFFF (s.neighbourHops p + 1)), (Ring.ROOT_ID, s.portRoot p % 65536)]
     | none => s.wrAll [(Ring.RING_HOPS, 0xFFFF), (Ring.ROOT_ID, 0)])
  else s.wrAll [(Ring.RING_HOPS, 0), (Ring.ROOT_ID, s.rd Ring.RING_ID)]

/-- The roles of ports are shown. -/
def State.rolesShown (s : State) (ports : List Nat) : State := ports.foldl (fun t p => t.wr (Ring.RING_PORT_ROLE p) (t.ringRole p)) s

theorem ringSelect_eq (s : State) :
    s.ringSelect = (((s.parentTaken.hopsShown s.ringChoice).rolesShown (List.range 4)).ringSource s.ringChoice).rootConflict := rfl

theorem hopsShown_only (s : State) (parent : Option Nat) : OnlyChanges [] [Ring.RING_HOPS, Ring.ROOT_ID] s (s.hopsShown parent) := by
  unfold State.hopsShown
  split
  · cases parent with
    | some p => exact (wr_only ..).trans (wr_only ..)
    | none => exact (wr_only ..).trans (wr_only ..)
  · exact (wr_only ..).trans (wr_only ..)

theorem rolesShown_only (s : State) (ports : List Nat) : OnlyChanges [] (ports.map Ring.RING_PORT_ROLE) s (s.rolesShown ports) :=
  .foldl ports (.nothing s) fun _ p hp => (wr_only ..).mono (by simp) (by simpa using ⟨p, hp, rfl⟩)

/-- The role of a port depends on its state, on the parent port and on what its neighbour says. -/
theorem OnlyChanges.ringRole {ids : List Nat} {s t : State} {p : Nat} (h : OnlyChanges [] ids s t) (hid : Ring.RING_PORT_STATE p ∉ ids) :
    t.ringRole p = s.ringRole p := by
  simp only [State.ringRole, h.rd hid, h.ring (by simp), h.ringPort (k := p) (by simp)]

theorem rolesShown_role {p : Fin 4} {ports : List Nat} (hin : p.val ∈ ports) (hports : ports.Nodup) (s : State) :
    (s.rolesShown ports).rd (Ring.RING_PORT_ROLE p) = s.ringRole p := by
  have hrole : s.ringRole p < 2 ^ 32 := by unfold State.ringRole; split <;> [skip; split <;> [skip; split]] <;> decide
  induction ports generalizing s with
  | nil => simp at hin
  | cons q rest ih =>
    obtain ⟨hq, hrest⟩ := List.nodup_cons.1 hports
    have hstep : OnlyChanges [] [Ring.RING_PORT_ROLE q] s (s.wr (Ring.RING_PORT_ROLE q) (s.ringRole q)) := wr_only ..
    by_cases hpq : p.val = q
    · have hkept := (rolesShown_only (s.wr (Ring.RING_PORT_ROLE q) (s.ringRole q)) rest).rd (id := Ring.RING_PORT_ROLE p) (by
        simp only [List.mem_map, Ring.RING_PORT_ROLE, not_exists, not_and]
        exact fun x hx heq => hq (by rwa [← hpq, show p.val = x by omega]))
      rw [show s.rolesShown (q :: rest) = (s.wr (Ring.RING_PORT_ROLE q) (s.ringRole q)).rolesShown rest from rfl, hkept, ← hpq]
      exact rd_wr_word (isWord_ringWords p _ (by simp [ringWords])) hrole s
    · have hsame := hstep.ringRole (p := p) (by simp only [List.mem_singleton, Ring.RING_PORT_STATE, Ring.RING_PORT_ROLE]; omega)
      rw [show s.rolesShown (q :: rest) = (s.wr (Ring.RING_PORT_ROLE q) (s.ringRole q)).rolesShown rest from rfl,
        ih ((List.mem_cons.1 hin).resolve_left hpq) hrest _ (by rwa [hsame]), hsame]

theorem ringSelect_spec (s : State) :
    s.ringSelect.ring.parent = s.ringChoice ∧ s.ringSelect.tick.edgeAt = s.tick.edgeAt ∧ OnlyChanges selectParts selectIds s s.ringSelect ∧
      s.ringSelect.rd Ring.RING_HOPS = (s.parentTaken.hopsShown s.ringChoice).rd Ring.RING_HOPS ∧
      ∀ p : Fin 4, s.ringSelect.rd (Ring.RING_PORT_ROLE p) = s.parentTaken.ringRole p := by
  have htaken : OnlyChanges [.ring] [] s s.parentTaken := setRing_only ..
  have hhops := hopsShown_only s.parentTaken s.ringChoice
  have hroles := rolesShown_only (s.parentTaken.hopsShown s.ringChoice) (List.range 4)
  rw [ringSelect_eq]
  generalize hr : (s.parentTaken.hopsShown s.ringChoice).rolesShown (List.range 4) = r at hroles
  obtain ⟨hedge, hsource⟩ := ringSource_spec r s.ringChoice
  obtain ⟨hparent, hconflict⟩ := rootConflict_spec (r.ringSource s.ringChoice)
  have hlate := hsource.trans hconflict
  have hlateIds (id : Nat) (hid : id ∉ Tick.TICK_STATE :: Tick.TICK_STATE_CHANGES :: sendIds) : (r.ringSource s.ringChoice).rootConflict.rd id = r.rd id :=
    hlate.rd (by simp at hid ⊢; tauto)
  refine ⟨?_, ?_, (((htaken.trans hhops).trans hroles).trans hlate).mono (by simp +contextual [selectParts, or_imp]) ?_, ?_, fun p => ?_⟩
  · rw [hparent, hsource.ring (by simp [sending]), hroles.ring (by simp), hhops.ring (by simp)]
    rfl
  · rw [hconflict.tick (by simp [sending]), hedge, hroles.tick (by simp), hhops.tick (by simp)]
    rfl
  · simp +contextual [selectIds, List.range_succ]
  · rw [hlateIds _ (by decide), hroles.rd (by decide)]
  · rw [hlateIds _ ((by decide : ∀ p : Fin 4, Ring.RING_PORT_ROLE p ∉ Tick.TICK_STATE :: Tick.TICK_STATE_CHANGES :: sendIds) p), ← hr,
      rolesShown_role (by simp) List.nodup_range, hhops.ringRole]
    simp only [List.mem_cons, List.not_mem_nil, or_false, Ring.RING_PORT_STATE, Ring.RING_HOPS, Ring.ROOT_ID]
    omega

/-- What a selection keeps of a port. -/
theorem ringSelect_rd (s : State) (p : Fin 4) {id : Nat} (hid : id ∈ ringKept p) : s.ringSelect.rd id = s.rd id :=
  (ringSelect_spec s).2.2.1.rd (ringKept_not_selected p id hid)

theorem ringSelect_ringPort (s : State) (p : Nat) : s.ringSelect.ringPort p = s.ringPort p :=
  (ringSelect_spec s).2.2.1.ringPort (by simp [selectParts, sending])

theorem ringUp_only {s : State} {p : Fin 4} (hup : s.rd (Ring.RING_PORT_STATE p) = 3) (hothers : ∀ q : Fin 4, q ≠ p → s.rd (Ring.RING_PORT_STATE q) ≠ 3) :
    s.ringUp = [p.val] := by
  have hstate (q : Fin 4) : (s.rd (Ring.RING_PORT_STATE q) == 3) = decide (q = p) := by
    by_cases h : q = p
    · simp [h, hup]
    · simp [h, hothers q h]
  have h0 := hstate 0
  have h1 := hstate 1
  have h2 := hstate 2
  have h3 := hstate 3
  simp only [Fin.val_zero, Fin.val_one, Fin.val_two, show (3 : Fin 4).val = 3 from rfl] at h0 h1 h2 h3
  simp only [State.ringUp, show List.range 4 = [0, 1, 2, 3] from rfl, List.filter_cons, h0, h1, h2, h3]
  fin_cases p <;> rfl

theorem bestParent_only {s : State} {p : Nat} (hup : s.ringUp = [p]) (hhops : s.neighbourHops p ≠ 0xFFFF) (hstatus : (s.ringPort p).status = true) :
    s.bestParent = some p := by
  simp [State.bestParent, hup, hhops, hstatus]

end Sys2Proof.Machine

/-! The messages of the ring (R331 to R334), and O35. -/

namespace Sys2Proof.Machine

theorem ringTo_spec (s : State) (p : Fin 4) {st : Nat} (hst : st < 2 ^ 32) :
    (s.ringTo p st).rd (Ring.RING_PORT_STATE p) = st ∧ OnlyChanges sending (Ring.RING_PORT_STATE p :: sendIds) s (s.ringTo p st) := by
  unfold State.ringTo
  split
  next h => exact ⟨h, .nothing s⟩
  next =>
    refine ⟨?_, ((wr_only ..).trans (notify_only ..)).mono (by simp) (by simp)⟩
    rw [State.linkNotify, (notify_only ..).rd ((by decide : ∀ p : Fin 4, Ring.RING_PORT_STATE p ∉ sendIds) p)]
    exact rd_wr_word (isWord_ringWords p _ (by simp [ringWords])) hst s

theorem exec_ringBlockLock {p : Fin 4} {s : State} (hruns : s.netRuns = true) (hdown : s.rd (Ring.RING_PORT_STATE p) = 1) :
    ∃ t, exec (.ringBlockLock p) s = .next t ∧ t.rd (Ring.RING_PORT_STATE p) = 2 ∧ (t.ringPort p).delays = [] ∧
      (t.ringPort p).status = false ∧ OnlyChanges (.ringPort p :: sending) (Ring.RING_PORT_STATE p :: sendIds) s t := by
  let u := s.setRingPort p { nextReq := (s.ringPort p).nextReq }
  have hu : OnlyChanges [.ringPort p] [] s u := setRingPort_only ..
  obtain ⟨hst, hto⟩ := ringTo_spec u p (st := 2) (by decide)
  have hport : (u.ringTo p 2).ringPort p = { nextReq := (s.ringPort p).nextReq } :=
    (hto.ringPort (by simp [sending])).trans (ringPort_setRingPort_same ..)
  exact ⟨u.ringTo p 2, congrArg Host.Outcome.next (if_pos ⟨hruns, hdown⟩), hst, by rw [hport], by rw [hport], hu.trans hto⟩

/-! ## STATUS (R331) -/

/-- A STATUS is kept. -/
def State.statusKept (s : State) (p : Nat) (block : BitVec 64) (child : Bool) : State :=
  (s.wr (Ring.NEIGHBOUR_STATUS p) (block.toNat / 256)).setRingPort p { s.ringPort p with status := true, child := child }

theorem statusKept_spec (s : State) (p : Fin 4) (block : BitVec 64) (child : Bool) :
    (s.statusKept p block child).rd (Ring.NEIGHBOUR_STATUS p) = block.toNat / 256 ∧
      (s.statusKept p block child).ringPort p = { s.ringPort p with status := true, child := child } ∧
      OnlyChanges [.ringPort p] [Ring.NEIGHBOUR_STATUS p] s (s.statusKept p block child) := by
  have hset := setRingPort_only (s.wr (Ring.NEIGHBOUR_STATUS p) (block.toNat / 256)) p { s.ringPort p with status := true, child := child }
  refine ⟨(hset.rd (by simp)).trans ?_, ringPort_setRingPort_same .., (wr_only ..).trans hset⟩
  exact rd_wr_long (isCounter_ringLongs p _ (by simp [ringLongs])) (by omega) s

/-- The only port UP leads to the root. -/
theorem ringSelect_leads {s : State} {p : Fin 4} (hup : s.ringUp = [p.val]) (hfollows : s.follower = true) (hstate : s.rd (Ring.RING_PORT_STATE p) = 3)
    (hhops : s.neighbourHops p ≠ 0xFFFF) (hstatus : (s.ringPort p).status = true) :
    s.ringSelect.ring.parent = some p.val ∧ s.ringSelect.rd (Ring.RING_PORT_ROLE p) = 1 ∧
      (s.neighbourHops p < 0xFFFF → s.ringSelect.rd Ring.RING_HOPS = s.neighbourHops p + 1) := by
  obtain ⟨hparent, -, -, hshown, hrole⟩ := ringSelect_spec s
  have hchoice : s.ringChoice = some p.val := by rw [State.ringChoice, if_pos hfollows, bestParent_only hup hhops hstatus]
  refine ⟨hparent.trans hchoice, (hrole p).trans ?_, fun hlt => hshown.trans ?_⟩
  · rw [State.ringRole, if_neg (show ¬s.parentTaken.rd (Ring.RING_PORT_STATE p) ≠ 3 from fun h => h hstate), if_pos (show s.parentTaken.ring.parent = _ from hchoice)]
  · have hpair : s.parentTaken.hopsShown (some p.val) =
        (s.parentTaken.wr Ring.RING_HOPS (min 0xFFFF (s.neighbourHops p + 1))).wr Ring.ROOT_ID (s.parentTaken.portRoot p % 65536) := by
      rw [State.hopsShown, if_pos (show s.parentTaken.follower = true from hfollows), ← show s.parentTaken.neighbourHops p = s.neighbourHops p from rfl]
      exact wrAll_pair ..
    rw [hchoice, hpair, (wr_only ..).rd (by decide), rd_wr_word (isWord_ringWords p _ (by simp [ringWords])) (by omega)]
    omega

theorem bits_div (v a b : Nat) : bits (v / 256) a b = bits v (a + 8) (b + 8) := by
  have hdiv : v / 256 / 2 ^ b = v / 2 ^ (b + 8) := by rw [Nat.div_div_eq_div_mul, Nat.mul_comm, Nat.pow_add]
  simp only [bits, hdiv, show a + 8 + 1 - (b + 8) = a + 1 - b by omega]

theorem neighbourHops_eq {s : State} {p : Nat} {v : Nat} (h : s.rd (Ring.NEIGHBOUR_STATUS p) = v / 256) : s.neighbourHops p = bits v 47 32 := by
  rw [State.neighbourHops, h, bits_div]

theorem ringStatusRx_leads {p : Fin 4} {block : BitVec 64} (child : Bool) {s : State} (hstate : s.rd (Ring.RING_PORT_STATE p) = 3)
    (hfollows : s.follower = true) (hothers : ∀ q : Fin 4, q ≠ p → s.rd (Ring.RING_PORT_STATE q) ≠ 3) (hhops : bits block.toNat 47 32 ≠ 0xFFFF) :
    ∃ t, exec (.ringStatusRx p block child) s = .next t ∧ (t.ringPort p).child = child ∧ t.rd (Ring.NEIGHBOUR_STATUS p) = block.toNat / 256 ∧
      t.ring.parent = some p.val ∧ t.rd Ring.RING_HOPS = bits block.toNat 47 32 + 1 ∧ t.rd (Ring.RING_PORT_ROLE p) = 1 ∧
      (t.ringPort p).status = true := by
  obtain ⟨hrd, hport, hu⟩ := statusKept_spec s p block child
  generalize hkept : s.statusKept p block child = u at hrd hport hu
  have hstates (q : Fin 4) : u.rd (Ring.RING_PORT_STATE q) = s.rd (Ring.RING_PORT_STATE q) :=
    hu.rd ((by decide : ∀ p q : Fin 4, Ring.RING_PORT_STATE q ∉ [Ring.NEIGHBOUR_STATUS p]) p q)
  have hup : u.ringUp = [p.val] := ringUp_only ((hstates p).trans hstate) fun q hq => by rw [hstates q]; exact hothers q hq
  have hsource : u.follower = true := by
    rw [State.follower, hu.rd ((by decide : ∀ p : Fin 4, Tick.TICK_SOURCE ∉ [Ring.NEIGHBOUR_STATUS p]) p)]
    exact hfollows
  have hnear : u.neighbourHops p = bits block.toNat 47 32 := neighbourHops_eq hrd
  have hbound : bits block.toNat 47 32 < 2 ^ 16 := Nat.mod_lt _ (by decide)
  obtain ⟨hparent, hrole, hshown⟩ := ringSelect_leads hup hsource ((hstates p).trans hstate) (by rwa [hnear]) (by rw [hport])
  have hmeasured : u.ringMeasured p = u := if_neg fun h => by
    have := (hstates p).trans hstate
    omega
  generalize hv : u.ringSelect = v at hparent hrole hshown
  have hport' : v.ringPort p = u.ringPort p := hv ▸ ringSelect_ringPort u p
  have hrd' : v.rd (Ring.NEIGHBOUR_STATUS p) = block.toNat / 256 := (hv ▸ ringSelect_rd u p (by simp [ringKept])).trans hrd
  let b : Prop := v.tick.src = 4 ∧ v.ring.parent = some p ∧ !v.ringRateOk
  have hlast : OnlyChanges (.tick :: .firings :: sending) (Tick.TICK_STATE :: Tick.TICK_STATE_CHANGES :: sendIds) v
      (if b then v.sourceChanged 4 else v) := by
    split
    · exact sourceChanged_only v 4
    · exact .nothing v
  have hexec : exec (.ringStatusRx p block child) s = .next (if b then v.sourceChanged 4 else v) := by
    show execRingStatusRx p block child s = _
    unfold execRingStatusRx
    dsimp only
    rw [if_neg (by omega)]
    change Host.Outcome.next (let w := ((s.statusKept p block child).ringMeasured p).ringSelect
      if w.tick.src = 4 ∧ w.ring.parent = some p ∧ !w.ringRateOk then w.sourceChanged 4 else w) = _
    rw [hkept, hmeasured, hv]
  have hids : ∀ p : Fin 4, ∀ id ∈ [Ring.NEIGHBOUR_STATUS p, Ring.RING_HOPS, Ring.RING_PORT_ROLE p],
      id ∉ Tick.TICK_STATE :: Tick.TICK_STATE_CHANGES :: sendIds := by decide
  refine ⟨_, hexec, ?_, ?_, ?_, ?_, ?_, ?_⟩
  · rw [hlast.ringPort (by simp [sending]), hport', hport]
  · rw [hlast.rd (hids p _ (by simp)), hrd']
  · rw [hlast.ring (by simp [sending]), hparent]
  · rw [hlast.rd (hids p _ (by simp)), hshown (by omega), hnear]
  · rw [hlast.rd (hids p _ (by simp)), hrole]
  · rw [hlast.ringPort (by simp [sending]), hport', hport]

/-! ## A link that is lost (R335) -/

/-- A port that was UP leaves the ring. -/
def State.ringLeft (s : State) (p : Nat) : State :=
  if s.ring.parent = some p then ((((s.count Ring.RING_BREAKS).count Ring.REPARENTS).sourceStopped 4).linkNotify 0x0402 p 0 0).ringSelect else s.ringSelect

/-- What the break of the ring counts before a parent is selected again. -/
theorem ringLeft_spec (s : State) (p : Fin 4) :
    (∀ id ∈ [Ring.RING_PORT_STATE p, Ring.RING_HEADER_ERR p, Ring.RING_LINK_LOSS p], (s.ringLeft p).rd id = s.rd id) ∧
      (s.ringLeft p).ringPort p = s.ringPort p ∧
      (s.ring.parent = some p.val → (s.ringLeft p).rd Ring.RING_BREAKS = countUp (s.rd Ring.RING_BREAKS) 1) := by
  have hkept : ∀ p : Fin 4, ∀ id ∈ [Ring.RING_PORT_STATE p, Ring.RING_HEADER_ERR p, Ring.RING_LINK_LOSS p],
      id ∈ ringKept p ∧ id ∉ Ring.RING_BREAKS :: Ring.REPARENTS :: Tick.TICK_STATE :: Tick.TICK_STATE_CHANGES :: sendIds := by decide
  by_cases hparent : s.ring.parent = some p.val
  · let u := (s.count Ring.RING_BREAKS).count Ring.REPARENTS
    let v := (u.sourceStopped 4).linkNotify 0x0402 p 0 0
    have heq : s.ringLeft p = v.ringSelect := if_pos hparent
    have hu : OnlyChanges [] [Ring.RING_BREAKS, Ring.REPARENTS] s u := (count_only ..).trans (count_only ..)
    have hv : OnlyChanges (.tick :: .firings :: sending) (Tick.TICK_STATE :: Tick.TICK_STATE_CHANGES :: sendIds) u v :=
      ((sourceStopped_only u 4).trans (notify_only ..)).mono (by simp +contextual [or_imp]) (by simp +contextual)
    have hbreaks : u.rd Ring.RING_BREAKS = countUp (s.rd Ring.RING_BREAKS) 1 := by
      rw [(count_only ..).rd (by decide), rd_count_counter (isCounter_ringLongs p _ (by simp [ringLongs]))]
    refine ⟨fun id hid => ?_, ?_, fun _ => ?_⟩
    · obtain ⟨hmem, hfree⟩ := hkept p id hid
      rw [heq, ringSelect_rd v p hmem, (hu.trans hv).rd (by simpa using hfree)]
    · rw [heq, ringSelect_ringPort, (hu.trans hv).ringPort (by simp [sending])]
    · rw [heq, ringSelect_rd v p (by simp [ringKept]), hv.rd (by decide), hbreaks]
  · have heq : s.ringLeft p = s.ringSelect := if_neg hparent
    refine ⟨fun id hid => ?_, ?_, fun h => absurd h hparent⟩
    · rw [heq, ringSelect_rd s p (hkept p id hid).1]
    · rw [heq, ringSelect_ringPort]

/-- A port stands in DOWN again. -/
def State.ringDown (s : State) (p : Nat) : State := (s.ringTo p 1).setRingPort p { nextReq := (s.ringPort p).nextReq }

theorem ringDown_spec (s : State) (p : Fin 4) :
    (s.ringDown p).rd (Ring.RING_PORT_STATE p) = 1 ∧ ((s.ringDown p).ringPort p).delays = [] ∧
      OnlyChanges (.ringPort p :: sending) (Ring.RING_PORT_STATE p :: sendIds) s (s.ringDown p) := by
  obtain ⟨hst, hto⟩ := ringTo_spec s p (st := 1) (by decide)
  have hset := setRingPort_only (s.ringTo p 1) p { nextReq := (s.ringPort p).nextReq }
  refine ⟨(hset.rd (by simp)).trans hst, ?_, (hto.trans hset).mono (by simp +contextual [or_imp]) (by simp)⟩
  rw [State.ringDown, ringPort_setRingPort_same]

theorem ringLeave_eq (s : State) (p : Nat) :
    s.ringLeave p 1 = if s.rd (Ring.RING_PORT_STATE p) = 3 then (s.ringDown p).ringLeft p else s.ringDown p := by
  unfold State.ringLeave
  dsimp only
  simp only [decide_eq_true_eq]
  rfl

theorem ringLinkLoss_counts {p : Fin 4} (n : Nat) {s : State} (hstate : s.rd (Ring.RING_PORT_STATE p) = 2 ∨ s.rd (Ring.RING_PORT_STATE p) = 3) :
    ∃ t, exec (.ringLinkLoss p n) s = .next t ∧ t.rd (Ring.RING_PORT_STATE p) = 1 ∧ (t.ringPort p).delays = [] ∧
      t.rd (Ring.RING_HEADER_ERR p) = countUp (s.rd (Ring.RING_HEADER_ERR p)) n ∧
      t.rd (Ring.RING_LINK_LOSS p) =
        (if s.rd (Ring.RING_PORT_STATE p) = 3 then countUp (s.rd (Ring.RING_LINK_LOSS p)) 1 else s.rd (Ring.RING_LINK_LOSS p)) ∧
      (s.rd (Ring.RING_PORT_STATE p) = 3 → s.ring.parent = some p.val → t.rd Ring.RING_BREAKS = countUp (s.rd Ring.RING_BREAKS) 1) := by
  have hids : ∀ p : Fin 4, (∀ id ∈ [Ring.RING_PORT_STATE p, Ring.RING_LINK_LOSS p, Ring.RING_BREAKS], id ∉ [Ring.RING_HEADER_ERR p]) ∧
      (∀ id ∈ [Ring.RING_PORT_STATE p, Ring.RING_HEADER_ERR p, Ring.RING_BREAKS], id ∉ [Ring.RING_LINK_LOSS p]) ∧
      ∀ id ∈ [Ring.RING_HEADER_ERR p, Ring.RING_LINK_LOSS p, Ring.RING_BREAKS], id ∉ Ring.RING_PORT_STATE p :: sendIds := by decide
  obtain ⟨herr, hloss, hdown⟩ := hids p
  let u := s.countBy (Ring.RING_HEADER_ERR p) n
  have hu : OnlyChanges [] [Ring.RING_HEADER_ERR p] s u := countBy_only ..
  have hcounted : u.rd (Ring.RING_HEADER_ERR p) = countUp (s.rd (Ring.RING_HEADER_ERR p)) n :=
    rd_countBy_counter (isCounter_ringLongs p _ (by simp [ringLongs])) n s
  have hst : u.rd (Ring.RING_PORT_STATE p) = s.rd (Ring.RING_PORT_STATE p) := hu.rd (herr _ (by simp))
  by_cases hup : s.rd (Ring.RING_PORT_STATE p) = 3
  · let v := u.count (Ring.RING_LINK_LOSS p)
    have hv : OnlyChanges [] [Ring.RING_LINK_LOSS p] u v := count_only ..
    have hvst : v.rd (Ring.RING_PORT_STATE p) = 3 := (hv.rd (hloss _ (by simp))).trans (hst.trans hup)
    obtain ⟨hone, hnone, hw⟩ := ringDown_spec v p
    obtain ⟨hkept, hport, hbreaks⟩ := ringLeft_spec (v.ringDown p) p
    have hleave : v.ringLeave p 1 = (v.ringDown p).ringLeft p := by rw [ringLeave_eq, if_pos hvst]
    have hexec : exec (.ringLinkLoss p n) s = .next ((v.ringDown p).ringLeft p) :=
      congrArg Host.Outcome.next ((if_pos (hst.trans hup)).trans hleave)
    refine ⟨_, hexec, ?_, ?_, ?_, ?_, fun _ hparent => ?_⟩
    · rw [hkept _ (by simp), hone]
    · rw [hport, hnone]
    · rw [hkept _ (by simp), hw.rd (hdown _ (by simp)), hv.rd (hloss _ (by simp)), hcounted]
    · rw [hkept _ (by simp), hw.rd (hdown _ (by simp)), rd_count_counter (isCounter_ringLongs p _ (by simp [ringLongs])), hu.rd (herr _ (by simp)), if_pos hup]
    · rw [hbreaks (by rw [hw.ring (by simp [sending]), hv.ring (by simp), hu.ring (by simp), hparent]), hw.rd (hdown _ (by simp)),
        hv.rd (hloss _ (by simp)), hu.rd (herr _ (by simp))]
  · have htwo : s.rd (Ring.RING_PORT_STATE p) = 2 := hstate.resolve_right hup
    obtain ⟨hone, hnone, hw⟩ := ringDown_spec u p
    have hexec : exec (.ringLinkLoss p n) s = .next (u.ringDown p) := by
      show execRingLinkLoss p n s = _
      unfold execRingLinkLoss
      dsimp only
      rw [if_neg (by rw [show State.rd _ _ = _ from hst]; exact hup), if_pos (hst.trans htwo), ringLeave_eq, if_neg (by rw [hst]; exact hup)]
    refine ⟨_, hexec, hone, hnone, ?_, ?_, fun h => absurd h hup⟩
    · rw [hw.rd (hdown _ (by simp)), hcounted]
    · rw [hw.rd (hdown _ (by simp)), hu.rd (herr _ (by simp)), if_neg hup]

end Sys2Proof.Machine

/-! Periodic sending, delays, ticks and events of the ring (R331 to R334), and O35. -/

namespace Sys2Proof.Machine

theorem ringSend_only (s : State) (p type fields : Nat) : OnlyChanges [.out] [] s (s.ringSend p type fields) := emitQuiet_only s rfl

theorem ringSend_out (s : State) (p type fields : Nat) : (s.ringSend p type fields).out = .ringBlock p type (fields * 256 + type) :: s.out := emit_out ..

/-! ## Periodic sending (R331, R332) -/

/-- A DELAY_REQ leaves a port whose link is measured. -/
def State.delayAsked (s : State) (p : Nat) : State :=
  if s.rd (Ring.RING_PORT_STATE p) < 2 then s
  else (s.setRingPort p { s.ringPort p with req := some (s.ringPort p).nextReq, nextReq := ((s.ringPort p).nextReq + 1) % 256 }).ringSend p
    RingType.DELAY_REQ (s.ringPort p).nextReq

/-- What one port sends every millisecond. -/
def State.portSends (s : State) (p : Nat) : State :=
  if s.rd (Ring.RING_PORT_STATE p) = 0 then s else ((s.ringSend p RingType.STATUS s.statusFields).delayAsked p).ringSend p RingType.IDLE 0

theorem exec_ringPeriodicSend {s : State} (hruns : s.netRuns = true) :
    exec .ringPeriodicSend s = .next ((List.range 4).foldl State.portSends
      { s.at (s.ring.sentAt + 1000000) with ring := { s.ring with sentAt := (s.at (s.ring.sentAt + 1000000)).clock } }) :=
  congrArg Host.Outcome.next (if_pos hruns)

theorem delayAsked_only (s : State) (p : Nat) : OnlyChanges [.out, .ringPort p] [] s (s.delayAsked p) := by
  unfold State.delayAsked
  split
  · exact .nothing s
  · exact ((setRingPort_only ..).trans (ringSend_only ..)).mono (by simp) (by simp)

theorem delayAsked_sends {s : State} {p : Nat} (hup : 2 ≤ s.rd (Ring.RING_PORT_STATE p)) :
    (s.delayAsked p).out = .ringBlock p RingType.DELAY_REQ ((s.ringPort p).nextReq * 256 + RingType.DELAY_REQ) :: s.out ∧
      (s.delayAsked p).ringPort p = { s.ringPort p with req := some (s.ringPort p).nextReq, nextReq := ((s.ringPort p).nextReq + 1) % 256 } := by
  rw [State.delayAsked, if_neg (by omega)]
  exact ⟨ringSend_out .., ((ringSend_only ..).ringPort (by simp)).trans (ringPort_setRingPort_same ..)⟩

theorem delayAsked_suffix (s : State) (p : Nat) : s.out <:+ (s.delayAsked p).out := by
  by_cases h : 2 ≤ s.rd (Ring.RING_PORT_STATE p)
  · rw [(delayAsked_sends h).1]
    exact List.suffix_cons ..
  · rw [State.delayAsked, if_pos (by omega)]

theorem portSends_only (s : State) (p : Nat) : OnlyChanges [.out, .ringPort p] [] s (s.portSends p) := by
  unfold State.portSends
  split
  · exact .nothing s
  · exact (((ringSend_only ..).trans (delayAsked_only ..)).trans (ringSend_only ..)).mono (by simp) (by simp)

/-- What a port has sent in one period. -/
def PortSent (s : State) (p : Nat) (t : State) : Prop :=
  (s.rd (Ring.RING_PORT_STATE p) ≠ 0 → .ringBlock p RingType.STATUS (s.statusFields * 256 + RingType.STATUS) ∈ t.out) ∧
  (2 ≤ s.rd (Ring.RING_PORT_STATE p) →
    .ringBlock p RingType.DELAY_REQ ((s.ringPort p).nextReq * 256 + RingType.DELAY_REQ) ∈ t.out ∧ (t.ringPort p).req = some (s.ringPort p).nextReq ∧
    (t.ringPort p).nextReq = ((s.ringPort p).nextReq + 1) % 256)

theorem portSends_sent (s : State) (p : Nat) : PortSent s p (s.portSends p) := by
  let u := s.ringSend p RingType.STATUS s.statusFields
  have hu : OnlyChanges [.out] [] s u := ringSend_only ..
  have hout : u.out = .ringBlock p RingType.STATUS (s.statusFields * 256 + RingType.STATUS) :: s.out := ringSend_out ..
  have hsent (h : s.rd (Ring.RING_PORT_STATE p) ≠ 0) : s.portSends p = (u.delayAsked p).ringSend p RingType.IDLE 0 := if_neg h
  refine ⟨fun h => ?_, fun h => ?_⟩
  · rw [hsent h, ringSend_out]
    exact List.mem_cons_of_mem _ ((delayAsked_suffix u p).mem (hout ▸ List.mem_cons_self ..))
  · obtain ⟨hasked, hport⟩ := delayAsked_sends (s := u) (p := p) (by rwa [hu.rd (by simp)])
    have hsame : u.ringPort p = s.ringPort p := hu.ringPort (by simp)
    rw [hsent (by omega), ringSend_out, (ringSend_only ..).ringPort (by simp), hasked, hport, hsame]
    exact ⟨by simp, rfl, rfl⟩

theorem portSends_suffix (s : State) (p : Nat) : s.out <:+ (s.portSends p).out := by
  unfold State.portSends
  split
  · exact List.suffix_rfl
  · rw [ringSend_out]
    exact ((List.suffix_cons ..).trans ((ringSend_out ..) ▸ delayAsked_suffix _ p)).trans (List.suffix_cons ..)

theorem allSend_suffix (ports : List Nat) (s : State) : s.out <:+ (ports.foldl State.portSends s).out := by
  induction ports generalizing s with
  | nil => exact List.suffix_rfl
  | cons q rest ih => exact (portSends_suffix s q).trans (ih _)

theorem allSend_only (ports : List Nat) (s : State) : OnlyChanges (.out :: ports.map .ringPort) [] s (ports.foldl State.portSends s) :=
  .foldl ports (.nothing s) fun t q hq => (portSends_only t q).mono (by simpa using hq) (by simp)

theorem OnlyChanges.statusFields {ps : List Part} {s t : State} (h : OnlyChanges ps [] s t) (hpow : .pow ∉ ps) : t.statusFields = s.statusFields := by
  have hpow' : t.pow = s.pow := h.2.1 .pow hpow
  have hrd (id : Nat) : t.rd id = s.rd id := h.rd (by simp)
  rw [State.statusFields, State.statusFields, State.rateCheck, State.rateCheck, hpow', hrd, hrd, hrd, hrd, hrd]

theorem allSend_sent {p : Nat} {ports : List Nat} (hin : p ∈ ports) (hports : ports.Nodup) (s : State) :
    PortSent s p (ports.foldl State.portSends s) := by
  induction ports generalizing s with
  | nil => simp at hin
  | cons q rest ih =>
    obtain ⟨hq, hrest⟩ := List.nodup_cons.1 hports
    have hstep := portSends_only s q
    by_cases hpq : p = q
    · subst hpq
      obtain ⟨hstatus, hdelay⟩ := portSends_sent s p
      have hkept : (rest.foldl State.portSends (s.portSends p)).ringPort p = (s.portSends p).ringPort p :=
        (allSend_only rest _).ringPort (by simpa using hq)
      have hgrows := allSend_suffix rest (s.portSends p)
      refine ⟨fun h => hgrows.mem (hstatus h), fun h => ?_⟩
      obtain ⟨hmem, hreq, hnext⟩ := hdelay h
      exact ⟨hgrows.mem hmem, (congrArg RingPort.req hkept).trans hreq, (congrArg RingPort.nextReq hkept).trans hnext⟩
    · have hlater := ih ((List.mem_cons.1 hin).resolve_left hpq) hrest (s.portSends q)
      rwa [PortSent, hstep.rd (by simp), hstep.ringPort (by simpa using hpq), hstep.statusFields (by simp)] at hlater

theorem ringPeriodicSend_sends (p : Fin 4) {s : State} (hruns : s.netRuns = true) :
    ∃ t, exec .ringPeriodicSend s = .next t ∧ t.clock = max s.clock (s.ring.sentAt + 1000000) ∧ t.ring.sentAt = t.clock ∧
      (s.rd (Ring.RING_PORT_STATE p) ≠ 0 → .ringBlock p RingType.STATUS (s.statusFields * 256 + RingType.STATUS) ∈ t.out) ∧
      (2 ≤ s.rd (Ring.RING_PORT_STATE p) →
        .ringBlock p RingType.DELAY_REQ ((s.ringPort p).nextReq * 256 + RingType.DELAY_REQ) ∈ t.out ∧ (t.ringPort p).req = some (s.ringPort p).nextReq ∧
        (t.ringPort p).nextReq = ((s.ringPort p).nextReq + 1) % 256) ∧
      OnlyChanges [.clock, .ring, .out, .ringPort 0, .ringPort 1, .ringPort 2, .ringPort 3] [] s t := by
  let a := s.at (s.ring.sentAt + 1000000)
  let u : State := { a with ring := { s.ring with sentAt := a.clock } }
  have hu : OnlyChanges [.clock, .ring] [] s u := (at_only ..).trans (setRing_only ..)
  have hsend := allSend_only (List.range 4) u
  have hfields : u.statusFields = s.statusFields := hu.statusFields (by simp)
  have hsent := allSend_sent (List.mem_range.2 p.isLt) List.nodup_range u
  rw [PortSent, hu.rd (by simp), hu.ringPort (by simp), hfields] at hsent
  have hring := hsend.ring (by simp)
  refine ⟨_, exec_ringPeriodicSend hruns, hsend.clock (by simp), ?_, hsent.1, hsent.2, (hu.trans hsend).mono ?_ (by simp)⟩
  · exact (congrArg RingSt.sentAt hring).trans (hsend.clock (by simp)).symm
  · simp [List.range_succ]

/-! ## Delay measurements (R332) -/

theorem ringDelayReqRx_answers {p : Fin 4} (block : BitVec 64) (n : Nat) {s : State} (hup : 2 ≤ s.rd (Ring.RING_PORT_STATE p)) :
    ∃ t, exec (.ringDelayReqRx p block n) s = .next t ∧
      t.out = .ringBlock p RingType.DELAY_RESP ((bits block.toNat 15 8 * 2 ^ 48 + n % 2 ^ 48) * 256 + RingType.DELAY_RESP) :: s.out ∧
      OnlyChanges [.out] [] s t :=
  ⟨_, congrArg Host.Outcome.next (if_neg (by omega)), ringSend_out .., ringSend_only ..⟩

/-- A measurement is kept, and HOP_DELAY is the mean of the last 16. -/
def State.delayKept (s : State) (p : Nat) (ds : List Nat) : State :=
  (s.setRingPort p { s.ringPort p with delays := ds, req := none }).wr (Ring.HOP_DELAY p) (ds.sum / ds.length)

theorem rd_wr_isWord {id : Nat} (h : isWord id = true) (v : Nat) (s : State) : (s.wr id v).rd id = v % 2 ^ 32 := by
  obtain ⟨p, hp, hrow⟩ := (Option.any_eq_true _ _).1 h
  simp only [Bool.and_eq_true, Bool.not_eq_true', beq_iff_eq] at hrow
  rw [rd_wr_same hp hrow.1, hrow.2]

theorem delayKept_spec (s : State) (p : Fin 4) (ds : List Nat) :
    (s.delayKept p ds).rd (Ring.HOP_DELAY p) = (ds.sum / ds.length) % 2 ^ 32 ∧
      (s.delayKept p ds).ringPort p = { s.ringPort p with delays := ds, req := none } ∧
      OnlyChanges [.ringPort p] [Ring.HOP_DELAY p] s (s.delayKept p ds) := by
  refine ⟨rd_wr_isWord (isWord_ringWords p _ (by simp [ringWords])) .., ?_, (setRingPort_only ..).trans (wr_only ..)⟩
  rw [State.delayKept, (wr_only ..).ringPort (by simp), ringPort_setRingPort_same]

theorem ringMeasured_up {s : State} {p : Fin 4} (hstate : s.rd (Ring.RING_PORT_STATE p) = 2) (hdelays : (s.ringPort p).delays.length = 16)
    (hstatus : (s.ringPort p).status = true) : (s.ringMeasured p).rd (Ring.RING_PORT_STATE p) = 3 := by
  rw [State.ringMeasured, if_pos ⟨hstate, hdelays, hstatus⟩, ringSelect_rd _ p (by simp [ringKept])]
  exact (ringTo_spec s p (by decide)).1

theorem ringMeasured_keeps (s : State) (p : Fin 4) :
    (s.ringMeasured p).rd (Ring.HOP_DELAY p) = s.rd (Ring.HOP_DELAY p) ∧ (s.ringMeasured p).ringPort p = s.ringPort p := by
  unfold State.ringMeasured
  split
  · have hto := (ringTo_spec s p (st := 3) (by decide)).2
    refine ⟨?_, by rw [ringSelect_ringPort, hto.ringPort (by simp [sending])]⟩
    rw [ringSelect_rd _ p (by simp [ringKept]), hto.rd ((by decide : ∀ p : Fin 4, Ring.HOP_DELAY p ∉ Ring.RING_PORT_STATE p :: sendIds) p)]
  · exact ⟨rfl, rfl⟩

theorem ringDelayRespRx_measures {p : Fin 4} {block : BitVec 64} (n : Nat) {s : State} (hup : 2 ≤ s.rd (Ring.RING_PORT_STATE p))
    (hreq : (s.ringPort p).req = some (bits block.toNat 63 56)) :
    let ds := (hopDelayPs n (bits block.toNat 55 8) :: (s.ringPort p).delays).take 16
    ∃ t, exec (.ringDelayRespRx p block n) s = .next t ∧ t.rd (Ring.HOP_DELAY p) = (ds.sum / ds.length) % 2 ^ 32 ∧
      (t.ringPort p).delays = ds ∧ (t.ringPort p).req = none ∧
      (s.rd (Ring.RING_PORT_STATE p) = 3 → OnlyChanges [.ringPort p] [Ring.HOP_DELAY p] s t) ∧
      (s.rd (Ring.RING_PORT_STATE p) = 2 → ds.length = 16 → (s.ringPort p).status = true → t.rd (Ring.RING_PORT_STATE p) = 3) := by
  intro ds
  obtain ⟨hmean, hport, hu⟩ := delayKept_spec s p ds
  obtain ⟨hkept, hkeptPort⟩ := ringMeasured_keeps (s.delayKept p ds) p
  have hst : (s.delayKept p ds).rd (Ring.RING_PORT_STATE p) = s.rd (Ring.RING_PORT_STATE p) :=
    hu.rd ((by decide : ∀ p : Fin 4, Ring.RING_PORT_STATE p ∉ [Ring.HOP_DELAY p]) p)
  have hexec : exec (.ringDelayRespRx p block n) s = .next ((s.delayKept p ds).ringMeasured p) :=
    congrArg Host.Outcome.next (if_neg (by simp [hreq]; omega))
  refine ⟨_, hexec, hkept.trans hmean, by rw [hkeptPort, hport], by rw [hkeptPort, hport], fun h => ?_, fun h hlen hstatus => ?_⟩
  · rw [State.ringMeasured, if_neg (by rw [hst, h]; simp)]
    exact hu
  · exact ringMeasured_up (hst.trans h) (by rw [hport]; exact hlen) (by rw [hport]; exact hstatus)

end Sys2Proof.Machine

/-! Ticks and events of the ring (R332 to R334), and O35. -/

namespace Sys2Proof.Machine

/-! ## Ticks (R332, R333) -/

/-- What a tick moves after its error is reported. -/
def tickParts : List Part := .time :: .ring :: .tick :: .blob Time.TIME_STEP_LOG :: .firings :: sending

/-- What it writes then, beside HOP_EXHAUSTED. -/
def tickIds : List Nat := Time.TIME_STATE :: Time.TIME_EPOCH :: Time.TIME_STEPS :: Tick.TICK_SEQUENCE :: Ring.TICK_SEQ_JUMPS :: sendIds

theorem servo_only (s : State) (offset : Int) :
    OnlyChanges (.time :: .tick :: .blob Time.TIME_STEP_LOG :: .firings :: sending) (Time.TIME_STATE :: Time.TIME_EPOCH :: Time.TIME_STEPS :: sendIds) s
      (s.servo offset) := by
  by_cases h : (s.rd Time.TIME_STEP_THRESHOLD : Int) < |offset|
  · rw [servo_steps h]
    exact (timeStep_spec s _).2.2.2.2.mono (by simp) (by simp +contextual)
  · exact (servo_locks (by omega)).2.mono (by simp [sending]) (by simp)

/-- The state after an adoption of the Time Epoch. -/
def State.epochAdopted (s : State) (epoch : Nat) : State := ({ s with ring := { s.ring with adopted := true } }).wr Time.TIME_EPOCH epoch

theorem ringAdopt_eq (s : State) (seq epoch : Nat) :
    s.ringAdopt seq epoch =
      if s.rd Tick.TICK_STATE = TickState.LOCKED ∧ s.tick.src = 4 ∧ !s.ring.adopted then
        if s.tickSeq = seq then s.epochAdopted epoch
        else (((s.epochAdopted epoch).wr Tick.TICK_SEQUENCE seq).count Ring.TICK_SEQ_JUMPS).tickNotify 6 ((seq : Int) - s.tickSeq) seq 0
      else s := rfl

theorem ringAdopt_spec (s : State) (seq epoch : Nat) :
    (s.ringAdopt seq epoch).ring.parent = s.ring.parent ∧ (s.ringAdopt seq epoch).ring.edge = s.ring.edge ∧
      OnlyChanges (.ring :: sending) (Time.TIME_EPOCH :: Tick.TICK_SEQUENCE :: Ring.TICK_SEQ_JUMPS :: sendIds) s (s.ringAdopt seq epoch) := by
  let u : State := { s with ring := { s.ring with adopted := true } }
  have hu : OnlyChanges [.ring] [Time.TIME_EPOCH] s (s.epochAdopted epoch) := (setRing_only s _).trans (wr_only u ..)
  have hring : (s.epochAdopted epoch).ring = { s.ring with adopted := true } := (wr_only u ..).ring (by simp)
  rw [ringAdopt_eq]
  split
  · split
    · exact ⟨by rw [hring], by rw [hring], hu.mono (by simp) (by simp)⟩
    · let v := ((s.epochAdopted epoch).wr Tick.TICK_SEQUENCE seq).count Ring.TICK_SEQ_JUMPS
      have hv : OnlyChanges [] [Tick.TICK_SEQUENCE, Ring.TICK_SEQ_JUMPS] (s.epochAdopted epoch) v := (wr_only ..).trans (count_only ..)
      have ht : OnlyChanges sending sendIds v (v.tickNotify 6 ((seq : Int) - s.tickSeq) seq 0) := notify_only ..
      have hkept : (v.tickNotify 6 ((seq : Int) - s.tickSeq) seq 0).ring = { s.ring with adopted := true } :=
        ((hv.trans ht).ring (by simp [sending])).trans hring
      exact ⟨(congrArg RingSt.parent hkept :), (congrArg RingSt.edge hkept :), ((hu.trans hv).trans ht).mono (by simp) (by simp)⟩
  · exact ⟨rfl, rfl, .nothing s⟩

theorem ringTick_only (s : State) (hops seq time epoch root : Nat) : OnlyChanges [.out, .free] [] s (s.ringTick hops seq time epoch root) := by
  refine .foldl _ (.nothing s) fun t p _ => ?_
  dsimp only
  split
  · exact ((((draw_only t).trans (ringSend_only ..)).trans (ringSend_only ..)).trans (ringSend_only ..)).mono (by simp) (by simp)
  · exact .nothing t

/-- A tick that has passed 65,535 devices goes no further. -/
def State.tickForwarded (s : State) (hops seq time epoch root : Nat) : State :=
  if hops = 0xFFFF then s.count Ring.HOP_EXHAUSTED else s.ringTick (hops + 1) seq time epoch root

theorem tickForwarded_spec (s : State) (hops seq time epoch root : Nat) :
    (hops = 0xFFFF → (s.tickForwarded hops seq time epoch root).rd Ring.HOP_EXHAUSTED = countUp (s.rd Ring.HOP_EXHAUSTED) 1) ∧
      OnlyChanges [.out, .free] [Ring.HOP_EXHAUSTED] s (s.tickForwarded hops seq time epoch root) := by
  unfold State.tickForwarded
  split
  next h => exact ⟨fun _ => rd_count_counter (isCounter_ringLongs 0 _ (by simp [ringLongs])) s, (count_only ..).mono (by simp) (by simp)⟩
  next h => exact ⟨fun h' => absurd h' h, (ringTick_only ..).mono (by simp) (by simp)⟩

/-- The error of the device's own edge is reported. -/
def State.tickMeasured (s : State) (edge : Int) : State :=
  ({ s with ring := { s.ring with edge := some edge } }).wrS Ring.TICK_ALIGN_ERROR
    (clamp (-2147483647) 2147483647 (s.wrapPeriod (((s.tick.edgeAt * 1000 : Nat) : Int) - edge)))

theorem tickMeasured_spec (s : State) (edge : Int) :
    (s.tickMeasured edge).rd Ring.TICK_ALIGN_ERROR =
        ofSigned 32 (clamp (-2147483647) 2147483647 (s.wrapPeriod (((s.tick.edgeAt * 1000 : Nat) : Int) - edge))) ∧
      (s.tickMeasured edge).ring = { s.ring with edge := some edge } ∧
      OnlyChanges [.ring] [Ring.TICK_ALIGN_ERROR] s (s.tickMeasured edge) := by
  have hset : OnlyChanges [.ring] [] s { s with ring := { s.ring with edge := some edge } } := setRing_only s _
  exact ⟨rd_wr_word (isWord_ringWords 0 _ (by simp [ringWords])) (ofSigned_lt_two_pow ..) _, (wr_only ..).ring (by simp), hset.trans (wr_only ..)⟩

/-- Device Time follows the tick under TIME_SOURCE RING. -/
def State.timeFollows (s : State) (edge : Int) (time : Nat) : State :=
  if s.rd Time.TIME_SOURCE = 2 then s.servo ((deviceTimeAt s.time (edge / 1000).toNat : Int) - (time : Int)) else s

theorem timeFollows_only (s : State) (edge : Int) (time : Nat) :
    OnlyChanges (.time :: .tick :: .blob Time.TIME_STEP_LOG :: .firings :: sending) (Time.TIME_STATE :: Time.TIME_EPOCH :: Time.TIME_STEPS :: sendIds) s
      (s.timeFollows edge time) := by
  unfold State.timeFollows
  split
  · exact servo_only ..
  · exact .nothing s

/-- Everything a tick on the parent port does after the selection of the parent. -/
def State.tickTaken (s : State) (edge : Int) (hops seq time epoch root : Nat) : State :=
  (((s.tickMeasured edge).ringAdopt seq epoch).tickForwarded hops seq time epoch root).timeFollows edge time

theorem tickTaken_spec (s : State) (edge : Int) (hops seq time epoch root : Nat) :
    let t := s.tickTaken edge hops seq time epoch root
    t.ring.parent = s.ring.parent ∧ t.ring.edge = some edge ∧
      t.rd Ring.TICK_ALIGN_ERROR = ofSigned 32 (clamp (-2147483647) 2147483647 (s.wrapPeriod (((s.tick.edgeAt * 1000 : Nat) : Int) - edge))) ∧
      (hops = 0xFFFF → t.rd Ring.HOP_EXHAUSTED = countUp (s.rd Ring.HOP_EXHAUSTED) 1) ∧ ∀ p, t.ringPort p = s.ringPort p := by
  intro t
  obtain ⟨herror, hring, hm⟩ := tickMeasured_spec s edge
  obtain ⟨hparent, hedge, ha⟩ := ringAdopt_spec (s.tickMeasured edge) seq epoch
  obtain ⟨hhops, hf⟩ := tickForwarded_spec ((s.tickMeasured edge).ringAdopt seq epoch) hops seq time epoch root
  have ht := timeFollows_only (((s.tickMeasured edge).ringAdopt seq epoch).tickForwarded hops seq time epoch root) edge time
  have hlate := hf.trans ht
  have hringLate : t.ring = ((s.tickMeasured edge).ringAdopt seq epoch).ring := hlate.ring (by simp [sending])
  refine ⟨?_, ?_, ?_, fun h => ?_, fun p => ?_⟩
  · rw [hringLate, hparent, hring]
  · rw [hringLate, hedge, hring]
  · exact (hlate.rd (by decide)).trans ((ha.rd (by decide)).trans herror)
  · exact (ht.rd (by decide)).trans ((hhops h).trans (by rw [ha.rd (by decide), hm.rd (by decide)]))
  · exact ((hm.trans ha).trans hlate).ringPort (by simp [sending])

theorem wrapPeriod_of_rates {s t : State} (hn : t.rd Tick.TICK_RATE_N = s.rd Tick.TICK_RATE_N) (hd : t.rd Tick.TICK_RATE_D = s.rd Tick.TICK_RATE_D)
    (d : Int) : t.wrapPeriod d = s.wrapPeriod d := by
  have hperiod : t.period = s.period := by rw [State.period, State.period, hn, hd]
  rw [State.wrapPeriod, State.wrapPeriod, hperiod]

theorem ringTickRx_measures {p : Fin 4} (tick lo : BitVec 64) {hi : BitVec 64} (ps : Fin 1000) {s : State} (hstate : s.rd (Ring.RING_PORT_STATE p) = 3)
    (hfollows : s.follower = true) (hothers : ∀ q : Fin 4, q ≠ p → s.rd (Ring.RING_PORT_STATE q) ≠ 3) (hhops : s.neighbourHops p ≠ 0xFFFF)
    (hstatus : (s.ringPort p).status = true) :
    let edge : Int := ((s.clock * 1000 + ps.val : Nat) : Int) - ((bits tick.toNat 63 56 * 1000 / 32 : Nat) : Int) -
      ((s.rd (Ring.HOP_DELAY p) : Nat) : Int)
    ∃ t, exec (.ringTickRx p tick lo hi ps) s = .next t ∧ t.ring.parent = some p.val ∧ t.ring.edge = some edge ∧
      t.rd Ring.TICK_ALIGN_ERROR = ofSigned 32 (clamp (-2147483647) 2147483647 (s.wrapPeriod (((s.tick.edgeAt * 1000 : Nat) : Int) - edge))) ∧
      (t.ringPort p).root = some (bits hi.toNat 63 48) ∧
      (bits tick.toNat 55 40 = 0xFFFF → t.rd Ring.HOP_EXHAUSTED = countUp (s.rd Ring.HOP_EXHAUSTED) 1) := by
  intro edge
  let root := bits hi.toNat 63 48
  let u := s.setRingPort p { s.ringPort p with root := some root }
  have hu : OnlyChanges [.ringPort p] [] s u := setRingPort_only ..
  have hport : u.ringPort p = { s.ringPort p with root := some root } := ringPort_setRingPort_same ..
  have hup : u.ringUp = [p.val] := ringUp_only hstate hothers
  obtain ⟨hparent, -⟩ := ringSelect_leads (s := u) hup hfollows hstate hhops (by rw [hport]; exact hstatus)
  obtain ⟨-, hedgeAt, hv, -⟩ := ringSelect_spec u
  have hsel {id : Nat} (hid : id ∈ ringKept p) : u.ringSelect.rd id = s.rd id := ringSelect_rd u p hid
  have hedge : edge = ((u.ringSelect.clock * 1000 + ps.val : Nat) : Int) - ((bits tick.toNat 63 56 * 1000 / 32 : Nat) : Int) -
      ((u.ringSelect.rd (Ring.HOP_DELAY p) : Nat) : Int) := by
    rw [hsel (by simp [ringKept]), hv.clock (by simp [selectParts, sending])]
    rfl
  obtain ⟨hkept, htaken, herror, hexhausted, hports⟩ := tickTaken_spec u.ringSelect edge (bits tick.toNat 55 40) (bits tick.toNat 39 8)
    (bits lo.toNat 55 8 + bits hi.toNat 23 8 * 2 ^ 48) (bits hi.toNat 47 32) root
  refine ⟨_, ?_, hkept.trans hparent, htaken, herror.trans ?_, ?_, fun h => (hexhausted h).trans ?_⟩
  · show execRingTickRx p tick lo hi ps s = _
    rw [hedge]
    exact congrArg Host.Outcome.next ((if_neg (not_not.2 hstate)).trans (if_neg (not_not.2 hparent)))
  · rw [hedgeAt, wrapPeriod_of_rates (hsel (by simp [ringKept])) (hsel (by simp [ringKept]))]
    rfl
  · rw [hports, ringSelect_ringPort, hport]
  · rw [hsel (by simp [ringKept])]

/-! ## Events (R334) -/

/-- An EVENT on the listed ports. -/
theorem eventsOut (ports : List Nat) (fields : Nat) (s : State) :
    (ports.foldl (fun t p => t.ringSend p RingType.EVENT fields) s).out =
        (ports.map fun p => Output.ringBlock p RingType.EVENT (fields * 256 + RingType.EVENT)).reverse ++ s.out ∧
      OnlyChanges [.out] [] s (ports.foldl (fun t p => t.ringSend p RingType.EVENT fields) s) := by
  refine ⟨?_, .foldl ports (.nothing s) fun t p _ => ringSend_only ..⟩
  induction ports generalizing s with
  | nil => rfl
  | cons p rest ih => rw [List.foldl_cons, ih, ringSend_out, List.map_cons, List.reverse_cons, List.append_assoc, List.singleton_append]

theorem OnlyChanges.ringUp {ps : List Part} {ids : List Nat} {s t : State} (h : OnlyChanges ps ids s t) (hids : ∀ p < 4, Ring.RING_PORT_STATE p ∉ ids) :
    t.ringUp = s.ringUp := by
  refine List.filter_congr fun p hp => ?_
  rw [h.rd (hids p (List.mem_range.1 hp))]

theorem setFab_only (s : State) (x : FabSt) : OnlyChanges [.fab] [] s { s with fab := x } := by
  refine ⟨rfl, fun p hp => ?_, fun _ _ => rfl⟩
  cases p with
  | fab => simp at hp
  | mem => exact fun _ => rfl
  | buffers | qps => exact ⟨rfl, rfl⟩
  | nmp => exact ⟨rfl, rfl, rfl, rfl, rfl⟩
  | _ => rfl

theorem OnlyChanges.fab {ps : List Part} {ids : List Nat} {s t : State} (h : OnlyChanges ps ids s t) (hp : .fab ∉ ps) : t.fab = s.fab :=
  h.2.1 .fab hp

theorem ringFire_spec (s : State) (c : Nat) :
    let q := tget s.ring.eventSeq c 0
    (s.ringFire c).rd Ring.EVENTS_TX = countUp (s.rd Ring.EVENTS_TX) 1 ∧ tget (s.ringFire c).ring.eventSeq c 0 = (q + 1) % 65536 ∧
      (s.ringFire c).out = (s.ringUp.map fun p =>
        Output.ringBlock p RingType.EVENT (eventFields (s.rd Ring.RING_ID) 0 q c * 256 + RingType.EVENT)).reverse ++ s.out ∧
      OnlyChanges [.ring, .out] [Ring.EVENTS_TX] s (s.ringFire c) := by
  intro q
  let u : State := { s with ring := { s.ring with eventSeq := tset s.ring.eventSeq c 0 ((q + 1) % 65536) } }
  let v := u.count Ring.EVENTS_TX
  have hu : OnlyChanges [.ring] [] s u := setRing_only s _
  have hv : OnlyChanges [] [Ring.EVENTS_TX] u v := count_only ..
  have huv := hu.trans hv
  obtain ⟨hout, ht⟩ := eventsOut v.ringUp (eventFields (v.rd Ring.RING_ID) 0 q c) v
  have hring : (s.ringFire c).ring = u.ring := (hv.trans ht).ring (by simp)
  refine ⟨(ht.rd (by simp)).trans (rd_count_counter (isCounter_ringLongs 0 _ (by simp [ringLongs])) u), ?_, ?_, (huv.trans ht).mono (by simp) (by simp)⟩
  · rw [hring]
    exact tget_tset_same ..
  · refine hout.trans ?_
    rw [huv.ringUp (fun p hp => (by decide : ∀ p < 4, Ring.RING_PORT_STATE p ∉ [] ++ [Ring.EVENTS_TX]) p hp), huv.rd (by decide)]
    rfl

theorem ringEventSend_sends {c : Fin 64} {s : State} (hruns : s.netRuns = true) (hwaits : c.val ∈ s.fab.ringTx) :
    let q := tget s.ring.eventSeq c.val 0
    ∃ t, exec (.ringEventSend c) s = .next t ∧ t.rd Ring.EVENTS_TX = countUp (s.rd Ring.EVENTS_TX) 1 ∧
      tget t.ring.eventSeq c.val 0 = (q + 1) % 65536 ∧ c.val ∉ t.fab.ringTx ∧
      t.out = (s.ringUp.map fun p =>
        Output.ringBlock p RingType.EVENT (eventFields (s.rd Ring.RING_ID) 0 q c.val * 256 + RingType.EVENT)).reverse ++ s.out ∧
      OnlyChanges [.fab, .ring, .out] [Ring.EVENTS_TX] s t := by
  intro q
  let u : State := { s with fab := { s.fab with ringTx := s.fab.ringTx.filter fun (x : Nat) => x != c.val } }
  have hu : OnlyChanges [.fab] [] s u := setFab_only s _
  obtain ⟨hcount, hseq, hout, ht⟩ := ringFire_spec u c
  refine ⟨u.ringFire c, congrArg Host.Outcome.next (if_pos ⟨hruns, by simpa using hwaits⟩), hcount, hseq, ?_, hout, hu.trans ht⟩
  rw [ht.fab (by simp)]
  simp [u]

/-- The EVENT_SEQ values known of the origin of an event. -/
def State.eventSeen (s : State) (b : Nat) : Option (Table Nat) := (s.ring.origins.find? fun o => o.1 == bits b 63 48).map Prod.snd

/-- An event that has come before (R334). -/
def State.eventDup (s : State) (b : Nat) : Bool :=
  match (s.eventSeen b).bind fun t => tfind t (bits b 13 8) with
  | some q => !later 16 (bits b 31 16) q
  | none => false

/-- The origin of an event is kept as the most recent one. -/
def State.originKept (s : State) (b : Nat) : State :=
  let mine := if s.eventDup b then (s.eventSeen b).getD [] else tins ((s.eventSeen b).getD []) (bits b 13 8) (bits b 31 16)
  { s with ring := { s.ring with origins := ((bits b 63 48, mine) :: s.ring.origins.filter fun o => o.1 != bits b 63 48).take originLimit } }

/-- A new event fires its channel under EVENT_RX_MASK. -/
def State.eventFired (s : State) (ch : Nat) : State := if bit (s.rd Ring.EVENT_RX_MASK) ch then (s.count Ring.EVENTS_RX).fire (128 + ch) else s

/-- A new event goes on to the other ports with one hop more. -/
def State.eventForwarded (s : State) (p b : Nat) : State :=
  (s.ringUp.filter fun q => q != p).foldl (fun t q => t.ringSend q RingType.EVENT
    (eventFields (bits b 63 48) (bits b 47 32 + 1) (bits b 31 16) (bits b 13 8))) s

theorem originKept_only (s : State) (b : Nat) : OnlyChanges [.ring] [] s (s.originKept b) := setRing_only ..

theorem eventFired_spec (s : State) (ch : Nat) :
    (s.eventFired ch).firings = s.firings ++ (if bit (s.rd Ring.EVENT_RX_MASK) ch then [(128 + ch, s.clock)] else []) ∧
      OnlyChanges [.firings] [Ring.EVENTS_RX] s (s.eventFired ch) := by
  have hcount : OnlyChanges [] [Ring.EVENTS_RX] s (s.count Ring.EVENTS_RX) := count_only ..
  unfold State.eventFired
  split
  · refine ⟨?_, hcount.trans (fire_only ..)⟩
    rw [fire_firings, hcount.firings (by simp), hcount.clock (by simp)]
  · exact ⟨(List.append_nil _).symm, .nothing s⟩

section

variable {p : Fin 4} {block : BitVec 64} {s : State} (hstate : s.rd (Ring.RING_PORT_STATE p) = 3)

include hstate

theorem ringEventRx_returned (horigin : bits block.toNat 63 48 = s.rd Ring.RING_ID) :
    ∃ t, exec (.ringEventRx p block) s = .next t ∧ t.rd Ring.RING_RETURN = countUp (s.rd Ring.RING_RETURN) 1 ∧ OnlyChanges [] [Ring.RING_RETURN] s t :=
  ⟨_, congrArg Host.Outcome.next ((if_neg (not_not.2 hstate)).trans (if_pos horigin)),
    rd_count_counter (isCounter_ringLongs 0 _ (by simp [ringLongs])) s, count_only ..⟩

variable (horigin : bits block.toNat 63 48 ≠ s.rd Ring.RING_ID)

include horigin

theorem exec_ringEventRx :
    exec (.ringEventRx p block) s = .next (
      if s.eventDup block.toNat then (s.originKept block.toNat).count Ring.RING_DUP
      else
        let t := (s.originKept block.toNat).eventFired (bits block.toNat 13 8)
        if bits block.toNat 47 32 = 0xFFFF then t.count Ring.HOP_EXHAUSTED else t.eventForwarded p block.toNat) :=
  congrArg Host.Outcome.next ((if_neg (not_not.2 hstate)).trans (if_neg horigin))

theorem ringEventRx_duplicate {x : Table Nat} {q : Nat} (hseen : s.eventSeen block.toNat = some x) (hlast : tfind x (bits block.toNat 13 8) = some q)
    (hold : later 16 (bits block.toNat 31 16) q = false) :
    ∃ t, exec (.ringEventRx p block) s = .next t ∧ t.rd Ring.RING_DUP = countUp (s.rd Ring.RING_DUP) 1 ∧ OnlyChanges [.ring] [Ring.RING_DUP] s t := by
  have hdup : s.eventDup block.toNat = true := by simp [State.eventDup, hseen, hlast, hold]
  have hkept := originKept_only s block.toNat
  refine ⟨_, (exec_ringEventRx hstate horigin).trans (congrArg _ (if_pos hdup)), ?_, hkept.trans (count_only ..)⟩
  rw [rd_count_counter (isCounter_ringLongs 0 _ (by simp [ringLongs])), hkept.rd (by simp)]

theorem ringEventRx_new (hseen : s.eventSeen block.toNat = none) (hhops : bits block.toNat 47 32 ≠ 0xFFFF) :
    let b := block.toNat
    ∃ t, exec (.ringEventRx p block) s = .next t ∧
      t.firings = s.firings ++ (if bit (s.rd Ring.EVENT_RX_MASK) (bits b 13 8) then [(128 + bits b 13 8, s.clock)] else []) ∧
      t.out = ((s.ringUp.filter fun q => q != p.val).map fun q => Output.ringBlock q RingType.EVENT
        (eventFields (bits b 63 48) (bits b 47 32 + 1) (bits b 31 16) (bits b 13 8) * 256 + RingType.EVENT)).reverse ++ s.out ∧
      OnlyChanges [.ring, .firings, .out] [Ring.EVENTS_RX] s t := by
  intro b
  have hdup : ¬s.eventDup b = true := by simp [State.eventDup, b, hseen]
  let u := s.originKept b
  have hu : OnlyChanges [.ring] [] s u := originKept_only s b
  obtain ⟨hfired, hv⟩ := eventFired_spec u (bits b 13 8)
  generalize hw : u.eventFired (bits b 13 8) = v at hfired hv
  have hsv := hu.trans hv
  obtain ⟨hout, ht⟩ := eventsOut (v.ringUp.filter fun q => q != p.val) (eventFields (bits b 63 48) (bits b 47 32 + 1) (bits b 31 16) (bits b 13 8)) v
  have hexec : exec (.ringEventRx p block) s = .next (v.eventForwarded p b) := by
    rw [exec_ringEventRx hstate horigin, if_neg hdup]
    dsimp only
    rw [if_neg hhops, ← hw]
  refine ⟨_, hexec, ?_, ?_, (hsv.trans ht).mono (by simp) (by simp)⟩
  · rw [State.eventForwarded, ht.firings (by simp), hfired, hu.firings (by simp), hu.rd (by simp), hu.clock (by simp)]
  · rw [State.eventForwarded, hout, hsv.out (by simp), hsv.ringUp (fun q hq => (by decide : ∀ q < 4, Ring.RING_PORT_STATE q ∉ [] ++ [Ring.EVENTS_RX]) q hq)]

end

/-- Settles O35: the states of a port and the selection of the parent, what every period and measurement sends, ticks on the parent port, events. -/
theorem theRingAlignsItsDevices : Obligations.TheRingAlignsItsDevices :=
  ⟨fun p block child n s => ⟨exec_ringBlockLock, ringStatusRx_leads child, ringLinkLoss_counts n⟩,
    fun p block n s => ⟨ringPeriodicSend_sends p, fun hup => ⟨ringDelayReqRx_answers block n hup, ringDelayRespRx_measures n hup⟩⟩,
    fun p tick lo hi ps s => ringTickRx_measures tick lo ps,
    fun s => ⟨fun c => ringEventSend_sends, fun p block hstate => ⟨ringEventRx_returned hstate,
      fun horigin => ⟨fun x q => ringEventRx_duplicate hstate horigin, ringEventRx_new hstate horigin⟩⟩⟩⟩

end Sys2Proof.Machine

/-! Senders and receivers of ST 2110 (R316 to R320): alignment points, packets that leave, audio packets that are placed, and O36. -/

namespace Sys2Proof.Machine

/-! ## The counters of a stream (Table 12-10) -/

/-- What a stream counts. -/
def streamCounters (n : Nat) : List Nat :=
  [St.SOURCE_LOST n, St.FRAMES_SENT n, St.FRAMES_REPEATED_SENT n, St.PACKETS_SENT n, St.STREAM_BYTES n, St.RX_PACKETS n, St.RX_LATE n]

theorem isCounter_streamCounters : ∀ n : Fin 96, ∀ id ∈ streamCounters n, isCounter id = true := by decide

theorem isCounter_stream {n : Nat} (hn : n < 96) {id : Nat} (hid : id ∈ streamCounters n) : isCounter id = true := isCounter_streamCounters ⟨n, hn⟩ id hid

theorem OnlyChanges.stream {ps : List Part} {ids : List Nat} {s t : State} {k : Nat} (h : OnlyChanges ps ids s t) (hp : .stream k ∉ ps) :
    t.stream k = s.stream k :=
  h.2.1 (.stream k) hp

theorem OnlyChanges.time {ps : List Part} {ids : List Nat} {s t : State} (h : OnlyChanges ps ids s t) (hp : .time ∉ ps) : t.time = s.time :=
  h.2.1 .time hp

theorem OnlyChanges.pow {ps : List Part} {ids : List Nat} {s t : State} (h : OnlyChanges ps ids s t) (hp : .pow ∉ ps) : t.pow = s.pow :=
  h.2.1 .pow hp

theorem OnlyChanges.rend {ps : List Part} {ids : List Nat} {s t : State} {c v : Nat} (h : OnlyChanges ps ids s t) (hp : .ctx c ∉ ps) :
    t.rend c v = s.rend c v :=
  congrArg (fun x : CtxSt => tget x.rends v {}) (h.2.1 (.ctx c) hp)

theorem retireFreed_only (s : State) : OnlyChanges [.mem, .buffers, .sessions, .out, .free] noticeIds s s.retireFreed := by
  rw [retireFreed_eq]
  exact .foldl _ (.nothing s) fun t p _ => retireIfOver_only t p

/-! ## Buffers that consumers hold (R234) -/

/-- No rendition has a buffer held by the consumer. -/
def State.unheld (s : State) (k : Nat) : Prop := ∀ e ∈ s.ctxs, ∀ r ∈ e.2.rends, ∀ x ∈ r.2.held, x.1 ≠ k

theorem foldl_same {α β : Type} {f : β → α → β} {l : List α} {b : β} (h : ∀ a ∈ l, f b a = b) : l.foldl f b = b := by
  induction l with
  | nil => rfl
  | cons a l ih => rw [List.foldl_cons, h a (by simp)]; exact ih fun x hx => h x (by simp [hx])

theorem dropHold_unheld {s : State} {k : Nat} (h : s.unheld k) : s.dropHold k = s := by
  refine foldl_same fun e he => foldl_same fun r hr => if_neg ?_
  simp only [List.any_eq_true, beq_iff_eq, not_exists, not_and]
  exact h e he r hr

theorem tfind_mem {α : Type} {t : Table α} {k : Nat} {a : α} (h : tfind t k = some a) : ∃ e ∈ t, e.2 = a := by
  induction t with
  | nil => cases h
  | cons e rest ih =>
    by_cases hk : e.1 = k
    · exact ⟨e, by simp, Option.some.inj ((if_pos hk).symm.trans h)⟩
    · obtain ⟨e', he', hsame⟩ := ih ((if_neg hk).symm.trans h)
      exact ⟨e', by simp [he'], hsame⟩

theorem mem_of_tget {α : Type} {t : Table α} {k : Nat} {d : α} : tget t k d = d ∨ ∃ e ∈ t, e.2 = tget t k d := by
  cases hfind : tfind t k with
  | none => exact .inl (by rw [tget, hfind]; rfl)
  | some a => exact .inr (by rw [tget, hfind]; exact tfind_mem hfind)

/-- The holds of a rendition, where the consumer holds nothing. -/
theorem rend_unheld {s : State} {k : Nat} (h : s.unheld k) (c v : Nat) : ∀ x ∈ (s.rend c v).held, x.1 ≠ k := by
  intro x hx
  rcases mem_of_tget (t := (s.ctxSt c).rends) (k := v) (d := {}) with hdefault | ⟨r, hr, hsame⟩
  · rw [State.rend, hdefault] at hx
    simp at hx
  · rcases mem_of_tget (t := s.ctxs) (k := c) (d := {}) with hdefault | ⟨e, he, hctx⟩
    · rw [State.ctxSt, hdefault] at hr
      simp at hr
    · refine h e he r (by rw [hctx]; exact hr) x ?_
      rw [hsame]
      exact hx

/-- A rendition with its latest buffer held by one more consumer. -/
def State.rendHeld (s : State) (k c v b : Nat) : State := s.setRend c v { s.rend c v with held := (s.rend c v).held ++ [(k, b)] }

theorem takeHold_latest {s : State} {k c v b : Nat} (hfree : s.unheld k) (hlatest : (s.rend c v).latest = some b) :
    s.takeHold k c v = s.rendHeld k c v b := by
  rw [State.takeHold, dropHold_unheld hfree]
  dsimp only
  split
  next b' hb =>
    obtain rfl : b = b' := Option.some.inj (hlatest.symm.trans hb)
    rfl
  next hnone => cases hlatest.symm.trans hnone

theorem rendHeld_spec (s : State) (k c v b : Nat) :
    (s.rendHeld k c v b).rend c v = { s.rend c v with held := (s.rend c v).held ++ [(k, b)] } ∧ OnlyChanges [.ctx c] [] s (s.rendHeld k c v b) := by
  refine ⟨?_, setCtx_only ..⟩
  unfold State.rendHeld State.setRend State.rend
  rw [ctxSt_setCtx_same]
  exact tget_tset_same ..

theorem heldBy_rendHeld {s : State} {k : Nat} (hfree : s.unheld k) (c v b : Nat) : (s.rendHeld k c v b).heldBy k c v = some b := by
  have hnone : (s.rend c v).held.find? (fun e => e.1 == k) = none :=
    List.find?_eq_none.2 fun x hx => by simpa using rend_unheld hfree c v x hx
  rw [State.heldBy, (rendHeld_spec s k c v b).1, List.find?_append, hnone]
  simp

/-! ## What a sender has sent or lost (R318) -/

theorem sourceLost_spec (s : State) {n : Nat} (hn : n < 96) :
    (s.sourceLost n).stream n = { s.stream n with lost := true } ∧
      (s.sourceLost n).rd (St.SOURCE_LOST n) =
        (if (s.stream n).lost then s.rd (St.SOURCE_LOST n) else countUp (s.rd (St.SOURCE_LOST n)) 1) ∧
      OnlyChanges [.stream n] [St.SOURCE_LOST n] s (s.sourceLost n) := by
  unfold State.sourceLost
  cases hlost : (s.stream n).lost with
  | true => exact ⟨by rw [if_pos rfl, ← hlost], rfl, .nothing s⟩
  | false =>
    have hset := setStream_only s n { s.stream n with lost := true }
    rw [if_neg (by simp)]
    refine ⟨((count_only ..).stream (by simp)).trans (stream_setStream_same ..), ?_, hset.trans (count_only ..)⟩
    rw [rd_count_counter (isCounter_stream hn (by simp [streamCounters])), hset.rd (by simp)]
    rfl

theorem frameSent_spec (s : State) {n : Nat} (hn : n < 96) (now : Nat × Nat) :
    (s.frameSent n now).stream n = { s.stream n with last := some now, lost := false } ∧
      (s.frameSent n now).rd (St.FRAMES_SENT n) = countUp (s.rd (St.FRAMES_SENT n)) 1 ∧
      OnlyChanges [.stream n] [St.FRAMES_SENT n, St.FRAMES_REPEATED_SENT n] s (s.frameSent n now) := by
  let u := s.setStream n { s.stream n with last := some now, lost := false }
  let v := u.count (St.FRAMES_SENT n)
  let again := (s.stream n).last = some now
  have hu : OnlyChanges [.stream n] [] s u := setStream_only ..
  have hv : OnlyChanges [] [St.FRAMES_SENT n] u v := count_only ..
  have ht : OnlyChanges [] [St.FRAMES_REPEATED_SENT n] v (s.frameSent n now) := by
    change OnlyChanges _ _ v (if again then v.count (St.FRAMES_REPEATED_SENT n) else v)
    split
    · exact count_only ..
    · exact .nothing v
  refine ⟨?_, ?_, (hu.trans hv).trans ht⟩
  · rw [ht.stream (by simp), hv.stream (by simp)]
    exact stream_setStream_same ..
  · rw [ht.rd (by simp [St.FRAMES_SENT, St.FRAMES_REPEATED_SENT]), rd_count_counter (isCounter_stream hn (by simp [streamCounters])), hu.rd (by simp)]

/-! ## Alignment points (R317 to R319) -/

/-- A video sender takes the latest buffer of its rendition. -/
theorem videoAlign_takes {s : State} {n b : Nat} (at' : Nat) (hlatest : (s.rend (s.streamRend n).1 (s.streamRend n).2).latest = some b)
    (hfree : s.unheld (s.nextHold n)) :
    let u := s.rendHeld (s.nextHold n) (s.streamRend n).1 (s.streamRend n).2 b
    ∃ (x : VideoTx) (ticket : Nat), s.videoAlign n at' = (u.setStream n { u.stream n with video := (u.stream n).video ++ [x] }).frameSent n (b, ticket) ∧
      x.buf = b ∧ x.sent = 0 ∧ x.stamp = rtpStamp 90000 (deviceTimeAt u.time at') := by
  unfold State.videoAlign
  dsimp only
  rw [takeHold_latest hfree hlatest, heldBy_rendHeld hfree]
  exact ⟨_, _, rfl, rfl, rfl, rfl⟩

/-- An ancillary sender takes the ticket of the latest buffer of rendition 0. -/
theorem ancAlign_takes {s : State} {n b : Nat} (at' : Nat) (hanc : (s.streamRend n).2 = 0) (hlatest : (s.rend (s.streamRend n).1 0).latest = some b)
    (hticket : s.rd (St.ANC_TICKET n) = 1) (hfree : s.unheld (16 + n)) :
    let u := s.rendHeld (16 + n) (s.streamRend n).1 0 b
    ∃ (due : Nat) (now : Nat × Nat), s.ancAlign n at' =
      (u.setStream n { u.stream n with ready := (u.stream n).ready ++
        [(due, rtpStamp 90000 (deviceTimeAt s.time at'), (u.rend (s.streamRend n).1 0).record)] }).frameSent n now := by
  unfold State.ancAlign
  dsimp only
  rw [takeHold_latest hfree hlatest, hanc]
  exact ⟨_, _, congrArg (fun t : State => t.frameSent n _) (if_pos hticket)⟩

section

variable {n : Fin 80} {due : Nat} {s : State} (hdue : (s.stream n).alignAt = some due) (hon : s.rd (St.STREAM_ENABLE n) ≠ 0)

/-- The alignment point has come. -/
def State.aligned (s : State) (n due : Nat) : State := (s.at due).setStream n { s.stream n with alignAt := none }

theorem aligned_spec (s : State) (n due : Nat) :
    (s.aligned n due).stream n = { s.stream n with alignAt := none } ∧ (s.aligned n due).clock = max s.clock due ∧
      OnlyChanges [.clock, .stream n] [] s (s.aligned n due) :=
  ⟨stream_setStream_same .., rfl, (at_only s due).trans (setStream_only ..)⟩

include hdue hon

theorem exec_senderAlignmentPoint :
    exec (.senderAlignmentPoint n) s = .next (
      if s.sendersRun && s.rendLive (s.streamRend n).1 (s.streamRend n).2 then
        (if streamKind n = 0 then (s.aligned n due).videoAlign n due else (s.aligned n due).ancAlign n due)
      else (((s.aligned n due).senderStop n).sourceLost n).retireFreed) := by
  show execSenderAlignmentPoint n s = _
  unfold execSenderAlignmentPoint
  dsimp only
  rw [hdue]
  exact congrArg Host.Outcome.next (if_neg hon)

theorem senderAlignmentPoint_loses (hdead : (s.sendersRun && s.rendLive (s.streamRend n).1 (s.streamRend n).2) = false) (hempty : (s.stream n).video = [])
    (hfree : s.unheld (16 + n)) :
    ∃ t, exec (.senderAlignmentPoint n) s = .next t ∧ t.clock = max s.clock due ∧ (t.stream n).alignAt = none ∧
      (t.stream n).video = [] ∧ (t.stream n).ready = [] ∧ (t.stream n).lost = true ∧
      t.rd (St.SOURCE_LOST n) = (if (s.stream n).lost then s.rd (St.SOURCE_LOST n) else countUp (s.rd (St.SOURCE_LOST n)) 1) ∧
      OnlyChanges (.clock :: .stream n :: .buffers :: .mem :: sending) (St.SOURCE_LOST n :: sendIds) s t := by
  obtain ⟨hstream, hclock, hu⟩ := aligned_spec s n due
  generalize hu' : s.aligned n due = u at hstream hclock hu
  let x : StreamSt := { s.stream n with alignAt := none, video := [], ready := [] }
  have hfree' : u.unheld (16 + n) := hu' ▸ hfree
  have hstop : u.senderStop n = u.setStream n x := by
    have hdrop : u.dropHolds n = u := by
      rw [State.dropHolds, dropHold_unheld hfree', hstream]
      simp only [hempty, List.map_nil, List.foldl_nil]
    rw [State.senderStop, hdrop, hstream]
  have hv : OnlyChanges [.stream n.val] [] u (u.setStream n x) := setStream_only ..
  have hvx : (u.setStream n x).stream n = x := stream_setStream_same ..
  obtain ⟨hlost, hcount, hw⟩ := sourceLost_spec (u.setStream n x) (n := n) (by omega)
  have ht := retireFreed_only ((u.setStream n x).sourceLost n)
  have hkept : (((u.setStream n x).sourceLost n).retireFreed).stream n = { x with lost := true } := by
    rw [ht.stream (by simp), hlost, hvx]
  refine ⟨_, ?_, ?_, by rw [hkept], by rw [hkept], by rw [hkept], by rw [hkept], ?_, (((hu.trans hv).trans hw).trans ht).mono ?_ ?_⟩
  · rw [exec_senderAlignmentPoint hdue hon, if_neg (by simp [hdead]), hu', hstop]
  · rw [ht.clock (by simp), hw.clock (by simp), hv.clock (by simp), hclock]
  · rw [ht.rd ?_, hcount, hvx, (hu.trans hv).rd (by simp)]
    exact (by decide : ∀ n : Fin 80, St.SOURCE_LOST n ∉ noticeIds) n
  · simp [sending]
  · have hnotice : ∀ i ∈ noticeIds, i ∈ sendIds := by decide
    simp +contextual [or_imp, hnotice]

variable (hlive : (s.sendersRun && s.rendLive (s.streamRend n).1 (s.streamRend n).2) = true)

include hlive

theorem senderAlignmentPoint_sendsVideo {b : Nat} (hlatest : (s.rend (s.streamRend n).1 (s.streamRend n).2).latest = some b) (hvideo : n.val < 0x20)
    (hfree : s.unheld (s.nextHold n)) :
    ∃ t x, exec (.senderAlignmentPoint n) s = .next t ∧ t.clock = max s.clock due ∧ (t.stream n).video = (s.stream n).video ++ [x] ∧
      x.buf = b ∧ x.sent = 0 ∧ x.stamp = rtpStamp 90000 (deviceTimeAt s.time due) ∧
      t.rd (St.FRAMES_SENT n) = countUp (s.rd (St.FRAMES_SENT n)) 1 ∧ (t.stream n).lost = false ∧
      OnlyChanges [.clock, .stream n, .ctx (s.streamRend n).1] [St.FRAMES_SENT n, St.FRAMES_REPEATED_SENT n] s t := by
  obtain ⟨hstream, hclock, hu⟩ := aligned_spec s n due
  have hkind : streamKind n = 0 := if_pos hvideo
  have hhold : (s.aligned n due).nextHold n = s.nextHold n := by rw [State.nextHold, State.nextHold, hstream]
  obtain ⟨x, ticket, halign, hbuf, hsent, hstamp⟩ := videoAlign_takes (s := s.aligned n due) (n := n) due hlatest (by rw [hhold]; exact hfree)
  generalize hv' : (s.aligned n due).rendHeld ((s.aligned n due).nextHold n) ((s.aligned n due).streamRend n).1 ((s.aligned n due).streamRend n).2 b = v
    at halign hstamp
  have hv : OnlyChanges [.ctx (s.streamRend n).1] [] (s.aligned n due) v := hv' ▸ (rendHeld_spec ..).2
  have hvstream : v.stream n = { s.stream n with alignAt := none } := (hv.stream (by simp)).trans hstream
  rw [hvstream] at halign
  let y : StreamSt := { s.stream n with alignAt := none, video := (s.stream n).video ++ [x] }
  have hw := setStream_only v n y
  obtain ⟨hframe, hcount, ht⟩ := frameSent_spec (v.setStream n y) (n := n) (by omega) (b, ticket)
  rw [stream_setStream_same] at hframe
  refine ⟨_, x, ?_, ?_, by rw [hframe], hbuf, hsent, ?_, ?_, by rw [hframe], (((hu.trans hv).trans hw).trans ht).mono (by simp) (by simp)⟩
  · rw [exec_senderAlignmentPoint hdue hon, if_pos hlive, if_pos hkind, halign]
  · rw [ht.clock (by simp), hw.clock (by simp), hv.clock (by simp), hclock]
  · rw [hstamp, hv.time (by simp), hu.time (by simp)]
  · rw [hcount, ((hu.trans hv).trans hw).rd (by simp)]

theorem senderAlignmentPoint_sendsTicket {b : Nat} (hlatest : (s.rend (s.streamRend n).1 (s.streamRend n).2).latest = some b) (hanc : 0x30 ≤ n.val)
    (hticket : s.rd (St.ANC_TICKET n) = 1) (hfree : s.unheld (16 + n)) :
    ∃ t at', exec (.senderAlignmentPoint n) s = .next t ∧ t.clock = max s.clock due ∧
      (t.stream n).ready = (s.stream n).ready ++
        [(at', rtpStamp 90000 (deviceTimeAt s.time due), (s.rend (s.streamRend n).1 (s.streamRend n).2).record)] ∧
      t.rd (St.FRAMES_SENT n) = countUp (s.rd (St.FRAMES_SENT n)) 1 ∧
      OnlyChanges [.clock, .stream n, .ctx (s.streamRend n).1] [St.FRAMES_SENT n, St.FRAMES_REPEATED_SENT n] s t := by
  obtain ⟨hstream, hclock, hu⟩ := aligned_spec s n due
  have hnotVideo : ¬n.val < 0x20 := by omega
  have hkind : streamKind n = 2 := by rw [streamKind, if_neg hnotVideo, if_neg (by omega), if_pos (by omega)]
  have hzero : (s.streamRend n).2 = 0 := if_neg (by rw [hkind]; decide)
  rw [hzero] at hlatest ⊢
  obtain ⟨at', now, halign⟩ := ancAlign_takes (s := s.aligned n due) (n := n) due hzero hlatest hticket hfree
  obtain ⟨hrend, hv⟩ := rendHeld_spec (s.aligned n due) (16 + n) ((s.aligned n due).streamRend n).1 0 b
  generalize (s.aligned n due).rendHeld (16 + n) ((s.aligned n due).streamRend n).1 0 b = v at halign hrend hv
  replace hv : OnlyChanges [.ctx (s.streamRend n).1] [] (s.aligned n due) v := hv
  have hvstream : v.stream n = { s.stream n with alignAt := none } := (hv.stream (by simp)).trans hstream
  rw [hrend, hvstream] at halign
  let x : StreamSt := { s.stream n with
    alignAt := none, ready := (s.stream n).ready ++ [(at', rtpStamp 90000 (deviceTimeAt s.time due), (s.rend (s.streamRend n).1 0).record)] }
  have hw := setStream_only v n x
  obtain ⟨hframe, hcount, ht⟩ := frameSent_spec (v.setStream n x) (n := n) (by omega) now
  rw [stream_setStream_same] at hframe
  refine ⟨_, at', ?_, ?_, by rw [hframe], ?_, (((hu.trans hv).trans hw).trans ht).mono (by simp) (by simp)⟩
  · rw [exec_senderAlignmentPoint hdue hon, if_pos hlive, if_neg (by omega), halign]
    rfl
  · rw [ht.clock (by simp), hw.clock (by simp), hv.clock (by simp), hclock]
  · rw [hcount, ((hu.trans hv).trans hw).rd (by simp)]

end

/-! ## Packets that leave (R316, R317) -/

/-- A packet leaves on port 0. -/
def State.rtpOut (s : State) (n : Nat) (kind : String) (pkt : List Byte) : State :=
  ((s.emit (.packet 0 kind { vlan := s.rd (St.STREAM_VLAN n), dscp := s.rd (St.STREAM_DSCP n) } pkt)).count (St.PACKETS_SENT n)).addBytes (St.STREAM_BYTES n)
    pkt.length

theorem streamIds_not_sent : ∀ n : Fin 80, St.PACKETS_SENT n ≠ St.STREAM_BYTES n ∧
    ∀ id ∈ [St.PACKETS_SENT n, St.STREAM_PORTS n], id ∉ txIds ++ [] ∧ id ∉ txIds ++ [] ++ [St.STREAM_BYTES n] := by decide

theorem rtpOut_spec (s : State) (n : Fin 80) (kind : String) (pkt : List Byte) :
    (s.rtpOut n kind pkt).out = .packet 0 kind { vlan := s.rd (St.STREAM_VLAN n), dscp := s.rd (St.STREAM_DSCP n) } pkt :: s.out ∧
      (s.rtpOut n kind pkt).rd (St.PACKETS_SENT n) = countUp (s.rd (St.PACKETS_SENT n)) 1 ∧
      OnlyChanges [.out, .free] (St.PACKETS_SENT n :: St.STREAM_BYTES n :: txIds) s (s.rtpOut n kind pkt) := by
  obtain ⟨hne, hfree⟩ := streamIds_not_sent n
  let u := s.emit (.packet 0 kind { vlan := s.rd (St.STREAM_VLAN n), dscp := s.rd (St.STREAM_DSCP n) } pkt)
  let v := u.count (St.PACKETS_SENT n)
  have hu : OnlyChanges [.out, .free] txIds s u := emit_only ..
  have hv : OnlyChanges [] [St.PACKETS_SENT n] u v := count_only ..
  have ht : OnlyChanges [] [St.STREAM_BYTES n] v (s.rtpOut n kind pkt) := addBytes_only ..
  refine ⟨?_, ?_, ((hu.trans hv).trans ht).mono (by simp) (by simp +contextual [or_imp])⟩
  · rw [ht.out (by simp), hv.out (by simp), emit_out]
  · rw [ht.rd (by simpa using hne), rd_count_counter (isCounter_stream (n := n) (by omega) (by simp [streamCounters])), hu.rd]
    simpa using (hfree (St.PACKETS_SENT n) (by simp)).1

theorem OnlyChanges.ethUp {ps : List Part} {ids : List Nat} {s t : State} {p : Nat} (h : OnlyChanges ps ids s t) (hpow : .pow ∉ ps)
    (hid : Eth.LINK_STATE p ∉ ids) : t.ethUp p = s.ethUp p := by
  rw [State.ethUp, State.ethUp, State.netRuns, State.netRuns, h.pow hpow, h.rd hid]

/-- A packet leaves on a port that the stream uses and that is UP. -/
def State.rtpPort (s : State) (n : Nat) (kind : String) (pkt : List Byte) (p : Nat) : State :=
  if bit (s.rd (St.STREAM_PORTS n)) p && s.ethUp p then
    ((s.emit (.packet p kind { vlan := s.rd (St.STREAM_VLAN n), dscp := s.rd (St.STREAM_DSCP n) } pkt)).count (St.PACKETS_SENT n)).addBytes
      (St.STREAM_BYTES n) pkt.length
  else s

/-- A stream on port 0 alone sends there. -/
theorem sendRtp_port0 {s : State} {n : Fin 80} (stamp : Nat) (marker : Bool) (kind : String) (payload : Nat → List Byte)
    (hports : s.rd (St.STREAM_PORTS n) = 1) (hup : s.ethUp 0 = true) :
    ∃ pkt, s.sendRtp n stamp marker kind payload = (s.setStream n { s.stream n with seq := ((s.stream n).seq + 1) % 2 ^ 32 }).rtpOut n kind pkt := by
  let u := s.setStream n { s.stream n with seq := ((s.stream n).seq + 1) % 2 ^ 32 }
  let pkt := s.rtpHeader n ((s.stream n).seq % 65536) stamp marker ++ payload (s.stream n).seq
  have hu : OnlyChanges [.stream n.val] [] s u := setStream_only ..
  have hports' : u.rd (St.STREAM_PORTS n) = 1 := (hu.rd (by simp)).trans hports
  have hup' : u.ethUp 0 = true := (hu.ethUp (by simp) (by simp)).trans hup
  have hsent : (u.rtpOut n kind pkt).rd (St.STREAM_PORTS n) = 1 := by
    rw [(rtpOut_spec u n kind pkt).2.2.rd ((by decide : ∀ n : Fin 80, St.STREAM_PORTS n ∉ St.PACKETS_SENT n :: St.STREAM_BYTES n :: txIds) n), hports']
  have hfirst : u.rtpPort n kind pkt 0 = u.rtpOut n kind pkt := if_pos (by rw [hports', hup']; rfl)
  have hsecond : (u.rtpOut n kind pkt).rtpPort n kind pkt 1 = u.rtpOut n kind pkt := if_neg (by rw [hsent]; simp [bit])
  refine ⟨pkt, ?_⟩
  calc s.sendRtp n stamp marker kind payload = (u.rtpPort n kind pkt 0).rtpPort n kind pkt 1 := rfl
    _ = u.rtpOut n kind pkt := by rw [hfirst, hsecond]

theorem st2110PacketSend_sends {n : Fin 80} {s : State} {x : VideoTx} {rest : List VideoTx} (hvideo : (s.stream n).video = x :: rest)
    (hmore : x.sent + 1 < x.total) (hports : s.rd (St.STREAM_PORTS n) = 1) (hup : s.ethUp 0 = true) (hruns : s.pow.global ≠ .faultHold) :
    ∃ t pkt, exec (.st2110PacketSend n) s = .next t ∧ t.clock = max s.clock x.nextAt ∧
      t.out = .packet 0 "ST 2110-20" { vlan := s.rd (St.STREAM_VLAN n), dscp := s.rd (St.STREAM_DSCP n) } pkt :: s.out ∧
      (t.stream n).video = { x with sent := x.sent + 1, nextAt := x.nextAt + x.gap } :: rest ∧
      (t.stream n).seq = ((s.stream n).seq + 1) % 2 ^ 32 ∧ t.rd (St.PACKETS_SENT n) = countUp (s.rd (St.PACKETS_SENT n)) 1 ∧
      OnlyChanges [.clock, .stream n, .out, .free] (St.PACKETS_SENT n :: St.STREAM_BYTES n :: txIds) s t := by
  let a := s.at x.nextAt
  have ha : OnlyChanges [.clock] [] s a := at_only ..
  obtain ⟨pkt, hrtp⟩ := sendRtp_port0 (s := a) (n := n) x.stamp (x.sent + 1 == x.total) "ST 2110-20" (fun q => a.videoPayload n x q)
    ((ha.rd (by simp)).trans hports) ((ha.ethUp (by simp) (by simp)).trans hup)
  let u := a.setStream n { a.stream n with seq := ((a.stream n).seq + 1) % 2 ^ 32 }
  have hu : OnlyChanges [.stream n.val] [] a u := setStream_only ..
  obtain ⟨hout, hcount, hv⟩ := rtpOut_spec u n "ST 2110-20" pkt
  generalize hw : u.rtpOut n "ST 2110-20" pkt = v at hout hcount hv
  have hstream : v.stream n = { s.stream n with seq := ((s.stream n).seq + 1) % 2 ^ 32 } := (hv.stream (by simp)).trans (stream_setStream_same ..)
  let y : StreamSt := { v.stream n with video := { x with sent := x.sent + 1, nextAt := x.nextAt + x.gap } :: rest }
  have ht : OnlyChanges [.stream n.val] [] v (v.setStream n y) := setStream_only ..
  have hexec : exec (.st2110PacketSend n) s = .next (v.setStream n y) := by
    have hsend : s.videoSend n x rest = v.setStream n y := by
      show (if x.sent + 1 < x.total then (a.sendRtp n x.stamp (x.sent + 1 == x.total) "ST 2110-20" fun q => a.videoPayload n x q).setStream n
          { (a.sendRtp n x.stamp (x.sent + 1 == x.total) "ST 2110-20" fun q => a.videoPayload n x q).stream n with
            video := { x with sent := x.sent + 1, nextAt := x.nextAt + x.gap } :: rest } else _) = _
      rw [if_pos hmore, hrtp, hw]
    show execSt2110PacketSend n s = _
    unfold execSt2110PacketSend
    dsimp only
    rw [if_neg hruns, hvideo]
    exact congrArg Host.Outcome.next hsend
  have hsame : (v.setStream n y).stream n = y := stream_setStream_same ..
  refine ⟨_, pkt, hexec, ?_, ?_, by rw [hsame], ?_, ?_, (((ha.trans hu).trans hv).trans ht).mono (by simp) (by simp)⟩
  · rw [ht.clock (by simp), hv.clock (by simp), hu.clock (by simp)]
    rfl
  · rw [ht.out (by simp), hout, hu.rd (by simp), hu.rd (by simp)]
    rfl
  · rw [hsame]
    exact congrArg StreamSt.seq hstream
  · rw [ht.rd (by simp), hcount, (ha.trans hu).rd (by simp)]

end Sys2Proof.Machine

/-! Audio packets that are received (R320), and O36. -/

namespace Sys2Proof.Machine

section

variable {k : Nat} {s : State}

/-- A packet of a stream is counted on its path. -/
def State.rxHeard (s : State) (k path bytes : Nat) : State := ((s.rxFrame path).count (St.RX_PACKETS k)).addBytes (St.STREAM_BYTES k) bytes

/-- What a packet counts when it is heard. -/
def heardIds (k path : Nat) : List Nat := [Eth.RX_FRAMES path, Eth.RX_BYTES path, St.RX_PACKETS k, St.STREAM_BYTES k]

theorem rxHeard_spec (s : State) {k path : Nat} (hk : k < 96) (hpath : path < 2) (bytes : Nat) :
    (s.rxHeard k path bytes).rd (St.RX_PACKETS k) = countUp (s.rd (St.RX_PACKETS k)) 1 ∧
      (s.rxHeard k path bytes).rd (St.STREAM_BYTES k) = bytesUp (s.rd (St.STREAM_BYTES k)) bytes ∧
      OnlyChanges [.free] (heardIds k path) s (s.rxHeard k path bytes) := by
  have hfree : ∀ id ∈ [St.RX_PACKETS k, St.STREAM_BYTES k], id ∉ [Eth.RX_FRAMES path, Eth.RX_BYTES path] := by
    simp only [List.mem_cons, List.not_mem_nil, or_false, St.RX_PACKETS, St.STREAM_BYTES, Eth.RX_FRAMES, Eth.RX_BYTES]
    omega
  have hu := rxFrame_only s path
  have hv : OnlyChanges [] [St.RX_PACKETS k] (s.rxFrame path) ((s.rxFrame path).count (St.RX_PACKETS k)) := count_only ..
  have ht : OnlyChanges [] [St.STREAM_BYTES k] ((s.rxFrame path).count (St.RX_PACKETS k)) (s.rxHeard k path bytes) := addBytes_only ..
  refine ⟨?_, ?_, ((hu.trans hv).trans ht).mono (by simp) (by simp [heardIds])⟩
  · rw [ht.rd (by simp [St.RX_PACKETS, St.STREAM_BYTES]), rd_count_counter (isCounter_stream hk (by simp [streamCounters])), hu.rd (hfree _ (by simp))]
  · rw [State.rxHeard, rd_addBytes_counter (isCounter_stream hk (by simp [streamCounters])), hv.rd (by simp [St.RX_PACKETS, St.STREAM_BYTES]),
      hu.rd (hfree _ (by simp))]

theorem rxHeard_rxStamp (s : State) {k path : Nat} (hk : k < 96) (hpath : path < 2) (bytes clock : Nat) :
    (s.rxHeard k path bytes).rxStamp k clock = s.rxStamp k clock := by
  obtain ⟨-, -, hu⟩ := rxHeard_spec s hk hpath bytes
  have hrd {id : Nat} (hid : 0x60000000 ≤ id ∨ id = St.STREAM_SOURCE k ∨ id = St.RX_DELAY k) : (s.rxHeard k path bytes).rd id = s.rd id :=
    hu.rd (by
      simp only [heardIds, List.mem_cons, List.not_mem_nil, or_false, not_or, Eth.RX_FRAMES, Eth.RX_BYTES, St.RX_PACKETS, St.STREAM_BYTES]
      simp only [St.STREAM_SOURCE, St.RX_DELAY] at hid
      omega)
  have hport : (s.rxHeard k path bytes).streamPort k = s.streamPort k := by rw [State.streamPort, State.streamPort, hrd (.inr (.inl rfl))]
  have hrate : (s.rxHeard k path bytes).streamRate k = s.streamRate k := by
    rw [State.streamRate, State.streamRate, State.audRate, State.audRate, hport, hrd (.inl (by simp only [Aud.FAMILY]; omega)),
      hrd (.inl (by simp only [Aud.RATE_MULT]; omega))]
  rw [State.rxStamp, State.rxStamp, hrate, hrd (.inr (.inr rfl)), hu.time (by simp)]

theorem rxAdvance_idle {clock : Nat} (h : ∀ e ∈ (s.stream k).rx, laterEq 32 (s.rxStamp k clock) e.2.1 = false) : s.rxAdvance k clock = s := by
  have hnone : (s.stream k).rx.filter (fun e => laterEq 32 (s.rxStamp k clock) e.2.1) = [] :=
    List.filter_eq_nil_iff.2 fun e he => by simp [h e he]
  unfold State.rxAdvance
  dsimp only
  rw [hnone]
  rfl

/-- The place of a packet has passed. -/
def State.rxLate (s : State) (k stamp : Nat) (pl : List Byte) : Bool :=
  later 32 (s.rxStamp k s.clock) ((stamp + (s.rxUnpack k pl).length + 2 ^ 32 - 1) % 2 ^ 32)

/-- What a packet becomes that is heard in time to be placed. -/
def State.rxPlaced (s : State) (k path seq stamp : Nat) (pl : List Byte) : State :=
  match tfind (s.stream k).rx seq with
  | some (t, m, fs) => s.setStream k { s.stream k with rx := tins (s.stream k).rx seq (t, setFlag m path, fs) }
  | none =>
    if (s.stream k).rxPlayed.contains seq then s
    else if s.rxLate k stamp pl then s.count (St.RX_LATE k)
    else s.setStream k { s.stream k with rx := tins (s.stream k).rx seq (stamp, 2 ^ path, s.rxUnpack k pl) }

theorem rxPlaced_only (s : State) (k path seq stamp : Nat) (pl : List Byte) :
    OnlyChanges [.stream k] [St.RX_LATE k] s (s.rxPlaced k path seq stamp pl) := by
  unfold State.rxPlaced
  split
  · exact (setStream_only ..).mono (by simp) (by simp)
  · split
    · exact .nothing s
    · split
      · exact (count_only ..).mono (by simp) (by simp)
      · exact (setStream_only ..).mono (by simp) (by simp)

theorem rxPlaced_second {at' m : Nat} {fs : List (List Nat)} (path stamp : Nat) (pl : List Byte) {q : Nat}
    (hfound : tfind (s.stream k).rx q = some (at', m, fs)) :
    tfind ((s.rxPlaced k path q stamp pl).stream k).rx q = some (at', setFlag m path, fs) := by
  rw [State.rxPlaced, hfound]
  dsimp only
  rw [stream_setStream_same]
  exact tfind_tins_same ..

section

variable {q : Nat} (hnew : tfind (s.stream k).rx q = none) (hwaits : (s.stream k).rxPlayed.contains q = false)

include hnew hwaits

theorem rxPlaced_late (hk : k < 96) (path stamp : Nat) {pl : List Byte}
    (hlate : s.rxLate k stamp pl = true) :
    (s.rxPlaced k path q stamp pl).stream k = s.stream k ∧ (s.rxPlaced k path q stamp pl).rd (St.RX_LATE k) = countUp (s.rd (St.RX_LATE k)) 1 := by
  have heq : s.rxPlaced k path q stamp pl = s.count (St.RX_LATE k) := by
    rw [State.rxPlaced, hnew]
    dsimp only
    rw [if_neg (ne_of_eq_of_ne hwaits Bool.false_ne_true), if_pos hlate]
  rw [heq]
  exact ⟨(count_only ..).stream (by simp), rd_count_counter (isCounter_stream hk (by simp [streamCounters])) s⟩

theorem rxPlaced_placed (path stamp : Nat) {pl : List Byte}
    (hlate : s.rxLate k stamp pl = false) :
    tfind ((s.rxPlaced k path q stamp pl).stream k).rx q = some (stamp, 2 ^ path, s.rxUnpack k pl) := by
  rw [State.rxPlaced, hnew]
  dsimp only
  rw [if_neg (ne_of_eq_of_ne hwaits Bool.false_ne_true), if_neg (ne_of_eq_of_ne hlate Bool.false_ne_true), stream_setStream_same]
  exact tfind_tins_same ..

end

end

theorem st2110AudioRxPacket_places (n : Fin 16) (path : Fin 2) (seq : BitVec 16) (stamp : BitVec 32) (pl : List Byte) (s : State) :
    let k := 0x50 + n.val
    s.rd (St.STREAM_ENABLE k) ≠ 0 → bit (s.rd (St.STREAM_PORTS k)) path.val = true → s.ethUp path = true → s.sendersRun = true →
    (∀ e ∈ (s.stream k).rx, laterEq 32 (s.rxStamp k s.clock) e.2.1 = false) →
    ∃ t, exec (.st2110AudioRxPacket n path (s.rd (St.STREAM_VLAN k)) seq stamp pl) s = .next t ∧ t.rd (St.RX_PACKETS k) = countUp (s.rd (St.RX_PACKETS k)) 1 ∧
      t.rd (St.STREAM_BYTES k) = bytesUp (s.rd (St.STREAM_BYTES k)) (12 + pl.length) ∧
      (∀ at' m fs, tfind (s.stream k).rx seq.toNat = some (at', m, fs) →
        tfind (t.stream k).rx seq.toNat = some (at', setFlag m path.val, fs)) ∧
      (tfind (s.stream k).rx seq.toNat = none → (s.stream k).rxPlayed.contains seq.toNat = false →
        let frames := s.rxUnpack k pl
        let late := s.rxLate k stamp.toNat pl
        (late = true → (t.stream k).rx = (s.stream k).rx ∧ t.rd (St.RX_LATE k) = countUp (s.rd (St.RX_LATE k)) 1) ∧
        (late = false → tfind (t.stream k).rx seq.toNat = some (stamp.toNat, 2 ^ path.val, frames))) ∧
      OnlyChanges [.stream k, .free] [Eth.RX_FRAMES path, Eth.RX_BYTES path, St.RX_PACKETS k, St.STREAM_BYTES k, St.RX_LATE k] s t := by
  intro k hon hpath hup hruns hidle
  have hk : k < 96 := by omega
  obtain ⟨hpackets, hbytes, hu⟩ := rxHeard_spec s hk path.isLt (12 + pl.length)
  have hstamp := rxHeard_rxStamp s hk path.isLt (12 + pl.length)
  generalize hheard : s.rxHeard k path (12 + pl.length) = u at hpackets hbytes hu hstamp
  have hstream : u.stream k = s.stream k := hu.stream (by simp)
  have hclock : u.clock = s.clock := hu.clock (by simp)
  have hfree {id : Nat} (hid : id ∈ [St.AUDIO_ENCODING k, St.AUDIO_CHANNELS k, St.RX_LATE k]) : id ∉ heardIds k path := by
    simp only [List.mem_cons, List.not_mem_nil, or_false, St.AUDIO_ENCODING, St.AUDIO_CHANNELS, St.RX_LATE] at hid
    simp only [heardIds, List.mem_cons, List.not_mem_nil, or_false, Eth.RX_FRAMES, Eth.RX_BYTES, St.RX_PACKETS, St.STREAM_BYTES]
    omega
  have hunpack : u.rxUnpack k pl = s.rxUnpack k pl := by
    rw [State.rxUnpack, State.rxUnpack, hu.rd (hfree (by simp)), hu.rd (hfree (by simp))]
  have hnow : u.rxStamp k u.clock = s.rxStamp k s.clock := by rw [hclock, hstamp]
  have hadvance : u.rxAdvance k u.clock = u := rxAdvance_idle (by rw [hstream, hnow]; exact hidle)
  have ht := rxPlaced_only u k path seq.toNat stamp.toNat pl
  have hexec : exec (.st2110AudioRxPacket n path (s.rd (St.STREAM_VLAN k)) seq stamp pl) s = .next (u.rxPlaced k path seq.toNat stamp.toNat pl) := by
    have hvalid : ¬(s.rd (St.STREAM_ENABLE k) = 0 ∨ !bit (s.rd (St.STREAM_PORTS k)) path.val ∨ !s.ethUp path.val ∨ !s.sendersRun ∨
        s.rd (St.STREAM_VLAN k) ≠ s.rd (St.STREAM_VLAN k)) := by simp [hon, hpath, hup, hruns]
    show execSt2110AudioRxPacket n path (s.rd (St.STREAM_VLAN k)) seq stamp pl s = _
    unfold execSt2110AudioRxPacket
    rw [if_neg hvalid]
    extract_lets v x frames
    have hv : v = u := by
      rw [← hadvance, hclock, ← hheard]
      rfl
    exact congrArg (fun z : State => Host.Outcome.next (z.rxPlaced k path seq.toNat stamp.toNat pl)) hv
  refine ⟨_, hexec, ?_, ?_, fun at' m fs hfound => rxPlaced_second _ _ _ (by rw [hstream, hfound]), fun hnew hwaits => ?_, ?_⟩
  · rw [ht.rd (by simp [St.RX_PACKETS, St.RX_LATE]), hpackets]
  · rw [ht.rd (by simp [St.STREAM_BYTES, St.RX_LATE]), hbytes]
  · dsimp only
    have hlater : u.rxLate k stamp.toNat pl = s.rxLate k stamp.toNat pl := by rw [State.rxLate, State.rxLate, hunpack, hnow]
    rw [← hstream] at hnew hwaits ⊢
    rw [← hunpack, ← hlater, ← hu.rd (hfree (id := St.RX_LATE k) (by simp))]
    refine ⟨fun hlate => ?_, rxPlaced_placed hnew hwaits _ _⟩
    obtain ⟨hsame, hcount⟩ := rxPlaced_late hnew hwaits hk path _ hlate
    exact ⟨by rw [hsame], hcount⟩
  · exact (hu.trans ht).mono (by simp) (by simp [heardIds])

/-- Settles O36: alignment points of senders that lose or have their source, packets that leave, audio packets that arrive. -/
theorem streamsAreSentAndReceived : Obligations.StreamsAreSentAndReceived :=
  ⟨fun _ _ => ⟨fun _ => senderAlignmentPoint_loses,
      fun _ _ hdue hon hlive hlatest => ⟨senderAlignmentPoint_sendsVideo hdue hon hlive hlatest, senderAlignmentPoint_sendsTicket hdue hon hlive hlatest⟩,
      fun _ _ => st2110PacketSend_sends⟩,
    st2110AudioRxPacket_places⟩

end Sys2Proof.Machine

/-! What the recorder writes (R345 to R355): blocks of the set and of its members, superblocks, journal groups and checkpoints. Every write changes
the SSDs and BYTES_WRITTEN of root ports, and nothing of the working copies. -/

namespace Sys2Proof.Machine

theorem setMedia_only (s : State) (x : RecSt) : OnlyChanges [.media] [] s { s with media := x } := by
  refine ⟨rfl, fun p hp => ?_, fun _ _ => rfl⟩
  cases p with
  | media => simp at hp
  | mem => exact fun _ => rfl
  | buffers | qps => exact ⟨rfl, rfl⟩
  | nmp => exact ⟨rfl, rfl, rfl, rfl, rfl⟩
  | _ => rfl

theorem setTgt_only (s : State) (x : TgtSt) : OnlyChanges [.tgt] [] s { s with tgt := x } := by
  refine ⟨rfl, fun p hp => ?_, fun _ _ => rfl⟩
  cases p with
  | tgt => simp at hp
  | mem => exact fun _ => rfl
  | buffers | qps => exact ⟨rfl, rfl⟩
  | nmp => exact ⟨rfl, rfl, rfl, rfl, rfl⟩
  | _ => rfl

theorem OnlyChanges.media {ps : List Part} {ids : List Nat} {s t : State} (h : OnlyChanges ps ids s t) (hp : .media ∉ ps) : t.media = s.media :=
  h.2.1 .media hp

theorem OnlyChanges.tgt {ps : List Part} {ids : List Nat} {s t : State} (h : OnlyChanges ps ids s t) (hp : .tgt ∉ ps) : t.tgt = s.tgt :=
  h.2.1 .tgt hp

/-! ## The parameters of the recorder (Table 13-14) -/

/-- What the recorder reports in 32 bits. -/
def recWords (p : Nat) : List Nat :=
  [Rec.MEDIA_STATE, Rec.SET_GENERATION, Rec.TOTAL_EXTENTS, Rec.FREE_EXTENTS, Rec.OPEN_CLIPS, Rec.REBUILD_PROGRESS, Rec.MEMBER_STATE p, Rec.MEMBER_LINK p,
    Rec.CLIP_SLOT_ID p, Rec.CLIP_SLOT_STATE p, Rec.CLIP_FRAMES p]

/-- What it reports or counts in 64 bits. -/
def recLongs (p : Nat) : List Nat :=
  [Rec.SET_ID, Rec.LAST_COMMIT_SEQ, Rec.LAST_COMMIT_TIME, Rec.COMMITS, Rec.COMMITS_LATE, Rec.FRAMES_RECORDED, Rec.MEMBER_CAPACITY p, Rec.MEMBER_ID p,
    Rec.CLIP_LENGTH p, Rec.MEMBER_FAILURES p, Rec.NVME_ERRORS p, Rec.NVME_TIMEOUTS p]

theorem isWord_recWords : ∀ p : Fin 4, ∀ id ∈ recWords p, isWord id = true := by decide

theorem isCounter_recLongs : ∀ p : Fin 4, ∀ id ∈ recLongs p, isCounter id = true := by decide

theorem recIds_not_sent : ∀ p : Fin 4, ∀ id ∈ recWords p ++ recLongs p, id ∉ sendIds := by decide

/-- The number of a parameter in its group tells the parameters of one index apart from those that are only written. -/
theorem not_mem_of_number {id n : Nat} {ids : List Nat} (hids : ∀ i ∈ ids, i % 0x10000 = n) (hid : id % 0x10000 ≠ n) : id ∉ ids :=
  fun hmem => hid (hids id hmem)

theorem bytesWritten_number (ports : List Nat) : ∀ i ∈ ports.map Rec.BYTES_WRITTEN, i % 0x10000 = 0x59 := by
  intro i hi
  obtain ⟨p, -, rfl⟩ := List.mem_map.1 hi
  simp only [Rec.BYTES_WRITTEN]
  omega

/-! ## Blocks (R345) -/

/-- What stands on a root port. -/
def State.withSsd (s : State) (port : Nat) (x : Ssd) : State := { s with media := { s.media with ssds := tins s.media.ssds port x } }

/-- The recorder's state beside what its SSDs hold. -/
def RecSt.bare (r : RecSt) : RecSt := { r with ssds := [] }

/-- The root ports of the members. -/
def RecSt.memberPorts (r : RecSt) : List Nat := r.ports.filterMap id

/-- SSDs on some of the root ports are written. -/
def SsdsWritten (ports : List Nat) (s t : State) : Prop :=
  OnlyChanges [.media] (ports.map Rec.BYTES_WRITTEN) s t ∧ t.media.bare = s.media.bare

theorem SsdsWritten.refl (ports : List Nat) (s : State) : SsdsWritten ports s s := ⟨.nothing s, rfl⟩

theorem SsdsWritten.then {ports : List Nat} {s t u : State} (h : SsdsWritten ports s t) (g : SsdsWritten ports t u) : SsdsWritten ports s u :=
  ⟨h.1.then g.1, g.2.trans h.2⟩

theorem SsdsWritten.mono {ports more : List Nat} {s t : State} (h : SsdsWritten ports s t) (hmore : ∀ p ∈ ports, p ∈ more) : SsdsWritten more s t :=
  ⟨h.1.mono (by simp) (by simpa using fun p hp => ⟨p, hmore p hp, rfl⟩), h.2⟩

theorem SsdsWritten.foldl {α : Type} {ports : List Nat} {z s : State} {f : State → α → State} (l : List α) (h : SsdsWritten ports z s)
    (hf : ∀ t x, SsdsWritten ports z t → SsdsWritten ports t (f t x)) : SsdsWritten ports z (l.foldl f s) :=
  List.foldlRecOn (motive := SsdsWritten ports z) l f h fun t ht x _ => ht.then (hf t x ht)

theorem SsdsWritten.rd {ports : List Nat} {s t : State} (h : SsdsWritten ports s t) {id : Nat} (hid : id % 0x10000 ≠ 0x59) : t.rd id = s.rd id :=
  h.1.rd (not_mem_of_number (bytesWritten_number ports) hid)

theorem SsdsWritten.ports {ports : List Nat} {s t : State} (h : SsdsWritten ports s t) : t.media.memberPorts = s.media.memberPorts :=
  (congrArg RecSt.memberPorts h.2 :)

theorem portOf_mem {r : RecSt} {k p : Nat} (h : r.portOf k = some p) : p ∈ r.memberPorts := by
  have hget : r.ports[k]?.getD none = some p := by rw [← List.getD_eq_getElem?_getD]; exact h
  cases hk : r.ports[k]? with
  | none => simp [hk] at hget
  | some q =>
    rw [hk, Option.getD_some] at hget
    exact List.mem_filterMap.2 ⟨q, List.mem_of_getElem? hk, hget⟩

theorem ssdWrite_written (s : State) (port lba : Nat) (b : List Byte) : SsdsWritten [port] s (s.ssdWrite port lba b) := by
  unfold State.ssdWrite
  split
  next => exact .refl _ s
  next x _ =>
    let y : Ssd := { x with content := tset x.content lba (zeroBytes blockSize) ((b ++ zeroBytes blockSize).take blockSize) }
    have hset : OnlyChanges [.media] [] s (s.withSsd port y) := setMedia_only s _
    have hcount := addBytes_only (s.withSsd port y) (Rec.BYTES_WRITTEN port) blockSize
    have hbare := congrArg RecSt.bare (hcount.media (by simp))
    exact ⟨hset.trans hcount, hbare⟩

theorem setWrite_written (s : State) (b : Nat) (bytes : List Byte) : SsdsWritten s.media.memberPorts s (s.setWrite b bytes) := by
  unfold State.setWrite
  split
  · exact .refl _ s
  · refine .foldl _ (.refl _ s) fun t c ht => ?_
    split
    · split
      next p hp =>
        refine (ssdWrite_written t p ..).mono fun q hq => ?_
        rw [List.mem_singleton.1 hq, ← ht.ports]
        exact portOf_mem hp
      next => exact .refl _ t
    · exact .refl _ t

theorem setWrites_written {α : Type} (s : State) (l : List α) (b : State → α → Nat) (bytes : State → α → List Byte) :
    SsdsWritten s.media.memberPorts s (l.foldl (fun t x => t.setWrite (b t x) (bytes t x)) s) :=
  .foldl l (.refl _ s) fun t x ht => ht.ports ▸ setWrite_written t (b t x) (bytes t x)

/-! ## Superblocks (R347) -/

/-- The superblock of one member is written. -/
def State.superblockOf (s : State) (sb : Superblock) (k : Nat) : State :=
  match s.media.portOf k with
  | some p =>
    let b := { sb with index := k }.bytes
    ((s.ssdWrite p 1 b).emit (.ssd p "Flush" 0 0)).ssdWrite p 0 b |>.emit (.ssd p "Flush" 0 0)
  | none => s

theorem superblockOf_spec (s : State) (sb : Superblock) (k : Nat) :
    OnlyChanges [.media, .out] (s.media.memberPorts.map Rec.BYTES_WRITTEN) s (s.superblockOf sb k) ∧ (s.superblockOf sb k).media.bare = s.media.bare := by
  unfold State.superblockOf
  split
  next p hp =>
    extract_lets b
    have hfirst := ssdWrite_written s p 1 b
    have hflush : OnlyChanges [.out] [] (s.ssdWrite p 1 b) ((s.ssdWrite p 1 b).emit (.ssd p "Flush" 0 0)) := emitQuiet_only _ rfl
    have hsecond := ssdWrite_written ((s.ssdWrite p 1 b).emit (.ssd p "Flush" 0 0)) p 0 b
    have hlast := emitQuiet_only ((((s.ssdWrite p 1 b).emit (.ssd p "Flush" 0 0)).ssdWrite p 0 b)) (o := .ssd p "Flush" 0 0) rfl
    refine ⟨(((hfirst.1.trans hflush).trans hsecond.1).trans hlast).mono (by simp) (by simpa using ⟨p, portOf_mem hp, rfl⟩), ?_⟩
    rw [hlast.media (by simp), hsecond.2, hflush.media (by simp), hfirst.2]
  next => exact ⟨.nothing s, rfl⟩

theorem writeSuperblocks_spec (s : State) (sb : Superblock) :
    (s.writeSuperblocks sb).media.bare = { s.media.bare with sb := some sb } ∧
      OnlyChanges [.media, .out] (Rec.SET_GENERATION :: s.media.memberPorts.map Rec.BYTES_WRITTEN) s (s.writeSuperblocks sb) ∧
      (sb.generation < 2 ^ 32 → (s.writeSuperblocks sb).rd Rec.SET_GENERATION = sb.generation) := by
  let u : State := { s with media := { s.media with sb := some sb } }
  let v := u.wr Rec.SET_GENERATION sb.generation
  have hu : OnlyChanges [.media] [] s u := setMedia_only s _
  have hv : OnlyChanges [] [Rec.SET_GENERATION] u v := wr_only ..
  have hall : OnlyChanges [.media, .out] (v.media.memberPorts.map Rec.BYTES_WRITTEN) v (v.media.inService.foldl (fun t k => t.superblockOf sb k) v) ∧
      (v.media.inService.foldl (fun t k => t.superblockOf sb k) v).media.bare = v.media.bare := by
    refine List.foldlRecOn (motive := fun t => OnlyChanges [.media, .out] (v.media.memberPorts.map Rec.BYTES_WRITTEN) v t ∧ t.media.bare = v.media.bare) _ _
      ⟨.nothing v, rfl⟩ fun t ht k _ => ?_
    obtain ⟨hone, hbare⟩ := superblockOf_spec t sb k
    rw [show t.media.memberPorts = v.media.memberPorts from (congrArg RecSt.memberPorts ht.2 :)] at hone
    exact ⟨ht.1.then hone, hbare.trans ht.2⟩
  have heq : s.writeSuperblocks sb = v.media.inService.foldl (fun t k => t.superblockOf sb k) v := rfl
  have hmedia : v.media = { s.media with sb := some sb } := hv.media (by simp)
  have hports : v.media.memberPorts = s.media.memberPorts := by rw [hmedia]; rfl
  rw [heq]
  rw [hports] at hall
  refine ⟨by rw [hall.2, hmedia]; rfl, ((hu.trans hv).trans hall.1).mono (by simp) (by simp), fun hfits => ?_⟩
  rw [hall.1.rd (not_mem_of_number (bytesWritten_number _) (by decide))]
  exact rd_wr_word (isWord_recWords 0 _ (by simp [recWords])) hfits u

/-! ## The journal (R353 to R355) -/

/-- The recorder's state beside its SSDs and its journal. -/
def RecSt.working (r : RecSt) : RecSt :=
  { r.bare with dirtyDir := [], dirtyExt := [], jpos := 0, seq := 0, covered := 0, jblocks := 0, sinceCheck := 0, announce := none }

/-- The journal is written. -/
def Journalled (s t : State) : Prop :=
  OnlyChanges [.media] (Rec.CHECKPOINTS :: s.media.memberPorts.map Rec.BYTES_WRITTEN) s t ∧ t.media.working = s.media.working

theorem Journalled.refl (s : State) : Journalled s s := ⟨.nothing s, rfl⟩

theorem Journalled.ports {s t : State} (h : Journalled s t) : t.media.memberPorts = s.media.memberPorts := (congrArg RecSt.memberPorts h.2 :)

theorem Journalled.then {s t u : State} (h : Journalled s t) (g : Journalled t u) : Journalled s u := by
  have hg := g.1
  rw [h.ports] at hg
  exact ⟨h.1.then hg, g.2.trans h.2⟩

theorem SsdsWritten.journalled {s t : State} (h : SsdsWritten s.media.memberPorts s t) : Journalled s t :=
  ⟨h.1.mono (by simp) fun _ hi => List.mem_cons_of_mem _ hi, by
    have hworking (r : RecSt) : r.working = r.bare.working := rfl
    rw [hworking, h.2]
    rfl⟩

theorem Journalled.rd {s t : State} (h : Journalled s t) {id : Nat} (hid : id % 0x10000 ≠ 0x59) (hcheck : id ≠ Rec.CHECKPOINTS) : t.rd id = s.rd id :=
  h.1.rd (by
    rw [List.mem_cons, not_or]
    exact ⟨hcheck, not_mem_of_number (bytesWritten_number _) hid⟩)

/-- The part of a checkpoint that is written in place. -/
def State.inPlace (s : State) (sb : Superblock) : State :=
  let s := ((s.media.dirtyDir.map (· / 16)).eraseDups).foldl (fun t b => t.setWrite (sb.dirStart + b) (t.media.dirBlock (16 * b))) s
  ((s.media.dirtyExt.map (· / 512)).eraseDups).foldl (fun t b => t.setWrite (sb.mapStart + b) (t.media.mapBlock (512 * b))) s

theorem inPlace_written (s : State) (sb : Superblock) : SsdsWritten s.media.memberPorts s (s.inPlace sb) := by
  have hdir := setWrites_written s ((s.media.dirtyDir.map (· / 16)).eraseDups) (fun _ b => sb.dirStart + b) fun t b => t.media.dirBlock (16 * b)
  unfold State.inPlace
  generalize ((s.media.dirtyDir.map (· / 16)).eraseDups).foldl (fun t b => t.setWrite (sb.dirStart + b) (t.media.dirBlock (16 * b))) s = u at hdir
  have hmap := setWrites_written u ((u.media.dirtyExt.map (· / 512)).eraseDups) (fun _ b => sb.mapStart + b) fun t b => t.media.mapBlock (512 * b)
  rw [hdir.ports] at hmap
  exact hdir.then hmap

/-- Nothing of the working copies has changed since. -/
def State.checkpointed (s : State) : State :=
  { s with media := { s.media with
      dirtyDir := [], dirtyExt := s.media.uncommitted, announce := some (s.media.seq - 1), jblocks := 0, sinceCheck := 0 } }

theorem checkpoint_journalled (s : State) : Journalled s s.checkpoint ∧ s.checkpoint.media.seq = s.media.seq := by
  cases hsb : s.media.sb with
  | none =>
    have heq : s.checkpoint = s := by rw [State.checkpoint, hsb]
    rw [heq]
    exact ⟨.refl s, rfl⟩
  | some sb =>
    have heq : s.checkpoint = (s.inPlace sb).checkpointed.count Rec.CHECKPOINTS := by
      rw [State.checkpoint, hsb]
      rfl
    have hplace := inPlace_written s sb
    have hset : OnlyChanges [.media] [] (s.inPlace sb) (s.inPlace sb).checkpointed := setMedia_only ..
    have hcount : OnlyChanges [] [Rec.CHECKPOINTS] (s.inPlace sb).checkpointed ((s.inPlace sb).checkpointed.count Rec.CHECKPOINTS) := count_only ..
    have hmedia := hcount.media (by simp)
    rw [heq]
    refine ⟨⟨((hplace.1.trans hset).trans hcount).mono (by simp) (by simp +contextual [or_imp]), ?_⟩, ?_⟩
    · rw [hmedia]
      exact hplace.journalled.2
    · rw [hmedia]
      exact (congrArg RecSt.seq hplace.2 :)

/-- The entries of a group under the CHECKPOINT entry that is owed, in blocks. -/
def RecSt.groupBlocks (r : RecSt) (entries : List JEntry) : List (List JEntry) :=
  inBlocks 64 ((match r.announce with | some q => [{ type := 7, a := q }] | none => []) ++ entries)

/-- A group of some number of blocks has been written. -/
def State.grouped (s : State) (sb : Superblock) (n : Nat) : State :=
  { s with media := { s.media with
      jpos := (s.media.jpos + n) % max 1 sb.journal
      seq := s.media.seq + 1
      covered := s.media.announce.getD s.media.covered
      announce := none
      jblocks := s.media.jblocks + n } }

theorem journalGroup_journalled (s : State) (entries : List JEntry) :
    Journalled s (s.journalGroup entries) ∧ (s.media.sb.isSome = true → (s.journalGroup entries).media.seq = s.media.seq + 1) := by
  cases hsb : s.media.sb with
  | none =>
    have heq : s.journalGroup entries = s := by rw [State.journalGroup, hsb]
    rw [heq]
    exact ⟨.refl s, fun h => by simp at h⟩
  | some sb =>
    let blocks := s.media.groupBlocks entries
    let v := (blocks.zipIdx).foldl (fun (t : State) e =>
      t.setWrite ((s.media.jpos + e.2) % max 1 sb.journal) (journalBlock sb.setId s.media.seq blocks.length e.2 e.1)) s
    let w := v.grouped sb blocks.length
    have heq : s.journalGroup entries = if sb.journal < 2 * w.media.jblocks then w.checkpoint else w := by
      rw [State.journalGroup, hsb]
      rfl
    have hblocks : SsdsWritten s.media.memberPorts s v :=
      setWrites_written s blocks.zipIdx (fun _ e => (s.media.jpos + e.2) % max 1 sb.journal) fun _ e =>
        journalBlock sb.setId s.media.seq blocks.length e.2 e.1
    have hw : Journalled s w := hblocks.journalled.then ⟨(setMedia_only v _).mono (by simp) (by simp), rfl⟩
    have hseq : w.media.seq = s.media.seq + 1 := congrArg (· + 1) (congrArg RecSt.seq hblocks.2 :)
    rw [heq]
    split
    · obtain ⟨hcheck, hsame⟩ := checkpoint_journalled w
      exact ⟨hw.then hcheck, fun _ => hsame.trans hseq⟩
    · exact ⟨hw, fun _ => hseq⟩

end Sys2Proof.Machine

/-! The media set (R344 to R364): its blocks, formats, mounts and members. -/

namespace Sys2Proof.Machine

/-! ## What the storage target does of itself (R375, R396) -/

/-- Only the storage target, its queue pairs and what they send have moved. -/
def TargetMoves (s t : State) : Prop := ∃ ports : List Nat, OnlyChanges (.qps :: .tgt :: .out :: .free :: ports.map .eth) txIds s t

theorem TargetMoves.of {s t : State} (h : OnlyChanges [.qps, .tgt, .out, .free] txIds s t) : TargetMoves s t := ⟨[], h⟩

theorem TargetMoves.refl (s : State) : TargetMoves s s := .of (.nothing s)

theorem TargetMoves.trans {s t u : State} (h : TargetMoves s t) (g : TargetMoves t u) : TargetMoves s u := by
  obtain ⟨ports, hports⟩ := h
  obtain ⟨more, hmore⟩ := g
  exact ⟨ports ++ more, (hports.trans hmore).mono (by simp +contextual [or_imp]) (by simp)⟩

theorem TargetMoves.media {s t : State} (h : TargetMoves s t) : t.media = s.media := by
  obtain ⟨ports, hports⟩ := h
  exact hports.media (by simp)

theorem TargetMoves.rd {s t : State} (h : TargetMoves s t) {id : Nat} (hid : id ∉ txIds) : t.rd id = s.rd id := by
  obtain ⟨ports, hports⟩ := h
  exact hports.rd hid

theorem setQps_moves (s : State) (q : Table Qp) : TargetMoves s { s with qps := q } := .of ((setQpTable_only s q s.qpSerial).mono (by simp) (by simp))

theorem setAssoc_moves (s : State) (c : Nat) (a : Assoc) : TargetMoves s (s.setAssoc c a) := .of ((setTgt_only s _).mono (by simp) (by simp))

theorem roceOut_moves (s : State) (p extra : Nat) (o : Output) : TargetMoves s (s.roceOut p extra o) :=
  ⟨[p], (roceOut_only s p extra o).mono (by simp) (by simp)⟩

theorem nvmeDoneAt_moves (s : State) (c qid cid status result : Nat) (data : List Byte) (lba nsid : Nat) :
    TargetMoves s (s.nvmeDoneAt c qid cid status result data lba nsid) := by
  unfold State.nvmeDoneAt
  extract_lets q port u v
  have hv : TargetMoves s v := (roceOut_moves s port _ _).trans (setQps_moves u _)
  split
  · split
    · exact hv
    · exact hv.trans (setAssoc_moves ..)
  · exact hv

theorem raiseAt_moves (s : State) (k c : Nat) : TargetMoves s (s.raiseAt k c) := by
  unfold State.raiseAt
  split
  · exact .refl s
  · split
    · split
      · exact (setAssoc_moves ..).trans (nvmeDoneAt_moves ..)
      · exact setAssoc_moves ..
    · exact .refl s

theorem raiseEvent_moves (s : State) (k : Nat) : TargetMoves s (s.raiseEvent k) :=
  List.foldlRecOn (motive := TargetMoves s) _ _ (.refl s) fun t ht c _ => ht.trans (raiseAt_moves t k c)

theorem nsWatch_moves (s before : State) : TargetMoves s (s.nsWatch before) := by
  unfold State.nsWatch
  split
  · exact .refl s
  · exact (TargetMoves.of ((setTgt_only s _).mono (by simp) (by simp))).trans (raiseEvent_moves ..)

/-! ## States of the set and of its members (R344, R356, R363) -/

theorem recNotify_only (s : State) (code amount clip port value : Nat) : OnlyChanges sending sendIds s (s.recNotify code amount clip port value) :=
  notify_only ..

theorem mediaTo_spec (s : State) {st : Nat} (hst : st < 2 ^ 32) :
    (s.mediaTo st).rd Rec.MEDIA_STATE = st ∧ OnlyChanges (.firings :: sending) (Rec.MEDIA_STATE :: sendIds) s (s.mediaTo st) := by
  unfold State.mediaTo
  split
  next h => exact ⟨h, .nothing s⟩
  next =>
    have hwr : OnlyChanges [] [Rec.MEDIA_STATE] s (s.wr Rec.MEDIA_STATE st) := wr_only ..
    have hsent := recNotify_only (s.wr Rec.MEDIA_STATE st) 2 0 0 0xFF st
    refine ⟨?_, ((hwr.trans hsent).trans (fire_only ..)).mono (by simp +contextual [or_comm]) (by simp)⟩
    rw [(fire_only ..).rd (by simp), hsent.rd (by decide)]
    exact rd_wr_word (isWord_recWords 0 _ (by simp [recWords])) hst s

theorem memberTo_only (s : State) (p st : Nat) : OnlyChanges sending (Rec.MEMBER_STATE p :: sendIds) s (s.memberTo p st) := by
  unfold State.memberTo
  split
  · exact .nothing s
  · exact ((wr_only ..).trans (recNotify_only ..)).mono (by simp) (by simp)

theorem memberTo_state (s : State) {p st : Nat} (hp : p < 4) (hst : st < 2 ^ 32) : (s.memberTo p st).rd (Rec.MEMBER_STATE p) = st := by
  unfold State.memberTo
  split
  next h => exact h
  next =>
    rw [(recNotify_only ..).rd (recIds_not_sent ⟨p, hp⟩ _ (by simp [recWords]))]
    exact rd_wr_word (isWord_recWords ⟨p, hp⟩ _ (by simp [recWords])) hst s

/-- The states of several members change. -/
theorem membersTo_only (ports : List Nat) (st : Nat → Nat) (s : State) :
    OnlyChanges sending (ports.map Rec.MEMBER_STATE ++ sendIds) s (ports.foldl (fun t p => t.memberTo p (st p)) s) :=
  .foldl ports (.nothing s) fun t p hp => (memberTo_only t p (st p)).mono (by simp) (by
    simpa using ⟨.inl ⟨p, hp, rfl⟩, fun i hi => .inr hi⟩)

theorem memberState_number (ports : List Nat) : ∀ i ∈ ports.map Rec.MEMBER_STATE, i % 0x10000 = 0x30 := by
  intro i hi
  obtain ⟨p, -, rfl⟩ := List.mem_map.1 hi
  simp only [Rec.MEMBER_STATE]
  omega

theorem membersTo_state {ports : List Nat} {p : Nat} (hp : p < 4) {st : Nat} (hst : st < 2 ^ 32) (s : State)
    (h : p ∈ ports ∨ s.rd (Rec.MEMBER_STATE p) = st) : (ports.foldl (fun t q => t.memberTo q st) s).rd (Rec.MEMBER_STATE p) = st := by
  induction ports generalizing s with
  | nil => exact h.resolve_left (by simp)
  | cons q rest ih =>
    refine ih _ ?_
    by_cases hq : p = q
    · exact .inr (hq ▸ memberTo_state s hp hst)
    · refine (h.imp (fun hmem => (List.mem_cons.1 hmem).resolve_left hq) fun hsame => ?_)
      rw [(memberTo_only s q st).rd, hsame]
      rw [List.mem_cons, not_or]
      exact ⟨by simp only [Rec.MEMBER_STATE]; omega, recIds_not_sent ⟨p, hp⟩ _ (by simp [recWords])⟩

/-! ## Places of a set block (R345) -/

theorem setCopies_apart {layout count a b : Nat} (hlayout : layout < 3) (h : ∃ p, p ∈ setCopies layout count a ∧ p ∈ setCopies layout count b) :
    a = b := by
  obtain ⟨⟨k, l⟩, ha, hb⟩ := h
  interval_cases layout
  · simp only [setCopies, List.mem_singleton, Prod.mk.injEq] at ha hb
    have hunit : a / 256 = b / 256 := by
      rw [← Nat.div_add_mod (a / 256) (max 1 count), ← Nat.div_add_mod (b / 256) (max 1 count)]
      have hrow : a / 256 / max 1 count = b / 256 / max 1 count := by omega
      rw [hrow, ← ha.1, ← hb.1]
    omega
  · simp only [setCopies, List.mem_cons, List.not_mem_nil, or_false, Prod.mk.injEq] at ha hb
    omega
  · simp only [setCopies, List.mem_cons, List.not_mem_nil, or_false, Prod.mk.injEq] at ha hb
    omega

theorem setCopies_inside {layout count a : Nat} (hlayout : layout < 3) (hcount : 1 ≤ count) :
    ∀ p ∈ setCopies layout count a, 256 ≤ p.2 ∧ p.1 < (if layout = 0 then count else if layout = 1 then 2 else 4) := by
  rintro ⟨k, l⟩ hp
  interval_cases layout
  · simp only [setCopies, List.mem_singleton, Prod.mk.injEq] at hp
    have hmod := Nat.mod_lt (a / 256) (show 0 < max 1 count by omega)
    simp only [if_true]
    omega
  · simp only [setCopies, List.mem_cons, List.not_mem_nil, or_false, Prod.mk.injEq] at hp
    simp only [Nat.one_ne_zero, if_false, if_true]
    omega
  · simp only [setCopies, List.mem_cons, List.not_mem_nil, or_false, Prod.mk.injEq] at hp
    simp only [OfNat.ofNat_ne_zero, OfNat.ofNat_ne_one, if_false]
    omega

theorem setCopies_mirrored {layout : Nat} (count a : Nat) (hlayout : layout < 3) (hmirror : layout ≠ 0) :
    ∃ p q, setCopies layout count a = [p, q] ∧ p.1 ≠ q.1 := by
  interval_cases layout
  · exact absurd rfl hmirror
  · exact ⟨_, _, rfl, by simp⟩
  · exact ⟨_, _, rfl, by simp⟩

end Sys2Proof.Machine

/-! Formats, mounts and rebuilds of the media set (R348, R356, R357, R364). -/

namespace Sys2Proof.Machine

/-! ## Formatting (R348) -/

/-- The set of a format stands in the working copies. -/
def State.formatted (s : State) (sb : Superblock) (ports : List Nat) : State :=
  { s with media := { s.media with
      formatting := none, sb := some sb, ports := ports.map some, inService := List.range ports.length, dir := [], exts := [],
      dirtyDir := [], dirtyExt := [], lastClip := 0, lastExtent := none, jpos := 0, seq := 1, covered := 0, jblocks := 0,
      sinceCheck := 0, announce := none } }

/-- The directory and the extent map are zeroed, and the superblocks written. -/
def State.formatWritten (s : State) (sb : Superblock) (dir : Nat) : State :=
  ((List.range (dir / 16 + ceilDiv (sb.extents * 8) blockSize)).foldl (fun t b => t.setWrite (sb.dirStart + b) (zeroBytes blockSize)) s).writeSuperblocks sb

/-- What a format shows of its set. -/
def State.formatShown (s : State) (sb : Superblock) (layout : Nat) : State :=
  s.wrAll [(Rec.SET_ID, sb.setId), (Rec.SET_LAYOUT, layout), (Rec.TOTAL_EXTENTS, sb.extents), (Rec.FREE_EXTENTS, sb.extents)]

theorem formatWritten_bare (s : State) (sb : Superblock) (dir : Nat) :
    (s.formatWritten sb dir).media.bare = { s.media.bare with sb := some sb } := by
  have hzero := setWrites_written s (List.range (dir / 16 + ceilDiv (sb.extents * 8) blockSize)) (fun _ b => sb.dirStart + b) fun _ _ => zeroBytes blockSize
  rw [State.formatWritten, (writeSuperblocks_spec _ sb).1, hzero.2]

theorem formatShown_spec (s : State) (sb : Superblock) (layout : Nat) :
    (s.formatShown sb layout).rd Rec.FREE_EXTENTS = (s.formatShown sb layout).rd Rec.TOTAL_EXTENTS ∧
      OnlyChanges [] [Rec.SET_ID, Rec.SET_LAYOUT, Rec.TOTAL_EXTENTS, Rec.FREE_EXTENTS] s (s.formatShown sb layout) := by
  have hword (id : Nat) (hid : id ∈ recWords 0) : isWord id = true := isWord_recWords 0 id hid
  let u := ((s.wr Rec.SET_ID sb.setId).wr Rec.SET_LAYOUT layout).wr Rec.TOTAL_EXTENTS sb.extents
  have heq : s.formatShown sb layout = u.wr Rec.FREE_EXTENTS sb.extents := by
    simp only [State.formatShown, State.wrAll, List.foldl_cons, List.foldl_nil, u]
  refine ⟨?_, wrAll_only s _⟩
  rw [heq, (wr_only u ..).rd (id := Rec.TOTAL_EXTENTS) (by decide), rd_wr_isWord (hword _ (by simp [recWords])), rd_wr_isWord (hword _ (by simp [recWords]))]

theorem exec_mediaFormatDone {layout : Nat} {ports : List Nat} {journal dir user : Nat} {s : State}
    (hformat : s.media.formatting = some (layout, ports, journal, dir, user)) (hidle : s.tgt.cmds = []) :
    ∃ sb : Superblock, sb.layout = layout ∧ sb.count = ports.length ∧ sb.generation = 1 ∧ sb.journal = journal ∧ sb.dirEntries = dir ∧
      exec .mediaFormatDone s = .next (((((ports.foldl (fun t p => t.memberTo p 3)
        (((s.draw.2.formatted sb ports).formatWritten sb dir).formatShown sb layout)).mediaTo 3).nsWatch s).release .mediaFormat Status.OK)) := by
  refine ⟨s.draw.2.formatSb (Config.recordHandle s.draw.1).toNat layout ports journal dir user, rfl, rfl, rfl, rfl, rfl, ?_⟩
  show execMediaFormatDone s = _
  unfold execMediaFormatDone
  rw [hformat]
  dsimp only
  rw [if_neg (not_not.2 hidle)]
  rfl

theorem mediaFormatDone_formats {layout : Nat} {ports : List Nat} {journal dir user : Nat} {s : State}
    (hformat : s.media.formatting = some (layout, ports, journal, dir, user)) (hidle : s.tgt.cmds = []) :
    ∃ t sb, exec .mediaFormatDone s = .next t ∧ t.media.formatting = none ∧ t.media.sb = some sb ∧ sb.layout = layout ∧
      sb.count = ports.length ∧ sb.generation = 1 ∧ sb.journal = journal ∧ sb.dirEntries = dir ∧ t.media.dir = [] ∧ t.media.exts = [] ∧
      t.media.inService = List.range ports.length ∧ t.media.seq = 1 ∧ t.rd Rec.MEDIA_STATE = 3 ∧
      t.rd Rec.FREE_EXTENTS = t.rd Rec.TOTAL_EXTENTS ∧ ∀ p ∈ ports, p < 4 → t.rd (Rec.MEMBER_STATE p) = 3 := by
  obtain ⟨sb, hlayout, hcount, hgen, hjournal, hdir, hexec⟩ := exec_mediaFormatDone hformat hidle
  have hwritten := formatWritten_bare (s.draw.2.formatted sb ports) sb dir
  generalize (s.draw.2.formatted sb ports).formatWritten sb dir = u at hwritten hexec
  obtain ⟨hfree, hv⟩ := formatShown_spec u sb layout
  generalize u.formatShown sb layout = v at hfree hv hexec
  have hw := membersTo_only ports (fun _ => 3) v
  have hmembers (p : Nat) (hp : p ∈ ports) (hlt : p < 4) := membersTo_state hlt (st := 3) (by decide) v (.inl hp)
  generalize ports.foldl (fun t p => t.memberTo p 3) v = w at hw hexec hmembers
  obtain ⟨hstate, hx⟩ := mediaTo_spec w (st := 3) (by decide)
  have hwatch := nsWatch_moves (w.mediaTo 3) s
  have hrelease := releaseIf_only ((w.mediaTo 3).nsWatch s) fun x => x.why == .mediaFormat
  have hmedia : (((w.mediaTo 3).nsWatch s).release .mediaFormat Status.OK).media.bare = { (s.draw.2.formatted sb ports).media.bare with sb := some sb } := by
    rw [← hwritten, State.release, hrelease.media (by simp), hwatch.media, hx.media (by simp [sending]), hw.media (by simp [sending]), hv.media (by simp)]
  have hend {id : Nat} (hid : id ∉ txIds) : (((w.mediaTo 3).nsWatch s).release .mediaFormat Status.OK).rd id = (w.mediaTo 3).rd id :=
    (hrelease.rd hid).trans (hwatch.rd hid)
  have hextents : ∀ id ∈ [Rec.FREE_EXTENTS, Rec.TOTAL_EXTENTS], (w.mediaTo 3).rd id = v.rd id := by
    intro id hid
    have hfixed : ∀ id ∈ [Rec.FREE_EXTENTS, Rec.TOTAL_EXTENTS], id ∉ Rec.MEDIA_STATE :: sendIds ∧ id ∉ sendIds ∧ id % 0x10000 ≠ 0x30 := by decide
    obtain ⟨hstate, hsend, hnumber⟩ := hfixed id hid
    rw [hx.rd hstate, hw.rd]
    rw [List.mem_append, not_or]
    exact ⟨not_mem_of_number (memberState_number ports) hnumber, hsend⟩
  refine ⟨_, sb, hexec, (congrArg RecSt.formatting hmedia :), (congrArg RecSt.sb hmedia :), hlayout, hcount, hgen, hjournal, hdir, (congrArg RecSt.dir hmedia :),
    (congrArg RecSt.exts hmedia :), (congrArg RecSt.inService hmedia :), (congrArg RecSt.seq hmedia :), ?_, ?_, fun p hp hlt => ?_⟩
  · rw [hend (by decide), hstate]
  · rw [hend (by decide), hend (by decide), hextents _ (by simp), hextents _ (by simp), hfree]
  · have hfixed : ∀ p : Fin 4, Rec.MEMBER_STATE p ∉ txIds ∧ Rec.MEMBER_STATE p ∉ Rec.MEDIA_STATE :: sendIds := by decide
    rw [hend (hfixed ⟨p, hlt⟩).1, hx.rd (hfixed ⟨p, hlt⟩).2, hmembers p hp hlt]

/-! ## Recovery keeps the set (R357) -/

/-- The same set with the same members in service. -/
def SameSet (s t : State) : Prop := t.media.sb = s.media.sb ∧ t.media.inService = s.media.inService

theorem SameSet.refl (s : State) : SameSet s s := ⟨rfl, rfl⟩

theorem SameSet.trans {s t u : State} (h : SameSet s t) (g : SameSet t u) : SameSet s u := ⟨g.1.trans h.1, g.2.trans h.2⟩

theorem SameSet.foldl {α : Type} {z s : State} {f : State → α → State} (l : List α) (h : SameSet z s) (hf : ∀ t x, SameSet t (f t x)) :
    SameSet z (l.foldl f s) :=
  List.foldlRecOn (motive := SameSet z) l f h fun t ht x _ => ht.trans (hf t x)

theorem SameSet.of_media {s t : State} (h : t.media = s.media) : SameSet s t := ⟨by rw [h], by rw [h]⟩

theorem Journalled.sameSet {s t : State} (h : Journalled s t) : SameSet s t := ⟨(congrArg RecSt.sb h.2 :), (congrArg RecSt.inService h.2 :)⟩

theorem setExts_sameSet (s : State) (es : List Nat) (x : Nat → Nat × Nat) : SameSet s (s.setExts es x) :=
  SameSet.trans (t := { s with media := { s.media with
      exts := es.foldl (fun t e => tset t e (0, 0) (x e)) s.media.exts
      dirtyExt := (s.media.dirtyExt ++ es).eraseDups } }) ⟨rfl, rfl⟩ (.of_media ((wr_only ..).media (by simp)))

theorem setDir_sameSet (s : State) (i : Nat) (e : DirEntry) : SameSet s (s.setDir i e) := ⟨rfl, rfl⟩

theorem replay_sameSet (s : State) (e : JEntry) : SameSet s (s.replay e) := by
  unfold State.replay
  extract_lets onDir
  have honDir (f : DirEntry → DirEntry) : SameSet s (onDir f) := by
    unfold onDir
    split
    · exact setDir_sameSet ..
    · exact .refl s
  split
  · exact setDir_sameSet ..
  · exact setExts_sameSet ..
  · exact honDir fun d => { d with length := e.a, records := e.b % 2 ^ 32 }
  · exact honDir fun d => { d with
      state := 2, cause := e.sub, stopTime := e.a, stopEpoch := bits e.b 47 32, stopTick := bits e.b 31 0, length := e.c }
  · split
    · exact (setDir_sameSet ..).trans (setExts_sameSet ..)
    · exact .refl s
  · exact .refl s

theorem replayFrom_sameSet (groups : Table (List JEntry)) (n q : Nat) (s : State) : SameSet s (State.replayFrom groups n q s).2 := by
  induction n generalizing q s with
  | zero => exact .refl s
  | succ n ih =>
    unfold State.replayFrom
    split
    next es _ => exact (SameSet.foldl es (.refl s) replay_sameSet).trans (ih ..)
    next => exact .refl s

theorem closeOpen_sameSet (s : State) : SameSet s s.closeOpen := by
  refine .foldl _ (.refl s) fun t e => ?_
  split
  · refine SameSet.trans ?_ (.of_media ((count_only ..).media (by simp)))
    split
    · exact (setDir_sameSet ..).trans (setExts_sameSet ..)
    · exact setDir_sameSet ..
  · exact .refl t

theorem recover_sameSet (s : State) (sb : Superblock) : SameSet s (s.recover sb) := by
  unfold State.recover
  extract_lets dir exts found groups covered r u
  have hu : SameSet s u := ⟨rfl, rfl⟩
  have hreplayed := replayFrom_sameSet groups groups.length (covered + 1) u
  split
  next seq v hv =>
    rw [hv] at hreplayed
    extract_lets latest jpos last x w
    have hw : SameSet v w := ⟨rfl, rfl⟩
    exact (((hu.trans hreplayed).trans hw).trans (closeOpen_sameSet w)).trans (checkpoint_journalled w.closeOpen).1.sameSet

/-! ## Mounting (R356) -/

theorem exec_mediaMount {s : State} (hruns : s.recorderRuns = true) (hclips : s.media.clips = []) (hrebuild : s.media.rebuilding = none)
    (hformat : s.media.formatting = none) : exec .mediaMount s = .next (s.mount.nsWatch s) :=
  congrArg Host.Outcome.next (if_pos ⟨hruns, hclips, hrebuild, hformat⟩)

theorem rootPorts_le (b : Nat) : rootPorts b ≤ 4 := by
  unfold rootPorts
  match b with
  | 0 | 1 | 2 => decide
  | n + 3 => simp

theorem mem_usablePorts {s : State} {p : Nat} (h : p ∈ s.usablePorts) : p < 4 :=
  (List.mem_range.1 (List.mem_filter.1 h).1).trans_le (rootPorts_le _)

/-- A set of root ports stays usable where SSDs and the bifurcation stay and no member becomes or ceases to be FAILED. -/
theorem usablePorts_congr {s t : State} (hssds : t.media.ssds = s.media.ssds) (hroot : t.rd Rec.PCIE_BIFURCATION = s.rd Rec.PCIE_BIFURCATION)
    (hstate : ∀ p < 4, (t.rd (Rec.MEMBER_STATE p) != 6) = (s.rd (Rec.MEMBER_STATE p) != 6)) : t.usablePorts = s.usablePorts := by
  unfold State.usablePorts
  rw [hroot]
  refine List.filter_congr fun p hp => ?_
  rw [hssds, hstate p ((List.mem_range.1 hp).trans_le (rootPorts_le _))]

/-- No set is in use. -/
def State.unmounted (s : State) : State := { s with media := { s.media with sb := none, ports := [], inService := [], dir := [], exts := [] } }

/-- The usable members of a device with no set are BLANK. -/
def State.membersBlank (s : State) : State := s.usablePorts.foldl (fun t p => t.memberTo p 2) s

theorem mount_none {s : State} (h : s.superblocks = []) :
    s.mount = (s.membersBlank.unmounted.wrAll [(Rec.SET_ID, 0), (Rec.SET_GENERATION, 0), (Rec.TOTAL_EXTENTS, 0), (Rec.FREE_EXTENTS, 0)]).mediaTo
      (if s.membersBlank.unmounted.usablePorts = [] then 0 else 1) := by
  rw [State.mount, h]
  rfl

theorem membersBlank_spec (s : State) :
    s.membersBlank.unmounted.usablePorts = s.usablePorts ∧ OnlyChanges (.media :: sending) (s.usablePorts.map Rec.MEMBER_STATE ++ sendIds) s
      s.membersBlank.unmounted := by
  have hblank : OnlyChanges sending (s.usablePorts.map Rec.MEMBER_STATE ++ sendIds) s s.membersBlank := membersTo_only s.usablePorts (fun _ => 2) s
  have hset : OnlyChanges [.media] [] s.membersBlank s.membersBlank.unmounted := setMedia_only ..
  have hall := hblank.trans hset
  refine ⟨usablePorts_congr ?_ ?_ fun p hlt => ?_, hall.mono (by simp +contextual [or_imp]) (by simp)⟩
  · have hmedia := hblank.media (by simp [sending])
    exact (congrArg RecSt.ssds hmedia :)
  · refine hall.rd ?_
    rw [List.append_nil, List.mem_append, not_or]
    exact ⟨not_mem_of_number (memberState_number _) (by decide), by decide⟩
  · by_cases hp : p ∈ s.usablePorts
    · have hstate : (s.rd (Rec.MEMBER_STATE p) != 6) = true := by
        have husable := (List.mem_filter.1 hp).2
        split at husable
        · rw [Bool.and_eq_true] at husable
          exact husable.2
        · simp at husable
      have hblankState : s.membersBlank.rd (Rec.MEMBER_STATE p) = 2 := membersTo_state hlt (by decide) s (.inl hp)
      rw [hset.rd (by simp), hblankState, hstate]
      rfl
    · rw [hall.rd]
      rw [List.append_nil, List.mem_append, not_or]
      refine ⟨?_, recIds_not_sent ⟨p, hlt⟩ _ (by simp [recWords])⟩
      simp only [List.mem_map, not_exists, not_and, Rec.MEMBER_STATE]
      exact fun q hq heq => hp (by rwa [show p = q by omega])

section

variable {s : State} (hruns : s.recorderRuns = true) (hclips : s.media.clips = []) (hrebuild : s.media.rebuilding = none) (hformat : s.media.formatting = none)

include hruns hclips hrebuild hformat

theorem mediaMount_finds_none (h : s.superblocks = []) :
    ∃ t, exec .mediaMount s = .next t ∧ t.media.sb = none ∧ t.media.inService = [] ∧ t.rd Rec.SET_ID = 0 ∧ t.rd Rec.FREE_EXTENTS = 0 ∧
      t.rd Rec.MEDIA_STATE = (if s.usablePorts = [] then 0 else 1) := by
  obtain ⟨husable, -⟩ := membersBlank_spec s
  have hmount := mount_none h
  rw [husable] at hmount
  have hset : s.membersBlank.unmounted.media.sb = none ∧ s.membersBlank.unmounted.media.inService = [] := ⟨rfl, rfl⟩
  generalize s.membersBlank.unmounted = u at hmount hset
  let v := u.wrAll [(Rec.SET_ID, 0), (Rec.SET_GENERATION, 0), (Rec.TOTAL_EXTENTS, 0), (Rec.FREE_EXTENTS, 0)]
  have hv : OnlyChanges [] [Rec.SET_ID, Rec.SET_GENERATION, Rec.TOTAL_EXTENTS, Rec.FREE_EXTENTS] u v := wrAll_only ..
  have heq : v = (((u.wr Rec.SET_ID 0).wr Rec.SET_GENERATION 0).wr Rec.TOTAL_EXTENTS 0).wr Rec.FREE_EXTENTS 0 := by
    simp only [v, State.wrAll, List.foldl_cons, List.foldl_nil]
  have hid : v.rd Rec.SET_ID = 0 := by
    rw [heq, (wr_only ..).rd (by decide), (wr_only ..).rd (by decide), (wr_only ..).rd (by decide),
      rd_wr_long (isCounter_recLongs 0 _ (by simp [recLongs])) (by decide)]
  have hfree : v.rd Rec.FREE_EXTENTS = 0 := by rw [heq, rd_wr_word (isWord_recWords 0 _ (by simp [recWords])) (by decide)]
  obtain ⟨hstate, hw⟩ := mediaTo_spec v (st := if s.usablePorts = [] then 0 else 1) (by split <;> decide)
  have hwatch := nsWatch_moves s.mount s
  rw [hmount] at hwatch
  have hmedia : ((v.mediaTo (if s.usablePorts = [] then 0 else 1)).nsWatch s).media = u.media := by
    rw [hwatch.media, hw.media (by simp [sending]), hv.media (by simp)]
  refine ⟨_, (exec_mediaMount hruns hclips hrebuild hformat).trans (by rw [hmount]), ?_, ?_, ?_, ?_, ?_⟩
  · rw [hmedia, hset.1]
  · rw [hmedia, hset.2]
  · rw [hwatch.rd (by decide), hw.rd (by decide), hid]
  · rw [hwatch.rd (by decide), hw.rd (by decide), hfree]
  · rw [hwatch.rd (by decide), hstate]

end

/-- A set that is found and covered is recovered. -/
def State.setServed (s : State) (sb : Superblock) (members : List Nat) : State :=
  if setCovered sb.layout sb.count members then
    ((s.recover sb).wr Rec.FREE_EXTENTS (s.recover sb).media.freeExtents).mediaTo (if members.length = sb.count then 3 else 4)
  else s.mediaTo 2

theorem setServed_spec {s : State} {sb : Superblock} {members : List Nat} (hsb : s.media.sb = some sb) (hmembers : s.media.inService = members) :
    (s.setServed sb members).media.sb = some sb ∧ (s.setServed sb members).media.inService = members ∧
      (s.setServed sb members).rd Rec.MEDIA_STATE =
        (if setCovered sb.layout sb.count members then (if members.length = sb.count then 3 else 4) else 2) := by
  unfold State.setServed
  split
  · obtain ⟨hset, hserve⟩ := recover_sameSet s sb
    obtain ⟨hstate, hto⟩ := mediaTo_spec ((s.recover sb).wr Rec.FREE_EXTENTS (s.recover sb).media.freeExtents)
      (st := if members.length = sb.count then 3 else 4) (by split <;> decide)
    have hmedia := (hto.media (by simp [sending])).trans ((wr_only ..).media (by simp))
    exact ⟨by rw [hmedia, hset, hsb], by rw [hmedia, hserve, hmembers], hstate⟩
  · obtain ⟨hstate, hto⟩ := mediaTo_spec s (st := 2) (by decide)
    have hmedia := hto.media (by simp [sending])
    exact ⟨by rw [hmedia, hsb], by rw [hmedia, hmembers], hstate⟩

theorem mount_found {s : State} (h : s.superblocks ≠ []) :
    ∃ (u : State) (sb : Superblock) (members : List Nat), s.mount = u.setServed sb members ∧ u.media.sb = some sb ∧ u.media.inService = members := by
  unfold State.mount
  extract_lets sbs
  split
  next hnone => exact absurd (List.head?_eq_none_iff.1 hnone) h
  next first _ =>
    extract_lets mine gen sb served u ports members x v w
    have hshown : w.media = v.media := (wrAll_only v _).media (by simp)
    exact ⟨w, sb, members, rfl, by rw [hshown], by rw [hshown]⟩

theorem mediaMount_finds_one {s : State} (hruns : s.recorderRuns = true) (hclips : s.media.clips = []) (hrebuild : s.media.rebuilding = none)
    (hformat : s.media.formatting = none) (h : s.superblocks ≠ []) :
    ∃ t sb, exec .mediaMount s = .next t ∧ t.media.sb = some sb ∧ t.rd Rec.MEDIA_STATE =
      (if setCovered sb.layout sb.count t.media.inService then (if t.media.inService.length = sb.count then 3 else 4) else 2) := by
  obtain ⟨u, sb, members, hmount, hsb, hmembers⟩ := mount_found h
  obtain ⟨hset, hserve, hstate⟩ := setServed_spec hsb hmembers
  have hwatch := nsWatch_moves s.mount s
  rw [← hmount] at hset hserve hstate
  refine ⟨_, sb, exec_mediaMount hruns hclips hrebuild hformat, by rw [hwatch.media, hset], ?_⟩
  rw [hwatch.rd (by decide), hwatch.media, hserve, hstate]

end Sys2Proof.Machine

/-! Rebuilds and members of the media set (R344, R363, R364), and O38. -/

namespace Sys2Proof.Machine

/-! ## Rebuilding (R364) -/

/-- Every block in use is on the new member. -/
def State.rebuiltBlocks (s : State) (sb : Superblock) (k p : Nat) : State :=
  ((List.range (sb.userStart + sb.userMiB * 256)) ++
      s.media.exts.flatMap fun e => (List.range extentBlocks).map fun i => sb.extBase + e.1 * extentBlocks + i).foldl
    (fun t b => match (setCopies sb.layout sb.count b).find? fun c => c.1 == k with
      | some c => t.ssdWrite p c.2 (t.setRead b)
      | none => t) s

theorem rebuiltBlocks_written (s : State) (sb : Superblock) (k p : Nat) : SsdsWritten [p] s (s.rebuiltBlocks sb k p) := by
  refine .foldl _ (.refl _ s) fun t b _ => ?_
  split
  · exact ssdWrite_written ..
  · exact .refl _ t

/-- The new member is in service. -/
def State.memberJoined (s : State) (count k p : Nat) : State :=
  { s with media := { s.media with
      rebuilding := none
      ports := (List.range count).map fun i => if i = k then some p else s.media.portOf i
      inService := (List.range count).filter fun i => s.media.inService.contains i || i == k } }

theorem memberJoined_spec (s : State) {count k : Nat} (hk : k < count) (p : Nat) :
    k ∈ (s.memberJoined count k p).media.inService ∧ (s.memberJoined count k p).media.portOf k = some p := by
  refine ⟨List.mem_filter.2 ⟨List.mem_range.2 hk, by simp⟩, ?_⟩
  show ((List.range count).map fun i => if i = k then some p else s.media.portOf i).getD k none = some p
  rw [List.getD_eq_getElem?_getD, List.getElem?_map, List.getElem?_range hk]
  simp

/-- The superblock after a rebuild: the next GENERATION, with the failed bit cleared. -/
def State.rebuiltSb (s : State) (sb : Superblock) (k p : Nat) : Superblock :=
  { sb with generation := (sb.generation + 1) % 2 ^ 32, failed := clearFlag sb.failed k
            ids := (List.range 4).map fun i => if i = k then s.rd (Rec.MEMBER_ID p) else sb.ids.getD i 0 }

theorem exec_mediaRebuildDone {k p : Nat} {sb : Superblock} {s : State} (hrebuild : s.media.rebuilding = some (k, p)) (hsb : s.media.sb = some sb) :
    exec .mediaRebuildDone s = .next (
      let u := (s.rebuiltBlocks sb k p).memberJoined sb.count k p
      let v := (u.writeSuperblocks (u.rebuiltSb sb k p)).wr Rec.REBUILD_PROGRESS 1000
      (v.memberTo p 3).mediaTo (if v.media.inService.length = sb.count then 3 else 4)) := by
  show execMediaRebuildDone s = _
  unfold execMediaRebuildDone
  rw [hrebuild, hsb]
  rfl

theorem mediaRebuildDone_joins {k p : Nat} {sb : Superblock} {s : State} (hrebuild : s.media.rebuilding = some (k, p)) (hsb : s.media.sb = some sb)
    (hp : p < 4) (hk : k < sb.count) :
    ∃ t sb', exec .mediaRebuildDone s = .next t ∧ t.media.rebuilding = none ∧ t.media.sb = some sb' ∧
      sb'.generation = (sb.generation + 1) % 2 ^ 32 ∧ sb'.failed = clearFlag sb.failed k ∧ k ∈ t.media.inService ∧
      t.media.portOf k = some p ∧ t.rd Rec.SET_GENERATION = (sb.generation + 1) % 2 ^ 32 ∧ t.rd Rec.REBUILD_PROGRESS = 1000 ∧
      t.rd (Rec.MEMBER_STATE p) = 3 ∧ t.rd Rec.MEDIA_STATE = (if t.media.inService.length = sb.count then 3 else 4) := by
  have hexec := exec_mediaRebuildDone hrebuild hsb
  let u := (s.rebuiltBlocks sb k p).memberJoined sb.count k p
  obtain ⟨hserves, hport⟩ := memberJoined_spec (s.rebuiltBlocks sb k p) hk p
  obtain ⟨hbare, -, hgen⟩ := writeSuperblocks_spec u (u.rebuiltSb sb k p)
  let v := (u.writeSuperblocks (u.rebuiltSb sb k p)).wr Rec.REBUILD_PROGRESS 1000
  have hv : OnlyChanges [] [Rec.REBUILD_PROGRESS] (u.writeSuperblocks (u.rebuiltSb sb k p)) v := wr_only ..
  have hprogress : v.rd Rec.REBUILD_PROGRESS = 1000 := rd_wr_word (isWord_recWords 0 _ (by simp [recWords])) (by decide) _
  have hgeneration : v.rd Rec.SET_GENERATION = (sb.generation + 1) % 2 ^ 32 := (hv.rd (by decide)).trans (hgen (Nat.mod_lt _ (by decide)))
  have hvmedia : v.media.bare = { u.media.bare with sb := some (u.rebuiltSb sb k p) } := by rw [hv.media (by simp), hbare]
  have hstate := memberTo_state v hp (st := 3) (by decide)
  have hw := memberTo_only v p 3
  generalize hw' : v.memberTo p 3 = w at hstate hw
  obtain ⟨hmedia, ht⟩ := mediaTo_spec w (st := if v.media.inService.length = sb.count then 3 else 4) (by split <;> decide)
  generalize ht' : w.mediaTo (if v.media.inService.length = sb.count then 3 else 4) = t at hmedia ht
  have hrd : ∀ p : Fin 4, ∀ id ∈ [Rec.SET_GENERATION, Rec.REBUILD_PROGRESS], id ∉ Rec.MEMBER_STATE p :: sendIds ∧ id ∉ Rec.MEDIA_STATE :: sendIds := by decide
  have htw : t.media = w.media := ht.media (by simp [sending])
  have htmedia : t.media.bare = { u.media.bare with sb := some (u.rebuiltSb sb k p) } := by rw [htw, hw.media (by simp [sending]), hvmedia]
  refine ⟨t, u.rebuiltSb sb k p, ?_, (congrArg RecSt.rebuilding htmedia :), (congrArg RecSt.sb htmedia :), rfl, rfl, ?_, ?_, ?_, ?_, ?_, ?_⟩
  · rw [hexec, ← ht', ← hw']
  · rw [show t.media.inService = u.media.inService from (congrArg RecSt.inService htmedia :)]
    exact hserves
  · exact (congrArg (fun r : RecSt => r.portOf k) htmedia :).trans hport
  · rw [ht.rd (hrd ⟨p, hp⟩ _ (by simp)).2, hw.rd (hrd ⟨p, hp⟩ _ (by simp)).1, hgeneration]
  · rw [ht.rd (hrd ⟨p, hp⟩ _ (by simp)).2, hw.rd (hrd ⟨p, hp⟩ _ (by simp)).1, hprogress]
  · rw [ht.rd ((by decide : ∀ p : Fin 4, Rec.MEMBER_STATE p ∉ Rec.MEDIA_STATE :: sendIds) ⟨p, hp⟩), hstate]
  · rw [hmedia, htw, hw.media (by simp [sending])]

/-! ## Members that fail (R363) -/

/-- What a member reports of itself. -/
def memberIds (p : Nat) : List Nat := [Rec.MEMBER_STATE p, Rec.MEMBER_FAILURES p, Rec.NVME_ERRORS p, Rec.NVME_TIMEOUTS p]

/-- The parameters of a member stand. -/
def MemberStands (p : Nat) (s t : State) : Prop := ∀ id ∈ memberIds p, t.rd id = s.rd id

theorem MemberStands.trans {p : Nat} {s t u : State} (h : MemberStands p s t) (g : MemberStands p t u) : MemberStands p s u :=
  fun id hid => (g id hid).trans (h id hid)

theorem OnlyChanges.memberStands {ps : List Part} {ids : List Nat} {s t : State} {p : Nat} (h : OnlyChanges ps ids s t)
    (hids : ∀ id ∈ memberIds p, id ∉ ids) : MemberStands p s t :=
  fun id hid => h.rd (hids id hid)

theorem memberIds_not_sent : ∀ p : Fin 4, ∀ id ∈ memberIds p, id ∉ Rec.MEDIA_STATE :: sendIds ∧ id ∉ txIds := by decide

theorem memberIds_number {p id : Nat} (hid : id ∈ memberIds p) : id % 0x10000 ∈ [0x30, 0x56, 0x57, 0x58] := by
  simp only [memberIds, List.mem_cons, List.not_mem_nil, or_false, Rec.MEMBER_STATE, Rec.MEMBER_FAILURES, Rec.NVME_ERRORS, Rec.NVME_TIMEOUTS] at hid ⊢
  omega

theorem mediaTo_memberStands (s : State) (p : Fin 4) {st : Nat} (hst : st < 2 ^ 32) : MemberStands p s (s.mediaTo st) :=
  (mediaTo_spec s hst).2.memberStands fun id hid => (memberIds_not_sent p id hid).1

theorem updateRun_only (s : State) : OnlyChanges (.pow :: sending) sendIds s s.updateRun := by
  unfold State.updateRun
  dsimp only
  split
  · exact setGlobal_only ..
  · split
    · exact setGlobal_only ..
    · exact .nothing s

theorem issueRead_only (s : State) (c : NvmeCmd) : OnlyChanges [.out] [] s (s.issueRead c).1 := by
  refine .foldl _ (.nothing s) fun t r _ => ?_
  split
  · exact emitQuiet_only t rfl
  · exact .nothing t

theorem reissueReads_only (s : State) (k : Nat) : OnlyChanges [.out, .tgt] [] s (s.reissueReads k) := by
  refine .foldl _ (.nothing s) fun t c _ => ?_
  dsimp only
  split
  · exact ((issueRead_only t c).trans (setTgt_only ..)).mono (by simp) (by simp)
  · exact .nothing t

/-- The CLIP_STOP that waits for a clip is answered. -/
def State.stopAnswered (s : State) (c : Clip) : State := match c.stopReq with | some r => s.reply r 0x61 Status.OK c.stopPayload | none => s

theorem stopAnswered_only (s : State) (c : Clip) : OnlyChanges sending sendIds s (s.stopAnswered c) := by
  unfold State.stopAnswered
  split
  · exact (reply_only ..).mono (by simp [sending]) (by decide)
  · exact .nothing s

/-- A clip of a set that is no longer complete is closed at once. -/
def State.clipDropped (s : State) (e : Nat × Clip) : State :=
  let c := { e.2 with cause := 2, stopTick := some (e.2.stopTick.getD ((s.tickSeq + 1) % 2 ^ 32)) }
  let t := { s with media := { s.media with clips := tdel s.media.clips e.1 } }
  let t := t.wrAll [(Rec.CLIP_SLOT_ID e.1, 0), (Rec.CLIP_SLOT_STATE e.1, 0), (Rec.OPEN_CLIPS, t.media.clips.length)]
  ((t.stopAnswered c).recNotify 1 c.length c.id 0xFF 2).fire 193

theorem clipDropped_spec (s : State) (e : Nat × Clip) (p : Fin 4) : SameSet s (s.clipDropped e) ∧ MemberStands p s (s.clipDropped e) := by
  let u : State := { s with media := { s.media with clips := tdel s.media.clips e.1 } }
  let v := u.wrAll [(Rec.CLIP_SLOT_ID e.1, 0), (Rec.CLIP_SLOT_STATE e.1, 0), (Rec.OPEN_CLIPS, u.media.clips.length)]
  have hu : OnlyChanges [.media] [] s u := setMedia_only s _
  have hv : OnlyChanges [] [Rec.CLIP_SLOT_ID e.1, Rec.CLIP_SLOT_STATE e.1, Rec.OPEN_CLIPS] u v := wrAll_only ..
  have hend : OnlyChanges (.firings :: sending) sendIds v (s.clipDropped e) :=
    (((stopAnswered_only v _).trans (recNotify_only ..)).trans (fire_only ..)).mono (by simp +contextual [or_imp]) (by simp)
  have hset : SameSet s u := ⟨rfl, rfl⟩
  refine ⟨hset.trans (.of_media ?_), ?_⟩
  · rw [hend.media (by simp [sending]), hv.media (by simp)]
  · refine ((hu.trans hv).trans hend).memberStands fun id hid => ?_
    have hnumber := memberIds_number hid
    have hsend := (memberIds_not_sent p id hid).1
    simp only [List.mem_cons, List.not_mem_nil, or_false, not_or, List.nil_append, List.mem_append, Rec.CLIP_SLOT_ID, Rec.CLIP_SLOT_STATE, Rec.OPEN_CLIPS] at hnumber hsend ⊢
    refine ⟨⟨?_, ?_, ?_⟩, hsend.2⟩ <;> omega

/-- The member is FAILED, and counted. -/
def State.memberDown (s : State) (p : Nat) : State := (s.memberTo p 6).count (Rec.MEMBER_FAILURES p)

theorem memberDown_spec (s : State) (p : Fin 4) :
    (s.memberDown p).rd (Rec.MEMBER_STATE p) = 6 ∧ (s.memberDown p).rd (Rec.MEMBER_FAILURES p) = countUp (s.rd (Rec.MEMBER_FAILURES p)) 1 ∧
      OnlyChanges sending (Rec.MEMBER_STATE p :: Rec.MEMBER_FAILURES p :: sendIds) s (s.memberDown p) := by
  have hu := memberTo_only s p 6
  have ht : OnlyChanges [] [Rec.MEMBER_FAILURES p] (s.memberTo p 6) (s.memberDown p) := count_only ..
  refine ⟨?_, ?_, (hu.trans ht).mono (by simp) (by simp +contextual [or_imp])⟩
  · rw [ht.rd ((by decide : ∀ p : Fin 4, Rec.MEMBER_STATE p ∉ [Rec.MEMBER_FAILURES p]) p), memberTo_state s p.isLt (by decide)]
  · rw [State.memberDown, rd_count_counter (isCounter_recLongs p _ (by simp [recLongs])),
      hu.rd ((by decide : ∀ p : Fin 4, Rec.MEMBER_FAILURES p ∉ Rec.MEMBER_STATE p :: sendIds) p)]

/-- A member of the set is out of service. -/
def State.memberOut (s : State) (k : Nat) : State :=
  ({ s with media := { s.media with inService := s.media.inService.filter fun i => i != k } }).reissueReads k

/-- The set goes on without the member, under the next GENERATION. -/
def State.setDegraded (s : State) (sb : Superblock) (k : Nat) : State :=
  let sb' := { sb with generation := (sb.generation + 1) % 2 ^ 32, failed := setFlag sb.failed k }
  let s := (s.writeSuperblocks sb').journalGroup [{ type := 6, a := sb'.failed, b := sb'.generation }]
  if s.media.rebuilding.isSome then s else s.mediaTo 4

/-- The set is INCOMPLETE, and its clips stop. -/
def State.setIncomplete (s : State) : State :=
  let s := { s with media := { s.media with run := none, rebuilding := none } }
  ((s.media.clips.foldl State.clipDropped s).mediaTo 2).updateRun

/-- A rebuild onto the member ends. -/
def State.rebuildEnded (s : State) : State := ({ s with media := { s.media with rebuilding := none } }).mediaTo 4

/-- A rebuild onto the root port runs. -/
def RecSt.rebuildsOn (r : RecSt) (p : Nat) : Bool := match r.rebuilding with | some (_, q) => q == p | none => false

theorem memberFailed_eq (s : State) (p : Nat) :
    s.memberFailed p =
      let u := s.memberDown p
      if u.media.rebuildsOn p then u.rebuildEnded
      else match u.media.sb, u.media.ports.findIdx? fun q => q == some p with
        | some sb, some k =>
          if u.media.inService.contains k then
            if setCovered sb.layout sb.count (u.memberOut k).media.inService then (u.memberOut k).setDegraded sb k else (u.memberOut k).setIncomplete
          else u
        | _, _ => u := rfl

theorem memberIds_written {p : Nat} (ports : List Nat) {id : Nat} (hid : id ∈ memberIds p) : id ∉ ports.map Rec.BYTES_WRITTEN := by
  have hnumber := memberIds_number hid
  simp only [List.mem_cons, List.not_mem_nil, or_false] at hnumber
  exact not_mem_of_number (bytesWritten_number ports) (by omega)

theorem setDegraded_spec (s : State) (sb : Superblock) (k : Nat) (p : Fin 4) :
    MemberStands p s (s.setDegraded sb k) ∧ (s.setDegraded sb k).media.inService = s.media.inService ∧
      (s.media.rebuilding = none → (s.setDegraded sb k).rd Rec.MEDIA_STATE = 4) := by
  unfold State.setDegraded
  extract_lets sb' u
  obtain ⟨hbare, hwrite, -⟩ := writeSuperblocks_spec s sb'
  obtain ⟨hjournal, -⟩ := journalGroup_journalled (s.writeSuperblocks sb') [{ type := 6, a := sb'.failed, b := sb'.generation }]
  have hfixed : ∀ p : Fin 4, ∀ id ∈ memberIds p, id ≠ Rec.SET_GENERATION ∧ id ≠ Rec.CHECKPOINTS := by decide
  have hu : MemberStands p s u := by
    refine MemberStands.trans (hwrite.memberStands fun id hid => ?_) (hjournal.1.memberStands fun id hid => ?_)
    · rw [List.mem_cons, not_or]
      exact ⟨(hfixed p id hid).1, memberIds_written _ hid⟩
    · rw [List.mem_cons, not_or]
      exact ⟨(hfixed p id hid).2, memberIds_written _ hid⟩
  have hmedia : u.media.working = { s.media.working with sb := some sb' } := by
    rw [hjournal.2]
    have hworking (r : RecSt) : r.working = r.bare.working := rfl
    rw [hworking, hbare]
    rfl
  have hserve : u.media.inService = s.media.inService := (congrArg RecSt.inService hmedia :)
  have hrebuild : u.media.rebuilding = s.media.rebuilding := (congrArg RecSt.rebuilding hmedia :)
  split
  next hsome => exact ⟨hu, hserve, fun h => by rw [hrebuild, h] at hsome; simp at hsome⟩
  next =>
    obtain ⟨hstate, hto⟩ := mediaTo_spec u (st := 4) (by decide)
    exact ⟨hu.trans (mediaTo_memberStands u p (by decide)), (congrArg RecSt.inService (hto.media (by simp [sending]))).trans hserve, fun _ => hstate⟩

theorem setIncomplete_spec (s : State) (p : Fin 4) :
    MemberStands p s s.setIncomplete ∧ s.setIncomplete.media.inService = s.media.inService ∧ s.setIncomplete.rd Rec.MEDIA_STATE = 2 := by
  let u : State := { s with media := { s.media with run := none, rebuilding := none } }
  have hu : OnlyChanges [.media] [] s u := setMedia_only s _
  have hclips : SameSet u (u.media.clips.foldl State.clipDropped u) ∧ MemberStands p u (u.media.clips.foldl State.clipDropped u) :=
    List.foldlRecOn (motive := fun t => SameSet u t ∧ MemberStands p u t) _ _ ⟨.refl u, fun _ _ => rfl⟩ fun t ht e _ => by
      obtain ⟨hset, hstands⟩ := clipDropped_spec t e p
      exact ⟨ht.1.trans hset, ht.2.trans hstands⟩
  generalize hv : u.media.clips.foldl State.clipDropped u = v at hclips
  obtain ⟨hstate, hto⟩ := mediaTo_spec v (st := 2) (by decide)
  have hrun := updateRun_only (v.mediaTo 2)
  have heq : s.setIncomplete = (v.mediaTo 2).updateRun := by rw [← hv]; rfl
  rw [heq]
  refine ⟨((hu.memberStands (by simp)).trans hclips.2).trans ((mediaTo_memberStands v p (by decide)).trans (hrun.memberStands fun id hid => ?_)), ?_, ?_⟩
  · have hsend := (memberIds_not_sent p id hid).1
    rw [List.mem_cons, not_or] at hsend
    exact hsend.2
  · rw [hrun.media (by simp [sending]), hto.media (by simp [sending]), hclips.1.2]
  · rw [hrun.rd (by decide), hstate]

theorem memberOut_spec (s : State) (k : Nat) :
    (s.memberOut k).media = { s.media with inService := s.media.inService.filter fun i => i != k } ∧ OnlyChanges [.media, .out, .tgt] [] s (s.memberOut k) := by
  have hset : OnlyChanges [.media] [] s { s with media := { s.media with inService := s.media.inService.filter fun i => i != k } } := setMedia_only s _
  have hread := reissueReads_only { s with media := { s.media with inService := s.media.inService.filter fun i => i != k } } k
  exact ⟨hread.media (by simp), hset.trans hread⟩

theorem memberFailed_stands (s : State) (p : Fin 4) : MemberStands p (s.memberDown p) (s.memberFailed p) := by
  rw [memberFailed_eq]
  generalize s.memberDown p = u
  dsimp only
  split
  · have hset : OnlyChanges [.media] [] u { u with media := { u.media with rebuilding := none } } := setMedia_only u _
    exact (hset.memberStands (by simp)).trans (mediaTo_memberStands _ p (show 4 < 2 ^ 32 by decide))
  · split
    · split
      · have hout := (memberOut_spec u ‹_›).2.memberStands (p := p) (by simp)
        split
        · exact hout.trans (setDegraded_spec ..).1
        · exact hout.trans (setIncomplete_spec _ p).1
      · exact fun _ _ => rfl
    · exact fun _ _ => rfl

theorem memberFailed_leaves {s : State} {p : Fin 4} {sb : Superblock} {k : Nat} (hsb : s.media.sb = some sb)
    (hk : (s.media.ports.findIdx? fun q => q == some p.val) = some k) (hserves : k ∈ s.media.inService) (hrebuild : s.media.rebuilding = none) :
    (s.memberFailed p).media.inService = s.media.inService.filter (fun i => i != k) ∧
      (s.memberFailed p).rd Rec.MEDIA_STATE = (if setCovered sb.layout sb.count (s.memberFailed p).media.inService then 4 else 2) := by
  have hdown : (s.memberDown p).media = s.media := (memberDown_spec s p).2.2.media (by simp [sending])
  rw [memberFailed_eq]
  generalize s.memberDown p = u at hdown
  obtain ⟨hmedia, -⟩ := memberOut_spec u k
  have hserve : (u.memberOut k).media.inService = s.media.inService.filter fun i => i != k := by rw [hmedia, hdown]
  have hnone : (u.memberOut k).media.rebuilding = none := by rw [hmedia, hdown, hrebuild]
  simp only [RecSt.rebuildsOn, hdown, hrebuild, hsb, hk, Bool.false_eq_true, if_false, List.contains_iff_mem.2 hserves, if_true, hserve]
  split
  next hcovered =>
    obtain ⟨-, hsame, hstate⟩ := setDegraded_spec (u.memberOut k) sb k p
    exact ⟨hsame.trans hserve, (hstate hnone).trans (by rw [hsame, hserve, if_pos hcovered])⟩
  next hlost =>
    obtain ⟨-, hsame, hstate⟩ := setIncomplete_spec (u.memberOut k) p
    exact ⟨hsame.trans hserve, hstate.trans (by rw [hsame, hserve, if_neg hlost])⟩

theorem memberFailed_fails (s : State) (p : Fin 4) :
    (s.memberFailed p).rd (Rec.MEMBER_STATE p) = 6 ∧ (s.memberFailed p).rd (Rec.MEMBER_FAILURES p) = countUp (s.rd (Rec.MEMBER_FAILURES p)) 1 ∧
      ∀ id ∈ [Rec.NVME_ERRORS p, Rec.NVME_TIMEOUTS p], (s.memberFailed p).rd id = s.rd id := by
  obtain ⟨hstate, hcount, hdown⟩ := memberDown_spec s p
  have hstands := memberFailed_stands s p
  refine ⟨(hstands _ (by simp [memberIds])).trans hstate, (hstands _ (by simp [memberIds])).trans hcount, fun id hid => ?_⟩
  rw [hstands id (by simp [memberIds] at hid ⊢; tauto), hdown.rd]
  exact (by decide : ∀ p : Fin 4, ∀ id ∈ [Rec.NVME_ERRORS p, Rec.NVME_TIMEOUTS p], id ∉ Rec.MEMBER_STATE p :: Rec.MEMBER_FAILURES p :: sendIds) p id hid

section

variable {p : Fin 4} {s : State} (hruns : s.recorderRuns = true) (hpresent : (tfind s.media.ssds p).isSome = true)

include hruns hpresent

theorem memberTimeout_fails :
    ∃ t, exec (.memberTimeout p) s = .next t ∧ t.rd (Rec.MEMBER_STATE p) = 6 ∧
      t.rd (Rec.NVME_TIMEOUTS p) = countUp (s.rd (Rec.NVME_TIMEOUTS p)) 1 ∧
      t.rd (Rec.MEMBER_FAILURES p) = countUp (s.rd (Rec.MEMBER_FAILURES p)) 1 := by
  have hu : OnlyChanges [] [Rec.NVME_TIMEOUTS p] s (s.count (Rec.NVME_TIMEOUTS p)) := count_only ..
  obtain ⟨hstate, hcount, hkept⟩ := memberFailed_fails (s.count (Rec.NVME_TIMEOUTS p)) p
  have hwatch := nsWatch_moves ((s.count (Rec.NVME_TIMEOUTS p)).memberFailed p) s
  have hend {id : Nat} (hid : id ∈ memberIds p) : (((s.count (Rec.NVME_TIMEOUTS p)).memberFailed p).nsWatch s).rd id = _ :=
    hwatch.rd (memberIds_not_sent p id hid).2
  refine ⟨_, congrArg Host.Outcome.next (if_pos ⟨hruns, hpresent⟩), (hend (by simp [memberIds])).trans hstate, ?_, ?_⟩
  · rw [hend (by simp [memberIds]), hkept _ (by simp), rd_count_counter (isCounter_recLongs p _ (by simp [recLongs]))]
  · rw [hend (by simp [memberIds]), hcount, hu.rd ((by decide : ∀ p : Fin 4, Rec.MEMBER_FAILURES p ∉ [Rec.NVME_TIMEOUTS p]) p)]

theorem memberFail_fails (cause : Fin 3) :
    ∃ t, exec (.memberFail p cause) s = .next t ∧ t.rd (Rec.MEMBER_STATE p) = 6 ∧
      t.rd (Rec.MEMBER_FAILURES p) = countUp (s.rd (Rec.MEMBER_FAILURES p)) 1 ∧
      t.rd (Rec.NVME_ERRORS p) = (if cause.val = 2 then countUp (s.rd (Rec.NVME_ERRORS p)) 2 else s.rd (Rec.NVME_ERRORS p)) ∧
      ∀ sb k, s.media.sb = some sb → (s.media.ports.findIdx? fun q => q == some p.val) = some k → k ∈ s.media.inService →
        s.media.rebuilding = none →
        t.media.inService = s.media.inService.filter (fun i => i != k) ∧
          t.rd Rec.MEDIA_STATE = (if setCovered sb.layout sb.count t.media.inService then 4 else 2) := by
  let u := if cause.val = 2 then s.countBy (Rec.NVME_ERRORS p) 2 else s
  have hu : OnlyChanges [] [Rec.NVME_ERRORS p] s u := by
    unfold u
    split
    · exact countBy_only ..
    · exact .nothing s
  have herrors : u.rd (Rec.NVME_ERRORS p) = (if cause.val = 2 then countUp (s.rd (Rec.NVME_ERRORS p)) 2 else s.rd (Rec.NVME_ERRORS p)) := by
    unfold u
    split
    · exact rd_countBy_counter (isCounter_recLongs p _ (by simp [recLongs])) 2 s
    · rfl
  have humedia : u.media = s.media := hu.media (by simp)
  obtain ⟨hstate, hcount, hkept⟩ := memberFailed_fails u p
  have hwatch := nsWatch_moves (u.memberFailed p) s
  have hend {id : Nat} (hid : id ∈ memberIds p) : ((u.memberFailed p).nsWatch s).rd id = _ := hwatch.rd (memberIds_not_sent p id hid).2
  refine ⟨(u.memberFailed p).nsWatch s, congrArg Host.Outcome.next (if_pos ⟨hruns, hpresent⟩), (hend (by simp [memberIds])).trans hstate, ?_, ?_,
    fun sb k hsb hk hserves hrebuild => ?_⟩
  · rw [hend (by simp [memberIds]), hcount, hu.rd ((by decide : ∀ p : Fin 4, Rec.MEMBER_FAILURES p ∉ [Rec.NVME_ERRORS p]) p)]
  · rw [hend (by simp [memberIds]), hkept _ (by simp), herrors]
  · rw [← humedia] at hsb hk hserves hrebuild ⊢
    rw [hwatch.media, hwatch.rd (by decide)]
    exact memberFailed_leaves hsb hk hserves hrebuild

end

/-! ## SSDs that come and leave (R344) -/

theorem rd_wr_counter {id : Nat} (h : isCounter id = true) (v : Nat) (s : State) : (s.wr id v).rd id = v % 2 ^ 64 := by
  obtain ⟨p, hp, hrow⟩ := (Option.any_eq_true _ _).1 h
  simp only [Bool.and_eq_true, Bool.not_eq_true', beq_iff_eq] at hrow
  rw [rd_wr_same hp hrow.1, hrow.2]
  rfl

theorem ssdPresenceChange_shows (p : Fin 4) (s : State) (x : SsdInfo) :
    ∃ t, exec (.ssdPresenceChange p (some x)) s = .next t ∧
      t.rd (Rec.MEMBER_LINK p) =
        (min x.gen (s.rd Rec.PCIE_SPEED_MAX) * 256 + min x.width (16 / rootPorts (s.rd Rec.PCIE_BIFURCATION))) % 2 ^ 32 ∧
      t.rd (Rec.MEMBER_CAPACITY p) = x.capacity % 2 ^ 64 ∧ t.rd (Rec.MEMBER_ID p) = x.id % 2 ^ 64 ∧
      (p.val < rootPorts (s.rd Rec.PCIE_BIFURCATION) → t.rd (Rec.MEMBER_STATE p) = (if x.supported && x.id != 0 then 2 else 1)) ∧
      OnlyChanges (.media :: sending) (Rec.MEMBER_LINK p :: Rec.MEMBER_CAPACITY p :: Rec.MEMBER_ID p :: Rec.MEMBER_STATE p :: sendIds) s t := by
  let y : SsdInfo := { x with content := [] }
  let content : Table (List Byte) := x.content.foldl (fun t e => tset t e.1 (zeroBytes blockSize) ((e.2 ++ zeroBytes blockSize).take blockSize)) []
  let u := s.withSsd p { info := y, content := content }
  let link := min x.gen (s.rd Rec.PCIE_SPEED_MAX) * 256 + min x.width (16 / rootPorts (s.rd Rec.PCIE_BIFURCATION))
  let v := ((u.wr (Rec.MEMBER_LINK p) link).wr (Rec.MEMBER_CAPACITY p) x.capacity).wr (Rec.MEMBER_ID p) x.id
  let t := if p.val < rootPorts (s.rd Rec.PCIE_BIFURCATION) then v.memberTo p (if x.supported && x.id != 0 then 2 else 1) else v
  have hu : OnlyChanges [.media] [] s u := setMedia_only s _
  have hv : OnlyChanges [] [Rec.MEMBER_LINK p, Rec.MEMBER_CAPACITY p, Rec.MEMBER_ID p] u v := ((wr_only ..).trans (wr_only ..)).trans (wr_only ..)
  have ht : OnlyChanges sending (Rec.MEMBER_STATE p :: sendIds) v t := by
    unfold t
    split
    · exact memberTo_only ..
    · exact .nothing v
  have hexec : exec (.ssdPresenceChange p (some x)) s = .next t := by
    show Host.Outcome.next (u.memberShow p y) = _
    unfold State.memberShow
    simp only [State.wrAll, List.foldl_cons, List.foldl_nil]
    rfl
  have hapart : ∀ p : Fin 4, Rec.MEMBER_LINK p ∉ Rec.MEMBER_STATE p :: sendIds ∧ Rec.MEMBER_CAPACITY p ∉ Rec.MEMBER_STATE p :: sendIds ∧
      Rec.MEMBER_ID p ∉ Rec.MEMBER_STATE p :: sendIds ∧ Rec.MEMBER_LINK p ∉ [Rec.MEMBER_CAPACITY p] ∧ Rec.MEMBER_LINK p ∉ [Rec.MEMBER_ID p] ∧
      Rec.MEMBER_CAPACITY p ∉ [Rec.MEMBER_ID p] := by decide
  obtain ⟨hlink, hcapacity, hid, hlc, hli, hci⟩ := hapart p
  refine ⟨t, hexec, ?_, ?_, ?_, fun hlt => ?_, ((hu.trans hv).trans ht).mono (by simp) (by simp)⟩
  · rw [ht.rd hlink, (wr_only ..).rd hli, (wr_only ..).rd hlc, rd_wr_isWord (isWord_recWords p _ (by simp [recWords]))]
  · rw [ht.rd hcapacity, (wr_only ..).rd hci, rd_wr_counter (isCounter_recLongs p _ (by simp [recLongs]))]
  · rw [ht.rd hid, rd_wr_counter (isCounter_recLongs p _ (by simp [recLongs]))]
  · rw [show t = v.memberTo p (if x.supported && x.id != 0 then 2 else 1) from if_pos hlt]
    exact memberTo_state v p.isLt (by split <;> decide)

theorem ssdPresenceChange_leaves (p : Fin 4) (s : State) :
    ∃ t, exec (.ssdPresenceChange p none) s = .next t ∧ tfind t.media.ssds p = none ∧ t.rd (Rec.MEMBER_STATE p) = 0 ∧
      t.rd (Rec.MEMBER_ID p) = 0 ∧ t.rd (Rec.MEMBER_CAPACITY p) = 0 := by
  let u := if (s.rd (Rec.MEMBER_STATE p) = 3 ∨ s.rd (Rec.MEMBER_STATE p) = 7) ∧ s.recorderRuns then (s.memberFailed p).nsWatch s else s
  let v : State := { u with media := { u.media with ssds := tdel u.media.ssds p } }
  let w := ((v.wr (Rec.MEMBER_LINK p) 0).wr (Rec.MEMBER_CAPACITY p) 0).wr (Rec.MEMBER_ID p) 0
  have hw : OnlyChanges [] [Rec.MEMBER_LINK p, Rec.MEMBER_CAPACITY p, Rec.MEMBER_ID p] v w := ((wr_only ..).trans (wr_only ..)).trans (wr_only ..)
  have ht := memberTo_only w p 0
  have hexec : exec (.ssdPresenceChange p none) s = .next (w.memberTo p 0) := by
    show Host.Outcome.next ((v.wrAll [(Rec.MEMBER_LINK p, 0), (Rec.MEMBER_CAPACITY p, 0), (Rec.MEMBER_ID p, 0)]).memberTo p 0) = _
    simp only [State.wrAll, List.foldl_cons, List.foldl_nil]
    rfl
  have hapart : ∀ p : Fin 4, Rec.MEMBER_CAPACITY p ∉ Rec.MEMBER_STATE p :: sendIds ∧ Rec.MEMBER_ID p ∉ Rec.MEMBER_STATE p :: sendIds ∧
      Rec.MEMBER_CAPACITY p ∉ [Rec.MEMBER_ID p] := by decide
  obtain ⟨hcapacity, hid, hci⟩ := hapart p
  refine ⟨_, hexec, ?_, memberTo_state w p.isLt (by decide), ?_, ?_⟩
  · rw [ht.media (by simp [sending]), hw.media (by simp)]
    exact tfind_tdel_same ..
  · rw [ht.rd hid, rd_wr_long (isCounter_recLongs p _ (by simp [recLongs])) (by decide)]
  · rw [ht.rd hcapacity, (wr_only ..).rd hci, rd_wr_long (isCounter_recLongs p _ (by simp [recLongs])) (by decide)]

/-- Settles O38: the places of set blocks, formats and mounts, rebuilds, members that fail, SSDs that come and leave. -/
theorem mediaSetsServeAndRebuild : Obligations.MediaSetsServeAndRebuild :=
  ⟨fun _ count a _ hlayout hcount _ => ⟨setCopies_apart hlayout, setCopies_inside hlayout hcount, setCopies_mirrored count a hlayout⟩,
    fun _ => ⟨fun _ _ _ _ _ => mediaFormatDone_formats,
      fun hruns hclips hrebuild hformat => ⟨mediaMount_finds_none hruns hclips hrebuild hformat, mediaMount_finds_one hruns hclips hrebuild hformat⟩⟩,
    fun _ _ _ _ => mediaRebuildDone_joins,
    fun p s => ⟨fun hruns hpresent => ⟨memberTimeout_fails hruns hpresent, memberFail_fails hruns hpresent⟩, ssdPresenceChange_shows p s,
      ssdPresenceChange_leaves p s⟩⟩

end Sys2Proof.Machine

/-! What a clip writes (R349, R350, R362): the extents, the blocks and the journal groups of one clip leave the rest of the recorder as it was. -/

namespace Sys2Proof.Machine

/-! ## Tables -/

theorem length_tins {α : Type} (t : Table α) (k : Nat) (a : α) : (tins t k a).length = (tdel t k).length + 1 := by
  induction t with
  | nil => rfl
  | cons e r ih =>
    simp only [tins, tdel, List.length_append, List.length_cons, List.filter_cons] at ih ⊢
    rcases Nat.lt_trichotomy e.1 k with h | h | h
    · rw [if_pos (by simpa using h), if_neg (by simp; omega), if_pos (by simp; omega)]
      simp only [List.length_cons]
      omega
    · rw [if_neg (by simp; omega), if_neg (by simp; omega), if_neg (by simpa using h)]
      exact ih
    · rw [if_neg (by simp; omega), if_pos (by simpa using h), if_pos (by simp; omega)]
      simp only [List.length_cons]
      omega

theorem tdel_eq_self {α : Type} {t : Table α} {k : Nat} (h : tfind t k = none) : tdel t k = t := by
  induction t with
  | nil => rfl
  | cons e r ih =>
    obtain ⟨j, a⟩ := e
    rw [tfind] at h
    split at h
    next => simp at h
    next hj => rw [tdel, List.filter_cons, if_pos (by simpa using hj)]; exact congrArg ((j, a) :: ·) (ih h)

theorem length_tdel_tins {α : Type} (t : Table α) (k : Nat) (a : α) : (tdel (tins t k a) k).length = (tdel t k).length := by
  have hlow : (t.filter fun p => decide (p.1 < k)).filter (fun p => decide (p.1 ≠ k)) = t.filter fun p => decide (p.1 < k) := by
    rw [List.filter_eq_self]
    intro e he
    have := (List.mem_filter.1 he).2
    simp only [decide_eq_true_eq] at this
    simp; omega
  have hhigh : (t.filter fun p => decide (k < p.1)).filter (fun p => decide (p.1 ≠ k)) = t.filter fun p => decide (k < p.1) := by
    rw [List.filter_eq_self]
    intro e he
    have := (List.mem_filter.1 he).2
    simp only [decide_eq_true_eq] at this
    simp; omega
  have hlength := length_tins t k a
  rw [tins, List.length_append, List.length_cons] at hlength
  rw [tins, tdel, List.filter_append, List.filter_cons, if_neg (by simp), hlow, hhigh, List.length_append]
  omega

/-! ## The growth of a clip -/

/-- The recorder's state beside its SSDs, its journal, its extent map and its clips. -/
def RecSt.kept (r : RecSt) : RecSt := { r.working with exts := [], lastExtent := none, clips := [] }

/-- What a clip is from its opening on. -/
def Clip.origin (c : Clip) : Nat × Nat × Nat := (c.id, c.dir, c.firstTick)

/-- The parameters that the extent map and the journal drive, with BYTES_WRITTEN of some root ports. -/
def clipIds (ports : List Nat) : List Nat := Rec.FREE_EXTENTS :: Rec.CHECKPOINTS :: ports.map Rec.BYTES_WRITTEN

/-- A clip grows: its extents, blocks and journal groups are written, and every other clip stands. -/
structure ClipGrows (cc : Nat) (s t : State) : Prop where
  only : ∃ ports, OnlyChanges [.media] (clipIds ports) s t
  kept : t.media.kept = s.media.kept
  others : (tdel t.media.clips cc).length = (tdel s.media.clips cc).length
  origin : (t.clip cc).map Clip.origin = (s.clip cc).map Clip.origin

namespace ClipGrows

variable {cc : Nat} {s t u : State}

theorem refl (s : State) : ClipGrows cc s s := ⟨⟨[], .nothing s⟩, rfl, rfl, rfl⟩

theorem trans (h : ClipGrows cc s t) (g : ClipGrows cc t u) : ClipGrows cc s u := by
  obtain ⟨ports, hports⟩ := h.only
  obtain ⟨more, hmore⟩ := g.only
  refine ⟨⟨ports ++ more, (hports.trans hmore).mono (by simp) ?_⟩, g.kept.trans h.kept, g.others.trans h.others, g.origin.trans h.origin⟩
  simp only [clipIds, List.map_append, List.mem_append, List.mem_cons]
  tauto

theorem foldl {α : Type} {f : State → α → State} (l : List α) (h : ClipGrows cc s t) (hf : ∀ u x, ClipGrows cc u (f u x)) :
    ClipGrows cc s (l.foldl f t) :=
  List.foldlRecOn (motive := ClipGrows cc s) l f h fun u hu x _ => hu.trans (hf u x)

theorem rd (h : ClipGrows cc s t) {id : Nat} (hnumber : id % 0x10000 ≠ 0x59) (hid : id ≠ Rec.FREE_EXTENTS ∧ id ≠ Rec.CHECKPOINTS) : t.rd id = s.rd id := by
  obtain ⟨ports, hports⟩ := h.only
  refine hports.rd ?_
  rw [clipIds, List.mem_cons, List.mem_cons, not_or, not_or]
  exact ⟨hid.1, hid.2, not_mem_of_number (bytesWritten_number ports) hnumber⟩

theorem part (h : ClipGrows cc s t) {p : Part} (hp : p ≠ .media) : p.same s t := by
  obtain ⟨ports, hports⟩ := h.only
  exact hports.2.1 p (by simpa using hp)

end ClipGrows

theorem Journalled.clipGrows {cc : Nat} {s t : State} (h : Journalled s t) : ClipGrows cc s t := by
  have hclips : t.media.clips = s.media.clips := (congrArg RecSt.clips h.2 :)
  have hkept (r : RecSt) : r.kept = r.working.kept := rfl
  exact ⟨⟨_, h.1.mono (by simp) fun _ hi => List.mem_cons_of_mem _ hi⟩, (hkept _).trans ((congrArg RecSt.kept h.2).trans (hkept _).symm), by rw [hclips], by rw [State.clip, State.clip, hclips]⟩

theorem SsdsWritten.clipGrows {cc : Nat} {s t : State} (h : SsdsWritten s.media.memberPorts s t) : ClipGrows cc s t := h.journalled.clipGrows

theorem setClip_only (s : State) (cc : Nat) (c : Clip) : OnlyChanges [.media] [] s (s.setClip cc c) := setMedia_only ..

@[simp] theorem clip_setClip (s : State) (cc : Nat) (c : Clip) : (s.setClip cc c).clip cc = some c := tfind_tins_same ..

theorem setClip_grows {s : State} {cc : Nat} {c d : Clip} (hc : s.clip cc = some c) (hd : d.origin = c.origin) : ClipGrows cc s (s.setClip cc d) where
  only := ⟨[], (setClip_only s cc d).mono (by simp) (by simp)⟩
  kept := rfl
  others := length_tdel_tins ..
  origin := by rw [clip_setClip, hc, Option.map_some, Option.map_some, hd]

theorem setExts_grows (cc : Nat) (s : State) (es : List Nat) (x : Nat → Nat × Nat) : ClipGrows cc s (s.setExts es x) := by
  let u : State := { s with media := { s.media with
    exts := es.foldl (fun t e => tset t e (0, 0) (x e)) s.media.exts, dirtyExt := (s.media.dirtyExt ++ es).eraseDups } }
  have hu : OnlyChanges [.media] [] s u := setMedia_only s _
  have hw : OnlyChanges [] [Rec.FREE_EXTENTS] u (u.wr Rec.FREE_EXTENTS u.media.freeExtents) := wr_only ..
  have hmedia : (s.setExts es x).media = u.media := hw.media (by simp)
  exact ⟨⟨[], (hu.trans hw).mono (by simp) (by simp [clipIds])⟩, by rw [hmedia]; rfl, by rw [hmedia], by rw [State.clip, State.clip, hmedia]⟩

/-- An extent joins a clip. -/
def State.extentJoins (s : State) (cc e : Nat) (c : Clip) : State :=
  let t := s.setExts [e] fun _ => (c.id, c.extents.length)
  ({ t with media := { t.media with lastExtent := some e } }).setClip cc { c with extents := c.extents ++ [e], fresh := c.fresh ++ [(e, c.extents.length)] }

theorem extentJoins_grows {s : State} {cc : Nat} {c : Clip} (hc : s.clip cc = some c) (e : Nat) : ClipGrows cc s (s.extentJoins cc e c) := by
  let t := s.setExts [e] fun _ => (c.id, c.extents.length)
  let u : State := { t with media := { t.media with lastExtent := some e } }
  have ht : ClipGrows cc s t := setExts_grows ..
  have hclip : t.clip cc = some c := by
    have hw : t.media = _ := (wr_only ..).media (by simp)
    rw [State.clip, hw]
    exact hc
  have hu : ClipGrows cc t u := ⟨⟨[], (setMedia_only t _).mono (by simp) (by simp)⟩, rfl, rfl, rfl⟩
  exact (ht.trans hu).trans (setClip_grows (s := u) (c := c) hclip rfl)

theorem extend_grows (s : State) (cc n : Nat) : ClipGrows cc s (s.extend cc n) := by
  unfold State.extend
  split
  next => exact .refl s
  next =>
    refine .foldl _ (.refl s) fun t _ => ?_
    split
    next e c _ hc => exact extentJoins_grows hc e
    next => exact .refl t

theorem clipWrite_written (s : State) (cc off : Nat) (bytes : List Byte) : SsdsWritten s.media.memberPorts s (s.clipWrite cc off bytes) := by
  unfold State.clipWrite
  split
  next =>
    refine .foldl _ (.refl _ s) fun t b ht => ?_
    split
    · exact ht.ports ▸ setWrite_written ..
    · exact .refl _ t
  next => exact .refl _ s

theorem clipChunk_grows (s : State) (cc type stream count time : Nat) (payload : List Byte) :
    ClipGrows cc s (s.clipChunk cc type stream count time payload) := by
  unfold State.clipChunk
  have hext := extend_grows s cc (chunkSize payload.length)
  dsimp only
  split
  next => exact hext
  next c _ =>
    refine hext.trans ?_
    have hwrite : ClipGrows cc _ _ :=
      (clipWrite_written (s.extend cc (chunkSize payload.length)) cc c.off (chunkBytes type stream c.id count time payload)).clipGrows
    split
    next d hd => exact hwrite.trans (setClip_grows hd rfl)
    next => exact hwrite

/-! ## RECORD_SECONDS_LEFT (R362) -/

theorem fullWarning_spec (s : State) :
    OnlyChanges (.media :: sending) (Rec.RECORD_SECONDS_LEFT :: sendIds) s s.fullWarning ∧
      ∃ warned, s.fullWarning.media = { s.media with warned := warned } := by
  unfold State.fullWarning
  extract_lets left low u v
  have hu : OnlyChanges [] [Rec.RECORD_SECONDS_LEFT] s u := wr_only ..
  have hv : OnlyChanges sending sendIds u v := by
    unfold v
    split
    · exact recNotify_only ..
    · exact .nothing u
  have hw : OnlyChanges [.media] [] v { v with media := { v.media with warned := low } } := setMedia_only v _
  exact ⟨((hu.trans hv).trans hw).mono (by simp +contextual [or_imp]) (by simp), low,
    congrArg (fun r : RecSt => { r with warned := low }) ((hv.media (by simp [sending])).trans (hu.media (by simp)))⟩

/-- The flushes of every member in service. -/
def State.membersFlushed (s : State) : State :=
  s.media.inService.foldl (fun t k => match t.media.portOf k with | some p => t.emit (.ssd p "Flush" 0 0) | none => t) s

theorem membersFlushed_only (s : State) : OnlyChanges [.out] [] s s.membersFlushed :=
  .foldl _ (.nothing s) fun t k _ => by
    split
    · exact emitQuiet_only t rfl
    · exact .nothing t

end Sys2Proof.Machine

/-! Opening and stopping clips (R352, R358, R360). -/

namespace Sys2Proof.Machine

/-! ## What leaves stays recorded -/

theorem foldl_suffix {α : Type} {f : State → α → State} (l : List α) (hf : ∀ t, ∀ x ∈ l, t.out <:+ (f t x).out) (s : State) : s.out <:+ (l.foldl f s).out :=
  List.foldlRecOn (motive := fun t => s.out <:+ t.out) l f List.suffix_rfl fun t ht x hx => ht.trans (hf t x hx)

theorem emit_suffix (s : State) (o : Output) : s.out <:+ (s.emit o).out := emit_out s o ▸ List.suffix_cons ..

theorem drainPort_suffix (s : State) : s.out <:+ s.drainPort.out := by
  unfold State.drainPort
  dsimp only
  split
  · exact List.suffix_rfl
  · exact foldl_suffix (f := fun (t : State) b => t.emit (.trace 0 b)) _ (fun t _ _ => emit_suffix t _) s

theorem traceTo_suffix (s : State) (dest type source : Nat) (payload : List Byte) : s.out <:+ (s.traceTo dest type source payload).out := by
  have hdrain : s.out <:+ (if dest = 0 then s.drainPort else s).out := by
    split
    · exact drainPort_suffix s
    · exact List.suffix_rfl
  unfold State.traceTo
  split
  · dsimp only
    generalize (if dest = 0 then s.drainPort else s) = u at hdrain
    split
    · rw [(count_only ..).out (by simp)]
      exact hdrain
    · exact hdrain
  · exact List.suffix_rfl

theorem trace_suffix (s : State) (type source : Nat) (payload : List Byte) : s.out <:+ (s.trace type source payload).out := by
  have hcount : (s.count Obs.TRACE_RECORDS).out = s.out := (count_only ..).out (by simp)
  unfold State.trace
  rw [← hcount]
  exact foldl_suffix _ (fun t d _ => traceTo_suffix t d type source payload) _

theorem notifyTo_suffix (s : State) (sess cls code : Nat) (body : List Byte) : s.out <:+ (s.notifyTo sess cls code body).out := by
  unfold State.notifyTo
  split
  · exact List.suffix_rfl
  · dsimp only
    split
    · rw [(count_only ..).out (by simp)]
      exact emit_suffix (s.setSession ..) _
    · exact emit_suffix (s.setSession ..) _

theorem notify_suffix (s : State) (cls code : Nat) (body : List Byte) : s.out <:+ (s.notify cls code body).out := by
  refine (trace_suffix s ..).trans (foldl_suffix _ (fun t e _ => ?_) _)
  split
  · exact notifyTo_suffix ..
  · exact List.suffix_rfl

theorem setGlobal_suffix (s : State) (g : GState) : s.out <:+ (s.setGlobal g).out := by
  unfold State.setGlobal
  split
  · exact List.suffix_rfl
  · dsimp only
    split
    · exact List.suffix_rfl
    · have htrace := trace_suffix { s with pow := { s.pow with global := g } } 5 0 [BitVec.ofNat 8 g.code, BitVec.ofNat 8 s.pow.global.code]
      split
      · exact htrace
      · exact htrace.trans (notify_suffix ..)

theorem updateRun_suffix (s : State) : s.out <:+ s.updateRun.out := by
  unfold State.updateRun
  dsimp only
  split
  · exact setGlobal_suffix ..
  · split
    · exact setGlobal_suffix ..
    · exact List.suffix_rfl

/-- A request that Negor takes comes in a session, which it makes active. -/
theorem heard_of_takes {s : State} {r : Req} {op : Nat} (h : s.takes r op) : ∃ x, s.heard r = s.setSession r.sess x := by
  obtain ⟨-, hsession, -⟩ := h
  obtain ⟨x, hx⟩ := Option.isSome_iff_exists.1 hsession
  exact ⟨{ x with lastRequest := s.clock }, by rw [State.heard, hx]⟩

/-! ## CLIP_START (R358) -/

/-- The clip ID that the next clip takes. -/
def State.nextClipId (s : State) : Nat := if (s.media.lastClip + 1) % 2 ^ 32 = 0 then 1 else (s.media.lastClip + 1) % 2 ^ 32

/-- The first tick of a clip that CLIP_START asks for. -/
def State.clipFirst (s : State) (b : List Byte) : Nat := if leAt b 0 1 % 2 = 1 then leAt b 12 4 else (s.tickSeq + 1) % 2 ^ 32

/-- The streams of a clip that CLIP_START asks for. -/
def State.clipAsked (s : State) (b : List Byte) : List ClipStream := s.clipStreams (setBits 16 (leAt b 8 2)) (setBits 8 (leAt b 10 1))

/-- The directory entry of the clip. -/
def State.clipEntry (s : State) (b : List Byte) : DirEntry :=
  { state := 1, clip := s.nextClipId, streams := (s.clipAsked b).length, firstTick := s.clipFirst b
    startTime := s.edgeTime ((s.clipFirst b + 2 ^ 32 - s.tickSeq) % 2 ^ 32), startEpoch := s.epoch, name := slice b 20 60 }

/-- The block of a directory entry is written. -/
def State.dirWritten (s : State) (i : Nat) : State :=
  match s.media.sb with
  | some sb => s.setWrite (sb.dirStart + i / 16) (s.media.dirBlock i)
  | none => s

/-- The directory entry of the clip stands on the set. -/
def State.clipEntered (s : State) (b : List Byte) (i : Nat) : State :=
  ((({ s with media := { s.media with lastClip := s.nextClipId } }).setDir i (s.clipEntry b)).dirWritten i).membersFlushed

/-- The extents of a clip have been journalled. -/
def State.clipSettled (s : State) (cc : Nat) : State := match s.clip cc with | some c => s.setClip cc { c with fresh := [] } | none => s

/-- The clip stands in its slot, with CLIP_INFO and CLIP_OPEN. -/
def State.clipBegun (s : State) (cc i id first start epoch time : Nat) (streams : List ClipStream) : State :=
  let s := (s.setClip cc { id := id, dir := i, streams := streams, firstTick := first }).clipChunk cc Chunk.CLIP_INFO 0 0 time (streams.flatMap ClipStream.desc)
  (s.journalGroup ({ type := 1, sub := streams.length, clip := id, a := start, b := epoch * 2 ^ 32 + first, c := i } ::
    (((s.clip cc).map Clip.fresh).getD []).map fun (e : Nat × Nat) => ({ type := 2, clip := id, a := e.1, b := e.2 } : JEntry))).clipSettled cc

/-- What an open clip shows. -/
def State.clipShown (s : State) (cc id : Nat) : State :=
  (s.wrAll [(Rec.CLIP_SLOT_ID cc, id), (Rec.CLIP_SLOT_STATE cc, 1), (Rec.CLIP_LENGTH cc, 0), (Rec.CLIP_FRAMES cc, 0),
    (Rec.OPEN_CLIPS, s.media.clips.length)]).fullWarning

theorem clipOpen_eq {s : State} {cc i : Nat} (hcc : s.freeClipSlot = some cc) (hi : s.freeDir = some i) (r : Req) (b : List Byte) :
    ∃ (u : State) (start epoch time : Nat) (pl : List Byte), u = s.clipEntered b i ∧
      s.clipOpen r b =
        ((u.clipBegun cc i s.nextClipId (s.clipFirst b) start epoch time (s.clipAsked b)).clipShown cc s.nextClipId).reply r 0x60 Status.OK pl := by
  refine ⟨s.clipEntered b i, s.edgeTime ((s.clipFirst b + 2 ^ 32 - s.tickSeq) % 2 ^ 32), ?_⟩
  rw [State.clipOpen, hcc, hi]
  exact ⟨_, _, _, rfl, rfl⟩

theorem dirWritten_written (s : State) (i : Nat) : SsdsWritten s.media.memberPorts s (s.dirWritten i) := by
  unfold State.dirWritten
  split
  · exact setWrite_written ..
  · exact .refl _ s

theorem clipEntered_spec (s : State) (b : List Byte) (i : Nat) :
    (∃ ports, OnlyChanges [.media, .out] (clipIds ports) s (s.clipEntered b i)) ∧ tget (s.clipEntered b i).media.dir i {} = s.clipEntry b ∧
      (s.clipEntered b i).media.lastClip = s.nextClipId ∧ (s.clipEntered b i).media.clips = s.media.clips := by
  let u := ({ s with media := { s.media with lastClip := s.nextClipId } }).setDir i (s.clipEntry b)
  have hu : OnlyChanges [.media] [] s u := setMedia_only s _
  have hdir := dirWritten_written u i
  have hflush := membersFlushed_only (u.dirWritten i)
  have hmedia : (s.clipEntered b i).media.bare = u.media.bare := (congrArg RecSt.bare (hflush.media (by simp))).trans hdir.2
  refine ⟨⟨u.media.memberPorts, ((hu.trans hdir.1).trans hflush).mono (by simp) fun id hid => ?_⟩, ?_, (congrArg RecSt.lastClip hmedia :), (congrArg RecSt.clips hmedia :)⟩
  · simpa [clipIds] using Or.inr (.inr (by simpa using hid))
  · have hdirs : (s.clipEntered b i).media.dir = u.media.dir := (congrArg RecSt.dir hmedia :)
    rw [hdirs]
    exact tget_tset_same ..

theorem clipSettled_grows {s : State} {cc : Nat} (h : (s.clip cc).isSome = true) :
    ClipGrows cc s (s.clipSettled cc) ∧ (s.clipSettled cc).media.clips.length = (tdel s.media.clips cc).length + 1 := by
  obtain ⟨c, hc⟩ := Option.isSome_iff_exists.1 h
  rw [State.clipSettled, hc]
  exact ⟨setClip_grows hc rfl, length_tins ..⟩

theorem clipBegun_spec (s : State) (cc i id first start epoch time : Nat) (streams : List ClipStream) :
    let t := s.clipBegun cc i id first start epoch time streams
    (∃ ports, OnlyChanges [.media] (clipIds ports) s t) ∧ t.media.kept = s.media.kept ∧ t.media.clips.length = (tdel s.media.clips cc).length + 1 ∧
      (t.clip cc).map Clip.origin = some (id, i, first) := by
  let u := s.setClip cc { id := id, dir := i, streams := streams, firstTick := first }
  let v := u.clipChunk cc Chunk.CLIP_INFO 0 0 time (streams.flatMap ClipStream.desc)
  let w := v.journalGroup ({ type := 1, sub := streams.length, clip := id, a := start, b := epoch * 2 ^ 32 + first, c := i } ::
    (((v.clip cc).map Clip.fresh).getD []).map fun (e : Nat × Nat) => ({ type := 2, clip := id, a := e.1, b := e.2 } : JEntry))
  have hu : OnlyChanges [.media] [] s u := setClip_only ..
  have hclip : u.clip cc = some { id := id, dir := i, streams := streams, firstTick := first } := clip_setClip ..
  have hw : ClipGrows cc u w := (clipChunk_grows u ..).trans (journalGroup_journalled v _).1.clipGrows
  have hopen : (w.clip cc).map Clip.origin = some (id, i, first) := by
    rw [hw.origin, hclip]
    rfl
  obtain ⟨hsettled, hlength⟩ := clipSettled_grows (s := w) (cc := cc) (by
    rw [← Option.isSome_map, hopen]
    rfl)
  obtain ⟨ports, hports⟩ := (hw.trans hsettled).only
  refine ⟨⟨ports, (hu.trans hports).mono (by simp) (by simp)⟩, (hw.trans hsettled).kept, ?_, hsettled.origin.trans hopen⟩
  exact hlength.trans (congrArg (· + 1) (hw.others.trans (length_tdel_tins ..)))

theorem clipShown_spec (s : State) {cc : Nat} (hcc : cc < 4) {id : Nat} (hid : id < 2 ^ 32) (hlen : s.media.clips.length < 2 ^ 32) :
    let t := s.clipShown cc id
    OnlyChanges (.media :: sending) (Rec.RECORD_SECONDS_LEFT :: Rec.CLIP_SLOT_ID cc :: Rec.CLIP_SLOT_STATE cc :: Rec.CLIP_LENGTH cc ::
        Rec.CLIP_FRAMES cc :: Rec.OPEN_CLIPS :: sendIds) s t ∧ (∃ warned, t.media = { s.media with warned := warned }) ∧
      t.rd (Rec.CLIP_SLOT_ID cc) = id ∧ t.rd (Rec.CLIP_SLOT_STATE cc) = 1 ∧ t.rd Rec.OPEN_CLIPS = s.media.clips.length := by
  let u := s.wrAll [(Rec.CLIP_SLOT_ID cc, id), (Rec.CLIP_SLOT_STATE cc, 1), (Rec.CLIP_LENGTH cc, 0), (Rec.CLIP_FRAMES cc, 0),
    (Rec.OPEN_CLIPS, s.media.clips.length)]
  have hword (p : Nat) (hp : p ∈ recWords cc) : isWord p = true := isWord_recWords ⟨cc, hcc⟩ p hp
  have hu : OnlyChanges [] [Rec.CLIP_SLOT_ID cc, Rec.CLIP_SLOT_STATE cc, Rec.CLIP_LENGTH cc, Rec.CLIP_FRAMES cc, Rec.OPEN_CLIPS] s u := wrAll_only ..
  obtain ⟨hwarn, warned, hmedia⟩ := fullWarning_spec u
  have hrest : ∀ p : Fin 4, ∀ n ∈ [Rec.CLIP_SLOT_ID p, Rec.CLIP_SLOT_STATE p, Rec.OPEN_CLIPS], n ∉ Rec.RECORD_SECONDS_LEFT :: sendIds := by decide
  have hread (n : Nat) (hn : n ∈ [Rec.CLIP_SLOT_ID cc, Rec.CLIP_SLOT_STATE cc, Rec.OPEN_CLIPS]) : u.fullWarning.rd n = u.rd n :=
    hwarn.rd (hrest ⟨cc, hcc⟩ n hn)
  have hheld : u.rd (Rec.CLIP_SLOT_ID cc) = id ∧ u.rd (Rec.CLIP_SLOT_STATE cc) = 1 ∧ u.rd Rec.OPEN_CLIPS = s.media.clips.length := by
    simp only [u, State.wrAll, List.foldl_cons, List.foldl_nil]
    refine ⟨?_, ?_, rd_wr_word (hword _ (by simp [recWords])) hlen _⟩
    · rw [(wr_only ..).rd (by simp [Rec.CLIP_SLOT_ID, Rec.OPEN_CLIPS]; omega), (wr_only ..).rd (by simp [Rec.CLIP_SLOT_ID, Rec.CLIP_FRAMES]),
        (wr_only ..).rd (by simp [Rec.CLIP_SLOT_ID, Rec.CLIP_LENGTH]), (wr_only ..).rd (by simp [Rec.CLIP_SLOT_ID, Rec.CLIP_SLOT_STATE]),
        rd_wr_word (hword _ (by simp [recWords])) hid]
    · rw [(wr_only ..).rd (by simp [Rec.CLIP_SLOT_STATE, Rec.OPEN_CLIPS]; omega), (wr_only ..).rd (by simp [Rec.CLIP_SLOT_STATE, Rec.CLIP_FRAMES]),
        (wr_only ..).rd (by simp [Rec.CLIP_SLOT_STATE, Rec.CLIP_LENGTH]),
        rd_wr_word (hword _ (by simp [recWords])) (by omega)]
  refine ⟨(hu.trans hwarn).mono (by simp) (by simp +contextual [or_imp]), ⟨warned, hmedia.trans ?_⟩, ?_, ?_, ?_⟩
  · rw [hu.media (by simp)]
  · exact (hread _ (by simp)).trans hheld.1
  · exact (hread _ (by simp)).trans hheld.2.1
  · exact (hread _ (by simp)).trans hheld.2.2

end Sys2Proof.Machine

/-! CLIP_START and CLIP_STOP (R358, R360). -/

namespace Sys2Proof.Machine

/-! ## CLIP_START (R358) -/

/-- A clip that CLIP_START opened waits for the tick edge at which the plan changes. -/
def State.clipAdmitted (s : State) (r : Req) : State :=
  let a : Admitted := { r := r, op := 0x60, ids := [], vals := [], target := 0 }
  { s with tick := { s.tick with admitted := s.tick.admitted ++ [a] } }

/-- What CLIP_START does on the state in which its request runs. -/
def State.clipStarts (r : Req) (b : List Byte) (s : State) : State :=
  if s.owns r.sess 57 = false then s.reply r 0x60 Status.NOT_OWNER []
  else if s.clipStartBad b ≠ Status.OK then s.reply r 0x60 (s.clipStartBad b) []
  else match admission s.committed (s.committed.withClip b) with
    | (st, records) =>
      if st = Status.OK then ((s.clipOpen r b).clipAdmitted r).updateRun
      else (if st = Status.BUDGET_EXCEEDED then s.count Tick.ADMIT_REFUSED else s).reply r 0x60 st records

theorem exec_clipStart {r : Req} {s : State} (htakes : s.takes r 0x60) (b : List Byte) : exec (.clipStart r b) s = .next ((s.heard r).clipStarts r b) :=
  congrArg Host.Outcome.next (request_of_takes (State.clipStarts r b) htakes)

theorem clipOpen_opens {s : State} {cc i : Nat} (hslot : s.freeClipSlot = some cc) (hdir : s.freeDir = some i) (hlen : s.media.clips.length < 4)
    (r : Req) (b : List Byte) :
    ∃ c pl, (s.clipOpen r b).clip cc = some c ∧ c.origin = (s.nextClipId, i, s.clipFirst b) ∧ tget (s.clipOpen r b).media.dir i {} = s.clipEntry b ∧
      (s.clipOpen r b).media.lastClip = s.nextClipId ∧ (s.clipOpen r b).rd (Rec.CLIP_SLOT_ID cc) = s.nextClipId ∧
      (s.clipOpen r b).rd (Rec.CLIP_SLOT_STATE cc) = 1 ∧ (s.clipOpen r b).rd Rec.OPEN_CLIPS = s.media.clips.length + 1 ∧
      (s.clipOpen r b).tick = s.tick ∧ ∃ mark, .nmp r.port r.peer mark true ⟨r.sess, r.seq, 0x60, Status.OK, pl⟩ ∈ (s.clipOpen r b).out := by
  have hcc : cc < 4 := List.mem_range.1 (List.mem_of_find?_eq_some hslot)
  have hfree : tfind s.media.clips cc = none := by simpa [State.clip] using List.find?_some hslot
  have hid : s.nextClipId < 2 ^ 32 := by
    unfold State.nextClipId
    split <;> omega
  obtain ⟨u, start, epoch, time, pl, hu, heq⟩ := clipOpen_eq hslot hdir r b
  obtain ⟨⟨_, hentered⟩, hentry, hlast, hclips⟩ := clipEntered_spec s b i
  rw [← hu] at hentered hentry hlast hclips
  let v := u.clipBegun cc i s.nextClipId (s.clipFirst b) start epoch time (s.clipAsked b)
  obtain ⟨⟨_, hbegun⟩, hkept, hcount, horigin⟩ : (∃ ports, OnlyChanges [.media] (clipIds ports) u v) ∧ v.media.kept = u.media.kept ∧
    v.media.clips.length = (tdel u.media.clips cc).length + 1 ∧ (v.clip cc).map Clip.origin = some (s.nextClipId, i, s.clipFirst b) := clipBegun_spec ..
  rw [hclips, tdel_eq_self hfree] at hcount
  obtain ⟨hshown, ⟨warned, hmedia⟩, hslotId, hstate, hopen⟩ := clipShown_spec v hcc hid (by omega)
  have hreply := reply_only (v.clipShown cc s.nextClipId) r 0x60 Status.OK pl
  have hsame : (s.clipOpen r b).media = { v.media with warned := warned } := by
    rw [heq, hreply.media (by simp)]
    exact hmedia
  have hread : ∀ p : Fin 4, ∀ n ∈ [Rec.CLIP_SLOT_ID p, Rec.CLIP_SLOT_STATE p, Rec.OPEN_CLIPS], n ∉ txIds := by decide
  obtain ⟨c, hc, hcorigin⟩ := Option.map_eq_some_iff.1 horigin
  have hdirs : (s.clipOpen r b).media.dir = u.media.dir := by
    rw [hsame]
    exact (congrArg RecSt.dir hkept :)
  have hlasts : (s.clipOpen r b).media.lastClip = u.media.lastClip := by
    rw [hsame]
    exact (congrArg RecSt.lastClip hkept :)
  refine ⟨c, pl, ?_, hcorigin, by rw [hdirs, hentry], by rw [hlasts, hlast], ?_, ?_, ?_, ?_, ?_⟩
  · rw [State.clip, hsame]
    exact hc
  · rw [heq, hreply.rd (hread ⟨cc, hcc⟩ _ (by simp))]
    exact hslotId
  · rw [heq, hreply.rd (hread ⟨cc, hcc⟩ _ (by simp))]
    exact hstate
  · rw [heq, hreply.rd (hread 0 _ (by simp))]
    exact hopen.trans hcount
  · rw [heq, hreply.tick (by simp), hshown.tick (by simp [sending]), hbegun.tick (by simp), hentered.tick (by simp)]
  · exact ⟨_, by rw [heq, reply_out]; exact List.mem_cons_self ..⟩

section
variable {r : Req} {b : List Byte} {s : State}

theorem clipStart_notOwner (htakes : s.takes r 0x60) (howner : s.owns r.sess 57 = false) :
    ∃ t, exec (.clipStart r b) s = .next t ∧ t.replied r 0x60 Status.NOT_OWNER [] ∧ OnlyChanges [.out, .free, .sessions] txIds s t := by
  have hstarts : (s.heard r).clipStarts r b = (s.heard r).reply r 0x60 Status.NOT_OWNER [] := if_pos (by rw [heard_owns, howner])
  exact ⟨_, exec_clipStart htakes b, hstarts ▸ replied_reply .., hstarts ▸ heardReply_only ..⟩

theorem clipStart_refused (htakes : s.takes r 0x60) (howner : s.owns r.sess 57 = true) (hbad : (s.heard r).clipStartBad b ≠ Status.OK) :
    ∃ t, exec (.clipStart r b) s = .next t ∧ t.replied r 0x60 ((s.heard r).clipStartBad b) [] ∧ OnlyChanges [.out, .free, .sessions] txIds s t := by
  have hstarts : (s.heard r).clipStarts r b = (s.heard r).reply r 0x60 ((s.heard r).clipStartBad b) [] := by
    rw [State.clipStarts, heard_owns, howner, if_neg (by simp), if_pos hbad]
  exact ⟨_, exec_clipStart htakes b, hstarts ▸ replied_reply .., hstarts ▸ heardReply_only ..⟩

theorem clipStart_opens {records : List Byte} {cc i : Nat} (htakes : s.takes r 0x60) (howner : s.owns r.sess 57 = true)
    (hok : (s.heard r).clipStartBad b = Status.OK)
    (hadmit : admission (s.heard r).committed ((s.heard r).committed.withClip b) = (Status.OK, records))
    (hslot : s.freeClipSlot = some cc) (hdir : s.freeDir = some i) (hlen : s.media.clips.length < 4) :
    let id := s.nextClipId
    ∃ t c pl, exec (.clipStart r b) s = .next t ∧ t.clip cc = some c ∧ c.id = id ∧ c.dir = i ∧ c.firstTick = s.clipFirst b ∧
      (tget t.media.dir i {}).state = 1 ∧ (tget t.media.dir i {}).clip = id ∧ t.media.lastClip = id ∧
      t.rd (Rec.CLIP_SLOT_ID cc) = id ∧ t.rd (Rec.CLIP_SLOT_STATE cc) = 1 ∧ t.rd Rec.OPEN_CLIPS = s.media.clips.length + 1 ∧
      t.tick.admitted.length = s.tick.admitted.length + 1 ∧
      ∃ mark, .nmp r.port r.peer mark true ⟨r.sess, r.seq, 0x60, Status.OK, pl⟩ ∈ t.out := by
  obtain ⟨x, hx⟩ := heard_of_takes htakes
  let u := s.heard r
  have hcc : cc < 4 := List.mem_range.1 (List.mem_of_find?_eq_some hslot)
  have hu : u = s.setSession r.sess x := hx
  obtain ⟨c, pl, hclip, horigin, hentry, hlast, hid, hstate, hopen, htick, mark, hsent⟩ :=
    clipOpen_opens (s := u) (cc := cc) (i := i) (hu ▸ hslot) (hu ▸ hdir) (hu ▸ hlen) r b
  obtain ⟨horiginId, horiginDir, horiginFirst⟩ : c.id = u.nextClipId ∧ c.dir = i ∧ c.firstTick = u.clipFirst b := by simpa [Clip.origin] using horigin
  let v := (u.clipOpen r b).clipAdmitted r
  have hstarts : u.clipStarts r b = v.updateRun := by
    rw [State.clipStarts, heard_owns, howner, if_neg (by simp), if_neg (by simpa using hok), hadmit]
    exact if_pos rfl
  have hrun := updateRun_only v
  have hmedia : v.updateRun.media = (u.clipOpen r b).media := hrun.media (by simp [sending])
  have hread (n : Nat) (hn : n ∈ recWords cc) : v.updateRun.rd n = (u.clipOpen r b).rd n :=
    hrun.rd (recIds_not_sent ⟨cc, hcc⟩ n (List.mem_append_left _ hn))
  have hnext : u.nextClipId = s.nextClipId := by rw [hu]; rfl
  have hfirst : u.clipFirst b = s.clipFirst b := by rw [hu]; rfl
  refine ⟨v.updateRun, c, pl, (exec_clipStart htakes b).trans (congrArg Host.Outcome.next hstarts), ?_, horiginId.trans hnext, horiginDir,
    horiginFirst.trans hfirst, ?_, ?_, ?_, ?_, ?_, ?_, ?_, mark, (updateRun_suffix v).mem hsent⟩
  · rw [State.clip, hmedia]
    exact hclip
  · rw [hmedia, hentry]
    rfl
  · rw [hmedia, hentry]
    exact hnext
  · rw [hmedia, hlast, hnext]
  · rw [hread _ (by simp [recWords]), hid, hnext]
  · rw [hread _ (by simp [recWords]), hstate]
  · rw [hread _ (by simp [recWords]), hopen, hu]
    rfl
  · rw [hrun.tick (by simp [sending])]
    show ((u.clipOpen r b).tick.admitted ++ _).length = _
    rw [htick, List.length_append, hu]
    rfl

end

/-! ## CLIP_STOP (R360) -/

/-- The tick at which CLIP_STOP asks for the stop. -/
def State.stopAsked (s : State) (b : List Byte) : Nat := if leAt b 0 1 % 2 = 1 then leAt b 4 4 else (s.tickSeq + 1) % 2 ^ 32

/-- The clip that CLIP_STOP names. -/
def State.clipNamed (s : State) (b : List Byte) : Option (Nat × Clip) := s.media.clips.find? fun e => e.2.id == leAt b 8 4

/-- What CLIP_STOP of the holder of cell 57 does on the state in which its request runs. -/
def State.clipStops (r : Req) (b : List Byte) (s : State) : State :=
  match s.clipNamed b with
  | none => s.reply r 0x61 Status.BAD_PARAM []
  | some (cc, c) =>
    if b.length ≠ 12 then s.reply r 0x61 Status.BAD_PARAM []
    else if c.stopTick.isSome then s.reply r 0x61 Status.CONFLICT c.stopPayload
    else if !(later 32 (s.stopAsked b) s.tickSeq) then s.reply r 0x61 Status.TICKET_PAST []
    else s.stopClip cc (s.stopAsked b) 0 (some r)

theorem exec_clipStop {r : Req} {s : State} (htakes : s.takes r 0x61) (howner : s.owns r.sess 57 = true) (b : List Byte) :
    ∃ x, s.heard r = s.setSession r.sess x ∧ exec (.clipStop r b) s = .next ((s.setSession r.sess x).clipStops r b) := by
  obtain ⟨x, hx⟩ := heard_of_takes htakes
  have howns : (s.setSession r.sess x).owns r.sess 57 = true := by rw [← hx, heard_owns, howner]
  refine ⟨x, hx, ?_⟩
  show Host.Outcome.next (s.request ..) = _
  rw [request_of_takes _ htakes, hx]
  exact congrArg Host.Outcome.next (if_neg (by rw [howns]; simp))

theorem stopClip_spec {s : State} {cc : Nat} {c : Clip} (hc : s.clip cc = some c) (hcc : cc < 4) (stop cause : Nat) (req : Option Req) :
    ∃ d, (s.stopClip cc stop cause req).clip cc = some d ∧ d.stopTick = some stop ∧ d.cause = cause ∧ d.frames = c.frames ∧
      (laterEq 32 s.tickSeq stop = false → d = { c with stopTick := some stop, cause := cause, stopReq := req }) ∧
      (s.stopClip cc stop cause req).rd (Rec.CLIP_SLOT_STATE cc) = 2 ∧ OnlyChanges [.media] [Rec.CLIP_SLOT_STATE cc] s (s.stopClip cc stop cause req) := by
  rw [State.stopClip, hc]
  dsimp only
  have hall (d : Clip) : ((s.setClip cc d).wr (Rec.CLIP_SLOT_STATE cc) 2).clip cc = some d ∧
      ((s.setClip cc d).wr (Rec.CLIP_SLOT_STATE cc) 2).rd (Rec.CLIP_SLOT_STATE cc) = 2 ∧
      OnlyChanges [.media] [Rec.CLIP_SLOT_STATE cc] s ((s.setClip cc d).wr (Rec.CLIP_SLOT_STATE cc) 2) := by
    have hw : OnlyChanges [] [Rec.CLIP_SLOT_STATE cc] (s.setClip cc d) ((s.setClip cc d).wr (Rec.CLIP_SLOT_STATE cc) 2) := wr_only ..
    refine ⟨?_, rd_wr_word (isWord_recWords ⟨cc, hcc⟩ _ (by simp [recWords])) (by omega) _, (setClip_only s cc d).trans hw⟩
    rw [State.clip, hw.media (by simp)]
    exact clip_setClip ..
  split
  next hpast =>
    obtain ⟨hclip, hstate, honly⟩ := hall _
    exact ⟨_, hclip, rfl, rfl, rfl, fun h => absurd hpast (by simp [h]), hstate, honly⟩
  next =>
    obtain ⟨hclip, hstate, honly⟩ := hall _
    exact ⟨_, hclip, rfl, rfl, rfl, fun _ => rfl, hstate, honly⟩

/-- A tick that is still to come has not passed. -/
theorem laterEq_of_later {a b : Nat} (h : later 32 a b = true) : laterEq 32 b a = false := by
  simp only [later, Nat.reducePow, Nat.reduceSub, decide_eq_true_eq] at h
  simp only [laterEq, later, Nat.reducePow, Nat.reduceSub, Bool.or_eq_false_iff, decide_eq_false_iff_not, beq_eq_false_iff_ne, ne_eq]
  omega

section
variable {r : Req} {b : List Byte} {s : State}

theorem clipStop_unknown (htakes : s.takes r 0x61) (howner : s.owns r.sess 57 = true) (hnone : s.clipNamed b = none) :
    ∃ t, exec (.clipStop r b) s = .next t ∧ t.replied r 0x61 Status.BAD_PARAM [] ∧ OnlyChanges [.out, .free, .sessions] txIds s t := by
  obtain ⟨x, hx, hexec⟩ := exec_clipStop htakes howner b
  have hstops : (s.setSession r.sess x).clipStops r b = (s.heard r).reply r 0x61 Status.BAD_PARAM [] := by
    rw [State.clipStops, show (s.setSession r.sess x).clipNamed b = none from hnone, hx]
  exact ⟨_, hexec, hstops ▸ replied_reply .., hstops ▸ heardReply_only ..⟩

variable {cc : Nat} {c : Clip} (htakes : s.takes r 0x61) (howner : s.owns r.sess 57 = true) (hnamed : s.clipNamed b = some (cc, c)) (hlen : b.length = 12)
include htakes howner hnamed hlen

theorem clipStop_stopping (hstop : c.stopTick.isSome = true) :
    ∃ t, exec (.clipStop r b) s = .next t ∧ t.replied r 0x61 Status.CONFLICT c.stopPayload ∧ OnlyChanges [.out, .free, .sessions] txIds s t := by
  obtain ⟨x, hx, hexec⟩ := exec_clipStop htakes howner b
  have hstops : (s.setSession r.sess x).clipStops r b = (s.heard r).reply r 0x61 Status.CONFLICT c.stopPayload := by
    rw [State.clipStops, show (s.setSession r.sess x).clipNamed b = some (cc, c) from hnamed, hx]
    exact (if_neg (by simp [hlen])).trans (if_pos hstop)
  exact ⟨_, hexec, hstops ▸ replied_reply .., hstops ▸ heardReply_only ..⟩

theorem clipStop_past (hstop : c.stopTick = none) (hpast : later 32 (s.stopAsked b) s.tickSeq = false) :
    ∃ t, exec (.clipStop r b) s = .next t ∧ t.replied r 0x61 Status.TICKET_PAST [] ∧ OnlyChanges [.out, .free, .sessions] txIds s t := by
  obtain ⟨x, hx, hexec⟩ := exec_clipStop htakes howner b
  have hstops : (s.setSession r.sess x).clipStops r b = (s.heard r).reply r 0x61 Status.TICKET_PAST [] := by
    rw [State.clipStops, show (s.setSession r.sess x).clipNamed b = some (cc, c) from hnamed, hx]
    exact ((if_neg (by simp [hlen])).trans (if_neg (by simp [hstop]))).trans
      (if_pos (show (!later 32 (s.stopAsked b) s.tickSeq) = true by rw [hpast]; rfl))
  exact ⟨_, hexec, hstops ▸ replied_reply .., hstops ▸ heardReply_only ..⟩

theorem clipStop_stops (hc : s.clip cc = some c) (hcc : cc < 4) (hstop : c.stopTick = none) (hlater : later 32 (s.stopAsked b) s.tickSeq = true) :
    ∃ t, exec (.clipStop r b) s = .next t ∧ t.clip cc = some { c with stopTick := some (s.stopAsked b), cause := 0, stopReq := some r } ∧
      t.rd (Rec.CLIP_SLOT_STATE cc) = 2 ∧ OnlyChanges [.sessions, .media] [Rec.CLIP_SLOT_STATE cc] s t := by
  obtain ⟨x, -, hexec⟩ := exec_clipStop htakes howner b
  have hstops : (s.setSession r.sess x).clipStops r b = (s.setSession r.sess x).stopClip cc (s.stopAsked b) 0 (some r) := by
    rw [State.clipStops, show (s.setSession r.sess x).clipNamed b = some (cc, c) from hnamed]
    exact ((if_neg (by simp [hlen])).trans (if_neg (by simp [hstop]))).trans
      (if_neg (show ¬(!later 32 (s.stopAsked b) s.tickSeq) = true by rw [hlater]; simp))
  obtain ⟨d, hd, -, -, -, hwhole, hstate, honly⟩ := stopClip_spec (s := s.setSession r.sess x) hc hcc (s.stopAsked b) 0 (some r)
  refine ⟨_, hexec.trans (congrArg Host.Outcome.next hstops), ?_, hstate, ((setSession_only s r.sess x).trans honly).mono (by simp) (by simp)⟩
  rw [hd, hwhole (laterEq_of_later hlater)]

end

end Sys2Proof.Machine

/-! Frames of a clip, and commits (R354, R360 to R362). -/

namespace Sys2Proof.Machine

/-! ## VIDEO_CHUNK_START and VIDEO_CHUNK_WRITTEN (R361, R362) -/

/-- A frame takes its place at the end of a clip. -/
def State.frameTaken (s : State) (p : Fin 16) (cc n : Nat) (x : ClipStream) (f : Frame) : State :=
  let s := s.extend cc n
  let off := ((s.clip cc).map Clip.off).getD 0
  let s := s.takeFrame cc x { stream := x.stream, port := p.val, number := f.number, frame := f, offset := off }
  (match s.clip cc with | some c => s.setClip cc { c with off := c.off + n } | none => s).fullWarning

theorem extend_none {s : State} {cc n : Nat} {c : Clip} (hc : s.clip cc = some c) (hn : c.extentsFor n = 0) : s.extend cc n = s := by
  rw [State.extend, hc]
  dsimp only
  rw [hn]
  rfl

theorem fullWarning_clip (s : State) (cc : Nat) : s.fullWarning.clip cc = s.clip cc := by
  obtain ⟨-, warned, hmedia⟩ := fullWarning_spec s
  rw [State.clip, hmedia]
  rfl

section
variable {p : Fin 16} {cc : Nat} {c : Clip} {x : ClipStream} {s : State}

theorem frameTaken_spec (hc : s.clip cc = some c) {n : Nat} (hn : c.extentsFor n = 0) (f : Frame) :
    ∃ d, (s.frameTaken p cc n x f).clip cc = some d ∧ d.off = c.off + n ∧
      d.frames = c.frames ++ [{ stream := x.stream, port := p.val, number := f.number, frame := f, offset := c.off }] ∧
      OnlyChanges (.media :: sending) (Rec.RECORD_SECONDS_LEFT :: sendIds) s (s.frameTaken p cc n x f) := by
  unfold State.frameTaken
  dsimp only
  rw [extend_none hc hn, hc]
  unfold State.takeFrame
  rw [hc]
  dsimp only
  rw [clip_setClip]
  dsimp only
  refine ⟨_, (fullWarning_clip ..).trans (clip_setClip ..), rfl, rfl, ?_⟩
  exact (((setClip_only s cc _).trans (setClip_only _ cc _)).trans (fullWarning_spec _).1).mono (by simp) (by simp)

/-- What VIDEO_CHUNK_START does with the oldest frame not taken. -/
def State.chunkStarts (s : State) (p : Fin 16) (cc : Nat) (c : Clip) (x : ClipStream) (f : Frame) : State :=
  let n := chunkSize f.media.length
  if 0 < c.extentsFor n ∧ s.media.freeExtents ≤ (s.media.clips.map fun e => e.2.reserve).sum ∧ s.clipRuns c then s.stopClip cc f.tickSeq 1 c.stopReq
  else s.frameTaken p cc n x f

variable (hruns : s.recorderRuns = true) (hport : s.clipOfPort p = some (cc, c, x)) (hc : s.clip cc = some c)
include hruns hport

theorem exec_videoChunkStart {f : Frame} {rest : List Frame} (hf : s.untaken p c x = f :: rest) :
    exec (.videoChunkStart p) s = .next (s.chunkStarts p cc c x f) := by
  show execVideoChunkStart p s = _
  unfold execVideoChunkStart
  rw [if_neg (by simp [hruns]), hport]
  dsimp only
  rw [hf]
  rfl

theorem exec_videoChunkWritten {f : ClipFrame} (hf : (c.frames.find? fun g => g.port == p.val && g.state == 0) = some f) :
    exec (.videoChunkWritten p) s = .next (
      let t := s.clipWrite cc f.offset (chunkBytes Chunk.VIDEO f.stream c.id f.frame.ticket f.frame.time f.frame.media)
      match t.clip cc with
      | some d => t.setClip cc { d with frames := d.frames.map fun g => if g.port = f.port ∧ g.number = f.number then { g with state := 1 } else g }
      | none => t) := by
  show execVideoChunkWritten p s = _
  unfold execVideoChunkWritten
  rw [hport]
  dsimp only
  rw [hf]
  exact congrArg Host.Outcome.next (if_neg (by simp [hruns]))

include hc

theorem videoChunkStart_takes {f : Frame} {rest : List Frame} (hf : s.untaken p c x = f :: rest) (hn : c.extentsFor (chunkSize f.media.length) = 0) :
    ∃ t d, exec (.videoChunkStart p) s = .next t ∧ t.clip cc = some d ∧ d.off = c.off + chunkSize f.media.length ∧
      d.frames = c.frames ++ [{ stream := x.stream, port := p.val, number := f.number, frame := f, offset := c.off }] ∧
      OnlyChanges (.media :: sending) (Rec.RECORD_SECONDS_LEFT :: sendIds) s t := by
  obtain ⟨d, hd⟩ := frameTaken_spec (p := p) (x := x) hc hn f
  have hstarts : s.chunkStarts p cc c x f = s.frameTaken p cc (chunkSize f.media.length) x f := if_neg (by rw [hn]; simp)
  exact ⟨_, d, (exec_videoChunkStart hruns hport hf).trans (congrArg Host.Outcome.next hstarts), hd⟩

theorem videoChunkStart_stops (hcc : cc < 4) {f : Frame} {rest : List Frame} (hf : s.untaken p c x = f :: rest)
    (hn : 0 < c.extentsFor (chunkSize f.media.length)) (hfull : s.media.freeExtents ≤ (s.media.clips.map fun e => e.2.reserve).sum)
    (hstop : c.stopTick = none) :
    ∃ t d, exec (.videoChunkStart p) s = .next t ∧ t.clip cc = some d ∧ d.stopTick = some f.tickSeq ∧ d.cause = 1 ∧ d.frames = c.frames ∧
      t.rd (Rec.CLIP_SLOT_STATE cc) = 2 ∧ OnlyChanges [.media] [Rec.CLIP_SLOT_STATE cc] s t := by
  have hstarts : s.chunkStarts p cc c x f = s.stopClip cc f.tickSeq 1 c.stopReq := if_pos ⟨hn, hfull, by simp [State.clipRuns, hstop]⟩
  obtain ⟨d, hd, htick, hcause, hframes, -, hstate, honly⟩ := stopClip_spec hc hcc f.tickSeq 1 c.stopReq
  exact ⟨_, d, (exec_videoChunkStart hruns hport hf).trans (congrArg Host.Outcome.next hstarts), hd, htick, hcause, hframes, hstate, honly⟩

theorem videoChunkWritten_marks {f : ClipFrame} (hf : (c.frames.find? fun g => g.port == p.val && g.state == 0) = some f)
    (hports : ∀ k q, s.media.portOf k = some q → q < 4) :
    ∃ t d, exec (.videoChunkWritten p) s = .next t ∧ t.clip cc = some d ∧
      d.frames = c.frames.map (fun g => if g.port = f.port ∧ g.number = f.number then { g with state := 1 } else g) ∧
      OnlyChanges [.media] [Rec.BYTES_WRITTEN 0, Rec.BYTES_WRITTEN 1, Rec.BYTES_WRITTEN 2, Rec.BYTES_WRITTEN 3] s t := by
  have hwrite := clipWrite_written s cc f.offset (chunkBytes Chunk.VIDEO f.stream c.id f.frame.ticket f.frame.time f.frame.media)
  have hexec := exec_videoChunkWritten hruns hport hf
  generalize s.clipWrite cc f.offset (chunkBytes Chunk.VIDEO f.stream c.id f.frame.ticket f.frame.time f.frame.media) = t at hwrite hexec
  have hclip : t.clip cc = some c := by
    have hclips : t.media.clips = s.media.clips := (congrArg RecSt.clips hwrite.2 :)
    rw [State.clip, hclips]
    exact hc
  dsimp only at hexec
  rw [hclip] at hexec
  refine ⟨_, _, hexec, clip_setClip .., rfl, (hwrite.1.trans (setClip_only t cc _)).mono (by simp) fun id hid => ?_⟩
  obtain ⟨q, hq, rfl⟩ : ∃ q ∈ s.media.memberPorts, Rec.BYTES_WRITTEN q = id := by simpa using hid
  obtain ⟨o, ho, hoq⟩ := List.mem_filterMap.1 hq
  obtain ⟨k, hk⟩ := List.getElem?_of_mem ho
  have hlt : q < 4 := hports k q (by rw [RecSt.portOf, List.getD_eq_getElem?_getD, hk]; exact hoq)
  interval_cases q <;> simp

end

/-! ## Commits (R354) -/

/-- The recorder's state beside its SSDs, its journal, its extent map and its clips stands. -/
def Commits (s t : State) : Prop := t.media.kept = s.media.kept

theorem commitAudio_commits (s : State) (cc : Nat) (c : Clip) : Commits s (s.commitAudio cc c) := by
  refine List.foldlRecOn (motive := Commits s) _ _ rfl fun t ht x _ => ?_
  split
  next a _ _ =>
    dsimp only
    split
    · have hchunk (p : List Byte) (n time : Nat) : Commits s (t.clipChunk cc Chunk.AUDIO x.stream n time p) := (clipChunk_grows t ..).kept.trans ht
      split
      · exact hchunk ..
      · exact hchunk ..
    · exact ht
  next => exact ht

/-- The staged metadata of a clip, and the tickets and the index of what a commit holds. -/
def State.commitChunks (s : State) (cc point : Nat) (staged : Option (List Byte)) (ready : List ClipFrame) : State :=
  let s := match staged with | some b => s.clipChunk cc Chunk.META 0 0 point b | none => s
  if ready = [] then s
  else
    (s.clipChunk cc Chunk.TICKET 0 ready.length point (ready.flatMap fun g => g.frame.ticketBytes)).clipChunk cc Chunk.INDEX 0 ready.length point
      (ready.flatMap ClipFrame.record)

theorem commitChunks_commits (s : State) (cc point : Nat) (staged : Option (List Byte)) (ready : List ClipFrame) :
    Commits s (s.commitChunks cc point staged ready) := by
  unfold State.commitChunks
  extract_lets u
  have hu : Commits s u := by
    unfold u
    split
    · exact (clipChunk_grows ..).kept
    · rfl
  split
  · exact hu
  · exact ((clipChunk_grows ..).kept.trans (clipChunk_grows u ..).kept).trans hu

theorem commitClip_commits (st : State × List JEntry × List (Nat × Nat × Nat × Bool)) (point cc : Nat) :
    Commits st.1 (State.commitClip st point cc).1 := by
  unfold State.commitClip
  split
  next => rfl
  next c _ =>
    extract_lets u d close ready v w tickets x
    have hx : Commits st.1 x :=
      (commitChunks_commits v cc point d.staged ready : Commits v x).trans (commitAudio_commits u cc d : Commits u v)
    split
    · exact hx
    · exact hx

/-- A commit begins with the checkpoint that is due. -/
def State.commitReady (s : State) : State := if s.checkpointDue then s.checkpoint else s

theorem commitReady_commits (s : State) : Commits s s.commitReady := by
  unfold State.commitReady
  split
  · exact (checkpoint_journalled s).1.clipGrows.kept (cc := 0)
  · rfl

theorem commitStart_begins (s : State) :
    ∃ run, s.commitStart.media.run = some run ∧ run.point = deviceTimeAt s.time s.media.lastPoint ∧ s.commitStart.media.lastPoint = s.media.lastPoint := by
  unfold State.commitStart
  extract_lets point u
  split
  next v entries clips hfold =>
    have hv : Commits s v := by
      have hall : Commits s (u.media.clips.foldl (fun st e => State.commitClip st point e.1) (u, [], [])).1 :=
        List.foldlRecOn (motive := fun st : State × List JEntry × List (Nat × Nat × Nat × Bool) => Commits s st.1) _ _ (commitReady_commits s)
          fun st hst e _ => (commitClip_commits st point e.1).trans hst
      rw [hfold] at hall
      exact hall
    exact ⟨_, rfl, rfl, (congrArg RecSt.lastPoint hv :)⟩

/-- The commit point of a tick edge. -/
def State.pointed (s : State) : State := { s with media := { s.media with lastPoint := s.tick.edgeAt } }

section
variable {s : State} (hruns : s.recorderRuns = true) (hstate : s.rd Rec.MEDIA_STATE = 3 ∨ s.rd Rec.MEDIA_STATE = 4) (hclips : s.media.clips ≠ [])
  (hdue : s.media.lastPoint + s.rd Rec.COMMIT_INTERVAL * 1000000 ≤ s.tick.edgeAt)
include hruns hstate hclips hdue

theorem exec_recorderCommitPoint :
    exec .recorderCommitPoint s = .next (
      if s.media.run.isSome then (({ s.pointed with media := { s.pointed.media with late := true } }).count Rec.COMMITS_LATE).recNotify 6 0 0 0xFF 0
      else s.pointed.commitStart) :=
  congrArg Host.Outcome.next (if_neg (by rw [hruns]; simp only [Bool.true_eq_false, false_or, not_or, not_lt]; exact ⟨by omega, hclips, hdue⟩))

theorem recorderCommitPoint_begins (hrun : s.media.run = none) :
    ∃ t run, exec .recorderCommitPoint s = .next t ∧ t.media.run = some run ∧ run.point = deviceTimeAt s.time s.tick.edgeAt ∧
      t.media.lastPoint = s.tick.edgeAt := by
  obtain ⟨run, hbegins, hpoint, hlast⟩ := commitStart_begins s.pointed
  exact ⟨_, run, (exec_recorderCommitPoint hruns hstate hclips hdue).trans (congrArg Host.Outcome.next (if_neg (by simp [hrun]))), hbegins, hpoint, hlast⟩

theorem recorderCommitPoint_late (hrun : s.media.run.isSome = true) :
    ∃ t, exec .recorderCommitPoint s = .next t ∧ t.media.run = s.media.run ∧ t.media.late = true ∧
      t.rd Rec.COMMITS_LATE = countUp (s.rd Rec.COMMITS_LATE) 1 ∧ OnlyChanges (.media :: sending) (Rec.COMMITS_LATE :: sendIds) s t := by
  let u : State := { s.pointed with media := { s.pointed.media with late := true } }
  have hu : OnlyChanges [.media] [] s u := setMedia_only s _
  have hv : OnlyChanges [] [Rec.COMMITS_LATE] u (u.count Rec.COMMITS_LATE) := count_only ..
  have hw := recNotify_only (u.count Rec.COMMITS_LATE) 6 0 0 0xFF 0
  have hmedia := (hw.media (by simp [sending])).trans (hv.media (by simp))
  refine ⟨_, (exec_recorderCommitPoint hruns hstate hclips hdue).trans (congrArg Host.Outcome.next (if_pos hrun)), (congrArg RecSt.run hmedia :),
    (congrArg RecSt.late hmedia :), ?_, ((hu.trans hv).trans hw).mono (by simp) (by simp)⟩
  rw [hw.rd (by decide)]
  exact rd_count_counter (isCounter_recLongs 0 _ (by simp [recLongs])) u

end

end Sys2Proof.Machine

/-! RECORDER_COMMIT_DONE (R354, R360), and obligation O39. -/

namespace Sys2Proof.Machine

/-- A commit is over: its group is on the set, and it counts. -/
def State.commitSeen (s : State) (run : CommitRun) : State :=
  let t := s.membersFlushed.journalGroup run.entries
  (({ t with media := { t.media with run := none, sinceCheck := t.media.sinceCheck + 1 } }).wrAll
    [(Rec.LAST_COMMIT_SEQ, s.media.seq), (Rec.LAST_COMMIT_TIME, run.point)]).count Rec.COMMITS

/-- A clip with what a commit holds of it. -/
def Clip.committed (c : Clip) (len n : Nat) : Clip := { c with length := len, records := n }

/-- A clip holds what it has committed. -/
def State.clipHeld (s : State) (cc len n : Nat) (c : Clip) : State :=
  let t := s.countBy Rec.FRAMES_RECORDED (n - c.records)
  ((t.setClip cc (c.committed len n)).setDir c.dir { tget t.media.dir c.dir {} with length := len, records := n, extents := c.extents.length }).wrAll
    [(Rec.CLIP_LENGTH cc, len), (Rec.CLIP_FRAMES cc, n)]

/-- What a commit does for one clip. -/
def State.clipCommits (s : State) (cc len n : Nat) (closes : Bool) (c : Clip) : State :=
  if closes then (s.clipHeld cc len n c).clipClosed cc (c.committed len n) else s.clipHeld cc len n c

/-- What a commit does for the clip in a slot. -/
def State.commitHolds (s : State) (e : Nat × Nat × Nat × Bool) : State :=
  match s.clip e.1 with
  | none => s
  | some c => s.clipCommits e.1 e.2.1 e.2.2.1 e.2.2.2 c

/-- What follows the clips of a commit. -/
def State.commitEnds (s : State) : State :=
  let t := s.fullWarning.fire 192
  if t.media.late then t.commitStart else t

theorem exec_recorderCommitDone {s : State} {run : CommitRun} (hruns : s.recorderRuns = true) (hrun : s.media.run = some run) :
    exec .recorderCommitDone s = .next (run.clips.foldl State.commitHolds (s.commitSeen run)).commitEnds := by
  show execRecorderCommitDone s = _
  unfold execRecorderCommitDone
  rw [hrun]
  dsimp only
  rw [if_neg (by simp [hruns])]
  rfl

/-! ## The commit -/

theorem commitSeen_spec (s : State) (run : CommitRun) :
    let t := s.commitSeen run
    (∃ ports, OnlyChanges [.media, .out] (Rec.LAST_COMMIT_SEQ :: Rec.LAST_COMMIT_TIME :: Rec.COMMITS :: clipIds ports) s t) ∧ t.media.run = none ∧
      (s.media.sb.isSome = true → t.media.seq = s.media.seq + 1) ∧ t.media.late = s.media.late ∧ t.media.clips = s.media.clips ∧
      t.rd Rec.COMMITS = countUp (s.rd Rec.COMMITS) 1 ∧ t.rd Rec.LAST_COMMIT_SEQ = s.media.seq % 2 ^ 64 ∧
      t.rd Rec.LAST_COMMIT_TIME = run.point % 2 ^ 64 := by
  let u := s.membersFlushed.journalGroup run.entries
  let v : State := { u with media := { u.media with run := none, sinceCheck := u.media.sinceCheck + 1 } }
  let w := v.wrAll [(Rec.LAST_COMMIT_SEQ, s.media.seq), (Rec.LAST_COMMIT_TIME, run.point)]
  have hlong (id : Nat) (hid : id ∈ recLongs 0) : isCounter id = true := isCounter_recLongs 0 id hid
  have hflush := membersFlushed_only s
  obtain ⟨hjournal, hseq⟩ := journalGroup_journalled s.membersFlushed run.entries
  rw [hflush.media (by simp)] at hseq
  have hworking : u.media.working = s.media.working := hjournal.2.trans (congrArg RecSt.working (hflush.media (by simp)))
  have hv : OnlyChanges [.media] [] u v := setMedia_only u _
  have hw : OnlyChanges [] [Rec.LAST_COMMIT_SEQ, Rec.LAST_COMMIT_TIME] v w := wrAll_only ..
  have ht : OnlyChanges [] [Rec.COMMITS] w (w.count Rec.COMMITS) := count_only ..
  have hmedia : (w.count Rec.COMMITS).media = v.media := (ht.media (by simp)).trans (hw.media (by simp))
  have hheld : w.rd Rec.LAST_COMMIT_SEQ = s.media.seq % 2 ^ 64 ∧ w.rd Rec.LAST_COMMIT_TIME = run.point % 2 ^ 64 := by
    simp only [w, State.wrAll, List.foldl_cons, List.foldl_nil]
    refine ⟨?_, rd_wr_counter (hlong _ (by simp [recLongs])) ..⟩
    rw [(wr_only ..).rd (by decide)]
    exact rd_wr_counter (hlong _ (by simp [recLongs])) ..
  have hcommits : w.rd Rec.COMMITS = s.rd Rec.COMMITS := by
    rw [hw.rd (by decide), hv.rd (by simp), hjournal.rd (by decide) (by decide), hflush.rd (by simp)]
  refine ⟨⟨s.membersFlushed.media.memberPorts, ((((hflush.trans hjournal.1).trans hv).trans hw).trans ht).mono (by simp) ?_⟩, ?_, ?_, ?_, ?_, ?_, ?_, ?_⟩
  · simp only [clipIds, List.mem_append, List.mem_cons, List.not_mem_nil, or_false, false_or]
    tauto
  · exact (congrArg RecSt.run hmedia :)
  · exact fun hsb => (congrArg RecSt.seq hmedia :).trans (hseq hsb)
  · exact (congrArg RecSt.late hmedia :).trans (congrArg RecSt.late hworking :)
  · exact (congrArg RecSt.clips hmedia :).trans (congrArg RecSt.clips hworking :)
  · exact (rd_count_counter (hlong _ (by simp [recLongs])) w).trans (by rw [hcommits])
  · exact (ht.rd (by decide)).trans hheld.1
  · exact (ht.rd (by decide)).trans hheld.2

/-- What a commit that has begun keeps to the end. -/
def SameCommit (s t : State) : Prop := t.media.run = s.media.run ∧ t.media.seq = s.media.seq ∧ t.media.late = s.media.late

theorem clipHeld_spec (s : State) {cc : Nat} (hcc : cc < 4) (len n : Nat) (c : Clip) :
    let t := s.clipHeld cc len n c
    OnlyChanges [.media] [Rec.FRAMES_RECORDED, Rec.CLIP_LENGTH cc, Rec.CLIP_FRAMES cc] s t ∧ SameCommit s t ∧ t.clip cc = some (c.committed len n) ∧
      t.rd Rec.FRAMES_RECORDED = countUp (s.rd Rec.FRAMES_RECORDED) (n - c.records) ∧ t.rd (Rec.CLIP_LENGTH cc) = len % 2 ^ 64 ∧
      t.rd (Rec.CLIP_FRAMES cc) = n % 2 ^ 32 := by
  let u := s.countBy Rec.FRAMES_RECORDED (n - c.records)
  let v := (u.setClip cc (c.committed len n)).setDir c.dir { tget u.media.dir c.dir {} with length := len, records := n, extents := c.extents.length }
  let w := v.wrAll [(Rec.CLIP_LENGTH cc, len), (Rec.CLIP_FRAMES cc, n)]
  have hlong (id : Nat) (hid : id ∈ recLongs cc) : isCounter id = true := isCounter_recLongs ⟨cc, hcc⟩ id hid
  have hapart : ∀ p : Fin 4, Rec.FRAMES_RECORDED ∉ [Rec.CLIP_LENGTH p, Rec.CLIP_FRAMES p] ∧ Rec.CLIP_LENGTH p ∉ [Rec.CLIP_FRAMES p] := by decide
  have hu : OnlyChanges [] [Rec.FRAMES_RECORDED] s u := countBy_only ..
  have hv : OnlyChanges [.media] [] u v := setMedia_only u _
  have hw : OnlyChanges [] [Rec.CLIP_LENGTH cc, Rec.CLIP_FRAMES cc] v w := wrAll_only ..
  have hmedia : w.media = v.media := hw.media (by simp)
  have hsame : u.media = s.media := hu.media (by simp)
  have hrun : v.media.run = s.media.run ∧ v.media.seq = s.media.seq ∧ v.media.late = s.media.late :=
    ⟨(congrArg RecSt.run hsame :), (congrArg RecSt.seq hsame :), (congrArg RecSt.late hsame :)⟩
  refine ⟨((hu.trans hv).trans hw).mono (by simp) (by simp), ?_, ?_, ?_, ?_, ?_⟩
  · show w.media.run = _ ∧ w.media.seq = _ ∧ w.media.late = _
    rw [hmedia]
    exact hrun
  · show tfind w.media.clips cc = _
    rw [hmedia]
    exact clip_setClip ..
  · exact (hw.rd (hapart ⟨cc, hcc⟩).1).trans (rd_countBy_counter (hlong _ (by simp [recLongs])) _ s)
  · show State.rd (State.wrAll v _) _ = _
    simp only [State.wrAll, List.foldl_cons, List.foldl_nil]
    rw [(wr_only ..).rd (hapart ⟨cc, hcc⟩).2]
    exact rd_wr_counter (hlong _ (by simp [recLongs])) ..
  · show State.rd (State.wrAll v _) _ = _
    simp only [State.wrAll, List.foldl_cons, List.foldl_nil]
    exact rd_wr_isWord (isWord_recWords ⟨cc, hcc⟩ _ (by simp [recWords])) ..

/-! ## A clip that closes (R360) -/

/-- The directory entry of a clip is CLOSED, and its slot FREE. -/
def State.slotFreed (s : State) (cc : Nat) (c : Clip) : State :=
  let t := s.setDir c.dir { tget s.media.dir c.dir {} with
    state := 2, cause := c.cause, stopTick := c.stopTick.getD 0, stopTime := c.stopTime, stopEpoch := c.stopEpoch, extents := c.extents.length }
  let u : State := { t with media := { t.media with clips := tdel t.media.clips cc } }
  u.wrAll [(Rec.CLIP_SLOT_ID cc, 0), (Rec.CLIP_SLOT_STATE cc, 0), (Rec.OPEN_CLIPS, u.media.clips.length)]

theorem clipClosed_eq (s : State) (cc : Nat) (c : Clip) :
    s.clipClosed cc c = (((((s.slotFreed cc c).stopAnswered c).recNotify 1 c.length c.id 0xFF c.cause).fire 193)).updateRun := rfl

theorem slotFreed_spec (s : State) {cc : Nat} (hcc : cc < 4) (c : Clip) :
    let t := s.slotFreed cc c
    OnlyChanges [.media] [Rec.CLIP_SLOT_ID cc, Rec.CLIP_SLOT_STATE cc, Rec.OPEN_CLIPS] s t ∧ SameCommit s t ∧ t.clip cc = none ∧
      t.rd (Rec.CLIP_SLOT_STATE cc) = 0 := by
  let t := s.setDir c.dir { tget s.media.dir c.dir {} with
    state := 2, cause := c.cause, stopTick := c.stopTick.getD 0, stopTime := c.stopTime, stopEpoch := c.stopEpoch, extents := c.extents.length }
  let u : State := { t with media := { t.media with clips := tdel t.media.clips cc } }
  have hu : OnlyChanges [.media] [] s u := setMedia_only s _
  have hw : OnlyChanges [] [Rec.CLIP_SLOT_ID cc, Rec.CLIP_SLOT_STATE cc, Rec.OPEN_CLIPS] u (s.slotFreed cc c) := wrAll_only ..
  have hmedia : (s.slotFreed cc c).media = u.media := hw.media (by simp)
  have hapart : ∀ p : Fin 4, Rec.CLIP_SLOT_STATE p ∉ [Rec.OPEN_CLIPS] := by decide
  refine ⟨hu.trans hw, ⟨(congrArg RecSt.run hmedia :), (congrArg RecSt.seq hmedia :), (congrArg RecSt.late hmedia :)⟩, ?_, ?_⟩
  · show tfind _ cc = none
    rw [hmedia]
    exact tfind_tdel_same ..
  · show State.rd (State.wrAll u _) _ = _
    simp only [State.wrAll, List.foldl_cons, List.foldl_nil]
    rw [(wr_only ..).rd (hapart ⟨cc, hcc⟩)]
    exact rd_wr_word (isWord_recWords ⟨cc, hcc⟩ _ (by simp [recWords])) (by omega) _

theorem clipClosed_spec (s : State) {cc : Nat} (hcc : cc < 4) (c : Clip) :
    let t := s.clipClosed cc c
    OnlyChanges (.media :: .pow :: .firings :: sending) (Rec.CLIP_SLOT_ID cc :: Rec.CLIP_SLOT_STATE cc :: Rec.OPEN_CLIPS :: sendIds) s t ∧
      SameCommit s t ∧ t.clip cc = none ∧ t.rd (Rec.CLIP_SLOT_STATE cc) = 0 ∧ (193, s.clock) ∈ t.firings := by
  obtain ⟨hfreed, hsame, hclip, hstate⟩ := slotFreed_spec s hcc c
  rw [clipClosed_eq]
  have hanswer := stopAnswered_only (s.slotFreed cc c) c
  have hnotice := recNotify_only ((s.slotFreed cc c).stopAnswered c) 1 c.length c.id 0xFF c.cause
  have htold := hanswer.trans hnotice
  generalize ((s.slotFreed cc c).stopAnswered c).recNotify 1 c.length c.id 0xFF c.cause = u at htold
  have hrest := (htold.trans (fire_only u 193)).trans (updateRun_only (u.fire 193))
  have hmedia : (u.fire 193).updateRun.media = (s.slotFreed cc c).media := hrest.media (by simp [sending])
  refine ⟨(hfreed.trans hrest).mono (by simp +contextual [or_imp]) (by simp +contextual [or_imp]), ?_, ?_, ?_, ?_⟩
  · unfold SameCommit
    rw [hmedia]
    exact hsame
  · rw [State.clip, hmedia]
    exact hclip
  · rw [hrest.rd (by simpa using recIds_not_sent ⟨cc, hcc⟩ (Rec.CLIP_SLOT_STATE cc) (by simp [recWords]))]
    exact hstate
  · rw [(updateRun_only (u.fire 193)).firings (by simp [sending]), fire_firings, htold.clock (by simp [sending]), hfreed.clock (by simp)]
    simp

theorem clipCommits_spec (s : State) {cc : Nat} (hcc : cc < 4) (len n : Nat) (closes : Bool) (c : Clip) :
    let t := s.clipCommits cc len n closes c
    OnlyChanges (.media :: .pow :: .firings :: sending) (Rec.FRAMES_RECORDED :: Rec.CLIP_LENGTH cc :: Rec.CLIP_FRAMES cc :: Rec.CLIP_SLOT_ID cc ::
        Rec.CLIP_SLOT_STATE cc :: Rec.OPEN_CLIPS :: sendIds) s t ∧
      SameCommit s t ∧ t.rd Rec.FRAMES_RECORDED = countUp (s.rd Rec.FRAMES_RECORDED) (n - c.records) ∧ t.rd (Rec.CLIP_LENGTH cc) = len % 2 ^ 64 ∧
      t.rd (Rec.CLIP_FRAMES cc) = n % 2 ^ 32 ∧ (closes = false → t.clip cc = some (c.committed len n) ∧ t.firings = s.firings) ∧
      (closes = true → t.clip cc = none ∧ t.rd (Rec.CLIP_SLOT_STATE cc) = 0 ∧ (193, s.clock) ∈ t.firings) := by
  obtain ⟨hheld, hsame, hclip, hframes, hlength, hrecords⟩ := clipHeld_spec s hcc len n c
  cases closes with
  | false =>
    exact ⟨hheld.mono (by simp) (by simp +contextual [or_imp]), hsame, hframes, hlength, hrecords, fun _ => ⟨hclip, hheld.firings (by simp)⟩, by simp⟩
  | true =>
    obtain ⟨hclosed, hagain, hnone, hstate, hfired⟩ := clipClosed_spec (s.clipHeld cc len n c) hcc (c.committed len n)
    have hapart : ∀ p : Fin 4, ∀ id ∈ [Rec.FRAMES_RECORDED, Rec.CLIP_LENGTH p, Rec.CLIP_FRAMES p],
        id ∉ Rec.CLIP_SLOT_ID p :: Rec.CLIP_SLOT_STATE p :: Rec.OPEN_CLIPS :: sendIds := by decide
    rw [hheld.clock (by simp)] at hfired
    refine ⟨(hheld.trans hclosed).mono (by simp +contextual [or_imp]) (by simp +contextual [or_imp]), ?_, ?_, ?_, ?_, by simp, fun _ => ⟨hnone, hstate, hfired⟩⟩
    · exact ⟨hagain.1.trans hsame.1, hagain.2.1.trans hsame.2.1, hagain.2.2.trans hsame.2.2⟩
    · exact (hclosed.rd (hapart ⟨cc, hcc⟩ _ (by simp))).trans hframes
    · exact (hclosed.rd (hapart ⟨cc, hcc⟩ _ (by simp))).trans hlength
    · exact (hclosed.rd (hapart ⟨cc, hcc⟩ _ (by simp))).trans hrecords

theorem commitEnds_spec {s : State} (hlate : s.media.late = false) :
    OnlyChanges (.media :: .firings :: sending) (Rec.RECORD_SECONDS_LEFT :: sendIds) s s.commitEnds ∧
      (∃ warned, s.commitEnds.media = { s.media with warned := warned }) ∧ s.commitEnds.firings = s.firings ++ [(192, s.clock)] := by
  obtain ⟨hwarn, warned, hmedia⟩ := fullWarning_spec s
  have hfire := fire_only s.fullWarning 192
  have hsame : (s.fullWarning.fire 192).media = { s.media with warned := warned } := (hfire.media (by simp)).trans hmedia
  have hends : s.commitEnds = s.fullWarning.fire 192 := if_neg (by rw [hsame]; simp [hlate])
  rw [hends]
  refine ⟨(hwarn.trans hfire).mono (by simp +contextual [or_imp]) (by simp), ⟨warned, hsame⟩, ?_⟩
  rw [fire_firings, hwarn.firings (by simp [sending]), hwarn.clock (by simp [sending])]

theorem recorderCommitDone_commits {s : State} (hruns : s.recorderRuns = true) {run : CommitRun} {cc len n : Nat} {closes : Bool} {c : Clip}
    (hrun : s.media.run = some run) (hclips : run.clips = [(cc, len, n, closes)]) (hc : s.clip cc = some c) (hcc : cc < 4)
    (hsb : s.media.sb.isSome = true) (hlate : s.media.late = false) :
    ∃ t, exec .recorderCommitDone s = .next t ∧ t.media.run = none ∧ t.media.seq = s.media.seq + 1 ∧
      t.rd Rec.COMMITS = countUp (s.rd Rec.COMMITS) 1 ∧ t.rd Rec.LAST_COMMIT_SEQ = s.media.seq % 2 ^ 64 ∧
      t.rd Rec.LAST_COMMIT_TIME = run.point % 2 ^ 64 ∧ t.rd (Rec.CLIP_LENGTH cc) = len % 2 ^ 64 ∧
      t.rd (Rec.CLIP_FRAMES cc) = n % 2 ^ 32 ∧ t.rd Rec.FRAMES_RECORDED = countUp (s.rd Rec.FRAMES_RECORDED) (n - c.records) ∧
      (closes = false → t.clip cc = some { c with length := len, records := n } ∧ t.firings = s.firings ++ [(192, s.clock)]) ∧
      (closes = true → t.clip cc = none ∧ t.rd (Rec.CLIP_SLOT_STATE cc) = 0 ∧ (193, s.clock) ∈ t.firings) := by
  obtain ⟨⟨ports, hseen⟩, hdone, hseq, hsameLate, hsameClips, hcommits, hlastSeq, hlastTime⟩ := commitSeen_spec s run
  let u := s.commitSeen run
  have huc : u.clip cc = some c := by rw [State.clip, hsameClips]; exact hc
  obtain ⟨hheld, hsame, hframes, hlength, hrecords, hopen, hclosed⟩ := clipCommits_spec u hcc len n closes c
  let v := u.clipCommits cc len n closes c
  have hexec : exec .recorderCommitDone s = .next v.commitEnds := by
    have hholds : u.commitHolds (cc, len, n, closes) = v := by rw [State.commitHolds, huc]
    rw [exec_recorderCommitDone hruns hrun, hclips, List.foldl_cons, List.foldl_nil, hholds]
  have hvlate : v.media.late = false := hsame.2.2.trans (hsameLate.trans hlate)
  obtain ⟨hends, ⟨warned, hmedia⟩, hfirings⟩ := commitEnds_spec hvlate
  have hendIds : ∀ p : Fin 4, ∀ id ∈ recWords p ++ recLongs p, id ∉ Rec.RECORD_SECONDS_LEFT :: sendIds := by decide
  have hread (id : Nat) (hid : id ∈ recWords cc ++ recLongs cc) : v.commitEnds.rd id = v.rd id := hends.rd (hendIds ⟨cc, hcc⟩ id hid)
  have hseenIds : ∀ p : Fin 4, ∀ id ∈ [Rec.COMMITS, Rec.LAST_COMMIT_SEQ, Rec.LAST_COMMIT_TIME], id ∉ Rec.FRAMES_RECORDED :: Rec.CLIP_LENGTH p ::
    Rec.CLIP_FRAMES p :: Rec.CLIP_SLOT_ID p :: Rec.CLIP_SLOT_STATE p :: Rec.OPEN_CLIPS :: sendIds := by decide
  have hkept (id : Nat) (hid : id ∈ [Rec.COMMITS, Rec.LAST_COMMIT_SEQ, Rec.LAST_COMMIT_TIME]) : v.rd id = u.rd id :=
    hheld.rd (hseenIds ⟨cc, hcc⟩ id hid)
  have hrecorded : u.rd Rec.FRAMES_RECORDED = s.rd Rec.FRAMES_RECORDED := hseen.rd (by
    simp only [clipIds, List.mem_cons, not_or]
    exact ⟨by decide, by decide, by decide, by decide, by decide, not_mem_of_number (bytesWritten_number ports) (by decide)⟩)
  have hclock : u.clock = s.clock := hseen.clock (by simp)
  have hclip : v.commitEnds.clip cc = v.clip cc := by rw [State.clip, hmedia]; rfl
  refine ⟨_, hexec, ?_, ?_, ?_, ?_, ?_, ?_, ?_, ?_, fun hfalse => ?_, fun htrue => ?_⟩
  · rw [hmedia]
    exact hsame.1.trans hdone
  · rw [hmedia]
    exact hsame.2.1.trans (hseq hsb)
  · rw [hread _ (by simp [recLongs]), hkept _ (by simp), hcommits]
  · rw [hread _ (by simp [recLongs]), hkept _ (by simp), hlastSeq]
  · rw [hread _ (by simp [recLongs]), hkept _ (by simp), hlastTime]
  · rw [hread _ (by simp [recLongs]), hlength]
  · rw [hread _ (by simp [recWords]), hrecords]
  · rw [hread _ (by simp [recLongs]), hframes, hrecorded]
  · obtain ⟨hstays, hquiet⟩ := hopen hfalse
    refine ⟨hclip.trans hstays, ?_⟩
    rw [hfirings, hquiet, hheld.clock (by simp [sending]), hclock, hseen.firings (by simp)]
  · obtain ⟨hnone, hstate, hfired⟩ := hclosed htrue
    refine ⟨hclip.trans hnone, ?_, ?_⟩
    · rw [hread _ (by simp [recWords]), hstate]
    · rw [hfirings]
      exact List.mem_append_left _ (hclock ▸ hfired)

/-- Settles O39: clips open in the lowest free slot, stop at a tick still to come, take their frames and hold what a commit holds. -/
theorem clipsRecordAndCommit : Obligations.ClipsRecordAndCommit :=
  ⟨fun _ _ _ htakes => ⟨clipStart_notOwner htakes, clipStart_refused htakes, fun _ _ _ howner hok hadmit hslot hdir hlen =>
      clipStart_opens htakes howner hok hadmit hslot hdir hlen⟩,
    fun _ _ _ htakes howner => ⟨clipStop_unknown htakes howner, fun _ _ hnamed hc hcc hlen =>
      ⟨clipStop_stopping htakes howner hnamed hlen, clipStop_past htakes howner hnamed hlen, clipStop_stops htakes howner hnamed hlen hc hcc⟩⟩,
    fun _ _ _ _ _ hruns hport hc hcc => ⟨fun _ _ hf => ⟨videoChunkStart_takes hruns hport hc hf, videoChunkStart_stops hruns hport hc hcc hf⟩,
      fun _ hf hports => videoChunkWritten_marks hruns hport hc hf hports⟩,
    fun _ hruns => ⟨fun hstate hclips hdue => ⟨recorderCommitPoint_begins hruns hstate hclips hdue, recorderCommitPoint_late hruns hstate hclips hdue⟩,
      fun _ _ _ _ _ _ hrun hclips hc hcc hsb hlate => recorderCommitDone_commits hruns hrun hclips hc hcc hsb hlate⟩⟩

end Sys2Proof.Machine

/-! Completions of the storage target over free RoCEv2 egress, and the end of its queues and associations (R313, R371 to R373, R394, R395). -/

namespace Sys2Proof.Machine

/-! ## Free egress (R313) -/

theorem OnlyChanges.roceFree {ps : List Part} {ids : List Nat} {s t : State} (h : OnlyChanges ps ids s t) (hclock : .clock ∉ ps) (heth : ∀ p, .eth p ∉ ps)
    (hfree : s.roceFree) : t.roceFree :=
  fun p => ⟨(h.paused hclock (heth p)).trans (hfree p).1, h.eth (heth p) ▸ (hfree p).2⟩

theorem roceOut_now {s : State} (hfree : s.roceFree) (p extra : Nat) (o : Output) : s.roceOut p extra o = s.roceNow p extra o := by
  have hflush : s.roceFlush p = s := if_pos (.inr (hfree p).2)
  rw [State.roceOut, hflush]
  exact if_neg (by rw [(hfree p).1]; simp)

theorem roceNow_out (s : State) (p extra : Nat) (o : Output) : (s.roceNow p extra o).out = o :: s.out := by
  unfold State.roceNow
  split
  · exact emit_out s o
  · exact ((txFrames_only ..).out (by simp)).trans (emit_out s o)

/-! ## Completions -/

/-- The retries of the queue pair of a command start afresh. -/
def State.retriesOver (s : State) (c qid : Nat) : State :=
  { s with qps := s.qps.map fun (e : Nat × Qp) => if e.2.use = QpUse.nvme c qid then (e.1, ({ e.2 with retries := 0, sentAt := s.clock } : Qp)) else e }

theorem retriesOver_only (s : State) (c qid : Nat) : OnlyChanges [.qps] [] s (s.retriesOver c qid) := setQpTable_only s _ s.qpSerial

/-- A failure enters the Error Information log of its association. -/
def State.errorLogged (s : State) (c qid cid status lba nsid : Nat) : State :=
  match s.assoc c with
  | some a =>
    if status = 0 then s
    else s.setAssoc c { a with
      errors := ({ number := a.errorCount + 1, qid := qid, cid := cid, status := status, lba := lba, nsid := nsid } :: a.errors).take 64
      errorCount := a.errorCount + 1 }
  | none => s

theorem setAssoc_only (s : State) (c : Nat) (a : Assoc) : OnlyChanges [.tgt] [] s (s.setAssoc c a) := setTgt_only s _

theorem errorLogged_only (s : State) (c qid cid status lba nsid : Nat) : OnlyChanges [.tgt] [] s (s.errorLogged c qid cid status lba nsid) := by
  unfold State.errorLogged
  split
  · split
    · exact .nothing s
    · exact setAssoc_only ..
  · exact .nothing s

theorem errorLogged_ok (s : State) (c qid cid lba nsid : Nat) : s.errorLogged c qid cid 0 lba nsid = s := by
  unfold State.errorLogged
  split <;> rfl

/-- Everything of the target but the log of errors stays. -/
theorem errorLogged_cmds (s : State) (c qid cid status lba nsid : Nat) :
    (s.errorLogged c qid cid status lba nsid).tgt = { s.tgt with assocs := (s.errorLogged c qid cid status lba nsid).tgt.assocs } := by
  unfold State.errorLogged
  split
  · split <;> rfl
  · rfl

theorem nvmeDoneAt_spec {s : State} (hfree : s.roceFree) (c qid cid status result : Nat) (data : List Byte) (lba nsid : Nat) :
    ∃ u, s.nvmeDoneAt c qid cid status result data lba nsid = u.errorLogged c qid cid status lba nsid ∧ OnlyChanges answering txIds s u ∧
      ∃ port mark, u.out = .nvme port mark c qid cid status result data :: s.out := by
  unfold State.nvmeDoneAt
  extract_lets q port u
  have hu : u = s.roceNow port _ _ := roceOut_now hfree ..
  refine ⟨u.retriesOver c qid, rfl, ?_, port, s.control port 1, ?_⟩
  · rw [hu]
    exact ((roceNow_only ..).trans (retriesOver_only ..)).mono (by simp [answering]) (by simp)
  · show u.out = _
    rw [hu, roceNow_out]

theorem nvmeDone_ok {s : State} (hfree : s.roceFree) (c qid cid result : Nat) (data : List Byte) :
    OnlyChanges answering txIds s (s.nvmeDone c qid cid Nvme.OK result data) ∧
      ∃ port mark, (s.nvmeDone c qid cid Nvme.OK result data).out = .nvme port mark c qid cid Nvme.OK result data :: s.out := by
  obtain ⟨u, heq, honly, hout⟩ := nvmeDoneAt_spec hfree c qid cid Nvme.OK result data 0 0
  rw [show s.nvmeDone c qid cid Nvme.OK result data = u from heq.trans (errorLogged_ok ..)]
  exact ⟨honly, hout⟩

/-! ## The parameters of an association (Table 14-10) -/

/-- The parameters that follow an association. -/
def assocIds (c : Nat) : List Nat := [Tgt.ASSOCIATIONS, Tgt.ASSOC_INFO (c - 1)]

theorem assocParams_only (s : State) (c : Nat) :
    OnlyChanges [.blob (Tgt.ASSOC_HOST (c - 1))] (assocIds c) s (s.assocParams c) := by
  unfold State.assocParams
  dsimp only
  split
  · exact (((wr_only ..).trans (wrBlob_only ..)).trans (wr_only ..)).mono (by simp) (by simp [assocIds])
  · exact (((wr_only ..).trans (wrBlob_only ..)).trans (wr_only ..)).mono (by simp) (by simp [assocIds])

theorem assocParams_host {s : State} {c : Nat} {a : Assoc} (ha : s.assoc c = some a) :
    (s.assocParams c).rdBlob (Tgt.ASSOC_HOST (c - 1)) = a.hostNqn := by
  unfold State.assocParams
  dsimp only
  rw [show (s.wr Tgt.ASSOCIATIONS s.tgt.assocs.length).assoc c = some a by rw [State.assoc, (wr_only ..).tgt (by simp)]; exact ha]
  dsimp only
  rw [show (State.wr _ _ _).rdBlob _ = _ from (wr_only ..).2.1 (.blob _) (by simp)]
  exact rdBlob_wrBlob_same ..

/-! ## The end of queues (R395) -/

/-- One queue of the table is gone, with its commands. -/
def State.queueGone (s : State) (c qid : Nat) : State :=
  let s := s.endCmds fun (x : NvmeCmd) => x.cntlid == c && x.qid == qid
  { s with tgt := { s.tgt with queues := tdel s.tgt.queues (qKey c qid) } }

theorem endQueue_eq (s : State) (c qid : Nat) :
    s.endQueue c qid = ((s.queueGone c qid).dropQps fun q => q.use == .nvme c qid).assocParams c := rfl

/-- The parameters that the end of a queue or of an association moves. -/
def queueIds (c : Nat) : List Nat := Eth.QP_COUNT 0 :: Eth.QP_COUNT 1 :: assocIds c

theorem endQueue_only (s : State) (c qid : Nat) :
    OnlyChanges [.tgt, .qps, .blob (Tgt.ASSOC_HOST (c - 1))] (queueIds c) s (s.endQueue c qid) := by
  rw [endQueue_eq]
  have hgone : OnlyChanges [.tgt] [] s (s.queueGone c qid) := setTgt_only s _
  exact ((hgone.trans (dropQps_only ..)).trans (assocParams_only ..)).mono (by simp) (by simp [queueIds, or_imp])

theorem endQueue_spec (s : State) (c qid : Nat) :
    tfind (s.endQueue c qid).tgt.queues (qKey c qid) = none ∧ (s.endQueue c qid).assoc c = s.assoc c ∧
      (∀ x ∈ (s.endQueue c qid).tgt.cmds, x.cntlid = c → x.qid ≠ qid) := by
  have htgt : (s.endQueue c qid).tgt = (s.queueGone c qid).tgt := by
    rw [endQueue_eq, (assocParams_only ..).tgt (by simp), (dropQps_only ..).tgt (by simp)]
  rw [State.assoc, htgt]
  refine ⟨tfind_tdel_same .., rfl, fun x hx hc hqid => ?_⟩
  have hkept := (List.mem_filter.1 hx).2
  simp [hc, hqid] at hkept

/-! ## The end of an association (R394) -/

/-- An association is gone from the tables of the target, with its queues and commands. -/
def State.assocGone (s : State) (c : Nat) : State :=
  let s := s.endCmds fun (x : NvmeCmd) => x.cntlid == c
  ({ s with tgt := { s.tgt with
      queues := s.tgt.queues.filter fun (q : Nat × Nat) => q.1 / 65536 != c
      held := s.tgt.held.filter fun (i : Instr) => targetOf i != c
      assocs := tdel s.tgt.assocs c } }).dropStaging c

/-- The queue pairs of an association are gone. -/
def State.assocDropped (s : State) (c : Nat) : State :=
  s.dropQps fun q => match q.use with | .nvme x _ => x == c | _ => false

theorem endAssoc_eq {s : State} {c : Nat} {a : Assoc} (ha : s.assoc c = some a) (value : Nat) :
    s.endAssoc c value = (((s.assocGone c).assocDropped c).assocParams c).targetNotify 2 c a.port value := by
  rw [State.endAssoc, ha]
  rfl

theorem dropStaging_spec (s : State) (c : Nat) :
    OnlyChanges [.tgt] [] s (s.dropStaging c) ∧ ∃ staging, (s.dropStaging c).tgt = { s.tgt with staging := staging } := by
  unfold State.dropStaging
  split
  · split
    · exact ⟨setTgt_only s _, none, rfl⟩
    · exact ⟨.nothing s, _, rfl⟩
  · exact ⟨.nothing s, _, rfl⟩

theorem endAssoc_spec {s : State} {c : Nat} {a : Assoc} (ha : s.assoc c = some a) (value : Nat) :
    OnlyChanges (.tgt :: .qps :: .blob (Tgt.ASSOC_HOST (c - 1)) :: sending) (queueIds c ++ sendIds) s (s.endAssoc c value) ∧
      (s.endAssoc c value).assoc c = none ∧ (s.endAssoc c value).queuesOf c = [] ∧ (∀ x ∈ (s.endAssoc c value).tgt.cmds, x.cntlid ≠ c) ∧
      s.out <:+ (s.endAssoc c value).out := by
  let u := s.endCmds fun (x : NvmeCmd) => x.cntlid == c
  let v : State := { u with tgt := { u.tgt with
      queues := u.tgt.queues.filter fun (q : Nat × Nat) => q.1 / 65536 != c
      held := u.tgt.held.filter fun (i : Instr) => targetOf i != c
      assocs := tdel u.tgt.assocs c } }
  have hv : OnlyChanges [.tgt] [] s v := setTgt_only s _
  obtain ⟨hstaging, staging, htgt⟩ := dropStaging_spec v c
  have hdrop : OnlyChanges [.qps] _ (s.assocGone c) ((s.assocGone c).assocDropped c) := dropQps_only ..
  have hparams := assocParams_only ((s.assocGone c).assocDropped c) c
  have hbefore := ((hv.trans hstaging).trans hdrop).trans hparams
  have hnotify := notify_only (((s.assocGone c).assocDropped c).assocParams c) 9 2 (leBytes 1 c ++ leBytes 1 a.port ++ leBytes 1 value ++ zeroBytes 5)
  have hsame : (s.endAssoc c value).tgt = { v.tgt with staging := staging } := by
    rw [endAssoc_eq ha]
    exact (((hnotify.tgt (by simp [sending])).trans (hparams.tgt (by simp))).trans (hdrop.tgt (by simp))).trans htgt
  refine ⟨?_, ?_, ?_, fun x hx hc => ?_, ?_⟩
  · rw [endAssoc_eq ha]
    exact (hbefore.trans hnotify).mono (by simp) (by simp [queueIds, or_imp])
  · rw [State.assoc, hsame]
    exact tfind_tdel_same ..
  · rw [State.queuesOf, hsame]
    refine List.filter_eq_nil_iff.2 fun k hk => ?_
    obtain ⟨e, he, rfl⟩ := List.mem_map.1 hk
    simpa using (List.mem_filter.1 he).2
  · rw [hsame] at hx
    have hkept := (List.mem_filter.1 hx).2
    simp [hc] at hkept
  · rw [endAssoc_eq ha, ← hbefore.out (by simp)]
    exact notify_suffix ..

end Sys2Proof.Machine

/-! Connects, Disconnect and the loss of queue pairs, and obligation O40 (R371 to R373, R393 to R395). -/

namespace Sys2Proof.Machine

/-! ## Connects (R371 to R373) -/

theorem isCounter_targetCounters : ∀ id ∈ [Tgt.CONNECTS, Tgt.CONNECT_REJECTED, Tgt.CONN_LOST, Tgt.KATO_EXPIRED], isCounter id = true := by decide

section
variable {s : State} (hfree : s.roceFree)
include hfree

theorem connectFail_uncounted (port cid status : Nat) :
    (s.connectFail port cid status false).answered 0xFFFF 0 cid status 0 [] ∧ OnlyChanges [.out, .free] txIds s (s.connectFail port cid status false) := by
  have heq : s.connectFail port cid status false = s.roceNow port 1 (.nvme port (s.control port 1) 0xFFFF 0 cid status 0 []) := roceOut_now hfree ..
  rw [heq]
  exact ⟨⟨port, s.control port 1, by rw [roceNow_out]; rfl⟩, roceNow_only ..⟩

theorem connectFail_counted (port cid status : Nat) :
    (s.connectFail port cid status true).answered 0xFFFF 0 cid status 0 [] ∧
      (s.connectFail port cid status true).rd Tgt.CONNECT_REJECTED = countUp (s.rd Tgt.CONNECT_REJECTED) 1 ∧
      OnlyChanges [.out, .free] (Tgt.CONNECT_REJECTED :: txIds) s (s.connectFail port cid status true) := by
  let u := s.count Tgt.CONNECT_REJECTED
  have hu : OnlyChanges [] [Tgt.CONNECT_REJECTED] s u := count_only ..
  have heq : s.connectFail port cid status true = u.roceNow port 1 (.nvme port (s.control port 1) 0xFFFF 0 cid status 0 []) :=
    roceOut_now (hu.roceFree (by simp) (by simp) hfree) ..
  have honly := roceNow_only u port 1 (.nvme port (s.control port 1) 0xFFFF 0 cid status 0 [])
  rw [heq]
  refine ⟨⟨port, s.control port 1, by rw [roceNow_out]; rfl⟩, ?_, (hu.trans honly).mono (by simp) (by simp)⟩
  exact (honly.rd (by decide)).trans (rd_count_counter (isCounter_targetCounters _ (by simp)) s)

end

/-- What the target counts of its associations is not what it shows of one. -/
theorem targetCounters_not_shown {id : Nat} (hid : id ∈ [Tgt.CONNECTS, Tgt.CONN_LOST, Tgt.KATO_EXPIRED]) (c : Nat) : id ∉ queueIds c := by
  have hnumber : id % 0x10000 ≠ Tgt.ASSOC_INFO (c - 1) % 0x10000 := by
    rw [show Tgt.ASSOC_INFO (c - 1) % 0x10000 = Tgt.ASSOC_INFO 0 % 0x10000 by simp only [Tgt.ASSOC_INFO]; omega]
    exact (by decide : ∀ id ∈ [Tgt.CONNECTS, Tgt.CONN_LOST, Tgt.KATO_EXPIRED], id % 0x10000 ≠ Tgt.ASSOC_INFO 0 % 0x10000) id hid
  have hfixed : id ∉ [Eth.QP_COUNT 0, Eth.QP_COUNT 1, Tgt.ASSOCIATIONS] :=
    (by decide : ∀ id ∈ [Tgt.CONNECTS, Tgt.CONN_LOST, Tgt.KATO_EXPIRED], id ∉ [Eth.QP_COUNT 0, Eth.QP_COUNT 1, Tgt.ASSOCIATIONS]) id hid
  intro hmem
  rw [show queueIds c = [Eth.QP_COUNT 0, Eth.QP_COUNT 1, Tgt.ASSOCIATIONS] ++ [Tgt.ASSOC_INFO (c - 1)] from rfl, List.mem_append] at hmem
  exact hmem.elim hfixed fun h => hnumber (congrArg (· % 0x10000) (List.mem_singleton.1 h))

/-- The controller that an admin Connect opens. -/
def State.controllerOpened (s : State) (port mtu k : Nat) (a : Assoc) : State :=
  ((s.setAssoc (k + 1) a).addQp port mtu (.nvme (k + 1) 0)).assocParams (k + 1)

theorem controllerOpened_spec (s : State) (port mtu k : Nat) (a : Assoc) :
    let t := s.controllerOpened port mtu k a
    t.assoc (k + 1) = some a ∧ t.rdBlob (Tgt.ASSOC_HOST k) = a.hostNqn ∧
      OnlyChanges [.tgt, .qps, .blob (Tgt.ASSOC_HOST k)] (queueIds (k + 1)) s t := by
  let u := (s.setAssoc (k + 1) a).addQp port mtu (.nvme (k + 1) 0)
  have hqp : OnlyChanges [.qps] [Eth.QP_COUNT 0, Eth.QP_COUNT 1] (s.setAssoc (k + 1) a) u := (addQp_spec ..).2
  have hv := assocParams_only u (k + 1)
  have hassoc : u.assoc (k + 1) = some a := by
    rw [State.assoc, hqp.tgt (by simp)]
    exact tfind_tins_same ..
  have hhost := assocParams_host hassoc
  rw [Nat.add_sub_cancel] at hv hhost
  refine ⟨?_, hhost, (((setAssoc_only ..).trans hqp).trans hv).mono (by simp) fun _ hi => hi⟩
  show tfind (u.assocParams (k + 1)).tgt.assocs (k + 1) = _
  rw [hv.tgt (by simp)]
  exact hassoc

section
variable {p : Fin 2} {mtu cid : Nat} {s : State} (hup : s.ethUp p = true) (hrdma : s.rdmaBad mtu = 0) (hfetches : s.fetches)
include hup hrdma hfetches

theorem exec_nvmfAdminConnect (disc : Bool) (sqsize kato : Nat) (nqn hid : List Byte) :
    exec (.nvmfAdminConnect p (s.rd (Eth.VLAN_ID p)) mtu cid disc sqsize kato nqn hid) s =
      .next (s.adminConnect p mtu cid disc sqsize kato nqn hid) := by
  obtain ⟨-, hdram, hrestart, -⟩ := hfetches
  refine congrArg Host.Outcome.next ?_
  rw [if_neg (by simp [hup]), if_neg (by simp [hrdma]), if_neg (by simp [hdram, hrestart])]

theorem exec_nvmfIoConnect (c qid sqsize : Nat) :
    exec (.nvmfIoConnect p (s.rd (Eth.VLAN_ID p)) mtu cid c qid sqsize) s = .next (s.ioConnect p mtu cid c qid sqsize) := by
  obtain ⟨-, hdram, hrestart, -⟩ := hfetches
  refine congrArg Host.Outcome.next ?_
  rw [if_neg (by simp [hup]), if_neg (by simp [hrdma]), if_neg (by simp [hdram, hrestart])]

variable {disc : Bool} {sqsize kato : Nat} {nqn hid : List Byte}

/-- A Connect that is refused and counted. -/
theorem adminConnect_refused {status : Nat} (hfail : s.adminConnect p mtu cid disc sqsize kato nqn hid = s.connectFail p cid status true) :
    ∃ t, exec (.nvmfAdminConnect p (s.rd (Eth.VLAN_ID p)) mtu cid disc sqsize kato nqn hid) s = .next t ∧ t.answered 0xFFFF 0 cid status 0 [] ∧
      t.rd Tgt.CONNECT_REJECTED = countUp (s.rd Tgt.CONNECT_REJECTED) 1 ∧ OnlyChanges [.out, .free] (Tgt.CONNECT_REJECTED :: txIds) s t :=
  ⟨_, (exec_nvmfAdminConnect hup hrdma hfetches ..).trans (congrArg Host.Outcome.next hfail), connectFail_counted hfetches.2.2.2 p cid status⟩

theorem adminConnect_tooLarge (h : 31 < sqsize) :
    s.adminConnect p mtu cid disc sqsize kato nqn hid = s.connectFail p cid Nvme.CONNECT_PARAM true := by
  rw [State.adminConnect, if_neg hfetches.1, if_pos h]

theorem adminConnect_kato (h : sqsize ≤ 31) (hkato : katoOk kato = false) :
    ∃ t, exec (.nvmfAdminConnect p (s.rd (Eth.VLAN_ID p)) mtu cid disc sqsize kato nqn hid) s = .next t ∧
      t.answered 0xFFFF 0 cid Nvme.CONNECT_PARAM 0 [] ∧ OnlyChanges [.out, .free] txIds s t := by
  have hfail : s.adminConnect p mtu cid disc sqsize kato nqn hid = s.connectFail p cid Nvme.CONNECT_PARAM false := by
    rw [State.adminConnect, if_neg hfetches.1, if_neg (by omega), if_pos (by simp [hkato])]
  exact ⟨_, (exec_nvmfAdminConnect hup hrdma hfetches ..).trans (congrArg Host.Outcome.next hfail), connectFail_uncounted hfetches.2.2.2 ..⟩

theorem adminConnect_notAdmitted (h : sqsize ≤ 31) (hkato : katoOk kato = true) (hnone : s.admitHost p kato disc nqn hid = none) :
    s.adminConnect p mtu cid disc sqsize kato nqn hid = s.connectFail p cid Nvme.CONNECT_HOST true := by
  rw [State.adminConnect, if_neg hfetches.1, if_neg (by omega), if_neg (by simp [hkato]), hnone]

theorem adminConnect_busy (h : sqsize ≤ 31) (hkato : katoOk kato = true) {a : Assoc} (hadmit : s.admitHost p kato disc nqn hid = some a)
    (hnone : ((List.range 16).find? fun k => (s.assoc (k + 1)).isNone) = none) :
    s.adminConnect p mtu cid disc sqsize kato nqn hid = s.connectFail p cid Nvme.BUSY true := by
  rw [State.adminConnect, if_neg hfetches.1, if_neg (by omega), if_neg (by simp [hkato]), hadmit, hnone]

theorem adminConnect_opens (h : sqsize ≤ 31) (hkato : katoOk kato = true) {a : Assoc} (hadmit : s.admitHost p kato disc nqn hid = some a) {k : Nat}
    (hslot : ((List.range 16).find? fun k => (s.assoc (k + 1)).isNone) = some k) :
    ∃ t, exec (.nvmfAdminConnect p (s.rd (Eth.VLAN_ID p)) mtu cid disc sqsize kato nqn hid) s = .next t ∧ t.assoc (k + 1) = some a ∧
      t.rd Tgt.CONNECTS = countUp (s.rd Tgt.CONNECTS) 1 ∧ t.rdBlob (Tgt.ASSOC_HOST k) = a.hostNqn ∧
      (∃ mark, Output.connect p mark true 0 ∈ t.out) ∧ t.completed (k + 1) 0 cid Nvme.OK (k + 1) [] ∧
      OnlyChanges (.tgt :: .qps :: .blob (Tgt.ASSOC_HOST k) :: sending)
        (Tgt.CONNECTS :: Tgt.ASSOCIATIONS :: Tgt.ASSOC_INFO k :: Eth.QP_COUNT 0 :: Eth.QP_COUNT 1 :: sendIds) s t := by
  let o := s.controllerOpened p mtu k a
  let u := o.count Tgt.CONNECTS
  let v := u.roceOut p 0 (.connect p (o.control p 1) true 0)
  let w := v.nvmeDone (k + 1) 0 cid Nvme.OK (k + 1) []
  have heq : s.adminConnect p mtu cid disc sqsize kato nqn hid = w.targetNotify 1 (k + 1) p 0 := by
    rw [State.adminConnect, if_neg hfetches.1, if_neg (by omega), if_neg (by simp [hkato]), hadmit, hslot]
    rfl
  obtain ⟨hassoc, hhost, ho⟩ : o.assoc (k + 1) = some a ∧ o.rdBlob (Tgt.ASSOC_HOST k) = a.hostNqn ∧ OnlyChanges _ _ s o :=
    controllerOpened_spec s p mtu k a
  have hu : OnlyChanges [] [Tgt.CONNECTS] o u := count_only ..
  have hufree := (ho.trans hu).roceFree (by simp) (by simp) hfetches.2.2.2
  have hv : v = u.roceNow p 0 (.connect p (o.control p 1) true 0) := roceOut_now hufree ..
  have huv : OnlyChanges [.out, .free] txIds u v := hv ▸ roceNow_only ..
  have hvout : v.out = .connect p (o.control p 1) true 0 :: u.out := by rw [hv, roceNow_out]
  obtain ⟨hvw, port, mark, hwout⟩ : OnlyChanges answering txIds v w ∧ ∃ port mark, w.out = .nvme port mark (k + 1) 0 cid Nvme.OK (k + 1) [] :: v.out :=
    nvmeDone_ok (huv.roceFree (by simp) (by simp) hufree) ..
  have hwt : OnlyChanges sending sendIds w (w.targetNotify 1 (k + 1) p 0) := notify_only ..
  have hsuffix : w.out <:+ (w.targetNotify 1 (k + 1) p 0).out := notify_suffix ..
  have hut := (huv.trans hvw).trans hwt
  refine ⟨_, (exec_nvmfAdminConnect hup hrdma hfetches ..).trans (congrArg Host.Outcome.next heq), ?_, ?_, ?_, ⟨o.control p 1, ?_⟩, ⟨port, mark, ?_⟩, ?_⟩
  · rw [State.assoc, hut.tgt (by simp [answering, sending]), hu.tgt (by simp)]
    exact hassoc
  · rw [hut.rd (by decide)]
    refine (rd_count_counter (isCounter_targetCounters _ (by simp)) o).trans ?_
    rw [ho.rd (targetCounters_not_shown (by simp) _)]
  · have hkept : (w.targetNotify 1 (k + 1) p 0).rdBlob (Tgt.ASSOC_HOST k) = o.rdBlob (Tgt.ASSOC_HOST k) :=
      (hu.trans hut).2.1 (.blob _) (by simp [answering, sending])
    exact hkept.trans hhost
  · exact hsuffix.mem (hwout ▸ hvout ▸ by simp)
  · exact hsuffix.mem (hwout ▸ by simp)
  · exact ((ho.trans hu).trans hut).mono (by simp +contextual [answering, sending, or_imp]) (by simp +contextual [queueIds, assocIds, txIds, sendIds, or_imp])

/-- An I/O queue joins its association. -/
def State.ioQueueOpened (s : State) (port mtu c qid cls : Nat) : State :=
  (({ s with tgt := { s.tgt with queues := tins s.tgt.queues (qKey c qid) cls } }).addQp port mtu (.nvme c qid)).assocParams c

omit hup hrdma hfetches in
theorem ioQueueOpened_spec (s : State) (port mtu c qid cls : Nat) :
    tfind (s.ioQueueOpened port mtu c qid cls).tgt.queues (qKey c qid) = some cls ∧
      OnlyChanges [.tgt, .qps, .blob (Tgt.ASSOC_HOST (c - 1))] (queueIds c) s (s.ioQueueOpened port mtu c qid cls) := by
  let u : State := { s with tgt := { s.tgt with queues := tins s.tgt.queues (qKey c qid) cls } }
  have hu : OnlyChanges [.tgt] [] s u := setTgt_only s _
  have hv : OnlyChanges [.qps] [Eth.QP_COUNT 0, Eth.QP_COUNT 1] u (u.addQp port mtu (.nvme c qid)) := (addQp_spec ..).2
  have hw : OnlyChanges _ _ _ (s.ioQueueOpened port mtu c qid cls) := assocParams_only (u.addQp port mtu (.nvme c qid)) c
  refine ⟨?_, ((hu.trans hv).trans hw).mono (by simp) (by simp [queueIds, or_imp])⟩
  rw [hw.tgt (by simp), hv.tgt (by simp)]
  exact tfind_tins_same ..

theorem ioConnect_opens {c qid sqsize : Nat} {a : Assoc} (hassoc : s.assoc c = some a) (hport : a.port = p.val) (hdisc : a.discovery = false)
    (hlow : 1 ≤ sqsize) (hhigh : sqsize ≤ 1023) (hqid : 1 ≤ qid) (hgrant : qid ≤ a.grant) (hnone : tfind s.tgt.queues (qKey c qid) = none)
    (hen : a.cc % 2 = 1) :
    ∃ t, exec (.nvmfIoConnect p (s.rd (Eth.VLAN_ID p)) mtu cid c qid sqsize) s = .next t ∧ t.answered c qid cid Nvme.OK c [] ∧
      tfind t.tgt.queues (qKey c qid) = some (if qid ≤ a.urgent then 0 else a.cls) ∧
      OnlyChanges (.tgt :: .blob (Tgt.ASSOC_HOST (c - 1)) :: answering)
        (Tgt.ASSOCIATIONS :: Tgt.ASSOC_INFO (c - 1) :: Eth.QP_COUNT 0 :: Eth.QP_COUNT 1 :: txIds) s t := by
  let u := s.ioQueueOpened p mtu c qid (if qid ≤ a.urgent then 0 else a.cls)
  let v := u.roceOut p 0 (.connect p (s.control p 1) true 0)
  have heq : s.ioConnect p mtu cid c qid sqsize = v.nvmeDone c qid cid Nvme.OK c [] := by
    rw [State.ioConnect, if_neg hfetches.1, hassoc]
    dsimp only
    rw [if_neg (by simp [hport, hdisc]; omega), if_neg (by simp [hnone, hen])]
    rfl
  obtain ⟨hqueue, hu⟩ : tfind u.tgt.queues (qKey c qid) = _ ∧ OnlyChanges _ _ s u := ioQueueOpened_spec ..
  have hufree := hu.roceFree (by simp) (by simp) hfetches.2.2.2
  have hv : v = u.roceNow p 0 (.connect p (s.control p 1) true 0) := roceOut_now hufree ..
  have huv : OnlyChanges [.out, .free] txIds u v := hv ▸ roceNow_only ..
  obtain ⟨hvw, port, mark, hwout⟩ := nvmeDone_ok (huv.roceFree (by simp) (by simp) hufree) c qid cid c []
  refine ⟨_, (exec_nvmfIoConnect hup hrdma hfetches ..).trans (congrArg Host.Outcome.next heq), ⟨port, mark, by rw [hwout]; rfl⟩, ?_, ?_⟩
  · rw [hvw.tgt (by simp [answering]), huv.tgt (by simp), hqueue]
  · exact ((hu.trans huv).trans hvw).mono (by simp +contextual [answering, or_imp]) (by simp +contextual [queueIds, assocIds, or_imp])

end

/-! ## Disconnect, loss and expiry (R394, R395) -/

section
variable {c cid : Nat} {a : Assoc} {s : State} (hassoc : s.assoc c = some a)
include hassoc

theorem disconnect_admin (hfetches : s.fetches) :
    ∃ t, exec (.nvmfDisconnect c 0 cid) s = .next t ∧ t.assoc c = none ∧ t.queuesOf c = [] ∧ (∀ x ∈ t.tgt.cmds, x.cntlid ≠ c) ∧
      t.completed c 0 cid Nvme.OK 0 [] := by
  obtain ⟨hglobal, hdram, hrestart, hfree⟩ := hfetches
  obtain ⟨hdone, port, mark, hout⟩ := nvmeDone_ok hfree c 0 cid 0 []
  have hstill : (s.nvmeDone c 0 cid Nvme.OK 0 []).assoc c = some a := by rw [State.assoc, hdone.tgt (by simp [answering])]; exact hassoc
  obtain ⟨-, hnone, hqueues, hcmds, hsuffix⟩ := endAssoc_spec hstill 0
  have hexec : exec (.nvmfDisconnect c 0 cid) s = .next ((s.nvmeDone c 0 cid Nvme.OK 0 []).endAssoc c 0) := by
    refine congrArg Host.Outcome.next ?_
    rw [State.targetCmd, if_neg (by simp [State.hasQueue, hassoc]), if_neg hglobal, if_neg (by simp [hdram, hrestart])]
    rfl
  exact ⟨_, hexec, hnone, hqueues, hcmds, port, mark, hsuffix.mem (hout ▸ List.mem_cons_self ..)⟩

theorem disconnect_io (hfetches : s.fetches) {qid : Nat} (hqid : qid ≠ 0) (hqueue : (tfind s.tgt.queues (qKey c qid)).isSome = true) :
    ∃ t, exec (.nvmfDisconnect c qid cid) s = .next t ∧ tfind t.tgt.queues (qKey c qid) = none ∧ t.assoc c = some a ∧
      (∀ x ∈ t.tgt.cmds, x.cntlid = c → x.qid ≠ qid) ∧ t.answered c qid cid Nvme.OK 0 [] := by
  obtain ⟨hglobal, hdram, hrestart, hfree⟩ := hfetches
  obtain ⟨hdone, port, mark, hout⟩ := nvmeDone_ok hfree c qid cid 0 []
  have hstill : (s.nvmeDone c qid cid Nvme.OK 0 []).assoc c = some a := by rw [State.assoc, hdone.tgt (by simp [answering])]; exact hassoc
  obtain ⟨hnone, hsame, hcmds⟩ := endQueue_spec (s.nvmeDone c qid cid Nvme.OK 0 []) c qid
  have hexec : exec (.nvmfDisconnect c qid cid) s = .next ((s.nvmeDone c qid cid Nvme.OK 0 []).endQueue c qid) := by
    refine congrArg Host.Outcome.next ?_
    rw [State.targetCmd, if_neg (by simp [State.hasQueue, hqid, hqueue]), if_neg hglobal, if_neg (by simp [hdram, hrestart]), State.disconnect]
    exact if_neg hqid
  refine ⟨_, hexec, hnone, hsame.trans hstill, hcmds, port, mark, ?_⟩
  rw [(endQueue_only ..).out (by simp), hout]
  rfl

theorem queuePairLoss_admin :
    ∃ t, exec (.nvmfQueuePairLoss c 0) s = .next t ∧ t.assoc c = none ∧ t.queuesOf c = [] ∧
      t.rd Tgt.CONN_LOST = countUp (s.rd Tgt.CONN_LOST) 1 := by
  have hcount : OnlyChanges [] [Tgt.CONN_LOST] s (s.count Tgt.CONN_LOST) := count_only ..
  obtain ⟨honly, hnone, hqueues, -⟩ := endAssoc_spec (s := s.count Tgt.CONN_LOST) (c := c) (a := a)
    (by rw [State.assoc, hcount.tgt (by simp)]; exact hassoc) 2
  have hexec : exec (.nvmfQueuePairLoss c 0) s = .next ((s.count Tgt.CONN_LOST).endAssoc c 2) := by
    refine congrArg Host.Outcome.next ?_
    rw [State.queueLost, hassoc]
    exact if_pos rfl
  refine ⟨_, hexec, hnone, hqueues, ?_⟩
  rw [honly.rd (by rw [List.mem_append, not_or]; exact ⟨targetCounters_not_shown (by simp) c, by decide⟩)]
  exact rd_count_counter (isCounter_targetCounters _ (by simp)) s

theorem queuePairLoss_io {qid : Nat} (hqid : qid ≠ 0) (hqueue : (tfind s.tgt.queues (qKey c qid)).isSome = true) :
    ∃ t, exec (.nvmfQueuePairLoss c qid) s = .next t ∧ tfind t.tgt.queues (qKey c qid) = none ∧ t.assoc c = some a := by
  obtain ⟨hnone, hsame, -⟩ := endQueue_spec s c qid
  have hexec : exec (.nvmfQueuePairLoss c qid) s = .next (s.endQueue c qid) := by
    refine congrArg Host.Outcome.next ?_
    rw [State.queueLost, hassoc]
    exact (if_neg hqid).trans (if_pos hqueue)
  exact ⟨_, hexec, hnone, hsame.trans hassoc⟩

theorem katoExpiry_ends :
    ∃ t, exec (.katoExpiry c) s = .next t ∧ t.assoc c = none ∧ a.aliveAt + a.kato * 1000000 ≤ t.clock ∧
      t.rd Tgt.KATO_EXPIRED = countUp (s.rd Tgt.KATO_EXPIRED) 1 := by
  let u := s.draw.2.at (a.aliveAt + a.kato * 1000000 + (Config.openWord s.draw.1).toNat % 100000001)
  have hu : OnlyChanges [.free, .clock] [] s u := (draw_only s).trans (at_only ..)
  have hcount : OnlyChanges [] [Tgt.KATO_EXPIRED] u (u.count Tgt.KATO_EXPIRED) := count_only ..
  obtain ⟨honly, hnone, -⟩ := endAssoc_spec (s := u.count Tgt.KATO_EXPIRED) (c := c) (a := a)
    (by rw [State.assoc, hcount.tgt (by simp), hu.tgt (by simp)]; exact hassoc) 1
  have hexec : exec (.katoExpiry c) s = .next ((u.count Tgt.KATO_EXPIRED).endAssoc c 1) := by
    show execKatoExpiry c s = _
    unfold execKatoExpiry
    rw [hassoc]
  refine ⟨_, hexec, hnone, ?_, ?_⟩
  · rw [honly.clock (by simp [sending]), hcount.clock (by simp)]
    exact le_trans (Nat.le_add_right ..) (le_max_right ..)
  · rw [honly.rd (by rw [List.mem_append, not_or]; exact ⟨targetCounters_not_shown (by simp) c, by decide⟩)]
    exact (rd_count_counter (isCounter_targetCounters _ (by simp)) u).trans (by rw [hu.rd (by simp)])

end

/-- Settles O40: connects open controllers and queues or are refused, and an association that has ended has no queue and no command. -/
theorem associationsOpenAndEnd : Obligations.AssociationsOpenAndEnd :=
  ⟨fun _ _ _ _ hup hrdma hfetches => ⟨fun _ _ _ _ _ => ⟨fun h => adminConnect_refused hup hrdma hfetches (adminConnect_tooLarge hup hrdma hfetches h),
      adminConnect_kato hup hrdma hfetches, fun h hkato => ⟨fun hnone =>
        adminConnect_refused hup hrdma hfetches (adminConnect_notAdmitted hup hrdma hfetches h hkato hnone), fun _ hadmit => ⟨fun hnone =>
          adminConnect_refused hup hrdma hfetches (adminConnect_busy hup hrdma hfetches h hkato hadmit hnone), fun _ hslot =>
            adminConnect_opens hup hrdma hfetches h hkato hadmit hslot⟩⟩⟩,
      fun _ _ _ _ hassoc hport hdisc hlow hhigh hqid hgrant hnone hen _ _ =>
        ioConnect_opens hup hrdma hfetches hassoc hport hdisc hlow hhigh hqid hgrant hnone hen⟩,
    fun _ _ _ _ hassoc _ _ => ⟨fun hfetches => ⟨disconnect_admin hassoc hfetches, fun _ => disconnect_io hassoc hfetches⟩, queuePairLoss_admin hassoc,
      fun _ => queuePairLoss_io hassoc, katoExpiry_ends hassoc⟩⟩

end Sys2Proof.Machine

/-! I/O commands: their checks, their fetch and their start (R374, R375, R378, R381, R390). -/

namespace Sys2Proof.Machine

/-! ## Completions -/

/-- A completion answers, and moves of the target only the log of errors. -/
theorem nvmeDoneAt_answers {s : State} (hfree : s.roceFree) (c qid cid status result : Nat) (data : List Byte) (lba nsid : Nat) :
    let t := s.nvmeDoneAt c qid cid status result data lba nsid
    t.answered c qid cid status result data ∧ (∃ assocs, t.tgt = { s.tgt with assocs := assocs }) ∧ OnlyChanges (.tgt :: answering) txIds s t := by
  obtain ⟨u, heq, hu, port, mark, hout⟩ := nvmeDoneAt_spec hfree c qid cid status result data lba nsid
  have hlog := errorLogged_only u c qid cid status lba nsid
  have htgt := errorLogged_cmds u c qid cid status lba nsid
  rw [hu.tgt (by simp [answering])] at htgt
  rw [heq]
  refine ⟨⟨port, mark, ?_⟩, ⟨_, htgt⟩, (hu.trans hlog).mono (by simp +contextual [or_imp]) (by simp)⟩
  rw [hlog.out (by simp), hout]
  rfl

/-! ## The checks (R374, R375, R378) -/

/-- A refusal for the readiness of the namespace or for the rights of the host counts. -/
def State.refusalCounted (s : State) (bad : Nat) : State :=
  if bad = Nvme.NOT_READY then s.count Tgt.NS_NOT_READY else if bad = Nvme.DENIED then s.count Tgt.ACCESS_DENIED else s

theorem refusalCounted_only (s : State) (bad : Nat) : OnlyChanges [] [Tgt.NS_NOT_READY, Tgt.ACCESS_DENIED] s (s.refusalCounted bad) := by
  unfold State.refusalCounted
  split
  · exact (count_only ..).mono (by simp) (by simp)
  · split
    · exact (count_only ..).mono (by simp) (by simp)
    · exact .nothing s

section
variable {s : State} {x : NvmeCmd} {a : Assoc} (hassoc : s.assoc x.cntlid = some a) (hfree : s.roceFree)
include hassoc hfree

theorem ioCmd_refused (hbad : s.ioBad a x ≠ Nvme.OK) :
    let t := s.ioCmd x
    t.answered x.cntlid x.qid x.cid (s.ioBad a x) 0 [] ∧ t.tgt.cmds = s.tgt.cmds ∧
      OnlyChanges (.tgt :: answering) (Tgt.NS_NOT_READY :: Tgt.ACCESS_DENIED :: txIds) s t := by
  have hcount := refusalCounted_only s (s.ioBad a x)
  have heq : s.ioCmd x = (s.refusalCounted (s.ioBad a x)).nvmeDoneAt x.cntlid x.qid x.cid (s.ioBad a x) 0 [] x.slba x.nsid := by
    rw [State.ioCmd, hassoc]
    exact if_neg hbad
  rw [heq]
  obtain ⟨hanswer, ⟨assocs, htgt⟩, honly⟩ := nvmeDoneAt_answers (hcount.roceFree (by simp) (by simp) hfree) x.cntlid x.qid x.cid (s.ioBad a x) 0 [] x.slba x.nsid
  refine ⟨hanswer, ?_, (hcount.trans honly).mono (by simp) (by simp)⟩
  rw [htgt, hcount.tgt (by simp)]

end

/-! ## Starting a command (R376, R379, R390) -/

theorem setCmd_only (s : State) (old new : NvmeCmd) : OnlyChanges [.tgt] [] s (s.setCmd old new) := setTgt_only s _

theorem setCmd_cmds {s : State} {old : NvmeCmd} (hcmds : s.tgt.cmds = [old]) (new : NvmeCmd) : (s.setCmd old new).tgt.cmds = [new] := by
  show s.tgt.cmds.map _ = _
  rw [hcmds]
  simp

theorem startCmd_starts {s : State} (hfree : s.roceFree) {c : NvmeCmd} (hcmds : s.tgt.cmds = [c]) :
    ∃ m, (s.startCmd c).tgt.cmds = [{ c with stage := 2, members := m }] ∧ OnlyChanges [.tgt, .out, .free] txIds s (s.startCmd c) := by
  unfold State.startCmd
  extract_lets c'
  have hset := setCmd_only s c c'
  split
  · have hread := issueRead_only s c'
    refine ⟨(s.issueRead c').2.members, ?_, (hread.trans (setCmd_only ..)).mono (by simp) (by simp)⟩
    exact setCmd_cmds ((congrArg TgtSt.cmds (hread.tgt (by simp))).trans hcmds) _
  · split
    · have hflush := membersFlushed_only (s.setCmd c c')
      refine ⟨c.members, ?_, (hset.trans hflush).mono (by simp) (by simp)⟩
      exact (congrArg TgtSt.cmds (hflush.tgt (by simp))).trans (setCmd_cmds hcmds c')
    · split
      · split
        next a _ =>
          rw [roceOut_now (hset.roceFree (by simp) (by simp) hfree)]
          have hsent := roceNow_only (s.setCmd c c') a.port 0
            (.packet a.port "RDMA READ" (s.control a.port 1) (leBytes 2 c.cntlid ++ leBytes 2 c.qid ++ leBytes 2 c.cid))
          refine ⟨c.members, ?_, (hset.trans hsent).mono (by simp) (by simp)⟩
          exact (congrArg TgtSt.cmds (hsent.tgt (by simp))).trans (setCmd_cmds hcmds c')
        next => exact ⟨c.members, setCmd_cmds hcmds c', hset.mono (by simp) (by simp)⟩
      · exact ⟨c.members, setCmd_cmds hcmds c', hset.mono (by simp) (by simp)⟩

/-- A command may start at once: it carries no data, or the pacer of its port passes data now. -/
def State.passesPacer (s : State) (port : Nat) (c : NvmeCmd) : Prop :=
  c.op = 0 ∨ c.op = 8 ∨ (0 < s.paceRate port ∧ tget s.tgt.paceAt port 0 ≤ s.clock)

theorem paceCharge_only (s : State) (port bytes : Nat) : OnlyChanges [.tgt] [] s (s.paceCharge port bytes) := setTgt_only s _

section
variable {s : State} {port : Nat} {c : NvmeCmd} (hcmds : s.tgt.cmds = [c]) (hstage : c.stage = 0)

include hcmds hstage in
theorem atPacer_nil : s.atPacer port = [] := by
  rw [State.atPacer, hcmds]
  simp [hstage]

include hcmds hstage in
theorem tryStart_starts (hfree : s.roceFree) (hpasses : s.passesPacer port c) :
    ∃ m, (s.tryStart port c).tgt.cmds = [{ c with stage := 2, members := m }] ∧ OnlyChanges [.tgt, .out, .free] txIds s (s.tryStart port c) := by
  unfold State.tryStart
  split
  next hdata =>
    have hnow : 0 < s.paceRate port ∧ tget s.tgt.paceAt port 0 ≤ s.clock := (hpasses.resolve_left (by omega)).resolve_left (by omega)
    rw [if_pos ⟨atPacer_nil hcmds hstage, hnow⟩]
    have hcharge := paceCharge_only s port (c.blocks * blockSize)
    obtain ⟨m, hstarted, honly⟩ := startCmd_starts (hcharge.roceFree (by simp) (by simp) hfree) (c := c) hcmds
    exact ⟨m, hstarted, (hcharge.trans honly).mono (by simp) (by simp)⟩
  next => exact startCmd_starts hfree hcmds

theorem isCounter_ioCounters : ∀ id ∈ [Tgt.READ_CMDS, Tgt.WRITE_CMDS, Tgt.FLUSH_CMDS, Tgt.PACER_WAITS, Tgt.READ_BYTES 0, Tgt.READ_BYTES 1], isCounter id = true := by
  decide

include hcmds in
theorem tryStart_waits (hop : c.op ∈ [0, 1, 2, 8]) (hpasses : ¬s.passesPacer port c) :
    (s.tryStart port c).tgt.cmds = [{ c with stage := 1 }] ∧ (s.tryStart port c).rd Tgt.PACER_WAITS = countUp (s.rd Tgt.PACER_WAITS) 1 ∧
      OnlyChanges [.tgt] [Tgt.PACER_WAITS] s (s.tryStart port c) := by
  simp only [State.passesPacer, not_or] at hpasses
  obtain ⟨hflush, hzeroes, hnow⟩ := hpasses
  have hdata : c.op = 1 ∨ c.op = 2 := by
    simp only [List.mem_cons, List.not_mem_nil, or_false] at hop
    omega
  have heq : s.tryStart port c = (s.setCmd c { c with stage := 1 }).count Tgt.PACER_WAITS :=
    (if_pos hdata).trans (if_neg fun h => hnow h.2)
  have hcount : OnlyChanges [] [Tgt.PACER_WAITS] (s.setCmd c { c with stage := 1 }) ((s.setCmd c { c with stage := 1 }).count Tgt.PACER_WAITS) :=
    count_only ..
  rw [heq]
  refine ⟨?_, rd_count_counter (isCounter_ioCounters _ (by simp)) _, (setCmd_only ..).trans hcount⟩
  exact (congrArg TgtSt.cmds (hcount.tgt (by simp))).trans (setCmd_cmds hcmds _)

end

/-! ## The fetch (R380, R390) -/

theorem releaseCmds_nil {s : State} (hcmds : s.tgt.cmds = []) : s.releaseCmds = s := by
  rw [State.releaseCmds, hcmds]
  rfl

theorem releaseCmds_single {s : State} {c : NvmeCmd} {a : Assoc} (hcmds : s.tgt.cmds = [c]) (hstage : c.stage = 0) (hassoc : s.assoc c.cntlid = some a) :
    s.releaseCmds = s.tryStart a.port c := by
  have hfirst : earlier c s.tgt.cmds = [] := by
    rw [hcmds]
    simp [earlier]
  rw [State.releaseCmds]
  conv_lhs => rw [hcmds]
  rw [List.foldl_cons, List.foldl_nil, if_pos ⟨hstage, by rw [hfirst]; rfl⟩, hassoc]

/-- The fetch of a command from a queue of the URGENT class counts. -/
def State.urgentCounted (s : State) (c : NvmeCmd) : State := if s.queueClass (qKey c.cntlid c.qid) = 0 then s.count Tgt.URGENT_CMDS else s

theorem urgentCounted_only (s : State) (c : NvmeCmd) : OnlyChanges [] [Tgt.URGENT_CMDS] s (s.urgentCounted c) := by
  unfold State.urgentCounted
  split
  · exact count_only ..
  · exact .nothing s

/-- A command joins the fetched commands. -/
def State.cmdFetched (s : State) (c : NvmeCmd) : State :=
  { s.urgentCounted c with tgt := { (s.urgentCounted c).tgt with cmds := (s.urgentCounted c).tgt.cmds ++ [c] } }

theorem cmdFetched_only (s : State) (c : NvmeCmd) : OnlyChanges [.tgt] [Tgt.URGENT_CMDS] s (s.cmdFetched c) :=
  (urgentCounted_only s c).trans (setTgt_only ..)

theorem cmdFetched_tgt (s : State) (c : NvmeCmd) : (s.cmdFetched c).tgt = { s.tgt with cmds := s.tgt.cmds ++ [c] } :=
  congrArg (fun x : TgtSt => { x with cmds := x.cmds ++ [c] }) ((urgentCounted_only s c).tgt (by simp))

/-- The number of a parameter in its group tells it apart from a counter of the target. -/
theorem paceRate_fetched (s : State) (c : NvmeCmd) (port : Nat) : (s.cmdFetched c).paceRate port = s.paceRate port := by
  have honly := cmdFetched_only s c
  have hrate : (s.cmdFetched c).rd (Tgt.TARGET_RATE port) = s.rd (Tgt.TARGET_RATE port) :=
    honly.rd (not_mem_of_number (n := 0x37) (by decide) (by simp only [Tgt.TARGET_RATE]; omega))
  have hprofile : (s.cmdFetched c).profile = s.profile :=
    profile_congr fun id hid => honly.rd ((by decide : ∀ id ∈ profileIds, id ∉ [Tgt.URGENT_CMDS]) id hid)
  have hshed : (s.cmdFetched c).shed 1 = s.shed 1 := by rw [State.shed, State.shed, hprofile, honly.rd (by decide)]
  rw [State.paceRate, State.paceRate, hrate, hshed]

section
variable {s : State} {x : NvmeCmd} {a : Assoc} (hassoc : s.assoc x.cntlid = some a) (hfree : s.roceFree) (hcmds : s.tgt.cmds = [])
  (hstage : x.stage = 0) (hok : s.ioBad a x = Nvme.OK)
include hassoc hcmds hstage hok

theorem ioCmd_fetched : s.ioCmd x = (s.cmdFetched x).tryStart a.port x := by
  have heq : s.ioCmd x = (s.cmdFetched x).releaseCmds := by
    rw [State.ioCmd, hassoc]
    exact if_pos hok
  rw [heq, releaseCmds_single (c := x) (a := a) (by rw [cmdFetched_tgt, hcmds]; rfl) hstage]
  rw [State.assoc, cmdFetched_tgt]
  exact hassoc

include hfree

theorem ioCmd_starts (hpasses : s.passesPacer a.port x) :
    ∃ m, (s.ioCmd x).tgt.cmds = [{ x with stage := 2, members := m }] ∧ OnlyChanges [.tgt, .out, .free] (Tgt.URGENT_CMDS :: txIds) s (s.ioCmd x) := by
  have hfetch := cmdFetched_only s x
  have hnow : (s.cmdFetched x).passesPacer a.port x := by
    rw [State.passesPacer, paceRate_fetched, cmdFetched_tgt, hfetch.clock (by simp)]
    exact hpasses
  obtain ⟨m, hstarted, honly⟩ := tryStart_starts (s := s.cmdFetched x) (by rw [cmdFetched_tgt, hcmds]; rfl) hstage
    (hfetch.roceFree (by simp) (by simp) hfree) hnow
  rw [ioCmd_fetched hassoc hcmds hstage hok]
  exact ⟨m, hstarted, (hfetch.trans honly).mono (by simp) (by simp)⟩

omit hfree in
theorem ioCmd_waits (hop : x.op ∈ [0, 1, 2, 8]) (hpasses : ¬s.passesPacer a.port x) :
    (s.ioCmd x).tgt.cmds = [{ x with stage := 1 }] ∧ (s.ioCmd x).rd Tgt.PACER_WAITS = countUp (s.rd Tgt.PACER_WAITS) 1 ∧
      OnlyChanges [.tgt] [Tgt.URGENT_CMDS, Tgt.PACER_WAITS] s (s.ioCmd x) := by
  have hfetch := cmdFetched_only s x
  have hnow : ¬(s.cmdFetched x).passesPacer a.port x := by
    rw [State.passesPacer, paceRate_fetched, cmdFetched_tgt, hfetch.clock (by simp)]
    exact hpasses
  obtain ⟨hwaits, hcount, honly⟩ := tryStart_waits (s := s.cmdFetched x) (by rw [cmdFetched_tgt, hcmds]; rfl) hop hnow
  rw [ioCmd_fetched hassoc hcmds hstage hok]
  refine ⟨hwaits, ?_, (hfetch.trans honly).mono (by simp) (by simp)⟩
  rw [hcount, hfetch.rd (by decide)]

end

end Sys2Proof.Machine

/-! The pacer and the completion of I/O commands, and obligation O42 (R376, R378, R379, R381). -/

namespace Sys2Proof.Machine

/-! ## The fetch of each command (R374, R378, R383) -/

theorem exec_ioCommand {c qid cid nsid slba n : Nat} {fua : Bool} {d : List Byte} {s : State} (hqid : qid ≠ 0) (hqueue : s.hasQueue c qid = true)
    (hfetches : s.fetches) :
    exec (.nvmeRead c qid cid nsid slba n fua) s = .next (s.doRead c qid cid nsid slba n fua) ∧
      exec (.nvmeWrite c qid cid nsid slba n fua d) s = .next (s.doWrite c qid cid nsid slba n fua d) ∧
      exec (.nvmeWriteZeroes c qid cid nsid slba n fua) s = .next (s.doWriteZeroes c qid cid nsid slba n fua) ∧
      exec (.nvmeFlush c qid cid nsid) s = .next (s.doFlush c qid cid nsid) := by
  obtain ⟨hglobal, hdram, -, -⟩ := hfetches
  have hcmd (i : Instr) (body : State → State) : s.targetCmd i c qid cid false body = body s := by
    rw [State.targetCmd, if_neg (by simp [hqueue]), if_neg hglobal, if_neg (by simp [hdram])]
  exact ⟨congrArg Host.Outcome.next ((if_neg hqid).trans (hcmd ..)), congrArg Host.Outcome.next ((if_neg hqid).trans (hcmd ..)),
    congrArg Host.Outcome.next ((if_neg hqid).trans (hcmd ..)), congrArg Host.Outcome.next ((if_neg hqid).trans (hcmd ..))⟩

/-- What an I/O command of an idle target comes to. -/
theorem ioCommand_outcome {i : Instr} {x : NvmeCmd} {a : Assoc} {s : State} (hexec : exec i s = .next (s.ioCmd x)) (hassoc : s.assoc x.cntlid = some a)
    (hfree : s.roceFree) (hcmds : s.tgt.cmds = []) (hstage : x.stage = 0) (hop : x.op ∈ [0, 1, 2, 8]) :
    (s.ioBad a x ≠ Nvme.OK →
      ∃ t, exec i s = .next t ∧ t.answered x.cntlid x.qid x.cid (s.ioBad a x) 0 [] ∧ t.tgt.cmds = [] ∧ t.media = s.media ∧
        OnlyChanges (.tgt :: answering) (Tgt.NS_NOT_READY :: Tgt.ACCESS_DENIED :: txIds) s t) ∧
    (s.ioBad a x = Nvme.OK →
      (s.passesPacer a.port x →
        ∃ t m, exec i s = .next t ∧ t.tgt.cmds = [{ x with stage := 2, members := m }] ∧ t.media = s.media ∧
          OnlyChanges [.tgt, .out, .free] (Tgt.URGENT_CMDS :: txIds) s t) ∧
      (¬s.passesPacer a.port x →
        ∃ t, exec i s = .next t ∧ t.tgt.cmds = [{ x with stage := 1 }] ∧
          t.rd Tgt.PACER_WAITS = countUp (s.rd Tgt.PACER_WAITS) 1 ∧ OnlyChanges [.tgt] [Tgt.URGENT_CMDS, Tgt.PACER_WAITS] s t)) := by
  refine ⟨fun hbad => ?_, fun hok => ⟨fun hpasses => ?_, fun hwaits => ⟨_, hexec, ioCmd_waits hassoc hcmds hstage hok hop hwaits⟩⟩⟩
  · obtain ⟨hanswer, hidle, honly⟩ := ioCmd_refused hassoc hfree hbad
    exact ⟨_, hexec, hanswer, hidle.trans hcmds, honly.media (by simp [answering]), honly⟩
  · obtain ⟨m, hstarted, honly⟩ := ioCmd_starts hassoc hfree hcmds hstage hok hpasses
    exact ⟨_, m, hexec, hstarted, honly.media (by simp), honly⟩

/-! ## The pacer (R380, R381) -/

/-- The queues of a class among those that wait. -/
def State.classQueues (s : State) (qs : List Nat) (cls : Nat) : List Nat := qs.filter fun (q : Nat) => s.queueClass q == cls

/-- The class with queues that the weighted round robin comes to next. -/
def State.nextClass (s : State) (qs : List Nat) (cls : Nat) : Nat :=
  (([cls % 3 + 1, (cls + 1) % 3 + 1, (cls + 2) % 3 + 1] : List Nat).find? fun (x : Nat) => s.classQueues qs x != []).getD 1

/-- The class that the arbiter serves. -/
def State.arbClass (s : State) (a : ArbSt) (qs : List Nat) : Nat × ArbSt :=
  if s.classQueues qs 0 ≠ [] then (0, a)
  else if s.classQueues qs a.cls ≠ [] ∧ 0 < a.weight then (a.cls, { a with weight := a.weight - 1 })
  else (s.nextClass qs a.cls, { a with cls := s.nextClass qs a.cls, weight := s.classWeight (s.nextClass qs a.cls) - 1 })

/-- The queue of a class that the arbiter serves. -/
def State.arbQueue (s : State) (p : Nat × ArbSt) (qs : List Nat) : Nat × ArbSt :=
  if (s.classQueues qs p.1).contains p.2.queue ∧ 0 < p.2.burst then (p.2.queue, { p.2 with burst := p.2.burst - 1 })
  else
    let q := nextQueue (s.classQueues qs p.1) (tget p.2.last p.1 0)
    (q, { p.2 with queue := q, burst := 2 ^ s.rd Tgt.ARB_BURST - 1, last := tins p.2.last p.1 q })

theorem arbitrate_eq (s : State) (a : ArbSt) (qs : List Nat) : s.arbitrate a qs = s.arbQueue (s.arbClass a qs) qs := rfl

section
variable {s : State} {k : Nat}

theorem classQueues_own : s.classQueues [k] (s.queueClass k) = [k] := by simp [State.classQueues]

theorem class_of_classQueues {cls : Nat} (h : s.classQueues [k] cls ≠ []) : cls = s.queueClass k := by
  by_contra hne
  exact h (by simp [State.classQueues, Ne.symm hne])

theorem nextClass_single (hlow : s.queueClass k ≠ 0) (hhigh : s.queueClass k ≤ 3) (cls : Nat) : s.nextClass [k] cls = s.queueClass k := by
  have hmem : s.queueClass k ∈ ([cls % 3 + 1, (cls + 1) % 3 + 1, (cls + 2) % 3 + 1] : List Nat) := by
    simp only [List.mem_cons, List.not_mem_nil, or_false]
    omega
  have hsome : (([cls % 3 + 1, (cls + 1) % 3 + 1, (cls + 2) % 3 + 1] : List Nat).find? fun (x : Nat) => s.classQueues [k] x != []).isSome = true :=
    List.find?_isSome.2 ⟨_, hmem, by rw [classQueues_own]; rfl⟩
  obtain ⟨found, hfound⟩ := Option.isSome_iff_exists.1 hsome
  rw [State.nextClass, hfound]
  have hown : (s.classQueues [k] found != []) = true := List.find?_some (p := fun x => s.classQueues [k] x != []) hfound
  exact class_of_classQueues (bne_iff_ne.1 hown)

theorem arbClass_single (hclass : s.queueClass k ≤ 3) (a : ArbSt) : (s.arbClass a [k]).1 = s.queueClass k := by
  unfold State.arbClass
  split
  next hzero => exact class_of_classQueues hzero
  next hzero =>
    split
    next hagain => exact class_of_classQueues hagain.1
    next => exact nextClass_single (fun h => hzero (by rw [← h, classQueues_own]; simp)) hclass a.cls

/-- The arbiter chooses the only queue that waits. -/
theorem arbitrate_single (hclass : s.queueClass k ≤ 3) (a : ArbSt) : (s.arbitrate a [k]).1 = k := by
  rw [arbitrate_eq, State.arbQueue, arbClass_single hclass a, classQueues_own]
  split
  next h => exact List.mem_singleton.1 (by simpa using h.1)
  next =>
    dsimp only
    by_cases h : tget (s.arbClass a [k]).2.last (s.queueClass k) 0 < k <;> simp [nextQueue, h]

end

theorem roceFree_at {s : State} (hfree : s.roceFree) (due : Nat) : (s.at due).roceFree := by
  refine fun p => ⟨?_, (hfree p).2⟩
  have hpaused := (hfree p).1
  unfold State.paused at hpaused ⊢
  rw [show (s.at due).eth p = s.eth p from rfl]
  cases hpause : (s.eth p).pause with
  | none => rfl
  | some e =>
    rw [hpause] at hpaused
    have hover : ¬s.clock < e.2 := by simpa using hpaused
    exact decide_eq_false (by show ¬max s.clock due < e.2; omega)

theorem pacerRelease_starts {x : NvmeCmd} {a : Assoc} {s : State} (hassoc : s.assoc x.cntlid = some a) (hglobal : s.pow.global ≠ .faultHold)
    (hdram : s.tick.dramChange = false) (hfree : s.roceFree) (hcmds : s.tgt.cmds = [x]) (hstage : x.stage = 1) (hrate : 0 < s.paceRate a.port)
    (hclass : s.queueClass (qKey x.cntlid x.qid) ≤ 3) {p : Fin 2} (hport : a.port = p.val) :
    ∃ t m, exec (.pacerRelease p) s = .next t ∧ t.clock = max s.clock (tget s.tgt.paceAt p 0) ∧ t.tgt.cmds = [{ x with stage := 2, members := m }] := by
  have hwaiting : s.atPacer p = [x] := by
    rw [State.atPacer, hcmds]
    simp [hstage, hassoc, hport]
  let u := s.at (tget s.tgt.paceAt p 0)
  let b := (u.arbitrate (tget u.tgt.arbs p {}) [qKey x.cntlid x.qid]).2
  let v : State := { u with tgt := { u.tgt with arbs := tset u.tgt.arbs p {} b } }
  let w := v.paceCharge p (x.blocks * blockSize)
  have hv : OnlyChanges [.tgt] [] u v := setTgt_only u _
  have hw : OnlyChanges [.tgt] [] v w := paceCharge_only ..
  have hchosen : (u.arbitrate (tget u.tgt.arbs p {}) [qKey x.cntlid x.qid]).1 = qKey x.cntlid x.qid := arbitrate_single hclass _
  have hexec : exec (.pacerRelease p) s = .next (w.startCmd x) := by
    show execPacerRelease p s = _
    unfold execPacerRelease
    dsimp only
    rw [hwaiting, if_neg (by simp [hdram, hglobal, ← hport]; omega)]
    have hpair : u.arbitrate (tget u.tgt.arbs p {}) (([x].map fun c : NvmeCmd => qKey c.cntlid c.qid).eraseDups) = (qKey x.cntlid x.qid, b) := by
      rw [show ([x].map fun c : NvmeCmd => qKey c.cntlid c.qid).eraseDups = [qKey x.cntlid x.qid] from rfl]
      exact Prod.ext hchosen rfl
    rw [show (s.at (tget s.tgt.paceAt p 0)).arbitrate (tget (s.at (tget s.tgt.paceAt p 0)).tgt.arbs p {})
      (([x].map fun c : NvmeCmd => qKey c.cntlid c.qid).eraseDups) = _ from hpair]
    dsimp only
    rw [List.find?_cons_of_pos (by simp)]
  obtain ⟨m, hstarted, honly⟩ := startCmd_starts (s := w) (c := x)
    ((hv.trans hw).roceFree (by simp) (by simp) (roceFree_at hfree _)) hcmds
  refine ⟨_, m, hexec, ?_, hstarted⟩
  rw [honly.clock (by simp)]
  rfl

/-! ## Completion (R376, R378, R379) -/

section
variable {x : NvmeCmd} {a : Assoc} {s : State} (hassoc : s.assoc x.cntlid = some a) (hglobal : s.pow.global ≠ .faultHold)
  (hdram : s.tick.dramChange = false) (hfree : s.roceFree) (hcmds : s.tgt.cmds = [x]) (hstage : x.stage = 2)

/-- A completed command leaves the fetched ones. -/
def State.cmdGone (s : State) (x : NvmeCmd) : State := { s with tgt := { s.tgt with cmds := s.tgt.cmds.filter fun (y : NvmeCmd) => y != x } }

theorem cmdGone_only (s : State) (x : NvmeCmd) : OnlyChanges [.tgt] [] s (s.cmdGone x) := setTgt_only s _

include hglobal hdram hcmds hstage in
theorem exec_nvmeCommandComplete (err : Bool) :
    exec (.nvmeCommandComplete x.cntlid x.qid x.cid err) s = .next (
      (((s.finishIo x err).2.2.cmdGone x).nvmeDoneAt x.cntlid x.qid x.cid (s.finishIo x err).1 0 (s.finishIo x err).2.1 x.slba x.nsid).releaseCmds) := by
  show execNvmeCommandComplete x.cntlid x.qid x.cid err s = _
  unfold execNvmeCommandComplete
  rw [if_neg (by simp [hdram, hglobal]), hcmds, List.find?_cons_of_pos (by simp [NvmeCmd.is, hstage])]
  rfl

include hglobal hdram hcmds hstage hfree in
/-- A completion whose effect leaves the fetched commands alone answers and leaves the target idle. -/
theorem commandComplete_answers {err : Bool} {status : Nat} {data : List Byte} {u : State} (hfinish : s.finishIo x err = (status, data, u))
    {ps : List Part} {ids : List Nat} (hu : OnlyChanges ps ids s u) (hclock : .clock ∉ ps) (heth : ∀ p, .eth p ∉ ps) (hkept : u.tgt.cmds = [x]) :
    ∃ t, exec (.nvmeCommandComplete x.cntlid x.qid x.cid err) s = .next t ∧ t.answered x.cntlid x.qid x.cid status 0 data ∧ t.tgt.cmds = [] ∧
      t.tgt.volatile = u.tgt.volatile ∧ OnlyChanges (.tgt :: answering) txIds u t := by
  have hexec := exec_nvmeCommandComplete hglobal hdram hcmds hstage err
  rw [hfinish] at hexec
  have hgone := cmdGone_only u x
  have hnone : (u.cmdGone x).tgt.cmds = [] := by
    show u.tgt.cmds.filter _ = []
    rw [hkept]
    simp
  obtain ⟨hanswer, ⟨assocs, htgt⟩, honly⟩ := nvmeDoneAt_answers (hgone.roceFree (by simp) (by simp) (hu.roceFree hclock heth hfree))
    x.cntlid x.qid x.cid status 0 data x.slba x.nsid
  have hidle : ((u.cmdGone x).nvmeDoneAt x.cntlid x.qid x.cid status 0 data x.slba x.nsid).tgt.cmds = [] := by
    rw [htgt]
    exact hnone
  dsimp only at hexec
  rw [releaseCmds_nil hidle] at hexec
  exact ⟨_, hexec, hanswer, hidle, by rw [htgt]; rfl, (hgone.trans honly).mono (by simp) (by simp)⟩

include hassoc hglobal hdram hcmds hstage hfree in
theorem commandComplete_read (hport : a.port < 2) (hop : x.op = 2) (hcopies : ∀ b ∈ (s.cmdBlocks x).map Prod.fst, s.hasCopy b = true) :
    ∃ t, exec (.nvmeCommandComplete x.cntlid x.qid x.cid false) s = .next t ∧
      t.answered x.cntlid x.qid x.cid Nvme.OK 0 (((s.cmdBlocks x).map Prod.fst).flatMap s.setRead) ∧ t.tgt.cmds = [] ∧
      t.rd Tgt.READ_CMDS = countUp (s.rd Tgt.READ_CMDS) 1 ∧
      t.rd (Tgt.READ_BYTES a.port) = bytesUp (s.rd (Tgt.READ_BYTES a.port)) (x.blocks * blockSize) ∧
      OnlyChanges (.tgt :: answering) (Tgt.READ_CMDS :: Tgt.READ_BYTES a.port :: txIds) s t := by
  let v := s.count Tgt.READ_CMDS
  let u := v.addBytes (Tgt.READ_BYTES a.port) (x.blocks * blockSize)
  have hv : OnlyChanges [] [Tgt.READ_CMDS] s v := count_only ..
  have hu : OnlyChanges [] [Tgt.READ_BYTES a.port] v u := addBytes_only ..
  have hlost : ((s.cmdBlocks x).any fun b => !s.hasCopy b.1) = false :=
    List.any_eq_false.2 fun b hb => by simpa using hcopies b.1 (List.mem_map.2 ⟨b, hb, rfl⟩)
  have hfinish : s.finishIo x false = (Nvme.OK, ((s.cmdBlocks x).map Prod.fst).flatMap s.setRead, u) := by
    unfold State.finishIo
    rw [hassoc]
    dsimp only
    rw [if_neg (by simp), if_pos hop, hlost, if_neg (by simp), List.flatMap_map]
  obtain ⟨t, hexec, hanswer, hidle, -, honly⟩ := commandComplete_answers hglobal hdram hfree hcmds hstage hfinish (hv.trans hu) (by simp) (by simp)
    (by rw [hu.tgt (by simp), hv.tgt (by simp)]; exact hcmds)
  have hids : ∀ p < 2, Tgt.READ_CMDS ∉ [Tgt.READ_BYTES p] ∧ Tgt.READ_BYTES p ∉ [Tgt.READ_CMDS] ∧ Tgt.READ_BYTES p ∉ txIds ∧ Tgt.READ_CMDS ∉ txIds ∧
    Tgt.READ_BYTES p ∈ [Tgt.READ_CMDS, Tgt.WRITE_CMDS, Tgt.FLUSH_CMDS, Tgt.PACER_WAITS, Tgt.READ_BYTES 0, Tgt.READ_BYTES 1] := by decide
  obtain ⟨hapart, hback, hbytes, hcmdsId, hcounter⟩ := hids a.port hport
  refine ⟨t, hexec, hanswer, hidle, ?_, ?_, ((hv.trans hu).trans honly).mono (by simp) (by simp)⟩
  · rw [honly.rd hcmdsId, hu.rd hapart]
    exact rd_count_counter (isCounter_ioCounters _ (by simp)) s
  · rw [honly.rd hbytes, ← hv.rd hback]
    exact rd_addBytes_counter (isCounter_ioCounters _ hcounter) _ v

include hglobal hdram hcmds hstage hfree in
theorem commandComplete_dataError (hop : x.op = 1 ∨ x.op = 2) :
    ∃ t, exec (.nvmeCommandComplete x.cntlid x.qid x.cid true) s = .next t ∧ t.answered x.cntlid x.qid x.cid Nvme.DATA_TRANSFER 0 [] ∧
      t.tgt.cmds = [] ∧ OnlyChanges (.tgt :: answering) txIds s t := by
  have hfinish : s.finishIo x true = (Nvme.DATA_TRANSFER, [], s) := by
    unfold State.finishIo
    dsimp only
    exact if_pos ⟨rfl, hop⟩
  obtain ⟨t, hexec, hanswer, hidle, -, honly⟩ := commandComplete_answers hglobal hdram hfree hcmds hstage hfinish (.refl s) (by simp) (by simp) hcmds
  exact ⟨t, hexec, hanswer, hidle, honly⟩

include hglobal hdram hcmds hstage hfree in
theorem commandComplete_flush (hop : x.op = 0) :
    ∃ t, exec (.nvmeCommandComplete x.cntlid x.qid x.cid false) s = .next t ∧ t.answered x.cntlid x.qid x.cid Nvme.OK 0 [] ∧
      t.tgt.volatile = s.tgt.volatile.filter (fun v => x.nsid != 2 || decide (x.upTo ≤ v.1)) ∧
      t.rd Tgt.FLUSH_CMDS = countUp (s.rd Tgt.FLUSH_CMDS) 1 ∧ OnlyChanges (.tgt :: answering) (Tgt.FLUSH_CMDS :: txIds) s t := by
  let v : State := { s with tgt := { s.tgt with
    volatile := s.tgt.volatile.filter fun (v : Nat × Nat × List Byte) => x.nsid != 2 || decide (x.upTo ≤ v.1) } }
  let u := v.count Tgt.FLUSH_CMDS
  have hv : OnlyChanges [.tgt] [] s v := setTgt_only s _
  have hu : OnlyChanges [] [Tgt.FLUSH_CMDS] v u := count_only ..
  have htgt : u.tgt = v.tgt := hu.tgt (by simp)
  have hfinish : s.finishIo x false = (Nvme.OK, [], u) := by
    unfold State.finishIo
    dsimp only
    rw [if_neg (by simp), if_neg (by omega)]
    exact if_pos hop
  obtain ⟨t, hexec, hanswer, -, hcovered, honly⟩ := commandComplete_answers hglobal hdram hfree hcmds hstage hfinish (hv.trans hu) (by simp) (by simp)
    ((congrArg TgtSt.cmds htgt :).trans hcmds)
  refine ⟨t, hexec, hanswer, hcovered.trans (congrArg TgtSt.volatile htgt), ?_, ((hv.trans hu).trans honly).mono (by simp) (by simp)⟩
  rw [honly.rd (by decide)]
  exact rd_count_counter (isCounter_ioCounters _ (by simp)) v

end

end Sys2Proof.Machine

/-! A Write that completes is what its block reads as afterwards (R378), and obligation O42. -/

namespace Sys2Proof.Machine

/-! ## The places of one set block (R345) -/

/-- The copies of a set block stand at one LBA. -/
theorem setCopies_lba {layout count b : Nat} {p q : Nat × Nat} (hp : p ∈ setCopies layout count b) (hq : q ∈ setCopies layout count b) : p.2 = q.2 := by
  unfold setCopies at hp hq
  dsimp only at hp hq
  split at hp <;> simp only [List.mem_cons, List.not_mem_nil, or_false] at hp hq <;> rcases hp with rfl | rfl <;> rcases hq with rfl | rfl <;> rfl

/-- The block of a root port at an LBA. -/
def State.portBlock (s : State) (port lba : Nat) : Option (List Byte) := (tfind s.media.ssds port).map fun x => x.block lba

theorem ssdWrite_portBlock {s : State} {port : Nat} (h : (tfind s.media.ssds port).isSome = true) (lba : Nat) {bytes : List Byte}
    (hlen : bytes.length = blockSize) : (s.ssdWrite port lba bytes).portBlock port lba = some bytes := by
  obtain ⟨x, hx⟩ := Option.isSome_iff_exists.1 h
  rw [State.ssdWrite, hx]
  dsimp only
  rw [State.portBlock, (addBytes_only ..).media (by simp)]
  have hwhole : (bytes ++ zeroBytes blockSize).take blockSize = bytes := by rw [← hlen, List.take_left]
  simp only [tfind_tins_same, Option.map_some, Ssd.block, tget_tset_same, hwhole]

/-- Writing the same bytes at the same LBA of any root port leaves a block that holds them. -/
theorem ssdWrite_keepsBlock {s : State} {port q lba : Nat} {bytes : List Byte} (hlen : bytes.length = blockSize) (h : s.portBlock q lba = some bytes) :
    (s.ssdWrite port lba bytes).portBlock q lba = some bytes := by
  by_cases hport : port = q
  · subst hport
    refine ssdWrite_portBlock ?_ lba hlen
    rw [State.portBlock, Option.map_eq_some_iff] at h
    obtain ⟨x, hx, -⟩ := h
    rw [hx]
    rfl
  · unfold State.ssdWrite
    split
    next => exact h
    next x _ =>
      rw [State.portBlock, (addBytes_only ..).media (by simp)]
      show (tfind (tins s.media.ssds port _) q).map _ = _
      rw [tfind_tins_other (Ne.symm hport)]
      exact h

theorem ssdWrite_isSome (s : State) (port lba : Nat) (bytes : List Byte) (q : Nat) (h : (tfind s.media.ssds q).isSome = true) :
    (tfind (s.ssdWrite port lba bytes).media.ssds q).isSome = true := by
  unfold State.ssdWrite
  split
  next => exact h
  next x _ =>
    rw [(addBytes_only ..).media (by simp)]
    show (tfind (tins s.media.ssds port _) q).isSome = _
    by_cases hq : q = port
    · rw [hq, tfind_tins_same]
      rfl
    · rw [tfind_tins_other hq]
      exact h

section
variable {sb : Superblock} {b k lba q : Nat} {bytes : List Byte} (hlen : bytes.length = blockSize)

/-- One copy of a set block is written. -/
def State.copyWrite (s : State) (bytes : List Byte) (c : Nat × Nat) : State :=
  if s.media.inService.contains c.1 then
    match s.media.portOf c.1 with
    | some p => s.ssdWrite p c.2 bytes
    | none => s
  else s

theorem setWrite_eq {s : State} (hsb : s.media.sb = some sb) (b : Nat) (bytes : List Byte) :
    s.setWrite b bytes = (setCopies sb.layout sb.count b).foldl (fun t c => t.copyWrite bytes c) s := by
  rw [State.setWrite, hsb]
  rfl

theorem copyWrite_written (s : State) (bytes : List Byte) (c : Nat × Nat) : SsdsWritten s.media.memberPorts s (s.copyWrite bytes c) := by
  unfold State.copyWrite
  split
  · split
    next p hp => exact (ssdWrite_written ..).mono fun q hq => by rw [List.mem_singleton.1 hq]; exact portOf_mem hp
    next => exact .refl _ s
  · exact .refl _ s

include hlen

theorem copyWrites_keepBlock {l : List (Nat × Nat)} (hl : ∀ c ∈ l, c.2 = lba) {s : State} (h : s.portBlock q lba = some bytes) :
    (l.foldl (fun t c => t.copyWrite bytes c) s).portBlock q lba = some bytes := by
  refine List.foldlRecOn (motive := fun t : State => t.portBlock q lba = some bytes) l _ h fun t ht c hc => ?_
  unfold State.copyWrite
  rw [hl c hc]
  split
  · split
    · exact ssdWrite_keepsBlock hlen ht
    · exact ht
  · exact ht

theorem copyWrites_reach {l : List (Nat × Nat)} (hl : ∀ c ∈ l, c.2 = lba) (hk : (k, lba) ∈ l) {s : State} (hserves : s.media.inService.contains k = true)
    (hport : s.media.portOf k = some q) (hssd : (tfind s.media.ssds q).isSome = true) :
    (l.foldl (fun t c => t.copyWrite bytes c) s).portBlock q lba = some bytes := by
  induction l generalizing s with
  | nil => simp at hk
  | cons c l ih =>
    rw [List.foldl_cons]
    have hrest : ∀ e ∈ l, e.2 = lba := fun e he => hl e (List.mem_cons_of_mem _ he)
    by_cases hc : c = (k, lba)
    · refine copyWrites_keepBlock hlen hrest ?_
      rw [hc, State.copyWrite, if_pos hserves, hport]
      exact ssdWrite_portBlock hssd lba hlen
    · have hbare := (copyWrite_written s bytes c).2
      refine ih hrest ((List.mem_cons.1 hk).resolve_left (Ne.symm hc)) ?_ ?_ ?_
      · rw [show (s.copyWrite bytes c).media.inService = s.media.inService from (congrArg RecSt.inService hbare :)]
        exact hserves
      · rw [show (s.copyWrite bytes c).media.portOf k = s.media.portOf k from (congrArg (fun r : RecSt => r.portOf k) hbare :)]
        exact hport
      · unfold State.copyWrite
        split
        · split
          · exact ssdWrite_isSome _ _ _ _ _ hssd
          · exact hssd
        · exact hssd

end

/-! ## The write of the target (R378) -/

/-- The copies of a block on the member that is being rebuilt are written. -/
def State.rebuildWrite (s : State) (b : Nat) (bytes : List Byte) : State :=
  match s.media.rebuilding, s.media.sb with
  | some (k, p), some sb => ((setCopies sb.layout sb.count b).filter fun (c : Nat × Nat) => c.1 == k).foldl (fun (t : State) c => t.ssdWrite p c.2 bytes) s
  | _, _ => s

theorem targetWrite_eq (s : State) (b : Nat) (bytes : List Byte) : s.targetWrite b bytes = (s.setWrite b bytes).rebuildWrite b bytes := rfl

theorem rebuildWrite_written (s : State) (b : Nat) (bytes : List Byte) : ∃ ports, SsdsWritten ports s (s.rebuildWrite b bytes) := by
  unfold State.rebuildWrite
  split
  next k p sb _ _ => exact ⟨[p], .foldl _ (.refl _ s) fun t c _ => ssdWrite_written ..⟩
  next => exact ⟨[], .refl _ s⟩

theorem targetWrite_written (s : State) (b : Nat) (bytes : List Byte) : ∃ ports, SsdsWritten ports s (s.targetWrite b bytes) := by
  obtain ⟨ports, hrebuild⟩ := rebuildWrite_written (s.setWrite b bytes) b bytes
  exact ⟨s.media.memberPorts ++ ports, ((setWrite_written s b bytes).mono fun _ hp => List.mem_append_left _ hp).then (hrebuild.mono fun _ hp => List.mem_append_right _ hp)⟩

section
variable {s : State} {sb : Superblock} {b k lba q : Nat} {bytes : List Byte} (hlen : bytes.length = blockSize) (hsb : s.media.sb = some sb)
  (hcopy : ((setCopies sb.layout sb.count b).find? fun e => s.media.inService.contains e.1) = some (k, lba)) (hport : s.media.portOf k = some q)
  (hssd : (tfind s.media.ssds q).isSome = true)
include hlen hsb hcopy hport hssd

theorem targetWrite_reaches : (s.targetWrite b bytes).portBlock q lba = some bytes := by
  have hmem := List.mem_of_find?_eq_some hcopy
  have hserves : s.media.inService.contains k = true := List.find?_some (p := fun e : Nat × Nat => s.media.inService.contains e.1) hcopy
  have hlba : ∀ c ∈ setCopies sb.layout sb.count b, c.2 = lba := fun c hc => setCopies_lba hc hmem
  have hset : (s.setWrite b bytes).portBlock q lba = some bytes := by
    rw [setWrite_eq hsb]
    exact copyWrites_reach hlen hlba hmem hserves hport hssd
  rw [targetWrite_eq]
  unfold State.rebuildWrite
  have hsame : (s.setWrite b bytes).media.sb = some sb := (congrArg RecSt.sb (setWrite_written s b bytes).2 :).trans hsb
  split
  next k' p' sb' _ hsb' =>
    rw [hsame] at hsb'
    obtain rfl : sb = sb' := by simpa using hsb'
    refine List.foldlRecOn (motive := fun t : State => t.portBlock q lba = some bytes) _ _ hset fun t ht c hc => ?_
    rw [hlba c (List.mem_filter.1 hc).1]
    exact ssdWrite_keepsBlock hlen ht
  next => exact hset

omit hlen hssd in
/-- A set block reads as its first copy in service, wherever only SSDs have changed since. -/
theorem setRead_of_portBlock {t : State} (hbare : t.media.bare = s.media.bare) (hblock : t.portBlock q lba = some bytes) : t.setRead b = bytes := by
  obtain ⟨x, hx, hbytes⟩ := Option.map_eq_some_iff.1 hblock
  rw [State.setRead, show t.media.sb = some sb from (congrArg RecSt.sb hbare :).trans hsb]
  dsimp only
  rw [show t.media.inService = s.media.inService from (congrArg RecSt.inService hbare :), hcopy]
  dsimp only
  rw [show t.media.portOf k = some q from (congrArg (fun r : RecSt => r.portOf k) hbare :).trans hport]
  dsimp only
  rw [hx]
  exact hbytes

omit hlen hport hssd in
theorem hasCopy_of_find : s.hasCopy b = true := by
  have hfilter : (setCopies sb.layout sb.count b).filter (fun c : Nat × Nat => s.media.inService.contains c.1) ≠ [] := by
    intro hnil
    have hin : (k, lba) ∈ (setCopies sb.layout sb.count b).filter (fun c : Nat × Nat => s.media.inService.contains c.1) :=
      List.mem_filter.2 ⟨List.mem_of_find?_eq_some hcopy, List.find?_some (p := fun e : Nat × Nat => s.media.inService.contains e.1) hcopy⟩
    rw [hnil] at hin
    simp at hin
  obtain ⟨c, l, hcons⟩ := List.exists_cons_of_ne_nil hfilter
  rw [State.hasCopy, State.readCopy, hsb]
  dsimp only
  rw [hcons, List.foldl_cons]
  refine List.foldlRecOn (motive := fun o : Option (Nat × Nat) => o.isSome = true) l _ rfl fun o ho d _ => ?_
  split
  · rfl
  · split
    · rfl
    · rfl

end

/-! ## The Write that completes -/

/-- A write that FUA does not cover is noted with what it replaced. -/
def State.blockNoted (s : State) (fua : Bool) (b : Nat) : State := if fua then s else s.noteVolatile b

theorem blockNoted_only (s : State) (fua : Bool) (b : Nat) : OnlyChanges [.tgt] [] s (s.blockNoted fua b) := by
  unfold State.blockNoted
  split
  · exact .nothing s
  · exact setTgt_only s _

theorem blockNoted_cmds (s : State) (fua : Bool) (b : Nat) : (s.blockNoted fua b).tgt.cmds = s.tgt.cmds := by
  unfold State.blockNoted
  split <;> rfl

section
variable {x : NvmeCmd} {s : State} (hglobal : s.pow.global ≠ .faultHold) (hdram : s.tick.dramChange = false) (hfree : s.roceFree)
  (hcmds : s.tgt.cmds = [x]) (hstage : x.stage = 2)

theorem cmdBlocks_single (hblocks : x.blocks = 1) (hlen : x.data.length = blockSize) : s.cmdBlocks x = [(s.nsBlock x.nsid x.slba, x.data)] := by
  rw [State.cmdBlocks, hblocks]
  show [(s.nsBlock x.nsid (x.slba + 0), (x.data.drop (blockSize * 0)).take blockSize)] = _
  rw [Nat.add_zero, Nat.mul_zero, List.drop_zero, ← hlen, List.take_length]

include hglobal hdram hcmds hstage hfree in
theorem commandComplete_write {a : Assoc} (hassoc : s.assoc x.cntlid = some a) (hop : x.op = 1) (hblocks : x.blocks = 1) (hlen : x.data.length = blockSize) {sb : Superblock} {k lba q : Nat}
    (hsb : s.media.sb = some sb)
    (hcopy : ((setCopies sb.layout sb.count (s.nsBlock x.nsid x.slba)).find? fun e => s.media.inService.contains e.1) = some (k, lba))
    (hport : s.media.portOf k = some q) (hssd : (tfind s.media.ssds q).isSome = true) (haport : a.port < 2) :
    ∃ t, exec (.nvmeCommandComplete x.cntlid x.qid x.cid false) s = .next t ∧ t.answered x.cntlid x.qid x.cid Nvme.OK 0 [] ∧
      t.setRead (s.nsBlock x.nsid x.slba) = x.data ∧ t.tgt.cmds = [] ∧ t.rd Tgt.WRITE_CMDS = countUp (s.rd Tgt.WRITE_CMDS) 1 := by
  let b := s.nsBlock x.nsid x.slba
  let u := s.blockNoted x.fua b
  let v := u.targetWrite b x.data
  let w := v.count Tgt.WRITE_CMDS
  let z := w.addBytes (Tgt.WRITE_BYTES a.port) (x.blocks * blockSize)
  have hu : OnlyChanges [.tgt] [] s u := blockNoted_only ..
  obtain ⟨ports, hv, hbare⟩ : ∃ ports, SsdsWritten ports u v := targetWrite_written ..
  have hw : OnlyChanges [] [Tgt.WRITE_CMDS] v w := count_only ..
  have hz : OnlyChanges [] [Tgt.WRITE_BYTES a.port] w z := addBytes_only ..
  have hmedia : u.media = s.media := hu.media (by simp)
  have hfinish : s.finishIo x false = (Nvme.OK, [], z) := by
    have hlost : ([(b, x.data)].any fun e : Nat × List Byte => !s.hasCopy e.1) = false := by simp [b, hasCopy_of_find hsb hcopy]
    unfold State.finishIo
    rw [hassoc, cmdBlocks_single hblocks hlen]
    dsimp only
    rw [if_neg (by simp), if_neg (by omega), if_neg (by omega), hlost, if_neg (by simp), if_pos hop]
    rfl
  obtain ⟨t, hexec, hanswer, hidle, -, honly⟩ := commandComplete_answers hglobal hdram hfree hcmds hstage hfinish
    (((hu.trans hv).trans hw).trans hz) (by simp) (by simp) (by
      rw [hz.tgt (by simp), hw.tgt (by simp), hv.tgt (by simp)]
      exact (blockNoted_cmds ..).trans hcmds)
  have hblock : v.portBlock q lba = some x.data :=
    targetWrite_reaches hlen (hmedia ▸ hsb) (hmedia ▸ hcopy) (hmedia ▸ hport) (hmedia ▸ hssd)
  have hsame : t.media = v.media := (honly.media (by simp [answering])).trans ((hz.media (by simp)).trans (hw.media (by simp)))
  have hids : ∀ p < 2, Tgt.WRITE_CMDS ∉ [Tgt.WRITE_BYTES p] := by decide
  refine ⟨t, hexec, hanswer, ?_, hidle, ?_⟩
  · refine setRead_of_portBlock hsb hcopy hport ?_ ?_
    · rw [hsame, hbare, hmedia]
    · rw [State.portBlock, hsame]
      exact hblock
  · rw [honly.rd (by decide), hz.rd (hids a.port haport)]
    refine (rd_count_counter (isCounter_ioCounters _ (by simp)) v).trans ?_
    rw [hv.rd (not_mem_of_number (bytesWritten_number ports) (by decide)), hu.rd (by simp)]

end

/-- Settles O42: the commands are checked, fetched and paced on an idle target, and a started command completes with what it read, wrote or flushed. -/
theorem ioCommandsAreCheckedAndComplete : Obligations.IoCommandsAreCheckedAndComplete := by
  refine ⟨fun c qid cid nsid slba n fua d a s hassoc hqid hqueue hfetches hcmds e he => ?_,
    fun x a s hassoc hport hglobal hdram hfree hcmds => ⟨fun hstage hrate hclass p hp =>
      pacerRelease_starts hassoc hglobal hdram hfree hcmds hstage hrate hclass hp, fun hstage => ⟨
        commandComplete_read hassoc hglobal hdram hfree hcmds hstage hport, fun hop hblocks hlen sb k lba q hsb hcopy hmember hssd =>
          commandComplete_write hglobal hdram hfree hcmds hstage hassoc hop hblocks hlen hsb hcopy hmember hssd hport,
        commandComplete_dataError hglobal hdram hfree hcmds hstage, commandComplete_flush hglobal hdram hfree hcmds hstage⟩⟩⟩
  obtain ⟨hread, hwrite, hzeroes, hflush⟩ := exec_ioCommand (cid := cid) (nsid := nsid) (slba := slba) (n := n) (fua := fua) (d := d) hqid hqueue hfetches
  simp only [List.mem_cons, List.not_mem_nil, or_false] at he
  rcases he with rfl | rfl | rfl | rfl
  · exact ioCommand_outcome hread hassoc hfetches.2.2.2 hcmds rfl (by simp)
  · exact ioCommand_outcome hwrite hassoc hfetches.2.2.2 hcmds rfl (by simp)
  · exact ioCommand_outcome hzeroes hassoc hfetches.2.2.2 hcmds rfl (by simp)
  · exact ioCommand_outcome hflush hassoc hfetches.2.2.2 hcmds rfl (by simp)

end Sys2Proof.Machine

/-! Frames of audio ports (R408 to R411, R413): what one frame reads, moves and sends. -/

namespace Sys2Proof.Machine

/-! ## Parameters of a port (Table 15-9) -/

/-- The parameters of a port that a frame reads and those that it moves. -/
def audIds (p : Nat) : List Nat :=
  [Aud.PORT_ENABLE p, Aud.DIRECTION p, Aud.CLOCK_ROLE p, Aud.FAMILY p, Aud.RATE_MULT p, Aud.TDM_FORMAT p, Aud.SAMPLE_FORMAT p, Aud.SLOT_MASK p, Aud.MUTE p,
    Aud.MUTE_TIMEOUT p, Aud.HOST_FLOW p, Aud.APPL_POSITION p, Aud.AUD_SOURCE p, Aud.PORT_STATE p, Aud.HW_POSITION p, Aud.MASK_IN_FORCE p,
    Aud.MUTE_STATE p, Aud.UNDERRUN_FRAMES p, Aud.OVERRUN_FRAMES p, Aud.XRUN_EVENTS p, Aud.FS_LOST_FRAMES p, Aud.FS_GLITCHES p, Aud.SLIPS p,
    Aud.MASK_CHANGES p, Aud.MUTE_TIMEOUTS p, Aud.BYTES_MOVED p]

/-- What a port counts. -/
def audCounters (p : Nat) : List Nat :=
  [Aud.HW_POSITION p, Aud.UNDERRUN_FRAMES p, Aud.OVERRUN_FRAMES p, Aud.XRUN_EVENTS p, Aud.FS_LOST_FRAMES p, Aud.FS_GLITCHES p, Aud.SLIPS p,
    Aud.MASK_CHANGES p, Aud.MUTE_TIMEOUTS p, Aud.BYTES_MOVED p]

theorem isCounter_audCounters : ∀ p : Fin 8, ∀ id ∈ audCounters p, isCounter id = true := by decide

theorem isWord_audWords : ∀ p : Fin 8, ∀ id ∈ [Aud.PORT_STATE p, Aud.MASK_IN_FORCE p, Aud.MUTE_STATE p], isWord id = true := by decide

theorem audIds_not_sent : ∀ p : Fin 8, ∀ id ∈ audIds p, id ∉ sendIds := by decide

theorem OnlyChanges.aud {ps : List Part} {ids : List Nat} {s t : State} {p : Nat} (h : OnlyChanges ps ids s t) (hp : .aud p ∉ ps) : t.aud p = s.aud p :=
  h.2.1 (.aud p) hp

theorem OnlyChanges.mem {ps : List Part} {ids : List Nat} {s t : State} (h : OnlyChanges ps ids s t) (hp : .mem ∉ ps) (a : Nat) :
    memRead t.nmp.mem a = memRead s.nmp.mem a :=
  h.2.1 .mem hp a

theorem OnlyChanges.audRing {ps : List Part} {ids : List Nat} {s t : State} {p : Nat} (h : OnlyChanges ps ids s t) (hblob : .blob (Aud.AUD_RING p) ∉ ps)
    (hbuffers : .buffers ∉ ps) : t.audRing p = s.audRing p := by
  have hring : t.rdBlob (Aud.AUD_RING p) = s.rdBlob (Aud.AUD_RING p) := h.2.1 (.blob _) hblob
  rw [State.audRing, State.audRing, hring, h.buffers hbuffers]

/-! ## Slots of a mask -/

theorem mem_setBits {w v k : Nat} : k ∈ setBits w v ↔ k < w ∧ bit v k = true := by
  rw [setBits, List.mem_filter, List.mem_range]

theorem setBits_nodup (w v : Nat) : (setBits w v).Nodup := List.Nodup.filter _ List.nodup_range

theorem tdmSlots_le (tdm : Nat) : tdmSlots tdm ≤ 32 := by
  have hbits : bits tdm 4 0 < 32 := Nat.mod_lt _ (by decide)
  rw [tdmSlots]
  omega

/-- The level of one slot of a frame: the sample of a slot in the mask, the idle level of every other. -/
def frameSlot (tdm w : Nat) (slots out : List Nat) (k : Nat) : Nat :=
  match slots.findIdx? fun j => j == k with
  | some i => out.getD i 0 * 2 ^ (tdmWidth tdm - w)
  | none => idleSlot tdm

/-- The slots of a frame. -/
def audFrame (tdm w : Nat) (slots out : List Nat) : List Nat := (List.range (tdmSlots tdm)).map (frameSlot tdm w slots out)

section
variable {tdm w k : Nat} {slots out : List Nat}

theorem audFrame_length : (audFrame tdm w slots out).length = tdmSlots tdm := by rw [audFrame, List.length_map, List.length_range]

theorem audFrame_slot (hk : k < tdmSlots tdm) : (audFrame tdm w slots out)[k]? = some (frameSlot tdm w slots out k) := by
  rw [audFrame, List.getElem?_map, List.getElem?_range hk]
  rfl

theorem frameSlot_outside (h : k ∉ slots) : frameSlot tdm w slots out k = idleSlot tdm := by
  have hnone : (slots.findIdx? fun j => j == k) = none := List.findIdx?_eq_none_iff.2 fun j hj => by simpa using fun he : j = k => h (he ▸ hj)
  rw [frameSlot, hnone]

theorem frameSlot_inside (hslots : slots.Nodup) {i : Nat} (h : slots[i]? = some k) :
    frameSlot tdm w slots out k = out.getD i 0 * 2 ^ (tdmWidth tdm - w) := by
  obtain ⟨hi, hk⟩ := List.getElem?_eq_some_iff.1 h
  have hfound : (slots.findIdx? fun j => j == k) = some i :=
    List.findIdx?_eq_some_iff_getElem.2 ⟨hi, by simpa using hk, fun j hj => by
      simpa using fun he : slots[j] = k => absurd (hslots.getElem_inj_iff.1 (he.trans hk.symm)) (by omega)⟩
  rw [frameSlot, hfound]

theorem frameSlot_zero (hout : ∀ v ∈ out, v = 0) (h : k ∈ slots) : frameSlot tdm w slots out k = 0 := by
  have hzero (i : Nat) : out.getD i 0 = 0 := by
    rw [List.getD_eq_getElem?_getD]
    cases hi : out[i]? with
    | none => rfl
    | some v => exact hout v (List.mem_of_getElem? hi)
  unfold frameSlot
  split
  · rw [hzero, Nat.zero_mul]
  · next hnone => exact absurd (List.findIdx?_eq_none_iff.1 hnone k h) (by simp)

end

/-! ## Notices, lost frames and mute (R410, R413) -/

theorem audPortNotify_spec (s : State) (code p value : Nat) :
    (∃ at', (s.audPortNotify code p value).aud p = { s.aud p with xrunAt := at' }) ∧
      OnlyChanges (.aud p :: sending) sendIds s (s.audPortNotify code p value) := by
  have htold : (∃ at', ((s.setAud p { s.aud p with xrunAt := some s.clock }).audNotify code p value).aud p = { s.aud p with xrunAt := at' }) ∧
      OnlyChanges (.aud p :: sending) sendIds s ((s.setAud p { s.aud p with xrunAt := some s.clock }).audNotify code p value) := by
    have hset := setAud_only s p { s.aud p with xrunAt := some s.clock }
    have hnotify : OnlyChanges sending sendIds _ ((s.setAud p { s.aud p with xrunAt := some s.clock }).audNotify code p value) := linkNotify_only ..
    exact ⟨⟨some s.clock, (hnotify.aud (by simp [sending])).trans (aud_setAud_same ..)⟩, (hset.trans hnotify).mono (by simp) (by simp)⟩
  unfold State.audPortNotify
  split
  · split
    · exact ⟨⟨_, rfl⟩, .nothing s⟩
    · exact htold
  · exact htold

/-- The counter of lost frames of a kind: 0 UNDERRUN, 1 OVERRUN. -/
def xrunId (p kind : Nat) : Nat := if kind = 0 then Aud.UNDERRUN_FRAMES p else Aud.OVERRUN_FRAMES p

/-- A lost frame is counted and flagged. -/
def State.xrunFlagged (s : State) (p kind : Nat) : State :=
  (s.count (xrunId p kind)).setAud p { s.aud p with flags := setFlag (s.aud p).flags kind, zeros := (s.aud p).zeros + 1, xrun := true }

/-- A run of lost frames begins: it counts, and fires the event source. -/
def State.xrunBegun (s : State) (p : Nat) : State := (s.count (Aud.XRUN_EVENTS p)).fire (112 + p)

theorem audXrun_eq (s : State) (p kind : Nat) :
    s.audXrun p kind = (if (s.aud p).xrun then s.xrunFlagged p kind else (s.xrunFlagged p kind).xrunBegun p).audPortNotify 0x0501 p kind := rfl

theorem xrunId_apart : ∀ p : Fin 8, ∀ kind < 2, xrunId p kind ∈ audCounters p ∧ Aud.XRUN_EVENTS p ≠ xrunId p kind ∧
    xrunId p kind ∉ sendIds ∧ Aud.XRUN_EVENTS p ∉ sendIds := by decide

theorem audXrun_spec (s : State) (p : Fin 8) {kind : Nat} (hkind : kind < 2) :
    let t := s.audXrun p kind
    (∃ at', t.aud p = { s.aud p with flags := setFlag (s.aud p).flags kind, zeros := (s.aud p).zeros + 1, xrun := true, xrunAt := at' }) ∧
      t.rd (xrunId p kind) = countUp (s.rd (xrunId p kind)) 1 ∧
      ((s.aud p).xrun = false → t.rd (Aud.XRUN_EVENTS p) = countUp (s.rd (Aud.XRUN_EVENTS p)) 1 ∧ t.firings = s.firings ++ [(112 + p.val, s.clock)]) ∧
      ((s.aud p).xrun = true → t.rd (Aud.XRUN_EVENTS p) = s.rd (Aud.XRUN_EVENTS p) ∧ t.firings = s.firings) ∧
      OnlyChanges (.aud p :: .firings :: sending) (xrunId p kind :: Aud.XRUN_EVENTS p :: sendIds) s t := by
  obtain ⟨hcounter, hapart, hsent, hevents⟩ := xrunId_apart p kind hkind
  have hcount : OnlyChanges [] [xrunId p kind] s (s.count (xrunId p kind)) := count_only ..
  have hset := setAud_only (s.count (xrunId p kind)) p { s.aud p with flags := setFlag (s.aud p).flags kind, zeros := (s.aud p).zeros + 1, xrun := true }
  have hflagged : OnlyChanges [.aud p] [xrunId p kind] s (s.xrunFlagged p kind) := (hcount.trans hset).mono (by simp) (by simp)
  have haud : (s.xrunFlagged p kind).aud p = { s.aud p with flags := setFlag (s.aud p).flags kind, zeros := (s.aud p).zeros + 1, xrun := true } :=
    aud_setAud_same ..
  have hlost : (s.xrunFlagged p kind).rd (xrunId p kind) = countUp (s.rd (xrunId p kind)) 1 :=
    (hset.rd (by simp)).trans (rd_count_counter (isCounter_audCounters p _ hcounter) s)
  rw [audXrun_eq]
  cases hrun : (s.aud p).xrun with
  | true =>
    rw [if_pos rfl]
    obtain ⟨⟨at', hat⟩, hnotify⟩ := audPortNotify_spec (s.xrunFlagged p kind) 0x0501 p kind
    refine ⟨⟨at', by rw [hat, haud]⟩, (hnotify.rd hsent).trans hlost, by simp, fun _ => ⟨?_, ?_⟩,
      (hflagged.trans hnotify).mono (by simp +contextual [or_imp]) (by simp +contextual [or_imp])⟩
    · rw [hnotify.rd hevents, hflagged.rd (by simpa using hapart)]
    · rw [hnotify.firings (by simp [sending]), hflagged.firings (by simp)]
  | false =>
    rw [if_neg (by simp)]
    have hevent : OnlyChanges [] [Aud.XRUN_EVENTS p] (s.xrunFlagged p kind) ((s.xrunFlagged p kind).count (Aud.XRUN_EVENTS p)) := count_only ..
    have hfire := fire_only ((s.xrunFlagged p kind).count (Aud.XRUN_EVENTS p)) (112 + p)
    have hbegun : OnlyChanges [.firings] [Aud.XRUN_EVENTS p] (s.xrunFlagged p kind) ((s.xrunFlagged p kind).xrunBegun p) :=
      (hevent.trans hfire).mono (by simp) (by simp)
    obtain ⟨⟨at', hat⟩, hnotify⟩ := audPortNotify_spec ((s.xrunFlagged p kind).xrunBegun p) 0x0501 p kind
    refine ⟨⟨at', by rw [hat, hbegun.aud (by simp), haud]⟩, ?_, fun _ => ⟨?_, ?_⟩, by simp,
      ((hflagged.trans hbegun).trans hnotify).mono (by simp +contextual [or_imp]) (by simp +contextual [or_imp])⟩
    · rw [hnotify.rd hsent, hbegun.rd (by simpa using hapart.symm), hlost]
    · rw [hnotify.rd hevents, ← hflagged.rd (by simpa using hapart)]
      exact (hfire.rd (by simp)).trans (rd_count_counter (isCounter_audCounters p _ (by simp [audCounters])) _)
    · rw [hnotify.firings (by simp [sending])]
      show ((s.xrunFlagged p kind).count (Aud.XRUN_EVENTS p)).firings ++ [(_, ((s.xrunFlagged p kind).count (Aud.XRUN_EVENTS p)).clock)] = _
      rw [hevent.firings (by simp), hevent.clock (by simp), hflagged.firings (by simp), hflagged.clock (by simp)]

theorem audOk_spec (s : State) (p : Nat) : (s.audOk p).aud p = { s.aud p with xrun := false } ∧ OnlyChanges [.aud p] [] s (s.audOk p) := by
  unfold State.audOk
  split
  · exact ⟨aud_setAud_same .., setAud_only ..⟩
  next h =>
    refine ⟨?_, .nothing s⟩
    have hfalse : (s.aud p).xrun = false := by simpa using h
    rw [← hfalse]

theorem audMute_spec (s : State) (p w : Nat) (slots vals : List Nat) (all : Bool) :
    (∃ prev wait, (s.audMute p w slots vals all).1.aud p = { s.aud p with prev := prev, muteAt := wait }) ∧
      OnlyChanges [.aud p] [Aud.MUTE_STATE p] s (s.audMute p w slots vals all).1 := by
  unfold State.audMute
  extract_lets want x hit state prev u
  have hset : OnlyChanges [.aud p] [] s (s.setAud p { x with prev := prev, muteAt := x.muteAt.filter fun e => bit want e.1 != bit state e.1 }) := setAud_only ..
  have hw : OnlyChanges [] [Aud.MUTE_STATE p] _ u := wr_only ..
  exact ⟨⟨prev, _, (hw.aud (by simp)).trans (aud_setAud_same ..)⟩, (hset.trans hw).mono (by simp) (by simp)⟩

/-- Mute passes zeros, and nothing else of its own. -/
theorem audMute_zero (s : State) (p w : Nat) (slots : List Nat) {vals : List Nat} (h : ∀ v ∈ vals, v = 0) (all : Bool) :
    ∀ v ∈ (s.audMute p w slots vals all).2, v = 0 := by
  intro v hv
  obtain ⟨e, he, rfl⟩ := List.mem_map.1 hv
  split
  · rfl
  · exact h _ (List.of_mem_zip he).2

/-! ## One frame of an output (R411) -/

/-- What an output plays next: its state after the frame, and the samples by slot of the mask. -/
def State.outputMoved (s : State) (p n clock w : Nat) (slots : List Nat) : State × List Nat :=
  let q := s.audSource p n clock
  let m := (if q.2.1 then s.audXrun p 0 else s.audOk p).audMute p w slots q.1 q.2.1
  (m.1.addBytes (Aud.BYTES_MOVED p) q.2.2, m.2)

/-- The receiver that an output plays moves on. -/
def State.audReceived (s : State) (p clock : Nat) : State :=
  if bit (s.rd (Aud.AUD_SOURCE p)) 0 then s.rxAdvance (bits (s.rd (Aud.AUD_SOURCE p)) 15 8) clock else s

/-- The frame of an output leaves, unless the port has lost its frame sync or owes a drop. -/
def State.outputSent (s : State) (p tdm w : Nat) (slots out : List Nat) : State :=
  if s.rd (Aud.PORT_STATE p) = 3 then s.audFsFrame p
  else if 0 < (s.aud p).drop then s.setAud p { s.aud p with drop := (s.aud p).drop - 1 }
  else s.emit (.audio p (audFrame tdm w slots out))

theorem audOutput_eq (s : State) (p n clock : Nat) :
    s.audOutput p n clock =
      let q := (s.audReceived p clock).outputMoved p n clock (sampleWidth (s.rd (Aud.SAMPLE_FORMAT p))) (s.audSlots p)
      q.1.outputSent p (s.rd (Aud.TDM_FORMAT p)) (sampleWidth (s.rd (Aud.SAMPLE_FORMAT p))) (s.audSlots p) q.2 := rfl

/-- What an output moves while it plays. -/
def outputIds (p : Nat) : List Nat := Aud.UNDERRUN_FRAMES p :: Aud.XRUN_EVENTS p :: Aud.MUTE_STATE p :: Aud.BYTES_MOVED p :: sendIds

theorem outputMoved_spec (s : State) (p : Fin 8) (n clock w : Nat) (slots : List Nat) :
    let t := (s.outputMoved p n clock w slots).1
    (t.aud p).drop = (s.aud p).drop ∧ OnlyChanges (.aud p :: .firings :: sending) (outputIds p) s t := by
  let q := s.audSource p n clock
  let u := if q.2.1 then s.audXrun p 0 else s.audOk p
  have hu : (u.aud p).drop = (s.aud p).drop ∧ OnlyChanges (.aud p :: .firings :: sending) (Aud.UNDERRUN_FRAMES p :: Aud.XRUN_EVENTS p :: sendIds) s u := by
    unfold u
    split
    · obtain ⟨⟨at', haud⟩, -, -, -, honly⟩ := audXrun_spec s p (kind := 0) (by omega)
      exact ⟨by rw [haud], honly⟩
    · obtain ⟨haud, honly⟩ := audOk_spec s p
      exact ⟨by rw [haud], honly.mono (by simp) (by simp)⟩
  obtain ⟨⟨prev, wait, haud⟩, hmute⟩ := audMute_spec u p w slots q.1 q.2.1
  have hbytes := addBytes_only (u.audMute p w slots q.1 q.2.1).1 (Aud.BYTES_MOVED p) q.2.2
  have heq : (s.outputMoved p n clock w slots).1 = (u.audMute p w slots q.1 q.2.1).1.addBytes (Aud.BYTES_MOVED p) q.2.2 := rfl
  dsimp only
  rw [heq]
  refine ⟨?_, ((hu.2.trans hmute).trans hbytes).mono (by simp +contextual [or_imp]) (by simp +contextual [outputIds, or_imp])⟩
  rw [hbytes.aud (by simp), haud]
  exact hu.1

theorem outputSent_sends {s : State} {p : Nat} (hstate : s.rd (Aud.PORT_STATE p) ≠ 3) (hdrop : (s.aud p).drop = 0) (tdm w : Nat) (slots out : List Nat) :
    s.outputSent p tdm w slots out = s.emit (.audio p (audFrame tdm w slots out)) := by
  rw [State.outputSent, if_neg hstate, if_neg (by omega)]

end Sys2Proof.Machine

/-! Period boundaries of audio ports, and the levels that an output drives (R408, R409, R411, R412). -/

namespace Sys2Proof.Machine

/-! ## Receivers move on (R320) -/

theorem rxAdvance_only (s : State) (n clock : Nat) : OnlyChanges [.stream n] [St.RX_LOST n, St.RX_PATH_RECOVERED n] s (s.rxAdvance n clock) := by
  unfold State.rxAdvance
  extract_lets k now begun ordered
  refine .foldl _ (.nothing s) fun t e _ => ?_
  extract_lets x gone
  split
  · split
    · exact (setStream_only ..).mono (by simp) (by simp)
    · exact .nothing t
  · next missed u _ =>
    have hu : OnlyChanges [.stream n] [St.RX_LOST n, St.RX_PATH_RECOVERED n] t u :=
      ((setStream_only t n _).trans (countBy_only _ _ missed)).mono (by simp) (by simp)
    split
    · exact hu.then ((count_only _ _).mono (by simp) (by simp))
    · exact hu

/-! ## The boundary of a period (R409) -/

theorem setMem_only (s : State) (m : List Host.Cell) : OnlyChanges [.mem] [] s { s with nmp := { s.nmp with mem := m } } := by
  refine ⟨rfl, fun p hp => ?_, fun _ _ => rfl⟩
  cases p with
  | mem => simp at hp
  | _ => simp [Part.same, State.rdBlob, State.lane, State.port, State.trig, State.ingest, State.ticketing, State.exposure, State.bus, State.ctxSt, State.head, State.eth, State.stream, State.sync, State.ringPort, State.aud, State.family]

theorem writeStatus_only (s : State) (p : Nat) : OnlyChanges [.mem] [] s (s.writeStatus p) := by
  unfold State.writeStatus
  extract_lets x
  split
  · split
    · exact .nothing s
    · exact setMem_only s _
  · exact .nothing s

theorem ringFreed_spec (s : State) (p : Fin 8) :
    ((s.ringFreed p).rd (Aud.PORT_STATE p) = s.rd (Aud.PORT_STATE p) ∨ (s.ringFreed p).rd (Aud.PORT_STATE p) = 2) ∧ OnlyChanges [.blob (Aud.AUD_RING p), .mem, .buffers, .sessions, .out, .free] (Aud.PORT_STATE p :: noticeIds) s (s.ringFreed p) := by
  unfold State.ringFreed
  extract_lets h
  split
  · have hstate := wr_only (s.wrBlob (Aud.AUD_RING p) (zeroBytes 32)) (Aud.PORT_STATE p) 2
    have hretired := retireFreed_only ((s.wrBlob (Aud.AUD_RING p) (zeroBytes 32)).wr (Aud.PORT_STATE p) 2)
    refine ⟨.inr ?_, (((wrBlob_only s _ _).trans hstate).trans hretired).mono (by simp) (by simp)⟩
    rw [hretired.rd ((by decide : ∀ p : Fin 8, Aud.PORT_STATE p ∉ noticeIds) p)]
    exact rd_wr_word (isWord_audWords p _ (by simp)) (by decide) _
  · exact ⟨.inl rfl, .nothing s⟩

/-- The period at a position opens: its times, no lost frames, and the correction that the port owes. -/
def State.periodOpened (s : State) (p n now : Nat) : State :=
  s.setAud p { s.aud p with
    period := some n, startTime := deviceTimeAt s.time now, startEpoch := s.epoch, zeros := 0, slip := 0,
    flags := if (s.aud p).slip ≠ 0 then 2 ^ AudFlag.SLIP else 0, insert := (s.aud p).insert + (s.aud p).slip.toNat }

/-- A correction that drops frames takes the position forward. -/
def State.framesDropped (s : State) (p n : Nat) (slip : Int) : State :=
  if slip < 0 then
    (s.setAud p { s.aud p with baseClock := s.audFrameAt p n, basePos := n + (-slip).toNat }).wr (Aud.HW_POSITION p) (n + (-slip).toNat)
  else s

theorem audBoundary_eq (s : State) (p : Nat) :
    s.audBoundary p =
      if s.rd (Aud.HW_POSITION p) % s.periodFrames p ≠ 0 ∨ (s.aud p).period = some (s.rd (Aud.HW_POSITION p)) then s
      else
        let n := s.rd (Aud.HW_POSITION p)
        let u := (s.writeStatus p).ringFreed p
        (((u.periodOpened p n (u.audFrameAt p n)).framesDropped p n (u.aud p).slip).maskApply p (u.audFrameAt p n)).fire (104 + p) := rfl

theorem audBoundary_within {s : State} {p : Nat} (h : s.rd (Aud.HW_POSITION p) % s.periodFrames p ≠ 0) : s.audBoundary p = s := by
  rw [audBoundary_eq, if_pos (.inl h)]

theorem framesDropped_spec (s : State) (p n : Nat) (slip : Int) :
    (∃ clock pos, (s.framesDropped p n slip).aud p = { s.aud p with baseClock := clock, basePos := pos }) ∧
      OnlyChanges [.aud p] [Aud.HW_POSITION p] s (s.framesDropped p n slip) := by
  unfold State.framesDropped
  split
  · have hset := setAud_only s p { s.aud p with baseClock := s.audFrameAt p n, basePos := n + (-slip).toNat }
    have hw := wr_only (s.setAud p { s.aud p with baseClock := s.audFrameAt p n, basePos := n + (-slip).toNat }) (Aud.HW_POSITION p) (n + (-slip).toNat)
    exact ⟨⟨_, _, (hw.aud (by simp)).trans (aud_setAud_same ..)⟩, (hset.trans hw).mono (by simp) (by simp)⟩
  · exact ⟨⟨_, _, rfl⟩, .nothing s⟩

/-- The mask that applies, with the mute states of the slots that it adds. -/
def State.maskTaken (s : State) (p : Nat) : State :=
  ((s.setAud p { s.aud p with maskAt := none, flags := setFlag (s.aud p).flags AudFlag.MASK_CHANGE }).wrAll
    [(Aud.MASK_IN_FORCE p, s.rd (Aud.SLOT_MASK p)),
      (Aud.MUTE_STATE p, (setBits 32 (writeOneClears (s.rd (Aud.SLOT_MASK p)) (s.rd (Aud.MASK_IN_FORCE p)))).foldl
        (fun m k => withBit m k (bit (s.rd (Aud.MUTE p)) k)) (s.rd (Aud.MUTE_STATE p)))]).count (Aud.MASK_CHANGES p)

/-- A mask waits that reached the port at least one frame before. -/
def State.maskDue (s : State) (p now : Nat) : Bool := ((s.aud p).maskAt.map fun c => decide (c + 1000000000 / s.audRate p ≤ now)).getD false

theorem maskApply_eq (s : State) (p now : Nat) : s.maskApply p now = if s.maskDue p now then s.maskTaken p else s := by
  unfold State.maskApply State.maskDue
  dsimp only
  cases (s.aud p).maskAt with
  | none => rfl
  | some c =>
    by_cases h : c + 1000000000 / s.audRate p ≤ now
    · simp only [h, Option.map_some, decide_true, Option.getD_some, if_true]
      rfl
    · simp [h]

theorem maskTaken_spec (s : State) (p : Fin 8) :
    let t := s.maskTaken p
    t.aud p = { s.aud p with maskAt := none, flags := setFlag (s.aud p).flags AudFlag.MASK_CHANGE } ∧
      t.rd (Aud.MASK_IN_FORCE p) = s.rd (Aud.SLOT_MASK p) % 2 ^ 32 ∧ t.rd (Aud.MASK_CHANGES p) = countUp (s.rd (Aud.MASK_CHANGES p)) 1 ∧
      OnlyChanges [.aud p] [Aud.MASK_IN_FORCE p, Aud.MUTE_STATE p, Aud.MASK_CHANGES p] s t := by
  intro t
  let u := s.setAud p { s.aud p with maskAt := none, flags := setFlag (s.aud p).flags AudFlag.MASK_CHANGE }
  let m := (setBits 32 (writeOneClears (s.rd (Aud.SLOT_MASK p)) (s.rd (Aud.MASK_IN_FORCE p)))).foldl
    (fun m k => withBit m k (bit (s.rd (Aud.MUTE p)) k)) (s.rd (Aud.MUTE_STATE p))
  let v := u.wr (Aud.MASK_IN_FORCE p) (s.rd (Aud.SLOT_MASK p))
  have hset : OnlyChanges [.aud p.val] [] s u := setAud_only ..
  have hmask : OnlyChanges [] [Aud.MASK_IN_FORCE p] u v := wr_only ..
  have hmute : OnlyChanges [] [Aud.MUTE_STATE p] v (v.wr (Aud.MUTE_STATE p) m) := wr_only ..
  have hcount : OnlyChanges [] [Aud.MASK_CHANGES p] (v.wr (Aud.MUTE_STATE p) m) t := count_only ..
  have hapart : Aud.MASK_IN_FORCE p ≠ Aud.MUTE_STATE p ∧ Aud.MASK_IN_FORCE p ≠ Aud.MASK_CHANGES p ∧ Aud.MASK_CHANGES p ≠ Aud.MASK_IN_FORCE p ∧
      Aud.MASK_CHANGES p ≠ Aud.MUTE_STATE p :=
    (by decide : ∀ p : Fin 8, Aud.MASK_IN_FORCE p ≠ Aud.MUTE_STATE p ∧ Aud.MASK_IN_FORCE p ≠ Aud.MASK_CHANGES p ∧
      Aud.MASK_CHANGES p ≠ Aud.MASK_IN_FORCE p ∧ Aud.MASK_CHANGES p ≠ Aud.MUTE_STATE p) p
  obtain ⟨hm1, hm2, hc1, hc2⟩ := hapart
  have hafter := (hmute.trans hcount)
  refine ⟨?_, ?_, ?_, ((hset.trans hmask).trans hafter).mono (by simp) (by simp)⟩
  · rw [hafter.aud (by simp), hmask.aud (by simp)]
    exact aud_setAud_same ..
  · rw [hafter.rd (by simp [hm1, hm2])]
    exact rd_wr_isWord (isWord_audWords p _ (by simp)) _ _
  · rw [← hset.rd (id := Aud.MASK_CHANGES p) (by simp), ← hmask.rd (by simpa using hc1), ← hmute.rd (by simpa using hc2)]
    exact rd_count_counter (isCounter_audCounters p _ (by simp [audCounters])) _

/-- What a boundary changes of the parameters. -/
def boundaryIds (p : Nat) : List Nat := [Aud.HW_POSITION p, Aud.MASK_IN_FORCE p, Aud.MUTE_STATE p, Aud.MASK_CHANGES p, Aud.PORT_STATE p] ++ noticeIds

theorem audBoundary_spec (s : State) (p : Fin 8) :
    ((s.audBoundary p).aud p).drop = (s.aud p).drop ∧
      ((s.audBoundary p).rd (Aud.PORT_STATE p) = s.rd (Aud.PORT_STATE p) ∨ (s.audBoundary p).rd (Aud.PORT_STATE p) = 2) ∧
      OnlyChanges [.blob (Aud.AUD_RING p), .mem, .buffers, .sessions, .out, .free, .aud p, .firings] (boundaryIds p) s (s.audBoundary p) := by
  rw [audBoundary_eq]
  split
  · exact ⟨rfl, .inl rfl, .nothing s⟩
  extract_lets n u
  obtain ⟨hstate, hfreed⟩ := ringFreed_spec (s.writeStatus p) p
  have hstatus := writeStatus_only s p
  have hu := hstatus.trans hfreed
  have hopen : OnlyChanges [.aud p.val] [] u (u.periodOpened p n (u.audFrameAt p n)) := setAud_only ..
  obtain ⟨⟨clock, pos, hdropped⟩, hdrop⟩ := framesDropped_spec (u.periodOpened p n (u.audFrameAt p n)) p n (u.aud p).slip
  let v := (u.periodOpened p n (u.audFrameAt p n)).framesDropped p n (u.aud p).slip
  have hv : (v.aud p).drop = (s.aud p).drop := by
    rw [hdropped, State.periodOpened, aud_setAud_same, ← hu.aud (by simp)]
  have hmask : ((v.maskApply p (u.audFrameAt p n)).aud p).drop = (s.aud p).drop ∧
      OnlyChanges [.aud p.val] [Aud.MASK_IN_FORCE p, Aud.MUTE_STATE p, Aud.MASK_CHANGES p] v (v.maskApply p (u.audFrameAt p n)) := by
    rw [maskApply_eq]
    split
    · obtain ⟨haud, -, -, honly⟩ := maskTaken_spec v p
      exact ⟨by rw [haud, ← hv], honly⟩
    · exact ⟨hv, .nothing v⟩
  have hfire := fire_only (v.maskApply p (u.audFrameAt p n)) (104 + p)
  have hafter := ((hopen.trans hdrop).trans hmask.2).trans hfire
  refine ⟨(congrArg AudSt.drop (hfire.aud (by simp))).trans hmask.1, ?_, ?_⟩
  · have hapart : ∀ p : Fin 8, Aud.PORT_STATE p ∉ [Aud.HW_POSITION p, Aud.MASK_IN_FORCE p, Aud.MUTE_STATE p, Aud.MASK_CHANGES p] := by decide
    rw [hafter.rd (hapart p), ← hstatus.rd (by simp)]
    exact hstate
  exact (hu.trans hafter).mono (by simp) (by simp +contextual [boundaryIds, or_imp])

/-! ## A sample frame (R408, R411) -/

/-- A port reaches the time of its frame, and the boundary where one stands there. -/
def State.audBegun (s : State) (p : Nat) : State := (s.at (s.audFrameAt p (s.rd (Aud.HW_POSITION p)))).audBoundary p

/-- The position advances by one frame. -/
def State.audEnded (s : State) (p n : Nat) : State := (s.setAud p { s.aud p with insert := (s.aud p).insert - 1 }).wr (Aud.HW_POSITION p) (n + 1)

theorem audBegun_within {s : State} {p : Nat} (h : s.rd (Aud.HW_POSITION p) % s.periodFrames p ≠ 0) :
    s.audBegun p = s.at (s.audFrameAt p (s.rd (Aud.HW_POSITION p))) := audBoundary_within h

theorem audEnded_only (s : State) (p n : Nat) : OnlyChanges [.aud p] [Aud.HW_POSITION p] s (s.audEnded p n) :=
  ((setAud_only ..).trans (wr_only ..)).mono (by simp) (by simp)

theorem rd_audEnded (s : State) (p : Fin 8) (n : Nat) : (s.audEnded p n).rd (Aud.HW_POSITION p) = (n + 1) % 2 ^ 64 :=
  rd_wr_counter (isCounter_audCounters p _ (by simp [audCounters])) _ _

/-- One frame of a port that has reached it. -/
def State.audFrameDone (s : State) (p : Nat) (slots : List Nat) : State :=
  let n := s.rd (Aud.HW_POSITION p)
  let clock := s.audFrameAt p n
  (if s.rd (Aud.DIRECTION p) = 0 then s.audInput p n clock slots else s.audOutput p n clock).audEnded p n

theorem audioSampleFrame_runs {s : State} {port : Fin 8} (hruns : s.audRunning port = true) (slots : List Nat) :
    exec (.audioSampleFrame port slots) s = .next ((s.audBegun port).audFrameDone port slots) :=
  congrArg Host.Outcome.next (if_pos hruns)

theorem audFrameDone_input {s : State} {p : Nat} (hin : s.rd (Aud.DIRECTION p) = 0) (slots : List Nat) :
    s.audFrameDone p slots =
      (s.audInput p (s.rd (Aud.HW_POSITION p)) (s.audFrameAt p (s.rd (Aud.HW_POSITION p))) slots).audEnded p (s.rd (Aud.HW_POSITION p)) :=
  congrArg (fun z : State => z.audEnded p (s.rd (Aud.HW_POSITION p))) (if_pos hin)

theorem audFrameDone_output {s : State} {p : Nat} (hout : s.rd (Aud.DIRECTION p) = 1) (slots : List Nat) :
    s.audFrameDone p slots =
      (s.audOutput p (s.rd (Aud.HW_POSITION p)) (s.audFrameAt p (s.rd (Aud.HW_POSITION p)))).audEnded p (s.rd (Aud.HW_POSITION p)) :=
  congrArg (fun z : State => z.audEnded p (s.rd (Aud.HW_POSITION p))) (if_neg (by omega))

/-- Parameters of a port that a boundary leaves. -/
theorem heldParameters : ∀ p : Fin 8, ∀ id ∈ [Aud.DIRECTION p, Aud.TDM_FORMAT p], id ∉ boundaryIds p := by decide

theorem audBegun_spec (s : State) (p : Fin 8) :
    let t := s.audBegun p
    (t.aud p).drop = (s.aud p).drop ∧ (s.rd (Aud.PORT_STATE p) ≠ 3 → t.rd (Aud.PORT_STATE p) ≠ 3) ∧ ∀ id, id ∉ boundaryIds p → t.rd id = s.rd id := by
  have hat := at_only s (s.audFrameAt p (s.rd (Aud.HW_POSITION p)))
  obtain ⟨hdrop, hstate, honly⟩ := audBoundary_spec (s.at (s.audFrameAt p (s.rd (Aud.HW_POSITION p)))) p
  refine ⟨hdrop.trans (congrArg AudSt.drop (hat.aud (by simp))), fun h => ?_, fun id hid => (honly.rd hid).trans (hat.rd (by simp))⟩
  rw [hat.rd (by simp)] at hstate
  unfold State.audBegun
  omega

/-! ## The frame of an output -/

/-- What moves while an output plays at a position: itself and the receiver that it plays. -/
theorem audReceived_only (s : State) (p : Fin 8) (clock : Nat) :
    ∃ n < 256, OnlyChanges [.stream n] [St.RX_LOST n, St.RX_PATH_RECOVERED n] s (s.audReceived p clock) := by
  refine ⟨bits (s.rd (Aud.AUD_SOURCE p)) 15 8, Nat.mod_lt _ (by decide), ?_⟩
  unfold State.audReceived
  split
  · exact rxAdvance_only ..
  · exact .nothing s

/-- Receivers count outside the parameters of the ports. -/
theorem audIds_not_receiver (p : Fin 8) : ∀ id ∈ audIds p, ∀ n < 256, id ∉ [St.RX_LOST n, St.RX_PATH_RECOVERED n] := by
  have hbase : ∀ p : Fin 8, ∀ id ∈ audIds p, 0x60000000 ≤ id := by decide
  intro id hid n hn hmem
  have hlt : id < 0x60000000 := by
    rcases List.mem_cons.1 hmem with rfl | hmem
    · unfold St.RX_LOST; omega
    · obtain rfl := List.mem_singleton.1 hmem
      unfold St.RX_PATH_RECOVERED; omega
  have := hbase p id hid
  omega

/-- A port that plays sends its frame. -/
theorem audOutput_sends (s : State) (p : Fin 8) (n clock : Nat) (hstate : s.rd (Aud.PORT_STATE p) ≠ 3) (hdrop : (s.aud p).drop = 0) :
    let w := sampleWidth (s.rd (Aud.SAMPLE_FORMAT p))
    let q := (s.audReceived p clock).outputMoved p n clock w (s.audSlots p)
    s.audOutput p n clock = q.1.emit (.audio p (audFrame (s.rd (Aud.TDM_FORMAT p)) w (s.audSlots p) q.2)) := by
  obtain ⟨m, hm, hreceived⟩ := audReceived_only s p clock
  obtain ⟨hq, honly⟩ := outputMoved_spec (s.audReceived p clock) p n clock (sampleWidth (s.rd (Aud.SAMPLE_FORMAT p))) (s.audSlots p)
  rw [audOutput_eq]
  refine outputSent_sends ?_ ?_ ..
  · rw [honly.rd ((by decide : ∀ p : Fin 8, Aud.PORT_STATE p ∉ outputIds p) p), hreceived.rd (audIds_not_receiver p _ (by simp [audIds]) m hm)]
    exact hstate
  · rw [hq, hreceived.aud (by simp)]
    exact hdrop

/-- An underrun: nothing to send at the position, with the host's flow control or while the DRAM changes its speed. -/
def State.audUnderrun (s : State) (p n : Nat) : Prop :=
  s.tick.dramChange = true ∨
    (s.pow.global ≠ .faultHold ∧ (s.aud p).insert = 0 ∧ bit (s.rd (Aud.AUD_SOURCE p)) 0 = false ∧ (s.audRing p).isSome = true ∧
      s.rd (Aud.HOST_FLOW p) = 1 ∧ s.rd (Aud.APPL_POSITION p) ≤ n)

theorem audSource_underrun {s : State} {p n : Nat} (h : s.audUnderrun p n) (clock : Nat) :
    s.audSource p n clock = ((s.audSlots p).map fun _ => 0, true, 0) := by
  unfold State.audSource
  dsimp only
  by_cases hchange : s.tick.dramChange = true
  · rw [if_pos hchange]
  obtain ⟨hhold, hinsert, hring, hsome, hflow⟩ := h.resolve_left hchange
  obtain ⟨⟨r, serial⟩, hfound⟩ := Option.isSome_iff_exists.1 hsome
  rw [if_neg hchange, if_neg (by simp [hhold, hinsert]), if_neg (by simp [hring]), hfound]
  exact if_pos hflow

/-- An underrun plays zeros, and counts. -/
theorem outputMoved_underrun {s : State} {p : Fin 8} {n : Nat} (h : s.audUnderrun p n) (clock w : Nat) :
    let q := s.outputMoved p n clock w (s.audSlots p)
    (∀ v ∈ q.2, v = 0) ∧ q.1.rd (Aud.UNDERRUN_FRAMES p) = countUp (s.rd (Aud.UNDERRUN_FRAMES p)) 1 := by
  have hq : s.outputMoved p n clock w (s.audSlots p) =
      (((s.audXrun p 0).audMute p w (s.audSlots p) ((s.audSlots p).map fun _ => 0) true).1.addBytes (Aud.BYTES_MOVED p) 0,
        ((s.audXrun p 0).audMute p w (s.audSlots p) ((s.audSlots p).map fun _ => 0) true).2) := by
    unfold State.outputMoved
    rw [audSource_underrun h]
    rfl
  rw [hq]
  refine ⟨audMute_zero _ _ _ _ (by simp) _, ?_⟩
  obtain ⟨-, hlost, -⟩ := audXrun_spec s p (kind := 0) (by omega)
  have hmute := (audMute_spec (s.audXrun p 0) p w (s.audSlots p) ((s.audSlots p).map fun _ => 0) true).2
  have hafter := hmute.trans (addBytes_only _ (Aud.BYTES_MOVED p) 0)
  rw [hafter.rd ((by decide : ∀ p : Fin 8, Aud.UNDERRUN_FRAMES p ∉ [Aud.MUTE_STATE p] ++ [Aud.BYTES_MOVED p]) p)]
  exact hlost

/-- Settles O44: the slots of a frame are read off its mask, and an underrun plays zeros. -/
theorem underrunsAndIdleSlotsDriveTheirLevels : Obligations.UnderrunsAndIdleSlotsDriveTheirLevels := by
  unfold Obligations.UnderrunsAndIdleSlotsDriveTheirLevels
  intro port slots s p n tdm hruns hdirection hstate hdrop
  obtain ⟨hdrop', hstate', hkept⟩ := audBegun_spec s port
  let u := s.audBegun port
  let m := u.rd (Aud.HW_POSITION p)
  let clock := u.audFrameAt p m
  let w := sampleWidth (u.rd (Aud.SAMPLE_FORMAT p))
  let q := (u.audReceived p clock).outputMoved p m clock w (u.audSlots p)
  have hout : u.rd (Aud.DIRECTION p) = 1 := (hkept _ (heldParameters port _ (by simp [p]))).trans hdirection
  have htdm : u.rd (Aud.TDM_FORMAT p) = tdm := hkept _ (heldParameters port _ (by simp [p]))
  let f := audFrame tdm w (u.audSlots p) q.2
  have hsent : u.audOutput p m clock = q.1.emit (.audio p f) := by
    rw [audOutput_sends u port m clock (hstate' hstate) (hdrop'.trans hdrop), htdm]
  let t := (q.1.emit (.audio p f)).audEnded p m
  have hexec : exec (.audioSampleFrame port slots) s = .next t := by
    rw [audioSampleFrame_runs hruns, audFrameDone_output hout]
    exact congrArg (fun z : State => Host.Outcome.next (z.audEnded p m)) hsent
  obtain ⟨r, hr, hreceived⟩ := audReceived_only u port clock
  have hmoved := (outputMoved_spec (u.audReceived p clock) port m clock w (u.audSlots p)).2
  have hemit := emitQuiet_only q.1 (o := .audio p f) rfl
  have hended := audEnded_only (q.1.emit (.audio p f)) p m
  have hlast {id : Nat} (hid : id ≠ Aud.HW_POSITION p) : t.rd id = q.1.rd id := (hended.rd (by simpa using hid)).trans (hemit.rd (by simp))
  have hmask : t.rd (Aud.MASK_IN_FORCE p) = u.rd (Aud.MASK_IN_FORCE p) := by
    rw [hlast ((by decide : ∀ p : Fin 8, Aud.MASK_IN_FORCE p ≠ Aud.HW_POSITION p) port),
      hmoved.rd ((by decide : ∀ p : Fin 8, Aud.MASK_IN_FORCE p ∉ outputIds p) port), hreceived.rd (audIds_not_receiver port _ (by simp [audIds, p]) r hr)]
  refine ⟨t, f, hexec, ?_, audFrame_length, fun k hk hidle => ?_, fun hwithin hhold hinsert hsource hring hflow happl => ?_⟩
  · rw [hended.out (by simp), emit_out]
    rfl
  · rw [audFrame_slot hk, frameSlot_outside]
    rw [State.audSlots, mem_setBits, ← hmask, hidle]
    simp
  have hu : u = s.at (s.audFrameAt p n) := audBegun_within hwithin
  have hat : OnlyChanges [.clock] [] s u := hu ▸ at_only s _
  have hrd (id : Nat) : u.rd id = s.rd id := hat.rd (by simp)
  have hm : m = n := hrd _
  have hunder : u.audUnderrun p m := by
    refine .inr ⟨?_, ?_, (congrArg (bit · 0) (hrd _)).trans hsource, ?_, (hrd _).trans hflow, ?_⟩
    · rwa [hat.pow (by simp)]
    · rwa [hat.aud (by simp)]
    · rwa [hat.audRing (by simp) (by simp)]
    · rw [hrd, hm]
      exact happl
  have hsame : u.audReceived p clock = u := if_neg (by rw [hrd, hsource]; simp)
  have hq : q = u.outputMoved p m clock w (u.audSlots p) := congrArg (fun z : State => z.outputMoved p m clock w (u.audSlots p)) hsame
  obtain ⟨hzero, hlost⟩ := outputMoved_underrun (p := port) hunder clock w
  refine ⟨?_, fun k hk hin => ?_⟩
  · rw [hlast ((by decide : ∀ p : Fin 8, Aud.UNDERRUN_FRAMES p ≠ Aud.HW_POSITION p) port), hq, ← hrd]
    exact hlost
  · have hmem : k ∈ u.audSlots p := mem_setBits.2 ⟨by have := tdmSlots_le tdm; omega, hmask ▸ hin⟩
    rw [audFrame_slot hk, frameSlot_zero (by rw [hq]; exact hzero) hmem]

end Sys2Proof.Machine

/-! Sample frames between the ring of a port and its slots (R407, R408, R410, R411). -/

namespace Sys2Proof.Machine

/-- A parameter that reads as before has not changed. -/
theorem OnlyChanges.dropId {ps : List Part} {id : Nat} {ids : List Nat} {s t : State} (h : OnlyChanges ps (id :: ids) s t) (hid : t.rd id = s.rd id) :
    OnlyChanges ps ids s t := by
  refine ⟨h.1, h.2.1, fun i hi => ?_⟩
  by_cases e : i = id
  · exact e ▸ hid
  · exact h.2.2 i (by simp [e, hi])

/-! ## A port that mutes nothing -/

/-- Nothing is muted, and no mute waits. -/
def State.audOpen (s : State) (p : Nat) : Prop := s.rd (Aud.MUTE p) = 0 ∧ s.rd (Aud.MUTE_STATE p) = 0

theorem OnlyChanges.audOpen {ps : List Part} {ids : List Nat} {s t : State} {p : Nat} (h : OnlyChanges ps ids s t) (hmute : Aud.MUTE p ∉ ids)
    (hstate : Aud.MUTE_STATE p ∉ ids) (hopen : s.audOpen p) : t.audOpen p :=
  ⟨(h.rd hmute).trans hopen.1, (h.rd hstate).trans hopen.2⟩

theorem audMute_open {s : State} {p : Fin 8} (h : s.audOpen p) (w : Nat) {slots vals : List Nat} (hlen : vals.length = slots.length) (all : Bool) :
    (s.audMute p w slots vals all).2 = vals ∧
      (∃ prev wait, (s.audMute p w slots vals all).1.aud p = { s.aud p with prev := prev, muteAt := wait }) ∧
      OnlyChanges [.aud p] [] s (s.audMute p w slots vals all).1 := by
  obtain ⟨hmute, hstate⟩ := h
  have hnone : ((slots.zip vals).filter fun (e : Nat × Nat) =>
      bit (s.rd (Aud.MUTE p)) e.1 != bit (s.rd (Aud.MUTE_STATE p)) e.1 && (all || crossing w (tfind (s.aud p).prev e.1) e.2)) = [] := by
    simp [hmute, hstate]
  obtain ⟨haud, honly⟩ := audMute_spec s p w slots vals all
  refine ⟨?_, haud, honly.dropId ?_⟩
  · unfold State.audMute
    dsimp only
    rw [hnone, List.foldl_nil, hstate]
    have hzero (k : Nat) : bit 0 k = false := by simp [bit]
    simp only [hzero, Bool.false_eq_true, if_false]
    exact List.map_snd_zip (by omega)
  · unfold State.audMute
    dsimp only
    rw [hnone, List.foldl_nil, hstate]
    exact rd_wr_word (isWord_audWords p _ (by simp)) (by decide) _

/-! ## Inputs (R407, R410) -/

/-- The audio senders. -/
def audSenders : List Part := (List.range 16).map fun i => Part.stream (0x20 + i)

theorem feedSenders_only (s : State) (p w clock : Nat) (vals : List Nat) : OnlyChanges audSenders [] s (s.feedSenders p w clock vals) := by
  unfold State.feedSenders
  refine .foldl _ (.nothing s) fun t i hi => ?_
  have hset (x : StreamSt) : OnlyChanges audSenders [] t (t.setStream (0x20 + i) x) :=
    (setStream_only t _ x).mono (fun q hq => by
      obtain rfl := List.mem_singleton.1 hq
      exact List.mem_map.2 ⟨i, hi, rfl⟩) (by simp)
  extract_lets n b x first all
  split
  · split <;> exact hset _
  · exact .nothing t

theorem mem_audSenders {q : Part} (h : q ∈ audSenders) : ∃ n, q = .stream n := by
  obtain ⟨i, -, rfl⟩ := List.mem_map.1 h
  exact ⟨_, rfl⟩

/-- The samples that an input takes from its slots. -/
def State.audSampled (s : State) (p : Nat) (raw : List Nat) : List Nat :=
  (s.audSlots p).map fun k =>
    raw.getD k 0 / 2 ^ (tdmWidth (s.rd (Aud.TDM_FORMAT p)) - sampleWidth (s.rd (Aud.SAMPLE_FORMAT p))) % 2 ^ sampleWidth (s.rd (Aud.SAMPLE_FORMAT p))

/-- A sampled frame has passed mute and reached the senders. -/
def State.audHeard (s : State) (p clock : Nat) (raw : List Nat) : State :=
  let w := sampleWidth (s.rd (Aud.SAMPLE_FORMAT p))
  (s.audMute p w (s.audSlots p) (s.audSampled p raw) false).1.feedSenders p w clock (s.audSampled p raw)

theorem audHeard_only {s : State} {p : Fin 8} (h : s.audOpen p) (clock : Nat) (raw : List Nat) :
    (∃ prev wait, (s.audHeard p clock raw).aud p = { s.aud p with prev := prev, muteAt := wait }) ∧
      OnlyChanges (.aud p :: audSenders) [] s (s.audHeard p clock raw) := by
  obtain ⟨-, ⟨prev, wait, haud⟩, hmute⟩ :=
    audMute_open h (sampleWidth (s.rd (Aud.SAMPLE_FORMAT p))) (vals := s.audSampled p raw) (List.length_map _) false
  have hfeed := feedSenders_only (s.audMute p (sampleWidth (s.rd (Aud.SAMPLE_FORMAT p))) (s.audSlots p) (s.audSampled p raw) false).1 p
    (sampleWidth (s.rd (Aud.SAMPLE_FORMAT p))) clock (s.audSampled p raw)
  refine ⟨⟨prev, wait, (hfeed.aud fun hmem => ?_).trans haud⟩, (hmute.trans hfeed).mono (by simp) (by simp)⟩
  obtain ⟨n, hn⟩ := mem_audSenders hmem
  cases hn

theorem audInput_open {s : State} {p : Fin 8} (hopen : s.audOpen p) (hstate : s.rd (Aud.PORT_STATE p) ≠ 3) (hinsert : (s.aud p).insert = 0)
    (hhold : s.pow.global ≠ .faultHold) (hchange : s.tick.dramChange = false) (n clock : Nat) (raw : List Nat) :
    s.audInput p n clock raw = (s.audHeard p clock raw).audStore p n (sampleWidth (s.rd (Aud.SAMPLE_FORMAT p))) (packing (s.rd (Aud.SAMPLE_FORMAT p)))
      (s.audSampled p raw) := by
  have hlost : (s.rd (Aud.PORT_STATE p) == 3) = false := by simpa using hstate
  have hmute := audMute_open hopen (sampleWidth (s.rd (Aud.SAMPLE_FORMAT p))) (vals := s.audSampled p raw) (List.length_map _) false
  have hheld : (s.audMute p (sampleWidth (s.rd (Aud.SAMPLE_FORMAT p))) (s.audSlots p) (s.audSampled p raw) false).1.pow.global ≠ .faultHold := by
    rwa [hmute.2.2.pow (by simp)]
  have hchanged : (s.audMute p (sampleWidth (s.rd (Aud.SAMPLE_FORMAT p))) (s.audSlots p) (s.audSampled p raw) false).1.tick.dramChange ≠ true := by
    rw [hmute.2.2.tick (by simp), hchange]; simp
  unfold State.audInput
  simp only [hlost, hinsert, Nat.lt_irrefl, decide_false, Bool.or_false, Bool.false_eq_true, if_false]
  change (let q := s.audMute p (sampleWidth (s.rd (Aud.SAMPLE_FORMAT p))) (s.audSlots p) (s.audSampled p raw) false
    if q.1.pow.global = .faultHold then q.1 else if q.1.tick.dramChange = true then q.1.audXrun p 1
    else (q.1.feedSenders p _ clock q.2).audStore p n _ _ q.2) = _
  dsimp only
  rw [if_neg hheld, if_neg hchanged, hmute.1]
  rfl

/-- A frame that finds its place is stored. -/
def State.audStored (s : State) (p a : Nat) (b : List Byte) : State :=
  (({ s with nmp := { s.nmp with mem := memWriteN s.nmp.mem a b } } : State).audOk p).addBytes (Aud.BYTES_MOVED p) b.length

theorem audStore_eq {s : State} {p : Nat} {r : AudRing} {serial : Nat} (hring : s.audRing p = some (r, serial)) (n w pk : Nat) (out : List Nat) :
    s.audStore p n w pk out =
      if s.rd (Aud.HOST_FLOW p) = 1 ∧ s.rd (Aud.APPL_POSITION p) + r.count * r.frames ≤ n then s.audXrun p 1
      else s.audStored p (bufAddr serial (r.at pk (s.rd (Aud.MASK_IN_FORCE p)) n)) (out.flatMap (packSample pk w)) := by
  unfold State.audStore
  rw [hring]
  rfl

theorem audStored_spec (s : State) (p : Fin 8) (a : Nat) (b : List Byte) :
    let t := s.audStored p a b
    (∀ x, memRead t.nmp.mem x = memRead (memWriteN s.nmp.mem a b) x) ∧ t.rd (Aud.BYTES_MOVED p) = bytesUp (s.rd (Aud.BYTES_MOVED p)) b.length ∧
      OnlyChanges [.mem, .aud p] [Aud.BYTES_MOVED p] s t := by
  intro t
  have hset := setMem_only s (memWriteN s.nmp.mem a b)
  obtain ⟨-, hok⟩ := audOk_spec { s with nmp := { s.nmp with mem := memWriteN s.nmp.mem a b } } p
  have hbytes := addBytes_only (({ s with nmp := { s.nmp with mem := memWriteN s.nmp.mem a b } } : State).audOk p) (Aud.BYTES_MOVED p) b.length
  refine ⟨?_, ?_, ((hset.trans hok).trans hbytes).mono (by simp) (by simp)⟩
  · exact fun x => (hok.trans hbytes).mem (by simp) x
  · rw [← hset.rd (id := Aud.BYTES_MOVED p) (by simp), ← hok.rd (by simp)]
    exact rd_addBytes_counter (isCounter_audCounters p _ (by simp [audCounters])) _ _

/-- A sampled frame of a port that owes no correction meets its ring. -/
theorem audioSampleFrame_sampled {s : State} {port : Fin 8} {r : AudRing} {serial : Nat} (hruns : s.audRunning port = true)
    (hhold : s.pow.global ≠ .faultHold) (hchange : s.tick.dramChange = false) (hwithin : s.rd (Aud.HW_POSITION port) % s.periodFrames port ≠ 0)
    (hin : s.rd (Aud.DIRECTION port) = 0) (hstate : s.rd (Aud.PORT_STATE port) ≠ 3) (hinsert : (s.aud port).insert = 0) (hopen : s.audOpen port)
    (hring : s.audRing port = some (r, serial)) (slots : List Nat) :
    let n := s.rd (Aud.HW_POSITION port)
    let pk := packing (s.rd (Aud.SAMPLE_FORMAT port))
    ∃ v : State, v.clock = max s.clock (s.audFrameAt port n) ∧
      (∃ prev wait, v.aud port = { s.aud port with prev := prev, muteAt := wait }) ∧
      OnlyChanges (.clock :: .aud port :: audSenders) [] s v ∧
      exec (.audioSampleFrame port slots) s = .next ((if s.rd (Aud.HOST_FLOW port) = 1 ∧ s.rd (Aud.APPL_POSITION port) + r.count * r.frames ≤ n then
        v.audXrun port 1
      else v.audStored port (bufAddr serial (r.at pk (s.rd (Aud.MASK_IN_FORCE port)) n))
        ((s.audSampled port slots).flatMap (packSample pk (sampleWidth (s.rd (Aud.SAMPLE_FORMAT port)))))).audEnded port n) := by
  intro n pk
  let u := s.at (s.audFrameAt port n)
  have hat : OnlyChanges [.clock] [] s u := at_only ..
  have hu : s.audBegun port = u := audBegun_within hwithin
  have hrd (id : Nat) : u.rd id = s.rd id := hat.rd (by simp)
  have hopened : u.audOpen port := hat.audOpen (by simp) (by simp) hopen
  have hstood : u.rd (Aud.PORT_STATE port) ≠ 3 := by rwa [hrd]
  have howed : (u.aud port).insert = 0 := by rwa [hat.aud (by simp)]
  have hheld : u.pow.global ≠ .faultHold := by rwa [hat.pow (by simp)]
  have hchanged : u.tick.dramChange = false := by rwa [hat.tick (by simp)]
  obtain ⟨⟨prev, wait, haud⟩, hheard⟩ := audHeard_only hopened (u.audFrameAt port n) slots
  have hv := hat.trans hheard
  have hnotSender (q : Part) (hq : ∀ n, q ≠ .stream n) : q ∉ audSenders := fun hmem => (mem_audSenders hmem).elim hq
  refine ⟨u.audHeard port (u.audFrameAt port n) slots, ?_, ⟨prev, wait, ?_⟩, hv.mono (by simp) (by simp), ?_⟩
  · exact hheard.clock (by simp [hnotSender])
  · rw [haud, hat.aud (by simp)]
  have hin' : u.rd (Aud.DIRECTION port) = 0 := (hrd _).trans hin
  have hinput := audInput_open hopened hstood howed hheld hchanged (u.rd (Aud.HW_POSITION port)) (u.audFrameAt port (u.rd (Aud.HW_POSITION port))) slots
  have hring' : (u.audHeard port (u.audFrameAt port n) slots).audRing port = some (r, serial) := by
    rw [hv.audRing (by simp [hnotSender]) (by simp [hnotSender])]
    exact hring
  have hrd' (id : Nat) : (u.audHeard port (u.audFrameAt port n) slots).rd id = s.rd id := hv.rd (by simp)
  have hsampled : u.audSampled port slots = s.audSampled port slots := by
    unfold State.audSampled State.audSlots
    simp only [hrd]
  rw [audioSampleFrame_runs hruns, hu, audFrameDone_input hin', hinput, hrd (Aud.HW_POSITION port), hrd (Aud.SAMPLE_FORMAT port),
    audStore_eq hring', hrd', hrd', hrd', hsampled]

end Sys2Proof.Machine

/-! Frames of inputs and outputs, from exec to the ring (R407, R408, R410, R411). -/

namespace Sys2Proof.Machine

/-! ## Inputs -/

/-- The bytes of a sampled frame, the slots of the mask in ascending order. -/
theorem sampledBytes (s : State) (p : Nat) (raw : List Nat) (pk : Nat) :
    (s.audSampled p raw).flatMap (packSample pk (sampleWidth (s.rd (Aud.SAMPLE_FORMAT p)))) =
      (setBits 32 (s.rd (Aud.MASK_IN_FORCE p))).flatMap fun k => packSample pk (sampleWidth (s.rd (Aud.SAMPLE_FORMAT p)))
        (raw.getD k 0 / 2 ^ (tdmWidth (s.rd (Aud.TDM_FORMAT p)) - sampleWidth (s.rd (Aud.SAMPLE_FORMAT p))) % 2 ^ sampleWidth (s.rd (Aud.SAMPLE_FORMAT p))) :=
  List.flatMap_map ..

/-- A frame that is stored. -/
theorem storedFrame_spec (v : State) (p : Fin 8) (n a : Nat) (b : List Byte) :
    let t := (v.audStored p a b).audEnded p n
    memReadN t.nmp.mem a b.length = b ∧ (∀ x, x < a ∨ a + b.length ≤ x → memRead t.nmp.mem x = memRead v.nmp.mem x) ∧
      t.rd (Aud.HW_POSITION p) = (n + 1) % 2 ^ 64 ∧ t.rd (Aud.BYTES_MOVED p) = bytesUp (v.rd (Aud.BYTES_MOVED p)) b.length ∧
      OnlyChanges [.mem, .aud p] [Aud.HW_POSITION p, Aud.BYTES_MOVED p] v t := by
  intro t
  obtain ⟨hmem, hbytes, hstored⟩ := audStored_spec v p a b
  have hended := audEnded_only (v.audStored p a b) p n
  have hread (x : Nat) : memRead t.nmp.mem x = memRead (memWriteN v.nmp.mem a b) x := (hended.mem (by simp) x).trans (hmem x)
  refine ⟨?_, fun x hx => (hread x).trans (memRead_memWriteN_other hx), rd_audEnded .., ?_, (hstored.trans hended).mono (by simp) (by simp)⟩
  · rw [memReadN_congr hread, memReadN_memWriteN]
  · rw [hended.rd (by simpa using (by decide : ∀ p : Fin 8, Aud.BYTES_MOVED p ≠ Aud.HW_POSITION p) p)]
    exact hbytes

/-- Ids of a lost frame, none of them the position. -/
theorem xrun_apart : ∀ p : Fin 8, ∀ kind < 2, xrunId p kind ≠ Aud.HW_POSITION p ∧ Aud.XRUN_EVENTS p ≠ Aud.HW_POSITION p := by decide

/-- A frame that is lost. -/
theorem lostFrame_spec (v : State) (p : Fin 8) (n : Nat) {kind : Nat} (hkind : kind < 2) :
    let t := (v.audXrun p kind).audEnded p n
    t.rd (Aud.HW_POSITION p) = (n + 1) % 2 ^ 64 ∧ t.rd (xrunId p kind) = countUp (v.rd (xrunId p kind)) 1 ∧ bit (t.aud p).flags kind = true ∧
      ((v.aud p).xrun = false → t.rd (Aud.XRUN_EVENTS p) = countUp (v.rd (Aud.XRUN_EVENTS p)) 1 ∧ t.firings = v.firings ++ [(112 + p.val, v.clock)]) ∧
      ((v.aud p).xrun = true → t.rd (Aud.XRUN_EVENTS p) = v.rd (Aud.XRUN_EVENTS p) ∧ t.firings = v.firings) ∧
      OnlyChanges (.aud p :: .firings :: sending) (Aud.HW_POSITION p :: xrunId p kind :: Aud.XRUN_EVENTS p :: sendIds) v t := by
  intro t
  obtain ⟨⟨at', haud⟩, hcount, hbegins, hgoes, honly⟩ := audXrun_spec v p hkind
  obtain ⟨hapart, hevents⟩ := xrun_apart p kind hkind
  have hended := audEnded_only (v.audXrun p kind) p n
  have hev : t.rd (Aud.XRUN_EVENTS p) = (v.audXrun p kind).rd (Aud.XRUN_EVENTS p) := hended.rd (by simpa using hevents)
  have hfired : t.firings = (v.audXrun p kind).firings := hended.firings (by simp)
  have hflags : (t.aud p).flags = ((v.audXrun p kind).aud p).flags := by
    have hset : t.aud p = { (v.audXrun p kind).aud p with insert := ((v.audXrun p kind).aud p).insert - 1 } :=
      ((wr_only _ (Aud.HW_POSITION p) (n + 1)).aud (by simp)).trans (aud_setAud_same ..)
    rw [hset]
  refine ⟨rd_audEnded .., (hended.rd (by simpa using hapart)).trans hcount, ?_, fun h => ?_, fun h => ?_,
    (honly.trans hended).mono (by simp +contextual [or_imp]) (by simp +contextual [or_imp])⟩
  · rw [hflags, haud]
    simp
  · rw [hev, hfired]
    exact hbegins h
  · rw [hev, hfired]
    exact hgoes h

/-! ## Outputs -/

/-- The samples of a frame in the ring. -/
def State.audPlayed (s : State) (p pk w a : Nat) : List Nat :=
  (s.audSlots p).zipIdx.map fun (e : Nat × Nat) => unpackSample pk w (memReadN s.nmp.mem (a + packBytes pk * e.2) (packBytes pk))

theorem audPlayed_at {s : State} {p pk w a i k : Nat} (h : (s.audSlots p)[i]? = some k) :
    (s.audPlayed p pk w a).getD i 0 = unpackSample pk w (memReadN s.nmp.mem (a + packBytes pk * i) (packBytes pk)) := by
  have hzip : (s.audSlots p).zipIdx[i]? = some (k, i) := by simp [List.getElem?_zipIdx, h]
  rw [State.audPlayed, List.getD_eq_getElem?_getD, List.getElem?_map, hzip]
  rfl

theorem audSource_ring {s : State} {p n : Nat} {r : AudRing} {serial : Nat} (hchange : s.tick.dramChange = false) (hhold : s.pow.global ≠ .faultHold)
    (hinsert : (s.aud p).insert = 0) (hsource : bit (s.rd (Aud.AUD_SOURCE p)) 0 = false) (hring : s.audRing p = some (r, serial))
    (hflow : s.rd (Aud.HOST_FLOW p) ≠ 1 ∨ n < s.rd (Aud.APPL_POSITION p)) (clock : Nat) :
    let pk := packing (s.rd (Aud.SAMPLE_FORMAT p))
    s.audSource p n clock = (s.audPlayed p pk (sampleWidth (s.rd (Aud.SAMPLE_FORMAT p))) (bufAddr serial (r.at pk (s.rd (Aud.MASK_IN_FORCE p)) n)), false,
      packBytes pk * (s.audSlots p).length) := by
  intro pk
  unfold State.audSource
  dsimp only
  rw [if_neg (by simp [hchange]), if_neg (by simp [hhold, hinsert]), if_neg (by simp [hsource]), hring]
  exact if_neg (by omega)

/-- What an unmuted output plays. -/
theorem outputMoved_open {s : State} {p : Fin 8} (hopen : s.audOpen p) {n clock w moved : Nat} {vals : List Nat} {under : Bool}
    (hsource : s.audSource p n clock = (vals, under, moved)) (hlen : vals.length = (s.audSlots p).length) :
    let u := if under then s.audXrun p 0 else s.audOk p
    let q := s.outputMoved p n clock w (s.audSlots p)
    q.2 = vals ∧ (∃ prev wait, q.1.aud p = { u.aud p with prev := prev, muteAt := wait }) ∧
      q.1.rd (Aud.BYTES_MOVED p) = bytesUp (s.rd (Aud.BYTES_MOVED p)) moved ∧ OnlyChanges [.aud p] [Aud.BYTES_MOVED p] u q.1 := by
  intro u q
  have hu : u.audOpen p ∧ u.rd (Aud.BYTES_MOVED p) = s.rd (Aud.BYTES_MOVED p) := by
    unfold u
    split
    · obtain ⟨-, -, -, -, honly⟩ := audXrun_spec s p (kind := 0) (by omega)
      have hapart : ∀ p : Fin 8, ∀ id ∈ [Aud.MUTE p, Aud.MUTE_STATE p, Aud.BYTES_MOVED p], id ∉ xrunId p 0 :: Aud.XRUN_EVENTS p :: sendIds := by decide
      exact ⟨honly.audOpen (hapart p _ (by simp)) (hapart p _ (by simp)) hopen, honly.rd (hapart p _ (by simp))⟩
    · have honly := (audOk_spec s p).2
      exact ⟨honly.audOpen (by simp) (by simp) hopen, honly.rd (by simp)⟩
  have hq : q = ((u.audMute p w (s.audSlots p) vals under).1.addBytes (Aud.BYTES_MOVED p) moved, (u.audMute p w (s.audSlots p) vals under).2) := by
    unfold q State.outputMoved
    rw [hsource]
  obtain ⟨hvals, ⟨prev, wait, haud⟩, honly⟩ := audMute_open hu.1 w hlen under
  have hbytes := addBytes_only (u.audMute p w (s.audSlots p) vals under).1 (Aud.BYTES_MOVED p) moved
  rw [hq]
  refine ⟨hvals, ⟨prev, wait, (hbytes.aud (by simp)).trans haud⟩, ?_, (honly.trans hbytes).mono (by simp) (by simp)⟩
  rw [← hu.2, ← honly.rd (id := Aud.BYTES_MOVED p) (by simp)]
  exact rd_addBytes_counter (isCounter_audCounters p _ (by simp [audCounters])) _ _

/-- A frame of a port that owes no correction and plays its ring leaves. -/
theorem audioSampleFrame_played {s : State} {port : Fin 8} (hruns : s.audRunning port = true) (hwithin : s.rd (Aud.HW_POSITION port) % s.periodFrames port ≠ 0)
    (hout : s.rd (Aud.DIRECTION port) = 1) (hstate : s.rd (Aud.PORT_STATE port) ≠ 3) (hdrop : (s.aud port).drop = 0)
    (hsource : bit (s.rd (Aud.AUD_SOURCE port)) 0 = false) (slots : List Nat) :
    let n := s.rd (Aud.HW_POSITION port)
    let w := sampleWidth (s.rd (Aud.SAMPLE_FORMAT port))
    ∃ u clock, OnlyChanges [.clock] [] s u ∧
      exec (.audioSampleFrame port slots) s = .next (((u.outputMoved port n clock w (u.audSlots port)).1.emit
        (.audio port (audFrame (s.rd (Aud.TDM_FORMAT port)) w (u.audSlots port) (u.outputMoved port n clock w (u.audSlots port)).2))).audEnded port n) := by
  intro n w
  let u := s.at (s.audFrameAt port n)
  have hat : OnlyChanges [.clock] [] s u := at_only ..
  have hu : s.audBegun port = u := audBegun_within hwithin
  have hrd (id : Nat) : u.rd id = s.rd id := hat.rd (by simp)
  have hout' : u.rd (Aud.DIRECTION port) = 1 := (hrd _).trans hout
  have hsame (clock : Nat) : u.audReceived port clock = u := if_neg (by rw [hrd, hsource]; simp)
  have hstood : u.rd (Aud.PORT_STATE port) ≠ 3 := by rwa [hrd]
  have howed : (u.aud port).drop = 0 := by rwa [hat.aud (by simp)]
  have hsent := audOutput_sends u port n (u.audFrameAt port n) hstood howed
  dsimp only at hsent
  rw [hsame, hrd, hrd] at hsent
  refine ⟨u, u.audFrameAt port n, hat, ?_⟩
  rw [audioSampleFrame_runs hruns, hu, audFrameDone_output hout', hrd (Aud.HW_POSITION port)]
  exact congrArg (fun z : State => Host.Outcome.next (z.audEnded port n)) hsent

/-- The frame that leaves is the last output, and the rest of the port stays. -/
theorem sentFrame_only (q : State) (p n : Nat) (f : List Nat) :
    let t := (q.emit (.audio p f)).audEnded p n
    t.out = .audio p f :: q.out ∧ (t.aud p).flags = (q.aud p).flags ∧ OnlyChanges [.out, .aud p] [Aud.HW_POSITION p] q t := by
  intro t
  have hemit := emitQuiet_only q (o := .audio p f) rfl
  have hended := audEnded_only (q.emit (.audio p f)) p n
  have hset : t.aud p = { (q.emit (.audio p f)).aud p with insert := ((q.emit (.audio p f)).aud p).insert - 1 } :=
    ((wr_only _ (Aud.HW_POSITION p) (n + 1)).aud (by simp)).trans (aud_setAud_same ..)
  refine ⟨(hended.out (by simp)).trans (emit_out ..), ?_, (hemit.trans hended).mono (by simp) (by simp)⟩
  rw [hset, hemit.aud (by simp)]

theorem audPlayed_length (s : State) (p pk w a : Nat) : (s.audPlayed p pk w a).length = (s.audSlots p).length := by
  rw [State.audPlayed, List.length_map, List.length_zipIdx]

/-- Settles O45: a stored frame is read back from its place, a played one from the slots of its mask; a lost one counts and changes nothing else. -/
theorem sampleFramesPassTheRing : Obligations.SampleFramesPassTheRing := by
  unfold Obligations.SampleFramesPassTheRing
  refine ⟨?_, ?_⟩
  · intro port slots r serial s p n fmt w senders hruns hhold hchange hwithin hin hstate hinsert hmute hmuted hring
    obtain ⟨v, hclock, ⟨prev, wait, haud⟩, hv, hexec⟩ :=
      audioSampleFrame_sampled hruns hhold hchange hwithin hin hstate hinsert ⟨hmute, hmuted⟩ hring slots
    have hrd (id : Nat) : v.rd id = s.rd id := hv.rd (by simp)
    have hnotSender (q : Part) (hq : ∀ n, q ≠ .stream n) : q ∉ audSenders := fun hmem => (mem_audSenders hmem).elim hq
    refine ⟨fun hroom => ?_, fun hflow hfull => ?_⟩
    · rw [if_neg fun h => hroom.elim (fun g => g h.1) fun g => Nat.not_le.2 g h.2, sampledBytes] at hexec
      intro a b
      obtain ⟨hread, hother, hpos, hbytes, honly⟩ := storedFrame_spec v port n a b
      refine ⟨_, hexec, hread, fun x hx => (hother x hx).trans (hv.mem (by simp [hnotSender]) x), hpos, ?_, (honly.clock (by simp)).trans hclock, ?_⟩
      · rw [hbytes, hrd]
      · exact (hv.trans honly).mono (by simp +contextual [or_imp, p, senders, audSenders]) (by simp [p])
    · rw [if_pos ⟨hflow, hfull⟩] at hexec
      obtain ⟨hpos, hlost, hflag, hbegins, hgoes, honly⟩ := lostFrame_spec v port n (kind := 1) (by omega)
      have hxrun : (v.aud port).xrun = (s.aud port).xrun := by rw [haud]
      rw [hxrun, hrd, hv.firings (by simp [hnotSender])] at hbegins hgoes
      refine ⟨_, hexec, hpos, hlost.trans (congrArg (countUp · 1) (hrd _)), hflag, fun h => ?_, hgoes, ?_⟩
      · rw [honly.clock (by simp [sending])]
        exact hbegins h
      · exact (hv.trans honly).mono (by simp +contextual [or_imp, p, senders, audSenders]) fun _ h => h
  · intro port slots r serial s p n pk w tdm mask hruns hhold hwithin hout hstate hinsert hdrop hmute hmuted hsource hring
    obtain ⟨u, clock, hat, hexec⟩ := audioSampleFrame_played hruns hwithin hout hstate hdrop hsource slots
    have hrd (id : Nat) : u.rd id = s.rd id := hat.rd (by simp)
    have hopen : u.audOpen p := hat.audOpen (by simp) (by simp) ⟨hmute, hmuted⟩
    have hslots : u.audSlots p = mask := congrArg (setBits 32) (hrd _)
    have hring' : u.audRing p = some (r, serial) := (hat.audRing (by simp) (by simp)).trans hring
    have hhold' : u.pow.global ≠ .faultHold := by rwa [hat.pow (by simp)]
    have hinsert' : (u.aud p).insert = 0 := by rwa [hat.aud (by simp)]
    have hsource' : bit (u.rd (Aud.AUD_SOURCE p)) 0 = false := by rwa [hrd]
    let q := u.outputMoved p n clock w (u.audSlots p)
    let f := audFrame tdm w (u.audSlots p) q.2
    obtain ⟨hleft, hflags, hsent⟩ := sentFrame_only q.1 p n f
    have hidle {k : Nat} (hk : k < tdmSlots tdm) (hmem : k ∉ mask) : f[k]? = some (idleSlot tdm) := by
      rw [audFrame_slot hk, frameSlot_outside (hslots ▸ hmem)]
    refine ⟨fun hchange hflow => ?_, fun hunder => ?_⟩
    · intro a
      have hplays := audSource_ring (hat.tick (by simp) ▸ hchange) hhold' hinsert' hsource' hring' (n := n) (by rwa [hrd, hrd]) clock
      dsimp only at hplays
      rw [hrd, hrd, hslots] at hplays
      obtain ⟨hvals, -, hbytes, hmoved⟩ := outputMoved_open (p := port) hopen (w := w) hplays (audPlayed_length ..)
      have hok := (audOk_spec u p).2
      refine ⟨_, f, hexec, hleft.trans (congrArg (_ :: ·) ?_), audFrame_length, fun i k hi hk => ?_, fun k hk hmem => hidle hk hmem, rd_audEnded .., ?_, ?_⟩
      · exact (hmoved.out (by simp)).trans ((hok.out (by simp)).trans (hat.out (by simp)))
      · rw [audFrame_slot hk, frameSlot_inside (hslots ▸ setBits_nodup ..) (hslots ▸ hi)]
        exact congrArg (fun z => some (z * 2 ^ (tdmWidth tdm - w))) ((congrArg (·.getD i 0) hvals).trans ((audPlayed_at (hslots ▸ hi)).trans
          (congrArg (unpackSample pk w) (memReadN_congr (hat.mem (by simp)) ..))))
      · rw [hsent.rd ((by decide : ∀ p : Fin 8, Aud.BYTES_MOVED p ∉ [Aud.HW_POSITION p]) port), ← hrd]
        exact hbytes
      · exact ((hat.trans hok).trans (hmoved.trans hsent)).mono (by simp [p]) (by simp [p])
    · have hunder' : u.audUnderrun p n := by
        rcases hunder with hchange | hflow
        · exact .inl (by rwa [hat.tick (by simp)])
        · refine .inr ⟨hhold', hinsert', hsource', by simp [hring'], ?_⟩
          rwa [hrd, hrd]
      have hplays := audSource_underrun hunder' clock
      obtain ⟨hvals, ⟨prev, wait, haud⟩, hbytes, hmoved⟩ := outputMoved_open (p := port) hopen (w := w) hplays (List.length_map _)
      obtain ⟨⟨at', hlostAud⟩, hlost, -, -, hxrun⟩ := audXrun_spec u port (kind := 0) (by omega)
      have hbytesSame : q.1.rd (Aud.BYTES_MOVED p) = (u.audXrun p 0).rd (Aud.BYTES_MOVED p) := by
        rw [hxrun.rd ((by decide : ∀ p : Fin 8, Aud.BYTES_MOVED p ∉ xrunId p 0 :: Aud.XRUN_EVENTS p :: sendIds) port)]
        exact hbytes.trans (Nat.mod_eq_of_lt (rd_lt_word ..))
      have hplayed : OnlyChanges [.aud p] [] (u.audXrun p 0) q.1 := OnlyChanges.dropId hmoved hbytesSame
      have hframe := (hat.trans hxrun).trans (hplayed.trans hsent)
      refine ⟨_, f, hexec, by rw [hleft]; rfl, audFrame_length, fun k hk => ?_, rd_audEnded .., ?_, ?_, ?_⟩
      · by_cases hmem : k ∈ mask
        · rw [if_pos hmem, audFrame_slot hk, frameSlot_zero (fun v hv => ?_) (hslots ▸ hmem)]
          obtain ⟨-, -, hzero⟩ := List.mem_map.1 (hvals ▸ hv)
          exact hzero.symm
        · rw [if_neg hmem, hidle hk hmem]
      · rw [hsent.rd ((by decide : ∀ p : Fin 8, Aud.UNDERRUN_FRAMES p ∉ [Aud.HW_POSITION p]) port), hplayed.rd (by simp), ← hrd]
        exact hlost
      · rw [hflags, haud]
        show bit ((u.audXrun p 0).aud p).flags 0 = true
        rw [hlostAud]
        simp
      · exact hframe.mono (by simp +contextual [or_imp, p, sending]) (by simp +contextual [or_imp, p, xrunId])

end Sys2Proof.Machine

/-! Period boundaries and mute timeouts of audio ports (R405, R408, R409, R412, R413). -/

namespace Sys2Proof.Machine

/-! ## Single bits of a mask -/

theorem withBit_eq (v i : Nat) (b : Bool) : withBit v i b = clearFlag v i + b.toNat * 2 ^ i := by
  have hbit : bits v i i = (v.testBit i).toNat := by
    rw [bits, Nat.add_sub_cancel_left, pow_one, Nat.testBit_eq_decide_div_mod_eq]
    rcases Nat.mod_two_eq_zero_or_one (v / 2 ^ i) with h | h <;> simp [h]
  have hone : (if b then 1 else 0) % 2 ^ (i + 1 - i) = b.toNat := by
    rw [Nat.add_sub_cancel_left]
    cases b <;> rfl
  rw [withBit, withBits, hbit, hone, clearFlag, writeOneClears, Nat.and_two_pow]

/-- Setting a bit adds it to the others. -/
theorem clearFlag_add (v i : Nat) : clearFlag v i + 2 ^ i = setFlag v i := by
  have hset : setFlag v i &&& 2 ^ i = 2 ^ i := by
    rw [Nat.and_two_pow, ← bit_eq_testBit]
    simp
  have hclear : clearFlag (setFlag v i) i = clearFlag v i := by
    refine Nat.eq_of_testBit_eq fun k => ?_
    rw [← bit_eq_testBit, ← bit_eq_testBit, bit_clearFlag, bit_clearFlag, bit_setFlag]
    by_cases h : i = k <;> simp [h]
  have hle : 2 ^ i ≤ setFlag v i := hset ▸ Nat.and_le_left
  rw [← hclear, clearFlag, writeOneClears, hset, Nat.sub_add_cancel hle]

theorem bit_withBit (v i k : Nat) (b : Bool) : bit (withBit v i b) k = if k = i then b else bit v k := by
  rw [withBit_eq]
  cases b with
  | false =>
    rw [Bool.toNat_false, Nat.zero_mul, Nat.add_zero, bit_clearFlag]
    by_cases h : k = i
    · simp [h]
    · simp [h, Ne.symm h]
  | true =>
    rw [Bool.toNat_true, Nat.one_mul, clearFlag_add, bit_setFlag]
    by_cases h : k = i
    · simp [h]
    · simp [h, Ne.symm h]

/-- The mute states after changes at some slots. -/
theorem bit_withBits (want k : Nat) (l : List (Nat × Nat)) (m : Nat) :
    bit (l.foldl (fun m e => withBit m e.1 (bit want e.1)) m) k = if k ∈ l.map Prod.fst then bit want k else bit m k := by
  induction l generalizing m with
  | nil => rfl
  | cons e l ih =>
    rw [List.foldl_cons, ih, bit_withBit]
    by_cases hl : k ∈ l.map Prod.fst
    · simp only [hl, List.map_cons, List.mem_cons, or_true, if_true]
    · by_cases hk : k = e.1
      · simp [hk]
      · rw [if_neg hl, if_neg hk, if_neg (by simpa [hk] using hl)]

theorem bit_mod_word {k : Nat} (hk : k < 32) (v : Nat) : bit (v % 2 ^ 32) k = bit v k := by
  rw [bit_eq_testBit, bit_eq_testBit, Nat.testBit_mod_two_pow, decide_eq_true hk, Bool.true_and]

/-! ## Mute timeouts (R413) -/

/-- The changes of mute that have waited longest take effect. -/
def State.muteTimedOut (s : State) (p c : Nat) : State :=
  let x := s.aud p
  let u := (s.setAud p { x with muteAt := x.muteAt.filter fun e => e.2 != c }).audFlag p AudFlag.MUTE_TIMEOUT
  (u.wr (Aud.MUTE_STATE p) ((x.muteAt.filter fun e => e.2 == c).foldl (fun m e => withBit m e.1 (bit (s.rd (Aud.MUTE p)) e.1)) (s.rd (Aud.MUTE_STATE p)))).count
    (Aud.MUTE_TIMEOUTS p)

theorem exec_audioMuteTimeout {s : State} {port : Fin 8} {c : Nat} (hruns : s.audRunning port = true)
    (hmin : ((s.aud port).muteAt.map fun e => e.2).min? = some c) :
    exec (.audioMuteTimeout port) s = .next ((s.at (c + s.rd (Aud.MUTE_TIMEOUT port) * 1000000)).muteTimedOut port c) := by
  show execAudioMuteTimeout port s = _
  unfold execAudioMuteTimeout
  dsimp only
  rw [hmin]
  exact congrArg Host.Outcome.next (if_pos hruns)

theorem audFlag_spec (s : State) (p b : Nat) :
    (s.audFlag p b).aud p = { s.aud p with flags := setFlag (s.aud p).flags b } ∧ OnlyChanges [.aud p] [] s (s.audFlag p b) :=
  ⟨aud_setAud_same .., setAud_only ..⟩

theorem muteTimedOut_spec (s : State) (p : Fin 8) (c : Nat) :
    let t := s.muteTimedOut p c
    (∀ k < 32, bit (t.rd (Aud.MUTE_STATE p)) k = bit (s.rd (if (k, c) ∈ (s.aud p).muteAt then Aud.MUTE p else Aud.MUTE_STATE p)) k) ∧
      t.aud p = { s.aud p with muteAt := (s.aud p).muteAt.filter (fun e => e.2 != c), flags := setFlag (s.aud p).flags AudFlag.MUTE_TIMEOUT } ∧
      t.rd (Aud.MUTE_TIMEOUTS p) = countUp (s.rd (Aud.MUTE_TIMEOUTS p)) 1 ∧
      OnlyChanges [.aud p] [Aud.MUTE_STATE p, Aud.MUTE_TIMEOUTS p] s t := by
  intro t
  let x := s.aud p
  let due := x.muteAt.filter fun e => e.2 == c
  let m := due.foldl (fun m e => withBit m e.1 (bit (s.rd (Aud.MUTE p)) e.1)) (s.rd (Aud.MUTE_STATE p))
  let u := s.setAud p { x with muteAt := x.muteAt.filter fun e => e.2 != c }
  have hset : OnlyChanges [.aud p.val] [] s u := setAud_only ..
  obtain ⟨haud, hflag⟩ := audFlag_spec u p AudFlag.MUTE_TIMEOUT
  have hmute := wr_only (u.audFlag p AudFlag.MUTE_TIMEOUT) (Aud.MUTE_STATE p) m
  have hcount : OnlyChanges [] [Aud.MUTE_TIMEOUTS p] ((u.audFlag p AudFlag.MUTE_TIMEOUT).wr (Aud.MUTE_STATE p) m) t := count_only ..
  have hapart := (by decide : ∀ p : Fin 8, Aud.MUTE_STATE p ≠ Aud.MUTE_TIMEOUTS p) p
  refine ⟨fun k hk => ?_, ?_, ?_, ((hset.trans hflag).trans (hmute.trans hcount)).mono (by simp) (by simp)⟩
  · rw [hcount.rd (by simpa using hapart), rd_wr_isWord (isWord_audWords p _ (by simp)), bit_mod_word hk, bit_withBits]
    have hdue : k ∈ due.map Prod.fst ↔ (k, c) ∈ x.muteAt := by
      simp [due]
    by_cases hk' : (k, c) ∈ x.muteAt
    · rw [if_pos (hdue.2 hk'), if_pos hk']
    · rw [if_neg (mt hdue.1 hk'), if_neg hk']
  · rw [hcount.aud (by simp), hmute.aud (by simp), haud, aud_setAud_same]
  · rw [← (hset.trans hflag).rd (id := Aud.MUTE_TIMEOUTS p) (by simp), ← hmute.rd (by simpa using hapart.symm)]
    exact rd_count_counter (isCounter_audCounters p _ (by simp [audCounters])) _

/-! ## The status of a period (R409) -/

/-- A ring of a buffer that is held reaches no retire fence. -/
theorem ringFreed_held {s : State} {p : Nat} (h : (parseRing (s.rdBlob (Aud.AUD_RING p))).handle = 0 ∨
    (s.bufOf (parseRing (s.rdBlob (Aud.AUD_RING p))).handle).isSome = true) : s.ringFreed p = s := by
  unfold State.ringFreed
  refine if_neg fun hfreed => ?_
  obtain ⟨hhandle, hnone⟩ := hfreed
  rcases h with h | h
  · exact hhandle h
  · rw [Option.isNone_iff_eq_none.1 hnone] at h
    cases h

/-- The bytes of a status (Table 15-5). -/
def statusBytes (x : AudSt) (mask first : Nat) : List Byte :=
  leBytes 2 x.flags ++ leBytes 6 0 ++ leBytes 2 x.zeros ++ leBytes 2 x.startEpoch ++ leBytes 4 mask ++ leBytes 8 first ++ leBytes 8 x.startTime

theorem statusBytes_length (x : AudSt) (mask first : Nat) : (statusBytes x mask first).length = 32 := by simp [statusBytes]

theorem writeStatus_none {s : State} {p : Nat} (h : (s.aud p).period = none ∨ s.audRing p = none) : s.writeStatus p = s := by
  unfold State.writeStatus
  dsimp only
  rcases h with h | h <;> rw [h]
  cases (s.aud p).period <;> rfl

theorem writeStatus_some {s : State} {p first serial : Nat} {r : AudRing} (hperiod : (s.aud p).period = some first) (hring : s.audRing p = some (r, serial))
    (hhold : s.pow.global ≠ .faultHold) :
    (s.writeStatus p).nmp.mem =
      memWriteN s.nmp.mem (bufAddr serial (r.count * r.stride (packing (s.rd (Aud.SAMPLE_FORMAT p))) + first / r.frames % r.count * 32))
        (statusBytes (s.aud p) (s.rd (Aud.MASK_IN_FORCE p)) first) := by
  unfold State.writeStatus
  dsimp only
  rw [hperiod, hring]
  exact congrArg (fun z : State => z.nmp.mem) (if_neg hhold)

/-! ## What a boundary does (R405, R409, R412) -/

/-- The port after its boundary. -/
def State.periodBegun (s : State) (p n now : Nat) : State :=
  (((s.periodOpened p n now).framesDropped p n (s.aud p).slip).maskApply p now).fire (104 + p)

theorem audBoundary_begins {s : State} {p : Nat} (hstands : s.rd (Aud.HW_POSITION p) % s.periodFrames p = 0)
    (hnew : (s.aud p).period ≠ some (s.rd (Aud.HW_POSITION p)))
    (hring : (parseRing (s.rdBlob (Aud.AUD_RING p))).handle = 0 ∨ (s.bufOf (parseRing (s.rdBlob (Aud.AUD_RING p))).handle).isSome = true) :
    s.audBoundary p = (s.writeStatus p).periodBegun p (s.rd (Aud.HW_POSITION p)) (s.audFrameAt p (s.rd (Aud.HW_POSITION p))) := by
  have hstatus := writeStatus_only s p
  have hblob : (s.writeStatus p).rdBlob (Aud.AUD_RING p) = s.rdBlob (Aud.AUD_RING p) := hstatus.2.1 (.blob _) (by simp)
  have hheld : (s.writeStatus p).ringFreed p = s.writeStatus p := by
    refine ringFreed_held ?_
    rw [hblob, State.bufOf, hstatus.buffers (by simp)]
    exact hring
  have hframe (n : Nat) : (s.writeStatus p).audFrameAt p n = s.audFrameAt p n := by
    unfold State.audFrameAt State.audRate
    rw [hstatus.aud (by simp), hstatus.rd (by simp), hstatus.rd (by simp)]
  rw [audBoundary_eq, if_neg (not_or.2 ⟨fun h => h hstands, hnew⟩)]
  dsimp only
  rw [hheld, hframe]
  rfl

theorem framesDropped_position (s : State) (p : Fin 8) (n : Nat) (slip : Int) :
    (s.framesDropped p n slip).rd (Aud.HW_POSITION p) = if slip < 0 then (n + slip.natAbs) % 2 ^ 64 else s.rd (Aud.HW_POSITION p) := by
  unfold State.framesDropped
  split
  · rw [rd_wr_counter (isCounter_audCounters p _ (by simp [audCounters])), show (-slip).toNat = slip.natAbs by omega]
  · rfl

/-- Parameters that no correction moves. -/
theorem position_apart : ∀ p : Fin 8, ∀ id ∈ [Aud.FAMILY p, Aud.RATE_MULT p, Aud.SLOT_MASK p, Aud.MASK_IN_FORCE p, Aud.MASK_CHANGES p], id ∉ [Aud.HW_POSITION p] ∧
    Aud.HW_POSITION p ∉ [Aud.MASK_IN_FORCE p, Aud.MUTE_STATE p, Aud.MASK_CHANGES p] := by decide

theorem periodBegun_spec (s : State) (p : Fin 8) (n now : Nat) :
    let t := s.periodBegun p n now
    let x := s.aud p
    let due := s.maskDue p now
    t.firings = s.firings ++ [(104 + p.val, t.clock)] ∧ (t.aud p).period = some n ∧ (t.aud p).zeros = 0 ∧ (t.aud p).slip = 0 ∧
      (t.aud p).startTime = deviceTimeAt s.time now ∧ (t.aud p).startEpoch = s.epoch ∧ (t.aud p).insert = x.insert + x.slip.toNat ∧
      t.rd (Aud.HW_POSITION p) = (if x.slip < 0 then (n + x.slip.natAbs) % 2 ^ 64 else s.rd (Aud.HW_POSITION p)) ∧
      (t.aud p).flags = (if x.slip ≠ 0 then 2 ^ AudFlag.SLIP else 0) + (if due then 2 ^ AudFlag.MASK_CHANGE else 0) ∧
      t.rd (Aud.MASK_IN_FORCE p) = (if due then s.rd (Aud.SLOT_MASK p) % 2 ^ 32 else s.rd (Aud.MASK_IN_FORCE p)) ∧
      t.rd (Aud.MASK_CHANGES p) = (if due then countUp (s.rd (Aud.MASK_CHANGES p)) 1 else s.rd (Aud.MASK_CHANGES p)) ∧
      OnlyChanges [.aud p, .firings] [Aud.HW_POSITION p, Aud.MASK_IN_FORCE p, Aud.MUTE_STATE p, Aud.MASK_CHANGES p] s t := by
  intro t x due
  let u := s.periodOpened p n now
  let v := u.framesDropped p n x.slip
  have hopen : OnlyChanges [.aud p.val] [] s u := setAud_only ..
  obtain ⟨⟨clock, pos, hdropped⟩, hdrop⟩ := framesDropped_spec u p n x.slip
  have hv := hopen.trans hdrop
  have hrd {id : Nat} (hid : id ∈ [Aud.FAMILY p, Aud.RATE_MULT p, Aud.SLOT_MASK p, Aud.MASK_IN_FORCE p, Aud.MASK_CHANGES p]) : v.rd id = s.rd id :=
    hv.rd (position_apart p id hid).1
  have haud : v.aud p = { x with
      period := some n, startTime := deviceTimeAt s.time now, startEpoch := s.epoch, zeros := 0, slip := 0,
      flags := if x.slip ≠ 0 then 2 ^ AudFlag.SLIP else 0, insert := x.insert + x.slip.toNat, baseClock := clock, basePos := pos } := by
    have hopened : u.aud p = { x with
        period := some n, startTime := deviceTimeAt s.time now, startEpoch := s.epoch, zeros := 0, slip := 0,
        flags := if x.slip ≠ 0 then 2 ^ AudFlag.SLIP else 0, insert := x.insert + x.slip.toNat } := aud_setAud_same ..
    rw [hdropped, hopened]
  have hdue : v.maskDue p now = due := by
    unfold State.maskDue State.audRate due State.maskDue State.audRate
    rw [haud, hrd (by simp), hrd (by simp)]
  have hpos : v.rd (Aud.HW_POSITION p) = if x.slip < 0 then (n + x.slip.natAbs) % 2 ^ 64 else s.rd (Aud.HW_POSITION p) := by
    rw [framesDropped_position, hopen.rd (by simp)]
  have hfire := fire_only (v.maskApply p now) (104 + p)
  have htaken : (v.maskApply p now).aud p = { v.aud p with
        maskAt := if due then none else x.maskAt, flags := (if x.slip ≠ 0 then 2 ^ AudFlag.SLIP else 0) + (if due then 2 ^ AudFlag.MASK_CHANGE else 0) } ∧
      (v.maskApply p now).rd (Aud.MASK_IN_FORCE p) = (if due then s.rd (Aud.SLOT_MASK p) % 2 ^ 32 else s.rd (Aud.MASK_IN_FORCE p)) ∧
      (v.maskApply p now).rd (Aud.MASK_CHANGES p) = (if due then countUp (s.rd (Aud.MASK_CHANGES p)) 1 else s.rd (Aud.MASK_CHANGES p)) ∧
      OnlyChanges [.aud p.val] [Aud.MASK_IN_FORCE p, Aud.MUTE_STATE p, Aud.MASK_CHANGES p] v (v.maskApply p now) := by
    rw [maskApply_eq, hdue]
    cases due with
    | true =>
      obtain ⟨htaken, hmask, hcount, honly⟩ := maskTaken_spec v p
      refine ⟨?_, by simpa [hrd] using hmask, by simpa [hrd] using hcount, honly⟩
      rw [if_pos rfl, htaken, haud]
      by_cases hslip : x.slip = 0 <;> simp [hslip, setFlag, AudFlag.SLIP, AudFlag.MASK_CHANGE]
    | false => exact ⟨by simp [haud], hrd (by simp), hrd (by simp), .nothing v⟩
  obtain ⟨hmasked, hmask, hcount, honly⟩ := htaken
  have hafter := honly.trans hfire
  have hport : t.aud p = _ := (hfire.aud (by simp)).trans hmasked
  rw [haud] at hport
  refine ⟨?_, (congrArg AudSt.period hport :), (congrArg AudSt.zeros hport :), (congrArg AudSt.slip hport :), (congrArg AudSt.startTime hport :),
    (congrArg AudSt.startEpoch hport :), (congrArg AudSt.insert hport :), ?_, (congrArg AudSt.flags hport :), hmask, hcount,
    (hv.trans hafter).mono (by simp) (by simp)⟩
  · show (v.maskApply p now).firings ++ [(104 + p.val, (v.maskApply p now).clock)] = _
    rw [honly.firings (by simp), hv.firings (by simp)]
    rfl
  · exact (hafter.rd (by simpa using (position_apart p (Aud.FAMILY p) (by simp)).2)).trans hpos

/-- Settles O46: a boundary is the status of the period that ends and the opening of the next; a timeout moves the mute bits that waited longest. -/
theorem periodsAndMuteKeepTheirOrder : Obligations.PeriodsAndMuteKeepTheirOrder := by
  unfold Obligations.PeriodsAndMuteKeepTheirOrder
  refine ⟨?_, ?_⟩
  · intro port s p n x due hruns hhold hstands hnew hring
    let u := s.at (s.audFrameAt p n)
    have hat : OnlyChanges [.clock] [] s u := at_only ..
    let now := s.audFrameAt p n
    have hexec : exec (.audioPeriodBoundary port) s = .next (u.audBoundary p) := congrArg Host.Outcome.next (if_pos hruns)
    have hbegins : u.audBoundary p = (u.writeStatus p).periodBegun p n now := audBoundary_begins hstands hnew hring
    have hstatus := writeStatus_only u p
    have hw := hat.trans hstatus
    let w := u.writeStatus port
    obtain ⟨hfired, hperiod, hzeros, hslip, htime, hepoch, hinsert, hpos, hflags, hmask, hcount, honly⟩ := periodBegun_spec w port n now
    have haud : w.aud port = s.aud port := hw.aud (by simp)
    have hrd (id : Nat) : w.rd id = s.rd id := hw.rd (by simp)
    have hdue : w.maskDue port now = due := by
      unfold State.maskDue State.audRate
      rw [haud, hrd, hrd]
      rfl
    have hmem (a : Nat) : memRead (w.periodBegun port n now).nmp.mem a = memRead w.nmp.mem a := honly.mem (by simp) a
    rw [haud] at hinsert hpos hflags
    rw [hrd] at hpos
    rw [hrd, hrd, hdue] at hmask
    rw [hrd, hdue] at hcount
    rw [hdue] at hflags
    refine ⟨w.periodBegun port n now, by rw [hexec, hbegins], (honly.clock (by simp)).trans (hstatus.clock (by simp)), ?_, hperiod, hzeros, hslip, ?_, ?_,
      hinsert, hpos, hflags, hmask, hcount, fun hnone a => ?_, fun first r serial hfirst hring' => ?_, (hw.trans honly).mono (by simp [p]) (by simp [p])⟩
    · exact hfired.trans (congrArg (· ++ _) (hw.firings (by simp)))
    · exact htime.trans (congrArg (deviceTimeAt · now) (hw.time (by simp)))
    · exact hepoch.trans (congrArg (· % 65536) (hrd _))
    · refine (hmem a).trans ?_
      have hsame : w = u := writeStatus_none (hat.audRing (p := port) (by simp) (by simp) ▸ hat.aud (p := port) (by simp) ▸ hnone)
      rw [hsame]
      exact hat.mem (by simp) a
    · intro off
      have hheld : u.pow.global ≠ .faultHold := by rwa [hat.pow (by simp)]
      have hwritten := writeStatus_some ((congrArg AudSt.period (hat.aud (p := port) (by simp))).trans hfirst)
        ((hat.audRing (p := port) (by simp) (by simp)).trans hring') hheld
      rw [hat.rd (by simp), hat.rd (by simp), hat.aud (by simp)] at hwritten
      have hread (a : Nat) : memRead (w.periodBegun port n now).nmp.mem a =
          memRead (memWriteN u.nmp.mem (bufAddr serial off) (statusBytes x (s.rd (Aud.MASK_IN_FORCE p)) first)) a :=
        (hmem a).trans (congrArg (memRead · a) hwritten)
      have hlen := statusBytes_length x (s.rd (Aud.MASK_IN_FORCE p)) first
      refine ⟨?_, fun a ha => ?_⟩
      · rw [memReadN_congr hread, ← hlen, memReadN_memWriteN]
        rfl
      · rw [hread, memRead_memWriteN_other (by rwa [hlen])]
        exact hat.mem (by simp) a
  · intro port c s p waiting hruns hmin
    let u := s.at (c + s.rd (Aud.MUTE_TIMEOUT p) * 1000000)
    have hat : OnlyChanges [.clock] [] s u := at_only ..
    obtain ⟨hbits, haud, hcount, honly⟩ := muteTimedOut_spec u port c
    refine ⟨u.muteTimedOut p c, exec_audioMuteTimeout hruns hmin, honly.clock (by simp), hbits, ?_, ?_, hcount, (hat.trans honly).mono (by simp [p]) (by simp [p])⟩
    · exact (congrArg AudSt.muteAt haud :)
    · exact (congrArg AudSt.flags haud :)

end Sys2Proof.Machine

/-! Frame syncs of followers and the clock families (R403 to R405, R410). -/

namespace Sys2Proof.Machine

/-! ## Parameters of a family -/

theorem isWord_family : ∀ f : Fin 2, ∀ id ∈ [Aud.FAMILY_STATE f, Aud.FAMILY_PHASE_ERROR f], isWord id = true := by decide

theorem isCounter_family : ∀ f : Fin 2, ∀ id ∈ [Aud.FAMILY_GLITCHES f, Aud.FAMILY_STOPS f, Aud.FAMILY_SLIPS f], isCounter id = true := by decide

/-- Parameters of a family that are apart from its state and from what messages count. -/
theorem family_apart : ∀ f : Fin 2, ∀ id ∈ [Aud.FAMILY_GLITCHES f, Aud.FAMILY_STOPS f, Aud.FAMILY_SLIPS f, Aud.FAMILY_PHASE_ERROR f],
    id ∉ Aud.FAMILY_STATE f :: sendIds ∧ Aud.FAMILY_STATE f ≠ id := by decide

theorem familyState_not_sent : ∀ f : Fin 2, Aud.FAMILY_STATE f ∉ sendIds := by decide

theorem OnlyChanges.family {ps : List Part} {ids : List Nat} {s t : State} {f : Nat} (h : OnlyChanges ps ids s t) (hp : .family f ∉ ps) :
    t.family f = s.family f :=
  h.2.1 (.family f) hp

theorem familyTo_spec (s : State) (f : Fin 2) {st : Nat} (hst : st < 2 ^ 32) :
    (s.familyTo f st).rd (Aud.FAMILY_STATE f) = st ∧ OnlyChanges sending (Aud.FAMILY_STATE f :: sendIds) s (s.familyTo f st) := by
  unfold State.familyTo
  split
  · next h => exact ⟨h, .nothing s⟩
  · have hstate := wr_only s (Aud.FAMILY_STATE f) st
    have hnotify : OnlyChanges sending sendIds _ ((s.wr (Aud.FAMILY_STATE f) st).audNotify 0x0503 f st) := linkNotify_only ..
    exact ⟨(hnotify.rd (familyState_not_sent f)).trans (rd_wr_word (isWord_family f _ (by simp)) hst s), (hstate.trans hnotify).mono (by simp) (by simp)⟩

/-! ## Frame syncs (Table 15-6) -/

theorem audRunState_le (s : State) (p : Nat) : s.audRunState p ≤ 2 := by
  unfold State.audRunState
  split <;> omega

/-- The time of the latest edge of the frame sync. -/
def State.fsTimed (s : State) (p : Nat) : State := s.setAud p { s.aud p with fsAt := s.clock }

/-- An edge of the frame sync has come: the port runs. -/
def State.fsSeen (s : State) (p : Nat) : State :=
  let u := s.fsTimed p
  if u.rd (Aud.PORT_STATE p) = 3 then u.wr (Aud.PORT_STATE p) (u.audRunState p) else u

theorem fsSeen_spec (s : State) (p : Fin 8) :
    let t := s.fsSeen p
    t.aud p = { s.aud p with fsAt := s.clock } ∧
      t.rd (Aud.PORT_STATE p) = (if s.rd (Aud.PORT_STATE p) = 3 then s.audRunState p else s.rd (Aud.PORT_STATE p)) ∧
      OnlyChanges [.aud p] [Aud.PORT_STATE p] s t := by
  intro t
  let u := s.fsTimed p
  have hset : OnlyChanges [.aud p.val] [] s u := setAud_only ..
  have haud : u.aud p = { s.aud p with fsAt := s.clock } := aud_setAud_same ..
  have hrd (id : Nat) : u.rd id = s.rd id := hset.rd (by simp)
  have hruns : u.audRunState p = s.audRunState p := by
    unfold State.audRunState
    rw [hset.audRing (by simp) (by simp), hrd, hrd]
  have ht : t = if u.rd (Aud.PORT_STATE p) = 3 then u.wr (Aud.PORT_STATE p) (u.audRunState p) else u := rfl
  rw [ht, hrd, hruns]
  split
  · have hw := wr_only u (Aud.PORT_STATE p) (s.audRunState p)
    refine ⟨(hw.aud (by simp)).trans haud, ?_, (hset.trans hw).mono (by simp) (by simp)⟩
    exact rd_wr_word (isWord_audWords p _ (by simp)) (by have := audRunState_le s p; omega) u
  · exact ⟨haud, hrd _, hset.mono (by simp) (by simp)⟩

/-- The correction that an edge with a drift leaves. -/
def State.fsDrifts (s : State) (p : Nat) (drift : Int) : State :=
  let x := s.aud p
  ((s.setAud p { x with insert := x.insert + (if 0 < drift then 1 else 0)
                        drop := x.drop + (if drift < 0 ∧ s.rd (Aud.DIRECTION p) = 1 then 1 else 0) }).audFlag p AudFlag.SLIP).count (Aud.SLIPS p)

/-- An edge at another place. -/
def State.fsStrays (s : State) (p offset : Nat) (x : AudSt) : State :=
  let run := if x.odd = offset then x.oddRun + 1 else 1
  let u := (s.setAud p { x with odd := offset, oddRun := if run = 8 then 0 else run }).count (Aud.FS_GLITCHES p)
  if run = 8 then (u.audFlag p AudFlag.SLIP).count (Aud.SLIPS p) else u

theorem exec_audioFsEdge {s : State} {port : Fin 8} (hruns : s.audRunning port = true) (hfollows : s.rd (Aud.CLOCK_ROLE port) = 1) (offset : Nat) (drift : Int) :
    exec (.audioFsEdge port offset drift) s = .next (if offset = 0 then
        (let u := (s.fsSeen port).setAud port { (s.fsTimed port).aud port with oddRun := 0 }
        if drift = 0 then u else u.fsDrifts port drift)
      else (s.fsSeen port).fsStrays port offset ((s.fsTimed port).aud port)) := by
  show execAudioFsEdge port offset drift s = _
  have hmay : ¬(s.audRunning port = false ∨ s.rd (Aud.CLOCK_ROLE port) = 0) := by simp [hruns, hfollows]
  unfold execAudioFsEdge
  dsimp only
  rw [if_neg hmay]
  by_cases hplace : offset = 0
  · rw [if_pos hplace, if_pos hplace]
    by_cases hdrift : drift = 0
    · rw [if_pos hdrift, if_pos hdrift]
      rfl
    · rw [if_neg hdrift, if_neg hdrift]
      rfl
  · rw [if_neg hplace, if_neg hplace]
    rfl

theorem fsDrifts_spec (s : State) (p : Fin 8) (drift : Int) :
    let t := s.fsDrifts p drift
    t.rd (Aud.SLIPS p) = countUp (s.rd (Aud.SLIPS p)) 1 ∧ (t.aud p).insert = (s.aud p).insert + (if 0 < drift then 1 else 0) ∧
      (t.aud p).drop = (s.aud p).drop + (if drift < 0 ∧ s.rd (Aud.DIRECTION p) = 1 then 1 else 0) ∧ (t.aud p).flags = setFlag (s.aud p).flags AudFlag.SLIP ∧
      OnlyChanges [.aud p] [Aud.SLIPS p] s t := by
  intro t
  let x := s.aud p
  let u := s.setAud p { x with insert := x.insert + (if 0 < drift then 1 else 0)
                               drop := x.drop + (if drift < 0 ∧ s.rd (Aud.DIRECTION p) = 1 then 1 else 0) }
  have hset : OnlyChanges [.aud p.val] [] s u := setAud_only ..
  obtain ⟨haud, hflag⟩ := audFlag_spec u p AudFlag.SLIP
  have hcount : OnlyChanges [] [Aud.SLIPS p] (u.audFlag p AudFlag.SLIP) t := count_only ..
  have hport := (hcount.aud (p := p) (by simp)).trans haud
  rw [aud_setAud_same] at hport
  refine ⟨?_, (congrArg AudSt.insert hport :), (congrArg AudSt.drop hport :), (congrArg AudSt.flags hport :),
    ((hset.trans hflag).trans hcount).mono (by simp) (by simp)⟩
  rw [← (hset.trans hflag).rd (id := Aud.SLIPS p) (by simp)]
  exact rd_count_counter (isCounter_audCounters p _ (by simp [audCounters])) _

theorem fsStrays_spec (s : State) (p : Fin 8) (offset : Nat) :
    let t := s.fsStrays p offset (s.aud p)
    let run := if (s.aud p).odd = offset then (s.aud p).oddRun + 1 else 1
    t.rd (Aud.FS_GLITCHES p) = countUp (s.rd (Aud.FS_GLITCHES p)) 1 ∧
      t.rd (Aud.SLIPS p) = (if run = 8 then countUp (s.rd (Aud.SLIPS p)) 1 else s.rd (Aud.SLIPS p)) ∧ (t.aud p).oddRun = (if run = 8 then 0 else run) ∧
      OnlyChanges [.aud p] [Aud.FS_GLITCHES p, Aud.SLIPS p] s t := by
  intro t run
  let v := s.setAud p { s.aud p with odd := offset, oddRun := if run = 8 then 0 else run }
  let u := v.count (Aud.FS_GLITCHES p)
  have hset : OnlyChanges [.aud p.val] [] s v := setAud_only ..
  have hglitch : OnlyChanges [] [Aud.FS_GLITCHES p] v u := count_only ..
  have hu := hset.trans hglitch
  have hapart := (by decide : ∀ p : Fin 8, Aud.FS_GLITCHES p ≠ Aud.SLIPS p) p
  have hcounted : u.rd (Aud.FS_GLITCHES p) = countUp (s.rd (Aud.FS_GLITCHES p)) 1 :=
    (rd_count_counter (isCounter_audCounters p _ (by simp [audCounters])) v).trans (congrArg (countUp · 1) (hset.rd (by simp)))
  have hslips : u.rd (Aud.SLIPS p) = s.rd (Aud.SLIPS p) := hu.rd (by simpa using hapart.symm)
  have hport : u.aud p = { s.aud p with odd := offset, oddRun := if run = 8 then 0 else run } := (hglitch.aud (by simp)).trans (aud_setAud_same ..)
  have ht : t = if run = 8 then (u.audFlag p AudFlag.SLIP).count (Aud.SLIPS p) else u := rfl
  rw [ht]
  by_cases hrun : run = 8
  · simp only [if_pos hrun] at hport ⊢
    obtain ⟨haud, hflag⟩ := audFlag_spec u p AudFlag.SLIP
    have hcount := count_only (u.audFlag p AudFlag.SLIP) (Aud.SLIPS p)
    refine ⟨(hcount.rd (by simpa using hapart)).trans ((hflag.rd (by simp)).trans hcounted), ?_, ?_, ((hu.trans hflag).trans hcount).mono (by simp) (by simp)⟩
    · rw [← hslips, ← hflag.rd (id := Aud.SLIPS p) (by simp)]
      exact rd_count_counter (isCounter_audCounters p _ (by simp [audCounters])) _
    · rw [hcount.aud (by simp), haud, hport]
  · simp only [if_neg hrun] at hport ⊢
    exact ⟨hcounted, hslips, by rw [hport], hu.mono (by simp) (by simp)⟩

end Sys2Proof.Machine

/-! Word clocks and the families that follow them (R404, R405). -/

namespace Sys2Proof.Machine

/-! ## Word clocks -/

/-- The period that a family expects. -/
def State.familyPeriod (s : State) (f : Nat) : Nat := if (s.family f).pm = 0 then 1000000000 / baseRate f else (s.family f).pm

/-- A family follows a word clock that its pin brings. -/
theorem wordclock_runs {s : State} {f : Nat} (hsource : s.rd (Aud.FAMILY_SOURCE f) = 2) (hruns : s.audioRuns = true) (hpin : s.wordclockPin f = true) :
    ¬(s.rd (Aud.FAMILY_SOURCE f) ≠ 2 ∨ s.audioRuns = false ∨ s.wordclockPin f = false) := by simp [hsource, hruns, hpin]

theorem exec_wordclockEdge_expected {s : State} {family : Fin 2} {l raw : Nat} (hsource : s.rd (Aud.FAMILY_SOURCE family) = 2) (hruns : s.audioRuns = true)
    (hpin : s.wordclockPin family = true) (hlast : (s.family family).lastAt = some l) (hraw : (s.family family).rawAt = some raw)
    (hon : offBy5 (s.clock - l) (s.familyPeriod family) (s.familyPeriod family) = false) (e : Int) :
    exec (.wordclockEdge family e) s = .next (s.wordclockAccept family (s.clock - l) e) := by
  show execWordclockEdge family e s = _
  unfold execWordclockEdge
  dsimp only
  rw [if_neg (wordclock_runs hsource hruns hpin), hlast, hraw]
  refine congrArg Host.Outcome.next (if_pos ?_)
  show (!offBy5 (s.clock - l) (s.familyPeriod family) (s.familyPeriod family)) = true
  rw [hon]
  rfl

theorem exec_wordclockEdge_stray {s : State} {family : Fin 2} {l raw : Nat} (hsource : s.rd (Aud.FAMILY_SOURCE family) = 2) (hruns : s.audioRuns = true)
    (hpin : s.wordclockPin family = true) (hlast : (s.family family).lastAt = some l) (hraw : (s.family family).rawAt = some raw)
    (hoff : offBy5 (s.clock - l) (s.familyPeriod family) (s.familyPeriod family) = true)
    (hgap : offBy5 (s.clock - raw) (s.familyPeriod family) (s.familyPeriod family) = true) (hodd : (s.family family).odd = []) (e : Int) :
    exec (.wordclockEdge family e) s =
      .next ((s.setFamily family { s.family family with rawAt := some s.clock, odd := [s.clock - raw] }).count (Aud.FAMILY_GLITCHES family)) := by
  show execWordclockEdge family e s = _
  unfold execWordclockEdge
  dsimp only
  rw [if_neg (wordclock_runs hsource hruns hpin), hlast, hraw, hodd]
  have hperiod : (if (s.family family).pm = 0 then 1000000000 / baseRate family else (s.family family).pm) = s.familyPeriod family := rfl
  dsimp only
  rw [hperiod, hoff, hgap]
  rw [if_neg (by simp), if_neg (by simp), if_pos rfl, if_neg (by simp)]
  rfl

theorem inPull_congr {s t : State} {f : Nat} (h : t.rd (Aud.FAMILY_PULL f) = s.rd (Aud.FAMILY_PULL f)) (period : Nat) : t.inPull f period = s.inPull f period := by
  unfold State.inPull
  rw [h]

/-- The parameters that the choice at an accepted edge reads. -/
theorem accepted_apart : ∀ f : Fin 2, Aud.FAMILY_STATE f ≠ Aud.FAMILY_PHASE_ERROR f ∧ Aud.FAMILY_PULL f ≠ Aud.FAMILY_PHASE_ERROR f := by decide

theorem wordclockAccept_spec (s : State) (f : Fin 2) (period : Nat) (e : Int) :
    let t := s.wordclockAccept f period e
    t.rd (Aud.FAMILY_PHASE_ERROR f) = ofSigned 32 e ∧ (t.family f).pm = period ∧ (t.family f).lastAt = some s.clock ∧
      t.rd (Aud.FAMILY_STATE f) = (if s.rd (Aud.FAMILY_STATE f) = 3 ∧ s.inPull f period = true then 1 else s.rd (Aud.FAMILY_STATE f)) ∧
      OnlyChanges (.family f :: sending) (Aud.FAMILY_PHASE_ERROR f :: Aud.FAMILY_STATE f :: sendIds) s t := by
  intro t
  let x : FsyncSt := { s.family f with lastAt := some s.clock, rawAt := some s.clock, pm := period, odd := [], stopped := false }
  let u := (s.setFamily f x).wrS (Aud.FAMILY_PHASE_ERROR f) e
  have hset : OnlyChanges [.family f.val] [] s (s.setFamily f x) := setFamily_only ..
  have hphase : OnlyChanges [] [Aud.FAMILY_PHASE_ERROR f] (s.setFamily f x) u := wr_only ..
  have hu := hset.trans hphase
  obtain ⟨hstateApart, hpullApart⟩ := accepted_apart f
  have herror : u.rd (Aud.FAMILY_PHASE_ERROR f) = ofSigned 32 e := rd_wr_word (isWord_family f _ (by simp)) (ofSigned_lt e) _
  have hfamily : u.family f = x := (hphase.family (by simp)).trans (family_setFamily_same ..)
  have hstate : u.rd (Aud.FAMILY_STATE f) = s.rd (Aud.FAMILY_STATE f) := hu.rd (by simpa using hstateApart)
  have hpull : u.inPull f period = s.inPull f period := inPull_congr (hu.rd (by simpa using hpullApart)) _
  have ht : t = if u.rd (Aud.FAMILY_STATE f) = 3 ∧ u.inPull f period = true then u.familyTo f 1 else u := rfl
  rw [ht, hstate, hpull]
  split
  · obtain ⟨hacquires, honly⟩ := familyTo_spec u f (st := 1) (by omega)
    refine ⟨(honly.rd (family_apart f _ (by simp)).1).trans herror, ?_, ?_, hacquires, (hu.trans honly).mono (by simp) (by simp +contextual [or_imp])⟩
    · rw [honly.family (by simp [sending]), hfamily]
    · rw [honly.family (by simp [sending]), hfamily]
  · exact ⟨herror, by rw [hfamily], by rw [hfamily], hstate, hu.mono (by simp +contextual) (by simp +contextual)⟩

/-- A word clock that stops. -/
def State.wordclockStopped (s : State) (f : Nat) (x : FsyncSt) : State :=
  let u := (s.setFamily f { x with stopped := true }).count (Aud.FAMILY_STOPS f)
  if u.rd (Aud.FAMILY_STATE f) = 1 ∨ u.rd (Aud.FAMILY_STATE f) = 2 then u.familyTo f 3 else u

theorem exec_wordclockStop {s : State} {family : Fin 2} (hsource : s.rd (Aud.FAMILY_SOURCE family) = 2) (hruns : s.audioRuns = true)
    (hgoes : (s.family family).stopped = false) :
    exec (.wordclockStop family) s =
      .next ((s.at ((s.family family).lastAt.getD s.clock + s.familyPeriod family * 3 / 2)).wordclockStopped family (s.family family)) :=
  congrArg Host.Outcome.next (if_neg (by simp [hsource, hruns, hgoes]))

theorem wordclockStopped_spec (s : State) (f : Fin 2) (x : FsyncSt) :
    let t := s.wordclockStopped f x
    t.rd (Aud.FAMILY_STOPS f) = countUp (s.rd (Aud.FAMILY_STOPS f)) 1 ∧ (t.family f).stopped = true ∧
      t.rd (Aud.FAMILY_STATE f) = (if s.rd (Aud.FAMILY_STATE f) = 1 ∨ s.rd (Aud.FAMILY_STATE f) = 2 then 3 else s.rd (Aud.FAMILY_STATE f)) ∧
      OnlyChanges (.family f :: sending) (Aud.FAMILY_STOPS f :: Aud.FAMILY_STATE f :: sendIds) s t := by
  intro t
  let v := s.setFamily f { x with stopped := true }
  let u := v.count (Aud.FAMILY_STOPS f)
  have hset : OnlyChanges [.family f.val] [] s v := setFamily_only ..
  have hcount : OnlyChanges [] [Aud.FAMILY_STOPS f] v u := count_only ..
  have hu := hset.trans hcount
  obtain ⟨hsent, hapart⟩ := family_apart f (Aud.FAMILY_STOPS f) (by simp)
  have hstops : u.rd (Aud.FAMILY_STOPS f) = countUp (s.rd (Aud.FAMILY_STOPS f)) 1 :=
    (rd_count_counter (isCounter_family f _ (by simp)) v).trans (congrArg (countUp · 1) (hset.rd (by simp)))
  have hfamily : u.family f = { x with stopped := true } := (hcount.family (by simp)).trans (family_setFamily_same ..)
  have hstate : u.rd (Aud.FAMILY_STATE f) = s.rd (Aud.FAMILY_STATE f) := hu.rd (by simpa using hapart)
  have ht : t = if u.rd (Aud.FAMILY_STATE f) = 1 ∨ u.rd (Aud.FAMILY_STATE f) = 2 then u.familyTo f 3 else u := rfl
  rw [ht, hstate]
  split
  · obtain ⟨hheld, honly⟩ := familyTo_spec u f (st := 3) (by omega)
    refine ⟨(honly.rd hsent).trans hstops, ?_, hheld, (hu.trans honly).mono (by simp) (by simp +contextual [or_imp])⟩
    rw [honly.family (by simp [sending]), hfamily]
  · exact ⟨hstops, by rw [hfamily], hstate, hu.mono (by simp +contextual) (by simp +contextual)⟩

/-! ## Phase errors of whole frames (R405) -/

/-- What a port owes to a phase error of its family. -/
def State.slipOwed (s : State) (f : Nat) (frames : Int) (p : Nat) : AudSt :=
  if s.rd (Aud.PORT_ENABLE p) = 1 ∧ s.rd (Aud.FAMILY p) = f then { s.aud p with slip := (s.aud p).slip + frames * 2 ^ s.rd (Aud.RATE_MULT p) } else s.aud p

/-- A port takes what it owes. -/
def State.slipTaken (s : State) (f : Nat) (frames : Int) (p : Nat) : State :=
  if s.rd (Aud.PORT_ENABLE p) = 1 ∧ s.rd (Aud.FAMILY p) = f then
    s.setAud p { s.aud p with slip := (s.aud p).slip + frames * 2 ^ s.rd (Aud.RATE_MULT p) }
  else s

theorem slipTaken_spec (s : State) (f : Nat) (frames : Int) (p : Nat) :
    (s.slipTaken f frames p).aud p = s.slipOwed f frames p ∧ OnlyChanges [.aud p] [] s (s.slipTaken f frames p) := by
  unfold State.slipTaken State.slipOwed
  split
  · exact ⟨aud_setAud_same .., setAud_only ..⟩
  · exact ⟨rfl, .nothing s⟩

theorem slipsTaken_aud (f : Nat) (frames : Int) {l : List Nat} (hl : l.Nodup) (s : State) (q : Nat) :
    (l.foldl (fun t p => t.slipTaken f frames p) s).aud q = if q ∈ l then s.slipOwed f frames q else s.aud q := by
  induction l generalizing s with
  | nil => rfl
  | cons p l ih =>
    obtain ⟨hp, hl⟩ := List.nodup_cons.1 hl
    obtain ⟨htaken, honly⟩ := slipTaken_spec s f frames p
    rw [List.foldl_cons, ih hl]
    by_cases hq : q = p
    · rw [hq, if_neg hp, if_pos (by simp), htaken]
    · have hsame : (s.slipTaken f frames p).aud q = s.aud q := honly.aud (by simpa using hq)
      have howed : (s.slipTaken f frames p).slipOwed f frames q = s.slipOwed f frames q := by
        unfold State.slipOwed
        rw [hsame, honly.rd (by simp), honly.rd (by simp), honly.rd (by simp)]
      simp only [hsame, howed, List.mem_cons, hq, false_or]

theorem exec_familySlip {s : State} {family : Fin 2} {frames : Int} (hframes : frames ≠ 0) (hlocked : s.rd (Aud.FAMILY_STATE family) = 2)
    (hruns : s.audioRuns = true) :
    exec (.familySlip family frames) s =
      .next (((List.range 8).foldl (fun t p => t.slipTaken family frames p) (s.count (Aud.FAMILY_SLIPS family))).familyTo family 1) :=
  congrArg Host.Outcome.next (if_neg (by simp [hlocked, hframes, hruns]))

theorem slipsTaken_only (s : State) (f : Nat) (frames : Int) :
    OnlyChanges ((List.range 8).map Part.aud) [] s ((List.range 8).foldl (fun t p => t.slipTaken f frames p) s) :=
  .foldl _ (.nothing s) fun t p hp => (slipTaken_spec t f frames p).2.mono (by simpa using hp) (by simp)

/-- Settles O47: each edge, loss, stop, lock and phase error moves its port or its family, and nothing else. -/
theorem audioClocksFollowTheirSource : Obligations.AudioClocksFollowTheirSource := by
  unfold Obligations.AudioClocksFollowTheirSource
  refine ⟨?_, ?_⟩
  · intro port s p hruns hfollows
    obtain ⟨haud, hstate, hseen⟩ := fsSeen_spec s port
    have htimed : (s.fsTimed p).aud p = { s.aud p with fsAt := s.clock } := aud_setAud_same ..
    refine ⟨fun hheld => ?_, ?_, fun d hd => ?_, fun o d ho => ?_⟩
    · let u := s.at ((s.aud p).fsAt + 1500000000 / s.audRate p)
      have hexec : exec (.audioFsLost port) s = .next (((u.wr (Aud.PORT_STATE p) 3).audFlag p AudFlag.FS_LOST).audPortNotify 0x0502 p 0) :=
        congrArg Host.Outcome.next (if_neg (by simp [p, hruns, hfollows, hheld]))
      have hat : OnlyChanges [.clock] [] s u := at_only ..
      have hlost := wr_only u (Aud.PORT_STATE p) 3
      obtain ⟨hflagged, hflag⟩ := audFlag_spec (u.wr (Aud.PORT_STATE p) 3) p AudFlag.FS_LOST
      obtain ⟨⟨at', hnotified⟩, hnotify⟩ := audPortNotify_spec ((u.wr (Aud.PORT_STATE p) 3).audFlag p AudFlag.FS_LOST) 0x0502 p 0
      have hunsent := (by decide : ∀ p : Fin 8, Aud.PORT_STATE p ∉ sendIds) port
      have hafter := hflag.trans hnotify
      refine ⟨_, hexec, ?_, ?_, ?_, ((hat.trans hlost).trans hafter).mono (by simp +contextual [or_imp]) (by simp)⟩
      · rw [hafter.rd (by simpa using hunsent)]
        exact rd_wr_word (isWord_audWords port _ (by simp [p])) (by omega) u
      · rw [hafter.clock (by simp [sending]), hlost.clock (by simp)]
        rfl
      · rw [hnotified, hflagged, hlost.aud (by simp), hat.aud (by simp)]
    · have hset := setAud_only (s.fsSeen p) p { (s.fsTimed p).aud p with oddRun := 0 }
      refine ⟨_, exec_audioFsEdge hruns hfollows 0 0, ?_, (hset.rd (by simp)).trans hstate, (hseen.trans hset).mono (by simp [p]) (by simp [p])⟩
      exact (aud_setAud_same ..).trans (by rw [htimed])
    · let u := (s.fsSeen p).setAud p { (s.fsTimed p).aud p with oddRun := 0 }
      have hset : OnlyChanges [.aud p] [] (s.fsSeen p) u := setAud_only ..
      have hexec : exec (.audioFsEdge port 0 d) s = .next (u.fsDrifts p d) :=
        (exec_audioFsEdge hruns hfollows 0 d).trans (congrArg Host.Outcome.next (if_neg hd))
      have hu := hseen.trans hset
      have haud' : u.aud p = { s.aud p with fsAt := s.clock, oddRun := 0 } := (aud_setAud_same ..).trans (by rw [htimed])
      obtain ⟨hslips, hinsert, hdrop, hflags, hdrifts⟩ := fsDrifts_spec u port d
      have hapart := (by decide : ∀ p : Fin 8, Aud.SLIPS p ≠ Aud.PORT_STATE p ∧ Aud.DIRECTION p ≠ Aud.PORT_STATE p) port
      rw [haud'] at hinsert hdrop hflags
      rw [hu.rd (by simpa using hapart.2)] at hdrop
      rw [hu.rd (by simpa using hapart.1)] at hslips
      exact ⟨_, hexec, hslips, hinsert, hdrop, hflags, (hu.trans hdrifts).mono (by simp [p]) (by simp [p])⟩
    · have hexec : exec (.audioFsEdge port o d) s = .next ((s.fsSeen p).fsStrays p o { s.aud p with fsAt := s.clock }) := by
        rw [← htimed]
        exact (exec_audioFsEdge hruns hfollows o d).trans (congrArg Host.Outcome.next (if_neg ho))
      obtain ⟨hglitch, hslips, hodd, hstrays⟩ := fsStrays_spec (s.fsSeen p) port o
      have hapart := (by decide : ∀ p : Fin 8, Aud.SLIPS p ≠ Aud.PORT_STATE p ∧ Aud.FS_GLITCHES p ≠ Aud.PORT_STATE p) port
      rw [haud, hseen.rd (by simpa using hapart.1)] at hslips
      rw [haud] at hodd hstrays
      rw [haud, hseen.rd (by simpa using hapart.2)] at hglitch
      exact ⟨_, hexec, hglitch, hslips, hodd, (hseen.trans hstrays).mono (by simp [p]) (by simp [p])⟩
  · intro family s f x pm hruns
    refine ⟨fun hsource => ⟨fun hpin l raw e hlast hraw => ⟨fun hon => ?_, fun hoff hgap hodd => ?_⟩, fun hgoes => ?_⟩, fun hacquiring => ?_,
      fun n hn hlocked => ?_⟩
    · exact ⟨_, exec_wordclockEdge_expected hsource hruns hpin hlast hraw hon e, wordclockAccept_spec s family (s.clock - l) e⟩
    · have hset := setFamily_only s f { s.family f with rawAt := some s.clock, odd := [s.clock - raw] }
      have hcount := count_only (s.setFamily f { s.family f with rawAt := some s.clock, odd := [s.clock - raw] }) (Aud.FAMILY_GLITCHES f)
      refine ⟨_, exec_wordclockEdge_stray hsource hruns hpin hlast hraw hoff hgap hodd e, ?_, ?_, (hset.trans hcount).mono (by simp [f]) (by simp [f])⟩
      · exact (rd_count_counter (isCounter_family family _ (by simp)) _).trans (congrArg (countUp · 1) (hset.rd (by simp)))
      · exact (congrArg FsyncSt.lastAt ((hcount.family (by simp)).trans (family_setFamily_same ..))).trans hlast
    · have hat := at_only s (x.lastAt.getD s.clock + pm * 3 / 2)
      obtain ⟨hstops, hstopped, hstate, honly⟩ := wordclockStopped_spec (s.at (x.lastAt.getD s.clock + pm * 3 / 2)) family x
      exact ⟨_, exec_wordclockStop hsource hruns hgoes, hstops, honly.clock (by simp [sending]), hstopped, hstate,
        (hat.trans honly).mono (fun _ h => h) (fun _ h => h)⟩
    · obtain ⟨hstate, honly⟩ := familyTo_spec s family (st := 2) (by omega)
      exact ⟨_, congrArg Host.Outcome.next (if_pos ⟨hacquiring, hruns⟩), hstate, honly⟩
    · let u := s.count (Aud.FAMILY_SLIPS f)
      have hcount : OnlyChanges [] [Aud.FAMILY_SLIPS f] s u := count_only ..
      have htaken := slipsTaken_only u f n
      obtain ⟨hstate, honly⟩ := familyTo_spec ((List.range 8).foldl (fun t p => t.slipTaken f n p) u) family (st := 1) (by omega)
      refine ⟨_, exec_familySlip hn hlocked hruns, hstate, ?_, fun p hp => ?_, ((hcount.trans htaken).trans honly).mono (by simp) (by simp [f])⟩
      · rw [honly.rd (family_apart family _ (by simp [f])).1, htaken.rd (by simp)]
        exact rd_count_counter (isCounter_family family _ (by simp [f])) _
      · have howed : u.slipOwed f n p = s.slipOwed f n p := by
          have hapart : Aud.PORT_ENABLE p ≠ Aud.FAMILY_SLIPS f ∧ Aud.FAMILY p ≠ Aud.FAMILY_SLIPS f ∧ Aud.RATE_MULT p ≠ Aud.FAMILY_SLIPS f :=
            (by decide : ∀ p : Fin 8, ∀ f : Fin 2, Aud.PORT_ENABLE p ≠ Aud.FAMILY_SLIPS f ∧ Aud.FAMILY p ≠ Aud.FAMILY_SLIPS f ∧
              Aud.RATE_MULT p ≠ Aud.FAMILY_SLIPS f) ⟨p, hp⟩ family
          unfold State.slipOwed
          rw [hcount.aud (by simp), hcount.rd (by simpa using hapart.1), hcount.rd (by simpa using hapart.2.1), hcount.rd (by simpa using hapart.2.2)]
        rw [honly.aud (by simp [sending]), slipsTaken_aud f n List.nodup_range, if_pos (List.mem_range.2 hp), howed]
        rfl

end Sys2Proof.Machine

/-! Retraining of DRAM channels, and channels that fail (R433 to R435). -/

namespace Sys2Proof.Machine

/-! ## Parameters of a channel (Table 16-7) -/

theorem isWord_channel : ∀ c : Fin 8, ∀ id ∈ [Dram.CHANNEL_STATE c, Dram.EYE_MARGIN c, Dram.REFRESH_RATE c], isWord id = true := by decide

theorem isCounter_channel : ∀ c : Fin 8, ∀ id ∈ [Dram.RETRAINS c, Dram.RETRAIN_FAIL c, Dram.REFRESH_POSTPONED c, Dram.BURST_SPLITS c, Dram.WRITE_CRC_RETRIES c,
    Dram.BYTES_READ c, Dram.BYTES_WRITTEN c], isCounter id = true := by decide

theorem channel_apart : ∀ c : Fin 8, [Dram.CHANNEL_STATE c, Dram.EYE_MARGIN c, Dram.RETRAINS c, Dram.RETRAIN_FAIL c].Nodup := by decide

theorem eyeCode_lt (e : Nat × Nat) : eyeCode e < 2 ^ 32 := by
  unfold eyeCode
  omega

/-! ## Drift alarms (R433) -/

/-- The arbiter starts nothing outside a gap, nor while an activity runs. -/
theorem maintChoose_waits {s : State} (h : s.tick.gap = false ∨ s.tick.active.isSome = true) : s.maintChoose = s := by
  unfold State.maintChoose
  refine if_neg fun hchoose => ?_
  simp only [Bool.and_eq_true, Option.isNone_iff_eq_none] at hchoose
  obtain ⟨⟨⟨hgap, -⟩, hactive⟩, -⟩ := hchoose
  rcases h with h | h
  · simp [h] at hgap
  · simp [hactive] at h

/-- The channels with an alarm, and one more. -/
def alarmsWith (alarms : List Nat) (ch : Nat) : List Nat := if alarms.contains ch then alarms else alarms ++ [ch]

theorem mem_alarmsWith (alarms : List Nat) (ch : Nat) : ch ∈ alarmsWith alarms ch := by
  unfold alarmsWith
  split
  · next h => simpa using h
  · simp

theorem driftAlarm_spec {s : State} (h : s.tick.gap = false ∨ s.tick.active.isSome = true) (ch : Nat) :
    let t := s.driftAlarm ch
    t.dram = { s.dram with alarms := alarmsWith s.dram.alarms ch } ∧ t.tick.waiting = setFlag s.tick.waiting 1 ∧ (1, ch) ∈ t.tick.chans ∧
      OnlyChanges [.dram, .tick] [] s t := by
  intro t
  let u : State := { s with dram := { s.dram with alarms := alarmsWith s.dram.alarms ch } }
  have ht : t = u.asked 1 ch := maintChoose_waits h
  rw [ht]
  refine ⟨rfl, rfl, ?_, (setDram_only s _).trans (asked_only u 1 ch)⟩
  show (1, ch) ∈ if s.tick.chans.contains (1, ch) then s.tick.chans else s.tick.chans ++ [(1, ch)]
  split
  · next hasked => simpa using hasked
  · simp

/-! ## Channels that fail (R435) -/

theorem ledgerPut_global (s : State) (lo hi : Nat) (b : List Byte) : (s.ledgerPut lo hi b).pow.global = s.pow.global := by
  unfold State.ledgerPut
  split
  · obtain ⟨ch, -, -, honly⟩ := maintChoose_spec (State.asked { s with pow := { s.pow with ledgerQueue := s.pow.ledgerQueue ++ [(lo, hi, b)] } } 3 0)
    exact (congrArg PowerSt.global (honly.pow (by simp)) :)
  · exact (congrArg PowerSt.global ((count_only _ Obs.LEDGER_WRITES).pow (by simp)) :)

theorem recordFailed_global (s : State) (ch : Nat) : (s.recordFailed ch).pow.global = s.pow.global :=
  (ledgerPut_global ..).trans (congrArg PowerSt.global ((wrAll_only ..).pow (by simp)))

theorem enterBoot_spec (s : State) {cause : Nat} (hcause : cause < 2 ^ 32) :
    (s.enterBoot cause).pow.global = .boot ∧ (s.enterBoot cause).rd Sys.LAST_RESTART_CAUSE = cause := by
  refine ⟨congrArg PowerSt.global (setGlobal_boot_pow _), ?_⟩
  unfold State.enterBoot
  rw [(setGlobal_boot_only _).rd (by decide)]
  exact rd_wr_word (by decide) hcause _

/-- Outside FAULT_HOLD a channel that fails restarts the device. -/
theorem channelFailed_restarts {s : State} (hhold : s.pow.global ≠ .faultHold) (ch cause : Nat) :
    (s.channelFailed ch cause).pow.global = .boot ∧ (s.channelFailed ch cause).rd Sys.LAST_RESTART_CAUSE = 4 := by
  unfold State.channelFailed
  extract_lets u v
  have hv : v.pow.global = s.pow.global := by
    rw [← recordFailed_global s ch]
    unfold v
    split
    · exact congrArg PowerSt.global ((notify_only ..).pow (by simp [sending]))
    · rfl
  rw [if_neg (hv ▸ hhold)]
  exact enterBoot_spec _ (by omega)

/-! ## Retraining (R434) -/

/-- A channel comes back from its retraining. -/
def State.retrained (s : State) (ch : Nat) : State :=
  let u := ((s.wr (Dram.CHANNEL_STATE ch) 1).count (Dram.RETRAINS ch)).clearDebts ch
  { u with dram := { u.dram with alarms := u.dram.alarms.filter fun (x : Nat) => x != ch } }

theorem retrained_spec (s : State) (ch : Fin 8) :
    let t := s.retrained ch
    t.dram = { s.dram with debts := s.dram.debts.filter (fun (e : Nat × Nat) => e.1 / 1024 != ch.val), alarms := s.dram.alarms.filter fun (x : Nat) => x != ch.val } ∧
      t.rd (Dram.CHANNEL_STATE ch) = 1 ∧ t.rd (Dram.RETRAINS ch) = countUp (s.rd (Dram.RETRAINS ch)) 1 ∧
      OnlyChanges [.dram] [Dram.CHANNEL_STATE ch, Dram.RETRAINS ch] s t := by
  intro t
  let u := (s.wr (Dram.CHANNEL_STATE ch) 1).count (Dram.RETRAINS ch)
  have hstate := wr_only s (Dram.CHANNEL_STATE ch) 1
  have hcount : OnlyChanges [] [Dram.RETRAINS ch] (s.wr (Dram.CHANNEL_STATE ch) 1) u := count_only ..
  have hdebts := setDram_only u { u.dram with debts := u.dram.debts.filter fun (e : Nat × Nat) => e.1 / 1024 != ch.val }
  have halarms := setDram_only (u.clearDebts ch) { (u.clearDebts ch).dram with alarms := (u.clearDebts ch).dram.alarms.filter fun (x : Nat) => x != ch.val }
  have hset : OnlyChanges [.dram] [] u t := (hdebts.trans halarms).mono (by simp) (by simp)
  have hu : u.dram = s.dram := (hstate.trans hcount).2.1 .dram (by simp)
  have hapart := (by decide : ∀ c : Fin 8, Dram.CHANNEL_STATE c ≠ Dram.RETRAINS c) ch
  refine ⟨?_, ?_, ?_, ((hstate.trans hcount).trans hset).mono (by simp) (by simp)⟩
  · rw [← hu]
    rfl
  · rw [hset.rd (by simp), hcount.rd (by simpa using hapart)]
    exact rd_wr_word (isWord_channel ch _ (by simp)) (by omega) s
  · rw [hset.rd (by simp), ← hstate.rd (by simpa using hapart.symm)]
    exact rd_count_counter (isCounter_channel ch _ (by simp)) _

/-- A setting is found: it is kept. -/
def State.eyeKept (s : State) (ch : Nat) (e : Nat × Nat) : State :=
  let u : State := { s with dram := { s.dram with missed := s.dram.missed.filter fun (x : Nat) => x != ch } }
  (u.wr (Dram.EYE_MARGIN ch) (eyeCode e)).trainedNow ch

theorem eyeKept_spec (s : State) (ch : Fin 8) (e : Nat × Nat) :
    let t := s.eyeKept ch e
    t.dram.missed = s.dram.missed.filter (fun (x : Nat) => x != ch.val) ∧ t.dram.alarms = s.dram.alarms ∧ t.dram.debts = s.dram.debts ∧
      t.rd (Dram.EYE_MARGIN ch) = eyeCode e ∧ OnlyChanges [.dram] [Dram.EYE_MARGIN ch] s t := by
  intro t
  let u : State := { s with dram := { s.dram with missed := s.dram.missed.filter fun (x : Nat) => x != ch.val } }
  have hmissed : OnlyChanges [.dram] [] s u := setDram_only ..
  have heye := wr_only u (Dram.EYE_MARGIN ch) (eyeCode e)
  have htrained : OnlyChanges [.dram] [] (u.wr (Dram.EYE_MARGIN ch) (eyeCode e)) t := setDram_only ..
  have hdram : (u.wr (Dram.EYE_MARGIN ch) (eyeCode e)).dram = u.dram := heye.2.1 .dram (by simp)
  refine ⟨(congrArg DramSt.missed hdram :), (congrArg DramSt.alarms hdram :), (congrArg DramSt.debts hdram :), ?_, ((hmissed.trans heye).trans htrained).mono (by simp) (by simp)⟩
  rw [htrained.rd (by simp)]
  exact rd_wr_word (isWord_channel ch _ (by simp)) (eyeCode_lt e) u

/-- Settles O49: what a retraining leaves, with a setting, without one, and without one again. -/
theorem retrainingKeepsOrLosesAChannel : Obligations.RetrainingKeepsOrLosesAChannel := by
  unfold Obligations.RetrainingKeepsOrLosesAChannel
  intro ch s hstate
  obtain ⟨hdram, hback, hcount, honly⟩ := retrained_spec s ch
  have hnot := channel_apart ch
  simp only [List.nodup_cons, List.mem_cons, List.not_mem_nil, or_false, not_or, not_false_eq_true, List.nodup_nil, and_true] at hnot
  obtain ⟨⟨hse, hsr, hsf⟩, ⟨her, hef⟩, hrf⟩ := hnot
  have halarms : ch.val ∉ (s.retrained ch).dram.alarms := by
    rw [hdram]
    simp
  refine ⟨fun e => ?_, fun hfirst hquiet => ?_, fun hagain hhold => ?_⟩
  · have hexec : exec (.dramRetrainDone ch (some e)) s = .next ((s.retrained ch).eyeKept ch e) :=
      congrArg Host.Outcome.next (if_neg (by simp [hstate]))
    obtain ⟨hmissed, hsame, hdebts, heye, hkept⟩ := eyeKept_spec (s.retrained ch) ch e
    refine ⟨_, hexec, (hkept.rd (by simpa using hse)).trans hback, heye, (hkept.rd (by simpa using Ne.symm her)).trans hcount, hsame ▸ halarms, ?_, ?_,
      (honly.trans hkept).mono (by simp) (by simp)⟩
    · rw [hmissed]
      simp
    · rw [hdebts, hdram]
      intro d hd
      simpa using (List.mem_filter.1 hd).2
  · have hmissed : ¬(s.retrained ch).dram.missed.contains ch.val = true := by
      rw [hdram]
      simpa using hfirst
    let u := (s.retrained ch).count (Dram.RETRAIN_FAIL ch)
    let v : State := { u with dram := { u.dram with missed := u.dram.missed ++ [ch.val] } }
    have hfail : OnlyChanges [] [Dram.RETRAIN_FAIL ch] (s.retrained ch) u := count_only ..
    have hu : u.dram = (s.retrained ch).dram := hfail.2.1 .dram (by simp)
    have hmissed' : ¬u.dram.missed.contains ch.val = true := by rwa [hu]
    have hexec : exec (.dramRetrainDone ch none) s = .next (v.driftAlarm ch) :=
      congrArg Host.Outcome.next ((if_neg (by simp [hstate])).trans (if_neg hmissed'))
    have hset : OnlyChanges [.dram] [] u v := setDram_only ..
    have hv := (honly.trans hfail).trans hset
    have hquiet' : v.tick.gap = false ∨ v.tick.active.isSome = true := by rwa [hv.tick (by simp)]
    obtain ⟨hdrift, hwaiting, hchans, halarm⟩ := driftAlarm_spec hquiet' ch
    refine ⟨_, hexec, ?_, ?_, ?_, ?_, ?_, ?_, hchans, (hv.trans halarm).mono (by simp) (by simp)⟩
    · rw [halarm.rd (by simp), hset.rd (by simp), hfail.rd (by simpa using hsf)]
      exact hback
    · rw [hdrift]
      exact mem_alarmsWith ..
    · rw [hdrift]
      exact List.mem_append_right _ (List.mem_singleton_self _)
    · rw [halarm.rd (by simp), hset.rd (by simp), hfail.rd (by simpa using hrf)]
      exact hcount
    · rw [halarm.rd (by simp), hset.rd (by simp), ← honly.rd (by simpa using ⟨Ne.symm hsf, Ne.symm hrf⟩)]
      exact rd_count_counter (isCounter_channel ch _ (by simp)) _
    · rw [hwaiting, bit_setFlag]
      simp
  · let u := (s.retrained ch).count (Dram.RETRAIN_FAIL ch)
    have hfail : OnlyChanges [] [Dram.RETRAIN_FAIL ch] (s.retrained ch) u := count_only ..
    have hmissed : u.dram.missed.contains ch.val = true := by
      rw [hfail.2.1 .dram (by simp), hdram]
      simpa using hagain
    have hexec : exec (.dramRetrainDone ch none) s = .next (u.channelFailed ch 1) :=
      congrArg Host.Outcome.next ((if_neg (by simp [hstate])).trans (if_pos hmissed))
    have hheld : u.pow.global ≠ .faultHold := by rwa [(honly.trans hfail).pow (by simp)]
    exact ⟨_, hexec, channelFailed_restarts hheld ch 1⟩

end Sys2Proof.Machine

/-! Commands of the DRAM controller: banks that close, refreshes, debts that are repaid (R428 to R430). -/

namespace Sys2Proof.Machine

theorem OnlyChanges.dram {ps : List Part} {ids : List Nat} {s t : State} (h : OnlyChanges ps ids s t) (hp : .dram ∉ ps) : t.dram = s.dram :=
  h.2.1 .dram hp

/-! ## A bank closes (R430) -/

/-- The rows beside one. -/
def State.nearRows (s : State) (row : Nat) : List Nat :=
  (List.range (s.rd Dram.PNR_DISTANCE)).flatMap fun i =>
    (if i < row then [row - i - 1] else []) ++ (if row + i + 1 < s.bankRows then [row + i + 1] else [])

/-- The precharge of a bank. -/
def State.precharged (s : State) (k : Nat) : State :=
  ({ s with dram := { s.dram with rows := tdel s.dram.rows k } }).emit (.dram (k / 1024) (k / 512 % 2) "PRE" k)

/-- The refresh that waits for the row of a bank is taken up. -/
def State.nearTaken (s : State) (k : Nat) : State := { s with dram := { s.dram with neighbours := tdel s.dram.neighbours k } }

/-- Rows of a bank are activated one after the other. -/
def State.rowsActivated (s : State) (k : Nat) (near : List Nat) : State :=
  near.foldl (fun (t : State) r => (t.emit (.dram (k / 1024) (k / 512 % 2) "ACT" r)).emit (.dram (k / 1024) (k / 512 % 2) "PRE" k)) s

/-- The rows beside the one that has closed are activated, outside FAULT_HOLD. -/
def State.nearRefreshed (s : State) (k row : Nat) : State :=
  if (s.nearTaken k).dram.frozen then s.nearTaken k
  else ((s.nearTaken k).rowsActivated k (s.nearRows row)).countBy (Dram.PNR_ACTIVATES (k / 1024)) (s.nearRows row).length

theorem closeBank_plain {s : State} {k : Nat} (h : tfind s.dram.neighbours k = none) : s.closeBank k = s.precharged k := by
  have hn : tfind (s.precharged k).dram.neighbours k = none :=
    (congrArg (fun d : DramSt => tfind d.neighbours k) ((emitQuiet_only _ rfl).dram (by simp))).trans h
  unfold State.closeBank
  dsimp only
  split
  · rfl
  · next row hsome => exact absurd (hn.symm.trans hsome) (by simp)

theorem closeBank_near {s : State} {k row : Nat} (h : tfind s.dram.neighbours k = some row) : s.closeBank k = (s.precharged k).nearRefreshed k row := by
  have hn : tfind (s.precharged k).dram.neighbours k = some row :=
    (congrArg (fun d : DramSt => tfind d.neighbours k) ((emitQuiet_only _ rfl).dram (by simp))).trans h
  unfold State.closeBank
  dsimp only
  split
  · next hnone => exact absurd (hn.symm.trans hnone) (by simp)
  · next row' hsome =>
    obtain rfl : row = row' := Option.some.inj (hn.symm.trans hsome)
    rfl

theorem precharged_spec (s : State) (k : Nat) :
    (s.precharged k).dram = { s.dram with rows := tdel s.dram.rows k } ∧ (s.precharged k).out = .dram (k / 1024) (k / 512 % 2) "PRE" k :: s.out ∧
      OnlyChanges [.dram, .out] [] s (s.precharged k) := by
  have hset := setDram_only s { s.dram with rows := tdel s.dram.rows k }
  have hemit := emitQuiet_only ({ s with dram := { s.dram with rows := tdel s.dram.rows k } } : State) (o := .dram (k / 1024) (k / 512 % 2) "PRE" k) rfl
  exact ⟨hemit.dram (by simp), emit_out .., (hset.trans hemit).mono (by simp) (by simp)⟩

theorem rowsActivated_spec (s : State) (k : Nat) (near : List Nat) :
    s.out <:+ (s.rowsActivated k near).out ∧ OnlyChanges [.out] [] s (s.rowsActivated k near) :=
  ⟨foldl_suffix near (fun t r _ => (emit_suffix ..).trans (emit_suffix ..)) s,
    .foldl near (.nothing s) fun t r _ => (emitQuiet_only _ rfl).then (emitQuiet_only _ rfl)⟩

theorem nearRefreshed_spec (s : State) (k row : Nat) :
    (s.nearRefreshed k row).dram = { s.dram with neighbours := tdel s.dram.neighbours k } ∧ s.out <:+ (s.nearRefreshed k row).out ∧
      OnlyChanges [.dram, .out] [Dram.PNR_ACTIVATES (k / 1024)] s (s.nearRefreshed k row) := by
  have hset : OnlyChanges [.dram] [] s (s.nearTaken k) := setDram_only ..
  obtain ⟨hout, hnear⟩ := rowsActivated_spec (s.nearTaken k) k (s.nearRows row)
  have hcount := countBy_only ((s.nearTaken k).rowsActivated k (s.nearRows row)) (Dram.PNR_ACTIVATES (k / 1024)) (s.nearRows row).length
  unfold State.nearRefreshed
  split
  · exact ⟨rfl, List.suffix_rfl, hset.mono (by simp) (by simp)⟩
  · refine ⟨(hnear.trans hcount).dram (by simp), ?_, ((hset.trans hnear).trans hcount).mono (by simp) (by simp)⟩
    rw [hcount.out (by simp)]
    exact hout

/-- A bank that closes loses its row; the rest of the controller stays, but for the refreshes that waited for the row. -/
theorem closeBank_spec (s : State) (k : Nat) :
    (∃ ns, (s.closeBank k).dram = { s.dram with rows := tdel s.dram.rows k, neighbours := ns }) ∧ s.out <:+ (s.closeBank k).out ∧
      OnlyChanges [.dram, .out] [Dram.PNR_ACTIVATES (k / 1024)] s (s.closeBank k) := by
  obtain ⟨hdram, hout, honly⟩ := precharged_spec s k
  have hsuffix : s.out <:+ (s.precharged k).out := hout ▸ List.suffix_cons ..
  cases hn : tfind s.dram.neighbours k with
  | none =>
    rw [closeBank_plain hn]
    exact ⟨⟨_, hdram⟩, hsuffix, honly.mono (by simp) (by simp)⟩
  | some row =>
    rw [closeBank_near hn]
    obtain ⟨hdram', hsuffix', honly'⟩ := nearRefreshed_spec (s.precharged k) k row
    exact ⟨⟨_, by rw [hdram', hdram]⟩, hsuffix.trans hsuffix', (honly.trans honly').mono (by simp) (by simp)⟩

/-! ## Banks close before a refresh (R428) -/

/-- What closing some banks of a channel leaves: rows and waiting neighbours of the controller, and outputs. -/
def BanksClosed (ch : Nat) (s t : State) : Prop :=
  (∃ rows ns, t.dram = { s.dram with rows := rows, neighbours := ns }) ∧ s.out <:+ t.out ∧ OnlyChanges [.dram, .out] [Dram.PNR_ACTIVATES ch] s t

theorem BanksClosed.trans {ch : Nat} {s t u : State} (h : BanksClosed ch s t) (g : BanksClosed ch t u) : BanksClosed ch s u := by
  obtain ⟨⟨rows, ns, hdram⟩, hout, honly⟩ := h
  obtain ⟨⟨rows', ns', hdram'⟩, hout', honly'⟩ := g
  exact ⟨⟨rows', ns', by rw [hdram', hdram]⟩, hout.trans hout', honly.then honly'⟩

/-- Open rows close one after the other. -/
def State.rowsClosed (s : State) (l : List (Nat × Nat)) : State := l.foldl (fun (t : State) e => t.closeBank e.1) s

theorem rowsClosed_spec {ch : Nat} {l : List (Nat × Nat)} (hl : ∀ e ∈ l, e.1 / 1024 = ch) (s : State) :
    BanksClosed ch s (s.rowsClosed l) ∧ ∀ e ∈ (s.rowsClosed l).dram.rows, e ∈ s.dram.rows ∧ ∀ x ∈ l, e.1 ≠ x.1 := by
  induction l generalizing s with
  | nil => exact ⟨⟨⟨_, _, rfl⟩, List.suffix_rfl, .nothing s⟩, fun e he => ⟨he, by simp⟩⟩
  | cons x l ih =>
    obtain ⟨⟨ns, hdram⟩, hout, honly⟩ := closeBank_spec s x.1
    rw [hl x (by simp)] at honly
    obtain ⟨hclosed, hrows⟩ := ih (fun e he => hl e (by simp [he])) (s.closeBank x.1)
    refine ⟨BanksClosed.trans ⟨⟨_, ns, hdram⟩, hout, honly⟩ hclosed, fun e he => ?_⟩
    obtain ⟨hmem, hne⟩ := hrows e he
    rw [hdram] at hmem
    obtain ⟨hmem, hx⟩ := List.mem_filter.1 hmem
    exact ⟨hmem, fun y hy => (List.mem_cons.1 hy).elim (fun h => h ▸ by simpa using hx) (hne y)⟩

/-- The banks that a refresh covers are of its channel. -/
theorem refreshBanks_channel {ch sub rank k : Nat} {index : Option Nat} (hsub : sub < 2) (hrank : rank < 2) (h : refreshBanks ch sub rank index k = true) :
    k / 1024 = ch := by
  unfold refreshBanks at h
  simp only [Bool.and_eq_true, beq_iff_eq] at h
  omega

theorem closeBanks_spec {ch : Nat} {mine : Nat → Bool} (hmine : ∀ k, mine k = true → k / 1024 = ch) (s : State) (n : Nat) :
    let t := s.closeBanks mine n
    t.dram.debts = s.dram.debts ∧ s.out <:+ t.out ∧ ((∀ e ∈ s.dram.rows, mine e.1 = false) → t.out = s.out) ∧ (∀ e ∈ t.dram.rows, mine e.1 = false ∧ e ∈ s.dram.rows) ∧
      OnlyChanges [.dram, .out] [Dram.PNR_ACTIVATES ch] s t := by
  intro t
  let l := s.dram.rows.filter fun e => mine e.1
  obtain ⟨⟨⟨rows, ns, hdram⟩, hout, honly⟩, hrows⟩ := rowsClosed_spec (l := l) (fun e he => hmine _ (List.mem_filter.1 he).2) s
  have hset : OnlyChanges [.dram] [] (s.rowsClosed l) t := setDram_only ..
  refine ⟨(congrArg DramSt.debts hdram :), hout, fun hnone => ?_, fun e he => ?_, (honly.trans hset).mono (by simp) (by simp)⟩
  · have hl : l = [] := List.filter_eq_nil_iff.2 fun e he => by simp [hnone e he]
    show (s.rowsClosed l).out = s.out
    rw [hl]
    rfl
  · obtain ⟨hmem, hne⟩ := hrows e he
    refine ⟨?_, hmem⟩
    by_contra h
    exact hne e (List.mem_filter.2 ⟨hmem, by simpa using h⟩) rfl

/-! ## Refreshes (R428, R429) -/

/-- The refresh of a bank index, or of a rank. -/
def refreshOutput (ch sub rank : Nat) (index : Option Nat) : Output :=
  match index with
  | none => .dram ch sub "REFab" rank
  | some i => .dram ch sub "REFsb" (4 * rank + i)

/-- Some outputs of one kind. -/
def State.emitTimes (s : State) (o : Output) (n : Nat) : State := (List.range n).foldl (fun (t : State) _ => t.emit o) s

theorem emitTimes_spec (s : State) {o : Output} (ho : o.frames = none) (n : Nat) :
    (s.emitTimes o n).out = List.replicate n o ++ s.out ∧ OnlyChanges [.out] [] s (s.emitTimes o n) := by
  refine ⟨?_, .foldl _ (.nothing s) fun t _ _ => emitQuiet_only t ho⟩
  induction n with
  | zero => rfl
  | succ n ih =>
    have hstep : s.emitTimes o (n + 1) = (s.emitTimes o n).emit o := by
      unfold State.emitTimes
      rw [List.range_succ, List.foldl_append]
      rfl
    rw [hstep, emit_out, ih, List.replicate_succ]
    rfl

theorem refresh_eq (s : State) (ch sub rank : Nat) (index : Option Nat) (n : Nat) :
    s.refresh ch sub rank index n = (s.closeBanks (refreshBanks ch sub rank index) n).emitTimes (refreshOutput ch sub rank index) n := by
  cases index <;> rfl

/-- What a refresh does, `n` times over. -/
theorem refresh_spec {ch sub rank : Nat} (hsub : sub < 2) (hrank : rank < 2) (s : State) (index : Option Nat) (n : Nat) :
    let t := s.refresh ch sub rank index n
    let mine := refreshBanks ch sub rank index
    t.dram.debts = s.dram.debts ∧
      (∃ first, t.out = List.replicate n (refreshOutput ch sub rank index) ++ first ++ s.out ∧ ((∀ e ∈ s.dram.rows, mine e.1 = false) → first = [])) ∧
      (∀ e ∈ t.dram.rows, mine e.1 = false) ∧ OnlyChanges [.dram, .out] [Dram.PNR_ACTIVATES ch] s t := by
  intro t mine
  obtain ⟨hdebts, ⟨first, hfirst⟩, hnone, hrows, honly⟩ := closeBanks_spec (mine := mine) (fun k => refreshBanks_channel hsub hrank) s n
  obtain ⟨hout, hemit⟩ := emitTimes_spec (s.closeBanks mine n) (o := refreshOutput ch sub rank index) (by cases index <;> rfl) n
  have ht : t = (s.closeBanks mine n).emitTimes (refreshOutput ch sub rank index) n := refresh_eq ..
  rw [ht]
  have hdram := hemit.dram (by simp)
  refine ⟨(congrArg DramSt.debts hdram).trans hdebts, ⟨first, ?_, fun h => ?_⟩, fun e he => ?_, (honly.trans hemit).mono (by simp) (by simp)⟩
  · rw [hout, ← hfirst, List.append_assoc]
  · have := hfirst.trans (hnone h)
    simpa using this
  · rw [hdram] at he
    exact (hrows e he).1

/-! ## Debts (R429) -/

theorem setDebt_spec (s : State) (key d : Nat) : tget (s.setDebt key d).dram.debts key 0 = d ∧ (s.setDebt key d).dram.rows = s.dram.rows ∧
    OnlyChanges [.dram] [] s (s.setDebt key d) :=
  ⟨tget_tset_same .., rfl, setDram_only ..⟩

/-- One debt is repaid. -/
def State.debtRepaid (s : State) (ch sub : Nat) (e : Nat × Nat) : State :=
  (s.setDebt e.1 0).refresh ch sub (e.1 / 256 % 2) (if e.1 % 256 = 255 then none else some (e.1 % 256)) e.2

theorem debtRepaid_spec {ch sub : Nat} (hsub : sub < 2) (s : State) (e : Nat × Nat) :
    (∀ d ∈ (s.debtRepaid ch sub e).dram.debts, d ∈ s.dram.debts ∧ d.1 ≠ e.1) ∧ OnlyChanges [.dram, .out] [Dram.PNR_ACTIVATES ch] s (s.debtRepaid ch sub e) := by
  obtain ⟨-, -, hset⟩ := setDebt_spec s e.1 0
  obtain ⟨hdebts, -, -, honly⟩ := refresh_spec (ch := ch) hsub (Nat.mod_lt (e.1 / 256) (by decide : 0 < 2)) (s.setDebt e.1 0)
    (if e.1 % 256 = 255 then none else some (e.1 % 256)) e.2
  refine ⟨fun d hd => ?_, (hset.trans honly).mono (by simp) (by simp)⟩
  have hdel : (s.debtRepaid ch sub e).dram.debts = tdel s.dram.debts e.1 := hdebts.trans (if_pos rfl : tset s.dram.debts e.1 0 0 = _)
  rw [hdel] at hd
  obtain ⟨hmem, hne⟩ := List.mem_filter.1 hd
  exact ⟨hmem, by simpa using hne⟩

theorem repayDebts_free {s : State} {ch sub : Nat} :
    s.repayDebts ch sub [] = (s.dram.debts.filter fun e => e.1 / 512 == 2 * ch + sub).foldl (fun (t : State) e => t.debtRepaid ch sub e) s := rfl

theorem repayDebts_spec {ch sub : Nat} (hsub : sub < 2) (s : State) :
    (∀ e ∈ (s.repayDebts ch sub []).dram.debts, e.1 / 512 ≠ 2 * ch + sub) ∧ OnlyChanges [.dram, .out] [Dram.PNR_ACTIVATES ch] s (s.repayDebts ch sub []) := by
  rw [repayDebts_free]
  have hrepaid (l : List (Nat × Nat)) (s : State) : ∀ d ∈ (l.foldl (fun (t : State) e => t.debtRepaid ch sub e) s).dram.debts,
      d ∈ s.dram.debts ∧ ∀ e ∈ l, d.1 ≠ e.1 := by
    induction l generalizing s with
    | nil => exact fun d hd => ⟨hd, by simp⟩
    | cons x l ih =>
      intro d hd
      obtain ⟨hmem, hne⟩ := ih _ d hd
      obtain ⟨hmem, hx⟩ := (debtRepaid_spec hsub s x).1 d hmem
      exact ⟨hmem, fun e he => (List.mem_cons.1 he).elim (fun h => h ▸ hx) (hne e)⟩
  refine ⟨fun e he hk => ?_, .foldl _ (.nothing s) fun t e _ => (debtRepaid_spec hsub t e).2⟩
  obtain ⟨hmem, hne⟩ := hrepaid _ s e he
  exact hne e (List.mem_filter.2 ⟨hmem, by simpa using hk⟩) rfl

theorem repayDebts_none {s : State} {ch sub : Nat} (h : ∀ e ∈ s.dram.debts, e.1 / 512 ≠ 2 * ch + sub) (hits : List Nat) : s.repayDebts ch sub hits = s := by
  unfold State.repayDebts
  rw [List.filter_eq_nil_iff.2 fun e he => by simpa using h e he]
  rfl

end Sys2Proof.Machine

/-! Polls, write errors and the choice of a command (R426, R428 to R431, R433). -/

namespace Sys2Proof.Machine

/-! ## MR4 polls (R428, R433) -/

/-- The rate that a poll reports, with its notice. -/
def State.rateTaken (s : State) (ch : Nat) (doubled : Bool) : State :=
  let u := s.wr (Dram.REFRESH_RATE ch) (if doubled then 1 else 0)
  if doubled ∧ s.rd (Dram.REFRESH_RATE ch) = 0 then u.dramNotify 4 ch 0xFF 1 else u

/-- The temperature that a poll reports. -/
def State.tempTaken (s : State) (ch : Nat) (temp : Int) : State := { s with dram := { s.dram with temps := tset s.dram.temps ch 0 temp } }

theorem exec_dramMr4Poll {s : State} {ch : Fin 8} (hserves : s.dramServes ch = true) (doubled : Bool) (temp : Int) :
    exec (.dramMr4Poll ch doubled temp) s =
      .next (let u := (s.rateTaken ch doubled).tempTaken ch temp
        if (u.rd Dram.DRIFT_TEMP : Int) ≤ (temp - tget u.dram.trained ch 0).natAbs then u.driftAlarm ch else u) :=
  congrArg Host.Outcome.next (if_neg (by simp [hserves]))

theorem refreshRate_apart : ∀ c : Fin 8, Dram.REFRESH_RATE c ∉ sendIds ∧ Dram.DRIFT_TEMP ∉ Dram.REFRESH_RATE c :: sendIds := by decide

theorem rateTaken_spec (s : State) (ch : Fin 8) (doubled : Bool) :
    let t := s.rateTaken ch doubled
    t.rd (Dram.REFRESH_RATE ch) = (if doubled then 1 else 0) ∧ OnlyChanges sending (Dram.REFRESH_RATE ch :: sendIds) s t ∧
      (doubled = false ∨ s.rd (Dram.REFRESH_RATE ch) ≠ 0 → OnlyChanges [] [Dram.REFRESH_RATE ch] s t) := by
  have hw := wr_only s (Dram.REFRESH_RATE ch) (if doubled then 1 else 0)
  have hrate : (s.wr (Dram.REFRESH_RATE ch) (if doubled then 1 else 0)).rd (Dram.REFRESH_RATE ch) = if doubled then 1 else 0 :=
    rd_wr_word (isWord_channel ch _ (by simp)) (by split <;> omega) s
  unfold State.rateTaken
  dsimp only
  split
  · next hnotice =>
    have hnotify : OnlyChanges sending sendIds _ ((s.wr (Dram.REFRESH_RATE ch) (if doubled then 1 else 0)).dramNotify 4 ch 0xFF 1) := notify_only ..
    exact ⟨(hnotify.rd (refreshRate_apart ch).1).trans hrate, (hw.trans hnotify).mono (by simp) (by simp), fun h => by
      obtain ⟨hdoubled, hwas⟩ := hnotice
      simp [hdoubled, hwas] at h⟩
  · exact ⟨hrate, hw.mono (by simp) (by simp), fun _ => hw⟩

/-! ## Write errors (R431) -/

/-- The held writes of a channel, to be issued again. -/
def State.writesAgain (s : State) (ch : Nat) : List HeldWrite := (s.heldWrites ch).map fun (w : HeldWrite) => { w with at' := s.clock, fails := w.fails + 1 }

/-- Writes are issued in their order. -/
def State.writesIssued (s : State) (ch : Nat) (l : List HeldWrite) : State := l.foldl (fun (t : State) (w : HeldWrite) => t.emit (.dram ch w.sub "WR" w.addr)) s

/-- The state after an alert of a channel. -/
def State.alerted (s : State) (ch : Nat) : State :=
  let u : State := { s with dram := { s.dram with held := tset s.dram.held ch [] (s.writesAgain ch) } }
  ((u.count (Dram.WRITE_CRC_RETRIES ch)).driftAlarm ch).writesIssued ch (s.writesAgain ch)

theorem exec_dramAlertN {s : State} {ch : Fin 8} (hserves : s.dramServes ch = true) (hcrc : s.rd Dram.WRITE_CRC_ENABLE = 1) :
    exec (.dramAlertN ch) s =
      .next (if (s.writesAgain ch).any (fun (w : HeldWrite) => decide (4 ≤ w.fails)) then (s.alerted ch).channelFailed ch 2 else s.alerted ch) :=
  congrArg Host.Outcome.next (if_neg (by simp [hserves, hcrc]))

theorem writesIssued_spec (s : State) (ch : Nat) (l : List HeldWrite) :
    (s.writesIssued ch l).out = (l.map fun (w : HeldWrite) => Output.dram ch w.sub "WR" w.addr).reverse ++ s.out ∧
      OnlyChanges [.out] [] s (s.writesIssued ch l) := by
  refine ⟨?_, .foldl l (.nothing s) fun t w _ => emitQuiet_only t rfl⟩
  induction l generalizing s with
  | nil => rfl
  | cons w l ih =>
    refine (ih (s.emit (.dram ch w.sub "WR" w.addr))).trans ?_
    rw [emit_out]
    simp

theorem alerted_spec {s : State} (hquiet : s.tick.gap = false ∨ s.tick.active.isSome = true) (ch : Fin 8) :
    let t := s.alerted ch
    t.out = ((s.heldWrites ch).map fun (w : HeldWrite) => Output.dram ch w.sub "WR" w.addr).reverse ++ s.out ∧
      t.rd (Dram.WRITE_CRC_RETRIES ch) = countUp (s.rd (Dram.WRITE_CRC_RETRIES ch)) 1 ∧ ch.val ∈ t.dram.alarms ∧
      tget t.dram.held ch [] = s.writesAgain ch ∧ OnlyChanges [.dram, .tick, .out] [Dram.WRITE_CRC_RETRIES ch] s t := by
  intro t
  let u : State := { s with dram := { s.dram with held := tset s.dram.held ch [] (s.writesAgain ch) } }
  let v := u.count (Dram.WRITE_CRC_RETRIES ch)
  have hset : OnlyChanges [.dram] [] s u := setDram_only ..
  have hcount : OnlyChanges [] [Dram.WRITE_CRC_RETRIES ch] u v := count_only ..
  have hquiet' : v.tick.gap = false ∨ v.tick.active.isSome = true := by rwa [hcount.tick (by simp)]
  obtain ⟨hdram, -, -, halarm⟩ := driftAlarm_spec hquiet' ch
  have hout := (writesIssued_spec (v.driftAlarm ch) ch (s.writesAgain ch)).1
  have hissued : OnlyChanges [.out] [] (v.driftAlarm ch) t := (writesIssued_spec ..).2
  have hu : v.dram = u.dram := hcount.dram (by simp)
  have ht : t.dram = { u.dram with alarms := alarmsWith u.dram.alarms ch } := by rw [hissued.dram (by simp), hdram, hu]
  refine ⟨?_, ?_, ?_, ?_, (((hset.trans hcount).trans halarm).trans hissued).mono (by simp) (by simp)⟩
  · refine hout.trans ?_
    rw [halarm.out (by simp), hcount.out (by simp), hset.out (by simp), State.writesAgain, List.map_map]
    rfl
  · rw [hissued.rd (by simp), halarm.rd (by simp), ← hset.rd (id := Dram.WRITE_CRC_RETRIES ch) (by simp)]
    exact rd_count_counter (isCounter_channel ch _ (by simp)) u
  · rw [ht]
    exact mem_alarmsWith ..
  · rw [ht]
    exact tget_tset_same ..

/-! ## The choice of a request (R426) -/

/-- The older of two requests, the first on equal ages. -/
def olderOf (best : Option DramReq) (r : DramReq) : Option DramReq :=
  match best with
  | none => some r
  | some b => if b.age < r.age then some r else best

theorem oldest_eq (l : List DramReq) : oldest l = l.foldl olderOf none := rfl

theorem olderOf_cases (best : Option DramReq) (r : DramReq) : olderOf best r = some r ∨ olderOf best r = best := by
  unfold olderOf
  split
  · exact .inl rfl
  · split
    · exact .inl rfl
    · exact .inr rfl

theorem olderOf_isSome (best : Option DramReq) (r : DramReq) : (olderOf best r).isSome = true := by
  unfold olderOf
  split
  · rfl
  · split <;> rfl

theorem oldest_mem {l : List DramReq} {r : DramReq} (h : oldest l = some r) : r ∈ l := by
  have hfold (l : List DramReq) (best : Option DramReq) (h : l.foldl olderOf best = some r) : r ∈ l ∨ best = some r := by
    induction l generalizing best with
    | nil => exact .inr h
    | cons x l ih =>
      rcases ih _ h with hmem | hbest
      · exact .inl (List.mem_cons_of_mem _ hmem)
      · rcases olderOf_cases best x with hx | hx <;> rw [hx] at hbest
        · exact .inl (Option.some.inj hbest ▸ List.mem_cons_self ..)
        · exact .inr hbest
  exact (hfold l none (oldest_eq l ▸ h)).elim id fun h => by cases h

theorem oldest_isSome {l : List DramReq} (h : l ≠ []) : (oldest l).isSome = true := by
  have hfold (l : List DramReq) {best : Option DramReq} (hbest : best.isSome = true) : (l.foldl olderOf best).isSome = true := by
    induction l generalizing best with
    | nil => exact hbest
    | cons x l ih => exact ih (olderOf_isSome ..)
  cases l with
  | nil => exact absurd rfl h
  | cons x l => exact hfold l (olderOf_isSome none x)

theorem hitFirst_mem {s : State} {l : List DramReq} {r : DramReq} (h : s.hitFirst l = some r) : r ∈ l := by
  unfold State.hitFirst at h
  split at h
  · next hhit =>
    obtain rfl := Option.some.inj h
    exact (List.mem_filter.1 (oldest_mem hhit)).1
  · exact oldest_mem h

theorem hitFirst_isSome {s : State} {l : List DramReq} (h : l ≠ []) : (s.hitFirst l).isSome = true := by
  unfold State.hitFirst
  split
  · rfl
  · exact oldest_isSome h

theorem chooseRequest_realTime {s : State} {ch sub : Nat} {reqs : List DramReq} (h : ∃ q ∈ reqs, q.requester < 4) :
    ∃ q, s.chooseRequest ch sub reqs = some (q, false) ∧ q.requester < 4 ∧ q ∈ reqs := by
  obtain ⟨q, hq, hlt⟩ := h
  have hne : reqs.filter (fun (r : DramReq) => decide (r.requester < 4)) ≠ [] := List.ne_nil_of_mem (List.mem_filter.2 ⟨hq, by simpa using hlt⟩)
  obtain ⟨r, hr⟩ := Option.isSome_iff_exists.1 (hitFirst_isSome (s := s) hne)
  obtain ⟨hmem, hreal⟩ := List.mem_filter.1 (hitFirst_mem hr)
  refine ⟨r, ?_, by simpa using hreal, hmem⟩
  unfold State.chooseRequest
  dsimp only
  rw [hr]

theorem chooseRequest_none (s : State) (ch sub : Nat) : s.chooseRequest ch sub [] = none := by
  have hhit : s.hitFirst [] = none := rfl
  unfold State.chooseRequest
  dsimp only
  simp only [List.filter_nil, hhit, bne_self_eq_false, Bool.false_and, List.find?_eq_none.2 (fun _ _ => Bool.false_ne_true)]
  rfl

/-! ## Bursts (R426) -/

/-- The counter of the bytes of a burst. -/
def bytesId (ch : Nat) (write : Bool) : Nat := if write then Dram.BYTES_WRITTEN ch else Dram.BYTES_READ ch

/-- The command of a burst leaves, and its bytes count. -/
def State.burstMoved (s : State) (ch sub : Nat) (r : DramReq) : State :=
  (s.emit (.dram ch sub (if r.write then "WR" else "RD") r.addr)).addBytes (bytesId ch r.write) 64

/-- What a burst counts besides its bytes. -/
def burstIds : List Nat := Dram.SCRUB_PASSES :: ((List.range 4).map Dram.RT_LATENCY_MAX ++ (List.range 4).map Dram.PROMOTIONS)

theorem bytesId_apart : ∀ ch : Fin 8, ∀ w : Bool, bytesId ch w ∉ burstIds := by decide

theorem burstData_spec (s : State) (ch sub : Nat) (r : DramReq) : OnlyChanges [.dram] burstIds (s.burstMoved ch sub r) (s.burstData ch sub r) := by
  let u := if r.requester < 4 then (s.burstMoved ch sub r).raise (Dram.RT_LATENCY_MAX r.requester) r.age else s.burstMoved ch sub r
  have hu : OnlyChanges [.dram] burstIds (s.burstMoved ch sub r) u := by
    unfold u
    split
    · next hreal =>
      refine (raise_only _ _ r.age).mono (by simp) fun id hid => ?_
      obtain rfl := List.mem_singleton.1 hid
      exact List.mem_cons_of_mem _ (List.mem_append_left _ (List.mem_map_of_mem (List.mem_range.2 hreal)))
    · exact .nothing _
  have heq : s.burstData ch sub r = if r.write ∧ u.rd Dram.WRITE_CRC_ENABLE = 1 then
      { u with dram := { u.dram with held := tset u.dram.held ch [] (u.heldWrites ch ++ [{ sub := sub, addr := r.addr, at' := u.clock }]) } } else u := rfl
  rw [heq]
  split
  · exact hu.then ((setDram_only u _).mono (by simp) (by simp))
  · exact hu

theorem requestClass_lt {r c : Nat} (h : requestClass r = some c) : c < 4 := by
  unfold requestClass at h
  split at h
  · cases h
  · split at h
    · obtain rfl := Option.some.inj h
      omega
    · cases h

/-- What a burst of a class leaves. -/
def State.burstClassed (s : State) (ch sub c : Nat) (r : DramReq) (promoted : Bool) : State :=
  let u := (if promoted then s.count (Dram.PROMOTIONS c) else s).burstClass ch sub c r
  if c = 3 ∧ !r.write then u.scrubOne else u

theorem burstClassed_only {c : Nat} (hc : c < 4) (s : State) (ch sub : Nat) (r : DramReq) (promoted : Bool) :
    OnlyChanges [.dram] burstIds s (s.burstClassed ch sub c r promoted) := by
  let v := if promoted then s.count (Dram.PROMOTIONS c) else s
  have hv : OnlyChanges [.dram] burstIds s v := by
    unfold v
    split
    · refine (count_only _ _).mono (by simp) fun id hid => ?_
      obtain rfl := List.mem_singleton.1 hid
      exact List.mem_cons_of_mem _ (List.mem_append_right _ (List.mem_map_of_mem (List.mem_range.2 hc)))
    · exact .nothing s
  have hu : OnlyChanges [.dram] burstIds s (v.burstClass ch sub c r) := hv.then ((setDram_only v _).mono (by simp) (by simp))
  have heq : s.burstClassed ch sub c r promoted = if c = 3 ∧ !r.write then (v.burstClass ch sub c r).scrubOne else v.burstClass ch sub c r := rfl
  rw [heq]
  split
  · refine hu.then ?_
    unfold State.scrubOne
    dsimp only
    split
    · exact ((setDram_only _ _).trans (count_only _ Dram.SCRUB_PASSES)).mono (by simp) (by simp [burstIds])
    · exact (setDram_only _ _).mono (by simp) (by simp)
  · exact hu

theorem burst_spec (s : State) (ch : Fin 8) (sub : Nat) (r : DramReq) (promoted : Bool) :
    let t := s.burst ch sub r promoted
    t.out = .dram ch sub (if r.write then "WR" else "RD") r.addr :: s.out ∧ t.rd (bytesId ch r.write) = bytesUp (s.rd (bytesId ch r.write)) 64 ∧
      OnlyChanges [.dram, .out] (bytesId ch r.write :: burstIds) s t := by
  intro t
  let u := s.burstMoved ch sub r
  have hemit := emitQuiet_only s (o := .dram ch sub (if r.write then "WR" else "RD") r.addr) rfl
  have hbytes : OnlyChanges [] [bytesId ch r.write] _ u := addBytes_only ..
  have hafter : OnlyChanges [.dram] burstIds u t := by
    have hdata := burstData_spec s ch sub r
    unfold t State.burst
    dsimp only
    split
    · exact hdata
    · next c hc => exact hdata.then (burstClassed_only (requestClass_lt hc) ..)
  have hcounter : isCounter (bytesId ch r.write) = true := by
    unfold bytesId
    split <;> exact isCounter_channel ch _ (by simp)
  refine ⟨?_, ?_, ((hemit.trans hbytes).trans hafter).mono (by simp) (by simp +contextual)⟩
  · rw [hafter.out (by simp), hbytes.out (by simp), emit_out]
  · rw [hafter.rd (bytesId_apart ch r.write), ← hemit.rd (id := bytesId ch r.write) (by simp)]
    exact rd_addBytes_counter hcounter 64 _

/-! ## Activates (R430) -/

/-- What managing and activating a bank counts. -/
def activateIds (ch : Nat) : List Nat := [Dram.RFM_COMMANDS ch, Dram.REFRESH_POSTPONED ch, Dram.BURST_SPLITS ch, Dram.PNR_ACTIVATES ch]

theorem manageBank_only (s : State) {l : DramLoc} (hsub : l.sub < 2) (hrank : l.rank < 2) (hits : List Nat) :
    OnlyChanges [.dram, .out] (activateIds l.ch) s (s.manageBank l hits) := by
  let mine := refreshBanks l.ch l.sub l.rank (some l.bank)
  have hclosed : OnlyChanges [.dram, .out] (activateIds l.ch) s (s.closeBanks mine 1) := by
    obtain ⟨-, -, -, -, honly⟩ := closeBanks_spec (mine := mine) (fun k => refreshBanks_channel hsub hrank) s 1
    exact honly.mono (by simp) (by simp [activateIds])
  have hmanaged : OnlyChanges [.dram, .out] (activateIds l.ch) s
      (((s.closeBanks mine 1).emit (.dram l.ch l.sub "RFMsb" (bankKey l))).count (Dram.RFM_COMMANDS l.ch)) :=
    (hclosed.then ((emitQuiet_only _ rfl).mono (by simp) (by simp))).then ((count_only ..).mono (by simp) (by simp [activateIds]))
  unfold State.manageBank
  dsimp only
  split
  · exact .nothing s
  · split
    · exact (count_only ..).mono (by simp) (by simp [activateIds])
    · split
      · exact hmanaged.then ((count_only ..).mono (by simp) (by simp [activateIds]))
      · exact hmanaged

theorem activateRow_spec (s : State) (l : DramLoc) :
    let t := s.activateRow l
    t.out.head? = some (.dram l.ch l.sub "ACT" l.row) ∧ tfind t.dram.rows (bankKey l) = some l.row ∧ OnlyChanges [.dram, .out, .free] [] s t := by
  intro t
  let u := s.draw.2
  let near := decide (0 < u.rd Dram.PNR_PERIOD ∧ (Config.openWord s.draw.1).toNat % u.rd Dram.PNR_PERIOD = 0)
  let v : State := { u with dram := { u.dram with
      rows := tins u.dram.rows (bankKey l) l.row
      acts := tset u.dram.acts (bankKey l) 0 (tget u.dram.acts (bankKey l) 0 + 1)
      neighbours := if near then tins u.dram.neighbours (bankKey l) l.row else u.dram.neighbours } }
  have ht : t = v.emit (.dram l.ch l.sub "ACT" l.row) := rfl
  have hset : OnlyChanges [.dram] [] u v := setDram_only ..
  have hemit := emitQuiet_only v (o := .dram l.ch l.sub "ACT" l.row) rfl
  rw [ht]
  refine ⟨by rw [emit_out]; rfl, ?_, (((draw_only s).trans hset).trans hemit).mono (by simp) (by simp)⟩
  rw [hemit.dram (by simp)]
  exact tfind_tins_same ..

end Sys2Proof.Machine

/-! The command of a subchannel, and the refreshes, polls and alerts of its channel (R426 to R433). -/

namespace Sys2Proof.Machine

/-! ## The command of a subchannel (R426, R430) -/

/-- The requests that take part in the choice of a subchannel. -/
def State.taking (s : State) (ch sub : Nat) (reqs : List DramReq) : List DramReq :=
  (reqs.filter fun (r : DramReq) => (s.placeOf r.addr).ch == ch && (s.placeOf r.addr).sub == sub &&
    (r.requester != 7 || (!r.write && s.rd Dram.SCRUB_ENABLE == 1))) ++ tget s.dram.writeBacks (2 * ch + sub) []

section
variable {s : State} {ch : Fin 8} {sub : Fin 2} {reqs : List DramReq} (hserves : s.dramServes ch = true)
include hserves

theorem exec_dramCommandSelect_idle (hnone : s.taking ch sub reqs = []) :
    exec (.dramCommandSelect ch sub reqs) s = .next (s.repayDebts ch sub []) := by
  show execDramCommandSelect ch sub reqs s = _
  have hall : (reqs.filter fun (r : DramReq) => (s.placeOf r.addr).ch == ch.val && (s.placeOf r.addr).sub == sub.val &&
    (r.requester != 7 || (!r.write && s.rd Dram.SCRUB_ENABLE == 1))) ++ tget s.dram.writeBacks (2 * ch.val + sub.val) [] = [] := hnone
  unfold execDramCommandSelect
  dsimp only
  rw [if_neg (by simp [hserves]), hall, chooseRequest_none]
  rfl

variable {q : DramReq} {promoted : Bool} (hpaid : ∀ e ∈ s.dram.debts, e.1 / 512 ≠ 2 * ch.val + sub.val)
  (hchosen : s.chooseRequest ch sub (s.taking ch sub reqs) = some (q, promoted))
include hpaid hchosen

theorem exec_dramCommandSelect_hit (hrow : tfind s.dram.rows (bankKey (s.placeOf q.addr)) = some (s.placeOf q.addr).row) :
    exec (.dramCommandSelect ch sub reqs) s = .next (s.burst ch sub q promoted) := by
  show execDramCommandSelect ch sub reqs s = _
  unfold State.taking at hchosen
  unfold execDramCommandSelect
  dsimp only
  rw [if_neg (by simp [hserves]), repayDebts_none hpaid, hchosen]
  dsimp only
  rw [hrow]
  exact congrArg Host.Outcome.next (if_pos rfl)

theorem exec_dramCommandSelect_other {row : Nat} (hrow : tfind s.dram.rows (bankKey (s.placeOf q.addr)) = some row) (hother : row ≠ (s.placeOf q.addr).row) :
    exec (.dramCommandSelect ch sub reqs) s = .next (s.closeBank (bankKey (s.placeOf q.addr))) := by
  show execDramCommandSelect ch sub reqs s = _
  unfold State.taking at hchosen
  unfold execDramCommandSelect
  dsimp only
  rw [if_neg (by simp [hserves]), repayDebts_none hpaid, hchosen]
  dsimp only
  rw [hrow]
  exact congrArg Host.Outcome.next (if_neg hother)

theorem exec_dramCommandSelect_closed (hrow : tfind s.dram.rows (bankKey (s.placeOf q.addr)) = none) :
    exec (.dramCommandSelect ch sub reqs) s =
      .next ((s.manageBank (s.placeOf q.addr) (s.hitBanks (s.taking ch sub reqs))).activateRow (s.placeOf q.addr)) := by
  show execDramCommandSelect ch sub reqs s = _
  unfold State.taking at hchosen ⊢
  unfold execDramCommandSelect
  dsimp only
  rw [if_neg (by simp [hserves]), repayDebts_none hpaid, hchosen]
  dsimp only
  rw [hrow]

end

theorem placeOf_sub (s : State) (a : Nat) : (s.placeOf a).sub < 2 := Nat.mod_lt _ (by decide)

theorem placeOf_rank {s : State} (h : s.pow.board.ranks ≤ 2) (a : Nat) : (s.placeOf a).rank < 2 := by
  have hrank : (s.placeOf a).rank < max 1 s.pow.board.ranks := Nat.mod_lt _ (by omega)
  omega

/-! ## Refreshes that fall due (R428, R429) -/

section
variable {s : State} {ch : Fin 8} {sub rank : Fin 2} {index : Fin 4} (hserves : s.rd (Dram.CHANNEL_STATE ch) = 1) (hchange : s.tick.dramChange = false)
  (hrank : rank.val < s.pow.board.ranks)
include hserves hchange hrank

theorem exec_dramRefreshDue (hits : Bool) :
    exec (.dramRefreshDue ch sub rank index hits) s =
      .next (let x := s.refreshIndex index
        let key := debtKey ch sub rank x
        if !hits then (s.setDebt key 0).refresh ch sub rank x (tget s.dram.debts key 0 + 1)
        else if tget s.dram.debts key 0 + 1 < s.rd Dram.POSTPONE_LIMIT then
          (s.setDebt key (tget s.dram.debts key 0 + 1)).count (Dram.REFRESH_POSTPONED ch)
        else (s.refresh ch sub rank x 1).count (Dram.BURST_SPLITS ch)) :=
  congrArg Host.Outcome.next (if_neg (by simp [hserves, hchange, hrank]))

end

theorem refresh_apart : ∀ ch : Fin 8, Dram.BURST_SPLITS ch ≠ Dram.PNR_ACTIVATES ch := by decide

/-- The key of a debt and the command of a refresh, as the mode of refresh gives them. -/
theorem refreshOf_mode (s : State) (ch sub rank index : Nat) :
    debtKey ch sub rank (s.refreshIndex index) = 1024 * ch + 512 * sub + 256 * rank + (if s.rd Dram.REFRESH_MODE = 0 then 255 else index) ∧
      refreshOutput ch sub rank (s.refreshIndex index) =
        (if s.rd Dram.REFRESH_MODE = 0 then .dram ch sub "REFab" rank else .dram ch sub "REFsb" (4 * rank + index)) := by
  unfold State.refreshIndex
  split
  · exact ⟨rfl, rfl⟩
  · exact ⟨rfl, rfl⟩

/-- Settles O51: banks close before their refresh, an alert and a drift ask for retraining, and the chosen request moves, precharges or activates. -/
theorem memoryCommandsKeepTheirOrder : Obligations.MemoryCommandsKeepTheirOrder := by
  unfold Obligations.MemoryCommandsKeepTheirOrder
  refine ⟨?_, ?_, ?_⟩
  · intro ch sub rank index s mine key debt one issued hserves hchange hrank
    obtain ⟨hkey, hone⟩ := refreshOf_mode s ch sub rank index
    have hexec := exec_dramRefreshDue (sub := sub) (index := index) hserves hchange hrank
    dsimp only at hexec
    rw [hkey] at hexec
    refine ⟨?_, fun hroom => ?_, fun hfull => ?_⟩
    · obtain ⟨hzero, hrows, hset⟩ := setDebt_spec s key 0
      obtain ⟨hdebts, ⟨first, hout, hfirst⟩, hclosed, honly⟩ :=
        refresh_spec (ch := ch) sub.isLt rank.isLt (s.setDebt key 0) (s.refreshIndex index) (debt + 1)
      rw [hone] at hout
      rw [hrows] at hfirst
      refine ⟨_, hexec false, ?_, ⟨⟨first, hout.trans (congrArg _ (hset.out (by simp))), hfirst⟩, hclosed⟩, (hset.trans honly).mono (by simp) (by simp)⟩
      exact (congrArg (tget · key 0) hdebts).trans hzero
    · obtain ⟨hdebt, -, hset⟩ := setDebt_spec s key (debt + 1)
      have hcount := count_only (s.setDebt key (debt + 1)) (Dram.REFRESH_POSTPONED ch)
      refine ⟨_, (hexec true).trans (congrArg Host.Outcome.next (if_pos hroom)), ?_, ?_, (hset.trans hcount).mono (by simp) (by simp)⟩
      · exact (congrArg (fun d : DramSt => tget d.debts key 0) (hcount.dram (by simp))).trans hdebt
      · exact (rd_count_counter (isCounter_channel ch _ (by simp)) _).trans (congrArg (countUp · 1) (hset.rd (by simp)))
    · obtain ⟨hdebts, ⟨first, hout, hfirst⟩, hclosed, honly⟩ := refresh_spec (ch := ch) sub.isLt rank.isLt s (s.refreshIndex index) 1
      have hcount := count_only (s.refresh ch sub rank (s.refreshIndex index) 1) (Dram.BURST_SPLITS ch)
      have hdram := hcount.dram (by simp)
      rw [hone] at hout
      refine ⟨_, (hexec true).trans (congrArg Host.Outcome.next (if_neg (Nat.not_lt.2 hfull))), ?_, ⟨⟨first, (hcount.out (by simp)).trans hout, hfirst⟩, ?_⟩, ?_,
        (honly.trans hcount).mono (by simp) (by simp)⟩
      · rw [hdram, hdebts]
      · rw [hdram]
        exact hclosed
      · exact (rd_count_counter (isCounter_channel ch _ (by simp)) _).trans (congrArg (countUp · 1) (honly.rd (by simpa using refresh_apart ch)))
  · intro ch s hserves hquiet
    refine ⟨fun doubled temp => ?_, fun hcrc hfew => ?_, fun hcrc hfourth hhold => ?_⟩
    · intro drift
      obtain ⟨hrate, hnoticed, hquietly⟩ := rateTaken_spec s ch doubled
      let u := (s.rateTaken ch doubled).tempTaken ch temp
      have hset : OnlyChanges [.dram] [] (s.rateTaken ch doubled) u := setDram_only ..
      have hdram : (s.rateTaken ch doubled).dram = s.dram := hnoticed.dram (by simp [sending])
      have htick : u.tick = s.tick := (hset.tick (by simp)).trans (hnoticed.tick (by simp [sending]))
      have htemp : tget u.dram.temps ch 0 = temp := tget_tset_same ..
      have halarms : u.dram.alarms = s.dram.alarms := (congrArg DramSt.alarms hdram :)
      have hlimit : (u.rd Dram.DRIFT_TEMP : Int) ≤ (temp - tget u.dram.trained ch 0).natAbs ↔ drift = true := by
        rw [hset.rd (by simp), hnoticed.rd (refreshRate_apart ch).2, show u.dram.trained = s.dram.trained from (congrArg DramSt.trained hdram :)]
        exact (decide_eq_true_iff ..).symm
      have hexec := exec_dramMr4Poll hserves doubled temp
      by_cases hdrift : drift = true
      · obtain ⟨halarm, -, hchans, honly⟩ := driftAlarm_spec (htick ▸ hquiet) ch
        have hafter := hset.trans honly
        refine ⟨u.driftAlarm ch, hexec.trans (congrArg Host.Outcome.next (if_pos (hlimit.2 hdrift))), ?_, ?_, fun _ => ⟨?_, hchans⟩, fun h => ?_,
          fun h => ((hquietly h).trans hafter).mono (by simp) (by simp), (hnoticed.trans hafter).mono (by simp +contextual [or_imp]) (by simp)⟩
        · rw [hafter.rd (by simp), hrate]
        · rw [halarm]
          exact htemp
        · rw [halarm]
          exact mem_alarmsWith ..
        · rw [hdrift] at h
          cases h
      · refine ⟨u, hexec.trans (congrArg Host.Outcome.next (if_neg (mt hlimit.1 hdrift))), ?_, htemp, fun h => absurd h hdrift, fun _ => ⟨halarms, htick⟩,
          fun h => ((hquietly h).trans hset).mono (by simp) (by simp), (hnoticed.trans hset).mono (by simp +contextual [or_imp]) (by simp)⟩
        rw [hset.rd (by simp), hrate]
    · obtain ⟨hout, hcount, halarm, hheld, honly⟩ := alerted_spec hquiet ch
      refine ⟨_, (exec_dramAlertN hserves hcrc).trans (congrArg Host.Outcome.next (if_neg ?_)), hout, hcount, halarm, hheld, honly⟩
      simp only [State.writesAgain, List.any_map, List.any_eq_true, Function.comp_apply, decide_eq_true_eq, not_exists, not_and]
      intro w hw
      have := hfew w hw
      omega
    · obtain ⟨-, -, -, -, honly⟩ := alerted_spec hquiet ch
      obtain ⟨w, hw, hfails⟩ := hfourth
      have hheld : (s.alerted ch).pow.global ≠ .faultHold := by rwa [honly.pow (by simp)]
      refine ⟨_, (exec_dramAlertN hserves hcrc).trans (congrArg Host.Outcome.next (if_pos ?_)), channelFailed_restarts hheld ch 2⟩
      simp only [State.writesAgain, List.any_map, List.any_eq_true, Function.comp_apply, decide_eq_true_eq]
      exact ⟨w, hw, by omega⟩
  · intro ch sub reqs s k all hserves
    refine ⟨fun hnone => ⟨_, exec_dramCommandSelect_idle hserves hnone, repayDebts_spec sub.isLt s⟩, chooseRequest_realTime, ?_⟩
    intro hpaid hranks q promoted hchosen l b
    refine ⟨fun hrow => ?_, fun row hrow hother hnear => ?_, fun hrow => ?_⟩
    · obtain ⟨hout, hbytes, honly⟩ := burst_spec s ch sub q promoted
      refine ⟨_, exec_dramCommandSelect_hit hserves hpaid hchosen hrow, hout, ?_, honly.mono (by simp) ?_⟩
      · unfold bytesId at hbytes
        by_cases hw : q.write = true
        · rw [if_pos hw]
          rwa [if_pos hw] at hbytes
        · rw [if_neg hw]
          rwa [if_neg hw] at hbytes
      · intro id hid
        have hbytesId : bytesId ch q.write = Dram.BYTES_WRITTEN ch ∨ bytesId ch q.write = Dram.BYTES_READ ch := by
          unfold bytesId
          split
          · exact .inl rfl
          · exact .inr rfl
        simp only [burstIds, List.cons_append, List.nil_append, List.mem_cons, List.mem_append] at hid ⊢
        rcases hid with rfl | hid
        · exact hbytesId.elim .inl fun h => .inr (.inl h)
        · exact .inr (.inr hid)
    · obtain ⟨hdram, hout, honly⟩ := precharged_spec s b
      refine ⟨_, exec_dramCommandSelect_other hserves hpaid hchosen hrow hother, ?_⟩
      rw [closeBank_plain hnear]
      refine ⟨hout, ?_, honly⟩
      rw [hdram]
      exact tfind_tdel_same ..
    · have hmanaged := manageBank_only s (placeOf_sub s q.addr) (placeOf_rank hranks q.addr) (s.hitBanks (s.taking ch sub reqs))
      obtain ⟨hout, hopen, honly⟩ := activateRow_spec (s.manageBank (s.placeOf q.addr) (s.hitBanks (s.taking ch sub reqs))) (s.placeOf q.addr)
      exact ⟨_, exec_dramCommandSelect_closed hserves hpaid hchosen hrow, hout, hopen, (hmanaged.trans honly).mono (by simp) (by simp [activateIds, l])⟩

end Sys2Proof.Machine

/-! Sources of the Event Fabric, and the order in which their firings reach the task inputs (R446 to R450, R454, R457). -/

namespace Sys2Proof.Machine

/-! ## Counters and flags (R455) -/

/-- Sources and task inputs are told over in rows of 16. -/
theorem forall_of_rows {n : Nat} {p : Nat → Prop} (h : ∀ (a : Fin n) (b : Fin 16), p (16 * a + b)) (k : Fin (16 * n)) : p k := by
  have hk := k.isLt
  have hrow := h ⟨k / 16, by omega⟩ ⟨k % 16, by omega⟩
  rwa [Nat.div_add_mod] at hrow

theorem isCounter_source : ∀ k : Fin 256, isCounter (Ev.SRC_FIRINGS k) = true ∧ isCounter (Ev.SRC_LOOP_TRIPS k) = true :=
  forall_of_rows (n := 16) (p := fun k => isCounter (Ev.SRC_FIRINGS k) = true ∧ isCounter (Ev.SRC_LOOP_TRIPS k) = true) (by decide)

theorem isWord_source : ∀ k : Fin 256, isWord (Ev.SRC_ENABLE k) = true :=
  forall_of_rows (n := 16) (p := fun k => isWord (Ev.SRC_ENABLE k) = true) (by decide)

theorem isCounter_input : ∀ ti : Fin 192, isCounter (Ev.TI_TRIGGERS ti) = true ∧ isCounter (Ev.TI_OVERRUNS ti) = true :=
  forall_of_rows (n := 12) (p := fun ti => isCounter (Ev.TI_TRIGGERS ti) = true ∧ isCounter (Ev.TI_OVERRUNS ti) = true) (by decide)

theorem isWord_sourceFlags : ∀ w : Fin 8, isWord (Ev.SRC_FIRED w) = true ∧ isWord (Ev.SRC_LOOP_SUSPECT w) = true := by decide

theorem isWord_inputFlags : ∀ w : Fin 6, isWord (Ev.TI_TRIGGERED w) = true ∧ isWord (Ev.TI_OVERRUN w) = true ∧ isWord (Ev.TI_COINCIDENT_FLAG w) = true := by
  decide

theorem isWord_timer : ∀ t : Fin 16, isWord (Ev.TIMER_STATE t) = true := by decide

theorem mem_taskInputs {ti : Nat} : ti ∈ taskInputs ↔ ti < 134 ∨ ti = 184 ∨ ti = 185 := by
  simp [taskInputs]

theorem taskInput_lt {ti : Nat} (h : ti ∈ taskInputs) : ti < 192 := by
  have := mem_taskInputs.1 h
  omega

theorem eventFlag_only (s : State) (r : Nat → Nat) (k : Nat) : OnlyChanges [] [r (k / 32)] s (s.eventFlag r k) := wr_only ..

/-- A flag stands once it is set, and those of its word that stood stay. -/
theorem bit_eventFlag {r : Nat → Nat} {k : Nat} (h : isWord (r (k / 32)) = true) (s : State) {i : Nat} (hi : i < 32) :
    bit ((s.eventFlag r k).rd (r (k / 32))) i = (bit (s.rd (r (k / 32))) i || decide (k % 32 = i)) := by
  show bit ((s.wr _ _).rd _) i = _
  rw [rd_wr_isWord h, bit_mod_word hi, bit_setFlag]

theorem OnlyChanges.sourceWired {ps : List Part} {ids : List Nat} {s t : State} (h : OnlyChanges ps ids s t) (hids : ∀ id ∈ ids, id % 0x10000 ≠ 0x0101)
    (src : Nat) : t.sourceWired src = s.sourceWired src ∧ ∀ ti srcs, t.wireHits ti srcs = s.wireHits ti srcs := by
  have hhits (ti : Nat) (srcs : List Nat) : t.wireHits ti srcs = s.wireHits ti srcs := by
    have hrd : t.rd (Ev.WIRE_ENABLE ti) = s.rd (Ev.WIRE_ENABLE ti) := h.rd fun hmem => hids _ hmem (by unfold Ev.WIRE_ENABLE; omega)
    unfold State.wireHits
    rw [hrd]
  refine ⟨?_, hhits⟩
  unfold State.sourceWired
  simp only [hhits]

/-! ## Sources that fire (R447, R454) -/

/-- A source is guarded, and would pass its limit. -/
def State.loopStops (s : State) (k : Nat) : Prop :=
  s.rd (Ev.LOOP_LIMIT k) ≠ 0 ∧ s.sourceWired k = true ∧ s.rd (Ev.LOOP_LIMIT k) < tget s.fab.counts k 0 + 1

/-- The loop guard suppresses a source. -/
def State.suppressed (s : State) (k : Nat) : State :=
  (((s.wr (Ev.SRC_ENABLE k) 0).eventFlag Ev.SRC_LOOP_SUSPECT k).count (Ev.SRC_LOOP_TRIPS k)).linkNotify 0x0601 k 0xFF 0

/-- A guarded source counts towards its limit. -/
def State.guardCounted (s : State) (k : Nat) : State :=
  if s.rd (Ev.LOOP_LIMIT k) != 0 && s.sourceWired k then
    { s with fab := { s.fab with counts := tset s.fab.counts k 0 (tget s.fab.counts k 0 + 1) } }
  else s

/-- A source fires. -/
def State.sourceFired (s : State) (k : Nat) : State := ((s.guardCounted k).count (Ev.SRC_FIRINGS k)).eventFlag Ev.SRC_FIRED k

theorem sourceFires_disabled {s : State} {k : Nat} (h : s.rd (Ev.SRC_ENABLE k) = 0) : s.sourceFires k = (false, s) := if_pos h

theorem loopStops_iff {s : State} {k : Nat} : s.loopStops k ↔
    (s.rd (Ev.LOOP_LIMIT k) != 0 && s.sourceWired k && decide (s.rd (Ev.LOOP_LIMIT k) < tget s.fab.counts k 0 + 1)) = true := by
  simp only [State.loopStops, Bool.and_eq_true, bne_iff_ne, decide_eq_true_eq, and_assoc, ne_eq]

theorem sourceFires_stops {s : State} {k : Nat} (henabled : s.rd (Ev.SRC_ENABLE k) ≠ 0) (h : s.loopStops k) : s.sourceFires k = (false, s.suppressed k) :=
  (if_neg henabled).trans (if_pos (loopStops_iff.1 h))

theorem sourceFires_delivers {s : State} {k : Nat} (henabled : s.rd (Ev.SRC_ENABLE k) ≠ 0) (h : ¬s.loopStops k) : s.sourceFires k = (true, s.sourceFired k) :=
  (if_neg henabled).trans (if_neg (mt loopStops_iff.2 h))

theorem source_apart : ∀ k : Fin 256, Ev.SRC_ENABLE k ∉ Ev.SRC_LOOP_SUSPECT (k / 32) :: Ev.SRC_LOOP_TRIPS k :: sendIds ∧
    Ev.SRC_LOOP_SUSPECT (k / 32) ∉ Ev.SRC_LOOP_TRIPS k :: sendIds ∧ Ev.SRC_LOOP_SUSPECT (k / 32) ≠ Ev.SRC_ENABLE k ∧ Ev.SRC_LOOP_TRIPS k ∉ sendIds ∧
    Ev.SRC_LOOP_TRIPS k ∉ [Ev.SRC_ENABLE k, Ev.SRC_LOOP_SUSPECT (k / 32)] ∧ Ev.SRC_FIRINGS k ≠ Ev.SRC_FIRED (k / 32) := by
  intro k
  have hk := k.isLt
  simp only [sendIds, List.mem_cons, List.not_mem_nil, or_false]
  unfold Ev.SRC_ENABLE Ev.SRC_LOOP_SUSPECT Ev.SRC_LOOP_TRIPS Ev.SRC_FIRINGS Ev.SRC_FIRED Obs.TRACE_RECORDS Obs.TRACE_DROPPED Sys.NOTIFY_DROPPED
    Eth.TX_FRAMES Eth.TX_BYTES
  omega

theorem suppressed_spec (s : State) (k : Fin 256) :
    let t := s.suppressed k
    t.rd (Ev.SRC_ENABLE k) = 0 ∧ bit (t.rd (Ev.SRC_LOOP_SUSPECT (k / 32))) (k % 32) = true ∧
      t.rd (Ev.SRC_LOOP_TRIPS k) = countUp (s.rd (Ev.SRC_LOOP_TRIPS k)) 1 ∧
      OnlyChanges sending (Ev.SRC_ENABLE k :: Ev.SRC_LOOP_SUSPECT (k / 32) :: Ev.SRC_LOOP_TRIPS k :: sendIds) s t := by
  intro t
  obtain ⟨henable, hsuspect, hsuspect', htrips, htrips', -⟩ := source_apart k
  let u := s.wr (Ev.SRC_ENABLE k) 0
  let v := u.eventFlag Ev.SRC_LOOP_SUSPECT k
  let w := v.count (Ev.SRC_LOOP_TRIPS k)
  have hoff : OnlyChanges [] [Ev.SRC_ENABLE k] s u := wr_only ..
  have hflag : OnlyChanges [] [Ev.SRC_LOOP_SUSPECT (k / 32)] u v := eventFlag_only ..
  have hcount : OnlyChanges [] [Ev.SRC_LOOP_TRIPS k] v w := count_only ..
  have hnotify : OnlyChanges sending sendIds w t := linkNotify_only ..
  have hafter := hcount.trans hnotify
  refine ⟨?_, ?_, ?_, ((hoff.trans hflag).trans hafter).mono (by simp) (by simp)⟩
  · rw [(hflag.trans hafter).rd henable]
    exact rd_wr_word (isWord_source k) (by omega) s
  · have hword := (isWord_sourceFlags ⟨k / 32, by omega⟩).2
    rw [hafter.rd hsuspect]
    exact (bit_eventFlag hword u (Nat.mod_lt _ (by decide))).trans (by simp)
  · rw [hnotify.rd htrips, ← (hoff.trans hflag).rd htrips']
    exact rd_count_counter (isCounter_source k).2 v

theorem sourceFired_spec (s : State) (k : Fin 256) :
    let t := s.sourceFired k
    t.rd (Ev.SRC_FIRINGS k) = countUp (s.rd (Ev.SRC_FIRINGS k)) 1 ∧ bit (t.rd (Ev.SRC_FIRED (k / 32))) (k % 32) = true ∧
      (∃ counts, t.fab = { s.fab with counts := counts }) ∧ (s.sourceWired k = false → t.fab = s.fab) ∧
      OnlyChanges [.fab] [Ev.SRC_FIRINGS k, Ev.SRC_FIRED (k / 32)] s t := by
  intro t
  let u := s.guardCounted k
  let v := u.count (Ev.SRC_FIRINGS k)
  have hguard : (∃ counts, u.fab = { s.fab with counts := counts }) ∧ (s.sourceWired k = false → u.fab = s.fab) ∧ OnlyChanges [.fab] [] s u := by
    unfold u State.guardCounted
    split
    · next h => exact ⟨⟨_, rfl⟩, fun hwired => by simp [hwired] at h, setFab_only ..⟩
    · exact ⟨⟨_, rfl⟩, fun _ => rfl, .nothing s⟩
  obtain ⟨⟨counts, hcounts⟩, hunguarded, hguard⟩ := hguard
  have hcount : OnlyChanges [] [Ev.SRC_FIRINGS k] u v := count_only ..
  have hflag : OnlyChanges [] [Ev.SRC_FIRED (k / 32)] v t := eventFlag_only ..
  have hfab : t.fab = u.fab := (hcount.trans hflag).fab (by simp)
  obtain ⟨-, -, -, -, -, hapart⟩ := source_apart k
  refine ⟨?_, ?_, ⟨counts, hfab.trans hcounts⟩, fun h => hfab.trans (hunguarded h), ((hguard.trans hcount).trans hflag).mono (by simp) (by simp)⟩
  · rw [hflag.rd (by simpa using hapart), ← hguard.rd (id := Ev.SRC_FIRINGS k) (by simp)]
    exact rd_count_counter (isCounter_source k).1 u
  · exact (bit_eventFlag (isWord_sourceFlags ⟨k / 32, by omega⟩).1 v (Nat.mod_lt _ (by decide))).trans (by simp)

/-! ## The order of arrivals (R447, R450) -/

/-- One arrival takes its place, behind those of its time. -/
def placed (l : List (Nat × Nat)) (m : Nat × Nat) : List (Nat × Nat) := (l.filter fun g => decide (g.1 ≤ m.1)) ++ m :: l.filter fun g => decide (m.1 < g.1)

theorem placed_perm (l : List (Nat × Nat)) (m : Nat × Nat) : (placed l m).Perm (m :: l) := by
  have hsplit : ((l.filter fun g => decide (g.1 ≤ m.1)) ++ l.filter fun g => decide (m.1 < g.1)).Perm l := by
    have hnot : (fun g : Nat × Nat => decide (m.1 < g.1)) = fun g => !decide (g.1 ≤ m.1) := funext fun g => by
      by_cases h : g.1 ≤ m.1 <;> simp [h] <;> omega
    rw [hnot]
    exact List.filter_append_perm ..
  exact List.perm_middle.trans (hsplit.cons m)

/-- Arrivals of one time keep their order. -/
theorem filter_placed (l : List (Nat × Nat)) (m : Nat × Nat) (time : Nat) :
    (placed l m).filter (fun g => g.1 == time) = l.filter (fun g => g.1 == time) ++ [m].filter fun g => g.1 == time := by
  rw [placed, List.filter_append, List.filter_cons, List.filter_filter, List.filter_filter, List.filter_singleton]
  have hbefore : l.filter (fun g => g.1 == time && decide (g.1 ≤ m.1)) = if time ≤ m.1 then l.filter (fun g => g.1 == time) else [] := by
    split
    · next h => exact List.filter_congr fun g _ => by by_cases hg : g.1 = time <;> simp [hg, h]
    · next h => exact List.filter_eq_nil_iff.2 fun g _ => by by_cases hg : g.1 = time <;> simp [hg]; omega
  have hafter : l.filter (fun g => g.1 == time && decide (m.1 < g.1)) = if time ≤ m.1 then [] else l.filter (fun g => g.1 == time) := by
    split
    · next h => exact List.filter_eq_nil_iff.2 fun g _ => by by_cases hg : g.1 = time <;> simp [hg]; omega
    · next h => exact List.filter_congr fun g _ => by by_cases hg : g.1 = time <;> simp [hg]; omega
  rw [hbefore, hafter]
  by_cases hm : m.1 = time
  · simp [hm]
  · by_cases hle : time ≤ m.1 <;> simp [hm, hle, beq_eq_false_iff_ne.2 hm]

theorem sorted_perm (l all : List (Nat × Nat)) : (all.foldl placed l).Perm (all ++ l) := by
  induction all generalizing l with
  | nil => exact .refl _
  | cons m all ih => exact (ih (placed l m)).trans (((placed_perm l m).append_left all).trans List.perm_middle)

theorem filter_sorted (time : Nat) (l all : List (Nat × Nat)) :
    (all.foldl placed l).filter (fun g => g.1 == time) = l.filter (fun g => g.1 == time) ++ all.filter fun g => g.1 == time := by
  induction all generalizing l with
  | nil => simp
  | cons m all ih =>
    rw [List.foldl_cons, ih, filter_placed, List.append_assoc, ← List.filter_append]
    rfl

/-- The task inputs that a source reaches, in the order in which one cycle handles them. -/
def State.inputsOf (s : State) (k : Nat) : List Nat := inputOrder.filter fun ti => !(s.wireHits ti [k]).isEmpty

/-- The arrivals of one firing before they are sorted. -/
def State.unsorted (s : State) (k c0 : Nat) : List (Nat × Nat) := (s.inputsOf k).map fun ti => (arrivalAt ti c0, ti)

theorem arrivals_eq (s : State) (k c0 : Nat) : s.arrivals [(k, c0)] = (s.unsorted k c0).foldl placed [] := by
  have hall (l : List Nat) : (l.flatMap fun ti => (([(k, c0)].filter fun f => !(s.wireHits ti [f.1]).isEmpty).map fun f => (arrivalAt ti f.2, ti)).eraseDups) =
      (l.filter fun ti => !(s.wireHits ti [k]).isEmpty).map fun ti => (arrivalAt ti c0, ti) := by
    induction l with
    | nil => rfl
    | cons ti l ih =>
      rw [List.flatMap_cons, ih, List.filter_cons]
      by_cases h : (s.wireHits ti [k]).isEmpty = true
      · simp [h]
      · simp [h, List.eraseDups_cons]
  unfold State.arrivals
  dsimp only
  rw [hall]
  rfl

/-- The task inputs that a firing reaches, in the order in which it does. -/
def State.reachedInputs (s : State) (k c0 : Nat) : List Nat := (s.arrivals [(k, c0)]).map Prod.snd

theorem nodup_taskInputs : taskInputs.Nodup :=
  List.nodup_append.2 ⟨List.nodup_range, by simp, fun a ha b hb => by
    have := List.mem_range.1 ha
    simp at hb
    omega⟩

theorem mem_inputOrder {ti : Nat} : ti ∈ inputOrder ↔ ti ∈ taskInputs := by
  unfold inputOrder
  simp only [List.mem_append, List.mem_filter, decide_eq_true_eq]
  rw [← and_or_left]
  exact and_iff_left (by omega)

theorem nodup_inputOrder : inputOrder.Nodup :=
  List.nodup_append.2 ⟨nodup_taskInputs.filter _, nodup_taskInputs.filter _, fun a ha b hb => by
    have ha := of_decide_eq_true (List.mem_filter.1 ha).2
    have hb := of_decide_eq_true (List.mem_filter.1 hb).2
    omega⟩

theorem pairwise_inputOrder : inputOrder.Pairwise fun x y => 96 ≤ y ∧ y < 112 → 96 ≤ x ∧ x < 112 :=
  List.pairwise_append.2 ⟨List.pairwise_of_forall_mem_list fun a ha b _ _ => of_decide_eq_true (List.mem_filter.1 ha).2,
    List.pairwise_of_forall_mem_list fun a _ b hb h => by
      have hb := of_decide_eq_true (List.mem_filter.1 hb).2
      omega,
    fun a ha b _ _ => of_decide_eq_true (List.mem_filter.1 ha).2⟩

section
variable (s : State) (k c0 : Nat)

theorem arrivals_perm : (s.arrivals [(k, c0)]).Perm (s.unsorted k c0) := by
  rw [arrivals_eq]
  simpa using sorted_perm [] (s.unsorted k c0)

/-- An arrival is of its input's time. -/
theorem arrivals_time : s.arrivals [(k, c0)] = (s.reachedInputs k c0).map fun ti => (arrivalAt ti c0, ti) := by
  have hmem : ∀ m ∈ s.arrivals [(k, c0)], (arrivalAt m.2 c0, m.2) = m := by
    intro m hm
    obtain ⟨ti, -, rfl⟩ := List.mem_map.1 ((arrivals_perm s k c0).mem_iff.1 hm)
    rfl
  rw [State.reachedInputs, List.map_map]
  exact (List.map_id _).symm.trans (List.map_congr_left fun m hm => (hmem m hm).symm)

theorem reachedInputs_perm : (s.reachedInputs k c0).Perm (s.inputsOf k) := by
  have h := (arrivals_perm s k c0).map Prod.snd
  rwa [State.unsorted, List.map_map, show (Prod.snd ∘ fun ti => (arrivalAt ti c0, ti)) = id from rfl, List.map_id] at h

theorem reachedInputs_nodup : (s.reachedInputs k c0).Nodup := (reachedInputs_perm s k c0).nodup_iff.2 (nodup_inputOrder.filter _)

theorem mem_reachedInputs {ti : Nat} : ti ∈ s.reachedInputs k c0 ↔ ti ∈ taskInputs ∧ s.wireHits ti [k] ≠ [] := by
  rw [(reachedInputs_perm s k c0).mem_iff, State.inputsOf, List.mem_filter, mem_inputOrder]
  simp

/-- The cancel of a timer comes before its start. -/
theorem cancel_before_start {t : Nat} (ht : t < 16) {before after : List Nat} (h : s.reachedInputs k c0 = before ++ (80 + t) :: after) : 96 + t ∉ after := by
  intro hmem
  have htime : arrivalAt (96 + t) c0 = arrivalAt (80 + t) c0 := by
    have hcycle : inputCycle (96 + t) = inputCycle (80 + t) := by
      unfold inputCycle
      rw [if_neg (by omega), if_neg (by omega), if_pos (by omega), if_neg (by omega), if_neg (by omega), if_pos (by omega)]
    unfold arrivalAt
    rw [hcycle]
  let cancelsFirst (x y : Nat × Nat) : Prop := 96 ≤ y.2 ∧ y.2 < 112 → 96 ≤ x.2 ∧ x.2 < 112
  have hpair : ((s.arrivals [(k, c0)]).filter fun g => g.1 == arrivalAt (80 + t) c0).Pairwise cancelsFirst := by
    rw [arrivals_eq, filter_sorted, List.filter_nil, List.nil_append]
    exact ((pairwise_inputOrder.filter _).map (S := cancelsFirst) (fun ti => (arrivalAt ti c0, ti)) fun _ _ h => h).filter _
  rw [arrivals_time, h, List.map_append, List.map_cons, List.filter_append, List.filter_cons, if_pos (by simp)] at hpair
  have hlater := (List.pairwise_cons.1 (List.pairwise_append.1 hpair).2.1).1 (arrivalAt (96 + t) c0, 96 + t)
    (List.mem_filter.2 ⟨List.mem_map.2 ⟨_, hmem, rfl⟩, by simp [htime]⟩)
  have := hlater ⟨by simp, by simp; omega⟩
  simp at this
  omega

end

end Sys2Proof.Machine

/-! What the trigger of one task input leaves of the others (R448 to R451). -/

namespace Sys2Proof.Machine

/-! ## Timers (R450) -/

theorem timerState_inj {a b : Nat} (h : Ev.TIMER_STATE a = Ev.TIMER_STATE b) : a = b := by
  unfold Ev.TIMER_STATE at h
  omega

theorem timerState_number (n : Nat) : Ev.TIMER_STATE n % 0x10000 = 0x21 := by
  unfold Ev.TIMER_STATE
  omega

theorem timerExpire_spec (s : State) (n due : Nat) :
    let t := s.timerExpire n due
    t.fab = { s.fab with timers := tdel s.fab.timers n } ∧ t.firings = s.firings ++ [(224 + n, due)] ∧ (n < 16 → t.rd (Ev.TIMER_STATE n) = 0) ∧
      OnlyChanges [.fab, .firings] [Ev.TIMER_STATE n] s t := by
  intro t
  let u : State := { s with fab := { s.fab with timers := tdel s.fab.timers n }, firings := s.firings ++ [(224 + n, due)] }
  have hset : OnlyChanges [.fab, .firings] [] s u := by
    refine ⟨rfl, fun p hp => ?_, fun _ _ => rfl⟩
    cases p with
    | fab | firings => simp at hp
    | mem => exact fun _ => rfl
    | buffers | qps => exact ⟨rfl, rfl⟩
    | nmp => exact ⟨rfl, rfl, rfl, rfl, rfl⟩
    | _ => rfl
  have hidle : OnlyChanges [] [Ev.TIMER_STATE n] u t := wr_only ..
  exact ⟨hidle.fab (by simp), hidle.firings (by simp), fun hn => rd_wr_word (isWord_timer ⟨n, hn⟩) (by omega) u, (hset.trans hidle).mono (by simp) (by simp)⟩

/-- Timers that expire one after the other. -/
theorem timersExpire_spec (l : List (Nat × Nat)) (s : State) :
    let t := l.foldl (fun (t : State) e => t.timerExpire e.1 e.2) s
    (∃ timers, t.fab = { s.fab with timers := timers } ∧ (∀ e ∈ timers, e ∈ s.fab.timers) ∧
      ∀ n, (∀ e ∈ l, e.1 ≠ n) → tfind timers n = tfind s.fab.timers n) ∧
      (∀ n < 16, t.rd (Ev.TIMER_STATE n) = s.rd (Ev.TIMER_STATE n) ∨ t.rd (Ev.TIMER_STATE n) = 0) ∧
      OnlyChanges [.fab, .firings] (l.map fun e => Ev.TIMER_STATE e.1) s t := by
  induction l generalizing s with
  | nil => exact ⟨⟨_, rfl, fun _ h => h, fun _ _ => rfl⟩, fun _ _ => .inl rfl, .nothing s⟩
  | cons x l ih =>
    obtain ⟨hfab, -, hidle, honly⟩ := timerExpire_spec s x.1 x.2
    obtain ⟨⟨timers, hfab', hsub, hfind⟩, hstate, honly'⟩ := ih (s.timerExpire x.1 x.2)
    rw [hfab] at hfab' hsub hfind
    refine ⟨⟨timers, hfab', fun e he => (List.mem_filter.1 (hsub e he)).1, fun n hn => ?_⟩, fun n hn => ?_, (honly.trans honly').mono (by simp) (by simp)⟩
    · rw [hfind n fun e he => hn e (List.mem_cons_of_mem _ he)]
      exact tfind_tdel_other (Ne.symm (hn x (List.mem_cons_self ..)))
    · rcases hstate n hn with h | h
      · by_cases hx : n = x.1
        · exact .inr (h.trans ((congrArg (fun m => (s.timerExpire x.1 x.2).rd (Ev.TIMER_STATE m)) hx).trans (hidle (by omega))))
        · exact .inl (h.trans (honly.rd fun hmem => hx (timerState_inj (List.mem_singleton.1 hmem))))
      · exact .inr h

theorem expireTimers_spec (s : State) (now : Nat) :
    let t := s.expireTimers now
    (∃ timers, t.fab = { s.fab with timers := timers } ∧ (∀ e ∈ timers, e ∈ s.fab.timers) ∧
      ∀ n, (∀ e ∈ s.fab.timers, e.1 = n → now < e.2) → tfind timers n = tfind s.fab.timers n ∧ t.rd (Ev.TIMER_STATE n) = s.rd (Ev.TIMER_STATE n)) ∧
      (∀ n < 16, t.rd (Ev.TIMER_STATE n) = s.rd (Ev.TIMER_STATE n) ∨ t.rd (Ev.TIMER_STATE n) = 0) ∧
      ∃ ids, (∀ id ∈ ids, id % 0x10000 = 0x21) ∧ OnlyChanges [.fab, .firings] ids s t := by
  intro t
  obtain ⟨⟨timers, hfab, hsub, hfind⟩, hstate, honly⟩ := timersExpire_spec (s.fab.timers.filter fun e => decide (e.2 ≤ now)) s
  have hother {n : Nat} (hn : ∀ e ∈ s.fab.timers, e.1 = n → now < e.2) : ∀ e ∈ s.fab.timers.filter fun e => decide (e.2 ≤ now), e.1 ≠ n := by
    intro e he hen
    obtain ⟨hmem, hdue⟩ := List.mem_filter.1 he
    have := hn e hmem hen
    simp at hdue
    omega
  refine ⟨⟨timers, hfab, hsub, fun n hn => ⟨hfind n (hother hn), honly.rd fun hmem => ?_⟩⟩, hstate, _, fun id hid => ?_, honly⟩
  · obtain ⟨e, he, hid⟩ := List.mem_map.1 hmem
    exact hother hn e he (timerState_inj hid)
  · obtain ⟨e, -, rfl⟩ := List.mem_map.1 hid
    exact timerState_number e.1

/-! ## What an input acts on (Table 17-2) -/

/-- What the act of an input may change. -/
def actParts (ti : Nat) : List Part := [.trig ti, .fab, .firings, .out, .obs]

def actIds (ti : Nat) : List Nat := Port.XTRIG_COUNT ti :: Ev.TIMER_STATE (ti - 80) :: Ev.TIMER_STATE (ti - 96) :: traceIds

theorem trigPulse_spec (s : State) (n : Nat) :
    ((s.trig n).endAt = none → ((s.trigPulse n).trig n).endAt = some (s.clock + evenNs (s.rd (Port.XTRIG_WIDTH n)))) ∧ (s.trigPulse n).fab = s.fab ∧
      OnlyChanges [.trig n, .firings, .out] [Port.XTRIG_COUNT n] s (s.trigPulse n) := by
  let x : TrigSt := { s.trig n with endAt := some (max (s.clock + evenNs (s.rd (Port.XTRIG_WIDTH n))) ((s.trig n).endAt.getD 0)) }
  let u := (s.setTrig n x).count (Port.XTRIG_COUNT n)
  have hset : OnlyChanges [.trig n] [] s (s.setTrig n x) := setTrig_only ..
  have hcount : OnlyChanges [] [Port.XTRIG_COUNT n] (s.setTrig n x) u := count_only ..
  have hu := hset.trans hcount
  have hpin : OnlyChanges [.out] [] u (u.trigPin n true) := by
    unfold State.trigPin
    split
    · exact pin_only ..
    · exact .nothing u
  have hfire := hpin.trans (fire_only (u.trigPin n true) (16 + n))
  have htrig : u.trig n = x := (hcount.2.1 (.trig n) (by simp)).trans (trig_setTrig_same ..)
  have heq : s.trigPulse n = if (s.trig n).endAt.isSome then u else (u.trigPin n true).fire (16 + n) := rfl
  rw [heq]
  split
  · next h => exact ⟨fun hnone => by simp [hnone] at h, hu.fab (by simp), hu.mono (by simp) (by simp)⟩
  · refine ⟨fun hnone => ?_, (hu.trans hfire).fab (by simp), (hu.trans hfire).mono (by simp) (by simp)⟩
    have hlast : ((u.trigPin n true).fire (16 + n)).trig n = x := (hfire.2.1 (.trig n) (by simp)).trans htrig
    rw [hlast]
    simp [x, hnone]

/-- What the fabric keeps for one input. -/
def FabSpared (ti : Nat) (f g : FabSt) : Prop :=
  (16 ≤ ti → ti < 80 → g.ringTx.contains (ti - 16) = f.ringTx.contains (ti - 16)) ∧ (112 ≤ ti → ti < 118 → tfind g.evios (ti - 112) = tfind f.evios (ti - 112)) ∧
    (118 ≤ ti → ti < 134 → tget g.markBusy (ti - 118) 0 = tget f.markBusy (ti - 118) 0) ∧ (ti = 184 → g.wakeNotify = f.wakeNotify) ∧
    (ti = 185 → g.wakeProfile = f.wakeProfile)

theorem FabSpared.refl (ti : Nat) (f : FabSt) : FabSpared ti f f := ⟨fun _ _ => rfl, fun _ _ => rfl, fun _ _ => rfl, fun _ => rfl, fun _ => rfl⟩

theorem FabSpared.trans {ti : Nat} {f g h : FabSt} (hf : FabSpared ti f g) (hg : FabSpared ti g h) : FabSpared ti f h := by
  obtain ⟨h1, h2, h3, h4, h5⟩ := hf
  obtain ⟨g1, g2, g3, g4, g5⟩ := hg
  exact ⟨fun a b => (g1 a b).trans (h1 a b), fun a b => (g2 a b).trans (h2 a b), fun a b => (g3 a b).trans (h3 a b), fun a => (g4 a).trans (h4 a),
    fun a => (g5 a).trans (h5 a)⟩

theorem FabSpared.timers (ti : Nat) (f : FabSt) (timers : Table Nat) : FabSpared ti f { f with timers := timers } :=
  ⟨fun _ _ => rfl, fun _ _ => rfl, fun _ _ => rfl, fun _ => rfl, fun _ => rfl⟩

/-- The act of an input leaves what the fabric keeps for the others, and the timers but its own. -/
theorem inputAct_spec (s : State) (ti now pos : Nat) :
    OnlyChanges (actParts ti) (actIds ti) s (s.inputAct ti now pos) ∧
      ∀ tj ∈ taskInputs, ti ∈ taskInputs → tj ≠ ti → FabSpared tj s.fab (s.inputAct ti now pos).fab := by
  unfold State.inputAct
  split
  · obtain ⟨-, hfab, honly⟩ := trigPulse_spec s ti
    exact ⟨honly.mono (by simp [actParts]) (by simp [actIds]), fun tj _ _ _ => hfab ▸ .refl ..⟩
  split
  · next hlow hhigh =>
    refine ⟨(setFab_only s _).mono (by simp [actParts]) (by simp), fun tj _ _ hne => ⟨fun h1 h2 => ?_, fun _ _ => rfl, fun _ _ => rfl, fun _ => rfl, fun _ => rfl⟩⟩
    show (s.fab.ringTx ++ [ti - 16]).contains (tj - 16) = s.fab.ringTx.contains (tj - 16)
    have : tj - 16 ≠ ti - 16 := by omega
    simp [this]
  split
  · dsimp only
    have hset := setFab_only s { s.fab with timers := tins s.fab.timers (ti - 80) (now + s.rd (Ev.TIMER_DELAY (ti - 80))) }
    have hw := wr_only { s with fab := { s.fab with timers := tins s.fab.timers (ti - 80) (now + s.rd (Ev.TIMER_DELAY (ti - 80))) } } (Ev.TIMER_STATE (ti - 80)) 1
    refine ⟨(hset.trans hw).mono (by simp [actParts]) (by simp [actIds]), fun tj _ _ _ => ?_⟩
    rw [hw.fab (by simp)]
    exact .timers ..
  split
  · dsimp only
    have hset := setFab_only s { s.fab with timers := tdel s.fab.timers (ti - 96) }
    have hw := wr_only { s with fab := { s.fab with timers := tdel s.fab.timers (ti - 96) } } (Ev.TIMER_STATE (ti - 96)) 0
    refine ⟨(hset.trans hw).mono (by simp [actParts]) (by simp [actIds]), fun tj _ _ _ => ?_⟩
    rw [hw.fab (by simp)]
    exact .timers ..
  split
  · dsimp only
    have hset := setFab_only s { s.fab with evios := tins s.fab.evios (ti - 112) (now + evenNs (s.rd (Ev.EVIO_WIDTH (ti - 112)))) }
    have hpin := pin_only { s with fab := { s.fab with evios := tins s.fab.evios (ti - 112) (now + evenNs (s.rd (Ev.EVIO_WIDTH (ti - 112)))) } }
      ("EVIO" ++ toString (ti - 112))
      (State.evioActive { s with fab := { s.fab with evios := tins s.fab.evios (ti - 112) (now + evenNs (s.rd (Ev.EVIO_WIDTH (ti - 112)))) } } (ti - 112))
    refine ⟨(hset.trans hpin).mono (by simp [actParts]) (by simp), fun tj _ _ hne => ?_⟩
    rw [hpin.fab (by simp)]
    exact ⟨fun _ _ => rfl, fun _ _ => tfind_tins_other (by omega), fun _ _ => rfl, fun _ => rfl, fun _ => rfl⟩
  split
  · dsimp only
    have hset := setFab_only s { s.fab with markBusy := tins s.fab.markBusy (ti - 118) (now + markBusyNs) }
    have htrace := trace_only { s with fab := { s.fab with markBusy := tins s.fab.markBusy (ti - 118) (now + markBusyNs) } } 6 (ti - 118)
      (leBytes 8 (deviceTimeAt s.time now))
    refine ⟨(hset.trans htrace).mono (by simp [actParts]) (by simp +contextual [actIds]), fun tj _ _ hne => ?_⟩
    rw [htrace.fab (by simp)]
    refine ⟨fun _ _ => rfl, fun _ _ => rfl, fun h1 h2 => ?_, fun _ => rfl, fun _ => rfl⟩
    exact congrArg (Option.getD · 0) (tfind_tins_other (by omega))
  split
  · exact ⟨(setFab_only s _).mono (by simp [actParts]) (by simp),
      fun tj _ _ hne => ⟨fun _ _ => rfl, fun _ _ => rfl, fun _ _ => rfl, fun h => by omega, fun _ => rfl⟩⟩
  · refine ⟨(setFab_only s _).mono (by simp [actParts]) (by simp),
      fun tj _ hti hne => ⟨fun _ _ => rfl, fun _ _ => rfl, fun _ _ => rfl, fun _ => rfl, fun h => ?_⟩⟩
    have := mem_taskInputs.1 hti
    omega

end Sys2Proof.Machine

/-! One firing reaches its task inputs, one after the other (R446 to R450). -/

namespace Sys2Proof.Machine

/-! ## The trigger of one input -/

/-- A coincidence of wires counts. -/
def State.coincided (s : State) (ti : Nat) (rest : List Nat) : State :=
  if rest.isEmpty then s else (s.eventFlag Ev.TI_COINCIDENT_FLAG ti).count (Ev.TI_COINCIDENT ti)

/-- A busy input drops its trigger. -/
def State.triggerDropped (s : State) (ti : Nat) : State := (s.eventFlag Ev.TI_OVERRUN ti).count (Ev.TI_OVERRUNS ti)

/-- The trigger of an input counts. -/
def State.triggerCounted (s : State) (ti : Nat) : State := (s.eventFlag Ev.TI_TRIGGERED ti).count (Ev.TI_TRIGGERS ti)

/-- The device clock and the timers, when a firing arrives. -/
def State.arrived (s : State) (ti now : Nat) : State := (if inputCycle ti = 20 then s.at now else s).expireTimers now

/-- A firing reaches one input. -/
def State.reached (s : State) (k c0 ti : Nat) : State := (s.arrived ti (arrivalAt ti c0 / 10)).inputTrigger ti (arrivalAt ti c0 / 10) [k]

theorem inputTrigger_none {s : State} {ti : Nat} {srcs : List Nat} (h : s.wireHits ti srcs = []) (now : Nat) : s.inputTrigger ti now srcs = s := by
  unfold State.inputTrigger
  dsimp only
  rw [h]

theorem inputTrigger_hits {s : State} {ti pos : Nat} {srcs rest : List Nat} (h : s.wireHits ti srcs = pos :: rest) (now : Nat) :
    s.inputTrigger ti now srcs = if (s.coincided ti rest).inputBusy ti now then (s.coincided ti rest).triggerDropped ti
      else ((s.coincided ti rest).triggerCounted ti).inputAct ti now pos := by
  unfold State.inputTrigger
  dsimp only
  rw [h]
  rfl

theorem deliver_single (s : State) (k c0 : Nat) :
    s.deliver [(k, c0)] = if (s.sourceFires k).1 then ((s.sourceFires k).2.reachedInputs k c0).foldl (fun t ti => t.reached k c0 ti) (s.sourceFires k).2
      else (s.sourceFires k).2 := by
  have heq : s.deliver [(k, c0)] =
      ((s.sourceFires k).2.arrivals (if (s.sourceFires k).1 then [] ++ [(k, c0)] else [])).foldl (fun (t : State) m =>
        (t.arrived m.2 (m.1 / 10)).inputTrigger m.2 (m.1 / 10)
          (((if (s.sourceFires k).1 then [] ++ [(k, c0)] else []).filter fun (f : Nat × Nat) => arrivalAt m.2 f.2 == m.1).map Prod.fst)) (s.sourceFires k).2 := rfl
  rw [heq]
  split
  · rw [List.nil_append, arrivals_time, List.foldl_map]
    refine List.foldl_ext _ _ _ fun t ti _ => ?_
    simp [State.reached]
  · have hnone : (s.sourceFires k).2.arrivals [] = [] := by
      have hall : (inputOrder.flatMap fun ti => ((([] : List (Nat × Nat)).filter fun f => !((s.sourceFires k).2.wireHits ti [f.1]).isEmpty).map
          fun f => (arrivalAt ti f.2, ti)).eraseDups) = [] := by simp
      unfold State.arrivals
      dsimp only
      rw [hall]
      rfl
    rw [hnone]
    rfl

/-! ## What a trigger leaves of the other inputs -/

/-- The last four digits of the parameters that an input reads and of those that count its triggers. -/
def inputNumbers : List Nat := [0x42, 0x20, 0x30, 0x101, 0x102, 0x103, 0x203, 0x204]

/-- The parameters that an input reads, and those that count its triggers. -/
def inputIds (ti : Nat) : List Nat :=
  [Port.XTRIG_WIDTH ti, Ev.TIMER_DELAY (ti - 80), Ev.EVIO_DIR (ti - 112), Ev.WIRE_ENABLE ti, Ev.TI_TRIGGERS ti, Ev.TI_OVERRUNS ti]

/-- The flag words of an input. -/
def inputFlags (ti : Nat) : List Nat := [Ev.TI_TRIGGERED (ti / 32), Ev.TI_OVERRUN (ti / 32)]

theorem inputIds_numbers (ti : Nat) : (inputIds ti ++ inputFlags ti).map (· % 0x10000) = inputNumbers := by
  simp only [inputIds, inputFlags, Port.XTRIG_WIDTH, Ev.TIMER_DELAY, Ev.EVIO_DIR, Ev.WIRE_ENABLE, Ev.TI_TRIGGERS, Ev.TI_OVERRUNS, Ev.TI_TRIGGERED,
    Ev.TI_OVERRUN, List.cons_append, List.nil_append, List.map_cons, List.map_nil, Nat.add_mul_mod_self_right]
  rfl

/-- Parameters of other numbers are none of an input's. -/
theorem not_mem_inputIds {ti : Nat} {ids : List Nat} (h : ∀ id ∈ ids, id % 0x10000 ∉ inputNumbers) : ∀ id ∈ inputIds ti ++ inputFlags ti, id ∉ ids :=
  fun _ hid hmem => h _ hmem (inputIds_numbers ti ▸ List.mem_map_of_mem hid)

/-- What a trigger of another input leaves of an input: its parameters, its flags, its output, what the fabric keeps for it. -/
structure InputSpared (ti : Nat) (s t : State) : Prop where
  params : ∀ id ∈ inputIds ti, t.rd id = s.rd id
  flags : ∀ id ∈ inputFlags ti, bit (s.rd id) (ti % 32) = true → bit (t.rd id) (ti % 32) = true
  trig : t.trig ti = s.trig ti
  fab : FabSpared ti s.fab t.fab

theorem InputSpared.refl (ti : Nat) (s : State) : InputSpared ti s s := ⟨fun _ _ => rfl, fun _ _ h => h, rfl, .refl ..⟩

theorem InputSpared.trans {ti : Nat} {s t u : State} (h : InputSpared ti s t) (g : InputSpared ti t u) : InputSpared ti s u :=
  ⟨fun id hid => (g.params id hid).trans (h.params id hid), fun id hid hb => g.flags id hid (h.flags id hid hb), g.trig.trans h.trig, h.fab.trans g.fab⟩

/-- A change of other parameters spares an input. -/
theorem InputSpared.of {ti : Nat} {ps : List Part} {ids : List Nat} {s t : State} (h : OnlyChanges ps ids s t) (hids : ∀ id ∈ ids, id % 0x10000 ∉ inputNumbers)
    (htrig : .trig ti ∉ ps) (hfab : FabSpared ti s.fab t.fab) : InputSpared ti s t := by
  have hout := not_mem_inputIds (ti := ti) hids
  refine ⟨fun id hid => h.rd (hout id (List.mem_append_left _ hid)), fun id hid hb => ?_, h.2.1 (.trig ti) htrig, hfab⟩
  rwa [h.rd (hout id (List.mem_append_right _ hid))]

/-- Whether an input is busy is read off what is kept for it. -/
theorem InputSpared.busy {ti : Nat} {s t : State} (h : InputSpared ti s t) (hti : ti ∈ taskInputs) (htimer : ti < 80 ∨ 96 ≤ ti) (now : Nat) :
    t.inputBusy ti now = s.inputBusy ti now := by
  obtain ⟨hring, hevio, hmark, hnotify, hprofile⟩ := h.fab
  have hlast : ti < 134 ∨ ti = 184 ∨ ti = 185 := mem_taskInputs.1 hti
  have hdir : t.rd (Ev.EVIO_DIR (ti - 112)) = s.rd (Ev.EVIO_DIR (ti - 112)) := h.params _ (by simp [inputIds])
  unfold State.inputBusy
  by_cases h1 : ti < 16
  · rw [if_pos h1, if_pos h1, h.trig]
  rw [if_neg h1, if_neg h1]
  by_cases h2 : ti < 80
  · rw [if_pos h2, if_pos h2, hring (by omega) h2]
  have h96 : ¬ti < 96 := by omega
  rw [if_neg h2, if_neg h2, if_neg h96, if_neg h96]
  by_cases h3 : ti < 112
  · rw [if_pos h3, if_pos h3]
  rw [if_neg h3, if_neg h3]
  by_cases h4 : ti < 118
  · rw [if_pos h4, if_pos h4, hevio (by omega) h4, hdir]
  rw [if_neg h4, if_neg h4]
  by_cases h5 : ti < 134
  · rw [if_pos h5, if_pos h5, hmark (by omega) h5]
  rw [if_neg h5, if_neg h5]
  by_cases h6 : ti = 184
  · rw [if_pos h6, if_pos h6, hnotify h6]
  · rw [if_neg h6, if_neg h6, hprofile (by omega)]

theorem InputSpared.wireHits {ti : Nat} {s t : State} (h : InputSpared ti s t) (srcs : List Nat) : t.wireHits ti srcs = s.wireHits ti srcs := by
  unfold State.wireHits
  rw [h.params (Ev.WIRE_ENABLE ti) (by simp [inputIds])]

/-- A flag that is set leaves the flags of an input that stand, and everything else of it. -/
theorem InputSpared.eventFlag {r : Nat → Nat} {k : Nat} (hword : isWord (r (k / 32)) = true) (s : State) (ti : Nat) (hr : r (k / 32) ∉ inputIds ti) :
    InputSpared ti s (s.eventFlag r k) := by
  have honly := eventFlag_only s r k
  refine ⟨fun id hid => honly.rd fun hmem => hr (List.mem_singleton.1 hmem ▸ hid), fun id hid hb => ?_, honly.2.1 (.trig ti) (by simp), ?_⟩
  · by_cases h : id = r (k / 32)
    · rw [h, bit_eventFlag hword s (Nat.mod_lt _ (by decide)), ← h, hb]
      rfl
    · rwa [honly.rd (by simpa using h)]
  · rw [honly.fab (by simp)]
    exact .refl ..

theorem traceIds_number : ∀ id ∈ traceIds, id % 0x10000 ∉ inputNumbers := by decide

section
variable {ti tj : Nat} (s : State)

theorem arrived_spec (now : Nat) : let t := s.arrived tj now
    t.clock = (if inputCycle tj = 20 then max s.clock now else s.clock) ∧ (∃ timers, t.fab = { s.fab with timers := timers }) ∧
      (∃ ids, (∀ id ∈ ids, id % 0x10000 = 0x21) ∧ OnlyChanges [.clock, .fab, .firings] ids s t) ∧ InputSpared ti s t := by
  intro t
  let u := if inputCycle tj = 20 then s.at now else s
  have hu : u.clock = (if inputCycle tj = 20 then max s.clock now else s.clock) ∧ OnlyChanges [.clock] [] s u := by
    unfold u
    split
    · exact ⟨rfl, at_only ..⟩
    · exact ⟨rfl, .nothing s⟩
  obtain ⟨⟨timers, hfab, -, -⟩, -, ids, hids, honly⟩ := expireTimers_spec u now
  have hall := hu.2.trans honly
  have hfab' : t.fab = { s.fab with timers := timers } := hfab.trans (by rw [hu.2.fab (by simp)])
  refine ⟨(honly.clock (by simp)).trans hu.1, ⟨timers, hfab'⟩, ⟨_, by simpa using hids, hall.mono (by simp) fun _ h => h⟩,
    .of hall (by simpa using fun id hid => by rw [hids id hid]; decide) (by simp) ?_⟩
  rw [hfab']
  exact .timers ..

theorem coincided_only (rest : List Nat) : OnlyChanges [] [Ev.TI_COINCIDENT_FLAG (tj / 32), Ev.TI_COINCIDENT tj] s (s.coincided tj rest) := by
  unfold State.coincided
  split
  · exact .nothing s
  · exact ((eventFlag_only ..).trans (count_only ..)).mono (by simp) (by simp)

theorem coincidence_number : ∀ id ∈ [Ev.TI_COINCIDENT_FLAG (tj / 32), Ev.TI_COINCIDENT tj], id % 0x10000 ∉ inputNumbers := by
  have hflag : Ev.TI_COINCIDENT_FLAG (tj / 32) % 0x10000 = 0x205 := Nat.add_mul_mod_self_right ..
  have hcount : Ev.TI_COINCIDENT tj % 0x10000 = 0x104 := Nat.add_mul_mod_self_right ..
  simp only [List.mem_cons, List.not_mem_nil, or_false, forall_eq_or_imp, forall_eq, hflag, hcount]
  decide

theorem coincided_spares (rest : List Nat) : InputSpared ti s (s.coincided tj rest) := by
  refine .of (coincided_only s rest) coincidence_number (by simp) ?_
  rw [(coincided_only s rest).fab (by simp)]
  exact .refl ..

theorem inputIds_apart (h : tj ≠ ti) : ∀ id ∈ [Ev.TI_TRIGGERED (tj / 32), Ev.TI_OVERRUN (tj / 32), Ev.TI_TRIGGERS tj, Ev.TI_OVERRUNS tj], id ∉ inputIds ti := by
  intro id hid hmem
  simp only [inputIds, List.mem_cons, List.not_mem_nil, or_false] at hid hmem
  unfold Ev.TI_TRIGGERED Ev.TI_OVERRUN Ev.TI_TRIGGERS Ev.TI_OVERRUNS at hid
  unfold Port.XTRIG_WIDTH Ev.TIMER_DELAY Ev.EVIO_DIR Ev.WIRE_ENABLE Ev.TI_TRIGGERS Ev.TI_OVERRUNS at hmem
  omega

end

end Sys2Proof.Machine

/-! What a trigger does at its own input, and at no other (R446 to R450). -/

namespace Sys2Proof.Machine

/-! ## Other inputs -/

/-- The last four digits of what a trigger counts. -/
def triggerNumbers : List Nat := [0x205, 0x104, 0x203, 0x102, 0x204, 0x103, 0x46, 0x21, 0x32, 0x33]

theorem actIds_number (ti : Nat) : ∀ id ∈ actIds ti, id % 0x10000 ∈ triggerNumbers ∧ id % 0x10000 ∉ inputNumbers := by
  intro id hid
  simp only [actIds, List.mem_cons] at hid
  rcases hid with rfl | rfl | rfl | hid
  · rw [show Port.XTRIG_COUNT ti % 0x10000 = 0x46 from Nat.add_mul_mod_self_right ..]; decide
  · rw [timerState_number]; decide
  · rw [timerState_number]; decide
  · exact (by decide : ∀ id ∈ traceIds, id % 0x10000 ∈ triggerNumbers ∧ id % 0x10000 ∉ inputNumbers) id hid

section
variable {ti tj : Nat} (s : State)

theorem triggerDropped_only : OnlyChanges [] [Ev.TI_OVERRUN (tj / 32), Ev.TI_OVERRUNS tj] s (s.triggerDropped tj) :=
  ((eventFlag_only ..).trans (count_only ..)).mono (by simp) (by simp)

theorem triggerCounted_only : OnlyChanges [] [Ev.TI_TRIGGERED (tj / 32), Ev.TI_TRIGGERS tj] s (s.triggerCounted tj) :=
  ((eventFlag_only ..).trans (count_only ..)).mono (by simp) (by simp)

/-- A counter outside an input's parameters. -/
theorem count_spares {id : Nat} (hid : id ∉ inputIds ti ++ inputFlags ti) : InputSpared ti s (s.count id) := by
  have honly := count_only s id
  have hout {j : Nat} (hj : j ∈ inputIds ti ++ inputFlags ti) : j ∉ [id] := fun hmem => hid (List.mem_singleton.1 hmem ▸ hj)
  refine ⟨fun j hj => honly.rd (hout (List.mem_append_left _ hj)), fun j hj hb => ?_, honly.2.1 (.trig ti) (by simp), ?_⟩
  · rwa [honly.rd (hout (List.mem_append_right _ hj))]
  · rw [honly.fab (by simp)]
    exact .refl ..

theorem counters_apart (h : tj ≠ ti) : ∀ id ∈ [Ev.TI_TRIGGERS tj, Ev.TI_OVERRUNS tj], id ∉ inputIds ti ++ inputFlags ti := by
  intro id hid hmem
  rcases List.mem_append.1 hmem with hmem | hmem
  · exact inputIds_apart h id (by simp_all) hmem
  · simp only [inputFlags, List.mem_cons, List.not_mem_nil, or_false] at hid hmem
    unfold Ev.TI_TRIGGERS Ev.TI_OVERRUNS at hid
    unfold Ev.TI_TRIGGERED Ev.TI_OVERRUN at hmem
    omega

variable (htj : tj ∈ taskInputs)
include htj

theorem inputFlag_word : isWord (Ev.TI_TRIGGERED (tj / 32)) = true ∧ isWord (Ev.TI_OVERRUN (tj / 32)) = true := by
  have hlt := taskInput_lt htj
  obtain ⟨htriggered, hoverrun, -⟩ := isWord_inputFlags ⟨tj / 32, by omega⟩
  exact ⟨htriggered, hoverrun⟩

theorem triggerDropped_spares (h : tj ≠ ti) : InputSpared ti s (s.triggerDropped tj) :=
  (InputSpared.eventFlag (inputFlag_word htj).2 s ti (inputIds_apart h _ (by simp))).trans (count_spares _ (counters_apart h _ (by simp)))

theorem triggerCounted_spares (h : tj ≠ ti) : InputSpared ti s (s.triggerCounted tj) :=
  (InputSpared.eventFlag (inputFlag_word htj).1 s ti (inputIds_apart h _ (by simp))).trans (count_spares _ (counters_apart h _ (by simp)))

theorem inputAct_spares (hti : ti ∈ taskInputs) (h : tj ≠ ti) (now pos : Nat) : InputSpared ti s (s.inputAct tj now pos) := by
  obtain ⟨honly, hfab⟩ := inputAct_spec s tj now pos
  exact .of honly (fun id hid => (actIds_number tj id hid).2) (by simp [actParts, h.symm]) (hfab ti hti htj h.symm)

/-- A trigger spares every other input. -/
theorem reached_spares (hti : ti ∈ taskInputs) (h : tj ≠ ti) (k c0 : Nat) : InputSpared ti s (s.reached k c0 tj) := by
  have harrived := (arrived_spec (ti := ti) (tj := tj) s (arrivalAt tj c0 / 10)).2.2.2
  unfold State.reached
  cases hhits : (s.arrived tj (arrivalAt tj c0 / 10)).wireHits tj [k] with
  | nil =>
    rw [inputTrigger_none hhits]
    exact harrived
  | cons pos rest =>
    rw [inputTrigger_hits hhits]
    have hcoincided := harrived.trans (coincided_spares (ti := ti) (tj := tj) (s.arrived tj (arrivalAt tj c0 / 10)) rest)
    split
    · exact hcoincided.trans (triggerDropped_spares _ htj h)
    · exact (hcoincided.trans (triggerCounted_spares _ htj h)).trans (inputAct_spares _ htj hti h ..)

end

/-! ## The device clock -/

/-- What a trigger changes, whatever its input. -/
theorem reached_only (s : State) (k c0 ti : Nat) :
    (s.reached k c0 ti).clock = (if inputCycle ti = 20 then max s.clock (arrivalAt ti c0 / 10) else s.clock) ∧
      ∃ ids, (∀ id ∈ ids, id % 0x10000 ∈ triggerNumbers) ∧ OnlyChanges (.clock :: actParts ti) ids s (s.reached k c0 ti) := by
  obtain ⟨hclock, -, ⟨ids, hids, harrived⟩, -⟩ := arrived_spec (ti := ti) (tj := ti) s (arrivalAt ti c0 / 10)
  have hstart : OnlyChanges (.clock :: actParts ti) ids s (s.arrived ti (arrivalAt ti c0 / 10)) := harrived.mono (by simp [actParts]) fun _ h => h
  have hnumber : ∀ id ∈ ids, id % 0x10000 ∈ triggerNumbers := fun id hid => by rw [hids id hid]; decide
  unfold State.reached
  cases hhits : (s.arrived ti (arrivalAt ti c0 / 10)).wireHits ti [k] with
  | nil =>
    rw [inputTrigger_none hhits]
    exact ⟨hclock, ids, hnumber, hstart⟩
  | cons pos rest =>
    rw [inputTrigger_hits hhits]
    let u := (s.arrived ti (arrivalAt ti c0 / 10)).coincided ti rest
    have hcounters : ∀ id ∈ [Ev.TI_COINCIDENT_FLAG (ti / 32), Ev.TI_COINCIDENT ti, Ev.TI_OVERRUN (ti / 32), Ev.TI_OVERRUNS ti, Ev.TI_TRIGGERED (ti / 32),
        Ev.TI_TRIGGERS ti], id % 0x10000 ∈ triggerNumbers := by
      have hmap : ([Ev.TI_COINCIDENT_FLAG (ti / 32), Ev.TI_COINCIDENT ti, Ev.TI_OVERRUN (ti / 32), Ev.TI_OVERRUNS ti, Ev.TI_TRIGGERED (ti / 32),
          Ev.TI_TRIGGERS ti].map (· % 0x10000)) = [0x205, 0x104, 0x204, 0x103, 0x203, 0x102] := by
        simp only [Ev.TI_COINCIDENT_FLAG, Ev.TI_COINCIDENT, Ev.TI_TRIGGERS, Ev.TI_OVERRUNS, Ev.TI_TRIGGERED, Ev.TI_OVERRUN, List.map_cons, List.map_nil,
          Nat.add_mul_mod_self_right]
      intro id hid
      have hmem : id % 0x10000 ∈ ([0x205, 0x104, 0x204, 0x103, 0x203, 0x102] : List Nat) := hmap ▸ List.mem_map_of_mem hid
      exact (by decide : ∀ n ∈ ([0x205, 0x104, 0x204, 0x103, 0x203, 0x102] : List Nat), n ∈ triggerNumbers) _ hmem
    have hcoincided := coincided_only (tj := ti) (s.arrived ti (arrivalAt ti c0 / 10)) rest
    split
    · have hdropped := hcoincided.trans (triggerDropped_only (tj := ti) u)
      refine ⟨(hdropped.clock (by simp)).trans hclock, _, fun id hid => ?_, (hstart.trans hdropped).mono (by simp) fun _ h => h⟩
      rcases List.mem_append.1 hid with hid | hid
      · exact hnumber id hid
      · exact hcounters id (by simp at hid; simp; omega)
    · have hcounted := hcoincided.trans (triggerCounted_only (tj := ti) u)
      have hact := (inputAct_spec (u.triggerCounted ti) ti (arrivalAt ti c0 / 10) pos).1
      refine ⟨(hact.clock (by simp [actParts])).trans ((hcounted.clock (by simp)).trans hclock), _, fun id hid => ?_,
        ((hstart.trans hcounted).trans hact).mono (by simp) fun _ h => h⟩
      rcases List.mem_append.1 hid with hid | hid
      · rcases List.mem_append.1 hid with hid | hid
        · exact hnumber id hid
        · exact hcounters id (by simp at hid; simp; omega)
      · exact (actIds_number ti id hid).1

end Sys2Proof.Machine

/-! The input that a trigger reaches: its counters, its output, its timer (R448 to R450). -/

namespace Sys2Proof.Machine

/-! ## Counters and flags of the input -/

theorem inputIds_distinct : ∀ ti : Fin 192, Ev.TI_OVERRUNS ti ∉ [Ev.TI_TRIGGERED (ti / 32), Ev.TI_TRIGGERS ti] ∧ Ev.TI_OVERRUNS ti ≠ Ev.TI_OVERRUN (ti / 32) ∧
    Ev.TI_TRIGGERS ti ∉ [Ev.TI_OVERRUN (ti / 32), Ev.TI_OVERRUNS ti] ∧ Ev.TI_TRIGGERS ti ≠ Ev.TI_TRIGGERED (ti / 32) := by
  intro ti
  have hti := ti.isLt
  simp only [List.mem_cons, List.not_mem_nil, or_false]
  unfold Ev.TI_OVERRUNS Ev.TI_TRIGGERED Ev.TI_TRIGGERS Ev.TI_OVERRUN
  omega

/-- A flag is set and a counter counts. -/
theorem flagCounted_spec {r c : Nat → Nat} {ti : Nat} (hword : isWord (r (ti / 32)) = true) (hcounter : isCounter (c ti) = true) (hne : c ti ≠ r (ti / 32))
    (s : State) : ((s.eventFlag r ti).count (c ti)).rd (c ti) = countUp (s.rd (c ti)) 1 ∧
      bit (((s.eventFlag r ti).count (c ti)).rd (r (ti / 32))) (ti % 32) = true := by
  have hflag := eventFlag_only s r ti
  have hcount := count_only (s.eventFlag r ti) (c ti)
  refine ⟨?_, ?_⟩
  · rw [← hflag.rd (id := c ti) (by simpa using hne)]
    exact rd_count_counter hcounter _
  · rw [hcount.rd (by simpa using hne.symm), bit_eventFlag hword s (Nat.mod_lt _ (by decide))]
    simp

section
variable {ti : Nat} (hti : ti ∈ taskInputs) (s : State)
include hti

theorem triggerDropped_spec :
    (s.triggerDropped ti).rd (Ev.TI_OVERRUNS ti) = countUp (s.rd (Ev.TI_OVERRUNS ti)) 1 ∧
      bit ((s.triggerDropped ti).rd (Ev.TI_OVERRUN (ti / 32))) (ti % 32) = true ∧ (s.triggerDropped ti).rd (Ev.TI_TRIGGERS ti) = s.rd (Ev.TI_TRIGGERS ti) := by
  have hlt := taskInput_lt hti
  obtain ⟨-, hoverrun, htriggers, -⟩ := inputIds_distinct ⟨ti, hlt⟩
  obtain ⟨hcount, hflag⟩ := flagCounted_spec (r := Ev.TI_OVERRUN) (c := Ev.TI_OVERRUNS) (inputFlag_word hti).2 (isCounter_input ⟨ti, hlt⟩).2 hoverrun s
  exact ⟨hcount, hflag, (triggerDropped_only s).rd htriggers⟩

theorem triggerCounted_spec :
    (s.triggerCounted ti).rd (Ev.TI_TRIGGERS ti) = countUp (s.rd (Ev.TI_TRIGGERS ti)) 1 ∧
      bit ((s.triggerCounted ti).rd (Ev.TI_TRIGGERED (ti / 32))) (ti % 32) = true ∧ (s.triggerCounted ti).rd (Ev.TI_OVERRUNS ti) = s.rd (Ev.TI_OVERRUNS ti) := by
  have hlt := taskInput_lt hti
  obtain ⟨hoverruns, -, -, htriggered⟩ := inputIds_distinct ⟨ti, hlt⟩
  obtain ⟨hcount, hflag⟩ := flagCounted_spec (r := Ev.TI_TRIGGERED) (c := Ev.TI_TRIGGERS) (inputFlag_word hti).1 (isCounter_input ⟨ti, hlt⟩).1 htriggered s
  exact ⟨hcount, hflag, (triggerCounted_only s).rd hoverruns⟩

/-- The act of an input moves none of its counters and flags. -/
theorem inputAct_counters (now pos : Nat) : ∀ id ∈ inputIds ti ++ inputFlags ti, (s.inputAct ti now pos).rd id = s.rd id := fun id hid =>
  (inputAct_spec s ti now pos).1.rd (not_mem_inputIds (fun j hj => (actIds_number ti j hj).2) id hid)

variable {k : Nat} (hhits : s.wireHits ti [k] ≠ []) (c0 : Nat)
include hhits

/-- A firing that reaches an input finds it as it was. -/
theorem reached_cases :
    ∃ u pos, InputSpared ti s u ∧ u.clock = (if inputCycle ti = 20 then max s.clock (arrivalAt ti c0 / 10) else s.clock) ∧
      (∃ timers, u.fab = { s.fab with timers := timers }) ∧ (∀ n < 16, u.rd (Ev.TIMER_STATE n) = s.rd (Ev.TIMER_STATE n) ∨ u.rd (Ev.TIMER_STATE n) = 0) ∧
      s.reached k c0 ti = if u.inputBusy ti (arrivalAt ti c0 / 10) then u.triggerDropped ti else (u.triggerCounted ti).inputAct ti (arrivalAt ti c0 / 10) pos := by
  obtain ⟨hclock, ⟨timers, hfab⟩, -, hspared⟩ := arrived_spec (ti := ti) (tj := ti) s (arrivalAt ti c0 / 10)
  have hwires := hspared.wireHits [k]
  cases hcons : s.wireHits ti [k] with
  | nil => exact absurd hcons hhits
  | cons pos rest =>
    have honly := coincided_only (tj := ti) (s.arrived ti (arrivalAt ti c0 / 10)) rest
    refine ⟨(s.arrived ti (arrivalAt ti c0 / 10)).coincided ti rest, pos, hspared.trans (coincided_spares ..), (honly.clock (by simp)).trans hclock,
      ⟨timers, (honly.fab (by simp)).trans hfab⟩, fun n hn => ?_, inputTrigger_hits (hwires.trans hcons) _⟩
    rw [honly.rd fun hmem => ?_]
    · have hstate : (s.arrived ti (arrivalAt ti c0 / 10)).rd (Ev.TIMER_STATE n) = s.rd (Ev.TIMER_STATE n) ∨
          (s.arrived ti (arrivalAt ti c0 / 10)).rd (Ev.TIMER_STATE n) = 0 := by
        have hat : (if inputCycle ti = 20 then s.at (arrivalAt ti c0 / 10) else s).rd (Ev.TIMER_STATE n) = s.rd (Ev.TIMER_STATE n) := by
          split <;> rfl
        rw [← hat]
        exact (expireTimers_spec _ _).2.1 n hn
      exact hstate
    · simp only [List.mem_cons, List.not_mem_nil, or_false] at hmem
      unfold Ev.TIMER_STATE Ev.TI_COINCIDENT_FLAG Ev.TI_COINCIDENT at hmem
      omega

/-- What a firing does at an input that has no timer of its own. -/
theorem reached_own (htimer : ti < 80 ∨ 96 ≤ ti) :
    let t := s.reached k c0 ti
    (s.inputBusy ti (arrivalAt ti c0 / 10) = true →
      t.rd (Ev.TI_OVERRUNS ti) = countUp (s.rd (Ev.TI_OVERRUNS ti)) 1 ∧ bit (t.rd (Ev.TI_OVERRUN (ti / 32))) (ti % 32) = true ∧
        t.rd (Ev.TI_TRIGGERS ti) = s.rd (Ev.TI_TRIGGERS ti)) ∧
    (s.inputBusy ti (arrivalAt ti c0 / 10) = false →
      t.rd (Ev.TI_TRIGGERS ti) = countUp (s.rd (Ev.TI_TRIGGERS ti)) 1 ∧ bit (t.rd (Ev.TI_TRIGGERED (ti / 32))) (ti % 32) = true ∧
        t.rd (Ev.TI_OVERRUNS ti) = s.rd (Ev.TI_OVERRUNS ti) ∧
        (ti < 16 → (t.trig ti).endAt = some (t.clock + evenNs (s.rd (Port.XTRIG_WIDTH ti))))) := by
  intro t
  obtain ⟨u, pos, hspared, hclock, -, -, ht⟩ := reached_cases hti s hhits c0
  have hbusy := hspared.busy hti htimer (arrivalAt ti c0 / 10)
  have hrd {id : Nat} (hid : id ∈ inputIds ti) : u.rd id = s.rd id := hspared.params id hid
  have hoverruns : u.rd (Ev.TI_OVERRUNS ti) = s.rd (Ev.TI_OVERRUNS ti) := hrd (by simp [inputIds])
  have htriggers : u.rd (Ev.TI_TRIGGERS ti) = s.rd (Ev.TI_TRIGGERS ti) := hrd (by simp [inputIds])
  refine ⟨fun h => ?_, fun h => ?_⟩
  · have hdropped : t = u.triggerDropped ti := ht.trans (if_pos (hbusy.trans h))
    obtain ⟨hcount, hflag, hsame⟩ := triggerDropped_spec hti u
    rw [hdropped, ← hoverruns, ← htriggers]
    exact ⟨hcount, hflag, hsame⟩
  · have htaken : t = (u.triggerCounted ti).inputAct ti (arrivalAt ti c0 / 10) pos := ht.trans (if_neg (by rw [hbusy, h]; simp))
    obtain ⟨hcount, hflag, hsame⟩ := triggerCounted_spec hti u
    have hact := inputAct_counters hti (u.triggerCounted ti) (arrivalAt ti c0 / 10) pos
    rw [htaken, hact _ (by simp [inputIds]), hact _ (by simp [inputFlags]), hact _ (by simp [inputIds]), ← hoverruns, ← htriggers]
    refine ⟨hcount, hflag, hsame, fun hlow => ?_⟩
    have honly := triggerCounted_only (tj := ti) u
    have hfree : ((u.triggerCounted ti).trig ti).endAt = none := by
      have hbusy' : s.inputBusy ti (arrivalAt ti c0 / 10) = (s.trig ti).endAt.isSome := if_pos hlow
      rw [honly.2.1 (.trig ti) (by simp), hspared.trig]
      exact Option.not_isSome_iff_eq_none.1 (by rw [← hbusy', h]; simp)
    obtain ⟨hpulse, -, hpulsed⟩ := trigPulse_spec (u.triggerCounted ti) ti
    have hwidth : (u.triggerCounted ti).rd (Port.XTRIG_WIDTH ti) = s.rd (Port.XTRIG_WIDTH ti) := by
      have hout : Port.XTRIG_WIDTH ti ∉ [Ev.TI_TRIGGERED (ti / 32), Ev.TI_TRIGGERS ti] := by
        unfold Port.XTRIG_WIDTH Ev.TI_TRIGGERED Ev.TI_TRIGGERS
        simp only [List.mem_cons, List.not_mem_nil, or_false, not_or]
        omega
      exact (honly.rd hout).trans (hrd (by simp [inputIds]))
    have heq : (u.triggerCounted ti).inputAct ti (arrivalAt ti c0 / 10) pos = (u.triggerCounted ti).trigPulse ti := if_pos hlow
    rw [heq, hpulsed.clock (by simp), ← hwidth]
    exact hpulse hfree

end

end Sys2Proof.Machine

/-! The timers that a firing starts, and all the inputs that it reaches (R446 to R450). -/

namespace Sys2Proof.Machine

/-! ## A timer that runs -/

/-- A timer runs until a device clock. -/
def TimerRuns (n due : Nat) (s : State) : Prop :=
  s.rd (Ev.TIMER_STATE n) = 1 ∧ tfind s.fab.timers n = some due ∧ ∀ e ∈ s.fab.timers, e.1 = n → e.2 = due

theorem tins_unique {α : Type} (t : Table α) (k : Nat) (a : α) : ∀ e ∈ tins t k a, e.1 = k → e.2 = a := by
  intro e he hk
  rcases List.mem_append.1 he with he | he
  · simp [hk] at he
  · rcases List.mem_cons.1 he with rfl | he
    · rfl
    · simp [hk] at he

theorem mem_tins {α : Type} {t : Table α} {k : Nat} {a : α} {e : Nat × α} (he : e ∈ tins t k a) : e = (k, a) ∨ e ∈ t := by
  rcases List.mem_append.1 he with he | he
  · exact .inr (List.mem_filter.1 he).1
  · exact (List.mem_cons.1 he).imp_right fun h => (List.mem_filter.1 h).1

/-- A change that leaves a timer's state and the list of timers. -/
theorem TimerRuns.of {n due : Nat} {s t : State} (h : TimerRuns n due s) (hstate : t.rd (Ev.TIMER_STATE n) = s.rd (Ev.TIMER_STATE n))
    (hfind : tfind t.fab.timers n = tfind s.fab.timers n) (hsub : ∀ e ∈ t.fab.timers, e.1 = n → e ∈ s.fab.timers) : TimerRuns n due t := by
  obtain ⟨hruns, hdue, hunique⟩ := h
  exact ⟨hstate.trans hruns, hfind.trans hdue, fun e he hn => hunique e (hsub e he hn) hn⟩

theorem TimerRuns.unchanged {n due : Nat} {ps : List Part} {ids : List Nat} {s t : State} (h : TimerRuns n due s) (hframe : OnlyChanges ps ids s t)
    (hfab : .fab ∉ ps) (hid : Ev.TIMER_STATE n ∉ ids) : TimerRuns n due t := by
  have hsame : t.fab = s.fab := hframe.fab hfab
  exact h.of (hframe.rd hid) (by rw [hsame]) fun e he _ => hsame ▸ he

theorem timerState_apart (n ti : Nat) : Ev.TIMER_STATE n ∉ traceIds ∧
    Ev.TIMER_STATE n ∉ [Ev.TI_OVERRUN (ti / 32), Ev.TI_OVERRUNS ti] ∧ Ev.TIMER_STATE n ∉ [Ev.TI_TRIGGERED (ti / 32), Ev.TI_TRIGGERS ti] ∧
    Ev.TIMER_STATE n ∉ [Ev.TI_COINCIDENT_FLAG (ti / 32), Ev.TI_COINCIDENT ti] := by
  refine ⟨fun hmem => (by decide : ∀ id ∈ traceIds, id % 0x10000 ≠ 0x21) _ hmem (timerState_number n), fun hmem => ?_, fun hmem => ?_, fun hmem => ?_⟩
  all_goals
    simp only [List.mem_cons, List.not_mem_nil, or_false] at hmem
    unfold Ev.TIMER_STATE at hmem
  · unfold Ev.TI_OVERRUN Ev.TI_OVERRUNS at hmem
    omega
  · unfold Ev.TI_TRIGGERED Ev.TI_TRIGGERS at hmem
    omega
  · unfold Ev.TI_COINCIDENT_FLAG Ev.TI_COINCIDENT at hmem
    omega

/-- The act of an input that neither starts nor cancels a timer leaves it. -/
theorem inputAct_timer {ti n : Nat} (hn : n < 16) (hstart : ti ≠ 80 + n) (hcancel : ti ≠ 96 + n) (s : State) (now pos : Nat) :
    let t := s.inputAct ti now pos
    t.rd (Ev.TIMER_STATE n) = s.rd (Ev.TIMER_STATE n) ∧ tfind t.fab.timers n = tfind s.fab.timers n ∧ ∀ e ∈ t.fab.timers, e.1 = n → e ∈ s.fab.timers := by
  unfold State.inputAct
  dsimp only
  split
  · obtain ⟨-, hfab, honly⟩ := trigPulse_spec s ti
    rw [hfab]
    refine ⟨honly.rd fun hmem => ?_, rfl, fun e he _ => he⟩
    have := List.mem_singleton.1 hmem
    unfold Ev.TIMER_STATE Port.XTRIG_COUNT at this
    omega
  split
  · exact ⟨rfl, rfl, fun e he _ => he⟩
  split
  · have hw := wr_only { s with fab := { s.fab with timers := tins s.fab.timers (ti - 80) (now + s.rd (Ev.TIMER_DELAY (ti - 80))) } } (Ev.TIMER_STATE (ti - 80)) 1
    rw [hw.fab (by simp)]
    have hne : n ≠ ti - 80 := by omega
    refine ⟨hw.rd fun hmem => hne (timerState_inj (List.mem_singleton.1 hmem)), tfind_tins_other hne, fun e he hen => (mem_tins he).resolve_left fun h => ?_⟩
    rw [h] at hen
    exact hne hen.symm
  split
  · have hw := wr_only { s with fab := { s.fab with timers := tdel s.fab.timers (ti - 96) } } (Ev.TIMER_STATE (ti - 96)) 0
    rw [hw.fab (by simp)]
    have hne : n ≠ ti - 96 := by omega
    exact ⟨hw.rd fun hmem => hne (timerState_inj (List.mem_singleton.1 hmem)), tfind_tdel_other hne, fun e he _ => (List.mem_filter.1 he).1⟩
  split
  · have hpin := pin_only { s with fab := { s.fab with evios := tins s.fab.evios (ti - 112) (now + evenNs (s.rd (Ev.EVIO_WIDTH (ti - 112)))) } }
      ("EVIO" ++ toString (ti - 112))
      (State.evioActive { s with fab := { s.fab with evios := tins s.fab.evios (ti - 112) (now + evenNs (s.rd (Ev.EVIO_WIDTH (ti - 112)))) } } (ti - 112))
    rw [hpin.fab (by simp)]
    exact ⟨hpin.rd (by simp), rfl, fun e he _ => he⟩
  split
  · have htrace := trace_only { s with fab := { s.fab with markBusy := tins s.fab.markBusy (ti - 118) (now + markBusyNs) } } 6 (ti - 118)
      (leBytes 8 (deviceTimeAt s.time now))
    rw [htrace.fab (by simp)]
    exact ⟨htrace.rd (timerState_apart n ti).1, rfl, fun e he _ => he⟩
  split
  · exact ⟨rfl, rfl, fun e he _ => he⟩
  · exact ⟨rfl, rfl, fun e he _ => he⟩

/-- Firings that arrive before a timer is due leave it, but at its own start and its own cancel. -/
theorem TimerRuns.reached {n due ti : Nat} (hn : n < 16) {s : State} (h : TimerRuns n due s) (hstart : ti ≠ 80 + n) (hcancel : ti ≠ 96 + n) (k : Nat) {c0 : Nat}
    (hdue : arrivalAt ti c0 / 10 < due) : TimerRuns n due (s.reached k c0 ti) := by
  obtain ⟨-, hdropped, hcounted, hcoincided⟩ := timerState_apart n ti
  have harrived : TimerRuns n due (s.arrived ti (arrivalAt ti c0 / 10)) := by
    let u := if inputCycle ti = 20 then s.at (arrivalAt ti c0 / 10) else s
    have hat : OnlyChanges [.clock] [] s u := by
      unfold u
      split
      · exact at_only ..
      · exact .nothing s
    have hu : TimerRuns n due u := h.unchanged hat (by simp) (by simp)
    obtain ⟨⟨timers, hfab, hsub, hkept⟩, -, -⟩ := expireTimers_spec u (arrivalAt ti c0 / 10)
    obtain ⟨hfind, hstate⟩ := hkept n fun e he hen => (hu.2.2 e he hen).symm ▸ hdue
    exact hu.of hstate (by show tfind (u.expireTimers _).fab.timers n = _; rw [hfab]; exact hfind) fun e he _ => by
      have : e ∈ (u.expireTimers (arrivalAt ti c0 / 10)).fab.timers := he
      rw [hfab] at this
      exact hsub e this
  unfold State.reached
  cases hhits : (s.arrived ti (arrivalAt ti c0 / 10)).wireHits ti [k] with
  | nil => rwa [inputTrigger_none hhits]
  | cons pos rest =>
    rw [inputTrigger_hits hhits]
    have hcounts := harrived.unchanged (coincided_only (tj := ti) _ rest) (by simp) hcoincided
    split
    · exact hcounts.unchanged (triggerDropped_only (tj := ti) _) (by simp) hdropped
    · have htaken := hcounts.unchanged (triggerCounted_only (tj := ti) _) (by simp) hcounted
      obtain ⟨hstate, hfind, hsub⟩ := inputAct_timer hn hstart hcancel (((s.arrived ti (arrivalAt ti c0 / 10)).coincided ti rest).triggerCounted ti)
        (arrivalAt ti c0 / 10) pos
      exact htaken.of hstate hfind hsub

/-- A firing starts no timer but that of its input. -/
theorem reached_idle {n ti : Nat} (hn : n < 16) (hti : ti ≠ 80 + n) (s : State) (h : s.rd (Ev.TIMER_STATE n) ≠ 1) (k c0 : Nat) :
    (s.reached k c0 ti).rd (Ev.TIMER_STATE n) ≠ 1 := by
  obtain ⟨-, hdropped, hcounted, hcoincided⟩ := timerState_apart n ti
  have harrived : (s.arrived ti (arrivalAt ti c0 / 10)).rd (Ev.TIMER_STATE n) ≠ 1 := by
    have hat : (if inputCycle ti = 20 then s.at (arrivalAt ti c0 / 10) else s).rd (Ev.TIMER_STATE n) = s.rd (Ev.TIMER_STATE n) := by
      split <;> rfl
    have hexpired : (s.arrived ti (arrivalAt ti c0 / 10)).rd (Ev.TIMER_STATE n) = _ ∨ (s.arrived ti (arrivalAt ti c0 / 10)).rd (Ev.TIMER_STATE n) = 0 :=
      (expireTimers_spec _ _).2.1 n hn
    rw [hat] at hexpired
    omega
  unfold State.reached
  cases hhits : (s.arrived ti (arrivalAt ti c0 / 10)).wireHits ti [k] with
  | nil => rwa [inputTrigger_none hhits]
  | cons pos rest =>
    rw [inputTrigger_hits hhits]
    have hcounts := (coincided_only (tj := ti) (s.arrived ti (arrivalAt ti c0 / 10)) rest).rd hcoincided
    split
    · rwa [(triggerDropped_only (tj := ti) _).rd hdropped, hcounts]
    · have htaken := ((triggerCounted_only (tj := ti) ((s.arrived ti (arrivalAt ti c0 / 10)).coincided ti rest)).rd hcounted).trans hcounts
      by_cases hcancel : ti = 96 + n
      · let u := ((s.arrived ti (arrivalAt ti c0 / 10)).coincided ti rest).triggerCounted ti
        let v : State := { u with fab := { u.fab with timers := tdel u.fab.timers (ti - 96) } }
        have hact : u.inputAct ti (arrivalAt ti c0 / 10) pos = v.wr (Ev.TIMER_STATE (ti - 96)) 0 := by
          unfold State.inputAct
          rw [if_neg (by omega), if_neg (by omega), if_neg (by omega), if_pos (by omega)]
        have hzero : (v.wr (Ev.TIMER_STATE n) 0).rd (Ev.TIMER_STATE n) = 0 := rd_wr_word (isWord_timer ⟨n, hn⟩) (by omega) v
        rw [hact, show ti - 96 = n by omega, hzero]
        omega
      · rwa [(inputAct_timer hn hti hcancel _ _ _).1, htaken]

/-- A firing starts an idle timer at its start input. -/
theorem reached_starts {n : Nat} (hn : n < 16) (hti : 80 + n ∈ taskInputs) (s : State) (hidle : s.rd (Ev.TIMER_STATE n) ≠ 1) {k : Nat}
    (hhits : s.wireHits (80 + n) [k] ≠ []) (c0 : Nat) :
    TimerRuns n (arrivalAt (80 + n) c0 / 10 + s.rd (Ev.TIMER_DELAY n)) (s.reached k c0 (80 + n)) := by
  obtain ⟨u, pos, hspared, -, -, hstate, ht⟩ := reached_cases hti s hhits c0
  have hdelay : u.rd (Ev.TIMER_DELAY n) = s.rd (Ev.TIMER_DELAY n) := hspared.params _ (by simp [inputIds])
  have hfree : u.inputBusy (80 + n) (arrivalAt (80 + n) c0 / 10) = false := by
    have hbusy : u.inputBusy (80 + n) (arrivalAt (80 + n) c0 / 10) = (u.rd (Ev.TIMER_STATE (80 + n - 80)) == 1) := by
      unfold State.inputBusy
      rw [if_neg (by omega), if_neg (by omega), if_pos (by omega)]
    rw [hbusy, Nat.add_sub_cancel_left, beq_eq_false_iff_ne]
    have := hstate n hn
    omega
  have honly := triggerCounted_only (tj := 80 + n) u
  let w := u.triggerCounted (80 + n)
  have hdelay' : w.rd (Ev.TIMER_DELAY n) = s.rd (Ev.TIMER_DELAY n) := by
    refine (honly.rd fun hmem => ?_).trans hdelay
    simp only [List.mem_cons, List.not_mem_nil, or_false] at hmem
    unfold Ev.TIMER_DELAY Ev.TI_TRIGGERED Ev.TI_TRIGGERS at hmem
    omega
  let v : State := { w with fab := { w.fab with timers := tins w.fab.timers n (arrivalAt (80 + n) c0 / 10 + w.rd (Ev.TIMER_DELAY n)) } }
  have hact : w.inputAct (80 + n) (arrivalAt (80 + n) c0 / 10) pos = v.wr (Ev.TIMER_STATE n) 1 := by
    unfold State.inputAct
    rw [if_neg (by omega), if_neg (by omega), if_pos (by omega)]
    dsimp only
    rw [Nat.add_sub_cancel_left]
  have hrun : s.reached k c0 (80 + n) = v.wr (Ev.TIMER_STATE n) 1 := by
    rw [ht, hfree]
    exact hact
  have hw := wr_only v (Ev.TIMER_STATE n) 1
  rw [hrun, ← hdelay']
  refine ⟨rd_wr_word (isWord_timer ⟨n, hn⟩) (by omega) v, ?_, ?_⟩
  · rw [hw.fab (by simp)]
    exact tfind_tins_same ..
  · rw [hw.fab (by simp)]
    exact fun e he hen => tins_unique w.fab.timers n _ e he hen

end Sys2Proof.Machine

/-! All the inputs that one firing reaches (R446 to R450, R454, R455, R457). -/

namespace Sys2Proof.Machine

/-! ## Inputs one after the other -/

/-- A firing reaches some inputs. -/
def State.reachedAll (s : State) (k c0 : Nat) (l : List Nat) : State := l.foldl (fun t ti => t.reached k c0 ti) s

/-- When a firing arrives in TIME. -/
def timeArrival (c0 : Nat) : Nat := (ceilDiv (10 * c0) 20 + 2) * 20 / 10

theorem arrival_time {ti : Nat} (h : inputCycle ti = 20) (c0 : Nat) : arrivalAt ti c0 / 10 = timeArrival c0 := by
  unfold arrivalAt timeArrival
  rw [h]

section
variable (k c0 : Nat)

theorem reachedAll_spares {ti : Nat} (hti : ti ∈ taskInputs) {l : List Nat} (hl : ∀ tj ∈ l, tj ∈ taskInputs ∧ tj ≠ ti) (s : State) :
    InputSpared ti s (s.reachedAll k c0 l) := by
  induction l generalizing s with
  | nil => exact .refl ..
  | cons tj l ih =>
    obtain ⟨htj, hne⟩ := hl tj (List.mem_cons_self ..)
    exact (reached_spares s htj hti hne k c0).trans (ih (fun x hx => hl x (List.mem_cons_of_mem _ hx)) _)

theorem reachedAll_clock (l : List Nat) (s : State) :
    (s.reachedAll k c0 l).clock = if (l.any fun ti => inputCycle ti == 20) then max s.clock (timeArrival c0) else s.clock := by
  induction l generalizing s with
  | nil => rfl
  | cons ti l ih =>
    refine (ih (s.reached k c0 ti)).trans ?_
    rw [(reached_only s k c0 ti).1, List.any_cons]
    by_cases h : inputCycle ti = 20
    · rw [if_pos h, arrival_time h, Nat.max_assoc, Nat.max_self]
      simp [h]
    · simp [h]

/-- Parameters of other numbers are as before. -/
theorem reachedAll_rd {id : Nat} (hid : id % 0x10000 ∉ triggerNumbers) (l : List Nat) (s : State) : (s.reachedAll k c0 l).rd id = s.rd id := by
  induction l generalizing s with
  | nil => rfl
  | cons ti l ih =>
    obtain ⟨-, ids, hids, honly⟩ := reached_only s k c0 ti
    exact (ih (s.reached k c0 ti)).trans (honly.rd fun hmem => hid (hids id hmem))

theorem reachedAll_idle {n : Nat} (hn : n < 16) {l : List Nat} (hl : 80 + n ∉ l) {s : State} (h : s.rd (Ev.TIMER_STATE n) ≠ 1) :
    (s.reachedAll k c0 l).rd (Ev.TIMER_STATE n) ≠ 1 := by
  induction l generalizing s with
  | nil => exact h
  | cons ti l ih =>
    have hne : ti ≠ 80 + n := fun he => hl (he ▸ List.mem_cons_self ..)
    exact ih (fun hmem => hl (List.mem_cons_of_mem _ hmem)) (reached_idle hn hne s h k c0)

theorem reachedAll_runs {n due : Nat} (hn : n < 16) {l : List Nat} (hl : ∀ ti ∈ l, ti ≠ 80 + n ∧ ti ≠ 96 + n ∧ arrivalAt ti c0 / 10 < due) {s : State}
    (h : TimerRuns n due s) : TimerRuns n due (s.reachedAll k c0 l) := by
  induction l generalizing s with
  | nil => exact h
  | cons ti l ih =>
    obtain ⟨hstart, hcancel, hdue⟩ := hl ti (List.mem_cons_self ..)
    exact ih (fun x hx => hl x (List.mem_cons_of_mem _ hx)) (h.reached hn hstart hcancel k hdue)

/-- An input is reached once: after some inputs and before the others. -/
theorem reachedAll_split {ti : Nat} {s : State} (hti : ti ∈ s.reachedInputs k c0) :
    ∃ before after, s.reachedInputs k c0 = before ++ ti :: after ∧ (∀ tj ∈ before, tj ∈ taskInputs ∧ tj ≠ ti) ∧ (∀ tj ∈ after, tj ∈ taskInputs ∧ tj ≠ ti) ∧
      s.reachedAll k c0 (s.reachedInputs k c0) = ((s.reachedAll k c0 before).reached k c0 ti).reachedAll k c0 after := by
  obtain ⟨before, after, hsplit⟩ := List.append_of_mem hti
  have hnodup := reachedInputs_nodup s k c0
  rw [hsplit] at hnodup
  obtain ⟨-, hafter, hdisjoint⟩ := List.nodup_append.1 hnodup
  have hinput {tj : Nat} (h : tj ∈ before ++ ti :: after) : tj ∈ taskInputs := ((mem_reachedInputs s k c0).1 (hsplit ▸ h)).1
  refine ⟨before, after, hsplit, fun tj htj => ⟨hinput (by simp [htj]), hdisjoint tj htj ti (List.mem_cons_self ..)⟩,
    fun tj htj => ⟨hinput (by simp [htj]), fun he => (List.nodup_cons.1 hafter).1 (he ▸ htj)⟩, ?_⟩
  rw [hsplit]
  exact List.foldl_append

end

/-! ## A source fires (R447) -/

theorem exec_eventSourceFire {s : State} {src : Fin 256} {c0 : Nat} (h : s.firings = [(src.val, c0)]) :
    exec (.eventSourceFire [src]) s =
      .next (if s.fabricRuns then State.deliver { s with firings := [] } [(src.val, c0)] else { s with firings := [] }) := by
  show execEventSourceFire [src] s = _
  have hone : ([src].map Fin.val).eraseDups = [src.val] := by simp [List.eraseDups_cons]
  have hdrop : dropFirst [(src.val, c0)] src.val = [] := by simp [dropFirst]
  unfold execEventSourceFire
  dsimp only
  rw [hone, h]
  simp only [List.filterMap_cons, List.filterMap_nil, List.find?_cons, beq_self_eq_true, List.foldl_cons, List.foldl_nil, hdrop]
  rfl

end Sys2Proof.Machine

/-! What a firing leaves at the inputs it reaches (R446 to R450). -/

namespace Sys2Proof.Machine

theorem setFirings_only (s : State) (firings : List (Nat × Nat)) : OnlyChanges [.firings] [] s { s with firings := firings } := by
  refine ⟨rfl, fun p hp => ?_, fun _ _ => rfl⟩
  cases p with
  | firings => simp at hp
  | mem => exact fun _ => rfl
  | buffers | qps => exact ⟨rfl, rfl⟩
  | nmp => exact ⟨rfl, rfl, rfl, rfl, rfl⟩
  | _ => rfl

theorem reachedInputs_unwired {s : State} {k : Nat} (h : s.sourceWired k = false) (c0 : Nat) : s.reachedInputs k c0 = [] := by
  refine List.eq_nil_iff_forall_not_mem.2 fun ti hti => ?_
  obtain ⟨hmem, hhits⟩ := (mem_reachedInputs s k c0).1 hti
  unfold State.sourceWired at h
  have := List.any_eq_false.1 h ti hmem
  simp [hhits] at this

theorem inputCycle_low {ti : Nat} (h : ti < 16) : inputCycle ti = 20 := if_pos h

section
variable {u : State} {k c0 ti : Nat} (hti : ti ∈ u.reachedInputs k c0)
include hti

theorem reachedInputs_clock (h : inputCycle ti = 20) : (u.reachedAll k c0 (u.reachedInputs k c0)).clock = max u.clock (arrivalAt ti c0 / 10) := by
  rw [reachedAll_clock, if_pos (List.any_eq_true.2 ⟨ti, hti, by simp [h]⟩), arrival_time h]

/-- A trigger acts at an input that has no timer: it is counted, or dropped. -/
theorem reachedInputs_own (htimer : ti < 80 ∨ 96 ≤ ti) :
    let t := u.reachedAll k c0 (u.reachedInputs k c0)
    (u.inputBusy ti (arrivalAt ti c0 / 10) = true →
      t.rd (Ev.TI_OVERRUNS ti) = countUp (u.rd (Ev.TI_OVERRUNS ti)) 1 ∧ bit (t.rd (Ev.TI_OVERRUN (ti / 32))) (ti % 32) = true ∧
        t.rd (Ev.TI_TRIGGERS ti) = u.rd (Ev.TI_TRIGGERS ti)) ∧
    (u.inputBusy ti (arrivalAt ti c0 / 10) = false →
      t.rd (Ev.TI_TRIGGERS ti) = countUp (u.rd (Ev.TI_TRIGGERS ti)) 1 ∧ bit (t.rd (Ev.TI_TRIGGERED (ti / 32))) (ti % 32) = true ∧
        t.rd (Ev.TI_OVERRUNS ti) = u.rd (Ev.TI_OVERRUNS ti) ∧
        (ti < 16 → (t.trig ti).endAt = some (t.clock + evenNs (u.rd (Port.XTRIG_WIDTH ti))))) := by
  intro t
  obtain ⟨hmem, hhits⟩ := (mem_reachedInputs u k c0).1 hti
  obtain ⟨before, after, -, hbefore, hafter, ht⟩ := reachedAll_split k c0 hti
  let a := u.reachedAll k c0 before
  let b := a.reached k c0 ti
  have ha : InputSpared ti u a := reachedAll_spares k c0 hmem hbefore u
  have hb : InputSpared ti b t := by
    show InputSpared ti b (u.reachedAll k c0 _)
    rw [ht]
    exact reachedAll_spares k c0 hmem hafter b
  have hbusy : a.inputBusy ti _ = u.inputBusy ti _ := ha.busy hmem htimer (arrivalAt ti c0 / 10)
  have hahits : a.wireHits ti [k] ≠ [] := by rw [ha.wireHits]; exact hhits
  have hkept {id : Nat} (hid : id ∈ inputIds ti) : a.rd id = u.rd id ∧ t.rd id = b.rd id := ⟨ha.params id hid, hb.params id hid⟩
  obtain ⟨hoverruns, hoverruns'⟩ := hkept (id := Ev.TI_OVERRUNS ti) (by simp [inputIds])
  obtain ⟨htriggers, htriggers'⟩ := hkept (id := Ev.TI_TRIGGERS ti) (by simp [inputIds])
  obtain ⟨hdropped, htaken⟩ := reached_own hmem a hahits c0 htimer
  rw [hoverruns', htriggers', ← hoverruns, ← htriggers, ← (hkept (id := Port.XTRIG_WIDTH ti) (by simp [inputIds])).1, ← hbusy, hb.trig]
  refine ⟨fun h => ?_, fun h => ?_⟩
  · obtain ⟨hcount, hflag, hsame⟩ := hdropped h
    exact ⟨hcount, hb.flags _ (by simp [inputFlags]) hflag, hsame⟩
  · obtain ⟨hcount, hflag, hsame, hpulse⟩ := htaken h
    refine ⟨hcount, hb.flags _ (by simp [inputFlags]) hflag, hsame, fun hlow => (hpulse hlow).trans ?_⟩
    have hclock : t.clock = b.clock := by
      have hcycle := inputCycle_low hlow
      have hbclock : b.clock = max a.clock (arrivalAt ti c0 / 10) := ((reached_only a k c0 ti).1).trans (if_pos hcycle)
      rw [hbclock, reachedInputs_clock hti hcycle, reachedAll_clock]
      split
      · rw [arrival_time hcycle, Nat.max_assoc, Nat.max_self]
      · rfl
    rw [hclock]

/-- A trigger starts an idle timer, which runs when the firing has reached all its inputs. -/
theorem reachedInputs_starts {n : Nat} (hn : n < 16) (hstart : ti = 80 + n) (hidle : u.rd (Ev.TIMER_STATE n) ≠ 1)
    (hdue : ∀ tj ∈ u.reachedInputs k c0, arrivalAt tj c0 / 10 < arrivalAt ti c0 / 10 + u.rd (Ev.TIMER_DELAY n)) :
    TimerRuns n (arrivalAt ti c0 / 10 + u.rd (Ev.TIMER_DELAY n)) (u.reachedAll k c0 (u.reachedInputs k c0)) := by
  subst hstart
  obtain ⟨hmem, hhits⟩ := (mem_reachedInputs u k c0).1 hti
  obtain ⟨before, after, hsplit, hbefore, hafter, ht⟩ := reachedAll_split k c0 hti
  have ha : InputSpared (80 + n) u (u.reachedAll k c0 before) := reachedAll_spares k c0 hmem hbefore u
  have hdelay : (u.reachedAll k c0 before).rd (Ev.TIMER_DELAY n) = u.rd (Ev.TIMER_DELAY n) := ha.params _ (by simp [inputIds])
  have hstarts := reached_starts hn hmem (u.reachedAll k c0 before) (reachedAll_idle k c0 hn (fun h => (hbefore _ h).2 rfl) hidle) (k := k)
    (by rw [ha.wireHits]; exact hhits) c0
  rw [hdelay] at hstarts
  rw [ht]
  refine reachedAll_runs k c0 hn (fun tj htj => ⟨(hafter tj htj).2, fun he => cancel_before_start u k c0 hn hsplit (he ▸ htj), hdue tj ?_⟩) hstarts
  rw [hsplit]
  simp [htj]

end

/-! ## A source that fires reaches its inputs -/

section
variable (s : State) (k : Fin 256)

theorem source_numbers : ∀ id ∈ [Ev.SRC_FIRINGS k, Ev.SRC_FIRED (k / 32)],
    id % 0x10000 ∉ inputNumbers ∧ id % 0x10000 ∉ triggerNumbers ∧ id % 0x10000 ≠ 0x101 ∧ id % 0x10000 ≠ 0x21 := by
  have hfirings : Ev.SRC_FIRINGS k % 0x10000 = 0x3 := Nat.add_mul_mod_self_right ..
  have hfired : Ev.SRC_FIRED (k / 32) % 0x10000 = 0x201 := Nat.add_mul_mod_self_right ..
  simp only [List.mem_cons, List.not_mem_nil, or_false, forall_eq_or_imp, forall_eq, hfirings, hfired]
  decide

/-- A source that fires leaves every task input as it was. -/
theorem sourceFired_spares (ti : Nat) : InputSpared ti s (s.sourceFired k) := by
  obtain ⟨-, -, ⟨counts, hfab⟩, -, honly⟩ := sourceFired_spec s k
  refine .of honly (fun id hid => (source_numbers k id hid).1) (by simp) ?_
  rw [hfab]
  exact ⟨fun _ _ => rfl, fun _ _ => rfl, fun _ _ => rfl, fun _ => rfl, fun _ => rfl⟩

theorem sourceFired_reaches {c0 ti : Nat} : ti ∈ (s.sourceFired k).reachedInputs k c0 ↔ ti ∈ taskInputs ∧ s.wireHits ti [k.val] ≠ [] := by
  rw [mem_reachedInputs, (sourceFired_spares s k ti).wireHits]

end

end Sys2Proof.Machine

/-! O52: firings reach their task inputs together, under the loop guard. -/

namespace Sys2Proof.Machine

/-- A firing of an enabled source that its guard lets pass. -/
theorem sourceFired_reachedAll (s : State) (k : Fin 256) (c0 : Nat) :
    let u := s.sourceFired k
    let t := u.reachedAll k c0 (u.reachedInputs k c0)
    t.rd (Ev.SRC_FIRINGS k) = countUp (s.rd (Ev.SRC_FIRINGS k)) 1 ∧ bit (t.rd (Ev.SRC_FIRED (k / 32))) (k % 32) = true ∧
      (s.sourceWired k = false → OnlyChanges [] [Ev.SRC_FIRINGS k, Ev.SRC_FIRED (k / 32)] s t) := by
  intro u t
  obtain ⟨hfirings, hfired, -, hfab, honly⟩ := sourceFired_spec s k
  have hkept {id : Nat} (hid : id ∈ [Ev.SRC_FIRINGS k, Ev.SRC_FIRED (k / 32)]) : t.rd id = u.rd id :=
    reachedAll_rd k.val c0 (source_numbers k id hid).2.1 _ u
  rw [hkept (by simp), hkept (by simp)]
  refine ⟨hfirings, hfired, fun hwired => ?_⟩
  have hnone : t = u := by
    have hwired' : u.sourceWired k = false := ((honly.sourceWired fun id hid => (source_numbers k id hid).2.2.1) k.val).1.trans hwired
    show u.reachedAll k c0 (u.reachedInputs k c0) = u
    rw [reachedInputs_unwired hwired']
    rfl
  rw [hnone]
  exact honly.drop (hfab hwired)

/-- Settles O52: a source counts and reaches every input wired to it, one after the other; each is spared by the triggers of the others. -/
theorem firingsReachTheirInputsTogether : Obligations.FiringsReachTheirInputsTogether := by
  unfold Obligations.FiringsReachTheirInputsTogether
  intro src c0 s hfirings k n stopped reaches now
  have hexec := exec_eventSourceFire hfirings
  let s0 : State := { s with firings := [] }
  have hs0 : OnlyChanges [.firings] [] s s0 := setFirings_only ..
  refine ⟨fun h => ⟨s0, ?_, rfl, hs0⟩, fun hruns henabled hstopped => ?_, fun hruns henabled hstopped _ => ?_⟩
  · rw [hexec]
    by_cases hruns : s.fabricRuns = true
    · have hdisabled : s0.sourceFires k = (false, s0) := sourceFires_disabled (h.resolve_left (by simp [hruns]))
      rw [if_pos hruns, deliver_single]
      show Host.Outcome.next (if (s0.sourceFires k).1 then _ else _) = _
      rw [hdisabled]
      rfl
    · rw [if_neg hruns]
  · obtain ⟨henable, hsuspect, htrips, honly⟩ := suppressed_spec s0 src
    have hfires : s0.sourceFires k = (false, s0.suppressed k) := sourceFires_stops henabled hstopped
    refine ⟨s0.suppressed k, ?_, henable, hsuspect, htrips, (hs0.trans honly).mono (by simp) fun _ hid => hid⟩
    rw [hexec, if_pos hruns, deliver_single]
    show Host.Outcome.next (if (s0.sourceFires k).1 then _ else _) = _
    rw [hfires]
    rfl
  · have hfires : s0.sourceFires k = (true, s0.sourceFired k) := sourceFires_delivers henabled hstopped
    let u := s0.sourceFired k
    let t := u.reachedAll k c0 (u.reachedInputs k c0)
    obtain ⟨hcount, hflag, hunwired⟩ := sourceFired_reachedAll s0 src c0
    refine ⟨t, ?_, hcount, hflag, fun h => (hs0.trans (hunwired h)).mono (by simp) fun _ hid => hid, fun ti hreach => ?_⟩
    · rw [hexec, if_pos hruns, deliver_single]
      show Host.Outcome.next (if (s0.sourceFires k).1 then _ else _) = _
      rw [hfires]
      rfl
    have hti : ti ∈ u.reachedInputs k c0 := (sourceFired_reaches s0 src).2 hreach
    have hspared : InputSpared ti s0 u := sourceFired_spares s0 src ti
    obtain ⟨-, -, -, -, honly⟩ := sourceFired_spec s0 src
    have hclock : u.clock = s.clock := honly.clock (by simp)
    have hkept {id : Nat} (hid : id ∈ inputIds ti) : u.rd id = s.rd id := hspared.params id hid
    refine ⟨fun hcycle => (reachedInputs_clock hti hcycle).trans (by rw [hclock]), fun htimer => ?_, fun hlow hfree => ?_, fun hlow hhigh hidle => ?_⟩
    · have hbusy : u.inputBusy ti (now ti) = s.inputBusy ti (now ti) := hspared.busy hreach.1 htimer _
      obtain ⟨hdropped, htaken⟩ := reachedInputs_own hti htimer
      rw [hbusy, hkept (id := Ev.TI_OVERRUNS ti) (by simp [inputIds]), hkept (id := Ev.TI_TRIGGERS ti) (by simp [inputIds])] at hdropped htaken
      refine ⟨hdropped, fun h => ?_⟩
      obtain ⟨htriggers, htriggered, hoverruns, -⟩ := htaken h
      exact ⟨htriggers, htriggered, hoverruns⟩
    · have hbusy : u.inputBusy ti (now ti) = s.inputBusy ti (now ti) := hspared.busy hreach.1 (.inl (by omega)) _
      obtain ⟨-, -, -, hpulse⟩ := (reachedInputs_own hti (.inl (by omega))).2 (hbusy.trans hfree)
      rw [hkept (id := Port.XTRIG_WIDTH ti) (by simp [inputIds])] at hpulse
      exact hpulse hlow
    · intro due hdue
      obtain ⟨m, rfl⟩ : ∃ m, ti = 80 + m := ⟨ti - 80, by omega⟩
      have hm : 80 + m - 80 = m := by omega
      have hdelay : u.rd (Ev.TIMER_DELAY m) = s.rd (Ev.TIMER_DELAY (80 + m - 80)) := by
        rw [hm, ← hkept (id := Ev.TIMER_DELAY m) (by simp [inputIds])]
      have hstate : u.rd (Ev.TIMER_STATE m) = s.rd (Ev.TIMER_STATE m) :=
        honly.rd fun hmem => (source_numbers src _ hmem).2.2.2 (timerState_number m)
      have hbusy : s.inputBusy (80 + m) (now (80 + m)) = (s.rd (Ev.TIMER_STATE (80 + m - 80)) == 1) := by
        unfold State.inputBusy
        rw [if_neg (by omega), if_neg (by omega), if_pos (by omega)]
      have hfree : u.rd (Ev.TIMER_STATE m) ≠ 1 := by
        rw [hidle, hm] at hbusy
        rw [hstate]
        exact fun he => by simp [he] at hbusy
      have hruns : TimerRuns m due t := by
        have := reachedInputs_starts hti (by omega) rfl hfree fun tj htj => by
          rw [hdelay]
          exact hdue tj ((sourceFired_reaches s0 src).1 htj)
        rwa [hdelay] at this
      rw [hm]
      exact ⟨hruns.1, hruns.2.1⟩

end Sys2Proof.Machine

/-! O53: timers, EVIO pins and the wake actions (R443, R450 to R453, R456). -/

namespace Sys2Proof.Machine

/-! ## A NOTIFY to the only session (R91) -/

theorem notifyTo_head {s : State} {sess : Nat} {x : Session} (h : s.session sess = some x) (cls code : Nat) (body : List Byte) :
    ∃ mark code', (s.notifyTo sess cls code body).out.head? =
        some (.nmp x.port x.peer mark true ⟨sess, x.notifySeq, 0x80, 0, s.notifyPayload cls code' body⟩) ∧ code' % 32768 = code % 32768 := by
  unfold State.notifyTo
  rw [h]
  dsimp only
  refine ⟨s.control x.port 0, if (x.dropped || decide (256 ≤ x.unacked.length)) = true then code % 32768 + 32768 else code % 32768, ?_, ?_⟩
  · split
    · rw [(count_only ..).out (by simp)]
      exact congrArg List.head? (emit_out ..)
    · exact congrArg List.head? (emit_out ..)
  · split <;> omega

/-- A class that the only session takes leaves for it last. -/
theorem notify_head {s : State} {sess : Nat} {x : Session} (h : s.nmp.sessions = [(sess, x)]) {cls : Nat} (hmask : bit x.mask cls = true) (code : Nat)
    (body : List Byte) :
    ∃ t : State, ∃ mark code', (s.notify cls code body).out.head? =
        some (.nmp x.port x.peer mark true ⟨sess, x.notifySeq, 0x80, 0, t.notifyPayload cls code' body⟩) ∧ code' % 32768 = code % 32768 := by
  let u := s.trace 4 cls (leBytes 2 code ++ leBytes 2 0 ++ (body ++ zeroBytes 16).take 16)
  have hu : OnlyChanges [.out, .obs] traceIds s u := trace_only ..
  have hsess : u.session sess = some x := (hu.session (by simp) sess).trans (by simp [State.session, h, tfind])
  have hnotify : s.notify cls code body = u.notifyTo sess cls code body := by
    unfold State.notify
    rw [h, List.foldl_cons, List.foldl_nil]
    exact if_pos hmask
  rw [hnotify]
  exact ⟨u, notifyTo_head hsess cls code body⟩

theorem notifyPayload_slices (s : State) (cls code : Nat) (body : List Byte) :
    slice (s.notifyPayload cls code body) 0 4 = leBytes 2 cls ++ leBytes 2 code ∧ slice (s.notifyPayload cls code body) 24 body.length = body := by
  let rest := leBytes 4 body.length ++ leBytes 4 s.tickSeq ++ leBytes 2 s.epoch ++ leBytes 2 0 ++ leBytes 8 s.deviceTime
  have hrest : rest.length = 20 := by simp [rest]
  have hpayload : s.notifyPayload cls code body = (leBytes 2 cls ++ leBytes 2 code) ++ (rest ++ body) := by simp [State.notifyPayload, rest]
  have hpayload' : s.notifyPayload cls code body = (leBytes 2 cls ++ leBytes 2 code ++ rest) ++ body := hpayload.trans (List.append_assoc ..).symm
  refine ⟨?_, ?_⟩
  · rw [hpayload]
    exact List.take_left' (by simp)
  · rw [hpayload']
    show List.take _ (List.drop 24 _) = _
    rw [List.drop_left' (by simp [hrest]), List.take_length]

/-! ## Pins (R443, R451) -/

theorem one_sub_evioActive (s : State) (e : Nat) : 1 - s.evioActive e = if s.rd (Ev.EVIO_POLARITY e) = 1 then 1 else 0 := by
  unfold State.evioActive
  split <;> rfl

theorem exec_timerExpiry {s : State} {n : Fin 16} {due : Nat} (h : tfind s.fab.timers n.val = some due) (hruns : s.fabricRuns = true) :
    exec (.timerExpiry n) s = .next ((s.at due).timerExpire n.val due) := by
  show execTimerExpiry n s = _
  unfold execTimerExpiry
  rw [h]
  exact congrArg Host.Outcome.next (if_pos hruns)

theorem exec_evioInputEdge_fires {s : State} {e : Fin 6} {rising : Bool} (hruns : s.fabricRuns = true) (hdir : s.rd (Ev.EVIO_DIR e.val) = 0)
    (hedge : s.rd (Ev.EVIO_EDGE e.val) = 2 ∨ s.rd (Ev.EVIO_EDGE e.val) = if rising then 0 else 1) :
    exec (.evioInputEdge e rising) s = .next (s.fire (120 + e.val)) := by
  refine congrArg Host.Outcome.next (if_pos ?_)
  rcases hedge with hedge | hedge
  · simp [hruns, hdir, hedge]
  · cases rising <;> simp_all

theorem exec_evioInputEdge_output {s : State} {e : Fin 6} (rising : Bool) (hdir : s.rd (Ev.EVIO_DIR e.val) = 1) :
    exec (.evioInputEdge e rising) s = .next s :=
  congrArg Host.Outcome.next (if_neg (by simp [hdir]))

/-- A pulse on an EVIO output is over. -/
def State.pulseOver (s : State) (e due : Nat) : State := { s.at due with fab := { s.fab with evios := tdel s.fab.evios e } }

theorem pulseOver_only (s : State) (e due : Nat) : OnlyChanges [.clock, .fab] [] s (s.pulseOver e due) := (at_only s due).trans (setFab_only ..)

theorem exec_evioPulseEnd {s : State} {e : Fin 6} {due : Nat} (h : tfind s.fab.evios e.val = some due) :
    exec (.evioPulseEnd e) s = .next ((s.pulseOver e.val due).pin ("EVIO" ++ toString e.val) (if s.rd (Ev.EVIO_POLARITY e.val) = 1 then 1 else 0)) := by
  show execEvioPulseEnd e s = _
  unfold execEvioPulseEnd
  rw [h]
  exact congrArg (fun level => Host.Outcome.next ((s.pulseOver e.val due).pin _ level)) (one_sub_evioActive ..)

/-! ## Wake actions (R452, R453, R456) -/

/-- The wake of a NOTIFY is no longer pending. -/
def State.wakeNotified (s : State) : State := { s with fab := { s.fab with wakeNotify := none } }

/-- The wake of a profile is no longer pending. -/
def State.wakeTaken (s : State) : State := { s with fab := { s.fab with wakeProfile := none } }

/-- The commit of WAKE_PROFILE. -/
def State.wakeEntries (s : State) : List CEntry := centries s.wakeTaken [(Tick.PROFILE, .num (s.rd Ev.WAKE_PROFILE))]

def State.wakeTxn (s : State) : Txn := s.wakeTaken.txn { sess := 0, seq := 0, port := 0 } 0x12 0 s.wakeEntries

def State.wakeVerdict (s : State) : Nat := (commitVerdict s.wakeTxn s.wakeEntries).1

/-- A commit of WAKE_PROFILE waits for its tick edge. -/
def State.wakeAdmitted (s : State) : Admitted :=
  { r := { sess := 0, seq := 0, port := 0 }, op := 0x12, ids := s.wakeEntries.map CEntry.id, vals := ofRule .admitted s.wakeEntries, target := 0 }

/-- A commit of WAKE_PROFILE is refused. -/
def State.wakeRefused (s : State) (st : Nat) : State :=
  let u := if st = Status.BUDGET_EXCEEDED then s.wakeTaken.count Tick.ADMIT_REFUSED else s.wakeTaken
  if st = Status.BUDGET_EXCEEDED ∨ st = Status.CONFLICT then u.count Ev.WAKE_REFUSED else u

theorem exec_wakeProfileAction {s : State} {pos : Nat} (h : s.fab.wakeProfile = some pos) (hanswers : s.negorAnswers = true) :
    exec .wakeProfileAction s = .next (if completes s.wakeVerdict then
      { s.wakeTaken with tick := { s.tick with admitted := s.tick.admitted ++ [s.wakeAdmitted] } } else s.wakeRefused s.wakeVerdict) := by
  show execWakeProfileAction s = _
  unfold execWakeProfileAction
  rw [h]
  exact congrArg Host.Outcome.next (if_pos hanswers)

theorem exec_wake_waits {s : State} (h : s.negorAnswers = false) : exec .wakeNotifyAction s = .next s ∧ exec .wakeProfileAction s = .next s := by
  refine ⟨?_, ?_⟩
  · show execWakeNotifyAction s = _
    unfold execWakeNotifyAction
    split
    · rfl
    · exact congrArg Host.Outcome.next (if_neg (by simp [h]))
  · show execWakeProfileAction s = _
    unfold execWakeProfileAction
    split
    · rfl
    · exact congrArg Host.Outcome.next (if_neg (by simp [h]))

theorem exec_wakeNotifyAction {s : State} {pos : Nat} (h : s.fab.wakeNotify = some pos) (hanswers : s.negorAnswers = true) :
    exec .wakeNotifyAction s = .next (s.wakeNotified.linkNotify 0x0602 184 0xFF pos) := by
  show execWakeNotifyAction s = _
  unfold execWakeNotifyAction
  rw [h]
  exact congrArg Host.Outcome.next (if_pos hanswers)

theorem wakeRefused_spec (s : State) {st : Nat} (h : st = Status.CONFLICT ∨ st = Status.BUDGET_EXCEEDED) :
    let t := s.wakeRefused st
    t.rd Ev.WAKE_REFUSED = countUp (s.rd Ev.WAKE_REFUSED) 1 ∧ t.fab.wakeProfile = none ∧ OnlyChanges [.fab] [Ev.WAKE_REFUSED, Tick.ADMIT_REFUSED] s t := by
  intro t
  let u := if st = Status.BUDGET_EXCEEDED then s.wakeTaken.count Tick.ADMIT_REFUSED else s.wakeTaken
  have htaken : OnlyChanges [.fab] [] s s.wakeTaken := setFab_only ..
  have hadmit : OnlyChanges [] [Tick.ADMIT_REFUSED] s.wakeTaken u := by
    unfold u
    split
    · exact count_only ..
    · exact (OnlyChanges.refl _).mono (by simp) (by simp)
  have ht : t = u.count Ev.WAKE_REFUSED := if_pos h.symm
  have hcount : OnlyChanges [] [Ev.WAKE_REFUSED] u t := ht ▸ count_only ..
  have hkept : u.rd Ev.WAKE_REFUSED = s.rd Ev.WAKE_REFUSED := (htaken.trans hadmit).rd (by decide)
  refine ⟨?_, ?_, ((htaken.trans hadmit).trans hcount).mono (by simp) (by simp)⟩
  · rw [ht, rd_count_counter (by decide), hkept]
  · rw [(hadmit.trans hcount).fab (by simp)]
    rfl

/-- Settles O53: each action is one branch of its step, and the NOTIFY is the last message to leave. -/
theorem timersPinsAndWakesAct : Obligations.TimersPinsAndWakesAct := by
  unfold Obligations.TimersPinsAndWakesAct
  refine ⟨fun s => ⟨fun n due h hruns => ?_, fun e rising => ⟨fun hruns hdir hedge => ?_, fun hdir => ?_⟩, fun e due h => ?_⟩,
    fun s pos => ⟨fun h => ?_, fun hanswers h => ?_, fun hanswers h => ?_⟩⟩
  · obtain ⟨hfab, hfirings, hstate, honly⟩ := timerExpire_spec (s.at due) n due
    refine ⟨_, exec_timerExpiry h hruns, hstate n.isLt, ?_, honly.clock (by simp), hfirings, ((at_only s due).trans honly).mono (by simp) (by simp)⟩
    rw [hfab]
    exact tfind_tdel_same ..
  · exact ⟨_, exec_evioInputEdge_fires hruns hdir hedge, rfl, fire_only ..⟩
  · exact ⟨s, exec_evioInputEdge_output rising hdir, rfl⟩
  · have hpin := pin_only (s.pulseOver e due) ("EVIO" ++ toString e.val) (if s.rd (Ev.EVIO_POLARITY e.val) = 1 then 1 else 0)
    refine ⟨_, exec_evioPulseEnd h, hpin.clock (by simp), ?_, emit_out .., ((pulseOver_only s e due).trans hpin).mono (by simp) (by simp)⟩
    rw [hpin.fab (by simp)]
    exact tfind_tdel_same ..
  · obtain ⟨hnotify, hprofile⟩ := exec_wake_waits h
    exact ⟨⟨s, hnotify, rfl⟩, s, hprofile, rfl⟩
  · have hset : OnlyChanges [.fab] [] s s.wakeNotified := setFab_only ..
    have hnotify : OnlyChanges sending sendIds s.wakeNotified (s.wakeNotified.linkNotify 0x0602 184 0xFF pos) := linkNotify_only ..
    refine ⟨_, exec_wakeNotifyAction h hanswers, hnotify.fab (by simp [sending]), fun k x hsession hmask => ?_, (hset.trans hnotify).mono (by simp) (by simp)⟩
    obtain ⟨t, mark, code, hout, hcode⟩ := notify_head (s := s.wakeNotified) hsession hmask 0x0602
      (leBytes 1 184 ++ leBytes 1 0xFF ++ leBytes 1 pos ++ leBytes 1 0)
    obtain ⟨hhead, hbody⟩ := notifyPayload_slices t 8 code (leBytes 1 184 ++ leBytes 1 0xFF ++ leBytes 1 pos ++ leBytes 1 0)
    exact ⟨mark, code, _, hout, hcode, hhead, hbody⟩
  · have hexec := exec_wakeProfileAction h hanswers
    intro u es verdict
    refine ⟨fun hok => ?_, fun hrefused => ?_⟩
    · have hcompletes : completes s.wakeVerdict = true := by
        rw [show s.wakeVerdict = Status.OK from hok]
        rfl
      rw [if_pos hcompletes] at hexec
      exact ⟨_, s.wakeAdmitted, hexec, rfl, rfl, rfl, (setFab_only s _).trans (setTick_only s.wakeTaken _)⟩
    · have hcompletes : ¬completes s.wakeVerdict = true := by
        rcases hrefused with hrefused | hrefused <;> rw [show s.wakeVerdict = _ from hrefused] <;> decide
      rw [if_neg hcompletes] at hexec
      exact ⟨_, hexec, wakeRefused_spec s hrefused⟩

end Sys2Proof.Machine

/-! The sensors of the thermal unit, the junction estimate and the thermal state (R459, R462, R463). -/

namespace Sys2Proof.Machine

/-! ## Signed parameters -/

theorem toSigned_ofSigned {v : Int} (hlo : -2 ^ 31 ≤ v) (hhi : v < 2 ^ 31) : toSigned 32 (ofSigned 32 v) = v := by
  unfold toSigned ofSigned
  split <;> omega

theorem rdS_wrS {id : Nat} (h : isWord id = true) {v : Int} (hlo : -2 ^ 31 ≤ v) (hhi : v < 2 ^ 31) (s : State) : (s.wrS id v).rdS id = v := by
  have hrd : (s.wrS id v).rd id = ofSigned 32 v := rd_wr_word h (ofSigned_lt v) s
  unfold State.rdS
  rw [hrd, toSigned_ofSigned hlo hhi]

theorem wrS_only (s : State) (id : Nat) (v : Int) : OnlyChanges [] [id] s (s.wrS id v) := wr_only ..

theorem OnlyChanges.rdS {ps : List Part} {ids : List Nat} {s t : State} (h : OnlyChanges ps ids s t) {id : Nat} (hid : id ∉ ids) : t.rdS id = s.rdS id :=
  congrArg (toSigned 32) (h.rd hid)

theorem isWord_monitors : ∀ m : Fin 16, isWord (Th.MONITOR m) = true ∧ isWord (Th.MONITOR_OFFSET m) = true := by decide

theorem isWord_thermal : isWord Th.DIODE = true ∧ isWord Th.JUNCTION = true ∧ isWord Th.POWER_NOW = true ∧ isWord Th.THERMAL_STATE = true ∧
    isWord Tick.ACTIVE_CAP = true ∧ isWord Th.THROTTLE_CAUSE = true := by decide

/-! ## What a sample reads (R459) -/

/-- The parameters of the monitors. -/
def monitorIds : List Nat := (List.range 16).map Th.MONITOR

theorem mem_monitorIds {m : Nat} (h : m < 16) : Th.MONITOR m ∈ monitorIds := List.mem_map_of_mem (List.mem_range.2 h)

theorem monitor_inj {a b : Nat} (h : Th.MONITOR a = Th.MONITOR b) : a = b := by
  unfold Th.MONITOR at h
  omega

/-- Monitors take values that no monitor holds. -/
theorem monitors_written {value : State → Nat → Int} {ids : List Nat} {s : State}
    (hvalue : ∀ t m, m < 16 → (∀ id, id ∉ ids → t.rd id = s.rd id) → value t m = value s m) (hids : ∀ m < 16, Th.MONITOR m ∈ ids)
    (hrange : ∀ m < 16, -960 ≤ value s m ∧ value s m ≤ 2560) {l : List Nat} (hl : ∀ m ∈ l, m < 16) (u : State) (hu : ∀ id, id ∉ ids → u.rd id = s.rd id) :
    let t := l.foldl (fun (t : State) m => t.wrS (Th.MONITOR m) (value t m)) u
    OnlyChanges [] monitorIds u t ∧ ∀ m < 16, t.rdS (Th.MONITOR m) = if m ∈ l then value s m else u.rdS (Th.MONITOR m) := by
  induction l generalizing u with
  | nil => exact ⟨.nothing u, fun m _ => (if_neg (by simp)).symm⟩
  | cons k l ih =>
    have hk := hl k (List.mem_cons_self ..)
    have hvaluek := hvalue u k hk hu
    let v := u.wrS (Th.MONITOR k) (value u k)
    have honly : OnlyChanges [] [Th.MONITOR k] u v := wrS_only ..
    have hv : ∀ id, id ∉ ids → v.rd id = s.rd id := fun id hid => (honly.rd fun hmem => hid (by rw [List.mem_singleton.1 hmem]; exact hids k hk)).trans (hu id hid)
    obtain ⟨hrest, hread⟩ := ih (fun m hm => hl m (List.mem_cons_of_mem _ hm)) v hv
    refine ⟨(honly.trans hrest).mono (by simp) ?_, fun m hm => (hread m hm).trans ?_⟩
    · simp only [List.singleton_append, List.mem_cons]
      exact fun id hid => hid.elim (fun he => he ▸ mem_monitorIds hk) fun hmem => hmem
    · by_cases hmem : m ∈ l
      · rw [if_pos hmem, if_pos (List.mem_cons_of_mem _ hmem)]
      rw [if_neg hmem]
      by_cases hmk : m = k
      · obtain ⟨hlo, hhi⟩ := hrange k hk
        rw [if_pos (by simp [hmk]), hmk, ← hvaluek]
        exact rdS_wrS (isWord_monitors ⟨k, hk⟩).1 (by omega) (by omega) u
      · rw [if_neg (by simp [hmk, hmem])]
        exact honly.rdS fun hmem => hmk (monitor_inj (List.mem_singleton.1 hmem))

/-- The estimate is the largest reading of the valid sensors. -/
theorem estimate_spec (s : State) : (∀ k ∈ s.validSensors, s.sensor k ≤ s.estimate) ∧ (s.validSensors ≠ [] → ∃ k ∈ s.validSensors, s.sensor k = s.estimate) ∧
    (s.validSensors = [] → s.estimate = s.rdS Th.JUNCTION) := by
  have hmax : ∀ (l : List Nat) (m : Int), let e := l.foldl (fun (m : Int) j => max m (s.sensor j)) m
      m ≤ e ∧ (∀ j ∈ l, s.sensor j ≤ e) ∧ (e = m ∨ ∃ j ∈ l, s.sensor j = e) := by
    intro l
    induction l with
    | nil => exact fun m => ⟨le_refl m, by simp, .inl rfl⟩
    | cons j l ih =>
      intro m
      obtain ⟨hge, hall, hsome⟩ := ih (max m (s.sensor j))
      refine ⟨(le_max_left ..).trans hge, fun i hi => ?_, ?_⟩
      · rcases List.mem_cons.1 hi with rfl | hi
        · exact (le_max_right ..).trans hge
        · exact hall i hi
      · rcases hsome with hsome | ⟨i, hi, hsome⟩
        · rcases max_choice m (s.sensor j) with h | h
          · exact .inl (hsome.trans h)
          · exact .inr ⟨j, List.mem_cons_self .., (hsome.trans h).symm⟩
        · exact .inr ⟨i, List.mem_cons_of_mem _ hi, hsome⟩
  unfold State.estimate
  cases hvalid : s.validSensors with
  | nil => simp
  | cons k r =>
    obtain ⟨hge, hall, hsome⟩ := hmax r (s.sensor k)
    refine ⟨fun j hj => ?_, fun _ => ?_, fun h => by simp at h⟩
    · rcases List.mem_cons.1 hj with rfl | hj
      · exact hge
      · exact hall j hj
    · rcases hsome with hsome | ⟨j, hj, hsome⟩
      · exact ⟨k, List.mem_cons_self .., hsome.symm⟩
      · exact ⟨j, List.mem_cons_of_mem _ hj, hsome⟩

/-- The readings of a sample of good sensors. -/
def State.reading (s : State) (diode : Int) (monitors : List Int) (k : Nat) : Int :=
  if k = 16 then diode else monitors.getD k 0 + s.rdS (Th.MONITOR_OFFSET k)

/-- The parameters that a sample writes. -/
def readingIds : List Nat := Th.POWER_NOW :: Th.DIODE :: Th.JUNCTION :: monitorIds

theorem readingIds_apart : Th.DIODE ∉ monitorIds ∧ Th.POWER_NOW ∉ Th.DIODE :: monitorIds ∧ Th.POWER_NOW ≠ Th.JUNCTION ∧ Th.DIODE ≠ Th.JUNCTION ∧
    Th.JUNCTION ∉ monitorIds ∧ Th.MONITOR_VALID ∉ readingIds ∧ ∀ m < 16, Th.MONITOR_OFFSET m ∉ readingIds := by decide

theorem validSensors_lt (s : State) : ∀ k ∈ s.validSensors, k < 17 := fun _ hk => (mem_setBits.1 hk).1

/-- The monitors, the diode and the power of a sample. -/
def State.sensorsRead (s : State) (diode : Int) (monitors : List Int) (mw : Nat) : State :=
  (List.range 16).foldl (fun (t : State) m => t.wrS (Th.MONITOR m) (monitors.getD m 0 + t.rdS (Th.MONITOR_OFFSET m))) ((s.wr Th.POWER_NOW mw).wrS Th.DIODE diode)

/-- A monitor outside its range is invalid. -/
def State.monitorChecked (s : State) (m : Nat) : State := if s.sensor m < -960 ∨ 2560 < s.sensor m then s.sensorInvalid m else s

theorem readSensors_eq (s : State) (diode : Int) (monitors : List Int) (mw : Nat) :
    s.readSensors diode false monitors mw = ((List.range 16).foldl State.monitorChecked (s.sensorsRead diode monitors mw)).wrS Th.JUNCTION
      ((List.range 16).foldl State.monitorChecked (s.sensorsRead diode monitors mw)).estimate := rfl

theorem monitorChecked_good {s : State} {l : List Nat} (h : ∀ m ∈ l, -960 ≤ s.sensor m ∧ s.sensor m ≤ 2560) : l.foldl State.monitorChecked s = s := by
  induction l with
  | nil => rfl
  | cons m l ih =>
    have hin := h m (List.mem_cons_self ..)
    rw [List.foldl_cons, State.monitorChecked, if_neg (by omega)]
    exact ih fun x hx => h x (List.mem_cons_of_mem _ hx)

/-- A sample of good sensors. -/
theorem readSensors_spec (s : State) {diode : Int} {monitors : List Int} (hrange : ∀ k < 17, -960 ≤ s.reading diode monitors k ∧ s.reading diode monitors k ≤ 2560)
    (mw : Nat) :
    let t := s.readSensors diode false monitors mw
    OnlyChanges [] readingIds s t ∧ t.rd Th.POWER_NOW = mw % 2 ^ 32 ∧ (∀ k < 17, t.sensor k = s.reading diode monitors k) ∧
      (∀ k ∈ s.validSensors, s.reading diode monitors k ≤ t.rdS Th.JUNCTION) ∧
      (s.validSensors ≠ [] → ∃ k ∈ s.validSensors, s.reading diode monitors k = t.rdS Th.JUNCTION) := by
  intro t
  obtain ⟨hdiode, hpower, hpower', hdiode', hjunction, hvalid, hoffsets⟩ := readingIds_apart
  have hwords := isWord_thermal
  let a := (s.wr Th.POWER_NOW mw).wrS Th.DIODE diode
  let value (t : State) (m : Nat) : Int := monitors.getD m 0 + t.rdS (Th.MONITOR_OFFSET m)
  let b := (List.range 16).foldl (fun (t : State) m => t.wrS (Th.MONITOR m) (value t m)) a
  have ha : OnlyChanges [] [Th.POWER_NOW, Th.DIODE] s a := (wr_only ..).trans (wrS_only ..)
  have hreading {m : Nat} (hm : m < 16) : value s m = s.reading diode monitors m := (if_neg (by omega)).symm
  obtain ⟨hb, hmonitors⟩ := monitors_written (value := value) (ids := readingIds) (s := s)
    (fun u m hm hsame => congrArg (monitors.getD m 0 + toSigned 32 ·) (hsame _ (hoffsets m hm)))
    (fun m hm => by simp [readingIds, mem_monitorIds hm]) (fun m hm => hreading hm ▸ hrange m (by omega)) (l := List.range 16) (fun m hm => List.mem_range.1 hm) a
    fun id hid => ha.rd fun hmem => hid (by simp only [readingIds, List.mem_cons, List.not_mem_nil, or_false] at hmem ⊢; tauto)
  have hab := ha.trans hb
  have hsensor : ∀ k < 17, b.sensor k = s.reading diode monitors k := by
    intro k hk
    unfold State.sensor
    by_cases h16 : k = 16
    · obtain ⟨hlo, hhi⟩ := hrange k hk
      rw [State.reading, if_pos h16] at hlo hhi
      rw [State.reading, if_pos h16, if_pos h16]
      exact (hb.rdS hdiode).trans (rdS_wrS hwords.1 (by omega) (by omega) _)
    · have hm : k < 16 := by omega
      rw [if_neg h16]
      exact (hmonitors k hm).trans ((if_pos (List.mem_range.2 hm)).trans (hreading hm))
  have ht : t = b.wrS Th.JUNCTION b.estimate := by
    have hgood : (List.range 16).foldl State.monitorChecked b = b := monitorChecked_good fun m hm => by
      have hm' := List.mem_range.1 hm
      exact hsensor m (by omega) ▸ hrange m (by omega)
    have heq : t = ((List.range 16).foldl State.monitorChecked b).wrS Th.JUNCTION ((List.range 16).foldl State.monitorChecked b).estimate := readSensors_eq ..
    rw [heq, hgood]
  have hjw : OnlyChanges [] [Th.JUNCTION] b t := ht ▸ wrS_only ..
  have hvalidb : b.validSensors = s.validSensors := by
    unfold State.validSensors
    rw [hab.rd fun hmem => hvalid (by simp only [readingIds, List.cons_append, List.nil_append, List.mem_cons] at hmem ⊢; tauto)]
  obtain ⟨hle, hsome, -⟩ := estimate_spec b
  rw [hvalidb] at hle hsome
  have hestimate : s.validSensors ≠ [] → t.rdS Th.JUNCTION = b.estimate := by
    intro hne
    obtain ⟨k, hk, he⟩ := hsome hne
    have hin := hrange k (validSensors_lt s k hk)
    rw [hsensor k (validSensors_lt s k hk)] at he
    rw [ht]
    exact rdS_wrS hwords.2.1 (by omega) (by omega) b
  refine ⟨(hab.trans hjw).mono (by simp) (by simp [readingIds]; tauto), ?_, fun k hk => ?_, fun k hk => ?_, fun hne => ?_⟩
  · rw [hjw.rd (by simpa using hpower'), hb.rd (by simp at hpower ⊢; tauto)]
    have hd := wrS_only (s.wr Th.POWER_NOW mw) Th.DIODE diode
    rw [hd.rd (by simp at hpower ⊢; tauto), rd_wr_isWord hwords.2.2.1]
  · rw [← hsensor k hk]
    unfold State.sensor
    by_cases h16 : k = 16
    · rw [if_pos h16, if_pos h16]
      exact hjw.rdS (by simpa using hdiode')
    · rw [if_neg h16, if_neg h16]
      exact hjw.rdS fun hmem => hjunction (List.mem_singleton.1 hmem ▸ mem_monitorIds (by omega))
  · rw [hestimate (List.ne_nil_of_mem hk), ← hsensor k (validSensors_lt s k hk)]
    exact hle k hk
  · obtain ⟨k, hk, he⟩ := hsome hne
    exact ⟨k, hk, (hsensor k (validSensors_lt s k hk)).symm.trans (he.trans (hestimate hne).symm)⟩

end Sys2Proof.Machine

/-! The thermal state, the heater and the steps down of the cap (R462 to R464, R469). -/

namespace Sys2Proof.Machine

theorem thermNotify_only (s : State) (code value sensor cap : Nat) : OnlyChanges sending sendIds s (s.thermNotify code value sensor cap) := by
  unfold State.thermNotify
  split
  · exact .nothing s
  · exact notify_only ..

/-! ## The heater (R463) -/

theorem warmupEnds_only (s : State) : OnlyChanges (.pow :: sending) sendIds s s.warmupEnds := by
  unfold State.warmupEnds
  dsimp only
  split
  · exact setGlobal_only ..
  · exact .nothing s

/-- WARMUP ends in WARMUP only, at no cold estimate. -/
theorem warmupEnds_stays {s : State} (h : s.pow.global ≠ .warmup ∨ s.rdS Th.JUNCTION < s.rdS Th.COLD_LIMIT + s.rdS Th.COLD_HYSTERESIS) : s.warmupEnds = s := by
  unfold State.warmupEnds
  dsimp only
  refine if_neg fun ⟨hwarm, hok⟩ => ?_
  rcases h with h | h
  · exact h hwarm
  · simp only [Bool.and_eq_true, decide_eq_true_eq] at hok
    omega

/-- The heating of a device that heats, or does not. -/
def State.heats (s : State) (heating : Bool) (start : Nat) : State := { s with therm := { s.therm with heating := heating, heatStart := start } }

/-- The heating time shows. -/
def State.heatTimed (s : State) : State := s.wr Th.WARMUP_HEAT_TIME ((s.clock - s.therm.heatStart) / 1000000)

/-- The thermal unit heats or not; otherwise it is as it was. -/
def HeatsAlike (s t : State) : Prop := ∃ heating start, t.therm = { s.therm with heating := heating, heatStart := start }

theorem HeatsAlike.of {s t : State} (h : t.therm = s.therm) : HeatsAlike s t := ⟨_, _, h⟩

theorem HeatsAlike.trans {s t u : State} (h : HeatsAlike s t) (g : HeatsAlike t u) : HeatsAlike s u := by
  obtain ⟨_, _, h⟩ := h
  obtain ⟨_, _, g⟩ := g
  exact ⟨_, _, g.trans (by rw [h])⟩

theorem heatTimed_only (s : State) : OnlyChanges [] [Th.WARMUP_HEAT_TIME] s s.heatTimed := wr_only ..

/-- The heater runs in WARMUP while the device is cold. -/
def State.heatsNow (s : State) : Bool := s.pow.global == .warmup && s.rd Th.THERMAL_STATE == 0

theorem heater_cases (s : State) :
    (s.heatsNow = true ∧ s.therm.heating = false ∧ s.heater = s.heats true s.clock) ∨
    (s.heatsNow = true ∧ s.therm.heating = true ∧ s.heater = s.heatTimed) ∨
    (s.heatsNow = false ∧ s.heater = (s.heatTimed.heats false s.heatTimed.therm.heatStart).warmupEnds) ∨
    (s.heatsNow = false ∧ s.heater = s) := by
  have heq : s.heater = if s.heatsNow && !s.therm.heating then s.heats true s.clock else if s.therm.heating then
      (if s.heatsNow then s.heatTimed else (s.heatTimed.heats false s.heatTimed.therm.heatStart).warmupEnds) else s := rfl
  rw [heq]
  cases s.heatsNow <;> cases s.therm.heating <;> simp

theorem heater_spec (s : State) :
    HeatsAlike s s.heater ∧ (s.pow.global ≠ .warmup → s.heater.pow = s.pow) ∧
      (s.heatsNow = true → s.heater.therm.heating = true ∧ s.heater.pow = s.pow) ∧
      OnlyChanges (.therm :: .pow :: sending) (Th.WARMUP_HEAT_TIME :: sendIds) s s.heater := by
  rcases heater_cases s with ⟨hnow, -, h⟩ | ⟨hnow, hheats, h⟩ | ⟨hnow, h⟩ | ⟨hnow, h⟩
  · rw [h]
    exact ⟨⟨_, _, rfl⟩, fun _ => rfl, fun _ => ⟨rfl, rfl⟩, (setTherm_only s _).mono (by simp) (by simp)⟩
  · have honly := heatTimed_only s
    have htherm : s.heatTimed.therm = s.therm := honly.2.1 .therm (by simp)
    have hpow : s.heatTimed.pow = s.pow := honly.pow (by simp)
    rw [h]
    exact ⟨.of htherm, fun _ => hpow, fun _ => ⟨by rw [htherm]; exact hheats, hpow⟩, honly.mono (by simp) (by simp)⟩
  · let u := s.heatTimed.heats false s.heatTimed.therm.heatStart
    have honly := heatTimed_only s
    have htherm : s.heatTimed.therm = s.therm := honly.2.1 .therm (by simp)
    have hpow : u.pow = s.pow := honly.pow (by simp)
    have hu : OnlyChanges [.therm] [] s.heatTimed u := setTherm_only ..
    have hends : OnlyChanges (.pow :: sending) sendIds u u.warmupEnds := warmupEnds_only u
    have halike : HeatsAlike s u := HeatsAlike.trans (t := s.heatTimed) (.of htherm) ⟨false, s.heatTimed.therm.heatStart, rfl⟩
    rw [h]
    refine ⟨halike.trans (.of (hends.2.1 .therm (by simp [sending]))), fun hwarm => ?_, fun hheats => by simp [hnow] at hheats,
      ((honly.trans hu).trans hends).mono (by simp) (by simp)⟩
    show u.warmupEnds.pow = _
    rw [warmupEnds_stays (s := u) (.inl (by rw [hpow]; exact hwarm))]
    exact hpow
  · rw [h]
    exact ⟨.of rfl, fun _ => rfl, fun hheats => by simp [hnow] at hheats, .nothing s⟩

/-! ## The thermal state (R462, R464) -/

theorem thermalNext_le (s : State) : s.thermalNext ≤ 5 := by
  unfold State.thermalNext
  dsimp only
  repeat' split
  all_goals omega

/-- The parameters that a thermal state moves. -/
def stateIds : List Nat := Th.THERMAL_STATE :: Th.WARNINGS :: Th.COLD_EXCURSIONS :: sendIds

/-- Only what a thermal state moves has moved. -/
def StateMoves (s t : State) : Prop := ∃ ports : List Nat, OnlyChanges (.firings :: .qps :: .tgt :: sending ++ ports.map .eth) stateIds s t

theorem StateMoves.of {ps : List Part} {ids : List Nat} {s t : State} (h : OnlyChanges ps ids s t) (hps : ∀ p ∈ ps, p ∈ .firings :: sending)
    (hids : ∀ id ∈ ids, id ∈ stateIds) : StateMoves s t :=
  ⟨[], h.mono (fun p hp => by have := hps p hp; simp only [List.mem_cons, List.mem_append] at this ⊢; tauto) hids⟩

theorem StateMoves.trans {s t u : State} (h : StateMoves s t) (g : StateMoves t u) : StateMoves s u := by
  obtain ⟨ports, hports⟩ := h
  obtain ⟨more, hmore⟩ := g
  exact ⟨ports ++ more, (hports.trans hmore).mono (by simp +contextual [or_imp]) (by simp)⟩

theorem StateMoves.rest {s t : State} (h : StateMoves s t) : t.pow = s.pow ∧ t.therm = s.therm ∧ t.clock = s.clock ∧ ∀ id ∉ stateIds, t.rd id = s.rd id := by
  obtain ⟨ports, hports⟩ := h
  exact ⟨hports.pow (by simp [sending]), hports.2.1 .therm (by simp [sending]), hports.clock (by simp [sending]), fun id hid => hports.rd hid⟩

theorem raiseEvent_stateMoves (s : State) (k : Nat) : StateMoves s (s.raiseEvent k) := by
  obtain ⟨ports, hports⟩ := raiseEvent_moves s k
  exact ⟨ports, hports.mono (by simp +contextual [sending, or_imp]) (by decide)⟩

/-- A new thermal state shows. -/
def State.stateTo (s : State) (st : Nat) : State := (s.wr Th.THERMAL_STATE st).thermNotify 1 st 0xFF (s.rd Tick.ACTIVE_CAP)

/-- The warnings of a new thermal state. -/
def State.stateWarns (s : State) (old st : Nat) : State :=
  let u := if st = 4 then s.count Th.WARNINGS else s
  let v := if old < 4 ∧ 4 ≤ st then (u.fire 126).raiseEvent 1 else u
  if st = 1 ∧ 2 ≤ old then v.count Th.COLD_EXCURSIONS else v

theorem stateWarns_moves (s : State) (old st : Nat) : StateMoves s (s.stateWarns old st) ∧ (s.stateWarns old st).rd Th.THERMAL_STATE = s.rd Th.THERMAL_STATE := by
  let u := if st = 4 then s.count Th.WARNINGS else s
  let v := if old < 4 ∧ 4 ≤ st then (u.fire 126).raiseEvent 1 else u
  let w := if st = 1 ∧ 2 ≤ old then v.count Th.COLD_EXCURSIONS else v
  have hu : StateMoves s u ∧ u.rd Th.THERMAL_STATE = s.rd Th.THERMAL_STATE := by
    unfold u
    split
    · exact ⟨.of (count_only ..) (by simp) (by simp [stateIds]), (count_only ..).rd (by decide)⟩
    · exact ⟨.of (.refl s) (by simp) (by simp), rfl⟩
  have hv : StateMoves u v ∧ v.rd Th.THERMAL_STATE = u.rd Th.THERMAL_STATE := by
    unfold v
    split
    · exact ⟨.trans (.of (fire_only ..) (by simp) (by simp)) (raiseEvent_stateMoves ..), (raiseEvent_moves (u.fire 126) 1).rd (by decide)⟩
    · exact ⟨.of (.refl u) (by simp) (by simp), rfl⟩
  have hw : StateMoves v w ∧ w.rd Th.THERMAL_STATE = v.rd Th.THERMAL_STATE := by
    unfold w
    split
    · exact ⟨.of (count_only ..) (by simp) (by simp [stateIds]), (count_only ..).rd (by decide)⟩
    · exact ⟨.of (.refl v) (by simp) (by simp), rfl⟩
  exact ⟨(hu.1.trans hv.1).trans hw.1, hw.2.trans (hv.2.trans hu.2)⟩

/-- The thermal state before the heater. -/
def State.stateStepped (s : State) : State :=
  if s.thermalNext = s.rd Th.THERMAL_STATE then s else (s.stateTo s.thermalNext).stateWarns (s.rd Th.THERMAL_STATE) s.thermalNext

theorem thermalStep_eq (s : State) : s.thermalStep = s.stateStepped.heater := rfl

theorem stateStepped_spec (s : State) : StateMoves s s.stateStepped ∧ s.stateStepped.rd Th.THERMAL_STATE = s.thermalNext := by
  unfold State.stateStepped
  split
  · next h => exact ⟨.of (.refl s) (by simp) (by simp), h.symm⟩
  · have hwr : OnlyChanges [] [Th.THERMAL_STATE] s (s.wr Th.THERMAL_STATE s.thermalNext) := wr_only ..
    have hnotify := thermNotify_only (s.wr Th.THERMAL_STATE s.thermalNext) 1 s.thermalNext 0xFF (s.rd Tick.ACTIVE_CAP)
    have hto : StateMoves s (s.stateTo s.thermalNext) := .of (hwr.trans hnotify) (by simp +contextual) (by simp +contextual [stateIds])
    obtain ⟨hmoves, hstate⟩ := stateWarns_moves (s.stateTo s.thermalNext) (s.rd Th.THERMAL_STATE) s.thermalNext
    have hle := thermalNext_le s
    refine ⟨hto.trans hmoves, hstate.trans ?_⟩
    exact (hnotify.rd (by decide)).trans (rd_wr_word isWord_thermal.2.2.2.1 (by omega) s)

/-- What the thermal state and the heater move. -/
def stepIds : List Nat := Th.WARMUP_HEAT_TIME :: stateIds

theorem thermalStep_spec (s : State) :
    let t := s.thermalStep
    t.rd Th.THERMAL_STATE = s.thermalNext ∧ HeatsAlike s t ∧ (s.pow.global ≠ .warmup → t.pow = s.pow) ∧
      (s.pow.global = .warmup → s.thermalNext = 0 → t.therm.heating = true ∧ t.pow = s.pow) ∧ t.clock = s.clock ∧ ∀ id ∉ stepIds, t.rd id = s.rd id := by
  intro t
  let u := s.stateStepped
  obtain ⟨hmoves, hstate⟩ := stateStepped_spec s
  obtain ⟨hpow, htherm, hclock, hrd⟩ := hmoves.rest
  obtain ⟨halike, hidle, hheats, honly⟩ := heater_spec u
  have ht : t = u.heater := thermalStep_eq s
  have hpow' : u.pow = s.pow := hpow
  rw [ht]
  refine ⟨(honly.rd (by decide)).trans hstate, .trans (.of htherm) halike, fun h => (hidle (by rwa [hpow'])).trans hpow, fun hwarm hcold => ?_,
    (honly.clock (by simp [sending])).trans hclock, fun id hid => ?_⟩
  · have hnow : u.heatsNow = true := by
      unfold State.heatsNow
      rw [hpow', hwarm, hstate, hcold]
      rfl
    exact ⟨(hheats hnow).1, (hheats hnow).2.trans hpow⟩
  · have hout : id ∉ Th.WARMUP_HEAT_TIME :: sendIds ∧ id ∉ stateIds := by
      simp only [stepIds, stateIds, List.mem_cons, not_or] at hid ⊢
      tauto
    exact (honly.rd hout.1).trans (hrd id hout.2)

end Sys2Proof.Machine

/-! The steps down of the cap (R469), and the shutdown (R465). -/

namespace Sys2Proof.Machine

/-! ## A step down (R469) -/

theorem applyClock_only (s : State) : OnlyChanges [.pow, .out] [] s s.applyClock := by
  unfold State.applyClock
  dsimp only
  split
  · exact (setPow_only ..).mono (by simp) (by simp)
  · exact (setPow_only ..).trans (pin_only ..)

theorem applyClock_global (s : State) : s.applyClock.pow.global = s.pow.global := by
  unfold State.applyClock
  dsimp only
  split
  · rfl
  · rw [(pin_only ..).pow (by simp)]

theorem readmit_only (s : State) : OnlyChanges [.tick] [] s s.readmit := by
  unfold State.readmit
  split
  · exact setTick_only ..
  · exact .nothing s

theorem shedNext_only (s : State) : OnlyChanges [.tick] [] s s.shedNext := by
  unfold State.shedNext
  split
  · exact setTick_only ..
  · exact .nothing s

/-- The parameters that a step of the cap moves. -/
def capIds : List Nat := Tick.ACTIVE_CAP :: Th.THROTTLE_STEPS :: Th.THROTTLE_CAUSE :: Th.FLOOR_HOLDS :: sendIds

/-- The cap is a new one. -/
def State.capDown (s : State) (new : Nat) : State := (s.wr Tick.ACTIVE_CAP new).applyClock.fire 201

/-- A step down counts, with its cause. -/
def State.stepCounted (s : State) : State := (s.count Th.THROTTLE_STEPS).wr Th.THROTTLE_CAUSE (if s.rd Th.THERMAL_STATE = 5 then 1 else 2)

/-- What a step down brings: re-admission, the shed level, the notices. -/
def State.stepFollows (s : State) (new floor : Nat) : State :=
  let t := ({ s with therm := { s.therm with lastDown := some s.clock } }).readmit.shedNext.thermNotify 2 0 0xFF new
  if new = floor ∧ t.therm.floorNotified = false then ({ t with therm := { t.therm with floorNotified := true } }).thermNotify 3 0 0xFF new else t

theorem stepFollows_only (s : State) (new floor : Nat) : OnlyChanges (.therm :: .tick :: sending) sendIds s (s.stepFollows new floor) := by
  let u : State := { s with therm := { s.therm with lastDown := some s.clock } }
  let t := u.readmit.shedNext.thermNotify 2 0 0xFF new
  have ht : OnlyChanges (.therm :: .tick :: sending) sendIds s t :=
    ((((setTherm_only s _).trans (readmit_only u)).trans (shedNext_only u.readmit)).trans (thermNotify_only ..)).mono (by simp) (by simp)
  show OnlyChanges _ _ s (if new = floor ∧ t.therm.floorNotified = false then ({ t with therm := { t.therm with floorNotified := true } }).thermNotify 3 0 0xFF new
    else t)
  split
  · exact ((ht.trans (setTherm_only t _)).trans (thermNotify_only ..)).mono (by simp +contextual [or_imp]) (by simp)
  · exact ht

theorem capDown_only (s : State) (new : Nat) : OnlyChanges [.pow, .out, .firings] [Tick.ACTIVE_CAP] s (s.capDown new) :=
  (((wr_only ..).trans (applyClock_only ..)).trans (fire_only ..)).mono (by simp) (by simp)

theorem stepCounted_only (s : State) : OnlyChanges [] [Th.THROTTLE_STEPS, Th.THROTTLE_CAUSE] s s.stepCounted := (count_only ..).trans (wr_only ..)

theorem stepDown_lowers {s : State} (h : s.profile.floorCap < s.rd Tick.ACTIVE_CAP) :
    s.stepDown = ((s.capDown (max s.profile.floorCap (s.rd Tick.ACTIVE_CAP - 5000))).stepCounted).stepFollows
      (max s.profile.floorCap (s.rd Tick.ACTIVE_CAP - 5000)) s.profile.floorCap := if_pos h

theorem stepDown_stays {s : State} (h : ¬s.profile.floorCap < s.rd Tick.ACTIVE_CAP) : OnlyChanges [.therm] [Th.FLOOR_HOLDS] s s.stepDown := by
  have heq : s.stepDown = if s.therm.floorHeld then s else { s with therm := { s.therm with floorHeld := true } }.count Th.FLOOR_HOLDS := if_neg h
  rw [heq]
  split
  · exact .nothing s
  · exact (setTherm_only s _).trans (count_only ..)

/-- A step down changes the cap, its clock and its counts, and no global state. -/
theorem stepDown_only (s : State) :
    OnlyChanges (.therm :: .pow :: .firings :: .tick :: sending) capIds s s.stepDown ∧ s.stepDown.pow.global = s.pow.global := by
  by_cases h : s.profile.floorCap < s.rd Tick.ACTIVE_CAP
  · rw [stepDown_lowers h]
    let new := max s.profile.floorCap (s.rd Tick.ACTIVE_CAP - 5000)
    have hdown := capDown_only s new
    have hafter := (stepCounted_only (s.capDown new)).trans (stepFollows_only (s.capDown new).stepCounted new s.profile.floorCap)
    refine ⟨(hdown.trans hafter).mono (by simp [sending]) (by simp +contextual [capIds]), ?_⟩
    rw [hafter.pow (by simp [sending])]
    exact applyClock_global (s.wr Tick.ACTIVE_CAP new)
  · have hstays := stepDown_stays h
    exact ⟨hstays.mono (by simp) (by simp [capIds]), congrArg PowerSt.global (hstays.pow (by simp))⟩

theorem stepDown_spec {s : State} (h : s.profile.floorCap < s.rd Tick.ACTIVE_CAP) (hstate : s.rd Th.THERMAL_STATE = 5) :
    let t := s.stepDown
    t.rd Tick.ACTIVE_CAP = max s.profile.floorCap (s.rd Tick.ACTIVE_CAP - 5000) % 2 ^ 32 ∧
      t.rd Th.THROTTLE_STEPS = countUp (s.rd Th.THROTTLE_STEPS) 1 ∧ t.rd Th.THROTTLE_CAUSE = 1 ∧ (201, s.clock) ∈ t.firings := by
  intro t
  let new := max s.profile.floorCap (s.rd Tick.ACTIVE_CAP - 5000)
  let u := s.capDown new
  have ht : t = u.stepCounted.stepFollows new s.profile.floorCap := stepDown_lowers h
  have hu : OnlyChanges [.pow, .out, .firings] [Tick.ACTIVE_CAP] s u := capDown_only s new
  have hcounted := stepCounted_only u
  have hfollows := stepFollows_only u.stepCounted new s.profile.floorCap
  have hclocked := applyClock_only (s.wr Tick.ACTIVE_CAP new)
  have hstate' : u.rd Th.THERMAL_STATE = 5 := (hu.rd (by decide)).trans hstate
  rw [ht]
  refine ⟨?_, ?_, ?_, ?_⟩
  · rw [(hcounted.trans hfollows).rd (by decide)]
    exact (hclocked.rd (by simp)).trans (rd_wr_isWord isWord_thermal.2.2.2.2.1 ..)
  · rw [hfollows.rd (by decide), State.stepCounted, (wr_only ..).rd (by decide), rd_count_counter (by decide), hu.rd (by decide)]
  · rw [hfollows.rd (by decide), State.stepCounted, if_pos hstate']
    exact rd_wr_word isWord_thermal.2.2.2.2.2 (by omega) _
  · have hfired : u.firings = s.firings ++ [(201, s.clock)] := by
      have hclock : (s.wr Tick.ACTIVE_CAP new).applyClock.clock = s.clock := hclocked.clock (by simp)
      have hfirings : (s.wr Tick.ACTIVE_CAP new).applyClock.firings = s.firings := hclocked.firings (by simp)
      show _ ++ [(201, (s.wr Tick.ACTIVE_CAP new).applyClock.clock)] = _
      rw [hclock, hfirings]
    rw [(hcounted.trans hfollows).firings (by simp [sending]), hfired]
    simp

/-! ## The decisions of a sample (R469, R470) -/

/-- The time since which a step up may count. -/
def State.limitsWatched (s : State) : State :=
  { s with therm := { s.therm with okSince := if s.withinLimits && !s.therm.upPending then some (s.therm.okSince.getD s.clock) else none } }

/-- A step up that waits is given up. -/
def State.upDropped (s : State) : State := { s with therm := { s.therm with upPending := false } }

/-- 100 ms have passed since the latest step down. -/
def State.downDue (s : State) : Bool := (s.therm.lastDown.map fun c => decide (c + 100000000 ≤ s.clock)).getD true

/-- A step down where one is due. -/
def State.downIfDue (s : State) : State :=
  match s.therm.lastDown with
  | some t => if t + capHold ≤ s.clock then s.stepDown else s
  | none => s.stepDown

theorem downIfDue_eq (s : State) : s.downIfDue = if s.downDue then s.stepDown else s := by
  unfold State.downIfDue State.downDue
  cases s.therm.lastDown with
  | none => exact (if_pos rfl).symm
  | some c => by_cases h : c + 100000000 ≤ s.clock <;> simp [capHold, h]

theorem capSample_eq (s : State) : s.capSample =
    if s.capDecides = false then s else
    if s.limitsWatched.rd Th.THERMAL_STATE = 5 ∨ s.limitsWatched.overPower then s.limitsWatched.upDropped.downIfDue else s.limitsWatched := rfl

theorem capSample_spec (s : State) :
    let t := s.capSample
    OnlyChanges (.therm :: .pow :: .firings :: .tick :: sending) capIds s t ∧ t.pow.global = s.pow.global ∧
      (s.downDue = false → t.rd Tick.ACTIVE_CAP = s.rd Tick.ACTIVE_CAP) ∧
      (s.capDecides = true → s.rd Th.THERMAL_STATE = 5 → s.profile.floorCap < s.rd Tick.ACTIVE_CAP → s.downDue = true →
        t.rd Tick.ACTIVE_CAP = max s.profile.floorCap (s.rd Tick.ACTIVE_CAP - 5000) % 2 ^ 32 ∧
          t.rd Th.THROTTLE_STEPS = countUp (s.rd Th.THROTTLE_STEPS) 1 ∧ t.rd Th.THROTTLE_CAUSE = 1 ∧ (201, s.clock) ∈ t.firings) := by
  intro t
  have ht : t = _ := capSample_eq s
  have hwatched : OnlyChanges [.therm] [] s s.limitsWatched := setTherm_only ..
  have hdropped : OnlyChanges [.therm] [] s s.limitsWatched.upDropped := (hwatched.trans (setTherm_only s.limitsWatched _)).mono (by simp) (by simp)
  obtain ⟨hdown, hglobal⟩ := stepDown_only s.limitsWatched.upDropped
  rw [ht]
  by_cases hdecides : s.capDecides = false
  · rw [if_pos hdecides]
    exact ⟨.nothing s, rfl, fun _ => rfl, fun h => by simp [hdecides] at h⟩
  rw [if_neg hdecides]
  by_cases hhot : s.limitsWatched.rd Th.THERMAL_STATE = 5 ∨ s.limitsWatched.overPower
  · rw [if_pos hhot, downIfDue_eq]
    have hsame : s.limitsWatched.upDropped.downDue = s.downDue := rfl
    rw [hsame]
    by_cases hdue : s.downDue = true
    · rw [if_pos hdue]
      exact ⟨(hdropped.trans hdown).mono (by simp) (by simp), hglobal, fun h => by simp [hdue] at h,
        fun _ hstate hfloor _ => stepDown_spec (s := s.limitsWatched.upDropped) hfloor hstate⟩
    · rw [if_neg hdue]
      exact ⟨hdropped.mono (by simp) (by simp), rfl, fun _ => rfl, fun _ _ _ h => absurd h hdue⟩
  · rw [if_neg hhot]
    exact ⟨hwatched.mono (by simp) (by simp), rfl, fun _ => rfl, fun _ hstate => absurd (.inl hstate) hhot⟩

/-! ## The shutdown (R465) -/

theorem setGlobal_thermalOff (s : State) : s.setGlobal .thermalOff = { s with pow := { s.pow with global := .thermalOff } } := by
  by_cases h : s.pow.global = .thermalOff
  · have heq : s.setGlobal .thermalOff = s := if_pos h
    rw [heq, ← h]
  · exact (if_neg h).trans (if_pos (.inl rfl))

/-- The outputs of a shutdown. -/
def State.outputsOff (s : State) : State := (((s.pin "THERM_SHDN" 1).pin "DDR5_RESET_N" 0).pin "PCIE_PERST_N" 0).pin "OUTPUTS" 2

theorem outputsOff_spec (s : State) : Output.pin "THERM_SHDN" 1 ∈ s.outputsOff.out ∧ OnlyChanges [.out] [] s s.outputsOff := by
  refine ⟨by simp [State.outputsOff, State.pin], ?_⟩
  exact ((((pin_only ..).trans (pin_only ..)).trans (pin_only ..)).trans (pin_only ..)).mono (by simp) (by simp)

/-- The power and the thermal unit of a device that has shut down. -/
def State.poweredDown (s : State) : State :=
  { s with
    pow := { s.pow with thermShdn := true, clocksStopped := true, afterThermalOff := true, ledgerQueue := [], restarting := false, global := .thermalOff }
    therm := { s.therm with pendWeighted := 0, pendPowered := 0, heating := false } }

/-- The shutdown record is written. -/
def State.shutdownRecorded (s : State) (cause source : Nat) : State :=
  (s.finishLedger.ledgerWrite 14 17 (s.finishLedger.shutdownRecord cause source)).count Th.SHUTDOWN_COUNT

theorem thermalShutdown_eq (s : State) (cause source : Nat) :
    s.thermalShutdown cause source = (s.shutdownRecorded cause source).outputsOff.stopAll.poweredDown := setGlobal_thermalOff _

theorem finishLedger_only (s : State) : OnlyChanges [.pow, .therm] [Obs.LEDGER_WRITES] s s.finishLedger := by
  unfold State.finishLedger
  split
  · exact (ledgerCommit_spec ..).2.2
  · exact .nothing s

theorem tget_map_none {α β : Type} (f : α → β) (d : α) (d' : β) (hd : f d = d') (l : Table α) (k : Nat) :
    tget (l.map fun e => (e.1, f e.2)) k d' = f (tget l k d) := by
  induction l with
  | nil => exact hd.symm
  | cons e l ih =>
    show (if e.1 = k then some (f e.2) else tfind (l.map fun e => (e.1, f e.2)) k).getD d' = f ((if e.1 = k then some e.2 else tfind l k).getD d)
    split
    · rfl
    · exact ih

theorem thermalShutdown_spec (s : State) (cause source : Nat) :
    let t := s.thermalShutdown cause source
    t.pow.global = .thermalOff ∧ t.pow.thermShdn = true ∧ t.pow.clocksStopped = true ∧ t.rd Th.SHUTDOWN_COUNT = countUp (s.rd Th.SHUTDOWN_COUNT) 1 ∧
      Output.pin "THERM_SHDN" 1 ∈ t.out ∧ t.media.run = none ∧ (∀ x, (t.ctxSt x).job = none) ∧ t.clock = s.clock ∧
      ∀ id ∉ [Obs.LEDGER_WRITES, Th.SHUTDOWN_COUNT], t.rd id = s.rd id := by
  intro t
  let a := s.shutdownRecorded cause source
  have ht : t = a.outputsOff.stopAll.poweredDown := thermalShutdown_eq ..
  have hfinish := finishLedger_only s
  obtain ⟨-, -, hwrite⟩ := ledgerWrite_spec s.finishLedger 14 17 (s.finishLedger.shutdownRecord cause source)
  have hcount : OnlyChanges [] [Th.SHUTDOWN_COUNT] _ a := count_only ..
  have ha := (hfinish.trans hwrite).trans hcount
  obtain ⟨hpin, hout⟩ := outputsOff_spec a
  rw [ht]
  refine ⟨rfl, rfl, rfl, ?_, hpin, rfl, fun x => ?_, (hout.clock (by simp)).trans (ha.clock (by simp)), fun id hid => ?_⟩
  · have hcounted : a.outputsOff.rd Th.SHUTDOWN_COUNT = countUp (s.rd Th.SHUTDOWN_COUNT) 1 := by
      rw [hout.rd (by simp), ← (hfinish.trans hwrite).rd (id := Th.SHUTDOWN_COUNT) (by decide)]
      exact rd_count_counter (by decide) _
    exact hcounted
  · exact congrArg CtxSt.job (tget_map_none (fun c : CtxSt => { c with job := none }) {} {} rfl a.outputsOff.ctxs x)
  · exact (hout.rd (by simp)).trans (ha.rd (by simpa using hid))

end Sys2Proof.Machine

/-! O54: samples and calibration govern the thermal state, the shutdown and the cap (R459 to R469). -/

namespace Sys2Proof.Machine

/-! ## What follows from a sample -/

theorem bootTrace_only (s : State) (slot stage : Nat) (failed : Bool) : OnlyChanges [.out, .obs] traceIds s (s.bootTrace slot stage failed) := trace_only ..

theorem traceHeader_only (s : State) (slot : Nat) : OnlyChanges [.out, .obs] traceIds s (s.traceHeader slot) := by
  refine OnlyChanges.foldl _ (.nothing s) fun t k _ => ?_
  split
  · exact .nothing t
  · exact bootTrace_only ..

theorem selectImage_only (s : State) : OnlyChanges [.pow, .out, .obs] traceIds s s.selectImage := by
  unfold State.selectImage
  split
  · exact ((setPow_only s _).trans (bootTrace_only ..)).mono (by simp) (by simp)
  · exact ((setPow_only s _).trans (traceHeader_only ..)).mono (by simp) (by simp)

/-- What follows from a sample moves no device clock, and the parameters but those of the thermal states, the cap and the shutdown stand. -/
def SampleFollows (s t : State) : Prop :=
  t.clock = s.clock ∧ ∀ id, id ∉ stepIds → id ∉ capIds → id ∉ [Obs.LEDGER_WRITES, Th.SHUTDOWN_COUNT] → t.rd id = s.rd id

theorem SampleFollows.of {ps : List Part} {ids : List Nat} {s t : State} (h : OnlyChanges ps ids s t) (hclock : .clock ∉ ps) (hids : ∀ id ∈ ids, id ∈ capIds) :
    SampleFollows s t := ⟨h.clock hclock, fun _ _ hcap _ => h.rd fun hmem => hcap (hids _ hmem)⟩

theorem SampleFollows.trans {s t u : State} (h : SampleFollows s t) (g : SampleFollows t u) : SampleFollows s u :=
  ⟨g.1.trans h.1, fun id h1 h2 h3 => (g.2 id h1 h2 h3).trans (h.2 id h1 h2 h3)⟩

theorem capSample_follows (s : State) : SampleFollows s s.capSample := .of (capSample_spec s).1 (by simp [sending]) fun _ h => h

theorem thermalStep_follows (s : State) : SampleFollows s s.thermalStep := by
  obtain ⟨-, -, -, -, hclock, hrd⟩ := thermalStep_spec s
  exact ⟨hclock, fun id hstep _ _ => hrd id hstep⟩

theorem sampleSteps_follows (s : State) : SampleFollows s s.sampleSteps := by
  unfold State.sampleSteps
  split
  · split
    · exact .of (selectImage_only s) (by simp) (by simp [traceIds, capIds, sendIds])
    · exact .of (.refl s) (by simp) (by simp)
  split
  · exact capSample_follows s
  · exact ((thermalStep_follows s).trans (capSample_follows _)).trans (.of (warmupEnds_only _) (by simp [sending]) (by simp +contextual [capIds]))

/-- The valid sensors at or above the threshold of the shutdown. -/
def State.hotSensors (s : State) : List Nat := s.validSensors.filter fun k => decide (s.rdS Th.SHUTDOWN_THRESHOLD ≤ s.sensor k)

/-- The readings of one sample are kept for the next. -/
def State.hotKept (s : State) : State := { s with therm := { s.therm with hotOnce := maskOf s.hotSensors } }

theorem sampleActs_shuts {s : State} (h : ∃ k ∈ s.hotSensors, bit s.therm.hotOnce k = true) : ∃ k, s.sampleActs = s.thermalShutdown 1 k := by
  obtain ⟨k, hk, hbit⟩ := h
  have hmem : k ∈ s.hotSensors.filter fun k => bit s.therm.hotOnce k := List.mem_filter.2 ⟨hk, hbit⟩
  have hsource : ∃ j, s.shutdownSource s.hotSensors = some j := by
    unfold State.shutdownSource
    dsimp only
    split
    · next hnil => simp [hnil] at hmem
    · exact ⟨_, rfl⟩
  obtain ⟨j, hj⟩ := hsource
  refine ⟨j, ?_⟩
  unfold State.sampleActs
  dsimp only
  split
  · next i hi => rw [Option.some_inj.1 (hi.symm.trans hj)]
  · next hnone => exact absurd (hnone.symm.trans hj) (by simp)

theorem sampleActs_steps {s : State} (h : ∀ k ∈ s.hotSensors, bit s.therm.hotOnce k = false) : s.sampleActs = s.hotKept.sampleSteps := by
  have hnone : s.shutdownSource s.hotSensors = none := by
    have hnil : (s.hotSensors.filter fun k => bit s.therm.hotOnce k) = [] := List.filter_eq_nil_iff.2 fun k hk => by simp [h k hk]
    unfold State.shutdownSource
    dsimp only
    split
    · rfl
    · next hcons => simp [hnil] at hcons
  unfold State.sampleActs
  dsimp only
  split
  · next i hi => exact absurd (hi.symm.trans hnone) (by simp)
  · rfl

theorem sampleActs_follows (s : State) : SampleFollows s s.sampleActs := by
  by_cases h : ∃ k ∈ s.hotSensors, bit s.therm.hotOnce k = true
  · obtain ⟨k, hk⟩ := sampleActs_shuts h
    obtain ⟨-, -, -, -, -, -, -, hclock, hrd⟩ := thermalShutdown_spec s 1 k
    rw [hk]
    exact ⟨hclock, fun id _ _ hid => hrd id hid⟩
  · rw [sampleActs_steps fun k hk => by simpa using fun hbit => h ⟨k, hk, hbit⟩]
    exact .trans (.of (setTherm_only s _) (by simp) (by simp)) (sampleSteps_follows _)

/-! ## Samples in READY and RUN -/

/-- The state that a thermal state is chosen by. -/
theorem thermalNext_cases (s : State) :
    let e := s.rdS Th.JUNCTION
    let hot := s.rdS Th.HOT_HYSTERESIS
    (s.rdS Th.THROTTLE_THRESHOLD ≤ e → s.thermalNext = 5) ∧ (s.rd Th.THERMAL_STATE = 5 → s.rdS Th.THROTTLE_THRESHOLD - hot < e → s.thermalNext = 5) ∧
      (s.rd Th.THERMAL_STATE ≠ 5 → s.rdS Th.WARN_THRESHOLD ≤ e → e < s.rdS Th.THROTTLE_THRESHOLD → s.thermalNext = 4) ∧
      (0 < hot → s.rdS Th.WARN_THRESHOLD ≤ s.rdS Th.THROTTLE_THRESHOLD → e ≤ s.rdS Th.WARN_THRESHOLD - hot → 0 ≤ s.rdS Th.COLD_HYSTERESIS →
        s.rdS Th.COLD_LIMIT ≤ s.rdS Th.COLD_WARNING → s.rdS Th.COLD_WARNING + s.rdS Th.COLD_HYSTERESIS ≤ e → s.thermalNext = 3) := by
  intro e hot
  unfold State.thermalNext
  dsimp only
  refine ⟨fun _ => ?_, fun _ _ => ?_, fun _ _ _ => ?_, fun _ _ _ _ _ _ => ?_⟩ <;> grind

/-- The parameters that a thermal state is chosen by. -/
def thresholdIds : List Nat :=
  [Th.SHUTDOWN_THRESHOLD, Th.THROTTLE_THRESHOLD, Th.WARN_THRESHOLD, Th.HOT_HYSTERESIS, Th.COLD_LIMIT, Th.COLD_WARNING, Th.COLD_HYSTERESIS]

theorem thresholdIds_apart : ∀ id ∈ thresholdIds, id ∉ readingIds ∧ id ∉ stepIds := by decide

theorem profileIds_apart : ∀ id ∈ profileIds, id ∉ readingIds ∧ id ∉ stepIds := by decide

theorem readingIds_follow : ∀ id ∈ readingIds, id ∉ stepIds ∧ id ∉ capIds ∧ id ∉ [Obs.LEDGER_WRITES, Th.SHUTDOWN_COUNT] := by decide

/-- The steps of a sample in READY and RUN. -/
theorem sampleSteps_runs {s : State} (h : s.pow.global = .ready ∨ s.pow.global = .run) :
    let t := s.sampleSteps
    t.pow.global = s.pow.global ∧ t.rd Th.THERMAL_STATE = s.thermalNext ∧ t.clock = s.clock ∧ (s.downDue = false → t.rd Tick.ACTIVE_CAP = s.rd Tick.ACTIVE_CAP) ∧
      (s.thermalNext = 5 → s.profile.floorCap < s.rd Tick.ACTIVE_CAP → s.downDue = true →
        t.rd Tick.ACTIVE_CAP = max s.profile.floorCap (s.rd Tick.ACTIVE_CAP - 5000) % 2 ^ 32 ∧
          t.rd Th.THROTTLE_STEPS = countUp (s.rd Th.THROTTLE_STEPS) 1 ∧ t.rd Th.THROTTLE_CAUSE = 1 ∧ (201, t.clock) ∈ t.firings) := by
  intro t
  have hboot : s.pow.global ≠ .boot := by rcases h with h | h <;> simp [h]
  have hwarm : s.pow.global ≠ .warmup := by rcases h with h | h <;> simp [h]
  let a := s.thermalStep
  obtain ⟨hstate, ⟨_, _, htherm⟩, hpow, -, hclock, hrd⟩ := thermalStep_spec s
  have hpow' : a.pow = s.pow := hpow hwarm
  have hclock' : a.clock = s.clock := hclock
  obtain ⟨honly, hglobal, hstays, hlowers⟩ := capSample_spec a
  have ht : t = a.capSample := by
    have hsteps : t = a.capSample.warmupEnds := (if_neg hboot).trans (if_neg fun hcal => hwarm hcal.1)
    rw [hsteps, warmupEnds_stays (.inl _)]
    rwa [hglobal, hpow']
  have hdue : a.downDue = s.downDue := by
    have hdown : a.therm.lastDown = s.therm.lastDown := (congrArg ThermSt.lastDown htherm :)
    unfold State.downDue
    rw [hdown, hclock']
  have hcap : a.rd Tick.ACTIVE_CAP = s.rd Tick.ACTIVE_CAP := hrd _ (by decide)
  have hsteps : a.rd Th.THROTTLE_STEPS = s.rd Th.THROTTLE_STEPS := hrd _ (by decide)
  have hprofile : a.profile = s.profile := profile_congr fun id hid => hrd id (profileIds_apart id hid).2
  have hdecides : a.capDecides = true := by
    unfold State.capDecides
    rw [hpow']
    rcases h with h | h <;> rw [h] <;> rfl
  have htclock : a.capSample.clock = a.clock := honly.clock (by simp [sending])
  rw [ht, htclock]
  rw [hdue, hcap] at hstays
  rw [hdue, hcap, hsteps, hprofile] at hlowers
  exact ⟨hglobal.trans (congrArg PowerSt.global hpow'), (honly.rd (by decide)).trans hstate, hclock, hstays,
    fun hnext hfloor hdown => hlowers hdecides (hstate.trans hnext) hfloor hdown⟩

/-! ## Calibration (R460, R463) -/

/-- A monitor is corrected to the diode. -/
def State.monitorCorrected (diode : Int) (monitors : List Int) (s : State) (m : Nat) : State :=
  let off := diode - monitors.getD m diode
  let t := (s.wrS (Th.MONITOR_OFFSET m) off).wrS (Th.MONITOR m) diode
  if 160 < off.natAbs then t.sensorInvalid m else t

/-- The parameters that calibration writes. -/
def offsetIds : List Nat := (List.range 16).map Th.MONITOR_OFFSET ++ monitorIds

theorem monitorOffset_inj {a b : Nat} (h : Th.MONITOR_OFFSET a = Th.MONITOR_OFFSET b) : a = b := by
  unfold Th.MONITOR_OFFSET at h
  omega

theorem monitor_ne_offset (a b : Nat) : Th.MONITOR_OFFSET a ≠ Th.MONITOR b := by
  unfold Th.MONITOR_OFFSET Th.MONITOR
  omega

theorem monitorsCorrected {diode : Int} {monitors : List Int} (hoff : ∀ m < 16, (diode - monitors.getD m diode).natAbs ≤ 160) (hlo : -960 ≤ diode)
    (hhi : diode ≤ 2560) {l : List Nat} (hl : ∀ m ∈ l, m < 16) (s : State) :
    let t := l.foldl (State.monitorCorrected diode monitors) s
    OnlyChanges [] offsetIds s t ∧ ∀ m < 16,
      t.rdS (Th.MONITOR_OFFSET m) = (if m ∈ l then diode - monitors.getD m diode else s.rdS (Th.MONITOR_OFFSET m)) ∧
        t.rdS (Th.MONITOR m) = if m ∈ l then diode else s.rdS (Th.MONITOR m) := by
  induction l generalizing s with
  | nil => exact ⟨.nothing s, fun m _ => ⟨(if_neg (by simp)).symm, (if_neg (by simp)).symm⟩⟩
  | cons k l ih =>
    have hk := hl k (List.mem_cons_self ..)
    have hoffk := hoff k hk
    obtain ⟨hword, hword'⟩ := isWord_monitors ⟨k, hk⟩
    let u := s.wrS (Th.MONITOR_OFFSET k) (diode - monitors.getD k diode)
    let v := u.wrS (Th.MONITOR k) diode
    have hu : OnlyChanges [] [Th.MONITOR_OFFSET k] s u := wrS_only ..
    have hv : OnlyChanges [] [Th.MONITOR k] u v := wrS_only ..
    have hcorrected : s.monitorCorrected diode monitors k = v := if_neg (by omega)
    obtain ⟨honly, hread⟩ := ih (fun m hm => hl m (List.mem_cons_of_mem _ hm)) v
    rw [List.foldl_cons, hcorrected]
    have hin : Th.MONITOR_OFFSET k ∈ offsetIds ∧ Th.MONITOR k ∈ offsetIds :=
      ⟨List.mem_append_left _ (List.mem_map_of_mem (List.mem_range.2 hk)), List.mem_append_right _ (mem_monitorIds hk)⟩
    refine ⟨((hu.trans hv).trans honly).mono (by simp) (by simp only [List.mem_append, List.mem_singleton]; rintro id ((rfl | rfl) | h); exacts [hin.1, hin.2, h]),
      fun m hm => ?_⟩
    obtain ⟨hoffset, hmonitor⟩ := hread m hm
    by_cases hmem : m ∈ l
    · rw [hoffset, hmonitor, if_pos hmem, if_pos hmem, if_pos (List.mem_cons_of_mem _ hmem), if_pos (List.mem_cons_of_mem _ hmem)]
      exact ⟨rfl, rfl⟩
    rw [hoffset, hmonitor, if_neg hmem, if_neg hmem]
    by_cases hmk : m = k
    · rw [if_pos (by simp [hmk]), if_pos (by simp [hmk]), hmk, hv.rdS (by simpa using monitor_ne_offset k k)]
      exact ⟨rdS_wrS hword' (by omega) (by omega) s, rdS_wrS hword (by omega) (by omega) u⟩
    · rw [if_neg (by simp [hmk, hmem]), if_neg (by simp [hmk, hmem])]
      exact ⟨(hu.trans hv).rdS (by simpa using ⟨fun h => hmk (monitorOffset_inj h), monitor_ne_offset m k⟩),
        (hu.trans hv).rdS (by simpa using ⟨(monitor_ne_offset k m).symm, fun h => hmk (monitor_inj h)⟩)⟩

/-- A device with a diode, and its monitors corrected to it. -/
def State.corrected (s : State) (diode : Int) (monitors : List Int) : State :=
  (List.range 16).foldl (State.monitorCorrected diode monitors) ({ s with therm := { s.therm with calibrated := true } }.wrS Th.DIODE diode)

theorem exec_thermalCalibration {s : State} (hwarm : s.pow.global = .warmup) (hcal : s.therm.calibrated = false) (diode : Int) (monitors : List Int) :
    exec (.thermalCalibration diode monitors) s = .next (
      let u := s.corrected diode monitors
      if u.pow.global ≠ .warmup then u else (u.wrS Th.JUNCTION u.estimate).thermalStep.warmupEnds) :=
  congrArg Host.Outcome.next (if_neg (by simp [hwarm, hcal]))

theorem offsetIds_apart : Th.DIODE ∉ offsetIds ∧ Th.MONITOR_VALID ∉ offsetIds ∧ Th.JUNCTION ∉ offsetIds ∧ (∀ id ∈ thresholdIds, id ∉ Th.DIODE :: Th.JUNCTION :: offsetIds) ∧
    (∀ id ∈ Th.DIODE :: Th.JUNCTION :: offsetIds, id ∉ stepIds ∧ id ∉ sendIds) := by decide

end Sys2Proof.Machine

/-! O54: samples and calibration govern state, shutdown and cap. -/

namespace Sys2Proof.Machine

/-- The time of a sample. -/
def State.sampleTimed (s : State) : State := { s.at (s.therm.lastSample + 100000) with therm := { s.therm with lastSample := max s.clock (s.therm.lastSample + 100000) } }

theorem sampleTimed_only (s : State) : OnlyChanges [.clock, .therm] [] s s.sampleTimed := (at_only s (s.therm.lastSample + 100000)).trans (setTherm_only ..)

/-- A sample of good sensors is read. -/
def State.sampled (s : State) (diode : Int) (monitors : List Int) (mw : Nat) : State := s.sampleTimed.readSensors diode false monitors mw

theorem sampleReads_eq (s : State) (diode : Int) (monitors : List Int) (mw : Nat) : s.sampleReads diode false monitors mw = s.sampled diode monitors mw := by
  unfold State.sampleReads State.sampled
  exact congrArg (fun u : State => u.readSensors diode false monitors mw) rfl

theorem exec_thermalSample_off {s : State} (h : s.pow.global = .off) (diode : Int) (fault : Bool) (monitors : List Int) (mw : Nat) :
    exec (.thermalSample diode fault monitors mw) s = .next s := congrArg Host.Outcome.next (if_pos h)

theorem exec_thermalSample {s : State} (h : s.pow.global ≠ .off) (diode : Int) (monitors : List Int) (mw : Nat) :
    exec (.thermalSample diode false monitors mw) s = .next (
      if (s.sampled diode monitors mw).pow.global = .thermalOff then s.sampled diode monitors mw else (s.sampled diode monitors mw).sampleActs) := by
  rw [← sampleReads_eq]
  exact congrArg Host.Outcome.next (if_neg h)

section
variable {s : State} {diode : Int} {monitors : List Int} (hrange : ∀ k < 17, -960 ≤ s.reading diode monitors k ∧ s.reading diode monitors k ≤ 2560) (mw : Nat)
include hrange

theorem sampled_spec :
    let u := s.sampled diode monitors mw
    OnlyChanges [.clock, .therm] readingIds s u ∧ u.clock = max s.clock (s.therm.lastSample + 100000) ∧ u.rd Th.POWER_NOW = mw % 2 ^ 32 ∧
      u.therm = { s.therm with lastSample := max s.clock (s.therm.lastSample + 100000) } ∧ (∀ k < 17, u.sensor k = s.reading diode monitors k) ∧
      (∀ k ∈ s.validSensors, s.reading diode monitors k ≤ u.rdS Th.JUNCTION) ∧
      (s.validSensors ≠ [] → ∃ k ∈ s.validSensors, s.reading diode monitors k = u.rdS Th.JUNCTION) := by
  intro u
  obtain ⟨honly, hpower, hsensors, hle, hsome⟩ := readSensors_spec s.sampleTimed (diode := diode) (monitors := monitors) hrange mw
  exact ⟨((sampleTimed_only s).trans honly).mono (by simp) (by simp), honly.clock (by simp), hpower, honly.2.1 .therm (by simp), hsensors, hle, hsome⟩

/-- The sensors that are hot are those whose readings are. -/
theorem sampled_hot {k : Nat} : k ∈ (s.sampled diode monitors mw).hotSensors ↔ k ∈ s.validSensors ∧ s.rdS Th.SHUTDOWN_THRESHOLD ≤ s.reading diode monitors k := by
  obtain ⟨honly, -, -, -, hsensors, -, -⟩ := sampled_spec hrange mw
  have hvalid : (s.sampled diode monitors mw).validSensors = s.validSensors := by
    unfold State.validSensors
    rw [honly.rd readingIds_apart.2.2.2.2.2.1]
  rw [State.hotSensors, hvalid, List.mem_filter, decide_eq_true_eq, honly.rdS (thresholdIds_apart _ (by simp [thresholdIds])).1]
  exact and_congr_right fun hk => by rw [hsensors k (validSensors_lt s k hk)]

/-- The readings stand, whatever follows from them. -/
theorem sampled_kept {t : State} (h : SampleFollows (s.sampled diode monitors mw) t) :
    t.rdS Th.DIODE = diode ∧ (∀ m < 16, t.rdS (Th.MONITOR m) = s.reading diode monitors m) ∧ t.rd Th.POWER_NOW = mw % 2 ^ 32 ∧
      t.clock = max s.clock (s.therm.lastSample + 100000) ∧ (∀ k ∈ s.validSensors, s.reading diode monitors k ≤ t.rdS Th.JUNCTION) ∧
      (s.validSensors ≠ [] → ∃ k ∈ s.validSensors, s.reading diode monitors k = t.rdS Th.JUNCTION) := by
  obtain ⟨-, hclock, hpower, -, hsensors, hle, hsome⟩ := sampled_spec hrange mw
  have hkept {id : Nat} (hid : id ∈ readingIds) : t.rd id = (s.sampled diode monitors mw).rd id := by
    obtain ⟨h1, h2, h3⟩ := readingIds_follow id hid
    exact h.2 id h1 h2 h3
  have hjunction : t.rdS Th.JUNCTION = (s.sampled diode monitors mw).rdS Th.JUNCTION := congrArg (toSigned 32) (hkept (by simp [readingIds]))
  rw [hjunction]
  refine ⟨?_, fun m hm => ?_, (hkept (by simp [readingIds])).trans hpower, h.1.trans hclock, hle, hsome⟩
  · have hdiode := hsensors 16 (by omega)
    exact (congrArg (toSigned 32) (hkept (by simp [readingIds]))).trans (hdiode.trans (if_pos rfl))
  · have hmonitor := hsensors m (by omega)
    rw [State.sensor, if_neg (by omega)] at hmonitor
    exact (congrArg (toSigned 32) (hkept (by simp [readingIds, mem_monitorIds hm]))).trans hmonitor

end

/-- What follows from a sample of a device that runs, where nothing is hot twice. -/
theorem sampleActs_runs {s u : State} (honly : OnlyChanges [.clock, .therm] readingIds s u) (hlast : u.therm.lastDown = s.therm.lastDown)
    (hcool : ∀ k ∈ u.hotSensors, bit u.therm.hotOnce k = false) (hruns : s.pow.global = .ready ∨ s.pow.global = .run) :
    let t := u.sampleActs
    let j := t.rdS Th.JUNCTION
    let hot := s.rdS Th.HOT_HYSTERESIS
    let old := s.rd Th.THERMAL_STATE
    let down := (s.therm.lastDown.map fun c => decide (c + 100000000 ≤ t.clock)).getD true
    t.pow.global = s.pow.global ∧ (s.rdS Th.THROTTLE_THRESHOLD ≤ j → t.rd Th.THERMAL_STATE = 5) ∧
      (old = 5 → s.rdS Th.THROTTLE_THRESHOLD - hot < j → t.rd Th.THERMAL_STATE = 5) ∧
      (old ≠ 5 → s.rdS Th.WARN_THRESHOLD ≤ j → j < s.rdS Th.THROTTLE_THRESHOLD → t.rd Th.THERMAL_STATE = 4) ∧
      (0 < hot → s.rdS Th.WARN_THRESHOLD ≤ s.rdS Th.THROTTLE_THRESHOLD → j ≤ s.rdS Th.WARN_THRESHOLD - hot → 0 ≤ s.rdS Th.COLD_HYSTERESIS →
        s.rdS Th.COLD_LIMIT ≤ s.rdS Th.COLD_WARNING → s.rdS Th.COLD_WARNING + s.rdS Th.COLD_HYSTERESIS ≤ j → t.rd Th.THERMAL_STATE = 3) ∧
      (t.rd Th.THERMAL_STATE = 5 → s.profile.floorCap < s.rd Tick.ACTIVE_CAP → down = true →
        t.rd Tick.ACTIVE_CAP = max s.profile.floorCap (s.rd Tick.ACTIVE_CAP - 5000) % 2 ^ 32 ∧
          t.rd Th.THROTTLE_STEPS = countUp (s.rd Th.THROTTLE_STEPS) 1 ∧ t.rd Th.THROTTLE_CAUSE = 1 ∧ (201, t.clock) ∈ t.firings) ∧
      (down = false → t.rd Tick.ACTIVE_CAP = s.rd Tick.ACTIVE_CAP) := by
  intro t j hot old down
  let v := u.hotKept
  have hv : OnlyChanges [.clock, .therm] readingIds s v := (honly.trans (setTherm_only u _)).mono (by simp) (by simp)
  have hvpow : v.pow = s.pow := hv.pow (by simp)
  have ht : t = v.sampleSteps := sampleActs_steps hcool
  obtain ⟨hglobal, hstate, hclock, hstays, hlowers⟩ := sampleSteps_runs (s := v) (by rwa [hvpow])
  have hjunction : v.rdS Th.JUNCTION = j := by
    obtain ⟨h1, h2, h3⟩ := readingIds_follow Th.JUNCTION (by simp [readingIds])
    exact congrArg (toSigned 32) ((sampleActs_follows u).2 _ h1 h2 h3).symm
  have hold : v.rd Th.THERMAL_STATE = old := hv.rd (by decide)
  have hthreshold {id : Nat} (hid : id ∈ thresholdIds) : v.rdS id = s.rdS id := hv.rdS (thresholdIds_apart id hid).1
  have hdown : v.downDue = down := by
    have hlast' : v.therm.lastDown = s.therm.lastDown := hlast
    unfold State.downDue
    rw [hlast', ← hclock, ← ht]
  have hcap : v.rd Tick.ACTIVE_CAP = s.rd Tick.ACTIVE_CAP := hv.rd (by decide)
  have hcount : v.rd Th.THROTTLE_STEPS = s.rd Th.THROTTLE_STEPS := hv.rd (by decide)
  have hprofile : v.profile = s.profile := profile_congr fun id hid => hv.rd (profileIds_apart id hid).1
  have hcases := thermalNext_cases v
  simp only [hjunction, hold, hthreshold (id := Th.THROTTLE_THRESHOLD) (by simp [thresholdIds]), hthreshold (id := Th.WARN_THRESHOLD) (by simp [thresholdIds]),
    hthreshold (id := Th.HOT_HYSTERESIS) (by simp [thresholdIds]), hthreshold (id := Th.COLD_LIMIT) (by simp [thresholdIds]),
    hthreshold (id := Th.COLD_WARNING) (by simp [thresholdIds]), hthreshold (id := Th.COLD_HYSTERESIS) (by simp [thresholdIds])] at hcases
  obtain ⟨hthrottle, hstays5, hwarn, hready⟩ := hcases
  rw [← ht] at hglobal hstate hstays hlowers
  rw [hdown, hcap] at hstays
  rw [hdown, hcap, hcount, hprofile] at hlowers
  rw [hstate]
  exact ⟨hglobal.trans (congrArg PowerSt.global hvpow), hthrottle, hstays5, hwarn, hready, hlowers, hstays⟩

/-- Calibration of a device that warms up. -/
theorem calibration_spec {s : State} {diode : Int} {monitors : List Int} (hwarm : s.pow.global = .warmup) (hcal : s.therm.calibrated = false)
    (hoff : ∀ m, m < 16 → (diode - monitors.getD m diode).natAbs ≤ 160) (hlo : -960 ≤ diode) (hhi : diode ≤ 2560) (hvalid : s.validSensors ≠ []) :
    ∃ u : State, exec (.thermalCalibration diode monitors) s = .next u.thermalStep.warmupEnds ∧ u.therm.calibrated = true ∧ u.rdS Th.DIODE = diode ∧
      u.rdS Th.JUNCTION = diode ∧ (∀ m < 16, u.rdS (Th.MONITOR_OFFSET m) = diode - monitors.getD m diode ∧ u.rdS (Th.MONITOR m) = diode) ∧
      OnlyChanges [.therm] (Th.DIODE :: Th.JUNCTION :: offsetIds) s u := by
  obtain ⟨hdiode, hvalid', hjunction, -, -⟩ := offsetIds_apart
  let a : State := { s with therm := { s.therm with calibrated := true } }
  let b := a.wrS Th.DIODE diode
  let c := s.corrected diode monitors
  let u := c.wrS Th.JUNCTION c.estimate
  have ha : OnlyChanges [.therm] [] s a := setTherm_only ..
  have hb : OnlyChanges [] [Th.DIODE] a b := wrS_only ..
  obtain ⟨hc, hread⟩ := monitorsCorrected hoff hlo hhi (l := List.range 16) (fun m hm => List.mem_range.1 hm) b
  have hu : OnlyChanges [] [Th.JUNCTION] c u := wrS_only ..
  have hcdiode : c.rdS Th.DIODE = diode := (hc.rdS hdiode).trans (rdS_wrS isWord_thermal.1 (by omega) (by omega) a)
  have hcread {m : Nat} (hm : m < 16) : c.rdS (Th.MONITOR_OFFSET m) = diode - monitors.getD m diode ∧ c.rdS (Th.MONITOR m) = diode := by
    obtain ⟨hoffset, hmonitor⟩ := hread m hm
    exact ⟨hoffset.trans (if_pos (List.mem_range.2 hm)), hmonitor.trans (if_pos (List.mem_range.2 hm))⟩
  have hvalidc : c.validSensors = s.validSensors := by
    have hrd : c.rd Th.MONITOR_VALID = s.rd Th.MONITOR_VALID := ((ha.trans hb).trans hc).rd fun hmem => by
      rcases List.mem_append.1 hmem with hmem | hmem
      · exact absurd hmem (by decide)
      · exact hvalid' hmem
    unfold State.validSensors
    rw [hrd]
  have hestimate : c.estimate = diode := by
    obtain ⟨k, hk, he⟩ := (estimate_spec c).2.1 (hvalidc ▸ hvalid)
    have hk' := validSensors_lt c k hk
    rw [← he]
    unfold State.sensor
    split
    · exact hcdiode
    · exact (hcread (by omega)).2
  have hwarmc : c.pow.global = .warmup := by
    have hpow : c.pow = s.pow := ((ha.trans hb).trans hc).pow (by simp)
    rw [hpow, hwarm]
  have hexec := exec_thermalCalibration hwarm hcal diode monitors
  refine ⟨u, hexec.trans (congrArg Host.Outcome.next (if_neg (not_not.2 hwarmc))), ?_, ?_, ?_, fun m hm => ?_,
    (((ha.trans hb).trans hc).trans hu).mono (by simp) (by simp; tauto)⟩
  · have htherm : u.therm = a.therm := ((hb.trans hc).trans hu).2.1 .therm (by simp)
    rw [htherm]
  · exact (hu.rdS (by decide)).trans hcdiode
  · rw [← hestimate]
    exact rdS_wrS isWord_thermal.2.1 (by omega) (by omega) c
  · have hne : Th.MONITOR_OFFSET m ∉ [Th.JUNCTION] ∧ Th.MONITOR m ∉ [Th.JUNCTION] := by
      unfold Th.MONITOR_OFFSET Th.MONITOR Th.JUNCTION
      simp only [List.mem_singleton]
      omega
    rw [hu.rdS hne.1, hu.rdS hne.2]
    exact hcread hm

/-- Settles O54: the estimate is the largest of the readings, and what follows from it moves none of them. -/
theorem samplesGovernTheHeat : Obligations.SamplesGovernTheHeat := by
  unfold Obligations.SamplesGovernTheHeat
  refine ⟨fun diode monitors mw s => ?_, fun diode monitors s hwarm hcal hoff hlo hhi hvalid => ?_⟩
  · intro reading hrange
    refine ⟨fun hoff => ⟨s, exec_thermalSample_off hoff .., rfl⟩, fun hon => ?_⟩
    let u := s.sampled diode monitors mw
    have hexec := exec_thermalSample hon diode monitors mw
    obtain ⟨honly, -, -, htherm, -, -, -⟩ := sampled_spec hrange mw
    have hpow : u.pow = s.pow := honly.pow (by simp)
    let t := if u.pow.global = .thermalOff then u else u.sampleActs
    have hfollows : SampleFollows u t := by
      unfold t
      split
      · exact .of (.refl u) (by simp) (by simp)
      · exact sampleActs_follows u
    obtain ⟨hdiode, hmonitors, hpower, hclock, hle, hsome⟩ := sampled_kept hrange mw hfollows
    have hacts (h : s.pow.global ≠ .thermalOff) : t = u.sampleActs := if_neg (by rwa [hpow])
    refine ⟨t, hexec, hdiode, hmonitors, hpower, hclock, hle, hsome, fun hoff => ?_, fun hhot hnot => ?_, fun hcool hruns => ?_⟩
    · have ht : t = u := if_pos (by rwa [hpow])
      rw [ht]
      exact honly
    · obtain ⟨k, hk, hbit, hge⟩ := hhot
      have hbit' : bit u.therm.hotOnce k = true := by rw [htherm]; exact hbit
      obtain ⟨j, hj⟩ := sampleActs_shuts (s := u) ⟨k, (sampled_hot hrange mw).2 ⟨hk, hge⟩, hbit'⟩
      obtain ⟨hglobal, hshdn, hstopped, hcount, hpin, hmedia, hjobs, -, -⟩ := thermalShutdown_spec u 1 j
      rw [hacts hnot, hj]
      exact ⟨hglobal, hshdn, hstopped, hcount.trans (by rw [honly.rd (by decide)]), hpin, hmedia, hjobs⟩
    · have hnot : s.pow.global ≠ .thermalOff := by rcases hruns with h | h <;> simp [h]
      rw [hacts hnot]
      refine sampleActs_runs honly (congrArg ThermSt.lastDown htherm :) (fun k hk => ?_) hruns
      obtain ⟨hk', hge⟩ := (sampled_hot hrange mw).1 hk
      have hbit : bit u.therm.hotOnce k = bit s.therm.hotOnce k := (congrArg (fun x : ThermSt => bit x.hotOnce k) htherm :)
      exact hbit.trans ((hcool k hk').resolve_right fun h => absurd hge (not_le.2 h))
  · obtain ⟨u, hexec, hcalibrated, hdiode, hjunction, hmonitors, honly⟩ := calibration_spec hwarm hcal hoff hlo hhi hvalid
    obtain ⟨hstate, ⟨_, _, htherm⟩, -, hcold, -, hrd⟩ := thermalStep_spec u
    have hends := warmupEnds_only u.thermalStep
    have hkept {id : Nat} (hid : id ∈ Th.DIODE :: Th.JUNCTION :: offsetIds) : u.thermalStep.warmupEnds.rdS id = u.rdS id := by
      obtain ⟨hstep, hsend⟩ := offsetIds_apart.2.2.2.2 id hid
      exact (hends.rdS hsend).trans (congrArg (toSigned 32) (hrd id hstep))
    refine ⟨_, hexec, ?_, ?_, ?_, fun m hm => ?_, fun hlimit hhot hcoldh hwarn hthrottle => ?_⟩
    · have htherm' : u.thermalStep.warmupEnds.therm = u.thermalStep.therm := hends.2.1 .therm (by simp [sending])
      rw [htherm', htherm]
      exact hcalibrated
    · rw [hkept (by simp), hdiode]
    · rw [hkept (by simp), hjunction]
    · have hmem : Th.MONITOR_OFFSET m ∈ offsetIds := List.mem_append_left _ (List.mem_map_of_mem (List.mem_range.2 hm))
      have hmem' : Th.MONITOR m ∈ offsetIds := List.mem_append_right _ (mem_monitorIds hm)
      rw [hkept (by simp [hmem]), hkept (by simp [hmem'])]
      exact hmonitors m hm
    · have hthreshold {id : Nat} (hid : id ∈ thresholdIds) : u.rdS id = s.rdS id := honly.rdS (offsetIds_apart.2.2.2.1 id hid)
      have hwarm' : u.pow.global = .warmup := by
        have hpow : u.pow = s.pow := honly.pow (by simp)
        rw [hpow, hwarm]
      have hnext : u.thermalNext = 0 := by
        unfold State.thermalNext
        simp only [hjunction, hwarm', hthreshold (id := Th.THROTTLE_THRESHOLD) (by simp [thresholdIds]),
          hthreshold (id := Th.WARN_THRESHOLD) (by simp [thresholdIds]), hthreshold (id := Th.HOT_HYSTERESIS) (by simp [thresholdIds]),
          hthreshold (id := Th.COLD_LIMIT) (by simp [thresholdIds])]
        rw [if_neg (by omega), if_neg (by omega), if_neg (by omega), if_neg (by omega), if_pos hlimit, if_pos trivial]
      obtain ⟨hheating, hpow⟩ := hcold hwarm' hnext
      have hstepped {id : Nat} (hid : id ∈ thresholdIds) : u.thermalStep.rdS id = s.rdS id :=
        (congrArg (toSigned 32) (hrd id (thresholdIds_apart id hid).2)).trans (hthreshold hid)
      have hstepj : u.thermalStep.rdS Th.JUNCTION = diode := (congrArg (toSigned 32) (hrd _ (offsetIds_apart.2.2.2.2 _ (by simp)).1)).trans hjunction
      have hstays : u.thermalStep.warmupEnds = u.thermalStep := warmupEnds_stays <| .inr <| by
        rw [hstepj, hstepped (id := Th.COLD_LIMIT) (by simp [thresholdIds]), hstepped (id := Th.COLD_HYSTERESIS) (by simp [thresholdIds])]
        omega
      rw [hstays, hpow]
      exact ⟨hstate.trans hnext, hheating, hwarm'⟩

end Sys2Proof.Machine

/-! O55: steps up of the cap (R470, R59, R471), and the Life Meter (R472, R473). -/

namespace Sys2Proof.Machine

/-! ## Steps up (R470, R471) -/

/-- A step up that is due. -/
def State.upDecided (s : State) : State := { s with therm := { s.therm with upPending := true, okSince := none } }

theorem exec_capStepUp {s : State} {c : Nat} (hsince : s.therm.okSince = some c) (hpending : s.therm.upPending = false) (hlimits : s.withinLimits = true)
    (hcap : s.rd Tick.ACTIVE_CAP < s.profile.cap) (hdecides : s.capDecides = true) :
    exec .capStepUp s = .next (if s.tick.running then (s.at (c + 1000000000)).upDecided.readmit else (s.at (c + 1000000000)).stepUpNow) := by
  show execCapStepUp s = _
  unfold execCapStepUp
  rw [hsince]
  exact congrArg Host.Outcome.next (if_pos (by simp [hdecides, hpending, hcap, hlimits]))

/-- The step up is no longer pending, and the next second begins. -/
def State.upBegun (s : State) : State := { s with therm := { s.therm with upPending := false, okSince := some s.clock, floorHeld := false, floorNotified := false } }

theorem stepUpNow_eq (s : State) : s.stepUpNow =
    ((s.upBegun.wr Tick.ACTIVE_CAP (min s.profile.cap (s.rd Tick.ACTIVE_CAP + 5000))).applyClock.count Th.RESTORE_STEPS).thermNotify 2 1 0xFF
      (min s.profile.cap (s.rd Tick.ACTIVE_CAP + 5000)) := rfl

theorem stepUpNow_spec (s : State) :
    let t := s.stepUpNow
    t.rd Th.RESTORE_STEPS = countUp (s.rd Th.RESTORE_STEPS) 1 ∧ t.rd Tick.ACTIVE_CAP = min s.profile.cap (s.rd Tick.ACTIVE_CAP + 5000) % 2 ^ 32 ∧
      t.therm.okSince = some s.clock ∧ OnlyChanges (.therm :: .pow :: sending) (Th.RESTORE_STEPS :: Tick.ACTIVE_CAP :: sendIds) s t := by
  intro t
  let new := min s.profile.cap (s.rd Tick.ACTIVE_CAP + 5000)
  let u := s.upBegun.wr Tick.ACTIVE_CAP new
  let v := u.applyClock
  let w := v.count Th.RESTORE_STEPS
  have hbegun : OnlyChanges [.therm] [] s s.upBegun := setTherm_only ..
  have hu : OnlyChanges [] [Tick.ACTIVE_CAP] s.upBegun u := wr_only ..
  have hv : OnlyChanges [.pow, .out] [] u v := applyClock_only u
  have hw : OnlyChanges [] [Th.RESTORE_STEPS] v w := count_only ..
  have hnotify : OnlyChanges sending sendIds w t := thermNotify_only ..
  refine ⟨?_, ?_, ?_, ((((hbegun.trans hu).trans hv).trans hw).trans hnotify).mono (by simp [sending]) (by simp +contextual)⟩
  · rw [hnotify.rd (by decide), ← ((hbegun.trans hu).trans hv).rd (id := Th.RESTORE_STEPS) (by decide)]
    exact rd_count_counter (by decide) v
  · rw [((hv.trans hw).trans hnotify).rd (by decide)]
    exact rd_wr_isWord isWord_thermal.2.2.2.2.1 ..
  · have htherm : t.therm = s.upBegun.therm := (((hu.trans hv).trans hw).trans hnotify).2.1 .therm (by simp [sending])
    rw [htherm]
    rfl

/-! ## The Life Meter (R472, R473) -/

theorem isCounter_life : isCounter Th.LIFE_WEIGHTED = true ∧ isCounter Th.LIFE_POWERED = true ∧ isWord Th.LIFE_USED = true ∧ isWord Th.LIFE_RATE = true := by
  decide

theorem roundDiv_le (n d : Nat) : roundDiv n d ≤ n / d + 1 := by
  unfold roundDiv
  dsimp only
  split
  · exact Nat.zero_le _
  · split
    · exact Nat.le_succ _
    · split
      · exact le_rfl
      · split
        · exact Nat.le_succ _
        · exact le_rfl

/-- A sample adds 20 × 40 hundredths of a weighted time at most. -/
theorem lifeAmount_le (s : State) (e : Int) : s.lifeTenths * bandTenths e ≤ 800 := by
  have htenths : s.lifeTenths ≤ 20 := by
    unfold State.lifeTenths
    dsimp only
    repeat' split
    all_goals omega
  have hband : bandTenths e ≤ 40 := by
    unfold bandTenths
    repeat' split
    all_goals omega
  exact Nat.mul_le_mul htenths hband

/-- The parameters of the Life Meter. -/
def lifeIds : List Nat := Th.LIFE_WEIGHTED :: Th.LIFE_POWERED :: Th.LIFE_USED :: (List.range 5).map Th.PROFILE_SECONDS

theorem lifeParams_spec (s : State) :
    s.lifeParams.rd Th.LIFE_WEIGHTED = s.weightedMs % 2 ^ 64 ∧ s.lifeParams.rd Th.LIFE_POWERED = s.poweredMs / 1000 % 2 ^ 64 ∧
      s.lifeParams.rd Th.LIFE_USED = lifeUsed s.weightedMs ∧ OnlyChanges [] lifeIds s s.lifeParams := by
  obtain ⟨hweighted, hpowered, hused, -⟩ := isCounter_life
  let a := s.wr Th.LIFE_WEIGHTED s.weightedMs
  let b := a.wr Th.LIFE_POWERED (s.poweredMs / 1000)
  let c := b.wr Th.LIFE_USED (lifeUsed s.weightedMs)
  have ha : OnlyChanges [] [Th.LIFE_WEIGHTED] s a := wr_only ..
  have hb : OnlyChanges [] [Th.LIFE_POWERED] a b := wr_only ..
  have hc : OnlyChanges [] [Th.LIFE_USED] b c := wr_only ..
  have hseconds : OnlyChanges [] ((List.range 5).map Th.PROFILE_SECONDS) c s.lifeParams := by
    have hrest : s.lifeParams = c.wrAll ((List.range 5).map fun p => (Th.PROFILE_SECONDS p, s.profileMs p / 1000)) := by
      have hfirst : s.wrAll [(Th.LIFE_WEIGHTED, s.weightedMs), (Th.LIFE_POWERED, s.poweredMs / 1000), (Th.LIFE_USED, lifeUsed s.weightedMs)] = c := by
        rw [State.wrAll, List.foldl_cons, List.foldl_cons, List.foldl_cons, List.foldl_nil]
      rw [State.lifeParams, hfirst]
    rw [hrest]
    exact (wrAll_only c _).mono (by simp) (by simp)
  have hlast : lifeUsed s.weightedMs < 2 ^ 32 := by
    unfold lifeUsed
    omega
  refine ⟨?_, ?_, ?_, (((ha.trans hb).trans hc).trans hseconds).mono (by simp) (by simp [lifeIds])⟩
  · rw [((hb.trans hc).trans hseconds).rd (by decide)]
    exact rd_wr_counter hweighted ..
  · rw [(hc.trans hseconds).rd (by decide)]
    exact rd_wr_counter hpowered ..
  · rw [hseconds.rd (by decide)]
    exact rd_wr_word hused hlast b

/-- A notice of the Life Meter is due. -/
def State.lifeWarned (s : State) : State :=
  if s.negorAnswers && !s.therm.warnSent && decide (s.rd Th.LIFE_WARN ≤ s.rd Th.LIFE_USED) then
    ({ s with therm := { s.therm with warnSent := true } }).thermNotify 5 0 0xFF (s.rd Tick.ACTIVE_CAP) else s

/-- The notice that the life is used up is due. -/
def State.lifeEnded (s : State) (speaks : Bool) (used : Nat) : State :=
  if speaks && !s.therm.fullSent && decide (1000 ≤ used) then
    ({ s with therm := { s.therm with fullSent := true } }).thermNotify 5 1 0xFF (s.rd Tick.ACTIVE_CAP) else s

/-- Only notices of the Life Meter have been sent. -/
def LifeNotified (s t : State) : Prop :=
  OnlyChanges (.therm :: sending) sendIds s t ∧ ∃ warned full, t.therm = { s.therm with warnSent := warned, fullSent := full }

theorem LifeNotified.refl (s : State) : LifeNotified s s := ⟨.nothing s, _, _, rfl⟩

theorem LifeNotified.trans {s t u : State} (h : LifeNotified s t) (g : LifeNotified t u) : LifeNotified s u := by
  obtain ⟨h, _, _, htherm⟩ := h
  obtain ⟨g, _, _, gtherm⟩ := g
  exact ⟨(h.trans g).mono (by simp +contextual [or_imp]) (by simp), _, _, gtherm.trans (by rw [htherm])⟩

theorem lifeNotice_notified {s u : State} (hu : OnlyChanges [.therm] [] s u) {warned full : Bool} (h : u.therm = { s.therm with warnSent := warned, fullSent := full })
    (code value sensor cap : Nat) : LifeNotified s (u.thermNotify code value sensor cap) := by
  have hnotify := thermNotify_only u code value sensor cap
  exact ⟨(hu.trans hnotify).mono (by simp) (by simp), warned, full, (hnotify.2.1 .therm (by simp [sending])).trans h⟩

theorem lifeNotices_notified (s : State) : LifeNotified s s.lifeNotices := by
  have hwarned : LifeNotified s s.lifeWarned := by
    unfold State.lifeWarned
    split
    · exact lifeNotice_notified (setTherm_only s _) rfl ..
    · exact .refl s
  have hended : LifeNotified s.lifeWarned (s.lifeWarned.lifeEnded s.negorAnswers (s.rd Th.LIFE_USED)) := by
    unfold State.lifeEnded
    split
    · exact lifeNotice_notified (setTherm_only s.lifeWarned _) rfl ..
    · exact .refl _
  exact hwarned.trans hended

/-- A sample of the Life Meter adds to the amounts that no record holds yet. -/
def State.lifeAdded (s : State) : State :=
  { s.at (s.therm.lastLife + 100000000) with
    therm := { s.therm with
      lastLife := max s.clock (s.therm.lastLife + 100000000)
      pendWeighted := s.therm.pendWeighted + s.lifeTenths * bandTenths (s.rdS Th.JUNCTION)
      pendPowered := s.therm.pendPowered + 100
      pendProfile := if s.pow.global == .ready || s.pow.global == .run then
          tset s.therm.pendProfile (s.rd Tick.PROFILE) 0 (tget s.therm.pendProfile (s.rd Tick.PROFILE) 0 + 100) else s.therm.pendProfile
      maxJunction := max s.therm.maxJunction (s.rdS Th.JUNCTION)
      minJunction := min s.therm.minJunction (s.rdS Th.JUNCTION) } }

theorem exec_lifeMeterSample {s : State} (h : s.pow.global ≠ .off) : exec .lifeMeterSample s =
    .next (s.lifeAdded.lifeParams.wr Th.LIFE_RATE (roundDiv (s.lifeTenths * bandTenths (s.rdS Th.JUNCTION) * 65536) 100)).lifeNotices :=
  congrArg Host.Outcome.next (if_neg h)

/-- Settles O55: a step up is applied at once or waits for re-admission, and a sample adds its amounts before the parameters show them. -/
theorem capsStepUpAndLifeAddsUp : Obligations.CapsStepUpAndLifeAddsUp := by
  unfold Obligations.CapsStepUpAndLifeAddsUp
  refine ⟨fun c s hsince hpending hlimits hcap hglobal => ?_, fun s hon => ?_⟩
  · have hdecides : s.capDecides = true := by
      unfold State.capDecides
      rcases hglobal with h | h | h | h <;> rw [h] <;> rfl
    have hat : OnlyChanges [.clock] [] s (s.at (c + 1000000000)) := at_only ..
    have hexec := exec_capStepUp hsince hpending hlimits hcap hdecides
    by_cases hruns : s.tick.running = true
    · rw [if_pos hruns] at hexec
      let u := (s.at (c + 1000000000)).upDecided
      have hu : OnlyChanges [.therm] [] (s.at (c + 1000000000)) u := setTherm_only ..
      have hreadmit : u.readmit = { u with tick := { u.tick with readmitting := true, readmitted := false } } := if_pos hruns
      have honly := readmit_only u
      refine ⟨_, hexec, honly.clock (by simp), fun h => by simp [hruns] at h, fun _ => ⟨?_, ?_, ?_, (hat.trans hu).trans honly⟩⟩
      · show u.readmit.therm.upPending = true
        rw [hreadmit]
        rfl
      · exact congrArg (fun t : State => t.tick.readmitting) hreadmit
      · exact congrArg (fun t : State => t.tick.readmitted) hreadmit
    · rw [if_neg hruns] at hexec
      obtain ⟨hsteps, hcap', hsince', honly⟩ := stepUpNow_spec (s.at (c + 1000000000))
      have hclock : (s.at (c + 1000000000)).stepUpNow.clock = max s.clock (c + 1000000000) := honly.clock (by simp [sending])
      exact ⟨_, hexec, hclock, fun _ => ⟨hsteps, hcap', hsince'.trans (congrArg some hclock.symm), (hat.trans honly).mono (by simp) (by simp)⟩, fun h => absurd h hruns⟩
  · intro amount
    obtain ⟨-, -, -, hrate⟩ := isCounter_life
    let u := s.lifeAdded
    let v := u.lifeParams
    let w := v.wr Th.LIFE_RATE (roundDiv (amount * 65536) 100)
    let t := w.lifeNotices
    have hu : OnlyChanges [.clock, .therm] [] s u := (at_only s (s.therm.lastLife + 100000000)).trans (setTherm_only ..)
    obtain ⟨hweighted, hpowered, hused, hv⟩ := lifeParams_spec u
    have hw : OnlyChanges [] [Th.LIFE_RATE] v w := wr_only ..
    obtain ⟨ht, warned, full, htherm⟩ := lifeNotices_notified w
    have hsame : w.therm = u.therm := (hv.trans hw).2.1 .therm (by simp)
    have htherm' : t.therm = { u.therm with warnSent := warned, fullSent := full } := htherm.trans (by rw [hsame])
    have hfields : t.weightedMs = u.weightedMs ∧ t.poweredMs = u.poweredMs ∧ (∀ p, t.profileMs p = u.profileMs p) ∧ t.therm.lastLife = u.therm.lastLife := by
      unfold State.weightedMs State.poweredMs State.profileMs
      rw [htherm']
      exact ⟨rfl, rfl, fun _ => rfl, rfl⟩
    obtain ⟨hweightedMs, hpoweredMs, hprofileMs, hlast⟩ := hfields
    have hclock : t.clock = max s.clock (s.therm.lastLife + 100000000) := ((hv.trans hw).trans ht).clock (by simp [sending])
    have hkept := hw.trans ht
    have hamount : amount ≤ 800 := lifeAmount_le ..
    refine ⟨t, exec_lifeMeterSample hon, hclock, hlast.trans hclock.symm, hweightedMs.trans (Nat.add_assoc ..).symm, hpoweredMs.trans (Nat.add_assoc ..).symm, ?_, ?_,
      ?_, ?_, fun hruns => ?_, ?_⟩
    · rw [hweightedMs, hkept.rd (by decide), hweighted]
    · rw [hpoweredMs, hkept.rd (by decide), hpowered]
    · rw [hweightedMs, hkept.rd (by decide), hused]
    · rw [ht.rd (by decide)]
      have hle := roundDiv_le (amount * 65536) 100
      exact rd_wr_word hrate (by omega) v
    · have hcond : (s.pow.global == .ready || s.pow.global == .run) = true := by rcases hruns with h | h <;> rw [h] <;> rfl
      have hadded : u.therm.pendProfile = tset s.therm.pendProfile (s.rd Tick.PROFILE) 0 (tget s.therm.pendProfile (s.rd Tick.PROFILE) 0 + 100) := if_pos hcond
      rw [hprofileMs]
      unfold State.profileMs
      rw [hadded, tget_tset_same]
      exact (Nat.add_assoc ..).symm
    · exact (((hu.trans hv).trans hw).trans ht).mono (by simp) fun id hid => by
        simp only [lifeIds, List.mem_append, List.mem_cons, List.not_mem_nil, or_false] at hid ⊢
        tauto

end Sys2Proof.Machine

/-! What entering BOOT leaves, and O10 (R476, R477). -/

namespace Sys2Proof.Machine

/-! ## Entering BOOT (R476) -/

theorem flushLedger_spec (s : State) : s.flushLedger.pow.ledgerQueue = [] ∧ OnlyChanges [.pow, .therm] [Obs.LEDGER_WRITES] s s.flushLedger := by
  have hfold : OnlyChanges [.pow, .therm] [Obs.LEDGER_WRITES] s (s.pow.ledgerQueue.foldl (fun (t : State) w => t.ledgerCommit w) s) :=
    OnlyChanges.foldl _ (.nothing s) fun t w _ => (ledgerCommit_spec t w).2.2
  exact ⟨rfl, (hfold.trans (setPow_only ..)).mono (by simp) (by simp)⟩

/-- BOOT begins in internal reset with no session and no write that waits. -/
theorem enterBoot_resets (s : State) (cause : Nat) :
    let t := s.enterBoot cause
    t.pow.global = .boot ∧ t.pow.phase = .inReset ∧ t.pow.ledgerQueue = [] ∧ t.nmp.sessions = [] ∧ t.clock = s.clock ∧
      t.rd Sys.LAST_RESTART_CAUSE = cause % 2 ^ 32 := by
  intro t
  let u := s.bootReset.wr Sys.LAST_RESTART_CAUSE cause
  have hu : OnlyChanges [] [Sys.LAST_RESTART_CAUSE] s.bootReset u := wr_only ..
  have ht : OnlyChanges [.pow, .out, .obs] traceIds u t := setGlobal_boot_only u
  have hpow : t.pow = { s.bootReset.pow with global := .boot } := (setGlobal_boot_pow u).trans (by rw [hu.pow (by simp)])
  rw [hpow]
  refine ⟨rfl, rfl, rfl, (hu.trans ht).2.1 .sessions (by simp), (hu.trans ht).clock (by simp), ?_⟩
  rw [ht.rd (by decide)]
  exact rd_wr_isWord (by decide) ..

/-! ## DEVICE_RESTART (R477) -/

/-- Negor takes DEVICE_RESTART in every state in which it answers. -/
theorem gate_deviceRestart (s : State) : s.gate 0x04 = Status.OK := by
  unfold State.gate
  split
  · exact if_pos (by decide)
  · exact if_neg fun h => absurd h.2 (by decide)

/-- The restart of a device is due. -/
def State.restartSet (s : State) : State := { s with pow := { s.pow with restartDue := some (s.clock + 10000000) } }

theorem exec_deviceRestart {r : Req} {s : State} (h : s.takes r 0x04) :
    exec (.deviceRestart r) s = .next (if s.owns r.sess 0 = false then (s.heard r).reply r 0x04 Status.NOT_OWNER []
      else ((s.heard r).reply r 0x04 Status.OK []).restartSet) := by
  show execDeviceRestart r s = _
  rw [execDeviceRestart, request_of_takes _ h, heard_owns]
  rfl

theorem exec_deviceRestartDelayEnd {s : State} {due : Nat} (h : s.pow.restartDue = some due) (hexecutes : s.negorExecutes = true) :
    exec .deviceRestartDelayEnd s = .next ((s.at due).flushLedger.enterBoot 2) := by
  show execDeviceRestartDelayEnd s = _
  unfold execDeviceRestartDelayEnd
  rw [h]
  exact congrArg Host.Outcome.next (if_pos hexecutes)

/-- Settles O10: the reply leaves, and what waits in the Ledger is written before BOOT resets the rest. -/
theorem deviceRestartTakesTenMilliseconds : Obligations.DeviceRestartTakesTenMilliseconds := by
  unfold Obligations.DeviceRestartTakesTenMilliseconds
  intro r s hanswers hsession hturn
  have htakes : s.takes r 0x04 := ⟨hanswers, hsession, hturn, gate_deviceRestart s⟩
  have hexec := exec_deviceRestart htakes
  refine ⟨fun howns => ?_, fun howns => ?_, fun due hdue hexecutes => ?_⟩
  · rw [if_neg (by simp [howns])] at hexec
    let u := (s.heard r).reply r 0x04 Status.OK []
    have hu : OnlyChanges [.out, .free, .sessions] txIds s u := heardReply_only ..
    have hclock : u.clock = s.clock := hu.clock (by simp)
    have hpow : u.pow = s.pow := hu.pow (by simp)
    refine ⟨u.restartSet, hexec, replied_reply .., ?_, (congrArg PowerSt.global hpow :), (hu.trans (setPow_only u _)).mono (by simp) (by simp)⟩
    exact congrArg (fun clock => some (clock + 10000000)) hclock
  · rw [if_pos howns] at hexec
    exact ⟨_, hexec, replied_reply .., (heardReply_only ..).pow (by simp)⟩
  · obtain ⟨-, hflush⟩ := flushLedger_spec (s.at due)
    obtain ⟨hglobal, -, hqueue, hsessions, hclock, hcause⟩ := enterBoot_resets (s.at due).flushLedger 2
    exact ⟨_, exec_deviceRestartDelayEnd hdue hexecutes, hglobal, hclock.trans (hflush.clock (by simp)), hcause, hsessions, hqueue⟩

end Sys2Proof.Machine

/-! O6: a power loss takes the device to OFF (R497, R500); O4: the state after reset (R476). -/

namespace Sys2Proof.Machine

/-! ## The state after reset -/

theorem memRead_reset (a : Nat) : memRead State.reset.nmp.mem a = memBlank := rfl

theorem rd_reset (id : Nat) : State.reset.rd id = resetValue id := rfl

/-- Settles O4: no parameter is listed off its reset value, and no byte is written. -/
theorem resetIsSoundAndHoldsTheTables : Obligations.ResetIsSoundAndHoldsTheTables := by
  unfold Obligations.ResetIsSoundAndHoldsTheTables
  have hregs : RegsWf State.reset.regs := ⟨List.Pairwise.nil, fun e he => absurd he List.not_mem_nil⟩
  have hmem : Memory.wf State.reset.nmp.mem := by decide
  refine ⟨⟨hregs, hmem⟩, rfl, rfl, rfl, rfl, memRead_reset, rd_reset, ?_⟩
  decide

/-! ## Power loss (R497, R500) -/

/-- Writes that no flush covers are lost or made (R379). -/
theorem losePower_only (s : State) : ∃ ids, OnlyChanges [.media, .free] ids s s.losePower := by
  unfold State.losePower
  induction s.tgt.volatile with
  | nil => exact ⟨[], .nothing s⟩
  | cons v l ih =>
    obtain ⟨ids, hids⟩ := ih
    rw [List.foldr_cons]
    let u := l.foldr (fun (v : Nat × Nat × List Byte) (t : State) => if Config.openBool t.draw.1 then t.draw.2.setWrite v.2.1 v.2.2 else t.draw.2) s
    have hdraw : OnlyChanges [.free] [] u u.draw.2 := draw_only u
    have hwrite := (setWrite_written u.draw.2 v.2.1 v.2.2).1
    show ∃ ids, OnlyChanges _ ids s (if Config.openBool u.draw.1 then u.draw.2.setWrite v.2.1 v.2.2 else u.draw.2)
    split
    · exact ⟨_, ((hids.trans hdraw).trans hwrite).mono (by simp) fun _ h => h⟩
    · exact ⟨_, (hids.trans hdraw).mono (by simp) fun _ h => h⟩

/-- The Ledger write in progress is lost or not. -/
def State.ledgerLost (s : State) : State := if Config.openBool s.draw.1 then s.draw.2.finishLedger else s.draw.2

theorem exec_powerLoss {s : State} {ns : Nat} (hlong : 1000 ≤ ns) (hon : s.pow.global ≠ .off) :
    exec (.powerLoss ns) s = .next (s.ledgerLost.losePower.bootReset.clearAon.setGlobal .off) :=
  congrArg Host.Outcome.next (if_neg (by simp [hon]; omega))

theorem ledgerLost_only (s : State) : OnlyChanges [.free, .pow, .therm] [Obs.LEDGER_WRITES] s s.ledgerLost := by
  unfold State.ledgerLost
  split
  · exact (draw_only s).trans (finishLedger_only ..)
  · exact (draw_only s).mono (by simp) (by simp)

theorem setGlobal_off (s : State) : s.setGlobal .off = { s with pow := { s.pow with global := .off } } := by
  by_cases h : s.pow.global = .off
  · have heq : s.setGlobal .off = s := if_pos h
    rw [heq, ← h]
  · exact (if_neg h).trans (if_pos (.inr rfl))

/-- What BOOT and the loss of the AON domain leave of the parameters. -/
theorem rd_clearAon_bootReset (s : State) {id : Nat} (hid : id ∉ keptOverBoot) : s.bootReset.clearAon.rd id = resetValue id := by
  have hbool : keptOverBoot.contains id = false := by simpa using hid
  have hnone : tfind s.bootReset.clearAon.regs id = none := by
    show tfind ((s.regs.filter fun p => keptOverBoot.contains p.1).filter fun p => p.1 != Sys.CONTROL_RESTARTS) id = none
    rw [List.filter_filter]
    exact tfind_filter_none (f := fun j => j != Sys.CONTROL_RESTARTS && keptOverBoot.contains j) (by rw [hbool, Bool.and_false])
  unfold State.rd
  rw [hnone]

/-- Settles O6: what the Ledger and the media lose or keep touches neither the queue nor the clock, and the reset leaves the rest. -/
theorem powerLossTakesTheDeviceToOff : Obligations.PowerLossTakesTheDeviceToOff := by
  unfold Obligations.PowerLossTakesTheDeviceToOff
  intro ns s
  refine ⟨fun hshort => congrArg Host.Outcome.next (if_pos (.inl hshort)), fun hlong hon => ?_⟩
  obtain ⟨ids, hlost⟩ := losePower_only s.ledgerLost
  have honly := (ledgerLost_only s).trans hlost
  have hexec := exec_powerLoss hlong hon
  rw [setGlobal_off] at hexec
  exact ⟨_, hexec, rfl, honly.1, honly.clock (by simp), rfl, fun _ => rfl, fun id hid => rd_clearAon_bootReset s.ledgerLost.losePower hid⟩

end Sys2Proof.Machine

/-! Images, their selection and their start (R480 to R483). -/

namespace Sys2Proof.Machine

/-! ## The power unit of what happens -/

/-- A change of the global state is nothing else to the power unit. -/
theorem setGlobal_pow (s : State) (g : GState) : (s.setGlobal g).pow = { s.pow with global := g } := by
  unfold State.setGlobal
  split
  · next h => rw [← h]
  · dsimp only
    split
    · rfl
    · split
      · rw [(trace_only ..).pow (by simp)]
      · rw [(notify_only ..).pow (by simp [sending]), (trace_only ..).pow (by simp)]

/-- The clock set of the cap changes no state of the power unit. -/
theorem applyClock_pow (s : State) : s.applyClock.pow.global = s.pow.global ∧ s.applyClock.pow.phase = s.pow.phase ∧
    s.applyClock.pow.confirmed = s.pow.confirmed ∧ s.applyClock.pow.confirmDue = s.pow.confirmDue ∧ s.applyClock.pow.headers = s.pow.headers := by
  unfold State.applyClock
  dsimp only
  split
  · exact ⟨rfl, rfl, rfl, rfl, rfl⟩
  · rw [(pin_only ..).pow (by simp)]
    exact ⟨rfl, rfl, rfl, rfl, rfl⟩

theorem ethTo_only (s : State) (p st : Nat) : OnlyChanges (.eth p :: .firings :: sending) (Eth.LINK_STATE p :: sendIds) s (s.ethTo p st) := by
  unfold State.ethTo
  split
  · exact .nothing s
  · dsimp only
    exact ((((wr_only ..).trans (setEth_only ..)).trans (linkNotify_only ..)).trans (fire_only ..)).mono (by simp [sending]) (by simp)

theorem ethStart_only (s : State) : OnlyChanges (.eth 0 :: .eth 1 :: .firings :: sending) (Eth.LINK_STATE 0 :: Eth.LINK_STATE 1 :: sendIds) s s.ethStart := by
  refine OnlyChanges.foldl _ (.nothing s) fun t p hp => ?_
  have hport : p = 0 ∨ p = 1 := by simpa using hp
  split
  · refine (ethTo_only t p 1).mono (fun q hq => ?_) fun id hid => ?_
    · rcases hport with rfl | rfl <;> simp at hq ⊢ <;> tauto
    · rcases hport with rfl | rfl <;> simp at hid ⊢ <;> tauto
  · exact .nothing t

/-! ## The selection (R482, R483) -/

/-- The parameters that the selection goes by. -/
def choiceIds : List Nat := Obs.SLOT_STATUS 1 :: Obs.SLOT_STATUS 2 :: Obs.SLOT_STATUS 3 :: Obs.BOOT_FAILS 2 :: [Obs.BOOT_FAILS 3]

theorem bootChoice_congr {s t : State} (hheaders : t.pow.headers = s.pow.headers) (hids : ∀ id ∈ choiceIds, t.rd id = s.rd id) : t.bootChoice = s.bootChoice := by
  have hheader (k : Nat) : t.slotHeader k = s.slotHeader k := congrArg (tget · k []) hheaders
  have hrd {id : Nat} (hid : id ∈ choiceIds) : t.rd id = s.rd id := hids id hid
  have hbootable : t.bootable 2 = s.bootable 2 ∧ t.bootable 3 = s.bootable 3 := by
    unfold State.bootable
    rw [hheader, hheader, hrd (id := Obs.SLOT_STATUS 2) (by simp [choiceIds]), hrd (id := Obs.SLOT_STATUS 3) (by simp [choiceIds]),
      hrd (id := Obs.BOOT_FAILS 2) (by simp [choiceIds]), hrd (id := Obs.BOOT_FAILS 3) (by simp [choiceIds])]
    exact ⟨rfl, rfl⟩
  unfold State.bootChoice
  rw [hbootable.1, hbootable.2, hheader, hheader, hheader, hrd (id := Obs.SLOT_STATUS 1) (by simp [choiceIds])]

/-- The boot ROM begins to read the image that it selects, or finds none. -/
theorem selectImage_spec (s : State) :
    s.selectImage.pow.headers = s.pow.headers ∧ s.selectImage.pow.global = s.pow.global ∧ s.selectImage.bootChoice = s.bootChoice ∧
      (s.bootChoice = 0 → s.selectImage.pow.phase = .noImage) ∧ ∀ k, s.bootChoice = k + 1 → s.selectImage.pow.phase = .verifying (k + 1) := by
  have hchoice (hheaders : s.selectImage.pow.headers = s.pow.headers) : s.selectImage.bootChoice = s.bootChoice :=
    bootChoice_congr hheaders fun id hid => (selectImage_only s).rd ((by decide : ∀ id ∈ choiceIds, id ∉ traceIds) id hid)
  cases h : s.bootChoice with
  | zero =>
    let u : State := { s with pow := { s.pow with phase := .noImage, confirmDue := s.clock } }
    have heq : s.selectImage = u.traceNoImage := by
      unfold State.selectImage
      split
      · rfl
      · next hne => exact absurd h hne
    have hpow : s.selectImage.pow = u.pow := by rw [heq]; exact (bootTrace_only ..).pow (by simp)
    have hheaders : s.selectImage.pow.headers = s.pow.headers := by rw [hpow]
    exact ⟨hheaders, by rw [hpow], (hchoice hheaders).trans h, fun _ => by rw [hpow], fun k hk => by simp at hk⟩
  | succ n =>
    let u : State := { s with pow := { s.pow with phase := .verifying (n + 1) } }
    have heq : s.selectImage = u.traceHeader (n + 1) := by
      unfold State.selectImage
      split
      · next hzero => simp [h] at hzero
      · rw [h]
    have hpow : s.selectImage.pow = u.pow := by rw [heq]; exact (traceHeader_only ..).pow (by simp)
    have hheaders : s.selectImage.pow.headers = s.pow.headers := by rw [hpow]
    refine ⟨hheaders, by rw [hpow], (hchoice hheaders).trans h, fun hzero => by simp at hzero, fun k hk => ?_⟩
    rw [hpow, ← hk]

/-! ## A verified image (R480) -/

/-- The header of a slot has been read. -/
def State.headerRead (s : State) (slot status : Nat) (h : List Byte) : State :=
  State.slotParams { s with pow := { s.pow with headers := tins s.pow.headers slot h } } slot status h

theorem exec_bootImageVerified {s : State} {slot : Nat} (hboot : s.pow.global = .boot) (hphase : s.pow.phase = .verifying slot) (h body : List Byte) :
    exec (.bootImageVerified h body) s = .next (
      let status := imageStatus slot (s.rd Obs.SEC_VERSION_FLOOR) h body
      let u := s.headerRead slot status h
      if status = 0 then u.negorStarts slot h else if status = 6 then (u.bootTrace slot 6 true).selectImage else (u.traceHeader slot).selectImage) := by
  show execBootImageVerified h body s = _
  unfold execBootImageVerified
  rw [hboot, hphase]
  rfl

theorem imageStatus_le (slot floor : Nat) (h body : List Byte) : imageStatus slot floor h body ≤ 6 := by
  have hheader : headerStatus h ≤ 4 := by
    unfold headerStatus
    repeat' split
    all_goals omega
  have hslot : slotHeaderStatus slot floor h ≤ 5 := by
    unfold slotHeaderStatus
    repeat' split
    all_goals omega
  unfold imageStatus
  repeat' split
  all_goals omega

theorem isWord_slots : ∀ slot : Fin 3, isWord (Obs.SLOT_STATUS (slot + 1)) = true ∧ isWord (Obs.BOOT_FAILS (slot + 1)) = true := by decide

theorem headerRead_spec (s : State) {slot status : Nat} (hlo : 1 ≤ slot) (hhi : slot ≤ 3) (hstatus : status ≤ 6) (h : List Byte) :
    let u := s.headerRead slot status h
    u.rd (Obs.SLOT_STATUS slot) = status ∧ u.slotHeader slot = h ∧ u.pow.global = s.pow.global ∧
      OnlyChanges [.pow] [Obs.SLOT_GENERATION slot, Obs.SLOT_SEC_VERSION slot, Obs.SLOT_STATUS slot] s u := by
  intro u
  let a : State := { s with pow := { s.pow with headers := tins s.pow.headers slot h } }
  have ha : OnlyChanges [.pow] [] s a := setPow_only ..
  have hu : OnlyChanges [] [Obs.SLOT_GENERATION slot, Obs.SLOT_SEC_VERSION slot, Obs.SLOT_STATUS slot] a u := wrAll_only ..
  have hpow : u.pow = a.pow := hu.pow (by simp)
  refine ⟨?_, ?_, (congrArg PowerSt.global hpow :), ha.trans hu⟩
  · have hword := (isWord_slots ⟨slot - 1, by omega⟩).1
    rw [show slot - 1 + 1 = slot by omega] at hword
    exact rd_wr_word hword (by omega) _
  · have hheaders : u.pow.headers = tins s.pow.headers slot h := (congrArg PowerSt.headers hpow :)
    unfold State.slotHeader
    rw [hheaders]
    exact congrArg (Option.getD · []) (tfind_tins_same ..)

end Sys2Proof.Machine

/-! O9: an image starts, confirms or fails its boot (R480 to R483). -/

namespace Sys2Proof.Machine

/-! ## Negor's start (R483) -/

/-- The image that starts has been chosen. -/
def State.imageChosen (s : State) (slot : Nat) (h : List Byte) : State :=
  ((s.bootTrace slot 6 false).bootTrace slot 7 false).wrAll [(Obs.BOOT_SLOT, slot), (Sys.INTERFACE_LEVEL, imgLevel h), (Sys.NEGOR_BUILD, imgBuild h)]

/-- The start is not confirmed yet. -/
def State.startBegun (s : State) : State :=
  { s with pow := { s.pow with phase := .started, confirmed := false, confirmDue := s.clock + 500000000 } }

theorem negorStarts_eq (s : State) (slot : Nat) (h : List Byte) :
    s.negorStarts slot h = ((((s.imageChosen slot h).startBegun.count Sys.CONTROL_RESTARTS).setGlobal .warmup).applyClock).ethStart := by
  unfold State.negorStarts State.imageChosen State.startBegun
  rfl

theorem imageChosen_spec (s : State) {slot : Nat} (hslot : slot ≤ 3) (h : List Byte) :
    (s.imageChosen slot h).rd Obs.BOOT_SLOT = slot ∧
      OnlyChanges [.out, .obs] ([Obs.BOOT_SLOT, Sys.INTERFACE_LEVEL, Sys.NEGOR_BUILD] ++ traceIds) s (s.imageChosen slot h) := by
  let a := (s.bootTrace slot 6 false).bootTrace slot 7 false
  let b := a.wr Obs.BOOT_SLOT slot
  let c := b.wr Sys.INTERFACE_LEVEL (imgLevel h)
  have hchosen : s.imageChosen slot h = c.wr Sys.NEGOR_BUILD (imgBuild h) := by
    unfold State.imageChosen State.wrAll
    rw [List.foldl_cons, List.foldl_cons, List.foldl_cons, List.foldl_nil]
  have ha : OnlyChanges [.out, .obs] traceIds s a := ((bootTrace_only ..).trans (bootTrace_only ..)).mono (by simp) (by simp)
  have hb : OnlyChanges [] [Obs.BOOT_SLOT] a b := wr_only ..
  have hc : OnlyChanges [] [Sys.INTERFACE_LEVEL, Sys.NEGOR_BUILD] b (c.wr Sys.NEGOR_BUILD (imgBuild h)) := (wr_only ..).trans (wr_only ..)
  rw [hchosen]
  refine ⟨?_, ((ha.trans hb).trans hc).mono (by simp) fun id hid => ?_⟩
  · rw [hc.rd (by decide)]
    exact rd_wr_word (by decide) (by omega) a
  · simp only [List.mem_append, List.mem_cons, List.not_mem_nil, or_false] at hid ⊢
    tauto

/-- The parameters that a start of Negor writes, beside those of what it sends. -/
def startIds : List Nat := [Obs.BOOT_SLOT, Sys.INTERFACE_LEVEL, Sys.NEGOR_BUILD, Sys.CONTROL_RESTARTS, Eth.LINK_STATE 0, Eth.LINK_STATE 1]

theorem negorStarts_spec (s : State) {slot : Nat} (hslot : slot ≤ 3) (h : List Byte) :
    let t := s.negorStarts slot h
    t.pow.global = .warmup ∧ t.pow.phase = .started ∧ t.pow.confirmed = false ∧ t.pow.confirmDue = s.clock + 500000000 ∧ t.pow.headers = s.pow.headers ∧
      t.rd Obs.BOOT_SLOT = slot ∧ t.rd Sys.CONTROL_RESTARTS = countUp (s.rd Sys.CONTROL_RESTARTS) 1 ∧ ∀ id, id ∉ startIds → id ∉ sendIds → t.rd id = s.rd id := by
  intro t
  let b := s.imageChosen slot h
  let c := b.startBegun
  let d := c.count Sys.CONTROL_RESTARTS
  let e := d.setGlobal .warmup
  obtain ⟨hchosen, hb⟩ := imageChosen_spec s hslot h
  have hc : OnlyChanges [.pow] [] b c := setPow_only ..
  have hd : OnlyChanges [] [Sys.CONTROL_RESTARTS] c d := count_only ..
  have he : OnlyChanges (.pow :: sending) sendIds d e := setGlobal_only ..
  have hf : OnlyChanges [.pow, .out] [] e e.applyClock := applyClock_only e
  have ht : OnlyChanges (.eth 0 :: .eth 1 :: .firings :: sending) (Eth.LINK_STATE 0 :: Eth.LINK_STATE 1 :: sendIds) e.applyClock t := by
    rw [show t = e.applyClock.ethStart from negorStarts_eq ..]
    exact ethStart_only _
  have hpow : t.pow = e.applyClock.pow := ht.pow (by simp [sending])
  have hepow : e.pow = { c.pow with global := .warmup } := (setGlobal_pow d .warmup).trans (by rw [hd.pow (by simp)])
  have hbpow : b.pow = s.pow := hb.pow (by simp)
  have hbclock : b.clock = s.clock := hb.clock (by simp)
  obtain ⟨hglobal, hphase, hconfirmed, hdue, hheaders⟩ := applyClock_pow e
  have hafter := (he.trans hf).trans ht
  rw [hpow, hglobal, hphase, hconfirmed, hdue, hheaders, hepow]
  refine ⟨rfl, rfl, rfl, congrArg (· + 500000000) hbclock, (congrArg PowerSt.headers hbpow :), ?_, ?_, fun id hid hsend => ?_⟩
  · rw [((hc.trans hd).trans hafter).rd (by decide)]
    exact hchosen
  · rw [hafter.rd (by decide), ← (hb.trans hc).rd (id := Sys.CONTROL_RESTARTS) (by decide)]
    exact rd_count_counter (by decide) c
  · have hall := (((hb.trans hc).trans hd).trans hafter).mono (js := startIds ++ sendIds) (fun _ hp => hp) (by decide)
    exact hall.rd fun hmem => (List.mem_append.1 hmem).elim hid hsend

theorem slotStatus_apart : ∀ slot : Fin 3, Obs.SLOT_STATUS (slot + 1) ∉ startIds ∧ Obs.SLOT_STATUS (slot + 1) ∉ sendIds := by decide

/-- The image that the boot ROM has read starts, or another is selected. -/
theorem bootImageVerified_spec {s : State} {slot : Nat} (hboot : s.pow.global = .boot) (hphase : s.pow.phase = .verifying slot) (hlo : 1 ≤ slot) (hhi : slot ≤ 3)
    (h body : List Byte) :
    ∃ t, exec (.bootImageVerified h body) s = .next t ∧ t.rd (Obs.SLOT_STATUS slot) = imageStatus slot (s.rd Obs.SEC_VERSION_FLOOR) h body ∧ t.slotHeader slot = h ∧
      (imageStatus slot (s.rd Obs.SEC_VERSION_FLOOR) h body = 0 →
        t.pow.global = .warmup ∧ t.pow.phase = .started ∧ t.pow.confirmed = false ∧ t.pow.confirmDue = s.clock + 500000000 ∧
          t.rd Obs.BOOT_SLOT = slot ∧ t.rd Sys.CONTROL_RESTARTS = countUp (s.rd Sys.CONTROL_RESTARTS) 1) ∧
      (imageStatus slot (s.rd Obs.SEC_VERSION_FLOOR) h body ≠ 0 →
        t.pow.global = .boot ∧ (t.bootChoice = 0 → t.pow.phase = .noImage) ∧ ∀ k, t.bootChoice = k + 1 → t.pow.phase = .verifying (k + 1)) := by
  let status := imageStatus slot (s.rd Obs.SEC_VERSION_FLOOR) h body
  let u := s.headerRead slot status h
  have hexec := exec_bootImageVerified hboot hphase h body
  obtain ⟨hstatus, hheader, hglobal, hu⟩ := headerRead_spec s hlo hhi (imageStatus_le slot (s.rd Obs.SEC_VERSION_FLOOR) h body) h
  have hslot := slotStatus_apart ⟨slot - 1, by omega⟩
  rw [show slot - 1 + 1 = slot by omega] at hslot
  by_cases hvalid : status = 0
  · obtain ⟨hwarm, hstarted, hconfirmed, hdue, hheaders, hboots, hcount, hkept⟩ := negorStarts_spec u hhi h
    have hapart : (∀ k : Fin 3, Sys.CONTROL_RESTARTS ∉ [Obs.SLOT_GENERATION (k + 1), Obs.SLOT_SEC_VERSION (k + 1), Obs.SLOT_STATUS (k + 1)]) := by decide
    have hrestarts := hapart ⟨slot - 1, by omega⟩
    rw [show slot - 1 + 1 = slot by omega] at hrestarts
    refine ⟨u.negorStarts slot h, hexec.trans (congrArg Host.Outcome.next (if_pos hvalid)), (hkept _ hslot.1 hslot.2).trans hstatus,
      (congrArg (tget · slot []) hheaders).trans hheader, fun _ => ⟨hwarm, hstarted, hconfirmed, ?_, hboots, ?_⟩, fun hne => absurd hvalid hne⟩
    · rw [hdue, hu.clock (by simp)]
    · rw [hcount, hu.rd hrestarts]
  · let v := if status = 6 then u.bootTrace slot 6 true else u.traceHeader slot
    have hv : OnlyChanges [.out, .obs] traceIds u v := by
      unfold v
      split
      · exact bootTrace_only ..
      · exact traceHeader_only ..
    have hvpow : v.pow = u.pow := hv.pow (by simp)
    obtain ⟨hheaders, hstays, hchoice, hnone, hsome⟩ := selectImage_spec v
    have htraced : Obs.SLOT_STATUS slot ∉ traceIds := fun hmem => hslot.2 ((by decide : ∀ id ∈ traceIds, id ∈ sendIds) _ hmem)
    refine ⟨v.selectImage, hexec.trans (congrArg Host.Outcome.next ((if_neg hvalid).trans ?_)), ?_, ?_, fun hzero => absurd hzero hvalid, fun _ => ⟨?_, ?_, ?_⟩⟩
    · exact (apply_ite State.selectImage ..).symm
    · rw [(selectImage_only v).rd htraced, hv.rd htraced]
      exact hstatus
    · have hsame : v.selectImage.pow.headers = u.pow.headers := hheaders.trans (congrArg PowerSt.headers hvpow)
      exact (congrArg (tget · slot []) hsame).trans hheader
    · rw [hstays, hvpow]
      exact hglobal.trans hboot
    · rw [hchoice]
      exact hnone
    · rw [hchoice]
      exact hsome

end Sys2Proof.Machine

/-! O9: the confirmation of a start, and its failure (R481, R483). -/

namespace Sys2Proof.Machine

/-! ## Records of the boot ROM (R483) -/

/-- A record for a destination counts there where it is dropped. -/
theorem traceTo_dropped (s : State) (d type source : Nat) (payload : List Byte) :
    OnlyChanges [.out, .obs] [Obs.TRACE_DROPPED d] s (s.traceTo d type source payload) := by
  have hdrain : OnlyChanges [.out, .obs] [] s (if d = 0 then s.drainPort else s) := by
    split
    · exact drainPort_only s
    · exact .nothing s
  unfold State.traceTo
  split
  · dsimp only
    generalize (if d = 0 then s.drainPort else s) = u at hdrain
    split
    · exact ((hdrain.trans (setDest_only u d _)).trans (count_only ..)).mono (by simp) (by simp)
    · exact (hdrain.trans (setDest_only u d _)).mono (by simp) (by simp)
  · exact .nothing s

theorem trace_counts (s : State) (type source : Nat) (payload : List Byte) :
    (s.trace type source payload).rd Obs.TRACE_RECORDS = countUp (s.rd Obs.TRACE_RECORDS) 1 := by
  have hdropped : ∀ d, Obs.TRACE_RECORDS ∉ [Obs.TRACE_DROPPED d] := by
    intro d
    unfold Obs.TRACE_RECORDS Obs.TRACE_DROPPED
    simp only [List.mem_singleton]
    omega
  have hkept := List.foldlRecOn (motive := fun u : State => u.rd Obs.TRACE_RECORDS = (s.count Obs.TRACE_RECORDS).rd Obs.TRACE_RECORDS) (List.range 5)
    (fun (t : State) d => t.traceTo d type source payload) rfl fun u hu d _ => ((traceTo_dropped u d type source payload).rd (hdropped d)).trans hu
  exact hkept.trans (rd_count_counter (by decide) s)

theorem traceNoImage_counts (s : State) : s.traceNoImage.rd Obs.TRACE_RECORDS = countUp (s.rd Obs.TRACE_RECORDS) 1 := by
  unfold State.traceNoImage State.bootTrace
  exact trace_counts ..

/-- The time of the next record of the boot ROM. -/
def State.bootRecordDue (s : State) : State :=
  { s.at (s.pow.confirmDue + 1000000000) with pow := { s.pow with confirmDue := max s.clock (s.pow.confirmDue + 1000000000) } }

theorem exec_goldenInvalidBootRecord {s : State} (hboot : s.pow.global = .boot) (hphase : s.pow.phase = .noImage) :
    exec .goldenInvalidBootRecord s = .next s.bootRecordDue.traceNoImage := congrArg Host.Outcome.next (if_pos ⟨hboot, hphase⟩)

/-! ## The confirmation (R481, R483) -/

theorem ledgerPut_spec (s : State) (lo hi : Nat) (b : List Byte) :
    (s.ledgerPut lo hi b).pow.confirmed = s.pow.confirmed ∧
      ∃ ch, OnlyChanges [.pow, .tick] [Obs.LEDGER_WRITES, Dram.CHANNEL_STATE ch] s (s.ledgerPut lo hi b) := by
  unfold State.ledgerPut
  split
  · let u : State := { s with pow := { s.pow with ledgerQueue := s.pow.ledgerQueue ++ [(lo, hi, b)] } }
    obtain ⟨ch, -, -, honly⟩ := maintChoose_spec (u.asked 3 0)
    have hasked := (asked_only u 3 0).trans honly
    exact ⟨(congrArg PowerSt.confirmed (hasked.pow (by simp)) :), ch, ((setPow_only s _).trans hasked).mono (by simp) (by simp)⟩
  · refine ⟨?_, 0, (ledgerWrite_spec s lo hi b).2.2.mono (by simp) (by simp)⟩
    exact (congrArg PowerSt.confirmed ((count_only _ Obs.LEDGER_WRITES).pow (by simp)) :)

theorem belowFloor_only (s : State) : OnlyChanges [] [Obs.SLOT_STATUS 2, Obs.SLOT_STATUS 3] s s.belowFloor := by
  refine OnlyChanges.foldl _ (.nothing s) fun t k hk => ?_
  split
  · exact (wr_only ..).mono (by simp) (by simp at hk ⊢; rcases hk with rfl | rfl <;> simp)
  · exact .nothing t

theorem afterShutdown_only (s : State) :
    OnlyChanges [.pow, .therm, .blob Th.SHUTDOWN_RECORD] lifeIds s s.afterShutdown ∧ s.afterShutdown.pow.confirmed = s.pow.confirmed := by
  unfold State.afterShutdown
  split
  · exact ⟨.nothing s, rfl⟩
  · next b hb =>
    have hblob : OnlyChanges [.blob Th.SHUTDOWN_RECORD] [] s (s.wrBlob Th.SHUTDOWN_RECORD b) := wrBlob_only ..
    dsimp only
    split
    · let u : State := { s.wrBlob Th.SHUTDOWN_RECORD b with
        pow := { s.pow with afterThermalOff := false }
        therm := { s.therm with pendWeighted := s.therm.pendWeighted + leAt b 34 4, pendPowered := s.therm.pendPowered + leAt b 30 4 } }
      have hu : OnlyChanges [.pow, .therm] [] (s.wrBlob Th.SHUTDOWN_RECORD b) u :=
        ((setPowTimeTherm_only (s.wrBlob Th.SHUTDOWN_RECORD b) u.pow s.time u.therm).mono (qs := [.time, .pow, .therm]) (by simp) fun _ h => h).drop rfl
      have hlife := (lifeParams_spec u).2.2.2
      refine ⟨((hblob.trans hu).trans hlife).mono (by simp) (by simp), ?_⟩
      exact (congrArg PowerSt.confirmed (hlife.pow (by simp)) :)
    · exact ⟨hblob.mono (by simp) (by simp), rfl⟩

/-- The parameters that a confirmed start writes. -/
def confirmIds (ch : Nat) : List Nat :=
  [Obs.LEDGER_WRITES, Dram.CHANNEL_STATE ch, Obs.SLOT_STATUS 2, Obs.SLOT_STATUS 3, Obs.BOOT_TIME_NMP] ++ lifeIds

theorem confirmIds_apart (ch k : Nat) : Obs.SEC_VERSION_FLOOR ∉ confirmIds ch ∧ Obs.BOOT_FAILS k ∉ confirmIds ch ∧ Obs.BOOT_FAILS k ≠ Obs.SEC_VERSION_FLOOR := by
  have hnumbers : (confirmIds ch).map (· % 0x10000) = [0x35, 0x31, 0x13, 0x13, 0x17, 0x20, 0x21, 0x23, 0x24, 0x24, 0x24, 0x24, 0x24] := by
    simp only [confirmIds, lifeIds, List.map_append, List.map_cons, List.map_nil, show Dram.CHANNEL_STATE ch % 0x10000 = 0x31 from Nat.add_mul_mod_self_right ..]
    rfl
  have hfails : Obs.BOOT_FAILS k % 0x10000 = 0x14 := Nat.add_mul_mod_self_right ..
  refine ⟨fun hmem => ?_, fun hmem => ?_, fun he => ?_⟩
  · have hmem' := List.mem_map_of_mem (f := (· % 0x10000)) hmem
    rw [hnumbers] at hmem'
    exact absurd hmem' (by decide)
  · have hmem' := List.mem_map_of_mem (f := (· % 0x10000)) hmem
    rw [hnumbers, hfails] at hmem'
    exact absurd hmem' (by decide)
  · rw [he] at hfails
    exact absurd hfails (by decide)

/-- The floor that a confirmed start leaves. -/
def State.raisedFloor (s : State) : Nat :=
  if s.rd Obs.BOOT_SLOT ≠ 1 ∧ s.rd Obs.SEC_VERSION_FLOOR < s.rd (Obs.SLOT_SEC_VERSION (s.rd Obs.BOOT_SLOT)) then s.rd (Obs.SLOT_SEC_VERSION (s.rd Obs.BOOT_SLOT))
  else s.rd Obs.SEC_VERSION_FLOOR

/-- The floor is raised, and the failures of the slot are none. -/
def State.bootCleared (s : State) : State := (s.wr Obs.SEC_VERSION_FLOOR s.raisedFloor).wr (Obs.BOOT_FAILS (s.rd Obs.BOOT_SLOT)) 0

theorem confirmSlot_eq (s : State) : s.confirmSlot =
    if s.raisedFloor = s.rd Obs.SEC_VERSION_FLOOR ∧ s.rd (Obs.BOOT_FAILS (s.rd Obs.BOOT_SLOT)) = 0 then s
    else (s.bootCleared.ledgerPut 4 5 s.bootCleared.bootRecord).belowFloor := by
  have hstore : s.bootStore [(Obs.SEC_VERSION_FLOOR, s.raisedFloor), (Obs.BOOT_FAILS (s.rd Obs.BOOT_SLOT), 0)] = s.bootCleared.ledgerPut 4 5 s.bootCleared.bootRecord := by
    unfold State.bootStore State.wrAll
    rw [List.foldl_cons, List.foldl_cons, List.foldl_nil]
    rfl
  rw [← hstore]
  rfl

theorem confirmSlot_spec (s : State) {k : Nat} (hslot : s.rd Obs.BOOT_SLOT = k) (hlo : 1 ≤ k) (hhi : k ≤ 3) (hsec : s.rd (Obs.SLOT_SEC_VERSION k) < 2 ^ 32)
    (hfloor : s.rd Obs.SEC_VERSION_FLOOR < 2 ^ 32) :
    let t := s.confirmSlot
    t.rd (Obs.BOOT_FAILS k) = 0 ∧ t.rd Obs.SEC_VERSION_FLOOR = s.raisedFloor ∧ t.pow.confirmed = s.pow.confirmed := by
  intro t
  obtain ⟨-, -, hne⟩ := confirmIds_apart 0 k
  by_cases hsame : s.raisedFloor = s.rd Obs.SEC_VERSION_FLOOR ∧ s.rd (Obs.BOOT_FAILS (s.rd Obs.BOOT_SLOT)) = 0
  · have ht : t = s := (confirmSlot_eq s).trans (if_pos hsame)
    obtain ⟨hfloor', hfails⟩ := hsame
    rw [ht, hfloor', ← hslot]
    exact ⟨hfails, rfl, rfl⟩
  · let a := s.wr Obs.SEC_VERSION_FLOOR s.raisedFloor
    let b := s.bootCleared
    have ht : t = (b.ledgerPut 4 5 b.bootRecord).belowFloor := (confirmSlot_eq s).trans (if_neg hsame)
    have ha : OnlyChanges [] [Obs.SEC_VERSION_FLOOR] s a := wr_only ..
    have hb : OnlyChanges [] [Obs.BOOT_FAILS k] a b := hslot ▸ wr_only ..
    obtain ⟨hconfirmed, ch, hput⟩ := ledgerPut_spec b 4 5 b.bootRecord
    have hbelow := belowFloor_only (b.ledgerPut 4 5 b.bootRecord)
    obtain ⟨hfloorIn, hfailsIn, -⟩ := confirmIds_apart ch k
    have hafter := (hput.trans hbelow).mono (fun _ hp => hp) (js := confirmIds ch) (by simp [confirmIds])
    have hword := (isWord_slots ⟨k - 1, by omega⟩).2
    rw [show k - 1 + 1 = k by omega] at hword
    have hraised : s.raisedFloor < 2 ^ 32 := by
      unfold State.raisedFloor
      rw [hslot]
      split <;> assumption
    rw [ht]
    refine ⟨?_, ?_, ?_⟩
    · rw [hafter.rd hfailsIn]
      show (a.wr (Obs.BOOT_FAILS (s.rd Obs.BOOT_SLOT)) 0).rd _ = 0
      rw [hslot]
      exact rd_wr_word hword (by omega) a
    · rw [hafter.rd hfloorIn, hb.rd (by simpa using hne.symm)]
      exact rd_wr_word (by decide) hraised s
    · have hpow : t.pow = (b.ledgerPut 4 5 b.bootRecord).pow := by rw [ht]; exact hbelow.pow (by simp)
      rw [← ht, hpow, hconfirmed]
      exact congrArg PowerSt.confirmed ((ha.trans hb).pow (by simp))

theorem raisedFloor_eq {s : State} {k : Nat} (hslot : s.rd Obs.BOOT_SLOT = k) :
    s.raisedFloor = if k ≠ 1 then max (s.rd Obs.SEC_VERSION_FLOOR) (s.rd (Obs.SLOT_SEC_VERSION k)) else s.rd Obs.SEC_VERSION_FLOOR := by
  unfold State.raisedFloor
  rw [hslot]
  by_cases hone : k = 1
  · simp [hone]
  · simp only [ne_eq, hone, not_false_eq_true, true_and, if_true]
    split <;> omega

/-- A start is confirmed. -/
def State.startConfirmed (s : State) : State := { s with pow := { s.pow with confirmed := true } }

theorem exec_negorStartConfirm {s : State} (hexecutes : s.negorExecutes = true) (hconfirmed : s.pow.confirmed = false) (hrestarting : s.pow.restarting = false) :
    exec .negorStartConfirm s = .next s.startConfirmed.confirmSlot.afterShutdown.noteNmp := by
  refine congrArg Host.Outcome.next ((if_neg (by simp [hexecutes])).trans ((if_neg (by simp [hrestarting])).trans (if_neg (by simp [hconfirmed]))))

/-! ## A start that is not confirmed (R483) -/

/-- The failure of the running slot is stored. -/
def State.startFailed (s : State) : State := (s.at s.pow.confirmDue).bootFailure (s.rd Obs.BOOT_SLOT)

theorem startFailed_clock (s : State) : s.startFailed.clock = max s.clock s.pow.confirmDue := by
  let u := (s.at s.pow.confirmDue).wrAll [(Obs.BOOT_FAILS (s.rd Obs.BOOT_SLOT), min 3 ((s.at s.pow.confirmDue).rd (Obs.BOOT_FAILS (s.rd Obs.BOOT_SLOT)) + 1))]
  obtain ⟨-, ch, hput⟩ := ledgerPut_spec u 4 5 u.bootRecord
  exact (hput.clock (by simp)).trans ((wrAll_only ..).clock (by simp))

theorem exec_bootConfirmTimeout {s : State} (hexecutes : s.negorExecutes = true) (hconfirmed : s.pow.confirmed = false) (hrestarting : s.pow.restarting = false) :
    exec .bootConfirmTimeout s = .next (s.startFailed.flushLedger.enterBoot (s.rd Sys.LAST_RESTART_CAUSE)) :=
  congrArg Host.Outcome.next (if_pos (by simp [hexecutes, hconfirmed, hrestarting]))

/-- Settles O9: what the boot ROM reads decides between a start and the next selection, and a start is confirmed or fails. -/
theorem imagesBootConfirmOrFail : Obligations.ImagesBootConfirmOrFail := by
  unfold Obligations.ImagesBootConfirmOrFail
  refine ⟨fun h body slot s hboot hphase hlo hhi => ?_, fun s hboot hphase => ?_, fun s k hexecutes hconfirmed hrestarting hslot hlo hhi hsec hfloor => ?_,
    fun s hexecutes hconfirmed hrestarting => ?_⟩
  · obtain ⟨t, hexec, hstatus, hheader, hstarts, hselects⟩ := bootImageVerified_spec hboot hphase hlo hhi h body
    refine ⟨t, hexec, hstatus, hheader, ?_⟩
    split
    · next hvalid => exact hstarts hvalid
    · next hinvalid =>
      obtain ⟨hglobal, hnone, hsome⟩ := hselects hinvalid
      refine ⟨hglobal, ?_⟩
      split
      · next hzero => exact hnone hzero
      · next hne =>
        obtain ⟨m, hm⟩ := Nat.exists_eq_succ_of_ne_zero hne
        rw [hsome m hm, hm]
  · let u := s.bootRecordDue
    have hu : OnlyChanges [.clock, .pow] [] s u := (at_only s (s.pow.confirmDue + 1000000000)).trans (setPow_only ..)
    have htrace : OnlyChanges [.out, .obs] traceIds u u.traceNoImage := bootTrace_only ..
    have hpow : u.traceNoImage.pow = u.pow := htrace.pow (by simp)
    have hclock : u.traceNoImage.clock = u.clock := htrace.clock (by simp)
    refine ⟨_, exec_goldenInvalidBootRecord hboot hphase, ?_, ?_, hclock, ?_, traceNoImage_counts u, (hu.trans htrace).mono (by simp) (by simp)⟩
    · rw [hpow]
      exact hboot
    · rw [hpow]
      exact hphase
    · rw [hpow, hclock]
      rfl
  · let u := s.startConfirmed
    obtain ⟨hfails, hraised, hstays⟩ := confirmSlot_spec u hslot hlo hhi hsec hfloor
    obtain ⟨hafter, hkept⟩ := afterShutdown_only u.confirmSlot
    have hnote := noteNmp_only u.confirmSlot.afterShutdown
    obtain ⟨hfloorIn, hfailsIn, -⟩ := confirmIds_apart 0 k
    have hlater := (hafter.trans hnote).mono (fun _ hp => hp) (js := confirmIds 0) (by decide)
    have hfloor' : u.confirmSlot.afterShutdown.noteNmp.rd Obs.SEC_VERSION_FLOOR = _ := (hlater.rd hfloorIn).trans (hraised.trans (raisedFloor_eq (s := u) hslot))
    refine ⟨_, exec_negorStartConfirm hexecutes hconfirmed hrestarting, ?_, (hlater.rd hfailsIn).trans hfails, hfloor', ?_⟩
    · rw [hnote.pow (by simp), hkept, hstays]
      rfl
    · rw [hfloor']
      split
      · exact le_max_left ..
      · exact le_rfl
  · obtain ⟨-, hflush⟩ := flushLedger_spec s.startFailed
    obtain ⟨hglobal, hphase, hqueue, hsessions, hclock, hcause⟩ := enterBoot_resets s.startFailed.flushLedger (s.rd Sys.LAST_RESTART_CAUSE)
    exact ⟨_, exec_bootConfirmTimeout hexecutes hconfirmed hrestarting, hglobal, hphase, hclock.trans ((hflush.clock (by simp)).trans (startFailed_clock s)),
      hsessions, hqueue, hcause⟩

end Sys2Proof.Machine

/-! O56: counter groups are read and reset (R488 to R490). -/

namespace Sys2Proof.Machine

/-! ## The counters of a group (R488) -/

theorem mem_insertNum {x n : Nat} {l : List Nat} : x ∈ insertNum n l ↔ x = n ∨ x ∈ l := by
  induction l with
  | nil => exact List.mem_singleton.trans (by simp)
  | cons m l ih =>
    unfold insertNum
    split
    · exact List.mem_cons
    · rw [List.mem_cons, ih, List.mem_cons]
      tauto

theorem mem_sortedNums {x : Nat} {l : List Nat} : x ∈ l.foldr insertNum [] ↔ x ∈ l := by
  induction l with
  | nil => exact Iff.rfl
  | cons n l ih => rw [List.foldr_cons, mem_insertNum, ih, List.mem_cons]

/-- The parameter groups that have counters. -/
def counterGroups : List Nat :=
  [0x02, 0x01, 0x10, 0x11, 0x12, 0x20, 0x21, 0x22, 0x28, 0x70, 0x30, 0x40, 0x41, 0x42, 0x43, 0x50, 0x51, 0x60, 0x80, 0x90, 0xA0, 0xB0]

theorem mem_counterGroups {g n : Nat} (h : n ∈ counterNums g) : g ∈ counterGroups := by
  unfold counterNums at h
  split at h
  all_goals simp_all [counterGroups]

/-- A row of counters describes each of its numbers, and no fixed parameter has one of them. -/
def counterRowOk (g : Nat) (p : Param) : Bool :=
  !(counterNums g).contains p.num || (p.insts.all fun r => decide (r.2 < 256)) && (expandNums p.num p.subs).all fun n =>
    decide (n < 65536) && (decide (baseNum p.subs n = p.num) && (p.subs.all fun d => decide (digitOf n d < d.2.2))) &&
      (catalogueOf g).all fun q => !q.fixed || decide (baseNum q.subs n ≠ q.num)

theorem counterRows_ok : ∀ g ∈ counterGroups, g < 256 ∧ ∀ p ∈ catalogueOf g, counterRowOk g p = true := by decide

theorem idOf_fields {g inst n : Nat} (hg : g < 256) (hinst : inst < 256) (hn : n < 65536) :
    idOf g inst n < 2 ^ 32 ∧ idGroup (idOf g inst n) = g ∧ idInst (idOf g inst n) = inst ∧ idNum (idOf g inst n) = n := by
  unfold idGroup idInst idNum bits idOf
  omega

/-- Whether an ID names a parameter that can change. -/
def changes (id : Nat) : Bool := (paramOf id).any fun p => !p.fixed

/-- The counters of a group are parameters that can change. -/
theorem counterGroup_changes {g inst n : Nat} (h : n ∈ counterGroup g inst) : changes (idOf g inst n) = true := by
  unfold counterGroup at h
  obtain ⟨p, hp, hn⟩ := List.mem_flatMap.1 (mem_sortedNums.1 h)
  obtain ⟨hrow, hcounts⟩ := List.mem_filter.1 hp
  simp only [Bool.and_eq_true, List.contains_iff_mem] at hcounts
  obtain ⟨hnum, hinst⟩ := hcounts
  obtain ⟨hg, hok⟩ := counterRows_ok g (mem_counterGroups hnum)
  have hok := hok p hrow
  unfold counterRowOk at hok
  simp only [List.contains_iff_mem.2 hnum, Bool.not_true, Bool.false_or, Bool.and_eq_true, List.all_eq_true] at hok
  obtain ⟨hinsts, hnums⟩ := hok
  obtain ⟨⟨hlt, hcovers⟩, hfixed⟩ := hnums n hn
  obtain ⟨r, hr, hin⟩ := List.any_eq_true.1 hinst
  have hlast := of_decide_eq_true (hinsts r hr)
  have hin' := of_decide_eq_true hin
  obtain ⟨hid, hgroup, hidInst, hidNum⟩ := idOf_fields (g := g) (inst := inst) hg (by omega) (of_decide_eq_true hlt)
  have hcov : p.covers (idOf g inst n) = true := by
    unfold Param.covers
    rw [hidInst, hidNum, hinst, Bool.true_and, Bool.and_eq_true]
    exact ⟨hcovers.1, List.all_eq_true.2 hcovers.2⟩
  have hsome : ((catalogueOf g).find? fun q => q.covers (idOf g inst n)).isSome = true := List.find?_isSome.2 ⟨p, hrow, hcov⟩
  obtain ⟨q, hq⟩ := Option.isSome_iff_exists.1 hsome
  have hqrow := List.mem_of_find?_eq_some hq
  have hqcov : q.covers (idOf g inst n) = true := List.find?_some (p := fun q : Param => q.covers (idOf g inst n)) hq
  have hfree : q.fixed = false := by
    have hq' := hfixed q hqrow
    unfold Param.covers at hqcov
    rw [hidNum] at hqcov
    simp only [Bool.and_eq_true, decide_eq_true_eq] at hqcov
    simpa [hqcov.1.2] using hq'
  unfold changes paramOf
  rw [if_pos hid, hgroup, hq]
  simp [hfree]

theorem rd_wr_zero_of_changes {id : Nat} (h : changes id = true) (s : State) : (s.wr id 0).rd id = 0 := by
  obtain ⟨p, hp, hrow⟩ := (Option.any_eq_true _ _).1 h
  rw [rd_wr_same hp (by simpa using hrow), Nat.zero_mod]

/-- Counters are set to 0. -/
theorem rd_cleared {ids : List Nat} (h : ∀ id ∈ ids, changes id = true) (s : State) (id : Nat) :
    (ids.foldl (fun (t : State) id => t.wr id 0) s).rd id = if id ∈ ids then 0 else s.rd id := by
  induction ids generalizing s with
  | nil => exact (if_neg List.not_mem_nil).symm
  | cons j ids ih =>
    rw [List.foldl_cons, ih (fun i hi => h i (List.mem_cons_of_mem _ hi))]
    by_cases hmem : id ∈ ids
    · rw [if_pos hmem, if_pos (List.mem_cons_of_mem _ hmem)]
    rw [if_neg hmem]
    by_cases hj : id = j
    · rw [if_pos (by simp [hj]), hj]
      exact rd_wr_zero_of_changes (h j (List.mem_cons_self ..)) s
    · rw [if_neg (by simp [hj, hmem]), rd_wr_other hj]

theorem cleared_only (s : State) (ids : List Nat) : OnlyChanges [] ids s (ids.foldl (fun (t : State) id => t.wr id 0) s) :=
  OnlyChanges.foldl _ (.nothing s) fun t id hid => (wr_only t id 0).mono (by simp) (by simpa using hid)

/-! ## OBS_READ and COUNTER_RESET (R488 to R490) -/

theorem heard_snapshot {s : State} {r : Req} {op : Nat} (h : s.takes r op) (g : GroupRef) : (s.heard r).snapshot g = s.snapshot g := by
  obtain ⟨x, hx⟩ := heard_of_takes h
  rw [hx]
  rfl

/-- A read is refused where it names no group, too many, or an unknown one. -/
def readRefused (groups : List GroupRef) : Prop := groups = [] ∨ 16 < groups.length ∨ ∃ g ∈ groups, counterGroup g.group g.inst = []

theorem exec_obsRead_refused {s : State} {r : Req} (h : s.takes r 0x70) {groups : List GroupRef} (hbad : readRefused groups) :
    exec (.obsRead r groups) s = .next ((s.heard r).reply r 0x70 Status.BAD_PARAM []) := by
  show execObsRead r groups s = _
  rw [execObsRead, request_of_takes _ h]
  refine congrArg Host.Outcome.next (if_pos ?_)
  rcases hbad with hbad | hbad | ⟨g, hg, hbad⟩
  · exact .inl (by simp [hbad])
  · exact .inr (.inl hbad)
  · exact .inr (.inr (List.any_eq_true.2 ⟨g, hg, by simp [hbad]⟩))

theorem exec_obsRead {s : State} {r : Req} (h : s.takes r 0x70) {groups : List GroupRef} (hsome : groups ≠ []) (hfew : groups.length ≤ 16)
    (hknown : ∀ g ∈ groups, counterGroup g.group g.inst ≠ []) :
    exec (.obsRead r groups) s = .next (((s.heard r).countBy Obs.SNAPSHOTS groups.length).reply r 0x70 Status.OK (groups.flatMap s.snapshot)) := by
  show execObsRead r groups s = _
  have hbody : groups.flatMap (s.heard r).snapshot = groups.flatMap s.snapshot := congrArg groups.flatMap (funext (heard_snapshot h))
  have hgood : ¬(groups.length = 0 ∨ 16 < groups.length ∨ groups.any (fun g => (counterGroup g.group g.inst).isEmpty) = true) := by
    simp only [List.any_eq_true, List.isEmpty_iff, List.length_eq_zero_iff, not_or, not_exists, not_and]
    exact ⟨hsome, by omega, hknown⟩
  rw [execObsRead, request_of_takes _ h, ← hbody]
  exact congrArg Host.Outcome.next (if_neg hgood)

/-- The counters that a reset of a group clears. -/
def resetIds (g : GroupRef) : List Nat := ((counterGroup g.group g.inst).map (idOf g.group g.inst)).filter fun id => !resetExempt.contains id

theorem resetIds_change (g : GroupRef) : ∀ id ∈ resetIds g, changes id = true := by
  intro id hid
  obtain ⟨n, hn, rfl⟩ := List.mem_map.1 (List.mem_filter.1 hid).1
  exact counterGroup_changes hn

theorem exec_counterReset {s : State} {r : Req} (h : s.takes r 0x73) (g : GroupRef) :
    exec (.counterReset r g) s = .next (
      if counterGroup g.group g.inst = [] then (s.heard r).reply r 0x73 Status.BAD_PARAM []
      else if s.owns r.sess 63 = false then (s.heard r).reply r 0x73 Status.NOT_OWNER []
      else (((resetIds g).foldl (fun (t : State) id => t.wr id 0) (s.heard r)).count Obs.COUNTER_RESETS).reply r 0x73 Status.OK []) := by
  show execCounterReset r g s = _
  rw [execCounterReset, request_of_takes _ h, heard_owns]
  simp only [List.isEmpty_iff]
  rfl

/-- Settles O56: the counters of a group are parameters that can change, and a reset writes each of them. -/
theorem countersAreReadAndReset : Obligations.CountersAreReadAndReset := by
  unfold Obligations.CountersAreReadAndReset
  intro r s
  refine ⟨fun groups htakes => ⟨fun hbad => ?_, fun hsome hfew hknown => ?_⟩, fun g htakes => ?_⟩
  · exact ⟨_, exec_obsRead_refused htakes hbad, replied_reply .., heardReply_only ..⟩
  · let u := (s.heard r).countBy Obs.SNAPSHOTS groups.length
    have hheard := heard_only s r
    have hcount : OnlyChanges [] [Obs.SNAPSHOTS] (s.heard r) u := countBy_only ..
    have hreply := reply_only u r 0x70 Status.OK (groups.flatMap s.snapshot)
    refine ⟨_, exec_obsRead htakes hsome hfew hknown, replied_reply .., ?_, ((hheard.trans hcount).trans hreply).mono (by simp) (by simp)⟩
    rw [hreply.rd (by decide), rd_countBy_counter (by decide), heard_rd]
  · have hexec := exec_counterReset htakes g
    intro ids
    refine ⟨fun hnone => ?_, fun hsome howns => ?_, fun hsome howns => ?_⟩
    · rw [if_pos hnone] at hexec
      exact ⟨_, hexec, replied_reply .., heardReply_only ..⟩
    · rw [if_neg hsome, if_pos howns] at hexec
      exact ⟨_, hexec, replied_reply .., heardReply_only ..⟩
    · rw [if_neg hsome, if_neg (by simp [howns])] at hexec
      let u := (resetIds g).foldl (fun (t : State) id => t.wr id 0) (s.heard r)
      let v := u.count Obs.COUNTER_RESETS
      have hcleared := cleared_only (s.heard r) (resetIds g)
      have hcount : OnlyChanges [] [Obs.COUNTER_RESETS] u v := count_only ..
      have hreply := reply_only v r 0x73 Status.OK []
      have hread := rd_cleared (resetIds_change g) (s.heard r)
      refine ⟨_, hexec, replied_reply .., fun id hid htx hne => ?_, ?_, ((((heard_only s r).trans hcleared).trans hcount).trans hreply).mono (by simp) ?_⟩
      · rw [hreply.rd htx, hcount.rd (by simpa using hne)]
        exact (hread id).trans (if_pos hid)
      · have hresets : u.rd Obs.COUNTER_RESETS = if Obs.COUNTER_RESETS ∈ ids then 0 else s.rd Obs.COUNTER_RESETS := (hread _).trans (by rw [heard_rd]; rfl)
        rw [hreply.rd (by decide), rd_count_counter (by decide), hresets]
      · simp only [List.mem_append, List.mem_cons, List.not_mem_nil, or_false, false_or]
        rintro id ((hid | hid) | hid)
        · exact .inl (.inr hid)
        · exact .inl (.inl hid)
        · exact .inr hid

end Sys2Proof.Machine

/-! What a trace record does at a subscription (R491 to R493). -/

namespace Sys2Proof.Machine

/-! ## Destinations -/

theorem dest_setDest_same (s : State) (d : Nat) (x : TraceDest) : (s.setDest d x).dest d = x := tget_tset_same ..

theorem dest_setDest_other {d e : Nat} (h : e ≠ d) (s : State) (x : TraceDest) : (s.setDest d x).dest e = s.dest e := tget_tset_other h

theorem OnlyChanges.dest {ps : List Part} {ids : List Nat} {s t : State} (h : OnlyChanges ps ids s t) (hp : .obs ∉ ps) (d : Nat) : t.dest d = s.dest d :=
  congrArg (fun o : ObsSt => tget o.dests d {}) (h.2.1 .obs hp)

theorem tfind_filter_kept {α : Type} {l : Table α} {k : Nat} {p : Nat × α → Bool} (h : ∀ a, tfind l k = some a → p (k, a) = true) :
    tfind (l.filter p) k = tfind l k := by
  induction l with
  | nil => rfl
  | cons e l ih =>
    have hcons : tfind (e :: l) k = if e.1 = k then some e.2 else tfind l k := rfl
    by_cases he : e.1 = k
    · rw [hcons, if_pos he] at h ⊢
      have hkeep : p e = true := by rw [← he] at h; exact h e.2 rfl
      rw [List.filter_cons, if_pos hkeep]
      exact if_pos he
    · rw [hcons, if_neg he] at h ⊢
      rw [List.filter_cons]
      split
      · exact (if_neg he).trans (ih h)
      · exact ih h

theorem mem_of_tfind {α : Type} {l : Table α} {k : Nat} {a : α} (h : tfind l k = some a) : (k, a) ∈ l := by
  induction l with
  | nil => simp [tfind] at h
  | cons e l ih =>
    have hcons : tfind (e :: l) k = if e.1 = k then some e.2 else tfind l k := rfl
    rw [hcons] at h
    split at h
    · next he =>
      rw [← he, ← Option.some_inj.1 h]
      exact List.mem_cons_self ..
    · exact List.mem_cons_of_mem _ (ih h)

/-- The subscription of a session ends, and no other. -/
theorem endSubscription_dest (s : State) {sess : Nat} (hsess : sess ≠ 0) :
    (∀ d, d ≠ 0 → ((s.endSubscription sess).dest d).sess ≠ sess) ∧ ∀ d, (s.dest d).sess ≠ sess → (s.endSubscription sess).dest d = s.dest d := by
  let kept (p : Nat × TraceDest) : Bool := p.1 == 0 || p.2.sess != sess
  have hdest (d : Nat) : (s.endSubscription sess).dest d = (tfind (s.obs.dests.filter kept) d).getD {} := rfl
  refine ⟨fun d hd => ?_, fun d hd => ?_⟩
  · rw [hdest]
    cases hfind : tfind (s.obs.dests.filter kept) d with
    | none => exact fun h => hsess h.symm
    | some a =>
      have hkept := (List.mem_filter.1 (mem_of_tfind hfind)).2
      simpa [kept, hd] using hkept
  · have hold : s.dest d = (tfind s.obs.dests d).getD {} := rfl
    rw [hdest, hold, tfind_filter_kept fun a ha => ?_]
    rw [hold, ha] at hd
    simpa [kept] using .inr hd

/-! ## One record, one destination (R491) -/

/-- What a trace record leaves of a destination: it, what it takes, the time, and the count of what it dropped. -/
def DestSpared (k : Nat) (s t : State) : Prop :=
  (∃ ids, (∀ id ∈ ids, id % 0x10000 ∈ [0x32, 0x33] ∧ id ≠ Obs.TRACE_DROPPED k) ∧ OnlyChanges [.out, .obs] ids s t) ∧ t.dest k = s.dest k

theorem DestSpared.refl (k : Nat) (s : State) : DestSpared k s s := ⟨⟨[], by simp, .nothing s⟩, rfl⟩

theorem DestSpared.trans {k : Nat} {s t u : State} (h : DestSpared k s t) (g : DestSpared k t u) : DestSpared k s u := by
  obtain ⟨⟨ids, hids, h⟩, hdest⟩ := h
  obtain ⟨⟨js, hjs, g⟩, gdest⟩ := g
  exact ⟨⟨ids ++ js, fun id hid => (List.mem_append.1 hid).elim (hids id) (hjs id), (h.trans g).mono (by simp) fun _ h => h⟩, gdest.trans hdest⟩

/-- A record for a destination reads nothing that another one moves. -/
theorem DestSpared.reads {k : Nat} {s t : State} (h : DestSpared k s t) :
    t.clock = s.clock ∧ t.deviceTime = s.deviceTime ∧ t.syncPayload = s.syncPayload ∧ (k ≠ 0 → ∀ type source, t.traceTakes k type source = s.traceTakes k type source) ∧
      t.rd (Obs.TRACE_DROPPED k) = s.rd (Obs.TRACE_DROPPED k) := by
  obtain ⟨⟨ids, hids, honly⟩, hdest⟩ := h
  have hrd {id : Nat} (hid : id % 0x10000 ∉ [0x32, 0x33]) : t.rd id = s.rd id := honly.rd fun hmem => hid (hids id hmem).1
  have hclock : t.clock = s.clock := honly.clock (by simp)
  have htime : t.deviceTime = s.deviceTime := by
    unfold State.deviceTime
    rw [hclock, honly.2.1 .time (by simp)]
  refine ⟨hclock, htime, ?_, fun hk type source => ?_, honly.rd fun hmem => (hids _ hmem).2 rfl⟩
  · unfold State.syncPayload State.epoch State.tickSeq
    rw [htime, hrd (id := Time.TIME_EPOCH) (by decide), hrd (id := Tick.TICK_SEQUENCE) (by decide)]
  · have hdest' : tget t.obs.dests k {} = tget s.obs.dests k {} := hdest
    unfold State.traceTakes
    rw [if_neg hk, if_neg hk, hdest', hrd (id := Obs.TRACE_CONTEXTS) (by decide)]

theorem traceDropped_number (d : Nat) : Obs.TRACE_DROPPED d % 0x10000 = 0x33 := Nat.add_mul_mod_self_right ..

theorem traceDropped_inj {d e : Nat} (h : Obs.TRACE_DROPPED d = Obs.TRACE_DROPPED e) : d = e := by
  unfold Obs.TRACE_DROPPED at h
  omega

theorem drainPort_dest {k : Nat} (hk : k ≠ 0) (s : State) : s.drainPort.dest k = s.dest k := by
  unfold State.drainPort
  dsimp only
  split
  · rfl
  · refine (tget_tset_other hk).trans ?_
    have hemits := OnlyChanges.foldl (ps := [.out]) (ids := [])
      ((tget s.obs.dests 0 {}).buffer.take (min (tget s.obs.dests 0 {}).buffer.length ((s.clock - (tget s.obs.dests 0 {}).creditAt) / portRecordNs)))
      (.nothing s) fun t b _ => emitQuiet_only (o := .trace 0 b) t rfl
    exact hemits.dest (by simp) k

/-- A record for one destination spares the others. -/
theorem traceTo_spares {k d : Nat} (hk : k ≠ 0) (hd : d ≠ k) (s : State) (type source : Nat) (payload : List Byte) :
    DestSpared k s (s.traceTo d type source payload) := by
  refine ⟨⟨[Obs.TRACE_DROPPED d], fun id hid => ?_, traceTo_dropped ..⟩, ?_⟩
  · rw [List.mem_singleton.1 hid, traceDropped_number]
    exact ⟨by decide, fun h => hd (traceDropped_inj h)⟩
  · have hdrain : (if d = 0 then s.drainPort else s).dest k = s.dest k := by
      split
      · exact drainPort_dest hk s
      · rfl
    unfold State.traceTo
    split
    · dsimp only
      generalize (if d = 0 then s.drainPort else s) = u at hdrain
      split
      · rw [(count_only ..).dest (by simp)]
        exact (tget_tset_other (Ne.symm hd)).trans hdrain
      · exact (tget_tset_other (Ne.symm hd)).trans hdrain
    · rfl

/-- A record reaches each destination once. -/
theorem trace_reaches {k : Nat} (hlo : k ≠ 0) (hhi : k < 5) (s : State) (type source : Nat) (payload : List Byte) :
    ∃ u, DestSpared k s u ∧ DestSpared k (u.traceTo k type source payload) (s.trace type source payload) := by
  let offer (t : State) (d : Nat) : State := t.traceTo d type source payload
  have hothers : ∀ l : List Nat, k ∉ l → ∀ t : State, DestSpared k t (l.foldl offer t) := fun l hl t =>
    List.foldlRecOn (motive := DestSpared k t) l offer (.refl k t) fun u hu d hd => hu.trans (traceTo_spares hlo (fun h => hl (h ▸ hd)) u type source payload)
  obtain ⟨before, after, hsplit⟩ := List.append_of_mem (List.mem_range.2 hhi)
  have hnodup : (before ++ k :: after).Nodup := hsplit ▸ List.nodup_range
  obtain ⟨-, hafter, hdisjoint⟩ := List.nodup_append.1 hnodup
  have hcount : DestSpared k s (s.count Obs.TRACE_RECORDS) := by
    refine ⟨⟨[Obs.TRACE_RECORDS], fun id hid => ?_, (count_only ..).mono (by simp) fun _ h => h⟩, (count_only ..).dest (by simp) k⟩
    rw [List.mem_singleton.1 hid]
    exact ⟨by decide, fun h => absurd ((traceDropped_number k).symm.trans (congrArg (· % 0x10000) h.symm)) (by decide)⟩
  let u := before.foldl offer (s.count Obs.TRACE_RECORDS)
  have htrace : s.trace type source payload = after.foldl offer (offer u k) := by
    unfold State.trace
    rw [hsplit, List.foldl_append, List.foldl_cons]
  refine ⟨u, hcount.trans (hothers before (fun h => hdisjoint k h k (List.mem_cons_self ..) rfl) _), ?_⟩
  rw [htrace]
  exact hothers after (List.nodup_cons.1 hafter).1 _

end Sys2Proof.Machine

/-! O57: subscriptions are held by their session, and trace records reach them (R491 to R493). -/

namespace Sys2Proof.Machine

/-! ## A record at a subscription (R491, R493) -/

theorem traceTo_refused {s : State} {k type source : Nat} (h : s.traceTakes k type source = false) (payload : List Byte) : s.traceTo k type source payload = s :=
  if_neg (by simp [h])

/-- The subscription at a moment: its budget filled up. -/
def TraceDest.filled (d : TraceDest) (clock : Nat) : TraceDest := { d with credit := d.creditNow clock, creditAt := clock }

theorem destNow_filled {s : State} {k : Nat} (h : k ≠ 0) : s.destNow k = (s.dest k).filled s.clock := if_neg h

theorem afterLost_none {d : TraceDest} (h : d.lost = 0) (k time : Nat) (sync : List Byte) : d.afterLost k time sync = d := if_neg (by simp [h])

theorem room_filled {k : Nat} (hk : k ≠ 0) (d : TraceDest) (clock n : Nat) :
    (d.filled clock).room k n = (decide (d.buffer.length + n ≤ traceRoom) && decide (32 * n ≤ d.creditNow clock)) := by
  have hport : (k == 0) = false := beq_eq_false_iff_ne.2 hk
  show (_ && (k == 0 || _)) = _
  rw [hport]
  rfl

section
variable {s : State} {k type source : Nat} (hk : k ≠ 0) (htakes : s.traceTakes k type source = true) (hlost : (s.dest k).lost = 0) (payload : List Byte)
include hk htakes hlost

/-- A record is buffered where there is room. -/
theorem traceTo_buffers (hroom : (s.dest k).buffer.length < traceRoom) (hcredit : 32 ≤ (s.dest k).creditNow s.clock) :
    s.traceTo k type source payload = s.setDest k (((s.dest k).filled s.clock).push type source (bits s.deviceTime 33 2) payload) := by
  have hnow : (s.destNow k).afterLost k (bits s.deviceTime 33 2) s.syncPayload = (s.dest k).filled s.clock :=
    (congrArg (TraceDest.afterLost · k _ _) (destNow_filled hk)).trans (afterLost_none (d := (s.dest k).filled s.clock) hlost ..)
  have hfull : (((s.dest k).filled s.clock).lost != 0 || !((s.dest k).filled s.clock).room k 1) = false := by
    have hlost' : ((s.dest k).filled s.clock).lost = 0 := hlost
    rw [room_filled hk, hlost']
    simp [hcredit, Nat.succ_le_of_lt hroom]
  unfold State.traceTo
  rw [if_pos htakes]
  dsimp only
  rw [if_neg hk, hnow, hfull]
  rfl

/-- A record is dropped, and counted, where there is none. -/
theorem traceTo_drops (hfull : traceRoom ≤ (s.dest k).buffer.length ∨ (s.dest k).creditNow s.clock < 32) :
    s.traceTo k type source payload =
      (s.setDest k { (s.dest k).filled s.clock with seq := ((s.dest k).seq + 1) % 65536, lost := 1 }).count (Obs.TRACE_DROPPED k) := by
  have hnow : (s.destNow k).afterLost k (bits s.deviceTime 33 2) s.syncPayload = (s.dest k).filled s.clock :=
    (congrArg (TraceDest.afterLost · k _ _) (destNow_filled hk)).trans (afterLost_none (d := (s.dest k).filled s.clock) hlost ..)
  have hfull' : (((s.dest k).filled s.clock).lost != 0 || !((s.dest k).filled s.clock).room k 1) = true := by
    have hroom : ((s.dest k).filled s.clock).room k 1 = false := by
      rw [room_filled hk, Bool.and_eq_false_iff, decide_eq_false_iff_not, decide_eq_false_iff_not]
      exact hfull.imp (fun h => by omega) fun h => by omega
    simp [hroom]
  have hone : ((s.dest k).filled s.clock).lost + 1 = 1 := congrArg (· + 1) hlost
  unfold State.traceTo
  rw [if_pos htakes]
  dsimp only
  rw [if_neg hk, hnow, hfull', hone]
  rfl

end

/-- What a trace record leaves at a subscription. -/
theorem trace_subscription {k : Nat} (hlo : k ≠ 0) (hhi : k < 5) (s : State) (type source : Nat) (payload : List Byte) :
    let t := s.trace type source payload
    (s.traceTakes k type source = false → t.dest k = s.dest k) ∧
      (s.traceTakes k type source = true → (s.dest k).lost = 0 →
        ((s.dest k).buffer.length < traceRoom → 32 ≤ (s.dest k).creditNow s.clock →
          t.dest k = ((s.dest k).filled s.clock).push type source (bits s.deviceTime 33 2) payload ∧ t.rd (Obs.TRACE_DROPPED k) = s.rd (Obs.TRACE_DROPPED k)) ∧
        (traceRoom ≤ (s.dest k).buffer.length ∨ (s.dest k).creditNow s.clock < 32 →
          t.dest k = { (s.dest k).filled s.clock with seq := ((s.dest k).seq + 1) % 65536, lost := 1 } ∧
            t.rd (Obs.TRACE_DROPPED k) = countUp (s.rd (Obs.TRACE_DROPPED k)) 1)) := by
  intro t
  obtain ⟨u, hbefore, hafter⟩ := trace_reaches hlo hhi s type source payload
  obtain ⟨hclock, htime, -, htakes, hdropped⟩ := hbefore.reads
  obtain ⟨-, -, -, -, hdropped'⟩ := hafter.reads
  have hdest : u.dest k = s.dest k := hbefore.2
  have htdest : t.dest k = (u.traceTo k type source payload).dest k := hafter.2
  have htakes' := htakes hlo type source
  refine ⟨fun hrefused => ?_, fun htaken hlost => ⟨fun hroom hcredit => ?_, fun hfull => ?_⟩⟩
  · rw [htdest, traceTo_refused (htakes'.trans hrefused), hdest]
  · have hto := traceTo_buffers hlo (htakes'.trans htaken) (by rw [hdest]; exact hlost) payload (by rw [hdest]; exact hroom) (by rw [hdest, hclock]; exact hcredit)
    rw [htdest, hdropped', hto, ← hdropped, dest_setDest_same, hdest, hclock, htime]
    exact ⟨rfl, rfl⟩
  · have hto := traceTo_drops hlo (htakes'.trans htaken) (by rw [hdest]; exact hlost) payload (by rw [hdest, hclock]; exact hfull)
    have hcounter := (by decide : ∀ j : Fin 5, isCounter (Obs.TRACE_DROPPED j) = true) ⟨k, hhi⟩
    rw [htdest, hdropped', hto, ← hdropped, (count_only ..).dest (by simp), dest_setDest_same, hdest, hclock]
    exact ⟨rfl, rd_count_counter hcounter _⟩

/-- A SYNC record reaches every subscription. -/
theorem traceTakes_sync {s : State} {k : Nat} (hk : k ≠ 0) (hsess : (s.dest k).sess ≠ 0) : s.traceTakes k 0 0 = true := by
  have hsess' : (tget s.obs.dests k {}).sess ≠ 0 := hsess
  unfold State.traceTakes
  rw [if_neg hk]
  simp [hsess']

/-- The LOST record of a subscription, and the SYNC record after it. -/
theorem traceLost_sends {s : State} {k : Nat} (hk : k ≠ 0) (hlost : (s.dest k).lost ≠ 0) (hroom : (s.dest k).buffer.length + 2 ≤ traceRoom)
    (hcredit : 64 ≤ (s.dest k).creditNow s.clock) :
    s.traceLost k = s.setDest k (({ (s.dest k).filled s.clock with lost := 0 }.push 8 0 (bits s.deviceTime 33 2) (leBytes 4 (s.dest k).lost)).push 0 0
      (bits s.deviceTime 33 2) s.syncPayload) := by
  have hdue : ((s.dest k).filled s.clock).lost ≠ 0 ∧ ((s.dest k).filled s.clock).room k 2 = true := by
    refine ⟨hlost, ?_⟩
    rw [room_filled hk, Bool.and_eq_true, decide_eq_true_eq, decide_eq_true_eq]
    exact ⟨hroom, by omega⟩
  have hafter : ((s.dest k).filled s.clock).afterLost k (bits s.deviceTime 33 2) s.syncPayload =
      ({ (s.dest k).filled s.clock with lost := 0 }.push 8 0 (bits s.deviceTime 33 2) (leBytes 4 (s.dest k).lost)).push 0 0 (bits s.deviceTime 33 2) s.syncPayload :=
    if_pos hdue
  unfold State.traceLost
  dsimp only
  rw [if_neg hk, destNow_filled hk, if_pos hdue, hafter]
  rfl

end Sys2Proof.Machine

/-! O57: subscriptions and their records (R491 to R493). -/

namespace Sys2Proof.Machine

/-! ## OBS_SUBSCRIBE and OBS_UNSUBSCRIBE (R493) -/

/-- The subscription that a session gets. -/
def State.subscription (s : State) (sess : Nat) : Option Nat :=
  ([1, 2, 3, 4].find? fun d => (s.dest d).sess == sess).or ([1, 2, 3, 4].find? fun d => (s.dest d).sess == 0)

theorem mem_subscriptions {d : Nat} : d ∈ [1, 2, 3, 4] ↔ 1 ≤ d ∧ d ≤ 4 := by
  simp only [List.mem_cons, List.not_mem_nil, or_false]
  omega

theorem subscription_none {s : State} {sess : Nat} (h : ∀ d, 1 ≤ d → d ≤ 4 → (s.dest d).sess ≠ 0 ∧ (s.dest d).sess ≠ sess) : s.subscription sess = none := by
  have hfind (x : Nat) (hx : ∀ d, 1 ≤ d → d ≤ 4 → (s.dest d).sess ≠ x) : ([1, 2, 3, 4].find? fun d => (s.dest d).sess == x) = none :=
    List.find?_eq_none.2 fun d hd => by
      obtain ⟨hlo, hhi⟩ := mem_subscriptions.1 hd
      simpa using hx d hlo hhi
  unfold State.subscription
  rw [hfind sess fun d hlo hhi => (h d hlo hhi).2, hfind 0 fun d hlo hhi => (h d hlo hhi).1]
  rfl

/-- The session's own subscription comes before a free one. -/
theorem subscription_some {s : State} {sess : Nat} (h : ∃ d, 1 ≤ d ∧ d ≤ 4 ∧ ((s.dest d).sess = 0 ∨ (s.dest d).sess = sess)) :
    ∃ d, s.subscription sess = some d ∧ 1 ≤ d ∧ d ≤ 4 ∧
      ((s.dest d).sess = sess ∨ (s.dest d).sess = 0 ∧ ∀ e, 1 ≤ e → e ≤ 4 → (s.dest e).sess ≠ sess) := by
  unfold State.subscription
  cases hown : [1, 2, 3, 4].find? fun d => (s.dest d).sess == sess with
  | some d =>
    obtain ⟨hlo, hhi⟩ := mem_subscriptions.1 (List.mem_of_find?_eq_some hown)
    have hd := List.find?_some (p := fun d => (s.dest d).sess == sess) hown
    exact ⟨d, rfl, hlo, hhi, .inl (by simpa using hd)⟩
  | none =>
    have hothers : ∀ e, 1 ≤ e → e ≤ 4 → (s.dest e).sess ≠ sess := fun e hlo hhi => by
      simpa using List.find?_eq_none.1 hown e (mem_subscriptions.2 ⟨hlo, hhi⟩)
    obtain ⟨e, hlo, hhi, he⟩ := h
    have hfree := he.resolve_right (hothers e hlo hhi)
    have hsome : ([1, 2, 3, 4].find? fun d => (s.dest d).sess == 0).isSome = true :=
      List.find?_isSome.2 ⟨e, mem_subscriptions.2 ⟨hlo, hhi⟩, by simp [hfree]⟩
    obtain ⟨d, hd⟩ := Option.isSome_iff_exists.1 hsome
    obtain ⟨hdlo, hdhi⟩ := mem_subscriptions.1 (List.mem_of_find?_eq_some hd)
    have hdfree := List.find?_some (p := fun d => (s.dest d).sess == 0) hd
    exact ⟨d, hd, hdlo, hdhi, .inr ⟨by simpa using hdfree, hothers⟩⟩

theorem heard_dest (s : State) (r : Req) (d : Nat) : (s.heard r).dest d = s.dest d := (heard_only s r).dest (by simp) d

theorem heard_subscription (s : State) (r : Req) (sess : Nat) : (s.heard r).subscription sess = s.subscription sess := by
  unfold State.subscription
  simp only [heard_dest]

theorem exec_obsSubscribe_refused {s : State} {r : Req} (h : s.takes r 0x71) {rate : Nat} (hrate : rate < 10000 ∨ 50000000 < rate) (types : Nat) :
    exec (.obsSubscribe r types rate) s = .next ((s.heard r).reply r 0x71 Status.RANGE []) := by
  show execObsSubscribe r types rate s = _
  rw [execObsSubscribe, request_of_takes _ h]
  exact congrArg Host.Outcome.next (if_pos (by unfold traceRateOk; simp; omega))

/-- A subscription begins, or none is free. -/
def State.subscribed (s : State) (r : Req) (types rate : Nat) : State :=
  match s.subscription r.sess with
  | none => s.reply r 0x71 Status.NO_RESOURCE []
  | some d => (s.setDest d { sess := r.sess, types := types, rate := rate, credit := rate, creditAt := s.clock }).reply r 0x71 Status.OK []

theorem subscribed_none {s : State} {r : Req} (h : s.subscription r.sess = none) (types rate : Nat) :
    s.subscribed r types rate = s.reply r 0x71 Status.NO_RESOURCE [] := by
  unfold State.subscribed
  split
  · rfl
  · next hsome => exact absurd (h.symm.trans hsome) (by simp)

theorem subscribed_some {s : State} {r : Req} {d : Nat} (h : s.subscription r.sess = some d) (types rate : Nat) :
    s.subscribed r types rate =
      (s.setDest d { sess := r.sess, types := types, rate := rate, credit := rate, creditAt := s.clock }).reply r 0x71 Status.OK [] := by
  unfold State.subscribed
  split
  · next hnone => exact absurd (h.symm.trans hnone) (by simp)
  · next e he => rw [Option.some_inj.1 (he.symm.trans h)]

theorem exec_obsSubscribe {s : State} {r : Req} (h : s.takes r 0x71) {rate : Nat} (hlo : 10000 ≤ rate) (hhi : rate ≤ 50000000) (types : Nat) :
    exec (.obsSubscribe r types rate) s = .next ((s.heard r).subscribed r types rate) := by
  show execObsSubscribe r types rate s = _
  rw [execObsSubscribe, request_of_takes _ h]
  exact congrArg Host.Outcome.next (if_neg (by unfold traceRateOk; simp [hlo, hhi]))

theorem exec_obsUnsubscribe {s : State} {r : Req} (h : s.takes r 0x72) :
    exec (.obsUnsubscribe r) s = .next (((s.heard r).endSubscription r.sess).reply r 0x72 Status.OK []) := by
  show execObsUnsubscribe r s = _
  rw [execObsUnsubscribe, request_of_takes _ h]

/-! ## Records and datagrams -/

/-- The time of the next SYNC record. -/
def State.setNextSync (s : State) (due : Nat) : State := { s with obs := { s.obs with nextSync := due } }

theorem setNextSync_only (s : State) (due : Nat) : OnlyChanges [.obs] [] s (s.setNextSync due) := by
  refine ⟨rfl, fun p hp => ?_, fun _ _ => rfl⟩
  cases p with
  | obs => simp at hp
  | mem => exact fun _ => rfl
  | buffers | qps => exact ⟨rfl, rfl⟩
  | nmp => exact ⟨rfl, rfl, rfl, rfl, rfl⟩
  | _ => rfl

theorem setNextSync_dest (s : State) (due k : Nat) : (s.setNextSync due).dest k = s.dest k := rfl

theorem setNextSync_time (s : State) (due : Nat) : (s.setNextSync due).obs.nextSync = due := rfl

/-- A SYNC record is sent, and the next one is due an interval later. -/
def State.sendSync (s : State) : State :=
  let t := s.trace 0 0 s.syncPayload
  t.setNextSync (t.clock + t.rd Obs.TRACE_SYNC_INTERVAL * 1000000)

theorem exec_traceSyncInterval {s : State} (h : s.traceRuns = true) : exec .traceSyncInterval s = .next (s.at s.obs.nextSync).sendSync := by
  show execTraceSyncInterval s = _
  unfold execTraceSyncInterval State.sendSync State.setNextSync
  rw [if_pos h]

/-- The time and the payload of a SYNC record stand while it is sent. -/
theorem syncPayload_congr {ps : List Part} {ids : List Nat} {s t : State} (h : OnlyChanges ps ids s t) (hclock : .clock ∉ ps) (htime : .time ∉ ps)
    (hids : Time.TIME_EPOCH ∉ ids ∧ Tick.TICK_SEQUENCE ∉ ids) : t.deviceTime = s.deviceTime ∧ t.syncPayload = s.syncPayload := by
  have hdevice : t.deviceTime = s.deviceTime := by
    unfold State.deviceTime
    rw [h.clock hclock, h.2.1 .time htime]
  refine ⟨hdevice, ?_⟩
  unfold State.syncPayload State.epoch State.tickSeq
  rw [hdevice, h.rd hids.1, h.rd hids.2]

theorem sendSync_sends {k : Nat} (hlo : k ≠ 0) (hhi : k < 5) (s : State) :
    s.sendSync.clock = s.clock ∧ s.sendSync.obs.nextSync = s.clock + s.rd Obs.TRACE_SYNC_INTERVAL * 1000000 ∧
      s.sendSync.rd Obs.TRACE_RECORDS = countUp (s.rd Obs.TRACE_RECORDS) 1 ∧
      ((s.dest k).sess ≠ 0 → (s.dest k).lost = 0 → (s.dest k).buffer.length < traceRoom → 32 ≤ (s.dest k).creditNow s.clock →
        (s.sendSync.dest k).buffer = (s.dest k).buffer ++ [traceRecord 0 0 (bits s.sendSync.deviceTime 33 2) (s.dest k).seq s.sendSync.syncPayload]) ∧
      OnlyChanges [.obs, .out] traceIds s s.sendSync := by
  have hrecord := (trace_subscription hlo hhi s 0 0 s.syncPayload).2
  have hcount := trace_counts s 0 0 s.syncPayload
  have hsent : OnlyChanges [.out, .obs] traceIds s (s.trace 0 0 s.syncPayload) := trace_only ..
  unfold State.sendSync
  dsimp only at *
  generalize s.trace 0 0 s.syncPayload = u at *
  have hdue : u.clock + u.rd Obs.TRACE_SYNC_INTERVAL * 1000000 = s.clock + s.rd Obs.TRACE_SYNC_INTERVAL * 1000000 := by
    rw [hsent.clock (by simp), hsent.rd (by decide)]
  rw [hdue]
  generalize s.clock + s.rd Obs.TRACE_SYNC_INTERVAL * 1000000 = due at *
  have honly := hsent.trans (setNextSync_only u due)
  obtain ⟨htime, hsync⟩ := syncPayload_congr honly (by simp) (by simp) (by decide)
  refine ⟨honly.clock (by simp), setNextSync_time .., ((setNextSync_only u due).rd (by simp)).trans hcount, fun hsess hlost hroom hcredit => ?_, honly.mono (by simp) (by simp)⟩
  · rw [htime, hsync, setNextSync_dest]
    exact congrArg TraceDest.buffer ((hrecord (traceTakes_sync hlo hsess) hlost).1 hroom hcredit).1

theorem exec_traceRecordProduced {s : State} (h : s.traceRuns = true) (type source : Nat) (payload : List Byte) :
    exec (.traceRecordProduced type source payload) s = .next (s.trace type source payload) :=
  congrArg Host.Outcome.next (if_pos h)

theorem exec_traceLostRecord {s : State} (h : s.traceRuns = true) (d : Fin 5) : exec (.traceLostRecord d) s = .next (s.traceLost d.val) :=
  congrArg Host.Outcome.next (if_pos h)

/-- A subscription sends up to `m` of its records in a datagram. -/
def State.sendRecords (s : State) (k m : Nat) (u : Session) : State :=
  let x := s.dest k
  (s.setDest k { x with buffer := x.buffer.drop m, dgram := (x.dgram + 1) % 2 ^ 32 }).sendNmp u.port u.peer true
    ⟨x.sess, x.dgram, 0x71, 0, (x.buffer.take m).flatten⟩

theorem exec_traceSubscriptionSend {d : Fin 4} {s : State} {u : Session} (hsess : s.session (s.dest (d.val + 1)).sess = some u) (hanswers : s.negorAnswers = true)
    {n : Nat} (hn : 0 < n) (hbuffer : (s.dest (d.val + 1)).buffer ≠ []) :
    exec (.traceSubscriptionSend d n) s = .next (s.sendRecords (d.val + 1) (min 44 (min n (s.dest (d.val + 1)).buffer.length)) u) := by
  have hsome : ¬ (s.negorAnswers = false ∨ min 44 (min n (s.dest (d.val + 1)).buffer.length) = 0) := by
    rw [hanswers]
    simp [hn.ne', hbuffer]
  show execTraceSubscriptionSend d n s = _
  unfold execTraceSubscriptionSend
  dsimp only
  rw [hsess]
  exact congrArg Host.Outcome.next (if_neg hsome)

theorem sendRecords_sends (s : State) (k m : Nat) (u : Session) :
    (s.sendRecords k m u).dest k = { s.dest k with buffer := (s.dest k).buffer.drop m, dgram := ((s.dest k).dgram + 1) % 2 ^ 32 } ∧
      (∃ mark, (s.sendRecords k m u).out =
        .nmp u.port u.peer mark true ⟨(s.dest k).sess, (s.dest k).dgram, 0x71, 0, ((s.dest k).buffer.take m).flatten⟩ :: s.out) ∧
      OnlyChanges [.obs, .out, .free] txIds s (s.sendRecords k m u) := by
  let y : TraceDest := { s.dest k with buffer := (s.dest k).buffer.drop m, dgram := ((s.dest k).dgram + 1) % 2 ^ 32 }
  have hset : OnlyChanges [.obs] [] s (s.setDest k y) := setDest_only s k y
  have hdest : (s.setDest k y).dest k = y := dest_setDest_same ..
  have hout : (s.setDest k y).out = s.out := rfl
  unfold State.sendRecords State.sendNmp
  dsimp only
  change OnlyChanges [.obs] [] s _ at hset
  generalize s.setDest k y = v at *
  have hsend := emit_only v (.nmp u.port u.peer (v.control u.port 0) true ⟨(s.dest k).sess, (s.dest k).dgram, 0x71, 0, ((s.dest k).buffer.take m).flatten⟩)
  exact ⟨(hsend.dest (by simp) k).trans hdest, ⟨_, (emit_out ..).trans (congrArg _ hout)⟩, (hset.trans hsend).mono (by simp) (by simp)⟩

/-- Settles O57: a record reaches each destination once and spares the others, so that each subscription is as its own record leaves it. -/
theorem traceReachesItsSubscribers : Obligations.TraceReachesItsSubscribers := by
  unfold Obligations.TraceReachesItsSubscribers
  refine ⟨fun r types rate s hsess => ⟨fun htakes => ⟨fun hrate => ?_, fun hlo hhi hothers => ?_, fun hlo hhi hfree => ?_⟩, fun htakes => ?_⟩, fun d s => ?_⟩
  · exact ⟨_, exec_obsSubscribe_refused htakes hrate types, replied_reply .., heardReply_only ..⟩
  · have hexec := exec_obsSubscribe htakes hlo hhi types
    rw [subscribed_none ((heard_subscription ..).trans (subscription_none hothers))] at hexec
    exact ⟨_, hexec, replied_reply .., heardReply_only ..⟩
  · obtain ⟨d, hd, hdlo, hdhi, howner⟩ := subscription_some hfree
    have hexec := exec_obsSubscribe htakes hlo hhi types
    rw [subscribed_some ((heard_subscription ..).trans hd), heard_clock] at hexec
    let x : TraceDest := { sess := r.sess, types := types, rate := rate, credit := rate, creditAt := s.clock }
    have hset := setDest_only (s.heard r) d x
    have hreply := reply_only ((s.heard r).setDest d x) r 0x71 Status.OK []
    refine ⟨_, d, hexec, replied_reply .., hdlo, hdhi, (hreply.dest (by simp) d).trans (dest_setDest_same ..), howner, fun e he => ?_,
      (((heard_only s r).trans hset).trans hreply).mono (by simp) (by simp)⟩
    rw [hreply.dest (by simp) e, dest_setDest_other he, heard_dest]
  · have hend := endSubscription_only (s.heard r) r.sess
    have hreply := reply_only ((s.heard r).endSubscription r.sess) r 0x72 Status.OK []
    obtain ⟨hgone, hkept⟩ := endSubscription_dest (s.heard r) hsess
    refine ⟨_, exec_obsUnsubscribe htakes, replied_reply .., fun d hd => ?_, fun d hd => ?_, (((heard_only s r).trans hend).trans hreply).mono (by simp) (by simp)⟩
    · rw [hreply.dest (by simp) d]
      exact hgone d hd
    · rw [hreply.dest (by simp) d, hkept d (by rwa [heard_dest]), heard_dest]
  · have hk : d.val + 1 ≠ 0 := by omega
    have hlast : d.val + 1 < 5 := by omega
    intro k x time credit
    refine ⟨fun type source pl hruns => ?_, fun hruns => ?_, fun hruns hlost hroom hcredit => ?_, fun n u hanswers hsession hn hbuffer => ?_⟩
    · obtain ⟨hrefused, htaken⟩ := trace_subscription hk hlast s type source pl
      refine ⟨_, exec_traceRecordProduced hruns .., trace_counts .., (trace_only ..).mono (by simp) fun _ h => h, hrefused, fun htakes hlost =>
        ⟨(htaken htakes hlost).1, fun hfull => ?_⟩⟩
      obtain ⟨hdest, hdropped⟩ := (htaken htakes hlost).2 hfull
      refine ⟨?_, ?_, ?_, hdropped⟩ <;> rw [hdest] <;> rfl
    · have hat : OnlyChanges [.clock] [] s (s.at s.obs.nextSync) := at_only ..
      have hdest : (s.at s.obs.nextSync).dest (d.val + 1) = x := hat.dest (by simp) _
      have hclock : (s.at s.obs.nextSync).clock = max s.clock s.obs.nextSync := rfl
      refine ⟨_, exec_traceSyncInterval hruns, ?_⟩
      have hsent := sendSync_sends hk hlast (s.at s.obs.nextSync)
      rw [hat.rd (by simp), hat.rd (by simp), hdest] at hsent
      obtain ⟨htclock, hnext, hcount, hrecord, honly⟩ := hsent
      exact ⟨htclock.trans hclock, by rw [hnext, htclock], hcount, fun hx hlost hroom hcredit => hrecord hx hlost hroom (by rwa [← htclock]),
        (hat.trans honly).mono (by simp) (by simp)⟩
    · have hto := traceLost_sends (s := s) hk hlost hroom hcredit
      refine ⟨_, (exec_traceLostRecord hruns _).trans (congrArg Host.Outcome.next hto), ?_, ?_, setDest_only ..⟩
      · rw [dest_setDest_same]
        rfl
      · rw [dest_setDest_same]
        exact List.append_assoc ..
    · exact ⟨_, exec_traceSubscriptionSend hsession hanswers hn hbuffer, sendRecords_sends ..⟩

end Sys2Proof.Machine
